-- ==== Sys2Proof/Word.lean ====
section
/-! DEFINITION. The word and byte types of the register map (R6, R387) and the plainest operations on them. -/
namespace Sys2Proof

/-- A register or window word: every access of the map moves one whole 32-bit word (R387). -/
abbrev Word := BitVec 32

/-- One byte of a frame, a window or a buffer. -/
abbrev Byte := BitVec 8

/-- A byte string in ascending offset order. -/
abbrev Bytes := List Byte

/-- The byte whose value is `n` modulo 256. -/
def byte (n : Nat) : Byte := BitVec.ofNat 8 n

/-- The word whose value is `n` modulo 2^32. -/
def word (n : Nat) : Word := BitVec.ofNat 32 n

end Sys2Proof
end

