-- ==== Sys2Proof/Forms.lean ====
section
/-! DEFINITION. The enumerations of the manual's state machines and the records that commands and State share. -/
namespace Sys2Proof

/-- Masters of the address map, in the order of their codes in HOST.VIOL.MASTER (R386). -/
inductive Master where
  | udp | spi | marketSup | quarterSup | safetyCtl | metroCore | debugPort
  deriving DecidableEq, Repr

/-- Worlds, in the order of their codes in HOST.VIOL.WORLD (R407). -/
inductive World where
  | application | safety | metrology | secure
  deriving DecidableEq, Repr

/-- Status codes of R516, in the order of their values. -/
inductive Status where
  | ok | unmapped | denied | locked | sealed | busy | stale | badCrc | badLen
  deriving DecidableEq, Repr

/-- DETAIL values of R392, in the order of their values. -/
inductive Detail where
  | none | access | range | role | state | rate | format | mram
  deriving DecidableEq, Repr

/-- The answer to one access: a status and its detail (R390). -/
structure Answer where
  status : Status
  detail : Detail
  deriving DecidableEq, Repr

/-- States of a profile slot (R55), in the order of PROF_SLOTn.STATE. -/
inductive SlotState where
  | empty | loading | checking | valid | invalid | pending | active
  deriving DecidableEq, Repr

/-- Modes of a profile change (R60), MODE 3 being refused. -/
inductive ChangeMode where
  | stopped | live | handover
  deriving DecidableEq, Repr

/-- States of a stall link (R99), in the order of STL.STAT.STATE. -/
inductive LinkState where
  | off | align | train | run | sleep | fault
  deriving DecidableEq, Repr

/-- States of a cell (R158), in the order of STL.CELLS. -/
inductive CellSt where
  | off | active | shedding | shed | restoring | leaving | withdrawn
  deriving DecidableEq, Repr

/-- States of a stall (R170), in the order of STL.CSTAT.STATE. -/
inductive StallSt where
  | idle | assigned | stopping | stopped | locked
  deriving DecidableEq, Repr

/-- Phases of a move slot (R201), in the order of MKT.MOVEk.PHASE. -/
inductive MovePhase where
  | free | rampDown | opening | closing | rampUp
  deriving DecidableEq, Repr

/-- States of a session (R220), in the order of BAY.STAT.STATE. -/
inductive SessSt where
  | idle | connected | setup | authorising | parameters | cableCheck | precharge | power | rampDown
  | weldCheck | closing | ended | fault
  deriving DecidableEq, Repr

/-- CE codes of R208, in the order of their codes. -/
inductive CeCode where
  | none | connected | ready | error
  deriving DecidableEq, Repr

/-- ID codes of R208, in the order of their codes. -/
inductive IdCode where
  | opened | valid | fault
  deriving DecidableEq, Repr

/-- States of an SI pair of TYPE 0 or 1 (R302), in the order of SAF.SI_STATEn. -/
inductive SiSt where
  | idle | partialDemand | demand | returning | waitReset | faultDisc | faultBoth | faultTest
  deriving DecidableEq, Repr

/-- States of an SO pair (SAF.SO_STATE). -/
inductive SoSt where
  | off | on | fault
  deriving DecidableEq, Repr

/-- States of a bay's safe stop (R312). -/
inductive SsSt where
  | none | ramp | gating | opening | escalated | done
  deriving DecidableEq, Repr

/-- Roles of a module (R335), in the order of PAIR.STAT.ROLE. -/
inductive Role where
  | init | claiming | active | syncing | standby | unfit
  deriving DecidableEq, Repr

/-- Modes of a pair (R330), in the order of PAIR.CFG.MODE. -/
inductive PairMode where
  | single | lite | full
  deriving DecidableEq, Repr

/-- Results of a mailbox or transmit-at-time buffer (R375), in the order of their codes. -/
inductive TxResult where
  | empty | pending | sending | sent | sentCancelLate | cancelled | errorNoRetry | missedBusy | notActive | noSync
  deriving DecidableEq, Repr

/-- Power states (R415), with the entry into DORMANT of R418. -/
inductive PowerSt where
  | vbatOnly | dormant | ready | run
  deriving DecidableEq, Repr

/-- Life-cycle states (R438), in the order of KEY.LC.STATE. -/
inductive LifeCycle where
  | provision | deployed | returned
  deriving DecidableEq, Repr

/-- Seal states of the metrology partition (R263), in the order of MET.STATE.SEAL. -/
inductive Seal where
  | blank | opened | sealed
  deriving DecidableEq, Repr

/-- Energy services a vehicle may select (R214). -/
inductive Service where
  | dc | dcBpt | other
  deriving DecidableEq, Repr

/-- Control modes of a session (R214), BAY.STAT.MODE with 0 for none. -/
inductive CtlMode where
  | none | scheduled | dynamic
  deriving DecidableEq, Repr

/-- A rational number as a vehicle sends it: value × 10^exponent (R215). -/
structure Dec where
  value : Int
  exponent : Int
  deriving DecidableEq, Repr

/-- What a vehicle states of itself and wants, in a parameter or loop request (R216). -/
structure EvReq where
  targetV : Dec
  targetI : Dec
  minV : Dec
  maxV : Dec
  minP : Option Dec
  maxP : Dec
  maxI : Dec
  minDisP : Dec
  maxDisP : Dec
  maxDisI : Dec
  discharge : Bool
  deriving DecidableEq, Repr

/-- One certificate of a PnC chain (R214), its validity in calendar seconds. -/
structure Cert where
  notBefore : Nat
  notAfter : Nat
  body : Bytes
  signature : Bytes
  deriving DecidableEq, Repr

/-- How a vehicle asks to be authorised (R219). The chain runs from the contract to the last certificate below the root. -/
inductive AuthReq where
  | eim
  | pnc (rootKeyId : Nat) (chain : List Cert)
  deriving DecidableEq, Repr

/-- The requests answered in PARAMETERS (R220). A schedule exchange asks for the offer, or names one of its entries: the tuple and the
entry, each counted from 0 (R214, R216). -/
inductive ParamReq where
  | serviceDiscovery
  | serviceSelection (service : Service) (mode : CtlMode)
  | parameterDiscovery (ev : EvReq)
  | scheduleExchange (selection : Option (Nat × Nat))
  deriving DecidableEq, Repr

/-- What the TLS ClientHello of a bay's vehicle offers (R213): TLS 1.3, TLS_AES_256_GCM_SHA384, the two groups; a session to resume, early data. -/
structure TlsHello where
  bay : Fin 12
  tls13 : Bool
  aes256Gcm : Bool
  secp384r1 : Bool
  secp256r1 : Bool
  resumes : Bool
  earlyData : Bool
  deriving DecidableEq, Repr

/-- What a bay's PHY reports (R232): whether it receives valid symbols, and how many frames it or the MAC has discarded since the last
report. -/
structure PhyReport where
  up : Bool
  discarded : Nat
  deriving DecidableEq, Repr

/-- Names of the module's responses to a vehicle. -/
inductive RespName where
  | sdp | supportedAppProtocol | sessionSetup | authorization | parameters | cableCheck | preCharge | powerDelivery
  | chargeLoop | weldingDetection | sessionStop
  deriving DecidableEq, Repr

/-- The outcome a response carries: done, still going on, or a failure code of the standard. -/
inductive RespCode where
  | finished | ongoing | failed | unsupported
  deriving DecidableEq, Repr

/-- A response to a vehicle (R217), with the values it reports without loss (R215): EVSEPresentVoltage as V_OUT × V_FS of the
sense stall, in 1/655 360 V; EVSEPresentCurrent in mA; EVSEMaximumChargePower in W; EVSEMaximumChargeCurrent in 1/8 A. -/
structure Resp where
  name : RespName
  code : RespCode
  presentV : Nat := 0
  presentI : Int := 0
  maxP : Int := 0
  maxI : Nat := 0
  /-- The connection offered uses TLS (R213). -/
  tls : Bool := false
  /-- The energy services offered (R214). -/
  services : List Service := []
  /-- The schedule tuples offered, each entry's power limit in W (R214). -/
  offers : List (List Nat) := []
  /-- The isolation status is Valid (R227). -/
  isolationValid : Bool := false
  deriving DecidableEq, Repr

/-- A falling or rising ramp of W over `len` pitches, at pitch `j` (R158). -/
structure Ramp where
  w0 : Nat
  len : Nat
  j : Nat
  rising : Bool
  /-- Entered from OFF, over the move ramp (R158). -/
  fromOff : Bool
  deriving DecidableEq, Repr

/-- The control state of one cell (R158, R150). -/
structure CellCtl where
  st : CellSt := .off
  w : Nat := 0
  ramp : Option Ramp := none
  phase : Nat := 0
  deriving DecidableEq, Repr

/-- One move slot (R201). -/
structure MoveSlot where
  phase : MovePhase := .free
  stall : Nat := 0
  src : Option Nat := none
  dst : Option Nat := none
  /-- The bay the move counts against (R200). -/
  serves : Nat := 0
  rampMs : Nat := 0
  tClose : Nat := 0
  tOpen : Nat := 0
  deadline : Option Nat := none
  /-- A release that follows a failed close (R201). -/
  failed : Bool := false
  /-- Market time of the commit that started the move: windows that open at or after it take the move over (R177, R178). -/
  startedAt : Nat := 0
  deriving DecidableEq, Repr

/-- One bay's safe stop (R312 to R316). -/
structure SafeStop where
  st : SsSt := .none
  /-- Entry trigger of record 0x0803: 1 request, 2 immediate, 3 envelope. -/
  trigger : Nat := 0
  /-- Market time of the commit of the request, for its take-over (R21, R313). -/
  at_ : Nat := 0
  /-- Taken over by the lattice engine (R313). -/
  taken : Bool := false
  j : Nat := 0
  n : Nat := 0
  rampMs : Nat := 0
  tolPct : Nat := 0
  iHi0 : Int := 0
  iLo0 : Int := 0
  /-- |I| at take-over, in units of I_FS / 32 768 (R314). -/
  i0 : Nat := 0
  skips : Nat := 0
  deadline : Option Nat := none
  /-- The gating frames have been built (R315). -/
  gated : Bool := false
  /-- A further stop request has come since (R316). -/
  further : Bool := false
  deriving DecidableEq, Repr

/-- The stages of a session's PARAMETERS state (R220). -/
structure Stages where
  discovered : Bool := false
  selected : Bool := false
  parameters : Bool := false
  scheduled : Bool := false
  deriving DecidableEq, Repr

/-- The vehicle's limits as last stated, in V, A and W (R215). -/
structure EvLimits where
  vMin : Nat := 0
  vMax : Nat := 0
  iMax : Nat := 0
  pMin : Nat := 0
  pMax : Nat := 0
  iMaxD : Nat := 0
  pMinD : Nat := 0
  pMaxD : Nat := 0
  /-- EVTargetVoltage and EVTargetCurrent, and whether the request asks for discharge (R216, R225). -/
  tV : Nat := 0
  tI : Int := 0
  discharge : Bool := false
  deriving DecidableEq, Repr

/-- One bid of R179. -/
structure Bid where
  bidding : Bool := false
  exporting : Bool := false
  minP : Nat := 0
  reqP : Nat := 0
  maxP : Nat := 0
  vmaxP : Nat := 0
  vmaxI : Nat := 0
  deriving DecidableEq, Repr

/-- A bay's session (R214 to R231). -/
structure Session where
  st : SessSt := .idle
  endCode : Nat := 0
  /-- The code shown is that of a session lost at a takeover, not of this one (R230, R231). -/
  codeOld : Bool := false
  /-- BAY.STAT.AUTH: 0 none, 1 EIM, 2 PnC. -/
  auth : Nat := 0
  authPend : Bool := false
  /-- A grant the vehicle's next AuthorizationReq is answered with (R219, R220). -/
  granted : Bool := false
  mode : CtlMode := .none
  bpt : Bool := false
  stages : Stages := {}
  tls : Bool := false
  /-- Traffic secrets of the established TLS connection (R229). -/
  secrets : Bytes := []
  /-- Messages received and responses sent on the TCP connection, its sequence state (R229). -/
  tcpIn : Nat := 0
  tcpOut : Nat := 0
  protocol : Bool := false
  sessionSetup : Bool := false
  /-- After a TLS failure, WELD_CHECK passes to ENDED without SessionStopReq (R221). -/
  tlsFailed : Bool := false
  id : Bytes := []
  entered : Nat := 0
  due : Option Nat := none
  seqDue : Option Nat := none
  loopDue : Option Nat := none
  ev : EvLimits := {}
  bid : Bid := {}
  /-- The bid of the latest request in its own direction; the bid above follows it by R226. -/
  ask : Bid := {}
  /-- T = V_CC has been written (R227). -/
  tWritten : Bool := false
  /-- A safety demand has ended the session: FAULT when the contactor is open (R221). -/
  doomed : Bool := false
  /-- The demand that stands has acted on the session (R221). -/
  demandTaken : Bool := false
  /-- A SessionStopReq waits for the contactor to open (R220). -/
  stopAsked : Bool := false
  /-- Voltage target T in force, in V. -/
  target : Nat := 0
  /-- Power limit of the selected schedule entry, W. -/
  schedule : Option Nat := none
  /-- The schedule tuples offered (R214). -/
  offers : List (List Nat) := []
  /-- V_CC of the cable check, V (R227). -/
  vcc : Nat := 0
  /-- End of the hold of R227, computed from CC_HOLD when the hold starts (R12). -/
  holdDue : Option Nat := none
  checkOk : Bool := false
  checkAnswered : Bool := false
  deriving DecidableEq, Repr

/-- One CE and ID sample of a bay (R208). -/
structure PilotSample where
  ce : CeCode
  ceMv : Nat
  id : IdCode
  deriving DecidableEq, Repr

/-- What the analogue world shows at a tick start: the conversions of TS0 to TS35 in 0.1 °C (R236) and V24 in 10 mV (R247). -/
structure TickReadings where
  /-- Resistances of the 36 PT1000 inputs, mΩ (R236). -/
  ts : List Nat
  v24 : Nat
  deriving DecidableEq, Repr

/-- What one AUX channel's protection sees at its 100 µs check (R249, R250). -/
structure AuxSense where
  /-- Channel current in mA. -/
  current : Nat
  /-- The 5 A limit is active. -/
  limiting : Bool
  /-- Junction temperature in °C. -/
  junction : Int
  /-- A swing below −2 V for longer than 2 µs at switch-off. -/
  swing : Bool
  deriving DecidableEq, Repr

/-- What the safety controller reads at one scan: the levels of SIn_A and SIn_B, whether each SO switch conducts, whether each TP
output limits its current, and whether its two channels agree and its self-test holds (R296, R297, R309, R319, R504). -/
structure ScanReadings where
  a : List Bool
  b : List Bool
  hsConducts : List Bool
  lsConducts : List Bool
  limiting : List Bool
  agree : Bool
  deriving DecidableEq, Repr

/-- One memory event of a pitch: a read of the word at byte `offset` of lane `lane`'s tile memory, serving tile `tile`,
that needed a double-bit correction (R132) or was uncorrectable (R133). Lane 8 stands for the market supervisor's memory (cause 8
of R345). -/
structure EccEvent where
  lane : Nat
  tile : Nat
  offset : Nat
  uncorrectable : Bool
  deriving DecidableEq, Repr

/-- One sample of the 32 metrology channels: the codes of R270, which modulators showed no transition (R273), and, where the codes are not
given, the modulators' bits up to the sample, oldest first. -/
structure MetSample where
  codes : List Int
  stuck : List Bool
  streams : List (List Bool) := []
  deriving DecidableEq, Repr

/-- A received CAN frame (R376). -/
structure CanFrame where
  ext : Bool
  id : Nat
  fd : Bool
  brs : Bool
  esi : Bool
  remote : Bool
  dlc : Nat
  data : Bytes
  deriving DecidableEq, Repr

/-- A UDP datagram on the SGMII port (R396). -/
structure Datagram where
  srcIp : Nat
  srcPort : Nat
  dstPort : Nat
  fragment : Bool
  options : Bool
  checksumOk : Bool
  payload : Bytes
  deriving DecidableEq, Repr

/-- A Seljo message as received (R339), its TYPE told by the command: head fields, payload bytes, CRC. -/
structure SeljoHead where
  flags : Nat
  seq : Nat
  time : Nat
  payload : Bytes
  crc : Nat
  deriving DecidableEq, Repr

/-- A PITCH message (R339): USABLE, DIGEST and the 24 bytes of each stall of STALL_MASK in ascending order. -/
structure PitchMsg where
  usable : Nat
  digest : Nat
  inputs : List Bytes
  deriving DecidableEq, Repr

/-- The snapshot of step 1 of R177 as TICK carries it (R339): the metered values with the stamp of their commit, the
cable terms and the bids of the twelve bays. -/
structure TickSnap where
  pImp : Int
  pBay : Int
  s : Nat
  metStamp : Option Nat
  terms : List Nat
  bids : List Bid
  deriving DecidableEq, Repr

/-- One stall as STATE carries it (R339). -/
structure StallItem where
  stall : Nat
  st : StallSt
  cause : Nat
  bay : Option Nat
  cells : List CellCtl
  deriving DecidableEq, Repr

/-- A STATE message (R339). The hot-spot rise is in 2^−16 °C. -/
structure StateMsg where
  policy : List (Nat × Nat)
  theta : Int
  stalls : List StallItem
  slots : List MoveSlot
  safeStops : List SafeStop
  auxDuty : List Nat
  deriving DecidableEq, Repr

/-- One tile's state words as CAPTURE carries them (R347). -/
structure TileWords where
  tile : Nat
  words : List Int
  deriving DecidableEq, Repr

/-- The handover steps CTRL carries (R339, R350, R355): the partner hands over its frames, has released, or has a slot
with the image of this IMAGE_UID PENDING and loaded for a profile handover. -/
inductive CtrlStep where
  | releasing | released | profile (slot : Fin 4) (uid : Bytes)
  deriving DecidableEq, Repr

/-- Sources of a bus wake, in the order of their codes 1 to 5 (R381): how long WAKE_I has been high or CANn_RX dominant, in ns; the
valid frame the wake decoder has heard on its channel; its frame error counter. -/
inductive BusWake where
  | wakeI (ns : Nat) | dominant0 (ns : Nat) | dominant1 (ns : Nat) | frame (f : CanFrame) | errors
  deriving DecidableEq, Repr

/-- Sources of a DORMANT wake, in the order of their codes 1 to 5 (R420). -/
inductive WakeSrc where
  | rtc | sbus (w : BusWake) | si | ce | spi
  deriving DecidableEq, Repr

/-- How an attempt of the module ends without success, as far as the counter rules of ISO 11898-1 tell the cases apart (R357, R370, R371):
arbitration lost; an error frame; a missing acknowledgement; an error frame for a recessive stuff bit of the arbitration field; and a
further count for dominant bits heard after an error flag, which ends no attempt. -/
inductive TxErr where
  | lost | error | noAck | stuff | flag
  deriving DecidableEq, Repr

/-- What a receiver counts (R357, R378, R382): an erroneous frame, with whether its FDF bit had been recognised; and a dominant bit after
its own error flag, which counts eight. -/
inductive RxErr where
  | detected (fd : Bool) | flag
  deriving DecidableEq, Repr

/-- A receive error and the channel it is found on. -/
structure RxFault where
  ch : Fin 2
  how : RxErr
  deriving DecidableEq, Repr

/-- How a TLS connection ends: its handshake fails, or an established one ends by an alert, by a record that fails authentication or
by a TCP reset (R221). -/
inductive TlsFail where
  | handshake | broken
  deriving DecidableEq, Repr

/-- The PLLs of CLK.STAT.LOCK, in the order of its bits. -/
inductive Pll where
  | l | f | s | c | a | j
  deriving DecidableEq, Repr

/-- Pins sampled at the release of RST_N (R58, R439) and SIDE. -/
structure BootPins where
  prof : Nat
  side : Nat
  dbgEn : Bool
  deriving DecidableEq, Repr

/-- A low level of RST_N (R431, R499): how long it was held, and the pins sampled at its release. -/
structure ResetPulse where
  lowNs : Nat
  pins : BootPins
  deriving DecidableEq, Repr

/-- Domain, source port identity and sequence number of a PTP message (R424). -/
structure PtpHead where
  domain : Nat
  source : Nat
  seq : Nat
  deriving DecidableEq, Repr

/-- A Delay_Resp (R425): its head, the port it answers, and the time stamp the hardware took of the module's Delay_Req. -/
structure PtpResp where
  head : PtpHead
  requesting : Nat
  sent : Nat
  deriving DecidableEq, Repr

/-- What an Announce message carries (R424, R426): its sender, the data set of its grandmaster and its distance from it, its interval in ms, and
the UTC data. -/
structure Announce where
  source : Nat
  domain : Nat
  grandmaster : Nat
  priority1 : Nat
  clockClass : Nat
  accuracy : Nat
  variance : Nat
  priority2 : Nat
  steps : Nat
  intervalMs : Nat
  utcOffset : Int
  utcValid : Bool
  leap61 : Bool
  leap59 : Bool
  deriving DecidableEq, Repr

end Sys2Proof
end

