-- ==== Sys2Proof/Syntax.lean ====
section
/-! DEFINITION. The commands of the block: one constructor for each row of the opcode table, with the operands the
row's rule gives it. `t` is the market time of the event (R10, R11), in ns: events carry their own stamps (R14). -/
namespace Sys2Proof

/-- A command of the module: a register access, a frame or message, a pin event, or one of the module's own timed steps. -/
inductive Instr where
  /-- TICK_START (R177). At every multiple of 1 000 000 ns the module takes over metrology, derates and bids and snapshots the state for clearing. -/
  | tickStart (t : Nat) (rd : TickReadings)
  /-- CLEARING_COMMIT (R178). At T + 250 µs all clearing results are committed together, and moves whose stall and slot are unchanged start. -/
  | clearingCommit (t : Nat)
  /-- PITCH_BOUNDARY (R519). A pitch boundary passes on market time, where applied duties and ramp steps take effect. -/
  | pitchBoundary (t : Nat)
  /-- COMPUTE_WINDOW_OPEN (R132). The compute window opens, take-over points apply and every lane starts its schedule. -/
  | computeWindowOpen (t : Nat)
  /-- COMPUTE_DEADLINE (R135). At the compute deadline the lanes stop, duties are handed to the serialisers and the idle interval begins. -/
  | computeDeadline (t : Nat) (ecc : List EccEvent) (miscounted : List Nat)
  /-- PROFILE_WINDOW_WRITE (R31). A write into a profile window stores bytes and puts the slot into LOADING. -/
  | profileWindowWrite (t : Nat) (m : Master) (addr : Nat) (value : Word)
  /-- CHECK (R55). The CHECK command starts the load-time checks of a slot. -/
  | check (t : Nat) (m : Master) (slot : Fin 4) (mode : Fin 4)
  /-- ACTIVATE (R61). The ACTIVATE command checks a slot and prepares a STOPPED, LIVE or HANDOVER change. -/
  | activate (t : Nat) (m : Master) (slot : Fin 4) (mode : Fin 4)
  /-- ERASE (R55). The ERASE command fills a slot with 0x00 and makes it EMPTY. -/
  | erase (t : Nat) (m : Master) (slot : Fin 4) (mode : Fin 4)
  /-- CANCEL (R55). The CANCEL command returns a PENDING slot to VALID with code 0x34. -/
  | cancel (t : Nat) (m : Master) (slot : Fin 4) (mode : Fin 4)
  /-- CHECK_COMPLETE (R50). The checks of a slot finish and the slot becomes VALID, PENDING or INVALID. -/
  | checkComplete (t : Nat)
  /-- CHECK_TIMEOUT (R55). A check not finished within 60 ms makes the slot INVALID with code 0x2F. -/
  | checkTimeout (t : Nat)
  /-- PENDING_TIMEOUT (R55). A PENDING change not switched within 100 ms is cancelled with code 0x33. -/
  | pendingTimeout (t : Nat)
  /-- PROFILE_SWITCH (R61). At the switch boundary the PENDING slot becomes ACTIVE and stalls and links take their new states. -/
  | profileSwitch (t : Nat)
  /-- UPLINK_PITCH_FRAME (R85). An uplink pitch frame arrives and is judged usable or not for its pitch. -/
  | uplinkPitchFrame (t : Nat) (stall : Fin 64) (suf : Nat) (clean : Bool) (bytes : Bytes)
  /-- TRAINING_REPLY (R103). A training reply arrives, is checked and yields a delay estimate or a refusal. -/
  | trainingReply (t : Nat) (stall : Fin 64) (suf : Nat) (clean : Bool) (bytes : Bytes)
  /-- CAPTURE_FRAME (R109). A capture frame arrives and is stored in the capture buffer. -/
  | captureFrame (t : Nat) (stall : Fin 64) (scf : Nat) (clean : Bool) (bytes : Bytes)
  /-- SAMPLE_LOST (R163). The arrival limit passes without a usable uplink and the stall's sample is lost. -/
  | sampleLost (t : Nat) (stall : Fin 64)
  /-- COAST_EXHAUSTED (R168). A coast reaches COAST_N pitches and the stall is gated with MATRIX = 0xF. -/
  | coastExhausted (t : Nat) (stall : Fin 64)
  /-- LINK_ALIGNED (R99). 64 valid characters with 8 IDL take a link from ALIGN to TRAIN. -/
  | linkAligned (t : Nat) (stall : Fin 64)
  /-- ALIGN_TIMEOUT (R99). A link not aligned within 1 ms enters FAULT with code 0x01. -/
  | alignTimeout (t : Nat) (stall : Fin 64)
  /-- TRAIN_TIMEOUT (R99). A link not trained within 2 ms enters FAULT with code 0x02. -/
  | trainTimeout (t : Nat) (stall : Fin 64)
  /-- LINK_DOWN_CODE (R99). 32 consecutive invalid characters take a link from RUN to ALIGN with code 0x08. -/
  | linkDownCode (t : Nat) (stall : Fin 64)
  /-- LINK_DOWN_SILENT (R99). 64 pitches without a usable uplink take a link from RUN to ALIGN with code 0x09. -/
  | linkDownSilent (t : Nat) (stall : Fin 64)
  /-- LINK_FAULT_RETRY (R99). 100 ms in FAULT take a link back to ALIGN. -/
  | linkFaultRetry (t : Nat) (stall : Fin 64)
  /-- RETRAIN (R99). The RETRAIN command takes a link from FAULT to ALIGN at once. -/
  | retrain (t : Nat) (m : Master) (stall : Fin 64)
  /-- SLEEP_REQ (R100). A write of SLEEP_REQ withholds a stall and sleeps or wakes its link. -/
  | sleepReq (t : Nat) (m : Master) (stall : Fin 64) (on : Bool)
  /-- CAP_EN (R108). A write of CAP_EN enables capture frames for a stall within the limit of 32. -/
  | capEn (t : Nat) (m : Master) (stall : Fin 64) (on : Bool)
  /-- CAP_TRIG (R109). The TRIG command freezes the capture buffer. -/
  | capTrig (t : Nat) (m : Master)
  /-- CAP_ARM (R109). The ARM command releases a frozen capture buffer and resumes recording. -/
  | capArm (t : Nat) (m : Master)
  /-- STL_CLR_CNT (R111). CLR_CNT clears a stall's STL.ERR and STL.EVT counters. -/
  | stlClrCnt (t : Nat) (m : Master) (stall : Fin 64)
  /-- CLR_FB (R176). CLR_FB clears a stall's STL.FB and STL.STOPS counters. -/
  | clrFb (t : Nat) (m : Master) (stall : Fin 64)
  /-- STALL_RELEASE (R170). RELEASE returns a LOCKED stall to STOPPED and clears its restart history. -/
  | stallRelease (t : Nat) (m : Master) (stall : Fin 64)
  /-- CELL_RAMP_END (R158). A cell weight ramp reaches its end value and the cell or move advances state. -/
  | cellRampEnd (t : Nat) (stall : Fin 64) (cell : Fin 8)
  /-- SHED_DECISION (R159). SHED_HOLD consecutive light-load ticks shed one candidate cell. -/
  | shedDecision (t : Nat) (bay : Fin 12)
  /-- REARM_LIMIT (R172). A stall head still TRIPPED after 100 ticks of REARM raises a stop with cause 5. -/
  | rearmLimit (t : Nat) (stall : Fin 64)
  /-- STOP_OPEN_TIMEOUT (R170). A STOPPING stall unconfirmed open after T_OPEN + 5 ms enters LOCKED with cause 9. -/
  | stopOpenTimeout (t : Nat) (stall : Fin 64)
  /-- REST_ELAPSED (R170). REST_MS and any cool-down elapse and a sound STOPPED stall returns to IDLE. -/
  | restElapsed (t : Nat) (stall : Fin 64)
  /-- MOVE_CLOSE_TIMEOUT (R201). A close not confirmed within T_CLOSE + 5 ms turns the move into a release with REACH_FAULT. -/
  | moveCloseTimeout (t : Nat) (slot : Fin 8)
  /-- MOVE_OPEN_TIMEOUT (R201). An open not confirmed within T_OPEN + 5 ms frees the slot and locks the stall. -/
  | moveOpenTimeout (t : Nat) (slot : Fin 8)
  /-- POLICY_WRITE (R205). A write of an MKT policy field is checked against bounds and role and stored in the shadow. -/
  | policyWrite (t : Nat) (m : Master) (addr : Nat) (value : Word)
  /-- POLICY_COMMIT (R205). COMMIT makes the shadow policy effective at the next tick start. -/
  | policyCommit (t : Nat) (m : Master)
  /-- POLICY_DISCARD (R207). DISCARD reloads the shadow policy from the committed set. -/
  | policyDiscard (t : Nat) (m : Master)
  /-- MKT_CLR_CNT (R207). CLR_CNT clears MKT.CNT. -/
  | mktClrCnt (t : Nat) (m : Master)
  /-- CE_ID_SAMPLE (R208). Every 100 µs the CE and ID front ends are sampled, classified and debounced. -/
  | ceIdSample (t : Nat) (samples : List PilotSample)
  /-- SDP_REQUEST (R220). An SDP request moves a session from CONNECTED or ENDED to SETUP. -/
  | sdpRequest (t : Nat) (bay : Fin 12)
  /-- SESSION_SETUP_REQ (R218). SessionSetup draws a session ID and writes a ledger record. -/
  | sessionSetupReq (t : Nat) (bay : Fin 12) (decoded : Bool)
  /-- AUTHORIZATION_REQ (R219). AuthorizationReq starts EIM or PnC authorisation. -/
  | authorizationReq (t : Nat) (bay : Fin 12) (decoded : Bool) (req : AuthReq)
  /-- PARAMETER_REQ (R220). A service discovery, selection, parameter or schedule request is answered in PARAMETERS. -/
  | parameterReq (t : Nat) (bay : Fin 12) (decoded : Bool) (req : ParamReq)
  /-- DC_CABLE_CHECK_REQ (R227). DC_CableCheckReq starts or continues the cable check. -/
  | dcCableCheckReq (t : Nat) (bay : Fin 12) (decoded : Bool)
  /-- DC_PRE_CHARGE_REQ (R228). DC_PreChargeReq sets the precharge target and bid. -/
  | dcPreChargeReq (t : Nat) (bay : Fin 12) (decoded : Bool) (targetV : Dec)
  /-- POWER_DELIVERY_REQ (R220). PowerDeliveryReq Start enters POWER, and Stop enters RAMP_DOWN. -/
  | powerDeliveryReq (t : Nat) (bay : Fin 12) (decoded : Bool) (start : Bool)
  /-- CHARGE_LOOP_REQ (R216). A loop request updates the bid and target and is answered with present values. -/
  | chargeLoopReq (t : Nat) (bay : Fin 12) (decoded : Bool) (req : EvReq)
  /-- WELDING_DETECTION_REQ (R220). WeldingDetectionReq is answered with the present voltage in WELD_CHECK. -/
  | weldingDetectionReq (t : Nat) (bay : Fin 12) (decoded : Bool)
  /-- SESSION_STOP_REQ (R220). SessionStopReq after an open contactor moves the session to CLOSING. -/
  | sessionStopReq (t : Nat) (bay : Fin 12) (decoded : Bool)
  /-- TLS_FAILURE (R221). A failed handshake or broken TLS connection ends the session with code 0x14. -/
  | tlsFailure (t : Nat) (bay : Fin 12) (kind : TlsFail)
  /-- CC_HOLD_ELAPSED (R227). CC_HOLD passes without an insulation demand and the cable check succeeds. -/
  | ccHoldElapsed (t : Nat) (bay : Fin 12)
  /-- CONTACTOR_TIMEOUT (R221). The outlet contactor not confirmed within 100 ms brings a safe stop and FAULT. -/
  | contactorTimeout (t : Nat) (bay : Fin 12)
  /-- NO_SDP (R220). 20 s in CONNECTED without SDP end the session with code 0x01. -/
  | noSdp (t : Nat) (bay : Fin 12)
  /-- SETUP_TIMEOUT (R220). 20 s in SETUP end the session with code 0x02. -/
  | setupTimeout (t : Nat) (bay : Fin 12)
  /-- AUTH_TIMEOUT (R219). AUTH_S without a decision ends the session with code 0x05. -/
  | authTimeout (t : Nat) (bay : Fin 12)
  /-- CC_TIMEOUT (R220). CC_S in CABLE_CHECK leads to RAMP_DOWN with code 0x07. -/
  | ccTimeout (t : Nat) (bay : Fin 12)
  /-- PRE_TIMEOUT (R220). PRE_S in PRECHARGE leads to RAMP_DOWN with code 0x09. -/
  | preTimeout (t : Nat) (bay : Fin 12)
  /-- LOOP_TIMEOUT (R220). LOOP_S without a loop request leads to RAMP_DOWN with code 0x0A. -/
  | loopTimeout (t : Nat) (bay : Fin 12)
  /-- SEQ_TIMEOUT (R220). 60 s without the next request lead to RAMP_DOWN or CLOSING with code 0x03. -/
  | seqTimeout (t : Nat) (bay : Fin 12)
  /-- RAMP_TIMEOUT (R220). 2 s in RAMP_DOWN lead to FAULT with code 0x13 and a safe stop. -/
  | rampTimeout (t : Nat) (bay : Fin 12)
  /-- CLOSING_TIMEOUT (R220). 5 s in CLOSING lead to ENDED. -/
  | closingTimeout (t : Nat) (bay : Fin 12)
  /-- FAULT_HOLD_TIMEOUT (R220). FAULT_HOLD of 30 s leads from FAULT to ENDED. -/
  | faultHoldTimeout (t : Nat) (bay : Fin 12)
  /-- BAY_STOP (R221). The STOP command ends a session with code 0x0F. -/
  | bayStop (t : Nat) (m : Master) (bay : Fin 12)
  /-- AUTH_OK (R219). AUTH_OK grants a pending authorisation. -/
  | authOk (t : Nat) (m : Master) (bay : Fin 12)
  /-- AUTH_DENY (R219). AUTH_DENY refuses a pending authorisation. -/
  | authDeny (t : Nat) (m : Master) (bay : Fin 12)
  /-- BAY_CLR_CNT (R232). CLR_CNT clears BAY.CNT and BAY.ERR. -/
  | bayClrCnt (t : Nat) (m : Master) (bay : Fin 12)
  /-- FLOW_PULSE (R237). A rising edge on a flow input is stamped on market time. -/
  | flowPulse (t : Nat) (input : Fin 12)
  /-- VALVE_CLOSE_DELAY (R243). 60 s after its conditions end a bay's valve closes. -/
  | valveCloseDelay (t : Nat) (bay : Fin 12)
  /-- VALVE_PULL_IN_END (R246). 200 ms after opening a valve channel drops from full demand to LEVEL. -/
  | valvePullInEnd (t : Nat) (ch : Fin 24)
  /-- AUX_PROTECTION_CHECK (R250). Every 100 µs each AUX channel's protection is evaluated. -/
  | auxProtectionCheck (t : Nat) (sense : List AuxSense)
  /-- AUX_RETRY (R251). RETRY_MS after a trip the channel retries, or enters LOCKED at RETRY_MAX. -/
  | auxRetry (t : Nat) (ch : Fin 24)
  /-- AUX_COOL_ELAPSED (R251). COOL_MS after the thermal latch clears the retry wait resumes. -/
  | auxCoolElapsed (t : Nat) (ch : Fin 24)
  /-- AUX_RETRY_COUNT_RESET (R251). 10 s on without a trip return the retry counter to 0. -/
  | auxRetryCountReset (t : Nat) (ch : Fin 24)
  /-- AUX_TOTAL_SHED (R252). Total AUX current above 30 A for 100 ms sheds one channel every 10 ms. -/
  | auxTotalShed (t : Nat)
  /-- AUX_HOLD_EXPIRY (R255). HOLD_S without a refresh sends every channel to its FAIL state. -/
  | auxHoldExpiry (t : Nat)
  /-- VIN24_RETURN (R255). VIN24 returns after a loss and every channel starts off. -/
  | vin24Return (t : Nat) (cv : Nat)
  /-- AUX_CLEAR (R250). CLEAR releases FREEWHEEL or LOCKED and zeroes the retry counter. -/
  | auxClear (t : Nat) (m : Master) (ch : Fin 24) (demand : Nat)
  /-- THM_CLR_CNT (R258). CLR_CNT clears THM.CNT. -/
  | thmClrCnt (t : Nat) (m : Master)
  /-- METROLOGY_SAMPLE (R282). Every 125 µs a sample is calibrated, computed and tallied. -/
  | metrologySample (t : Nat) (rep : Nat) (sample : MetSample)
  /-- CAL_BLOCK (R274). Every 200 ms calibration statistics, RMS values and AC flags are computed. -/
  | calBlock (t : Nat)
  /-- METROLOGY_COMMIT (R284). The partition commits previous-tick means and publishes tallies. -/
  | metrologyCommit (t : Nat)
  /-- BAY_DEAD (R279). 100 ticks below V_LIVE / 2 make a bay dead and issue a cause-2 receipt. -/
  | bayDead (t : Nat) (bay : Fin 12)
  /-- RECEIPT_ISSUE (R288). At an interval boundary the AC and due bay receipts are signed and queued. -/
  | receiptIssue (t : Nat)
  /-- RECEIPT_DRAIN (R291). The market supervisor drains a receipt from the queue into the store when room exists. -/
  | receiptDrain (t : Nat)
  /-- CAL_SET_EFFECT (R267). An accepted calibration set takes effect after closing receipts with cause 4. -/
  | calSetEffect (t : Nat)
  /-- RCPT_ACK (R291). A write of MET.RCPT_ACK releases receipts up to that SEQ. -/
  | rcptAck (t : Nat) (m : Master) (seq : Word)
  /-- TALLY_LOW_READ (R285). A read of TLY_LO returns the low word and latches the high word for the port. -/
  | tallyLowRead (t : Nat) (m : Master) (k : Fin 32)
  /-- TALLY_HIGH_READ (R286). A read of TLY_HI returns the latched word or the present word with STALE. -/
  | tallyHighRead (t : Nat) (m : Master) (k : Fin 32)
  /-- METROLOGY_FW_ACTIVATION (R458). The partition checkpoints, verifies, installs and restarts on new metrology firmware. -/
  | metrologyFwActivation (t : Nat)
  /-- SAFETY_SCAN (R297). Every 50 µs the safety controller samples and filters every SI channel and decides. -/
  | safetyScan (t : Nat) (rd : ScanReadings)
  /-- DISCREPANCY_TIMEOUT (R303). A discrepancy lasting beyond PARAM_A sends the pair to FAULT_DISC. -/
  | discrepancyTimeout (t : Nat) (pair : Fin 16)
  /-- TEST_PULSE (R299). A test-pulse source drives its TP output low for one pulse. -/
  | testPulse (t : Nat) (source : Fin 4)
  /-- SWITCH_TEST (R309). Each PARAM_B an energised SO pair's switches are turned off briefly and read back. -/
  | switchTest (t : Nat) (pair : Fin 16) (low : Bool) (conducts : Bool)
  /-- SO_CURRENT_FAULT (R310). SO overcurrent for 10 ms or undercurrent for 100 ms puts the pair in FAULT. -/
  | soCurrentFault (t : Nat) (pair : Fin 16) (current : Nat) (lasted : Nat)
  /-- FEEDBACK_MISMATCH (R306). Feedback channels disagreeing beyond PARAM_A report MISMATCH. -/
  | feedbackMismatch (t : Nat) (pair : Fin 16)
  /-- SS_RAMP_END (R313). The safe stop ramp bound reaches 0 after n pitches and the bay enters GATING. -/
  | ssRampEnd (t : Nat) (bay : Fin 12)
  /-- SS_RAMP_TIMEOUT (R312). SS_RAMP in RAMP expires and the bay enters GATING. -/
  | ssRampTimeout (t : Nat) (bay : Fin 12)
  /-- ENVELOPE_SKIP_LIMIT (R314). Seventeen consecutive skipped pitches count as an envelope violation. -/
  | envelopeSkipLimit (t : Nat) (bay : Fin 12)
  /-- ESCALATION (R317). 100 ms without OPEN confirmation escalates and opens the site breaker. -/
  | escalation (t : Nat) (bay : Fin 12)
  /-- SI_RESET (R305). SI_RESET releases a WAIT_RESET pair to IDLE. -/
  | siReset (t : Nat) (m : Master) (sel : Nat)
  /-- SO_CLEAR (R310). SO_CLEAR leaves FAULT when the cause is gone. -/
  | soClear (t : Nat) (m : Master) (sel : Nat)
  /-- SAF_UNLOCK (R322). UNLOCK checks SAF.RESP against the password challenge. -/
  | safUnlock (t : Nat) (m : Master)
  /-- SAF_SEAL (R324). SEAL applies the staged safety copy and ends the unlock. -/
  | safSeal (t : Nat) (m : Master)
  /-- PW_SET (R322). PW_SET takes SAF.PWK as the password key. -/
  | pwSet (t : Nat) (m : Master)
  /-- SAF_CLR_CNT (R329). CLR_CNT clears SAF.SI_CNT and SO fault counts. -/
  | safClrCnt (t : Nat) (m : Master)
  /-- SAF_UNLOCK_EXPIRY (R324). 30 minutes end the safety unlock and discard the staged copy. -/
  | safUnlockExpiry (t : Nat)
  /-- SAF_LOCKOUT_END (R323). The safety unlock lockout counts down to zero. -/
  | safLockoutEnd (t : Nat)
  /-- INIT_WAIT_END (R335). ACTIVE_I released for 20 ms or 200 ms takes INIT to CLAIMING. -/
  | initWaitEnd (t : Nat)
  /-- ACTIVE_I_ASSERT (R335). ACTIVE_I is asserted and the module enters SYNCING or yields. -/
  | activeIAssert (t : Nat)
  /-- CLAIM_CONFIRM (R335). 2 µs after asserting ACTIVE_O with ACTIVE_I released the module holds ACTIVE. -/
  | claimConfirm (t : Nat)
  /-- CLAIM_CONFLICT_TIMEOUT (R335). SIDE 0 still contested after 10 µs releases and returns to INIT. -/
  | claimConflictTimeout (t : Nat)
  /-- TAKEOVER (R342). A STANDBY module sees ACTIVE_I released, takes ACTIVE and continues. -/
  | takeover (t : Nat)
  /-- SYNC_TIMEOUT (R335). 10 s in SYNCING lead to UNFIT with the failing check's code. -/
  | syncTimeout (t : Nat)
  /-- RESYNC_ELAPSED (R335). RESYNC_S of passing checks take UNFIT to SYNCING. -/
  | resyncElapsed (t : Nat)
  /-- SELJO_TIME (R340). A TIME message updates the standby's market-time offset and lock. -/
  | seljoTime (t : Nat) (head : SeljoHead) (t1 t2 t3 t4 : Nat)
  /-- SELJO_PITCH (R341). A PITCH message supplies shadow lane inputs and the previous digest. -/
  | seljoPitch (t : Nat) (head : SeljoHead) (msg : PitchMsg)
  /-- SELJO_TICK (R341). A TICK message supplies the clearing snapshot and the previous tick digest. -/
  | seljoTick (t : Nat) (head : SeljoHead) (snap : TickSnap) (digest : Nat)
  /-- SELJO_SESSION (R343). A SESSION message carries one bay's session state to the standby. -/
  | seljoSession (t : Nat) (head : SeljoHead) (bay : Fin 12) (session : Session)
  /-- SELJO_SESSION_ACK (R343). The acknowledgement of a SESSION message releases the waiting vehicle response. -/
  | seljoSessionAck (t : Nat) (bay : Fin 12)
  /-- SELJO_STATE (R347). A STATE message updates policy, stall, move, safe-stop and AUX state. -/
  | seljoState (t : Nat) (head : SeljoHead) (msg : StateMsg)
  /-- SELJO_CAPTURE (R347). CAPTURE carries lane state words for the standby to load and replay. -/
  | seljoCapture (t : Nat) (head : SeljoHead) (tiles : List TileWords)
  /-- SELJO_HEALTH (R352). A HEALTH message carries the partner's check bits. -/
  | seljoHealth (t : Nat) (head : SeljoHead) (bits : Nat)
  /-- SELJO_CTRL (R350). A CTRL message carries a handover step. -/
  | seljoCtrl (t : Nat) (head : SeljoHead) (step : CtrlStep)
  /-- SELJO_LINK_UP (R338). Block lock and alignment on both lanes bring the Seljo link up. -/
  | seljoLinkUp (t : Nat)
  /-- SELJO_LINK_DOWN (R353). The Seljo link goes down and a fit standby sets DEGRADED. -/
  | seljoLinkDown (t : Nat)
  /-- SHADOW_WINDOW_OPEN (R341). The standby's shadow window opens 900 ns after the active window. -/
  | shadowWindowOpen (t : Nat)
  /-- HEARTBEAT_SEND (R349). Every 10 ms the module queues its KIND 0x01 heartbeat. -/
  | heartbeatSend (t : Nat)
  /-- HEARTBEAT_FRAME (R349). The partner's heartbeat is received and its role, epoch and AUX states taken. -/
  | heartbeatFrame (t : Nat) (bytes : Bytes)
  /-- PARTNER_ABSENT (R349). 50 ms without a heartbeat mark the partner absent. -/
  | partnerAbsent (t : Nat)
  /-- POLICY_SEGMENT_SEND (R349). After a policy commit and every 10 s the active module sends KIND 0x02 segments. -/
  | policySegmentSend (t : Nat)
  /-- POLICY_SEGMENT_FRAME (R349). A received policy segment updates the standby's copy of policy. -/
  | policySegmentFrame (t : Nat) (bytes : Bytes)
  /-- UPDATE_HEARTBEAT_SEND (R455). After boot and every 10 s the module sends a KIND 0x03 heartbeat. -/
  | updateHeartbeatSend (t : Nat)
  /-- UPDATE_HEARTBEAT_FRAME (R455). A KIND 0x03 frame supplies the partner's UIDs, mode and MAC base. -/
  | updateHeartbeatFrame (t : Nat) (bytes : Bytes)
  /-- HEALTH_CHECK (R352). Every 1 ms the pair checks are evaluated and fitness decided. -/
  | healthCheck (t : Nat)
  /-- HANDOVER (R350). HANDOVER starts a planned handover. -/
  | handover (t : Nat) (m : Master)
  /-- CLEAR_UNFIT (R337). CLEAR_UNFIT releases the hold of code 11. -/
  | clearUnfit (t : Nat) (m : Master)
  /-- PAIR_CLR_CNT (R356). CLR_CNT clears PAIR.CNT. -/
  | pairClrCnt (t : Nat) (m : Master)
  /-- PROFILE_HANDOVER_RELEASE (R355). The active module hands over its frames and releases with cause 0x0B for a profile handover. -/
  | profileHandoverRelease (t : Nat)
  /-- REFERENCE_SEND (R365). The time master sends a reference message at a reference window start. -/
  | referenceSend (t : Nat) (ch : Fin 2)
  /-- REFERENCE_RECEIVED (R367). A valid reference resets the follower's cycle grid. -/
  | referenceReceived (t : Nat) (ch : Fin 2) (payload : Bytes)
  /-- REFERENCE_MISSING (R367). A reference occurrence ends without a reference, and the third clears SYNC. -/
  | referenceMissing (t : Nat) (ch : Fin 2)
  /-- CAN_FRAME_RECEIVED (R376). A valid CAN frame is stamped, filtered and stored. -/
  | canFrameReceived (t : Nat) (ch : Fin 2) (frame : CanFrame)
  /-- SLOT_MISS (R377). An exclusive window occurrence ends without its frame and the slot's MISS rises. -/
  | slotMiss (t : Nat) (slot : Fin 32)
  /-- ARBITRATING_WINDOW (R369). In an arbitrating occurrence the module offers its oldest queued frame within its share. -/
  | arbitratingWindow (t : Nat) (ch : Fin 2) (busIdle : Bool)
  /-- CAN_TX_COMPLETE (R375). A transmitted frame completes and its buffer reports its result. -/
  | canTxComplete (t : Nat) (ch : Fin 2)
  /-- CAN_TX_ERROR (R370). An attempt is disturbed and is retransmitted or reported ERROR_NO_RETRY. -/
  | canTxError (t : Nat) (ch : Fin 2) (how : TxErr)
  /-- BUS_OFF_RECOVERY (R357). After 128 occurrences of 11 recessive bits a bus-off channel recovers. -/
  | busOffRecovery (t : Nat) (ch : Fin 2)
  /-- TAT_COMMIT_POINT (R373). At a buffer's commit point the attempt is made or reported missed. -/
  | tatCommitPoint (t : Nat) (buf : Fin 4) (busIdle : Bool)
  /-- MAILBOX_SEND (R369). SEND queues a mailbox frame on its channel. -/
  | mailboxSend (t : Nat) (m : Master) (box : Fin 8) (ctrl : Word)
  /-- MAILBOX_CANCEL (R374). CANCEL withdraws a mailbox frame or is held until its attempt ends. -/
  | mailboxCancel (t : Nat) (m : Master) (box : Fin 8)
  /-- TAT_ARM (R372). ARM arms a transmit-at-time buffer, one-shot or periodic. -/
  | tatArm (t : Nat) (m : Master) (buf : Fin 4) (ctrl : Word)
  /-- TAT_LOAD (R372). LOAD makes the shadow data the frame's data at the next commit point. -/
  | tatLoad (t : Nat) (m : Master) (buf : Fin 4) (ctrl : Word)
  /-- TAT_CANCEL (R374). CANCEL stops a transmit-at-time buffer's next attempt and later occurrences. -/
  | tatCancel (t : Nat) (m : Master) (buf : Fin 4)
  /-- FIFO_POP (R383). POP removes the head entry of a channel's receive FIFO. -/
  | fifoPop (t : Nat) (m : Master) (ch : Fin 2)
  /-- BUS_SLEEP (R379). SLEEP = 1 announces sleep in four references and puts the bus to sleep. -/
  | busSleep (t : Nat) (m : Master)
  /-- BUS_WAKE_WRITE (R380). SLEEP = 0 while ASLEEP counts as a wake event. -/
  | busWakeWrite (t : Nat) (m : Master)
  /-- BUS_WAKE (R381). A bus wake source fires and sleep is aborted or ended. -/
  | busWake (t : Nat) (src : BusWake)
  /-- SBUS_CLR_CNT (R383). CLR_CNT clears SBUS channel counters and violations. -/
  | sbusClrCnt (t : Nat) (m : Master)
  /-- UDP_DATAGRAM (R396). A UDP datagram is filtered, checked and queued as a Tally request. -/
  | udpDatagram (t : Nat) (d : Datagram)
  /-- ARP_REQUEST (R396). An ARP request is answered. -/
  | arpRequest (t : Nat) (targetIp senderIp senderMac : Nat)
  /-- ICMP_ECHO (R396). An ICMP echo request is answered. -/
  | icmpEcho (t : Nat) (srcIp : Nat) (data : Bytes)
  /-- SPI_STATUS (R399). The SPI STATUS command returns the status byte. -/
  | spiStatus (t : Nat)
  /-- SPI_REQUEST (R399). The SPI REQUEST command takes a request frame at CS_N rising. -/
  | spiRequest (t : Nat) (bytes : Bytes)
  /-- SPI_FETCH (R400). The SPI FETCH command shifts out the waiting reply. -/
  | spiFetch (t : Nat)
  /-- READ (R394). A READ transaction executes every word and returns the data. -/
  | read (t : Nat) (m : Master) (tag : Nat) (addr : Nat) (count : Nat)
  /-- WRITE (R394). A WRITE transaction executes words in order and stops at the first not OK. -/
  | write (t : Nat) (m : Master) (tag : Nat) (addr : Nat) (words : List Word)
  /-- READ_LIST (R394). A READ_LIST transaction reads each listed address. -/
  | readList (t : Nat) (m : Master) (tag : Nat) (addrs : List Nat)
  /-- ECHO (R389). An ECHO transaction returns the request's bytes. -/
  | echo (t : Nat) (m : Master) (tag : Nat) (data : Bytes)
  /-- REGISTER_WRITE (R7). A write to a register without a row of its own applies its fields by access type. -/
  | registerWrite (t : Nat) (m : Master) (addr : Nat) (value : Word)
  /-- VIOL_RELEASE (R404). Writing 1 to HOST.VIOL.VALID releases the violation record. -/
  | violRelease (t : Nat) (m : Master)
  /-- FIRST_OVR_RELEASE (R137). Writing 1 to LAT.FIRST_OVR.VALID releases the first-overrun record. -/
  | firstOvrRelease (t : Nat) (m : Master)
  /-- LAT_CLR_CNT (R145). CLR_CNT clears the LAT counters and tile overrun table. -/
  | latClrCnt (t : Nat) (m : Master)
  /-- HOST_CLR_CNT (R407). CLR_CNT clears the HOST violation and port counters. -/
  | hostClrCnt (t : Nat) (m : Master)
  /-- SYS_UNLOCK (R405). UNLOCK checks SYS.RESP and enters UNLOCKED. -/
  | sysUnlock (t : Nat) (m : Master)
  /-- SYS_SEAL (R405). SEAL ends the SYS unlock and enters SEALED. -/
  | sysSeal (t : Nat) (m : Master)
  /-- SYS_UNLOCK_EXPIRY (R405). 30 minutes end the SYS unlock and enter SEALED. -/
  | sysUnlockExpiry (t : Nat)
  /-- SYS_LOCKOUT_END (R406). The SYS unlock lockout counts down to zero. -/
  | sysLockoutEnd (t : Nat)
  /-- HOST_RATE_INTERVAL (R485). A one-second interval ends and HOST_RATE is set or cleared. -/
  | hostRateInterval (t : Nat)
  /-- REFERENCE_LOSS (R410). The 25 MHz reference is lost, ACTIVE is released and an internal reset held. -/
  | referenceLoss (t : Nat)
  /-- REFERENCE_RESTORED (R410). The reference within limits for 10 ms ends the cause-3 reset. -/
  | referenceRestored (t : Nat) (selfTest : Bool)
  /-- X32_LOSS (R411). X32 lost for 1 ms clears X32_OK. -/
  | x32Loss (t : Nat)
  /-- MT_SAVE (R413). Once per second the pair (M, RAW) is saved to MRAM. -/
  | mtSave (t : Nat)
  /-- COLD_START (R429). VIN12 and RST_N release run the cold start to READY and RUN. -/
  | coldStart (t : Nat) (rawNow : Nat) (pins : BootPins) (selfTest : Bool)
  /-- BROWN_OUT (R416). VIN12 below 9.8 V resets with cause 2 into VBAT-only. -/
  | brownOut (t : Nat)
  /-- RST_N (R431, R499). RST_N held low resets the module and samples DBG_EN and PROF pins. -/
  | rstN (t : Nat) (pulse : ResetPulse) (selfTest : Bool)
  /-- INTERNAL_RESET (R431). An internal reset runs the restart steps, keeping protected state. -/
  | internalReset (t : Nat) (cause : Nat) (selfTest : Bool)
  /-- RESET_KEY (R432). A write of 0xB007 to RESET_KEY resets the module with cause 6. -/
  | resetKey (t : Nat) (m : Master) (key : Nat) (selfTest : Bool)
  /-- WATCHDOG (R432). The market-supervisor watchdog expires and resets with cause 5. -/
  | watchdog (t : Nat) (selfTest : Bool)
  /-- LOCKSTEP_DISAGREE (R345). The lockstep cores disagree, ACTIVE is released and the module resets. -/
  | lockstepDisagree (t : Nat) (selfTest : Bool)
  /-- DORMANT (R417). A write of DORMANT is refused or accepted and entry begins. -/
  | dormant (t : Nat) (m : Master)
  /-- DORMANT_COMMIT (R418). After the bus sleeps and outputs are released the PLLs stop and the module is DORMANT. -/
  | dormantCommit (t : Nat)
  /-- DORMANT_WAKE (R430). A wake event returns the module from DORMANT to READY and RUN. -/
  | dormantWake (t : Nat) (src : WakeSrc)
  /-- POWER_FAIL_WARNING (R421). VIN12 below 10.3 V sets PFW and checkpoints are written. -/
  | powerFailWarning (t : Nat) (cv : Nat)
  /-- POWER_FAIL_CLEAR (R421). VIN12 back above 10.6 V clears PFW. -/
  | powerFailClear (t : Nat) (cv : Nat)
  /-- SUPPLY_OUT_OF_RANGE (R421). VIN12 outside range for 10 ms raises cause 0x09. -/
  | supplyOutOfRange (t : Nat) (cv : Nat)
  /-- VIN24_LOW (R421). VIN24 below 18 V for 1 ms fails SUPPLY and stops energised bays. -/
  | vin24Low (t : Nat) (cv : Nat)
  /-- VBAT_LOW (R421). VBAT below 2.2 V sets VBAT_LOW and writes a record. -/
  | vbatLow (t : Nat) (mv : Nat)
  /-- JUNCTION_TEMP_CHECK (R512). Every 1 ms the junction temperature is measured and judged. -/
  | junctionTempCheck (t : Nat) (tenths : Int)
  /-- TAMPER (R440). A tamper mesh break records the time and zeroises the vault. -/
  | tamper (t : Nat)
  /-- RTC_APPLY (R423). APPLY steps the calendar to the written value. -/
  | rtcApply (t : Nat) (m : Master) (seconds : Word) (frac : Nat)
  /-- PTP_SYNC (R425). A PTP Sync message starts an offset exchange. -/
  | ptpSync (t : Nat) (head : PtpHead) (origin : Nat) (twoStep : Bool)
  /-- PTP_FOLLOW_UP (R424). A two-step Follow_Up supplies the Sync origin time. -/
  | ptpFollowUp (t : Nat) (head : PtpHead) (origin : Nat)
  /-- PTP_DELAY_RESP (R425). A Delay_Resp completes an exchange and the calendar is stepped or slewed. -/
  | ptpDelayResp (t : Nat) (resp : PtpResp) (received : Nat)
  /-- PTP_ANNOUNCE (R424). An Announce message feeds master selection, UTC offset and leap flags. -/
  | ptpAnnounce (t : Nat) (a : Announce)
  /-- PTP_SYNC_TIMEOUT (R425). 10 s without Sync clear PTP_LOCK. -/
  | ptpSyncTimeout (t : Nat)
  /-- LEAP_SECOND (R426). A pending leap second is absorbed at the end of the UTC day. -/
  | leapSecond (t : Nat)
  /-- MARKET_TIME_READ (R433). A read of CLK.MT_L latches the high word for the port. -/
  | marketTimeRead (t : Nat) (m : Master) (high : Bool)
  /-- CALENDAR_READ (R427). A read of RTC.CAL_S latches the fraction and market time for the port. -/
  | calendarRead (t : Nat) (m : Master)
  /-- RAW_READ (R433). A read of RTC.RAW_L latches the high RAW bits. -/
  | rawRead (t : Nat) (m : Master) (high : Bool)
  /-- CLK_CLR_CNT (R433). CLR_CNT clears CLK.CNT. -/
  | clkClrCnt (t : Nat) (m : Master)
  /-- PWR_CLR_CNT (R433). CLR_CNT clears PWR.RST.COUNT. -/
  | pwrClrCnt (t : Nat) (m : Master)
  /-- GENERATE (R442). GENERATE creates a key and stores its blob. -/
  | generate (t : Nat) (m : Master)
  /-- LOAD (R442). LOAD unwraps the window's blob into a free slot. -/
  | load (t : Nat) (m : Master)
  /-- UNLOAD (R442). UNLOAD empties a loadable slot. -/
  | unload (t : Nat) (m : Master) (slot : Nat)
  /-- STORE (R442). STORE checks the window's blob and adds it to the blob store. -/
  | store (t : Nat) (m : Master)
  /-- DELETE (R442). DELETE removes a blob from the store and unloads it. -/
  | delete (t : Nat) (m : Master)
  /-- ATTEST (R443). ATTEST signs a statement over the nonce and module identity. -/
  | attest (t : Nat) (m : Master)
  /-- REMASK (R435). Every 250 ms the vault re-masks every occupied slot. -/
  | remask (t : Nat)
  /-- LC_ADVANCE (R438). A write of KEY.LC.STATE advances PROVISION to DEPLOYED. -/
  | lcAdvance (t : Nat) (m : Master) (value : Nat)
  /-- CHUNK_COMMIT (R447). COMMIT checks and stores a container chunk. -/
  | chunkCommit (t : Nat) (m : Master)
  /-- ABORT (R448). ABORT empties an update area. -/
  | abort (t : Nat) (m : Master)
  /-- APPLY (R451). APPLY verifies and applies a staged small container. -/
  | apply (t : Nat) (m : Master)
  /-- RAISE (R452). RAISE raises both floors to the running versions. -/
  | raise (t : Nat) (m : Master)
  /-- ACT_MODE_WRITE (R454). A write of UPD.ACT.MODE arms or disarms an activation. -/
  | actModeWrite (t : Nat) (m : Master) (mode : Nat)
  /-- ACTIVATION_LEAD (R454). At SCHED_S − LEAD_S new sessions stop starting. -/
  | activationLead (t : Nat)
  /-- SCHEDULED_ACTIVATION (R454). At SCHED_S, or the first idle tick after, the activation boot starts. -/
  | scheduledActivation (t : Nat)
  /-- ACTIVATION_SKIP (R454). SCHED_S + WAIT_S passes and the activation is skipped with 0x0C. -/
  | activationSkip (t : Nat)
  /-- HANDOVER_ACTIVATION (R455). A handover activation starts once its wait conditions hold. -/
  | handoverActivation (t : Nat)
  /-- HANDOVER_ACTIVATION_TIMEOUT (R455). WAIT_S passes and the handover activation is disarmed with 0x0F. -/
  | handoverActivationTimeout (t : Nat)
  /-- TRIAL_END (R453). A new image runs 10 s in READY and leaves trial. -/
  | trialEnd (t : Nat)
  /-- FLOOR_RAISE (R452). FLOOR_H hours without revert raise the floor. -/
  | floorRaise (t : Nat)
  /-- LEDGER_RECORD_WRITE (R464). A queued ledger record is written when MRAM room allows. -/
  | ledgerRecordWrite (t : Nat) (part : Fin 3)
  /-- SNAPSHOT_READ (R468). A snapshot set is read in the idle interval after the event. -/
  | snapshotRead (t : Nat)
  /-- MARK (R474). MARK queues code 0x0B02 in the system partition. -/
  | mark (t : Nat) (m : Master)
  /-- CLR_SYS (R473). CLR_SYS clears the system partition up to CLR_UPTO. -/
  | clrSys (t : Nat) (m : Master)
  /-- CLR_SAF (R473). CLR_SAF clears the safety partition up to CLR_UPTO. -/
  | clrSaf (t : Nat) (m : Master)
  /-- CAN_RX_ERROR (R378). A frame received on a site-bus channel is erroneous, the receive error counter rises and the channel may enter error-passive with a ledger record. -/
  | canRxError (t : Nat) (e : RxFault)
  /-- X32_RESTORED (R411). Edges of the 32.768 kHz crystal return, X32_OK is set again and DORMANT commands are no longer refused for code 6. -/
  | x32Restored (t : Nat)
  /-- PLL_LOCK_LOSS (R412). A PLL loses lock, CLK.CNT.UNLOCK counts it and market time counts on the reference while PLL_L relocks. -/
  | pllLockLoss (t : Nat) (pll : Pll)
  /-- PLL_RELOCK (R408). A PLL regains lock and market time returns to PLL_L at the next edge. -/
  | pllRelock (t : Nat) (pll : Pll)
  /-- KEY_OP_COMPLETE (R478). A key-vault operation that runs after its access was answered ends, clearing KEY.STAT.BUSY and setting ERR or the result. -/
  | keyOpComplete (t : Nat)
  /-- SUPPORTED_APP_PROTOCOL_REQ (R220). The vehicle's SupportedAppProtocolReq is answered in SETUP. -/
  | supportedAppProtocolReq (t : Nat) (bay : Fin 12) (decoded : Bool)
  /-- TLS_HANDSHAKE (R213). The vehicle opens TCP and completes a TLS 1.3 handshake with the module's server certificate. -/
  | tlsHandshake (t : Nat) (hello : TlsHello)
  /-- BAY_PHY_LINK (R232). A bay's 10BASE-T1S PHY starts or stops receiving valid symbols and BAY.PILOT.PHY_UP changes. -/
  | bayPhyLink (t : Nat) (bay : Fin 12) (report : PhyReport)
  /-- PROOF_DUE (R327). The last completed demand of an SI pair becomes older than 12 months and PROOF_DUE is set for it. -/
  | proofDue (t : Nat) (pair : Fin 16)
  /-- DORMANT_OUTPUT_RELEASE (R418). 1 ms after the bus is asleep, or at the 1 s bus timeout, links send SLP, AUX go to FAIL, SO pairs de-energise, ACTIVE is released and checkpoints are written. -/
  | dormantOutputRelease (t : Nat)
  /-- VBAT_DOMAIN_LOSS (R414). The VBAT domain loses power while VIN12 is absent, so RAW restarts at 0, the calendar is lost and tamper monitoring stops. -/
  | vbatDomainLoss (t : Nat)
  deriving DecidableEq, Repr

end Sys2Proof
end

