-- ==== Sys2Proof/Decode.lean ====
section
/-! DEFINITION. The command a word spells by the opcode table's bits. No row of the table gives bits: the manual's commands
are accesses, frames, messages, pin events and timed steps, and none of them is a coded word. -/
namespace Sys2Proof

/-- The command of a word by the table's bits: no word spells one. -/
def decodeTableWord (_nbits _w : Nat) : Option Instr := none

end Sys2Proof
end

