-- ==== Sys2Proof/Machine/Bits.lean ====
section
/-! DEFINITION. Bit fields, byte strings, the CRCs of R36 and R75, the SHA-2 hashes and HMAC the manual names, and the
small arithmetic the chapters share. -/
namespace Sys2Proof.Machine

/-! ## Numbers and fields -/

/-- Bits [lo + len - 1 : lo] of `n`. -/
def bits (n lo len : Nat) : Nat := (n >>> lo) % 2 ^ len

/-- 1 for true, 0 for false. -/
def b2n (b : Bool) : Nat := if b then 1 else 0

/-- `n` with bit `i` set. -/
def setBit (n i : Nat) : Nat := if n.testBit i then n else n + 2 ^ i

/-- `n` with bit `i` clear. -/
def clrBit (n i : Nat) : Nat := if n.testBit i then n - 2 ^ i else n

/-- The bits of `n` that `mask` does not name, within `w` bits. -/
def clrMask (w n mask : Nat) : Nat := n &&& ((2 ^ w - 1) ^^^ (mask % 2 ^ w))

/-- Number of bits set among the lowest `w`. -/
def popCount : Nat → Nat → Nat
  | 0, _ => 0
  | w + 1, n => popCount w n + b2n (n.testBit w)

/-- A counter of `w` bits that saturates (R111). -/
def satInc (w n : Nat) : Nat := if n + 1 < 2 ^ w then n + 1 else 2 ^ w - 1

/-- A counter of `w` bits that saturates, raised by `k`. -/
def satAdd (w n k : Nat) : Nat := if n + k < 2 ^ w then n + k else 2 ^ w - 1

/-- A counter of `w` bits that wraps (R402). -/
def wrapInc (w n : Nat) : Nat := (n + 1) % 2 ^ w

/-- The two's-complement value of the `w`-bit field `n`. -/
def signedOf (w n : Nat) : Int :=
  let m := n % 2 ^ w
  if 2 * m < 2 ^ w then (m : Int) else (m : Int) - (2 ^ w : Nat)

/-- The `w`-bit two's-complement field of `z`. -/
def fieldOf (w : Nat) (z : Int) : Nat := (z % ((2 ^ w : Nat) : Int)).toNat

/-- `z` limited to `lo` to `hi`. -/
def clampInt (lo hi z : Int) : Int := if z < lo then lo else if hi < z then hi else z

/-- `n` limited to `lo` to `hi`. -/
def clampNat (lo hi n : Nat) : Nat := if n < lo then lo else if hi < n then hi else n

/-- The least natural number at or above `n / d`. -/
def ceilDiv (n d : Nat) : Nat := (n + d - 1) / d

/-- The integer nearest `z / d`, halves away from zero. -/
def roundHalfAway (z : Int) (d : Nat) : Int :=
  if 0 ≤ z then ((2 * z + d) / (2 * d : Nat)) else -(((-(2 * z)) + d) / (2 * d : Nat))

/-- The smallest multiple of `d` at or above `n`. -/
def roundUpTo (d n : Nat) : Nat := ceilDiv n d * d

/-- The integer square root, one bit a step: the largest `r` below 2^k with `r * r ≤ n`. -/
def sqrtBits : Nat → Nat → Nat → Nat
  | 0, r, _ => r
  | k + 1, r, n => let c := r + 2 ^ k; if c * c ≤ n then sqrtBits k c n else sqrtBits k r n

/-- The integer square root of a number below 2^128. -/
def isqrt (n : Nat) : Nat := sqrtBits 64 0 n

/-- Sum of a list of integers. -/
def sumInt (xs : List Int) : Int := xs.foldl (· + ·) 0

/-- Sum of a list of natural numbers. -/
def sumNat (xs : List Nat) : Nat := xs.foldl (· + ·) 0

/-! ## Vectors -/

/-- The numbers below `k`, as indices below `n`. -/
def finsBelow (n : Nat) : (k : Nat) → k ≤ n → List (Fin n)
  | 0, _ => []
  | k + 1, h => finsBelow n k (Nat.le_of_succ_le h) ++ [⟨k, h⟩]

/-- All indices below `n`, rising. -/
def fins (n : Nat) : List (Fin n) := finsBelow n n (Nat.le_refl n)

theorem finsBelow_length (n k : Nat) (h : k ≤ n) : (finsBelow n k h).length = k := by
  induction k with
  | zero => rfl
  | succ k ih => simp [finsBelow, ih]

@[simp] theorem fins_length (n : Nat) : (fins n).length = n := finsBelow_length n n _

/-- The vector of the values of `f`. -/
def vgen {α : Type} {n : Nat} (f : Fin n → α) : Vector α n := ⟨((fins n).map f).toArray, by simp⟩

/-- The vector with `f` applied to each element and its index. -/
def vmap {α β : Type} {n : Nat} (f : Fin n → α → β) (v : Vector α n) : Vector β n := vgen fun i => f i v[i]

/-- The vector with `f` applied to element `i`. -/
def vupd {α : Type} {n : Nat} (v : Vector α n) (i : Fin n) (f : α → α) : Vector α n := v.set i.val (f v[i]) i.isLt

/-- Index `k` where it lies below `n`. -/
def fin? (n k : Nat) : Option (Fin n) := if h : k < n then some ⟨k, h⟩ else none

/-- The index `k` modulo the size. -/
def finMod (n k : Nat) (h : 0 < n := by decide) : Fin n := ⟨k % n, Nat.mod_lt _ h⟩

/-! ## Byte strings -/

/-- The number a byte string spells, least significant byte first. -/
def leNat : Bytes → Nat
  | [] => 0
  | b :: bs => b.toNat + 256 * leNat bs

/-- `n` bytes at offset `off`, little-endian; missing bytes read 0. -/
def le (bs : Bytes) (off n : Nat) : Nat := leNat ((bs.drop off).take n)

/-- The `n`-byte little-endian spelling of `v`. -/
def leBytes : Nat → Nat → Bytes
  | 0, _ => []
  | n + 1, v => byte v :: leBytes n (v / 256)

/-- The `n`-byte big-endian spelling of `v`. -/
def beBytes (n v : Nat) : Bytes := (leBytes n v).reverse

/-- `n` bytes at offset `off`, padded with zeros. -/
def slice (bs : Bytes) (off n : Nat) : Bytes :=
  let x := (bs.drop off).take n
  x ++ List.replicate (n - x.length) 0

/-- Byte at offset `off`, 0 beyond the end. -/
def u8 (bs : Bytes) (off : Nat) : Nat := le bs off 1

/-- 16-bit field at offset `off`. -/
def u16 (bs : Bytes) (off : Nat) : Nat := le bs off 2

/-- 32-bit field at offset `off`. -/
def u32 (bs : Bytes) (off : Nat) : Nat := le bs off 4

/-- Signed 16-bit field at offset `off`. -/
def i16 (bs : Bytes) (off : Nat) : Int := signedOf 16 (u16 bs off)

/-- Are all `n` bytes at offset `off` zero? -/
def zeros (bs : Bytes) (off n : Nat) : Bool := ((bs.drop off).take n).all (· == 0)

/-- The byte string of ASCII characters. -/
def ascii (s : String) : Bytes := s.toList.map fun c => byte c.toNat

/-- Bytes 4i to 4i + 3 of a string as one register word (R387). -/
def wordAt (bs : Bytes) (i : Nat) : Nat := le bs (4 * i) 4

/-- A string with bytes 4i to 4i + 3 replaced by a written word (R387). -/
def putWord (bs : Bytes) (i : Nat) (v : Word) : Bytes :=
  bs.take (4 * i) ++ leBytes 4 v.toNat ++ bs.drop (4 * i + 4)

/-! ## CRCs (R36, R75) -/

/-- Eight steps of a reflected CRC register. -/
def crcBits (poly : BitVec 32) : Nat → BitVec 32 → BitVec 32
  | 0, r => r
  | k + 1, r => if r.getLsbD 0 then crcBits poly k ((r >>> 1) ^^^ poly) else crcBits poly k (r >>> 1)

/-- A reflected CRC with all-ones initial value and final inversion. -/
def crcOf (poly : BitVec 32) (bs : Bytes) : Nat :=
  ((bs.foldl (fun r b => crcBits poly 8 (r ^^^ b.setWidth 32)) 0xFFFFFFFF) ^^^ 0xFFFFFFFF : BitVec 32).toNat

/-- CRC-32 of IEEE 802.3 (R36); 0xEDB88320 is 0x04C11DB7 reflected. -/
def crc32 (bs : Bytes) : Nat := crcOf 0xEDB88320 bs

/-- CRC-32C (R75); 0x82F63B78 is 0x1EDC6F41 reflected. -/
def crc32c (bs : Bytes) : Nat := crcOf 0x82F63B78 bs

/-! ## SHA-256, SHA-384 and HMAC-SHA-256 (FIPS 180-4, FIPS 198-1) -/

/-- A chunk of `n`-byte big-endian numbers. -/
def beNat (bs : Bytes) : Nat := bs.foldl (fun a b => a * 256 + b.toNat) 0

/-- The byte string cut into pieces of `n` bytes; `fuel` bounds the pieces. -/
def chunks (n : Nat) : Nat → Bytes → List Bytes
  | 0, _ => []
  | f + 1, bs => if bs.isEmpty then [] else bs.take n :: chunks n f (bs.drop n)

/-- The largest `r` below 2^k above the bits already found with `r` to the power `e` at most `n`, one bit a step. -/
def rootBits (e : Nat) : Nat → Nat → Nat → Nat
  | 0, r, _ => r
  | k + 1, r, n => if (r + 2 ^ k) ^ e ≤ n then rootBits e k (r + 2 ^ k) n else rootBits e k r n

/-- The first 80 primes, those below 410: no prime below 21 divides them but themselves. -/
def shaPrimes : List Nat :=
  (List.range 410).filter fun n => decide (2 ≤ n) && [2, 3, 5, 7, 11, 13, 17, 19].all fun p => n == p || n % p != 0

/-- The first `w` bits of the fraction of the `e`-th root of `p`. -/
def rootFraction (w e p : Nat) : BitVec w := BitVec.ofNat w (rootBits e (w + 5) 0 (p * 2 ^ (e * w)))

/-- What sets the members of the SHA-2 family apart: the bits of a word, the rounds, the bits the four mixing functions turn a word by
(the last one of a message mix shifts), and the first of the eight primes whose square roots begin the state. -/
structure Sha where
  w : Nat
  rounds : Nat
  turnA : Nat × Nat × Nat
  turnE : Nat × Nat × Nat
  old : Nat × Nat × Nat
  recent : Nat × Nat × Nat
  first : Nat

/-- SHA-256. -/
def shaShort : Sha := ⟨32, 64, (2, 13, 22), (6, 11, 25), (7, 18, 3), (17, 19, 10), 0⟩

/-- SHA-384, which has the rounds of SHA-512. -/
def shaLong : Sha := ⟨64, 80, (28, 34, 39), (14, 18, 41), (1, 8, 7), (19, 61, 6), 8⟩

/-- A mix of the working registers: three turns of one word. -/
def turned {w : Nat} (n : Nat × Nat × Nat) (x : BitVec w) : BitVec w := x.rotateRight n.1 ^^^ (x.rotateRight n.2.1 ^^^ x.rotateRight n.2.2)

/-- A mix of the message words: two turns and a shift. -/
def smeared {w : Nat} (n : Nat × Nat × Nat) (x : BitVec w) : BitVec w := x.rotateRight n.1 ^^^ (x.rotateRight n.2.1 ^^^ x.ushiftRight n.2.2)

/-- The eight working registers in two queues of four, the newest first: each round puts one word in front of each. -/
abbrev ShaRegs (w : Nat) : Type := List (BitVec w) × List (BitVec w)

/-- One round: the front word of the window of sixteen message words is used up, and the word that follows the window joins its end. -/
def shaRound (p : Sha) (x : List (BitVec p.w) × ShaRegs p.w) (k : BitVec p.w) : List (BitVec p.w) × ShaRegs p.w :=
  let m := fun i => x.1.getD i 0
  let a := fun i => x.2.1.getD i 0
  let e := fun i => x.2.2.getD i 0
  let choice := e 2 ^^^ (e 0 &&& (e 1 ^^^ e 2))
  let most := (a 0 &&& a 1) ||| (a 2 &&& (a 0 ||| a 1))
  let sum := k + m 0 + choice + turned p.turnE (e 0) + e 3
  (x.1.drop 1 ++ [m 0 + smeared p.old (m 1) + m 9 + smeared p.recent (m 14)],
   (sum + most + turned p.turnA (a 0)) :: x.2.1.take 3, (sum + a 3) :: x.2.2.take 3)

/-- One block of sixteen words: a round for each prime, with the cube root's fraction. -/
def shaBlock (p : Sha) (h : ShaRegs p.w) (blk : Bytes) : ShaRegs p.w :=
  let words := (chunks (p.w / 8) 16 blk).map fun x => BitVec.ofNat p.w (beNat x)
  let r := ((shaPrimes.take p.rounds).map (rootFraction p.w 3)).foldl (shaRound p) (words, h)
  (List.zipWith (· + ·) h.1 r.2.1, List.zipWith (· + ·) h.2 r.2.2)

/-- The padding of a message to blocks of `blk` bytes with a length field of `len` bytes. -/
def shaPad (blk len : Nat) (m : Bytes) : Bytes :=
  let z := (blk - (m.length + 1 + len) % blk) % blk
  m ++ [0x80] ++ List.replicate z 0 ++ beBytes len (8 * m.length)

/-- The whole digest, all eight words of it. -/
def shaOf (p : Sha) (m : Bytes) : Bytes :=
  let padded := shaPad (2 * p.w) (p.w / 4) m
  let start := ((shaPrimes.drop p.first).take 8).map (rootFraction p.w 2)
  let h := (chunks (2 * p.w) (padded.length / (2 * p.w)) padded).foldl (shaBlock p) (start.take 4, start.drop 4)
  (h.1 ++ h.2).flatMap fun x => beBytes (p.w / 8) x.toNat

/-- SHA-256: 32 bytes. -/
def sha256 (m : Bytes) : Bytes := shaOf shaShort m

/-- SHA-384: 48 bytes. -/
def sha384 (m : Bytes) : Bytes := (shaOf shaLong m).take 48

/-- HMAC-SHA-256 with a key of at most 64 bytes. -/
def hmac256 (key m : Bytes) : Bytes :=
  let k := slice key 0 64
  sha256 (k.map (· ^^^ 0x5C) ++ sha256 (k.map (· ^^^ 0x36) ++ m))

end Sys2Proof.Machine
end

