-- ==== Sys2Proof/Config.lean ====
section
/-! DEFINITION. What an implementation fixes and the manual leaves open: free values (opaque constants with no
body, so that nothing can evaluate them) and the cryptographic primitives, which other standards define.
Assumptions 3 to 8, 77, 106, 118, 133, 137 and 138 of the log describe them. -/
namespace Sys2Proof.Config

/-- The n-th random octet the module's random source draws (R218, R322, R405): a free value. -/
opaque freeByte : Nat → BitVec 8

/-- The n-th free number: a result the manual calls for without stating it. -/
opaque freeNat : Nat → Nat

/-- Where the manual writes a real number into an integer field and states no rounding, the model takes the floor
or the ceiling of the exact value `num / den`; which one, at the place numbered `place`, is this free choice. -/
opaque roundsUp (place : Nat) (num : Int) (den : Nat) : Bool

/-- Fused at manufacture (R2): is the part a ZAL-M64A-MB? -/
opaque fusedMb : Bool

/-- Fused serial number DEVICE_ID (R289). -/
opaque fusedDeviceId : Nat

/-- Fused base MAC address (R211), six octets. -/
opaque fusedMac : Nat

/-- MAC address of the SGMII port, which the manual does not state. -/
opaque portMac : Nat

/-- The fused secret of the device wrap key (R434). -/
opaque fusedSecret : List (BitVec 8)

/-- Certificate of slot 0 issued at manufacture (R443). -/
opaque slot0Certificate : List (BitVec 8)

/-- Public half of a private key, as an uncompressed point (IEC and NIST curves; R290, R443). -/
opaque publicOf (privateKey : List (BitVec 8)) : List (BitVec 8)

/-- Does an ECDSA P-384 / SHA-384 signature verify (R47, R444)? -/
opaque verifyP384 (publicKey message r s : List (BitVec 8)) : Bool

/-- Does the signature of a certificate of a PnC chain verify under the issuer's body (R214)? -/
opaque certSigned (issuer body signature : List (BitVec 8)) : Bool

/-- An ECDSA P-256 / SHA-256 signature, r then s, 64 bytes (R290). -/
opaque signP256 (privateKey message : List (BitVec 8)) : List (BitVec 8)

/-- An ECDSA P-384 / SHA-384 signature, r then s, 96 bytes (R443). -/
opaque signP384 (privateKey message : List (BitVec 8)) : List (BitVec 8)

/-- AES-256-GCM: the cipher text and tag (R441). -/
opaque gcmSeal (key iv aad plain : List (BitVec 8)) : List (BitVec 8) × List (BitVec 8)

/-- AES-256-GCM: the plain text, or none where the tag fails (R441, R444). -/
opaque gcmOpen (key iv aad cipher tag : List (BitVec 8)) : Option (List (BitVec 8))

/-- The device wrap key from the fused secret and the salt of the VBAT domain (R434). -/
opaque deriveDwk (secret salt : List (BitVec 8)) : List (BitVec 8)

/-- The import key of R446: HKDF-SHA-384 over ECDH of slot 2 and E, salted with the container UID. -/
opaque importKey (slot2 point uid : List (BitVec 8)) : List (BitVec 8)

/-- The fixed keys installed at manufacture (R434), by slot. -/
opaque fixedKey (slot : Nat) : List (BitVec 8)

/-- The attestation statement of R443 as bytes, from its items in the order of the rule; its layout is not stated. -/
opaque attestStatement (items : List (List (BitVec 8))) : List (BitVec 8)

/-- Where the attest window shows the statement, its signature and the certificate (R443); not stated. -/
opaque attestLayout (statement signature certificate : List (BitVec 8)) : List (BitVec 8)

/-- The compensation filter of R270 behind the sinc filter, from the sinc filter's outputs, newest first, to the code before it is limited to 24
bits; its coefficients and gain are not stated. -/
opaque compensate (outputs : List Int) : Int

/-- The identity of the module's own PTP port (R424); not stated. -/
opaque ptpPort : Nat

/-- The 16-tap interpolator of R271: the code at a delay of `steps` / 256 sample behind the newest code of a channel's codes, newest first;
its taps are not stated. -/
opaque interpolate (steps : Nat) (codes : List Int) : Int

/-- The angle by which the fundamental of a phase's current lags its voltage over a block, in 0.001°, at the frequency measured on MV_L1
(R274); the estimator is not stated. -/
opaque calPhase (lineOne voltage current : List Int) : Int

/-- The frequency in mHz from the rising crossings of u_1 over a block (R276); the estimator is not stated. -/
opaque lineFrequency (u1 : List Int) : Nat

/-- The CRC-32C of the results a tick commits, from the results in the order of R177 (R339); their layout is not stated. -/
opaque resultsDigest (results : List Int) : Nat

/-- Do the SI states agree with the partner's at this market time (R352)? No message of the manual carries the partner's. -/
opaque partnerSiAgree : Nat → Bool

/-- The schedule tuples the host's policy makes for a bay, each a list of power limits in W (R214); from which settings they are drawn is
not stated: here from the bay's number and the committed policy words. -/
opaque scheduleOffer (bay : Nat) (policy : List Nat) : List (List Nat)

/-- The payload of a Seljo message of a TYPE other than PITCH from its items (R339); its layout is not stated. -/
opaque seljoPayload (type : Nat) (items : List Int) : List (BitVec 8)

/-- Where a SESSION payload holds the nonce, the cipher text and the tag (R339); not stated. -/
opaque seljoSealed (iv cipher tag : List (BitVec 8)) : List (BitVec 8)

/-- The eight bytes of a tile head kept for the engine's own use (R145). -/
opaque engineBytes (tile : Nat) : List (BitVec 8)

/-- A free value (log 137): byte `j` of the mask m that the vault's random source gives a slot in a re-masking round (R435). -/
opaque slotMask (slot round j : Nat) : BitVec 8

/-- A free value (log 138): the address a violation records for a use of a slot's key that the vault refuses (R404, R437). -/
opaque vaultAddr (slot : Nat) : Nat

end Sys2Proof.Config
end

