-- ==== Sys2Proof/Machine/State.lean ====
section
/-! DEFINITION. The state of the module: every register, buffer, counter, mode and pin the manual names, as plain data.
Field defaults are the reset values: those of the register tables, and the manufacture values in brackets for retained
fields. Assumption 2 of the log lists the fields whose reset value no table gives. -/
namespace Sys2Proof.Machine

/-- A sparse byte memory: strictly rising addresses, no entry equal to 0, which an unlisted address reads as. -/
abbrev Mem := List Host.Cell

/-- A table by number, strictly rising keys. -/
abbrev Table (α : Type) := List (Nat × α)

/-! ## The layout image (R33 to R47), parsed -/

/-- Header fields of R33 that the running module uses. -/
structure ImgHeader where
  imageLen : Nat
  uid : Bytes
  pitchNs : Nat
  carrierHz : Nat
  update : Nat
  minStep : Nat
  cableM : Nat
  bayMask : Nat
  stallMask : Nat
  siteMaxKw : Nat
  siteMinKw : Nat
  rateMax : Nat
  jerkMax : Nat
  sbusCycleNs : Nat
  sbusCycles : Nat
  deriving DecidableEq, Repr

/-- A cell record (R37). -/
structure CellRec where
  cellId : Nat
  flags : Nat
  shedRank : Nat
  iMax : Nat
  gainTrim : Int
  deriving DecidableEq, Repr

/-- A stall record (R38). -/
structure StallRec where
  stallId : Nat
  cellMask : Nat
  pRated : Nat
  vMax : Nat
  iMax : Nat
  bayReach : Nat
  tClose : Nat
  tOpen : Nat
  rampMs : Nat
  deriving DecidableEq, Repr

/-- A bay record (R39) with its CABLE_PARAM (R233). -/
structure BayRec where
  bayId : Nat
  flags : Nat
  pMaxKw : Nat
  pFloorKw : Nat
  vMin : Nat
  vMax : Nat
  iMax : Nat
  classDef : Nat
  weightDef : Nat
  stallsMax : Nat
  flowIn : Nat
  tsA : Nat
  tsB : Nat
  tsC : Nat
  res20 : Nat
  cC : Nat
  cW : Nat
  g0 : Nat
  g1 : Nat
  gWA : Nat
  tLim : Nat
  flowMin : Nat
  derSpan : Nat
  deriving DecidableEq, Repr

/-- A tile record (R40). -/
structure TileRec where
  tileId : Nat
  template : Nat
  lane : Nat
  ownerKind : Nat
  flags : Nat
  ownerId : Nat
  macCount : Nat
  coefWords : Nat
  stateWords : Nat
  inA : Nat
  inB : Nat
  recordLen : Nat
  coef : List Int
  deriving DecidableEq, Repr

/-- A lane schedule record (R43): the ORDER entries below COUNT. -/
structure LaneRec where
  lane : Nat
  order : List Nat
  deriving DecidableEq, Repr

/-- A bus matrix record (R44). -/
structure BusWin where
  channel : Nat
  kind : Nat
  baseCycle : Nat
  rep : Nat
  canId : Nat
  startNs : Nat
  lengthNs : Nat
  deriving DecidableEq, Repr

/-- A safety record (R45). -/
structure SafRec where
  kind : Nat
  index : Nat
  flags : Nat
  paramA : Nat
  paramB : Nat
  targetMask : Nat
  deriving DecidableEq, Repr

/-- A metering record (R46). -/
structure MeterRec where
  channel : Nat
  quantity : Nat
  index : Nat
  flags : Nat
  fullScale : Nat
  deriving DecidableEq, Repr

/-- A layout image that passed its checks. -/
structure Image where
  header : ImgHeader
  cells : List CellRec
  stalls : List StallRec
  bays : List BayRec
  tiles : List TileRec
  lanes : List LaneRec
  bus : List BusWin
  safety : List SafRec
  meter : List MeterRec
  /-- The bytes of the safety section, for the digest of R321. -/
  safetyBytes : Bytes
  /-- The bytes of the metering section, for METER_SEAL (R266). -/
  meterBytes : Bytes
  deriving DecidableEq, Repr

/-! ## Profiles (02) -/

/-- One profile slot (R30, R55, R67). -/
structure ProfSlot where
  mem : Mem := []
  extent : Nat := 0
  st : SlotState := .empty
  lastCode : Nat := 0
  /-- The state it returns to when a reset abandons a check (R57). -/
  resume : SlotState := .empty
  deriving DecidableEq, Repr

/-- A check under way (R55): after a CHECK command, or after an ACTIVATE in a mode. -/
structure CheckRun where
  slot : Fin 4
  activate : Option ChangeMode
  started : Nat
  master : Master
  /-- The safety configuration was unlocked when the command came (R324). -/
  unlocked : Bool
  deriving DecidableEq, Repr

/-- A PENDING change (R55, R61, R66, R355). -/
structure PendingChange where
  slot : Fin 4
  mode : ChangeMode
  since : Nat
  image : Image
  master : Master
  /-- LIVE: the tick start that took over the new bounds (step 4 of R66). -/
  tickDone : Option Nat := none
  /-- HANDOVER: both modules hold the new image in tile memory since (step 2 of R355). -/
  loaded : Option Nat := none
  deriving DecidableEq, Repr

/-- The profile registers and machinery (R55 to R67). -/
structure Profile where
  slots : Vector ProfSlot 4 := Vector.replicate 4 {}
  ctrlMode : Nat := 0
  ctrlSlot : Nat := 0
  switchCount : Nat := 0
  clamped : Bool := false
  pins : Nat := 3
  source : Nat := 0
  active : Option (Fin 4) := none
  image : Option Image := none
  check : Option CheckRun := none
  pend : Option PendingChange := none
  errRecord : Nat := 0xFFFF
  errSection : Nat := 0
  errCode : Nat := 0
  bootSrc : Nat := 0
  bootSlot : Nat := 0
  /-- Sessions are held until the switch boundary of a STOPPED change (R61). -/
  holdSessions : Bool := false
  /-- Boundary from which the present pitch grid runs (R519). -/
  gridFrom : Nat := 0
  deriving DecidableEq, Repr

/-! ## Unlocks (R322 to R324, R405, R406) -/

/-- States of the SYS unlock (R405). -/
inductive LockSt where
  | locked | unlocked | sealed
  deriving DecidableEq, Repr

/-- A challenge-response unlock with its failures and its lockout (R323, R405, R406). -/
structure Unlock where
  st : LockSt := .locked
  owner : Master := .udp
  deadline : Nat := 0
  fails : Nat := 0
  lockout : Bool := false
  /-- Remaining lockout in ns, as counted at market time `lockFrom`. -/
  remNs : Nat := 0
  lockFrom : Nat := 0
  /-- Length of the latest lockout in ns, doubled by a further failure (R323). -/
  lastNs : Nat := 0
  nonce : Bytes := List.replicate 16 0
  resp : Bytes := List.replicate 16 0
  deriving DecidableEq, Repr

/-! ## Host access (13) -/

/-- The violation record (R404, R407). -/
structure Viol where
  valid : Bool := false
  master : Nat := 0
  world : Nat := 0
  write : Bool := false
  status : Nat := 0
  detail : Nat := 0
  addr : Nat := 0
  time : Nat := 0
  deriving DecidableEq, Repr

/-- Per-port latches: tally (R285), market time (R433), calendar (R427) and RAW (R433). -/
structure PortLatch where
  tally : Option (Nat × Nat) := none
  mtHigh : Option Nat := none
  calFrac : Nat := 0
  calTime : Nat := 0
  rawHigh : Option Nat := none
  deriving DecidableEq, Repr

/-- Where a request came from and goes back to (R396, R398). -/
structure Origin where
  spi : Bool
  ip : Nat
  port : Nat
  deriving DecidableEq, Repr

/-- A queued Tally request (R389, R401): its header fields, the payload and the CRC for R398. -/
structure Request where
  origin : Origin
  op : Nat
  tag : Nat
  addr : Nat
  count : Nat
  payload : Bytes
  crc : Nat
  /-- Market time of its arrival (R393). -/
  at_ : Nat := 0
  deriving DecidableEq, Repr

/-- A kept reply (R398). -/
structure Kept where
  origin : Origin
  tag : Nat
  crc : Nat
  reply : Bytes
  at_ : Nat
  deriving DecidableEq, Repr

/-- What the module last sent on its Ethernet port. -/
inductive NetOut where
  | none
  | tally (origin : Origin) (frame : Bytes) (checksum : Nat)
  | arp (ip mac senderIp senderMac : Nat)
  | icmp (ip : Nat) (data : Bytes)
  /-- A PTP Delay_Req of this domain and sequence number (R424, R425). -/
  | delayReq (domain seq : Nat)
  deriving DecidableEq, Repr

/-- The HOST block and the two ports (R384 to R407). -/
structure HostBlock where
  sum : Vector Nat 16 := Vector.replicate 16 0
  viol : Viol := {}
  violCnt : Nat := 0
  udpRequests : Nat := 0
  udpForeign : Nat := 0
  udpDuplicate : Nat := 0
  spiRequests : Nat := 0
  spiDropped : Nat := 0
  spiBadCrc : Nat := 0
  netIp : Nat := 0xC0A83215
  netMask : Nat := 0xFFFFFF00
  netGw : Nat := 0
  allow : Vector Nat 4 := Vector.replicate 4 0
  /-- Values written under the unlock that take effect when it ends (R406). -/
  stagedIp : Option Nat := none
  stagedMask : Option Nat := none
  stagedGw : Option Nat := none
  stagedAllow : Vector (Option Nat) 4 := Vector.replicate 4 none
  udpQueue : List Request := []
  spiQueue : Option Request := none
  /-- SPI status bit DROPPED (R400). -/
  spiDrop : Bool := false
  spiReply : Option Bytes := none
  /-- STATUS of the waiting SPI reply is not OK (R400). -/
  spiErr : Bool := false
  /-- Bytes the last SPI command shifted out (R399). -/
  spiOut : Bytes := []
  kept : List Kept := []
  latchUdp : PortLatch := {}
  latchSpi : PortLatch := {}
  latchDbg : PortLatch := {}
  netOut : NetOut := .none
  /-- Answer to the latest access, and the data of the latest read. -/
  answer : Answer := ⟨.ok, .none⟩
  data : List Word := []
  /-- Transactions and words that arrived in the interval of R485 which ends at `rateEnd`, and whether its end has passed. -/
  transactions : Nat := 0
  wordCount : Nat := 0
  rateEnd : Nat := 0
  rateShown : Bool := false
  deriving DecidableEq, Repr

/-- SYS.ASSUME and SYS.ASSUME_CNT (R487), and what R486 remembers. -/
structure Assume where
  hostRate : Bool := false
  busLoad : Bool := false
  interlock : Bool := false
  supply : Bool := false
  clock : Bool := false
  hostRateS : Bool := false
  busLoadS : Bool := false
  interlockS : Bool := false
  supplyS : Bool := false
  clockS : Bool := false
  cntHostRate : Nat := 0
  cntBusLoad : Nat := 0
  /-- Market time of the latest rise of WRONG_WIN (R486). -/
  wrongWinAt : Option Nat := none
  /-- The interval at `rateEnd` counts among those that exceeded a rate (R485). -/
  rateOver : Bool := false
  deriving DecidableEq, Repr

/-! ## Stalls: link, feedback, cells (03, 05) -/

/-- An uplink pitch frame (R81), its fields as numbers. -/
structure Uplink where
  stat : Nat
  ocMask : Nat
  tempIdx : Nat
  matrixFb : Nat
  sampleTime : Nat
  temp : Nat
  iCell : List Int
  vOut : Nat
  vDc : Nat
  deriving DecidableEq, Repr

/-- A downlink pitch frame (R77) and the boundary it is for. -/
structure Downlink where
  rearm : Bool
  capOn : Bool
  gate : Nat
  matrix : Nat
  boundary : Nat
  duty : List Nat
  phase : List Nat
  /-- Market time of the character slot in which its SDF starts (R84). -/
  sdf : Nat
  deriving DecidableEq, Repr

/-- A configuration frame (R101). -/
structure ConfigFrame where
  stallId : Nat
  flags : Nat
  side : Nat
  pitchNs : Nat
  carrierHz : Nat
  txTime : Nat
  ocTrip : Nat
  capDt : Nat
  delayNs : Nat
  tag : Nat
  deriving DecidableEq, Repr

/-- What the transmitter of a link last began to send besides pitch frames. -/
inductive LinkOut where
  | electricalIdle
  | idl
  | config (f : ConfigFrame)
  | slp
  deriving DecidableEq, Repr

/-- One stall link (R99 to R103, R111). -/
structure Link where
  st : LinkState := .off
  faultCode : Nat := 0
  /-- Code of the last FAULT recorded in the ledger without a RUN since (R100). -/
  recorded : Option Nat := none
  entered : Nat := 0
  out : LinkOut := .electricalIdle
  tag : Nat := 0
  /-- Earlier tags of this link, which a new one differs from (R101). -/
  oldTags : List Nat := []
  txTime : Nat := 0
  /-- Delay estimates so far (R101). -/
  estimates : List Int := []
  /-- The frame with DELAY_VALID = 1 has been sent. -/
  confirming : Bool := false
  delayNs : Nat := 0
  turnNs : Nat := 0
  hwVer : Nat := 0
  cellFitted : Nat := 0
  tLoad : Nat := 0
  portNo : Nat := 0
  dual : Bool := false
  iFs : Nat := 0
  vFs : Nat := 0
  maker : Nat := 0
  sleepReq : Bool := false
  capEn : Bool := false
  /-- Consecutive pitches without a usable uplink (R99). -/
  silent : Nat := 0
  ocMask : Nat := 0
  conflict : Bool := false
  otherPortUp : Bool := false
  masterPort : Bool := false
  tripped : Bool := true
  miss : Nat := 0
  errCrc : Nat := 0
  errLate : Nat := 0
  errTime : Nat := 0
  evtHold : Nat := 0
  evtTrip : Nat := 0
  evtDown : Nat := 0
  /-- Boundary from which pitches are classified after entry to RUN (R101 step 6). -/
  runFrom : Nat := 0
  /-- Usable or not, the last 1 000 pitches, newest first (check PORTS of R352). -/
  history : List Bool := []
  /-- SAMPLE_TIME of the previous usable frame of a lite-pair standby (R349). -/
  lastSampleTime : Option Nat := none
  /-- The latest uplink of this module's own port while it does not hold ACTIVE in a pair: its boundary and its bytes; no
  bytes where the pitch brought none (R341, R349). -/
  own : Option (Nat × Bytes) := none
  /-- The characters of the latest MST sent, special ones marked (R94, R95). -/
  mst : List (Bool × Byte) := []
  deriving DecidableEq, Repr

/-- The run of one channel (R164). -/
structure Run where
  c0 : Int := 0
  p0 : Int := 0
  n : Nat := 0
  frozen : Bool := false
  deriving DecidableEq, Repr

/-- How the sample of the present pitch was judged (R163 to R165). -/
inductive SampleSt where
  | none | good | lost | frozen
  deriving DecidableEq, Repr

/-- Everything of one stall. -/
structure Stall where
  link : Link := {}
  /-- The latest usable uplink and its boundary. -/
  up : Option Uplink := none
  upAt : Nat := 0
  sample : SampleSt := .none
  sampleAt : Nat := 0
  st : StallSt := .idle
  cause : Nat := 0
  bay : Option (Fin 12) := none
  /-- Market time of the latest change of the assignment, and the assignment before it (R21). -/
  bayAt : Nat := 0
  bayOld : Option (Fin 12) := none
  /-- A stop request waiting for the next tick, with its cause (R166, R173). -/
  stopReq : Option Nat := none
  coasting : Bool := false
  coastCnt : Nat := 0
  /-- The coast in progress has been exhausted: its fast gate has been taken (R168). -/
  coastEnd : Bool := false
  runs : Vector Run 10 := Vector.replicate 10 {}
  cells : Vector CellCtl 8 := Vector.replicate 8 {}
  stamps : List Nat := []
  otLatch : Bool := false
  /-- Market time at which the over-temperature latch was set, for the stamps that stand still (R175). -/
  otSince : Nat := 0
  /-- End of the COOL_S that follow the clearing of the latch (R175). -/
  coolDue : Option Nat := none
  /-- Readings of the nine indices since the latch was set (R175). -/
  otReadings : List (Option Nat) := List.replicate 9 none
  scale : Bool := false
  /-- End of the rest of a STOPPED stall (R170). -/
  restDue : Nat := 0
  openDue : Option Nat := none
  /-- Every frame carries GATE = 0xFF and MATRIX = 0xF from now on (fast path of R170). -/
  gatedOut : Bool := false
  /-- Bay whose matrix path is commanded closed; none for MATRIX = 0xF. -/
  matrix : Option (Fin 12) := none
  /-- A frame with MATRIX = 0xF has been sent since the stall was assigned (R125). -/
  sentOpen : Bool := false
  rearmPend : Bool := false
  /-- The first REARM of R172 has been asked for. -/
  rearmed : Bool := false
  rearmTicks : Nat := 0
  /-- After a STOPPED switch, the first usable uplink must show MATRIX_FB = 0xF (R520). -/
  checkOpen : Bool := false
  /-- The open timeout restarts when the link is in RUN under the new image (R520). -/
  restartOpen : Bool := false
  /-- After a takeover in lite pair, the first usable uplink shows what the stall's path is closed to (R350). -/
  liteCheck : Bool := false
  frame : Option Downlink := none
  applied : Option Downlink := none
  /-- Lane inputs taken over at the present window: I_CELL, V_OUT, V_DC as Q15 (R121, R126). -/
  laneIn : List Int := List.replicate 10 0
  /-- Assignment in effect since the latest window (R125). -/
  laneBay : Option (Fin 12) := none
  /-- Results d as last sent or held (R125). -/
  lastD : List Int := List.replicate 8 0
  /-- Sums of |i| of the stall's ACTIVE cells this tick and the pitches summed (R159). -/
  loadSum : Nat := 0
  /-- Sum of their I_MAX over the same pitches, 0.1 A. -/
  loadMax : Nat := 0
  reachFault : Nat := 0
  cntCoastEnd : Nat := 0
  cntFrozen : Nat := 0
  cntLost : Nat := 0
  stopsTotal : Nat := 0
  stopsOc : Nat := 0
  stopsOt : Nat := 0
  deriving DecidableEq, Repr

/-- One stored record of the capture buffer (R109). -/
structure CapRec where
  at_ : Nat
  stall : Nat
  kind : Nat
  bytes : Bytes
  deriving DecidableEq, Repr

/-- The STL registers common to all stalls (R111, R176). -/
structure StlCommon where
  cap : List CapRec := []
  frozen : Bool := false
  armed : Bool := true
  trigSrc : Nat := 0
  trigStall : Nat := 0xFF
  coastN : Nat := 16
  freezeN : Nat := 8
  vTh : Nat := 0x0100
  iTh : Nat := 0x0200
  shedRamp : Nat := 8
  shedHold : Nat := 20
  shedHi : Nat := 40
  shedLo : Nat := 15
  shedEn : Nat := 0xFFF
  restartWin : Nat := 600
  restartMax : Nat := 3
  restMs : Nat := 1000
  coolS : Nat := 60
  hyst : Nat := 15
  trip : Nat := 145
  lsSticky : Nat := 0
  lsLatest : Nat := 0
  /-- Reference I_FS and V_FS of the profile (R148). -/
  reference : Option (Nat × Nat) := none
  /-- Boundary at which the stall that gave the reference reached RUN, and its number. -/
  refAt : Nat := 0
  refStall : Nat := 0
  /-- Bays whose stop a bay tile's overruns have requested, taken at the next tick (R138). -/
  bayStops : Nat := 0
  deriving DecidableEq, Repr

/-! ## Lattice engine (04) -/

/-- One tile in tile memory: its record, coefficients, state words and the two buffers of its outputs (R123, R129). -/
structure Tile where
  info : TileRec
  coef : List Int
  words : List Int
  now : List Int
  prev : List Int
  /-- Committed in the present pitch. -/
  committed : Bool
  deriving DecidableEq, Repr

/-- Overrun counts of a tile (R137, LAT.TOVR). -/
structure TileOvr where
  total : Nat := 0
  consec : Nat := 0
  deriving DecidableEq, Repr

/-- Counters of one lane (R145). -/
structure LaneCnt where
  peak : Nat := 0
  ovr : Nat := 0
  sat : Nat := 0
  ded : Nat := 0
  deriving DecidableEq, Repr

/-- Counters and flags of one quarter (R145). -/
structure Quarter where
  stopReq : Nat := 0
  hard : Nat := 0
  ted : Nat := 0
  cycFault : Bool := false
  deriving DecidableEq, Repr

/-- The first-overrun record (R137). -/
structure FirstOvr where
  valid : Bool := false
  lane : Nat := 0
  cause : Nat := 0
  tile : Nat := 0
  time : Nat := 0
  deriving DecidableEq, Repr

/-- A word that needed a double-bit correction: whether an idle interval has rewritten it, and whether its hard error stands
recorded (R144). -/
structure SoftWord where
  lane : Nat
  offset : Nat
  rewritten : Bool
  recorded : Bool
  deriving DecidableEq, Repr

/-- One supervisor word on its way to a tile (R143): tile, index of its state word, value, market time of its commit (R21). -/
structure SupWord where
  tile : Nat
  index : Nat
  value : Int
  at_ : Nat
  deriving DecidableEq, Repr

/-- The lattice engine (R112 to R145). -/
structure Lattice where
  tiles : List Tile := []
  /-- The image is placed at the high end of tile memory (R145, R355). -/
  high : Bool := false
  /-- Supervisor words committed and not yet taken over (R21, R143). -/
  sup : List SupWord := []
  /-- Boundary of the pitch whose window is open or was last open. -/
  pitch : Nat := 0
  /-- The latest pitch boundary at which the ramps of the cells took their step (R158). -/
  stepped : Nat := 0
  windowOpen : Bool := false
  /-- Market time at which the latest window opened: the take-over point of its pitch (R22). -/
  openAt : Nat := 0
  /-- The quarter supervisors copy a coefficient set into tile memory (R141). -/
  copying : Bool := false
  /-- The window in progress is a standby's shadow window (R341). -/
  shadow : Bool := false
  swapCount : Nat := 0
  swapPend : Nat := 0
  ovrLast : Nat := 0
  lanes : Vector LaneCnt 8 := Vector.replicate 8 {}
  quarters : Vector Quarter 4 := Vector.replicate 4 {}
  firstOvr : FirstOvr := {}
  memPage : Fin 8 := 0
  tovr : Table TileOvr := []
  soft : List SoftWord := []
  /-- Market times of the latest cycle fault, hard error and count of 3, for check LANES of R352. -/
  badAt : Option Nat := none
  deriving DecidableEq, Repr

/-! ## Market clearing (06) -/

/-- The policy of MKT (R205, R207). -/
structure Policy where
  contractKw : Nat := 0xFFFF
  siteKw : Nat := 0xFFFF
  jerkKw : Nat := 0xFFFF
  rateKw : Nat := 0xFFFF
  exportKw : Nat := 0
  relHold : Nat := 200
  relMargin : Nat := 10
  perBay : Nat := 2
  pOvlKw : Nat := 0
  pRKw : Nat := 0
  ambSrc : Nat := 0xFF
  riseR : Nat := 65
  tauS : Nat := 600
  ambFix : Nat := 80
  thetaMax : Nat := 120
  thetaAl : Nat := 105
  weight : Vector Nat 12 := Vector.replicate 12 1
  useDef : Vector Bool 12 := Vector.replicate 12 true
  cls : Vector Nat 12 := Vector.replicate 12 0
  capKw : Vector Nat 12 := Vector.replicate 12 0xFFFF
  bayRateKw : Vector Nat 12 := Vector.replicate 12 100
  deriving DecidableEq, Repr

/-- Clearing's results for one bay (R207). -/
structure BayClear where
  bid : Bid := {}
  cls : Nat := 0
  weight : Nat := 0
  cap : Nat := 0
  floor : Nat := 0
  grant : Nat := 0
  setpt : Nat := 0
  held : Nat := 0
  iLo : Int := 0
  iHi : Int := 0
  stalls : Nat := 0
  attaching : Nat := 0
  /-- Consecutive ticks of R199. -/
  relCount : Nat := 0
  deriving DecidableEq, Repr

/-- A move decided from a snapshot, with the states it was decided on (R178). -/
structure MoveDecision where
  slot : Fin 8
  move : MoveSlot
  stallSt : StallSt
  linkRun : Bool
  deriving DecidableEq, Repr

/-- The limits of one tick (R183). -/
structure Limits where
  grid : Nat := 0
  pol : Nat := 0
  xf : Nat := 0
  met : Nat := 0
  site : Nat := 0
  src : Nat := 0
  deriving DecidableEq, Repr

/-- The results of a tick, computed from its snapshot and waiting for the commit at T + 250 µs (R177, R178). -/
structure TickResult where
  at_ : Nat
  limits : Limits
  stale : Bool
  short : Nat
  env : Nat
  envRate : Int
  envX : Nat
  envXRate : Int
  bays : Vector BayClear 12
  moves : List MoveDecision
  /-- The hot-spot estimate of MKT.XF_HOT; none without a transformer model (R185). -/
  xfHot : Option Int
  deriving DecidableEq, Repr

/-- The MKT block (R177 to R207). -/
structure Market where
  shadow : Policy := {}
  committed : Policy := {}
  /-- The policy in force at the latest tick start, and a commit waiting for one (R205). -/
  effective : Policy := {}
  commitAt : Option Nat := none
  /-- A commit that waits for its MRAM share of the next tick, with the set it commits (R206). -/
  commitDue : Option Policy := none
  limits : Limits := {}
  stale : Bool := false
  short : Nat := 0
  env : Nat := 0
  envRate : Int := 0
  envX : Nat := 0
  envXRate : Int := 0
  /-- Rise of the transformer's hot spot, °C (R185), and its copy in MRAM. -/
  theta : Rat := 0
  thetaSaved : Rat := 0
  thetaSavedAt : Nat := 0
  xfHot : Int := 0
  bays : Vector BayClear 12 := Vector.replicate 12 {}
  /-- Market time of the commit of the current limits of `bays`, and the limits before it: the double buffer of R21. -/
  boundsAt : Nat := 0
  oldBounds : Vector (Int × Int) 12 := Vector.replicate 12 (0, 0)
  result : Option TickResult := none
  moves : Vector MoveSlot 8 := Vector.replicate 8 {}
  movesDone : Nat := 0
  closeFail : Nat := 0
  shortEvt : Nat := 0
  /-- Shedding: consecutive light-load ticks of each bay (R159). -/
  lightTicks : Vector Nat 12 := Vector.replicate 12 0
  /-- A load step was detected on the bay since the last tick (R159). -/
  stepSeen : Nat := 0
  deriving DecidableEq, Repr

/-! ## Bays (07) -/

/-- Debounced contact of CE and ID (R208, R209). -/
structure Pilot where
  ce : CeCode := .none
  ceCand : CeCode := .none
  ceCount : Nat := 0
  ceMv : Nat := 0
  id : IdCode := .opened
  idCand : IdCode := .opened
  idCount : Nat := 0
  plca : Bool := false
  phyUp : Bool := false
  deriving DecidableEq, Repr

/-- The outlet contactor of a bay: commanded, and what is confirmed (R220, R221, R306). -/
structure Outlet where
  close : Bool := false
  commandAt : Option Nat := none
  confirmedOpen : Bool := true
  confirmedClosed : Bool := false
  deriving DecidableEq, Repr

/-- Everything of one bay (R232). -/
structure Bay where
  pilot : Pilot := {}
  session : Session := {}
  outlet : Outlet := {}
  resp : Option Resp := none
  /-- A response that waits for the acknowledgement of its SESSION message (R343). -/
  heldResp : Option Resp := none
  /-- The bay takes a changed MAC base at its next entry to CONNECTED (R211). -/
  mac : Nat := 0
  disable : Bool := false
  imdSi : Nat := 0x1F
  ceDeb : Nat := 10
  pncHost : Bool := false
  eimAuto : Bool := false
  pncEn : Bool := true
  eimEn : Bool := true
  authS : Nat := 60
  ccS : Nat := 40
  loopS : Nat := 2
  preS : Nat := 7
  ccHold : Nat := 20
  sessions : Nat := 0
  timeouts : Nat := 0
  faults : Nat := 0
  errMsg : Nat := 0
  errTls : Nat := 0
  errPhy : Nat := 0
  deriving DecidableEq, Repr

/-! ## Thermal and AUX (08) -/

/-- One PT1000 input (R236). -/
structure TempInput where
  hist : List Int := []
  bad : Nat := 0
  good : Nat := 0
  faulted : Bool := false
  /-- Mean of the last ten conversions in 0.1 °C; none until one was made. -/
  temp : Option Int := none
  deriving DecidableEq, Repr

/-- The cable model and derate of one bay (R235 to R243). -/
structure Cable where
  /-- Nodes C and W in 2^−16 °C, and θ_use in a tenth of that, 1/655 360 °C. -/
  thC : Int := 0
  thW : Int := 0
  latch : Bool := false
  noFlow : Bool := false
  iDer : Nat := 0
  thUse : Int := 0
  /-- The cable term last committed, its stamp, and the term in force at the latest tick (R242). -/
  term : Nat := 0
  termAt : Option Nat := none
  inForce : Nat := 0
  /-- Pulses in the window and the flow q in 0.1 l/min. -/
  flow : Nat := 0
  valve : Bool := false
  valveDue : Option Nat := none
  deriving DecidableEq, Repr

/-- One cooling loop (R243 to R245). -/
structure CoolLoop where
  dMin : Nat := 30
  bays : Nat := 0
  fHi : Nat := 85
  fLo : Nat := 70
  tHi : Nat := 110
  tLo : Nat := 80
  pump : Bool := false
  pumpSince : Nat := 0
  fan : Bool := false
  /-- Demands in units of 1/1000 per mille, so that the rate limit of R245 is exact per tick. -/
  pumpDemand : Nat := 0
  fanDemand : Nat := 0
  deriving DecidableEq, Repr

/-- The THM block (R258). -/
structure Thermal where
  ambFix : Nat := 65
  kFus : Nat := 32
  faultMargin : Nat := 10
  noFlowPct : Nat := 25
  flowK : Vector Nat 12 := Vector.replicate 12 450
  ts : Vector TempInput 36 := Vector.replicate 36 {}
  /-- Stamps of the flow edges of the last 250 ms, newest first (R237). -/
  edges : Vector (List Nat) 12 := Vector.replicate 12 []
  cables : Vector Cable 12 := Vector.replicate 12 {}
  loops : Vector CoolLoop 4 := Vector.replicate 4 {}
  latches : Nat := 0
  noFlows : Nat := 0
  tsFaults : Nat := 0
  deriving DecidableEq, Repr

/-- One AUX channel (R246 to R258). -/
structure AuxCh where
  mirror : Bool := false
  prio : Bool := false
  fail : Nat := 2
  pwmF : Nat := 0
  vNom : Nat := 24
  level : Nat := 50
  src : Nat := 0
  mode : Nat := 0
  demand : Nat := 0
  /-- Code of the latest fault (R250); 0 for none. -/
  fault : Nat := 0
  therm : Bool := false
  retries : Nat := 0
  /-- Switched off by a trip, a fault or the thermal latch. -/
  tripped : Bool := false
  /-- The present on-time is a retry (R251). -/
  retrying : Bool := false
  duty : Nat := 0
  current : Nat := 0
  /-- End of the retry wait, or what remained of it when the latch stopped it (R251). -/
  retryDue : Option Nat := none
  retryLeft : Nat := 0
  coolDue : Option Nat := none
  onSince : Option Nat := none
  /-- End of T_INRUSH, once the current limit has become active (R12, R250). -/
  limitDue : Option Nat := none
  overSince : Option Nat := none
  lightSince : Option Nat := none
  valveOn : Bool := false
  /-- End of the pull-in of a valve channel (R246). -/
  pullInDue : Option Nat := none
  deriving DecidableEq, Repr

/-- The AUX block (R252, R255, R258). -/
structure Aux where
  ch : Vector AuxCh 24 := Vector.replicate 24 {}
  tInrush : Nat := 20
  retryMs : Nat := 10
  retryMax : Nat := 3
  coolMs : Nat := 20
  holdS : Nat := 600
  /-- End of the HOLD_S that the latest refresh started; none with HOLD_S = 0 (R12, R255). -/
  holdDue : Option Nat := some 600000000000
  failed : Bool := false
  overSince : Option Nat := none
  lastShed : Option Nat := none
  adopted : Bool := false
  v24 : Nat := 0
  /-- VIN24 is absent: VIN12 alone leaves every AUX, SO and TP output off (R494). -/
  gone : Bool := false
  deriving DecidableEq, Repr

/-! ## Metrology (09) -/

/-- A calibration set in force (R268). -/
structure CalSet where
  wiring : Nat
  fNom : Nat
  calId : Nat
  uNom : Nat
  sNl : Nat
  intervalS : Nat
  vLive : Nat
  neutralPct : Nat
  iNl : List Nat
  offsets : List Int
  gains : List Nat
  delays : List Int
  map : List MeterRec
  mapBytes : Bytes
  deriving DecidableEq, Repr

/-- The tallies as they stand after the sample of a represented time (R282, R283), with the overranged samples counted so
far for each kind of receipt (R273). -/
structure TallySnap where
  at_ : Nat
  tally : Vector Nat 32
  residue : Vector Nat 32
  faults : Vector Nat 13
  deriving DecidableEq, Repr

/-- Computed values of one sample (R275, R278), for the tick means. -/
structure Computed where
  rep : Nat
  p : Int
  q : Int
  s : Nat
  bayV : List Int
  bayI : List Int
  bayP : List Int
  overs : List Bool
  snap : TallySnap
  deriving DecidableEq, Repr

/-- What the partition keeps of each kind of receipt (R288 to R294): index 0 is AC, 1 + b bay b. -/
structure RcptKind where
  /-- T_END of the previous receipt of this boot. -/
  tStart : Option Nat := none
  /-- T_END of the previous receipt of any boot, for the day of cause 3 (R288). -/
  lastEnd : Option Nat := none
  /-- Overranged samples counted up to it. -/
  faultBase : Nat := 0
  gap : Bool := false
  /-- A receipt of the kind was withheld (R292, MET.STAT.GAP_PEND). -/
  withheld : Bool := false
  restart : Bool := true
  /-- AC flags seen in the interval, as FLAGS bits 5 to 7. -/
  flags : Nat := 0
  tallyImp : Nat := 0
  tallyExp : Nat := 0
  deriving DecidableEq, Repr

/-- A checkpoint (R293) with its CRC; none where nothing was ever written. -/
structure Checkpoint where
  number : Nat := 0
  tally : Vector Nat 32 := Vector.replicate 32 0
  residue : Vector Nat 32 := Vector.replicate 32 0
  prevHash : Bytes := List.replicate 8 0
  kinds : Vector RcptKind 13 := Vector.replicate 13 {}
  crc : Option Nat := none
  deriving DecidableEq, Repr

/-- The flags of a kind of receipt as a checkpoint holds them. -/
def RcptKind.word (k : RcptKind) : Nat := (if k.gap then 1 else 0) + (if k.restart then 2 else 0) + (if k.withheld then 4 else 0) + k.flags % 65536 * 256

/-- The bytes a checkpoint's CRC covers: its number, tallies, residues, the last PREV hash and its flags (R293). -/
def Checkpoint.bytes (c : Checkpoint) : Bytes :=
  leBytes 8 c.number ++ c.tally.toList.flatMap (leBytes 8) ++ c.residue.toList.flatMap (leBytes 4) ++ c.prevHash ++ c.kinds.toList.flatMap fun k => leBytes 4 k.word

/-- The CRC of a checkpoint's contents. DESIGN CHOICE (log 131): the manual states neither its polynomial nor its layout; CRC-32C over the items
of R293 in their order. -/
def Checkpoint.crcNow (c : Checkpoint) : Nat := crc32c c.bytes

/-- A checkpoint with its CRC. -/
def Checkpoint.sealed (c : Checkpoint) : Checkpoint := { c with crc := some c.crcNow }

/-- Is the CRC of a checkpoint valid (R294)? -/
def Checkpoint.valid (c : Checkpoint) : Bool := c.crc == some c.crcNow

/-- One AC condition of R276 with its run of blocks. -/
structure AcFlag where
  set : Bool := false
  run : Nat := 0
  deriving DecidableEq, Repr

/-- A tick commit of the partition (R284). -/
structure MetCommit where
  stamp : Nat
  pImp : Int
  qImp : Int
  s : Nat
  pBay : Int
  bayV : List Int
  bayI : List Int
  bayP : List Int
  overs : List Bool
  deriving DecidableEq, Repr

/-- A stored or queued receipt (R289). -/
structure Receipt where
  seq : Nat
  bytes : Bytes
  deriving DecidableEq, Repr

/-- The metrology partition and its mailbox (R259 to R295). -/
structure Metrology where
  sealSt : Seal := .blank
  sealCount : Nat := 0
  calErr : Nat := 0
  keyGen : Nat := 0
  /-- Private half of the receipt key in slot 6, as the share K xor m (R435); none while the slot is empty. -/
  key : Option Bytes := none
  bootCount : Nat := 0
  fwId : Bytes := List.replicate 8 0
  set : Option CalSet := none
  /-- An accepted set waiting to take effect (R267), with the tick start after which it does. -/
  nextSet : Option (CalSet × Nat) := none
  running : Bool := true
  tallying : Bool := true
  /-- Tallying resumes at this tick start after a warning that passed (R421). -/
  resumeAt : Option Nat := none
  tally : Vector Nat 32 := Vector.replicate 32 0
  residue : Vector Nat 32 := Vector.replicate 32 0
  published : Vector Nat 32 := Vector.replicate 32 0
  recent : List Computed := []
  faults : Vector Nat 13 := Vector.replicate 13 0
  /-- Represented time of the first sample of the boot and of the latest one. -/
  bootRep : Option Nat := none
  lastRep : Option Nat := none
  /-- The tallies at the interval boundaries whose receipts are due, oldest first (R288). -/
  boundary : List TallySnap := []
  /-- The newest codes of the channels, newest first, one every 125 µs, for the delays of R271. -/
  raw : List MetSample := []
  /-- The time that the sample computed with the newest of them represents. -/
  rawRep : Option Nat := none
  commit : Option MetCommit := none
  /-- The commit taken over at the latest tick start (R22). -/
  taken : Option MetCommit := none
  valid : Bool := false
  live : Vector Bool 12 := Vector.replicate 12 false
  deadTicks : Vector Nat 12 := Vector.replicate 12 0
  /-- The tallies at the dead time of a bay whose receipt is due (R279, R288). -/
  deadSnap : Vector (Option TallySnap) 12 := Vector.replicate 12 none
  overrange : Bool := false
  bayOver : Nat := 0
  /-- Samples since the latest block, newest first: the time each represents, its codes, and the codes with the delays applied (R274). -/
  block : List (Nat × List Int × List Int) := []
  /-- End of the latest block evaluated (R274). -/
  blockAt : Nat := 0
  reversed : AcFlag := {}
  phaseLoss : AcFlag := {}
  missingNeutral : AcFlag := {}
  calMean : List Int := List.replicate 32 0
  calRms : List Nat := List.replicate 32 0
  calPhase : List Int := List.replicate 3 0
  acF : Nat := 0
  uRms : List Nat := List.replicate 4 0
  iRms : List Nat := List.replicate 4 0
  seq : Nat := 0
  prevHash : Bytes := List.replicate 8 0
  kinds : Vector RcptKind 13 := Vector.replicate 13 {}
  ckptLost : Bool := false
  queue : List Receipt := []
  store : List Receipt := []
  head : Nat := 0
  rcptSel : Nat := 0
  ckptA : Checkpoint := Checkpoint.sealed {}
  ckptB : Checkpoint := {}
  wrapEpoch : Nat := 0
  wrapMask : Nat := 0
  /-- The partition's own memory as its core addresses it: the 512 KiB SRAM and the private 1 MiB of MRAM (R259). -/
  core : Mem := []
  deriving DecidableEq, Repr

/-! ## Safety controller (10) -/

/-- One channel of an SI pair: the run of agreeing samples and the filtered level with its stamp (R297). -/
structure SiChan where
  cand : Bool := false
  count : Nat := 0
  first : Nat := 0
  level : Bool := false
  stamp : Nat := 0
  /-- Pulses passed since the pair entered FAULT_TEST or WAIT_RESET (R302). -/
  passed : Nat := 0
  /-- Read 1 when the present pulse began, so that the pulse carries a test result (R300). -/
  armed : Bool := false
  deriving DecidableEq, Repr

/-- One SI pair (R302, R306, R329). -/
structure SiPair where
  a : SiChan := {}
  b : SiChan := {}
  st : SiSt := .idle
  deadline : Nat := 0
  /-- In PARTIAL the channel that demands is A; in RETURNING the channel that returned is A. -/
  firstA : Bool := false
  /-- TYPE 2: when the channels began to disagree; the report MISMATCH; the latest report OPEN (8) or CLOSED (9), 0 before the
  first (R306). -/
  apart : Option Nat := none
  mismatch : Bool := false
  report : Nat := 0
  demands : Nat := 0
  blips : Nat := 0
  faults : Nat := 0
  proof : Nat := 0
  proofDue : Bool := false
  deriving DecidableEq, Repr

/-- One SO pair (R307 to R310). -/
structure SoPair where
  st : SoSt := .off
  cause : Nat := 0
  count : Nat := 0
  hs : Bool := false
  ls : Bool := false
  /-- Off until a switch test passes after SO_CLEAR (R310). -/
  needTest : Bool := false
  /-- Latest findings of the switch tests and the current (R309, R310). -/
  hsBad : Bool := false
  lsBad : Bool := false
  current : Nat := 0
  /-- When the present command began, and whether its confirmation is still awaited (R306, R310). -/
  since : Nat := 0
  awaits : Bool := false
  /-- Market time of the first switch test of the present energising, from which the tests are counted; the switch under test (true: the
  low side) and the end of its 300 µs (R309). -/
  testAt : Option Nat := none
  testing : Option (Bool × Nat) := none
  deriving DecidableEq, Repr

/-- The staged copy of the safety registers (R324). -/
structure SafStage where
  ssRamp : Nat
  tolPct : Nat
  deriving DecidableEq, Repr

/-- The safety controller (R296 to R329). -/
structure SafetyBlock where
  sel : Nat := 0
  si : Vector SiPair 16 := Vector.replicate 16 {}
  so : Vector SoPair 16 := Vector.replicate 16 {}
  stops : Vector SafeStop 12 := Vector.replicate 12 {}
  /-- Start of the present test pulse of each source, and whether its TP output is low (R299). -/
  pulseAt : Vector (Option Nat) 4 := Vector.replicate 4 none
  ctrlFault : Bool := false
  selfTest : Bool := true
  escalated : Bool := false
  unlock : Unlock := {}
  noPw : Bool := true
  /-- The password key K (R322). -/
  pwKey : Bytes := List.replicate 32 0
  pwk : Bytes := List.replicate 32 0
  ssRamp : Nat := 50
  tolPct : Nat := 5
  staged : Option SafStage := none
  chgCount : Nat := 0
  digest : Bytes := List.replicate 32 0
  /-- The safety section of the stored configuration; none as manufactured (R321). -/
  stored : Option Bytes := none
  /-- The safety records the controller works with (those of the active image). -/
  records : List SafRec := []
  lastScan : Nat := 0
  /-- The safety controller has scanned since the reset: the pair states and levels show from its first scan on (R329). -/
  scanned : Bool := false
  /-- TP outputs that have limited their current since the end of their latest pulse (R504). -/
  tpLimited : Vector Bool 4 := Vector.replicate 4 false
  deriving DecidableEq, Repr

/-! ## Pair (11) -/

/-- What the partner's latest heartbeat said (R349). -/
structure Partner where
  heardAt : Option Nat := none
  role : Option Role := none
  absent : Bool := false
  side : Nat := 0
  activeI : Bool := false
  fit : Bool := false
  mode : Nat := 0
  epoch : Nat := 0
  health : Nat := 0
  uid : Bytes := []
  auxDuty : List Nat := List.replicate 24 0
  energised : Nat := 0
  /-- From KIND 0x03 frames (R455). -/
  actMode : Nat := 0
  runUid : Bytes := []
  stagedUid : Bytes := []
  mac : Option Nat := none
  deriving DecidableEq, Repr

/-- The Seljo link (R338 to R340). -/
structure Seljo where
  up : Bool := false
  err : Nat := 0
  offset : Int := 0
  lock : Bool := false
  goodRun : Nat := 0
  /-- PITCH inputs received for the shadow window: stall, usable, 24 bytes (R339, R341). -/
  pitch : Option (Nat × List (Nat × Bool × Bytes)) := none
  snap : Option TickSnap := none
  /-- Digest of the frames last built, with their boundary, and of the results last committed, with their tick (R339). -/
  pitchDigest : Option (Nat × Nat) := none
  tickDigest : Option (Nat × Nat) := none
  /-- PITCH messages kept for the replay of R347: boundary, and stall, usable, 24 bytes. -/
  replay : List (Nat × List (Nat × Bool × Bytes)) := []
  /-- The partner has announced that it hands over for a profile change (R355). -/
  partnerReleasing : Bool := false
  /-- The slot and the IMAGE_UID the partner has PENDING and loaded for a profile handover (R354, R355). -/
  partnerLoaded : Option (Nat × Bytes) := none
  agreePitch : Nat := 0
  agreeTick : Nat := 0
  /-- The latest pitch and the latest tick that agreed: the counts are of consecutive ones (R347). -/
  agreedPitch : Nat := 0
  agreedTick : Nat := 0
  diverge : List Nat := []
  /-- Messages sent, by TYPE 1 to 8: the SEQ of the next one; and the bytes of the latest one (R339). -/
  sent : Vector Nat 9 := Vector.replicate 9 0
  out : Vector Bytes 9 := Vector.replicate 9 []
  /-- SEQ of the latest message received of each TYPE, and the acknowledgement last sent, as TYPE and SEQ (R339, R343). -/
  got : Vector Nat 9 := Vector.replicate 9 0
  ack : Option (Nat × Nat) := none
  /-- Market times of the CRC failures of the last 1 ms (R338). -/
  crcStamps : List Nat := []
  /-- CAPTURE has been asked for by this module, or by its partner (R347). -/
  captureAsked : Bool := false
  capturePend : Bool := false
  captured : Bool := false
  stateTaken : Bool := false
  /-- Market time is to step forward once by the next exchange (R340). -/
  stepPend : Bool := false
  /-- Slew applied to market time, ppm (R340). -/
  slew : Int := 0
  deriving DecidableEq, Repr

/-- The PAIR block (R330 to R356). -/
structure Pair where
  mode : PairMode := .single
  hbCh : Nat := 0
  hbId : Nat := 0x7F0
  resyncS : Nat := 60
  holdoffS : Nat := 30
  role : Role := .init
  roleAt : Nat := 0
  /-- End of the HOLDOFF_S of the latest role change (R12, R337). -/
  holdoffDue : Nat := 0
  side : Nat := 1
  activeI : Bool := false
  /-- ACTIVE_I has read released since, and the end of the RESYNC_S counted from there (R12, R335, R482). -/
  releasedAt : Nat := 0
  releasedDue : Nat := 0
  activeO : Bool := false
  epoch : Nat := 0
  /-- A CONFLICT has raised EPOCH since ACTIVE was gained (R336). -/
  epochRaised : Bool := false
  unfitCode : Nat := 0
  degraded : Bool := false
  own : Nat := 0
  partner : Partner := {}
  seljo : Seljo := {}
  /-- Stamps of the releases marked fault (R337), newest first. -/
  faultStamps : List Nat := []
  hold11 : Bool := false
  /-- End of the RESYNC_S that began as every check passed (R12, R335). -/
  passDue : Option Nat := none
  disagree : Nat := 0
  interlockBad : Bool := false
  takeovers : Nat := 0
  handovers : Nat := 0
  releases : Nat := 0
  divergeCnt : Nat := 0
  lastCause : Nat := 0
  lastHo : Nat := 0
  tko : Nat := 0
  /-- The next compute deadline and the next tick commit that must refresh the hold circuit (R333); none before the first is known. -/
  holdPitch : Option Nat := none
  holdTick : Option Nat := none
  mac : Nat := 0
  macHeard : Bool := false
  /-- A planned handover was accepted and waits for a compute deadline (R350). -/
  handoverPend : Bool := false
  /-- Policy segments received (R349), by number. -/
  segments : Table Bytes := []
  /-- Market time of the latest role change of either module (R343). -/
  roleChange : Nat := 0
  /-- The module listens for its partner's heartbeats since (R349). -/
  listenFrom : Nat := 0
  deriving DecidableEq, Repr

/-! ## Site bus (12) -/

/-- A frame of the module in a transmit queue (R369). -/
structure TxFrame where
  /-- 0 heartbeat, 1 policy segment, 2 update heartbeat, 3 mailbox. -/
  kind : Nat
  box : Nat
  ext : Bool
  id : Nat
  fd : Bool
  brs : Bool
  dlc : Nat
  data : Bytes
  /-- Attempts made (R370). -/
  attempts : Nat := 0
  /-- Commit point of the latest attempt (R373, R374), and the channel's RETX before it. -/
  commitAt : Nat := 0
  retxAt : Nat := 0
  deriving DecidableEq, Repr

/-- A stored frame of a receive FIFO or slot (R376, R383). -/
structure RxEntry where
  frame : CanFrame
  winKind : Nat
  winIndex : Nat
  stamp : Nat
  deriving DecidableEq, Repr

/-- An acceptance filter (R376). -/
structure RxFilter where
  ext : Bool := false
  en : Bool := false
  filt : Nat := 0
  mask : Nat := 0
  deriving DecidableEq, Repr

/-- What is on the wire of a channel from this module. -/
inductive OnWire where
  | none
  | queued
  | tat (buf : Fin 4)
  | reference
  deriving DecidableEq, Repr

/-- One CAN channel (R357 to R383). -/
structure Channel where
  dsp : Nat := 70
  nsp : Nat := 80
  dataRate : Nat := 2
  nomRate : Nat := 2
  sync : Bool := false
  tec : Nat := 0
  rec_ : Nat := 0
  err : Nat := 0
  cycle : Nat := 0
  /-- Start of the basic cycle of the follower's grid (R367). -/
  gridStart : Nat := 0
  missRun : Nat := 0
  exclErr : Nat := 0
  retx : Nat := 0
  refMiss : Nat := 0
  busOff : Nat := 0
  wrongWin : Nat := 0
  rxDrop : Nat := 0
  queue : List TxFrame := []
  /-- Time charged in the present arbitrating occurrence, and its start and end (R369). -/
  charged : Nat := 0
  occStart : Nat := 0
  occEnd : Nat := 0
  /-- Arbitrating occurrences the head frame has stayed through (R486). -/
  headWait : Nat := 0
  wire : OnWire := .none
  fifo : List RxEntry := []
  filters : Vector RxFilter 8 := Vector.replicate 8 {}
  /-- SOF stamps of references (R366), and whether the next one carries DISC = 1 (R368). -/
  prevSof : Nat := 0
  disc : Bool := true
  refOut : Option CanFrame := none
  /-- The module has sent a reference since it gained ACTIVE, so that its own market time is the grid (R360, R368). -/
  lead : Bool := false
  /-- References still to announce sleep (R379). -/
  announce : Nat := 0
  deriving DecidableEq, Repr

/-- A mailbox (R383). -/
structure Mailbox where
  ext : Bool := false
  id : Nat := 0
  channel : Nat := 0
  fd : Bool := false
  brs : Bool := false
  dlc : Nat := 0
  data : Mem := []
  result : TxResult := .empty
  attempts : Nat := 0
  cancelHeld : Bool := false
  deriving DecidableEq, Repr

/-- A transmit-at-time buffer (R372 to R375, R383). -/
structure TatBuf where
  ext : Bool := false
  id : Nat := 0
  en : Bool := false
  channel : Nat := 0
  periodic : Bool := false
  roleGate : Bool := true
  offsetUs : Nat := 0
  window : Nat := 0
  time : Nat := 0
  fd : Bool := false
  brs : Bool := false
  dlc : Nat := 0
  shadow : Mem := []
  data : Mem := []
  loadPend : Bool := false
  result : TxResult := .empty
  attempts : Nat := 0
  /-- SOF of a one-shot; for a periodic buffer, the time from which its next occurrence is sought (R372); none when stopped. -/
  next : Option Nat := none
  /-- Commit point of the latest attempt (R373, R374). -/
  commitAt : Nat := 0
  cancelHeld : Bool := false
  deriving DecidableEq, Repr

/-- A receive slot (R377). -/
structure RxSlot where
  en : Bool := false
  channel : Nat := 0
  window : Nat := 0
  entry : Option RxEntry := none
  miss : Nat := 0
  deriving DecidableEq, Repr

/-- States of the bus (SBUS.STAT.BUS). -/
inductive BusSt where
  | awake | announcing | asleep
  deriving DecidableEq, Repr

/-- The SBUS block (R383). -/
structure SiteBus where
  ch : Vector Channel 2 := Vector.replicate 2 {}
  sleep : Bool := false
  wakeSrc : Nat := 0
  bus : BusSt := .awake
  /-- Since when the bus is in this state. -/
  busSince : Nat := 0
  wakeDlc : Nat := 0
  wakeMode : Nat := 3
  wakeFilt : Nat := 5
  staleN : Nat := 3
  wakeExt : Bool := false
  wakeCh : Nat := 0
  wakeId : Nat := 0
  wakeIdm : Nat := 0
  wakeDm : Vector Nat 2 := Vector.replicate 2 0
  wakeErr : Nat := 0
  /-- Stamp of the latest wake, from which the first reference is counted (R380). -/
  wokeAt : Option Nat := none
  boxes : Vector Mailbox 8 := Vector.replicate 8 {}
  tats : Vector TatBuf 4 := Vector.replicate 4 {}
  slots : Vector RxSlot 32 := Vector.replicate 32 {}
  deriving DecidableEq, Repr

/-! ## Clocks, power, calendar (14, 18) -/

/-- A saved pair (M, RAW) of R413. -/
structure MtCopy where
  m : Nat
  raw : Nat
  /-- Its CRC as stored. DESIGN CHOICE (log 131): CRC-32C over M in 8 bytes and RAW in 6. -/
  crc : Nat := crc32c (leBytes 8 m ++ leBytes 6 raw)
  deriving DecidableEq, Repr

/-- Is a copy's CRC right (R413)? -/
def MtCopy.valid (c : MtCopy) : Bool := c.crc == crc32c (leBytes 8 c.m ++ leBytes 6 c.raw)

/-- The CLK block (R408 to R414, R433). -/
structure Clk where
  lock : Vector Bool 6 := Vector.replicate 6 true
  refOk : Bool := true
  x32Ok : Bool := true
  mtSrc : Nat := 0
  mtGap : Bool := false
  refLoss : Nat := 0
  unlock : Nat := 0
  x32Loss : Nat := 0
  /-- RAW as it stood at market time `rawFrom`. -/
  raw : Nat := 0
  rawFrom : Nat := 0
  /-- The two alternating MRAM copies; the head is the newer one (R413). -/
  copies : List MtCopy := []
  /-- The VBAT domain has lost its supply since the last start (R414), and has none now (R514). -/
  vbatLost : Bool := false
  vbatOff : Bool := false
  deriving DecidableEq, Repr

/-- The PWR block (R415 to R421, R431 to R433, R512). -/
structure Pwr where
  st : PowerSt := .ready
  entering : Bool := false
  enteredAt : Nat := 0
  /-- The outputs of step 3 of R418 have been released, at. -/
  released : Option Nat := none
  /-- Held in reset: by RST_N or by a cause-3 reset that waits for the reference. -/
  inReset : Bool := false
  pfw : Bool := false
  vin24Low : Bool := false
  vbatLow : Bool := false
  wakeSrc : Nat := 0
  dormErr : Nat := 0
  rstCount : Nat := 0
  rstCause : Nat := 0
  wakeEn : Nat := 0x16
  vin12 : Nat := 0
  vbat : Nat := 0
  /-- Time spent in DORMANT, ns. -/
  dormNs : Nat := 0
  dormantAt : Nat := 0
  /-- Slot active at entry to DORMANT (R430). -/
  dormSlot : Option (Fin 4) := none
  /-- The clocks as they stood at the commit point of R418, which a wake stamped at or before it finds again (R420). -/
  dormLock : Vector Bool 6 := Vector.replicate 6 true
  dormSrc : Nat := 0
  peak : Nat := 0
  hot : Bool := false
  temp : Int := 0
  hotSince : Option Nat := none
  /-- VIN12 outside 10.8 to 13.2 V for 10 ms (R421). -/
  supplyBad : Bool := false
  deriving DecidableEq, Repr

/-- A master heard by Announce messages: the latest one, and the market times of the latest two (R424). -/
structure PtpMaster where
  ann : Announce
  at_ : Nat
  before : Option Nat
  deriving DecidableEq, Repr

/-- The RTC block (R422 to R428, R433). The calendar reads `base` units of 1/32 768 s and `baseFrac` of 10^-15 of a unit at market time `baseAt`. -/
structure Rtc where
  base : Nat := 0
  baseFrac : Nat := 0
  baseAt : Nat := 0
  /-- Rate correction in ppm (R425). -/
  ppm : Int := 0
  /-- The correction held over DORMANT, where the calendar advances on X32 (R422). -/
  heldPpm : Int := 0
  valid : Bool := false
  src : Nat := 0
  steps : Nat := 0
  tamper : Bool := false
  tamperS : Nat := 0
  utcUnknown : Bool := false
  leapPend : Bool := false
  /-- The announced second is positive. -/
  leapAdd : Bool := false
  /-- Start of the absorption of a leap second, and whether it is positive (R426). -/
  leap : Option (Nat × Bool) := none
  ptpLock : Bool := false
  lockRun : Nat := 0
  lastSync : Option Nat := none
  ptpOfs : Int := 0
  ptpGm : Nat := 0
  ptpEn : Bool := true
  domain : Nat := 0
  utcOfs : Int := 0
  utcKnown : Bool := false
  /-- Origin and reception stamps of the present exchange (R425). -/
  syncSeq : Nat := 0
  syncOrigin : Option Nat := none
  syncRx : Nat := 0
  /-- Sequence number of the latest Delay_Req, and whether its Delay_Resp is awaited. -/
  reqSeq : Nat := 0
  reqOpen : Bool := false
  /-- The masters heard, and the source port of the one selected (R424). -/
  masters : List PtpMaster := []
  master : Option Nat := none
  setS : Nat := 0
  setF : Nat := 0
  alarm : Nat := 0
  deriving DecidableEq, Repr

/-! ## Keys and update (15) -/

/-- A key held by the vault (R434, R436). -/
structure Key where
  id : Nat
  type : Nat
  usage : Nat
  masters : Nat
  world : Nat
  lc : Nat
  boot : Bool
  /-- In a slot of the vault: the share K xor m, where m is the mask of the slot in the present round (R435). -/
  material : Bytes
  /-- Market time of the latest use, for the eviction of R442. -/
  used : Nat
  deriving DecidableEq, Repr

/-- A wrapped blob of the store (R441): its key identity, BOOT, and its 256 bytes. -/
structure Blob where
  id : Nat
  boot : Bool
  bytes : Bytes
  deriving DecidableEq, Repr

/-- An operation of KEY.CTRL.OP that runs after its access was answered (R442, R478), with its operands as they stood. -/
structure KeyOp where
  op : Nat
  slot : Nat
  id : Nat
  type : Nat
  boot : Bool
  lc : Nat
  world : Nat
  masters : Nat
  usage : Nat
  blob : Bytes
  deriving DecidableEq, Repr

/-- The key vault (R434 to R443, R459). -/
structure Vault where
  /-- Fixed slots 0 to 15 and loadable slots 16 to 63. -/
  slots : Vector (Option Key) 64 := Vector.replicate 64 none
  store : List Blob := []
  salt : Bytes := List.replicate 32 0
  zeroised : Bool := false
  debug : Bool := false
  /-- The operation that is running; KEY.STAT.BUSY is 1 while there is one. -/
  op : Option KeyOp := none
  err : Nat := 0
  ctrlSlot : Nat := 0
  id : Nat := 0
  attrType : Nat := 0
  attrBoot : Bool := false
  attrLc : Nat := 0
  attrWorld : Nat := 0
  attrMasters : Nat := 0
  usage : Nat := 0
  lc : LifeCycle := .provision
  maskCnt : Nat := 0
  /-- Re-masking rounds since manufacture, and the market time of the latest one (R435). -/
  rounds : Nat := 0
  remaskAt : Nat := 0
  /-- A round waits for the operation in progress to end (R435). -/
  remaskPend : Bool := false
  blobWin : Mem := []
  attestWin : Mem := []
  deriving DecidableEq, Repr

/-- States of a staging area (UPD.STAT). -/
inductive AreaSt where
  | empty | receiving | staged | armed | activating
  deriving DecidableEq, Repr

/-- A staging area: its chunks by index (R447, R449). -/
structure Area where
  st : AreaSt := .empty
  chunks : Table Bytes := []
  total : Nat := 0
  uid : Bytes := List.replicate 16 0
  deriving DecidableEq, Repr

/-- An application or metrology firmware image in one of its two slots (R452). -/
structure FwImage where
  present : Bool := false
  uid : Bytes := List.replicate 16 0
  version : Nat := 0
  flags : Nat := 0
  /-- The image a module leaves manufacture with, whose bytes the manual does not give (DESIGN CHOICE, log 139: it verifies). -/
  factory : Bool := false
  /-- Header, payload in plaintext and signature block as the slot holds them (R452). -/
  header : Bytes := []
  image : Bytes := []
  sig : Bytes := []
  /-- Bytes 0 to 7 of the SHA-256 of the image, the FW_ID of metrology firmware (R289). -/
  fwId : Bytes := List.replicate 8 0
  deriving DecidableEq, Repr

/-- The UPD block (R444 to R459). -/
structure Update where
  mode : Nat := 0
  err : Nat := 0
  last : Nat := 0
  large : Area := {}
  small : Area := {}
  chunkArea : Nat := 0
  chunkIndex : Nat := 0
  chunkCrc : Nat := 0
  chunkWin : Mem := []
  /-- End of the WAIT_S of a handover activation, fixed as it is armed (R12, R455). -/
  waitDue : Nat := 0
  schedS : Nat := 0
  waitS : Nat := 1800
  leadS : Nat := 600
  /-- New sessions are held from SCHED_S − LEAD_S (R454). -/
  hold : Bool := false
  slotA : FwImage := { present := true, factory := true }
  slotB : FwImage := {}
  bootB : Bool := false
  /-- READY of an image on trial (R453); it would revert to the other slot. -/
  trial : Option Nat := none
  metA : FwImage := { present := true, factory := true }
  metB : FwImage := {}
  metOnB : Bool := false
  metTrial : Option Nat := none
  floorApp : Nat := 0
  floorMet : Nat := 0
  floorH : Nat := 72
  /-- What the running images have still to run of the FLOOR_H they were started with, ns, counted while the module runs from `runFrom`
  and `metFrom` on (R12, R452). -/
  runLeft : Nat := 259200000000000
  runFrom : Nat := 0
  metLeft : Nat := 259200000000000
  metFrom : Nat := 0
  deriving DecidableEq, Repr

/-! ## Ledger (16) -/

/-- A record on its way to a partition (R462, R466). -/
structure LdgRec where
  code : Nat
  time : Nat
  index : Nat
  a : Nat
  b : Nat
  follow : Bytes
  /-- The snapshot set chosen by a trigger (R469), and its words once captured (R468). -/
  snapSet : Option (Fin 4)
  snap : Option (Nat × List Nat)
  deriving DecidableEq, Repr

/-- One ledger partition (R460 to R474). -/
structure Partition where
  mem : Mem := []
  fill : Nat := 0
  seq : Nat := 0
  full : Bool := false
  gen : Nat := 0
  fullDrop : Nat := 0
  qDrop : Nat := 0
  /-- A record was dropped since the last one written (DROPPED_BEFORE). -/
  dropped : Bool := false
  snapshotMode : Bool := false
  queue : List LdgRec := []
  deriving DecidableEq, Repr

/-- A trigger (R469). -/
structure Trigger where
  en : Bool := false
  capture : Bool := false
  snap : Bool := false
  set : Fin 4 := 0
  code : Nat := 0
  deriving DecidableEq, Repr

/-- A snapshot set (R467). -/
structure SnapSet where
  lane : Fin 8 := 0
  count : Nat := 0
  addrs : Vector Nat 54 := Vector.replicate 54 0
  deriving DecidableEq, Repr

/-- The LDG block (R475). -/
structure LedgerBlock where
  parts : Vector Partition 3 := Vector.replicate 3 {}
  clrUpto : Nat := 0
  markA : Nat := 0
  markB : Nat := 0
  triggers : Vector Trigger 8 := Vector.replicate 8 {}
  sets : Vector SnapSet 4 := Vector.replicate 4 {}
  deriving DecidableEq, Repr

/-! ## MRAM reservations (R206) -/

/-- Bytes of MRAM writes left in the present tick, by client, with the unreserved share. -/
structure Mram where
  ledgerSys : Nat := 8192
  ledgerSaf : Nat := 8192
  metro : Nat := 8192
  policy : Nat := 4096
  /-- Bytes of configuration writes that wait for the next tick. -/
  policyDue : Nat := 0
  staging : Nat := 8192
  slots : Nat := 8192
  spare : Nat := 4096
  deriving DecidableEq, Repr

/-! ## Identity and the whole state -/

/-- What is fused at manufacture (R1, R2, R211, R289). -/
structure Fuses where
  mb : Bool := Config.fusedMb
  step : Nat := 0x10
  deviceId : Nat := Config.fusedDeviceId
  mac : Nat := Config.fusedMac
  deriving DecidableEq, Repr

/-- The module. -/
structure State where
  /-- Commands waiting, first in, first out. -/
  pending : List Instr := []
  /-- Market time, ns (R10). -/
  mt : Nat := 0
  /-- Free values drawn so far: the model's own counter (Config.freeByte, Config.freeNat). -/
  draws : Nat := 0
  fuses : Fuses := {}
  prof : Profile := {}
  lock : Unlock := {}
  host : HostBlock := {}
  assume : Assume := {}
  clk : Clk := {}
  pwr : Pwr := {}
  rtc : Rtc := {}
  lat : Lattice := {}
  stl : StlCommon := {}
  stalls : Vector Stall 64 := Vector.replicate 64 {}
  bays : Vector Bay 12 := Vector.replicate 12 {}
  mkt : Market := {}
  thm : Thermal := {}
  aux : Aux := {}
  met : Metrology := {}
  saf : SafetyBlock := {}
  pair : Pair := {}
  sbus : SiteBus := {}
  vault : Vault := {}
  upd : Update := {}
  ldg : LedgerBlock := {}
  mram : Mram := {}
  deriving DecidableEq, Repr

/-- No command of this module ends in a fault: its refusals are statuses of the access (R516), its faults are states of
its own state machines. The type has no value. -/
inductive Fault where
  deriving DecidableEq, Repr

/-- Why a command has no meaning in the model. -/
inductive Refusal where
  /-- Raised by an arm of the dispatch whose command has no meaning yet. Safe: it stops. -/
  | notModelled (mnemonic : String)
  deriving DecidableEq, Repr

/-- The module right after power-on reset as it left manufacture: READY, no profile active, empty slots, no command waiting. -/
def State.reset : State := {}

end Sys2Proof.Machine
end

