-- ==== Sys2Proof/Machine/Ops.lean ====
section
/-! DEFINITION. The operations every chapter shares: market time, sparse memory and tables, change counters, ledger
queueing, the capture trigger, violations, requests for stall stops, and the readings of State several chapters use. -/
namespace Sys2Proof.Machine

/-! ## Market time (R10 to R14) -/

/-- An event stamped `t` reaches the module: market time never steps backwards (R10). -/
def State.arrive (s : State) (t : Nat) : State := { s with mt := max s.mt t }

/-- The same where market time may have no counting source: it then stands still (R412, R414). -/
def State.elapse (s : State) (t : Nat) : State := if s.clk.mtSrc = 3 then s else s.arrive t

/-- The module runs: READY or RUN, and not held in reset (R415). -/
def State.live (s : State) : Bool := (s.pwr.st == .ready || s.pwr.st == .run) && !s.pwr.inReset

/-- The effect `f` of a command stamped `t`: a module without power or held in reset sees only time pass. -/
def whenLive (t : Nat) (f : State → State) (s : State) : State :=
  if s.live then f (s.arrive t) else s.elapse t

/-- The effect `f` of a command stamped `t` on what the module also does in DORMANT, while market time counts: the safety scans (R296, R318), the
sampling of CE and the wake logic (R415, R420). -/
def whenScanning (t : Nat) (f : State → State) (s : State) : State :=
  if s.live || (s.pwr.st == .dormant && s.clk.mtSrc != 3) then f (s.arrive t) else s.elapse t

/-- Has a timeout with this deadline expired at `t`? An event at the deadline is in time (R13). -/
def expired (t deadline : Nat) : Bool := decide (deadline < t)

/-- Milliseconds in nanoseconds. -/
def ms (n : Nat) : Nat := n * 1000000

/-- Seconds in nanoseconds. -/
def secs (n : Nat) : Nat := n * 1000000000

/-! ## Sparse memory and tables -/

/-- The byte at an address; an unlisted address reads 0 (R30, R465). -/
def memRead : Mem → Nat → Byte
  | [], _ => 0
  | (a, b) :: m, x => if a = x then b else if x < a then 0 else memRead m x

/-- The memory after one byte is stored, in canonical form. -/
def memWrite : Mem → Nat → Byte → Mem
  | [], x, v => if v = 0 then [] else [(x, v)]
  | (a, b) :: m, x, v =>
    if x < a then (if v = 0 then (a, b) :: m else (x, v) :: (a, b) :: m)
    else if a = x then (if v = 0 then m else (x, v) :: m)
    else (a, b) :: memWrite m x v

/-- The memory after a byte string is stored from an address up. -/
def memWrites (m : Mem) (x : Nat) : Bytes → Mem
  | [] => m
  | b :: bs => memWrites (memWrite m x b) (x + 1) bs

/-- The word at an address, byte 0 in bits [7:0] (R387). -/
def memWord (m : Mem) (x : Nat) : Nat :=
  leNat [memRead m x, memRead m (x + 1), memRead m (x + 2), memRead m (x + 3)]

/-- The `n` bytes from an address up. -/
def memRange (m : Mem) (x : Nat) : Nat → Bytes
  | 0 => []
  | n + 1 =>
    match m.dropWhile fun c => decide (c.1 < x) with
    | [] => List.replicate (n + 1) 0
    | (a, b) :: rest =>
      if a = x then b :: memRange rest (x + 1) n else 0 :: memRange ((a, b) :: rest) (x + 1) n

/-- The canonical memory of a byte string from an address up. -/
def memOf (x : Nat) : Bytes → Mem
  | [] => []
  | b :: bs => if b = 0 then memOf (x + 1) bs else (x, b) :: memOf (x + 1) bs

/-- The canonical form from a lower bound up: addresses rise strictly and no listed byte is 0. -/
def memWfFrom : Nat → Mem → Bool
  | _, [] => true
  | lo, (a, b) :: m => decide (lo ≤ a) && b != 0 && memWfFrom (a + 1) m

/-- The canonical form of a memory. -/
def Memory.wf (m : Mem) : Bool := memWfFrom 0 m

/-- The entry of a table. -/
def tableGet {α : Type} (t : Table α) (k : Nat) : Option α :=
  match t with
  | [] => none
  | (a, v) :: r => if a = k then some v else tableGet r k

/-- The table with one entry set. -/
def tableSet {α : Type} (t : Table α) (k : Nat) (v : α) : Table α :=
  match t with
  | [] => [(k, v)]
  | (a, w) :: r =>
    if k < a then (k, v) :: (a, w) :: r else if a = k then (k, v) :: r else (a, w) :: tableSet r k v

/-! ## Field access of State -/

/-- The state with stall `n` changed. -/
def State.setStall (s : State) (n : Fin 64) (f : Stall → Stall) : State := { s with stalls := vupd s.stalls n f }

/-- The state with bay `b` changed. -/
def State.setBay (s : State) (b : Fin 12) (f : Bay → Bay) : State := { s with bays := vupd s.bays b f }

/-- `f` applied for every index below `n`, rising. -/
def State.forAll (n : Nat) (f : Fin n → State → State) (s : State) : State := (fins n).foldl (fun s i => f i s) s

/-- `f` applied where the condition holds. -/
def State.when (s : State) (c : Bool) (f : State → State) : State := if c then f s else s

/-- A new free octet (R218, R322, R405): the counter of draws advances. -/
def State.drawByte (s : State) : Byte × State := (Config.freeByte s.draws, { s with draws := s.draws + 1 })

/-- `n` new free octets. -/
def State.drawBytes (s : State) : Nat → Bytes × State
  | 0 => ([], s)
  | n + 1 =>
    let r := s.drawByte
    let q := r.2.drawBytes n
    (r.1 :: q.1, q.2)

/-- A new free number. -/
def State.drawNat (s : State) : Nat × State := (Config.freeNat s.draws, { s with draws := s.draws + 1 })

/-- The integer the module takes for `num / den` where the manual states no rounding: the floor or the ceiling, by a
free choice of the place. -/
def someRound (place : Nat) (num : Int) (den : Nat) : Int :=
  if num % (den : Int) = 0 then num / (den : Int)
  else if Config.roundsUp place num den then num / (den : Int) + 1 else num / (den : Int)

/-! ## Change counters (R402) -/

/-- Counter SUMk rises by 1, wrapping. -/
def State.bump (s : State) (k : Fin 16) : State := { s with host := { s.host with sum := vupd s.host.sum k (wrapInc 32) } }

/-- Counter SUMk rises when a status field of its block has changed. -/
def State.bumpIf (s : State) (c : Bool) (k : Fin 16) : State := if c then s.bump k else s

/-! ## The ledger queues (R206, R466, R469, R471) -/

/-- The partition a code is recorded in (R460). -/
def partOfCode (code : Nat) : Fin 3 := if code / 256 = 8 then 1 else if code / 256 = 7 then 2 else 0

/-- The change counter of a code's source block (R466). -/
def sumOfCode (code : Nat) : Fin 16 := finMod 16 (code / 256)

/-- The snapshot set a record takes: that of the lowest matching trigger with SNAP, in SNAPSHOT mode (R469). -/
def snapFor (s : State) (p : Fin 3) (code : Nat) : Option (Fin 4) :=
  if s.ldg.parts[p].snapshotMode then
    (s.ldg.triggers.toList.find? fun g => g.en && g.snap && g.code == code).map (·.set)
  else none

/-- Does a trigger freeze the capture buffer on this code (R469)? -/
def captureFor (s : State) (code : Nat) : Bool := s.ldg.triggers.toList.any fun g => g.en && g.capture && g.code == code

/-- Has a partition's queue room for a record (R206, R471)? Metrology records wait in theirs without a limit. -/
def queueRoom (s : State) (p : Fin 3) : Bool := p.val == 2 || decide (s.ldg.parts[p].queue.length < 64)

/-- A record joins its partition's queue, or is dropped where the queue of 64 is full (R471). -/
def State.enqueue (s : State) (p : Fin 3) (r : LdgRec) : State :=
  { s with ldg := { s.ldg with parts := vupd s.ldg.parts p fun P =>
      if !(queueRoom s p) then { P with qDrop := satInc 16 P.qDrop, dropped := true }
      else { P with queue := P.queue ++ [r] } } }

/-- A record is queued in partition `p` with its stamp; the counter of its source block rises (R466). -/
def State.queueRec (s : State) (p : Fin 3) (code time index a b : Nat) (follow : Bytes) : State :=
  (s.enqueue p { code, time, index, a := a % 2 ^ 32, b := b % 2 ^ 32, follow, snapSet := snapFor s p code, snap := none }).bump (sumOfCode code)

/-- The capture buffer freezes, with its record and its status (R109); a further trigger is ignored until ARM. -/
def State.capFreeze (s : State) (src stall : Nat) : State :=
  if s.stl.frozen then s
  else
    let s := { s with stl := { s.stl with frozen := true, armed := false, trigSrc := src, trigStall := stall } }
    s.queueRec 0 0x0F01 s.mt stall src 0 []

/-- A record of the event code at its stamp, with the triggers of R469. DESIGN CHOICE (log 108): TRIG_STALL is 0xFF for every
ledger trigger. -/
def State.logAt (s : State) (time code index a b : Nat) (follow : Bytes := []) : State :=
  let s1 := s.queueRec (partOfCode code) code time index a b follow
  if captureFor s code && queueRoom s (partOfCode code) then s1.capFreeze 5 0xFF else s1

/-- A record stamped with the present market time. -/
def State.log (s : State) (code index a b : Nat) (follow : Bytes := []) : State := s.logAt s.mt code index a b follow

/-! ## Answers and violations (R386, R404) -/

/-- Code of a master (R386). -/
def masterCode : Master → Nat
  | .udp => 0 | .spi => 1 | .marketSup => 2 | .quarterSup => 3 | .safetyCtl => 4 | .metroCore => 5 | .debugPort => 6

/-- World of a master (R386). -/
def worldOf : Master → World
  | .safetyCtl => .safety
  | .metroCore => .metrology
  | _ => .application

/-- Code of a world (R407). -/
def worldCode : World → Nat
  | .application => 0 | .safety => 1 | .metrology => 2 | .secure => 3

/-- Value of a status (R516). -/
def statusCode : Status → Nat
  | .ok => 0 | .unmapped => 1 | .denied => 2 | .locked => 3 | .sealed => 4 | .busy => 5 | .stale => 6 | .badCrc => 7 | .badLen => 8

/-- Value of a detail (R392). -/
def detailCode : Detail → Nat
  | .none => 0 | .access => 1 | .range => 2 | .role => 3 | .state => 4 | .rate => 5 | .format => 6 | .mram => 7

/-- Done as requested. -/
def okAnswer : Answer := ⟨.ok, .none⟩

/-- Refused with a detail. -/
def deny (d : Detail) : Answer := ⟨.denied, d⟩

/-- The world of an address by R384: 0 outside its ranges. -/
def addrWorld (a : Nat) : World :=
  if 0x04000000 ≤ a ∧ a < 0x05000000 then .metrology else if 0x05000000 ≤ a ∧ a < 0x06000000 then .secure else .application

/-- Is this answer a violation (R404)? -/
def isViolation (a : Answer) : Bool :=
  match a.status with
  | .unmapped | .locked | .sealed => true
  | .denied => a.detail == .access
  | _ => false

/-- A violation is counted, and recorded where no record is held (R404). -/
def State.violates (s : State) (m : Master) (write : Bool) (addr : Nat) (a : Answer) : State :=
  let s := { s with host := { s.host with violCnt := satInc 32 s.host.violCnt } }
  if s.host.viol.valid then s
  else
    let v : Viol :=
      { valid := true, master := masterCode m, world := worldCode (addrWorld addr), write := write,
        status := statusCode a.status, detail := detailCode a.detail, addr := addr, time := s.mt }
    let s := { s with host := { s.host with viol := v } }
    s.log 0x0B01 (masterCode m) addr (2 ^ 31 + v.master * 2 ^ 28 + v.world * 2 ^ 26 + b2n write * 2 ^ 25 + v.status * 2 ^ 16 + v.detail * 2 ^ 8)

/-- The answer is given; a violation is counted (R404). -/
def State.answered (s : State) (m : Master) (write : Bool) (addr : Nat) (a : Answer) : State :=
  let s := { s with host := { s.host with answer := a } }
  if isViolation a then s.violates m write addr a else s

/-- A command of a master: the refusal, or the effect of the accepted command. -/
def State.command (s : State) (m : Master) (addr : Nat) (refusal : Option Answer) (f : State → State) : State :=
  match refusal with
  | some a => s.answered m true addr a
  | none => (f s).answered m true addr okAnswer

/-- May the master reach the application map: one of its world, the debug port only while it is open, in the debug view (R386, R439)? -/
def State.serves (s : State) (m : Master) : Bool := worldOf m == .application && (m != .debugPort || s.vault.debug)

/-- A master of another world has no access to the application map (R386). DESIGN CHOICE (log 26): nor has the debug port while it is closed. -/
def foreign (s : State) (m : Master) : Option Answer := if s.serves m then none else some (deny .access)

/-- The first refusal of two lists of checks. -/
def firstOf (a b : Option Answer) : Option Answer := match a with | some x => some x | none => b

/-- A refusal where a condition holds. -/
def refuseIf (c : Bool) (a : Answer) : Option Answer := if c then some a else none

/-- During a power-fail warning a write that needs MRAM is answered BUSY with detail MRAM (R421). -/
def pfwRefusal (s : State) : Option Answer := refuseIf s.pwr.pfw ⟨.busy, .mram⟩

/-! ## The SYS unlock (R405, R406) -/

/-- The refusal of an RWS write under the SYS unlock. -/
def sysGuard (s : State) (m : Master) : Option Answer :=
  match s.lock.st with
  | .sealed => some ⟨.sealed, .none⟩
  | .locked => some ⟨.locked, .none⟩
  | .unlocked => if s.lock.owner = m then none else some ⟨.locked, .none⟩

/-! ## Readings several chapters use -/

/-- The pitch of the active image, ns; 2 500 while none is active. -/
def State.pitchNs (s : State) : Nat := match s.prof.image with | some i => i.header.pitchNs | none => 2500

/-- The longest stall-link cable, m. -/
def State.cableM (s : State) : Nat := match s.prof.image with | some i => i.header.cableM | none => 0

/-- Opening of the compute window after a boundary, ns (R52). -/
def State.openNs (s : State) : Nat := 570 + 5 * s.cableM

/-- Closing of the compute window after a boundary, ns (R52). -/
def State.closeNs (s : State) : Nat := s.pitchNs - 550 - 5 * s.cableM

/-- The last pitch boundary at or before `t` (R519). -/
def State.boundaryAt (s : State) (t : Nat) : Nat := t / s.pitchNs * s.pitchNs

/-- The first pitch boundary after `t`. -/
def State.nextBoundary (s : State) (t : Nat) : Nat := (t / s.pitchNs + 1) * s.pitchNs

/-- Does the module hold ACTIVE (R332, R335)? -/
def State.active (s : State) : Bool := s.pair.role == .active && s.pair.activeO && (!s.pair.activeI || s.pair.side == 0)

/-- The role check of R351: refused while the module does not hold ACTIVE. -/
def roleGuard (s : State) : Option Answer := refuseIf (!s.active) (deny .role)

/-- Is a profile active? -/
def State.running (s : State) : Bool := s.prof.image.isSome

/-- Stall record of the active image. -/
def State.stallRec (s : State) (n : Fin 64) : Option StallRec :=
  s.prof.image.bind fun i => i.stalls.find? fun r => r.stallId == n.val

/-- Bay record of the active image. -/
def State.bayRec (s : State) (b : Fin 12) : Option BayRec :=
  s.prof.image.bind fun i => i.bays.find? fun r => r.bayId == b.val

/-- Cell record of the active image. -/
def State.cellRec (s : State) (n : Fin 64) (c : Fin 8) : Option CellRec :=
  s.prof.image.bind fun i => i.cells.find? fun r => r.cellId == 8 * n.val + c.val

/-- Is the cell fitted by the image (R38)? -/
def State.fitted (s : State) (n : Fin 64) (c : Fin 8) : Bool :=
  match s.stallRec n with | some r => r.cellMask.testBit c.val | none => false

/-- A bay is energised while its contactor is commanded closed or not yet confirmed open (R220). -/
def Bay.energised (b : Bay) : Bool := b.outlet.close || !b.outlet.confirmedOpen

/-- Mask of the energised bays. -/
def State.energisedMask (s : State) : Nat := sumNat ((fins 12).map fun b => b2n s.bays[b].energised * 2 ^ b.val)

/-- Is a stall move in flight (R61)? -/
def State.moveInFlight (s : State) : Bool := s.mkt.moves.toList.any fun m => m.phase != .free

/-- The bay a stall is assigned to by R521. -/
def State.assigned (s : State) (n : Fin 64) : Option (Fin 12) := s.stalls[n].bay

/-- Indices of the stalls assigned to a bay, rising. -/
def State.stallsOf (s : State) (b : Fin 12) : List (Fin 64) := (fins 64).filter fun n => s.stalls[n].bay == some b

/-- The move slot that holds a stall. -/
def State.slotOf (s : State) (n : Fin 64) : Option (Fin 8) :=
  (fins 8).find? fun k => s.mkt.moves[k].phase != .free && s.mkt.moves[k].stall == n.val

/-- Is the pair in full or lite pair (R330)? -/
def State.paired (s : State) : Bool := s.pair.mode != .single

/-! ## Requests for stall stops (R166, R173) -/

/-- A stop request of a stall with its cause waits for the next tick; the first of several requests stands. -/
def State.requestStop (s : State) (n : Fin 64) (cause : Nat) : State :=
  s.setStall n fun x => { x with stopReq := match x.stopReq with | some c => some c | none => some cause }

/-- Cause 4 replaces cause 2 or 3 (R173). -/
def State.replaceCause (s : State) (n : Fin 64) (cause : Nat) : State :=
  s.setStall n fun x => { x with stopReq := x.stopReq.map fun c => if c = 2 ∨ c = 3 then cause else c }

/-! ## The calendar (R422, R425) -/

/-- What a leap second has added to the calendar's advance up to `t`, in ns: a positive one takes half of two seconds, a
negative one adds one second over one (R426). -/
def leapShift (r : Rtc) (t : Nat) : Int :=
  match r.leap with
  | none => 0
  | some (q, positive) => if positive then -((min (t - q) 2000000000 / 2 : Nat) : Int) else ((min (t - q) 1000000000 : Nat) : Int)

/-- The calendar at `t`, in 10^-15 of 1/32 768 s: it advances on market time with its rate correction. -/
def calFine (r : Rtc) (t : Nat) : Int :=
  (r.base : Int) * 1000000000000000 + r.baseFrac + 32768 * (((t : Int) - r.baseAt) * (1000000 + r.ppm) + (leapShift r t - leapShift r r.baseAt) * 1000000)

/-- The calendar in units of 1/32 768 s. -/
def State.calUnits (s : State) : Nat := (calFine s.rtc s.mt / 1000000000000000).toNat

/-- Calendar seconds. -/
def State.calSeconds (s : State) : Nat := s.calUnits / 32768

/-- Is the calendar within the lead of SCHED_S, or past it (R454)? -/
def leadReached (s : State) : Bool := decide (s.upd.schedS ≤ s.calSeconds + s.upd.leadS)

/-- Does a scheduled activation hold new sessions (R454)? -/
def State.leadHolds (s : State) : Bool := s.upd.mode == 1 && s.upd.large.st == .armed && leadReached s

/-! ## Broken conditions of use (R487) -/

/-- SYS.ASSUME.SUPPLY and SYS.ASSUME.CLOCK follow what they report, with their sticky bits; a change counts in SUM0. -/
def State.refreshAssume (s : State) : State :=
  let supply := s.pwr.supplyBad || s.pwr.vin24Low || s.pwr.pfw
  let clock := !s.clk.refOk || !s.clk.x32Ok || s.clk.lock.toList.any fun b => !b
  let a := s.assume
  ({ s with assume := { a with supply, clock, supplyS := a.supplyS || (supply && !a.supply), clockS := a.clockS || (clock && !a.clock) } }).bumpIf
    (a.supply != supply || a.clock != clock) 0

/-! ## MRAM reservations (R206) -/

/-- The FOLLOW blocks of a snapshot: the market time of the capture and its words (R467). -/
def snapBytes (time : Nat) (words : List Nat) : Bytes := leBytes 8 time ++ words.flatMap (leBytes 4)

/-- The data after the head, before padding. -/
def recData (r : LdgRec) : Bytes := match r.snap with | some (t, ws) => snapBytes t ws | none => r.follow

/-- Number of FOLLOW blocks. -/
def recFollow (r : LdgRec) : Nat := ceilDiv (recData r).length 32

/-- Length of a record in bytes. -/
def recLen (r : LdgRec) : Nat := 32 * (1 + recFollow r)

/-- Bytes of a receipt (R289). -/
def receiptLen : Nat := 208

/-- Bytes of the records in a partition's queue. -/
def State.queuedBytes (s : State) (p : Fin 3) : Nat := sumNat (s.ldg.parts[p].queue.map recLen)

/-- What waits above its reservation of the tick, by client in the order of R206: metrology, safety ledger, system ledger, policy and
configuration. -/
def State.mramExcess (s : State) : List Nat :=
  [receiptLen * s.met.queue.length + s.queuedBytes 2 - s.mram.metro, s.queuedBytes 1 - s.mram.ledgerSaf, s.queuedBytes 0 - s.mram.ledgerSys,
   s.mram.policyDue]

/-- The unreserved share as it is open to the client at place `k` of R206's order: what waits for clients before it in the table is lent
to them first. -/
def State.spareFor (s : State) (k : Nat) : Nat := s.mram.spare - sumNat (s.mramExcess.take k)

end Sys2Proof.Machine
end

