-- ==== Sys2Proof/Machine/VaultOps.lean ====
section
/-! DEFINITION. The key vault as other chapters use it: its slots, who may use a key (R437), the unwrapping of blobs
(R441) and the loading of a key by its KEY_ID (R442). -/
namespace Sys2Proof.Machine

/-- Types a usage bit is valid for (R436, R442 code 0x04). The manual gives them by use: P-384 signatures for images and
containers (R47, R444), AES for decryption, pairing and wrapping, HMAC for the configuration unlock. -/
def usageTypes : Nat → List Nat
  | 2 => [1, 4] | 6 => [2] | 7 => [5, 6] | 8 => [3, 4] | 9 => [1] | 11 => [3] | 12 => [4] | 13 => [1] | _ => [6]

/-- Is every usage named valid for the key type (R442, code 0x04)? -/
def usageValid (type usage : Nat) : Bool :=
  (List.range 14).all fun i => !usage.testBit i || (usageTypes i).contains type

/-- Bytes of key material by type (R441). -/
def keyLen : Nat → Nat
  | 1 => 32 | 2 => 32 | 3 => 32 | 4 => 48 | 5 => 65 | 6 => 97 | _ => 0

/-- The bit of LC that the present state counts as (R436, R439). -/
def State.lcBit (s : State) : Nat :=
  if s.vault.debug then 3 else match s.vault.lc with | .provision => 0 | .deployed => 1 | .returned => 2

/-- A fixed key of R434. The table names no masters: every master of the key's world may use it. -/
def fixedKeyRow (slot type usage world lc : Nat) (material : Bytes) : Key :=
  { id := slot, type, usage, masters := 0x7F, world, lc, boot := true, material, used := 0 }

/-- The device wrap key (R434). -/
def State.dwk (s : State) : Bytes := Config.deriveDwk Config.fusedSecret s.vault.salt

/-- A byte string combined bit by bit with a mask. -/
def maskWith (m : Nat → Byte) (k : Bytes) : Bytes := ((List.range k.length).zip k).map fun x => x.2 ^^^ m x.1

/-- Key material of slot `i` combined with the mask m of a re-masking round: K gives the share K xor m that the slot holds, and that
share gives K (R435). The mask is a free value of the round (log 137). -/
def masked (i round : Nat) (k : Bytes) : Bytes := maskWith (Config.slotMask i round) k

/-- A key with the material in the form of the other share: in clear, or as a loadable slot holds it. -/
def Key.masked (k : Key) (i round : Nat) : Key := { k with material := Machine.masked i round k.material }

/-- The receipt key in slot 6 in clear (R290, R435). -/
def State.receiptKey (s : State) : Option Bytes := s.met.key.map (Machine.masked 6 s.vault.rounds)

/-- The key of a slot in clear: the fixed slots of R434, the receipt key the partition generated (R290), the loadable slots. -/
def State.keySlot (s : State) (i : Fin 64) : Option Key :=
  match i.val with
  | 0 => some (fixedKeyRow 0 4 (2 ^ 12) 3 15 (Config.fixedKey 0))
  | 1 => some (fixedKeyRow 1 1 (2 ^ 13) 3 15 s.dwk)
  | 2 => some (fixedKeyRow 2 4 (2 ^ 2) 3 15 (Config.fixedKey 2))
  | 3 => some (fixedKeyRow 3 6 (2 ^ 1 + 2 ^ 10) 0 7 (Config.fixedKey 3))
  | 4 => some (fixedKeyRow 4 6 (2 ^ 1) 0 8 (Config.fixedKey 4))
  | 5 => some (fixedKeyRow 5 1 (2 ^ 2) 0 3 (Config.fixedKey 5))
  | 6 => s.receiptKey.map fun k => fixedKeyRow 6 3 (2 ^ 11) 2 3 k
  | 7 => some (fixedKeyRow 7 6 (2 ^ 1) 2 7 (Config.fixedKey 7))
  | k => if k < 16 then none else s.vault.slots[i].map fun x => x.masked k s.vault.rounds

/-- Every key held, with its slot. -/
def State.heldKeys (s : State) : List (Fin 64 × Key) := (fins 64).filterMap fun i => (s.keySlot i).map fun k => (i, k)

/-- Number of occupied loadable slots (KEY.STAT.LOADED). DEDUCED (log 156): its reset value 0 leaves out the fixed slots, which are
occupied from manufacture on. -/
def State.loadedCount (s : State) : Nat := ((fins 64).filter fun i => decide (16 ≤ i.val) && s.vault.slots[i].isSome).length

/-- May the master use the key for the operation of usage bit `use` now (R437)? -/
def keyUsable (s : State) (k : Key) (m : Master) (use : Nat) : Bool :=
  k.masters.testBit (masterCode m) && k.world == worldCode (worldOf m) && k.lc.testBit s.lcBit && k.usage.testBit use

/-- The AES-GCM associated data of a blob: bytes 0x00 to 0x1B (R441). -/
def blobAad (b : Bytes) : Bytes := slice b 0 0x1C

/-- The error code of a blob's clear fields (R442); a foreign DEVICE_ID is reported before a tag that could not hold. -/
def blobError (s : State) (b : Bytes) : Option Nat :=
  let type := u8 b 5
  let usage := u32 b 8
  if u32 b 0 ≠ 0x4C424B5A ∨ u8 b 4 ≠ 1 ∨ !zeros b 6 2 ∨ !zeros b 0xA8 88 ∨ u8 b 0xF > 1 ∨ u8 b 0xC > 0x7F ∨ u8 b 0xE > 15 then some 0x02
  else if le b 0x14 8 ≠ s.fuses.deviceId then some 0x03
  else if u8 b 0xD ≥ 3 ∨ keyLen type = 0 ∨ usage ≥ 2 ^ 14 ∨ !usageValid type usage then some 0x04
  else none

/-- The key of a blob with its material in clear. -/
def blobKey (s : State) (b material : Bytes) : Key :=
  { id := u32 b 0x10, type := u8 b 5, usage := u32 b 8, masters := u8 b 0xC, world := u8 b 0xD, lc := u8 b 0xE, boot := u8 b 0xF == 1,
    material := material.take (keyLen (u8 b 5)), used := s.mt }

/-- A blob's key, or the error code of R442. -/
def unwrapBlob (s : State) (b : Bytes) : Except Nat Key :=
  match blobError s b with
  | some e => .error e
  | none =>
    match Config.gcmOpen s.dwk (slice b 0x1C 12) (blobAad b) (slice b 0x28 112) (slice b 0x98 16) with
    | none => .error 0x02
    | some plain => .ok (blobKey s b plain)

/-- The wrapped blob of a key (R441), with its nonce. -/
def wrapBlob (s : State) (k : Key) (iv : Bytes) : Bytes :=
  let head := leBytes 4 0x4C424B5A ++ [1, byte k.type, 0, 0] ++ leBytes 4 k.usage ++
    [byte k.masters, byte k.world, byte k.lc, byte (b2n k.boot)] ++ leBytes 4 k.id ++ leBytes 8 s.fuses.deviceId
  let c := Config.gcmSeal s.dwk iv head (slice k.material 0 112)
  head ++ slice iv 0 12 ++ slice c.1 0 112 ++ slice c.2 0 16 ++ List.replicate 88 0

/-- The free loadable slot a key may take: an empty one, or the least recently used one with BOOT = 0 (R442). -/
def State.freeSlot (s : State) : Option (Fin 64) :=
  let loadable := (fins 64).filter fun i => decide (16 ≤ i.val)
  match loadable.find? fun i => s.vault.slots[i].isNone with
  | some i => some i
  | none =>
    loadable.foldl (fun best i =>
      match s.vault.slots[i] with
      | some k => if k.boot then best else
          match best with
          | none => some i
          | some j => match s.vault.slots[j] with
            | some kj => if k.used < kj.used then some i else best
            | none => best
      | none => best) none

/-- A key takes a slot, which holds it as its shares (R435). -/
def State.putKey (s : State) (i : Fin 64) (k : Key) : State :=
  { s with vault := { s.vault with slots := vupd s.vault.slots i fun _ => some (k.masked i.val s.vault.rounds) } }

/-- The key placed in a free loadable slot, or KEY.STAT.ERR = 0x01. -/
def State.loadKey (s : State) (k : Key) : Option State := s.freeSlot.map fun i => s.putKey i k

/-- KEY.STAT.ERR takes a code of R442; a change of KEY.STAT counts in SUM12 (R459). -/
def State.keyError (s : State) (code : Nat) : State := ({ s with vault := { s.vault with err := code } }).bumpIf (s.vault.err != code) 12

/-- A rule names a KEY_ID: the key if it is held, or loaded from the store, with its use noted; none counts as absent, and
KEY.STAT.ERR says why (R442). -/
def State.findKey (s : State) (id : Nat) : Option Key × State :=
  match s.heldKeys.find? fun h => h.2.id == id with
  | some (i, k) =>
    (some k, { s with vault := { s.vault with slots := vupd s.vault.slots i fun x => x.map fun y => { y with used := s.mt } } })
  | none =>
    match s.vault.store.find? fun b => b.id == id with
    | none => (none, s.keyError 0x06)
    | some b =>
      match unwrapBlob s b.bytes with
      | .error e => (none, s.keyError e)
      | .ok k =>
        match s.loadKey k with
        | some s' => (some k, s'.bump 12)
        | none => (none, s.keyError 0x01)

/-- The vault refuses a master the use of a key it holds: a violation (R404, R437), at a free address (log 138). -/
def State.keyRefused (s : State) (id : Nat) (m : Master) : State :=
  let slot := match s.heldKeys.find? fun h => h.2.id == id with | some h => h.1.val | none => 0
  s.violates m false (Config.vaultAddr slot) ⟨.denied, .access⟩

/-- A key of this identity that the master may use for the operation, with the state after the vault has served or refused it. -/
def State.useKey (s : State) (id : Nat) (m : Master) (use : Nat) : Option Key × State :=
  let r := s.findKey id
  match r.1 with
  | some k => if keyUsable r.2 k m use then (some k, r.2) else (none, r.2.keyRefused id m)
  | none => (none, r.2)

/-- A held key of any identity that the master may use for the operation, with its slot. -/
def State.anySlot (s : State) (m : Master) (use : Nat) : Option (Fin 64 × Key) := s.heldKeys.find? fun h => keyUsable s h.2 m use

/-- That key (K_CFG of R405, the pair key of R339, the server key of R213). -/
def State.anyKey (s : State) (m : Master) (use : Nat) : Option Key := (s.anySlot m use).map (·.2)

/-- Its use is noted for the choice of the least recently used key (R442). -/
def State.noteUse (s : State) (m : Master) (use : Nat) : State :=
  match s.anySlot m use with
  | some h => { s with vault := { s.vault with slots := vupd s.vault.slots h.1 fun x => x.map fun y => { y with used := s.mt } } }
  | none => s

/-- Are there keys for this use, all of them refused to the master (R437)? -/
def State.useRefused (s : State) (m : Master) (use : Nat) : Bool := (s.anySlot m use).isNone && s.heldKeys.any fun h => h.2.usage.testBit use

/-- The vault serves a rule that needs a key of a use: the use is noted; where every key of the use is refused to the master, the first
refusal is a violation (R404, R437), at a free address (log 138). -/
def State.serveUse (s : State) (m : Master) (use : Nat) : State :=
  if s.useRefused m use then
    let slot := match s.heldKeys.find? fun h => h.2.usage.testBit use with | some h => h.1.val | none => 0
    s.violates m false (Config.vaultAddr slot) ⟨.denied, .access⟩
  else s.noteUse m use

/-- A re-masking round ends: every occupied slot holds its key under the mask of the next round (R435). -/
def State.remaskRound (s : State) : State :=
  let r := s.vault.rounds
  { s with
    vault := { s.vault with rounds := r + 1, maskCnt := wrapInc 32 s.vault.maskCnt, remaskPend := false,
                            slots := vmap (fun i x => x.map fun k => (k.masked i.val r).masked i.val (r + 1)) s.vault.slots }
    met := { s.met with key := s.met.key.map fun k => Machine.masked 6 (r + 1) (Machine.masked 6 r k) } }

end Sys2Proof.Machine
end

