-- ==== Sys2Proof/Machine/ImageCheck.lean ====
section
/-! DEFINITION. Layout images: their bytes (R32 to R48) and the load-time checks in the order of R51. -/
namespace Sys2Proof.Machine

/-- What SYS.PROF_ERR reports (R67). -/
structure ImgErr where
  code : Nat
  section_ : Nat
  record : Nat
  deriving DecidableEq, Repr

/-- No record named. -/
def noRec : Nat := 0xFFFF

/-- A check of R51: passed, or its error. -/
abbrev Chk := Except ImgErr Unit

/-- The refusal with a code where the condition holds. -/
def failIf (c : Bool) (code sec rec_ : Nat) : Chk := if c then .error ⟨code, sec, rec_⟩ else .ok ()

/-- The first failure over a list of records with their indices. -/
def checkAll {α : Type} (f : Nat → α → Chk) : Nat → List α → Chk
  | _, [] => .ok ()
  | i, x :: xs => match f i x with | .error e => .error e | .ok () => checkAll f (i + 1) xs

/-- One check after another. -/
def Chk.then (a : Chk) (b : Unit → Chk) : Chk := match a with | .error e => .error e | .ok () => b ()

/-- A section-table entry (R34). -/
structure SecEntry where
  type : Nat
  version : Nat
  recSize : Nat
  offset : Nat
  length : Nat
  crc : Nat
  deriving DecidableEq, Repr

/-- Entry `i` of the section table. -/
def secEntry (b : Bytes) (i : Nat) : SecEntry :=
  let o := 0x80 + 16 * i
  ⟨u8 b o, u8 b (o + 1), u16 b (o + 2), u32 b (o + 4), u32 b (o + 8), u32 b (o + 12)⟩

/-- TYPE and REC_SIZE of the nine sections, in table order (R34). -/
def secTypes : List (Nat × Nat) :=
  [(1, 8), (2, 16), (3, 32), (4, 0), (5, 260), (6, 16), (7, 16), (8, 16), (0xF, 128)]

/-- The bytes of section `i`. -/
def secBytes (b : Bytes) (i : Nat) : Bytes := slice b (secEntry b i).offset (secEntry b i).length

/-- The header (R33). -/
def imgHeader (b : Bytes) : ImgHeader :=
  { imageLen := u32 b 8, uid := slice b 0x10 16, pitchNs := u32 b 0x20, carrierHz := u32 b 0x24, update := u8 b 0x28,
    minStep := u8 b 0x29, cableM := u16 b 0x2A, bayMask := u16 b 0x2C, stallMask := le b 0x30 8, siteMaxKw := u32 b 0x38,
    siteMinKw := u32 b 0x3C, rateMax := u32 b 0x40, jerkMax := u32 b 0x44, sbusCycleNs := u32 b 0x48, sbusCycles := u8 b 0x4C }

/-- Records of fixed size of a section. -/
def fixedRecs (size : Nat) (b : Bytes) : List Bytes := chunks size (b.length / size) b

/-- A cell record (R37). -/
def cellRecOf (r : Bytes) : CellRec := ⟨u16 r 0, u8 r 2, u8 r 3, u16 r 4, i16 r 6⟩

/-- A stall record (R38). -/
def stallRecOf (r : Bytes) : StallRec :=
  ⟨u8 r 0, u8 r 1, u16 r 2, u16 r 4, u16 r 6, u16 r 8, u16 r 10, u16 r 12, u16 r 14⟩

/-- A bay record (R39, R233). -/
def bayRecOf (r : Bytes) : BayRec :=
  { bayId := u8 r 0, flags := u8 r 1, pMaxKw := u16 r 2, pFloorKw := u16 r 4, vMin := u16 r 6, vMax := u16 r 8,
    iMax := u16 r 10, classDef := u8 r 12, weightDef := u8 r 13, stallsMax := u8 r 14, flowIn := u8 r 15, tsA := u8 r 16,
    tsB := u8 r 17, tsC := u8 r 18, res20 := u16 r 20, cC := u16 r 22, cW := u16 r 24, g0 := u8 r 26, g1 := u8 r 27,
    gWA := u8 r 28, tLim := u8 r 29, flowMin := u8 r 30, derSpan := u8 r 31 }

/-- A tile record (R40) at the head of `r`. -/
def tileRecOf (r : Bytes) : TileRec :=
  { tileId := u16 r 0, template := u8 r 2, lane := u8 r 3, ownerKind := u8 r 4, flags := u8 r 5, ownerId := u16 r 6,
    macCount := u16 r 8, coefWords := u16 r 10, stateWords := u16 r 12, inA := u16 r 14, inB := u16 r 16,
    recordLen := u16 r 18, coef := (List.range (u16 r 10)).map fun j => i16 r (24 + 2 * j) }

/-- A lane schedule record (R43), its whole ORDER list. -/
def laneRecOf (r : Bytes) : LaneRec :=
  ⟨u8 r 0, (List.range (min (u8 r 1) 128)).map fun j => u16 r (4 + 2 * j)⟩

/-- A bus matrix record (R44). -/
def busWinOf (r : Bytes) : BusWin := ⟨u8 r 0, u8 r 1, u8 r 2, u8 r 3, u32 r 4, u32 r 8, u32 r 12⟩

/-- A safety record (R45). -/
def safRecOf (r : Bytes) : SafRec := ⟨u8 r 0, u8 r 1, u16 r 2, u32 r 4, u32 r 8, u32 r 12⟩

/-- A metering record (R46). -/
def meterRecOf (r : Bytes) : MeterRec := ⟨u8 r 0, u8 r 1, u8 r 2, u8 r 3, u32 r 4⟩

/-- Tile memory of a tile in bytes (R42). -/
def tileBytes (t : TileRec) : Nat := roundUpTo 32 (32 + 2 * (t.coefWords + t.stateWords))

/-- Lane cycles of a tile (R42). -/
def tileCycles (t : TileRec) : Nat := 8 + ceilDiv t.macCount 2

/-- Dimensions of a template (R128): MAC_COUNT, COEF_WORDS, STATE_WORDS. -/
def templateRow (template ownerKind : Nat) : Option (Nat × Nat × Nat) :=
  match template, ownerKind with
  | 1, 0 => some (12, 12, 8)
  | 1, 2 => some (6, 5, 8)
  | 2, 2 => some (5, 7, 4)
  | 3, 2 => some (8, 12, 4)
  | 4, 1 => some (48, 42, 12)
  | 5, 2 => some (10, 11, 6)
  | 6, 1 => some (16, 3, 16)
  | _, _ => none

/-- RECORD_LEN of a tile with this many coefficient words (R40). -/
def tileRecLen (coefWords : Nat) : Nat := roundUpTo 8 (24 + 2 * coefWords)

/-- The tile records of a section, cut by their RECORD_LEN; the fuel bounds their number. -/
def tileRecs : Nat → Bytes → List Bytes
  | 0, _ => []
  | f + 1, b => if b.isEmpty then [] else
      let n := tileRecLen (u16 b 10)
      b.take n :: tileRecs f (b.drop n)

/-- The image of a byte string. -/
def parseImage (b : Bytes) : Image :=
  { header := imgHeader b
    cells := (fixedRecs 8 (secBytes b 0)).map cellRecOf
    stalls := (fixedRecs 16 (secBytes b 1)).map stallRecOf
    bays := (fixedRecs 32 (secBytes b 2)).map bayRecOf
    tiles := (tileRecs 1025 (secBytes b 3)).map tileRecOf
    lanes := (fixedRecs 260 (secBytes b 4)).map laneRecOf
    bus := (fixedRecs 16 (secBytes b 5)).map busWinOf
    safety := (fixedRecs 16 (secBytes b 6)).map safRecOf
    meter := (fixedRecs 16 (secBytes b 7)).map meterRecOf
    safetyBytes := secBytes b 6
    meterBytes := secBytes b 7 }

/-! ## Header, table, CRCs and signature (codes 0x01 to 0x09) -/

/-- Codes 0x01 to 0x05. -/
def checkHeader (s : State) (extent : Nat) (b : Bytes) : Chk :=
  let len := u32 b 8
  (failIf (u32 b 0 ≠ 0x59414C5A) 0x01 0 noRec).then fun _ =>
  (failIf (u16 b 4 ≠ 1 ∨ u8 b 0xC ≠ 9) 0x02 0 noRec).then fun _ =>
  (failIf (len % 16 ≠ 0 ∨ len > 1048576 ∨ len > extent) 0x03 0 noRec).then fun _ =>
  (failIf (u32 b 0x7C ≠ crc32 (slice b 0 0x7C) ∨ !zeros b 0xD 1 ∨ !zeros b 0x2E 2 ∨ !zeros b 0x4D 3 ∨ !zeros b 0x58 36) 0x04 0 noRec).then fun _ =>
  failIf (u16 b 0xE ≠ 0x4D64 ∨ u8 b 0x29 > s.fuses.step) 0x05 0 noRec

/-- Does a section-table entry break R34 or R35, given the end of the section before it? -/
def badEntry (b : Bytes) (i prevEnd : Nat) : Bool :=
  let e := secEntry b i
  let row := secTypes.getD i (0, 0)
  let minStart := if i = 0 then 0x180 else prevEnd
  decide (e.type ≠ row.1 ∨ e.version ≠ 1 ∨ e.recSize ≠ row.2 ∨ e.offset % 16 ≠ 0) ||
  (row.2 != 0 && e.length % row.2 != 0) ||
  decide (e.offset < minStart ∨ e.offset > minStart + 15 ∨ (i = 0 ∧ e.offset ≠ 0x180)) ||
  !zeros b minStart (e.offset - minStart) ||
  decide ((i = 4 ∧ e.length ≠ 2080) ∨ (i = 7 ∧ e.length ≠ 512) ∨ (i = 8 ∧ e.length ≠ 128)) ||
  decide (i = 8 ∧ e.offset + e.length ≠ u32 b 8) || decide (e.offset + e.length > u32 b 8)

/-- Code 0x06: the nine entries in order, then the zero entries. -/
def checkTable (b : Bytes) : Nat → Nat → Nat → Chk
  | 0, _, _ => checkAll (fun i o => failIf (!zeros b o 16) 0x06 0 (9 + i)) 0 ((List.range 7).map fun j => 0x110 + 16 * j)
  | f + 1, i, prevEnd =>
    if badEntry b i prevEnd then .error ⟨0x06, 0, i⟩
    else checkTable b f (i + 1) ((secEntry b i).offset + (secEntry b i).length)

/-- The CRC of a section; the signature section's leaves out SIG_R and SIG_S (R48). -/
def secCrc (b : Bytes) (i : Nat) : Nat :=
  let x := secBytes b i
  crc32 (if i = 8 then x.take 8 ++ List.replicate 96 0 ++ x.drop 104 else x)

/-- Code 0x07. -/
def checkCrcs (b : Bytes) : Chk :=
  checkAll (fun i (r : Nat × Nat) => failIf (secCrc b i ≠ (secEntry b i).crc) 0x07 r.1 noRec) 0 secTypes

/-- Codes 0x09, then 0x08 (R49, R50): the layout-signing key, then ALG, the reserved bytes and the signature. -/
def checkSignature (s : State) (b : Bytes) : Chk :=
  let x := secBytes b 8
  match (s.useKey (u32 x 4) .marketSup 0).1 with
  | none => .error ⟨0x09, 0xF, 0⟩
  | some k =>
    failIf (u8 x 0 ≠ 2 ∨ !zeros x 1 3 ∨ !zeros x 104 24 ∨
      !Config.verifyP384 k.material (b.take (secEntry b 8).offset) (slice x 8 48) (slice x 56 48)) 0x08 0xF 0

/-! ## Structure (codes 0x10 to 0x1B) -/

/-- Code 0x10. -/
def checkTiming (h : ImgHeader) : Chk :=
  failIf (h.pitchNs < 2500 ∨ h.pitchNs > 50000 ∨ h.carrierHz < 20000 ∨ h.carrierHz > 200000 ∨ (h.update ≠ 1 ∧ h.update ≠ 2) ∨
    h.cableM < 1 ∨ h.cableM > 100 ∨ h.pitchNs * h.carrierHz * h.update ≠ 1000000000) 0x10 0 noRec

/-- CELL_MASK of a stall. -/
def cellMaskOf (img : Image) (stall : Nat) : Nat :=
  match img.stalls.find? fun r => r.stallId == stall with | some r => r.cellMask | none => 0

/-- Are the keys of the records strictly rising up to and including index `i`? -/
def risesAt (ks : List Nat) (i : Nat) : Bool := i == 0 || decide (ks.getD (i - 1) 0 < ks.getD i 0)

/-- Code 0x11. DESIGN CHOICE (log 149): it also refuses reserved FLAGS bits and a SHED_RANK above 7, which R51 lists under no code. -/
def checkCells (img : Image) : Chk :=
  let ks := img.cells.map (·.cellId)
  (checkAll (fun i (c : CellRec) => failIf (decide (c.cellId > 511) || !risesAt ks i ||
      !(cellMaskOf img (c.cellId / 8)).testBit (c.cellId % 8) || decide (c.flags > 1 ∨ c.shedRank > 7)) 0x11 1 i) 0 img.cells).then fun _ =>
  failIf ((List.range 512).any fun k =>
    img.header.stallMask.testBit (k / 8) && (cellMaskOf img (k / 8)).testBit (k % 8) && !ks.contains k) 0x11 1 noRec

/-- Code 0x12. -/
def checkStalls (img : Image) : Chk :=
  let h := img.header
  let ks := img.stalls.map (·.stallId)
  (checkAll (fun i (r : StallRec) => failIf (decide (r.stallId > 63) || !risesAt ks i || !h.stallMask.testBit r.stallId ||
      r.cellMask == 0 || r.bayReach &&& h.bayMask != r.bayReach || decide (r.bayReach ≥ 4096 ∨ r.rampMs < 1 ∨ r.rampMs > 1000)) 0x12 2 i) 0 img.stalls).then fun _ =>
  failIf ((List.range 64).any fun k => h.stallMask.testBit k && !ks.contains k) 0x12 2 noRec

/-- Temperature and flow inputs a bay names, with TS_A and TS_B apart from TS_C. -/
def ownSensors (r : BayRec) : List Nat := [r.tsA, r.tsB].filter (· != 0xFF)

/-- Does the bay at index `i` break the sensor rules of R39? -/
def badSensors (bays : List BayRec) (i : Nat) (r : BayRec) : Bool :=
  let others := (bays.zipIdx.filter fun x => x.2 != i).map (·.1)
  decide (r.flowIn ≠ 0xFF ∧ r.flowIn > 11) || [r.tsA, r.tsB, r.tsC].any (fun k => decide (k ≠ 0xFF ∧ k > 35)) ||
  (r.flowIn != 0xFF && others.any fun o => o.flowIn == r.flowIn) ||
  (r.tsA != 0xFF && (r.tsA == r.tsB || r.tsA == r.tsC)) || (r.tsB != 0xFF && r.tsB == r.tsC) ||
  others.any fun o => (ownSensors r).any (fun k => (ownSensors o).contains k || o.tsC == k) || (r.tsC != 0xFF && (ownSensors o).contains r.tsC)

/-- Does a CABLE_PARAM break R233 or R234? Conductances in 0.1 W/K, capacities in J/K and 10 J/K. -/
def badCable (r : BayRec) : Bool :=
  decide (r.res20 < 1 ∨ r.cC < 1 ∨ r.cW < 1 ∨ r.g0 < 1 ∨ r.gWA < 1 ∨ r.tLim < 80 ∨ r.tLim > 170 ∨ r.derSpan < 2 ∨ r.derSpan > 50) ||
  decide (r.g0 + 60 * r.g1 > 5000 * r.cC) || decide (r.g0 + 60 * r.g1 + 10 * r.gWA > 5000 * (10 * r.cW))

/-- Code 0x13. -/
def checkBays (img : Image) : Chk :=
  let h := img.header
  let ks := img.bays.map (·.bayId)
  (failIf (h.bayMask ≥ 4096) 0x13 0 noRec).then fun _ =>
  (checkAll (fun i (r : BayRec) => failIf (decide (r.bayId > 11) || !risesAt ks i || !h.bayMask.testBit r.bayId ||
      decide (r.flags > 1 ∨ r.vMin > r.vMax ∨ r.vMax > 1250 ∨ r.iMax > 3000 ∨ r.classDef > 7 ∨ r.weightDef < 1 ∨
        r.stallsMax < 1 ∨ r.stallsMax > 64) ||
      !(img.stalls.any fun x => x.bayReach.testBit r.bayId) || badSensors img.bays i r || badCable r) 0x13 3 i) 0 img.bays).then fun _ =>
  failIf ((List.range 12).any fun k => h.bayMask.testBit k && !ks.contains k) 0x13 3 noRec

/-- The reserved byte 19 of the bay records (R32, R39). DESIGN CHOICE (log 149): code 0x13, as for reserved FLAGS bits of a bay record. -/
def checkBayReserved (b : Bytes) : Chk :=
  checkAll (fun i r => failIf (!zeros r 19 1) 0x13 3 i) 0 (fixedRecs 32 (secBytes b 2))

/-- Are TEMPLATE and OWNER_KIND known, and the dimensions those of the template's row (R128)? A known template at an owner kind it has
no row for breaks R41, not this: its dimensions are those of one of the template's rows. -/
def knownTile (t : TileRec) : Bool :=
  let dims := some (t.macCount, t.coefWords, t.stateWords)
  decide (t.ownerKind ≤ 2) &&
  (if (templateRow t.template t.ownerKind).isSome then templateRow t.template t.ownerKind == dims
   else [0, 1, 2].any fun k => templateRow t.template k == dims)

/-- Code 0x15: the records can be delimited and are well formed. -/
def checkTileRecs : Nat → Nat → Option Nat → Bytes → Chk
  | 0, i, _, _ => .error ⟨0x15, 4, i⟩
  | f + 1, i, prev, b =>
    if b.isEmpty then .ok ()
    else
      let t := tileRecOf b
      let n := tileRecLen t.coefWords
      if b.length < 24 ∨ t.recordLen ≠ n ∨ b.length < n ∨ t.tileId > 1023 ∨ prev.any (fun p => decide (t.tileId ≤ p)) ∨
          t.lane > 7 ∨ t.flags > 3 ∨ !zeros b 20 4 ∨ !zeros b (24 + 2 * t.coefWords) (n - 24 - 2 * t.coefWords) ∨
          !knownTile t then .error ⟨0x15, 4, i⟩
      else checkTileRecs f (i + 1) (some t.tileId) (b.drop n)

/-- The tile of a template and an owner. -/
def tileOf (img : Image) (template kind owner : Nat) : Option TileRec :=
  img.tiles.find? fun t => t.template == template && t.ownerKind == kind && t.ownerId == owner

/-- TILE_ID of the tile of a template and an owner; 0xFFFF where it is absent. -/
def tileIdOf (img : Image) (template kind owner : Nat) : Nat :=
  match tileOf img template kind owner with | some t => t.tileId | none => 0xFFFF

/-- IN_A and IN_B that R128 requires of a tile. -/
def requiredInputs (img : Image) (t : TileRec) : Nat × Nat :=
  match t.template, t.ownerKind with
  | 1, 0 => (tileIdOf img 6 1 (t.ownerId / 8), tileIdOf img 4 1 (t.ownerId / 8))
  | 1, 2 => (tileIdOf img 5 2 t.ownerId, 0xFFFF)
  | 2, 2 => (tileIdOf img 1 2 t.ownerId, 0xFFFF)
  | 3, 2 => (tileIdOf img 5 2 t.ownerId, tileIdOf img 2 2 t.ownerId)
  | _, _ => (0xFFFF, 0xFFFF)

/-- Is the owner of a tile in use? -/
def ownerInUse (img : Image) (t : TileRec) : Bool :=
  match t.ownerKind with
  | 0 => img.cells.any fun c => c.cellId == t.ownerId
  | 1 => img.stalls.any fun r => r.stallId == t.ownerId
  | _ => img.bays.any fun r => r.bayId == t.ownerId

/-- How many tiles of a template an owner has. -/
def tileCount (img : Image) (template kind owner : Nat) : Nat :=
  (img.tiles.filter fun t => t.template == template && t.ownerKind == kind && t.ownerId == owner).length

/-- Code 0x14: each owner in use has exactly its tiles (R17, R41), and each input is the one of R128. -/
def checkTileSet (img : Image) : Chk :=
  (checkAll (fun i (t : TileRec) => failIf ((templateRow t.template t.ownerKind).isNone || !ownerInUse img t || tileCount img t.template t.ownerKind t.ownerId != 1 ||
      (t.inA, t.inB) != requiredInputs img t) 0x14 4 i) 0 img.tiles).then fun _ =>
  failIf (img.cells.any (fun c => tileCount img 1 0 c.cellId != 1) ||
    img.stalls.any (fun r => tileCount img 4 1 r.stallId != 1 || tileCount img 6 1 r.stallId != 1) ||
    img.bays.any fun r => [1, 2, 3, 5].any fun t => tileCount img t 2 r.bayId != 1) 0x14 4 noRec

/-- Tiles the image places in a lane. -/
def laneTiles (img : Image) (l : Nat) : List TileRec := img.tiles.filter fun t => t.lane == l

/-- Code 0x16. -/
def checkCapacity (img : Image) : Chk :=
  checkAll (fun _ l => failIf (decide ((laneTiles img l).length > 128 ∨ sumNat ((laneTiles img l).map tileBytes) > 262144)) 0x16 5 l) 0 (List.range 8)

/-- Does a same-pitch input of a tile break R19? The producer must stand earlier in the same lane. -/
def badSamePitch (img : Image) (order : List Nat) (t : TileRec) : Bool :=
  [(0, t.inA), (1, t.inB)].any fun x =>
    t.flags.testBit x.1 && x.2 != 0xFFFF &&
      !((img.tiles.any fun p => p.tileId == x.2 && p.lane == t.lane) && decide (order.idxOf x.2 < order.idxOf t.tileId))

/-- Code 0x18. DESIGN CHOICE (log 149): it also refuses bytes 2 and 3 of a lane record that are not zero. -/
def checkSchedule (img : Image) (b : Bytes) : Chk :=
  checkAll (fun i r =>
    let order := (laneRecOf r).order
    let ids := (laneTiles img i).map (·.tileId)
    failIf (u8 r 0 != i || decide (u8 r 1 > 128) || !zeros r 2 2 ||
      (List.range (128 - min (u8 r 1) 128)).any (fun j => u16 r (4 + 2 * (u8 r 1 + j)) != 0xFFFF) ||
      order.any (fun x => !ids.contains x || order.count x != 1) || ids.any (fun x => !order.contains x) ||
      (laneTiles img i).any (badSamePitch img order)) 0x18 5 i) 0 (fixedRecs 260 (secBytes b 4))

/-- The compute window in lane cycles (R52). -/
def windowCycles (h : ImgHeader) : Nat := (h.pitchNs - 550 - 5 * h.cableM) - (570 + 5 * h.cableM)

/-- Lane cycles of a lane's schedule. -/
def laneCycles (img : Image) (l : Nat) : Nat := sumNat ((laneTiles img l).map tileCycles)

/-- Code 0x19. -/
def checkDeadline (img : Image) : Chk :=
  checkAll (fun _ l => failIf (decide (laneCycles img l > windowCycles img.header)) 0x19 5 l) 0 (List.range 8)

/-- Code 0x1A: the running sum of the floors (R53). -/
def checkFloors (h : ImgHeader) : Nat → Nat → List BayRec → Chk
  | _, _, [] => failIf (h.siteMinKw > h.siteMaxKw) 0x1A 0 noRec
  | i, sum, r :: rs =>
    if sum + r.pFloorKw > h.siteMinKw then .error ⟨0x1A, 3, i⟩ else checkFloors h (i + 1) (sum + r.pFloorKw) rs

/-- Code 0x1B. -/
def checkBounds (img : Image) : Chk :=
  (failIf (img.header.rateMax = 0 ∨ img.header.jerkMax = 0) 0x1B 0 noRec).then fun _ =>
  checkAll (fun i (r : BayRec) => failIf (r.pMaxKw < r.pFloorKw) 0x1B 3 i) 0 img.bays

/-! ## Bus, safety and metering maps (codes 0x1C to 0x20) -/

/-- Nominal rate of SBUS.BTRn.NOM, bit/s. -/
def nomRateOf : Nat → Nat | 0 => 125000 | 1 => 250000 | 2 => 500000 | _ => 1000000

/-- Data rate of SBUS.BTRn.DATA, bit/s; 0 for no BRS. -/
def dataRateOf : Nat → Nat | 1 => 1000000 | 2 => 2000000 | 3 => 4000000 | 4 => 5000000 | 5 => 8000000 | _ => 0

/-- T_FRAME(n) in ns (R359) at the rates of SBUS.BTR, with or without BRS. Every rate divides 10^9. -/
def tFrame (nom data : Nat) (ext brs : Bool) (n : Nat) : Nat :=
  let tN := 1000000000 / nomRateOf nom
  let tD := if brs && dataRateOf data != 0 then 1000000000 / dataRateOf data else tN
  (if ext then 57 else 34) * tN + (8 * n + 37 + (8 * n + 5) / 4) * tD

/-- The least length of a window of this kind at these rates (R363); 0 for arbitrating and free windows. -/
def windowMin (nom data : Nat) (w : BusWin) : Nat :=
  if w.kind = 0 then tFrame nom data (w.canId.testBit 31) true 64 + 2000
  else if w.kind = 2 then tFrame nom data (w.canId.testBit 31) true 12 + 2000 else 0

/-- Do two windows of one channel overlap in some basic cycle? -/
def windowsOverlap (cycles : Nat) (a b : BusWin) : Bool :=
  decide (a.startNs < b.startNs + b.lengthNs) && decide (b.startNs < a.startNs + a.lengthNs) &&
  (List.range cycles).any fun c => c % a.rep == a.baseCycle % a.rep && c % b.rep == b.baseCycle % b.rep

/-- A power of two that R33 and R44 admit. -/
def cycleCount (n : Nat) : Bool := [1, 2, 4, 8, 16, 32, 64].contains n

/-- The windows of a matrix with the order key of R44. -/
def busKey (w : BusWin) : Nat := w.channel * 2 ^ 48 + w.baseCycle * 2 ^ 32 + w.startNs

/-- Is the matrix fit for the heartbeat of a pair (R364)? -/
def heartbeatFits (bus : List BusWin) (ch nom data : Nat) : Bool :=
  bus.any fun w => w.channel == ch && w.kind == 1 && decide (2 * tFrame nom data false true 64 ≤ w.lengthNs)

/-- Code 0x1C. -/
def checkBus (s : State) (img : Image) : Chk :=
  let h := img.header
  let ks := img.bus.map busKey
  (failIf (!cycleCount h.sbusCycles) 0x1C 0 noRec).then fun _ =>
  (checkAll (fun i (w : BusWin) =>
    let before := (img.bus.take i).filter fun x => x.channel == w.channel
    let btr := s.sbus.ch[finMod 2 w.channel]
    failIf (decide (w.channel > 1 ∨ w.kind > 3 ∨ w.baseCycle ≥ h.sbusCycles ∨ w.rep > h.sbusCycles) || !cycleCount w.rep ||
      (i != 0 && decide (ks.getD (i - 1) 0 > ks.getD i 0)) || w.canId.testBit 29 || w.canId.testBit 30 ||
      (!w.canId.testBit 31 && decide (w.canId > 0x7FF)) || ((w.kind == 1 || w.kind == 3) && w.canId != 0) ||
      decide (w.startNs + w.lengthNs > h.sbusCycleNs) || before.any (windowsOverlap h.sbusCycles w) ||
      decide (w.lengthNs < windowMin btr.nomRate btr.dataRate w)) 0x1C 6 i) 0 img.bus).then fun _ =>
  (failIf ((List.range 2).any fun c => (img.bus.any fun w => w.channel == c) && !(img.bus.any fun w => w.channel == c && w.kind == 2)) 0x1C 6 noRec).then fun _ =>
  let btr := s.sbus.ch[finMod 2 s.pair.hbCh]
  failIf (s.paired && !heartbeatFits img.bus s.pair.hbCh btr.nomRate btr.dataRate) 0x1C 6 noRec

/-- Is a safety record out of its ranges (R298, R299, R307)? -/
def badSafRec (img : Image) (r : SafRec) : Bool :=
  let src := fun k => img.safety.find? fun x => x.kind == 3 && x.index == k
  match r.kind with
  | 1 =>
    decide (r.index > 15 ∨ r.flags % 4 > 2 ∨ r.flags ≥ 128 ∨ r.paramA % 50 ≠ 0 ∨ r.paramA < 5000 ∨ r.paramA > 1000000 ∨
      (r.paramB ≠ 0xFF ∧ r.paramB > 3) ∨ r.targetMask % 2 ^ 31 ≥ 4096) || (r.flags % 4 == 2 && r.targetMask != 0) ||
    (r.paramB != 0xFF && match src r.paramB, src (r.paramB ^^^ 1) with
      | some a, some b => a.paramB != b.paramB
      | _, _ => true)
  | 2 =>
    let fb := r.flags % 32
    let test := r.flags.testBit 5
    decide (r.index > 15 ∨ r.flags ≥ 64 ∨ (fb > 15 ∧ fb ≠ 31)) ||
    (decide (fb ≤ 15) && !(img.safety.any fun x => x.kind == 1 && x.index == fb && x.flags % 4 == 2)) ||
    (r.paramA != 0xFF && (decide (r.paramA > 11) || !img.header.bayMask.testBit r.paramA)) ||
    (if test then decide (r.paramB < 100 ∨ r.paramB > 60000) else r.paramB != 0) || r.targetMask != 0
  | 3 =>
    decide (r.index > 3 ∨ r.flags ≠ 0 ∨ r.paramA % 50 ≠ 0 ∨ r.paramA < 200 ∨ r.paramA > 2000 ∨ r.paramB < 20 ∨ r.paramB > 10000 ∨ r.targetMask ≠ 0)
  | _ => true

/-- Code 0x1D. -/
def checkSafetyMap (img : Image) : Chk :=
  let ks := img.safety.map fun r => r.kind * 256 + r.index
  checkAll (fun i (r : SafRec) => failIf (badSafRec img r || !risesAt ks i) 0x1D 7 i) 0 img.safety

/-- Does the image change the stored safety configuration (R321)? -/
def changesSafety (s : State) (img : Image) : Bool :=
  match s.saf.stored with | some x => x != img.safetyBytes | none => false

/-- Code 0x1E; `unlocked` is the state of the safety unlock for this check. -/
def checkSafetyAuth (s : State) (unlocked : Bool) (img : Image) : Chk :=
  failIf (changesSafety s img && !unlocked) 0x1E 7 noRec

/-- QUANTITY and INDEX of a metrology channel by its pins (R46). -/
def meterPin (c : Nat) : Nat × Nat :=
  if c < 4 then (1, c) else if c < 8 then (2, c - 4) else if c % 2 = 0 then (3, (c - 8) / 2) else (4, (c - 9) / 2)

/-- Code 0x1F. -/
def checkMeterMap (img : Image) (b : Bytes) : Chk :=
  (checkAll (fun i r =>
    let m := meterRecOf r
    failIf (m.channel != i || (m.quantity, m.index) != meterPin i || decide (m.flags > 1) || !zeros r 8 8) 0x1F 8 i) 0 (fixedRecs 16 (secBytes b 7))).then fun _ =>
  checkAll (fun _ (r : BayRec) =>
    let used := fun c => match img.meter[c]? with | some m => m.flags.testBit 0 | none => false
    failIf (!used (8 + 2 * r.bayId) || !used (9 + 2 * r.bayId)) 0x1F 8 (if used (8 + 2 * r.bayId) then 9 + 2 * r.bayId else 8 + 2 * r.bayId)) 0 img.bays

/-- Index of the first 16-octet metering record on which two metering sections differ. -/
def firstDiff (a b : Bytes) : Nat := ((fixedRecs 16 a).zip (fixedRecs 16 b)).findIdx fun p => p.1 != p.2

/-- Code 0x20 (R266): the offending record is the first that differs from the map in force. -/
def checkMeterSeal (s : State) (img : Image) : Chk :=
  match s.met.set with
  | some c => failIf (s.fuses.mb && s.met.sealSt == .sealed && c.mapBytes != img.meterBytes) 0x20 8 (firstDiff c.mapBytes img.meterBytes)
  | none => .ok ()

/-- All checks of R51 on the bytes of a slot, in its order (R50). -/
def checkImage (s : State) (unlocked : Bool) (extent : Nat) (b : Bytes) : Chk :=
  (checkHeader s extent b).then fun _ =>
  (checkTable b 9 0 0x180).then fun _ =>
  (checkCrcs b).then fun _ =>
  (checkSignature s b).then fun _ =>
  let img := parseImage b
  (checkTiming img.header).then fun _ =>
  (checkCells img).then fun _ =>
  (checkStalls img).then fun _ =>
  (checkBays img).then fun _ =>
  (checkBayReserved b).then fun _ =>
  (checkTileRecs 1100 0 none (secBytes b 3)).then fun _ =>
  (checkTileSet img).then fun _ =>
  (checkCapacity img).then fun _ =>
  (failIf (img.tiles.length > 1024) 0x17 4 noRec).then fun _ =>
  (checkSchedule img b).then fun _ =>
  (checkDeadline img).then fun _ =>
  (checkFloors img.header 0 0 img.bays).then fun _ =>
  (checkBounds img).then fun _ =>
  (checkBus s img).then fun _ =>
  (checkSafetyMap img).then fun _ =>
  (checkSafetyAuth s unlocked img).then fun _ =>
  (checkMeterMap img b).then fun _ =>
  checkMeterSeal s img

/-- The bytes of the image a slot holds: as many as its IMAGE_LEN, at most a slot. -/
def slotImage (p : ProfSlot) : Bytes := memRange p.mem 0 (max 0x180 (min (leNat (memRange p.mem 8 4)) 1048576))

/-- The verdict on a slot. -/
def checkSlot (s : State) (unlocked : Bool) (p : Fin 4) : Except ImgErr Image :=
  let b := slotImage s.prof.slots[p]
  match checkImage s unlocked s.prof.slots[p].extent b with
  | .error e => .error e
  | .ok () => .ok (parseImage b)

/-- What the vault has done for a check that came as far as the signature's key (R49, R437, R442). -/
def State.signatureServed (s : State) (p : Fin 4) (v : Except ImgErr Image) : State :=
  let reached := match v with | .error e => decide (8 ≤ e.code) | .ok _ => true
  if reached then (s.useKey (u32 (secBytes (slotImage s.prof.slots[p]) 8) 4) .marketSup 0).2 else s

/-! ## LIVE comparison (R62) -/

/-- Is byte `o` of a tile section one that a LIVE change may change? The COEF fields of the records, cut as in `b`. -/
def tileMasked : Nat → Bytes → Bytes
  | 0, _ => []
  | f + 1, b => if b.isEmpty then [] else
      let w := u16 b 10
      let n := tileRecLen w
      (b.take 24 ++ List.replicate (2 * w) 0 ++ (b.take n).drop (24 + 2 * w)) ++ tileMasked f (b.drop n)

/-- A byte string with some of its ranges (offset, length) taken as zero. -/
def maskRanges (rs : List (Nat × Nat)) (b : Bytes) : Bytes :=
  rs.foldl (fun x r => x.take r.1 ++ List.replicate (min r.2 (x.length - r.1)) 0 ++ x.drop (r.1 + r.2)) b

/-- The bytes of an image that a LIVE change must keep (R62): each part with the exceptions taken as zero. -/
def liveKept (b : Bytes) : List Bytes :=
  [ maskRanges [(0x10, 16), (0x38, 16), (0x50, 8), (0x7C, 4)] (slice b 0 0x80),
    maskRanges ((List.range 9).map fun i => (16 * i + 12, 4)) (slice b 0x80 0x100),
    secBytes b 0,
    (fixedRecs 16 (secBytes b 1)).flatMap (maskRanges [(2, 6), (10, 6)]),
    (fixedRecs 32 (secBytes b 2)).flatMap (maskRanges [(2, 13), (20, 12)]),
    tileMasked 1100 (secBytes b 3), secBytes b 4, secBytes b 5, secBytes b 6, secBytes b 7 ]

/-- May the image change to the other in LIVE mode (R62)? -/
def liveCompatible (old new : Bytes) : Bool := old.length == new.length && liveKept old == liveKept new

end Sys2Proof.Machine
end

