-- ==== Sys2Proof/Machine/Operands.lean ====
section
/-! DEFINITION. The operand forms of the stall link: the frames of R76 as bytes and as fields. -/
namespace Sys2Proof.Machine

/-- Is a received frame kept by R74: no coding error, the length of its type and a right CRC? -/
def frameOk (type len : Nat) (clean : Bool) (b : Bytes) : Bool :=
  clean && b.length == len && u8 b 0 == type && u32 b (len - 4) == crc32c (b.take (len - 4))

/-- The fields of an uplink pitch frame (R81). -/
def uplinkOf (b : Bytes) : Uplink :=
  { stat := u8 b 1, ocMask := u8 b 2, tempIdx := u8 b 3 % 16, matrixFb := u8 b 3 / 16, sampleTime := le b 4 3, temp := u8 b 7,
    iCell := (List.range 8).map fun i => i16 b (8 + 2 * i), vOut := u16 b 24, vDc := u16 b 26 }

/-- A training reply (R102). -/
structure TrainReply where
  ports : Nat
  fitted : Nat
  hwVer : Nat
  tag : Nat
  turnNs : Nat
  iFs : Nat
  vFs : Nat
  tLoad : Nat
  maker : Nat
  deriving DecidableEq, Repr

/-- The fields of a training reply (R102). -/
def trainReplyOf (b : Bytes) : TrainReply :=
  ⟨u8 b 1, u8 b 2, u8 b 3, u32 b 4, u16 b 8, u16 b 10, u16 b 12, u8 b 14, u32 b 16⟩

/-- Twelve-bit fields packed little-endian (R79). -/
def packPhases (ps : List Nat) : Nat := ps.reverse.foldl (fun a p => a * 4096 + p % 4096) 0

/-- Bytes 0 to 35 of a downlink pitch frame (R77). -/
def downlinkBody (f : Downlink) : Bytes :=
  [0x11, byte (b2n f.rearm + 2 * b2n f.capOn), byte f.gate, byte f.matrix] ++ leBytes 4 (f.boundary % 2 ^ 32) ++
  f.duty.flatMap (leBytes 2) ++ leBytes 12 (packPhases f.phase)

/-- A downlink pitch frame with its CRC (R75, R77). -/
def downlinkBytes (f : Downlink) : Bytes := downlinkBody f ++ leBytes 4 (crc32c (downlinkBody f))

/-- A configuration frame with its CRC (R101). -/
def configBytes (f : ConfigFrame) : Bytes :=
  let b := [0x41, byte f.stallId, byte f.flags, byte f.side] ++ leBytes 4 f.pitchNs ++ leBytes 4 f.carrierHz ++
    leBytes 8 f.txTime ++ leBytes 2 f.ocTrip ++ leBytes 2 f.capDt ++ leBytes 2 f.delayNs ++ [0, 0] ++ leBytes 4 f.tag ++ [0, 0, 0, 0]
  b ++ leBytes 4 (crc32c b)

/-- CAP_DT: the least multiple of 8 ns at or above PITCH_NS / (4 N) (R107). -/
def capDt (pitchNs : Nat) : Nat := let n := (pitchNs - 272) / 624; roundUpTo 8 (ceilDiv pitchNs (4 * n))

/-- The carrier offset of a phase in ns (R79). -/
def phaseOffset (phase periodNs : Nat) : Nat := (phase * periodNs + 2048) / 4096

/-- The 36 or 80 bytes a capture record shows (R109, R388). -/
def capRecBytes (r : CapRec) : Bytes := leBytes 6 (r.at_ % 2 ^ 48) ++ [byte r.stall, byte r.kind] ++ r.bytes

/-! ## Seljo messages (R339) -/

/-- Bytes 1 to 3 and 7 to 27 of an uplink pitch frame, as PITCH carries them. -/
def uplinkShort (u : Uplink) : Bytes :=
  [byte u.stat, byte u.ocMask, byte (u.tempIdx + 16 * u.matrixFb), byte u.temp] ++ u.iCell.flatMap (fun i => leBytes 2 (fieldOf 16 i)) ++
  leBytes 2 u.vOut ++ leBytes 2 u.vDc

/-- Head and payload of a Seljo message: TYPE, FLAGS, LEN, SEQ, TIME, PAYLOAD. -/
def seljoBody (type flags seq time : Nat) (payload : Bytes) : Bytes :=
  [byte type, byte flags] ++ leBytes 2 payload.length ++ leBytes 4 seq ++ leBytes 8 time ++ payload

/-- A Seljo message with its CRC. -/
def seljoBytes (type flags seq time : Nat) (payload : Bytes) : Bytes :=
  seljoBody type flags seq time payload ++ leBytes 4 (crc32c (seljoBody type flags seq time payload))

/-- Does a received message carry the CRC of its head and payload? -/
def seljoOk (type : Nat) (h : SeljoHead) : Bool := h.crc == crc32c (seljoBody type h.flags h.seq h.time h.payload)

/-- A message leaves on the Seljo link of a full-pair module, where the link is up; SEQ rises by one per message of its TYPE. -/
def State.sendSeljo (s : State) (type : Fin 9) (flags time : Nat) (payload : Bytes) : State :=
  let q := s.pair.seljo
  if s.pair.mode = .full ∧ q.up then
    let out := vupd q.out type fun _ => seljoBytes type.val flags q.sent[type] time payload
    { s with pair := { s.pair with seljo := { q with out, sent := vupd q.sent type (wrapInc 32) } } }
  else s

end Sys2Proof.Machine
end

