-- ==== Sys2Proof/Machine/Link.lean ====
section
/-! DEFINITION. Stall links: states and training (R99 to R104), the capture stream (R105 to R109), the STL commands of R111. -/
namespace Sys2Proof.Machine

/-! ## Link states -/

/-- The link of stall `n` changed. -/
def State.setLink (s : State) (n : Fin 64) (f : Link → Link) : State := s.setStall n fun x => { x with link := f x.link }

/-- OC_TRIP of a stall (R91): 5/4 of the largest I_MAX of its cell records, at most 65 535. -/
def ocTrip (img : Image) (n : Nat) : Nat :=
  min 65535 (5 * ((img.cells.filter fun c => c.cellId / 8 == n).foldl (fun a c => max a c.iMax) 0) / 4)

/-- Begin of the first character slot at or after a market time: slots begin at multiples of 8 ns (R84). -/
def charSlot (t : Nat) : Nat := (t + 7) / 8 * 8

/-- The configuration frame a training exchange sends now, its SDF in the first character slot (R84, R101). -/
def configFrame (s : State) (n : Fin 64) (tag delay : Nat) (valid : Bool) : ConfigFrame :=
  match s.prof.image with
  | some i =>
    { stallId := n.val, flags := b2n (i.header.update == 2) + 2 * b2n s.paired + 4 * b2n valid, side := s.pair.side,
      pitchNs := i.header.pitchNs, carrierHz := i.header.carrierHz, txTime := charSlot s.mt, ocTrip := ocTrip i n.val,
      capDt := capDt i.header.pitchNs, delayNs := if valid then delay else 0, tag }
  | none => ⟨n.val, 0, s.pair.side, 0, 0, charSlot s.mt, 0, 0, 0, tag⟩

/-- The first tag at or after `k` that is not in use. -/
def freshTag (used : List Nat) (k : Nat) : Nat :=
  (((List.range (used.length + 1)).map fun i => (k + i) % 2 ^ 32).find? fun x => !used.contains x).getD (k % 2 ^ 32)

/-- A configuration frame leaves with a new TAG of the module's choosing (a free value that none of the latest 64 tags of the
link repeats, R101). -/
def State.sendConfig (s : State) (n : Fin 64) (delay : Nat) (valid : Bool) : State :=
  let r := s.drawNat
  let used := (s.stalls[n].link.tag :: s.stalls[n].link.oldTags).take 64
  let tag := freshTag used r.1
  r.2.setLink n fun l =>
    { l with tag, oldTags := used, txTime := charSlot s.mt, confirming := valid, out := .config (configFrame s n tag delay valid) }

/-- A full-pair module without ACTIVE trains its links only while its market time is locked (R340). -/
def State.mayTrain (s : State) : Bool := s.pair.mode != .full || s.active || s.pair.seljo.lock

/-- Entry to ALIGN (R99). -/
def State.linkAlign (s : State) (n : Fin 64) : State :=
  (s.setLink n fun l => { l with st := .align, entered := s.mt, out := .idl }).bump 3

/-- Entry to TRAIN: the exchange of R101 starts, in a module that may train (R340). DESIGN CHOICE (log 115): another one sends IDL and
no configuration frame until its lock comes. -/
def State.linkTrain (s : State) (n : Fin 64) : State :=
  let s' := s.setLink n fun l => { l with st := .train, entered := s.mt, estimates := [], out := .idl }
  (if s.mayTrain then s'.sendConfig n 0 false else s').bump 3

/-- Entry to OFF: SLP four times, then electrical idle (R99). A later FAULT of the link is no retry of an earlier one (R100). -/
def State.linkOff (s : State) (n : Fin 64) : State :=
  if s.stalls[n].link.st = .off then s
  else (s.setLink n fun l => { l with st := .off, entered := s.mt, out := .slp, recorded := none }).bump 3

/-- Entry to FAULT with its code; a retry that fails with the same code writes no further record (R100). -/
def State.linkFault (s : State) (n : Fin 64) (code : Nat) : State :=
  let again := s.stalls[n].link.recorded == some code
  let s := s.setLink n fun l => { l with st := .fault, entered := s.mt, faultCode := code, recorded := some code }
  if again then s.bump 3 else s.log 0x0301 n.val code 0

/-- A stall assigned to no bay whose link is out of RUN is not classified and does not coast (R163). -/
def noCoast (x : Stall) : Stall :=
  let out := x.bay.isNone && x.link.st != .run
  { x with coasting := x.coasting && !out, coastCnt := if out then 0 else x.coastCnt }

/-- Entry to SLEEP: SLP four times, then electrical idle (R99, R104); the unassigned stall no longer coasts (R163). -/
def State.linkSleep (s : State) (n : Fin 64) : State :=
  ((s.setLink n fun l => { l with st := .sleep, entered := s.mt, out := .slp }).setStall n noCoast).bump 3

/-- The link leaves RUN for ALIGN (R99). -/
def State.linkDown (s : State) (n : Fin 64) (code : Nat) : State :=
  ((s.setLink n fun l => { l with st := .align, entered := s.mt, out := .idl, faultCode := code, evtDown := satInc 8 l.evtDown }).setStall n noCoast).bump 3

/-- One MST ordered set: K28.0, SIDE in bit 0, EPOCH little-endian (R94). -/
def mstSet (side epoch : Nat) : List (Bool × Byte) :=
  [(true, 0x1C), (false, byte (side % 2)), (false, byte epoch), (false, byte (epoch / 256))]

/-- The eight characters of MST: the ordered set twice in immediate succession (R94). -/
def mstChars (side epoch : Nat) : List (Bool × Byte) := mstSet side epoch ++ mstSet side epoch

/-- Does the transmitter of the link run: it is not in the electrical idle of OFF and SLEEP (R99)? -/
def transmits (l : Link) : Bool := l.st != .off && l.st != .sleep

/-- MST leaves on the link of a module that holds ACTIVE, whatever the link's training has reached (R94, R95). -/
def State.sendMst (s : State) (n : Fin 64) : State :=
  if s.active && transmits s.stalls[n].link then s.setLink n fun l => { l with mst := mstChars s.pair.side s.pair.epoch } else s

/-- MST leaves on each stall link (R95). -/
def State.sendMstAll (s : State) : State := s.forAll 64 fun n s => s.sendMst n

/-- The reference I_FS and V_FS (R148): the first stall to reach RUN gives it, the lowest-numbered of one boundary. -/
def State.takeReference (s : State) (n : Fin 64) (boundary : Nat) : State :=
  let l := s.stalls[n].link
  let take := match s.stl.reference with
    | none => true
    | some _ => s.stl.refAt == boundary && decide (n.val < s.stl.refStall)
  let s := if take then { s with stl := { s.stl with reference := some (l.iFs, l.vFs), refAt := boundary, refStall := n.val } } else s
  let s := s.setStall n fun x => { x with scale := s.stl.reference != some (x.link.iFs, x.link.vFs) }
  if take then
    s.forAll 64 (fun k s => if s.stalls[k].link.st = .run then
      s.setStall k fun x => { x with scale := s.stl.reference != some (x.link.iFs, x.link.vFs) } else s)
  else s

/-- Entry to RUN on the confirming reply (R101 step 6): MST, then pitch frames from the next boundary. -/
def State.linkRun (s : State) (n : Fin 64) : State :=
  let b := s.nextBoundary s.mt
  let s := s.setLink n fun l =>
    { l with st := .run, entered := s.mt, recorded := none, silent := 0, runFrom := b, out := .idl, lastSampleTime := none }
  ((s.takeReference n b).sendMst n).bump 3

/-- R520: the open timeout of a STOPPING stall restarts at the first pitch in RUN under the new image. -/
def State.restartOpen (s : State) (n : Fin 64) : State :=
  let x := s.stalls[n]
  if x.restartOpen && x.st == .stopping then
    let due := (s.stallRec n).map fun r => x.link.runFrom + r.tOpen * 100000 + ms 5
    s.setStall n fun x => { x with restartOpen := false, openDue := due }
  else s

/-- Does a link sleep now: SLEEP_REQ, RUN, unassigned with all paths open (R99)? -/
def sleepsNow (x : Stall) (held : Bool) : Bool :=
  x.link.sleepReq && x.link.st == .run && x.bay.isNone && !held && (match x.up with | some u => u.matrixFb == 0xF | none => false)

/-- The link sleeps where R99 lets it. -/
def State.trySleep (s : State) (n : Fin 64) : State := if sleepsNow s.stalls[n] (s.slotOf n).isSome then s.linkSleep n else s

/-! ## Capture buffer (R109) -/

/-- A frame is stored while recording; the buffer keeps the 2 ms before the newest frame. -/
def State.capStore (s : State) (r : CapRec) : State :=
  if s.stl.frozen then s
  else { s with stl := { s.stl with cap := (s.stl.cap.filter fun x => decide (r.at_ ≤ x.at_ + 2000000)) ++ [r] } }

/-- Number of stalls with CAP_EN (STL.CAP_STAT.ENABLED). -/
def State.capEnabled (s : State) : Nat := sumNat ((fins 64).map fun n => b2n s.stalls[n].link.capEn)

/-! ## Training replies (R101 to R103) -/

/-- The first of the codes 0x05 to 0x07 that a reply fails, judged on every reply (R103). DESIGN CHOICE (log 103): where one
reply fails several of them, the lowest code is shown. -/
def replyRefusal (s : State) (n : Fin 64) (r : TrainReply) : Option Nat :=
  let mask := match s.stallRec n with | some x => x.cellMask | none => 0
  if r.fitted &&& mask ≠ mask then some 5
  else if r.tLoad > 100 ∨ r.turnNs > 20000 then some 6
  else if s.paired && !r.ports.testBit 0 then some 7 else none

/-- Least of the estimates. -/
def minInt (xs : List Int) : Int := match xs with | [] => 0 | x :: r => r.foldl min x

/-- Largest of the estimates. -/
def maxInt (xs : List Int) : Int := match xs with | [] => 0 | x :: r => r.foldl max x

/-- The first of the codes 0x03 and 0x04 that four estimates fail (R103). DESIGN CHOICE (log 103): the lower code is shown
where both fail. -/
def estimateRefusal (cableM : Nat) (es : List Int) : Option Nat :=
  if maxInt es > 5 * cableM then some 3 else if maxInt es - minInt es > 16 then some 4 else none

/-- The effect of a reply in time with the right TAG. -/
def State.takeReply (s : State) (n : Fin 64) (suf : Nat) (r : TrainReply) : State :=
  let l0 := s.stalls[n].link
  let s := s.setLink n fun l =>
    { l with turnNs := r.turnNs, hwVer := r.hwVer, cellFitted := r.fitted, tLoad := r.tLoad, portNo := bits r.ports 1 1,
             dual := r.ports.testBit 0, iFs := r.iFs, vFs := r.vFs, maker := r.maker }
  match replyRefusal s n r with
  | some c => s.linkFault n c
  | none =>
    if l0.confirming then (s.linkRun n).restartOpen n
    else
      let num : Int := (suf : Int) - l0.txTime - r.turnNs
      let d : Int := -((-num) / 2)
      let es := l0.estimates ++ [d]
      let s := s.setLink n fun l => { l with estimates := es }
      if es.length < 4 then s.sendConfig n 0 false
      else
        let delay := (maxInt es).toNat
        let s := s.setLink n fun l => { l with delayNs := delay % 65536 }
        match estimateRefusal s.cableM es with
        | some c => s.linkFault n c
        | none => s.sendConfig n delay true

/-- TRAINING_REPLY (R74, R101 to R103). DESIGN CHOICE (log 104): a reply that does not echo the TAG of the last configuration
frame is ignored wholly, and so is one that comes while the module may not train (log 115). -/
def doTrainingReply (t : Nat) (n : Fin 64) (suf : Nat) (clean : Bool) (b : Bytes) : State → State :=
  whenLive t fun s =>
    if !frameOk 0x51 32 clean b then s.setLink n fun l => { l with errCrc := satInc 16 l.errCrc }
    else
      let l := s.stalls[n].link
      let r := trainReplyOf b
      if l.st == .train && r.tag == l.tag && !expired t (l.entered + ms 2) && s.mayTrain then s.takeReply n suf r else s

/-! ## Link events -/

/-- LINK_ALIGNED (R99): in time, ALIGN passes to TRAIN. -/
def doLinkAligned (t : Nat) (n : Fin 64) : State → State :=
  whenLive t fun s => if s.stalls[n].link.st == .align && !expired t (s.stalls[n].link.entered + ms 1) && s.mayTrain then s.linkTrain n else s

/-- ALIGN_TIMEOUT (R99, R103 code 0x01). -/
def doAlignTimeout (t : Nat) (n : Fin 64) : State → State :=
  whenLive t fun s => if s.stalls[n].link.st == .align && expired t (s.stalls[n].link.entered + ms 1) then s.linkFault n 1 else s

/-- TRAIN_TIMEOUT (R99, R103 code 0x02). -/
def doTrainTimeout (t : Nat) (n : Fin 64) : State → State :=
  whenLive t fun s => if s.stalls[n].link.st == .train && expired t (s.stalls[n].link.entered + ms 2) then s.linkFault n 2 else s

/-- LINK_DOWN_CODE (R99, code 0x08). -/
def doLinkDownCode (t : Nat) (n : Fin 64) : State → State :=
  whenLive t fun s => if s.stalls[n].link.st == .run then s.linkDown n 8 else s

/-- LINK_DOWN_SILENT (R99, code 0x09): 64 consecutive pitches without a usable uplink. -/
def doLinkDownSilent (t : Nat) (n : Fin 64) : State → State :=
  whenLive t fun s => if s.stalls[n].link.st == .run && decide (64 ≤ s.stalls[n].link.silent) then s.linkDown n 9 else s

/-- LINK_FAULT_RETRY (R99): 100 ms in FAULT have elapsed. -/
def doLinkFaultRetry (t : Nat) (n : Fin 64) : State → State :=
  whenLive t fun s => if s.stalls[n].link.st == .fault && decide (s.stalls[n].link.entered + ms 100 ≤ t) then s.linkAlign n else s

/-- CAPTURE_FRAME (R74, R105, R109). -/
def doCaptureFrame (t : Nat) (n : Fin 64) (scf : Nat) (clean : Bool) (b : Bytes) : State → State :=
  whenLive t fun s =>
    if !frameOk 0x31 76 clean b then s.setLink n fun l => { l with errCrc := satInc 16 l.errCrc }
    else if s.stalls[n].link.st == .run && s.stalls[n].link.capEn then s.capStore ⟨scf, n.val, 0x31, b.take 72⟩
    else s

/-! ## STL commands (R111) -/

/-- Address of STL.CTRL of stall `n`. -/
def stlAddr (n : Fin 64) (off : Nat) : Nat := 0x00200000 + n.val * 0x1000 + off

/-- The effect of RETRAIN: FAULT is left at once, other states ignore it (R111). -/
def State.retrain (s : State) (n : Fin 64) : State := if s.stalls[n].link.st == .fault then s.linkAlign n else s

/-- The effect of writing SLEEP_REQ (R99, R100). -/
def State.writeSleep (s : State) (n : Fin 64) (on : Bool) : State :=
  let s := s.setLink n fun l => { l with sleepReq := on }
  if on then s.trySleep n else if s.stalls[n].link.st == .sleep then s.linkAlign n else s

/-- May CAP_EN be written: not a 33rd stall (R108)? -/
def capRefusal (s : State) (n : Fin 64) (on : Bool) : Option Answer :=
  refuseIf (on && !s.stalls[n].link.capEn && decide (32 ≤ s.capEnabled)) (deny .state)

/-- The effect of writing CAP_EN. -/
def State.writeCapEn (s : State) (n : Fin 64) (on : Bool) : State := s.setLink n fun l => { l with capEn := on }

/-- The effect of CLR_CNT of STL.CTRL. -/
def State.stlClear (s : State) (n : Fin 64) : State :=
  s.setLink n fun l => { l with errCrc := 0, errLate := 0, errTime := 0, evtHold := 0, evtTrip := 0, evtDown := 0 }

/-- The effect of ARM: the buffer resumes recording (R109). DESIGN CHOICE (log 109): the records already held and the values of
TRIG_SRC and TRIG_STALL stay. -/
def State.capArm (s : State) : State :=
  ({ s with stl := { s.stl with frozen := false, armed := true } }).bumpIf s.stl.frozen 15

/-- RETRAIN (R99). -/
def doRetrain (t : Nat) (m : Master) (n : Fin 64) : State → State :=
  whenLive t fun s => s.command m (stlAddr n 0) (foreign s m) fun s => s.retrain n

/-- SLEEP_REQ (R100). -/
def doSleepReq (t : Nat) (m : Master) (n : Fin 64) (on : Bool) : State → State :=
  whenLive t fun s => s.command m (stlAddr n 0) (foreign s m) fun s => s.writeSleep n on

/-- CAP_EN (R108). -/
def doCapEn (t : Nat) (m : Master) (n : Fin 64) (on : Bool) : State → State :=
  whenLive t fun s => s.command m (stlAddr n 0) (firstOf (foreign s m) (capRefusal s n on)) fun s => s.writeCapEn n on

/-- STL_CLR_CNT (R111). -/
def doStlClrCnt (t : Nat) (m : Master) (n : Fin 64) : State → State :=
  whenLive t fun s => s.command m (stlAddr n 0) (foreign s m) fun s => s.stlClear n

/-- CAP_TRIG (R109). -/
def doCapTrig (t : Nat) (m : Master) : State → State :=
  whenLive t fun s => s.command m 0x00240000 (foreign s m) fun s => s.capFreeze 1 0xFF

/-- CAP_ARM (R109). -/
def doCapArm (t : Nat) (m : Master) : State → State :=
  whenLive t fun s => s.command m 0x00240000 (foreign s m) fun s => s.capArm

/-! ## Meanings -/

/-- Meaning of TRAINING_REPLY (R103). -/
def execTrainingReply (t : Nat) (stall : Fin 64) (suf : Nat) (clean : Bool) (bytes : Bytes) (s : State) : Host.Outcome State Fault Refusal :=
  .next (doTrainingReply t stall suf clean bytes s)

/-- Meaning of CAPTURE_FRAME (R109). -/
def execCaptureFrame (t : Nat) (stall : Fin 64) (scf : Nat) (clean : Bool) (bytes : Bytes) (s : State) : Host.Outcome State Fault Refusal :=
  .next (doCaptureFrame t stall scf clean bytes s)

/-- Meaning of LINK_ALIGNED (R99). -/
def execLinkAligned (t : Nat) (stall : Fin 64) (s : State) : Host.Outcome State Fault Refusal :=
  .next (doLinkAligned t stall s)

/-- Meaning of ALIGN_TIMEOUT (R99). -/
def execAlignTimeout (t : Nat) (stall : Fin 64) (s : State) : Host.Outcome State Fault Refusal :=
  .next (doAlignTimeout t stall s)

/-- Meaning of TRAIN_TIMEOUT (R99). -/
def execTrainTimeout (t : Nat) (stall : Fin 64) (s : State) : Host.Outcome State Fault Refusal :=
  .next (doTrainTimeout t stall s)

/-- Meaning of LINK_DOWN_CODE (R99). -/
def execLinkDownCode (t : Nat) (stall : Fin 64) (s : State) : Host.Outcome State Fault Refusal :=
  .next (doLinkDownCode t stall s)

/-- Meaning of LINK_DOWN_SILENT (R99). -/
def execLinkDownSilent (t : Nat) (stall : Fin 64) (s : State) : Host.Outcome State Fault Refusal :=
  .next (doLinkDownSilent t stall s)

/-- Meaning of LINK_FAULT_RETRY (R99). -/
def execLinkFaultRetry (t : Nat) (stall : Fin 64) (s : State) : Host.Outcome State Fault Refusal :=
  .next (doLinkFaultRetry t stall s)

/-- Meaning of RETRAIN (R99). -/
def execRetrain (t : Nat) (m : Master) (stall : Fin 64) (s : State) : Host.Outcome State Fault Refusal :=
  .next (doRetrain t m stall s)

/-- Meaning of SLEEP_REQ (R100). -/
def execSleepReq (t : Nat) (m : Master) (stall : Fin 64) (on : Bool) (s : State) : Host.Outcome State Fault Refusal :=
  .next (doSleepReq t m stall on s)

/-- Meaning of CAP_EN (R108). -/
def execCapEn (t : Nat) (m : Master) (stall : Fin 64) (on : Bool) (s : State) : Host.Outcome State Fault Refusal :=
  .next (doCapEn t m stall on s)

/-- Meaning of CAP_TRIG (R109). -/
def execCapTrig (t : Nat) (m : Master) (s : State) : Host.Outcome State Fault Refusal :=
  .next (doCapTrig t m s)

/-- Meaning of CAP_ARM (R109). -/
def execCapArm (t : Nat) (m : Master) (s : State) : Host.Outcome State Fault Refusal :=
  .next (doCapArm t m s)

/-- Meaning of STL_CLR_CNT (R111). -/
def execStlClrCnt (t : Nat) (m : Master) (stall : Fin 64) (s : State) : Host.Outcome State Fault Refusal :=
  .next (doStlClrCnt t m stall s)

end Sys2Proof.Machine
end

