-- ==== Sys2Proof/Machine/Lattice.lean ====
section
/-! DEFINITION. The lattice engine: its fixed-point arithmetic (R113 to R122), the tile templates (R128 to R131), the
schedule of a lane against its deadline (R132 to R136), tile memory as the host reads it (R145). -/
namespace Sys2Proof.Machine

/-! ## Arithmetic -/

/-- An accumulator value with the saturations so far (R117). -/
structure Acc where
  a : Int
  sat : Nat
  deriving DecidableEq, Repr

/-- A value held in the 40-bit range (R117). -/
def Acc.hold (sat : Nat) (x : Int) : Acc :=
  if x < -(2 ^ 39) then ⟨-(2 ^ 39), sat + 1⟩ else if 2 ^ 39 - 1 < x then ⟨2 ^ 39 - 1, sat + 1⟩ else ⟨x, sat⟩

/-- A preload of the sum of Q15 operands (R116). -/
def preQ (p : Int) : Acc := Acc.hold 0 (p * 2 ^ 16)

/-- A preload of a wide operand (R116). -/
def preW (w : Int) : Acc := Acc.hold 0 w

/-- One product of exponent `e` added to the accumulator (R115). -/
def Acc.mac (x : Acc) (a b : Int) (e : Nat) : Acc := Acc.hold x.sat (x.a + a * b * 2 ^ (1 + e))

/-- A Q15 result or a wide result, with the saturations of its accumulation. -/
structure Res where
  q : Int
  sat : Nat
  deriving DecidableEq, Repr

/-- The bit-exact rounding of R118, before its limits: the upper bits, rounded to nearest with ties to even. -/
def roundQ (a : Int) : Int :=
  let q := a / 65536
  let r := a % 65536
  if r > 0x8000 ∨ (r = 0x8000 ∧ q % 2 = 1) then q + 1 else q

/-- Extraction to a Q15 result with bounds (R118). -/
def Acc.q (x : Acc) (lo hi : Int) : Res :=
  let q := roundQ x.a
  let s := if q > 32767 ∨ q < -32768 then 1 else 0
  ⟨min (max (clampInt (-32768) 32767 q) lo) hi, x.sat + s⟩

/-- Extraction without named bounds. -/
def Acc.q0 (x : Acc) : Res := x.q (-32768) 32767

/-- Extraction with a clamp of plus or minus `h`. -/
def Acc.qh (x : Acc) (h : Int) : Res := x.q (-h) h

/-- Extraction to a wide result (R119). -/
def Acc.w (x : Acc) : Res :=
  if x.a < -(2 ^ 31) ∨ 2 ^ 31 - 1 < x.a then ⟨clampInt (-(2 ^ 31)) (2 ^ 31 - 1) x.a, x.sat + 1⟩ else ⟨x.a, x.sat⟩

/-- The operand and exponent of the constant 1 (R120). -/
def one15 : Int := 0x4000

/-- Exponent nibble `j` of an EXP word; bit 3 is ignored (R129). -/
def expOf (w : Int) (j : Nat) : Nat := bits (fieldOf 16 w) (4 * j) 3

/-- The wide value of two state words, low word first (R113). -/
def wideOf (lo hi : Int) : Int := signedOf 32 (fieldOf 16 lo + 65536 * fieldOf 16 hi)

/-- The low word of a wide value. -/
def wideLo (w : Int) : Int := signedOf 16 (fieldOf 32 w)

/-- The high word of a wide value. -/
def wideHi (w : Int) : Int := signedOf 16 (fieldOf 32 w / 65536)

/-- A quotient times 32 768, rounded to nearest with ties to even (R147). -/
def quotQ15 (num : Int) (den : Nat) : Int :=
  let n := num * 32768
  let q := n / (den : Int)
  let r := 2 * (n % (den : Int))
  if r > den ∨ (r = den ∧ q % 2 = 1) then q + 1 else q

/-! ## Tile templates (R130) -/

/-- What a tile computes in a pitch: its state words, its outputs, its saturations. -/
structure TileOut where
  words : List Int
  outs : List Int
  sats : Nat
  deriving DecidableEq, Repr

/-- Inputs of a tile (R125): samples of its stall (I_CELL 0 to 7, V_OUT, V_DC), the bay reference, V_OUT of the sense
stall, IN_A and IN_B, and the last results d of the stall. -/
structure TileIn where
  lane : List Int
  ref : List Int
  v : Int
  inA : List Int
  inB : List Int
  lastD : List Int
  deriving DecidableEq, Repr

/-- Element `i` of a list of words. -/
def wd (xs : List Int) (i : Nat) : Int := xs.getD i 0

/-- Cell-current PI of cell `c`. -/
def runCellPi (k w : List Int) (c : Nat) (x : TileIn) : TileOut :=
  let e0 := expOf (wd k 10)
  let e1 := expOf (wd k 11)
  let i := wd x.lane c
  let lim := min (wd k 9) (wd x.ref 2)
  let ir := (preW 0).mac (wd w 5) (wd x.ref 0) 0 |>.qh lim
  let e := (preQ (ir.q - i)).mac (-(wd k 0)) i (e1 2) |>.q0
  let xw := (preW (wideOf (wd w 0) (wd w 1))).mac (wd k 1) e.q (e0 0) |>.mac (wd k 2) (wd w 2) (e0 1) |>.mac (-(wd k 2)) (wd w 3) (e0 1) |>.w
  let acc := (preW xw.q).mac (wd k 3) e.q (e0 2) |>.mac (wd k 4) (wd x.ref 1) (e0 3) |>.mac (wd k 5) (wd x.ref 3) (e1 0) |>.mac (-(wd k 6)) i (e1 1) |>.mac (wd k 6) (wd w 4) (e1 1)
  let uu := acc.q0
  let us := { acc with sat := 0 }.q (wd k 7) (wd k 8)
  let d := (preQ (wd x.inA c)).mac (wd x.inB 10) us.q (e1 3) |>.q0
  ⟨[wideLo xw.q, wideHi xw.q, us.q, uu.q, i, wd w 5, wd w 6, wd w 7], [d.q], ir.sat + e.sat + xw.sat + uu.sat + us.sat + d.sat⟩

/-- Bay-voltage PI. -/
def runBayPi (k w : List Int) (x : TileIn) : TileOut :=
  let e0 := expOf (wd k 4)
  let e := (preQ (wd x.inA 0)).mac (wd w 4) x.v 2 |>.q0
  let xw := (preW (wideOf (wd w 0) (wd w 1))).mac (wd k 0) e.q (e0 0) |>.mac (wd k 1) (wd w 2) (e0 1) |>.mac (-(wd k 1)) (wd w 3) (e0 1) |>.w
  let acc := (preW xw.q).mac (wd k 2) e.q (e0 2) |>.mac (wd k 3) (wd x.inA 1) (e0 3)
  let iu := acc.q0
  let is := { acc with sat := 0 }.q (wd w 5) (wd w 6)
  ⟨[wideLo xw.q, wideHi xw.q, is.q, iu.q, wd w 4, wd w 5, wd w 6, wd w 7], [is.q], e.sat + xw.sat + iu.sat + is.sat⟩

/-- Notch biquad. -/
def runNotch (k w : List Int) (x : TileIn) : TileOut :=
  let e0 := expOf (wd k 5)
  let a := wd x.inA 0
  let y := (preW 0).mac (wd k 0) a (e0 0) |>.mac (wd k 1) (wd w 0) (e0 1) |>.mac (wd k 2) (wd w 1) (e0 2) |>.mac (wd k 3) (wd w 2) (e0 3) |>.mac (wd k 4) (wd w 3) (expOf (wd k 6) 0) |>.q0
  ⟨[a, wd w 0, y.q, wd w 2], [y.q], y.sat⟩

/-- Feed-forward. -/
def runFeedForward (k w : List Int) (x : TileIn) : TileOut :=
  let e0 := expOf (wd k 10)
  let e1 := expOf (wd k 11)
  let vr := wd x.inA 0
  let ir := wd x.inB 0
  let o0 := (preW 0).mac (wd w 1) ir 4 |>.q0
  let o1 := (preW 0).mac (wd k 0) vr (e0 0) |>.mac (wd k 1) ir (e0 1) |>.mac (wd k 2) ir (e0 2) |>.mac (-(wd k 2)) (wd w 0) (e0 2) |>.q0
  let o2 := (preQ (wd k 3)).mac (wd k 4) x.v (e0 3) |>.q 0 (wd k 5)
  let o3 := (preQ (wd k 8)).mac (wd k 6) vr (e1 0) |>.mac (wd k 7) x.v (e1 1) |>.q 0 (wd k 9)
  ⟨[ir, wd w 1, wd w 2, wd w 3], [o0.q, o1.q, o2.q, o3.q], o0.sat + o1.sat + o2.sat + o3.sat⟩

/-- Plant model. -/
def runPlant (k w : List Int) (x : TileIn) : TileOut :=
  let e0 := expOf (wd k 39)
  let e1 := expOf (wd k 40)
  let e2 := expOf (wd k 41)
  let vo := wd x.lane 8
  let vd := wd x.lane 9
  let est := (List.range 8).map fun i =>
    let q := (preW 0).mac (wd x.lastD i) vd 0 |>.q0
    let r := (preW 0).mac (wd k i) (wd w i) (e0 0) |>.mac (wd k (8 + i)) q.q (e0 1) |>.mac (wd k (16 + i)) vo (e0 2) |>.mac (wd k (24 + i)) (wd x.lane i) (e0 3) |>.q0
    (r.q, q.sat + r.sat)
  let er := (preQ (wd k 32)).mac (-vd) (wd w 10) 0 |>.q0
  let rho := (preQ (wd w 10)).mac (wd w 10) er.q (e2 2) |>.q 0 32767
  let vo' := (preW 0).mac (wd k 33) (wd w 8) (e1 0) |>.mac (wd k 34) vo (e1 1) |>.mac (wd k 35) (wd x.ref 0) (e1 2) |>.q0
  let vd' := (preW 0).mac (wd k 36) (wd w 9) (e1 3) |>.mac (wd k 37) vd (e2 0) |>.mac (wd k 38) (wd x.ref 0) (e2 1) |>.q0
  let outs := est.map (·.1) ++ [vo'.q, vd'.q, rho.q]
  ⟨outs ++ [wd w 11], outs, sumNat (est.map (·.2)) + er.sat + rho.sat + vo'.sat + vd'.sat⟩

/-- Arc generator. -/
def runArc (k w : List Int) : TileOut :=
  let e0 := expOf (wd k 9)
  let e1 := expOf (wd k 10)
  let p := wideOf (wd w 0) (wd w 1)
  let e := (preQ (wd w 4)).mac (-one15) (wd w 1) 1 |>.q0
  let rd := (preW 0).mac (wd k 0) e.q (e0 0) |>.qh (wd k 1)
  let ad := (preW 0).mac (wd k 2) rd.q (e0 1) |>.mac (-(wd k 2)) (wd w 2) (e0 1) |>.qh (wd k 3)
  let da := (preQ ad.q).mac (-one15) (wd w 3) 1 |>.qh (wd k 4)
  let a := (preQ (wd w 3)).mac one15 da.q 1 |>.qh (wd k 3)
  let r := (preQ (wd w 2)).mac (wd k 5) a.q (e0 2) |>.qh (wd k 1)
  let acc := (preW p).mac (wd k 6) r.q (e0 3) |>.mac (wd k 7) a.q (e1 0) |>.mac (wd k 8) da.q (e1 1)
  let pw := acc.w
  let o := { acc with sat := 0 }.q0
  ⟨[wideLo pw.q, wideHi pw.q, r.q, a.q, wd w 4, wd w 5], [o.q, r.q], e.sat + rd.sat + ad.sat + da.sat + a.sat + r.sat + pw.sat + o.sat⟩

/-- Balance trim; a cell whose WM is 0 keeps its trim, and that step counts no saturation (R131). -/
def runTrim (k w : List Int) (x : TileIn) : TileOut :=
  let e := expOf (wd k 2) 0
  let m := ((List.range 8).foldl (fun (a : Acc) i => a.mac (wd w (8 + i)) (wd x.lane i) 0) (preW 0)).q0
  let ts := (List.range 8).map fun i =>
    if wd w (8 + i) = 0 then (wd w i, 0)
    else let r := (preQ (wd w i + m.q)).mac (-(wd k 0)) (wd x.lane i) e |>.qh (wd k 1); (r.q, r.sat)
  ⟨ts.map (·.1) ++ w.drop 8, ts.map (·.1), m.sat + sumNat (ts.map (·.2))⟩

/-- One tile in one pitch (R130). -/
def runTile (t : Tile) (x : TileIn) : TileOut :=
  match t.info.template, t.info.ownerKind with
  | 1, 0 => runCellPi t.coef t.words (t.info.ownerId % 8) x
  | 1, _ => runBayPi t.coef t.words x
  | 2, _ => runNotch t.coef t.words x
  | 3, _ => runFeedForward t.coef t.words x
  | 4, _ => runPlant t.coef t.words x
  | 5, _ => runArc t.coef t.words
  | _, _ => runTrim t.coef t.words x

/-! ## Tiles of an image -/

/-- State words of a tile at activation (R127): zero, but ρ of a plant model starts at K_RHO. -/
def startWords (t : TileRec) : List Int :=
  if t.template = 4 then List.replicate 10 0 ++ [wd t.coef 32, 0] else List.replicate t.stateWords 0

/-- The tiles of an image as activation loads them. -/
def loadTiles (img : Image) : List Tile :=
  img.tiles.map fun t =>
    { info := t, coef := t.coef, words := startWords t, now := List.replicate 16 0, prev := List.replicate 16 0, committed := false }

/-- The tile of a template and an owner. -/
def findTile (ts : List Tile) (template kind owner : Nat) : Option Tile :=
  ts.find? fun t => t.info.template == template && t.info.ownerKind == kind && t.info.ownerId == owner

/-- The tile of an identifier. -/
def tileById (ts : List Tile) (id : Nat) : Option Tile := ts.find? fun t => t.info.tileId == id

/-- The outputs an input names: of the present pitch where the flag says so, else of a previous pitch (R124). -/
def inputOuts (ts : List Tile) (id : Nat) (same : Bool) : List Int :=
  match tileById ts id with | some t => if same then t.now else t.prev | none => []

/-- The stall a cell or stall tile belongs to. -/
def tileStall (t : TileRec) : Option (Fin 64) :=
  match t.ownerKind with | 0 => fin? 64 (t.ownerId / 8) | 1 => fin? 64 t.ownerId | _ => none

/-- The sense stall of a bay (R125): the lowest-numbered stall in RUN assigned to it that has not been sent MATRIX = 0xF since.
DESIGN CHOICE (log 153): RUN is judged at the COMPUTE_DEADLINE command that runs the window. -/
def senseStall (s : State) (b : Fin 12) : Option (Fin 64) :=
  (fins 64).find? fun n => s.stalls[n].laneBay == some b && s.stalls[n].link.st == .run && !s.stalls[n].sentOpen

/-- The bay reference a stall's tiles read (R125): the previous outputs of the bay's feed-forward tile, or zero. -/
def bayRef (s : State) (ts : List Tile) (n : Fin 64) : List Int :=
  match s.stalls[n].laneBay with
  | some b => (match findTile ts 3 2 b.val with | some t => t.prev.take 4 | none => [])
  | none => []

/-- The inputs of a tile in the present pitch (R125, R126). -/
def tileInputs (s : State) (ts : List Tile) (t : TileRec) : TileIn :=
  let inA := inputOuts ts t.inA (t.flags.testBit 0)
  let inB := inputOuts ts t.inB (t.flags.testBit 1)
  match tileStall t with
  | some n => { lane := s.stalls[n].laneIn, ref := bayRef s ts n, v := 0, inA, inB, lastD := s.stalls[n].lastD }
  | none =>
    let v := match (fin? 12 t.ownerId).bind (senseStall s) with | some n => wd s.stalls[n].laneIn 8 | none => 0
    { lane := [], ref := [], v, inA, inB, lastD := [] }

/-! ## The schedule of a lane (R132 to R136) -/

/-- What a lane has done so far in a pitch. -/
structure LaneRun where
  tiles : List Tile
  cycle : Nat
  sats : Nat
  stopped : Bool
  deriving DecidableEq, Repr

/-- Double-bit corrections of a tile in this pitch. -/
def dedOf (ecc : List EccEvent) (lane tile : Nat) : Nat :=
  (ecc.filter fun e => e.lane == lane && e.tile == tile && !e.uncorrectable).length

/-- Did an uncorrectable read abort the tile (R133)? -/
def abortOf (ecc : List EccEvent) (lane tile : Nat) : Bool := ecc.any fun e => e.lane == lane && e.tile == tile && e.uncorrectable

/-- The next tile of the list runs; it commits if its last cycle lies in the window (R135) and no read aborted it. -/
def laneStep (s : State) (window : Nat) (ecc : List EccEvent) (lane : Nat) (x : LaneRun) (id : Nat) : LaneRun :=
  if x.stopped then x
  else
    match tileById x.tiles id with
    | none => x
    | some t =>
      let done := x.cycle + tileCycles t.info + 12 * dedOf ecc lane id
      if done > window then { x with cycle := window, stopped := true }
      else if abortOf ecc lane id then { x with cycle := done }
      else
        let r := runTile t (tileInputs s x.tiles t.info)
        { x with tiles := x.tiles.map fun y => if y.info.tileId == id then { y with words := r.words, now := r.outs, committed := true } else y,
                 cycle := done, sats := x.sats + r.sats }

/-- A lane's pitch, from the tiles as the window opened. A lane with a cycle fault commits nothing (R134, R136). -/
def runLane (s : State) (img : Image) (ecc : List EccEvent) (miscounted : List Nat) (lane : Nat) : LaneRun :=
  let ts := s.lat.tiles
  let order := match img.lanes.find? fun r => r.lane == lane with | some r => r.order | none => []
  let r := order.foldl (laneStep s (windowCycles img.header) ecc lane) { tiles := ts, cycle := 0, sats := 0, stopped := false }
  if miscounted.contains lane then { r with tiles := ts, sats := 0 } else r

/-- The tiles after every lane has run: each tile as its own lane left it. -/
def mergeLanes (ts : List Tile) (runs : List LaneRun) : List Tile :=
  ts.map fun t => match runs[t.info.lane]? with
    | some r => (match tileById r.tiles t.info.tileId with | some x => x | none => t)
    | none => t

/-! ## Tile memory (R145) -/

/-- Offsets of the tiles of a lane in its tile memory, in ORDER. -/
def laneOffsets (img : Image) (high : Bool) (lane : Nat) : List (Nat × Nat) :=
  let order := match img.lanes.find? fun r => r.lane == lane with | some r => r.order | none => []
  let size := fun id => match img.tiles.find? fun t => t.tileId == id with | some t => tileBytes t | none => 0
  let base := if high then 262144 - sumNat (order.map size) else 0
  (order.foldl (fun (acc : List (Nat × Nat) × Nat) id => (acc.1 ++ [(id, acc.2)], acc.2 + size id)) ([], base)).1

/-- The 24 bytes of a tile record's head (R40). -/
def tileHead (t : TileRec) : Bytes :=
  leBytes 2 t.tileId ++ [byte t.template, byte t.lane, byte t.ownerKind, byte t.flags] ++ leBytes 2 t.ownerId ++ leBytes 2 t.macCount ++
  leBytes 2 t.coefWords ++ leBytes 2 t.stateWords ++ leBytes 2 t.inA ++ leBytes 2 t.inB ++ leBytes 2 t.recordLen ++ [0, 0, 0, 0]

/-- The bytes of a tile in tile memory: head, engine bytes (free values), coefficients, state words. -/
def tileMemBytes (t : Tile) : Bytes :=
  tileHead t.info ++ slice (Config.engineBytes t.info.tileId) 0 8 ++ (t.coef ++ t.words).flatMap fun z => leBytes 2 (fieldOf 16 z)

/-- The word at a byte offset of a lane's tile memory that an image placed there with these tiles covers. -/
def imageWord (img : Image) (ts : List Tile) (high : Bool) (lane off : Nat) : Option Nat :=
  ((laneOffsets img high lane).find? fun x => decide (x.2 ≤ off) &&
    (match tileById ts x.1 with | some t => decide (off < x.2 + tileBytes t.info) | none => false)).bind fun x =>
      (tileById ts x.1).map fun t => le (tileMemBytes t) (off - x.2) 4

/-- The image loaded beside the running one for a handover, at the other end of tile memory (R145, R355). -/
def besideWord (s : State) (lane off : Nat) : Option Nat :=
  match s.prof.pend with
  | some p => if p.mode = .handover ∧ p.loaded.isSome then imageWord p.image (loadTiles p.image) (!s.lat.high) lane off else none
  | none => none

/-- The word of a lane's tile memory at a byte offset: of the running image, or of one loaded beside it. -/
def tileWord (s : State) (lane off : Nat) : Nat :=
  match s.prof.image.bind fun img => imageWord img s.lat.tiles s.lat.high lane off with
  | some w => w
  | none => (besideWord s lane off).getD 0

/-- The tile of a lane whose part of tile memory covers a byte offset. -/
def tileAt (s : State) (lane off : Nat) : Option Tile :=
  s.prof.image.bind fun img =>
    ((laneOffsets img s.lat.high lane).find? fun x => decide (x.2 ≤ off) &&
      (match tileById s.lat.tiles x.1 with | some t => decide (off < x.2 + tileBytes t.info) | none => false)).bind fun x => tileById s.lat.tiles x.1

end Sys2Proof.Machine
end

