-- ==== Sys2Proof/Machine/Stall.lean ====
section
/-! DEFINITION. Cells, stalls and moves: the cell states of R158, the stall states of R170 to R175, the steps of a move
slot (R201), coasts (R163 to R169), shedding (R159, R160), and the commands that only touch them. -/
namespace Sys2Proof.Machine

/-! ## Codes of the state machines -/

/-- STL.CSTAT.STATE (R176). -/
def stallCode : StallSt → Nat
  | .idle => 0 | .assigned => 1 | .stopping => 2 | .stopped => 3 | .locked => 4

/-- A field of STL.CELLS (R176). -/
def cellCode : CellSt → Nat
  | .off => 0 | .active => 1 | .shedding => 2 | .shed => 3 | .restoring => 4 | .leaving => 5 | .withdrawn => 6

/-! ## Cells (R158) -/

/-- Full participation. -/
def fullW : Nat := 0x7FFF

/-- The weight of a ramp at its present pitch. -/
def rampW (r : Ramp) : Nat := if r.rising then fullW * r.j / r.len else r.w0 * (r.len - r.j) / r.len

/-- Length in pitches of a ramp over `n` milliseconds. -/
def rampLen (pitchNs n : Nat) : Nat := ceilDiv (n * 1000000) pitchNs

/-- Is the cell commanded ungated by its state? -/
def cellOn (c : CellCtl) : Bool := match c.st with | .active | .shedding | .restoring | .leaving => true | _ => false

/-- Is the cell gated for good: OFF or WITHDRAWN? -/
def cellOut (c : CellCtl) : Bool := c.st == .off || c.st == .withdrawn

/-- The cell OFF with no weight; its phase is kept (R150). -/
def cellOff (c : CellCtl) : CellCtl := { c with st := .off, w := 0, ramp := none }

/-- A falling ramp of `len` pitches from the present weight. -/
def cellFall (st : CellSt) (len : Nat) (c : CellCtl) : CellCtl := { c with st, ramp := some ⟨c.w, max len 1, 0, false, false⟩ }

/-- A rising ramp of `len` pitches, entered from OFF or from SHED. -/
def cellRise (fromOff : Bool) (len : Nat) (c : CellCtl) : CellCtl :=
  { c with st := .restoring, w := 0, ramp := some ⟨0, max len 1, 0, true, fromOff⟩ }

/-- The stall leaves its bay or enters STOPPING: ungated cells fall over `len` pitches; a SHED cell, already gated with
weight 0, is OFF at once. -/
def cellLeave (len : Nat) (c : CellCtl) : CellCtl :=
  match c.st with
  | .active | .shedding | .restoring => cellFall .leaving len c
  | .shed => cellOff c
  | _ => c

/-- One pitch boundary passes: a running ramp takes its next step (R158). -/
def cellStep (c : CellCtl) : CellCtl :=
  match c.ramp with
  | some r => if r.j < r.len then let r' := { r with j := r.j + 1 }; { c with ramp := some r', w := rampW r' } else c
  | none => c

/-- The state a cell passes to when its ramp has reached its end value. -/
def cellEnd (c : CellCtl) : CellCtl :=
  match c.st with
  | .shedding => { c with st := .shed, w := 0, ramp := none }
  | .restoring => { c with st := .active, w := fullW, ramp := none }
  | .leaving => cellOff c
  | _ => c

/-- Has the ramp of the cell reached its end? -/
def cellDone (c : CellCtl) : Bool := match c.ramp with | some r => decide (r.len ≤ r.j) | none => false

/-- A load step (R158): SHEDDING, and RESTORING from SHED, take full weight; a SHED cell of a stall that does not coast
starts its rise (R165). -/
def cellLoadStep (coasting : Bool) (len : Nat) (c : CellCtl) : CellCtl :=
  match c.st with
  | .shedding => { c with st := .active, w := fullW, ramp := none }
  | .restoring => if (match c.ramp with | some r => r.fromOff | none => false) then c else { c with st := .active, w := fullW, ramp := none }
  | .shed => if coasting then c else cellRise false len c
  | _ => c

/-- Every cell of a stall changed. -/
def State.mapCells (s : State) (n : Fin 64) (f : Fin 8 → CellCtl → CellCtl) : State := s.setStall n fun x => { x with cells := vmap f x.cells }

/-- Are all cells of the stall OFF or WITHDRAWN? -/
def cellsOut (x : Stall) : Bool := x.cells.toList.all cellOut

/-- Is any cell of the stall in this state? -/
def anyCell (x : Stall) (st : CellSt) : Bool := x.cells.toList.any fun c => c.st == st

/-! ## Move slots (R201) -/

/-- Slot `k` changed. -/
def State.setMove (s : State) (k : Fin 8) (f : MoveSlot → MoveSlot) : State := { s with mkt := { s.mkt with moves := vupd s.mkt.moves k f } }

/-- The slot becomes FREE; a completed move is counted. Every move that ends increments the MKT counter (R205). -/
def State.freeMove (s : State) (k : Fin 8) (count : Bool) : State :=
  let s := s.setMove k fun _ => {}
  (if count then { s with mkt := { s.mkt with movesDone := satInc 16 s.mkt.movesDone } } else s).bump 5

/-- A stop takes over from the stall's move, whose slot becomes FREE (R201). -/
def State.endMoveOf (s : State) (n : Fin 64) : State := match s.slotOf n with | some k => s.freeMove k false | none => s

/-! ## Stall states (R170) -/

/-- Is a stop of this cause counted by R174? -/
def countedCause (c : Nat) : Bool := decide (1 ≤ c ∧ c ≤ 6)

/-- Stamps younger than RESTART_WIN; while the over-temperature latch is set their ages stand still, and one made in that time
is of age 0 (R175). -/
def liveStamps (s : State) (x : Stall) : List Nat :=
  let now := if x.otLatch then x.otSince else s.mt
  x.stamps.filter fun q => decide (now - q < secs s.stl.restartWin)

/-- The stall assigned to a bay, or to none, from market time `t` on (R21, R521). -/
def Stall.place (x : Stall) (b : Option (Fin 12)) (t : Nat) : Stall :=
  { x with bay := b, bayAt := if x.bay = b then x.bayAt else t, bayOld := if x.bay = b then x.bayOld else x.bay }

/-- The assignment a consumer takes over at `t`: that of the latest commit stamped at or before `t` (R23). -/
def Stall.bayBy (x : Stall) (t : Nat) : Option (Fin 12) := if x.bayAt ≤ t then x.bay else x.bayOld

/-- STL.CSTAT.RESTARTS: four bits. -/
def restarts (s : State) (x : Stall) : Nat := min 15 (liveStamps s x).length

/-- Entry to LOCKED with its record (R170). -/
def State.lockStall (s : State) (n : Fin 64) (cause : Nat) : State :=
  let s := s.setStall n fun x => noCoast { x.place none s.mt with st := .locked, cause, matrix := none, gatedOut := true, openDue := none }
  s.log 0x0304 n.val cause (restarts s s.stalls[n])

/-- Entry to STOPPED: stamped where its cause counts, REARM sent once (R170, R174). The restart limit is applied where the stall
would leave STOPPED. -/
def State.enterStopped (s : State) (n : Fin 64) : State :=
  (s.setStall n fun x =>
    noCoast { x.place none s.mt with
      st := .stopped, restDue := s.mt + ms s.stl.restMs, matrix := none, openDue := none, gatedOut := true, rearmPend := true,
      stamps := if countedCause x.cause then s.mt :: x.stamps else x.stamps }).bump 3

/-- The stall enters STOPPING: counted in STL.STOPS (R176). -/
def State.countStop (s : State) (n : Fin 64) (cause : Nat) : State :=
  (s.setStall n fun x => { x with st := .stopping, cause, stopsTotal := satInc 16 x.stopsTotal,
                                  stopsOt := if cause = 7 then satInc 8 x.stopsOt else x.stopsOt }).bump 3

/-- Is the stall held by a move? -/
def State.held (s : State) (n : Fin 64) : Bool := (s.slotOf n).isSome

/-- The fast path of R170: every cell OFF, GATE = 0xFF and MATRIX = 0xF in the next frame, no ramp. An IDLE stall that no
move holds is already gated and open. -/
def State.fastPath (s : State) (n : Fin 64) (cause : Nat) : State :=
  let x := s.stalls[n]
  if x.st = .assigned ∨ (x.st = .idle ∧ s.held n) then
    let s := (s.endMoveOf n).mapCells n fun _ c => cellOff c
    (s.setStall n fun y => { y with gatedOut := true, matrix := none, openDue := none }).countStop n cause
  else if x.st = .stopping then
    let s := s.mapCells n fun _ c => cellOff c
    s.setStall n fun y => { y with gatedOut := true, matrix := none, cause, openDue := if y.gatedOut then y.openDue else none }
  else s

/-- Ramp of the stall record, in pitches. -/
def State.stallRamp (s : State) (n : Fin 64) : Nat := match s.stallRec n with | some r => rampLen s.pitchNs r.rampMs | none => 1

/-- When a STOPPING stall's cells are all OFF or WITHDRAWN, it is gated with its path open in one frame (R170). -/
def State.gateWhenOut (s : State) (n : Fin 64) : State :=
  let x := s.stalls[n]
  if x.st = .stopping ∧ cellsOut x ∧ !x.gatedOut then s.setStall n fun y => { y with gatedOut := true, matrix := none, openDue := none } else s

/-- A stop request is taken at a tick (R170). -/
def State.takeStop (s : State) (n : Fin 64) : State :=
  match s.stalls[n].stopReq with
  | none => s
  | some cause =>
    let s := s.setStall n fun x => { x with stopReq := none }
    match s.stalls[n].st with
    | .assigned =>
      let len := s.stallRamp n
      let s := (s.endMoveOf n).mapCells n fun _ c => cellLeave len c
      (s.countStop n cause).gateWhenOut n
    | .idle =>
      if s.held n then
        ((s.endMoveOf n).setStall n fun y => { y with gatedOut := true, matrix := none, openDue := none }).countStop n cause
      else
        let s := s.setStall n fun x => { x with cause, stopsOt := if cause = 7 then satInc 8 x.stopsOt else x.stopsOt }
        s.enterStopped n
    | _ => s

/-- The stall becomes IDLE: no bay, cells gated. -/
def State.becomeIdle (s : State) (n : Fin 64) : State :=
  (s.setStall n fun x => { x.place none s.mt with st := .idle, gatedOut := false, rearmTicks := 0 }).bump 3

/-! ## Steps of a move -/

/-- RAMP_DOWN passes to OPENING when every cell is OFF or WITHDRAWN: all gated, all paths open in one frame. -/
def State.moveRampDone (s : State) (n : Fin 64) : State :=
  match s.slotOf n with
  | none => s
  | some k =>
    let m := s.mkt.moves[k]
    if m.phase = .rampDown ∧ cellsOut s.stalls[n] then
      (s.setMove k fun m => { m with phase := .opening, deadline := none }).setStall n fun x => { x with matrix := none }
    else if m.phase = .rampUp ∧ !anyCell s.stalls[n] .restoring then s.freeMove k true
    else s

/-- A close has failed (R201, R204): the move goes on as a release, REACH_FAULT of the destination is set. -/
def State.failClose (s : State) (k : Fin 8) : State :=
  let m := s.mkt.moves[k]
  match fin? 64 m.stall, m.dst with
  | some n, some d =>
    let fb := match s.stalls[n].up with | some u => u.matrixFb | none => 0xF
    let s := s.setMove k fun m => { m with phase := .opening, src := none, dst := none, serves := d, deadline := none, failed := true }
    let s := s.setStall n fun x => { x with matrix := none, reachFault := setBit x.reachFault d }
    let s := { s with mkt := { s.mkt with closeFail := satInc 8 s.mkt.closeFail } }
    s.log 0x0502 n.val d fb
  | _, _ => s

/-- MATRIX_FB of a usable uplink confirms or refutes the step of the stall's move (R201). -/
def State.moveFeedback (s : State) (n : Fin 64) (k : Fin 8) (fb : Nat) : State :=
  let m := s.mkt.moves[k]
  match m.phase with
  | .opening =>
    if fb = 0xF then
      match m.dst.bind (fin? 12) with
      | some d =>
        let s := (s.becomeIdle n).setStall n fun x => { x with matrix := some d }
        s.setMove k fun m => { m with phase := .closing, deadline := none }
      | none => (s.becomeIdle n).freeMove k (!m.failed)
    else if fb = 0xE then (s.freeMove k false).lockStall n 9
    else s
  | .closing =>
    if some fb = m.dst then
      match fin? 12 fb with
      | some d =>
        let len := rampLen s.pitchNs m.rampMs
        let s := (s.setStall n fun x => { x.place (some d) s.mt with st := .assigned, gatedOut := false, sentOpen := false }).bump 3
        let s := s.mapCells n fun c x => if s.fitted n c && x.st == .off then cellRise true len x else x
        (s.setMove k fun m => { m with phase := .rampUp, deadline := none }).moveRampDone n
      | none => s
    else if fb = 0xF then s
    else s.failClose k
  | _ => s

/-- The timeout of a move's step ends it, where its deadline has expired (R13, R201). -/
def State.expireMove (s : State) (k : Fin 8) : State :=
  let m := s.mkt.moves[k]
  match m.deadline, fin? 64 m.stall with
  | some d, some n =>
    if !expired s.mt d then s
    else match m.phase with
      | .closing => s.failClose k
      | .opening => (s.freeMove k false).lockStall n 9
      | _ => s
  | _, _ => s

/-- The open timeout of a STOPPING stall ends it, where its deadline has expired (R13, R170). -/
def State.expireStop (s : State) (n : Fin 64) : State :=
  match s.stalls[n].openDue with
  | some d => if s.stalls[n].st == .stopping && expired s.mt d then s.lockStall n 9 else s
  | none => s

/-- The stall's timeout of a move or a stop that has expired acts before a later event (R14). -/
def State.expireSteps (s : State) (n : Fin 64) : State := match s.slotOf n with | some k => s.expireMove k | none => s.expireStop n

/-- MATRIX_FB of a usable uplink acts on the stall: on its move, on its stop, on the check after a STOPPED change (R520). A
confirmation after a deadline comes too late, whether or not the timeout's own command has been (R13, R14). -/
def State.stallFeedback (s : State) (n : Fin 64) (fb : Nat) : State :=
  let s := s.expireSteps n
  let x := s.stalls[n]
  if x.checkOpen then
    let s := s.setStall n fun y => { y with checkOpen := false }
    if fb = 0xF then s else s.lockStall n 9
  else
    match s.slotOf n with
    | some k => s.moveFeedback n k fb
    | none => if x.st = .stopping ∧ cellsOut x ∧ fb = 0xF then s.enterStopped n else s

/-! ## Coasts (R163 to R169) -/

/-- One more lost or frozen pitch: a coast starts with a stop request, or goes on; either triggers the capture buffer (R165,
R166, R169). -/
def State.coastPitch (s : State) (n : Fin 64) (cause : Nat) : State :=
  if s.stalls[n].coasting then (s.setStall n fun x => { x with coastCnt := satInc 8 x.coastCnt }).capFreeze 3 n.val
  else (((s.setStall n fun x => { x with coasting := true, coastCnt := 1, coastEnd := false }).requestStop n cause).bump 3).capFreeze 3 n.val

/-- The coast ends by recovery (R167). -/
def State.recover (s : State) (n : Fin 64) : State :=
  if s.stalls[n].coasting then (s.setStall n fun x => { x with coasting := false, coastCnt := 0 }).bump 3 else s

/-- Is the stall's sample classified in this pitch: a stall in use, in RUN since this boundary, or assigned (R163)? -/
def classified (s : State) (n : Fin 64) (boundary : Nat) : Bool :=
  (s.stallRec n).isSome && ((s.stalls[n].link.st == .run && decide (s.stalls[n].link.runFrom ≤ boundary)) || s.stalls[n].bay.isSome)

/-- Last arrival of an uplink of the pitch of boundary `b` (R85). -/
def State.arrivalLimit (s : State) (b : Nat) : Nat := b + 522 + 5 * s.cableM

/-- The sample of the pitch at boundary `b` is lost: the stall coasts (R163, R165). -/
def State.loseSample (s : State) (n : Fin 64) (b : Nat) : State :=
  let s := s.setStall n fun x =>
    { x with sample := .lost, sampleAt := b, cntLost := satInc 16 x.cntLost,
             link := { x.link with silent := x.link.silent + 1, history := (false :: x.link.history).take 1000 } }
  s.coastPitch n 2

/-- Has the sample of the pitch at boundary `b` been judged? -/
def judged (x : Stall) (b : Nat) : Bool := x.sampleAt == b && x.sample != .none

/-- Do the stalls run on the lane inputs of PITCH (R341): a full-pair module that does not hold ACTIVE? -/
def State.shadowing (s : State) : Bool := s.pair.mode == .full && s.pair.role != .active

/-- Is the stall's own uplink of the pitch of a boundary kept for that pitch's window (R342)? -/
def ownHeld (x : Stall) (b : Nat) : Bool := match x.link.own with | some (q, bytes) => q == b && !bytes.isEmpty | none => false

/-- A pitch that brought a module without ACTIVE no uplink of its own port, for the PORTS check (R349, R352). -/
def State.missOwn (s : State) (n : Fin 64) (b : Nat) : State :=
  let l := s.stalls[n].link
  let seen := match l.own with | some (q, _) => decide (b ≤ q) | none => false
  if seen then s
  else s.setLink n fun l => { l with own := some (b, []), silent := l.silent + 1, history := (false :: l.history).take 1000 }

/-- SAMPLE_LOST (R163, R165): the arrival limit has passed without a usable uplink. -/
def doSampleLost (t : Nat) (n : Fin 64) : State → State :=
  whenLive t fun s =>
    let b := s.boundaryAt t
    if s.running && expired t (s.arrivalLimit b) then
      if s.shadowing then (if s.stalls[n].link.st == .run && decide (s.stalls[n].link.runFrom ≤ b) then s.missOwn n b else s)
      else if s.pair.mode == .lite && !s.active then (if (s.stallRec n).isSome then s.missOwn n b else s)
      else if classified s n b && !judged s.stalls[n] b && !(s.active && ownHeld s.stalls[n] b) then s.loseSample n b else s
    else s

/-- The cause a stall shows after its fast gate by R168: 4, which replaces 2 or 3 where the stall is already gated for a stop (R173). -/
def exhaustedCause (x : Stall) : Nat := if x.gatedOut ∧ x.cause ≠ 2 ∧ x.cause ≠ 3 then x.cause else 4

/-- COAST_EXHAUSTED (R168, R169): the pitch after COAST_N coasted ones is lost or frozen too; once in a coast. -/
def doCoastExhausted (t : Nat) (n : Fin 64) : State → State :=
  whenLive t fun s =>
    let x := s.stalls[n]
    if x.coasting && decide (s.stl.coastN < x.coastCnt) && (x.st == .assigned || x.st == .stopping) && !x.coastEnd then
      let s := s.setStall n fun y => { y with coastEnd := true, cntCoastEnd := satInc 8 y.cntCoastEnd }
      let s := ((s.replaceCause n 4).fastPath n (exhaustedCause x)).log 0x0303 n.val x.coastCnt 0
      s.capFreeze 3 n.val
    else s

/-! ## Shedding (R159, R160) -/

/-- Shed candidates of a bay: ACTIVE cells that may be shed, in ASSIGNED stalls that do not coast, not the last of their stall. -/
def shedCandidates (s : State) (b : Fin 12) : List (CellRec × Fin 64 × Fin 8) :=
  (s.stallsOf b).flatMap fun n =>
    let x := s.stalls[n]
    if x.st == .assigned && !x.coasting && decide (2 ≤ (x.cells.toList.filter fun c => c.st == .active).length) then
      (fins 8).filterMap fun c =>
        match s.cellRec n c with
        | some r => if x.cells[c].st == .active && r.flags.testBit 0 then some (r, n, c) else none
        | none => none
    else []

/-- The lower SHED_RANK, then the higher CELL_ID, is shed first. -/
def shedFirst (a b : CellRec) : Bool := decide (a.shedRank < b.shedRank) || (a.shedRank == b.shedRank && decide (b.cellId < a.cellId))

/-- The cell to shed. -/
def pickShed (xs : List (CellRec × Fin 64 × Fin 8)) : Option (CellRec × Fin 64 × Fin 8) :=
  xs.foldl (fun best x => match best with | none => some x | some y => if shedFirst x.1 y.1 then some x else some y) none

/-- The SHED cells of a bay that may be restored (R165). -/
def restoreCandidates (s : State) (b : Fin 12) : List (CellRec × Fin 64 × Fin 8) :=
  (s.stallsOf b).flatMap fun n =>
    if s.stalls[n].coasting then []
    else (fins 8).filterMap fun c =>
      match s.cellRec n c with
      | some r => if s.stalls[n].cells[c].st == .shed then some (r, n, c) else none
      | none => none

/-- The cell to restore: the highest SHED_RANK, then the lowest CELL_ID. -/
def pickRestore (xs : List (CellRec × Fin 64 × Fin 8)) : Option (CellRec × Fin 64 × Fin 8) :=
  xs.foldl (fun best x => match best with | none => some x | some y => if shedFirst y.1 x.1 then some x else some y) none

/-- Ramp of SHED_RAMP in pitches (R158). -/
def State.shedLen (s : State) : Nat := 8 * s.stl.shedRamp

/-- Is a cell of the bay SHEDDING or RESTORING? -/
def State.bayCellsMoving (s : State) (b : Fin 12) : Bool :=
  (s.stallsOf b).any fun n => anyCell s.stalls[n] .shedding || anyCell s.stalls[n] .restoring

/-- One cell changed. -/
def State.setCell (s : State) (n : Fin 64) (c : Fin 8) (f : CellCtl → CellCtl) : State :=
  s.setStall n fun x => { x with cells := vupd x.cells c f }

/-- SHED_DECISION (R159): SHED_HOLD light ticks without a load step, no cell moving, a candidate. -/
def doShedDecision (t : Nat) (b : Fin 12) : State → State :=
  whenLive t fun s =>
    if s.stl.shedEn.testBit b.val && decide (s.stl.shedHold ≤ s.mkt.lightTicks[b]) && !s.bayCellsMoving b then
      match pickShed (shedCandidates s b) with
      | some (_, n, c) =>
        let len := s.shedLen
        let s := s.setCell n c (cellFall .shedding len)
        ({ s with mkt := { s.mkt with lightTicks := vupd s.mkt.lightTicks b fun _ => 0 } }).bump 3
      | none => s
    else s

/-! ## Timed steps -/

/-- CELL_RAMP_END (R158): the ramp has reached its end value; the cell, then its stop or move, advances. -/
def doCellRampEnd (t : Nat) (n : Fin 64) (c : Fin 8) : State → State :=
  whenLive t fun s =>
    if cellDone s.stalls[n].cells[c] then ((((s.setCell n c cellEnd).bump 3).gateWhenOut n).moveRampDone n) else s

/-- REARM_LIMIT (R172): 100 consecutive ticks of REARM have not cleared TRIPPED. -/
def doRearmLimit (t : Nat) (n : Fin 64) : State → State :=
  whenLive t fun s =>
    let x := s.stalls[n]
    if x.st == .idle && x.link.tripped && decide (100 ≤ x.rearmTicks) then s.requestStop n 5 else s

/-- STOP_OPEN_TIMEOUT (R170): not confirmed open within T_OPEN + 5 ms of the gating frame. -/
def doStopOpenTimeout (t : Nat) (n : Fin 64) : State → State :=
  whenLive t fun s =>
    match s.stalls[n].openDue with
    | some d => if s.stalls[n].st == .stopping && expired t d then s.lockStall n 9 else s
    | none => s

/-- May a STOPPED stall return to IDLE (R170, R175)? -/
def mayRestart (t : Nat) (x : Stall) : Bool :=
  decide (x.restDue ≤ t) && x.link.st == .run && !x.link.tripped && !(x.runs.toList.any fun r => r.frozen) &&
  !x.otLatch && (match x.coolDue with | some d => decide (d ≤ t) | none => true) && !x.scale

/-- REST_ELAPSED (R170, R174): a sound stall returns to IDLE, or is LOCKED at its restart limit. -/
def doRestElapsed (t : Nat) (n : Fin 64) : State → State :=
  whenLive t fun s =>
    let x := s.stalls[n]
    if x.st == .stopped && mayRestart t x then
      if s.stl.restartMax ≤ (liveStamps s x).length then s.lockStall n x.cause else (s.becomeIdle n).trySleep n
    else s

/-- MOVE_CLOSE_TIMEOUT (R201): the close is not confirmed within T_CLOSE + 5 ms. -/
def doMoveCloseTimeout (t : Nat) (k : Fin 8) : State → State :=
  whenLive t fun s =>
    let m := s.mkt.moves[k]
    match m.deadline with
    | some d => if m.phase == .closing && expired t d then s.failClose k else s
    | none => s

/-- MOVE_OPEN_TIMEOUT (R201): the open is not confirmed within T_OPEN + 5 ms. -/
def doMoveOpenTimeout (t : Nat) (k : Fin 8) : State → State :=
  whenLive t fun s =>
    let m := s.mkt.moves[k]
    match m.deadline, fin? 64 m.stall with
    | some d, some n => if m.phase == .opening && expired t d then (s.freeMove k false).lockStall n 9 else s
    | _, _ => s

/-! ## Commands of R176 -/

/-- The effect of CLR_FB. -/
def State.clearFb (s : State) (n : Fin 64) : State :=
  s.setStall n fun x => { x with cntCoastEnd := 0, cntFrozen := 0, cntLost := 0, stopsTotal := 0, stopsOc := 0, stopsOt := 0 }

/-- The effect of RELEASE: a LOCKED stall returns to STOPPED with its restart history cleared; other states ignore it. -/
def State.releaseStall (s : State) (n : Fin 64) : State :=
  if s.stalls[n].st = .locked then
    (s.setStall n fun x => { x with st := .stopped, stamps := [], restDue := s.mt + ms s.stl.restMs, rearmPend := true }).bump 3
  else s

/-- CLR_FB (R176). -/
def doClrFb (t : Nat) (m : Master) (n : Fin 64) : State → State :=
  whenLive t fun s => s.command m (stlAddr n 0x20) (foreign s m) fun s => s.clearFb n

/-- STALL_RELEASE (R170). -/
def doStallRelease (t : Nat) (m : Master) (n : Fin 64) : State → State :=
  whenLive t fun s => s.command m (stlAddr n 0x20) (foreign s m) fun s => s.releaseStall n

/-! ## Meanings -/

/-- Meaning of SAMPLE_LOST (R163). -/
def execSampleLost (t : Nat) (stall : Fin 64) (s : State) : Host.Outcome State Fault Refusal :=
  .next (doSampleLost t stall s)

/-- Meaning of COAST_EXHAUSTED (R168). -/
def execCoastExhausted (t : Nat) (stall : Fin 64) (s : State) : Host.Outcome State Fault Refusal :=
  .next (doCoastExhausted t stall s)

/-- Meaning of CLR_FB (R176). -/
def execClrFb (t : Nat) (m : Master) (stall : Fin 64) (s : State) : Host.Outcome State Fault Refusal :=
  .next (doClrFb t m stall s)

/-- Meaning of STALL_RELEASE (R170). -/
def execStallRelease (t : Nat) (m : Master) (stall : Fin 64) (s : State) : Host.Outcome State Fault Refusal :=
  .next (doStallRelease t m stall s)

/-- Meaning of CELL_RAMP_END (R158). -/
def execCellRampEnd (t : Nat) (stall : Fin 64) (cell : Fin 8) (s : State) : Host.Outcome State Fault Refusal :=
  .next (doCellRampEnd t stall cell s)

/-- Meaning of SHED_DECISION (R159). -/
def execShedDecision (t : Nat) (bay : Fin 12) (s : State) : Host.Outcome State Fault Refusal :=
  .next (doShedDecision t bay s)

/-- Meaning of REARM_LIMIT (R172). -/
def execRearmLimit (t : Nat) (stall : Fin 64) (s : State) : Host.Outcome State Fault Refusal :=
  .next (doRearmLimit t stall s)

/-- Meaning of STOP_OPEN_TIMEOUT (R170). -/
def execStopOpenTimeout (t : Nat) (stall : Fin 64) (s : State) : Host.Outcome State Fault Refusal :=
  .next (doStopOpenTimeout t stall s)

/-- Meaning of REST_ELAPSED (R170). -/
def execRestElapsed (t : Nat) (stall : Fin 64) (s : State) : Host.Outcome State Fault Refusal :=
  .next (doRestElapsed t stall s)

/-- Meaning of MOVE_CLOSE_TIMEOUT (R201). -/
def execMoveCloseTimeout (t : Nat) (slot : Fin 8) (s : State) : Host.Outcome State Fault Refusal :=
  .next (doMoveCloseTimeout t slot s)

/-- Meaning of MOVE_OPEN_TIMEOUT (R201). -/
def execMoveOpenTimeout (t : Nat) (slot : Fin 8) (s : State) : Host.Outcome State Fault Refusal :=
  .next (doMoveOpenTimeout t slot s)

end Sys2Proof.Machine
end

