-- ==== Sys2Proof/Machine/SafeStop.lean ====
section
/-! DEFINITION. What the safety functions mean to other chapters: who demands a stop (R301), the outlet and site-breaker SO
pairs (R307, R308), and the safe stop of a bay (R312 to R317). -/
namespace Sys2Proof.Machine

/-! ## Records and demands -/

/-- The safety record of a kind and an index. -/
def State.safRec (s : State) (kind index : Nat) : Option SafRec := s.saf.records.find? fun r => r.kind == kind && r.index == index

/-- TYPE of an SI record (R298). -/
def siType (r : SafRec) : Nat := r.flags % 4

/-- A pair asserts demand in every state except IDLE (R301). -/
def asserts (p : SiPair) : Bool := p.st != .idle

/-- Does the record target the bay: by its bit, or as part of the whole site? -/
def targets (r : SafRec) (b : Fin 12) : Bool := r.targetMask.testBit b.val || r.targetMask.testBit 31

/-- The SI pairs of TYPE 0 and 1 that assert demand, with their records. -/
def State.demands (s : State) : List SafRec :=
  (fins 16).filterMap fun k =>
    match s.safRec 1 k.val with
    | some r => if siType r != 2 && asserts s.saf.si[k] then some r else none
    | none => none

/-- Does a pair that targets the bay assert demand? -/
def State.demandOn (s : State) (b : Fin 12) : Bool := s.demands.any fun r => targets r b

/-- Does a pair that targets the whole site assert demand? -/
def State.siteDemand (s : State) : Bool := s.demands.any fun r => r.targetMask.testBit 31

/-! ## SO pairs (R307) -/

/-- SO pairs of the active image with their records. -/
def State.soPairs (s : State) : List (Fin 16 × SafRec) := (fins 16).filterMap fun k => (s.safRec 2 k.val).map fun r => (k, r)

/-- The SO pairs of a bay's outlet contactor. -/
def State.outletPairs (s : State) (b : Fin 12) : List (Fin 16 × SafRec) := s.soPairs.filter fun p => p.2.paramA == b.val

/-- The site-breaker pairs. -/
def State.sitePairs (s : State) : List (Fin 16 × SafRec) := s.soPairs.filter fun p => p.2.paramA == 0xFF

/-- SO pair `k` changed. -/
def State.setSo (s : State) (k : Fin 16) (f : SoPair → SoPair) : State := { s with saf := { s.saf with so := vupd s.saf.so k f } }

/-- Is the pair energised: both switches on? -/
def soOn (p : SoPair) : Bool := p.hs && p.ls

/-- The pair de-energises; its command is stamped. -/
def State.soOff (s : State) (k : Fin 16) : State :=
  let p := s.saf.so[k]
  let st := if p.st = .on then SoSt.off else p.st
  let since := if soOn p then s.mt else p.since
  let s' := s.setSo k fun p => { p with hs := false, ls := false, st, since, awaits := p.awaits || soOn p, current := 0, testAt := none, testing := none }
  s'.bumpIf (p.st == .on) 8

/-- The pair energises; its command is stamped. -/
def State.soEnergise (s : State) (k : Fin 16) : State :=
  if soOn s.saf.so[k] then s else (s.setSo k fun p => { p with hs := true, ls := true, st := .on, since := s.mt, awaits := true }).bump 8

/-- Every SO pair of a bay de-energises. -/
def State.outletOff (s : State) (b : Fin 12) : State := (s.outletPairs b).foldl (fun s p => s.soOff p.1) s

/-- Every SO pair de-energises. -/
def State.allOff (s : State) : State := s.forAll 16 fun k s => s.soOff k

/-- Is every outlet pair of the bay off? -/
def State.outletIsOff (s : State) (b : Fin 12) : Bool := (s.outletPairs b).all fun p => !soOn s.saf.so[p.1]

/-- Feedback pair of an SO record (R307). -/
def fbOf (r : SafRec) : Option (Fin 16) := fin? 16 (r.flags % 32)

/-- A TYPE 2 pair reports OPEN: both channels read 1 (R306). -/
def fbOpen (p : SiPair) : Bool := p.a.level && p.b.level

/-- A TYPE 2 pair reports CLOSED: both channels read 0. -/
def fbClosed (p : SiPair) : Bool := !p.a.level && !p.b.level

/-- A change of a channel stamped at or before a deadline has not passed the filter yet (R14, R303). -/
def chanPending (c : SiChan) (deadline : Nat) : Bool := c.cand != c.level && decide (c.first ≤ deadline)

/-- The same for either channel of a pair. -/
def pairPending (p : SiPair) (deadline : Nat) : Bool := chanPending p.a deadline || chanPending p.b deadline

/-- Stamp of the report a TYPE 2 pair shows. -/
def fbStamp (p : SiPair) : Nat := max p.a.stamp p.b.stamp

/-- Feedback pairs of a bay's outlet contactor. -/
def State.outletFb (s : State) (b : Fin 12) : List (Fin 16) := (s.outletPairs b).filterMap fun p => fbOf p.2

/-- Number of a safe stop state. -/
def ssCode : SsSt → Nat | .none => 0 | .ramp => 1 | .gating => 2 | .opening => 3 | .escalated => 4 | .done => 5

/-! ## The safe stop of a bay (R312) -/

/-- The safe stop of bay `b` changed. -/
def State.setSs (s : State) (b : Fin 12) (f : SafeStop → SafeStop) : State := { s with saf := { s.saf with stops := vupd s.saf.stops b f } }

/-- Is the bay being stopped: neither NONE nor DONE? -/
def State.stopping (s : State) (b : Fin 12) : Bool := s.saf.stops[b].st != .none && s.saf.stops[b].st != .done

/-- Entry to DONE, recorded with its entry trigger (R312, R466; DEDUCED, log 148: R466 names the event DONE, whatever state came before). -/
def State.ssDone (s : State) (b : Fin 12) : State :=
  let q := s.saf.stops[b]
  let s := s.setSs b fun x => { x with st := .done, deadline := none }
  s.log 0x0803 b.val q.trigger 0

/-- Is the stall attaching to the bay: held by an attach or a transfer to it (R196)? -/
def State.attachingTo (s : State) (n : Fin 64) (b : Fin 12) : Bool :=
  match s.slotOf n with | some k => s.mkt.moves[k].dst == some b.val | none => false

/-- The stalls a stop of the bay gates: assigned or attaching to it (R315). -/
def State.stopStalls (s : State) (b : Fin 12) : List (Fin 64) := (fins 64).filter fun n => s.stalls[n].bay == some b || s.attachingTo n b

/-- The gating frames of R315: each stall of the bay takes the fast path with cause 8. -/
def State.gateBay (s : State) (b : Fin 12) : State :=
  ((s.stopStalls b).foldl (fun s n => s.fastPath n 8) s).setSs b fun x => { x with gated := true }

/-- Steps of the ramp in pitches (R313). -/
def ssSteps (pitchNs rampMs : Nat) : Nat := max 1 (ceilDiv (rampMs * 1000000) pitchNs)

/-- |I| of a bay from the latest usable uplinks, in units of I_FS / 32 768 with I_FS in 0.1 A (R314). -/
def State.bayCurrent (s : State) (b : Fin 12) : Nat :=
  (sumInt ((s.stallsOf b).map fun n =>
    match s.stalls[n].up with
    | some u => sumInt u.iCell * s.stalls[n].link.iFs
    | none => 0)).natAbs

/-- The envelope in the same units (R314): I_0 × (n − j) / n + TOL_PCT % of I_MAX, times n and 100 to stay exact. -/
def envelopeHolds (x : SafeStop) (j iMax current : Nat) : Bool :=
  decide (100 * x.n * current ≤ 100 * x.i0 * (x.n - j) + x.n * x.tolPct * iMax * 10 * 32768)

/-- The current limits of a bay that a window opening at `t` takes over: those of the latest commit of clearing stamped at or
before `t` (R22, R23). -/
def State.clearedBounds (s : State) (b : Fin 12) (t : Nat) : Int × Int :=
  if s.mkt.boundsAt ≤ t then (s.mkt.bays[b].iLo, s.mkt.bays[b].iHi) else s.mkt.oldBounds[b]

/-- The ramp of a stop takes its next step at a window (R313). -/
def ssStep (x : SafeStop) : SafeStop := if x.st = .ramp ∧ x.taken then { x with j := min x.n (x.j + 1) } else x

/-- The lattice engine takes over a stop request stamped at or before the window that opens at `t` (R23, R313). -/
def State.ssTake (s : State) (b : Fin 12) (t : Nat) : State :=
  let q := s.saf.stops[b]
  if q.st = .ramp ∧ !q.taken ∧ q.at_ ≤ t then
    let c := s.clearedBounds b t
    let n := ssSteps s.pitchNs q.rampMs
    s.setSs b fun x => { x with taken := true, j := 0, n, iHi0 := c.2, iLo0 := c.1, i0 := s.bayCurrent b, skips := 0, deadline := some (t + ms q.rampMs) }
  else if q.st = .gating ∧ !q.gated ∧ q.at_ ≤ t then s.gateBay b
  else s

/-- The bounds the bay PI reads in the window that opens at `t` (R195, R313): those of clearing, or under the ramp, or 0 once the
ramp has ended. -/
def State.bounds (s : State) (b : Fin 12) (t : Nat) : Int × Int :=
  let q := s.saf.stops[b]
  let c := s.clearedBounds b t
  match q.st with
  | .none | .done => c
  | .ramp =>
    if q.taken then
      (max c.1 (-((-q.iLo0) * (q.n - q.j : Nat) / q.n)), min c.2 (q.iHi0 * (q.n - q.j : Nat) / q.n))
    else c
  | _ => if q.at_ ≤ t then (0, 0) else c

/-- The bay tile reads the bounds in force in the window that opened at `t` (R195, R313). -/
def State.boundTiles (s : State) (b : Fin 12) (t : Nat) : State :=
  let q := s.bounds b t
  { s with lat := { s.lat with tiles := s.lat.tiles.map fun x =>
      if x.info.template = 1 ∧ x.info.ownerKind = 2 ∧ x.info.ownerId = b.val then { x with words := (x.words.set 5 q.1).set 6 q.2 } else x } }

/-- A stop stamped at the opening of the window now open, whose command comes after the opening's, is taken over there still (R23). -/
def State.ssLate (s : State) (b : Fin 12) : State :=
  if s.lat.windowOpen ∧ s.mt ≤ s.lat.openAt then (s.ssTake b s.lat.openAt).boundTiles b s.lat.openAt else s

/-- A stop request of a bay (R312, R316): RAMP where the bay is energised, DONE where it is not; in any other state it is recorded and
changes nothing. DESIGN CHOICE (log 116): the passage of a bay that is not energised straight to DONE does not trigger the capture
buffer, since no ramp or gating starts. -/
def State.requestSafeStop (s : State) (b : Fin 12) : State :=
  if s.saf.stops[b].st = .none then
    if s.bays[b].energised then
      (((s.setSs b fun _ => { st := .ramp, trigger := 1, at_ := s.mt, rampMs := s.saf.ssRamp, tolPct := s.saf.tolPct, deadline := some (s.mt + ms s.saf.ssRamp) }).bump 8).capFreeze 4 0xFF).ssLate b
    else ((s.setSs b fun _ => { trigger := 1 }).outletOff b).ssDone b
  else s.setSs b fun x => { x with further := true }

/-- Entry to GATING from RAMP (R312). -/
def State.ssGate (s : State) (b : Fin 12) : State := (s.setSs b fun x => { x with st := .gating, at_ := s.mt, deadline := none, gated := false }).bump 8

/-- Immediate removal (trigger 2) or an envelope violation (trigger 3) from NONE or RAMP: GATING, with the outlet SO pair
de-energised at once (R312, R313); DONE where the bay is not energised; in any other state it is recorded (R316). -/
def State.removeBay (s : State) (b : Fin 12) (trigger : Nat) : State :=
  let q := s.saf.stops[b]
  if q.st = .ramp ∨ (q.st = .none ∧ s.bays[b].energised) then
    let s := s.outletOff b
    (((s.setSs b fun x => { x with st := .gating, trigger := trigger, at_ := s.mt, gated := false, deadline := some (s.mt + ms 100) }).bump 8).capFreeze 4 0xFF).ssLate b
  else if q.st = .none then ((s.setSs b fun _ => { trigger := trigger }).outletOff b).ssDone b
  else s.setSs b fun x => { x with further := true }

/-- A bay shown energised to a new active module enters its safe stop as an immediate removal (R350). -/
def State.removeShown (s : State) (b : Fin 12) : State :=
  if s.saf.stops[b].st = .none ∨ s.saf.stops[b].st = .done then
    let s := s.outletOff b
    (((s.setSs b fun _ => { st := .gating, trigger := 2, at_ := s.mt, deadline := some (s.mt + ms 100) }).bump 8).capFreeze 4 0xFF).ssLate b
  else s

/-- Entry to ESCALATED (R317). -/
def State.escalate (s : State) (b : Fin 12) : State :=
  let s := s.setSs b fun x => { x with st := .escalated, deadline := none }
  let s := { s with saf := { s.saf with escalated := true } }
  let s := s.log 0x0804 b.val 0 0
  if s.sitePairs.isEmpty then s.forAll 64 fun n s => s.fastPath n 8 else s.sitePairs.foldl (fun s p => s.soOff p.1) s

/-- GATING passes to OPENING at the boundary at which the gating frames apply (R312). -/
def State.ssBoundary (s : State) (b : Fin 12) : State :=
  let q := s.saf.stops[b]
  if q.st = .gating ∧ q.gated then (s.setSs b fun x => { x with st := .opening }).bump 8 else s

/-! ## The timed steps of a safe stop -/

/-- SS_RAMP_END (R313): the bound has reached 0; the bay enters GATING and its gating frames are built (R315). -/
def doSsRampEnd (t : Nat) (b : Fin 12) : State → State :=
  whenLive t fun s =>
    let q := s.saf.stops[b]
    if q.st == .ramp && q.taken && decide (q.n ≤ q.j) then (s.ssGate b).gateBay b else s

/-- SS_RAMP_TIMEOUT (R312). -/
def doSsRampTimeout (t : Nat) (b : Fin 12) : State → State :=
  whenLive t fun s =>
    let q := s.saf.stops[b]
    match q.deadline with
    | some d => if q.st == .ramp && expired t d then (s.ssGate b).ssLate b else s
    | none => s

/-- ENVELOPE_SKIP_LIMIT (R314): seventeen consecutive skipped pitches count as a violation. -/
def doEnvelopeSkipLimit (t : Nat) (b : Fin 12) : State → State :=
  whenLive t fun s => if s.saf.stops[b].st == .ramp && decide (17 ≤ s.saf.stops[b].skips) then s.removeBay b 3 else s

/-- ESCALATION (R312, R317): OPEN is not confirmed within 100 ms of the de-energising. -/
def doEscalation (t : Nat) (b : Fin 12) : State → State :=
  whenLive t fun s =>
    let q := s.saf.stops[b]
    match q.deadline with
    | some d => if q.st == .opening && expired t d && !(s.outletFb b).any (fun k => pairPending s.saf.si[k] d) then s.escalate b else s
    | none => s

/-! ## Meanings -/

/-- Meaning of SS_RAMP_END (R313). -/
def execSsRampEnd (t : Nat) (bay : Fin 12) (s : State) : Host.Outcome State Fault Refusal :=
  .next (doSsRampEnd t bay s)

/-- Meaning of SS_RAMP_TIMEOUT (R312). -/
def execSsRampTimeout (t : Nat) (bay : Fin 12) (s : State) : Host.Outcome State Fault Refusal :=
  .next (doSsRampTimeout t bay s)

/-- Meaning of ENVELOPE_SKIP_LIMIT (R314). -/
def execEnvelopeSkipLimit (t : Nat) (bay : Fin 12) (s : State) : Host.Outcome State Fault Refusal :=
  .next (doEnvelopeSkipLimit t bay s)

/-- Meaning of ESCALATION (R317). -/
def execEscalation (t : Nat) (bay : Fin 12) (s : State) : Host.Outcome State Fault Refusal :=
  .next (doEscalation t bay s)

end Sys2Proof.Machine
end

