-- ==== Sys2Proof/Machine/Clearing.lean ====
section
/-! DEFINITION. Market clearing: bids and caps (R179 to R182), the site limit (R183 to R185), the envelope (R186 to R188),
the clearing algorithm (R189 to R192), set-points (R193 to R195), stall moves (R196 to R201), and their commit (R178). -/
namespace Sys2Proof.Machine

/-! ## What clearing reads -/

/-- The bay voltage in 1/655 360 V, exact: V_OUT of the sense stall in its latest usable uplink, in V_FS / 65 536 with V_FS in 0.1 V (R81,
R125, R181). -/
def State.bayVolts (s : State) (b : Fin 12) : Nat :=
  match senseStall s b with
  | some n => (match s.stalls[n].up with | some u => u.vOut * s.stalls[n].link.vFs | none => 0)
  | none => 0

/-- V_use of a bay in 1/655 360 V (R181). -/
def State.vUse (s : State) (b : Fin 12) (r : BayRec) : Nat := max (s.bayVolts b) (r.vMin * 655360)

/-- The image whose bounds and records clearing uses: from tick S of a LIVE change on, the new one (R66). -/
def State.clearingImage (s : State) : Option Image :=
  match s.prof.pend with
  | some p => if p.mode = .live ∧ p.tickDone.isSome then some p.image else s.prof.image
  | none => s.prof.image

/-- The state as clearing reads it. -/
def State.clearingView (s : State) : State := { s with prof := { s.prof with image := s.clearingImage } }

/-- A policy power of 0xFFFF stands for the image's bound (R205). -/
def kwOr (v bound : Nat) : Nat := if v = 0xFFFF then bound else v

/-- Is the session of the bay in CABLE_CHECK or PRECHARGE (R182)? -/
def State.checkBay (s : State) (b : Fin 12) : Bool := s.bays[b].session.st == .cableCheck || s.bays[b].session.st == .precharge

/-- A bid as R179 and R180 take it. -/
def takeBid (s : State) (b : Fin 12) (r : BayRec) (x : Bid) : Bid :=
  let free := x.bidding && !s.demandOn b && s.saf.stops[b].st == .none
  if free then
    let mn := min x.minP x.maxP
    { x with bidding := true, exporting := x.exporting && r.flags.testBit 0, minP := mn, reqP := min (max x.reqP mn) x.maxP }
  else { exporting := x.exporting && r.flags.testBit 0 }

/-- The snapshot of step 1 of R177 on this module's own values. -/
def State.snapshot (s : State) : TickSnap :=
  let v := s.clearingView
  { pImp := (match s.met.taken with | some c => c.pImp | none => 0)
    pBay := (match s.met.taken with | some c => c.pBay | none => 0)
    s := (match s.met.taken with | some c => c.s | none => 0)
    metStamp := s.met.taken.map (·.stamp)
    terms := (fins 12).map fun b => s.thm.cables[b].inForce
    bids := (fins 12).map fun b => match v.bayRec b with | some r => takeBid s b r s.bays[b].session.bid | none => {} }

/-- Is the stall available to clearing for a path to the bay (R100, R148, R172, R181, R204)? -/
def State.usableFor (s : State) (n : Fin 64) (b : Fin 12) : Bool :=
  let x := s.stalls[n]
  match s.stallRec n with
  | none => false
  | some r =>
    r.bayReach.testBit b.val && !x.reachFault.testBit b.val && x.link.st == .run && !x.link.sleepReq && !x.scale &&
    (match x.st with
     | .assigned => true
     | .idle => !x.link.tripped && x.link.ocMask == 0 && x.up.isSome
     | _ => false)

/-- P_RATED of a stall in W (R38). -/
def State.ratedW (s : State) (n : Fin 64) : Nat := match s.stallRec n with | some r => r.pRated * 100 | none => 0

/-- C_b of R181: the summed P_RATED of the first STALLS_MAX usable stalls. -/
def State.stallCap (s : State) (b : Fin 12) (r : BayRec) : Nat :=
  sumNat ((((fins 64).filter fun n => s.usableFor n b).take r.stallsMax).map s.ratedW)

/-- cap_b (R181). -/
def State.capOf (s : State) (b : Fin 12) (r : BayRec) (x : Bid) (term : Nat) : Nat :=
  let pol := kwOr s.mkt.effective.capKw[b] r.pMaxKw * 1000
  [pol, term, x.vmaxP, (someRound 1 (x.vmaxI * s.vUse b r : Nat) 655360).toNat, s.stallCap b r].foldl min x.maxP

/-- H_b (R193): each assigned stall at P_RATED times the mean W of its fitted cells over 0x7FFF. The rounding of a stall's
share is a free choice. -/
def State.heldW (s : State) (b : Fin 12) : Nat :=
  sumNat ((s.stallsOf b).map fun n =>
    let cs := (fins 8).filter fun c => s.fitted n c
    if cs.isEmpty then 0
    else (someRound 3 (s.ratedW n * sumNat (cs.map fun c => s.stalls[n].cells[c].w) : Nat) (cs.length * fullW)).toNat)

/-! ## Limits and envelope -/

/-- L_XF by the transformer model (R185). -/
def xfLimit (p : Policy) (siteMaxW : Nat) (hot : Rat) : Nat :=
  if p.pRKw = 0 then siteMaxW
  else if hot ≤ p.thetaAl then p.pOvlKw * 1000
  else if hot ≥ p.thetaMax then p.pRKw * 1000
  else (((p.pOvlKw * 1000 : Nat) : Rat) - (p.pOvlKw - p.pRKw : Nat) * 1000 * (hot - p.thetaAl) / ((p.thetaMax - p.thetaAl : Nat) : Rat)).floor.toNat

/-- One step of the hot-spot rise (R185); `sVa` is S in VA. -/
def thetaStep (p : Policy) (sVa : Nat) (theta : Rat) : Rat :=
  let ratio : Rat := (sVa : Rat) / ((p.pRKw * 1000 : Nat) : Rat)
  theta + ((p.riseR : Rat) * ratio * ratio - theta) / ((1000 * p.tauS : Nat) : Rat)

/-- The ambient of the transformer model in °C (R185). -/
def State.xfAmbient (s : State) : Rat :=
  let p := s.mkt.effective
  let fixed : Rat := (p.ambFix : Rat) - 40
  match fin? 36 p.ambSrc with
  | some n => (match s.thm.ts[n].faulted, s.thm.ts[n].temp with | false, some x => (x : Rat) / 10 | _, _ => fixed)
  | none => fixed

/-- L_MET and MET_STALE (R184). -/
def metLimit (t siteMinW lGrid last : Nat) (q : TickSnap) : Nat × Bool :=
  match q.metStamp with
  | none => (siteMinW, true)
  | some st =>
    if st + ms 10 < t then (siteMinW, true)
    else if st + ms 3 < t then (last, true)
    else ((q.pBay + lGrid - q.pImp).toNat, false)

/-- The limits of a tick (R183). -/
def State.limitsOf (s : State) (t : Nat) (h : ImgHeader) (q : TickSnap) : Limits × Bool :=
  let p := s.mkt.effective
  let grid := kwOr p.contractKw h.siteMaxKw * 1000
  let pol := kwOr p.siteKw h.siteMaxKw * 1000
  let xf := xfLimit p (h.siteMaxKw * 1000) (s.xfAmbient + s.mkt.theta)
  let m := metLimit t (h.siteMinKw * 1000) grid s.mkt.limits.met q
  let site := min (min grid pol) (min xf m.1)
  let src := if grid = site then 0 else if pol = site then 1 else if xf = site then 2 else 3
  ({ grid, pol, xf, met := m.1, site, src }, m.2)

/-- One tick of an envelope (R186). -/
def envStep (jerk rate g e : Nat) (r : Int) : Nat × Int :=
  let d : Int := (g : Int) - e
  if d.natAbs ≤ jerk ∧ (d - r).natAbs ≤ jerk then (g, 0)
  else
    let n := (isqrt (8 * (d.natAbs / jerk) + 1) - 1) / 2
    let size : Int := (min rate (jerk * n) : Nat)
    let rd : Int := if d < 0 then -size else size
    let r' := clampInt (-(rate : Int)) rate (r + clampInt (-(jerk : Int)) jerk (rd - r))
    (((e : Int) + r').toNat, r')

/-! ## Sharing (R189 to R191) -/

/-- A pool and what each bay has of it. -/
structure Share where
  pool : Nat
  a : Vector Nat 12
  deriving DecidableEq, Repr

/-- A bay gets `w` watts out of the pool. -/
def Share.give (x : Share) (b : Fin 12) (w : Nat) : Share := { pool := x.pool - w, a := vupd x.a b (· + w) }

/-- One watt each, in the order of the list, while the pool lasts. -/
def Share.spread (x : Share) (bs : List (Fin 12)) : Share := bs.foldl (fun x b => if x.pool = 0 then x else x.give b 1) x

/-- The rounds of fill (R190, R192). -/
def fillRounds (w need : Fin 12 → Nat) : Nat → List (Fin 12) → Share → Share
  | 0, _, x => x
  | f + 1, bs, x =>
    if bs.isEmpty ∨ x.pool = 0 then x
    else if sumNat (bs.map need) ≤ x.pool then bs.foldl (fun x b => x.give b (need b)) x
    else
      let ws := sumNat (bs.map w)
      let share := fun b => x.pool * w b / ws
      let capped := bs.filter fun b => decide (need b ≤ share b)
      if capped.isEmpty then (bs.foldl (fun x b => x.give b (share b)) x).spread bs
      else fillRounds w need f (bs.filter fun b => !decide (need b ≤ share b)) (capped.foldl (fun x b => x.give b (need b)) x)

/-- The procedure fill (R190) for the bays `bs` with their targets. -/
def fill (w target : Fin 12 → Nat) (bs : List (Fin 12)) (x : Share) : Share :=
  let need := fun b => target b - x.a[b]
  fillRounds w need 13 (bs.filter fun b => decide (0 < need b)) x

/-- What R189 needs of the bidding bays. -/
structure Round where
  bid : Fin 12 → Bid
  cap : Fin 12 → Nat
  floor : Fin 12 → Nat
  cls : Fin 12 → Nat
  weight : Fin 12 → Nat

/-- Import grants (R189, R191): check bays, the other floors, then the classes at MIN and REQ and at MAX. -/
def importGrants (q : Round) (e : Nat) (check others : List (Fin 12)) : Share :=
  let x : Share := { pool := e, a := Vector.replicate 12 0 }
  let x := check.foldl (fun x b => x.give b (min (q.floor b) x.pool)) x
  let sf := sumNat (others.map q.floor)
  let x := if sf ≤ x.pool then others.foldl (fun x b => x.give b (q.floor b)) x
    else (others.foldl (fun y b => y.give b (x.pool * q.floor b / sf)) x).spread (others.filter fun b => decide (0 < q.floor b))
  let all := (fins 12).filter fun b => check.contains b || others.contains b
  let x := (List.range 8).foldl (fun x c =>
    let bs := all.filter fun b => q.cls b == c
    let x := fill q.weight (fun b => min (max x.a[b] (q.bid b).minP) (q.cap b)) bs x
    fill q.weight (fun b => min (q.bid b).reqP (q.cap b)) bs x) x
  (List.range 8).foldl (fun x c => fill q.weight (fun b => min (q.bid b).maxP (q.cap b)) (all.filter fun b => q.cls b == c) x) x

/-- Export grants (R189). -/
def exportGrants (q : Round) (e : Nat) (bs : List (Fin 12)) : Share :=
  (List.range 8).foldl (fun x c => fill q.weight (fun b => min (q.bid b).reqP (q.cap b)) (bs.filter fun b => q.cls b == c) x)
    { pool := e, a := Vector.replicate 12 0 }

/-! ## Moves (R196 to R200) -/

/-- The plan of a tick while it is made: what remains free, and what each bay holds and awaits. -/
structure Plan where
  free : List (Fin 8)
  out : List MoveDecision
  busy : List Nat
  own : Vector (List (Fin 64)) 12
  pin : Vector Nat 12
  count : Vector Nat 12
  slots : Vector Nat 12
  deriving DecidableEq, Repr

/-- F_b (R196). -/
def planHeld (s : State) (p : Plan) (b : Fin 12) : Nat := sumNat (p.own[b].map s.ratedW)

/-- Is the stall leaving its bay in a move? -/
def State.movingOut (s : State) (n : Fin 64) : Bool :=
  match s.slotOf n with
  | some k => s.mkt.moves[k].src.isSome && (s.mkt.moves[k].phase == .rampDown || s.mkt.moves[k].phase == .opening)
  | none => false

/-- The plan before its first request: the moves in flight as they stand. -/
def State.startPlan (s : State) : Plan :=
  let live := s.mkt.moves.toList.filter fun m => m.phase != .free
  let attaching := fun (b : Fin 12) => live.filter fun m => m.dst == some b.val
  { free := (fins 8).filter fun k => s.mkt.moves[k].phase == .free
    out := []
    busy := live.map (·.stall)
    own := vgen fun b => (s.stallsOf b).filter fun n => s.stalls[n].st == .assigned && !s.movingOut n
    pin := vgen fun b => sumNat ((attaching b).map fun m => match fin? 64 m.stall with | some n => s.ratedW n | none => 0)
    count := vgen fun b => (s.stallsOf b).length + ((attaching b).filter fun m => m.phase != .rampUp).length
    slots := vgen fun b => (live.filter fun m => m.serves == b.val).length }

/-- The move of a decision, with the parameters of its stall record (R201). -/
def State.moveFor (s : State) (n : Fin 64) (src dst : Option (Fin 12)) (serves : Nat) : MoveSlot :=
  match s.stallRec n with
  | some r => { phase := if src.isSome then .rampDown else .closing, stall := n.val, src := src.map (·.val), dst := dst.map (·.val), serves,
                rampMs := r.rampMs, tClose := r.tClose, tOpen := r.tOpen }
  | none => {}

/-- A decision joins the plan in the first free slot. -/
def planAdd (s : State) (p : Plan) (n : Fin 64) (src dst : Option (Fin 12)) (serves : Nat) : Plan :=
  match p.free with
  | [] => p
  | k :: rest =>
    let d : MoveDecision := { slot := k, move := s.moveFor n src dst serves, stallSt := s.stalls[n].st, linkRun := s.stalls[n].link.st == .run }
    let p := { p with free := rest, out := p.out ++ [d], busy := n.val :: p.busy }
    let p := match src with | some b => { p with own := vupd p.own b fun l => l.filter (· != n) } | none => p
    let p := match dst with
      | some b => { p with pin := vupd p.pin b (· + s.ratedW n), count := vupd p.count b (· + 1) }
      | none => p
    match fin? 12 serves with | some b => { p with slots := vupd p.slots b (· + 1) } | none => p

/-- Does clearing start no move to or from the bay: it is in RAMP of a safe stop (R315)? -/
def State.noMoves (s : State) (b : Fin 12) : Bool := s.saf.stops[b].st == .ramp

/-- Is the bay in deficit (R196)? -/
def deficit (s : State) (p : Plan) (a : Vector Nat 12) (b : Fin 12) : Bool := decide (planHeld s p b + p.pin[b] < a[b])

/-- The donor and stall of a transfer to the bay (R197). -/
def donorFor (s : State) (p : Plan) (a : Vector Nat 12) (b : Fin 12) : Option (Fin 64 × Fin 12) :=
  (fins 12).foldl (fun got d =>
    match got with
    | some x => some x
    | none =>
      if d == b || (s.bayRec d).isNone || s.noMoves d || deficit s p a d then none
      else (p.own[d].reverse.find? fun n => s.usableFor n b && !p.busy.contains n.val && decide (a[d] + s.ratedW n ≤ planHeld s p d)).map fun n => (n, d))
    none

/-- One deficit served by one stall, if it finds one (R197). -/
def serveOne (s : State) (p : Plan) (a : Vector Nat 12) (b : Fin 12) : Plan :=
  match s.bayRec b with
  | none => p
  | some r =>
    if p.free.isEmpty || !deficit s p a b || decide (r.stallsMax ≤ p.count[b]) || decide (s.mkt.effective.perBay ≤ p.slots[b]) then p
    else
      match (fins 64).find? fun n => s.stalls[n].st == .idle && s.usableFor n b && !p.busy.contains n.val with
      | some n => planAdd s p n none (some b) b.val
      | none =>
        match donorFor s p a b with
        | some (n, d) => planAdd s p n (some d) (some b) b.val
        | none => p

/-- A deficit served until it is met or finds nothing: at most a slot per step. -/
def serve (s : State) (a : Vector Nat 12) : Nat → Fin 12 → Plan → Plan
  | 0, _, p => p
  | f + 1, b, p => serve s a f b (serveOne s p a b)

/-- The condition of R199 on the highest-numbered assigned stall. -/
def releaseHolds (s : State) (p : Plan) (a : Vector Nat 12) (b : Fin 12) : Bool :=
  match p.own[b].getLast? with
  | some n => decide (a[b] * (100 + s.mkt.effective.relMargin) ≤ (planHeld s p b - s.ratedW n) * 100) && decide (s.ratedW n ≤ planHeld s p b)
  | none => false

/-- Has the bay a move in flight (R199)? -/
def State.moveOfBay (s : State) (b : Fin 12) : Bool :=
  s.mkt.moves.toList.any fun m => m.phase != .free && (m.src == some b.val || m.dst == some b.val || m.serves == b.val)

/-- R_b of this tick (R199). -/
def relCounts (s : State) (a : Vector Nat 12) (bidding : Fin 12 → Bool) : Vector Nat 12 :=
  let p := s.startPlan
  vgen fun b => if bidding b && !s.moveOfBay b && releaseHolds s p a b then s.mkt.bays[b].relCount + 1 else 0

/-- The moves of a tick in the order of R197, with R_b. A release is of the stall R_b was counted for (R199). -/
def planMoves (s : State) (a floor : Vector Nat 12) (bidding : Fin 12 → Bool) : Plan × Vector Nat 12 :=
  let p0 := s.startPlan
  let rel := relCounts s a bidding
  let used := (fins 12).filter fun b => (s.bayRec b).isSome && !s.noMoves b
  let short := used.filter fun b => deficit s p0 a b
  let urgent := short.filter fun b => decide (planHeld s p0 b + p0.pin[b] < floor[b])
  let rest := short.filter fun b => !decide (planHeld s p0 b + p0.pin[b] < floor[b])
  let p := (urgent ++ rest).foldl (fun p b => serve s a 8 b p) p0
  let p := (used.filter fun b => !bidding b).foldl (fun p b =>
    p.own[b].reverse.foldl (fun p n => if p.busy.contains n.val then p else planAdd s p n (some b) none 15) p) p
  ((used.filter bidding).foldl (fun p b =>
    match p0.own[b].getLast? with
    | some n =>
      if decide (s.mkt.effective.relHold ≤ rel[b]) && decide (p.slots[b] < s.mkt.effective.perBay) && !p.free.isEmpty && !p.busy.contains n.val then
        planAdd s p n (some b) none b.val
      else p
    | none => p) p, rel)

/-! ## A tick (R177 step 2) -/

/-- The bay PI bounds of a set-point (R195); with V_use = 0 the set-point sets no bound. -/
def boundsOf (setpt vUse vmaxI iMax : Nat) (exporting : Bool) : Int × Int :=
  let i := min (min (if vUse = 0 then 32767 else 8 * setpt * 655360 / vUse) (8 * vmaxI)) (min (8 * iMax) 32767)
  if exporting then (-(i : Int), 0) else (0, i)

/-- The results of a tick from its snapshot; `s` is the state as clearing reads it. -/
def clearTick (s : State) (t : Nat) (img : Image) (q : TickSnap) : TickResult :=
  let pol := s.mkt.effective
  let l := s.limitsOf t img.header q
  let bid := fun (b : Fin 12) => q.bids.getD b.val {}
  let recd := fun (b : Fin 12) => s.bayRec b
  let bidding := fun b => (bid b).bidding && (recd b).isSome
  let cap := vgen (n := 12) fun b => match recd b with | some r => if bidding b then s.capOf b r (bid b) (q.terms.getD b.val 0) else 0 | none => 0
  let imports := (fins 12).filter fun b => bidding b && !(bid b).exporting
  let exports := (fins 12).filter fun b => bidding b && (bid b).exporting
  let floor := vgen (n := 12) fun b => match recd b with
    | some r => if imports.contains b then (if s.checkBay b then cap[b] else min (r.pFloorKw * 1000) cap[b]) else 0
    | none => 0
  let rnd : Round :=
    { bid, cap := fun b => cap[b], floor := fun b => floor[b]
      cls := fun b => if pol.useDef[b] then (match recd b with | some r => r.classDef | none => 0) else pol.cls[b]
      weight := fun b => if pol.useDef[b] then (match recd b with | some r => r.weightDef | none => 1) else pol.weight[b] }
  let rate := kwOr pol.rateKw img.header.rateMax * 1000
  let jerk := kwOr pol.jerkKw img.header.jerkMax * 1000
  let want := fun bs : List (Fin 12) => sumNat (bs.map fun b => min (bid b).maxP cap[b])
  let e := envStep jerk rate (min l.1.site (want imports)) s.mkt.env s.mkt.envRate
  let ex := envStep jerk rate (min (pol.exportKw * 1000) (want exports)) s.mkt.envX s.mkt.envXRate
  let check := imports.filter fun b => s.checkBay b
  let others := imports.filter fun b => !s.checkBay b
  let sf := sumNat (others.map fun b => floor[b])
  let short := if l.1.site < sf then 1 else if e.1 < sf then 2 else 0
  let gi := importGrants rnd e.1 check others
  let gx := exportGrants rnd ex.1 exports
  let grant := vgen (n := 12) fun b => if (bid b).exporting then gx.a[b] else gi.a[b]
  let plan := planMoves s grant floor bidding
  let bays := vgen (n := 12) fun b =>
    let old := s.mkt.bays[b]
    let held := s.heldW b
    let head : BayClear :=
      { bid := bid b, cls := rnd.cls b, weight := rnd.weight b, cap := cap[b], floor := floor[b], grant := grant[b], held,
        stalls := (s.stallsOf b).length,
        attaching := (s.mkt.moves.toList.filter fun m => m.phase != .free && m.dst == some b.val).length,
        relCount := plan.2[b] }
    match recd b with
    | none => { ({} : BayClear) with relCount := 0 }
    | some r =>
      if bidding b then
        let prev := if old.bid.exporting = (bid b).exporting then old.setpt else 0
        let sp := min (min grant[b] held) (prev + pol.bayRateKw[b] * 1000)
        let io := boundsOf sp (s.vUse b r) (bid b).vmaxI r.iMax (bid b).exporting
        { head with setpt := sp, iLo := io.1, iHi := io.2 }
      else if s.stopping b then { head with iLo := old.iLo, iHi := old.iHi }
      else head
  { at_ := t, limits := l.1, stale := l.2, short, env := e.1, envRate := e.2, envX := ex.1, envXRate := ex.2, bays, moves := plan.1.out,
    xfHot := none }

/-- The hot-spot estimate of MKT.XF_HOT in 0.01 °C; its rounding is a free choice. -/
def State.xfHotOf (s : State) : Int :=
  let h := (s.xfAmbient + s.mkt.theta) * 100
  someRound 2 h.num h.den

/-- Steps 1 and 2 of R177 on a snapshot: the transformer model advances, the results of the tick wait for their commit. -/
def State.clearOn (s : State) (t : Nat) (q : TickSnap) : State :=
  let p := s.mkt.effective
  let s := if p.pRKw ≠ 0 ∧ q.metStamp.isSome then { s with mkt := { s.mkt with theta := thetaStep p q.s s.mkt.theta } } else s
  let hot := if p.pRKw ≠ 0 then some s.xfHotOf else none
  let s := if t % 1000000000 = 0 then { s with mkt := { s.mkt with thetaSaved := s.mkt.theta, thetaSavedAt := t } } else s
  match s.clearingImage with
  | none => s
  | some img => { s with mkt := { s.mkt with result := some { clearTick s.clearingView t img q with xfHot := hot } } }

/-! ## The commit (R178) -/

/-- Does the decision still stand: its slot FREE, its stall in the state and place it was decided on (R178), no bay of it in RAMP of
a safe stop (R315)? -/
def State.moveStands (s : State) (d : MoveDecision) : Bool :=
  match fin? 64 d.move.stall with
  | none => false
  | some n =>
    s.mkt.moves[d.slot].phase == .free && (s.slotOf n).isNone && s.stalls[n].st == d.stallSt &&
    (match d.move.src with | some b => s.stalls[n].bay == fin? 12 b | none => s.stalls[n].bay.isNone) &&
    (!d.linkRun || s.stalls[n].link.st == .run) &&
    !([d.move.src, d.move.dst].any fun o => match o.bind (fin? 12) with | some b => s.noMoves b | none => false)

/-- A committed move starts (R201); R_b of a bay that releases a stall returns to 0 (R199). -/
def State.startMove (s : State) (d : MoveDecision) : State :=
  if !s.moveStands d then s
  else
    match fin? 64 d.move.stall with
    | none => s
    | some n =>
      let s := (s.setMove d.slot fun _ => { d.move with startedAt := s.mt }).bump 5
      let s := match d.move.src.bind (fin? 12) with
        | some b => if d.move.dst.isNone then { s with mkt := { s.mkt with bays := vupd s.mkt.bays b fun x => { x with relCount := 0 } } } else s
        | none => s
      if d.move.src.isNone then s.setStall n fun x => { x with matrix := d.move.dst.bind (fin? 12) }
      else (s.mapCells n fun _ c => cellLeave (rampLen s.pitchNs d.move.rampMs) c).moveRampDone n

/-- The results of a tick as numbers, for its digest (R339). -/
def resultNumbers (r : TickResult) : List Int :=
  [(r.limits.grid : Int), r.limits.pol, r.limits.xf, r.limits.met, r.limits.site, r.limits.src, (b2n r.stale : Nat), r.short, r.env, r.envRate, r.envX, r.envXRate] ++
  (r.bays.toList.flatMap fun b => [(b.cap : Int), b.floor, b.grant, b.setpt, b.held, b.iLo, b.iHi, b.stalls, b.attaching]) ++
  (r.moves.flatMap fun d => [(d.slot.val : Int), d.move.stall, (d.move.src.getD 15 : Nat), (d.move.dst.getD 15 : Nat), d.move.serves])

/-- In full pair the digest of the results committed at a tick is kept for the partner's next TICK (R339, R341). -/
def State.keepDigest (s : State) (r : TickResult) : State :=
  if s.pair.mode = .full then { s with pair := { s.pair with seljo := { s.pair.seljo with tickDigest := some (r.at_, Config.resultsDigest (resultNumbers r)) } } } else s

/-- The results of a tick are committed together (R177 step 3). -/
def State.commitTick (s : State) (r : TickResult) : State :=
  let changed := r.limits.src != s.mkt.limits.src || r.short != s.mkt.short || r.stale != s.mkt.stale
  let rose := s.mkt.short == 0 && r.short != 0
  let s := { s with mkt := { s.mkt with
    limits := r.limits, stale := r.stale, short := r.short, env := r.env, envRate := r.envRate, envX := r.envX, envXRate := r.envXRate,
    bays := r.bays, boundsAt := r.at_ + 250000, oldBounds := vgen fun b => (s.mkt.bays[b].iLo, s.mkt.bays[b].iHi),
    xfHot := r.xfHot.getD s.mkt.xfHot, result := none, shortEvt := if rose then satInc 8 s.mkt.shortEvt else s.mkt.shortEvt } }
  let s := if rose then s.log 0x0501 0xFF r.short r.limits.site else s.bumpIf changed 5
  (r.moves.foldl (fun s d => s.startMove d) s).keepDigest r

end Sys2Proof.Machine
end

