-- ==== Sys2Proof/Machine/Policy.lean ====
section
/-! DEFINITION. The policy of MKT (R205): its words, their bounds, commit and discard, the clamps of R64, and the MKT registers (R207). -/
namespace Sys2Proof.Machine

/-- The effect of an accepted register write, with its refusal where there is one. -/
abbrev RegEffect := Option Answer × (State → State)

/-- A read-only word: the write is ignored with status OK (R7). -/
def roWord : RegEffect := (none, id)

/-- A word's write that is accepted where the condition holds, else DENIED with detail RANGE. -/
def inRange (ok : Bool) (f : State → State) : RegEffect := (refuseIf (!ok) (deny .range), f)

/-- More than one command bit is set among those of the mask (R518). -/
def severalBits (v mask : Nat) : Bool := decide (1 < popCount 32 (v &&& mask))

/-! ## Policy words (R207) -/

/-- Index of a per-bay policy word. -/
def polBay (off base : Nat) : Option (Fin 12) := if off % 4 = 0 ∧ base ≤ off then fin? 12 ((off - base) / 4) else none

/-- The policy with the word at an offset written; none where no policy word lies there. -/
def polSet (p : Policy) (off v : Nat) : Option Policy :=
  match off with
  | 0x10 => some { p with contractKw := bits v 0 16, siteKw := bits v 16 16 }
  | 0x14 => some { p with rateKw := bits v 0 16, jerkKw := bits v 16 16 }
  | 0x18 => some { p with exportKw := bits v 0 16 }
  | 0x1C => some { p with perBay := bits v 0 4, relMargin := bits v 8 8, relHold := bits v 16 16 }
  | 0x20 => some { p with pRKw := bits v 0 16, pOvlKw := bits v 16 16 }
  | 0x24 => some { p with tauS := bits v 0 16, riseR := bits v 16 8, ambSrc := bits v 24 8 }
  | 0x28 => some { p with thetaAl := bits v 0 8, thetaMax := bits v 8 8, ambFix := bits v 16 8 }
  | _ =>
    match polBay off 0x40, polBay off 0x70 with
    | some b, _ => some { p with capKw := vupd p.capKw b fun _ => bits v 0 16, cls := vupd p.cls b fun _ => bits v 16 3,
                                 useDef := vupd p.useDef b fun _ => v.testBit 19, weight := vupd p.weight b fun _ => bits v 24 8 }
    | _, some b => some { p with bayRateKw := vupd p.bayRateKw b fun _ => bits v 0 16 }
    | _, _ => none

/-- The value of the policy word at an offset. -/
def polGet (p : Policy) (off : Nat) : Option Nat :=
  match off with
  | 0x10 => some (p.contractKw + p.siteKw * 2 ^ 16)
  | 0x14 => some (p.rateKw + p.jerkKw * 2 ^ 16)
  | 0x18 => some p.exportKw
  | 0x1C => some (p.perBay + p.relMargin * 2 ^ 8 + p.relHold * 2 ^ 16)
  | 0x20 => some (p.pRKw + p.pOvlKw * 2 ^ 16)
  | 0x24 => some (p.tauS + p.riseR * 2 ^ 16 + p.ambSrc * 2 ^ 24)
  | 0x28 => some (p.thetaAl + p.thetaMax * 2 ^ 8 + p.ambFix * 2 ^ 16)
  | _ =>
    match polBay off 0x40, polBay off 0x70 with
    | some b, _ => some (p.capKw[b] + p.cls[b] * 2 ^ 16 + b2n p.useDef[b] * 2 ^ 19 + p.weight[b] * 2 ^ 24)
    | _, some b => some p.bayRateKw[b]
    | _, _ => none

/-- 0xFFFF, or within bounds. -/
def polIn (v lo hi : Nat) : Bool := v == 0xFFFF || decide (lo ≤ v ∧ v ≤ hi)

/-- Bounds of the active image: SITE_LIMIT_MAX_KW, SITE_MIN_KW, GRID_RATE_MAX, GRID_JERK_MAX; without one, the field range (R205). -/
def polBounds (img : Option Image) : Nat × Nat × Nat × Nat :=
  match img with
  | some i => (i.header.siteMaxKw, i.header.siteMinKw, i.header.rateMax, i.header.jerkMax)
  | none => (0xFFFF, 0, 0xFFFF, 0xFFFF)

/-- Are the fields of the word at an offset within the accepted values of R205? -/
def polOk (img : Option Image) (p : Policy) (off : Nat) : Bool :=
  let q := polBounds img
  match off with
  | 0x10 => polIn p.contractKw 1 q.1 && polIn p.siteKw q.2.1 q.1
  | 0x14 => polIn p.rateKw 1 q.2.2.1 && polIn p.jerkKw 1 q.2.2.2
  | 0x18 => decide (p.exportKw ≤ q.1)
  | 0x1C => decide (1 ≤ p.perBay ∧ p.perBay ≤ 8 ∧ 1 ≤ p.relHold ∧ p.relMargin ≤ 100)
  | 0x20 => p.pRKw == 0 || decide (p.pRKw ≤ p.pOvlKw ∧ p.pOvlKw ≤ q.1)
  | 0x24 => decide (1 ≤ p.tauS ∧ 1 ≤ p.riseR ∧ p.riseR ≤ 150) && (p.ambSrc == 0xFF || decide (p.ambSrc ≤ 35))
  | 0x28 => decide (60 ≤ p.thetaAl ∧ p.thetaAl < p.thetaMax ∧ p.thetaMax ≤ 200)
  | _ =>
    match polBay off 0x40, polBay off 0x70 with
    | some b, _ =>
      decide (1 ≤ p.weight[b]) &&
      (match img.bind fun i => i.bays.find? fun r => r.bayId == b.val with
       | some r => polIn p.capKw[b] r.pFloorKw r.pMaxKw
       | none => true)
    | _, some b => decide (1 ≤ p.bayRateKw[b])
    | _, _ => true

/-- Does the shadow set differ from the committed one (MKT.STAT.POL_PEND, R207)? -/
def State.polPend (s : State) : Bool := s.mkt.shadow != s.mkt.committed

/-- The shadow set is written; a change of POL_PEND counts in SUM5 (R402). -/
def State.setShadow (s : State) (p : Policy) : State :=
  let s' := { s with mkt := { s.mkt with shadow := p } }
  s'.bumpIf (s.polPend != s'.polPend) 5

/-- The effect of a write to the policy word at an offset: role (R351), bounds, then the shadow. -/
def policyEffect (s : State) (off v : Nat) : Option RegEffect :=
  (polSet s.mkt.shadow off v).map fun p =>
    (firstOf (roleGuard s) (refuseIf (!polOk s.prof.image p off) (deny .range)), fun s => s.setShadow p)

/-- Octets of a commit in MRAM: the 31 policy words. -/
def policyBytes : Nat := 124

/-- Have the policy share and the unreserved share no room for these octets in this tick (R206)? -/
def State.policyFull (s : State) (n : Nat) : Bool := decide (s.mram.policy < n ∧ s.spareFor 3 < n)

/-- Octets written to MRAM from the share of policy and configuration; what finds no room waits for the next tick (R206). -/
def State.chargePolicy (s : State) (n : Nat) : State :=
  { s with mram :=
    if n ≤ s.mram.policy then { s.mram with policy := s.mram.policy - n }
    else if n ≤ s.spareFor 3 then { s.mram with spare := s.mram.spare - n }
    else { s.mram with policyDue := s.mram.policyDue + n } }

/-- A policy set is committed (R205). -/
def State.storePolicy (s : State) (p : Policy) : State :=
  (({ s with mkt := { s.mkt with committed := p, commitAt := some s.mt, commitDue := none } }).chargePolicy policyBytes).bumpIf (s.mkt.committed != p) 5

/-- The effect of COMMIT (R205): a commit that finds no room in its MRAM share waits until the next tick (R206). -/
def State.policyCommit (s : State) : State :=
  if s.policyFull policyBytes then { s with mkt := { s.mkt with commitDue := some s.mkt.shadow } } else s.storePolicy s.mkt.shadow

/-- A tick starts: every client has its share again. The configuration writes that waited come first in theirs, then in what the clients
before them in the table leave of the unreserved share (R206). -/
def State.mramTick (s : State) : State :=
  let due := min s.mram.policyDue 4096
  let s := { s with mram := { policy := 4096 - due, policyDue := s.mram.policyDue - due } }
  let lent := min s.mram.policyDue (s.spareFor 3)
  let s := { s with mram := { s.mram with spare := s.mram.spare - lent, policyDue := s.mram.policyDue - lent } }
  match s.mkt.commitDue with
  | some p => s.storePolicy p
  | none => s

/-- The effect of DISCARD (R207). -/
def State.policyDiscard (s : State) : State := s.setShadow s.mkt.committed

/-- The effect of CLR_CNT of MKT.CTRL. -/
def State.mktClear (s : State) : State := { s with mkt := { s.mkt with movesDone := 0, closeFail := 0, shortEvt := 0 } }

/-- The committed policy takes effect at a tick start (R177, R205). -/
def State.takePolicy (s : State) : State := { s with mkt := { s.mkt with effective := s.mkt.committed, commitAt := none } }

/-! ## Clamps (R64) -/

/-- A policy under clamping, with the register addresses and values clamped so far. -/
structure Clamped where
  policy : Policy
  list : List (Nat × Nat)

/-- One value clamped: `v` stands in the policy, `put` replaces it. -/
def Clamped.to (c : Clamped) (addr v lo hi : Nat) (special : Bool) (put : Policy → Nat → Policy) : Clamped :=
  if special && v == 0xFFFF then c
  else
    let w := clampNat lo hi v
    if w = v then c else { policy := put c.policy w, list := c.list ++ [(addr, w)] }

/-- The policy within the bounds of an image, with what was clamped. -/
def clampPolicy (img : Image) (p : Policy) : Clamped :=
  let h := img.header
  let c : Clamped := { policy := p, list := [] }
  let c := c.to 0x00400010 p.contractKw 1 h.siteMaxKw true fun q w => { q with contractKw := w }
  let c := c.to 0x00400010 p.siteKw h.siteMinKw h.siteMaxKw true fun q w => { q with siteKw := w }
  let c := c.to 0x00400014 p.rateKw 1 h.rateMax true fun q w => { q with rateKw := w }
  let c := c.to 0x00400014 p.jerkKw 1 h.jerkMax true fun q w => { q with jerkKw := w }
  let c := c.to 0x00400018 p.exportKw 0 h.siteMaxKw false fun q w => { q with exportKw := w }
  let c := if p.pRKw = 0 then c else
    let c := c.to 0x00400020 p.pOvlKw 1 h.siteMaxKw false fun q w => { q with pOvlKw := w }
    c.to 0x00400020 p.pRKw 1 c.policy.pOvlKw false fun q w => { q with pRKw := w }
  img.bays.foldl (fun c r =>
    match fin? 12 r.bayId with
    | some b => c.to (0x00400040 + 4 * b.val) p.capKw[b] r.pFloorKw r.pMaxKw true fun q w => { q with capKw := vupd q.capKw b fun _ => w }
    | none => c) c

/-- R64 at a switch to an image: the values in force are clamped, each clamp is recorded, CLAMPED is set. The shadow is
clamped alike, so that a later commit stays within the bounds. -/
def State.clampTo (s : State) (img : Image) : State :=
  let c := clampPolicy img s.mkt.committed
  let s := { s with mkt := { s.mkt with
    committed := c.policy, shadow := (clampPolicy img s.mkt.shadow).policy, effective := (clampPolicy img s.mkt.effective).policy,
    commitDue := s.mkt.commitDue.map fun p => (clampPolicy img p).policy } }
  if c.list.isEmpty then s
  else c.list.foldl (fun s x => s.log 0x0003 0xFF x.1 x.2) { s with prof := { s.prof with clamped := true } }

/-! ## MKT registers (R207) -/

/-- The number a 32-bit field shows of a signed value. -/
def signedWord (z : Int) : Nat := fieldOf 32 z

/-- MKT.STAT. -/
def mktStat (s : State) : Nat :=
  s.mkt.limits.src + b2n s.mkt.stale * 2 ^ 3 + s.mkt.short * 2 ^ 4 + b2n s.polPend * 2 ^ 6 +
  (s.mkt.moves.toList.filter fun m => m.phase != .free).length * 2 ^ 8

/-- Number of a move phase. -/
def phaseCode : MovePhase → Nat | .free => 0 | .rampDown => 1 | .opening => 2 | .closing => 3 | .rampUp => 4

/-- MKT.MOVEk. -/
def moveWord (m : MoveSlot) : Nat :=
  m.stall + (m.src.getD 0xF) * 2 ^ 12 + (m.dst.getD 0xF) * 2 ^ 16 + phaseCode m.phase * 2 ^ 24

/-- The per-bay result words of MKT. -/
def bayClearWord (s : State) (b : Fin 12) (i : Nat) : Option Nat :=
  let c := s.mkt.bays[b]
  let signed := fun (w : Nat) => signedWord (if c.bid.exporting then -(w : Int) else w)
  match i with
  | 0 => some c.bid.minP
  | 1 => some c.bid.reqP
  | 2 => some c.bid.maxP
  | 3 => some c.cap
  | 4 => some c.floor
  | 5 => some (signed c.grant)
  | 6 => some (signed c.setpt)
  | 7 => some c.held
  | 8 => some (c.cls + c.weight * 2 ^ 8 + c.stalls * 2 ^ 16 + c.attaching * 2 ^ 24 + b2n c.bid.exporting * 2 ^ 30 + b2n c.bid.bidding * 2 ^ 31)
  | _ => none

/-- A read of MKT at an offset. -/
def mktRead (s : State) (off : Nat) : Option Nat :=
  match polGet s.mkt.shadow off with
  | some v => some v
  | none =>
    match off with
    | 0x00 => some 0
    | 0x04 => some (mktStat s)
    | 0x08 => some (s.mkt.shortEvt + s.mkt.closeFail * 2 ^ 8 + s.mkt.movesDone * 2 ^ 16)
    | 0x100 => some s.mkt.limits.grid
    | 0x104 => some s.mkt.limits.pol
    | 0x108 => some s.mkt.limits.xf
    | 0x10C => some s.mkt.limits.met
    | 0x110 => some s.mkt.limits.site
    | 0x114 => some s.mkt.env
    | 0x118 => some (signedWord s.mkt.envRate)
    | 0x11C => some s.mkt.envX
    | 0x120 => some (signedWord s.mkt.xfHot)
    | _ =>
      if off % 4 ≠ 0 then none
      else if 0x1000 ≤ off ∧ off < 0x1300 then (fin? 12 ((off - 0x1000) / 0x40)).bind fun b => bayClearWord s b ((off - 0x1000) % 0x40 / 4)
      else if 0x2000 ≤ off ∧ off < 0x2020 then (fin? 8 ((off - 0x2000) / 4)).map fun k => moveWord s.mkt.moves[k]
      else if 0x2100 ≤ off ∧ off < 0x2200 then (fin? 64 ((off - 0x2100) / 4)).map fun n => s.stalls[n].reachFault
      else none

/-- A write of MKT.CTRL: its commands (R207, R518). -/
def mktCtrl (s : State) (v : Nat) : RegEffect :=
  if severalBits v 3 then (some (deny .range), id)
  else (if v.testBit 1 then pfwRefusal s else none, fun s =>
    let s := if v.testBit 1 then s.policyCommit else if v.testBit 0 then s.policyDiscard else s
    if v.testBit 2 then s.mktClear else s)

/-- A write of MKT at an offset. -/
def mktWrite (s : State) (off v : Nat) : Option RegEffect :=
  match policyEffect s off v with
  | some e => some e
  | none =>
    if off = 0 then some (mktCtrl s v)
    else if off % 4 = 0 ∧ 0x2100 ≤ off ∧ off < 0x2200 then
      (fin? 64 ((off - 0x2100) / 4)).map fun n => (none, fun s => (s.setStall n fun x => { x with reachFault := clrMask 12 x.reachFault v }).bumpIf (clrMask 12 s.stalls[n].reachFault v != s.stalls[n].reachFault) 5)
    else (mktRead s off).map fun _ => roWord

/-! ## Commands -/

/-- POLICY_WRITE (R205): a write of a policy word; an address that holds none is UNMAPPED. -/
def doPolicyWrite (t : Nat) (m : Master) (addr : Nat) (value : Word) : State → State :=
  whenLive t fun s =>
    match (if 0x00400000 ≤ addr then policyEffect s (addr - 0x00400000) value.toNat else none) with
    | some e => s.command m addr (firstOf (foreign s m) e.1) e.2
    | none => s.answered m true addr ⟨.unmapped, .none⟩

/-- POLICY_COMMIT (R205). -/
def doPolicyCommit (t : Nat) (m : Master) : State → State :=
  whenLive t fun s => s.command m 0x00400000 (firstOf (foreign s m) (pfwRefusal s)) fun s => s.policyCommit

/-- POLICY_DISCARD (R207). -/
def doPolicyDiscard (t : Nat) (m : Master) : State → State :=
  whenLive t fun s => s.command m 0x00400000 (foreign s m) fun s => s.policyDiscard

/-- MKT_CLR_CNT (R207). -/
def doMktClrCnt (t : Nat) (m : Master) : State → State :=
  whenLive t fun s => s.command m 0x00400000 (foreign s m) fun s => s.mktClear

/-! ## Meanings -/

/-- Meaning of POLICY_WRITE (R205). -/
def execPolicyWrite (t : Nat) (m : Master) (addr : Nat) (value : Word) (s : State) : Host.Outcome State Fault Refusal :=
  .next (doPolicyWrite t m addr value s)

/-- Meaning of POLICY_COMMIT (R205). -/
def execPolicyCommit (t : Nat) (m : Master) (s : State) : Host.Outcome State Fault Refusal :=
  .next (doPolicyCommit t m s)

/-- Meaning of POLICY_DISCARD (R207). -/
def execPolicyDiscard (t : Nat) (m : Master) (s : State) : Host.Outcome State Fault Refusal :=
  .next (doPolicyDiscard t m s)

/-- Meaning of MKT_CLR_CNT (R207). -/
def execMktClrCnt (t : Nat) (m : Master) (s : State) : Host.Outcome State Fault Refusal :=
  .next (doMktClrCnt t m s)

end Sys2Proof.Machine
end

