-- ==== Sys2Proof/Machine/Profile.lean ====
section
/-! DEFINITION. Layout profiles: the slot windows (R30, R31), the commands of SYS.PROF_CTRL (R55, R56, R61), the checks'
end (R50), activation (R61, R99, R127, R515, R520), LIVE and handover switches (R66, R355), the profile registers (R67). -/
namespace Sys2Proof.Machine

/-! ## Slots -/

/-- Slot `p` changed. -/
def State.setSlot (s : State) (p : Fin 4) (f : ProfSlot → ProfSlot) : State :=
  { s with prof := { s.prof with slots := vupd s.prof.slots p f } }

/-- Slot `p` in a state; the change is counted (R402). -/
def State.slotSt (s : State) (p : Fin 4) (st : SlotState) : State := (s.setSlot p fun x => { x with st }).bump 0

/-- Number of a slot state. -/
def slotCode : SlotState → Nat
  | .empty => 0 | .loading => 1 | .checking => 2 | .valid => 3 | .invalid => 4 | .pending => 5 | .active => 6

/-- Is the slot shut to writes and ERASE (R31, R56)? -/
def slotHeld (x : ProfSlot) : Bool := x.st == .active || x.st == .pending || x.st == .checking

/-- Room in the MRAM share of profile slots or in the unreserved share (R206); none at a power-fail warning (R421). -/
def State.slotRoom (s : State) (n : Nat) : Bool := !s.pwr.pfw && decide (n ≤ s.mram.slots ∨ n ≤ s.spareFor 4)

/-- The share is charged. -/
def State.chargeSlots (s : State) (n : Nat) : State :=
  if n ≤ s.mram.slots then { s with mram := { s.mram with slots := s.mram.slots - n } }
  else { s with mram := { s.mram with spare := s.mram.spare - n } }

/-- A word stored in a slot, which is then LOADING (R30, R31). -/
def State.storeSlot (s : State) (p : Fin 4) (off : Nat) (v : Word) : State :=
  let x := s.prof.slots[p]
  let ext := if x.st = .loading then max x.extent (off + 4) else off + 4
  let s := (s.chargeSlots 4).setSlot p fun x => { x with mem := memWrites x.mem off (leBytes 4 v.toNat), extent := ext, st := .loading }
  s.bumpIf (x.st != .loading) 0

/-- The slot and offset of an address in the profile windows. -/
def slotAddr (addr : Nat) : Option (Fin 4 × Nat) :=
  if 0x01000000 ≤ addr then (fin? 4 ((addr - 0x01000000) / 0x100000)).map fun p => (p, (addr - 0x01000000) % 0x100000) else none

/-- The effect of a word written to a profile window. -/
def profWindowEffect (s : State) (p : Fin 4) (off : Nat) (v : Word) : RegEffect :=
  (firstOf (refuseIf (slotHeld s.prof.slots[p]) ⟨.locked, .none⟩) (refuseIf (!s.slotRoom 4) ⟨.busy, .mram⟩), fun s => s.storeSlot p off v)

/-- PROFILE_WINDOW_WRITE (R31). -/
def doProfileWindowWrite (t : Nat) (m : Master) (addr : Nat) (value : Word) : State → State :=
  whenLive t fun s =>
    match slotAddr addr with
    | some (p, off) =>
      if off % 4 ≠ 0 then s.answered m true addr ⟨.unmapped, .none⟩
      else s.command m addr (firstOf (foreign s m) (profWindowEffect s p off value).1) (profWindowEffect s p off value).2
    | none => s.answered m true addr ⟨.unmapped, .none⟩

/-! ## CTRL (R339) -/

/-- The items of a CTRL message: the step, its slot and IMAGE_UID. -/
def ctrlItems : CtrlStep → List Int
  | .releasing => [0]
  | .released => [1]
  | .profile slot uid => 2 :: (slot.val : Int) :: uid.map fun x => (x.toNat : Int)

/-- A step of a handover is sent on the Seljo link. -/
def State.sendCtrl (s : State) (step : CtrlStep) : State := s.sendSeljo 8 0 s.mt (Config.seljoPayload 8 (ctrlItems step))

/-- IMAGE_UID of a slot as its header bytes give it (R33). -/
def slotUid (x : ProfSlot) : Bytes := memRange x.mem 0x10 16

/-! ## Errors and ends of a change -/

/-- SYS.PROF_ERR set. -/
def State.profErr (s : State) (code sec rec_ : Nat) : State :=
  ({ s with prof := { s.prof with errCode := code, errSection := sec, errRecord := rec_ } }).bumpIf
    (s.prof.errCode != code || s.prof.errSection != sec || s.prof.errRecord != rec_) 0

/-- SYS.PROF_ERR as a word. -/
def profErrWord (s : State) : Nat := s.prof.errCode + s.prof.errSection * 2 ^ 8 + s.prof.errRecord * 2 ^ 16

/-- A pending change ends with a code: its slot is VALID again, the shadow buffers are emptied (R55). A LIVE set whose copy into tile
memory has started always completes (R142): its change goes on. DESIGN CHOICE (log 111): a CANCEL is answered OK there. -/
def State.cancelPending (s : State) (code : Nat) : State :=
  match s.prof.pend with
  | none => s
  | some p =>
    if p.mode = .live ∧ s.lat.copying then s
    else
    let s := { s with prof := { s.prof with pend := none, holdSessions := false }, lat := { s.lat with swapPend := 0 },
                      pair := { s.pair with seljo := { s.pair.seljo with partnerLoaded := none, partnerReleasing := false } } }
    (s.profErr code 0 0xFFFF).slotSt p.slot .valid

/-! ## Commands (R55, R56) -/

/-- The commands of SYS.PROF_CTRL. -/
inductive ProfCmd where
  | check | activate | erase | cancel
  deriving DecidableEq, Repr

/-- The mode a MODE field names. -/
def modeOf : Fin 4 → Option ChangeMode
  | 0 => some .stopped
  | 1 => some .live
  | 2 => some .handover
  | _ => none

/-- Is the module within its holdoff after a role change (R337)? -/
def State.holdoff (s : State) : Bool := decide (s.mt < s.pair.holdoffDue)

/-- Is the partner heard within 50 ms, in STANDBY and fit? -/
def State.partnerFit (s : State) : Bool :=
  s.pair.partner.role == some .standby && s.pair.partner.fit &&
  (match s.pair.partner.heardAt with | some t => decide (s.mt ≤ t + ms 50) | none => false)

/-- May a HANDOVER change be asked for (R354)? -/
def State.handoverPossible (s : State) : Bool := s.pair.mode == .full && s.active && s.partnerFit && !s.holdoff

/-- SAF.STAT.LOG_FULL: the safety partition can take no further change-log record (R325, R472). -/
def State.logFull (s : State) : Bool := s.ldg.parts[(1 : Fin 3)].full || decide (2097120 < s.ldg.parts[(1 : Fin 3)].fill + 96)

/-- The refusals of R56 in their order, with their codes, then that of R325; LOCKED comes before any other (R392). -/
def profRefusal (s : State) (c : ProfCmd) (p : Fin 4) (mode : Option ChangeMode) : Option (Answer × Option Nat) :=
  let x := s.prof.slots[p]
  let start := c == .check || c == .activate
  match mode with
  | none => some (if c == .erase && slotHeld x then ⟨.locked, .none⟩ else deny .range, none)
  | some md =>
    if c == .erase && slotHeld x then some (⟨.locked, .none⟩, none)
    else if c == .erase && s.pwr.pfw then some (⟨.busy, .mram⟩, none)
    else if start && x.st == .empty then some (deny .state, some 0x30)
    else if start && x.st == .active then some (deny .state, some 0x37)
    else if start && (s.prof.check.isSome || s.prof.pend.isSome) then some (⟨.busy, .state⟩, none)
    else if c == .activate && md == .handover && !s.handoverPossible then some (deny .state, some 0x36)
    else if c == .activate && md == .live && !s.running then some (deny .state, some 0x32)
    else if c == .activate && md == .stopped && (s.energisedMask != 0 || s.moveInFlight) then some (deny .state, some 0x31)
    else if c == .activate && s.logFull && changesSafety s (parseImage (slotImage x)) then some (deny .state, some 0x1E)
    else none

/-- A check starts (R55). -/
def State.startCheck (s : State) (m : Master) (p : Fin 4) (act : Option ChangeMode) : State :=
  let run : CheckRun := { slot := p, activate := act, started := s.mt, master := m, unlocked := s.saf.unlock.st == .unlocked }
  let s := s.setSlot p fun x => { x with resume := x.st }
  let s := { s with prof := { s.prof with check := some run, holdSessions := act == some ChangeMode.stopped } }
  s.slotSt p .checking

/-- The effect of an accepted command. -/
def State.profRun (s : State) (m : Master) (c : ProfCmd) (p : Fin 4) (md : ChangeMode) : State :=
  match c with
  | .check => s.startCheck m p none
  | .activate => if md = .handover then (s.startCheck m p (some md)).sendCtrl (.profile p (slotUid s.prof.slots[p])) else s.startCheck m p (some md)
  | .erase => (s.setSlot p fun x => { x with mem := [], extent := 0 }).slotSt p .empty
  | .cancel => s.cancelPending 0x34

/-- A command of SYS.PROF_CTRL: MODE and SLOT are set but where MODE is reserved; a refusal leaves its code in PROF_ERR. -/
def State.profCommand (s : State) (m : Master) (c : ProfCmd) (p md : Fin 4) : State × Answer :=
  match modeOf md with
  | none => (s, deny .range)
  | some mode =>
    let s := { s with prof := { s.prof with ctrlMode := md.val, ctrlSlot := p.val } }
    match profRefusal s c p (some mode) with
    | some (a, some code) => (s.profErr code 0 0xFFFF, a)
    | some (a, none) => (s, a)
    | none => (s.profRun m c p mode, okAnswer)

/-- Address of SYS.PROF_CTRL. -/
def profCtrl : Nat := 0x10

/-- A command of SYS.PROF_CTRL with its answer. -/
def State.profAccess (s : State) (m : Master) (c : ProfCmd) (p md : Fin 4) : State :=
  match foreign s m with
  | some a => s.answered m true profCtrl a
  | none => let r := s.profCommand m c p md; r.1.answered m true profCtrl r.2

/-- CHECK (R55). -/
def doCheck (t : Nat) (m : Master) (p md : Fin 4) : State → State := whenLive t fun s => s.profAccess m .check p md

/-- ACTIVATE (R61). -/
def doActivate (t : Nat) (m : Master) (p md : Fin 4) : State → State := whenLive t fun s => s.profAccess m .activate p md

/-- ERASE (R55). -/
def doErase (t : Nat) (m : Master) (p md : Fin 4) : State → State := whenLive t fun s => s.profAccess m .erase p md

/-- CANCEL (R55). -/
def doCancel (t : Nat) (m : Master) (p md : Fin 4) : State → State := whenLive t fun s => s.profAccess m .cancel p md

/-! ## Handover compatibility (R354) -/

/-- Is the tile owned by a stall that is not IDLE, or by an energised bay? -/
def State.tileInUse (s : State) (t : TileRec) : Bool :=
  match tileStall t with
  | some n => s.stalls[n].st != .idle
  | none => (match fin? 12 t.ownerId with | some b => s.bays[b].energised | none => false)

/-- May the running image change to the other by handover (code 0x35)? -/
def State.handoverCompatible (s : State) (old new : Image) : Bool :=
  old.header.pitchNs == new.header.pitchNs && old.header.carrierHz == new.header.carrierHz && old.header.update == new.header.update &&
  ((fins 64).all fun n =>
    s.stalls[n].st == .idle ||
    (match new.stalls.find? (fun r => r.stallId == n.val) with
     | some r => r.cellMask == cellMaskOf old n.val && (match s.stalls[n].bay with | some b => r.bayReach.testBit b.val | none => true)
     | none => false)) &&
  ((fins 12).all fun b => !s.bays[b].energised || new.header.bayMask.testBit b.val) &&
  (old.tiles.all fun t => !s.tileInUse t || (match tileOf new t.template t.ownerKind t.ownerId with | some u => u.lane == t.lane | none => false)) &&
  ((List.range 8).all fun l => decide (sumNat ((laneTiles old l).map tileBytes) + sumNat ((laneTiles new l).map tileBytes) ≤ 262144))

/-! ## The end of a check (R50, R55) -/

/-- A check ends badly (R50, R55). -/
def State.checkFailed (s : State) (c : CheckRun) (e : ImgErr) : State :=
  let s := { s with prof := { s.prof with check := none, holdSessions := false } }
  let s := ((s.profErr e.code e.section_ e.record).setSlot c.slot fun x => { x with lastCode := e.code, st := .invalid })
  s.log 0x0001 c.slot.val 1 (profErrWord s)

/-- A check command ends well. -/
def State.checkPassed (s : State) (c : CheckRun) : State :=
  let s := { s with prof := { s.prof with check := none } }
  (s.setSlot c.slot fun x => { x with lastCode := 0, st := .valid }).log 0x0001 c.slot.val 0 (profErrWord s)

/-- An ACTIVATE whose checks passed is refused by its mode: the slot returns to VALID (R62, R354). -/
def State.changeRefused (s : State) (c : CheckRun) (code : Nat) : State :=
  ({ s with prof := { s.prof with holdSessions := false } }.checkPassed c).profErr code 0 0xFFFF

/-- When both modules hold the image of a handover change: this module at its own PENDING; the module that holds ACTIVE once its partner
has told it of the same slot with the same IMAGE_UID (R354, R355). -/
def State.loadedNow (s : State) (slot : Fin 4) (uid : Bytes) : Option Nat :=
  if !s.active ∨ s.pair.seljo.partnerLoaded = some (slot.val, uid) then some s.mt else none

/-- The check of an ACTIVATE ends well, with its record (R466): the slot becomes PENDING; a LIVE change fills the shadow buffers, a handover
loads its image beside the running one, of which the standby tells the module that holds ACTIVE (R55, R66, R355). -/
def State.becomePending (s : State) (c : CheckRun) (mode : ChangeMode) (img : Image) : State :=
  let p : PendingChange := { slot := c.slot, mode, since := s.mt, image := img, master := c.master,
                             loaded := if mode = ChangeMode.handover then s.loadedNow c.slot img.header.uid else none }
  let s := if mode = .handover ∧ !s.active then s.sendCtrl (.profile c.slot img.header.uid) else s
  let s := { s with prof := { s.prof with check := none, pend := some p }, lat := { s.lat with swapPend := if mode = ChangeMode.live then 15 else 0 } }
  ((s.setSlot c.slot fun x => { x with lastCode := 0 }).slotSt c.slot .pending).log 0x0001 c.slot.val 0 (profErrWord s)

/-- Bytes of the active slot's image. -/
def State.activeBytes (s : State) : Bytes := match s.prof.active with | some p => slotImage s.prof.slots[p] | none => []

/-- The verdict on the slot under check takes effect. -/
def State.endCheck (s : State) (c : CheckRun) : State :=
  let v := checkSlot s c.unlocked c.slot
  let s := s.signatureServed c.slot v
  match v with
  | .error e => s.checkFailed c e
  | .ok img =>
    match c.activate with
    | none => s.checkPassed c
    | some .stopped => s.becomePending c .stopped img
    | some .live =>
      if s.running && liveCompatible s.activeBytes (slotImage s.prof.slots[c.slot]) then s.becomePending c .live img else s.changeRefused c 0x32
    | some .handover =>
      match s.prof.image with
      | some old => if !s.active || s.handoverCompatible old img then s.becomePending c .handover img else s.changeRefused c 0x35
      | none => s.changeRefused c 0x35

/-- CHECK_COMPLETE (R50). -/
def doCheckComplete (t : Nat) : State → State :=
  whenLive t fun s =>
    match s.prof.check with
    | some c => if expired t (c.started + ms 60) then s else s.endCheck c
    | none => s

/-- CHECK_TIMEOUT (R55). -/
def doCheckTimeout (t : Nat) : State → State :=
  whenLive t fun s =>
    match s.prof.check with
    | some c => if expired t (c.started + ms 60) then s.checkFailed c ⟨0x2F, 0, 0xFFFF⟩ else s
    | none => s

/-- PENDING_TIMEOUT (R55). -/
def doPendingTimeout (t : Nat) : State → State :=
  whenLive t fun s =>
    match s.prof.pend with
    | some p => if expired t (p.since + ms 100) then s.cancelPending 0x33 else s
    | none => s

/-! ## The stored safety configuration (R321, R325) -/

/-- SAF.SS_CFG as a word. -/
def ssCfgWord (ssRamp tolPct : Nat) : Nat := ssRamp + tolPct * 2 ^ 16

/-- The digest of a safety section with SAF.SS_CFG (R321). -/
def safDigest (bytes : Bytes) (ssRamp tolPct : Nat) : Bytes := sha256 (bytes ++ leBytes 4 (ssCfgWord ssRamp tolPct))

/-- A change-log record (R325): the old digest, then the new one. -/
def State.changeLog (s : State) (m : Master) (event : Nat) (old : Bytes) : State :=
  let n := satInc 32 s.saf.chgCount
  ({ s with saf := { s.saf with chgCount := n } }).log 0x0806 (masterCode m) event n (old ++ s.saf.digest)

/-- The activated image's safety section becomes the stored configuration (R321). -/
def State.storeSafety (s : State) (m : Master) (img : Image) : State :=
  if s.saf.stored = some img.safetyBytes then s
  else
    let old := s.saf.digest
    let s := { s with saf := { s.saf with stored := some img.safetyBytes, digest := safDigest img.safetyBytes s.saf.ssRamp s.saf.tolPct } }
    (s.chargePolicy img.safetyBytes.length).changeLog m 2 old

/-- Is the state one that MRAM holds (R304)? -/
def siFault (st : SiSt) : Bool := st == .faultDisc || st == .faultBoth || st == .faultTest

/-- The safety controller works with the records of an image. A pair that comes into use starts in IDLE, but for a fault
state, with its channels as they read now. -/
def State.takeSafety (s : State) (img : Image) : State :=
  let isNew := fun kind k => !(s.saf.records.any fun r => r.kind == kind && r.index == k) && (img.safety.any fun r => r.kind == kind && r.index == k)
  let si := vmap (fun k p => if isNew 1 k.val then
      { p with st := if siFault p.st then p.st else .idle, a := { p.a with stamp := s.mt }, b := { p.b with stamp := s.mt }, apart := none, mismatch := false }
    else p) s.saf.si
  let so := vmap (fun k p => if isNew 2 k.val then { p with awaits := false, since := s.mt } else p) s.saf.so
  { s with saf := { s.saf with records := img.safety, si, so } }

/-! ## Activation -/

/-- The bus follows a new image: another matrix is announced by DISC (R368); a channel the image does not use has no SYNC (R517). -/
def State.newMatrix (s : State) (img : Image) : State :=
  let cut := fun (k : Fin 2) (c : Channel) => c.sync && img.bus.any fun w => w.channel == k.val
  let s := s.bumpIf ((s.active && !s.running) || (fins 2).any fun k => s.sbus.ch[k].sync && !cut k s.sbus.ch[k]) 10
  let s := { s with sbus := { s.sbus with ch := vmap (fun k (c : Channel) => { c with sync := cut k c }) s.sbus.ch } }
  let matrix := match s.prof.image with | some o => o.bus == img.bus && o.header.sbusCycleNs == img.header.sbusCycleNs | none => false
  if matrix then s else { s with sbus := { s.sbus with ch := vmap (fun _ c => { c with disc := true }) s.sbus.ch } }

/-- The previously active slot becomes VALID and the new one ACTIVE (R55). -/
def State.takeSlot (s : State) (p : Fin 4) (img : Image) (source : Nat) : State :=
  let s := s.forAll 4 fun k s => if s.prof.slots[k].st = .active then s.setSlot k fun x => { x with st := .valid } else s
  let s := s.newMatrix img
  let s := { s with prof := { s.prof with active := some p, image := some img, source, pend := none, check := none, holdSessions := false } }
  (s.setSlot p fun x => { x with lastCode := 0 }).slotSt p .active

/-- A stall at an activation in STOPPED mode or at boot at market time `t` (R520, R61); a stop request that waits for the tick is taken
there (R65). -/
def stallSwitched (t : Nat) (x : Stall) : Stall :=
  let x := { x with sample := .none, runs := Vector.replicate 10 {}, coasting := false, coastCnt := 0, up := none, frame := none,
                    applied := none, laneBay := none, lastD := List.replicate 8 0, loadSum := 0, loadMax := 0, rearmTicks := 0 }
  match x.st with
  | .assigned => { x.place none t with st := .idle, matrix := none, gatedOut := false, checkOpen := true, cells := vmap (fun _ c => cellOff c) x.cells }
  | .stopping => { x with restartOpen := true, openDue := none }
  | _ => x

/-- The links at an activation in STOPPED mode or at boot (R99). A lite-pair module that does not hold ACTIVE keeps them OFF (R349); a
full-pair module exchanges configuration frames only while its market time is locked (R340). -/
def State.switchLink (s : State) (n : Fin 64) : State :=
  if (s.stallRec n).isNone then s.linkOff n
  else if s.pair.mode == .lite && !s.active then s
  else
    match s.stalls[n].link.st with
    | .off => s.linkAlign n
    | .run | .train => s.linkTrain n
    | _ => s

/-- Reading of a temperature input in 0.1 °C where it is valid (R236). -/
def State.tempOf (s : State) (input : Nat) : Option Int :=
  match fin? 36 input with | some n => if s.thm.ts[n].faulted then none else s.thm.ts[n].temp | none => none

/-- The ambient of a bay's cable model in 2^−16 °C, to a free rounding (R235). -/
def State.ambientLsb (s : State) (r : BayRec) : Int :=
  match s.tempOf r.tsC with | some x => someRound 8 (x * 65536) 10 | none => ((s.thm.ambFix : Int) - 40) * 65536

/-- A bay's cable model starts at its ambient, with the cable term 0 (R235, R515). -/
def State.startCable (s : State) (b : Fin 12) : State :=
  let amb := match s.bayRec b with | some r => s.ambientLsb r | none => 0
  { s with thm := { s.thm with cables := vupd s.thm.cables b fun c => { c with thC := amb, thW := amb, term := 0, termAt := none, inForce := 0 } } }

/-- The values R515 gives at an activation in STOPPED mode, at boot and after a reset, and those of R186 and R184. -/
def State.initialValues (s : State) : State :=
  let s := s.forAll 12 fun b s => (s.startCable b).setBay b fun x => { x with session := { x.session with target := 0 } }
  { s with
    mkt := { s.mkt with bays := Vector.replicate 12 {}, boundsAt := 0, oldBounds := Vector.replicate 12 (0, 0), env := 0, envRate := 0, envX := 0, envXRate := 0, result := none,
                        lightTicks := Vector.replicate 12 0, stepSeen := 0 }
    met := { s.met with commit := none, taken := none } }

/-- The lattice engine at an activation in STOPPED mode or at boot (R127). DESIGN CHOICE (log 155): the history of rewritten words is
emptied (R144). -/
def State.loadLattice (s : State) (img : Image) : State :=
  { s with
    lat := { s.lat with tiles := loadTiles img, high := false, sup := [], copying := false, windowOpen := false, shadow := false, swapPend := 0,
                        tovr := s.lat.tovr.map fun x => (x.1, { x.2 with consec := 0 }), soft := [] }
    stl := { s.stl with reference := none, bayStops := 0 } }

/-- An image starts to run in STOPPED mode or at boot. -/
def State.activateImage (s : State) (p : Fin 4) (img : Image) (source : Nat) (m : Master) : State :=
  let s := s.takeSlot p img source
  let s := { s with prof := { s.prof with gridFrom := roundUpTo img.header.pitchNs s.mt } }
  let s := (s.loadLattice img).initialValues
  let s := { s with mkt := { s.mkt with moves := Vector.replicate 8 {} } }
  let s := s.forAll 64 fun n s => (s.setStall n (stallSwitched s.mt)).switchLink n
  let s := ((s.takeSafety img).storeSafety m img).clampTo img
  ({ s with pwr := { s.pwr with st := .run }, pair := { s.pair with holdPitch := none, holdTick := none } }).bumpIf (s.pwr.st != PowerSt.run) 1

/-- A switch is counted and recorded (R55, R66). DESIGN CHOICE (log 150): SWITCH_COUNT wraps (R67). -/
def State.countSwitch (s : State) (p : Fin 4) : State :=
  let s := { s with prof := { s.prof with switchCount := wrapInc 16 s.prof.switchCount } }
  s.log 0x0002 p.val s.prof.source s.prof.switchCount

/-- The STOPPED switch (R61). -/
def State.switchStopped (s : State) (p : PendingChange) : State := (s.activateImage p.slot p.image 2 p.master).countSwitch p.slot

/-- New coefficients in every tile, all state kept (R63, R127). -/
def liveTiles (img : Image) (ts : List Tile) : List Tile :=
  ts.map fun t => match img.tiles.find? fun r => r.tileId == t.info.tileId with | some r => { t with info := r, coef := r.coef } | none => t

/-- The LIVE switch (steps 5 and 6 of R66). -/
def State.switchLive (s : State) (p : PendingChange) : State :=
  let s := s.takeSlot p.slot p.image 2
  let s := { s with lat := { s.lat with tiles := liveTiles p.image s.lat.tiles, swapPend := 0, copying := false, swapCount := satInc 16 s.lat.swapCount } }
  s.countSwitch p.slot

/-- The tiles of a new image with the state words and outputs of the old tiles of the same owner and template (step 4 of R355). -/
def handoverTiles (img : Image) (old : List Tile) : List Tile :=
  (loadTiles img).map fun t =>
    match findTile old t.info.template t.info.ownerKind t.info.ownerId with
    | some o => { t with words := o.words, now := o.now, prev := o.prev }
    | none => t

/-- A supervisor word on its way to a tile of the old image goes to the tile of the same owner and template (R355, R515). -/
def handoverWord (img : Image) (old : List Tile) (w : SupWord) : Option SupWord :=
  (tileById old w.tile).bind fun o => (tileOf img o.info.template o.info.ownerKind o.info.ownerId).map fun t => { w with tile := t.tileId }

/-- The cable models of bays that only the new image uses start at their ambient (R235). -/
def State.startNewCables (s : State) (old : Option Image) : State :=
  s.forAll 12 fun b s => if (s.bayRec b).isSome && !(match old with | some o => o.bays.any fun r => r.bayId == b.val | none => false) then s.startCable b else s

/-- The handover switch (steps 4 and 5 of R355): the image is placed at the other end of tile memory (R145); the commits in force
stay (R515); consecutive overrun counts return to 0 (R137). -/
def State.switchHandover (s : State) (p : PendingChange) : State :=
  let old := s.prof.image
  let s := s.takeSlot p.slot p.image 3
  let s := { s with lat := { s.lat with
    tiles := handoverTiles p.image s.lat.tiles, high := !s.lat.high, sup := s.lat.sup.filterMap (handoverWord p.image s.lat.tiles),
    tovr := s.lat.tovr.map fun (x : Nat × TileOvr) => (x.1, { x.2 with consec := 0 }) } }
  let s := s.startNewCables old
  let s := s.forAll 64 fun n s => if (s.stallRec n).isNone then s.linkOff n else if s.stalls[n].link.st = .off then s.switchLink n else s
  ((s.takeSafety p.image).storeSafety p.master p.image).countSwitch p.slot

/-- May the coefficients of a LIVE change be taken over at `t`: the opening of a compute window, none of an earlier pitch being in
progress (R22, R66)? -/
def State.windowStart (s : State) (t : Nat) : Bool :=
  let at_ := fun d => decide (d ≤ t) && s.running && (t - d) % s.pitchNs == 0 && decide (s.prof.gridFrom ≤ t - d)
  (at_ s.openNs || (s.pair.mode == .full && !s.active && at_ (s.openNs + 900))) && !(s.lat.windowOpen && decide (s.lat.openAt < t))

/-- PROFILE_SWITCH (R61, R66): STOPPED at the first tick start after PENDING, LIVE at the first window opening
at or after its tick. One that comes later than 100 ms after PENDING finds the change cancelled (R13, R55). -/
def doProfileSwitch (t : Nat) : State → State :=
  whenLive t fun s =>
    match s.prof.pend with
    | some p =>
      if expired t (p.since + ms 100) && !(p.mode == .live && s.lat.copying) then s.cancelPending 0x33
      else match p.mode with
      | .stopped => if t % 1000000 = 0 ∧ p.since < t then s.switchStopped p else s
      | .live => (match p.tickDone with | some q => if q ≤ t ∧ s.windowStart t then s.switchLive p else s | none => s)
      | .handover => s
    | none => s

/-! ## Profile registers (R67) -/

/-- SYS.PROF_STAT. -/
def profStat (s : State) : Nat :=
  (match s.prof.active with | some p => p.val | none => 0) + b2n s.prof.pend.isSome * 2 ^ 3 +
  (match s.prof.pend with | some p => p.slot.val | none => 0) * 2 ^ 4 + s.prof.source * 2 ^ 6 + s.prof.pins * 2 ^ 8 +
  b2n s.prof.active.isNone * 2 ^ 10 + b2n s.prof.clamped * 2 ^ 11 + s.prof.switchCount * 2 ^ 16

/-- SYS.PROF_SLOTp. -/
def profSlotWord (x : ProfSlot) : Nat := slotCode x.st + x.lastCode * 2 ^ 8 + leNat (memRange x.mem 0x10 2) * 2 ^ 16

/-- A read of the profile registers at an offset of SYS. -/
def profRead (s : State) (off : Nat) : Option Nat :=
  match off with
  | 0x10 => some (s.prof.ctrlSlot + s.prof.ctrlMode * 2 ^ 4)
  | 0x14 => some (profStat s)
  | 0x18 => some (profErrWord s)
  | 0x1C => some (s.prof.bootSrc + s.prof.bootSlot * 2)
  | 0x20 => some (profSlotWord s.prof.slots[(0 : Fin 4)])
  | 0x24 => some (profSlotWord s.prof.slots[(1 : Fin 4)])
  | 0x28 => some (profSlotWord s.prof.slots[(2 : Fin 4)])
  | 0x2C => some (profSlotWord s.prof.slots[(3 : Fin 4)])
  | _ => none

/-- The command a word written to SYS.PROF_CTRL names. -/
def profCmdOf (v : Nat) : Option ProfCmd :=
  if v.testBit 8 then some .check else if v.testBit 9 then some .activate else if v.testBit 10 then some .erase
  else if v.testBit 11 then some .cancel else none

/-- A write of SYS.PROF_CTRL by a master of the map's world. -/
def State.profCtrlWrite (s : State) (m : Master) (v : Nat) : State × Answer :=
  let p := finMod 4 (bits v 0 2)
  let md := finMod 4 (bits v 4 2)
  if severalBits v 0xF00 then (s, if v.testBit 10 && slotHeld s.prof.slots[p] then ⟨.locked, .none⟩ else deny .range)
  else
    match profCmdOf v with
    | some c => s.profCommand m c p md
    | none => if md = 3 then (s, deny .range) else ({ s with prof := { s.prof with ctrlMode := md.val, ctrlSlot := p.val } }, okAnswer)

/-! ## Meanings -/

/-- Meaning of PROFILE_WINDOW_WRITE (R31). -/
def execProfileWindowWrite (t : Nat) (m : Master) (addr : Nat) (value : Word) (s : State) : Host.Outcome State Fault Refusal :=
  .next (doProfileWindowWrite t m addr value s)

/-- Meaning of CHECK (R55). -/
def execCheck (t : Nat) (m : Master) (slot : Fin 4) (mode : Fin 4) (s : State) : Host.Outcome State Fault Refusal :=
  .next (doCheck t m slot mode s)

/-- Meaning of ACTIVATE (R61). -/
def execActivate (t : Nat) (m : Master) (slot : Fin 4) (mode : Fin 4) (s : State) : Host.Outcome State Fault Refusal :=
  .next (doActivate t m slot mode s)

/-- Meaning of ERASE (R55). -/
def execErase (t : Nat) (m : Master) (slot : Fin 4) (mode : Fin 4) (s : State) : Host.Outcome State Fault Refusal :=
  .next (doErase t m slot mode s)

/-- Meaning of CANCEL (R55). -/
def execCancel (t : Nat) (m : Master) (slot : Fin 4) (mode : Fin 4) (s : State) : Host.Outcome State Fault Refusal :=
  .next (doCancel t m slot mode s)

/-- Meaning of CHECK_COMPLETE (R50). -/
def execCheckComplete (t : Nat) (s : State) : Host.Outcome State Fault Refusal :=
  .next (doCheckComplete t s)

/-- Meaning of CHECK_TIMEOUT (R55). -/
def execCheckTimeout (t : Nat) (s : State) : Host.Outcome State Fault Refusal :=
  .next (doCheckTimeout t s)

/-- Meaning of PENDING_TIMEOUT (R55). -/
def execPendingTimeout (t : Nat) (s : State) : Host.Outcome State Fault Refusal :=
  .next (doPendingTimeout t s)

/-- Meaning of PROFILE_SWITCH (R61). -/
def execProfileSwitch (t : Nat) (s : State) : Host.Outcome State Fault Refusal :=
  .next (doProfileSwitch t s)

end Sys2Proof.Machine
end

