-- ==== Sys2Proof/Machine/Uplink.lean ====
section
/-! DEFINITION. Uplink pitch frames: which are usable (R85), and what a usable sample does: the runs of R164, withdrawn cells
(R158, R171), trips (R171), temperatures (R175), REARM (R172), feedback of moves and stops (R201), the envelope (R314). -/
namespace Sys2Proof.Machine

/-! ## Feedback checks (R164) -/

/-- One channel's run after a usable sample `c` with prediction `p`. -/
def runStep (freezeN th : Nat) (r : Run) (c p : Int) : Run :=
  let r := if (c - r.c0).natAbs ≤ 1 ∧ 0 < r.n then { r with n := min (r.n + 1) 63 } else { c0 := c, p0 := p, n := 1, frozen := false }
  { r with frozen := decide (freezeN ≤ r.n) && decide (th < (p - r.p0).natAbs) }

/-- A channel stays frozen until a usable sample starts a new run (R164). -/
def runKept (old r : Run) : Run := if old.frozen ∧ r.n ≠ 1 then { r with frozen := true } else r

/-- The ten raw codes of a sample, in the order of the channels. -/
def codesOf (u : Uplink) : List Int := u.iCell ++ [(u.vOut : Int), (u.vDc : Int)]

/-- The predictions for the present pitch: O0 to O9 of the stall's plant model as last committed (R126). -/
def State.predictions (s : State) (n : Fin 64) : List Int :=
  match findTile s.lat.tiles 4 1 n.val with | some t => t.now | none => []

/-- A channel declared frozen is counted and recorded (R169). -/
def State.logFrozen (s : State) (n : Fin 64) (ch : Nat) (r : Run) (p : Int) : State :=
  let s := s.setStall n fun x => { x with cntFrozen := satInc 8 x.cntFrozen }
  s.log 0x0302 n.val (ch * 2 ^ 16 + fieldOf 16 r.c0) (fieldOf 16 r.p0 * 2 ^ 16 + fieldOf 16 p)

/-- The runs of a stall after a usable sample, each new freeze recorded. -/
def State.stepRuns (s : State) (n : Fin 64) (u : Uplink) : State :=
  let cs := codesOf u
  let ps := s.predictions n
  let th := fun (i : Fin 10) => if i.val < 8 then s.stl.iTh else s.stl.vTh
  let old := s.stalls[n].runs
  let new := vgen (n := 10) fun i => runKept old[i] (runStep s.stl.freezeN (th i) old[i] (cs.getD i.val 0) (ps.getD i.val 0))
  let s := s.setStall n fun x => { x with runs := new }
  s.forAll 10 fun i s => if new[i].frozen && !old[i].frozen then s.logFrozen n i.val new[i] (ps.getD i.val 0) else s

/-- Is any channel frozen? -/
def anyFrozen (x : Stall) : Bool := x.runs.toList.any fun r => r.frozen

/-! ## Overcurrent, trips, temperature -/

/-- An overcurrent latch of an ungated cell withdraws it (R158); a second one of the stall raises cause 6 (R171). -/
def State.withdrawCell (s : State) (n : Fin 64) (c : Fin 8) : State :=
  let second := anyCell s.stalls[n] .withdrawn
  let s := (s.setCell n c fun x => { x with st := .withdrawn, w := 0, ramp := none }).bump 3
  let s := s.setStall n fun x => { x with stopsOc := satInc 8 x.stopsOc }
  if second then s.requestStop n 6 else s

/-- The states an overcurrent latch takes to WITHDRAWN (R158). -/
def cellTakesOc (c : CellCtl) : Bool := match c.st with | .active | .shedding | .restoring => true | _ => false

/-- Does an ungated LEAVING cell latch overcurrent while another cell of the stall is WITHDRAWN (R171)? -/
def leavingOc (x : Stall) (mask : Nat) : Bool :=
  anyCell x .withdrawn && !x.gatedOut && (fins 8).any fun c => mask.testBit c.val && x.cells[c].st == .leaving

/-- OC_MASK of a usable uplink acts on the ungated cells. -/
def State.takeOc (s : State) (n : Fin 64) (mask : Nat) : State :=
  let s' := s.forAll 8 fun c s => if mask.testBit c.val && cellTakesOc s.stalls[n].cells[c] && !s.stalls[n].gatedOut then s.withdrawCell n c else s
  let s' := if leavingOc s'.stalls[n] mask then s'.requestStop n 6 else s'
  if mask = 0 then s else (s'.gateWhenOut n).moveRampDone n

/-- Did the frame in force ungate a cell? -/
def ungated (x : Stall) : Bool := match x.frame with | some f => f.gate != 0xFF | none => false

/-- A stall reports TRIPPED while ungated (R90, R171). -/
def State.takeTrip (s : State) (n : Fin 64) (tripped : Bool) : State :=
  if tripped && ungated s.stalls[n] && !s.stalls[n].gatedOut then (s.capFreeze 2 n.val).fastPath n 5 else s

/-- A temperature reading (R82, R175). -/
def State.takeTemp (s : State) (n : Fin 64) (idx temp : Nat) : State :=
  let hot := decide (s.stl.trip ≤ temp)
  let x := s.stalls[n]
  let s := if hot && !x.otLatch then
      (s.setStall n fun x => { x with otLatch := true, otSince := s.mt, otReadings := List.replicate 9 none }).bump 3
    else s
  let s := if hot then s.requestStop n 7 else s
  if s.stalls[n].otLatch then
    let s := s.setStall n fun x => { x with otReadings := x.otReadings.set idx (some temp) }
    let cool := s.stalls[n].otReadings.all fun r => match r with | some v => decide (v + s.stl.hyst ≤ s.stl.trip) | none => false
    if cool then
      (s.setStall n fun x => { x with otLatch := false, coolDue := some (s.mt + secs s.stl.coolS), stamps := x.stamps.map fun q => q + (s.mt - max q x.otSince) }).bump 3
    else s
  else s

/-- REARM of an IDLE stall (R172): asked for in the next frame when it is first needed, then once per tick. -/
def State.askRearm (s : State) (n : Fin 64) : State :=
  s.setStall n fun x =>
    let need := x.st == .idle && x.link.st == .run && (x.link.tripped || x.link.ocMask != 0)
    { x with rearmPend := x.rearmPend || (need && !x.rearmed), rearmed := need, rearmTicks := if need && x.link.tripped then x.rearmTicks else 0 }

/-! ## A usable sample -/

/-- The status fields a usable uplink gives the link (R111). -/
def linkSeen (l : Link) (u : Uplink) : Link :=
  let tripped := u.stat.testBit 0
  { l with ocMask := u.ocMask, tripped, miss := bits u.stat 2 2, masterPort := u.stat.testBit 4, otherPortUp := u.stat.testBit 5,
           conflict := u.stat.testBit 6, evtHold := if u.stat.testBit 1 then satInc 16 l.evtHold else l.evtHold,
           evtTrip := if tripped && !l.tripped then satInc 8 l.evtTrip else l.evtTrip,
           silent := 0, history := (true :: l.history).take 1000 }

/-- Have status fields of the link changed? -/
def linkChanged (a b : Link) : Bool :=
  a.ocMask != b.ocMask || a.tripped != b.tripped || a.miss != b.miss || a.masterPort != b.masterPort ||
  a.otherPortUp != b.otherPortUp || a.conflict != b.conflict

/-- Lite pair: CONFLICT in a link's first pitch after entry to RUN raises EPOCH and repeats MST (R336). DESIGN CHOICE (log 121): one
step for each gain of ACTIVE, however many stalls show CONFLICT, or four of them would wrap to no step at all. -/
def State.epochConflict (s : State) (n : Fin 64) (boundary : Nat) : State :=
  let l := s.stalls[n].link
  if s.pair.mode == .lite && s.active && boundary == l.runFrom && l.conflict && !s.pair.epochRaised then
    (({ s with pair := { s.pair with epoch := (s.pair.epoch + 16384) % 65536, epochRaised := true } }).bump 9).sendMstAll
  else s

/-- Load of the stall's ACTIVE cells, for the load fraction of the tick (R159). -/
def State.addLoad (s : State) (n : Fin 64) (u : Uplink) : State :=
  let cs := (fins 8).filter fun c => s.stalls[n].cells[c].st == .active
  let i := sumNat (cs.map fun c => (wd u.iCell c.val).natAbs) * s.stalls[n].link.iFs
  let m := sumNat (cs.map fun c => match s.cellRec n c with | some r => r.iMax | none => 0)
  s.setStall n fun x => { x with loadSum := x.loadSum + i, loadMax := x.loadMax + m }

/-- The envelope of a bay in RAMP, once every assigned stall's sample of the pitch is in (R314). -/
def State.checkEnvelope (s : State) (n : Fin 64) (boundary : Nat) : State :=
  match s.stalls[n].bay with
  | none => s
  | some b =>
    let q := s.saf.stops[b]
    if q.st == .ramp && q.taken && (s.stallsOf b).all (fun k => s.stalls[k].upAt == boundary && s.stalls[k].up.isSome) then
      match s.bayRec b with
      | some r => if envelopeHolds q (min q.n (q.j + 1)) r.iMax (s.bayCurrent b) then s else s.removeBay b 3
      | none => s
    else s

/-- The hold of a cable check starts at the first pitch with V_OUT of the sense stall within 20 V of V_CC (R227). -/
def State.cableHold (s : State) (n : Fin 64) (boundary : Nat) (u : Uplink) : State :=
  match s.stalls[n].bay with
  | none => s
  | some b =>
    let q := s.bays[b].session
    if q.st == .cableCheck && q.holdDue.isNone && q.tWritten && senseStall s b == some n &&
       decide (((u.vOut * s.stalls[n].link.vFs : Nat) - (q.vcc * 655360 : Nat) : Int).natAbs ≤ 20 * 655360) then
      s.setBay b fun y => { y with session := { y.session with holdDue := some (boundary + ms (100 * y.ccHold)) } }
    else s

/-- Steps 2 and 3 of R350: after a takeover in lite pair, a stall whose path is closed takes the fast path with cause 8, and
the bay it reaches is shown energised. -/
def State.liteUplinkCheck (s : State) (n : Fin 64) (fb : Nat) : State :=
  if s.stalls[n].liteCheck then
    let s := s.setStall n fun x => { x with liteCheck := false }
    if fb = 0xF then s
    else
      let s := (s.setStall n fun x => { x with cells := vmap (fun _ c => cellOff c) x.cells, gatedOut := true, matrix := none, openDue := none }).countStop n 8
      match fin? 12 fb with | some b => s.removeShown b | none => s
  else s

/-- A usable sample of the pitch at a boundary takes effect. DESIGN CHOICE (log 107): where one sample both writes a record that a
ledger trigger matches and triggers by its feedback, the ledger trigger comes first. -/
def State.takeSample (s : State) (n : Fin 64) (boundary : Nat) (u : Uplink) : State :=
  let l := s.stalls[n].link
  let s := s.setStall n fun x => { x with up := some u, upAt := boundary, sample := .good, sampleAt := boundary, link := linkSeen x.link u }
  let s := s.bumpIf (linkChanged l s.stalls[n].link) 3
  let s := (s.epochConflict n boundary).stepRuns n u
  let s := if anyFrozen s.stalls[n] then (s.setStall n fun x => { x with sample := .frozen }).coastPitch n 3 else s.recover n
  let s := ((s.takeOc n u.ocMask).takeTrip n (u.stat.testBit 0)).takeTemp n u.tempIdx u.temp
  let s := (((s.liteUplinkCheck n u.matrixFb).stallFeedback n u.matrixFb).addLoad n u).askRearm n
  ((s.checkEnvelope n boundary).cableHold n boundary u).trySleep n

/-! ## Which uplinks are usable (R85, R349) -/

/-- Lite-pair standby: the receivers judge frames by their succession only (R349). DESIGN CHOICE (log 152): the capture buffer stores
none of them (R109), and STL.STAT and STL.EVT follow those that are usable so (R111). -/
def State.liteUplink (s : State) (n : Fin 64) (u : Uplink) : State :=
  let l := s.stalls[n].link
  let ok := match l.lastSampleTime with | some p => u.sampleTime == (p + s.pitchNs) % 2 ^ 24 | none => true
  let own := some (s.boundaryAt s.mt, [])
  if ok then
    (s.setLink n fun l => { linkSeen l u with lastSampleTime := some u.sampleTime, own }).bumpIf (linkChanged l (linkSeen l u)) 3
  else s.setLink n fun l => { l with own, history := (false :: l.history).take 1000 }

/-- A module that has just gained ACTIVE completes the shadow window of an earlier pitch first (R342): its own uplinks of the
pitch of a boundary wait for that pitch's window. -/
def State.shadowOwed (s : State) (boundary : Nat) : Bool :=
  s.pair.mode == .full && s.active &&
  ((s.lat.windowOpen && s.lat.shadow) || (s.lat.pitch + 2 * s.pitchNs == boundary && decide (boundary - s.pitchNs + s.openNs < s.pair.tko)))

/-- What a module keeps of its own port stays as it is while a sample of another source, or one whose status fields have been taken
already, acts on the stall: those fields follow each of the port's own uplinks once (R111). -/
def keepPort (old : Link) (x : Stall) : Stall :=
  { x with link := { x.link with silent := old.silent, history := old.history, evtHold := old.evtHold, evtTrip := old.evtTrip,
                                 ocMask := old.ocMask, tripped := old.tripped, miss := old.miss, masterPort := old.masterPort,
                                 otherPortUp := old.otherPortUp, conflict := old.conflict } }

/-- The uplink a module kept of its own port for the pitch of a boundary acts on the stall (R341, R342). -/
def State.takeOwn (s : State) (n : Fin 64) (boundary : Nat) : State :=
  match s.stalls[n].link.own with
  | some (b, bytes) =>
    if b == boundary && !bytes.isEmpty && !judged s.stalls[n] boundary then
      ((s.setLink n fun l => { l with own := none }).takeSample n boundary (uplinkOf bytes)).setStall n (keepPort s.stalls[n].link)
    else s
  | none => s

/-- A usable uplink of this module's own port is stored in the capture buffer (R109). It acts on the stall, or is kept while the
module shadows: then only the status fields of the port follow it (R111, R341). -/
def State.usableUplink (s : State) (n : Fin 64) (suf boundary : Nat) (bytes : Bytes) : State :=
  if s.shadowing || s.shadowOwed boundary then
    let l := s.stalls[n].link
    let u := uplinkOf bytes
    ((s.capStore ⟨suf, n.val, 0x21, bytes.take 28⟩).setLink n fun l => { linkSeen l u with own := some (boundary, bytes) }).bumpIf (linkChanged l (linkSeen l u)) 3
  else if judged s.stalls[n] boundary then s
  else (s.capStore ⟨suf, n.val, 0x21, bytes.take 28⟩).takeSample n boundary (uplinkOf bytes)

/-- The judgement of a frame that passed R74. DESIGN CHOICE (log 151): a frame that arrives after the next boundary counts as LATE with
the SAMPLE_TIME of the previous one, as TIME with an older one while the present pitch takes frames, and not at all after that. -/
def State.judgeUplink (s : State) (t : Nat) (n : Fin 64) (suf : Nat) (bytes : Bytes) : State :=
  let u := uplinkOf bytes
  let l := s.stalls[n].link
  if s.pair.mode == .lite && !s.active then s.liteUplink n u
  else
    let b := s.boundaryAt t
    if l.st != .run || decide (b < l.runFrom) then s
    else
      let late := expired t (s.arrivalLimit b)
      if u.sampleTime = b % 2 ^ 24 then
        if late then s.setLink n fun l => { l with errLate := satInc 8 l.errLate } else s.usableUplink n suf b bytes
      else if s.pitchNs ≤ b ∧ u.sampleTime = (b - s.pitchNs) % 2 ^ 24 then s.setLink n fun l => { l with errLate := satInc 8 l.errLate }
      else if late then s
      else s.setLink n fun l => { l with errTime := satInc 8 l.errTime }

/-- UPLINK_PITCH_FRAME (R74, R85): `t` is the arrival of the last character, `suf` that of SUF. -/
def doUplinkPitchFrame (t : Nat) (n : Fin 64) (suf : Nat) (clean : Bool) (b : Bytes) : State → State :=
  whenLive t fun s =>
    if !frameOk 0x21 32 clean b then s.setLink n fun l => { l with errCrc := satInc 16 l.errCrc }
    else if s.running then s.judgeUplink t n suf b else s

/-! ## Meanings -/

/-- Meaning of UPLINK_PITCH_FRAME (R85). -/
def execUplinkPitchFrame (t : Nat) (stall : Fin 64) (suf : Nat) (clean : Bool) (bytes : Bytes) (s : State) : Host.Outcome State Fault Refusal :=
  .next (doUplinkPitchFrame t stall suf clean bytes s)

end Sys2Proof.Machine
end

