-- ==== Sys2Proof/Machine/Pitch.lean ====
section
/-! DEFINITION. A pitch of the lattice engine: the boundary (R80, R158, R519), the opening of the compute window with its
take-over points (R22, R126, R132, R143), the compute deadline with overruns, memory errors, load steps, frames and the
weight sequencer (R133 to R150). -/
namespace Sys2Proof.Machine

/-! ## The pitch boundary -/

/-- A stall at a boundary: its ramps step, a frame for this boundary applies, an all-gated REARM returns withdrawn cells to
OFF (R80, R158, R171). -/
def stallBoundary (t : Nat) (x : Stall) : Stall :=
  let hit := match x.frame with | some f => f.boundary == t | none => false
  let rearm := match x.frame with | some f => hit && f.rearm && f.gate == 0xFF | none => false
  { x with
    cells := vmap (fun _ c => if rearm && c.st == .withdrawn then cellOff c else cellStep c) x.cells
    applied := if hit then x.frame else x.applied }

/-- Does the pitch grid run with a boundary at `t` (R519)? -/
def State.isBoundary (s : State) (t : Nat) : Bool := s.running && t % s.pitchNs == 0 && decide (s.prof.gridFrom ≤ t)

/-- PITCH_BOUNDARY (R519): boundary `t` passes. -/
def doPitchBoundary (t : Nat) : State → State :=
  whenLive t fun s =>
    if s.isBoundary t then
      let s := { s with lat := { s.lat with stepped := t } }
      let s := s.forAll 64 fun n s => if (s.stallRec n).isSome then s.setStall n (stallBoundary t) else s
      s.forAll 12 fun b s => s.ssBoundary b
    else s

/-! ## The window opens -/

/-- A supervisor word is committed at market time `t` (R21, R143). One stamped at the opening of the window now open is taken over there
still (R23). -/
def State.commitWord (s : State) (t tile index : Nat) (value : Int) : State :=
  let rest := s.lat.sup.filter fun w => !(w.tile == tile && w.index == index)
  if s.lat.windowOpen ∧ t ≤ s.lat.openAt then
    { s with lat := { s.lat with sup := rest, tiles := s.lat.tiles.map fun x => if x.info.tileId = tile then { x with words := x.words.set index value } else x } }
  else { s with lat := { s.lat with sup := rest ++ [⟨tile, index, value, t⟩] } }

/-- Lane inputs of a stall in the pitch of a boundary: the sample, or the plant model's outputs (R121, R126). -/
def laneInputs (x : Stall) (predicted : List Int) (boundary : Nat) : List Int :=
  if x.sampleAt = boundary then
    match x.sample, x.up with
    | .good, some u => u.iCell ++ [((u.vOut / 2 : Nat) : Int), ((u.vDc / 2 : Nat) : Int)]
    | .none, _ => x.laneIn
    | _, _ => predicted.take 10
  else if x.coasting then predicted.take 10
  else x.laneIn

/-- A tile at the opening of a window: its outputs become those of the previous pitch. -/
def openTile (t : Tile) : Tile := { t with prev := t.now, committed := false }

/-- A tile takes over the supervisor words and the limits committed by the opening of the window (R22, R143). -/
def takeTile (sup : List SupWord) (bounds : Nat → Int × Int) (t : Tile) : Tile :=
  let words := (sup.filter fun w => w.tile == t.info.tileId).foldl (fun ws w => ws.set w.index w.value) t.words
  let words := if t.info.template = 1 ∧ t.info.ownerKind = 2 then
      let b := bounds t.info.ownerId
      (words.set 5 b.1).set 6 b.2
    else words
  { t with words }

/-- Skipped pitches of a bay in RAMP: a pitch with any lost sample of its stalls (R314). -/
def State.countSkips (s : State) (b : Fin 12) (boundary : Nat) : State :=
  let q := s.saf.stops[b]
  if q.st == .ramp && q.taken then
    let lost := (s.stallsOf b).any fun n => s.stalls[n].upAt != boundary
    s.setSs b fun x => { x with skips := if lost then x.skips + 1 else 0 }
  else s

/-- Lane inputs and assignment of a stall for the pitch of a boundary whose window opens at `t` (R125, R126). -/
def State.takeLane (s : State) (t boundary : Nat) (n : Fin 64) : State :=
  if (s.stallRec n).isSome then
    let predicted := s.predictions n
    s.setStall n fun x => { x with laneIn := laneInputs x predicted boundary, laneBay := x.bayBy t }
  else s

/-- The lanes take over the words and the limits stamped at or before `t`; later ones wait for the next window (R23). -/
def State.takeWords (s : State) (t : Nat) : State :=
  let bounds := fun id => match fin? 12 id with | some b => s.bounds b t | none => (0, 0)
  let due := s.lat.sup.filter fun w => decide (w.at_ ≤ t)
  { s with lat := { s.lat with tiles := s.lat.tiles.map (takeTile due bounds), sup := s.lat.sup.filter fun w => decide (t < w.at_) } }

/-- Every take-over of R22 into the lattice engine at a window that opens at `t`. -/
def State.takeOver (s : State) (t boundary : Nat) : State :=
  let s := s.forAll 12 fun b s => s.ssTake b t
  let s := s.forAll 64 fun n s => s.takeLane t boundary n
  s.takeWords t

/-- A commit stamped at the opening of the window now open, whose command comes after the opening's, is taken over there still (R23). -/
def State.retake (s : State) : State := if s.lat.windowOpen ∧ s.mt ≤ s.lat.openAt then s.takeOver s.lat.openAt s.lat.pitch else s

/-- The compute window of the pitch of a boundary opens at `t`. -/
def State.openWindow (s : State) (t boundary : Nat) (shadow : Bool) : State :=
  let s := (s.forAll 12 fun b s => (s.countSkips b boundary).setSs b ssStep).bumpIf s.lat.copying 2
  let s := { s with lat := { s.lat with tiles := s.lat.tiles.map openTile, pitch := boundary, windowOpen := true, openAt := t, copying := false, shadow } }
  let s := s.takeOver t boundary
  if shadow then s else s.sendMstAll

/-- What PITCH says of a stall in the pitch of a boundary: usable or not, and the bytes of its latest uplink. DESIGN CHOICE (log 119): a
stall that has delivered no uplink yet has zeros there. -/
def pitchItem (x : Stall) (boundary : Nat) : Bool × Bytes :=
  (x.upAt == boundary && x.up.isSome, match x.up with | some u => uplinkShort u | none => List.replicate 24 0)

/-- The PITCH message (R339): USABLE, DIGEST of the frames sent in the previous pitch, and 24 bytes for each stall of STALL_MASK. -/
def pitchMsg (s : State) (boundary : Nat) : PitchMsg :=
  let ns := (fins 64).filter fun n => (s.stallRec n).isSome
  { usable := sumNat (ns.map fun n => b2n (pitchItem s.stalls[n] boundary).1 * 2 ^ n.val),
    digest := match s.pair.seljo.pitchDigest with | some (_, d) => d | none => 0,
    inputs := ns.map fun n => (pitchItem s.stalls[n] boundary).2 }

/-- Its payload (R339). -/
def pitchPayload (m : PitchMsg) : Bytes := leBytes 8 m.usable ++ leBytes 4 m.digest ++ m.inputs.flatten

/-- PITCH leaves at the opening of the window of the module that holds ACTIVE (R339). -/
def State.sendPitch (s : State) (boundary : Nat) : State := if s.active then s.sendSeljo 2 0 boundary (pitchPayload (pitchMsg s boundary)) else s

/-- The compute deadline of the latest window, counted from its opening: 900 ns later in a shadow window (R341). -/
def State.deadlineOf (s : State) : Nat := s.lat.pitch + s.closeNs + (if s.lat.shadow then 900 else 0)

/-! ## Memory errors (R133, R144) -/

/-- Quarter of a lane. -/
def quarterOf (lane : Nat) : Fin 4 := finMod 4 (lane / 2)

/-- Lane counters changed. -/
def State.setLane (s : State) (l : Nat) (f : LaneCnt → LaneCnt) : State :=
  { s with lat := { s.lat with lanes := vupd s.lat.lanes (finMod 8 l) f } }

/-- Quarter counters changed. -/
def State.setQuarter (s : State) (l : Nat) (f : Quarter → Quarter) : State :=
  { s with lat := { s.lat with quarters := vupd s.lat.quarters (quarterOf l) f } }

/-- One memory event: an uncorrectable read is counted; a corrected word is to be rewritten in the next idle interval, and is a hard
error if it has been rewritten before. -/
def State.memEvent (s : State) (e : EccEvent) : State :=
  if 8 ≤ e.lane then s
  else if e.uncorrectable then s.setQuarter e.lane fun q => { q with ted := satInc 8 q.ted }
  else
    let s := s.setLane e.lane fun l => { l with ded := satInc 8 l.ded }
    match s.lat.soft.find? fun w => w.lane == e.lane && w.offset == e.offset with
    | none => { s with lat := { s.lat with soft := s.lat.soft ++ [⟨e.lane, e.offset, false, false⟩] } }
    | some w =>
      if !w.rewritten then s
      else
        let s := s.setQuarter e.lane fun q => { q with hard := satInc 8 q.hard }
        let soft := s.lat.soft.map fun x => if x.lane == e.lane && x.offset == e.offset then { x with recorded := true } else x
        let s := { s with lat := { s.lat with badAt := some s.mt, soft := soft } }
        if w.recorded then s else s.log 0x0203 e.lane e.offset 0

/-- Was the word read in this pitch: its lane ran to the end of its list, or the tile that holds it committed? DESIGN CHOICE (log 155):
so a word of a tile that an uncorrectable read aborted counts as read where its lane was not stopped. -/
def State.wordRead (s : State) (stopped : Nat → Bool) (w : SoftWord) : Bool :=
  !stopped w.lane || (match tileAt s w.lane w.offset with | some t => t.committed | none => false)

/-- Words read in this pitch without needing correction may be recorded again; the idle interval then rewrites every word that
needed one (R144). -/
def State.cleanReads (s : State) (ecc : List EccEvent) (stopped : Nat → Bool) : State :=
  let clean := fun (w : SoftWord) => s.wordRead stopped w && !ecc.any (fun e => e.lane == w.lane && e.offset == w.offset)
  { s with lat := { s.lat with soft := s.lat.soft.map fun w => { w with rewritten := true, recorded := w.recorded && !clean w } } }

/-! ## Overruns (R136 to R138) -/

/-- The stop a tile's third overrun in a row asks for: its stall, or 0x100 + its bay. -/
def stopTarget (t : TileRec) : Nat := match tileStall t with | some n => n.val | none => 0x100 + t.ownerId

/-- The stop request of R138, taken at the next tick. -/
def State.overrunStop (s : State) (t : TileRec) : State :=
  let s := s.setQuarter t.lane fun q => { q with stopReq := satInc 8 q.stopReq }
  let s := match tileStall t with
    | some n => s.requestStop n 1
    | none => { s with stl := { s.stl with bayStops := setBit s.stl.bayStops t.ownerId } }
  s.logAt s.deadlineOf 0x0202 t.lane t.tileId (stopTarget t)

/-- A tile did not commit in the pitch. A tile whose consecutive count stands at 3 keeps check LANES failing (R352). -/
def State.overrun (s : State) (t : TileRec) (cause : Nat) : State :=
  let o := (tableGet s.lat.tovr t.tileId).getD {}
  let s := { s with lat := { s.lat with tovr := tableSet s.lat.tovr t.tileId { total := satInc 16 o.total, consec := min 3 (o.consec + 1) } } }
  let s := if s.lat.firstOvr.valid then s
    else { s with lat := { s.lat with firstOvr := { valid := true, lane := t.lane, cause, tile := t.tileId, time := s.deadlineOf } } }
  let s := if o.consec = 0 then s.logAt s.deadlineOf 0x0201 t.lane t.tileId cause else s
  let s := if 2 ≤ o.consec then { s with lat := { s.lat with badAt := some s.mt } } else s
  if o.consec = 2 then s.overrunStop t else s

/-- A commit returns the consecutive count to 0 (R137). -/
def State.committedTile (s : State) (t : TileRec) : State :=
  match tableGet s.lat.tovr t.tileId with
  | some o => if o.consec = 0 then s else { s with lat := { s.lat with tovr := tableSet s.lat.tovr t.tileId { o with consec := 0 } } }
  | none => s

/-- The counts of one lane after its pitch. -/
def State.laneEnd (s : State) (lane : Nat) (r : LaneRun) (missed : Bool) (miscounted : Bool) : State :=
  let s := s.setLane lane fun l =>
    { l with peak := max l.peak r.cycle, sat := satAdd 8 l.sat r.sats, ovr := if missed then satInc 16 l.ovr else l.ovr }
  let s := if missed then { s with lat := { s.lat with ovrLast := setBit s.lat.ovrLast lane } } else s
  if miscounted then
    let s' := s.setQuarter lane fun q => { q with cycFault := true }
    ({ s' with lat := { s'.lat with badAt := some s.mt } }).bump 2
  else s

/-! ## Load steps (R156, R158) -/

/-- The bays whose feed-forward tile committed ls > 0 in this pitch. -/
def loadSteps (ts : List Tile) : Nat :=
  sumNat ((List.range 12).map fun b =>
    match findTile ts 3 2 b with | some t => b2n (t.committed && decide (0 < wd t.now 3)) * 2 ^ b | none => 0)

/-- The load steps of a pitch act on the cells and the counts of shedding. -/
def State.takeLoadSteps (s : State) (mask : Nat) : State :=
  let changed := s.stl.lsLatest != mask || s.stl.lsSticky ||| mask != s.stl.lsSticky
  let s := ({ s with stl := { s.stl with lsLatest := mask, lsSticky := s.stl.lsSticky ||| mask }, mkt := { s.mkt with stepSeen := s.mkt.stepSeen ||| mask } }).bumpIf changed 3
  s.forAll 12 fun b s =>
    if mask.testBit b.val then
      let s := { s with mkt := { s.mkt with lightTicks := vupd s.mkt.lightTicks b fun _ => 0 } }
      let len := s.shedLen
      (s.stallsOf b).foldl (fun s n => s.mapCells n fun _ c => cellLoadStep s.stalls[n].coasting len c) s
    else s

/-! ## Frames (R77, R136, R146, R149) -/

/-- Is the cell ungated in the frame built now? -/
def State.cellUngated (s : State) (n : Fin 64) (c : Fin 8) : Bool :=
  let x := s.stalls[n]
  s.fitted n c && cellOn x.cells[c] && !x.gatedOut && !x.rearmPend && x.bay.isSome

/-- The participating cells of a bay in the order of R149. -/
def State.bayCells (s : State) (b : Fin 12) : List (Fin 64 × Fin 8) :=
  let ns := s.stallsOf b
  (fins 8).flatMap fun c => (ns.filter fun n => s.cellUngated n c).map fun n => (n, c)

/-- PHASE of cell `j` of `n` (R149). -/
def phaseOf (j n : Nat) : Nat := (8192 * j + n) / (2 * n)

/-- The phases of a bay's participating cells (R149, R150). -/
def State.spread (s : State) (b : Fin 12) : State :=
  let cs := s.bayCells b
  (List.range cs.length).foldl (fun s j =>
    match cs[j]? with
    | some (n, c) => s.setCell n c fun x => { x with phase := phaseOf j cs.length }
    | none => s) s

/-- Did every PI tile of the stall's fitted cells commit, with no cycle fault in its lanes (R136)? -/
def State.stallCommitted (s : State) (ts : List Tile) (miscounted : List Nat) (n : Fin 64) : Bool :=
  (fins 8).all fun c => !s.fitted n c ||
    (match findTile ts 1 0 (8 * n.val + c.val) with | some t => t.committed && !miscounted.contains t.info.lane | none => false)

/-- The results d of a stall's cell PI tiles. -/
def cellDuties (ts : List Tile) (n : Fin 64) : List Int :=
  (List.range 8).map fun c => match findTile ts 1 0 (8 * n.val + c) with | some t => wd t.now 0 | none => 0

/-- The path the frame commands closed. A move that started after the present window opened changes it from the next deadline on
(steps 4 and 5 of R177). -/
def State.frameMatrix (s : State) (n : Fin 64) : Option (Fin 12) :=
  match s.slotOf n with
  | some k => if s.lat.openAt < s.mkt.moves[k].startedAt then s.mkt.moves[k].src.bind (fin? 12) else s.stalls[n].matrix
  | none => s.stalls[n].matrix

/-- The downlink pitch frame of a stall for a boundary (R77); its SDF starts in the first character slot at or after the compute
deadline (R84). -/
def State.buildFrame (s : State) (n : Fin 64) (boundary : Nat) (ds : List Int) : Downlink :=
  let x := s.stalls[n]
  { rearm := x.rearmPend, capOn := x.link.capEn,
    gate := sumNat ((fins 8).map fun c => b2n (!s.cellUngated n c) * 2 ^ c.val),
    matrix := (match s.frameMatrix n with | some b => b.val | none => 0xF), boundary,
    sdf := charSlot s.deadlineOf,
    duty := ds.map fun d => (2 * max 0 d).toNat, phase := x.cells.toList.map fun c => c.phase }

/-- The frame of a stall is sent, where its tiles committed and its link takes frames for the boundary (R84, R99). -/
def State.sendFrame (s : State) (ts : List Tile) (miscounted : List Nat) (boundary : Nat) (n : Fin 64) : State :=
  let l := s.stalls[n].link
  if (s.stallRec n).isSome && (s.active || s.lat.shadow) && l.st == .run && decide (l.runFrom ≤ boundary) && s.stallCommitted ts miscounted n then
    let ds := cellDuties ts n
    let f := s.buildFrame n boundary ds
    s.setStall n fun x => { x with frame := some f, lastD := ds, rearmPend := false, sentOpen := x.sentOpen || f.matrix == 0xF }
  else s

/-- Timeouts that run from the frame just built: the open of a stop (R170) and the steps of moves (R201). -/
def State.armTimeouts (s : State) (boundary : Nat) : State :=
  let s := s.forAll 64 fun n s =>
    let x := s.stalls[n]
    if x.st == .stopping && x.gatedOut && x.openDue.isNone && !x.restartOpen then
      let due := (s.stallRec n).map fun r => boundary + r.tOpen * 100000 + ms 5
      s.setStall n fun x => { x with openDue := due }
    else s
  s.forAll 8 fun k s =>
    let m := s.mkt.moves[k]
    if s.lat.openAt < m.startedAt then s
    else match m.phase, m.deadline with
    | .opening, none => s.setMove k fun m => { m with deadline := some (boundary + m.tOpen * 100000 + ms 5) }
    | .closing, none => s.setMove k fun m => { m with deadline := some (boundary + m.tClose * 100000 + ms 5) }
    | _, _ => s

/-! ## The weight sequencer (R146, R147) -/

/-- Number of ACTIVE cells of a stall. -/
def activeCells (x : Stall) : Nat := (x.cells.toList.filter fun c => c.st == .active).length

/-- The cell as it stands in the pitch after the one that ends: its ramp takes the step of that boundary, unless the boundary has passed
before the deadline, as it may in a shadow window (R341). -/
def State.nextCell (s : State) (c : CellCtl) : CellCtl := if s.lat.pitch + s.pitchNs ≤ s.lat.stepped then c else cellStep c

/-- W and WM of a stall's cells for the next pitch. -/
def State.seqStall (s : State) (img : Image) (n : Fin 64) : State :=
  let x := s.stalls[n]
  let s := s.forAll 8 fun c s =>
    match tileOf img 1 0 (8 * n.val + c.val) with
    | some t => s.commitWord s.deadlineOf t.tileId 5 (s.nextCell x.cells[c]).w
    | none => s
  match findTile s.lat.tiles 6 1 n.val with
  | some t =>
    let kt := wd t.coef 0
    let np := activeCells x
    s.forAll 8 fun c s => s.commitWord s.deadlineOf t.info.tileId (8 + c.val) (if x.cells[c].st = .active then kt / (np : Int) else 0)
  | none => s

/-- SIGMA of a bay (R147): I_BASE / (16 × N_eff × I_FS) with I_FS in 0.1 A. -/
def sigmaOf (sumW iFs : Nat) : Int := if sumW = 0 ∨ iFs = 0 then 0 else min 0x7FFF (quotQ15 (4096 * 32767 * 10) (16 * sumW * iFs))

/-- K_VS (R130): −V_FS / (4 × V_BASE) with V_FS in 0.1 V. -/
def kVsOf (vFs : Nat) : Int := max (-32768) (quotQ15 (-(vFs : Int)) 81920)

/-- SIGMA and K_VS of a bay. DESIGN CHOICE (log 110): while the bay has no sense stall nothing is committed for K_VS, which so keeps its
value. -/
def State.seqBay (s : State) (img : Image) (b : Fin 12) : State :=
  let sumW := sumNat ((s.stallsOf b).map fun n => sumNat ((fins 8).map fun c => (s.nextCell s.stalls[n].cells[c]).w))
  let iFs := match s.stl.reference with | some r => r.1 | none => 0
  let s := match tileOf img 3 2 b.val with | some t => s.commitWord s.deadlineOf t.tileId 1 (sigmaOf sumW iFs) | none => s
  match senseStall s b, tileOf img 1 2 b.val with
  | some n, some t => s.commitWord s.deadlineOf t.tileId 4 (kVsOf s.stalls[n].link.vFs)
  | _, _ => s

/-- The sequencer's commit for the next pitch. -/
def State.sequence (s : State) (img : Image) : State :=
  let s := s.forAll 64 fun n s => if (s.stallRec n).isSome then s.seqStall img n else s
  s.forAll 12 fun b s => if (s.bayRec b).isSome then s.seqBay img b else s

/-! ## The deadline -/

/-- CRC-32C of bytes 0 to 35 of the frames of a pitch in ascending stall order, the digest of R339. -/
def frameDigest (s : State) (boundary : Nat) : Nat :=
  crc32c ((fins 64).flatMap fun n => match s.stalls[n].frame with | some f => if f.boundary = boundary then downlinkBody f else [] | none => [])

/-- Why a tile did not commit: its lane miscounted, its read was uncorrectable, or the deadline came first (R137). -/
def missCause (ecc : List EccEvent) (miscounted : List Nat) (t : TileRec) : Nat :=
  if miscounted.contains t.lane then 2 else if abortOf ecc t.lane t.tileId then 1 else 0

/-- Every tile's commit or overrun, then the counts of every lane. DESIGN CHOICE (log 154): the tiles are judged in TILE_ID order, so
that FIRST_OVR shows the first of them. -/
def State.judgeTiles (s : State) (ts : List Tile) (runs : List LaneRun) (ecc : List EccEvent) (miscounted : List Nat) : State :=
  let s := ts.foldl (fun s t => if t.committed then s.committedTile t.info else s.overrun t.info (missCause ecc miscounted t.info)) s
  (List.range 8).foldl (fun s l =>
    match runs[l]? with
    | some r => s.laneEnd l r (ts.any fun t => t.info.lane == l && !t.committed) (miscounted.contains l)
    | none => s) s

/-- In full pair the digest of the frames of a boundary is kept for the partner's next PITCH (R339). -/
def State.keepPitchDigest (s : State) (boundary : Nat) : State :=
  if s.pair.mode = .full then { s with pair := { s.pair with seljo := { s.pair.seljo with pitchDigest := some (boundary, frameDigest s boundary) } } } else s

/-- The frames of the pitch and the timeouts that run from them; then the load steps of its outputs act on the cells, and the words of
the next pitch are committed (R146). -/
def State.closePitch (s : State) (img : Image) (ts : List Tile) (miscounted : List Nat) (boundary : Nat) : State :=
  let s := s.forAll 12 fun b s => s.spread b
  let s := s.forAll 64 fun n s => s.sendFrame ts miscounted boundary n
  (((s.armTimeouts boundary).takeLoadSteps (loadSteps ts)).sequence img).keepPitchDigest boundary

/-- The quarter supervisors copy a LIVE set in the idle interval before the window at which it takes effect (R66, R141). -/
def State.startCopy (s : State) : State :=
  match s.prof.pend with
  | some p =>
    let tick := p.tickDone.getD ((p.since / 1000000 + 1) * 1000000)
    if p.mode = .live ∧ tick ≤ s.lat.pitch + s.pitchNs + s.openNs then ({ s with lat := { s.lat with copying := true } }).bumpIf (!s.lat.copying) 2 else s
  | none => s

/-- The items of CAPTURE: each tile with its state words (R347). -/
def captureItems (ts : List Tile) : List Int :=
  ts.flatMap fun t => (t.info.tileId : Int) :: ((t.words.length : Nat) : Int) :: t.words

/-- The module that holds ACTIVE copies the state words of every lane in the idle interval after the pitch in which its partner asked for
them, and sends them (step 4 of R347). -/
def State.sendCapture (s : State) : State :=
  if s.pair.seljo.capturePend ∧ s.active then
    let s := { s with pair := { s.pair with seljo := { s.pair.seljo with capturePend := false } } }
    s.sendSeljo 6 0 s.lat.pitch (Config.seljoPayload 6 (captureItems s.lat.tiles))
  else s

/-- The compute deadline of the open window (R135): the lanes' results, their counts, the frames and the words of the next pitch. -/
def State.endPitch (s : State) (img : Image) (ecc : List EccEvent) (miscounted : List Nat) : State :=
  let boundary := s.lat.pitch + s.pitchNs
  let runs := (List.range 8).map fun l => runLane s img ecc miscounted l
  let ts := mergeLanes s.lat.tiles runs
  let s := { s with lat := { s.lat with tiles := ts, windowOpen := false, ovrLast := 0 } }
  let s := ecc.foldl (fun s e => s.memEvent e) s
  let s := s.cleanReads ecc fun l => match runs[l]? with | some r => r.stopped | none => true
  let s := s.judgeTiles ts runs ecc miscounted
  ((s.closePitch img ts miscounted boundary).startCopy).sendCapture

/-! ## Meanings -/

/-- Meaning of PITCH_BOUNDARY (R519). -/
def execPitchBoundary (t : Nat) (s : State) : Host.Outcome State Fault Refusal :=
  .next (doPitchBoundary t s)

end Sys2Proof.Machine
end

