-- ==== Sys2Proof/Machine/Session.lean ====
section
/-! DEFINITION. Bays and their vehicle sessions: the contacts (R208, R209), the session state machine with its triggers and
timers (R220 to R224), authorisation (R219), bids and targets (R216, R225 to R228), the answers (R217), the BAY registers (R232). -/
namespace Sys2Proof.Machine

/-! ## Parts of a session -/

/-- The session of bay `b` changed. -/
def State.setSess (s : State) (b : Fin 12) (f : Session → Session) : State := s.setBay b fun x => { x with session := f x.session }

/-- Number of a session state. -/
def sessCode : SessSt → Nat
  | .idle => 0 | .connected => 1 | .setup => 2 | .authorising => 3 | .parameters => 4 | .cableCheck => 5 | .precharge => 6
  | .power => 7 | .rampDown => 8 | .weldCheck => 9 | .closing => 10 | .ended => 11 | .fault => 12

/-- End codes BAY.CNT.TIMEOUTS counts (R232). -/
def timeoutEnd (c : Nat) : Bool := [1, 2, 3, 5, 7, 9, 10, 0x13].contains c

/-- The timer of a state, in seconds (R220, R224). -/
def stateSecs (x : Bay) : SessSt → Option Nat
  | .connected | .setup => some 20
  | .authorising => some x.authS
  | .cableCheck => some x.ccS
  | .precharge => some x.preS
  | .rampDown => some 2
  | .closing => some 5
  | .fault => some 30
  | _ => none

/-- The session enters a state; its timer is armed (R220, R223, R231). -/
def State.goSess (s : State) (b : Fin 12) (st : SessSt) : State :=
  let due := (stateSecs s.bays[b] st).map fun n => s.mt + secs n
  (s.setSess b fun q => { q with st, entered := s.mt, due, loopDue := none }).bump 4

/-- The end code of a session: its first one is kept (R231). DEDUCED (log 54): that of a session that a safety demand is ending is 0x0D,
whatever it enters first. -/
def State.endWith (s : State) (b : Fin 12) (code : Nat) : State :=
  let code := if s.bays[b].session.doomed then 0x0D else code
  if code ≠ 0 ∧ (s.bays[b].session.endCode = 0 ∨ s.bays[b].session.codeOld) then
    (s.setSess b fun q => { q with endCode := code, codeOld := false }).setBay b fun x => { x with timeouts := if timeoutEnd code then satInc 8 x.timeouts else x.timeouts }
  else s

/-- T committed at `t` to the bay's arc generator, in Q15 of V_BASE (R147, R153). -/
def State.commitTarget (s : State) (t : Nat) (b : Fin 12) (volts : Nat) : State :=
  match s.prof.image.bind fun i => tileOf i 5 2 b.val with
  | some x => s.commitWord t x.tileId 4 (min 32767 (16 * volts) : Nat)
  | none => s

/-- The session writes T. -/
def State.writeTarget (s : State) (b : Fin 12) (volts : Nat) : State :=
  (s.setSess b fun q => { q with target := volts }).commitTarget s.mt b volts

/-- T within the bay's and the vehicle's limits (R216). -/
def limitT (r : BayRec) (ev : EvLimits) (v : Nat) : Nat := min (clampNat r.vMin r.vMax v) ev.vMax

/-- The outlet contactor commanded. -/
def State.commandOutlet (s : State) (b : Fin 12) (close : Bool) : State :=
  if s.bays[b].outlet.close = close then s
  else (s.setBay b fun x => { x with outlet := { x.outlet with close, commandAt := some s.mt } }).bump 4

/-! ## Bids (R226) -/

/-- The present bid follows what the vehicle asks for; EXPORT changes only in a tick whose previous set-point is 0: until then the bid
stays in the old direction with MIN = REQ = MAX = 0 (R226). -/
def followAsk (bid ask : Bid) : Bid :=
  if bid.exporting == ask.exporting then ask else { bid with bidding := ask.bidding, minP := 0, reqP := 0, maxP := 0 }

/-- The session asks for a bid of its own direction. -/
def askFor (ask : Bid) (q : Session) : Session := { q with ask, bid := followAsk q.bid ask }

/-- The session bids no more: BIDDING = 0 (R220, R221). -/
def bidNone (q : Session) : Session := askFor {} q

/-- A session that has just begun: of the one before it only the direction of the bid (R226) and T, which stands until it is written
(R232), remain. -/
def freshSession (q : Session) : Session := { bid := followAsk q.bid {}, target := q.target }

/-! ## Ends of a session -/

/-- Entry to RAMP_DOWN: BIDDING = 0, T = 0. -/
def State.enterRampDown (s : State) (b : Fin 12) (code : Nat) : State :=
  ((((s.endWith b code).setSess b bidNone).writeTarget b 0).goSess b .rampDown)

/-- Entry to CLOSING. -/
def State.enterClosing (s : State) (b : Fin 12) (code : Nat) : State :=
  ((s.endWith b code).setSess b fun q => { bidNone q with authPend := false, doomed := false }).goSess b .closing

/-- Entry to ENDED: the bay is held de-energised; the record of R218. -/
def State.enterEnded (s : State) (b : Fin 12) (code : Nat) : State :=
  let s := (s.endWith b code).setSess b fun q => { bidNone q with authPend := false, doomed := false, tls := false, secrets := [] }
  let s := (s.commandOutlet b false).goSess b .ended
  s.log 0x0402 b.val s.bays[b].session.endCode 0 (slice s.bays[b].session.id 0 16)

/-- Entry to FAULT; an energised bay is brought down by its safe stop. -/
def State.enterFault (s : State) (b : Fin 12) (code : Nat) : State :=
  let s := (s.endWith b code).setSess b fun q => { bidNone q with authPend := false, doomed := false }
  let s := (s.setBay b fun x => { x with faults := satInc 8 x.faults }).goSess b .fault
  if s.bays[b].energised then s.requestSafeStop b else s

/-- Entry to IDLE: the session is over, its end code still shows. -/
def State.enterIdle (s : State) (b : Fin 12) : State :=
  (s.setBay b fun x =>
    { x with session := { freshSession x.session with endCode := x.session.endCode }, pilot := { x.pilot with plca := false } }).bump 4

/-- RAMP_DOWN where the bay is energised, CLOSING where it is not, from every state except IDLE (R221). A session that is there already
stays, with the timer it has (log 54). -/
def State.wind (s : State) (b : Fin 12) (code : Nat) : State :=
  match s.bays[b].session.st with
  | .idle => s
  | st =>
    if s.bays[b].energised then (if st = .rampDown then s else s.enterRampDown b code)
    else if st = .closing then s else s.enterClosing b code

/-- The opening of the outlet contactor is requested: its 100 ms run from here where no command's are running (R221). -/
def State.openOutlet (s : State) (b : Fin 12) : State :=
  (s.commandOutlet b false).setBay b fun x =>
    { x with outlet := { x.outlet with commandAt := if x.outlet.commandAt.isNone && !x.outlet.confirmedOpen then some s.mt else x.outlet.commandAt } }

/-- Entry to WELD_CHECK: the opening of the outlet contactor is requested (R220). -/
def State.enterWeld (s : State) (b : Fin 12) : State := (s.openOutlet b).goSess b .weldCheck

/-! ## Beginnings -/

/-- Base of the MAC addresses (R211): a SIDE 1 module of a pair takes its partner's. -/
def State.macBase (s : State) : Nat := if s.paired && s.pair.side == 1 then s.pair.mac else s.fuses.mac

/-- May a new session start: no DISABLE, no hold for a change (R61) or an activation (R454)? DESIGN CHOICE (log 114): the hold bars IDLE
from CONNECTED and ENDED from SETUP; a bay that is CONNECTED when it begins may still enter SETUP. -/
def State.sessionsOpen (s : State) (b : Fin 12) : Bool := !s.bays[b].disable && !s.prof.holdSessions && !s.upd.hold && !s.leadHolds && !s.pwr.entering

/-- IDLE passes to CONNECTED (R220). -/
def State.tryStart (s : State) (b : Fin 12) : State :=
  let p := s.bays[b].pilot
  if s.bays[b].session.st == .idle && (p.ce == .connected || p.ce == .ready) && p.id == .valid && s.sessionsOpen b then
    let mac := s.macBase + b.val
    (s.setBay b fun x => { x with session := freshSession x.session, mac, pilot := { x.pilot with plca := true } }).goSess b .connected
  else s

/-- A new session enters SETUP. -/
def State.enterSetup (s : State) (b : Fin 12) : State :=
  (s.setBay b fun x => { x with session := freshSession x.session, sessions := satInc 16 x.sessions }).goSess b .setup

/-! ## The outlet contactor -/

/-- Is the contactor confirmed in its commanded state? -/
def Outlet.confirmed (o : Outlet) : Bool := if o.close then o.confirmedClosed else o.confirmedOpen

/-- The contactor has not been confirmed in its commanded state within 100 ms (R221): safe stop request, FAULT. -/
def State.contactorFail (s : State) (b : Fin 12) : State :=
  if s.bays[b].session.st = .idle then s
  else
    let s := s.setBay b fun x => { x with outlet := { x.outlet with commandAt := none } }
    let s := s.requestSafeStop b
    if s.bays[b].session.st = .fault then s else s.enterFault b 0x0E

/-- A change of the contactor's feedback stamped at or before a deadline is still in its filter (R14). -/
def State.outletPending (s : State) (b : Fin 12) (due : Nat) : Bool := (s.outletFb b).any fun k => pairPending s.saf.si[k] due

/-- The contactor's 100 ms, where they have passed at `t` and every feedback stamped in them has acted (R13, R14, R221). -/
def State.contactorTimeout (s : State) (t : Nat) (b : Fin 12) : State :=
  match s.bays[b].outlet.commandAt with
  | some c => if expired t (c + ms 100) && !s.bays[b].outlet.confirmed && !s.outletPending b (c + ms 100) then s.contactorFail b else s
  | none => s

/-! ## Timeouts -/

/-- Has a deadline passed? -/
def overdue (t : Nat) (d : Option Nat) : Bool := match d with | some x => expired t x | none => false

/-- The timeout of the present state, where it has passed at `t` (R220). -/
def State.stateTimeout (s : State) (t : Nat) (b : Fin 12) : State :=
  let q := s.bays[b].session
  match q.st with
  | .connected => if overdue t q.due then s.enterEnded b 0x01 else s
  | .setup => if overdue t q.due then s.enterEnded b 0x02 else s
  | .authorising => if overdue t q.due then s.enterClosing b 0x05 else s
  | .parameters => if overdue t q.seqDue then (if s.bays[b].energised then s.enterRampDown b 0x03 else s.enterClosing b 0x03) else s
  | .cableCheck => if overdue t q.due then s.enterRampDown b 0x07 else s
  | .precharge => if overdue t q.due then s.enterRampDown b 0x09 else s
  | .power => if overdue t q.loopDue then s.enterRampDown b 0x0A else s
  | .rampDown => if overdue t q.due then (s.enterFault b 0x13).requestSafeStop b else s
  | .weldCheck => if overdue t q.seqDue then s.enterClosing b 0x03 else s
  | .closing | .fault => if overdue t q.due then s.enterEnded b 0 else s
  | .idle | .ended => s

/-- Every timeout of a bay that has passed at `t`, ahead of another event of the bay (R13, R222): the contactor's (R221), then the
state's. -/
def State.sessTimeout (s : State) (t : Nat) (b : Fin 12) : State := (s.contactorTimeout t b).stateTimeout t b

/-- The effect of a command that only a module that holds ACTIVE performs on a bay of its image (R210, R212). -/
def whenActive (t : Nat) (b : Fin 12) (f : State → State) : State → State :=
  whenLive t fun s => if s.active && (s.bayRec b).isSome then f s else s

/-- A timeout command: it acts in the state it belongs to. -/
def sessTimer (t : Nat) (b : Fin 12) (sts : List SessSt) : State → State :=
  whenActive t b fun s => if sts.contains s.bays[b].session.st then s.stateTimeout t b else s

/-- CONTACTOR_TIMEOUT (R221). -/
def doContactorTimeout (t : Nat) (b : Fin 12) : State → State := whenActive t b fun s => s.contactorTimeout t b

/-- NO_SDP (R220). -/
def doNoSdp (t : Nat) (b : Fin 12) : State → State := sessTimer t b [.connected]

/-- SETUP_TIMEOUT (R220). -/
def doSetupTimeout (t : Nat) (b : Fin 12) : State → State := sessTimer t b [.setup]

/-- AUTH_TIMEOUT (R219). -/
def doAuthTimeout (t : Nat) (b : Fin 12) : State → State := sessTimer t b [.authorising]

/-- CC_TIMEOUT (R220). -/
def doCcTimeout (t : Nat) (b : Fin 12) : State → State := sessTimer t b [.cableCheck]

/-- PRE_TIMEOUT (R220). -/
def doPreTimeout (t : Nat) (b : Fin 12) : State → State := sessTimer t b [.precharge]

/-- LOOP_TIMEOUT (R220). -/
def doLoopTimeout (t : Nat) (b : Fin 12) : State → State := sessTimer t b [.power]

/-- SEQ_TIMEOUT (R220). -/
def doSeqTimeout (t : Nat) (b : Fin 12) : State → State := sessTimer t b [.parameters, .weldCheck]

/-- RAMP_TIMEOUT (R220). -/
def doRampTimeout (t : Nat) (b : Fin 12) : State → State := sessTimer t b [.rampDown]

/-- CLOSING_TIMEOUT (R220). -/
def doClosingTimeout (t : Nat) (b : Fin 12) : State → State := sessTimer t b [.closing]

/-- FAULT_HOLD_TIMEOUT (R220). -/
def doFaultHoldTimeout (t : Nat) (b : Fin 12) : State → State := sessTimer t b [.fault]

/-! ## Answers (R217, R223, R343) -/

/-- The sequence timeout and LOOP_S run from a response of the module (R223). -/
def State.armSequence (s : State) (b : Fin 12) : State :=
  s.setSess b fun q => { q with seqDue := some (s.mt + secs 60), loopDue := if q.st = .power then some (s.mt + secs s.bays[b].loopS) else none }

/-- A response leaves. -/
def State.sendResp (s : State) (b : Fin 12) (r : Resp) : State := (s.armSequence b).setBay b fun x => { x with resp := some r, heldResp := none }

/-- Number of a control mode. -/
def modeNumber : CtlMode → Nat | .none => 0 | .scheduled => 1 | .dynamic => 2

/-- A deadline as a number of a message: 0 for none. -/
def dueItem (d : Option Nat) : Nat := match d with | some x => x + 1 | none => 0

/-- A bid as numbers of a message. -/
def bidItems (x : Bid) : List Nat := [b2n x.bidding, b2n x.exporting, x.minP, x.reqP, x.maxP, x.vmaxP, x.vmaxI]

/-- The items of SESSION (R339): the bay, the session's state and timers, its TCP sequence state and its TLS traffic secrets. -/
def sessionItems (b : Fin 12) (q : Session) : List Int :=
  q.ev.tI :: List.map Int.ofNat (
  [b.val, sessCode q.st, q.endCode, b2n q.codeOld, q.auth, b2n q.authPend, b2n q.granted, modeNumber q.mode, b2n q.bpt,
   b2n q.stages.discovered, b2n q.stages.selected, b2n q.stages.parameters, b2n q.stages.scheduled, b2n q.tls, b2n q.protocol,
   b2n q.sessionSetup, b2n q.tlsFailed, q.entered, dueItem q.due, dueItem q.seqDue, dueItem q.loopDue, q.tcpIn, q.tcpOut,
   q.ev.vMin, q.ev.vMax, q.ev.iMax, q.ev.pMin, q.ev.pMax, q.ev.iMaxD, q.ev.pMinD, q.ev.pMaxD, q.ev.tV, b2n q.ev.discharge,
   b2n q.tWritten, b2n q.doomed, b2n q.demandTaken, b2n q.stopAsked, q.target, dueItem q.schedule, q.vcc, dueItem q.holdDue,
   b2n q.checkOk, b2n q.checkAnswered] ++ bidItems q.bid ++ bidItems q.ask ++ (q.id ++ q.secrets).map (fun x => x.toNat) ++
  q.offers.flatMap fun o => o.length :: o)

/-- The pair key of the vault (R339, R436 usage PAIR). -/
def State.pairKey (s : State) : Option Key := s.anyKey .marketSup 9

/-- SESSION leaves for the partner, sealed under the pair key with a fresh nonce, its acknowledgement requested (R339, R343). -/
def State.sendSession (s : State) (b : Fin 12) (k : Key) : State :=
  let iv := (s.serveUse .marketSup 9).drawBytes 12
  let c := Config.gcmSeal k.material iv.1 [] (Config.seljoPayload 4 (sessionItems b s.bays[b].session))
  iv.2.sendSeljo 4 1 s.mt (Config.seljoSealed iv.1 c.1 c.2)

/-- The key under which a bay's session goes to the partner: in full pair over a link that is up (R229). DESIGN CHOICE (log 119): a vault
without a pair key sends no SESSION, and a response waits for none. -/
def State.sessionKey (s : State) : Option Key := if s.pair.mode = .full ∧ s.pair.seljo.up then s.pairKey else none

/-- The bay's session goes to the standby, as it does after every vehicle message (R229, R339); a pair key that the vault refuses is a
violation (R437). -/
def State.tellSession (s : State) (b : Fin 12) : State :=
  match s.sessionKey with
  | some k => s.sendSession b k
  | none => if s.pair.mode = .full ∧ s.pair.seljo.up then s.serveUse .marketSup 9 else s

/-- The session with one more message of the module in its TCP sequence state and the timers of the answer. DEDUCED (log 119): they run
from here already while the response waits for its acknowledgement, and anew from its departure (R223). -/
def State.answerSession (s : State) (b : Fin 12) : State := (s.armSequence b).setSess b fun q => { q with tcpOut := wrapInc 32 q.tcpOut }

/-- A response to a vehicle message; in full pair it waits for the acknowledgement of the SESSION message, which carries the session as the
response leaves it (R229, R343). -/
def State.respond (s : State) (b : Fin 12) (r : Resp) : State :=
  let u := (s.answerSession b).tellSession b
  if s.sessionKey.isSome then u.setBay b fun x => { x with heldResp := some r } else u.sendResp b r

/-- V_OUT × V_FS of the sense stall, in 1/655 360 V. -/
def State.exactVolts (s : State) (b : Fin 12) : Nat :=
  match senseStall s b with
  | some n => (match s.stalls[n].up with | some u => u.vOut * s.stalls[n].link.vFs | none => 0)
  | none => 0

/-- The answer of a loop request (R217). -/
def State.loopResp (s : State) (b : Fin 12) : Resp :=
  let c := s.mkt.bays[b]
  { name := .chargeLoop, code := .finished, presentV := s.exactVolts b,
    presentI := (match s.met.taken with | some m => wd m.bayI b.val | none => 0),
    maxP := c.grant, maxI := if s.bays[b].session.bid.exporting then c.iLo.natAbs else c.iHi.natAbs }

/-- A message that fails decoding, arrives out of sequence or breaks R215 (R221). -/
def State.badMessage (s : State) (b : Fin 12) (name : RespName) : State :=
  let s := s.setBay b fun x => { x with errMsg := satInc 16 x.errMsg }
  (s.wind b 0x12).respond b { name, code := .failed }

/-- One more message of the vehicle has come in, in the TCP sequence state of R229. It is in time: the sequence timeout and LOOP_S, which
run from a response to the next request, have ended (R220, R223). -/
def State.countIn (s : State) (b : Fin 12) : State :=
  s.setSess b fun q => { q with tcpIn := wrapInc 32 q.tcpIn, seqDue := none, loopDue := none }

/-- Does this message, acting by `f`, count as one of R221 (out of sequence, or in breach of R215)? -/
def State.findsBad (s : State) (b : Fin 12) (f : State → State) : Bool := (f (s.setBay b fun x => { x with errMsg := 0 })).bays[b].errMsg != 0

/-- A vehicle message of a session that a safety demand is ending. DEDUCED (log 54): a bad one has its result by R221; any other takes no
transition of R220 and is not answered. -/
def State.doomedMsg (s : State) (b : Fin 12) (bad : Bool) (name : RespName) : State :=
  if bad then s.badMessage b name else s.tellSession b

/-- A vehicle message over an established TLS connection (R213). An expired timeout comes first (R13, R222). -/
def vehicleMsg (t : Nat) (b : Fin 12) (decoded : Bool) (name : RespName) (f : State → State) : State → State :=
  whenActive t b fun s =>
    let s := s.sessTimeout t b
    let q := s.bays[b].session
    if !q.tls || q.st == .idle then s
    else
      let s := s.countIn b
      if q.doomed then s.doomedMsg b (!decoded || s.findsBad b f) name
      else if decoded then f s else s.badMessage b name

/-! ## Setup -/

/-- The answer to an SDP request: the TLS offer, whatever connection it asks for (R213). -/
def sdpResp : Resp := { name := .sdp, code := .finished, tls := true }

/-- SDP_REQUEST (R213, R220). -/
def doSdpRequest (t : Nat) (b : Fin 12) : State → State :=
  whenActive t b fun s =>
    let s := s.sessTimeout t b
    let q := s.bays[b].session
    match q.st with
    | .connected => (s.enterSetup b).respond b sdpResp
    | .setup => s.respond b sdpResp
    | .ended =>
      if decide (q.entered + secs 5 ≤ t) && s.bays[b].pilot.ce != .none && s.sessionsOpen b then (s.enterSetup b).respond b sdpResp else s
    | _ => s

/-- The result of R221 for a TLS connection that fails: it is closed; RAMP_DOWN where the bay is energised, ENDED where it is not. In
CLOSING, after SessionStopRes, the end of the connection is the closing R220 awaits: ENDED with the code the session has. -/
def State.tlsEnds (s : State) (b : Fin 12) : State :=
  let s := s.setSess b fun q => { q with tls := false, secrets := [], tlsFailed := true }
  let q := s.bays[b].session
  match q.st with
  | .idle => s
  | st =>
    if st = .closing ∧ q.stopAsked then s.enterEnded b 0
    else if s.bays[b].energised then (if st = .rampDown then s.endWith b 0x14 else s.enterRampDown b 0x14)
    else if st = .ended then s else s.enterEnded b 0x14

/-- A failed handshake counts in BAY.ERR.TLS. -/
def State.tlsRefused (s : State) (b : Fin 12) : State := (s.setBay b fun x => { x with errTls := satInc 8 x.errTls }).tlsEnds b

/-- Does a ClientHello offer what the module speaks: TLS 1.3, the one suite, one of the two groups (R213)? What it offers to resume, and
early data, is not supported and changes nothing. -/
def helloFits (h : TlsHello) : Bool := h.tls13 && h.aes256Gcm && (h.secp384r1 || h.secp256r1)

/-- Can the handshake complete: there is a server key (use TLS_SERVER of R436) in the vault too? -/
def State.helloOk (s : State) (h : TlsHello) : Bool := helloFits h && (s.anyKey .marketSup 8).isSome

/-- TLS_HANDSHAKE (R213): a connection is established with fresh traffic secrets (DESIGN CHOICE, log 117), which the standby is told
(R229), or the handshake fails (R221). A server key that the vault refuses is a violation (R437). -/
def doTlsHandshake (t : Nat) (b : Fin 12) (h : TlsHello) : State → State :=
  whenActive t b fun s =>
    let s := s.sessTimeout t b
    if s.bays[b].session.st = .setup ∧ !s.bays[b].session.tls then
      if s.helloOk h then
        let r := (s.serveUse .marketSup 8).drawBytes 96
        (r.2.setSess b fun q => { q with tls := true, secrets := r.1, tcpIn := 0, tcpOut := 0 }).tellSession b
      else (if helloFits h then s.serveUse .marketSup 8 else s).tlsRefused b
    else s

/-- SUPPORTED_APP_PROTOCOL_REQ (R220). -/
def doSupportedAppProtocolReq (t : Nat) (b : Fin 12) (decoded : Bool) : State → State :=
  vehicleMsg t b decoded .supportedAppProtocol fun s =>
    let q := s.bays[b].session
    if q.st == .setup && !q.protocol then
      (s.setSess b fun q => { q with protocol := true }).respond b { name := .supportedAppProtocol, code := .finished }
    else s.badMessage b .supportedAppProtocol

/-- SESSION_SETUP_REQ (R218): the session ID is drawn and recorded. -/
def doSessionSetupReq (t : Nat) (b : Fin 12) (decoded : Bool) : State → State :=
  vehicleMsg t b decoded .sessionSetup fun s =>
    let q := s.bays[b].session
    if q.st == .setup && q.protocol && !q.sessionSetup then
      let r := s.drawBytes 16
      let s := r.2.setSess b fun q => { q with sessionSetup := true, id := r.1 }
      (s.log 0x0401 b.val 0 0 r.1).respond b { name := .sessionSetup, code := .finished }
    else s.badMessage b .sessionSetup

/-- TLS_FAILURE (R221): a handshake fails, or an established connection ends. -/
def doTlsFailure (t : Nat) (b : Fin 12) (kind : TlsFail) : State → State :=
  whenActive t b fun s =>
    let s := s.sessTimeout t b
    let q := s.bays[b].session
    match kind with
    | .handshake => if q.st = .setup ∧ !q.tls then s.tlsRefused b else s
    | .broken => if q.tls then s.tlsEnds b else s

/-! ## Authorisation (R219) -/

/-- Is every certificate of the chain in its validity, and signed by the next one, the last by the root (R214)? -/
def chainOk (now : Nat) (root : Bytes) : List Cert → Bool
  | [] => false
  | [c] => decide (c.notBefore ≤ now ∧ now ≤ c.notAfter) && Config.certSigned root c.body c.signature
  | c :: d :: r => decide (c.notBefore ≤ now ∧ now ≤ c.notAfter) && Config.certSigned d.body c.body c.signature && chainOk now root (d :: r)

/-- The verdict on a contract chain: at most 4 certificates, a set calendar, a root with V2G_ROOT. -/
def State.verifyChain (s : State) (rootId : Nat) (chain : List Cert) : Bool × State :=
  let r := s.useKey rootId .marketSup 7
  match r.1 with
  | some k => (r.2.rtc.valid && decide (chain.length ≤ 4) && chainOk r.2.calSeconds k.material chain, r.2)
  | none => (false, r.2)

/-- The grant: PARAMETERS (R220). Where the host decided, the vehicle's next AuthorizationReq is answered Finished. -/
def State.grantAuth (s : State) (b : Fin 12) : State := (s.setSess b fun q => { q with authPend := false, granted := true }).goSess b .parameters

/-- The refusal: CLOSING (R220). -/
def State.refuseAuth (s : State) (b : Fin 12) : State := s.enterClosing b 0x04

/-- The host is to decide. -/
def State.pendAuth (s : State) (b : Fin 12) : State :=
  ((s.setSess b fun q => { q with authPend := true }).bump 4).respond b { name := .authorization, code := .ongoing }

/-- Granted at once and answered. -/
def State.grantNow (s : State) (b : Fin 12) : State :=
  ((s.grantAuth b).setSess b fun q => { q with granted := false }).respond b { name := .authorization, code := .finished }

/-- The decision of R219 on the first AuthorizationReq. -/
def State.authorise (s : State) (b : Fin 12) (req : AuthReq) : State :=
  let x := s.bays[b]
  match req with
  | .eim =>
    if !x.eimEn then s.respond b { name := .authorization, code := .unsupported }
    else
      let s := (s.setSess b fun q => { q with auth := 1 }).goSess b .authorising
      if x.eimAuto then s.grantNow b else s.pendAuth b
  | .pnc root chain =>
    if !x.pncEn then s.respond b { name := .authorization, code := .unsupported }
    else
      let s := (s.setSess b fun q => { q with auth := 2 }).goSess b .authorising
      let r := s.verifyChain root chain
      if !r.1 then (r.2.refuseAuth b).respond b { name := .authorization, code := .failed }
      else if x.pncHost then r.2.pendAuth b else r.2.grantNow b

/-- AUTHORIZATION_REQ (R219). -/
def doAuthorizationReq (t : Nat) (b : Fin 12) (decoded : Bool) (req : AuthReq) : State → State :=
  vehicleMsg t b decoded .authorization fun s =>
    let q := s.bays[b].session
    match q.st with
    | .setup => if q.sessionSetup then s.authorise b req else s.badMessage b .authorization
    | .authorising => s.respond b { name := .authorization, code := .ongoing }
    | .parameters => if q.granted then (s.setSess b fun q => { q with granted := false }).respond b { name := .authorization, code := .finished } else s.badMessage b .authorization
    | .closing => if q.endCode = 0x04 then s.respond b { name := .authorization, code := .failed } else s.badMessage b .authorization
    | _ => s.badMessage b .authorization

/-! ## Parameters (R214 to R216) -/

/-- The absolute value of a rational number, truncated toward zero and limited to 2^32 − 1 (R215). -/
def decAbs (d : Dec) : Nat :=
  let v := if 0 ≤ d.exponent then d.value.natAbs * 10 ^ (min d.exponent.toNat 40) else d.value.natAbs / 10 ^ (-d.exponent).toNat
  min v (2 ^ 32 - 1)

/-- A field the standard defines as positive; none where it is negative (R215). -/
def decPos (d : Dec) : Option Nat := if d.value < 0 then none else some (decAbs d)

/-- A signed field. -/
def decInt (d : Dec) : Int := if d.value < 0 then -(decAbs d : Int) else decAbs d

/-- The limits and wishes of a request; none where it breaks R215. -/
def evLimits (e : EvReq) : Option EvLimits := do
  let tV ← decPos e.targetV
  let vMin ← decPos e.minV
  let vMax ← decPos e.maxV
  let pMin ← match e.minP with | some d => decPos d | none => some 0
  let pMax ← decPos e.maxP
  let iMax ← decPos e.maxI
  let pMinD ← decPos e.minDisP
  let pMaxD ← decPos e.maxDisP
  let iMaxD ← decPos e.maxDisI
  return { vMin, vMax, iMax, pMin, pMax, iMaxD, pMinD, pMaxD, tV, tI := decInt e.targetI, discharge := e.discharge }

/-- Does the session want to export (R225)? -/
def wantsExport (r : BayRec) (q : Session) : Bool := q.bpt && r.flags.testBit 0 && q.ev.discharge

/-- The bid of the latest request in its own direction (R216). -/
def askOf (r : BayRec) (q : Session) : Bid :=
  let ev := q.ev
  if wantsExport r q then
    { bidding := true, exporting := true, minP := ev.pMinD, maxP := ev.pMaxD, vmaxP := ev.pMaxD, vmaxI := ev.iMaxD
      reqP := if q.mode = .dynamic then ev.pMaxD else ev.tI.natAbs * ev.tV }
  else
    { bidding := true, exporting := false, minP := ev.pMin, vmaxP := ev.pMax, vmaxI := ev.iMax
      reqP := if q.mode = .dynamic then ev.pMax else ev.tI.toNat * ev.tV
      maxP := if q.mode = .dynamic then ev.pMax else match q.schedule with | some w => min ev.pMax w | none => ev.pMax }

/-- Bid and target of POWER from the latest accepted request (R216). -/
def State.powerBid (s : State) (b : Fin 12) (r : BayRec) : State :=
  let q := s.bays[b].session
  let ask := askOf r q
  let s := s.setSess b (askFor ask)
  let v := if ask.exporting || q.mode == .dynamic then q.ev.vMax else q.ev.tV
  s.writeTarget b (limitT r q.ev v)

/-- The direction changes at a tick whose previous set-point is 0 (R226). -/
def State.turnBid (s : State) (b : Fin 12) : State :=
  let q := s.bays[b].session
  if q.bid.exporting != q.ask.exporting && s.mkt.bays[b].setpt == 0 then
    (s.setSess b fun q => { q with bid := q.ask }).bump 4
  else s

/-- The bay's cap for what the vehicle states, at the time of a schedule offer (R181, R214). -/
def State.offerCap (s : State) (b : Fin 12) (r : BayRec) (ev : EvLimits) : Nat :=
  s.capOf b r { maxP := ev.pMax, vmaxP := ev.pMax, vmaxI := ev.iMax } s.thm.cables[b].inForce

/-- The energy services a bay offers (R214). -/
def offeredServices (r : BayRec) : List Service := if r.flags.testBit 0 then [.dc, .dcBpt] else [.dc]

/-- The schedules offered: up to 3 tuples of up to 24 entries of the host's policy, each entry at most the bay's cap (R214).
DESIGN CHOICE (log 118): how the policy makes them is a free function. -/
def State.scheduleOffers (s : State) (b : Fin 12) (cap : Nat) : List (List Nat) :=
  let policy := (List.range 40).filterMap fun i => polGet s.mkt.committed (0x10 + 4 * i)
  ((Config.scheduleOffer b.val policy).take 3).map fun o => (o.take 24).map (min cap)

/-- One request of PARAMETERS, in the order of the standard. -/
def State.takeParam (s : State) (b : Fin 12) (r : BayRec) (req : ParamReq) : State :=
  let q := s.bays[b].session
  let ok := fun (s : State) => s.respond b { name := .parameters, code := .finished }
  match req with
  | .serviceDiscovery =>
    (s.setSess b fun q => { q with stages := { q.stages with discovered := true } }).respond b
      { name := .parameters, code := .finished, services := offeredServices r }
  | .serviceSelection service mode =>
    if !q.stages.discovered then s.badMessage b .parameters
    else if !(offeredServices r).contains service ∨ mode = .none then
      (s.enterClosing b 0x06).respond b { name := .parameters, code := .unsupported }
    else ok ((s.setSess b fun q => { q with mode, bpt := service == .dcBpt, stages := { q.stages with selected := true } }).bump 4)
  | .parameterDiscovery ev =>
    if !q.stages.selected then s.badMessage b .parameters
    else
      match evLimits ev with
      | none => s.badMessage b .parameters
      | some e =>
        if e.vMax < r.vMin ∨ r.vMax < e.vMin then (s.enterClosing b 0x06).respond b { name := .parameters, code := .failed }
        else ok (s.setSess b fun q => { q with ev := e, stages := { q.stages with parameters := true } })
  | .scheduleExchange none =>
    if !q.stages.parameters then s.badMessage b .parameters
    else
      let offers := s.scheduleOffers b (s.offerCap b r q.ev)
      (s.setSess b fun q => { q with offers, schedule := none, stages := { q.stages with scheduled := true } }).respond b
        { name := .parameters, code := .finished, offers }
  | .scheduleExchange (some (i, j)) =>
    if !q.stages.scheduled then s.badMessage b .parameters
    else
      match (q.offers.getD i [])[j]? with
      | some w => ok (s.setSess b fun q => { q with schedule := some w })
      | none => s.respond b { name := .parameters, code := .unsupported }

/-- A message in a bay of the image. -/
def withBay (b : Fin 12) (f : BayRec → State → State) (s : State) : State := match s.bayRec b with | some r => f r s | none => s

/-- PARAMETER_REQ (R220). -/
def doParameterReq (t : Nat) (b : Fin 12) (decoded : Bool) (req : ParamReq) : State → State :=
  vehicleMsg t b decoded .parameters fun s =>
    if s.bays[b].session.st = .parameters then withBay b (fun r s => s.takeParam b r req) s else s.badMessage b .parameters

/-! ## Cable check and precharge (R227, R228) -/

/-- A check bid: V × 2 W at 2 A. A bid's powers are limited to 32 bits (R215, R232). -/
def checkBid (v : Nat) : Bid :=
  let p := min (2 * v) (2 ^ 32 - 1)
  { bidding := true, minP := p, reqP := p, maxP := p, vmaxP := p, vmaxI := 2 }

/-- T = V_CC once the contactor is confirmed closed and H_b > 0 (R227). -/
def State.tryCableTarget (s : State) (b : Fin 12) : State :=
  let q := s.bays[b].session
  if q.st == .cableCheck && !q.tWritten && s.bays[b].outlet.confirmedClosed && s.bays[b].outlet.close && decide (0 < s.mkt.bays[b].held) then
    (s.setSess b fun q => { q with tWritten := true }).writeTarget b q.vcc
  else s

/-- Is the insulation monitor missing or its pair in demand (R220, R301)? -/
def State.insulationBad (s : State) (b : Fin 12) : Bool :=
  match fin? 16 s.bays[b].imdSi with
  | some k => (match s.safRec 1 k.val with | some r => siType r != 2 && asserts s.saf.si[k] | none => true)
  | none => true

/-- CABLE_CHECK with a bad insulation monitor passes to FAULT (R220). -/
def State.checkInsulation (s : State) (b : Fin 12) : State :=
  if s.bays[b].session.st == .cableCheck && s.insulationBad b then s.enterFault b 0x08 else s

/-- Entry to CABLE_CHECK (R227). -/
def State.enterCableCheck (s : State) (b : Fin 12) (r : BayRec) : State :=
  let vcc := min s.bays[b].session.ev.vMax r.vMax
  let s := (s.setSess b fun q =>
    { askFor (checkBid vcc) q with vcc, tWritten := false, holdDue := none, checkOk := false, checkAnswered := false }).goSess b .cableCheck
  if s.insulationBad b then (s.enterFault b 0x08).respond b { name := .cableCheck, code := .failed }
  else (s.commandOutlet b true).respond b { name := .cableCheck, code := .ongoing }

/-- DC_CABLE_CHECK_REQ (R227). -/
def doDcCableCheckReq (t : Nat) (b : Fin 12) (decoded : Bool) : State → State :=
  vehicleMsg t b decoded .cableCheck fun s =>
    let q := s.bays[b].session
    match q.st with
    | .parameters => if q.stages.scheduled then withBay b (fun r s => s.enterCableCheck b r) s else s.badMessage b .cableCheck
    | .cableCheck =>
      if q.checkOk then (s.setSess b fun q => { q with checkAnswered := true }).respond b { name := .cableCheck, code := .finished, isolationValid := true }
      else s.respond b { name := .cableCheck, code := .ongoing }
    | _ => s.badMessage b .cableCheck

/-- CC_HOLD_ELAPSED (R227): CC_HOLD has passed without a demand of the insulation monitor. -/
def doCcHoldElapsed (t : Nat) (b : Fin 12) : State → State :=
  whenActive t b fun s =>
    let q := s.bays[b].session
    match q.holdDue with
    | some d => if q.st == .cableCheck && decide (d ≤ t) && !s.insulationBad b then s.setSess b fun q => { q with checkOk := true } else s
    | none => s

/-- The effect of a DC_PreChargeReq: bid and T from its voltage (R228). -/
def State.precharge (s : State) (b : Fin 12) (r : BayRec) (v : Nat) : State :=
  let s := s.setSess b fun q => { askFor (checkBid v) q with ev := { q.ev with tV := v } }
  (s.writeTarget b (limitT r s.bays[b].session.ev v)).respond b { name := .preCharge, code := .finished, presentV := s.exactVolts b }

/-- DC_PRE_CHARGE_REQ (R228). -/
def doDcPreChargeReq (t : Nat) (b : Fin 12) (decoded : Bool) (targetV : Dec) : State → State :=
  vehicleMsg t b decoded .preCharge fun s =>
    let q := s.bays[b].session
    match decPos targetV with
    | none => s.badMessage b .preCharge
    | some v =>
      match q.st with
      | .cableCheck => if q.checkAnswered then withBay b (fun r s => (s.goSess b .precharge).precharge b r v) s else s.badMessage b .preCharge
      | .precharge => withBay b (fun r s => s.precharge b r v) s
      | _ => s.badMessage b .preCharge

/-! ## Power and its end -/

/-- POWER_DELIVERY_REQ (R220). -/
def doPowerDeliveryReq (t : Nat) (b : Fin 12) (decoded : Bool) (start : Bool) : State → State :=
  vehicleMsg t b decoded .powerDelivery fun s =>
    match s.bays[b].session.st, start with
    | .precharge, true => withBay b (fun r s => ((s.goSess b .power).powerBid b r).respond b { name := .powerDelivery, code := .finished }) s
    | .power, false => (s.enterRampDown b 0x10).respond b { name := .powerDelivery, code := .finished }
    | _, _ => s.badMessage b .powerDelivery

/-- CHARGE_LOOP_REQ (R216, R217). -/
def doChargeLoopReq (t : Nat) (b : Fin 12) (decoded : Bool) (req : EvReq) : State → State :=
  vehicleMsg t b decoded .chargeLoop fun s =>
    if s.bays[b].session.st ≠ .power then s.badMessage b .chargeLoop
    else
      match evLimits req with
      | none => s.badMessage b .chargeLoop
      | some e => withBay b (fun r s => let s := (s.setSess b fun q => { q with ev := e }).powerBid b r; s.respond b (s.loopResp b)) s

/-- WELDING_DETECTION_REQ (R220): answered with the present voltage while the session ramps down or checks for welding. -/
def doWeldingDetectionReq (t : Nat) (b : Fin 12) (decoded : Bool) : State → State :=
  vehicleMsg t b decoded .weldingDetection fun s =>
    match s.bays[b].session.st with
    | .rampDown | .weldCheck => s.respond b { name := .weldingDetection, code := .finished, presentV := s.exactVolts b }
    | _ => s.badMessage b .weldingDetection

/-- WELD_CHECK with the contactor confirmed open: ENDED after a TLS failure, CLOSING once SessionStopReq has come (R220, R221). -/
def State.weldDone (s : State) (b : Fin 12) : State :=
  let q := s.bays[b].session
  if q.st == .weldCheck && s.bays[b].outlet.confirmedOpen then
    if q.tlsFailed then s.enterEnded b 0
    else if q.stopAsked then (s.enterClosing b 0).respond b { name := .sessionStop, code := .finished }
    else s
  else s

/-- SESSION_STOP_REQ (R220). -/
def doSessionStopReq (t : Nat) (b : Fin 12) (decoded : Bool) : State → State :=
  vehicleMsg t b decoded .sessionStop fun s =>
    match s.bays[b].session.st with
    | .rampDown | .weldCheck =>
      let s := s.setSess b fun q => { q with stopAsked := true }
      if s.bays[b].session.st == .weldCheck && s.bays[b].outlet.confirmedOpen then s.weldDone b else s.tellSession b
    | .closing => (s.setSess b fun q => { q with stopAsked := true }).respond b { name := .sessionStop, code := .finished }
    | _ => s.badMessage b .sessionStop

/-- A metrology commit taken over at a tick, stamped after entry to RAMP_DOWN, shows at most 5 A: WELD_CHECK (R220). -/
def State.rampedDown (s : State) (b : Fin 12) : State :=
  let q := s.bays[b].session
  match s.met.taken with
  | some c => if q.st == .rampDown && decide (q.entered < c.stamp) && decide ((wd c.bayI b.val).natAbs ≤ 5000) then (s.enterWeld b).weldDone b else s
  | none => s

/-! ## Triggers from outside the session (R221) -/

/-- A demand that targets the bay stands: it acts once on a session that is not IDLE (R221). An energised bay is stopped, and its
session is in FAULT when the contactor is open; a session already in FAULT stays there. -/
def State.sessionDemand (s : State) (b : Fin 12) : State :=
  let q := s.bays[b].session
  if q.st = .idle ∨ q.demandTaken then s
  else
    let s := s.setSess b fun q => { bidNone q with demandTaken := true }
    if s.bays[b].energised then
      if q.st = .fault then s else s.setSess b fun q => { q with doomed := true, authPend := false }
    else if q.st = .closing then s
    else s.enterClosing b 0x0D

/-- No demand targets the bay any more: the next one acts anew. -/
def State.sessionFree (s : State) (b : Fin 12) : State :=
  if s.bays[b].session.demandTaken then s.setSess b fun q => { q with demandTaken := false } else s

/-- The contactor has been confirmed open: a doomed session is in FAULT, WELD_CHECK goes on (R220, R221). -/
def State.contactorOpen (s : State) (b : Fin 12) : State :=
  if s.bays[b].session.doomed then s.enterFault b 0x0D else s.weldDone b

/-- FAULT is left once the vehicle is gone and the bay is not energised (R220). -/
def State.leaveFault (s : State) (b : Fin 12) : State :=
  if s.bays[b].session.st == .fault && s.bays[b].pilot.ce == .none && !s.bays[b].energised then s.enterIdle b else s

/-- The contacts act on the session (R220, R221); `was` is the CE code before the sample. -/
def State.pilotTrigger (s : State) (b : Fin 12) (was : CeCode) : State :=
  let p := s.bays[b].pilot
  let q := s.bays[b].session
  let ceBad := p.ce == .none || p.ce == .error
  let idBad := p.id == .opened || p.id == .fault
  match q.st with
  | .idle => s.tryStart b
  | .fault => s.leaveFault b
  | st =>
    if st == .ended && p.ce == .none then s.enterIdle b
    else if ceBad then (s.enterFault b 0x0B).leaveFault b
    else if idBad then s.enterFault b 0x0C
    else if was == .ready && p.ce != .ready then
      match st with
      | .power => if q.doomed then s else s.enterRampDown b 0x10
      | .cableCheck | .precharge => s.enterFault b 0x0B
      | _ => s
    else s

/-! ## The contacts (R208, R209) -/

/-- The effective code after a sample, its candidate and its count; `slow` says which changes wait for CE_DEB samples. -/
def debounce {α : Type} [DecidableEq α] (slow : α → α → Bool) (deb : Nat) (eff cand : α) (count : Nat) (c : α) : α × α × Nat :=
  let n := if c = cand then count + 1 else 1
  if c = eff then (eff, c, 0)
  else if !slow eff c then (c, c, 0)
  else if deb ≤ n then (c, c, 0)
  else (eff, c, n)

/-- CE changes that wait: to READY, and to CONNECTED from NONE. -/
def ceSlow (eff c : CeCode) : Bool := c == .ready || (c == .connected && eff == .none)

/-- ID changes that wait: to VALID. -/
def idSlow (_ c : IdCode) : Bool := c == .valid

/-- The contacts after one sample. -/
def pilotSample (deb : Nat) (p : Pilot) (x : PilotSample) : Pilot :=
  let c := debounce ceSlow deb p.ce p.ceCand p.ceCount x.ce
  let i := debounce idSlow deb p.id p.idCand p.idCount x.id
  { p with ce := c.1, ceCand := c.2.1, ceCount := c.2.2, ceMv := x.ceMv % 65536, id := i.1, idCand := i.2.1, idCount := i.2.2 }

/-- The sample that stands in for one taken within 5 µs of a role change: the previous one (R343). -/
def previousSample (p : Pilot) : PilotSample := { ce := p.ceCand, ceMv := p.ceMv, id := p.idCand }

/-- Is `t` within 5 µs after a role change of either module? -/
def State.nearRoleChange (s : State) (t : Nat) : Bool := s.pair.roleChange != 0 && decide (s.pair.roleChange ≤ t ∧ t ≤ s.pair.roleChange + 5000)

/-- One bay's contacts are sampled. -/
def State.samplePilot (s : State) (t : Nat) (b : Fin 12) (x : PilotSample) : State :=
  let p := s.bays[b].pilot
  let x := if s.nearRoleChange t then previousSample p else x
  let p' := pilotSample s.bays[b].ceDeb p x
  let s := (s.setBay b fun y => { y with pilot := p' }).bumpIf (p.ce != p'.ce || p.id != p'.id) 4
  if s.active && (s.bayRec b).isSome then (s.sessTimeout t b).pilotTrigger b p.ce else s

/-- CE_ID_SAMPLE (R208): the samples of bays 0, 1, … in order; CE is sampled in DORMANT too (R420). -/
def doCeIdSample (t : Nat) (samples : List PilotSample) : State → State :=
  whenScanning t fun s => s.forAll 12 fun b s => match samples[b.val]? with | some x => s.samplePilot t b x | none => s

/-- BAY_PHY_LINK (R232). -/
def doBayPhyLink (t : Nat) (b : Fin 12) (up : Bool) (discarded : Nat) : State → State :=
  whenLive t fun s =>
    (s.setBay b fun x => { x with errPhy := satAdd 8 x.errPhy discarded, pilot := { x.pilot with phyUp := up } }).bumpIf (s.bays[b].pilot.phyUp != up) 4

/-! ## Outputs towards the vehicle (R210 to R212, R332) -/

/-- Is the CE source of the bay on: only on the module that holds ACTIVE (R210)? -/
def State.ceSource (s : State) (b : Fin 12) : Bool := s.active && (s.bayRec b).isSome

/-- Do PLCA beacons run on the bay's port: only the module that holds ACTIVE transmits (R212), in full pair from 20 µs after it gained
ACTIVE (R343)? -/
def State.beacons (s : State) (b : Fin 12) : Bool :=
  s.active && s.bays[b].pilot.plca && (s.pair.mode != .full || decide (s.pair.tko + 20000 ≤ s.mt))

/-! ## Commands and registers of BAY (R232) -/

/-- Address of a BAY register. -/
def bayAddr (b : Fin 12) (off : Nat) : Nat := 0x00300000 + b.val * 0x1000 + off

/-- The effect of STOP (R221). -/
def State.stopSession (s : State) (b : Fin 12) : State := s.wind b 0x0F

/-- The effect of AUTH_OK: ignored unless AUTH_PEND (R232). -/
def State.authOk (s : State) (b : Fin 12) : State :=
  if s.bays[b].session.st == .authorising && s.bays[b].session.authPend then s.grantAuth b else s

/-- The effect of AUTH_DENY. -/
def State.authDeny (s : State) (b : Fin 12) : State :=
  if s.bays[b].session.st == .authorising && s.bays[b].session.authPend then s.refuseAuth b else s

/-- The effect of CLR_CNT. -/
def State.bayClear (s : State) (b : Fin 12) : State :=
  s.setBay b fun x => { x with sessions := 0, timeouts := 0, faults := 0, errMsg := 0, errTls := 0, errPhy := 0 }

/-- A command of BAY.CTRL: refused while the module does not hold ACTIVE (R351). A timeout that expires at its stamp comes before it
(R222). -/
def bayCommand (t : Nat) (m : Master) (b : Fin 12) (f : State → State) : State → State :=
  whenLive t fun s => s.command m (bayAddr b 0) (firstOf (foreign s m) (roleGuard s)) fun s => f (s.sessTimeout (t + 1) b)

/-- BAY_STOP (R221). -/
def doBayStop (t : Nat) (m : Master) (b : Fin 12) : State → State := bayCommand t m b fun s => s.stopSession b

/-- AUTH_OK (R219). -/
def doAuthOk (t : Nat) (m : Master) (b : Fin 12) : State → State := bayCommand t m b fun s => s.authOk b

/-- AUTH_DENY (R219). -/
def doAuthDeny (t : Nat) (m : Master) (b : Fin 12) : State → State := bayCommand t m b fun s => s.authDeny b

/-- BAY_CLR_CNT (R232). -/
def doBayClrCnt (t : Nat) (m : Master) (b : Fin 12) : State → State := bayCommand t m b fun s => s.bayClear b

/-- Number of a CE code. -/
def ceNumber : CeCode → Nat | .none => 0 | .connected => 1 | .ready => 2 | .error => 3

/-- Number of an ID code. -/
def idNumber : IdCode → Nat | .opened => 0 | .valid => 1 | .fault => 2

/-- A read of BAY at an offset of the bay's window. -/
def bayRead (s : State) (b : Fin 12) (off : Nat) : Option Nat :=
  let x := s.bays[b]
  let q := x.session
  match off with
  | 0x00 => some (b2n x.disable)
  | 0x04 => some (sessCode q.st + b2n x.energised * 2 ^ 12 + b2n q.authPend * 2 ^ 13 + q.auth * 2 ^ 14 + modeNumber q.mode * 2 ^ 16 +
                  b2n q.bpt * 2 ^ 18 + b2n q.bid.exporting * 2 ^ 19 + q.endCode * 2 ^ 24)
  | 0x08 => some (b2n x.pilot.phyUp + b2n (s.beacons b) * 2 + ceNumber x.pilot.ce * 2 ^ 8 + idNumber x.pilot.id * 2 ^ 10 + x.pilot.ceMv * 2 ^ 16)
  | 0x0C => some (b2n x.eimEn + b2n x.pncEn * 2 + b2n x.eimAuto * 4 + b2n x.pncHost * 8 + x.ceDeb * 2 ^ 8 + x.imdSi * 2 ^ 16)
  | 0x10 => some (x.preS + x.loopS * 2 ^ 12 + x.ccS * 2 ^ 16 + x.authS * 2 ^ 24)
  | 0x14 => some x.ccHold
  | 0x18 => some (min 0xFFFF q.target + min 0xFFFF q.ev.vMax * 2 ^ 16)
  | 0x1C => some q.bid.vmaxI
  | 0x20 => some q.bid.vmaxP
  | 0x24 => some (x.faults + x.timeouts * 2 ^ 8 + x.sessions * 2 ^ 16)
  | 0x28 => some (x.errPhy + x.errTls * 2 ^ 8 + x.errMsg * 2 ^ 16)
  | _ => none

/-- A write of BAY.CTRL (R232, R351, R518). -/
def bayCtrl (s : State) (b : Fin 12) (v : Nat) : RegEffect :=
  if severalBits v 0x0E then (some (deny .range), id)
  else if v &&& 0x1E ≠ 0 ∧ !s.active then (some (deny .role), id)
  else (none, fun s =>
    let s := if v &&& 0x1E ≠ 0 ∧ (s.bayRec b).isSome then s.sessTimeout (s.mt + 1) b else s
    let s := s.setBay b fun x => { x with disable := v.testBit 0 }
    let s := if v.testBit 1 then s.stopSession b else if v.testBit 2 then s.authOk b else if v.testBit 3 then s.authDeny b else s
    if v.testBit 4 then s.bayClear b else s)

/-- A write of BAY at an offset of the bay's window. -/
def bayWrite (s : State) (b : Fin 12) (off v : Nat) : Option RegEffect :=
  match off with
  | 0x00 => some (bayCtrl s b v)
  | 0x0C =>
    let imd := bits v 16 5
    let deb := bits v 8 8
    some (inRange (decide (1 ≤ deb ∧ deb ≤ 100) && (decide (imd ≤ 15) || imd == 0x1F)) fun s =>
      s.setBay b fun x => { x with eimEn := v.testBit 0, pncEn := v.testBit 1, eimAuto := v.testBit 2, pncHost := v.testBit 3, ceDeb := deb, imdSi := imd })
  | 0x10 =>
    let a := bits v 24 8
    let c := bits v 16 8
    let l := bits v 12 4
    let p := bits v 0 5
    some (inRange (decide (10 ≤ a ∧ 10 ≤ c ∧ c ≤ 120 ∧ 1 ≤ l ∧ 3 ≤ p ∧ p ≤ 30)) fun s =>
      s.setBay b fun x => { x with authS := a, ccS := c, loopS := l, preS := p })
  | 0x14 => some (inRange (decide (5 ≤ bits v 0 7 ∧ bits v 0 7 ≤ 100)) fun s => s.setBay b fun x => { x with ccHold := bits v 0 7 })
  | _ => (bayRead s b off).map fun _ => roWord

/-! ## Meanings -/

/-- Meaning of CE_ID_SAMPLE (R208). -/
def execCeIdSample (t : Nat) (samples : List PilotSample) (s : State) : Host.Outcome State Fault Refusal :=
  .next (doCeIdSample t samples s)

/-- Meaning of SDP_REQUEST (R220). -/
def execSdpRequest (t : Nat) (bay : Fin 12) (s : State) : Host.Outcome State Fault Refusal :=
  .next (doSdpRequest t bay s)

/-- Meaning of SESSION_SETUP_REQ (R218). -/
def execSessionSetupReq (t : Nat) (bay : Fin 12) (decoded : Bool) (s : State) : Host.Outcome State Fault Refusal :=
  .next (doSessionSetupReq t bay decoded s)

/-- Meaning of AUTHORIZATION_REQ (R219). -/
def execAuthorizationReq (t : Nat) (bay : Fin 12) (decoded : Bool) (req : AuthReq) (s : State) : Host.Outcome State Fault Refusal :=
  .next (doAuthorizationReq t bay decoded req s)

/-- Meaning of PARAMETER_REQ (R220). -/
def execParameterReq (t : Nat) (bay : Fin 12) (decoded : Bool) (req : ParamReq) (s : State) : Host.Outcome State Fault Refusal :=
  .next (doParameterReq t bay decoded req s)

/-- Meaning of DC_CABLE_CHECK_REQ (R227). -/
def execDcCableCheckReq (t : Nat) (bay : Fin 12) (decoded : Bool) (s : State) : Host.Outcome State Fault Refusal :=
  .next (doDcCableCheckReq t bay decoded s)

/-- Meaning of DC_PRE_CHARGE_REQ (R228). -/
def execDcPreChargeReq (t : Nat) (bay : Fin 12) (decoded : Bool) (targetV : Dec) (s : State) : Host.Outcome State Fault Refusal :=
  .next (doDcPreChargeReq t bay decoded targetV s)

/-- Meaning of POWER_DELIVERY_REQ (R220). -/
def execPowerDeliveryReq (t : Nat) (bay : Fin 12) (decoded : Bool) (start : Bool) (s : State) : Host.Outcome State Fault Refusal :=
  .next (doPowerDeliveryReq t bay decoded start s)

/-- Meaning of CHARGE_LOOP_REQ (R216). -/
def execChargeLoopReq (t : Nat) (bay : Fin 12) (decoded : Bool) (req : EvReq) (s : State) : Host.Outcome State Fault Refusal :=
  .next (doChargeLoopReq t bay decoded req s)

/-- Meaning of WELDING_DETECTION_REQ (R220). -/
def execWeldingDetectionReq (t : Nat) (bay : Fin 12) (decoded : Bool) (s : State) : Host.Outcome State Fault Refusal :=
  .next (doWeldingDetectionReq t bay decoded s)

/-- Meaning of SESSION_STOP_REQ (R220). -/
def execSessionStopReq (t : Nat) (bay : Fin 12) (decoded : Bool) (s : State) : Host.Outcome State Fault Refusal :=
  .next (doSessionStopReq t bay decoded s)

/-- Meaning of TLS_FAILURE (R221). -/
def execTlsFailure (t : Nat) (bay : Fin 12) (kind : TlsFail) (s : State) : Host.Outcome State Fault Refusal :=
  .next (doTlsFailure t bay kind s)

/-- Meaning of CC_HOLD_ELAPSED (R227). -/
def execCcHoldElapsed (t : Nat) (bay : Fin 12) (s : State) : Host.Outcome State Fault Refusal :=
  .next (doCcHoldElapsed t bay s)

/-- Meaning of CONTACTOR_TIMEOUT (R221). -/
def execContactorTimeout (t : Nat) (bay : Fin 12) (s : State) : Host.Outcome State Fault Refusal :=
  .next (doContactorTimeout t bay s)

/-- Meaning of NO_SDP (R220). -/
def execNoSdp (t : Nat) (bay : Fin 12) (s : State) : Host.Outcome State Fault Refusal :=
  .next (doNoSdp t bay s)

/-- Meaning of SETUP_TIMEOUT (R220). -/
def execSetupTimeout (t : Nat) (bay : Fin 12) (s : State) : Host.Outcome State Fault Refusal :=
  .next (doSetupTimeout t bay s)

/-- Meaning of AUTH_TIMEOUT (R219). -/
def execAuthTimeout (t : Nat) (bay : Fin 12) (s : State) : Host.Outcome State Fault Refusal :=
  .next (doAuthTimeout t bay s)

/-- Meaning of CC_TIMEOUT (R220). -/
def execCcTimeout (t : Nat) (bay : Fin 12) (s : State) : Host.Outcome State Fault Refusal :=
  .next (doCcTimeout t bay s)

/-- Meaning of PRE_TIMEOUT (R220). -/
def execPreTimeout (t : Nat) (bay : Fin 12) (s : State) : Host.Outcome State Fault Refusal :=
  .next (doPreTimeout t bay s)

/-- Meaning of LOOP_TIMEOUT (R220). -/
def execLoopTimeout (t : Nat) (bay : Fin 12) (s : State) : Host.Outcome State Fault Refusal :=
  .next (doLoopTimeout t bay s)

/-- Meaning of SEQ_TIMEOUT (R220). -/
def execSeqTimeout (t : Nat) (bay : Fin 12) (s : State) : Host.Outcome State Fault Refusal :=
  .next (doSeqTimeout t bay s)

/-- Meaning of RAMP_TIMEOUT (R220). -/
def execRampTimeout (t : Nat) (bay : Fin 12) (s : State) : Host.Outcome State Fault Refusal :=
  .next (doRampTimeout t bay s)

/-- Meaning of CLOSING_TIMEOUT (R220). -/
def execClosingTimeout (t : Nat) (bay : Fin 12) (s : State) : Host.Outcome State Fault Refusal :=
  .next (doClosingTimeout t bay s)

/-- Meaning of FAULT_HOLD_TIMEOUT (R220). -/
def execFaultHoldTimeout (t : Nat) (bay : Fin 12) (s : State) : Host.Outcome State Fault Refusal :=
  .next (doFaultHoldTimeout t bay s)

/-- Meaning of BAY_STOP (R221). -/
def execBayStop (t : Nat) (m : Master) (bay : Fin 12) (s : State) : Host.Outcome State Fault Refusal :=
  .next (doBayStop t m bay s)

/-- Meaning of AUTH_OK (R219). -/
def execAuthOk (t : Nat) (m : Master) (bay : Fin 12) (s : State) : Host.Outcome State Fault Refusal :=
  .next (doAuthOk t m bay s)

/-- Meaning of AUTH_DENY (R219). -/
def execAuthDeny (t : Nat) (m : Master) (bay : Fin 12) (s : State) : Host.Outcome State Fault Refusal :=
  .next (doAuthDeny t m bay s)

/-- Meaning of BAY_CLR_CNT (R232). -/
def execBayClrCnt (t : Nat) (m : Master) (bay : Fin 12) (s : State) : Host.Outcome State Fault Refusal :=
  .next (doBayClrCnt t m bay s)

/-- Meaning of SUPPORTED_APP_PROTOCOL_REQ (R220). -/
def execSupportedAppProtocolReq (t : Nat) (bay : Fin 12) (decoded : Bool) (s : State) : Host.Outcome State Fault Refusal :=
  .next (doSupportedAppProtocolReq t bay decoded s)

/-- Meaning of TLS_HANDSHAKE (R213). -/
def execTlsHandshake (t : Nat) (hello : TlsHello) (s : State) : Host.Outcome State Fault Refusal :=
  .next (doTlsHandshake t hello.bay hello s)

/-- Meaning of BAY_PHY_LINK (R232). -/
def execBayPhyLink (t : Nat) (bay : Fin 12) (report : PhyReport) (s : State) : Host.Outcome State Fault Refusal :=
  .next (doBayPhyLink t bay report.up report.discarded s)

end Sys2Proof.Machine
end

