-- ==== Sys2Proof/Machine/Thermal.lean ====
section
/-! DEFINITION. Cable cooling: temperature and flow inputs (R236, R237), the cable model (R235, R238), derate, latch and cable
term (R239 to R242), cooling loops (R243 to R245), the THM registers (R258). -/
namespace Sys2Proof.Machine

/-! ## Inputs -/

/-- 10^19 times the resistance of a PT1000 at `k` tenths of a °C, as a multiple of its 1 000 Ω at 0 °C: the Callendar–Van Dusen relation with
the coefficients of IEC 60751 (R236; PRESUMED, log 129: the manual names the standard and does not print its coefficients). -/
def ptScaled (k : Int) : Int :=
  10000000000000000000 + 3908300000000000 * k - 57750000000 * k * k - (if k < 0 then 4183 * (k - 1000) * k * k * k else 0)

/-- The greatest tenth of a °C from `lo` on, within 2^`fuel`, whose resistance is not above `r` mΩ. -/
def ptSearch (r : Nat) : Nat → Int → Int
  | 0, lo => lo
  | fuel + 1, lo =>
    let mid := lo + (2 ^ fuel : Nat)
    if ptScaled mid ≤ (r : Int) * 10000000000000 then ptSearch r fuel mid else ptSearch r fuel lo

/-- The temperature of a resistance in mΩ, in 0.1 °C from −200 °C up, to a free rounding (R236). -/
def ptTenths (r : Nat) : Int :=
  let k := ptSearch r 14 (-2000)
  if ptScaled k = (r : Int) * 10000000000000 then k else if Config.roundsUp 48 r 1 then k + 1 else k

/-- Does a resistance lie in −50 °C to +220 °C (R236)? -/
def ptInside (r : Nat) : Bool := decide (ptScaled (-500) ≤ (r : Int) * 10000000000000 ∧ (r : Int) * 10000000000000 ≤ ptScaled 2200)

/-- One conversion of an input (R236). -/
def convert (x : TempInput) (r : Nat) : TempInput :=
  let hist := (ptTenths r :: x.hist).take 10
  let inside := ptInside r
  let bad := if inside then 0 else min 3 (x.bad + 1)
  let good := if inside then min 100 (x.good + 1) else 0
  let faulted := if x.faulted then decide (good < 100) else decide (3 ≤ bad)
  { hist, bad, good, faulted, temp := some (someRound 4 (sumInt hist) hist.length) }

/-- The conversions of a tick. -/
def State.convertAll (s : State) (ts : List Nat) : State :=
  s.forAll 36 fun n s =>
    match ts[n.val]? with
    | some v =>
      let x := s.thm.ts[n]
      let y := convert x v
      let s := { s with thm := { s.thm with ts := vupd s.thm.ts n fun _ => y, tsFaults := if y.faulted && !x.faulted then satInc 8 s.thm.tsFaults else s.thm.tsFaults } }
      s.bumpIf (x.faulted != y.faulted) 6
    | none => s

/-- Flow edges in the 250 ms that end at `t` (R237). -/
def edgeCount (t : Nat) (es : List Nat) : Nat := (es.filter fun e => decide (t < e + 250000000 ∧ e ≤ t)).length

/-- FLOW_PULSE (R237): the edge is stamped; older edges than a window are of no further use. -/
def doFlowPulse (t : Nat) (i : Fin 12) : State → State :=
  whenLive t fun s =>
    { s with thm := { s.thm with edges := vupd s.thm.edges i fun es => t :: es.filter fun e => decide (t < e + 250000000) } }

/-- The flow q of a bay as a fraction in l/min (R237): 60 without a flow input. -/
def State.flowOf (s : State) (t : Nat) (r : BayRec) : Nat × Nat :=
  match fin? 12 r.flowIn with
  | some i => (edgeCount t s.thm.edges[i] * 240, s.thm.flowK[i])
  | none => (60, 1)

/-! ## The model (R235, R238) -/

/-- A value of the model in its 32-bit field; the manual gives none for a value that does not fit, which is then free. -/
def hold32 (z : Int) : Int := if -(2 ^ 31) ≤ z ∧ z < 2 ^ 31 then z else signedOf 32 (Config.freeNat z.natAbs)

/-- A rational number in the model's grid, to a free rounding. -/
def roundRat (place : Nat) (x : Rat) : Int := hold32 (someRound place x.num x.den)

/-- One step of R235: nodes C and W in 2^−16 °C, the current in mA, the flow in l/min, the ambient in 2^−16 °C. -/
def cableStep (r : BayRec) (amp : Nat) (q : Rat) (amb : Rat) (c w : Int) : Int × Int :=
  let tc : Rat := (c : Rat) / 65536
  let tw : Rat := (w : Rat) / 65536
  let i : Rat := (amp : Rat) / 1000
  let ohm : Rat := (r.res20 : Rat) / 1000000 * (1 + 393 / 100000 * (tc - 20))
  let g : Rat := (r.g0 : Rat) / 10 + (r.g1 : Rat) / 10 * (if q < 60 then q else 60)
  let c' : Rat := tc + 1 / 1000 / (r.cC : Rat) * (i * i * ohm - g * (tc - tw))
  let w' : Rat := tw + 1 / 1000 / (10 * (r.cW : Rat)) * (g * (tc - tw) - (r.gWA : Rat) * (tw - amb / 65536))
  (roundRat 5 (c' * 65536), roundRat 6 (w' * 65536))

/-- The correction of R238 by a valid sensor reading in 0.1 °C. -/
def fuse (place k : Nat) (th : Int) (m : Option Int) : Int :=
  match m with | some x => roundRat place ((th : Rat) + (k : Rat) / 256 * ((x : Rat) * 65536 / 10 - th)) | none => th

/-- θ_use in 1/655 360 °C (R238). -/
def useTemp (thC : Int) (mA : Option Int) : Int := match mA with | some m => max (10 * thC) (65536 * m) | none => 10 * thC

/-! ## Derate (R239 to R242) -/

/-- T_eff in 1/655 360 °C (R239). -/
def tEff (r : BayRec) (margin : Nat) (mA : Option Int) : Int :=
  655360 * ((r.tLim : Int) - 40 - (if mA.isSome then 0 else (margin : Int)))

/-- I_DER by the table of R239. -/
def derated (iMax span : Nat) (latch : Bool) (te use : Int) : Nat :=
  if latch then 0
  else if use ≤ te - 655360 * span then iMax
  else if use < te then ((iMax : Int) * (te - use) / ((655360 * span : Nat) : Int)).toNat
  else 0

/-- The loop of a bay. -/
def State.loopOf (s : State) (b : Fin 12) : Option (Fin 4) := (fins 4).find? fun l => s.thm.loops[l].bays.testBit b.val

/-- Has a bay no flow (R240)? -/
def State.noFlowNow (s : State) (t : Nat) (b : Fin 12) (r : BayRec) : Bool :=
  let q := s.flowOf t r
  decide (r.flowIn < 12 ∧ r.flowMin ≠ 0 ∧ q.1 * 10 < r.flowMin * q.2) &&
  (match s.loopOf b with
   | some l => s.thm.loops[l].pump && decide (s.thm.loops[l].pumpSince + secs 2 ≤ t)
   | none => false)

/-- The cable of bay `b` changed. -/
def State.setCable (s : State) (b : Fin 12) (f : Cable → Cable) : State := { s with thm := { s.thm with cables := vupd s.thm.cables b f } }

/-- θ_use in 0.1 °C, to a free rounding. -/
def tenths (place : Nat) (use : Int) : Int := someRound place use 65536

/-- The model of one bay at tick start `t`: step, correction, latch, no flow, derate and cable term. -/
def State.cableTick (s : State) (t : Nat) (b : Fin 12) (r : BayRec) : State :=
  let c := s.thm.cables[b]
  let q := s.flowOf t r
  let amp := match s.met.commit with | some m => (wd m.bayI b.val).natAbs | none => 0
  let amb : Rat := match s.tempOf r.tsC with | some x => (x : Rat) * 65536 / 10 | none => (((s.thm.ambFix : Int) - 40) * 65536 : Int)
  let step := cableStep r amp ((q.1 : Rat) / (q.2 : Rat)) amb c.thC c.thW
  let mA := s.tempOf r.tsA
  let thC := fuse 14 s.thm.kFus step.1 mA
  let thW := fuse 15 s.thm.kFus step.2 (s.tempOf r.tsB)
  let use := useTemp thC mA
  let te := tEff r s.thm.faultMargin mA
  let latch := if te ≤ use then true else if use ≤ te - 655360 * r.derSpan then false else c.latch
  let dry := s.noFlowNow t b r
  let i0 := derated r.iMax r.derSpan latch te use
  let iDer := if dry then min i0 (r.iMax * s.thm.noFlowPct / 100) else i0
  let flow := min 0xFFFF (someRound 7 (q.1 * 10 : Nat) q.2).toNat
  let s := s.setCable b fun x => { x with thC, thW, thUse := use, latch, noFlow := dry, iDer, flow, term := iDer * s.vUse b r / 655360, termAt := some t }
  let s := if dry && !c.noFlow then { s with thm := { s.thm with noFlows := satInc 8 s.thm.noFlows } } else s
  let s := s.bumpIf (dry != c.noFlow) 6
  if latch && !c.latch then
    ({ s with thm := { s.thm with latches := satInc 16 s.thm.latches } }).log 0x0601 b.val (fieldOf 32 (tenths 16 use)) r.iMax
  else s.bumpIf (latch != c.latch) 6

/-- The cable terms committed are taken over (R22, R242). -/
def State.takeTerms (s : State) : State :=
  { s with thm := { s.thm with cables := vmap (fun _ c => { c with inForce := if c.termAt.isSome then c.term else 0 }) s.thm.cables } }

/-! ## Cooling loops (R243 to R245) -/

/-- The valve of a bay at a tick (R243). A bay that the active image does not have has no θ_use. -/
def State.valveTick (s : State) (t : Nat) (b : Fin 12) : State :=
  let hot := match s.loopOf b with
    | some l => (s.bayRec b).isSome && decide (655360 * ((s.thm.loops[l].tLo : Int) - 40) < s.thm.cables[b].thUse)
    | none => false
  let c := s.thm.cables[b]
  if s.bays[b].energised || hot then (s.setCable b fun c => { c with valve := true, valveDue := none }).bumpIf (!c.valve) 6
  else if c.valve && c.valveDue.isNone then s.setCable b fun c => { c with valveDue := some (t + secs 60) }
  else s

/-- Bays of a loop that the active image uses. -/
def State.loopBays (s : State) (l : Fin 4) : List (Fin 12) := (fins 12).filter fun b => s.thm.loops[l].bays.testBit b.val && (s.bayRec b).isSome

/-- The demand of R244 in 1/1000 per mille; `x`, `lo` and `hi` in one unit. The rounding to the grid is a free choice. -/
def loopDemand (place dMin : Nat) (x lo hi : Int) : Nat :=
  let lowest : Int := 10000 * dMin
  if x ≤ lo then lowest.toNat
  else if hi ≤ x then 1000000
  else (lowest + someRound place ((1000000 - lowest) * (x - lo)) (hi - lo).toNat).toNat

/-- The demand moves by at most 200 per mille per second, 0.2 per mille in a tick (R245). -/
def limited (running : Bool) (old want : Nat) : Nat := if running then clampNat (old - 200) (old + 200) want else want

/-- A loop's pump and fan at a tick. -/
def State.loopTick (s : State) (t : Nat) (l : Fin 4) : State :=
  let x := s.thm.loops[l]
  let bs := s.loopBays l
  let open_ := (fins 12).any fun b => x.bays.testBit b.val && s.thm.cables[b].valve
  let useMax := bs.foldl (fun a b => max a s.thm.cables[b].thUse) (-26214400)
  let wMax := bs.foldl (fun a b => max a s.thm.cables[b].thW) (-2621440)
  let fan := open_ && decide (65536 * ((x.fLo : Int) - 40) < wMax)
  let pumpWant := loopDemand 17 x.dMin useMax (655360 * ((x.tLo : Int) - 40)) (655360 * ((x.tHi : Int) - 40))
  let fanWant := loopDemand 18 x.dMin wMax (65536 * ((x.fLo : Int) - 40)) (65536 * ((x.fHi : Int) - 40))
  let y := { x with pump := open_, pumpSince := if open_ && !x.pump then t else x.pumpSince, fan,
                    pumpDemand := if open_ then limited x.pump x.pumpDemand pumpWant else 0,
                    fanDemand := if fan then limited x.fan x.fanDemand fanWant else 0 }
  { s with thm := { s.thm with loops := vupd s.thm.loops l fun _ => y } }

/-- Every cable, valve and loop at tick start `t`. -/
def State.coolTick (s : State) (t : Nat) (rd : TickReadings) : State :=
  let s := s.convertAll rd.ts
  let s := s.forAll 12 fun b s => match s.bayRec b with | some r => s.cableTick t b r | none => s
  let s := s.forAll 12 fun b s => s.valveTick t b
  s.forAll 4 fun l s => s.loopTick t l

/-- VALVE_CLOSE_DELAY (R243). -/
def doValveCloseDelay (t : Nat) (b : Fin 12) : State → State :=
  whenLive t fun s =>
    match s.thm.cables[b].valveDue with
    | some d => if d ≤ t then (s.setCable b fun c => { c with valve := false, valveDue := none }).bump 6 else s
    | none => s

/-! ## THM registers (R258) -/

/-- The effect of CLR_CNT of THM.CTRL. -/
def State.thmClear (s : State) : State := { s with thm := { s.thm with latches := 0, noFlows := 0, tsFaults := 0 } }

/-- THM_CLR_CNT (R258). -/
def doThmClrCnt (t : Nat) (m : Master) : State → State :=
  whenLive t fun s => s.command m 0x00500000 (foreign s m) fun s => s.thmClear

/-- THM.TSn. -/
def tsWord (x : TempInput) : Nat :=
  b2n x.faulted * 2 ^ 31 + (match x.faulted, x.temp with | false, some v => fieldOf 16 v | _, _ => 0x8000)

/-- The result words of THM of a bay. -/
def cableWord (s : State) (b : Fin 12) (i : Nat) : Option Nat :=
  let c := s.thm.cables[b]
  let absent := fun n => (s.tempOf n).isNone
  match i with
  | 0 => some (b2n c.valve * 2 ^ 2 +
      (match s.bayRec b with | some r => b2n (absent r.tsA) * 2 ^ 3 + b2n (absent r.tsB) * 2 ^ 4 + b2n (absent r.tsC) * 2 ^ 5 | none => 0) +
      b2n c.noFlow * 2 ^ 6 + b2n c.latch * 2 ^ 7 + c.iDer * 2 ^ 16)
  | 1 => some (fieldOf 16 (tenths 16 c.thUse) + fieldOf 16 (someRound 19 (10 * c.thW) 65536) * 2 ^ 16)
  | 2 => some c.term
  | 3 => some c.flow
  | _ => none

/-- A read of THM at an offset of the block. -/
def thmRead (s : State) (off : Nat) : Option Nat :=
  if off % 4 ≠ 0 then none
  else if off = 0 then some 0
  else if off = 4 then some (s.thm.noFlowPct + s.thm.faultMargin * 2 ^ 8 + s.thm.kFus * 2 ^ 16 + s.thm.ambFix * 2 ^ 24)
  else if off = 0x240 then some (s.thm.tsFaults + s.thm.noFlows * 2 ^ 8 + s.thm.latches * 2 ^ 16)
  else if 0x10 ≤ off ∧ off < 0x40 then (fin? 12 ((off - 0x10) / 4)).map fun n => s.thm.flowK[n]
  else if 0x40 ≤ off ∧ off < 0xD0 then (fin? 36 ((off - 0x40) / 4)).map fun n => tsWord s.thm.ts[n]
  else if 0x100 ≤ off ∧ off < 0x1C0 then (fin? 12 ((off - 0x100) / 16)).bind fun b => cableWord s b (off % 16 / 4)
  else if 0x200 ≤ off ∧ off < 0x220 then
    (fin? 4 ((off - 0x200) / 8)).map fun l =>
      let x := s.thm.loops[l]
      if off % 8 = 0 then x.bays + x.dMin * 2 ^ 24 else x.tLo + x.tHi * 2 ^ 8 + x.fLo * 2 ^ 16 + x.fHi * 2 ^ 24
  else none

/-- Loop `l` changed. -/
def State.setLoop (s : State) (l : Fin 4) (f : CoolLoop → CoolLoop) : State := { s with thm := { s.thm with loops := vupd s.thm.loops l f } }

/-- Is any of the bays in a loop other than `l`? -/
def otherLoops (s : State) (l : Fin 4) (bays : Nat) : Bool := (fins 4).any fun k => k != l && s.thm.loops[k].bays &&& bays != 0

/-- A write of THM at an offset of the block. -/
def thmWrite (s : State) (off v : Nat) : Option RegEffect :=
  if off = 0 then some (none, fun s => if v.testBit 0 then s.thmClear else s)
  else if off = 4 then
    some (inRange (decide (bits v 8 8 ≤ 40 ∧ bits v 0 8 ≤ 100)) fun s =>
      { s with thm := { s.thm with noFlowPct := bits v 0 8, faultMargin := bits v 8 8, kFus := bits v 16 8, ambFix := bits v 24 8 } })
  else if off % 4 = 0 ∧ 0x10 ≤ off ∧ off < 0x40 then
    (fin? 12 ((off - 0x10) / 4)).map fun n =>
      inRange (decide (1 ≤ bits v 0 16)) fun s => { s with thm := { s.thm with flowK := vupd s.thm.flowK n fun _ => bits v 0 16 } }
  else if off % 4 = 0 ∧ 0x200 ≤ off ∧ off < 0x220 then
    (fin? 4 ((off - 0x200) / 8)).map fun l =>
      if off % 8 = 0 then
        inRange (decide (bits v 24 8 ≤ 100) && !otherLoops s l (bits v 0 12)) fun s => s.setLoop l fun x => { x with bays := bits v 0 12, dMin := bits v 24 8 }
      else
        inRange (decide (bits v 0 8 < bits v 8 8 ∧ bits v 16 8 < bits v 24 8)) fun s =>
          s.setLoop l fun x => { x with tLo := bits v 0 8, tHi := bits v 8 8, fLo := bits v 16 8, fHi := bits v 24 8 }
  else (thmRead s off).map fun _ => roWord

/-! ## Meanings -/

/-- Meaning of FLOW_PULSE (R237). -/
def execFlowPulse (t : Nat) (input : Fin 12) (s : State) : Host.Outcome State Fault Refusal :=
  .next (doFlowPulse t input s)

/-- Meaning of VALVE_CLOSE_DELAY (R243). -/
def execValveCloseDelay (t : Nat) (bay : Fin 12) (s : State) : Host.Outcome State Fault Refusal :=
  .next (doValveCloseDelay t bay s)

/-- Meaning of THM_CLR_CNT (R258). -/
def execThmClrCnt (t : Nat) (m : Master) (s : State) : Host.Outcome State Fault Refusal :=
  .next (doThmClrCnt t m s)

end Sys2Proof.Machine
end

