-- ==== Sys2Proof/Machine/Auxiliary.lean ====
section
/-! DEFINITION. The 24 auxiliary outputs: demands and duties (R246, R247, R253), protection, retries and shedding (R249 to
R252), what they do without the module (R254 to R257), the AUX registers (R258). -/
namespace Sys2Proof.Machine

/-- Channel `n` changed. -/
def State.setAux (s : State) (n : Fin 24) (f : AuxCh → AuxCh) : State := { s with aux := { s.aux with ch := vupd s.aux.ch n f } }

/-! ## Demand and duty -/

/-- The valve of a bay is open. -/
def State.valveOpen (s : State) (b : Nat) : Bool := match fin? 12 b with | some b => s.thm.cables[b].valve | none => false

/-- Demand of a channel in 1/1000 per mille (R246). -/
def State.auxDemand (s : State) (x : AuxCh) : Nat :=
  match x.mode with
  | 1 => 1000 * x.demand
  | 2 => (match fin? 4 x.src with | some l => s.thm.loops[l].pumpDemand | none => 0)
  | 3 => (match fin? 4 x.src with | some l => s.thm.loops[l].fanDemand | none => 0)
  | 4 => if s.valveOpen x.src then (if x.pullInDue.isSome then 1000000 else 10000 * x.level) else 0
  | 5 => (match fin? 12 x.src with | some b => if s.bays[b].energised then 1000000 else 0 | none => 0)
  | _ => 0

/-- The applied duty of a demand (R247), V24 in 10 mV. -/
def dutyOf (pwmF vNom v24 demand : Nat) : Nat :=
  if pwmF = 0 then (if 0 < demand then 1000 else 0)
  else if v24 = 0 then 0 else min 1000 (demand * vNom * 100 / (1000 * v24))

/-- The duty a channel is to apply: by the cooling laws, or in a pair without ACTIVE the partner's state (R253). -/
def State.auxDuty (s : State) (n : Fin 24) : Nat :=
  let x := s.aux.ch[n]
  if s.paired && !s.active then (if x.mirror then s.pair.partner.auxDuty.getD n.val 0 else 0)
  else dutyOf x.pwmF x.vNom s.aux.v24 (s.auxDemand x)

/-- A channel applies a duty; its on-time starts or ends. -/
def applyDuty (t d : Nat) (x : AuxCh) : AuxCh :=
  { x with duty := d, onSince := if d = 0 then none else match x.onSince with | some q => some q | none => some t,
           limitDue := if d = 0 then none else x.limitDue, overSince := if d = 0 then none else x.overSince,
           lightSince := if d = 0 then none else x.lightSince }

/-- Does the module drive the channels? From the release of the outputs at the entry to DORMANT on they stay in their FAIL states (R255,
R418), with a failed self-test they are held by R254 (R320), and without VIN24 they are off (R494). -/
def State.auxDriven (s : State) : Bool := s.pwr.released.isNone && s.saf.selfTest && !s.aux.gone

/-- A channel is driven, where no trip holds it off. -/
def State.driveAux (s : State) (t : Nat) (n : Fin 24) : State :=
  let d := s.auxDuty n
  if s.auxDriven then s.setAux n fun x => if x.tripped then x else applyDuty t d x else s

/-- The opening of a valve starts its channel's pull-in of 200 ms (R246). -/
def State.pullIn (s : State) (t : Nat) (n : Fin 24) : State :=
  let x := s.aux.ch[n]
  let on := x.mode == 4 && s.valveOpen x.src
  s.setAux n fun y => { y with valveOn := on, pullInDue := if on then (if x.valveOn then x.pullInDue else some (t + ms 200)) else none }

/-- End of the wait for a refresh (R12, R255): none with HOLD_S = 0. -/
def holdEnd (holdS t : Nat) : Option Nat := if holdS = 0 then none else some (t + secs holdS)

/-- A channel off. -/
def auxOff (x : AuxCh) : AuxCh := { x with tripped := true, duty := 0, onSince := none, limitDue := none, overSince := none, lightSince := none }

/-- The VIN24 domain starts anew: every channel off, its protection cleared. -/
def auxFresh (x : AuxCh) : AuxCh :=
  { auxOff x with tripped := false, fault := 0, therm := false, retries := 0, retrying := false, current := 0,
                  retryDue := none, retryLeft := 0, coolDue := none }

/-- Every channel of the VIN24 domain starts anew, its supply at `cv` (R255). -/
def State.auxRestart (s : State) (cv : Nat) : State :=
  { s with aux := { s.aux with ch := vmap (fun _ x => auxFresh x) s.aux.ch, v24 := cv, gone := decide (cv = 0), failed := false,
                               overSince := none, lastShed := none } }

/-- VIN24 as it is measured. Without it the domain has no power, and every SO pair is off (R494; DESIGN CHOICE, log 158: it is absent where
it measures 0). -/
def State.measureV24 (s : State) (cv : Nat) : State :=
  if cv = 0 then (s.auxRestart 0).allOff else { s with aux := { s.aux with v24 := cv, gone := false } }

/-- The refresh of a tick (R255): every channel is driven. A module whose self-test failed refreshes nothing (R254, R320). -/
def State.auxTick (s : State) (t v24 : Nat) : State :=
  let s := s.measureV24 v24
  if !s.saf.selfTest then s
  else
    let s := { s with aux := { s.aux with holdDue := holdEnd s.aux.holdS t, failed := s.aux.failed && s.pwr.released.isSome } }
    s.forAll 24 fun n s => (s.pullIn t n).driveAux t n

/-- VALVE_PULL_IN_END (R246). -/
def doValvePullInEnd (t : Nat) (n : Fin 24) : State → State :=
  whenLive t fun s =>
    match s.aux.ch[n].pullInDue with
    | some d => if d ≤ t then (s.setAux n fun x => { x with pullInDue := none }).driveAux t n else s
    | none => s

/-! ## Protection (R249 to R252) -/

/-- A trip with code 1, 2 or 3 (R250, R251): the retry wait, or LOCKED at RETRY_MAX. -/
def State.tripAux (s : State) (t : Nat) (n : Fin 24) (code : Nat) : State :=
  let x := s.aux.ch[n]
  let k := if x.retrying then min 7 (x.retries + 1) else x.retries
  if x.retrying && decide (s.aux.retryMax ≤ k) then
    let s := s.setAux n fun x => { auxOff x with fault := 7, retries := k, retrying := false, retryDue := none }
    if s.live then s.log 0x0602 n.val code k else s
  else (s.setAux n fun x => { auxOff x with fault := code, retries := k, retrying := false, retryDue := some (t + ms (100 * s.aux.retryMs)) }).bump 6

/-- Is the channel off until CLEAR: FREEWHEEL or LOCKED (R250)? -/
def auxHeld (x : AuxCh) : Bool := x.fault == 5 || x.fault == 7

/-- The thermal latch is set: off, the retry wait stands still, the counter keeps its value (R251). -/
def State.thermAux (s : State) (t : Nat) (n : Fin 24) : State :=
  (s.setAux n fun x =>
    { auxOff x with fault := if auxHeld x then x.fault else 4, therm := true, retrying := false, coolDue := none,
                    retryLeft := (match x.retryDue with | some d => d - t | none => if x.coolDue.isSome then x.retryLeft else 0), retryDue := none }).bump 6

/-- The latch clears at 135 °C: COOL_MS starts. -/
def State.coolAux (s : State) (t : Nat) (n : Fin 24) : State :=
  (s.setAux n fun x => { x with therm := false, coolDue := some (t + ms (100 * s.aux.coolMs)) }).bump 6

/-- A missing freewheel path: off until CLEAR (R249). -/
def State.freewheelAux (s : State) (n : Fin 24) : State :=
  (s.setAux n fun x => { auxOff x with fault := 5, retrying := false, retryDue := none }).bump 6

/-- Since when a condition holds. -/
def sinceWhen (c : Bool) (t : Nat) (old : Option Nat) : Option Nat := if c then (match old with | some q => some q | none => some t) else none

/-- Has a condition held for longer than `d`? -/
def heldOver (t d : Nat) (since : Option Nat) : Bool := match since with | some q => expired t (q + d) | none => false

/-- The end of a timeout that a condition arms: fixed as the condition begins (R12), none where it does not hold. -/
def dueWhen (c : Bool) (due : Nat) (old : Option Nat) : Option Nat := if c then (match old with | some q => some q | none => some due) else none

/-- One channel's check (R250). A missing freewheel path shows at any switch-off, that of a thermal trip included (R249). -/
def State.protectAux (s : State) (t : Nat) (n : Fin 24) (q : AuxSense) : State :=
  let on := decide (0 < s.aux.ch[n].duty)
  let inrush := t + ms s.aux.tInrush
  let s := s.setAux n fun x =>
    { x with current := q.current, limitDue := dueWhen (on && q.limiting) inrush x.limitDue,
             overSince := sinceWhen (on && decide (2750 < q.current)) t x.overSince, lightSince := sinceWhen (on && decide (q.current < 20)) t x.lightSince }
  let s := if q.swing then s.freewheelAux n else s
  let x := s.aux.ch[n]
  if x.therm then (if q.junction ≤ 135 then s.coolAux t n else s)
  else if 150 ≤ q.junction then s.thermAux t n
  else if q.swing then s
  else if heldOver t 0 x.limitDue then s.tripAux t n 1
  else if heldOver t (secs 1) x.overSince then s.tripAux t n 2
  else
    let light := match x.lightSince with | some d => decide (d + secs 1 ≤ t) | none => false
    if light && x.fault != 6 then (s.setAux n fun x => { x with fault := 6 }).bump 6
    else if !light && x.fault == 6 then (s.setAux n fun x => { x with fault := 0 }).bump 6
    else s

/-- Sum of the channel currents in mA. -/
def State.auxTotal (s : State) : Nat := sumNat (s.aux.ch.toList.map fun x => x.current)

/-- AUX_PROTECTION_CHECK (R250): it runs in the VIN24 domain, with or without the module. -/
def doAuxProtectionCheck (t : Nat) (sense : List AuxSense) : State → State := fun s =>
  let s := s.arrive t
  if s.aux.gone then s
  else
  let s := s.forAll 24 fun n s => match sense[n.val]? with | some q => s.protectAux t n q | none => s
  let overs := decide (30000 < s.auxTotal)
  { s with aux := { s.aux with overSince := sinceWhen overs t s.aux.overSince, lastShed := if overs then s.aux.lastShed else none } }

/-- The channel to shed: PRIO = 0 before PRIO = 1, each in descending number (R252). -/
def State.shedAux (s : State) : Option (Fin 24) :=
  let on := fun (prio : Bool) => (fins 24).reverse.find? fun n => decide (0 < s.aux.ch[n].duty) && s.aux.ch[n].prio == prio
  match on false with | some n => some n | none => on true

/-- AUX_TOTAL_SHED (R252). -/
def doAuxTotalShed (t : Nat) : State → State := fun s =>
  let s := s.arrive t
  let ready := match s.aux.lastShed with | some q => decide (q + ms 10 ≤ t) | none => true
  if heldOver t (ms 100) s.aux.overSince && ready && decide (30000 < s.auxTotal) then
    match s.shedAux with
    | some n => (({ s with aux := { s.aux with lastShed := some t } }).tripAux t n 3).setAux n fun x => { x with current := 0 }
    | none => s
  else s

/-- AUX_RETRY (R251): no retry while the latch is set, and none while the module does not run or its self-test has failed (R254, R320). -/
def doAuxRetry (t : Nat) (n : Fin 24) : State → State :=
  whenLive t fun s =>
    let x := s.aux.ch[n]
    match x.retryDue with
    | some d =>
      if d ≤ t && !x.therm && s.saf.selfTest then
        ((s.setAux n fun x => { x with tripped := false, retrying := true, retryDue := none, fault := 0 }).driveAux t n).bump 6
      else s
    | none => s

/-- AUX_COOL_ELAPSED (R251): the retry wait resumes with what remains of it. -/
def doAuxCoolElapsed (t : Nat) (n : Fin 24) : State → State := fun s =>
  let s := s.arrive t
  match s.aux.ch[n].coolDue with
  | some d => if d ≤ t && !s.aux.ch[n].therm then s.setAux n fun x => { x with coolDue := none, retryDue := if auxHeld x then none else some (t + x.retryLeft), retryLeft := 0 } else s
  | none => s

/-- AUX_RETRY_COUNT_RESET (R251). -/
def doAuxRetryCountReset (t : Nat) (n : Fin 24) : State → State := fun s =>
  let s := s.arrive t
  match s.aux.ch[n].onSince with
  | some q => if q + secs 10 ≤ t then s.setAux n fun x => { x with retries := 0, retrying := false } else s
  | none => s

/-! ## Without the module (R254, R255, R257) -/

/-- The FAIL state of a channel (R255) with VIN24 present: off, on at full duty, or held. -/
def auxFail (t : Nat) (x : AuxCh) : AuxCh :=
  if x.tripped then x else match x.fail with | 0 => applyDuty t 0 x | 1 => applyDuty t 1000 x | _ => x

/-- Every channel goes to its FAIL state. -/
def State.auxFailAll (s : State) (t : Nat) : State :=
  { s with aux := { s.aux with ch := vmap (fun _ x => if s.aux.gone then x else auxFail t x) s.aux.ch, failed := true } }

/-- AUX_HOLD_EXPIRY (R255): HOLD_S without a refresh. -/
def doAuxHoldExpiry (t : Nat) : State → State := fun s =>
  let s := s.arrive t
  if !s.aux.failed && heldOver t 0 s.aux.holdDue then s.auxFailAll t else s

/-- VIN24_RETURN (R255). The supply is again in range where it measures 18 V or more (R421). -/
def doVin24Return (t : Nat) (cv : Nat) : State → State := fun s =>
  let s := s.arrive t
  let s := s.auxRestart cv
  if 1800 ≤ cv then (({ s with pwr := { s.pwr with vin24Low := false } }).bumpIf s.pwr.vin24Low 1).refreshAssume else s

/-- A loop's pump or fan as its channels show it after a reset (R257): the duty in 1/1000 per mille. -/
def State.adoptedDuty (s : State) (mode src : Nat) : Nat :=
  match s.aux.ch.toList.find? fun x => x.mode == mode && x.src == src with | some x => 1000 * x.duty | none => 0

/-- The states of the channels are adopted after a reset (R257). -/
def State.adoptAux (s : State) : State :=
  let s := s.forAll 4 fun l s =>
    let p := s.adoptedDuty 2 l.val
    let f := s.adoptedDuty 3 l.val
    s.setLoop l fun x => { x with pump := decide (0 < p), pumpSince := s.mt, pumpDemand := p, fan := decide (0 < f), fanDemand := f }
  ({ s with aux := { s.aux with adopted := true } }).bumpIf (!s.aux.adopted) 6

/-! ## AUX registers (R258) -/

/-- Address of AUX.CHn_CMD. -/
def auxCmdAddr (n : Fin 24) : Nat := 0x00508004 + 0x10 * n.val

/-- The effect of CLEAR (R250, R258): a FREEWHEEL or LOCKED channel is released, but for the thermal latch and its COOL_MS, which it still
waits out (R251); an on-time that is a retry stays one. -/
def State.clearAux (s : State) (n : Fin 24) : State :=
  let held := auxHeld s.aux.ch[n]
  (s.setAux n fun x =>
    let waits := x.therm || x.coolDue.isSome
    { x with retries := 0, retrying := x.retrying && !held, fault := if held then (if waits then 4 else 0) else x.fault,
             tripped := if held then waits else x.tripped }).bumpIf held 6

/-- The effect of a write of AUX.CHn_CMD. -/
def State.writeAuxCmd (s : State) (n : Fin 24) (clear : Bool) (demand : Nat) : State :=
  let s := s.setAux n fun x => { x with demand }
  if clear then s.clearAux n else s

/-- AUX_CLEAR (R250, R258): a write of AUX.CHn_CMD with CLEAR = 1 and its DEMAND. -/
def doAuxClear (t : Nat) (m : Master) (n : Fin 24) (demand : Nat) : State → State :=
  whenLive t fun s =>
    s.command m (auxCmdAddr n) (firstOf (foreign s m) (firstOf (refuseIf (decide (1000 < demand)) (deny .range)) (pfwRefusal s))) fun s => s.writeAuxCmd n true demand

/-- Channels with PWM_F = 3. -/
def State.count20k (s : State) : Nat := (s.aux.ch.toList.filter fun x => x.pwmF == 3).length

/-- AUX.CHn_CFG. -/
def auxCfgWord (x : AuxCh) : Nat :=
  x.mode + x.src * 2 ^ 4 + x.level * 2 ^ 8 + x.vNom * 2 ^ 16 + x.pwmF * 2 ^ 26 + x.fail * 2 ^ 28 + b2n x.prio * 2 ^ 30 + b2n x.mirror * 2 ^ 31

/-- AUX.CHn_STAT. -/
def auxStatWord (x : AuxCh) : Nat :=
  min 0xFFF (someRound 20 x.current 2).toNat + x.duty * 2 ^ 12 + x.retries * 2 ^ 24 + b2n x.therm * 2 ^ 27 + x.fault * 2 ^ 28

/-- A read of AUX at an offset of the block. -/
def auxRead (s : State) (off : Nat) : Option Nat :=
  if off < 0x180 then
    (fin? 24 (off / 16)).bind fun n =>
      match off % 16 with
      | 0 => some (auxCfgWord s.aux.ch[n])
      | 4 => some s.aux.ch[n].demand
      | 8 => some (auxStatWord s.aux.ch[n])
      | _ => none
  else
    match off with
    | 0x200 => some (s.aux.coolMs + s.aux.retryMax * 2 ^ 12 + s.aux.retryMs * 2 ^ 16 + s.aux.tInrush * 2 ^ 24)
    | 0x204 => some (s.aux.holdS * 2 ^ 16)
    | 0x208 => some (min 0xFFF s.aux.v24 + b2n s.aux.adopted * 2 ^ 13 + s.count20k * 2 ^ 16 + min 0xFFF (someRound 21 s.auxTotal 10).toNat * 2 ^ 20)
    | _ => none

/-- Are the fields of AUX.CHn_CFG in their ranges? -/
def auxCfgOk (v : Nat) : Bool :=
  let mode := bits v 0 4
  let src := bits v 4 4
  decide (mode ≤ 5 ∧ bits v 28 2 ≠ 3 ∧ 12 ≤ bits v 16 8 ∧ bits v 16 8 ≤ 32 ∧ 10 ≤ bits v 8 8 ∧ bits v 8 8 ≤ 100) &&
  (if mode = 2 ∨ mode = 3 then decide (src ≤ 3) else decide (src ≤ 11))

/-- A write of AUX at an offset of the block. -/
def auxWrite (s : State) (off v : Nat) : Option RegEffect :=
  if off < 0x180 then
    (fin? 24 (off / 16)).bind fun n =>
      match off % 16 with
      | 0 =>
        let ninth := bits v 26 2 == 3 && s.aux.ch[n].pwmF != 3 && decide (8 ≤ s.count20k)
        some (firstOf (refuseIf (!auxCfgOk v) (deny .range)) (refuseIf ninth (deny .state)), fun s => s.setAux n fun x =>
          { x with mode := bits v 0 4, src := bits v 4 4, level := bits v 8 8, vNom := bits v 16 8, pwmF := bits v 26 2, fail := bits v 28 2,
                   prio := v.testBit 30, mirror := v.testBit 31 })
      | 4 => some (inRange (decide (bits v 0 10 ≤ 1000)) fun s => s.writeAuxCmd n (v.testBit 31) (bits v 0 10))
      | 8 => some roWord
      | _ => none
  else
    match off with
    | 0x200 =>
      some (inRange (decide (1 ≤ bits v 24 8 ∧ bits v 24 8 ≤ 100 ∧ 1 ≤ bits v 16 8 ∧ 1 ≤ bits v 12 4 ∧ bits v 12 4 ≤ 7 ∧ 1 ≤ bits v 0 12)) fun s =>
        { s with aux := { s.aux with tInrush := bits v 24 8, retryMs := bits v 16 8, retryMax := bits v 12 4, coolMs := bits v 0 12 } })
    | 0x204 => some (none, fun s => { s with aux := { s.aux with holdS := bits v 16 16 } })
    | 0x208 => some roWord
    | _ => none

/-! ## Meanings -/

/-- Meaning of VALVE_PULL_IN_END (R246). -/
def execValvePullInEnd (t : Nat) (ch : Fin 24) (s : State) : Host.Outcome State Fault Refusal :=
  .next (doValvePullInEnd t ch s)

/-- Meaning of AUX_PROTECTION_CHECK (R250). -/
def execAuxProtectionCheck (t : Nat) (sense : List AuxSense) (s : State) : Host.Outcome State Fault Refusal :=
  .next (doAuxProtectionCheck t sense s)

/-- Meaning of AUX_RETRY (R251). -/
def execAuxRetry (t : Nat) (ch : Fin 24) (s : State) : Host.Outcome State Fault Refusal :=
  .next (doAuxRetry t ch s)

/-- Meaning of AUX_COOL_ELAPSED (R251). -/
def execAuxCoolElapsed (t : Nat) (ch : Fin 24) (s : State) : Host.Outcome State Fault Refusal :=
  .next (doAuxCoolElapsed t ch s)

/-- Meaning of AUX_RETRY_COUNT_RESET (R251). -/
def execAuxRetryCountReset (t : Nat) (ch : Fin 24) (s : State) : Host.Outcome State Fault Refusal :=
  .next (doAuxRetryCountReset t ch s)

/-- Meaning of AUX_TOTAL_SHED (R252). -/
def execAuxTotalShed (t : Nat) (s : State) : Host.Outcome State Fault Refusal :=
  .next (doAuxTotalShed t s)

/-- Meaning of AUX_HOLD_EXPIRY (R255). -/
def execAuxHoldExpiry (t : Nat) (s : State) : Host.Outcome State Fault Refusal :=
  .next (doAuxHoldExpiry t s)

/-- Meaning of VIN24_RETURN (R255). -/
def execVin24Return (t : Nat) (cv : Nat) (s : State) : Host.Outcome State Fault Refusal :=
  .next (doVin24Return t cv s)

/-- Meaning of AUX_CLEAR (R250). -/
def execAuxClear (t : Nat) (m : Master) (ch : Fin 24) (demand : Nat) (s : State) : Host.Outcome State Fault Refusal :=
  .next (doAuxClear t m ch demand s)

end Sys2Proof.Machine
end

