-- ==== Sys2Proof/Machine/Metrology.lean ====
section
/-! DEFINITION. The metrology partition: calibration sets and the seal (R263 to R269), samples and tallies (R270 to R283),
calibration blocks and AC flags (R274, R276), tick commits (R284), receipts (R288 to R292), checkpoints (R293, R294), the
MET registers (R285 to R287, R295). -/
namespace Sys2Proof.Machine

/-! ## Arithmetic -/

/-- A quotient rounded to nearest with ties to even (R272, R275). -/
def rneDiv (num : Int) (den : Nat) : Int :=
  let q := num / (den : Int)
  let r := 2 * (num % (den : Int))
  if r > den ∨ (r = den ∧ q % 2 = 1) then q + 1 else q

/-- The square root of a fraction rounded to nearest with ties to even. -/
def rneSqrt (num den : Nat) : Nat :=
  let m := isqrt (4 * num / den)
  if m % 2 = 1 ∧ m * m * den = 4 * num then (if (m / 2) % 2 = 0 then m / 2 else m / 2 + 1) else (m + 1) / 2

/-- The square root of a fraction to a free rounding. -/
def someSqrt (place num den : Nat) : Nat :=
  let r := isqrt (num / den)
  if r * r * den = num then r else if Config.roundsUp place num den then r + 1 else r

/-! ## Calibration sets (R268, R269) -/

/-- A record of the set. -/
def calRec (b : Bytes) (c : Nat) : Bytes := slice b (64 + 16 * c) 16

/-- Map record of a channel. -/
def mapRec (b : Bytes) (c : Nat) : Bytes := slice b (576 + 16 * c) 16

/-- The fields of a calibration set. -/
def calSetOf (b : Bytes) : CalSet :=
  { wiring := u8 b 5, fNom := u8 b 6, calId := u32 b 8, uNom := u32 b 12, sNl := u32 b 16, intervalS := u32 b 20, vLive := u16 b 24,
    neutralPct := u8 b 26, iNl := (List.range 12).map fun i => u16 b (28 + 2 * i),
    offsets := (List.range 32).map fun c => signedOf 32 (u32 (calRec b c) 0),
    gains := (List.range 32).map fun c => u32 (calRec b c) 4,
    delays := (List.range 32).map fun c => i16 (calRec b c) 8,
    map := (List.range 32).map fun c => meterRecOf (mapRec b c),
    mapBytes := slice b 576 512 }

/-- Is the channel in use by the set? -/
def chanUsed (c : CalSet) (n : Nat) : Bool := match c.map[n]? with | some m => m.flags.testBit 0 | none => false

/-- Is the bay in use by the set? -/
def metBay (c : CalSet) (b : Fin 12) : Bool := chanUsed c (8 + 2 * b.val)

/-- Are the reserved bytes zero? -/
def calReserved (b : Bytes) : Bool :=
  zeros b 7 1 && zeros b 27 1 && zeros b 52 12 && (List.range 32).all fun c => zeros (calRec b c) 10 6 && zeros (mapRec b c) 8 8 && decide (u8 (mapRec b c) 3 ≤ 1)

/-- Are the fields in their ranges? -/
def calRanges (c : CalSet) : Bool :=
  decide (50000 ≤ c.uNom ∧ c.uNom ≤ 500000 ∧ 1 ≤ c.sNl ∧ c.sNl ≤ 1000000 ∧ 60 ≤ c.intervalS ∧ 3600 % c.intervalS = 0 ∧
    20 ≤ c.vLive ∧ c.vLive ≤ 1000 ∧ 1 ≤ c.neutralPct ∧ c.neutralPct ≤ 50) &&
  c.iNl.all (fun x => decide (1 ≤ x)) && c.gains.all (fun g => decide (2 ^ 29 ≤ g ∧ g ≤ 2 ^ 31)) && c.delays.all (fun d => decide (-1024 ≤ d ∧ d ≤ 1024))

/-- Does the map follow the pins, with both channels of a bay or none? -/
def calMap (c : CalSet) : Bool :=
  (List.range 32).all (fun n => match c.map[n]? with | some m => m.channel == n && (m.quantity, m.index) == meterPin n | none => false) &&
  (List.range 12).all fun b => chanUsed c (8 + 2 * b) == chanUsed c (9 + 2 * b)

/-- The wiring check. -/
def calWiring (c : CalSet) : Bool := [0, 1, 2, 4, 5, 6].all (chanUsed c) && (c.wiring != 0 || chanUsed c 3)

/-- The code a set is refused with, 0 where it is accepted (R269): what tells the request first, then the table's order. -/
def calRefusal (sealSt : Seal) (signerOk : Bool) (b : Bytes) : Nat :=
  let req := u8 b 4
  let c := calSetOf b
  if !signerOk then 6
  else if u32 b 0 ≠ 0x4C41435A ∨ req > 2 then 2
  else if (req < 2 ∧ sealSt = .sealed) ∨ (req = 2 ∧ sealSt ≠ .sealed) then 1
  else if req = 2 then 0
  else if c.wiring > 1 ∨ (c.fNom ≠ 50 ∧ c.fNom ≠ 60) ∨ !calReserved b then 2
  else if !calRanges c then 3
  else if !calMap c then 4
  else if !calWiring c then 5
  else 0

/-- A new receipt key pair, generated in the slot (R263, R290): its private half is a free value, held as a share (R435). -/
def State.newReceiptKey (s : State) : State :=
  let r := s.drawBytes 32
  { r.2 with met := { r.2.met with key := some (masked 6 s.vault.rounds r.1), keyGen := r.2.met.keyGen + 1, prevHash := List.replicate 8 0 } }

/-- Number of a seal state. -/
def sealCode : Seal → Nat | .blank => 0 | .opened => 1 | .sealed => 2

/-- A calibration set reaches the partition (R263, R267). -/
def State.takeCalSet (s : State) (signerOk : Bool) (b : Bytes) : State :=
  let code := calRefusal s.met.sealSt signerOk b
  let s := { s with met := { s.met with calErr := code } }
  if code ≠ 0 then s.log 0x0702 0xFF code (u32 b 8)
  else
    let req := u8 b 4
    let s := if req ≠ 0 ∨ s.met.sealSt = .blank then s.newReceiptKey else s
    let s := { s with met := { s.met with sealSt := if req = 1 then .sealed else .opened, sealCount := if req = 1 then s.met.sealCount + 1 else s.met.sealCount } }
    let next := if req = 2 then (match s.met.nextSet with | some (c, _) => some c | none => s.met.set) else some (calSetOf b)
    let s := { s with met := { s.met with nextSet := next.map fun c => (c, (s.mt / 1000000 + 1) * 1000000) } }
    s.log 0x0701 0xFF (u32 b 8) (sealCode s.met.sealSt)

/-! ## Receipts (R288 to R292) -/

/-- Kind `i` of receipts changed. -/
def State.setKind (s : State) (i : Fin 13) (f : RcptKind → RcptKind) : State := { s with met := { s.met with kinds := vupd s.met.kinds i f } }

/-- Kind 1 + b of a bay. -/
def bayKind (b : Fin 12) : Fin 13 := finMod 13 (b.val + 1)

/-- Tallies of a kind of receipt: 0 to 7 for AC, E_IMP and E_EXP of a bay. -/
def kindTallies (i : Fin 13) (q : TallySnap) : List Nat :=
  let g := fun k => q.tally[finMod 32 k]
  if i.val = 0 then (List.range 8).map g else [g (6 + 2 * i.val), g (7 + 2 * i.val), 0, 0, 0, 0, 0, 0]

/-- FLAGS of a receipt (R265, R289). -/
def rcptFlags (s : State) (i : Fin 13) (faults : Nat) : Nat :=
  let k := s.met.kinds[i]
  let opened := s.met.sealSt == .opened
  b2n (!s.fuses.mb || opened) + b2n (s.fuses.mb && opened) * 2 + b2n k.gap * 4 + b2n k.restart * 8 + b2n (decide (0 < faults)) * 16 +
  (if i.val = 0 then k.flags else 0)

/-- T_START of the next receipt of a kind (R288). -/
def State.rcptStart (s : State) (i : Fin 13) : Nat :=
  match s.met.kinds[i].tStart with
  | some t => t
  | none => match s.met.bootRep with | some r => r - 125000 | none => 0

/-- A receipt without its signature (R289). -/
def rcptBody (s : State) (i : Fin 13) (cause : Nat) (q : TallySnap) (calId : Nat) : Bytes :=
  let k := s.met.kinds[i]
  let faults := (q.faults[i] - k.faultBase) % 2 ^ 32
  leBytes 4 0x5043525A ++ [1, if i.val = 0 then 1 else 2, if i.val = 0 then 0xFF else byte (i.val - 1), byte cause] ++
  leBytes 2 (rcptFlags s i faults) ++ [0, 0] ++ leBytes 4 (s.met.seq + 1) ++ leBytes 4 s.met.bootCount ++ leBytes 4 s.met.sealCount ++
  leBytes 8 (s.rcptStart i) ++ leBytes 8 q.at_ ++ leBytes 8 s.fuses.deviceId ++ slice s.met.fwId 0 8 ++ leBytes 4 calId ++
  leBytes 4 s.met.keyGen ++ slice s.met.prevHash 0 8 ++ leBytes 4 faults ++ [0, 0, 0, 0] ++ (kindTallies i q).flatMap (leBytes 8)

/-- A receipt that comes due while the queue holds 256, or in the debug view, is not issued (R292, R439). -/
def State.withholdReceipt (s : State) (i : Fin 13) : State :=
  (s.setKind i fun k => { k with gap := true, withheld := true }).log 0x0704 (if i.val = 0 then 0xFF else i.val - 1) (if i.val = 0 then 1 else 2) (s.met.seq + 1)

/-- The receipt of a kind at a snapshot is signed and queued (R288 to R290). -/
def State.issueReceipt (s : State) (i : Fin 13) (cause : Nat) (q : TallySnap) : State :=
  match s.met.set, s.receiptKey with
  | some c, some key =>
    if s.vault.debug || decide (256 ≤ s.met.queue.length) then s.withholdReceipt i
    else
      let body := rcptBody s i cause q c.calId
      let bytes := body ++ slice (Config.signP256 key body) 0 64
      let t := kindTallies i q
      let s := { s with met := { s.met with seq := s.met.seq + 1, prevHash := (sha256 bytes).take 8, queue := s.met.queue ++ [({ seq := s.met.seq + 1, bytes } : Receipt)] } }
      s.setKind i fun k => { k with tStart := some q.at_, lastEnd := some q.at_, faultBase := q.faults[i], gap := s.met.ckptLost, withheld := false, restart := false, flags := 0,
                                    tallyImp := t.getD 0 0, tallyExp := t.getD 1 0 }
  | _, _ => s

/-- Flags that stand when an AC interval begins belong to it from its first block on; GAP marks every kind. -/
def State.gapAll (s : State) : State := { s with met := { s.met with kinds := vmap (fun _ k => { k with gap := true }) s.met.kinds } }

/-- Bays in use by the set in force. -/
def State.metBays (s : State) : List (Fin 12) := match s.met.set with | some c => (fins 12).filter (metBay c) | none => []

/-- The cause a bay's receipt is due with at an interval boundary: a changed tally, or a day since the previous one (R288). -/
def State.bayCause (s : State) (b : Fin 12) (q : TallySnap) : Option Nat :=
  let i := bayKind b
  let k := s.met.kinds[i]
  let t := kindTallies i q
  if t.getD 0 0 ≠ k.tallyImp ∨ t.getD 1 0 ≠ k.tallyExp then some 1
  else if k.lastEnd.getD (s.rcptStart i) + 86400000000000 ≤ q.at_ then some 3
  else none

/-- A bay is dead, with its receipt of cause 2 (R279, R288). -/
def State.closeDead (s : State) (b : Fin 12) (q : TallySnap) : State :=
  let s := { s with met := { s.met with live := vupd s.met.live b fun _ => false, deadSnap := vupd s.met.deadSnap b fun _ => none } }
  (s.issueReceipt (bayKind b) 2 q).bump 7

/-- The bays whose dead time lies before a time, so that their receipts come first. -/
def State.closeDeadBefore (s : State) (t : Nat) : State :=
  s.metBays.foldl (fun s b => match s.met.deadSnap[b] with | some q => if q.at_ < t then s.closeDead b q else s | none => s) s

/-- The receipts of an interval boundary: AC, then bays in ascending number. -/
def State.boundaryReceipts (s : State) (q : TallySnap) : State :=
  let s := ({ s with met := { s.met with boundary := s.met.boundary.drop 1 } }).closeDeadBefore q.at_
  let s := s.issueReceipt 0 1 q
  s.metBays.foldl (fun s b => match s.bayCause b q with | some c => s.issueReceipt (bayKind b) c q | none => s) s

/-- The tallies as they stand now, as a snapshot at a time. -/
def State.tallyNow (s : State) (t : Nat) : TallySnap := { at_ := t, tally := s.met.tally, residue := s.met.residue, faults := s.met.faults }

/-- The receipts of every boundary passed at or before a time (R288). -/
def State.passedReceipts (s : State) (t : Nat) : State :=
  (s.met.boundary.filter fun q => decide (q.at_ ≤ t)).foldl (fun s q => s.boundaryReceipts q) s

/-- A bay whose dead time is `t` is closed there. -/
def State.closeDeadAt (s : State) (t : Nat) (b : Fin 12) : State :=
  match s.met.deadSnap[b] with | some q => if q.at_ = t then s.closeDead b q else s | none => s

/-- The receipts under the old set close with cause 4 at a snapshot (R267): those of dead times before it come first, then AC, then the bays
in ascending number (R288). -/
def State.closeSet (s : State) (q : TallySnap) : State :=
  s.metBays.foldl (fun (s : State) b => (s.issueReceipt (bayKind b) 4 q).closeDeadAt q.at_ b) ((s.closeDeadBefore q.at_).issueReceipt 0 4 q)

/-- An accepted set takes effect (R267): the receipts of boundaries passed are issued, then those under the old set close. -/
def State.calEffect (s : State) : State :=
  match s.met.nextSet with
  | none => s
  | some (c, _) =>
    let s := match s.met.lastRep with | some r => s.passedReceipts r | none => s
    let s := match s.met.set, s.met.lastRep with
      | some _, some r => s.closeSet (s.tallyNow r)
      | _, _ => s
    { s with met := { s.met with set := some c, nextSet := none } }

/-! ## Samples (R270 to R273, R275, R278 to R283) -/

/-- Does the partition take samples: powered, clocked and not resetting (R262)? -/
def State.metRuns (s : State) : Bool := (s.pwr.st == .ready || s.pwr.st == .run) && s.clk.refOk && s.met.running

/-- The calibrated value of a channel in mV or mA (R272). -/
def calibrated (c : CalSet) (codes : List Int) (n : Nat) : Int :=
  if chanUsed c n then
    rneDiv ((wd codes n - wd c.offsets n) * c.gains.getD n 0 * (match c.map[n]? with | some m => m.fullScale | none => 0 : Nat)) (2 ^ 53)
  else 0

/-- Running sums: one integrator of a sinc filter. -/
def integrate (sum : Int) : List Int → List Int
  | [] => []
  | x :: r => (sum + x) :: integrate (sum + x) r

/-- Differences over `n` items: one comb of a sinc filter. -/
def comb (n : Nat) (xs : List Int) : List Int := List.zipWith (· - ·) xs (List.replicate n 0 ++ xs)

/-- Every 512th item, up to the last. -/
def decimate (xs : List Int) : List Int := (List.range (xs.length / 512)).map fun i => wd xs (xs.length - 512 * (xs.length / 512) + 512 * i + 511)

/-- The third-order sinc filter of R270 on a modulator's bits at 4.096 MHz, ±1 each, oldest first, decimated by 512 to 8 kSa/s: newest first,
±2^27 full scale. -/
def sinc3 (stream : List Bool) : List Int :=
  let xs : List Int := stream.map fun b => if b then 1 else -1
  (decimate (comb 512 (comb 512 (comb 512 (integrate 0 (integrate 0 (integrate 0 xs))))))).reverse

/-- The 24-bit code of a modulator's bits (R270). -/
def filteredCode (stream : List Bool) : Int := clampInt (-(2 ^ 23)) (2 ^ 23 - 1) (Config.compensate (sinc3 stream))

/-- A sample with the codes of the channels that are given by the bits of their modulators (R270; DESIGN CHOICE, log 134: a channel is given by
its bits or by its code). -/
def filterSample (x : MetSample) : MetSample :=
  if x.streams.isEmpty then x
  else { x with codes := (List.range 32).map fun n => (match x.streams[n]? with | some b => filteredCode b | none => wd x.codes n), streams := [] }

/-- Full scale is ±2^23: a code of 24 bits, signed (R270). -/
def codeOk (x : Int) : Bool := decide (-(2 ^ 23) ≤ x ∧ x < 2 ^ 23)

/-- Does the code of a channel overrange: at full scale, or without a transition of its modulator (R273)? -/
def codeOver (x : MetSample) (n : Nat) : Bool := wd x.codes n == -(2 ^ 23) || wd x.codes n == 2 ^ 23 - 1 || x.stuck.getD n false

/-- Delay of a channel behind its newest code in 1/256 sample: the common 4 samples and its own DELAY (R271). -/
def delaySteps (c : CalSet) (n : Nat) : Nat := ((1024 : Int) + wd c.delays n).toNat

/-- Samples of history the delay of a channel needs. -/
def delayReach (c : CalSet) (n : Nat) : Nat := delaySteps c n / 256 + (if delaySteps c n % 256 = 0 then 1 else 2)

/-- Is enough of the codes there for every channel in use, and for the common delay? -/
def delaysMet (c : CalSet) (raw : List MetSample) : Bool := (List.range 32).all fun n => !chanUsed c n || decide (delayReach c n ≤ raw.length)

/-- The codes of one channel, newest first. -/
def chanCodes (raw : List MetSample) (n : Nat) : List Int := raw.map fun x => wd x.codes n

/-- The code of a channel with its delays applied (R271). DEDUCED (log 133): a whole number of samples picks the code itself; the
interpolator between codes is a free function. -/
def delayedCode (c : CalSet) (raw : List MetSample) (n : Nat) : Int :=
  let d := delaySteps c n
  if d % 256 = 0 then wd (chanCodes raw n) (d / 256) else Config.interpolate d (chanCodes raw n)

/-- The codes of every channel with the delays applied. -/
def delayedCodes (c : CalSet) (raw : List MetSample) : List Int := (List.range 32).map fun n => delayedCode c raw n

/-- Does a channel in use overrange in the sample its delayed code stands for (R273)? Between two codes either counts. -/
def overranged (c : CalSet) (raw : List MetSample) (n : Nat) : Bool :=
  chanUsed c n && ((raw.take (delayReach c n)).drop (delaySteps c n / 256)).any fun x => codeOver x n

/-- p_b of a bay in mW from BV_b in mV and BI_b in mA (R278); the rounding is not stated and is free. -/
def bayPower (bv bi : Int) : Int := someRound 30 (bv * bi) 1000

/-- Three times the phase voltages u_1 to u_3 (R275). -/
def triple (c : CalSet) (y : Nat → Int) (k : Nat) : Int :=
  if c.wiring = 0 then 3 * (y k - y 3) else 3 * y k - (y 0 + y 1 + y 2)

/-- p in mW, q in mvar and s in mVA of a sample, each rounded once (R275). -/
def acValues (c : CalSet) (y : Nat → Int) : Int × Int × Nat :=
  let p3 := triple c y 0 * y 4 + triple c y 1 * y 5 + triple c y 2 * y 6
  let n := (y 1 - y 2) * y 4 + (y 2 - y 0) * y 5 + (y 0 - y 1) * y 6
  let q : Int := rneSqrt (n.natAbs * n.natAbs) 3000000
  (rneDiv p3 3000, if n < 0 then -q else q, rneSqrt (p3.natAbs * p3.natAbs + 3 * n.natAbs * n.natAbs) 9000000)

/-- One tally with its residue raised (R282). -/
def addTally (x : Vector Nat 32 × Vector Nat 32) (k e : Nat) : Vector Nat 32 × Vector Nat 32 :=
  let i : Fin 32 := finMod 32 k
  let r := x.2[i] + e
  (vupd x.1 i fun n => (n + r / 28800000) % 2 ^ 64, vupd x.2 i fun _ => r % 28800000)

/-- Index of the quadrant of p and q (R280). -/
def quadrant (p q : Int) : Nat := if 0 ≤ p then (if 0 ≤ q then 2 else 5) else if 0 ≤ q then 3 else 4

/-- The AC tallies after a sample (R281, R282). -/
def tallyAc (c : CalSet) (v : Int × Int × Nat) (x : Vector Nat 32 × Vector Nat 32) : Vector Nat 32 × Vector Nat 32 :=
  if v.2.2 < c.sNl * 1000 then x
  else
    let x := if 0 ≤ v.1 then addTally (addTally x 0 v.1.natAbs) 6 v.2.2 else addTally (addTally x 1 v.1.natAbs) 7 v.2.2
    addTally x (quadrant v.1 v.2.1) v.2.1.natAbs

/-- A bay's tallies after a sample. -/
def tallyBay (c : CalSet) (b : Nat) (i p : Int) (x : Vector Nat 32 × Vector Nat 32) : Vector Nat 32 × Vector Nat 32 :=
  if i.natAbs < c.iNl.getD b 0 then x else addTally x (if 0 ≤ p then 8 + 2 * b else 9 + 2 * b) p.natAbs

/-- Overranged samples by kind of receipt after a sample (R273); MI_N enters no receipt's figures, MV_N only four-wire ones. -/
def countFaults (c : CalSet) (overs : Nat → Bool) (f : Vector Nat 13) : Vector Nat 13 :=
  vmap (fun i n =>
    let hit := if i.val = 0 then overs 0 || overs 1 || overs 2 || (c.wiring == 0 && overs 3) || overs 4 || overs 5 || overs 6
      else overs (6 + 2 * i.val) || overs (7 + 2 * i.val)
    n + b2n hit) f

/-- The sample is computed and tallied under the set in force. -/
def State.computeSample (s : State) (c : CalSet) (rep : Nat) (codes : List Int) (ovr : Nat → Bool) : State :=
  let y := fun n => calibrated c codes n
  let v := acValues c y
  let bv := (List.range 12).map fun b => y (8 + 2 * b)
  let bi := (List.range 12).map fun b => y (9 + 2 * b)
  let bp := (List.range 12).map fun b => bayPower (y (8 + 2 * b)) (y (9 + 2 * b))
  let used := s.metBays.map fun b => b.val
  let t0 := (s.met.tally, s.met.residue)
  let t := if s.met.tallying then used.foldl (fun a b => tallyBay c b (wd bi b) (wd bp b) a) (tallyAc c v t0) else t0
  let faults := countFaults c ovr s.met.faults
  let m : Computed :=
    { rep, p := v.1, q := v.2.1, s := v.2.2, bayV := bv, bayI := bi, bayP := bp, overs := (List.range 32).map ovr,
      snap := { at_ := rep, tally := t.1, residue := t.2, faults } }
  { s with met := { s.met with tally := t.1, residue := t.2, faults, recent := (m :: s.met.recent).take 24 } }

/-- The interval boundaries that lie between the previous sample and one of `rep`, as many as a loss of the reference has left without a
sample (R262, R288). -/
def passedBoundaries (d : Nat) (last : Option Nat) (rep : Nat) : List Nat :=
  match last with
  | some l => (List.range ((rep - 1) / d - l / d)).map fun k => (l / d + 1 + k) * d
  | none => []

/-- The interval boundaries that a sample passes, and the one it lies at: their tallies are kept for the receipts (R283). -/
def State.crossBoundary (s : State) (c : CalSet) (last : Option Nat) (rep : Nat) (before : TallySnap) : State :=
  let d := secs c.intervalS
  let passed := (passedBoundaries d last rep).map fun b => { before with at_ := b }
  let reached := if rep % d = 0 then [s.tallyNow rep] else []
  { s with met := { s.met with boundary := s.met.boundary ++ passed ++ reached } }

/-- The codes so far with a newer sample, newest first: codes of before a gap in the samples are of no use (R271). -/
def rawWith (m : Metrology) (rep : Nat) (x : MetSample) : List MetSample :=
  (x :: (if m.rawRep = some (rep - 125000) ∧ 125000 ≤ rep then m.raw else [])).take 24

/-- The newest codes are taken. -/
def State.takeRaw (s : State) (rep : Nat) (x : MetSample) : State :=
  { s with met := { s.met with raw := rawWith s.met rep x, rawRep := some rep } }

/-- A sample of represented time `rep` reaches the computations, under the set that applies to it (R267, R271). -/
def State.metSample (s : State) (rep : Nat) : State :=
  let s := match s.met.nextSet with | some (_, q) => if q < rep then s.calEffect else s | none => s
  let s := match s.met.resumeAt with
    | some q => if q < rep then { s with met := { s.met with tallying := true, resumeAt := none } } else s
    | none => s
  let last := s.met.lastRep
  let before := s.tallyNow rep
  let raw := s.met.raw
  let plain := match raw[4]? with | some x => x.codes | none => []
  let codes := match s.met.set with | some c => delayedCodes c raw | none => plain
  let s := { s with met := { s.met with block := ((rep, plain, codes) :: s.met.block).take 1600, lastRep := some rep,
                                        bootRep := match s.met.bootRep with | some r => some r | none => some rep } }
  match s.met.set with
  | some c => (s.computeSample c rep codes (overranged c raw)).crossBoundary c last rep before
  | none => s

/-- Is the history long enough for a sample: four samples of common delay, and the delays of the set (R271)? -/
def State.sampleReady (s : State) : Bool := decide (5 ≤ s.met.raw.length) && (match s.met.set with | some c => delaysMet c s.met.raw | none => true)

/-- METROLOGY_SAMPLE (R270, R271, R282): the newest codes, and the time `rep` that the sample computed with them represents: a multiple of
125 µs that rises, 4 samples before the newest code, and at most 700 µs ago. The codes leave the
filters of R270. -/
def doMetrologySample (t rep : Nat) (x : MetSample) : State → State := fun s =>
  let s := s.arrive t
  if s.metRuns && rep % 125000 == 0 && decide (rep + 500000 ≤ t ∧ t ≤ rep + 700000) && (filterSample x).codes.all codeOk &&
      (match s.met.rawRep with | some l => decide (l < rep) | none => true) then
    let s := s.takeRaw rep (filterSample x)
    if s.sampleReady then s.metSample rep else s
  else s

/-- CAL_SET_EFFECT (R267): the samples up to the tick start are in. -/
def doCalSetEffect (t : Nat) : State → State := fun s =>
  let s := s.arrive t
  match s.met.nextSet with
  | some (_, q) => if s.metRuns && decide (q < t) && (match s.met.lastRep with | some l => decide (q ≤ l) | none => true) then s.calEffect else s
  | none => s

/-- RECEIPT_ISSUE (R288): the receipts of the oldest boundary that is due. -/
def doReceiptIssue (t : Nat) : State → State := fun s =>
  let s := s.arrive t
  match s.met.boundary with
  | q :: _ => if s.metRuns && decide (q.at_ ≤ t) then s.boundaryReceipts q else s
  | [] => s

/-- BAY_DEAD (R279): after 100 ticks below half of V_LIVE the bay is dead, with a receipt of cause 2, after those of boundaries up to its
instant (R288). -/
def doBayDead (t : Nat) (b : Fin 12) : State → State := fun s =>
  let s := s.arrive t
  match s.met.deadSnap[b] with
  | some q =>
    if s.metRuns && s.met.live[b] then
      let s := s.passedReceipts q.at_
      if s.met.live[b] then s.closeDead b q else s
    else s
  | none => s

/-! ## The calibration block (R274, R276, R277) -/

/-- Sum of the squares of a list. -/
def sumSq (xs : List Int) : Nat := sumNat (xs.map fun x => x.natAbs * x.natAbs)

/-- What the rising crossings of a block say so far: awaiting the next crossing, and how often u_2 or u_3 came next. -/
structure Crossings where
  last : Option (Int × Int × Int)
  waiting : Bool
  two : Nat
  three : Nat
  both : Bool

/-- One more sample of u_1 to u_3. -/
def crossStep (x : Crossings) (u : Int × Int × Int) : Crossings :=
  match x.last with
  | none => { x with last := some u }
  | some p =>
    let c1 := decide (p.1 < 0 ∧ 0 ≤ u.1)
    let c2 := decide (p.2.1 < 0 ∧ 0 ≤ u.2.1)
    let c3 := decide (p.2.2 < 0 ∧ 0 ≤ u.2.2)
    let y := if x.waiting && (c2 || c3) then
        { x with waiting := false, two := x.two + b2n (c2 && !c3), three := x.three + b2n (c3 && !c2), both := x.both || (c2 && c3) }
      else x
    { y with last := some u, waiting := y.waiting || c1 }

/-- The crossings of a block, oldest sample first. -/
def crossingsOf (us : List (Int × Int × Int)) : Crossings := us.foldl crossStep ⟨none, false, 0, 0, false⟩

/-- A condition after a block: five consecutive blocks that meet its rule change it (R276). -/
def flagBlock (f : AcFlag) (setRule clearRule : Bool) : AcFlag :=
  let hit := if f.set then clearRule else setRule
  let n := if hit then f.run + 1 else 0
  if 5 ≤ n then { set := !f.set, run := 0 } else { f with run := n }

/-- MET.STAT bits [3:1] as a number. -/
def acBits (s : State) : Nat := b2n s.met.reversed.set + b2n s.met.phaseLoss.set * 2 + b2n s.met.missingNeutral.set * 4

/-- A flag change is recorded with the bits after it. -/
def State.logFlag (s : State) (changed : Bool) : State := if changed then s.log 0x0703 0xFF (acBits s) 0 else s

/-- The AC flags of a block, from the triple voltages and displacement of its samples, oldest first. -/
def State.flagsBlock (s : State) (c : CalSet) (us : List (Int × Int × Int)) (ds : List Int) : State :=
  let n := us.length
  let w := [sumSq (us.map (·.1)), sumSq (us.map (·.2.1)), sumSq (us.map (·.2.2))]
  let u2 := 9 * n * c.uNom * c.uNom
  let x := crossingsOf us
  let lost := s.met.phaseLoss.set
  let p := flagBlock s.met.phaseLoss (w.any fun z => decide (4 * z < u2)) (w.all fun z => decide (16 * u2 ≤ 25 * z))
  let r := if lost then { s.met.reversed with run := 0 }
    else flagBlock s.met.reversed (decide (0 < x.three ∧ x.two = 0) && !x.both) (decide (0 < x.two ∧ x.three = 0) && !x.both)
  let dd := sumSq ds
  let pct := c.neutralPct * c.neutralPct * u2
  let m := if c.wiring = 0 then flagBlock s.met.missingNeutral (decide (pct < 10000 * dd)) (decide (40000 * dd ≤ pct)) else s.met.missingNeutral
  let s1 := { s with met := { s.met with phaseLoss := p } }
  let s1 := s1.logFlag (p.set != s.met.phaseLoss.set)
  let s2 := { s1 with met := { s1.met with reversed := r } }
  let s2 := s2.logFlag (r.set != s.met.reversed.set)
  let s3 := { s2 with met := { s2.met with missingNeutral := m } }
  let s3 := s3.logFlag (m.set != s.met.missingNeutral.set)
  let f := b2n r.set * 32 + b2n m.set * 64 + b2n p.set * 128
  s3.setKind 0 fun k => { k with flags := k.flags ||| f }

/-- The AC values of a block. -/
def State.acBlock (s : State) (c : CalSet) (codes : List (List Int)) : State :=
  let ys := codes.map fun cs => fun n => calibrated c cs n
  let us := ys.map fun y => (triple c y 0, triple c y 1, triple c y 2)
  let ds := if c.wiring = 0 then ys.map fun y => 3 * y 3 - (y 0 + y 1 + y 2) else ys.map fun _ => 0
  let n := codes.length
  let rmsU := fun (z : Nat) => someSqrt 32 z (900 * n)
  let rmsI := fun k => someSqrt 33 (sumSq (ys.map fun y => y k)) n
  let u1 := us.map fun u : Int × Int × Int => u.1
  let s := { s with met := { s.met with
    uRms := [rmsU (sumSq u1), rmsU (sumSq (us.map fun u : Int × Int × Int => u.2.1)), rmsU (sumSq (us.map fun u : Int × Int × Int => u.2.2)), rmsU (sumSq ds)],
    iRms := [rmsI 4, rmsI 5, rmsI 6, rmsI 7], acF := Config.lineFrequency u1 } }
  s.flagsBlock c us ds

/-- The calibration statistics of a block (R274), in every seal state: from its codes, and from those with the delays applied. -/
def State.calStats (s : State) (codes late : List (List Int)) : State :=
  let n := codes.length
  let off := fun k => match s.met.set with | some c => wd c.offsets k | none => 0
  { s with met := { s.met with
    calMean := (List.range 32).map fun k => someRound 34 (sumInt (codes.map fun cs => wd cs k)) n,
    calRms := (List.range 32).map fun k => someSqrt 35 (sumSq (codes.map fun cs => wd cs k - off k)) n,
    calPhase := (List.range 3).map fun k => Config.calPhase (late.map fun cs => wd cs 0) (late.map fun cs => wd cs k) (late.map fun cs => wd cs (4 + k)) } }

/-- The conditions' runs are of consecutive blocks (R276). -/
def State.breakRuns (s : State) : State :=
  { s with met := { s.met with reversed := { s.met.reversed with run := 0 }, phaseLoss := { s.met.phaseLoss with run := 0 },
                               missingNeutral := { s.met.missingNeutral with run := 0 } } }

/-- End of the latest 200 ms block that the samples have reached (R274). -/
def State.blockEnd (s : State) : Nat := s.met.lastRep.getD 0 / 200000000 * 200000000

/-- The samples of the block that ends at `e`, oldest first (R274). -/
def State.blockOf (s : State) (e : Nat) : List (Nat × List Int × List Int) :=
  (s.met.block.filter fun x => decide (e < x.1 + 200000000 ∧ x.1 ≤ e)).reverse

/-- The raw codes of a block's samples. -/
def plainCodes (xs : List (Nat × List Int × List Int)) : List (List Int) := xs.map fun x => x.2.1

/-- Their codes with the delays applied. -/
def lateCodes (xs : List (Nat × List Int × List Int)) : List (List Int) := xs.map fun x => x.2.2

/-- The block that ends at `e` is done: the samples after it stay. -/
def State.endBlock (s : State) (e : Nat) : State :=
  { s with met := { s.met with block := s.met.block.filter fun x => decide (e < x.1), blockAt := e } }

/-- CAL_BLOCK (R274, R276): the block of 1 600 samples that ends at a multiple of 200 ms, once. -/
def doCalBlock (t : Nat) : State → State := fun s =>
  let s := s.arrive t
  let e := s.blockEnd
  let xs := s.blockOf e
  if s.metRuns && decide (s.met.blockAt < e) && xs.length == 1600 then
    let s := if s.met.blockAt + ms 200 = e then s else s.breakRuns
    let s := (s.endBlock e).calStats (plainCodes xs) (lateCodes xs)
    match s.met.set with | some c => s.acBlock c (lateCodes xs) | none => s
  else s

/-! ## The tick commit (R284, R279, R287, R293) -/

/-- A mean over a list in a unit `d` times the items', to a free rounding. -/
def meanOf (place : Nat) (xs : List Int) (d : Nat) : Int := if xs.isEmpty then 0 else someRound place (sumInt xs) (xs.length * d)

/-- The values of a commit from the samples of its window (R284). -/
def commitOf (t : Nat) (bays : List (Fin 12)) (cs : List Computed) : MetCommit :=
  let used := bays.map fun b => b.val
  { stamp := t, pImp := meanOf 36 (cs.map (·.p)) 1000, qImp := meanOf 37 (cs.map (·.q)) 1000, s := (meanOf 38 (cs.map fun c => (c.s : Int)) 1000).toNat,
    pBay := meanOf 39 (cs.map fun c => sumInt (used.map fun b => wd c.bayP b)) 1000,
    bayV := (List.range 12).map fun b => if used.contains b then meanOf 40 (cs.map fun c => wd c.bayV b) 10 else 0,
    bayI := (List.range 12).map fun b => if used.contains b then meanOf 41 (cs.map fun c => wd c.bayI b) 1 else 0,
    bayP := (List.range 12).map fun b => if used.contains b then meanOf 42 (cs.map fun c => wd c.bayP b) 1000 else 0,
    overs := (List.range 12).map fun b => cs.any fun c => c.overs.getD (8 + 2 * b) false || c.overs.getD (9 + 2 * b) false }

/-- LIVE of a bay after a tick, from the sum of |BV_b| in mV over its `n` samples (R279). -/
def State.liveTick (s : State) (c : CalSet) (b : Fin 12) (n sum : Nat) (q : TallySnap) : State :=
  if s.met.live[b] then
    let k := if 2 * sum < c.vLive * 1000 * n then s.met.deadTicks[b] + 1 else 0
    let s := { s with met := { s.met with deadTicks := vupd s.met.deadTicks b fun _ => k } }
    if k = 100 then { s with met := { s.met with deadSnap := vupd s.met.deadSnap b fun _ => some q } }
    else if k = 0 then { s with met := { s.met with deadSnap := vupd s.met.deadSnap b fun _ => none } } else s
  else if c.vLive * 1000 * n ≤ sum then
    ({ s with met := { s.met with live := vupd s.met.live b fun _ => true, deadTicks := vupd s.met.deadTicks b fun _ => 0 } }).bump 7
  else s

/-- Low-word carries between two publications of a tally (R287). -/
def carries (old new : Nat) : Nat := new / 2 ^ 32 - old / 2 ^ 32

/-- The tallies are published; carries are counted (R287). -/
def State.publish (s : State) (v : Vector Nat 32) : State :=
  let n := sumNat ((fins 32).map fun k => carries s.met.published[k] v[k])
  let mask := (fins 32).foldl (fun m k => if carries s.met.published[k] v[k] = 0 then m else setBit m k.val) s.met.wrapMask
  { s with met := { s.met with published := v, wrapEpoch := (s.met.wrapEpoch + n) % 2 ^ 32, wrapMask := mask } }

/-- MRAM writes of the metrology partition are charged to its share, what lies above it to the unreserved share (R206). -/
def State.chargeMet (s : State) (n : Nat) : State :=
  { s with mram := { s.mram with metro := s.mram.metro - n, spare := s.mram.spare - (n - s.mram.metro) } }

/-- Has the metrology share of the tick room for `n` bytes, or the unreserved one (R206)? -/
def State.metRoom (s : State) (n : Nat) : Bool := decide (n ≤ s.mram.metro + s.mram.spare)

/-- A checkpoint goes into the older of the pair, with its CRC (R293); it is never held back (R292). DESIGN CHOICE (log 132): it costs
its bytes and four of CRC. -/
def State.writeCheckpoint (s : State) : State :=
  let a := s.met.ckptA
  let b := s.met.ckptB
  let x := Checkpoint.sealed { number := max a.number b.number + 1, tally := s.met.tally, residue := s.met.residue, prevHash := s.met.prevHash, kinds := s.met.kinds }
  let s := s.chargeMet (x.bytes.length + 4)
  if b.valid && (!a.valid || decide (a.number < b.number)) then { s with met := { s.met with ckptA := x } } else { s with met := { s.met with ckptB := x } }

/-- The commit for the tick start `tick`, stamped `t`. -/
def State.metCommit (s : State) (t tick : Nat) (c : CalSet) : State :=
  let cs := s.met.recent.filter fun m => decide (tick < m.rep + ms 2 ∧ m.rep + ms 1 ≤ tick)
  match cs with
  | [] => ({ s with met := { s.met with valid := false } }).bumpIf s.met.valid 7
  | newest :: _ =>
    let m := commitOf t s.metBays cs
    let overs := cs.any fun c => c.overs.any id
    let bo := sumNat ((List.range 12).map fun b => b2n (m.overs.getD b false) * 2 ^ b)
    let changed := !s.met.valid || overs != s.met.overrange || bo != s.met.bayOver
    let s := ({ s with met := { s.met with commit := some m, valid := true, overrange := overs, bayOver := bo } }).bumpIf changed 7
    let q := { newest.snap with at_ := tick - ms 1 }
    let s := s.metBays.foldl (fun s b => s.liveTick c b cs.length (sumNat (cs.map fun m => (wd m.bayV b.val).natAbs)) q) s
    (s.publish newest.snap.tally).writeCheckpoint

/-- METROLOGY_COMMIT (R284): in BLANK nothing is committed (R264). -/
def doMetrologyCommit (t : Nat) : State → State := fun s =>
  let s := s.arrive t
  match s.met.set with
  | some c => if s.metRuns then s.metCommit t ((t / 1000000 + 1) * 1000000) c else s
  | none => s

/-! ## Power and restart (R293, R294, R421) -/

/-- The power-fail warning: tallying stops, the final checkpoint is written (R293). -/
def State.metStop (s : State) : State := ({ s with met := { s.met with tallying := false, resumeAt := none } }).writeCheckpoint

/-- Tallying resumes at the next tick start, with GAP in the next receipts (R421). -/
def State.metResume (s : State) : State :=
  ({ s with met := { s.met with resumeAt := some ((s.mt / 1000000 + 1) * 1000000) } }).gapAll

/-- The newer valid checkpoint. -/
def Metrology.newest (m : Metrology) : Option Checkpoint :=
  if m.ckptA.valid && (!m.ckptB.valid || decide (m.ckptB.number ≤ m.ckptA.number)) then some m.ckptA
  else if m.ckptB.valid then some m.ckptB else none

/-- The partition restarts after a reset of its own (R262, R294). -/
def State.metRestart (s : State) : State :=
  let ck := s.met.newest
  let lost := ck.isNone
  let tally := match ck with | some x => x.tally | none => Vector.replicate 32 0
  let residue := match ck with | some x => x.residue | none => Vector.replicate 32 0
  let kinds := match ck with | some x => x.kinds | none => s.met.kinds
  let boot := s.met.bootCount + 1
  let m := { s.met with
    running := true, tallying := true, resumeAt := none, tally, residue, published := tally, recent := [], block := [], faults := Vector.replicate 13 0,
    raw := [], rawRep := none, blockAt := 0, bootRep := none, lastRep := none, boundary := [], deadSnap := Vector.replicate 12 none, deadTicks := Vector.replicate 12 0,
    live := Vector.replicate 12 false, commit := none, taken := none, valid := false, overrange := false, bayOver := 0,
    prevHash := (match ck with | some x => x.prevHash | none => s.met.prevHash), bootCount := boot, ckptLost := lost,
    kinds := vmap (fun i k => { k with tStart := none, lastEnd := s.met.kinds[i].lastEnd, faultBase := 0, restart := true, flags := 0, gap := k.gap || lost }) kinds,
    reversed := {}, phaseLoss := {}, missingNeutral := {}, calMean := List.replicate 32 0, calRms := List.replicate 32 0,
    calPhase := List.replicate 3 0, acF := 0, uRms := List.replicate 4 0, iRms := List.replicate 4 0 }
  let s := { s with met := m }
  let s := match s.met.nextSet with | some (c, _) => { s with met := { s.met with set := some c, nextSet := none } } | none => s
  if lost then s.log 0x0705 0xFF boot 0 else s

/-! ## The receipt store (R291, R292) -/

/-- A receipt leaves the queue for the store (R291). -/
def State.storeReceipt (s : State) (r : Receipt) (rest : List Receipt) : State :=
  { s with met := { s.met with queue := rest, store := s.met.store ++ [r], head := r.seq } }

/-- RECEIPT_DRAIN (R291): the oldest queued receipt moves into the store where it has room, and MRAM has room this tick (R206). -/
def doReceiptDrain (t : Nat) : State → State :=
  whenLive t fun s =>
    match s.met.queue with
    | r :: rest => if s.met.store.length < 15123 ∧ s.metRoom receiptLen then ((s.chargeMet receiptLen).storeReceipt r rest).bump 7 else s
    | [] => s

/-- The refusal and effect of a write of MET.RCPT_ACK (R291). -/
def ackEffect (s : State) (seq : Nat) : RegEffect :=
  inRange (decide (seq ≤ s.met.head)) fun s => { s with met := { s.met with store := s.met.store.filter fun r => decide (seq < r.seq) } }

/-- RCPT_ACK (R291). -/
def doRcptAck (t : Nat) (m : Master) (seq : Word) : State → State :=
  whenLive t fun s => s.command m 0x00600408 (firstOf (foreign s m) (ackEffect s seq.toNat).1) (ackEffect s seq.toNat).2

/-! ## Reading tallies (R285, R286) -/

/-- The latches of a master's port; the internal masters have no port of the map. -/
def portLatch (s : State) : Master → Option PortLatch
  | .udp => some s.host.latchUdp | .spi => some s.host.latchSpi | .debugPort => some s.host.latchDbg | _ => none

/-- The latches of a master's port changed. -/
def State.setLatch (s : State) (m : Master) (f : PortLatch → PortLatch) : State :=
  match m with
  | .udp => { s with host := { s.host with latchUdp := f s.host.latchUdp } }
  | .spi => { s with host := { s.host with latchSpi := f s.host.latchSpi } }
  | .debugPort => { s with host := { s.host with latchDbg := f s.host.latchDbg } }
  | _ => s

/-- A published tally; a partition in BLANK publishes zeros (R295). -/
def State.shownTally (s : State) (k : Fin 32) : Nat := if s.met.sealSt = .blank then 0 else s.met.published[k]

/-- A read of MET.TLY_LOk: the low word, with the high word latched for the port. -/
def State.readTallyLow (s : State) (m : Master) (k : Fin 32) : Nat × State :=
  let v := s.shownTally k
  (v % 2 ^ 32, s.setLatch m fun l => { l with tally := some (k.val, v / 2 ^ 32) })

/-- A read of MET.TLY_HIk: the latched word, or the present one with STALE. -/
def State.readTallyHigh (s : State) (m : Master) (k : Fin 32) : Nat × Answer :=
  match (portLatch s m).bind fun l => l.tally with
  | some (j, v) => if j = k.val then (v, okAnswer) else (s.shownTally k / 2 ^ 32, ⟨.stale, .none⟩)
  | none => (s.shownTally k / 2 ^ 32, ⟨.stale, .none⟩)

/-- Data of a read, given with its answer. -/
def State.giveData (s : State) (m : Master) (addr : Nat) (a : Answer) (ws : List Nat) : State :=
  ({ s with host := { s.host with data := ws.map word } }).answered m false addr a

/-- TALLY_LOW_READ (R285). -/
def doTallyLowRead (t : Nat) (m : Master) (k : Fin 32) : State → State :=
  whenLive t fun s =>
    let addr := 0x00600100 + 8 * k.val
    match foreign s m with
    | some a => s.answered m false addr a
    | none => let r := s.readTallyLow m k; r.2.giveData m addr okAnswer [r.1]

/-- TALLY_HIGH_READ (R286). -/
def doTallyHighRead (t : Nat) (m : Master) (k : Fin 32) : State → State :=
  whenLive t fun s =>
    let addr := 0x00600104 + 8 * k.val
    match foreign s m with
    | some a => s.answered m false addr a
    | none => let r := s.readTallyHigh m k; s.giveData m addr r.2 [r.1]

/-! ## MET registers (R295) -/

/-- MET.STAT. -/
def metStat (s : State) : Nat :=
  acBits s * 2 + b2n s.met.overrange * 2 ^ 4 + b2n s.met.valid * 2 ^ 5 + b2n (s.met.kinds.toList.any fun k => k.withheld) * 2 ^ 6 +
  b2n (decide (15123 ≤ s.met.store.length)) * 2 ^ 7 + b2n s.met.ckptLost * 2 ^ 8 + s.met.queue.length * 2 ^ 15

/-- The oldest stored receipt; the manual states no value for an empty store, which is then free. -/
def State.rcptTail (s : State) : Nat := match s.met.store with | r :: _ => r.seq | [] => Config.freeNat s.met.head % 2 ^ 32

/-- A word of the public receipt key. -/
def pubkeyWord (s : State) (i : Nat) : Nat :=
  match s.receiptKey with | some k => leNat (slice (Config.publicOf k) (4 * i) 4) | none => 0

/-- The identity words of MET, in their order. -/
def metIdent (s : State) (i : Nat) : Nat :=
  match i with
  | 0 => s.met.sealCount % 2 ^ 32
  | 1 => (match s.met.set with | some c => c.calId | none => 0)
  | 2 => s.met.keyGen % 2 ^ 32
  | 3 => s.met.bootCount % 2 ^ 32
  | 4 => le s.met.fwId 0 4
  | 5 => le s.met.fwId 4 4
  | 6 => s.fuses.deviceId % 2 ^ 32
  | _ => s.fuses.deviceId / 2 ^ 32 % 2 ^ 32

/-- A signed value as a register shows it. -/
def s32 (z : Int) : Nat := fieldOf 32 z

/-- The measured values of MET: AC, bays and calibration. -/
def metValue (s : State) (off : Nat) : Option Nat :=
  let m := s.met.commit
  if 0x200 ≤ off ∧ off < 0x210 then
    some (match (off - 0x200) / 4, m with
      | 0, some c => s32 c.pImp | 1, some c => s32 c.qImp | 2, some c => c.s % 2 ^ 32 | 3, _ => s.met.acF % 2 ^ 32 | _, none => 0 | _, _ => 0)
  else if 0x210 ≤ off ∧ off < 0x230 then
    let i := (off - 0x210) / 4
    some ((if i < 4 then s.met.uRms.getD i 0 else s.met.iRms.getD (i - 4) 0) % 2 ^ 32)
  else if 0x300 ≤ off ∧ off < 0x3C0 then
    (fin? 12 ((off - 0x300) / 16)).map fun b =>
      match off % 16 / 4, m with
      | 0, some c => s32 (wd c.bayV b.val)
      | 1, some c => s32 (wd c.bayI b.val)
      | 2, some c => s32 (wd c.bayP b.val)
      | 3, _ => b2n s.met.live[b] + b2n (s.met.bayOver.testBit b.val) * 2
      | _, _ => 0
  else none

/-- A value that the partition publishes: 0 in BLANK (R295). -/
def published (s : State) (v : Nat) : Nat := if s.met.sealSt = .blank then 0 else v

/-- A read of MET at an offset of the block, but for the tallies and the receipt window. DESIGN CHOICE (log 159): of the words of R295, those
the supervisor holds of its own (STATE, WRAP_MASK, WRAP_EPOCH, the receipt store) are not the partition's. -/
def metRead (s : State) (off : Nat) : Option Nat :=
  if off % 4 ≠ 0 then none
  else if off = 0 then some (sealCode s.met.sealSt + b2n (!s.fuses.mb) * 8 + s.met.calErr * 2 ^ 24)
  else if off < 0x24 then some (published s (metIdent s (off / 4 - 1)))
  else if off = 0x24 then some (published s (metStat s))
  else if off = 0x28 then some s.met.wrapEpoch
  else if off = 0x2C then some s.met.wrapMask
  else if 0x40 ≤ off ∧ off < 0x80 then some (published s (pubkeyWord s ((off - 0x40) / 4)))
  else if off = 0x400 then some (s.met.head % 2 ^ 32)
  else if off = 0x404 then some s.rcptTail
  else if off = 0x408 then some 0
  else if off = 0x40C then some s.met.rcptSel
  else if 0x1000 ≤ off ∧ off < 0x1200 then
    (match off % 16 with
     | 0 => some (s32 (wd s.met.calMean ((off - 0x1000) / 16)))
     | 4 => some (s.met.calRms.getD ((off - 0x1000) / 16) 0 % 2 ^ 32)
     | _ => none)
  else if 0x1200 ≤ off ∧ off < 0x120C then some (s32 (wd s.met.calPhase ((off - 0x1200) / 4)))
  else (metValue s off).map (published s)

/-- A word of the receipt window, none where the store does not hold the selected receipt (R295). -/
def receiptWord (s : State) (off : Nat) : Option Nat :=
  (s.met.store.find? fun r => r.seq == s.met.rcptSel).map fun r => le r.bytes off 4

/-- A write of MET at an offset of the block. -/
def metWrite (s : State) (off v : Nat) : Option RegEffect :=
  if off = 0x408 then some (ackEffect s v)
  else if off = 0x40C then some (none, fun s => { s with met := { s.met with rcptSel := v } })
  else if off = 0x2C then some (none, fun s => { s with met := { s.met with wrapMask := clrMask 32 s.met.wrapMask v } })
  else if off % 4 = 0 ∧ ((0x100 ≤ off ∧ off < 0x200) ∨ (0x800 ≤ off ∧ off < 0x8D0)) then some roWord
  else (metRead s off).map fun _ => roWord

/-! ## Meanings -/

/-- Meaning of METROLOGY_SAMPLE (R282). -/
def execMetrologySample (t : Nat) (rep : Nat) (sample : MetSample) (s : State) : Host.Outcome State Fault Refusal :=
  .next (doMetrologySample t rep sample s)

/-- Meaning of CAL_BLOCK (R274). -/
def execCalBlock (t : Nat) (s : State) : Host.Outcome State Fault Refusal :=
  .next (doCalBlock t s)

/-- Meaning of METROLOGY_COMMIT (R284). -/
def execMetrologyCommit (t : Nat) (s : State) : Host.Outcome State Fault Refusal :=
  .next (doMetrologyCommit t s)

/-- Meaning of BAY_DEAD (R279). -/
def execBayDead (t : Nat) (bay : Fin 12) (s : State) : Host.Outcome State Fault Refusal :=
  .next (doBayDead t bay s)

/-- Meaning of RECEIPT_ISSUE (R288). -/
def execReceiptIssue (t : Nat) (s : State) : Host.Outcome State Fault Refusal :=
  .next (doReceiptIssue t s)

/-- Meaning of RECEIPT_DRAIN (R291). -/
def execReceiptDrain (t : Nat) (s : State) : Host.Outcome State Fault Refusal :=
  .next (doReceiptDrain t s)

/-- Meaning of CAL_SET_EFFECT (R267). -/
def execCalSetEffect (t : Nat) (s : State) : Host.Outcome State Fault Refusal :=
  .next (doCalSetEffect t s)

/-- Meaning of RCPT_ACK (R291). -/
def execRcptAck (t : Nat) (m : Master) (seq : Word) (s : State) : Host.Outcome State Fault Refusal :=
  .next (doRcptAck t m seq s)

/-- Meaning of TALLY_LOW_READ (R285). -/
def execTallyLowRead (t : Nat) (m : Master) (k : Fin 32) (s : State) : Host.Outcome State Fault Refusal :=
  .next (doTallyLowRead t m k s)

/-- Meaning of TALLY_HIGH_READ (R286). -/
def execTallyHighRead (t : Nat) (m : Master) (k : Fin 32) (s : State) : Host.Outcome State Fault Refusal :=
  .next (doTallyHighRead t m k s)

end Sys2Proof.Machine
end

