-- ==== Sys2Proof/Machine/Role.lean ====
section
/-! DEFINITION. The role of a module in its pair: entries to each role of R335, the release of ACTIVE (R345, R337), the gain of
ACTIVE (R336, R342) and what a new active module does without a shadow (R230, R350, R353). -/
namespace Sys2Proof.Machine

/-- Number of a role. -/
def roleCode : Role → Nat | .init => 0 | .claiming => 1 | .active => 2 | .syncing => 3 | .standby => 4 | .unfit => 5

/-- The PAIR block changed. -/
def State.setPair (s : State) (f : Pair → Pair) : State := { s with pair := f s.pair }

/-- The Seljo link's state changed. -/
def State.setSeljo (s : State) (f : Seljo → Seljo) : State := s.setPair fun p => { p with seljo := f p.seljo }

/-- The partner's picture changed. -/
def State.setPartner (s : State) (f : Partner → Partner) : State := s.setPair fun p => { p with partner := f p.partner }

/-- A module that leaves ACTIVE follows references again, from the grid it led (R365, R367); SLEEP is the master's command (R379). -/
def State.busFollow (s : State) : State :=
  match s.prof.image with
  | some i =>
    let q := i.header
    let f := fun (c : Channel) => if c.lead then { c with lead := false, gridStart := s.mt / q.sbusCycleNs * q.sbusCycleNs, cycle := s.mt / q.sbusCycleNs % q.sbusCycles } else c
    { s with sbus := { s.sbus with ch := vmap (fun _ c => f c) s.sbus.ch, sleep := false } }
  | none => s

/-- A role change is stamped and recorded with its cause or UNFIT code (R335, R466). The slew of R340 ends with it: only a standby that has a
TIME exchange applies one (R409). -/
def State.setRole (s : State) (role : Role) (cause : Nat) : State :=
  if s.pair.role = role then s
  else
    let master := s.running && (s.pair.role == .active || role == .active)
    let s := if s.pair.role = .active then s.busFollow else s
    let s := s.setPair fun p => { p with role, roleAt := s.mt, holdoffDue := s.mt + secs p.holdoffS, roleChange := s.mt,
                                         unfitCode := if role = .unfit then cause else 0, seljo := { p.seljo with slew := 0 } }
    (s.bumpIf master 10).log 0x0901 (roleCode role) cause s.pair.epoch

/-- Entry to UNFIT with its code (R335, R352): ACTIVE_O stays released. -/
def State.enterUnfit (s : State) (code : Nat) : State :=
  (s.setPair fun p => { p with activeO := false, passDue := none, degraded := false }).setRole .unfit code

/-- The synchronisation of R347 starts at its first step. -/
def restartSync (q : Seljo) : Seljo :=
  { q with captured := false, captureAsked := false, stateTaken := false, agreePitch := 0, agreeTick := 0, stepPend := true, lock := false, goodRun := 0, slew := 0 }

/-- Entry to SYNCING (R335): market time steps forward once, then the steps of R347 follow. -/
def State.enterSyncing (s : State) (cause : Nat) : State :=
  (((s.setPair fun p => { p with activeO := false, degraded := false }).setSeljo restartSync).setRole .syncing cause)

/-- CLAIMING: ACTIVE_O is asserted. A safety controller in CTRL_FAULT keeps it released (R319, R320). -/
def State.enterClaiming (s : State) : State :=
  if s.saf.ctrlFault then s else (s.setPair fun p => { p with activeO := true }).setRole .claiming 0

/-- SYS.ASSUME.INTERLOCK set with its sticky bit (R487). -/
def State.assumeInterlock (s : State) (on : Bool) : State :=
  ({ s with assume := { s.assume with interlock := on, interlockS := s.assume.interlockS || (on && !s.assume.interlock) } }).bumpIf (s.assume.interlock != on) 0

/-- INIT starts (R335): in single mode the module claims at once, or is UNFIT with code 6 where ACTIVE_I is asserted (R482);
in a pair an asserted ACTIVE_I leads to SYNCING. Until the self-test of the safety controller has passed the module stays in INIT with
ACTIVE_O released (R320); a module that a reset left in UNFIT stays there (R337). -/
def State.startRole (s : State) : State :=
  let s := s.setPair fun p => { p with activeO := false, listenFrom := s.mt }
  if s.paired && s.pair.role == .unfit && decide (10 ≤ s.pair.unfitCode) then s
  else
    let s := s.setRole .init 0
    if s.saf.ctrlFault then s
    else match s.pair.mode with
      | .single => if s.pair.activeI then (s.assumeInterlock true).enterUnfit 6 else s.enterClaiming
      | _ => if s.pair.activeI then s.enterSyncing 0 else s

/-! ## Releasing ACTIVE -/

/-- Is this cause marked "fault" (R345)? -/
def faultCause (cause : Nat) : Bool := decide (1 ≤ cause ∧ cause ≤ 9)

/-- The release is counted in PAIR.CNT, with the seconds of a planned or profile handover (R345, R356). -/
def State.countRelease (s : State) (cause : Nat) : State :=
  let secs := s.calSeconds
  s.setPair fun p =>
    { p with lastCause := cause,
             releases := if faultCause cause then satInc 8 p.releases else p.releases,
             handovers := if cause = 0x0A ∨ cause = 0x0B ∨ cause = 0x0D then satInc 8 p.handovers else p.handovers,
             lastHo := if cause = 0x0A ∨ cause = 0x0B then secs % 2 ^ 32 else p.lastHo }

/-- Stalls of a module whose frames and uplinks cease without a partner that shadows them: in use no more, cells OFF. -/
def stallLost (x : Stall) : Stall :=
  let x := { x with up := none, frame := none, applied := none, sample := .none, coasting := false, coastCnt := 0, stopReq := none,
                    laneBay := none, runs := Vector.replicate 10 {}, lastD := List.replicate 8 0 }
  match x.st with
  | .assigned | .stopping => { x with st := .idle, bay := none, matrix := none, gatedOut := false, openDue := none, cells := vmap (fun _ c => cellOff c) x.cells }
  | _ => { x with matrix := none }

/-- What ends with the release where no shadow continues it: lite pair and single mode (R256, R349). -/
def State.dropSite (s : State) : State :=
  let s := { s with mkt := { s.mkt with moves := Vector.replicate 8 {}, result := none }, lat := { s.lat with windowOpen := false } }
  let s := s.forAll 64 fun n s => s.setStall n stallLost
  let s := if s.pair.mode = .lite then s.forAll 64 fun n s => s.linkOff n else s
  s.forAll 12 fun b s => (if s.bays[b].session.st = .idle then s else s.enterIdle b).commandOutlet b false

/-- Releases marked "fault" in the last 24 hours. -/
def State.faultsToday (s : State) : List Nat := s.pair.faultStamps.filter fun t => decide (s.mt < t + 86400000000000)

/-- The role after a release (R335, R337): UNFIT after a fault, with code 11 after three within 24 hours; STANDBY after a
profile handover (step 7 of R355), its market time locked to the one that followed it; SYNCING after the other planned causes. -/
def State.afterRelease (s : State) (cause : Nat) : State :=
  if faultCause cause then
    let s := s.setPair fun p => { p with faultStamps := (s.mt :: s.faultsToday).take 3 }
    let held := s.pair.hold11 || decide (3 ≤ s.faultsToday.length)
    (s.setPair fun p => { p with hold11 := held, activeO := false, passDue := none }).setRole .unfit cause |>.setPair fun p => { p with unfitCode := if held then 11 else 10 }
  else if cause = 0x0B then ((s.setPair fun p => { p with activeO := false }).setSeljo fun q => { q with lock := true, goodRun := 16 }).setRole .standby cause
  else s.enterSyncing cause

/-- A holding module releases ACTIVE (R345): ACTIVE_O and the outputs of R332 fall; a pending change is cancelled, but for the profile
handover's own (R55). A module that still claims takes its claim back, without a release to count (DEDUCED,
log 122); the entry to DORMANT leaves its cause in PAIR.LAST then too (step 3 of R418). -/
def State.releaseActive (s : State) (cause : Nat) : State :=
  match s.pair.role with
  | .active =>
    let s := (s.countRelease cause).allOff
    let s := if s.paired && cause != 0x0B then s.cancelPending 0x34 else s
    let s := if s.pair.mode = .full then s else s.dropSite
    s.afterRelease cause
  | .claiming => (s.setPair fun p => { p with activeO := false, lastCause := if cause = 0x0C then cause else p.lastCause }).setRole .init 0
  | _ => s

/-- A refresh of the hold circuit is missed (R333): a compute deadline has passed without the handover of its frames, whether or not its
window opened, or the time of a tick commit without it. -/
def State.refreshMissed (s : State) (t : Nat) : Bool := s.active && (overdue t s.pair.holdPitch || overdue t s.pair.holdTick)

/-- The hold circuit of a module that holds ACTIVE with a profile waits for its refreshes: from the first compute window to open and the
first tick to start at or after `t` on, where none is known yet. -/
def State.armHold (s : State) (t : Nat) : State :=
  if s.active && s.running then
    let b := roundUpTo s.pitchNs (max (t - s.openNs) s.prof.gridFrom)
    s.setPair fun p => { p with holdPitch := some (p.holdPitch.getD (b + s.closeNs)), holdTick := some (p.holdTick.getD (roundUpTo 1000000 t + 250000)) }
  else s

/-- The hold circuit starts anew. -/
def State.holdAnew (s : State) : State := s.setPair fun p => { p with holdPitch := none, holdTick := none }

/-- The refresh of a compute deadline whose frames were handed over. -/
def State.refreshPitch (s : State) (b : Nat) : State := s.setPair fun p => { p with holdPitch := some (b + s.pitchNs + s.closeNs) }

/-- The refresh of the commit of tick `q`. -/
def State.refreshTick (s : State) (q : Nat) : State := s.setPair fun p => { p with holdTick := some (q + 1250000) }

/-- ACTIVE falls with cause 0x01 where a refresh has been missed (R333, R345; log 70: seen at the next window opening, deadline, tick start,
tick commit or health check). -/
def State.judgeHold (s : State) (t : Nat) : State := if s.refreshMissed t then s.releaseActive 1 else s

/-- A cause marked "if fit" (R345): ACTIVE is released to a fit partner, else kept with the cause recorded in PAIR.LAST. -/
def State.releaseIfFit (s : State) (cause : Nat) : State :=
  if s.pair.role ≠ .active then s
  else if s.paired && s.partnerFit then s.releaseActive cause
  else (s.setPair fun p => { p with lastCause := cause }).bumpIf (s.pair.lastCause != cause) 9

/-! ## Gaining ACTIVE -/

/-- Entry to ACTIVE (R335, R336): EPOCH rises by one from the higher of both modules' values; MST goes out on every link (R95). -/
def State.gainActive (s : State) (takeover : Bool) : State :=
  let s := s.holdAnew.setPair fun p =>
    { p with activeO := true, epoch := (max p.epoch p.partner.epoch + 1) % 65536, tko := s.mt, degraded := false,
             epochRaised := false, takeovers := if takeover then satInc 8 p.takeovers else p.takeovers }
  let s := s.setRole .active 0
  s.sendMstAll

/-- A bay whose CE is not NONE is in CONNECTED with a fresh timer after a takeover or a reset (R230, R431), with the MAC base of its
entry (R211). -/
def State.connectAnew (s : State) (b : Fin 12) (endCode : Nat) : State :=
  let mac := s.macBase + b.val
  (s.setBay b fun x =>
    { x with session := { freshSession x.session with endCode, codeOld := endCode != 0 }, heldResp := none, mac,
             pilot := { x.pilot with plca := true } }).goSess b .connected

/-- Was there a session on the bay before a takeover without a shadow? One this module shadowed, or an energised bay of the partner, or
a vehicle that is mated at a bay open to sessions. DESIGN CHOICE (log 124): no message of lite pair names the sessions. -/
def State.hadSession (s : State) (b : Fin 12) : Bool :=
  let x := s.bays[b]
  (x.session.st != .idle && x.session.st != .ended) || s.pair.partner.energised.testBit b.val ||
  ((x.pilot.ce == .connected || x.pilot.ce == .ready) && x.pilot.id == .valid && !x.disable)

/-- A bay's session at a takeover without a shadow (R230): a lost one leaves code 0x11 and a record. -/
def State.loseSession (s : State) (b : Fin 12) : State :=
  if s.hadSession b then (s.connectAnew b 0x11).log 0x0403 b.val 0x11 0 else s.connectAnew b 0

/-- The cooling loops start from the duties of the partner's last heartbeat (step 5 of R350). -/
def State.adoptPartnerAux (s : State) : State :=
  let duty := fun (mode src : Nat) =>
    match (fins 24).find? fun n => s.aux.ch[n].mode == mode && s.aux.ch[n].src == src with
    | some n => 1000 * s.pair.partner.auxDuty.getD n.val 0
    | none => 0
  s.forAll 4 fun l s =>
    let p := duty 2 l.val
    let f := duty 3 l.val
    s.setLoop l fun x => { x with pump := decide (0 < p), pumpSince := s.mt, pumpDemand := p, fan := decide (0 < f), fanDemand := f }

/-- The steps of R350: links from OFF, safe stops of the bays shown energised, sessions by R230, cooling from the partner's duties. A module
that gains ACTIVE from INIT takes no session over. -/
def State.liteSteps (s : State) (takeover : Bool) : State :=
  let s := s.forAll 64 fun n s =>
    if (s.stallRec n).isSome then ((s.setStall n fun x => { stallLost x with liteCheck := true }).linkAlign n) else s
  let s := { s with mkt := { s.mkt with moves := Vector.replicate 8 {}, result := none }, lat := { s.lat with windowOpen := false } }
  let s := s.forAll 12 fun b s => if (s.bayRec b).isSome && s.pair.partner.energised.testBit b.val then s.removeShown b else s
  let s := s.forAll 12 fun b s => s.commandOutlet b false
  let s := if takeover then s.forAll 12 fun b s => if (s.bayRec b).isSome && s.bays[b].pilot.ce != .none then s.loseSession b else s else s
  s.adoptPartnerAux

/-- What a new active module does without a shadow (R350); a pending change is cancelled at a takeover (R55). -/
def State.liteTakeover (s : State) (takeover : Bool) : State := (if takeover then s.cancelPending 0x34 else s).liteSteps takeover

/-- Steps 4 to 7 of R355 on either module: the new image runs, and both modules know the other's to be the same (R354). -/
def State.takeHandover (s : State) (p : PendingChange) : State :=
  ((s.setSeljo fun q => { q with partnerReleasing := false }).switchHandover p).setPartner fun q => { q with uid := p.image.header.uid }

/-- A pending change at a takeover (R55, R355): a handover's new image runs once no window is in progress, where the partner released for
it; any other change is cancelled. -/
def State.finishHandover (s : State) : State :=
  match s.prof.pend with
  | some p =>
    if p.mode == .handover && s.pair.seljo.partnerReleasing && p.loaded.isSome then (if s.lat.windowOpen then s else s.takeHandover p)
    else s.cancelPending 0x34
  | none => s

/-- ACTIVE gained: in full pair every stall, move and session continues (R342); otherwise by R350. A module that has just
started in single mode has nothing to take over. -/
def State.becomeActive (s : State) (takeover : Bool) : State :=
  let shadow := s.pair.mode == .full && takeover && !s.pair.degraded
  let s := (s.gainActive takeover).armHold s.mt
  if s.pair.mode = .single then s else if shadow then s.finishHandover else s.liteTakeover takeover

/-! ## Steps of INIT and CLAIMING -/

/-- ACTIVE_I reads released at `t`. A SIDE 1 module in role ACTIVE holds ACTIVE again, and with a profile leads the site bus (R332, R383). -/
def State.readReleased (s : State) (t : Nat) : State :=
  if s.pair.activeI then
    let was := s.active
    let s := (s.setPair fun p => { p with activeI := false, releasedAt := t, releasedDue := t + secs p.resyncS, roleChange := t }).bump 9
    s.bumpIf (s.active && !was && s.running) 10
  else s

/-- Wait of INIT (R335). -/
def initWait (side : Nat) : Nat := if side = 0 then ms 20 else ms 200

/-- INIT_WAIT_END (R335). In single mode there is nothing to wait for. -/
def doInitWaitEnd (t : Nat) : State → State :=
  whenLive t fun s =>
    if s.pair.role = .init then
      if s.pair.mode = .single then s.startRole
      else if !s.pair.activeI && decide (max s.pair.releasedAt s.pair.roleAt + initWait s.pair.side ≤ t) then s.enterClaiming else s
    else s

/-- ACTIVE_I_ASSERT (R335): INIT passes to SYNCING; of two that claim, SIDE 1 yields; one in role ACTIVE does not hold ACTIVE meanwhile
(R332) and follows references (R367). In single mode a module in INIT, which would claim at
once, is UNFIT with code 6 (R482). -/
def doActiveIAssert (t : Nat) : State → State :=
  whenLive t fun s =>
    let led := s.active && s.running
    let s := (s.setPair fun p => { p with activeI := true, roleChange := if p.activeI then p.roleChange else t }).bumpIf (!s.pair.activeI) 9
    match s.pair.role with
    | .init => if s.pair.mode = .single then (s.assumeInterlock true).enterUnfit 6 else s.enterSyncing 0
    | .claiming => if s.pair.side = 1 then s.enterSyncing 0 else s
    | .active => if s.active then s else (s.busFollow.holdAnew.bumpIf led 10).allOff
    | _ => s

/-- CLAIM_CONFIRM (R335): 2 µs after asserting ACTIVE_O; a contested claim of SIDE 0 confirms when ACTIVE_I reads released,
at most 10 µs after it asserted. -/
def doClaimConfirm (t : Nat) : State → State :=
  whenLive t fun s =>
    if s.pair.role = .claiming ∧ s.pair.roleAt + 2000 ≤ t then
      if s.pair.activeI ∧ s.pair.side = 0 ∧ t ≤ s.pair.roleAt + 10000 then (s.readReleased t).becomeActive false
      else if s.pair.activeI then s else s.becomeActive false
    else s

/-- CLAIM_CONFLICT_TIMEOUT (R335): SIDE 0, still contested after 10 µs, releases and returns to INIT. -/
def doClaimConflictTimeout (t : Nat) : State → State :=
  whenLive t fun s =>
    if s.pair.role == .claiming && s.pair.activeI && s.pair.side == 0 && expired t (s.pair.roleAt + 10000) then s.startRole else s

/-- TAKEOVER (R335, R342): ACTIVE_I reads released; a STANDBY module takes ACTIVE. -/
def doTakeover (t : Nat) : State → State :=
  whenLive t fun s =>
    let s := s.readReleased t
    if s.pair.role = .standby then s.becomeActive true else s

/-! ## Meanings -/

/-- Meaning of INIT_WAIT_END (R335). -/
def execInitWaitEnd (t : Nat) (s : State) : Host.Outcome State Fault Refusal :=
  .next (doInitWaitEnd t s)

/-- Meaning of ACTIVE_I_ASSERT (R335). -/
def execActiveIAssert (t : Nat) (s : State) : Host.Outcome State Fault Refusal :=
  .next (doActiveIAssert t s)

/-- Meaning of CLAIM_CONFIRM (R335). -/
def execClaimConfirm (t : Nat) (s : State) : Host.Outcome State Fault Refusal :=
  .next (doClaimConfirm t s)

/-- Meaning of CLAIM_CONFLICT_TIMEOUT (R335). -/
def execClaimConflictTimeout (t : Nat) (s : State) : Host.Outcome State Fault Refusal :=
  .next (doClaimConflictTimeout t s)

/-- Meaning of TAKEOVER (R342). -/
def execTakeover (t : Nat) (s : State) : Host.Outcome State Fault Refusal :=
  .next (doTakeover t s)

end Sys2Proof.Machine
end

