-- ==== Sys2Proof/Machine/SafetyCtl.lean ====
section
/-! DEFINITION. The safety controller: the scan with its filters, test pulses and pair states (R296 to R306), SO pairs (R307 to
R311), the progress of safe stops (R312, R317), controller faults (R319), the safety unlock (R321 to R325), the claims (R327)
and the SAF registers (R329). -/
namespace Sys2Proof.Machine

/-! ## Pairs and records -/

/-- SI pair `k` changed. -/
def State.setSi (s : State) (k : Fin 16) (f : SiPair → SiPair) : State := { s with saf := { s.saf with si := vupd s.saf.si k f } }

/-- RESET of an SI record: manual release (R298). -/
def siManual (r : SafRec) : Bool := r.flags.testBit 2

/-- ACTION of an SI record: immediate removal. -/
def siImmediate (r : SafRec) : Bool := r.flags.testBit 3

/-- Samples of the filter (R297, R298); a pair without a record takes one. -/
def siFilter (r : Option SafRec) : Nat := match r with | some r => bits r.flags 4 3 + 1 | none => 1

/-- The discrepancy time in ns. -/
def siDisc (r : SafRec) : Nat := r.paramA * 1000

/-- Is a level of channel A a demand (R298)? -/
def demandA (level : Bool) : Bool := !level

/-- Is a level of channel B a demand: low for TYPE 0, high for TYPE 1? -/
def demandB (r : SafRec) (level : Bool) : Bool := if siType r = 1 then level else !level

/-- Is either channel of the pair in demand? -/
def inDemand (r : SafRec) (p : SiPair) : Bool := demandA p.a.level || demandB r p.b.level

/-- Number of a pair state in SAF.SI_STATEn. -/
def siCode : SiSt → Nat
  | .idle => 0 | .partialDemand => 1 | .demand => 2 | .returning => 3 | .waitReset => 4 | .faultDisc => 5 | .faultBoth => 6 | .faultTest => 7

/-! ## Test pulses (R299, R300) -/

/-- The KIND 3 record of a source. -/
def State.pulseRec (s : State) (src : Nat) : Option SafRec := s.safRec 3 src

/-- Offset of an odd source's pulses within the period. -/
def pulseOffset (src : Nat) (r : SafRec) : Nat := if src % 2 = 0 then 0 else r.paramB * 500000

/-- Does a pulse of the source start at `t`? -/
def pulseStarts (src : Nat) (r : SafRec) (t : Nat) : Bool := decide (pulseOffset src r ≤ t) && (t - pulseOffset src r) % (r.paramB * 1000000) == 0

/-- Time since the start of the source's latest pulse. -/
def sincePulse (src : Nat) (r : SafRec) (t : Nat) : Option Nat :=
  if pulseOffset src r ≤ t then some ((t - pulseOffset src r) % (r.paramB * 1000000)) else none

/-- Source that feeds a channel of a pair (R298). -/
def sourceOf (r : SafRec) (chanB : Bool) : Option Nat := if r.paramB ≤ 3 then some (if chanB then r.paramB ^^^ 1 else r.paramB) else none

/-- The KIND 3 record of a channel's source, while its pulses are given: they are suspended in DORMANT (R318). -/
def State.pulsing (s : State) (q : Nat) : Option SafRec := if s.live then s.pulseRec q else none

/-- Does a sample at `t` leave the channel's level alone: from the start of its source's pulse until 100 µs after its end? -/
def State.maskedAt (s : State) (src : Option Nat) (t : Nat) : Bool :=
  match src with
  | none => false
  | some q =>
    match s.pulsing q with
    | some r => (match sincePulse q r t with | some d => decide (d ≤ r.paramA * 1000 + 100000) | none => false)
    | none => false

/-- Is the scan at `t` the last one within the source's pulse? -/
def State.lastInPulse (s : State) (src : Option Nat) (t : Nat) : Bool :=
  match src with
  | none => false
  | some q =>
    match s.pulsing q with
    | some r => (match sincePulse q r t with | some d => decide (d + 50000 = r.paramA * 1000) | none => false)
    | none => false

/-- A channel at the start of a pulse of its source: it carries a test result only if it reads 1. A channel in demand at rest
breaks the run of passed pulses. -/
def armChan (demand : Bool) (c : SiChan) : SiChan := { c with armed := c.cand, passed := if !c.cand && demand then 0 else c.passed }

/-- TEST_PULSE (R299): the source's TP output is low from here for its width; a module without ACTIVE evaluates against the
same schedule with its outputs high-impedance (R311). Pulses are suspended in DORMANT. -/
def doTestPulse (t : Nat) (src : Fin 4) : State → State :=
  whenLive t fun s =>
    match s.pulseRec src.val with
    | some r =>
      if pulseStarts src.val r t then
        let s := { s with saf := { s.saf with pulseAt := vupd s.saf.pulseAt src fun _ => some t } }
        s.forAll 16 fun k s =>
          match s.safRec 1 k.val with
          | some x =>
            let s := if sourceOf x false = some src.val then s.setSi k fun p => { p with a := armChan (siType x != 2 && demandA p.a.level) p.a } else s
            if sourceOf x true = some src.val then s.setSi k fun p => { p with b := armChan (siType x != 2 && demandB x p.b.level) p.b } else s
          | none => s
      else s
    | none => s

/-- Is the TP output of a source low at the present time: at 0 V without VIN24 (R494), or driven low for its pulse? -/
def State.tpLow (s : State) (src : Fin 4) : Bool :=
  s.aux.gone ||
  (s.active && (match s.saf.pulseAt[src], s.pulseRec src.val with | some q, some r => decide (s.mt < q + r.paramA * 1000) | _, _ => false))

/-! ## Pair states (R302) -/

/-- A pair enters a state: a change counts; entries to and exits from fault states are recorded (R302, R466). -/
def State.goSi (s : State) (k : Fin 16) (st : SiSt) (f : SiPair → SiPair) : State :=
  let old := s.saf.si[k].st
  let demand := (old == .idle || old == .waitReset) && (st == .partialDemand || st == .demand)
  let fault := st == .faultDisc || st == .faultTest
  let fresh := st == .faultTest || st == .waitReset
  let s := s.setSi k fun p =>
    let p := f p
    { p with st, demands := if demand then satInc 16 p.demands else p.demands, faults := if fault then satInc 8 p.faults else p.faults,
             a := if fresh then { p.a with passed := 0 } else p.a, b := if fresh then { p.b with passed := 0 } else p.b }
  if siFault old || siFault st then s.log 0x0801 k.val (siCode st) (siCode old) else s.bump 8

/-- The release of a pair that has returned: WAIT_RESET or IDLE, by RESET. -/
def State.releaseSi (s : State) (k : Fin 16) (r : SafRec) (f : SiPair → SiPair) : State :=
  s.goSi k (if siManual r then .waitReset else .idle) f

/-- A completed demand: SAF.SI_PROOFn is stamped with the calendar. -/
def State.proveSi (s : State) (k : Fin 16) (r : SafRec) : State :=
  let now := s.calSeconds % 2 ^ 32
  s.releaseSi k r fun p => { p with proof := now, proofDue := false }

/-- The step of R302 on the channels' demands, for a change stamped `t`. -/
def State.stepSi (s : State) (k : Fin 16) (r : SafRec) (dA dB : Bool) (t : Nat) : State :=
  let p := s.saf.si[k]
  let due := t + siDisc r
  match p.st with
  | .idle | .waitReset =>
    if dA && dB then s.goSi k .demand id
    else if dA || dB then s.goSi k .partialDemand fun p => { p with deadline := due, firstA := dA }
    else s
  | .partialDemand =>
    if dA && dB then s.goSi k (if t ≤ p.deadline then .demand else .faultDisc) id
    else if dA || dB then s
    else if t ≤ p.deadline then s.releaseSi k r fun p => { p with blips := satInc 8 p.blips }
    else s.goSi k .faultDisc id
  | .demand =>
    if dA && dB then s
    else if dA || dB then s.goSi k .returning fun p => { p with deadline := due, firstA := dB }
    else s.proveSi k r
  | .returning =>
    if dA != dB then s
    else if p.deadline < t then s.goSi k .faultDisc id
    else if dA then s.goSi k .demand id
    else s.proveSi k r
  | .faultDisc => if dA && dB then s.goSi k .faultBoth id else s
  | .faultBoth =>
    if dA || dB then s
    else
      let apart := if p.a.stamp ≤ p.b.stamp then p.b.stamp - p.a.stamp else p.a.stamp - p.b.stamp
      if apart ≤ siDisc r then s.releaseSi k r id else s.goSi k .faultDisc id
  | .faultTest => s

/-! ## One pair's scan -/

/-- A channel after a sample (R297). -/
def sampleChan (n t : Nat) (v : Bool) (c : SiChan) : SiChan :=
  let c := if v = c.cand then { c with count := min 8 (c.count + 1) } else { c with cand := v, count := 1, first := t }
  if n ≤ c.count ∧ c.level ≠ v then { c with level := v, stamp := c.first } else c

/-- The changes of a pair's channels at one scan, in the order of their stamps; equal changes of one stamp act together. -/
def State.applyChanges (s : State) (k : Fin 16) (r : SafRec) (old : SiPair) : State :=
  let p := s.saf.si[k]
  let a0 := demandA old.a.level
  let b0 := demandB r old.b.level
  let a1 := demandA p.a.level
  let b1 := demandB r p.b.level
  if a0 = a1 ∧ b0 = b1 then s.stepSi k r a1 b1 (max p.a.stamp p.b.stamp)
  else if a0 = a1 then s.stepSi k r a1 b1 p.b.stamp
  else if b0 = b1 then s.stepSi k r a1 b1 p.a.stamp
  else if p.a.stamp = p.b.stamp ∧ a1 = b1 then s.stepSi k r a1 b1 p.a.stamp
  else if p.a.stamp < p.b.stamp ∨ (p.a.stamp = p.b.stamp ∧ a1) then (s.stepSi k r a1 b0 p.a.stamp).stepSi k r a1 b1 p.b.stamp
  else (s.stepSi k r a0 b1 p.b.stamp).stepSi k r a1 b1 p.a.stamp

/-- The test result of a channel at the last scan within its source's pulse. A source that has limited its current fails the
channels it feeds (R504). -/
def testChan (limited v : Bool) (c : SiChan) : SiChan × Bool :=
  if limited then ({ c with armed := false, passed := 0 }, true)
  else if c.armed then ({ c with armed := false, passed := if v then 0 else c.passed + 1 }, v) else (c, false)

/-- The results of test pulses act on the pair (R300, R302, R305). -/
def State.testSi (s : State) (k : Fin 16) (r : SafRec) (failed : Bool) : State :=
  let p := s.saf.si[k]
  if failed then (if p.st = .faultTest then s else s.goSi k .faultTest id)
  else if inDemand r p then s
  else if p.st == .faultTest && decide (2 ≤ p.a.passed ∧ 2 ≤ p.b.passed) then s.goSi k .waitReset id
  else if p.st == .waitReset && !siManual r && decide (1 ≤ p.a.passed ∧ 1 ≤ p.b.passed) then (s.goSi k .idle id).log 0x0801 k.val 0 4
  else s

/-- A feedback pair after a scan: since when its channels disagree, its report, and the end of a mismatch (R306). DESIGN CHOICE (log 127):
while the channels disagree for no longer than PARAM_A, the register goes on showing the latest report. -/
def State.feedbackSi (s : State) (k : Fin 16) : State :=
  let p := s.saf.si[k]
  let apart := if p.a.level = p.b.level then none else match p.apart with | some q => some q | none => some (max p.a.stamp p.b.stamp)
  let report := if fbOpen p then 8 else if fbClosed p then 9 else p.report
  (s.setSi k fun p => { p with apart, mismatch := p.mismatch && apart.isSome, report }).bumpIf ((p.mismatch && apart.isNone) || report != p.report) 8

/-- Test results of a feedback pair (R300): a failed test is FAULT_TEST. DESIGN CHOICE (log 126): R302 gives TYPE 2 no state machine, so the
pair leaves FAULT_TEST for its reports once both channels have passed two consecutive pulses, and confirms contactors meanwhile. -/
def State.testFeedback (s : State) (k : Fin 16) (failed : Bool) : State :=
  let p := s.saf.si[k]
  if failed then (if p.st = .faultTest then s else s.goSi k .faultTest id)
  else if p.st == .faultTest && decide (2 ≤ p.a.passed ∧ 2 ≤ p.b.passed) then s.goSi k .idle id
  else s

/-- Pair `k` at a scan: sample, filter, test results, state. -/
def State.scanPair (s : State) (t : Nat) (k : Fin 16) (a b : Bool) : State :=
  let rec_ := s.safRec 1 k.val
  let n := siFilter rec_
  let old := s.saf.si[k]
  let src := fun chanB => rec_.bind fun r => sourceOf r chanB
  let step := fun (q : Option Nat) (v : Bool) (c : SiChan) => if s.maskedAt q t then c else sampleChan n t v c
  let limited := fun (q : Option Nat) => (q.bind (fin? 4)).any fun q => s.saf.tpLimited[q]
  let test := fun (q : Option Nat) (v : Bool) (c : SiChan) => if s.lastInPulse q t then testChan (limited q) v c else (c, false)
  let ca := test (src false) a (step (src false) a old.a)
  let cb := test (src true) b (step (src true) b old.b)
  let s := s.setSi k fun p => { p with a := ca.1, b := cb.1 }
  match rec_ with
  | none => s
  | some r =>
    if siType r = 2 then (s.feedbackSi k).testFeedback k (ca.2 || cb.2)
    else (s.applyChanges k r old).testSi k r (ca.2 || cb.2)

/-- DISCREPANCY_TIMEOUT (R302, R303): the deadline has passed with the channels disagreeing, and every change stamped at or
before it has passed the filter. -/
def doDiscrepancyTimeout (t : Nat) (k : Fin 16) : State → State :=
  whenScanning t fun s =>
    let p := s.saf.si[k]
    match s.safRec 1 k.val with
    | some r =>
      if siType r != 2 && (p.st == .partialDemand || p.st == .returning) && expired t p.deadline && !pairPending p p.deadline then s.goSi k .faultDisc id else s
    | none => s

/-! ## SO pairs (R307 to R311) -/

/-- The pair enters FAULT (R310). -/
def State.soFault (s : State) (k : Fin 16) (cause : Nat) : State :=
  if s.saf.so[k].st = .fault then s
  else ((s.soOff k).setSo k fun p => { p with st := .fault, cause, count := satInc 16 p.count, awaits := false }).log 0x0802 k.val cause 0

/-- The read-back of a de-energised pair at a scan (R309). -/
def State.readBack (s : State) (k : Fin 16) (hs ls : Bool) : State :=
  if soOn s.saf.so[k] then s
  else
    let s := s.setSo k fun p => { p with hsBad := hs, lsBad := ls, needTest := p.needTest && (hs || ls) }
    if hs then s.soFault k 1 else if ls then s.soFault k 2 else s

/-- Cause 6: a command not confirmed by the feedback pair within 100 ms (R306, R310). -/
def State.confirmSo (s : State) (t : Nat) (k : Fin 16) (r : SafRec) : State :=
  let p := s.saf.so[k]
  match fbOf r with
  | none => s
  | some f =>
    let q := s.saf.si[f]
    let due := p.since + ms 100
    let matches_ := if soOn p then fbClosed q else fbOpen q
    if !p.awaits then s
    else if matches_ && decide (fbStamp q ≤ due) then s.setSo k fun p => { p with awaits := false }
    else if expired t due && !pairPending q due then (s.setSo k fun p => { p with awaits := false }).soFault k 6
    else s

/-- May the outlet pair of a bay be energised (R308)? A demand bars energising; an energised pair is brought down by the safe
stop, after its ramp. -/
def State.outletMay (s : State) (b : Fin 12) (on : Bool) : Bool :=
  let q := s.saf.stops[b]
  s.active && s.running && s.bays[b].outlet.close && (on || !s.demandOn b) &&
  (q.st == .none || q.st == .ramp || (q.st == .gating && q.trigger == 1)) && !s.saf.ctrlFault

/-- May a site-breaker pair be energised (R308)? In READY none is (R415). -/
def State.siteMay (s : State) : Bool :=
  s.active && s.running && !s.siteDemand && !(s.saf.stops.toList.any fun q => q.st == .escalated) && !s.saf.ctrlFault

/-- An SO pair follows R308; without VIN24 it is off (R494). -/
def State.driveSo (s : State) (k : Fin 16) (r : SafRec) : State :=
  let p := s.saf.so[k]
  let want := match fin? 12 r.paramA with | some b => s.outletMay b (soOn p) | none => s.siteMay
  if p.st == .fault then s
  else if want && !p.needTest && !s.aux.gone then s.soEnergise k
  else s.soOff k

/-- Is a test of the high-side or low-side switch due at `t` (R309): the high side once per PARAM_B, the low side half a period later?
DESIGN CHOICE (log 128): the manual states no phase; the first high-side test after the energising sets it. -/
def testDue (r : SafRec) (p : SoPair) (t : Nat) (low : Bool) : Bool :=
  match p.testAt with
  | none => !low
  | some q => decide (q ≤ t) && (t - q) % (r.paramB * 1000000) == (if low then r.paramB * 500000 else 0)

/-- Is the high-side switch closed at the present time: commanded on, and not off for its test (R309)? -/
def State.hsClosed (s : State) (k : Fin 16) : Bool :=
  s.saf.so[k].hs && (match s.saf.so[k].testing with | some (false, e) => decide (e ≤ s.mt) | _ => true)

/-- Is the low-side switch closed at the present time? -/
def State.lsClosed (s : State) (k : Fin 16) : Bool :=
  s.saf.so[k].ls && (match s.saf.so[k].testing with | some (true, e) => decide (e ≤ s.mt) | _ => true)

/-- SWITCH_TEST (R309): one switch of an energised pair is turned off for 300 µs and its output read back. -/
def doSwitchTest (t : Nat) (k : Fin 16) (low conducts : Bool) : State → State :=
  whenLive t fun s =>
    match s.safRec 2 k.val with
    | some r =>
      if r.flags.testBit 5 && soOn s.saf.so[k] && testDue r s.saf.so[k] t low then
        let s := s.setSo k fun p => { p with lsBad := if low then conducts else p.lsBad, hsBad := if low then p.hsBad else conducts,
                                             testAt := some (p.testAt.getD t), testing := some (low, t + 300000) }
        if conducts then s.soFault k (if low then 2 else 1) else s
      else s
    | none => s

/-- SO_CURRENT_FAULT (R310): the current in mA and for how long it has lasted, in ns. -/
def doSoCurrentFault (t : Nat) (k : Fin 16) (current lasted : Nat) : State → State :=
  whenLive t fun s =>
    if (s.safRec 2 k.val).isNone then s
    else
      let s := s.setSo k fun p => { p with current }
      if 4000 < current then s.soFault k 4
      else if 2000 < current ∧ ms 10 < lasted then s.soFault k 3
      else if current < 20 ∧ ms 100 ≤ lasted ∧ soOn s.saf.so[k] then s.soFault k 5
      else s

/-- FEEDBACK_MISMATCH (R306, R310 cause 6): the channels have disagreed for longer than PARAM_A. -/
def doFeedbackMismatch (t : Nat) (k : Fin 16) : State → State :=
  whenScanning t fun s =>
    let p := s.saf.si[k]
    match s.safRec 1 k.val, p.apart with
    | some r, some q =>
      if siType r == 2 && expired t (q + siDisc r) && !pairPending p (q + siDisc r) && !p.mismatch then
        let s := (s.setSi k fun p => { p with mismatch := true }).bump 8
        s.soPairs.foldl (fun s x => if fbOf x.2 = some k then s.soFault x.1 6 else s) s
      else s
    | _, _ => s

/-! ## The progress of safe stops (R312) -/

/-- What the feedback of a bay's outlet contactor confirms: open, where every outlet pair is off or reports OPEN. -/
def State.outletOpenNow (s : State) (b : Fin 12) : Bool :=
  (s.outletPairs b).all fun p => match fbOf p.2 with | some f => fbOpen s.saf.si[f] | none => !soOn s.saf.so[p.1]

/-- Closed, where every outlet pair is on and reports CLOSED; a bay without an outlet pair is never closed. -/
def State.outletClosedNow (s : State) (b : Fin 12) : Bool :=
  !(s.outletPairs b).isEmpty && (s.outletPairs b).all fun p => soOn s.saf.so[p.1] && (match fbOf p.2 with | some f => fbClosed s.saf.si[f] | none => true)

/-- Latest stamp of the reports of a bay's feedback pairs. -/
def State.openStamp (s : State) (b : Fin 12) : Nat := (s.outletFb b).foldl (fun m k => max m (fbStamp s.saf.si[k])) 0

/-- The session's command to the contactor is withdrawn by the safe stop. -/
def State.withdrawOutlet (s : State) (b : Fin 12) : State := (s.outletOff b).commandOutlet b false

/-- One bay's safe stop at a scan: OPENING de-energises the outlet pair; OPEN ends it; DONE ends with the demand. -/
def State.stopScan (s : State) (b : Fin 12) : State :=
  let q := s.saf.stops[b]
  match q.st with
  | .gating => if q.trigger != 1 then s.withdrawOutlet b else s
  | .opening =>
    let s := s.withdrawOutlet b
    match q.deadline with
    | none => if (s.outletFb b).isEmpty then s.ssDone b else s.setSs b fun x => { x with deadline := some (s.mt + ms 100) }
    | some d =>
      if s.outletOpenNow b then (if d < s.openStamp b then (s.escalate b).ssDone b else s.ssDone b) else s
  | .escalated => if s.outletOpenNow b then s.ssDone b else s
  | .done =>
    let st := s.bays[b].session.st
    if !s.demandOn b && st != .rampDown && st != .weldCheck then (s.setSs b fun _ => {}).bump 8 else s
  | _ => s

/-- The demands that stand act on a bay (R301, R312, R221). -/
def State.demandScan (s : State) (b : Fin 12) : State :=
  if s.active && (s.bayRec b).isSome && s.demandOn b then
    let now := s.demands.any fun r => targets r b && siImmediate r
    let s := if now then s.removeBay b 2 else s.requestSafeStop b
    s.sessionDemand b
  else s.sessionFree b

/-- The confirmed state of a bay's contactor follows its feedback (R306, R220); a report stamped later than 100 ms after the command comes too
late (R14, R221); a cable check may set its target (R227). -/
def State.outletScan (s : State) (b : Fin 12) : State :=
  let o := s.bays[b].outlet
  let opened := !o.close && s.outletOpenNow b
  let closed := o.close && s.outletClosedNow b
  let s := s.setBay b fun x =>
    { x with outlet := { x.outlet with confirmedOpen := opened, confirmedClosed := closed, commandAt := if opened || closed then none else x.outlet.commandAt } }
  let s := s.bumpIf ((o.close || !o.confirmedOpen) != (o.close || !opened)) 4
  let late := (opened || closed) && (match o.commandAt with | some c => expired (s.openStamp b) (c + ms 100) | none => false)
  let s := if late && s.active && (s.bayRec b).isSome then s.contactorFail b else s
  if opened && !o.confirmedOpen && s.active then (s.contactorOpen b).leaveFault b
  else if closed && !late && !o.confirmedClosed && s.active then s.tryCableTarget b
  else s

/-! ## Controller faults (R319) and the scan (R296) -/

/-- CTRL_FAULT: every SO pair de-energises, every stall takes the fast path, ACTIVE is released. -/
def State.ctrlFail (s : State) : State :=
  if s.saf.ctrlFault then s
  else
    let s := { s with saf := { s.saf with ctrlFault := true } }
    let s := (s.log 0x0805 0xFF 0 0).allOff
    (s.forAll 64 fun n s => s.fastPath n 8).releaseActive 3

/-- Does a scan fall at `t` (R296)? -/
def State.scanAt (s : State) (t : Nat) : Bool :=
  if s.pwr.st == .dormant then t % 1000000 == 0 else s.live && t % 50000 == 0

/-- The TP outputs that limit their current at a scan join those that have, until the last scan within their next pulse has judged the
channels they feed (R504; DEDUCED, log 147). -/
def State.noteLimits (s : State) (t : Nat) (limiting : List Bool) : State :=
  { s with saf := { s.saf with
      tpLimited := vmap (fun q old => limiting.getD q.val false || (old && !s.lastInPulse (some q.val) t)) s.saf.tpLimited } }

/-- A scan begins. -/
def State.startScan (s : State) (t : Nat) : State := { s with saf := { s.saf with lastScan := t, scanned := true } }

/-- Every SI pair at a scan (R297). -/
def State.scanPairs (s : State) (t : Nat) (rd : ScanReadings) : State :=
  (s.forAll 16 fun k s => s.scanPair t k (rd.a.getD k.val false) (rd.b.getD k.val false)).noteLimits t rd.limiting

/-- The outputs of every SO pair that is off are read at every scan, and what its feedback confirms is judged (R309, R310). -/
def State.readSo (s : State) (t : Nat) (rd : ScanReadings) : State :=
  s.soPairs.foldl (fun s x => (s.readBack x.1 (rd.hsConducts.getD x.1.val false) (rd.lsConducts.getD x.1.val false)).confirmSo t x.1 x.2) s

/-- What follows from the pairs at a scan of a module that runs: the demands, the safe stops, the SO pairs, the contactors. -/
def State.scanActs (s : State) (t : Nat) : State :=
  let s := s.forAll 12 fun b s => (s.demandScan b).stopScan b
  let s := s.forAll 12 fun b s => if s.active then s.checkInsulation b else s
  let s := s.soPairs.foldl (fun s x => s.driveSo x.1 x.2) s
  (s.forAll 12 fun b s => s.outletScan b).retake

/-- SAFETY_SCAN (R297): every SI channel is sampled and filtered, then what follows from it is decided. In DORMANT the pairs are
evaluated and the outputs of the SO pairs, all off, are read. -/
def doSafetyScan (t : Nat) (rd : ScanReadings) : State → State := fun s =>
  let s := s.arrive t
  if !s.scanAt t then s
  else
    let s := s.startScan t
    let s := ((if rd.agree then s else s.ctrlFail).scanPairs t rd).readSo t rd
    if s.live then s.scanActs t else s

/-! ## Commands on pairs -/

/-- Address of SAF.CTRL. -/
def safCtrl : Nat := 0x00700000

/-- A selected pair outside 0 to 15. -/
def selBad (sel : Nat) : Option Answer := refuseIf (decide (15 < sel)) (deny .range)

/-- The effect of SI_RESET (R305): a pair with RESET = 1 leaves WAIT_RESET while neither channel is in demand. -/
def State.siReset (s : State) (sel : Nat) : State :=
  let s := { s with saf := { s.saf with sel } }
  match fin? 16 sel, s.safRec 1 sel with
  | some k, some r => if siType r != 2 && siManual r && s.saf.si[k].st == .waitReset && !inDemand r s.saf.si[k] then s.goSi k .idle id else s
  | _, _ => s

/-- Is the cause of an SO fault no longer present (R310)? -/
def State.causeGone (s : State) (k : Fin 16) (r : SafRec) : Bool :=
  let p := s.saf.so[k]
  match p.cause with
  | 1 => !p.hsBad
  | 2 => !p.lsBad
  | 3 => decide (p.current ≤ 2000)
  | 4 => decide (p.current ≤ 4000)
  | 6 => (match fbOf r with | some f => !s.saf.si[f].mismatch && fbOpen s.saf.si[f] | none => true)
  | _ => true

/-- The effect of SO_CLEAR: the pair is OFF until it passes one switch test. -/
def State.soClear (s : State) (sel : Nat) : State :=
  let s := { s with saf := { s.saf with sel } }
  match fin? 16 sel, s.safRec 2 sel with
  | some k, some r =>
    if s.saf.so[k].st == .fault && s.causeGone k r then (s.setSo k fun p => { p with st := .off, cause := 0, needTest := true }).bump 8 else s
  | _, _ => s

/-- SI_RESET (R305). -/
def doSiReset (t : Nat) (m : Master) (sel : Nat) : State → State :=
  whenLive t fun s => s.command m safCtrl (firstOf (foreign s m) (selBad sel)) fun s => s.siReset sel

/-- SO_CLEAR (R310). -/
def doSoClear (t : Nat) (m : Master) (sel : Nat) : State → State :=
  whenLive t fun s => s.command m safCtrl (firstOf (foreign s m) (selBad sel)) fun s => s.soClear sel

/-- The effect of CLR_CNT of SAF.CTRL. -/
def State.safClear (s : State) : State :=
  { s with saf := { s.saf with si := vmap (fun _ p => { p with demands := 0, blips := 0, faults := 0 }) s.saf.si, so := vmap (fun _ p => { p with count := 0 }) s.saf.so } }

/-- SAF_CLR_CNT (R329). -/
def doSafClrCnt (t : Nat) (m : Master) : State → State :=
  whenLive t fun s => s.command m safCtrl (foreign s m) fun s => s.safClear

/-! ## Unlocks (R322 to R324, R405, R406) -/

/-- Remaining lockout at `t`, ns. -/
def Unlock.remaining (u : Unlock) (t : Nat) : Nat := if u.lockout then u.remNs - (t - u.lockFrom) else 0

/-- A failed response (R323): from the fifth on a lockout of 15 minutes, doubled each time up to 24 hours. -/
def Unlock.fail (u : Unlock) (t : Nat) : Unlock :=
  let n := satInc 8 u.fails
  if 5 ≤ n then
    let d := if u.lastNs = 0 then secs 900 else min (secs 86400) (2 * u.lastNs)
    { u with fails := n, lockout := true, remNs := d, lockFrom := t, lastNs := d }
  else { u with fails := n, lockout := false }

/-- A correct response: 30 minutes of unlock for the master. -/
def Unlock.pass (u : Unlock) (t : Nat) (m : Master) : Unlock :=
  { u with st := .unlocked, owner := m, deadline := t + secs 1800, fails := 0, lockout := false, remNs := 0, lastNs := 0 }

/-- The refusal of an UNLOCK in a lockout. -/
def Unlock.locked (u : Unlock) (t : Nat) : Option Answer := refuseIf (decide (0 < u.remaining t)) (deny .state)

/-- A new nonce for the safety unlock. -/
def State.newSafNonce (s : State) : State :=
  let r := s.drawBytes 16
  { r.2 with saf := { r.2.saf with unlock := { r.2.saf.unlock with nonce := r.1 } } }

/-- DEVICE_ID as in a receipt (R289). -/
def deviceIdBytes (s : State) : Bytes := leBytes 8 s.fuses.deviceId

/-- Does SAF.RESP answer the nonce (R322)? Without a password there is no key it could be made with. -/
def safResponseOk (s : State) : Bool :=
  !s.saf.noPw && s.saf.unlock.resp == (hmac256 s.saf.pwKey (s.saf.unlock.nonce ++ deviceIdBytes s)).take 16

/-- The safety unlock changed. -/
def State.setSafLock (s : State) (f : Unlock → Unlock) : State := { s with saf := { s.saf with unlock := f s.saf.unlock } }

/-- An UNLOCK that is checked, with its answer (R322, R323, R325): a wrong response is counted and answered DENIED. A right one while
unlocked leaves the staged copy, which only expiry and a reset discard (R324). -/
def State.safTry (s : State) (m : Master) : State × Answer :=
  if safResponseOk s then
    let st : SafStage := s.saf.staged.getD { ssRamp := s.saf.ssRamp, tolPct := s.saf.tolPct }
    let was := s.saf.unlock.st
    let s := s.setSafLock fun u => u.pass s.mt m
    (({ s with saf := { s.saf with staged := some st } }).bumpIf (was != LockSt.unlocked) 8, okAnswer)
  else
    let s := (s.setSafLock fun u => u.fail s.mt).changeLog m 4 s.saf.digest
    (if s.saf.unlock.lockout then s.changeLog m 5 s.saf.digest else s, deny .none)

/-- The UNLOCK of SAF.CTRL with its answer; a new nonce follows every write. -/
def State.safUnlock (s : State) (m : Master) : State × Answer :=
  match s.saf.unlock.locked s.mt with
  | some a => (s.newSafNonce, a)
  | none => let r := s.safTry m; (r.1.newSafNonce, r.2)

/-- Is a slot CHECKING or PENDING (R324)? -/
def State.changing (s : State) : Bool := s.prof.slots.toList.any fun x => x.st == .checking || x.st == .pending

/-- The refusal of a write or command that needs the safety unlock. -/
def safGuard (s : State) : Option Answer :=
  match s.saf.unlock.st with | .unlocked => none | .locked => some ⟨.locked, .none⟩ | .sealed => some ⟨.sealed, .none⟩

/-- The unlock of SAF ends (R324): SEALED, the staged copy gone. -/
def State.safLockAgain (s : State) : State :=
  let s := s.setSafLock fun u => { u with st := .sealed }
  ({ s with saf := { s.saf with staged := none } }).bump 8

/-- The refusal of SEAL. -/
def safSealRefusal (s : State) : Option Answer :=
  if s.saf.unlock.st ≠ .unlocked then some ⟨.locked, .none⟩
  else if s.changing then some ⟨.busy, .state⟩
  else firstOf (refuseIf s.logFull (deny .state)) (pfwRefusal s)

/-- The effect of SEAL: the staged copy is applied as one change, with its change-log record (R324, R325); its 35 octets of configuration
come out of the MRAM share (R206; DESIGN CHOICE, log 157). -/
def State.safSeal (s : State) (m : Master) : State :=
  let old := s.saf.digest
  let ramp := match s.saf.staged with | some x => x.ssRamp | none => s.saf.ssRamp
  let tol := match s.saf.staged with | some x => x.tolPct | none => s.saf.tolPct
  let dig := match s.saf.stored with | some x => safDigest x ramp tol | none => old
  let s := ({ s with saf := { s.saf with ssRamp := ramp, tolPct := tol, digest := dig } }).chargePolicy 35
  (s.safLockAgain).changeLog m 1 old

/-- The refusal of PW_SET. -/
def pwSetRefusal (s : State) : Option Answer :=
  if !s.saf.noPw && s.saf.unlock.st != .unlocked then some ⟨.locked, .none⟩ else firstOf (refuseIf s.logFull (deny .state)) (pfwRefusal s)

/-- The effect of PW_SET: SAF.PWK is taken as the password key (R322, R325), 32 octets of the MRAM share (R206; DESIGN CHOICE, log 157). -/
def State.pwSet (s : State) (m : Master) : State :=
  (({ s with saf := { s.saf with pwKey := s.saf.pwk, noPw := false } }).chargePolicy 32).changeLog m 3 s.saf.digest

/-- SAF_UNLOCK (R322). -/
def doSafUnlock (t : Nat) (m : Master) : State → State :=
  whenLive t fun s =>
    match foreign s m with
    | some a => s.answered m true safCtrl a
    | none => let r := s.safUnlock m; r.1.answered m true safCtrl r.2

/-- SAF_SEAL (R324). -/
def doSafSeal (t : Nat) (m : Master) : State → State :=
  whenLive t fun s => s.command m safCtrl (firstOf (foreign s m) (safSealRefusal s)) fun s => s.safSeal m

/-- PW_SET (R322). -/
def doPwSet (t : Nat) (m : Master) : State → State :=
  whenLive t fun s => s.command m safCtrl (firstOf (foreign s m) (pwSetRefusal s)) fun s => s.pwSet m

/-- SAF_UNLOCK_EXPIRY (R324): 30 minutes have passed. -/
def doSafUnlockExpiry (t : Nat) : State → State :=
  whenLive t fun s => if s.saf.unlock.st == .unlocked && expired t s.saf.unlock.deadline then s.safLockAgain else s

/-- SAF_LOCKOUT_END (R323). -/
def doSafLockoutEnd (t : Nat) : State → State :=
  whenLive t fun s =>
    if s.saf.unlock.lockout && s.saf.unlock.remaining t == 0 then (s.setSafLock fun u => { u with lockout := false, remNs := 0 }).bump 8 else s

/-! ## Claims (R327) -/

/-- Is the last completed demand of the pair more than 12 months old? Counted as 365 days of the calendar. -/
def State.proofOld (s : State) (k : Fin 16) : Bool := s.rtc.valid && decide (s.saf.si[k].proof + 31536000 < s.calSeconds)

/-- PROOF_DUE (R327). -/
def doProofDue (t : Nat) (k : Fin 16) : State → State :=
  whenLive t fun s =>
    match s.safRec 1 k.val with
    | some r => if siType r != 2 && s.proofOld k && !s.saf.si[k].proofDue then (s.setSi k fun p => { p with proofDue := true }).bump 8 else s
    | none => s

/-- Does an SO pair act on a demand of the record? -/
def actsOn (r x : SafRec) : Bool :=
  if x.paramA = 0xFF then r.targetMask.testBit 31 else r.targetMask.testBit x.paramA || r.targetMask.testBit 31

/-- Conditions 1 to 3 of R327 for a pair; none holds in the debug view (R439). -/
def State.configOk (s : State) (k : Fin 16) : Bool :=
  match s.safRec 1 k.val with
  | some r =>
    !s.vault.debug && siType r != 2 && decide (r.paramB ≤ 3) && decide (r.paramA ≤ 500000) &&
    (s.soPairs.all fun x => !actsOn r x.2 || (x.2.flags.testBit 5 && decide (x.2.paramB ≤ 10000) && (fbOf x.2).isSome))
  | none => false

/-! ## SAF registers (R329) -/

/-- The field of a pair in SAF.SI_STATE (R329): before the first scan after a reset its reset value, a retained fault state or 0. -/
def siField (s : State) (k : Fin 16) : Nat :=
  let p := s.saf.si[k]
  if !s.saf.scanned then (if siFault p.st then siCode p.st else 0)
  else
    match s.safRec 1 k.val with
    | none => 15
    | some r => if siType r = 2 then (if p.st = .faultTest then 7 else if p.mismatch then 10 else p.report) else siCode p.st

/-- The filtered level of a channel as SAF.SI_LEVEL shows it: 0 before the first scan after a reset (R329). -/
def levelBit (s : State) (c : SiChan) : Nat := b2n (s.saf.scanned && c.level)

/-- The field of a pair in SAF.SO_STATE (R329): before the first scan after a reset its reset value, 2 for FAULT or 0. -/
def soField (s : State) (k : Fin 16) : Nat :=
  if !s.saf.scanned then (if s.saf.so[k].st = .fault then 2 else 0)
  else match s.safRec 2 k.val with
  | none => 3
  | some _ => (match s.saf.so[k].st with | .off => 0 | .on => 1 | .fault => 2)

/-- A sum of fields over the pairs. -/
def pairSum (f : Fin 16 → Nat) : Nat := sumNat ((fins 16).map f)

/-- SAF.STAT.STAGED: does the staged copy differ from the stored values? -/
def stagedDiffers (s : State) : Bool :=
  match s.saf.staged with | some x => x.ssRamp != s.saf.ssRamp || x.tolPct != s.saf.tolPct | none => false

/-- SAF.STAT. -/
def safStat (s : State) : Nat :=
  b2n (s.saf.unlock.st == .unlocked) + b2n (stagedDiffers s) * 2 + b2n s.saf.noPw * 4 + b2n s.saf.unlock.lockout * 8 + b2n s.logFull * 16 +
  b2n s.saf.ctrlFault * 32 + b2n s.saf.escalated * 64 + b2n (s.saf.si.toList.any fun p => p.proofDue) * 128 + s.saf.unlock.fails * 2 ^ 24

/-- Is the bay in RAMP, GATING, OPENING or ESCALATED? -/
def stoppingBit (q : SafeStop) : Bool := match q.st with | .none | .done => false | _ => true

/-- A read of SAF at an offset of the block. -/
def safRead (s : State) (off : Nat) : Option Nat :=
  match off with
  | 0x00 => some (s.saf.sel * 2 ^ 8)
  | 0x04 => some (safStat s)
  | 0x08 => some (sumNat ((List.range 8).map fun i => siField s (finMod 16 i) * 2 ^ (4 * i)))
  | 0x0C => some (sumNat ((List.range 8).map fun i => siField s (finMod 16 (8 + i)) * 2 ^ (4 * i)))
  | 0x10 => some (pairSum fun k => levelBit s s.saf.si[k].a * 2 ^ k.val + levelBit s s.saf.si[k].b * 2 ^ (16 + k.val))
  | 0x14 => some (pairSum fun k => soField s k * 2 ^ (2 * k.val))
  | 0x18 => some (match s.saf.staged with | some x => ssCfgWord x.ssRamp x.tolPct | none => ssCfgWord s.saf.ssRamp s.saf.tolPct)
  | 0x1C => some (sumNat ((fins 12).map fun b => b2n (stoppingBit s.saf.stops[b]) * 2 ^ b.val + b2n (s.demandOn b) * 2 ^ (16 + b.val)))
  | 0x20 => some s.saf.chgCount
  | 0x24 => some (pairSum fun k => b2n (s.configOk k) * 2 ^ k.val + b2n s.saf.si[k].proofDue * 2 ^ (16 + k.val))
  | 0x160 => some ((s.saf.unlock.remaining s.mt + 999999999) / 1000000000)
  | _ =>
    if off % 4 ≠ 0 then none
    else if 0x40 ≤ off ∧ off < 0x80 then
      let p := s.saf.si[(finMod 16 ((off - 0x40) / 4) : Fin 16)]
      some (p.faults + p.blips * 2 ^ 8 + p.demands * 2 ^ 16)
    else if 0x80 ≤ off ∧ off < 0xC0 then
      let p := s.saf.so[(finMod 16 ((off - 0x80) / 4) : Fin 16)]
      some (p.count + p.cause * 2 ^ 28)
    else if 0xC0 ≤ off ∧ off < 0x100 then some s.saf.si[(finMod 16 ((off - 0xC0) / 4) : Fin 16)].proof
    else if 0x100 ≤ off ∧ off < 0x120 then some (wordAt s.saf.digest ((off - 0x100) / 4))
    else if 0x120 ≤ off ∧ off < 0x130 then some (wordAt s.saf.unlock.nonce ((off - 0x120) / 4))
    else if 0x130 ≤ off ∧ off < 0x160 then some 0
    else none

/-- The command bits of SAF.CTRL. -/
def safCommands (v : Nat) : Bool := severalBits v 0x1F

/-- The lock of SEAL and of PW_SET, which comes before any other refusal of the word (R392). -/
def safCtrlLocked (s : State) (v : Nat) : Bool :=
  s.saf.unlock.st != .unlocked && (v.testBit 3 || (v.testBit 4 && !s.saf.noPw))

/-- A write of SAF.CTRL with its answer (R329, R518): SEL is set, then the command acts on it. -/
def State.safCtrlWrite (s : State) (m : Master) (v : Nat) : State × Answer :=
  let sel := bits v 8 5
  if safCtrlLocked s v then (s, ⟨.locked, .none⟩)
  else if safCommands v || decide (15 < sel) then (s, deny .range)
  else
    let r : State × Answer :=
      if v.testBit 2 then ({ s with saf := { s.saf with sel } }).safUnlock m
      else if v.testBit 3 then
        (match safSealRefusal s with | some a => (s, a) | none => (({ s with saf := { s.saf with sel } }).safSeal m, okAnswer))
      else if v.testBit 4 then
        (match pwSetRefusal s with | some a => (s, a) | none => (({ s with saf := { s.saf with sel } }).pwSet m, okAnswer))
      else if v.testBit 0 then (s.siReset sel, okAnswer)
      else if v.testBit 1 then (s.soClear sel, okAnswer)
      else ({ s with saf := { s.saf with sel } }, okAnswer)
    if v.testBit 5 && r.2 == okAnswer then (r.1.safClear, okAnswer) else r

/-- A write of SAF at an offset of the block, but for SAF.CTRL. -/
def safWrite (s : State) (off v : Nat) : Option RegEffect :=
  match off with
  | 0x04 => some (none, fun s => if v.testBit 6 then ({ s with saf := { s.saf with escalated := false } }).bumpIf s.saf.escalated 8 else s)
  | 0x18 =>
    let ramp := bits v 0 16
    let tol := bits v 16 8
    some (firstOf (safGuard s) (refuseIf (!decide (5 ≤ ramp ∧ ramp ≤ 500 ∧ 1 ≤ tol ∧ tol ≤ 20)) (deny .range)), fun s =>
      let was := stagedDiffers s
      let s := { s with saf := { s.saf with staged := some ⟨ramp, tol⟩ } }
      s.bumpIf (was != stagedDiffers s) 8)
  | _ =>
    if off % 4 = 0 ∧ 0x130 ≤ off ∧ off < 0x140 then
      some (none, fun s => s.setSafLock fun u => { u with resp := putWord u.resp ((off - 0x130) / 4) (word v) })
    else if off % 4 = 0 ∧ 0x140 ≤ off ∧ off < 0x160 then
      some (none, fun s => { s with saf := { s.saf with pwk := putWord s.saf.pwk ((off - 0x140) / 4) (word v) } })
    else (safRead s off).map fun _ => roWord

/-! ## Meanings -/

/-- Meaning of SAFETY_SCAN (R297). -/
def execSafetyScan (t : Nat) (rd : ScanReadings) (s : State) : Host.Outcome State Fault Refusal :=
  .next (doSafetyScan t rd s)

/-- Meaning of DISCREPANCY_TIMEOUT (R303). -/
def execDiscrepancyTimeout (t : Nat) (pair : Fin 16) (s : State) : Host.Outcome State Fault Refusal :=
  .next (doDiscrepancyTimeout t pair s)

/-- Meaning of TEST_PULSE (R299). -/
def execTestPulse (t : Nat) (source : Fin 4) (s : State) : Host.Outcome State Fault Refusal :=
  .next (doTestPulse t source s)

/-- Meaning of SWITCH_TEST (R309). -/
def execSwitchTest (t : Nat) (pair : Fin 16) (low : Bool) (conducts : Bool) (s : State) : Host.Outcome State Fault Refusal :=
  .next (doSwitchTest t pair low conducts s)

/-- Meaning of SO_CURRENT_FAULT (R310). -/
def execSoCurrentFault (t : Nat) (pair : Fin 16) (current : Nat) (lasted : Nat) (s : State) : Host.Outcome State Fault Refusal :=
  .next (doSoCurrentFault t pair current lasted s)

/-- Meaning of FEEDBACK_MISMATCH (R306). -/
def execFeedbackMismatch (t : Nat) (pair : Fin 16) (s : State) : Host.Outcome State Fault Refusal :=
  .next (doFeedbackMismatch t pair s)

/-- Meaning of SI_RESET (R305). -/
def execSiReset (t : Nat) (m : Master) (sel : Nat) (s : State) : Host.Outcome State Fault Refusal :=
  .next (doSiReset t m sel s)

/-- Meaning of SO_CLEAR (R310). -/
def execSoClear (t : Nat) (m : Master) (sel : Nat) (s : State) : Host.Outcome State Fault Refusal :=
  .next (doSoClear t m sel s)

/-- Meaning of SAF_UNLOCK (R322). -/
def execSafUnlock (t : Nat) (m : Master) (s : State) : Host.Outcome State Fault Refusal :=
  .next (doSafUnlock t m s)

/-- Meaning of SAF_SEAL (R324). -/
def execSafSeal (t : Nat) (m : Master) (s : State) : Host.Outcome State Fault Refusal :=
  .next (doSafSeal t m s)

/-- Meaning of PW_SET (R322). -/
def execPwSet (t : Nat) (m : Master) (s : State) : Host.Outcome State Fault Refusal :=
  .next (doPwSet t m s)

/-- Meaning of SAF_CLR_CNT (R329). -/
def execSafClrCnt (t : Nat) (m : Master) (s : State) : Host.Outcome State Fault Refusal :=
  .next (doSafClrCnt t m s)

/-- Meaning of SAF_UNLOCK_EXPIRY (R324). -/
def execSafUnlockExpiry (t : Nat) (s : State) : Host.Outcome State Fault Refusal :=
  .next (doSafUnlockExpiry t s)

/-- Meaning of SAF_LOCKOUT_END (R323). -/
def execSafLockoutEnd (t : Nat) (s : State) : Host.Outcome State Fault Refusal :=
  .next (doSafLockoutEnd t s)

/-- Meaning of PROOF_DUE (R327). -/
def execProofDue (t : Nat) (pair : Fin 16) (s : State) : Host.Outcome State Fault Refusal :=
  .next (doProofDue t pair s)

end Sys2Proof.Machine
end

