-- ==== Sys2Proof/Machine/SiteBus.lean ====
section
/-! DEFINITION. The site bus (12): the schedule matrix and its grids (R360, R367, R368), references, the transmit queues
(R369, R370), transmit-at-time buffers (R372 to R375), reception and staleness (R376, R377), errors (R378), sleep and wake
(R379 to R381), the load condition of R486, the SBUS registers (R383). -/
namespace Sys2Proof.Machine

/-! ## Fields -/

/-- The SBUS block changed. -/
def State.setBus (s : State) (f : SiteBus → SiteBus) : State := { s with sbus := f s.sbus }

/-- Channel `n` changed. -/
def State.setCh (s : State) (n : Fin 2) (f : Channel → Channel) : State := s.setBus fun b => { b with ch := vupd b.ch n f }

/-- Mailbox `k` changed. -/
def State.setBox (s : State) (k : Fin 8) (f : Mailbox → Mailbox) : State := s.setBus fun b => { b with boxes := vupd b.boxes k f }

/-- Transmit-at-time buffer `k` changed. -/
def State.setTat (s : State) (k : Fin 4) (f : TatBuf → TatBuf) : State := s.setBus fun b => { b with tats := vupd b.tats k f }

/-- Receive slot `k` changed. -/
def State.setRx (s : State) (k : Fin 32) (f : RxSlot → RxSlot) : State := s.setBus fun b => { b with slots := vupd b.slots k f }

/-- Code of a result (R375). -/
def txCode : TxResult → Nat
  | .empty => 0 | .pending => 1 | .sending => 2 | .sent => 3 | .sentCancelLate => 4 | .cancelled => 5 | .errorNoRetry => 6
  | .missedBusy => 7 | .notActive => 8 | .noSync => 9

/-- Is a frame waiting or on the wire? -/
def txBusy (r : TxResult) : Bool := r == .pending || r == .sending

/-- Data bytes of a DLC (ISO 11898-1). -/
def dlcLen (fd : Bool) (dlc : Nat) : Nat :=
  if dlc ≤ 8 then dlc
  else if !fd then 8
  else match dlc with | 9 => 12 | 10 => 16 | 11 => 20 | 12 => 24 | 13 => 32 | 14 => 48 | _ => 64

/-- BRS of a frame as the channel sends it: with DATA = 0, FD frames are sent without BRS (R358). -/
def Channel.brsOf (c : Channel) (brs : Bool) : Bool := brs && c.dataRate != 0

/-- T_FRAME of a frame on a channel (R359). -/
def Channel.frameNs (c : Channel) (ext fd brs : Bool) (n : Nat) : Nat := tFrame c.nomRate c.dataRate ext (fd && brs) n

/-- One bit at the nominal rate, ns. -/
def Channel.bitNs (c : Channel) : Nat := 1000000000 / nomRateOf c.nomRate

/-! ## The matrix (R360, R517) -/

/-- The windows of a channel in the active image, with their record indices. -/
def State.busWindows (s : State) (ch : Fin 2) : List (Nat × BusWin) :=
  match s.prof.image with
  | some i => ((List.range i.bus.length).zip i.bus).filter fun w => w.2.channel == ch.val
  | none => []

/-- Is the channel in use (R517)? -/
def State.chInUse (s : State) (ch : Fin 2) : Bool := !s.running || !(s.busWindows ch).isEmpty

/-- Has the channel SYNC? One that is not in use never has (R517). -/
def State.chSync (s : State) (ch : Fin 2) : Bool := s.chInUse ch && s.sbus.ch[ch].sync

/-- Is the module time master (R365)? -/
def State.busMaster (s : State) : Bool := s.active && s.running

/-- SBUS_CYCLE_NS and SBUS_CYCLES of the active image. -/
def State.busCycle (s : State) : Nat × Nat := match s.prof.image with | some i => (i.header.sbusCycleNs, i.header.sbusCycles) | none => (1000000, 1)

/-- Start and index of the basic cycle at `t`: on the master's market time, or on the follower's grid (R360, R367). -/
def State.cycleAt (s : State) (ch : Fin 2) (t : Nat) : Nat × Nat :=
  let q := s.busCycle
  let c := s.sbus.ch[ch]
  if c.lead then (t / q.1 * q.1, (t / q.1) % q.2)
  else
    let k := (t - c.gridStart) / q.1
    (c.gridStart + k * q.1, (c.cycle + k) % q.2)

/-- Does a window occur in basic cycles of index `c`? -/
def occursIn (w : BusWin) (c : Nat) : Bool := c % w.rep == w.baseCycle % w.rep

/-- The window whose occurrence covers `t`, with its record index and the start of the occurrence. -/
def State.windowAt (s : State) (ch : Fin 2) (t : Nat) : Option (Nat × BusWin × Nat) :=
  let p := s.cycleAt ch t
  ((s.busWindows ch).find? fun w => occursIn w.2 p.2 && decide (p.1 + w.2.startNs ≤ t ∧ t < p.1 + w.2.startNs + w.2.lengthNs)).map
    fun w => (w.1, w.2, p.1 + w.2.startNs)

/-- The first SOF at or after `after` of a window's occurrences, `off` ns into them. -/
def State.nextSof (s : State) (ch : Fin 2) (w : BusWin) (off after : Nat) : Option Nat :=
  let p := s.cycleAt ch after
  let q := s.busCycle
  ((List.range (2 * q.2 + 2)).find? fun k => occursIn w ((p.2 + k) % q.2) && decide (after ≤ p.1 + k * q.1 + w.startNs + off)).map
    fun k => p.1 + k * q.1 + w.startNs + off

/-- Has the channel gone quiet for first attempts: the bus asleep, or the fourth reference with SLEEP_ANN past (R379)? -/
def State.quiet (s : State) (ch : Fin 2) : Bool := s.sbus.bus == .asleep || (s.sbus.bus == .announcing && s.sbus.ch[ch].announce == 0)

/-- Is the bus awake enough to start a frame: not asleep, not bus-off, in SYNC while a profile is active (R365, R367, R379)? -/
def State.mayStart (s : State) (ch : Fin 2) : Bool :=
  s.chInUse ch && s.sbus.bus != .asleep && s.sbus.ch[ch].err != 2 && (!s.running || s.chSync ch) && s.sbus.ch[ch].wire == .none

/-! ## Condition BUS_LOAD (R486) -/

/-- BUS_LOAD is set: counted and kept (R487). -/
def State.setBusLoad (s : State) : State :=
  if s.assume.busLoad then s
  else ({ s with assume := { s.assume with busLoad := true, busLoadS := true, cntBusLoad := satInc 16 s.assume.cntBusLoad } }).bump 0

/-- Has the head frame of the channel waited through four arbitrating occurrences: the fourth has ended, or a fifth has begun? -/
def State.headLate (s : State) (ch : Fin 2) : Bool :=
  let c := s.sbus.ch[ch]
  decide (5 ≤ c.headWait ∨ (c.headWait = 4 ∧ c.occEnd ≤ s.mt))

/-- A head frame that has waited through its fourth occurrence sets BUS_LOAD. -/
def State.judgeBusLoad (s : State) : State := if s.headLate 0 || s.headLate 1 then s.setBusLoad else s

/-- BUS_LOAD clears when every head frame that waited has completed, WRONG_WIN has not risen for 1 s and every channel in
use has SYNC. -/
def State.clearBusLoad (s : State) : State :=
  let quiet := match s.assume.wrongWinAt with | some q => decide (q + secs 1 ≤ s.mt) | none => true
  let ok := (fins 2).all fun c => !s.headLate c && (!s.chInUse c || s.sbus.ch[c].sync)
  if s.assume.busLoad && quiet && ok then ({ s with assume := { s.assume with busLoad := false } }).bump 0 else s

/-- WRONG_WIN rises (R361, R377, R486). -/
def State.wrongWindow (s : State) (ch : Fin 2) : State :=
  let s := s.setCh ch fun c => { c with wrongWin := satInc 16 c.wrongWin }
  (({ s with assume := { s.assume with wrongWinAt := some s.mt } }).setBusLoad)

/-! ## SYNC and sleep -/

/-- The channel has SYNC. -/
def State.gainSync (s : State) (ch : Fin 2) : State := ((s.setCh ch fun c => { c with sync := true, missRun := 0 }).bumpIf (!s.sbus.ch[ch].sync) 10).clearBusLoad

/-- The bus in a state of its own, with SUM10. -/
def State.busState (s : State) (b : BusSt) : State := (s.setBus fun x => { x with bus := b, busSince := if x.bus = b then x.busSince else s.mt }).bumpIf (s.sbus.bus != b) 10

/-- Every channel in use has announced sleep four times: the bus is asleep (R379). -/
def State.sleepWhenAnnounced (s : State) : State :=
  if s.sbus.bus == .announcing && ((fins 2).all fun c => !s.chInUse c || (s.sbus.ch[c].announce == 0 && s.sbus.ch[c].wire != .reference)) then s.busState .asleep
  else s

/-- Sleep is announced from the next reference on (R379). -/
def State.startSleep (s : State) : State :=
  let s := s.setBus fun b => { b with ch := vmap (fun _ c => { c with announce := 4 }) b.ch }
  (s.busState .announcing).sleepWhenAnnounced

/-- A wake event (R380): announcing stops, or a sleeping bus wakes with DISC = 1 (DEDUCED, log 144: with the error count at 0). -/
def State.busWakes (s : State) (src : Nat) : State :=
  match s.sbus.bus with
  | .awake => s.setBus fun b => { b with sleep := false }
  | .announcing => (s.setBus fun b => { b with sleep := false, wakeSrc := src, ch := vmap (fun _ c => { c with announce := 0 }) b.ch }).busState .awake
  | .asleep =>
    (s.setBus fun b => { b with sleep := false, wakeSrc := src, wokeAt := some s.mt, wakeErr := 0, ch := vmap (fun _ c => { c with announce := 0, disc := true }) b.ch }).busState .awake

/-! ## References (R365 to R368) -/

/-- The payload of a reference (R366). -/
def referencePayload (c flags count prev : Nat) : Bytes := [byte c, byte flags] ++ leBytes 2 (count % 65536) ++ leBytes 8 prev

/-- The reference window of a channel that starts at `t` on the master's market time, with the start of its basic cycle. -/
def State.referenceStart (s : State) (ch : Fin 2) (t : Nat) : Option (BusWin × Nat) :=
  let q := s.busCycle
  let start := t / q.1 * q.1
  ((s.busWindows ch).find? fun w => w.2.kind == 2 && occursIn w.2 (t / q.1 % q.2) && decide (start + w.2.startNs = t)).map fun w => (w.2, start)

/-- May the module begin to lead at this reference: in lite pair at least one basic cycle after the last one it followed, and
at least 2 ms after a wake (R368, R380)? -/
def State.mayLead (s : State) (ch : Fin 2) (t start : Nat) : Bool :=
  let c := s.sbus.ch[ch]
  (c.lead || s.pair.mode != .lite || decide (c.prevSof + s.busCycle.1 ≤ t) || c.prevSof == 0) &&
  (match s.sbus.wokeAt with | some w => decide (w + ms 2 ≤ start) | none => true)

/-- Does a reference that starts with its window end within it (R362)? -/
def Channel.referenceFits (c : Channel) (w : BusWin) : Bool := decide (c.frameNs (w.canId.testBit 31) true (c.brsOf true) 12 ≤ w.lengthNs)

/-- The reference message of window `w` with its payload (R365): an FD frame of 12 bytes, with BRS unless DATA = 0. -/
def Channel.reference (c : Channel) (w : BusWin) (payload : Bytes) : CanFrame :=
  { ext := w.canId.testBit 31, id := w.canId % 2 ^ 29, fd := true, brs := c.brsOf true, esi := c.err == 1, remote := false, dlc := 9, data := payload }

/-- REFERENCE_SEND (R365, R366, R368): SOF of a reference of the time master. A channel that has announced sleep four times sends none
while another channel still announces (R379). -/
def doReferenceSend (t : Nat) (ch : Fin 2) : State → State :=
  whenLive t fun s =>
    let c := s.sbus.ch[ch]
    match s.referenceStart ch t with
    | some (w, start) =>
      if s.busMaster && s.chInUse ch && !s.quiet ch && c.err != 2 && c.wire == .none && s.mayLead ch t start && c.referenceFits w then
        let q := s.busCycle
        let disc := c.disc || (!c.lead && s.pair.mode == .lite)
        let ann := s.sbus.bus == .announcing && decide (0 < c.announce)
        let flags := s.pair.side + 2 * b2n disc + 4 * b2n ann
        let pay := referencePayload (t / q.1 % q.2) flags (t / q.1 / q.2) (if disc then 0 else c.prevSof)
        let s := s.setCh ch fun c => { c with lead := true, disc := false, prevSof := t, refOut := some (c.reference w pay), wire := .reference, announce := if ann then c.announce - 1 else c.announce }
        s.gainSync ch
      else s
    | none => s

/-- The reference window a received reference belongs to: the one under way on the grid, else the first of its cycle. -/
def State.referenceFor (s : State) (ch : Fin 2) (t c : Nat) : Option BusWin :=
  match s.windowAt ch t with
  | some (_, w, _) => if w.kind = 2 ∧ occursIn w c then some w else ((s.busWindows ch).find? fun w => w.2.kind == 2 && occursIn w.2 c).map (·.2)
  | none => ((s.busWindows ch).find? fun w => w.2.kind == 2 && occursIn w.2 c).map (·.2)

/-- A follower hears SLEEP_ANN: after the fourth such reference of every channel in use it is asleep (R379). -/
def State.hearAnnounce (s : State) (ch : Fin 2) (ann : Bool) : State :=
  if s.sbus.bus == .asleep then s
  else if ann then
    let s := if s.sbus.bus == .awake then (s.setBus fun b => { b with ch := vmap (fun _ c => { c with announce := 4 }) b.ch }).busState .announcing else s
    (s.setCh ch fun c => { c with announce := c.announce - 1 }).sleepWhenAnnounced
  else if s.sbus.bus == .announcing then (s.setBus fun b => { b with ch := vmap (fun _ c => { c with announce := 0 }) b.ch }).busState .awake
  else s

/-- REFERENCE_RECEIVED (R367): a valid reference with SOF stamp `t` replaces the follower's grid. -/
def doReferenceReceived (t : Nat) (ch : Fin 2) (payload : Bytes) : State → State :=
  whenLive t fun s =>
    let c := u8 payload 0
    if s.running && s.chInUse ch && !s.sbus.ch[ch].lead && payload.length == 12 && decide (c < s.busCycle.2) then
      match s.referenceFor ch t c with
      | some w =>
        let s := s.setCh ch fun x => { x with gridStart := t - w.startNs, cycle := c, prevSof := t, disc := false }
        (s.gainSync ch).hearAnnounce ch ((u8 payload 1).testBit 2)
      | none => s
    else s

/-- REFERENCE_MISSING (R367): the third in a row clears SYNC. -/
def doReferenceMissing (t : Nat) (ch : Fin 2) : State → State :=
  whenLive t fun s =>
    if s.running && s.chInUse ch && !s.sbus.ch[ch].lead then
      let s := s.setCh ch fun c => { c with missRun := min 3 (c.missRun + 1), refMiss := satInc 8 c.refMiss }
      if decide (3 ≤ s.sbus.ch[ch].missRun) && s.sbus.ch[ch].sync then
        let s := s.setCh ch fun c => { c with sync := false }
        (s.log 0x0A02 ch.val s.sbus.ch[ch].refMiss 0).setBusLoad
      else s
    else s

/-! ## Error states (R357, R378) -/

/-- The error state of counters (ISO 11898-1). -/
def errOf (tec rec_ : Nat) : Nat := if 255 < tec then 2 else if 127 < tec ∨ 127 < rec_ then 1 else 0

/-- The counters of a channel change; each entry to error-passive or bus-off and each recovery is recorded. -/
def State.setErr (s : State) (ch : Fin 2) (tec rec_ : Nat) : State :=
  let e := errOf tec rec_
  let old := s.sbus.ch[ch].err
  let s := s.setCh ch fun c => { c with tec := min 255 tec, rec_ := min 255 rec_, err := e, busOff := if e = 2 ∧ old ≠ 2 then satInc 8 c.busOff else c.busOff }
  if e = old then s else s.log 0x0A01 ch.val e (min 255 tec)

/-- BUS_OFF_RECOVERY (R357, R378). -/
def doBusOffRecovery (t : Nat) (ch : Fin 2) : State → State :=
  whenLive t fun s => if s.sbus.ch[ch].err = 2 then s.setErr ch 0 0 else s

/-- The wake decoder counts an erroneous frame of its channel up (R382); it ignores an FD frame once FDF is recognised. -/
def State.wakeBad (s : State) (ch : Fin 2) (how : RxErr) : State :=
  if s.sbus.wakeCh = ch.val ∧ s.sbus.wakeMode.testBit 2 ∧ how = .detected false then s.setBus fun b => { b with wakeErr := b.wakeErr + 1 } else s

/-- The wake decoder counts a valid frame of its channel down (R382). FD frames and remote frames are ignored. -/
def State.wakeGood (s : State) (ch : Fin 2) (f : CanFrame) : State :=
  if s.sbus.wakeCh = ch.val ∧ !f.fd ∧ !f.remote then s.setBus fun b => { b with wakeErr := b.wakeErr - 1 } else s

/-- How far the receive error counter rises. PRESUMED (ISO 11898-1, log 80). -/
def rxCount : RxErr → Nat | .detected _ => 1 | .flag => 8

/-- CAN_RX_ERROR (R378, R382): the receive error counter rises, and with it the wake decoder's counter on its channel. In DORMANT only
the wake decoder listens. -/
def doCanRxError (t : Nat) (ch : Fin 2) (how : RxErr) : State → State :=
  whenScanning t fun s =>
    let c := s.sbus.ch[ch]
    let w := s.wakeBad ch how
    if !s.live then w
    else if c.err = 2 ∨ !s.chInUse ch then w
    else w.setErr ch c.tec (c.rec_ + rxCount how)

/-! ## Sending from the queue (R369, R370) -/

/-- The arbitrating occurrence that covers `t`: start and length. Without a profile, each millisecond is one (R365). -/
def State.arbOccurrence (s : State) (ch : Fin 2) (t : Nat) : Option (Nat × Nat) :=
  if !s.running then some (t / 1000000 * 1000000, 1000000)
  else
    match s.windowAt ch t with
    | some (_, w, start) => if w.kind = 1 then some (start, w.lengthNs) else none
    | none => none

/-- A frame joins its channel's queue (R369). -/
def State.queueFrame (s : State) (ch : Fin 2) (f : TxFrame) : State := s.setCh ch fun c => { c with queue := c.queue ++ [f] }

/-- T_FRAME of a queued frame. -/
def txNs (c : Channel) (f : TxFrame) : Nat := c.frameNs f.ext f.fd f.brs (dlcLen f.fd f.dlc)

/-- A mailbox reports a result, a status that counts (R402). -/
def State.boxResult (s : State) (box : Nat) (r : TxResult) : State :=
  match fin? 8 box with
  | some k => (s.setBox k fun x => { x with result := r, cancelHeld := x.cancelHeld && txBusy r }).bump 10
  | none => s

/-- A new occurrence begins: nothing is charged yet; a head frame that has waited through four of them is reported. -/
def State.enterOccurrence (s : State) (ch : Fin 2) (start len : Nat) : State :=
  let c := s.sbus.ch[ch]
  if c.occStart = start ∧ c.occEnd = start + len then s
  else
    (s.setCh ch fun c => { c with charged := 0, occStart := start, occEnd := start + len,
                                  headWait := if c.queue.isEmpty then 0 else min 5 (c.headWait + 1) }).judgeBusLoad

/-- May the frame start at `t`: R362, and for a first attempt the share of R369? -/
def mayAttempt (c : Channel) (f : TxFrame) (t : Nat) : Bool :=
  decide (t + txNs c f ≤ c.occEnd) && (decide (0 < f.attempts) || decide (2 * (c.charged + txNs c f) ≤ c.occEnd - c.occStart))

/-- The attempt of the head frame starts at the present commit point: charged, counted, on the wire. -/
def State.startAttempt (s : State) (ch : Fin 2) (f : TxFrame) (rest : List TxFrame) : State :=
  let retry := decide (0 < f.attempts)
  let s := s.setCh ch fun c =>
    { c with queue := { f with brs := c.brsOf f.brs, attempts := f.attempts + 1, commitAt := s.mt, retxAt := c.retx } :: rest, charged := c.charged + txNs c f, wire := .queued,
             retx := if retry then satInc 8 c.retx else c.retx }
  if f.kind = 3 then
    match fin? 8 f.box with
    | some k => (s.setBox k fun x => { x with result := .sending, attempts := satInc 16 x.attempts }).bump 10
    | none => s
  else s

/-- ARBITRATING_WINDOW (R369, R370, R373): at `t`, the commit point of an SOF in an arbitrating occurrence, a frame of the queue may
start (DEDUCED, log 141: the stamp is the commit point). -/
def doArbitratingWindow (t : Nat) (ch : Fin 2) (busIdle : Bool) : State → State :=
  whenLive t fun s =>
    let s := s.judgeBusLoad
    let sof := t + s.sbus.ch[ch].bitNs
    match s.arbOccurrence ch sof with
    | none => s
    | some (start, len) =>
      let s := s.enterOccurrence ch start len
      let c := s.sbus.ch[ch]
      if busIdle && s.mayStart ch then
        match c.queue with
        | f :: rest => if mayAttempt c f sof && (decide (0 < f.attempts) || !s.quiet ch) then s.startAttempt ch f rest else s
        | [] => s
      else s

/-! ## Transmit-at-time buffers (R372, R373) -/

/-- The exclusive window a buffer names, where it still is one of its channel with its identifier. -/
def State.tatWindow (s : State) (channel window id : Nat) (ext : Bool) : Option (Fin 2 × BusWin) :=
  match s.prof.image, fin? 2 channel with
  | some i, some ch => (i.bus[window]?).bind fun w =>
      if w.channel = channel ∧ w.kind = 0 ∧ w.canId % 2 ^ 29 = id ∧ w.canId.testBit 31 = ext then some (ch, w) else none
  | _, _ => none

/-- The window of buffer `b`. -/
def State.bufWindow (s : State) (b : TatBuf) : Option (Fin 2 × BusWin) := s.tatWindow b.channel b.window b.id b.ext

/-- SOF of the buffer's next attempt from the present on (R372): the TIME of a one-shot; for a periodic buffer the first one whose commit point
has not passed, on the present grid, matrix and configuration. -/
def State.tatNext (s : State) (b : TatBuf) : Option Nat :=
  match b.next with
  | none => none
  | some q =>
    if !b.periodic then some q
    else if !b.en then none
    else match s.bufWindow b with | some (ch, w) => s.nextSof ch w (b.offsetUs * 1000) (max q (s.mt + s.sbus.ch[ch].bitNs)) | none => none

/-- End of the occurrence in which an attempt of a buffer with SOF `sof` lies. -/
def State.occurrenceEnd (s : State) (b : TatBuf) (sof : Nat) : Nat :=
  match (fin? 2 b.channel).bind fun ch => s.windowAt ch sof with | some (_, w, start) => start + w.lengthNs | none => sof + 1

/-- A buffer's attempt with SOF `sof` has ended with a final result; a periodic buffer continues at its next occurrence (R373). -/
def State.tatResult (s : State) (k : Fin 4) (r : TxResult) (sof : Nat) (stop : Bool) : State :=
  let after := s.occurrenceEnd s.sbus.tats[k] sof
  (s.setTat k fun x => { x with result := r, next := if stop || !x.periodic then none else some after, cancelHeld := false }).bump 10

/-- Does the frame of an attempt end within the occurrence of its window (R362)? -/
def State.tatInside (s : State) (b : TatBuf) (ch : Fin 2) (sof : Nat) : Bool :=
  match s.windowAt ch sof with
  | some (i, w, start) => i == b.window && decide (sof + s.sbus.ch[ch].frameNs b.ext b.fd b.brs (dlcLen b.fd b.dlc) ≤ start + w.lengthNs)
  | none => false

/-- What stands against the attempt with SOF `sof` at its commit point (R362, R373). DESIGN CHOICE (log 135): one that no longer ends within
its window is not made and reports MISSED_BUSY. -/
def tatObstacle (s : State) (b : TatBuf) (ch : Fin 2) (sof : Nat) (busIdle : Bool) : Option TxResult :=
  let c := s.sbus.ch[ch]
  if !busIdle || c.err == 2 || c.wire != .none then some .missedBusy
  else if !s.chSync ch || s.quiet ch || !s.live then some .noSync
  else if b.roleGate && !s.active then some .notActive
  else if !s.tatInside b ch sof then some .missedBusy
  else none

/-- TAT_COMMIT_POINT (R373): at `t` = SOF − tN the attempt starts, or is reported; a held CANCEL takes effect with an attempt that is not
made (R374). One that passes in DORMANT reports NO_SYNC (R379). DEDUCED (log 142): ATTEMPTS is 1 from here. -/
def doTatCommitPoint (t : Nat) (k : Fin 4) (busIdle : Bool) : State → State :=
  whenScanning t fun s =>
    let b := s.sbus.tats[k]
    match s.tatNext b, s.bufWindow b with
    | some sof, some (ch, _) =>
      if sof = t + s.sbus.ch[ch].bitNs ∧ b.result ≠ .sending then
        let s := if b.loadPend then s.setTat k fun x => { x with data := x.shadow, loadPend := false } else s
        match tatObstacle s b ch sof busIdle with
        | some r => s.tatResult k (if b.cancelHeld then .cancelled else r) sof b.cancelHeld
        | none =>
          let brs := s.sbus.ch[ch].brsOf b.brs
          ((s.setTat k fun x => { x with brs, result := .sending, attempts := 1, commitAt := s.mt, next := some sof }).setCh ch fun c => { c with wire := .tat k }).bump 10
      else s
    | _, _ => s

/-! ## The end of an attempt -/

/-- A held CANCEL of the buffer or mailbox that sends. -/
def lateResult (held : Bool) : TxResult := if held then .sentCancelLate else .sent

/-- The head frame leaves the queue. -/
def State.popQueue (s : State) (ch : Fin 2) : State := (s.setCh ch fun c => { c with queue := c.queue.drop 1, headWait := 0 }).clearBusLoad

/-- SOF of the attempt a buffer is sending. -/
def State.sofOf (s : State) (k : Fin 4) : Nat := s.sbus.tats[k].next.getD s.mt

/-- CAN_TX_COMPLETE (R375). -/
def doCanTxComplete (t : Nat) (ch : Fin 2) : State → State :=
  whenLive t fun s =>
    let c := s.sbus.ch[ch]
    let done := (s.setCh ch fun c => { c with wire := .none }).setErr ch (c.tec - 1) c.rec_
    match c.wire with
    | .none => s
    | .reference => done.sleepWhenAnnounced
    | .tat k => done.tatResult k (lateResult s.sbus.tats[k].cancelHeld) (s.sofOf k) s.sbus.tats[k].cancelHeld
    | .queued =>
      match c.queue with
      | f :: _ =>
        let s := done.popQueue ch
        if f.kind = 3 then (match fin? 8 f.box with | some b => s.boxResult f.box (lateResult s.sbus.boxes[b].cancelHeld) | none => s) else s
      | [] => done

/-- The attempt of the queue's head has failed: it stays at the head, or a held CANCEL takes effect (R370, R374). -/
def State.headFailed (s : State) (ch : Fin 2) : State :=
  match s.sbus.ch[ch].queue with
  | f :: _ =>
    if f.kind = 3 then
      match fin? 8 f.box with
      | some b => if s.sbus.boxes[b].cancelHeld then (s.popQueue ch).boxResult f.box .cancelled else s.boxResult f.box .pending
      | none => s
    else s
  | [] => s

/-- How far the transmit error counter rises: not for lost arbitration or a recessive stuff bit in it, nor for a missing acknowledgement while
error-passive. PRESUMED (ISO 11898-1, log 80). -/
def txCount (err : Nat) : TxErr → Nat
  | .lost => 0 | .stuff => 0
  | .noAck => if err = 1 then 0 else 8
  | .error => 8 | .flag => 8

/-- Did the attempt fail before it passed arbitration, so that nothing is charged (R369)? -/
def beforeArbitration (how : TxErr) : Bool := how == .lost || how == .stuff

/-- CAN_TX_ERROR (R369, R370, R371, R374): the attempt failed by an error frame or lost arbitration, or a further error is counted. -/
def doCanTxError (t : Nat) (ch : Fin 2) (how : TxErr) : State → State :=
  whenLive t fun s =>
    let c := s.sbus.ch[ch]
    if how = .flag then (if c.err = 2 ∨ !s.chInUse ch then s else s.setErr ch (c.tec + 8) c.rec_)
    else
      let freed := s.setCh ch fun c => { c with wire := .none }
      let failed := freed.setErr ch (c.tec + txCount c.err how) c.rec_
      match c.wire with
      | .none => s
      | .reference => failed.sleepWhenAnnounced
      | .tat k =>
        let held := s.sbus.tats[k].cancelHeld
        (failed.setCh ch fun c => { c with exclErr := satInc 8 c.exclErr }).tatResult k (if held then .cancelled else .errorNoRetry) (s.sofOf k) held
      | .queued =>
        let refund := match c.queue with | f :: _ => if beforeArbitration how then txNs c f else 0 | [] => 0
        (failed.setCh ch fun c => { c with charged := c.charged - refund }).headFailed ch

/-! ## Reception (R376, R377) -/

/-- Does a frame match a filter? -/
def filterHit (f : RxFilter) (x : CanFrame) : Bool := f.en && f.ext == x.ext && x.id &&& f.mask == f.filt &&& f.mask

/-- A frame stored in its channel's FIFO, or dropped where it is full. -/
def State.storeFifo (s : State) (ch : Fin 2) (e : RxEntry) : State :=
  let c := s.sbus.ch[ch]
  if !(c.filters.toList.any fun f => filterHit f e.frame) then s
  else if 64 ≤ c.fifo.length then s.setCh ch fun c => { c with rxDrop := satInc 16 c.rxDrop }
  else (s.setCh ch fun c => { c with fifo := c.fifo ++ [e] }).bump 10

/-- A frame enters the receive slots of its exclusive window. -/
def State.storeSlots (s : State) (ch : Fin 2) (idx : Nat) (e : RxEntry) : State :=
  s.forAll 32 fun k s =>
    let x := s.sbus.slots[k]
    if x.en && x.channel == ch.val && x.window == idx then (s.setRx k fun x => { x with entry := some e, miss := 0 }).bump 10 else s

/-- REC after a frame received well (ISO 11898-1): above 127 the standard leaves a value from 119 to 127. -/
def State.goodReceive (s : State) (ch : Fin 2) : State :=
  let c := s.sbus.ch[ch]
  if 127 < c.rec_ then let r := s.drawNat; r.2.setErr ch c.tec (119 + r.1 % 9) else s.setErr ch c.tec (c.rec_ - 1)

/-- CAN_FRAME_RECEIVED (R376, R377): a valid frame with SOF stamp `t`. In DORMANT only the wake decoder listens (R382). -/
def doCanFrameReceived (t : Nat) (ch : Fin 2) (f : CanFrame) : State → State :=
  whenScanning t fun s =>
    let s := s.wakeGood ch f
    if !s.live || !s.chInUse ch || s.sbus.ch[ch].err == 2 then s
    else
      let s := s.goodReceive ch
      if f.remote then s
      else
        match s.windowAt ch t with
        | some (idx, w, _) =>
          let e : RxEntry := { frame := f, winKind := w.kind, winIndex := idx, stamp := t }
          let own := w.canId % 2 ^ 29 == f.id && w.canId.testBit 31 == f.ext
          let s := s.storeFifo ch e
          if w.kind = 0 then (if own then s.storeSlots ch idx e else s.wrongWindow ch)
          else if w.kind = 3 then s.wrongWindow ch else s
        | none =>
          let r := s.drawNat
          let kind := if s.running then 3 else 1
          let s := r.2.storeFifo ch { frame := f, winKind := kind, winIndex := r.1 % 65536, stamp := t }
          if s.running then s.wrongWindow ch else s

/-- The exclusive window of its channel that a receive slot names (R377), where the active image has it. -/
def State.slotWindow (s : State) (x : RxSlot) : Option BusWin :=
  match s.prof.image.bind fun i => i.bus[x.window]? with
  | some w => if w.channel = x.channel ∧ w.kind = 0 then some w else none
  | none => none

/-- SLOT_MISS (R377): an occurrence of the slot's window has ended at `t` without its frame. -/
def doSlotMiss (t : Nat) (k : Fin 32) : State → State :=
  whenLive t fun s =>
    let x := s.sbus.slots[k]
    match s.slotWindow x with
    | some w =>
      let seen := match x.entry with | some e => decide (t ≤ e.stamp + w.lengthNs) | none => false
      if x.en && !seen then s.setRx k fun x => { x with miss := satInc 6 x.miss } else s
    | none => s

/-! ## Refusals and effects of the commands -/

/-- Address of a word of SBUS. -/
def sbusAddr (off : Nat) : Nat := 0x00900000 + off

/-- The longest arbitrating window of a channel (R369). -/
def State.longestArb (s : State) (ch : Fin 2) : Nat :=
  if !s.running then 1000000 else ((s.busWindows ch).filter fun w => w.2.kind == 1).foldl (fun a w => max a w.2.lengthNs) 0

/-- Why a SEND with this CTRL word is refused. -/
def sendRefusal (s : State) (k : Fin 8) (v : Nat) : Option Answer :=
  let ch := finMod 2 (bits v 20 1)
  let b := s.sbus.boxes[k]
  let n := dlcLen (v.testBit 19) (bits v 0 4)
  firstOf (refuseIf (txBusy b.result) ⟨.busy, .state⟩)
    (firstOf (refuseIf (!s.chInUse ch) (deny .state))
      (refuseIf (decide (s.longestArb ch < 2 * s.sbus.ch[ch].frameNs b.ext (v.testBit 19) (v.testBit 18) n)) (deny .range)))

/-- SEND queues the mailbox's frame (R369). -/
def State.sendBox (s : State) (k : Fin 8) (v : Nat) : State :=
  let b := s.sbus.boxes[k]
  let ch := finMod 2 (bits v 20 1)
  let fd := v.testBit 19
  let dlc := bits v 0 4
  let brs := s.sbus.ch[ch].brsOf (v.testBit 18)
  let f : TxFrame := { kind := 3, box := k.val, ext := b.ext, id := b.id, fd, brs, dlc, data := memRange b.data 0 (dlcLen fd dlc) }
  ((s.setBox k fun x => { x with channel := ch.val, fd, brs, dlc, result := .pending, attempts := 0, cancelHeld := false }).queueFrame ch f).bump 10

/-- The frame at the head leaves the wire before its SOF: a CANCEL stamped at its commit point is in time (R374, R13). -/
def Channel.unstart (c : Channel) (f : TxFrame) : Channel :=
  { c with wire := .none, charged := c.charged - txNs c f, retx := min c.retx f.retxAt }

/-- CANCEL of a mailbox (R374): one stamped at or before the commit point of the next attempt withdraws the frame, a later one is held. -/
def State.cancelBox (s : State) (k : Fin 8) : State :=
  let b := s.sbus.boxes[k]
  let ch := finMod 2 b.channel
  let mine := fun (f : TxFrame) => f.kind == 3 && f.box == k.val
  let head := s.sbus.ch[ch].queue.head?.filter mine
  let drop := fun (s : State) =>
    let s := s.setCh ch fun c => { c with queue := c.queue.filter fun f => !mine f, headWait := if head.isSome then 0 else c.headWait }
    (s.boxResult k.val .cancelled).clearBusLoad
  match b.result, head with
  | .pending, _ => drop s
  | .sending, some f =>
    if s.mt ≤ f.commitAt then
      drop ((s.setCh ch fun c => c.unstart f).setBox k fun x => { x with attempts := min 65535 (f.attempts - 1) })
    else s.setBox k fun x => { x with cancelHeld := true }
  | .sending, none => s.setBox k fun x => { x with cancelHeld := true }
  | _, _ => s

/-- Is the SOF time of a frame fit for an occurrence of the window (R372)? -/
def tatFits (c : Channel) (b : TatBuf) (fd brs : Bool) (dlc : Nat) (w : BusWin) (off : Nat) : Bool :=
  decide (1000 ≤ off ∧ off + c.frameNs b.ext fd brs (dlcLen fd dlc) + 1000 ≤ w.lengthNs)

/-- Offset of a one-shot time into the occurrence that covers it. -/
def State.shotOffset (s : State) (b : TatBuf) : Option Nat :=
  match fin? 2 b.channel with
  | some ch => (match s.windowAt ch b.time with | some (i, _, start) => if i = b.window then some (b.time - start) else none | none => none)
  | none => none

/-- Why an ARM with this CTRL word is refused (R372, R375). -/
def armRefusal (s : State) (k : Fin 4) (v : Nat) : Option Answer :=
  let b := s.sbus.tats[k]
  firstOf (refuseIf (txBusy b.result) ⟨.busy, .state⟩)
    (match s.bufWindow b with
     | none => some (deny .state)
     | some (ch, w) =>
       let fits := fun off => tatFits s.sbus.ch[ch] b (v.testBit 19) (v.testBit 18) (bits v 0 4) w off
       if !b.en then some (deny .state)
       else if b.periodic then refuseIf (!fits (b.offsetUs * 1000)) (deny .range)
       else match s.shotOffset b with
         | some off => refuseIf (!fits off || decide (b.time < s.mt + 20000)) (deny .range)
         | none => some (deny .range))

/-- ARM (R372). -/
def State.armTat (s : State) (k : Fin 4) (v : Nat) : State :=
  let b := s.sbus.tats[k]
  let bit := match s.bufWindow b with | some (ch, _) => s.sbus.ch[ch].bitNs | none => 0
  let brs := match s.bufWindow b with | some (ch, _) => s.sbus.ch[ch].brsOf (v.testBit 18) | none => v.testBit 18
  let next := if b.periodic then s.mt + bit else b.time
  (s.setTat k fun x => { x with fd := v.testBit 19, brs, dlc := bits v 0 4, result := .pending, attempts := 0, cancelHeld := false, next := some next }).bump 10

/-- LOAD (R372). -/
def State.loadTat (s : State) (k : Fin 4) : State := s.setTat k fun x => { x with loadPend := true }

/-- CANCEL of a buffer (R374): in time up to the commit point of its next attempt. -/
def State.cancelTat (s : State) (k : Fin 4) : State :=
  let b := s.sbus.tats[k]
  let ch := finMod 2 b.channel
  if b.result = .sending then
    if s.mt ≤ b.commitAt then
      ((s.setCh ch fun c => { c with wire := .none }).setTat k fun x => { x with attempts := 0 }).tatResult k .cancelled 0 true
    else s.setTat k fun x => { x with cancelHeld := true }
  else
    match s.tatNext b with
    | some sof => if s.mt + s.sbus.ch[ch].bitNs ≤ sof then s.tatResult k .cancelled 0 true else s.setTat k fun x => { x with cancelHeld := true }
    | none => if b.result = .pending then s.tatResult k .cancelled 0 true else s

/-- A write of a mailbox's CTRL word (R383, R518). -/
def boxCtrl (s : State) (k : Fin 8) (v : Nat) : RegEffect :=
  if severalBits v 0xC0000000 then (some (deny .range), id)
  else if v.testBit 31 then (sendRefusal s k v, fun s => s.sendBox k v)
  else if v.testBit 30 then (none, fun s => s.cancelBox k)
  else roWord

/-- A write of a buffer's CTRL word: LOAD with ARM loads, then arms (R518). -/
def tatCtrl (s : State) (k : Fin 4) (v : Nat) : RegEffect :=
  if severalBits v 0xC0000000 || severalBits v 0x60000000 then (some (deny .range), id)
  else if v.testBit 31 then (armRefusal s k v, fun s => (if v.testBit 29 then s.loadTat k else s).armTat k v)
  else if v.testBit 30 then (none, fun s => s.cancelTat k)
  else if v.testBit 29 then (none, fun s => s.loadTat k)
  else roWord

/-- POP of a channel's FIFO. -/
def State.popFifo (s : State) (ch : Fin 2) : State := s.setCh ch fun c => { c with fifo := c.fifo.drop 1 }

/-- CLR_CNT of SBUS.CTRL. -/
def State.sbusClear (s : State) : State :=
  s.setBus fun b => { b with ch := vmap (fun _ c => { c with exclErr := 0, retx := 0, refMiss := 0, busOff := 0, wrongWin := 0, rxDrop := 0 }) b.ch }

/-- SLEEP = 1 (R379): refused to a module that is not master; a bus already asleep or announcing stays so. -/
def sleepEffect (s : State) : RegEffect :=
  (refuseIf (!s.busMaster) (deny .state), fun s => if s.sbus.bus == .awake then (s.setBus fun b => { b with sleep := true }).startSleep else s.setBus fun b => { b with sleep := true })

/-- SLEEP = 0 (R380): it withdraws SLEEP = 1, and while ASLEEP it is a wake event. -/
def State.wakeWrite (s : State) : State := if s.sbus.sleep || s.sbus.bus == .asleep then s.busWakes 0 else s

/-- A write of SBUS.CTRL. -/
def sbusCtrl (s : State) (v : Nat) : RegEffect :=
  if severalBits v 3 then (some (deny .range), id)
  else
    let sl := if v.testBit 2 then sleepEffect s else (none, fun s => s.wakeWrite)
    (sl.1, fun s =>
      let s := sl.2 s
      let s := if v.testBit 0 then s.popFifo 0 else if v.testBit 1 then s.popFifo 1 else s
      if v.testBit 3 then s.sbusClear else s)

/-! ## Commands -/

/-- MAILBOX_SEND (R369): a CTRL word with SEND; one with CANCEL too is refused (R518). -/
def doMailboxSend (t : Nat) (m : Master) (k : Fin 8) (ctrl : Word) : State → State :=
  whenLive t fun s =>
    let e := boxCtrl s k (setBit ctrl.toNat 31)
    s.command m (sbusAddr (0x1004 + 0x80 * k.val)) (firstOf (foreign s m) e.1) e.2

/-- MAILBOX_CANCEL (R374). -/
def doMailboxCancel (t : Nat) (m : Master) (k : Fin 8) : State → State :=
  whenLive t fun s => s.command m (sbusAddr (0x1004 + 0x80 * k.val)) (foreign s m) fun s => s.cancelBox k

/-- A CTRL word of a buffer with command bit `bit` set. -/
def tatCommand (t : Nat) (m : Master) (k : Fin 4) (ctrl : Word) (bit : Nat) : State → State :=
  whenLive t fun s =>
    let e := tatCtrl s k (setBit ctrl.toNat bit)
    s.command m (sbusAddr (0x2010 + 0x80 * k.val)) (firstOf (foreign s m) e.1) e.2

/-- TAT_ARM (R372), with LOAD where the word sets it too; one with CANCEL is refused (R518). -/
def doTatArm (t : Nat) (m : Master) (k : Fin 4) (ctrl : Word) : State → State := tatCommand t m k ctrl 31

/-- TAT_LOAD (R372), with ARM where the word sets it too; one with CANCEL is refused (R518). -/
def doTatLoad (t : Nat) (m : Master) (k : Fin 4) (ctrl : Word) : State → State := tatCommand t m k ctrl 29

/-- TAT_CANCEL (R374). -/
def doTatCancel (t : Nat) (m : Master) (k : Fin 4) : State → State :=
  whenLive t fun s => s.command m (sbusAddr (0x2010 + 0x80 * k.val)) (foreign s m) fun s => s.cancelTat k

/-- FIFO_POP (R383). -/
def doFifoPop (t : Nat) (m : Master) (ch : Fin 2) : State → State :=
  whenLive t fun s => s.command m (sbusAddr 0) (foreign s m) fun s => s.popFifo ch

/-- BUS_SLEEP (R379). -/
def doBusSleep (t : Nat) (m : Master) : State → State :=
  whenLive t fun s => s.command m (sbusAddr 0) (firstOf (foreign s m) (sleepEffect s).1) (sleepEffect s).2

/-- BUS_WAKE_WRITE (R380). -/
def doBusWakeWrite (t : Nat) (m : Master) : State → State :=
  whenLive t fun s => s.command m (sbusAddr 0) (foreign s m) fun s => s.wakeWrite

/-- Code of a wake source (R381), and the bit of WAKE_MODE that enables it. -/
def busWakeCode : BusWake → Nat × Nat
  | .wakeI _ => (1, 0) | .dominant0 _ => (2, 1) | .dominant1 _ => (3, 1) | .frame _ => (4, 2) | .errors => (5, 2)

/-- Does a data bit stand both in the frame and in the data mask (R382)? -/
def wakeData (b : SiteBus) (f : CanFrame) : Bool :=
  ((List.range f.dlc).any fun i => u8 f.data i &&& bits b.wakeDm[finMod 2 (i / 4)] (8 * (i % 4)) 8 != 0)

/-- Is this frame a wake frame (R382)? -/
def wakeFrame (b : SiteBus) (f : CanFrame) : Bool :=
  !f.fd && !f.remote && f.ext == b.wakeExt && f.id &&& b.wakeIdm == b.wakeId &&& b.wakeIdm && f.dlc == b.wakeDlc && (b.wakeDlc == 0 || wakeData b f)

/-- Is the source enabled in WAKE_MODE and its condition met (R381)? A level of exactly WAKE_FILT wakes. -/
def wakeMet (b : SiteBus) (w : BusWake) : Bool :=
  b.wakeMode.testBit (busWakeCode w).2 &&
  match w with
  | .wakeI n => decide (b.wakeFilt * 1000 ≤ n) | .dominant0 n => decide (b.wakeFilt * 1000 ≤ n) | .dominant1 n => decide (b.wakeFilt * 1000 ≤ n)
  | .frame f => wakeFrame b f
  | .errors => decide (31 < b.wakeErr)

/-- SBUS_CLR_CNT (R383). -/
def doSbusClrCnt (t : Nat) (m : Master) : State → State :=
  whenLive t fun s => s.command m (sbusAddr 0) (foreign s m) fun s => s.sbusClear

/-! ## SBUS registers (R383) -/

/-- SBUS.STAT. -/
def sbusStat (s : State) : Nat :=
  b2n (s.chSync 0) + 2 * b2n (s.chSync 1) + b2n s.busMaster * 2 ^ 8 +
  (match s.sbus.bus with | .awake => 0 | .announcing => 1 | .asleep => 2) * 2 ^ 16 + s.sbus.wakeSrc * 2 ^ 20

/-- SBUS.CHn_STAT. -/
def chStat (s : State) (ch : Fin 2) : Nat :=
  let c := s.sbus.ch[ch]
  b2n (s.chSync ch) + (s.cycleAt ch s.mt).2 * 2 ^ 8 + c.err * 2 ^ 14 + c.rec_ * 2 ^ 16 + c.tec * 2 ^ 24

/-- The words ID, INFO, STAMP_L, STAMP_H and DATA of a stored frame, by number; MISS stands in a slot's INFO only. -/
def rxWord (e : Option RxEntry) (miss i : Nat) : Nat :=
  match e with
  | none => if i = 1 then miss * 2 ^ 4 else 0
  | some e =>
    match i with
    | 0 => e.frame.id + b2n e.frame.ext * 2 ^ 31
    | 1 => e.frame.dlc + miss * 2 ^ 4 + e.winIndex * 2 ^ 10 + e.winKind * 2 ^ 26 + b2n e.frame.esi * 2 ^ 28 + b2n e.frame.brs * 2 ^ 29 +
           b2n e.frame.fd * 2 ^ 30 + 2 ^ 31
    | 2 => e.stamp % 2 ^ 32
    | 3 => e.stamp / 2 ^ 32
    | _ => wordAt e.frame.data (i - 4)

/-- Is a slot stale (R377)? -/
def State.slotStale (s : State) (x : RxSlot) : Bool := decide (s.sbus.staleN ≤ x.miss) || !s.chSync (finMod 2 x.channel)

/-- SBUS.BTRn. -/
def btrWord (c : Channel) : Nat := c.nomRate + c.dataRate * 2 ^ 4 + c.nsp * 2 ^ 16 + c.dsp * 2 ^ 24

/-- The identifier word of a buffer or mailbox. -/
def idWord (ext : Bool) (id : Nat) : Nat := id + b2n ext * 2 ^ 31

/-- A buffer's CFG word. -/
def tatCfgWord (b : TatBuf) : Nat :=
  b.window + b.offsetUs * 2 ^ 16 + b2n b.roleGate * 2 ^ 28 + b2n b.periodic * 2 ^ 29 + b.channel * 2 ^ 30 + b2n b.en * 2 ^ 31

/-- The low registers of SBUS. -/
def sbusLow (s : State) (off : Nat) : Option Nat :=
  let c0 := s.sbus.ch[(0 : Fin 2)]
  let c1 := s.sbus.ch[(1 : Fin 2)]
  let cnt := fun (c : Channel) => c.busOff + c.refMiss * 2 ^ 8 + c.retx * 2 ^ 16 + c.exclErr * 2 ^ 24
  let viol := fun (c : Channel) => c.rxDrop + c.wrongWin * 2 ^ 16
  match off with
  | 0x00 => some (b2n s.sbus.sleep * 4)
  | 0x04 => some (sbusStat s)
  | 0x08 => some (s.sbus.staleN + s.sbus.wakeFilt * 2 ^ 8 + s.sbus.wakeMode * 2 ^ 16 + s.sbus.wakeDlc * 2 ^ 24)
  | 0x10 => some (btrWord c0)
  | 0x14 => some (btrWord c1)
  | 0x20 => some (chStat s 0)
  | 0x24 => some (chStat s 1)
  | 0x28 => some (cnt c0)
  | 0x2C => some (cnt c1)
  | 0x30 => some (viol c0)
  | 0x34 => some (viol c1)
  | 0x40 => some (s.sbus.wakeId + s.sbus.wakeCh * 2 ^ 30 + b2n s.sbus.wakeExt * 2 ^ 31)
  | 0x44 => some s.sbus.wakeIdm
  | 0x48 => some s.sbus.wakeDm[(0 : Fin 2)]
  | 0x4C => some s.sbus.wakeDm[(1 : Fin 2)]
  | _ => none

/-- The filter words of SBUS.RXF. -/
def rxfWord (f : RxFilter) (mask : Bool) : Nat := if mask then f.mask else f.filt + b2n f.en * 2 ^ 30 + b2n f.ext * 2 ^ 31

/-- Index of an element of a group of registers: base, stride, count, and the offset within the element. -/
def groupAt (n : Nat) (base stride off : Nat) : Option (Fin n × Nat) :=
  if base ≤ off ∧ 0 < stride then (fin? n ((off - base) / stride)).map fun k => (k, (off - base) % stride) else none

/-- A mailbox word. -/
def boxWord (b : Mailbox) (i : Nat) : Option Nat :=
  match i with
  | 0 => some (idWord b.ext b.id)
  | 4 => some 0
  | 8 => some (txCode b.result + b.attempts * 2 ^ 16)
  | _ => if 0x10 ≤ i ∧ i < 0x50 then some (memWord b.data (i - 0x10)) else none

/-- A transmit-at-time buffer's word. -/
def tatWord (b : TatBuf) (i : Nat) : Option Nat :=
  match i with
  | 0x00 => some (idWord b.ext b.id)
  | 0x04 => some (tatCfgWord b)
  | 0x08 => some (b.time % 2 ^ 32)
  | 0x0C => some (b.time / 2 ^ 32)
  | 0x10 => some 0
  | 0x14 => some (txCode b.result + b.attempts * 2 ^ 16)
  | _ => if 0x20 ≤ i ∧ i < 0x60 then some (memWord b.shadow (i - 0x20)) else none

/-- A receive slot's word. -/
def slotWord (x : RxSlot) (i : Nat) : Option Nat :=
  if i = 0 then some (x.window + x.channel * 2 ^ 30 + b2n x.en * 2 ^ 31)
  else if i < 0x54 then some (rxWord x.entry x.miss ((i - 4) / 4)) else none

/-- A read of SBUS at an offset. -/
def sbusRead (s : State) (off : Nat) : Option Nat :=
  if off % 4 ≠ 0 then none
  else if off < 0x100 then sbusLow s off
  else if off < 0x180 then (groupAt 2 0x100 0x40 off).map fun x => rxfWord s.sbus.ch[x.1].filters[finMod 8 (x.2 / 8)] (x.2 % 8 == 4)
  else if off < 0x600 then (groupAt 2 0x400 0x100 off).bind fun x => if x.2 < 0x50 then some (rxWord s.sbus.ch[x.1].fifo.head? 0 (x.2 / 4)) else none
  else if off < 0x2000 then (groupAt 8 0x1000 0x80 off).bind fun x => boxWord s.sbus.boxes[x.1] x.2
  else if off < 0x3000 then (groupAt 4 0x2000 0x80 off).bind fun x => tatWord s.sbus.tats[x.1] x.2
  else (groupAt 32 0x3000 0x80 off).bind fun x => slotWord s.sbus.slots[x.1] x.2

/-- Does a read of this offset return a stale slot's data (R377)? -/
def sbusStale (s : State) (off : Nat) : Bool :=
  match groupAt 32 0x3000 0x80 off with
  | some (k, i) => decide (0x14 ≤ i) && s.slotStale s.sbus.slots[k]
  | none => false

/-- May SBUS.BTRn take these rates (R358, R363, R364)? -/
def btrOk (s : State) (ch : Fin 2) (v : Nat) : Bool :=
  let nom := bits v 0 2
  let data := bits v 4 3
  decide (60 ≤ bits v 24 8 ∧ bits v 24 8 ≤ 80 ∧ 75 ≤ bits v 16 8 ∧ bits v 16 8 ≤ 90 ∧ data ≤ 5) &&
  (data == 0 || decide (nomRateOf nom < dataRateOf data)) &&
  ((s.busWindows ch).all fun w => decide (windowMin nom data w.2 ≤ w.2.lengthNs)) &&
  (!s.paired || !s.running || s.pair.hbCh != ch.val || heartbeatFits ((s.busWindows ch).map (·.2)) ch.val nom data)

/-- The configuration a CFG word gives a buffer. -/
def cfgBuf (b : TatBuf) (v : Nat) : TatBuf :=
  { b with en := v.testBit 31, channel := bits v 30 1, periodic := v.testBit 29, roleGate := v.testBit 28, offsetUs := bits v 16 10, window := bits v 0 16,
           next := if v.testBit 31 then b.next else none }

/-- Why a buffer's configuration is refused (R372, R517). -/
def cfgRefusal (s : State) (k : Fin 4) (b : TatBuf) : Option Answer :=
  let other := (fins 4).any fun j => j != k && s.sbus.tats[j].en && s.sbus.tats[j].window == b.window && s.sbus.tats[j].channel == b.channel
  if !s.chInUse (finMod 2 b.channel) then some (deny .state)
  else if b.en && (other || (s.bufWindow b).isNone) then some (deny .range)
  else
    match s.bufWindow b with
    | some (ch, w) => refuseIf (b.en && b.periodic && !tatFits s.sbus.ch[ch] b b.fd b.brs b.dlc w (b.offsetUs * 1000)) (deny .range)
    | none => none

/-- A write of a buffer's word by a master. -/
def tatWrite (s : State) (m : Master) (k : Fin 4) (i v : Nat) : Option RegEffect :=
  let b := s.sbus.tats[k]
  match i with
  | 0x00 =>
    let b' := { b with ext := v.testBit 31, id := bits v 0 29 }
    some (firstOf (sysGuard s m) (refuseIf (b.en && (s.bufWindow b').isNone) (deny .range)), fun s => s.setTat k fun _ => b')
  | 0x04 =>
    let b' := cfgBuf b v
    some (firstOf (sysGuard s m) (firstOf (refuseIf (b'.offsetUs == 0) (deny .range)) (cfgRefusal s k b')), fun s => s.setTat k fun _ => b')
  | 0x08 => some (none, fun s => s.setTat k fun x => { x with time := x.time / 2 ^ 32 * 2 ^ 32 + v })
  | 0x0C => some (none, fun s => s.setTat k fun x => { x with time := x.time % 2 ^ 32 + v * 2 ^ 32 })
  | 0x10 => some (tatCtrl s k v)
  | 0x14 => some roWord
  | _ => if 0x20 ≤ i ∧ i < 0x60 then some (none, fun s => s.setTat k fun x => { x with shadow := memWrites x.shadow (i - 0x20) (leBytes 4 v) }) else none

/-- A write of a mailbox's word. -/
def boxWrite (s : State) (k : Fin 8) (i v : Nat) : Option RegEffect :=
  match i with
  | 0 => some (none, fun s => s.setBox k fun x => { x with ext := v.testBit 31, id := bits v 0 29 })
  | 4 => some (boxCtrl s k v)
  | 8 => some roWord
  | _ => if 0x10 ≤ i ∧ i < 0x50 then some (none, fun s => s.setBox k fun x => { x with data := memWrites x.data (i - 0x10) (leBytes 4 v) }) else none

/-- A write of a receive slot's CFG word: another window or channel empties the slot (DEDUCED, logs 82 and 143). -/
def slotCfg (k : Fin 32) (v : Nat) : RegEffect :=
  (none, fun s => s.setRx k fun x =>
    let same := x.channel == bits v 30 1 && x.window == bits v 0 16
    { en := v.testBit 31, channel := bits v 30 1, window := bits v 0 16, entry := if same then x.entry else none, miss := if same then x.miss else 0 })

/-- A write of a filter word. -/
def rxfWrite (ch : Fin 2) (k : Fin 8) (mask : Bool) (v : Nat) : RegEffect :=
  (none, fun s => s.setCh ch fun c => { c with filters := vupd c.filters k fun f =>
    if mask then { f with mask := bits v 0 29 } else { f with ext := v.testBit 31, en := v.testBit 30, filt := bits v 0 29 } })

/-- A write of SBUS.BTRn. -/
def btrWrite (s : State) (m : Master) (ch : Fin 2) (v : Nat) : RegEffect :=
  (firstOf (sysGuard s m) (refuseIf (!btrOk s ch v) (deny .range)), fun s =>
    s.setCh ch fun c => { c with dsp := bits v 24 8, nsp := bits v 16 8, dataRate := bits v 4 3, nomRate := bits v 0 2 })

/-- A write of SBUS.CFG. -/
def sbusCfg (s : State) (v : Nat) : RegEffect :=
  let ok := decide (bits v 24 4 ≤ 8 ∧ 1 ≤ bits v 8 6 ∧ 1 ≤ bits v 0 4) && !(v.testBit 18 && !s.sbus.wakeMode.testBit 2 && s.sbus.ch[finMod 2 s.sbus.wakeCh].nomRate == 3)
  (refuseIf (!ok) (deny .range), fun s => s.setBus fun b => { b with wakeDlc := bits v 24 4, wakeMode := bits v 16 3, wakeFilt := bits v 8 6, staleN := bits v 0 4 })

/-- A write of a low register of SBUS. -/
def sbusLowWrite (s : State) (m : Master) (off v : Nat) : Option RegEffect :=
  match off with
  | 0x00 => some (sbusCtrl s v)
  | 0x08 => some (sbusCfg s v)
  | 0x10 => some (btrWrite s m 0 v)
  | 0x14 => some (btrWrite s m 1 v)
  | 0x40 => some (none, fun s => s.setBus fun b => { b with wakeExt := v.testBit 31, wakeCh := bits v 30 1, wakeId := bits v 0 29 })
  | 0x44 => some (none, fun s => s.setBus fun b => { b with wakeIdm := bits v 0 29 })
  | 0x48 => some (none, fun s => s.setBus fun b => { b with wakeDm := vupd b.wakeDm 0 fun _ => v })
  | 0x4C => some (none, fun s => s.setBus fun b => { b with wakeDm := vupd b.wakeDm 1 fun _ => v })
  | _ => (sbusLow s off).map fun _ => roWord

/-- A write of SBUS at an offset. -/
def sbusWrite (s : State) (m : Master) (off v : Nat) : Option RegEffect :=
  if off % 4 ≠ 0 then none
  else if off < 0x100 then sbusLowWrite s m off v
  else if off < 0x180 then (groupAt 2 0x100 0x40 off).map fun x => rxfWrite x.1 (finMod 8 (x.2 / 8)) (x.2 % 8 == 4) v
  else if off < 0x1000 then (sbusRead s off).map fun _ => roWord
  else if off < 0x2000 then (groupAt 8 0x1000 0x80 off).bind fun x => boxWrite s x.1 x.2 v
  else if off < 0x3000 then (groupAt 4 0x2000 0x80 off).bind fun x => tatWrite s m x.1 x.2 v
  else (groupAt 32 0x3000 0x80 off).bind fun x => if x.2 = 0 then some (slotCfg x.1 v) else (slotWord s.sbus.slots[x.1] x.2).map fun _ => roWord

/-! ## Meanings -/

/-- Meaning of REFERENCE_SEND (R365). -/
def execReferenceSend (t : Nat) (ch : Fin 2) (s : State) : Host.Outcome State Fault Refusal :=
  .next (doReferenceSend t ch s)

/-- Meaning of REFERENCE_RECEIVED (R367). -/
def execReferenceReceived (t : Nat) (ch : Fin 2) (payload : Bytes) (s : State) : Host.Outcome State Fault Refusal :=
  .next (doReferenceReceived t ch payload s)

/-- Meaning of REFERENCE_MISSING (R367). -/
def execReferenceMissing (t : Nat) (ch : Fin 2) (s : State) : Host.Outcome State Fault Refusal :=
  .next (doReferenceMissing t ch s)

/-- Meaning of CAN_FRAME_RECEIVED (R376). -/
def execCanFrameReceived (t : Nat) (ch : Fin 2) (frame : CanFrame) (s : State) : Host.Outcome State Fault Refusal :=
  .next (doCanFrameReceived t ch frame s)

/-- Meaning of SLOT_MISS (R377). -/
def execSlotMiss (t : Nat) (slot : Fin 32) (s : State) : Host.Outcome State Fault Refusal :=
  .next (doSlotMiss t slot s)

/-- Meaning of ARBITRATING_WINDOW (R369). -/
def execArbitratingWindow (t : Nat) (ch : Fin 2) (busIdle : Bool) (s : State) : Host.Outcome State Fault Refusal :=
  .next (doArbitratingWindow t ch busIdle s)

/-- Meaning of CAN_TX_COMPLETE (R375). -/
def execCanTxComplete (t : Nat) (ch : Fin 2) (s : State) : Host.Outcome State Fault Refusal :=
  .next (doCanTxComplete t ch s)

/-- Meaning of CAN_TX_ERROR (R370). -/
def execCanTxError (t : Nat) (ch : Fin 2) (how : TxErr) (s : State) : Host.Outcome State Fault Refusal :=
  .next (doCanTxError t ch how s)

/-- Meaning of BUS_OFF_RECOVERY (R357). -/
def execBusOffRecovery (t : Nat) (ch : Fin 2) (s : State) : Host.Outcome State Fault Refusal :=
  .next (doBusOffRecovery t ch s)

/-- Meaning of TAT_COMMIT_POINT (R373). -/
def execTatCommitPoint (t : Nat) (buf : Fin 4) (busIdle : Bool) (s : State) : Host.Outcome State Fault Refusal :=
  .next (doTatCommitPoint t buf busIdle s)

/-- Meaning of MAILBOX_SEND (R369). -/
def execMailboxSend (t : Nat) (m : Master) (box : Fin 8) (ctrl : Word) (s : State) : Host.Outcome State Fault Refusal :=
  .next (doMailboxSend t m box ctrl s)

/-- Meaning of MAILBOX_CANCEL (R374). -/
def execMailboxCancel (t : Nat) (m : Master) (box : Fin 8) (s : State) : Host.Outcome State Fault Refusal :=
  .next (doMailboxCancel t m box s)

/-- Meaning of TAT_ARM (R372). -/
def execTatArm (t : Nat) (m : Master) (buf : Fin 4) (ctrl : Word) (s : State) : Host.Outcome State Fault Refusal :=
  .next (doTatArm t m buf ctrl s)

/-- Meaning of TAT_LOAD (R372). -/
def execTatLoad (t : Nat) (m : Master) (buf : Fin 4) (ctrl : Word) (s : State) : Host.Outcome State Fault Refusal :=
  .next (doTatLoad t m buf ctrl s)

/-- Meaning of TAT_CANCEL (R374). -/
def execTatCancel (t : Nat) (m : Master) (buf : Fin 4) (s : State) : Host.Outcome State Fault Refusal :=
  .next (doTatCancel t m buf s)

/-- Meaning of FIFO_POP (R383). -/
def execFifoPop (t : Nat) (m : Master) (ch : Fin 2) (s : State) : Host.Outcome State Fault Refusal :=
  .next (doFifoPop t m ch s)

/-- Meaning of BUS_SLEEP (R379). -/
def execBusSleep (t : Nat) (m : Master) (s : State) : Host.Outcome State Fault Refusal :=
  .next (doBusSleep t m s)

/-- Meaning of BUS_WAKE_WRITE (R380). -/
def execBusWakeWrite (t : Nat) (m : Master) (s : State) : Host.Outcome State Fault Refusal :=
  .next (doBusWakeWrite t m s)

/-- Meaning of SBUS_CLR_CNT (R383). -/
def execSbusClrCnt (t : Nat) (m : Master) (s : State) : Host.Outcome State Fault Refusal :=
  .next (doSbusClrCnt t m s)

/-- Meaning of CAN_RX_ERROR (R378). -/
def execCanRxError (t : Nat) (e : RxFault) (s : State) : Host.Outcome State Fault Refusal :=
  .next (doCanRxError t e.ch e.how s)

end Sys2Proof.Machine
end

