-- ==== Sys2Proof/Machine/Ledger.lean ====
section
/-! DEFINITION. The ledger (16): the records of R462 and their writing (R463, R464, R470), adoption at boot (R464), clears
(R473, R474), marks, and the LDG registers (R475). Snapshots are read where the register map can be read (Snapshot). -/
namespace Sys2Proof.Machine

/-- The LDG block changed. -/
def State.setLdg (s : State) (f : LedgerBlock → LedgerBlock) : State := { s with ldg := f s.ldg }

/-- Partition `p` changed. -/
def State.setPart (s : State) (p : Fin 3) (f : Partition → Partition) : State := s.setLdg fun l => { l with parts := vupd l.parts p f }

/-- Bytes of a partition (R460). -/
def partSize (p : Fin 3) : Nat := if p = 0 then 4194304 else 2097152

/-! ## Records (R462, R467) -/

/-- Head bytes 0x00 to 0x1B. -/
def recHead (r : LdgRec) (seq gen : Nat) (dropped : Bool) : Bytes :=
  [0x5A, byte (recFollow r + 8 * b2n r.snap.isSome + 16 * b2n dropped)] ++ leBytes 2 r.code ++ leBytes 4 (seq % 2 ^ 32) ++ leBytes 8 r.time ++
  leBytes 2 (gen % 65536) ++ [byte r.index, 0] ++ leBytes 4 r.a ++ leBytes 4 r.b

/-- A record as it lies in MRAM. -/
def recBytes (r : LdgRec) (seq gen : Nat) (dropped : Bool) : Bytes :=
  let head := recHead r seq gen dropped
  let follow := slice (recData r) 0 (32 * recFollow r)
  head ++ leBytes 4 (crc32c (head ++ follow)) ++ follow

/-- A record written at an offset: SEQ rises (R463). -/
def Partition.put (P : Partition) (off : Nat) (r : LdgRec) (dropped : Bool) : Partition :=
  { P with mem := memWrites P.mem off (recBytes r (P.seq + 1) P.gen dropped), seq := (P.seq + 1) % 2 ^ 32, dropped := false }

/-- The record 0x0E02 that names a refused one (R470). -/
def fullRec (mt : Nat) (P : Partition) (code : Nat) : LdgRec :=
  { code := 0x0E02, time := mt, index := 0xFF, a := code, b := P.seq, follow := [], snapSet := none, snap := none }

/-- One record reaches the partition: written, or refused where it does not fit before the reserve (R470). -/
def Partition.take (P : Partition) (mt size : Nat) (r : LdgRec) : Partition :=
  if P.full then { P with fullDrop := satInc 16 P.fullDrop, dropped := true }
  else if P.fill + recLen r ≤ size - 32 then { P.put P.fill r P.dropped with fill := P.fill + recLen r }
  else { P.put (size - 32) (fullRec mt P r.code) P.dropped with full := true, fill := size, fullDrop := satInc 16 P.fullDrop, dropped := true }

/-- The oldest queued record is written; a record and a change of FULL are counted in SUM14 (R475). -/
def State.writeHead (s : State) (p : Fin 3) : State :=
  let P := s.ldg.parts[p]
  match P.queue with
  | [] => s
  | r :: rest =>
    let s := (s.setPart p fun P => { P.take s.mt (partSize p) r with queue := rest }).bumpIf (!P.full) 14
    s.bumpIf (!P.full && s.ldg.parts[p].full) 14

/-- Does the record wait for its snapshot (R468)? -/
def snapDue (r : LdgRec) : Bool := r.snapSet.isSome && r.snap.isNone

/-- Place of a partition's writer in the order of R206. -/
def ledgerPlace (p : Fin 3) : Nat := if p = 0 then 2 else if p = 1 then 1 else 0

/-- The MRAM share of a partition's writer. -/
def State.ledgerShare (s : State) (p : Fin 3) : Nat := if p = 0 then s.mram.ledgerSys else if p = 1 then s.mram.ledgerSaf else s.mram.metro

/-- MRAM writes charged to a partition's writer, or to the unreserved share (R206). -/
def State.chargeLedger (s : State) (p : Fin 3) (n : Nat) : State :=
  if n ≤ s.ledgerShare p then
    { s with mram := if p = 0 then { s.mram with ledgerSys := s.mram.ledgerSys - n } else if p = 1 then { s.mram with ledgerSaf := s.mram.ledgerSaf - n }
      else { s.mram with metro := s.mram.metro - n } }
  else { s with mram := { s.mram with spare := s.mram.spare - n } }

/-- LEDGER_RECORD_WRITE (R464): the oldest record is written once its snapshot is in and MRAM has room this tick. -/
def doLedgerRecordWrite (t : Nat) (p : Fin 3) : State → State :=
  whenLive t fun s =>
    match s.ldg.parts[p].queue with
    | [] => s
    | r :: _ =>
      if snapDue r || decide (s.ledgerShare p < recLen r ∧ s.spareFor (ledgerPlace p) < recLen r) then s
      else (s.chargeLedger p (recLen r)).writeHead p

/-- The queues are written out at a power-fail warning (R421, R471). -/
def State.drainLedger (s : State) : State :=
  s.forAll 3 fun p s => (List.range s.ldg.parts[p].queue.length).foldl (fun (s : State) _ => s.writeHead p) s

/-! ## Adoption at boot (R464) -/

/-- The length of the record at FILL that may be adopted. -/
def adoptable (P : Partition) (size : Nat) : Option Nat :=
  let head := memRange P.mem P.fill 32
  let len := 32 * (1 + u8 head 1 % 8)
  let rest := memRange P.mem (P.fill + 32) (len - 32)
  if u8 head 0 = 0x5A ∧ u16 head 0x10 = P.gen ∧ u32 head 4 = (P.seq + 1) % 2 ^ 32 ∧ P.fill + len ≤ size ∧ u32 head 0x1C = crc32c (head.take 0x1C ++ rest)
  then some len else none

/-- Whole records beyond FILL are adopted one by one. -/
def Partition.adopt (size : Nat) : Nat → Partition → Partition
  | 0, P => P
  | f + 1, P =>
    match adoptable P size with
    | some len => Partition.adopt size f { P with fill := P.fill + len, seq := (P.seq + 1) % 2 ^ 32 }
    | none => P

/-- LEDGER_ADOPT (R464). -/
def State.ledgerAdopt (s : State) : State := s.forAll 3 fun p s => s.setPart p fun P => P.adopt (partSize p) (partSize p / 32)

/-! ## Clears and marks (R473, R474) -/

/-- May the master clear a partition now (R473): a clear without its unlock is answered LOCKED. -/
def clearLock (s : State) (m : Master) (p : Fin 3) : Option Answer :=
  refuseIf (!(if p = 0 then s.lock.st == .unlocked && s.lock.owner == m else s.saf.unlock.st == .unlocked)) ⟨.locked, .none⟩

/-- Why a clear is refused. -/
def clearRefusal (s : State) (m : Master) (p : Fin 3) : Option Answer :=
  firstOf (clearLock s m p) (firstOf (refuseIf (s.ldg.parts[p].seq != s.ldg.clrUpto) (deny .state)) (pfwRefusal s))

/-- The record of a clear. -/
def clearRec (s : State) (m : Master) (p : Fin 3) : LdgRec :=
  { code := 0x0E01, time := s.mt, index := masterCode m, a := s.ldg.parts[p].fill, b := s.ldg.parts[p].fullDrop, follow := [], snapSet := none, snap := none }

/-- A clear takes effect: GEN rises, the first record of the new span is written (R474). -/
def State.clearPart (s : State) (m : Master) (p : Fin 3) : State :=
  let r := clearRec s m p
  let s' := s.setPart p fun P =>
    let dropped := P.dropped || P.qDrop != 0 || P.fullDrop != 0
    let P := { P with gen := (P.gen + 1) % 65536, fill := 0, full := false, qDrop := 0, fullDrop := 0 }
    { P.put 0 r dropped with fill := 32 }
  let s' := (s'.bump 14).bumpIf s.ldg.parts[p].full 14
  if p = 1 then s'.log 0x0E03 (masterCode m) r.a r.b else s'

/-- MARK queues code 0x0B02 (R474). -/
def State.ledgerMark (s : State) (m : Master) : State := s.log 0x0B02 (masterCode m) s.ldg.markA s.ldg.markB

/-- Address of a word of LDG. -/
def ldgAddr (off : Nat) : Nat := 0x00D00000 + off

/-- MARK (R474). -/
def doMark (t : Nat) (m : Master) : State → State :=
  whenLive t fun s => s.command m (ldgAddr 0) (foreign s m) fun s => s.ledgerMark m

/-- CLR_SYS (R473). -/
def doClrSys (t : Nat) (m : Master) : State → State :=
  whenLive t fun s => s.command m (ldgAddr 0) (firstOf (foreign s m) (clearRefusal s m 0)) fun s => s.clearPart m 0

/-- CLR_SAF (R473). -/
def doClrSaf (t : Nat) (m : Master) : State → State :=
  whenLive t fun s => s.command m (ldgAddr 0) (firstOf (foreign s m) (clearRefusal s m 1)) fun s => s.clearPart m 1

/-! ## LDG registers (R475) -/

/-- The words FILL, SEQ, STAT and OVF of a partition. -/
def partWord (P : Partition) (i : Nat) : Nat :=
  match i with
  | 0 => P.fill
  | 1 => P.seq
  | 2 => P.gen + b2n P.full * 2 ^ 31
  | _ => P.qDrop + P.fullDrop * 2 ^ 16

/-- A trigger's word. -/
def trigWord (g : Trigger) : Nat := g.code + g.set.val * 2 ^ 27 + b2n g.snap * 2 ^ 29 + b2n g.capture * 2 ^ 30 + b2n g.en * 2 ^ 31

/-- A read of LDG at an offset. -/
def ldgRead (s : State) (off : Nat) : Option Nat :=
  if off % 4 ≠ 0 then none
  else
    match off with
    | 0x00 => some 0
    | 0x04 => some (b2n s.ldg.parts[(0 : Fin 3)].snapshotMode + 2 * b2n s.ldg.parts[(1 : Fin 3)].snapshotMode)
    | 0x08 => some s.ldg.clrUpto
    | 0x0C => some s.ldg.markA
    | 0x10 => some s.ldg.markB
    | _ =>
      if off < 0x80 then (groupAt 3 0x20 0x10 off).map fun x => partWord s.ldg.parts[x.1] (x.2 / 4)
      else if off < 0xA0 then (groupAt 8 0x80 4 off).map fun x => trigWord s.ldg.triggers[x.1]
      else if off < 0x1000 then (groupAt 4 0x100 4 off).map fun x => s.ldg.sets[x.1].count + s.ldg.sets[x.1].lane.val * 2 ^ 8
      else (groupAt 4 0x1000 0x100 off).bind fun x => (fin? 54 (x.2 / 4)).map fun j => s.ldg.sets[x.1].addrs[j]

/-- A write of LDG.CTRL: several command bits are refused with RANGE, after the LOCKED of the clears among them (R392, R518). -/
def ldgCtrl (s : State) (m : Master) (v : Nat) : RegEffect :=
  if severalBits v 7 then
    (firstOf (if v.testBit 0 then clearLock s m 0 else none) (firstOf (if v.testBit 1 then clearLock s m 1 else none) (some (deny .range))), id)
  else if v.testBit 0 then (clearRefusal s m 0, fun s => s.clearPart m 0)
  else if v.testBit 1 then (clearRefusal s m 1, fun s => s.clearPart m 1)
  else if v.testBit 2 then (none, fun s => s.ledgerMark m)
  else roWord

/-- A write of LDG.CFG (R461): each field under its own unlock. DESIGN CHOICE (log 112): a field whose present value is repeated counts as not
written, and a write that changes neither needs one of the two unlocks. -/
def ldgCfg (s : State) (m : Master) (v : Nat) : RegEffect :=
  let sys := s.ldg.parts[(0 : Fin 3)]
  let saf := s.ldg.parts[(1 : Fin 3)]
  let dSys := v.testBit 0 != sys.snapshotMode
  let dSaf := v.testBit 1 != saf.snapshotMode
  let safLock := if s.saf.unlock.st = .unlocked then none else some (if s.saf.unlock.st = .sealed then Answer.mk .sealed .none else ⟨.locked, .none⟩)
  let lock :=
    if dSys && dSaf then firstOf (sysGuard s m) safLock else if dSys then sysGuard s m else if dSaf then safLock
    else if safLock.isNone then none else sysGuard s m
  (firstOf lock (refuseIf ((dSys && decide (32 < sys.fill)) || (dSaf && decide (32 < saf.fill))) (deny .state)), fun s =>
    (s.setPart 0 fun P => { P with snapshotMode := v.testBit 0 }).setPart 1 fun P => { P with snapshotMode := v.testBit 1 })

/-- Does an address lie in a profile, ledger or capture window (R384, R467)? -/
def snapBarred (a : Nat) : Bool :=
  decide (0x01000000 ≤ a ∧ a < 0x02400000)

/-- A write of LDG at an offset; `mapped` says which addresses of the application map are mapped. -/
def ldgWrite (mapped : Nat → Bool) (s : State) (m : Master) (off v : Nat) : Option RegEffect :=
  if off % 4 ≠ 0 then none
  else
    match off with
    | 0x00 => some (ldgCtrl s m v)
    | 0x04 => some (ldgCfg s m v)
    | 0x08 => some (none, fun s => s.setLdg fun l => { l with clrUpto := v })
    | 0x0C => some (none, fun s => s.setLdg fun l => { l with markA := v })
    | 0x10 => some (none, fun s => s.setLdg fun l => { l with markB := v })
    | _ =>
      if off < 0x80 then (ldgRead s off).map fun _ => roWord
      else if off < 0xA0 then (groupAt 8 0x80 4 off).map fun x =>
        (none, fun s => s.setLdg fun l => { l with triggers := vupd l.triggers x.1 fun _ =>
          { en := v.testBit 31, capture := v.testBit 30, snap := v.testBit 29, set := finMod 4 (bits v 27 2), code := bits v 0 16 } })
      else if off < 0x1000 then (groupAt 4 0x100 4 off).map fun x =>
        inRange (decide (bits v 0 6 ≤ 54)) fun s => s.setLdg fun l => { l with sets := vupd l.sets x.1 fun q => { q with lane := finMod 8 (bits v 8 3), count := bits v 0 6 } }
      else (groupAt 4 0x1000 0x100 off).bind fun x => (fin? 54 (x.2 / 4)).map fun j =>
        inRange (mapped v && !snapBarred v && addrWorld v == .application) fun s =>
          s.setLdg fun l => { l with sets := vupd l.sets x.1 fun q => { q with addrs := vupd q.addrs j fun _ => v } }

/-! ## Meanings -/

/-- Meaning of LEDGER_RECORD_WRITE (R464). -/
def execLedgerRecordWrite (t : Nat) (part : Fin 3) (s : State) : Host.Outcome State Fault Refusal :=
  .next (doLedgerRecordWrite t part s)

/-- Meaning of MARK (R474). -/
def execMark (t : Nat) (m : Master) (s : State) : Host.Outcome State Fault Refusal :=
  .next (doMark t m s)

/-- Meaning of CLR_SYS (R473). -/
def execClrSys (t : Nat) (m : Master) (s : State) : Host.Outcome State Fault Refusal :=
  .next (doClrSys t m s)

/-- Meaning of CLR_SAF (R473). -/
def execClrSaf (t : Nat) (m : Master) (s : State) : Host.Outcome State Fault Refusal :=
  .next (doClrSaf t m s)

end Sys2Proof.Machine
end

