-- ==== Sys2Proof/Machine/Keys.lean ====
section
/-! DEFINITION. The key vault's operations (R435, R438, R440, R442, R443) and its registers and windows (R459). -/
namespace Sys2Proof.Machine

/-- Address of KEY.CTRL. -/
def keyCtrl : Nat := 0x00B00000

/-- The vault changed. -/
def State.setVault (s : State) (f : Vault → Vault) : State := { s with vault := f s.vault }

/-- Number of a life-cycle state. -/
def lcCode : LifeCycle → Nat | .provision => 0 | .deployed => 1 | .returned => 2

/-- May a loadable key carry this identity (R434)? -/
def keyIdOk (id : Nat) : Bool := decide (0x100 ≤ id ∧ id ≤ 0xFFFFFFFE)

/-! ## The blob store (R442) -/

/-- The store with a blob under its identity: a blob of the same identity is replaced. -/
def storeSet (st : List Blob) (b : Blob) : List Blob :=
  if st.any fun x => x.id == b.id then st.map fun x => if x.id = b.id then b else x else st ++ [b]

/-- Loaded copies of an identity leave their loadable slots. -/
def State.unloadId (s : State) (id : Nat) : State :=
  s.setVault fun v => { v with slots := vmap (fun i x => if 16 ≤ i.val ∧ (x.map fun k => k.id) = some id then none else x) v.slots }

/-- A blob added to the store, or KEY.STAT.ERR = 0x05 where 4 096 others fill it. -/
def State.storeBlob (s : State) (b : Blob) : Except Nat State :=
  if !(s.vault.store.any fun x => x.id == b.id) && decide (4096 ≤ s.vault.store.length) then .error 0x05
  else .ok ((s.unloadId b.id).setVault fun v => { v with store := storeSet v.store b })

/-- The blob of 256 bytes as the store holds it. -/
def blobOf (bytes : Bytes) : Blob := { id := u32 bytes 0x10, boot := u8 bytes 0xF == 1, bytes }

/-- A key is wrapped under a fresh nonce and added to the store. -/
def State.wrapStore (s : State) (k : Key) : Except Nat (Bytes × State) :=
  let r := s.drawBytes 12
  let bytes := wrapBlob r.2 k r.1
  (r.2.storeBlob (blobOf bytes)).map fun s => (bytes, s)

/-- A key placed in a loadable slot: in that of its own identity, or in one R442 frees. -/
def State.placeKey (s : State) (k : Key) : Option State :=
  match (fins 64).find? fun i => decide (16 ≤ i.val) && (s.vault.slots[i].map fun x => x.id) == some k.id with
  | some i => some (s.putKey i k)
  | none => s.loadKey k

/-- The keys with BOOT = 1 are loaded from the store, in its order (R436). -/
def State.loadBoot (s : State) : State :=
  (s.vault.store.filter fun b => b.boot).foldl (fun s b =>
    match unwrapBlob s b.bytes with
    | .ok k => (match s.placeKey k with | some s' => s' | none => s)
    | .error _ => s) s

/-! ## Operations -/

/-- The operation ends with its error code; KEY.STAT changes (R459). A re-masking round that waited for it follows (R435). -/
def State.keyDone (s : State) (err : Nat) : State :=
  let s := (s.setVault fun v => { v with op := none, err }).bump 12
  if s.vault.remaskPend then s.remaskRound else s

/-- GENERATE: a new key, its blob in the window and in the store. -/
def State.opGenerate (s : State) (o : KeyOp) : State :=
  if keyLen o.type = 0 ∨ o.world = 3 ∨ !usageValid o.type o.usage ∨ !keyIdOk o.id then s.keyDone 0x04
  else
    let r := s.drawBytes (keyLen o.type)
    let k : Key := { id := o.id, type := o.type, usage := o.usage, masters := o.masters, world := o.world, lc := o.lc, boot := o.boot, material := r.1, used := s.mt }
    match r.2.wrapStore k with
    | .ok (bytes, s) => (s.setVault fun v => { v with blobWin := memOf 0 bytes }).keyDone 0
    | .error e => s.keyDone e

/-- LOAD: the window's blob is unwrapped into a loadable slot. -/
def State.opLoad (s : State) (o : KeyOp) : State :=
  match unwrapBlob s o.blob with
  | .error e => s.keyDone e
  | .ok k =>
    if !keyIdOk k.id then s.keyDone 0x02
    else match s.placeKey k with
      | some s => s.keyDone 0
      | none => s.keyDone 0x01

/-- UNLOAD: the slot is emptied. -/
def State.opUnload (s : State) (o : KeyOp) : State :=
  match fin? 64 o.slot with
  | some i => (s.setVault fun v => { v with slots := vupd v.slots i fun _ => none }).keyDone 0
  | none => s.keyDone 0

/-- STORE: the window's blob is checked and added to the store. -/
def State.opStore (s : State) (o : KeyOp) : State :=
  match unwrapBlob s o.blob with
  | .error e => s.keyDone e
  | .ok k =>
    if !keyIdOk k.id then s.keyDone 0x02
    else match s.storeBlob (blobOf o.blob) with
      | .ok s => s.keyDone 0
      | .error e => s.keyDone e

/-- DELETE: the blob leaves the store and the key its slot. -/
def State.opDelete (s : State) (o : KeyOp) : State :=
  if s.vault.store.any fun b => b.id == o.id then
    ((s.unloadId o.id).setVault fun v => { v with store := v.store.filter fun b => b.id != o.id }).keyDone 0
  else s.keyDone 0x06

/-- The application image that runs (R452). -/
def State.runImage (s : State) : FwImage := if s.upd.bootB then s.upd.slotB else s.upd.slotA

/-- The application image of the other slot. -/
def State.otherImage (s : State) : FwImage := if s.upd.bootB then s.upd.slotA else s.upd.slotB

/-- The metrology firmware that runs (R458). -/
def State.metImage (s : State) : FwImage := if s.upd.metOnB then s.upd.metB else s.upd.metA

/-- The items of the attestation statement (R443), in the order of the rule. -/
def State.attestItems (s : State) (nonce : Bytes) : List Bytes :=
  [nonce, deviceIdBytes s, [byte (lcCode s.vault.lc)], [byte (b2n s.vault.debug)], s.runImage.uid, leBytes 4 s.runImage.version, s.met.fwId,
   [byte (sealCode s.met.sealSt)], leBytes 4 s.met.keyGen, (match s.receiptKey with | some k => Config.publicOf k | none => []), Config.publicOf (Config.fixedKey 2)]

/-- ATTEST: the statement, signed with slot 0, and the certificate, in the attest window (R443). -/
def State.opAttest (s : State) (o : KeyOp) : State :=
  let st := Config.attestStatement (s.attestItems (slice o.blob 0 16))
  let w := Config.attestLayout st (Config.signP384 (Config.fixedKey 0) st) Config.slot0Certificate
  (s.setVault fun v => { v with attestWin := memOf 0 (w.take 4096) }).keyDone 0

/-- The effect of the running operation as it ends. -/
def State.keyOpEnd (s : State) (o : KeyOp) : State :=
  match o.op with
  | 1 => s.opGenerate o
  | 2 => s.opLoad o
  | 3 => s.opUnload o
  | 4 => s.opStore o
  | 5 => s.opDelete o
  | 6 => s.opAttest o
  | _ => s.keyDone 0

/-- KEY_OP_COMPLETE (R478). -/
def doKeyOpComplete (t : Nat) : State → State :=
  whenLive t fun s => match s.vault.op with | some o => s.keyOpEnd o | none => s

/-- The operation of a write of KEY.CTRL, with the operands it finds. -/
def State.keyOperands (s : State) (op slot : Nat) : KeyOp :=
  let v := s.vault
  { op, slot, id := v.id, type := v.attrType, boot := v.attrBoot, lc := v.attrLc, world := v.attrWorld, masters := v.attrMasters, usage := v.usage, blob := memRange v.blobWin 0 256 }

/-- The refusal of an operation: one is running (R478), or UNLOAD names no loadable slot (R459). -/
def keyRefusal (s : State) (op slot : Nat) : Option Answer :=
  firstOf (refuseIf s.vault.op.isSome ⟨.busy, .none⟩) (refuseIf (op == 3 && !decide (16 ≤ slot ∧ slot ≤ 63)) (deny .range))

/-- The operation starts; it runs after its access has been answered (R478). -/
def State.keyStart (s : State) (op slot : Nat) : State :=
  (s.setVault fun v => { v with op := some (s.keyOperands op slot), ctrlSlot := slot }).bump 12

/-- A command of KEY.CTRL.OP with the SLOT field of the same write. -/
def State.keyCommand (s : State) (m : Master) (op slot : Nat) : State :=
  s.command m keyCtrl (firstOf (foreign s m) (keyRefusal s op slot)) fun s => s.keyStart op slot

/-- GENERATE (R442). -/
def doGenerate (t : Nat) (m : Master) : State → State := whenLive t fun s => s.keyCommand m 1 s.vault.ctrlSlot

/-- LOAD (R442). -/
def doLoad (t : Nat) (m : Master) : State → State := whenLive t fun s => s.keyCommand m 2 s.vault.ctrlSlot

/-- UNLOAD (R442). -/
def doUnload (t : Nat) (m : Master) (slot : Nat) : State → State := whenLive t fun s => s.keyCommand m 3 slot

/-- STORE (R442). -/
def doStore (t : Nat) (m : Master) : State → State := whenLive t fun s => s.keyCommand m 4 s.vault.ctrlSlot

/-- DELETE (R442). -/
def doDelete (t : Nat) (m : Master) : State → State := whenLive t fun s => s.keyCommand m 5 s.vault.ctrlSlot

/-- ATTEST (R443). -/
def doAttest (t : Nat) (m : Master) : State → State := whenLive t fun s => s.keyCommand m 6 s.vault.ctrlSlot

/-- REMASK (R435): 250 ms after the latest round, every occupied slot takes a new mask, that of the next round. An operation in
progress finishes first. -/
def doRemask (t : Nat) : State → State :=
  whenLive t fun s =>
    if s.vault.remaskAt + ms 250 ≤ s.mt then
      let s := s.setVault fun v => { v with remaskAt := s.mt }
      if s.vault.op.isSome then s.setVault fun v => { v with remaskPend := true } else s.remaskRound
    else s

/-! ## Life cycle and zeroisation -/

/-- Does the store hold keys with LAYOUT_SIGN and with CFG_UNLOCK, both with BOOT = 1 (R438)? -/
def lcCondition (s : State) : Bool :=
  [0, 6].all fun use => s.vault.store.any fun b => b.boot && (u32 b.bytes 8).testBit use

/-- The life cycle advances, with its record (R438). -/
def State.lcGo (s : State) (lc : LifeCycle) : State := (s.setVault fun v => { v with lc }).log 0x0C01 0xFF (lcCode lc) 0

/-- The refusal of a write of KEY.LC.STATE. -/
def lcRefusal (s : State) (m : Master) (v : Nat) : Option Answer :=
  firstOf (sysGuard s m) (firstOf (refuseIf (decide (v ≠ 1)) (deny .range)) (firstOf (refuseIf (s.vault.lc != .provision || !lcCondition s) (deny .state)) (pfwRefusal s)))

/-- A write of KEY.LC.STATE with its answer: a refusal for its state sets KEY.STAT.ERR = 0x07 (R438). -/
def State.lcWrite (s : State) (m : Master) (v : Nat) : State × Answer :=
  match lcRefusal s m v with
  | none => (s.lcGo .deployed, okAnswer)
  | some a => (if a = deny .state then s.keyError 0x07 else s, a)

/-- LC_ADVANCE (R438). -/
def doLcAdvance (t : Nat) (m : Master) (value : Nat) : State → State :=
  whenLive t fun s =>
    match foreign s m with
    | some a => s.answered m true 0x00B00014 a
    | none => let r := s.lcWrite m (bits value 0 2); r.1.answered m true 0x00B00014 r.2

/-- Slot 6 and the loadable slots are erased and the salt of the device wrap key is replaced (R440). -/
def State.zeroise (s : State) : State :=
  let r := s.drawBytes 32
  let s := r.2.setVault fun v => { v with slots := Vector.replicate 64 none, salt := r.1, zeroised := true }
  ({ s with met := { s.met with key := none } }).bump 12

/-! ## KEY registers and windows (R459) -/

/-- KEY.ATTR of a key's attributes. -/
def attrWord (type : Nat) (boot : Bool) (lc world masters : Nat) : Nat :=
  masters + world * 2 ^ 18 + lc * 2 ^ 20 + b2n boot * 2 ^ 24 + type % 16 * 2 ^ 28

/-- KEY.STAT. -/
def keyStat (s : State) : Nat :=
  b2n s.vault.op.isSome + b2n s.vault.debug * 4 + b2n s.vault.zeroised * 8 + s.loadedCount * 2 ^ 16 + s.vault.err * 2 ^ 24

/-- A read of KEY at an offset of the block. -/
def keyRead (s : State) (off : Nat) : Option Nat :=
  let v := s.vault
  match off with
  | 0x00 => some (v.ctrlSlot * 2 ^ 8)
  | 0x04 => some (keyStat s)
  | 0x08 => some v.id
  | 0x0C => some (attrWord v.attrType v.attrBoot v.attrLc v.attrWorld v.attrMasters)
  | 0x10 => some v.usage
  | 0x14 => some (lcCode v.lc)
  | 0x18 => some v.maskCnt
  | _ =>
    if off % 4 ≠ 0 then none
    else if 0x100 ≤ off ∧ off < 0x200 then
      some (match s.keySlot (finMod 64 ((off - 0x100) / 4)) with | some k => k.id | none => 0xFFFFFFFF)
    else if 0x200 ≤ off ∧ off < 0x300 then
      some (match s.keySlot (finMod 64 ((off - 0x200) / 4)) with | some k => attrWord k.type k.boot k.lc k.world k.masters | none => 0)
    else none

/-- A write of KEY at an offset of the block, but for KEY.LC. -/
def keyWrite (s : State) (off w : Nat) : Option RegEffect :=
  match off with
  | 0x00 =>
    let op := bits w 0 3
    let slot := bits w 8 6
    if slot < 16 then some (some (deny .range), id)
    else if op = 0 ∨ op = 7 then some (none, fun s => s.setVault fun v => { v with ctrlSlot := slot })
    else some (keyRefusal s op slot, fun s => s.keyStart op slot)
  | 0x08 => some (none, fun s => s.setVault fun v => { v with id := w })
  | 0x0C => some (none, fun s => s.setVault fun v => { v with attrMasters := bits w 0 7, attrWorld := bits w 18 2, attrLc := bits w 20 4, attrBoot := w.testBit 24, attrType := bits w 28 4 })
  | 0x10 => some (none, fun s => s.setVault fun v => { v with usage := bits w 0 14 })
  | _ => (keyRead s off).map fun _ => roWord

/-- A word of the blob window or the attest window. -/
def keyWindow (s : State) (addr : Nat) : Option Nat :=
  if addr % 4 ≠ 0 then none
  else if 0x00B10000 ≤ addr ∧ addr < 0x00B10100 then some (memWord s.vault.blobWin (addr - 0x00B10000))
  else if 0x00B20000 ≤ addr ∧ addr < 0x00B21000 then some (memWord s.vault.attestWin (addr - 0x00B20000))
  else none

/-- A write to the blob window; one to the attest window is ignored (R7). -/
def keyWindowWrite (addr w : Nat) : Option RegEffect :=
  if addr % 4 ≠ 0 then none
  else if 0x00B10000 ≤ addr ∧ addr < 0x00B10100 then
    some (none, fun s => s.setVault fun v => { v with blobWin := memWrites v.blobWin (addr - 0x00B10000) (leBytes 4 w) })
  else if 0x00B20000 ≤ addr ∧ addr < 0x00B21000 then some roWord
  else none

/-! ## Meanings -/

/-- Meaning of GENERATE (R442). -/
def execGenerate (t : Nat) (m : Master) (s : State) : Host.Outcome State Fault Refusal :=
  .next (doGenerate t m s)

/-- Meaning of LOAD (R442). -/
def execLoad (t : Nat) (m : Master) (s : State) : Host.Outcome State Fault Refusal :=
  .next (doLoad t m s)

/-- Meaning of UNLOAD (R442). -/
def execUnload (t : Nat) (m : Master) (slot : Nat) (s : State) : Host.Outcome State Fault Refusal :=
  .next (doUnload t m slot s)

/-- Meaning of STORE (R442). -/
def execStore (t : Nat) (m : Master) (s : State) : Host.Outcome State Fault Refusal :=
  .next (doStore t m s)

/-- Meaning of DELETE (R442). -/
def execDelete (t : Nat) (m : Master) (s : State) : Host.Outcome State Fault Refusal :=
  .next (doDelete t m s)

/-- Meaning of ATTEST (R443). -/
def execAttest (t : Nat) (m : Master) (s : State) : Host.Outcome State Fault Refusal :=
  .next (doAttest t m s)

/-- Meaning of REMASK (R435). -/
def execRemask (t : Nat) (s : State) : Host.Outcome State Fault Refusal :=
  .next (doRemask t s)

/-- Meaning of LC_ADVANCE (R438). -/
def execLcAdvance (t : Nat) (m : Master) (value : Nat) (s : State) : Host.Outcome State Fault Refusal :=
  .next (doLcAdvance t m value s)

/-- Meaning of KEY_OP_COMPLETE (R478). -/
def execKeyOpComplete (t : Nat) (s : State) : Host.Outcome State Fault Refusal :=
  .next (doKeyOpComplete t s)

end Sys2Proof.Machine
end

