-- ==== Sys2Proof/Machine/Update.lean ====
section
/-! DEFINITION. Jaruhal containers (R444 to R446), their delivery (R447 to R450), the application of small containers (R451),
installation of firmware (R452, R453, R458), arming (R454, R455) and the UPD registers (R459). -/
namespace Sys2Proof.Machine

/-- Address of UPD.CTRL. -/
def updCtrl : Nat := 0x00C00000

/-- The UPD block changed. -/
def State.setUpd (s : State) (f : Update → Update) : State := { s with upd := f s.upd }

/-! ## Areas and status -/

/-- Number of an area's state. -/
def areaCode : AreaSt → Nat | .empty => 0 | .receiving => 1 | .staged => 2 | .armed => 3 | .activating => 4

/-- UPD.STAT. -/
def updStat (s : State) : Nat := areaCode s.upd.large.st + areaCode s.upd.small.st * 2 ^ 4 + s.upd.last * 2 ^ 20 + s.upd.err * 2 ^ 24

/-- A change of UPD.STAT is counted (R459). -/
def State.updChange (s : State) (f : State → State) : State := let q := f s; q.bumpIf (updStat q != updStat s) 13

/-- Chunks an area holds at most (R445). -/
def areaCap (small : Bool) : Nat := if small then 16 else 3072

/-- The area UPD.CHUNK names. -/
def State.area (s : State) (small : Bool) : Area := if small then s.upd.small else s.upd.large

/-- The area changed. -/
def State.setArea (s : State) (small : Bool) (a : Area) : State :=
  s.setUpd fun u => if small then { u with small := a } else { u with large := a }

/-- The staged bytes of an area, missing chunks as zeros. -/
def areaBytes (a : Area) : Bytes :=
  (List.range a.total).flatMap fun i => match tableGet a.chunks i with | some b => b | none => List.replicate 4096 0

/-! ## Containers (R444, R445) -/

/-- TYPE of a container. -/
def contType (c : Bytes) : Nat := u8 c 6

/-- FLAGS of a container. -/
def contFlag (c : Bytes) (i : Nat) : Bool := (u8 c 7).testBit i

/-- PAYLOAD_LEN. -/
def contLen (c : Bytes) : Nat := u32 c 8

/-- UID. -/
def contUid (c : Bytes) : Bytes := slice c 16 16

/-- VERSION. -/
def contVersion (c : Bytes) : Nat := u32 c 32

/-- The longest payload of a type (R445); none for an unknown type. -/
def typeLimit : Nat → Option Nat
  | 1 => some 12582592 | 2 => some 2096832 | 3 => some 65216 | 4 => some 65216 | 5 => some 65216 | 6 => some 65216 | _ => none

/-- The floor of a type (R452): only firmware has one. -/
def State.floorOf (s : State) (type : Nat) : Nat := if type = 1 then s.upd.floorApp else if type = 2 then s.upd.floorMet else 0

/-- Code 0x01: MAGIC, FORMAT, the reserved fields, HEADER_CRC and CHUNKS. -/
def headerBad (c : Bytes) : Bool :=
  u32 c 0 != 0x48524A5A || u16 c 4 != 1 || decide (8 ≤ u8 c 7) || !zeros c 14 2 || !zeros c 41 1 || !zeros c 132 56 ||
  u32 c 188 != crc32 (c.take 188) || u16 c 12 != ceilDiv (320 + contLen c) 4096

/-- The first failure of the header checks of R448, in the order of R450; 0 for none. -/
def headerError (s : State) (small : Bool) (c : Bytes) : Nat :=
  if headerBad c then 0x01
  else if u16 c 42 ≠ 0x4D64 ∨ u8 c 40 > s.fuses.step ∨ (le c 44 8 ≠ 0 ∧ le c 44 8 ≠ s.fuses.deviceId) then 0x02
  else if contVersion c < s.floorOf (contType c) then 0x03
  else match typeLimit (contType c) with
    | none => 0x04
    | some n => if decide (3 ≤ contType c) != small ∨ n < contLen c then 0x04 else 0

/-! ## Delivery (R447 to R449) -/

/-- Room for a chunk in the share of update staging or in the unreserved share (R206); none at a power-fail warning (R421). -/
def State.chunkRoom (s : State) : Bool := !s.pwr.pfw && decide (4096 ≤ s.mram.staging ∨ 4096 ≤ s.spareFor 4)

/-- The share is charged with a chunk. -/
def State.chargeChunk (s : State) : State :=
  if 4096 ≤ s.mram.staging then { s with mram := { s.mram with staging := s.mram.staging - 4096 } }
  else { s with mram := { s.mram with spare := s.mram.spare - 4096 } }

/-- Does a chunk 0 of another UID meet an area that holds a header already (R448)? -/
def otherUid (a : Area) (c : Bytes) : Bool := decide (a.total ≠ 0) && a.uid != contUid c

/-- The error of a commit of the chunk window: the transfer, its place, then the header it brings; 0 for none. -/
def chunkError (s : State) (small : Bool) (index crc : Nat) (b : Bytes) : Nat :=
  let a := s.area small
  if crc ≠ crc32c b then 0x06
  else if areaCap small ≤ index ∨ (a.total ≠ 0 ∧ index ≠ 0 ∧ a.total ≤ index) then 0x07
  else if index ≠ 0 then 0
  else if headerError s small b ≠ 0 then headerError s small b
  else if otherUid a b then 0x05 else 0

/-- The area with a chunk stored: chunk 0 brings CHUNKS and UID, and chunks beyond CHUNKS go. -/
def areaStore (a : Area) (index : Nat) (b : Bytes) : Area :=
  let a := { a with chunks := tableSet a.chunks index b }
  let a := if index = 0 then { a with total := u16 b 12, uid := contUid b, chunks := a.chunks.filter fun x => decide (x.1 < u16 b 12) } else a
  let full := decide (a.total ≠ 0 ∧ a.chunks.length = a.total)
  { a with st := match a.st with
      | .armed => .armed
      | .activating => .activating
      | _ => if full then .staged else .receiving }

/-- The error of a chunk 0 that finds chunks at or above its CHUNKS. -/
def beyondError (a : Area) (index : Nat) (b : Bytes) : Nat :=
  if index = 0 ∧ (a.chunks.any fun x => decide (u16 b 12 ≤ x.1)) then 0x07 else 0

/-- COMMIT with its answer (R447, R448). -/
def State.chunkCommit (s : State) : State × Answer :=
  let u := s.upd
  let small := u.chunkArea == 1
  let b := memRange u.chunkWin 0 4096
  let e := chunkError s small u.chunkIndex u.chunkCrc b
  if !s.chunkRoom then (s, ⟨.busy, .mram⟩)
  else if e ≠ 0 then (s.updChange fun s => s.setUpd fun u => { u with err := e }, if e = 5 then deny .state else okAnswer)
  else
    (s.updChange fun s =>
      let a := s.area small
      (s.chargeChunk.setArea small (areaStore a u.chunkIndex b)).setUpd fun u => { u with err := beyondError a u.chunkIndex b }, okAnswer)

/-- CHUNK_COMMIT (R447). -/
def doChunkCommit (t : Nat) (m : Master) : State → State :=
  whenLive t fun s =>
    match foreign s m with
    | some a => s.answered m true updCtrl a
    | none => let r := s.chunkCommit; r.1.answered m true updCtrl r.2

/-- ABORT empties the area UPD.CHUNK names; an armed activation goes with it (R448). -/
def State.abortArea (s : State) : State :=
  s.updChange fun s =>
    if s.upd.chunkArea = 1 then s.setArea true {} else (s.setArea false {}).setUpd fun u => { u with mode := 0, hold := false }

/-- ABORT (R448). -/
def doAbort (t : Nat) (m : Master) : State → State :=
  whenLive t fun s => s.command m updCtrl (foreign s m) fun s => s.abortArea

/-! ## Verification (R445, R450) -/

/-- The signature block of a container. -/
def contSig (c : Bytes) : Bytes := slice c (192 + contLen c) 128

/-- Is the key one that R445 lets sign a container of the type? After a tamper event only the firmware root may reinstall keys (R440). -/
def signerId (s : State) (type : Nat) (k : Key) : Bool :=
  match type with
  | 1 => k.id == (if s.vault.debug then 4 else 3)
  | 2 => k.id == 7
  | 6 => k.id == 3
  | 4 => !s.vault.zeroised || k.id == 3
  | _ => type == 3 || type == 5

/-- The uses of a signing key by type (R445), each by a master of the world the container's effect is in. -/
def signerUses : Nat → List (Master × Nat)
  | 1 => [(.marketSup, 1)] | 2 => [(.metroCore, 1)] | 3 => [(.metroCore, 3), (.metroCore, 4)] | 4 => [(.marketSup, 10)]
  | 5 => [(.safetyCtl, 5), (.marketSup, 5)] | 6 => [(.marketSup, 1)] | _ => []

/-- May the key sign a container of the type here (R445, R437)? -/
def signerAllowed (s : State) (type : Nat) (k : Key) : Bool := signerId s type k && (signerUses type).any fun u => keyUsable s k u.1 u.2

/-- A key that R445 names for the type and the vault refuses (R437). -/
def State.signerRefused (s : State) (type : Nat) (k : Key) : State :=
  match signerUses type with
  | u :: _ => if signerId s type k then s.keyRefused k.id u.1 else s
  | [] => s

/-- Codes 0x08 and 0x09, with the state after the vault has served the key and the key; 0 for none. In PROVISION a key import
may come unsigned (R446), but for a vault that a tamper event has erased (R440). -/
def signCheck (s : State) (c : Bytes) : Nat × Option Key × State :=
  let x := contSig c
  if contType c = 4 ∧ s.vault.lc = .provision ∧ s.vault.zeroised = false ∧ u8 x 0 = 0 then (if x.all (· == 0) then 0 else 0x08, none, s)
  else if u8 x 0 ≠ 2 ∨ !zeros x 1 3 ∨ !zeros x 104 24 then (0x08, none, s)
  else
    let r := s.findKey (u32 x 4)
    match r.1 with
    | none => (0x09, none, r.2)
    | some k =>
      if !Config.verifyP384 k.material (c.take (192 + contLen c)) (slice x 8 48) (slice x 56 48) then (0x08, none, r.2)
      else if signerAllowed r.2 (contType c) k then (0, some k, r.2) else (0x09, none, r.2.signerRefused (contType c) k)

/-- Must the container be encrypted, may it, or must it not (R445)? -/
def encRule (s : State) (type : Nat) : Option Bool :=
  match type with
  | 1 => some !s.vault.debug
  | 2 => some true
  | 3 => none
  | 4 => some true
  | _ => some false

/-- The decryption key of a container: slot 5 for firmware, the key it names for a calibration set. -/
def decKey (s : State) (c : Bytes) : Option Key × State :=
  let id := u32 c 52
  let r := s.findKey id
  match r.1 with
  | some k =>
    if contType c ≠ 3 ∧ id ≠ 5 then (none, r.2)
    else if keyUsable r.2 k .marketSup 2 ∨ keyUsable r.2 k .metroCore 2 then (some k, r.2)
    else (none, r.2.keyRefused id (if contType c = 1 then .marketSup else .metroCore))
  | none => (none, r.2)

/-- The payload in clear, or none (code 0x0A). -/
def contPlain (s : State) (c : Bytes) : Option Bytes × State :=
  let body := slice c 192 (contLen c)
  let enc := contFlag c 0
  let open_ := fun (key cipher : Bytes) => Config.gcmOpen key (slice c 56 12) (c.take 56) cipher (slice c 68 16)
  if (match encRule s (contType c) with | some r => r != enc | none => false) then (none, s)
  else if !enc then (some body, s)
  else if contType c = 4 then
    ((open_ ((Config.importKey (Config.fixedKey 2) (body.take 97) (contUid c)).take 32) (body.drop 97)).map fun p => body.take 97 ++ p, s)
  else
    let r := decKey s c
    (r.1.bind fun k => open_ k.material body, r.2)

/-- A verified container: the code of R450 with 0 for success, its payload and signing key, and the state after the vault has
served its keys. -/
structure Verified where
  code : Nat
  plain : Bytes
  signer : Option Key
  state : State

/-- Codes 0x01 to 0x0B in their order. -/
def verify (s : State) (small : Bool) (c : Bytes) : Verified :=
  if headerError s small c ≠ 0 then ⟨headerError s small c, [], none, s⟩
  else
    let g := signCheck s c
    if g.1 ≠ 0 then ⟨g.1, [], none, g.2.2⟩
    else
      let p := contPlain g.2.2 c
      match p.1 with
      | none => ⟨0x0A, [], none, p.2⟩
      | some plain => if sha384 plain ≠ slice c 84 48 then ⟨0x0B, [], none, p.2⟩ else ⟨0, plain, g.2.1, p.2⟩

/-! ## Small containers (R451) -/

/-- The records of a key import (R446). -/
def importRecords (plain : Bytes) : List Bytes := chunks 256 254 (plain.drop 97)

/-- Does a key-import payload consist of a point and whole records? -/
def importShape (plain : Bytes) : Bool :=
  decide (97 ≤ plain.length ∧ (plain.length - 97) % 256 = 0 ∧ (plain.length - 97) / 256 ≤ 254)

/-- One record of a key import is wrapped and stored, or its error by R442. -/
def State.importRecord (s : State) (b : Bytes) : Except Nat State :=
  if !zeros b 0x1C 12 ∨ !zeros b 0x98 16 ∨ !keyIdOk (u32 b 0x10) then .error 0x02
  else match blobError s b with
    | some e => .error e
    | none => (s.wrapStore (blobKey s b (slice b 0x28 112))).map fun r => r.2

/-- All records as one change (R446): with any failure, none is stored and KEY.STAT.ERR tells why. -/
def State.importKeys (s : State) (plain : Bytes) : State :=
  let r := (importRecords plain).foldl (fun (q : Except Nat State) b => q.bind fun s => s.importRecord b) (Except.ok s)
  match r with
  | .ok q => q.bumpIf (q.loadedCount != s.loadedCount) 12
  | .error e => s.keyError e

/-- The key has the attribute a calibration set's request needs (R261). -/
def calSigner (s : State) (k : Option Key) (req : Nat) : Bool :=
  match k with | some k => keyUsable s k .metroCore (if req = 2 then 4 else 3) | none => false

/-- The vault refuses the partition the use of a signing key without the attribute of the request: a violation (R261, R437). -/
def State.calRefused (s : State) (k : Option Key) (req : Nat) : State :=
  match k with | some q => if calSigner s k req then s else s.keyRefused q.id .metroCore | none => s

/-- A calibration set goes to the partition (R263): its code of R450. -/
def State.applyCal (s : State) (k : Option Key) (plain : Bytes) : Nat × State :=
  let s := (s.calRefused k (u8 plain 4)).takeCalSet (calSigner s k (u8 plain 4)) (slice plain 0 1088)
  (if s.met.calErr = 6 then 0x09 else if s.met.calErr = 1 then 0x0E else 0, s)

/-- The effect of a verified small container, with its code. -/
def State.applySmall (s : State) (type : Nat) (k : Option Key) (plain : Bytes) : Nat × State :=
  match type with
  | 3 => s.applyCal k plain
  | 4 => if importShape plain then (0, s.importKeys plain) else (0x01, s)
  | 5 => (0, ({ s with saf := { s.saf with noPw := true } }).bumpIf (!s.saf.noPw) 8)
  | 6 => if s.vault.lc = .deployed then (0, s.lcGo .returned) else (0x0E, s)
  | _ => (0x04, s)

/-- The partition learns that a calibration container failed its verification (R261, R269). -/
def State.calUnverified (s : State) (c : Bytes) : State :=
  if contType c = 3 then s.takeCalSet false [] else s

/-- APPLY: verified and applied, then the area is EMPTY (R451). -/
def State.applyContainer (s : State) : State :=
  s.updChange fun s =>
    let c := areaBytes s.upd.small
    let v := verify s true c
    let r := if v.code ≠ 0 then (v.code, v.state.calUnverified c) else v.state.applySmall (contType c) v.signer v.plain
    (r.2.setArea true {}).setUpd fun u => { u with err := r.1 }

/-- APPLY (R451): there must be a staged container. -/
def applyRefusal (s : State) : Option Answer := firstOf (refuseIf (s.upd.small.st != .staged) (deny .state)) (pfwRefusal s)

/-- APPLY (R451). -/
def doApply (t : Nat) (m : Master) : State → State :=
  whenLive t fun s => s.command m updCtrl (firstOf (foreign s m) (applyRefusal s)) fun s => s.applyContainer

/-! ## Floors and trials (R452, R453) -/

/-- The floor of the application rises to the running version. -/
def State.raiseApp (s : State) : State := s.setUpd fun u => { u with floorApp := max u.floorApp s.runImage.version }

/-- The floor of the metrology firmware rises to the running version. -/
def State.raiseMet (s : State) : State := s.setUpd fun u => { u with floorMet := max u.floorMet s.metImage.version }

/-- RAISE (R452). -/
def doRaise (t : Nat) (m : Master) : State → State :=
  whenLive t fun s => s.command m updCtrl (firstOf (foreign s m) (firstOf (sysGuard s m) (pfwRefusal s))) fun s => s.raiseApp.raiseMet

/-- Has the image run the FLOOR_H hours it was started with, of which `left` were left at `since`, and is it not on trial? -/
def floorDue (s : State) (left since : Nat) (trial : Option Nat) : Bool := trial.isNone && decide (left ≤ s.mt - since)

/-- FLOOR_H in ns, as an image that starts takes it (R12). -/
def floorNs (u : Update) : Nat := u.floorH * 3600000000000

/-- FLOOR_RAISE (R452), for each firmware type of its own. -/
def doFloorRaise (t : Nat) : State → State :=
  whenLive t fun s =>
    let s := if floorDue s s.upd.runLeft s.upd.runFrom s.upd.trial then s.raiseApp else s
    if floorDue s s.upd.metLeft s.upd.metFrom s.upd.metTrial then s.raiseMet else s

/-- A trial that has run its 10 s. -/
def trialOver (t : Nat) (trial : Option Nat) : Option Nat := match trial with | some r => if r + secs 10 ≤ t then none else some r | none => none

/-- TRIAL_END (R453, R458). -/
def doTrialEnd (t : Nat) : State → State :=
  whenLive t fun s => s.setUpd fun u => { u with trial := trialOver t u.trial, metTrial := trialOver t u.metTrial }

/-- An activation has ended: the code, its effect on LAST, and the record (R453, R466). -/
def State.activationEnds (s : State) (index version err last : Nat) : State :=
  let s := s.updChange fun s => s.setUpd fun u =>
    { u with err, last, mode := 0, hold := false, large := if last = 1 ∧ err = 0 then {} else { u.large with st := if u.large.total = 0 then u.large.st else .staged } }
  s.log 0x0D01 index version (last + err * 2 ^ 8)

/-- A reset within the trial reverts to the previous application image (R453). -/
def State.revertApp (s : State) : State :=
  match s.upd.trial with
  | none => s
  | some _ =>
    let v := s.runImage.version
    let s := s.updChange fun s => s.setUpd fun u => { u with bootB := !u.bootB, trial := none, err := 0x0D, last := 3, runLeft := floorNs u, runFrom := s.mt }
    s.log 0x0D01 0 v (3 + 0x0D * 2 ^ 8)

/-- The partition runs the image of its boot slot. -/
def State.runsMet (s : State) : State := { s with met := { s.met with fwId := s.metImage.fwId } }

/-- A reset of the partition within its trial reverts to its previous firmware (R458). -/
def State.revertMet (s : State) : State :=
  match s.upd.metTrial with
  | none => s
  | some _ =>
    let v := s.metImage.version
    let s := s.updChange fun s => s.setUpd fun u => { u with metOnB := !u.metOnB, metTrial := none, err := 0x0D, last := 3, metLeft := floorNs u, metFrom := s.mt }
    s.runsMet.log 0x0D01 1 v (3 + 0x0D * 2 ^ 8)

/-- What a verified firmware container leaves in a slot: its payload in plaintext with its header and signature (R452). -/
def fwOf (c plain : Bytes) : FwImage :=
  { present := true, uid := contUid c, version := contVersion c, flags := u8 c 7, header := c.take 192, image := plain, sig := contSig c,
    fwId := (sha256 plain).take 8 }

/-- Does DIGEST hold over what a slot holds? -/
def FwImage.digestOk (x : FwImage) : Bool := sha384 x.image == slice x.header 84 48

/-- The payload of a slot's image as it was transmitted, over which its signature runs (R444): an encrypted one is sealed again under slot 5 with
the nonce of its header (DEDUCED, log 139). -/
def FwImage.transmitted (x : FwImage) : Bytes :=
  if contFlag x.header 0 then (Config.gcmSeal (Config.fixedKey 5) (slice x.header 56 12) (x.header.take 56) x.image).1 else x.image

/-- The boot's verification of a slot (R452): signature of the root that is in force (R439, R445) and DIGEST. The image a module leaves
manufacture with is one of the firmware root (DESIGN CHOICE, log 139). -/
def State.bootVerifies (s : State) (x : FwImage) : Bool :=
  let root := if s.vault.debug then 4 else 3
  x.present && (x.factory && !s.vault.debug ||
    (u8 x.sig 0 == 2 && u32 x.sig 4 == root && Config.verifyP384 (Config.fixedKey root) (x.header ++ x.transmitted) (slice x.sig 8 48) (slice x.sig 56 48) && x.digestOk))

/-- The application image written into the slot that does not run (R453). -/
def State.writeSlot (s : State) (x : FwImage) : State := s.setUpd fun u => if u.bootB then { u with slotA := x } else { u with slotB := x }

/-- The metrology firmware written into the idle slot of the partition (R458). -/
def State.writeMet (s : State) (x : FwImage) : State := s.setUpd fun u => if u.metOnB then { u with metA := x } else { u with metB := x }

/-- The slot that was written becomes the boot slot: its image is on trial and starts the hours of FLOOR_H (R452, R453). -/
def State.bootOther (s : State) : State :=
  s.setUpd fun u => { u with bootB := !u.bootB, trial := some s.mt, runLeft := floorNs u, runFrom := s.mt }

/-- The same for the partition (R458). -/
def State.metOther (s : State) : State :=
  s.setUpd fun u => { u with metOnB := !u.metOnB, metTrial := some s.mt, metLeft := floorNs u, metFrom := s.mt }

/-- The staged application image is verified and written into the slot that does not run, which becomes the boot slot once DIGEST holds over
what was written (R453); a failure leaves the running slot in force. -/
def State.installApp (s : State) : State :=
  let c := areaBytes s.upd.large
  let v := verify s false c
  if v.code ≠ 0 then v.state.activationEnds 0 (contVersion c) v.code v.state.upd.last
  else
    let img := fwOf c v.plain
    let s := v.state.writeSlot img
    if img.digestOk then s.bootOther.activationEnds 0 img.version 0 1 else s.activationEnds 0 img.version 0x0B s.upd.last

/-- The partition verifies its staged firmware, writes it into its idle slot and restarts (R458): code 0x0E for a sealed ZAL-M64A-MB without
LEGAL_SAME. -/
def State.installMet (s : State) : State :=
  let s := s.writeCheckpoint
  let c := areaBytes s.upd.large
  let v := verify s false c
  let code := if v.code ≠ 0 then v.code else if s.fuses.mb && s.met.sealSt == .sealed && !contFlag c 2 then 0x0E else 0
  if code ≠ 0 then v.state.activationEnds 1 (contVersion c) code v.state.upd.last
  else
    let img := fwOf c v.plain
    let s := v.state.writeMet img
    if img.digestOk then s.metOther.runsMet.metRestart.gapAll.activationEnds 1 img.version 0 1 else s.activationEnds 1 img.version 0x0B s.upd.last

/-! ## Arming (R454, R455) -/

/-- TYPE of the large container. -/
def State.stagedType (s : State) : Nat := match tableGet s.upd.large.chunks 0 with | some c => contType c | none => 0

/-- Does the module hold a large container that is complete and not armed yet (R454)? -/
def State.stagedReady (s : State) : Bool := s.upd.large.st == .staged

/-- The refusal of a write of UPD.ACT.MODE, with the code it sets in UPD.STAT.ERR. -/
def actRefusal (s : State) (m : Master) (mode : Nat) : Option (Answer × Nat) :=
  match sysGuard s m with
  | some a => some (a, 0)
  | none =>
    if mode = 3 then some (deny .range, 0)
    else if s.pwr.pfw then some (⟨.busy, .mram⟩, 0)
    else if mode = 0 then none
    else if !s.stagedReady then some (deny .state, 0)
    else if mode = 1 then (if s.rtc.valid then none else some (deny .state, 0))
    else if s.pair.mode = .single ∨ s.stagedType = 2 then some (deny .state, 0x0E)
    else none

/-- MODE is written: armed from now on, or disarmed. -/
def State.setAct (s : State) (mode : Nat) : State :=
  s.updChange fun s => s.setUpd fun u =>
    { u with mode, hold := false, waitDue := s.mt + secs u.waitS,
             large := { u.large with st := if mode ≠ 0 then .armed else if u.large.st = .armed ∨ u.large.st = .activating then .staged else u.large.st } }

/-- A write of UPD.ACT.MODE with its answer. -/
def State.actWrite (s : State) (m : Master) (mode : Nat) : State × Answer :=
  match actRefusal s m mode with
  | some (a, e) => (if e = 0 then s else s.updChange fun s => s.setUpd fun u => { u with err := e }, a)
  | none => (s.setAct mode, okAnswer)

/-- ACT_MODE_WRITE (R454). -/
def doActModeWrite (t : Nat) (m : Master) (mode : Nat) : State → State :=
  whenLive t fun s =>
    match foreign s m with
    | some a => s.answered m true 0x00C00004 a
    | none => let r := s.actWrite m (bits mode 0 2); r.1.answered m true 0x00C00004 r.2

/-- ACTIVATION_LEAD (R454): new sessions stop starting. -/
def doActivationLead (t : Nat) : State → State :=
  whenLive t fun s => if s.leadHolds then s.setUpd fun u => { u with hold := true } else s

/-- Is an activation in progress for code 7 of R417 (R453)? -/
def State.activationHolds (s : State) : Bool :=
  s.upd.large.st == .activating || s.leadHolds

/-! ## UPD registers and the chunk window (R459) -/

/-- 32 bits of UPD.MAP. -/
def mapWord (a : Area) (i : Nat) : Nat :=
  sumNat ((List.range 32).map fun j => b2n (tableGet a.chunks (32 * i + j)).isSome * 2 ^ j)

/-- A read of UPD at an offset of the block. -/
def updRead (s : State) (off : Nat) : Option Nat :=
  let u := s.upd
  match off with
  | 0x00 => some 0
  | 0x04 => some u.mode
  | 0x08 => some (updStat s)
  | 0x0C => some (u.chunkIndex + u.chunkArea * 2 ^ 31)
  | 0x10 => some u.chunkCrc
  | 0x14 => some (u.large.chunks.length + u.large.total * 2 ^ 16)
  | 0x40 => some u.schedS
  | 0x44 => some (u.leadS + u.waitS * 2 ^ 16)
  | 0x48 => some s.runImage.version
  | 0x4C => some u.floorApp
  | 0x50 => some u.floorMet
  | 0x54 => some (u.floorH + b2n u.bootB * 2 ^ 16)
  | _ =>
    if off % 4 ≠ 0 then none
    else if 0x20 ≤ off ∧ off < 0x30 then some (wordAt u.large.uid ((off - 0x20) / 4))
    else if 0x30 ≤ off ∧ off < 0x40 then some (wordAt s.runImage.uid ((off - 0x30) / 4))
    else if 0x100 ≤ off ∧ off < 0x280 then some (mapWord u.large ((off - 0x100) / 4))
    else none

/-- The hold of R454 follows a schedule that is written later. -/
def State.holdAgain (s : State) : State := s.setUpd fun u => { u with hold := u.hold && leadReached s }

/-- A write of UPD at an offset of the block, but for UPD.CTRL and UPD.ACT. -/
def updWrite (s : State) (m : Master) (off w : Nat) : Option RegEffect :=
  match off with
  | 0x0C => some (none, fun s => s.setUpd fun u => { u with chunkIndex := bits w 0 12, chunkArea := bits w 31 1 })
  | 0x10 => some (none, fun s => s.setUpd fun u => { u with chunkCrc := w })
  | 0x40 => some (sysGuard s m, fun s => (s.setUpd fun u => { u with schedS := w }).holdAgain)
  | 0x44 =>
    some (firstOf (sysGuard s m) (refuseIf (decide (bits w 16 16 < 60 ∨ 3600 < bits w 0 16)) (deny .range)), fun s =>
      (s.setUpd fun u => { u with waitS := bits w 16 16, leadS := bits w 0 16 }).holdAgain)
  | 0x54 => some (inRange (decide (1 ≤ bits w 0 16)) fun s => s.setUpd fun u => { u with floorH := bits w 0 16 })
  | _ => (updRead s off).map fun _ => roWord

/-- A write of UPD.CTRL with its answer: several command bits are refused with RANGE, after the LOCKED of RAISE (R392, R518). -/
def State.updCtrlWrite (s : State) (m : Master) (w : Nat) : State × Answer :=
  if severalBits w 0xF then (s, match if w.testBit 3 then sysGuard s m else none with | some a => a | none => deny .range)
  else if w.testBit 0 then s.chunkCommit
  else if w.testBit 1 then (s.abortArea, okAnswer)
  else if w.testBit 2 then (match applyRefusal s with | some a => (s, a) | none => (s.applyContainer, okAnswer))
  else if w.testBit 3 then (match firstOf (sysGuard s m) (pfwRefusal s) with | some a => (s, a) | none => (s.raiseApp.raiseMet, okAnswer))
  else (s, okAnswer)

/-- A word of the chunk window. -/
def chunkWindow (s : State) (addr : Nat) : Option Nat :=
  if addr % 4 = 0 ∧ 0x00C10000 ≤ addr ∧ addr < 0x00C11000 then some (memWord s.upd.chunkWin (addr - 0x00C10000)) else none

/-- A write to the chunk window. -/
def chunkWindowWrite (addr w : Nat) : Option RegEffect :=
  if addr % 4 = 0 ∧ 0x00C10000 ≤ addr ∧ addr < 0x00C11000 then
    some (none, fun s => s.setUpd fun u => { u with chunkWin := memWrites u.chunkWin (addr - 0x00C10000) (leBytes 4 w) })
  else none

/-! ## Meanings -/

/-- Meaning of CHUNK_COMMIT (R447). -/
def execChunkCommit (t : Nat) (m : Master) (s : State) : Host.Outcome State Fault Refusal :=
  .next (doChunkCommit t m s)

/-- Meaning of ABORT (R448). -/
def execAbort (t : Nat) (m : Master) (s : State) : Host.Outcome State Fault Refusal :=
  .next (doAbort t m s)

/-- Meaning of APPLY (R451). -/
def execApply (t : Nat) (m : Master) (s : State) : Host.Outcome State Fault Refusal :=
  .next (doApply t m s)

/-- Meaning of RAISE (R452). -/
def execRaise (t : Nat) (m : Master) (s : State) : Host.Outcome State Fault Refusal :=
  .next (doRaise t m s)

/-- Meaning of ACT_MODE_WRITE (R454). -/
def execActModeWrite (t : Nat) (m : Master) (mode : Nat) (s : State) : Host.Outcome State Fault Refusal :=
  .next (doActModeWrite t m mode s)

/-- Meaning of ACTIVATION_LEAD (R454). -/
def execActivationLead (t : Nat) (s : State) : Host.Outcome State Fault Refusal :=
  .next (doActivationLead t s)

/-- Meaning of TRIAL_END (R453). -/
def execTrialEnd (t : Nat) (s : State) : Host.Outcome State Fault Refusal :=
  .next (doTrialEnd t s)

/-- Meaning of FLOOR_RAISE (R452). -/
def execFloorRaise (t : Nat) (s : State) : Host.Outcome State Fault Refusal :=
  .next (doFloorRaise t s)

end Sys2Proof.Machine
end

