-- ==== Sys2Proof/Machine/Restart.lean ====
section
/-! DEFINITION. Resets and start-up: what a reset leaves untouched (R431), the start of R429 and R430, the boot check (R57 to R59),
and the commands that reset the module (R410, R413, R414, R416, R432, R345, R453 to R456). -/
namespace Sys2Proof.Machine

/-! ## What a reset leaves (R431, and the fields the register tables call retained) -/

/-- A slot after a reset (R57). -/
def slotRebooted (x : ProfSlot) : ProfSlot :=
  { x with st := match x.st with | .checking => x.resume | .pending => .valid | .active => .valid | q => q }

/-- The profile registers. -/
def Profile.rebooted (p : Profile) : Profile :=
  { slots := vmap (fun _ x => slotRebooted x) p.slots, pins := p.pins, bootSrc := p.bootSrc, bootSlot := p.bootSlot }

/-- An unlock: LOCKED, with its failures and what remains of its lockout, which has counted down where the module was `live`. -/
def Unlock.rebooted (u : Unlock) (live : Bool) (t : Nat) : Unlock :=
  { fails := u.fails, lockout := u.lockout, remNs := u.remaining (if live then t else u.lockFrom), lockFrom := t, lastNs := u.lastNs }

/-- What remains of the hours of FLOOR_H is noted as the module stops running (R452), for the partition's image where it stops too. -/
def Update.holdRun (u : Update) (t : Nat) (met : Bool) : Update :=
  { u with runLeft := u.runLeft - (t - u.runFrom), runFrom := t, metLeft := if met then u.metLeft - (t - u.metFrom) else u.metLeft, metFrom := if met then t else u.metFrom }

/-- What remains of the lockouts of SYS and SAF, and of the hours of FLOOR_H, is noted as the module stops running (R323, R452). -/
def State.holdLockouts (s : State) : State :=
  let hold := fun (u : Unlock) => { u with remNs := u.remaining s.mt, lockFrom := s.mt }
  { s with lock := hold s.lock, saf := { s.saf with unlock := hold s.saf.unlock }, upd := s.upd.holdRun s.mt true }

/-- The lockouts count down again from here, and the images run: only while the module runs (R323, R406, R452). -/
def State.resumeLockouts (s : State) : State :=
  { s with lock := { s.lock with lockFrom := s.mt }, saf := { s.saf with unlock := { s.saf.unlock with lockFrom := s.mt } },
           upd := { s.upd with runFrom := s.mt, metFrom := if s.met.running then s.upd.metFrom else s.mt } }

/-- A value written under the unlock takes effect as the unlock ends (R406). -/
def taken {α : Type} (staged : Option α) (old : α) : α := match staged with | some v => v | none => old

/-- The host ports: the reset ends the unlock, so that the network values written under it take effect (R405, R406); the calendar latches are
retained (R433). -/
def HostBlock.rebooted (h : HostBlock) : HostBlock :=
  { latchUdp := { calFrac := h.latchUdp.calFrac, calTime := h.latchUdp.calTime }, latchSpi := { calFrac := h.latchSpi.calFrac, calTime := h.latchSpi.calTime },
    latchDbg := { calFrac := h.latchDbg.calFrac, calTime := h.latchDbg.calTime }, netIp := taken h.stagedIp h.netIp, netMask := taken h.stagedMask h.netMask, netGw := taken h.stagedGw h.netGw,
    allow := vmap (fun i a => taken h.stagedAllow[i] a) h.allow }

/-- SYS.ASSUME keeps its sticky bits and its counts. -/
def Assume.rebooted (a : Assume) : Assume :=
  { hostRateS := a.hostRateS, busLoadS := a.busLoadS, interlockS := a.interlockS, supplyS := a.supplyS, clockS := a.clockS,
    cntHostRate := a.cntHostRate, cntBusLoad := a.cntBusLoad }

/-- The clocks: X32 and the VBAT domain go on. While the reference is lost the PLLs stay unlocked and market time keeps its source (R410, R412),
with the gap that stands (R414). -/
def Clk.rebooted (c : Clk) : Clk :=
  let q : Clk := { refOk := c.refOk, x32Ok := c.x32Ok, raw := c.raw, rawFrom := c.rawFrom, copies := c.copies, vbatLost := c.vbatLost, vbatOff := c.vbatOff }
  if c.refOk then q else { q with lock := c.lock, mtSrc := c.mtSrc, mtGap := c.mtGap }

/-- Time spent in DORMANT up to `t`, ns. -/
def Pwr.dormUpTo (p : Pwr) (t : Nat) : Nat := if p.st = .dormant then p.dormNs + (t - p.dormantAt) else p.dormNs

/-- The supplies as they stand, and what MRAM holds. -/
def Pwr.rebooted (p : Pwr) (t : Nat) : Pwr :=
  { pfw := p.pfw, vin24Low := p.vin24Low, vbatLow := p.vbatLow, supplyBad := p.supplyBad, rstCount := p.rstCount, rstCause := p.rstCause,
    wakeEn := p.wakeEn, vin12 := p.vin12, vbat := p.vbat, dormNs := p.dormUpTo t }

/-- The stall settings held in MRAM: FB_CFG, PLAUS, SHED_CFG, SHED_EN, STOP_CFG and TEMP_CFG (R176). -/
def StlCommon.rebooted (x : StlCommon) : StlCommon :=
  { coastN := x.coastN, freezeN := x.freezeN, vTh := x.vTh, iTh := x.iTh, shedRamp := x.shedRamp, shedHold := x.shedHold, shedHi := x.shedHi,
    shedLo := x.shedLo, shedEn := x.shedEn, restartWin := x.restartWin, restartMax := x.restartMax, restMs := x.restMs, coolS := x.coolS,
    hyst := x.hyst, trip := x.trip }

/-- The calendar's domain. -/
def Rtc.rebooted (r : Rtc) : Rtc :=
  { base := r.base, baseFrac := r.baseFrac, baseAt := r.baseAt, ppm := r.ppm, valid := r.valid, src := r.src, tamper := r.tamper, tamperS := r.tamperS,
    leap := r.leap, ptpEn := r.ptpEn, domain := r.domain, utcOfs := r.utcOfs, utcKnown := r.utcKnown, alarm := r.alarm }

/-- A bay: its settings, the contact it shows, and an outlet commanded open that is confirmed anew. -/
def Bay.rebooted (b : Bay) (t : Nat) : Bay :=
  { pilot := { ce := b.pilot.ce, ceCand := b.pilot.ceCand, ceMv := b.pilot.ceMv, id := b.pilot.id, idCand := b.pilot.idCand },
    outlet := { commandAt := if b.outlet.close then some t else b.outlet.commandAt, confirmedOpen := b.outlet.confirmedOpen && !b.outlet.close },
    mac := b.mac, disable := b.disable, imdSi := b.imdSi, ceDeb := b.ceDeb, pncHost := b.pncHost, eimAuto := b.eimAuto, pncEn := b.pncEn,
    eimEn := b.eimEn, authS := b.authS, ccS := b.ccS, loopS := b.loopS, preS := b.preS, ccHold := b.ccHold }

/-- Market clearing: the committed policy and the hot spot's copy (R185, R207). -/
def Market.rebooted (m : Market) : Market :=
  { shadow := m.committed, committed := m.committed, effective := m.committed, theta := m.thetaSaved, thetaSaved := m.thetaSaved, thetaSavedAt := m.thetaSavedAt }

/-- Cooling settings. -/
def Thermal.rebooted (t : Thermal) : Thermal :=
  { ambFix := t.ambFix, kFus := t.kFus, faultMargin := t.faultMargin, noFlowPct := t.noFlowPct, flowK := t.flowK,
    loops := vmap (fun _ l => { dMin := l.dMin, bays := l.bays, fHi := l.fHi, fLo := l.fLo, tHi := l.tHi, tLo := l.tLo }) t.loops }

/-- An SI pair: fault states and its last proof (R304); the inputs read 0 until the safety controller has loaded its states (R320). -/
def SiPair.rebooted (p : SiPair) (t : Nat) : SiPair :=
  { st := if siFault p.st then p.st else .idle, proof := p.proof, a := { stamp := t }, b := { stamp := t } }

/-- An SO pair: de-energised, FAULT and its cause kept (R320, R329). -/
def SoPair.rebooted (p : SoPair) (t : Nat) : SoPair :=
  { st := if p.st = .fault then .fault else .off, cause := p.cause, needTest := p.needTest, hsBad := p.hsBad, lsBad := p.lsBad, current := p.current, since := t }

/-- The safety controller. -/
def SafetyBlock.rebooted (f : SafetyBlock) (live : Bool) (t : Nat) : SafetyBlock :=
  { si := vmap (fun _ p => p.rebooted t) f.si, so := vmap (fun _ p => p.rebooted t) f.so, escalated := f.escalated, unlock := f.unlock.rebooted live t,
    noPw := f.noPw, pwKey := f.pwKey, ssRamp := f.ssRamp, tolPct := f.tolPct, chgCount := f.chgCount, digest := f.digest, stored := f.stored }

/-- The pair: its settings, EPOCH, the last release and the MAC base, the releases of the last 24 hours with the hold of code 11 (R337;
DEDUCED, log 123: kept over a reset); ACTIVE_I is a pin. -/
def Pair.rebooted (p : Pair) : Pair :=
  { faultStamps := p.faultStamps, hold11 := p.hold11, mode := p.mode, hbCh := p.hbCh, hbId := p.hbId, resyncS := p.resyncS, holdoffS := p.holdoffS, side := p.side, activeI := p.activeI,
    releasedAt := p.releasedAt, releasedDue := p.releasedDue, epoch := p.epoch, lastCause := p.lastCause, lastHo := p.lastHo, mac := p.mac }

/-- The site bus. -/
def SiteBus.rebooted (b : SiteBus) : SiteBus :=
  { ch := vmap (fun _ c => { dsp := c.dsp, nsp := c.nsp, dataRate := c.dataRate, nomRate := c.nomRate, filters := c.filters }) b.ch,
    wakeDlc := b.wakeDlc, wakeMode := b.wakeMode, wakeFilt := b.wakeFilt, staleN := b.staleN, wakeExt := b.wakeExt, wakeCh := b.wakeCh,
    wakeId := b.wakeId, wakeIdm := b.wakeIdm, wakeDm := b.wakeDm,
    boxes := vmap (fun _ x => { ext := x.ext, id := x.id }) b.boxes,
    tats := vmap (fun _ x => { ext := x.ext, id := x.id, en := x.en, channel := x.channel, periodic := x.periodic, roleGate := x.roleGate, offsetUs := x.offsetUs, window := x.window }) b.tats,
    slots := vmap (fun _ x => { en := x.en, channel := x.channel, window := x.window }) b.slots }

/-- The vault: its store, its salt and its life cycle; no slot is loaded yet. -/
def Vault.rebooted (v : Vault) : Vault := { store := v.store, salt := v.salt, zeroised := v.zeroised, lc := v.lc, rounds := v.rounds, remaskAt := v.remaskAt }

/-- Update delivery loses only the chunk window and its operands (R449); the images have run up to `t` where the module was `live`. -/
def Update.rebooted (u : Update) (live metOn : Bool) (t : Nat) : Update :=
  { (if live then u.holdRun t (!metOn) else u) with err := 0, chunkArea := 0, chunkIndex := 0, chunkCrc := 0, chunkWin := [], hold := false }

/-- A partition keeps what is written; its queue is lost, but for the metrology records of a partition that meters on. -/
def Partition.rebooted (p : Partition) (keepQueue : Bool) : Partition := if keepQueue then p else { p with queue := [] }

/-- The ledger. -/
def LedgerBlock.rebooted (l : LedgerBlock) (metOn : Bool) : LedgerBlock :=
  { parts := vmap (fun i p => p.rebooted (metOn && i.val == 2)) l.parts, triggers := l.triggers, sets := l.sets }

/-- The state as a reset leaves it (R431), before the module starts again; `metOn` tells that the metrology partition goes on. -/
def State.rebooted (s : State) (metOn : Bool) : State :=
  { pending := s.pending, mt := s.mt, draws := s.draws, fuses := s.fuses, prof := s.prof.rebooted, lock := s.lock.rebooted s.live s.mt, host := s.host.rebooted,
    assume := s.assume.rebooted, clk := s.clk.rebooted, pwr := s.pwr.rebooted s.mt, rtc := s.rtc.rebooted,
    stl := s.stl.rebooted, stalls := vmap (fun _ x => { reachFault := x.reachFault }) s.stalls, bays := vmap (fun _ b => b.rebooted s.mt) s.bays, mkt := s.mkt.rebooted,
    thm := s.thm.rebooted, aux := { s.aux with adopted := false, v24 := 0, ch := vmap (fun _ x => { x with current := 0 }) s.aux.ch },
    met := { s.met with taken := none, rcptSel := 0, wrapEpoch := 0, wrapMask := 0, running := metOn && s.met.running }, saf := s.saf.rebooted s.live s.mt, pair := s.pair.rebooted,
    sbus := s.sbus.rebooted, vault := s.vault.rebooted, upd := s.upd.rebooted s.live metOn s.mt, ldg := s.ldg.rebooted metOn, mram := s.mram }

/-! ## Start-up (R429) -/

/-- A new nonce for the SYS unlock (R405). -/
def State.newSysNonce (s : State) : State :=
  let r := s.drawBytes 16
  { r.2 with lock := { r.2.lock with nonce := r.1 } }

/-- The pins of a start. DBG_EN opens the debug view until the next reset (R439). -/
def State.takePins (s : State) (pins : Option BootPins) : State :=
  match pins with
  | none => s
  | some p =>
    let s := { s with prof := { s.prof with pins := p.prof % 4 }, pair := { s.pair with side := p.side % 2 }, vault := { s.vault with debug := p.dbgEn } }
    if p.dbgEn then (s.bump 12).log 0x0C02 0xFF 0 0 else s

/-- Step 3 of R429 for firmware: a trial that was cut short reverts, an activation boot installs its image (R453). -/
def State.bootFirmware (s : State) (metOn : Bool) : State :=
  let s := s.revertApp
  let s := if metOn then s else s.revertMet
  if s.upd.large.st = .activating ∧ s.stagedType = 1 then s.installApp else s

/-- The safety self-test, and the nonces every reset draws (R319, R322, R405). -/
def State.bootSafety (s : State) (selfTest : Bool) : State :=
  let s := { s with saf := { s.saf with selfTest, ctrlFault := !selfTest } }
  let s := if selfTest then s else s.log 0x0805 0xFF 0 0
  s.newSafNonce.newSysNonce

/-- The boot slot (R58). -/
def State.bootSlot (s : State) : Fin 4 := finMod 4 (if s.prof.bootSrc = 0 then s.prof.pins else s.prof.bootSlot)

/-- A slot is checked and, if it passes, runs as at boot; the source of the choice is given (R58, R59, R430). -/
def State.bootCheck (s : State) (p : Fin 4) (source : Nat) : State :=
  if s.prof.slots[p].st = .empty then s
  else
    let c : CheckRun := { slot := p, activate := none, started := s.mt, master := .marketSup, unlocked := false }
    let v := checkSlot s false p
    let s := s.signatureServed p v
    match v with
    | .error e => (s.checkFailed c e).bump 0
    | .ok img => (s.checkPassed c).activateImage p img source .marketSup

/-- Does the boot slot's application image start: its signature and DIGEST are verified at every boot (R439, R452)? -/
def State.appStarts (s : State) : Bool := s.bootVerifies s.runImage

/-- Bays whose contact is made enter CONNECTED with a fresh timer in single mode (R431). -/
def State.reconnect (s : State) : State × Nat :=
  if s.pair.mode ≠ .single ∨ !s.running then (s, 0)
  else (fins 12).foldl (fun (q : State × Nat) b =>
    if (q.1.bayRec b).isSome && q.1.bays[b].pilot.ce != .none && !q.1.bays[b].disable then (q.1.connectAnew b 0, q.2 + 2 ^ b.val)
    else q) (s, 0)

/-- The levels from which the filters of a pair start when the safety controller has loaded its states: those its state stands for
(R304, R320; DEDUCED, log 93: a reset by itself is neither a demand nor its end, or no session could reconnect by R431). -/
def SiPair.seeded (r : SafRec) (p : SiPair) : SiPair :=
  if siType r = 2 then p
  else
    let dem := p.st == .faultBoth
    { p with a := { p.a with level := !dem, cand := !dem }, b := { p.b with level := (siType r == 1) == dem, cand := (siType r == 1) == dem } }

/-- Every SI pair of the image starts from the level of its state. -/
def State.seedInputs (s : State) : State :=
  s.forAll 16 fun k s => match s.safRec 1 k.val with | some r => s.setSi k (SiPair.seeded r) | none => s

/-- Steps 3 to 5 of R429: firmware, keys, metrology, safety, AUX and the boot slot; the role starts in INIT. -/
def State.startUp (s : State) (pins : Option BootPins) (selfTest metOn : Bool) : State :=
  let s := (s.resumeLockouts.ledgerAdopt.takePins pins).bootFirmware metOn
  let s := s.loadBoot
  let s := if metOn then s else s.metRestart
  let s := (if selfTest then (s.bootSafety selfTest).adoptAux else s.bootSafety selfTest).refreshAssume
  let s := if s.appStarts && selfTest then (s.bootCheck s.bootSlot s.prof.bootSrc).seedInputs else s
  let s := s.setUpd fun u => { u with trial := u.trial.map fun _ => s.mt, metTrial := if metOn then u.metTrial else u.metTrial.map fun _ => s.mt }
  s.startRole

/-- A reset is counted with its cause (R432). -/
def State.countReset (s : State) (cause : Nat) : State :=
  { s with pwr := { s.pwr with rstCount := satInc 16 s.pwr.rstCount, rstCause := cause } }

/-- Does the metrology partition go on through a reset of this cause (R262)? -/
def meters (cause : Nat) : Bool := decide (3 ≤ cause)

/-- After a reset that released ACTIVE by a cause marked "fault", a module of a pair is UNFIT with code 10; while the hold of code 11 lasts,
with code 11 (R337). -/
def State.keepUnfit (s : State) (fault : Bool) : State :=
  if s.paired && (fault || s.pair.hold11) then
    s.setPair fun p => { p with role := .unfit, roleAt := s.mt, holdoffDue := s.mt + secs p.holdoffS, unfitCode := if p.hold11 then 11 else 10 }
  else s

/-- The records a release adds to the system queue outlive the reset that makes it (R466; DEDUCED, log 160). -/
def State.keepRecords (s : State) (records : List LdgRec) : State := s.setPart 0 fun P => { P with queue := records }

/-- The assertion of a reset: ACTIVE falls with its cause of R345, the outputs are as in R320, volatile state is lost. -/
def State.resetAsserted (s : State) (cause release : Nat) : State :=
  let fault := s.paired && s.pair.role == .active && faultCause release
  let q := s.releaseActive release
  let late := q.ldg.parts[(0 : Fin 3)].queue.drop s.ldg.parts[(0 : Fin 3)].queue.length
  (((q.rebooted (meters cause)).keepRecords late).keepUnfit fault).countReset cause

/-- The module starts again after a reset while it ran, with the record of R431. -/
def State.startAgain (s : State) (cause : Nat) (pins : Option BootPins) (selfTest : Bool) : State :=
  let r := (s.startUp pins selfTest (meters cause)).reconnect
  r.1.log 0x0103 cause r.2 r.1.pwr.rstCount

/-- A reset while the module runs, as one step. -/
def State.resetNow (s : State) (cause release : Nat) (pins : Option BootPins) (selfTest : Bool) : State :=
  (s.resetAsserted cause release).startAgain cause pins selfTest

/-! ## Commands that reset the module -/

/-- Does a low level of RST_N reset the module (R499)? One of at least 10 µs does and one shorter than 1 µs does not. UNVERIFIED
(log 140): for what lies between the manual says neither, and the answer is a free value. -/
def State.rstTakes (s : State) (lowNs : Nat) : Bool × State :=
  if 10000 ≤ lowNs then (true, s) else if lowNs < 1000 then (false, s) else (s.drawNat.1 % 2 == 1, s.drawNat.2)

/-- RST_N (R431, R499): in every state with VIN12 present. A reference that is lost still holds the module. -/
def doRstN (t : Nat) (pulse : ResetPulse) (selfTest : Bool) : State → State := fun s =>
  let q := (s.elapse t).rstTakes pulse.lowNs
  let s := q.2
  if s.pwr.st = .vbatOnly || !q.1 then s
  else if s.clk.refOk then s.resetNow 1 5 (some pulse.pins) selfTest
  else
    let q := (s.resetAsserted 1 5).takePins (some pulse.pins)
    { q with pwr := { q.pwr with inReset := true } }

/-- INTERNAL_RESET (R431, R432): causes 3 to 8. -/
def doInternalReset (t cause : Nat) (selfTest : Bool) : State → State :=
  whenLive t fun s => if 3 ≤ cause ∧ cause ≤ 8 then s.resetNow cause (if cause = 3 then 4 else if cause = 4 then 2 else 5) none selfTest else s

/-- The refusal of a write of PWR.CTRL.RESET_KEY (R432). -/
def resetKeyRefusal (s : State) (m : Master) (key : Nat) : Option Answer :=
  firstOf (foreign s m) (firstOf (sysGuard s m) (refuseIf (decide (key ≠ 0xB007)) (deny .range)))

/-- RESET_KEY (R432). -/
def doResetKey (t : Nat) (m : Master) (key : Nat) (selfTest : Bool) : State → State :=
  whenLive t fun s => s.command m 0x00010100 (resetKeyRefusal s m key) fun s => s.resetNow 6 5 none selfTest

/-- WATCHDOG (R432). -/
def doWatchdog (t : Nat) (selfTest : Bool) : State → State := whenLive t fun s => s.resetNow 5 5 none selfTest

/-- LOCKSTEP_DISAGREE (R345): cause 0x02, reset cause 4. -/
def doLockstepDisagree (t : Nat) (selfTest : Bool) : State → State := whenLive t fun s => s.resetNow 4 2 none selfTest

/-- REFERENCE_LOSS (R410): ACTIVE is released with cause 0x04 and the reset of cause 3 is held; the partition's modulators have
no clock and its next receipts carry GAP (R262). -/
def doReferenceLoss (t : Nat) : State → State := fun s =>
  let s := s.elapse t
  if s.pwr.st = .vbatOnly ∨ s.pwr.st = .dormant ∨ !s.clk.refOk then s
  else
    let s := s.resetAsserted 3 4
    let c := { s.clk with refOk := false, lock := Vector.replicate 6 false, mtSrc := if s.clk.x32Ok then 2 else 3, mtGap := s.clk.mtGap || !s.clk.x32Ok,
                          refLoss := satInc 16 s.clk.refLoss, unlock := satInc 8 s.clk.unlock }
    (({ s with clk := c, pwr := { s.pwr with inReset := true } }).gapAll.bump 1).refreshAssume

/-- REFERENCE_RESTORED (R410): within limits for 10 ms, the reset ends. -/
def doReferenceRestored (t : Nat) (selfTest : Bool) : State → State := fun s =>
  let s := s.elapse t
  if s.pwr.inReset ∧ !s.clk.refOk then
    let s := { s with clk := { s.clk with refOk := true, lock := Vector.replicate 6 true, mtSrc := 0 }, pwr := { s.pwr with inReset := false } }
    (s.bump 1).startAgain s.pwr.rstCause none selfTest
  else s

/-! ## Power loss and cold start -/

/-- RAW at the present market time (R413): 32 768 cycles a second since it was last known, none while X32 is lost. -/
def State.rawNow (s : State) : Nat := (if s.clk.x32Ok then s.clk.raw + (s.mt - s.clk.rawFrom) * 32768 / 1000000000 else s.clk.raw) % 2 ^ 48

/-- RAW noted at the present market time. -/
def State.noteRaw (s : State) : State := { s with clk := { s.clk with raw := s.rawNow, rawFrom := s.mt } }

/-- The calendar noted at the present market time, to its full precision. -/
def State.noteCal (s : State) : State :=
  { s with rtc := { s.rtc with base := s.calUnits, baseFrac := (calFine s.rtc s.mt % 1000000000000000).toNat, baseAt := s.mt, leap := if s.rtc.leap.isSome && leapShift s.rtc s.mt == leapShift s.rtc (s.mt + 2000000000) then none else s.rtc.leap } }

/-- (M, RAW) saved to the older MRAM copy (R413). -/
def State.saveTime (s : State) : State :=
  { s with clk := { s.clk with copies := ({ m := s.mt, raw := s.rawNow } : MtCopy) :: s.clk.copies.take 1 } }

/-- The clocks in VBAT-only: X32 alone, on which the calendar and RAW go on (R415, R422). Until the cold start sets it, market time stands for
the time X32 counts (DEDUCED, log 161); without X32 nothing counts (R414). -/
def Clk.darkened (c : Clk) : Clk :=
  { c with lock := Vector.replicate 6 false, mtSrc := if c.x32Ok then 2 else 3, mtGap := c.mtGap || !c.x32Ok }

/-- BROWN_OUT (R416): in any state the module falls to VBAT-only, with reset cause 2. The calendar goes on without the rate correction of R425; the
supply and the PLLs leave their sticky bits (R487). -/
def doBrownOut (t : Nat) : State → State := fun s =>
  let s := s.elapse t
  if s.pwr.st = .vbatOnly then s
  else
    let s := (s.noteRaw.noteCal).resetAsserted 2 5
    { s with pwr := { s.pwr with st := .vbatOnly, pfw := false, inReset := false }, clk := s.clk.darkened, rtc := { s.rtc with ppm := 0 },
             assume := { s.assume with clockS := true, supplyS := true } }

/-- VBAT_DOMAIN_LOSS (R414): RAW, calendar, alarm, tamper latch and the salt of the device wrap key are lost with their supply. -/
def doVbatDomainLoss (t : Nat) : State → State := fun s =>
  let s := s.elapse t
  if s.pwr.st = .vbatOnly then
    let r := s.drawBytes 32
    let s := r.2
    { s with
      clk := { s.clk with raw := 0, rawFrom := s.mt, vbatLost := true, vbatOff := true, mtSrc := 3 },
      rtc := { s.rtc with base := 0, baseFrac := 0, baseAt := s.mt, ppm := 0, leap := none, src := 0, tamper := false, tamperS := 0, alarm := 0 },
      vault := { s.vault with salt := r.1 } }
  else s

/-- M_resume of R413. -/
def resumeTime (c : MtCopy) (rawNow : Nat) : Nat := c.m + (rawNow + 2 ^ 48 - c.raw % 2 ^ 48) % 2 ^ 48 * 1000000000 / 32768 + 1000000

/-- The clocks after a cold start (R412, R429): the reference is stable, every PLL locks and market time counts on PLL_L. -/
def Clk.started (c : Clk) (rawNow from_ : Nat) : Clk :=
  { c with raw := rawNow % 2 ^ 48, rawFrom := from_, lock := Vector.replicate 6 true, refOk := true, mtSrc := 0, vbatLost := false, vbatOff := false }

/-- Market time at a cold start with RAW at `rawNow` (R413, R414): from the newer valid copy, by RAW or, where the VBAT domain has lost its supply,
one second after it; a module with no valid copy starts at 0. -/
def State.resumedTime (s : State) (rawNow : Nat) : Nat :=
  match s.clk.copies.find? MtCopy.valid with
  | none => 0
  | some c => max s.mt (if s.clk.vbatLost then c.m + 1000000000 else resumeTime c rawNow)

/-- Market time and the calendar resume at a cold start with X32 at `rawNow` (R413, R414, R422). -/
def State.resumeClocks (s : State) (rawNow : Nat) : State :=
  let dark := (rawNow + 2 ^ 48 - s.clk.raw) % 2 ^ 48
  let t := s.resumedTime rawNow
  let lost := s.clk.vbatLost
  let copy := s.clk.copies.find? MtCopy.valid
  let s := { s with mt := t, clk := s.clk.started rawNow t, rtc := { s.rtc with base := s.rtc.base + dark, baseAt := t, ppm := 0, valid := s.rtc.valid && !lost } }
  match copy with
  | some c => if lost then ({ s with clk := { s.clk with mtGap := true } }).log 0x0101 0xFF c.m (c.m / 2 ^ 32) else s
  | none => s

/-- COLD_START (R416, R429): from VBAT-only. -/
def doColdStart (t rawNow : Nat) (pins : BootPins) (selfTest : Bool) : State → State := fun s =>
  let s := s.elapse t
  if s.pwr.st = .vbatOnly then
    let s := s.resumeClocks rawNow
    ({ s with pwr := { s.pwr with st := .ready } }).startUp (some pins) selfTest false
  else s

/-! ## Activation boots (R453 to R456, R458) -/

/-- The activation boot: the module restarts to install its staged image. -/
def State.activationBoot (s : State) : State := s.resetNow 6 0x0D none s.saf.selfTest

/-- The activation starts: ACTIVATING, and the boot at once, unless the module runs a profile in ACTIVE, where it waits for the
next compute deadline (R456). -/
def State.startActivation (s : State) : State :=
  let s := s.updChange fun s => s.setUpd fun u => { u with large := { u.large with st := .activating } }
  if s.stagedType = 1 then (if s.active && s.running then s else s.activationBoot) else s

/-- Conditions 1 to 3 of R417: the first that holds. -/
def State.busyCode (s : State) : Nat :=
  if s.energisedMask ≠ 0 ∨ (s.bays.toList.any fun b => b.session.st != .idle && b.session.st != .ended) then 1
  else if s.moveInFlight ∨ (s.saf.stops.toList.any fun x => x.st != .none) then 2
  else if s.changing then 3 else 0

/-- Has SCHED_S + WAIT_S of a scheduled activation passed (R13, R454)? -/
def State.schedLate (s : State) : Bool :=
  s.upd.mode == 1 && s.upd.large.st == .armed && decide ((s.upd.schedS + s.upd.waitS) * 32768 < s.calUnits)

/-- Is a scheduled activation due: from SCHED_S to SCHED_S + WAIT_S, and for a module in ACTIVE at a tick start with nothing in the way (R454)? -/
def State.schedDue (s : State) (t : Nat) : Bool :=
  s.upd.mode == 1 && s.upd.large.st == .armed && !s.schedLate && decide (s.upd.schedS ≤ s.calSeconds) && (!s.active || (t % 1000000 == 0 && s.busyCode == 0))

/-- The activation is skipped and disarmed where SCHED_S + WAIT_S has passed first (R454). -/
def State.skipLate (s : State) : State :=
  if s.schedLate then s.activationEnds (if s.stagedType = 2 then 1 else 0) (contVersion (areaBytes s.upd.large)) 0x0C 2 else s

/-- SCHEDULED_ACTIVATION (R454). -/
def doScheduledActivation (t : Nat) : State → State := whenLive t fun s => if s.schedDue t then s.startActivation else s.skipLate

/-- ACTIVATION_SKIP (R454): SCHED_S + WAIT_S has passed first. -/
def doActivationSkip (t : Nat) : State → State := whenLive t fun s => s.skipLate

/-- Does the newer of the two images carry SHADOW_COMPAT (R455, R457)? -/
def State.stagedCompat (s : State) : Bool := contFlag (areaBytes s.upd.large) 1

/-- The wait conditions of a handover activation (R455). -/
def State.handoverReady (s : State) : Bool :=
  !s.active ||
  (s.partnerFit && s.pair.partner.runUid == s.upd.large.uid &&
    (!(s.pair.mode == .lite || !s.stagedCompat) || decide (s.busyCode = 0 ∨ s.busyCode = 3)))

/-- A handover activation whose WAIT_S has passed is disarmed with code 0x0F (R13, R455). -/
def State.handoverLate (s : State) (t : Nat) : State :=
  if s.upd.mode == 2 && s.upd.large.st == .armed && expired t s.upd.waitDue then
    s.updChange fun s => s.setUpd fun u => { u with err := 0x0F, mode := 0, hold := false, large := { u.large with st := .staged } }
  else s

/-- HANDOVER_ACTIVATION (R455). -/
def doHandoverActivation (t : Nat) : State → State :=
  whenLive t fun s =>
    let s := s.handoverLate t
    if s.upd.mode == 2 && s.upd.large.st == .armed && s.handoverReady then s.startActivation else s

/-- HANDOVER_ACTIVATION_TIMEOUT (R455). -/
def doHandoverActivationTimeout (t : Nat) : State → State := whenLive t fun s => s.handoverLate t

/-- METROLOGY_FW_ACTIVATION (R458): started by R454, or due now. -/
def doMetrologyFwActivation (t : Nat) : State → State :=
  whenLive t fun s =>
    if s.stagedType == 2 && (s.upd.large.st == .activating || s.schedDue t) then s.installMet else s.skipLate

/-! ## Meanings -/

/-- Meaning of METROLOGY_FW_ACTIVATION (R458). -/
def execMetrologyFwActivation (t : Nat) (s : State) : Host.Outcome State Fault Refusal :=
  .next (doMetrologyFwActivation t s)

/-- Meaning of REFERENCE_LOSS (R410). -/
def execReferenceLoss (t : Nat) (s : State) : Host.Outcome State Fault Refusal :=
  .next (doReferenceLoss t s)

/-- Meaning of REFERENCE_RESTORED (R410). -/
def execReferenceRestored (t : Nat) (selfTest : Bool) (s : State) : Host.Outcome State Fault Refusal :=
  .next (doReferenceRestored t selfTest s)

/-- Meaning of COLD_START (R429). -/
def execColdStart (t : Nat) (rawNow : Nat) (pins : BootPins) (selfTest : Bool) (s : State) : Host.Outcome State Fault Refusal :=
  .next (doColdStart t rawNow pins selfTest s)

/-- Meaning of BROWN_OUT (R416). -/
def execBrownOut (t : Nat) (s : State) : Host.Outcome State Fault Refusal :=
  .next (doBrownOut t s)

/-- Meaning of RST_N (R431). -/
def execRstN (t : Nat) (pulse : ResetPulse) (selfTest : Bool) (s : State) : Host.Outcome State Fault Refusal :=
  .next (doRstN t pulse selfTest s)

/-- Meaning of INTERNAL_RESET (R431). -/
def execInternalReset (t : Nat) (cause : Nat) (selfTest : Bool) (s : State) : Host.Outcome State Fault Refusal :=
  .next (doInternalReset t cause selfTest s)

/-- Meaning of RESET_KEY (R432). -/
def execResetKey (t : Nat) (m : Master) (key : Nat) (selfTest : Bool) (s : State) : Host.Outcome State Fault Refusal :=
  .next (doResetKey t m key selfTest s)

/-- Meaning of WATCHDOG (R432). -/
def execWatchdog (t : Nat) (selfTest : Bool) (s : State) : Host.Outcome State Fault Refusal :=
  .next (doWatchdog t selfTest s)

/-- Meaning of LOCKSTEP_DISAGREE (R345). -/
def execLockstepDisagree (t : Nat) (selfTest : Bool) (s : State) : Host.Outcome State Fault Refusal :=
  .next (doLockstepDisagree t selfTest s)

/-- Meaning of SCHEDULED_ACTIVATION (R454). -/
def execScheduledActivation (t : Nat) (s : State) : Host.Outcome State Fault Refusal :=
  .next (doScheduledActivation t s)

/-- Meaning of ACTIVATION_SKIP (R454). -/
def execActivationSkip (t : Nat) (s : State) : Host.Outcome State Fault Refusal :=
  .next (doActivationSkip t s)

/-- Meaning of HANDOVER_ACTIVATION (R455). -/
def execHandoverActivation (t : Nat) (s : State) : Host.Outcome State Fault Refusal :=
  .next (doHandoverActivation t s)

/-- Meaning of HANDOVER_ACTIVATION_TIMEOUT (R455). -/
def execHandoverActivationTimeout (t : Nat) (s : State) : Host.Outcome State Fault Refusal :=
  .next (doHandoverActivationTimeout t s)

/-- Meaning of VBAT_DOMAIN_LOSS (R414). -/
def execVbatDomainLoss (t : Nat) (s : State) : Host.Outcome State Fault Refusal :=
  .next (doVbatDomainLoss t s)

end Sys2Proof.Machine
end

