-- ==== Sys2Proof/Machine/Clocks.lean ====
section
/-! DEFINITION. Clocks (R408 to R414), supplies (R421, R512), DORMANT (R417 to R420, R430), the calendar (R422 to R427), the tamper
mesh (R428, R440) and the CLK, PWR and RTC registers (R433). -/
namespace Sys2Proof.Machine

/-- The CLK block changed. -/
def State.setClk (s : State) (f : Clk → Clk) : State := { s with clk := f s.clk }

/-- The PWR block changed. -/
def State.setPwr (s : State) (f : Pwr → Pwr) : State := { s with pwr := f s.pwr }

/-- The HOST block changed. -/
def State.setHost (s : State) (f : HostBlock → HostBlock) : State := { s with host := f s.host }

/-- The RTC block changed. -/
def State.setRtc (s : State) (f : Rtc → Rtc) : State := { s with rtc := f s.rtc }

/-! ## Clocks -/

/-- X32 is lost: RAW stands still, and where market time counts on X32 no source is left and the count stands still (R411, R412, R414). -/
def Clk.x32Lost (c : Clk) : Clk :=
  let still := c.mtSrc == 2
  { c with x32Ok := false, mtSrc := if still then 3 else c.mtSrc, mtGap := c.mtGap || still }

/-- X32 is back: RAW goes on, and market time that stood still goes on, on X32. -/
def Clk.x32Back (c : Clk) (t : Nat) : Clk := { c with x32Ok := true, rawFrom := t, mtSrc := if c.mtSrc = 3 then 2 else c.mtSrc }

/-- X32_LOSS (R411): the calendar goes on from market time where there is one; in VBAT-only it stands still, and nothing is counted (R415). -/
def doX32Loss (t : Nat) : State → State := fun s =>
  let s := s.elapse t
  if !s.clk.x32Ok || s.clk.vbatOff then s
  else if s.pwr.st = .vbatOnly then s.noteRaw.noteCal.setClk Clk.x32Lost
  else ((s.noteRaw.setClk fun c => { c.x32Lost with x32Loss := satInc 8 c.x32Loss }).bump 1).refreshAssume

/-- X32_RESTORED (R411). -/
def doX32Restored (t : Nat) : State → State := fun s =>
  let s := s.elapse t
  if s.clk.x32Ok || s.clk.vbatOff then s
  else if s.pwr.st = .vbatOnly then s.setClk fun c => c.x32Back s.mt
  else ((s.setClk fun c => c.x32Back s.mt).bump 1).refreshAssume

/-- Bit of a PLL in CLK.STAT.LOCK. -/
def pllBit : Pll → Fin 6 | .l => 0 | .f => 1 | .s => 2 | .c => 3 | .a => 4 | .j => 5

/-- PLL_LOCK_LOSS (R408, R412): counted; without PLL_L market time counts on the reference. -/
def doPllLockLoss (t : Nat) (p : Pll) : State → State :=
  whenLive t fun s =>
    if s.clk.lock[pllBit p] then
      ((s.setClk fun c => { c with lock := vupd c.lock (pllBit p) fun _ => false, unlock := satInc 8 c.unlock, mtSrc := if p = .l then 1 else c.mtSrc }).bump 1).refreshAssume
    else s

/-- PLL_RELOCK (R408, R412). -/
def doPllRelock (t : Nat) (p : Pll) : State → State :=
  whenLive t fun s =>
    if s.clk.lock[pllBit p] then s
    else ((s.setClk fun c => { c with lock := vupd c.lock (pllBit p) fun _ => true, mtSrc := if p = .l then 0 else c.mtSrc }).bump 1).refreshAssume

/-- Has a second of market time passed since the latest save (R413; DEDUCED, log 145)? -/
def saveDue (c : Clk) (t : Nat) : Bool := match c.copies.head? with | some x => decide (x.m + secs 1 ≤ t) | none => true

/-- MT_SAVE (R413): once per second of market time. -/
def doMtSave (t : Nat) : State → State := whenLive t fun s => if saveDue s.clk s.mt then s.saveTime else s

/-- CLK_CLR_CNT (R433). -/
def doClkClrCnt (t : Nat) (m : Master) : State → State :=
  whenLive t fun s => s.command m 0x00010004 (foreign s m) fun s => s.setClk fun c => { c with refLoss := 0, unlock := 0, x32Loss := 0 }

/-- PWR_CLR_CNT (R433). -/
def doPwrClrCnt (t : Nat) (m : Master) : State → State :=
  whenLive t fun s => s.command m 0x00010100 (firstOf (foreign s m) (pfwRefusal s)) fun s => s.setPwr fun p => { p with rstCount := 0 }

/-! ## Supplies (R421) -/

/-- Is VIN12, in 10 mV, outside its operating range? -/
def vin12Bad (cv : Nat) : Bool := decide (cv < 1080 ∨ 1320 < cv)

/-- POWER_FAIL_WARNING (R421): VIN12 below 10.3 V for 10 µs. -/
def doPowerFailWarning (t cv : Nat) : State → State :=
  whenLive t fun s =>
    if cv < 1030 ∧ !s.pwr.pfw then
      let s := (s.setPwr fun p => { p with pfw := true, vin12 := cv }).bump 1
      (s.metStop.saveTime.drainLedger).refreshAssume
    else s

/-- POWER_FAIL_CLEAR (R421): VIN12 back above 10.6 V, which may still lie outside its operating range (R487). -/
def doPowerFailClear (t cv : Nat) : State → State :=
  whenLive t fun s =>
    if 1060 < cv ∧ s.pwr.pfw then
      let s := (s.setPwr fun p => { p with pfw := false, vin12 := cv, supplyBad := vin12Bad cv }).bump 1
      s.metResume.refreshAssume
    else s

/-- SUPPLY_OUT_OF_RANGE (R421): VIN12 outside 10.8 to 13.2 V for 10 ms is cause 0x09; a value in range ends the condition. -/
def doSupplyOutOfRange (t cv : Nat) : State → State :=
  whenLive t fun s =>
    let s := (s.setPwr fun p => { p with vin12 := cv, supplyBad := vin12Bad cv }).refreshAssume
    if vin12Bad cv then s.releaseIfFit 9 else s

/-- VIN24_LOW (R421): VIN24 below 18 V for 1 ms. Where it has gone, the outputs it feeds are off (R494). -/
def doVin24Low (t cv : Nat) : State → State :=
  whenLive t fun s =>
    let s := if cv = 0 then s.measureV24 0 else s
    if cv < 1800 ∧ !s.pwr.vin24Low then
      let s := ((s.setPwr fun p => { p with vin24Low := true }).bump 1).refreshAssume
      s.forAll 12 fun b s => if s.bays[b].energised then s.requestSafeStop b else s
    else s

/-- VBAT is applied to a module without VIN12: its domain runs again, with RAW from 0 and the mesh monitored (R414, R514; DESIGN CHOICE, log 161:
VBAT is present where it measures more than 0). -/
def State.applyVbat (s : State) : State :=
  { s with clk := { s.clk with vbatOff := false, raw := 0, rawFrom := s.mt, mtSrc := if s.clk.x32Ok then 2 else 3 } }

/-- VBAT_LOW (R421): VBAT below 2.2 V; a value at or above it ends the condition. In VBAT-only the domain alone sees its supply return. -/
def doVbatLow (t mv : Nat) : State → State := fun s =>
  if s.pwr.st = .vbatOnly then (if s.clk.vbatOff && decide (0 < mv) then (s.elapse t).applyVbat else s.elapse t)
  else whenLive t (fun s =>
    let low := decide (mv < 2200)
    let was := s.pwr.vbatLow
    let s := (s.setPwr fun p => { p with vbat := mv, vbatLow := low }).bumpIf (was != low && !low) 1
    if low && !was then s.log 0x0104 0xFF mv 0 else s) s

/-- Coded junction temperature of PWR.TEMP.PEAK, to a free rounding. -/
def peakCode (tenths : Int) : Nat := (clampInt 0 255 (someRound 44 (tenths + 400) 10)).toNat

/-- JUNCTION_TEMP_CHECK (R512): above 125 °C for 10 ms is cause 0x09, above 140 °C sets CTRL_FAULT. -/
def doJunctionTempCheck (t : Nat) (tenths : Int) : State → State :=
  whenLive t fun s =>
    let since := if tenths ≤ 1250 then none else match s.pwr.hotSince with | some q => some q | none => some t
    let hot := match since with | some q => decide (q + ms 10 ≤ t) | none => false
    let was := s.pwr.hot
    let s := (s.setPwr fun p => { p with temp := tenths, peak := max p.peak (peakCode tenths), hotSince := since, hot }).bumpIf (was != hot) 1
    let s := if hot && !was then s.releaseIfFit 9 else s
    if 1400 < tenths then s.ctrlFail else s

/-! ## DORMANT (R417 to R420, R430) -/

/-- The code of R417, 0 where DORMANT is accepted. -/
def dormantCode (s : State) : Nat :=
  if s.busyCode ≠ 0 then s.busyCode
  else if s.active && s.pair.partner.role == some .standby && !s.pair.partner.absent then 4
  else if s.pwr.wakeEn = 0 then 5
  else if !s.clk.x32Ok then 6
  else if s.activationHolds then 7 else 0

/-- Step 1 and 2 of R418: ENTERING, and the bus goes to sleep; a module that is not master drives it recessive at once. -/
def State.enterDormant (s : State) : State :=
  let s := (s.setPwr fun p => { p with entering := true, enteredAt := s.mt, released := none, dormErr := 0 }).bump 1
  if s.sbus.bus == .asleep then s
  else if !s.busMaster then s.busState .asleep
  else if s.sbus.bus == .announcing then s.setBus fun b => { b with sleep := true }
  else (s.setBus fun b => { b with sleep := true }).startSleep

/-- A write of PWR.CTRL.DORMANT with its answer (R417); while the module enters already, it has no further effect. -/
def State.dormantWrite (s : State) : State × Answer :=
  if s.pwr.entering then (s, okAnswer)
  else if dormantCode s = 0 then (s.enterDormant, okAnswer)
  else ((s.setPwr fun p => { p with dormErr := dormantCode s }).bumpIf (s.pwr.dormErr != dormantCode s) 1, deny .state)

/-- DORMANT (R417). -/
def doDormant (t : Nat) (m : Master) : State → State :=
  whenLive t fun s =>
    match foreign s m with
    | some a => s.answered m true 0x00010100 a
    | none => let r := s.dormantWrite; r.1.answered m true 0x00010100 r.2

/-- Step 3 of R418. -/
def State.dormantRelease (s : State) : State :=
  let s := s.forAll 64 fun n s => s.linkOff n
  let s := (s.auxFailAll s.mt).allOff
  let s := (s.releaseActive 0x0C).metStop.saveTime
  s.setPwr fun p => { p with released := some s.mt }

/-- DORMANT_OUTPUT_RELEASE (R418): 1 ms after the bus is asleep, or after the 1 s for the bus is over. -/
def doDormantOutputRelease (t : Nat) : State → State :=
  whenLive t fun s =>
    if s.pwr.entering && s.pwr.released.isNone && ((s.sbus.bus == .asleep && decide (max s.sbus.busSince s.pwr.enteredAt + ms 1 ≤ t)) || decide (s.pwr.enteredAt + secs 1 + ms 1 ≤ t)) then s.dormantRelease
    else s

/-- Bit of a wake source in PWR.WAKE_EN. -/
def wakeBit : WakeSrc → Nat | .rtc => 0 | .sbus _ => 1 | .si => 2 | .ce => 3 | .spi => 4

/-- SBUS.STAT.WAKE_SRC of a wake from DORMANT: 0 where the site bus is not its source (R381). -/
def busCodeOf : WakeSrc → Nat | .sbus w => (busWakeCode w).1 | _ => 0

/-- Does an SI pair assert demand, as it does once it has left IDLE (R420)? -/
def State.siAwake (s : State) : Bool :=
  s.saf.records.any fun r => r.kind == 1 && siType r != 2 && (match fin? 16 r.index with | some k => asserts s.saf.si[k] | none => false)

/-- Is CE of a bay in use other than NONE (R420)? -/
def State.ceAwake (s : State) : Bool := (fins 12).any fun b => (s.bayRec b).isSome && s.bays[b].pilot.ce != .none

/-- Has the calendar reached RTC.ALARM (R420)? -/
def State.alarmAwake (s : State) : Bool := decide (s.rtc.alarm ≠ 0 ∧ s.rtc.alarm ≤ s.calSeconds)

/-- Is the condition of an enabled wake source met (R381, R420)? SI and CE are scanned and sampled in DORMANT too, which a module enters only
where their conditions are not present. -/
def State.mayWake (s : State) (src : WakeSrc) : Bool :=
  s.pwr.wakeEn.testBit (wakeBit src) &&
  match src with
  | .rtc => s.alarmAwake
  | .sbus w => wakeMet s.sbus w
  | .si => s.siAwake
  | .ce => s.ceAwake
  | .spi => true

/-- A wake condition that is present (R420), by its source. -/
def State.wakePresent (s : State) : Option WakeSrc :=
  if s.pwr.wakeEn.testBit 0 && s.alarmAwake then some .rtc
  else if s.pwr.wakeEn.testBit 2 && s.siAwake then some .si
  else if s.pwr.wakeEn.testBit 3 && s.ceAwake then some .ce
  else none

/-- Step 4 of R430: the slot that was active is checked again and activated as in STOPPED mode. -/
def State.wakeSlot (s : State) (slot : Option (Fin 4)) : State :=
  match slot with
  | some p => ({ s with prof := { s.prof with active := none, image := none } }.slotSt p .valid).bootCheck p s.prof.source
  | none => s

/-- The metrology partition as the module leaves DORMANT, or its entry (R262, R420): one that was stopped starts again. -/
def State.wakeMeter (s : State) (slept : Bool) : State :=
  if slept then s.metRestart else if s.met.tallying then s else s.metResume

/-- The AUX channels leave their FAIL states, and HOLD_S runs anew (R255). -/
def State.wakeAux (s : State) : State := { s with aux := { s.aux with failed := false, holdDue := holdEnd s.aux.holdS s.mt } }

/-- The module leaves DORMANT, in which it slept or, by a wake stamped at or before the commit point, did not (R420): the clocks run again, the
lockouts count down again and the trim of the calendar is taken up again (DEDUCED, log 146); the capture buffer was not retained (R415). -/
def State.leaveDormant (s : State) (slept : Bool) : State :=
  let s := s.setClk fun c => if slept then { c with mtSrc := 0, lock := Vector.replicate 6 true } else { c with mtSrc := s.pwr.dormSrc, lock := s.pwr.dormLock }
  let s := s.setPwr fun p => { p with dormNs := if slept then p.dormUpTo s.mt else p.dormNs }
  let s := s.resumeLockouts.noteCal.setRtc fun r => { r with ppm := r.heldPpm }
  let s := { s with met := { s.met with running := true } }
  if slept then { s with stl := { s.stl with cap := [], frozen := false, armed := true, trigSrc := 0, trigStall := 0xFF } } else s

/-- Steps 3 to 5 of R430, also after an entry that was aborted: the slot is checked again and activated as in STOPPED mode. -/
def State.wakeUp (s : State) (src : WakeSrc) (slot : Option (Fin 4)) (slept : Bool) : State :=
  let s := if s.pwr.st = .dormant then s.leaveDormant slept else s
  let s := (s.setPwr fun p => { p with st := .ready, entering := false, released := none, wakeSrc := wakeBit src + 1 }).bump 1
  let s := (((s.wakeMeter slept).busWakes (busCodeOf src)).wakeAux).wakeSlot slot
  let s := if s.pair.role = .active then s else s.startRole
  s.refreshAssume

/-- DORMANT_COMMIT (R418): 1 ms after step 3 the PLLs stop and market time counts on X32; a wake condition aborts the entry. -/
def doDormantCommit (t : Nat) : State → State :=
  whenLive t fun s =>
    match s.pwr.released with
    | none => s
    | some q =>
      if !s.pwr.entering || decide (t < q + ms 1) then s
      else match s.wakePresent with
        | some src => s.wakeUp src s.prof.active false
        | none =>
          let s := s.setPwr fun p =>
            { p with st := .dormant, entering := false, released := none, dormantAt := s.mt, dormSlot := s.prof.active, dormLock := s.clk.lock, dormSrc := s.clk.mtSrc }
          let s := (s.setClk Clk.darkened).bump 1
          let s := s.holdLockouts.noteCal.setRtc fun r => { r with heldPpm := r.ppm, ppm := 0 }
          { s with met := { s.met with running := false } }.refreshAssume

/-- DORMANT_WAKE (R420, R430): an enabled source wakes a dormant module, or aborts its entry; the stamp decides which (R14). -/
def doDormantWake (t : Nat) (src : WakeSrc) : State → State := fun s =>
  let s := s.elapse t
  if !s.mayWake src then s
  else if s.pwr.st = .dormant then s.wakeUp src s.pwr.dormSlot (decide (s.pwr.dormantAt < t))
  else if s.live ∧ s.pwr.entering then s.wakeUp src s.prof.active false
  else s

/-- BUS_WAKE (R380, R381, R420): an enabled source's condition is met. It wakes a bus that sleeps or announces sleep; where PWR.WAKE_EN
enables SBUS it also wakes a dormant module, or aborts its entry. -/
def doBusWake (t : Nat) (w : BusWake) : State → State := fun s =>
  let s := s.elapse t
  if !wakeMet s.sbus w then s
  else if s.pwr.st = .dormant ∨ (s.live ∧ s.pwr.entering ∧ s.pwr.wakeEn.testBit 1) then doDormantWake t (.sbus w) s
  else if s.live ∧ s.sbus.bus ≠ .awake then s.busWakes (busWakeCode w).1
  else s

/-! ## Tamper (R428, R440) -/

/-- TAMPER (R428, R440, R514): while VBAT or VIN12 is present. -/
def doTamper (t : Nat) : State → State := fun s =>
  let s := s.elapse t
  if s.pwr.st == .vbatOnly && s.clk.vbatOff then s
  else
    let q := s.calSeconds % 2 ^ 32
    let s := (s.setRtc fun r => { r with tamper := true, tamperS := if r.tamper then r.tamperS else q }).bumpIf (!s.rtc.tamper) 1
    s.zeroise

/-! ## Calendar (R423 to R427) -/

/-- The calendar steps to a value in units of 1/32 768 s, with its record. -/
def State.stepCalendar (s : State) (units : Nat) : State :=
  let old := s.calSeconds
  let s := s.setRtc fun r => { r with base := units, baseFrac := 0, baseAt := s.mt, leap := none }
  s.log 0x0102 0xFF old (units / 32768)

/-- APPLY (R423). -/
def State.applyCalendar (s : State) (seconds frac : Nat) : State :=
  (s.stepCalendar (seconds * 32768 + frac)).setRtc fun r => { r with valid := true, src := 1, setS := seconds, setF := frac }

/-- The refusal of a write of RTC.SET_F with APPLY. -/
def applyCalRefusal (s : State) (m : Master) : Option Answer := firstOf (sysGuard s m) (refuseIf s.rtc.ptpLock (deny .state))

/-- RTC_APPLY (R423). -/
def doRtcApply (t : Nat) (m : Master) (seconds : Word) (frac : Nat) : State → State :=
  whenLive t fun s => s.command m 0x00010218 (firstOf (foreign s m) (applyCalRefusal s m)) fun s => s.applyCalendar seconds.toNat (frac % 32768)

/-- A message of the master selected in the domain (R424)? -/
def ptpFrom (r : Rtc) (h : PtpHead) : Bool := r.ptpEn && h.domain == r.domain && r.master == some h.source

/-- With the origin of a Sync known, the module sends its Delay_Req (R424, R425; DESIGN CHOICE, log 162: at once). -/
def State.delayReq (s : State) : State :=
  let n := (s.rtc.reqSeq + 1) % 65536
  let d := s.rtc.domain
  (s.setRtc fun r => { r with reqSeq := n, reqOpen := true }).setHost fun h => { h with netOut := .delayReq d n }

/-- PTP_SYNC (R424, R425): the reception stamp, and the origin of a one-step master. -/
def doPtpSync (t : Nat) (h : PtpHead) (origin : Nat) (twoStep : Bool) : State → State :=
  whenLive t fun s =>
    if ptpFrom s.rtc h then
      let s := s.setRtc fun r => { r with lastSync := some t, syncSeq := h.seq, syncRx := t, syncOrigin := if twoStep then none else some origin, reqOpen := false }
      if twoStep then s else s.delayReq
    else s

/-- PTP_FOLLOW_UP (R424): the origin of a two-step Sync. -/
def doPtpFollowUp (t : Nat) (h : PtpHead) (origin : Nat) : State → State :=
  whenLive t fun s =>
    if ptpFrom s.rtc h && s.rtc.syncSeq == h.seq && s.rtc.lastSync.isSome && s.rtc.syncOrigin.isNone then (s.setRtc fun r => { r with syncOrigin := some origin }).delayReq else s

/-- Seconds from the epoch of PTP time to that of the calendar. -/
def ptpEpoch : Int := 946684800

/-- Twice the offset of the calendar from PTP time less currentUtcOffset, in units of 1/(32 768 × 10^15) ns: Sync from
`t1` to `t2`, Delay_Req from `t3` to `t4` (R425). -/
def offsetTwice (r : Rtc) (t1 t2 t3 t4 : Nat) : Int :=
  let k := (r.utcOfs + ptpEpoch) * 1000000000
  (calFine r t2 + calFine r t3) * 1000000000 - (((t1 : Int) - k) + ((t4 : Int) - k)) * 32768000000000000000

/-- The offset in ns, to a free rounding. -/
def ptpOffset (r : Rtc) (t1 t2 t3 t4 : Nat) : Int := someRound 45 (offsetTwice r t1 t2 t3 t4) 65536000000000000000

/-- The calendar is stepped by an offset (R425). -/
def State.ptpStep (s : State) (o : Int) : State :=
  let units := ((s.calUnits : Int) - someRound 46 (o * 32768) 1000000000).toNat
  (s.stepCalendar units).setRtc fun r => { r with steps := satInc 16 r.steps }

/-- The calendar's rate removes an offset (R425): at most 500 ppm, the amount free. -/
def State.ptpSlew (s : State) (o : Int) : State :=
  let d := s.drawNat
  let k : Int := (d.1 % 501 : Nat)
  d.2.noteCal.setRtc fun r => { r with ppm := if o = 0 then 0 else if 0 < o then -k else k }

/-- PTP_LOCK after an offset (R425). -/
def ptpRun (r : Rtc) (o : Int) : Rtc :=
  let n := if o.natAbs ≤ 1000 then min 16 (r.lockRun + 1) else 0
  { r with lockRun := n, ptpLock := if 10000 < o.natAbs then false else r.ptpLock || n == 16, ptpOfs := clampInt (-2147483648) 2147483647 o }

/-- An exchange has ended with offset `o`. -/
def State.ptpExchange (s : State) (o : Int) : State :=
  let was := s.rtc.ptpLock
  let s := if 128000000 < o.natAbs then s.ptpStep o else s.ptpSlew o
  let first := !s.rtc.valid || s.rtc.src != 2
  let s := s.setRtc fun r => { ptpRun r o with valid := true, src := 2, syncOrigin := none }
  s.bumpIf (first || was != s.rtc.ptpLock) 1

/-- Does a Delay_Resp answer the Delay_Req that awaits one (R424)? -/
def ptpAnswers (r : Rtc) (p : PtpResp) : Bool := ptpFrom r p.head && r.reqOpen && p.head.seq == r.reqSeq && p.requesting == Config.ptpPort

/-- PTP_DELAY_RESP (R425): the Delay_Req was sent at `sent` on market time and received at `received` on PTP time. Without any valid
currentUtcOffset the calendar is not disciplined. -/
def doPtpDelayResp (t : Nat) (p : PtpResp) (received : Nat) : State → State :=
  whenLive t fun s =>
    match s.rtc.syncOrigin with
    | none => s
    | some t1 =>
      if !ptpAnswers s.rtc p then s
      else
        let s := s.setRtc fun r => { r with reqOpen := false }
        if s.rtc.utcKnown then s.ptpExchange (ptpOffset s.rtc t1 s.rtc.syncRx p.sent received)
        else (s.setRtc fun r => { r with utcUnknown := true, syncOrigin := none }).bumpIf (!s.rtc.utcUnknown) 1

/-! ### Master selection (R424): the default BMCA of IEEE 1588 (PRESUMED, log 162) -/

/-- The data set of an Announce message in the order in which two are compared: the lower one is the better one. -/
def annRank (a : Announce) : List Nat := [a.priority1, a.clockClass, a.accuracy, a.variance, a.priority2, a.grandmaster, a.steps, a.source]

/-- Is the first list the lower one at the first place where they differ? -/
def rankLess : List Nat → List Nat → Bool
  | a :: as, b :: bs => if a = b then rankLess as bs else decide (a < b)
  | _, _ => false

/-- Is a master qualified at `t`: two Announce messages within four of its intervals, and fewer than 255 steps? -/
def PtpMaster.qualified (x : PtpMaster) (t : Nat) : Bool :=
  decide (x.ann.steps < 255) && (match x.before with | some q => decide (t ≤ q + ms (4 * x.ann.intervalMs)) | none => false)

/-- The best qualified master of a domain. -/
def bestMaster (domain t : Nat) (l : List PtpMaster) : Option PtpMaster :=
  (l.filter fun x => x.ann.domain == domain && x.qualified t).foldl (fun best x =>
    match best with | some b => if rankLess (annRank x.ann) (annRank b.ann) then some x else best | none => some x) none

/-- An Announce message is noted under its sender; senders that have been silent for four intervals are forgotten. -/
def hearMaster (l : List PtpMaster) (a : Announce) (t : Nat) : List PtpMaster :=
  let old := l.find? fun x => x.ann.source == a.source
  { ann := a, at_ := t, before := old.map (·.at_) } :: l.filter fun x => x.ann.source != a.source && decide (t ≤ x.at_ + ms (4 * x.ann.intervalMs))

/-- The selected master gives its identity, currentUtcOffset and leap flags (R424 to R426). -/
def State.takeMaster (s : State) (a : Announce) : State :=
  let leap := a.leap61 || a.leap59
  let changed := s.rtc.leapPend != leap || (a.utcValid && s.rtc.utcUnknown)
  let s := s.setRtc fun r => { r with ptpGm := a.grandmaster % 2 ^ 64, leapPend := leap, leapAdd := if leap then a.leap61 else r.leapAdd, master := some a.source }
  let s := if a.utcValid then s.setRtc fun r => { r with utcOfs := a.utcOffset, utcKnown := true, utcUnknown := false } else s
  s.bumpIf changed 1

/-- PTP_ANNOUNCE (R424, R426): the masters of the domain are heard, and the best of them is selected. -/
def doPtpAnnounce (t : Nat) (a : Announce) : State → State :=
  whenLive t fun s =>
    if s.rtc.ptpEn && a.domain == s.rtc.domain then
      let s := s.setRtc fun r => { r with masters := hearMaster r.masters a s.mt }
      match bestMaster s.rtc.domain s.mt s.rtc.masters with
      | some x => s.takeMaster x.ann
      | none => s.setRtc fun r => { r with master := none }
    else s

/-- PTP_SYNC_TIMEOUT (R425): 10 s without Sync. -/
def doPtpSyncTimeout (t : Nat) : State → State :=
  whenLive t fun s =>
    match s.rtc.lastSync with
    | some q => if s.rtc.ptpLock && expired t (q + secs 10) then (s.setRtc fun r => { r with ptpLock := false, lockRun := 0 }).bump 1 else s
    | none => s

/-- LEAP_SECOND (R426): the absorption starts, for a positive one as the calendar's day has one second left, for a negative one
two. -/
def doLeapSecond (t : Nat) : State → State :=
  whenLive t fun s =>
    if s.rtc.leapPend && s.calSeconds % 86400 == (if s.rtc.leapAdd then 86399 else 86398) then
      (s.noteCal.setRtc fun r => { r with leap := some (s.mt, r.leapAdd), leapPend := false }).bump 1
    else s

/-! ## Latched reads (R427, R433) -/

/-- A read of CLK.MT_L or CLK.MT_H: the low word latches the high one for the port. -/
def State.readTime (s : State) (m : Master) (high : Bool) : Nat × Answer × State :=
  if high then
    match (portLatch s m).bind fun l => l.mtHigh with
    | some v => (v, okAnswer, s)
    | none => (s.mt / 2 ^ 32 % 2 ^ 32, ⟨.stale, .none⟩, s)
  else (s.mt % 2 ^ 32, okAnswer, s.setLatch m fun l => { l with mtHigh := some (s.mt / 2 ^ 32 % 2 ^ 32) })

/-- A read of RTC.CAL_S: fraction and market time are latched for the port. -/
def State.readCalendar (s : State) (m : Master) : Nat × State :=
  (s.calSeconds % 2 ^ 32, s.setLatch m fun l => { l with calFrac := s.calUnits % 32768, calTime := s.mt })

/-- A read of RTC.RAW_L or RTC.RAW_H. -/
def State.readRaw (s : State) (m : Master) (high : Bool) : Nat × State :=
  if high then
    match (portLatch s m).bind fun l => l.rawHigh with
    | some v => (v, s)
    | none => (s.rawNow / 2 ^ 32, s)
  else (s.rawNow % 2 ^ 32, s.setLatch m fun l => { l with rawHigh := some (s.rawNow / 2 ^ 32) })

/-- MARKET_TIME_READ (R433). -/
def doMarketTimeRead (t : Nat) (m : Master) (high : Bool) : State → State :=
  whenLive t fun s =>
    let addr := if high then 0x0001000C else 0x00010008
    match foreign s m with
    | some a => s.answered m false addr a
    | none => let r := s.readTime m high; r.2.2.giveData m addr r.2.1 [r.1]

/-- CALENDAR_READ (R427). -/
def doCalendarRead (t : Nat) (m : Master) : State → State :=
  whenLive t fun s =>
    match foreign s m with
    | some a => s.answered m false 0x00010200 a
    | none => let r := s.readCalendar m; r.2.giveData m 0x00010200 okAnswer [r.1]

/-- RAW_READ (R433). -/
def doRawRead (t : Nat) (m : Master) (high : Bool) : State → State :=
  whenLive t fun s =>
    let addr := if high then 0x00010238 else 0x00010234
    match foreign s m with
    | some a => s.answered m false addr a
    | none => let r := s.readRaw m high; r.2.giveData m addr okAnswer [r.1]

/-! ## CLK, PWR and RTC registers (R433) -/

/-- CLK.STAT. -/
def clkStat (s : State) : Nat :=
  sumNat ((fins 6).map fun i => b2n s.clk.lock[i] * 2 ^ i.val) + b2n s.clk.refOk * 2 ^ 6 + b2n s.clk.x32Ok * 2 ^ 7 + s.clk.mtSrc * 2 ^ 8 + b2n s.clk.mtGap * 2 ^ 10

/-- PWR.STAT. -/
def pwrStat (s : State) : Nat :=
  (if s.pwr.entering then 2 else if s.pwr.st = .run then 1 else 0) + b2n s.pwr.vbatLow * 2 ^ 5 + b2n s.pwr.vin24Low * 2 ^ 6 + b2n s.pwr.pfw * 2 ^ 7 +
  s.pwr.dormErr * 2 ^ 24 + s.pwr.wakeSrc * 2 ^ 28

/-- RTC.STAT. -/
def rtcStat (s : State) : Nat :=
  b2n s.rtc.valid + s.rtc.src * 4 + b2n s.rtc.ptpLock * 2 ^ 4 + b2n s.rtc.leapPend * 2 ^ 5 + b2n s.rtc.utcUnknown * 2 ^ 6 + b2n s.rtc.tamper * 2 ^ 7 + s.rtc.steps * 2 ^ 16

/-- Bytes of the grandmaster identity as the register words of R433 place them: byte 0 in bits [7:0]. -/
def gmWord (s : State) (high : Bool) : Nat := leNat (slice (beBytes 8 s.rtc.ptpGm) (if high then 4 else 0) 4)

/-- A read of CLK, PWR or RTC by its offset from 0x0001_0000, but for the latching reads. A master without latches sees the
present calendar. -/
def clkRead (s : State) (m : Master) (off : Nat) : Option Nat :=
  let l : PortLatch := match portLatch s m with | some l => l | none => { calFrac := s.calUnits % 32768, calTime := s.mt }
  match off with
  | 0x000 => some (clkStat s)
  | 0x004 => some 0
  | 0x010 => some (s.clk.x32Loss + s.clk.unlock * 2 ^ 8 + s.clk.refLoss * 2 ^ 16)
  | 0x100 => some 0
  | 0x104 => some (pwrStat s)
  | 0x108 => some (s.pwr.rstCause + s.pwr.rstCount * 2 ^ 16)
  | 0x10C => some s.pwr.wakeEn
  | 0x110 => some (s.pwr.vbat + s.pwr.vin12 * 2 ^ 16)
  | 0x114 => some (s.pwr.dormNs / 1000000000 % 2 ^ 32)
  | 0x118 => some (fieldOf 16 s.pwr.temp + b2n s.pwr.hot * 2 ^ 16 + s.pwr.peak * 2 ^ 24)
  | 0x204 => some l.calFrac
  | 0x208 => some (l.calTime % 2 ^ 32)
  | 0x20C => some (l.calTime / 2 ^ 32 % 2 ^ 32)
  | 0x210 => some (rtcStat s)
  | 0x214 => some s.rtc.setS
  | 0x218 => some s.rtc.setF
  | 0x21C => some (fieldOf 16 s.rtc.utcOfs + s.rtc.domain * 2 ^ 16 + b2n s.rtc.ptpEn * 2 ^ 31)
  | 0x220 => some (fieldOf 32 s.rtc.ptpOfs)
  | 0x224 => some (gmWord s false)
  | 0x228 => some (gmWord s true)
  | 0x22C => some s.rtc.alarm
  | 0x230 => some s.rtc.tamperS
  | _ => none

/-- A write of PWR.CTRL with its answer (R432, R417, R518). DESIGN CHOICE (log 112): a write with RESET_KEY = 0 is no write of that RWS
field, so that DORMANT and CLR_CNT need no unlock. The reset of an accepted key runs with the self-test as it last was. -/
def State.pwrCtrlWrite (s : State) (m : Master) (v : Nat) : State × Answer :=
  let key := bits v 16 16
  if key ≠ 0 then
    match resetKeyRefusal s m key with
    | some a => (s, a)
    | none => (s.resetNow 6 5 none s.saf.selfTest, okAnswer)
  else
    let r := if v.testBit 1 && s.pwr.pfw then (s, ⟨.busy, .mram⟩) else if v.testBit 0 then s.dormantWrite else (s, okAnswer)
    if v.testBit 1 && r.2 == okAnswer then (r.1.setPwr fun p => { p with rstCount := 0 }, okAnswer) else r

/-- A write of CLK, PWR or RTC by its offset from 0x0001_0000, but for PWR.CTRL. -/
def clkWrite (s : State) (m : Master) (off v : Nat) : Option RegEffect :=
  match off with
  | 0x000 => some (none, fun s => if v.testBit 10 then (s.setClk fun c => { c with mtGap := false }).bumpIf s.clk.mtGap 1 else s)
  | 0x004 => some (none, fun s => if v.testBit 0 then s.setClk fun c => { c with refLoss := 0, unlock := 0, x32Loss := 0 } else s)
  | 0x008 => some roWord
  | 0x00C => some roWord
  | 0x10C => some (none, fun s => s.setPwr fun p => { p with wakeEn := bits v 0 5 })
  | 0x200 => some roWord
  | 0x214 => some (sysGuard s m, fun s => s.setRtc fun r => { r with setS := v })
  | 0x218 =>
    if v.testBit 31 then some (applyCalRefusal s m, fun s => s.applyCalendar s.rtc.setS (bits v 0 15))
    else some (sysGuard s m, fun s => s.setRtc fun r => { r with setF := bits v 0 15 })
  | 0x21C => some (none, fun s => s.setRtc fun r =>
      { r with ptpEn := v.testBit 31, domain := bits v 16 7, master := if v.testBit 31 && bits v 16 7 == r.domain then r.master else none })
  | 0x22C => some (none, fun s => s.setRtc fun r => { r with alarm := v })
  | 0x234 => some roWord
  | 0x238 => some roWord
  | _ => (clkRead s m off).map fun _ => roWord

/-! ## Meanings -/

/-- Meaning of X32_LOSS (R411). -/
def execX32Loss (t : Nat) (s : State) : Host.Outcome State Fault Refusal :=
  .next (doX32Loss t s)

/-- Meaning of MT_SAVE (R413). -/
def execMtSave (t : Nat) (s : State) : Host.Outcome State Fault Refusal :=
  .next (doMtSave t s)

/-- Meaning of DORMANT (R417). -/
def execDormant (t : Nat) (m : Master) (s : State) : Host.Outcome State Fault Refusal :=
  .next (doDormant t m s)

/-- Meaning of DORMANT_COMMIT (R418). -/
def execDormantCommit (t : Nat) (s : State) : Host.Outcome State Fault Refusal :=
  .next (doDormantCommit t s)

/-- Meaning of BUS_WAKE (R381). -/
def execBusWake (t : Nat) (src : BusWake) (s : State) : Host.Outcome State Fault Refusal :=
  .next (doBusWake t src s)

/-- Meaning of DORMANT_WAKE (R430). -/
def execDormantWake (t : Nat) (src : WakeSrc) (s : State) : Host.Outcome State Fault Refusal :=
  .next (doDormantWake t src s)

/-- Meaning of POWER_FAIL_WARNING (R421). -/
def execPowerFailWarning (t : Nat) (cv : Nat) (s : State) : Host.Outcome State Fault Refusal :=
  .next (doPowerFailWarning t cv s)

/-- Meaning of POWER_FAIL_CLEAR (R421). -/
def execPowerFailClear (t : Nat) (cv : Nat) (s : State) : Host.Outcome State Fault Refusal :=
  .next (doPowerFailClear t cv s)

/-- Meaning of SUPPLY_OUT_OF_RANGE (R421). -/
def execSupplyOutOfRange (t : Nat) (cv : Nat) (s : State) : Host.Outcome State Fault Refusal :=
  .next (doSupplyOutOfRange t cv s)

/-- Meaning of VIN24_LOW (R421). -/
def execVin24Low (t : Nat) (cv : Nat) (s : State) : Host.Outcome State Fault Refusal :=
  .next (doVin24Low t cv s)

/-- Meaning of VBAT_LOW (R421). -/
def execVbatLow (t : Nat) (mv : Nat) (s : State) : Host.Outcome State Fault Refusal :=
  .next (doVbatLow t mv s)

/-- Meaning of JUNCTION_TEMP_CHECK (R512). -/
def execJunctionTempCheck (t : Nat) (tenths : Int) (s : State) : Host.Outcome State Fault Refusal :=
  .next (doJunctionTempCheck t tenths s)

/-- Meaning of TAMPER (R440). -/
def execTamper (t : Nat) (s : State) : Host.Outcome State Fault Refusal :=
  .next (doTamper t s)

/-- Meaning of RTC_APPLY (R423). -/
def execRtcApply (t : Nat) (m : Master) (seconds : Word) (frac : Nat) (s : State) : Host.Outcome State Fault Refusal :=
  .next (doRtcApply t m seconds frac s)

/-- Meaning of PTP_SYNC (R425). -/
def execPtpSync (t : Nat) (head : PtpHead) (origin : Nat) (twoStep : Bool) (s : State) : Host.Outcome State Fault Refusal :=
  .next (doPtpSync t head origin twoStep s)

/-- Meaning of PTP_FOLLOW_UP (R424). -/
def execPtpFollowUp (t : Nat) (head : PtpHead) (origin : Nat) (s : State) : Host.Outcome State Fault Refusal :=
  .next (doPtpFollowUp t head origin s)

/-- Meaning of PTP_DELAY_RESP (R425). -/
def execPtpDelayResp (t : Nat) (resp : PtpResp) (received : Nat) (s : State) : Host.Outcome State Fault Refusal :=
  .next (doPtpDelayResp t resp received s)

/-- Meaning of PTP_ANNOUNCE (R424). -/
def execPtpAnnounce (t : Nat) (a : Announce) (s : State) : Host.Outcome State Fault Refusal :=
  .next (doPtpAnnounce t a s)

/-- Meaning of PTP_SYNC_TIMEOUT (R425). -/
def execPtpSyncTimeout (t : Nat) (s : State) : Host.Outcome State Fault Refusal :=
  .next (doPtpSyncTimeout t s)

/-- Meaning of LEAP_SECOND (R426). -/
def execLeapSecond (t : Nat) (s : State) : Host.Outcome State Fault Refusal :=
  .next (doLeapSecond t s)

/-- Meaning of MARKET_TIME_READ (R433). -/
def execMarketTimeRead (t : Nat) (m : Master) (high : Bool) (s : State) : Host.Outcome State Fault Refusal :=
  .next (doMarketTimeRead t m high s)

/-- Meaning of CALENDAR_READ (R427). -/
def execCalendarRead (t : Nat) (m : Master) (s : State) : Host.Outcome State Fault Refusal :=
  .next (doCalendarRead t m s)

/-- Meaning of RAW_READ (R433). -/
def execRawRead (t : Nat) (m : Master) (high : Bool) (s : State) : Host.Outcome State Fault Refusal :=
  .next (doRawRead t m high s)

/-- Meaning of CLK_CLR_CNT (R433). -/
def execClkClrCnt (t : Nat) (m : Master) (s : State) : Host.Outcome State Fault Refusal :=
  .next (doClkClrCnt t m s)

/-- Meaning of PWR_CLR_CNT (R433). -/
def execPwrClrCnt (t : Nat) (m : Master) (s : State) : Host.Outcome State Fault Refusal :=
  .next (doPwrClrCnt t m s)

/-- Meaning of X32_RESTORED (R411). -/
def execX32Restored (t : Nat) (s : State) : Host.Outcome State Fault Refusal :=
  .next (doX32Restored t s)

/-- Meaning of PLL_LOCK_LOSS (R412). -/
def execPllLockLoss (t : Nat) (pll : Pll) (s : State) : Host.Outcome State Fault Refusal :=
  .next (doPllLockLoss t pll s)

/-- Meaning of PLL_RELOCK (R408). -/
def execPllRelock (t : Nat) (pll : Pll) (s : State) : Host.Outcome State Fault Refusal :=
  .next (doPllRelock t pll s)

/-- Meaning of DORMANT_OUTPUT_RELEASE (R418). -/
def execDormantOutputRelease (t : Nat) (s : State) : Host.Outcome State Fault Refusal :=
  .next (doDormantOutputRelease t s)

end Sys2Proof.Machine
end

