-- ==== Sys2Proof/Machine/Health.lean ====
section
/-! DEFINITION. What a module of a pair knows of its partner: heartbeats, policy segments and update heartbeats (R349, R455), the
checks of R352 with what follows from them (R335, R353), the PAIR commands and registers (R337, R350, R356). -/
namespace Sys2Proof.Machine

/-! ## The checks (R352) -/

/-- Number of a pair mode. -/
def modeCode : PairMode → Nat | .single => 0 | .lite => 1 | .full => 2

/-- IMAGE_UID of the active profile; none while no profile is active. -/
def State.imageUid (s : State) : Bytes := match s.prof.image with | some i => i.header.uid | none => []

/-- Does the newer of the two modules' application images carry SHADOW_COMPAT (R457)? -/
def State.newerCompat (s : State) : Bool :=
  let r := s.pair.partner.runUid
  if r = s.upd.large.uid ∧ s.upd.large.st ≠ .empty then s.stagedCompat
  else if r = s.otherImage.uid then (if s.otherImage.version ≤ s.runImage.version then s.runImage.flags.testBit 1 else s.otherImage.flags.testBit 1)
  else false

/-- Do the modules run firmware whose digests need not agree (R457)? -/
def State.firmwareApart (s : State) : Bool := s.pair.partner.runUid != [] && s.pair.partner.runUid != s.runImage.uid && !s.newerCompat

/-- Has the stall delivered a usable uplink in at least 990 of the last 1 000 pitches? -/
def portGood (l : Link) : Bool := decide (990 ≤ (l.history.filter fun b => b).length)

/-- Divergences of the last hour (R344). -/
def State.recentDiverge (s : State) : List Nat := s.pair.seljo.diverge.filter fun q => decide (s.mt < q + secs 3600)

/-- Has the partner's heartbeat been heard within 50 ms? -/
def State.heard (s : State) : Bool := match s.pair.partner.heardAt with | some q => decide (s.mt ≤ q + ms 50) | none => false

/-- Does check `i` of R352 pass? DESIGN CHOICE (log 113): no message carries the number of the slot that runs on the partner, so IMAGE
compares the IMAGE_UID this module runs with the partner's (R60). -/
def checkPasses (s : State) (i : Nat) : Bool :=
  let p := s.pair.partner
  match i with
  | 0 => s.active || (s.running && s.imageUid == p.uid)
  | 1 => p.runUid == s.runImage.uid || (s.upd.large.st != .empty && p.runUid == s.upd.large.uid) || (s.otherImage.present && p.runUid == s.otherImage.uid)
  | 2 => s.active || s.pair.seljo.lock
  | 3 => s.pair.seljo.up
  | 4 => (fins 64).all fun n => (s.stallRec n).isNone || portGood s.stalls[n].link
  | 5 => !s.pair.interlockBad
  | 6 => s.saf.selfTest && !s.saf.ctrlFault && (s.pair.mode == .single || Config.partnerSiAgree s.mt)
  | 7 => (match s.lat.badAt with | some q => decide (q + secs 1 < s.mt) | none => true)
  | 8 => !s.pwr.supplyBad && !s.pwr.vin24Low && !s.pwr.pfw && !s.pwr.hot && s.clk.refOk && s.clk.x32Ok && s.clk.lock.toList.all fun b => b
  | 9 => s.heard
  | 10 => decide (s.recentDiverge.length < 3)
  | _ => false

/-- The checks marked for the column a module is judged by: full pair, or lite pair and DEGRADED (R352, R353, R457). A module
in single mode has no partner and trains no link while it does not hold ACTIVE: its own checks are SAFETY, LANES and SUPPLY. -/
def checkColumn (mode : PairMode) (degraded : Bool) : List Nat :=
  match mode with
  | .single => [6, 7, 8]
  | .lite => [0, 1, 4, 5, 6, 7, 8, 9]
  | .full => if degraded then [0, 1, 4, 5, 6, 7, 8, 9] else [0, 1, 2, 4, 5, 6, 7, 8, 9, 10]

/-- UNFIT code of a check. -/
def checkCode (i : Nat) : Nat := [1, 2, 3, 4, 5, 6, 7, 8, 9, 4, 8].getD i 0

/-- Is the module judged by the lite-pair column although in full pair (R353, R457)? -/
def State.judgedLite (s : State) : Bool := s.pair.mode == .full && (s.firmwareApart || (s.pair.role == .standby && !s.pair.seljo.up))

/-- The checks that fail of those a module needs. -/
def State.failing (s : State) : List Nat := (checkColumn s.pair.mode s.judgedLite).filter fun i => !checkPasses s i

/-- Is the module fit? -/
def State.fit (s : State) : Bool := s.failing.isEmpty

/-- The lowest code among failing checks; 0 for none. -/
def lowestCode (xs : List Nat) : Nat := match xs.map checkCode with | [] => 0 | c :: r => r.foldl min c

/-- The check bits of PAIR.HEALTH.OWN. -/
def State.ownBits (s : State) : Nat := sumNat ((List.range 11).map fun i => b2n (checkPasses s i) * 2 ^ i)

/-- Are all three policy segments held (R349)? -/
def State.policyHeld (s : State) : Bool := (tableGet s.pair.segments 0).isSome && (tableGet s.pair.segments 1).isSome && (tableGet s.pair.segments 2).isSome

/-- Is the sequence complete that leads out of SYNCING: R347 in full pair, R349 in lite pair and between firmware whose digests
need not agree; SIDE 1 also holds a MAC base received since its boot (R211)? A module in single mode has nothing to synchronise with. -/
def State.synced (s : State) : Bool :=
  s.pair.mode == .single ||
  (s.pair.side == 0 || s.pair.macHeard) &&
  (if s.pair.mode == .lite || s.firmwareApart then s.heard && s.policyHeld
   else s.pair.seljo.captured && decide (1000 ≤ s.pair.seljo.agreePitch ∧ 10 ≤ s.pair.seljo.agreeTick))

/-- What the checks mean to the role. -/
def State.judgeRole (s : State) : State :=
  match s.pair.role with
  | .standby =>
    let s := (s.setPair fun p => { p with degraded := s.judgedLite }).bumpIf (s.pair.degraded != s.judgedLite) 9
    if s.fit then s else s.enterUnfit (lowestCode s.failing)
  | .syncing => if s.synced && s.fit then (s.setPair fun p => { p with degraded := s.judgedLite }).setRole .standby 0 else s
  | .unfit => s.setPair fun p => { p with passDue := if s.fit then some (p.passDue.getD (s.mt + secs p.resyncS)) else none }
  | _ => s

/-- TIME and HEALTH leave every 1 ms (R339). -/
def State.sendHealth (s : State) : State :=
  (s.sendSeljo 1 0 s.mt (Config.seljoPayload 1 [(s.mt : Int)])).sendSeljo 7 0 s.mt (Config.seljoPayload 7 [(s.pair.own : Int)])

/-- A full-pair module in SYNCING that is locked and has taken STATE asks for CAPTURE (step 4 of R347). DESIGN CHOICE (log 125): an empty
message of that TYPE asks for it. -/
def State.askCapture (s : State) : State :=
  let q := s.pair.seljo
  if s.pair.mode == .full && s.pair.role == .syncing && q.lock && q.stateTaken && !q.captured && !q.captureAsked then
    (s.setSeljo fun q => { q with captureAsked := true }).sendSeljo 6 0 s.mt []
  else s

/-- HEALTH_CHECK (R352): every 1 ms. -/
def doHealthCheck (t : Nat) : State → State :=
  whenLive t fun s =>
    let s := (s.judgeHold t).armHold t
    let own := s.ownBits
    let s := (s.setPair fun p => { p with own }).bumpIf (s.pair.own != own) 9
    (s.sendHealth.askCapture).judgeRole

/-- What keeps SYNCING from its end where no check fails: the step of R347 not reached. -/
def syncCode (s : State) : Nat :=
  if s.pair.side = 1 ∧ !s.pair.macHeard then 4
  else if s.pair.mode = .lite ∨ s.firmwareApart then 4
  else if !s.pair.seljo.captured then 4 else 8

/-- SYNC_TIMEOUT (R335): 10 s in SYNCING. -/
def doSyncTimeout (t : Nat) : State → State :=
  whenLive t fun s =>
    if s.pair.role == .syncing && expired t (s.pair.roleAt + secs 10) then
      s.enterUnfit (if s.failing.isEmpty then syncCode s else lowestCode s.failing)
    else s

/-- May UNFIT end at `t` (R335, R337, R482)? -/
def resyncDue (s : State) (t : Nat) : Bool :=
  if s.pair.mode == .single && s.pair.unfitCode == 6 then !s.pair.activeI && decide (s.pair.releasedDue ≤ t)
  else !s.pair.hold11 && (match s.pair.passDue with | some q => decide (q ≤ t) | none => false)

/-- RESYNC_ELAPSED (R335, R482): UNFIT passes to SYNCING; with code 6 in single mode it passes to INIT. -/
def doResyncElapsed (t : Nat) : State → State :=
  whenLive t fun s =>
    if s.pair.role == .unfit && resyncDue s t then
      if s.pair.mode = .single ∧ s.pair.unfitCode = 6 then (s.assumeInterlock s.pair.interlockBad).startRole else s.enterSyncing 0
    else s

/-! ## Heartbeats (R349) -/

/-- Byte STATE of a heartbeat. -/
def hbState (s : State) : Nat :=
  roleCode s.pair.role + s.pair.side * 8 + b2n s.pair.activeI * 16 + b2n s.fit * 32 + modeCode s.pair.mode * 64

/-- The applied duties as a 240-bit integer. -/
def packDuties (ds : List Nat) : Nat := ds.reverse.foldl (fun a d => a * 1024 + d % 1024) 0

/-- The KIND 0x01 frame. -/
def heartbeatBytes (s : State) : Bytes :=
  [0x01, byte (hbState s)] ++ leBytes 2 s.pair.epoch ++ leBytes 2 s.pair.own ++ [0, 0] ++ leBytes 8 s.mt ++ slice s.imageUid 0 16 ++
  leBytes 30 (packDuties (s.aux.ch.toList.map fun c => c.duty)) ++ leBytes 2 s.energisedMask

/-- A frame of the module's own joins the queue of the heartbeat channel, with its 11-bit identifier. -/
def State.queueOwn (s : State) (kind : Nat) (data : Bytes) : State :=
  let ch := finMod 2 s.pair.hbCh
  s.queueFrame ch { kind, box := 0, ext := false, id := s.pair.hbId + s.pair.side, fd := true, brs := s.sbus.ch[ch].brsOf true, dlc := 15, data }

/-- HEARTBEAT_SEND (R349): in a pair, every 10 ms. -/
def doHeartbeatSend (t : Nat) : State → State := whenLive t fun s => if s.paired then s.queueOwn 0 (heartbeatBytes s) else s

/-- The role a code names. -/
def roleOf : Nat → Option Role
  | 0 => some .init | 1 => some .claiming | 2 => some .active | 3 => some .syncing | 4 => some .standby | 5 => some .unfit | _ => none

/-- The partner's picture after a heartbeat received at `t`. -/
def partnerHeard (p : Partner) (t : Nat) (b : Bytes) : Partner :=
  let st := u8 b 1
  let aux := le b 32 30
  { p with heardAt := some t, role := roleOf (st % 8), absent := false, side := bits st 3 1, activeI := st.testBit 4, fit := st.testBit 5, mode := bits st 6 2,
           epoch := u16 b 2, health := u16 b 4 % 2048, uid := slice b 16 16,
           auxDuty := (List.range 24).map fun n => bits aux (10 * n) 10, energised := u16 b 62 % 4096 }

/-- The interlock check of R334: three reports of ACTIVE_I in a row that disagree with ACTIVE_O. -/
def State.checkInterlock (s : State) : State :=
  let wrong := s.pair.partner.activeI != s.pair.activeO
  let n := if wrong then s.pair.disagree + 1 else 0
  let s := s.setPair fun p => { p with disagree := n, interlockBad := decide (3 ≤ n) }
  let s := if n = 3 then s.log 0x0902 0xFF (b2n s.pair.partner.activeI) (b2n s.pair.activeO) else s
  s.assumeInterlock s.pair.interlockBad

/-- A holding module with SIDE 1 learns that its partner holds ACTIVE too: it releases at once and is UNFIT (R334). -/
def State.yieldSide (s : State) : State :=
  if s.pair.role == .active && s.pair.partner.role == some .active && s.pair.side == 1 then
    let s := s.allOff.cancelPending 0x34
    (if s.pair.mode = .full then s else s.dropSite).enterUnfit 6
  else s

/-- HEARTBEAT_FRAME (R334, R349). -/
def doHeartbeatFrame (t : Nat) (bytes : Bytes) : State → State :=
  whenLive t fun s =>
    if s.paired && bytes.length == 64 && u8 bytes 0 == 1 then
      let old := s.pair.partner
      let s := s.setPartner fun p => partnerHeard p s.mt bytes
      let new := s.pair.partner
      let s := s.bumpIf (old.role != new.role || old.fit != new.fit || old.absent || old.health != new.health) 9
      s.checkInterlock.yieldSide
    else s

/-- PARTNER_ABSENT (R349): 50 ms without its heartbeat, from the latest one or from the start of this module. -/
def doPartnerAbsent (t : Nat) : State → State :=
  whenLive t fun s =>
    let q := s.pair.partner.heardAt.getD s.pair.listenFrom
    if s.paired && !s.pair.partner.absent && expired t (q + ms 50) then (s.setPartner fun p => { p with absent := true }).bump 9 else s

/-! ## Policy segments (R349) -/

/-- Offsets in MKT of the words the segments carry, in address order. -/
def segOffsets : List Nat :=
  [0x10, 0x14, 0x18, 0x1C, 0x20, 0x24, 0x28] ++ ((List.range 12).map fun b => 0x40 + 4 * b) ++ ((List.range 12).map fun b => 0x70 + 4 * b)

/-- The hot-spot rise in 2^−16 °C, to a free rounding. -/
def State.thetaLsb (s : State) : Int := let x := s.mkt.theta * 65536; someRound 47 x.num x.den

/-- The data of the segments. -/
def policyData (s : State) : Bytes :=
  (segOffsets.flatMap fun o => leBytes 4 ((polGet s.mkt.committed o).getD 0)) ++ leBytes 4 (fieldOf 32 s.thetaLsb)

/-- Segment `i`. -/
def policySegment (s : State) (i : Nat) : Bytes := [0x02, byte i, 3, 0] ++ slice (policyData s) (60 * i) 60

/-- POLICY_SEGMENT_SEND (R349): the module that holds ACTIVE, after a commit and every 10 s. -/
def doPolicySegmentSend (t : Nat) : State → State :=
  whenLive t fun s => if s.paired && s.active then ((s.queueOwn 1 (policySegment s 0)).queueOwn 1 (policySegment s 1)).queueOwn 1 (policySegment s 2) else s

/-- Policy words and the hot-spot rise taken from the partner. -/
def State.adoptPolicy (s : State) (ws : List (Nat × Nat)) (theta : Int) : State :=
  let f := fun (p : Policy) => ws.foldl (fun p w => (polSet p w.1 w.2).getD p) p
  { s with mkt := { s.mkt with committed := f s.mkt.committed, shadow := f s.mkt.shadow, theta := (theta : Rat) / 65536 } }

/-- The policy of three held segments. -/
def State.takeSegments (s : State) : State :=
  match tableGet s.pair.segments 0, tableGet s.pair.segments 1, tableGet s.pair.segments 2 with
  | some a, some b, some c =>
    let d := a ++ b ++ c
    s.adoptPolicy ((List.range 31).map fun i => (segOffsets.getD i 0, u32 d (4 * i))) (signedOf 32 (u32 d 124))
  | _, _, _ => s

/-- POLICY_SEGMENT_FRAME (R349): a module without ACTIVE takes the policy over once it holds all three. -/
def doPolicySegmentFrame (t : Nat) (bytes : Bytes) : State → State :=
  whenLive t fun s =>
    if s.paired && !s.active && bytes.length == 64 && u8 bytes 0 == 2 && decide (u8 bytes 1 < 3) then
      let i := u8 bytes 1
      (s.setPair fun p => { p with segments := tableSet (if i = 0 then [] else p.segments) i (slice bytes 4 60) }).takeSegments
    else s

/-! ## Update heartbeats (R211, R455) -/

/-- The KIND 0x03 frame. -/
def updateHeartbeatBytes (s : State) : Bytes :=
  let staged := if s.upd.large.st = .empty then List.replicate 16 0 else slice s.upd.large.uid 0 16
  slice ([0x03, byte s.upd.mode, 0, 0] ++ slice s.runImage.uid 0 16 ++ staged ++ beBytes 6 s.fuses.mac) 0 64

/-- UPDATE_HEARTBEAT_SEND (R455): in a pair, after every boot and every 10 s. -/
def doUpdateHeartbeatSend (t : Nat) : State → State := whenLive t fun s => if s.paired then s.queueOwn 2 (updateHeartbeatBytes s) else s

/-- UPDATE_HEARTBEAT_FRAME (R211, R455): SIDE 1 takes the base of the bays' MAC addresses from it. -/
def doUpdateHeartbeatFrame (t : Nat) (bytes : Bytes) : State → State :=
  whenLive t fun s =>
    if s.paired && bytes.length == 64 && u8 bytes 0 == 3 then
      let mac := beNat (slice bytes 36 6)
      let s := s.setPartner fun p => { p with actMode := u8 bytes 1, runUid := slice bytes 4 16, stagedUid := slice bytes 20 16, mac := some mac }
      if s.pair.side = 1 then s.setPair fun p => { p with mac, macHeard := true } else s
    else s

/-! ## PAIR commands and registers (R337, R350, R356) -/

/-- Address of PAIR.CTRL. -/
def pairCtrlAddr : Nat := 0x00800000

/-- Why a planned handover is refused (R350, R337). -/
def handoverRefusal (s : State) : Option Answer :=
  let possible := s.pair.role == .active && (match s.pair.mode with | .single => false | .full => s.partnerFit | .lite => s.energisedMask == 0)
  if !possible then some (deny .state) else refuseIf s.holdoff ⟨.busy, .state⟩

/-- The effect of HANDOVER: ACTIVE is released at a compute deadline. -/
def State.planHandover (s : State) : State := s.setPair fun p => { p with handoverPend := true }

/-- The effect of CLEAR_UNFIT: the hold of code 11 ends. -/
def State.clearHold (s : State) : State :=
  (s.setPair fun p => { p with hold11 := false, unfitCode := if p.unfitCode = 11 then 10 else p.unfitCode }).bumpIf (s.pair.unfitCode == 11) 9

/-- The effect of CLR_CNT. -/
def State.pairClear (s : State) : State := s.setPair fun p => { p with takeovers := 0, handovers := 0, releases := 0, divergeCnt := 0 }

/-- HANDOVER (R350). -/
def doHandover (t : Nat) (m : Master) : State → State :=
  whenLive t fun s => s.command m pairCtrlAddr (firstOf (foreign s m) (handoverRefusal s)) fun s => s.planHandover

/-- CLEAR_UNFIT (R337). -/
def doClearUnfit (t : Nat) (m : Master) : State → State := whenLive t fun s => s.command m pairCtrlAddr (foreign s m) fun s => s.clearHold

/-- PAIR_CLR_CNT (R356). -/
def doPairClrCnt (t : Nat) (m : Master) : State → State := whenLive t fun s => s.command m pairCtrlAddr (foreign s m) fun s => s.pairClear

/-- A write of PAIR.CTRL (R518). -/
def pairCtrl (s : State) (v : Nat) : RegEffect :=
  (firstOf (refuseIf (severalBits v 6) (deny .range)) (if v.testBit 1 then handoverRefusal s else none), fun s =>
    let s := if v.testBit 1 then s.planHandover else if v.testBit 2 then s.clearHold else s
    if v.testBit 0 then s.pairClear else s)

/-- PAIR.CFG. -/
def pairCfgWord (p : Pair) : Nat := p.holdoffS + p.resyncS * 2 ^ 8 + p.hbId * 2 ^ 18 + p.hbCh * 2 ^ 29 + modeCode p.mode * 2 ^ 30

/-- The mode of a code below 3. -/
def pairModeOf : Nat → PairMode | 0 => .single | 1 => .lite | _ => .full

/-- Would a heartbeat fit a window of its channel (R364)? -/
def State.heartbeatRoom (s : State) (mode ch : Nat) : Bool :=
  mode == 0 || !s.running ||
  (let c := s.sbus.ch[finMod 2 ch]
   heartbeatFits ((s.busWindows (finMod 2 ch)).map (·.2)) ch c.nomRate c.dataRate)

/-- A write of PAIR.CFG by a master: MODE, HB_CH and HB_ID need the SYS unlock. DESIGN CHOICE (log 112): a word that repeats their present
values writes no RWS field, so that RESYNC_S and HOLDOFF_S stay writable while the module is locked. -/
def pairCfg (s : State) (m : Master) (v : Nat) : RegEffect :=
  let mode := bits v 30 2
  let ch := bits v 29 1
  let id := bits v 18 11
  let rws := bits v 18 14 != bits (pairCfgWord s.pair) 18 14
  let ok := decide (mode < 3 ∧ id ≤ 0x7FE ∧ 10 ≤ bits v 8 8 ∧ 5 ≤ bits v 0 8) && s.heartbeatRoom mode ch
  (firstOf (if rws then sysGuard s m else none) (refuseIf (!ok) (deny .range)), fun s =>
    s.setPair fun p => { p with mode := pairModeOf mode, hbCh := ch, hbId := id, resyncS := bits v 8 8, holdoffS := bits v 0 8 })

/-- PAIR.STAT. -/
def pairStat (s : State) : Nat :=
  let p := s.pair
  let prole := if p.partner.absent then 7 else match p.partner.role with | some r => roleCode r | none => 0
  roleCode p.role + p.unfitCode * 2 ^ 4 + prole * 2 ^ 8 + b2n p.partner.fit * 2 ^ 11 + b2n p.degraded * 2 ^ 12 + b2n p.activeO * 2 ^ 13 +
  b2n p.activeI * 2 ^ 14 + p.side % 2 * 2 ^ 15 + p.epoch * 2 ^ 16

/-- A read of PAIR at an offset. -/
def pairRead (s : State) (off : Nat) : Option Nat :=
  let p := s.pair
  match off with
  | 0x00 => some 0
  | 0x04 => some (pairCfgWord p)
  | 0x08 => some (pairStat s)
  | 0x0C => some (p.own + p.partner.health * 2 ^ 16)
  | 0x10 => some (b2n p.seljo.up + b2n p.seljo.lock * 2 + p.seljo.err * 2 ^ 8 + fieldOf 16 p.seljo.offset * 2 ^ 16)
  | 0x14 => some (p.divergeCnt + p.releases * 2 ^ 8 + p.handovers * 2 ^ 16 + p.takeovers * 2 ^ 24)
  | 0x18 => some p.lastCause
  | 0x1C => some p.lastHo
  | 0x20 => some (p.tko % 2 ^ 32)
  | 0x24 => some (p.tko / 2 ^ 32 % 2 ^ 32)
  | 0x28 => some (s.macBase % 2 ^ 32)
  | 0x2C => some (s.macBase / 2 ^ 32 % 2 ^ 16)
  | _ => none

/-- A write of PAIR at an offset. -/
def pairWrite (s : State) (m : Master) (off v : Nat) : Option RegEffect :=
  match off with
  | 0x00 => some (pairCtrl s v)
  | 0x04 => some (pairCfg s m v)
  | _ => (pairRead s off).map fun _ => roWord

/-! ## Meanings -/

/-- Meaning of SYNC_TIMEOUT (R335). -/
def execSyncTimeout (t : Nat) (s : State) : Host.Outcome State Fault Refusal :=
  .next (doSyncTimeout t s)

/-- Meaning of RESYNC_ELAPSED (R335). -/
def execResyncElapsed (t : Nat) (s : State) : Host.Outcome State Fault Refusal :=
  .next (doResyncElapsed t s)

/-- Meaning of HEARTBEAT_SEND (R349). -/
def execHeartbeatSend (t : Nat) (s : State) : Host.Outcome State Fault Refusal :=
  .next (doHeartbeatSend t s)

/-- Meaning of HEARTBEAT_FRAME (R349). -/
def execHeartbeatFrame (t : Nat) (bytes : Bytes) (s : State) : Host.Outcome State Fault Refusal :=
  .next (doHeartbeatFrame t bytes s)

/-- Meaning of PARTNER_ABSENT (R349). -/
def execPartnerAbsent (t : Nat) (s : State) : Host.Outcome State Fault Refusal :=
  .next (doPartnerAbsent t s)

/-- Meaning of POLICY_SEGMENT_SEND (R349). -/
def execPolicySegmentSend (t : Nat) (s : State) : Host.Outcome State Fault Refusal :=
  .next (doPolicySegmentSend t s)

/-- Meaning of POLICY_SEGMENT_FRAME (R349). -/
def execPolicySegmentFrame (t : Nat) (bytes : Bytes) (s : State) : Host.Outcome State Fault Refusal :=
  .next (doPolicySegmentFrame t bytes s)

/-- Meaning of UPDATE_HEARTBEAT_SEND (R455). -/
def execUpdateHeartbeatSend (t : Nat) (s : State) : Host.Outcome State Fault Refusal :=
  .next (doUpdateHeartbeatSend t s)

/-- Meaning of UPDATE_HEARTBEAT_FRAME (R455). -/
def execUpdateHeartbeatFrame (t : Nat) (bytes : Bytes) (s : State) : Host.Outcome State Fault Refusal :=
  .next (doUpdateHeartbeatFrame t bytes s)

/-- Meaning of HEALTH_CHECK (R352). -/
def execHealthCheck (t : Nat) (s : State) : Host.Outcome State Fault Refusal :=
  .next (doHealthCheck t s)

/-- Meaning of HANDOVER (R350). -/
def execHandover (t : Nat) (m : Master) (s : State) : Host.Outcome State Fault Refusal :=
  .next (doHandover t m s)

/-- Meaning of CLEAR_UNFIT (R337). -/
def execClearUnfit (t : Nat) (m : Master) (s : State) : Host.Outcome State Fault Refusal :=
  .next (doClearUnfit t m s)

/-- Meaning of PAIR_CLR_CNT (R356). -/
def execPairClrCnt (t : Nat) (m : Master) (s : State) : Host.Outcome State Fault Refusal :=
  .next (doPairClrCnt t m s)

end Sys2Proof.Machine
end

