-- ==== Sys2Proof/Machine/Shadow.lean ====
section
/-! DEFINITION. The Seljo link and the shadow (R338 to R344, R347): its messages, the shadow window, divergences; the compute deadline
with the causes judged there (R135, R345) and the release of a profile handover (R355). -/
namespace Sys2Proof.Machine

/-! ## Messages (R339) -/

/-- A response that waits for its acknowledgement leaves, where the module holds ACTIVE. -/
def State.sendHeld (s : State) (b : Fin 12) : State :=
  match s.bays[b].heldResp with | some r => if s.active then s.sendResp b r else s | none => s

/-- The Seljo link goes down (R338, R353): a standby that is fit by the lite-pair column stays, DEGRADED; responses that wait for an
acknowledgement leave without it. -/
def State.seljoDown (s : State) : State :=
  if !s.pair.seljo.up then s
  else
    let s := (s.setSeljo fun q => { q with up := false, crcStamps := [] }).bump 9
    let s := s.forAll 12 fun b s => s.sendHeld b
    if s.pair.role = .standby then s.judgeRole else s

/-- A message whose CRC fails: it is counted; the fourth within 1 ms takes the link down (R338). -/
def State.seljoBad (s : State) : State :=
  let s := s.setSeljo fun q => { q with err := satInc 8 q.err, crcStamps := s.mt :: q.crcStamps.filter fun x => decide (s.mt < x + 1000000) }
  if 4 ≤ s.pair.seljo.crcStamps.length then s.seljoDown else s

/-- A message with a wrong CRC is dropped; the others act in full pair, their SEQ noted (R339;
DEDUCED, log 106: nothing is judged by it). -/
def seljoMsg (t : Nat) (type : Fin 9) (head : SeljoHead) (f : State → State) : State → State :=
  whenLive t fun s =>
    if s.pair.mode != .full then s
    else if !seljoOk type.val head then s.seljoBad
    else f (s.setSeljo fun q => { q with got := vupd q.got type fun _ => head.seq })

/-- Does the module shadow: STANDBY, or SYNCING with its state loaded (R341, R347)? -/
def State.shadows (s : State) : Bool :=
  s.pair.mode == .full && (s.pair.role == .standby || (s.pair.role == .syncing && s.pair.seljo.captured))

/-- A disagreeing digest (R344): counted, and the synchronisation goes back to its step 4. -/
def State.diverge (s : State) : State :=
  let stamps := s.mt :: s.recentDiverge
  let s := s.setPair fun p => { p with divergeCnt := satInc 8 p.divergeCnt }
  let s := s.setSeljo fun q => { q with captured := false, captureAsked := false, agreePitch := 0, agreeTick := 0, replay := [], diverge := stamps }
  s.setRole .syncing 0

/-! ## TIME (R340) -/

/-- OFFSET_NS of an exchange: half of (t2 − t1) − (t4 − t3), to a free rounding. -/
def seljoOffset (t1 t2 t3 t4 : Nat) : Int := someRound 43 (((t2 : Int) - t1) - ((t4 : Int) - t3)) 2

/-- The lock after an exchange whose doubled offset is `d`: 16 in a row within ±4 ns gain it, one beyond ±8 ns loses it. -/
def lockStep (q : Seljo) (d : Nat) : Seljo :=
  let run := if d ≤ 8 then min 16 (q.goodRun + 1) else 0
  let q := { q with goodRun := run }
  if 16 < d then { q with lock := false } else { q with lock := q.lock || decide (16 ≤ run) }

/-- The slew while locked: free within ±100 ppm. -/
def State.lockedSlew (s : State) : State :=
  let r := s.drawNat
  r.2.setSeljo fun q => { q with slew := ((r.1 % 201 : Nat) : Int) - 100 }

/-- A link in TRAIN that has waited for the lock begins its exchange; one that is OFF aligns (R101, R340). -/
def State.trainWaiting (s : State) (n : Fin 64) : State :=
  let l := s.stalls[n].link
  if (s.stallRec n).isNone then s
  else if l.st = .off then s.linkAlign n
  else if l.st = .train ∧ l.out = .idl then s.sendConfig n 0 false
  else s

/-- Links train once the lock is held (R340). -/
def State.trainLocked (s : State) : State := s.forAll 64 fun n s => s.trainWaiting n

/-- Market time steps forward by `n` ns (R340). RAW and the calendar do not step with it (R413, R422), nor does the reception stamp of a Sync. -/
def State.stepTime (s : State) (n : Nat) : State :=
  { s with mt := s.mt + n, clk := { s.clk with rawFrom := s.clk.rawFrom + n },
           rtc := { s.rtc with baseAt := s.rtc.baseAt + n, syncRx := s.rtc.syncRx + n, leap := s.rtc.leap.map fun q => (q.1 + n, q.2) } }

/-- A module without ACTIVE follows the offset: one step forward at entry to SYNCING; back only by slewing. -/
def State.follow (s : State) (o : Int) (d : Nat) : State :=
  if o < -1000000000 then (s.setSeljo fun q => { q with lock := false, goodRun := 0 }).enterUnfit 3
  else
    let was := s.pair.seljo.lock
    let s := if s.pair.seljo.stepPend && decide (0 < o) then s.stepTime o.toNat else s
    let s := s.setSeljo fun q => lockStep { q with stepPend := false, slew := if o < 0 ∧ !q.lock then -1000 else 0 } d
    let s := s.bumpIf (s.pair.seljo.lock != was) 9
    if s.pair.seljo.lock then (if was then s.lockedSlew else s.trainLocked) else s

/-- Does the module follow its partner's market time: a standby, on its way to it or back to it (R335, R340)? -/
def State.follows (s : State) : Bool := s.pair.role == .syncing || s.pair.role == .standby || s.pair.role == .unfit

/-- SELJO_TIME (R340). -/
def doSeljoTime (t : Nat) (head : SeljoHead) (t1 t2 t3 t4 : Nat) : State → State :=
  seljoMsg t 1 head fun s =>
    let o := seljoOffset t1 t2 t3 t4
    let s := s.setSeljo fun q => { q with offset := clampInt (-32768) 32767 o }
    if s.follows then s.follow o ((((t2 : Int) - t1) - ((t4 : Int) - t3)).natAbs) else s

/-! ## PITCH (R341) -/

/-- The inputs a PITCH message carries: each stall of STALL_MASK, usable or not, and its 24 bytes. -/
def pitchItems (mask : Nat) (m : PitchMsg) : List (Nat × Bool × Bytes) :=
  let ns := (List.range 64).filter fun n => mask.testBit n
  (List.range ns.length).map fun i => let n := ns.getD i 0; (n, m.usable.testBit n, m.inputs.getD i [])

/-- The frame the 24 bytes stand for: bytes 1 to 3 and 7 to 27. -/
def pitchUplink (boundary : Nat) (b : Bytes) : Uplink := uplinkOf ([0x21] ++ slice b 0 3 ++ leBytes 3 (boundary % 2 ^ 24) ++ slice b 3 21)

/-- A count of consecutive agreements after one at `now`, where the one before must lie at `prev`. -/
def inSequence (latest prev count : Nat) : Nat := if latest = prev then count + 1 else 1

/-- A digest of the pitch digests agrees or not, where this module has one for the same pitch; a pitch without agreement between two breaks
the sequence (R347). -/
def State.judgePitch (s : State) (boundary digest : Nat) : State :=
  match s.pair.seljo.pitchDigest with
  | some (b, d) =>
    if b ≠ boundary ∨ !s.shadows then s
    else if d = digest then
      s.setSeljo fun q => { q with agreePitch := inSequence q.agreedPitch (boundary - s.pitchNs) q.agreePitch, agreedPitch := boundary }
    else s.diverge
  | none => s

/-- SELJO_PITCH (R341, R347): the digest of the previous pitch is compared, the inputs wait for the shadow window; before
CAPTURE they are kept for the replay. -/
def doSeljoPitch (t : Nat) (head : SeljoHead) (msg : PitchMsg) : State → State :=
  seljoMsg t 2 head fun s =>
    match s.prof.image with
    | some img =>
      if s.pair.role != .standby && s.pair.role != .syncing then s
      else
        let items := pitchItems img.header.stallMask msg
        let s := s.judgePitch head.time msg.digest
        let s := s.setSeljo fun q => { q with pitch := some (head.time, items) }
        if s.shadows then s else s.setSeljo fun q => { q with replay := q.replay ++ [(head.time, items)] }
    | none => s

/-- One stall's input of a shadowed pitch: a usable uplink, or a lost sample (R163, R341). -/
def State.shadowInput (s : State) (n : Fin 64) (boundary : Nat) (u : Option Uplink) : State :=
  let old := s.stalls[n].link
  match u with
  | some u => (s.takeSample n boundary u).setStall n (keepPort old)
  | none => if classified s n boundary && !judged s.stalls[n] boundary then (s.loseSample n boundary).setStall n (keepPort old) else s

/-- The inputs of a pitch from PITCH. -/
def State.shadowFrom (s : State) (boundary : Nat) (items : List (Nat × Bool × Bytes)) : State :=
  items.foldl (fun s x =>
    match fin? 64 x.1 with
    | some n => s.shadowInput n boundary (if x.2.1 then some (pitchUplink boundary x.2.2) else none)
    | none => s) s

/-- The inputs of a pitch from this module's own ports, where PITCH is missing (R341). -/
def State.shadowOwn (s : State) (boundary : Nat) : State :=
  s.forAll 64 fun n s =>
    if (s.stallRec n).isNone then s
    else
      match s.stalls[n].link.own with
      | some (b, bytes) => s.shadowInput n boundary (if b = boundary ∧ !bytes.isEmpty then some (uplinkOf bytes) else none)
      | none => s.shadowInput n boundary none

/-- The inputs of a shadowed pitch. -/
def State.shadowInputs (s : State) (boundary : Nat) : State :=
  match s.pair.seljo.pitch with
  | some (b, items) => if b = boundary then s.shadowFrom boundary items else s.shadowOwn boundary
  | none => s.shadowOwn boundary

/-- SHADOW_WINDOW_OPEN (R341, R342): 900 ns after the window of the module that holds ACTIVE. A module that has just gained
ACTIVE so runs the pitch whose normal window opened before. -/
def doShadowWindowOpen (t : Nat) : State → State :=
  whenLive t fun s =>
    let b := t - (s.openNs + 900)
    let owed := s.pair.mode == .full && s.active && s.lat.pitch + s.pitchNs == b && decide (b + s.openNs < s.pair.tko)
    if decide (s.openNs + 900 ≤ t) && s.isBoundary b && (s.shadows || owed) && !(s.lat.windowOpen && s.lat.pitch == b) then
      (s.shadowInputs b).openWindow t b true
    else s

/-! ## TICK (R341) -/

/-- SELJO_TICK (R341): the results of the tick before are compared; clearing runs on the snapshot. -/
def doSeljoTick (t : Nat) (head : SeljoHead) (snap : TickSnap) (digest : Nat) : State → State :=
  seljoMsg t 3 head fun s =>
    let s := match s.pair.seljo.tickDigest with
      | some (q, d) =>
        if q + 1000000 ≠ head.time ∨ !s.shadows then s
        else if d = digest then s.setSeljo fun x => { x with agreeTick := inSequence x.agreedTick (q - 1000000) x.agreeTick, agreedTick := q }
        else s.diverge
      | none => s
    if s.pair.role == .standby || (s.pair.role == .syncing && s.pair.seljo.stateTaken) then
      (s.setSeljo fun q => { q with snap := some snap }).clearOn head.time snap
    else s

/-! ## SESSION, STATE, CAPTURE (R343, R347) -/

/-- Is the outlet contactor of a bay closed in this state of its session (R220, R227)? -/
def sessCloses (st : SessSt) : Bool := match st with | .cableCheck | .precharge | .power | .rampDown => true | _ => false

/-- A session as the module that holds ACTIVE has it (R229), stamped `t`: with its state go T (R147), the PLCA beacons, the MAC address
taken at the entry to CONNECTED, which the standby first sees in the session's first SESSION (R211), and the outlet contactor's command,
which a takeover continues (R311), but not against a safe stop. -/
def State.takeSession (s : State) (t : Nat) (b : Fin 12) (session : Session) : State :=
  let old := s.bays[b].session.st
  let begins := decide (session.st ≠ .idle ∧ old = .idle ∨ session.st = .connected ∧ old ≠ .connected)
  let mac := if begins then s.macBase + b.val else s.bays[b].mac
  let stops := s.saf.stops[b].st
  let s := (s.setBay b fun x => { x with session, mac, pilot := { x.pilot with plca := session.st != .idle } }).bumpIf (old != session.st) 4
  let s := s.commitTarget t b session.target
  s.commandOutlet b (sessCloses session.st && (stops == .none || stops == .ramp))

/-- SELJO_SESSION (R229, R343): one bay's session, which the payload opens to under the pair key (R339); the acknowledgement asked for
leaves. Without a pair key that may be used nothing opens. -/
def doSeljoSession (t : Nat) (head : SeljoHead) (bay : Fin 12) (session : Session) : State → State :=
  seljoMsg t 4 head fun s =>
    if s.pair.role = .active then s
    else if s.pairKey.isNone then s.serveUse .marketSup 9
    else
      ((s.serveUse .marketSup 9).takeSession head.time bay session).setSeljo fun q =>
        { q with ack := if head.flags.testBit 0 then some (4, head.seq) else q.ack }

/-- SELJO_SESSION_ACK (R343): the response that waited for it leaves. -/
def doSeljoSessionAck (t : Nat) (bay : Fin 12) : State → State := whenLive t fun s => s.sendHeld bay

/-- A stall as STATE carries it, its assignment in force at once; its path is its bay's, until its cells are out. Whether MATRIX = 0xF has
been sent since an assignment the module already has is what its own frames have shown it (R125). -/
def stateStall (i : StallItem) (x : Stall) : Stall :=
  let cells := vgen (n := 8) fun c => i.cells.getD c.val {}
  let out := cells.toList.all cellOut
  let bay := i.bay.bind (fin? 12)
  let gated := match i.st with | .stopping => out | .stopped | .locked => true | _ => false
  { x with st := i.st, cause := i.cause, bay, bayAt := 0, cells, gatedOut := gated, matrix := if gated then none else bay, sentOpen := x.sentOpen && x.bay == bay }

/-- The move slots of STATE, with the paths they command. -/
def State.takeSlots (s : State) (slots : List MoveSlot) : State :=
  let s := { s with mkt := { s.mkt with moves := vgen fun k => slots.getD k.val {} } }
  s.forAll 8 fun k s =>
    let m := s.mkt.moves[k]
    match fin? 64 m.stall with
    | some n =>
      if m.phase = .closing then s.setStall n fun x => { x with matrix := m.dst.bind (fin? 12) }
      else if m.phase = .opening then s.setStall n fun x => { x with matrix := none } else s
    | none => s

/-- Every item of a STATE message. -/
def State.takeState (s : State) (msg : StateMsg) : State :=
  let s := s.adoptPolicy msg.policy msg.theta
  let s := msg.stalls.foldl (fun s i => match fin? 64 i.stall with | some n => s.setStall n (stateStall i) | none => s) s
  let s := s.takeSlots msg.slots
  let s := { s with saf := { s.saf with stops := vgen fun b => msg.safeStops.getD b.val {} } }
  s.setPartner fun p => { p with auxDuty := (List.range 24).map fun n => msg.auxDuty.getD n 0 }

/-- SELJO_STATE (R347 step 3). -/
def doSeljoState (t : Nat) (head : SeljoHead) (msg : StateMsg) : State → State :=
  seljoMsg t 5 head fun s =>
    if s.pair.role != .standby && s.pair.role != .syncing then s
    else ((s.takeState msg).setSeljo fun q => { q with stateTaken := q.stateTaken || s.pair.role == .syncing }).askCapture

/-- The tiles with the state words of CAPTURE. -/
def captureTiles (words : List TileWords) (ts : List Tile) : List Tile :=
  ts.map fun t => match words.find? fun w => w.tile == t.info.tileId with | some w => { t with words := w.words } | none => t

/-- One kept pitch replayed: its window opens and ends at once (step 5 of R347). -/
def State.replayPitch (s : State) (img : Image) (p : Nat × List (Nat × Bool × Bytes)) : State :=
  ((s.shadowFrom p.1 p.2).openWindow (p.1 + s.openNs + 900) p.1 true).endPitch img [] []

/-- SELJO_CAPTURE (R347 steps 4 and 5): the module that holds ACTIVE is asked for its state; a standby loads the state of pitch s, then
replays the pitches after it. -/
def doSeljoCapture (t : Nat) (head : SeljoHead) (tiles : List TileWords) : State → State :=
  seljoMsg t 6 head fun s =>
    if s.pair.role = .active then s.setSeljo fun q => { q with capturePend := true }
    else
    match s.prof.image with
    | some img =>
      let q := s.pair.seljo
      if s.pair.role == .syncing && q.lock && q.stateTaken && !q.captured then
        let kept := q.replay.filter fun p => decide (head.time < p.1)
        let s := { s with lat := { s.lat with tiles := captureTiles tiles s.lat.tiles, pitch := head.time } }
        let s := kept.foldl (fun s p => s.replayPitch img p) s
        s.setSeljo fun q => { q with captured := true, agreePitch := 0, agreeTick := 0, replay := [] }
      else s
    | none => s

/-! ## HEALTH, CTRL and the link's state (R338, R352, R353) -/

/-- SELJO_HEALTH (R352): the partner's check bits. -/
def doSeljoHealth (t : Nat) (head : SeljoHead) (bits : Nat) : State → State :=
  seljoMsg t 7 head fun s => (s.setPartner fun p => { p with health := bits % 2048 }).bumpIf (s.pair.partner.health != bits % 2048) 9

/-- May this module check a slot for its partner's profile handover (step 1 of R355): a standby whose slot holds the same IMAGE_UID (R354)? -/
def State.mayFollowProfile (s : State) (slot : Fin 4) (uid : Bytes) : Bool :=
  s.pair.role == .standby && slotUid s.prof.slots[slot] == uid && s.prof.check.isNone && s.prof.pend.isNone && s.prof.slots[slot].st != .empty && s.prof.slots[slot].st != .active

/-- The partner has the image of a slot PENDING and loaded (step 2 of R355): so does this module, where its own change is to the same slot
and IMAGE_UID (R354). -/
def State.partnerHolds (s : State) (slot : Fin 4) (uid : Bytes) : State :=
  let s := s.setSeljo fun q => { q with partnerLoaded := some (slot.val, uid) }
  match s.prof.pend with
  | some p =>
    if p.mode = .handover ∧ p.slot = slot ∧ p.image.header.uid = uid ∧ p.loaded.isNone then { s with prof := { s.prof with pend := some { p with loaded := some s.mt } } } else s
  | none => s

/-- SELJO_CTRL (R350, R355). -/
def doSeljoCtrl (t : Nat) (head : SeljoHead) (step : CtrlStep) : State → State :=
  seljoMsg t 8 head fun s =>
    match step with
    | .releasing => s.setSeljo fun q => { q with partnerReleasing := true }
    | .released => s
    | .profile slot uid =>
      if s.active then s.partnerHolds slot uid
      else if s.mayFollowProfile slot uid then s.startCheck .marketSup slot (some .handover) else s

/-- SELJO_LINK_UP (R338, R353): R347 starts at its first step. -/
def doSeljoLinkUp (t : Nat) : State → State :=
  whenLive t fun s =>
    if s.pair.mode != .full || s.pair.seljo.up then s
    else
      let s := (s.setSeljo fun q => { q with up := true }).bump 9
      match s.pair.role with
      | .standby => s.enterSyncing 0
      | .syncing => s.setSeljo restartSync
      | _ => s

/-- SELJO_LINK_DOWN (R338, R353). -/
def doSeljoLinkDown (t : Nat) : State → State := whenLive t fun s => s.seljoDown

/-! ## The compute window (R132) -/

/-- COMPUTE_WINDOW_OPEN (R132): the normal window of a module that runs on its own ports. A module whose latest
window has missed its deadline no longer holds ACTIVE (R333). -/
def doComputeWindowOpen (t : Nat) : State → State :=
  whenLive t fun s =>
    let s := s.judgeHold t
    let b := t - s.openNs
    if decide (s.openNs ≤ t) && s.isBoundary b && (s.active || s.pair.mode == .single) && !(s.lat.windowOpen && s.lat.pitch == b) then
      let s := if s.pair.mode = .full then s.forAll 64 fun n s => s.takeOwn n b else s
      ((s.armHold t).openWindow t b false).sendPitch b
    else s

/-! ## The compute deadline (R135, R345) -/

/-- Do more than a quarter of the stalls in RUN report HOLD in this pitch although their frames for it were handed over? -/
def State.downlinkLost (s : State) : Bool :=
  let run := (fins 64).filter fun n => (s.stallRec n).isSome && s.stalls[n].link.st == .run
  let held := run.filter fun n =>
    let x := s.stalls[n]
    x.upAt == s.lat.pitch && (match x.up with | some u => u.stat.testBit 1 | none => false) && (match x.applied with | some f => f.boundary == s.lat.pitch | none => false)
  decide (run.length < 4 * held.length)

/-- Distinct lanes of a list. -/
def lanesIn (xs : List Nat) : Nat := ((List.range 8).filter fun l => xs.contains l).length

/-- Does a corrected read of the pitch hit a word already rewritten (R144)? -/
def hardError (soft : List SoftWord) (ecc : List EccEvent) : Bool :=
  ecc.any fun e => !e.uncorrectable && soft.any fun w => w.rewritten && w.lane == e.lane && w.offset == e.offset

/-- Has the market supervisor had an uncorrectable read since the last deadline (R345)? -/
def supervisorBad (ecc : List EccEvent) : Bool := ecc.any fun e => e.uncorrectable && decide (8 ≤ e.lane)

/-- The first of causes 6 to 8 that holds at the deadline of the open window. -/
def State.deadlineCause (s : State) (ecc : List EccEvent) (miscounted : List Nat) : Option Nat :=
  if s.downlinkLost then some 6 else if 2 ≤ lanesIn miscounted then some 7
  else if hardError s.lat.soft ecc || supervisorBad ecc then some 8 else none

/-- What a module that holds ACTIVE does after handing over its frames: a release of causes 6 to 8, a planned handover (R350),
an activation boot (R456). -/
def State.afterDeadline (s : State) (cause : Option Nat) : State :=
  let s := match cause with | some c => s.releaseIfFit c | none => s
  if s.pair.role ≠ .active then s.setPair fun p => { p with handoverPend := false }
  else if s.pair.handoverPend then ((s.setPair fun p => { p with handoverPend := false }).sendCtrl .released).releaseActive 0x0A
  else if s.upd.large.st = .activating ∧ s.stagedType = 1 then s.activationBoot
  else s

/-- COMPUTE_DEADLINE (R135): the frames handed over at it refresh the hold circuit; one that comes late is a missed refresh (R333). -/
def doComputeDeadline (t : Nat) (ecc : List EccEvent) (miscounted : List Nat) : State → State :=
  whenLive t fun s =>
    let s := s.judgeHold t
    match s.prof.image with
    | some img =>
      if s.lat.windowOpen && decide (s.deadlineOf ≤ t) then
        let shadow := s.lat.shadow
        let cause := s.deadlineCause ecc miscounted
        let b := s.lat.pitch
        let s := s.endPitch img ecc miscounted
        let s := if s.active && !shadow then s.refreshPitch b else s
        if shadow then (if s.active then s.finishHandover else s)
        else if s.active then s.afterDeadline cause else s
      else s
    | none => s

/-- PROFILE_HANDOVER_RELEASE (step 3 of R355): at a compute deadline at least 1 ms after both modules have loaded the image. -/
def doProfileHandoverRelease (t : Nat) : State → State :=
  whenLive t fun s =>
    match s.prof.pend with
    | some p =>
      match p.loaded with
      | some q =>
        if p.mode == .handover && expired t (p.since + ms 100) then s.cancelPending 0x33
        else if p.mode == .handover && s.pair.mode == .full && s.active && !s.lat.windowOpen && decide (q + 1000000 ≤ t) then
          ((s.sendCtrl .releasing).releaseActive 0x0B).takeHandover p
        else s
      | none => s
    | none => s

/-! ## Meanings -/

/-- Meaning of COMPUTE_WINDOW_OPEN (R132). -/
def execComputeWindowOpen (t : Nat) (s : State) : Host.Outcome State Fault Refusal :=
  .next (doComputeWindowOpen t s)

/-- Meaning of COMPUTE_DEADLINE (R135). -/
def execComputeDeadline (t : Nat) (ecc : List EccEvent) (miscounted : List Nat) (s : State) : Host.Outcome State Fault Refusal :=
  .next (doComputeDeadline t ecc miscounted s)

/-- Meaning of SELJO_TIME (R340). -/
def execSeljoTime (t : Nat) (head : SeljoHead) (t1 t2 t3 t4 : Nat) (s : State) : Host.Outcome State Fault Refusal :=
  .next (doSeljoTime t head t1 t2 t3 t4 s)

/-- Meaning of SELJO_PITCH (R341). -/
def execSeljoPitch (t : Nat) (head : SeljoHead) (msg : PitchMsg) (s : State) : Host.Outcome State Fault Refusal :=
  .next (doSeljoPitch t head msg s)

/-- Meaning of SELJO_TICK (R341). -/
def execSeljoTick (t : Nat) (head : SeljoHead) (snap : TickSnap) (digest : Nat) (s : State) : Host.Outcome State Fault Refusal :=
  .next (doSeljoTick t head snap digest s)

/-- Meaning of SELJO_SESSION (R343). -/
def execSeljoSession (t : Nat) (head : SeljoHead) (bay : Fin 12) (session : Session) (s : State) : Host.Outcome State Fault Refusal :=
  .next (doSeljoSession t head bay session s)

/-- Meaning of SELJO_SESSION_ACK (R343). -/
def execSeljoSessionAck (t : Nat) (bay : Fin 12) (s : State) : Host.Outcome State Fault Refusal :=
  .next (doSeljoSessionAck t bay s)

/-- Meaning of SELJO_STATE (R347). -/
def execSeljoState (t : Nat) (head : SeljoHead) (msg : StateMsg) (s : State) : Host.Outcome State Fault Refusal :=
  .next (doSeljoState t head msg s)

/-- Meaning of SELJO_CAPTURE (R347). -/
def execSeljoCapture (t : Nat) (head : SeljoHead) (tiles : List TileWords) (s : State) : Host.Outcome State Fault Refusal :=
  .next (doSeljoCapture t head tiles s)

/-- Meaning of SELJO_HEALTH (R352). -/
def execSeljoHealth (t : Nat) (head : SeljoHead) (bits : Nat) (s : State) : Host.Outcome State Fault Refusal :=
  .next (doSeljoHealth t head bits s)

/-- Meaning of SELJO_CTRL (R350). -/
def execSeljoCtrl (t : Nat) (head : SeljoHead) (step : CtrlStep) (s : State) : Host.Outcome State Fault Refusal :=
  .next (doSeljoCtrl t head step s)

/-- Meaning of SELJO_LINK_UP (R338). -/
def execSeljoLinkUp (t : Nat) (s : State) : Host.Outcome State Fault Refusal :=
  .next (doSeljoLinkUp t s)

/-- Meaning of SELJO_LINK_DOWN (R353). -/
def execSeljoLinkDown (t : Nat) (s : State) : Host.Outcome State Fault Refusal :=
  .next (doSeljoLinkDown t s)

/-- Meaning of SHADOW_WINDOW_OPEN (R341). -/
def execShadowWindowOpen (t : Nat) (s : State) : Host.Outcome State Fault Refusal :=
  .next (doShadowWindowOpen t s)

/-- Meaning of PROFILE_HANDOVER_RELEASE (R355). -/
def execProfileHandoverRelease (t : Nat) (s : State) : Host.Outcome State Fault Refusal :=
  .next (doProfileHandoverRelease t s)

end Sys2Proof.Machine
end

