-- ==== Sys2Proof/Machine/Tick.lean ====
section
/-! DEFINITION. A tick start (R177): the take-overs of R22, the snapshot and its clearing, stop requests (R138, R170), REARM (R172),
shedding counts (R159), cables, cooling and AUX (R235 to R257). -/
namespace Sys2Proof.Machine

/-! ## Take-overs -/

/-- The metrology commit, the cable terms and the committed policy are taken over; MRAM writes have their shares again (R22, R206). -/
def State.tickTakeOver (s : State) : State :=
  (({ s with met := { s.met with taken := s.met.commit } }).mramTick.takeTerms).takePolicy

/-- A LIVE change reaches its tick (step 4 of R66): clearing uses the new image from here on. DESIGN CHOICE (log 105): the shadow
buffers are filled at once when the slot enters PENDING, so that S is the first tick start after it. -/
def State.tickLive (s : State) (t : Nat) : State :=
  match s.prof.pend with
  | some p => if p.mode = .live ∧ p.tickDone.isNone ∧ p.since < t then { s with prof := { s.prof with pend := some { p with tickDone := some t } } } else s
  | none => s

/-- The policy within the bounds of the image clearing uses (R64, R66, R355). -/
def State.tickClamp (s : State) : State := match s.clearingImage with | some img => s.clampTo img | none => s

/-- The items of TICK: the snapshot, and the digest of the results committed at the previous tick (R339). -/
def tickItems (q : TickSnap) (digest : Nat) : List Int :=
  [q.pImp, q.pBay, q.s, dueItem q.metStamp] ++ q.terms.map Int.ofNat ++ (q.bids.flatMap bidItems).map Int.ofNat ++ [(digest : Int)]

/-- TICK leaves at the tick start (R339). -/
def State.sendTick (s : State) (t : Nat) (q : TickSnap) : State :=
  s.sendSeljo 3 0 t (Config.seljoPayload 3 (tickItems q (match s.pair.seljo.tickDigest with | some (_, d) => d | none => 0)))

/-- A number that may be absent, as an item. -/
def optItem (x : Option Nat) : Int := match x with | some n => (n : Int) | none => -1

/-- A cell as STATE carries it. -/
def cellItems (c : CellCtl) : List Int :=
  [(cellCode c.st : Int), c.w, c.phase] ++
  (match c.ramp with | some r => [(r.w0 : Int), r.len, r.j, b2n r.rising, b2n r.fromOff] | none => [])

/-- The items of STATE (R339): committed policy and hot-spot rise, every stall, cell and move slot, each bay's safe stop, the AUX states. -/
def stateItems (s : State) : List Int :=
  (segOffsets.map fun o => Int.ofNat ((polGet s.mkt.committed o).getD 0)) ++ [s.thetaLsb] ++
  ((fins 64).flatMap fun n => let x := s.stalls[n]
    (stallCode x.st : Int) :: (x.cause : Int) :: optItem (x.bay.map fun b => b.val) :: x.cells.toList.flatMap cellItems) ++
  (s.mkt.moves.toList.flatMap fun m => [(phaseCode m.phase : Int), m.stall, optItem m.src, optItem m.dst, m.serves, optItem m.deadline, b2n m.failed]) ++
  (s.saf.stops.toList.flatMap fun q => [(ssCode q.st : Int), q.trigger, q.j, q.n, q.rampMs, q.tolPct, q.iHi0, q.iLo0, q.i0, optItem q.deadline]) ++
  (s.aux.ch.toList.map fun c => (c.duty : Int))

/-- Payload of a message as it was sent. -/
def payloadOf (msg : Bytes) : Bytes := (msg.drop 16).take (msg.length - 20)

/-- STATE leaves on change, and in full every 100 ms (R339); DESIGN CHOICE (log 120): with the full STATE go the open sessions, which a
partner in SYNCING needs (step 3 of R347). -/
def State.sendState (s : State) (t : Nat) : State :=
  let p := Config.seljoPayload 5 (stateItems s)
  let full := t % 100000000 == 0
  let s := if full || payloadOf s.pair.seljo.out[(5 : Fin 9)] != p then s.sendSeljo 5 0 t p else s
  if full then
    s.forAll 12 fun b s => match s.pairKey with | some k => if s.bays[b].session.st = .idle then s else s.sendSession b k | none => s
  else s

/-- The module that holds ACTIVE snapshots its own values, sends them to its partner, and clears on them (R177, R339). -/
def State.tickClear (s : State) (t : Nat) : State :=
  if !s.active then s
  else
    let q := s.snapshot
    ((s.sendTick t q).sendState t).clearOn t q

/-! ## Stops and REARM -/

/-- Every stop request that waits is taken: stalls by R170, bays by R312. -/
def State.tickStops (s : State) : State :=
  let bays := s.stl.bayStops
  let s := { s with stl := { s.stl with bayStops := 0 } }
  let s := s.forAll 64 fun n s => s.takeStop n
  s.forAll 12 fun b s => if bays.testBit b.val then s.requestSafeStop b else s

/-- REARM of one stall at a tick; the count is of consecutive ticks of REARM with TRIPPED set (R171, R172). -/
def rearmTick (x : Stall) : Stall :=
  let need := x.st == .idle && x.link.st == .run && x.up.isSome && (x.link.tripped || x.link.ocMask != 0)
  let stopped := x.st == .stopped && x.link.st == .run && (x.link.tripped || anyCell x .withdrawn)
  { x with rearmPend := x.rearmPend || need || stopped, rearmTicks := if need && x.link.tripped then x.rearmTicks + 1 else 0 }

/-- REARM of every stall of the image. -/
def State.tickRearm (s : State) : State := s.forAll 64 fun n s => if (s.stallRec n).isSome then s.setStall n rearmTick else s

/-! ## Shedding (R159) -/

/-- Σ |i_c| and Σ I_MAX over a bay's ACTIVE cells and the pitches of the tick: their quotient by 32 768 is f. -/
def State.loadOf (s : State) (b : Fin 12) : Nat × Nat :=
  (sumNat ((s.stallsOf b).map fun n => s.stalls[n].loadSum), sumNat ((s.stallsOf b).map fun n => s.stalls[n].loadMax))

/-- Is f below SHED_LO? -/
def State.lightLoad (s : State) (b : Fin 12) : Bool := let l := s.loadOf b; decide (0 < l.2 ∧ l.1 * 100 < s.stl.shedLo * 32768 * l.2)

/-- Is f above SHED_HI? -/
def State.heavyLoad (s : State) (b : Fin 12) : Bool := let l := s.loadOf b; decide (s.stl.shedHi * 32768 * l.2 < l.1 * 100)

/-- A tick with f above SHED_HI restores one SHED cell. -/
def State.tickRestore (s : State) (b : Fin 12) : State :=
  if s.heavyLoad b then
    match pickRestore (restoreCandidates s b) with
    | some (_, n, c) => let len := s.shedLen; (s.setCell n c (cellRise false len)).bump 3
    | none => s
  else s

/-- The count of light ticks of a bay, and its restore decision. -/
def State.tickShed (s : State) (b : Fin 12) : State :=
  if s.stl.shedEn.testBit b.val then
    let light := s.lightLoad b && !s.mkt.stepSeen.testBit b.val
    ({ s with mkt := { s.mkt with lightTicks := vupd s.mkt.lightTicks b fun k => if light then k + 1 else 0 } }).tickRestore b
  else { s with mkt := { s.mkt with lightTicks := vupd s.mkt.lightTicks b fun _ => 0 } }

/-- Shedding of every bay; the sums of the next tick start at 0. -/
def State.tickShedding (s : State) : State :=
  let s := s.forAll 12 fun b s => if (s.bayRec b).isSome then s.tickShed b else s
  let s := { s with mkt := { s.mkt with stepSeen := 0 } }
  s.forAll 64 fun n s => s.setStall n fun x => { x with loadSum := 0, loadMax := 0 }

/-! ## The tick -/

/-- The bays' part of a tick: bids that change direction, sessions whose current has fallen (R226, R220). -/
def State.tickBids (s : State) : State := s.forAll 12 fun b s => if s.active then s.turnBid b else s

/-- Sessions that have ramped down, by the commit taken over (R220). -/
def State.tickRampDown (s : State) : State := s.forAll 12 fun b s => if s.active then s.rampedDown b else s

/-- TICK_START (R177). -/
def doTickStart (t : Nat) (rd : TickReadings) : State → State :=
  whenLive t fun s =>
    if t % 1000000 = 0 then
      let s := (s.judgeHold t).armHold t
      let s := (((s.tickTakeOver.tickLive t).tickClamp).tickBids).tickClear t
      let s := s.tickStops.tickRearm.tickShedding.tickRampDown
      ((s.coolTick t rd).auxTick t rd.v24).judgeBusLoad.clearBusLoad
    else s

/-! ## The commit of a tick (R178) -/

/-- The timeouts of the sessions that expire at `t` or before, ahead of a clearing commit of the same stamp (R222). -/
def State.sessTimeouts (s : State) (t : Nat) : State :=
  s.forAll 12 fun b s => if s.active && (s.bayRec b).isSome then s.sessTimeout (t + 1) b else s

/-- CLEARING_COMMIT (R178): at T + 250 µs the results of tick T are committed; a held cable check may set its target.
The commit refreshes the hold circuit; one that comes late is a missed refresh (R333). -/
def doClearingCommit (t : Nat) : State → State :=
  whenLive t fun s =>
    let s := s.judgeHold t
    match s.mkt.result with
    | some r =>
      if r.at_ + 250000 ≤ t then
        let s := if s.active then s.refreshTick r.at_ else s
        (((s.sessTimeouts t).commitTick r).forAll 12 fun b s => if s.active then s.tryCableTarget b else s).retake
      else s
    | none => s

/-! ## Meanings -/

/-- Meaning of TICK_START (R177). -/
def execTickStart (t : Nat) (rd : TickReadings) (s : State) : Host.Outcome State Fault Refusal :=
  .next (doTickStart t rd s)

/-- Meaning of CLEARING_COMMIT (R178). -/
def execClearingCommit (t : Nat) (s : State) : Host.Outcome State Fault Refusal :=
  .next (doClearingCommit t s)

end Sys2Proof.Machine
end

