-- ==== Sys2Proof/Machine/Flags.lean ====
section
/-! DEFINITION. The status and flag words that other chapters have not written: SYS.ID and the lock (R4, R407), SYS.ASSUME
(R487), LAT (R145), STL (R111, R176) and HOST (R407). -/
namespace Sys2Proof.Machine

/-! ## Codes of the state machines -/

/-- STL.STAT.STATE (R111). -/
def linkCode : LinkState → Nat
  | .off => 0 | .align => 1 | .train => 2 | .run => 3 | .sleep => 4 | .fault => 5

/-- SYS.LOCK_STAT.STATE (R407). -/
def lockCode : LockSt → Nat
  | .locked => 0 | .unlocked => 1 | .sealed => 2

/-! ## SYS -/

/-- SYS.ID (R4). -/
def sysIdWord (s : State) : Nat := 0x4D64 * 2 ^ 16 + b2n s.fuses.mb * 2 ^ 8 + s.fuses.step

/-- SYS.LOCK_STAT (R407). -/
def lockStatWord (s : State) : Nat :=
  lockCode s.lock.st + b2n s.lock.lockout * 4 + (if s.lock.st = .unlocked then masterCode s.lock.owner else 0) * 2 ^ 16 + s.lock.fails * 2 ^ 24

/-- SYS.LOCK_REM: seconds of lockout remaining, counted up to whole ones. -/
def lockRemWord (s : State) : Nat := (s.lock.remaining s.mt + 999999999) / 1000000000

/-- SYS.ASSUME (R487). -/
def assumeWord (a : Assume) : Nat :=
  b2n a.clock + b2n a.supply * 2 + b2n a.interlock * 4 + b2n a.busLoad * 8 + b2n a.hostRate * 16 +
  b2n a.clockS * 2 ^ 16 + b2n a.supplyS * 2 ^ 17 + b2n a.interlockS * 2 ^ 18 + b2n a.busLoadS * 2 ^ 19 + b2n a.hostRateS * 2 ^ 20

/-- SYS.ASSUME_CNT (R487). -/
def assumeCntWord (a : Assume) : Nat := a.cntBusLoad + a.cntHostRate * 2 ^ 16

/-! ## LAT (R145) -/

/-- LAT.STAT. -/
def latStatWord (l : Lattice) : Nat := l.ovrLast + l.swapPend * 2 ^ 8 + l.swapCount * 2 ^ 16

/-- LAT.WIN: 0 while no profile is active. -/
def latWinWord (s : State) : Nat :=
  match s.prof.image with | some i => s.openNs + windowCycles i.header * 2 ^ 16 | none => 0

/-- LAT.LANEl_CYC. -/
def laneCycWord (s : State) (l : Fin 8) : Nat :=
  (match s.prof.image with | some i => laneCycles i l.val | none => 0) + s.lat.lanes[l].peak * 2 ^ 16

/-- LAT.LANEl_ERR. -/
def laneErrWord (c : LaneCnt) : Nat := c.ded + c.sat * 2 ^ 8 + c.ovr * 2 ^ 16

/-- LAT.QTRq: COPYING holds in the idle interval in which a coefficient set is copied (R141). -/
def quarterWord (l : Lattice) (q : Quarter) : Nat := b2n l.copying + b2n q.cycFault * 2 + q.ted * 2 ^ 8 + q.hard * 2 ^ 16 + q.stopReq * 2 ^ 24

/-- LAT.FIRST_OVR. -/
def firstOvrWord (f : FirstOvr) : Nat := f.tile + f.cause * 2 ^ 11 + f.lane * 2 ^ 13 + b2n f.valid * 2 ^ 31

/-- LAT.TOVR of a tile. -/
def tovrWord (l : Lattice) (t : Nat) : Nat := match tableGet l.tovr t with | some o => o.consec + o.total * 2 ^ 16 | none => 0

/-! ## STL (R111, R176) -/

/-- STL.STAT. -/
def stlStatWord (l : Link) : Nat :=
  linkCode l.st + l.miss * 2 ^ 6 + b2n l.tripped * 2 ^ 8 + b2n l.masterPort * 2 ^ 9 + b2n l.otherPortUp * 2 ^ 10 + b2n l.conflict * 2 ^ 11 +
  l.ocMask * 2 ^ 16 + l.faultCode * 2 ^ 24

/-- STL.CAPS. -/
def stlCapsWord (l : Link) : Nat := b2n l.dual + l.portNo * 2 + l.tLoad * 2 ^ 8 + l.cellFitted * 2 ^ 16 + l.hwVer * 2 ^ 24

/-- STL.CSTAT. -/
def cstatWord (s : State) (x : Stall) : Nat :=
  stallCode x.st + (match x.bay with | some b => b.val | none => 15) * 2 ^ 4 + min 255 x.coastCnt * 2 ^ 8 + b2n x.coasting * 2 ^ 16 +
  b2n x.scale * 2 ^ 17 + b2n x.otLatch * 2 ^ 18 + restarts s x * 2 ^ 24 + x.cause * 2 ^ 28

/-- STL.CELLS. -/
def cellsWord (x : Stall) : Nat := sumNat ((fins 8).map fun c => cellCode x.cells[c].st * 2 ^ (4 * c.val))

/-- STL.FROZEN. -/
def frozenWord (x : Stall) : Nat := sumNat ((fins 10).map fun c => b2n x.runs[c].frozen * 2 ^ c.val)

/-- STL.CAP_STAT. -/
def capStatWord (s : State) : Nat :=
  b2n s.stl.frozen + b2n s.stl.armed * 2 + s.capEnabled * 2 ^ 8 + s.stl.trigSrc * 2 ^ 16 + s.stl.trigStall * 2 ^ 24

/-! ## HOST (R400, R407) -/

/-- HOST.VIOL. -/
def violWord (v : Viol) : Nat :=
  v.detail * 2 ^ 8 + v.status * 2 ^ 16 + b2n v.write * 2 ^ 25 + v.world * 2 ^ 26 + v.master * 2 ^ 28 + b2n v.valid * 2 ^ 31

/-- HOST.UDP_CNT. -/
def udpCntWord (h : HostBlock) : Nat := h.udpDuplicate + h.udpForeign * 2 ^ 8 + h.udpRequests * 2 ^ 16

/-- HOST.SPI_CNT. -/
def spiCntWord (h : HostBlock) : Nat := h.spiBadCrc + h.spiDropped * 2 ^ 8 + h.spiRequests * 2 ^ 16

/-- The SPI status byte (R400). -/
def spiStatus (h : HostBlock) : Byte :=
  byte (5 * 2 ^ 5 + b2n h.spiDrop * 8 + b2n (h.spiReply.isSome && h.spiErr) * 4 + b2n h.spiQueue.isSome * 2 + b2n h.spiReply.isSome)

end Sys2Proof.Machine
end

