-- ==== Sys2Proof/Machine/SysLock.lean ====
section
/-! DEFINITION. The SYS unlock (R405, R406): its response, its end, its lockout, and the registers of SYS it guards. -/
namespace Sys2Proof.Machine

/-- The SYS lock changed. -/
def State.setLock (s : State) (f : Unlock → Unlock) : State := { s with lock := f s.lock }

/-- K_CFG: a held key the master may use for the configuration unlock (R405, R437). -/
def State.cfgKey (s : State) (m : Master) : Option Key := s.anyKey m 6

/-- The response a master must write: the first 16 bytes of the HMAC over NONCE, DEVICE_ID and M (R405). -/
def sysResponse (s : State) (m : Master) (k : Key) : Bytes :=
  (hmac256 k.material (s.lock.nonce ++ deviceIdBytes s ++ [byte (masterCode m)])).take 16

/-- Does SYS.RESP answer the nonce? Without the key there is no right response. -/
def sysResponseOk (s : State) (m : Master) : Bool :=
  match s.cfgKey m with | some k => s.lock.resp == sysResponse s m k | none => false

/-- An UNLOCK that is checked, with its answer (R405, R406): a wrong response is counted and answered DENIED. -/
def State.sysTry (s : State) (m : Master) : State × Answer :=
  let ok := sysResponseOk s m
  let s := s.noteUse m 6
  if ok then ((s.setLock fun u => u.pass s.mt m).bumpIf (s.lock.st != .unlocked || s.lock.owner != m || s.lock.fails != 0) 0, okAnswer)
  else ((s.setLock fun u => u.fail s.mt).bump 0, deny .none)

/-- The UNLOCK of SYS.LOCK_CTRL with its answer; a new nonce follows every write. DEDUCED (log 138): where the vault refuses the master every
K_CFG it holds, the UNLOCK is answered as R437 says and no response is checked. -/
def State.sysUnlock (s : State) (m : Master) : State × Answer :=
  match s.lock.locked s.mt with
  | some a => (s.newSysNonce, a)
  | none => if s.useRefused m 6 then (s.newSysNonce, deny .access) else let r := s.sysTry m; (r.1.newSysNonce, r.2)

/-- The network values written under the unlock take effect (R406). -/
def HostBlock.takeStaged (h : HostBlock) : HostBlock :=
  { h with netIp := taken h.stagedIp h.netIp, netMask := taken h.stagedMask h.netMask, netGw := taken h.stagedGw h.netGw,
           allow := vmap (fun i a => taken h.stagedAllow[i] a) h.allow,
           stagedIp := none, stagedMask := none, stagedGw := none, stagedAllow := Vector.replicate 4 none }

/-- The unlock ends: SEALED (R405). -/
def State.sysLockAgain (s : State) : State :=
  ({ s with lock := { s.lock with st := .sealed }, host := s.host.takeStaged }).bump 0

/-- SEAL: in another state than UNLOCKED it has nothing to end. -/
def State.sysSeal (s : State) : State := if s.lock.st = .unlocked then s.sysLockAgain else s

/-- Address of SYS.LOCK_CTRL. -/
def lockCtrl : Nat := 0x40

/-- SYS_UNLOCK (R405). -/
def doSysUnlock (t : Nat) (m : Master) : State → State :=
  whenLive t fun s =>
    match foreign s m with
    | some a => s.answered m true lockCtrl a
    | none => let r := s.sysUnlock m; r.1.answered m true lockCtrl r.2

/-- SYS_SEAL (R405). -/
def doSysSeal (t : Nat) (m : Master) : State → State :=
  whenLive t fun s => s.command m lockCtrl (foreign s m) fun s => s.sysSeal

/-- SYS_UNLOCK_EXPIRY (R405): 30 minutes have passed. -/
def doSysUnlockExpiry (t : Nat) : State → State :=
  whenLive t fun s => if s.lock.st == .unlocked && expired t s.lock.deadline then s.sysLockAgain else s

/-- SYS_LOCKOUT_END (R406). -/
def doSysLockoutEnd (t : Nat) : State → State :=
  whenLive t fun s =>
    if s.lock.lockout && s.lock.remaining t == 0 then (s.setLock fun u => { u with lockout := false, remNs := 0 }).bump 0 else s

/-! ## SYS registers (R4, R67, R407, R487) -/

/-- A read of SYS at an offset. -/
def sysRead (s : State) (off : Nat) : Option Nat :=
  match off with
  | 0x00 => some (sysIdWord s)
  | 0x40 => some 0
  | 0x44 => some (lockStatWord s)
  | 0x70 => some (lockRemWord s)
  | 0x80 => some (assumeWord s.assume)
  | 0x84 => some (assumeCntWord s.assume)
  | _ =>
    if off % 4 ≠ 0 then none
    else if 0x50 ≤ off ∧ off < 0x60 then some (wordAt s.lock.nonce ((off - 0x50) / 4))
    else if 0x60 ≤ off ∧ off < 0x70 then some 0
    else profRead s off

/-- The conditions after a write of SYS.ASSUME: a 1 clears a sticky bit, five of them clear the counts (R487). -/
def assumeCleared (a : Assume) (v : Nat) : Assume :=
  let all := bits v 16 5 == 31
  { a with clockS := a.clockS && !v.testBit 16, supplyS := a.supplyS && !v.testBit 17, interlockS := a.interlockS && !v.testBit 18,
           busLoadS := a.busLoadS && !v.testBit 19, hostRateS := a.hostRateS && !v.testBit 20,
           cntHostRate := if all then 0 else a.cntHostRate, cntBusLoad := if all then 0 else a.cntBusLoad }

/-- A write of SYS.LOCK_CTRL with its answer (R518). -/
def State.lockCtrlWrite (s : State) (m : Master) (v : Nat) : State × Answer :=
  if severalBits v 3 then (s, deny .range)
  else if v.testBit 0 then s.sysUnlock m
  else if v.testBit 1 then (s.sysSeal, okAnswer)
  else (s, okAnswer)

/-- A write of SYS at an offset, but for SYS.PROF_CTRL and SYS.LOCK_CTRL. -/
def sysWrite (s : State) (m : Master) (off v : Nat) : Option RegEffect :=
  match off with
  | 0x14 => some (none, fun s => if v.testBit 11 then ({ s with prof := { s.prof with clamped := false } }).bumpIf s.prof.clamped 0 else s)
  | 0x1C => some (sysGuard s m, fun s => { s with prof := { s.prof with bootSrc := bits v 0 1, bootSlot := bits v 1 2 } })
  | 0x80 => some (none, fun s => ({ s with assume := assumeCleared s.assume v }).bumpIf (assumeWord (assumeCleared s.assume v) != assumeWord s.assume) 0)
  | _ =>
    if off % 4 = 0 ∧ 0x60 ≤ off ∧ off < 0x70 then some (none, fun s => s.setLock fun u => { u with resp := putWord u.resp ((off - 0x60) / 4) (word v) })
    else (sysRead s off).map fun _ => roWord

/-! ## Meanings -/

/-- Meaning of SYS_UNLOCK (R405). -/
def execSysUnlock (t : Nat) (m : Master) (s : State) : Host.Outcome State Fault Refusal :=
  .next (doSysUnlock t m s)

/-- Meaning of SYS_SEAL (R405). -/
def execSysSeal (t : Nat) (m : Master) (s : State) : Host.Outcome State Fault Refusal :=
  .next (doSysSeal t m s)

/-- Meaning of SYS_UNLOCK_EXPIRY (R405). -/
def execSysUnlockExpiry (t : Nat) (s : State) : Host.Outcome State Fault Refusal :=
  .next (doSysUnlockExpiry t s)

/-- Meaning of SYS_LOCKOUT_END (R406). -/
def execSysLockoutEnd (t : Nat) (s : State) : Host.Outcome State Fault Refusal :=
  .next (doSysLockoutEnd t s)

end Sys2Proof.Machine
end

