-- ==== Sys2Proof/Machine/RegRead.lean ====
section
/-! DEFINITION. Reading the address map (R384 to R388): the value of every mapped word, and the access of a master with the
latches and statuses of its rule. -/
namespace Sys2Proof.Machine

/-! ## LAT, STL and HOST registers -/

/-- A read of LAT at an offset (R145). -/
def latRead (s : State) (off : Nat) : Option Nat :=
  match off with
  | 0x00 => some 0
  | 0x04 => some (latStatWord s.lat)
  | 0x08 => some (latWinWord s)
  | 0x60 => some (firstOvrWord s.lat.firstOvr)
  | 0x64 => some (s.lat.firstOvr.time % 2 ^ 32)
  | 0x68 => some (s.lat.firstOvr.time / 2 ^ 32 % 2 ^ 32)
  | 0x70 => some s.lat.memPage.val
  | _ =>
    if off % 4 ≠ 0 then none
    else if 0x10 ≤ off ∧ off < 0x30 then some (laneCycWord s (finMod 8 ((off - 0x10) / 4)))
    else if 0x30 ≤ off ∧ off < 0x50 then some (laneErrWord s.lat.lanes[(finMod 8 ((off - 0x30) / 4) : Fin 8)])
    else if 0x50 ≤ off ∧ off < 0x60 then some (quarterWord s.lat s.lat.quarters[(finMod 4 ((off - 0x50) / 4) : Fin 4)])
    else if 0x1000 ≤ off ∧ off < 0x2000 then some (tovrWord s.lat ((off - 0x1000) / 4))
    else none

/-- A read of a stall's window at an offset (R111, R176). -/
def stlRead (s : State) (n : Fin 64) (off : Nat) : Option Nat :=
  let x := s.stalls[n]
  let l := x.link
  match off with
  | 0x00 => some (b2n l.sleepReq + b2n l.capEn * 2)
  | 0x04 => some (stlStatWord l)
  | 0x08 => some (l.delayNs % 2 ^ 16 + l.turnNs * 2 ^ 16)
  | 0x0C => some (stlCapsWord l)
  | 0x10 => some (l.errTime + l.errLate * 2 ^ 8 + l.errCrc * 2 ^ 16)
  | 0x14 => some (l.evtDown + l.evtTrip * 2 ^ 8 + l.evtHold * 2 ^ 16)
  | 0x20 => some 0
  | 0x24 => some (cstatWord s x)
  | 0x28 => some (cellsWord x)
  | 0x2C => some (x.cntLost + x.cntFrozen * 2 ^ 16 + x.cntCoastEnd * 2 ^ 24)
  | 0x30 => some (frozenWord x)
  | 0x34 => some (x.stopsOt + x.stopsOc * 2 ^ 8 + x.stopsTotal * 2 ^ 16)
  | _ => none

/-- A read of the common STL registers at an offset (R111, R176). -/
def stlCommonRead (s : State) (off : Nat) : Option Nat :=
  let c := s.stl
  match off with
  | 0x000 => some 0
  | 0x004 => some (capStatWord s)
  | 0x100 => some (c.freezeN + c.coastN * 2 ^ 16)
  | 0x104 => some (c.iTh + c.vTh * 2 ^ 16)
  | 0x108 => some (c.shedLo + c.shedHi * 2 ^ 8 + c.shedHold * 2 ^ 16 + c.shedRamp * 2 ^ 24)
  | 0x10C => some c.shedEn
  | 0x110 => some (c.restMs + c.restartMax * 2 ^ 16 + c.restartWin * 2 ^ 20)
  | 0x114 => some (c.trip + c.hyst * 2 ^ 8 + c.coolS * 2 ^ 16)
  | 0x118 => some (c.lsLatest + c.lsSticky * 2 ^ 12)
  | _ => none

/-- A read of HOST at an offset (R407). A network word written under the unlock reads as written. -/
def hostRead (s : State) (off : Nat) : Option Nat :=
  let h := s.host
  match off with
  | 0x40 => some (violWord h.viol)
  | 0x44 => some h.viol.addr
  | 0x48 => some (h.viol.time % 2 ^ 32)
  | 0x4C => some (h.viol.time / 2 ^ 32 % 2 ^ 32)
  | 0x50 => some h.violCnt
  | 0x60 => some 0
  | 0x64 => some (udpCntWord h)
  | 0x68 => some (spiCntWord h)
  | 0x80 => some (taken h.stagedIp h.netIp)
  | 0x84 => some (taken h.stagedMask h.netMask)
  | 0x88 => some (taken h.stagedGw h.netGw)
  | _ =>
    if off % 4 ≠ 0 then none
    else if off < 0x40 then some h.sum[(finMod 16 (off / 4) : Fin 16)]
    else if 0x90 ≤ off ∧ off < 0xA0 then
      let i : Fin 4 := finMod 4 ((off - 0x90) / 4)
      some (taken h.stagedAllow[i] h.allow[i])
    else none

/-! ## Windows -/

/-- A word of the frozen capture buffer in linear order (R388): 0 after the newest record. Records are whole words long. -/
def capWord : List CapRec → Nat → Nat
  | [], _ => 0
  | r :: rs, off => if off < (capRecBytes r).length then le (capRecBytes r) off 4 else capWord rs (off - (capRecBytes r).length)

/-- A word of a partition's window: 0 at and above FILL (R465). -/
def ldgWindowWord (P : Partition) (off : Nat) : Nat := if off < P.fill then memWord P.mem off else 0

/-- A word of the windows from 0x0100_0000 up (R384). -/
def windowRead (s : State) (a : Nat) : Option Nat :=
  if a < 0x01400000 then (slotAddr a).map fun x => memWord s.prof.slots[x.1].mem x.2
  else if a < 0x01800000 then some (ldgWindowWord s.ldg.parts[(0 : Fin 3)] (a - 0x01400000))
  else if a < 0x01A00000 then some (ldgWindowWord s.ldg.parts[(1 : Fin 3)] (a - 0x01800000))
  else if a < 0x01C00000 then some (ldgWindowWord s.ldg.parts[(2 : Fin 3)] (a - 0x01A00000))
  else if a < 0x02400000 then some (if s.stl.frozen then capWord s.stl.cap (a - 0x01C00000) else 0)
  else none

/-- MET with its tallies and its receipt window, as they stand (R295). -/
def metPeek (s : State) (off : Nat) : Option Nat :=
  if off % 4 = 0 ∧ 0x100 ≤ off ∧ off < 0x200 then
    let v := s.shownTally (finMod 32 ((off - 0x100) / 8))
    some (if off % 8 = 0 then v % 2 ^ 32 else v / 2 ^ 32)
  else if off % 4 = 0 ∧ 0x800 ≤ off ∧ off < 0x8D0 then
    some (match receiptWord s (off - 0x800) with | some v => v | none => 0)
  else metRead s off

/-- CLK, PWR and RTC with the words that latch, as they stand (R433). -/
def clkPeek (s : State) (m : Master) (off : Nat) : Option Nat :=
  match off with
  | 0x008 => some (s.mt % 2 ^ 32)
  | 0x00C => some (s.mt / 2 ^ 32 % 2 ^ 32)
  | 0x200 => some (s.calSeconds % 2 ^ 32)
  | 0x234 => some (s.rawNow % 2 ^ 32)
  | 0x238 => some (s.rawNow / 2 ^ 32)
  | _ => clkRead s m off

/-! ## The map -/

/-- The value of a word of the block ranges below 0x0050_0000 (R384). -/
def lowPeek (s : State) (m : Master) (a : Nat) : Option Nat :=
  if a < 0x00010000 then sysRead s a
  else if a < 0x00020000 then clkPeek s m (a - 0x00010000)
  else if a < 0x00100000 then none
  else if a < 0x00102000 then latRead s (a - 0x00100000)
  else if a < 0x00140000 then none
  else if a < 0x00180000 then (if a % 4 = 0 then some (tileWord s s.lat.memPage.val (a - 0x00140000)) else none)
  else if a < 0x00200000 then none
  else if a < 0x00240000 then stlRead s (finMod 64 ((a - 0x00200000) / 0x1000)) (a % 0x1000)
  else if a < 0x00241000 then stlCommonRead s (a - 0x00240000)
  else if a < 0x00300000 then none
  else if a < 0x0030C000 then bayRead s (finMod 12 ((a - 0x00300000) / 0x1000)) (a % 0x1000)
  else if a < 0x00400000 then none
  else if a < 0x00403000 then mktRead s (a - 0x00400000)
  else none

/-- The value of a word of the block ranges from 0x0050_0000 up (R384). -/
def highPeek (s : State) (a : Nat) : Option Nat :=
  if a < 0x00508000 then thmRead s (a - 0x00500000)
  else if a < 0x00509000 then auxRead s (a - 0x00508000)
  else if a < 0x00600000 then none
  else if a < 0x00602000 then metPeek s (a - 0x00600000)
  else if a < 0x00700000 then none
  else if a < 0x00701000 then safRead s (a - 0x00700000)
  else if a < 0x00800000 then none
  else if a < 0x00801000 then pairRead s (a - 0x00800000)
  else if a < 0x00900000 then none
  else if a < 0x00904000 then sbusRead s (a - 0x00900000)
  else if a < 0x00A00000 then none
  else if a < 0x00A01000 then hostRead s (a - 0x00A00000)
  else if a < 0x00B00000 then none
  else if a < 0x00B10000 then keyRead s (a - 0x00B00000)
  else if a < 0x00C00000 then keyWindow s a
  else if a < 0x00C10000 then updRead s (a - 0x00C00000)
  else if a < 0x00D00000 then chunkWindow s a
  else if a < 0x00E00000 then ldgRead s (a - 0x00D00000)
  else none

/-- The word at an address of the application map as it stands, nothing latched; none where the address is unmapped (R385). -/
def mapPeek (s : State) (m : Master) (a : Nat) : Option Nat :=
  if a % 4 ≠ 0 then none
  else if a < 0x00500000 then lowPeek s m a
  else if a < 0x01000000 then highPeek s a
  else windowRead s a

/-- Does R384 cover the address with a private range of another world? -/
def privateAddr (a : Nat) : Bool := decide (0x04000000 ≤ a ∧ a < 0x06000000)

/-! ## The access of a master -/

/-- A mapped word read by a master of the map's world, with the status of its rule and the latches it sets (R285, R286, R295,
R377, R388, R427, R433). -/
def State.readMapped (s : State) (m : Master) (a v : Nat) : (Nat × Answer) × State :=
  match a with
  | 0x00010008 => let r := s.readTime m false; ((r.1, r.2.1), r.2.2)
  | 0x0001000C => let r := s.readTime m true; ((r.1, r.2.1), r.2.2)
  | 0x00010200 => let r := s.readCalendar m; ((r.1, okAnswer), r.2)
  | 0x00010234 => let r := s.readRaw m false; ((r.1, okAnswer), r.2)
  | 0x00010238 => let r := s.readRaw m true; ((r.1, okAnswer), r.2)
  | _ =>
    if 0x00600100 ≤ a ∧ a < 0x00600200 then
      let k : Fin 32 := finMod 32 ((a - 0x00600100) / 8)
      if a % 8 = 0 then (let r := s.readTallyLow m k; ((r.1, okAnswer), r.2)) else (s.readTallyHigh m k, s)
    else if 0x00600800 ≤ a ∧ a < 0x006008D0 then ((v, if (receiptWord s (a - 0x00600800)).isSome then okAnswer else ⟨.stale, .none⟩), s)
    else if 0x00900000 ≤ a ∧ a < 0x00904000 then ((v, if sbusStale s (a - 0x00900000) then ⟨.stale, .none⟩ else okAnswer), s)
    else if 0x01C00000 ≤ a ∧ a < 0x02400000 then ((v, if s.stl.frozen then okAnswer else ⟨.busy, .state⟩), s)
    else ((v, okAnswer), s)

/-- One word read by a master: its value, its answer and the state after (R385, R386). The partition's core reads its own memory
in its private range (R259); no master belongs to the secure world. -/
def State.readWord (s : State) (m : Master) (a : Nat) : (Nat × Answer) × State :=
  if privateAddr a then
    ((if a % 4 ≠ 0 then (0, ⟨.unmapped, .none⟩) else if worldOf m = addrWorld a then (memWord s.met.core (a - 0x04000000), okAnswer) else (0, deny .access)), s)
  else
    match mapPeek s m a with
    | none => ((0, ⟨.unmapped, .none⟩), s)
    | some v =>
      match foreign s m with
      | some r => ((0, r), s)
      | none => s.readMapped m a v

end Sys2Proof.Machine
end

