-- ==== Sys2Proof/Machine/RegWrite.lean ====
section
/-! DEFINITION. Writing the address map (R7 to R9, R384 to R386, R518): the effect of a word on every register, and the
register writes that are commands of their own. -/
namespace Sys2Proof.Machine

/-! ## LAT (R137, R145) -/

/-- The effect of CLR_CNT of LAT.CTRL: counters and tile overrun table. SWAP_COUNT counts since boot. -/
def State.latClear (s : State) : State :=
  { s with lat := { s.lat with lanes := Vector.replicate 8 {}, tovr := [],
                               quarters := vmap (fun _ q => { q with stopReq := 0, hard := 0, ted := 0 }) s.lat.quarters } }

/-- The effect of writing 1 to LAT.FIRST_OVR.VALID. -/
def State.firstOvrRelease (s : State) : State :=
  ({ s with lat := { s.lat with firstOvr := { s.lat.firstOvr with valid := false } } }).bumpIf s.lat.firstOvr.valid 2

/-- The effect of writing 1 to CYC_FAULT of a quarter. -/
def State.cycClear (s : State) (q : Fin 4) : State :=
  ({ s with lat := { s.lat with quarters := vupd s.lat.quarters q fun x => { x with cycFault := false } } }).bumpIf s.lat.quarters[q].cycFault 2

/-- A write of LAT at an offset. -/
def latWrite (s : State) (off v : Nat) : Option RegEffect :=
  match off with
  | 0x00 => some (none, fun s => if v.testBit 0 then s.latClear else s)
  | 0x60 => some (none, fun s => if v.testBit 31 then s.firstOvrRelease else s)
  | 0x70 => some (none, fun s => { s with lat := { s.lat with memPage := finMod 8 (bits v 0 3) } })
  | _ =>
    if off % 4 = 0 ∧ 0x50 ≤ off ∧ off < 0x60 then some (none, fun s => if v.testBit 1 then s.cycClear (finMod 4 ((off - 0x50) / 4)) else s)
    else (latRead s off).map fun _ => roWord

/-! ## STL (R111, R176) -/

/-- A write of STL.CTRL: a 33rd CAP_EN discards the write (R108). -/
def stlCtrl (s : State) (n : Fin 64) (v : Nat) : RegEffect :=
  (capRefusal s n (v.testBit 1), fun s =>
    let s := (s.writeSleep n (v.testBit 0)).writeCapEn n (v.testBit 1)
    let s := if v.testBit 2 then s.retrain n else s
    if v.testBit 3 then s.stlClear n else s)

/-- A write of a stall's window at an offset. -/
def stlWrite (s : State) (n : Fin 64) (off v : Nat) : Option RegEffect :=
  match off with
  | 0x00 => some (stlCtrl s n v)
  | 0x20 => some (none, fun s => let s := if v.testBit 0 then s.releaseStall n else s; if v.testBit 1 then s.clearFb n else s)
  | _ => (stlRead s n off).map fun _ => roWord

/-- The common STL registers changed. -/
def State.setStl (s : State) (f : StlCommon → StlCommon) : State := { s with stl := f s.stl }

/-- A write of STL.CAP_CTRL. -/
def capCtrl (v : Nat) : RegEffect :=
  (refuseIf (severalBits v 3) (deny .range), fun s =>
    if v.testBit 0 then s.capArm else if v.testBit 1 then s.capFreeze 1 0xFF else s)

/-- A write of the common STL registers at an offset, each field within its stated range (R176). -/
def stlCommonWrite (s : State) (off v : Nat) : Option RegEffect :=
  match off with
  | 0x000 => some (capCtrl v)
  | 0x100 =>
    let c := bits v 16 5
    let f := bits v 0 6
    some (inRange (decide (1 ≤ c ∧ c ≤ 16 ∧ 4 ≤ f ∧ f ≤ 32)) fun s => s.setStl fun x => { x with coastN := c, freezeN := f })
  | 0x104 =>
    let a := bits v 16 16
    let i := bits v 0 16
    some (inRange (decide (1 ≤ a ∧ a ≤ 0x7FFF ∧ 1 ≤ i ∧ i ≤ 0x7FFF)) fun s => s.setStl fun x => { x with vTh := a, iTh := i })
  | 0x108 =>
    let r := bits v 24 8
    let h := bits v 16 8
    let hi := bits v 8 8
    let lo := bits v 0 8
    some (inRange (decide (1 ≤ r ∧ 1 ≤ h ∧ hi ≤ 100 ∧ 2 * lo ≤ hi ∧ 1 ≤ lo ∧ lo ≤ 50)) fun s =>
      s.setStl fun x => { x with shedRamp := r, shedHold := h, shedHi := hi, shedLo := lo })
  | 0x10C => some (none, fun s => s.setStl fun x => { x with shedEn := bits v 0 12 })
  | 0x110 =>
    let w := bits v 20 12
    let k := bits v 16 4
    let r := bits v 0 16
    some (inRange (decide (60 ≤ w ∧ 1 ≤ k ∧ 100 ≤ r)) fun s => s.setStl fun x => { x with restartWin := w, restartMax := k, restMs := r })
  | 0x114 =>
    let h := bits v 8 8
    let k := bits v 0 8
    some (inRange (decide (5 ≤ h ∧ h ≤ 50 ∧ 80 ≤ k ∧ k ≤ 165)) fun s => s.setStl fun x => { x with coolS := bits v 16 16, hyst := h, trip := k })
  | 0x118 => some (none, fun s => (s.setStl fun x => { x with lsSticky := clrMask 12 x.lsSticky (bits v 12 12) }).bumpIf (clrMask 12 s.stl.lsSticky (bits v 12 12) != s.stl.lsSticky) 3)
  | _ => (stlCommonRead s off).map fun _ => roWord

/-! ## HOST (R404, R407) -/

/-- The effect of CLR_CNT of HOST.CTRL. -/
def State.hostClear (s : State) : State :=
  s.setHost fun h => { h with violCnt := 0, udpRequests := 0, udpForeign := 0, udpDuplicate := 0, spiRequests := 0, spiDropped := 0, spiBadCrc := 0 }

/-- The effect of writing 1 to HOST.VIOL.VALID: the record is released. The manual's own poll (step 4) shows no count in SUM11. -/
def State.violRelease (s : State) : State := s.setHost fun h => { h with viol := { h.viol with valid := false } }

/-- A write of HOST at an offset. The network words are staged until the unlock ends (R406). -/
def hostWrite (s : State) (m : Master) (off v : Nat) : Option RegEffect :=
  match off with
  | 0x40 => some (none, fun s => if v.testBit 31 then s.violRelease else s)
  | 0x60 => some (none, fun s => if v.testBit 0 then s.hostClear else s)
  | 0x80 => some (sysGuard s m, fun s => s.setHost fun h => { h with stagedIp := some v })
  | 0x84 => some (sysGuard s m, fun s => s.setHost fun h => { h with stagedMask := some v })
  | 0x88 => some (sysGuard s m, fun s => s.setHost fun h => { h with stagedGw := some v })
  | _ =>
    if off % 4 = 0 ∧ 0x90 ≤ off ∧ off < 0xA0 then
      some (sysGuard s m, fun s => s.setHost fun h => { h with stagedAllow := vupd h.stagedAllow (finMod 4 ((off - 0x90) / 4)) fun _ => some v })
    else (hostRead s off).map fun _ => roWord

/-! ## The map -/

/-- A write of a block below 0x0050_0000 that is no command of its own answer. -/
def lowEffect (s : State) (m : Master) (a v : Nat) : Option RegEffect :=
  if a < 0x00010000 then sysWrite s m a v
  else if a < 0x00020000 then clkWrite s m (a - 0x00010000) v
  else if a < 0x00102000 then latWrite s (a - 0x00100000) v
  else if a < 0x00240000 then stlWrite s (finMod 64 ((a - 0x00200000) / 0x1000)) (a % 0x1000) v
  else if a < 0x00241000 then stlCommonWrite s (a - 0x00240000) v
  else if a < 0x0030C000 then bayWrite s (finMod 12 ((a - 0x00300000) / 0x1000)) (a % 0x1000) v
  else mktWrite s (a - 0x00400000) v

/-- The application addresses that may be named in a snapshot set (R467). -/
def mappedAddr (s : State) (a : Nat) : Bool := !privateAddr a && (mapPeek s .marketSup a).isSome

/-- A write of a block or window from 0x0050_0000 up. -/
def highEffect (s : State) (m : Master) (a v : Nat) : Option RegEffect :=
  if a < 0x00508000 then thmWrite s (a - 0x00500000) v
  else if a < 0x00509000 then auxWrite s (a - 0x00508000) v
  else if a < 0x00602000 then metWrite s (a - 0x00600000) v
  else if a < 0x00701000 then safWrite s (a - 0x00700000) v
  else if a < 0x00801000 then pairWrite s m (a - 0x00800000) v
  else if a < 0x00904000 then sbusWrite s m (a - 0x00900000) v
  else if a < 0x00A01000 then hostWrite s m (a - 0x00A00000) v
  else if a < 0x00B10000 then keyWrite s (a - 0x00B00000) v
  else if a < 0x00C00000 then keyWindowWrite a v
  else if a < 0x00C10000 then updWrite s m (a - 0x00C00000) v
  else if a < 0x00D00000 then chunkWindowWrite a v
  else if a < 0x01000000 then ldgWrite (mappedAddr s) s m (a - 0x00D00000) v
  else (slotAddr a).map fun x => profWindowEffect s x.1 x.2 (word v)

/-- Is the word one that no master may write: tile memory, the ledger and the capture window (R386)? -/
def readOnlyWindow (a : Nat) : Bool :=
  decide ((0x00140000 ≤ a ∧ a < 0x00180000) ∨ (0x01400000 ≤ a ∧ a < 0x02400000))

/-- The words whose writable fields are held in MRAM, as ranges of addresses (R67, R176, R207, R258, R329, R356, R383, R407, R459,
R475). -/
def mramRanges : List (Nat × Nat) :=
  [ (0x1C, 0x20), (0x0001010C, 0x00010110), (0x0001021C, 0x00010220), (0x00240100, 0x00240118), (0x00402100, 0x00402200), (0x00500004, 0x00500008), (0x00500010, 0x00500040),
    (0x00500200, 0x00500220), (0x00508200, 0x00508208), (0x00700004, 0x00700008), (0x00800004, 0x00800008), (0x00900008, 0x0090000C),
    (0x00900010, 0x00900018), (0x00900040, 0x00900050), (0x00900100, 0x00900180), (0x00A00080, 0x00A0008C), (0x00A00090, 0x00A000A0),
    (0x00C00040, 0x00C00048), (0x00C00054, 0x00C00058), (0x00D00004, 0x00D00008), (0x00D00080, 0x00D000A0), (0x00D00100, 0x00D00110),
    (0x00D01000, 0x00D01400) ]

/-- The same for the windows of bays, AUX channels, mailboxes, transmit buffers and receive slots (R232, R258, R383); of BAY.CTRL
only DISABLE is held. -/
def mramStride (s : State) (a v : Nat) : Bool :=
  if 0x00300000 ≤ a ∧ a < 0x0030C000 then
    (match a % 0x1000 with
     | 0x00 => (match fin? 12 ((a - 0x00300000) / 0x1000) with | some b => s.bays[b].disable != v.testBit 0 | none => false)
     | 0x0C => true | 0x10 => true | 0x14 => true | _ => false)
  else if 0x00508000 ≤ a ∧ a < 0x00508180 then decide (a % 16 < 8)
  else if 0x00901000 ≤ a ∧ a < 0x00901400 then decide (a % 0x80 = 0)
  else if 0x00902000 ≤ a ∧ a < 0x00902200 then decide (a % 0x80 < 8)
  else if 0x00903000 ≤ a ∧ a < 0x00904000 then decide (a % 0x80 = 0)
  else false

/-- Does a write set a field held in MRAM? Such a write waits out a power-fail warning (R421). -/
def needsMram (s : State) (a v : Nat) : Bool := (mramRanges.any fun r => decide (r.1 ≤ a ∧ a < r.2)) || mramStride s a v

/-- A word for MRAM waits out a power-fail warning (R421) and is answered BUSY where the tick has no room for it (R206, R401). -/
def mramRefusal (s : State) (a v : Nat) : Option Answer := refuseIf (needsMram s a v && (s.pwr.pfw || s.policyFull 4)) ⟨.busy, .mram⟩

/-- The answer and effect of a register's write by its RegEffect; a word held in MRAM is charged to its share (R206). -/
def State.applyEffect (s : State) (a v : Nat) (e : RegEffect) : State × Answer :=
  match firstOf e.1 (mramRefusal s a v) with
  | some r => (s, r)
  | none => (e.2 (s.when (needsMram s a v) fun s => s.chargePolicy 4), okAnswer)

/-- A mapped word written by a master of the map's world: the control registers whose commands give their own answers, then every
other word. -/
def State.writeMapped (s : State) (m : Master) (a v : Nat) : State × Answer :=
  match a with
  | 0x00000010 => s.profCtrlWrite m v
  | 0x00000040 => s.lockCtrlWrite m v
  | 0x00010100 => s.pwrCtrlWrite m v
  | 0x00700000 => s.safCtrlWrite m v
  | 0x00B00014 => s.lcWrite m (bits v 0 2)
  | 0x00C00000 => s.updCtrlWrite m v
  | 0x00C00004 => s.actWrite m (bits v 0 2)
  | _ =>
    match (if a < 0x00500000 then lowEffect s m a v else highEffect s m a v) with
    | some e => s.applyEffect a v e
    | none => (s, ⟨.unmapped, .none⟩)

/-- A word stored by the partition's core in its own memory (R259; DESIGN CHOICE, logs 25 and 130). -/
def State.storeCore (s : State) (off v : Nat) : State := { s with met := { s.met with core := memWrites s.met.core off (leBytes 4 v) } }

/-- One word written by a master, with its answer (R385, R386, R392). In the private range of the metrology world the partition's core writes
its own memory (R259). -/
def State.writeWord (s : State) (m : Master) (a v : Nat) : State × Answer :=
  if privateAddr a then (if a % 4 ≠ 0 then (s, ⟨.unmapped, .none⟩) else if worldOf m = addrWorld a then (s.storeCore (a - 0x04000000) v, okAnswer) else (s, deny .access))
  else
    match mapPeek s m a with
    | none => (s, ⟨.unmapped, .none⟩)
    | some _ =>
      match foreign s m with
      | some r => (s, r)
      | none => if readOnlyWindow a then (s, deny .access) else s.writeMapped m a v

/-! ## Commands -/

/-- REGISTER_WRITE (R7): one word written by a master. -/
def doRegisterWrite (t : Nat) (m : Master) (addr : Nat) (value : Word) : State → State :=
  whenLive t fun s => let r := s.writeWord m addr value.toNat; r.1.answered m true addr r.2

/-- VIOL_RELEASE (R404). -/
def doViolRelease (t : Nat) (m : Master) : State → State :=
  whenLive t fun s => s.command m 0x00A00040 (foreign s m) fun s => s.violRelease

/-- FIRST_OVR_RELEASE (R137). -/
def doFirstOvrRelease (t : Nat) (m : Master) : State → State :=
  whenLive t fun s => s.command m 0x00100060 (foreign s m) fun s => s.firstOvrRelease

/-- LAT_CLR_CNT (R145). -/
def doLatClrCnt (t : Nat) (m : Master) : State → State :=
  whenLive t fun s => s.command m 0x00100000 (foreign s m) fun s => s.latClear

/-- HOST_CLR_CNT (R407). -/
def doHostClrCnt (t : Nat) (m : Master) : State → State :=
  whenLive t fun s => s.command m 0x00A00060 (foreign s m) fun s => s.hostClear

/-! ## Meanings -/

/-- Meaning of REGISTER_WRITE (R7). -/
def execRegisterWrite (t : Nat) (m : Master) (addr : Nat) (value : Word) (s : State) : Host.Outcome State Fault Refusal :=
  .next (doRegisterWrite t m addr value s)

/-- Meaning of VIOL_RELEASE (R404). -/
def execViolRelease (t : Nat) (m : Master) (s : State) : Host.Outcome State Fault Refusal :=
  .next (doViolRelease t m s)

/-- Meaning of FIRST_OVR_RELEASE (R137). -/
def execFirstOvrRelease (t : Nat) (m : Master) (s : State) : Host.Outcome State Fault Refusal :=
  .next (doFirstOvrRelease t m s)

/-- Meaning of LAT_CLR_CNT (R145). -/
def execLatClrCnt (t : Nat) (m : Master) (s : State) : Host.Outcome State Fault Refusal :=
  .next (doLatClrCnt t m s)

/-- Meaning of HOST_CLR_CNT (R407). -/
def execHostClrCnt (t : Nat) (m : Master) (s : State) : Host.Outcome State Fault Refusal :=
  .next (doHostClrCnt t m s)

end Sys2Proof.Machine
end

