-- ==== Sys2Proof/Machine/HostPort.lean ====
section
/-! DEFINITION. The Tally protocol (R389 to R395) and its two ports: UDP with ARP and ICMP (R396 to R398), SPI (R399, R400),
their queues, kept replies and rates (R401, R485). -/
namespace Sys2Proof.Machine

/-! ## Frames (R389, R390) -/

/-- OP codes of R389. -/
inductive TallyOp where
  | read | write | readList | echo
  deriving DecidableEq, Repr

/-- Code of an OP. -/
def opCode : TallyOp → Nat | .read => 1 | .write => 2 | .readList => 3 | .echo => 4

/-- A reply frame (R390). -/
def replyFrame (op tag : Nat) (a : Answer) (errIndex done time : Nat) (payload : Bytes) : Bytes :=
  let b := [1, byte op] ++ leBytes 2 tag ++ [byte (statusCode a.status), byte (detailCode a.detail)] ++ leBytes 2 errIndex ++ leBytes 2 done ++
    [0, 0] ++ leBytes 8 time ++ payload
  b ++ leBytes 4 (crc32c b)

/-- The reply to a frame whose CRC fails: bytes 0 to 3 as received (R391). -/
def badCrcReply (f : Bytes) (time : Nat) : Bytes :=
  let b := slice f 0 4 ++ [7, 0, 0xFF, 0xFF, 0, 0, 0, 0] ++ leBytes 8 time
  b ++ leBytes 4 (crc32c b)

/-- The reply to a refused frame (R391): no payload, nothing executed. -/
def refusalReply (f : Bytes) (a : Answer) (time : Nat) : Bytes := replyFrame (u8 f 1 % 128 + 128) (u16 f 2) a 0xFFFF 0 time []

/-- Does the CRC of a request hold? -/
def requestCrcOk (f : Bytes) : Bool := decide (4 ≤ f.length) && u32 f (f.length - 4) == crc32c (f.take (f.length - 4))

/-- Bytes of payload a request of this OP and COUNT carries; none where COUNT is outside its range. -/
def payloadLen (op count : Nat) : Option Nat :=
  match op with
  | 1 => if 1 ≤ count ∧ count ≤ 256 then some 0 else none
  | 2 => if 1 ≤ count ∧ count ≤ 256 then some (4 * count) else none
  | 3 => if 1 ≤ count ∧ count ≤ 128 then some (4 * count) else none
  | 4 => if count ≤ 1024 then some count else none
  | _ => none

/-- The words of a payload. -/
def payloadWords (b : Bytes) : List Nat := (chunks 4 (b.length / 4) b).map leNat

/-- A request frame whose format R391 accepts. -/
def parseRequest (o : Origin) (f : Bytes) : Option Request :=
  let op := u8 f 1
  let count := u16 f 8
  let addr := u32 f 4
  match payloadLen op count with
  | none => none
  | some n =>
    let body := (f.drop 12).take n
    let addrOk := if op = 1 ∨ op = 2 then decide (addr % 4 = 0) else decide (addr = 0)
    let listOk := op != 3 || (payloadWords body).all fun a => decide (a % 4 = 0)
    if f.length = 16 + n ∧ u8 f 0 = 1 ∧ u16 f 10 = 0 ∧ addrOk ∧ listOk then
      some { origin := o, op := op, tag := u16 f 2, addr := addr, count := count, payload := body, crc := u32 f (12 + n) }
    else none

/-! ## Replies and what is kept of them (R398, R400) -/

/-- The 16-bit words of a byte string in network order, an odd last byte padded with 0. -/
def netWords (b : Bytes) : List Nat := (chunks 2 ((b.length + 1) / 2) b).map fun c => u8 c 0 * 256 + u8 c 1

/-- The UDP checksum of a datagram over IPv4, never sent as 0. PRESUMED (RFC 768, log 136): R396 says only that replies carry one. -/
def udpChecksum (srcIp dstIp srcPort dstPort : Nat) (data : Bytes) : Nat :=
  let n := beBytes 2 (data.length + 8)
  let sum := sumNat (netWords (beBytes 4 srcIp ++ beBytes 4 dstIp ++ [0, 17] ++ n ++ beBytes 2 srcPort ++ beBytes 2 dstPort ++ n ++ [0, 0] ++ data))
  let once := sum % 65536 + sum / 65536
  let twice := once % 65536 + once / 65536
  if twice = 65535 then 65535 else 65535 - twice

/-- A reply datagram on the SGMII port: from port 50721 to the source of the request (R396). -/
def tallyOut (h : HostBlock) (o : Origin) (f : Bytes) : NetOut := .tally o f (udpChecksum h.netIp o.ip 50721 o.port f)

/-- A reply leaves on the port of its request: on UDP it is sent, on SPI it waits for FETCH. -/
def State.sendReply (s : State) (o : Origin) (a : Answer) (f : Bytes) : State :=
  s.setHost fun h =>
    if o.spi then { h with spiReply := some f, spiErr := a.status != .ok } else { h with netOut := tallyOut h o f }

/-- The newest `k` entries of UDP sources, and every other entry. -/
def keepUdp : Nat → List Kept → List Kept
  | _, [] => []
  | k, x :: xs => if x.origin.spi then x :: keepUdp k xs else match k with | 0 => keepUdp 0 xs | k + 1 => x :: keepUdp k xs

/-- A reply is kept as the last one of its source: 8 UDP sources and the SPI port (R398). -/
def State.keepReply (s : State) (o : Origin) (tag crc : Nat) (f : Bytes) : State :=
  let k : Kept := { origin := o, tag := tag, crc := crc, reply := f, at_ := s.mt }
  s.setHost fun h => { h with kept := keepUdp 8 (k :: h.kept.filter fun x => x.origin != o) }

/-- The kept reply of a request sent again within 2 s: same source, TAG and CRC (R398). -/
def keptFor (s : State) (o : Origin) (tag crc : Nat) : Option Kept :=
  s.host.kept.find? fun x => x.origin == o && x.tag == tag && x.crc == crc && decide (s.mt ≤ x.at_ + secs 2)

/-- STATUS of a reply is not OK. -/
def replyAnswer (f : Bytes) : Answer := if u8 f 4 = 0 then okAnswer else ⟨.badLen, .none⟩

/-- A kept reply is sent again; UDP counts it in DUPLICATE. -/
def State.sendKept (s : State) (o : Origin) (k : Kept) : State :=
  let s := s.sendReply o (replyAnswer k.reply) k.reply
  if o.spi then s else s.setHost fun h => { h with udpDuplicate := satInc 8 h.udpDuplicate }

/-! ## Arrival of a request (R391, R397, R400, R401) -/

/-- End of the interval of R485 that holds the present market time. -/
def State.rateSpan (s : State) : Nat := roundUpTo 1000000000 s.mt

/-- The interval at `rateEnd` is judged by the limits of R401: HOST_RATE and its sticky bit, and the count of such intervals (R485, R487). -/
def State.judgeRate (s : State) : State :=
  let overs := decide (4000 < s.host.transactions ∨ 250000 < s.host.wordCount)
  let a := s.assume
  let b := { a with hostRate := overs, hostRateS := a.hostRateS || (overs && !a.rateOver), rateOver := overs,
                    cntHostRate := if overs && !a.rateOver then satInc 16 a.cntHostRate else a.cntHostRate }
  ({ s with assume := b }).bumpIf (assumeWord b != assumeWord a) 0

/-- The count moves on to the interval that holds the present market time: the one before it is judged, and HOST_RATE stands for the interval right
before the present one. -/
def State.rateMove (s : State) : State :=
  let e := s.rateSpan
  if e ≤ s.host.rateEnd then s
  else
    let q := s.judgeRate
    let gone := decide (s.host.rateEnd + 1000000000 < e)
    let a := { q.assume with hostRate := q.assume.hostRate && !gone, rateOver := false }
    (({ q with assume := a }).bumpIf (a.hostRate != q.assume.hostRate) 0).setHost fun h => { h with transactions := 0, wordCount := 0, rateEnd := e, rateShown := false }

/-- A transaction and its words count in the interval of their arrival; one stamped at the end of an interval that was judged already belongs to
it all the same (R485). -/
def State.countHost (s : State) (words : Nat) : State :=
  let s := s.rateMove.setHost fun h => { h with transactions := h.transactions + 1, wordCount := h.wordCount + words }
  if s.host.rateShown then s.judgeRate else s

/-- A request counts towards the limits of R401 at its arrival: one transaction, with its words where its format is right. -/
def State.countArrival (s : State) (f : Bytes) : State :=
  s.countHost (match parseRequest ⟨true, 0, 0⟩ f with | some r => if r.op = 4 then 0 else r.count | none => 0)

/-- Has the port room for the request? -/
def portRoom (s : State) (o : Origin) : Bool := if o.spi then s.host.spiQueue.isNone else decide (s.host.udpQueue.length < 16)

/-- A request joins its port's queue with the stamp of its arrival; on SPI it replaces a waiting reply (R393, R400). -/
def State.pushRequest (s : State) (r : Request) : State :=
  let r := { r with at_ := s.mt }
  s.setHost fun h =>
    if r.origin.spi then { h with spiQueue := some r, spiReply := none, spiErr := false } else { h with udpQueue := h.udpQueue ++ [r] }

/-- A request frame reaches a port: CRC, kept reply, format and room are judged in this order (R391, R398). -/
def State.takeRequest (s : State) (o : Origin) (f : Bytes) : State :=
  let s := s.countArrival f
  if !requestCrcOk f then
    (s.setHost fun h => if o.spi then { h with spiBadCrc := satInc 8 h.spiBadCrc } else h).sendReply o ⟨.badCrc, .none⟩ (badCrcReply f s.mt)
  else
    match keptFor s o (u16 f 2) (u32 f (f.length - 4)) with
    | some k => s.sendKept o k
    | none =>
      match parseRequest o f with
      | none =>
        let r := refusalReply f ⟨.badLen, .format⟩ s.mt
        (s.sendReply o ⟨.badLen, .format⟩ r).keepReply o (u16 f 2) (u32 f (f.length - 4)) r
      | some q => if portRoom s o then s.pushRequest q else s.sendReply o ⟨.busy, .rate⟩ (refusalReply f ⟨.busy, .rate⟩ s.mt)

/-- Is the source on the allow list (R397)? -/
def allowed (s : State) (ip : Nat) : Bool := (s.host.allow.toList.all fun a => a == 0) || s.host.allow.toList.any fun a => a != 0 && a == ip

/-- Is the datagram one the port takes up (R396)? -/
def acceptable (d : Datagram) : Bool := !d.fragment && !d.options && d.checksumOk && d.dstPort == 50721

/-- UDP_DATAGRAM (R396). -/
def doUdpDatagram (t : Nat) (d : Datagram) : State → State :=
  whenLive t fun s =>
    if !acceptable d then s
    else if !allowed s d.srcIp then s.setHost fun h => { h with udpForeign := satInc 8 h.udpForeign }
    else s.takeRequest ⟨false, d.srcIp, d.srcPort⟩ d.payload

/-- ARP_REQUEST (R396): answered for the module's own address. -/
def doArpRequest (t : Nat) (targetIp senderIp senderMac : Nat) : State → State :=
  whenLive t fun s => if targetIp = s.host.netIp then s.setHost fun h => { h with netOut := .arp h.netIp Config.portMac senderIp senderMac } else s

/-- ICMP_ECHO (R396): the data go back to the sender. -/
def doIcmpEcho (t : Nat) (srcIp : Nat) (data : Bytes) : State → State :=
  whenLive t fun s => s.setHost fun h => { h with netOut := .icmp srcIp data }

/-- The origin of SPI requests. -/
def spiOrigin : Origin := ⟨true, 0, 0⟩

/-- The status byte goes out while the command byte comes in (R399). -/
def State.spiShift (s : State) : State := s.setHost fun h => { h with spiOut := [spiStatus h] }

/-- SPI_STATUS (R399). -/
def doSpiStatus (t : Nat) : State → State := whenLive t fun s => s.spiShift

/-- SPI_REQUEST (R399, R400): discarded while a request is being executed. -/
def doSpiRequest (t : Nat) (bytes : Bytes) : State → State :=
  whenLive t fun s =>
    let s := s.spiShift
    if s.host.spiQueue.isSome then s.setHost fun h => { h with spiDrop := true, spiDropped := satInc 8 h.spiDropped }
    else s.takeRequest spiOrigin bytes

/-- SPI_FETCH (R399, R400): the length and the waiting reply; the reply goes on waiting, DROPPED is cleared. -/
def doSpiFetch (t : Nat) : State → State :=
  whenLive t fun s =>
    let s := s.spiShift
    let f := match s.host.spiReply with | some f => f | none => []
    s.setHost fun h => { h with spiOut := h.spiOut ++ leBytes 2 f.length ++ f, spiDrop := false }

/-! ## Execution (R393, R394) -/

/-- The words of a read in order: each value with its answer. -/
def State.readWords (s : State) (m : Master) : List Nat → List (Nat × Answer) × State
  | [] => ([], s)
  | a :: as =>
    let r := s.readWord m a
    let q := (r.2.answered m false a r.1.2).readWords m as
    (r.1 :: q.1, q.2)

/-- What a write has come to. -/
structure WriteRun where
  state : State
  done : Nat
  bad : Option (Nat × Answer)
  /-- The word was a reset key that was accepted: the module has restarted. -/
  reset : Bool
  deriving DecidableEq, Repr

/-- Is the word an accepted key of PWR.CTRL (R432)? -/
def resetWord (a v : Nat) (r : Answer) : Bool := a == 0x00010100 && decide (v / 65536 ≠ 0) && r == okAnswer

/-- The words of a write from an address up, stopping at the first that is not OK. -/
def writeWords (m : Master) (s : State) (a i : Nat) : List Nat → WriteRun
  | [] => { state := s, done := i, bad := none, reset := false }
  | v :: vs =>
    let r := s.writeWord m a v
    let s' := r.1.answered m true a r.2
    if r.2.status ≠ .ok then { state := s', done := i + 1, bad := some (i, r.2), reset := false }
    else if resetWord a v r.2 then { state := s', done := i + 1, bad := none, reset := true }
    else writeWords m s' (a + 4) (i + 1) vs

/-- Index and answer of the first word that is not OK. -/
def firstBad (i : Nat) : List (Nat × Answer) → Option (Nat × Answer)
  | [] => none
  | x :: xs => if x.2.status = .ok then firstBad (i + 1) xs else some (i, x.2)

/-- The request at the head of the master's port queue, if it is this one. -/
def queuedRequest (s : State) (m : Master) (op tag addr count : Nat) (payload : Bytes) : Option Request :=
  let head := match m with | .udp => s.host.udpQueue.head? | .spi => s.host.spiQueue | _ => none
  head.bind fun r => if r.op = op ∧ r.tag = tag ∧ r.addr = addr ∧ r.count = count ∧ r.payload = payload then some r else none

/-- Is it this port's turn (R393): no request waits at the other port that arrived earlier, nor at SPI one of the same market time? -/
def inTurn (h : HostBlock) (r : Request) : Bool :=
  if r.origin.spi then (match h.udpQueue.head? with | some u => decide (r.at_ ≤ u.at_) | none => true)
  else match h.spiQueue with | some u => decide (r.at_ < u.at_) | none => true

/-- The head of a port's queue is taken. -/
def State.popRequest (s : State) (m : Master) : State :=
  match m with
  | .udp => s.setHost fun h => { h with udpQueue := h.udpQueue.drop 1 }
  | .spi => s.setHost fun h => { h with spiQueue := none }
  | _ => s

/-- A request was executed: counted, answered, and its reply kept. -/
def State.finishRequest (s : State) (r : Request) (started : Nat) (bad : Option (Nat × Answer)) (done : Nat) (payload : Bytes) : State :=
  let a := match bad with | some b => b.2 | none => okAnswer
  let i := match bad with | some b => b.1 | none => 0xFFFF
  let f := replyFrame (r.op + 128) r.tag a i done started payload
  let s := s.setHost fun h => if r.origin.spi then { h with spiRequests := satInc 16 h.spiRequests } else { h with udpRequests := satInc 16 h.udpRequests }
  (s.sendReply r.origin a f).keepReply r.origin r.tag r.crc f

/-- What a transaction left: its answer and data for the master, and its reply where a request asked for it. -/
def State.finish (s : State) (q : Option Request) (started : Nat) (bad : Option (Nat × Answer)) (done : Nat) (data : List Nat) (payload : Bytes) : State :=
  let s := s.setHost fun h => { h with answer := (match bad with | some b => b.2 | none => okAnswer), data := data.map word }
  match q with | some r => s.finishRequest r started bad done payload | none => s

/-- A transaction of a master: a request that waits is taken from its queue when it is its turn (R393); one whose reply is kept is not
executed again (R398); one without a frame is checked as R391 checks frames, and counted where it is a host port's (R485). -/
def State.transaction (s : State) (m : Master) (op : TallyOp) (tag addr count : Nat) (payload : Bytes) (ok : Bool)
    (run : Option Request → State → State) : State :=
  match queuedRequest s m (opCode op) tag addr count payload with
  | some r =>
    if !inTurn s.host r then s
    else
      let s := s.popRequest m
      match keptFor s r.origin r.tag r.crc with
      | some k => s.sendKept r.origin k
      | none => run (some r) s
  | none =>
    let s := if m = .udp ∨ m = .spi then s.countHost (if op = .echo then 0 else count) else s
    if ok && (payloadLen (opCode op) count).isSome then run none s
    else s.setHost fun h => { h with answer := ⟨.badLen, .format⟩ }

/-- The addresses of a READ. -/
def readAddrs (addr count : Nat) : List Nat := (List.range count).map fun i => addr + 4 * i

/-- The effect of READ and READ_LIST: every word is executed. -/
def State.runRead (s : State) (m : Master) (addrs : List Nat) (q : Option Request) : State :=
  let r := s.readWords m addrs
  let ws := r.1.map (·.1)
  r.2.finish q s.mt (firstBad 0 r.1) addrs.length ws (ws.flatMap (leBytes 4))

/-- The effect of WRITE. A reset ends the transaction in progress (R431). -/
def State.runWrite (s : State) (m : Master) (addr : Nat) (words : List Nat) (q : Option Request) : State :=
  let r := writeWords m s addr 0 words
  if r.reset then r.state else r.state.finish q s.mt r.bad r.done [] []

/-- READ (R394). -/
def doRead (t : Nat) (m : Master) (tag addr count : Nat) : State → State :=
  whenLive t fun s => s.transaction m .read tag addr count [] (decide (addr % 4 = 0)) fun q s => s.runRead m (readAddrs addr count) q

/-- WRITE (R394). -/
def doWrite (t : Nat) (m : Master) (tag addr : Nat) (words : List Word) : State → State :=
  whenLive t fun s =>
    let ws := words.map (·.toNat)
    s.transaction m .write tag addr ws.length (ws.flatMap (leBytes 4)) (decide (addr % 4 = 0)) fun q s => s.runWrite m addr ws q

/-- READ_LIST (R394). -/
def doReadList (t : Nat) (m : Master) (tag : Nat) (addrs : List Nat) : State → State :=
  whenLive t fun s =>
    s.transaction m .readList tag 0 addrs.length (addrs.flatMap (leBytes 4)) (addrs.all fun a => decide (a % 4 = 0)) fun q s => s.runRead m addrs q

/-- ECHO (R389): the request's bytes come back. -/
def doEcho (t : Nat) (m : Master) (tag : Nat) (data : Bytes) : State → State :=
  whenLive t fun s =>
    s.transaction m .echo tag 0 data.length data true fun q s => s.finish q s.mt none 0 [] data

/-! ## Rates (R401, R485) -/

/-- HOST_RATE_INTERVAL (R485): an interval ends at a multiple of 10^9 ns, and HOST_RATE tells whether it kept to the limits. -/
def doHostRateInterval (t : Nat) : State → State :=
  whenLive t fun s =>
    let q := s.rateMove
    if t % 1000000000 ≠ 0 then s else if q.host.rateEnd = s.mt then q.judgeRate.setHost fun h => { h with rateShown := true } else q

/-! ## Meanings -/

/-- Meaning of UDP_DATAGRAM (R396). -/
def execUdpDatagram (t : Nat) (d : Datagram) (s : State) : Host.Outcome State Fault Refusal :=
  .next (doUdpDatagram t d s)

/-- Meaning of ARP_REQUEST (R396). -/
def execArpRequest (t : Nat) (targetIp senderIp senderMac : Nat) (s : State) : Host.Outcome State Fault Refusal :=
  .next (doArpRequest t targetIp senderIp senderMac s)

/-- Meaning of ICMP_ECHO (R396). -/
def execIcmpEcho (t : Nat) (srcIp : Nat) (data : Bytes) (s : State) : Host.Outcome State Fault Refusal :=
  .next (doIcmpEcho t srcIp data s)

/-- Meaning of SPI_STATUS (R399). -/
def execSpiStatus (t : Nat) (s : State) : Host.Outcome State Fault Refusal :=
  .next (doSpiStatus t s)

/-- Meaning of SPI_REQUEST (R399). -/
def execSpiRequest (t : Nat) (bytes : Bytes) (s : State) : Host.Outcome State Fault Refusal :=
  .next (doSpiRequest t bytes s)

/-- Meaning of SPI_FETCH (R400). -/
def execSpiFetch (t : Nat) (s : State) : Host.Outcome State Fault Refusal :=
  .next (doSpiFetch t s)

/-- Meaning of READ (R394). -/
def execRead (t : Nat) (m : Master) (tag : Nat) (addr : Nat) (count : Nat) (s : State) : Host.Outcome State Fault Refusal :=
  .next (doRead t m tag addr count s)

/-- Meaning of WRITE (R394). -/
def execWrite (t : Nat) (m : Master) (tag : Nat) (addr : Nat) (words : List Word) (s : State) : Host.Outcome State Fault Refusal :=
  .next (doWrite t m tag addr words s)

/-- Meaning of READ_LIST (R394). -/
def execReadList (t : Nat) (m : Master) (tag : Nat) (addrs : List Nat) (s : State) : Host.Outcome State Fault Refusal :=
  .next (doReadList t m tag addrs s)

/-- Meaning of ECHO (R389). -/
def execEcho (t : Nat) (m : Master) (tag : Nat) (data : Bytes) (s : State) : Host.Outcome State Fault Refusal :=
  .next (doEcho t m tag data s)

/-- Meaning of HOST_RATE_INTERVAL (R485). -/
def execHostRateInterval (t : Nat) (s : State) : Host.Outcome State Fault Refusal :=
  .next (doHostRateInterval t s)

end Sys2Proof.Machine
end

