-- ==== Sys2Proof/Machine/Snapshot.lean ====
section
/-! DEFINITION. Snapshots of the ledger (R467, R468): the words of a set as they stand in the idle interval after the event. -/
namespace Sys2Proof.Machine

/-- A word of a set: an entry in the tile memory window reads the set's lane (R467). Nothing is latched (R468). -/
def snapWord (s : State) (lane : Fin 8) (a : Nat) : Nat :=
  if 0x00140000 ≤ a ∧ a < 0x00180000 then tileWord s lane.val (a - 0x00140000)
  else match mapPeek s .marketSup a with | some v => v | none => 0

/-- The words of a set in its order. -/
def setWords (s : State) (k : Fin 4) : List Nat :=
  let q := s.ldg.sets[k]
  (q.addrs.toList.take q.count).map (snapWord s q.lane)

/-- The compute deadline the present idle interval follows; without an active profile, a multiple of 1 000 000 ns. None while
lanes run (R135, R468). -/
def idleAfter (s : State) (t : Nat) : Option Nat :=
  let b := s.boundaryAt t
  if !s.running then (if t % 1000000 = 0 then some t else none)
  else if b + s.closeNs ≤ t then some (b + s.closeNs)
  else if t < b + s.openNs then some (b + s.closeNs - s.pitchNs)
  else none

/-- The record with its words captured, where its snapshot is due at this deadline. -/
def captured (s : State) (deadline : Nat) (r : LdgRec) : LdgRec :=
  match r.snapSet with
  | some k => if snapDue r && decide (r.time ≤ deadline) then { r with snap := some (s.mt, setWords s k) } else r
  | none => r

/-- SNAPSHOT_READ (R468): every snapshot that is due is read, all from one commit. -/
def doSnapshotRead (t : Nat) : State → State :=
  whenLive t fun s =>
    match idleAfter s t with
    | some d => { s with ldg := { s.ldg with parts := vmap (fun _ P => { P with queue := P.queue.map (captured s d) }) s.ldg.parts } }
    | none => s

/-! ## Meanings -/

/-- Meaning of SNAPSHOT_READ (R468). -/
def execSnapshotRead (t : Nat) (s : State) : Host.Outcome State Fault Refusal :=
  .next (doSnapshotRead t s)

end Sys2Proof.Machine
end

