-- ==== Sys2Proof/Machine/Dispatch.lean ====
section
/-! DEFINITION. The dispatch: one arm per command, each a direct call of its meaning. -/
namespace Sys2Proof.Machine

def exec (i : Instr) (s : State) : Host.Outcome State Fault Refusal :=
  match i with
  | .tickStart t rd => Sys2Proof.Machine.execTickStart t rd s
  | .clearingCommit t => Sys2Proof.Machine.execClearingCommit t s
  | .pitchBoundary t => Sys2Proof.Machine.execPitchBoundary t s
  | .computeWindowOpen t => Sys2Proof.Machine.execComputeWindowOpen t s
  | .computeDeadline t ecc miscounted => Sys2Proof.Machine.execComputeDeadline t ecc miscounted s
  | .profileWindowWrite t m addr value => Sys2Proof.Machine.execProfileWindowWrite t m addr value s
  | .check t m slot mode => Sys2Proof.Machine.execCheck t m slot mode s
  | .activate t m slot mode => Sys2Proof.Machine.execActivate t m slot mode s
  | .erase t m slot mode => Sys2Proof.Machine.execErase t m slot mode s
  | .cancel t m slot mode => Sys2Proof.Machine.execCancel t m slot mode s
  | .checkComplete t => Sys2Proof.Machine.execCheckComplete t s
  | .checkTimeout t => Sys2Proof.Machine.execCheckTimeout t s
  | .pendingTimeout t => Sys2Proof.Machine.execPendingTimeout t s
  | .profileSwitch t => Sys2Proof.Machine.execProfileSwitch t s
  | .uplinkPitchFrame t stall suf clean bytes => Sys2Proof.Machine.execUplinkPitchFrame t stall suf clean bytes s
  | .trainingReply t stall suf clean bytes => Sys2Proof.Machine.execTrainingReply t stall suf clean bytes s
  | .captureFrame t stall scf clean bytes => Sys2Proof.Machine.execCaptureFrame t stall scf clean bytes s
  | .sampleLost t stall => Sys2Proof.Machine.execSampleLost t stall s
  | .coastExhausted t stall => Sys2Proof.Machine.execCoastExhausted t stall s
  | .linkAligned t stall => Sys2Proof.Machine.execLinkAligned t stall s
  | .alignTimeout t stall => Sys2Proof.Machine.execAlignTimeout t stall s
  | .trainTimeout t stall => Sys2Proof.Machine.execTrainTimeout t stall s
  | .linkDownCode t stall => Sys2Proof.Machine.execLinkDownCode t stall s
  | .linkDownSilent t stall => Sys2Proof.Machine.execLinkDownSilent t stall s
  | .linkFaultRetry t stall => Sys2Proof.Machine.execLinkFaultRetry t stall s
  | .retrain t m stall => Sys2Proof.Machine.execRetrain t m stall s
  | .sleepReq t m stall on => Sys2Proof.Machine.execSleepReq t m stall on s
  | .capEn t m stall on => Sys2Proof.Machine.execCapEn t m stall on s
  | .capTrig t m => Sys2Proof.Machine.execCapTrig t m s
  | .capArm t m => Sys2Proof.Machine.execCapArm t m s
  | .stlClrCnt t m stall => Sys2Proof.Machine.execStlClrCnt t m stall s
  | .clrFb t m stall => Sys2Proof.Machine.execClrFb t m stall s
  | .stallRelease t m stall => Sys2Proof.Machine.execStallRelease t m stall s
  | .cellRampEnd t stall cell => Sys2Proof.Machine.execCellRampEnd t stall cell s
  | .shedDecision t bay => Sys2Proof.Machine.execShedDecision t bay s
  | .rearmLimit t stall => Sys2Proof.Machine.execRearmLimit t stall s
  | .stopOpenTimeout t stall => Sys2Proof.Machine.execStopOpenTimeout t stall s
  | .restElapsed t stall => Sys2Proof.Machine.execRestElapsed t stall s
  | .moveCloseTimeout t slot => Sys2Proof.Machine.execMoveCloseTimeout t slot s
  | .moveOpenTimeout t slot => Sys2Proof.Machine.execMoveOpenTimeout t slot s
  | .policyWrite t m addr value => Sys2Proof.Machine.execPolicyWrite t m addr value s
  | .policyCommit t m => Sys2Proof.Machine.execPolicyCommit t m s
  | .policyDiscard t m => Sys2Proof.Machine.execPolicyDiscard t m s
  | .mktClrCnt t m => Sys2Proof.Machine.execMktClrCnt t m s
  | .ceIdSample t samples => Sys2Proof.Machine.execCeIdSample t samples s
  | .sdpRequest t bay => Sys2Proof.Machine.execSdpRequest t bay s
  | .sessionSetupReq t bay decoded => Sys2Proof.Machine.execSessionSetupReq t bay decoded s
  | .authorizationReq t bay decoded req => Sys2Proof.Machine.execAuthorizationReq t bay decoded req s
  | .parameterReq t bay decoded req => Sys2Proof.Machine.execParameterReq t bay decoded req s
  | .dcCableCheckReq t bay decoded => Sys2Proof.Machine.execDcCableCheckReq t bay decoded s
  | .dcPreChargeReq t bay decoded targetV => Sys2Proof.Machine.execDcPreChargeReq t bay decoded targetV s
  | .powerDeliveryReq t bay decoded start => Sys2Proof.Machine.execPowerDeliveryReq t bay decoded start s
  | .chargeLoopReq t bay decoded req => Sys2Proof.Machine.execChargeLoopReq t bay decoded req s
  | .weldingDetectionReq t bay decoded => Sys2Proof.Machine.execWeldingDetectionReq t bay decoded s
  | .sessionStopReq t bay decoded => Sys2Proof.Machine.execSessionStopReq t bay decoded s
  | .tlsFailure t bay kind => Sys2Proof.Machine.execTlsFailure t bay kind s
  | .ccHoldElapsed t bay => Sys2Proof.Machine.execCcHoldElapsed t bay s
  | .contactorTimeout t bay => Sys2Proof.Machine.execContactorTimeout t bay s
  | .noSdp t bay => Sys2Proof.Machine.execNoSdp t bay s
  | .setupTimeout t bay => Sys2Proof.Machine.execSetupTimeout t bay s
  | .authTimeout t bay => Sys2Proof.Machine.execAuthTimeout t bay s
  | .ccTimeout t bay => Sys2Proof.Machine.execCcTimeout t bay s
  | .preTimeout t bay => Sys2Proof.Machine.execPreTimeout t bay s
  | .loopTimeout t bay => Sys2Proof.Machine.execLoopTimeout t bay s
  | .seqTimeout t bay => Sys2Proof.Machine.execSeqTimeout t bay s
  | .rampTimeout t bay => Sys2Proof.Machine.execRampTimeout t bay s
  | .closingTimeout t bay => Sys2Proof.Machine.execClosingTimeout t bay s
  | .faultHoldTimeout t bay => Sys2Proof.Machine.execFaultHoldTimeout t bay s
  | .bayStop t m bay => Sys2Proof.Machine.execBayStop t m bay s
  | .authOk t m bay => Sys2Proof.Machine.execAuthOk t m bay s
  | .authDeny t m bay => Sys2Proof.Machine.execAuthDeny t m bay s
  | .bayClrCnt t m bay => Sys2Proof.Machine.execBayClrCnt t m bay s
  | .flowPulse t input => Sys2Proof.Machine.execFlowPulse t input s
  | .valveCloseDelay t bay => Sys2Proof.Machine.execValveCloseDelay t bay s
  | .valvePullInEnd t ch => Sys2Proof.Machine.execValvePullInEnd t ch s
  | .auxProtectionCheck t sense => Sys2Proof.Machine.execAuxProtectionCheck t sense s
  | .auxRetry t ch => Sys2Proof.Machine.execAuxRetry t ch s
  | .auxCoolElapsed t ch => Sys2Proof.Machine.execAuxCoolElapsed t ch s
  | .auxRetryCountReset t ch => Sys2Proof.Machine.execAuxRetryCountReset t ch s
  | .auxTotalShed t => Sys2Proof.Machine.execAuxTotalShed t s
  | .auxHoldExpiry t => Sys2Proof.Machine.execAuxHoldExpiry t s
  | .vin24Return t cv => Sys2Proof.Machine.execVin24Return t cv s
  | .auxClear t m ch demand => Sys2Proof.Machine.execAuxClear t m ch demand s
  | .thmClrCnt t m => Sys2Proof.Machine.execThmClrCnt t m s
  | .metrologySample t rep sample => Sys2Proof.Machine.execMetrologySample t rep sample s
  | .calBlock t => Sys2Proof.Machine.execCalBlock t s
  | .metrologyCommit t => Sys2Proof.Machine.execMetrologyCommit t s
  | .bayDead t bay => Sys2Proof.Machine.execBayDead t bay s
  | .receiptIssue t => Sys2Proof.Machine.execReceiptIssue t s
  | .receiptDrain t => Sys2Proof.Machine.execReceiptDrain t s
  | .calSetEffect t => Sys2Proof.Machine.execCalSetEffect t s
  | .rcptAck t m seq => Sys2Proof.Machine.execRcptAck t m seq s
  | .tallyLowRead t m k => Sys2Proof.Machine.execTallyLowRead t m k s
  | .tallyHighRead t m k => Sys2Proof.Machine.execTallyHighRead t m k s
  | .metrologyFwActivation t => Sys2Proof.Machine.execMetrologyFwActivation t s
  | .safetyScan t rd => Sys2Proof.Machine.execSafetyScan t rd s
  | .discrepancyTimeout t pair => Sys2Proof.Machine.execDiscrepancyTimeout t pair s
  | .testPulse t source => Sys2Proof.Machine.execTestPulse t source s
  | .switchTest t pair low conducts => Sys2Proof.Machine.execSwitchTest t pair low conducts s
  | .soCurrentFault t pair current lasted => Sys2Proof.Machine.execSoCurrentFault t pair current lasted s
  | .feedbackMismatch t pair => Sys2Proof.Machine.execFeedbackMismatch t pair s
  | .ssRampEnd t bay => Sys2Proof.Machine.execSsRampEnd t bay s
  | .ssRampTimeout t bay => Sys2Proof.Machine.execSsRampTimeout t bay s
  | .envelopeSkipLimit t bay => Sys2Proof.Machine.execEnvelopeSkipLimit t bay s
  | .escalation t bay => Sys2Proof.Machine.execEscalation t bay s
  | .siReset t m sel => Sys2Proof.Machine.execSiReset t m sel s
  | .soClear t m sel => Sys2Proof.Machine.execSoClear t m sel s
  | .safUnlock t m => Sys2Proof.Machine.execSafUnlock t m s
  | .safSeal t m => Sys2Proof.Machine.execSafSeal t m s
  | .pwSet t m => Sys2Proof.Machine.execPwSet t m s
  | .safClrCnt t m => Sys2Proof.Machine.execSafClrCnt t m s
  | .safUnlockExpiry t => Sys2Proof.Machine.execSafUnlockExpiry t s
  | .safLockoutEnd t => Sys2Proof.Machine.execSafLockoutEnd t s
  | .initWaitEnd t => Sys2Proof.Machine.execInitWaitEnd t s
  | .activeIAssert t => Sys2Proof.Machine.execActiveIAssert t s
  | .claimConfirm t => Sys2Proof.Machine.execClaimConfirm t s
  | .claimConflictTimeout t => Sys2Proof.Machine.execClaimConflictTimeout t s
  | .takeover t => Sys2Proof.Machine.execTakeover t s
  | .syncTimeout t => Sys2Proof.Machine.execSyncTimeout t s
  | .resyncElapsed t => Sys2Proof.Machine.execResyncElapsed t s
  | .seljoTime t head t1 t2 t3 t4 => Sys2Proof.Machine.execSeljoTime t head t1 t2 t3 t4 s
  | .seljoPitch t head msg => Sys2Proof.Machine.execSeljoPitch t head msg s
  | .seljoTick t head snap digest => Sys2Proof.Machine.execSeljoTick t head snap digest s
  | .seljoSession t head bay session => Sys2Proof.Machine.execSeljoSession t head bay session s
  | .seljoSessionAck t bay => Sys2Proof.Machine.execSeljoSessionAck t bay s
  | .seljoState t head msg => Sys2Proof.Machine.execSeljoState t head msg s
  | .seljoCapture t head tiles => Sys2Proof.Machine.execSeljoCapture t head tiles s
  | .seljoHealth t head bits => Sys2Proof.Machine.execSeljoHealth t head bits s
  | .seljoCtrl t head step => Sys2Proof.Machine.execSeljoCtrl t head step s
  | .seljoLinkUp t => Sys2Proof.Machine.execSeljoLinkUp t s
  | .seljoLinkDown t => Sys2Proof.Machine.execSeljoLinkDown t s
  | .shadowWindowOpen t => Sys2Proof.Machine.execShadowWindowOpen t s
  | .heartbeatSend t => Sys2Proof.Machine.execHeartbeatSend t s
  | .heartbeatFrame t bytes => Sys2Proof.Machine.execHeartbeatFrame t bytes s
  | .partnerAbsent t => Sys2Proof.Machine.execPartnerAbsent t s
  | .policySegmentSend t => Sys2Proof.Machine.execPolicySegmentSend t s
  | .policySegmentFrame t bytes => Sys2Proof.Machine.execPolicySegmentFrame t bytes s
  | .updateHeartbeatSend t => Sys2Proof.Machine.execUpdateHeartbeatSend t s
  | .updateHeartbeatFrame t bytes => Sys2Proof.Machine.execUpdateHeartbeatFrame t bytes s
  | .healthCheck t => Sys2Proof.Machine.execHealthCheck t s
  | .handover t m => Sys2Proof.Machine.execHandover t m s
  | .clearUnfit t m => Sys2Proof.Machine.execClearUnfit t m s
  | .pairClrCnt t m => Sys2Proof.Machine.execPairClrCnt t m s
  | .profileHandoverRelease t => Sys2Proof.Machine.execProfileHandoverRelease t s
  | .referenceSend t ch => Sys2Proof.Machine.execReferenceSend t ch s
  | .referenceReceived t ch payload => Sys2Proof.Machine.execReferenceReceived t ch payload s
  | .referenceMissing t ch => Sys2Proof.Machine.execReferenceMissing t ch s
  | .canFrameReceived t ch frame => Sys2Proof.Machine.execCanFrameReceived t ch frame s
  | .slotMiss t slot => Sys2Proof.Machine.execSlotMiss t slot s
  | .arbitratingWindow t ch busIdle => Sys2Proof.Machine.execArbitratingWindow t ch busIdle s
  | .canTxComplete t ch => Sys2Proof.Machine.execCanTxComplete t ch s
  | .canTxError t ch how => Sys2Proof.Machine.execCanTxError t ch how s
  | .busOffRecovery t ch => Sys2Proof.Machine.execBusOffRecovery t ch s
  | .tatCommitPoint t buf busIdle => Sys2Proof.Machine.execTatCommitPoint t buf busIdle s
  | .mailboxSend t m box ctrl => Sys2Proof.Machine.execMailboxSend t m box ctrl s
  | .mailboxCancel t m box => Sys2Proof.Machine.execMailboxCancel t m box s
  | .tatArm t m buf ctrl => Sys2Proof.Machine.execTatArm t m buf ctrl s
  | .tatLoad t m buf ctrl => Sys2Proof.Machine.execTatLoad t m buf ctrl s
  | .tatCancel t m buf => Sys2Proof.Machine.execTatCancel t m buf s
  | .fifoPop t m ch => Sys2Proof.Machine.execFifoPop t m ch s
  | .busSleep t m => Sys2Proof.Machine.execBusSleep t m s
  | .busWakeWrite t m => Sys2Proof.Machine.execBusWakeWrite t m s
  | .busWake t src => Sys2Proof.Machine.execBusWake t src s
  | .sbusClrCnt t m => Sys2Proof.Machine.execSbusClrCnt t m s
  | .udpDatagram t d => Sys2Proof.Machine.execUdpDatagram t d s
  | .arpRequest t targetIp senderIp senderMac => Sys2Proof.Machine.execArpRequest t targetIp senderIp senderMac s
  | .icmpEcho t srcIp data => Sys2Proof.Machine.execIcmpEcho t srcIp data s
  | .spiStatus t => Sys2Proof.Machine.execSpiStatus t s
  | .spiRequest t bytes => Sys2Proof.Machine.execSpiRequest t bytes s
  | .spiFetch t => Sys2Proof.Machine.execSpiFetch t s
  | .read t m tag addr count => Sys2Proof.Machine.execRead t m tag addr count s
  | .write t m tag addr words => Sys2Proof.Machine.execWrite t m tag addr words s
  | .readList t m tag addrs => Sys2Proof.Machine.execReadList t m tag addrs s
  | .echo t m tag data => Sys2Proof.Machine.execEcho t m tag data s
  | .registerWrite t m addr value => Sys2Proof.Machine.execRegisterWrite t m addr value s
  | .violRelease t m => Sys2Proof.Machine.execViolRelease t m s
  | .firstOvrRelease t m => Sys2Proof.Machine.execFirstOvrRelease t m s
  | .latClrCnt t m => Sys2Proof.Machine.execLatClrCnt t m s
  | .hostClrCnt t m => Sys2Proof.Machine.execHostClrCnt t m s
  | .sysUnlock t m => Sys2Proof.Machine.execSysUnlock t m s
  | .sysSeal t m => Sys2Proof.Machine.execSysSeal t m s
  | .sysUnlockExpiry t => Sys2Proof.Machine.execSysUnlockExpiry t s
  | .sysLockoutEnd t => Sys2Proof.Machine.execSysLockoutEnd t s
  | .hostRateInterval t => Sys2Proof.Machine.execHostRateInterval t s
  | .referenceLoss t => Sys2Proof.Machine.execReferenceLoss t s
  | .referenceRestored t selfTest => Sys2Proof.Machine.execReferenceRestored t selfTest s
  | .x32Loss t => Sys2Proof.Machine.execX32Loss t s
  | .mtSave t => Sys2Proof.Machine.execMtSave t s
  | .coldStart t rawNow pins selfTest => Sys2Proof.Machine.execColdStart t rawNow pins selfTest s
  | .brownOut t => Sys2Proof.Machine.execBrownOut t s
  | .rstN t pulse selfTest => Sys2Proof.Machine.execRstN t pulse selfTest s
  | .internalReset t cause selfTest => Sys2Proof.Machine.execInternalReset t cause selfTest s
  | .resetKey t m key selfTest => Sys2Proof.Machine.execResetKey t m key selfTest s
  | .watchdog t selfTest => Sys2Proof.Machine.execWatchdog t selfTest s
  | .lockstepDisagree t selfTest => Sys2Proof.Machine.execLockstepDisagree t selfTest s
  | .dormant t m => Sys2Proof.Machine.execDormant t m s
  | .dormantCommit t => Sys2Proof.Machine.execDormantCommit t s
  | .dormantWake t src => Sys2Proof.Machine.execDormantWake t src s
  | .powerFailWarning t cv => Sys2Proof.Machine.execPowerFailWarning t cv s
  | .powerFailClear t cv => Sys2Proof.Machine.execPowerFailClear t cv s
  | .supplyOutOfRange t cv => Sys2Proof.Machine.execSupplyOutOfRange t cv s
  | .vin24Low t cv => Sys2Proof.Machine.execVin24Low t cv s
  | .vbatLow t mv => Sys2Proof.Machine.execVbatLow t mv s
  | .junctionTempCheck t tenths => Sys2Proof.Machine.execJunctionTempCheck t tenths s
  | .tamper t => Sys2Proof.Machine.execTamper t s
  | .rtcApply t m seconds frac => Sys2Proof.Machine.execRtcApply t m seconds frac s
  | .ptpSync t head origin twoStep => Sys2Proof.Machine.execPtpSync t head origin twoStep s
  | .ptpFollowUp t head origin => Sys2Proof.Machine.execPtpFollowUp t head origin s
  | .ptpDelayResp t resp received => Sys2Proof.Machine.execPtpDelayResp t resp received s
  | .ptpAnnounce t a => Sys2Proof.Machine.execPtpAnnounce t a s
  | .ptpSyncTimeout t => Sys2Proof.Machine.execPtpSyncTimeout t s
  | .leapSecond t => Sys2Proof.Machine.execLeapSecond t s
  | .marketTimeRead t m high => Sys2Proof.Machine.execMarketTimeRead t m high s
  | .calendarRead t m => Sys2Proof.Machine.execCalendarRead t m s
  | .rawRead t m high => Sys2Proof.Machine.execRawRead t m high s
  | .clkClrCnt t m => Sys2Proof.Machine.execClkClrCnt t m s
  | .pwrClrCnt t m => Sys2Proof.Machine.execPwrClrCnt t m s
  | .generate t m => Sys2Proof.Machine.execGenerate t m s
  | .load t m => Sys2Proof.Machine.execLoad t m s
  | .unload t m slot => Sys2Proof.Machine.execUnload t m slot s
  | .store t m => Sys2Proof.Machine.execStore t m s
  | .delete t m => Sys2Proof.Machine.execDelete t m s
  | .attest t m => Sys2Proof.Machine.execAttest t m s
  | .remask t => Sys2Proof.Machine.execRemask t s
  | .lcAdvance t m value => Sys2Proof.Machine.execLcAdvance t m value s
  | .chunkCommit t m => Sys2Proof.Machine.execChunkCommit t m s
  | .abort t m => Sys2Proof.Machine.execAbort t m s
  | .apply t m => Sys2Proof.Machine.execApply t m s
  | .raise t m => Sys2Proof.Machine.execRaise t m s
  | .actModeWrite t m mode => Sys2Proof.Machine.execActModeWrite t m mode s
  | .activationLead t => Sys2Proof.Machine.execActivationLead t s
  | .scheduledActivation t => Sys2Proof.Machine.execScheduledActivation t s
  | .activationSkip t => Sys2Proof.Machine.execActivationSkip t s
  | .handoverActivation t => Sys2Proof.Machine.execHandoverActivation t s
  | .handoverActivationTimeout t => Sys2Proof.Machine.execHandoverActivationTimeout t s
  | .trialEnd t => Sys2Proof.Machine.execTrialEnd t s
  | .floorRaise t => Sys2Proof.Machine.execFloorRaise t s
  | .ledgerRecordWrite t part => Sys2Proof.Machine.execLedgerRecordWrite t part s
  | .snapshotRead t => Sys2Proof.Machine.execSnapshotRead t s
  | .mark t m => Sys2Proof.Machine.execMark t m s
  | .clrSys t m => Sys2Proof.Machine.execClrSys t m s
  | .clrSaf t m => Sys2Proof.Machine.execClrSaf t m s
  | .canRxError t e => Sys2Proof.Machine.execCanRxError t e s
  | .x32Restored t => Sys2Proof.Machine.execX32Restored t s
  | .pllLockLoss t pll => Sys2Proof.Machine.execPllLockLoss t pll s
  | .pllRelock t pll => Sys2Proof.Machine.execPllRelock t pll s
  | .keyOpComplete t => Sys2Proof.Machine.execKeyOpComplete t s
  | .supportedAppProtocolReq t bay decoded => Sys2Proof.Machine.execSupportedAppProtocolReq t bay decoded s
  | .tlsHandshake t hello => Sys2Proof.Machine.execTlsHandshake t hello s
  | .bayPhyLink t bay report => Sys2Proof.Machine.execBayPhyLink t bay report s
  | .proofDue t pair => Sys2Proof.Machine.execProofDue t pair s
  | .dormantOutputRelease t => Sys2Proof.Machine.execDormantOutputRelease t s
  | .vbatDomainLoss t => Sys2Proof.Machine.execVbatDomainLoss t s

end Sys2Proof.Machine
end

