-- ==== Sys2Proof/Safety.lean ====
section
/-! DEFINITION. What counts as a safe run, in the terms the claims use: a step that goes on, a command that completes with an effect, the
canonical form of every sparse memory of the state, and the reach of every command: the parts of the state it may change. -/
namespace Sys2Proof.Machine

/-- The step goes on to a next state: no command of this block stops it. -/
def goesOn (s : State) : Prop := ∃ s', step s = .next s'

/-- The command completes in `s`, and the state it leaves has the effect `P`. -/
def Completes (c : Instr) (s : State) (P : State → Prop) : Prop := ∃ t, exec c s = .next t ∧ P t

/-- Every sparse memory of the state is in canonical form: the profile slots, the ledger partitions, the memory of the
metrology partition, the windows of KEY and UPD, and the data of mailboxes and transmit buffers. -/
def State.memsWf (s : State) : Bool :=
  (s.prof.slots.toList.all fun x => Memory.wf x.mem) && (s.ldg.parts.toList.all fun P => Memory.wf P.mem) &&
  Memory.wf s.met.core && Memory.wf s.vault.blobWin && Memory.wf s.vault.attestWin && Memory.wf s.upd.chunkWin &&
  (s.sbus.boxes.toList.all fun b => Memory.wf b.data) && (s.sbus.tats.toList.all fun b => Memory.wf b.shadow && Memory.wf b.data)

/-! ## Parts of the state -/

/-- The parts of the state a frame speaks of: one per field, with every bay and every stall by itself, and with the change counters,
the answer and the violation record apart from the rest of HOST, the capture status apart from the rest of STL, the role apart from
the rest of PAIR and the queues of records apart from the rest of LDG. -/
inductive Block where
  | queue | mt | draws | fuses | prof | lock | sums | answer | viol | host | assume | clk | pwr | rtc | lat | capture | stl
  | link (n : Fin 64) | sample (n : Fin 64) | stall (n : Fin 64) | outlet (b : Fin 12) | settings (b : Fin 12) | bay (b : Fin 12) | mkt | thm | aux | met | saf | role | pair | sbus | vault | upd | queues | ldg | mram
  deriving DecidableEq, Repr

/-- HOST without the change counters, the answer with its data, and the violation record with its count. -/
def HostBlock.rest (h : HostBlock) : HostBlock :=
  { h with sum := Vector.replicate 16 0, answer := ⟨.ok, .none⟩, data := [], viol := {}, violCnt := 0 }

/-- STL without the status of the capture buffer. -/
def StlCommon.rest (c : StlCommon) : StlCommon := { c with frozen := false, armed := false, trigSrc := 0, trigStall := 0 }

/-- PAIR without the role and ACTIVE_O. -/
def Pair.rest (p : Pair) : Pair := { p with role := .init, activeO := false }

/-- The latest usable uplink of a stall and how the sample of the present pitch was judged. -/
def Stall.taken (x : Stall) : Option Uplink × Nat × SampleSt × Nat := (x.up, x.upAt, x.sample, x.sampleAt)

/-- A stall without its link and its sample. -/
def Stall.rest (x : Stall) : Stall := { x with link := {}, up := none, upAt := 0, sample := .none, sampleAt := 0 }

/-- What the host sets for a bay, without the MAC base. -/
def Bay.settings (x : Bay) : Bay :=
  { disable := x.disable, imdSi := x.imdSi, ceDeb := x.ceDeb, pncHost := x.pncHost, eimAuto := x.eimAuto, pncEn := x.pncEn, eimEn := x.eimEn,
    authS := x.authS, ccS := x.ccS, loopS := x.loopS, preS := x.preS, ccHold := x.ccHold }

/-- A bay without its outlet and its settings. -/
def Bay.rest (x : Bay) : Bay :=
  { x with outlet := {}, disable := false, imdSi := 0x1F, ceDeb := 10, pncHost := false, eimAuto := false, pncEn := true, eimEn := true,
           authS := 60, ccS := 40, loopS := 2, preS := 7, ccHold := 20 }

/-- What waits to be written in each partition, with what the queue dropped. -/
def LedgerBlock.waiting (l : LedgerBlock) : List (List LdgRec × Nat × Bool) := l.parts.toList.map fun P => (P.queue, P.qDrop, P.dropped)

/-- LDG without what waits to be written. -/
def LedgerBlock.rest (l : LedgerBlock) : LedgerBlock :=
  { l with parts := vmap (fun _ P => { P with queue := [], qDrop := 0, dropped := false }) l.parts }

/-- The two states hold the same value in a part. -/
def sameBlock : Block → State → State → Prop
  | .queue, s, t => t.pending = s.pending
  | .mt, s, t => t.mt = s.mt
  | .draws, s, t => t.draws = s.draws
  | .fuses, s, t => t.fuses = s.fuses
  | .prof, s, t => t.prof = s.prof
  | .lock, s, t => t.lock = s.lock
  | .sums, s, t => t.host.sum = s.host.sum
  | .answer, s, t => (t.host.answer, t.host.data) = (s.host.answer, s.host.data)
  | .viol, s, t => (t.host.viol, t.host.violCnt) = (s.host.viol, s.host.violCnt)
  | .host, s, t => t.host.rest = s.host.rest
  | .assume, s, t => t.assume = s.assume
  | .clk, s, t => t.clk = s.clk
  | .pwr, s, t => t.pwr = s.pwr
  | .rtc, s, t => t.rtc = s.rtc
  | .lat, s, t => t.lat = s.lat
  | .capture, s, t => (t.stl.frozen, t.stl.armed, t.stl.trigSrc, t.stl.trigStall) = (s.stl.frozen, s.stl.armed, s.stl.trigSrc, s.stl.trigStall)
  | .stl, s, t => t.stl.rest = s.stl.rest
  | .link n, s, t => t.stalls[n].link = s.stalls[n].link
  | .sample n, s, t => t.stalls[n].taken = s.stalls[n].taken
  | .stall n, s, t => t.stalls[n].rest = s.stalls[n].rest
  | .outlet b, s, t => t.bays[b].outlet = s.bays[b].outlet
  | .settings b, s, t => t.bays[b].settings = s.bays[b].settings
  | .bay b, s, t => t.bays[b].rest = s.bays[b].rest
  | .mkt, s, t => t.mkt = s.mkt
  | .thm, s, t => t.thm = s.thm
  | .aux, s, t => t.aux = s.aux
  | .met, s, t => t.met = s.met
  | .saf, s, t => t.saf = s.saf
  | .role, s, t => (t.pair.role, t.pair.activeO) = (s.pair.role, s.pair.activeO)
  | .pair, s, t => t.pair.rest = s.pair.rest
  | .sbus, s, t => t.sbus = s.sbus
  | .vault, s, t => t.vault = s.vault
  | .upd, s, t => t.upd = s.upd
  | .queues, s, t => t.ldg.waiting = s.ldg.waiting
  | .ldg, s, t => t.ldg.rest = s.ldg.rest
  | .mram, s, t => t.mram = s.mram

/-- `t` differs from `s` at most in the parts `cs` names. -/
def OnlyIn (cs : Block → Bool) (s t : State) : Prop := ∀ k, cs k = false → sameBlock k s t

/-! ## The reach of a command -/

/-- The parts there is one of for every stall or bay. -/
inductive Element where
  | link | sample | stall | outlet | settings | bay
  deriving DecidableEq, Repr

/-- Every kind of part of the stalls and the bays. -/
def everyElement : List Element := [.link, .sample, .stall, .outlet, .settings, .bay]

/-- The parts of a list, with those of every stall or bay of the kinds named. -/
def within (l : List Block) (every : List Element := []) (k : Block) : Bool :=
  l.contains k ||
  (match k with
   | .link _ => every.contains .link
   | .sample _ => every.contains .sample
   | .stall _ => every.contains .stall
   | .outlet _ => every.contains .outlet
   | .settings _ => every.contains .settings
   | .bay _ => every.contains .bay
   | _ => false)

/-- What an event that may write a record changes besides its own block: market time, the change counters, the queues of records and,
by a trigger of R469, the status of the capture buffer. -/
def recorded : List Block := [.mt, .sums, .capture, .queues]

/-- What a command of a master changes besides its own block: its answer, and a violation with its record. -/
def accessed : List Block := recorded ++ [.answer, .viol]

/-- Every part but the stalls, the bays, the queue of commands, what is fused, and a list. -/
def allBut (l : List Block) : List Block :=
  [Block.mt, .draws, .prof, .lock, .sums, .answer, .viol, .host, .assume, .clk, .pwr, .rtc, .lat, .capture, .stl, .mkt, .thm, .aux, .met, .saf,
   .role, .pair, .sbus, .vault, .upd, .queues, .ldg, .mram].filter fun k => !l.contains k

/-- The parts of the state a command may change. No command reaches the queue of waiting commands or what is fused. -/
def reach : Instr → Block → Bool
  | .tickStart .. => within (allBut [.lock, .answer, .host, .clk, .pwr, .rtc, .upd, .ldg]) [.link, .sample, .stall, .outlet, .bay]
  | .pitchBoundary .. => within [.mt, .sums, .lat, .saf] [.stall]
  | .clearingCommit .. | .computeWindowOpen .. | .healthCheck .. =>
    within (recorded ++ [.prof, .lat, .mkt, .saf, .role, .pair, .sbus]) [.link, .sample, .stall, .outlet, .bay]
  | .computeDeadline .. | .rstN .. | .internalReset .. | .resetKey .. | .watchdog .. | .lockstepDisagree .. | .scheduledActivation ..
  | .handoverActivation .. => within (allBut []) everyElement
  | .profileWindowWrite .. => within (accessed ++ [.prof, .mram])
  | .check .. | .activate .. | .erase .. | .cancel .. => within (accessed ++ [.prof, .lat, .pair])
  | .checkComplete .. => within (recorded ++ [.prof, .viol, .lat, .pair, .vault])
  | .checkTimeout .. => within (recorded ++ [.prof])
  | .pendingTimeout .. => within [.mt, .prof, .sums, .lat, .pair]
  | .profileSwitch .. => within (recorded ++ [.draws, .prof, .pwr, .lat, .stl, .mkt, .thm, .met, .saf, .pair, .sbus, .mram]) [.link, .sample, .stall, .bay]
  | .uplinkPitchFrame _ n .. => within (recorded ++ [.lat, .stl, .sample n, .mkt, .saf, .pair]) [.link, .stall, .bay]
  | .trainingReply _ n .. => within (recorded ++ [.draws, .stl, .link n]) [.stall]
  | .captureFrame _ n .. => within [.mt, .stl, .link n]
  | .sampleLost _ n => within (recorded ++ [.link n, .sample n, .stall n])
  | .coastExhausted _ n => within (recorded ++ [.stall n, .mkt])
  | .linkAligned _ n => within [.mt, .draws, .sums, .link n]
  | .alignTimeout _ n | .trainTimeout _ n => within (recorded ++ [.link n])
  | .linkDownCode _ n | .linkDownSilent _ n => within [.mt, .sums, .link n, .stall n]
  | .linkFaultRetry _ n => within [.mt, .sums, .link n]
  | .retrain _ _ n | .capEn _ _ n _ | .stlClrCnt _ _ n => within (accessed ++ [.link n])
  | .sleepReq _ _ n _ => within (accessed ++ [.link n, .stall n])
  | .capTrig .. | .capArm .. | .tallyHighRead .. | .violRelease .. | .mark .. => within accessed
  | .clrFb _ _ n | .stallRelease _ _ n => within (accessed ++ [.stall n])
  | .cellRampEnd _ n _ => within [.mt, .sums, .stall n, .mkt]
  | .shedDecision .. => within [.mt, .sums, .mkt] [.stall]
  | .rearmLimit _ n => within [.mt, .stall n]
  | .stopOpenTimeout _ n => within (recorded ++ [.stall n])
  | .restElapsed _ n => within (recorded ++ [.link n, .stall n])
  | .moveCloseTimeout .. | .moveOpenTimeout .. => within (recorded ++ [.mkt]) [.stall]
  | .policyWrite .. | .policyDiscard .. | .mktClrCnt .. => within (accessed ++ [.mkt])
  | .policyCommit .. => within (accessed ++ [.mkt, .mram])
  | .ceIdSample .. => within (recorded ++ [.lat, .mkt, .saf]) [.stall, .outlet, .bay]
  | .sdpRequest _ b | .sessionSetupReq _ b _ | .parameterReq _ b .. | .dcCableCheckReq _ b _ | .dcPreChargeReq _ b .. | .powerDeliveryReq _ b ..
  | .chargeLoopReq _ b .. | .weldingDetectionReq _ b _ | .sessionStopReq _ b _ | .supportedAppProtocolReq _ b _ | .authorizationReq _ b .. =>
    within (recorded ++ [.draws, .viol, .lat, .outlet b, .bay b, .mkt, .saf, .pair, .vault]) [.stall]
  | .tlsFailure _ b _ | .noSdp _ b | .setupTimeout _ b | .authTimeout _ b | .ccTimeout _ b | .preTimeout _ b | .loopTimeout _ b
  | .seqTimeout _ b | .rampTimeout _ b | .closingTimeout _ b | .faultHoldTimeout _ b | .contactorTimeout _ b =>
    within (recorded ++ [.lat, .outlet b, .bay b, .mkt, .saf]) [.stall]
  | .ccHoldElapsed _ b | .seljoSessionAck _ b => within [.mt, .bay b]
  | .bayStop _ _ b | .authOk _ _ b | .authDeny _ _ b | .bayClrCnt _ _ b => within (accessed ++ [.lat, .outlet b, .bay b, .mkt, .saf]) [.stall]
  | .flowPulse .. => within [.mt, .thm]
  | .valveCloseDelay .. => within [.mt, .sums, .thm]
  | .valvePullInEnd .. | .auxCoolElapsed .. | .auxRetryCountReset .. | .auxHoldExpiry .. => within [.mt, .aux]
  | .auxProtectionCheck .. | .auxTotalShed .. => within (recorded ++ [.aux])
  | .auxRetry .. => within [.mt, .sums, .aux]
  | .vin24Return .. => within [.mt, .sums, .assume, .pwr, .aux]
  | .auxClear .. => within (accessed ++ [.aux])
  | .thmClrCnt .. => within (accessed ++ [.thm])
  | .metrologySample .. | .calBlock .. | .bayDead .. | .receiptIssue .. | .calSetEffect .. => within (recorded ++ [.met])
  | .metrologyCommit .. | .receiptDrain .. => within [.mt, .sums, .met, .mram]
  | .rcptAck .. => within (accessed ++ [.met])
  | .tallyLowRead .. | .hostClrCnt .. | .marketTimeRead .. | .calendarRead .. | .rawRead .. => within (accessed ++ [.host])
  | .read .. | .readList .. => within (accessed ++ [.host, .assume])
  | .metrologyFwActivation .. => within (recorded ++ [.viol, .met, .vault, .upd, .mram])
  | .safetyScan .. => within (recorded ++ [.draws, .viol, .prof, .lat, .mkt, .saf, .role, .pair, .sbus, .vault]) [.link, .sample, .stall, .outlet, .bay]
  | .discrepancyTimeout .. | .switchTest .. | .soCurrentFault .. | .feedbackMismatch .. => within (recorded ++ [.saf])
  | .envelopeSkipLimit .. => within (recorded ++ [.lat, .mkt, .saf]) [.stall]
  | .testPulse .. => within [.mt, .saf]
  | .ssRampEnd .. => within [.mt, .sums, .mkt, .saf] [.stall]
  | .ssRampTimeout .. => within [.mt, .sums, .lat, .mkt, .saf] [.stall]
  | .safUnlockExpiry .. | .safLockoutEnd .. | .proofDue .. => within [.mt, .sums, .saf]
  | .escalation .. => within (recorded ++ [.mkt, .saf]) [.stall]
  | .siReset .. | .soClear .. | .safClrCnt .. => within (accessed ++ [.saf])
  | .safSeal .. | .pwSet .. => within (accessed ++ [.saf, .mram])
  | .safUnlock .. => within (accessed ++ [.draws, .saf])
  | .initWaitEnd .. | .claimConflictTimeout .. | .resyncElapsed .. => within (recorded ++ [.assume, .role, .pair, .sbus])
  | .activeIAssert .. => within (recorded ++ [.assume, .saf, .role, .pair, .sbus])
  | .claimConfirm .. | .takeover .. | .profileHandoverRelease .. =>
    within (recorded ++ [.draws, .prof, .lat, .mkt, .thm, .saf, .role, .pair, .sbus, .mram]) [.link, .sample, .stall, .outlet, .bay]
  | .syncTimeout .. | .seljoLinkUp .. => within (recorded ++ [.role, .pair, .sbus])
  | .seljoTime .. => within (recorded ++ [.draws, .clk, .rtc, .role, .pair, .sbus]) [.link, .bay]
  | .seljoPitch .. | .seljoHealth .. | .seljoLinkDown .. => within (recorded ++ [.role, .pair, .sbus]) [.bay]
  | .seljoTick .. => within (recorded ++ [.mkt, .role, .pair, .sbus]) [.bay]
  | .seljoSession _ _ b _ => within (recorded ++ [.viol, .lat, .outlet b, .role, .pair, .sbus, .vault]) [.bay]
  | .seljoState .. => within (recorded ++ [.mkt, .saf, .role, .pair, .sbus]) [.stall, .bay]
  | .seljoCapture .. => within (recorded ++ [.lat, .stl, .mkt, .saf, .role, .pair, .sbus]) [.link, .sample, .stall, .bay]
  | .seljoCtrl .. => within (recorded ++ [.prof, .role, .pair, .sbus]) [.bay]
  | .shadowWindowOpen .. => within (recorded ++ [.lat, .mkt, .saf, .pair]) [.link, .sample, .stall, .bay]
  | .heartbeatSend .. | .policySegmentSend .. | .updateHeartbeatSend .. | .slotMiss .. => within [.mt, .sbus]
  | .heartbeatFrame .. => within (recorded ++ [.prof, .assume, .lat, .mkt, .saf, .role, .pair, .sbus]) [.link, .sample, .stall, .outlet, .bay]
  | .partnerAbsent .. => within [.mt, .sums, .pair]
  | .policySegmentFrame .. => within [.mt, .mkt, .pair]
  | .updateHeartbeatFrame .. => within [.mt, .pair]
  | .handover .. | .clearUnfit .. | .pairClrCnt .. => within (accessed ++ [.pair])
  | .referenceSend .. | .referenceReceived .. | .arbitratingWindow .. => within [.mt, .sums, .assume, .sbus]
  | .referenceMissing .. | .canTxComplete .. | .canTxError .. => within (recorded ++ [.assume, .sbus])
  | .canFrameReceived .. => within (recorded ++ [.draws, .assume, .sbus])
  | .busOffRecovery .. | .canRxError .. => within (recorded ++ [.sbus])
  | .tatCommitPoint .. => within [.mt, .sums, .sbus]
  | .tatArm .. | .tatLoad .. | .tatCancel .. | .fifoPop .. | .busSleep .. | .busWakeWrite .. | .sbusClrCnt .. =>
    within (accessed ++ [.sbus])
  | .mailboxSend .. | .mailboxCancel .. => within (accessed ++ [.assume, .sbus])
  | .busWake .. | .dormantCommit .. | .dormantWake .. => within (allBut [.answer, .host, .ldg]) [.link, .sample, .stall, .bay]
  | .udpDatagram .. | .spiRequest .. | .echo .. => within [.mt, .sums, .answer, .viol, .host, .assume]
  | .arpRequest .. | .icmpEcho .. | .spiStatus .. | .spiFetch .. => within [.mt, .host]
  | .write .. | .registerWrite .. => within (allBut []) everyElement
  | .firstOvrRelease .. | .latClrCnt .. => within (accessed ++ [.lat])
  | .sysUnlock .. => within (accessed ++ [.draws, .lock, .vault])
  | .sysSeal .. => within (accessed ++ [.lock, .host])
  | .sysUnlockExpiry .. => within [.mt, .lock, .sums, .host]
  | .sysLockoutEnd .. => within [.mt, .lock, .sums]
  | .hostRateInterval .. => within [.mt, .sums, .host, .assume]
  | .referenceLoss .. | .brownOut .. => within (allBut [.draws, .mram]) everyElement
  | .referenceRestored .. => within (allBut [.answer, .host, .rtc]) [.link, .sample, .stall, .bay]
  | .x32Loss .. => within [.mt, .sums, .assume, .clk, .rtc]
  | .x32Restored .. | .pllLockLoss .. | .pllRelock .. => within [.mt, .sums, .assume, .clk]
  | .mtSave .. => within [.mt, .clk]
  | .coldStart .. => within (allBut [.answer, .host]) [.link, .sample, .stall, .bay]
  | .dormant .. => within (accessed ++ [.pwr, .sbus])
  | .powerFailWarning .. => within [.mt, .sums, .assume, .clk, .pwr, .met, .queues, .ldg, .mram]
  | .powerFailClear .. => within [.mt, .sums, .assume, .pwr, .met]
  | .supplyOutOfRange .. => within (recorded ++ [.prof, .assume, .pwr, .lat, .mkt, .saf, .role, .pair, .sbus]) [.link, .sample, .stall, .outlet, .bay]
  | .vin24Low .. => within (recorded ++ [.assume, .pwr, .lat, .mkt, .aux, .saf]) [.stall]
  | .vbatLow .. => within (recorded ++ [.clk, .pwr])
  | .junctionTempCheck .. => within (recorded ++ [.prof, .pwr, .lat, .mkt, .saf, .role, .pair, .sbus]) [.link, .sample, .stall, .outlet, .bay]
  | .tamper .. => within [.mt, .draws, .sums, .rtc, .met, .vault]
  | .rtcApply .. => within (accessed ++ [.rtc])
  | .ptpSync .. | .ptpFollowUp .. => within [.mt, .host, .rtc]
  | .ptpDelayResp .. => within (recorded ++ [.draws, .rtc])
  | .ptpAnnounce .. | .ptpSyncTimeout .. | .leapSecond .. => within [.mt, .sums, .rtc]
  | .clkClrCnt .. => within (accessed ++ [.clk])
  | .pwrClrCnt .. => within (accessed ++ [.pwr])
  | .generate .. | .load .. | .unload .. | .store .. | .delete .. | .attest .. | .lcAdvance .. => within (accessed ++ [.vault])
  | .remask .. => within [.mt, .met, .vault]
  | .chunkCommit .. => within (accessed ++ [.upd, .mram])
  | .abort .. | .raise .. | .actModeWrite .. => within (accessed ++ [.upd])
  | .apply .. => within (accessed ++ [.draws, .met, .saf, .vault, .upd])
  | .activationLead .. | .trialEnd .. | .floorRaise .. => within [.mt, .upd]
  | .activationSkip .. => within (recorded ++ [.upd])
  | .handoverActivationTimeout .. => within [.mt, .sums, .upd]
  | .ledgerRecordWrite .. => within [.mt, .sums, .queues, .ldg, .mram]
  | .snapshotRead .. => within [.mt, .queues]
  | .clrSys .. | .clrSaf .. => within (accessed ++ [.ldg])
  | .keyOpComplete .. => within [.mt, .draws, .sums, .met, .vault]
  | .tlsHandshake _ h => within (recorded ++ [.draws, .viol, .lat, .outlet h.bay, .bay h.bay, .mkt, .saf, .pair, .vault]) [.stall]
  | .bayPhyLink _ b .. => within [.mt, .sums, .bay b]
  | .dormantOutputRelease .. =>
    within (allBut [.draws, .lock, .answer, .viol, .host, .assume, .rtc, .stl, .thm, .vault, .upd, .ldg]) [.link, .sample, .stall, .outlet, .bay]
  | .vbatDomainLoss .. => within [.mt, .draws, .clk, .rtc, .vault]

/-! ## Terms of single statements -/

/-- No timer of the bay's session has run out at `t` (R223), nor the 100 ms in which its contactor is confirmed (R221), a feedback that is still in its
filter counted (R14). -/
def State.onTime (s : State) (t : Nat) (b : Fin 12) : Prop :=
  (∀ c, s.bays[b].outlet.commandAt = some c → t ≤ c + ms 100 ∨ s.bays[b].outlet.confirmed = true ∨ s.outletPending b (c + ms 100) = true) ∧
  (∀ d, s.bays[b].session.due = some d → t ≤ d) ∧ (∀ d, s.bays[b].session.seqDue = some d → t ≤ d) ∧ (∀ d, s.bays[b].session.loopDue = some d → t ≤ d)

/-- The response of a bay that `u` shows: the one that left, or in full pair with a pair key the one that waits for its
acknowledgement (R343). -/
def State.responseIn (s u : State) (b : Fin 12) : Option Resp :=
  if s.sessionKey.isSome then u.bays[b].heldResp else u.bays[b].resp

/-- ACTIVE_O is asserted in CLAIMING and in ACTIVE, and in no other role (R332, R335). -/
def State.outputFollowsRole (s : State) : Prop := s.pair.activeO = true ↔ s.pair.role = .claiming ∨ s.pair.role = .active

end Sys2Proof.Machine
end

