-- ==== Sys2Proof/Certificates/Slice0/Obligations.lean ====
section
/-! DEFINITION. The statements for the provers. A docstring that opens with rules names where the clauses come from; it does not say
that a rule is stated whole. The titles and the rules stated whole are in OBLIGATIONS.json. Four of the model's choices underlie the clauses in
which nothing or only market time changes: market time is the later of its value and the stamp (log 9), what no row of a table covers has no effect
(log 10), a timeout acts strictly after its deadline (log 11), and a module that is not live sees only time pass (log 13). -/
open Sys2Proof Sys2Proof.Machine

/-- One step takes the command at the front of the queue and runs it on the rest of the queue. -/
def Obligations.StepRunsFront : Prop :=
  ∀ (c : Instr) (rest : List Instr) (s : State), step { s with pending := c :: rest } = exec c { s with pending := rest }

/-- With no command waiting the block idles and nothing changes: the model's choice (assumption 1). -/
def Obligations.EmptyQueueIdles : Prop :=
  ∀ s : State, s.pending = [] → step s = .next s

/-- After power-on as manufactured: the reset values the register tables and the state machines of the chapters give. -/
def Obligations.ResetValues : Prop :=
  let s := State.reset
  s.pending = [] ∧ s.pwr.st = .ready ∧ s.pwr.rstCause = 0 ∧ s.pwr.wakeEn = 0x16 ∧ s.pair.role = .init ∧ s.pair.activeO = false ∧ s.lock.st = .locked ∧
  s.host.sum = Vector.replicate 16 0 ∧ s.host.viol.valid = false ∧ s.host.violCnt = 0 ∧ s.rtc.valid = false ∧ s.rtc.src = 0 ∧ s.running = false ∧
  (∀ n : Fin 64, s.stalls[n].st = .idle ∧ s.stalls[n].link.st = .off) ∧ (∀ b : Fin 12, s.bays[b].session.st = .idle) ∧
  (∀ k : Fin 16, s.saf.so[k].hs = false ∧ s.saf.so[k].ls = false) ∧ (∀ n : Fin 24, s.aux.ch[n].duty = 0 ∧ s.aux.ch[n].mode = 0) ∧
  (∀ p : Fin 3, s.ldg.parts[p].fill = 0 ∧ s.ldg.parts[p].seq = 0 ∧ s.ldg.parts[p].gen = 0 ∧ s.ldg.parts[p].full = false) ∧
  s.vault.lc = .provision ∧ s.upd.large.st = .empty ∧ s.upd.small.st = .empty ∧ s.upd.mode = 0 ∧ s.met.sealSt = .blank ∧ s.stl.armed = true ∧ s.stl.frozen = false

/-- ACTIVE_O follows the role and every memory is in canonical form in the state after power-on: where the two invariants start. -/
def Obligations.InvariantsAtReset : Prop :=
  State.reset.outputFollowsRole ∧ State.reset.memsWf = true

/-- Every command leaves every part of the state outside its reach as it was: the frame of all 253 commands. The queue of waiting
commands and what is fused lie in no reach. -/
def Obligations.CommandsStayInReach : Prop :=
  ∀ (c : Instr) (s u : State), exec c s = .next u → OnlyIn (reach c) s u ∧ u.pending = s.pending ∧ u.fuses = s.fuses

/-- From R332 and R335: whatever command runs, ACTIVE_O is asserted exactly in the roles CLAIMING and ACTIVE. -/
def Obligations.OutputFollowsRole : Prop :=
  ∀ s u : State, s.outputFollowsRole → step s = .next u → u.outputFollowsRole

/-- Every step keeps every sparse memory of the state in canonical form, so that equal contents are equal data. -/
def Obligations.MemoriesStayCanonical : Prop :=
  ∀ s u : State, s.memsWf = true → step s = .next u → u.memsWf = true

/-- Stores and loads of a memory in canonical form: a byte reads as it was last written, every other byte as before, a stored string
reads back whole, the form is kept, and two memories that read alike everywhere are equal. -/
def Obligations.MemoryLaws : Prop :=
  ∀ (m : Mem) (x : Nat), Memory.wf m = true →
    (∀ v y, memRead (memWrite m x v) y = if y = x then v else memRead m y) ∧
    (∀ b : Bytes, Memory.wf (memWrites m x b) = true ∧ memRange (memWrites m x b) x b.length = b ∧ ∀ y, y < x ∨ x + b.length ≤ y → memRead (memWrites m x b) y = memRead m y) ∧
    (∀ n, (memRange m x n).length = n ∧ ∀ i, i < n → (memRange m x n)[i]? = some (memRead m (x + i))) ∧
    (∀ b : Bytes, Memory.wf (memOf x b) = true ∧ memOf x b = memWrites [] x b) ∧
    (∀ w, Memory.wf w = true → (∀ y, memRead w y = memRead m y) → w = m)

/-- Of R99, R103, R340: what ends ALIGN, TRAIN, RUN and FAULT of a stall link; a module that may not train stays in ALIGN. Model's choices: log 115. -/
def Obligations.LinkSteps : Prop :=
  ∀ (s : State) (t : Nat) (n : Fin 64), s.live = true →
    let l := s.stalls[n].link
    let now := max s.mt t
    (l.st = .align → t ≤ l.entered + ms 1 → s.mayTrain = true →
      Completes (.linkAligned t n) s fun u => u.stalls[n].link.st = .train ∧ u.stalls[n].link.entered = now ∧ u.stalls[n].link.estimates = []) ∧
    (s.mayTrain = true ↔ s.pair.mode ≠ .full ∨ s.active = true ∨ s.pair.seljo.lock = true) ∧
    (s.mayTrain = false → exec (.linkAligned t n) s = .next (s.arrive t)) ∧
    (l.st = .align → l.entered + ms 1 < t →
      Completes (.alignTimeout t n) s fun u => u.stalls[n].link.st = .fault ∧ u.stalls[n].link.faultCode = 1 ∧ u.stalls[n].link.entered = now) ∧
    (l.st = .train → l.entered + ms 2 < t →
      Completes (.trainTimeout t n) s fun u => u.stalls[n].link.st = .fault ∧ u.stalls[n].link.faultCode = 2 ∧ u.stalls[n].link.entered = now) ∧
    (l.st = .run →
      Completes (.linkDownCode t n) s fun u =>
        u.stalls[n].link.st = .align ∧ u.stalls[n].link.faultCode = 8 ∧ u.stalls[n].link.evtDown = satInc 8 l.evtDown) ∧
    (l.st = .run → 64 ≤ l.silent →
      Completes (.linkDownSilent t n) s fun u =>
        u.stalls[n].link.st = .align ∧ u.stalls[n].link.faultCode = 9 ∧ u.stalls[n].link.evtDown = satInc 8 l.evtDown) ∧
    (l.st = .fault → l.entered + ms 100 ≤ t →
      Completes (.linkFaultRetry t n) s fun u => u.stalls[n].link.st = .align ∧ u.stalls[n].link.entered = now)

/-- Of R74, R101 to R103, R340: what a training reply does: one of the first three estimates continues the exchange, the fourth is judged,
and the reply that confirms it ends the training. Model's choices: logs 103, 104 and 115. -/
def Obligations.TrainingReplies : Prop :=
  ∀ (s : State) (t : Nat) (n : Fin 64) (suf : Nat) (clean : Bool) (b : Bytes), s.live = true →
    let l := s.stalls[n].link
    let r := trainReplyOf b
    let d : Int := -((-((suf : Int) - l.txTime - r.turnNs)) / 2)
    let es := l.estimates ++ [d]
    let then_ (P : State → Prop) : Prop := Completes (.trainingReply t n suf clean b) s P
    (frameOk 0x51 32 clean b = false → then_ fun u => u.stalls[n].link = { l with errCrc := satInc 16 l.errCrc }) ∧
    (frameOk 0x51 32 clean b = true → s.mayTrain = false → then_ fun u => u.stalls[n].link = l) ∧
    (frameOk 0x51 32 clean b = true → l.st = .train → r.tag = l.tag → t ≤ l.entered + ms 2 → s.mayTrain = true →
      (∀ c, replyRefusal s n r = some c → then_ fun u => u.stalls[n].link.st = .fault ∧ u.stalls[n].link.faultCode = c) ∧
      (replyRefusal s n r = none → l.confirming = true →
        then_ fun u => u.stalls[n].link.st = .run ∧ u.stalls[n].link.runFrom = s.nextBoundary (max s.mt t) ∧ u.stalls[n].link.iFs = r.iFs) ∧
      (replyRefusal s n r = none → l.confirming = false → l.estimates.length < 3 →
        then_ fun u => u.stalls[n].link.st = .train ∧ u.stalls[n].link.estimates = es ∧ u.stalls[n].link.confirming = false) ∧
      (replyRefusal s n r = none → l.confirming = false → 3 ≤ l.estimates.length →
        (∀ c, estimateRefusal s.cableM es = some c → then_ fun u => u.stalls[n].link.st = .fault ∧ u.stalls[n].link.faultCode = c) ∧
        (estimateRefusal s.cableM es = none → then_ fun u =>
          u.stalls[n].link.st = .train ∧ u.stalls[n].link.confirming = true ∧ u.stalls[n].link.delayNs = (maxInt es).toNat % 65536)))

/-- Of R99, R108, R111, R170, R176: the commands of STL.CTRL and STL.FB_CTRL of a stall. Model's choices: log 29. -/
def Obligations.StallCommands : Prop :=
  ∀ (s : State) (t : Nat) (m : Master) (n : Fin 64), s.live = true → s.serves m = true →
    let x := s.stalls[n]
    let l := x.link
    let now := max s.mt t
    (l.st = .fault → Completes (.retrain t m n) s fun u => u.stalls[n].link.st = .align ∧ u.stalls[n].link.entered = now ∧ u.host.answer = okAnswer) ∧
    (l.st ≠ .fault → Completes (.retrain t m n) s fun u => u.stalls[n].link = l ∧ u.host.answer = okAnswer) ∧
    (∀ on, Completes (.sleepReq t m n on) s fun u => u.stalls[n].link.sleepReq = on ∧ u.host.answer = okAnswer) ∧
    (l.st = .sleep → Completes (.sleepReq t m n false) s fun u => u.stalls[n].link.st = .align) ∧
    (l.st = .run → x.bay = none → s.slotOf n = none → (∀ p, x.up = some p → p.matrixFb = 0xF) → x.up.isSome = true →
      Completes (.sleepReq t m n true) s fun u => u.stalls[n].link.st = .sleep) ∧
    (∀ on, (on = true → l.capEn = false → s.capEnabled < 32) →
      Completes (.capEn t m n on) s fun u => u.stalls[n].link = { l with capEn := on } ∧ u.host.answer = okAnswer) ∧
    (l.capEn = false → 32 ≤ s.capEnabled →
      Completes (.capEn t m n true) s fun u => u.stalls[n].link = l ∧ u.host.answer = ⟨.denied, .state⟩) ∧
    (Completes (.stlClrCnt t m n) s fun u =>
      u.stalls[n].link = { l with errCrc := 0, errLate := 0, errTime := 0, evtHold := 0, evtTrip := 0, evtDown := 0 } ∧ u.host.answer = okAnswer) ∧
    (Completes (.clrFb t m n) s fun u =>
      u.stalls[n] = { x with cntCoastEnd := 0, cntFrozen := 0, cntLost := 0, stopsTotal := 0, stopsOc := 0, stopsOt := 0 } ∧ u.host.answer = okAnswer) ∧
    (x.st = .locked → Completes (.stallRelease t m n) s fun u => u.stalls[n].st = .stopped ∧ u.stalls[n].stamps = [] ∧ u.host.answer = okAnswer) ∧
    (x.st ≠ .locked → Completes (.stallRelease t m n) s fun u => u.stalls[n] = x ∧ u.host.answer = okAnswer)

/-- Of R74, R105, R109: the capture buffer stores frames until it freezes, and records again after ARM. Model's choices: logs 108 and 109. -/
def Obligations.CaptureBuffer : Prop :=
  ∀ (s : State) (t : Nat), s.live = true →
    (∀ m, s.serves m = true → s.stl.frozen = false →
      Completes (.capTrig t m) s fun u =>
        u.stl.frozen = true ∧ u.stl.armed = false ∧ u.stl.trigSrc = 1 ∧ u.stl.trigStall = 0xFF ∧ u.stl.cap = s.stl.cap ∧ u.host.answer = okAnswer) ∧
    (∀ m, s.serves m = true → s.stl.frozen = true → Completes (.capTrig t m) s fun u => u.stl = s.stl ∧ u.host.answer = okAnswer) ∧
    (∀ m, s.serves m = true →
      Completes (.capArm t m) s fun u => u.stl = { s.stl with frozen := false, armed := true } ∧ u.host.answer = okAnswer) ∧
    (∀ n scf clean b, frameOk 0x31 76 clean b = false →
      Completes (.captureFrame t n scf clean b) s fun u => u.stl = s.stl ∧ u.stalls[n].link.errCrc = satInc 16 s.stalls[n].link.errCrc) ∧
    (∀ n scf clean b, frameOk 0x31 76 clean b = true → s.stalls[n].link.st = .run → s.stalls[n].link.capEn = true → s.stl.frozen = false →
      Completes (.captureFrame t n scf clean b) s fun u =>
        u.stl.cap = (s.stl.cap.filter fun x => decide (scf ≤ x.at_ + 2000000)) ++ [⟨scf, n.val, 0x31, b.take 72⟩]) ∧
    (∀ n scf clean b, frameOk 0x31 76 clean b = true → s.stl.frozen = true →
      Completes (.captureFrame t n scf clean b) s fun u => u.stl = s.stl)

/-- Of R163, R165, R168, R169: a lost sample starts or continues a coast, and the pitch after COAST_N coasted ones ends it by the fast path. -/
def Obligations.Coasting : Prop :=
  ∀ (s : State) (t : Nat) (n : Fin 64), s.live = true →
    let x := s.stalls[n]
    let b := s.boundaryAt t
    (s.running = true → s.arrivalLimit b < t → s.pair.mode = .single ∨ s.active = true → s.shadowing = false → classified s n b = true →
      judged x b = false → ownHeld x b = false →
      Completes (.sampleLost t n) s fun u =>
        u.stalls[n].sample = .lost ∧ u.stalls[n].sampleAt = b ∧ u.stalls[n].cntLost = satInc 16 x.cntLost ∧
        u.stalls[n].link.silent = x.link.silent + 1 ∧ u.stalls[n].coasting = true ∧
        u.stalls[n].coastCnt = (if x.coasting = true then satInc 8 x.coastCnt else 1) ∧
        (x.coasting = false → x.stopReq = none → u.stalls[n].stopReq = some 2)) ∧
    (x.coasting = true → s.stl.coastN < x.coastCnt → x.coastEnd = false → x.st = .assigned ∨ x.st = .stopping →
      Completes (.coastExhausted t n) s fun u =>
        u.stalls[n].st = .stopping ∧ u.stalls[n].gatedOut = true ∧ u.stalls[n].matrix = none ∧ u.stalls[n].coastEnd = true ∧
        u.stalls[n].cause = (if x.gatedOut = true ∧ x.cause ≠ 2 ∧ x.cause ≠ 3 then x.cause else 4) ∧
        (∀ c : Fin 8, u.stalls[n].cells[c].st = .off ∧ u.stalls[n].cells[c].w = 0) ∧
        u.stalls[n].cntCoastEnd = satInc 8 x.cntCoastEnd ∧ u.stl.frozen = true) ∧
    (x.coasting = false ∨ x.coastEnd = true → Completes (.coastExhausted t n) s fun u => u.stalls = s.stalls)

/-- The whole of R161, a SHED_HI below 2 × SHED_LO is refused with status DENIED; and of R158, R159, R170, R172, R174: the timed steps of
cells and stalls. -/
def Obligations.StallTimers : Prop :=
  ∀ (s : State) (t : Nat) (n : Fin 64), s.live = true →
    let x := s.stalls[n]
    let now := max s.mt t
    (∀ c, cellDone x.cells[c] = true → Completes (.cellRampEnd t n c) s fun u => u.stalls[n].cells[c] = cellEnd x.cells[c]) ∧
    (∀ (b : Fin 12) r k c, s.stl.shedEn.testBit b.val = true → s.stl.shedHold ≤ s.mkt.lightTicks[b] → s.bayCellsMoving b = false →
      pickShed (shedCandidates s b) = some (r, k, c) →
      Completes (.shedDecision t b) s fun u =>
        u.stalls[k].cells[c] = cellFall .shedding (8 * s.stl.shedRamp) s.stalls[k].cells[c] ∧ u.mkt.lightTicks[b] = 0) ∧
    (x.st = .idle → x.link.tripped = true → 100 ≤ x.rearmTicks → x.stopReq = none →
      Completes (.rearmLimit t n) s fun u => u.stalls[n] = { x with stopReq := some 5 }) ∧
    (∀ d, x.openDue = some d → x.st = .stopping → d < t →
      Completes (.stopOpenTimeout t n) s fun u =>
        u.stalls[n].st = .locked ∧ u.stalls[n].cause = 9 ∧ u.stalls[n].bay = none ∧ u.stalls[n].matrix = none ∧ u.stalls[n].gatedOut = true) ∧
    (x.st = .stopped → mayRestart t x = true → (liveStamps (s.arrive t) x).length < s.stl.restartMax →
      Completes (.restElapsed t n) s fun u => u.stalls[n].st = .idle ∧ u.stalls[n].bay = none) ∧
    (x.st = .stopped → mayRestart t x = true → s.stl.restartMax ≤ (liveStamps (s.arrive t) x).length →
      Completes (.restElapsed t n) s fun u => u.stalls[n].st = .locked ∧ u.stalls[n].cause = x.cause) ∧
    (∀ (m : Master) (v : Word), s.serves m = true → v.toNat / 256 % 256 < 2 * (v.toNat % 256) →
      exec (.registerWrite t m 0x00240108 v) s = .next { s.arrive t with host := { s.host with answer := deny .range } })

/-- Of R201, R204: a close that is not confirmed in time goes on as a release, and an open that is not confirmed locks the stall. -/
def Obligations.MoveTimeouts : Prop :=
  ∀ (s : State) (t : Nat) (k : Fin 8) (n : Fin 64) (d : Nat), s.live = true →
    let m := s.mkt.moves[k]
    m.stall = n.val → m.deadline = some d → d < t →
    (∀ b, m.phase = .closing → m.dst = some b →
      Completes (.moveCloseTimeout t k) s fun u =>
        u.mkt.moves[k] = { m with phase := .opening, src := none, dst := none, serves := b, deadline := none, failed := true } ∧
        u.stalls[n] = { s.stalls[n] with matrix := none, reachFault := setBit s.stalls[n].reachFault b } ∧
        u.mkt.closeFail = satInc 8 s.mkt.closeFail) ∧
    (m.phase = .opening →
      Completes (.moveOpenTimeout t k) s fun u => u.mkt.moves[k].phase = .free ∧ u.stalls[n].st = .locked ∧ u.stalls[n].cause = 9)

/-- Of R74, R85, R109: which uplink pitch frames are usable, and what a usable one leaves. -/
def Obligations.UplinkFrames : Prop :=
  ∀ (s : State) (t : Nat) (n : Fin 64) (suf : Nat) (clean : Bool) (b : Bytes), s.live = true →
    let x := s.stalls[n]
    let q := s.boundaryAt t
    let f := uplinkOf b
    let then_ (P : State → Prop) : Prop := Completes (.uplinkPitchFrame t n suf clean b) s P
    (frameOk 0x21 32 clean b = false → then_ fun u => u.stalls[n] = { x with link := { x.link with errCrc := satInc 16 x.link.errCrc } }) ∧
    (frameOk 0x21 32 clean b = true → s.running = true → s.pair.mode = .single ∨ s.active = true → x.link.st = .run → x.link.runFrom ≤ q →
      (f.sampleTime = q % 2 ^ 24 → s.arrivalLimit q < t →
        then_ fun u => u.stalls[n] = { x with link := { x.link with errLate := satInc 8 x.link.errLate } }) ∧
      (f.sampleTime ≠ q % 2 ^ 24 → s.pitchNs ≤ q → f.sampleTime = (q - s.pitchNs) % 2 ^ 24 →
        then_ fun u => u.stalls[n] = { x with link := { x.link with errLate := satInc 8 x.link.errLate } }) ∧
      (f.sampleTime ≠ q % 2 ^ 24 → ¬(s.pitchNs ≤ q ∧ f.sampleTime = (q - s.pitchNs) % 2 ^ 24) → t ≤ s.arrivalLimit q →
        then_ fun u => u.stalls[n] = { x with link := { x.link with errTime := satInc 8 x.link.errTime } }) ∧
      (f.sampleTime = q % 2 ^ 24 → t ≤ s.arrivalLimit q → s.shadowing = false → s.shadowOwed q = false → judged x q = false →
        then_ fun u =>
          u.stalls[n].up = some f ∧ u.stalls[n].upAt = q ∧ u.stalls[n].sampleAt = q ∧ (u.stalls[n].sample = .good ∨ u.stalls[n].sample = .frozen) ∧
          (s.stl.frozen = false → u.stl.cap = (s.stl.cap.filter fun r => decide (suf ≤ r.at_ + 2000000)) ++ [⟨suf, n.val, 0x21, b.take 28⟩])))

/-- Of R205, R207, R351: a policy word changes the shadow only, COMMIT and DISCARD copy it to and from the committed set, CLR_CNT clears the counters.
Model's choices: logs 24 and 52. -/
def Obligations.MarketPolicy : Prop :=
  ∀ (s : State) (t : Nat) (m : Master), s.live = true → s.serves m = true →
    let now := max s.mt t
    (∀ (off : Nat) (v : Word) (p : Policy), polSet s.mkt.shadow off v.toNat = some p →
      (s.active = true → polOk s.prof.image p off = true →
        Completes (.policyWrite t m (0x00400000 + off) v) s fun u => u.mkt = { s.mkt with shadow := p } ∧ u.host.answer = okAnswer) ∧
      (s.active = true → polOk s.prof.image p off = false →
        Completes (.policyWrite t m (0x00400000 + off) v) s fun u => u.mkt = s.mkt ∧ u.host.answer = ⟨.denied, .range⟩) ∧
      (s.active = false → Completes (.policyWrite t m (0x00400000 + off) v) s fun u => u.mkt = s.mkt ∧ u.host.answer = ⟨.denied, .role⟩)) ∧
    (s.pwr.pfw = false → 124 ≤ s.mram.policy ∨ 124 ≤ s.spareFor 3 →
      Completes (.policyCommit t m) s fun u =>
        u.mkt = { s.mkt with committed := s.mkt.shadow, commitAt := some now, commitDue := none } ∧ u.host.answer = okAnswer) ∧
    (s.pwr.pfw = false → s.mram.policy < 124 → s.spareFor 3 < 124 →
      Completes (.policyCommit t m) s fun u => u.mkt = { s.mkt with commitDue := some s.mkt.shadow } ∧ u.host.answer = okAnswer) ∧
    (s.pwr.pfw = true → Completes (.policyCommit t m) s fun u => u.mkt = s.mkt ∧ u.host.answer = ⟨.busy, .mram⟩) ∧
    (Completes (.policyDiscard t m) s fun u => u.mkt = { s.mkt with shadow := s.mkt.committed } ∧ u.host.answer = okAnswer) ∧
    (Completes (.mktClrCnt t m) s fun u => u.mkt = { s.mkt with movesDone := 0, closeFail := 0, shortEvt := 0 } ∧ u.host.answer = okAnswer)

/-- Of R22, R177, R178: what a tick start takes over, and what is committed 250 µs later, with no word of what the clearing computes.
Model's choices: logs 70 and 105. -/
def Obligations.MarketTick : Prop :=
  ∀ (s : State) (t : Nat), s.live = true →
    (∀ rd, t % 1000000 = 0 →
      Completes (.tickStart t rd) s fun u =>
        u.met = { s.met with taken := s.met.commit } ∧ u.mkt.stepSeen = 0 ∧ u.stl.bayStops = 0 ∧
        (∀ n : Fin 64, u.stalls[n].loadSum = 0 ∧ u.stalls[n].loadMax = 0) ∧
        (∀ p, s.prof.pend = some p → p.mode = .live → p.tickDone = none → p.since < t → s.refreshMissed t = false →
          u.prof.pend = some { p with tickDone := some t })) ∧
    (∀ rd, t % 1000000 ≠ 0 → Completes (.tickStart t rd) s fun u => u = s.arrive t) ∧
    (∀ r, s.mkt.result = some r → r.at_ + 250000 ≤ t → s.refreshMissed t = false →
      Completes (.clearingCommit t) s fun u =>
        u.mkt.result = none ∧ u.mkt.limits = r.limits ∧ u.mkt.stale = r.stale ∧ u.mkt.short = r.short ∧
        (∀ b : Fin 12, { u.mkt.bays[b] with relCount := r.bays[b].relCount } = r.bays[b]) ∧
        u.mkt.env = r.env ∧ u.mkt.envRate = r.envRate ∧ u.mkt.envX = r.envX ∧ u.mkt.envXRate = r.envXRate) ∧
    (∀ r, s.mkt.result = some r → t < r.at_ + 250000 → s.refreshMissed t = false → Completes (.clearingCommit t) s fun u => u = s.arrive t)

/-- Of R22, R132, R135, R333, R345, R519: what passes at a pitch boundary, at the opening of the compute window and at its deadline. Model's choices: log 70. -/
def Obligations.PitchSteps : Prop :=
  ∀ (s : State) (t : Nat), s.live = true →
    (s.running = true → t % s.pitchNs = 0 → s.prof.gridFrom ≤ t →
      Completes (.pitchBoundary t) s fun u =>
        (∀ (n : Fin 64) (f : Downlink), (s.stallRec n).isSome = true → s.stalls[n].frame = some f → f.boundary = t → u.stalls[n].applied = some f) ∧
        (∀ (n : Fin 64) (f : Downlink), s.stalls[n].frame = some f → f.boundary ≠ t → u.stalls[n].applied = s.stalls[n].applied) ∧
        (∀ b : Fin 12, s.saf.stops[b].st = .gating → s.saf.stops[b].gated = true → u.saf.stops[b].st = .opening)) ∧
    (t % s.pitchNs ≠ 0 → Completes (.pitchBoundary t) s fun u => u = s.arrive t) ∧
    (∀ b, t = b + s.openNs → s.running = true → b % s.pitchNs = 0 → s.prof.gridFrom ≤ b → s.active = true ∨ s.pair.mode = .single →
      (s.lat.windowOpen = true → s.lat.pitch ≠ b) → s.refreshMissed t = false →
      Completes (.computeWindowOpen t) s fun u =>
        u.lat.windowOpen = true ∧ u.lat.pitch = b ∧ u.lat.shadow = false ∧ u.lat.openAt = t ∧ ∀ w ∈ u.lat.sup, t < w.at_) ∧
    (s.refreshMissed t = true → s.pair.mode ≠ .single →
      Completes (.computeWindowOpen t) s fun u => u.pair.role = .unfit ∧ u.pair.activeO = false ∧ u.pair.lastCause = 1) ∧
    (∀ img ecc miscounted, s.prof.image = some img → s.lat.windowOpen = true → s.lat.shadow = false → s.lat.pitch + s.closeNs ≤ t →
      s.upd.large.st ≠ .activating → s.refreshMissed t = false →
      Completes (.computeDeadline t ecc miscounted) s fun u =>
        u.lat.windowOpen = false ∧ u.lat.tiles = mergeLanes s.lat.tiles ((List.range 8).map fun l => runLane (s.arrive t) img ecc miscounted l)) ∧
    (∀ ecc miscounted, s.lat.windowOpen = true → s.lat.shadow = false → t < s.lat.pitch + s.closeNs → s.refreshMissed t = false →
      Completes (.computeDeadline t ecc miscounted) s fun u => u = s.arrive t)

/-- Of R31, R55, R56, R142: what the profile windows and the commands of SYS.PROF_CTRL do, and which refusals come first. Model's choices: log 111. -/
def Obligations.ProfileCommands : Prop :=
  ∀ (s : State) (t : Nat) (m : Master) (p : Fin 4), s.live = true → s.serves m = true →
    let x := s.prof.slots[p]
    let held := x.st = .active ∨ x.st = .pending ∨ x.st = .checking
    (∀ (off : Nat) (v : Word), off % 4 = 0 → off < 0x100000 →
      (¬held → s.slotRoom 4 = true →
        Completes (.profileWindowWrite t m (0x01000000 + p.val * 0x100000 + off) v) s fun u =>
          u.prof.slots[p].st = .loading ∧ u.prof.slots[p].mem = memWrites x.mem off (leBytes 4 v.toNat) ∧ u.host.answer = okAnswer) ∧
      (held → Completes (.profileWindowWrite t m (0x01000000 + p.val * 0x100000 + off) v) s fun u =>
          u.prof = s.prof ∧ u.host.answer = ⟨.locked, .none⟩)) ∧
    (∀ md : Fin 4, md.val < 3 →
      (x.st ≠ .empty → x.st ≠ .active → s.prof.check = none → s.prof.pend = none →
        Completes (.check t m p md) s fun u => u.prof.slots[p].st = .checking ∧ u.prof.check.map (·.slot) = some p ∧ u.host.answer = okAnswer) ∧
      (x.st = .empty → Completes (.check t m p md) s fun u =>
        u.prof.slots = s.prof.slots ∧ u.prof.errCode = 0x30 ∧ u.host.answer = ⟨.denied, .state⟩) ∧
      (¬held → s.pwr.pfw = false →
        Completes (.erase t m p md) s fun u => u.prof.slots[p].st = .empty ∧ u.prof.slots[p].mem = [] ∧ u.host.answer = okAnswer) ∧
      (held → Completes (.erase t m p md) s fun u => u.prof.slots = s.prof.slots ∧ u.host.answer = ⟨.locked, .none⟩) ∧
      (∀ q, s.prof.pend = some q →
        (q.mode ≠ .live ∨ s.lat.copying = false → Completes (.cancel t m p md) s fun u =>
          u.prof.pend = none ∧ u.prof.errCode = 0x34 ∧ u.prof.slots[q.slot].st = .valid ∧ u.lat.swapPend = 0 ∧ u.host.answer = okAnswer) ∧
        (q.mode = .live → s.lat.copying = true → Completes (.cancel t m p md) s fun u =>
          u.prof.pend = some q ∧ u.prof.slots = s.prof.slots ∧ u.lat = s.lat ∧ u.host.answer = okAnswer)) ∧
      (s.prof.pend = none → Completes (.cancel t m p md) s fun u => u.prof.slots = s.prof.slots ∧ u.host.answer = okAnswer)) ∧
    (x.st ≠ .empty → x.st ≠ .active → s.prof.check = none → s.prof.pend = none → s.energisedMask = 0 → s.moveInFlight = false → s.logFull = false →
      Completes (.activate t m p 0) s fun u =>
        u.prof.slots[p].st = .checking ∧ u.prof.check.bind (·.activate) = some .stopped ∧ u.prof.holdSessions = true ∧ u.host.answer = okAnswer) ∧
    (x.st ≠ .empty → x.st ≠ .active → s.prof.check = none → s.prof.pend = none → s.energisedMask ≠ 0 ∨ s.moveInFlight = true →
      Completes (.activate t m p 0) s fun u => u.prof.slots = s.prof.slots ∧ u.prof.errCode = 0x31 ∧ u.host.answer = ⟨.denied, .state⟩) ∧
    (x.st ≠ .empty → x.st ≠ .active → s.prof.check = none → s.prof.pend = none → s.running = false →
      Completes (.activate t m p 1) s fun u => u.prof.slots = s.prof.slots ∧ u.prof.errCode = 0x32 ∧ u.host.answer = ⟨.denied, .state⟩)

/-- Of R50, R55, R61, R66, R142, R145, R355: how a check and a pending change end, and what a switch leaves. Model's choices: logs 105 and 111. -/
def Obligations.ProfileEnds : Prop :=
  ∀ (s : State) (t : Nat), s.live = true →
    (∀ c, s.prof.check = some c → t ≤ c.started + ms 60 →
      (∀ e, checkSlot (s.arrive t) c.unlocked c.slot = .error e →
        Completes (.checkComplete t) s fun u =>
          u.prof.slots[c.slot].st = .invalid ∧ u.prof.slots[c.slot].lastCode = e.code ∧ u.prof.errCode = e.code ∧ u.prof.check = none) ∧
      (∀ img, checkSlot (s.arrive t) c.unlocked c.slot = .ok img → c.activate = none →
        Completes (.checkComplete t) s fun u => u.prof.slots[c.slot].st = .valid ∧ u.prof.slots[c.slot].lastCode = 0 ∧ u.prof.check = none) ∧
      (∀ img, checkSlot (s.arrive t) c.unlocked c.slot = .ok img → c.activate = some .stopped →
        Completes (.checkComplete t) s fun u =>
          u.prof.slots[c.slot].st = .pending ∧ u.prof.check = none ∧
          ∃ p, u.prof.pend = some p ∧ p.slot = c.slot ∧ p.mode = .stopped ∧ p.image = img ∧ p.since = max s.mt t)) ∧
    (∀ c, s.prof.check = some c → c.started + ms 60 < t →
      Completes (.checkTimeout t) s fun u => u.prof.slots[c.slot].st = .invalid ∧ u.prof.errCode = 0x2F ∧ u.prof.check = none) ∧
    (∀ p, s.prof.pend = some p → p.since + ms 100 < t → p.mode ≠ .live ∨ s.lat.copying = false →
      Completes (.pendingTimeout t) s fun u => u.prof.slots[p.slot].st = .valid ∧ u.prof.errCode = 0x33 ∧ u.prof.pend = none) ∧
    (∀ p, s.prof.pend = some p → p.since + ms 100 < t → p.mode ≠ .live ∨ s.lat.copying = false →
      Completes (.profileSwitch t) s fun u => u.prof.slots[p.slot].st = .valid ∧ u.prof.errCode = 0x33 ∧ u.prof.pend = none) ∧
    (∀ p, s.prof.pend = some p → p.mode = .stopped → t % 1000000 = 0 → p.since < t → t ≤ p.since + ms 100 →
      Completes (.profileSwitch t) s fun u =>
        u.prof.active = some p.slot ∧ u.prof.image = some p.image ∧ u.prof.pend = none ∧ u.prof.slots[p.slot].st = .active ∧
        u.prof.gridFrom = roundUpTo p.image.header.pitchNs (max s.mt t) ∧ u.prof.switchCount = wrapInc 16 s.prof.switchCount ∧
        u.lat.tiles = loadTiles p.image) ∧
    (∀ p q, s.prof.pend = some p → p.mode = .live → p.tickDone = some q → q ≤ t → s.windowStart t = true →
      t ≤ p.since + ms 100 ∨ s.lat.copying = true →
      Completes (.profileSwitch t) s fun u =>
        u.prof.active = some p.slot ∧ u.prof.image = some p.image ∧ u.prof.pend = none ∧ u.prof.slots[p.slot].st = .active ∧
        u.prof.switchCount = wrapInc 16 s.prof.switchCount ∧ u.lat.tiles = liveTiles p.image s.lat.tiles ∧
        u.lat.swapCount = satInc 16 s.lat.swapCount) ∧
    (∀ p q, s.prof.pend = some p → p.mode = .live → p.tickDone = some q → t < q ∨ s.windowStart t = false →
      t ≤ p.since + ms 100 ∨ s.lat.copying = true →
      exec (.profileSwitch t) s = .next (s.arrive t)) ∧
    (∀ p q, s.prof.pend = some p → p.mode = .handover → p.loaded = some q → q + 1000000 ≤ t → s.pair.mode = .full → s.active = true →
      s.lat.windowOpen = false → t ≤ p.since + ms 100 →
      Completes (.profileHandoverRelease t) s fun u =>
        u.prof.active = some p.slot ∧ u.prof.image = some p.image ∧ u.prof.pend = none ∧ u.prof.slots[p.slot].st = .active ∧
        u.prof.switchCount = wrapInc 16 s.prof.switchCount ∧ u.pair.role = .standby ∧ u.pair.activeO = false)

/-- Of R213, R218, R219, R220, R221, R223: how a session begins and how it is authorised. Model's choices: logs 59, 114, 117 and 119. -/
def Obligations.SessionSetup : Prop :=
  ∀ (s : State) (t : Nat) (b : Fin 12), s.live = true → s.active = true → (s.bayRec b).isSome = true → s.onTime t b →
    s.bays[b].session.doomed = false →
    let x := s.bays[b]
    let q := x.session
    let now := max s.mt t
    (q.st = .connected → Completes (.sdpRequest t b) s fun u =>
      u.bays[b].session.st = .setup ∧ u.bays[b].session.entered = now ∧ u.bays[b].sessions = satInc 16 x.sessions ∧
      s.responseIn u b = some { name := .sdp, code := .finished, tls := true }) ∧
    (∀ h : TlsHello, h.bay = b → q.st = .setup → q.tls = false →
      let right := h.tls13 = true ∧ h.aes256Gcm = true ∧ (h.secp384r1 = true ∨ h.secp256r1 = true) ∧ (s.arrive t).anyKey .marketSup 8 ≠ none
      (right → Completes (.tlsHandshake t h) s fun u =>
        u.bays[b].session = { q with tls := true, secrets := (s.drawBytes 96).1, tcpIn := 0, tcpOut := 0 }) ∧
      (¬right → x.energised = false → Completes (.tlsHandshake t h) s fun u =>
        u.bays[b].session.st = .ended ∧ u.bays[b].session.tls = false ∧ u.bays[b].errTls = satInc 8 x.errTls ∧
        u.bays[b].session.endCode = if q.endCode = 0 ∨ q.codeOld = true then 0x14 else q.endCode)) ∧
    (q.st = .setup → q.tls = true →
      (q.protocol = false → Completes (.supportedAppProtocolReq t b true) s fun u =>
        u.bays[b].session.protocol = true ∧ s.responseIn u b = some { name := .supportedAppProtocol, code := .finished }) ∧
      (q.protocol = true → q.sessionSetup = false → Completes (.sessionSetupReq t b true) s fun u =>
        u.bays[b].session.sessionSetup = true ∧ u.bays[b].session.id = (s.drawBytes 16).1 ∧
        s.responseIn u b = some { name := .sessionSetup, code := .finished }) ∧
      (q.sessionSetup = true → x.eimEn = true → x.eimAuto = true → Completes (.authorizationReq t b true .eim) s fun u =>
        u.bays[b].session.st = .parameters ∧ u.bays[b].session.auth = 1 ∧ s.responseIn u b = some { name := .authorization, code := .finished }) ∧
      (q.sessionSetup = true → x.eimEn = true → x.eimAuto = false → Completes (.authorizationReq t b true .eim) s fun u =>
        u.bays[b].session.st = .authorising ∧ u.bays[b].session.authPend = true ∧ u.bays[b].session.due = some (now + secs x.authS) ∧
        s.responseIn u b = some { name := .authorization, code := .ongoing })) ∧
    (q.st = .setup → q.tls = true → x.energised = false → Completes (.sessionSetupReq t b false) s fun u =>
      u.bays[b].session.st = .closing ∧ u.bays[b].errMsg = satInc 16 x.errMsg ∧ s.responseIn u b = some { name := .sessionSetup, code := .failed })

/-- Of R214, R215, R216, R217, R220, R226, R227, R228, R231: the messages of a session from PARAMETERS to CLOSING. Model's choices: logs 54, 58,
117, 118 and 119. -/
def Obligations.SessionMessages : Prop :=
  ∀ (s : State) (t : Nat) (b : Fin 12) (r : BayRec), s.live = true → s.active = true → s.bayRec b = some r → s.onTime t b →
    s.bays[b].session.doomed = false → s.bays[b].session.tls = true →
    let x := s.bays[b]
    let q := x.session
    let now := max s.mt t
    let code (c : Nat) : Nat := if q.endCode = 0 ∨ q.codeOld = true then c else q.endCode
    let answers (u : State) (p : Resp) : Prop := s.responseIn u b = some p
    (q.st = .parameters →
      (Completes (.parameterReq t b true .serviceDiscovery) s fun u =>
        u.bays[b].session.stages = { q.stages with discovered := true } ∧
        answers u { name := .parameters, code := .finished, services := offeredServices r }) ∧
      (∀ mode, q.stages.discovered = true → mode ≠ .none → Completes (.parameterReq t b true (.serviceSelection .dc mode)) s fun u =>
        u.bays[b].session.mode = mode ∧ u.bays[b].session.bpt = false ∧ u.bays[b].session.st = .parameters ∧
        answers u { name := .parameters, code := .finished }) ∧
      (∀ mode, q.stages.discovered = true → Completes (.parameterReq t b true (.serviceSelection .other mode)) s fun u =>
        u.bays[b].session.st = .closing ∧ u.bays[b].session.endCode = code 0x06 ∧ answers u { name := .parameters, code := .unsupported }) ∧
      (q.stages.parameters = true → Completes (.parameterReq t b true (.scheduleExchange none)) s fun u =>
        ∃ o : List (List Nat), o.length ≤ 3 ∧ (∀ x ∈ o, x.length ≤ 24 ∧ ∀ w ∈ x, w ≤ s.offerCap b r q.ev) ∧
          u.bays[b].session.offers = o ∧ u.bays[b].session.stages = { q.stages with scheduled := true } ∧
          answers u { name := .parameters, code := .finished, offers := o }) ∧
      (∀ i j w, q.stages.scheduled = true → (q.offers.getD i [])[j]? = some w →
        Completes (.parameterReq t b true (.scheduleExchange (some (i, j)))) s fun u =>
          u.bays[b].session.schedule = some w ∧ answers u { name := .parameters, code := .finished }) ∧
      (q.stages.scheduled = true → s.insulationBad b = false → Completes (.dcCableCheckReq t b true) s fun u =>
        u.bays[b].session.st = .cableCheck ∧ u.bays[b].session.vcc = min q.ev.vMax r.vMax ∧ u.bays[b].outlet.close = true ∧
        answers u { name := .cableCheck, code := .ongoing })) ∧
    (q.st = .cableCheck →
      (∀ h, q.holdDue = some h → h ≤ t → s.insulationBad b = false →
        Completes (.ccHoldElapsed t b) s fun u => u.bays[b] = { x with session := { q with checkOk := true } }) ∧
      (q.checkOk = true → Completes (.dcCableCheckReq t b true) s fun u =>
        u.bays[b].session.checkAnswered = true ∧ u.bays[b].session.st = .cableCheck ∧ answers u { name := .cableCheck, code := .finished, isolationValid := true }) ∧
      (∀ d : Dec, q.checkAnswered = true → 0 ≤ d.value → Completes (.dcPreChargeReq t b true d) s fun u =>
        u.bays[b].session.st = .precharge ∧ u.bays[b].session.bid = followAsk q.bid (checkBid (decAbs d)) ∧
        u.bays[b].session.target = min (clampNat r.vMin r.vMax (decAbs d)) q.ev.vMax ∧
        answers u { name := .preCharge, code := .finished, presentV := s.exactVolts b })) ∧
    (q.st = .precharge → Completes (.powerDeliveryReq t b true true) s fun u =>
      u.bays[b].session.st = .power ∧ u.bays[b].session.entered = now ∧ answers u { name := .powerDelivery, code := .finished }) ∧
    (q.st = .power →
      (Completes (.powerDeliveryReq t b true false) s fun u =>
        u.bays[b].session.st = .rampDown ∧ u.bays[b].session.endCode = code 0x10 ∧ u.bays[b].session.bid = followAsk q.bid {} ∧
        u.bays[b].session.target = 0 ∧ answers u { name := .powerDelivery, code := .finished }) ∧
      (∀ req e, evLimits req = some e → Completes (.chargeLoopReq t b true req) s fun u =>
        u.bays[b].session.ev = e ∧ u.bays[b].session.st = .power ∧
        ∃ p, answers u p ∧ p.name = .chargeLoop ∧ p.code = .finished ∧ p.presentV = s.exactVolts b ∧ p.maxP = s.mkt.bays[b].grant ∧
          ∀ m, s.met.taken = some m → p.presentI = wd m.bayI b.val)) ∧
    (q.st = .rampDown ∨ q.st = .weldCheck → Completes (.weldingDetectionReq t b true) s fun u =>
      u.bays[b].session.st = q.st ∧ answers u { name := .weldingDetection, code := .finished, presentV := s.exactVolts b }) ∧
    (q.st = .weldCheck → x.outlet.confirmedOpen = true → q.tlsFailed = false → Completes (.sessionStopReq t b true) s fun u =>
      u.bays[b].session.st = .closing ∧ u.bays[b].session.due = some (now + secs 5) ∧ answers u { name := .sessionStop, code := .finished }) ∧
    (q.st = .weldCheck → x.outlet.confirmedOpen = false → Completes (.sessionStopReq t b true) s fun u =>
      u.bays[b].session = { q with stopAsked := true, tcpIn := wrapInc 32 q.tcpIn, seqDue := none, loopDue := none })

/-- Of R220, R221, R223, R224: where the timers of a session take it, and what its contactor, its connection and the host do to it. Model's choices: logs
54 and 56. -/
def Obligations.SessionTimeouts : Prop :=
  ∀ (s : State) (t : Nat) (b : Fin 12) (d : Nat), s.live = true → s.active = true → (s.bayRec b).isSome = true → s.bays[b].session.doomed = false →
    d < t →
    let x := s.bays[b]
    let q := x.session
    let now := max s.mt t
    let code (c : Nat) : Nat := if q.endCode = 0 ∨ q.codeOld = true then c else q.endCode
    let goes (u : State) (st : SessSt) (c : Nat) : Prop := u.bays[b].session.st = st ∧ u.bays[b].session.entered = now ∧ u.bays[b].session.endCode = code c
    (q.due = some d →
      (q.st = .connected → Completes (.noSdp t b) s fun u => goes u .ended 0x01 ∧ u.bays[b].outlet.close = false) ∧
      (q.st = .setup → Completes (.setupTimeout t b) s fun u => goes u .ended 0x02) ∧
      (q.st = .authorising → Completes (.authTimeout t b) s fun u => goes u .closing 0x05) ∧
      (q.st = .cableCheck → Completes (.ccTimeout t b) s fun u => goes u .rampDown 0x07 ∧ u.bays[b].session.target = 0) ∧
      (q.st = .precharge → Completes (.preTimeout t b) s fun u => goes u .rampDown 0x09) ∧
      (q.st = .rampDown → Completes (.rampTimeout t b) s fun u => goes u .fault 0x13 ∧ u.bays[b].faults = satInc 8 x.faults) ∧
      (q.st = .closing → Completes (.closingTimeout t b) s fun u => u.bays[b].session.st = .ended ∧ u.bays[b].session.endCode = q.endCode) ∧
      (q.st = .fault → Completes (.faultHoldTimeout t b) s fun u => u.bays[b].session.st = .ended ∧ u.bays[b].session.endCode = q.endCode)) ∧
    (q.loopDue = some d → q.st = .power → Completes (.loopTimeout t b) s fun u => goes u .rampDown 0x0A) ∧
    (q.seqDue = some d →
      (q.st = .parameters → x.energised = false → Completes (.seqTimeout t b) s fun u => goes u .closing 0x03) ∧
      (q.st = .weldCheck → Completes (.seqTimeout t b) s fun u => goes u .closing 0x03)) ∧
    (x.outlet.commandAt = some d → d + ms 100 < t → x.outlet.confirmed = false → s.outletPending b (d + ms 100) = false → q.st ≠ .idle → q.st ≠ .fault →
      Completes (.contactorTimeout t b) s fun u => goes u .fault 0x0E) ∧
    (s.onTime t b →
      (q.st = .setup → q.tls = false → x.energised = false → Completes (.tlsFailure t b .handshake) s fun u =>
        goes u .ended 0x14 ∧ u.bays[b].errTls = satInc 8 x.errTls) ∧
      (q.st = .power → q.tls = true → x.energised = true → Completes (.tlsFailure t b .broken) s fun u => goes u .rampDown 0x14) ∧
      (q.st = .closing → q.tls = true → q.stopAsked = true → Completes (.tlsFailure t b .broken) s fun u =>
        u.bays[b].session.st = .ended ∧ u.bays[b].session.endCode = q.endCode))

/-- Of R208, R219, R220, R221, R232: the contacts of a bay, the link of its PHY and the commands of BAY.CTRL. -/
def Obligations.BayCommands : Prop :=
  ∀ (s : State) (t : Nat) (m : Master) (b : Fin 12), s.live = true →
    let x := s.bays[b]
    let q := x.session
    let code (c : Nat) : Nat := if q.endCode = 0 ∨ q.codeOld = true then c else q.endCode
    (∀ up k, Completes (.bayPhyLink t b ⟨up, k⟩) s fun u => u.bays[b] = { x with errPhy := min 255 (x.errPhy + k), pilot := { x.pilot with phyUp := up } }) ∧
    (∀ (l : List PilotSample) (p : PilotSample), l[b.val]? = some p → s.nearRoleChange t = false →
      (s.active = false → Completes (.ceIdSample t l) s fun u => u.bays[b] = { x with pilot := pilotSample x.ceDeb x.pilot p }) ∧
      (s.active = true → (s.bayRec b).isSome = true → q.st = .idle → (pilotSample x.ceDeb x.pilot p).ce = .connected →
        (pilotSample x.ceDeb x.pilot p).id = .valid → s.sessionsOpen b = true →
        Completes (.ceIdSample t l) s fun u =>
          u.bays[b].session.st = .connected ∧ u.bays[b].session.due = some (max s.mt t + secs 20) ∧ u.bays[b].session.endCode = 0 ∧
          u.bays[b].mac = s.macBase + b.val ∧ u.bays[b].pilot.plca = true)) ∧
    (s.serves m = true → s.active = false →
      Completes (.bayStop t m b) s fun u => u.bays = s.bays ∧ u.host.answer = ⟨.denied, .role⟩) ∧
    (s.serves m = true → s.active = true → s.onTime (t + 1) b → q.doomed = false →
      (q.st = .power → x.energised = true → Completes (.bayStop t m b) s fun u =>
        u.bays[b].session.st = .rampDown ∧ u.bays[b].session.endCode = code 0x0F ∧ u.host.answer = okAnswer) ∧
      (q.st = .parameters → x.energised = false → Completes (.bayStop t m b) s fun u =>
        u.bays[b].session.st = .closing ∧ u.bays[b].session.endCode = code 0x0F ∧ u.host.answer = okAnswer) ∧
      (q.st = .authorising → q.authPend = true →
        (Completes (.authOk t m b) s fun u => u.bays[b].session.st = .parameters ∧ u.bays[b].session.authPend = false ∧ u.host.answer = okAnswer) ∧
        (Completes (.authDeny t m b) s fun u => u.bays[b].session.st = .closing ∧ u.bays[b].session.endCode = code 0x04 ∧ u.host.answer = okAnswer)) ∧
      (q.authPend = false →
        (Completes (.authOk t m b) s fun u => u.bays = s.bays ∧ u.host.answer = okAnswer) ∧
        (Completes (.authDeny t m b) s fun u => u.bays = s.bays ∧ u.host.answer = okAnswer)) ∧
      (Completes (.bayClrCnt t m b) s fun u =>
        u.bays[b] = { x with sessions := 0, timeouts := 0, faults := 0, errMsg := 0, errTls := 0, errPhy := 0 } ∧ u.host.answer = okAnswer))

/-- Of R237, R243, R246, R251, R254, R255, R258: the pulses, delays and counters of cooling and of the auxiliary outputs. Model's choices: log 5. -/
def Obligations.CoolingAndAuxTimers : Prop :=
  ∀ (s : State) (t : Nat), 
    let now := max s.mt t
    (∀ (n : Fin 24) (d : Nat), let x := s.aux.ch[n]
      (x.coolDue = some d → d ≤ t → x.therm = false → auxHeld x = false → Completes (.auxCoolElapsed t n) s fun u =>
        u.mt = now ∧ u.aux.ch[n] = { x with coolDue := none, retryDue := some (t + x.retryLeft), retryLeft := 0 }) ∧
      (x.coolDue = some d → x.therm = true → Completes (.auxCoolElapsed t n) s fun u => u.aux = s.aux) ∧
      (x.onSince = some d → d + secs 10 ≤ t → Completes (.auxRetryCountReset t n) s fun u => u.aux.ch[n] = { x with retries := 0, retrying := false }) ∧
      (x.onSince = some d → t < d + secs 10 → Completes (.auxRetryCountReset t n) s fun u => u.aux = s.aux)) ∧
    (∀ n : Fin 24, s.aux.failed = false → s.aux.gone = false → (∃ d, s.aux.holdDue = some d ∧ d < t) → s.aux.ch[n].tripped = false →
      Completes (.auxHoldExpiry t) s fun u => u.aux.failed = true ∧
        u.aux.ch[n].duty = (if s.aux.ch[n].fail = 0 then 0 else if s.aux.ch[n].fail = 1 then 1000 else s.aux.ch[n].duty)) ∧
    ((∀ d, s.aux.holdDue = some d → t ≤ d) → Completes (.auxHoldExpiry t) s fun u => u.aux = s.aux) ∧
    (∀ (cv : Nat) (n : Fin 24), Completes (.vin24Return t cv) s fun u => u.aux.ch[n].duty = 0 ∧ u.aux.ch[n].tripped = false ∧ u.aux.ch[n].retries = 0 ∧ u.aux.v24 = cv) ∧
    (s.live = true →
      (∀ i : Fin 12, Completes (.flowPulse t i) s fun u => u.thm = { s.thm with edges := vupd s.thm.edges i fun es => t :: es.filter fun e => decide (t < e + 250000000) }) ∧
      (∀ (b : Fin 12) (d : Nat), s.thm.cables[b].valveDue = some d → d ≤ t →
        Completes (.valveCloseDelay t b) s fun u => u.thm.cables[b] = { s.thm.cables[b] with valve := false, valveDue := none }) ∧
      (∀ (n : Fin 24) (d : Nat), let x := s.aux.ch[n]
        (x.pullInDue = some d → d ≤ t → x.tripped = false → x.mode = 4 → s.valveOpen x.src = true → x.pwmF ≠ 0 → s.paired = false → s.auxDriven = true →
          Completes (.valvePullInEnd t n) s fun u => u.aux.ch[n].pullInDue = none ∧ u.aux.ch[n].duty = dutyOf x.pwmF x.vNom s.aux.v24 (10000 * x.level)) ∧
        (x.retryDue = some d → d ≤ t → x.therm = false → s.saf.selfTest = true → Completes (.auxRetry t n) s fun u =>
          u.aux.ch[n].tripped = false ∧ u.aux.ch[n].retrying = true ∧ u.aux.ch[n].retryDue = none ∧ u.aux.ch[n].fault = 0 ∧ u.aux.ch[n].retries = x.retries) ∧
        (x.retryDue = some d → x.therm = true ∨ s.saf.selfTest = false → Completes (.auxRetry t n) s fun u => u.aux = s.aux)) ∧
      (∀ m, s.serves m = true →
        (Completes (.thmClrCnt t m) s fun u => u.thm = { s.thm with latches := 0, noFlows := 0, tsFaults := 0 } ∧ u.host.answer = okAnswer) ∧
        (∀ (n : Fin 24) (v : Nat), 
          (v ≤ 1000 → s.pwr.pfw = false → auxHeld s.aux.ch[n] = true → Completes (.auxClear t m n v) s fun u =>
            let waits := s.aux.ch[n].therm || s.aux.ch[n].coolDue.isSome
            u.aux.ch[n] = { s.aux.ch[n] with demand := v, retries := 0, retrying := false, fault := if waits then 4 else 0, tripped := waits } ∧ u.host.answer = okAnswer) ∧
          (v ≤ 1000 → s.pwr.pfw = false → auxHeld s.aux.ch[n] = false → Completes (.auxClear t m n v) s fun u =>
            u.aux.ch[n] = { s.aux.ch[n] with demand := v, retries := 0 } ∧ u.host.answer = okAnswer) ∧
          (1000 < v → Completes (.auxClear t m n v) s fun u => u.aux = s.aux ∧ u.host.answer = ⟨.denied, .range⟩))))

/-- Of R249, R250, R251, R252: how a channel of the auxiliary outputs protects itself, and which one is shed. -/
def Obligations.AuxProtection : Prop :=
  ∀ (s : State) (t : Nat) (n : Fin 24), s.aux.gone = false →
    let x := s.aux.ch[n]
    (∀ (l : List AuxSense) (q : AuxSense), l[n.val]? = some q →
      let checks (P : AuxCh → Prop) : Prop := Completes (.auxProtectionCheck t l) s fun u => P u.aux.ch[n]
      (x.therm = true → q.junction ≤ 135 → checks fun y => y.therm = false ∧ y.coolDue = some (t + ms (100 * s.aux.coolMs)) ∧ y.retries = x.retries) ∧
      (x.therm = false → 150 ≤ q.junction → checks fun y =>
        y.therm = true ∧ y.tripped = true ∧ y.duty = 0 ∧ y.fault = (if q.swing then 5 else if auxHeld x then x.fault else 4) ∧ y.retries = x.retries ∧ y.retryDue = none) ∧
      (x.therm = false → q.junction < 150 → q.swing = true → checks fun y => y.fault = 5 ∧ y.tripped = true ∧ y.duty = 0 ∧ y.retryDue = none) ∧
      (∀ d, x.therm = false → q.junction < 150 → q.swing = false → 0 < x.duty → q.limiting = true → x.limitDue = some d →
        (d < t → x.retrying = false → checks fun y =>
          y.fault = 1 ∧ y.tripped = true ∧ y.duty = 0 ∧ y.retryDue = some (t + ms (100 * s.aux.retryMs)) ∧ y.retries = x.retries) ∧
        (d < t → x.retrying = true → s.aux.retryMax ≤ min 7 (x.retries + 1) → checks fun y =>
          y.fault = 7 ∧ y.tripped = true ∧ y.duty = 0 ∧ y.retryDue = none ∧ y.retries = min 7 (x.retries + 1)) ∧
        (t = d → x.overSince = none → checks fun y => y.duty = x.duty ∧ y.tripped = x.tripped))) ∧
    (∀ d, s.aux.overSince = some d → d + ms 100 < t → s.aux.lastShed = none → 30000 < s.auxTotal → s.shedAux = some n → x.retrying = false →
      Completes (.auxTotalShed t) s fun u => u.aux.lastShed = some t ∧ u.aux.ch[n].fault = 3 ∧ u.aux.ch[n].duty = 0 ∧ u.aux.ch[n].tripped = true) ∧
    (s.auxTotal ≤ 30000 → Completes (.auxTotalShed t) s fun u => u.aux = s.aux)

/-- Of R271, R280, R281, R282: what a sample adds to every tally, counted in 1/28 800 000 of its unit; the codes are those that the common
delay and the channel's own DELAY pick from the history, as they leave the filters of R270. Model's choices: logs 133 and 134. -/
def Obligations.SampleTallied : Prop :=
  ∀ (s : State) (t rep : Nat) (x : MetSample) (c : CalSet), s.metRuns = true → rep % 125000 = 0 → rep + 500000 ≤ t → t ≤ rep + 700000 →
    (∀ k ∈ (filterSample x).codes, -(2 ^ 23) ≤ k ∧ k < 2 ^ 23) → (∀ l, s.met.rawRep = some l → l < rep) →
    s.met.set = some c → s.met.tallying = true → s.met.nextSet = none → s.met.resumeAt = none →
    let raw := rawWith s.met rep (filterSample x)
    (raw.length < 5 ∨ delaysMet c raw = false → Completes (.metrologySample t rep x) s fun u => u.met = { s.met with raw, rawRep := some rep }) ∧
    (5 ≤ raw.length → delaysMet c raw = true → Completes (.metrologySample t rep x) s fun u =>
      let y (k : Nat) : Int := calibrated c (delayedCodes c raw) k
      let v := acValues c y
      let added (k e : Nat) : Prop := ∀ i : Fin 32, i.val = k →
        (28800000 * u.met.tally[i] + u.met.residue[i]) % (28800000 * 2 ^ 64) = (28800000 * s.met.tally[i] + s.met.residue[i] + e) % (28800000 * 2 ^ 64)
      u.met.lastRep = some rep ∧
      (v.2.2 < c.sNl * 1000 → ∀ k, k < 8 → added k 0) ∧
      (c.sNl * 1000 ≤ v.2.2 →
        (0 ≤ v.1 → added 0 v.1.natAbs ∧ added 1 0 ∧ added 6 v.2.2 ∧ added 7 0 ∧
          (0 ≤ v.2.1 → added 2 v.2.1.natAbs ∧ added 3 0 ∧ added 4 0 ∧ added 5 0) ∧ (v.2.1 < 0 → added 5 v.2.1.natAbs ∧ added 2 0 ∧ added 3 0 ∧ added 4 0)) ∧
        (v.1 < 0 → added 1 v.1.natAbs ∧ added 0 0 ∧ added 7 v.2.2 ∧ added 6 0 ∧
          (0 ≤ v.2.1 → added 3 v.2.1.natAbs ∧ added 2 0 ∧ added 4 0 ∧ added 5 0) ∧ (v.2.1 < 0 → added 4 v.2.1.natAbs ∧ added 2 0 ∧ added 3 0 ∧ added 5 0))) ∧
      ∀ b : Fin 12,
        let p := someRound 30 (y (8 + 2 * b) * y (9 + 2 * b)) 1000
        (metBay c b = false ∨ (y (9 + 2 * b)).natAbs < c.iNl.getD b 0 → added (8 + 2 * b) 0 ∧ added (9 + 2 * b) 0) ∧
        (metBay c b = true → c.iNl.getD b 0 ≤ (y (9 + 2 * b)).natAbs →
          (0 ≤ p → added (8 + 2 * b) p.natAbs ∧ added (9 + 2 * b) 0) ∧ (p < 0 → added (8 + 2 * b) 0 ∧ added (9 + 2 * b) p.natAbs)))

/-- Of R267, R274, R279, R284, R287, R288, R289: what the partition does at the end of a block, at a commit, at a dead time, at a boundary
and when a calibration set takes effect. Model's choices: logs 62, 133 and 134. -/
def Obligations.MetrologyEvents : Prop :=
  ∀ (s : State) (t : Nat), s.metRuns = true →
    let e := s.blockEnd
    let xs := s.blockOf e
    let issues := s.vault.debug = false ∧ s.met.key.isSome ∧ s.met.queue.length < 256
    (s.met.blockAt < e → xs.length = 1600 → Completes (.calBlock t) s fun u =>
      u.met.block = s.met.block.filter (fun x => decide (e < x.1)) ∧ u.met.blockAt = e ∧
      ∀ k, k < 32 → (1600 * wd u.met.calMean k - sumInt (xs.map fun x => wd x.2.1 k)).natAbs < 1600) ∧
    (e ≤ s.met.blockAt ∨ xs.length ≠ 1600 → Completes (.calBlock t) s fun u => u.met = s.met) ∧
    (∀ c, s.met.set = some c →
      let T := (t / 1000000 + 1) * 1000000
      let cs := s.met.recent.filter fun m => decide (T < m.rep + ms 2 ∧ m.rep + ms 1 ≤ T)
      (cs = [] → Completes (.metrologyCommit t) s fun u => u.met.valid = false ∧ u.met.commit = s.met.commit ∧ u.met.published = s.met.published) ∧
      (∀ x rest, cs = x :: rest → Completes (.metrologyCommit t) s fun u =>
        u.met.valid = true ∧ u.met.published = x.snap.tally ∧
        u.met.wrapEpoch = (s.met.wrapEpoch + sumNat ((fins 32).map fun k => x.snap.tally[k] / 2 ^ 32 - s.met.published[k] / 2 ^ 32)) % 2 ^ 32 ∧
        ∃ m, u.met.commit = some m ∧ m.stamp = t ∧
          (1000 * (cs.length : Int) * m.pImp - sumInt (cs.map fun y => y.p)).natAbs < 1000 * cs.length ∧
          (1000 * (cs.length : Int) * m.qImp - sumInt (cs.map fun y => y.q)).natAbs < 1000 * cs.length)) ∧
    (∀ (b : Fin 12) q, s.met.deadSnap[b] = some q → s.met.live[b] = true → Completes (.bayDead t b) s fun u =>
      u.met.live[b] = false ∧
      (issues → s.met.set.isSome → (∀ z ∈ s.met.boundary, q.at_ < z.at_) →
        ∃ r, u.met.queue = s.met.queue ++ [r] ∧ r.seq = s.met.seq + 1 ∧ r.bytes[6]? = some (byte b.val) ∧ r.bytes[7]? = some 2)) ∧
    (∀ q rest, s.met.boundary = q :: rest → q.at_ ≤ t → Completes (.receiptIssue t) s fun u =>
      u.met.boundary = rest ∧
      (issues → s.met.set.isSome → (∀ (b : Fin 12) z, s.met.deadSnap[b] = some z → q.at_ ≤ z.at_) → ∃ r l, u.met.queue = s.met.queue ++ r :: l ∧ r.seq = s.met.seq + 1 ∧ r.bytes[6]? = some 0xFF ∧ r.bytes[7]? = some 1)) ∧
    ∀ c q, s.met.nextSet = some (c, q) → q < t → (∀ l, s.met.lastRep = some l → q ≤ l) → Completes (.calSetEffect t) s fun u =>
      u.met.set = some c ∧ u.met.nextSet = none ∧ u.met.tally = s.met.tally ∧ u.met.residue = s.met.residue ∧
      (issues → s.met.set.isSome → s.met.lastRep.isSome → (∀ x, s.met.lastRep = some x → (∀ z ∈ s.met.boundary, x < z.at_) ∧ ∀ (b : Fin 12) z, s.met.deadSnap[b] = some z → x ≤ z.at_) → ∃ r l, u.met.queue = s.met.queue ++ r :: l ∧ r.seq = s.met.seq + 1 ∧ r.bytes[6]? = some 0xFF ∧ r.bytes[7]? = some 4)

/-- Of R206, R285, R286, R291, R292: the receipt store and the tallies, as a master sees them. -/
def Obligations.ReceiptsAndTallies : Prop :=
  ∀ (s : State) (t : Nat), s.live = true →
    (∀ r rest, s.met.queue = r :: rest →
      (s.met.store.length < 15123 → 208 ≤ s.mram.metro + s.mram.spare → Completes (.receiptDrain t) s fun u => u.met = { s.met with queue := rest, store := s.met.store ++ [r], head := r.seq } ∧
        u.host.sum[(7 : Fin 16)] = (s.host.sum[(7 : Fin 16)] + 1) % 2 ^ 32) ∧
      (15123 ≤ s.met.store.length ∨ s.mram.metro + s.mram.spare < 208 → exec (.receiptDrain t) s = .next (s.arrive t))) ∧
    ∀ (m : Master), s.serves m = true →
      (∀ seq : Word,
        (seq.toNat ≤ s.met.head → Completes (.rcptAck t m seq) s fun u =>
          u.met = { s.met with store := s.met.store.filter fun r => decide (seq.toNat < r.seq) } ∧ u.host.answer = okAnswer) ∧
        (s.met.head < seq.toNat → Completes (.rcptAck t m seq) s fun u => u.met = s.met ∧ u.host.answer = ⟨.denied, .range⟩)) ∧
      ∀ k : Fin 32,
        let v := if s.met.sealSt = .blank then 0 else s.met.published[k]
        (Completes (.tallyLowRead t m k) s fun u =>
          u.host.data = [word (v % 2 ^ 32)] ∧ u.host.answer = okAnswer ∧
          (m = .udp → u.host.latchUdp.tally = some (k.val, v / 2 ^ 32) ∧ u.host.latchSpi = s.host.latchSpi) ∧
          (m = .spi → u.host.latchSpi.tally = some (k.val, v / 2 ^ 32) ∧ u.host.latchUdp = s.host.latchUdp)) ∧
        ∀ (l : PortLatch), portLatch s m = some l →
          (∀ z, l.tally = some (k.val, z) → Completes (.tallyHighRead t m k) s fun u => u.host.data = [word z] ∧ u.host.answer = okAnswer) ∧
          ((∀ z, l.tally ≠ some (k.val, z)) → Completes (.tallyHighRead t m k) s fun u => u.host.data = [word (v / 2 ^ 32)] ∧ u.host.answer = ⟨.stale, .none⟩)

/-- Of R293, R294, R458: what the partition does with a staged metrology firmware. -/
def Obligations.MetrologyFirmware : Prop :=
  ∀ (s : State) (t : Nat), s.live = true → s.stagedType = 2 → s.upd.large.st = .activating →
    let c := areaBytes s.upd.large
    let v := verify (s.arrive t).writeCheckpoint false c
    let barred := s.fuses.mb && s.met.sealSt == .sealed && !contFlag c 2
    (v.code ≠ 0 → Completes (.metrologyFwActivation t) s fun u =>
      u.met.fwId = s.met.fwId ∧ u.met.bootCount = s.met.bootCount ∧ u.upd.err = v.code ∧ u.upd.last = s.upd.last ∧ u.upd.metOnB = s.upd.metOnB) ∧
    (v.code = 0 → barred = true → Completes (.metrologyFwActivation t) s fun u =>
      u.met.fwId = s.met.fwId ∧ u.met.bootCount = s.met.bootCount ∧ u.upd.err = 0x0E ∧ u.upd.metOnB = s.upd.metOnB) ∧
    (v.code = 0 → barred = false → Completes (.metrologyFwActivation t) s fun u =>
      u.met.fwId = (sha256 v.plain).take 8 ∧ u.met.bootCount = s.met.bootCount + 1 ∧ u.upd.err = 0 ∧ u.upd.last = 1 ∧ u.upd.metOnB = !s.upd.metOnB ∧
      u.metImage.image = v.plain ∧ u.metImage.version = contVersion c ∧ u.met.tally = s.met.tally ∧ u.met.residue = s.met.residue ∧ u.met.recent = [] ∧ u.met.live = Vector.replicate 12 false ∧
      ∀ i : Fin 13, u.met.kinds[i].gap = true ∧ u.met.kinds[i].restart = true)

/-- Of R297, R298, R300, R301, R302, R303, R305, R306: how a scan moves an SI pair of any TYPE: the samples its filter takes, unless a pulse of
the channel's source masks them; the step of the pair at a scan that ends no pulse; the results of one that does. Model's choices: logs 126,
127 and 147. -/
def Obligations.SafetyScanPair : Prop :=
  ∀ (s : State) (t : Nat) (rd : ScanReadings) (k : Fin 16) (r : SafRec), s.scanAt t = true → rd.agree = true → s.safRec 1 k.val = some r →
    let p := s.saf.si[k]
    let a := rd.a.getD k.val false
    let b := rd.b.getD k.val false
    let x := if s.maskedAt (sourceOf r false) t then p.a else sampleChan (siFilter (some r)) t a p.a
    let y := if s.maskedAt (sourceOf r true) t then p.b else sampleChan (siFilter (some r)) t b p.b
    let endsA := s.lastInPulse (sourceOf r false) t
    let endsB := s.lastInPulse (sourceOf r true) t
    let weak (c : Bool) : Bool := ((sourceOf r c).bind (fin? 4)).any fun q => s.saf.tpLimited[q]
    let fails := (endsA && (weak false || p.a.armed && a)) || (endsB && (weak true || p.b.armed && b))
    let passed (ends : Bool) (c : SiChan) : Nat := if ends && c.armed then c.passed + 1 else c.passed
    let was (u v : Bool) : Prop := demandA p.a.level = u ∧ demandB r p.b.level = v
    let is (u v : Bool) : Prop := demandA x.level = u ∧ demandB r y.level = v
    let release : SiSt := if siManual r then .waitReset else .idle
    let scan (P : SiPair → Prop) : Prop := Completes (.safetyScan t rd) s fun u => u.saf.lastScan = t ∧ P u.saf.si[k]
    (fails = true → scan fun q => q.st = .faultTest) ∧
    (siType r = 2 → endsA = false → endsB = false → scan fun q =>
      q.a = x ∧ q.b = y ∧ q.demands = p.demands ∧ (p.st ≠ .faultTest → q.st = p.st) ∧
      (x.level = true → y.level = true → q.report = 8 ∧ q.mismatch = false) ∧ (x.level = false → y.level = false → q.report = 9 ∧ q.mismatch = false) ∧
      (x.level ≠ y.level → q.report = p.report ∧ q.mismatch = p.mismatch ∧ q.apart = some (p.apart.getD (max x.stamp y.stamp)))) ∧
    (siType r ≠ 2 → fails = false →
      (p.st = .faultTest → is false false → 2 ≤ passed endsA p.a → 2 ≤ passed endsB p.b → scan fun q => q.st = .waitReset ∧ q.a.passed = 0 ∧ q.b.passed = 0) ∧
      (p.st = .faultTest → passed endsA p.a < 2 ∨ is true false ∨ is false true ∨ is true true → scan fun q => q.st = .faultTest) ∧
      (p.st = .waitReset → siManual r = false → was false false → is false false → 1 ≤ passed endsA p.a → 1 ≤ passed endsB p.b → scan fun q => q.st = .idle) ∧
      (p.st = .waitReset → siManual r = true → was false false → is false false → scan fun q => q.st = .waitReset)) ∧
    (siType r ≠ 2 → endsA = false → endsB = false →
      (p.st = .idle ∨ p.st = .waitReset → was false false →
        (is true true → x.stamp ≤ y.stamp + siDisc r → y.stamp ≤ x.stamp + siDisc r → scan fun q => q.st = .demand ∧ q.demands = satInc 16 p.demands) ∧
        (is true false → scan fun q => q.st = .partialDemand ∧ q.deadline = x.stamp + siDisc r ∧ q.demands = satInc 16 p.demands) ∧
        (is false true → scan fun q => q.st = .partialDemand ∧ q.deadline = y.stamp + siDisc r ∧ q.demands = satInc 16 p.demands)) ∧
      (p.st = .idle → was false false → is false false → scan fun q => q.st = .idle ∧ q.demands = p.demands) ∧
      (∀ d, (was true false ∧ d = y.stamp) ∨ (was false true ∧ d = x.stamp) → is true true →
        (p.st = .partialDemand → d ≤ p.deadline → scan fun q => q.st = .demand) ∧
        (p.st = .partialDemand → p.deadline < d → scan fun q => q.st = .faultDisc ∧ q.faults = satInc 8 p.faults) ∧
        (p.st = .returning → d ≤ p.deadline → scan fun q => q.st = .demand) ∧
        (p.st = .faultDisc → scan fun q => q.st = .faultBoth)) ∧
      (∀ d, (was true false ∧ d = x.stamp) ∨ (was false true ∧ d = y.stamp) → is false false → d ≤ p.deadline →
        (p.st = .partialDemand → scan fun q => q.st = release ∧ q.blips = satInc 8 p.blips) ∧
        (p.st = .returning → scan fun q => q.st = release ∧ q.proof = (s.arrive t).calSeconds % 2 ^ 32)) ∧
      (was true true →
        (p.st = .demand → is true false → scan fun q => q.st = .returning ∧ q.deadline = y.stamp + siDisc r) ∧
        (p.st = .demand → is false true → scan fun q => q.st = .returning ∧ q.deadline = x.stamp + siDisc r) ∧
        (p.st = .demand → is false false → x.stamp = y.stamp → scan fun q => q.st = release ∧ q.proof = (s.arrive t).calSeconds % 2 ^ 32 ∧ q.blips = p.blips) ∧
        (p.st = .faultBoth → is false false → x.stamp ≤ y.stamp + siDisc r → y.stamp ≤ x.stamp + siDisc r → scan fun q => q.st = release)))

/-- Of R299, R302, R303, R306, R309, R310, R327: what the safety controller finds between two scans. Model's choices: logs 68 and 128. -/
def Obligations.SafetyEvents : Prop :=
  ∀ (s : State) (t : Nat) (k : Fin 16), s.live = true →
    let p := s.saf.si[k]
    let o := s.saf.so[k]
    let faulted (u : State) (c : Nat) : Prop :=
      u.saf.so[k].st = .fault ∧ u.saf.so[k].cause = c ∧ u.saf.so[k].count = satInc 16 o.count ∧ u.saf.so[k].hs = false ∧ u.saf.so[k].ls = false
    (∀ r, s.safRec 1 k.val = some r → siType r ≠ 2 →
      (p.st = .partialDemand ∨ p.st = .returning →
        (p.deadline < t → pairPending p p.deadline = false → Completes (.discrepancyTimeout t k) s fun u =>
          u.saf.si[k].st = .faultDisc ∧ u.saf.si[k].faults = satInc 8 p.faults) ∧
        (t ≤ p.deadline → Completes (.discrepancyTimeout t k) s fun u => u.saf = s.saf)) ∧
      (s.rtc.valid = true → p.proof + 31536000 < (s.arrive t).calSeconds → Completes (.proofDue t k) s fun u => u.saf.si[k].proofDue = true) ∧
      ∀ (src : Fin 4) q, s.pulseRec src.val = some q → pulseStarts src.val q t = true → Completes (.testPulse t src) s fun u =>
        u.saf.pulseAt[src] = some t ∧ (sourceOf r false = some src.val → u.saf.si[k].a.armed = p.a.cand) ∧ (sourceOf r true = some src.val → u.saf.si[k].b.armed = p.b.cand)) ∧
    (∀ r, s.safRec 2 k.val = some r → o.st ≠ .fault →
      (r.flags.testBit 5 = true → o.hs = true → o.ls = true →
        ∀ low, (testDue r o t low = true →
          (Completes (.switchTest t k low true) s fun u => faulted u (if low then 2 else 1)) ∧
          (Completes (.switchTest t k low false) s fun u => u.saf.so[k].st = o.st ∧ u.saf.so[k].hs = true ∧ u.saf.so[k].ls = true ∧
            u.saf.so[k].testing = some (low, t + 300000))) ∧
          (testDue r o t low = false → ∀ c, Completes (.switchTest t k low c) s fun u => u.saf = s.saf)) ∧
      (r.paramB ≠ 0 → o.testAt = none → testDue r o t false = true ∧ testDue r o t true = false) ∧
      (∀ q, o.testAt = some q → (testDue r o t false = true ↔ q ≤ t ∧ (t - q) % (r.paramB * 1000000) = 0) ∧
        (testDue r o t true = true ↔ q ≤ t ∧ (t - q) % (r.paramB * 1000000) = r.paramB * 500000)) ∧
      (∀ mA d, 4000 < mA → Completes (.soCurrentFault t k mA d) s fun u => faulted u 4) ∧
      (∀ mA d, 2000 < mA → mA ≤ 4000 → ms 10 < d → Completes (.soCurrentFault t k mA d) s fun u => faulted u 3) ∧
      (∀ mA d, mA < 20 → ms 100 ≤ d → o.hs = true → o.ls = true → Completes (.soCurrentFault t k mA d) s fun u => faulted u 5) ∧
      ∀ mA d, 20 ≤ mA → mA ≤ 2000 → Completes (.soCurrentFault t k mA d) s fun u => u.saf.so[k] = { o with current := mA }) ∧
    ∀ (f : Fin 16) r x q, s.safRec 1 f.val = some r → siType r = 2 → s.saf.si[f].apart = some q → q + siDisc r < t → pairPending s.saf.si[f] (q + siDisc r) = false →
      s.saf.si[f].mismatch = false → (k, x) ∈ s.soPairs → fbOf x = some f → o.st ≠ .fault →
      Completes (.feedbackMismatch t f) s fun u => u.saf.si[f].mismatch = true ∧ faulted u 6

/-- Of R308, R312, R313, R314, R315, R317: how the safe stop of a bay goes on by itself. Model's choices: log 148. -/
def Obligations.SafeStopProgress : Prop :=
  ∀ (s : State) (t : Nat) (b : Fin 12), s.live = true →
    let q := s.saf.stops[b]
    let isOff (u : State) (k : Fin 16) : Prop := u.saf.so[k].hs = false ∧ u.saf.so[k].ls = false
    let gatedOff (u : State) (n : Fin 64) : Prop := u.stalls[n].st = .stopping ∧ u.stalls[n].cause = 8 ∧ u.stalls[n].matrix = none ∧ u.stalls[n].gatedOut = true
    (q.st = .ramp →
      (q.taken = true → q.n ≤ q.j → Completes (.ssRampEnd t b) s fun u =>
        u.saf.stops[b].st = .gating ∧ u.saf.stops[b].gated = true ∧ ∀ n, s.stalls[n].bay = some b → s.stalls[n].st = .assigned → gatedOff u n) ∧
      (q.taken = true → q.j < q.n → Completes (.ssRampEnd t b) s fun u => u.saf = s.saf ∧ u.stalls = s.stalls) ∧
      (∀ d, q.deadline = some d → d < t → Completes (.ssRampTimeout t b) s fun u => u.saf.stops[b].st = .gating ∧
        u.saf.stops[b].gated = (s.lat.windowOpen && decide (max s.mt t ≤ s.lat.openAt))) ∧
      (∀ d, q.deadline = some d → t ≤ d → Completes (.ssRampTimeout t b) s fun u => u.saf = s.saf) ∧
      (17 ≤ q.skips → Completes (.envelopeSkipLimit t b) s fun u =>
        u.saf.stops[b].st = .gating ∧ u.saf.stops[b].trigger = 3 ∧ ∀ k x, (k, x) ∈ s.outletPairs b → isOff u k) ∧
      (q.skips < 17 → Completes (.envelopeSkipLimit t b) s fun u => u.saf = s.saf)) ∧
    (q.st = .opening → ∀ d, q.deadline = some d →
      (d < t → (∀ k ∈ s.outletFb b, pairPending s.saf.si[k] d = false) → Completes (.escalation t b) s fun u =>
        u.saf.stops[b].st = .escalated ∧ u.saf.escalated = true ∧ (∀ k x, (k, x) ∈ s.sitePairs → isOff u k) ∧
        (s.sitePairs = [] → ∀ n, s.stalls[n].st = .assigned → gatedOff u n)) ∧
      (t ≤ d → Completes (.escalation t b) s fun u => u.saf = s.saf))

/-- Of R405, R406: the SYS unlock. Model's choices: logs 32, 33, 34 and 138. -/
def Obligations.SysUnlock : Prop :=
  ∀ (s : State) (t : Nat) (m : Master), s.live = true → s.serves m = true →
    let l := s.lock
    let now := max s.mt t
    let nonce := (s.drawBytes 16).1
    (∀ k, s.cfgKey m = some k → l.resp = sysResponse s m k → l.remaining now = 0 → Completes (.sysUnlock t m) s fun u =>
      u.lock.st = .unlocked ∧ u.lock.owner = m ∧ u.lock.deadline = now + secs 1800 ∧ u.lock.fails = 0 ∧ u.lock.lockout = false ∧ u.lock.nonce = nonce ∧ u.host.answer = okAnswer) ∧
    (s.useRefused m 6 = true → l.remaining now = 0 → Completes (.sysUnlock t m) s fun u => u.lock = { l with nonce } ∧ u.host.answer = deny .access) ∧
    ((∀ k, s.cfgKey m = some k → l.resp ≠ sysResponse s m k) → s.useRefused m 6 = false → l.remaining now = 0 → Completes (.sysUnlock t m) s fun u =>
      u.lock.st = l.st ∧ u.lock.fails = satInc 8 l.fails ∧ u.lock.nonce = nonce ∧ u.host.answer = ⟨.denied, .none⟩ ∧
      (satInc 8 l.fails < 5 → u.lock.lockout = false) ∧
      (5 ≤ satInc 8 l.fails → u.lock.remaining now = if l.lastNs = 0 then secs 900 else min (secs 86400) (2 * l.lastNs))) ∧
    (0 < l.remaining now → Completes (.sysUnlock t m) s fun u => u.lock = { l with nonce } ∧ u.host.answer = ⟨.denied, .state⟩) ∧
    (l.st = .unlocked →
      let ended (u : State) : Prop := u.lock = { l with st := .sealed } ∧ u.host.netIp = s.host.stagedIp.getD s.host.netIp ∧ u.host.stagedIp = none
      (Completes (.sysSeal t m) s fun u => ended u ∧ u.host.answer = okAnswer) ∧
      (l.deadline < t → Completes (.sysUnlockExpiry t) s ended) ∧ (t ≤ l.deadline → Completes (.sysUnlockExpiry t) s fun u => u.lock = l)) ∧
    (l.lockout = true →
      (l.remaining t = 0 → Completes (.sysLockoutEnd t) s fun u => u.lock = { l with lockout := false, remNs := 0 }) ∧
      (0 < l.remaining t → Completes (.sysLockoutEnd t) s fun u => u.lock = l))

/-- Of R322, R323, R324, R325: the unlock of the safety configuration, its seal and its password. Model's choices: logs 33, 34 and 35. -/
def Obligations.SafetyUnlock : Prop :=
  ∀ (s : State) (t : Nat) (m : Master), s.live = true → s.serves m = true →
    let l := s.saf.unlock
    let now := max s.mt t
    let nonce := (s.drawBytes 16).1
    let right := (hmac256 s.saf.pwKey (l.nonce ++ deviceIdBytes s)).take 16
    (s.saf.noPw = false → l.resp = right → l.remaining now = 0 → Completes (.safUnlock t m) s fun u =>
      u.saf.unlock.st = .unlocked ∧ u.saf.unlock.owner = m ∧ u.saf.unlock.deadline = now + secs 1800 ∧ u.saf.unlock.fails = 0 ∧ u.saf.unlock.nonce = nonce ∧
      u.saf.staged = some (s.saf.staged.getD { ssRamp := s.saf.ssRamp, tolPct := s.saf.tolPct }) ∧ u.host.answer = okAnswer) ∧
    (s.saf.noPw = true ∨ l.resp ≠ right → l.remaining now = 0 → Completes (.safUnlock t m) s fun u =>
      u.saf.unlock.st = l.st ∧ u.saf.unlock.fails = satInc 8 l.fails ∧ u.saf.unlock.nonce = nonce ∧ u.host.answer = ⟨.denied, .none⟩ ∧
      u.saf.chgCount = (if satInc 8 l.fails < 5 then satInc 32 s.saf.chgCount else satInc 32 (satInc 32 s.saf.chgCount)) ∧
      (5 ≤ satInc 8 l.fails → u.saf.unlock.remaining now = if l.lastNs = 0 then secs 900 else min (secs 86400) (2 * l.lastNs))) ∧
    (0 < l.remaining now → Completes (.safUnlock t m) s fun u => u.saf = { s.saf with unlock := { l with nonce } } ∧ u.host.answer = ⟨.denied, .state⟩) ∧
    (l.st = .unlocked →
      (∀ x, s.saf.staged = some x → s.changing = false → s.logFull = false → s.pwr.pfw = false → Completes (.safSeal t m) s fun u =>
        u.saf.ssRamp = x.ssRamp ∧ u.saf.tolPct = x.tolPct ∧ u.saf.staged = none ∧ u.saf.unlock = { l with st := .sealed } ∧
        u.saf.chgCount = satInc 32 s.saf.chgCount ∧ u.host.answer = okAnswer) ∧
      (s.changing = true → Completes (.safSeal t m) s fun u => u.saf = s.saf ∧ u.host.answer = ⟨.busy, .state⟩) ∧
      (l.deadline < t → Completes (.safUnlockExpiry t) s fun u => u.saf = { s.saf with unlock := { l with st := .sealed }, staged := none }) ∧
      (t ≤ l.deadline → Completes (.safUnlockExpiry t) s fun u => u.saf = s.saf)) ∧
    (l.lockout = true → l.remaining t = 0 → Completes (.safLockoutEnd t) s fun u => u.saf = { s.saf with unlock := { l with lockout := false, remNs := 0 } }) ∧
    (s.saf.noPw = true ∨ l.st = .unlocked → s.logFull = false → s.pwr.pfw = false → Completes (.pwSet t m) s fun u =>
      u.saf.pwKey = s.saf.pwk ∧ u.saf.noPw = false ∧ u.saf.chgCount = satInc 32 s.saf.chgCount ∧ u.host.answer = okAnswer) ∧
    (s.saf.noPw = false → l.st ≠ .unlocked → Completes (.pwSet t m) s fun u => u.saf = s.saf ∧ u.host.answer = ⟨.locked, .none⟩)

/-- Of R319, R335, R336, R342, R482: the steps of the role up to ACTIVE, and the takeover by a STANDBY module. Model's choices: logs 71, 72 and 122. -/
def Obligations.RoleSteps : Prop :=
  ∀ (s : State) (t : Nat), s.live = true →
    let p := s.pair
    let now := max s.mt t
    let holds (u : State) : Prop := u.pair.role = .active ∧ u.pair.activeO = true ∧ u.pair.epoch = (max p.epoch p.partner.epoch + 1) % 65536
    (p.role = .init → p.mode ≠ .single → p.activeI = false → s.saf.ctrlFault = false →
      (max p.releasedAt p.roleAt + (if p.side = 0 then ms 20 else ms 200) ≤ t → Completes (.initWaitEnd t) s fun u =>
        u.pair.role = .claiming ∧ u.pair.activeO = true ∧ u.pair.roleAt = now) ∧
      (t < max p.releasedAt p.roleAt + (if p.side = 0 then ms 20 else ms 200) → Completes (.initWaitEnd t) s fun u => u.pair = p)) ∧
    (p.mode ≠ .single → p.role = .init ∨ (p.role = .claiming ∧ p.side = 1) → Completes (.activeIAssert t) s fun u =>
      u.pair.role = .syncing ∧ u.pair.activeO = false ∧ u.pair.activeI = true) ∧
    (p.role = .claiming ∧ p.side = 0 ∨ p.role = .syncing ∨ p.role = .standby ∨ p.role = .unfit → Completes (.activeIAssert t) s fun u =>
      u.pair = { p with activeI := true, roleChange := if p.activeI = true then p.roleChange else t } ∧ u.saf = s.saf) ∧
    (p.mode = .single → p.role = .init → Completes (.activeIAssert t) s fun u =>
      u.pair.role = .unfit ∧ u.pair.unfitCode = 6 ∧ u.pair.activeO = false ∧ u.assume.interlock = true) ∧
    (p.role = .claiming → p.roleAt + 2000 ≤ t →
      (p.activeI = false ∨ (p.side = 0 ∧ t ≤ p.roleAt + 10000) → Completes (.claimConfirm t) s fun u => holds u ∧ u.pair.activeI = false ∧ u.pair.tko = now) ∧
      (p.activeI = true → p.side ≠ 0 ∨ p.roleAt + 10000 < t → Completes (.claimConfirm t) s fun u => u.pair = p)) ∧
    (p.role = .claiming → p.mode ≠ .single → p.activeI = true → p.side = 0 → s.saf.ctrlFault = false →
      (p.roleAt + 10000 < t → Completes (.claimConflictTimeout t) s fun u => u.pair.role = .syncing ∧ u.pair.activeO = false) ∧
      (t ≤ p.roleAt + 10000 → Completes (.claimConflictTimeout t) s fun u => u.pair = p)) ∧
    (p.role = .standby → Completes (.takeover t) s fun u => holds u ∧ u.pair.activeI = false ∧ u.pair.tko = now ∧ u.pair.takeovers = satInc 8 p.takeovers) ∧
    (p.role ≠ .standby → Completes (.takeover t) s fun u => u.pair.role = p.role ∧ u.pair.activeO = p.activeO ∧ u.pair.activeI = false)

/-- Of R335, R337, R349, R350, R352, R356, R482: the checks of a module of a pair, what its role makes of them, and the commands of
PAIR.CTRL. Model's choices: logs 70, 71, 76, 77, 78 and 123. -/
def Obligations.PairChecks : Prop :=
  ∀ (s : State) (t : Nat) (m : Master), s.live = true →
    let p := s.pair
    let a := s.arrive t
    (p.role = .standby → a.fit = true → Completes (.healthCheck t) s fun u => u.pair.role = .standby ∧ u.pair.own = a.ownBits ∧ u.pair.degraded = a.judgedLite) ∧
    (p.role = .standby → a.fit = false → Completes (.healthCheck t) s fun u =>
      u.pair.role = .unfit ∧ u.pair.own = a.ownBits ∧ u.pair.unfitCode = lowestCode a.failing ∧ u.pair.activeO = false ∧ u.pair.passDue = none) ∧
    (p.role = .syncing → Completes (.healthCheck t) s fun u =>
      u.pair.own = a.ownBits ∧ u.pair.activeO = p.activeO ∧ u.pair.role = (if a.synced && a.fit then .standby else .syncing)) ∧
    (p.role = .unfit → Completes (.healthCheck t) s fun u =>
      u.pair.role = .unfit ∧ u.pair.own = a.ownBits ∧ u.pair.passDue = (if a.fit then some (p.passDue.getD (a.mt + secs p.resyncS)) else none)) ∧
    (p.role = .syncing →
      (p.roleAt + secs 10 < t → Completes (.syncTimeout t) s fun u =>
        u.pair.role = .unfit ∧ u.pair.activeO = false ∧ u.pair.unfitCode = (if a.failing = [] then syncCode a else lowestCode a.failing)) ∧
      (t ≤ p.roleAt + secs 10 → Completes (.syncTimeout t) s fun u => u.pair = p)) ∧
    (p.role = .unfit → p.mode ≠ .single →
      (p.hold11 = false → ∀ q, p.passDue = some q →
        (q ≤ t → Completes (.resyncElapsed t) s fun u => u.pair.role = .syncing ∧ u.pair.activeO = false) ∧
        (t < q → Completes (.resyncElapsed t) s fun u => u.pair = p)) ∧
      (p.hold11 = true ∨ p.passDue = none → Completes (.resyncElapsed t) s fun u => u.pair = p)) ∧
    (p.role = .unfit → p.mode = .single → p.unfitCode = 6 → p.activeI = false → s.saf.ctrlFault = false →
      (p.releasedDue ≤ t → Completes (.resyncElapsed t) s fun u => u.pair.role = .claiming ∧ u.pair.activeO = true) ∧
      (t < p.releasedDue → Completes (.resyncElapsed t) s fun u => u.pair = p)) ∧
    (∀ q, p.partner.heardAt.getD p.listenFrom = q → p.mode ≠ .single → p.partner.absent = false →
      (q + ms 50 < t → Completes (.partnerAbsent t) s fun u => u.pair = { p with partner := { p.partner with absent := true } }) ∧
      (t ≤ q + ms 50 → Completes (.partnerAbsent t) s fun u => u.pair = p)) ∧
    (s.serves m = true →
      (p.role = .active → (p.mode = .full ∧ a.partnerFit = true) ∨ (p.mode = .lite ∧ s.energisedMask = 0) →
        (p.holdoffDue ≤ a.mt → Completes (.handover t m) s fun u => u.pair = { p with handoverPend := true } ∧ u.host.answer = okAnswer) ∧
        (a.mt < p.holdoffDue → Completes (.handover t m) s fun u => u.pair = p ∧ u.host.answer = ⟨.busy, .state⟩)) ∧
      (p.role ≠ .active ∨ p.mode = .single ∨ (p.mode = .full ∧ a.partnerFit = false) ∨ (p.mode = .lite ∧ s.energisedMask ≠ 0) →
        Completes (.handover t m) s fun u => u.pair = p ∧ u.host.answer = ⟨.denied, .state⟩) ∧
      (Completes (.clearUnfit t m) s fun u =>
        u.pair = { p with hold11 := false, unfitCode := if p.unfitCode = 11 then 10 else p.unfitCode } ∧ u.host.answer = okAnswer) ∧
      Completes (.pairClrCnt t m) s fun u => u.pair = { p with takeovers := 0, handovers := 0, releases := 0, divergeCnt := 0 } ∧ u.host.answer = okAnswer)

/-- Of R211, R334, R349, R455: heartbeats, policy segments and update heartbeats. Model's choices: log 76. -/
def Obligations.PairFrames : Prop :=
  ∀ (s : State) (t : Nat) (bytes : Bytes), s.live = true → s.pair.mode ≠ .single → bytes.length = 64 →
    let p := s.pair
    let a := s.arrive t
    let c := finMod 2 p.hbCh
    let frame (kind : Nat) (data : Bytes) : TxFrame := { kind, box := 0, ext := false, id := p.hbId + p.side, fd := true, brs := s.sbus.ch[c].brsOf true, dlc := 15, data }
    let sends (fs : List TxFrame) (u : State) : Prop := u.sbus = { s.sbus with ch := vupd s.sbus.ch c fun x => { x with queue := x.queue ++ fs } }
    let heard := partnerHeard p.partner a.mt bytes
    let wrong := p.disagree + (if heard.activeI = p.activeO then 0 else 1)
    (Completes (.heartbeatSend t) s (sends [frame 0 (heartbeatBytes a)])) ∧
    (s.active = true → Completes (.policySegmentSend t) s
      (sends [frame 1 (policySegment a 0), frame 1 (policySegment a 1), frame 1 (policySegment a 2)])) ∧
    (s.active = false → Completes (.policySegmentSend t) s fun u => u.sbus = s.sbus) ∧
    (Completes (.updateHeartbeatSend t) s (sends [frame 2 (updateHeartbeatBytes a)])) ∧
    (u8 bytes 0 = 1 → p.role ≠ .active ∨ heard.role ≠ some .active ∨ p.side ≠ 1 → Completes (.heartbeatFrame t bytes) s fun u =>
      u.pair.partner = heard ∧ u.pair.role = p.role ∧ u.pair.activeO = p.activeO ∧
      u.pair.disagree = (if heard.activeI = p.activeO then 0 else p.disagree + 1) ∧
      u.pair.interlockBad = decide (heard.activeI ≠ p.activeO ∧ 3 ≤ wrong) ∧ u.assume.interlock = decide (heard.activeI ≠ p.activeO ∧ 3 ≤ wrong)) ∧
    (u8 bytes 0 = 1 → p.role = .active → heard.role = some .active → p.side = 1 → Completes (.heartbeatFrame t bytes) s fun u =>
      u.pair.partner = heard ∧ u.pair.role = .unfit ∧ u.pair.unfitCode = 6 ∧ u.pair.activeO = false) ∧
    (u8 bytes 0 = 2 → u8 bytes 1 < 3 → s.active = false → Completes (.policySegmentFrame t bytes) s fun u =>
      u.pair.segments = tableSet (if u8 bytes 1 = 0 then [] else p.segments) (u8 bytes 1) (slice bytes 4 60)) ∧
    (u8 bytes 0 = 2 → s.active = true → Completes (.policySegmentFrame t bytes) s fun u => u.pair = p ∧ u.mkt = s.mkt) ∧
    (u8 bytes 0 = 3 → Completes (.updateHeartbeatFrame t bytes) s fun u =>
      u.pair.partner.runUid = slice bytes 4 16 ∧ u.pair.partner.stagedUid = slice bytes 20 16 ∧ u.pair.partner.actMode = u8 bytes 1 ∧
      (p.side = 1 → u.pair.mac = beNat (slice bytes 36 6) ∧ u.pair.macHeard = true) ∧ (p.side ≠ 1 → u.pair.mac = p.mac))

/-- Of R137, R145, R329, R383, R407, R433: the commands that clear counters and release a first record leave everything else as it was. Model's
choices: log 27. -/
def Obligations.CounterClears : Prop :=
  ∀ (s : State) (t : Nat) (m : Master), s.live = true → s.serves m = true →
    let a := { s.arrive t with host := { s.host with answer := okAnswer } }
    exec (.safClrCnt t m) s = .next { a with saf := { s.saf with
      si := vmap (fun _ p => { p with demands := 0, blips := 0, faults := 0 }) s.saf.si, so := vmap (fun _ p => { p with count := 0 }) s.saf.so } } ∧
    exec (.latClrCnt t m) s = .next { a with lat := { s.lat with
      lanes := Vector.replicate 8 {}, tovr := [], quarters := vmap (fun _ q => { q with stopReq := 0, hard := 0, ted := 0 }) s.lat.quarters } } ∧
    exec (.hostClrCnt t m) s = .next { a with host := { a.host with
      violCnt := 0, udpRequests := 0, udpForeign := 0, udpDuplicate := 0, spiRequests := 0, spiDropped := 0, spiBadCrc := 0 } } ∧
    exec (.violRelease t m) s = .next { a with host := { a.host with viol := { s.host.viol with valid := false } } } ∧
    exec (.clkClrCnt t m) s = .next { a with clk := { s.clk with refLoss := 0, unlock := 0, x32Loss := 0 } } ∧
    (s.pwr.pfw = false → exec (.pwrClrCnt t m) s = .next { a with pwr := { s.pwr with rstCount := 0 } }) ∧
    exec (.sbusClrCnt t m) s = .next { a with sbus := { s.sbus with
      ch := vmap (fun _ c => { c with exclErr := 0, retx := 0, refMiss := 0, busOff := 0, wrongWin := 0, rxDrop := 0 }) s.sbus.ch } } ∧
    Completes (.firstOvrRelease t m) s fun u => u.lat = { s.lat with firstOvr := { s.lat.firstOvr with valid := false } } ∧ u.host.answer = okAnswer

/-- Of R305, R310: the reset of an SI pair and the clear of an SO pair. -/
def Obligations.SafetyPairResets : Prop :=
  ∀ (s : State) (t : Nat) (m : Master) (k : Fin 16), s.live = true → s.serves m = true →
    let a := s.arrive t
    (∀ r, s.safRec 1 k.val = some r → siType r ≠ 2 → siManual r = true → s.saf.si[k].st = .waitReset →
      (inDemand r s.saf.si[k] = false → Completes (.siReset t m k.val) s fun u =>
        u.saf.si[k] = { s.saf.si[k] with st := .idle } ∧ (∀ j, j ≠ k → u.saf.si[j] = s.saf.si[j]) ∧ u.saf.sel = k.val ∧ u.host.answer = okAnswer) ∧
      (inDemand r s.saf.si[k] = true → Completes (.siReset t m k.val) s fun u => u.saf = { s.saf with sel := k.val } ∧ u.host.answer = okAnswer)) ∧
    (s.saf.si[k].st ≠ .waitReset → Completes (.siReset t m k.val) s fun u => u.saf = { s.saf with sel := k.val } ∧ u.host.answer = okAnswer) ∧
    (∀ r, s.safRec 2 k.val = some r → s.saf.so[k].st = .fault →
      (a.causeGone k r = true → Completes (.soClear t m k.val) s fun u =>
        u.saf.so[k] = { s.saf.so[k] with st := .off, cause := 0, needTest := true } ∧ (∀ j, j ≠ k → u.saf.so[j] = s.saf.so[j]) ∧ u.host.answer = okAnswer) ∧
      (a.causeGone k r = false → Completes (.soClear t m k.val) s fun u => u.saf = { s.saf with sel := k.val } ∧ u.host.answer = okAnswer)) ∧
    (s.saf.so[k].st ≠ .fault → Completes (.soClear t m k.val) s fun u => u.saf = { s.saf with sel := k.val } ∧ u.host.answer = okAnswer) ∧
    (∀ sel, 15 < sel →
      (Completes (.siReset t m sel) s fun u => u.saf = s.saf ∧ u.host.answer = deny .range) ∧ Completes (.soClear t m sel) s fun u => u.saf = s.saf ∧ u.host.answer = deny .range)

/-- Of R338, R339, R340, R343, R350, R352, R353, R355: the Seljo link, its time and its small messages. Model's choices: logs 75,
106 and 119. -/
def Obligations.SeljoLink : Prop :=
  ∀ (s : State) (t : Nat) (head : SeljoHead) (pm : PitchMsg) (b : Fin 12), s.live = true → s.pair.mode = .full →
    let p := s.pair
    let q := p.seljo
    let now := max s.mt t
    let noted (k : Fin 9) : Seljo := { q with got := vupd q.got k fun _ => head.seq }
    let recent := q.crcStamps.filter fun x => decide (now < x + 1000000)
    (∀ k c, (k, c) ∈ [(1, Instr.seljoTime t head 0 0 0 0), (2, .seljoPitch t head pm), (4, .seljoSession t head b {}), (6, .seljoCapture t head []),
        (7, .seljoHealth t head 0), (8, .seljoCtrl t head .releasing)] → seljoOk k head = false →
      (recent.length < 3 → Completes c s fun u =>
        u.pair = { p with seljo := { q with err := satInc 8 q.err, crcStamps := now :: recent } } ∧ u.mkt = s.mkt ∧ u.lat = s.lat) ∧
      (3 ≤ recent.length → Completes c s fun u => u.pair.seljo.up = false ∧ u.pair.seljo.err = satInc 8 q.err ∧ u.mkt = s.mkt ∧ u.lat = s.lat)) ∧
    (seljoOk 1 head = true → ∀ (t1 t2 t3 t4 : Nat) (o : Int), ((t2 : Int) - t1) - ((t4 : Int) - t3) = 2 * o →
      (s.follows = false → Completes (.seljoTime t head t1 t2 t3 t4) s fun u =>
        u.pair = { p with seljo := { noted 1 with offset := clampInt (-32768) 32767 o } } ∧ u.mt = now) ∧
      (s.follows = true → p.role ≠ .unfit → o < -1000000000 → Completes (.seljoTime t head t1 t2 t3 t4) s fun u =>
        u.pair.role = .unfit ∧ u.pair.unfitCode = 3 ∧ u.pair.seljo.lock = false) ∧
      (s.follows = true → -1000000000 ≤ o → Completes (.seljoTime t head t1 t2 t3 t4) s fun u =>
        u.pair.role = p.role ∧ u.pair.seljo.offset = clampInt (-32768) 32767 o ∧ u.pair.seljo.stepPend = false ∧
        u.mt = now + (if q.stepPend = true ∧ 0 < o then o.toNat else 0) ∧
        u.pair.seljo.goodRun = (if o.natAbs ≤ 4 then min 16 (q.goodRun + 1) else 0) ∧
        (8 < o.natAbs → u.pair.seljo.lock = false) ∧ (o.natAbs ≤ 4 → q.goodRun = 15 → u.pair.seljo.lock = true) ∧
        (o.natAbs ≤ 8 → q.lock = true → u.pair.seljo.lock = true))) ∧
    (seljoOk 4 head = true → ∀ x : Session,
      (p.role ≠ .active → s.pairKey.isSome = true → Completes (.seljoSession t head b x) s fun u =>
        u.bays[b].session = x ∧ u.bays[b].pilot.plca = (x.st != .idle) ∧
        u.bays[b].outlet.close = (sessCloses x.st && (s.saf.stops[b].st == .none || s.saf.stops[b].st == .ramp)) ∧
        u.pair.seljo.ack = (if head.flags.testBit 0 then some (4, head.seq) else q.ack) ∧ ∀ k, k ≠ b → u.bays[k] = s.bays[k]) ∧
      (p.role = .active ∨ s.pairKey = none → Completes (.seljoSession t head b x) s fun u => u.bays = s.bays)) ∧
    (seljoOk 7 head = true → ∀ bits, Completes (.seljoHealth t head bits) s fun u =>
      u.pair = { p with partner := { p.partner with health := bits % 2048 }, seljo := noted 7 }) ∧
    (seljoOk 8 head = true →
      (Completes (.seljoCtrl t head .releasing) s fun u => u.pair = { p with seljo := { noted 8 with partnerReleasing := true } } ∧ u.prof = s.prof) ∧
      (Completes (.seljoCtrl t head .released) s fun u => u.pair = { p with seljo := noted 8 } ∧ u.prof = s.prof) ∧
      (∀ slot uid,
        (s.active = true → Completes (.seljoCtrl t head (.profile slot uid)) s fun u =>
          u.pair = { p with seljo := { noted 8 with partnerLoaded := some (slot.val, uid) } } ∧
          ∀ x, s.prof.pend = some x → x.mode = .handover → x.slot = slot → x.image.header.uid = uid → x.loaded = none →
            u.prof.pend = some { x with loaded := some now }) ∧
        (s.active = false → s.mayFollowProfile slot uid = true → Completes (.seljoCtrl t head (.profile slot uid)) s fun u =>
          u.prof.slots[slot].st = .checking ∧ u.prof.check.map (·.slot) = some slot ∧ u.prof.check.bind (·.activate) = some .handover) ∧
        (s.active = false → s.mayFollowProfile slot uid = false → Completes (.seljoCtrl t head (.profile slot uid)) s fun u => u.prof = s.prof))) ∧
    (∀ r, s.bays[b].heldResp = some r → s.active = true → Completes (.seljoSessionAck t b) s fun u => u.bays[b].resp = some r ∧ u.bays[b].heldResp = none) ∧
    (s.bays[b].heldResp = none → Completes (.seljoSessionAck t b) s fun u => u.bays = s.bays) ∧
    (q.up = false →
      (p.role = .standby → Completes (.seljoLinkUp t) s fun u => u.pair.seljo.up = true ∧ u.pair.role = .syncing ∧ u.pair.seljo.lock = false ∧ u.pair.seljo.captured = false) ∧
      (p.role = .syncing → Completes (.seljoLinkUp t) s fun u => u.pair.seljo.up = true ∧ u.pair.role = .syncing ∧ u.pair.seljo.lock = false ∧ u.pair.seljo.captured = false) ∧
      (p.role ≠ .standby → p.role ≠ .syncing → Completes (.seljoLinkUp t) s fun u => u.pair = { p with seljo := { q with up := true } }) ∧
      Completes (.seljoLinkDown t) s fun u => u.pair = p ∧ u.bays = s.bays) ∧
    (q.up = true →
      (Completes (.seljoLinkUp t) s fun u => u.pair = p) ∧
      (p.role ≠ .standby → Completes (.seljoLinkDown t) s fun u => u.pair = { p with seljo := { q with up := false, crcStamps := [] } } ∧
        (s.active = true → ∀ r, s.bays[b].heldResp = some r → u.bays[b].resp = some r ∧ u.bays[b].heldResp = none)) ∧
      (p.role = .standby → Completes (.seljoLinkDown t) s fun u => u.pair.seljo.up = false ∧ (u.pair.role = .standby ∧ u.pair.degraded = true ∨ u.pair.role = .unfit)))

/-- Of R339, R341, R344, R347: what a module without ACTIVE does with its partner's inputs, and what asks the module that holds ACTIVE for
its state. Model's choices: logs 106 and 125. -/
def Obligations.Shadowing : Prop :=
  ∀ (s : State) (t : Nat) (head : SeljoHead) (img : Image), s.live = true → s.pair.mode = .full → s.prof.image = some img →
    let p := s.pair
    let q := p.seljo
    let noted (k : Fin 9) : Seljo := { q with got := vupd q.got k fun _ => head.seq }
    let diverged (u : State) : Prop := u.pair.role = .syncing ∧ u.pair.divergeCnt = satInc 8 p.divergeCnt ∧ u.pair.seljo.captured = false ∧
      u.pair.seljo.agreePitch = 0 ∧ u.pair.seljo.agreeTick = 0
    (seljoOk 2 head = true → ∀ msg : PitchMsg, let items := pitchItems img.header.stallMask msg
      (p.role = .standby ∨ p.role = .syncing → (∀ x, q.pitchDigest ≠ some (head.time, x)) → Completes (.seljoPitch t head msg) s fun u =>
        u.pair = { p with seljo := { noted 2 with pitch := some (head.time, items), replay := if s.shadows then q.replay else q.replay ++ [(head.time, items)] } }) ∧
      (s.shadows = true → q.pitchDigest = some (head.time, msg.digest) → Completes (.seljoPitch t head msg) s fun u =>
        u.pair = { p with seljo := { noted 2 with pitch := some (head.time, items), agreedPitch := head.time,
                                                  agreePitch := if q.agreedPitch = head.time - s.pitchNs then q.agreePitch + 1 else 1 } }) ∧
      (∀ x, s.shadows = true → q.pitchDigest = some (head.time, x) → x ≠ msg.digest → Completes (.seljoPitch t head msg) s fun u =>
        diverged u ∧ u.pair.seljo.pitch = some (head.time, items) ∧ u.pair.seljo.replay = [(head.time, items)]) ∧
      (p.role ≠ .standby → p.role ≠ .syncing → Completes (.seljoPitch t head msg) s fun u => u.pair = { p with seljo := noted 2 })) ∧
    (seljoOk 3 head = true → ∀ snap digest,
      (s.shadows = true → ∀ b x, q.tickDigest = some (b, x) → b + 1000000 = head.time →
        (x = digest → p.role = .standby → Completes (.seljoTick t head snap digest) s fun u =>
          u.pair.seljo.agreeTick = (if q.agreedTick = b - 1000000 then q.agreeTick + 1 else 1) ∧ u.pair.seljo.agreedTick = b ∧ u.pair.seljo.snap = some snap ∧ u.pair.role = p.role ∧
          (s.clearingImage.isSome = true → u.mkt.result.isSome = true)) ∧
        (x ≠ digest → Completes (.seljoTick t head snap digest) s diverged)) ∧
      (p.role ≠ .standby → p.role ≠ .syncing → q.tickDigest = none → Completes (.seljoTick t head snap digest) s fun u =>
        u.pair = { p with seljo := noted 3 } ∧ u.mkt = s.mkt)) ∧
    (seljoOk 5 head = true → ∀ msg : StateMsg,
      (p.role = .standby ∨ p.role = .syncing → Completes (.seljoState t head msg) s fun u =>
        u.pair.seljo.stateTaken = (q.stateTaken || p.role == .syncing) ∧ u.pair.partner.auxDuty = (List.range 24).map (fun n => msg.auxDuty.getD n 0) ∧
        u.pair.seljo.captureAsked = (q.captureAsked || (p.role == .syncing && q.lock && !q.captured)) ∧
        (∀ b : Fin 12, u.saf.stops[b] = msg.safeStops.getD b.val {}) ∧ (∀ k : Fin 8, u.mkt.moves[k] = msg.slots.getD k.val {})) ∧
      (p.role ≠ .standby → p.role ≠ .syncing → Completes (.seljoState t head msg) s fun u =>
        u.pair = { p with seljo := noted 5 } ∧ u.saf = s.saf ∧ u.mkt = s.mkt ∧ u.stalls = s.stalls)) ∧
    (seljoOk 6 head = true → ∀ tiles,
      (p.role = .active → Completes (.seljoCapture t head tiles) s fun u => u.pair = { p with seljo := { noted 6 with capturePend := true } } ∧ u.lat = s.lat) ∧
      (p.role = .syncing → q.lock = true → q.stateTaken = true → q.captured = false → (∀ x ∈ q.replay, x.1 ≤ head.time) → Completes (.seljoCapture t head tiles) s fun u =>
        u.pair.seljo = { noted 6 with captured := true, agreePitch := 0, agreeTick := 0, replay := [] } ∧
        u.lat = { s.lat with tiles := captureTiles tiles s.lat.tiles, pitch := head.time }) ∧
      (p.role ≠ .active → p.role ≠ .syncing ∨ q.lock = false ∨ q.stateTaken = false ∨ q.captured = true →
        Completes (.seljoCapture t head tiles) s fun u => u.pair = { p with seljo := noted 6 } ∧ u.lat = s.lat))

/-- Of R341: the shadow window opens 900 ns after the window of the module that holds ACTIVE, on the inputs of its PITCH message,
and where that is missing on those of the module's own ports. -/
def Obligations.ShadowWindow : Prop :=
  ∀ (s : State) (t : Nat) (img : Image), s.live = true → s.prof.image = some img → s.shadows = true →
    let b := t - (s.openNs + 900)
    (s.openNs + 900 ≤ t → s.isBoundary b = true → s.lat.windowOpen = false → s.lat.pitch ≠ b → Completes (.shadowWindowOpen t) s fun u =>
      u.lat.windowOpen = true ∧ u.lat.shadow = true ∧ u.lat.pitch = b ∧
      (∀ items, s.pair.seljo.pitch = some (b, items) → (items.map fun x => x.1).Nodup → ∀ (n : Fin 64) (usable : Bool) (bytes : Bytes), (n.val, usable, bytes) ∈ items →
        (usable = true → u.stalls[n].up = some (pitchUplink b bytes) ∧ u.stalls[n].upAt = b ∧ u.stalls[n].sampleAt = b) ∧
        (usable = false → u.stalls[n].up = s.stalls[n].up ∧ u.stalls[n].upAt = s.stalls[n].upAt)) ∧
      ((∀ items, s.pair.seljo.pitch ≠ some (b, items)) → ∀ (n : Fin 64) (bytes : Bytes), (s.stallRec n).isSome = true → s.stalls[n].link.own = some (b, bytes) → bytes ≠ [] →
        u.stalls[n].up = some (uplinkOf bytes) ∧ u.stalls[n].upAt = b ∧ u.stalls[n].sampleAt = b)) ∧
    (t < s.openNs + 900 ∨ s.isBoundary b = false → Completes (.shadowWindowOpen t) s fun u => u.lat = s.lat)

/-- Of R365, R366, R367, R368, R379: references sent, received and missed. Model's choices: log 79. -/
def Obligations.BusReferences : Prop :=
  ∀ (s : State) (t : Nat) (ch : Fin 2), s.live = true →
    let b := s.sbus
    let c := b.ch[ch]
    let q := s.busCycle
    (∀ w start, s.referenceStart ch t = some (w, start) → s.busMaster = true → s.chInUse ch = true → b.bus = .awake → c.err ≠ 2 → c.wire = .none →
      s.mayLead ch t start = true → c.referenceFits w = true → Completes (.referenceSend t ch) s fun u =>
        let disc := c.disc || (!c.lead && s.pair.mode == .lite)
        let pay := referencePayload (t / q.1 % q.2) (s.pair.side + 2 * b2n disc) (t / q.1 / q.2) (if disc then 0 else c.prevSof)
        u.sbus.ch[ch] = { c with lead := true, disc := false, prevSof := t, sync := true, missRun := 0, wire := .reference,
                                      refOut := some ⟨w.canId.testBit 31, w.canId % 2 ^ 29, true, c.dataRate != 0, c.err == 1, false, 9, pay⟩ } ∧
        ∀ k, k ≠ ch → u.sbus.ch[k] = b.ch[k]) ∧
    (∀ w start, s.referenceStart ch t = some (w, start) → c.referenceFits w = false → Completes (.referenceSend t ch) s fun u => u.sbus = b) ∧
    (b.bus = .announcing → c.announce = 0 → Completes (.referenceSend t ch) s fun u => u.sbus = b) ∧
    (s.busMaster = false ∨ b.bus = .asleep ∨ c.err = 2 → Completes (.referenceSend t ch) s fun u => u.sbus = b) ∧
    (s.running = true → s.chInUse ch = true → c.lead = false →
      (∀ payload w, payload.length = 12 → u8 payload 0 < q.2 → s.referenceFor ch t (u8 payload 0) = some w → b.bus = .awake →
        ((u8 payload 1).testBit 2 = false → Completes (.referenceReceived t ch payload) s fun u =>
          u.sbus.ch[ch] = { c with gridStart := t - w.startNs, cycle := u8 payload 0, prevSof := t, disc := false, sync := true, missRun := 0 } ∧ u.sbus.bus = .awake) ∧
        ((u8 payload 1).testBit 2 = true → Completes (.referenceReceived t ch payload) s fun u => u.sbus.ch[ch].sync = true ∧ u.sbus.ch[ch].announce = 3 ∧ u.sbus.bus = .announcing)) ∧
      (∀ payload, payload.length ≠ 12 ∨ q.2 ≤ u8 payload 0 → Completes (.referenceReceived t ch payload) s fun u => u.sbus = b) ∧
      (c.missRun < 2 ∨ c.sync = false → Completes (.referenceMissing t ch) s fun u => u.sbus.ch[ch] = { c with missRun := min 3 (c.missRun + 1), refMiss := satInc 8 c.refMiss }) ∧
      (2 ≤ c.missRun → c.sync = true → Completes (.referenceMissing t ch) s fun u =>
        u.sbus.ch[ch] = { c with missRun := 3, refMiss := satInc 8 c.refMiss, sync := false } ∧ u.assume.busLoad = true)) ∧
    (c.lead = true → Completes (.referenceMissing t ch) s fun u => u.sbus = b)

/-- Of R379, R380, R381, R382: sleep and wake of the site bus. Model's choices: log 144. -/
def Obligations.BusSleepWake : Prop :=
  ∀ (s : State) (t : Nat) (m : Master), s.live = true → s.serves m = true →
    let b := s.sbus
    let now := max s.mt t
    (s.busMaster = true → b.bus = .awake → (∃ ch, s.chInUse ch = true) → Completes (.busSleep t m) s fun u =>
      u.sbus.sleep = true ∧ u.sbus.bus = .announcing ∧ (∀ ch : Fin 2, u.sbus.ch[ch].announce = 4) ∧ u.host.answer = okAnswer) ∧
    (s.busMaster = false → Completes (.busSleep t m) s fun u => u.sbus = b ∧ u.host.answer = deny .state) ∧
    (b.bus = .announcing → b.sleep = false → Completes (.busWakeWrite t m) s fun u => u.sbus = b ∧ u.host.answer = okAnswer) ∧
    (b.bus = .announcing → b.sleep = true → Completes (.busWakeWrite t m) s fun u =>
      u.sbus.bus = .awake ∧ u.sbus.sleep = false ∧ (∀ ch : Fin 2, u.sbus.ch[ch].announce = 0) ∧ u.host.answer = okAnswer) ∧
    (b.bus = .asleep → Completes (.busWakeWrite t m) s fun u =>
      u.sbus.bus = .awake ∧ u.sbus.sleep = false ∧ u.sbus.wakeSrc = 0 ∧ u.sbus.wokeAt = some now ∧ (∀ ch : Fin 2, u.sbus.ch[ch].disc = true) ∧ u.host.answer = okAnswer) ∧
    (∀ n, (wakeMet b (.wakeI n) = true ↔ b.wakeMode.testBit 0 = true ∧ b.wakeFilt * 1000 ≤ n) ∧
      (wakeMet b (.dominant0 n) = true ↔ b.wakeMode.testBit 1 = true ∧ b.wakeFilt * 1000 ≤ n) ∧
      (wakeMet b (.dominant1 n) = true ↔ b.wakeMode.testBit 1 = true ∧ b.wakeFilt * 1000 ≤ n)) ∧
    (wakeMet b .errors = true ↔ b.wakeMode.testBit 2 = true ∧ 31 < b.wakeErr) ∧
    (∀ f, wakeMet b (.frame f) = true ↔ b.wakeMode.testBit 2 = true ∧ wakeFrame b f = true) ∧
    (∀ src, (wakeMet b src = true → b.bus = .asleep → Completes (.busWake t src) s fun u =>
        u.sbus.bus = .awake ∧ u.sbus.sleep = false ∧ u.sbus.wakeSrc = (busWakeCode src).1 ∧ u.sbus.wokeAt = some now ∧ ∀ ch : Fin 2, u.sbus.ch[ch].disc = true) ∧
      (wakeMet b src = false ∨ b.bus = .awake → Completes (.busWake t src) s fun u => u.sbus = b))

/-- Of R362, R369, R370, R374, R375, R378, R486: the transmit queue of a channel and its mailboxes. Model's choices: logs 80,
82, 83 and 141. -/
def Obligations.BusSending : Prop :=
  ∀ (s : State) (t : Nat) (m : Master) (ch : Fin 2) (k : Fin 8), s.live = true → s.serves m = true →
    let b := s.sbus
    let c := b.ch[ch]
    let x := b.boxes[k]
    let now := max s.mt t
    let sof := t + c.bitNs
    (∀ start len, s.arbOccurrence ch sof = some (start, len) →
      (c.occStart = start → c.occEnd = start + len →
        (∀ f r, c.queue = f :: r → s.mayStart ch = true →
          (mayAttempt c f sof = true → 0 < f.attempts ∨ s.quiet ch = false → Completes (.arbitratingWindow t ch true) s fun u =>
            let retx := if 0 < f.attempts then satInc 8 c.retx else c.retx
            u.sbus.ch[ch] = { c with queue := { f with brs := c.brsOf f.brs, attempts := f.attempts + 1, commitAt := now, retxAt := c.retx } :: r, charged := c.charged + txNs c f, wire := .queued, retx } ∧
            (f.kind = 3 → f.box = k.val → u.sbus.boxes[k].result = .sending ∧ u.sbus.boxes[k].attempts = satInc 16 x.attempts)) ∧
          (mayAttempt c f sof = false ∨ (f.attempts = 0 ∧ s.quiet ch = true) → Completes (.arbitratingWindow t ch true) s fun u => u.sbus = b)) ∧
        Completes (.arbitratingWindow t ch false) s fun u => u.sbus = b) ∧
      (c.occStart ≠ start → Completes (.arbitratingWindow t ch false) s fun u =>
        u.sbus.ch[ch] = { c with charged := 0, occStart := start, occEnd := start + len, headWait := if c.queue = [] then 0 else min 5 (c.headWait + 1) } ∧
        (c.queue ≠ [] → 4 ≤ c.headWait → u.assume.busLoad = true))) ∧
    (c.headWait = 4 → c.occEnd ≤ now → Completes (.arbitratingWindow t ch false) s fun u => u.assume.busLoad = true) ∧
    (∀ f r, c.queue = f :: r → c.wire = .queued →
      (Completes (.canTxComplete t ch) s fun u =>
        u.sbus.ch[ch].queue = r ∧ u.sbus.ch[ch].wire = .none ∧ u.sbus.ch[ch].headWait = 0 ∧ u.sbus.ch[ch].tec = min 255 (c.tec - 1) ∧
        (f.kind = 3 → f.box = k.val → u.sbus.boxes[k].result = if x.cancelHeld then .sentCancelLate else .sent)) ∧
      (Completes (.canTxError t ch .lost) s fun u =>
        u.sbus.ch[ch].wire = .none ∧ u.sbus.ch[ch].tec = min 255 c.tec ∧ u.sbus.ch[ch].charged = c.charged - txNs c f ∧
        (f.kind = 3 → f.box = k.val → x.cancelHeld = false → u.sbus.ch[ch].queue = f :: r ∧ u.sbus.boxes[k].result = .pending)) ∧
      (Completes (.canTxError t ch .noAck) s fun u => u.sbus.ch[ch].wire = .none ∧ u.sbus.ch[ch].tec = min 255 (c.tec + if c.err = 1 then 0 else 8)) ∧
      Completes (.canTxError t ch .error) s fun u =>
        u.sbus.ch[ch].wire = .none ∧ u.sbus.ch[ch].tec = min 255 (c.tec + 8) ∧ u.sbus.ch[ch].charged = c.charged ∧
        (f.kind = 3 → f.box = k.val → x.cancelHeld = true → u.sbus.ch[ch].queue = r ∧ u.sbus.boxes[k].result = .cancelled)) ∧
    (c.wire = .none → (Completes (.canTxComplete t ch) s fun u => u.sbus = b) ∧ ∀ how, how ≠ .flag → Completes (.canTxError t ch how) s fun u => u.sbus = b) ∧
    (∀ w : Word, let v := w.toNat
      let n := dlcLen (v.testBit 19) (bits v 0 4)
      let f : TxFrame := { kind := 3, box := k.val, ext := x.ext, id := x.id, fd := v.testBit 19,
                            brs := b.ch[finMod 2 (bits v 20 1)].brsOf (v.testBit 18), dlc := bits v 0 4, data := memRange x.data 0 n }
      (v.testBit 30 = true → Completes (.mailboxSend t m k w) s fun u => u.sbus = b ∧ u.host.answer = deny .range) ∧
      (v.testBit 30 = false → sendRefusal s k v = none → Completes (.mailboxSend t m k w) s fun u =>
        u.sbus.ch = vupd b.ch (finMod 2 (bits v 20 1)) (fun y => { y with queue := y.queue ++ [f] }) ∧
        u.sbus.boxes[k].result = .pending ∧ u.sbus.boxes[k].data = x.data ∧ u.host.answer = okAnswer) ∧
      (∀ a, v.testBit 30 = false → sendRefusal s k v = some a → Completes (.mailboxSend t m k w) s fun u => u.sbus = b ∧ u.host.answer = a)) ∧
    (x.result = .sending → x.channel = ch.val → ∀ f r, c.queue = f :: r → f.kind = 3 → f.box = k.val →
      (now ≤ f.commitAt → Completes (.mailboxCancel t m k) s fun u =>
        u.sbus.ch[ch].wire = .none ∧ u.sbus.ch[ch].queue = r.filter (fun f => !(f.kind == 3 && f.box == k.val)) ∧ u.sbus.ch[ch].charged = c.charged - txNs c f ∧
        u.sbus.boxes[k].result = .cancelled ∧ u.sbus.boxes[k].attempts = min 65535 (f.attempts - 1)) ∧
      (f.commitAt < now → Completes (.mailboxCancel t m k) s fun u => u.sbus = { b with boxes := vupd b.boxes k fun y => { y with cancelHeld := true } })) ∧
    (x.result = .pending → x.channel = ch.val → Completes (.mailboxCancel t m k) s fun u =>
      u.sbus.ch[ch].queue = c.queue.filter (fun f => !(f.kind == 3 && f.box == k.val)) ∧ u.sbus.boxes[k].result = .cancelled) ∧
    (txBusy x.result = false → Completes (.mailboxCancel t m k) s fun u => u.sbus = b ∧ u.host.answer = okAnswer)

/-- Of R372, R373, R374, R375: the transmit-at-time buffers. Model's choices: logs 82, 135 and 142. -/
def Obligations.TransmitAtTime : Prop :=
  ∀ (s : State) (t : Nat) (m : Master) (k : Fin 4), s.live = true → s.serves m = true →
    let b := s.sbus
    let x := b.tats[k]
    let now := max s.mt t
    let bit := b.ch[finMod 2 x.channel].bitNs
    let a := s.arrive t
    (∀ sof ch w, a.tatNext x = some sof → s.bufWindow x = some (ch, w) → x.result ≠ .sending →
      (sof = t + b.ch[ch].bitNs → ∀ idle,
        (tatObstacle a x ch sof idle = none → Completes (.tatCommitPoint t k idle) s fun u =>
          u.sbus.tats[k].result = .sending ∧ u.sbus.tats[k].attempts = 1 ∧ u.sbus.tats[k].commitAt = now ∧ u.sbus.ch[ch].wire = .tat k ∧
          u.sbus.tats[k].data = (if x.loadPend then x.shadow else x.data) ∧ u.sbus.tats[k].loadPend = false) ∧
        (∀ r, tatObstacle a x ch sof idle = some r → Completes (.tatCommitPoint t k idle) s fun u =>
          u.sbus.tats[k].result = (if x.cancelHeld then .cancelled else r) ∧ u.sbus.ch = b.ch ∧ u.sbus.tats[k].data = (if x.loadPend then x.shadow else x.data) ∧
          u.sbus.tats[k].next = (if x.periodic = false ∨ x.cancelHeld = true then none else some (a.occurrenceEnd x sof)))) ∧
      (sof ≠ t + b.ch[ch].bitNs → ∀ idle, Completes (.tatCommitPoint t k idle) s fun u => u.sbus = b)) ∧
    (∀ w : Word, let v := w.toNat
      (v.testBit 30 = true → (Completes (.tatArm t m k w) s fun u => u.sbus = b ∧ u.host.answer = deny .range) ∧
        Completes (.tatLoad t m k w) s fun u => u.sbus = b ∧ u.host.answer = deny .range) ∧
      (v.testBit 30 = false → armRefusal a k v = none → Completes (.tatArm t m k w) s fun u =>
        u.sbus.tats[k].result = .pending ∧ u.sbus.tats[k].attempts = 0 ∧ u.sbus.tats[k].fd = v.testBit 19 ∧
        (∀ ch w, s.bufWindow x = some (ch, w) → u.sbus.tats[k].brs = b.ch[ch].brsOf (v.testBit 18)) ∧
        u.sbus.tats[k].dlc = bits v 0 4 ∧ (x.periodic = false → u.sbus.tats[k].next = some x.time) ∧
        (x.periodic = true → ∀ ch w, s.bufWindow x = some (ch, w) → u.sbus.tats[k].next = some (now + b.ch[ch].bitNs)) ∧ u.sbus.tats[k].loadPend = (x.loadPend || v.testBit 29) ∧
        u.host.answer = okAnswer) ∧
      (∀ r, v.testBit 30 = false → armRefusal a k v = some r → Completes (.tatArm t m k w) s fun u => u.sbus = b ∧ u.host.answer = r) ∧
      (v.testBit 30 = false → v.testBit 31 = false → Completes (.tatLoad t m k w) s fun u =>
        u.sbus = { b with tats := vupd b.tats k fun y => { y with loadPend := true } } ∧ u.host.answer = okAnswer) ∧
      (v.testBit 30 = false → v.testBit 31 = true → armRefusal a k v = none → Completes (.tatLoad t m k w) s fun u =>
        u.sbus.tats[k].result = .pending ∧ u.sbus.tats[k].loadPend = true ∧ u.host.answer = okAnswer)) ∧
    (x.result = .sending →
      (now ≤ x.commitAt → Completes (.tatCancel t m k) s fun u =>
        u.sbus.tats[k].result = .cancelled ∧ u.sbus.tats[k].attempts = 0 ∧ u.sbus.tats[k].next = none ∧ u.sbus.ch[finMod 2 x.channel].wire = .none) ∧
      (x.commitAt < now → Completes (.tatCancel t m k) s fun u => u.sbus = { b with tats := vupd b.tats k fun y => { y with cancelHeld := true } })) ∧
    (x.result ≠ .sending → ∀ sof, a.tatNext x = some sof →
      (now + bit ≤ sof → Completes (.tatCancel t m k) s fun u => u.sbus.tats[k].result = .cancelled ∧ u.sbus.tats[k].next = none) ∧
      (sof < now + bit → Completes (.tatCancel t m k) s fun u => u.sbus = { b with tats := vupd b.tats k fun y => { y with cancelHeld := true } })) ∧
    (x.result ≠ .sending → a.tatNext x = none →
      (x.result = .pending → Completes (.tatCancel t m k) s fun u => u.sbus.tats[k].result = .cancelled ∧ u.sbus.tats[k].next = none) ∧
      (x.result ≠ .pending → Completes (.tatCancel t m k) s fun u => u.sbus = b ∧ u.host.answer = okAnswer))

/-- Of R357, R376, R377, R378, R382, R383: frames received, misses, the receive FIFOs and the error states. Model's choices: log 80. -/
def Obligations.BusReception : Prop :=
  ∀ (s : State) (t : Nat) (m : Master) (ch : Fin 2) (k : Fin 32), s.live = true → s.serves m = true →
    let b := s.sbus
    let c := b.ch[ch]
    let x := b.slots[k]
    (∀ (f : CanFrame) (idx : Nat) (w : BusWin) (start : Nat), s.chInUse ch = true → c.err ≠ 2 → c.rec_ ≤ 127 → s.windowAt ch t = some (idx, w, start) →
      let e : RxEntry := { frame := f, winKind := w.kind, winIndex := idx, stamp := t }
      let own := w.canId % 2 ^ 29 = f.id ∧ w.canId.testBit 31 = f.ext
      let hit := ∃ i : Fin 8, filterHit c.filters[i] f = true
      Completes (.canFrameReceived t ch f) s fun u =>
        u.sbus.ch[ch].rec_ = c.rec_ - 1 ∧ u.sbus.ch[ch].err = errOf c.tec (c.rec_ - 1) ∧
        (f.remote = true ∨ ¬hit → u.sbus.ch[ch].fifo = c.fifo) ∧
        (f.remote = false → hit → c.fifo.length < 64 → u.sbus.ch[ch].fifo = c.fifo ++ [e]) ∧
        (f.remote = false → hit → 64 ≤ c.fifo.length → u.sbus.ch[ch].fifo = c.fifo ∧ u.sbus.ch[ch].rxDrop = satInc 16 c.rxDrop) ∧
        (f.remote = false → w.kind = 0 → own → u.sbus.ch[ch].wrongWin = c.wrongWin ∧
          (x.en = true → x.channel = ch.val → x.window = idx → u.sbus.slots[k] = { x with entry := some e, miss := 0 }) ∧
          (x.en = false ∨ x.channel ≠ ch.val ∨ x.window ≠ idx → u.sbus.slots[k] = x)) ∧
        (f.remote = false → (w.kind = 0 ∧ ¬own) ∨ w.kind = 3 → u.sbus.ch[ch].wrongWin = satInc 16 c.wrongWin ∧ u.assume.busLoad = true ∧ u.sbus.slots = b.slots)) ∧
    (∀ f, s.chInUse ch = false ∨ c.err = 2 → Completes (.canFrameReceived t ch f) s fun u =>
      u.sbus = { b with wakeErr := if b.wakeCh = ch.val ∧ f.fd = false ∧ f.remote = false then b.wakeErr - 1 else b.wakeErr }) ∧
    (∀ w, x.en = true → s.slotWindow x = some w → (∀ e, x.entry = some e → e.stamp + w.lengthNs < t) → Completes (.slotMiss t k) s fun u =>
      u.sbus = { b with slots := vupd b.slots k fun y => { y with miss := satInc 6 y.miss } }) ∧
    (x.en = false ∨ s.slotWindow x = none → Completes (.slotMiss t k) s fun u => u.sbus = b) ∧
    (Completes (.fifoPop t m ch) s fun u => u.sbus = { b with ch := vupd b.ch ch fun y => { y with fifo := y.fifo.drop 1 } } ∧ u.host.answer = okAnswer) ∧
    (c.err = 2 → Completes (.busOffRecovery t ch) s fun u => u.sbus.ch[ch] = { c with tec := 0, rec_ := 0, err := 0 }) ∧
    (c.err ≠ 2 → Completes (.busOffRecovery t ch) s fun u => u.sbus = b) ∧
    (∀ how, c.err ≠ 2 → s.chInUse ch = true → Completes (.canRxError t ⟨ch, how⟩) s fun u =>
      let n := if how = .flag then 8 else 1
      u.sbus.ch[ch].rec_ = min 255 (c.rec_ + n) ∧ u.sbus.ch[ch].err = errOf c.tec (c.rec_ + n) ∧
      u.sbus.wakeErr = if b.wakeCh = ch.val ∧ b.wakeMode.testBit 2 = true ∧ how = .detected false then b.wakeErr + 1 else b.wakeErr) ∧
    (c.err ≠ 2 → s.chInUse ch = true → Completes (.canTxError t ch .flag) s fun u =>
      u.sbus.ch[ch].tec = min 255 (c.tec + 8) ∧ u.sbus.ch[ch].err = errOf (c.tec + 8) c.rec_)

/-- Of R391, R396, R397, R398, R399, R400, R401: what a frame that reaches the UDP port or the SPI port does. Model's choices:
logs 8, 36, 40 and 136. -/
def Obligations.HostPorts : Prop :=
  ∀ (s : State) (t : Nat), s.live = true →
    let h := s.host
    let a := s.arrive t
    (∀ d, acceptable d = false → Completes (.udpDatagram t d) s fun u => u.host = h) ∧
    (∀ d, acceptable d = true → allowed s d.srcIp = false → Completes (.udpDatagram t d) s fun u => u.host = { h with udpForeign := satInc 8 h.udpForeign }) ∧
    (∀ d, acceptable d = true → allowed s d.srcIp = true →
      let f := d.payload
      let o : Origin := ⟨false, d.srcIp, d.srcPort⟩
      (requestCrcOk f = false → Completes (.udpDatagram t d) s fun u => u.host.netOut = tallyOut h o (badCrcReply f a.mt) ∧ u.host.udpQueue = h.udpQueue ∧ u.host.kept = h.kept) ∧
      (requestCrcOk f = true →
        (∀ k, keptFor a o (u16 f 2) (u32 f (f.length - 4)) = some k → Completes (.udpDatagram t d) s fun u =>
          u.host.netOut = tallyOut h o k.reply ∧ u.host.udpQueue = h.udpQueue ∧ u.host.udpDuplicate = satInc 8 h.udpDuplicate) ∧
        (keptFor a o (u16 f 2) (u32 f (f.length - 4)) = none →
          (parseRequest o f = none → Completes (.udpDatagram t d) s fun u => u.host.netOut = tallyOut h o (refusalReply f ⟨.badLen, .format⟩ a.mt) ∧ u.host.udpQueue = h.udpQueue) ∧
          ∀ q, parseRequest o f = some q →
            (h.udpQueue.length < 16 → Completes (.udpDatagram t d) s fun u => u.host.netOut = h.netOut ∧ u.host.udpQueue = h.udpQueue ++ [{ q with at_ := a.mt }]) ∧
            (16 ≤ h.udpQueue.length → Completes (.udpDatagram t d) s fun u =>
              u.host.netOut = tallyOut h o (refusalReply f ⟨.busy, .rate⟩ a.mt) ∧ u.host.udpQueue = h.udpQueue ∧ u.host.kept = h.kept)))) ∧
    (∀ target ip mac, exec (.arpRequest t target ip mac) s =
      .next (if target = h.netIp then { a with host := { h with netOut := .arp h.netIp Config.portMac ip mac } } else a)) ∧
    (∀ ip data, exec (.icmpEcho t ip data) s = .next { a with host := { h with netOut := .icmp ip data } }) ∧
    exec (.spiStatus t) s = .next { a with host := { h with spiOut := [spiStatus h] } } ∧
    (∀ bytes, h.spiQueue.isSome = true → Completes (.spiRequest t bytes) s fun u =>
      u.host = { h with spiOut := [spiStatus h], spiDrop := true, spiDropped := satInc 8 h.spiDropped }) ∧
    (∀ bytes q, h.spiQueue = none → requestCrcOk bytes = true → keptFor a spiOrigin (u16 bytes 2) (u32 bytes (bytes.length - 4)) = none → parseRequest spiOrigin bytes = some q →
      Completes (.spiRequest t bytes) s fun u => u.host.spiQueue = some { q with at_ := a.mt } ∧ u.host.spiReply = none ∧ u.host.spiOut = [spiStatus h]) ∧
    (∀ f, h.spiReply = some f → Completes (.spiFetch t) s fun u =>
      u.host = { h with spiOut := [spiStatus h] ++ leBytes 2 f.length ++ f, spiDrop := false })

/-- Of R7, R385, R386, R392, R393, R394, R398, R404, R406, R485, R518: the transactions of the host ports and of the masters inside the
module, what a word written or read does by the access type of its register, and the rate of the ports. Model's choices: logs 23, 25,
26, 37, 41, 42 and 130. -/
def Obligations.Transactions : Prop :=
  ∀ (s : State) (t : Nat) (m : Master) (tag addr : Nat), s.live = true →
    let a := s.arrive t
    let held (write : Bool) (x : Answer) (u : State) : Prop := u.host.answer = x ∧ u.host.violCnt = satInc 32 s.host.violCnt ∧
      u.host.viol = if s.host.viol.valid then s.host.viol else
        { valid := true, master := masterCode m, world := worldCode (addrWorld addr), write := write, status := statusCode x.status, detail := detailCode x.detail,
          addr := addr, time := a.mt }
    let refused (v : Word) (x : Answer) : Prop := exec (.registerWrite t m addr v) s = .next { a with host := { s.host with answer := x } }
    let room : Prop := s.pwr.pfw = false ∧ s.policyFull 4 = false
    (∀ v : Word,
      (addr % 4 ≠ 0 ∨ (0x02400000 ≤ addr ∧ addr < 0x04000000) ∨ 0x06000000 ≤ addr → Completes (.registerWrite t m addr v) s (held true ⟨.unmapped, .none⟩)) ∧
      (addr % 4 = 0 → 0x05000000 ≤ addr → addr < 0x06000000 → Completes (.registerWrite t m addr v) s (held true (deny .access))) ∧
      (addr % 4 = 0 → 0x04000000 ≤ addr → addr < 0x05000000 → worldOf m ≠ .metrology → Completes (.registerWrite t m addr v) s (held true (deny .access))) ∧
      (addr % 4 = 0 → 0x04000000 ≤ addr → addr < 0x05000000 → worldOf m = .metrology →
        exec (.registerWrite t m addr v) s = .next { a with met := { s.met with core := memWrites s.met.core (addr - 0x04000000) (leBytes 4 v.toNat) },
                                                            host := { s.host with answer := okAnswer } }) ∧
      ((mapPeek a m addr).isSome = true → privateAddr addr = false → s.serves m = false → Completes (.registerWrite t m addr v) s (held true (deny .access))) ∧
      (addr % 4 = 0 → 0x01400000 ≤ addr → addr < 0x02400000 → Completes (.registerWrite t m addr v) s (held true (deny .access)))) ∧
    (m ≠ .udp → m ≠ .spi → addr % 4 = 0 →
      (0x02400000 ≤ addr → addr < 0x04000000 → Completes (.readList t m tag [addr]) s fun u => u.host.data = [0] ∧ held false ⟨.unmapped, .none⟩ u) ∧
      ((mapPeek a m addr).isSome = true → privateAddr addr = false → s.serves m = false → Completes (.readList t m tag [addr]) s fun u => u.host.data = [0] ∧ held false (deny .access) u) ∧
      (s.serves m = true → addr ∈ [0x40, 0x60, 0x00010004, 0x00010100, 0x00100000, 0x00A00060] →
        exec (.readList t m tag [addr]) s = .next { a with host := { s.host with answer := okAnswer, data := [0] } })) ∧
    (s.serves m = true → ∀ v : Word,
      let n := v.toNat
      (addr ∈ [0x00, 0x44, 0x00010010, 0x00010104, 0x00010224, 0x00700008, 0x00A00000, 0x00A00050] → refused v okAnswer) ∧
      (addr = 0x00240104 →
        let vTh := n / 65536
        let iTh := n % 65536
        let good : Prop := 1 ≤ vTh ∧ vTh ≤ 0x7FFF ∧ 1 ≤ iTh ∧ iTh ≤ 0x7FFF
        (good → room → Completes (.registerWrite t m addr v) s fun u => u.stl = { s.stl with vTh, iTh } ∧ u.host = { s.host with answer := okAnswer } ∧ u.stalls = s.stalls) ∧
        (good → ¬room → refused v ⟨.busy, .mram⟩) ∧ (¬good → refused v (deny .range))) ∧
      (addr = 0x80 → Completes (.registerWrite t m addr v) s fun u => u.host.answer = okAnswer ∧
        u.assume.clockS = (s.assume.clockS && !n.testBit 16) ∧ u.assume.supplyS = (s.assume.supplyS && !n.testBit 17) ∧ u.assume.interlockS = (s.assume.interlockS && !n.testBit 18) ∧
        u.assume.busLoadS = (s.assume.busLoadS && !n.testBit 19) ∧ u.assume.hostRateS = (s.assume.hostRateS && !n.testBit 20) ∧
        u.assume.clock = s.assume.clock ∧ u.assume.supply = s.assume.supply ∧ u.assume.hostRate = s.assume.hostRate) ∧
      (addr = 0x00A00080 →
        (s.lock.st = .unlocked → s.lock.owner = m → room → Completes (.registerWrite t m addr v) s fun u => u.host = { s.host with stagedIp := some n, answer := okAnswer }) ∧
        (s.lock.st = .sealed → Completes (.registerWrite t m addr v) s fun u => held true ⟨.sealed, .none⟩ u ∧ u.host.stagedIp = s.host.stagedIp) ∧
        (s.lock.st = .locked ∨ (s.lock.st = .unlocked ∧ s.lock.owner ≠ m) → Completes (.registerWrite t m addr v) s fun u => held true ⟨.locked, .none⟩ u ∧ u.host.stagedIp = s.host.stagedIp)) ∧
      (addr ∈ [0x40, 0x00240000] → n.testBit 0 = true → n.testBit 1 = true → refused v (deny .range)) ∧
      (addr = 0x00240000 → n % 4 = 1 → Completes (.registerWrite t m addr v) s fun u => u.stl.armed = true ∧ u.stl.frozen = false ∧ u.host.answer = okAnswer)) ∧
    (m ≠ .udp → m ≠ .spi →
      (∀ count, addr % 4 = 0 → 1 ≤ count → count ≤ 256 → Completes (.read t m tag addr count) s fun u =>
        let r := (a.readWords m (readAddrs addr count)).1
        u.host.data = r.map (fun x => word x.1) ∧ (u.host.answer.status = .ok ↔ ∀ x ∈ r, x.2.status = .ok)) ∧
      (∀ count, addr % 4 ≠ 0 ∨ count = 0 ∨ 256 < count → Completes (.read t m tag addr count) s fun u => u.host = { s.host with answer := ⟨.badLen, .format⟩ }) ∧
      (∀ (v : Word) vs, addr % 4 = 0 → vs.length < 256 →
        let r := a.writeWord m addr v.toNat
        let x := r.1.answered m true addr r.2
        (r.2.status ≠ .ok → exec (.write t m tag addr (v :: vs)) s = .next { x with host := { x.host with answer := r.2, data := [] } }) ∧
        (r.2 = okAnswer → resetWord addr v.toNat r.2 = false → vs = [] → exec (.write t m tag addr [v]) s = .next { x with host := { x.host with answer := okAnswer, data := [] } })) ∧
      (∀ x : Nat, x % 4 = 0 → Completes (.readList t m tag [x]) s fun u => u.host.data = [word (a.readWord m x).1.1] ∧ u.host.answer.status = (a.readWord m x).1.2.status) ∧
      (∀ data : Bytes, data.length ≤ 1024 → exec (.echo t m tag data) s = .next { a with host := { s.host with answer := okAnswer, data := [] } }) ∧
      (∀ data : Bytes, 1024 < data.length → exec (.echo t m tag data) s = .next { a with host := { s.host with answer := ⟨.badLen, .format⟩ } })) ∧
    (∀ r rest, s.host.udpQueue = r :: rest → r.op = 1 → r.tag = tag → r.addr = addr → r.payload = [] → inTurn s.host r = true →
      (keptFor a r.origin tag r.crc = none → Completes (.read t .udp tag addr r.count) s fun u =>
        let w := (({ a with host := { s.host with udpQueue := rest } } : State).readWords .udp (readAddrs addr r.count)).1
        u.host.udpQueue = rest ∧ (r.origin.spi = false → ∃ ans idx, u.host.netOut = tallyOut s.host r.origin (replyFrame 0x81 tag ans idx r.count a.mt ((w.map (·.1)).flatMap (leBytes 4))) ∧
          ((∀ x ∈ w, x.2.status = .ok) → ans = okAnswer ∧ idx = 0xFFFF))) ∧
      (∀ k, keptFor a r.origin tag r.crc = some k → r.origin.spi = false → Completes (.read t .udp tag addr r.count) s fun u =>
        u.host = { s.host with udpQueue := rest, netOut := tallyOut s.host r.origin k.reply, udpDuplicate := satInc 8 s.host.udpDuplicate })) ∧
    (∀ r rest (data : Bytes), s.host.udpQueue = r :: rest → r.op = 4 → r.tag = tag → r.addr = 0 → r.count = data.length → r.payload = data → r.origin.spi = false → inTurn s.host r = true →
      keptFor a r.origin tag r.crc = none → Completes (.echo t .udp tag data) s fun u =>
        u.host.udpQueue = rest ∧ u.host.netOut = tallyOut s.host r.origin (replyFrame 0x84 tag okAnswer 0xFFFF 0 a.mt data) ∧ u.host.udpRequests = satInc 16 s.host.udpRequests) ∧
    (∀ r rest, s.host.udpQueue = r :: rest → r.op = 1 → r.tag = tag → r.addr = addr → r.payload = [] → inTurn s.host r = false → exec (.read t .udp tag addr r.count) s = .next a) ∧
    (∀ (r q : Request) rest, s.host.udpQueue = r :: rest → r.origin.spi = false → s.host.spiQueue = some q → (inTurn s.host r = true ↔ r.at_ < q.at_)) ∧
    (∀ v : Word, Completes (.registerWrite t m addr v) s fun u =>
      u = ((a.writeWord m addr v.toNat).1).answered m true addr (a.writeWord m addr v.toNat).2) ∧
    (∀ d, acceptable d = true → allowed s d.srcIp = true →
      let e := roundUpTo 1000000000 a.mt
      (e ≤ s.host.rateEnd → Completes (.udpDatagram t d) s fun u => u.host.transactions = s.host.transactions + 1 ∧ u.host.rateEnd = s.host.rateEnd) ∧
      (s.host.rateEnd < e → Completes (.udpDatagram t d) s fun u => u.host.transactions = 1 ∧ u.host.rateEnd = e ∧
        u.assume.hostRate = decide (e ≤ s.host.rateEnd + 1000000000 ∧ (4000 < s.host.transactions ∨ 250000 < s.host.wordCount)))) ∧
    (t % 1000000000 = 0 → s.mt ≤ t →
      (s.host.rateEnd = t → Completes (.hostRateInterval t) s fun u =>
        u.assume.hostRate = decide (4000 < s.host.transactions ∨ 250000 < s.host.wordCount) ∧ u.host = { s.host with rateShown := true, sum := u.host.sum }) ∧
      (s.host.rateEnd < t → Completes (.hostRateInterval t) s fun u => u.assume.hostRate = false ∧ u.host.transactions = 0 ∧ u.host.wordCount = 0 ∧ u.host.rateEnd = t)) ∧
    (t % 1000000000 ≠ 0 → exec (.hostRateInterval t) s = .next a)

/-- Of R410, R431, R432: what a reset leaves untouched, what it counts, and the reset that a lost reference holds. With no source, market time
stands still. Model's choices: logs 70, 92, 123 and 140. -/
def Obligations.Resets : Prop :=
  ∀ (s : State) (t low : Nat) (m : Master) (st : Bool) (pins : BootPins),
    let kept (at_ cause : Nat) (u : State) : Prop := u.mt = at_ ∧ u.mram = s.mram ∧ u.fuses = s.fuses ∧ u.pwr.rstCause = cause ∧ u.pwr.rstCount = satInc 16 s.pwr.rstCount ∧
      (u.rtc.base, u.rtc.baseAt, u.rtc.ppm, u.rtc.valid, u.rtc.src, u.rtc.tamper, u.rtc.tamperS, u.rtc.alarm) =
        (s.rtc.base, s.rtc.baseAt, s.rtc.ppm, s.rtc.valid, s.rtc.src, s.rtc.tamper, s.rtc.tamperS, s.rtc.alarm) ∧
      u.clk.raw = s.clk.raw ∧ u.clk.copies = s.clk.copies ∧ (∀ b : Fin 12, u.bays[b].settings = s.bays[b].settings)
    let now := max s.mt t
    let still := (s.elapse t).mt
    let fallen (fault : Bool) (u : State) : Prop := u.pair.activeO = false ∧
      (s.paired = false ∨ (s.pair.hold11 = false ∧ (s.pair.role ≠ .active ∨ fault = false)) → u.pair.role = .init) ∧
      (s.paired = true → s.pair.hold11 = true → u.pair.role = .unfit ∧ u.pair.unfitCode = 11) ∧
      (s.paired = true → s.pair.role = .active → fault = true → u.pair.role = .unfit ∧ 10 ≤ u.pair.unfitCode) ∧
      u.prof.image = none ∧ u.lock.st = .locked ∧
      (∀ k : Fin 16, u.saf.so[k].st = .off ∨ u.saf.so[k].st = .fault) ∧ (∀ n : Fin 64, u.stalls[n].link = {}) ∧ (∀ b : Fin 12, u.bays[b].session = {}) ∧
      u.vault.store = s.vault.store ∧ u.upd.large = s.upd.large
    (s.live = true →
      (∀ cause, 3 ≤ cause → cause ≤ 8 → Completes (.internalReset t cause st) s fun u => kept now cause u ∧ u.live = true) ∧
      Completes (.watchdog t st) s (fun u => kept now 5 u ∧ u.live = true) ∧
      Completes (.lockstepDisagree t st) s (fun u => kept now 4 u ∧ u.live = true) ∧
      (resetKeyRefusal (s.arrive t) m 0xB007 = none → Completes (.resetKey t m 0xB007 st) s fun u => kept now 6 u ∧ u.host.answer = okAnswer ∧ u.live = true) ∧
      (∀ key, s.serves m = true → sysGuard (s.arrive t) m = none → key ≠ 0xB007 → exec (.resetKey t m key st) s = .next { s.arrive t with host := { s.host with answer := deny .range } }) ∧
      (s.clk.refOk = true → Completes (.referenceLoss t) s fun u => kept still 3 u ∧ fallen true u ∧ u.live = false ∧ u.pwr.inReset = true ∧ u.clk.refOk = false ∧
        (s.pair.role = .active → u.pair.lastCause = 4))) ∧
    (s.pwr.inReset = true → s.pwr.st = .ready → s.clk.refOk = false → Completes (.referenceRestored t st) s fun u =>
      u.mt = still ∧ u.live = true ∧ u.clk.refOk = true ∧ u.clk.mtSrc = 0 ∧ u.pwr.rstCause = s.pwr.rstCause ∧ u.pwr.rstCount = s.pwr.rstCount) ∧
    (s.pwr.st ≠ .vbatOnly → 10000 ≤ low → s.clk.refOk = true → Completes (.rstN t ⟨low, pins⟩ st) s fun u => kept still 1 u ∧ u.live = true) ∧
    (low < 1000 ∨ (s.pwr.st = .vbatOnly ∧ 10000 ≤ low) → exec (.rstN t ⟨low, pins⟩ st) s = .next (s.elapse t)) ∧
    (s.pwr.st ≠ .vbatOnly → 10000 ≤ low → s.clk.refOk = false → Completes (.rstN t ⟨low, pins⟩ st) s fun u => kept still 1 u ∧ fallen true u ∧ u.live = false ∧ u.prof.pins = pins.prof % 4)

/-- Of R413, R414, R416, R428, R440: the loss of VIN12, the cold start with the market time it resumes at, and the break of the tamper mesh.
While no source counts, market time stands still. Model's choices: logs 89, 131, 145 and 161. -/
def Obligations.PowerLossAndTamper : Prop :=
  ∀ (s : State) (t rawNow : Nat) (pins : BootPins) (st : Bool),
    let a := s.arrive t
    let e := s.elapse t
    let started (u : State) : Prop := u.live = true ∧ u.clk.raw = rawNow % 2 ^ 48 ∧ u.clk.mtSrc = 0 ∧ u.clk.refOk = true ∧ u.clk.vbatLost = false ∧ u.mram = s.mram
    (s.pwr.st ≠ .vbatOnly → Completes (.brownOut t) s fun u =>
      u.pwr.st = .vbatOnly ∧ u.live = false ∧ u.mt = e.mt ∧ u.pwr.rstCause = 2 ∧ u.pwr.rstCount = satInc 16 s.pwr.rstCount ∧ u.pair.activeO = false ∧ u.clk.copies = s.clk.copies ∧
      u.mram = s.mram ∧ u.clk.raw = e.rawNow ∧ u.clk.mtSrc = (if s.clk.x32Ok then 2 else 3) ∧ u.rtc.ppm = 0 ∧ u.assume.clockS = true ∧ u.assume.supplyS = true ∧
      (∀ k : Fin 16, u.saf.so[k].st = .off ∨ u.saf.so[k].st = .fault) ∧ (∀ b : Fin 12, u.bays[b].session = {})) ∧
    (s.pwr.st = .vbatOnly → exec (.brownOut t) s = .next e) ∧
    (s.pwr.st = .vbatOnly → s.pwr.inReset = false →
      (s.clk.copies.find? MtCopy.valid = none → Completes (.coldStart t rawNow pins st) s fun u => started u ∧ u.mt = 0) ∧
      (∀ c, s.clk.copies.find? MtCopy.valid = some c →
        (s.clk.vbatLost = false → Completes (.coldStart t rawNow pins st) s fun u => started u ∧
          u.mt = max e.mt (c.m + (rawNow + 2 ^ 48 - c.raw % 2 ^ 48) % 2 ^ 48 * 1000000000 / 32768 + 1000000)) ∧
        (s.clk.vbatLost = true → Completes (.coldStart t rawNow pins st) s fun u => started u ∧ u.mt = max e.mt (c.m + 1000000000) ∧ u.clk.mtGap = true ∧ u.rtc.valid = false))) ∧
    (s.pwr.st ≠ .vbatOnly → exec (.coldStart t rawNow pins st) s = .next e) ∧
    (s.pwr.st = .vbatOnly → Completes (.vbatDomainLoss t) s fun u => u.clk = { s.clk with raw := 0, rawFrom := e.mt, vbatLost := true, vbatOff := true, mtSrc := 3 } ∧
      u.rtc = { s.rtc with base := 0, baseFrac := 0, baseAt := e.mt, ppm := 0, leap := none, src := 0, tamper := false, tamperS := 0, alarm := 0 } ∧
      u.vault = { s.vault with salt := (e.drawBytes 32).1 } ∧ u.pwr = s.pwr) ∧
    (s.pwr.st ≠ .vbatOnly → exec (.vbatDomainLoss t) s = .next e) ∧
    (s.live = true → saveDue s.clk a.mt = false → exec (.mtSave t) s = .next a) ∧
    (s.live = true → saveDue s.clk a.mt = true → exec (.mtSave t) s = .next { a with clk := { s.clk with copies := { m := a.mt, raw := a.rawNow } :: s.clk.copies.take 1 } }) ∧
    (s.pwr.st = .vbatOnly → s.clk.vbatOff = true → exec (.tamper t) s = .next e) ∧
    (s.pwr.st ≠ .vbatOnly ∨ s.clk.vbatOff = false → Completes (.tamper t) s fun u =>
      u.rtc = { s.rtc with tamper := true, tamperS := if s.rtc.tamper then s.rtc.tamperS else e.calSeconds % 2 ^ 32 } ∧
      u.vault = { s.vault with slots := Vector.replicate 64 none, salt := (e.drawBytes 32).1, zeroised := true } ∧ u.met.key = none)

/-- Of R408, R411, R412, R421, R494, R512: clocks and PLLs lost and found again, the supplies and the junction temperature. Model's choices: logs
94 and 158. -/
def Obligations.ClockAndSupplyEvents : Prop :=
  ∀ (s : State) (t cv : Nat) (p : Pll) (tenths : Int), s.live = true →
    let a := s.arrive t
    let e := s.elapse t
    let c := s.clk
    let w := s.pwr
    (c.x32Ok = true → c.vbatOff = false → Completes (.x32Loss t) s fun u =>
      u.clk = { c with x32Ok := false, x32Loss := satInc 8 c.x32Loss, raw := e.rawNow, rawFrom := e.mt,
                       mtSrc := if c.mtSrc = 2 then 3 else c.mtSrc, mtGap := c.mtGap || c.mtSrc == 2 } ∧ u.assume.clock = true ∧ u.rtc = s.rtc) ∧
    (c.x32Ok = false ∨ c.vbatOff = true → exec (.x32Loss t) s = .next e) ∧
    (c.x32Ok = false → c.vbatOff = false → Completes (.x32Restored t) s fun u => u.clk = { c with x32Ok := true, rawFrom := e.mt, mtSrc := if c.mtSrc = 3 then 2 else c.mtSrc }) ∧
    (c.x32Ok = true ∨ c.vbatOff = true → exec (.x32Restored t) s = .next e) ∧
    (c.lock[pllBit p] = true → (Completes (.pllLockLoss t p) s fun u =>
      u.clk = { c with lock := vupd c.lock (pllBit p) fun _ => false, unlock := satInc 8 c.unlock, mtSrc := if p = .l then 1 else c.mtSrc } ∧ u.assume.clock = true) ∧
      exec (.pllRelock t p) s = .next a) ∧
    (c.lock[pllBit p] = false → (Completes (.pllRelock t p) s fun u => u.clk = { c with lock := vupd c.lock (pllBit p) fun _ => true, mtSrc := if p = .l then 0 else c.mtSrc }) ∧
      exec (.pllLockLoss t p) s = .next a) ∧
    (cv < 1030 → w.pfw = false → Completes (.powerFailWarning t cv) s fun u => u.pwr = { w with pfw := true, vin12 := cv } ∧ u.met.tallying = false ∧
      u.clk.copies = { m := a.mt, raw := a.rawNow } :: c.copies.take 1 ∧ u.assume.supply = true) ∧
    (1030 ≤ cv ∨ w.pfw = true → exec (.powerFailWarning t cv) s = .next a) ∧
    (1060 < cv → w.pfw = true → Completes (.powerFailClear t cv) s fun u => u.pwr = { w with pfw := false, vin12 := cv, supplyBad := decide (cv < 1080 ∨ 1320 < cv) } ∧
      u.met = { s.met with resumeAt := some ((a.mt / 1000000 + 1) * 1000000), kinds := vmap (fun _ k => { k with gap := true }) s.met.kinds }) ∧
    (cv ≤ 1060 ∨ w.pfw = false → exec (.powerFailClear t cv) s = .next a) ∧
    (Completes (.supplyOutOfRange t cv) s fun u => u.pwr = { w with vin12 := cv, supplyBad := decide (cv < 1080 ∨ 1320 < cv) } ∧
      (cv < 1080 ∨ 1320 < cv → s.pair.role = .active → u.pair.lastCause = 9) ∧ (1080 ≤ cv → cv ≤ 1320 → u.pair = s.pair)) ∧
    (cv < 1800 → w.vin24Low = false → Completes (.vin24Low t cv) s fun u => u.pwr = { w with vin24Low := true } ∧
      ∀ b : Fin 12, s.bays[b].energised = true → s.saf.stops[b].st = .none → u.saf.stops[b].st = .ramp ∧ u.saf.stops[b].trigger = 1) ∧
    (1800 ≤ cv ∨ (0 < cv ∧ w.vin24Low = true) → exec (.vin24Low t cv) s = .next a) ∧
    (cv = 0 → Completes (.vin24Low t cv) s fun u => u.aux.gone = true ∧ u.aux.v24 = 0 ∧ (∀ n : Fin 24, u.aux.ch[n].duty = 0) ∧ ∀ k : Fin 16, u.saf.so[k].hs = false ∧ u.saf.so[k].ls = false) ∧
    (Completes (.vbatLow t cv) s fun u => u.pwr = { w with vbat := cv, vbatLow := decide (cv < 2200) }) ∧
    Completes (.junctionTempCheck t tenths) s fun u => u.pwr.temp = tenths ∧
      (tenths ≤ 1250 → u.pwr.hot = false ∧ u.pwr.hotSince = none) ∧
      (1250 < tenths → w.hotSince = none → u.pwr.hotSince = some t ∧ u.pwr.hot = false) ∧
      (∀ q, 1250 < tenths → w.hotSince = some q → u.pwr.hotSince = some q ∧ u.pwr.hot = decide (q + 10000000 ≤ t) ∧
        (q + 10000000 ≤ t → w.hot = false → tenths ≤ 1400 → s.pair.role = .active → u.pair.lastCause = 9)) ∧
      (1400 < tenths → u.saf.ctrlFault = true)

/-- Of R417, R418, R420, R430: the entry to DORMANT, its commit point and the wake. Model's choices: logs 94 and 146. -/
def Obligations.DormantSteps : Prop :=
  ∀ (s : State) (t : Nat) (m : Master) (src : WakeSrc),
    let a := s.arrive t
    let e := s.elapse t
    let w := s.pwr
    let awake (src : WakeSrc) (u : State) : Prop := u.live = true ∧ u.pwr.entering = false ∧ u.pwr.wakeSrc = wakeBit src + 1
    let clocks (u : State) : Prop := u.clk.mtSrc = s.clk.mtSrc ∧ u.clk.lock = s.clk.lock
    (s.live = true →
      (s.serves m = true →
        (w.entering = true → exec (.dormant t m) s = .next { a with host := { s.host with answer := okAnswer } }) ∧
        (w.entering = false → dormantCode a = 0 → Completes (.dormant t m) s fun u =>
          u.pwr = { w with entering := true, enteredAt := a.mt, released := none, dormErr := 0 } ∧ u.host.answer = okAnswer ∧ (s.busMaster = false → u.sbus.bus = .asleep)) ∧
        (w.entering = false → dormantCode a ≠ 0 → Completes (.dormant t m) s fun u =>
          u.pwr = { w with dormErr := dormantCode a } ∧ u.host.answer = deny .state ∧ u.sbus = s.sbus)) ∧
      (w.entering = true → w.released = none → (s.sbus.bus = .asleep ∧ max s.sbus.busSince w.enteredAt + 1000000 ≤ t) ∨ w.enteredAt + 1001000000 ≤ t → Completes (.dormantOutputRelease t) s fun u =>
        u.pwr = { w with released := some a.mt } ∧ (∀ k : Fin 16, u.saf.so[k].hs = false ∧ u.saf.so[k].ls = false) ∧ u.met.tallying = false ∧
        (s.pair.role = .active → u.pair.lastCause = 0x0C ∧ u.pair.role = .syncing ∧ u.pair.activeO = false) ∧
        (s.pair.role = .claiming → u.pair.lastCause = 0x0C ∧ u.pair.role = .init ∧ u.pair.activeO = false) ∧ u.clk.copies = { m := a.mt, raw := a.rawNow } :: s.clk.copies.take 1) ∧
      (w.entering = false ∨ w.released.isSome = true ∨ ((s.sbus.bus ≠ .asleep ∨ t < max s.sbus.busSince w.enteredAt + 1000000) ∧ t < w.enteredAt + 1001000000) → exec (.dormantOutputRelease t) s = .next a) ∧
      (∀ q, w.entering = true → w.released = some q →
        (q + 1000000 ≤ t → a.wakePresent = none → Completes (.dormantCommit t) s fun u => u.live = false ∧ u.met.running = false ∧ u.clk.mtSrc = (if s.clk.x32Ok then 2 else 3) ∧ (∀ k : Fin 6, u.clk.lock[k] = false) ∧
          u.pwr = { w with st := .dormant, entering := false, released := none, dormantAt := a.mt, dormSlot := s.prof.active, dormLock := s.clk.lock, dormSrc := s.clk.mtSrc }) ∧
        (∀ src, q + 1000000 ≤ t → a.wakePresent = some src → Completes (.dormantCommit t) s fun u => awake src u ∧ clocks u) ∧
        (t < q + 1000000 → exec (.dormantCommit t) s = .next a)) ∧
      (w.released = none → exec (.dormantCommit t) s = .next a) ∧
      (e.mayWake src = true → w.entering = true → Completes (.dormantWake t src) s fun u => awake src u ∧ clocks u) ∧
      (w.entering = false → exec (.dormantWake t src) s = .next e)) ∧
    (w.st = .dormant → w.inReset = false → e.mayWake src = true → Completes (.dormantWake t src) s fun u => awake src u ∧
      (w.dormantAt < t → u.clk.mtSrc = 0 ∧ (∀ k : Fin 6, u.clk.lock[k] = true) ∧ u.pwr.dormNs = w.dormNs + (e.mt - w.dormantAt)) ∧
      (t ≤ w.dormantAt → u.clk.mtSrc = w.dormSrc ∧ u.clk.lock = w.dormLock ∧ u.pwr.dormNs = w.dormNs)) ∧
    (e.mayWake src = false → exec (.dormantWake t src) s = .next e) ∧
    (w.wakeEn.testBit (wakeBit src) = false → e.mayWake src = false) ∧
    (w.wakeEn.testBit (wakeBit src) = true →
      (src = .rtc → (e.mayWake src = true ↔ s.rtc.alarm ≠ 0 ∧ s.rtc.alarm ≤ e.calSeconds)) ∧
      (src = .si → (e.mayWake src = true ↔ ∃ x ∈ s.saf.records, x.kind = 1 ∧ siType x ≠ 2 ∧ ∃ k : Fin 16, x.index = k.val ∧ asserts s.saf.si[k] = true)) ∧
      (src = .ce → (e.mayWake src = true ↔ ∃ b : Fin 12, (s.bayRec b).isSome = true ∧ s.bays[b].pilot.ce ≠ .none)) ∧
      (src = .spi → e.mayWake src = true))

/-- Of R423, R424, R425, R426, R427, R433: the calendar set by the host and by IEEE 1588, the leap second, and the reads that latch. Model's choices:
logs 92, 95 and 162. -/
def Obligations.CalendarAndTimeReads : Prop :=
  ∀ (s : State) (t : Nat) (m : Master), s.live = true →
    let a := s.arrive t
    let r := s.rtc
    (∀ (seconds : Word) frac, s.serves m = true → sysGuard a m = none →
      (r.ptpLock = false → Completes (.rtcApply t m seconds frac) s fun u =>
        u.rtc = { r with base := seconds.toNat * 32768 + frac % 32768, baseFrac := 0, baseAt := a.mt, leap := none, valid := true, src := 1, setS := seconds.toNat, setF := frac % 32768 } ∧
        u.clk = s.clk ∧ u.mt = a.mt ∧ u.host.answer = okAnswer) ∧
      (r.ptpLock = true → exec (.rtcApply t m seconds frac) s = .next { a with host := { s.host with answer := deny .state } })) ∧
    (∀ (h : PtpHead) origin,
      let n := (r.reqSeq + 1) % 65536
      (ptpFrom r h = true ↔ r.ptpEn = true ∧ h.domain = r.domain ∧ r.master = some h.source) ∧
      (ptpFrom r h = true →
        exec (.ptpSync t h origin true) s = .next { a with rtc := { r with lastSync := some t, syncSeq := h.seq, syncRx := t, syncOrigin := none, reqOpen := false } } ∧
        exec (.ptpSync t h origin false) s = .next { a with rtc := { r with lastSync := some t, syncSeq := h.seq, syncRx := t, syncOrigin := some origin, reqSeq := n, reqOpen := true },
                                                             host := { s.host with netOut := .delayReq r.domain n } } ∧
        (r.syncSeq = h.seq → r.lastSync.isSome = true → r.syncOrigin = none → exec (.ptpFollowUp t h origin) s =
          .next { a with rtc := { r with syncOrigin := some origin, reqSeq := n, reqOpen := true }, host := { s.host with netOut := .delayReq r.domain n } })) ∧
      (ptpFrom r h = false → ∀ two, exec (.ptpSync t h origin two) s = .next a) ∧
      (ptpFrom r h = false ∨ r.syncSeq ≠ h.seq ∨ r.lastSync = none ∨ r.syncOrigin.isSome = true → exec (.ptpFollowUp t h origin) s = .next a)) ∧
    (∀ (p : PtpResp) received,
      (ptpAnswers r p = true ↔ ptpFrom r p.head = true ∧ r.reqOpen = true ∧ p.head.seq = r.reqSeq ∧ p.requesting = Config.ptpPort) ∧
      (r.syncOrigin = none ∨ ptpAnswers r p = false → exec (.ptpDelayResp t p received) s = .next a) ∧
      (∀ t1, r.syncOrigin = some t1 → ptpAnswers r p = true →
        let o := ptpOffset r t1 r.syncRx p.sent received
        (r.utcKnown = false → Completes (.ptpDelayResp t p received) s fun u => u.rtc = { r with reqOpen := false, utcUnknown := true, syncOrigin := none }) ∧
        (r.utcKnown = true → Completes (.ptpDelayResp t p received) s fun u =>
          u.mt = a.mt ∧ u.clk = s.clk ∧ u.rtc.valid = true ∧ u.rtc.src = 2 ∧ u.rtc.reqOpen = false ∧ u.rtc.steps = (if 128000000 < o.natAbs then satInc 16 r.steps else r.steps) ∧
          (o.natAbs ≤ 128000000 → u.rtc.ppm.natAbs ≤ 500 ∧ (0 < o → u.rtc.ppm ≤ 0) ∧ (o < 0 → 0 ≤ u.rtc.ppm)) ∧
          u.rtc.lockRun = (if o.natAbs ≤ 1000 then min 16 (r.lockRun + 1) else 0) ∧
          (10000 < o.natAbs → u.rtc.ptpLock = false) ∧ (o.natAbs ≤ 10000 → u.rtc.ptpLock = (r.ptpLock || u.rtc.lockRun == 16))))) ∧
    (∀ n : Announce,
      let l := hearMaster r.masters n a.mt
      (r.ptpEn = false ∨ n.domain ≠ r.domain → exec (.ptpAnnounce t n) s = .next a) ∧
      (r.ptpEn = true → n.domain = r.domain → bestMaster r.domain a.mt l = none → exec (.ptpAnnounce t n) s = .next { a with rtc := { r with masters := l, master := none } }) ∧
      (∀ x, bestMaster r.domain a.mt l = some x →
        (x ∈ l ∧ x.qualified a.mt = true ∧ ∀ y ∈ l, y.ann.domain = r.domain → y.qualified a.mt = true → rankLess (annRank y.ann) (annRank x.ann) = false) ∧
        (r.ptpEn = true → n.domain = r.domain → Completes (.ptpAnnounce t n) s fun u =>
          u.rtc.masters = l ∧ u.rtc.master = some x.ann.source ∧ u.rtc.ptpGm = x.ann.grandmaster % 2 ^ 64 ∧ u.rtc.leapPend = (x.ann.leap61 || x.ann.leap59) ∧
          u.rtc.utcOfs = (if x.ann.utcValid then x.ann.utcOffset else r.utcOfs) ∧ u.rtc.utcKnown = (x.ann.utcValid || r.utcKnown) ∧ u.rtc.base = r.base))) ∧
    (∀ q, r.lastSync = some q → r.ptpLock = true → q + 10000000000 < t → Completes (.ptpSyncTimeout t) s fun u => u.rtc = { r with ptpLock := false, lockRun := 0 }) ∧
    (r.lastSync = none ∨ r.ptpLock = false ∨ (∀ q, r.lastSync = some q → t ≤ q + 10000000000) → exec (.ptpSyncTimeout t) s = .next a) ∧
    (r.leapPend = true → a.calSeconds % 86400 = (if r.leapAdd then 86399 else 86398) → Completes (.leapSecond t) s fun u => u.rtc.leap = some (a.mt, r.leapAdd) ∧ u.rtc.leapPend = false) ∧
    (r.leapPend = false ∨ a.calSeconds % 86400 ≠ (if r.leapAdd then 86399 else 86398) → exec (.leapSecond t) s = .next a) ∧
    (s.serves m = true →
      (Completes (.marketTimeRead t m false) s fun u => u.host.data = [word (a.mt % 2 ^ 32)] ∧ u.host.answer = okAnswer ∧
        ((portLatch s m).isSome = true → (portLatch u m).bind (·.mtHigh) = some (a.mt / 2 ^ 32 % 2 ^ 32))) ∧
      (∀ v, (portLatch s m).bind (·.mtHigh) = some v → Completes (.marketTimeRead t m true) s fun u => u.host.data = [word v] ∧ u.host.answer = okAnswer) ∧
      ((portLatch s m).bind (·.mtHigh) = none → Completes (.marketTimeRead t m true) s fun u => u.host.data = [word (a.mt / 2 ^ 32 % 2 ^ 32)] ∧ u.host.answer = ⟨.stale, .none⟩) ∧
      (Completes (.calendarRead t m) s fun u => u.host.data = [word (a.calSeconds % 2 ^ 32)] ∧ u.host.answer = okAnswer ∧
        ∀ l, portLatch u m = some l → l.calFrac = a.calUnits % 32768 ∧ l.calTime = a.mt) ∧
      (Completes (.rawRead t m false) s fun u => u.host.data = [word (a.rawNow % 2 ^ 32)] ∧ u.host.answer = okAnswer ∧
        ((portLatch s m).isSome = true → (portLatch u m).bind (·.rawHigh) = some (a.rawNow / 2 ^ 32))) ∧
      (∀ v, (portLatch s m).bind (·.rawHigh) = some v → Completes (.rawRead t m true) s fun u => u.host.data = [word v] ∧ u.host.answer = okAnswer))

/-- Of R435, R438, R440, R442, R443, R478: the operations of the key vault, the re-masking of its slots and the life cycle. Model's choices:
logs 84, 85 and 137. -/
def Obligations.KeyOperations : Prop :=
  ∀ (s : State) (t : Nat) (m : Master), s.live = true → s.serves m = true →
    let a := s.arrive t
    let v := s.vault
    let started (op slot : Nat) (u : State) : Prop := u.vault = { v with op := some (a.keyOperands op slot), ctrlSlot := slot } ∧ u.host.answer = okAnswer
    let ended (err : Nat) (u : State) : Prop := u.vault.op = none ∧ u.vault.err = err
    (v.op = none →
      Completes (.generate t m) s (started 1 v.ctrlSlot) ∧ Completes (.load t m) s (started 2 v.ctrlSlot) ∧ Completes (.store t m) s (started 4 v.ctrlSlot) ∧
      Completes (.delete t m) s (started 5 v.ctrlSlot) ∧ Completes (.attest t m) s (started 6 v.ctrlSlot) ∧
      (∀ slot, 16 ≤ slot → slot ≤ 63 → Completes (.unload t m slot) s (started 3 slot)) ∧
      (∀ slot, slot < 16 ∨ 63 < slot → exec (.unload t m slot) s = .next { a with host := { s.host with answer := deny .range } }) ∧
      exec (.keyOpComplete t) s = .next a) ∧
    (v.op.isSome = true → ∀ c : Instr, c = .generate t m ∨ c = .load t m ∨ c = .store t m ∨ c = .delete t m ∨ c = .attest t m →
      exec c s = .next { a with host := { s.host with answer := ⟨.busy, .none⟩ } }) ∧
    (∀ o, v.op = some o → v.remaskPend = false →
      (o.op = 1 → keyLen o.type = 0 ∨ o.world = 3 ∨ usageValid o.type o.usage = false ∨ keyIdOk o.id = false → Completes (.keyOpComplete t) s fun u => u.vault = { v with op := none, err := 4 }) ∧
      (o.op = 1 → keyLen o.type ≠ 0 → o.world ≠ 3 → usageValid o.type o.usage = true → keyIdOk o.id = true → v.store.length < 4096 → Completes (.keyOpComplete t) s fun u => ended 0 u ∧
        ∃ bytes, u.vault.blobWin = memOf 0 bytes ∧ u.vault.store = storeSet v.store (blobOf bytes)) ∧
      (o.op = 2 → (∀ e, unwrapBlob a o.blob = .error e → Completes (.keyOpComplete t) s fun u => u.vault = { v with op := none, err := e }) ∧
        (∀ k, unwrapBlob a o.blob = .ok k → keyIdOk k.id = true →
          (a.placeKey k = none → Completes (.keyOpComplete t) s fun u => u.vault = { v with op := none, err := 1 }) ∧
          ((a.placeKey k).isSome = true → Completes (.keyOpComplete t) s fun u => ended 0 u ∧ u.vault.store = v.store ∧ ∃ i : Fin 64, 16 ≤ i.val ∧ u.keySlot i = some k))) ∧
      (∀ i : Fin 64, o.op = 3 → o.slot = i.val → Completes (.keyOpComplete t) s fun u => u.vault = { v with op := none, err := 0, slots := vupd v.slots i fun _ => none }) ∧
      (o.op = 4 → (∀ e, unwrapBlob a o.blob = .error e → Completes (.keyOpComplete t) s fun u => u.vault = { v with op := none, err := e }) ∧
        (∀ k, unwrapBlob a o.blob = .ok k → keyIdOk k.id = true → v.store.length < 4096 → Completes (.keyOpComplete t) s fun u => ended 0 u ∧ u.vault.store = storeSet v.store (blobOf o.blob))) ∧
      (o.op = 5 → ((v.store.any fun b => b.id == o.id) = true → Completes (.keyOpComplete t) s fun u => ended 0 u ∧ u.vault.store = v.store.filter (fun b => b.id != o.id) ∧
          ∀ i : Fin 64, 16 ≤ i.val → (u.vault.slots[i].map fun k => k.id) ≠ some o.id) ∧
        ((v.store.any fun b => b.id == o.id) = false → Completes (.keyOpComplete t) s fun u => u.vault = { v with op := none, err := 6 })) ∧
      (o.op = 6 → Completes (.keyOpComplete t) s fun u => let st := Config.attestStatement (a.attestItems (slice o.blob 0 16))
        u.vault = { v with op := none, err := 0, attestWin := memOf 0 ((Config.attestLayout st (Config.signP384 (Config.fixedKey 0) st) Config.slot0Certificate).take 4096) })) ∧
    (∀ o (i : Fin 64), v.op = some o → v.remaskPend = true → o.op = 3 → o.slot = i.val → Completes (.keyOpComplete t) s fun u => ended 0 u ∧
      u.vault.rounds = v.rounds + 1 ∧ u.vault.maskCnt = wrapInc 32 v.maskCnt ∧ u.vault.remaskPend = false ∧ u.vault.slots[i] = none ∧ ∀ j : Fin 64, j ≠ i → u.keySlot j = s.keySlot j) ∧
    (v.remaskAt + 250000000 ≤ a.mt →
      (v.op.isSome = true → exec (.remask t) s = .next { a with vault := { v with remaskAt := a.mt, remaskPend := true } }) ∧
      (v.op = none → Completes (.remask t) s fun u => u.vault.rounds = v.rounds + 1 ∧ u.vault.maskCnt = wrapInc 32 v.maskCnt ∧ u.vault.remaskAt = a.mt ∧
        (∀ j : Fin 64, u.keySlot j = s.keySlot j) ∧ ∀ (j : Fin 64) k, 16 ≤ j.val → s.keySlot j = some k → u.vault.slots[j] = some (k.masked j.val (v.rounds + 1)))) ∧
    (a.mt < v.remaskAt + 250000000 → exec (.remask t) s = .next a) ∧
    (∀ value, sysGuard a m = none →
      (value % 4 = 1 → v.lc = .provision → lcCondition s = true → s.pwr.pfw = false → Completes (.lcAdvance t m value) s fun u => u.vault = { v with lc := .deployed } ∧ u.host.answer = okAnswer) ∧
      (value % 4 ≠ 1 → exec (.lcAdvance t m value) s = .next { a with host := { s.host with answer := deny .range } }) ∧
      (value % 4 = 1 → v.lc ≠ .provision ∨ lcCondition s = false → Completes (.lcAdvance t m value) s fun u => u.vault = { v with err := 7 } ∧ u.host.answer = deny .state))

/-- Of R447 to R455: chunks of a container, the small container applied, floors and trials, and an activation armed. Model's choices: logs
86, 87 and 163. -/
def Obligations.UpdateDelivery : Prop :=
  ∀ (s : State) (t : Nat) (m : Master), s.live = true → s.serves m = true →
    let a := s.arrive t
    let u0 := s.upd
    let b := memRange u0.chunkWin 0 4096
    let small := u0.chunkArea == 1
    (s.chunkRoom = true ↔ s.pwr.pfw = false ∧ (4096 ≤ s.mram.staging ∨ 4096 ≤ s.spareFor 4)) ∧
    (s.chunkRoom = false → exec (.chunkCommit t m) s = .next { a with host := { s.host with answer := ⟨.busy, .mram⟩ } }) ∧
    (s.chunkRoom = true →
      (u0.chunkCrc ≠ crc32c b → Completes (.chunkCommit t m) s fun u => u.upd = { u0 with err := 6 } ∧ u.host.answer = okAnswer) ∧
      (chunkError s small u0.chunkIndex u0.chunkCrc b ≠ 0 → Completes (.chunkCommit t m) s fun u =>
        u.upd = { u0 with err := chunkError s small u0.chunkIndex u0.chunkCrc b } ∧ u.mram = s.mram ∧ (u.host.answer = okAnswer ∨ u.host.answer = deny .state)) ∧
      (chunkError s small u0.chunkIndex u0.chunkCrc b = 0 → Completes (.chunkCommit t m) s fun u => u.host.answer = okAnswer ∧
        u.upd.err = beyondError (s.area small) u0.chunkIndex b ∧
        (small = true → u.upd.small = areaStore u0.small u0.chunkIndex b ∧ u.upd.large = u0.large) ∧ (small = false → u.upd.large = areaStore u0.large u0.chunkIndex b ∧ u.upd.small = u0.small))) ∧
    (Completes (.abort t m) s fun u => u.upd = (if u0.chunkArea = 1 then { u0 with small := {} } else { u0 with large := {}, mode := 0, hold := false }) ∧ u.host.answer = okAnswer) ∧
    (u0.small.st ≠ .staged → exec (.apply t m) s = .next { a with host := { s.host with answer := deny .state } }) ∧
    (u0.small.st = .staged → s.pwr.pfw = false →
      let c := areaBytes u0.small
      let v := verify a true c
      (Completes (.apply t m) s fun u => u.upd.small = {} ∧ u.host.answer = okAnswer ∧ (v.code ≠ 0 → u.upd.err = v.code)) ∧
      (v.code = 0 → contType c = 5 → Completes (.apply t m) s fun u => u.saf.noPw = true ∧ u.upd.err = 0) ∧
      (v.code = 0 → contType c = 6 → v.state.vault.lc = .deployed → Completes (.apply t m) s fun u => u.vault.lc = .returned ∧ u.upd.err = 0)) ∧
    (sysGuard a m = none → s.pwr.pfw = false →
      (Completes (.raise t m) s fun u => u.upd = { u0 with floorApp := max u0.floorApp s.runImage.version, floorMet := max u0.floorMet s.metImage.version } ∧ u.host.answer = okAnswer) ∧
      (∀ mode, mode % 4 = 0 → Completes (.actModeWrite t m mode) s fun u => u.upd.mode = 0 ∧ (u0.large.st = .armed → u.upd.large.st = .staged) ∧ (u0.large.st = .staged → u.upd.large.st = .staged)) ∧
      (∀ mode, u0.large.st = .staged →
        (mode % 4 = 1 → s.rtc.valid = true → Completes (.actModeWrite t m mode) s fun u => u.upd.mode = 1 ∧ u.upd.large.st = .armed ∧ u.upd.waitDue = a.mt + u0.waitS * 1000000000) ∧
        (mode % 4 = 1 → s.rtc.valid = false → exec (.actModeWrite t m mode) s = .next { a with host := { s.host with answer := deny .state } }) ∧
        (mode % 4 = 2 → s.pair.mode ≠ .single → s.stagedType ≠ 2 → Completes (.actModeWrite t m mode) s fun u => u.upd.mode = 2 ∧ u.upd.large.st = .armed ∧ u.upd.waitDue = a.mt + u0.waitS * 1000000000) ∧
        (mode % 4 = 2 → s.pair.mode = .single ∨ s.stagedType = 2 → Completes (.actModeWrite t m mode) s fun u => u.upd = { u0 with err := 0x0E } ∧ u.host.answer = deny .state)) ∧
      (∀ mode, mode % 4 = 3 → exec (.actModeWrite t m mode) s = .next { a with host := { s.host with answer := deny .range } }) ∧
      (∀ mode, mode % 4 = 1 ∨ mode % 4 = 2 → u0.large.st ≠ .staged → exec (.actModeWrite t m mode) s = .next { a with host := { s.host with answer := deny .state } })) ∧
    (Completes (.floorRaise t) s fun u =>
      u.upd.floorApp = (if u0.trial = none ∧ u0.runLeft ≤ a.mt - u0.runFrom then max u0.floorApp s.runImage.version else u0.floorApp) ∧
      u.upd.floorMet = (if u0.metTrial = none ∧ u0.metLeft ≤ a.mt - u0.metFrom then max u0.floorMet s.metImage.version else u0.floorMet)) ∧
    (∀ r, u0.trial = some r → Completes (.trialEnd t) s fun u => (r + 10000000000 ≤ t → u.upd.trial = none) ∧ (t < r + 10000000000 → u.upd.trial = some r)) ∧
    (u0.mode = 1 → u0.large.st = .armed → (u0.schedS ≤ a.calSeconds + u0.leadS → exec (.activationLead t) s = .next { a with upd := { u0 with hold := true } }) ∧
      (a.calSeconds + u0.leadS < u0.schedS → exec (.activationLead t) s = .next a))

/-- Of R453 to R456: the staged image is activated at its time, by the handover of a pair, or not at all. Model's choices: log 88. -/
def Obligations.Activations : Prop :=
  ∀ (s : State) (t : Nat), s.live = true →
    let a := s.arrive t
    let u0 := s.upd
    let begun (u : State) : Prop :=
      (s.stagedType = 1 → (a.active && a.running) = false → u.mt = a.mt ∧ u.live = true ∧ u.pwr.rstCause = 6 ∧ u.pwr.rstCount = satInc 16 s.pwr.rstCount) ∧
      (s.stagedType ≠ 1 ∨ (a.active && a.running) = true → u.upd = { u0 with large := { u0.large with st := .activating } } ∧ u.pwr = s.pwr ∧ u.pair = s.pair)
    (u0.mode = 1 → u0.large.st = .armed →
      (∀ c : Instr, c = .scheduledActivation t ∨ c = .activationSkip t → (u0.schedS + u0.waitS) * 32768 < a.calUnits → Completes c s fun u =>
        u.upd.err = 0x0C ∧ u.upd.mode = 0 ∧ u.upd.hold = false ∧ u.pwr = s.pwr ∧ (u0.large.total ≠ 0 → u.upd.large = { u0.large with st := .staged })) ∧
      (a.calUnits ≤ (u0.schedS + u0.waitS) * 32768 →
        exec (.activationSkip t) s = .next a ∧
        (u0.schedS ≤ a.calSeconds → a.active = false ∨ (t % 1000000 = 0 ∧ a.busyCode = 0) → Completes (.scheduledActivation t) s begun) ∧
        (a.calSeconds < u0.schedS ∨ (a.active = true ∧ (t % 1000000 ≠ 0 ∨ a.busyCode ≠ 0)) → exec (.scheduledActivation t) s = .next a))) ∧
    (u0.mode = 2 → u0.large.st = .armed →
      (t ≤ u0.waitDue → a.handoverReady = true → Completes (.handoverActivation t) s begun) ∧
      (t ≤ u0.waitDue → a.handoverReady = false → exec (.handoverActivation t) s = .next a) ∧
      (∀ c : Instr, c = .handoverActivation t ∨ c = .handoverActivationTimeout t → u0.waitDue < t → Completes c s fun u =>
        u.upd = { u0 with err := 0x0F, mode := 0, hold := false, large := { u0.large with st := .staged } } ∧ u.pwr = s.pwr) ∧
      (t ≤ u0.waitDue → exec (.handoverActivationTimeout t) s = .next a)) ∧
    (u0.large.st ≠ .armed → ∀ c : Instr, c = .scheduledActivation t ∨ c = .activationSkip t ∨ c = .handoverActivation t ∨ c = .handoverActivationTimeout t → exec c s = .next a) ∧
    (a.handoverReady = true ↔ a.active = false ∨ (a.partnerFit = true ∧ s.pair.partner.runUid = u0.large.uid ∧ (s.pair.mode = .lite ∨ a.stagedCompat = false → a.busyCode = 0 ∨ a.busyCode = 3)))

/-- Of R463, R464, R468, R470, R471, R473, R474: records written to their partition and refused by a full one, snapshots, marks and clears. Model's choices: logs 44 and 47. -/
def Obligations.LedgerCommands : Prop :=
  ∀ (s : State) (t : Nat) (m : Master), s.live = true →
    let a := s.arrive t
    (∀ (p : Fin 3) (r : LdgRec) (rest : List LdgRec), s.ldg.parts[p].queue = r :: rest →
      let P := s.ldg.parts[p]
      let size := partSize p
      let room := recLen r ≤ s.ledgerShare p ∨ recLen r ≤ s.spareFor (ledgerPlace p)
      (snapDue r = true ∨ ¬room → exec (.ledgerRecordWrite t p) s = .next a) ∧
      (snapDue r = false → room → Completes (.ledgerRecordWrite t p) s fun u =>
        let Q := u.ldg.parts[p]
        Q.queue = rest ∧ Q.gen = P.gen ∧ (∀ q : Fin 3, q ≠ p → u.ldg.parts[q] = s.ldg.parts[q]) ∧
        (P.full = true → Q.fullDrop = satInc 16 P.fullDrop ∧ Q.fill = P.fill ∧ Q.seq = P.seq ∧ Q.mem = P.mem ∧ Q.full = true ∧ u.host.sum = s.host.sum) ∧
        (P.full = false → u.host.sum[14] = (if Q.full then wrapInc 32 (wrapInc 32 s.host.sum[14]) else wrapInc 32 s.host.sum[14]) ∧ Q.seq = (P.seq + 1) % 2 ^ 32) ∧
        (P.full = false → P.fill + recLen r ≤ size - 32 → Q.fill = P.fill + recLen r ∧ Q.mem = memWrites P.mem P.fill (recBytes r (P.seq + 1) P.gen P.dropped) ∧ Q.full = false ∧ Q.fullDrop = P.fullDrop ∧ Q.dropped = false) ∧
        (P.full = false → size - 32 < P.fill + recLen r → Q.fill = size ∧ Q.mem = memWrites P.mem (size - 32) (recBytes (fullRec a.mt P r.code) (P.seq + 1) P.gen P.dropped) ∧ Q.full = true ∧ Q.fullDrop = satInc 16 P.fullDrop ∧ Q.dropped = true))) ∧
    (∀ p : Fin 3, s.ldg.parts[p].queue = [] → exec (.ledgerRecordWrite t p) s = .next a) ∧
    (idleAfter a t = none → exec (.snapshotRead t) s = .next a) ∧
    (∀ d, idleAfter a t = some d → exec (.snapshotRead t) s = .next { a with ldg := { s.ldg with parts := vmap (fun _ P => { P with queue := P.queue.map (captured a d) }) s.ldg.parts } }) ∧
    (s.running = false → idleAfter a t = if t % 1000000 = 0 then some t else none) ∧
    (s.serves m = true →
      let P := s.ldg.parts[(0 : Fin 3)]
      let S := s.ldg.parts[(1 : Fin 3)]
      let cleared (R Q : Partition) (rec0 : LdgRec) := Q.gen = (R.gen + 1) % 65536 ∧ Q.fill = 32 ∧ Q.full = false ∧ Q.qDrop = 0 ∧ Q.fullDrop = 0 ∧ Q.seq = (R.seq + 1) % 2 ^ 32 ∧
        Q.mem = memWrites R.mem 0 (recBytes rec0 (R.seq + 1) ((R.gen + 1) % 65536) (R.dropped || R.qDrop != 0 || R.fullDrop != 0))
      (Completes (.mark t m) s fun u => u.host.answer = okAnswer ∧ u.ldg.parts[(0 : Fin 3)].fill = P.fill ∧ u.ldg.parts[(0 : Fin 3)].mem = P.mem ∧ u.ldg.parts[(1 : Fin 3)] = S ∧
        (P.queue.length < 64 → ∃ rest, u.ldg.parts[(0 : Fin 3)].queue = P.queue ++ { code := 0x0B02, time := a.mt, index := masterCode m, a := s.ldg.markA % 2 ^ 32, b := s.ldg.markB % 2 ^ 32, follow := [], snapSet := snapFor a 0 0x0B02, snap := none } :: rest)) ∧
      (Completes (.clrSys t m) s fun u => (s.lock.st ≠ .unlocked ∨ s.lock.owner ≠ m) → u.host.answer = ⟨.locked, .none⟩ ∧ u.ldg.parts[(0 : Fin 3)].fill = P.fill ∧ u.ldg.parts[(0 : Fin 3)].gen = P.gen ∧ u.ldg.parts[(0 : Fin 3)].mem = P.mem) ∧
      (s.lock.st = .unlocked → s.lock.owner = m → (P.seq ≠ s.ldg.clrUpto → exec (.clrSys t m) s = .next { a with host := { s.host with answer := deny .state } }) ∧
        (P.seq = s.ldg.clrUpto → s.pwr.pfw = false → Completes (.clrSys t m) s fun u => u.host.answer = okAnswer ∧ cleared P u.ldg.parts[(0 : Fin 3)] (clearRec a m 0) ∧ u.ldg.parts[(1 : Fin 3)] = S)) ∧
      (Completes (.clrSaf t m) s fun u => s.saf.unlock.st ≠ .unlocked → u.host.answer = ⟨.locked, .none⟩ ∧ u.ldg.parts[(1 : Fin 3)] = S) ∧
      (s.saf.unlock.st = .unlocked → (S.seq ≠ s.ldg.clrUpto → exec (.clrSaf t m) s = .next { a with host := { s.host with answer := deny .state } }) ∧
        (S.seq = s.ldg.clrUpto → s.pwr.pfw = false → Completes (.clrSaf t m) s fun u => u.host.answer = okAnswer ∧ cleared S u.ldg.parts[(1 : Fin 3)] (clearRec a m 1) ∧ u.ldg.parts[(0 : Fin 3)].mem = P.mem ∧
          (P.queue.length < 64 → ∃ rest r, u.ldg.parts[(0 : Fin 3)].queue = P.queue ++ r :: rest ∧ r.code = 0x0E03 ∧ r.index = masterCode m))))
end

