-- ==== Sys2Proof/Laws/Frame.lean ====
section
/-! SUPPORT. Frames: a state that differs from another at most in named parts, through records, choices, folds and the updates of one
element. The generated files of this folder say it of every operation of the model. -/
namespace Sys2Proof.Machine

theorem OnlyIn.refl (cs : Block → Bool) (s : State) : OnlyIn cs s s := fun k _ => by cases k <;> rfl

theorem sameBlock.trans {k : Block} {s t u : State} (h1 : sameBlock k s t) (h2 : sameBlock k t u) : sameBlock k s u := by
  cases k <;> exact Eq.trans h2 h1

theorem OnlyIn.trans {cs : Block → Bool} {s t u : State} (h1 : OnlyIn cs s t) (h2 : OnlyIn cs t u) : OnlyIn cs s u :=
  fun k hk => (h1 k hk).trans (h2 k hk)

theorem OnlyIn.leaf {cs : Block → Bool} {s t u : State} (h : OnlyIn cs s t) (hu : ∀ k, cs k = false → sameBlock k t u) : OnlyIn cs s u :=
  fun k hk => (h k hk).trans (hu k hk)

/-- A part cannot be both named and left out. -/
theorem clash {b : Bool} {p : Prop} (h1 : b = true) (h2 : b = false) : p := by rw [h1] at h2; cases h2

theorem OnlyIn.ite {cs : Block → Bool} {s t u : State} {c : Prop} {inst : Decidable c} (ht : OnlyIn cs s t) (hu : OnlyIn cs s u) :
    OnlyIn cs s (if c then t else u) := by split <;> assumption

theorem OnlyIn.iteSnd {α : Type} {cs : Block → Bool} {s : State} {p q : α × State} {c : Prop} {inst : Decidable c} (ht : OnlyIn cs s p.2)
    (hu : OnlyIn cs s q.2) : OnlyIn cs s (if c then p else q).2 := by split <;> assumption

theorem OnlyIn.iteSS {α β : Type} {cs : Block → Bool} {s : State} {p q : α × β × State} {c : Prop} {inst : Decidable c} (ht : OnlyIn cs s p.2.2)
    (hu : OnlyIn cs s q.2.2) : OnlyIn cs s (if c then p else q).2.2 := by split <;> assumption

theorem OnlyIn.iteFst {α : Type} {cs : Block → Bool} {s : State} {p q : State × α} {c : Prop} {inst : Decidable c} (ht : OnlyIn cs s p.1)
    (hu : OnlyIn cs s q.1) : OnlyIn cs s (if c then p else q).1 := by split <;> assumption

theorem OnlyIn.pairSnd {α : Type} {cs : Block → Bool} {s t : State} {a : α} (h : OnlyIn cs s t) : OnlyIn cs s (a, t).2 := h

theorem OnlyIn.pairSS {α β : Type} {cs : Block → Bool} {s t : State} {a : α} {b : β} (h : OnlyIn cs s t) : OnlyIn cs s (a, b, t).2.2 := h

theorem OnlyIn.pairFst {α : Type} {cs : Block → Bool} {s t : State} {a : α} (h : OnlyIn cs s t) : OnlyIn cs s (t, a).1 := h

theorem OnlyIn.foldl {α : Type} {cs : Block → Bool} {f : State → α → State} {s t : State} {l : List α}
    (hf : ∀ t i, OnlyIn cs s t → OnlyIn cs s (f t i)) (h : OnlyIn cs s t) : OnlyIn cs s (l.foldl f t) := by
  induction l generalizing t with
  | nil => exact h
  | cons i l ih => exact ih (hf t i h)

theorem OnlyIn.foldlSnd {α β : Type} {cs : Block → Bool} {f : β × State → α → β × State} {s : State} {q : β × State} {l : List α}
    (hf : ∀ q i, OnlyIn cs s q.2 → OnlyIn cs s (f q i).2) (h : OnlyIn cs s q.2) : OnlyIn cs s (l.foldl f q).2 := by
  induction l generalizing q with
  | nil => exact h
  | cons i l ih => exact ih (hf q i h)

theorem OnlyIn.foldlFst {α β : Type} {cs : Block → Bool} {f : State × β → α → State × β} {s : State} {q : State × β} {l : List α}
    (hf : ∀ q i, OnlyIn cs s q.1 → OnlyIn cs s (f q i).1) (h : OnlyIn cs s q.1) : OnlyIn cs s (l.foldl f q).1 := by
  induction l generalizing q with
  | nil => exact h
  | cons i l ih => exact ih (hf q i h)

theorem OnlyIn.setQueue {cs : Block → Bool} {s t : State} {x} (hc : cs .queue = true) (h : OnlyIn cs s t) : OnlyIn cs s { t with pending := x } :=
  h.leaf fun k hk => by cases k <;> first | rfl | exact clash hc hk

theorem OnlyIn.setMt {cs : Block → Bool} {s t : State} {x} (hc : cs .mt = true) (h : OnlyIn cs s t) : OnlyIn cs s { t with mt := x } :=
  h.leaf fun k hk => by cases k <;> first | rfl | exact clash hc hk

theorem OnlyIn.setDraws {cs : Block → Bool} {s t : State} {x} (hc : cs .draws = true) (h : OnlyIn cs s t) : OnlyIn cs s { t with draws := x } :=
  h.leaf fun k hk => by cases k <;> first | rfl | exact clash hc hk

theorem OnlyIn.setFuses {cs : Block → Bool} {s t : State} {x} (hc : cs .fuses = true) (h : OnlyIn cs s t) : OnlyIn cs s { t with fuses := x } :=
  h.leaf fun k hk => by cases k <;> first | rfl | exact clash hc hk

theorem OnlyIn.setProf {cs : Block → Bool} {s t : State} {x} (hc : cs .prof = true) (h : OnlyIn cs s t) : OnlyIn cs s { t with prof := x } :=
  h.leaf fun k hk => by cases k <;> first | rfl | exact clash hc hk

theorem OnlyIn.setLock {cs : Block → Bool} {s t : State} {x} (hc : cs .lock = true) (h : OnlyIn cs s t) : OnlyIn cs s { t with lock := x } :=
  h.leaf fun k hk => by cases k <;> first | rfl | exact clash hc hk

/-- What may have changed between two values of HostBlock. -/
def HostIn (cs : Block → Bool) (y x : HostBlock) : Prop :=
  (cs .sums = true ∨ x.sum = y.sum) ∧ (cs .answer = true ∨ (x.answer, x.data) = (y.answer, y.data)) ∧ (cs .viol = true ∨ (x.viol, x.violCnt) =
        (y.viol, y.violCnt)) ∧ (cs .host = true ∨ x.rest = y.rest)

theorem OnlyIn.setHost {cs : Block → Bool} {s t : State} {x} (hc : HostIn cs t.host x) (h : OnlyIn cs s t) : OnlyIn cs s { t with host := x } :=
  h.leaf fun k hk => by
    cases k with
    | sums => exact hc.1.elim (fun c => clash c hk) id
    | answer => exact hc.2.1.elim (fun c => clash c hk) id
    | viol => exact hc.2.2.1.elim (fun c => clash c hk) id
    | host => exact hc.2.2.2.elim (fun c => clash c hk) id
    | _ => rfl

theorem OnlyIn.setAssume {cs : Block → Bool} {s t : State} {x} (hc : cs .assume = true) (h : OnlyIn cs s t) : OnlyIn cs s { t with assume := x } :=
  h.leaf fun k hk => by cases k <;> first | rfl | exact clash hc hk

theorem OnlyIn.setClk {cs : Block → Bool} {s t : State} {x} (hc : cs .clk = true) (h : OnlyIn cs s t) : OnlyIn cs s { t with clk := x } :=
  h.leaf fun k hk => by cases k <;> first | rfl | exact clash hc hk

theorem OnlyIn.setPwr {cs : Block → Bool} {s t : State} {x} (hc : cs .pwr = true) (h : OnlyIn cs s t) : OnlyIn cs s { t with pwr := x } :=
  h.leaf fun k hk => by cases k <;> first | rfl | exact clash hc hk

theorem OnlyIn.setRtc {cs : Block → Bool} {s t : State} {x} (hc : cs .rtc = true) (h : OnlyIn cs s t) : OnlyIn cs s { t with rtc := x } :=
  h.leaf fun k hk => by cases k <;> first | rfl | exact clash hc hk

theorem OnlyIn.setLat {cs : Block → Bool} {s t : State} {x} (hc : cs .lat = true) (h : OnlyIn cs s t) : OnlyIn cs s { t with lat := x } :=
  h.leaf fun k hk => by cases k <;> first | rfl | exact clash hc hk

/-- What may have changed between two values of StlCommon. -/
def StlIn (cs : Block → Bool) (y x : StlCommon) : Prop :=
  (cs .capture = true ∨ (x.frozen, x.armed, x.trigSrc, x.trigStall) = (y.frozen, y.armed, y.trigSrc, y.trigStall)) ∧ (cs .stl = true ∨ x.rest =
        y.rest)

theorem OnlyIn.setStl {cs : Block → Bool} {s t : State} {x} (hc : StlIn cs t.stl x) (h : OnlyIn cs s t) : OnlyIn cs s { t with stl := x } :=
  h.leaf fun k hk => by
    cases k with
    | capture => exact hc.1.elim (fun c => clash c hk) id
    | stl => exact hc.2.elim (fun c => clash c hk) id
    | _ => rfl

theorem OnlyIn.setMkt {cs : Block → Bool} {s t : State} {x} (hc : cs .mkt = true) (h : OnlyIn cs s t) : OnlyIn cs s { t with mkt := x } :=
  h.leaf fun k hk => by cases k <;> first | rfl | exact clash hc hk

theorem OnlyIn.setThm {cs : Block → Bool} {s t : State} {x} (hc : cs .thm = true) (h : OnlyIn cs s t) : OnlyIn cs s { t with thm := x } :=
  h.leaf fun k hk => by cases k <;> first | rfl | exact clash hc hk

theorem OnlyIn.setAux {cs : Block → Bool} {s t : State} {x} (hc : cs .aux = true) (h : OnlyIn cs s t) : OnlyIn cs s { t with aux := x } :=
  h.leaf fun k hk => by cases k <;> first | rfl | exact clash hc hk

theorem OnlyIn.setMet {cs : Block → Bool} {s t : State} {x} (hc : cs .met = true) (h : OnlyIn cs s t) : OnlyIn cs s { t with met := x } :=
  h.leaf fun k hk => by cases k <;> first | rfl | exact clash hc hk

theorem OnlyIn.setSaf {cs : Block → Bool} {s t : State} {x} (hc : cs .saf = true) (h : OnlyIn cs s t) : OnlyIn cs s { t with saf := x } :=
  h.leaf fun k hk => by cases k <;> first | rfl | exact clash hc hk

/-- What may have changed between two values of Pair. -/
def PairIn (cs : Block → Bool) (y x : Pair) : Prop :=
  (cs .role = true ∨ (x.role, x.activeO) = (y.role, y.activeO)) ∧ (cs .pair = true ∨ x.rest = y.rest)

theorem OnlyIn.setPair {cs : Block → Bool} {s t : State} {x} (hc : PairIn cs t.pair x) (h : OnlyIn cs s t) : OnlyIn cs s { t with pair := x } :=
  h.leaf fun k hk => by
    cases k with
    | role => exact hc.1.elim (fun c => clash c hk) id
    | pair => exact hc.2.elim (fun c => clash c hk) id
    | _ => rfl

theorem OnlyIn.setSbus {cs : Block → Bool} {s t : State} {x} (hc : cs .sbus = true) (h : OnlyIn cs s t) : OnlyIn cs s { t with sbus := x } :=
  h.leaf fun k hk => by cases k <;> first | rfl | exact clash hc hk

theorem OnlyIn.setVault {cs : Block → Bool} {s t : State} {x} (hc : cs .vault = true) (h : OnlyIn cs s t) : OnlyIn cs s { t with vault := x } :=
  h.leaf fun k hk => by cases k <;> first | rfl | exact clash hc hk

theorem OnlyIn.setUpd {cs : Block → Bool} {s t : State} {x} (hc : cs .upd = true) (h : OnlyIn cs s t) : OnlyIn cs s { t with upd := x } :=
  h.leaf fun k hk => by cases k <;> first | rfl | exact clash hc hk

/-- What may have changed between two values of LedgerBlock. -/
def LdgIn (cs : Block → Bool) (y x : LedgerBlock) : Prop :=
  (cs .queues = true ∨ x.waiting = y.waiting) ∧ (cs .ldg = true ∨ x.rest = y.rest)

theorem OnlyIn.setLdg {cs : Block → Bool} {s t : State} {x} (hc : LdgIn cs t.ldg x) (h : OnlyIn cs s t) : OnlyIn cs s { t with ldg := x } :=
  h.leaf fun k hk => by
    cases k with
    | queues => exact hc.1.elim (fun c => clash c hk) id
    | ldg => exact hc.2.elim (fun c => clash c hk) id
    | _ => rfl

theorem OnlyIn.setMram {cs : Block → Bool} {s t : State} {x} (hc : cs .mram = true) (h : OnlyIn cs s t) : OnlyIn cs s { t with mram := x } :=
  h.leaf fun k hk => by cases k <;> first | rfl | exact clash hc hk

theorem OnlyIn.setStalls {cs : Block → Bool} {s t : State} {x} (hc : (∀ i, cs (.link i) = true) ∧ (∀ i, cs (.sample i) = true) ∧ (∀ i, cs (.stall i)
    = true)) (h : OnlyIn cs s t) : OnlyIn cs s { t with stalls := x } :=
  h.leaf fun k hk => by
    cases k with
    | link i => exact clash (hc.1 i) hk
    | sample i => exact clash (hc.2.1 i) hk
    | stall i => exact clash (hc.2.2 i) hk
    | _ => rfl

theorem OnlyIn.setBays {cs : Block → Bool} {s t : State} {x} (hc : (∀ i, cs (.outlet i) = true) ∧ (∀ i, cs (.settings i) = true) ∧ (∀ i, cs (.bay i)
    = true)) (h : OnlyIn cs s t) : OnlyIn cs s { t with bays := x } :=
  h.leaf fun k hk => by
    cases k with
    | outlet i => exact clash (hc.1 i) hk
    | settings i => exact clash (hc.2.1 i) hk
    | bay i => exact clash (hc.2.2 i) hk
    | _ => rfl

theorem vupd_other {α : Type} {n : Nat} (v : Vector α n) (i j : Fin n) (f : α → α) (h : i ≠ j) : (vupd v i f)[j] = v[j] := by
  have : i.val ≠ j.val := fun e => h (Fin.ext e)
  simp [vupd, this]

theorem vupd_here {α : Type} {n : Nat} (v : Vector α n) (i : Fin n) (f : α → α) : (vupd v i f)[i] = f v[i] := by simp [vupd]

/-- What may have changed between two values of Stall number `n`. -/
def StallIn (cs : Block → Bool) (n : Fin 64) (y x : Stall) : Prop :=
  (cs (.link n) = true ∨ x.link = y.link) ∧ (cs (.sample n) = true ∨ x.taken = y.taken) ∧ (cs (.stall n) = true ∨ x.rest = y.rest)

theorem State.setStall_only {cs : Block → Bool} {s t : State} {n f} (hc : ∀ x, StallIn cs n x (f x)) (h : OnlyIn cs s t) :
    OnlyIn cs s (t.setStall n f) :=
  h.leaf fun k hk => by
    cases k with
    | link i =>
      by_cases e : n = i
      · subst e
        exact (hc _).1.elim (fun c => clash c hk) fun e => (congrArg (fun x : Stall => x.link) (vupd_here t.stalls n f)).trans e
      · exact congrArg (fun x : Stall => x.link) (vupd_other t.stalls n i f e)
    | sample i =>
      by_cases e : n = i
      · subst e
        exact (hc _).2.1.elim (fun c => clash c hk) fun e => (congrArg (fun x : Stall => x.taken) (vupd_here t.stalls n f)).trans e
      · exact congrArg (fun x : Stall => x.taken) (vupd_other t.stalls n i f e)
    | stall i =>
      by_cases e : n = i
      · subst e
        exact (hc _).2.2.elim (fun c => clash c hk) fun e => (congrArg (fun x : Stall => x.rest) (vupd_here t.stalls n f)).trans e
      · exact congrArg (fun x : Stall => x.rest) (vupd_other t.stalls n i f e)
    | _ => rfl

/-- What may have changed between two values of Bay number `n`. -/
def BayIn (cs : Block → Bool) (n : Fin 12) (y x : Bay) : Prop :=
  (cs (.outlet n) = true ∨ x.outlet = y.outlet) ∧ (cs (.settings n) = true ∨ x.settings = y.settings) ∧ (cs (.bay n) = true ∨ x.rest = y.rest)

theorem State.setBay_only {cs : Block → Bool} {s t : State} {n f} (hc : ∀ x, BayIn cs n x (f x)) (h : OnlyIn cs s t) :
    OnlyIn cs s (t.setBay n f) :=
  h.leaf fun k hk => by
    cases k with
    | outlet i =>
      by_cases e : n = i
      · subst e
        exact (hc _).1.elim (fun c => clash c hk) fun e => (congrArg (fun x : Bay => x.outlet) (vupd_here t.bays n f)).trans e
      · exact congrArg (fun x : Bay => x.outlet) (vupd_other t.bays n i f e)
    | settings i =>
      by_cases e : n = i
      · subst e
        exact (hc _).2.1.elim (fun c => clash c hk) fun e => (congrArg (fun x : Bay => x.settings) (vupd_here t.bays n f)).trans e
      · exact congrArg (fun x : Bay => x.settings) (vupd_other t.bays n i f e)
    | bay i =>
      by_cases e : n = i
      · subst e
        exact (hc _).2.2.elim (fun c => clash c hk) fun e => (congrArg (fun x : Bay => x.rest) (vupd_here t.bays n f)).trans e
      · exact congrArg (fun x : Bay => x.rest) (vupd_other t.bays n i f e)
    | _ => rfl

theorem State.forAll_only {cs : Block → Bool} {s t : State} {n : Nat} {f : Fin n → State → State}
    (hf : ∀ i t, OnlyIn cs s t → OnlyIn cs s (f i t)) (h : OnlyIn cs s t) : OnlyIn cs s (State.forAll n f t) := by
  unfold State.forAll
  exact OnlyIn.foldl (fun t i => hf i t) h

theorem State.when_only {cs : Block → Bool} {s t : State} {c} {f : State → State} (hf : ∀ t, OnlyIn cs s t → OnlyIn cs s (f t))
    (h : OnlyIn cs s t) : OnlyIn cs s (t.when c f) := by
  unfold State.when
  exact OnlyIn.ite (hf t h) h

/-- A record whose every field is that of `t` or a named part. -/
theorem OnlyIn.mk {cs : Block → Bool} {s t : State} {x0 x1 x2 x3 x4 x5 x6 x7 x8 x9 x10 x11 x12 x13 x14 x15 x16 x17 x18 x19 x20 x21 x22 x23 x24 x25}
    (h : OnlyIn cs s t)
    (h0 : cs .queue = true ∨ x0 = t.pending) (h1 : cs .mt = true ∨ x1 = t.mt) (h2 : cs .draws = true ∨ x2 = t.draws) (h3 : cs .fuses = true ∨ x3 =
          t.fuses)
    (h4 : cs .prof = true ∨ x4 = t.prof) (h5 : cs .lock = true ∨ x5 = t.lock) (h6 : HostIn cs t.host x6) (h7 : cs .assume = true ∨ x7 = t.assume)
    (h8 : cs .clk = true ∨ x8 = t.clk) (h9 : cs .pwr = true ∨ x9 = t.pwr) (h10 : cs .rtc = true ∨ x10 = t.rtc) (h11 : cs .lat = true ∨ x11 = t.lat)
    (h12 : StlIn cs t.stl x12) (h13 : ((∀ i, cs (.link i) = true) ∧ (∀ i, cs (.sample i) = true) ∧ (∀ i, cs (.stall i) = true)) ∨ x13 = t.stalls)
          (h14 : ((∀ i, cs (.outlet i) = true) ∧ (∀ i, cs (.settings i) = true) ∧ (∀ i, cs (.bay i) = true)) ∨ x14 = t.bays) (h15 : cs .mkt = true ∨
          x15 = t.mkt)
    (h16 : cs .thm = true ∨ x16 = t.thm) (h17 : cs .aux = true ∨ x17 = t.aux) (h18 : cs .met = true ∨ x18 = t.met) (h19 : cs .saf = true ∨ x19 =
          t.saf)
    (h20 : PairIn cs t.pair x20) (h21 : cs .sbus = true ∨ x21 = t.sbus) (h22 : cs .vault = true ∨ x22 = t.vault) (h23 : cs .upd = true ∨ x23 =
          t.upd)
    (h24 : LdgIn cs t.ldg x24) (h25 : cs .mram = true ∨ x25 = t.mram) :
    OnlyIn cs s ⟨x0, x1, x2, x3, x4, x5, x6, x7, x8, x9, x10, x11, x12, x13, x14, x15, x16, x17, x18, x19, x20, x21, x22, x23, x24, x25⟩ :=
  h.leaf fun k hk => by
    cases k with
    | queue => exact h0.elim (fun c => clash c hk) id
    | mt => exact h1.elim (fun c => clash c hk) id
    | draws => exact h2.elim (fun c => clash c hk) id
    | fuses => exact h3.elim (fun c => clash c hk) id
    | prof => exact h4.elim (fun c => clash c hk) id
    | lock => exact h5.elim (fun c => clash c hk) id
    | sums => exact h6.1.elim (fun c => clash c hk) id
    | answer => exact h6.2.1.elim (fun c => clash c hk) id
    | viol => exact h6.2.2.1.elim (fun c => clash c hk) id
    | host => exact h6.2.2.2.elim (fun c => clash c hk) id
    | assume => exact h7.elim (fun c => clash c hk) id
    | clk => exact h8.elim (fun c => clash c hk) id
    | pwr => exact h9.elim (fun c => clash c hk) id
    | rtc => exact h10.elim (fun c => clash c hk) id
    | lat => exact h11.elim (fun c => clash c hk) id
    | capture => exact h12.1.elim (fun c => clash c hk) id
    | stl => exact h12.2.elim (fun c => clash c hk) id
    | link n => exact h13.elim (fun c => clash (c.1 n) hk) (fun e => by subst e; rfl)
    | sample n => exact h13.elim (fun c => clash (c.2.1 n) hk) (fun e => by subst e; rfl)
    | stall n => exact h13.elim (fun c => clash (c.2.2 n) hk) (fun e => by subst e; rfl)
    | outlet n => exact h14.elim (fun c => clash (c.1 n) hk) (fun e => by subst e; rfl)
    | settings n => exact h14.elim (fun c => clash (c.2.1 n) hk) (fun e => by subst e; rfl)
    | bay n => exact h14.elim (fun c => clash (c.2.2 n) hk) (fun e => by subst e; rfl)
    | mkt => exact h15.elim (fun c => clash c hk) id
    | thm => exact h16.elim (fun c => clash c hk) id
    | aux => exact h17.elim (fun c => clash c hk) id
    | met => exact h18.elim (fun c => clash c hk) id
    | saf => exact h19.elim (fun c => clash c hk) id
    | role => exact h20.1.elim (fun c => clash c hk) id
    | pair => exact h20.2.elim (fun c => clash c hk) id
    | sbus => exact h21.elim (fun c => clash c hk) id
    | vault => exact h22.elim (fun c => clash c hk) id
    | upd => exact h23.elim (fun c => clash c hk) id
    | queues => exact h24.1.elim (fun c => clash c hk) id
    | ldg => exact h24.2.elim (fun c => clash c hk) id
    | mram => exact h25.elim (fun c => clash c hk) id

/-- The effect of a register write stays in the parts named. -/
def EffIn (cs : Block → Bool) (e : RegEffect) : Prop := ∀ s t, OnlyIn cs s t → OnlyIn cs s (e.2 t)

/-- The same for an address that may hold no register. -/
def EffsIn (cs : Block → Bool) (o : Option RegEffect) : Prop := ∀ e, o = some e → EffIn cs e

theorem EffIn.mk {cs : Block → Bool} {a : Option Answer} {f : State → State} (hf : ∀ s t, OnlyIn cs s t → OnlyIn cs s (f t)) : EffIn cs (a, f) := hf

theorem EffIn.inRange {cs : Block → Bool} {ok : Bool} {f : State → State} (hf : ∀ s t, OnlyIn cs s t → OnlyIn cs s (f t)) :
    EffIn cs (inRange ok f) := hf

theorem EffIn.ite {cs : Block → Bool} {e f : RegEffect} {c : Prop} {inst : Decidable c} (he : EffIn cs e) (hf : EffIn cs f) :
    EffIn cs (if c then e else f) := by split <;> assumption

theorem EffsIn.ite {cs : Block → Bool} {e f : Option RegEffect} {c : Prop} {inst : Decidable c} (he : EffsIn cs e) (hf : EffsIn cs f) :
    EffsIn cs (if c then e else f) := by split <;> assumption

theorem EffsIn.some {cs : Block → Bool} {e : RegEffect} (he : EffIn cs e) : EffsIn cs (some e) := fun _ h => by cases h; exact he

theorem EffsIn.none {cs : Block → Bool} : EffsIn cs Option.none := fun _ h => by cases h

theorem EffsIn.map {cs : Block → Bool} {α : Type} {o : Option α} {f : α → RegEffect} (hf : ∀ x, EffIn cs (f x)) : EffsIn cs (o.map f) := by
  intro e h
  cases o with
  | none => cases h
  | some x => cases h; exact hf x

theorem EffsIn.bind {cs : Block → Bool} {α : Type} {o : Option α} {f : α → Option RegEffect} (hf : ∀ x, EffsIn cs (f x)) : EffsIn cs (o.bind f) :=
    by
  intro e h
  cases o with
  | none => cases h
  | some x => exact hf x e h

/-! ## What a part left out keeps -/

theorem OnlyIn.keeps_queue {cs : Block → Bool} {s t : State} (o : OnlyIn cs s t) (h : cs .queue = false) : t.pending = s.pending := o .queue h

theorem OnlyIn.keeps_mt {cs : Block → Bool} {s t : State} (o : OnlyIn cs s t) (h : cs .mt = false) : t.mt = s.mt := o .mt h

theorem OnlyIn.keeps_draws {cs : Block → Bool} {s t : State} (o : OnlyIn cs s t) (h : cs .draws = false) : t.draws = s.draws := o .draws h

theorem OnlyIn.keeps_fuses {cs : Block → Bool} {s t : State} (o : OnlyIn cs s t) (h : cs .fuses = false) : t.fuses = s.fuses := o .fuses h

theorem OnlyIn.keeps_prof {cs : Block → Bool} {s t : State} (o : OnlyIn cs s t) (h : cs .prof = false) : t.prof = s.prof := o .prof h

theorem OnlyIn.keeps_lock {cs : Block → Bool} {s t : State} (o : OnlyIn cs s t) (h : cs .lock = false) : t.lock = s.lock := o .lock h

theorem OnlyIn.keeps_sums {cs : Block → Bool} {s t : State} (o : OnlyIn cs s t) (h : cs .sums = false) : t.host.sum = s.host.sum := o .sums h

theorem OnlyIn.keeps_answer {cs : Block → Bool} {s t : State} (o : OnlyIn cs s t) (h : cs .answer = false) : (t.host.answer, t.host.data) =
    (s.host.answer, s.host.data) := o .answer h

theorem OnlyIn.keeps_viol {cs : Block → Bool} {s t : State} (o : OnlyIn cs s t) (h : cs .viol = false) : (t.host.viol, t.host.violCnt) =
    (s.host.viol, s.host.violCnt) := o .viol h

theorem OnlyIn.keeps_host {cs : Block → Bool} {s t : State} (o : OnlyIn cs s t) (h : cs .host = false) : t.host.rest = s.host.rest := o .host h

theorem OnlyIn.keeps_assume {cs : Block → Bool} {s t : State} (o : OnlyIn cs s t) (h : cs .assume = false) : t.assume = s.assume := o .assume h

theorem OnlyIn.keeps_clk {cs : Block → Bool} {s t : State} (o : OnlyIn cs s t) (h : cs .clk = false) : t.clk = s.clk := o .clk h

theorem OnlyIn.keeps_pwr {cs : Block → Bool} {s t : State} (o : OnlyIn cs s t) (h : cs .pwr = false) : t.pwr = s.pwr := o .pwr h

theorem OnlyIn.keeps_rtc {cs : Block → Bool} {s t : State} (o : OnlyIn cs s t) (h : cs .rtc = false) : t.rtc = s.rtc := o .rtc h

theorem OnlyIn.keeps_lat {cs : Block → Bool} {s t : State} (o : OnlyIn cs s t) (h : cs .lat = false) : t.lat = s.lat := o .lat h

theorem OnlyIn.keeps_capture {cs : Block → Bool} {s t : State} (o : OnlyIn cs s t) (h : cs .capture = false) : (t.stl.frozen, t.stl.armed,
    t.stl.trigSrc, t.stl.trigStall) = (s.stl.frozen, s.stl.armed, s.stl.trigSrc, s.stl.trigStall) := o .capture h

theorem OnlyIn.keeps_stl {cs : Block → Bool} {s t : State} (o : OnlyIn cs s t) (h : cs .stl = false) : t.stl.rest = s.stl.rest := o .stl h

theorem OnlyIn.keeps_link {cs : Block → Bool} {s t : State} {n} (o : OnlyIn cs s t) (h : cs (.link n) = false) : t.stalls[n].link = s.stalls[n].link
    := o (.link n) h

theorem OnlyIn.keeps_sample {cs : Block → Bool} {s t : State} {n} (o : OnlyIn cs s t) (h : cs (.sample n) = false) : t.stalls[n].taken =
    s.stalls[n].taken := o (.sample n) h

theorem OnlyIn.keeps_stall {cs : Block → Bool} {s t : State} {n} (o : OnlyIn cs s t) (h : cs (.stall n) = false) : t.stalls[n].rest =
    s.stalls[n].rest := o (.stall n) h

theorem OnlyIn.keeps_outlet {cs : Block → Bool} {s t : State} {b} (o : OnlyIn cs s t) (h : cs (.outlet b) = false) : t.bays[b].outlet =
    s.bays[b].outlet := o (.outlet b) h

theorem OnlyIn.keeps_settings {cs : Block → Bool} {s t : State} {b} (o : OnlyIn cs s t) (h : cs (.settings b) = false) : t.bays[b].settings =
    s.bays[b].settings := o (.settings b) h

theorem OnlyIn.keeps_bay {cs : Block → Bool} {s t : State} {b} (o : OnlyIn cs s t) (h : cs (.bay b) = false) : t.bays[b].rest = s.bays[b].rest := o
    (.bay b) h

theorem OnlyIn.keeps_mkt {cs : Block → Bool} {s t : State} (o : OnlyIn cs s t) (h : cs .mkt = false) : t.mkt = s.mkt := o .mkt h

theorem OnlyIn.keeps_thm {cs : Block → Bool} {s t : State} (o : OnlyIn cs s t) (h : cs .thm = false) : t.thm = s.thm := o .thm h

theorem OnlyIn.keeps_aux {cs : Block → Bool} {s t : State} (o : OnlyIn cs s t) (h : cs .aux = false) : t.aux = s.aux := o .aux h

theorem OnlyIn.keeps_met {cs : Block → Bool} {s t : State} (o : OnlyIn cs s t) (h : cs .met = false) : t.met = s.met := o .met h

theorem OnlyIn.keeps_saf {cs : Block → Bool} {s t : State} (o : OnlyIn cs s t) (h : cs .saf = false) : t.saf = s.saf := o .saf h

theorem OnlyIn.keeps_role {cs : Block → Bool} {s t : State} (o : OnlyIn cs s t) (h : cs .role = false) : (t.pair.role, t.pair.activeO) =
    (s.pair.role, s.pair.activeO) := o .role h

theorem OnlyIn.keeps_pair {cs : Block → Bool} {s t : State} (o : OnlyIn cs s t) (h : cs .pair = false) : t.pair.rest = s.pair.rest := o .pair h

theorem OnlyIn.keeps_sbus {cs : Block → Bool} {s t : State} (o : OnlyIn cs s t) (h : cs .sbus = false) : t.sbus = s.sbus := o .sbus h

theorem OnlyIn.keeps_vault {cs : Block → Bool} {s t : State} (o : OnlyIn cs s t) (h : cs .vault = false) : t.vault = s.vault := o .vault h

theorem OnlyIn.keeps_upd {cs : Block → Bool} {s t : State} (o : OnlyIn cs s t) (h : cs .upd = false) : t.upd = s.upd := o .upd h

theorem OnlyIn.keeps_queues {cs : Block → Bool} {s t : State} (o : OnlyIn cs s t) (h : cs .queues = false) : t.ldg.waiting = s.ldg.waiting := o
    .queues h

theorem OnlyIn.keeps_ldg {cs : Block → Bool} {s t : State} (o : OnlyIn cs s t) (h : cs .ldg = false) : t.ldg.rest = s.ldg.rest := o .ldg h

theorem OnlyIn.keeps_mram {cs : Block → Bool} {s t : State} (o : OnlyIn cs s t) (h : cs .mram = false) : t.mram = s.mram := o .mram h

/-- Every part but one. -/
def allSave (k : Block) : Block → Bool := fun x => decide (x ≠ k)

@[simp] theorem allSave_self (k : Block) : allSave k k = false := by simp [allSave]

end Sys2Proof.Machine
end

