-- ==== Sys2Proof/Laws/FrameStl.lean ====
section
/-! SUPPORT. What every operation of links, the lattice, stalls and safe stops may change. -/
namespace Sys2Proof.Machine

theorem State.bump_only {cs : Block → Bool} {s t : State} {a1} (hsums : cs .sums = true) (h : OnlyIn cs s t) :
    OnlyIn cs s (State.bump t a1) := by
  unfold State.bump
  exact (OnlyIn.setHost ⟨.inl hsums, .inr (by rfl), .inr (by rfl), .inr (by rfl)⟩ h)

theorem vupd_get {α : Type} {n : Nat} (v : Vector α n) (i j : Fin n) (f : α → α) : (vupd v i f)[j] = if i = j then f v[j] else v[j] := by
  by_cases e : i = j
  · subst e; simp [vupd]
  · rw [vupd_other v i j f e, if_neg e]

theorem vmap_vupd {α β : Type} {n : Nat} (v : Vector α n) (i : Fin n) (f : α → α) (g : α → β) (h : ∀ x, g (f x) = g x) :
    vmap (fun _ x => g x) (vupd v i f) = vmap (fun _ x => g x) v := by
  unfold vmap
  congr 1
  funext j
  rw [vupd_get]
  split
  · exact h _
  · rfl

theorem State.enqueue_only {cs : Block → Bool} {s t : State} {a1 a2} (hqueues : cs .queues = true) (h : OnlyIn cs s t) :
    OnlyIn cs s (t.enqueue a1 a2) := by
  unfold State.enqueue
  refine OnlyIn.setLdg ⟨.inl hqueues, .inr ?_⟩ h
  have e := vmap_vupd t.ldg.parts a1
    (fun P => if !(queueRoom t a1) then { P with qDrop := satInc 16 P.qDrop, dropped := true } else { P with queue := P.queue ++ [a2] })
    (fun P : Partition => { P with queue := [], qDrop := 0, dropped := false }) fun P => by split <;> rfl
  exact congrArg (fun v => ({ t.ldg with parts := v } : LedgerBlock)) e


theorem State.queueRec_only {cs : Block → Bool} {s t : State} {a1 a2 a3 a4 a5 a6 a7} (hsums : cs .sums = true) (hqueues : cs .queues = true) (h :
      OnlyIn cs s t) :
    OnlyIn cs s (State.queueRec t a1 a2 a3 a4 a5 a6 a7) := by
  unfold State.queueRec
  exact (State.bump_only hsums (State.enqueue_only hqueues h))

theorem State.capFreeze_only {cs : Block → Bool} {s t : State} {a1 a2} (hsums : cs .sums = true) (hcapture : cs .capture = true) (hqueues : cs .queues
      = true) (h : OnlyIn cs s t) :
    OnlyIn cs s (State.capFreeze t a1 a2) := by
  unfold State.capFreeze
  exact (OnlyIn.ite h
        (by extract_lets +onlyGivenNames -merge -underBinder x0 x1; have hx1 : OnlyIn cs s x1 := (OnlyIn.setStl ⟨.inl hcapture, .inr (by rfl)⟩ h); (try clear_value x1); exact (State.queueRec_only hsums hqueues hx1)))

theorem State.logAt_only {cs : Block → Bool} {s t : State} {a1 a2 a3 a4 a5 a6} (hsums : cs .sums = true) (hcapture : cs .capture = true) (hqueues : cs
      .queues = true) (h : OnlyIn cs s t) :
    OnlyIn cs s (State.logAt t a1 a2 a3 a4 a5 a6) := by
  unfold State.logAt
  extract_lets +onlyGivenNames -merge -underBinder x0
  have hx0 : OnlyIn cs s x0 := (State.queueRec_only hsums hqueues h)
  (try clear_value x0)
  exact (OnlyIn.ite (State.capFreeze_only hsums hcapture hqueues hx0) hx0)

theorem State.log_only {cs : Block → Bool} {s t : State} {a1 a2 a3 a4 a5} (hsums : cs .sums = true) (hcapture : cs .capture = true) (hqueues : cs
      .queues = true) (h : OnlyIn cs s t) :
    OnlyIn cs s (State.log t a1 a2 a3 a4 a5) := by
  unfold State.log
  exact (State.logAt_only hsums hcapture hqueues h)

theorem State.violates_only {cs : Block → Bool} {s t : State} {a1 a2 a3 a4} (hsums : cs .sums = true) (hviol : cs .viol = true) (hcapture : cs
      .capture = true) (hqueues : cs .queues = true) (h : OnlyIn cs s t) :
    OnlyIn cs s (State.violates t a1 a2 a3 a4) := by
  unfold State.violates
  extract_lets +onlyGivenNames -merge -underBinder x0 x1
  have hx1 : OnlyIn cs s x1 := (OnlyIn.setHost ⟨.inr (by rfl), .inr (by rfl), .inl hviol, .inr (by rfl)⟩ h)
  (try clear_value x1)
  exact (OnlyIn.ite hx1
        (by extract_lets +onlyGivenNames -merge -underBinder x2; (try clear_value x2); exact (by extract_lets +onlyGivenNames -merge -underBinder x3 x4; have hx4 : OnlyIn cs s x4 := (OnlyIn.setHost ⟨.inr (by rfl), .inr (by rfl), .inl hviol, .inr (by rfl)⟩ hx1); (try clear_value x4); exact (State.log_only hsums hcapture hqueues hx4))))

theorem State.answered_only {cs : Block → Bool} {s t : State} {a1 a2 a3 a4} (hsums : cs .sums = true) (hanswer : cs .answer = true) (hviol : cs .viol
      = true) (hcapture : cs .capture = true) (hqueues : cs .queues = true) (h : OnlyIn cs s t) :
    OnlyIn cs s (State.answered t a1 a2 a3 a4) := by
  unfold State.answered
  extract_lets +onlyGivenNames -merge -underBinder x0 x1
  have hx1 : OnlyIn cs s x1 := (OnlyIn.setHost ⟨.inr (by rfl), .inl hanswer, .inr (by rfl), .inr (by rfl)⟩ h)
  (try clear_value x1)
  exact (OnlyIn.ite (State.violates_only hsums hviol hcapture hqueues hx1) hx1)

theorem State.arrive_only {cs : Block → Bool} {s t : State} {a1} (hmt : cs .mt = true) (h : OnlyIn cs s t) :
    OnlyIn cs s (State.arrive t a1) := by
  unfold State.arrive
  exact (OnlyIn.setMt hmt h)

theorem State.bumpIf_only {cs : Block → Bool} {s t : State} {a1 a2} (hsums : cs .sums = true) (h : OnlyIn cs s t) :
    OnlyIn cs s (State.bumpIf t a1 a2) := by
  unfold State.bumpIf
  exact (OnlyIn.ite (State.bump_only hsums h) h)

theorem State.command_only {cs : Block → Bool} {s t : State} {a1} {a2} {a3} {a4 : Sys2Proof.Machine.State → Sys2Proof.Machine.State} (hsums : cs .sums
      = true) (hanswer : cs .answer = true) (hviol : cs .viol = true) (hcapture : cs .capture = true) (hqueues : cs .queues = true) (k4_ : ∀  w,
      OnlyIn cs s w → OnlyIn cs s (a4  w)) (h : OnlyIn cs s t) :
    OnlyIn cs s (State.command t a1 a2 a3 a4) := by
  unfold State.command
  exact
        (by split; (next => exact (State.answered_only hsums hanswer hviol hcapture hqueues h)); (next => exact (State.answered_only hsums hanswer hviol hcapture hqueues (k4_ _ h))))

theorem State.drawByte_only {cs : Block → Bool} {s t : State} (hdraws : cs .draws = true) (h : OnlyIn cs s t) :
    OnlyIn cs s (State.drawByte t).2 := by
  unfold State.drawByte
  exact (OnlyIn.pairSnd (OnlyIn.setDraws hdraws h))

theorem State.drawBytes_only {cs : Block → Bool} {s t : State} {n} (hdraws : cs .draws = true) (h : OnlyIn cs s t) :
    OnlyIn cs s (t.drawBytes n).2 := by
  induction n generalizing t with
  | zero => exact h
  | succ n ih => exact ih (State.drawByte_only hdraws h)


theorem State.drawNat_only {cs : Block → Bool} {s t : State} (hdraws : cs .draws = true) (h : OnlyIn cs s t) :
    OnlyIn cs s (State.drawNat t).2 := by
  unfold State.drawNat
  exact (OnlyIn.pairSnd (OnlyIn.setDraws hdraws h))

theorem State.elapse_only {cs : Block → Bool} {s t : State} {a1} (hmt : cs .mt = true) (h : OnlyIn cs s t) :
    OnlyIn cs s (State.elapse t a1) := by
  unfold State.elapse
  exact (OnlyIn.ite h (State.arrive_only hmt h))

theorem State.refreshAssume_only {cs : Block → Bool} {s t : State} (hsums : cs .sums = true) (hassume : cs .assume = true) (h : OnlyIn cs s t) :
    OnlyIn cs s (State.refreshAssume t) := by
  unfold State.refreshAssume
  extract_lets +onlyGivenNames -merge -underBinder x0
  (try clear_value x0)
  extract_lets +onlyGivenNames -merge -underBinder x1
  (try clear_value x1)
  extract_lets +onlyGivenNames -merge -underBinder x2
  (try clear_value x2)
  exact (State.bumpIf_only hsums (OnlyIn.setAssume hassume h))

theorem State.replaceCause_only {cs : Block → Bool} {s t : State} {a1 a2} (hstall1 : cs (.stall a1) = true) (h : OnlyIn cs s t) :
    OnlyIn cs s (State.replaceCause t a1 a2) := by
  unfold State.replaceCause
  exact (State.setStall_only (fun _ => ⟨.inr (by rfl), .inr (by rfl), .inl hstall1⟩) h)

theorem State.requestStop_only {cs : Block → Bool} {s t : State} {a1 a2} (hstall1 : cs (.stall a1) = true) (h : OnlyIn cs s t) :
    OnlyIn cs s (State.requestStop t a1 a2) := by
  unfold State.requestStop
  exact (State.setStall_only (fun _ => ⟨.inr (by rfl), .inr (by rfl), .inl hstall1⟩) h)

theorem whenLive_only {cs : Block → Bool} {s t : State} {a0} {a1 : Sys2Proof.Machine.State → Sys2Proof.Machine.State} (hmt : cs .mt = true) (k1_ : ∀ 
      w, OnlyIn cs s w → OnlyIn cs s (a1  w)) (h : OnlyIn cs s t) :
    OnlyIn cs s (whenLive a0 a1 t) := by
  unfold whenLive
  exact (OnlyIn.ite (k1_ _ (State.arrive_only hmt h)) (State.elapse_only hmt h))

theorem whenScanning_only {cs : Block → Bool} {s t : State} {a0} {a1 : Sys2Proof.Machine.State → Sys2Proof.Machine.State} (hmt : cs .mt = true) (k1_ :
      ∀  w, OnlyIn cs s w → OnlyIn cs s (a1  w)) (h : OnlyIn cs s t) :
    OnlyIn cs s (whenScanning a0 a1 t) := by
  unfold whenScanning
  exact (OnlyIn.ite (k1_ _ (State.arrive_only hmt h)) (State.elapse_only hmt h))

theorem State.keyError_only {cs : Block → Bool} {s t : State} {a1} (hsums : cs .sums = true) (hvault : cs .vault = true) (h : OnlyIn cs s t) :
    OnlyIn cs s (State.keyError t a1) := by
  unfold State.keyError
  exact (State.bumpIf_only hsums (OnlyIn.setVault hvault h))

theorem State.putKey_only {cs : Block → Bool} {s t : State} {a1 a2} (hvault : cs .vault = true) (h : OnlyIn cs s t) :
    OnlyIn cs s (State.putKey t a1 a2) := by
  unfold State.putKey
  exact (OnlyIn.setVault hvault h)

theorem State.loadKey_only {cs : Block → Bool} {s t u : State} {k} (hvault : cs .vault = true) (h : OnlyIn cs s t) (e : t.loadKey k = some u) :
    OnlyIn cs s u := by
  unfold State.loadKey at e
  cases hf : t.freeSlot with
  | none => rw [hf] at e; cases e
  | some i => rw [hf] at e; cases e; exact State.putKey_only hvault h


theorem State.findKey_only {cs : Block → Bool} {s t : State} {a1} (hsums : cs .sums = true) (hvault : cs .vault = true) (h : OnlyIn cs s t) :
    OnlyIn cs s (State.findKey t a1).2 := by
  unfold State.findKey
  exact
        (by split; (next => exact (OnlyIn.pairSnd (OnlyIn.setVault hvault h))); (next => exact (by split; (next => exact (OnlyIn.pairSnd (State.keyError_only hsums hvault h))); (next => exact (by split; (next => exact (OnlyIn.pairSnd (State.keyError_only hsums hvault h))); (next => exact (by split; (next e0 => exact (OnlyIn.pairSnd (State.bump_only hsums (State.loadKey_only hvault h e0)))); (next => exact (OnlyIn.pairSnd (State.keyError_only hsums hvault h))))))))))

theorem State.keyRefused_only {cs : Block → Bool} {s t : State} {a1 a2} (hsums : cs .sums = true) (hviol : cs .viol = true) (hcapture : cs .capture =
      true) (hqueues : cs .queues = true) (h : OnlyIn cs s t) :
    OnlyIn cs s (State.keyRefused t a1 a2) := by
  unfold State.keyRefused
  extract_lets +onlyGivenNames -merge -underBinder x0
  (try clear_value x0)
  exact (State.violates_only hsums hviol hcapture hqueues h)

theorem State.noteUse_only {cs : Block → Bool} {s t : State} {a1 a2} (hvault : cs .vault = true) (h : OnlyIn cs s t) :
    OnlyIn cs s (State.noteUse t a1 a2) := by
  unfold State.noteUse
  exact (by split; (next => exact (OnlyIn.setVault hvault h)); (next => exact h))

theorem State.remaskRound_only {cs : Block → Bool} {s t : State} (hmet : cs .met = true) (hvault : cs .vault = true) (h : OnlyIn cs s t) :
    OnlyIn cs s (State.remaskRound t) := by
  unfold State.remaskRound
  extract_lets +onlyGivenNames -merge -underBinder x0
  (try clear_value x0)
  exact (OnlyIn.mk h (.inr (by rfl)) (.inr (by rfl)) (.inr (by rfl)) (.inr (by rfl)) (.inr (by rfl)) (.inr (by rfl)) ⟨.inr (by rfl), .inr (by rfl),
        .inr (by rfl), .inr (by rfl)⟩ (.inr (by rfl)) (.inr (by rfl)) (.inr (by rfl)) (.inr (by rfl)) (.inr (by rfl)) ⟨.inr (by rfl), .inr (by rfl)⟩
        (.inr (by rfl)) (.inr (by rfl)) (.inr (by rfl)) (.inr (by rfl)) (.inr (by rfl)) (.inl hmet) (.inr (by rfl)) ⟨.inr (by rfl), .inr (by rfl)⟩
        (.inr (by rfl)) (.inl hvault) (.inr (by rfl)) ⟨.inr (by rfl), .inr (by rfl)⟩ (.inr (by rfl)))

theorem State.serveUse_only {cs : Block → Bool} {s t : State} {a1 a2} (hsums : cs .sums = true) (hviol : cs .viol = true) (hcapture : cs .capture =
      true) (hvault : cs .vault = true) (hqueues : cs .queues = true) (h : OnlyIn cs s t) :
    OnlyIn cs s (State.serveUse t a1 a2) := by
  unfold State.serveUse
  exact (OnlyIn.ite
        (by extract_lets +onlyGivenNames -merge -underBinder x0; (try clear_value x0); exact (State.violates_only hsums hviol hcapture hqueues h))
        (State.noteUse_only hvault h))

theorem State.useKey_only {cs : Block → Bool} {s t : State} {a1 a2 a3} (hsums : cs .sums = true) (hviol : cs .viol = true) (hcapture : cs .capture =
      true) (hvault : cs .vault = true) (hqueues : cs .queues = true) (h : OnlyIn cs s t) :
    OnlyIn cs s (State.useKey t a1 a2 a3).2 := by
  unfold State.useKey
  extract_lets +onlyGivenNames -merge -underBinder x0
  have hx0 : OnlyIn cs s x0.2 := (State.findKey_only hsums hvault h)
  (try clear_value x0)
  exact
        (by split; (next => exact (OnlyIn.iteSnd (OnlyIn.pairSnd hx0) (OnlyIn.pairSnd (State.keyRefused_only hsums hviol hcapture hqueues hx0)))); (next => exact (OnlyIn.pairSnd hx0)))

theorem State.signatureServed_only {cs : Block → Bool} {s t : State} {a1 a2} (hsums : cs .sums = true) (hviol : cs .viol = true) (hcapture : cs
      .capture = true) (hvault : cs .vault = true) (hqueues : cs .queues = true) (h : OnlyIn cs s t) :
    OnlyIn cs s (State.signatureServed t a1 a2) := by
  unfold State.signatureServed
  extract_lets +onlyGivenNames -merge -underBinder x0
  (try clear_value x0)
  exact (OnlyIn.ite (State.useKey_only hsums hviol hcapture hvault hqueues h) h)

theorem State.sendSeljo_only {cs : Block → Bool} {s t : State} {a1 a2 a3 a4} (hpair : cs .pair = true) (h : OnlyIn cs s t) :
    OnlyIn cs s (State.sendSeljo t a1 a2 a3 a4) := by
  unfold State.sendSeljo
  extract_lets +onlyGivenNames -merge -underBinder x0
  (try clear_value x0)
  exact (OnlyIn.ite (by extract_lets +onlyGivenNames -merge -underBinder x1; exact (OnlyIn.setPair ⟨.inr (by rfl), .inl hpair⟩ h)) h)

theorem State.capArm_only {cs : Block → Bool} {s t : State} (hsums : cs .sums = true) (hcapture : cs .capture = true) (h : OnlyIn cs s t) :
    OnlyIn cs s (State.capArm t) := by
  unfold State.capArm
  exact (State.bumpIf_only hsums (OnlyIn.setStl ⟨.inl hcapture, .inr (by rfl)⟩ h))

theorem State.capStore_only {cs : Block → Bool} {s t : State} {a1} (hstl : cs .stl = true) (h : OnlyIn cs s t) :
    OnlyIn cs s (State.capStore t a1) := by
  unfold State.capStore
  exact (OnlyIn.ite h (OnlyIn.setStl ⟨.inr (by rfl), .inl hstl⟩ h))

theorem State.setLink_only {cs : Block → Bool} {s t : State} {a1 a2} (hlink1 : cs (.link a1) = true) (h : OnlyIn cs s t) :
    OnlyIn cs s (State.setLink t a1 a2) := by
  unfold State.setLink
  exact (State.setStall_only (fun _ => ⟨.inl hlink1, .inr (by rfl), .inr (by rfl)⟩) h)

theorem State.linkAlign_only {cs : Block → Bool} {s t : State} {a1} (hsums : cs .sums = true) (hlink1 : cs (.link a1) = true) (h : OnlyIn cs s t) :
    OnlyIn cs s (State.linkAlign t a1) := by
  unfold State.linkAlign
  exact (State.bump_only hsums (State.setLink_only hlink1 h))

theorem State.linkDown_only {cs : Block → Bool} {s t : State} {a1 a2} (hsums : cs .sums = true) (hlink1 : cs (.link a1) = true) (hstall1 : cs (.stall
      a1) = true) (h : OnlyIn cs s t) :
    OnlyIn cs s (State.linkDown t a1 a2) := by
  unfold State.linkDown
  exact (State.bump_only hsums (State.setStall_only (fun _ => ⟨.inr (by rfl), .inr (by rfl), .inl hstall1⟩) (State.setLink_only hlink1 h)))

theorem State.linkFault_only {cs : Block → Bool} {s t : State} {a1 a2} (hsums : cs .sums = true) (hcapture : cs .capture = true) (hlink1 : cs (.link
      a1) = true) (hqueues : cs .queues = true) (h : OnlyIn cs s t) :
    OnlyIn cs s (State.linkFault t a1 a2) := by
  unfold State.linkFault
  extract_lets +onlyGivenNames -merge -underBinder x0
  (try clear_value x0)
  extract_lets +onlyGivenNames -merge -underBinder x1
  have hx1 : OnlyIn cs s x1 := (State.setLink_only hlink1 h)
  (try clear_value x1)
  exact (OnlyIn.ite (State.bump_only hsums hx1) (State.log_only hsums hcapture hqueues hx1))

theorem State.linkOff_only {cs : Block → Bool} {s t : State} {a1} (hsums : cs .sums = true) (hlink1 : cs (.link a1) = true) (h : OnlyIn cs s t) :
    OnlyIn cs s (State.linkOff t a1) := by
  unfold State.linkOff
  exact (OnlyIn.ite h (State.bump_only hsums (State.setLink_only hlink1 h)))

theorem State.sendMst_only {cs : Block → Bool} {s t : State} {a1} (hlink1 : cs (.link a1) = true) (h : OnlyIn cs s t) :
    OnlyIn cs s (State.sendMst t a1) := by
  unfold State.sendMst
  exact (OnlyIn.ite (State.setLink_only hlink1 h) h)

theorem State.takeReference_only {cs : Block → Bool} {s t : State} {a1 a2} (hstl : cs .stl = true) (hstalls : ∀ i, cs (.stall i) = true) (h : OnlyIn
      cs s t) :
    OnlyIn cs s (State.takeReference t a1 a2) := by
  unfold State.takeReference
  extract_lets +onlyGivenNames -merge -underBinder x0
  (try clear_value x0)
  extract_lets +onlyGivenNames -merge -underBinder x1
  (try clear_value x1)
  extract_lets +onlyGivenNames -merge -underBinder x2 x3
  have hx3 : OnlyIn cs s x3 := (by unfold x3; exact (OnlyIn.ite (OnlyIn.setStl ⟨.inr (by rfl), .inl hstl⟩ h) h))
  (try clear_value x3)
  extract_lets +onlyGivenNames -merge -underBinder x4
  have hx4 : OnlyIn cs s x4 := (State.setStall_only (fun _ => ⟨.inr (by rfl), .inr (by rfl), .inl (hstalls _)⟩) hx3)
  (try clear_value x4)
  exact (OnlyIn.ite (State.forAll_only (fun _ _ k5 => (OnlyIn.ite (State.setStall_only (fun _ => ⟨.inr (by rfl), .inr (by rfl), .inl (hstalls _)⟩) k5)
        k5)) hx4) hx4)

theorem State.linkRun_only {cs : Block → Bool} {s t : State} {a1} (hsums : cs .sums = true) (hstl : cs .stl = true) (hlink1 : cs (.link a1) = true)
      (hstalls : ∀ i, cs (.stall i) = true) (h : OnlyIn cs s t) :
    OnlyIn cs s (State.linkRun t a1) := by
  unfold State.linkRun
  extract_lets +onlyGivenNames -merge -underBinder x0
  (try clear_value x0)
  extract_lets +onlyGivenNames -merge -underBinder x1
  have hx1 : OnlyIn cs s x1 := (State.setLink_only hlink1 h)
  (try clear_value x1)
  exact (State.bump_only hsums (State.sendMst_only hlink1 (State.takeReference_only hstl hstalls hx1)))

theorem State.linkSleep_only {cs : Block → Bool} {s t : State} {a1} (hsums : cs .sums = true) (hlink1 : cs (.link a1) = true) (hstall1 : cs (.stall
      a1) = true) (h : OnlyIn cs s t) :
    OnlyIn cs s (State.linkSleep t a1) := by
  unfold State.linkSleep
  exact (State.bump_only hsums (State.setStall_only (fun _ => ⟨.inr (by rfl), .inr (by rfl), .inl hstall1⟩) (State.setLink_only hlink1 h)))

theorem State.sendConfig_only {cs : Block → Bool} {s t : State} {a1 a2 a3} (hdraws : cs .draws = true) (hlink1 : cs (.link a1) = true) (h : OnlyIn cs
      s t) :
    OnlyIn cs s (State.sendConfig t a1 a2 a3) := by
  unfold State.sendConfig
  extract_lets +onlyGivenNames -merge -underBinder x0
  have hx0 : OnlyIn cs s x0.2 := (State.drawNat_only hdraws h)
  (try clear_value x0)
  extract_lets +onlyGivenNames -merge -underBinder x1
  (try clear_value x1)
  extract_lets +onlyGivenNames -merge -underBinder x2
  (try clear_value x2)
  exact (State.setLink_only hlink1 hx0)

theorem State.linkTrain_only {cs : Block → Bool} {s t : State} {a1} (hdraws : cs .draws = true) (hsums : cs .sums = true) (hlink1 : cs (.link a1) =
      true) (h : OnlyIn cs s t) :
    OnlyIn cs s (State.linkTrain t a1) := by
  unfold State.linkTrain
  extract_lets +onlyGivenNames -merge -underBinder x0
  have hx0 : OnlyIn cs s x0 := (State.setLink_only hlink1 h)
  (try clear_value x0)
  exact (State.bump_only hsums (OnlyIn.ite (State.sendConfig_only hdraws hlink1 hx0) hx0))

theorem State.restartOpen_only {cs : Block → Bool} {s t : State} {a1} (hstall1 : cs (.stall a1) = true) (h : OnlyIn cs s t) :
    OnlyIn cs s (State.restartOpen t a1) := by
  unfold State.restartOpen
  extract_lets +onlyGivenNames -merge -underBinder x0
  exact (OnlyIn.ite
        (by extract_lets +onlyGivenNames -merge -underBinder x1; (try clear_value x1); exact (State.setStall_only (fun _ => ⟨.inr (by rfl), .inr (by rfl), .inl hstall1⟩) h))
        h)

theorem State.retrain_only {cs : Block → Bool} {s t : State} {a1} (hsums : cs .sums = true) (hlink1 : cs (.link a1) = true) (h : OnlyIn cs s t) :
    OnlyIn cs s (State.retrain t a1) := by
  unfold State.retrain
  exact (OnlyIn.ite (State.linkAlign_only hsums hlink1 h) h)

theorem State.sendMstAll_only {cs : Block → Bool} {s t : State} (hlinks : ∀ i, cs (.link i) = true) (h : OnlyIn cs s t) :
    OnlyIn cs s (State.sendMstAll t) := by
  unfold State.sendMstAll
  exact (State.forAll_only (fun _ _ k0 => (State.sendMst_only (hlinks _) k0)) h)

theorem State.stlClear_only {cs : Block → Bool} {s t : State} {a1} (hlink1 : cs (.link a1) = true) (h : OnlyIn cs s t) :
    OnlyIn cs s (State.stlClear t a1) := by
  unfold State.stlClear
  exact (State.setLink_only hlink1 h)

theorem State.takeReply_only {cs : Block → Bool} {s t : State} {a1 a2 a3} (hdraws : cs .draws = true) (hsums : cs .sums = true) (hcapture : cs
      .capture = true) (hstl : cs .stl = true) (hlink1 : cs (.link a1) = true) (hstalls : ∀ i, cs (.stall i) = true) (hqueues : cs .queues = true) (h
      : OnlyIn cs s t) :
    OnlyIn cs s (State.takeReply t a1 a2 a3) := by
  unfold State.takeReply
  extract_lets +onlyGivenNames -merge -underBinder x0
  (try clear_value x0)
  extract_lets +onlyGivenNames -merge -underBinder x1
  have hx1 : OnlyIn cs s x1 := (State.setLink_only hlink1 h)
  (try clear_value x1)
  exact
        (by split; (next => exact (State.linkFault_only hsums hcapture hlink1 hqueues hx1)); (next => exact (OnlyIn.ite (State.restartOpen_only (hstalls _) (State.linkRun_only hsums hstl hlink1 hstalls hx1)) (by extract_lets +onlyGivenNames -merge -underBinder x2; (try clear_value x2); exact (by extract_lets +onlyGivenNames -merge -underBinder x3; (try clear_value x3); exact (by extract_lets +onlyGivenNames -merge -underBinder x4; (try clear_value x4); exact (by extract_lets +onlyGivenNames -merge -underBinder x5; have hx5 : OnlyIn cs s x5 := (State.setLink_only hlink1 hx1); (try clear_value x5); exact (OnlyIn.ite (State.sendConfig_only hdraws hlink1 hx5) (by extract_lets +onlyGivenNames -merge -underBinder x6; (try clear_value x6); exact (by extract_lets +onlyGivenNames -merge -underBinder x7; have hx7 : OnlyIn cs s x7 := (State.setLink_only hlink1 hx5); (try clear_value x7); exact (by split; (next => exact (State.linkFault_only hsums hcapture hlink1 hqueues hx7)); (next => exact (State.sendConfig_only hdraws hlink1 hx7)))))))))))))

theorem State.trySleep_only {cs : Block → Bool} {s t : State} {a1} (hsums : cs .sums = true) (hlink1 : cs (.link a1) = true) (hstall1 : cs (.stall a1)
      = true) (h : OnlyIn cs s t) :
    OnlyIn cs s (State.trySleep t a1) := by
  unfold State.trySleep
  exact (OnlyIn.ite (State.linkSleep_only hsums hlink1 hstall1 h) h)

theorem State.writeCapEn_only {cs : Block → Bool} {s t : State} {a1 a2} (hlink1 : cs (.link a1) = true) (h : OnlyIn cs s t) :
    OnlyIn cs s (State.writeCapEn t a1 a2) := by
  unfold State.writeCapEn
  exact (State.setLink_only hlink1 h)

theorem State.writeSleep_only {cs : Block → Bool} {s t : State} {a1 a2} (hsums : cs .sums = true) (hlink1 : cs (.link a1) = true) (hstall1 : cs
      (.stall a1) = true) (h : OnlyIn cs s t) :
    OnlyIn cs s (State.writeSleep t a1 a2) := by
  unfold State.writeSleep
  extract_lets +onlyGivenNames -merge -underBinder x0
  have hx0 : OnlyIn cs s x0 := (State.setLink_only hlink1 h)
  (try clear_value x0)
  exact (OnlyIn.ite (State.trySleep_only hsums hlink1 hstall1 hx0) (OnlyIn.ite (State.linkAlign_only hsums hlink1 hx0) hx0))

theorem doAlignTimeout_only {cs : Block → Bool} {s t : State} {a0 a1} (hmt : cs .mt = true) (hsums : cs .sums = true) (hcapture : cs .capture = true)
      (hlink1 : cs (.link a1) = true) (hqueues : cs .queues = true) (h : OnlyIn cs s t) :
    OnlyIn cs s (doAlignTimeout a0 a1 t) := by
  unfold doAlignTimeout
  exact (whenLive_only hmt (fun _ k0 => (OnlyIn.ite (State.linkFault_only hsums hcapture hlink1 hqueues k0) k0)) h)

theorem doCapArm_only {cs : Block → Bool} {s t : State} {a0 a1} (hmt : cs .mt = true) (hsums : cs .sums = true) (hanswer : cs .answer = true) (hviol :
      cs .viol = true) (hcapture : cs .capture = true) (hqueues : cs .queues = true) (h : OnlyIn cs s t) :
    OnlyIn cs s (doCapArm a0 a1 t) := by
  unfold doCapArm
  exact (whenLive_only hmt (fun _ k0 => (State.command_only hsums hanswer hviol hcapture hqueues (fun _ k1 => (State.capArm_only hsums hcapture k1))
        k0)) h)

theorem doCapEn_only {cs : Block → Bool} {s t : State} {a0 a1 a2 a3} (hmt : cs .mt = true) (hsums : cs .sums = true) (hanswer : cs .answer = true)
      (hviol : cs .viol = true) (hcapture : cs .capture = true) (hlink2 : cs (.link a2) = true) (hqueues : cs .queues = true) (h : OnlyIn cs s t) :
    OnlyIn cs s (doCapEn a0 a1 a2 a3 t) := by
  unfold doCapEn
  exact (whenLive_only hmt (fun _ k0 => (State.command_only hsums hanswer hviol hcapture hqueues (fun _ k1 => (State.writeCapEn_only hlink2 k1)) k0))
        h)

theorem doCapTrig_only {cs : Block → Bool} {s t : State} {a0 a1} (hmt : cs .mt = true) (hsums : cs .sums = true) (hanswer : cs .answer = true) (hviol
      : cs .viol = true) (hcapture : cs .capture = true) (hqueues : cs .queues = true) (h : OnlyIn cs s t) :
    OnlyIn cs s (doCapTrig a0 a1 t) := by
  unfold doCapTrig
  exact (whenLive_only hmt (fun _ k0 => (State.command_only hsums hanswer hviol hcapture hqueues (fun _ k1 => (State.capFreeze_only hsums hcapture
        hqueues k1)) k0)) h)

theorem doCaptureFrame_only {cs : Block → Bool} {s t : State} {a0 a1 a2 a3 a4} (hmt : cs .mt = true) (hstl : cs .stl = true) (hlink1 : cs (.link a1) =
      true) (h : OnlyIn cs s t) :
    OnlyIn cs s (doCaptureFrame a0 a1 a2 a3 a4 t) := by
  unfold doCaptureFrame
  exact (whenLive_only hmt (fun _ k0 => (OnlyIn.ite (State.setLink_only hlink1 k0) (OnlyIn.ite (State.capStore_only hstl k0) k0))) h)

theorem doLinkAligned_only {cs : Block → Bool} {s t : State} {a0 a1} (hmt : cs .mt = true) (hdraws : cs .draws = true) (hsums : cs .sums = true)
      (hlink1 : cs (.link a1) = true) (h : OnlyIn cs s t) :
    OnlyIn cs s (doLinkAligned a0 a1 t) := by
  unfold doLinkAligned
  exact (whenLive_only hmt (fun _ k0 => (OnlyIn.ite (State.linkTrain_only hdraws hsums hlink1 k0) k0)) h)

theorem doLinkDownCode_only {cs : Block → Bool} {s t : State} {a0 a1} (hmt : cs .mt = true) (hsums : cs .sums = true) (hlink1 : cs (.link a1) = true)
      (hstall1 : cs (.stall a1) = true) (h : OnlyIn cs s t) :
    OnlyIn cs s (doLinkDownCode a0 a1 t) := by
  unfold doLinkDownCode
  exact (whenLive_only hmt (fun _ k0 => (OnlyIn.ite (State.linkDown_only hsums hlink1 hstall1 k0) k0)) h)

theorem doLinkDownSilent_only {cs : Block → Bool} {s t : State} {a0 a1} (hmt : cs .mt = true) (hsums : cs .sums = true) (hlink1 : cs (.link a1) =
      true) (hstall1 : cs (.stall a1) = true) (h : OnlyIn cs s t) :
    OnlyIn cs s (doLinkDownSilent a0 a1 t) := by
  unfold doLinkDownSilent
  exact (whenLive_only hmt (fun _ k0 => (OnlyIn.ite (State.linkDown_only hsums hlink1 hstall1 k0) k0)) h)

theorem doLinkFaultRetry_only {cs : Block → Bool} {s t : State} {a0 a1} (hmt : cs .mt = true) (hsums : cs .sums = true) (hlink1 : cs (.link a1) =
      true) (h : OnlyIn cs s t) :
    OnlyIn cs s (doLinkFaultRetry a0 a1 t) := by
  unfold doLinkFaultRetry
  exact (whenLive_only hmt (fun _ k0 => (OnlyIn.ite (State.linkAlign_only hsums hlink1 k0) k0)) h)

theorem doRetrain_only {cs : Block → Bool} {s t : State} {a0 a1 a2} (hmt : cs .mt = true) (hsums : cs .sums = true) (hanswer : cs .answer = true)
      (hviol : cs .viol = true) (hcapture : cs .capture = true) (hlink2 : cs (.link a2) = true) (hqueues : cs .queues = true) (h : OnlyIn cs s t) :
    OnlyIn cs s (doRetrain a0 a1 a2 t) := by
  unfold doRetrain
  exact (whenLive_only hmt (fun _ k0 => (State.command_only hsums hanswer hviol hcapture hqueues (fun _ k1 => (State.retrain_only hsums hlink2 k1))
        k0)) h)

theorem doSleepReq_only {cs : Block → Bool} {s t : State} {a0 a1 a2 a3} (hmt : cs .mt = true) (hsums : cs .sums = true) (hanswer : cs .answer = true)
      (hviol : cs .viol = true) (hcapture : cs .capture = true) (hlink2 : cs (.link a2) = true) (hstall2 : cs (.stall a2) = true) (hqueues : cs
      .queues = true) (h : OnlyIn cs s t) :
    OnlyIn cs s (doSleepReq a0 a1 a2 a3 t) := by
  unfold doSleepReq
  exact (whenLive_only hmt (fun _ k0 => (State.command_only hsums hanswer hviol hcapture hqueues (fun _ k1 => (State.writeSleep_only hsums hlink2
        hstall2 k1)) k0)) h)

theorem doStlClrCnt_only {cs : Block → Bool} {s t : State} {a0 a1 a2} (hmt : cs .mt = true) (hsums : cs .sums = true) (hanswer : cs .answer = true)
      (hviol : cs .viol = true) (hcapture : cs .capture = true) (hlink2 : cs (.link a2) = true) (hqueues : cs .queues = true) (h : OnlyIn cs s t) :
    OnlyIn cs s (doStlClrCnt a0 a1 a2 t) := by
  unfold doStlClrCnt
  exact (whenLive_only hmt (fun _ k0 => (State.command_only hsums hanswer hviol hcapture hqueues (fun _ k1 => (State.stlClear_only hlink2 k1)) k0)) h)

theorem doTrainTimeout_only {cs : Block → Bool} {s t : State} {a0 a1} (hmt : cs .mt = true) (hsums : cs .sums = true) (hcapture : cs .capture = true)
      (hlink1 : cs (.link a1) = true) (hqueues : cs .queues = true) (h : OnlyIn cs s t) :
    OnlyIn cs s (doTrainTimeout a0 a1 t) := by
  unfold doTrainTimeout
  exact (whenLive_only hmt (fun _ k0 => (OnlyIn.ite (State.linkFault_only hsums hcapture hlink1 hqueues k0) k0)) h)

theorem doTrainingReply_only {cs : Block → Bool} {s t : State} {a0 a1 a2 a3 a4} (hmt : cs .mt = true) (hdraws : cs .draws = true) (hsums : cs .sums =
      true) (hcapture : cs .capture = true) (hstl : cs .stl = true) (hlink1 : cs (.link a1) = true) (hstalls : ∀ i, cs (.stall i) = true) (hqueues :
      cs .queues = true) (h : OnlyIn cs s t) :
    OnlyIn cs s (doTrainingReply a0 a1 a2 a3 a4 t) := by
  unfold doTrainingReply
  exact (whenLive_only hmt (fun _ k0 => (OnlyIn.ite (State.setLink_only hlink1 k0)
        (by extract_lets +onlyGivenNames -merge -underBinder x1; (try clear_value x1); exact (by extract_lets +onlyGivenNames -merge -underBinder x2; (try clear_value x2); exact (OnlyIn.ite (State.takeReply_only hdraws hsums hcapture hstl hlink1 hstalls hqueues k0) k0)))))
        h)

theorem State.becomeIdle_only {cs : Block → Bool} {s t : State} {a1} (hsums : cs .sums = true) (hstall1 : cs (.stall a1) = true) (h : OnlyIn cs s t) :
    OnlyIn cs s (State.becomeIdle t a1) := by
  unfold State.becomeIdle
  exact (State.bump_only hsums (State.setStall_only (fun _ => ⟨.inr (by rfl), .inr (by rfl), .inl hstall1⟩) h))

theorem State.clearFb_only {cs : Block → Bool} {s t : State} {a1} (hstall1 : cs (.stall a1) = true) (h : OnlyIn cs s t) :
    OnlyIn cs s (State.clearFb t a1) := by
  unfold State.clearFb
  exact (State.setStall_only (fun _ => ⟨.inr (by rfl), .inr (by rfl), .inl hstall1⟩) h)

theorem State.coastPitch_only {cs : Block → Bool} {s t : State} {a1 a2} (hsums : cs .sums = true) (hcapture : cs .capture = true) (hstall1 : cs
      (.stall a1) = true) (hqueues : cs .queues = true) (h : OnlyIn cs s t) :
    OnlyIn cs s (State.coastPitch t a1 a2) := by
  unfold State.coastPitch
  exact (OnlyIn.ite (State.capFreeze_only hsums hcapture hqueues (State.setStall_only (fun _ => ⟨.inr (by rfl), .inr (by rfl), .inl hstall1⟩) h))
        (State.capFreeze_only hsums hcapture hqueues (State.bump_only hsums (State.requestStop_only hstall1 (State.setStall_only (fun _ => ⟨.inr
        (by rfl), .inr (by rfl), .inl hstall1⟩) h)))))

theorem State.countStop_only {cs : Block → Bool} {s t : State} {a1 a2} (hsums : cs .sums = true) (hstall1 : cs (.stall a1) = true) (h : OnlyIn cs s t)
      :
    OnlyIn cs s (State.countStop t a1 a2) := by
  unfold State.countStop
  exact (State.bump_only hsums (State.setStall_only (fun _ => ⟨.inr (by rfl), .inr (by rfl), .inl hstall1⟩) h))

theorem State.setMove_only {cs : Block → Bool} {s t : State} {a1 a2} (hmkt : cs .mkt = true) (h : OnlyIn cs s t) :
    OnlyIn cs s (State.setMove t a1 a2) := by
  unfold State.setMove
  exact (OnlyIn.setMkt hmkt h)

theorem State.freeMove_only {cs : Block → Bool} {s t : State} {a1 a2} (hsums : cs .sums = true) (hmkt : cs .mkt = true) (h : OnlyIn cs s t) :
    OnlyIn cs s (State.freeMove t a1 a2) := by
  unfold State.freeMove
  extract_lets +onlyGivenNames -merge -underBinder x0
  have hx0 : OnlyIn cs s x0 := (State.setMove_only hmkt h)
  (try clear_value x0)
  exact (State.bump_only hsums (OnlyIn.ite (OnlyIn.setMkt hmkt hx0) hx0))

theorem State.endMoveOf_only {cs : Block → Bool} {s t : State} {a1} (hsums : cs .sums = true) (hmkt : cs .mkt = true) (h : OnlyIn cs s t) :
    OnlyIn cs s (State.endMoveOf t a1) := by
  unfold State.endMoveOf
  exact (by split; (next => exact (State.freeMove_only hsums hmkt h)); (next => exact h))

theorem State.enterStopped_only {cs : Block → Bool} {s t : State} {a1} (hsums : cs .sums = true) (hstall1 : cs (.stall a1) = true) (h : OnlyIn cs s t)
      :
    OnlyIn cs s (State.enterStopped t a1) := by
  unfold State.enterStopped
  exact (State.bump_only hsums (State.setStall_only (fun _ => ⟨.inr (by rfl), .inr (by rfl), .inl hstall1⟩) h))

theorem State.failClose_only {cs : Block → Bool} {s t : State} {a1} (hsums : cs .sums = true) (hcapture : cs .capture = true) (hstalls : ∀ i, cs
      (.stall i) = true) (hmkt : cs .mkt = true) (hqueues : cs .queues = true) (h : OnlyIn cs s t) :
    OnlyIn cs s (State.failClose t a1) := by
  unfold State.failClose
  extract_lets +onlyGivenNames -merge -underBinder x0
  (try clear_value x0)
  exact
        (by split <;> first | exact (by extract_lets +onlyGivenNames -merge -underBinder x1; (try clear_value x1); exact (by extract_lets +onlyGivenNames -merge -underBinder x2; have hx2 : OnlyIn cs s x2 := (State.setMove_only hmkt h); (try clear_value x2); exact (by extract_lets +onlyGivenNames -merge -underBinder x3; have hx3 : OnlyIn cs s x3 := (State.setStall_only (fun _ => ⟨.inr (by rfl), .inr (by rfl), .inl (hstalls _)⟩) hx2); (try clear_value x3); exact (by extract_lets +onlyGivenNames -merge -underBinder x4 x5; have hx5 : OnlyIn cs s x5 := (OnlyIn.setMkt hmkt hx3); (try clear_value x4); (try clear_value x5); exact (State.log_only hsums hcapture hqueues hx5))))) | exact h)

theorem State.lockStall_only {cs : Block → Bool} {s t : State} {a1 a2} (hsums : cs .sums = true) (hcapture : cs .capture = true) (hstall1 : cs (.stall
      a1) = true) (hqueues : cs .queues = true) (h : OnlyIn cs s t) :
    OnlyIn cs s (State.lockStall t a1 a2) := by
  unfold State.lockStall
  extract_lets +onlyGivenNames -merge -underBinder x0
  have hx0 : OnlyIn cs s x0 := (State.setStall_only (fun _ => ⟨.inr (by rfl), .inr (by rfl), .inl hstall1⟩) h)
  (try clear_value x0)
  exact (State.log_only hsums hcapture hqueues hx0)

theorem State.expireMove_only {cs : Block → Bool} {s t : State} {a1} (hsums : cs .sums = true) (hcapture : cs .capture = true) (hstalls : ∀ i, cs
      (.stall i) = true) (hmkt : cs .mkt = true) (hqueues : cs .queues = true) (h : OnlyIn cs s t) :
    OnlyIn cs s (State.expireMove t a1) := by
  unfold State.expireMove
  extract_lets +onlyGivenNames -merge -underBinder x0
  (try clear_value x0)
  exact
        (by split <;> first | exact (OnlyIn.ite h (by split; (next => exact (State.failClose_only hsums hcapture hstalls hmkt hqueues h)); (next => exact (State.lockStall_only hsums hcapture (hstalls _) hqueues (State.freeMove_only hsums hmkt h))); (next => exact h))) | exact h)

theorem State.expireStop_only {cs : Block → Bool} {s t : State} {a1} (hsums : cs .sums = true) (hcapture : cs .capture = true) (hstall1 : cs (.stall
      a1) = true) (hqueues : cs .queues = true) (h : OnlyIn cs s t) :
    OnlyIn cs s (State.expireStop t a1) := by
  unfold State.expireStop
  exact (by split; (next => exact (OnlyIn.ite (State.lockStall_only hsums hcapture hstall1 hqueues h) h)); (next => exact h))

theorem State.expireSteps_only {cs : Block → Bool} {s t : State} {a1} (hsums : cs .sums = true) (hcapture : cs .capture = true) (hstalls : ∀ i, cs
      (.stall i) = true) (hmkt : cs .mkt = true) (hqueues : cs .queues = true) (h : OnlyIn cs s t) :
    OnlyIn cs s (State.expireSteps t a1) := by
  unfold State.expireSteps
  exact
        (by split; (next => exact (State.expireMove_only hsums hcapture hstalls hmkt hqueues h)); (next => exact (State.expireStop_only hsums hcapture (hstalls _) hqueues h)))

theorem State.mapCells_only {cs : Block → Bool} {s t : State} {a1 a2} (hstall1 : cs (.stall a1) = true) (h : OnlyIn cs s t) :
    OnlyIn cs s (State.mapCells t a1 a2) := by
  unfold State.mapCells
  exact (State.setStall_only (fun _ => ⟨.inr (by rfl), .inr (by rfl), .inl hstall1⟩) h)

theorem State.fastPath_only {cs : Block → Bool} {s t : State} {a1 a2} (hsums : cs .sums = true) (hstall1 : cs (.stall a1) = true) (hmkt : cs .mkt =
      true) (h : OnlyIn cs s t) :
    OnlyIn cs s (State.fastPath t a1 a2) := by
  unfold State.fastPath
  extract_lets +onlyGivenNames -merge -underBinder x0
  exact (OnlyIn.ite
        (by extract_lets +onlyGivenNames -merge -underBinder x1; have hx1 : OnlyIn cs s x1 := (State.mapCells_only hstall1 (State.endMoveOf_only hsums hmkt h)); (try clear_value x1); exact (State.countStop_only hsums hstall1 (State.setStall_only (fun _ => ⟨.inr (by rfl), .inr (by rfl), .inl hstall1⟩) hx1)))
        (OnlyIn.ite
        (by extract_lets +onlyGivenNames -merge -underBinder x2; have hx2 : OnlyIn cs s x2 := (State.mapCells_only hstall1 h); (try clear_value x2); exact (State.setStall_only (fun _ => ⟨.inr (by rfl), .inr (by rfl), .inl hstall1⟩) hx2))
        h))

theorem State.gateWhenOut_only {cs : Block → Bool} {s t : State} {a1} (hstall1 : cs (.stall a1) = true) (h : OnlyIn cs s t) :
    OnlyIn cs s (State.gateWhenOut t a1) := by
  unfold State.gateWhenOut
  extract_lets +onlyGivenNames -merge -underBinder x0
  exact (OnlyIn.ite (State.setStall_only (fun _ => ⟨.inr (by rfl), .inr (by rfl), .inl hstall1⟩) h) h)

theorem State.loseSample_only {cs : Block → Bool} {s t : State} {a1 a2} (hsums : cs .sums = true) (hcapture : cs .capture = true) (hlink1 : cs (.link
      a1) = true) (hsample1 : cs (.sample a1) = true) (hstall1 : cs (.stall a1) = true) (hqueues : cs .queues = true) (h : OnlyIn cs s t) :
    OnlyIn cs s (State.loseSample t a1 a2) := by
  unfold State.loseSample
  extract_lets +onlyGivenNames -merge -underBinder x0
  have hx0 : OnlyIn cs s x0 := (State.setStall_only (fun _ => ⟨.inl hlink1, .inl hsample1, .inl hstall1⟩) h)
  (try clear_value x0)
  exact (State.coastPitch_only hsums hcapture hstall1 hqueues hx0)

theorem State.missOwn_only {cs : Block → Bool} {s t : State} {a1 a2} (hlink1 : cs (.link a1) = true) (h : OnlyIn cs s t) :
    OnlyIn cs s (State.missOwn t a1 a2) := by
  unfold State.missOwn
  extract_lets +onlyGivenNames -merge -underBinder x0
  (try clear_value x0)
  extract_lets +onlyGivenNames -merge -underBinder x1
  (try clear_value x1)
  exact (OnlyIn.ite h (State.setLink_only hlink1 h))

theorem State.moveRampDone_only {cs : Block → Bool} {s t : State} {a1} (hsums : cs .sums = true) (hstall1 : cs (.stall a1) = true) (hmkt : cs .mkt =
      true) (h : OnlyIn cs s t) :
    OnlyIn cs s (State.moveRampDone t a1) := by
  unfold State.moveRampDone
  exact
        (by split; (next => exact h); (next => exact (by extract_lets +onlyGivenNames -merge -underBinder x0; (try clear_value x0); exact (OnlyIn.ite (State.setStall_only (fun _ => ⟨.inr (by rfl), .inr (by rfl), .inl hstall1⟩) (State.setMove_only hmkt h)) (OnlyIn.ite (State.freeMove_only hsums hmkt h) h)))))

theorem State.moveFeedback_only {cs : Block → Bool} {s t : State} {a1 a2 a3} (hsums : cs .sums = true) (hcapture : cs .capture = true) (hstalls : ∀ i,
      cs (.stall i) = true) (hmkt : cs .mkt = true) (hqueues : cs .queues = true) (h : OnlyIn cs s t) :
    OnlyIn cs s (State.moveFeedback t a1 a2 a3) := by
  unfold State.moveFeedback
  extract_lets +onlyGivenNames -merge -underBinder x0
  (try clear_value x0)
  exact
        (by split; (next => exact (OnlyIn.ite (by split; (next => exact (by extract_lets +onlyGivenNames -merge -underBinder x1; have hx1 : OnlyIn cs s x1 := (State.setStall_only (fun _ => ⟨.inr (by rfl), .inr (by rfl), .inl (hstalls _)⟩) (State.becomeIdle_only hsums (hstalls _) h)); (try clear_value x1); exact (State.setMove_only hmkt hx1))); (next => exact (State.freeMove_only hsums hmkt (State.becomeIdle_only hsums (hstalls _) h)))) (OnlyIn.ite (State.lockStall_only hsums hcapture (hstalls _) hqueues (State.freeMove_only hsums hmkt h)) h))); (next => exact (OnlyIn.ite (by split; (next => exact (by extract_lets +onlyGivenNames -merge -underBinder x2; (try clear_value x2); exact (by extract_lets +onlyGivenNames -merge -underBinder x3; have hx3 : OnlyIn cs s x3 := (State.bump_only hsums (State.setStall_only (fun _ => ⟨.inr (by rfl), .inr (by rfl), .inl (hstalls _)⟩) h)); (try clear_value x3); exact (by extract_lets +onlyGivenNames -merge -underBinder x4; have hx4 : OnlyIn cs s x4 := (State.mapCells_only (hstalls _) hx3); (try clear_value x4); exact (State.moveRampDone_only hsums (hstalls _) hmkt (State.setMove_only hmkt hx4)))))); (next => exact h)) (OnlyIn.ite h (State.failClose_only hsums hcapture hstalls hmkt hqueues h)))); (next => exact h))

theorem State.recover_only {cs : Block → Bool} {s t : State} {a1} (hsums : cs .sums = true) (hstall1 : cs (.stall a1) = true) (h : OnlyIn cs s t) :
    OnlyIn cs s (State.recover t a1) := by
  unfold State.recover
  exact (OnlyIn.ite (State.bump_only hsums (State.setStall_only (fun _ => ⟨.inr (by rfl), .inr (by rfl), .inl hstall1⟩) h)) h)

theorem State.releaseStall_only {cs : Block → Bool} {s t : State} {a1} (hsums : cs .sums = true) (hstall1 : cs (.stall a1) = true) (h : OnlyIn cs s t)
      :
    OnlyIn cs s (State.releaseStall t a1) := by
  unfold State.releaseStall
  exact (OnlyIn.ite (State.bump_only hsums (State.setStall_only (fun _ => ⟨.inr (by rfl), .inr (by rfl), .inl hstall1⟩) h)) h)

theorem State.setCell_only {cs : Block → Bool} {s t : State} {a1 a2 a3} (hstall1 : cs (.stall a1) = true) (h : OnlyIn cs s t) :
    OnlyIn cs s (State.setCell t a1 a2 a3) := by
  unfold State.setCell
  exact (State.setStall_only (fun _ => ⟨.inr (by rfl), .inr (by rfl), .inl hstall1⟩) h)

theorem State.stallFeedback_only {cs : Block → Bool} {s t : State} {a1 a2} (hsums : cs .sums = true) (hcapture : cs .capture = true) (hstalls : ∀ i,
      cs (.stall i) = true) (hmkt : cs .mkt = true) (hqueues : cs .queues = true) (h : OnlyIn cs s t) :
    OnlyIn cs s (State.stallFeedback t a1 a2) := by
  unfold State.stallFeedback
  extract_lets +onlyGivenNames -merge -underBinder x0
  have hx0 : OnlyIn cs s x0 := (State.expireSteps_only hsums hcapture hstalls hmkt hqueues h)
  (try clear_value x0)
  extract_lets +onlyGivenNames -merge -underBinder x1
  exact (OnlyIn.ite
        (by extract_lets +onlyGivenNames -merge -underBinder x2; have hx2 : OnlyIn cs s x2 := (State.setStall_only (fun _ => ⟨.inr (by rfl), .inr (by rfl), .inl (hstalls _)⟩) hx0); (try clear_value x2); exact (OnlyIn.ite hx2 (State.lockStall_only hsums hcapture (hstalls _) hqueues hx2)))
        (by split; (next => exact (State.moveFeedback_only hsums hcapture hstalls hmkt hqueues hx0)); (next => exact (OnlyIn.ite (State.enterStopped_only hsums (hstalls _) hx0) hx0))))

theorem State.takeStop_only {cs : Block → Bool} {s t : State} {a1} (hsums : cs .sums = true) (hstall1 : cs (.stall a1) = true) (hmkt : cs .mkt = true)
      (h : OnlyIn cs s t) :
    OnlyIn cs s (State.takeStop t a1) := by
  unfold State.takeStop
  exact
        (by split; (next => exact h); (next => exact (by extract_lets +onlyGivenNames -merge -underBinder x0; have hx0 : OnlyIn cs s x0 := (State.setStall_only (fun _ => ⟨.inr (by rfl), .inr (by rfl), .inl hstall1⟩) h); (try clear_value x0); exact (by split; (next => exact (by extract_lets +onlyGivenNames -merge -underBinder x1; (try clear_value x1); exact (by extract_lets +onlyGivenNames -merge -underBinder x2; have hx2 : OnlyIn cs s x2 := (State.mapCells_only hstall1 (State.endMoveOf_only hsums hmkt hx0)); (try clear_value x2); exact (State.gateWhenOut_only hstall1 (State.countStop_only hsums hstall1 hx2))))); (next => exact (OnlyIn.ite (State.countStop_only hsums hstall1 (State.setStall_only (fun _ => ⟨.inr (by rfl), .inr (by rfl), .inl hstall1⟩) (State.endMoveOf_only hsums hmkt hx0))) (by extract_lets +onlyGivenNames -merge -underBinder x3; have hx3 : OnlyIn cs s x3 := (State.setStall_only (fun _ => ⟨.inr (by rfl), .inr (by rfl), .inl hstall1⟩) hx0); (try clear_value x3); exact (State.enterStopped_only hsums hstall1 hx3)))); (next => exact hx0)))))

theorem doCellRampEnd_only {cs : Block → Bool} {s t : State} {a0 a1 a2} (hmt : cs .mt = true) (hsums : cs .sums = true) (hstall1 : cs (.stall a1) =
      true) (hmkt : cs .mkt = true) (h : OnlyIn cs s t) :
    OnlyIn cs s (doCellRampEnd a0 a1 a2 t) := by
  unfold doCellRampEnd
  exact (whenLive_only hmt (fun _ k0 => (OnlyIn.ite (State.moveRampDone_only hsums hstall1 hmkt (State.gateWhenOut_only hstall1 (State.bump_only hsums
        (State.setCell_only hstall1 k0)))) k0)) h)

theorem doClrFb_only {cs : Block → Bool} {s t : State} {a0 a1 a2} (hmt : cs .mt = true) (hsums : cs .sums = true) (hanswer : cs .answer = true) (hviol
      : cs .viol = true) (hcapture : cs .capture = true) (hstall2 : cs (.stall a2) = true) (hqueues : cs .queues = true) (h : OnlyIn cs s t) :
    OnlyIn cs s (doClrFb a0 a1 a2 t) := by
  unfold doClrFb
  exact (whenLive_only hmt (fun _ k0 => (State.command_only hsums hanswer hviol hcapture hqueues (fun _ k1 => (State.clearFb_only hstall2 k1)) k0)) h)

theorem doCoastExhausted_only {cs : Block → Bool} {s t : State} {a0 a1} (hmt : cs .mt = true) (hsums : cs .sums = true) (hcapture : cs .capture =
      true) (hstall1 : cs (.stall a1) = true) (hmkt : cs .mkt = true) (hqueues : cs .queues = true) (h : OnlyIn cs s t) :
    OnlyIn cs s (doCoastExhausted a0 a1 t) := by
  unfold doCoastExhausted
  exact (whenLive_only hmt (fun _ k0 =>
        (by extract_lets +onlyGivenNames -merge -underBinder x1; exact (OnlyIn.ite (by extract_lets +onlyGivenNames -merge -underBinder x2; have hx2 : OnlyIn cs s x2 := (State.setStall_only (fun _ => ⟨.inr (by rfl), .inr (by rfl), .inl hstall1⟩) k0); (try clear_value x2); exact (by extract_lets +onlyGivenNames -merge -underBinder x3; have hx3 : OnlyIn cs s x3 := (State.log_only hsums hcapture hqueues (State.fastPath_only hsums hstall1 hmkt (State.replaceCause_only hstall1 hx2))); (try clear_value x3); exact (State.capFreeze_only hsums hcapture hqueues hx3))) k0)))
        h)

theorem doMoveCloseTimeout_only {cs : Block → Bool} {s t : State} {a0 a1} (hmt : cs .mt = true) (hsums : cs .sums = true) (hcapture : cs .capture =
      true) (hstalls : ∀ i, cs (.stall i) = true) (hmkt : cs .mkt = true) (hqueues : cs .queues = true) (h : OnlyIn cs s t) :
    OnlyIn cs s (doMoveCloseTimeout a0 a1 t) := by
  unfold doMoveCloseTimeout
  exact (whenLive_only hmt (fun _ k0 =>
        (by extract_lets +onlyGivenNames -merge -underBinder x1; (try clear_value x1); exact (by split; (next => exact (OnlyIn.ite (State.failClose_only hsums hcapture hstalls hmkt hqueues k0) k0)); (next => exact k0))))
        h)

theorem doMoveOpenTimeout_only {cs : Block → Bool} {s t : State} {a0 a1} (hmt : cs .mt = true) (hsums : cs .sums = true) (hcapture : cs .capture =
      true) (hstalls : ∀ i, cs (.stall i) = true) (hmkt : cs .mkt = true) (hqueues : cs .queues = true) (h : OnlyIn cs s t) :
    OnlyIn cs s (doMoveOpenTimeout a0 a1 t) := by
  unfold doMoveOpenTimeout
  exact (whenLive_only hmt (fun _ k0 =>
        (by extract_lets +onlyGivenNames -merge -underBinder x1; (try clear_value x1); exact (by split <;> first | exact (OnlyIn.ite (State.lockStall_only hsums hcapture (hstalls _) hqueues (State.freeMove_only hsums hmkt k0)) k0) | exact k0)))
        h)

theorem doRearmLimit_only {cs : Block → Bool} {s t : State} {a0 a1} (hmt : cs .mt = true) (hstall1 : cs (.stall a1) = true) (h : OnlyIn cs s t) :
    OnlyIn cs s (doRearmLimit a0 a1 t) := by
  unfold doRearmLimit
  exact (whenLive_only hmt (fun _ k0 =>
        (by extract_lets +onlyGivenNames -merge -underBinder x1; exact (OnlyIn.ite (State.requestStop_only hstall1 k0) k0))) h)

theorem doRestElapsed_only {cs : Block → Bool} {s t : State} {a0 a1} (hmt : cs .mt = true) (hsums : cs .sums = true) (hcapture : cs .capture = true)
      (hlink1 : cs (.link a1) = true) (hstall1 : cs (.stall a1) = true) (hqueues : cs .queues = true) (h : OnlyIn cs s t) :
    OnlyIn cs s (doRestElapsed a0 a1 t) := by
  unfold doRestElapsed
  exact (whenLive_only hmt (fun _ k0 =>
        (by extract_lets +onlyGivenNames -merge -underBinder x1; exact (OnlyIn.ite (OnlyIn.ite (State.lockStall_only hsums hcapture hstall1 hqueues k0) (State.trySleep_only hsums hlink1 hstall1 (State.becomeIdle_only hsums hstall1 k0))) k0)))
        h)

theorem doSampleLost_only {cs : Block → Bool} {s t : State} {a0 a1} (hmt : cs .mt = true) (hsums : cs .sums = true) (hcapture : cs .capture = true)
      (hlink1 : cs (.link a1) = true) (hsample1 : cs (.sample a1) = true) (hstall1 : cs (.stall a1) = true) (hqueues : cs .queues = true) (h : OnlyIn
      cs s t) :
    OnlyIn cs s (doSampleLost a0 a1 t) := by
  unfold doSampleLost
  exact (whenLive_only hmt (fun _ k0 =>
        (by extract_lets +onlyGivenNames -merge -underBinder x1; (try clear_value x1); exact (OnlyIn.ite (OnlyIn.ite (OnlyIn.ite (State.missOwn_only hlink1 k0) k0) (OnlyIn.ite (OnlyIn.ite (State.missOwn_only hlink1 k0) k0) (OnlyIn.ite (State.loseSample_only hsums hcapture hlink1 hsample1 hstall1 hqueues k0) k0))) k0)))
        h)

theorem doShedDecision_only {cs : Block → Bool} {s t : State} {a0 a1} (hmt : cs .mt = true) (hsums : cs .sums = true) (hstalls : ∀ i, cs (.stall i) =
      true) (hmkt : cs .mkt = true) (h : OnlyIn cs s t) :
    OnlyIn cs s (doShedDecision a0 a1 t) := by
  unfold doShedDecision
  exact (whenLive_only hmt (fun _ k0 => (OnlyIn.ite
        (by split; (next => exact (by extract_lets +onlyGivenNames -merge -underBinder x1; (try clear_value x1); exact (by extract_lets +onlyGivenNames -merge -underBinder x2; have hx2 : OnlyIn cs s x2 := (State.setCell_only (hstalls _) k0); (try clear_value x2); exact (State.bump_only hsums (OnlyIn.setMkt hmkt hx2))))); (next => exact k0))
        k0)) h)

theorem doStallRelease_only {cs : Block → Bool} {s t : State} {a0 a1 a2} (hmt : cs .mt = true) (hsums : cs .sums = true) (hanswer : cs .answer = true)
      (hviol : cs .viol = true) (hcapture : cs .capture = true) (hstall2 : cs (.stall a2) = true) (hqueues : cs .queues = true) (h : OnlyIn cs s t) :
    OnlyIn cs s (doStallRelease a0 a1 a2 t) := by
  unfold doStallRelease
  exact (whenLive_only hmt (fun _ k0 => (State.command_only hsums hanswer hviol hcapture hqueues (fun _ k1 => (State.releaseStall_only hsums hstall2
        k1)) k0)) h)

theorem doStopOpenTimeout_only {cs : Block → Bool} {s t : State} {a0 a1} (hmt : cs .mt = true) (hsums : cs .sums = true) (hcapture : cs .capture =
      true) (hstall1 : cs (.stall a1) = true) (hqueues : cs .queues = true) (h : OnlyIn cs s t) :
    OnlyIn cs s (doStopOpenTimeout a0 a1 t) := by
  unfold doStopOpenTimeout
  exact (whenLive_only hmt (fun _ k0 =>
        (by split; (next => exact (OnlyIn.ite (State.lockStall_only hsums hcapture hstall1 hqueues k0) k0)); (next => exact k0))) h)

theorem State.setSo_only {cs : Block → Bool} {s t : State} {a1 a2} (hsaf : cs .saf = true) (h : OnlyIn cs s t) :
    OnlyIn cs s (State.setSo t a1 a2) := by
  unfold State.setSo
  exact (OnlyIn.setSaf hsaf h)

theorem State.soOff_only {cs : Block → Bool} {s t : State} {a1} (hsums : cs .sums = true) (hsaf : cs .saf = true) (h : OnlyIn cs s t) :
    OnlyIn cs s (State.soOff t a1) := by
  unfold State.soOff
  extract_lets +onlyGivenNames -merge -underBinder x0
  (try clear_value x0)
  extract_lets +onlyGivenNames -merge -underBinder x1
  (try clear_value x1)
  extract_lets +onlyGivenNames -merge -underBinder x2
  (try clear_value x2)
  extract_lets +onlyGivenNames -merge -underBinder x3
  have hx3 : OnlyIn cs s x3 := (State.setSo_only hsaf h)
  (try clear_value x3)
  exact (State.bumpIf_only hsums hx3)

theorem State.allOff_only {cs : Block → Bool} {s t : State} (hsums : cs .sums = true) (hsaf : cs .saf = true) (h : OnlyIn cs s t) :
    OnlyIn cs s (State.allOff t) := by
  unfold State.allOff
  exact (State.forAll_only (fun _ _ k0 => (State.soOff_only hsums hsaf k0)) h)

theorem State.boundTiles_only {cs : Block → Bool} {s t : State} {a1 a2} (hlat : cs .lat = true) (h : OnlyIn cs s t) :
    OnlyIn cs s (State.boundTiles t a1 a2) := by
  unfold State.boundTiles
  extract_lets +onlyGivenNames -merge -underBinder x0
  (try clear_value x0)
  exact (OnlyIn.setLat hlat h)

theorem State.setSs_only {cs : Block → Bool} {s t : State} {a1 a2} (hsaf : cs .saf = true) (h : OnlyIn cs s t) :
    OnlyIn cs s (State.setSs t a1 a2) := by
  unfold State.setSs
  exact (OnlyIn.setSaf hsaf h)

theorem State.escalate_only {cs : Block → Bool} {s t : State} {a1} (hsums : cs .sums = true) (hcapture : cs .capture = true) (hstalls : ∀ i, cs
      (.stall i) = true) (hmkt : cs .mkt = true) (hsaf : cs .saf = true) (hqueues : cs .queues = true) (h : OnlyIn cs s t) :
    OnlyIn cs s (State.escalate t a1) := by
  unfold State.escalate
  extract_lets +onlyGivenNames -merge -underBinder x0
  have hx0 : OnlyIn cs s x0 := (State.setSs_only hsaf h)
  (try clear_value x0)
  extract_lets +onlyGivenNames -merge -underBinder x1 x2
  have hx2 : OnlyIn cs s x2 := (OnlyIn.setSaf hsaf hx0)
  (try clear_value x1)
  (try clear_value x2)
  extract_lets +onlyGivenNames -merge -underBinder x3
  have hx3 : OnlyIn cs s x3 := (State.log_only hsums hcapture hqueues hx2)
  (try clear_value x3)
  exact (OnlyIn.ite (State.forAll_only (fun _ _ k4 => (State.fastPath_only hsums (hstalls _) hmkt k4)) hx3) (OnlyIn.foldl (fun _ _ k5 =>
        (State.soOff_only hsums hsaf k5)) hx3))

theorem State.gateBay_only {cs : Block → Bool} {s t : State} {a1} (hsums : cs .sums = true) (hstalls : ∀ i, cs (.stall i) = true) (hmkt : cs .mkt =
      true) (hsaf : cs .saf = true) (h : OnlyIn cs s t) :
    OnlyIn cs s (State.gateBay t a1) := by
  unfold State.gateBay
  exact (State.setSs_only hsaf (OnlyIn.foldl (fun _ _ k0 => (State.fastPath_only hsums (hstalls _) hmkt k0)) h))

theorem State.outletOff_only {cs : Block → Bool} {s t : State} {a1} (hsums : cs .sums = true) (hsaf : cs .saf = true) (h : OnlyIn cs s t) :
    OnlyIn cs s (State.outletOff t a1) := by
  unfold State.outletOff
  exact (OnlyIn.foldl (fun _ _ k0 => (State.soOff_only hsums hsaf k0)) h)

theorem State.ssTake_only {cs : Block → Bool} {s t : State} {a1 a2} (hsums : cs .sums = true) (hstalls : ∀ i, cs (.stall i) = true) (hmkt : cs .mkt =
      true) (hsaf : cs .saf = true) (h : OnlyIn cs s t) :
    OnlyIn cs s (State.ssTake t a1 a2) := by
  unfold State.ssTake
  extract_lets +onlyGivenNames -merge -underBinder x0
  (try clear_value x0)
  exact (OnlyIn.ite
        (by extract_lets +onlyGivenNames -merge -underBinder x1; (try clear_value x1); exact (by extract_lets +onlyGivenNames -merge -underBinder x2; (try clear_value x2); exact (State.setSs_only hsaf h)))
        (OnlyIn.ite (State.gateBay_only hsums hstalls hmkt hsaf h) h))

theorem State.ssLate_only {cs : Block → Bool} {s t : State} {a1} (hsums : cs .sums = true) (hlat : cs .lat = true) (hstalls : ∀ i, cs (.stall i) =
      true) (hmkt : cs .mkt = true) (hsaf : cs .saf = true) (h : OnlyIn cs s t) :
    OnlyIn cs s (State.ssLate t a1) := by
  unfold State.ssLate
  exact (OnlyIn.ite (State.boundTiles_only hlat (State.ssTake_only hsums hstalls hmkt hsaf h)) h)

theorem State.ssDone_only {cs : Block → Bool} {s t : State} {a1} (hsums : cs .sums = true) (hcapture : cs .capture = true) (hsaf : cs .saf = true)
      (hqueues : cs .queues = true) (h : OnlyIn cs s t) :
    OnlyIn cs s (State.ssDone t a1) := by
  unfold State.ssDone
  extract_lets +onlyGivenNames -merge -underBinder x0
  (try clear_value x0)
  extract_lets +onlyGivenNames -merge -underBinder x1
  have hx1 : OnlyIn cs s x1 := (State.setSs_only hsaf h)
  (try clear_value x1)
  exact (State.log_only hsums hcapture hqueues hx1)

theorem State.removeBay_only {cs : Block → Bool} {s t : State} {a1 a2} (hsums : cs .sums = true) (hlat : cs .lat = true) (hcapture : cs .capture =
      true) (hstalls : ∀ i, cs (.stall i) = true) (hmkt : cs .mkt = true) (hsaf : cs .saf = true) (hqueues : cs .queues = true) (h : OnlyIn cs s t) :
    OnlyIn cs s (State.removeBay t a1 a2) := by
  unfold State.removeBay
  extract_lets +onlyGivenNames -merge -underBinder x0
  (try clear_value x0)
  exact (OnlyIn.ite
        (by extract_lets +onlyGivenNames -merge -underBinder x1; have hx1 : OnlyIn cs s x1 := (State.outletOff_only hsums hsaf h); (try clear_value x1); exact (State.ssLate_only hsums hlat hstalls hmkt hsaf (State.capFreeze_only hsums hcapture hqueues (State.bump_only hsums (State.setSs_only hsaf hx1)))))
        (OnlyIn.ite (State.ssDone_only hsums hcapture hsaf hqueues (State.outletOff_only hsums hsaf (State.setSs_only hsaf h))) (State.setSs_only hsaf
        h)))

theorem State.removeShown_only {cs : Block → Bool} {s t : State} {a1} (hsums : cs .sums = true) (hlat : cs .lat = true) (hcapture : cs .capture =
      true) (hstalls : ∀ i, cs (.stall i) = true) (hmkt : cs .mkt = true) (hsaf : cs .saf = true) (hqueues : cs .queues = true) (h : OnlyIn cs s t) :
    OnlyIn cs s (State.removeShown t a1) := by
  unfold State.removeShown
  exact (OnlyIn.ite
        (by extract_lets +onlyGivenNames -merge -underBinder x0; have hx0 : OnlyIn cs s x0 := (State.outletOff_only hsums hsaf h); (try clear_value x0); exact (State.ssLate_only hsums hlat hstalls hmkt hsaf (State.capFreeze_only hsums hcapture hqueues (State.bump_only hsums (State.setSs_only hsaf hx0)))))
        h)

theorem State.requestSafeStop_only {cs : Block → Bool} {s t : State} {a1} (hsums : cs .sums = true) (hlat : cs .lat = true) (hcapture : cs .capture =
      true) (hstalls : ∀ i, cs (.stall i) = true) (hmkt : cs .mkt = true) (hsaf : cs .saf = true) (hqueues : cs .queues = true) (h : OnlyIn cs s t) :
    OnlyIn cs s (State.requestSafeStop t a1) := by
  unfold State.requestSafeStop
  exact (OnlyIn.ite (OnlyIn.ite (State.ssLate_only hsums hlat hstalls hmkt hsaf (State.capFreeze_only hsums hcapture hqueues (State.bump_only hsums
        (State.setSs_only hsaf h)))) (State.ssDone_only hsums hcapture hsaf hqueues (State.outletOff_only hsums hsaf (State.setSs_only hsaf h))))
        (State.setSs_only hsaf h))

theorem State.soEnergise_only {cs : Block → Bool} {s t : State} {a1} (hsums : cs .sums = true) (hsaf : cs .saf = true) (h : OnlyIn cs s t) :
    OnlyIn cs s (State.soEnergise t a1) := by
  unfold State.soEnergise
  exact (OnlyIn.ite h (State.bump_only hsums (State.setSo_only hsaf h)))

theorem State.ssBoundary_only {cs : Block → Bool} {s t : State} {a1} (hsums : cs .sums = true) (hsaf : cs .saf = true) (h : OnlyIn cs s t) :
    OnlyIn cs s (State.ssBoundary t a1) := by
  unfold State.ssBoundary
  extract_lets +onlyGivenNames -merge -underBinder x0
  (try clear_value x0)
  exact (OnlyIn.ite (State.bump_only hsums (State.setSs_only hsaf h)) h)

theorem State.ssGate_only {cs : Block → Bool} {s t : State} {a1} (hsums : cs .sums = true) (hsaf : cs .saf = true) (h : OnlyIn cs s t) :
    OnlyIn cs s (State.ssGate t a1) := by
  unfold State.ssGate
  exact (State.bump_only hsums (State.setSs_only hsaf h))

theorem doEnvelopeSkipLimit_only {cs : Block → Bool} {s t : State} {a0 a1} (hmt : cs .mt = true) (hsums : cs .sums = true) (hlat : cs .lat = true)
      (hcapture : cs .capture = true) (hstalls : ∀ i, cs (.stall i) = true) (hmkt : cs .mkt = true) (hsaf : cs .saf = true) (hqueues : cs .queues =
      true) (h : OnlyIn cs s t) :
    OnlyIn cs s (doEnvelopeSkipLimit a0 a1 t) := by
  unfold doEnvelopeSkipLimit
  exact (whenLive_only hmt (fun _ k0 => (OnlyIn.ite (State.removeBay_only hsums hlat hcapture hstalls hmkt hsaf hqueues k0) k0)) h)

theorem doEscalation_only {cs : Block → Bool} {s t : State} {a0 a1} (hmt : cs .mt = true) (hsums : cs .sums = true) (hcapture : cs .capture = true)
      (hstalls : ∀ i, cs (.stall i) = true) (hmkt : cs .mkt = true) (hsaf : cs .saf = true) (hqueues : cs .queues = true) (h : OnlyIn cs s t) :
    OnlyIn cs s (doEscalation a0 a1 t) := by
  unfold doEscalation
  exact (whenLive_only hmt (fun _ k0 =>
        (by extract_lets +onlyGivenNames -merge -underBinder x1; (try clear_value x1); exact (by split; (next => exact (OnlyIn.ite (State.escalate_only hsums hcapture hstalls hmkt hsaf hqueues k0) k0)); (next => exact k0))))
        h)

theorem doSsRampEnd_only {cs : Block → Bool} {s t : State} {a0 a1} (hmt : cs .mt = true) (hsums : cs .sums = true) (hstalls : ∀ i, cs (.stall i) =
      true) (hmkt : cs .mkt = true) (hsaf : cs .saf = true) (h : OnlyIn cs s t) :
    OnlyIn cs s (doSsRampEnd a0 a1 t) := by
  unfold doSsRampEnd
  exact (whenLive_only hmt (fun _ k0 =>
        (by extract_lets +onlyGivenNames -merge -underBinder x1; (try clear_value x1); exact (OnlyIn.ite (State.gateBay_only hsums hstalls hmkt hsaf (State.ssGate_only hsums hsaf k0)) k0)))
        h)

theorem doSsRampTimeout_only {cs : Block → Bool} {s t : State} {a0 a1} (hmt : cs .mt = true) (hsums : cs .sums = true) (hlat : cs .lat = true)
      (hstalls : ∀ i, cs (.stall i) = true) (hmkt : cs .mkt = true) (hsaf : cs .saf = true) (h : OnlyIn cs s t) :
    OnlyIn cs s (doSsRampTimeout a0 a1 t) := by
  unfold doSsRampTimeout
  exact (whenLive_only hmt (fun _ k0 =>
        (by extract_lets +onlyGivenNames -merge -underBinder x1; (try clear_value x1); exact (by split; (next => exact (OnlyIn.ite (State.ssLate_only hsums hlat hstalls hmkt hsaf (State.ssGate_only hsums hsaf k0)) k0)); (next => exact k0))))
        h)

end Sys2Proof.Machine
end

