-- ==== Sys2Proof/Laws/FrameMarket.lean ====
section
/-! SUPPORT. What every operation of clearing, the policy, profiles, uplinks and pitches may change. -/
namespace Sys2Proof.Machine

theorem State.clearingView_only {cs : Block → Bool} {s t : State} (hprof : cs .prof = true) (h : OnlyIn cs s t) :
    OnlyIn cs s (State.clearingView t) := by
  unfold State.clearingView
  exact (OnlyIn.setProf hprof h)

theorem State.clearOn_only {cs : Block → Bool} {s t : State} {a1 a2} (hmkt : cs .mkt = true) (h : OnlyIn cs s t) :
    OnlyIn cs s (State.clearOn t a1 a2) := by
  unfold State.clearOn
  extract_lets +onlyGivenNames -merge -underBinder x0
  (try clear_value x0)
  extract_lets +onlyGivenNames -merge -underBinder x1 x2
  have hx2 : OnlyIn cs s x2 := (by unfold x2; exact (OnlyIn.ite (OnlyIn.setMkt hmkt h) h))
  (try clear_value x1)
  (try clear_value x2)
  extract_lets +onlyGivenNames -merge -underBinder x3
  (try clear_value x3)
  extract_lets +onlyGivenNames -merge -underBinder x4 x5
  have hx5 : OnlyIn cs s x5 := (by unfold x5; exact (OnlyIn.ite (OnlyIn.setMkt hmkt hx2) hx2))
  (try clear_value x4)
  (try clear_value x5)
  exact (by split; (next => exact hx5); (next => exact (OnlyIn.setMkt hmkt hx5)))

theorem State.keepDigest_only {cs : Block → Bool} {s t : State} {a1} (hpair : cs .pair = true) (h : OnlyIn cs s t) :
    OnlyIn cs s (State.keepDigest t a1) := by
  unfold State.keepDigest
  exact (OnlyIn.ite (OnlyIn.setPair ⟨.inr (by rfl), .inl hpair⟩ h) h)

theorem State.startMove_only {cs : Block → Bool} {s t : State} {a1} (hsums : cs .sums = true) (hstalls : ∀ i, cs (.stall i) = true) (hmkt : cs .mkt =
      true) (h : OnlyIn cs s t) :
    OnlyIn cs s (State.startMove t a1) := by
  unfold State.startMove
  exact (OnlyIn.ite h
        (by split; (next => exact h); (next => exact (by extract_lets +onlyGivenNames -merge -underBinder x0; have hx0 : OnlyIn cs s x0 := (State.bump_only hsums (State.setMove_only hmkt h)); (try clear_value x0); exact (by extract_lets +onlyGivenNames -merge -underBinder x1; have hx1 : OnlyIn cs s x1 := (by unfold x1; exact (by split; (next => exact (OnlyIn.ite (OnlyIn.setMkt hmkt hx0) hx0)); (next => exact hx0))); (try clear_value x1); exact (OnlyIn.ite (State.setStall_only (fun _ => ⟨.inr (by rfl), .inr (by rfl), .inl (hstalls _)⟩) hx1) (State.moveRampDone_only hsums (hstalls _) hmkt (State.mapCells_only (hstalls _) hx1))))))))

theorem State.commitTick_only {cs : Block → Bool} {s t : State} {a1} (hsums : cs .sums = true) (hcapture : cs .capture = true) (hstalls : ∀ i, cs
      (.stall i) = true) (hmkt : cs .mkt = true) (hpair : cs .pair = true) (hqueues : cs .queues = true) (h : OnlyIn cs s t) :
    OnlyIn cs s (State.commitTick t a1) := by
  unfold State.commitTick
  extract_lets +onlyGivenNames -merge -underBinder x0
  (try clear_value x0)
  extract_lets +onlyGivenNames -merge -underBinder x1
  (try clear_value x1)
  extract_lets +onlyGivenNames -merge -underBinder x2 x3
  have hx3 : OnlyIn cs s x3 := (OnlyIn.setMkt hmkt h)
  (try clear_value x2)
  (try clear_value x3)
  extract_lets +onlyGivenNames -merge -underBinder x4
  have hx4 : OnlyIn cs s x4 := (by unfold x4; exact (OnlyIn.ite (State.log_only hsums hcapture hqueues hx3) (State.bumpIf_only hsums hx3)))
  (try clear_value x4)
  exact (State.keepDigest_only hpair (OnlyIn.foldl (fun _ _ k5 => (State.startMove_only hsums hstalls hmkt k5)) hx4))

theorem State.chargePolicy_only {cs : Block → Bool} {s t : State} {a1} (hmram : cs .mram = true) (h : OnlyIn cs s t) :
    OnlyIn cs s (State.chargePolicy t a1) := by
  unfold State.chargePolicy
  exact (OnlyIn.setMram hmram h)

theorem State.clampTo_only {cs : Block → Bool} {s t : State} {a1} (hprof : cs .prof = true) (hsums : cs .sums = true) (hcapture : cs .capture = true)
      (hmkt : cs .mkt = true) (hqueues : cs .queues = true) (h : OnlyIn cs s t) :
    OnlyIn cs s (State.clampTo t a1) := by
  unfold State.clampTo
  extract_lets +onlyGivenNames -merge -underBinder x0
  (try clear_value x0)
  extract_lets +onlyGivenNames -merge -underBinder x1 x2
  have hx2 : OnlyIn cs s x2 := (OnlyIn.setMkt hmkt h)
  (try clear_value x1)
  (try clear_value x2)
  exact (OnlyIn.ite hx2 (OnlyIn.foldl (fun _ _ k3 => (State.log_only hsums hcapture hqueues k3)) (OnlyIn.setProf hprof hx2)))

theorem State.mktClear_only {cs : Block → Bool} {s t : State} (hmkt : cs .mkt = true) (h : OnlyIn cs s t) :
    OnlyIn cs s (State.mktClear t) := by
  unfold State.mktClear
  exact (OnlyIn.setMkt hmkt h)

theorem State.storePolicy_only {cs : Block → Bool} {s t : State} {a1} (hsums : cs .sums = true) (hmkt : cs .mkt = true) (hmram : cs .mram = true) (h :
      OnlyIn cs s t) :
    OnlyIn cs s (State.storePolicy t a1) := by
  unfold State.storePolicy
  exact (State.bumpIf_only hsums (State.chargePolicy_only hmram (OnlyIn.setMkt hmkt h)))

theorem State.mramTick_only {cs : Block → Bool} {s t : State} (hsums : cs .sums = true) (hmkt : cs .mkt = true) (hmram : cs .mram = true) (h : OnlyIn
      cs s t) :
    OnlyIn cs s (State.mramTick t) := by
  unfold State.mramTick
  extract_lets +onlyGivenNames -merge -underBinder x0
  (try clear_value x0)
  extract_lets +onlyGivenNames -merge -underBinder x1
  have hx1 : OnlyIn cs s x1 := (OnlyIn.setMram hmram h)
  (try clear_value x1)
  extract_lets +onlyGivenNames -merge -underBinder x2
  (try clear_value x2)
  extract_lets +onlyGivenNames -merge -underBinder x3 x4
  have hx4 : OnlyIn cs s x4 := (OnlyIn.setMram hmram hx1)
  (try clear_value x3)
  (try clear_value x4)
  exact (by split; (next => exact (State.storePolicy_only hsums hmkt hmram hx4)); (next => exact hx4))

theorem State.policyCommit_only {cs : Block → Bool} {s t : State} (hsums : cs .sums = true) (hmkt : cs .mkt = true) (hmram : cs .mram = true) (h :
      OnlyIn cs s t) :
    OnlyIn cs s (State.policyCommit t) := by
  unfold State.policyCommit
  exact (OnlyIn.ite (OnlyIn.setMkt hmkt h) (State.storePolicy_only hsums hmkt hmram h))

theorem State.setShadow_only {cs : Block → Bool} {s t : State} {a1} (hsums : cs .sums = true) (hmkt : cs .mkt = true) (h : OnlyIn cs s t) :
    OnlyIn cs s (State.setShadow t a1) := by
  unfold State.setShadow
  extract_lets +onlyGivenNames -merge -underBinder x0 x1
  have hx1 : OnlyIn cs s x1 := (OnlyIn.setMkt hmkt h)
  (try clear_value x0)
  (try clear_value x1)
  exact (State.bumpIf_only hsums hx1)

theorem State.policyDiscard_only {cs : Block → Bool} {s t : State} (hsums : cs .sums = true) (hmkt : cs .mkt = true) (h : OnlyIn cs s t) :
    OnlyIn cs s (State.policyDiscard t) := by
  unfold State.policyDiscard
  exact (State.setShadow_only hsums hmkt h)

theorem State.takePolicy_only {cs : Block → Bool} {s t : State} (hmkt : cs .mkt = true) (h : OnlyIn cs s t) :
    OnlyIn cs s (State.takePolicy t) := by
  unfold State.takePolicy
  exact (OnlyIn.setMkt hmkt h)

theorem doMktClrCnt_only {cs : Block → Bool} {s t : State} {a0 a1} (hmt : cs .mt = true) (hsums : cs .sums = true) (hanswer : cs .answer = true)
      (hviol : cs .viol = true) (hcapture : cs .capture = true) (hmkt : cs .mkt = true) (hqueues : cs .queues = true) (h : OnlyIn cs s t) :
    OnlyIn cs s (doMktClrCnt a0 a1 t) := by
  unfold doMktClrCnt
  exact (whenLive_only hmt (fun _ k0 => (State.command_only hsums hanswer hviol hcapture hqueues (fun _ k1 => (State.mktClear_only hmkt k1)) k0)) h)

theorem doPolicyCommit_only {cs : Block → Bool} {s t : State} {a0 a1} (hmt : cs .mt = true) (hsums : cs .sums = true) (hanswer : cs .answer = true)
      (hviol : cs .viol = true) (hcapture : cs .capture = true) (hmkt : cs .mkt = true) (hqueues : cs .queues = true) (hmram : cs .mram = true) (h :
      OnlyIn cs s t) :
    OnlyIn cs s (doPolicyCommit a0 a1 t) := by
  unfold doPolicyCommit
  exact (whenLive_only hmt (fun _ k0 => (State.command_only hsums hanswer hviol hcapture hqueues (fun _ k1 => (State.policyCommit_only hsums hmkt
        hmram k1)) k0)) h)

theorem doPolicyDiscard_only {cs : Block → Bool} {s t : State} {a0 a1} (hmt : cs .mt = true) (hsums : cs .sums = true) (hanswer : cs .answer = true)
      (hviol : cs .viol = true) (hcapture : cs .capture = true) (hmkt : cs .mkt = true) (hqueues : cs .queues = true) (h : OnlyIn cs s t) :
    OnlyIn cs s (doPolicyDiscard a0 a1 t) := by
  unfold doPolicyDiscard
  exact (whenLive_only hmt (fun _ k0 => (State.command_only hsums hanswer hviol hcapture hqueues (fun _ k1 => (State.policyDiscard_only hsums hmkt
        k1)) k0)) h)

theorem policyEffect_eff {cs : Block → Bool} {a0 a1 a2} (hsums : cs .sums = true) (hmkt : cs .mkt = true) :
    EffsIn cs (policyEffect a0 a1 a2) := by
  unfold policyEffect
  exact (EffsIn.map fun _ => (EffIn.mk (fun z1 _ k0 => (State.setShadow_only hsums hmkt k0))))

theorem doPolicyWrite_only {cs : Block → Bool} {s t : State} {a0 a1 a2 a3} (hmt : cs .mt = true) (hsums : cs .sums = true) (hanswer : cs .answer =
      true) (hviol : cs .viol = true) (hcapture : cs .capture = true) (hmkt : cs .mkt = true) (hqueues : cs .queues = true) (h : OnlyIn cs s t) :
    OnlyIn cs s (doPolicyWrite a0 a1 a2 a3 t) := by
  unfold doPolicyWrite
  exact (whenLive_only hmt (fun _ k0 =>
        (by split; (next e1 => exact (State.command_only hsums hanswer hviol hcapture hqueues (fun _ k2 => (((EffsIn.ite (policyEffect_eff hsums hmkt) EffsIn.none) _ e1) _ _ k2)) k0)); (next e3 => exact (State.answered_only hsums hanswer hviol hcapture hqueues k0))))
        h)

theorem mktCtrl_eff {cs : Block → Bool} {a0 a1} (hsums : cs .sums = true) (hmkt : cs .mkt = true) (hmram : cs .mram = true) :
    EffIn cs (mktCtrl a0 a1) := by
  unfold mktCtrl
  exact (EffIn.ite (EffIn.mk (fun z1 _ k0 => k0)) (EffIn.mk (fun z3 _ k2 =>
        (by extract_lets +onlyGivenNames -merge -underBinder x4; have hx4 : OnlyIn cs z3 x4 := (by unfold x4; exact (OnlyIn.ite (State.policyCommit_only hsums hmkt hmram k2) (OnlyIn.ite (State.policyDiscard_only hsums hmkt k2) k2))); (try clear_value x4); exact (OnlyIn.ite (State.mktClear_only hmkt hx4) hx4)))))

theorem roWord_eff {cs : Block → Bool} :
    EffIn cs (roWord) := by
  unfold roWord
  exact (EffIn.mk (fun z1 _ k0 => k0))

theorem mktWrite_eff {cs : Block → Bool} {a0 a1 a2} (hsums : cs .sums = true) (hstalls : ∀ i, cs (.stall i) = true) (hmkt : cs .mkt = true) (hmram :
      cs .mram = true) :
    EffsIn cs (mktWrite a0 a1 a2) := by
  unfold mktWrite
  exact
        (by split; (next e0 => exact (EffsIn.some ((policyEffect_eff hsums hmkt) _ e0))); (next e1 => exact (EffsIn.ite (EffsIn.some (mktCtrl_eff hsums hmkt hmram)) (EffsIn.ite (EffsIn.map fun _ => (EffIn.mk (fun z3 _ k2 => (State.bumpIf_only hsums (State.setStall_only (fun _ => ⟨.inr (by rfl), .inr (by rfl), .inl (hstalls _)⟩) k2))))) (EffsIn.map fun _ => roWord_eff)))))

theorem State.setSlot_only {cs : Block → Bool} {s t : State} {a1 a2} (hprof : cs .prof = true) (h : OnlyIn cs s t) :
    OnlyIn cs s (State.setSlot t a1 a2) := by
  unfold State.setSlot
  exact (OnlyIn.setProf hprof h)

theorem State.newMatrix_only {cs : Block → Bool} {s t : State} {a1} (hsums : cs .sums = true) (hsbus : cs .sbus = true) (h : OnlyIn cs s t) :
    OnlyIn cs s (State.newMatrix t a1) := by
  unfold State.newMatrix
  extract_lets +onlyGivenNames -merge -underBinder x0
  extract_lets +onlyGivenNames -merge -underBinder x1
  have hx1 : OnlyIn cs s x1 := (State.bumpIf_only hsums h)
  (try clear_value x1)
  extract_lets +onlyGivenNames -merge -underBinder x2 x3
  have hx3 : OnlyIn cs s x3 := (OnlyIn.setSbus hsbus hx1)
  (try clear_value x2)
  (try clear_value x3)
  extract_lets +onlyGivenNames -merge -underBinder x4
  (try clear_value x4)
  exact (OnlyIn.ite hx3 (OnlyIn.setSbus hsbus hx3))

theorem State.slotSt_only {cs : Block → Bool} {s t : State} {a1 a2} (hprof : cs .prof = true) (hsums : cs .sums = true) (h : OnlyIn cs s t) :
    OnlyIn cs s (State.slotSt t a1 a2) := by
  unfold State.slotSt
  exact (State.bump_only hsums (State.setSlot_only hprof h))

theorem State.takeSlot_only {cs : Block → Bool} {s t : State} {a1 a2 a3} (hprof : cs .prof = true) (hsums : cs .sums = true) (hsbus : cs .sbus = true)
      (h : OnlyIn cs s t) :
    OnlyIn cs s (State.takeSlot t a1 a2 a3) := by
  unfold State.takeSlot
  extract_lets +onlyGivenNames -merge -underBinder x0
  have hx0 : OnlyIn cs s x0 := (State.forAll_only (fun _ _ k1 => (OnlyIn.ite (State.setSlot_only hprof k1) k1)) h)
  (try clear_value x0)
  extract_lets +onlyGivenNames -merge -underBinder x2
  have hx2 : OnlyIn cs s x2 := (State.newMatrix_only hsums hsbus hx0)
  (try clear_value x2)
  extract_lets +onlyGivenNames -merge -underBinder x3 x4
  have hx4 : OnlyIn cs s x4 := (OnlyIn.setProf hprof hx2)
  (try clear_value x3)
  (try clear_value x4)
  exact (State.slotSt_only hprof hsums (State.setSlot_only hprof hx4))

theorem State.startCable_only {cs : Block → Bool} {s t : State} {a1} (hthm : cs .thm = true) (h : OnlyIn cs s t) :
    OnlyIn cs s (State.startCable t a1) := by
  unfold State.startCable
  extract_lets +onlyGivenNames -merge -underBinder x0
  (try clear_value x0)
  exact (OnlyIn.setThm hthm h)

theorem State.initialValues_only {cs : Block → Bool} {s t : State} (hbays : ∀ i, cs (.bay i) = true) (hmkt : cs .mkt = true) (hthm : cs .thm = true)
      (hmet : cs .met = true) (h : OnlyIn cs s t) :
    OnlyIn cs s (State.initialValues t) := by
  unfold State.initialValues
  extract_lets +onlyGivenNames -merge -underBinder x0
  have hx0 : OnlyIn cs s x0 := (State.forAll_only (fun _ _ k1 => (State.setBay_only (fun _ => ⟨.inr (by rfl), .inr (by rfl), .inl (hbays _)⟩)
        (State.startCable_only hthm k1))) h)
  (try clear_value x0)
  exact (OnlyIn.mk hx0 (.inr (by rfl)) (.inr (by rfl)) (.inr (by rfl)) (.inr (by rfl)) (.inr (by rfl)) (.inr (by rfl)) ⟨.inr (by rfl), .inr (by rfl),
        .inr (by rfl), .inr (by rfl)⟩ (.inr (by rfl)) (.inr (by rfl)) (.inr (by rfl)) (.inr (by rfl)) (.inr (by rfl)) ⟨.inr (by rfl), .inr (by rfl)⟩
        (.inr (by rfl)) (.inr (by rfl)) (.inl hmkt) (.inr (by rfl)) (.inr (by rfl)) (.inl hmet) (.inr (by rfl)) ⟨.inr (by rfl), .inr (by rfl)⟩ (.inr
        (by rfl)) (.inr (by rfl)) (.inr (by rfl)) ⟨.inr (by rfl), .inr (by rfl)⟩ (.inr (by rfl)))

theorem State.loadLattice_only {cs : Block → Bool} {s t : State} {a1} (hlat : cs .lat = true) (hstl : cs .stl = true) (h : OnlyIn cs s t) :
    OnlyIn cs s (State.loadLattice t a1) := by
  unfold State.loadLattice
  exact (OnlyIn.mk h (.inr (by rfl)) (.inr (by rfl)) (.inr (by rfl)) (.inr (by rfl)) (.inr (by rfl)) (.inr (by rfl)) ⟨.inr (by rfl), .inr (by rfl),
        .inr (by rfl), .inr (by rfl)⟩ (.inr (by rfl)) (.inr (by rfl)) (.inr (by rfl)) (.inr (by rfl)) (.inl hlat) ⟨.inr (by rfl), .inl hstl⟩ (.inr
        (by rfl)) (.inr (by rfl)) (.inr (by rfl)) (.inr (by rfl)) (.inr (by rfl)) (.inr (by rfl)) (.inr (by rfl)) ⟨.inr (by rfl), .inr (by rfl)⟩ (.inr
        (by rfl)) (.inr (by rfl)) (.inr (by rfl)) ⟨.inr (by rfl), .inr (by rfl)⟩ (.inr (by rfl)))

theorem State.switchLink_only {cs : Block → Bool} {s t : State} {a1} (hdraws : cs .draws = true) (hsums : cs .sums = true) (hlink1 : cs (.link a1) =
      true) (h : OnlyIn cs s t) :
    OnlyIn cs s (State.switchLink t a1) := by
  unfold State.switchLink
  exact (OnlyIn.ite (State.linkOff_only hsums hlink1 h) (OnlyIn.ite h
        (by split; (next => exact (State.linkAlign_only hsums hlink1 h)); (next => exact (State.linkTrain_only hdraws hsums hlink1 h)); (next => exact (State.linkTrain_only hdraws hsums hlink1 h)); (next => exact h))))

theorem State.changeLog_only {cs : Block → Bool} {s t : State} {a1 a2 a3} (hsums : cs .sums = true) (hcapture : cs .capture = true) (hsaf : cs .saf =
      true) (hqueues : cs .queues = true) (h : OnlyIn cs s t) :
    OnlyIn cs s (State.changeLog t a1 a2 a3) := by
  unfold State.changeLog
  extract_lets +onlyGivenNames -merge -underBinder x0
  (try clear_value x0)
  exact (State.log_only hsums hcapture hqueues (OnlyIn.setSaf hsaf h))

theorem State.storeSafety_only {cs : Block → Bool} {s t : State} {a1 a2} (hsums : cs .sums = true) (hcapture : cs .capture = true) (hsaf : cs .saf =
      true) (hqueues : cs .queues = true) (hmram : cs .mram = true) (h : OnlyIn cs s t) :
    OnlyIn cs s (State.storeSafety t a1 a2) := by
  unfold State.storeSafety
  exact (OnlyIn.ite h
        (by extract_lets +onlyGivenNames -merge -underBinder x0; (try clear_value x0); exact (by extract_lets +onlyGivenNames -merge -underBinder x1 x2; have hx2 : OnlyIn cs s x2 := (OnlyIn.setSaf hsaf h); (try clear_value x1); (try clear_value x2); exact (State.changeLog_only hsums hcapture hsaf hqueues (State.chargePolicy_only hmram hx2)))))

theorem State.takeSafety_only {cs : Block → Bool} {s t : State} {a1} (hsaf : cs .saf = true) (h : OnlyIn cs s t) :
    OnlyIn cs s (State.takeSafety t a1) := by
  unfold State.takeSafety
  extract_lets +onlyGivenNames -merge -underBinder x0
  extract_lets +onlyGivenNames -merge -underBinder x1
  extract_lets +onlyGivenNames -merge -underBinder x2
  exact (OnlyIn.setSaf hsaf h)

theorem State.activateImage_only {cs : Block → Bool} {s t : State} {a1 a2 a3 a4} (hdraws : cs .draws = true) (hprof : cs .prof = true) (hsums : cs
      .sums = true) (hpwr : cs .pwr = true) (hlat : cs .lat = true) (hcapture : cs .capture = true) (hstl : cs .stl = true) (hlinks : ∀ i, cs (.link
      i) = true) (hsamples : ∀ i, cs (.sample i) = true) (hstalls : ∀ i, cs (.stall i) = true) (hbays : ∀ i, cs (.bay i) = true) (hmkt : cs .mkt =
      true) (hthm : cs .thm = true) (hmet : cs .met = true) (hsaf : cs .saf = true) (hpair : cs .pair = true) (hsbus : cs .sbus = true) (hqueues : cs
      .queues = true) (hmram : cs .mram = true) (h : OnlyIn cs s t) :
    OnlyIn cs s (State.activateImage t a1 a2 a3 a4) := by
  unfold State.activateImage
  extract_lets +onlyGivenNames -merge -underBinder x0
  have hx0 : OnlyIn cs s x0 := (State.takeSlot_only hprof hsums hsbus h)
  (try clear_value x0)
  extract_lets +onlyGivenNames -merge -underBinder x1 x2
  have hx2 : OnlyIn cs s x2 := (OnlyIn.setProf hprof hx0)
  (try clear_value x1)
  (try clear_value x2)
  extract_lets +onlyGivenNames -merge -underBinder x3
  have hx3 : OnlyIn cs s x3 := (State.initialValues_only hbays hmkt hthm hmet (State.loadLattice_only hlat hstl hx2))
  (try clear_value x3)
  extract_lets +onlyGivenNames -merge -underBinder x4 x5
  have hx5 : OnlyIn cs s x5 := (OnlyIn.setMkt hmkt hx3)
  (try clear_value x4)
  (try clear_value x5)
  extract_lets +onlyGivenNames -merge -underBinder x6
  have hx6 : OnlyIn cs s x6 := (State.forAll_only (fun _ _ k7 => (State.switchLink_only hdraws hsums (hlinks _) (State.setStall_only (fun _ => ⟨.inl
        (hlinks _), .inl (hsamples _), .inl (hstalls _)⟩) k7))) hx5)
  (try clear_value x6)
  extract_lets +onlyGivenNames -merge -underBinder x8
  have hx8 : OnlyIn cs s x8 := (State.clampTo_only hprof hsums hcapture hmkt hqueues (State.storeSafety_only hsums hcapture hsaf hqueues hmram
        (State.takeSafety_only hsaf hx6)))
  (try clear_value x8)
  exact (State.bumpIf_only hsums (OnlyIn.mk hx8 (.inr (by rfl)) (.inr (by rfl)) (.inr (by rfl)) (.inr (by rfl)) (.inr (by rfl)) (.inr (by rfl)) ⟨.inr
        (by rfl), .inr (by rfl), .inr (by rfl), .inr (by rfl)⟩ (.inr (by rfl)) (.inr (by rfl)) (.inl hpwr) (.inr (by rfl)) (.inr (by rfl)) ⟨.inr
        (by rfl), .inr (by rfl)⟩ (.inr (by rfl)) (.inr (by rfl)) (.inr (by rfl)) (.inr (by rfl)) (.inr (by rfl)) (.inr (by rfl)) (.inr (by rfl)) ⟨.inr
        (by rfl), .inl hpair⟩ (.inr (by rfl)) (.inr (by rfl)) (.inr (by rfl)) ⟨.inr (by rfl), .inr (by rfl)⟩ (.inr (by rfl))))

theorem State.sendCtrl_only {cs : Block → Bool} {s t : State} {a1} (hpair : cs .pair = true) (h : OnlyIn cs s t) :
    OnlyIn cs s (State.sendCtrl t a1) := by
  unfold State.sendCtrl
  exact (State.sendSeljo_only hpair h)

theorem State.becomePending_only {cs : Block → Bool} {s t : State} {a1 a2 a3} (hprof : cs .prof = true) (hsums : cs .sums = true) (hlat : cs .lat =
      true) (hcapture : cs .capture = true) (hpair : cs .pair = true) (hqueues : cs .queues = true) (h : OnlyIn cs s t) :
    OnlyIn cs s (State.becomePending t a1 a2 a3) := by
  unfold State.becomePending
  extract_lets +onlyGivenNames -merge -underBinder x0
  (try clear_value x0)
  extract_lets +onlyGivenNames -merge -underBinder x1
  have hx1 : OnlyIn cs s x1 := (by unfold x1; exact (OnlyIn.ite (State.sendCtrl_only hpair h) h))
  (try clear_value x1)
  extract_lets +onlyGivenNames -merge -underBinder x2 x3 x4
  have hx4 : OnlyIn cs s x4 := (OnlyIn.mk hx1 (.inr (by rfl)) (.inr (by rfl)) (.inr (by rfl)) (.inr (by rfl)) (.inl hprof) (.inr (by rfl)) ⟨.inr
        (by rfl), .inr (by rfl), .inr (by rfl), .inr (by rfl)⟩ (.inr (by rfl)) (.inr (by rfl)) (.inr (by rfl)) (.inr (by rfl)) (.inl hlat) ⟨.inr
        (by rfl), .inr (by rfl)⟩ (.inr (by rfl)) (.inr (by rfl)) (.inr (by rfl)) (.inr (by rfl)) (.inr (by rfl)) (.inr (by rfl)) (.inr (by rfl)) ⟨.inr
        (by rfl), .inr (by rfl)⟩ (.inr (by rfl)) (.inr (by rfl)) (.inr (by rfl)) ⟨.inr (by rfl), .inr (by rfl)⟩ (.inr (by rfl)))
  (try clear_value x2)
  (try clear_value x3)
  (try clear_value x4)
  exact (State.log_only hsums hcapture hqueues (State.slotSt_only hprof hsums (State.setSlot_only hprof hx4)))

theorem State.profErr_only {cs : Block → Bool} {s t : State} {a1 a2 a3} (hprof : cs .prof = true) (hsums : cs .sums = true) (h : OnlyIn cs s t) :
    OnlyIn cs s (State.profErr t a1 a2 a3) := by
  unfold State.profErr
  exact (State.bumpIf_only hsums (OnlyIn.setProf hprof h))

theorem State.cancelPending_only {cs : Block → Bool} {s t : State} {a1} (hprof : cs .prof = true) (hsums : cs .sums = true) (hlat : cs .lat = true)
      (hpair : cs .pair = true) (h : OnlyIn cs s t) :
    OnlyIn cs s (State.cancelPending t a1) := by
  unfold State.cancelPending
  exact
        (by split; (next => exact h); (next => exact (OnlyIn.ite h (by extract_lets +onlyGivenNames -merge -underBinder x0 x1 x2 x3 x4; have hx4 : OnlyIn cs s x4 := (OnlyIn.mk h (.inr (by rfl)) (.inr (by rfl)) (.inr (by rfl)) (.inr (by rfl)) (.inl hprof) (.inr (by rfl)) ⟨.inr (by rfl), .inr (by rfl), .inr (by rfl), .inr (by rfl)⟩ (.inr (by rfl)) (.inr (by rfl)) (.inr (by rfl)) (.inr (by rfl)) (.inl hlat) ⟨.inr (by rfl), .inr (by rfl)⟩ (.inr (by rfl)) (.inr (by rfl)) (.inr (by rfl)) (.inr (by rfl)) (.inr (by rfl)) (.inr (by rfl)) (.inr (by rfl)) ⟨.inr (by rfl), .inl hpair⟩ (.inr (by rfl)) (.inr (by rfl)) (.inr (by rfl)) ⟨.inr (by rfl), .inr (by rfl)⟩ (.inr (by rfl))); (try clear_value x0); (try clear_value x1); (try clear_value x3); (try clear_value x4); exact (State.slotSt_only hprof hsums (State.profErr_only hprof hsums hx4))))))

theorem State.checkPassed_only {cs : Block → Bool} {s t : State} {a1} (hprof : cs .prof = true) (hsums : cs .sums = true) (hcapture : cs .capture =
      true) (hqueues : cs .queues = true) (h : OnlyIn cs s t) :
    OnlyIn cs s (State.checkPassed t a1) := by
  unfold State.checkPassed
  extract_lets +onlyGivenNames -merge -underBinder x0 x1
  have hx1 : OnlyIn cs s x1 := (OnlyIn.setProf hprof h)
  (try clear_value x0)
  (try clear_value x1)
  exact (State.log_only hsums hcapture hqueues (State.setSlot_only hprof hx1))

theorem State.changeRefused_only {cs : Block → Bool} {s t : State} {a1 a2} (hprof : cs .prof = true) (hsums : cs .sums = true) (hcapture : cs .capture
      = true) (hqueues : cs .queues = true) (h : OnlyIn cs s t) :
    OnlyIn cs s (State.changeRefused t a1 a2) := by
  unfold State.changeRefused
  exact (State.profErr_only hprof hsums (State.checkPassed_only hprof hsums hcapture hqueues (OnlyIn.setProf hprof h)))

theorem State.chargeSlots_only {cs : Block → Bool} {s t : State} {a1} (hmram : cs .mram = true) (h : OnlyIn cs s t) :
    OnlyIn cs s (State.chargeSlots t a1) := by
  unfold State.chargeSlots
  exact (OnlyIn.ite (OnlyIn.setMram hmram h) (OnlyIn.setMram hmram h))

theorem State.checkFailed_only {cs : Block → Bool} {s t : State} {a1 a2} (hprof : cs .prof = true) (hsums : cs .sums = true) (hcapture : cs .capture =
      true) (hqueues : cs .queues = true) (h : OnlyIn cs s t) :
    OnlyIn cs s (State.checkFailed t a1 a2) := by
  unfold State.checkFailed
  extract_lets +onlyGivenNames -merge -underBinder x0 x1
  have hx1 : OnlyIn cs s x1 := (OnlyIn.setProf hprof h)
  (try clear_value x0)
  (try clear_value x1)
  extract_lets +onlyGivenNames -merge -underBinder x2
  have hx2 : OnlyIn cs s x2 := (State.setSlot_only hprof (State.profErr_only hprof hsums hx1))
  (try clear_value x2)
  exact (State.log_only hsums hcapture hqueues hx2)

theorem State.countSwitch_only {cs : Block → Bool} {s t : State} {a1} (hprof : cs .prof = true) (hsums : cs .sums = true) (hcapture : cs .capture =
      true) (hqueues : cs .queues = true) (h : OnlyIn cs s t) :
    OnlyIn cs s (State.countSwitch t a1) := by
  unfold State.countSwitch
  extract_lets +onlyGivenNames -merge -underBinder x0 x1
  have hx1 : OnlyIn cs s x1 := (OnlyIn.setProf hprof h)
  (try clear_value x0)
  (try clear_value x1)
  exact (State.log_only hsums hcapture hqueues hx1)

theorem State.endCheck_only {cs : Block → Bool} {s t : State} {a1} (hprof : cs .prof = true) (hsums : cs .sums = true) (hviol : cs .viol = true) (hlat
      : cs .lat = true) (hcapture : cs .capture = true) (hpair : cs .pair = true) (hvault : cs .vault = true) (hqueues : cs .queues = true) (h :
      OnlyIn cs s t) :
    OnlyIn cs s (State.endCheck t a1) := by
  unfold State.endCheck
  extract_lets +onlyGivenNames -merge -underBinder x0
  (try clear_value x0)
  extract_lets +onlyGivenNames -merge -underBinder x1
  have hx1 : OnlyIn cs s x1 := (State.signatureServed_only hsums hviol hcapture hvault hqueues h)
  (try clear_value x1)
  exact
        (by split; (next => exact (State.checkFailed_only hprof hsums hcapture hqueues hx1)); (next => exact (by split; (next => exact (State.checkPassed_only hprof hsums hcapture hqueues hx1)); (next => exact (State.becomePending_only hprof hsums hlat hcapture hpair hqueues hx1)); (next => exact (OnlyIn.ite (State.becomePending_only hprof hsums hlat hcapture hpair hqueues hx1) (State.changeRefused_only hprof hsums hcapture hqueues hx1))); (next => exact (by split; (next => exact (OnlyIn.ite (State.becomePending_only hprof hsums hlat hcapture hpair hqueues hx1) (State.changeRefused_only hprof hsums hcapture hqueues hx1))); (next => exact (State.changeRefused_only hprof hsums hcapture hqueues hx1)))))))

theorem State.startCheck_only {cs : Block → Bool} {s t : State} {a1 a2 a3} (hprof : cs .prof = true) (hsums : cs .sums = true) (h : OnlyIn cs s t) :
    OnlyIn cs s (State.startCheck t a1 a2 a3) := by
  unfold State.startCheck
  extract_lets +onlyGivenNames -merge -underBinder x0
  (try clear_value x0)
  extract_lets +onlyGivenNames -merge -underBinder x1
  have hx1 : OnlyIn cs s x1 := (State.setSlot_only hprof h)
  (try clear_value x1)
  extract_lets +onlyGivenNames -merge -underBinder x2 x3
  have hx3 : OnlyIn cs s x3 := (OnlyIn.setProf hprof hx1)
  (try clear_value x2)
  (try clear_value x3)
  exact (State.slotSt_only hprof hsums hx3)

theorem State.profRun_only {cs : Block → Bool} {s t : State} {a1 a2 a3 a4} (hprof : cs .prof = true) (hsums : cs .sums = true) (hlat : cs .lat = true)
      (hpair : cs .pair = true) (h : OnlyIn cs s t) :
    OnlyIn cs s (State.profRun t a1 a2 a3 a4) := by
  unfold State.profRun
  exact
        (by split; (next => exact (State.startCheck_only hprof hsums h)); (next => exact (OnlyIn.ite (State.sendCtrl_only hpair (State.startCheck_only hprof hsums h)) (State.startCheck_only hprof hsums h))); (next => exact (State.slotSt_only hprof hsums (State.setSlot_only hprof h))); (next => exact (State.cancelPending_only hprof hsums hlat hpair h)))

theorem State.profCommand_only {cs : Block → Bool} {s t : State} {a1 a2 a3 a4} (hprof : cs .prof = true) (hsums : cs .sums = true) (hlat : cs .lat =
      true) (hpair : cs .pair = true) (h : OnlyIn cs s t) :
    OnlyIn cs s (State.profCommand t a1 a2 a3 a4).1 := by
  unfold State.profCommand
  exact
        (by split; (next => exact (OnlyIn.pairFst h)); (next => exact (by extract_lets +onlyGivenNames -merge -underBinder x0 x1; have hx1 : OnlyIn cs s x1 := (OnlyIn.setProf hprof h); (try clear_value x0); (try clear_value x1); exact (by split; (next => exact (OnlyIn.pairFst (State.profErr_only hprof hsums hx1))); (next => exact (OnlyIn.pairFst hx1)); (next => exact (OnlyIn.pairFst (State.profRun_only hprof hsums hlat hpair hx1)))))))

theorem State.profAccess_only {cs : Block → Bool} {s t : State} {a1 a2 a3 a4} (hprof : cs .prof = true) (hsums : cs .sums = true) (hanswer : cs
      .answer = true) (hviol : cs .viol = true) (hlat : cs .lat = true) (hcapture : cs .capture = true) (hpair : cs .pair = true) (hqueues : cs
      .queues = true) (h : OnlyIn cs s t) :
    OnlyIn cs s (State.profAccess t a1 a2 a3 a4) := by
  unfold State.profAccess
  exact
        (by split; (next => exact (State.answered_only hsums hanswer hviol hcapture hqueues h)); (next => exact (by extract_lets +onlyGivenNames -merge -underBinder x0; have hx0 : OnlyIn cs s x0.1 := (State.profCommand_only hprof hsums hlat hpair h); (try clear_value x0); exact (State.answered_only hsums hanswer hviol hcapture hqueues hx0))))

theorem State.profCtrlWrite_only {cs : Block → Bool} {s t : State} {a1 a2} (hprof : cs .prof = true) (hsums : cs .sums = true) (hlat : cs .lat = true)
      (hpair : cs .pair = true) (h : OnlyIn cs s t) :
    OnlyIn cs s (State.profCtrlWrite t a1 a2).1 := by
  unfold State.profCtrlWrite
  extract_lets +onlyGivenNames -merge -underBinder x0
  (try clear_value x0)
  extract_lets +onlyGivenNames -merge -underBinder x1
  (try clear_value x1)
  exact (OnlyIn.iteFst (OnlyIn.pairFst h)
        (by split; (next => exact (State.profCommand_only hprof hsums hlat hpair h)); (next => exact (OnlyIn.iteFst (OnlyIn.pairFst h) (OnlyIn.pairFst (OnlyIn.setProf hprof h))))))

theorem State.startNewCables_only {cs : Block → Bool} {s t : State} {a1} (hthm : cs .thm = true) (h : OnlyIn cs s t) :
    OnlyIn cs s (State.startNewCables t a1) := by
  unfold State.startNewCables
  exact (State.forAll_only (fun _ _ k0 => (OnlyIn.ite (State.startCable_only hthm k0) k0)) h)

theorem State.storeSlot_only {cs : Block → Bool} {s t : State} {a1 a2 a3} (hprof : cs .prof = true) (hsums : cs .sums = true) (hmram : cs .mram =
      true) (h : OnlyIn cs s t) :
    OnlyIn cs s (State.storeSlot t a1 a2 a3) := by
  unfold State.storeSlot
  extract_lets +onlyGivenNames -merge -underBinder x0
  (try clear_value x0)
  extract_lets +onlyGivenNames -merge -underBinder x1
  (try clear_value x1)
  extract_lets +onlyGivenNames -merge -underBinder x2
  have hx2 : OnlyIn cs s x2 := (State.setSlot_only hprof (State.chargeSlots_only hmram h))
  (try clear_value x2)
  exact (State.bumpIf_only hsums hx2)

theorem State.switchHandover_only {cs : Block → Bool} {s t : State} {a1} (hdraws : cs .draws = true) (hprof : cs .prof = true) (hsums : cs .sums =
      true) (hlat : cs .lat = true) (hcapture : cs .capture = true) (hlinks : ∀ i, cs (.link i) = true) (hthm : cs .thm = true) (hsaf : cs .saf =
      true) (hsbus : cs .sbus = true) (hqueues : cs .queues = true) (hmram : cs .mram = true) (h : OnlyIn cs s t) :
    OnlyIn cs s (State.switchHandover t a1) := by
  unfold State.switchHandover
  extract_lets +onlyGivenNames -merge -underBinder x0
  (try clear_value x0)
  extract_lets +onlyGivenNames -merge -underBinder x1
  have hx1 : OnlyIn cs s x1 := (State.takeSlot_only hprof hsums hsbus h)
  (try clear_value x1)
  extract_lets +onlyGivenNames -merge -underBinder x2 x3
  have hx3 : OnlyIn cs s x3 := (OnlyIn.setLat hlat hx1)
  (try clear_value x2)
  (try clear_value x3)
  extract_lets +onlyGivenNames -merge -underBinder x4
  have hx4 : OnlyIn cs s x4 := (State.startNewCables_only hthm hx3)
  (try clear_value x4)
  extract_lets +onlyGivenNames -merge -underBinder x5
  have hx5 : OnlyIn cs s x5 := (State.forAll_only (fun _ _ k6 => (OnlyIn.ite (State.linkOff_only hsums (hlinks _) k6) (OnlyIn.ite
        (State.switchLink_only hdraws hsums (hlinks _) k6) k6))) hx4)
  (try clear_value x5)
  exact (State.countSwitch_only hprof hsums hcapture hqueues (State.storeSafety_only hsums hcapture hsaf hqueues hmram (State.takeSafety_only hsaf
        hx5)))

theorem State.switchLive_only {cs : Block → Bool} {s t : State} {a1} (hprof : cs .prof = true) (hsums : cs .sums = true) (hlat : cs .lat = true)
      (hcapture : cs .capture = true) (hsbus : cs .sbus = true) (hqueues : cs .queues = true) (h : OnlyIn cs s t) :
    OnlyIn cs s (State.switchLive t a1) := by
  unfold State.switchLive
  extract_lets +onlyGivenNames -merge -underBinder x0
  have hx0 : OnlyIn cs s x0 := (State.takeSlot_only hprof hsums hsbus h)
  (try clear_value x0)
  extract_lets +onlyGivenNames -merge -underBinder x1 x2
  have hx2 : OnlyIn cs s x2 := (OnlyIn.setLat hlat hx0)
  (try clear_value x1)
  (try clear_value x2)
  exact (State.countSwitch_only hprof hsums hcapture hqueues hx2)

theorem State.switchStopped_only {cs : Block → Bool} {s t : State} {a1} (hdraws : cs .draws = true) (hprof : cs .prof = true) (hsums : cs .sums =
      true) (hpwr : cs .pwr = true) (hlat : cs .lat = true) (hcapture : cs .capture = true) (hstl : cs .stl = true) (hlinks : ∀ i, cs (.link i) =
      true) (hsamples : ∀ i, cs (.sample i) = true) (hstalls : ∀ i, cs (.stall i) = true) (hbays : ∀ i, cs (.bay i) = true) (hmkt : cs .mkt = true)
      (hthm : cs .thm = true) (hmet : cs .met = true) (hsaf : cs .saf = true) (hpair : cs .pair = true) (hsbus : cs .sbus = true) (hqueues : cs
      .queues = true) (hmram : cs .mram = true) (h : OnlyIn cs s t) :
    OnlyIn cs s (State.switchStopped t a1) := by
  unfold State.switchStopped
  exact (State.countSwitch_only hprof hsums hcapture hqueues (State.activateImage_only hdraws hprof hsums hpwr hlat hcapture hstl hlinks hsamples
        hstalls hbays hmkt hthm hmet hsaf hpair hsbus hqueues hmram h))

theorem doActivate_only {cs : Block → Bool} {s t : State} {a0 a1 a2 a3} (hmt : cs .mt = true) (hprof : cs .prof = true) (hsums : cs .sums = true)
      (hanswer : cs .answer = true) (hviol : cs .viol = true) (hlat : cs .lat = true) (hcapture : cs .capture = true) (hpair : cs .pair = true)
      (hqueues : cs .queues = true) (h : OnlyIn cs s t) :
    OnlyIn cs s (doActivate a0 a1 a2 a3 t) := by
  unfold doActivate
  exact (whenLive_only hmt (fun _ k0 => (State.profAccess_only hprof hsums hanswer hviol hlat hcapture hpair hqueues k0)) h)

theorem doCancel_only {cs : Block → Bool} {s t : State} {a0 a1 a2 a3} (hmt : cs .mt = true) (hprof : cs .prof = true) (hsums : cs .sums = true)
      (hanswer : cs .answer = true) (hviol : cs .viol = true) (hlat : cs .lat = true) (hcapture : cs .capture = true) (hpair : cs .pair = true)
      (hqueues : cs .queues = true) (h : OnlyIn cs s t) :
    OnlyIn cs s (doCancel a0 a1 a2 a3 t) := by
  unfold doCancel
  exact (whenLive_only hmt (fun _ k0 => (State.profAccess_only hprof hsums hanswer hviol hlat hcapture hpair hqueues k0)) h)

theorem doCheck_only {cs : Block → Bool} {s t : State} {a0 a1 a2 a3} (hmt : cs .mt = true) (hprof : cs .prof = true) (hsums : cs .sums = true)
      (hanswer : cs .answer = true) (hviol : cs .viol = true) (hlat : cs .lat = true) (hcapture : cs .capture = true) (hpair : cs .pair = true)
      (hqueues : cs .queues = true) (h : OnlyIn cs s t) :
    OnlyIn cs s (doCheck a0 a1 a2 a3 t) := by
  unfold doCheck
  exact (whenLive_only hmt (fun _ k0 => (State.profAccess_only hprof hsums hanswer hviol hlat hcapture hpair hqueues k0)) h)

theorem doCheckComplete_only {cs : Block → Bool} {s t : State} {a0} (hmt : cs .mt = true) (hprof : cs .prof = true) (hsums : cs .sums = true) (hviol :
      cs .viol = true) (hlat : cs .lat = true) (hcapture : cs .capture = true) (hpair : cs .pair = true) (hvault : cs .vault = true) (hqueues : cs
      .queues = true) (h : OnlyIn cs s t) :
    OnlyIn cs s (doCheckComplete a0 t) := by
  unfold doCheckComplete
  exact (whenLive_only hmt (fun _ k0 =>
        (by split; (next => exact (OnlyIn.ite k0 (State.endCheck_only hprof hsums hviol hlat hcapture hpair hvault hqueues k0))); (next => exact k0)))
        h)

theorem doCheckTimeout_only {cs : Block → Bool} {s t : State} {a0} (hmt : cs .mt = true) (hprof : cs .prof = true) (hsums : cs .sums = true) (hcapture
      : cs .capture = true) (hqueues : cs .queues = true) (h : OnlyIn cs s t) :
    OnlyIn cs s (doCheckTimeout a0 t) := by
  unfold doCheckTimeout
  exact (whenLive_only hmt (fun _ k0 =>
        (by split; (next => exact (OnlyIn.ite (State.checkFailed_only hprof hsums hcapture hqueues k0) k0)); (next => exact k0))) h)

theorem doErase_only {cs : Block → Bool} {s t : State} {a0 a1 a2 a3} (hmt : cs .mt = true) (hprof : cs .prof = true) (hsums : cs .sums = true)
      (hanswer : cs .answer = true) (hviol : cs .viol = true) (hlat : cs .lat = true) (hcapture : cs .capture = true) (hpair : cs .pair = true)
      (hqueues : cs .queues = true) (h : OnlyIn cs s t) :
    OnlyIn cs s (doErase a0 a1 a2 a3 t) := by
  unfold doErase
  exact (whenLive_only hmt (fun _ k0 => (State.profAccess_only hprof hsums hanswer hviol hlat hcapture hpair hqueues k0)) h)

theorem doPendingTimeout_only {cs : Block → Bool} {s t : State} {a0} (hmt : cs .mt = true) (hprof : cs .prof = true) (hsums : cs .sums = true) (hlat :
      cs .lat = true) (hpair : cs .pair = true) (h : OnlyIn cs s t) :
    OnlyIn cs s (doPendingTimeout a0 t) := by
  unfold doPendingTimeout
  exact (whenLive_only hmt (fun _ k0 =>
        (by split; (next => exact (OnlyIn.ite (State.cancelPending_only hprof hsums hlat hpair k0) k0)); (next => exact k0))) h)

theorem doProfileSwitch_only {cs : Block → Bool} {s t : State} {a0} (hmt : cs .mt = true) (hdraws : cs .draws = true) (hprof : cs .prof = true) (hsums
      : cs .sums = true) (hpwr : cs .pwr = true) (hlat : cs .lat = true) (hcapture : cs .capture = true) (hstl : cs .stl = true) (hlinks : ∀ i, cs
      (.link i) = true) (hsamples : ∀ i, cs (.sample i) = true) (hstalls : ∀ i, cs (.stall i) = true) (hbays : ∀ i, cs (.bay i) = true) (hmkt : cs
      .mkt = true) (hthm : cs .thm = true) (hmet : cs .met = true) (hsaf : cs .saf = true) (hpair : cs .pair = true) (hsbus : cs .sbus = true)
      (hqueues : cs .queues = true) (hmram : cs .mram = true) (h : OnlyIn cs s t) :
    OnlyIn cs s (doProfileSwitch a0 t) := by
  unfold doProfileSwitch
  exact (whenLive_only hmt (fun _ k0 =>
        (by split; (next => exact (OnlyIn.ite (State.cancelPending_only hprof hsums hlat hpair k0) (by split; (next => exact (OnlyIn.ite (State.switchStopped_only hdraws hprof hsums hpwr hlat hcapture hstl hlinks hsamples hstalls hbays hmkt hthm hmet hsaf hpair hsbus hqueues hmram k0) k0)); (next => exact (by split; (next => exact (OnlyIn.ite (State.switchLive_only hprof hsums hlat hcapture hsbus hqueues k0) k0)); (next => exact k0))); (next => exact k0)))); (next => exact k0)))
        h)

theorem profWindowEffect_eff {cs : Block → Bool} {a0 a1 a2 a3} (hprof : cs .prof = true) (hsums : cs .sums = true) (hmram : cs .mram = true) :
    EffIn cs (profWindowEffect a0 a1 a2 a3) := by
  unfold profWindowEffect
  exact (EffIn.mk (fun z1 _ k0 => (State.storeSlot_only hprof hsums hmram k0)))

theorem doProfileWindowWrite_only {cs : Block → Bool} {s t : State} {a0 a1 a2 a3} (hmt : cs .mt = true) (hprof : cs .prof = true) (hsums : cs .sums =
      true) (hanswer : cs .answer = true) (hviol : cs .viol = true) (hcapture : cs .capture = true) (hqueues : cs .queues = true) (hmram : cs .mram =
      true) (h : OnlyIn cs s t) :
    OnlyIn cs s (doProfileWindowWrite a0 a1 a2 a3 t) := by
  unfold doProfileWindowWrite
  exact (whenLive_only hmt (fun _ k0 =>
        (by split; (next => exact (OnlyIn.ite (State.answered_only hsums hanswer hviol hcapture hqueues k0) (State.command_only hsums hanswer hviol hcapture hqueues (fun _ k1 => ((profWindowEffect_eff hprof hsums hmram) _ _ k1)) k0))); (next => exact (State.answered_only hsums hanswer hviol hcapture hqueues k0))))
        h)

theorem State.addLoad_only {cs : Block → Bool} {s t : State} {a1 a2} (hstall1 : cs (.stall a1) = true) (h : OnlyIn cs s t) :
    OnlyIn cs s (State.addLoad t a1 a2) := by
  unfold State.addLoad
  extract_lets +onlyGivenNames -merge -underBinder x0
  (try clear_value x0)
  extract_lets +onlyGivenNames -merge -underBinder x1
  (try clear_value x1)
  extract_lets +onlyGivenNames -merge -underBinder x2
  (try clear_value x2)
  exact (State.setStall_only (fun _ => ⟨.inr (by rfl), .inr (by rfl), .inl hstall1⟩) h)

theorem State.askRearm_only {cs : Block → Bool} {s t : State} {a1} (hstall1 : cs (.stall a1) = true) (h : OnlyIn cs s t) :
    OnlyIn cs s (State.askRearm t a1) := by
  unfold State.askRearm
  exact (State.setStall_only (fun _ => ⟨.inr (by rfl), .inr (by rfl), .inl hstall1⟩) h)

theorem State.cableHold_only {cs : Block → Bool} {s t : State} {a1 a2 a3} (hbays : ∀ i, cs (.bay i) = true) (h : OnlyIn cs s t) :
    OnlyIn cs s (State.cableHold t a1 a2 a3) := by
  unfold State.cableHold
  exact
        (by split; (next => exact h); (next => exact (by extract_lets +onlyGivenNames -merge -underBinder x0; (try clear_value x0); exact (OnlyIn.ite (State.setBay_only (fun _ => ⟨.inr (by rfl), .inr (by rfl), .inl (hbays _)⟩) h) h))))

theorem State.checkEnvelope_only {cs : Block → Bool} {s t : State} {a1 a2} (hsums : cs .sums = true) (hlat : cs .lat = true) (hcapture : cs .capture =
      true) (hstalls : ∀ i, cs (.stall i) = true) (hmkt : cs .mkt = true) (hsaf : cs .saf = true) (hqueues : cs .queues = true) (h : OnlyIn cs s t) :
    OnlyIn cs s (State.checkEnvelope t a1 a2) := by
  unfold State.checkEnvelope
  exact
        (by split; (next => exact h); (next => exact (by extract_lets +onlyGivenNames -merge -underBinder x0; (try clear_value x0); exact (OnlyIn.ite (by split; (next => exact (OnlyIn.ite h (State.removeBay_only hsums hlat hcapture hstalls hmkt hsaf hqueues h))); (next => exact h)) h))))

theorem State.epochConflict_only {cs : Block → Bool} {s t : State} {a1 a2} (hsums : cs .sums = true) (hlinks : ∀ i, cs (.link i) = true) (hpair : cs
      .pair = true) (h : OnlyIn cs s t) :
    OnlyIn cs s (State.epochConflict t a1 a2) := by
  unfold State.epochConflict
  extract_lets +onlyGivenNames -merge -underBinder x0
  (try clear_value x0)
  exact (OnlyIn.ite (State.sendMstAll_only hlinks (State.bump_only hsums (OnlyIn.setPair ⟨.inr (by rfl), .inl hpair⟩ h))) h)

theorem State.liteUplink_only {cs : Block → Bool} {s t : State} {a1 a2} (hsums : cs .sums = true) (hlink1 : cs (.link a1) = true) (h : OnlyIn cs s t)
      :
    OnlyIn cs s (State.liteUplink t a1 a2) := by
  unfold State.liteUplink
  extract_lets +onlyGivenNames -merge -underBinder x0
  (try clear_value x0)
  extract_lets +onlyGivenNames -merge -underBinder x1
  (try clear_value x1)
  extract_lets +onlyGivenNames -merge -underBinder x2
  (try clear_value x2)
  exact (OnlyIn.ite (State.bumpIf_only hsums (State.setLink_only hlink1 h)) (State.setLink_only hlink1 h))

theorem State.logFrozen_only {cs : Block → Bool} {s t : State} {a1 a2 a3 a4} (hsums : cs .sums = true) (hcapture : cs .capture = true) (hstall1 : cs
      (.stall a1) = true) (hqueues : cs .queues = true) (h : OnlyIn cs s t) :
    OnlyIn cs s (State.logFrozen t a1 a2 a3 a4) := by
  unfold State.logFrozen
  extract_lets +onlyGivenNames -merge -underBinder x0
  have hx0 : OnlyIn cs s x0 := (State.setStall_only (fun _ => ⟨.inr (by rfl), .inr (by rfl), .inl hstall1⟩) h)
  (try clear_value x0)
  exact (State.log_only hsums hcapture hqueues hx0)

theorem State.stepRuns_only {cs : Block → Bool} {s t : State} {a1 a2} (hsums : cs .sums = true) (hcapture : cs .capture = true) (hstall1 : cs (.stall
      a1) = true) (hqueues : cs .queues = true) (h : OnlyIn cs s t) :
    OnlyIn cs s (State.stepRuns t a1 a2) := by
  unfold State.stepRuns
  extract_lets +onlyGivenNames -merge -underBinder x0
  (try clear_value x0)
  extract_lets +onlyGivenNames -merge -underBinder x1
  (try clear_value x1)
  extract_lets +onlyGivenNames -merge -underBinder x2
  extract_lets +onlyGivenNames -merge -underBinder x3
  extract_lets +onlyGivenNames -merge -underBinder x4
  extract_lets +onlyGivenNames -merge -underBinder x5
  have hx5 : OnlyIn cs s x5 := (State.setStall_only (fun _ => ⟨.inr (by rfl), .inr (by rfl), .inl hstall1⟩) h)
  (try clear_value x5)
  exact (State.forAll_only (fun _ _ k6 => (OnlyIn.ite (State.logFrozen_only hsums hcapture hstall1 hqueues k6) k6)) hx5)

theorem State.takeTemp_only {cs : Block → Bool} {s t : State} {a1 a2 a3} (hsums : cs .sums = true) (hstall1 : cs (.stall a1) = true) (h : OnlyIn cs s
      t) :
    OnlyIn cs s (State.takeTemp t a1 a2 a3) := by
  unfold State.takeTemp
  extract_lets +onlyGivenNames -merge -underBinder x0
  (try clear_value x0)
  extract_lets +onlyGivenNames -merge -underBinder x1
  extract_lets +onlyGivenNames -merge -underBinder x2
  have hx2 : OnlyIn cs s x2 :=
        (by unfold x2; exact (OnlyIn.ite (State.bump_only hsums (State.setStall_only (fun _ => ⟨.inr (by rfl), .inr (by rfl), .inl hstall1⟩) h)) h))
  (try clear_value x2)
  extract_lets +onlyGivenNames -merge -underBinder x3
  have hx3 : OnlyIn cs s x3 := (by unfold x3; exact (OnlyIn.ite (State.requestStop_only hstall1 hx2) hx2))
  (try clear_value x3)
  exact (OnlyIn.ite
        (by extract_lets +onlyGivenNames -merge -underBinder x4; have hx4 : OnlyIn cs s x4 := (State.setStall_only (fun _ => ⟨.inr (by rfl), .inr (by rfl), .inl hstall1⟩) hx3); (try clear_value x4); exact (by extract_lets +onlyGivenNames -merge -underBinder x5; (try clear_value x5); exact (OnlyIn.ite (State.bump_only hsums (State.setStall_only (fun _ => ⟨.inr (by rfl), .inr (by rfl), .inl hstall1⟩) hx4)) hx4)))
        hx3)

theorem State.takeTrip_only {cs : Block → Bool} {s t : State} {a1 a2} (hsums : cs .sums = true) (hcapture : cs .capture = true) (hstall1 : cs (.stall
      a1) = true) (hmkt : cs .mkt = true) (hqueues : cs .queues = true) (h : OnlyIn cs s t) :
    OnlyIn cs s (State.takeTrip t a1 a2) := by
  unfold State.takeTrip
  exact (OnlyIn.ite (State.fastPath_only hsums hstall1 hmkt (State.capFreeze_only hsums hcapture hqueues h)) h)

theorem State.withdrawCell_only {cs : Block → Bool} {s t : State} {a1 a2} (hsums : cs .sums = true) (hstall1 : cs (.stall a1) = true) (h : OnlyIn cs s
      t) :
    OnlyIn cs s (State.withdrawCell t a1 a2) := by
  unfold State.withdrawCell
  extract_lets +onlyGivenNames -merge -underBinder x0
  (try clear_value x0)
  extract_lets +onlyGivenNames -merge -underBinder x1
  have hx1 : OnlyIn cs s x1 := (State.bump_only hsums (State.setCell_only hstall1 h))
  (try clear_value x1)
  extract_lets +onlyGivenNames -merge -underBinder x2
  have hx2 : OnlyIn cs s x2 := (State.setStall_only (fun _ => ⟨.inr (by rfl), .inr (by rfl), .inl hstall1⟩) hx1)
  (try clear_value x2)
  exact (OnlyIn.ite (State.requestStop_only hstall1 hx2) hx2)

theorem State.takeOc_only {cs : Block → Bool} {s t : State} {a1 a2} (hsums : cs .sums = true) (hstall1 : cs (.stall a1) = true) (hmkt : cs .mkt =
      true) (h : OnlyIn cs s t) :
    OnlyIn cs s (State.takeOc t a1 a2) := by
  unfold State.takeOc
  extract_lets +onlyGivenNames -merge -underBinder x0
  have hx0 : OnlyIn cs s x0 := (State.forAll_only (fun _ _ k1 => (OnlyIn.ite (State.withdrawCell_only hsums hstall1 k1) k1)) h)
  (try clear_value x0)
  extract_lets +onlyGivenNames -merge -underBinder x2
  have hx2 : OnlyIn cs s x2 := (by unfold x2; exact (OnlyIn.ite (State.requestStop_only hstall1 hx0) hx0))
  (try clear_value x2)
  exact (OnlyIn.ite h (State.moveRampDone_only hsums hstall1 hmkt (State.gateWhenOut_only hstall1 hx2)))

theorem State.liteUplinkCheck_only {cs : Block → Bool} {s t : State} {a1 a2} (hsums : cs .sums = true) (hlat : cs .lat = true) (hcapture : cs .capture
      = true) (hstalls : ∀ i, cs (.stall i) = true) (hmkt : cs .mkt = true) (hsaf : cs .saf = true) (hqueues : cs .queues = true) (h : OnlyIn cs s t)
      :
    OnlyIn cs s (State.liteUplinkCheck t a1 a2) := by
  unfold State.liteUplinkCheck
  exact (OnlyIn.ite
        (by extract_lets +onlyGivenNames -merge -underBinder x0; have hx0 : OnlyIn cs s x0 := (State.setStall_only (fun _ => ⟨.inr (by rfl), .inr (by rfl), .inl (hstalls _)⟩) h); (try clear_value x0); exact (OnlyIn.ite hx0 (by extract_lets +onlyGivenNames -merge -underBinder x1; have hx1 : OnlyIn cs s x1 := (State.countStop_only hsums (hstalls _) (State.setStall_only (fun _ => ⟨.inr (by rfl), .inr (by rfl), .inl (hstalls _)⟩) hx0)); (try clear_value x1); exact (by split; (next => exact (State.removeShown_only hsums hlat hcapture hstalls hmkt hsaf hqueues hx1)); (next => exact hx1)))))
        h)

theorem State.takeSample_only {cs : Block → Bool} {s t : State} {a1 a2 a3} (hsums : cs .sums = true) (hlat : cs .lat = true) (hcapture : cs .capture =
      true) (hlinks : ∀ i, cs (.link i) = true) (hsample1 : cs (.sample a1) = true) (hstalls : ∀ i, cs (.stall i) = true) (hbays : ∀ i, cs (.bay i) =
      true) (hmkt : cs .mkt = true) (hsaf : cs .saf = true) (hpair : cs .pair = true) (hqueues : cs .queues = true) (h : OnlyIn cs s t) :
    OnlyIn cs s (State.takeSample t a1 a2 a3) := by
  unfold State.takeSample
  extract_lets +onlyGivenNames -merge -underBinder x0
  (try clear_value x0)
  extract_lets +onlyGivenNames -merge -underBinder x1
  have hx1 : OnlyIn cs s x1 := (State.setStall_only (fun _ => ⟨.inl (hlinks _), .inl hsample1, .inr (by rfl)⟩) h)
  (try clear_value x1)
  extract_lets +onlyGivenNames -merge -underBinder x2
  have hx2 : OnlyIn cs s x2 := (State.bumpIf_only hsums hx1)
  (try clear_value x2)
  extract_lets +onlyGivenNames -merge -underBinder x3
  have hx3 : OnlyIn cs s x3 := (State.stepRuns_only hsums hcapture (hstalls _) hqueues (State.epochConflict_only hsums hlinks hpair hx2))
  (try clear_value x3)
  extract_lets +onlyGivenNames -merge -underBinder x4
  have hx4 : OnlyIn cs s x4 :=
        (by unfold x4; exact (OnlyIn.ite (State.coastPitch_only hsums hcapture (hstalls _) hqueues (State.setStall_only (fun _ => ⟨.inr (by rfl), .inl hsample1, .inr (by rfl)⟩) hx3)) (State.recover_only hsums (hstalls _) hx3)))
  (try clear_value x4)
  extract_lets +onlyGivenNames -merge -underBinder x5
  have hx5 : OnlyIn cs s x5 := (State.takeTemp_only hsums (hstalls _) (State.takeTrip_only hsums hcapture (hstalls _) hmkt hqueues (State.takeOc_only
        hsums (hstalls _) hmkt hx4)))
  (try clear_value x5)
  extract_lets +onlyGivenNames -merge -underBinder x6
  have hx6 : OnlyIn cs s x6 := (State.askRearm_only (hstalls _) (State.addLoad_only (hstalls _) (State.stallFeedback_only hsums hcapture hstalls hmkt
        hqueues (State.liteUplinkCheck_only hsums hlat hcapture hstalls hmkt hsaf hqueues hx5))))
  (try clear_value x6)
  exact (State.trySleep_only hsums (hlinks _) (hstalls _) (State.cableHold_only hbays (State.checkEnvelope_only hsums hlat hcapture hstalls hmkt hsaf
        hqueues hx6)))

theorem State.usableUplink_only {cs : Block → Bool} {s t : State} {a1 a2 a3 a4} (hsums : cs .sums = true) (hlat : cs .lat = true) (hcapture : cs
      .capture = true) (hstl : cs .stl = true) (hlinks : ∀ i, cs (.link i) = true) (hsample1 : cs (.sample a1) = true) (hstalls : ∀ i, cs (.stall i) =
      true) (hbays : ∀ i, cs (.bay i) = true) (hmkt : cs .mkt = true) (hsaf : cs .saf = true) (hpair : cs .pair = true) (hqueues : cs .queues = true)
      (h : OnlyIn cs s t) :
    OnlyIn cs s (State.usableUplink t a1 a2 a3 a4) := by
  unfold State.usableUplink
  exact (OnlyIn.ite
        (by extract_lets +onlyGivenNames -merge -underBinder x0; (try clear_value x0); exact (by extract_lets +onlyGivenNames -merge -underBinder x1; (try clear_value x1); exact (State.bumpIf_only hsums (State.setLink_only (hlinks _) (State.capStore_only hstl h)))))
        (OnlyIn.ite h (State.takeSample_only hsums hlat hcapture hlinks hsample1 hstalls hbays hmkt hsaf hpair hqueues (State.capStore_only hstl h))))

theorem State.judgeUplink_only {cs : Block → Bool} {s t : State} {a1 a2 a3 a4} (hsums : cs .sums = true) (hlat : cs .lat = true) (hcapture : cs
      .capture = true) (hstl : cs .stl = true) (hlinks : ∀ i, cs (.link i) = true) (hsample2 : cs (.sample a2) = true) (hstalls : ∀ i, cs (.stall i) =
      true) (hbays : ∀ i, cs (.bay i) = true) (hmkt : cs .mkt = true) (hsaf : cs .saf = true) (hpair : cs .pair = true) (hqueues : cs .queues = true)
      (h : OnlyIn cs s t) :
    OnlyIn cs s (State.judgeUplink t a1 a2 a3 a4) := by
  unfold State.judgeUplink
  extract_lets +onlyGivenNames -merge -underBinder x0
  (try clear_value x0)
  extract_lets +onlyGivenNames -merge -underBinder x1
  (try clear_value x1)
  exact (OnlyIn.ite (State.liteUplink_only hsums (hlinks _) h)
        (by extract_lets +onlyGivenNames -merge -underBinder x2; (try clear_value x2); exact (OnlyIn.ite h (by extract_lets +onlyGivenNames -merge -underBinder x3; (try clear_value x3); exact (OnlyIn.ite (OnlyIn.ite (State.setLink_only (hlinks _) h) (State.usableUplink_only hsums hlat hcapture hstl hlinks hsample2 hstalls hbays hmkt hsaf hpair hqueues h)) (OnlyIn.ite (State.setLink_only (hlinks _) h) (OnlyIn.ite h (State.setLink_only (hlinks _) h))))))))

theorem State.takeOwn_only {cs : Block → Bool} {s t : State} {a1 a2} (hsums : cs .sums = true) (hlat : cs .lat = true) (hcapture : cs .capture = true)
      (hlinks : ∀ i, cs (.link i) = true) (hsample1 : cs (.sample a1) = true) (hstalls : ∀ i, cs (.stall i) = true) (hbays : ∀ i, cs (.bay i) = true)
      (hmkt : cs .mkt = true) (hsaf : cs .saf = true) (hpair : cs .pair = true) (hqueues : cs .queues = true) (h : OnlyIn cs s t) :
    OnlyIn cs s (State.takeOwn t a1 a2) := by
  unfold State.takeOwn
  exact
        (by split; (next => exact (OnlyIn.ite (State.setStall_only (fun _ => ⟨.inl (hlinks _), .inr (by rfl), .inr (by rfl)⟩) (State.takeSample_only hsums hlat hcapture hlinks hsample1 hstalls hbays hmkt hsaf hpair hqueues (State.setLink_only (hlinks _) h))) h)); (next => exact h))

theorem doUplinkPitchFrame_only {cs : Block → Bool} {s t : State} {a0 a1 a2 a3 a4} (hmt : cs .mt = true) (hsums : cs .sums = true) (hlat : cs .lat =
      true) (hcapture : cs .capture = true) (hstl : cs .stl = true) (hlinks : ∀ i, cs (.link i) = true) (hsample1 : cs (.sample a1) = true) (hstalls :
      ∀ i, cs (.stall i) = true) (hbays : ∀ i, cs (.bay i) = true) (hmkt : cs .mkt = true) (hsaf : cs .saf = true) (hpair : cs .pair = true) (hqueues
      : cs .queues = true) (h : OnlyIn cs s t) :
    OnlyIn cs s (doUplinkPitchFrame a0 a1 a2 a3 a4 t) := by
  unfold doUplinkPitchFrame
  exact (whenLive_only hmt (fun _ k0 => (OnlyIn.ite (State.setLink_only (hlinks _) k0) (OnlyIn.ite (State.judgeUplink_only hsums hlat hcapture hstl
        hlinks hsample1 hstalls hbays hmkt hsaf hpair hqueues k0) k0))) h)

theorem State.armTimeouts_only {cs : Block → Bool} {s t : State} {a1} (hstalls : ∀ i, cs (.stall i) = true) (hmkt : cs .mkt = true) (h : OnlyIn cs s
      t) :
    OnlyIn cs s (State.armTimeouts t a1) := by
  unfold State.armTimeouts
  extract_lets +onlyGivenNames -merge -underBinder x0
  have hx0 : OnlyIn cs s x0 := (State.forAll_only (fun _ _ k1 =>
        (by extract_lets +onlyGivenNames -merge -underBinder x2; exact (OnlyIn.ite (by extract_lets +onlyGivenNames -merge -underBinder x3; (try clear_value x3); exact (State.setStall_only (fun _ => ⟨.inr (by rfl), .inr (by rfl), .inl (hstalls _)⟩) k1)) k1)))
        h)
  (try clear_value x0)
  exact (State.forAll_only (fun _ _ k4 =>
        (by extract_lets +onlyGivenNames -merge -underBinder x5; (try clear_value x5); exact (OnlyIn.ite k4 (by split <;> first | exact (State.setMove_only hmkt k4) | exact k4))))
        hx0)

theorem State.cleanReads_only {cs : Block → Bool} {s t : State} {a1 a2} (hlat : cs .lat = true) (h : OnlyIn cs s t) :
    OnlyIn cs s (State.cleanReads t a1 a2) := by
  unfold State.cleanReads
  extract_lets +onlyGivenNames -merge -underBinder x0
  exact (OnlyIn.setLat hlat h)

theorem State.spread_only {cs : Block → Bool} {s t : State} {a1} (hstalls : ∀ i, cs (.stall i) = true) (h : OnlyIn cs s t) :
    OnlyIn cs s (State.spread t a1) := by
  unfold State.spread
  extract_lets +onlyGivenNames -merge -underBinder x0
  (try clear_value x0)
  exact (OnlyIn.foldl (fun _ _ k1 => (by split; (next => exact (State.setCell_only (hstalls _) k1)); (next => exact k1))) h)

theorem State.sendFrame_only {cs : Block → Bool} {s t : State} {a1 a2 a3 a4} (hstall4 : cs (.stall a4) = true) (h : OnlyIn cs s t) :
    OnlyIn cs s (State.sendFrame t a1 a2 a3 a4) := by
  unfold State.sendFrame
  extract_lets +onlyGivenNames -merge -underBinder x0
  (try clear_value x0)
  exact (OnlyIn.ite
        (by extract_lets +onlyGivenNames -merge -underBinder x1; (try clear_value x1); exact (by extract_lets +onlyGivenNames -merge -underBinder x2; (try clear_value x2); exact (State.setStall_only (fun _ => ⟨.inr (by rfl), .inr (by rfl), .inl hstall4⟩) h)))
        h)

theorem State.keepPitchDigest_only {cs : Block → Bool} {s t : State} {a1} (hpair : cs .pair = true) (h : OnlyIn cs s t) :
    OnlyIn cs s (State.keepPitchDigest t a1) := by
  unfold State.keepPitchDigest
  exact (OnlyIn.ite (OnlyIn.setPair ⟨.inr (by rfl), .inl hpair⟩ h) h)

theorem State.commitWord_only {cs : Block → Bool} {s t : State} {a1 a2 a3 a4} (hlat : cs .lat = true) (h : OnlyIn cs s t) :
    OnlyIn cs s (State.commitWord t a1 a2 a3 a4) := by
  unfold State.commitWord
  extract_lets +onlyGivenNames -merge -underBinder x0
  (try clear_value x0)
  exact (OnlyIn.ite (OnlyIn.setLat hlat h) (OnlyIn.setLat hlat h))

theorem State.seqStall_only {cs : Block → Bool} {s t : State} {a1 a2} (hlat : cs .lat = true) (h : OnlyIn cs s t) :
    OnlyIn cs s (State.seqStall t a1 a2) := by
  unfold State.seqStall
  extract_lets +onlyGivenNames -merge -underBinder x0
  extract_lets +onlyGivenNames -merge -underBinder x1
  have hx1 : OnlyIn cs s x1 := (State.forAll_only (fun _ _ k2 => (by split; (next => exact (State.commitWord_only hlat k2)); (next => exact k2))) h)
  (try clear_value x1)
  exact
        (by split; (next => exact (by extract_lets +onlyGivenNames -merge -underBinder x3; (try clear_value x3); exact (by extract_lets +onlyGivenNames -merge -underBinder x4; (try clear_value x4); exact (State.forAll_only (fun _ _ k5 => (State.commitWord_only hlat k5)) hx1)))); (next => exact hx1))

theorem State.seqBay_only {cs : Block → Bool} {s t : State} {a1 a2} (hlat : cs .lat = true) (h : OnlyIn cs s t) :
    OnlyIn cs s (State.seqBay t a1 a2) := by
  unfold State.seqBay
  extract_lets +onlyGivenNames -merge -underBinder x0
  (try clear_value x0)
  extract_lets +onlyGivenNames -merge -underBinder x1
  (try clear_value x1)
  extract_lets +onlyGivenNames -merge -underBinder x2
  have hx2 : OnlyIn cs s x2 := (by unfold x2; exact (by split; (next => exact (State.commitWord_only hlat h)); (next => exact h)))
  (try clear_value x2)
  exact (by split <;> first | exact (State.commitWord_only hlat hx2) | exact hx2)

theorem State.sequence_only {cs : Block → Bool} {s t : State} {a1} (hlat : cs .lat = true) (h : OnlyIn cs s t) :
    OnlyIn cs s (State.sequence t a1) := by
  unfold State.sequence
  extract_lets +onlyGivenNames -merge -underBinder x0
  have hx0 : OnlyIn cs s x0 := (State.forAll_only (fun _ _ k1 => (OnlyIn.ite (State.seqStall_only hlat k1) k1)) h)
  (try clear_value x0)
  exact (State.forAll_only (fun _ _ k2 => (OnlyIn.ite (State.seqBay_only hlat k2) k2)) hx0)

theorem State.takeLoadSteps_only {cs : Block → Bool} {s t : State} {a1} (hsums : cs .sums = true) (hstl : cs .stl = true) (hstalls : ∀ i, cs (.stall
      i) = true) (hmkt : cs .mkt = true) (h : OnlyIn cs s t) :
    OnlyIn cs s (State.takeLoadSteps t a1) := by
  unfold State.takeLoadSteps
  extract_lets +onlyGivenNames -merge -underBinder x0
  (try clear_value x0)
  extract_lets +onlyGivenNames -merge -underBinder x1 x2 x3
  have hx3 : OnlyIn cs s x3 := (State.bumpIf_only hsums (OnlyIn.mk h (.inr (by rfl)) (.inr (by rfl)) (.inr (by rfl)) (.inr (by rfl)) (.inr (by rfl))
        (.inr (by rfl)) ⟨.inr (by rfl), .inr (by rfl), .inr (by rfl), .inr (by rfl)⟩ (.inr (by rfl)) (.inr (by rfl)) (.inr (by rfl)) (.inr (by rfl))
        (.inr (by rfl)) ⟨.inr (by rfl), .inl hstl⟩ (.inr (by rfl)) (.inr (by rfl)) (.inl hmkt) (.inr (by rfl)) (.inr (by rfl)) (.inr (by rfl)) (.inr
        (by rfl)) ⟨.inr (by rfl), .inr (by rfl)⟩ (.inr (by rfl)) (.inr (by rfl)) (.inr (by rfl)) ⟨.inr (by rfl), .inr (by rfl)⟩ (.inr (by rfl))))
  (try clear_value x2)
  (try clear_value x3)
  exact (State.forAll_only (fun _ _ k4 => (OnlyIn.ite
        (by extract_lets +onlyGivenNames -merge -underBinder x5 x6; have hx6 : OnlyIn cs s x6 := (OnlyIn.setMkt hmkt k4); (try clear_value x5); (try clear_value x6); exact (by extract_lets +onlyGivenNames -merge -underBinder x7; (try clear_value x7); exact (OnlyIn.foldl (fun _ _ k8 => (State.mapCells_only (hstalls _) k8)) hx6)))
        k4)) hx3)

theorem State.closePitch_only {cs : Block → Bool} {s t : State} {a1 a2 a3 a4} (hsums : cs .sums = true) (hlat : cs .lat = true) (hstl : cs .stl =
      true) (hstalls : ∀ i, cs (.stall i) = true) (hmkt : cs .mkt = true) (hpair : cs .pair = true) (h : OnlyIn cs s t) :
    OnlyIn cs s (State.closePitch t a1 a2 a3 a4) := by
  unfold State.closePitch
  extract_lets +onlyGivenNames -merge -underBinder x0
  have hx0 : OnlyIn cs s x0 := (State.forAll_only (fun _ _ k1 => (State.spread_only hstalls k1)) h)
  (try clear_value x0)
  extract_lets +onlyGivenNames -merge -underBinder x2
  have hx2 : OnlyIn cs s x2 := (State.forAll_only (fun _ _ k3 => (State.sendFrame_only (hstalls _) k3)) hx0)
  (try clear_value x2)
  exact (State.keepPitchDigest_only hpair (State.sequence_only hlat (State.takeLoadSteps_only hsums hstl hstalls hmkt (State.armTimeouts_only hstalls
        hmkt hx2))))

theorem State.committedTile_only {cs : Block → Bool} {s t : State} {a1} (hlat : cs .lat = true) (h : OnlyIn cs s t) :
    OnlyIn cs s (State.committedTile t a1) := by
  unfold State.committedTile
  exact (by split; (next => exact (OnlyIn.ite h (OnlyIn.setLat hlat h))); (next => exact h))

theorem State.countSkips_only {cs : Block → Bool} {s t : State} {a1 a2} (hsaf : cs .saf = true) (h : OnlyIn cs s t) :
    OnlyIn cs s (State.countSkips t a1 a2) := by
  unfold State.countSkips
  extract_lets +onlyGivenNames -merge -underBinder x0
  (try clear_value x0)
  exact (OnlyIn.ite (by extract_lets +onlyGivenNames -merge -underBinder x1; (try clear_value x1); exact (State.setSs_only hsaf h)) h)

theorem State.setQuarter_only {cs : Block → Bool} {s t : State} {a1 a2} (hlat : cs .lat = true) (h : OnlyIn cs s t) :
    OnlyIn cs s (State.setQuarter t a1 a2) := by
  unfold State.setQuarter
  exact (OnlyIn.setLat hlat h)

theorem State.setLane_only {cs : Block → Bool} {s t : State} {a1 a2} (hlat : cs .lat = true) (h : OnlyIn cs s t) :
    OnlyIn cs s (State.setLane t a1 a2) := by
  unfold State.setLane
  exact (OnlyIn.setLat hlat h)

theorem State.memEvent_only {cs : Block → Bool} {s t : State} {a1} (hsums : cs .sums = true) (hlat : cs .lat = true) (hcapture : cs .capture = true)
      (hqueues : cs .queues = true) (h : OnlyIn cs s t) :
    OnlyIn cs s (State.memEvent t a1) := by
  unfold State.memEvent
  exact (OnlyIn.ite h (OnlyIn.ite (State.setQuarter_only hlat h)
        (by extract_lets +onlyGivenNames -merge -underBinder x0; have hx0 : OnlyIn cs s x0 := (State.setLane_only hlat h); (try clear_value x0); exact (by split; (next => exact (OnlyIn.setLat hlat hx0)); (next => exact (OnlyIn.ite hx0 (by extract_lets +onlyGivenNames -merge -underBinder x1; have hx1 : OnlyIn cs s x1 := (State.setQuarter_only hlat hx0); (try clear_value x1); exact (by extract_lets +onlyGivenNames -merge -underBinder x2; (try clear_value x2); exact (by extract_lets +onlyGivenNames -merge -underBinder x3 x4; have hx4 : OnlyIn cs s x4 := (OnlyIn.setLat hlat hx1); (try clear_value x3); (try clear_value x4); exact (OnlyIn.ite hx4 (State.log_only hsums hcapture hqueues hx4)))))))))))

theorem State.overrunStop_only {cs : Block → Bool} {s t : State} {a1} (hsums : cs .sums = true) (hlat : cs .lat = true) (hcapture : cs .capture =
      true) (hstl : cs .stl = true) (hstalls : ∀ i, cs (.stall i) = true) (hqueues : cs .queues = true) (h : OnlyIn cs s t) :
    OnlyIn cs s (State.overrunStop t a1) := by
  unfold State.overrunStop
  extract_lets +onlyGivenNames -merge -underBinder x0
  have hx0 : OnlyIn cs s x0 := (State.setQuarter_only hlat h)
  (try clear_value x0)
  extract_lets +onlyGivenNames -merge -underBinder x1
  have hx1 : OnlyIn cs s x1 :=
        (by unfold x1; exact (by split; (next => exact (State.requestStop_only (hstalls _) hx0)); (next => exact (OnlyIn.setStl ⟨.inr (by rfl), .inl hstl⟩ hx0))))
  (try clear_value x1)
  exact (State.logAt_only hsums hcapture hqueues hx1)

theorem State.overrun_only {cs : Block → Bool} {s t : State} {a1 a2} (hsums : cs .sums = true) (hlat : cs .lat = true) (hcapture : cs .capture = true)
      (hstl : cs .stl = true) (hstalls : ∀ i, cs (.stall i) = true) (hqueues : cs .queues = true) (h : OnlyIn cs s t) :
    OnlyIn cs s (State.overrun t a1 a2) := by
  unfold State.overrun
  extract_lets +onlyGivenNames -merge -underBinder x0
  (try clear_value x0)
  extract_lets +onlyGivenNames -merge -underBinder x1 x2
  have hx2 : OnlyIn cs s x2 := (OnlyIn.setLat hlat h)
  (try clear_value x1)
  (try clear_value x2)
  extract_lets +onlyGivenNames -merge -underBinder x3 x4
  have hx4 : OnlyIn cs s x4 := (by unfold x4; exact (OnlyIn.ite hx2 (OnlyIn.setLat hlat hx2)))
  (try clear_value x3)
  (try clear_value x4)
  extract_lets +onlyGivenNames -merge -underBinder x5
  have hx5 : OnlyIn cs s x5 := (by unfold x5; exact (OnlyIn.ite (State.logAt_only hsums hcapture hqueues hx4) hx4))
  (try clear_value x5)
  extract_lets +onlyGivenNames -merge -underBinder x6 x7
  have hx7 : OnlyIn cs s x7 := (by unfold x7; exact (OnlyIn.ite (OnlyIn.setLat hlat hx5) hx5))
  (try clear_value x6)
  (try clear_value x7)
  exact (OnlyIn.ite (State.overrunStop_only hsums hlat hcapture hstl hstalls hqueues hx7) hx7)

theorem State.laneEnd_only {cs : Block → Bool} {s t : State} {a1 a2 a3 a4} (hsums : cs .sums = true) (hlat : cs .lat = true) (h : OnlyIn cs s t) :
    OnlyIn cs s (State.laneEnd t a1 a2 a3 a4) := by
  unfold State.laneEnd
  extract_lets +onlyGivenNames -merge -underBinder x0
  have hx0 : OnlyIn cs s x0 := (State.setLane_only hlat h)
  (try clear_value x0)
  extract_lets +onlyGivenNames -merge -underBinder x1 x2
  have hx2 : OnlyIn cs s x2 := (by unfold x2; exact (OnlyIn.ite (OnlyIn.setLat hlat hx0) hx0))
  (try clear_value x1)
  (try clear_value x2)
  exact (OnlyIn.ite
        (by extract_lets +onlyGivenNames -merge -underBinder x3; have hx3 : OnlyIn cs s x3 := (State.setQuarter_only hlat hx2); (try clear_value x3); exact (State.bump_only hsums (OnlyIn.setLat hlat hx3)))
        hx2)

theorem State.judgeTiles_only {cs : Block → Bool} {s t : State} {a1 a2 a3 a4} (hsums : cs .sums = true) (hlat : cs .lat = true) (hcapture : cs
      .capture = true) (hstl : cs .stl = true) (hstalls : ∀ i, cs (.stall i) = true) (hqueues : cs .queues = true) (h : OnlyIn cs s t) :
    OnlyIn cs s (State.judgeTiles t a1 a2 a3 a4) := by
  unfold State.judgeTiles
  extract_lets +onlyGivenNames -merge -underBinder x0
  have hx0 : OnlyIn cs s x0 := (OnlyIn.foldl (fun _ _ k1 => (OnlyIn.ite (State.committedTile_only hlat k1) (State.overrun_only hsums hlat hcapture
        hstl hstalls hqueues k1))) h)
  (try clear_value x0)
  exact (OnlyIn.foldl (fun _ _ k2 => (by split; (next => exact (State.laneEnd_only hsums hlat k2)); (next => exact k2))) hx0)

theorem State.sendCapture_only {cs : Block → Bool} {s t : State} (hpair : cs .pair = true) (h : OnlyIn cs s t) :
    OnlyIn cs s (State.sendCapture t) := by
  unfold State.sendCapture
  exact (OnlyIn.ite
        (by extract_lets +onlyGivenNames -merge -underBinder x0 x1 x2; have hx2 : OnlyIn cs s x2 := (OnlyIn.setPair ⟨.inr (by rfl), .inl hpair⟩ h); (try clear_value x1); (try clear_value x2); exact (State.sendSeljo_only hpair hx2))
        h)

theorem State.startCopy_only {cs : Block → Bool} {s t : State} (hsums : cs .sums = true) (hlat : cs .lat = true) (h : OnlyIn cs s t) :
    OnlyIn cs s (State.startCopy t) := by
  unfold State.startCopy
  exact
        (by split; (next => exact (by extract_lets +onlyGivenNames -merge -underBinder x0; (try clear_value x0); exact (OnlyIn.ite (State.bumpIf_only hsums (OnlyIn.setLat hlat h)) h))); (next => exact h))

theorem State.endPitch_only {cs : Block → Bool} {s t : State} {a1 a2 a3} (hsums : cs .sums = true) (hlat : cs .lat = true) (hcapture : cs .capture =
      true) (hstl : cs .stl = true) (hstalls : ∀ i, cs (.stall i) = true) (hmkt : cs .mkt = true) (hpair : cs .pair = true) (hqueues : cs .queues =
      true) (h : OnlyIn cs s t) :
    OnlyIn cs s (State.endPitch t a1 a2 a3) := by
  unfold State.endPitch
  extract_lets +onlyGivenNames -merge -underBinder x0
  (try clear_value x0)
  extract_lets +onlyGivenNames -merge -underBinder x1
  (try clear_value x1)
  extract_lets +onlyGivenNames -merge -underBinder x2
  (try clear_value x2)
  extract_lets +onlyGivenNames -merge -underBinder x3 x4
  have hx4 : OnlyIn cs s x4 := (OnlyIn.setLat hlat h)
  (try clear_value x3)
  (try clear_value x4)
  extract_lets +onlyGivenNames -merge -underBinder x5
  have hx5 : OnlyIn cs s x5 := (OnlyIn.foldl (fun _ _ k6 => (State.memEvent_only hsums hlat hcapture hqueues k6)) hx4)
  (try clear_value x5)
  extract_lets +onlyGivenNames -merge -underBinder x7
  have hx7 : OnlyIn cs s x7 := (State.cleanReads_only hlat hx5)
  (try clear_value x7)
  extract_lets +onlyGivenNames -merge -underBinder x8
  have hx8 : OnlyIn cs s x8 := (State.judgeTiles_only hsums hlat hcapture hstl hstalls hqueues hx7)
  (try clear_value x8)
  exact (State.sendCapture_only hpair (State.startCopy_only hsums hlat (State.closePitch_only hsums hlat hstl hstalls hmkt hpair hx8)))

theorem State.takeLane_only {cs : Block → Bool} {s t : State} {a1 a2 a3} (hstall3 : cs (.stall a3) = true) (h : OnlyIn cs s t) :
    OnlyIn cs s (State.takeLane t a1 a2 a3) := by
  unfold State.takeLane
  exact (OnlyIn.ite
        (by extract_lets +onlyGivenNames -merge -underBinder x0; (try clear_value x0); exact (State.setStall_only (fun _ => ⟨.inr (by rfl), .inr (by rfl), .inl hstall3⟩) h))
        h)

theorem State.takeWords_only {cs : Block → Bool} {s t : State} {a1} (hlat : cs .lat = true) (h : OnlyIn cs s t) :
    OnlyIn cs s (State.takeWords t a1) := by
  unfold State.takeWords
  extract_lets +onlyGivenNames -merge -underBinder x0
  extract_lets +onlyGivenNames -merge -underBinder x1
  (try clear_value x1)
  exact (OnlyIn.setLat hlat h)

theorem State.takeOver_only {cs : Block → Bool} {s t : State} {a1 a2} (hsums : cs .sums = true) (hlat : cs .lat = true) (hstalls : ∀ i, cs (.stall i)
      = true) (hmkt : cs .mkt = true) (hsaf : cs .saf = true) (h : OnlyIn cs s t) :
    OnlyIn cs s (State.takeOver t a1 a2) := by
  unfold State.takeOver
  extract_lets +onlyGivenNames -merge -underBinder x0
  have hx0 : OnlyIn cs s x0 := (State.forAll_only (fun _ _ k1 => (State.ssTake_only hsums hstalls hmkt hsaf k1)) h)
  (try clear_value x0)
  extract_lets +onlyGivenNames -merge -underBinder x2
  have hx2 : OnlyIn cs s x2 := (State.forAll_only (fun _ _ k3 => (State.takeLane_only (hstalls _) k3)) hx0)
  (try clear_value x2)
  exact (State.takeWords_only hlat hx2)

theorem State.openWindow_only {cs : Block → Bool} {s t : State} {a1 a2 a3} (hsums : cs .sums = true) (hlat : cs .lat = true) (hlinks : ∀ i, cs (.link
      i) = true) (hstalls : ∀ i, cs (.stall i) = true) (hmkt : cs .mkt = true) (hsaf : cs .saf = true) (h : OnlyIn cs s t) :
    OnlyIn cs s (State.openWindow t a1 a2 a3) := by
  unfold State.openWindow
  extract_lets +onlyGivenNames -merge -underBinder x0
  have hx0 : OnlyIn cs s x0 := (State.bumpIf_only hsums (State.forAll_only (fun _ _ k1 => (State.setSs_only hsaf (State.countSkips_only hsaf k1))) h))
  (try clear_value x0)
  extract_lets +onlyGivenNames -merge -underBinder x2 x3
  have hx3 : OnlyIn cs s x3 := (OnlyIn.setLat hlat hx0)
  (try clear_value x2)
  (try clear_value x3)
  extract_lets +onlyGivenNames -merge -underBinder x4
  have hx4 : OnlyIn cs s x4 := (State.takeOver_only hsums hlat hstalls hmkt hsaf hx3)
  (try clear_value x4)
  exact (OnlyIn.ite hx4 (State.sendMstAll_only hlinks hx4))

theorem State.retake_only {cs : Block → Bool} {s t : State} (hsums : cs .sums = true) (hlat : cs .lat = true) (hstalls : ∀ i, cs (.stall i) = true)
      (hmkt : cs .mkt = true) (hsaf : cs .saf = true) (h : OnlyIn cs s t) :
    OnlyIn cs s (State.retake t) := by
  unfold State.retake
  exact (OnlyIn.ite (State.takeOver_only hsums hlat hstalls hmkt hsaf h) h)

theorem State.sendPitch_only {cs : Block → Bool} {s t : State} {a1} (hpair : cs .pair = true) (h : OnlyIn cs s t) :
    OnlyIn cs s (State.sendPitch t a1) := by
  unfold State.sendPitch
  exact (OnlyIn.ite (State.sendSeljo_only hpair h) h)

theorem doPitchBoundary_only {cs : Block → Bool} {s t : State} {a0} (hmt : cs .mt = true) (hsums : cs .sums = true) (hlat : cs .lat = true) (hstalls :
      ∀ i, cs (.stall i) = true) (hsaf : cs .saf = true) (h : OnlyIn cs s t) :
    OnlyIn cs s (doPitchBoundary a0 t) := by
  unfold doPitchBoundary
  exact (whenLive_only hmt (fun _ k0 => (OnlyIn.ite
        (by extract_lets +onlyGivenNames -merge -underBinder x1 x2; have hx2 : OnlyIn cs s x2 := (OnlyIn.setLat hlat k0); (try clear_value x1); (try clear_value x2); exact (by extract_lets +onlyGivenNames -merge -underBinder x3; have hx3 : OnlyIn cs s x3 := (State.forAll_only (fun _ _ k4 => (OnlyIn.ite (State.setStall_only (fun _ => ⟨.inr (by rfl), .inr (by rfl), .inl (hstalls _)⟩) k4) k4)) hx2); (try clear_value x3); exact (State.forAll_only (fun _ _ k5 => (State.ssBoundary_only hsums hsaf k5)) hx3)))
        k0)) h)

end Sys2Proof.Machine
end

