-- ==== Sys2Proof/Laws/FrameBay.lean ====
section
/-! SUPPORT. What every operation of sessions, cooling, auxiliaries and metrology may change. -/
namespace Sys2Proof.Machine

theorem State.setSess_only {cs : Block → Bool} {s t : State} {a1 a2} (hbay1 : cs (.bay a1) = true) (h : OnlyIn cs s t) :
    OnlyIn cs s (State.setSess t a1 a2) := by
  unfold State.setSess
  exact (State.setBay_only (fun _ => ⟨.inr (by rfl), .inr (by rfl), .inl hbay1⟩) h)

theorem State.armSequence_only {cs : Block → Bool} {s t : State} {a1} (hbay1 : cs (.bay a1) = true) (h : OnlyIn cs s t) :
    OnlyIn cs s (State.armSequence t a1) := by
  unfold State.armSequence
  exact (State.setSess_only hbay1 h)

theorem State.answerSession_only {cs : Block → Bool} {s t : State} {a1} (hbay1 : cs (.bay a1) = true) (h : OnlyIn cs s t) :
    OnlyIn cs s (State.answerSession t a1) := by
  unfold State.answerSession
  exact (State.setSess_only hbay1 (State.armSequence_only hbay1 h))

theorem State.goSess_only {cs : Block → Bool} {s t : State} {a1 a2} (hsums : cs .sums = true) (hbay1 : cs (.bay a1) = true) (h : OnlyIn cs s t) :
    OnlyIn cs s (State.goSess t a1 a2) := by
  unfold State.goSess
  extract_lets +onlyGivenNames -merge -underBinder x0
  (try clear_value x0)
  exact (State.bump_only hsums (State.setSess_only hbay1 h))

theorem State.endWith_only {cs : Block → Bool} {s t : State} {a1 a2} (hbay1 : cs (.bay a1) = true) (h : OnlyIn cs s t) :
    OnlyIn cs s (State.endWith t a1 a2) := by
  unfold State.endWith
  extract_lets +onlyGivenNames -merge -underBinder x0
  (try clear_value x0)
  exact (OnlyIn.ite (State.setBay_only (fun _ => ⟨.inr (by rfl), .inr (by rfl), .inl hbay1⟩) (State.setSess_only hbay1 h)) h)

theorem State.enterClosing_only {cs : Block → Bool} {s t : State} {a1 a2} (hsums : cs .sums = true) (hbay1 : cs (.bay a1) = true) (h : OnlyIn cs s t)
      :
    OnlyIn cs s (State.enterClosing t a1 a2) := by
  unfold State.enterClosing
  exact (State.goSess_only hsums hbay1 (State.setSess_only hbay1 (State.endWith_only hbay1 h)))

theorem State.refuseAuth_only {cs : Block → Bool} {s t : State} {a1} (hsums : cs .sums = true) (hbay1 : cs (.bay a1) = true) (h : OnlyIn cs s t) :
    OnlyIn cs s (State.refuseAuth t a1) := by
  unfold State.refuseAuth
  exact (State.enterClosing_only hsums hbay1 h)

theorem State.authDeny_only {cs : Block → Bool} {s t : State} {a1} (hsums : cs .sums = true) (hbay1 : cs (.bay a1) = true) (h : OnlyIn cs s t) :
    OnlyIn cs s (State.authDeny t a1) := by
  unfold State.authDeny
  exact (OnlyIn.ite (State.refuseAuth_only hsums hbay1 h) h)

theorem State.grantAuth_only {cs : Block → Bool} {s t : State} {a1} (hsums : cs .sums = true) (hbay1 : cs (.bay a1) = true) (h : OnlyIn cs s t) :
    OnlyIn cs s (State.grantAuth t a1) := by
  unfold State.grantAuth
  exact (State.goSess_only hsums hbay1 (State.setSess_only hbay1 h))

theorem State.authOk_only {cs : Block → Bool} {s t : State} {a1} (hsums : cs .sums = true) (hbay1 : cs (.bay a1) = true) (h : OnlyIn cs s t) :
    OnlyIn cs s (State.authOk t a1) := by
  unfold State.authOk
  exact (OnlyIn.ite (State.grantAuth_only hsums hbay1 h) h)

theorem State.sendSession_only {cs : Block → Bool} {s t : State} {a1 a2} (hdraws : cs .draws = true) (hsums : cs .sums = true) (hviol : cs .viol =
      true) (hcapture : cs .capture = true) (hpair : cs .pair = true) (hvault : cs .vault = true) (hqueues : cs .queues = true) (h : OnlyIn cs s t) :
    OnlyIn cs s (State.sendSession t a1 a2) := by
  unfold State.sendSession
  extract_lets +onlyGivenNames -merge -underBinder x0
  have hx0 : OnlyIn cs s x0.2 := (State.drawBytes_only hdraws (State.serveUse_only hsums hviol hcapture hvault hqueues h))
  (try clear_value x0)
  extract_lets +onlyGivenNames -merge -underBinder x1
  (try clear_value x1)
  exact (State.sendSeljo_only hpair hx0)

theorem State.tellSession_only {cs : Block → Bool} {s t : State} {a1} (hdraws : cs .draws = true) (hsums : cs .sums = true) (hviol : cs .viol = true)
      (hcapture : cs .capture = true) (hpair : cs .pair = true) (hvault : cs .vault = true) (hqueues : cs .queues = true) (h : OnlyIn cs s t) :
    OnlyIn cs s (State.tellSession t a1) := by
  unfold State.tellSession
  exact
        (by split; (next => exact (State.sendSession_only hdraws hsums hviol hcapture hpair hvault hqueues h)); (next => exact (OnlyIn.ite (State.serveUse_only hsums hviol hcapture hvault hqueues h) h)))

theorem State.sendResp_only {cs : Block → Bool} {s t : State} {a1 a2} (hbay1 : cs (.bay a1) = true) (h : OnlyIn cs s t) :
    OnlyIn cs s (State.sendResp t a1 a2) := by
  unfold State.sendResp
  exact (State.setBay_only (fun _ => ⟨.inr (by rfl), .inr (by rfl), .inl hbay1⟩) (State.armSequence_only hbay1 h))

theorem State.respond_only {cs : Block → Bool} {s t : State} {a1 a2} (hdraws : cs .draws = true) (hsums : cs .sums = true) (hviol : cs .viol = true)
      (hcapture : cs .capture = true) (hbay1 : cs (.bay a1) = true) (hpair : cs .pair = true) (hvault : cs .vault = true) (hqueues : cs .queues =
      true) (h : OnlyIn cs s t) :
    OnlyIn cs s (State.respond t a1 a2) := by
  unfold State.respond
  extract_lets +onlyGivenNames -merge -underBinder x0
  have hx0 : OnlyIn cs s x0 := (State.tellSession_only hdraws hsums hviol hcapture hpair hvault hqueues (State.answerSession_only hbay1 h))
  (try clear_value x0)
  exact (OnlyIn.ite (State.setBay_only (fun _ => ⟨.inr (by rfl), .inr (by rfl), .inl hbay1⟩) hx0) (State.sendResp_only hbay1 hx0))

theorem State.grantNow_only {cs : Block → Bool} {s t : State} {a1} (hdraws : cs .draws = true) (hsums : cs .sums = true) (hviol : cs .viol = true)
      (hcapture : cs .capture = true) (hbay1 : cs (.bay a1) = true) (hpair : cs .pair = true) (hvault : cs .vault = true) (hqueues : cs .queues =
      true) (h : OnlyIn cs s t) :
    OnlyIn cs s (State.grantNow t a1) := by
  unfold State.grantNow
  exact (State.respond_only hdraws hsums hviol hcapture hbay1 hpair hvault hqueues (State.setSess_only hbay1 (State.grantAuth_only hsums hbay1 h)))

theorem State.pendAuth_only {cs : Block → Bool} {s t : State} {a1} (hdraws : cs .draws = true) (hsums : cs .sums = true) (hviol : cs .viol = true)
      (hcapture : cs .capture = true) (hbay1 : cs (.bay a1) = true) (hpair : cs .pair = true) (hvault : cs .vault = true) (hqueues : cs .queues =
      true) (h : OnlyIn cs s t) :
    OnlyIn cs s (State.pendAuth t a1) := by
  unfold State.pendAuth
  exact (State.respond_only hdraws hsums hviol hcapture hbay1 hpair hvault hqueues (State.bump_only hsums (State.setSess_only hbay1 h)))

theorem State.verifyChain_only {cs : Block → Bool} {s t : State} {a1 a2} (hsums : cs .sums = true) (hviol : cs .viol = true) (hcapture : cs .capture =
      true) (hvault : cs .vault = true) (hqueues : cs .queues = true) (h : OnlyIn cs s t) :
    OnlyIn cs s (State.verifyChain t a1 a2).2 := by
  unfold State.verifyChain
  extract_lets +onlyGivenNames -merge -underBinder x0
  have hx0 : OnlyIn cs s x0.2 := (State.useKey_only hsums hviol hcapture hvault hqueues h)
  (try clear_value x0)
  exact (by split; (next => exact (OnlyIn.pairSnd hx0)); (next => exact (OnlyIn.pairSnd hx0)))

theorem State.authorise_only {cs : Block → Bool} {s t : State} {a1 a2} (hdraws : cs .draws = true) (hsums : cs .sums = true) (hviol : cs .viol = true)
      (hcapture : cs .capture = true) (hbay1 : cs (.bay a1) = true) (hpair : cs .pair = true) (hvault : cs .vault = true) (hqueues : cs .queues =
      true) (h : OnlyIn cs s t) :
    OnlyIn cs s (State.authorise t a1 a2) := by
  unfold State.authorise
  extract_lets +onlyGivenNames -merge -underBinder x0
  exact
        (by split; (next => exact (OnlyIn.ite (State.respond_only hdraws hsums hviol hcapture hbay1 hpair hvault hqueues h) (by extract_lets +onlyGivenNames -merge -underBinder x1; have hx1 : OnlyIn cs s x1 := (State.goSess_only hsums hbay1 (State.setSess_only hbay1 h)); (try clear_value x1); exact (OnlyIn.ite (State.grantNow_only hdraws hsums hviol hcapture hbay1 hpair hvault hqueues hx1) (State.pendAuth_only hdraws hsums hviol hcapture hbay1 hpair hvault hqueues hx1))))); (next => exact (OnlyIn.ite (State.respond_only hdraws hsums hviol hcapture hbay1 hpair hvault hqueues h) (by extract_lets +onlyGivenNames -merge -underBinder x2; have hx2 : OnlyIn cs s x2 := (State.goSess_only hsums hbay1 (State.setSess_only hbay1 h)); (try clear_value x2); exact (by extract_lets +onlyGivenNames -merge -underBinder x3; have hx3 : OnlyIn cs s x3.2 := (State.verifyChain_only hsums hviol hcapture hvault hqueues hx2); (try clear_value x3); exact (OnlyIn.ite (State.respond_only hdraws hsums hviol hcapture hbay1 hpair hvault hqueues (State.refuseAuth_only hsums hbay1 hx3)) (OnlyIn.ite (State.pendAuth_only hdraws hsums hviol hcapture hbay1 hpair hvault hqueues hx3) (State.grantNow_only hdraws hsums hviol hcapture hbay1 hpair hvault hqueues hx3))))))))

theorem State.commitTarget_only {cs : Block → Bool} {s t : State} {a1 a2 a3} (hlat : cs .lat = true) (h : OnlyIn cs s t) :
    OnlyIn cs s (State.commitTarget t a1 a2 a3) := by
  unfold State.commitTarget
  exact (by split; (next => exact (State.commitWord_only hlat h)); (next => exact h))

theorem State.writeTarget_only {cs : Block → Bool} {s t : State} {a1 a2} (hlat : cs .lat = true) (hbay1 : cs (.bay a1) = true) (h : OnlyIn cs s t) :
    OnlyIn cs s (State.writeTarget t a1 a2) := by
  unfold State.writeTarget
  exact (State.commitTarget_only hlat (State.setSess_only hbay1 h))

theorem State.enterRampDown_only {cs : Block → Bool} {s t : State} {a1 a2} (hsums : cs .sums = true) (hlat : cs .lat = true) (hbay1 : cs (.bay a1) =
      true) (h : OnlyIn cs s t) :
    OnlyIn cs s (State.enterRampDown t a1 a2) := by
  unfold State.enterRampDown
  exact (State.goSess_only hsums hbay1 (State.writeTarget_only hlat hbay1 (State.setSess_only hbay1 (State.endWith_only hbay1 h))))

theorem State.wind_only {cs : Block → Bool} {s t : State} {a1 a2} (hsums : cs .sums = true) (hlat : cs .lat = true) (hbay1 : cs (.bay a1) = true) (h :
      OnlyIn cs s t) :
    OnlyIn cs s (State.wind t a1 a2) := by
  unfold State.wind
  exact
        (by split; (next => exact h); (next => exact (OnlyIn.ite (OnlyIn.ite h (State.enterRampDown_only hsums hlat hbay1 h)) (OnlyIn.ite h (State.enterClosing_only hsums hbay1 h)))))

theorem State.badMessage_only {cs : Block → Bool} {s t : State} {a1 a2} (hdraws : cs .draws = true) (hsums : cs .sums = true) (hviol : cs .viol =
      true) (hlat : cs .lat = true) (hcapture : cs .capture = true) (hbay1 : cs (.bay a1) = true) (hpair : cs .pair = true) (hvault : cs .vault =
      true) (hqueues : cs .queues = true) (h : OnlyIn cs s t) :
    OnlyIn cs s (State.badMessage t a1 a2) := by
  unfold State.badMessage
  extract_lets +onlyGivenNames -merge -underBinder x0
  have hx0 : OnlyIn cs s x0 := (State.setBay_only (fun _ => ⟨.inr (by rfl), .inr (by rfl), .inl hbay1⟩) h)
  (try clear_value x0)
  exact (State.respond_only hdraws hsums hviol hcapture hbay1 hpair hvault hqueues (State.wind_only hsums hlat hbay1 hx0))

theorem State.bayClear_only {cs : Block → Bool} {s t : State} {a1} (hbay1 : cs (.bay a1) = true) (h : OnlyIn cs s t) :
    OnlyIn cs s (State.bayClear t a1) := by
  unfold State.bayClear
  exact (State.setBay_only (fun _ => ⟨.inr (by rfl), .inr (by rfl), .inl hbay1⟩) h)

theorem State.enterFault_only {cs : Block → Bool} {s t : State} {a1 a2} (hsums : cs .sums = true) (hlat : cs .lat = true) (hcapture : cs .capture =
      true) (hstalls : ∀ i, cs (.stall i) = true) (hbay1 : cs (.bay a1) = true) (hmkt : cs .mkt = true) (hsaf : cs .saf = true) (hqueues : cs .queues
      = true) (h : OnlyIn cs s t) :
    OnlyIn cs s (State.enterFault t a1 a2) := by
  unfold State.enterFault
  extract_lets +onlyGivenNames -merge -underBinder x0
  have hx0 : OnlyIn cs s x0 := (State.setSess_only hbay1 (State.endWith_only hbay1 h))
  (try clear_value x0)
  extract_lets +onlyGivenNames -merge -underBinder x1
  have hx1 : OnlyIn cs s x1 := (State.goSess_only hsums hbay1 (State.setBay_only (fun _ => ⟨.inr (by rfl), .inr (by rfl), .inl hbay1⟩) hx0))
  (try clear_value x1)
  exact (OnlyIn.ite (State.requestSafeStop_only hsums hlat hcapture hstalls hmkt hsaf hqueues hx1) hx1)

theorem State.checkInsulation_only {cs : Block → Bool} {s t : State} {a1} (hsums : cs .sums = true) (hlat : cs .lat = true) (hcapture : cs .capture =
      true) (hstalls : ∀ i, cs (.stall i) = true) (hbay1 : cs (.bay a1) = true) (hmkt : cs .mkt = true) (hsaf : cs .saf = true) (hqueues : cs .queues
      = true) (h : OnlyIn cs s t) :
    OnlyIn cs s (State.checkInsulation t a1) := by
  unfold State.checkInsulation
  exact (OnlyIn.ite (State.enterFault_only hsums hlat hcapture hstalls hbay1 hmkt hsaf hqueues h) h)

theorem State.commandOutlet_only {cs : Block → Bool} {s t : State} {a1 a2} (hsums : cs .sums = true) (houtlet1 : cs (.outlet a1) = true) (h : OnlyIn
      cs s t) :
    OnlyIn cs s (State.commandOutlet t a1 a2) := by
  unfold State.commandOutlet
  exact (OnlyIn.ite h (State.bump_only hsums (State.setBay_only (fun _ => ⟨.inl houtlet1, .inr (by rfl), .inr (by rfl)⟩) h)))

theorem State.contactorFail_only {cs : Block → Bool} {s t : State} {a1} (hsums : cs .sums = true) (hlat : cs .lat = true) (hcapture : cs .capture =
      true) (hstalls : ∀ i, cs (.stall i) = true) (houtlet1 : cs (.outlet a1) = true) (hbay1 : cs (.bay a1) = true) (hmkt : cs .mkt = true) (hsaf : cs
      .saf = true) (hqueues : cs .queues = true) (h : OnlyIn cs s t) :
    OnlyIn cs s (State.contactorFail t a1) := by
  unfold State.contactorFail
  exact (OnlyIn.ite h
        (by extract_lets +onlyGivenNames -merge -underBinder x0; have hx0 : OnlyIn cs s x0 := (State.setBay_only (fun _ => ⟨.inl houtlet1, .inr (by rfl), .inr (by rfl)⟩) h); (try clear_value x0); exact (by extract_lets +onlyGivenNames -merge -underBinder x1; have hx1 : OnlyIn cs s x1 := (State.requestSafeStop_only hsums hlat hcapture hstalls hmkt hsaf hqueues hx0); (try clear_value x1); exact (OnlyIn.ite hx1 (State.enterFault_only hsums hlat hcapture hstalls hbay1 hmkt hsaf hqueues hx1)))))

theorem State.enterEnded_only {cs : Block → Bool} {s t : State} {a1 a2} (hsums : cs .sums = true) (hcapture : cs .capture = true) (houtlet1 : cs
      (.outlet a1) = true) (hbay1 : cs (.bay a1) = true) (hqueues : cs .queues = true) (h : OnlyIn cs s t) :
    OnlyIn cs s (State.enterEnded t a1 a2) := by
  unfold State.enterEnded
  extract_lets +onlyGivenNames -merge -underBinder x0
  have hx0 : OnlyIn cs s x0 := (State.setSess_only hbay1 (State.endWith_only hbay1 h))
  (try clear_value x0)
  extract_lets +onlyGivenNames -merge -underBinder x1
  have hx1 : OnlyIn cs s x1 := (State.goSess_only hsums hbay1 (State.commandOutlet_only hsums houtlet1 hx0))
  (try clear_value x1)
  exact (State.log_only hsums hcapture hqueues hx1)

theorem State.weldDone_only {cs : Block → Bool} {s t : State} {a1} (hdraws : cs .draws = true) (hsums : cs .sums = true) (hviol : cs .viol = true)
      (hcapture : cs .capture = true) (houtlet1 : cs (.outlet a1) = true) (hbay1 : cs (.bay a1) = true) (hpair : cs .pair = true) (hvault : cs .vault
      = true) (hqueues : cs .queues = true) (h : OnlyIn cs s t) :
    OnlyIn cs s (State.weldDone t a1) := by
  unfold State.weldDone
  extract_lets +onlyGivenNames -merge -underBinder x0
  (try clear_value x0)
  exact (OnlyIn.ite (OnlyIn.ite (State.enterEnded_only hsums hcapture houtlet1 hbay1 hqueues h) (OnlyIn.ite (State.respond_only hdraws hsums hviol
        hcapture hbay1 hpair hvault hqueues (State.enterClosing_only hsums hbay1 h)) h)) h)

theorem State.contactorOpen_only {cs : Block → Bool} {s t : State} {a1} (hdraws : cs .draws = true) (hsums : cs .sums = true) (hviol : cs .viol =
      true) (hlat : cs .lat = true) (hcapture : cs .capture = true) (hstalls : ∀ i, cs (.stall i) = true) (houtlet1 : cs (.outlet a1) = true) (hbay1 :
      cs (.bay a1) = true) (hmkt : cs .mkt = true) (hsaf : cs .saf = true) (hpair : cs .pair = true) (hvault : cs .vault = true) (hqueues : cs .queues
      = true) (h : OnlyIn cs s t) :
    OnlyIn cs s (State.contactorOpen t a1) := by
  unfold State.contactorOpen
  exact (OnlyIn.ite (State.enterFault_only hsums hlat hcapture hstalls hbay1 hmkt hsaf hqueues h) (State.weldDone_only hdraws hsums hviol hcapture
        houtlet1 hbay1 hpair hvault hqueues h))

theorem State.contactorTimeout_only {cs : Block → Bool} {s t : State} {a1 a2} (hsums : cs .sums = true) (hlat : cs .lat = true) (hcapture : cs
      .capture = true) (hstalls : ∀ i, cs (.stall i) = true) (houtlet2 : cs (.outlet a2) = true) (hbay2 : cs (.bay a2) = true) (hmkt : cs .mkt = true)
      (hsaf : cs .saf = true) (hqueues : cs .queues = true) (h : OnlyIn cs s t) :
    OnlyIn cs s (State.contactorTimeout t a1 a2) := by
  unfold State.contactorTimeout
  exact
        (by split; (next => exact (OnlyIn.ite (State.contactorFail_only hsums hlat hcapture hstalls houtlet2 hbay2 hmkt hsaf hqueues h) h)); (next => exact h))

theorem State.countIn_only {cs : Block → Bool} {s t : State} {a1} (hbay1 : cs (.bay a1) = true) (h : OnlyIn cs s t) :
    OnlyIn cs s (State.countIn t a1) := by
  unfold State.countIn
  exact (State.setSess_only hbay1 h)

theorem State.doomedMsg_only {cs : Block → Bool} {s t : State} {a1 a2 a3} (hdraws : cs .draws = true) (hsums : cs .sums = true) (hviol : cs .viol =
      true) (hlat : cs .lat = true) (hcapture : cs .capture = true) (hbay1 : cs (.bay a1) = true) (hpair : cs .pair = true) (hvault : cs .vault =
      true) (hqueues : cs .queues = true) (h : OnlyIn cs s t) :
    OnlyIn cs s (State.doomedMsg t a1 a2 a3) := by
  unfold State.doomedMsg
  exact (OnlyIn.ite (State.badMessage_only hdraws hsums hviol hlat hcapture hbay1 hpair hvault hqueues h) (State.tellSession_only hdraws hsums hviol
        hcapture hpair hvault hqueues h))

theorem State.enterCableCheck_only {cs : Block → Bool} {s t : State} {a1 a2} (hdraws : cs .draws = true) (hsums : cs .sums = true) (hviol : cs .viol =
      true) (hlat : cs .lat = true) (hcapture : cs .capture = true) (hstalls : ∀ i, cs (.stall i) = true) (houtlet1 : cs (.outlet a1) = true) (hbay1 :
      cs (.bay a1) = true) (hmkt : cs .mkt = true) (hsaf : cs .saf = true) (hpair : cs .pair = true) (hvault : cs .vault = true) (hqueues : cs .queues
      = true) (h : OnlyIn cs s t) :
    OnlyIn cs s (State.enterCableCheck t a1 a2) := by
  unfold State.enterCableCheck
  extract_lets +onlyGivenNames -merge -underBinder x0
  (try clear_value x0)
  extract_lets +onlyGivenNames -merge -underBinder x1
  have hx1 : OnlyIn cs s x1 := (State.goSess_only hsums hbay1 (State.setSess_only hbay1 h))
  (try clear_value x1)
  exact (OnlyIn.ite (State.respond_only hdraws hsums hviol hcapture hbay1 hpair hvault hqueues (State.enterFault_only hsums hlat hcapture hstalls
        hbay1 hmkt hsaf hqueues hx1)) (State.respond_only hdraws hsums hviol hcapture hbay1 hpair hvault hqueues (State.commandOutlet_only hsums
        houtlet1 hx1)))

theorem State.enterIdle_only {cs : Block → Bool} {s t : State} {a1} (hsums : cs .sums = true) (hbay1 : cs (.bay a1) = true) (h : OnlyIn cs s t) :
    OnlyIn cs s (State.enterIdle t a1) := by
  unfold State.enterIdle
  exact (State.bump_only hsums (State.setBay_only (fun _ => ⟨.inr (by rfl), .inr (by rfl), .inl hbay1⟩) h))

theorem State.enterSetup_only {cs : Block → Bool} {s t : State} {a1} (hsums : cs .sums = true) (hbay1 : cs (.bay a1) = true) (h : OnlyIn cs s t) :
    OnlyIn cs s (State.enterSetup t a1) := by
  unfold State.enterSetup
  exact (State.goSess_only hsums hbay1 (State.setBay_only (fun _ => ⟨.inr (by rfl), .inr (by rfl), .inl hbay1⟩) h))

theorem State.openOutlet_only {cs : Block → Bool} {s t : State} {a1} (hsums : cs .sums = true) (houtlet1 : cs (.outlet a1) = true) (h : OnlyIn cs s t)
      :
    OnlyIn cs s (State.openOutlet t a1) := by
  unfold State.openOutlet
  exact (State.setBay_only (fun _ => ⟨.inl houtlet1, .inr (by rfl), .inr (by rfl)⟩) (State.commandOutlet_only hsums houtlet1 h))

theorem State.enterWeld_only {cs : Block → Bool} {s t : State} {a1} (hsums : cs .sums = true) (houtlet1 : cs (.outlet a1) = true) (hbay1 : cs (.bay
      a1) = true) (h : OnlyIn cs s t) :
    OnlyIn cs s (State.enterWeld t a1) := by
  unfold State.enterWeld
  exact (State.goSess_only hsums hbay1 (State.openOutlet_only hsums houtlet1 h))

theorem State.leaveFault_only {cs : Block → Bool} {s t : State} {a1} (hsums : cs .sums = true) (hbay1 : cs (.bay a1) = true) (h : OnlyIn cs s t) :
    OnlyIn cs s (State.leaveFault t a1) := by
  unfold State.leaveFault
  exact (OnlyIn.ite (State.enterIdle_only hsums hbay1 h) h)

theorem State.tryStart_only {cs : Block → Bool} {s t : State} {a1} (hsums : cs .sums = true) (hbay1 : cs (.bay a1) = true) (h : OnlyIn cs s t) :
    OnlyIn cs s (State.tryStart t a1) := by
  unfold State.tryStart
  extract_lets +onlyGivenNames -merge -underBinder x0
  (try clear_value x0)
  exact (OnlyIn.ite
        (by extract_lets +onlyGivenNames -merge -underBinder x1; (try clear_value x1); exact (State.goSess_only hsums hbay1 (State.setBay_only (fun _ => ⟨.inr (by rfl), .inr (by rfl), .inl hbay1⟩) h)))
        h)

theorem State.pilotTrigger_only {cs : Block → Bool} {s t : State} {a1 a2} (hsums : cs .sums = true) (hlat : cs .lat = true) (hcapture : cs .capture =
      true) (hstalls : ∀ i, cs (.stall i) = true) (hbay1 : cs (.bay a1) = true) (hmkt : cs .mkt = true) (hsaf : cs .saf = true) (hqueues : cs .queues
      = true) (h : OnlyIn cs s t) :
    OnlyIn cs s (State.pilotTrigger t a1 a2) := by
  unfold State.pilotTrigger
  extract_lets +onlyGivenNames -merge -underBinder x0
  (try clear_value x0)
  extract_lets +onlyGivenNames -merge -underBinder x1
  (try clear_value x1)
  extract_lets +onlyGivenNames -merge -underBinder x2
  (try clear_value x2)
  extract_lets +onlyGivenNames -merge -underBinder x3
  (try clear_value x3)
  exact
        (by split; (next => exact (State.tryStart_only hsums hbay1 h)); (next => exact (State.leaveFault_only hsums hbay1 h)); (next => exact (OnlyIn.ite (State.enterIdle_only hsums hbay1 h) (OnlyIn.ite (State.leaveFault_only hsums hbay1 (State.enterFault_only hsums hlat hcapture hstalls hbay1 hmkt hsaf hqueues h)) (OnlyIn.ite (State.enterFault_only hsums hlat hcapture hstalls hbay1 hmkt hsaf hqueues h) (OnlyIn.ite (by split; (next => exact (OnlyIn.ite h (State.enterRampDown_only hsums hlat hbay1 h))); (next => exact (State.enterFault_only hsums hlat hcapture hstalls hbay1 hmkt hsaf hqueues h)); (next => exact (State.enterFault_only hsums hlat hcapture hstalls hbay1 hmkt hsaf hqueues h)); (next => exact h)) h))))))

theorem State.powerBid_only {cs : Block → Bool} {s t : State} {a1 a2} (hlat : cs .lat = true) (hbay1 : cs (.bay a1) = true) (h : OnlyIn cs s t) :
    OnlyIn cs s (State.powerBid t a1 a2) := by
  unfold State.powerBid
  extract_lets +onlyGivenNames -merge -underBinder x0
  (try clear_value x0)
  extract_lets +onlyGivenNames -merge -underBinder x1
  (try clear_value x1)
  extract_lets +onlyGivenNames -merge -underBinder x2
  have hx2 : OnlyIn cs s x2 := (State.setSess_only hbay1 h)
  (try clear_value x2)
  extract_lets +onlyGivenNames -merge -underBinder x3
  (try clear_value x3)
  exact (State.writeTarget_only hlat hbay1 hx2)

theorem State.precharge_only {cs : Block → Bool} {s t : State} {a1 a2 a3} (hdraws : cs .draws = true) (hsums : cs .sums = true) (hviol : cs .viol =
      true) (hlat : cs .lat = true) (hcapture : cs .capture = true) (hbay1 : cs (.bay a1) = true) (hpair : cs .pair = true) (hvault : cs .vault =
      true) (hqueues : cs .queues = true) (h : OnlyIn cs s t) :
    OnlyIn cs s (State.precharge t a1 a2 a3) := by
  unfold State.precharge
  extract_lets +onlyGivenNames -merge -underBinder x0
  have hx0 : OnlyIn cs s x0 := (State.setSess_only hbay1 h)
  (try clear_value x0)
  exact (State.respond_only hdraws hsums hviol hcapture hbay1 hpair hvault hqueues (State.writeTarget_only hlat hbay1 hx0))

theorem State.rampedDown_only {cs : Block → Bool} {s t : State} {a1} (hdraws : cs .draws = true) (hsums : cs .sums = true) (hviol : cs .viol = true)
      (hcapture : cs .capture = true) (houtlet1 : cs (.outlet a1) = true) (hbay1 : cs (.bay a1) = true) (hpair : cs .pair = true) (hvault : cs .vault
      = true) (hqueues : cs .queues = true) (h : OnlyIn cs s t) :
    OnlyIn cs s (State.rampedDown t a1) := by
  unfold State.rampedDown
  extract_lets +onlyGivenNames -merge -underBinder x0
  (try clear_value x0)
  exact
        (by split; (next => exact (OnlyIn.ite (State.weldDone_only hdraws hsums hviol hcapture houtlet1 hbay1 hpair hvault hqueues (State.enterWeld_only hsums houtlet1 hbay1 h)) h)); (next => exact h))

theorem State.stateTimeout_only {cs : Block → Bool} {s t : State} {a1 a2} (hsums : cs .sums = true) (hlat : cs .lat = true) (hcapture : cs .capture =
      true) (hstalls : ∀ i, cs (.stall i) = true) (houtlet2 : cs (.outlet a2) = true) (hbay2 : cs (.bay a2) = true) (hmkt : cs .mkt = true) (hsaf : cs
      .saf = true) (hqueues : cs .queues = true) (h : OnlyIn cs s t) :
    OnlyIn cs s (State.stateTimeout t a1 a2) := by
  unfold State.stateTimeout
  extract_lets +onlyGivenNames -merge -underBinder x0
  (try clear_value x0)
  exact
        (by split; (next => exact (OnlyIn.ite (State.enterEnded_only hsums hcapture houtlet2 hbay2 hqueues h) h)); (next => exact (OnlyIn.ite (State.enterEnded_only hsums hcapture houtlet2 hbay2 hqueues h) h)); (next => exact (OnlyIn.ite (State.enterClosing_only hsums hbay2 h) h)); (next => exact (OnlyIn.ite (OnlyIn.ite (State.enterRampDown_only hsums hlat hbay2 h) (State.enterClosing_only hsums hbay2 h)) h)); (next => exact (OnlyIn.ite (State.enterRampDown_only hsums hlat hbay2 h) h)); (next => exact (OnlyIn.ite (State.enterRampDown_only hsums hlat hbay2 h) h)); (next => exact (OnlyIn.ite (State.enterRampDown_only hsums hlat hbay2 h) h)); (next => exact (OnlyIn.ite (State.requestSafeStop_only hsums hlat hcapture hstalls hmkt hsaf hqueues (State.enterFault_only hsums hlat hcapture hstalls hbay2 hmkt hsaf hqueues h)) h)); (next => exact (OnlyIn.ite (State.enterClosing_only hsums hbay2 h) h)); (next => exact (OnlyIn.ite (State.enterEnded_only hsums hcapture houtlet2 hbay2 hqueues h) h)); (next => exact (OnlyIn.ite (State.enterEnded_only hsums hcapture houtlet2 hbay2 hqueues h) h)); (next => exact h); (next => exact h))

theorem State.sessTimeout_only {cs : Block → Bool} {s t : State} {a1 a2} (hsums : cs .sums = true) (hlat : cs .lat = true) (hcapture : cs .capture =
      true) (hstalls : ∀ i, cs (.stall i) = true) (houtlet2 : cs (.outlet a2) = true) (hbay2 : cs (.bay a2) = true) (hmkt : cs .mkt = true) (hsaf : cs
      .saf = true) (hqueues : cs .queues = true) (h : OnlyIn cs s t) :
    OnlyIn cs s (State.sessTimeout t a1 a2) := by
  unfold State.sessTimeout
  exact (State.stateTimeout_only hsums hlat hcapture hstalls houtlet2 hbay2 hmkt hsaf hqueues (State.contactorTimeout_only hsums hlat hcapture hstalls
        houtlet2 hbay2 hmkt hsaf hqueues h))

theorem State.samplePilot_only {cs : Block → Bool} {s t : State} {a1 a2 a3} (hsums : cs .sums = true) (hlat : cs .lat = true) (hcapture : cs .capture
      = true) (hstalls : ∀ i, cs (.stall i) = true) (houtlet2 : cs (.outlet a2) = true) (hbay2 : cs (.bay a2) = true) (hmkt : cs .mkt = true) (hsaf :
      cs .saf = true) (hqueues : cs .queues = true) (h : OnlyIn cs s t) :
    OnlyIn cs s (State.samplePilot t a1 a2 a3) := by
  unfold State.samplePilot
  extract_lets +onlyGivenNames -merge -underBinder x0
  (try clear_value x0)
  extract_lets +onlyGivenNames -merge -underBinder x1
  (try clear_value x1)
  extract_lets +onlyGivenNames -merge -underBinder x2
  (try clear_value x2)
  extract_lets +onlyGivenNames -merge -underBinder x3
  have hx3 : OnlyIn cs s x3 := (State.bumpIf_only hsums (State.setBay_only (fun _ => ⟨.inr (by rfl), .inr (by rfl), .inl hbay2⟩) h))
  (try clear_value x3)
  exact (OnlyIn.ite (State.pilotTrigger_only hsums hlat hcapture hstalls hbay2 hmkt hsaf hqueues (State.sessTimeout_only hsums hlat hcapture hstalls
        houtlet2 hbay2 hmkt hsaf hqueues hx3)) hx3)

theorem State.sessionDemand_only {cs : Block → Bool} {s t : State} {a1} (hsums : cs .sums = true) (hbay1 : cs (.bay a1) = true) (h : OnlyIn cs s t) :
    OnlyIn cs s (State.sessionDemand t a1) := by
  unfold State.sessionDemand
  extract_lets +onlyGivenNames -merge -underBinder x0
  (try clear_value x0)
  exact (OnlyIn.ite h
        (by extract_lets +onlyGivenNames -merge -underBinder x1; have hx1 : OnlyIn cs s x1 := (State.setSess_only hbay1 h); (try clear_value x1); exact (OnlyIn.ite (OnlyIn.ite hx1 (State.setSess_only hbay1 hx1)) (OnlyIn.ite hx1 (State.enterClosing_only hsums hbay1 hx1)))))

theorem State.sessionFree_only {cs : Block → Bool} {s t : State} {a1} (hbay1 : cs (.bay a1) = true) (h : OnlyIn cs s t) :
    OnlyIn cs s (State.sessionFree t a1) := by
  unfold State.sessionFree
  exact (OnlyIn.ite (State.setSess_only hbay1 h) h)

theorem State.stopSession_only {cs : Block → Bool} {s t : State} {a1} (hsums : cs .sums = true) (hlat : cs .lat = true) (hbay1 : cs (.bay a1) = true)
      (h : OnlyIn cs s t) :
    OnlyIn cs s (State.stopSession t a1) := by
  unfold State.stopSession
  exact (State.wind_only hsums hlat hbay1 h)

theorem State.takeParam_only {cs : Block → Bool} {s t : State} {a1 a2 a3} (hdraws : cs .draws = true) (hsums : cs .sums = true) (hviol : cs .viol =
      true) (hlat : cs .lat = true) (hcapture : cs .capture = true) (hbay1 : cs (.bay a1) = true) (hpair : cs .pair = true) (hvault : cs .vault =
      true) (hqueues : cs .queues = true) (h : OnlyIn cs s t) :
    OnlyIn cs s (State.takeParam t a1 a2 a3) := by
  unfold State.takeParam
  extract_lets +onlyGivenNames -merge -underBinder x0
  (try clear_value x0)
  extract_lets +onlyGivenNames -merge -underBinder x1
  have hx1 : ∀  w, OnlyIn cs s w → OnlyIn cs s (x1  w) :=
        (by unfold x1; exact (fun _ k2 => (State.respond_only hdraws hsums hviol hcapture hbay1 hpair hvault hqueues k2)))
  exact
        (by split; (next => exact (State.respond_only hdraws hsums hviol hcapture hbay1 hpair hvault hqueues (State.setSess_only hbay1 h))); (next => exact (OnlyIn.ite (State.badMessage_only hdraws hsums hviol hlat hcapture hbay1 hpair hvault hqueues h) (OnlyIn.ite (State.respond_only hdraws hsums hviol hcapture hbay1 hpair hvault hqueues (State.enterClosing_only hsums hbay1 h)) (hx1 _ (State.bump_only hsums (State.setSess_only hbay1 h)))))); (next => exact (OnlyIn.ite (State.badMessage_only hdraws hsums hviol hlat hcapture hbay1 hpair hvault hqueues h) (by split; (next => exact (State.badMessage_only hdraws hsums hviol hlat hcapture hbay1 hpair hvault hqueues h)); (next => exact (OnlyIn.ite (State.respond_only hdraws hsums hviol hcapture hbay1 hpair hvault hqueues (State.enterClosing_only hsums hbay1 h)) (hx1 _ (State.setSess_only hbay1 h))))))); (next => exact (OnlyIn.ite (State.badMessage_only hdraws hsums hviol hlat hcapture hbay1 hpair hvault hqueues h) (by extract_lets +onlyGivenNames -merge -underBinder x3; (try clear_value x3); exact (State.respond_only hdraws hsums hviol hcapture hbay1 hpair hvault hqueues (State.setSess_only hbay1 h))))); (next => exact (OnlyIn.ite (State.badMessage_only hdraws hsums hviol hlat hcapture hbay1 hpair hvault hqueues h) (by split; (next => exact (hx1 _ (State.setSess_only hbay1 h))); (next => exact (State.respond_only hdraws hsums hviol hcapture hbay1 hpair hvault hqueues h))))))

theorem State.tlsEnds_only {cs : Block → Bool} {s t : State} {a1} (hsums : cs .sums = true) (hlat : cs .lat = true) (hcapture : cs .capture = true)
      (houtlet1 : cs (.outlet a1) = true) (hbay1 : cs (.bay a1) = true) (hqueues : cs .queues = true) (h : OnlyIn cs s t) :
    OnlyIn cs s (State.tlsEnds t a1) := by
  unfold State.tlsEnds
  extract_lets +onlyGivenNames -merge -underBinder x0
  have hx0 : OnlyIn cs s x0 := (State.setSess_only hbay1 h)
  (try clear_value x0)
  extract_lets +onlyGivenNames -merge -underBinder x1
  (try clear_value x1)
  exact
        (by split; (next => exact hx0); (next => exact (OnlyIn.ite (State.enterEnded_only hsums hcapture houtlet1 hbay1 hqueues hx0) (OnlyIn.ite (OnlyIn.ite (State.endWith_only hbay1 hx0) (State.enterRampDown_only hsums hlat hbay1 hx0)) (OnlyIn.ite hx0 (State.enterEnded_only hsums hcapture houtlet1 hbay1 hqueues hx0))))))

theorem State.tlsRefused_only {cs : Block → Bool} {s t : State} {a1} (hsums : cs .sums = true) (hlat : cs .lat = true) (hcapture : cs .capture = true)
      (houtlet1 : cs (.outlet a1) = true) (hbay1 : cs (.bay a1) = true) (hqueues : cs .queues = true) (h : OnlyIn cs s t) :
    OnlyIn cs s (State.tlsRefused t a1) := by
  unfold State.tlsRefused
  exact (State.tlsEnds_only hsums hlat hcapture houtlet1 hbay1 hqueues (State.setBay_only (fun _ => ⟨.inr (by rfl), .inr (by rfl), .inl hbay1⟩) h))

theorem State.tryCableTarget_only {cs : Block → Bool} {s t : State} {a1} (hlat : cs .lat = true) (hbay1 : cs (.bay a1) = true) (h : OnlyIn cs s t) :
    OnlyIn cs s (State.tryCableTarget t a1) := by
  unfold State.tryCableTarget
  extract_lets +onlyGivenNames -merge -underBinder x0
  (try clear_value x0)
  exact (OnlyIn.ite (State.writeTarget_only hlat hbay1 (State.setSess_only hbay1 h)) h)

theorem State.turnBid_only {cs : Block → Bool} {s t : State} {a1} (hsums : cs .sums = true) (hbay1 : cs (.bay a1) = true) (h : OnlyIn cs s t) :
    OnlyIn cs s (State.turnBid t a1) := by
  unfold State.turnBid
  extract_lets +onlyGivenNames -merge -underBinder x0
  (try clear_value x0)
  exact (OnlyIn.ite (State.bump_only hsums (State.setSess_only hbay1 h)) h)

theorem bayCommand_only {cs : Block → Bool} {s t : State} {a0} {a1} {a2} {a3 : Sys2Proof.Machine.State → Sys2Proof.Machine.State} (hmt : cs .mt =
      true) (hsums : cs .sums = true) (hanswer : cs .answer = true) (hviol : cs .viol = true) (hlat : cs .lat = true) (hcapture : cs .capture = true)
      (hstalls : ∀ i, cs (.stall i) = true) (houtlet2 : cs (.outlet a2) = true) (hbay2 : cs (.bay a2) = true) (hmkt : cs .mkt = true) (hsaf : cs .saf
      = true) (hqueues : cs .queues = true) (k3_ : ∀  w, OnlyIn cs s w → OnlyIn cs s (a3  w)) (h : OnlyIn cs s t) :
    OnlyIn cs s (bayCommand a0 a1 a2 a3 t) := by
  unfold bayCommand
  exact (whenLive_only hmt (fun _ k0 => (State.command_only hsums hanswer hviol hcapture hqueues (fun _ k1 => (k3_ _ (State.sessTimeout_only hsums
        hlat hcapture hstalls houtlet2 hbay2 hmkt hsaf hqueues k1))) k0)) h)

theorem bayCtrl_eff {cs : Block → Bool} {a0 a1 a2} (hsums : cs .sums = true) (hlat : cs .lat = true) (hcapture : cs .capture = true) (hstalls : ∀ i,
      cs (.stall i) = true) (houtlet1 : cs (.outlet a1) = true) (hsettings1 : cs (.settings a1) = true) (hbay1 : cs (.bay a1) = true) (hmkt : cs .mkt
      = true) (hsaf : cs .saf = true) (hqueues : cs .queues = true) :
    EffIn cs (bayCtrl a0 a1 a2) := by
  unfold bayCtrl
  exact (EffIn.ite (EffIn.mk (fun z1 _ k0 => k0)) (EffIn.ite (EffIn.mk (fun z3 _ k2 => k2)) (EffIn.mk (fun z5 _ k4 =>
        (by extract_lets +onlyGivenNames -merge -underBinder x6; have hx6 : OnlyIn cs z5 x6 := (by unfold x6; exact (OnlyIn.ite (State.sessTimeout_only hsums hlat hcapture hstalls houtlet1 hbay1 hmkt hsaf hqueues k4) k4)); (try clear_value x6); exact (by extract_lets +onlyGivenNames -merge -underBinder x7; have hx7 : OnlyIn cs z5 x7 := (State.setBay_only (fun _ => ⟨.inr (by rfl), .inl hsettings1, .inr (by rfl)⟩) hx6); (try clear_value x7); exact (by extract_lets +onlyGivenNames -merge -underBinder x8; have hx8 : OnlyIn cs z5 x8 := (by unfold x8; exact (OnlyIn.ite (State.stopSession_only hsums hlat hbay1 hx7) (OnlyIn.ite (State.authOk_only hsums hbay1 hx7) (OnlyIn.ite (State.authDeny_only hsums hbay1 hx7) hx7)))); (try clear_value x8); exact (OnlyIn.ite (State.bayClear_only hbay1 hx8) hx8))))))))

theorem bayWrite_eff {cs : Block → Bool} {a0 a1 a2 a3} (hsums : cs .sums = true) (hlat : cs .lat = true) (hcapture : cs .capture = true) (hstalls : ∀
      i, cs (.stall i) = true) (houtlet1 : cs (.outlet a1) = true) (hsettings1 : cs (.settings a1) = true) (hbay1 : cs (.bay a1) = true) (hmkt : cs
      .mkt = true) (hsaf : cs .saf = true) (hqueues : cs .queues = true) :
    EffsIn cs (bayWrite a0 a1 a2 a3) := by
  unfold bayWrite
  exact
        (by split; (next => exact (EffsIn.some (bayCtrl_eff hsums hlat hcapture hstalls houtlet1 hsettings1 hbay1 hmkt hsaf hqueues))); (next => exact (by extract_lets +onlyGivenNames -merge -underBinder x0; (try clear_value x0); exact (by extract_lets +onlyGivenNames -merge -underBinder x1; (try clear_value x1); exact (EffsIn.some (EffIn.inRange (fun z3 _ k2 => (State.setBay_only (fun _ => ⟨.inr (by rfl), .inl hsettings1, .inr (by rfl)⟩) k2))))))); (next => exact (by extract_lets +onlyGivenNames -merge -underBinder x4; (try clear_value x4); exact (by extract_lets +onlyGivenNames -merge -underBinder x5; (try clear_value x5); exact (by extract_lets +onlyGivenNames -merge -underBinder x6; (try clear_value x6); exact (by extract_lets +onlyGivenNames -merge -underBinder x7; (try clear_value x7); exact (EffsIn.some (EffIn.inRange (fun z9 _ k8 => (State.setBay_only (fun _ => ⟨.inr (by rfl), .inl hsettings1, .inr (by rfl)⟩) k8))))))))); (next => exact (EffsIn.some (EffIn.inRange (fun z11 _ k10 => (State.setBay_only (fun _ => ⟨.inr (by rfl), .inl hsettings1, .inr (by rfl)⟩) k10))))); (next => exact (EffsIn.map fun _ => roWord_eff)))

theorem doAuthDeny_only {cs : Block → Bool} {s t : State} {a0 a1 a2} (hmt : cs .mt = true) (hsums : cs .sums = true) (hanswer : cs .answer = true)
      (hviol : cs .viol = true) (hlat : cs .lat = true) (hcapture : cs .capture = true) (hstalls : ∀ i, cs (.stall i) = true) (houtlet2 : cs (.outlet
      a2) = true) (hbay2 : cs (.bay a2) = true) (hmkt : cs .mkt = true) (hsaf : cs .saf = true) (hqueues : cs .queues = true) (h : OnlyIn cs s t) :
    OnlyIn cs s (doAuthDeny a0 a1 a2 t) := by
  unfold doAuthDeny
  exact (bayCommand_only hmt hsums hanswer hviol hlat hcapture hstalls houtlet2 hbay2 hmkt hsaf hqueues (fun _ k0 => (State.authDeny_only hsums hbay2
        k0)) h)

theorem doAuthOk_only {cs : Block → Bool} {s t : State} {a0 a1 a2} (hmt : cs .mt = true) (hsums : cs .sums = true) (hanswer : cs .answer = true)
      (hviol : cs .viol = true) (hlat : cs .lat = true) (hcapture : cs .capture = true) (hstalls : ∀ i, cs (.stall i) = true) (houtlet2 : cs (.outlet
      a2) = true) (hbay2 : cs (.bay a2) = true) (hmkt : cs .mkt = true) (hsaf : cs .saf = true) (hqueues : cs .queues = true) (h : OnlyIn cs s t) :
    OnlyIn cs s (doAuthOk a0 a1 a2 t) := by
  unfold doAuthOk
  exact (bayCommand_only hmt hsums hanswer hviol hlat hcapture hstalls houtlet2 hbay2 hmkt hsaf hqueues (fun _ k0 => (State.authOk_only hsums hbay2
        k0)) h)

theorem whenActive_only {cs : Block → Bool} {s t : State} {a0} {a1} {a2 : Sys2Proof.Machine.State → Sys2Proof.Machine.State} (hmt : cs .mt = true)
      (k2_ : ∀  w, OnlyIn cs s w → OnlyIn cs s (a2  w)) (h : OnlyIn cs s t) :
    OnlyIn cs s (whenActive a0 a1 a2 t) := by
  unfold whenActive
  exact (whenLive_only hmt (fun _ k0 => (OnlyIn.ite (k2_ _ k0) k0)) h)

theorem sessTimer_only {cs : Block → Bool} {s t : State} {a0 a1 a2} (hmt : cs .mt = true) (hsums : cs .sums = true) (hlat : cs .lat = true) (hcapture
      : cs .capture = true) (hstalls : ∀ i, cs (.stall i) = true) (houtlet1 : cs (.outlet a1) = true) (hbay1 : cs (.bay a1) = true) (hmkt : cs .mkt =
      true) (hsaf : cs .saf = true) (hqueues : cs .queues = true) (h : OnlyIn cs s t) :
    OnlyIn cs s (sessTimer a0 a1 a2 t) := by
  unfold sessTimer
  exact (whenActive_only hmt (fun _ k0 => (OnlyIn.ite (State.stateTimeout_only hsums hlat hcapture hstalls houtlet1 hbay1 hmkt hsaf hqueues k0) k0))
        h)

theorem doAuthTimeout_only {cs : Block → Bool} {s t : State} {a0 a1} (hmt : cs .mt = true) (hsums : cs .sums = true) (hlat : cs .lat = true) (hcapture
      : cs .capture = true) (hstalls : ∀ i, cs (.stall i) = true) (houtlet1 : cs (.outlet a1) = true) (hbay1 : cs (.bay a1) = true) (hmkt : cs .mkt =
      true) (hsaf : cs .saf = true) (hqueues : cs .queues = true) (h : OnlyIn cs s t) :
    OnlyIn cs s (doAuthTimeout a0 a1 t) := by
  unfold doAuthTimeout
  exact (sessTimer_only hmt hsums hlat hcapture hstalls houtlet1 hbay1 hmkt hsaf hqueues h)

theorem vehicleMsg_only {cs : Block → Bool} {s t : State} {a0} {a1} {a2} {a3} {a4 : Sys2Proof.Machine.State → Sys2Proof.Machine.State} (hmt : cs .mt =
      true) (hdraws : cs .draws = true) (hsums : cs .sums = true) (hviol : cs .viol = true) (hlat : cs .lat = true) (hcapture : cs .capture = true)
      (hstalls : ∀ i, cs (.stall i) = true) (houtlet1 : cs (.outlet a1) = true) (hbay1 : cs (.bay a1) = true) (hmkt : cs .mkt = true) (hsaf : cs .saf
      = true) (hpair : cs .pair = true) (hvault : cs .vault = true) (hqueues : cs .queues = true) (k4_ : ∀  w, OnlyIn cs s w → OnlyIn cs s (a4  w)) (h
      : OnlyIn cs s t) :
    OnlyIn cs s (vehicleMsg a0 a1 a2 a3 a4 t) := by
  unfold vehicleMsg
  exact (whenActive_only hmt (fun _ k0 =>
        (by extract_lets +onlyGivenNames -merge -underBinder x1; have hx1 : OnlyIn cs s x1 := (State.sessTimeout_only hsums hlat hcapture hstalls houtlet1 hbay1 hmkt hsaf hqueues k0); (try clear_value x1); exact (by extract_lets +onlyGivenNames -merge -underBinder x2; (try clear_value x2); exact (OnlyIn.ite hx1 (by extract_lets +onlyGivenNames -merge -underBinder x3; have hx3 : OnlyIn cs s x3 := (State.countIn_only hbay1 hx1); (try clear_value x3); exact (OnlyIn.ite (State.doomedMsg_only hdraws hsums hviol hlat hcapture hbay1 hpair hvault hqueues hx3) (OnlyIn.ite (k4_ _ hx3) (State.badMessage_only hdraws hsums hviol hlat hcapture hbay1 hpair hvault hqueues hx3))))))))
        h)

theorem doAuthorizationReq_only {cs : Block → Bool} {s t : State} {a0 a1 a2 a3} (hmt : cs .mt = true) (hdraws : cs .draws = true) (hsums : cs .sums =
      true) (hviol : cs .viol = true) (hlat : cs .lat = true) (hcapture : cs .capture = true) (hstalls : ∀ i, cs (.stall i) = true) (houtlet1 : cs
      (.outlet a1) = true) (hbay1 : cs (.bay a1) = true) (hmkt : cs .mkt = true) (hsaf : cs .saf = true) (hpair : cs .pair = true) (hvault : cs .vault
      = true) (hqueues : cs .queues = true) (h : OnlyIn cs s t) :
    OnlyIn cs s (doAuthorizationReq a0 a1 a2 a3 t) := by
  unfold doAuthorizationReq
  exact (vehicleMsg_only hmt hdraws hsums hviol hlat hcapture hstalls houtlet1 hbay1 hmkt hsaf hpair hvault hqueues (fun _ k0 =>
        (by extract_lets +onlyGivenNames -merge -underBinder x1; (try clear_value x1); exact (by split; (next => exact (OnlyIn.ite (State.authorise_only hdraws hsums hviol hcapture hbay1 hpair hvault hqueues k0) (State.badMessage_only hdraws hsums hviol hlat hcapture hbay1 hpair hvault hqueues k0))); (next => exact (State.respond_only hdraws hsums hviol hcapture hbay1 hpair hvault hqueues k0)); (next => exact (OnlyIn.ite (State.respond_only hdraws hsums hviol hcapture hbay1 hpair hvault hqueues (State.setSess_only hbay1 k0)) (State.badMessage_only hdraws hsums hviol hlat hcapture hbay1 hpair hvault hqueues k0))); (next => exact (OnlyIn.ite (State.respond_only hdraws hsums hviol hcapture hbay1 hpair hvault hqueues k0) (State.badMessage_only hdraws hsums hviol hlat hcapture hbay1 hpair hvault hqueues k0))); (next => exact (State.badMessage_only hdraws hsums hviol hlat hcapture hbay1 hpair hvault hqueues k0)))))
        h)

theorem doBayClrCnt_only {cs : Block → Bool} {s t : State} {a0 a1 a2} (hmt : cs .mt = true) (hsums : cs .sums = true) (hanswer : cs .answer = true)
      (hviol : cs .viol = true) (hlat : cs .lat = true) (hcapture : cs .capture = true) (hstalls : ∀ i, cs (.stall i) = true) (houtlet2 : cs (.outlet
      a2) = true) (hbay2 : cs (.bay a2) = true) (hmkt : cs .mkt = true) (hsaf : cs .saf = true) (hqueues : cs .queues = true) (h : OnlyIn cs s t) :
    OnlyIn cs s (doBayClrCnt a0 a1 a2 t) := by
  unfold doBayClrCnt
  exact (bayCommand_only hmt hsums hanswer hviol hlat hcapture hstalls houtlet2 hbay2 hmkt hsaf hqueues (fun _ k0 => (State.bayClear_only hbay2 k0))
        h)

theorem doBayPhyLink_only {cs : Block → Bool} {s t : State} {a0 a1 a2 a3} (hmt : cs .mt = true) (hsums : cs .sums = true) (hbay1 : cs (.bay a1) =
      true) (h : OnlyIn cs s t) :
    OnlyIn cs s (doBayPhyLink a0 a1 a2 a3 t) := by
  unfold doBayPhyLink
  exact (whenLive_only hmt (fun _ k0 => (State.bumpIf_only hsums (State.setBay_only (fun _ => ⟨.inr (by rfl), .inr (by rfl), .inl hbay1⟩) k0))) h)

theorem doBayStop_only {cs : Block → Bool} {s t : State} {a0 a1 a2} (hmt : cs .mt = true) (hsums : cs .sums = true) (hanswer : cs .answer = true)
      (hviol : cs .viol = true) (hlat : cs .lat = true) (hcapture : cs .capture = true) (hstalls : ∀ i, cs (.stall i) = true) (houtlet2 : cs (.outlet
      a2) = true) (hbay2 : cs (.bay a2) = true) (hmkt : cs .mkt = true) (hsaf : cs .saf = true) (hqueues : cs .queues = true) (h : OnlyIn cs s t) :
    OnlyIn cs s (doBayStop a0 a1 a2 t) := by
  unfold doBayStop
  exact (bayCommand_only hmt hsums hanswer hviol hlat hcapture hstalls houtlet2 hbay2 hmkt hsaf hqueues (fun _ k0 => (State.stopSession_only hsums
        hlat hbay2 k0)) h)

theorem doCcHoldElapsed_only {cs : Block → Bool} {s t : State} {a0 a1} (hmt : cs .mt = true) (hbay1 : cs (.bay a1) = true) (h : OnlyIn cs s t) :
    OnlyIn cs s (doCcHoldElapsed a0 a1 t) := by
  unfold doCcHoldElapsed
  exact (whenActive_only hmt (fun _ k0 =>
        (by extract_lets +onlyGivenNames -merge -underBinder x1; (try clear_value x1); exact (by split; (next => exact (OnlyIn.ite (State.setSess_only hbay1 k0) k0)); (next => exact k0))))
        h)

theorem doCcTimeout_only {cs : Block → Bool} {s t : State} {a0 a1} (hmt : cs .mt = true) (hsums : cs .sums = true) (hlat : cs .lat = true) (hcapture :
      cs .capture = true) (hstalls : ∀ i, cs (.stall i) = true) (houtlet1 : cs (.outlet a1) = true) (hbay1 : cs (.bay a1) = true) (hmkt : cs .mkt =
      true) (hsaf : cs .saf = true) (hqueues : cs .queues = true) (h : OnlyIn cs s t) :
    OnlyIn cs s (doCcTimeout a0 a1 t) := by
  unfold doCcTimeout
  exact (sessTimer_only hmt hsums hlat hcapture hstalls houtlet1 hbay1 hmkt hsaf hqueues h)

theorem doCeIdSample_only {cs : Block → Bool} {s t : State} {a0 a1} (hmt : cs .mt = true) (hsums : cs .sums = true) (hlat : cs .lat = true) (hcapture
      : cs .capture = true) (hstalls : ∀ i, cs (.stall i) = true) (houtlets : ∀ i, cs (.outlet i) = true) (hbays : ∀ i, cs (.bay i) = true) (hmkt : cs
      .mkt = true) (hsaf : cs .saf = true) (hqueues : cs .queues = true) (h : OnlyIn cs s t) :
    OnlyIn cs s (doCeIdSample a0 a1 t) := by
  unfold doCeIdSample
  exact (whenScanning_only hmt (fun _ k0 => (State.forAll_only (fun _ _ k1 =>
        (by split; (next => exact (State.samplePilot_only hsums hlat hcapture hstalls (houtlets _) (hbays _) hmkt hsaf hqueues k1)); (next => exact k1)))
        k0)) h)

theorem withBay_only {cs : Block → Bool} {s t : State} {a0} {a1 : Sys2Proof.Machine.BayRec → Sys2Proof.Machine.State → Sys2Proof.Machine.State} (k1_ :
      ∀ i0 w, OnlyIn cs s w → OnlyIn cs s (a1 i0 w)) (h : OnlyIn cs s t) :
    OnlyIn cs s (withBay a0 a1 t) := by
  unfold withBay
  exact (by split; (next => exact (k1_ _ _ h)); (next => exact h))

theorem doChargeLoopReq_only {cs : Block → Bool} {s t : State} {a0 a1 a2 a3} (hmt : cs .mt = true) (hdraws : cs .draws = true) (hsums : cs .sums =
      true) (hviol : cs .viol = true) (hlat : cs .lat = true) (hcapture : cs .capture = true) (hstalls : ∀ i, cs (.stall i) = true) (houtlet1 : cs
      (.outlet a1) = true) (hbay1 : cs (.bay a1) = true) (hmkt : cs .mkt = true) (hsaf : cs .saf = true) (hpair : cs .pair = true) (hvault : cs .vault
      = true) (hqueues : cs .queues = true) (h : OnlyIn cs s t) :
    OnlyIn cs s (doChargeLoopReq a0 a1 a2 a3 t) := by
  unfold doChargeLoopReq
  exact (vehicleMsg_only hmt hdraws hsums hviol hlat hcapture hstalls houtlet1 hbay1 hmkt hsaf hpair hvault hqueues (fun _ k0 => (OnlyIn.ite
        (State.badMessage_only hdraws hsums hviol hlat hcapture hbay1 hpair hvault hqueues k0)
        (by split; (next => exact (State.badMessage_only hdraws hsums hviol hlat hcapture hbay1 hpair hvault hqueues k0)); (next => exact (withBay_only (fun _ _ k1 => (by extract_lets +onlyGivenNames -merge -underBinder x2; have hx2 : OnlyIn cs s x2 := (State.powerBid_only hlat hbay1 (State.setSess_only hbay1 k1)); (try clear_value x2); exact (State.respond_only hdraws hsums hviol hcapture hbay1 hpair hvault hqueues hx2))) k0)))))
        h)

theorem doClosingTimeout_only {cs : Block → Bool} {s t : State} {a0 a1} (hmt : cs .mt = true) (hsums : cs .sums = true) (hlat : cs .lat = true)
      (hcapture : cs .capture = true) (hstalls : ∀ i, cs (.stall i) = true) (houtlet1 : cs (.outlet a1) = true) (hbay1 : cs (.bay a1) = true) (hmkt :
      cs .mkt = true) (hsaf : cs .saf = true) (hqueues : cs .queues = true) (h : OnlyIn cs s t) :
    OnlyIn cs s (doClosingTimeout a0 a1 t) := by
  unfold doClosingTimeout
  exact (sessTimer_only hmt hsums hlat hcapture hstalls houtlet1 hbay1 hmkt hsaf hqueues h)

theorem doContactorTimeout_only {cs : Block → Bool} {s t : State} {a0 a1} (hmt : cs .mt = true) (hsums : cs .sums = true) (hlat : cs .lat = true)
      (hcapture : cs .capture = true) (hstalls : ∀ i, cs (.stall i) = true) (houtlet1 : cs (.outlet a1) = true) (hbay1 : cs (.bay a1) = true) (hmkt :
      cs .mkt = true) (hsaf : cs .saf = true) (hqueues : cs .queues = true) (h : OnlyIn cs s t) :
    OnlyIn cs s (doContactorTimeout a0 a1 t) := by
  unfold doContactorTimeout
  exact (whenActive_only hmt (fun _ k0 => (State.contactorTimeout_only hsums hlat hcapture hstalls houtlet1 hbay1 hmkt hsaf hqueues k0)) h)

theorem doDcCableCheckReq_only {cs : Block → Bool} {s t : State} {a0 a1 a2} (hmt : cs .mt = true) (hdraws : cs .draws = true) (hsums : cs .sums =
      true) (hviol : cs .viol = true) (hlat : cs .lat = true) (hcapture : cs .capture = true) (hstalls : ∀ i, cs (.stall i) = true) (houtlet1 : cs
      (.outlet a1) = true) (hbay1 : cs (.bay a1) = true) (hmkt : cs .mkt = true) (hsaf : cs .saf = true) (hpair : cs .pair = true) (hvault : cs .vault
      = true) (hqueues : cs .queues = true) (h : OnlyIn cs s t) :
    OnlyIn cs s (doDcCableCheckReq a0 a1 a2 t) := by
  unfold doDcCableCheckReq
  exact (vehicleMsg_only hmt hdraws hsums hviol hlat hcapture hstalls houtlet1 hbay1 hmkt hsaf hpair hvault hqueues (fun _ k0 =>
        (by extract_lets +onlyGivenNames -merge -underBinder x1; (try clear_value x1); exact (by split; (next => exact (OnlyIn.ite (withBay_only (fun _ _ k2 => (State.enterCableCheck_only hdraws hsums hviol hlat hcapture hstalls houtlet1 hbay1 hmkt hsaf hpair hvault hqueues k2)) k0) (State.badMessage_only hdraws hsums hviol hlat hcapture hbay1 hpair hvault hqueues k0))); (next => exact (OnlyIn.ite (State.respond_only hdraws hsums hviol hcapture hbay1 hpair hvault hqueues (State.setSess_only hbay1 k0)) (State.respond_only hdraws hsums hviol hcapture hbay1 hpair hvault hqueues k0))); (next => exact (State.badMessage_only hdraws hsums hviol hlat hcapture hbay1 hpair hvault hqueues k0)))))
        h)

theorem doDcPreChargeReq_only {cs : Block → Bool} {s t : State} {a0 a1 a2 a3} (hmt : cs .mt = true) (hdraws : cs .draws = true) (hsums : cs .sums =
      true) (hviol : cs .viol = true) (hlat : cs .lat = true) (hcapture : cs .capture = true) (hstalls : ∀ i, cs (.stall i) = true) (houtlet1 : cs
      (.outlet a1) = true) (hbay1 : cs (.bay a1) = true) (hmkt : cs .mkt = true) (hsaf : cs .saf = true) (hpair : cs .pair = true) (hvault : cs .vault
      = true) (hqueues : cs .queues = true) (h : OnlyIn cs s t) :
    OnlyIn cs s (doDcPreChargeReq a0 a1 a2 a3 t) := by
  unfold doDcPreChargeReq
  exact (vehicleMsg_only hmt hdraws hsums hviol hlat hcapture hstalls houtlet1 hbay1 hmkt hsaf hpair hvault hqueues (fun _ k0 =>
        (by extract_lets +onlyGivenNames -merge -underBinder x1; (try clear_value x1); exact (by split; (next => exact (State.badMessage_only hdraws hsums hviol hlat hcapture hbay1 hpair hvault hqueues k0)); (next => exact (by split; (next => exact (OnlyIn.ite (withBay_only (fun _ _ k2 => (State.precharge_only hdraws hsums hviol hlat hcapture hbay1 hpair hvault hqueues (State.goSess_only hsums hbay1 k2))) k0) (State.badMessage_only hdraws hsums hviol hlat hcapture hbay1 hpair hvault hqueues k0))); (next => exact (withBay_only (fun _ _ k3 => (State.precharge_only hdraws hsums hviol hlat hcapture hbay1 hpair hvault hqueues k3)) k0)); (next => exact (State.badMessage_only hdraws hsums hviol hlat hcapture hbay1 hpair hvault hqueues k0)))))))
        h)

theorem doFaultHoldTimeout_only {cs : Block → Bool} {s t : State} {a0 a1} (hmt : cs .mt = true) (hsums : cs .sums = true) (hlat : cs .lat = true)
      (hcapture : cs .capture = true) (hstalls : ∀ i, cs (.stall i) = true) (houtlet1 : cs (.outlet a1) = true) (hbay1 : cs (.bay a1) = true) (hmkt :
      cs .mkt = true) (hsaf : cs .saf = true) (hqueues : cs .queues = true) (h : OnlyIn cs s t) :
    OnlyIn cs s (doFaultHoldTimeout a0 a1 t) := by
  unfold doFaultHoldTimeout
  exact (sessTimer_only hmt hsums hlat hcapture hstalls houtlet1 hbay1 hmkt hsaf hqueues h)

theorem doLoopTimeout_only {cs : Block → Bool} {s t : State} {a0 a1} (hmt : cs .mt = true) (hsums : cs .sums = true) (hlat : cs .lat = true) (hcapture
      : cs .capture = true) (hstalls : ∀ i, cs (.stall i) = true) (houtlet1 : cs (.outlet a1) = true) (hbay1 : cs (.bay a1) = true) (hmkt : cs .mkt =
      true) (hsaf : cs .saf = true) (hqueues : cs .queues = true) (h : OnlyIn cs s t) :
    OnlyIn cs s (doLoopTimeout a0 a1 t) := by
  unfold doLoopTimeout
  exact (sessTimer_only hmt hsums hlat hcapture hstalls houtlet1 hbay1 hmkt hsaf hqueues h)

theorem doNoSdp_only {cs : Block → Bool} {s t : State} {a0 a1} (hmt : cs .mt = true) (hsums : cs .sums = true) (hlat : cs .lat = true) (hcapture : cs
      .capture = true) (hstalls : ∀ i, cs (.stall i) = true) (houtlet1 : cs (.outlet a1) = true) (hbay1 : cs (.bay a1) = true) (hmkt : cs .mkt = true)
      (hsaf : cs .saf = true) (hqueues : cs .queues = true) (h : OnlyIn cs s t) :
    OnlyIn cs s (doNoSdp a0 a1 t) := by
  unfold doNoSdp
  exact (sessTimer_only hmt hsums hlat hcapture hstalls houtlet1 hbay1 hmkt hsaf hqueues h)

theorem doParameterReq_only {cs : Block → Bool} {s t : State} {a0 a1 a2 a3} (hmt : cs .mt = true) (hdraws : cs .draws = true) (hsums : cs .sums =
      true) (hviol : cs .viol = true) (hlat : cs .lat = true) (hcapture : cs .capture = true) (hstalls : ∀ i, cs (.stall i) = true) (houtlet1 : cs
      (.outlet a1) = true) (hbay1 : cs (.bay a1) = true) (hmkt : cs .mkt = true) (hsaf : cs .saf = true) (hpair : cs .pair = true) (hvault : cs .vault
      = true) (hqueues : cs .queues = true) (h : OnlyIn cs s t) :
    OnlyIn cs s (doParameterReq a0 a1 a2 a3 t) := by
  unfold doParameterReq
  exact (vehicleMsg_only hmt hdraws hsums hviol hlat hcapture hstalls houtlet1 hbay1 hmkt hsaf hpair hvault hqueues (fun _ k0 => (OnlyIn.ite
        (withBay_only (fun _ _ k1 => (State.takeParam_only hdraws hsums hviol hlat hcapture hbay1 hpair hvault hqueues k1)) k0) (State.badMessage_only
        hdraws hsums hviol hlat hcapture hbay1 hpair hvault hqueues k0))) h)

theorem doPowerDeliveryReq_only {cs : Block → Bool} {s t : State} {a0 a1 a2 a3} (hmt : cs .mt = true) (hdraws : cs .draws = true) (hsums : cs .sums =
      true) (hviol : cs .viol = true) (hlat : cs .lat = true) (hcapture : cs .capture = true) (hstalls : ∀ i, cs (.stall i) = true) (houtlet1 : cs
      (.outlet a1) = true) (hbay1 : cs (.bay a1) = true) (hmkt : cs .mkt = true) (hsaf : cs .saf = true) (hpair : cs .pair = true) (hvault : cs .vault
      = true) (hqueues : cs .queues = true) (h : OnlyIn cs s t) :
    OnlyIn cs s (doPowerDeliveryReq a0 a1 a2 a3 t) := by
  unfold doPowerDeliveryReq
  exact (vehicleMsg_only hmt hdraws hsums hviol hlat hcapture hstalls houtlet1 hbay1 hmkt hsaf hpair hvault hqueues (fun _ k0 =>
        (by split <;> first | exact (withBay_only (fun _ _ k1 => (State.respond_only hdraws hsums hviol hcapture hbay1 hpair hvault hqueues (State.powerBid_only hlat hbay1 (State.goSess_only hsums hbay1 k1)))) k0) | exact (State.respond_only hdraws hsums hviol hcapture hbay1 hpair hvault hqueues (State.enterRampDown_only hsums hlat hbay1 k0)) | exact (State.badMessage_only hdraws hsums hviol hlat hcapture hbay1 hpair hvault hqueues k0)))
        h)

theorem doPreTimeout_only {cs : Block → Bool} {s t : State} {a0 a1} (hmt : cs .mt = true) (hsums : cs .sums = true) (hlat : cs .lat = true) (hcapture
      : cs .capture = true) (hstalls : ∀ i, cs (.stall i) = true) (houtlet1 : cs (.outlet a1) = true) (hbay1 : cs (.bay a1) = true) (hmkt : cs .mkt =
      true) (hsaf : cs .saf = true) (hqueues : cs .queues = true) (h : OnlyIn cs s t) :
    OnlyIn cs s (doPreTimeout a0 a1 t) := by
  unfold doPreTimeout
  exact (sessTimer_only hmt hsums hlat hcapture hstalls houtlet1 hbay1 hmkt hsaf hqueues h)

theorem doRampTimeout_only {cs : Block → Bool} {s t : State} {a0 a1} (hmt : cs .mt = true) (hsums : cs .sums = true) (hlat : cs .lat = true) (hcapture
      : cs .capture = true) (hstalls : ∀ i, cs (.stall i) = true) (houtlet1 : cs (.outlet a1) = true) (hbay1 : cs (.bay a1) = true) (hmkt : cs .mkt =
      true) (hsaf : cs .saf = true) (hqueues : cs .queues = true) (h : OnlyIn cs s t) :
    OnlyIn cs s (doRampTimeout a0 a1 t) := by
  unfold doRampTimeout
  exact (sessTimer_only hmt hsums hlat hcapture hstalls houtlet1 hbay1 hmkt hsaf hqueues h)

theorem doSdpRequest_only {cs : Block → Bool} {s t : State} {a0 a1} (hmt : cs .mt = true) (hdraws : cs .draws = true) (hsums : cs .sums = true) (hviol
      : cs .viol = true) (hlat : cs .lat = true) (hcapture : cs .capture = true) (hstalls : ∀ i, cs (.stall i) = true) (houtlet1 : cs (.outlet a1) =
      true) (hbay1 : cs (.bay a1) = true) (hmkt : cs .mkt = true) (hsaf : cs .saf = true) (hpair : cs .pair = true) (hvault : cs .vault = true)
      (hqueues : cs .queues = true) (h : OnlyIn cs s t) :
    OnlyIn cs s (doSdpRequest a0 a1 t) := by
  unfold doSdpRequest
  exact (whenActive_only hmt (fun _ k0 =>
        (by extract_lets +onlyGivenNames -merge -underBinder x1; have hx1 : OnlyIn cs s x1 := (State.sessTimeout_only hsums hlat hcapture hstalls houtlet1 hbay1 hmkt hsaf hqueues k0); (try clear_value x1); exact (by extract_lets +onlyGivenNames -merge -underBinder x2; (try clear_value x2); exact (by split; (next => exact (State.respond_only hdraws hsums hviol hcapture hbay1 hpair hvault hqueues (State.enterSetup_only hsums hbay1 hx1))); (next => exact (State.respond_only hdraws hsums hviol hcapture hbay1 hpair hvault hqueues hx1)); (next => exact (OnlyIn.ite (State.respond_only hdraws hsums hviol hcapture hbay1 hpair hvault hqueues (State.enterSetup_only hsums hbay1 hx1)) hx1)); (next => exact hx1)))))
        h)

theorem doSeqTimeout_only {cs : Block → Bool} {s t : State} {a0 a1} (hmt : cs .mt = true) (hsums : cs .sums = true) (hlat : cs .lat = true) (hcapture
      : cs .capture = true) (hstalls : ∀ i, cs (.stall i) = true) (houtlet1 : cs (.outlet a1) = true) (hbay1 : cs (.bay a1) = true) (hmkt : cs .mkt =
      true) (hsaf : cs .saf = true) (hqueues : cs .queues = true) (h : OnlyIn cs s t) :
    OnlyIn cs s (doSeqTimeout a0 a1 t) := by
  unfold doSeqTimeout
  exact (sessTimer_only hmt hsums hlat hcapture hstalls houtlet1 hbay1 hmkt hsaf hqueues h)

theorem doSessionSetupReq_only {cs : Block → Bool} {s t : State} {a0 a1 a2} (hmt : cs .mt = true) (hdraws : cs .draws = true) (hsums : cs .sums =
      true) (hviol : cs .viol = true) (hlat : cs .lat = true) (hcapture : cs .capture = true) (hstalls : ∀ i, cs (.stall i) = true) (houtlet1 : cs
      (.outlet a1) = true) (hbay1 : cs (.bay a1) = true) (hmkt : cs .mkt = true) (hsaf : cs .saf = true) (hpair : cs .pair = true) (hvault : cs .vault
      = true) (hqueues : cs .queues = true) (h : OnlyIn cs s t) :
    OnlyIn cs s (doSessionSetupReq a0 a1 a2 t) := by
  unfold doSessionSetupReq
  exact (vehicleMsg_only hmt hdraws hsums hviol hlat hcapture hstalls houtlet1 hbay1 hmkt hsaf hpair hvault hqueues (fun _ k0 =>
        (by extract_lets +onlyGivenNames -merge -underBinder x1; (try clear_value x1); exact (OnlyIn.ite (by extract_lets +onlyGivenNames -merge -underBinder x2; have hx2 : OnlyIn cs s x2.2 := (State.drawBytes_only hdraws k0); (try clear_value x2); exact (by extract_lets +onlyGivenNames -merge -underBinder x3; have hx3 : OnlyIn cs s x3 := (State.setSess_only hbay1 hx2); (try clear_value x3); exact (State.respond_only hdraws hsums hviol hcapture hbay1 hpair hvault hqueues (State.log_only hsums hcapture hqueues hx3)))) (State.badMessage_only hdraws hsums hviol hlat hcapture hbay1 hpair hvault hqueues k0))))
        h)

theorem doSessionStopReq_only {cs : Block → Bool} {s t : State} {a0 a1 a2} (hmt : cs .mt = true) (hdraws : cs .draws = true) (hsums : cs .sums = true)
      (hviol : cs .viol = true) (hlat : cs .lat = true) (hcapture : cs .capture = true) (hstalls : ∀ i, cs (.stall i) = true) (houtlet1 : cs (.outlet
      a1) = true) (hbay1 : cs (.bay a1) = true) (hmkt : cs .mkt = true) (hsaf : cs .saf = true) (hpair : cs .pair = true) (hvault : cs .vault = true)
      (hqueues : cs .queues = true) (h : OnlyIn cs s t) :
    OnlyIn cs s (doSessionStopReq a0 a1 a2 t) := by
  unfold doSessionStopReq
  exact (vehicleMsg_only hmt hdraws hsums hviol hlat hcapture hstalls houtlet1 hbay1 hmkt hsaf hpair hvault hqueues (fun _ k0 =>
        (by split; (next => exact (by extract_lets +onlyGivenNames -merge -underBinder x1; have hx1 : OnlyIn cs s x1 := (State.setSess_only hbay1 k0); (try clear_value x1); exact (OnlyIn.ite (State.weldDone_only hdraws hsums hviol hcapture houtlet1 hbay1 hpair hvault hqueues hx1) (State.tellSession_only hdraws hsums hviol hcapture hpair hvault hqueues hx1)))); (next => exact (by extract_lets +onlyGivenNames -merge -underBinder x2; have hx2 : OnlyIn cs s x2 := (State.setSess_only hbay1 k0); (try clear_value x2); exact (OnlyIn.ite (State.weldDone_only hdraws hsums hviol hcapture houtlet1 hbay1 hpair hvault hqueues hx2) (State.tellSession_only hdraws hsums hviol hcapture hpair hvault hqueues hx2)))); (next => exact (State.respond_only hdraws hsums hviol hcapture hbay1 hpair hvault hqueues (State.setSess_only hbay1 k0))); (next => exact (State.badMessage_only hdraws hsums hviol hlat hcapture hbay1 hpair hvault hqueues k0))))
        h)

theorem doSetupTimeout_only {cs : Block → Bool} {s t : State} {a0 a1} (hmt : cs .mt = true) (hsums : cs .sums = true) (hlat : cs .lat = true)
      (hcapture : cs .capture = true) (hstalls : ∀ i, cs (.stall i) = true) (houtlet1 : cs (.outlet a1) = true) (hbay1 : cs (.bay a1) = true) (hmkt :
      cs .mkt = true) (hsaf : cs .saf = true) (hqueues : cs .queues = true) (h : OnlyIn cs s t) :
    OnlyIn cs s (doSetupTimeout a0 a1 t) := by
  unfold doSetupTimeout
  exact (sessTimer_only hmt hsums hlat hcapture hstalls houtlet1 hbay1 hmkt hsaf hqueues h)

theorem doSupportedAppProtocolReq_only {cs : Block → Bool} {s t : State} {a0 a1 a2} (hmt : cs .mt = true) (hdraws : cs .draws = true) (hsums : cs
      .sums = true) (hviol : cs .viol = true) (hlat : cs .lat = true) (hcapture : cs .capture = true) (hstalls : ∀ i, cs (.stall i) = true) (houtlet1
      : cs (.outlet a1) = true) (hbay1 : cs (.bay a1) = true) (hmkt : cs .mkt = true) (hsaf : cs .saf = true) (hpair : cs .pair = true) (hvault : cs
      .vault = true) (hqueues : cs .queues = true) (h : OnlyIn cs s t) :
    OnlyIn cs s (doSupportedAppProtocolReq a0 a1 a2 t) := by
  unfold doSupportedAppProtocolReq
  exact (vehicleMsg_only hmt hdraws hsums hviol hlat hcapture hstalls houtlet1 hbay1 hmkt hsaf hpair hvault hqueues (fun _ k0 =>
        (by extract_lets +onlyGivenNames -merge -underBinder x1; (try clear_value x1); exact (OnlyIn.ite (State.respond_only hdraws hsums hviol hcapture hbay1 hpair hvault hqueues (State.setSess_only hbay1 k0)) (State.badMessage_only hdraws hsums hviol hlat hcapture hbay1 hpair hvault hqueues k0))))
        h)

theorem doTlsFailure_only {cs : Block → Bool} {s t : State} {a0 a1 a2} (hmt : cs .mt = true) (hsums : cs .sums = true) (hlat : cs .lat = true)
      (hcapture : cs .capture = true) (hstalls : ∀ i, cs (.stall i) = true) (houtlet1 : cs (.outlet a1) = true) (hbay1 : cs (.bay a1) = true) (hmkt :
      cs .mkt = true) (hsaf : cs .saf = true) (hqueues : cs .queues = true) (h : OnlyIn cs s t) :
    OnlyIn cs s (doTlsFailure a0 a1 a2 t) := by
  unfold doTlsFailure
  exact (whenActive_only hmt (fun _ k0 =>
        (by extract_lets +onlyGivenNames -merge -underBinder x1; have hx1 : OnlyIn cs s x1 := (State.sessTimeout_only hsums hlat hcapture hstalls houtlet1 hbay1 hmkt hsaf hqueues k0); (try clear_value x1); exact (by extract_lets +onlyGivenNames -merge -underBinder x2; (try clear_value x2); exact (by split; (next => exact (OnlyIn.ite (State.tlsRefused_only hsums hlat hcapture houtlet1 hbay1 hqueues hx1) hx1)); (next => exact (OnlyIn.ite (State.tlsEnds_only hsums hlat hcapture houtlet1 hbay1 hqueues hx1) hx1))))))
        h)

theorem doTlsHandshake_only {cs : Block → Bool} {s t : State} {a0 a1 a2} (hmt : cs .mt = true) (hdraws : cs .draws = true) (hsums : cs .sums = true)
      (hviol : cs .viol = true) (hlat : cs .lat = true) (hcapture : cs .capture = true) (hstalls : ∀ i, cs (.stall i) = true) (houtlet1 : cs (.outlet
      a1) = true) (hbay1 : cs (.bay a1) = true) (hmkt : cs .mkt = true) (hsaf : cs .saf = true) (hpair : cs .pair = true) (hvault : cs .vault = true)
      (hqueues : cs .queues = true) (h : OnlyIn cs s t) :
    OnlyIn cs s (doTlsHandshake a0 a1 a2 t) := by
  unfold doTlsHandshake
  exact (whenActive_only hmt (fun _ k0 =>
        (by extract_lets +onlyGivenNames -merge -underBinder x1; have hx1 : OnlyIn cs s x1 := (State.sessTimeout_only hsums hlat hcapture hstalls houtlet1 hbay1 hmkt hsaf hqueues k0); (try clear_value x1); exact (OnlyIn.ite (OnlyIn.ite (by extract_lets +onlyGivenNames -merge -underBinder x2; have hx2 : OnlyIn cs s x2.2 := (State.drawBytes_only hdraws (State.serveUse_only hsums hviol hcapture hvault hqueues hx1)); (try clear_value x2); exact (State.tellSession_only hdraws hsums hviol hcapture hpair hvault hqueues (State.setSess_only hbay1 hx2))) (State.tlsRefused_only hsums hlat hcapture houtlet1 hbay1 hqueues (OnlyIn.ite (State.serveUse_only hsums hviol hcapture hvault hqueues hx1) hx1))) hx1)))
        h)

theorem doWeldingDetectionReq_only {cs : Block → Bool} {s t : State} {a0 a1 a2} (hmt : cs .mt = true) (hdraws : cs .draws = true) (hsums : cs .sums =
      true) (hviol : cs .viol = true) (hlat : cs .lat = true) (hcapture : cs .capture = true) (hstalls : ∀ i, cs (.stall i) = true) (houtlet1 : cs
      (.outlet a1) = true) (hbay1 : cs (.bay a1) = true) (hmkt : cs .mkt = true) (hsaf : cs .saf = true) (hpair : cs .pair = true) (hvault : cs .vault
      = true) (hqueues : cs .queues = true) (h : OnlyIn cs s t) :
    OnlyIn cs s (doWeldingDetectionReq a0 a1 a2 t) := by
  unfold doWeldingDetectionReq
  exact (vehicleMsg_only hmt hdraws hsums hviol hlat hcapture hstalls houtlet1 hbay1 hmkt hsaf hpair hvault hqueues (fun _ k0 =>
        (by split; (next => exact (State.respond_only hdraws hsums hviol hcapture hbay1 hpair hvault hqueues k0)); (next => exact (State.respond_only hdraws hsums hviol hcapture hbay1 hpair hvault hqueues k0)); (next => exact (State.badMessage_only hdraws hsums hviol hlat hcapture hbay1 hpair hvault hqueues k0))))
        h)

theorem State.setCable_only {cs : Block → Bool} {s t : State} {a1 a2} (hthm : cs .thm = true) (h : OnlyIn cs s t) :
    OnlyIn cs s (State.setCable t a1 a2) := by
  unfold State.setCable
  exact (OnlyIn.setThm hthm h)

theorem State.cableTick_only {cs : Block → Bool} {s t : State} {a1 a2 a3} (hsums : cs .sums = true) (hcapture : cs .capture = true) (hthm : cs .thm =
      true) (hqueues : cs .queues = true) (h : OnlyIn cs s t) :
    OnlyIn cs s (State.cableTick t a1 a2 a3) := by
  unfold State.cableTick
  extract_lets +onlyGivenNames -merge -underBinder x0
  (try clear_value x0)
  extract_lets +onlyGivenNames -merge -underBinder x1
  (try clear_value x1)
  extract_lets +onlyGivenNames -merge -underBinder x2
  (try clear_value x2)
  extract_lets +onlyGivenNames -merge -underBinder x3
  (try clear_value x3)
  extract_lets +onlyGivenNames -merge -underBinder x4
  (try clear_value x4)
  extract_lets +onlyGivenNames -merge -underBinder x5
  (try clear_value x5)
  extract_lets +onlyGivenNames -merge -underBinder x6
  (try clear_value x6)
  extract_lets +onlyGivenNames -merge -underBinder x7
  (try clear_value x7)
  extract_lets +onlyGivenNames -merge -underBinder x8
  (try clear_value x8)
  extract_lets +onlyGivenNames -merge -underBinder x9
  (try clear_value x9)
  extract_lets +onlyGivenNames -merge -underBinder x10
  (try clear_value x10)
  extract_lets +onlyGivenNames -merge -underBinder x11
  (try clear_value x11)
  extract_lets +onlyGivenNames -merge -underBinder x12
  (try clear_value x12)
  extract_lets +onlyGivenNames -merge -underBinder x13
  (try clear_value x13)
  extract_lets +onlyGivenNames -merge -underBinder x14
  (try clear_value x14)
  extract_lets +onlyGivenNames -merge -underBinder x15
  have hx15 : OnlyIn cs s x15 := (State.setCable_only hthm h)
  (try clear_value x15)
  extract_lets +onlyGivenNames -merge -underBinder x16 x17
  have hx17 : OnlyIn cs s x17 := (by unfold x17; exact (OnlyIn.ite (OnlyIn.setThm hthm hx15) hx15))
  (try clear_value x16)
  (try clear_value x17)
  extract_lets +onlyGivenNames -merge -underBinder x18
  have hx18 : OnlyIn cs s x18 := (State.bumpIf_only hsums hx17)
  (try clear_value x18)
  exact (OnlyIn.ite (State.log_only hsums hcapture hqueues (OnlyIn.setThm hthm hx18)) (State.bumpIf_only hsums hx18))

theorem State.convertAll_only {cs : Block → Bool} {s t : State} {a1} (hsums : cs .sums = true) (hthm : cs .thm = true) (h : OnlyIn cs s t) :
    OnlyIn cs s (State.convertAll t a1) := by
  unfold State.convertAll
  exact (State.forAll_only (fun _ _ k0 =>
        (by split; (next => exact (by extract_lets +onlyGivenNames -merge -underBinder x1; (try clear_value x1); exact (by extract_lets +onlyGivenNames -merge -underBinder x2; (try clear_value x2); exact (by extract_lets +onlyGivenNames -merge -underBinder x3 x4; have hx4 : OnlyIn cs s x4 := (OnlyIn.setThm hthm k0); (try clear_value x3); (try clear_value x4); exact (State.bumpIf_only hsums hx4))))); (next => exact k0)))
        h)

theorem State.valveTick_only {cs : Block → Bool} {s t : State} {a1 a2} (hsums : cs .sums = true) (hthm : cs .thm = true) (h : OnlyIn cs s t) :
    OnlyIn cs s (State.valveTick t a1 a2) := by
  unfold State.valveTick
  extract_lets +onlyGivenNames -merge -underBinder x0
  (try clear_value x0)
  extract_lets +onlyGivenNames -merge -underBinder x1
  (try clear_value x1)
  exact (OnlyIn.ite (State.bumpIf_only hsums (State.setCable_only hthm h)) (OnlyIn.ite (State.setCable_only hthm h) h))

theorem State.loopTick_only {cs : Block → Bool} {s t : State} {a1 a2} (hthm : cs .thm = true) (h : OnlyIn cs s t) :
    OnlyIn cs s (State.loopTick t a1 a2) := by
  unfold State.loopTick
  extract_lets +onlyGivenNames -merge -underBinder x0
  (try clear_value x0)
  extract_lets +onlyGivenNames -merge -underBinder x1
  (try clear_value x1)
  extract_lets +onlyGivenNames -merge -underBinder x2
  (try clear_value x2)
  extract_lets +onlyGivenNames -merge -underBinder x3
  (try clear_value x3)
  extract_lets +onlyGivenNames -merge -underBinder x4
  (try clear_value x4)
  extract_lets +onlyGivenNames -merge -underBinder x5
  (try clear_value x5)
  extract_lets +onlyGivenNames -merge -underBinder x6
  (try clear_value x6)
  extract_lets +onlyGivenNames -merge -underBinder x7
  (try clear_value x7)
  extract_lets +onlyGivenNames -merge -underBinder x8
  (try clear_value x8)
  exact (OnlyIn.setThm hthm h)

theorem State.coolTick_only {cs : Block → Bool} {s t : State} {a1 a2} (hsums : cs .sums = true) (hcapture : cs .capture = true) (hthm : cs .thm =
      true) (hqueues : cs .queues = true) (h : OnlyIn cs s t) :
    OnlyIn cs s (State.coolTick t a1 a2) := by
  unfold State.coolTick
  extract_lets +onlyGivenNames -merge -underBinder x0
  have hx0 : OnlyIn cs s x0 := (State.convertAll_only hsums hthm h)
  (try clear_value x0)
  extract_lets +onlyGivenNames -merge -underBinder x1
  have hx1 : OnlyIn cs s x1 := (State.forAll_only (fun _ _ k2 =>
        (by split; (next => exact (State.cableTick_only hsums hcapture hthm hqueues k2)); (next => exact k2))) hx0)
  (try clear_value x1)
  extract_lets +onlyGivenNames -merge -underBinder x3
  have hx3 : OnlyIn cs s x3 := (State.forAll_only (fun _ _ k4 => (State.valveTick_only hsums hthm k4)) hx1)
  (try clear_value x3)
  exact (State.forAll_only (fun _ _ k5 => (State.loopTick_only hthm k5)) hx3)

theorem State.setLoop_only {cs : Block → Bool} {s t : State} {a1 a2} (hthm : cs .thm = true) (h : OnlyIn cs s t) :
    OnlyIn cs s (State.setLoop t a1 a2) := by
  unfold State.setLoop
  exact (OnlyIn.setThm hthm h)

theorem State.takeTerms_only {cs : Block → Bool} {s t : State} (hthm : cs .thm = true) (h : OnlyIn cs s t) :
    OnlyIn cs s (State.takeTerms t) := by
  unfold State.takeTerms
  exact (OnlyIn.setThm hthm h)

theorem State.thmClear_only {cs : Block → Bool} {s t : State} (hthm : cs .thm = true) (h : OnlyIn cs s t) :
    OnlyIn cs s (State.thmClear t) := by
  unfold State.thmClear
  exact (OnlyIn.setThm hthm h)

theorem doFlowPulse_only {cs : Block → Bool} {s t : State} {a0 a1} (hmt : cs .mt = true) (hthm : cs .thm = true) (h : OnlyIn cs s t) :
    OnlyIn cs s (doFlowPulse a0 a1 t) := by
  unfold doFlowPulse
  exact (whenLive_only hmt (fun _ k0 => (OnlyIn.setThm hthm k0)) h)

theorem doThmClrCnt_only {cs : Block → Bool} {s t : State} {a0 a1} (hmt : cs .mt = true) (hsums : cs .sums = true) (hanswer : cs .answer = true)
      (hviol : cs .viol = true) (hcapture : cs .capture = true) (hthm : cs .thm = true) (hqueues : cs .queues = true) (h : OnlyIn cs s t) :
    OnlyIn cs s (doThmClrCnt a0 a1 t) := by
  unfold doThmClrCnt
  exact (whenLive_only hmt (fun _ k0 => (State.command_only hsums hanswer hviol hcapture hqueues (fun _ k1 => (State.thmClear_only hthm k1)) k0)) h)

theorem doValveCloseDelay_only {cs : Block → Bool} {s t : State} {a0 a1} (hmt : cs .mt = true) (hsums : cs .sums = true) (hthm : cs .thm = true) (h :
      OnlyIn cs s t) :
    OnlyIn cs s (doValveCloseDelay a0 a1 t) := by
  unfold doValveCloseDelay
  exact (whenLive_only hmt (fun _ k0 =>
        (by split; (next => exact (OnlyIn.ite (State.bump_only hsums (State.setCable_only hthm k0)) k0)); (next => exact k0))) h)

theorem thmWrite_eff {cs : Block → Bool} {a0 a1 a2} (hthm : cs .thm = true) :
    EffsIn cs (thmWrite a0 a1 a2) := by
  unfold thmWrite
  exact (EffsIn.ite (EffsIn.some (EffIn.mk (fun z1 _ k0 => (OnlyIn.ite (State.thmClear_only hthm k0) k0)))) (EffsIn.ite (EffsIn.some (EffIn.inRange
        (fun z3 _ k2 => (OnlyIn.setThm hthm k2)))) (EffsIn.ite (EffsIn.map fun _ => (EffIn.inRange (fun z5 _ k4 => (OnlyIn.setThm hthm k4))))
        (EffsIn.ite (EffsIn.map fun _ => (EffIn.ite (EffIn.inRange (fun z7 _ k6 => (State.setLoop_only hthm k6))) (EffIn.inRange (fun z9 _ k8 =>
        (State.setLoop_only hthm k8))))) (EffsIn.map fun _ => roWord_eff)))))

theorem State.adoptAux_only {cs : Block → Bool} {s t : State} (hsums : cs .sums = true) (hthm : cs .thm = true) (haux : cs .aux = true) (h : OnlyIn cs
      s t) :
    OnlyIn cs s (State.adoptAux t) := by
  unfold State.adoptAux
  extract_lets +onlyGivenNames -merge -underBinder x0
  have hx0 : OnlyIn cs s x0 := (State.forAll_only (fun _ _ k1 =>
        (by extract_lets +onlyGivenNames -merge -underBinder x2; (try clear_value x2); exact (by extract_lets +onlyGivenNames -merge -underBinder x3; (try clear_value x3); exact (State.setLoop_only hthm k1))))
        h)
  (try clear_value x0)
  exact (State.bumpIf_only hsums (OnlyIn.setAux haux hx0))

theorem State.auxFailAll_only {cs : Block → Bool} {s t : State} {a1} (haux : cs .aux = true) (h : OnlyIn cs s t) :
    OnlyIn cs s (State.auxFailAll t a1) := by
  unfold State.auxFailAll
  exact (OnlyIn.setAux haux h)

theorem State.auxRestart_only {cs : Block → Bool} {s t : State} {a1} (haux : cs .aux = true) (h : OnlyIn cs s t) :
    OnlyIn cs s (State.auxRestart t a1) := by
  unfold State.auxRestart
  exact (OnlyIn.setAux haux h)

theorem State.measureV24_only {cs : Block → Bool} {s t : State} {a1} (hsums : cs .sums = true) (haux : cs .aux = true) (hsaf : cs .saf = true) (h :
      OnlyIn cs s t) :
    OnlyIn cs s (State.measureV24 t a1) := by
  unfold State.measureV24
  exact (OnlyIn.ite (State.allOff_only hsums hsaf (State.auxRestart_only haux h)) (OnlyIn.setAux haux h))

theorem State.setAux_only {cs : Block → Bool} {s t : State} {a1 a2} (haux : cs .aux = true) (h : OnlyIn cs s t) :
    OnlyIn cs s (State.setAux t a1 a2) := by
  unfold State.setAux
  exact (OnlyIn.setAux haux h)

theorem State.driveAux_only {cs : Block → Bool} {s t : State} {a1 a2} (haux : cs .aux = true) (h : OnlyIn cs s t) :
    OnlyIn cs s (State.driveAux t a1 a2) := by
  unfold State.driveAux
  extract_lets +onlyGivenNames -merge -underBinder x0
  (try clear_value x0)
  exact (OnlyIn.ite (State.setAux_only haux h) h)

theorem State.pullIn_only {cs : Block → Bool} {s t : State} {a1 a2} (haux : cs .aux = true) (h : OnlyIn cs s t) :
    OnlyIn cs s (State.pullIn t a1 a2) := by
  unfold State.pullIn
  extract_lets +onlyGivenNames -merge -underBinder x0
  (try clear_value x0)
  extract_lets +onlyGivenNames -merge -underBinder x1
  (try clear_value x1)
  exact (State.setAux_only haux h)

theorem State.auxTick_only {cs : Block → Bool} {s t : State} {a1 a2} (hsums : cs .sums = true) (haux : cs .aux = true) (hsaf : cs .saf = true) (h :
      OnlyIn cs s t) :
    OnlyIn cs s (State.auxTick t a1 a2) := by
  unfold State.auxTick
  extract_lets +onlyGivenNames -merge -underBinder x0
  have hx0 : OnlyIn cs s x0 := (State.measureV24_only hsums haux hsaf h)
  (try clear_value x0)
  exact (OnlyIn.ite hx0
        (by extract_lets +onlyGivenNames -merge -underBinder x1 x2; have hx2 : OnlyIn cs s x2 := (OnlyIn.setAux haux hx0); (try clear_value x1); (try clear_value x2); exact (State.forAll_only (fun _ _ k3 => (State.driveAux_only haux (State.pullIn_only haux k3))) hx2)))

theorem State.clearAux_only {cs : Block → Bool} {s t : State} {a1} (hsums : cs .sums = true) (haux : cs .aux = true) (h : OnlyIn cs s t) :
    OnlyIn cs s (State.clearAux t a1) := by
  unfold State.clearAux
  extract_lets +onlyGivenNames -merge -underBinder x0
  (try clear_value x0)
  exact (State.bumpIf_only hsums (State.setAux_only haux h))

theorem State.coolAux_only {cs : Block → Bool} {s t : State} {a1 a2} (hsums : cs .sums = true) (haux : cs .aux = true) (h : OnlyIn cs s t) :
    OnlyIn cs s (State.coolAux t a1 a2) := by
  unfold State.coolAux
  exact (State.bump_only hsums (State.setAux_only haux h))

theorem State.freewheelAux_only {cs : Block → Bool} {s t : State} {a1} (hsums : cs .sums = true) (haux : cs .aux = true) (h : OnlyIn cs s t) :
    OnlyIn cs s (State.freewheelAux t a1) := by
  unfold State.freewheelAux
  exact (State.bump_only hsums (State.setAux_only haux h))

theorem State.thermAux_only {cs : Block → Bool} {s t : State} {a1 a2} (hsums : cs .sums = true) (haux : cs .aux = true) (h : OnlyIn cs s t) :
    OnlyIn cs s (State.thermAux t a1 a2) := by
  unfold State.thermAux
  exact (State.bump_only hsums (State.setAux_only haux h))

theorem State.tripAux_only {cs : Block → Bool} {s t : State} {a1 a2 a3} (hsums : cs .sums = true) (hcapture : cs .capture = true) (haux : cs .aux =
      true) (hqueues : cs .queues = true) (h : OnlyIn cs s t) :
    OnlyIn cs s (State.tripAux t a1 a2 a3) := by
  unfold State.tripAux
  extract_lets +onlyGivenNames -merge -underBinder x0
  (try clear_value x0)
  extract_lets +onlyGivenNames -merge -underBinder x1
  (try clear_value x1)
  exact (OnlyIn.ite
        (by extract_lets +onlyGivenNames -merge -underBinder x2; have hx2 : OnlyIn cs s x2 := (State.setAux_only haux h); (try clear_value x2); exact (OnlyIn.ite (State.log_only hsums hcapture hqueues hx2) hx2))
        (State.bump_only hsums (State.setAux_only haux h)))

theorem State.protectAux_only {cs : Block → Bool} {s t : State} {a1 a2 a3} (hsums : cs .sums = true) (hcapture : cs .capture = true) (haux : cs .aux =
      true) (hqueues : cs .queues = true) (h : OnlyIn cs s t) :
    OnlyIn cs s (State.protectAux t a1 a2 a3) := by
  unfold State.protectAux
  extract_lets +onlyGivenNames -merge -underBinder x0
  (try clear_value x0)
  extract_lets +onlyGivenNames -merge -underBinder x1
  (try clear_value x1)
  extract_lets +onlyGivenNames -merge -underBinder x2
  have hx2 : OnlyIn cs s x2 := (State.setAux_only haux h)
  (try clear_value x2)
  extract_lets +onlyGivenNames -merge -underBinder x3
  have hx3 : OnlyIn cs s x3 := (by unfold x3; exact (OnlyIn.ite (State.freewheelAux_only hsums haux hx2) hx2))
  (try clear_value x3)
  extract_lets +onlyGivenNames -merge -underBinder x4
  (try clear_value x4)
  exact (OnlyIn.ite (OnlyIn.ite (State.coolAux_only hsums haux hx3) hx3) (OnlyIn.ite (State.thermAux_only hsums haux hx3) (OnlyIn.ite hx3 (OnlyIn.ite
        (State.tripAux_only hsums hcapture haux hqueues hx3) (OnlyIn.ite (State.tripAux_only hsums hcapture haux hqueues hx3)
        (by extract_lets +onlyGivenNames -merge -underBinder x5; (try clear_value x5); exact (OnlyIn.ite (State.bump_only hsums (State.setAux_only haux hx3)) (OnlyIn.ite (State.bump_only hsums (State.setAux_only haux hx3)) hx3))))))))

theorem State.writeAuxCmd_only {cs : Block → Bool} {s t : State} {a1 a2 a3} (hsums : cs .sums = true) (haux : cs .aux = true) (h : OnlyIn cs s t) :
    OnlyIn cs s (State.writeAuxCmd t a1 a2 a3) := by
  unfold State.writeAuxCmd
  extract_lets +onlyGivenNames -merge -underBinder x0
  have hx0 : OnlyIn cs s x0 := (State.setAux_only haux h)
  (try clear_value x0)
  exact (OnlyIn.ite (State.clearAux_only hsums haux hx0) hx0)

theorem auxWrite_eff {cs : Block → Bool} {a0 a1 a2} (hsums : cs .sums = true) (haux : cs .aux = true) :
    EffsIn cs (auxWrite a0 a1 a2) := by
  unfold auxWrite
  exact (EffsIn.ite (EffsIn.bind fun _ =>
        (by split; (next => exact (by extract_lets +onlyGivenNames -merge -underBinder x0; (try clear_value x0); exact (EffsIn.some (EffIn.mk (fun z2 _ k1 => (State.setAux_only haux k1)))))); (next => exact (EffsIn.some (EffIn.inRange (fun z4 _ k3 => (State.writeAuxCmd_only hsums haux k3))))); (next => exact (EffsIn.some roWord_eff)); (next => exact EffsIn.none)))
        (by split; (next => exact (EffsIn.some (EffIn.inRange (fun z6 _ k5 => (OnlyIn.setAux haux k5))))); (next => exact (EffsIn.some (EffIn.mk (fun z8 _ k7 => (OnlyIn.setAux haux k7))))); (next => exact (EffsIn.some roWord_eff)); (next => exact EffsIn.none)))

theorem doAuxClear_only {cs : Block → Bool} {s t : State} {a0 a1 a2 a3} (hmt : cs .mt = true) (hsums : cs .sums = true) (hanswer : cs .answer = true)
      (hviol : cs .viol = true) (hcapture : cs .capture = true) (haux : cs .aux = true) (hqueues : cs .queues = true) (h : OnlyIn cs s t) :
    OnlyIn cs s (doAuxClear a0 a1 a2 a3 t) := by
  unfold doAuxClear
  exact (whenLive_only hmt (fun _ k0 => (State.command_only hsums hanswer hviol hcapture hqueues (fun _ k1 => (State.writeAuxCmd_only hsums haux k1))
        k0)) h)

theorem doAuxCoolElapsed_only {cs : Block → Bool} {s t : State} {a0 a1} (hmt : cs .mt = true) (haux : cs .aux = true) (h : OnlyIn cs s t) :
    OnlyIn cs s (doAuxCoolElapsed a0 a1 t) := by
  unfold doAuxCoolElapsed
  extract_lets +onlyGivenNames -merge -underBinder x0
  have hx0 : OnlyIn cs s x0 := (State.arrive_only hmt h)
  (try clear_value x0)
  exact (by split; (next => exact (OnlyIn.ite (State.setAux_only haux hx0) hx0)); (next => exact hx0))

theorem doAuxHoldExpiry_only {cs : Block → Bool} {s t : State} {a0} (hmt : cs .mt = true) (haux : cs .aux = true) (h : OnlyIn cs s t) :
    OnlyIn cs s (doAuxHoldExpiry a0 t) := by
  unfold doAuxHoldExpiry
  extract_lets +onlyGivenNames -merge -underBinder x0
  have hx0 : OnlyIn cs s x0 := (State.arrive_only hmt h)
  (try clear_value x0)
  exact (OnlyIn.ite (State.auxFailAll_only haux hx0) hx0)

theorem doAuxProtectionCheck_only {cs : Block → Bool} {s t : State} {a0 a1} (hmt : cs .mt = true) (hsums : cs .sums = true) (hcapture : cs .capture =
      true) (haux : cs .aux = true) (hqueues : cs .queues = true) (h : OnlyIn cs s t) :
    OnlyIn cs s (doAuxProtectionCheck a0 a1 t) := by
  unfold doAuxProtectionCheck
  extract_lets +onlyGivenNames -merge -underBinder x0
  have hx0 : OnlyIn cs s x0 := (State.arrive_only hmt h)
  (try clear_value x0)
  exact (OnlyIn.ite hx0
        (by extract_lets +onlyGivenNames -merge -underBinder x1; have hx1 : OnlyIn cs s x1 := (State.forAll_only (fun _ _ k2 => (by split; (next => exact (State.protectAux_only hsums hcapture haux hqueues k2)); (next => exact k2))) hx0); (try clear_value x1); exact (by extract_lets +onlyGivenNames -merge -underBinder x3; (try clear_value x3); exact (OnlyIn.setAux haux hx1))))

theorem doAuxRetry_only {cs : Block → Bool} {s t : State} {a0 a1} (hmt : cs .mt = true) (hsums : cs .sums = true) (haux : cs .aux = true) (h : OnlyIn
      cs s t) :
    OnlyIn cs s (doAuxRetry a0 a1 t) := by
  unfold doAuxRetry
  exact (whenLive_only hmt (fun _ k0 =>
        (by extract_lets +onlyGivenNames -merge -underBinder x1; (try clear_value x1); exact (by split; (next => exact (OnlyIn.ite (State.bump_only hsums (State.driveAux_only haux (State.setAux_only haux k0))) k0)); (next => exact k0))))
        h)

theorem doAuxRetryCountReset_only {cs : Block → Bool} {s t : State} {a0 a1} (hmt : cs .mt = true) (haux : cs .aux = true) (h : OnlyIn cs s t) :
    OnlyIn cs s (doAuxRetryCountReset a0 a1 t) := by
  unfold doAuxRetryCountReset
  extract_lets +onlyGivenNames -merge -underBinder x0
  have hx0 : OnlyIn cs s x0 := (State.arrive_only hmt h)
  (try clear_value x0)
  exact (by split; (next => exact (OnlyIn.ite (State.setAux_only haux hx0) hx0)); (next => exact hx0))

theorem doAuxTotalShed_only {cs : Block → Bool} {s t : State} {a0} (hmt : cs .mt = true) (hsums : cs .sums = true) (hcapture : cs .capture = true)
      (haux : cs .aux = true) (hqueues : cs .queues = true) (h : OnlyIn cs s t) :
    OnlyIn cs s (doAuxTotalShed a0 t) := by
  unfold doAuxTotalShed
  extract_lets +onlyGivenNames -merge -underBinder x0
  have hx0 : OnlyIn cs s x0 := (State.arrive_only hmt h)
  (try clear_value x0)
  extract_lets +onlyGivenNames -merge -underBinder x1
  (try clear_value x1)
  exact (OnlyIn.ite
        (by split; (next => exact (State.setAux_only haux (State.tripAux_only hsums hcapture haux hqueues (OnlyIn.setAux haux hx0)))); (next => exact hx0))
        hx0)

theorem doValvePullInEnd_only {cs : Block → Bool} {s t : State} {a0 a1} (hmt : cs .mt = true) (haux : cs .aux = true) (h : OnlyIn cs s t) :
    OnlyIn cs s (doValvePullInEnd a0 a1 t) := by
  unfold doValvePullInEnd
  exact (whenLive_only hmt (fun _ k0 =>
        (by split; (next => exact (OnlyIn.ite (State.driveAux_only haux (State.setAux_only haux k0)) k0)); (next => exact k0))) h)

theorem doVin24Return_only {cs : Block → Bool} {s t : State} {a0 a1} (hmt : cs .mt = true) (hsums : cs .sums = true) (hassume : cs .assume = true)
      (hpwr : cs .pwr = true) (haux : cs .aux = true) (h : OnlyIn cs s t) :
    OnlyIn cs s (doVin24Return a0 a1 t) := by
  unfold doVin24Return
  extract_lets +onlyGivenNames -merge -underBinder x0
  have hx0 : OnlyIn cs s x0 := (State.arrive_only hmt h)
  (try clear_value x0)
  extract_lets +onlyGivenNames -merge -underBinder x1
  have hx1 : OnlyIn cs s x1 := (State.auxRestart_only haux hx0)
  (try clear_value x1)
  exact (OnlyIn.ite (State.refreshAssume_only hsums hassume (State.bumpIf_only hsums (OnlyIn.setPwr hpwr hx1))) hx1)

theorem State.logFlag_only {cs : Block → Bool} {s t : State} {a1} (hsums : cs .sums = true) (hcapture : cs .capture = true) (hqueues : cs .queues =
      true) (h : OnlyIn cs s t) :
    OnlyIn cs s (State.logFlag t a1) := by
  unfold State.logFlag
  exact (OnlyIn.ite (State.log_only hsums hcapture hqueues h) h)

theorem State.setKind_only {cs : Block → Bool} {s t : State} {a1 a2} (hmet : cs .met = true) (h : OnlyIn cs s t) :
    OnlyIn cs s (State.setKind t a1 a2) := by
  unfold State.setKind
  exact (OnlyIn.setMet hmet h)

theorem State.flagsBlock_only {cs : Block → Bool} {s t : State} {a1 a2 a3} (hsums : cs .sums = true) (hcapture : cs .capture = true) (hmet : cs .met =
      true) (hqueues : cs .queues = true) (h : OnlyIn cs s t) :
    OnlyIn cs s (State.flagsBlock t a1 a2 a3) := by
  unfold State.flagsBlock
  extract_lets +onlyGivenNames -merge -underBinder x0
  (try clear_value x0)
  extract_lets +onlyGivenNames -merge -underBinder x1
  (try clear_value x1)
  extract_lets +onlyGivenNames -merge -underBinder x2
  (try clear_value x2)
  extract_lets +onlyGivenNames -merge -underBinder x3
  (try clear_value x3)
  extract_lets +onlyGivenNames -merge -underBinder x4
  (try clear_value x4)
  extract_lets +onlyGivenNames -merge -underBinder x5
  (try clear_value x5)
  extract_lets +onlyGivenNames -merge -underBinder x6 x7
  (try clear_value x6)
  (try clear_value x7)
  extract_lets +onlyGivenNames -merge -underBinder x8
  (try clear_value x8)
  extract_lets +onlyGivenNames -merge -underBinder x9
  (try clear_value x9)
  extract_lets +onlyGivenNames -merge -underBinder x10
  (try clear_value x10)
  extract_lets +onlyGivenNames -merge -underBinder x11 x12
  have hx12 : OnlyIn cs s x12 := (OnlyIn.setMet hmet h)
  (try clear_value x11)
  (try clear_value x12)
  extract_lets +onlyGivenNames -merge -underBinder x13
  have hx13 : OnlyIn cs s x13 := (State.logFlag_only hsums hcapture hqueues hx12)
  (try clear_value x13)
  extract_lets +onlyGivenNames -merge -underBinder x14 x15
  have hx15 : OnlyIn cs s x15 := (OnlyIn.setMet hmet hx13)
  (try clear_value x14)
  (try clear_value x15)
  extract_lets +onlyGivenNames -merge -underBinder x16
  have hx16 : OnlyIn cs s x16 := (State.logFlag_only hsums hcapture hqueues hx15)
  (try clear_value x16)
  extract_lets +onlyGivenNames -merge -underBinder x17 x18
  have hx18 : OnlyIn cs s x18 := (OnlyIn.setMet hmet hx16)
  (try clear_value x17)
  (try clear_value x18)
  extract_lets +onlyGivenNames -merge -underBinder x19
  have hx19 : OnlyIn cs s x19 := (State.logFlag_only hsums hcapture hqueues hx18)
  (try clear_value x19)
  extract_lets +onlyGivenNames -merge -underBinder x20
  (try clear_value x20)
  exact (State.setKind_only hmet hx19)

theorem State.acBlock_only {cs : Block → Bool} {s t : State} {a1 a2} (hsums : cs .sums = true) (hcapture : cs .capture = true) (hmet : cs .met = true)
      (hqueues : cs .queues = true) (h : OnlyIn cs s t) :
    OnlyIn cs s (State.acBlock t a1 a2) := by
  unfold State.acBlock
  extract_lets +onlyGivenNames -merge -underBinder x0
  (try clear_value x0)
  extract_lets +onlyGivenNames -merge -underBinder x1
  (try clear_value x1)
  extract_lets +onlyGivenNames -merge -underBinder x2
  (try clear_value x2)
  extract_lets +onlyGivenNames -merge -underBinder x3
  (try clear_value x3)
  extract_lets +onlyGivenNames -merge -underBinder x4
  extract_lets +onlyGivenNames -merge -underBinder x5
  extract_lets +onlyGivenNames -merge -underBinder x6
  (try clear_value x6)
  extract_lets +onlyGivenNames -merge -underBinder x7 x8
  have hx8 : OnlyIn cs s x8 := (OnlyIn.setMet hmet h)
  (try clear_value x7)
  (try clear_value x8)
  exact (State.flagsBlock_only hsums hcapture hmet hqueues hx8)

theorem State.withholdReceipt_only {cs : Block → Bool} {s t : State} {a1} (hsums : cs .sums = true) (hcapture : cs .capture = true) (hmet : cs .met =
      true) (hqueues : cs .queues = true) (h : OnlyIn cs s t) :
    OnlyIn cs s (State.withholdReceipt t a1) := by
  unfold State.withholdReceipt
  exact (State.log_only hsums hcapture hqueues (State.setKind_only hmet h))

theorem State.issueReceipt_only {cs : Block → Bool} {s t : State} {a1 a2 a3} (hsums : cs .sums = true) (hcapture : cs .capture = true) (hmet : cs .met
      = true) (hqueues : cs .queues = true) (h : OnlyIn cs s t) :
    OnlyIn cs s (State.issueReceipt t a1 a2 a3) := by
  unfold State.issueReceipt
  exact
        (by split <;> first | exact (OnlyIn.ite (State.withholdReceipt_only hsums hcapture hmet hqueues h) (by extract_lets +onlyGivenNames -merge -underBinder x0; (try clear_value x0); exact (by extract_lets +onlyGivenNames -merge -underBinder x1; (try clear_value x1); exact (by extract_lets +onlyGivenNames -merge -underBinder x2; (try clear_value x2); exact (by extract_lets +onlyGivenNames -merge -underBinder x3 x4; have hx4 : OnlyIn cs s x4 := (OnlyIn.setMet hmet h); (try clear_value x3); (try clear_value x4); exact (State.setKind_only hmet hx4)))))) | exact h)

theorem State.closeDead_only {cs : Block → Bool} {s t : State} {a1 a2} (hsums : cs .sums = true) (hcapture : cs .capture = true) (hmet : cs .met =
      true) (hqueues : cs .queues = true) (h : OnlyIn cs s t) :
    OnlyIn cs s (State.closeDead t a1 a2) := by
  unfold State.closeDead
  extract_lets +onlyGivenNames -merge -underBinder x0 x1
  have hx1 : OnlyIn cs s x1 := (OnlyIn.setMet hmet h)
  (try clear_value x0)
  (try clear_value x1)
  exact (State.bump_only hsums (State.issueReceipt_only hsums hcapture hmet hqueues hx1))

theorem State.closeDeadBefore_only {cs : Block → Bool} {s t : State} {a1} (hsums : cs .sums = true) (hcapture : cs .capture = true) (hmet : cs .met =
      true) (hqueues : cs .queues = true) (h : OnlyIn cs s t) :
    OnlyIn cs s (State.closeDeadBefore t a1) := by
  unfold State.closeDeadBefore
  exact (OnlyIn.foldl (fun _ _ k0 =>
        (by split; (next => exact (OnlyIn.ite (State.closeDead_only hsums hcapture hmet hqueues k0) k0)); (next => exact k0))) h)

theorem State.boundaryReceipts_only {cs : Block → Bool} {s t : State} {a1} (hsums : cs .sums = true) (hcapture : cs .capture = true) (hmet : cs .met =
      true) (hqueues : cs .queues = true) (h : OnlyIn cs s t) :
    OnlyIn cs s (State.boundaryReceipts t a1) := by
  unfold State.boundaryReceipts
  extract_lets +onlyGivenNames -merge -underBinder x0 x1
  have hx1 : OnlyIn cs s x1 := (State.closeDeadBefore_only hsums hcapture hmet hqueues (OnlyIn.setMet hmet h))
  (try clear_value x0)
  (try clear_value x1)
  extract_lets +onlyGivenNames -merge -underBinder x2
  have hx2 : OnlyIn cs s x2 := (State.issueReceipt_only hsums hcapture hmet hqueues hx1)
  (try clear_value x2)
  exact (OnlyIn.foldl (fun _ _ k3 => (by split; (next => exact (State.issueReceipt_only hsums hcapture hmet hqueues k3)); (next => exact k3))) hx2)

theorem State.breakRuns_only {cs : Block → Bool} {s t : State} (hmet : cs .met = true) (h : OnlyIn cs s t) :
    OnlyIn cs s (State.breakRuns t) := by
  unfold State.breakRuns
  exact (OnlyIn.setMet hmet h)

theorem State.passedReceipts_only {cs : Block → Bool} {s t : State} {a1} (hsums : cs .sums = true) (hcapture : cs .capture = true) (hmet : cs .met =
      true) (hqueues : cs .queues = true) (h : OnlyIn cs s t) :
    OnlyIn cs s (State.passedReceipts t a1) := by
  unfold State.passedReceipts
  exact (OnlyIn.foldl (fun _ _ k0 => (State.boundaryReceipts_only hsums hcapture hmet hqueues k0)) h)

theorem State.closeDeadAt_only {cs : Block → Bool} {s t : State} {a1 a2} (hsums : cs .sums = true) (hcapture : cs .capture = true) (hmet : cs .met =
      true) (hqueues : cs .queues = true) (h : OnlyIn cs s t) :
    OnlyIn cs s (State.closeDeadAt t a1 a2) := by
  unfold State.closeDeadAt
  exact (by split; (next => exact (OnlyIn.ite (State.closeDead_only hsums hcapture hmet hqueues h) h)); (next => exact h))

theorem State.closeSet_only {cs : Block → Bool} {s t : State} {a1} (hsums : cs .sums = true) (hcapture : cs .capture = true) (hmet : cs .met = true)
      (hqueues : cs .queues = true) (h : OnlyIn cs s t) :
    OnlyIn cs s (State.closeSet t a1) := by
  unfold State.closeSet
  exact (OnlyIn.foldl (fun _ _ k0 => (State.closeDeadAt_only hsums hcapture hmet hqueues (State.issueReceipt_only hsums hcapture hmet hqueues k0)))
        (State.issueReceipt_only hsums hcapture hmet hqueues (State.closeDeadBefore_only hsums hcapture hmet hqueues h)))

theorem State.calEffect_only {cs : Block → Bool} {s t : State} (hsums : cs .sums = true) (hcapture : cs .capture = true) (hmet : cs .met = true)
      (hqueues : cs .queues = true) (h : OnlyIn cs s t) :
    OnlyIn cs s (State.calEffect t) := by
  unfold State.calEffect
  exact
        (by split; (next => exact h); (next => exact (by extract_lets +onlyGivenNames -merge -underBinder x0; have hx0 : OnlyIn cs s x0 := (by unfold x0; exact (by split; (next => exact (State.passedReceipts_only hsums hcapture hmet hqueues h)); (next => exact h))); (try clear_value x0); exact (by extract_lets +onlyGivenNames -merge -underBinder x1; have hx1 : OnlyIn cs s x1 := (by unfold x1; exact (by split <;> first | exact (State.closeSet_only hsums hcapture hmet hqueues hx0) | exact hx0)); (try clear_value x1); exact (OnlyIn.setMet hmet hx1)))))

theorem State.calStats_only {cs : Block → Bool} {s t : State} {a1 a2} (hmet : cs .met = true) (h : OnlyIn cs s t) :
    OnlyIn cs s (State.calStats t a1 a2) := by
  unfold State.calStats
  extract_lets +onlyGivenNames -merge -underBinder x0
  (try clear_value x0)
  extract_lets +onlyGivenNames -merge -underBinder x1
  exact (OnlyIn.setMet hmet h)

theorem State.chargeMet_only {cs : Block → Bool} {s t : State} {a1} (hmram : cs .mram = true) (h : OnlyIn cs s t) :
    OnlyIn cs s (State.chargeMet t a1) := by
  unfold State.chargeMet
  exact (OnlyIn.setMram hmram h)

theorem State.computeSample_only {cs : Block → Bool} {s t : State} {a1 a2 a3 a4} (hmet : cs .met = true) (h : OnlyIn cs s t) :
    OnlyIn cs s (State.computeSample t a1 a2 a3 a4) := by
  unfold State.computeSample
  extract_lets +onlyGivenNames -merge -underBinder x0
  extract_lets +onlyGivenNames -merge -underBinder x1
  (try clear_value x1)
  extract_lets +onlyGivenNames -merge -underBinder x2
  (try clear_value x2)
  extract_lets +onlyGivenNames -merge -underBinder x3
  (try clear_value x3)
  extract_lets +onlyGivenNames -merge -underBinder x4
  (try clear_value x4)
  extract_lets +onlyGivenNames -merge -underBinder x5
  (try clear_value x5)
  extract_lets +onlyGivenNames -merge -underBinder x6
  (try clear_value x6)
  extract_lets +onlyGivenNames -merge -underBinder x7
  (try clear_value x7)
  extract_lets +onlyGivenNames -merge -underBinder x8
  extract_lets +onlyGivenNames -merge -underBinder x9
  (try clear_value x9)
  exact (OnlyIn.setMet hmet h)

theorem State.crossBoundary_only {cs : Block → Bool} {s t : State} {a1 a2 a3 a4} (hmet : cs .met = true) (h : OnlyIn cs s t) :
    OnlyIn cs s (State.crossBoundary t a1 a2 a3 a4) := by
  unfold State.crossBoundary
  extract_lets +onlyGivenNames -merge -underBinder x0
  (try clear_value x0)
  extract_lets +onlyGivenNames -merge -underBinder x1
  (try clear_value x1)
  extract_lets +onlyGivenNames -merge -underBinder x2
  (try clear_value x2)
  exact (OnlyIn.setMet hmet h)

theorem State.endBlock_only {cs : Block → Bool} {s t : State} {a1} (hmet : cs .met = true) (h : OnlyIn cs s t) :
    OnlyIn cs s (State.endBlock t a1) := by
  unfold State.endBlock
  exact (OnlyIn.setMet hmet h)

theorem State.gapAll_only {cs : Block → Bool} {s t : State} (hmet : cs .met = true) (h : OnlyIn cs s t) :
    OnlyIn cs s (State.gapAll t) := by
  unfold State.gapAll
  exact (OnlyIn.setMet hmet h)

theorem State.giveData_only {cs : Block → Bool} {s t : State} {a1 a2 a3 a4} (hsums : cs .sums = true) (hanswer : cs .answer = true) (hviol : cs .viol
      = true) (hcapture : cs .capture = true) (hqueues : cs .queues = true) (h : OnlyIn cs s t) :
    OnlyIn cs s (State.giveData t a1 a2 a3 a4) := by
  unfold State.giveData
  exact (State.answered_only hsums hanswer hviol hcapture hqueues (OnlyIn.setHost ⟨.inr (by rfl), .inl hanswer, .inr (by rfl), .inr (by rfl)⟩ h))

theorem State.liveTick_only {cs : Block → Bool} {s t : State} {a1 a2 a3 a4 a5} (hsums : cs .sums = true) (hmet : cs .met = true) (h : OnlyIn cs s t) :
    OnlyIn cs s (State.liveTick t a1 a2 a3 a4 a5) := by
  unfold State.liveTick
  exact (OnlyIn.ite
        (by extract_lets +onlyGivenNames -merge -underBinder x0; (try clear_value x0); exact (by extract_lets +onlyGivenNames -merge -underBinder x1 x2; have hx2 : OnlyIn cs s x2 := (OnlyIn.setMet hmet h); (try clear_value x1); (try clear_value x2); exact (OnlyIn.ite (OnlyIn.setMet hmet hx2) (OnlyIn.ite (OnlyIn.setMet hmet hx2) hx2))))
        (OnlyIn.ite (State.bump_only hsums (OnlyIn.setMet hmet h)) h))

theorem State.writeCheckpoint_only {cs : Block → Bool} {s t : State} (hmet : cs .met = true) (hmram : cs .mram = true) (h : OnlyIn cs s t) :
    OnlyIn cs s (State.writeCheckpoint t) := by
  unfold State.writeCheckpoint
  extract_lets +onlyGivenNames -merge -underBinder x0
  (try clear_value x0)
  extract_lets +onlyGivenNames -merge -underBinder x1
  (try clear_value x1)
  extract_lets +onlyGivenNames -merge -underBinder x2
  (try clear_value x2)
  extract_lets +onlyGivenNames -merge -underBinder x3
  have hx3 : OnlyIn cs s x3 := (State.chargeMet_only hmram h)
  (try clear_value x3)
  exact (OnlyIn.ite (OnlyIn.setMet hmet hx3) (OnlyIn.setMet hmet hx3))

theorem State.publish_only {cs : Block → Bool} {s t : State} {a1} (hmet : cs .met = true) (h : OnlyIn cs s t) :
    OnlyIn cs s (State.publish t a1) := by
  unfold State.publish
  extract_lets +onlyGivenNames -merge -underBinder x0
  (try clear_value x0)
  extract_lets +onlyGivenNames -merge -underBinder x1
  (try clear_value x1)
  exact (OnlyIn.setMet hmet h)

theorem State.metCommit_only {cs : Block → Bool} {s t : State} {a1 a2 a3} (hsums : cs .sums = true) (hmet : cs .met = true) (hmram : cs .mram = true)
      (h : OnlyIn cs s t) :
    OnlyIn cs s (State.metCommit t a1 a2 a3) := by
  unfold State.metCommit
  extract_lets +onlyGivenNames -merge -underBinder x0
  (try clear_value x0)
  exact
        (by split; (next => exact (State.bumpIf_only hsums (OnlyIn.setMet hmet h))); (next => exact (by extract_lets +onlyGivenNames -merge -underBinder x1; (try clear_value x1); exact (by extract_lets +onlyGivenNames -merge -underBinder x2; (try clear_value x2); exact (by extract_lets +onlyGivenNames -merge -underBinder x3; (try clear_value x3); exact (by extract_lets +onlyGivenNames -merge -underBinder x4; (try clear_value x4); exact (by extract_lets +onlyGivenNames -merge -underBinder x5 x6; have hx6 : OnlyIn cs s x6 := (State.bumpIf_only hsums (OnlyIn.setMet hmet h)); (try clear_value x5); (try clear_value x6); exact (by extract_lets +onlyGivenNames -merge -underBinder x7 x8; (try clear_value x7); (try clear_value x8); exact (by extract_lets +onlyGivenNames -merge -underBinder x9; have hx9 : OnlyIn cs s x9 := (OnlyIn.foldl (fun _ _ k10 => (State.liveTick_only hsums hmet k10)) hx6); (try clear_value x9); exact (State.writeCheckpoint_only hmet hmram (State.publish_only hmet hx9)))))))))))

theorem State.metRestart_only {cs : Block → Bool} {s t : State} (hsums : cs .sums = true) (hcapture : cs .capture = true) (hmet : cs .met = true)
      (hqueues : cs .queues = true) (h : OnlyIn cs s t) :
    OnlyIn cs s (State.metRestart t) := by
  unfold State.metRestart
  extract_lets +onlyGivenNames -merge -underBinder x0
  (try clear_value x0)
  extract_lets +onlyGivenNames -merge -underBinder x1
  (try clear_value x1)
  extract_lets +onlyGivenNames -merge -underBinder x2
  extract_lets +onlyGivenNames -merge -underBinder x3
  extract_lets +onlyGivenNames -merge -underBinder x4
  extract_lets +onlyGivenNames -merge -underBinder x5
  (try clear_value x5)
  extract_lets +onlyGivenNames -merge -underBinder x6 x7
  (try clear_value x6)
  (try clear_value x7)
  extract_lets +onlyGivenNames -merge -underBinder x8
  have hx8 : OnlyIn cs s x8 := (OnlyIn.setMet hmet h)
  (try clear_value x8)
  extract_lets +onlyGivenNames -merge -underBinder x9
  have hx9 : OnlyIn cs s x9 := (by unfold x9; exact (by split; (next => exact (OnlyIn.setMet hmet hx8)); (next => exact hx8)))
  (try clear_value x9)
  exact (OnlyIn.ite (State.log_only hsums hcapture hqueues hx9) hx9)

theorem State.metResume_only {cs : Block → Bool} {s t : State} (hmet : cs .met = true) (h : OnlyIn cs s t) :
    OnlyIn cs s (State.metResume t) := by
  unfold State.metResume
  exact (State.gapAll_only hmet (OnlyIn.setMet hmet h))

theorem State.metSample_only {cs : Block → Bool} {s t : State} {a1} (hsums : cs .sums = true) (hcapture : cs .capture = true) (hmet : cs .met = true)
      (hqueues : cs .queues = true) (h : OnlyIn cs s t) :
    OnlyIn cs s (State.metSample t a1) := by
  unfold State.metSample
  extract_lets +onlyGivenNames -merge -underBinder x0
  have hx0 : OnlyIn cs s x0 :=
        (by unfold x0; exact (by split; (next => exact (OnlyIn.ite (State.calEffect_only hsums hcapture hmet hqueues h) h)); (next => exact h)))
  (try clear_value x0)
  extract_lets +onlyGivenNames -merge -underBinder x1
  have hx1 : OnlyIn cs s x1 := (by unfold x1; exact (by split; (next => exact (OnlyIn.ite (OnlyIn.setMet hmet hx0) hx0)); (next => exact hx0)))
  (try clear_value x1)
  extract_lets +onlyGivenNames -merge -underBinder x2
  (try clear_value x2)
  extract_lets +onlyGivenNames -merge -underBinder x3
  (try clear_value x3)
  extract_lets +onlyGivenNames -merge -underBinder x4
  (try clear_value x4)
  extract_lets +onlyGivenNames -merge -underBinder x5
  (try clear_value x5)
  extract_lets +onlyGivenNames -merge -underBinder x6
  (try clear_value x6)
  extract_lets +onlyGivenNames -merge -underBinder x7 x8
  have hx8 : OnlyIn cs s x8 := (OnlyIn.setMet hmet hx1)
  (try clear_value x7)
  (try clear_value x8)
  exact (by split; (next => exact (State.crossBoundary_only hmet (State.computeSample_only hmet hx8))); (next => exact hx8))

theorem State.metStop_only {cs : Block → Bool} {s t : State} (hmet : cs .met = true) (hmram : cs .mram = true) (h : OnlyIn cs s t) :
    OnlyIn cs s (State.metStop t) := by
  unfold State.metStop
  exact (State.writeCheckpoint_only hmet hmram (OnlyIn.setMet hmet h))

theorem State.newReceiptKey_only {cs : Block → Bool} {s t : State} (hdraws : cs .draws = true) (hmet : cs .met = true) (h : OnlyIn cs s t) :
    OnlyIn cs s (State.newReceiptKey t) := by
  unfold State.newReceiptKey
  extract_lets +onlyGivenNames -merge -underBinder x0
  have hx0 : OnlyIn cs s x0.2 := (State.drawBytes_only hdraws h)
  (try clear_value x0)
  extract_lets +onlyGivenNames -merge -underBinder x1
  have hx1 : OnlyIn cs s x1 := hx0
  (try clear_value x1)
  exact (OnlyIn.setMet hmet hx1)

theorem State.setLatch_only {cs : Block → Bool} {s t : State} {a1 a2} (hhost : cs .host = true) (h : OnlyIn cs s t) :
    OnlyIn cs s (State.setLatch t a1 a2) := by
  unfold State.setLatch
  exact
        (by split; (next => exact (OnlyIn.setHost ⟨.inr (by rfl), .inr (by rfl), .inr (by rfl), .inl hhost⟩ h)); (next => exact (OnlyIn.setHost ⟨.inr (by rfl), .inr (by rfl), .inr (by rfl), .inl hhost⟩ h)); (next => exact (OnlyIn.setHost ⟨.inr (by rfl), .inr (by rfl), .inr (by rfl), .inl hhost⟩ h)); (next => exact h))

theorem State.readTallyLow_only {cs : Block → Bool} {s t : State} {a1 a2} (hhost : cs .host = true) (h : OnlyIn cs s t) :
    OnlyIn cs s (State.readTallyLow t a1 a2).2 := by
  unfold State.readTallyLow
  extract_lets +onlyGivenNames -merge -underBinder x0
  (try clear_value x0)
  exact (OnlyIn.pairSnd (State.setLatch_only hhost h))

theorem State.storeReceipt_only {cs : Block → Bool} {s t : State} {a1 a2} (hmet : cs .met = true) (h : OnlyIn cs s t) :
    OnlyIn cs s (State.storeReceipt t a1 a2) := by
  unfold State.storeReceipt
  exact (OnlyIn.setMet hmet h)

theorem State.takeCalSet_only {cs : Block → Bool} {s t : State} {a1 a2} (hdraws : cs .draws = true) (hsums : cs .sums = true) (hcapture : cs .capture
      = true) (hmet : cs .met = true) (hqueues : cs .queues = true) (h : OnlyIn cs s t) :
    OnlyIn cs s (State.takeCalSet t a1 a2) := by
  unfold State.takeCalSet
  extract_lets +onlyGivenNames -merge -underBinder x0
  (try clear_value x0)
  extract_lets +onlyGivenNames -merge -underBinder x1 x2
  have hx2 : OnlyIn cs s x2 := (OnlyIn.setMet hmet h)
  (try clear_value x1)
  (try clear_value x2)
  exact (OnlyIn.ite (State.log_only hsums hcapture hqueues hx2)
        (by extract_lets +onlyGivenNames -merge -underBinder x3; (try clear_value x3); exact (by extract_lets +onlyGivenNames -merge -underBinder x4; have hx4 : OnlyIn cs s x4 := (by unfold x4; exact (OnlyIn.ite (State.newReceiptKey_only hdraws hmet hx2) hx2)); (try clear_value x4); exact (by extract_lets +onlyGivenNames -merge -underBinder x5 x6; have hx6 : OnlyIn cs s x6 := (OnlyIn.setMet hmet hx4); (try clear_value x5); (try clear_value x6); exact (by extract_lets +onlyGivenNames -merge -underBinder x7; (try clear_value x7); exact (by extract_lets +onlyGivenNames -merge -underBinder x8 x9; have hx9 : OnlyIn cs s x9 := (OnlyIn.setMet hmet hx6); (try clear_value x8); (try clear_value x9); exact (State.log_only hsums hcapture hqueues hx9)))))))

theorem State.takeRaw_only {cs : Block → Bool} {s t : State} {a1 a2} (hmet : cs .met = true) (h : OnlyIn cs s t) :
    OnlyIn cs s (State.takeRaw t a1 a2) := by
  unfold State.takeRaw
  exact (OnlyIn.setMet hmet h)

theorem ackEffect_eff {cs : Block → Bool} {a0 a1} (hmet : cs .met = true) :
    EffIn cs (ackEffect a0 a1) := by
  unfold ackEffect
  exact (EffIn.inRange (fun z1 _ k0 => (OnlyIn.setMet hmet k0)))

theorem doBayDead_only {cs : Block → Bool} {s t : State} {a0 a1} (hmt : cs .mt = true) (hsums : cs .sums = true) (hcapture : cs .capture = true) (hmet
      : cs .met = true) (hqueues : cs .queues = true) (h : OnlyIn cs s t) :
    OnlyIn cs s (doBayDead a0 a1 t) := by
  unfold doBayDead
  extract_lets +onlyGivenNames -merge -underBinder x0
  have hx0 : OnlyIn cs s x0 := (State.arrive_only hmt h)
  (try clear_value x0)
  exact
        (by split; (next => exact (OnlyIn.ite (by extract_lets +onlyGivenNames -merge -underBinder x1; have hx1 : OnlyIn cs s x1 := (State.passedReceipts_only hsums hcapture hmet hqueues hx0); (try clear_value x1); exact (OnlyIn.ite (State.closeDead_only hsums hcapture hmet hqueues hx1) hx1)) hx0)); (next => exact hx0))

theorem doCalBlock_only {cs : Block → Bool} {s t : State} {a0} (hmt : cs .mt = true) (hsums : cs .sums = true) (hcapture : cs .capture = true) (hmet :
      cs .met = true) (hqueues : cs .queues = true) (h : OnlyIn cs s t) :
    OnlyIn cs s (doCalBlock a0 t) := by
  unfold doCalBlock
  extract_lets +onlyGivenNames -merge -underBinder x0
  have hx0 : OnlyIn cs s x0 := (State.arrive_only hmt h)
  (try clear_value x0)
  extract_lets +onlyGivenNames -merge -underBinder x1
  (try clear_value x1)
  extract_lets +onlyGivenNames -merge -underBinder x2
  (try clear_value x2)
  exact (OnlyIn.ite
        (by extract_lets +onlyGivenNames -merge -underBinder x3; have hx3 : OnlyIn cs s x3 := (by unfold x3; exact (OnlyIn.ite hx0 (State.breakRuns_only hmet hx0))); (try clear_value x3); exact (by extract_lets +onlyGivenNames -merge -underBinder x4; have hx4 : OnlyIn cs s x4 := (State.calStats_only hmet (State.endBlock_only hmet hx3)); (try clear_value x4); exact (by split; (next => exact (State.acBlock_only hsums hcapture hmet hqueues hx4)); (next => exact hx4))))
        hx0)

theorem doCalSetEffect_only {cs : Block → Bool} {s t : State} {a0} (hmt : cs .mt = true) (hsums : cs .sums = true) (hcapture : cs .capture = true)
      (hmet : cs .met = true) (hqueues : cs .queues = true) (h : OnlyIn cs s t) :
    OnlyIn cs s (doCalSetEffect a0 t) := by
  unfold doCalSetEffect
  extract_lets +onlyGivenNames -merge -underBinder x0
  have hx0 : OnlyIn cs s x0 := (State.arrive_only hmt h)
  (try clear_value x0)
  exact (by split; (next => exact (OnlyIn.ite (State.calEffect_only hsums hcapture hmet hqueues hx0) hx0)); (next => exact hx0))

theorem doMetrologyCommit_only {cs : Block → Bool} {s t : State} {a0} (hmt : cs .mt = true) (hsums : cs .sums = true) (hmet : cs .met = true) (hmram :
      cs .mram = true) (h : OnlyIn cs s t) :
    OnlyIn cs s (doMetrologyCommit a0 t) := by
  unfold doMetrologyCommit
  extract_lets +onlyGivenNames -merge -underBinder x0
  have hx0 : OnlyIn cs s x0 := (State.arrive_only hmt h)
  (try clear_value x0)
  exact (by split; (next => exact (OnlyIn.ite (State.metCommit_only hsums hmet hmram hx0) hx0)); (next => exact hx0))

theorem doMetrologySample_only {cs : Block → Bool} {s t : State} {a0 a1 a2} (hmt : cs .mt = true) (hsums : cs .sums = true) (hcapture : cs .capture =
      true) (hmet : cs .met = true) (hqueues : cs .queues = true) (h : OnlyIn cs s t) :
    OnlyIn cs s (doMetrologySample a0 a1 a2 t) := by
  unfold doMetrologySample
  extract_lets +onlyGivenNames -merge -underBinder x0
  have hx0 : OnlyIn cs s x0 := (State.arrive_only hmt h)
  (try clear_value x0)
  exact (OnlyIn.ite
        (by extract_lets +onlyGivenNames -merge -underBinder x1; have hx1 : OnlyIn cs s x1 := (State.takeRaw_only hmet hx0); (try clear_value x1); exact (OnlyIn.ite (State.metSample_only hsums hcapture hmet hqueues hx1) hx1))
        hx0)

theorem doRcptAck_only {cs : Block → Bool} {s t : State} {a0 a1 a2} (hmt : cs .mt = true) (hsums : cs .sums = true) (hanswer : cs .answer = true)
      (hviol : cs .viol = true) (hcapture : cs .capture = true) (hmet : cs .met = true) (hqueues : cs .queues = true) (h : OnlyIn cs s t) :
    OnlyIn cs s (doRcptAck a0 a1 a2 t) := by
  unfold doRcptAck
  exact (whenLive_only hmt (fun _ k0 => (State.command_only hsums hanswer hviol hcapture hqueues (fun _ k1 => ((ackEffect_eff hmet) _ _ k1)) k0)) h)

theorem doReceiptDrain_only {cs : Block → Bool} {s t : State} {a0} (hmt : cs .mt = true) (hsums : cs .sums = true) (hmet : cs .met = true) (hmram : cs
      .mram = true) (h : OnlyIn cs s t) :
    OnlyIn cs s (doReceiptDrain a0 t) := by
  unfold doReceiptDrain
  exact (whenLive_only hmt (fun _ k0 =>
        (by split; (next => exact (OnlyIn.ite (State.bump_only hsums (State.storeReceipt_only hmet (State.chargeMet_only hmram k0))) k0)); (next => exact k0)))
        h)

theorem doReceiptIssue_only {cs : Block → Bool} {s t : State} {a0} (hmt : cs .mt = true) (hsums : cs .sums = true) (hcapture : cs .capture = true)
      (hmet : cs .met = true) (hqueues : cs .queues = true) (h : OnlyIn cs s t) :
    OnlyIn cs s (doReceiptIssue a0 t) := by
  unfold doReceiptIssue
  extract_lets +onlyGivenNames -merge -underBinder x0
  have hx0 : OnlyIn cs s x0 := (State.arrive_only hmt h)
  (try clear_value x0)
  exact (by split; (next => exact (OnlyIn.ite (State.boundaryReceipts_only hsums hcapture hmet hqueues hx0) hx0)); (next => exact hx0))

theorem doTallyHighRead_only {cs : Block → Bool} {s t : State} {a0 a1 a2} (hmt : cs .mt = true) (hsums : cs .sums = true) (hanswer : cs .answer =
      true) (hviol : cs .viol = true) (hcapture : cs .capture = true) (hqueues : cs .queues = true) (h : OnlyIn cs s t) :
    OnlyIn cs s (doTallyHighRead a0 a1 a2 t) := by
  unfold doTallyHighRead
  exact (whenLive_only hmt (fun _ k0 =>
        (by extract_lets +onlyGivenNames -merge -underBinder x1; (try clear_value x1); exact (by split; (next => exact (State.answered_only hsums hanswer hviol hcapture hqueues k0)); (next => exact (by extract_lets +onlyGivenNames -merge -underBinder x2; (try clear_value x2); exact (State.giveData_only hsums hanswer hviol hcapture hqueues k0))))))
        h)

theorem doTallyLowRead_only {cs : Block → Bool} {s t : State} {a0 a1 a2} (hmt : cs .mt = true) (hsums : cs .sums = true) (hanswer : cs .answer = true)
      (hviol : cs .viol = true) (hhost : cs .host = true) (hcapture : cs .capture = true) (hqueues : cs .queues = true) (h : OnlyIn cs s t) :
    OnlyIn cs s (doTallyLowRead a0 a1 a2 t) := by
  unfold doTallyLowRead
  exact (whenLive_only hmt (fun _ k0 =>
        (by extract_lets +onlyGivenNames -merge -underBinder x1; (try clear_value x1); exact (by split; (next => exact (State.answered_only hsums hanswer hviol hcapture hqueues k0)); (next => exact (by extract_lets +onlyGivenNames -merge -underBinder x2; have hx2 : OnlyIn cs s x2.2 := (State.readTallyLow_only hhost k0); (try clear_value x2); exact (State.giveData_only hsums hanswer hviol hcapture hqueues hx2))))))
        h)

theorem metWrite_eff {cs : Block → Bool} {a0 a1 a2} (hmet : cs .met = true) :
    EffsIn cs (metWrite a0 a1 a2) := by
  unfold metWrite
  exact (EffsIn.ite (EffsIn.some (ackEffect_eff hmet)) (EffsIn.ite (EffsIn.some (EffIn.mk (fun z1 _ k0 => (OnlyIn.setMet hmet k0)))) (EffsIn.ite
        (EffsIn.some (EffIn.mk (fun z3 _ k2 => (OnlyIn.setMet hmet k2)))) (EffsIn.ite (EffsIn.some roWord_eff) (EffsIn.map fun _ => roWord_eff)))))

end Sys2Proof.Machine
end

