-- ==== Sys2Proof/Laws/FrameSafety.lean ====
section
/-! SUPPORT. What every operation of roles, the safety controller, the site bus and the ledger may change. -/
namespace Sys2Proof.Machine

theorem State.setPair_only {cs : Block → Bool} {s t : State} {f} (hc : PairIn cs t.pair (f t.pair)) (h : OnlyIn cs s t) : OnlyIn cs s (t.setPair f) :=
  OnlyIn.setPair hc h

theorem State.setLdg_only {cs : Block → Bool} {s t : State} {f} (hc : LdgIn cs t.ldg (f t.ldg)) (h : OnlyIn cs s t) : OnlyIn cs s (t.setLdg f) :=
  OnlyIn.setLdg hc h

theorem State.adoptPartnerAux_only {cs : Block → Bool} {s t : State} (hthm : cs .thm = true) (h : OnlyIn cs s t) :
    OnlyIn cs s (State.adoptPartnerAux t) := by
  unfold State.adoptPartnerAux
  extract_lets +onlyGivenNames -merge -underBinder x0
  exact (State.forAll_only (fun _ _ k1 =>
        (by extract_lets +onlyGivenNames -merge -underBinder x2; (try clear_value x2); exact (by extract_lets +onlyGivenNames -merge -underBinder x3; (try clear_value x3); exact (State.setLoop_only hthm k1))))
        h)

theorem State.busFollow_only {cs : Block → Bool} {s t : State} (hsbus : cs .sbus = true) (h : OnlyIn cs s t) :
    OnlyIn cs s (State.busFollow t) := by
  unfold State.busFollow
  exact
        (by split; (next => exact (by extract_lets +onlyGivenNames -merge -underBinder x0; (try clear_value x0); exact (by extract_lets +onlyGivenNames -merge -underBinder x1; exact (OnlyIn.setSbus hsbus h)))); (next => exact h))

theorem State.setRole_only {cs : Block → Bool} {s t : State} {a1 a2} (hsums : cs .sums = true) (hcapture : cs .capture = true) (hrole : cs .role =
      true) (hpair : cs .pair = true) (hsbus : cs .sbus = true) (hqueues : cs .queues = true) (h : OnlyIn cs s t) :
    OnlyIn cs s (State.setRole t a1 a2) := by
  unfold State.setRole
  exact (OnlyIn.ite h
        (by extract_lets +onlyGivenNames -merge -underBinder x0; (try clear_value x0); exact (by extract_lets +onlyGivenNames -merge -underBinder x1; have hx1 : OnlyIn cs s x1 := (by unfold x1; exact (OnlyIn.ite (State.busFollow_only hsbus h) h)); (try clear_value x1); exact (by extract_lets +onlyGivenNames -merge -underBinder x2; have hx2 : OnlyIn cs s x2 := (State.setPair_only ⟨.inl hrole, .inl hpair⟩ hx1); (try clear_value x2); exact (State.log_only hsums hcapture hqueues (State.bumpIf_only hsums hx2))))))

theorem State.setSeljo_only {cs : Block → Bool} {s t : State} {a1} (hpair : cs .pair = true) (h : OnlyIn cs s t) :
    OnlyIn cs s (State.setSeljo t a1) := by
  unfold State.setSeljo
  exact (State.setPair_only ⟨.inr (by rfl), .inl hpair⟩ h)

theorem State.enterSyncing_only {cs : Block → Bool} {s t : State} {a1} (hsums : cs .sums = true) (hcapture : cs .capture = true) (hrole : cs .role =
      true) (hpair : cs .pair = true) (hsbus : cs .sbus = true) (hqueues : cs .queues = true) (h : OnlyIn cs s t) :
    OnlyIn cs s (State.enterSyncing t a1) := by
  unfold State.enterSyncing
  exact (State.setRole_only hsums hcapture hrole hpair hsbus hqueues (State.setSeljo_only hpair (State.setPair_only ⟨.inl hrole, .inl hpair⟩ h)))

theorem State.afterRelease_only {cs : Block → Bool} {s t : State} {a1} (hsums : cs .sums = true) (hcapture : cs .capture = true) (hrole : cs .role =
      true) (hpair : cs .pair = true) (hsbus : cs .sbus = true) (hqueues : cs .queues = true) (h : OnlyIn cs s t) :
    OnlyIn cs s (State.afterRelease t a1) := by
  unfold State.afterRelease
  exact (OnlyIn.ite
        (by extract_lets +onlyGivenNames -merge -underBinder x0; have hx0 : OnlyIn cs s x0 := (State.setPair_only ⟨.inr (by rfl), .inl hpair⟩ h); (try clear_value x0); exact (by extract_lets +onlyGivenNames -merge -underBinder x1; (try clear_value x1); exact (State.setPair_only ⟨.inr (by rfl), .inl hpair⟩ (State.setRole_only hsums hcapture hrole hpair hsbus hqueues (State.setPair_only ⟨.inl hrole, .inl hpair⟩ hx0)))))
        (OnlyIn.ite (State.setRole_only hsums hcapture hrole hpair hsbus hqueues (State.setSeljo_only hpair (State.setPair_only ⟨.inl hrole, .inr
        (by rfl)⟩ h))) (State.enterSyncing_only hsums hcapture hrole hpair hsbus hqueues h)))

theorem State.armHold_only {cs : Block → Bool} {s t : State} {a1} (hpair : cs .pair = true) (h : OnlyIn cs s t) :
    OnlyIn cs s (State.armHold t a1) := by
  unfold State.armHold
  exact (OnlyIn.ite
        (by extract_lets +onlyGivenNames -merge -underBinder x0; (try clear_value x0); exact (State.setPair_only ⟨.inr (by rfl), .inl hpair⟩ h)) h)

theorem State.assumeInterlock_only {cs : Block → Bool} {s t : State} {a1} (hsums : cs .sums = true) (hassume : cs .assume = true) (h : OnlyIn cs s t)
      :
    OnlyIn cs s (State.assumeInterlock t a1) := by
  unfold State.assumeInterlock
  exact (State.bumpIf_only hsums (OnlyIn.setAssume hassume h))

theorem State.holdAnew_only {cs : Block → Bool} {s t : State} (hpair : cs .pair = true) (h : OnlyIn cs s t) :
    OnlyIn cs s (State.holdAnew t) := by
  unfold State.holdAnew
  exact (State.setPair_only ⟨.inr (by rfl), .inl hpair⟩ h)

theorem State.gainActive_only {cs : Block → Bool} {s t : State} {a1} (hsums : cs .sums = true) (hcapture : cs .capture = true) (hlinks : ∀ i, cs
      (.link i) = true) (hrole : cs .role = true) (hpair : cs .pair = true) (hsbus : cs .sbus = true) (hqueues : cs .queues = true) (h : OnlyIn cs s
      t) :
    OnlyIn cs s (State.gainActive t a1) := by
  unfold State.gainActive
  extract_lets +onlyGivenNames -merge -underBinder x0
  have hx0 : OnlyIn cs s x0 := (State.setPair_only ⟨.inl hrole, .inl hpair⟩ (State.holdAnew_only hpair h))
  (try clear_value x0)
  extract_lets +onlyGivenNames -merge -underBinder x1
  have hx1 : OnlyIn cs s x1 := (State.setRole_only hsums hcapture hrole hpair hsbus hqueues hx0)
  (try clear_value x1)
  exact (State.sendMstAll_only hlinks hx1)

theorem State.setPartner_only {cs : Block → Bool} {s t : State} {a1} (hpair : cs .pair = true) (h : OnlyIn cs s t) :
    OnlyIn cs s (State.setPartner t a1) := by
  unfold State.setPartner
  exact (State.setPair_only ⟨.inr (by rfl), .inl hpair⟩ h)

theorem State.takeHandover_only {cs : Block → Bool} {s t : State} {a1} (hdraws : cs .draws = true) (hprof : cs .prof = true) (hsums : cs .sums = true)
      (hlat : cs .lat = true) (hcapture : cs .capture = true) (hlinks : ∀ i, cs (.link i) = true) (hthm : cs .thm = true) (hsaf : cs .saf = true)
      (hpair : cs .pair = true) (hsbus : cs .sbus = true) (hqueues : cs .queues = true) (hmram : cs .mram = true) (h : OnlyIn cs s t) :
    OnlyIn cs s (State.takeHandover t a1) := by
  unfold State.takeHandover
  exact (State.setPartner_only hpair (State.switchHandover_only hdraws hprof hsums hlat hcapture hlinks hthm hsaf hsbus hqueues hmram
        (State.setSeljo_only hpair h)))

theorem State.finishHandover_only {cs : Block → Bool} {s t : State} (hdraws : cs .draws = true) (hprof : cs .prof = true) (hsums : cs .sums = true)
      (hlat : cs .lat = true) (hcapture : cs .capture = true) (hlinks : ∀ i, cs (.link i) = true) (hthm : cs .thm = true) (hsaf : cs .saf = true)
      (hpair : cs .pair = true) (hsbus : cs .sbus = true) (hqueues : cs .queues = true) (hmram : cs .mram = true) (h : OnlyIn cs s t) :
    OnlyIn cs s (State.finishHandover t) := by
  unfold State.finishHandover
  exact
        (by split; (next => exact (OnlyIn.ite (OnlyIn.ite h (State.takeHandover_only hdraws hprof hsums hlat hcapture hlinks hthm hsaf hpair hsbus hqueues hmram h)) (State.cancelPending_only hprof hsums hlat hpair h))); (next => exact h))

theorem State.connectAnew_only {cs : Block → Bool} {s t : State} {a1 a2} (hsums : cs .sums = true) (hbay1 : cs (.bay a1) = true) (h : OnlyIn cs s t) :
    OnlyIn cs s (State.connectAnew t a1 a2) := by
  unfold State.connectAnew
  extract_lets +onlyGivenNames -merge -underBinder x0
  (try clear_value x0)
  exact (State.goSess_only hsums hbay1 (State.setBay_only (fun _ => ⟨.inr (by rfl), .inr (by rfl), .inl hbay1⟩) h))

theorem State.loseSession_only {cs : Block → Bool} {s t : State} {a1} (hsums : cs .sums = true) (hcapture : cs .capture = true) (hbay1 : cs (.bay a1)
      = true) (hqueues : cs .queues = true) (h : OnlyIn cs s t) :
    OnlyIn cs s (State.loseSession t a1) := by
  unfold State.loseSession
  exact (OnlyIn.ite (State.log_only hsums hcapture hqueues (State.connectAnew_only hsums hbay1 h)) (State.connectAnew_only hsums hbay1 h))

theorem State.liteSteps_only {cs : Block → Bool} {s t : State} {a1} (hsums : cs .sums = true) (hlat : cs .lat = true) (hcapture : cs .capture = true)
      (hlinks : ∀ i, cs (.link i) = true) (hsamples : ∀ i, cs (.sample i) = true) (hstalls : ∀ i, cs (.stall i) = true) (houtlets : ∀ i, cs (.outlet
      i) = true) (hbays : ∀ i, cs (.bay i) = true) (hmkt : cs .mkt = true) (hthm : cs .thm = true) (hsaf : cs .saf = true) (hqueues : cs .queues =
      true) (h : OnlyIn cs s t) :
    OnlyIn cs s (State.liteSteps t a1) := by
  unfold State.liteSteps
  extract_lets +onlyGivenNames -merge -underBinder x0
  have hx0 : OnlyIn cs s x0 := (State.forAll_only (fun _ _ k1 => (OnlyIn.ite (State.linkAlign_only hsums (hlinks _) (State.setStall_only (fun _ =>
        ⟨.inl (hlinks _), .inl (hsamples _), .inl (hstalls _)⟩) k1)) k1)) h)
  (try clear_value x0)
  extract_lets +onlyGivenNames -merge -underBinder x2 x3 x4
  have hx4 : OnlyIn cs s x4 := (OnlyIn.mk hx0 (.inr (by rfl)) (.inr (by rfl)) (.inr (by rfl)) (.inr (by rfl)) (.inr (by rfl)) (.inr (by rfl)) ⟨.inr
        (by rfl), .inr (by rfl), .inr (by rfl), .inr (by rfl)⟩ (.inr (by rfl)) (.inr (by rfl)) (.inr (by rfl)) (.inr (by rfl)) (.inl hlat) ⟨.inr
        (by rfl), .inr (by rfl)⟩ (.inr (by rfl)) (.inr (by rfl)) (.inl hmkt) (.inr (by rfl)) (.inr (by rfl)) (.inr (by rfl)) (.inr (by rfl)) ⟨.inr
        (by rfl), .inr (by rfl)⟩ (.inr (by rfl)) (.inr (by rfl)) (.inr (by rfl)) ⟨.inr (by rfl), .inr (by rfl)⟩ (.inr (by rfl)))
  (try clear_value x2)
  (try clear_value x3)
  (try clear_value x4)
  extract_lets +onlyGivenNames -merge -underBinder x5
  have hx5 : OnlyIn cs s x5 := (State.forAll_only (fun _ _ k6 => (OnlyIn.ite (State.removeShown_only hsums hlat hcapture hstalls hmkt hsaf hqueues k6)
        k6)) hx4)
  (try clear_value x5)
  extract_lets +onlyGivenNames -merge -underBinder x7
  have hx7 : OnlyIn cs s x7 := (State.forAll_only (fun _ _ k8 => (State.commandOutlet_only hsums (houtlets _) k8)) hx5)
  (try clear_value x7)
  extract_lets +onlyGivenNames -merge -underBinder x9
  have hx9 : OnlyIn cs s x9 :=
        (by unfold x9; exact (OnlyIn.ite (State.forAll_only (fun _ _ k10 => (OnlyIn.ite (State.loseSession_only hsums hcapture (hbays _) hqueues k10) k10)) hx7) hx7))
  (try clear_value x9)
  exact (State.adoptPartnerAux_only hthm hx9)

theorem State.liteTakeover_only {cs : Block → Bool} {s t : State} {a1} (hprof : cs .prof = true) (hsums : cs .sums = true) (hlat : cs .lat = true)
      (hcapture : cs .capture = true) (hlinks : ∀ i, cs (.link i) = true) (hsamples : ∀ i, cs (.sample i) = true) (hstalls : ∀ i, cs (.stall i) =
      true) (houtlets : ∀ i, cs (.outlet i) = true) (hbays : ∀ i, cs (.bay i) = true) (hmkt : cs .mkt = true) (hthm : cs .thm = true) (hsaf : cs .saf
      = true) (hpair : cs .pair = true) (hqueues : cs .queues = true) (h : OnlyIn cs s t) :
    OnlyIn cs s (State.liteTakeover t a1) := by
  unfold State.liteTakeover
  exact (State.liteSteps_only hsums hlat hcapture hlinks hsamples hstalls houtlets hbays hmkt hthm hsaf hqueues (OnlyIn.ite (State.cancelPending_only
        hprof hsums hlat hpair h) h))

theorem State.becomeActive_only {cs : Block → Bool} {s t : State} {a1} (hdraws : cs .draws = true) (hprof : cs .prof = true) (hsums : cs .sums = true)
      (hlat : cs .lat = true) (hcapture : cs .capture = true) (hlinks : ∀ i, cs (.link i) = true) (hsamples : ∀ i, cs (.sample i) = true) (hstalls : ∀
      i, cs (.stall i) = true) (houtlets : ∀ i, cs (.outlet i) = true) (hbays : ∀ i, cs (.bay i) = true) (hmkt : cs .mkt = true) (hthm : cs .thm =
      true) (hsaf : cs .saf = true) (hrole : cs .role = true) (hpair : cs .pair = true) (hsbus : cs .sbus = true) (hqueues : cs .queues = true) (hmram
      : cs .mram = true) (h : OnlyIn cs s t) :
    OnlyIn cs s (State.becomeActive t a1) := by
  unfold State.becomeActive
  extract_lets +onlyGivenNames -merge -underBinder x0
  (try clear_value x0)
  extract_lets +onlyGivenNames -merge -underBinder x1
  have hx1 : OnlyIn cs s x1 := (State.armHold_only hpair (State.gainActive_only hsums hcapture hlinks hrole hpair hsbus hqueues h))
  (try clear_value x1)
  exact (OnlyIn.ite hx1 (OnlyIn.ite (State.finishHandover_only hdraws hprof hsums hlat hcapture hlinks hthm hsaf hpair hsbus hqueues hmram hx1)
        (State.liteTakeover_only hprof hsums hlat hcapture hlinks hsamples hstalls houtlets hbays hmkt hthm hsaf hpair hqueues hx1)))

theorem State.countRelease_only {cs : Block → Bool} {s t : State} {a1} (hpair : cs .pair = true) (h : OnlyIn cs s t) :
    OnlyIn cs s (State.countRelease t a1) := by
  unfold State.countRelease
  extract_lets +onlyGivenNames -merge -underBinder x0
  (try clear_value x0)
  exact (State.setPair_only ⟨.inr (by rfl), .inl hpair⟩ h)

theorem State.dropSite_only {cs : Block → Bool} {s t : State} (hsums : cs .sums = true) (hlat : cs .lat = true) (hlinks : ∀ i, cs (.link i) = true)
      (hsamples : ∀ i, cs (.sample i) = true) (hstalls : ∀ i, cs (.stall i) = true) (houtlets : ∀ i, cs (.outlet i) = true) (hbays : ∀ i, cs (.bay i)
      = true) (hmkt : cs .mkt = true) (h : OnlyIn cs s t) :
    OnlyIn cs s (State.dropSite t) := by
  unfold State.dropSite
  extract_lets +onlyGivenNames -merge -underBinder x0 x1 x2
  have hx2 : OnlyIn cs s x2 := (OnlyIn.mk h (.inr (by rfl)) (.inr (by rfl)) (.inr (by rfl)) (.inr (by rfl)) (.inr (by rfl)) (.inr (by rfl)) ⟨.inr
        (by rfl), .inr (by rfl), .inr (by rfl), .inr (by rfl)⟩ (.inr (by rfl)) (.inr (by rfl)) (.inr (by rfl)) (.inr (by rfl)) (.inl hlat) ⟨.inr
        (by rfl), .inr (by rfl)⟩ (.inr (by rfl)) (.inr (by rfl)) (.inl hmkt) (.inr (by rfl)) (.inr (by rfl)) (.inr (by rfl)) (.inr (by rfl)) ⟨.inr
        (by rfl), .inr (by rfl)⟩ (.inr (by rfl)) (.inr (by rfl)) (.inr (by rfl)) ⟨.inr (by rfl), .inr (by rfl)⟩ (.inr (by rfl)))
  (try clear_value x0)
  (try clear_value x1)
  (try clear_value x2)
  extract_lets +onlyGivenNames -merge -underBinder x3
  have hx3 : OnlyIn cs s x3 := (State.forAll_only (fun _ _ k4 => (State.setStall_only (fun _ => ⟨.inl (hlinks _), .inl (hsamples _), .inl (hstalls
        _)⟩) k4)) hx2)
  (try clear_value x3)
  extract_lets +onlyGivenNames -merge -underBinder x5
  have hx5 : OnlyIn cs s x5 := (by unfold x5; exact (OnlyIn.ite (State.forAll_only (fun _ _ k6 => (State.linkOff_only hsums (hlinks _) k6)) hx3) hx3))
  (try clear_value x5)
  exact (State.forAll_only (fun _ _ k7 => (State.commandOutlet_only hsums (houtlets _) (OnlyIn.ite k7 (State.enterIdle_only hsums (hbays _) k7))))
        hx5)

theorem State.enterClaiming_only {cs : Block → Bool} {s t : State} (hsums : cs .sums = true) (hcapture : cs .capture = true) (hrole : cs .role = true)
      (hpair : cs .pair = true) (hsbus : cs .sbus = true) (hqueues : cs .queues = true) (h : OnlyIn cs s t) :
    OnlyIn cs s (State.enterClaiming t) := by
  unfold State.enterClaiming
  exact (OnlyIn.ite h (State.setRole_only hsums hcapture hrole hpair hsbus hqueues (State.setPair_only ⟨.inl hrole, .inr (by rfl)⟩ h)))

theorem State.enterUnfit_only {cs : Block → Bool} {s t : State} {a1} (hsums : cs .sums = true) (hcapture : cs .capture = true) (hrole : cs .role =
      true) (hpair : cs .pair = true) (hsbus : cs .sbus = true) (hqueues : cs .queues = true) (h : OnlyIn cs s t) :
    OnlyIn cs s (State.enterUnfit t a1) := by
  unfold State.enterUnfit
  exact (State.setRole_only hsums hcapture hrole hpair hsbus hqueues (State.setPair_only ⟨.inl hrole, .inl hpair⟩ h))

theorem State.releaseActive_only {cs : Block → Bool} {s t : State} {a1} (hprof : cs .prof = true) (hsums : cs .sums = true) (hlat : cs .lat = true)
      (hcapture : cs .capture = true) (hlinks : ∀ i, cs (.link i) = true) (hsamples : ∀ i, cs (.sample i) = true) (hstalls : ∀ i, cs (.stall i) =
      true) (houtlets : ∀ i, cs (.outlet i) = true) (hbays : ∀ i, cs (.bay i) = true) (hmkt : cs .mkt = true) (hsaf : cs .saf = true) (hrole : cs
      .role = true) (hpair : cs .pair = true) (hsbus : cs .sbus = true) (hqueues : cs .queues = true) (h : OnlyIn cs s t) :
    OnlyIn cs s (State.releaseActive t a1) := by
  unfold State.releaseActive
  exact
        (by split; (next => exact (by extract_lets +onlyGivenNames -merge -underBinder x0; have hx0 : OnlyIn cs s x0 := (State.allOff_only hsums hsaf (State.countRelease_only hpair h)); (try clear_value x0); exact (by extract_lets +onlyGivenNames -merge -underBinder x1; have hx1 : OnlyIn cs s x1 := (by unfold x1; exact (OnlyIn.ite (State.cancelPending_only hprof hsums hlat hpair hx0) hx0)); (try clear_value x1); exact (by extract_lets +onlyGivenNames -merge -underBinder x2; have hx2 : OnlyIn cs s x2 := (by unfold x2; exact (OnlyIn.ite hx1 (State.dropSite_only hsums hlat hlinks hsamples hstalls houtlets hbays hmkt hx1))); (try clear_value x2); exact (State.afterRelease_only hsums hcapture hrole hpair hsbus hqueues hx2))))); (next => exact (State.setRole_only hsums hcapture hrole hpair hsbus hqueues (State.setPair_only ⟨.inl hrole, .inl hpair⟩ h))); (next => exact h))

theorem State.judgeHold_only {cs : Block → Bool} {s t : State} {a1} (hprof : cs .prof = true) (hsums : cs .sums = true) (hlat : cs .lat = true)
      (hcapture : cs .capture = true) (hlinks : ∀ i, cs (.link i) = true) (hsamples : ∀ i, cs (.sample i) = true) (hstalls : ∀ i, cs (.stall i) =
      true) (houtlets : ∀ i, cs (.outlet i) = true) (hbays : ∀ i, cs (.bay i) = true) (hmkt : cs .mkt = true) (hsaf : cs .saf = true) (hrole : cs
      .role = true) (hpair : cs .pair = true) (hsbus : cs .sbus = true) (hqueues : cs .queues = true) (h : OnlyIn cs s t) :
    OnlyIn cs s (State.judgeHold t a1) := by
  unfold State.judgeHold
  exact (OnlyIn.ite (State.releaseActive_only hprof hsums hlat hcapture hlinks hsamples hstalls houtlets hbays hmkt hsaf hrole hpair hsbus hqueues h)
        h)

theorem State.readReleased_only {cs : Block → Bool} {s t : State} {a1} (hsums : cs .sums = true) (hpair : cs .pair = true) (h : OnlyIn cs s t) :
    OnlyIn cs s (State.readReleased t a1) := by
  unfold State.readReleased
  exact (OnlyIn.ite
        (by extract_lets +onlyGivenNames -merge -underBinder x0; (try clear_value x0); exact (by extract_lets +onlyGivenNames -merge -underBinder x1; have hx1 : OnlyIn cs s x1 := (State.bump_only hsums (State.setPair_only ⟨.inr (by rfl), .inl hpair⟩ h)); (try clear_value x1); exact (State.bumpIf_only hsums hx1)))
        h)

theorem State.refreshPitch_only {cs : Block → Bool} {s t : State} {a1} (hpair : cs .pair = true) (h : OnlyIn cs s t) :
    OnlyIn cs s (State.refreshPitch t a1) := by
  unfold State.refreshPitch
  exact (State.setPair_only ⟨.inr (by rfl), .inl hpair⟩ h)

theorem State.refreshTick_only {cs : Block → Bool} {s t : State} {a1} (hpair : cs .pair = true) (h : OnlyIn cs s t) :
    OnlyIn cs s (State.refreshTick t a1) := by
  unfold State.refreshTick
  exact (State.setPair_only ⟨.inr (by rfl), .inl hpair⟩ h)

theorem State.releaseIfFit_only {cs : Block → Bool} {s t : State} {a1} (hprof : cs .prof = true) (hsums : cs .sums = true) (hlat : cs .lat = true)
      (hcapture : cs .capture = true) (hlinks : ∀ i, cs (.link i) = true) (hsamples : ∀ i, cs (.sample i) = true) (hstalls : ∀ i, cs (.stall i) =
      true) (houtlets : ∀ i, cs (.outlet i) = true) (hbays : ∀ i, cs (.bay i) = true) (hmkt : cs .mkt = true) (hsaf : cs .saf = true) (hrole : cs
      .role = true) (hpair : cs .pair = true) (hsbus : cs .sbus = true) (hqueues : cs .queues = true) (h : OnlyIn cs s t) :
    OnlyIn cs s (State.releaseIfFit t a1) := by
  unfold State.releaseIfFit
  exact (OnlyIn.ite h (OnlyIn.ite (State.releaseActive_only hprof hsums hlat hcapture hlinks hsamples hstalls houtlets hbays hmkt hsaf hrole hpair
        hsbus hqueues h) (State.bumpIf_only hsums (State.setPair_only ⟨.inr (by rfl), .inl hpair⟩ h))))

theorem State.startRole_only {cs : Block → Bool} {s t : State} (hsums : cs .sums = true) (hassume : cs .assume = true) (hcapture : cs .capture = true)
      (hrole : cs .role = true) (hpair : cs .pair = true) (hsbus : cs .sbus = true) (hqueues : cs .queues = true) (h : OnlyIn cs s t) :
    OnlyIn cs s (State.startRole t) := by
  unfold State.startRole
  extract_lets +onlyGivenNames -merge -underBinder x0
  have hx0 : OnlyIn cs s x0 := (State.setPair_only ⟨.inl hrole, .inl hpair⟩ h)
  (try clear_value x0)
  exact (OnlyIn.ite hx0
        (by extract_lets +onlyGivenNames -merge -underBinder x1; have hx1 : OnlyIn cs s x1 := (State.setRole_only hsums hcapture hrole hpair hsbus hqueues hx0); (try clear_value x1); exact (OnlyIn.ite hx1 (by split; (next => exact (OnlyIn.ite (State.enterUnfit_only hsums hcapture hrole hpair hsbus hqueues (State.assumeInterlock_only hsums hassume hx1)) (State.enterClaiming_only hsums hcapture hrole hpair hsbus hqueues hx1))); (next => exact (OnlyIn.ite (State.enterSyncing_only hsums hcapture hrole hpair hsbus hqueues hx1) hx1))))))

theorem doActiveIAssert_only {cs : Block → Bool} {s t : State} {a0} (hmt : cs .mt = true) (hsums : cs .sums = true) (hassume : cs .assume = true)
      (hcapture : cs .capture = true) (hsaf : cs .saf = true) (hrole : cs .role = true) (hpair : cs .pair = true) (hsbus : cs .sbus = true) (hqueues :
      cs .queues = true) (h : OnlyIn cs s t) :
    OnlyIn cs s (doActiveIAssert a0 t) := by
  unfold doActiveIAssert
  exact (whenLive_only hmt (fun _ k0 =>
        (by extract_lets +onlyGivenNames -merge -underBinder x1; (try clear_value x1); exact (by extract_lets +onlyGivenNames -merge -underBinder x2; have hx2 : OnlyIn cs s x2 := (State.bumpIf_only hsums (State.setPair_only ⟨.inr (by rfl), .inl hpair⟩ k0)); (try clear_value x2); exact (by split; (next => exact (OnlyIn.ite (State.enterUnfit_only hsums hcapture hrole hpair hsbus hqueues (State.assumeInterlock_only hsums hassume hx2)) (State.enterSyncing_only hsums hcapture hrole hpair hsbus hqueues hx2))); (next => exact (OnlyIn.ite (State.enterSyncing_only hsums hcapture hrole hpair hsbus hqueues hx2) hx2)); (next => exact (OnlyIn.ite hx2 (State.allOff_only hsums hsaf (State.bumpIf_only hsums (State.holdAnew_only hpair (State.busFollow_only hsbus hx2)))))); (next => exact hx2)))))
        h)

theorem doClaimConfirm_only {cs : Block → Bool} {s t : State} {a0} (hmt : cs .mt = true) (hdraws : cs .draws = true) (hprof : cs .prof = true) (hsums
      : cs .sums = true) (hlat : cs .lat = true) (hcapture : cs .capture = true) (hlinks : ∀ i, cs (.link i) = true) (hsamples : ∀ i, cs (.sample i) =
      true) (hstalls : ∀ i, cs (.stall i) = true) (houtlets : ∀ i, cs (.outlet i) = true) (hbays : ∀ i, cs (.bay i) = true) (hmkt : cs .mkt = true)
      (hthm : cs .thm = true) (hsaf : cs .saf = true) (hrole : cs .role = true) (hpair : cs .pair = true) (hsbus : cs .sbus = true) (hqueues : cs
      .queues = true) (hmram : cs .mram = true) (h : OnlyIn cs s t) :
    OnlyIn cs s (doClaimConfirm a0 t) := by
  unfold doClaimConfirm
  exact (whenLive_only hmt (fun _ k0 => (OnlyIn.ite (OnlyIn.ite (State.becomeActive_only hdraws hprof hsums hlat hcapture hlinks hsamples hstalls
        houtlets hbays hmkt hthm hsaf hrole hpair hsbus hqueues hmram (State.readReleased_only hsums hpair k0)) (OnlyIn.ite k0
        (State.becomeActive_only hdraws hprof hsums hlat hcapture hlinks hsamples hstalls houtlets hbays hmkt hthm hsaf hrole hpair hsbus hqueues
        hmram k0))) k0)) h)

theorem doClaimConflictTimeout_only {cs : Block → Bool} {s t : State} {a0} (hmt : cs .mt = true) (hsums : cs .sums = true) (hassume : cs .assume =
      true) (hcapture : cs .capture = true) (hrole : cs .role = true) (hpair : cs .pair = true) (hsbus : cs .sbus = true) (hqueues : cs .queues =
      true) (h : OnlyIn cs s t) :
    OnlyIn cs s (doClaimConflictTimeout a0 t) := by
  unfold doClaimConflictTimeout
  exact (whenLive_only hmt (fun _ k0 => (OnlyIn.ite (State.startRole_only hsums hassume hcapture hrole hpair hsbus hqueues k0) k0)) h)

theorem doInitWaitEnd_only {cs : Block → Bool} {s t : State} {a0} (hmt : cs .mt = true) (hsums : cs .sums = true) (hassume : cs .assume = true)
      (hcapture : cs .capture = true) (hrole : cs .role = true) (hpair : cs .pair = true) (hsbus : cs .sbus = true) (hqueues : cs .queues = true) (h :
      OnlyIn cs s t) :
    OnlyIn cs s (doInitWaitEnd a0 t) := by
  unfold doInitWaitEnd
  exact (whenLive_only hmt (fun _ k0 => (OnlyIn.ite (OnlyIn.ite (State.startRole_only hsums hassume hcapture hrole hpair hsbus hqueues k0) (OnlyIn.ite
        (State.enterClaiming_only hsums hcapture hrole hpair hsbus hqueues k0) k0)) k0)) h)

theorem doTakeover_only {cs : Block → Bool} {s t : State} {a0} (hmt : cs .mt = true) (hdraws : cs .draws = true) (hprof : cs .prof = true) (hsums : cs
      .sums = true) (hlat : cs .lat = true) (hcapture : cs .capture = true) (hlinks : ∀ i, cs (.link i) = true) (hsamples : ∀ i, cs (.sample i) =
      true) (hstalls : ∀ i, cs (.stall i) = true) (houtlets : ∀ i, cs (.outlet i) = true) (hbays : ∀ i, cs (.bay i) = true) (hmkt : cs .mkt = true)
      (hthm : cs .thm = true) (hsaf : cs .saf = true) (hrole : cs .role = true) (hpair : cs .pair = true) (hsbus : cs .sbus = true) (hqueues : cs
      .queues = true) (hmram : cs .mram = true) (h : OnlyIn cs s t) :
    OnlyIn cs s (doTakeover a0 t) := by
  unfold doTakeover
  exact (whenLive_only hmt (fun _ k0 =>
        (by extract_lets +onlyGivenNames -merge -underBinder x1; have hx1 : OnlyIn cs s x1 := (State.readReleased_only hsums hpair k0); (try clear_value x1); exact (OnlyIn.ite (State.becomeActive_only hdraws hprof hsums hlat hcapture hlinks hsamples hstalls houtlets hbays hmkt hthm hsaf hrole hpair hsbus hqueues hmram hx1) hx1)))
        h)

theorem State.setSi_only {cs : Block → Bool} {s t : State} {a1 a2} (hsaf : cs .saf = true) (h : OnlyIn cs s t) :
    OnlyIn cs s (State.setSi t a1 a2) := by
  unfold State.setSi
  exact (OnlyIn.setSaf hsaf h)

theorem State.goSi_only {cs : Block → Bool} {s t : State} {a1 a2 a3} (hsums : cs .sums = true) (hcapture : cs .capture = true) (hsaf : cs .saf = true)
      (hqueues : cs .queues = true) (h : OnlyIn cs s t) :
    OnlyIn cs s (State.goSi t a1 a2 a3) := by
  unfold State.goSi
  extract_lets +onlyGivenNames -merge -underBinder x0
  (try clear_value x0)
  extract_lets +onlyGivenNames -merge -underBinder x1
  (try clear_value x1)
  extract_lets +onlyGivenNames -merge -underBinder x2
  (try clear_value x2)
  extract_lets +onlyGivenNames -merge -underBinder x3
  (try clear_value x3)
  extract_lets +onlyGivenNames -merge -underBinder x4
  have hx4 : OnlyIn cs s x4 := (State.setSi_only hsaf h)
  (try clear_value x4)
  exact (OnlyIn.ite (State.log_only hsums hcapture hqueues hx4) (State.bump_only hsums hx4))

theorem State.releaseSi_only {cs : Block → Bool} {s t : State} {a1 a2 a3} (hsums : cs .sums = true) (hcapture : cs .capture = true) (hsaf : cs .saf =
      true) (hqueues : cs .queues = true) (h : OnlyIn cs s t) :
    OnlyIn cs s (State.releaseSi t a1 a2 a3) := by
  unfold State.releaseSi
  exact (State.goSi_only hsums hcapture hsaf hqueues h)

theorem State.proveSi_only {cs : Block → Bool} {s t : State} {a1 a2} (hsums : cs .sums = true) (hcapture : cs .capture = true) (hsaf : cs .saf = true)
      (hqueues : cs .queues = true) (h : OnlyIn cs s t) :
    OnlyIn cs s (State.proveSi t a1 a2) := by
  unfold State.proveSi
  extract_lets +onlyGivenNames -merge -underBinder x0
  (try clear_value x0)
  exact (State.releaseSi_only hsums hcapture hsaf hqueues h)

theorem State.stepSi_only {cs : Block → Bool} {s t : State} {a1 a2 a3 a4 a5} (hsums : cs .sums = true) (hcapture : cs .capture = true) (hsaf : cs .saf
      = true) (hqueues : cs .queues = true) (h : OnlyIn cs s t) :
    OnlyIn cs s (State.stepSi t a1 a2 a3 a4 a5) := by
  unfold State.stepSi
  extract_lets +onlyGivenNames -merge -underBinder x0
  (try clear_value x0)
  extract_lets +onlyGivenNames -merge -underBinder x1
  (try clear_value x1)
  exact
        (by split; (next => exact (OnlyIn.ite (State.goSi_only hsums hcapture hsaf hqueues h) (OnlyIn.ite (State.goSi_only hsums hcapture hsaf hqueues h) h))); (next => exact (OnlyIn.ite (State.goSi_only hsums hcapture hsaf hqueues h) (OnlyIn.ite (State.goSi_only hsums hcapture hsaf hqueues h) h))); (next => exact (OnlyIn.ite (State.goSi_only hsums hcapture hsaf hqueues h) (OnlyIn.ite h (OnlyIn.ite (State.releaseSi_only hsums hcapture hsaf hqueues h) (State.goSi_only hsums hcapture hsaf hqueues h))))); (next => exact (OnlyIn.ite h (OnlyIn.ite (State.goSi_only hsums hcapture hsaf hqueues h) (State.proveSi_only hsums hcapture hsaf hqueues h)))); (next => exact (OnlyIn.ite h (OnlyIn.ite (State.goSi_only hsums hcapture hsaf hqueues h) (OnlyIn.ite (State.goSi_only hsums hcapture hsaf hqueues h) (State.proveSi_only hsums hcapture hsaf hqueues h))))); (next => exact (OnlyIn.ite (State.goSi_only hsums hcapture hsaf hqueues h) h)); (next => exact (OnlyIn.ite h (by extract_lets +onlyGivenNames -merge -underBinder x2; (try clear_value x2); exact (OnlyIn.ite (State.releaseSi_only hsums hcapture hsaf hqueues h) (State.goSi_only hsums hcapture hsaf hqueues h))))); (next => exact h))

theorem State.applyChanges_only {cs : Block → Bool} {s t : State} {a1 a2 a3} (hsums : cs .sums = true) (hcapture : cs .capture = true) (hsaf : cs .saf
      = true) (hqueues : cs .queues = true) (h : OnlyIn cs s t) :
    OnlyIn cs s (State.applyChanges t a1 a2 a3) := by
  unfold State.applyChanges
  extract_lets +onlyGivenNames -merge -underBinder x0
  (try clear_value x0)
  extract_lets +onlyGivenNames -merge -underBinder x1
  (try clear_value x1)
  extract_lets +onlyGivenNames -merge -underBinder x2
  (try clear_value x2)
  extract_lets +onlyGivenNames -merge -underBinder x3
  (try clear_value x3)
  extract_lets +onlyGivenNames -merge -underBinder x4
  (try clear_value x4)
  exact (OnlyIn.ite (State.stepSi_only hsums hcapture hsaf hqueues h) (OnlyIn.ite (State.stepSi_only hsums hcapture hsaf hqueues h) (OnlyIn.ite
        (State.stepSi_only hsums hcapture hsaf hqueues h) (OnlyIn.ite (State.stepSi_only hsums hcapture hsaf hqueues h) (OnlyIn.ite (State.stepSi_only
        hsums hcapture hsaf hqueues (State.stepSi_only hsums hcapture hsaf hqueues h)) (State.stepSi_only hsums hcapture hsaf hqueues
        (State.stepSi_only hsums hcapture hsaf hqueues h)))))))

theorem State.soFault_only {cs : Block → Bool} {s t : State} {a1 a2} (hsums : cs .sums = true) (hcapture : cs .capture = true) (hsaf : cs .saf = true)
      (hqueues : cs .queues = true) (h : OnlyIn cs s t) :
    OnlyIn cs s (State.soFault t a1 a2) := by
  unfold State.soFault
  exact (OnlyIn.ite h (State.log_only hsums hcapture hqueues (State.setSo_only hsaf (State.soOff_only hsums hsaf h))))

theorem State.confirmSo_only {cs : Block → Bool} {s t : State} {a1 a2 a3} (hsums : cs .sums = true) (hcapture : cs .capture = true) (hsaf : cs .saf =
      true) (hqueues : cs .queues = true) (h : OnlyIn cs s t) :
    OnlyIn cs s (State.confirmSo t a1 a2 a3) := by
  unfold State.confirmSo
  extract_lets +onlyGivenNames -merge -underBinder x0
  (try clear_value x0)
  exact
        (by split; (next => exact h); (next => exact (by extract_lets +onlyGivenNames -merge -underBinder x1; (try clear_value x1); exact (by extract_lets +onlyGivenNames -merge -underBinder x2; (try clear_value x2); exact (by extract_lets +onlyGivenNames -merge -underBinder x3; (try clear_value x3); exact (OnlyIn.ite h (OnlyIn.ite (State.setSo_only hsaf h) (OnlyIn.ite (State.soFault_only hsums hcapture hsaf hqueues (State.setSo_only hsaf h)) h))))))))

theorem State.ctrlFail_only {cs : Block → Bool} {s t : State} (hprof : cs .prof = true) (hsums : cs .sums = true) (hlat : cs .lat = true) (hcapture :
      cs .capture = true) (hlinks : ∀ i, cs (.link i) = true) (hsamples : ∀ i, cs (.sample i) = true) (hstalls : ∀ i, cs (.stall i) = true) (houtlets
      : ∀ i, cs (.outlet i) = true) (hbays : ∀ i, cs (.bay i) = true) (hmkt : cs .mkt = true) (hsaf : cs .saf = true) (hrole : cs .role = true) (hpair
      : cs .pair = true) (hsbus : cs .sbus = true) (hqueues : cs .queues = true) (h : OnlyIn cs s t) :
    OnlyIn cs s (State.ctrlFail t) := by
  unfold State.ctrlFail
  exact (OnlyIn.ite h
        (by extract_lets +onlyGivenNames -merge -underBinder x0 x1; have hx1 : OnlyIn cs s x1 := (OnlyIn.setSaf hsaf h); (try clear_value x0); (try clear_value x1); exact (by extract_lets +onlyGivenNames -merge -underBinder x2; have hx2 : OnlyIn cs s x2 := (State.allOff_only hsums hsaf (State.log_only hsums hcapture hqueues hx1)); (try clear_value x2); exact (State.releaseActive_only hprof hsums hlat hcapture hlinks hsamples hstalls houtlets hbays hmkt hsaf hrole hpair hsbus hqueues (State.forAll_only (fun _ _ k3 => (State.fastPath_only hsums (hstalls _) hmkt k3)) hx2)))))

theorem State.demandScan_only {cs : Block → Bool} {s t : State} {a1} (hsums : cs .sums = true) (hlat : cs .lat = true) (hcapture : cs .capture = true)
      (hstalls : ∀ i, cs (.stall i) = true) (hbay1 : cs (.bay a1) = true) (hmkt : cs .mkt = true) (hsaf : cs .saf = true) (hqueues : cs .queues =
      true) (h : OnlyIn cs s t) :
    OnlyIn cs s (State.demandScan t a1) := by
  unfold State.demandScan
  exact (OnlyIn.ite
        (by extract_lets +onlyGivenNames -merge -underBinder x0; (try clear_value x0); exact (by extract_lets +onlyGivenNames -merge -underBinder x1; have hx1 : OnlyIn cs s x1 := (by unfold x1; exact (OnlyIn.ite (State.removeBay_only hsums hlat hcapture hstalls hmkt hsaf hqueues h) (State.requestSafeStop_only hsums hlat hcapture hstalls hmkt hsaf hqueues h))); (try clear_value x1); exact (State.sessionDemand_only hsums hbay1 hx1)))
        (State.sessionFree_only hbay1 h))

theorem State.driveSo_only {cs : Block → Bool} {s t : State} {a1 a2} (hsums : cs .sums = true) (hsaf : cs .saf = true) (h : OnlyIn cs s t) :
    OnlyIn cs s (State.driveSo t a1 a2) := by
  unfold State.driveSo
  extract_lets +onlyGivenNames -merge -underBinder x0
  (try clear_value x0)
  extract_lets +onlyGivenNames -merge -underBinder x1
  (try clear_value x1)
  exact (OnlyIn.ite h (OnlyIn.ite (State.soEnergise_only hsums hsaf h) (State.soOff_only hsums hsaf h)))

theorem State.feedbackSi_only {cs : Block → Bool} {s t : State} {a1} (hsums : cs .sums = true) (hsaf : cs .saf = true) (h : OnlyIn cs s t) :
    OnlyIn cs s (State.feedbackSi t a1) := by
  unfold State.feedbackSi
  extract_lets +onlyGivenNames -merge -underBinder x0
  (try clear_value x0)
  extract_lets +onlyGivenNames -merge -underBinder x1
  (try clear_value x1)
  extract_lets +onlyGivenNames -merge -underBinder x2
  (try clear_value x2)
  exact (State.bumpIf_only hsums (State.setSi_only hsaf h))

theorem State.newSafNonce_only {cs : Block → Bool} {s t : State} (hdraws : cs .draws = true) (hsaf : cs .saf = true) (h : OnlyIn cs s t) :
    OnlyIn cs s (State.newSafNonce t) := by
  unfold State.newSafNonce
  extract_lets +onlyGivenNames -merge -underBinder x0
  have hx0 : OnlyIn cs s x0.2 := (State.drawBytes_only hdraws h)
  (try clear_value x0)
  extract_lets +onlyGivenNames -merge -underBinder x1
  have hx1 : OnlyIn cs s x1 := hx0
  (try clear_value x1)
  exact (OnlyIn.setSaf hsaf hx1)

theorem State.noteLimits_only {cs : Block → Bool} {s t : State} {a1 a2} (hsaf : cs .saf = true) (h : OnlyIn cs s t) :
    OnlyIn cs s (State.noteLimits t a1 a2) := by
  unfold State.noteLimits
  exact (OnlyIn.setSaf hsaf h)

theorem State.outletScan_only {cs : Block → Bool} {s t : State} {a1} (hdraws : cs .draws = true) (hsums : cs .sums = true) (hviol : cs .viol = true)
      (hlat : cs .lat = true) (hcapture : cs .capture = true) (hstalls : ∀ i, cs (.stall i) = true) (houtlet1 : cs (.outlet a1) = true) (hbay1 : cs
      (.bay a1) = true) (hmkt : cs .mkt = true) (hsaf : cs .saf = true) (hpair : cs .pair = true) (hvault : cs .vault = true) (hqueues : cs .queues =
      true) (h : OnlyIn cs s t) :
    OnlyIn cs s (State.outletScan t a1) := by
  unfold State.outletScan
  extract_lets +onlyGivenNames -merge -underBinder x0
  (try clear_value x0)
  extract_lets +onlyGivenNames -merge -underBinder x1
  (try clear_value x1)
  extract_lets +onlyGivenNames -merge -underBinder x2
  (try clear_value x2)
  extract_lets +onlyGivenNames -merge -underBinder x3
  have hx3 : OnlyIn cs s x3 := (State.setBay_only (fun _ => ⟨.inl houtlet1, .inr (by rfl), .inr (by rfl)⟩) h)
  (try clear_value x3)
  extract_lets +onlyGivenNames -merge -underBinder x4
  have hx4 : OnlyIn cs s x4 := (State.bumpIf_only hsums hx3)
  (try clear_value x4)
  extract_lets +onlyGivenNames -merge -underBinder x5
  (try clear_value x5)
  extract_lets +onlyGivenNames -merge -underBinder x6
  have hx6 : OnlyIn cs s x6 :=
        (by unfold x6; exact (OnlyIn.ite (State.contactorFail_only hsums hlat hcapture hstalls houtlet1 hbay1 hmkt hsaf hqueues hx4) hx4))
  (try clear_value x6)
  exact (OnlyIn.ite (State.leaveFault_only hsums hbay1 (State.contactorOpen_only hdraws hsums hviol hlat hcapture hstalls houtlet1 hbay1 hmkt hsaf
        hpair hvault hqueues hx6)) (OnlyIn.ite (State.tryCableTarget_only hlat hbay1 hx6) hx6))

theorem State.pwSet_only {cs : Block → Bool} {s t : State} {a1} (hsums : cs .sums = true) (hcapture : cs .capture = true) (hsaf : cs .saf = true)
      (hqueues : cs .queues = true) (hmram : cs .mram = true) (h : OnlyIn cs s t) :
    OnlyIn cs s (State.pwSet t a1) := by
  unfold State.pwSet
  exact (State.changeLog_only hsums hcapture hsaf hqueues (State.chargePolicy_only hmram (OnlyIn.setSaf hsaf h)))

theorem State.readBack_only {cs : Block → Bool} {s t : State} {a1 a2 a3} (hsums : cs .sums = true) (hcapture : cs .capture = true) (hsaf : cs .saf =
      true) (hqueues : cs .queues = true) (h : OnlyIn cs s t) :
    OnlyIn cs s (State.readBack t a1 a2 a3) := by
  unfold State.readBack
  exact (OnlyIn.ite h
        (by extract_lets +onlyGivenNames -merge -underBinder x0; have hx0 : OnlyIn cs s x0 := (State.setSo_only hsaf h); (try clear_value x0); exact (OnlyIn.ite (State.soFault_only hsums hcapture hsaf hqueues hx0) (OnlyIn.ite (State.soFault_only hsums hcapture hsaf hqueues hx0) hx0))))

theorem State.readSo_only {cs : Block → Bool} {s t : State} {a1 a2} (hsums : cs .sums = true) (hcapture : cs .capture = true) (hsaf : cs .saf = true)
      (hqueues : cs .queues = true) (h : OnlyIn cs s t) :
    OnlyIn cs s (State.readSo t a1 a2) := by
  unfold State.readSo
  exact (OnlyIn.foldl (fun _ _ k0 => (State.confirmSo_only hsums hcapture hsaf hqueues (State.readBack_only hsums hcapture hsaf hqueues k0))) h)

theorem State.safClear_only {cs : Block → Bool} {s t : State} (hsaf : cs .saf = true) (h : OnlyIn cs s t) :
    OnlyIn cs s (State.safClear t) := by
  unfold State.safClear
  exact (OnlyIn.setSaf hsaf h)

theorem State.setSafLock_only {cs : Block → Bool} {s t : State} {a1} (hsaf : cs .saf = true) (h : OnlyIn cs s t) :
    OnlyIn cs s (State.setSafLock t a1) := by
  unfold State.setSafLock
  exact (OnlyIn.setSaf hsaf h)

theorem State.safTry_only {cs : Block → Bool} {s t : State} {a1} (hsums : cs .sums = true) (hcapture : cs .capture = true) (hsaf : cs .saf = true)
      (hqueues : cs .queues = true) (h : OnlyIn cs s t) :
    OnlyIn cs s (State.safTry t a1).1 := by
  unfold State.safTry
  exact (OnlyIn.iteFst
        (by extract_lets +onlyGivenNames -merge -underBinder x0; (try clear_value x0); exact (by extract_lets +onlyGivenNames -merge -underBinder x1; (try clear_value x1); exact (by extract_lets +onlyGivenNames -merge -underBinder x2; have hx2 : OnlyIn cs s x2 := (State.setSafLock_only hsaf h); (try clear_value x2); exact (OnlyIn.pairFst (State.bumpIf_only hsums (OnlyIn.setSaf hsaf hx2))))))
        (by extract_lets +onlyGivenNames -merge -underBinder x3; have hx3 : OnlyIn cs s x3 := (State.changeLog_only hsums hcapture hsaf hqueues (State.setSafLock_only hsaf h)); (try clear_value x3); exact (OnlyIn.pairFst (OnlyIn.ite (State.changeLog_only hsums hcapture hsaf hqueues hx3) hx3))))

theorem State.safUnlock_only {cs : Block → Bool} {s t : State} {a1} (hdraws : cs .draws = true) (hsums : cs .sums = true) (hcapture : cs .capture =
      true) (hsaf : cs .saf = true) (hqueues : cs .queues = true) (h : OnlyIn cs s t) :
    OnlyIn cs s (State.safUnlock t a1).1 := by
  unfold State.safUnlock
  exact
        (by split; (next => exact (OnlyIn.pairFst (State.newSafNonce_only hdraws hsaf h))); (next => exact (by extract_lets +onlyGivenNames -merge -underBinder x0; have hx0 : OnlyIn cs s x0.1 := (State.safTry_only hsums hcapture hsaf hqueues h); (try clear_value x0); exact (OnlyIn.pairFst (State.newSafNonce_only hdraws hsaf hx0)))))

theorem State.safLockAgain_only {cs : Block → Bool} {s t : State} (hsums : cs .sums = true) (hsaf : cs .saf = true) (h : OnlyIn cs s t) :
    OnlyIn cs s (State.safLockAgain t) := by
  unfold State.safLockAgain
  extract_lets +onlyGivenNames -merge -underBinder x0
  have hx0 : OnlyIn cs s x0 := (State.setSafLock_only hsaf h)
  (try clear_value x0)
  exact (State.bump_only hsums (OnlyIn.setSaf hsaf hx0))

theorem State.safSeal_only {cs : Block → Bool} {s t : State} {a1} (hsums : cs .sums = true) (hcapture : cs .capture = true) (hsaf : cs .saf = true)
      (hqueues : cs .queues = true) (hmram : cs .mram = true) (h : OnlyIn cs s t) :
    OnlyIn cs s (State.safSeal t a1) := by
  unfold State.safSeal
  extract_lets +onlyGivenNames -merge -underBinder x0
  (try clear_value x0)
  extract_lets +onlyGivenNames -merge -underBinder x1
  (try clear_value x1)
  extract_lets +onlyGivenNames -merge -underBinder x2
  (try clear_value x2)
  extract_lets +onlyGivenNames -merge -underBinder x3
  (try clear_value x3)
  extract_lets +onlyGivenNames -merge -underBinder x4 x5
  have hx5 : OnlyIn cs s x5 := (State.chargePolicy_only hmram (OnlyIn.setSaf hsaf h))
  (try clear_value x4)
  (try clear_value x5)
  exact (State.changeLog_only hsums hcapture hsaf hqueues (State.safLockAgain_only hsums hsaf hx5))

theorem State.siReset_only {cs : Block → Bool} {s t : State} {a1} (hsums : cs .sums = true) (hcapture : cs .capture = true) (hsaf : cs .saf = true)
      (hqueues : cs .queues = true) (h : OnlyIn cs s t) :
    OnlyIn cs s (State.siReset t a1) := by
  unfold State.siReset
  extract_lets +onlyGivenNames -merge -underBinder x0 x1
  have hx1 : OnlyIn cs s x1 := (OnlyIn.setSaf hsaf h)
  (try clear_value x0)
  (try clear_value x1)
  exact (by split <;> first | exact (OnlyIn.ite (State.goSi_only hsums hcapture hsaf hqueues hx1) hx1) | exact hx1)

theorem State.soClear_only {cs : Block → Bool} {s t : State} {a1} (hsums : cs .sums = true) (hsaf : cs .saf = true) (h : OnlyIn cs s t) :
    OnlyIn cs s (State.soClear t a1) := by
  unfold State.soClear
  extract_lets +onlyGivenNames -merge -underBinder x0 x1
  have hx1 : OnlyIn cs s x1 := (OnlyIn.setSaf hsaf h)
  (try clear_value x0)
  (try clear_value x1)
  exact (by split <;> first | exact (OnlyIn.ite (State.bump_only hsums (State.setSo_only hsaf hx1)) hx1) | exact hx1)

theorem State.safCtrlWrite_only {cs : Block → Bool} {s t : State} {a1 a2} (hdraws : cs .draws = true) (hsums : cs .sums = true) (hcapture : cs
      .capture = true) (hsaf : cs .saf = true) (hqueues : cs .queues = true) (hmram : cs .mram = true) (h : OnlyIn cs s t) :
    OnlyIn cs s (State.safCtrlWrite t a1 a2).1 := by
  unfold State.safCtrlWrite
  extract_lets +onlyGivenNames -merge -underBinder x0
  (try clear_value x0)
  exact (OnlyIn.iteFst (OnlyIn.pairFst h) (OnlyIn.iteFst (OnlyIn.pairFst h)
        (by extract_lets +onlyGivenNames -merge -underBinder x1 x2 x3; have hx3 : OnlyIn cs s x3.1 := (by unfold x3; exact (OnlyIn.iteFst (State.safUnlock_only hdraws hsums hcapture hsaf hqueues (OnlyIn.setSaf hsaf h)) (OnlyIn.iteFst (by split; (next => exact (OnlyIn.pairFst h)); (next => exact (OnlyIn.pairFst (State.safSeal_only hsums hcapture hsaf hqueues hmram (OnlyIn.setSaf hsaf h))))) (OnlyIn.iteFst (by split; (next => exact (OnlyIn.pairFst h)); (next => exact (OnlyIn.pairFst (State.pwSet_only hsums hcapture hsaf hqueues hmram (OnlyIn.setSaf hsaf h))))) (OnlyIn.iteFst (OnlyIn.pairFst (State.siReset_only hsums hcapture hsaf hqueues h)) (OnlyIn.iteFst (OnlyIn.pairFst (State.soClear_only hsums hsaf h)) (OnlyIn.pairFst (OnlyIn.setSaf hsaf h)))))))); (try clear_value x1); (try clear_value x2); (try clear_value x3); exact (OnlyIn.iteFst (OnlyIn.pairFst (State.safClear_only hsaf hx3)) hx3))))

theorem State.withdrawOutlet_only {cs : Block → Bool} {s t : State} {a1} (hsums : cs .sums = true) (houtlet1 : cs (.outlet a1) = true) (hsaf : cs .saf
      = true) (h : OnlyIn cs s t) :
    OnlyIn cs s (State.withdrawOutlet t a1) := by
  unfold State.withdrawOutlet
  exact (State.commandOutlet_only hsums houtlet1 (State.outletOff_only hsums hsaf h))

theorem State.stopScan_only {cs : Block → Bool} {s t : State} {a1} (hsums : cs .sums = true) (hcapture : cs .capture = true) (hstalls : ∀ i, cs
      (.stall i) = true) (houtlet1 : cs (.outlet a1) = true) (hmkt : cs .mkt = true) (hsaf : cs .saf = true) (hqueues : cs .queues = true) (h : OnlyIn
      cs s t) :
    OnlyIn cs s (State.stopScan t a1) := by
  unfold State.stopScan
  extract_lets +onlyGivenNames -merge -underBinder x0
  (try clear_value x0)
  exact
        (by split; (next => exact (OnlyIn.ite (State.withdrawOutlet_only hsums houtlet1 hsaf h) h)); (next => exact (by extract_lets +onlyGivenNames -merge -underBinder x1; have hx1 : OnlyIn cs s x1 := (State.withdrawOutlet_only hsums houtlet1 hsaf h); (try clear_value x1); exact (by split; (next => exact (OnlyIn.ite (State.ssDone_only hsums hcapture hsaf hqueues hx1) (State.setSs_only hsaf hx1))); (next => exact (OnlyIn.ite (OnlyIn.ite (State.ssDone_only hsums hcapture hsaf hqueues (State.escalate_only hsums hcapture hstalls hmkt hsaf hqueues hx1)) (State.ssDone_only hsums hcapture hsaf hqueues hx1)) hx1))))); (next => exact (OnlyIn.ite (State.ssDone_only hsums hcapture hsaf hqueues h) h)); (next => exact (by extract_lets +onlyGivenNames -merge -underBinder x2; (try clear_value x2); exact (OnlyIn.ite (State.bump_only hsums (State.setSs_only hsaf h)) h))); (next => exact h))

theorem State.scanActs_only {cs : Block → Bool} {s t : State} {a1} (hdraws : cs .draws = true) (hsums : cs .sums = true) (hviol : cs .viol = true)
      (hlat : cs .lat = true) (hcapture : cs .capture = true) (hstalls : ∀ i, cs (.stall i) = true) (houtlets : ∀ i, cs (.outlet i) = true) (hbays : ∀
      i, cs (.bay i) = true) (hmkt : cs .mkt = true) (hsaf : cs .saf = true) (hpair : cs .pair = true) (hvault : cs .vault = true) (hqueues : cs
      .queues = true) (h : OnlyIn cs s t) :
    OnlyIn cs s (State.scanActs t a1) := by
  unfold State.scanActs
  extract_lets +onlyGivenNames -merge -underBinder x0
  have hx0 : OnlyIn cs s x0 := (State.forAll_only (fun _ _ k1 => (State.stopScan_only hsums hcapture hstalls (houtlets _) hmkt hsaf hqueues
        (State.demandScan_only hsums hlat hcapture hstalls (hbays _) hmkt hsaf hqueues k1))) h)
  (try clear_value x0)
  extract_lets +onlyGivenNames -merge -underBinder x2
  have hx2 : OnlyIn cs s x2 := (State.forAll_only (fun _ _ k3 => (OnlyIn.ite (State.checkInsulation_only hsums hlat hcapture hstalls (hbays _) hmkt
        hsaf hqueues k3) k3)) hx0)
  (try clear_value x2)
  extract_lets +onlyGivenNames -merge -underBinder x4
  have hx4 : OnlyIn cs s x4 := (OnlyIn.foldl (fun _ _ k5 => (State.driveSo_only hsums hsaf k5)) hx2)
  (try clear_value x4)
  exact (State.retake_only hsums hlat hstalls hmkt hsaf (State.forAll_only (fun _ _ k6 => (State.outletScan_only hdraws hsums hviol hlat hcapture
        hstalls (houtlets _) (hbays _) hmkt hsaf hpair hvault hqueues k6)) hx4))

theorem State.testFeedback_only {cs : Block → Bool} {s t : State} {a1 a2} (hsums : cs .sums = true) (hcapture : cs .capture = true) (hsaf : cs .saf =
      true) (hqueues : cs .queues = true) (h : OnlyIn cs s t) :
    OnlyIn cs s (State.testFeedback t a1 a2) := by
  unfold State.testFeedback
  extract_lets +onlyGivenNames -merge -underBinder x0
  (try clear_value x0)
  exact (OnlyIn.ite (OnlyIn.ite h (State.goSi_only hsums hcapture hsaf hqueues h)) (OnlyIn.ite (State.goSi_only hsums hcapture hsaf hqueues h) h))

theorem State.testSi_only {cs : Block → Bool} {s t : State} {a1 a2 a3} (hsums : cs .sums = true) (hcapture : cs .capture = true) (hsaf : cs .saf =
      true) (hqueues : cs .queues = true) (h : OnlyIn cs s t) :
    OnlyIn cs s (State.testSi t a1 a2 a3) := by
  unfold State.testSi
  extract_lets +onlyGivenNames -merge -underBinder x0
  (try clear_value x0)
  exact (OnlyIn.ite (OnlyIn.ite h (State.goSi_only hsums hcapture hsaf hqueues h)) (OnlyIn.ite h (OnlyIn.ite (State.goSi_only hsums hcapture hsaf
        hqueues h) (OnlyIn.ite (State.log_only hsums hcapture hqueues (State.goSi_only hsums hcapture hsaf hqueues h)) h))))

theorem State.scanPair_only {cs : Block → Bool} {s t : State} {a1 a2 a3 a4} (hsums : cs .sums = true) (hcapture : cs .capture = true) (hsaf : cs .saf
      = true) (hqueues : cs .queues = true) (h : OnlyIn cs s t) :
    OnlyIn cs s (State.scanPair t a1 a2 a3 a4) := by
  unfold State.scanPair
  extract_lets +onlyGivenNames -merge -underBinder x0
  (try clear_value x0)
  extract_lets +onlyGivenNames -merge -underBinder x1
  (try clear_value x1)
  extract_lets +onlyGivenNames -merge -underBinder x2
  (try clear_value x2)
  extract_lets +onlyGivenNames -merge -underBinder x3
  extract_lets +onlyGivenNames -merge -underBinder x4
  extract_lets +onlyGivenNames -merge -underBinder x5
  extract_lets +onlyGivenNames -merge -underBinder x6
  extract_lets +onlyGivenNames -merge -underBinder x7
  (try clear_value x7)
  extract_lets +onlyGivenNames -merge -underBinder x8
  (try clear_value x8)
  extract_lets +onlyGivenNames -merge -underBinder x9
  have hx9 : OnlyIn cs s x9 := (State.setSi_only hsaf h)
  (try clear_value x9)
  exact
        (by split; (next => exact hx9); (next => exact (OnlyIn.ite (State.testFeedback_only hsums hcapture hsaf hqueues (State.feedbackSi_only hsums hsaf hx9)) (State.testSi_only hsums hcapture hsaf hqueues (State.applyChanges_only hsums hcapture hsaf hqueues hx9)))))

theorem State.scanPairs_only {cs : Block → Bool} {s t : State} {a1 a2} (hsums : cs .sums = true) (hcapture : cs .capture = true) (hsaf : cs .saf =
      true) (hqueues : cs .queues = true) (h : OnlyIn cs s t) :
    OnlyIn cs s (State.scanPairs t a1 a2) := by
  unfold State.scanPairs
  exact (State.noteLimits_only hsaf (State.forAll_only (fun _ _ k0 => (State.scanPair_only hsums hcapture hsaf hqueues k0)) h))

theorem State.startScan_only {cs : Block → Bool} {s t : State} {a1} (hsaf : cs .saf = true) (h : OnlyIn cs s t) :
    OnlyIn cs s (State.startScan t a1) := by
  unfold State.startScan
  exact (OnlyIn.setSaf hsaf h)

theorem doDiscrepancyTimeout_only {cs : Block → Bool} {s t : State} {a0 a1} (hmt : cs .mt = true) (hsums : cs .sums = true) (hcapture : cs .capture =
      true) (hsaf : cs .saf = true) (hqueues : cs .queues = true) (h : OnlyIn cs s t) :
    OnlyIn cs s (doDiscrepancyTimeout a0 a1 t) := by
  unfold doDiscrepancyTimeout
  exact (whenScanning_only hmt (fun _ k0 =>
        (by extract_lets +onlyGivenNames -merge -underBinder x1; (try clear_value x1); exact (by split; (next => exact (OnlyIn.ite (State.goSi_only hsums hcapture hsaf hqueues k0) k0)); (next => exact k0))))
        h)

theorem doFeedbackMismatch_only {cs : Block → Bool} {s t : State} {a0 a1} (hmt : cs .mt = true) (hsums : cs .sums = true) (hcapture : cs .capture =
      true) (hsaf : cs .saf = true) (hqueues : cs .queues = true) (h : OnlyIn cs s t) :
    OnlyIn cs s (doFeedbackMismatch a0 a1 t) := by
  unfold doFeedbackMismatch
  exact (whenScanning_only hmt (fun _ k0 =>
        (by extract_lets +onlyGivenNames -merge -underBinder x1; (try clear_value x1); exact (by split <;> first | exact (OnlyIn.ite (by extract_lets +onlyGivenNames -merge -underBinder x2; have hx2 : OnlyIn cs s x2 := (State.bump_only hsums (State.setSi_only hsaf k0)); (try clear_value x2); exact (OnlyIn.foldl (fun _ _ k3 => (OnlyIn.ite (State.soFault_only hsums hcapture hsaf hqueues k3) k3)) hx2)) k0) | exact k0)))
        h)

theorem doProofDue_only {cs : Block → Bool} {s t : State} {a0 a1} (hmt : cs .mt = true) (hsums : cs .sums = true) (hsaf : cs .saf = true) (h : OnlyIn
      cs s t) :
    OnlyIn cs s (doProofDue a0 a1 t) := by
  unfold doProofDue
  exact (whenLive_only hmt (fun _ k0 =>
        (by split; (next => exact (OnlyIn.ite (State.bump_only hsums (State.setSi_only hsaf k0)) k0)); (next => exact k0))) h)

theorem doPwSet_only {cs : Block → Bool} {s t : State} {a0 a1} (hmt : cs .mt = true) (hsums : cs .sums = true) (hanswer : cs .answer = true) (hviol :
      cs .viol = true) (hcapture : cs .capture = true) (hsaf : cs .saf = true) (hqueues : cs .queues = true) (hmram : cs .mram = true) (h : OnlyIn cs
      s t) :
    OnlyIn cs s (doPwSet a0 a1 t) := by
  unfold doPwSet
  exact (whenLive_only hmt (fun _ k0 => (State.command_only hsums hanswer hviol hcapture hqueues (fun _ k1 => (State.pwSet_only hsums hcapture hsaf
        hqueues hmram k1)) k0)) h)

theorem doSafClrCnt_only {cs : Block → Bool} {s t : State} {a0 a1} (hmt : cs .mt = true) (hsums : cs .sums = true) (hanswer : cs .answer = true)
      (hviol : cs .viol = true) (hcapture : cs .capture = true) (hsaf : cs .saf = true) (hqueues : cs .queues = true) (h : OnlyIn cs s t) :
    OnlyIn cs s (doSafClrCnt a0 a1 t) := by
  unfold doSafClrCnt
  exact (whenLive_only hmt (fun _ k0 => (State.command_only hsums hanswer hviol hcapture hqueues (fun _ k1 => (State.safClear_only hsaf k1)) k0)) h)

theorem doSafLockoutEnd_only {cs : Block → Bool} {s t : State} {a0} (hmt : cs .mt = true) (hsums : cs .sums = true) (hsaf : cs .saf = true) (h :
      OnlyIn cs s t) :
    OnlyIn cs s (doSafLockoutEnd a0 t) := by
  unfold doSafLockoutEnd
  exact (whenLive_only hmt (fun _ k0 => (OnlyIn.ite (State.bump_only hsums (State.setSafLock_only hsaf k0)) k0)) h)

theorem doSafSeal_only {cs : Block → Bool} {s t : State} {a0 a1} (hmt : cs .mt = true) (hsums : cs .sums = true) (hanswer : cs .answer = true) (hviol
      : cs .viol = true) (hcapture : cs .capture = true) (hsaf : cs .saf = true) (hqueues : cs .queues = true) (hmram : cs .mram = true) (h : OnlyIn
      cs s t) :
    OnlyIn cs s (doSafSeal a0 a1 t) := by
  unfold doSafSeal
  exact (whenLive_only hmt (fun _ k0 => (State.command_only hsums hanswer hviol hcapture hqueues (fun _ k1 => (State.safSeal_only hsums hcapture hsaf
        hqueues hmram k1)) k0)) h)

theorem doSafUnlock_only {cs : Block → Bool} {s t : State} {a0 a1} (hmt : cs .mt = true) (hdraws : cs .draws = true) (hsums : cs .sums = true)
      (hanswer : cs .answer = true) (hviol : cs .viol = true) (hcapture : cs .capture = true) (hsaf : cs .saf = true) (hqueues : cs .queues = true) (h
      : OnlyIn cs s t) :
    OnlyIn cs s (doSafUnlock a0 a1 t) := by
  unfold doSafUnlock
  exact (whenLive_only hmt (fun _ k0 =>
        (by split; (next => exact (State.answered_only hsums hanswer hviol hcapture hqueues k0)); (next => exact (by extract_lets +onlyGivenNames -merge -underBinder x1; have hx1 : OnlyIn cs s x1.1 := (State.safUnlock_only hdraws hsums hcapture hsaf hqueues k0); (try clear_value x1); exact (State.answered_only hsums hanswer hviol hcapture hqueues hx1)))))
        h)

theorem doSafUnlockExpiry_only {cs : Block → Bool} {s t : State} {a0} (hmt : cs .mt = true) (hsums : cs .sums = true) (hsaf : cs .saf = true) (h :
      OnlyIn cs s t) :
    OnlyIn cs s (doSafUnlockExpiry a0 t) := by
  unfold doSafUnlockExpiry
  exact (whenLive_only hmt (fun _ k0 => (OnlyIn.ite (State.safLockAgain_only hsums hsaf k0) k0)) h)

theorem doSafetyScan_only {cs : Block → Bool} {s t : State} {a0 a1} (hmt : cs .mt = true) (hdraws : cs .draws = true) (hprof : cs .prof = true) (hsums
      : cs .sums = true) (hviol : cs .viol = true) (hlat : cs .lat = true) (hcapture : cs .capture = true) (hlinks : ∀ i, cs (.link i) = true)
      (hsamples : ∀ i, cs (.sample i) = true) (hstalls : ∀ i, cs (.stall i) = true) (houtlets : ∀ i, cs (.outlet i) = true) (hbays : ∀ i, cs (.bay i)
      = true) (hmkt : cs .mkt = true) (hsaf : cs .saf = true) (hrole : cs .role = true) (hpair : cs .pair = true) (hsbus : cs .sbus = true) (hvault :
      cs .vault = true) (hqueues : cs .queues = true) (h : OnlyIn cs s t) :
    OnlyIn cs s (doSafetyScan a0 a1 t) := by
  unfold doSafetyScan
  extract_lets +onlyGivenNames -merge -underBinder x0
  have hx0 : OnlyIn cs s x0 := (State.arrive_only hmt h)
  (try clear_value x0)
  exact (OnlyIn.ite hx0
        (by extract_lets +onlyGivenNames -merge -underBinder x1; have hx1 : OnlyIn cs s x1 := (State.startScan_only hsaf hx0); (try clear_value x1); exact (by extract_lets +onlyGivenNames -merge -underBinder x2; have hx2 : OnlyIn cs s x2 := (State.readSo_only hsums hcapture hsaf hqueues (State.scanPairs_only hsums hcapture hsaf hqueues (OnlyIn.ite hx1 (State.ctrlFail_only hprof hsums hlat hcapture hlinks hsamples hstalls houtlets hbays hmkt hsaf hrole hpair hsbus hqueues hx1)))); (try clear_value x2); exact (OnlyIn.ite (State.scanActs_only hdraws hsums hviol hlat hcapture hstalls houtlets hbays hmkt hsaf hpair hvault hqueues hx2) hx2))))

theorem doSiReset_only {cs : Block → Bool} {s t : State} {a0 a1 a2} (hmt : cs .mt = true) (hsums : cs .sums = true) (hanswer : cs .answer = true)
      (hviol : cs .viol = true) (hcapture : cs .capture = true) (hsaf : cs .saf = true) (hqueues : cs .queues = true) (h : OnlyIn cs s t) :
    OnlyIn cs s (doSiReset a0 a1 a2 t) := by
  unfold doSiReset
  exact (whenLive_only hmt (fun _ k0 => (State.command_only hsums hanswer hviol hcapture hqueues (fun _ k1 => (State.siReset_only hsums hcapture hsaf
        hqueues k1)) k0)) h)

theorem doSoClear_only {cs : Block → Bool} {s t : State} {a0 a1 a2} (hmt : cs .mt = true) (hsums : cs .sums = true) (hanswer : cs .answer = true)
      (hviol : cs .viol = true) (hcapture : cs .capture = true) (hsaf : cs .saf = true) (hqueues : cs .queues = true) (h : OnlyIn cs s t) :
    OnlyIn cs s (doSoClear a0 a1 a2 t) := by
  unfold doSoClear
  exact (whenLive_only hmt (fun _ k0 => (State.command_only hsums hanswer hviol hcapture hqueues (fun _ k1 => (State.soClear_only hsums hsaf k1)) k0))
        h)

theorem doSoCurrentFault_only {cs : Block → Bool} {s t : State} {a0 a1 a2 a3} (hmt : cs .mt = true) (hsums : cs .sums = true) (hcapture : cs .capture
      = true) (hsaf : cs .saf = true) (hqueues : cs .queues = true) (h : OnlyIn cs s t) :
    OnlyIn cs s (doSoCurrentFault a0 a1 a2 a3 t) := by
  unfold doSoCurrentFault
  exact (whenLive_only hmt (fun _ k0 => (OnlyIn.ite k0
        (by extract_lets +onlyGivenNames -merge -underBinder x1; have hx1 : OnlyIn cs s x1 := (State.setSo_only hsaf k0); (try clear_value x1); exact (OnlyIn.ite (State.soFault_only hsums hcapture hsaf hqueues hx1) (OnlyIn.ite (State.soFault_only hsums hcapture hsaf hqueues hx1) (OnlyIn.ite (State.soFault_only hsums hcapture hsaf hqueues hx1) hx1))))))
        h)

theorem doSwitchTest_only {cs : Block → Bool} {s t : State} {a0 a1 a2 a3} (hmt : cs .mt = true) (hsums : cs .sums = true) (hcapture : cs .capture =
      true) (hsaf : cs .saf = true) (hqueues : cs .queues = true) (h : OnlyIn cs s t) :
    OnlyIn cs s (doSwitchTest a0 a1 a2 a3 t) := by
  unfold doSwitchTest
  exact (whenLive_only hmt (fun _ k0 =>
        (by split; (next => exact (OnlyIn.ite (by extract_lets +onlyGivenNames -merge -underBinder x1; have hx1 : OnlyIn cs s x1 := (State.setSo_only hsaf k0); (try clear_value x1); exact (OnlyIn.ite (State.soFault_only hsums hcapture hsaf hqueues hx1) hx1)) k0)); (next => exact k0)))
        h)

theorem doTestPulse_only {cs : Block → Bool} {s t : State} {a0 a1} (hmt : cs .mt = true) (hsaf : cs .saf = true) (h : OnlyIn cs s t) :
    OnlyIn cs s (doTestPulse a0 a1 t) := by
  unfold doTestPulse
  exact (whenLive_only hmt (fun _ k0 =>
        (by split; (next => exact (OnlyIn.ite (by extract_lets +onlyGivenNames -merge -underBinder x1 x2; have hx2 : OnlyIn cs s x2 := (OnlyIn.setSaf hsaf k0); (try clear_value x1); (try clear_value x2); exact (State.forAll_only (fun _ _ k3 => (by split; (next => exact (by extract_lets +onlyGivenNames -merge -underBinder x4; have hx4 : OnlyIn cs s x4 := (by unfold x4; exact (OnlyIn.ite (State.setSi_only hsaf k3) k3)); (try clear_value x4); exact (OnlyIn.ite (State.setSi_only hsaf hx4) hx4))); (next => exact k3))) hx2)) k0)); (next => exact k0)))
        h)

theorem safWrite_eff {cs : Block → Bool} {a0 a1 a2} (hsums : cs .sums = true) (hsaf : cs .saf = true) :
    EffsIn cs (safWrite a0 a1 a2) := by
  unfold safWrite
  exact
        (by split; (next => exact (EffsIn.some (EffIn.mk (fun z1 _ k0 => (OnlyIn.ite (State.bumpIf_only hsums (OnlyIn.setSaf hsaf k0)) k0))))); (next => exact (by extract_lets +onlyGivenNames -merge -underBinder x2; (try clear_value x2); exact (by extract_lets +onlyGivenNames -merge -underBinder x3; (try clear_value x3); exact (EffsIn.some (EffIn.mk (fun z5 _ k4 => (by extract_lets +onlyGivenNames -merge -underBinder x6; (try clear_value x6); exact (by extract_lets +onlyGivenNames -merge -underBinder x7 x8; have hx8 : OnlyIn cs z5 x8 := (OnlyIn.setSaf hsaf k4); (try clear_value x7); (try clear_value x8); exact (State.bumpIf_only hsums hx8))))))))); (next => exact (EffsIn.ite (EffsIn.some (EffIn.mk (fun z10 _ k9 => (State.setSafLock_only hsaf k9)))) (EffsIn.ite (EffsIn.some (EffIn.mk (fun z12 _ k11 => (OnlyIn.setSaf hsaf k11)))) (EffsIn.map fun _ => roWord_eff)))))

theorem State.setBus_only {cs : Block → Bool} {s t : State} {a1} (hsbus : cs .sbus = true) (h : OnlyIn cs s t) :
    OnlyIn cs s (State.setBus t a1) := by
  unfold State.setBus
  exact (OnlyIn.setSbus hsbus h)

theorem State.setTat_only {cs : Block → Bool} {s t : State} {a1 a2} (hsbus : cs .sbus = true) (h : OnlyIn cs s t) :
    OnlyIn cs s (State.setTat t a1 a2) := by
  unfold State.setTat
  exact (State.setBus_only hsbus h)

theorem State.armTat_only {cs : Block → Bool} {s t : State} {a1 a2} (hsums : cs .sums = true) (hsbus : cs .sbus = true) (h : OnlyIn cs s t) :
    OnlyIn cs s (State.armTat t a1 a2) := by
  unfold State.armTat
  extract_lets +onlyGivenNames -merge -underBinder x0
  (try clear_value x0)
  extract_lets +onlyGivenNames -merge -underBinder x1
  (try clear_value x1)
  extract_lets +onlyGivenNames -merge -underBinder x2
  (try clear_value x2)
  extract_lets +onlyGivenNames -merge -underBinder x3
  (try clear_value x3)
  exact (State.bump_only hsums (State.setTat_only hsbus h))

theorem State.setBox_only {cs : Block → Bool} {s t : State} {a1 a2} (hsbus : cs .sbus = true) (h : OnlyIn cs s t) :
    OnlyIn cs s (State.setBox t a1 a2) := by
  unfold State.setBox
  exact (State.setBus_only hsbus h)

theorem State.boxResult_only {cs : Block → Bool} {s t : State} {a1 a2} (hsums : cs .sums = true) (hsbus : cs .sbus = true) (h : OnlyIn cs s t) :
    OnlyIn cs s (State.boxResult t a1 a2) := by
  unfold State.boxResult
  exact (by split; (next => exact (State.bump_only hsums (State.setBox_only hsbus h))); (next => exact h))

theorem State.busState_only {cs : Block → Bool} {s t : State} {a1} (hsums : cs .sums = true) (hsbus : cs .sbus = true) (h : OnlyIn cs s t) :
    OnlyIn cs s (State.busState t a1) := by
  unfold State.busState
  exact (State.bumpIf_only hsums (State.setBus_only hsbus h))

theorem State.busWakes_only {cs : Block → Bool} {s t : State} {a1} (hsums : cs .sums = true) (hsbus : cs .sbus = true) (h : OnlyIn cs s t) :
    OnlyIn cs s (State.busWakes t a1) := by
  unfold State.busWakes
  exact
        (by split; (next => exact (State.setBus_only hsbus h)); (next => exact (State.busState_only hsums hsbus (State.setBus_only hsbus h))); (next => exact (State.busState_only hsums hsbus (State.setBus_only hsbus h))))

theorem State.setCh_only {cs : Block → Bool} {s t : State} {a1 a2} (hsbus : cs .sbus = true) (h : OnlyIn cs s t) :
    OnlyIn cs s (State.setCh t a1 a2) := by
  unfold State.setCh
  exact (State.setBus_only hsbus h)

theorem State.clearBusLoad_only {cs : Block → Bool} {s t : State} (hsums : cs .sums = true) (hassume : cs .assume = true) (h : OnlyIn cs s t) :
    OnlyIn cs s (State.clearBusLoad t) := by
  unfold State.clearBusLoad
  extract_lets +onlyGivenNames -merge -underBinder x0
  (try clear_value x0)
  extract_lets +onlyGivenNames -merge -underBinder x1
  (try clear_value x1)
  exact (OnlyIn.ite (State.bump_only hsums (OnlyIn.setAssume hassume h)) h)

theorem State.cancelBox_only {cs : Block → Bool} {s t : State} {a1} (hsums : cs .sums = true) (hassume : cs .assume = true) (hsbus : cs .sbus = true)
      (h : OnlyIn cs s t) :
    OnlyIn cs s (State.cancelBox t a1) := by
  unfold State.cancelBox
  extract_lets +onlyGivenNames -merge -underBinder x0
  (try clear_value x0)
  extract_lets +onlyGivenNames -merge -underBinder x1
  (try clear_value x1)
  extract_lets +onlyGivenNames -merge -underBinder x2
  extract_lets +onlyGivenNames -merge -underBinder x3
  (try clear_value x3)
  extract_lets +onlyGivenNames -merge -underBinder x4
  have hx4 : ∀  w, OnlyIn cs s w → OnlyIn cs s (x4  w) :=
        (by unfold x4; exact (fun _ k5 => (by extract_lets +onlyGivenNames -merge -underBinder x6; have hx6 : OnlyIn cs s x6 := (State.setCh_only hsbus k5); (try clear_value x6); exact (State.clearBusLoad_only hsums hassume (State.boxResult_only hsums hsbus hx6)))))
  exact
        (by split <;> first | exact (hx4 _ h) | exact (OnlyIn.ite (hx4 _ (State.setBox_only hsbus (State.setCh_only hsbus h))) (State.setBox_only hsbus h)) | exact (State.setBox_only hsbus h) | exact h)

theorem State.tatResult_only {cs : Block → Bool} {s t : State} {a1 a2 a3 a4} (hsums : cs .sums = true) (hsbus : cs .sbus = true) (h : OnlyIn cs s t) :
    OnlyIn cs s (State.tatResult t a1 a2 a3 a4) := by
  unfold State.tatResult
  extract_lets +onlyGivenNames -merge -underBinder x0
  (try clear_value x0)
  exact (State.bump_only hsums (State.setTat_only hsbus h))

theorem State.cancelTat_only {cs : Block → Bool} {s t : State} {a1} (hsums : cs .sums = true) (hsbus : cs .sbus = true) (h : OnlyIn cs s t) :
    OnlyIn cs s (State.cancelTat t a1) := by
  unfold State.cancelTat
  extract_lets +onlyGivenNames -merge -underBinder x0
  (try clear_value x0)
  extract_lets +onlyGivenNames -merge -underBinder x1
  (try clear_value x1)
  exact (OnlyIn.ite (OnlyIn.ite (State.tatResult_only hsums hsbus (State.setTat_only hsbus (State.setCh_only hsbus h))) (State.setTat_only hsbus h))
        (by split; (next => exact (OnlyIn.ite (State.tatResult_only hsums hsbus h) (State.setTat_only hsbus h))); (next => exact (OnlyIn.ite (State.tatResult_only hsums hsbus h) h))))

theorem State.setBusLoad_only {cs : Block → Bool} {s t : State} (hsums : cs .sums = true) (hassume : cs .assume = true) (h : OnlyIn cs s t) :
    OnlyIn cs s (State.setBusLoad t) := by
  unfold State.setBusLoad
  exact (OnlyIn.ite h (State.bump_only hsums (OnlyIn.setAssume hassume h)))

theorem State.judgeBusLoad_only {cs : Block → Bool} {s t : State} (hsums : cs .sums = true) (hassume : cs .assume = true) (h : OnlyIn cs s t) :
    OnlyIn cs s (State.judgeBusLoad t) := by
  unfold State.judgeBusLoad
  exact (OnlyIn.ite (State.setBusLoad_only hsums hassume h) h)

theorem State.enterOccurrence_only {cs : Block → Bool} {s t : State} {a1 a2 a3} (hsums : cs .sums = true) (hassume : cs .assume = true) (hsbus : cs
      .sbus = true) (h : OnlyIn cs s t) :
    OnlyIn cs s (State.enterOccurrence t a1 a2 a3) := by
  unfold State.enterOccurrence
  extract_lets +onlyGivenNames -merge -underBinder x0
  (try clear_value x0)
  exact (OnlyIn.ite h (State.judgeBusLoad_only hsums hassume (State.setCh_only hsbus h)))

theorem State.gainSync_only {cs : Block → Bool} {s t : State} {a1} (hsums : cs .sums = true) (hassume : cs .assume = true) (hsbus : cs .sbus = true)
      (h : OnlyIn cs s t) :
    OnlyIn cs s (State.gainSync t a1) := by
  unfold State.gainSync
  exact (State.clearBusLoad_only hsums hassume (State.bumpIf_only hsums (State.setCh_only hsbus h)))

theorem State.setErr_only {cs : Block → Bool} {s t : State} {a1 a2 a3} (hsums : cs .sums = true) (hcapture : cs .capture = true) (hsbus : cs .sbus =
      true) (hqueues : cs .queues = true) (h : OnlyIn cs s t) :
    OnlyIn cs s (State.setErr t a1 a2 a3) := by
  unfold State.setErr
  extract_lets +onlyGivenNames -merge -underBinder x0
  (try clear_value x0)
  extract_lets +onlyGivenNames -merge -underBinder x1
  (try clear_value x1)
  extract_lets +onlyGivenNames -merge -underBinder x2
  have hx2 : OnlyIn cs s x2 := (State.setCh_only hsbus h)
  (try clear_value x2)
  exact (OnlyIn.ite hx2 (State.log_only hsums hcapture hqueues hx2))

theorem State.goodReceive_only {cs : Block → Bool} {s t : State} {a1} (hdraws : cs .draws = true) (hsums : cs .sums = true) (hcapture : cs .capture =
      true) (hsbus : cs .sbus = true) (hqueues : cs .queues = true) (h : OnlyIn cs s t) :
    OnlyIn cs s (State.goodReceive t a1) := by
  unfold State.goodReceive
  extract_lets +onlyGivenNames -merge -underBinder x0
  (try clear_value x0)
  exact (OnlyIn.ite
        (by extract_lets +onlyGivenNames -merge -underBinder x1; have hx1 : OnlyIn cs s x1.2 := (State.drawNat_only hdraws h); (try clear_value x1); exact (State.setErr_only hsums hcapture hsbus hqueues hx1))
        (State.setErr_only hsums hcapture hsbus hqueues h))

theorem State.popQueue_only {cs : Block → Bool} {s t : State} {a1} (hsums : cs .sums = true) (hassume : cs .assume = true) (hsbus : cs .sbus = true)
      (h : OnlyIn cs s t) :
    OnlyIn cs s (State.popQueue t a1) := by
  unfold State.popQueue
  exact (State.clearBusLoad_only hsums hassume (State.setCh_only hsbus h))

theorem State.headFailed_only {cs : Block → Bool} {s t : State} {a1} (hsums : cs .sums = true) (hassume : cs .assume = true) (hsbus : cs .sbus = true)
      (h : OnlyIn cs s t) :
    OnlyIn cs s (State.headFailed t a1) := by
  unfold State.headFailed
  exact
        (by split; (next => exact (OnlyIn.ite (by split; (next => exact (OnlyIn.ite (State.boxResult_only hsums hsbus (State.popQueue_only hsums hassume hsbus h)) (State.boxResult_only hsums hsbus h))); (next => exact h)) h)); (next => exact h))

theorem State.sleepWhenAnnounced_only {cs : Block → Bool} {s t : State} (hsums : cs .sums = true) (hsbus : cs .sbus = true) (h : OnlyIn cs s t) :
    OnlyIn cs s (State.sleepWhenAnnounced t) := by
  unfold State.sleepWhenAnnounced
  exact (OnlyIn.ite (State.busState_only hsums hsbus h) h)

theorem State.hearAnnounce_only {cs : Block → Bool} {s t : State} {a1 a2} (hsums : cs .sums = true) (hsbus : cs .sbus = true) (h : OnlyIn cs s t) :
    OnlyIn cs s (State.hearAnnounce t a1 a2) := by
  unfold State.hearAnnounce
  exact (OnlyIn.ite h (OnlyIn.ite
        (by extract_lets +onlyGivenNames -merge -underBinder x0; have hx0 : OnlyIn cs s x0 := (by unfold x0; exact (OnlyIn.ite (State.busState_only hsums hsbus (State.setBus_only hsbus h)) h)); (try clear_value x0); exact (State.sleepWhenAnnounced_only hsums hsbus (State.setCh_only hsbus hx0)))
        (OnlyIn.ite (State.busState_only hsums hsbus (State.setBus_only hsbus h)) h)))

theorem State.loadTat_only {cs : Block → Bool} {s t : State} {a1} (hsbus : cs .sbus = true) (h : OnlyIn cs s t) :
    OnlyIn cs s (State.loadTat t a1) := by
  unfold State.loadTat
  exact (State.setTat_only hsbus h)

theorem State.popFifo_only {cs : Block → Bool} {s t : State} {a1} (hsbus : cs .sbus = true) (h : OnlyIn cs s t) :
    OnlyIn cs s (State.popFifo t a1) := by
  unfold State.popFifo
  exact (State.setCh_only hsbus h)

theorem State.queueFrame_only {cs : Block → Bool} {s t : State} {a1 a2} (hsbus : cs .sbus = true) (h : OnlyIn cs s t) :
    OnlyIn cs s (State.queueFrame t a1 a2) := by
  unfold State.queueFrame
  exact (State.setCh_only hsbus h)

theorem State.sbusClear_only {cs : Block → Bool} {s t : State} (hsbus : cs .sbus = true) (h : OnlyIn cs s t) :
    OnlyIn cs s (State.sbusClear t) := by
  unfold State.sbusClear
  exact (State.setBus_only hsbus h)

theorem State.sendBox_only {cs : Block → Bool} {s t : State} {k v} (hsums : cs .sums = true) (hsbus : cs .sbus = true) (h : OnlyIn cs s t) :
    OnlyIn cs s (t.sendBox k v) :=
  State.bump_only hsums (State.queueFrame_only hsbus (State.setBox_only hsbus h))



theorem State.setRx_only {cs : Block → Bool} {s t : State} {a1 a2} (hsbus : cs .sbus = true) (h : OnlyIn cs s t) :
    OnlyIn cs s (State.setRx t a1 a2) := by
  unfold State.setRx
  exact (State.setBus_only hsbus h)

theorem State.startAttempt_only {cs : Block → Bool} {s t : State} {a1 a2 a3} (hsums : cs .sums = true) (hsbus : cs .sbus = true) (h : OnlyIn cs s t) :
    OnlyIn cs s (State.startAttempt t a1 a2 a3) := by
  unfold State.startAttempt
  extract_lets +onlyGivenNames -merge -underBinder x0
  (try clear_value x0)
  extract_lets +onlyGivenNames -merge -underBinder x1
  have hx1 : OnlyIn cs s x1 := (State.setCh_only hsbus h)
  (try clear_value x1)
  exact (OnlyIn.ite (by split; (next => exact (State.bump_only hsums (State.setBox_only hsbus hx1))); (next => exact hx1)) hx1)

theorem State.startSleep_only {cs : Block → Bool} {s t : State} (hsums : cs .sums = true) (hsbus : cs .sbus = true) (h : OnlyIn cs s t) :
    OnlyIn cs s (State.startSleep t) := by
  unfold State.startSleep
  extract_lets +onlyGivenNames -merge -underBinder x0
  have hx0 : OnlyIn cs s x0 := (State.setBus_only hsbus h)
  (try clear_value x0)
  exact (State.sleepWhenAnnounced_only hsums hsbus (State.busState_only hsums hsbus hx0))

theorem State.storeFifo_only {cs : Block → Bool} {s t : State} {a1 a2} (hsums : cs .sums = true) (hsbus : cs .sbus = true) (h : OnlyIn cs s t) :
    OnlyIn cs s (State.storeFifo t a1 a2) := by
  unfold State.storeFifo
  extract_lets +onlyGivenNames -merge -underBinder x0
  (try clear_value x0)
  exact (OnlyIn.ite h (OnlyIn.ite (State.setCh_only hsbus h) (State.bump_only hsums (State.setCh_only hsbus h))))

theorem State.storeSlots_only {cs : Block → Bool} {s t : State} {a1 a2 a3} (hsums : cs .sums = true) (hsbus : cs .sbus = true) (h : OnlyIn cs s t) :
    OnlyIn cs s (State.storeSlots t a1 a2 a3) := by
  unfold State.storeSlots
  exact (State.forAll_only (fun _ _ k0 =>
        (by extract_lets +onlyGivenNames -merge -underBinder x1; (try clear_value x1); exact (OnlyIn.ite (State.bump_only hsums (State.setRx_only hsbus k0)) k0)))
        h)

theorem State.wakeBad_only {cs : Block → Bool} {s t : State} {a1 a2} (hsbus : cs .sbus = true) (h : OnlyIn cs s t) :
    OnlyIn cs s (State.wakeBad t a1 a2) := by
  unfold State.wakeBad
  exact (OnlyIn.ite (State.setBus_only hsbus h) h)

theorem State.wakeGood_only {cs : Block → Bool} {s t : State} {a1 a2} (hsbus : cs .sbus = true) (h : OnlyIn cs s t) :
    OnlyIn cs s (State.wakeGood t a1 a2) := by
  unfold State.wakeGood
  exact (OnlyIn.ite (State.setBus_only hsbus h) h)

theorem State.wakeWrite_only {cs : Block → Bool} {s t : State} (hsums : cs .sums = true) (hsbus : cs .sbus = true) (h : OnlyIn cs s t) :
    OnlyIn cs s (State.wakeWrite t) := by
  unfold State.wakeWrite
  exact (OnlyIn.ite (State.busWakes_only hsums hsbus h) h)

theorem State.wrongWindow_only {cs : Block → Bool} {s t : State} {a1} (hsums : cs .sums = true) (hassume : cs .assume = true) (hsbus : cs .sbus =
      true) (h : OnlyIn cs s t) :
    OnlyIn cs s (State.wrongWindow t a1) := by
  unfold State.wrongWindow
  extract_lets +onlyGivenNames -merge -underBinder x0
  have hx0 : OnlyIn cs s x0 := (State.setCh_only hsbus h)
  (try clear_value x0)
  exact (State.setBusLoad_only hsums hassume (OnlyIn.setAssume hassume hx0))

theorem boxCtrl_eff {cs : Block → Bool} {a0 a1 a2} (hsums : cs .sums = true) (hassume : cs .assume = true) (hsbus : cs .sbus = true) :
    EffIn cs (boxCtrl a0 a1 a2) := by
  unfold boxCtrl
  exact (EffIn.ite (EffIn.mk (fun z1 _ k0 => k0)) (EffIn.ite (EffIn.mk (fun z3 _ k2 => (State.sendBox_only hsums hsbus k2))) (EffIn.ite (EffIn.mk (fun
        z5 _ k4 => (State.cancelBox_only hsums hassume hsbus k4))) roWord_eff)))

theorem boxWrite_eff {cs : Block → Bool} {a0 a1 a2 a3} (hsums : cs .sums = true) (hassume : cs .assume = true) (hsbus : cs .sbus = true) :
    EffsIn cs (boxWrite a0 a1 a2 a3) := by
  unfold boxWrite
  exact
        (by split; (next => exact (EffsIn.some (EffIn.mk (fun z1 _ k0 => (State.setBox_only hsbus k0))))); (next => exact (EffsIn.some (boxCtrl_eff hsums hassume hsbus))); (next => exact (EffsIn.some roWord_eff)); (next => exact (EffsIn.ite (EffsIn.some (EffIn.mk (fun z3 _ k2 => (State.setBox_only hsbus k2)))) EffsIn.none)))

theorem btrWrite_eff {cs : Block → Bool} {a0 a1 a2 a3} (hsbus : cs .sbus = true) :
    EffIn cs (btrWrite a0 a1 a2 a3) := by
  unfold btrWrite
  exact (EffIn.mk (fun z1 _ k0 => (State.setCh_only hsbus k0)))

theorem doArbitratingWindow_only {cs : Block → Bool} {s t : State} {a0 a1 a2} (hmt : cs .mt = true) (hsums : cs .sums = true) (hassume : cs .assume =
      true) (hsbus : cs .sbus = true) (h : OnlyIn cs s t) :
    OnlyIn cs s (doArbitratingWindow a0 a1 a2 t) := by
  unfold doArbitratingWindow
  exact (whenLive_only hmt (fun _ k0 =>
        (by extract_lets +onlyGivenNames -merge -underBinder x1; have hx1 : OnlyIn cs s x1 := (State.judgeBusLoad_only hsums hassume k0); (try clear_value x1); exact (by extract_lets +onlyGivenNames -merge -underBinder x2; (try clear_value x2); exact (by split; (next => exact hx1); (next => exact (by extract_lets +onlyGivenNames -merge -underBinder x3; have hx3 : OnlyIn cs s x3 := (State.enterOccurrence_only hsums hassume hsbus hx1); (try clear_value x3); exact (by extract_lets +onlyGivenNames -merge -underBinder x4; (try clear_value x4); exact (OnlyIn.ite (by split; (next => exact (OnlyIn.ite (State.startAttempt_only hsums hsbus hx3) hx3)); (next => exact hx3)) hx3))))))))
        h)

theorem doBusOffRecovery_only {cs : Block → Bool} {s t : State} {a0 a1} (hmt : cs .mt = true) (hsums : cs .sums = true) (hcapture : cs .capture =
      true) (hsbus : cs .sbus = true) (hqueues : cs .queues = true) (h : OnlyIn cs s t) :
    OnlyIn cs s (doBusOffRecovery a0 a1 t) := by
  unfold doBusOffRecovery
  exact (whenLive_only hmt (fun _ k0 => (OnlyIn.ite (State.setErr_only hsums hcapture hsbus hqueues k0) k0)) h)

theorem sleepEffect_eff {cs : Block → Bool} {a0} (hsums : cs .sums = true) (hsbus : cs .sbus = true) :
    EffIn cs (sleepEffect a0) := by
  unfold sleepEffect
  exact (EffIn.mk (fun z1 _ k0 => (OnlyIn.ite (State.startSleep_only hsums hsbus (State.setBus_only hsbus k0)) (State.setBus_only hsbus k0))))

theorem doBusSleep_only {cs : Block → Bool} {s t : State} {a0 a1} (hmt : cs .mt = true) (hsums : cs .sums = true) (hanswer : cs .answer = true) (hviol
      : cs .viol = true) (hcapture : cs .capture = true) (hsbus : cs .sbus = true) (hqueues : cs .queues = true) (h : OnlyIn cs s t) :
    OnlyIn cs s (doBusSleep a0 a1 t) := by
  unfold doBusSleep
  exact (whenLive_only hmt (fun _ k0 => (State.command_only hsums hanswer hviol hcapture hqueues (fun _ k1 => ((sleepEffect_eff hsums hsbus) _ _ k1))
        k0)) h)

theorem doBusWakeWrite_only {cs : Block → Bool} {s t : State} {a0 a1} (hmt : cs .mt = true) (hsums : cs .sums = true) (hanswer : cs .answer = true)
      (hviol : cs .viol = true) (hcapture : cs .capture = true) (hsbus : cs .sbus = true) (hqueues : cs .queues = true) (h : OnlyIn cs s t) :
    OnlyIn cs s (doBusWakeWrite a0 a1 t) := by
  unfold doBusWakeWrite
  exact (whenLive_only hmt (fun _ k0 => (State.command_only hsums hanswer hviol hcapture hqueues (fun _ k1 => (State.wakeWrite_only hsums hsbus k1))
        k0)) h)

theorem doCanFrameReceived_only {cs : Block → Bool} {s t : State} {a0 a1 a2} (hmt : cs .mt = true) (hdraws : cs .draws = true) (hsums : cs .sums =
      true) (hassume : cs .assume = true) (hcapture : cs .capture = true) (hsbus : cs .sbus = true) (hqueues : cs .queues = true) (h : OnlyIn cs s t)
      :
    OnlyIn cs s (doCanFrameReceived a0 a1 a2 t) := by
  unfold doCanFrameReceived
  exact (whenScanning_only hmt (fun _ k0 =>
        (by extract_lets +onlyGivenNames -merge -underBinder x1; have hx1 : OnlyIn cs s x1 := (State.wakeGood_only hsbus k0); (try clear_value x1); exact (OnlyIn.ite hx1 (by extract_lets +onlyGivenNames -merge -underBinder x2; have hx2 : OnlyIn cs s x2 := (State.goodReceive_only hdraws hsums hcapture hsbus hqueues hx1); (try clear_value x2); exact (OnlyIn.ite hx2 (by split; (next => exact (by extract_lets +onlyGivenNames -merge -underBinder x3; (try clear_value x3); exact (by extract_lets +onlyGivenNames -merge -underBinder x4; (try clear_value x4); exact (by extract_lets +onlyGivenNames -merge -underBinder x5; have hx5 : OnlyIn cs s x5 := (State.storeFifo_only hsums hsbus hx2); (try clear_value x5); exact (OnlyIn.ite (OnlyIn.ite (State.storeSlots_only hsums hsbus hx5) (State.wrongWindow_only hsums hassume hsbus hx5)) (OnlyIn.ite (State.wrongWindow_only hsums hassume hsbus hx5) hx5)))))); (next => exact (by extract_lets +onlyGivenNames -merge -underBinder x6; have hx6 : OnlyIn cs s x6.2 := (State.drawNat_only hdraws hx2); (try clear_value x6); exact (by extract_lets +onlyGivenNames -merge -underBinder x7; (try clear_value x7); exact (by extract_lets +onlyGivenNames -merge -underBinder x8; have hx8 : OnlyIn cs s x8 := (State.storeFifo_only hsums hsbus hx6); (try clear_value x8); exact (OnlyIn.ite (State.wrongWindow_only hsums hassume hsbus hx8) hx8)))))))))))
        h)

theorem doCanRxError_only {cs : Block → Bool} {s t : State} {a0 a1 a2} (hmt : cs .mt = true) (hsums : cs .sums = true) (hcapture : cs .capture = true)
      (hsbus : cs .sbus = true) (hqueues : cs .queues = true) (h : OnlyIn cs s t) :
    OnlyIn cs s (doCanRxError a0 a1 a2 t) := by
  unfold doCanRxError
  exact (whenScanning_only hmt (fun _ k0 =>
        (by extract_lets +onlyGivenNames -merge -underBinder x1; (try clear_value x1); exact (by extract_lets +onlyGivenNames -merge -underBinder x2; have hx2 : OnlyIn cs s x2 := (State.wakeBad_only hsbus k0); (try clear_value x2); exact (OnlyIn.ite hx2 (OnlyIn.ite hx2 (State.setErr_only hsums hcapture hsbus hqueues hx2))))))
        h)

theorem doCanTxComplete_only {cs : Block → Bool} {s t : State} {a0 a1} (hmt : cs .mt = true) (hsums : cs .sums = true) (hassume : cs .assume = true)
      (hcapture : cs .capture = true) (hsbus : cs .sbus = true) (hqueues : cs .queues = true) (h : OnlyIn cs s t) :
    OnlyIn cs s (doCanTxComplete a0 a1 t) := by
  unfold doCanTxComplete
  exact (whenLive_only hmt (fun _ k0 =>
        (by extract_lets +onlyGivenNames -merge -underBinder x1; (try clear_value x1); exact (by extract_lets +onlyGivenNames -merge -underBinder x2; have hx2 : OnlyIn cs s x2 := (State.setErr_only hsums hcapture hsbus hqueues (State.setCh_only hsbus k0)); (try clear_value x2); exact (by split; (next => exact k0); (next => exact (State.sleepWhenAnnounced_only hsums hsbus hx2)); (next => exact (State.tatResult_only hsums hsbus hx2)); (next => exact (by split; (next => exact (by extract_lets +onlyGivenNames -merge -underBinder x3; have hx3 : OnlyIn cs s x3 := (State.popQueue_only hsums hassume hsbus hx2); (try clear_value x3); exact (OnlyIn.ite (by split; (next => exact (State.boxResult_only hsums hsbus hx3)); (next => exact hx3)) hx3))); (next => exact hx2)))))))
        h)

theorem doCanTxError_only {cs : Block → Bool} {s t : State} {a0 a1 a2} (hmt : cs .mt = true) (hsums : cs .sums = true) (hassume : cs .assume = true)
      (hcapture : cs .capture = true) (hsbus : cs .sbus = true) (hqueues : cs .queues = true) (h : OnlyIn cs s t) :
    OnlyIn cs s (doCanTxError a0 a1 a2 t) := by
  unfold doCanTxError
  exact (whenLive_only hmt (fun _ k0 =>
        (by extract_lets +onlyGivenNames -merge -underBinder x1; (try clear_value x1); exact (OnlyIn.ite (OnlyIn.ite k0 (State.setErr_only hsums hcapture hsbus hqueues k0)) (by extract_lets +onlyGivenNames -merge -underBinder x2; have hx2 : OnlyIn cs s x2 := (State.setCh_only hsbus k0); (try clear_value x2); exact (by extract_lets +onlyGivenNames -merge -underBinder x3; have hx3 : OnlyIn cs s x3 := (State.setErr_only hsums hcapture hsbus hqueues hx2); (try clear_value x3); exact (by split; (next => exact k0); (next => exact (State.sleepWhenAnnounced_only hsums hsbus hx3)); (next => exact (by extract_lets +onlyGivenNames -merge -underBinder x4; (try clear_value x4); exact (State.tatResult_only hsums hsbus (State.setCh_only hsbus hx3)))); (next => exact (by extract_lets +onlyGivenNames -merge -underBinder x5; (try clear_value x5); exact (State.headFailed_only hsums hassume hsbus (State.setCh_only hsbus hx3))))))))))
        h)

theorem doFifoPop_only {cs : Block → Bool} {s t : State} {a0 a1 a2} (hmt : cs .mt = true) (hsums : cs .sums = true) (hanswer : cs .answer = true)
      (hviol : cs .viol = true) (hcapture : cs .capture = true) (hsbus : cs .sbus = true) (hqueues : cs .queues = true) (h : OnlyIn cs s t) :
    OnlyIn cs s (doFifoPop a0 a1 a2 t) := by
  unfold doFifoPop
  exact (whenLive_only hmt (fun _ k0 => (State.command_only hsums hanswer hviol hcapture hqueues (fun _ k1 => (State.popFifo_only hsbus k1)) k0)) h)

theorem doMailboxCancel_only {cs : Block → Bool} {s t : State} {a0 a1 a2} (hmt : cs .mt = true) (hsums : cs .sums = true) (hanswer : cs .answer =
      true) (hviol : cs .viol = true) (hassume : cs .assume = true) (hcapture : cs .capture = true) (hsbus : cs .sbus = true) (hqueues : cs .queues =
      true) (h : OnlyIn cs s t) :
    OnlyIn cs s (doMailboxCancel a0 a1 a2 t) := by
  unfold doMailboxCancel
  exact (whenLive_only hmt (fun _ k0 => (State.command_only hsums hanswer hviol hcapture hqueues (fun _ k1 => (State.cancelBox_only hsums hassume
        hsbus k1)) k0)) h)

theorem doMailboxSend_only {cs : Block → Bool} {s t : State} {a0 a1 a2 a3} (hmt : cs .mt = true) (hsums : cs .sums = true) (hanswer : cs .answer =
      true) (hviol : cs .viol = true) (hassume : cs .assume = true) (hcapture : cs .capture = true) (hsbus : cs .sbus = true) (hqueues : cs .queues =
      true) (h : OnlyIn cs s t) :
    OnlyIn cs s (doMailboxSend a0 a1 a2 a3 t) := by
  unfold doMailboxSend
  exact (whenLive_only hmt (fun _ k0 =>
        (by extract_lets +onlyGivenNames -merge -underBinder x1; have hx1 : EffIn cs x1 := (by unfold x1; exact (boxCtrl_eff hsums hassume hsbus)); (try clear_value x1); exact (State.command_only hsums hanswer hviol hcapture hqueues (fun _ k2 => (hx1 _ _ k2)) k0)))
        h)

theorem doReferenceMissing_only {cs : Block → Bool} {s t : State} {a0 a1} (hmt : cs .mt = true) (hsums : cs .sums = true) (hassume : cs .assume =
      true) (hcapture : cs .capture = true) (hsbus : cs .sbus = true) (hqueues : cs .queues = true) (h : OnlyIn cs s t) :
    OnlyIn cs s (doReferenceMissing a0 a1 t) := by
  unfold doReferenceMissing
  exact (whenLive_only hmt (fun _ k0 => (OnlyIn.ite
        (by extract_lets +onlyGivenNames -merge -underBinder x1; have hx1 : OnlyIn cs s x1 := (State.setCh_only hsbus k0); (try clear_value x1); exact (OnlyIn.ite (by extract_lets +onlyGivenNames -merge -underBinder x2; have hx2 : OnlyIn cs s x2 := (State.setCh_only hsbus hx1); (try clear_value x2); exact (State.setBusLoad_only hsums hassume (State.log_only hsums hcapture hqueues hx2))) hx1))
        k0)) h)

theorem doReferenceReceived_only {cs : Block → Bool} {s t : State} {a0 a1 a2} (hmt : cs .mt = true) (hsums : cs .sums = true) (hassume : cs .assume =
      true) (hsbus : cs .sbus = true) (h : OnlyIn cs s t) :
    OnlyIn cs s (doReferenceReceived a0 a1 a2 t) := by
  unfold doReferenceReceived
  exact (whenLive_only hmt (fun _ k0 =>
        (by extract_lets +onlyGivenNames -merge -underBinder x1; (try clear_value x1); exact (OnlyIn.ite (by split; (next => exact (by extract_lets +onlyGivenNames -merge -underBinder x2; have hx2 : OnlyIn cs s x2 := (State.setCh_only hsbus k0); (try clear_value x2); exact (State.hearAnnounce_only hsums hsbus (State.gainSync_only hsums hassume hsbus hx2)))); (next => exact k0)) k0)))
        h)

theorem doReferenceSend_only {cs : Block → Bool} {s t : State} {a0 a1} (hmt : cs .mt = true) (hsums : cs .sums = true) (hassume : cs .assume = true)
      (hsbus : cs .sbus = true) (h : OnlyIn cs s t) :
    OnlyIn cs s (doReferenceSend a0 a1 t) := by
  unfold doReferenceSend
  exact (whenLive_only hmt (fun _ k0 =>
        (by extract_lets +onlyGivenNames -merge -underBinder x1; (try clear_value x1); exact (by split; (next => exact (OnlyIn.ite (by extract_lets +onlyGivenNames -merge -underBinder x2; (try clear_value x2); exact (by extract_lets +onlyGivenNames -merge -underBinder x3; (try clear_value x3); exact (by extract_lets +onlyGivenNames -merge -underBinder x4; (try clear_value x4); exact (by extract_lets +onlyGivenNames -merge -underBinder x5; (try clear_value x5); exact (by extract_lets +onlyGivenNames -merge -underBinder x6; (try clear_value x6); exact (by extract_lets +onlyGivenNames -merge -underBinder x7; have hx7 : OnlyIn cs s x7 := (State.setCh_only hsbus k0); (try clear_value x7); exact (State.gainSync_only hsums hassume hsbus hx7))))))) k0)); (next => exact k0))))
        h)

theorem doSbusClrCnt_only {cs : Block → Bool} {s t : State} {a0 a1} (hmt : cs .mt = true) (hsums : cs .sums = true) (hanswer : cs .answer = true)
      (hviol : cs .viol = true) (hcapture : cs .capture = true) (hsbus : cs .sbus = true) (hqueues : cs .queues = true) (h : OnlyIn cs s t) :
    OnlyIn cs s (doSbusClrCnt a0 a1 t) := by
  unfold doSbusClrCnt
  exact (whenLive_only hmt (fun _ k0 => (State.command_only hsums hanswer hviol hcapture hqueues (fun _ k1 => (State.sbusClear_only hsbus k1)) k0)) h)

theorem doSlotMiss_only {cs : Block → Bool} {s t : State} {a0 a1} (hmt : cs .mt = true) (hsbus : cs .sbus = true) (h : OnlyIn cs s t) :
    OnlyIn cs s (doSlotMiss a0 a1 t) := by
  unfold doSlotMiss
  exact (whenLive_only hmt (fun _ k0 =>
        (by extract_lets +onlyGivenNames -merge -underBinder x1; (try clear_value x1); exact (by split; (next => exact (by extract_lets +onlyGivenNames -merge -underBinder x2; (try clear_value x2); exact (OnlyIn.ite (State.setRx_only hsbus k0) k0))); (next => exact k0))))
        h)

theorem tatCtrl_eff {cs : Block → Bool} {a0 a1 a2} (hsums : cs .sums = true) (hsbus : cs .sbus = true) :
    EffIn cs (tatCtrl a0 a1 a2) := by
  unfold tatCtrl
  exact (EffIn.ite (EffIn.mk (fun z1 _ k0 => k0)) (EffIn.ite (EffIn.mk (fun z3 _ k2 => (State.armTat_only hsums hsbus (OnlyIn.ite (State.loadTat_only
        hsbus k2) k2)))) (EffIn.ite (EffIn.mk (fun z5 _ k4 => (State.cancelTat_only hsums hsbus k4))) (EffIn.ite (EffIn.mk (fun z7 _ k6 =>
        (State.loadTat_only hsbus k6))) roWord_eff))))

theorem tatCommand_only {cs : Block → Bool} {s t : State} {a0 a1 a2 a3 a4} (hmt : cs .mt = true) (hsums : cs .sums = true) (hanswer : cs .answer =
      true) (hviol : cs .viol = true) (hcapture : cs .capture = true) (hsbus : cs .sbus = true) (hqueues : cs .queues = true) (h : OnlyIn cs s t) :
    OnlyIn cs s (tatCommand a0 a1 a2 a3 a4 t) := by
  unfold tatCommand
  exact (whenLive_only hmt (fun _ k0 =>
        (by extract_lets +onlyGivenNames -merge -underBinder x1; have hx1 : EffIn cs x1 := (by unfold x1; exact (tatCtrl_eff hsums hsbus)); (try clear_value x1); exact (State.command_only hsums hanswer hviol hcapture hqueues (fun _ k2 => (hx1 _ _ k2)) k0)))
        h)

theorem doTatArm_only {cs : Block → Bool} {s t : State} {a0 a1 a2 a3} (hmt : cs .mt = true) (hsums : cs .sums = true) (hanswer : cs .answer = true)
      (hviol : cs .viol = true) (hcapture : cs .capture = true) (hsbus : cs .sbus = true) (hqueues : cs .queues = true) (h : OnlyIn cs s t) :
    OnlyIn cs s (doTatArm a0 a1 a2 a3 t) := by
  unfold doTatArm
  exact (tatCommand_only hmt hsums hanswer hviol hcapture hsbus hqueues h)

theorem doTatCancel_only {cs : Block → Bool} {s t : State} {a0 a1 a2} (hmt : cs .mt = true) (hsums : cs .sums = true) (hanswer : cs .answer = true)
      (hviol : cs .viol = true) (hcapture : cs .capture = true) (hsbus : cs .sbus = true) (hqueues : cs .queues = true) (h : OnlyIn cs s t) :
    OnlyIn cs s (doTatCancel a0 a1 a2 t) := by
  unfold doTatCancel
  exact (whenLive_only hmt (fun _ k0 => (State.command_only hsums hanswer hviol hcapture hqueues (fun _ k1 => (State.cancelTat_only hsums hsbus k1))
        k0)) h)

theorem doTatCommitPoint_only {cs : Block → Bool} {s t : State} {a0 a1 a2} (hmt : cs .mt = true) (hsums : cs .sums = true) (hsbus : cs .sbus = true)
      (h : OnlyIn cs s t) :
    OnlyIn cs s (doTatCommitPoint a0 a1 a2 t) := by
  unfold doTatCommitPoint
  exact (whenScanning_only hmt (fun _ k0 =>
        (by extract_lets +onlyGivenNames -merge -underBinder x1; (try clear_value x1); exact (by split <;> first | exact (OnlyIn.ite (by extract_lets +onlyGivenNames -merge -underBinder x2; have hx2 : OnlyIn cs s x2 := (by unfold x2; exact (OnlyIn.ite (State.setTat_only hsbus k0) k0)); (try clear_value x2); exact (by split; (next => exact (State.tatResult_only hsums hsbus hx2)); (next => exact (by extract_lets +onlyGivenNames -merge -underBinder x3; (try clear_value x3); exact (State.bump_only hsums (State.setCh_only hsbus (State.setTat_only hsbus hx2))))))) k0) | exact k0)))
        h)

theorem doTatLoad_only {cs : Block → Bool} {s t : State} {a0 a1 a2 a3} (hmt : cs .mt = true) (hsums : cs .sums = true) (hanswer : cs .answer = true)
      (hviol : cs .viol = true) (hcapture : cs .capture = true) (hsbus : cs .sbus = true) (hqueues : cs .queues = true) (h : OnlyIn cs s t) :
    OnlyIn cs s (doTatLoad a0 a1 a2 a3 t) := by
  unfold doTatLoad
  exact (tatCommand_only hmt hsums hanswer hviol hcapture hsbus hqueues h)

theorem rxfWrite_eff {cs : Block → Bool} {a0 a1 a2 a3} (hsbus : cs .sbus = true) :
    EffIn cs (rxfWrite a0 a1 a2 a3) := by
  unfold rxfWrite
  exact (EffIn.mk (fun z1 _ k0 => (State.setCh_only hsbus k0)))

theorem sbusCfg_eff {cs : Block → Bool} {a0 a1} (hsbus : cs .sbus = true) :
    EffIn cs (sbusCfg a0 a1) := by
  unfold sbusCfg
  extract_lets +onlyGivenNames -merge -underBinder x0
  (try clear_value x0)
  exact (EffIn.mk (fun z2 _ k1 => (State.setBus_only hsbus k1)))

theorem sbusCtrl_eff {cs : Block → Bool} {a0 a1} (hsums : cs .sums = true) (hsbus : cs .sbus = true) :
    EffIn cs (sbusCtrl a0 a1) := by
  unfold sbusCtrl
  exact (EffIn.ite (EffIn.mk (fun z1 _ k0 => k0))
        (by extract_lets +onlyGivenNames -merge -underBinder x2; have hx2 : EffIn cs x2 := (by unfold x2; exact (EffIn.ite (sleepEffect_eff hsums hsbus) (EffIn.mk (fun z4 _ k3 => (State.wakeWrite_only hsums hsbus k3))))); (try clear_value x2); exact (EffIn.mk (fun z6 _ k5 => (by extract_lets +onlyGivenNames -merge -underBinder x7; have hx7 : OnlyIn cs z6 x7 := (hx2 _ _ k5); (try clear_value x7); exact (by extract_lets +onlyGivenNames -merge -underBinder x8; have hx8 : OnlyIn cs z6 x8 := (by unfold x8; exact (OnlyIn.ite (State.popFifo_only hsbus hx7) (OnlyIn.ite (State.popFifo_only hsbus hx7) hx7))); (try clear_value x8); exact (OnlyIn.ite (State.sbusClear_only hsbus hx8) hx8)))))))

theorem sbusLowWrite_eff {cs : Block → Bool} {a0 a1 a2 a3} (hsums : cs .sums = true) (hsbus : cs .sbus = true) :
    EffsIn cs (sbusLowWrite a0 a1 a2 a3) := by
  unfold sbusLowWrite
  exact
        (by split; (next => exact (EffsIn.some (sbusCtrl_eff hsums hsbus))); (next => exact (EffsIn.some (sbusCfg_eff hsbus))); (next => exact (EffsIn.some (btrWrite_eff hsbus))); (next => exact (EffsIn.some (btrWrite_eff hsbus))); (next => exact (EffsIn.some (EffIn.mk (fun z1 _ k0 => (State.setBus_only hsbus k0))))); (next => exact (EffsIn.some (EffIn.mk (fun z3 _ k2 => (State.setBus_only hsbus k2))))); (next => exact (EffsIn.some (EffIn.mk (fun z5 _ k4 => (State.setBus_only hsbus k4))))); (next => exact (EffsIn.some (EffIn.mk (fun z7 _ k6 => (State.setBus_only hsbus k6))))); (next => exact (EffsIn.map fun _ => roWord_eff)))

theorem tatWrite_eff {cs : Block → Bool} {a0 a1 a2 a3 a4} (hsums : cs .sums = true) (hsbus : cs .sbus = true) :
    EffsIn cs (tatWrite a0 a1 a2 a3 a4) := by
  unfold tatWrite
  extract_lets +onlyGivenNames -merge -underBinder x0
  (try clear_value x0)
  exact
        (by split; (next => exact (by extract_lets +onlyGivenNames -merge -underBinder x1; (try clear_value x1); exact (EffsIn.some (EffIn.mk (fun z3 _ k2 => (State.setTat_only hsbus k2)))))); (next => exact (by extract_lets +onlyGivenNames -merge -underBinder x4; (try clear_value x4); exact (EffsIn.some (EffIn.mk (fun z6 _ k5 => (State.setTat_only hsbus k5)))))); (next => exact (EffsIn.some (EffIn.mk (fun z8 _ k7 => (State.setTat_only hsbus k7))))); (next => exact (EffsIn.some (EffIn.mk (fun z10 _ k9 => (State.setTat_only hsbus k9))))); (next => exact (EffsIn.some (tatCtrl_eff hsums hsbus))); (next => exact (EffsIn.some roWord_eff)); (next => exact (EffsIn.ite (EffsIn.some (EffIn.mk (fun z12 _ k11 => (State.setTat_only hsbus k11)))) EffsIn.none)))

theorem slotCfg_eff {cs : Block → Bool} {a0 a1} (hsbus : cs .sbus = true) :
    EffIn cs (slotCfg a0 a1) := by
  unfold slotCfg
  exact (EffIn.mk (fun z1 _ k0 => (State.setRx_only hsbus k0)))

theorem sbusWrite_eff {cs : Block → Bool} {a0 a1 a2 a3} (hsums : cs .sums = true) (hassume : cs .assume = true) (hsbus : cs .sbus = true) :
    EffsIn cs (sbusWrite a0 a1 a2 a3) := by
  unfold sbusWrite
  exact (EffsIn.ite EffsIn.none (EffsIn.ite (sbusLowWrite_eff hsums hsbus) (EffsIn.ite (EffsIn.map fun _ => (rxfWrite_eff hsbus)) (EffsIn.ite
        (EffsIn.map fun _ => roWord_eff) (EffsIn.ite (EffsIn.bind fun _ => (boxWrite_eff hsums hassume hsbus)) (EffsIn.ite (EffsIn.bind fun _ =>
        (tatWrite_eff hsums hsbus)) (EffsIn.bind fun _ => (EffsIn.ite (EffsIn.some (slotCfg_eff hsbus)) (EffsIn.map fun _ => roWord_eff)))))))))

theorem State.chargeLedger_only {cs : Block → Bool} {s t : State} {a1 a2} (hmram : cs .mram = true) (h : OnlyIn cs s t) :
    OnlyIn cs s (State.chargeLedger t a1 a2) := by
  unfold State.chargeLedger
  exact (OnlyIn.ite (OnlyIn.setMram hmram h) (OnlyIn.setMram hmram h))

theorem State.setPart_only {cs : Block → Bool} {s t : State} {a1 a2} (hqueues : cs .queues = true) (hldg : cs .ldg = true) (h : OnlyIn cs s t) :
    OnlyIn cs s (State.setPart t a1 a2) := by
  unfold State.setPart
  exact (State.setLdg_only ⟨.inl hqueues, .inl hldg⟩ h)

theorem State.clearPart_only {cs : Block → Bool} {s t : State} {a1 a2} (hsums : cs .sums = true) (hcapture : cs .capture = true) (hqueues : cs .queues
      = true) (hldg : cs .ldg = true) (h : OnlyIn cs s t) :
    OnlyIn cs s (State.clearPart t a1 a2) := by
  unfold State.clearPart
  extract_lets +onlyGivenNames -merge -underBinder x0
  (try clear_value x0)
  extract_lets +onlyGivenNames -merge -underBinder x1
  have hx1 : OnlyIn cs s x1 := (State.setPart_only hqueues hldg h)
  (try clear_value x1)
  extract_lets +onlyGivenNames -merge -underBinder x2
  have hx2 : OnlyIn cs s x2 := (State.bumpIf_only hsums (State.bump_only hsums hx1))
  (try clear_value x2)
  exact (OnlyIn.ite (State.log_only hsums hcapture hqueues hx2) hx2)

theorem State.writeHead_only {cs : Block → Bool} {s t : State} {a1} (hsums : cs .sums = true) (hqueues : cs .queues = true) (hldg : cs .ldg = true) (h
      : OnlyIn cs s t) :
    OnlyIn cs s (State.writeHead t a1) := by
  unfold State.writeHead
  extract_lets +onlyGivenNames -merge -underBinder x0
  (try clear_value x0)
  exact
        (by split; (next => exact h); (next => exact (by extract_lets +onlyGivenNames -merge -underBinder x1; have hx1 : OnlyIn cs s x1 := (State.bumpIf_only hsums (State.setPart_only hqueues hldg h)); (try clear_value x1); exact (State.bumpIf_only hsums hx1))))

theorem State.drainLedger_only {cs : Block → Bool} {s t : State} (hsums : cs .sums = true) (hqueues : cs .queues = true) (hldg : cs .ldg = true) (h :
      OnlyIn cs s t) :
    OnlyIn cs s (State.drainLedger t) := by
  unfold State.drainLedger
  exact (State.forAll_only (fun _ _ k0 => (OnlyIn.foldl (fun _ _ k1 => (State.writeHead_only hsums hqueues hldg k1)) k0)) h)

theorem State.ledgerAdopt_only {cs : Block → Bool} {s t : State} (hqueues : cs .queues = true) (hldg : cs .ldg = true) (h : OnlyIn cs s t) :
    OnlyIn cs s (State.ledgerAdopt t) := by
  unfold State.ledgerAdopt
  exact (State.forAll_only (fun _ _ k0 => (State.setPart_only hqueues hldg k0)) h)

theorem State.ledgerMark_only {cs : Block → Bool} {s t : State} {a1} (hsums : cs .sums = true) (hcapture : cs .capture = true) (hqueues : cs .queues =
      true) (h : OnlyIn cs s t) :
    OnlyIn cs s (State.ledgerMark t a1) := by
  unfold State.ledgerMark
  exact (State.log_only hsums hcapture hqueues h)

theorem doClrSaf_only {cs : Block → Bool} {s t : State} {a0 a1} (hmt : cs .mt = true) (hsums : cs .sums = true) (hanswer : cs .answer = true) (hviol :
      cs .viol = true) (hcapture : cs .capture = true) (hqueues : cs .queues = true) (hldg : cs .ldg = true) (h : OnlyIn cs s t) :
    OnlyIn cs s (doClrSaf a0 a1 t) := by
  unfold doClrSaf
  exact (whenLive_only hmt (fun _ k0 => (State.command_only hsums hanswer hviol hcapture hqueues (fun _ k1 => (State.clearPart_only hsums hcapture
        hqueues hldg k1)) k0)) h)

theorem doClrSys_only {cs : Block → Bool} {s t : State} {a0 a1} (hmt : cs .mt = true) (hsums : cs .sums = true) (hanswer : cs .answer = true) (hviol :
      cs .viol = true) (hcapture : cs .capture = true) (hqueues : cs .queues = true) (hldg : cs .ldg = true) (h : OnlyIn cs s t) :
    OnlyIn cs s (doClrSys a0 a1 t) := by
  unfold doClrSys
  exact (whenLive_only hmt (fun _ k0 => (State.command_only hsums hanswer hviol hcapture hqueues (fun _ k1 => (State.clearPart_only hsums hcapture
        hqueues hldg k1)) k0)) h)

theorem doLedgerRecordWrite_only {cs : Block → Bool} {s t : State} {a0 a1} (hmt : cs .mt = true) (hsums : cs .sums = true) (hqueues : cs .queues =
      true) (hldg : cs .ldg = true) (hmram : cs .mram = true) (h : OnlyIn cs s t) :
    OnlyIn cs s (doLedgerRecordWrite a0 a1 t) := by
  unfold doLedgerRecordWrite
  exact (whenLive_only hmt (fun _ k0 =>
        (by split; (next => exact k0); (next => exact (OnlyIn.ite k0 (State.writeHead_only hsums hqueues hldg (State.chargeLedger_only hmram k0))))))
        h)

theorem doMark_only {cs : Block → Bool} {s t : State} {a0 a1} (hmt : cs .mt = true) (hsums : cs .sums = true) (hanswer : cs .answer = true) (hviol :
      cs .viol = true) (hcapture : cs .capture = true) (hqueues : cs .queues = true) (h : OnlyIn cs s t) :
    OnlyIn cs s (doMark a0 a1 t) := by
  unfold doMark
  exact (whenLive_only hmt (fun _ k0 => (State.command_only hsums hanswer hviol hcapture hqueues (fun _ k1 => (State.ledgerMark_only hsums hcapture
        hqueues k1)) k0)) h)

theorem ldgCfg_eff {cs : Block → Bool} {a0 a1 a2} (hqueues : cs .queues = true) (hldg : cs .ldg = true) :
    EffIn cs (ldgCfg a0 a1 a2) := by
  unfold ldgCfg
  extract_lets +onlyGivenNames -merge -underBinder x0
  (try clear_value x0)
  extract_lets +onlyGivenNames -merge -underBinder x1
  (try clear_value x1)
  extract_lets +onlyGivenNames -merge -underBinder x2
  (try clear_value x2)
  extract_lets +onlyGivenNames -merge -underBinder x3
  (try clear_value x3)
  extract_lets +onlyGivenNames -merge -underBinder x4
  (try clear_value x4)
  extract_lets +onlyGivenNames -merge -underBinder x5
  (try clear_value x5)
  exact (EffIn.mk (fun z7 _ k6 => (State.setPart_only hqueues hldg (State.setPart_only hqueues hldg k6))))

theorem ldgCtrl_eff {cs : Block → Bool} {a0 a1 a2} (hsums : cs .sums = true) (hcapture : cs .capture = true) (hqueues : cs .queues = true) (hldg : cs
      .ldg = true) :
    EffIn cs (ldgCtrl a0 a1 a2) := by
  unfold ldgCtrl
  exact (EffIn.ite (EffIn.mk (fun z1 _ k0 => k0)) (EffIn.ite (EffIn.mk (fun z3 _ k2 => (State.clearPart_only hsums hcapture hqueues hldg k2)))
        (EffIn.ite (EffIn.mk (fun z5 _ k4 => (State.clearPart_only hsums hcapture hqueues hldg k4))) (EffIn.ite (EffIn.mk (fun z7 _ k6 =>
        (State.ledgerMark_only hsums hcapture hqueues k6))) roWord_eff))))

theorem ldgWrite_eff {cs : Block → Bool} {a0 a1 a2 a3 a4} (hsums : cs .sums = true) (hcapture : cs .capture = true) (hqueues : cs .queues = true)
      (hldg : cs .ldg = true) :
    EffsIn cs (ldgWrite a0 a1 a2 a3 a4) := by
  unfold ldgWrite
  exact (EffsIn.ite EffsIn.none
        (by split; (next => exact (EffsIn.some (ldgCtrl_eff hsums hcapture hqueues hldg))); (next => exact (EffsIn.some (ldgCfg_eff hqueues hldg))); (next => exact (EffsIn.some (EffIn.mk (fun z1 _ k0 => (State.setLdg_only ⟨.inr (by rfl), .inl hldg⟩ k0))))); (next => exact (EffsIn.some (EffIn.mk (fun z3 _ k2 => (State.setLdg_only ⟨.inr (by rfl), .inl hldg⟩ k2))))); (next => exact (EffsIn.some (EffIn.mk (fun z5 _ k4 => (State.setLdg_only ⟨.inr (by rfl), .inl hldg⟩ k4))))); (next => exact (EffsIn.ite (EffsIn.map fun _ => roWord_eff) (EffsIn.ite (EffsIn.map fun _ => (EffIn.mk (fun z7 _ k6 => (State.setLdg_only ⟨.inr (by rfl), .inl hldg⟩ k6)))) (EffsIn.ite (EffsIn.map fun _ => (EffIn.inRange (fun z9 _ k8 => (State.setLdg_only ⟨.inr (by rfl), .inl hldg⟩ k8)))) (EffsIn.bind fun _ => (EffsIn.map fun _ => (EffIn.inRange (fun z11 _ k10 => (State.setLdg_only ⟨.inr (by rfl), .inl hldg⟩ k10)))))))))))

end Sys2Proof.Machine
end

