-- ==== Sys2Proof/Laws/FrameVault.lean ====
section
/-! SUPPORT. What every operation of keys, update delivery, restarts and clocks may change. -/
namespace Sys2Proof.Machine

theorem State.setHost_only {cs : Block → Bool} {s t : State} {f} (hc : HostIn cs t.host (f t.host)) (h : OnlyIn cs s t) : OnlyIn cs s (t.setHost f) :=
  OnlyIn.setHost hc h

theorem State.setVault_only {cs : Block → Bool} {s t : State} {a1} (hvault : cs .vault = true) (h : OnlyIn cs s t) :
    OnlyIn cs s (State.setVault t a1) := by
  unfold State.setVault
  exact (OnlyIn.setVault hvault h)

theorem State.keyStart_only {cs : Block → Bool} {s t : State} {a1 a2} (hsums : cs .sums = true) (hvault : cs .vault = true) (h : OnlyIn cs s t) :
    OnlyIn cs s (State.keyStart t a1 a2) := by
  unfold State.keyStart
  exact (State.bump_only hsums (State.setVault_only hvault h))

theorem State.keyCommand_only {cs : Block → Bool} {s t : State} {a1 a2 a3} (hsums : cs .sums = true) (hanswer : cs .answer = true) (hviol : cs .viol =
      true) (hcapture : cs .capture = true) (hvault : cs .vault = true) (hqueues : cs .queues = true) (h : OnlyIn cs s t) :
    OnlyIn cs s (State.keyCommand t a1 a2 a3) := by
  unfold State.keyCommand
  exact (State.command_only hsums hanswer hviol hcapture hqueues (fun _ k0 => (State.keyStart_only hsums hvault k0)) h)

theorem State.keyDone_only {cs : Block → Bool} {s t : State} {a1} (hsums : cs .sums = true) (hmet : cs .met = true) (hvault : cs .vault = true) (h :
      OnlyIn cs s t) :
    OnlyIn cs s (State.keyDone t a1) := by
  unfold State.keyDone
  extract_lets +onlyGivenNames -merge -underBinder x0
  have hx0 : OnlyIn cs s x0 := (State.bump_only hsums (State.setVault_only hvault h))
  (try clear_value x0)
  exact (OnlyIn.ite (State.remaskRound_only hmet hvault hx0) hx0)

theorem State.unloadId_only {cs : Block → Bool} {s t : State} {a1} (hvault : cs .vault = true) (h : OnlyIn cs s t) :
    OnlyIn cs s (State.unloadId t a1) := by
  unfold State.unloadId
  exact (State.setVault_only hvault h)

theorem State.storeBlob_only {cs : Block → Bool} {s t u : State} {b} (hvault : cs .vault = true) (h : OnlyIn cs s t) (e : t.storeBlob b = .ok u) :
    OnlyIn cs s u := by
  unfold State.storeBlob at e
  split at e
  · cases e
  · cases e; exact State.setVault_only hvault (State.unloadId_only hvault h)


theorem State.wrapStore_only {cs : Block → Bool} {s t : State} {k q} (hdraws : cs .draws = true) (hvault : cs .vault = true) (h : OnlyIn cs s t)
    (e : t.wrapStore k = .ok q) : OnlyIn cs s q.2 := by
  unfold State.wrapStore at e
  dsimp only at e
  generalize hr : (t.drawBytes 12).2.storeBlob (blobOf (wrapBlob (t.drawBytes 12).2 k (t.drawBytes 12).1)) = r at e
  cases r with
  | error x => cases e
  | ok u => cases e; exact State.storeBlob_only hvault (State.drawBytes_only hdraws h) hr


theorem State.opGenerate_only {cs : Block → Bool} {s t : State} {a1} (hdraws : cs .draws = true) (hsums : cs .sums = true) (hmet : cs .met = true)
      (hvault : cs .vault = true) (h : OnlyIn cs s t) :
    OnlyIn cs s (State.opGenerate t a1) := by
  unfold State.opGenerate
  exact (OnlyIn.ite (State.keyDone_only hsums hmet hvault h)
        (by extract_lets +onlyGivenNames -merge -underBinder x0; have hx0 : OnlyIn cs s x0.2 := (State.drawBytes_only hdraws h); (try clear_value x0); exact (by extract_lets +onlyGivenNames -merge -underBinder x1; (try clear_value x1); exact (by split; (next e2 => exact (State.keyDone_only hsums hmet hvault (State.setVault_only hvault (State.wrapStore_only hdraws hvault hx0 e2)))); (next => exact (State.keyDone_only hsums hmet hvault h))))))

theorem State.placeKey_only {cs : Block → Bool} {s t u : State} {k} (hvault : cs .vault = true) (h : OnlyIn cs s t) (e : t.placeKey k = some u) :
    OnlyIn cs s u := by
  unfold State.placeKey at e
  split at e
  · cases e; exact State.putKey_only hvault h
  · exact State.loadKey_only hvault h e


theorem State.opLoad_only {cs : Block → Bool} {s t : State} {a1} (hsums : cs .sums = true) (hmet : cs .met = true) (hvault : cs .vault = true) (h :
      OnlyIn cs s t) :
    OnlyIn cs s (State.opLoad t a1) := by
  unfold State.opLoad
  exact
        (by split; (next => exact (State.keyDone_only hsums hmet hvault h)); (next => exact (OnlyIn.ite (State.keyDone_only hsums hmet hvault h) (by split; (next e0 => exact (State.keyDone_only hsums hmet hvault (State.placeKey_only hvault h e0))); (next => exact (State.keyDone_only hsums hmet hvault h))))))

theorem State.opUnload_only {cs : Block → Bool} {s t : State} {a1} (hsums : cs .sums = true) (hmet : cs .met = true) (hvault : cs .vault = true) (h :
      OnlyIn cs s t) :
    OnlyIn cs s (State.opUnload t a1) := by
  unfold State.opUnload
  exact
        (by split; (next => exact (State.keyDone_only hsums hmet hvault (State.setVault_only hvault h))); (next => exact (State.keyDone_only hsums hmet hvault h)))

theorem State.opStore_only {cs : Block → Bool} {s t : State} {a1} (hsums : cs .sums = true) (hmet : cs .met = true) (hvault : cs .vault = true) (h :
      OnlyIn cs s t) :
    OnlyIn cs s (State.opStore t a1) := by
  unfold State.opStore
  exact
        (by split; (next => exact (State.keyDone_only hsums hmet hvault h)); (next => exact (OnlyIn.ite (State.keyDone_only hsums hmet hvault h) (by split; (next e0 => exact (State.keyDone_only hsums hmet hvault (State.storeBlob_only hvault h e0))); (next => exact (State.keyDone_only hsums hmet hvault h))))))

theorem State.opDelete_only {cs : Block → Bool} {s t : State} {a1} (hsums : cs .sums = true) (hmet : cs .met = true) (hvault : cs .vault = true) (h :
      OnlyIn cs s t) :
    OnlyIn cs s (State.opDelete t a1) := by
  unfold State.opDelete
  exact (OnlyIn.ite (State.keyDone_only hsums hmet hvault (State.setVault_only hvault (State.unloadId_only hvault h))) (State.keyDone_only hsums hmet
        hvault h))

theorem State.opAttest_only {cs : Block → Bool} {s t : State} {a1} (hsums : cs .sums = true) (hmet : cs .met = true) (hvault : cs .vault = true) (h :
      OnlyIn cs s t) :
    OnlyIn cs s (State.opAttest t a1) := by
  unfold State.opAttest
  extract_lets +onlyGivenNames -merge -underBinder x0
  (try clear_value x0)
  extract_lets +onlyGivenNames -merge -underBinder x1
  (try clear_value x1)
  exact (State.keyDone_only hsums hmet hvault (State.setVault_only hvault h))

theorem State.keyOpEnd_only {cs : Block → Bool} {s t : State} {a1} (hdraws : cs .draws = true) (hsums : cs .sums = true) (hmet : cs .met = true)
      (hvault : cs .vault = true) (h : OnlyIn cs s t) :
    OnlyIn cs s (State.keyOpEnd t a1) := by
  unfold State.keyOpEnd
  exact
        (by split; (next => exact (State.opGenerate_only hdraws hsums hmet hvault h)); (next => exact (State.opLoad_only hsums hmet hvault h)); (next => exact (State.opUnload_only hsums hmet hvault h)); (next => exact (State.opStore_only hsums hmet hvault h)); (next => exact (State.opDelete_only hsums hmet hvault h)); (next => exact (State.opAttest_only hsums hmet hvault h)); (next => exact (State.keyDone_only hsums hmet hvault h)))

theorem State.lcGo_only {cs : Block → Bool} {s t : State} {a1} (hsums : cs .sums = true) (hcapture : cs .capture = true) (hvault : cs .vault = true)
      (hqueues : cs .queues = true) (h : OnlyIn cs s t) :
    OnlyIn cs s (State.lcGo t a1) := by
  unfold State.lcGo
  exact (State.log_only hsums hcapture hqueues (State.setVault_only hvault h))

theorem State.lcWrite_only {cs : Block → Bool} {s t : State} {a1 a2} (hsums : cs .sums = true) (hcapture : cs .capture = true) (hvault : cs .vault =
      true) (hqueues : cs .queues = true) (h : OnlyIn cs s t) :
    OnlyIn cs s (State.lcWrite t a1 a2).1 := by
  unfold State.lcWrite
  exact
        (by split; (next => exact (OnlyIn.pairFst (State.lcGo_only hsums hcapture hvault hqueues h))); (next => exact (OnlyIn.pairFst (OnlyIn.ite (State.keyError_only hsums hvault h) h))))

theorem State.loadBoot_only {cs : Block → Bool} {s t : State} (hvault : cs .vault = true) (h : OnlyIn cs s t) :
    OnlyIn cs s (State.loadBoot t) := by
  unfold State.loadBoot
  exact (OnlyIn.foldl (fun _ _ k0 =>
        (by split; (next => exact (by split; (next e1 => exact (State.placeKey_only hvault k0 e1)); (next => exact k0))); (next => exact k0))) h)

theorem State.zeroise_only {cs : Block → Bool} {s t : State} (hdraws : cs .draws = true) (hsums : cs .sums = true) (hmet : cs .met = true) (hvault :
      cs .vault = true) (h : OnlyIn cs s t) :
    OnlyIn cs s (State.zeroise t) := by
  unfold State.zeroise
  extract_lets +onlyGivenNames -merge -underBinder x0
  have hx0 : OnlyIn cs s x0.2 := (State.drawBytes_only hdraws h)
  (try clear_value x0)
  extract_lets +onlyGivenNames -merge -underBinder x1
  have hx1 : OnlyIn cs s x1 := (State.setVault_only hvault hx0)
  (try clear_value x1)
  exact (State.bump_only hsums (OnlyIn.setMet hmet hx1))

theorem doAttest_only {cs : Block → Bool} {s t : State} {a0 a1} (hmt : cs .mt = true) (hsums : cs .sums = true) (hanswer : cs .answer = true) (hviol :
      cs .viol = true) (hcapture : cs .capture = true) (hvault : cs .vault = true) (hqueues : cs .queues = true) (h : OnlyIn cs s t) :
    OnlyIn cs s (doAttest a0 a1 t) := by
  unfold doAttest
  exact (whenLive_only hmt (fun _ k0 => (State.keyCommand_only hsums hanswer hviol hcapture hvault hqueues k0)) h)

theorem doDelete_only {cs : Block → Bool} {s t : State} {a0 a1} (hmt : cs .mt = true) (hsums : cs .sums = true) (hanswer : cs .answer = true) (hviol :
      cs .viol = true) (hcapture : cs .capture = true) (hvault : cs .vault = true) (hqueues : cs .queues = true) (h : OnlyIn cs s t) :
    OnlyIn cs s (doDelete a0 a1 t) := by
  unfold doDelete
  exact (whenLive_only hmt (fun _ k0 => (State.keyCommand_only hsums hanswer hviol hcapture hvault hqueues k0)) h)

theorem doGenerate_only {cs : Block → Bool} {s t : State} {a0 a1} (hmt : cs .mt = true) (hsums : cs .sums = true) (hanswer : cs .answer = true) (hviol
      : cs .viol = true) (hcapture : cs .capture = true) (hvault : cs .vault = true) (hqueues : cs .queues = true) (h : OnlyIn cs s t) :
    OnlyIn cs s (doGenerate a0 a1 t) := by
  unfold doGenerate
  exact (whenLive_only hmt (fun _ k0 => (State.keyCommand_only hsums hanswer hviol hcapture hvault hqueues k0)) h)

theorem doKeyOpComplete_only {cs : Block → Bool} {s t : State} {a0} (hmt : cs .mt = true) (hdraws : cs .draws = true) (hsums : cs .sums = true) (hmet
      : cs .met = true) (hvault : cs .vault = true) (h : OnlyIn cs s t) :
    OnlyIn cs s (doKeyOpComplete a0 t) := by
  unfold doKeyOpComplete
  exact (whenLive_only hmt (fun _ k0 => (by split; (next => exact (State.keyOpEnd_only hdraws hsums hmet hvault k0)); (next => exact k0))) h)

theorem doLcAdvance_only {cs : Block → Bool} {s t : State} {a0 a1 a2} (hmt : cs .mt = true) (hsums : cs .sums = true) (hanswer : cs .answer = true)
      (hviol : cs .viol = true) (hcapture : cs .capture = true) (hvault : cs .vault = true) (hqueues : cs .queues = true) (h : OnlyIn cs s t) :
    OnlyIn cs s (doLcAdvance a0 a1 a2 t) := by
  unfold doLcAdvance
  exact (whenLive_only hmt (fun _ k0 =>
        (by split; (next => exact (State.answered_only hsums hanswer hviol hcapture hqueues k0)); (next => exact (by extract_lets +onlyGivenNames -merge -underBinder x1; have hx1 : OnlyIn cs s x1.1 := (State.lcWrite_only hsums hcapture hvault hqueues k0); (try clear_value x1); exact (State.answered_only hsums hanswer hviol hcapture hqueues hx1)))))
        h)

theorem doLoad_only {cs : Block → Bool} {s t : State} {a0 a1} (hmt : cs .mt = true) (hsums : cs .sums = true) (hanswer : cs .answer = true) (hviol :
      cs .viol = true) (hcapture : cs .capture = true) (hvault : cs .vault = true) (hqueues : cs .queues = true) (h : OnlyIn cs s t) :
    OnlyIn cs s (doLoad a0 a1 t) := by
  unfold doLoad
  exact (whenLive_only hmt (fun _ k0 => (State.keyCommand_only hsums hanswer hviol hcapture hvault hqueues k0)) h)

theorem doRemask_only {cs : Block → Bool} {s t : State} {a0} (hmt : cs .mt = true) (hmet : cs .met = true) (hvault : cs .vault = true) (h : OnlyIn cs
      s t) :
    OnlyIn cs s (doRemask a0 t) := by
  unfold doRemask
  exact (whenLive_only hmt (fun _ k0 => (OnlyIn.ite
        (by extract_lets +onlyGivenNames -merge -underBinder x1; have hx1 : OnlyIn cs s x1 := (State.setVault_only hvault k0); (try clear_value x1); exact (OnlyIn.ite (State.setVault_only hvault hx1) (State.remaskRound_only hmet hvault hx1)))
        k0)) h)

theorem doStore_only {cs : Block → Bool} {s t : State} {a0 a1} (hmt : cs .mt = true) (hsums : cs .sums = true) (hanswer : cs .answer = true) (hviol :
      cs .viol = true) (hcapture : cs .capture = true) (hvault : cs .vault = true) (hqueues : cs .queues = true) (h : OnlyIn cs s t) :
    OnlyIn cs s (doStore a0 a1 t) := by
  unfold doStore
  exact (whenLive_only hmt (fun _ k0 => (State.keyCommand_only hsums hanswer hviol hcapture hvault hqueues k0)) h)

theorem doUnload_only {cs : Block → Bool} {s t : State} {a0 a1 a2} (hmt : cs .mt = true) (hsums : cs .sums = true) (hanswer : cs .answer = true)
      (hviol : cs .viol = true) (hcapture : cs .capture = true) (hvault : cs .vault = true) (hqueues : cs .queues = true) (h : OnlyIn cs s t) :
    OnlyIn cs s (doUnload a0 a1 a2 t) := by
  unfold doUnload
  exact (whenLive_only hmt (fun _ k0 => (State.keyCommand_only hsums hanswer hviol hcapture hvault hqueues k0)) h)

theorem keyWindowWrite_eff {cs : Block → Bool} {a0 a1} (hvault : cs .vault = true) :
    EffsIn cs (keyWindowWrite a0 a1) := by
  unfold keyWindowWrite
  exact (EffsIn.ite EffsIn.none (EffsIn.ite (EffsIn.some (EffIn.mk (fun z1 _ k0 => (State.setVault_only hvault k0)))) (EffsIn.ite (EffsIn.some
        roWord_eff) EffsIn.none)))

theorem keyWrite_eff {cs : Block → Bool} {a0 a1 a2} (hsums : cs .sums = true) (hvault : cs .vault = true) :
    EffsIn cs (keyWrite a0 a1 a2) := by
  unfold keyWrite
  exact
        (by split; (next => exact (by extract_lets +onlyGivenNames -merge -underBinder x0; (try clear_value x0); exact (by extract_lets +onlyGivenNames -merge -underBinder x1; (try clear_value x1); exact (EffsIn.ite (EffsIn.some (EffIn.mk (fun z3 _ k2 => k2))) (EffsIn.ite (EffsIn.some (EffIn.mk (fun z5 _ k4 => (State.setVault_only hvault k4)))) (EffsIn.some (EffIn.mk (fun z7 _ k6 => (State.keyStart_only hsums hvault k6))))))))); (next => exact (EffsIn.some (EffIn.mk (fun z9 _ k8 => (State.setVault_only hvault k8))))); (next => exact (EffsIn.some (EffIn.mk (fun z11 _ k10 => (State.setVault_only hvault k10))))); (next => exact (EffsIn.some (EffIn.mk (fun z13 _ k12 => (State.setVault_only hvault k12))))); (next => exact (EffsIn.map fun _ => roWord_eff)))

theorem State.updChange_only {cs : Block → Bool} {s t : State} {a1 : Sys2Proof.Machine.State → Sys2Proof.Machine.State} (hsums : cs .sums = true) (k1_
      : ∀  w, OnlyIn cs s w → OnlyIn cs s (a1  w)) (h : OnlyIn cs s t) :
    OnlyIn cs s (State.updChange t a1) := by
  unfold State.updChange
  extract_lets +onlyGivenNames -merge -underBinder x0
  have hx0 : OnlyIn cs s x0 := (k1_ _ h)
  (try clear_value x0)
  exact (State.bumpIf_only hsums hx0)

theorem State.setUpd_only {cs : Block → Bool} {s t : State} {a1} (hupd : cs .upd = true) (h : OnlyIn cs s t) :
    OnlyIn cs s (State.setUpd t a1) := by
  unfold State.setUpd
  exact (OnlyIn.setUpd hupd h)

theorem State.setArea_only {cs : Block → Bool} {s t : State} {a1 a2} (hupd : cs .upd = true) (h : OnlyIn cs s t) :
    OnlyIn cs s (State.setArea t a1 a2) := by
  unfold State.setArea
  exact (State.setUpd_only hupd h)

theorem State.abortArea_only {cs : Block → Bool} {s t : State} (hsums : cs .sums = true) (hupd : cs .upd = true) (h : OnlyIn cs s t) :
    OnlyIn cs s (State.abortArea t) := by
  unfold State.abortArea
  exact (State.updChange_only hsums (fun _ k0 => (OnlyIn.ite (State.setArea_only hupd k0) (State.setUpd_only hupd (State.setArea_only hupd k0)))) h)

theorem State.setAct_only {cs : Block → Bool} {s t : State} {a1} (hsums : cs .sums = true) (hupd : cs .upd = true) (h : OnlyIn cs s t) :
    OnlyIn cs s (State.setAct t a1) := by
  unfold State.setAct
  exact (State.updChange_only hsums (fun _ k0 => (State.setUpd_only hupd k0)) h)

theorem State.actWrite_only {cs : Block → Bool} {s t : State} {a1 a2} (hsums : cs .sums = true) (hupd : cs .upd = true) (h : OnlyIn cs s t) :
    OnlyIn cs s (State.actWrite t a1 a2).1 := by
  unfold State.actWrite
  exact
        (by split; (next => exact (OnlyIn.pairFst (OnlyIn.ite h (State.updChange_only hsums (fun _ k0 => (State.setUpd_only hupd k0)) h)))); (next => exact (OnlyIn.pairFst (State.setAct_only hsums hupd h))))

theorem State.activationEnds_only {cs : Block → Bool} {s t : State} {a1 a2 a3 a4} (hsums : cs .sums = true) (hcapture : cs .capture = true) (hupd : cs
      .upd = true) (hqueues : cs .queues = true) (h : OnlyIn cs s t) :
    OnlyIn cs s (State.activationEnds t a1 a2 a3 a4) := by
  unfold State.activationEnds
  extract_lets +onlyGivenNames -merge -underBinder x0
  have hx0 : OnlyIn cs s x0 := (State.updChange_only hsums (fun _ k1 => (State.setUpd_only hupd k1)) h)
  (try clear_value x0)
  exact (State.log_only hsums hcapture hqueues hx0)

theorem State.calRefused_only {cs : Block → Bool} {s t : State} {a1 a2} (hsums : cs .sums = true) (hviol : cs .viol = true) (hcapture : cs .capture =
      true) (hqueues : cs .queues = true) (h : OnlyIn cs s t) :
    OnlyIn cs s (State.calRefused t a1 a2) := by
  unfold State.calRefused
  exact (by split; (next => exact (OnlyIn.ite h (State.keyRefused_only hsums hviol hcapture hqueues h))); (next => exact h))

theorem State.applyCal_only {cs : Block → Bool} {s t : State} {a1 a2} (hdraws : cs .draws = true) (hsums : cs .sums = true) (hviol : cs .viol = true)
      (hcapture : cs .capture = true) (hmet : cs .met = true) (hqueues : cs .queues = true) (h : OnlyIn cs s t) :
    OnlyIn cs s (State.applyCal t a1 a2).2 := by
  unfold State.applyCal
  extract_lets +onlyGivenNames -merge -underBinder x0
  have hx0 : OnlyIn cs s x0 := (State.takeCalSet_only hdraws hsums hcapture hmet hqueues (State.calRefused_only hsums hviol hcapture hqueues h))
  (try clear_value x0)
  exact (OnlyIn.pairSnd hx0)

theorem State.signerRefused_only {cs : Block → Bool} {s t : State} {a1 a2} (hsums : cs .sums = true) (hviol : cs .viol = true) (hcapture : cs .capture
      = true) (hqueues : cs .queues = true) (h : OnlyIn cs s t) :
    OnlyIn cs s (State.signerRefused t a1 a2) := by
  unfold State.signerRefused
  exact (by split; (next => exact (OnlyIn.ite (State.keyRefused_only hsums hviol hcapture hqueues h) h)); (next => exact h))

theorem signCheck_only {cs : Block → Bool} {s t : State} {a1} (hsums : cs .sums = true) (hviol : cs .viol = true) (hcapture : cs .capture = true)
      (hvault : cs .vault = true) (hqueues : cs .queues = true) (h : OnlyIn cs s t) :
    OnlyIn cs s (signCheck t a1).2.2 := by
  unfold signCheck
  extract_lets +onlyGivenNames -merge -underBinder x0
  (try clear_value x0)
  exact (OnlyIn.iteSS (OnlyIn.pairSS h) (OnlyIn.iteSS (OnlyIn.pairSS h)
        (by extract_lets +onlyGivenNames -merge -underBinder x1; have hx1 : OnlyIn cs s x1.2 := (State.findKey_only hsums hvault h); (try clear_value x1); exact (by split; (next => exact (OnlyIn.pairSS hx1)); (next => exact (OnlyIn.iteSS (OnlyIn.pairSS hx1) (OnlyIn.iteSS (OnlyIn.pairSS hx1) (OnlyIn.pairSS (State.signerRefused_only hsums hviol hcapture hqueues hx1)))))))))

theorem decKey_only {cs : Block → Bool} {s t : State} {a1} (hsums : cs .sums = true) (hviol : cs .viol = true) (hcapture : cs .capture = true) (hvault
      : cs .vault = true) (hqueues : cs .queues = true) (h : OnlyIn cs s t) :
    OnlyIn cs s (decKey t a1).2 := by
  unfold decKey
  extract_lets +onlyGivenNames -merge -underBinder x0
  (try clear_value x0)
  extract_lets +onlyGivenNames -merge -underBinder x1
  have hx1 : OnlyIn cs s x1.2 := (State.findKey_only hsums hvault h)
  (try clear_value x1)
  exact
        (by split; (next => exact (OnlyIn.iteSnd (OnlyIn.pairSnd hx1) (OnlyIn.iteSnd (OnlyIn.pairSnd hx1) (OnlyIn.pairSnd (State.keyRefused_only hsums hviol hcapture hqueues hx1))))); (next => exact (OnlyIn.pairSnd hx1)))

theorem contPlain_only {cs : Block → Bool} {s t : State} {a1} (hsums : cs .sums = true) (hviol : cs .viol = true) (hcapture : cs .capture = true)
      (hvault : cs .vault = true) (hqueues : cs .queues = true) (h : OnlyIn cs s t) :
    OnlyIn cs s (contPlain t a1).2 := by
  unfold contPlain
  extract_lets +onlyGivenNames -merge -underBinder x0
  (try clear_value x0)
  extract_lets +onlyGivenNames -merge -underBinder x1
  (try clear_value x1)
  extract_lets +onlyGivenNames -merge -underBinder x2
  exact (OnlyIn.iteSnd (OnlyIn.pairSnd h) (OnlyIn.iteSnd (OnlyIn.pairSnd h) (OnlyIn.iteSnd (OnlyIn.pairSnd h)
        (by extract_lets +onlyGivenNames -merge -underBinder x3; have hx3 : OnlyIn cs s x3.2 := (decKey_only hsums hviol hcapture hvault hqueues h); (try clear_value x3); exact (OnlyIn.pairSnd hx3)))))

theorem verify_only {cs : Block → Bool} {s t : State} {a1 a2} (hsums : cs .sums = true) (hviol : cs .viol = true) (hcapture : cs .capture = true)
      (hvault : cs .vault = true) (hqueues : cs .queues = true) (h : OnlyIn cs s t) :
    OnlyIn cs s (verify t a1 a2).state := by
  unfold verify
  exact
        (by split; (next => exact h); (next => exact (by extract_lets +onlyGivenNames -merge -underBinder x0; have hx0 : OnlyIn cs s x0.2.2 := (signCheck_only hsums hviol hcapture hvault hqueues h); (try clear_value x0); exact (by split; (next => exact hx0); (next => exact (by extract_lets +onlyGivenNames -merge -underBinder x1; have hx1 : OnlyIn cs s x1.2 := (contPlain_only hsums hviol hcapture hvault hqueues hx0); (try clear_value x1); exact (by split; (next => exact hx1); (next => exact (by split; (next => exact hx1); (next => exact hx1))))))))))

theorem State.calUnverified_only {cs : Block → Bool} {s t : State} {a1} (hdraws : cs .draws = true) (hsums : cs .sums = true) (hcapture : cs .capture
      = true) (hmet : cs .met = true) (hqueues : cs .queues = true) (h : OnlyIn cs s t) :
    OnlyIn cs s (State.calUnverified t a1) := by
  unfold State.calUnverified
  exact (OnlyIn.ite (State.takeCalSet_only hdraws hsums hcapture hmet hqueues h) h)

theorem Verified.state_only {cs : Block → Bool} {s : State} {a0} (h0 : OnlyIn cs s a0.state) :
    OnlyIn cs s (Verified.state a0) := by
  unfold Verified.state
  exact h0

theorem State.importRecord_only {cs : Block → Bool} {s t u : State} {b} (hdraws : cs .draws = true) (hvault : cs .vault = true) (h : OnlyIn cs s t)
    (e : t.importRecord b = .ok u) : OnlyIn cs s u := by
  unfold State.importRecord at e
  split at e
  · cases e
  · split at e
    · cases e
    · generalize hr : t.wrapStore (blobKey t b (slice b 0x28 112)) = r at e
      cases r with
      | error x => cases e
      | ok q => cases e; exact State.wrapStore_only hdraws hvault h hr

theorem importFold_only {cs : Block → Bool} {s : State} (hdraws : cs .draws = true) (hvault : cs .vault = true) (l : List Bytes)
    (r : Except Nat State) (h : ∀ t, r = .ok t → OnlyIn cs s t) (u : State)
    (e : l.foldl (fun (q : Except Nat State) b => q.bind fun s => s.importRecord b) r = .ok u) : OnlyIn cs s u := by
  induction l generalizing r with
  | nil => exact h u e
  | cons b l ih =>
    refine ih (r.bind fun s => s.importRecord b) (fun t ht => ?_) e
    cases r with
    | error x => cases ht
    | ok v => exact State.importRecord_only hdraws hvault (h v rfl) ht

theorem State.importKeys_only {cs : Block → Bool} {s t : State} {a1} (hdraws : cs .draws = true) (hsums : cs .sums = true) (hvault : cs .vault =
    true) (h : OnlyIn cs s t) : OnlyIn cs s (t.importKeys a1) := by
  unfold State.importKeys
  dsimp only
  split
  · next e => exact State.bumpIf_only hsums (importFold_only hdraws hvault _ _ (fun u hu => by cases hu; exact h) _ e)
  · exact State.keyError_only hsums hvault h


theorem State.applySmall_only {cs : Block → Bool} {s t : State} {a1 a2 a3} (hdraws : cs .draws = true) (hsums : cs .sums = true) (hviol : cs .viol =
      true) (hcapture : cs .capture = true) (hmet : cs .met = true) (hsaf : cs .saf = true) (hvault : cs .vault = true) (hqueues : cs .queues = true)
      (h : OnlyIn cs s t) :
    OnlyIn cs s (State.applySmall t a1 a2 a3).2 := by
  unfold State.applySmall
  exact
        (by split; (next => exact (State.applyCal_only hdraws hsums hviol hcapture hmet hqueues h)); (next => exact (OnlyIn.iteSnd (OnlyIn.pairSnd (State.importKeys_only hdraws hsums hvault h)) (OnlyIn.pairSnd h))); (next => exact (OnlyIn.pairSnd (State.bumpIf_only hsums (OnlyIn.setSaf hsaf h)))); (next => exact (OnlyIn.iteSnd (OnlyIn.pairSnd (State.lcGo_only hsums hcapture hvault hqueues h)) (OnlyIn.pairSnd h))); (next => exact (OnlyIn.pairSnd h)))

theorem State.applyContainer_only {cs : Block → Bool} {s t : State} (hdraws : cs .draws = true) (hsums : cs .sums = true) (hviol : cs .viol = true)
      (hcapture : cs .capture = true) (hmet : cs .met = true) (hsaf : cs .saf = true) (hvault : cs .vault = true) (hupd : cs .upd = true) (hqueues :
      cs .queues = true) (h : OnlyIn cs s t) :
    OnlyIn cs s (State.applyContainer t) := by
  unfold State.applyContainer
  exact (State.updChange_only hsums (fun _ k0 =>
        (by extract_lets +onlyGivenNames -merge -underBinder x1; (try clear_value x1); exact (by extract_lets +onlyGivenNames -merge -underBinder x2; have hx2 : OnlyIn cs s x2.state := (verify_only hsums hviol hcapture hvault hqueues k0); (try clear_value x2); exact (by extract_lets +onlyGivenNames -merge -underBinder x3; have hx3 : OnlyIn cs s x3.2 := (by unfold x3; exact (OnlyIn.iteSnd (OnlyIn.pairSnd (State.calUnverified_only hdraws hsums hcapture hmet hqueues hx2)) (State.applySmall_only hdraws hsums hviol hcapture hmet hsaf hvault hqueues hx2))); (try clear_value x3); exact (State.setUpd_only hupd (State.setArea_only hupd hx3))))))
        h)

theorem State.bootOther_only {cs : Block → Bool} {s t : State} (hupd : cs .upd = true) (h : OnlyIn cs s t) :
    OnlyIn cs s (State.bootOther t) := by
  unfold State.bootOther
  exact (State.setUpd_only hupd h)

theorem State.chargeChunk_only {cs : Block → Bool} {s t : State} (hmram : cs .mram = true) (h : OnlyIn cs s t) :
    OnlyIn cs s (State.chargeChunk t) := by
  unfold State.chargeChunk
  exact (OnlyIn.ite (OnlyIn.setMram hmram h) (OnlyIn.setMram hmram h))

theorem State.chunkCommit_only {cs : Block → Bool} {s t : State} (hsums : cs .sums = true) (hupd : cs .upd = true) (hmram : cs .mram = true) (h :
      OnlyIn cs s t) :
    OnlyIn cs s (State.chunkCommit t).1 := by
  unfold State.chunkCommit
  extract_lets +onlyGivenNames -merge -underBinder x0
  (try clear_value x0)
  extract_lets +onlyGivenNames -merge -underBinder x1
  (try clear_value x1)
  extract_lets +onlyGivenNames -merge -underBinder x2
  (try clear_value x2)
  extract_lets +onlyGivenNames -merge -underBinder x3
  (try clear_value x3)
  exact (OnlyIn.iteFst (OnlyIn.pairFst h) (OnlyIn.iteFst (OnlyIn.pairFst (State.updChange_only hsums (fun _ k4 => (State.setUpd_only hupd k4)) h))
        (OnlyIn.pairFst (State.updChange_only hsums (fun _ k5 =>
        (by extract_lets +onlyGivenNames -merge -underBinder x6; (try clear_value x6); exact (State.setUpd_only hupd (State.setArea_only hupd (State.chargeChunk_only hmram k5)))))
        h))))

theorem State.holdAgain_only {cs : Block → Bool} {s t : State} (hupd : cs .upd = true) (h : OnlyIn cs s t) :
    OnlyIn cs s (State.holdAgain t) := by
  unfold State.holdAgain
  exact (State.setUpd_only hupd h)

theorem State.writeSlot_only {cs : Block → Bool} {s t : State} {a1} (hupd : cs .upd = true) (h : OnlyIn cs s t) :
    OnlyIn cs s (State.writeSlot t a1) := by
  unfold State.writeSlot
  exact (State.setUpd_only hupd h)

theorem State.installApp_only {cs : Block → Bool} {s t : State} (hsums : cs .sums = true) (hviol : cs .viol = true) (hcapture : cs .capture = true)
      (hvault : cs .vault = true) (hupd : cs .upd = true) (hqueues : cs .queues = true) (h : OnlyIn cs s t) :
    OnlyIn cs s (State.installApp t) := by
  unfold State.installApp
  extract_lets +onlyGivenNames -merge -underBinder x0
  (try clear_value x0)
  extract_lets +onlyGivenNames -merge -underBinder x1
  have hx1 : OnlyIn cs s x1.state := (verify_only hsums hviol hcapture hvault hqueues h)
  (try clear_value x1)
  exact (OnlyIn.ite (State.activationEnds_only hsums hcapture hupd hqueues hx1)
        (by extract_lets +onlyGivenNames -merge -underBinder x2; (try clear_value x2); exact (by extract_lets +onlyGivenNames -merge -underBinder x3; have hx3 : OnlyIn cs s x3 := (State.writeSlot_only hupd hx1); (try clear_value x3); exact (OnlyIn.ite (State.activationEnds_only hsums hcapture hupd hqueues (State.bootOther_only hupd hx3)) (State.activationEnds_only hsums hcapture hupd hqueues hx3)))))

theorem State.writeMet_only {cs : Block → Bool} {s t : State} {a1} (hupd : cs .upd = true) (h : OnlyIn cs s t) :
    OnlyIn cs s (State.writeMet t a1) := by
  unfold State.writeMet
  exact (State.setUpd_only hupd h)

theorem State.runsMet_only {cs : Block → Bool} {s t : State} (hmet : cs .met = true) (h : OnlyIn cs s t) :
    OnlyIn cs s (State.runsMet t) := by
  unfold State.runsMet
  exact (OnlyIn.setMet hmet h)

theorem State.metOther_only {cs : Block → Bool} {s t : State} (hupd : cs .upd = true) (h : OnlyIn cs s t) :
    OnlyIn cs s (State.metOther t) := by
  unfold State.metOther
  exact (State.setUpd_only hupd h)

theorem State.installMet_only {cs : Block → Bool} {s t : State} (hsums : cs .sums = true) (hviol : cs .viol = true) (hcapture : cs .capture = true)
      (hmet : cs .met = true) (hvault : cs .vault = true) (hupd : cs .upd = true) (hqueues : cs .queues = true) (hmram : cs .mram = true) (h : OnlyIn
      cs s t) :
    OnlyIn cs s (State.installMet t) := by
  unfold State.installMet
  extract_lets +onlyGivenNames -merge -underBinder x0
  have hx0 : OnlyIn cs s x0 := (State.writeCheckpoint_only hmet hmram h)
  (try clear_value x0)
  extract_lets +onlyGivenNames -merge -underBinder x1
  (try clear_value x1)
  extract_lets +onlyGivenNames -merge -underBinder x2
  have hx2 : OnlyIn cs s x2.state := (verify_only hsums hviol hcapture hvault hqueues hx0)
  (try clear_value x2)
  extract_lets +onlyGivenNames -merge -underBinder x3
  (try clear_value x3)
  exact (OnlyIn.ite (State.activationEnds_only hsums hcapture hupd hqueues hx2)
        (by extract_lets +onlyGivenNames -merge -underBinder x4; (try clear_value x4); exact (by extract_lets +onlyGivenNames -merge -underBinder x5; have hx5 : OnlyIn cs s x5 := (State.writeMet_only hupd hx2); (try clear_value x5); exact (OnlyIn.ite (State.activationEnds_only hsums hcapture hupd hqueues (State.gapAll_only hmet (State.metRestart_only hsums hcapture hmet hqueues (State.runsMet_only hmet (State.metOther_only hupd hx5))))) (State.activationEnds_only hsums hcapture hupd hqueues hx5)))))

theorem State.raiseApp_only {cs : Block → Bool} {s t : State} (hupd : cs .upd = true) (h : OnlyIn cs s t) :
    OnlyIn cs s (State.raiseApp t) := by
  unfold State.raiseApp
  exact (State.setUpd_only hupd h)

theorem State.raiseMet_only {cs : Block → Bool} {s t : State} (hupd : cs .upd = true) (h : OnlyIn cs s t) :
    OnlyIn cs s (State.raiseMet t) := by
  unfold State.raiseMet
  exact (State.setUpd_only hupd h)

theorem State.revertApp_only {cs : Block → Bool} {s t : State} (hsums : cs .sums = true) (hcapture : cs .capture = true) (hupd : cs .upd = true)
      (hqueues : cs .queues = true) (h : OnlyIn cs s t) :
    OnlyIn cs s (State.revertApp t) := by
  unfold State.revertApp
  exact
        (by split; (next => exact h); (next => exact (by extract_lets +onlyGivenNames -merge -underBinder x0; (try clear_value x0); exact (by extract_lets +onlyGivenNames -merge -underBinder x1; have hx1 : OnlyIn cs s x1 := (State.updChange_only hsums (fun _ k2 => (State.setUpd_only hupd k2)) h); (try clear_value x1); exact (State.log_only hsums hcapture hqueues hx1)))))

theorem State.revertMet_only {cs : Block → Bool} {s t : State} (hsums : cs .sums = true) (hcapture : cs .capture = true) (hmet : cs .met = true) (hupd
      : cs .upd = true) (hqueues : cs .queues = true) (h : OnlyIn cs s t) :
    OnlyIn cs s (State.revertMet t) := by
  unfold State.revertMet
  exact
        (by split; (next => exact h); (next => exact (by extract_lets +onlyGivenNames -merge -underBinder x0; (try clear_value x0); exact (by extract_lets +onlyGivenNames -merge -underBinder x1; have hx1 : OnlyIn cs s x1 := (State.updChange_only hsums (fun _ k2 => (State.setUpd_only hupd k2)) h); (try clear_value x1); exact (State.log_only hsums hcapture hqueues (State.runsMet_only hmet hx1))))))

theorem State.updCtrlWrite_only {cs : Block → Bool} {s t : State} {a1 a2} (hdraws : cs .draws = true) (hsums : cs .sums = true) (hviol : cs .viol =
      true) (hcapture : cs .capture = true) (hmet : cs .met = true) (hsaf : cs .saf = true) (hvault : cs .vault = true) (hupd : cs .upd = true)
      (hqueues : cs .queues = true) (hmram : cs .mram = true) (h : OnlyIn cs s t) :
    OnlyIn cs s (State.updCtrlWrite t a1 a2).1 := by
  unfold State.updCtrlWrite
  exact (OnlyIn.iteFst (OnlyIn.pairFst h) (OnlyIn.iteFst (State.chunkCommit_only hsums hupd hmram h) (OnlyIn.iteFst (OnlyIn.pairFst
        (State.abortArea_only hsums hupd h)) (OnlyIn.iteFst
        (by split; (next => exact (OnlyIn.pairFst h)); (next => exact (OnlyIn.pairFst (State.applyContainer_only hdraws hsums hviol hcapture hmet hsaf hvault hupd hqueues h))))
        (OnlyIn.iteFst
        (by split; (next => exact (OnlyIn.pairFst h)); (next => exact (OnlyIn.pairFst (State.raiseMet_only hupd (State.raiseApp_only hupd h)))))
        (OnlyIn.pairFst h))))))

theorem chunkWindowWrite_eff {cs : Block → Bool} {a0 a1} (hupd : cs .upd = true) :
    EffsIn cs (chunkWindowWrite a0 a1) := by
  unfold chunkWindowWrite
  exact (EffsIn.ite (EffsIn.some (EffIn.mk (fun z1 _ k0 => (State.setUpd_only hupd k0)))) EffsIn.none)

theorem doAbort_only {cs : Block → Bool} {s t : State} {a0 a1} (hmt : cs .mt = true) (hsums : cs .sums = true) (hanswer : cs .answer = true) (hviol :
      cs .viol = true) (hcapture : cs .capture = true) (hupd : cs .upd = true) (hqueues : cs .queues = true) (h : OnlyIn cs s t) :
    OnlyIn cs s (doAbort a0 a1 t) := by
  unfold doAbort
  exact (whenLive_only hmt (fun _ k0 => (State.command_only hsums hanswer hviol hcapture hqueues (fun _ k1 => (State.abortArea_only hsums hupd k1))
        k0)) h)

theorem doActModeWrite_only {cs : Block → Bool} {s t : State} {a0 a1 a2} (hmt : cs .mt = true) (hsums : cs .sums = true) (hanswer : cs .answer = true)
      (hviol : cs .viol = true) (hcapture : cs .capture = true) (hupd : cs .upd = true) (hqueues : cs .queues = true) (h : OnlyIn cs s t) :
    OnlyIn cs s (doActModeWrite a0 a1 a2 t) := by
  unfold doActModeWrite
  exact (whenLive_only hmt (fun _ k0 =>
        (by split; (next => exact (State.answered_only hsums hanswer hviol hcapture hqueues k0)); (next => exact (by extract_lets +onlyGivenNames -merge -underBinder x1; have hx1 : OnlyIn cs s x1.1 := (State.actWrite_only hsums hupd k0); (try clear_value x1); exact (State.answered_only hsums hanswer hviol hcapture hqueues hx1)))))
        h)

theorem doActivationLead_only {cs : Block → Bool} {s t : State} {a0} (hmt : cs .mt = true) (hupd : cs .upd = true) (h : OnlyIn cs s t) :
    OnlyIn cs s (doActivationLead a0 t) := by
  unfold doActivationLead
  exact (whenLive_only hmt (fun _ k0 => (OnlyIn.ite (State.setUpd_only hupd k0) k0)) h)

theorem doApply_only {cs : Block → Bool} {s t : State} {a0 a1} (hmt : cs .mt = true) (hdraws : cs .draws = true) (hsums : cs .sums = true) (hanswer :
      cs .answer = true) (hviol : cs .viol = true) (hcapture : cs .capture = true) (hmet : cs .met = true) (hsaf : cs .saf = true) (hvault : cs .vault
      = true) (hupd : cs .upd = true) (hqueues : cs .queues = true) (h : OnlyIn cs s t) :
    OnlyIn cs s (doApply a0 a1 t) := by
  unfold doApply
  exact (whenLive_only hmt (fun _ k0 => (State.command_only hsums hanswer hviol hcapture hqueues (fun _ k1 => (State.applyContainer_only hdraws hsums
        hviol hcapture hmet hsaf hvault hupd hqueues k1)) k0)) h)

theorem doChunkCommit_only {cs : Block → Bool} {s t : State} {a0 a1} (hmt : cs .mt = true) (hsums : cs .sums = true) (hanswer : cs .answer = true)
      (hviol : cs .viol = true) (hcapture : cs .capture = true) (hupd : cs .upd = true) (hqueues : cs .queues = true) (hmram : cs .mram = true) (h :
      OnlyIn cs s t) :
    OnlyIn cs s (doChunkCommit a0 a1 t) := by
  unfold doChunkCommit
  exact (whenLive_only hmt (fun _ k0 =>
        (by split; (next => exact (State.answered_only hsums hanswer hviol hcapture hqueues k0)); (next => exact (by extract_lets +onlyGivenNames -merge -underBinder x1; have hx1 : OnlyIn cs s x1.1 := (State.chunkCommit_only hsums hupd hmram k0); (try clear_value x1); exact (State.answered_only hsums hanswer hviol hcapture hqueues hx1)))))
        h)

theorem doFloorRaise_only {cs : Block → Bool} {s t : State} {a0} (hmt : cs .mt = true) (hupd : cs .upd = true) (h : OnlyIn cs s t) :
    OnlyIn cs s (doFloorRaise a0 t) := by
  unfold doFloorRaise
  exact (whenLive_only hmt (fun _ k0 =>
        (by extract_lets +onlyGivenNames -merge -underBinder x1; have hx1 : OnlyIn cs s x1 := (by unfold x1; exact (OnlyIn.ite (State.raiseApp_only hupd k0) k0)); (try clear_value x1); exact (OnlyIn.ite (State.raiseMet_only hupd hx1) hx1)))
        h)

theorem doRaise_only {cs : Block → Bool} {s t : State} {a0 a1} (hmt : cs .mt = true) (hsums : cs .sums = true) (hanswer : cs .answer = true) (hviol :
      cs .viol = true) (hcapture : cs .capture = true) (hupd : cs .upd = true) (hqueues : cs .queues = true) (h : OnlyIn cs s t) :
    OnlyIn cs s (doRaise a0 a1 t) := by
  unfold doRaise
  exact (whenLive_only hmt (fun _ k0 => (State.command_only hsums hanswer hviol hcapture hqueues (fun _ k1 => (State.raiseMet_only hupd
        (State.raiseApp_only hupd k1))) k0)) h)

theorem doTrialEnd_only {cs : Block → Bool} {s t : State} {a0} (hmt : cs .mt = true) (hupd : cs .upd = true) (h : OnlyIn cs s t) :
    OnlyIn cs s (doTrialEnd a0 t) := by
  unfold doTrialEnd
  exact (whenLive_only hmt (fun _ k0 => (State.setUpd_only hupd k0)) h)

theorem updWrite_eff {cs : Block → Bool} {a0 a1 a2 a3} (hupd : cs .upd = true) :
    EffsIn cs (updWrite a0 a1 a2 a3) := by
  unfold updWrite
  exact
        (by split; (next => exact (EffsIn.some (EffIn.mk (fun z1 _ k0 => (State.setUpd_only hupd k0))))); (next => exact (EffsIn.some (EffIn.mk (fun z3 _ k2 => (State.setUpd_only hupd k2))))); (next => exact (EffsIn.some (EffIn.mk (fun z5 _ k4 => (State.holdAgain_only hupd (State.setUpd_only hupd k4)))))); (next => exact (EffsIn.some (EffIn.mk (fun z7 _ k6 => (State.holdAgain_only hupd (State.setUpd_only hupd k6)))))); (next => exact (EffsIn.some (EffIn.inRange (fun z9 _ k8 => (State.setUpd_only hupd k8))))); (next => exact (EffsIn.map fun _ => roWord_eff)))

theorem State.reconnect_only {cs : Block → Bool} {s t : State} (hsums : cs .sums = true) (hbays : ∀ i, cs (.bay i) = true) (h : OnlyIn cs s t) :
    OnlyIn cs s (State.reconnect t).1 := by
  unfold State.reconnect
  exact (OnlyIn.iteFst (OnlyIn.pairFst h) (OnlyIn.foldlFst (fun _ _ k0 => (OnlyIn.iteFst (OnlyIn.pairFst (State.connectAnew_only hsums (hbays _) k0))
        k0)) (OnlyIn.pairFst h)))

theorem State.bootFirmware_only {cs : Block → Bool} {s t : State} {a1} (hsums : cs .sums = true) (hviol : cs .viol = true) (hcapture : cs .capture =
      true) (hmet : cs .met = true) (hvault : cs .vault = true) (hupd : cs .upd = true) (hqueues : cs .queues = true) (h : OnlyIn cs s t) :
    OnlyIn cs s (State.bootFirmware t a1) := by
  unfold State.bootFirmware
  extract_lets +onlyGivenNames -merge -underBinder x0
  have hx0 : OnlyIn cs s x0 := (State.revertApp_only hsums hcapture hupd hqueues h)
  (try clear_value x0)
  extract_lets +onlyGivenNames -merge -underBinder x1
  have hx1 : OnlyIn cs s x1 := (by unfold x1; exact (OnlyIn.ite hx0 (State.revertMet_only hsums hcapture hmet hupd hqueues hx0)))
  (try clear_value x1)
  exact (OnlyIn.ite (State.installApp_only hsums hviol hcapture hvault hupd hqueues hx1) hx1)

theorem State.takePins_only {cs : Block → Bool} {s t : State} {a1} (hprof : cs .prof = true) (hsums : cs .sums = true) (hcapture : cs .capture = true)
      (hpair : cs .pair = true) (hvault : cs .vault = true) (hqueues : cs .queues = true) (h : OnlyIn cs s t) :
    OnlyIn cs s (State.takePins t a1) := by
  unfold State.takePins
  exact
        (by split; (next => exact h); (next => exact (by extract_lets +onlyGivenNames -merge -underBinder x0 x1 x2 x3; have hx3 : OnlyIn cs s x3 := (OnlyIn.mk h (.inr (by rfl)) (.inr (by rfl)) (.inr (by rfl)) (.inr (by rfl)) (.inl hprof) (.inr (by rfl)) ⟨.inr (by rfl), .inr (by rfl), .inr (by rfl), .inr (by rfl)⟩ (.inr (by rfl)) (.inr (by rfl)) (.inr (by rfl)) (.inr (by rfl)) (.inr (by rfl)) ⟨.inr (by rfl), .inr (by rfl)⟩ (.inr (by rfl)) (.inr (by rfl)) (.inr (by rfl)) (.inr (by rfl)) (.inr (by rfl)) (.inr (by rfl)) (.inr (by rfl)) ⟨.inr (by rfl), .inl hpair⟩ (.inr (by rfl)) (.inl hvault) (.inr (by rfl)) ⟨.inr (by rfl), .inr (by rfl)⟩ (.inr (by rfl))); (try clear_value x0); (try clear_value x2); (try clear_value x3); exact (OnlyIn.ite (State.log_only hsums hcapture hqueues (State.bump_only hsums hx3)) hx3))))

theorem State.resumeLockouts_only {cs : Block → Bool} {s t : State} (hlock : cs .lock = true) (hsaf : cs .saf = true) (hupd : cs .upd = true) (h :
      OnlyIn cs s t) :
    OnlyIn cs s (State.resumeLockouts t) := by
  unfold State.resumeLockouts
  exact (OnlyIn.mk h (.inr (by rfl)) (.inr (by rfl)) (.inr (by rfl)) (.inr (by rfl)) (.inr (by rfl)) (.inl hlock) ⟨.inr (by rfl), .inr (by rfl), .inr
        (by rfl), .inr (by rfl)⟩ (.inr (by rfl)) (.inr (by rfl)) (.inr (by rfl)) (.inr (by rfl)) (.inr (by rfl)) ⟨.inr (by rfl), .inr (by rfl)⟩ (.inr
        (by rfl)) (.inr (by rfl)) (.inr (by rfl)) (.inr (by rfl)) (.inr (by rfl)) (.inr (by rfl)) (.inl hsaf) ⟨.inr (by rfl), .inr (by rfl)⟩ (.inr
        (by rfl)) (.inr (by rfl)) (.inl hupd) ⟨.inr (by rfl), .inr (by rfl)⟩ (.inr (by rfl)))

theorem State.newSysNonce_only {cs : Block → Bool} {s t : State} (hdraws : cs .draws = true) (hlock : cs .lock = true) (h : OnlyIn cs s t) :
    OnlyIn cs s (State.newSysNonce t) := by
  unfold State.newSysNonce
  extract_lets +onlyGivenNames -merge -underBinder x0
  have hx0 : OnlyIn cs s x0.2 := (State.drawBytes_only hdraws h)
  (try clear_value x0)
  extract_lets +onlyGivenNames -merge -underBinder x1
  have hx1 : OnlyIn cs s x1 := hx0
  (try clear_value x1)
  exact (OnlyIn.setLock hlock hx1)

theorem State.bootSafety_only {cs : Block → Bool} {s t : State} {a1} (hdraws : cs .draws = true) (hlock : cs .lock = true) (hsums : cs .sums = true)
      (hcapture : cs .capture = true) (hsaf : cs .saf = true) (hqueues : cs .queues = true) (h : OnlyIn cs s t) :
    OnlyIn cs s (State.bootSafety t a1) := by
  unfold State.bootSafety
  extract_lets +onlyGivenNames -merge -underBinder x0 x1
  have hx1 : OnlyIn cs s x1 := (OnlyIn.setSaf hsaf h)
  (try clear_value x0)
  (try clear_value x1)
  extract_lets +onlyGivenNames -merge -underBinder x2
  have hx2 : OnlyIn cs s x2 := (by unfold x2; exact (OnlyIn.ite hx1 (State.log_only hsums hcapture hqueues hx1)))
  (try clear_value x2)
  exact (State.newSysNonce_only hdraws hlock (State.newSafNonce_only hdraws hsaf hx2))

theorem State.seedInputs_only {cs : Block → Bool} {s t : State} (hsaf : cs .saf = true) (h : OnlyIn cs s t) :
    OnlyIn cs s (State.seedInputs t) := by
  unfold State.seedInputs
  exact (State.forAll_only (fun _ _ k0 => (by split; (next => exact (State.setSi_only hsaf k0)); (next => exact k0))) h)

theorem State.bootCheck_only {cs : Block → Bool} {s t : State} {a1 a2} (hdraws : cs .draws = true) (hprof : cs .prof = true) (hsums : cs .sums = true)
      (hviol : cs .viol = true) (hpwr : cs .pwr = true) (hlat : cs .lat = true) (hcapture : cs .capture = true) (hstl : cs .stl = true) (hlinks : ∀ i,
      cs (.link i) = true) (hsamples : ∀ i, cs (.sample i) = true) (hstalls : ∀ i, cs (.stall i) = true) (hbays : ∀ i, cs (.bay i) = true) (hmkt : cs
      .mkt = true) (hthm : cs .thm = true) (hmet : cs .met = true) (hsaf : cs .saf = true) (hpair : cs .pair = true) (hsbus : cs .sbus = true) (hvault
      : cs .vault = true) (hqueues : cs .queues = true) (hmram : cs .mram = true) (h : OnlyIn cs s t) :
    OnlyIn cs s (State.bootCheck t a1 a2) := by
  unfold State.bootCheck
  exact (OnlyIn.ite h
        (by extract_lets +onlyGivenNames -merge -underBinder x0; (try clear_value x0); exact (by extract_lets +onlyGivenNames -merge -underBinder x1; (try clear_value x1); exact (by extract_lets +onlyGivenNames -merge -underBinder x2; have hx2 : OnlyIn cs s x2 := (State.signatureServed_only hsums hviol hcapture hvault hqueues h); (try clear_value x2); exact (by split; (next => exact (State.bump_only hsums (State.checkFailed_only hprof hsums hcapture hqueues hx2))); (next => exact (State.activateImage_only hdraws hprof hsums hpwr hlat hcapture hstl hlinks hsamples hstalls hbays hmkt hthm hmet hsaf hpair hsbus hqueues hmram (State.checkPassed_only hprof hsums hcapture hqueues hx2))))))))

theorem State.startUp_only {cs : Block → Bool} {s t : State} {a1 a2 a3} (hdraws : cs .draws = true) (hprof : cs .prof = true) (hlock : cs .lock =
      true) (hsums : cs .sums = true) (hviol : cs .viol = true) (hassume : cs .assume = true) (hpwr : cs .pwr = true) (hlat : cs .lat = true)
      (hcapture : cs .capture = true) (hstl : cs .stl = true) (hlinks : ∀ i, cs (.link i) = true) (hsamples : ∀ i, cs (.sample i) = true) (hstalls : ∀
      i, cs (.stall i) = true) (hbays : ∀ i, cs (.bay i) = true) (hmkt : cs .mkt = true) (hthm : cs .thm = true) (haux : cs .aux = true) (hmet : cs
      .met = true) (hsaf : cs .saf = true) (hrole : cs .role = true) (hpair : cs .pair = true) (hsbus : cs .sbus = true) (hvault : cs .vault = true)
      (hupd : cs .upd = true) (hqueues : cs .queues = true) (hldg : cs .ldg = true) (hmram : cs .mram = true) (h : OnlyIn cs s t) :
    OnlyIn cs s (State.startUp t a1 a2 a3) := by
  unfold State.startUp
  extract_lets +onlyGivenNames -merge -underBinder x0
  have hx0 : OnlyIn cs s x0 := (State.bootFirmware_only hsums hviol hcapture hmet hvault hupd hqueues (State.takePins_only hprof hsums hcapture hpair
        hvault hqueues (State.ledgerAdopt_only hqueues hldg (State.resumeLockouts_only hlock hsaf hupd h))))
  (try clear_value x0)
  extract_lets +onlyGivenNames -merge -underBinder x1
  have hx1 : OnlyIn cs s x1 := (State.loadBoot_only hvault hx0)
  (try clear_value x1)
  extract_lets +onlyGivenNames -merge -underBinder x2
  have hx2 : OnlyIn cs s x2 := (by unfold x2; exact (OnlyIn.ite hx1 (State.metRestart_only hsums hcapture hmet hqueues hx1)))
  (try clear_value x2)
  extract_lets +onlyGivenNames -merge -underBinder x3
  have hx3 : OnlyIn cs s x3 := (State.refreshAssume_only hsums hassume (OnlyIn.ite (State.adoptAux_only hsums hthm haux (State.bootSafety_only hdraws
        hlock hsums hcapture hsaf hqueues hx2)) (State.bootSafety_only hdraws hlock hsums hcapture hsaf hqueues hx2)))
  (try clear_value x3)
  extract_lets +onlyGivenNames -merge -underBinder x4
  have hx4 : OnlyIn cs s x4 :=
        (by unfold x4; exact (OnlyIn.ite (State.seedInputs_only hsaf (State.bootCheck_only hdraws hprof hsums hviol hpwr hlat hcapture hstl hlinks hsamples hstalls hbays hmkt hthm hmet hsaf hpair hsbus hvault hqueues hmram hx3)) hx3))
  (try clear_value x4)
  extract_lets +onlyGivenNames -merge -underBinder x5
  have hx5 : OnlyIn cs s x5 := (State.setUpd_only hupd hx4)
  (try clear_value x5)
  exact (State.startRole_only hsums hassume hcapture hrole hpair hsbus hqueues hx5)

theorem State.startAgain_only {cs : Block → Bool} {s t : State} {a1 a2 a3} (hdraws : cs .draws = true) (hprof : cs .prof = true) (hlock : cs .lock =
      true) (hsums : cs .sums = true) (hviol : cs .viol = true) (hassume : cs .assume = true) (hpwr : cs .pwr = true) (hlat : cs .lat = true)
      (hcapture : cs .capture = true) (hstl : cs .stl = true) (hlinks : ∀ i, cs (.link i) = true) (hsamples : ∀ i, cs (.sample i) = true) (hstalls : ∀
      i, cs (.stall i) = true) (hbays : ∀ i, cs (.bay i) = true) (hmkt : cs .mkt = true) (hthm : cs .thm = true) (haux : cs .aux = true) (hmet : cs
      .met = true) (hsaf : cs .saf = true) (hrole : cs .role = true) (hpair : cs .pair = true) (hsbus : cs .sbus = true) (hvault : cs .vault = true)
      (hupd : cs .upd = true) (hqueues : cs .queues = true) (hldg : cs .ldg = true) (hmram : cs .mram = true) (h : OnlyIn cs s t) :
    OnlyIn cs s (State.startAgain t a1 a2 a3) := by
  unfold State.startAgain
  extract_lets +onlyGivenNames -merge -underBinder x0
  have hx0 : OnlyIn cs s x0.1 := (State.reconnect_only hsums hbays (State.startUp_only hdraws hprof hlock hsums hviol hassume hpwr hlat hcapture hstl
        hlinks hsamples hstalls hbays hmkt hthm haux hmet hsaf hrole hpair hsbus hvault hupd hqueues hldg hmram h))
  (try clear_value x0)
  exact (State.log_only hsums hcapture hqueues hx0)

theorem State.countReset_only {cs : Block → Bool} {s t : State} {a1} (hpwr : cs .pwr = true) (h : OnlyIn cs s t) :
    OnlyIn cs s (State.countReset t a1) := by
  unfold State.countReset
  exact (OnlyIn.setPwr hpwr h)

theorem State.keepUnfit_only {cs : Block → Bool} {s t : State} {a1} (hrole : cs .role = true) (hpair : cs .pair = true) (h : OnlyIn cs s t) :
    OnlyIn cs s (State.keepUnfit t a1) := by
  unfold State.keepUnfit
  exact (OnlyIn.ite (State.setPair_only ⟨.inl hrole, .inl hpair⟩ h) h)

theorem State.keepRecords_only {cs : Block → Bool} {s t : State} {a1} (hqueues : cs .queues = true) (hldg : cs .ldg = true) (h : OnlyIn cs s t) :
    OnlyIn cs s (State.keepRecords t a1) := by
  unfold State.keepRecords
  exact (State.setPart_only hqueues hldg h)

theorem State.rebooted_only {cs : Block → Bool} {s t : State} {a1} (hprof : cs .prof = true) (hlock : cs .lock = true) (hsums : cs .sums = true)
      (hanswer : cs .answer = true) (hviol : cs .viol = true) (hhost : cs .host = true) (hassume : cs .assume = true) (hclk : cs .clk = true) (hpwr :
      cs .pwr = true) (hrtc : cs .rtc = true) (hlat : cs .lat = true) (hcapture : cs .capture = true) (hstl : cs .stl = true) (hlinks : ∀ i, cs (.link
      i) = true) (hsamples : ∀ i, cs (.sample i) = true) (hstalls : ∀ i, cs (.stall i) = true) (houtlets : ∀ i, cs (.outlet i) = true) (hsettingss : ∀
      i, cs (.settings i) = true) (hbays : ∀ i, cs (.bay i) = true) (hmkt : cs .mkt = true) (hthm : cs .thm = true) (haux : cs .aux = true) (hmet : cs
      .met = true) (hsaf : cs .saf = true) (hrole : cs .role = true) (hpair : cs .pair = true) (hsbus : cs .sbus = true) (hvault : cs .vault = true)
      (hupd : cs .upd = true) (hqueues : cs .queues = true) (hldg : cs .ldg = true) (h : OnlyIn cs s t) :
    OnlyIn cs s (State.rebooted t a1) := by
  unfold State.rebooted
  exact (OnlyIn.mk h (.inr (by rfl)) (.inr (by rfl)) (.inr (by rfl)) (.inr (by rfl)) (.inl hprof) (.inl hlock) ⟨.inl hsums, .inl hanswer, .inl hviol,
        .inl hhost⟩ (.inl hassume) (.inl hclk) (.inl hpwr) (.inl hrtc) (.inl hlat) ⟨.inl hcapture, .inl hstl⟩ (.inl ⟨hlinks, hsamples, hstalls⟩) (.inl
        ⟨houtlets, hsettingss, hbays⟩) (.inl hmkt) (.inl hthm) (.inl haux) (.inl hmet) (.inl hsaf) ⟨.inl hrole, .inl hpair⟩ (.inl hsbus) (.inl hvault)
        (.inl hupd) ⟨.inl hqueues, .inl hldg⟩ (.inr (by rfl)))

theorem State.resetAsserted_only {cs : Block → Bool} {s t : State} {a1 a2} (hprof : cs .prof = true) (hlock : cs .lock = true) (hsums : cs .sums =
      true) (hanswer : cs .answer = true) (hviol : cs .viol = true) (hhost : cs .host = true) (hassume : cs .assume = true) (hclk : cs .clk = true)
      (hpwr : cs .pwr = true) (hrtc : cs .rtc = true) (hlat : cs .lat = true) (hcapture : cs .capture = true) (hstl : cs .stl = true) (hlinks : ∀ i,
      cs (.link i) = true) (hsamples : ∀ i, cs (.sample i) = true) (hstalls : ∀ i, cs (.stall i) = true) (houtlets : ∀ i, cs (.outlet i) = true)
      (hsettingss : ∀ i, cs (.settings i) = true) (hbays : ∀ i, cs (.bay i) = true) (hmkt : cs .mkt = true) (hthm : cs .thm = true) (haux : cs .aux =
      true) (hmet : cs .met = true) (hsaf : cs .saf = true) (hrole : cs .role = true) (hpair : cs .pair = true) (hsbus : cs .sbus = true) (hvault : cs
      .vault = true) (hupd : cs .upd = true) (hqueues : cs .queues = true) (hldg : cs .ldg = true) (h : OnlyIn cs s t) :
    OnlyIn cs s (State.resetAsserted t a1 a2) := by
  unfold State.resetAsserted
  extract_lets +onlyGivenNames -merge -underBinder x0
  (try clear_value x0)
  extract_lets +onlyGivenNames -merge -underBinder x1
  have hx1 : OnlyIn cs s x1 := (State.releaseActive_only hprof hsums hlat hcapture hlinks hsamples hstalls houtlets hbays hmkt hsaf hrole hpair hsbus
        hqueues h)
  (try clear_value x1)
  extract_lets +onlyGivenNames -merge -underBinder x2
  (try clear_value x2)
  exact (State.countReset_only hpwr (State.keepUnfit_only hrole hpair (State.keepRecords_only hqueues hldg (State.rebooted_only hprof hlock hsums
        hanswer hviol hhost hassume hclk hpwr hrtc hlat hcapture hstl hlinks hsamples hstalls houtlets hsettingss hbays hmkt hthm haux hmet hsaf hrole
        hpair hsbus hvault hupd hqueues hldg hx1))))

theorem State.resetNow_only {cs : Block → Bool} {s t : State} {a1 a2 a3 a4} (hdraws : cs .draws = true) (hprof : cs .prof = true) (hlock : cs .lock =
      true) (hsums : cs .sums = true) (hanswer : cs .answer = true) (hviol : cs .viol = true) (hhost : cs .host = true) (hassume : cs .assume = true)
      (hclk : cs .clk = true) (hpwr : cs .pwr = true) (hrtc : cs .rtc = true) (hlat : cs .lat = true) (hcapture : cs .capture = true) (hstl : cs .stl
      = true) (hlinks : ∀ i, cs (.link i) = true) (hsamples : ∀ i, cs (.sample i) = true) (hstalls : ∀ i, cs (.stall i) = true) (houtlets : ∀ i, cs
      (.outlet i) = true) (hsettingss : ∀ i, cs (.settings i) = true) (hbays : ∀ i, cs (.bay i) = true) (hmkt : cs .mkt = true) (hthm : cs .thm =
      true) (haux : cs .aux = true) (hmet : cs .met = true) (hsaf : cs .saf = true) (hrole : cs .role = true) (hpair : cs .pair = true) (hsbus : cs
      .sbus = true) (hvault : cs .vault = true) (hupd : cs .upd = true) (hqueues : cs .queues = true) (hldg : cs .ldg = true) (hmram : cs .mram =
      true) (h : OnlyIn cs s t) :
    OnlyIn cs s (State.resetNow t a1 a2 a3 a4) := by
  unfold State.resetNow
  exact (State.startAgain_only hdraws hprof hlock hsums hviol hassume hpwr hlat hcapture hstl hlinks hsamples hstalls hbays hmkt hthm haux hmet hsaf
        hrole hpair hsbus hvault hupd hqueues hldg hmram (State.resetAsserted_only hprof hlock hsums hanswer hviol hhost hassume hclk hpwr hrtc hlat
        hcapture hstl hlinks hsamples hstalls houtlets hsettingss hbays hmkt hthm haux hmet hsaf hrole hpair hsbus hvault hupd hqueues hldg h))

theorem State.activationBoot_only {cs : Block → Bool} {s t : State} (hdraws : cs .draws = true) (hprof : cs .prof = true) (hlock : cs .lock = true)
      (hsums : cs .sums = true) (hanswer : cs .answer = true) (hviol : cs .viol = true) (hhost : cs .host = true) (hassume : cs .assume = true) (hclk
      : cs .clk = true) (hpwr : cs .pwr = true) (hrtc : cs .rtc = true) (hlat : cs .lat = true) (hcapture : cs .capture = true) (hstl : cs .stl =
      true) (hlinks : ∀ i, cs (.link i) = true) (hsamples : ∀ i, cs (.sample i) = true) (hstalls : ∀ i, cs (.stall i) = true) (houtlets : ∀ i, cs
      (.outlet i) = true) (hsettingss : ∀ i, cs (.settings i) = true) (hbays : ∀ i, cs (.bay i) = true) (hmkt : cs .mkt = true) (hthm : cs .thm =
      true) (haux : cs .aux = true) (hmet : cs .met = true) (hsaf : cs .saf = true) (hrole : cs .role = true) (hpair : cs .pair = true) (hsbus : cs
      .sbus = true) (hvault : cs .vault = true) (hupd : cs .upd = true) (hqueues : cs .queues = true) (hldg : cs .ldg = true) (hmram : cs .mram =
      true) (h : OnlyIn cs s t) :
    OnlyIn cs s (State.activationBoot t) := by
  unfold State.activationBoot
  exact (State.resetNow_only hdraws hprof hlock hsums hanswer hviol hhost hassume hclk hpwr hrtc hlat hcapture hstl hlinks hsamples hstalls houtlets
        hsettingss hbays hmkt hthm haux hmet hsaf hrole hpair hsbus hvault hupd hqueues hldg hmram h)

theorem State.handoverLate_only {cs : Block → Bool} {s t : State} {a1} (hsums : cs .sums = true) (hupd : cs .upd = true) (h : OnlyIn cs s t) :
    OnlyIn cs s (State.handoverLate t a1) := by
  unfold State.handoverLate
  exact (OnlyIn.ite (State.updChange_only hsums (fun _ k0 => (State.setUpd_only hupd k0)) h) h)

theorem State.holdLockouts_only {cs : Block → Bool} {s t : State} (hlock : cs .lock = true) (hsaf : cs .saf = true) (hupd : cs .upd = true) (h :
      OnlyIn cs s t) :
    OnlyIn cs s (State.holdLockouts t) := by
  unfold State.holdLockouts
  extract_lets +onlyGivenNames -merge -underBinder x0
  exact (OnlyIn.mk h (.inr (by rfl)) (.inr (by rfl)) (.inr (by rfl)) (.inr (by rfl)) (.inr (by rfl)) (.inl hlock) ⟨.inr (by rfl), .inr (by rfl), .inr
        (by rfl), .inr (by rfl)⟩ (.inr (by rfl)) (.inr (by rfl)) (.inr (by rfl)) (.inr (by rfl)) (.inr (by rfl)) ⟨.inr (by rfl), .inr (by rfl)⟩ (.inr
        (by rfl)) (.inr (by rfl)) (.inr (by rfl)) (.inr (by rfl)) (.inr (by rfl)) (.inr (by rfl)) (.inl hsaf) ⟨.inr (by rfl), .inr (by rfl)⟩ (.inr
        (by rfl)) (.inr (by rfl)) (.inl hupd) ⟨.inr (by rfl), .inr (by rfl)⟩ (.inr (by rfl)))

theorem State.noteCal_only {cs : Block → Bool} {s t : State} (hrtc : cs .rtc = true) (h : OnlyIn cs s t) :
    OnlyIn cs s (State.noteCal t) := by
  unfold State.noteCal
  exact (OnlyIn.setRtc hrtc h)

theorem State.noteRaw_only {cs : Block → Bool} {s t : State} (hclk : cs .clk = true) (h : OnlyIn cs s t) :
    OnlyIn cs s (State.noteRaw t) := by
  unfold State.noteRaw
  exact (OnlyIn.setClk hclk h)

theorem State.resumeClocks_only {cs : Block → Bool} {s t : State} {a1} (hmt : cs .mt = true) (hsums : cs .sums = true) (hclk : cs .clk = true) (hrtc :
      cs .rtc = true) (hcapture : cs .capture = true) (hqueues : cs .queues = true) (h : OnlyIn cs s t) :
    OnlyIn cs s (State.resumeClocks t a1) := by
  unfold State.resumeClocks
  extract_lets +onlyGivenNames -merge -underBinder x0
  (try clear_value x0)
  extract_lets +onlyGivenNames -merge -underBinder x1
  (try clear_value x1)
  extract_lets +onlyGivenNames -merge -underBinder x2
  (try clear_value x2)
  extract_lets +onlyGivenNames -merge -underBinder x3
  (try clear_value x3)
  extract_lets +onlyGivenNames -merge -underBinder x4 x5
  have hx5 : OnlyIn cs s x5 := (OnlyIn.mk h (.inr (by rfl)) (.inl hmt) (.inr (by rfl)) (.inr (by rfl)) (.inr (by rfl)) (.inr (by rfl)) ⟨.inr (by rfl),
        .inr (by rfl), .inr (by rfl), .inr (by rfl)⟩ (.inr (by rfl)) (.inl hclk) (.inr (by rfl)) (.inl hrtc) (.inr (by rfl)) ⟨.inr (by rfl), .inr
        (by rfl)⟩ (.inr (by rfl)) (.inr (by rfl)) (.inr (by rfl)) (.inr (by rfl)) (.inr (by rfl)) (.inr (by rfl)) (.inr (by rfl)) ⟨.inr (by rfl), .inr
        (by rfl)⟩ (.inr (by rfl)) (.inr (by rfl)) (.inr (by rfl)) ⟨.inr (by rfl), .inr (by rfl)⟩ (.inr (by rfl)))
  (try clear_value x4)
  (try clear_value x5)
  exact (by split; (next => exact (OnlyIn.ite (State.log_only hsums hcapture hqueues (OnlyIn.setClk hclk hx5)) hx5)); (next => exact hx5))

theorem State.rstTakes_only {cs : Block → Bool} {s t : State} {a1} (hdraws : cs .draws = true) (h : OnlyIn cs s t) :
    OnlyIn cs s (State.rstTakes t a1).2 := by
  unfold State.rstTakes
  exact (OnlyIn.iteSnd (OnlyIn.pairSnd h) (OnlyIn.iteSnd (OnlyIn.pairSnd h) (OnlyIn.pairSnd (State.drawNat_only hdraws h))))

theorem State.saveTime_only {cs : Block → Bool} {s t : State} (hclk : cs .clk = true) (h : OnlyIn cs s t) :
    OnlyIn cs s (State.saveTime t) := by
  unfold State.saveTime
  exact (OnlyIn.setClk hclk h)

theorem State.skipLate_only {cs : Block → Bool} {s t : State} (hsums : cs .sums = true) (hcapture : cs .capture = true) (hupd : cs .upd = true)
      (hqueues : cs .queues = true) (h : OnlyIn cs s t) :
    OnlyIn cs s (State.skipLate t) := by
  unfold State.skipLate
  exact (OnlyIn.ite (State.activationEnds_only hsums hcapture hupd hqueues h) h)

theorem State.startActivation_only {cs : Block → Bool} {s t : State} (hdraws : cs .draws = true) (hprof : cs .prof = true) (hlock : cs .lock = true)
      (hsums : cs .sums = true) (hanswer : cs .answer = true) (hviol : cs .viol = true) (hhost : cs .host = true) (hassume : cs .assume = true) (hclk
      : cs .clk = true) (hpwr : cs .pwr = true) (hrtc : cs .rtc = true) (hlat : cs .lat = true) (hcapture : cs .capture = true) (hstl : cs .stl =
      true) (hlinks : ∀ i, cs (.link i) = true) (hsamples : ∀ i, cs (.sample i) = true) (hstalls : ∀ i, cs (.stall i) = true) (houtlets : ∀ i, cs
      (.outlet i) = true) (hsettingss : ∀ i, cs (.settings i) = true) (hbays : ∀ i, cs (.bay i) = true) (hmkt : cs .mkt = true) (hthm : cs .thm =
      true) (haux : cs .aux = true) (hmet : cs .met = true) (hsaf : cs .saf = true) (hrole : cs .role = true) (hpair : cs .pair = true) (hsbus : cs
      .sbus = true) (hvault : cs .vault = true) (hupd : cs .upd = true) (hqueues : cs .queues = true) (hldg : cs .ldg = true) (hmram : cs .mram =
      true) (h : OnlyIn cs s t) :
    OnlyIn cs s (State.startActivation t) := by
  unfold State.startActivation
  extract_lets +onlyGivenNames -merge -underBinder x0
  have hx0 : OnlyIn cs s x0 := (State.updChange_only hsums (fun _ k1 => (State.setUpd_only hupd k1)) h)
  (try clear_value x0)
  exact (OnlyIn.ite (OnlyIn.ite hx0 (State.activationBoot_only hdraws hprof hlock hsums hanswer hviol hhost hassume hclk hpwr hrtc hlat hcapture hstl
        hlinks hsamples hstalls houtlets hsettingss hbays hmkt hthm haux hmet hsaf hrole hpair hsbus hvault hupd hqueues hldg hmram hx0)) hx0)

theorem doActivationSkip_only {cs : Block → Bool} {s t : State} {a0} (hmt : cs .mt = true) (hsums : cs .sums = true) (hcapture : cs .capture = true)
      (hupd : cs .upd = true) (hqueues : cs .queues = true) (h : OnlyIn cs s t) :
    OnlyIn cs s (doActivationSkip a0 t) := by
  unfold doActivationSkip
  exact (whenLive_only hmt (fun _ k0 => (State.skipLate_only hsums hcapture hupd hqueues k0)) h)

theorem doBrownOut_only {cs : Block → Bool} {s t : State} {a0} (hmt : cs .mt = true) (hprof : cs .prof = true) (hlock : cs .lock = true) (hsums : cs
      .sums = true) (hanswer : cs .answer = true) (hviol : cs .viol = true) (hhost : cs .host = true) (hassume : cs .assume = true) (hclk : cs .clk =
      true) (hpwr : cs .pwr = true) (hrtc : cs .rtc = true) (hlat : cs .lat = true) (hcapture : cs .capture = true) (hstl : cs .stl = true) (hlinks :
      ∀ i, cs (.link i) = true) (hsamples : ∀ i, cs (.sample i) = true) (hstalls : ∀ i, cs (.stall i) = true) (houtlets : ∀ i, cs (.outlet i) = true)
      (hsettingss : ∀ i, cs (.settings i) = true) (hbays : ∀ i, cs (.bay i) = true) (hmkt : cs .mkt = true) (hthm : cs .thm = true) (haux : cs .aux =
      true) (hmet : cs .met = true) (hsaf : cs .saf = true) (hrole : cs .role = true) (hpair : cs .pair = true) (hsbus : cs .sbus = true) (hvault : cs
      .vault = true) (hupd : cs .upd = true) (hqueues : cs .queues = true) (hldg : cs .ldg = true) (h : OnlyIn cs s t) :
    OnlyIn cs s (doBrownOut a0 t) := by
  unfold doBrownOut
  extract_lets +onlyGivenNames -merge -underBinder x0
  have hx0 : OnlyIn cs s x0 := (State.elapse_only hmt h)
  (try clear_value x0)
  exact (OnlyIn.ite hx0
        (by extract_lets +onlyGivenNames -merge -underBinder x1; have hx1 : OnlyIn cs s x1 := (State.resetAsserted_only hprof hlock hsums hanswer hviol hhost hassume hclk hpwr hrtc hlat hcapture hstl hlinks hsamples hstalls houtlets hsettingss hbays hmkt hthm haux hmet hsaf hrole hpair hsbus hvault hupd hqueues hldg (State.noteCal_only hrtc (State.noteRaw_only hclk hx0))); (try clear_value x1); exact (OnlyIn.mk hx1 (.inr (by rfl)) (.inr (by rfl)) (.inr (by rfl)) (.inr (by rfl)) (.inr (by rfl)) (.inr (by rfl)) ⟨.inr (by rfl), .inr (by rfl), .inr (by rfl), .inr (by rfl)⟩ (.inl hassume) (.inl hclk) (.inl hpwr) (.inl hrtc) (.inr (by rfl)) ⟨.inr (by rfl), .inr (by rfl)⟩ (.inr (by rfl)) (.inr (by rfl)) (.inr (by rfl)) (.inr (by rfl)) (.inr (by rfl)) (.inr (by rfl)) (.inr (by rfl)) ⟨.inr (by rfl), .inr (by rfl)⟩ (.inr (by rfl)) (.inr (by rfl)) (.inr (by rfl)) ⟨.inr (by rfl), .inr (by rfl)⟩ (.inr (by rfl)))))

theorem doColdStart_only {cs : Block → Bool} {s t : State} {a0 a1 a2 a3} (hmt : cs .mt = true) (hdraws : cs .draws = true) (hprof : cs .prof = true)
      (hlock : cs .lock = true) (hsums : cs .sums = true) (hviol : cs .viol = true) (hassume : cs .assume = true) (hclk : cs .clk = true) (hpwr : cs
      .pwr = true) (hrtc : cs .rtc = true) (hlat : cs .lat = true) (hcapture : cs .capture = true) (hstl : cs .stl = true) (hlinks : ∀ i, cs (.link i)
      = true) (hsamples : ∀ i, cs (.sample i) = true) (hstalls : ∀ i, cs (.stall i) = true) (hbays : ∀ i, cs (.bay i) = true) (hmkt : cs .mkt = true)
      (hthm : cs .thm = true) (haux : cs .aux = true) (hmet : cs .met = true) (hsaf : cs .saf = true) (hrole : cs .role = true) (hpair : cs .pair =
      true) (hsbus : cs .sbus = true) (hvault : cs .vault = true) (hupd : cs .upd = true) (hqueues : cs .queues = true) (hldg : cs .ldg = true) (hmram
      : cs .mram = true) (h : OnlyIn cs s t) :
    OnlyIn cs s (doColdStart a0 a1 a2 a3 t) := by
  unfold doColdStart
  extract_lets +onlyGivenNames -merge -underBinder x0
  have hx0 : OnlyIn cs s x0 := (State.elapse_only hmt h)
  (try clear_value x0)
  exact (OnlyIn.ite
        (by extract_lets +onlyGivenNames -merge -underBinder x1; have hx1 : OnlyIn cs s x1 := (State.resumeClocks_only hmt hsums hclk hrtc hcapture hqueues hx0); (try clear_value x1); exact (State.startUp_only hdraws hprof hlock hsums hviol hassume hpwr hlat hcapture hstl hlinks hsamples hstalls hbays hmkt hthm haux hmet hsaf hrole hpair hsbus hvault hupd hqueues hldg hmram (OnlyIn.setPwr hpwr hx1)))
        hx0)

theorem doHandoverActivation_only {cs : Block → Bool} {s t : State} {a0} (hmt : cs .mt = true) (hdraws : cs .draws = true) (hprof : cs .prof = true)
      (hlock : cs .lock = true) (hsums : cs .sums = true) (hanswer : cs .answer = true) (hviol : cs .viol = true) (hhost : cs .host = true) (hassume :
      cs .assume = true) (hclk : cs .clk = true) (hpwr : cs .pwr = true) (hrtc : cs .rtc = true) (hlat : cs .lat = true) (hcapture : cs .capture =
      true) (hstl : cs .stl = true) (hlinks : ∀ i, cs (.link i) = true) (hsamples : ∀ i, cs (.sample i) = true) (hstalls : ∀ i, cs (.stall i) = true)
      (houtlets : ∀ i, cs (.outlet i) = true) (hsettingss : ∀ i, cs (.settings i) = true) (hbays : ∀ i, cs (.bay i) = true) (hmkt : cs .mkt = true)
      (hthm : cs .thm = true) (haux : cs .aux = true) (hmet : cs .met = true) (hsaf : cs .saf = true) (hrole : cs .role = true) (hpair : cs .pair =
      true) (hsbus : cs .sbus = true) (hvault : cs .vault = true) (hupd : cs .upd = true) (hqueues : cs .queues = true) (hldg : cs .ldg = true) (hmram
      : cs .mram = true) (h : OnlyIn cs s t) :
    OnlyIn cs s (doHandoverActivation a0 t) := by
  unfold doHandoverActivation
  exact (whenLive_only hmt (fun _ k0 =>
        (by extract_lets +onlyGivenNames -merge -underBinder x1; have hx1 : OnlyIn cs s x1 := (State.handoverLate_only hsums hupd k0); (try clear_value x1); exact (OnlyIn.ite (State.startActivation_only hdraws hprof hlock hsums hanswer hviol hhost hassume hclk hpwr hrtc hlat hcapture hstl hlinks hsamples hstalls houtlets hsettingss hbays hmkt hthm haux hmet hsaf hrole hpair hsbus hvault hupd hqueues hldg hmram hx1) hx1)))
        h)

theorem doHandoverActivationTimeout_only {cs : Block → Bool} {s t : State} {a0} (hmt : cs .mt = true) (hsums : cs .sums = true) (hupd : cs .upd =
      true) (h : OnlyIn cs s t) :
    OnlyIn cs s (doHandoverActivationTimeout a0 t) := by
  unfold doHandoverActivationTimeout
  exact (whenLive_only hmt (fun _ k0 => (State.handoverLate_only hsums hupd k0)) h)

theorem doInternalReset_only {cs : Block → Bool} {s t : State} {a0 a1 a2} (hmt : cs .mt = true) (hdraws : cs .draws = true) (hprof : cs .prof = true)
      (hlock : cs .lock = true) (hsums : cs .sums = true) (hanswer : cs .answer = true) (hviol : cs .viol = true) (hhost : cs .host = true) (hassume :
      cs .assume = true) (hclk : cs .clk = true) (hpwr : cs .pwr = true) (hrtc : cs .rtc = true) (hlat : cs .lat = true) (hcapture : cs .capture =
      true) (hstl : cs .stl = true) (hlinks : ∀ i, cs (.link i) = true) (hsamples : ∀ i, cs (.sample i) = true) (hstalls : ∀ i, cs (.stall i) = true)
      (houtlets : ∀ i, cs (.outlet i) = true) (hsettingss : ∀ i, cs (.settings i) = true) (hbays : ∀ i, cs (.bay i) = true) (hmkt : cs .mkt = true)
      (hthm : cs .thm = true) (haux : cs .aux = true) (hmet : cs .met = true) (hsaf : cs .saf = true) (hrole : cs .role = true) (hpair : cs .pair =
      true) (hsbus : cs .sbus = true) (hvault : cs .vault = true) (hupd : cs .upd = true) (hqueues : cs .queues = true) (hldg : cs .ldg = true) (hmram
      : cs .mram = true) (h : OnlyIn cs s t) :
    OnlyIn cs s (doInternalReset a0 a1 a2 t) := by
  unfold doInternalReset
  exact (whenLive_only hmt (fun _ k0 => (OnlyIn.ite (State.resetNow_only hdraws hprof hlock hsums hanswer hviol hhost hassume hclk hpwr hrtc hlat
        hcapture hstl hlinks hsamples hstalls houtlets hsettingss hbays hmkt hthm haux hmet hsaf hrole hpair hsbus hvault hupd hqueues hldg hmram k0)
        k0)) h)

theorem doLockstepDisagree_only {cs : Block → Bool} {s t : State} {a0 a1} (hmt : cs .mt = true) (hdraws : cs .draws = true) (hprof : cs .prof = true)
      (hlock : cs .lock = true) (hsums : cs .sums = true) (hanswer : cs .answer = true) (hviol : cs .viol = true) (hhost : cs .host = true) (hassume :
      cs .assume = true) (hclk : cs .clk = true) (hpwr : cs .pwr = true) (hrtc : cs .rtc = true) (hlat : cs .lat = true) (hcapture : cs .capture =
      true) (hstl : cs .stl = true) (hlinks : ∀ i, cs (.link i) = true) (hsamples : ∀ i, cs (.sample i) = true) (hstalls : ∀ i, cs (.stall i) = true)
      (houtlets : ∀ i, cs (.outlet i) = true) (hsettingss : ∀ i, cs (.settings i) = true) (hbays : ∀ i, cs (.bay i) = true) (hmkt : cs .mkt = true)
      (hthm : cs .thm = true) (haux : cs .aux = true) (hmet : cs .met = true) (hsaf : cs .saf = true) (hrole : cs .role = true) (hpair : cs .pair =
      true) (hsbus : cs .sbus = true) (hvault : cs .vault = true) (hupd : cs .upd = true) (hqueues : cs .queues = true) (hldg : cs .ldg = true) (hmram
      : cs .mram = true) (h : OnlyIn cs s t) :
    OnlyIn cs s (doLockstepDisagree a0 a1 t) := by
  unfold doLockstepDisagree
  exact (whenLive_only hmt (fun _ k0 => (State.resetNow_only hdraws hprof hlock hsums hanswer hviol hhost hassume hclk hpwr hrtc hlat hcapture hstl
        hlinks hsamples hstalls houtlets hsettingss hbays hmkt hthm haux hmet hsaf hrole hpair hsbus hvault hupd hqueues hldg hmram k0)) h)

theorem doMetrologyFwActivation_only {cs : Block → Bool} {s t : State} {a0} (hmt : cs .mt = true) (hsums : cs .sums = true) (hviol : cs .viol = true)
      (hcapture : cs .capture = true) (hmet : cs .met = true) (hvault : cs .vault = true) (hupd : cs .upd = true) (hqueues : cs .queues = true) (hmram
      : cs .mram = true) (h : OnlyIn cs s t) :
    OnlyIn cs s (doMetrologyFwActivation a0 t) := by
  unfold doMetrologyFwActivation
  exact (whenLive_only hmt (fun _ k0 => (OnlyIn.ite (State.installMet_only hsums hviol hcapture hmet hvault hupd hqueues hmram k0)
        (State.skipLate_only hsums hcapture hupd hqueues k0))) h)

theorem doReferenceLoss_only {cs : Block → Bool} {s t : State} {a0} (hmt : cs .mt = true) (hprof : cs .prof = true) (hlock : cs .lock = true) (hsums :
      cs .sums = true) (hanswer : cs .answer = true) (hviol : cs .viol = true) (hhost : cs .host = true) (hassume : cs .assume = true) (hclk : cs .clk
      = true) (hpwr : cs .pwr = true) (hrtc : cs .rtc = true) (hlat : cs .lat = true) (hcapture : cs .capture = true) (hstl : cs .stl = true) (hlinks
      : ∀ i, cs (.link i) = true) (hsamples : ∀ i, cs (.sample i) = true) (hstalls : ∀ i, cs (.stall i) = true) (houtlets : ∀ i, cs (.outlet i) =
      true) (hsettingss : ∀ i, cs (.settings i) = true) (hbays : ∀ i, cs (.bay i) = true) (hmkt : cs .mkt = true) (hthm : cs .thm = true) (haux : cs
      .aux = true) (hmet : cs .met = true) (hsaf : cs .saf = true) (hrole : cs .role = true) (hpair : cs .pair = true) (hsbus : cs .sbus = true)
      (hvault : cs .vault = true) (hupd : cs .upd = true) (hqueues : cs .queues = true) (hldg : cs .ldg = true) (h : OnlyIn cs s t) :
    OnlyIn cs s (doReferenceLoss a0 t) := by
  unfold doReferenceLoss
  extract_lets +onlyGivenNames -merge -underBinder x0
  have hx0 : OnlyIn cs s x0 := (State.elapse_only hmt h)
  (try clear_value x0)
  exact (OnlyIn.ite hx0
        (by extract_lets +onlyGivenNames -merge -underBinder x1; have hx1 : OnlyIn cs s x1 := (State.resetAsserted_only hprof hlock hsums hanswer hviol hhost hassume hclk hpwr hrtc hlat hcapture hstl hlinks hsamples hstalls houtlets hsettingss hbays hmkt hthm haux hmet hsaf hrole hpair hsbus hvault hupd hqueues hldg hx0); (try clear_value x1); exact (by extract_lets +onlyGivenNames -merge -underBinder x2 x3; (try clear_value x2); (try clear_value x3); exact (State.refreshAssume_only hsums hassume (State.bump_only hsums (State.gapAll_only hmet (OnlyIn.mk hx1 (.inr (by rfl)) (.inr (by rfl)) (.inr (by rfl)) (.inr (by rfl)) (.inr (by rfl)) (.inr (by rfl)) ⟨.inr (by rfl), .inr (by rfl), .inr (by rfl), .inr (by rfl)⟩ (.inr (by rfl)) (.inl hclk) (.inl hpwr) (.inr (by rfl)) (.inr (by rfl)) ⟨.inr (by rfl), .inr (by rfl)⟩ (.inr (by rfl)) (.inr (by rfl)) (.inr (by rfl)) (.inr (by rfl)) (.inr (by rfl)) (.inr (by rfl)) (.inr (by rfl)) ⟨.inr (by rfl), .inr (by rfl)⟩ (.inr (by rfl)) (.inr (by rfl)) (.inr (by rfl)) ⟨.inr (by rfl), .inr (by rfl)⟩ (.inr (by rfl)))))))))

theorem doReferenceRestored_only {cs : Block → Bool} {s t : State} {a0 a1} (hmt : cs .mt = true) (hdraws : cs .draws = true) (hprof : cs .prof = true)
      (hlock : cs .lock = true) (hsums : cs .sums = true) (hviol : cs .viol = true) (hassume : cs .assume = true) (hclk : cs .clk = true) (hpwr : cs
      .pwr = true) (hlat : cs .lat = true) (hcapture : cs .capture = true) (hstl : cs .stl = true) (hlinks : ∀ i, cs (.link i) = true) (hsamples : ∀
      i, cs (.sample i) = true) (hstalls : ∀ i, cs (.stall i) = true) (hbays : ∀ i, cs (.bay i) = true) (hmkt : cs .mkt = true) (hthm : cs .thm =
      true) (haux : cs .aux = true) (hmet : cs .met = true) (hsaf : cs .saf = true) (hrole : cs .role = true) (hpair : cs .pair = true) (hsbus : cs
      .sbus = true) (hvault : cs .vault = true) (hupd : cs .upd = true) (hqueues : cs .queues = true) (hldg : cs .ldg = true) (hmram : cs .mram =
      true) (h : OnlyIn cs s t) :
    OnlyIn cs s (doReferenceRestored a0 a1 t) := by
  unfold doReferenceRestored
  extract_lets +onlyGivenNames -merge -underBinder x0
  have hx0 : OnlyIn cs s x0 := (State.elapse_only hmt h)
  (try clear_value x0)
  exact (OnlyIn.ite
        (by extract_lets +onlyGivenNames -merge -underBinder x1 x2 x3; have hx3 : OnlyIn cs s x3 := (OnlyIn.mk hx0 (.inr (by rfl)) (.inr (by rfl)) (.inr (by rfl)) (.inr (by rfl)) (.inr (by rfl)) (.inr (by rfl)) ⟨.inr (by rfl), .inr (by rfl), .inr (by rfl), .inr (by rfl)⟩ (.inr (by rfl)) (.inl hclk) (.inl hpwr) (.inr (by rfl)) (.inr (by rfl)) ⟨.inr (by rfl), .inr (by rfl)⟩ (.inr (by rfl)) (.inr (by rfl)) (.inr (by rfl)) (.inr (by rfl)) (.inr (by rfl)) (.inr (by rfl)) (.inr (by rfl)) ⟨.inr (by rfl), .inr (by rfl)⟩ (.inr (by rfl)) (.inr (by rfl)) (.inr (by rfl)) ⟨.inr (by rfl), .inr (by rfl)⟩ (.inr (by rfl))); (try clear_value x1); (try clear_value x2); (try clear_value x3); exact (State.startAgain_only hdraws hprof hlock hsums hviol hassume hpwr hlat hcapture hstl hlinks hsamples hstalls hbays hmkt hthm haux hmet hsaf hrole hpair hsbus hvault hupd hqueues hldg hmram (State.bump_only hsums hx3)))
        hx0)

theorem doResetKey_only {cs : Block → Bool} {s t : State} {a0 a1 a2 a3} (hmt : cs .mt = true) (hdraws : cs .draws = true) (hprof : cs .prof = true)
      (hlock : cs .lock = true) (hsums : cs .sums = true) (hanswer : cs .answer = true) (hviol : cs .viol = true) (hhost : cs .host = true) (hassume :
      cs .assume = true) (hclk : cs .clk = true) (hpwr : cs .pwr = true) (hrtc : cs .rtc = true) (hlat : cs .lat = true) (hcapture : cs .capture =
      true) (hstl : cs .stl = true) (hlinks : ∀ i, cs (.link i) = true) (hsamples : ∀ i, cs (.sample i) = true) (hstalls : ∀ i, cs (.stall i) = true)
      (houtlets : ∀ i, cs (.outlet i) = true) (hsettingss : ∀ i, cs (.settings i) = true) (hbays : ∀ i, cs (.bay i) = true) (hmkt : cs .mkt = true)
      (hthm : cs .thm = true) (haux : cs .aux = true) (hmet : cs .met = true) (hsaf : cs .saf = true) (hrole : cs .role = true) (hpair : cs .pair =
      true) (hsbus : cs .sbus = true) (hvault : cs .vault = true) (hupd : cs .upd = true) (hqueues : cs .queues = true) (hldg : cs .ldg = true) (hmram
      : cs .mram = true) (h : OnlyIn cs s t) :
    OnlyIn cs s (doResetKey a0 a1 a2 a3 t) := by
  unfold doResetKey
  exact (whenLive_only hmt (fun _ k0 => (State.command_only hsums hanswer hviol hcapture hqueues (fun _ k1 => (State.resetNow_only hdraws hprof hlock
        hsums hanswer hviol hhost hassume hclk hpwr hrtc hlat hcapture hstl hlinks hsamples hstalls houtlets hsettingss hbays hmkt hthm haux hmet hsaf
        hrole hpair hsbus hvault hupd hqueues hldg hmram k1)) k0)) h)

theorem doRstN_only {cs : Block → Bool} {s t : State} {a0 a1 a2} (hmt : cs .mt = true) (hdraws : cs .draws = true) (hprof : cs .prof = true) (hlock :
      cs .lock = true) (hsums : cs .sums = true) (hanswer : cs .answer = true) (hviol : cs .viol = true) (hhost : cs .host = true) (hassume : cs
      .assume = true) (hclk : cs .clk = true) (hpwr : cs .pwr = true) (hrtc : cs .rtc = true) (hlat : cs .lat = true) (hcapture : cs .capture = true)
      (hstl : cs .stl = true) (hlinks : ∀ i, cs (.link i) = true) (hsamples : ∀ i, cs (.sample i) = true) (hstalls : ∀ i, cs (.stall i) = true)
      (houtlets : ∀ i, cs (.outlet i) = true) (hsettingss : ∀ i, cs (.settings i) = true) (hbays : ∀ i, cs (.bay i) = true) (hmkt : cs .mkt = true)
      (hthm : cs .thm = true) (haux : cs .aux = true) (hmet : cs .met = true) (hsaf : cs .saf = true) (hrole : cs .role = true) (hpair : cs .pair =
      true) (hsbus : cs .sbus = true) (hvault : cs .vault = true) (hupd : cs .upd = true) (hqueues : cs .queues = true) (hldg : cs .ldg = true) (hmram
      : cs .mram = true) (h : OnlyIn cs s t) :
    OnlyIn cs s (doRstN a0 a1 a2 t) := by
  unfold doRstN
  extract_lets +onlyGivenNames -merge -underBinder x0
  have hx0 : OnlyIn cs s x0.2 := (State.rstTakes_only hdraws (State.elapse_only hmt h))
  (try clear_value x0)
  extract_lets +onlyGivenNames -merge -underBinder x1
  have hx1 : OnlyIn cs s x1 := hx0
  (try clear_value x1)
  exact (OnlyIn.ite hx1 (OnlyIn.ite (State.resetNow_only hdraws hprof hlock hsums hanswer hviol hhost hassume hclk hpwr hrtc hlat hcapture hstl hlinks
        hsamples hstalls houtlets hsettingss hbays hmkt hthm haux hmet hsaf hrole hpair hsbus hvault hupd hqueues hldg hmram hx1)
        (by extract_lets +onlyGivenNames -merge -underBinder x2; have hx2 : OnlyIn cs s x2 := (State.takePins_only hprof hsums hcapture hpair hvault hqueues (State.resetAsserted_only hprof hlock hsums hanswer hviol hhost hassume hclk hpwr hrtc hlat hcapture hstl hlinks hsamples hstalls houtlets hsettingss hbays hmkt hthm haux hmet hsaf hrole hpair hsbus hvault hupd hqueues hldg hx1)); (try clear_value x2); exact (OnlyIn.setPwr hpwr hx2))))

theorem doScheduledActivation_only {cs : Block → Bool} {s t : State} {a0} (hmt : cs .mt = true) (hdraws : cs .draws = true) (hprof : cs .prof = true)
      (hlock : cs .lock = true) (hsums : cs .sums = true) (hanswer : cs .answer = true) (hviol : cs .viol = true) (hhost : cs .host = true) (hassume :
      cs .assume = true) (hclk : cs .clk = true) (hpwr : cs .pwr = true) (hrtc : cs .rtc = true) (hlat : cs .lat = true) (hcapture : cs .capture =
      true) (hstl : cs .stl = true) (hlinks : ∀ i, cs (.link i) = true) (hsamples : ∀ i, cs (.sample i) = true) (hstalls : ∀ i, cs (.stall i) = true)
      (houtlets : ∀ i, cs (.outlet i) = true) (hsettingss : ∀ i, cs (.settings i) = true) (hbays : ∀ i, cs (.bay i) = true) (hmkt : cs .mkt = true)
      (hthm : cs .thm = true) (haux : cs .aux = true) (hmet : cs .met = true) (hsaf : cs .saf = true) (hrole : cs .role = true) (hpair : cs .pair =
      true) (hsbus : cs .sbus = true) (hvault : cs .vault = true) (hupd : cs .upd = true) (hqueues : cs .queues = true) (hldg : cs .ldg = true) (hmram
      : cs .mram = true) (h : OnlyIn cs s t) :
    OnlyIn cs s (doScheduledActivation a0 t) := by
  unfold doScheduledActivation
  exact (whenLive_only hmt (fun _ k0 => (OnlyIn.ite (State.startActivation_only hdraws hprof hlock hsums hanswer hviol hhost hassume hclk hpwr hrtc
        hlat hcapture hstl hlinks hsamples hstalls houtlets hsettingss hbays hmkt hthm haux hmet hsaf hrole hpair hsbus hvault hupd hqueues hldg hmram
        k0) (State.skipLate_only hsums hcapture hupd hqueues k0))) h)

theorem doVbatDomainLoss_only {cs : Block → Bool} {s t : State} {a0} (hmt : cs .mt = true) (hdraws : cs .draws = true) (hclk : cs .clk = true) (hrtc :
      cs .rtc = true) (hvault : cs .vault = true) (h : OnlyIn cs s t) :
    OnlyIn cs s (doVbatDomainLoss a0 t) := by
  unfold doVbatDomainLoss
  extract_lets +onlyGivenNames -merge -underBinder x0
  have hx0 : OnlyIn cs s x0 := (State.elapse_only hmt h)
  (try clear_value x0)
  exact (OnlyIn.ite
        (by extract_lets +onlyGivenNames -merge -underBinder x1; have hx1 : OnlyIn cs s x1.2 := (State.drawBytes_only hdraws hx0); (try clear_value x1); exact (by extract_lets +onlyGivenNames -merge -underBinder x2; have hx2 : OnlyIn cs s x2 := hx1; (try clear_value x2); exact (OnlyIn.mk hx2 (.inr (by rfl)) (.inr (by rfl)) (.inr (by rfl)) (.inr (by rfl)) (.inr (by rfl)) (.inr (by rfl)) ⟨.inr (by rfl), .inr (by rfl), .inr (by rfl), .inr (by rfl)⟩ (.inr (by rfl)) (.inl hclk) (.inr (by rfl)) (.inl hrtc) (.inr (by rfl)) ⟨.inr (by rfl), .inr (by rfl)⟩ (.inr (by rfl)) (.inr (by rfl)) (.inr (by rfl)) (.inr (by rfl)) (.inr (by rfl)) (.inr (by rfl)) (.inr (by rfl)) ⟨.inr (by rfl), .inr (by rfl)⟩ (.inr (by rfl)) (.inl hvault) (.inr (by rfl)) ⟨.inr (by rfl), .inr (by rfl)⟩ (.inr (by rfl)))))
        hx0)

theorem doWatchdog_only {cs : Block → Bool} {s t : State} {a0 a1} (hmt : cs .mt = true) (hdraws : cs .draws = true) (hprof : cs .prof = true) (hlock :
      cs .lock = true) (hsums : cs .sums = true) (hanswer : cs .answer = true) (hviol : cs .viol = true) (hhost : cs .host = true) (hassume : cs
      .assume = true) (hclk : cs .clk = true) (hpwr : cs .pwr = true) (hrtc : cs .rtc = true) (hlat : cs .lat = true) (hcapture : cs .capture = true)
      (hstl : cs .stl = true) (hlinks : ∀ i, cs (.link i) = true) (hsamples : ∀ i, cs (.sample i) = true) (hstalls : ∀ i, cs (.stall i) = true)
      (houtlets : ∀ i, cs (.outlet i) = true) (hsettingss : ∀ i, cs (.settings i) = true) (hbays : ∀ i, cs (.bay i) = true) (hmkt : cs .mkt = true)
      (hthm : cs .thm = true) (haux : cs .aux = true) (hmet : cs .met = true) (hsaf : cs .saf = true) (hrole : cs .role = true) (hpair : cs .pair =
      true) (hsbus : cs .sbus = true) (hvault : cs .vault = true) (hupd : cs .upd = true) (hqueues : cs .queues = true) (hldg : cs .ldg = true) (hmram
      : cs .mram = true) (h : OnlyIn cs s t) :
    OnlyIn cs s (doWatchdog a0 a1 t) := by
  unfold doWatchdog
  exact (whenLive_only hmt (fun _ k0 => (State.resetNow_only hdraws hprof hlock hsums hanswer hviol hhost hassume hclk hpwr hrtc hlat hcapture hstl
        hlinks hsamples hstalls houtlets hsettingss hbays hmkt hthm haux hmet hsaf hrole hpair hsbus hvault hupd hqueues hldg hmram k0)) h)

theorem State.setRtc_only {cs : Block → Bool} {s t : State} {a1} (hrtc : cs .rtc = true) (h : OnlyIn cs s t) :
    OnlyIn cs s (State.setRtc t a1) := by
  unfold State.setRtc
  exact (OnlyIn.setRtc hrtc h)

theorem State.stepCalendar_only {cs : Block → Bool} {s t : State} {a1} (hsums : cs .sums = true) (hrtc : cs .rtc = true) (hcapture : cs .capture =
      true) (hqueues : cs .queues = true) (h : OnlyIn cs s t) :
    OnlyIn cs s (State.stepCalendar t a1) := by
  unfold State.stepCalendar
  extract_lets +onlyGivenNames -merge -underBinder x0
  (try clear_value x0)
  extract_lets +onlyGivenNames -merge -underBinder x1
  have hx1 : OnlyIn cs s x1 := (State.setRtc_only hrtc h)
  (try clear_value x1)
  exact (State.log_only hsums hcapture hqueues hx1)

theorem State.applyCalendar_only {cs : Block → Bool} {s t : State} {a1 a2} (hsums : cs .sums = true) (hrtc : cs .rtc = true) (hcapture : cs .capture =
      true) (hqueues : cs .queues = true) (h : OnlyIn cs s t) :
    OnlyIn cs s (State.applyCalendar t a1 a2) := by
  unfold State.applyCalendar
  exact (State.setRtc_only hrtc (State.stepCalendar_only hsums hrtc hcapture hqueues h))

theorem State.applyVbat_only {cs : Block → Bool} {s t : State} (hclk : cs .clk = true) (h : OnlyIn cs s t) :
    OnlyIn cs s (State.applyVbat t) := by
  unfold State.applyVbat
  exact (OnlyIn.setClk hclk h)

theorem State.delayReq_only {cs : Block → Bool} {s t : State} (hhost : cs .host = true) (hrtc : cs .rtc = true) (h : OnlyIn cs s t) :
    OnlyIn cs s (State.delayReq t) := by
  unfold State.delayReq
  extract_lets +onlyGivenNames -merge -underBinder x0
  (try clear_value x0)
  extract_lets +onlyGivenNames -merge -underBinder x1
  (try clear_value x1)
  exact (State.setHost_only ⟨.inr (by rfl), .inr (by rfl), .inr (by rfl), .inl hhost⟩ (State.setRtc_only hrtc h))

theorem State.setPwr_only {cs : Block → Bool} {s t : State} {a1} (hpwr : cs .pwr = true) (h : OnlyIn cs s t) :
    OnlyIn cs s (State.setPwr t a1) := by
  unfold State.setPwr
  exact (OnlyIn.setPwr hpwr h)

theorem State.dormantRelease_only {cs : Block → Bool} {s t : State} (hprof : cs .prof = true) (hsums : cs .sums = true) (hclk : cs .clk = true) (hpwr
      : cs .pwr = true) (hlat : cs .lat = true) (hcapture : cs .capture = true) (hlinks : ∀ i, cs (.link i) = true) (hsamples : ∀ i, cs (.sample i) =
      true) (hstalls : ∀ i, cs (.stall i) = true) (houtlets : ∀ i, cs (.outlet i) = true) (hbays : ∀ i, cs (.bay i) = true) (hmkt : cs .mkt = true)
      (haux : cs .aux = true) (hmet : cs .met = true) (hsaf : cs .saf = true) (hrole : cs .role = true) (hpair : cs .pair = true) (hsbus : cs .sbus =
      true) (hqueues : cs .queues = true) (hmram : cs .mram = true) (h : OnlyIn cs s t) :
    OnlyIn cs s (State.dormantRelease t) := by
  unfold State.dormantRelease
  extract_lets +onlyGivenNames -merge -underBinder x0
  have hx0 : OnlyIn cs s x0 := (State.forAll_only (fun _ _ k1 => (State.linkOff_only hsums (hlinks _) k1)) h)
  (try clear_value x0)
  extract_lets +onlyGivenNames -merge -underBinder x2
  have hx2 : OnlyIn cs s x2 := (State.allOff_only hsums hsaf (State.auxFailAll_only haux hx0))
  (try clear_value x2)
  extract_lets +onlyGivenNames -merge -underBinder x3
  have hx3 : OnlyIn cs s x3 := (State.saveTime_only hclk (State.metStop_only hmet hmram (State.releaseActive_only hprof hsums hlat hcapture hlinks
        hsamples hstalls houtlets hbays hmkt hsaf hrole hpair hsbus hqueues hx2)))
  (try clear_value x3)
  exact (State.setPwr_only hpwr hx3)

theorem State.enterDormant_only {cs : Block → Bool} {s t : State} (hsums : cs .sums = true) (hpwr : cs .pwr = true) (hsbus : cs .sbus = true) (h :
      OnlyIn cs s t) :
    OnlyIn cs s (State.enterDormant t) := by
  unfold State.enterDormant
  extract_lets +onlyGivenNames -merge -underBinder x0
  have hx0 : OnlyIn cs s x0 := (State.bump_only hsums (State.setPwr_only hpwr h))
  (try clear_value x0)
  exact (OnlyIn.ite hx0 (OnlyIn.ite (State.busState_only hsums hsbus hx0) (OnlyIn.ite (State.setBus_only hsbus hx0) (State.startSleep_only hsums hsbus
        (State.setBus_only hsbus hx0)))))

theorem State.dormantWrite_only {cs : Block → Bool} {s t : State} (hsums : cs .sums = true) (hpwr : cs .pwr = true) (hsbus : cs .sbus = true) (h :
      OnlyIn cs s t) :
    OnlyIn cs s (State.dormantWrite t).1 := by
  unfold State.dormantWrite
  exact (OnlyIn.iteFst (OnlyIn.pairFst h) (OnlyIn.iteFst (OnlyIn.pairFst (State.enterDormant_only hsums hpwr hsbus h)) (OnlyIn.pairFst
        (State.bumpIf_only hsums (State.setPwr_only hpwr h)))))

theorem State.setClk_only {cs : Block → Bool} {s t : State} {a1} (hclk : cs .clk = true) (h : OnlyIn cs s t) :
    OnlyIn cs s (State.setClk t a1) := by
  unfold State.setClk
  exact (OnlyIn.setClk hclk h)

theorem State.leaveDormant_only {cs : Block → Bool} {s t : State} {a1} (hlock : cs .lock = true) (hclk : cs .clk = true) (hpwr : cs .pwr = true) (hrtc
      : cs .rtc = true) (hcapture : cs .capture = true) (hstl : cs .stl = true) (hmet : cs .met = true) (hsaf : cs .saf = true) (hupd : cs .upd =
      true) (h : OnlyIn cs s t) :
    OnlyIn cs s (State.leaveDormant t a1) := by
  unfold State.leaveDormant
  extract_lets +onlyGivenNames -merge -underBinder x0
  have hx0 : OnlyIn cs s x0 := (State.setClk_only hclk h)
  (try clear_value x0)
  extract_lets +onlyGivenNames -merge -underBinder x1
  have hx1 : OnlyIn cs s x1 := (State.setPwr_only hpwr hx0)
  (try clear_value x1)
  extract_lets +onlyGivenNames -merge -underBinder x2
  have hx2 : OnlyIn cs s x2 := (State.setRtc_only hrtc (State.noteCal_only hrtc (State.resumeLockouts_only hlock hsaf hupd hx1)))
  (try clear_value x2)
  extract_lets +onlyGivenNames -merge -underBinder x3 x4
  have hx4 : OnlyIn cs s x4 := (OnlyIn.setMet hmet hx2)
  (try clear_value x3)
  (try clear_value x4)
  exact (OnlyIn.ite (OnlyIn.setStl ⟨.inl hcapture, .inl hstl⟩ hx4) hx4)

theorem State.ptpStep_only {cs : Block → Bool} {s t : State} {a1} (hsums : cs .sums = true) (hrtc : cs .rtc = true) (hcapture : cs .capture = true)
      (hqueues : cs .queues = true) (h : OnlyIn cs s t) :
    OnlyIn cs s (State.ptpStep t a1) := by
  unfold State.ptpStep
  extract_lets +onlyGivenNames -merge -underBinder x0
  (try clear_value x0)
  exact (State.setRtc_only hrtc (State.stepCalendar_only hsums hrtc hcapture hqueues h))

theorem State.ptpSlew_only {cs : Block → Bool} {s t : State} {a1} (hdraws : cs .draws = true) (hrtc : cs .rtc = true) (h : OnlyIn cs s t) :
    OnlyIn cs s (State.ptpSlew t a1) := by
  unfold State.ptpSlew
  extract_lets +onlyGivenNames -merge -underBinder x0
  have hx0 : OnlyIn cs s x0.2 := (State.drawNat_only hdraws h)
  (try clear_value x0)
  extract_lets +onlyGivenNames -merge -underBinder x1
  (try clear_value x1)
  exact (State.setRtc_only hrtc (State.noteCal_only hrtc hx0))

theorem State.ptpExchange_only {cs : Block → Bool} {s t : State} {a1} (hdraws : cs .draws = true) (hsums : cs .sums = true) (hrtc : cs .rtc = true)
      (hcapture : cs .capture = true) (hqueues : cs .queues = true) (h : OnlyIn cs s t) :
    OnlyIn cs s (State.ptpExchange t a1) := by
  unfold State.ptpExchange
  extract_lets +onlyGivenNames -merge -underBinder x0
  (try clear_value x0)
  extract_lets +onlyGivenNames -merge -underBinder x1
  have hx1 : OnlyIn cs s x1 :=
        (by unfold x1; exact (OnlyIn.ite (State.ptpStep_only hsums hrtc hcapture hqueues h) (State.ptpSlew_only hdraws hrtc h)))
  (try clear_value x1)
  extract_lets +onlyGivenNames -merge -underBinder x2
  (try clear_value x2)
  extract_lets +onlyGivenNames -merge -underBinder x3
  have hx3 : OnlyIn cs s x3 := (State.setRtc_only hrtc hx1)
  (try clear_value x3)
  exact (State.bumpIf_only hsums hx3)

theorem State.pwrCtrlWrite_only {cs : Block → Bool} {s t : State} {a1 a2} (hdraws : cs .draws = true) (hprof : cs .prof = true) (hlock : cs .lock =
      true) (hsums : cs .sums = true) (hanswer : cs .answer = true) (hviol : cs .viol = true) (hhost : cs .host = true) (hassume : cs .assume = true)
      (hclk : cs .clk = true) (hpwr : cs .pwr = true) (hrtc : cs .rtc = true) (hlat : cs .lat = true) (hcapture : cs .capture = true) (hstl : cs .stl
      = true) (hlinks : ∀ i, cs (.link i) = true) (hsamples : ∀ i, cs (.sample i) = true) (hstalls : ∀ i, cs (.stall i) = true) (houtlets : ∀ i, cs
      (.outlet i) = true) (hsettingss : ∀ i, cs (.settings i) = true) (hbays : ∀ i, cs (.bay i) = true) (hmkt : cs .mkt = true) (hthm : cs .thm =
      true) (haux : cs .aux = true) (hmet : cs .met = true) (hsaf : cs .saf = true) (hrole : cs .role = true) (hpair : cs .pair = true) (hsbus : cs
      .sbus = true) (hvault : cs .vault = true) (hupd : cs .upd = true) (hqueues : cs .queues = true) (hldg : cs .ldg = true) (hmram : cs .mram =
      true) (h : OnlyIn cs s t) :
    OnlyIn cs s (State.pwrCtrlWrite t a1 a2).1 := by
  unfold State.pwrCtrlWrite
  extract_lets +onlyGivenNames -merge -underBinder x0
  (try clear_value x0)
  exact (OnlyIn.iteFst
        (by split; (next => exact (OnlyIn.pairFst h)); (next => exact (OnlyIn.pairFst (State.resetNow_only hdraws hprof hlock hsums hanswer hviol hhost hassume hclk hpwr hrtc hlat hcapture hstl hlinks hsamples hstalls houtlets hsettingss hbays hmkt hthm haux hmet hsaf hrole hpair hsbus hvault hupd hqueues hldg hmram h))))
        (by extract_lets +onlyGivenNames -merge -underBinder x1; have hx1 : OnlyIn cs s x1.1 := (by unfold x1; exact (OnlyIn.iteFst (OnlyIn.pairFst h) (OnlyIn.iteFst (State.dormantWrite_only hsums hpwr hsbus h) (OnlyIn.pairFst h)))); (try clear_value x1); exact (OnlyIn.iteFst (OnlyIn.pairFst (State.setPwr_only hpwr hx1)) hx1)))

theorem State.readCalendar_only {cs : Block → Bool} {s t : State} {a1} (hhost : cs .host = true) (h : OnlyIn cs s t) :
    OnlyIn cs s (State.readCalendar t a1).2 := by
  unfold State.readCalendar
  exact (OnlyIn.pairSnd (State.setLatch_only hhost h))

theorem State.readRaw_only {cs : Block → Bool} {s t : State} {a1 a2} (hhost : cs .host = true) (h : OnlyIn cs s t) :
    OnlyIn cs s (State.readRaw t a1 a2).2 := by
  unfold State.readRaw
  exact (OnlyIn.iteSnd (by split; (next => exact (OnlyIn.pairSnd h)); (next => exact (OnlyIn.pairSnd h))) (OnlyIn.pairSnd (State.setLatch_only hhost
        h)))

theorem State.readTime_only {cs : Block → Bool} {s t : State} {m high} (hhost : cs .host = true) (h : OnlyIn cs s t) :
    OnlyIn cs s (t.readTime m high).2.2 := by
  unfold State.readTime
  split
  · split <;> exact h
  · dsimp only
    exact State.setLatch_only hhost h


theorem State.takeMaster_only {cs : Block → Bool} {s t : State} {a1} (hsums : cs .sums = true) (hrtc : cs .rtc = true) (h : OnlyIn cs s t) :
    OnlyIn cs s (State.takeMaster t a1) := by
  unfold State.takeMaster
  extract_lets +onlyGivenNames -merge -underBinder x0
  (try clear_value x0)
  extract_lets +onlyGivenNames -merge -underBinder x1
  (try clear_value x1)
  extract_lets +onlyGivenNames -merge -underBinder x2
  have hx2 : OnlyIn cs s x2 := (State.setRtc_only hrtc h)
  (try clear_value x2)
  extract_lets +onlyGivenNames -merge -underBinder x3
  have hx3 : OnlyIn cs s x3 := (by unfold x3; exact (OnlyIn.ite (State.setRtc_only hrtc hx2) hx2))
  (try clear_value x3)
  exact (State.bumpIf_only hsums hx3)

theorem State.wakeAux_only {cs : Block → Bool} {s t : State} (haux : cs .aux = true) (h : OnlyIn cs s t) :
    OnlyIn cs s (State.wakeAux t) := by
  unfold State.wakeAux
  exact (OnlyIn.setAux haux h)

theorem State.wakeMeter_only {cs : Block → Bool} {s t : State} {a1} (hsums : cs .sums = true) (hcapture : cs .capture = true) (hmet : cs .met = true)
      (hqueues : cs .queues = true) (h : OnlyIn cs s t) :
    OnlyIn cs s (State.wakeMeter t a1) := by
  unfold State.wakeMeter
  exact (OnlyIn.ite (State.metRestart_only hsums hcapture hmet hqueues h) (OnlyIn.ite h (State.metResume_only hmet h)))

theorem State.wakeSlot_only {cs : Block → Bool} {s t : State} {a1} (hdraws : cs .draws = true) (hprof : cs .prof = true) (hsums : cs .sums = true)
      (hviol : cs .viol = true) (hpwr : cs .pwr = true) (hlat : cs .lat = true) (hcapture : cs .capture = true) (hstl : cs .stl = true) (hlinks : ∀ i,
      cs (.link i) = true) (hsamples : ∀ i, cs (.sample i) = true) (hstalls : ∀ i, cs (.stall i) = true) (hbays : ∀ i, cs (.bay i) = true) (hmkt : cs
      .mkt = true) (hthm : cs .thm = true) (hmet : cs .met = true) (hsaf : cs .saf = true) (hpair : cs .pair = true) (hsbus : cs .sbus = true) (hvault
      : cs .vault = true) (hqueues : cs .queues = true) (hmram : cs .mram = true) (h : OnlyIn cs s t) :
    OnlyIn cs s (State.wakeSlot t a1) := by
  unfold State.wakeSlot
  exact
        (by split; (next => exact (State.bootCheck_only hdraws hprof hsums hviol hpwr hlat hcapture hstl hlinks hsamples hstalls hbays hmkt hthm hmet hsaf hpair hsbus hvault hqueues hmram (State.slotSt_only hprof hsums (OnlyIn.setProf hprof h)))); (next => exact h))

theorem State.wakeUp_only {cs : Block → Bool} {s t : State} {a1 a2 a3} (hdraws : cs .draws = true) (hprof : cs .prof = true) (hlock : cs .lock = true)
      (hsums : cs .sums = true) (hviol : cs .viol = true) (hassume : cs .assume = true) (hclk : cs .clk = true) (hpwr : cs .pwr = true) (hrtc : cs
      .rtc = true) (hlat : cs .lat = true) (hcapture : cs .capture = true) (hstl : cs .stl = true) (hlinks : ∀ i, cs (.link i) = true) (hsamples : ∀
      i, cs (.sample i) = true) (hstalls : ∀ i, cs (.stall i) = true) (hbays : ∀ i, cs (.bay i) = true) (hmkt : cs .mkt = true) (hthm : cs .thm =
      true) (haux : cs .aux = true) (hmet : cs .met = true) (hsaf : cs .saf = true) (hrole : cs .role = true) (hpair : cs .pair = true) (hsbus : cs
      .sbus = true) (hvault : cs .vault = true) (hupd : cs .upd = true) (hqueues : cs .queues = true) (hmram : cs .mram = true) (h : OnlyIn cs s t) :
    OnlyIn cs s (State.wakeUp t a1 a2 a3) := by
  unfold State.wakeUp
  extract_lets +onlyGivenNames -merge -underBinder x0
  have hx0 : OnlyIn cs s x0 := (by unfold x0; exact (OnlyIn.ite (State.leaveDormant_only hlock hclk hpwr hrtc hcapture hstl hmet hsaf hupd h) h))
  (try clear_value x0)
  extract_lets +onlyGivenNames -merge -underBinder x1
  have hx1 : OnlyIn cs s x1 := (State.bump_only hsums (State.setPwr_only hpwr hx0))
  (try clear_value x1)
  extract_lets +onlyGivenNames -merge -underBinder x2
  have hx2 : OnlyIn cs s x2 := (State.wakeSlot_only hdraws hprof hsums hviol hpwr hlat hcapture hstl hlinks hsamples hstalls hbays hmkt hthm hmet hsaf
        hpair hsbus hvault hqueues hmram (State.wakeAux_only haux (State.busWakes_only hsums hsbus (State.wakeMeter_only hsums hcapture hmet hqueues
        hx1))))
  (try clear_value x2)
  extract_lets +onlyGivenNames -merge -underBinder x3
  have hx3 : OnlyIn cs s x3 := (by unfold x3; exact (OnlyIn.ite hx2 (State.startRole_only hsums hassume hcapture hrole hpair hsbus hqueues hx2)))
  (try clear_value x3)
  exact (State.refreshAssume_only hsums hassume hx3)

theorem clkWrite_eff {cs : Block → Bool} {a0 a1 a2 a3} (hsums : cs .sums = true) (hclk : cs .clk = true) (hpwr : cs .pwr = true) (hrtc : cs .rtc =
      true) (hcapture : cs .capture = true) (hqueues : cs .queues = true) :
    EffsIn cs (clkWrite a0 a1 a2 a3) := by
  unfold clkWrite
  exact
        (by split; (next => exact (EffsIn.some (EffIn.mk (fun z1 _ k0 => (OnlyIn.ite (State.bumpIf_only hsums (State.setClk_only hclk k0)) k0))))); (next => exact (EffsIn.some (EffIn.mk (fun z3 _ k2 => (OnlyIn.ite (State.setClk_only hclk k2) k2))))); (next => exact (EffsIn.some roWord_eff)); (next => exact (EffsIn.some roWord_eff)); (next => exact (EffsIn.some (EffIn.mk (fun z5 _ k4 => (State.setPwr_only hpwr k4))))); (next => exact (EffsIn.some roWord_eff)); (next => exact (EffsIn.some (EffIn.mk (fun z7 _ k6 => (State.setRtc_only hrtc k6))))); (next => exact (EffsIn.ite (EffsIn.some (EffIn.mk (fun z9 _ k8 => (State.applyCalendar_only hsums hrtc hcapture hqueues k8)))) (EffsIn.some (EffIn.mk (fun z11 _ k10 => (State.setRtc_only hrtc k10)))))); (next => exact (EffsIn.some (EffIn.mk (fun z13 _ k12 => (State.setRtc_only hrtc k12))))); (next => exact (EffsIn.some (EffIn.mk (fun z15 _ k14 => (State.setRtc_only hrtc k14))))); (next => exact (EffsIn.some roWord_eff)); (next => exact (EffsIn.some roWord_eff)); (next => exact (EffsIn.map fun _ => roWord_eff)))

theorem doDormantWake_only {cs : Block → Bool} {s t : State} {a0 a1} (hmt : cs .mt = true) (hdraws : cs .draws = true) (hprof : cs .prof = true)
      (hlock : cs .lock = true) (hsums : cs .sums = true) (hviol : cs .viol = true) (hassume : cs .assume = true) (hclk : cs .clk = true) (hpwr : cs
      .pwr = true) (hrtc : cs .rtc = true) (hlat : cs .lat = true) (hcapture : cs .capture = true) (hstl : cs .stl = true) (hlinks : ∀ i, cs (.link i)
      = true) (hsamples : ∀ i, cs (.sample i) = true) (hstalls : ∀ i, cs (.stall i) = true) (hbays : ∀ i, cs (.bay i) = true) (hmkt : cs .mkt = true)
      (hthm : cs .thm = true) (haux : cs .aux = true) (hmet : cs .met = true) (hsaf : cs .saf = true) (hrole : cs .role = true) (hpair : cs .pair =
      true) (hsbus : cs .sbus = true) (hvault : cs .vault = true) (hupd : cs .upd = true) (hqueues : cs .queues = true) (hmram : cs .mram = true) (h :
      OnlyIn cs s t) :
    OnlyIn cs s (doDormantWake a0 a1 t) := by
  unfold doDormantWake
  extract_lets +onlyGivenNames -merge -underBinder x0
  have hx0 : OnlyIn cs s x0 := (State.elapse_only hmt h)
  (try clear_value x0)
  exact (OnlyIn.ite hx0 (OnlyIn.ite (State.wakeUp_only hdraws hprof hlock hsums hviol hassume hclk hpwr hrtc hlat hcapture hstl hlinks hsamples
        hstalls hbays hmkt hthm haux hmet hsaf hrole hpair hsbus hvault hupd hqueues hmram hx0) (OnlyIn.ite (State.wakeUp_only hdraws hprof hlock
        hsums hviol hassume hclk hpwr hrtc hlat hcapture hstl hlinks hsamples hstalls hbays hmkt hthm haux hmet hsaf hrole hpair hsbus hvault hupd
        hqueues hmram hx0) hx0)))

theorem doBusWake_only {cs : Block → Bool} {s t : State} {a0 a1} (hmt : cs .mt = true) (hdraws : cs .draws = true) (hprof : cs .prof = true) (hlock :
      cs .lock = true) (hsums : cs .sums = true) (hviol : cs .viol = true) (hassume : cs .assume = true) (hclk : cs .clk = true) (hpwr : cs .pwr =
      true) (hrtc : cs .rtc = true) (hlat : cs .lat = true) (hcapture : cs .capture = true) (hstl : cs .stl = true) (hlinks : ∀ i, cs (.link i) =
      true) (hsamples : ∀ i, cs (.sample i) = true) (hstalls : ∀ i, cs (.stall i) = true) (hbays : ∀ i, cs (.bay i) = true) (hmkt : cs .mkt = true)
      (hthm : cs .thm = true) (haux : cs .aux = true) (hmet : cs .met = true) (hsaf : cs .saf = true) (hrole : cs .role = true) (hpair : cs .pair =
      true) (hsbus : cs .sbus = true) (hvault : cs .vault = true) (hupd : cs .upd = true) (hqueues : cs .queues = true) (hmram : cs .mram = true) (h :
      OnlyIn cs s t) :
    OnlyIn cs s (doBusWake a0 a1 t) := by
  unfold doBusWake
  extract_lets +onlyGivenNames -merge -underBinder x0
  have hx0 : OnlyIn cs s x0 := (State.elapse_only hmt h)
  (try clear_value x0)
  exact (OnlyIn.ite hx0 (OnlyIn.ite (doDormantWake_only hmt hdraws hprof hlock hsums hviol hassume hclk hpwr hrtc hlat hcapture hstl hlinks hsamples
        hstalls hbays hmkt hthm haux hmet hsaf hrole hpair hsbus hvault hupd hqueues hmram hx0) (OnlyIn.ite (State.busWakes_only hsums hsbus hx0)
        hx0)))

theorem doCalendarRead_only {cs : Block → Bool} {s t : State} {a0 a1} (hmt : cs .mt = true) (hsums : cs .sums = true) (hanswer : cs .answer = true)
      (hviol : cs .viol = true) (hhost : cs .host = true) (hcapture : cs .capture = true) (hqueues : cs .queues = true) (h : OnlyIn cs s t) :
    OnlyIn cs s (doCalendarRead a0 a1 t) := by
  unfold doCalendarRead
  exact (whenLive_only hmt (fun _ k0 =>
        (by split; (next => exact (State.answered_only hsums hanswer hviol hcapture hqueues k0)); (next => exact (by extract_lets +onlyGivenNames -merge -underBinder x1; have hx1 : OnlyIn cs s x1.2 := (State.readCalendar_only hhost k0); (try clear_value x1); exact (State.giveData_only hsums hanswer hviol hcapture hqueues hx1)))))
        h)

theorem doClkClrCnt_only {cs : Block → Bool} {s t : State} {a0 a1} (hmt : cs .mt = true) (hsums : cs .sums = true) (hanswer : cs .answer = true)
      (hviol : cs .viol = true) (hclk : cs .clk = true) (hcapture : cs .capture = true) (hqueues : cs .queues = true) (h : OnlyIn cs s t) :
    OnlyIn cs s (doClkClrCnt a0 a1 t) := by
  unfold doClkClrCnt
  exact (whenLive_only hmt (fun _ k0 => (State.command_only hsums hanswer hviol hcapture hqueues (fun _ k1 => (State.setClk_only hclk k1)) k0)) h)

theorem doDormant_only {cs : Block → Bool} {s t : State} {a0 a1} (hmt : cs .mt = true) (hsums : cs .sums = true) (hanswer : cs .answer = true) (hviol
      : cs .viol = true) (hpwr : cs .pwr = true) (hcapture : cs .capture = true) (hsbus : cs .sbus = true) (hqueues : cs .queues = true) (h : OnlyIn
      cs s t) :
    OnlyIn cs s (doDormant a0 a1 t) := by
  unfold doDormant
  exact (whenLive_only hmt (fun _ k0 =>
        (by split; (next => exact (State.answered_only hsums hanswer hviol hcapture hqueues k0)); (next => exact (by extract_lets +onlyGivenNames -merge -underBinder x1; have hx1 : OnlyIn cs s x1.1 := (State.dormantWrite_only hsums hpwr hsbus k0); (try clear_value x1); exact (State.answered_only hsums hanswer hviol hcapture hqueues hx1)))))
        h)

theorem doDormantCommit_only {cs : Block → Bool} {s t : State} {a0} (hmt : cs .mt = true) (hdraws : cs .draws = true) (hprof : cs .prof = true) (hlock
      : cs .lock = true) (hsums : cs .sums = true) (hviol : cs .viol = true) (hassume : cs .assume = true) (hclk : cs .clk = true) (hpwr : cs .pwr =
      true) (hrtc : cs .rtc = true) (hlat : cs .lat = true) (hcapture : cs .capture = true) (hstl : cs .stl = true) (hlinks : ∀ i, cs (.link i) =
      true) (hsamples : ∀ i, cs (.sample i) = true) (hstalls : ∀ i, cs (.stall i) = true) (hbays : ∀ i, cs (.bay i) = true) (hmkt : cs .mkt = true)
      (hthm : cs .thm = true) (haux : cs .aux = true) (hmet : cs .met = true) (hsaf : cs .saf = true) (hrole : cs .role = true) (hpair : cs .pair =
      true) (hsbus : cs .sbus = true) (hvault : cs .vault = true) (hupd : cs .upd = true) (hqueues : cs .queues = true) (hmram : cs .mram = true) (h :
      OnlyIn cs s t) :
    OnlyIn cs s (doDormantCommit a0 t) := by
  unfold doDormantCommit
  exact (whenLive_only hmt (fun _ k0 =>
        (by split; (next => exact k0); (next => exact (OnlyIn.ite k0 (by split; (next => exact (State.wakeUp_only hdraws hprof hlock hsums hviol hassume hclk hpwr hrtc hlat hcapture hstl hlinks hsamples hstalls hbays hmkt hthm haux hmet hsaf hrole hpair hsbus hvault hupd hqueues hmram k0)); (next => exact (by extract_lets +onlyGivenNames -merge -underBinder x1; have hx1 : OnlyIn cs s x1 := (State.setPwr_only hpwr k0); (try clear_value x1); exact (by extract_lets +onlyGivenNames -merge -underBinder x2; have hx2 : OnlyIn cs s x2 := (State.bump_only hsums (State.setClk_only hclk hx1)); (try clear_value x2); exact (by extract_lets +onlyGivenNames -merge -underBinder x3; have hx3 : OnlyIn cs s x3 := (State.setRtc_only hrtc (State.noteCal_only hrtc (State.holdLockouts_only hlock hsaf hupd hx2))); (try clear_value x3); exact (State.refreshAssume_only hsums hassume (OnlyIn.setMet hmet hx3)))))))))))
        h)

theorem doDormantOutputRelease_only {cs : Block → Bool} {s t : State} {a0} (hmt : cs .mt = true) (hprof : cs .prof = true) (hsums : cs .sums = true)
      (hclk : cs .clk = true) (hpwr : cs .pwr = true) (hlat : cs .lat = true) (hcapture : cs .capture = true) (hlinks : ∀ i, cs (.link i) = true)
      (hsamples : ∀ i, cs (.sample i) = true) (hstalls : ∀ i, cs (.stall i) = true) (houtlets : ∀ i, cs (.outlet i) = true) (hbays : ∀ i, cs (.bay i)
      = true) (hmkt : cs .mkt = true) (haux : cs .aux = true) (hmet : cs .met = true) (hsaf : cs .saf = true) (hrole : cs .role = true) (hpair : cs
      .pair = true) (hsbus : cs .sbus = true) (hqueues : cs .queues = true) (hmram : cs .mram = true) (h : OnlyIn cs s t) :
    OnlyIn cs s (doDormantOutputRelease a0 t) := by
  unfold doDormantOutputRelease
  exact (whenLive_only hmt (fun _ k0 => (OnlyIn.ite (State.dormantRelease_only hprof hsums hclk hpwr hlat hcapture hlinks hsamples hstalls houtlets
        hbays hmkt haux hmet hsaf hrole hpair hsbus hqueues hmram k0) k0)) h)

theorem doJunctionTempCheck_only {cs : Block → Bool} {s t : State} {a0 a1} (hmt : cs .mt = true) (hprof : cs .prof = true) (hsums : cs .sums = true)
      (hpwr : cs .pwr = true) (hlat : cs .lat = true) (hcapture : cs .capture = true) (hlinks : ∀ i, cs (.link i) = true) (hsamples : ∀ i, cs (.sample
      i) = true) (hstalls : ∀ i, cs (.stall i) = true) (houtlets : ∀ i, cs (.outlet i) = true) (hbays : ∀ i, cs (.bay i) = true) (hmkt : cs .mkt =
      true) (hsaf : cs .saf = true) (hrole : cs .role = true) (hpair : cs .pair = true) (hsbus : cs .sbus = true) (hqueues : cs .queues = true) (h :
      OnlyIn cs s t) :
    OnlyIn cs s (doJunctionTempCheck a0 a1 t) := by
  unfold doJunctionTempCheck
  exact (whenLive_only hmt (fun _ k0 =>
        (by extract_lets +onlyGivenNames -merge -underBinder x1; (try clear_value x1); exact (by extract_lets +onlyGivenNames -merge -underBinder x2; (try clear_value x2); exact (by extract_lets +onlyGivenNames -merge -underBinder x3; (try clear_value x3); exact (by extract_lets +onlyGivenNames -merge -underBinder x4; have hx4 : OnlyIn cs s x4 := (State.bumpIf_only hsums (State.setPwr_only hpwr k0)); (try clear_value x4); exact (by extract_lets +onlyGivenNames -merge -underBinder x5; have hx5 : OnlyIn cs s x5 := (by unfold x5; exact (OnlyIn.ite (State.releaseIfFit_only hprof hsums hlat hcapture hlinks hsamples hstalls houtlets hbays hmkt hsaf hrole hpair hsbus hqueues hx4) hx4)); (try clear_value x5); exact (OnlyIn.ite (State.ctrlFail_only hprof hsums hlat hcapture hlinks hsamples hstalls houtlets hbays hmkt hsaf hrole hpair hsbus hqueues hx5) hx5)))))))
        h)

theorem doLeapSecond_only {cs : Block → Bool} {s t : State} {a0} (hmt : cs .mt = true) (hsums : cs .sums = true) (hrtc : cs .rtc = true) (h : OnlyIn
      cs s t) :
    OnlyIn cs s (doLeapSecond a0 t) := by
  unfold doLeapSecond
  exact (whenLive_only hmt (fun _ k0 => (OnlyIn.ite (State.bump_only hsums (State.setRtc_only hrtc (State.noteCal_only hrtc k0))) k0)) h)

theorem doMarketTimeRead_only {cs : Block → Bool} {s t : State} {a0 a1 a2} (hmt : cs .mt = true) (hsums : cs .sums = true) (hanswer : cs .answer =
      true) (hviol : cs .viol = true) (hhost : cs .host = true) (hcapture : cs .capture = true) (hqueues : cs .queues = true) (h : OnlyIn cs s t) :
    OnlyIn cs s (doMarketTimeRead a0 a1 a2 t) := by
  unfold doMarketTimeRead
  exact (whenLive_only hmt (fun _ k0 =>
        (by extract_lets +onlyGivenNames -merge -underBinder x1; (try clear_value x1); exact (by split; (next => exact (State.answered_only hsums hanswer hviol hcapture hqueues k0)); (next => exact (by extract_lets +onlyGivenNames -merge -underBinder x2; have hx2 : OnlyIn cs s x2.2.2 := (State.readTime_only hhost k0); (try clear_value x2); exact (State.giveData_only hsums hanswer hviol hcapture hqueues hx2))))))
        h)

theorem doMtSave_only {cs : Block → Bool} {s t : State} {a0} (hmt : cs .mt = true) (hclk : cs .clk = true) (h : OnlyIn cs s t) :
    OnlyIn cs s (doMtSave a0 t) := by
  unfold doMtSave
  exact (whenLive_only hmt (fun _ k0 => (OnlyIn.ite (State.saveTime_only hclk k0) k0)) h)

theorem doPllLockLoss_only {cs : Block → Bool} {s t : State} {a0 a1} (hmt : cs .mt = true) (hsums : cs .sums = true) (hassume : cs .assume = true)
      (hclk : cs .clk = true) (h : OnlyIn cs s t) :
    OnlyIn cs s (doPllLockLoss a0 a1 t) := by
  unfold doPllLockLoss
  exact (whenLive_only hmt (fun _ k0 => (OnlyIn.ite (State.refreshAssume_only hsums hassume (State.bump_only hsums (State.setClk_only hclk k0))) k0))
        h)

theorem doPllRelock_only {cs : Block → Bool} {s t : State} {a0 a1} (hmt : cs .mt = true) (hsums : cs .sums = true) (hassume : cs .assume = true) (hclk
      : cs .clk = true) (h : OnlyIn cs s t) :
    OnlyIn cs s (doPllRelock a0 a1 t) := by
  unfold doPllRelock
  exact (whenLive_only hmt (fun _ k0 => (OnlyIn.ite k0 (State.refreshAssume_only hsums hassume (State.bump_only hsums (State.setClk_only hclk k0)))))
        h)

theorem doPowerFailClear_only {cs : Block → Bool} {s t : State} {a0 a1} (hmt : cs .mt = true) (hsums : cs .sums = true) (hassume : cs .assume = true)
      (hpwr : cs .pwr = true) (hmet : cs .met = true) (h : OnlyIn cs s t) :
    OnlyIn cs s (doPowerFailClear a0 a1 t) := by
  unfold doPowerFailClear
  exact (whenLive_only hmt (fun _ k0 => (OnlyIn.ite
        (by extract_lets +onlyGivenNames -merge -underBinder x1; have hx1 : OnlyIn cs s x1 := (State.bump_only hsums (State.setPwr_only hpwr k0)); (try clear_value x1); exact (State.refreshAssume_only hsums hassume (State.metResume_only hmet hx1)))
        k0)) h)

theorem doPowerFailWarning_only {cs : Block → Bool} {s t : State} {a0 a1} (hmt : cs .mt = true) (hsums : cs .sums = true) (hassume : cs .assume =
      true) (hclk : cs .clk = true) (hpwr : cs .pwr = true) (hmet : cs .met = true) (hqueues : cs .queues = true) (hldg : cs .ldg = true) (hmram : cs
      .mram = true) (h : OnlyIn cs s t) :
    OnlyIn cs s (doPowerFailWarning a0 a1 t) := by
  unfold doPowerFailWarning
  exact (whenLive_only hmt (fun _ k0 => (OnlyIn.ite
        (by extract_lets +onlyGivenNames -merge -underBinder x1; have hx1 : OnlyIn cs s x1 := (State.bump_only hsums (State.setPwr_only hpwr k0)); (try clear_value x1); exact (State.refreshAssume_only hsums hassume (State.drainLedger_only hsums hqueues hldg (State.saveTime_only hclk (State.metStop_only hmet hmram hx1)))))
        k0)) h)

theorem doPtpAnnounce_only {cs : Block → Bool} {s t : State} {a0 a1} (hmt : cs .mt = true) (hsums : cs .sums = true) (hrtc : cs .rtc = true) (h :
      OnlyIn cs s t) :
    OnlyIn cs s (doPtpAnnounce a0 a1 t) := by
  unfold doPtpAnnounce
  exact (whenLive_only hmt (fun _ k0 => (OnlyIn.ite
        (by extract_lets +onlyGivenNames -merge -underBinder x1; have hx1 : OnlyIn cs s x1 := (State.setRtc_only hrtc k0); (try clear_value x1); exact (by split; (next => exact (State.takeMaster_only hsums hrtc hx1)); (next => exact (State.setRtc_only hrtc hx1))))
        k0)) h)

theorem doPtpDelayResp_only {cs : Block → Bool} {s t : State} {a0 a1 a2} (hmt : cs .mt = true) (hdraws : cs .draws = true) (hsums : cs .sums = true)
      (hrtc : cs .rtc = true) (hcapture : cs .capture = true) (hqueues : cs .queues = true) (h : OnlyIn cs s t) :
    OnlyIn cs s (doPtpDelayResp a0 a1 a2 t) := by
  unfold doPtpDelayResp
  exact (whenLive_only hmt (fun _ k0 =>
        (by split; (next => exact k0); (next => exact (OnlyIn.ite k0 (by extract_lets +onlyGivenNames -merge -underBinder x1; have hx1 : OnlyIn cs s x1 := (State.setRtc_only hrtc k0); (try clear_value x1); exact (OnlyIn.ite (State.ptpExchange_only hdraws hsums hrtc hcapture hqueues hx1) (State.bumpIf_only hsums (State.setRtc_only hrtc hx1))))))))
        h)

theorem doPtpFollowUp_only {cs : Block → Bool} {s t : State} {a0 a1 a2} (hmt : cs .mt = true) (hhost : cs .host = true) (hrtc : cs .rtc = true) (h :
      OnlyIn cs s t) :
    OnlyIn cs s (doPtpFollowUp a0 a1 a2 t) := by
  unfold doPtpFollowUp
  exact (whenLive_only hmt (fun _ k0 => (OnlyIn.ite (State.delayReq_only hhost hrtc (State.setRtc_only hrtc k0)) k0)) h)

theorem doPtpSync_only {cs : Block → Bool} {s t : State} {a0 a1 a2 a3} (hmt : cs .mt = true) (hhost : cs .host = true) (hrtc : cs .rtc = true) (h :
      OnlyIn cs s t) :
    OnlyIn cs s (doPtpSync a0 a1 a2 a3 t) := by
  unfold doPtpSync
  exact (whenLive_only hmt (fun _ k0 => (OnlyIn.ite
        (by extract_lets +onlyGivenNames -merge -underBinder x1; have hx1 : OnlyIn cs s x1 := (State.setRtc_only hrtc k0); (try clear_value x1); exact (OnlyIn.ite hx1 (State.delayReq_only hhost hrtc hx1)))
        k0)) h)

theorem doPtpSyncTimeout_only {cs : Block → Bool} {s t : State} {a0} (hmt : cs .mt = true) (hsums : cs .sums = true) (hrtc : cs .rtc = true) (h :
      OnlyIn cs s t) :
    OnlyIn cs s (doPtpSyncTimeout a0 t) := by
  unfold doPtpSyncTimeout
  exact (whenLive_only hmt (fun _ k0 =>
        (by split; (next => exact (OnlyIn.ite (State.bump_only hsums (State.setRtc_only hrtc k0)) k0)); (next => exact k0))) h)

theorem doPwrClrCnt_only {cs : Block → Bool} {s t : State} {a0 a1} (hmt : cs .mt = true) (hsums : cs .sums = true) (hanswer : cs .answer = true)
      (hviol : cs .viol = true) (hpwr : cs .pwr = true) (hcapture : cs .capture = true) (hqueues : cs .queues = true) (h : OnlyIn cs s t) :
    OnlyIn cs s (doPwrClrCnt a0 a1 t) := by
  unfold doPwrClrCnt
  exact (whenLive_only hmt (fun _ k0 => (State.command_only hsums hanswer hviol hcapture hqueues (fun _ k1 => (State.setPwr_only hpwr k1)) k0)) h)

theorem doRawRead_only {cs : Block → Bool} {s t : State} {a0 a1 a2} (hmt : cs .mt = true) (hsums : cs .sums = true) (hanswer : cs .answer = true)
      (hviol : cs .viol = true) (hhost : cs .host = true) (hcapture : cs .capture = true) (hqueues : cs .queues = true) (h : OnlyIn cs s t) :
    OnlyIn cs s (doRawRead a0 a1 a2 t) := by
  unfold doRawRead
  exact (whenLive_only hmt (fun _ k0 =>
        (by extract_lets +onlyGivenNames -merge -underBinder x1; (try clear_value x1); exact (by split; (next => exact (State.answered_only hsums hanswer hviol hcapture hqueues k0)); (next => exact (by extract_lets +onlyGivenNames -merge -underBinder x2; have hx2 : OnlyIn cs s x2.2 := (State.readRaw_only hhost k0); (try clear_value x2); exact (State.giveData_only hsums hanswer hviol hcapture hqueues hx2))))))
        h)

theorem doRtcApply_only {cs : Block → Bool} {s t : State} {a0 a1 a2 a3} (hmt : cs .mt = true) (hsums : cs .sums = true) (hanswer : cs .answer = true)
      (hviol : cs .viol = true) (hrtc : cs .rtc = true) (hcapture : cs .capture = true) (hqueues : cs .queues = true) (h : OnlyIn cs s t) :
    OnlyIn cs s (doRtcApply a0 a1 a2 a3 t) := by
  unfold doRtcApply
  exact (whenLive_only hmt (fun _ k0 => (State.command_only hsums hanswer hviol hcapture hqueues (fun _ k1 => (State.applyCalendar_only hsums hrtc
        hcapture hqueues k1)) k0)) h)

theorem doSupplyOutOfRange_only {cs : Block → Bool} {s t : State} {a0 a1} (hmt : cs .mt = true) (hprof : cs .prof = true) (hsums : cs .sums = true)
      (hassume : cs .assume = true) (hpwr : cs .pwr = true) (hlat : cs .lat = true) (hcapture : cs .capture = true) (hlinks : ∀ i, cs (.link i) =
      true) (hsamples : ∀ i, cs (.sample i) = true) (hstalls : ∀ i, cs (.stall i) = true) (houtlets : ∀ i, cs (.outlet i) = true) (hbays : ∀ i, cs
      (.bay i) = true) (hmkt : cs .mkt = true) (hsaf : cs .saf = true) (hrole : cs .role = true) (hpair : cs .pair = true) (hsbus : cs .sbus = true)
      (hqueues : cs .queues = true) (h : OnlyIn cs s t) :
    OnlyIn cs s (doSupplyOutOfRange a0 a1 t) := by
  unfold doSupplyOutOfRange
  exact (whenLive_only hmt (fun _ k0 =>
        (by extract_lets +onlyGivenNames -merge -underBinder x1; have hx1 : OnlyIn cs s x1 := (State.refreshAssume_only hsums hassume (State.setPwr_only hpwr k0)); (try clear_value x1); exact (OnlyIn.ite (State.releaseIfFit_only hprof hsums hlat hcapture hlinks hsamples hstalls houtlets hbays hmkt hsaf hrole hpair hsbus hqueues hx1) hx1)))
        h)

theorem doTamper_only {cs : Block → Bool} {s t : State} {a0} (hmt : cs .mt = true) (hdraws : cs .draws = true) (hsums : cs .sums = true) (hrtc : cs
      .rtc = true) (hmet : cs .met = true) (hvault : cs .vault = true) (h : OnlyIn cs s t) :
    OnlyIn cs s (doTamper a0 t) := by
  unfold doTamper
  extract_lets +onlyGivenNames -merge -underBinder x0
  have hx0 : OnlyIn cs s x0 := (State.elapse_only hmt h)
  (try clear_value x0)
  exact (OnlyIn.ite hx0
        (by extract_lets +onlyGivenNames -merge -underBinder x1; (try clear_value x1); exact (by extract_lets +onlyGivenNames -merge -underBinder x2; have hx2 : OnlyIn cs s x2 := (State.bumpIf_only hsums (State.setRtc_only hrtc hx0)); (try clear_value x2); exact (State.zeroise_only hdraws hsums hmet hvault hx2))))

theorem doVbatLow_only {cs : Block → Bool} {s t : State} {a0 a1} (hmt : cs .mt = true) (hsums : cs .sums = true) (hclk : cs .clk = true) (hpwr : cs
      .pwr = true) (hcapture : cs .capture = true) (hqueues : cs .queues = true) (h : OnlyIn cs s t) :
    OnlyIn cs s (doVbatLow a0 a1 t) := by
  unfold doVbatLow
  exact (OnlyIn.ite (OnlyIn.ite (State.applyVbat_only hclk (State.elapse_only hmt h)) (State.elapse_only hmt h)) (whenLive_only hmt (fun _ k0 =>
        (by extract_lets +onlyGivenNames -merge -underBinder x1; (try clear_value x1); exact (by extract_lets +onlyGivenNames -merge -underBinder x2; (try clear_value x2); exact (by extract_lets +onlyGivenNames -merge -underBinder x3; have hx3 : OnlyIn cs s x3 := (State.bumpIf_only hsums (State.setPwr_only hpwr k0)); (try clear_value x3); exact (OnlyIn.ite (State.log_only hsums hcapture hqueues hx3) hx3)))))
        h))

theorem doVin24Low_only {cs : Block → Bool} {s t : State} {a0 a1} (hmt : cs .mt = true) (hsums : cs .sums = true) (hassume : cs .assume = true) (hpwr
      : cs .pwr = true) (hlat : cs .lat = true) (hcapture : cs .capture = true) (hstalls : ∀ i, cs (.stall i) = true) (hmkt : cs .mkt = true) (haux :
      cs .aux = true) (hsaf : cs .saf = true) (hqueues : cs .queues = true) (h : OnlyIn cs s t) :
    OnlyIn cs s (doVin24Low a0 a1 t) := by
  unfold doVin24Low
  exact (whenLive_only hmt (fun _ k0 =>
        (by extract_lets +onlyGivenNames -merge -underBinder x1; have hx1 : OnlyIn cs s x1 := (by unfold x1; exact (OnlyIn.ite (State.measureV24_only hsums haux hsaf k0) k0)); (try clear_value x1); exact (OnlyIn.ite (by extract_lets +onlyGivenNames -merge -underBinder x2; have hx2 : OnlyIn cs s x2 := (State.refreshAssume_only hsums hassume (State.bump_only hsums (State.setPwr_only hpwr hx1))); (try clear_value x2); exact (State.forAll_only (fun _ _ k3 => (OnlyIn.ite (State.requestSafeStop_only hsums hlat hcapture hstalls hmkt hsaf hqueues k3) k3)) hx2)) hx1)))
        h)

theorem doX32Loss_only {cs : Block → Bool} {s t : State} {a0} (hmt : cs .mt = true) (hsums : cs .sums = true) (hassume : cs .assume = true) (hclk : cs
      .clk = true) (hrtc : cs .rtc = true) (h : OnlyIn cs s t) :
    OnlyIn cs s (doX32Loss a0 t) := by
  unfold doX32Loss
  extract_lets +onlyGivenNames -merge -underBinder x0
  have hx0 : OnlyIn cs s x0 := (State.elapse_only hmt h)
  (try clear_value x0)
  exact (OnlyIn.ite hx0 (OnlyIn.ite (State.setClk_only hclk (State.noteCal_only hrtc (State.noteRaw_only hclk hx0))) (State.refreshAssume_only hsums
        hassume (State.bump_only hsums (State.setClk_only hclk (State.noteRaw_only hclk hx0))))))

theorem doX32Restored_only {cs : Block → Bool} {s t : State} {a0} (hmt : cs .mt = true) (hsums : cs .sums = true) (hassume : cs .assume = true) (hclk
      : cs .clk = true) (h : OnlyIn cs s t) :
    OnlyIn cs s (doX32Restored a0 t) := by
  unfold doX32Restored
  extract_lets +onlyGivenNames -merge -underBinder x0
  have hx0 : OnlyIn cs s x0 := (State.elapse_only hmt h)
  (try clear_value x0)
  exact (OnlyIn.ite hx0 (OnlyIn.ite (State.setClk_only hclk hx0) (State.refreshAssume_only hsums hassume (State.bump_only hsums (State.setClk_only
        hclk hx0)))))

end Sys2Proof.Machine
end

