-- ==== Sys2Proof/Laws/FrameHost.lean ====
section
/-! SUPPORT. What every operation of the partner, the tick and the host ports may change. -/
namespace Sys2Proof.Machine

theorem State.setStl_only {cs : Block → Bool} {s t : State} {f} (hc : StlIn cs t.stl (f t.stl)) (h : OnlyIn cs s t) : OnlyIn cs s (t.setStl f) :=
  OnlyIn.setStl hc h

theorem State.adoptPolicy_only {cs : Block → Bool} {s t : State} {a1 a2} (hmkt : cs .mkt = true) (h : OnlyIn cs s t) :
    OnlyIn cs s (State.adoptPolicy t a1 a2) := by
  unfold State.adoptPolicy
  extract_lets +onlyGivenNames -merge -underBinder x0
  exact (OnlyIn.setMkt hmkt h)

theorem State.askCapture_only {cs : Block → Bool} {s t : State} (hpair : cs .pair = true) (h : OnlyIn cs s t) :
    OnlyIn cs s (State.askCapture t) := by
  unfold State.askCapture
  extract_lets +onlyGivenNames -merge -underBinder x0
  (try clear_value x0)
  exact (OnlyIn.ite (State.sendSeljo_only hpair (State.setSeljo_only hpair h)) h)

theorem State.checkInterlock_only {cs : Block → Bool} {s t : State} (hsums : cs .sums = true) (hassume : cs .assume = true) (hcapture : cs .capture =
      true) (hpair : cs .pair = true) (hqueues : cs .queues = true) (h : OnlyIn cs s t) :
    OnlyIn cs s (State.checkInterlock t) := by
  unfold State.checkInterlock
  extract_lets +onlyGivenNames -merge -underBinder x0
  (try clear_value x0)
  extract_lets +onlyGivenNames -merge -underBinder x1
  (try clear_value x1)
  extract_lets +onlyGivenNames -merge -underBinder x2
  have hx2 : OnlyIn cs s x2 := (State.setPair_only ⟨.inr (by rfl), .inl hpair⟩ h)
  (try clear_value x2)
  extract_lets +onlyGivenNames -merge -underBinder x3
  have hx3 : OnlyIn cs s x3 := (by unfold x3; exact (OnlyIn.ite (State.log_only hsums hcapture hqueues hx2) hx2))
  (try clear_value x3)
  exact (State.assumeInterlock_only hsums hassume hx3)

theorem State.clearHold_only {cs : Block → Bool} {s t : State} (hsums : cs .sums = true) (hpair : cs .pair = true) (h : OnlyIn cs s t) :
    OnlyIn cs s (State.clearHold t) := by
  unfold State.clearHold
  exact (State.bumpIf_only hsums (State.setPair_only ⟨.inr (by rfl), .inl hpair⟩ h))

theorem State.judgeRole_only {cs : Block → Bool} {s t : State} (hsums : cs .sums = true) (hcapture : cs .capture = true) (hrole : cs .role = true)
      (hpair : cs .pair = true) (hsbus : cs .sbus = true) (hqueues : cs .queues = true) (h : OnlyIn cs s t) :
    OnlyIn cs s (State.judgeRole t) := by
  unfold State.judgeRole
  exact
        (by split; (next => exact (by extract_lets +onlyGivenNames -merge -underBinder x0; have hx0 : OnlyIn cs s x0 := (State.bumpIf_only hsums (State.setPair_only ⟨.inr (by rfl), .inl hpair⟩ h)); (try clear_value x0); exact (OnlyIn.ite hx0 (State.enterUnfit_only hsums hcapture hrole hpair hsbus hqueues hx0)))); (next => exact (OnlyIn.ite (State.setRole_only hsums hcapture hrole hpair hsbus hqueues (State.setPair_only ⟨.inr (by rfl), .inl hpair⟩ h)) h)); (next => exact (State.setPair_only ⟨.inr (by rfl), .inl hpair⟩ h)); (next => exact h))

theorem State.pairClear_only {cs : Block → Bool} {s t : State} (hpair : cs .pair = true) (h : OnlyIn cs s t) :
    OnlyIn cs s (State.pairClear t) := by
  unfold State.pairClear
  exact (State.setPair_only ⟨.inr (by rfl), .inl hpair⟩ h)

theorem State.planHandover_only {cs : Block → Bool} {s t : State} (hpair : cs .pair = true) (h : OnlyIn cs s t) :
    OnlyIn cs s (State.planHandover t) := by
  unfold State.planHandover
  exact (State.setPair_only ⟨.inr (by rfl), .inl hpair⟩ h)

theorem State.queueOwn_only {cs : Block → Bool} {s t : State} {a1 a2} (hsbus : cs .sbus = true) (h : OnlyIn cs s t) :
    OnlyIn cs s (State.queueOwn t a1 a2) := by
  unfold State.queueOwn
  extract_lets +onlyGivenNames -merge -underBinder x0
  (try clear_value x0)
  exact (State.queueFrame_only hsbus h)

theorem State.sendHealth_only {cs : Block → Bool} {s t : State} (hpair : cs .pair = true) (h : OnlyIn cs s t) :
    OnlyIn cs s (State.sendHealth t) := by
  unfold State.sendHealth
  exact (State.sendSeljo_only hpair (State.sendSeljo_only hpair h))

theorem State.takeSegments_only {cs : Block → Bool} {s t : State} (hmkt : cs .mkt = true) (h : OnlyIn cs s t) :
    OnlyIn cs s (State.takeSegments t) := by
  unfold State.takeSegments
  exact
        (by split <;> first | exact (by extract_lets +onlyGivenNames -merge -underBinder x0; (try clear_value x0); exact (State.adoptPolicy_only hmkt h)) | exact h)

theorem State.yieldSide_only {cs : Block → Bool} {s t : State} (hprof : cs .prof = true) (hsums : cs .sums = true) (hlat : cs .lat = true) (hcapture :
      cs .capture = true) (hlinks : ∀ i, cs (.link i) = true) (hsamples : ∀ i, cs (.sample i) = true) (hstalls : ∀ i, cs (.stall i) = true) (houtlets
      : ∀ i, cs (.outlet i) = true) (hbays : ∀ i, cs (.bay i) = true) (hmkt : cs .mkt = true) (hsaf : cs .saf = true) (hrole : cs .role = true) (hpair
      : cs .pair = true) (hsbus : cs .sbus = true) (hqueues : cs .queues = true) (h : OnlyIn cs s t) :
    OnlyIn cs s (State.yieldSide t) := by
  unfold State.yieldSide
  exact (OnlyIn.ite
        (by extract_lets +onlyGivenNames -merge -underBinder x0; have hx0 : OnlyIn cs s x0 := (State.cancelPending_only hprof hsums hlat hpair (State.allOff_only hsums hsaf h)); (try clear_value x0); exact (State.enterUnfit_only hsums hcapture hrole hpair hsbus hqueues (OnlyIn.ite hx0 (State.dropSite_only hsums hlat hlinks hsamples hstalls houtlets hbays hmkt hx0))))
        h)

theorem doClearUnfit_only {cs : Block → Bool} {s t : State} {a0 a1} (hmt : cs .mt = true) (hsums : cs .sums = true) (hanswer : cs .answer = true)
      (hviol : cs .viol = true) (hcapture : cs .capture = true) (hpair : cs .pair = true) (hqueues : cs .queues = true) (h : OnlyIn cs s t) :
    OnlyIn cs s (doClearUnfit a0 a1 t) := by
  unfold doClearUnfit
  exact (whenLive_only hmt (fun _ k0 => (State.command_only hsums hanswer hviol hcapture hqueues (fun _ k1 => (State.clearHold_only hsums hpair k1))
        k0)) h)

theorem doHandover_only {cs : Block → Bool} {s t : State} {a0 a1} (hmt : cs .mt = true) (hsums : cs .sums = true) (hanswer : cs .answer = true) (hviol
      : cs .viol = true) (hcapture : cs .capture = true) (hpair : cs .pair = true) (hqueues : cs .queues = true) (h : OnlyIn cs s t) :
    OnlyIn cs s (doHandover a0 a1 t) := by
  unfold doHandover
  exact (whenLive_only hmt (fun _ k0 => (State.command_only hsums hanswer hviol hcapture hqueues (fun _ k1 => (State.planHandover_only hpair k1)) k0))
        h)

theorem doHealthCheck_only {cs : Block → Bool} {s t : State} {a0} (hmt : cs .mt = true) (hprof : cs .prof = true) (hsums : cs .sums = true) (hlat : cs
      .lat = true) (hcapture : cs .capture = true) (hlinks : ∀ i, cs (.link i) = true) (hsamples : ∀ i, cs (.sample i) = true) (hstalls : ∀ i, cs
      (.stall i) = true) (houtlets : ∀ i, cs (.outlet i) = true) (hbays : ∀ i, cs (.bay i) = true) (hmkt : cs .mkt = true) (hsaf : cs .saf = true)
      (hrole : cs .role = true) (hpair : cs .pair = true) (hsbus : cs .sbus = true) (hqueues : cs .queues = true) (h : OnlyIn cs s t) :
    OnlyIn cs s (doHealthCheck a0 t) := by
  unfold doHealthCheck
  exact (whenLive_only hmt (fun _ k0 =>
        (by extract_lets +onlyGivenNames -merge -underBinder x1; have hx1 : OnlyIn cs s x1 := (State.armHold_only hpair (State.judgeHold_only hprof hsums hlat hcapture hlinks hsamples hstalls houtlets hbays hmkt hsaf hrole hpair hsbus hqueues k0)); (try clear_value x1); exact (by extract_lets +onlyGivenNames -merge -underBinder x2; (try clear_value x2); exact (by extract_lets +onlyGivenNames -merge -underBinder x3; have hx3 : OnlyIn cs s x3 := (State.bumpIf_only hsums (State.setPair_only ⟨.inr (by rfl), .inl hpair⟩ hx1)); (try clear_value x3); exact (State.judgeRole_only hsums hcapture hrole hpair hsbus hqueues (State.askCapture_only hpair (State.sendHealth_only hpair hx3)))))))
        h)

theorem doHeartbeatFrame_only {cs : Block → Bool} {s t : State} {a0 a1} (hmt : cs .mt = true) (hprof : cs .prof = true) (hsums : cs .sums = true)
      (hassume : cs .assume = true) (hlat : cs .lat = true) (hcapture : cs .capture = true) (hlinks : ∀ i, cs (.link i) = true) (hsamples : ∀ i, cs
      (.sample i) = true) (hstalls : ∀ i, cs (.stall i) = true) (houtlets : ∀ i, cs (.outlet i) = true) (hbays : ∀ i, cs (.bay i) = true) (hmkt : cs
      .mkt = true) (hsaf : cs .saf = true) (hrole : cs .role = true) (hpair : cs .pair = true) (hsbus : cs .sbus = true) (hqueues : cs .queues = true)
      (h : OnlyIn cs s t) :
    OnlyIn cs s (doHeartbeatFrame a0 a1 t) := by
  unfold doHeartbeatFrame
  exact (whenLive_only hmt (fun _ k0 => (OnlyIn.ite
        (by extract_lets +onlyGivenNames -merge -underBinder x1; (try clear_value x1); exact (by extract_lets +onlyGivenNames -merge -underBinder x2; have hx2 : OnlyIn cs s x2 := (State.setPartner_only hpair k0); (try clear_value x2); exact (by extract_lets +onlyGivenNames -merge -underBinder x3; (try clear_value x3); exact (by extract_lets +onlyGivenNames -merge -underBinder x4; have hx4 : OnlyIn cs s x4 := (State.bumpIf_only hsums hx2); (try clear_value x4); exact (State.yieldSide_only hprof hsums hlat hcapture hlinks hsamples hstalls houtlets hbays hmkt hsaf hrole hpair hsbus hqueues (State.checkInterlock_only hsums hassume hcapture hpair hqueues hx4))))))
        k0)) h)

theorem doHeartbeatSend_only {cs : Block → Bool} {s t : State} {a0} (hmt : cs .mt = true) (hsbus : cs .sbus = true) (h : OnlyIn cs s t) :
    OnlyIn cs s (doHeartbeatSend a0 t) := by
  unfold doHeartbeatSend
  exact (whenLive_only hmt (fun _ k0 => (OnlyIn.ite (State.queueOwn_only hsbus k0) k0)) h)

theorem doPairClrCnt_only {cs : Block → Bool} {s t : State} {a0 a1} (hmt : cs .mt = true) (hsums : cs .sums = true) (hanswer : cs .answer = true)
      (hviol : cs .viol = true) (hcapture : cs .capture = true) (hpair : cs .pair = true) (hqueues : cs .queues = true) (h : OnlyIn cs s t) :
    OnlyIn cs s (doPairClrCnt a0 a1 t) := by
  unfold doPairClrCnt
  exact (whenLive_only hmt (fun _ k0 => (State.command_only hsums hanswer hviol hcapture hqueues (fun _ k1 => (State.pairClear_only hpair k1)) k0)) h)

theorem doPartnerAbsent_only {cs : Block → Bool} {s t : State} {a0} (hmt : cs .mt = true) (hsums : cs .sums = true) (hpair : cs .pair = true) (h :
      OnlyIn cs s t) :
    OnlyIn cs s (doPartnerAbsent a0 t) := by
  unfold doPartnerAbsent
  exact (whenLive_only hmt (fun _ k0 =>
        (by extract_lets +onlyGivenNames -merge -underBinder x1; (try clear_value x1); exact (OnlyIn.ite (State.bump_only hsums (State.setPartner_only hpair k0)) k0)))
        h)

theorem doPolicySegmentFrame_only {cs : Block → Bool} {s t : State} {a0 a1} (hmt : cs .mt = true) (hmkt : cs .mkt = true) (hpair : cs .pair = true) (h
      : OnlyIn cs s t) :
    OnlyIn cs s (doPolicySegmentFrame a0 a1 t) := by
  unfold doPolicySegmentFrame
  exact (whenLive_only hmt (fun _ k0 => (OnlyIn.ite
        (by extract_lets +onlyGivenNames -merge -underBinder x1; (try clear_value x1); exact (State.takeSegments_only hmkt (State.setPair_only ⟨.inr (by rfl), .inl hpair⟩ k0)))
        k0)) h)

theorem doPolicySegmentSend_only {cs : Block → Bool} {s t : State} {a0} (hmt : cs .mt = true) (hsbus : cs .sbus = true) (h : OnlyIn cs s t) :
    OnlyIn cs s (doPolicySegmentSend a0 t) := by
  unfold doPolicySegmentSend
  exact (whenLive_only hmt (fun _ k0 => (OnlyIn.ite (State.queueOwn_only hsbus (State.queueOwn_only hsbus (State.queueOwn_only hsbus k0))) k0)) h)

theorem doResyncElapsed_only {cs : Block → Bool} {s t : State} {a0} (hmt : cs .mt = true) (hsums : cs .sums = true) (hassume : cs .assume = true)
      (hcapture : cs .capture = true) (hrole : cs .role = true) (hpair : cs .pair = true) (hsbus : cs .sbus = true) (hqueues : cs .queues = true) (h :
      OnlyIn cs s t) :
    OnlyIn cs s (doResyncElapsed a0 t) := by
  unfold doResyncElapsed
  exact (whenLive_only hmt (fun _ k0 => (OnlyIn.ite (OnlyIn.ite (State.startRole_only hsums hassume hcapture hrole hpair hsbus hqueues
        (State.assumeInterlock_only hsums hassume k0)) (State.enterSyncing_only hsums hcapture hrole hpair hsbus hqueues k0)) k0)) h)

theorem doSyncTimeout_only {cs : Block → Bool} {s t : State} {a0} (hmt : cs .mt = true) (hsums : cs .sums = true) (hcapture : cs .capture = true)
      (hrole : cs .role = true) (hpair : cs .pair = true) (hsbus : cs .sbus = true) (hqueues : cs .queues = true) (h : OnlyIn cs s t) :
    OnlyIn cs s (doSyncTimeout a0 t) := by
  unfold doSyncTimeout
  exact (whenLive_only hmt (fun _ k0 => (OnlyIn.ite (State.enterUnfit_only hsums hcapture hrole hpair hsbus hqueues k0) k0)) h)

theorem doUpdateHeartbeatFrame_only {cs : Block → Bool} {s t : State} {a0 a1} (hmt : cs .mt = true) (hpair : cs .pair = true) (h : OnlyIn cs s t) :
    OnlyIn cs s (doUpdateHeartbeatFrame a0 a1 t) := by
  unfold doUpdateHeartbeatFrame
  exact (whenLive_only hmt (fun _ k0 => (OnlyIn.ite
        (by extract_lets +onlyGivenNames -merge -underBinder x1; (try clear_value x1); exact (by extract_lets +onlyGivenNames -merge -underBinder x2; have hx2 : OnlyIn cs s x2 := (State.setPartner_only hpair k0); (try clear_value x2); exact (OnlyIn.ite (State.setPair_only ⟨.inr (by rfl), .inl hpair⟩ hx2) hx2)))
        k0)) h)

theorem doUpdateHeartbeatSend_only {cs : Block → Bool} {s t : State} {a0} (hmt : cs .mt = true) (hsbus : cs .sbus = true) (h : OnlyIn cs s t) :
    OnlyIn cs s (doUpdateHeartbeatSend a0 t) := by
  unfold doUpdateHeartbeatSend
  exact (whenLive_only hmt (fun _ k0 => (OnlyIn.ite (State.queueOwn_only hsbus k0) k0)) h)

theorem pairCfg_eff {cs : Block → Bool} {a0 a1 a2} (hpair : cs .pair = true) :
    EffIn cs (pairCfg a0 a1 a2) := by
  unfold pairCfg
  extract_lets +onlyGivenNames -merge -underBinder x0
  (try clear_value x0)
  extract_lets +onlyGivenNames -merge -underBinder x1
  (try clear_value x1)
  extract_lets +onlyGivenNames -merge -underBinder x2
  (try clear_value x2)
  extract_lets +onlyGivenNames -merge -underBinder x3
  (try clear_value x3)
  extract_lets +onlyGivenNames -merge -underBinder x4
  (try clear_value x4)
  exact (EffIn.mk (fun z6 _ k5 => (State.setPair_only ⟨.inr (by rfl), .inl hpair⟩ k5)))

theorem pairCtrl_eff {cs : Block → Bool} {a0 a1} (hsums : cs .sums = true) (hpair : cs .pair = true) :
    EffIn cs (pairCtrl a0 a1) := by
  unfold pairCtrl
  exact (EffIn.mk (fun z1 _ k0 =>
        (by extract_lets +onlyGivenNames -merge -underBinder x2; have hx2 : OnlyIn cs z1 x2 := (by unfold x2; exact (OnlyIn.ite (State.planHandover_only hpair k0) (OnlyIn.ite (State.clearHold_only hsums hpair k0) k0))); (try clear_value x2); exact (OnlyIn.ite (State.pairClear_only hpair hx2) hx2))))

theorem pairWrite_eff {cs : Block → Bool} {a0 a1 a2 a3} (hsums : cs .sums = true) (hpair : cs .pair = true) :
    EffsIn cs (pairWrite a0 a1 a2 a3) := by
  unfold pairWrite
  exact
        (by split; (next => exact (EffsIn.some (pairCtrl_eff hsums hpair))); (next => exact (EffsIn.some (pairCfg_eff hpair))); (next => exact (EffsIn.map fun _ => roWord_eff)))

theorem State.afterDeadline_only {cs : Block → Bool} {s t : State} {a1} (hdraws : cs .draws = true) (hprof : cs .prof = true) (hlock : cs .lock =
      true) (hsums : cs .sums = true) (hanswer : cs .answer = true) (hviol : cs .viol = true) (hhost : cs .host = true) (hassume : cs .assume = true)
      (hclk : cs .clk = true) (hpwr : cs .pwr = true) (hrtc : cs .rtc = true) (hlat : cs .lat = true) (hcapture : cs .capture = true) (hstl : cs .stl
      = true) (hlinks : ∀ i, cs (.link i) = true) (hsamples : ∀ i, cs (.sample i) = true) (hstalls : ∀ i, cs (.stall i) = true) (houtlets : ∀ i, cs
      (.outlet i) = true) (hsettingss : ∀ i, cs (.settings i) = true) (hbays : ∀ i, cs (.bay i) = true) (hmkt : cs .mkt = true) (hthm : cs .thm =
      true) (haux : cs .aux = true) (hmet : cs .met = true) (hsaf : cs .saf = true) (hrole : cs .role = true) (hpair : cs .pair = true) (hsbus : cs
      .sbus = true) (hvault : cs .vault = true) (hupd : cs .upd = true) (hqueues : cs .queues = true) (hldg : cs .ldg = true) (hmram : cs .mram =
      true) (h : OnlyIn cs s t) :
    OnlyIn cs s (State.afterDeadline t a1) := by
  unfold State.afterDeadline
  extract_lets +onlyGivenNames -merge -underBinder x0
  have hx0 : OnlyIn cs s x0 :=
        (by unfold x0; exact (by split; (next => exact (State.releaseIfFit_only hprof hsums hlat hcapture hlinks hsamples hstalls houtlets hbays hmkt hsaf hrole hpair hsbus hqueues h)); (next => exact h)))
  (try clear_value x0)
  exact (OnlyIn.ite (State.setPair_only ⟨.inr (by rfl), .inl hpair⟩ hx0) (OnlyIn.ite (State.releaseActive_only hprof hsums hlat hcapture hlinks
        hsamples hstalls houtlets hbays hmkt hsaf hrole hpair hsbus hqueues (State.sendCtrl_only hpair (State.setPair_only ⟨.inr (by rfl), .inl hpair⟩
        hx0))) (OnlyIn.ite (State.activationBoot_only hdraws hprof hlock hsums hanswer hviol hhost hassume hclk hpwr hrtc hlat hcapture hstl hlinks
        hsamples hstalls houtlets hsettingss hbays hmkt hthm haux hmet hsaf hrole hpair hsbus hvault hupd hqueues hldg hmram hx0) hx0)))

theorem State.diverge_only {cs : Block → Bool} {s t : State} (hsums : cs .sums = true) (hcapture : cs .capture = true) (hrole : cs .role = true)
      (hpair : cs .pair = true) (hsbus : cs .sbus = true) (hqueues : cs .queues = true) (h : OnlyIn cs s t) :
    OnlyIn cs s (State.diverge t) := by
  unfold State.diverge
  extract_lets +onlyGivenNames -merge -underBinder x0
  (try clear_value x0)
  extract_lets +onlyGivenNames -merge -underBinder x1
  have hx1 : OnlyIn cs s x1 := (State.setPair_only ⟨.inr (by rfl), .inl hpair⟩ h)
  (try clear_value x1)
  extract_lets +onlyGivenNames -merge -underBinder x2
  have hx2 : OnlyIn cs s x2 := (State.setSeljo_only hpair hx1)
  (try clear_value x2)
  exact (State.setRole_only hsums hcapture hrole hpair hsbus hqueues hx2)

theorem State.stepTime_only {cs : Block → Bool} {s t : State} {a1} (hmt : cs .mt = true) (hclk : cs .clk = true) (hrtc : cs .rtc = true) (h : OnlyIn
      cs s t) :
    OnlyIn cs s (State.stepTime t a1) := by
  unfold State.stepTime
  exact (OnlyIn.mk h (.inr (by rfl)) (.inl hmt) (.inr (by rfl)) (.inr (by rfl)) (.inr (by rfl)) (.inr (by rfl)) ⟨.inr (by rfl), .inr (by rfl), .inr
        (by rfl), .inr (by rfl)⟩ (.inr (by rfl)) (.inl hclk) (.inr (by rfl)) (.inl hrtc) (.inr (by rfl)) ⟨.inr (by rfl), .inr (by rfl)⟩ (.inr
        (by rfl)) (.inr (by rfl)) (.inr (by rfl)) (.inr (by rfl)) (.inr (by rfl)) (.inr (by rfl)) (.inr (by rfl)) ⟨.inr (by rfl), .inr (by rfl)⟩ (.inr
        (by rfl)) (.inr (by rfl)) (.inr (by rfl)) ⟨.inr (by rfl), .inr (by rfl)⟩ (.inr (by rfl)))

theorem State.lockedSlew_only {cs : Block → Bool} {s t : State} (hdraws : cs .draws = true) (hpair : cs .pair = true) (h : OnlyIn cs s t) :
    OnlyIn cs s (State.lockedSlew t) := by
  unfold State.lockedSlew
  extract_lets +onlyGivenNames -merge -underBinder x0
  have hx0 : OnlyIn cs s x0.2 := (State.drawNat_only hdraws h)
  (try clear_value x0)
  exact (State.setSeljo_only hpair hx0)

theorem State.trainWaiting_only {cs : Block → Bool} {s t : State} {a1} (hdraws : cs .draws = true) (hsums : cs .sums = true) (hlink1 : cs (.link a1) =
      true) (h : OnlyIn cs s t) :
    OnlyIn cs s (State.trainWaiting t a1) := by
  unfold State.trainWaiting
  extract_lets +onlyGivenNames -merge -underBinder x0
  (try clear_value x0)
  exact (OnlyIn.ite h (OnlyIn.ite (State.linkAlign_only hsums hlink1 h) (OnlyIn.ite (State.sendConfig_only hdraws hlink1 h) h)))

theorem State.trainLocked_only {cs : Block → Bool} {s t : State} (hdraws : cs .draws = true) (hsums : cs .sums = true) (hlinks : ∀ i, cs (.link i) =
      true) (h : OnlyIn cs s t) :
    OnlyIn cs s (State.trainLocked t) := by
  unfold State.trainLocked
  exact (State.forAll_only (fun _ _ k0 => (State.trainWaiting_only hdraws hsums (hlinks _) k0)) h)

theorem State.follow_only {cs : Block → Bool} {s t : State} {a1 a2} (hmt : cs .mt = true) (hdraws : cs .draws = true) (hsums : cs .sums = true) (hclk
      : cs .clk = true) (hrtc : cs .rtc = true) (hcapture : cs .capture = true) (hlinks : ∀ i, cs (.link i) = true) (hrole : cs .role = true) (hpair :
      cs .pair = true) (hsbus : cs .sbus = true) (hqueues : cs .queues = true) (h : OnlyIn cs s t) :
    OnlyIn cs s (State.follow t a1 a2) := by
  unfold State.follow
  exact (OnlyIn.ite (State.enterUnfit_only hsums hcapture hrole hpair hsbus hqueues (State.setSeljo_only hpair h))
        (by extract_lets +onlyGivenNames -merge -underBinder x0; (try clear_value x0); exact (by extract_lets +onlyGivenNames -merge -underBinder x1; have hx1 : OnlyIn cs s x1 := (by unfold x1; exact (OnlyIn.ite (State.stepTime_only hmt hclk hrtc h) h)); (try clear_value x1); exact (by extract_lets +onlyGivenNames -merge -underBinder x2; have hx2 : OnlyIn cs s x2 := (State.setSeljo_only hpair hx1); (try clear_value x2); exact (by extract_lets +onlyGivenNames -merge -underBinder x3; have hx3 : OnlyIn cs s x3 := (State.bumpIf_only hsums hx2); (try clear_value x3); exact (OnlyIn.ite (OnlyIn.ite (State.lockedSlew_only hdraws hpair hx3) (State.trainLocked_only hdraws hsums hlinks hx3)) hx3))))))

theorem State.judgePitch_only {cs : Block → Bool} {s t : State} {a1 a2} (hsums : cs .sums = true) (hcapture : cs .capture = true) (hrole : cs .role =
      true) (hpair : cs .pair = true) (hsbus : cs .sbus = true) (hqueues : cs .queues = true) (h : OnlyIn cs s t) :
    OnlyIn cs s (State.judgePitch t a1 a2) := by
  unfold State.judgePitch
  exact
        (by split; (next => exact (OnlyIn.ite h (OnlyIn.ite (State.setSeljo_only hpair h) (State.diverge_only hsums hcapture hrole hpair hsbus hqueues h)))); (next => exact h))

theorem State.partnerHolds_only {cs : Block → Bool} {s t : State} {a1 a2} (hprof : cs .prof = true) (hpair : cs .pair = true) (h : OnlyIn cs s t) :
    OnlyIn cs s (State.partnerHolds t a1 a2) := by
  unfold State.partnerHolds
  extract_lets +onlyGivenNames -merge -underBinder x0
  have hx0 : OnlyIn cs s x0 := (State.setSeljo_only hpair h)
  (try clear_value x0)
  exact (by split; (next => exact (OnlyIn.ite (OnlyIn.setProf hprof hx0) hx0)); (next => exact hx0))

theorem State.shadowInput_only {cs : Block → Bool} {s t : State} {a1 a2 a3} (hsums : cs .sums = true) (hlat : cs .lat = true) (hcapture : cs .capture
      = true) (hlinks : ∀ i, cs (.link i) = true) (hsample1 : cs (.sample a1) = true) (hstalls : ∀ i, cs (.stall i) = true) (hbays : ∀ i, cs (.bay i)
      = true) (hmkt : cs .mkt = true) (hsaf : cs .saf = true) (hpair : cs .pair = true) (hqueues : cs .queues = true) (h : OnlyIn cs s t) :
    OnlyIn cs s (State.shadowInput t a1 a2 a3) := by
  unfold State.shadowInput
  extract_lets +onlyGivenNames -merge -underBinder x0
  (try clear_value x0)
  exact
        (by split; (next => exact (State.setStall_only (fun _ => ⟨.inl (hlinks _), .inr (by rfl), .inr (by rfl)⟩) (State.takeSample_only hsums hlat hcapture hlinks hsample1 hstalls hbays hmkt hsaf hpair hqueues h))); (next => exact (OnlyIn.ite (State.setStall_only (fun _ => ⟨.inl (hlinks _), .inr (by rfl), .inr (by rfl)⟩) (State.loseSample_only hsums hcapture (hlinks _) hsample1 (hstalls _) hqueues h)) h)))

theorem State.shadowFrom_only {cs : Block → Bool} {s t : State} {a1 a2} (hsums : cs .sums = true) (hlat : cs .lat = true) (hcapture : cs .capture =
      true) (hlinks : ∀ i, cs (.link i) = true) (hsamples : ∀ i, cs (.sample i) = true) (hstalls : ∀ i, cs (.stall i) = true) (hbays : ∀ i, cs (.bay
      i) = true) (hmkt : cs .mkt = true) (hsaf : cs .saf = true) (hpair : cs .pair = true) (hqueues : cs .queues = true) (h : OnlyIn cs s t) :
    OnlyIn cs s (State.shadowFrom t a1 a2) := by
  unfold State.shadowFrom
  exact (OnlyIn.foldl (fun _ _ k0 =>
        (by split; (next => exact (State.shadowInput_only hsums hlat hcapture hlinks (hsamples _) hstalls hbays hmkt hsaf hpair hqueues k0)); (next => exact k0)))
        h)

theorem State.replayPitch_only {cs : Block → Bool} {s t : State} {a1 a2} (hsums : cs .sums = true) (hlat : cs .lat = true) (hcapture : cs .capture =
      true) (hstl : cs .stl = true) (hlinks : ∀ i, cs (.link i) = true) (hsamples : ∀ i, cs (.sample i) = true) (hstalls : ∀ i, cs (.stall i) = true)
      (hbays : ∀ i, cs (.bay i) = true) (hmkt : cs .mkt = true) (hsaf : cs .saf = true) (hpair : cs .pair = true) (hqueues : cs .queues = true) (h :
      OnlyIn cs s t) :
    OnlyIn cs s (State.replayPitch t a1 a2) := by
  unfold State.replayPitch
  exact (State.endPitch_only hsums hlat hcapture hstl hstalls hmkt hpair hqueues (State.openWindow_only hsums hlat hlinks hstalls hmkt hsaf
        (State.shadowFrom_only hsums hlat hcapture hlinks hsamples hstalls hbays hmkt hsaf hpair hqueues h)))

theorem State.sendHeld_only {cs : Block → Bool} {s t : State} {a1} (hbay1 : cs (.bay a1) = true) (h : OnlyIn cs s t) :
    OnlyIn cs s (State.sendHeld t a1) := by
  unfold State.sendHeld
  exact (by split; (next => exact (OnlyIn.ite (State.sendResp_only hbay1 h) h)); (next => exact h))

theorem State.seljoDown_only {cs : Block → Bool} {s t : State} (hsums : cs .sums = true) (hcapture : cs .capture = true) (hbays : ∀ i, cs (.bay i) =
      true) (hrole : cs .role = true) (hpair : cs .pair = true) (hsbus : cs .sbus = true) (hqueues : cs .queues = true) (h : OnlyIn cs s t) :
    OnlyIn cs s (State.seljoDown t) := by
  unfold State.seljoDown
  exact (OnlyIn.ite h
        (by extract_lets +onlyGivenNames -merge -underBinder x0; have hx0 : OnlyIn cs s x0 := (State.bump_only hsums (State.setSeljo_only hpair h)); (try clear_value x0); exact (by extract_lets +onlyGivenNames -merge -underBinder x1; have hx1 : OnlyIn cs s x1 := (State.forAll_only (fun _ _ k2 => (State.sendHeld_only (hbays _) k2)) hx0); (try clear_value x1); exact (OnlyIn.ite (State.judgeRole_only hsums hcapture hrole hpair hsbus hqueues hx1) hx1))))

theorem State.seljoBad_only {cs : Block → Bool} {s t : State} (hsums : cs .sums = true) (hcapture : cs .capture = true) (hbays : ∀ i, cs (.bay i) =
      true) (hrole : cs .role = true) (hpair : cs .pair = true) (hsbus : cs .sbus = true) (hqueues : cs .queues = true) (h : OnlyIn cs s t) :
    OnlyIn cs s (State.seljoBad t) := by
  unfold State.seljoBad
  extract_lets +onlyGivenNames -merge -underBinder x0
  have hx0 : OnlyIn cs s x0 := (State.setSeljo_only hpair h)
  (try clear_value x0)
  exact (OnlyIn.ite (State.seljoDown_only hsums hcapture hbays hrole hpair hsbus hqueues hx0) hx0)

theorem State.shadowOwn_only {cs : Block → Bool} {s t : State} {a1} (hsums : cs .sums = true) (hlat : cs .lat = true) (hcapture : cs .capture = true)
      (hlinks : ∀ i, cs (.link i) = true) (hsamples : ∀ i, cs (.sample i) = true) (hstalls : ∀ i, cs (.stall i) = true) (hbays : ∀ i, cs (.bay i) =
      true) (hmkt : cs .mkt = true) (hsaf : cs .saf = true) (hpair : cs .pair = true) (hqueues : cs .queues = true) (h : OnlyIn cs s t) :
    OnlyIn cs s (State.shadowOwn t a1) := by
  unfold State.shadowOwn
  exact (State.forAll_only (fun _ _ k0 => (OnlyIn.ite k0
        (by split; (next => exact (State.shadowInput_only hsums hlat hcapture hlinks (hsamples _) hstalls hbays hmkt hsaf hpair hqueues k0)); (next => exact (State.shadowInput_only hsums hlat hcapture hlinks (hsamples _) hstalls hbays hmkt hsaf hpair hqueues k0)))))
        h)

theorem State.shadowInputs_only {cs : Block → Bool} {s t : State} {a1} (hsums : cs .sums = true) (hlat : cs .lat = true) (hcapture : cs .capture =
      true) (hlinks : ∀ i, cs (.link i) = true) (hsamples : ∀ i, cs (.sample i) = true) (hstalls : ∀ i, cs (.stall i) = true) (hbays : ∀ i, cs (.bay
      i) = true) (hmkt : cs .mkt = true) (hsaf : cs .saf = true) (hpair : cs .pair = true) (hqueues : cs .queues = true) (h : OnlyIn cs s t) :
    OnlyIn cs s (State.shadowInputs t a1) := by
  unfold State.shadowInputs
  exact
        (by split; (next => exact (OnlyIn.ite (State.shadowFrom_only hsums hlat hcapture hlinks hsamples hstalls hbays hmkt hsaf hpair hqueues h) (State.shadowOwn_only hsums hlat hcapture hlinks hsamples hstalls hbays hmkt hsaf hpair hqueues h))); (next => exact (State.shadowOwn_only hsums hlat hcapture hlinks hsamples hstalls hbays hmkt hsaf hpair hqueues h)))

theorem State.takeSession_only {cs : Block → Bool} {s t : State} {a1 a2 a3} (hsums : cs .sums = true) (hlat : cs .lat = true) (houtlet2 : cs (.outlet
      a2) = true) (hbay2 : cs (.bay a2) = true) (h : OnlyIn cs s t) :
    OnlyIn cs s (State.takeSession t a1 a2 a3) := by
  unfold State.takeSession
  extract_lets +onlyGivenNames -merge -underBinder x0
  (try clear_value x0)
  extract_lets +onlyGivenNames -merge -underBinder x1
  (try clear_value x1)
  extract_lets +onlyGivenNames -merge -underBinder x2
  (try clear_value x2)
  extract_lets +onlyGivenNames -merge -underBinder x3
  (try clear_value x3)
  extract_lets +onlyGivenNames -merge -underBinder x4
  have hx4 : OnlyIn cs s x4 := (State.bumpIf_only hsums (State.setBay_only (fun _ => ⟨.inr (by rfl), .inr (by rfl), .inl hbay2⟩) h))
  (try clear_value x4)
  extract_lets +onlyGivenNames -merge -underBinder x5
  have hx5 : OnlyIn cs s x5 := (State.commitTarget_only hlat hx4)
  (try clear_value x5)
  exact (State.commandOutlet_only hsums houtlet2 hx5)

theorem State.takeSlots_only {cs : Block → Bool} {s t : State} {a1} (hstalls : ∀ i, cs (.stall i) = true) (hmkt : cs .mkt = true) (h : OnlyIn cs s t)
      :
    OnlyIn cs s (State.takeSlots t a1) := by
  unfold State.takeSlots
  extract_lets +onlyGivenNames -merge -underBinder x0 x1
  have hx1 : OnlyIn cs s x1 := (OnlyIn.setMkt hmkt h)
  (try clear_value x0)
  (try clear_value x1)
  exact (State.forAll_only (fun _ _ k2 =>
        (by extract_lets +onlyGivenNames -merge -underBinder x3; (try clear_value x3); exact (by split; (next => exact (OnlyIn.ite (State.setStall_only (fun _ => ⟨.inr (by rfl), .inr (by rfl), .inl (hstalls _)⟩) k2) (OnlyIn.ite (State.setStall_only (fun _ => ⟨.inr (by rfl), .inr (by rfl), .inl (hstalls _)⟩) k2) k2))); (next => exact k2))))
        hx1)

theorem State.takeState_only {cs : Block → Bool} {s t : State} {a1} (hstalls : ∀ i, cs (.stall i) = true) (hmkt : cs .mkt = true) (hsaf : cs .saf =
      true) (hpair : cs .pair = true) (h : OnlyIn cs s t) :
    OnlyIn cs s (State.takeState t a1) := by
  unfold State.takeState
  extract_lets +onlyGivenNames -merge -underBinder x0
  have hx0 : OnlyIn cs s x0 := (State.adoptPolicy_only hmkt h)
  (try clear_value x0)
  extract_lets +onlyGivenNames -merge -underBinder x1
  have hx1 : OnlyIn cs s x1 := (OnlyIn.foldl (fun _ _ k2 =>
        (by split; (next => exact (State.setStall_only (fun _ => ⟨.inr (by rfl), .inr (by rfl), .inl (hstalls _)⟩) k2)); (next => exact k2))) hx0)
  (try clear_value x1)
  extract_lets +onlyGivenNames -merge -underBinder x3
  have hx3 : OnlyIn cs s x3 := (State.takeSlots_only hstalls hmkt hx1)
  (try clear_value x3)
  extract_lets +onlyGivenNames -merge -underBinder x4 x5
  have hx5 : OnlyIn cs s x5 := (OnlyIn.setSaf hsaf hx3)
  (try clear_value x4)
  (try clear_value x5)
  exact (State.setPartner_only hpair hx5)

theorem doComputeDeadline_only {cs : Block → Bool} {s t : State} {a0 a1 a2} (hmt : cs .mt = true) (hdraws : cs .draws = true) (hprof : cs .prof =
      true) (hlock : cs .lock = true) (hsums : cs .sums = true) (hanswer : cs .answer = true) (hviol : cs .viol = true) (hhost : cs .host = true)
      (hassume : cs .assume = true) (hclk : cs .clk = true) (hpwr : cs .pwr = true) (hrtc : cs .rtc = true) (hlat : cs .lat = true) (hcapture : cs
      .capture = true) (hstl : cs .stl = true) (hlinks : ∀ i, cs (.link i) = true) (hsamples : ∀ i, cs (.sample i) = true) (hstalls : ∀ i, cs (.stall
      i) = true) (houtlets : ∀ i, cs (.outlet i) = true) (hsettingss : ∀ i, cs (.settings i) = true) (hbays : ∀ i, cs (.bay i) = true) (hmkt : cs .mkt
      = true) (hthm : cs .thm = true) (haux : cs .aux = true) (hmet : cs .met = true) (hsaf : cs .saf = true) (hrole : cs .role = true) (hpair : cs
      .pair = true) (hsbus : cs .sbus = true) (hvault : cs .vault = true) (hupd : cs .upd = true) (hqueues : cs .queues = true) (hldg : cs .ldg =
      true) (hmram : cs .mram = true) (h : OnlyIn cs s t) :
    OnlyIn cs s (doComputeDeadline a0 a1 a2 t) := by
  unfold doComputeDeadline
  exact (whenLive_only hmt (fun _ k0 =>
        (by extract_lets +onlyGivenNames -merge -underBinder x1; have hx1 : OnlyIn cs s x1 := (State.judgeHold_only hprof hsums hlat hcapture hlinks hsamples hstalls houtlets hbays hmkt hsaf hrole hpair hsbus hqueues k0); (try clear_value x1); exact (by split; (next => exact (OnlyIn.ite (by extract_lets +onlyGivenNames -merge -underBinder x2; (try clear_value x2); exact (by extract_lets +onlyGivenNames -merge -underBinder x3; (try clear_value x3); exact (by extract_lets +onlyGivenNames -merge -underBinder x4; (try clear_value x4); exact (by extract_lets +onlyGivenNames -merge -underBinder x5; have hx5 : OnlyIn cs s x5 := (State.endPitch_only hsums hlat hcapture hstl hstalls hmkt hpair hqueues hx1); (try clear_value x5); exact (by extract_lets +onlyGivenNames -merge -underBinder x6; have hx6 : OnlyIn cs s x6 := (by unfold x6; exact (OnlyIn.ite (State.refreshPitch_only hpair hx5) hx5)); (try clear_value x6); exact (OnlyIn.ite (OnlyIn.ite (State.finishHandover_only hdraws hprof hsums hlat hcapture hlinks hthm hsaf hpair hsbus hqueues hmram hx6) hx6) (OnlyIn.ite (State.afterDeadline_only hdraws hprof hlock hsums hanswer hviol hhost hassume hclk hpwr hrtc hlat hcapture hstl hlinks hsamples hstalls houtlets hsettingss hbays hmkt hthm haux hmet hsaf hrole hpair hsbus hvault hupd hqueues hldg hmram hx6) hx6))))))) hx1)); (next => exact hx1))))
        h)

theorem doComputeWindowOpen_only {cs : Block → Bool} {s t : State} {a0} (hmt : cs .mt = true) (hprof : cs .prof = true) (hsums : cs .sums = true)
      (hlat : cs .lat = true) (hcapture : cs .capture = true) (hlinks : ∀ i, cs (.link i) = true) (hsamples : ∀ i, cs (.sample i) = true) (hstalls : ∀
      i, cs (.stall i) = true) (houtlets : ∀ i, cs (.outlet i) = true) (hbays : ∀ i, cs (.bay i) = true) (hmkt : cs .mkt = true) (hsaf : cs .saf =
      true) (hrole : cs .role = true) (hpair : cs .pair = true) (hsbus : cs .sbus = true) (hqueues : cs .queues = true) (h : OnlyIn cs s t) :
    OnlyIn cs s (doComputeWindowOpen a0 t) := by
  unfold doComputeWindowOpen
  exact (whenLive_only hmt (fun _ k0 =>
        (by extract_lets +onlyGivenNames -merge -underBinder x1; have hx1 : OnlyIn cs s x1 := (State.judgeHold_only hprof hsums hlat hcapture hlinks hsamples hstalls houtlets hbays hmkt hsaf hrole hpair hsbus hqueues k0); (try clear_value x1); exact (by extract_lets +onlyGivenNames -merge -underBinder x2; (try clear_value x2); exact (OnlyIn.ite (by extract_lets +onlyGivenNames -merge -underBinder x3; have hx3 : OnlyIn cs s x3 := (by unfold x3; exact (OnlyIn.ite (State.forAll_only (fun _ _ k4 => (State.takeOwn_only hsums hlat hcapture hlinks (hsamples _) hstalls hbays hmkt hsaf hpair hqueues k4)) hx1) hx1)); (try clear_value x3); exact (State.sendPitch_only hpair (State.openWindow_only hsums hlat hlinks hstalls hmkt hsaf (State.armHold_only hpair hx3)))) hx1))))
        h)

theorem doProfileHandoverRelease_only {cs : Block → Bool} {s t : State} {a0} (hmt : cs .mt = true) (hdraws : cs .draws = true) (hprof : cs .prof =
      true) (hsums : cs .sums = true) (hlat : cs .lat = true) (hcapture : cs .capture = true) (hlinks : ∀ i, cs (.link i) = true) (hsamples : ∀ i, cs
      (.sample i) = true) (hstalls : ∀ i, cs (.stall i) = true) (houtlets : ∀ i, cs (.outlet i) = true) (hbays : ∀ i, cs (.bay i) = true) (hmkt : cs
      .mkt = true) (hthm : cs .thm = true) (hsaf : cs .saf = true) (hrole : cs .role = true) (hpair : cs .pair = true) (hsbus : cs .sbus = true)
      (hqueues : cs .queues = true) (hmram : cs .mram = true) (h : OnlyIn cs s t) :
    OnlyIn cs s (doProfileHandoverRelease a0 t) := by
  unfold doProfileHandoverRelease
  exact (whenLive_only hmt (fun _ k0 =>
        (by split; (next => exact (by split; (next => exact (OnlyIn.ite (State.cancelPending_only hprof hsums hlat hpair k0) (OnlyIn.ite (State.takeHandover_only hdraws hprof hsums hlat hcapture hlinks hthm hsaf hpair hsbus hqueues hmram (State.releaseActive_only hprof hsums hlat hcapture hlinks hsamples hstalls houtlets hbays hmkt hsaf hrole hpair hsbus hqueues (State.sendCtrl_only hpair k0))) k0))); (next => exact k0))); (next => exact k0)))
        h)

theorem seljoMsg_only {cs : Block → Bool} {s t : State} {a0} {a1} {a2} {a3 : Sys2Proof.Machine.State → Sys2Proof.Machine.State} (hmt : cs .mt = true)
      (hsums : cs .sums = true) (hcapture : cs .capture = true) (hbays : ∀ i, cs (.bay i) = true) (hrole : cs .role = true) (hpair : cs .pair = true)
      (hsbus : cs .sbus = true) (hqueues : cs .queues = true) (k3_ : ∀  w, OnlyIn cs s w → OnlyIn cs s (a3  w)) (h : OnlyIn cs s t) :
    OnlyIn cs s (seljoMsg a0 a1 a2 a3 t) := by
  unfold seljoMsg
  exact (whenLive_only hmt (fun _ k0 => (OnlyIn.ite k0 (OnlyIn.ite (State.seljoBad_only hsums hcapture hbays hrole hpair hsbus hqueues k0) (k3_ _
        (State.setSeljo_only hpair k0))))) h)

theorem doSeljoCapture_only {cs : Block → Bool} {s t : State} {a0 a1 a2} (hmt : cs .mt = true) (hsums : cs .sums = true) (hlat : cs .lat = true)
      (hcapture : cs .capture = true) (hstl : cs .stl = true) (hlinks : ∀ i, cs (.link i) = true) (hsamples : ∀ i, cs (.sample i) = true) (hstalls : ∀
      i, cs (.stall i) = true) (hbays : ∀ i, cs (.bay i) = true) (hmkt : cs .mkt = true) (hsaf : cs .saf = true) (hrole : cs .role = true) (hpair : cs
      .pair = true) (hsbus : cs .sbus = true) (hqueues : cs .queues = true) (h : OnlyIn cs s t) :
    OnlyIn cs s (doSeljoCapture a0 a1 a2 t) := by
  unfold doSeljoCapture
  exact (seljoMsg_only hmt hsums hcapture hbays hrole hpair hsbus hqueues (fun _ k0 => (OnlyIn.ite (State.setSeljo_only hpair k0)
        (by split; (next => exact (by extract_lets +onlyGivenNames -merge -underBinder x1; (try clear_value x1); exact (OnlyIn.ite (by extract_lets +onlyGivenNames -merge -underBinder x2; (try clear_value x2); exact (by extract_lets +onlyGivenNames -merge -underBinder x3 x4; have hx4 : OnlyIn cs s x4 := (OnlyIn.setLat hlat k0); (try clear_value x3); (try clear_value x4); exact (by extract_lets +onlyGivenNames -merge -underBinder x5; have hx5 : OnlyIn cs s x5 := (OnlyIn.foldl (fun _ _ k6 => (State.replayPitch_only hsums hlat hcapture hstl hlinks hsamples hstalls hbays hmkt hsaf hpair hqueues k6)) hx4); (try clear_value x5); exact (State.setSeljo_only hpair hx5)))) k0))); (next => exact k0))))
        h)

theorem doSeljoCtrl_only {cs : Block → Bool} {s t : State} {a0 a1 a2} (hmt : cs .mt = true) (hprof : cs .prof = true) (hsums : cs .sums = true)
      (hcapture : cs .capture = true) (hbays : ∀ i, cs (.bay i) = true) (hrole : cs .role = true) (hpair : cs .pair = true) (hsbus : cs .sbus = true)
      (hqueues : cs .queues = true) (h : OnlyIn cs s t) :
    OnlyIn cs s (doSeljoCtrl a0 a1 a2 t) := by
  unfold doSeljoCtrl
  exact (seljoMsg_only hmt hsums hcapture hbays hrole hpair hsbus hqueues (fun _ k0 =>
        (by split; (next => exact (State.setSeljo_only hpair k0)); (next => exact k0); (next => exact (OnlyIn.ite (State.partnerHolds_only hprof hpair k0) (OnlyIn.ite (State.startCheck_only hprof hsums k0) k0)))))
        h)

theorem doSeljoHealth_only {cs : Block → Bool} {s t : State} {a0 a1 a2} (hmt : cs .mt = true) (hsums : cs .sums = true) (hcapture : cs .capture =
      true) (hbays : ∀ i, cs (.bay i) = true) (hrole : cs .role = true) (hpair : cs .pair = true) (hsbus : cs .sbus = true) (hqueues : cs .queues =
      true) (h : OnlyIn cs s t) :
    OnlyIn cs s (doSeljoHealth a0 a1 a2 t) := by
  unfold doSeljoHealth
  exact (seljoMsg_only hmt hsums hcapture hbays hrole hpair hsbus hqueues (fun _ k0 => (State.bumpIf_only hsums (State.setPartner_only hpair k0))) h)

theorem doSeljoLinkDown_only {cs : Block → Bool} {s t : State} {a0} (hmt : cs .mt = true) (hsums : cs .sums = true) (hcapture : cs .capture = true)
      (hbays : ∀ i, cs (.bay i) = true) (hrole : cs .role = true) (hpair : cs .pair = true) (hsbus : cs .sbus = true) (hqueues : cs .queues = true) (h
      : OnlyIn cs s t) :
    OnlyIn cs s (doSeljoLinkDown a0 t) := by
  unfold doSeljoLinkDown
  exact (whenLive_only hmt (fun _ k0 => (State.seljoDown_only hsums hcapture hbays hrole hpair hsbus hqueues k0)) h)

theorem doSeljoLinkUp_only {cs : Block → Bool} {s t : State} {a0} (hmt : cs .mt = true) (hsums : cs .sums = true) (hcapture : cs .capture = true)
      (hrole : cs .role = true) (hpair : cs .pair = true) (hsbus : cs .sbus = true) (hqueues : cs .queues = true) (h : OnlyIn cs s t) :
    OnlyIn cs s (doSeljoLinkUp a0 t) := by
  unfold doSeljoLinkUp
  exact (whenLive_only hmt (fun _ k0 => (OnlyIn.ite k0
        (by extract_lets +onlyGivenNames -merge -underBinder x1; have hx1 : OnlyIn cs s x1 := (State.bump_only hsums (State.setSeljo_only hpair k0)); (try clear_value x1); exact (by split; (next => exact (State.enterSyncing_only hsums hcapture hrole hpair hsbus hqueues hx1)); (next => exact (State.setSeljo_only hpair hx1)); (next => exact hx1)))))
        h)

theorem doSeljoPitch_only {cs : Block → Bool} {s t : State} {a0 a1 a2} (hmt : cs .mt = true) (hsums : cs .sums = true) (hcapture : cs .capture = true)
      (hbays : ∀ i, cs (.bay i) = true) (hrole : cs .role = true) (hpair : cs .pair = true) (hsbus : cs .sbus = true) (hqueues : cs .queues = true) (h
      : OnlyIn cs s t) :
    OnlyIn cs s (doSeljoPitch a0 a1 a2 t) := by
  unfold doSeljoPitch
  exact (seljoMsg_only hmt hsums hcapture hbays hrole hpair hsbus hqueues (fun _ k0 =>
        (by split; (next => exact (OnlyIn.ite k0 (by extract_lets +onlyGivenNames -merge -underBinder x1; (try clear_value x1); exact (by extract_lets +onlyGivenNames -merge -underBinder x2; have hx2 : OnlyIn cs s x2 := (State.judgePitch_only hsums hcapture hrole hpair hsbus hqueues k0); (try clear_value x2); exact (by extract_lets +onlyGivenNames -merge -underBinder x3; have hx3 : OnlyIn cs s x3 := (State.setSeljo_only hpair hx2); (try clear_value x3); exact (OnlyIn.ite hx3 (State.setSeljo_only hpair hx3))))))); (next => exact k0)))
        h)

theorem doSeljoSession_only {cs : Block → Bool} {s t : State} {a0 a1 a2 a3} (hmt : cs .mt = true) (hsums : cs .sums = true) (hviol : cs .viol = true)
      (hlat : cs .lat = true) (hcapture : cs .capture = true) (houtlet2 : cs (.outlet a2) = true) (hbays : ∀ i, cs (.bay i) = true) (hrole : cs .role
      = true) (hpair : cs .pair = true) (hsbus : cs .sbus = true) (hvault : cs .vault = true) (hqueues : cs .queues = true) (h : OnlyIn cs s t) :
    OnlyIn cs s (doSeljoSession a0 a1 a2 a3 t) := by
  unfold doSeljoSession
  exact (seljoMsg_only hmt hsums hcapture hbays hrole hpair hsbus hqueues (fun _ k0 => (OnlyIn.ite k0 (OnlyIn.ite (State.serveUse_only hsums hviol
        hcapture hvault hqueues k0) (State.setSeljo_only hpair (State.takeSession_only hsums hlat houtlet2 (hbays _) (State.serveUse_only hsums hviol
        hcapture hvault hqueues k0)))))) h)

theorem doSeljoSessionAck_only {cs : Block → Bool} {s t : State} {a0 a1} (hmt : cs .mt = true) (hbay1 : cs (.bay a1) = true) (h : OnlyIn cs s t) :
    OnlyIn cs s (doSeljoSessionAck a0 a1 t) := by
  unfold doSeljoSessionAck
  exact (whenLive_only hmt (fun _ k0 => (State.sendHeld_only hbay1 k0)) h)

theorem doSeljoState_only {cs : Block → Bool} {s t : State} {a0 a1 a2} (hmt : cs .mt = true) (hsums : cs .sums = true) (hcapture : cs .capture = true)
      (hstalls : ∀ i, cs (.stall i) = true) (hbays : ∀ i, cs (.bay i) = true) (hmkt : cs .mkt = true) (hsaf : cs .saf = true) (hrole : cs .role =
      true) (hpair : cs .pair = true) (hsbus : cs .sbus = true) (hqueues : cs .queues = true) (h : OnlyIn cs s t) :
    OnlyIn cs s (doSeljoState a0 a1 a2 t) := by
  unfold doSeljoState
  exact (seljoMsg_only hmt hsums hcapture hbays hrole hpair hsbus hqueues (fun _ k0 => (OnlyIn.ite k0 (State.askCapture_only hpair
        (State.setSeljo_only hpair (State.takeState_only hstalls hmkt hsaf hpair k0))))) h)

theorem doSeljoTick_only {cs : Block → Bool} {s t : State} {a0 a1 a2 a3} (hmt : cs .mt = true) (hsums : cs .sums = true) (hcapture : cs .capture =
      true) (hbays : ∀ i, cs (.bay i) = true) (hmkt : cs .mkt = true) (hrole : cs .role = true) (hpair : cs .pair = true) (hsbus : cs .sbus = true)
      (hqueues : cs .queues = true) (h : OnlyIn cs s t) :
    OnlyIn cs s (doSeljoTick a0 a1 a2 a3 t) := by
  unfold doSeljoTick
  exact (seljoMsg_only hmt hsums hcapture hbays hrole hpair hsbus hqueues (fun _ k0 =>
        (by extract_lets +onlyGivenNames -merge -underBinder x1; have hx1 : OnlyIn cs s x1 := (by unfold x1; exact (by split; (next => exact (OnlyIn.ite k0 (OnlyIn.ite (State.setSeljo_only hpair k0) (State.diverge_only hsums hcapture hrole hpair hsbus hqueues k0)))); (next => exact k0))); (try clear_value x1); exact (OnlyIn.ite (State.clearOn_only hmkt (State.setSeljo_only hpair hx1)) hx1)))
        h)

theorem doSeljoTime_only {cs : Block → Bool} {s t : State} {a0 a1 a2 a3 a4 a5} (hmt : cs .mt = true) (hdraws : cs .draws = true) (hsums : cs .sums =
      true) (hclk : cs .clk = true) (hrtc : cs .rtc = true) (hcapture : cs .capture = true) (hlinks : ∀ i, cs (.link i) = true) (hbays : ∀ i, cs (.bay
      i) = true) (hrole : cs .role = true) (hpair : cs .pair = true) (hsbus : cs .sbus = true) (hqueues : cs .queues = true) (h : OnlyIn cs s t) :
    OnlyIn cs s (doSeljoTime a0 a1 a2 a3 a4 a5 t) := by
  unfold doSeljoTime
  exact (seljoMsg_only hmt hsums hcapture hbays hrole hpair hsbus hqueues (fun _ k0 =>
        (by extract_lets +onlyGivenNames -merge -underBinder x1; (try clear_value x1); exact (by extract_lets +onlyGivenNames -merge -underBinder x2; have hx2 : OnlyIn cs s x2 := (State.setSeljo_only hpair k0); (try clear_value x2); exact (OnlyIn.ite (State.follow_only hmt hdraws hsums hclk hrtc hcapture hlinks hrole hpair hsbus hqueues hx2) hx2))))
        h)

theorem doShadowWindowOpen_only {cs : Block → Bool} {s t : State} {a0} (hmt : cs .mt = true) (hsums : cs .sums = true) (hlat : cs .lat = true)
      (hcapture : cs .capture = true) (hlinks : ∀ i, cs (.link i) = true) (hsamples : ∀ i, cs (.sample i) = true) (hstalls : ∀ i, cs (.stall i) =
      true) (hbays : ∀ i, cs (.bay i) = true) (hmkt : cs .mkt = true) (hsaf : cs .saf = true) (hpair : cs .pair = true) (hqueues : cs .queues = true)
      (h : OnlyIn cs s t) :
    OnlyIn cs s (doShadowWindowOpen a0 t) := by
  unfold doShadowWindowOpen
  exact (whenLive_only hmt (fun _ k0 =>
        (by extract_lets +onlyGivenNames -merge -underBinder x1; (try clear_value x1); exact (by extract_lets +onlyGivenNames -merge -underBinder x2; (try clear_value x2); exact (OnlyIn.ite (State.openWindow_only hsums hlat hlinks hstalls hmkt hsaf (State.shadowInputs_only hsums hlat hcapture hlinks hsamples hstalls hbays hmkt hsaf hpair hqueues k0)) k0))))
        h)

theorem State.sendState_only {cs : Block → Bool} {s t : State} {a1} (hdraws : cs .draws = true) (hsums : cs .sums = true) (hviol : cs .viol = true)
      (hcapture : cs .capture = true) (hpair : cs .pair = true) (hvault : cs .vault = true) (hqueues : cs .queues = true) (h : OnlyIn cs s t) :
    OnlyIn cs s (State.sendState t a1) := by
  unfold State.sendState
  extract_lets +onlyGivenNames -merge -underBinder x0
  (try clear_value x0)
  extract_lets +onlyGivenNames -merge -underBinder x1
  (try clear_value x1)
  extract_lets +onlyGivenNames -merge -underBinder x2
  have hx2 : OnlyIn cs s x2 := (by unfold x2; exact (OnlyIn.ite (State.sendSeljo_only hpair h) h))
  (try clear_value x2)
  exact (OnlyIn.ite (State.forAll_only (fun _ _ k3 =>
        (by split; (next => exact (OnlyIn.ite k3 (State.sendSession_only hdraws hsums hviol hcapture hpair hvault hqueues k3))); (next => exact k3)))
        hx2) hx2)

theorem State.sendTick_only {cs : Block → Bool} {s t : State} {a1 a2} (hpair : cs .pair = true) (h : OnlyIn cs s t) :
    OnlyIn cs s (State.sendTick t a1 a2) := by
  unfold State.sendTick
  exact (State.sendSeljo_only hpair h)

theorem State.sessTimeouts_only {cs : Block → Bool} {s t : State} {a1} (hsums : cs .sums = true) (hlat : cs .lat = true) (hcapture : cs .capture =
      true) (hstalls : ∀ i, cs (.stall i) = true) (houtlets : ∀ i, cs (.outlet i) = true) (hbays : ∀ i, cs (.bay i) = true) (hmkt : cs .mkt = true)
      (hsaf : cs .saf = true) (hqueues : cs .queues = true) (h : OnlyIn cs s t) :
    OnlyIn cs s (State.sessTimeouts t a1) := by
  unfold State.sessTimeouts
  exact (State.forAll_only (fun _ _ k0 => (OnlyIn.ite (State.sessTimeout_only hsums hlat hcapture hstalls (houtlets _) (hbays _) hmkt hsaf hqueues k0)
        k0)) h)

theorem State.tickBids_only {cs : Block → Bool} {s t : State} (hsums : cs .sums = true) (hbays : ∀ i, cs (.bay i) = true) (h : OnlyIn cs s t) :
    OnlyIn cs s (State.tickBids t) := by
  unfold State.tickBids
  exact (State.forAll_only (fun _ _ k0 => (OnlyIn.ite (State.turnBid_only hsums (hbays _) k0) k0)) h)

theorem State.tickClamp_only {cs : Block → Bool} {s t : State} (hprof : cs .prof = true) (hsums : cs .sums = true) (hcapture : cs .capture = true)
      (hmkt : cs .mkt = true) (hqueues : cs .queues = true) (h : OnlyIn cs s t) :
    OnlyIn cs s (State.tickClamp t) := by
  unfold State.tickClamp
  exact (by split; (next => exact (State.clampTo_only hprof hsums hcapture hmkt hqueues h)); (next => exact h))

theorem State.tickClear_only {cs : Block → Bool} {s t : State} {a1} (hdraws : cs .draws = true) (hsums : cs .sums = true) (hviol : cs .viol = true)
      (hcapture : cs .capture = true) (hmkt : cs .mkt = true) (hpair : cs .pair = true) (hvault : cs .vault = true) (hqueues : cs .queues = true) (h :
      OnlyIn cs s t) :
    OnlyIn cs s (State.tickClear t a1) := by
  unfold State.tickClear
  exact (OnlyIn.ite h
        (by extract_lets +onlyGivenNames -merge -underBinder x0; (try clear_value x0); exact (State.clearOn_only hmkt (State.sendState_only hdraws hsums hviol hcapture hpair hvault hqueues (State.sendTick_only hpair h)))))

theorem State.tickLive_only {cs : Block → Bool} {s t : State} {a1} (hprof : cs .prof = true) (h : OnlyIn cs s t) :
    OnlyIn cs s (State.tickLive t a1) := by
  unfold State.tickLive
  exact (by split; (next => exact (OnlyIn.ite (OnlyIn.setProf hprof h) h)); (next => exact h))

theorem State.tickRampDown_only {cs : Block → Bool} {s t : State} (hdraws : cs .draws = true) (hsums : cs .sums = true) (hviol : cs .viol = true)
      (hcapture : cs .capture = true) (houtlets : ∀ i, cs (.outlet i) = true) (hbays : ∀ i, cs (.bay i) = true) (hpair : cs .pair = true) (hvault : cs
      .vault = true) (hqueues : cs .queues = true) (h : OnlyIn cs s t) :
    OnlyIn cs s (State.tickRampDown t) := by
  unfold State.tickRampDown
  exact (State.forAll_only (fun _ _ k0 => (OnlyIn.ite (State.rampedDown_only hdraws hsums hviol hcapture (houtlets _) (hbays _) hpair hvault hqueues
        k0) k0)) h)

theorem State.tickRearm_only {cs : Block → Bool} {s t : State} (hstalls : ∀ i, cs (.stall i) = true) (h : OnlyIn cs s t) :
    OnlyIn cs s (State.tickRearm t) := by
  unfold State.tickRearm
  exact (State.forAll_only (fun _ _ k0 => (OnlyIn.ite (State.setStall_only (fun _ => ⟨.inr (by rfl), .inr (by rfl), .inl (hstalls _)⟩) k0) k0)) h)

theorem State.tickRestore_only {cs : Block → Bool} {s t : State} {a1} (hsums : cs .sums = true) (hstalls : ∀ i, cs (.stall i) = true) (h : OnlyIn cs s
      t) :
    OnlyIn cs s (State.tickRestore t a1) := by
  unfold State.tickRestore
  exact (OnlyIn.ite
        (by split; (next => exact (by extract_lets +onlyGivenNames -merge -underBinder x0; (try clear_value x0); exact (State.bump_only hsums (State.setCell_only (hstalls _) h)))); (next => exact h))
        h)

theorem State.tickShed_only {cs : Block → Bool} {s t : State} {a1} (hsums : cs .sums = true) (hstalls : ∀ i, cs (.stall i) = true) (hmkt : cs .mkt =
      true) (h : OnlyIn cs s t) :
    OnlyIn cs s (State.tickShed t a1) := by
  unfold State.tickShed
  exact (OnlyIn.ite
        (by extract_lets +onlyGivenNames -merge -underBinder x0; (try clear_value x0); exact (State.tickRestore_only hsums hstalls (OnlyIn.setMkt hmkt h)))
        (OnlyIn.setMkt hmkt h))

theorem State.tickShedding_only {cs : Block → Bool} {s t : State} (hsums : cs .sums = true) (hstalls : ∀ i, cs (.stall i) = true) (hmkt : cs .mkt =
      true) (h : OnlyIn cs s t) :
    OnlyIn cs s (State.tickShedding t) := by
  unfold State.tickShedding
  extract_lets +onlyGivenNames -merge -underBinder x0
  have hx0 : OnlyIn cs s x0 := (State.forAll_only (fun _ _ k1 => (OnlyIn.ite (State.tickShed_only hsums hstalls hmkt k1) k1)) h)
  (try clear_value x0)
  extract_lets +onlyGivenNames -merge -underBinder x2 x3
  have hx3 : OnlyIn cs s x3 := (OnlyIn.setMkt hmkt hx0)
  (try clear_value x2)
  (try clear_value x3)
  exact (State.forAll_only (fun _ _ k4 => (State.setStall_only (fun _ => ⟨.inr (by rfl), .inr (by rfl), .inl (hstalls _)⟩) k4)) hx3)

theorem State.tickStops_only {cs : Block → Bool} {s t : State} (hsums : cs .sums = true) (hlat : cs .lat = true) (hcapture : cs .capture = true) (hstl
      : cs .stl = true) (hstalls : ∀ i, cs (.stall i) = true) (hmkt : cs .mkt = true) (hsaf : cs .saf = true) (hqueues : cs .queues = true) (h :
      OnlyIn cs s t) :
    OnlyIn cs s (State.tickStops t) := by
  unfold State.tickStops
  extract_lets +onlyGivenNames -merge -underBinder x0
  (try clear_value x0)
  extract_lets +onlyGivenNames -merge -underBinder x1 x2
  have hx2 : OnlyIn cs s x2 := (OnlyIn.setStl ⟨.inr (by rfl), .inl hstl⟩ h)
  (try clear_value x2)
  extract_lets +onlyGivenNames -merge -underBinder x3
  have hx3 : OnlyIn cs s x3 := (State.forAll_only (fun _ _ k4 => (State.takeStop_only hsums (hstalls _) hmkt k4)) hx2)
  (try clear_value x3)
  exact (State.forAll_only (fun _ _ k5 => (OnlyIn.ite (State.requestSafeStop_only hsums hlat hcapture hstalls hmkt hsaf hqueues k5) k5)) hx3)

theorem State.tickTakeOver_only {cs : Block → Bool} {s t : State} (hsums : cs .sums = true) (hmkt : cs .mkt = true) (hthm : cs .thm = true) (hmet : cs
      .met = true) (hmram : cs .mram = true) (h : OnlyIn cs s t) :
    OnlyIn cs s (State.tickTakeOver t) := by
  unfold State.tickTakeOver
  exact (State.takePolicy_only hmkt (State.takeTerms_only hthm (State.mramTick_only hsums hmkt hmram (OnlyIn.setMet hmet h))))

theorem doClearingCommit_only {cs : Block → Bool} {s t : State} {a0} (hmt : cs .mt = true) (hprof : cs .prof = true) (hsums : cs .sums = true) (hlat :
      cs .lat = true) (hcapture : cs .capture = true) (hlinks : ∀ i, cs (.link i) = true) (hsamples : ∀ i, cs (.sample i) = true) (hstalls : ∀ i, cs
      (.stall i) = true) (houtlets : ∀ i, cs (.outlet i) = true) (hbays : ∀ i, cs (.bay i) = true) (hmkt : cs .mkt = true) (hsaf : cs .saf = true)
      (hrole : cs .role = true) (hpair : cs .pair = true) (hsbus : cs .sbus = true) (hqueues : cs .queues = true) (h : OnlyIn cs s t) :
    OnlyIn cs s (doClearingCommit a0 t) := by
  unfold doClearingCommit
  exact (whenLive_only hmt (fun _ k0 =>
        (by extract_lets +onlyGivenNames -merge -underBinder x1; have hx1 : OnlyIn cs s x1 := (State.judgeHold_only hprof hsums hlat hcapture hlinks hsamples hstalls houtlets hbays hmkt hsaf hrole hpair hsbus hqueues k0); (try clear_value x1); exact (by split; (next => exact (OnlyIn.ite (by extract_lets +onlyGivenNames -merge -underBinder x2; have hx2 : OnlyIn cs s x2 := (by unfold x2; exact (OnlyIn.ite (State.refreshTick_only hpair hx1) hx1)); (try clear_value x2); exact (State.retake_only hsums hlat hstalls hmkt hsaf (State.forAll_only (fun _ _ k3 => (OnlyIn.ite (State.tryCableTarget_only hlat (hbays _) k3) k3)) (State.commitTick_only hsums hcapture hstalls hmkt hpair hqueues (State.sessTimeouts_only hsums hlat hcapture hstalls houtlets hbays hmkt hsaf hqueues hx2))))) hx1)); (next => exact hx1))))
        h)

theorem doTickStart_only {cs : Block → Bool} {s t : State} {a0 a1} (hmt : cs .mt = true) (hdraws : cs .draws = true) (hprof : cs .prof = true) (hsums
      : cs .sums = true) (hviol : cs .viol = true) (hassume : cs .assume = true) (hlat : cs .lat = true) (hcapture : cs .capture = true) (hstl : cs
      .stl = true) (hlinks : ∀ i, cs (.link i) = true) (hsamples : ∀ i, cs (.sample i) = true) (hstalls : ∀ i, cs (.stall i) = true) (houtlets : ∀ i,
      cs (.outlet i) = true) (hbays : ∀ i, cs (.bay i) = true) (hmkt : cs .mkt = true) (hthm : cs .thm = true) (haux : cs .aux = true) (hmet : cs .met
      = true) (hsaf : cs .saf = true) (hrole : cs .role = true) (hpair : cs .pair = true) (hsbus : cs .sbus = true) (hvault : cs .vault = true)
      (hqueues : cs .queues = true) (hmram : cs .mram = true) (h : OnlyIn cs s t) :
    OnlyIn cs s (doTickStart a0 a1 t) := by
  unfold doTickStart
  exact (whenLive_only hmt (fun _ k0 => (OnlyIn.ite
        (by extract_lets +onlyGivenNames -merge -underBinder x1; have hx1 : OnlyIn cs s x1 := (State.armHold_only hpair (State.judgeHold_only hprof hsums hlat hcapture hlinks hsamples hstalls houtlets hbays hmkt hsaf hrole hpair hsbus hqueues k0)); (try clear_value x1); exact (by extract_lets +onlyGivenNames -merge -underBinder x2; have hx2 : OnlyIn cs s x2 := (State.tickClear_only hdraws hsums hviol hcapture hmkt hpair hvault hqueues (State.tickBids_only hsums hbays (State.tickClamp_only hprof hsums hcapture hmkt hqueues (State.tickLive_only hprof (State.tickTakeOver_only hsums hmkt hthm hmet hmram hx1))))); (try clear_value x2); exact (by extract_lets +onlyGivenNames -merge -underBinder x3; have hx3 : OnlyIn cs s x3 := (State.tickRampDown_only hdraws hsums hviol hcapture houtlets hbays hpair hvault hqueues (State.tickShedding_only hsums hstalls hmkt (State.tickRearm_only hstalls (State.tickStops_only hsums hlat hcapture hstl hstalls hmkt hsaf hqueues hx2)))); (try clear_value x3); exact (State.clearBusLoad_only hsums hassume (State.judgeBusLoad_only hsums hassume (State.auxTick_only hsums haux hsaf (State.coolTick_only hsums hcapture hthm hqueues hx3)))))))
        k0)) h)

theorem State.setLock_only {cs : Block → Bool} {s t : State} {a1} (hlock : cs .lock = true) (h : OnlyIn cs s t) :
    OnlyIn cs s (State.setLock t a1) := by
  unfold State.setLock
  exact (OnlyIn.setLock hlock h)

theorem State.sysTry_only {cs : Block → Bool} {s t : State} {a1} (hlock : cs .lock = true) (hsums : cs .sums = true) (hvault : cs .vault = true) (h :
      OnlyIn cs s t) :
    OnlyIn cs s (State.sysTry t a1).1 := by
  unfold State.sysTry
  extract_lets +onlyGivenNames -merge -underBinder x0
  (try clear_value x0)
  extract_lets +onlyGivenNames -merge -underBinder x1
  have hx1 : OnlyIn cs s x1 := (State.noteUse_only hvault h)
  (try clear_value x1)
  exact (OnlyIn.iteFst (OnlyIn.pairFst (State.bumpIf_only hsums (State.setLock_only hlock hx1))) (OnlyIn.pairFst (State.bump_only hsums
        (State.setLock_only hlock hx1))))

theorem State.sysUnlock_only {cs : Block → Bool} {s t : State} {a1} (hdraws : cs .draws = true) (hlock : cs .lock = true) (hsums : cs .sums = true)
      (hvault : cs .vault = true) (h : OnlyIn cs s t) :
    OnlyIn cs s (State.sysUnlock t a1).1 := by
  unfold State.sysUnlock
  exact
        (by split; (next => exact (OnlyIn.pairFst (State.newSysNonce_only hdraws hlock h))); (next => exact (OnlyIn.iteFst (OnlyIn.pairFst (State.newSysNonce_only hdraws hlock h)) (by extract_lets +onlyGivenNames -merge -underBinder x0; have hx0 : OnlyIn cs s x0.1 := (State.sysTry_only hlock hsums hvault h); (try clear_value x0); exact (OnlyIn.pairFst (State.newSysNonce_only hdraws hlock hx0))))))

theorem State.sysLockAgain_only {cs : Block → Bool} {s t : State} (hlock : cs .lock = true) (hsums : cs .sums = true) (hhost : cs .host = true) (h :
      OnlyIn cs s t) :
    OnlyIn cs s (State.sysLockAgain t) := by
  unfold State.sysLockAgain
  exact (State.bump_only hsums (OnlyIn.mk h (.inr (by rfl)) (.inr (by rfl)) (.inr (by rfl)) (.inr (by rfl)) (.inr (by rfl)) (.inl hlock) ⟨.inr
        (by rfl), .inr (by rfl), .inr (by rfl), .inl hhost⟩ (.inr (by rfl)) (.inr (by rfl)) (.inr (by rfl)) (.inr (by rfl)) (.inr (by rfl)) ⟨.inr
        (by rfl), .inr (by rfl)⟩ (.inr (by rfl)) (.inr (by rfl)) (.inr (by rfl)) (.inr (by rfl)) (.inr (by rfl)) (.inr (by rfl)) (.inr (by rfl)) ⟨.inr
        (by rfl), .inr (by rfl)⟩ (.inr (by rfl)) (.inr (by rfl)) (.inr (by rfl)) ⟨.inr (by rfl), .inr (by rfl)⟩ (.inr (by rfl))))

theorem State.sysSeal_only {cs : Block → Bool} {s t : State} (hlock : cs .lock = true) (hsums : cs .sums = true) (hhost : cs .host = true) (h : OnlyIn
      cs s t) :
    OnlyIn cs s (State.sysSeal t) := by
  unfold State.sysSeal
  exact (OnlyIn.ite (State.sysLockAgain_only hlock hsums hhost h) h)

theorem State.lockCtrlWrite_only {cs : Block → Bool} {s t : State} {a1 a2} (hdraws : cs .draws = true) (hlock : cs .lock = true) (hsums : cs .sums =
      true) (hhost : cs .host = true) (hvault : cs .vault = true) (h : OnlyIn cs s t) :
    OnlyIn cs s (State.lockCtrlWrite t a1 a2).1 := by
  unfold State.lockCtrlWrite
  exact (OnlyIn.iteFst (OnlyIn.pairFst h) (OnlyIn.iteFst (State.sysUnlock_only hdraws hlock hsums hvault h) (OnlyIn.iteFst (OnlyIn.pairFst
        (State.sysSeal_only hlock hsums hhost h)) (OnlyIn.pairFst h))))

theorem doSysLockoutEnd_only {cs : Block → Bool} {s t : State} {a0} (hmt : cs .mt = true) (hlock : cs .lock = true) (hsums : cs .sums = true) (h :
      OnlyIn cs s t) :
    OnlyIn cs s (doSysLockoutEnd a0 t) := by
  unfold doSysLockoutEnd
  exact (whenLive_only hmt (fun _ k0 => (OnlyIn.ite (State.bump_only hsums (State.setLock_only hlock k0)) k0)) h)

theorem doSysSeal_only {cs : Block → Bool} {s t : State} {a0 a1} (hmt : cs .mt = true) (hlock : cs .lock = true) (hsums : cs .sums = true) (hanswer :
      cs .answer = true) (hviol : cs .viol = true) (hhost : cs .host = true) (hcapture : cs .capture = true) (hqueues : cs .queues = true) (h : OnlyIn
      cs s t) :
    OnlyIn cs s (doSysSeal a0 a1 t) := by
  unfold doSysSeal
  exact (whenLive_only hmt (fun _ k0 => (State.command_only hsums hanswer hviol hcapture hqueues (fun _ k1 => (State.sysSeal_only hlock hsums hhost
        k1)) k0)) h)

theorem doSysUnlock_only {cs : Block → Bool} {s t : State} {a0 a1} (hmt : cs .mt = true) (hdraws : cs .draws = true) (hlock : cs .lock = true) (hsums
      : cs .sums = true) (hanswer : cs .answer = true) (hviol : cs .viol = true) (hcapture : cs .capture = true) (hvault : cs .vault = true) (hqueues
      : cs .queues = true) (h : OnlyIn cs s t) :
    OnlyIn cs s (doSysUnlock a0 a1 t) := by
  unfold doSysUnlock
  exact (whenLive_only hmt (fun _ k0 =>
        (by split; (next => exact (State.answered_only hsums hanswer hviol hcapture hqueues k0)); (next => exact (by extract_lets +onlyGivenNames -merge -underBinder x1; have hx1 : OnlyIn cs s x1.1 := (State.sysUnlock_only hdraws hlock hsums hvault k0); (try clear_value x1); exact (State.answered_only hsums hanswer hviol hcapture hqueues hx1)))))
        h)

theorem doSysUnlockExpiry_only {cs : Block → Bool} {s t : State} {a0} (hmt : cs .mt = true) (hlock : cs .lock = true) (hsums : cs .sums = true) (hhost
      : cs .host = true) (h : OnlyIn cs s t) :
    OnlyIn cs s (doSysUnlockExpiry a0 t) := by
  unfold doSysUnlockExpiry
  exact (whenLive_only hmt (fun _ k0 => (OnlyIn.ite (State.sysLockAgain_only hlock hsums hhost k0) k0)) h)

theorem sysWrite_eff {cs : Block → Bool} {a0 a1 a2 a3} (hprof : cs .prof = true) (hlock : cs .lock = true) (hsums : cs .sums = true) (hassume : cs
      .assume = true) :
    EffsIn cs (sysWrite a0 a1 a2 a3) := by
  unfold sysWrite
  exact
        (by split; (next => exact (EffsIn.some (EffIn.mk (fun z1 _ k0 => (OnlyIn.ite (State.bumpIf_only hsums (OnlyIn.setProf hprof k0)) k0))))); (next => exact (EffsIn.some (EffIn.mk (fun z3 _ k2 => (OnlyIn.setProf hprof k2))))); (next => exact (EffsIn.some (EffIn.mk (fun z5 _ k4 => (State.bumpIf_only hsums (OnlyIn.setAssume hassume k4)))))); (next => exact (EffsIn.ite (EffsIn.some (EffIn.mk (fun z7 _ k6 => (State.setLock_only hlock k6)))) (EffsIn.map fun _ => roWord_eff))))

theorem State.readMapped_only {cs : Block → Bool} {s t : State} {a1 a2 a3} (hhost : cs .host = true) (h : OnlyIn cs s t) :
    OnlyIn cs s (State.readMapped t a1 a2 a3).2 := by
  unfold State.readMapped
  exact
        (by split; (next => exact (by extract_lets +onlyGivenNames -merge -underBinder x0; have hx0 : OnlyIn cs s x0.2.2 := (State.readTime_only hhost h); (try clear_value x0); exact (OnlyIn.pairSnd hx0))); (next => exact (by extract_lets +onlyGivenNames -merge -underBinder x1; have hx1 : OnlyIn cs s x1.2.2 := (State.readTime_only hhost h); (try clear_value x1); exact (OnlyIn.pairSnd hx1))); (next => exact (by extract_lets +onlyGivenNames -merge -underBinder x2; have hx2 : OnlyIn cs s x2.2 := (State.readCalendar_only hhost h); (try clear_value x2); exact (OnlyIn.pairSnd hx2))); (next => exact (by extract_lets +onlyGivenNames -merge -underBinder x3; have hx3 : OnlyIn cs s x3.2 := (State.readRaw_only hhost h); (try clear_value x3); exact (OnlyIn.pairSnd hx3))); (next => exact (by extract_lets +onlyGivenNames -merge -underBinder x4; have hx4 : OnlyIn cs s x4.2 := (State.readRaw_only hhost h); (try clear_value x4); exact (OnlyIn.pairSnd hx4))); (next => exact (OnlyIn.iteSnd (by extract_lets +onlyGivenNames -merge -underBinder x5; (try clear_value x5); exact (OnlyIn.iteSnd (by extract_lets +onlyGivenNames -merge -underBinder x6; have hx6 : OnlyIn cs s x6.2 := (State.readTallyLow_only hhost h); (try clear_value x6); exact (OnlyIn.pairSnd hx6)) (OnlyIn.pairSnd h))) (OnlyIn.iteSnd (OnlyIn.pairSnd h) (OnlyIn.iteSnd (OnlyIn.pairSnd h) (OnlyIn.iteSnd (OnlyIn.pairSnd h) (OnlyIn.pairSnd h)))))))

theorem State.readWord_only {cs : Block → Bool} {s t : State} {a1 a2} (hhost : cs .host = true) (h : OnlyIn cs s t) :
    OnlyIn cs s (State.readWord t a1 a2).2 := by
  unfold State.readWord
  exact (OnlyIn.iteSnd (OnlyIn.pairSnd h)
        (by split; (next => exact (OnlyIn.pairSnd h)); (next => exact (by split; (next => exact (OnlyIn.pairSnd h)); (next => exact (State.readMapped_only hhost h))))))

theorem State.applyEffect_only {cs : Block → Bool} {s t : State} {a1 a2 a3} (hmram : cs .mram = true) (k3_ : EffIn cs a3) (h : OnlyIn cs s t) :
    OnlyIn cs s (State.applyEffect t a1 a2 a3).1 := by
  unfold State.applyEffect
  exact
        (by split; (next => exact (OnlyIn.pairFst h)); (next => exact (OnlyIn.pairFst (k3_ _ _ (State.when_only (fun _ k0 => (State.chargePolicy_only hmram k0)) h)))))

theorem State.cycClear_only {cs : Block → Bool} {s t : State} {a1} (hsums : cs .sums = true) (hlat : cs .lat = true) (h : OnlyIn cs s t) :
    OnlyIn cs s (State.cycClear t a1) := by
  unfold State.cycClear
  exact (State.bumpIf_only hsums (OnlyIn.setLat hlat h))

theorem State.firstOvrRelease_only {cs : Block → Bool} {s t : State} (hsums : cs .sums = true) (hlat : cs .lat = true) (h : OnlyIn cs s t) :
    OnlyIn cs s (State.firstOvrRelease t) := by
  unfold State.firstOvrRelease
  exact (State.bumpIf_only hsums (OnlyIn.setLat hlat h))

theorem State.hostClear_only {cs : Block → Bool} {s t : State} (hviol : cs .viol = true) (hhost : cs .host = true) (h : OnlyIn cs s t) :
    OnlyIn cs s (State.hostClear t) := by
  unfold State.hostClear
  exact (State.setHost_only ⟨.inr (by rfl), .inr (by rfl), .inl hviol, .inl hhost⟩ h)

theorem State.latClear_only {cs : Block → Bool} {s t : State} (hlat : cs .lat = true) (h : OnlyIn cs s t) :
    OnlyIn cs s (State.latClear t) := by
  unfold State.latClear
  exact (OnlyIn.setLat hlat h)

theorem State.storeCore_only {cs : Block → Bool} {s t : State} {a1 a2} (hmet : cs .met = true) (h : OnlyIn cs s t) :
    OnlyIn cs s (State.storeCore t a1 a2) := by
  unfold State.storeCore
  exact (OnlyIn.setMet hmet h)

theorem State.violRelease_only {cs : Block → Bool} {s t : State} (hviol : cs .viol = true) (h : OnlyIn cs s t) :
    OnlyIn cs s (State.violRelease t) := by
  unfold State.violRelease
  exact (State.setHost_only ⟨.inr (by rfl), .inr (by rfl), .inl hviol, .inr (by rfl)⟩ h)

theorem latWrite_eff {cs : Block → Bool} {a0 a1 a2} (hsums : cs .sums = true) (hlat : cs .lat = true) :
    EffsIn cs (latWrite a0 a1 a2) := by
  unfold latWrite
  exact
        (by split; (next => exact (EffsIn.some (EffIn.mk (fun z1 _ k0 => (OnlyIn.ite (State.latClear_only hlat k0) k0))))); (next => exact (EffsIn.some (EffIn.mk (fun z3 _ k2 => (OnlyIn.ite (State.firstOvrRelease_only hsums hlat k2) k2))))); (next => exact (EffsIn.some (EffIn.mk (fun z5 _ k4 => (OnlyIn.setLat hlat k4))))); (next => exact (EffsIn.ite (EffsIn.some (EffIn.mk (fun z7 _ k6 => (OnlyIn.ite (State.cycClear_only hsums hlat k6) k6)))) (EffsIn.map fun _ => roWord_eff))))

theorem stlCtrl_eff {cs : Block → Bool} {a0 a1 a2} (hsums : cs .sums = true) (hlink1 : cs (.link a1) = true) (hstall1 : cs (.stall a1) = true) :
    EffIn cs (stlCtrl a0 a1 a2) := by
  unfold stlCtrl
  exact (EffIn.mk (fun z1 _ k0 =>
        (by extract_lets +onlyGivenNames -merge -underBinder x2; have hx2 : OnlyIn cs z1 x2 := (State.writeCapEn_only hlink1 (State.writeSleep_only hsums hlink1 hstall1 k0)); (try clear_value x2); exact (by extract_lets +onlyGivenNames -merge -underBinder x3; have hx3 : OnlyIn cs z1 x3 := (by unfold x3; exact (OnlyIn.ite (State.retrain_only hsums hlink1 hx2) hx2)); (try clear_value x3); exact (OnlyIn.ite (State.stlClear_only hlink1 hx3) hx3)))))

theorem stlWrite_eff {cs : Block → Bool} {a0 a1 a2 a3} (hsums : cs .sums = true) (hlink1 : cs (.link a1) = true) (hstall1 : cs (.stall a1) = true) :
    EffsIn cs (stlWrite a0 a1 a2 a3) := by
  unfold stlWrite
  exact
        (by split; (next => exact (EffsIn.some (stlCtrl_eff hsums hlink1 hstall1))); (next => exact (EffsIn.some (EffIn.mk (fun z1 _ k0 => (by extract_lets +onlyGivenNames -merge -underBinder x2; have hx2 : OnlyIn cs z1 x2 := (by unfold x2; exact (OnlyIn.ite (State.releaseStall_only hsums hstall1 k0) k0)); (try clear_value x2); exact (OnlyIn.ite (State.clearFb_only hstall1 hx2) hx2)))))); (next => exact (EffsIn.map fun _ => roWord_eff)))

theorem capCtrl_eff {cs : Block → Bool} {a0} (hsums : cs .sums = true) (hcapture : cs .capture = true) (hqueues : cs .queues = true) :
    EffIn cs (capCtrl a0) := by
  unfold capCtrl
  exact (EffIn.mk (fun z1 _ k0 => (OnlyIn.ite (State.capArm_only hsums hcapture k0) (OnlyIn.ite (State.capFreeze_only hsums hcapture hqueues k0)
        k0))))

theorem stlCommonWrite_eff {cs : Block → Bool} {a0 a1 a2} (hsums : cs .sums = true) (hcapture : cs .capture = true) (hstl : cs .stl = true) (hqueues :
      cs .queues = true) :
    EffsIn cs (stlCommonWrite a0 a1 a2) := by
  unfold stlCommonWrite
  exact
        (by split; (next => exact (EffsIn.some (capCtrl_eff hsums hcapture hqueues))); (next => exact (by extract_lets +onlyGivenNames -merge -underBinder x0; (try clear_value x0); exact (by extract_lets +onlyGivenNames -merge -underBinder x1; (try clear_value x1); exact (EffsIn.some (EffIn.inRange (fun z3 _ k2 => (State.setStl_only ⟨.inr (by rfl), .inl hstl⟩ k2))))))); (next => exact (by extract_lets +onlyGivenNames -merge -underBinder x4; (try clear_value x4); exact (by extract_lets +onlyGivenNames -merge -underBinder x5; (try clear_value x5); exact (EffsIn.some (EffIn.inRange (fun z7 _ k6 => (State.setStl_only ⟨.inr (by rfl), .inl hstl⟩ k6))))))); (next => exact (by extract_lets +onlyGivenNames -merge -underBinder x8; (try clear_value x8); exact (by extract_lets +onlyGivenNames -merge -underBinder x9; (try clear_value x9); exact (by extract_lets +onlyGivenNames -merge -underBinder x10; (try clear_value x10); exact (by extract_lets +onlyGivenNames -merge -underBinder x11; (try clear_value x11); exact (EffsIn.some (EffIn.inRange (fun z13 _ k12 => (State.setStl_only ⟨.inr (by rfl), .inl hstl⟩ k12))))))))); (next => exact (EffsIn.some (EffIn.mk (fun z15 _ k14 => (State.setStl_only ⟨.inr (by rfl), .inl hstl⟩ k14))))); (next => exact (by extract_lets +onlyGivenNames -merge -underBinder x16; (try clear_value x16); exact (by extract_lets +onlyGivenNames -merge -underBinder x17; (try clear_value x17); exact (by extract_lets +onlyGivenNames -merge -underBinder x18; (try clear_value x18); exact (EffsIn.some (EffIn.inRange (fun z20 _ k19 => (State.setStl_only ⟨.inr (by rfl), .inl hstl⟩ k19)))))))); (next => exact (by extract_lets +onlyGivenNames -merge -underBinder x21; (try clear_value x21); exact (by extract_lets +onlyGivenNames -merge -underBinder x22; (try clear_value x22); exact (EffsIn.some (EffIn.inRange (fun z24 _ k23 => (State.setStl_only ⟨.inr (by rfl), .inl hstl⟩ k23))))))); (next => exact (EffsIn.some (EffIn.mk (fun z26 _ k25 => (State.bumpIf_only hsums (State.setStl_only ⟨.inr (by rfl), .inl hstl⟩ k25)))))); (next => exact (EffsIn.map fun _ => roWord_eff)))

theorem lowEffect_eff {cs : Block → Bool} {a0 a1 a2 a3} (hprof : cs .prof = true) (hlock : cs .lock = true) (hsums : cs .sums = true) (hassume : cs
      .assume = true) (hclk : cs .clk = true) (hpwr : cs .pwr = true) (hrtc : cs .rtc = true) (hlat : cs .lat = true) (hcapture : cs .capture = true)
      (hstl : cs .stl = true) (hlinks : ∀ i, cs (.link i) = true) (hstalls : ∀ i, cs (.stall i) = true) (houtlets : ∀ i, cs (.outlet i) = true)
      (hsettingss : ∀ i, cs (.settings i) = true) (hbays : ∀ i, cs (.bay i) = true) (hmkt : cs .mkt = true) (hsaf : cs .saf = true) (hqueues : cs
      .queues = true) (hmram : cs .mram = true) :
    EffsIn cs (lowEffect a0 a1 a2 a3) := by
  unfold lowEffect
  exact (EffsIn.ite (sysWrite_eff hprof hlock hsums hassume) (EffsIn.ite (clkWrite_eff hsums hclk hpwr hrtc hcapture hqueues) (EffsIn.ite
        (latWrite_eff hsums hlat) (EffsIn.ite (stlWrite_eff hsums (hlinks _) (hstalls _)) (EffsIn.ite (stlCommonWrite_eff hsums hcapture hstl hqueues)
        (EffsIn.ite (bayWrite_eff hsums hlat hcapture hstalls (houtlets _) (hsettingss _) (hbays _) hmkt hsaf hqueues) (mktWrite_eff hsums hstalls
        hmkt hmram)))))))

theorem hostWrite_eff {cs : Block → Bool} {a0 a1 a2 a3} (hviol : cs .viol = true) (hhost : cs .host = true) :
    EffsIn cs (hostWrite a0 a1 a2 a3) := by
  unfold hostWrite
  exact
        (by split; (next => exact (EffsIn.some (EffIn.mk (fun z1 _ k0 => (OnlyIn.ite (State.violRelease_only hviol k0) k0))))); (next => exact (EffsIn.some (EffIn.mk (fun z3 _ k2 => (OnlyIn.ite (State.hostClear_only hviol hhost k2) k2))))); (next => exact (EffsIn.some (EffIn.mk (fun z5 _ k4 => (State.setHost_only ⟨.inr (by rfl), .inr (by rfl), .inr (by rfl), .inl hhost⟩ k4))))); (next => exact (EffsIn.some (EffIn.mk (fun z7 _ k6 => (State.setHost_only ⟨.inr (by rfl), .inr (by rfl), .inr (by rfl), .inl hhost⟩ k6))))); (next => exact (EffsIn.some (EffIn.mk (fun z9 _ k8 => (State.setHost_only ⟨.inr (by rfl), .inr (by rfl), .inr (by rfl), .inl hhost⟩ k8))))); (next => exact (EffsIn.ite (EffsIn.some (EffIn.mk (fun z11 _ k10 => (State.setHost_only ⟨.inr (by rfl), .inr (by rfl), .inr (by rfl), .inl hhost⟩ k10)))) (EffsIn.map fun _ => roWord_eff))))

theorem highEffect_eff {cs : Block → Bool} {a0 a1 a2 a3} (hprof : cs .prof = true) (hsums : cs .sums = true) (hviol : cs .viol = true) (hhost : cs
      .host = true) (hassume : cs .assume = true) (hcapture : cs .capture = true) (hthm : cs .thm = true) (haux : cs .aux = true) (hmet : cs .met =
      true) (hsaf : cs .saf = true) (hpair : cs .pair = true) (hsbus : cs .sbus = true) (hvault : cs .vault = true) (hupd : cs .upd = true) (hqueues :
      cs .queues = true) (hldg : cs .ldg = true) (hmram : cs .mram = true) :
    EffsIn cs (highEffect a0 a1 a2 a3) := by
  unfold highEffect
  exact (EffsIn.ite (thmWrite_eff hthm) (EffsIn.ite (auxWrite_eff hsums haux) (EffsIn.ite (metWrite_eff hmet) (EffsIn.ite (safWrite_eff hsums hsaf)
        (EffsIn.ite (pairWrite_eff hsums hpair) (EffsIn.ite (sbusWrite_eff hsums hassume hsbus) (EffsIn.ite (hostWrite_eff hviol hhost) (EffsIn.ite
        (keyWrite_eff hsums hvault) (EffsIn.ite (keyWindowWrite_eff hvault) (EffsIn.ite (updWrite_eff hupd) (EffsIn.ite (chunkWindowWrite_eff hupd)
        (EffsIn.ite (ldgWrite_eff hsums hcapture hqueues hldg) (EffsIn.map fun _ => (profWindowEffect_eff hprof hsums hmram))))))))))))))

theorem State.writeMapped_only {cs : Block → Bool} {s t : State} {a1 a2 a3} (hdraws : cs .draws = true) (hprof : cs .prof = true) (hlock : cs .lock =
      true) (hsums : cs .sums = true) (hanswer : cs .answer = true) (hviol : cs .viol = true) (hhost : cs .host = true) (hassume : cs .assume = true)
      (hclk : cs .clk = true) (hpwr : cs .pwr = true) (hrtc : cs .rtc = true) (hlat : cs .lat = true) (hcapture : cs .capture = true) (hstl : cs .stl
      = true) (hlinks : ∀ i, cs (.link i) = true) (hsamples : ∀ i, cs (.sample i) = true) (hstalls : ∀ i, cs (.stall i) = true) (houtlets : ∀ i, cs
      (.outlet i) = true) (hsettingss : ∀ i, cs (.settings i) = true) (hbays : ∀ i, cs (.bay i) = true) (hmkt : cs .mkt = true) (hthm : cs .thm =
      true) (haux : cs .aux = true) (hmet : cs .met = true) (hsaf : cs .saf = true) (hrole : cs .role = true) (hpair : cs .pair = true) (hsbus : cs
      .sbus = true) (hvault : cs .vault = true) (hupd : cs .upd = true) (hqueues : cs .queues = true) (hldg : cs .ldg = true) (hmram : cs .mram =
      true) (h : OnlyIn cs s t) :
    OnlyIn cs s (State.writeMapped t a1 a2 a3).1 := by
  unfold State.writeMapped
  exact
        (by split; (next => exact (State.profCtrlWrite_only hprof hsums hlat hpair h)); (next => exact (State.lockCtrlWrite_only hdraws hlock hsums hhost hvault h)); (next => exact (State.pwrCtrlWrite_only hdraws hprof hlock hsums hanswer hviol hhost hassume hclk hpwr hrtc hlat hcapture hstl hlinks hsamples hstalls houtlets hsettingss hbays hmkt hthm haux hmet hsaf hrole hpair hsbus hvault hupd hqueues hldg hmram h)); (next => exact (State.safCtrlWrite_only hdraws hsums hcapture hsaf hqueues hmram h)); (next => exact (State.lcWrite_only hsums hcapture hvault hqueues h)); (next => exact (State.updCtrlWrite_only hdraws hsums hviol hcapture hmet hsaf hvault hupd hqueues hmram h)); (next => exact (State.actWrite_only hsums hupd h)); (next => exact (by split; (next e0 => exact (State.applyEffect_only hmram ((EffsIn.ite (lowEffect_eff hprof hlock hsums hassume hclk hpwr hrtc hlat hcapture hstl hlinks hstalls houtlets hsettingss hbays hmkt hsaf hqueues hmram) (highEffect_eff hprof hsums hviol hhost hassume hcapture hthm haux hmet hsaf hpair hsbus hvault hupd hqueues hldg hmram)) _ e0) h)); (next e1 => exact (OnlyIn.pairFst h)))))

theorem State.writeWord_only {cs : Block → Bool} {s t : State} {a1 a2 a3} (hdraws : cs .draws = true) (hprof : cs .prof = true) (hlock : cs .lock =
      true) (hsums : cs .sums = true) (hanswer : cs .answer = true) (hviol : cs .viol = true) (hhost : cs .host = true) (hassume : cs .assume = true)
      (hclk : cs .clk = true) (hpwr : cs .pwr = true) (hrtc : cs .rtc = true) (hlat : cs .lat = true) (hcapture : cs .capture = true) (hstl : cs .stl
      = true) (hlinks : ∀ i, cs (.link i) = true) (hsamples : ∀ i, cs (.sample i) = true) (hstalls : ∀ i, cs (.stall i) = true) (houtlets : ∀ i, cs
      (.outlet i) = true) (hsettingss : ∀ i, cs (.settings i) = true) (hbays : ∀ i, cs (.bay i) = true) (hmkt : cs .mkt = true) (hthm : cs .thm =
      true) (haux : cs .aux = true) (hmet : cs .met = true) (hsaf : cs .saf = true) (hrole : cs .role = true) (hpair : cs .pair = true) (hsbus : cs
      .sbus = true) (hvault : cs .vault = true) (hupd : cs .upd = true) (hqueues : cs .queues = true) (hldg : cs .ldg = true) (hmram : cs .mram =
      true) (h : OnlyIn cs s t) :
    OnlyIn cs s (State.writeWord t a1 a2 a3).1 := by
  unfold State.writeWord
  exact (OnlyIn.iteFst (OnlyIn.iteFst (OnlyIn.pairFst h) (OnlyIn.iteFst (OnlyIn.pairFst (State.storeCore_only hmet h)) (OnlyIn.pairFst h)))
        (by split; (next => exact (OnlyIn.pairFst h)); (next => exact (by split; (next => exact (OnlyIn.pairFst h)); (next => exact (OnlyIn.iteFst (OnlyIn.pairFst h) (State.writeMapped_only hdraws hprof hlock hsums hanswer hviol hhost hassume hclk hpwr hrtc hlat hcapture hstl hlinks hsamples hstalls houtlets hsettingss hbays hmkt hthm haux hmet hsaf hrole hpair hsbus hvault hupd hqueues hldg hmram h)))))))

theorem doFirstOvrRelease_only {cs : Block → Bool} {s t : State} {a0 a1} (hmt : cs .mt = true) (hsums : cs .sums = true) (hanswer : cs .answer = true)
      (hviol : cs .viol = true) (hlat : cs .lat = true) (hcapture : cs .capture = true) (hqueues : cs .queues = true) (h : OnlyIn cs s t) :
    OnlyIn cs s (doFirstOvrRelease a0 a1 t) := by
  unfold doFirstOvrRelease
  exact (whenLive_only hmt (fun _ k0 => (State.command_only hsums hanswer hviol hcapture hqueues (fun _ k1 => (State.firstOvrRelease_only hsums hlat
        k1)) k0)) h)

theorem doHostClrCnt_only {cs : Block → Bool} {s t : State} {a0 a1} (hmt : cs .mt = true) (hsums : cs .sums = true) (hanswer : cs .answer = true)
      (hviol : cs .viol = true) (hhost : cs .host = true) (hcapture : cs .capture = true) (hqueues : cs .queues = true) (h : OnlyIn cs s t) :
    OnlyIn cs s (doHostClrCnt a0 a1 t) := by
  unfold doHostClrCnt
  exact (whenLive_only hmt (fun _ k0 => (State.command_only hsums hanswer hviol hcapture hqueues (fun _ k1 => (State.hostClear_only hviol hhost k1))
        k0)) h)

theorem doLatClrCnt_only {cs : Block → Bool} {s t : State} {a0 a1} (hmt : cs .mt = true) (hsums : cs .sums = true) (hanswer : cs .answer = true)
      (hviol : cs .viol = true) (hlat : cs .lat = true) (hcapture : cs .capture = true) (hqueues : cs .queues = true) (h : OnlyIn cs s t) :
    OnlyIn cs s (doLatClrCnt a0 a1 t) := by
  unfold doLatClrCnt
  exact (whenLive_only hmt (fun _ k0 => (State.command_only hsums hanswer hviol hcapture hqueues (fun _ k1 => (State.latClear_only hlat k1)) k0)) h)

theorem doRegisterWrite_only {cs : Block → Bool} {s t : State} {a0 a1 a2 a3} (hmt : cs .mt = true) (hdraws : cs .draws = true) (hprof : cs .prof =
      true) (hlock : cs .lock = true) (hsums : cs .sums = true) (hanswer : cs .answer = true) (hviol : cs .viol = true) (hhost : cs .host = true)
      (hassume : cs .assume = true) (hclk : cs .clk = true) (hpwr : cs .pwr = true) (hrtc : cs .rtc = true) (hlat : cs .lat = true) (hcapture : cs
      .capture = true) (hstl : cs .stl = true) (hlinks : ∀ i, cs (.link i) = true) (hsamples : ∀ i, cs (.sample i) = true) (hstalls : ∀ i, cs (.stall
      i) = true) (houtlets : ∀ i, cs (.outlet i) = true) (hsettingss : ∀ i, cs (.settings i) = true) (hbays : ∀ i, cs (.bay i) = true) (hmkt : cs .mkt
      = true) (hthm : cs .thm = true) (haux : cs .aux = true) (hmet : cs .met = true) (hsaf : cs .saf = true) (hrole : cs .role = true) (hpair : cs
      .pair = true) (hsbus : cs .sbus = true) (hvault : cs .vault = true) (hupd : cs .upd = true) (hqueues : cs .queues = true) (hldg : cs .ldg =
      true) (hmram : cs .mram = true) (h : OnlyIn cs s t) :
    OnlyIn cs s (doRegisterWrite a0 a1 a2 a3 t) := by
  unfold doRegisterWrite
  exact (whenLive_only hmt (fun _ k0 =>
        (by extract_lets +onlyGivenNames -merge -underBinder x1; have hx1 : OnlyIn cs s x1.1 := (State.writeWord_only hdraws hprof hlock hsums hanswer hviol hhost hassume hclk hpwr hrtc hlat hcapture hstl hlinks hsamples hstalls houtlets hsettingss hbays hmkt hthm haux hmet hsaf hrole hpair hsbus hvault hupd hqueues hldg hmram k0); (try clear_value x1); exact (State.answered_only hsums hanswer hviol hcapture hqueues hx1)))
        h)

theorem doViolRelease_only {cs : Block → Bool} {s t : State} {a0 a1} (hmt : cs .mt = true) (hsums : cs .sums = true) (hanswer : cs .answer = true)
      (hviol : cs .viol = true) (hcapture : cs .capture = true) (hqueues : cs .queues = true) (h : OnlyIn cs s t) :
    OnlyIn cs s (doViolRelease a0 a1 t) := by
  unfold doViolRelease
  exact (whenLive_only hmt (fun _ k0 => (State.command_only hsums hanswer hviol hcapture hqueues (fun _ k1 => (State.violRelease_only hviol k1)) k0))
        h)

theorem State.judgeRate_only {cs : Block → Bool} {s t : State} (hsums : cs .sums = true) (hassume : cs .assume = true) (h : OnlyIn cs s t) :
    OnlyIn cs s (State.judgeRate t) := by
  unfold State.judgeRate
  extract_lets +onlyGivenNames -merge -underBinder x0
  (try clear_value x0)
  extract_lets +onlyGivenNames -merge -underBinder x1
  (try clear_value x1)
  extract_lets +onlyGivenNames -merge -underBinder x2
  (try clear_value x2)
  exact (State.bumpIf_only hsums (OnlyIn.setAssume hassume h))

theorem HostIn.counted {cs : Block → Bool} (hhost : cs .host = true) (h : HostBlock) (a b c : Nat) (d : Bool) :
    HostIn cs h { h with transactions := a, wordCount := b, rateEnd := c, rateShown := d } :=
  ⟨.inr (by rfl), .inr (by rfl), .inr (by rfl), .inl hhost⟩

theorem State.rateMove_only {cs : Block → Bool} {s t : State} (hsums : cs .sums = true) (hhost : cs .host = true) (hassume : cs .assume = true)
    (h : OnlyIn cs s t) : OnlyIn cs s (State.rateMove t) := by
  unfold State.rateMove
  exact OnlyIn.ite h (State.setHost_only (HostIn.counted hhost _ _ _ _ _) (State.bumpIf_only hsums (OnlyIn.setAssume hassume
    (State.judgeRate_only hsums hassume h))))


theorem State.countHost_only {cs : Block → Bool} {s t : State} {a1} (hsums : cs .sums = true) (hhost : cs .host = true)
    (hassume : cs .assume = true) (h : OnlyIn cs s t) : OnlyIn cs s (State.countHost t a1) := by
  have hx := State.setHost_only (f := fun h => { h with transactions := h.transactions + 1, wordCount := h.wordCount + a1 })
    (HostIn.counted hhost _ _ _ _ _) (State.rateMove_only hsums hhost hassume h)
  exact OnlyIn.ite (State.judgeRate_only hsums hassume hx) hx


theorem State.countArrival_only {cs : Block → Bool} {s t : State} {a1} (hsums : cs .sums = true) (hhost : cs .host = true) (hassume : cs .assume =
      true) (h : OnlyIn cs s t) :
    OnlyIn cs s (State.countArrival t a1) := by
  unfold State.countArrival
  exact (State.countHost_only hsums hhost hassume h)

theorem State.keepReply_only {cs : Block → Bool} {s t : State} {a1 a2 a3 a4} (hhost : cs .host = true) (h : OnlyIn cs s t) :
    OnlyIn cs s (State.keepReply t a1 a2 a3 a4) := by
  unfold State.keepReply
  extract_lets +onlyGivenNames -merge -underBinder x0
  (try clear_value x0)
  exact (State.setHost_only ⟨.inr (by rfl), .inr (by rfl), .inr (by rfl), .inl hhost⟩ h)

theorem State.sendReply_only {cs : Block → Bool} {s t : State} {a1 a2 a3} (hsums : cs .sums = true) (hanswer : cs .answer = true) (hviol : cs .viol =
      true) (hhost : cs .host = true) (h : OnlyIn cs s t) :
    OnlyIn cs s (State.sendReply t a1 a2 a3) := by
  unfold State.sendReply
  exact (State.setHost_only ⟨.inl hsums, .inl hanswer, .inl hviol, .inl hhost⟩ h)

theorem State.finishRequest_only {cs : Block → Bool} {s t : State} {a1 a2 a3 a4 a5} (hsums : cs .sums = true) (hanswer : cs .answer = true) (hviol :
      cs .viol = true) (hhost : cs .host = true) (h : OnlyIn cs s t) :
    OnlyIn cs s (State.finishRequest t a1 a2 a3 a4 a5) := by
  unfold State.finishRequest
  extract_lets +onlyGivenNames -merge -underBinder x0
  (try clear_value x0)
  extract_lets +onlyGivenNames -merge -underBinder x1
  (try clear_value x1)
  extract_lets +onlyGivenNames -merge -underBinder x2
  (try clear_value x2)
  extract_lets +onlyGivenNames -merge -underBinder x3
  have hx3 : OnlyIn cs s x3 := (State.setHost_only ⟨.inl hsums, .inl hanswer, .inl hviol, .inl hhost⟩ h)
  (try clear_value x3)
  exact (State.keepReply_only hhost (State.sendReply_only hsums hanswer hviol hhost hx3))

theorem State.finish_only {cs : Block → Bool} {s t : State} {a1 a2 a3 a4 a5 a6} (hsums : cs .sums = true) (hanswer : cs .answer = true) (hviol : cs
      .viol = true) (hhost : cs .host = true) (h : OnlyIn cs s t) :
    OnlyIn cs s (State.finish t a1 a2 a3 a4 a5 a6) := by
  unfold State.finish
  extract_lets +onlyGivenNames -merge -underBinder x0
  have hx0 : OnlyIn cs s x0 := (State.setHost_only ⟨.inr (by rfl), .inl hanswer, .inr (by rfl), .inr (by rfl)⟩ h)
  (try clear_value x0)
  exact (by split; (next => exact (State.finishRequest_only hsums hanswer hviol hhost hx0)); (next => exact hx0))

theorem State.popRequest_only {cs : Block → Bool} {s t : State} {a1} (hhost : cs .host = true) (h : OnlyIn cs s t) :
    OnlyIn cs s (State.popRequest t a1) := by
  unfold State.popRequest
  exact
        (by split; (next => exact (State.setHost_only ⟨.inr (by rfl), .inr (by rfl), .inr (by rfl), .inl hhost⟩ h)); (next => exact (State.setHost_only ⟨.inr (by rfl), .inr (by rfl), .inr (by rfl), .inl hhost⟩ h)); (next => exact h))

theorem State.pushRequest_only {cs : Block → Bool} {s t : State} {a1} (hsums : cs .sums = true) (hanswer : cs .answer = true) (hviol : cs .viol =
      true) (hhost : cs .host = true) (h : OnlyIn cs s t) :
    OnlyIn cs s (State.pushRequest t a1) := by
  unfold State.pushRequest
  extract_lets +onlyGivenNames -merge -underBinder x0
  (try clear_value x0)
  exact (State.setHost_only ⟨.inl hsums, .inl hanswer, .inl hviol, .inl hhost⟩ h)

theorem State.readWords_only {cs : Block → Bool} {s t : State} {m as} (hsums : cs .sums = true) (hanswer : cs .answer =
    true) (hviol : cs .viol = true) (hhost : cs .host = true) (hcapture : cs .capture = true) (hqueues : cs .queues = true)
    (h : OnlyIn cs s t) : OnlyIn cs s (t.readWords m as).2 := by
  induction as generalizing t with
  | nil => exact h
  | cons a as ih => exact ih (State.answered_only hsums hanswer hviol hcapture hqueues (State.readWord_only hhost h))


theorem State.runRead_only {cs : Block → Bool} {s t : State} {a1 a2 a3} (hsums : cs .sums = true) (hanswer : cs .answer = true) (hviol : cs .viol =
      true) (hhost : cs .host = true) (hcapture : cs .capture = true) (hqueues : cs .queues = true) (h : OnlyIn cs s t) :
    OnlyIn cs s (State.runRead t a1 a2 a3) := by
  unfold State.runRead
  extract_lets +onlyGivenNames -merge -underBinder x0
  have hx0 : OnlyIn cs s x0.2 := (State.readWords_only hsums hanswer hviol hhost hcapture hqueues h)
  (try clear_value x0)
  extract_lets +onlyGivenNames -merge -underBinder x1
  (try clear_value x1)
  exact (State.finish_only hsums hanswer hviol hhost hx0)

theorem writeWords_only {cs : Block → Bool} {s t : State} {m a i ws} (hdraws : cs .draws = true) (hprof : cs .prof = true) (hlock : cs .lock = true)
      (hsums : cs .sums = true) (hanswer : cs .answer = true) (hviol : cs .viol = true) (hhost : cs .host = true) (hassume : cs .assume = true) (hclk
      : cs .clk = true) (hpwr : cs .pwr = true) (hrtc : cs .rtc = true) (hlat : cs .lat = true) (hcapture : cs .capture = true) (hstl : cs .stl =
      true) (hlinks : ∀ i, cs (.link i) = true) (hsamples : ∀ i, cs (.sample i) = true) (hstalls : ∀ i, cs (.stall i) = true) (houtlets : ∀ i, cs
      (.outlet i) = true) (hsettingss : ∀ i, cs (.settings i) = true) (hbays : ∀ i, cs (.bay i) = true) (hmkt : cs .mkt = true) (hthm : cs .thm =
      true) (haux : cs .aux = true) (hmet : cs .met = true) (hsaf : cs .saf = true) (hrole : cs .role = true) (hpair : cs .pair = true) (hsbus : cs
      .sbus = true) (hvault : cs .vault = true) (hupd : cs .upd = true) (hqueues : cs .queues = true) (hldg : cs .ldg = true) (hmram : cs .mram =
      true) (h : OnlyIn cs s t) :
    OnlyIn cs s (writeWords m t a i ws).state := by
  induction ws generalizing t a i with
  | nil => exact h
  | cons v vs ih =>
    have h' := State.answered_only (a1 := m) (a2 := true) (a3 := a) (a4 := (t.writeWord m a v).2) hsums hanswer hviol hcapture hqueues
      (State.writeWord_only (a1 := m) (a2 := a) (a3 := v) hdraws hprof hlock hsums hanswer hviol hhost hassume hclk hpwr hrtc hlat hcapture hstl
            hlinks hsamples hstalls houtlets hsettingss hbays hmkt hthm haux hmet hsaf hrole hpair hsbus hvault hupd hqueues hldg hmram h)
    unfold writeWords
    dsimp only
    split
    · exact h'
    · split
      · exact h'
      · exact ih h'


theorem WriteRun.state_only {cs : Block → Bool} {s : State} {a0} (h0 : OnlyIn cs s a0.state) :
    OnlyIn cs s (WriteRun.state a0) := by
  unfold WriteRun.state
  exact h0

theorem State.runWrite_only {cs : Block → Bool} {s t : State} {a1 a2 a3 a4} (hdraws : cs .draws = true) (hprof : cs .prof = true) (hlock : cs .lock =
      true) (hsums : cs .sums = true) (hanswer : cs .answer = true) (hviol : cs .viol = true) (hhost : cs .host = true) (hassume : cs .assume = true)
      (hclk : cs .clk = true) (hpwr : cs .pwr = true) (hrtc : cs .rtc = true) (hlat : cs .lat = true) (hcapture : cs .capture = true) (hstl : cs .stl
      = true) (hlinks : ∀ i, cs (.link i) = true) (hsamples : ∀ i, cs (.sample i) = true) (hstalls : ∀ i, cs (.stall i) = true) (houtlets : ∀ i, cs
      (.outlet i) = true) (hsettingss : ∀ i, cs (.settings i) = true) (hbays : ∀ i, cs (.bay i) = true) (hmkt : cs .mkt = true) (hthm : cs .thm =
      true) (haux : cs .aux = true) (hmet : cs .met = true) (hsaf : cs .saf = true) (hrole : cs .role = true) (hpair : cs .pair = true) (hsbus : cs
      .sbus = true) (hvault : cs .vault = true) (hupd : cs .upd = true) (hqueues : cs .queues = true) (hldg : cs .ldg = true) (hmram : cs .mram =
      true) (h : OnlyIn cs s t) :
    OnlyIn cs s (State.runWrite t a1 a2 a3 a4) := by
  unfold State.runWrite
  extract_lets +onlyGivenNames -merge -underBinder x0
  have hx0 : OnlyIn cs s x0.state := (writeWords_only hdraws hprof hlock hsums hanswer hviol hhost hassume hclk hpwr hrtc hlat hcapture hstl hlinks
        hsamples hstalls houtlets hsettingss hbays hmkt hthm haux hmet hsaf hrole hpair hsbus hvault hupd hqueues hldg hmram h)
  (try clear_value x0)
  exact (OnlyIn.ite hx0 (State.finish_only hsums hanswer hviol hhost hx0))

theorem State.sendKept_only {cs : Block → Bool} {s t : State} {a1 a2} (hsums : cs .sums = true) (hanswer : cs .answer = true) (hviol : cs .viol =
      true) (hhost : cs .host = true) (h : OnlyIn cs s t) :
    OnlyIn cs s (State.sendKept t a1 a2) := by
  unfold State.sendKept
  extract_lets +onlyGivenNames -merge -underBinder x0
  have hx0 : OnlyIn cs s x0 := (State.sendReply_only hsums hanswer hviol hhost h)
  (try clear_value x0)
  exact (OnlyIn.ite hx0 (State.setHost_only ⟨.inr (by rfl), .inr (by rfl), .inr (by rfl), .inl hhost⟩ hx0))

theorem State.spiShift_only {cs : Block → Bool} {s t : State} (hhost : cs .host = true) (h : OnlyIn cs s t) :
    OnlyIn cs s (State.spiShift t) := by
  unfold State.spiShift
  exact (State.setHost_only ⟨.inr (by rfl), .inr (by rfl), .inr (by rfl), .inl hhost⟩ h)

theorem State.takeRequest_only {cs : Block → Bool} {s t : State} {a1 a2} (hsums : cs .sums = true) (hanswer : cs .answer = true) (hviol : cs .viol =
      true) (hhost : cs .host = true) (hassume : cs .assume = true) (h : OnlyIn cs s t) :
    OnlyIn cs s (State.takeRequest t a1 a2) := by
  unfold State.takeRequest
  extract_lets +onlyGivenNames -merge -underBinder x0
  have hx0 : OnlyIn cs s x0 := (State.countArrival_only hsums hhost hassume h)
  (try clear_value x0)
  exact (OnlyIn.ite (State.sendReply_only hsums hanswer hviol hhost (State.setHost_only ⟨.inl hsums, .inl hanswer, .inl hviol, .inl hhost⟩ hx0))
        (by split; (next => exact (State.sendKept_only hsums hanswer hviol hhost hx0)); (next => exact (by split; (next => exact (by extract_lets +onlyGivenNames -merge -underBinder x1; (try clear_value x1); exact (State.keepReply_only hhost (State.sendReply_only hsums hanswer hviol hhost hx0)))); (next => exact (OnlyIn.ite (State.pushRequest_only hsums hanswer hviol hhost hx0) (State.sendReply_only hsums hanswer hviol hhost hx0)))))))

theorem State.transaction_only {cs : Block → Bool} {s t : State} {a1} {a2} {a3} {a4} {a5} {a6} {a7} {a8 : Option Sys2Proof.Machine.Request →
      Sys2Proof.Machine.State → Sys2Proof.Machine.State} (hsums : cs .sums = true) (hanswer : cs .answer = true) (hviol : cs .viol = true) (hhost : cs
      .host = true) (hassume : cs .assume = true) (k8_ : ∀ i0 w, OnlyIn cs s w → OnlyIn cs s (a8 i0 w)) (h : OnlyIn cs s t) :
    OnlyIn cs s (State.transaction t a1 a2 a3 a4 a5 a6 a7 a8) := by
  unfold State.transaction
  exact
        (by split; (next => exact (OnlyIn.ite h (by extract_lets +onlyGivenNames -merge -underBinder x0; have hx0 : OnlyIn cs s x0 := (State.popRequest_only hhost h); (try clear_value x0); exact (by split; (next => exact (State.sendKept_only hsums hanswer hviol hhost hx0)); (next => exact (k8_ _ _ hx0)))))); (next => exact (by extract_lets +onlyGivenNames -merge -underBinder x1; have hx1 : OnlyIn cs s x1 := (by unfold x1; exact (OnlyIn.ite (State.countHost_only hsums hhost hassume h) h)); (try clear_value x1); exact (OnlyIn.ite (k8_ _ _ hx1) (State.setHost_only ⟨.inr (by rfl), .inl hanswer, .inr (by rfl), .inr (by rfl)⟩ hx1)))))

theorem doArpRequest_only {cs : Block → Bool} {s t : State} {a0 a1 a2 a3} (hmt : cs .mt = true) (hhost : cs .host = true) (h : OnlyIn cs s t) :
    OnlyIn cs s (doArpRequest a0 a1 a2 a3 t) := by
  unfold doArpRequest
  exact (whenLive_only hmt (fun _ k0 => (OnlyIn.ite (State.setHost_only ⟨.inr (by rfl), .inr (by rfl), .inr (by rfl), .inl hhost⟩ k0) k0)) h)

theorem doEcho_only {cs : Block → Bool} {s t : State} {a0 a1 a2 a3} (hmt : cs .mt = true) (hsums : cs .sums = true) (hanswer : cs .answer = true)
      (hviol : cs .viol = true) (hhost : cs .host = true) (hassume : cs .assume = true) (h : OnlyIn cs s t) :
    OnlyIn cs s (doEcho a0 a1 a2 a3 t) := by
  unfold doEcho
  exact (whenLive_only hmt (fun _ k0 => (State.transaction_only hsums hanswer hviol hhost hassume (fun _ _ k1 => (State.finish_only hsums hanswer
        hviol hhost k1)) k0)) h)

theorem doHostRateInterval_only {cs : Block → Bool} {s t : State} {a0} (hmt : cs .mt = true) (hsums : cs .sums = true) (hhost : cs .host = true)
    (hassume : cs .assume = true) (h : OnlyIn cs s t) : OnlyIn cs s (doHostRateInterval a0 t) := by
  unfold doHostRateInterval
  exact whenLive_only hmt (fun _ k => OnlyIn.ite k (OnlyIn.ite (State.setHost_only (HostIn.counted hhost _ _ _ _ true)
    (State.judgeRate_only hsums hassume (State.rateMove_only hsums hhost hassume k))) (State.rateMove_only hsums hhost hassume k))) h

theorem doIcmpEcho_only {cs : Block → Bool} {s t : State} {a0 a1 a2} (hmt : cs .mt = true) (hhost : cs .host = true) (h : OnlyIn cs s t) :
    OnlyIn cs s (doIcmpEcho a0 a1 a2 t) := by
  unfold doIcmpEcho
  exact (whenLive_only hmt (fun _ k0 => (State.setHost_only ⟨.inr (by rfl), .inr (by rfl), .inr (by rfl), .inl hhost⟩ k0)) h)

theorem doRead_only {cs : Block → Bool} {s t : State} {a0 a1 a2 a3 a4} (hmt : cs .mt = true) (hsums : cs .sums = true) (hanswer : cs .answer = true)
      (hviol : cs .viol = true) (hhost : cs .host = true) (hassume : cs .assume = true) (hcapture : cs .capture = true) (hqueues : cs .queues = true)
      (h : OnlyIn cs s t) :
    OnlyIn cs s (doRead a0 a1 a2 a3 a4 t) := by
  unfold doRead
  exact (whenLive_only hmt (fun _ k0 => (State.transaction_only hsums hanswer hviol hhost hassume (fun _ _ k1 => (State.runRead_only hsums hanswer
        hviol hhost hcapture hqueues k1)) k0)) h)

theorem doReadList_only {cs : Block → Bool} {s t : State} {a0 a1 a2 a3} (hmt : cs .mt = true) (hsums : cs .sums = true) (hanswer : cs .answer = true)
      (hviol : cs .viol = true) (hhost : cs .host = true) (hassume : cs .assume = true) (hcapture : cs .capture = true) (hqueues : cs .queues = true)
      (h : OnlyIn cs s t) :
    OnlyIn cs s (doReadList a0 a1 a2 a3 t) := by
  unfold doReadList
  exact (whenLive_only hmt (fun _ k0 => (State.transaction_only hsums hanswer hviol hhost hassume (fun _ _ k1 => (State.runRead_only hsums hanswer
        hviol hhost hcapture hqueues k1)) k0)) h)

theorem doSpiFetch_only {cs : Block → Bool} {s t : State} {a0} (hmt : cs .mt = true) (hhost : cs .host = true) (h : OnlyIn cs s t) :
    OnlyIn cs s (doSpiFetch a0 t) := by
  unfold doSpiFetch
  exact (whenLive_only hmt (fun _ k0 =>
        (by extract_lets +onlyGivenNames -merge -underBinder x1; have hx1 : OnlyIn cs s x1 := (State.spiShift_only hhost k0); (try clear_value x1); exact (by extract_lets +onlyGivenNames -merge -underBinder x2; (try clear_value x2); exact (State.setHost_only ⟨.inr (by rfl), .inr (by rfl), .inr (by rfl), .inl hhost⟩ hx1))))
        h)

theorem doSpiRequest_only {cs : Block → Bool} {s t : State} {a0 a1} (hmt : cs .mt = true) (hsums : cs .sums = true) (hanswer : cs .answer = true)
      (hviol : cs .viol = true) (hhost : cs .host = true) (hassume : cs .assume = true) (h : OnlyIn cs s t) :
    OnlyIn cs s (doSpiRequest a0 a1 t) := by
  unfold doSpiRequest
  exact (whenLive_only hmt (fun _ k0 =>
        (by extract_lets +onlyGivenNames -merge -underBinder x1; have hx1 : OnlyIn cs s x1 := (State.spiShift_only hhost k0); (try clear_value x1); exact (OnlyIn.ite (State.setHost_only ⟨.inr (by rfl), .inr (by rfl), .inr (by rfl), .inl hhost⟩ hx1) (State.takeRequest_only hsums hanswer hviol hhost hassume hx1))))
        h)

theorem doSpiStatus_only {cs : Block → Bool} {s t : State} {a0} (hmt : cs .mt = true) (hhost : cs .host = true) (h : OnlyIn cs s t) :
    OnlyIn cs s (doSpiStatus a0 t) := by
  unfold doSpiStatus
  exact (whenLive_only hmt (fun _ k0 => (State.spiShift_only hhost k0)) h)

theorem doUdpDatagram_only {cs : Block → Bool} {s t : State} {a0 a1} (hmt : cs .mt = true) (hsums : cs .sums = true) (hanswer : cs .answer = true)
      (hviol : cs .viol = true) (hhost : cs .host = true) (hassume : cs .assume = true) (h : OnlyIn cs s t) :
    OnlyIn cs s (doUdpDatagram a0 a1 t) := by
  unfold doUdpDatagram
  exact (whenLive_only hmt (fun _ k0 => (OnlyIn.ite k0 (OnlyIn.ite (State.setHost_only ⟨.inr (by rfl), .inr (by rfl), .inr (by rfl), .inl hhost⟩ k0)
        (State.takeRequest_only hsums hanswer hviol hhost hassume k0)))) h)

theorem doWrite_only {cs : Block → Bool} {s t : State} {a0 a1 a2 a3 a4} (hmt : cs .mt = true) (hdraws : cs .draws = true) (hprof : cs .prof = true)
      (hlock : cs .lock = true) (hsums : cs .sums = true) (hanswer : cs .answer = true) (hviol : cs .viol = true) (hhost : cs .host = true) (hassume :
      cs .assume = true) (hclk : cs .clk = true) (hpwr : cs .pwr = true) (hrtc : cs .rtc = true) (hlat : cs .lat = true) (hcapture : cs .capture =
      true) (hstl : cs .stl = true) (hlinks : ∀ i, cs (.link i) = true) (hsamples : ∀ i, cs (.sample i) = true) (hstalls : ∀ i, cs (.stall i) = true)
      (houtlets : ∀ i, cs (.outlet i) = true) (hsettingss : ∀ i, cs (.settings i) = true) (hbays : ∀ i, cs (.bay i) = true) (hmkt : cs .mkt = true)
      (hthm : cs .thm = true) (haux : cs .aux = true) (hmet : cs .met = true) (hsaf : cs .saf = true) (hrole : cs .role = true) (hpair : cs .pair =
      true) (hsbus : cs .sbus = true) (hvault : cs .vault = true) (hupd : cs .upd = true) (hqueues : cs .queues = true) (hldg : cs .ldg = true) (hmram
      : cs .mram = true) (h : OnlyIn cs s t) :
    OnlyIn cs s (doWrite a0 a1 a2 a3 a4 t) := by
  unfold doWrite
  exact (whenLive_only hmt (fun _ k0 =>
        (by extract_lets +onlyGivenNames -merge -underBinder x1; (try clear_value x1); exact (State.transaction_only hsums hanswer hviol hhost hassume (fun _ _ k2 => (State.runWrite_only hdraws hprof hlock hsums hanswer hviol hhost hassume hclk hpwr hrtc hlat hcapture hstl hlinks hsamples hstalls houtlets hsettingss hbays hmkt hthm haux hmet hsaf hrole hpair hsbus hvault hupd hqueues hldg hmram k2)) k0)))
        h)

theorem doSnapshotRead_only {cs : Block → Bool} {s t : State} {a0} (hmt : cs .mt = true) (hqueues : cs .queues = true) (h : OnlyIn cs s t) :
    OnlyIn cs s (doSnapshotRead a0 t) := by
  unfold doSnapshotRead
  exact (whenLive_only hmt (fun _ k0 => (by split; (next => exact (OnlyIn.setLdg ⟨.inl hqueues, .inr (by rfl)⟩ k0)); (next => exact k0))) h)

end Sys2Proof.Machine
end

