-- ==== Sys2Proof/Laws/Memory.lean ====
section
/-! SUPPORT. The sparse memories: every operation keeps the canonical form, and a byte reads as it was last written. -/
namespace Sys2Proof.Machine

theorem memWfFrom_mono {m : Mem} {a b : Nat} (h : a ≤ b) (w : memWfFrom b m = true) : memWfFrom a m = true := by
  cases m with
  | nil => rfl
  | cons p m =>
    obtain ⟨x, v⟩ := p
    simp only [memWfFrom, Bool.and_eq_true, decide_eq_true_eq] at w ⊢
    exact ⟨⟨Nat.le_trans h w.1.1, w.1.2⟩, w.2⟩

/-- Below its first address a memory reads 0. -/
theorem memRead_below {m : Mem} {a x : Nat} (w : memWfFrom a m = true) (h : x < a) : memRead m x = 0 := by
  cases m with
  | nil => rfl
  | cons p m =>
    obtain ⟨y, v⟩ := p
    simp only [memWfFrom, Bool.and_eq_true, decide_eq_true_eq] at w
    have : x < y := Nat.lt_of_lt_of_le h w.1.1
    simp [memRead, this, Nat.ne_of_gt this]

theorem memWfFrom_cons {a y : Nat} {b : Byte} {m : Mem} : memWfFrom a ((y, b) :: m) = true ↔ a ≤ y ∧ b ≠ 0 ∧ memWfFrom (y + 1) m = true := by
  rw [memWfFrom.eq_2, Bool.and_eq_true, Bool.and_eq_true, decide_eq_true_eq, bne_iff_ne, and_assoc]

/-- Writing one byte keeps the canonical form. -/
theorem memWrite_wfFrom {m : Mem} {a x : Nat} (v : Byte) (w : memWfFrom a m = true) (h : a ≤ x) : memWfFrom a (memWrite m x v) = true := by
  induction m generalizing a with
  | nil =>
    unfold memWrite
    split
    · rfl
    · next e => exact memWfFrom_cons.2 ⟨h, e, rfl⟩
  | cons p m ih =>
    obtain ⟨y, b⟩ := p
    have c := memWfFrom_cons.1 w
    unfold memWrite
    split
    · next lt =>
      split
      · exact w
      · next e => exact memWfFrom_cons.2 ⟨h, e, memWfFrom_cons.2 ⟨lt, c.2⟩⟩
    · next ge =>
      split
      · next e =>
        subst e
        split
        · exact memWfFrom_mono (Nat.le_succ_of_le h) c.2.2
        · next e => exact memWfFrom_cons.2 ⟨h, e, c.2.2⟩
      · next ne => exact memWfFrom_cons.2 ⟨c.1, c.2.1, ih c.2.2 (by omega)⟩

theorem memWrite_wf {m : Mem} (x : Nat) (v : Byte) (w : Memory.wf m = true) : Memory.wf (memWrite m x v) = true :=
  memWrite_wfFrom v w (Nat.zero_le x)

theorem memWrites_wf {m : Mem} (x : Nat) (b : Bytes) (w : Memory.wf m = true) : Memory.wf (memWrites m x b) = true := by
  induction b generalizing m x with
  | nil => exact w
  | cons v b ih => exact ih (x + 1) (memWrite_wf x v w)

/-- Bytes laid out at `x` are in canonical form. -/
theorem memOf_wfFrom (x a : Nat) (b : Bytes) (h : a ≤ x) : memWfFrom a (memOf x b) = true := by
  induction b generalizing x a with
  | nil => rfl
  | cons v b ih =>
    unfold memOf
    split
    · exact ih (x + 1) a (by omega)
    · next e => exact memWfFrom_cons.2 ⟨h, e, ih (x + 1) (x + 1) (Nat.le_refl _)⟩

theorem memOf_wf (x : Nat) (b : Bytes) : Memory.wf (memOf x b) = true := memOf_wfFrom x 0 b (Nat.zero_le x)

theorem memRead_cons (y : Nat) (b : Byte) (m : Mem) (x : Nat) : memRead ((y, b) :: m) x = if y = x then b else if x < y then 0 else memRead m x := rfl

/-- A byte reads as it was last written, every other byte as before. -/
theorem memRead_memWrite {m : Mem} {a : Nat} (x : Nat) (v : Byte) (y : Nat) (w : memWfFrom a m = true) :
    memRead (memWrite m x v) y = if y = x then v else memRead m y := by
  induction m generalizing a with
  | nil =>
    by_cases e : v = 0
    · rw [show memWrite [] x v = [] from if_pos e, e]; split <;> rfl
    · rw [show memWrite [] x v = [(x, v)] from if_neg e, memRead_cons]
      by_cases n : y = x
      · rw [if_pos n.symm, if_pos n]
      · rw [if_neg (Ne.symm n), if_neg n]; split <;> rfl
  | cons p m ih =>
    obtain ⟨z, b⟩ := p
    have c := memWfFrom_cons.1 w
    unfold memWrite
    split
    · next lt =>
      have below : y = x → memRead ((z, b) :: m) y = 0 := fun e => memRead_below (a := z) (memWfFrom_cons.2 ⟨Nat.le_refl z, c.2⟩) (e ▸ lt)
      split
      · next e =>
        split
        · next n => rw [below n, e]
        · rfl
      · rw [memRead_cons x]
        by_cases n : y = x
        · rw [if_pos n.symm, if_pos n]
        · rw [if_neg (Ne.symm n), if_neg n]
          split
          · next l => exact (memRead_below (a := z) (memWfFrom_cons.2 ⟨Nat.le_refl z, c.2⟩) (by omega)).symm
          · rfl
    · next ge =>
      split
      · next e =>
        subst e
        have skip : y ≠ z → memRead m y = memRead ((z, b) :: m) y := fun n => by
          rw [memRead_cons, if_neg (Ne.symm n)]
          split
          · next l => exact memRead_below c.2.2 (by omega)
          · rfl
        split
        · next e =>
          split
          · next n => rw [n, memRead_below c.2.2 (Nat.lt_succ_self z), e]
          · next n => exact skip n
        · rw [memRead_cons]
          by_cases n : y = z
          · rw [if_pos n.symm, if_pos n]
          · rw [if_neg (Ne.symm n), if_neg n, ← skip n]
            split
            · next l => exact (memRead_below c.2.2 (by omega)).symm
            · rfl
      · next ne =>
        rw [memRead_cons, memRead_cons, ih c.2.2]
        by_cases n : y = x
        · rw [if_pos n, if_pos n, if_neg (by omega), if_neg (by omega)]
        · rw [if_neg n, if_neg n]

/-- The memories after power-on are in canonical form: nothing is listed. -/
theorem reset_memsWf : State.reset.memsWf = true := by decide +kernel

end Sys2Proof.Machine
end

