-- ==== Sys2Proof/Laws/State.lean ====
section
/-! SUPPORT. What each shared update of the state leaves alone, field by field, and what it writes. -/
namespace Sys2Proof.Machine

/-! ## State.arrive -/
@[simp] theorem State.arrive_pending (s : State) (t : Nat) : (s.arrive t).pending = s.pending := rfl
@[simp] theorem State.arrive_draws (s : State) (t : Nat) : (s.arrive t).draws = s.draws := rfl
@[simp] theorem State.arrive_fuses (s : State) (t : Nat) : (s.arrive t).fuses = s.fuses := rfl
@[simp] theorem State.arrive_prof (s : State) (t : Nat) : (s.arrive t).prof = s.prof := rfl
@[simp] theorem State.arrive_lock (s : State) (t : Nat) : (s.arrive t).lock = s.lock := rfl
@[simp] theorem State.arrive_host (s : State) (t : Nat) : (s.arrive t).host = s.host := rfl
@[simp] theorem State.arrive_assume (s : State) (t : Nat) : (s.arrive t).assume = s.assume := rfl
@[simp] theorem State.arrive_clk (s : State) (t : Nat) : (s.arrive t).clk = s.clk := rfl
@[simp] theorem State.arrive_pwr (s : State) (t : Nat) : (s.arrive t).pwr = s.pwr := rfl
@[simp] theorem State.arrive_rtc (s : State) (t : Nat) : (s.arrive t).rtc = s.rtc := rfl
@[simp] theorem State.arrive_lat (s : State) (t : Nat) : (s.arrive t).lat = s.lat := rfl
@[simp] theorem State.arrive_stl (s : State) (t : Nat) : (s.arrive t).stl = s.stl := rfl
@[simp] theorem State.arrive_stalls (s : State) (t : Nat) : (s.arrive t).stalls = s.stalls := rfl
@[simp] theorem State.arrive_bays (s : State) (t : Nat) : (s.arrive t).bays = s.bays := rfl
@[simp] theorem State.arrive_mkt (s : State) (t : Nat) : (s.arrive t).mkt = s.mkt := rfl
@[simp] theorem State.arrive_thm (s : State) (t : Nat) : (s.arrive t).thm = s.thm := rfl
@[simp] theorem State.arrive_aux (s : State) (t : Nat) : (s.arrive t).aux = s.aux := rfl
@[simp] theorem State.arrive_met (s : State) (t : Nat) : (s.arrive t).met = s.met := rfl
@[simp] theorem State.arrive_saf (s : State) (t : Nat) : (s.arrive t).saf = s.saf := rfl
@[simp] theorem State.arrive_pair (s : State) (t : Nat) : (s.arrive t).pair = s.pair := rfl
@[simp] theorem State.arrive_sbus (s : State) (t : Nat) : (s.arrive t).sbus = s.sbus := rfl
@[simp] theorem State.arrive_vault (s : State) (t : Nat) : (s.arrive t).vault = s.vault := rfl
@[simp] theorem State.arrive_upd (s : State) (t : Nat) : (s.arrive t).upd = s.upd := rfl
@[simp] theorem State.arrive_ldg (s : State) (t : Nat) : (s.arrive t).ldg = s.ldg := rfl
@[simp] theorem State.arrive_mram (s : State) (t : Nat) : (s.arrive t).mram = s.mram := rfl
@[simp] theorem State.arrive_pitchNs (s : State) (t : Nat) : (s.arrive t).pitchNs = s.pitchNs := rfl
@[simp] theorem State.arrive_cableM (s : State) (t : Nat) : (s.arrive t).cableM = s.cableM := rfl
@[simp] theorem State.arrive_running (s : State) (t : Nat) : (s.arrive t).running = s.running := rfl
@[simp] theorem State.arrive_active (s : State) (t : Nat) : (s.arrive t).active = s.active := rfl
@[simp] theorem State.arrive_live (s : State) (t : Nat) : (s.arrive t).live = s.live := rfl
@[simp] theorem State.arrive_paired (s : State) (t : Nat) : (s.arrive t).paired = s.paired := rfl
@[simp] theorem State.arrive_stallRec (s : State) (t : Nat) (y : Fin 64) : (s.arrive t).stallRec y = s.stallRec y := rfl
@[simp] theorem State.arrive_bayRec (s : State) (t : Nat) (y : Fin 12) : (s.arrive t).bayRec y = s.bayRec y := rfl
@[simp] theorem State.arrive_nextBoundary (s : State) (t : Nat) (q : Nat) : (s.arrive t).nextBoundary q = s.nextBoundary q := rfl
@[simp] theorem State.arrive_boundaryAt (s : State) (t : Nat) (q : Nat) : (s.arrive t).boundaryAt q = s.boundaryAt q := rfl
@[simp] theorem State.arrive_slotOf (s : State) (t : Nat) (y : Fin 64) : (s.arrive t).slotOf y = s.slotOf y := rfl

/-! ## State.setStall -/
@[simp] theorem State.setStall_pending (s : State) (n : Fin 64) (f : Stall → Stall) : (s.setStall n f).pending = s.pending := rfl
@[simp] theorem State.setStall_mt (s : State) (n : Fin 64) (f : Stall → Stall) : (s.setStall n f).mt = s.mt := rfl
@[simp] theorem State.setStall_draws (s : State) (n : Fin 64) (f : Stall → Stall) : (s.setStall n f).draws = s.draws := rfl
@[simp] theorem State.setStall_fuses (s : State) (n : Fin 64) (f : Stall → Stall) : (s.setStall n f).fuses = s.fuses := rfl
@[simp] theorem State.setStall_prof (s : State) (n : Fin 64) (f : Stall → Stall) : (s.setStall n f).prof = s.prof := rfl
@[simp] theorem State.setStall_lock (s : State) (n : Fin 64) (f : Stall → Stall) : (s.setStall n f).lock = s.lock := rfl
@[simp] theorem State.setStall_host (s : State) (n : Fin 64) (f : Stall → Stall) : (s.setStall n f).host = s.host := rfl
@[simp] theorem State.setStall_assume (s : State) (n : Fin 64) (f : Stall → Stall) : (s.setStall n f).assume = s.assume := rfl
@[simp] theorem State.setStall_clk (s : State) (n : Fin 64) (f : Stall → Stall) : (s.setStall n f).clk = s.clk := rfl
@[simp] theorem State.setStall_pwr (s : State) (n : Fin 64) (f : Stall → Stall) : (s.setStall n f).pwr = s.pwr := rfl
@[simp] theorem State.setStall_rtc (s : State) (n : Fin 64) (f : Stall → Stall) : (s.setStall n f).rtc = s.rtc := rfl
@[simp] theorem State.setStall_lat (s : State) (n : Fin 64) (f : Stall → Stall) : (s.setStall n f).lat = s.lat := rfl
@[simp] theorem State.setStall_stl (s : State) (n : Fin 64) (f : Stall → Stall) : (s.setStall n f).stl = s.stl := rfl
@[simp] theorem State.setStall_bays (s : State) (n : Fin 64) (f : Stall → Stall) : (s.setStall n f).bays = s.bays := rfl
@[simp] theorem State.setStall_mkt (s : State) (n : Fin 64) (f : Stall → Stall) : (s.setStall n f).mkt = s.mkt := rfl
@[simp] theorem State.setStall_thm (s : State) (n : Fin 64) (f : Stall → Stall) : (s.setStall n f).thm = s.thm := rfl
@[simp] theorem State.setStall_aux (s : State) (n : Fin 64) (f : Stall → Stall) : (s.setStall n f).aux = s.aux := rfl
@[simp] theorem State.setStall_met (s : State) (n : Fin 64) (f : Stall → Stall) : (s.setStall n f).met = s.met := rfl
@[simp] theorem State.setStall_saf (s : State) (n : Fin 64) (f : Stall → Stall) : (s.setStall n f).saf = s.saf := rfl
@[simp] theorem State.setStall_pair (s : State) (n : Fin 64) (f : Stall → Stall) : (s.setStall n f).pair = s.pair := rfl
@[simp] theorem State.setStall_sbus (s : State) (n : Fin 64) (f : Stall → Stall) : (s.setStall n f).sbus = s.sbus := rfl
@[simp] theorem State.setStall_vault (s : State) (n : Fin 64) (f : Stall → Stall) : (s.setStall n f).vault = s.vault := rfl
@[simp] theorem State.setStall_upd (s : State) (n : Fin 64) (f : Stall → Stall) : (s.setStall n f).upd = s.upd := rfl
@[simp] theorem State.setStall_ldg (s : State) (n : Fin 64) (f : Stall → Stall) : (s.setStall n f).ldg = s.ldg := rfl
@[simp] theorem State.setStall_mram (s : State) (n : Fin 64) (f : Stall → Stall) : (s.setStall n f).mram = s.mram := rfl
@[simp] theorem State.setStall_pitchNs (s : State) (n : Fin 64) (f : Stall → Stall) : (s.setStall n f).pitchNs = s.pitchNs := rfl
@[simp] theorem State.setStall_cableM (s : State) (n : Fin 64) (f : Stall → Stall) : (s.setStall n f).cableM = s.cableM := rfl
@[simp] theorem State.setStall_running (s : State) (n : Fin 64) (f : Stall → Stall) : (s.setStall n f).running = s.running := rfl
@[simp] theorem State.setStall_active (s : State) (n : Fin 64) (f : Stall → Stall) : (s.setStall n f).active = s.active := rfl
@[simp] theorem State.setStall_live (s : State) (n : Fin 64) (f : Stall → Stall) : (s.setStall n f).live = s.live := rfl
@[simp] theorem State.setStall_paired (s : State) (n : Fin 64) (f : Stall → Stall) : (s.setStall n f).paired = s.paired := rfl
@[simp] theorem State.setStall_stallRec (s : State) (n : Fin 64) (f : Stall → Stall) (y : Fin 64) : (s.setStall n f).stallRec y = s.stallRec y := rfl
@[simp] theorem State.setStall_bayRec (s : State) (n : Fin 64) (f : Stall → Stall) (y : Fin 12) : (s.setStall n f).bayRec y = s.bayRec y := rfl
@[simp] theorem State.setStall_nextBoundary (s : State) (n : Fin 64) (f : Stall → Stall) (q : Nat) : (s.setStall n f).nextBoundary q = s.nextBoundary q := rfl
@[simp] theorem State.setStall_boundaryAt (s : State) (n : Fin 64) (f : Stall → Stall) (q : Nat) : (s.setStall n f).boundaryAt q = s.boundaryAt q := rfl
@[simp] theorem State.setStall_slotOf (s : State) (n : Fin 64) (f : Stall → Stall) (y : Fin 64) : (s.setStall n f).slotOf y = s.slotOf y := rfl

/-! ## State.setLink -/
@[simp] theorem State.setLink_pending (s : State) (n : Fin 64) (f : Link → Link) : (s.setLink n f).pending = s.pending := rfl
@[simp] theorem State.setLink_mt (s : State) (n : Fin 64) (f : Link → Link) : (s.setLink n f).mt = s.mt := rfl
@[simp] theorem State.setLink_draws (s : State) (n : Fin 64) (f : Link → Link) : (s.setLink n f).draws = s.draws := rfl
@[simp] theorem State.setLink_fuses (s : State) (n : Fin 64) (f : Link → Link) : (s.setLink n f).fuses = s.fuses := rfl
@[simp] theorem State.setLink_prof (s : State) (n : Fin 64) (f : Link → Link) : (s.setLink n f).prof = s.prof := rfl
@[simp] theorem State.setLink_lock (s : State) (n : Fin 64) (f : Link → Link) : (s.setLink n f).lock = s.lock := rfl
@[simp] theorem State.setLink_host (s : State) (n : Fin 64) (f : Link → Link) : (s.setLink n f).host = s.host := rfl
@[simp] theorem State.setLink_assume (s : State) (n : Fin 64) (f : Link → Link) : (s.setLink n f).assume = s.assume := rfl
@[simp] theorem State.setLink_clk (s : State) (n : Fin 64) (f : Link → Link) : (s.setLink n f).clk = s.clk := rfl
@[simp] theorem State.setLink_pwr (s : State) (n : Fin 64) (f : Link → Link) : (s.setLink n f).pwr = s.pwr := rfl
@[simp] theorem State.setLink_rtc (s : State) (n : Fin 64) (f : Link → Link) : (s.setLink n f).rtc = s.rtc := rfl
@[simp] theorem State.setLink_lat (s : State) (n : Fin 64) (f : Link → Link) : (s.setLink n f).lat = s.lat := rfl
@[simp] theorem State.setLink_stl (s : State) (n : Fin 64) (f : Link → Link) : (s.setLink n f).stl = s.stl := rfl
@[simp] theorem State.setLink_bays (s : State) (n : Fin 64) (f : Link → Link) : (s.setLink n f).bays = s.bays := rfl
@[simp] theorem State.setLink_mkt (s : State) (n : Fin 64) (f : Link → Link) : (s.setLink n f).mkt = s.mkt := rfl
@[simp] theorem State.setLink_thm (s : State) (n : Fin 64) (f : Link → Link) : (s.setLink n f).thm = s.thm := rfl
@[simp] theorem State.setLink_aux (s : State) (n : Fin 64) (f : Link → Link) : (s.setLink n f).aux = s.aux := rfl
@[simp] theorem State.setLink_met (s : State) (n : Fin 64) (f : Link → Link) : (s.setLink n f).met = s.met := rfl
@[simp] theorem State.setLink_saf (s : State) (n : Fin 64) (f : Link → Link) : (s.setLink n f).saf = s.saf := rfl
@[simp] theorem State.setLink_pair (s : State) (n : Fin 64) (f : Link → Link) : (s.setLink n f).pair = s.pair := rfl
@[simp] theorem State.setLink_sbus (s : State) (n : Fin 64) (f : Link → Link) : (s.setLink n f).sbus = s.sbus := rfl
@[simp] theorem State.setLink_vault (s : State) (n : Fin 64) (f : Link → Link) : (s.setLink n f).vault = s.vault := rfl
@[simp] theorem State.setLink_upd (s : State) (n : Fin 64) (f : Link → Link) : (s.setLink n f).upd = s.upd := rfl
@[simp] theorem State.setLink_ldg (s : State) (n : Fin 64) (f : Link → Link) : (s.setLink n f).ldg = s.ldg := rfl
@[simp] theorem State.setLink_mram (s : State) (n : Fin 64) (f : Link → Link) : (s.setLink n f).mram = s.mram := rfl
@[simp] theorem State.setLink_pitchNs (s : State) (n : Fin 64) (f : Link → Link) : (s.setLink n f).pitchNs = s.pitchNs := rfl
@[simp] theorem State.setLink_cableM (s : State) (n : Fin 64) (f : Link → Link) : (s.setLink n f).cableM = s.cableM := rfl
@[simp] theorem State.setLink_running (s : State) (n : Fin 64) (f : Link → Link) : (s.setLink n f).running = s.running := rfl
@[simp] theorem State.setLink_active (s : State) (n : Fin 64) (f : Link → Link) : (s.setLink n f).active = s.active := rfl
@[simp] theorem State.setLink_live (s : State) (n : Fin 64) (f : Link → Link) : (s.setLink n f).live = s.live := rfl
@[simp] theorem State.setLink_paired (s : State) (n : Fin 64) (f : Link → Link) : (s.setLink n f).paired = s.paired := rfl
@[simp] theorem State.setLink_stallRec (s : State) (n : Fin 64) (f : Link → Link) (y : Fin 64) : (s.setLink n f).stallRec y = s.stallRec y := rfl
@[simp] theorem State.setLink_bayRec (s : State) (n : Fin 64) (f : Link → Link) (y : Fin 12) : (s.setLink n f).bayRec y = s.bayRec y := rfl
@[simp] theorem State.setLink_nextBoundary (s : State) (n : Fin 64) (f : Link → Link) (q : Nat) : (s.setLink n f).nextBoundary q = s.nextBoundary q := rfl
@[simp] theorem State.setLink_boundaryAt (s : State) (n : Fin 64) (f : Link → Link) (q : Nat) : (s.setLink n f).boundaryAt q = s.boundaryAt q := rfl
@[simp] theorem State.setLink_slotOf (s : State) (n : Fin 64) (f : Link → Link) (y : Fin 64) : (s.setLink n f).slotOf y = s.slotOf y := rfl

/-! ## State.setBay -/
@[simp] theorem State.setBay_pending (s : State) (b : Fin 12) (f : Bay → Bay) : (s.setBay b f).pending = s.pending := rfl
@[simp] theorem State.setBay_mt (s : State) (b : Fin 12) (f : Bay → Bay) : (s.setBay b f).mt = s.mt := rfl
@[simp] theorem State.setBay_draws (s : State) (b : Fin 12) (f : Bay → Bay) : (s.setBay b f).draws = s.draws := rfl
@[simp] theorem State.setBay_fuses (s : State) (b : Fin 12) (f : Bay → Bay) : (s.setBay b f).fuses = s.fuses := rfl
@[simp] theorem State.setBay_prof (s : State) (b : Fin 12) (f : Bay → Bay) : (s.setBay b f).prof = s.prof := rfl
@[simp] theorem State.setBay_lock (s : State) (b : Fin 12) (f : Bay → Bay) : (s.setBay b f).lock = s.lock := rfl
@[simp] theorem State.setBay_host (s : State) (b : Fin 12) (f : Bay → Bay) : (s.setBay b f).host = s.host := rfl
@[simp] theorem State.setBay_assume (s : State) (b : Fin 12) (f : Bay → Bay) : (s.setBay b f).assume = s.assume := rfl
@[simp] theorem State.setBay_clk (s : State) (b : Fin 12) (f : Bay → Bay) : (s.setBay b f).clk = s.clk := rfl
@[simp] theorem State.setBay_pwr (s : State) (b : Fin 12) (f : Bay → Bay) : (s.setBay b f).pwr = s.pwr := rfl
@[simp] theorem State.setBay_rtc (s : State) (b : Fin 12) (f : Bay → Bay) : (s.setBay b f).rtc = s.rtc := rfl
@[simp] theorem State.setBay_lat (s : State) (b : Fin 12) (f : Bay → Bay) : (s.setBay b f).lat = s.lat := rfl
@[simp] theorem State.setBay_stl (s : State) (b : Fin 12) (f : Bay → Bay) : (s.setBay b f).stl = s.stl := rfl
@[simp] theorem State.setBay_stalls (s : State) (b : Fin 12) (f : Bay → Bay) : (s.setBay b f).stalls = s.stalls := rfl
@[simp] theorem State.setBay_mkt (s : State) (b : Fin 12) (f : Bay → Bay) : (s.setBay b f).mkt = s.mkt := rfl
@[simp] theorem State.setBay_thm (s : State) (b : Fin 12) (f : Bay → Bay) : (s.setBay b f).thm = s.thm := rfl
@[simp] theorem State.setBay_aux (s : State) (b : Fin 12) (f : Bay → Bay) : (s.setBay b f).aux = s.aux := rfl
@[simp] theorem State.setBay_met (s : State) (b : Fin 12) (f : Bay → Bay) : (s.setBay b f).met = s.met := rfl
@[simp] theorem State.setBay_saf (s : State) (b : Fin 12) (f : Bay → Bay) : (s.setBay b f).saf = s.saf := rfl
@[simp] theorem State.setBay_pair (s : State) (b : Fin 12) (f : Bay → Bay) : (s.setBay b f).pair = s.pair := rfl
@[simp] theorem State.setBay_sbus (s : State) (b : Fin 12) (f : Bay → Bay) : (s.setBay b f).sbus = s.sbus := rfl
@[simp] theorem State.setBay_vault (s : State) (b : Fin 12) (f : Bay → Bay) : (s.setBay b f).vault = s.vault := rfl
@[simp] theorem State.setBay_upd (s : State) (b : Fin 12) (f : Bay → Bay) : (s.setBay b f).upd = s.upd := rfl
@[simp] theorem State.setBay_ldg (s : State) (b : Fin 12) (f : Bay → Bay) : (s.setBay b f).ldg = s.ldg := rfl
@[simp] theorem State.setBay_mram (s : State) (b : Fin 12) (f : Bay → Bay) : (s.setBay b f).mram = s.mram := rfl
@[simp] theorem State.setBay_pitchNs (s : State) (b : Fin 12) (f : Bay → Bay) : (s.setBay b f).pitchNs = s.pitchNs := rfl
@[simp] theorem State.setBay_cableM (s : State) (b : Fin 12) (f : Bay → Bay) : (s.setBay b f).cableM = s.cableM := rfl
@[simp] theorem State.setBay_running (s : State) (b : Fin 12) (f : Bay → Bay) : (s.setBay b f).running = s.running := rfl
@[simp] theorem State.setBay_active (s : State) (b : Fin 12) (f : Bay → Bay) : (s.setBay b f).active = s.active := rfl
@[simp] theorem State.setBay_live (s : State) (b : Fin 12) (f : Bay → Bay) : (s.setBay b f).live = s.live := rfl
@[simp] theorem State.setBay_paired (s : State) (b : Fin 12) (f : Bay → Bay) : (s.setBay b f).paired = s.paired := rfl
@[simp] theorem State.setBay_stallRec (s : State) (b : Fin 12) (f : Bay → Bay) (y : Fin 64) : (s.setBay b f).stallRec y = s.stallRec y := rfl
@[simp] theorem State.setBay_bayRec (s : State) (b : Fin 12) (f : Bay → Bay) (y : Fin 12) : (s.setBay b f).bayRec y = s.bayRec y := rfl
@[simp] theorem State.setBay_nextBoundary (s : State) (b : Fin 12) (f : Bay → Bay) (q : Nat) : (s.setBay b f).nextBoundary q = s.nextBoundary q := rfl
@[simp] theorem State.setBay_boundaryAt (s : State) (b : Fin 12) (f : Bay → Bay) (q : Nat) : (s.setBay b f).boundaryAt q = s.boundaryAt q := rfl
@[simp] theorem State.setBay_slotOf (s : State) (b : Fin 12) (f : Bay → Bay) (y : Fin 64) : (s.setBay b f).slotOf y = s.slotOf y := rfl

/-! ## State.bump -/
@[simp] theorem State.bump_pending (s : State) (k : Fin 16) : (s.bump k).pending = s.pending := rfl
@[simp] theorem State.bump_mt (s : State) (k : Fin 16) : (s.bump k).mt = s.mt := rfl
@[simp] theorem State.bump_draws (s : State) (k : Fin 16) : (s.bump k).draws = s.draws := rfl
@[simp] theorem State.bump_fuses (s : State) (k : Fin 16) : (s.bump k).fuses = s.fuses := rfl
@[simp] theorem State.bump_prof (s : State) (k : Fin 16) : (s.bump k).prof = s.prof := rfl
@[simp] theorem State.bump_lock (s : State) (k : Fin 16) : (s.bump k).lock = s.lock := rfl
@[simp] theorem State.bump_assume (s : State) (k : Fin 16) : (s.bump k).assume = s.assume := rfl
@[simp] theorem State.bump_clk (s : State) (k : Fin 16) : (s.bump k).clk = s.clk := rfl
@[simp] theorem State.bump_pwr (s : State) (k : Fin 16) : (s.bump k).pwr = s.pwr := rfl
@[simp] theorem State.bump_rtc (s : State) (k : Fin 16) : (s.bump k).rtc = s.rtc := rfl
@[simp] theorem State.bump_lat (s : State) (k : Fin 16) : (s.bump k).lat = s.lat := rfl
@[simp] theorem State.bump_stl (s : State) (k : Fin 16) : (s.bump k).stl = s.stl := rfl
@[simp] theorem State.bump_stalls (s : State) (k : Fin 16) : (s.bump k).stalls = s.stalls := rfl
@[simp] theorem State.bump_bays (s : State) (k : Fin 16) : (s.bump k).bays = s.bays := rfl
@[simp] theorem State.bump_mkt (s : State) (k : Fin 16) : (s.bump k).mkt = s.mkt := rfl
@[simp] theorem State.bump_thm (s : State) (k : Fin 16) : (s.bump k).thm = s.thm := rfl
@[simp] theorem State.bump_aux (s : State) (k : Fin 16) : (s.bump k).aux = s.aux := rfl
@[simp] theorem State.bump_met (s : State) (k : Fin 16) : (s.bump k).met = s.met := rfl
@[simp] theorem State.bump_saf (s : State) (k : Fin 16) : (s.bump k).saf = s.saf := rfl
@[simp] theorem State.bump_pair (s : State) (k : Fin 16) : (s.bump k).pair = s.pair := rfl
@[simp] theorem State.bump_sbus (s : State) (k : Fin 16) : (s.bump k).sbus = s.sbus := rfl
@[simp] theorem State.bump_vault (s : State) (k : Fin 16) : (s.bump k).vault = s.vault := rfl
@[simp] theorem State.bump_upd (s : State) (k : Fin 16) : (s.bump k).upd = s.upd := rfl
@[simp] theorem State.bump_ldg (s : State) (k : Fin 16) : (s.bump k).ldg = s.ldg := rfl
@[simp] theorem State.bump_mram (s : State) (k : Fin 16) : (s.bump k).mram = s.mram := rfl
@[simp] theorem State.bump_host_answer (s : State) (k : Fin 16) : (s.bump k).host.answer = s.host.answer := rfl
@[simp] theorem State.bump_host_data (s : State) (k : Fin 16) : (s.bump k).host.data = s.host.data := rfl
@[simp] theorem State.bump_host_viol (s : State) (k : Fin 16) : (s.bump k).host.viol = s.host.viol := rfl
@[simp] theorem State.bump_host_violCnt (s : State) (k : Fin 16) : (s.bump k).host.violCnt = s.host.violCnt := rfl
@[simp] theorem State.bump_pitchNs (s : State) (k : Fin 16) : (s.bump k).pitchNs = s.pitchNs := rfl
@[simp] theorem State.bump_cableM (s : State) (k : Fin 16) : (s.bump k).cableM = s.cableM := rfl
@[simp] theorem State.bump_running (s : State) (k : Fin 16) : (s.bump k).running = s.running := rfl
@[simp] theorem State.bump_active (s : State) (k : Fin 16) : (s.bump k).active = s.active := rfl
@[simp] theorem State.bump_live (s : State) (k : Fin 16) : (s.bump k).live = s.live := rfl
@[simp] theorem State.bump_paired (s : State) (k : Fin 16) : (s.bump k).paired = s.paired := rfl
@[simp] theorem State.bump_stallRec (s : State) (k : Fin 16) (y : Fin 64) : (s.bump k).stallRec y = s.stallRec y := rfl
@[simp] theorem State.bump_bayRec (s : State) (k : Fin 16) (y : Fin 12) : (s.bump k).bayRec y = s.bayRec y := rfl
@[simp] theorem State.bump_nextBoundary (s : State) (k : Fin 16) (q : Nat) : (s.bump k).nextBoundary q = s.nextBoundary q := rfl
@[simp] theorem State.bump_boundaryAt (s : State) (k : Fin 16) (q : Nat) : (s.bump k).boundaryAt q = s.boundaryAt q := rfl
@[simp] theorem State.bump_slotOf (s : State) (k : Fin 16) (y : Fin 64) : (s.bump k).slotOf y = s.slotOf y := rfl

/-! ## State.bumpIf -/
@[simp] theorem State.bumpIf_pending (s : State) (c : Bool) (k : Fin 16) : (s.bumpIf c k).pending = s.pending := by unfold State.bumpIf; split <;> rfl
@[simp] theorem State.bumpIf_mt (s : State) (c : Bool) (k : Fin 16) : (s.bumpIf c k).mt = s.mt := by unfold State.bumpIf; split <;> rfl
@[simp] theorem State.bumpIf_draws (s : State) (c : Bool) (k : Fin 16) : (s.bumpIf c k).draws = s.draws := by unfold State.bumpIf; split <;> rfl
@[simp] theorem State.bumpIf_fuses (s : State) (c : Bool) (k : Fin 16) : (s.bumpIf c k).fuses = s.fuses := by unfold State.bumpIf; split <;> rfl
@[simp] theorem State.bumpIf_prof (s : State) (c : Bool) (k : Fin 16) : (s.bumpIf c k).prof = s.prof := by unfold State.bumpIf; split <;> rfl
@[simp] theorem State.bumpIf_lock (s : State) (c : Bool) (k : Fin 16) : (s.bumpIf c k).lock = s.lock := by unfold State.bumpIf; split <;> rfl
@[simp] theorem State.bumpIf_assume (s : State) (c : Bool) (k : Fin 16) : (s.bumpIf c k).assume = s.assume := by unfold State.bumpIf; split <;> rfl
@[simp] theorem State.bumpIf_clk (s : State) (c : Bool) (k : Fin 16) : (s.bumpIf c k).clk = s.clk := by unfold State.bumpIf; split <;> rfl
@[simp] theorem State.bumpIf_pwr (s : State) (c : Bool) (k : Fin 16) : (s.bumpIf c k).pwr = s.pwr := by unfold State.bumpIf; split <;> rfl
@[simp] theorem State.bumpIf_rtc (s : State) (c : Bool) (k : Fin 16) : (s.bumpIf c k).rtc = s.rtc := by unfold State.bumpIf; split <;> rfl
@[simp] theorem State.bumpIf_lat (s : State) (c : Bool) (k : Fin 16) : (s.bumpIf c k).lat = s.lat := by unfold State.bumpIf; split <;> rfl
@[simp] theorem State.bumpIf_stl (s : State) (c : Bool) (k : Fin 16) : (s.bumpIf c k).stl = s.stl := by unfold State.bumpIf; split <;> rfl
@[simp] theorem State.bumpIf_stalls (s : State) (c : Bool) (k : Fin 16) : (s.bumpIf c k).stalls = s.stalls := by unfold State.bumpIf; split <;> rfl
@[simp] theorem State.bumpIf_bays (s : State) (c : Bool) (k : Fin 16) : (s.bumpIf c k).bays = s.bays := by unfold State.bumpIf; split <;> rfl
@[simp] theorem State.bumpIf_mkt (s : State) (c : Bool) (k : Fin 16) : (s.bumpIf c k).mkt = s.mkt := by unfold State.bumpIf; split <;> rfl
@[simp] theorem State.bumpIf_thm (s : State) (c : Bool) (k : Fin 16) : (s.bumpIf c k).thm = s.thm := by unfold State.bumpIf; split <;> rfl
@[simp] theorem State.bumpIf_aux (s : State) (c : Bool) (k : Fin 16) : (s.bumpIf c k).aux = s.aux := by unfold State.bumpIf; split <;> rfl
@[simp] theorem State.bumpIf_met (s : State) (c : Bool) (k : Fin 16) : (s.bumpIf c k).met = s.met := by unfold State.bumpIf; split <;> rfl
@[simp] theorem State.bumpIf_saf (s : State) (c : Bool) (k : Fin 16) : (s.bumpIf c k).saf = s.saf := by unfold State.bumpIf; split <;> rfl
@[simp] theorem State.bumpIf_pair (s : State) (c : Bool) (k : Fin 16) : (s.bumpIf c k).pair = s.pair := by unfold State.bumpIf; split <;> rfl
@[simp] theorem State.bumpIf_sbus (s : State) (c : Bool) (k : Fin 16) : (s.bumpIf c k).sbus = s.sbus := by unfold State.bumpIf; split <;> rfl
@[simp] theorem State.bumpIf_vault (s : State) (c : Bool) (k : Fin 16) : (s.bumpIf c k).vault = s.vault := by unfold State.bumpIf; split <;> rfl
@[simp] theorem State.bumpIf_upd (s : State) (c : Bool) (k : Fin 16) : (s.bumpIf c k).upd = s.upd := by unfold State.bumpIf; split <;> rfl
@[simp] theorem State.bumpIf_ldg (s : State) (c : Bool) (k : Fin 16) : (s.bumpIf c k).ldg = s.ldg := by unfold State.bumpIf; split <;> rfl
@[simp] theorem State.bumpIf_mram (s : State) (c : Bool) (k : Fin 16) : (s.bumpIf c k).mram = s.mram := by unfold State.bumpIf; split <;> rfl
@[simp] theorem State.bumpIf_host_answer (s : State) (c : Bool) (k : Fin 16) : (s.bumpIf c k).host.answer = s.host.answer := by unfold State.bumpIf; split <;> rfl
@[simp] theorem State.bumpIf_host_data (s : State) (c : Bool) (k : Fin 16) : (s.bumpIf c k).host.data = s.host.data := by unfold State.bumpIf; split <;> rfl
@[simp] theorem State.bumpIf_host_viol (s : State) (c : Bool) (k : Fin 16) : (s.bumpIf c k).host.viol = s.host.viol := by unfold State.bumpIf; split <;> rfl
@[simp] theorem State.bumpIf_host_violCnt (s : State) (c : Bool) (k : Fin 16) : (s.bumpIf c k).host.violCnt = s.host.violCnt := by unfold State.bumpIf; split <;> rfl
@[simp] theorem State.bumpIf_pitchNs (s : State) (c : Bool) (k : Fin 16) : (s.bumpIf c k).pitchNs = s.pitchNs := by simp [State.pitchNs]
@[simp] theorem State.bumpIf_cableM (s : State) (c : Bool) (k : Fin 16) : (s.bumpIf c k).cableM = s.cableM := by simp [State.cableM]
@[simp] theorem State.bumpIf_running (s : State) (c : Bool) (k : Fin 16) : (s.bumpIf c k).running = s.running := by simp [State.running]
@[simp] theorem State.bumpIf_active (s : State) (c : Bool) (k : Fin 16) : (s.bumpIf c k).active = s.active := by simp [State.active]
@[simp] theorem State.bumpIf_live (s : State) (c : Bool) (k : Fin 16) : (s.bumpIf c k).live = s.live := by simp [State.live]
@[simp] theorem State.bumpIf_paired (s : State) (c : Bool) (k : Fin 16) : (s.bumpIf c k).paired = s.paired := by simp [State.paired]
@[simp] theorem State.bumpIf_stallRec (s : State) (c : Bool) (k : Fin 16) (y : Fin 64) : (s.bumpIf c k).stallRec y = s.stallRec y := by simp [State.stallRec]
@[simp] theorem State.bumpIf_bayRec (s : State) (c : Bool) (k : Fin 16) (y : Fin 12) : (s.bumpIf c k).bayRec y = s.bayRec y := by simp [State.bayRec]
@[simp] theorem State.bumpIf_nextBoundary (s : State) (c : Bool) (k : Fin 16) (q : Nat) : (s.bumpIf c k).nextBoundary q = s.nextBoundary q := by simp [State.nextBoundary]
@[simp] theorem State.bumpIf_boundaryAt (s : State) (c : Bool) (k : Fin 16) (q : Nat) : (s.bumpIf c k).boundaryAt q = s.boundaryAt q := by simp [State.boundaryAt]
@[simp] theorem State.bumpIf_slotOf (s : State) (c : Bool) (k : Fin 16) (y : Fin 64) : (s.bumpIf c k).slotOf y = s.slotOf y := by simp [State.slotOf]

/-! ## State.queueRec -/
@[simp] theorem State.queueRec_pending (s : State) (p : Fin 3) (code time i a b : Nat) (w : Bytes) : (s.queueRec p code time i a b w).pending = s.pending := rfl
@[simp] theorem State.queueRec_mt (s : State) (p : Fin 3) (code time i a b : Nat) (w : Bytes) : (s.queueRec p code time i a b w).mt = s.mt := rfl
@[simp] theorem State.queueRec_draws (s : State) (p : Fin 3) (code time i a b : Nat) (w : Bytes) : (s.queueRec p code time i a b w).draws = s.draws := rfl
@[simp] theorem State.queueRec_fuses (s : State) (p : Fin 3) (code time i a b : Nat) (w : Bytes) : (s.queueRec p code time i a b w).fuses = s.fuses := rfl
@[simp] theorem State.queueRec_prof (s : State) (p : Fin 3) (code time i a b : Nat) (w : Bytes) : (s.queueRec p code time i a b w).prof = s.prof := rfl
@[simp] theorem State.queueRec_lock (s : State) (p : Fin 3) (code time i a b : Nat) (w : Bytes) : (s.queueRec p code time i a b w).lock = s.lock := rfl
@[simp] theorem State.queueRec_assume (s : State) (p : Fin 3) (code time i a b : Nat) (w : Bytes) : (s.queueRec p code time i a b w).assume = s.assume := rfl
@[simp] theorem State.queueRec_clk (s : State) (p : Fin 3) (code time i a b : Nat) (w : Bytes) : (s.queueRec p code time i a b w).clk = s.clk := rfl
@[simp] theorem State.queueRec_pwr (s : State) (p : Fin 3) (code time i a b : Nat) (w : Bytes) : (s.queueRec p code time i a b w).pwr = s.pwr := rfl
@[simp] theorem State.queueRec_rtc (s : State) (p : Fin 3) (code time i a b : Nat) (w : Bytes) : (s.queueRec p code time i a b w).rtc = s.rtc := rfl
@[simp] theorem State.queueRec_lat (s : State) (p : Fin 3) (code time i a b : Nat) (w : Bytes) : (s.queueRec p code time i a b w).lat = s.lat := rfl
@[simp] theorem State.queueRec_stl (s : State) (p : Fin 3) (code time i a b : Nat) (w : Bytes) : (s.queueRec p code time i a b w).stl = s.stl := rfl
@[simp] theorem State.queueRec_stalls (s : State) (p : Fin 3) (code time i a b : Nat) (w : Bytes) : (s.queueRec p code time i a b w).stalls = s.stalls := rfl
@[simp] theorem State.queueRec_bays (s : State) (p : Fin 3) (code time i a b : Nat) (w : Bytes) : (s.queueRec p code time i a b w).bays = s.bays := rfl
@[simp] theorem State.queueRec_mkt (s : State) (p : Fin 3) (code time i a b : Nat) (w : Bytes) : (s.queueRec p code time i a b w).mkt = s.mkt := rfl
@[simp] theorem State.queueRec_thm (s : State) (p : Fin 3) (code time i a b : Nat) (w : Bytes) : (s.queueRec p code time i a b w).thm = s.thm := rfl
@[simp] theorem State.queueRec_aux (s : State) (p : Fin 3) (code time i a b : Nat) (w : Bytes) : (s.queueRec p code time i a b w).aux = s.aux := rfl
@[simp] theorem State.queueRec_met (s : State) (p : Fin 3) (code time i a b : Nat) (w : Bytes) : (s.queueRec p code time i a b w).met = s.met := rfl
@[simp] theorem State.queueRec_saf (s : State) (p : Fin 3) (code time i a b : Nat) (w : Bytes) : (s.queueRec p code time i a b w).saf = s.saf := rfl
@[simp] theorem State.queueRec_pair (s : State) (p : Fin 3) (code time i a b : Nat) (w : Bytes) : (s.queueRec p code time i a b w).pair = s.pair := rfl
@[simp] theorem State.queueRec_sbus (s : State) (p : Fin 3) (code time i a b : Nat) (w : Bytes) : (s.queueRec p code time i a b w).sbus = s.sbus := rfl
@[simp] theorem State.queueRec_vault (s : State) (p : Fin 3) (code time i a b : Nat) (w : Bytes) : (s.queueRec p code time i a b w).vault = s.vault := rfl
@[simp] theorem State.queueRec_upd (s : State) (p : Fin 3) (code time i a b : Nat) (w : Bytes) : (s.queueRec p code time i a b w).upd = s.upd := rfl
@[simp] theorem State.queueRec_mram (s : State) (p : Fin 3) (code time i a b : Nat) (w : Bytes) : (s.queueRec p code time i a b w).mram = s.mram := rfl
@[simp] theorem State.queueRec_host_answer (s : State) (p : Fin 3) (code time i a b : Nat) (w : Bytes) : (s.queueRec p code time i a b w).host.answer = s.host.answer := rfl
@[simp] theorem State.queueRec_host_data (s : State) (p : Fin 3) (code time i a b : Nat) (w : Bytes) : (s.queueRec p code time i a b w).host.data = s.host.data := rfl
@[simp] theorem State.queueRec_host_viol (s : State) (p : Fin 3) (code time i a b : Nat) (w : Bytes) : (s.queueRec p code time i a b w).host.viol = s.host.viol := rfl
@[simp] theorem State.queueRec_host_violCnt (s : State) (p : Fin 3) (code time i a b : Nat) (w : Bytes) : (s.queueRec p code time i a b w).host.violCnt = s.host.violCnt := rfl
@[simp] theorem State.queueRec_pitchNs (s : State) (p : Fin 3) (code time i a b : Nat) (w : Bytes) : (s.queueRec p code time i a b w).pitchNs = s.pitchNs := rfl
@[simp] theorem State.queueRec_cableM (s : State) (p : Fin 3) (code time i a b : Nat) (w : Bytes) : (s.queueRec p code time i a b w).cableM = s.cableM := rfl
@[simp] theorem State.queueRec_running (s : State) (p : Fin 3) (code time i a b : Nat) (w : Bytes) : (s.queueRec p code time i a b w).running = s.running := rfl
@[simp] theorem State.queueRec_active (s : State) (p : Fin 3) (code time i a b : Nat) (w : Bytes) : (s.queueRec p code time i a b w).active = s.active := rfl
@[simp] theorem State.queueRec_live (s : State) (p : Fin 3) (code time i a b : Nat) (w : Bytes) : (s.queueRec p code time i a b w).live = s.live := rfl
@[simp] theorem State.queueRec_paired (s : State) (p : Fin 3) (code time i a b : Nat) (w : Bytes) : (s.queueRec p code time i a b w).paired = s.paired := rfl
@[simp] theorem State.queueRec_stallRec (s : State) (p : Fin 3) (code time i a b : Nat) (w : Bytes) (y : Fin 64) : (s.queueRec p code time i a b w).stallRec y = s.stallRec y := rfl
@[simp] theorem State.queueRec_bayRec (s : State) (p : Fin 3) (code time i a b : Nat) (w : Bytes) (y : Fin 12) : (s.queueRec p code time i a b w).bayRec y = s.bayRec y := rfl
@[simp] theorem State.queueRec_nextBoundary (s : State) (p : Fin 3) (code time i a b : Nat) (w : Bytes) (q : Nat) : (s.queueRec p code time i a b w).nextBoundary q = s.nextBoundary q := rfl
@[simp] theorem State.queueRec_boundaryAt (s : State) (p : Fin 3) (code time i a b : Nat) (w : Bytes) (q : Nat) : (s.queueRec p code time i a b w).boundaryAt q = s.boundaryAt q := rfl
@[simp] theorem State.queueRec_slotOf (s : State) (p : Fin 3) (code time i a b : Nat) (w : Bytes) (y : Fin 64) : (s.queueRec p code time i a b w).slotOf y = s.slotOf y := rfl

/-! ## State.capFreeze -/
@[simp] theorem State.capFreeze_pending (s : State) (src n : Nat) : (s.capFreeze src n).pending = s.pending := by unfold State.capFreeze; split <;> rfl
@[simp] theorem State.capFreeze_mt (s : State) (src n : Nat) : (s.capFreeze src n).mt = s.mt := by unfold State.capFreeze; split <;> rfl
@[simp] theorem State.capFreeze_draws (s : State) (src n : Nat) : (s.capFreeze src n).draws = s.draws := by unfold State.capFreeze; split <;> rfl
@[simp] theorem State.capFreeze_fuses (s : State) (src n : Nat) : (s.capFreeze src n).fuses = s.fuses := by unfold State.capFreeze; split <;> rfl
@[simp] theorem State.capFreeze_prof (s : State) (src n : Nat) : (s.capFreeze src n).prof = s.prof := by unfold State.capFreeze; split <;> rfl
@[simp] theorem State.capFreeze_lock (s : State) (src n : Nat) : (s.capFreeze src n).lock = s.lock := by unfold State.capFreeze; split <;> rfl
@[simp] theorem State.capFreeze_assume (s : State) (src n : Nat) : (s.capFreeze src n).assume = s.assume := by unfold State.capFreeze; split <;> rfl
@[simp] theorem State.capFreeze_clk (s : State) (src n : Nat) : (s.capFreeze src n).clk = s.clk := by unfold State.capFreeze; split <;> rfl
@[simp] theorem State.capFreeze_pwr (s : State) (src n : Nat) : (s.capFreeze src n).pwr = s.pwr := by unfold State.capFreeze; split <;> rfl
@[simp] theorem State.capFreeze_rtc (s : State) (src n : Nat) : (s.capFreeze src n).rtc = s.rtc := by unfold State.capFreeze; split <;> rfl
@[simp] theorem State.capFreeze_lat (s : State) (src n : Nat) : (s.capFreeze src n).lat = s.lat := by unfold State.capFreeze; split <;> rfl
@[simp] theorem State.capFreeze_stalls (s : State) (src n : Nat) : (s.capFreeze src n).stalls = s.stalls := by unfold State.capFreeze; split <;> rfl
@[simp] theorem State.capFreeze_bays (s : State) (src n : Nat) : (s.capFreeze src n).bays = s.bays := by unfold State.capFreeze; split <;> rfl
@[simp] theorem State.capFreeze_mkt (s : State) (src n : Nat) : (s.capFreeze src n).mkt = s.mkt := by unfold State.capFreeze; split <;> rfl
@[simp] theorem State.capFreeze_thm (s : State) (src n : Nat) : (s.capFreeze src n).thm = s.thm := by unfold State.capFreeze; split <;> rfl
@[simp] theorem State.capFreeze_aux (s : State) (src n : Nat) : (s.capFreeze src n).aux = s.aux := by unfold State.capFreeze; split <;> rfl
@[simp] theorem State.capFreeze_met (s : State) (src n : Nat) : (s.capFreeze src n).met = s.met := by unfold State.capFreeze; split <;> rfl
@[simp] theorem State.capFreeze_saf (s : State) (src n : Nat) : (s.capFreeze src n).saf = s.saf := by unfold State.capFreeze; split <;> rfl
@[simp] theorem State.capFreeze_pair (s : State) (src n : Nat) : (s.capFreeze src n).pair = s.pair := by unfold State.capFreeze; split <;> rfl
@[simp] theorem State.capFreeze_sbus (s : State) (src n : Nat) : (s.capFreeze src n).sbus = s.sbus := by unfold State.capFreeze; split <;> rfl
@[simp] theorem State.capFreeze_vault (s : State) (src n : Nat) : (s.capFreeze src n).vault = s.vault := by unfold State.capFreeze; split <;> rfl
@[simp] theorem State.capFreeze_upd (s : State) (src n : Nat) : (s.capFreeze src n).upd = s.upd := by unfold State.capFreeze; split <;> rfl
@[simp] theorem State.capFreeze_mram (s : State) (src n : Nat) : (s.capFreeze src n).mram = s.mram := by unfold State.capFreeze; split <;> rfl
@[simp] theorem State.capFreeze_host_answer (s : State) (src n : Nat) : (s.capFreeze src n).host.answer = s.host.answer := by unfold State.capFreeze; split <;> rfl
@[simp] theorem State.capFreeze_host_data (s : State) (src n : Nat) : (s.capFreeze src n).host.data = s.host.data := by unfold State.capFreeze; split <;> rfl
@[simp] theorem State.capFreeze_host_viol (s : State) (src n : Nat) : (s.capFreeze src n).host.viol = s.host.viol := by unfold State.capFreeze; split <;> rfl
@[simp] theorem State.capFreeze_host_violCnt (s : State) (src n : Nat) : (s.capFreeze src n).host.violCnt = s.host.violCnt := by unfold State.capFreeze; split <;> rfl
@[simp] theorem State.capFreeze_stl_coastN (s : State) (src n : Nat) : (s.capFreeze src n).stl.coastN = s.stl.coastN := by unfold State.capFreeze; split <;> rfl
@[simp] theorem State.capFreeze_stl_restartWin (s : State) (src n : Nat) : (s.capFreeze src n).stl.restartWin = s.stl.restartWin := by unfold State.capFreeze; split <;> rfl
@[simp] theorem State.capFreeze_stl_restartMax (s : State) (src n : Nat) : (s.capFreeze src n).stl.restartMax = s.stl.restartMax := by unfold State.capFreeze; split <;> rfl
@[simp] theorem State.capFreeze_stl_restMs (s : State) (src n : Nat) : (s.capFreeze src n).stl.restMs = s.stl.restMs := by unfold State.capFreeze; split <;> rfl
@[simp] theorem State.capFreeze_stl_shedRamp (s : State) (src n : Nat) : (s.capFreeze src n).stl.shedRamp = s.stl.shedRamp := by unfold State.capFreeze; split <;> rfl
@[simp] theorem State.capFreeze_stl_reference (s : State) (src n : Nat) : (s.capFreeze src n).stl.reference = s.stl.reference := by unfold State.capFreeze; split <;> rfl
@[simp] theorem State.capFreeze_pitchNs (s : State) (src n : Nat) : (s.capFreeze src n).pitchNs = s.pitchNs := by simp [State.pitchNs]
@[simp] theorem State.capFreeze_cableM (s : State) (src n : Nat) : (s.capFreeze src n).cableM = s.cableM := by simp [State.cableM]
@[simp] theorem State.capFreeze_running (s : State) (src n : Nat) : (s.capFreeze src n).running = s.running := by simp [State.running]
@[simp] theorem State.capFreeze_active (s : State) (src n : Nat) : (s.capFreeze src n).active = s.active := by simp [State.active]
@[simp] theorem State.capFreeze_live (s : State) (src n : Nat) : (s.capFreeze src n).live = s.live := by simp [State.live]
@[simp] theorem State.capFreeze_paired (s : State) (src n : Nat) : (s.capFreeze src n).paired = s.paired := by simp [State.paired]
@[simp] theorem State.capFreeze_stallRec (s : State) (src n : Nat) (y : Fin 64) : (s.capFreeze src n).stallRec y = s.stallRec y := by simp [State.stallRec]
@[simp] theorem State.capFreeze_bayRec (s : State) (src n : Nat) (y : Fin 12) : (s.capFreeze src n).bayRec y = s.bayRec y := by simp [State.bayRec]
@[simp] theorem State.capFreeze_nextBoundary (s : State) (src n : Nat) (q : Nat) : (s.capFreeze src n).nextBoundary q = s.nextBoundary q := by simp [State.nextBoundary]
@[simp] theorem State.capFreeze_boundaryAt (s : State) (src n : Nat) (q : Nat) : (s.capFreeze src n).boundaryAt q = s.boundaryAt q := by simp [State.boundaryAt]
@[simp] theorem State.capFreeze_slotOf (s : State) (src n : Nat) (y : Fin 64) : (s.capFreeze src n).slotOf y = s.slotOf y := by simp [State.slotOf]

/-! ## State.logAt -/
@[simp] theorem State.logAt_pending (s : State) (time code i a b : Nat) (w : Bytes) : (s.logAt time code i a b w).pending = s.pending := by unfold State.logAt; dsimp only; split <;> simp
@[simp] theorem State.logAt_mt (s : State) (time code i a b : Nat) (w : Bytes) : (s.logAt time code i a b w).mt = s.mt := by unfold State.logAt; dsimp only; split <;> simp
@[simp] theorem State.logAt_draws (s : State) (time code i a b : Nat) (w : Bytes) : (s.logAt time code i a b w).draws = s.draws := by unfold State.logAt; dsimp only; split <;> simp
@[simp] theorem State.logAt_fuses (s : State) (time code i a b : Nat) (w : Bytes) : (s.logAt time code i a b w).fuses = s.fuses := by unfold State.logAt; dsimp only; split <;> simp
@[simp] theorem State.logAt_prof (s : State) (time code i a b : Nat) (w : Bytes) : (s.logAt time code i a b w).prof = s.prof := by unfold State.logAt; dsimp only; split <;> simp
@[simp] theorem State.logAt_lock (s : State) (time code i a b : Nat) (w : Bytes) : (s.logAt time code i a b w).lock = s.lock := by unfold State.logAt; dsimp only; split <;> simp
@[simp] theorem State.logAt_assume (s : State) (time code i a b : Nat) (w : Bytes) : (s.logAt time code i a b w).assume = s.assume := by unfold State.logAt; dsimp only; split <;> simp
@[simp] theorem State.logAt_clk (s : State) (time code i a b : Nat) (w : Bytes) : (s.logAt time code i a b w).clk = s.clk := by unfold State.logAt; dsimp only; split <;> simp
@[simp] theorem State.logAt_pwr (s : State) (time code i a b : Nat) (w : Bytes) : (s.logAt time code i a b w).pwr = s.pwr := by unfold State.logAt; dsimp only; split <;> simp
@[simp] theorem State.logAt_rtc (s : State) (time code i a b : Nat) (w : Bytes) : (s.logAt time code i a b w).rtc = s.rtc := by unfold State.logAt; dsimp only; split <;> simp
@[simp] theorem State.logAt_lat (s : State) (time code i a b : Nat) (w : Bytes) : (s.logAt time code i a b w).lat = s.lat := by unfold State.logAt; dsimp only; split <;> simp
@[simp] theorem State.logAt_stalls (s : State) (time code i a b : Nat) (w : Bytes) : (s.logAt time code i a b w).stalls = s.stalls := by unfold State.logAt; dsimp only; split <;> simp
@[simp] theorem State.logAt_bays (s : State) (time code i a b : Nat) (w : Bytes) : (s.logAt time code i a b w).bays = s.bays := by unfold State.logAt; dsimp only; split <;> simp
@[simp] theorem State.logAt_mkt (s : State) (time code i a b : Nat) (w : Bytes) : (s.logAt time code i a b w).mkt = s.mkt := by unfold State.logAt; dsimp only; split <;> simp
@[simp] theorem State.logAt_thm (s : State) (time code i a b : Nat) (w : Bytes) : (s.logAt time code i a b w).thm = s.thm := by unfold State.logAt; dsimp only; split <;> simp
@[simp] theorem State.logAt_aux (s : State) (time code i a b : Nat) (w : Bytes) : (s.logAt time code i a b w).aux = s.aux := by unfold State.logAt; dsimp only; split <;> simp
@[simp] theorem State.logAt_met (s : State) (time code i a b : Nat) (w : Bytes) : (s.logAt time code i a b w).met = s.met := by unfold State.logAt; dsimp only; split <;> simp
@[simp] theorem State.logAt_saf (s : State) (time code i a b : Nat) (w : Bytes) : (s.logAt time code i a b w).saf = s.saf := by unfold State.logAt; dsimp only; split <;> simp
@[simp] theorem State.logAt_pair (s : State) (time code i a b : Nat) (w : Bytes) : (s.logAt time code i a b w).pair = s.pair := by unfold State.logAt; dsimp only; split <;> simp
@[simp] theorem State.logAt_sbus (s : State) (time code i a b : Nat) (w : Bytes) : (s.logAt time code i a b w).sbus = s.sbus := by unfold State.logAt; dsimp only; split <;> simp
@[simp] theorem State.logAt_vault (s : State) (time code i a b : Nat) (w : Bytes) : (s.logAt time code i a b w).vault = s.vault := by unfold State.logAt; dsimp only; split <;> simp
@[simp] theorem State.logAt_upd (s : State) (time code i a b : Nat) (w : Bytes) : (s.logAt time code i a b w).upd = s.upd := by unfold State.logAt; dsimp only; split <;> simp
@[simp] theorem State.logAt_mram (s : State) (time code i a b : Nat) (w : Bytes) : (s.logAt time code i a b w).mram = s.mram := by unfold State.logAt; dsimp only; split <;> simp
@[simp] theorem State.logAt_host_answer (s : State) (time code i a b : Nat) (w : Bytes) : (s.logAt time code i a b w).host.answer = s.host.answer := by unfold State.logAt; dsimp only; split <;> simp
@[simp] theorem State.logAt_host_data (s : State) (time code i a b : Nat) (w : Bytes) : (s.logAt time code i a b w).host.data = s.host.data := by unfold State.logAt; dsimp only; split <;> simp
@[simp] theorem State.logAt_host_viol (s : State) (time code i a b : Nat) (w : Bytes) : (s.logAt time code i a b w).host.viol = s.host.viol := by unfold State.logAt; dsimp only; split <;> simp
@[simp] theorem State.logAt_host_violCnt (s : State) (time code i a b : Nat) (w : Bytes) : (s.logAt time code i a b w).host.violCnt = s.host.violCnt := by unfold State.logAt; dsimp only; split <;> simp
@[simp] theorem State.logAt_stl_coastN (s : State) (time code i a b : Nat) (w : Bytes) : (s.logAt time code i a b w).stl.coastN = s.stl.coastN := by unfold State.logAt; dsimp only; split <;> simp
@[simp] theorem State.logAt_stl_restartWin (s : State) (time code i a b : Nat) (w : Bytes) : (s.logAt time code i a b w).stl.restartWin = s.stl.restartWin := by unfold State.logAt; dsimp only; split <;> simp
@[simp] theorem State.logAt_stl_restartMax (s : State) (time code i a b : Nat) (w : Bytes) : (s.logAt time code i a b w).stl.restartMax = s.stl.restartMax := by unfold State.logAt; dsimp only; split <;> simp
@[simp] theorem State.logAt_stl_restMs (s : State) (time code i a b : Nat) (w : Bytes) : (s.logAt time code i a b w).stl.restMs = s.stl.restMs := by unfold State.logAt; dsimp only; split <;> simp
@[simp] theorem State.logAt_stl_shedRamp (s : State) (time code i a b : Nat) (w : Bytes) : (s.logAt time code i a b w).stl.shedRamp = s.stl.shedRamp := by unfold State.logAt; dsimp only; split <;> simp
@[simp] theorem State.logAt_stl_reference (s : State) (time code i a b : Nat) (w : Bytes) : (s.logAt time code i a b w).stl.reference = s.stl.reference := by unfold State.logAt; dsimp only; split <;> simp
@[simp] theorem State.logAt_pitchNs (s : State) (time code i a b : Nat) (w : Bytes) : (s.logAt time code i a b w).pitchNs = s.pitchNs := by simp [State.pitchNs]
@[simp] theorem State.logAt_cableM (s : State) (time code i a b : Nat) (w : Bytes) : (s.logAt time code i a b w).cableM = s.cableM := by simp [State.cableM]
@[simp] theorem State.logAt_running (s : State) (time code i a b : Nat) (w : Bytes) : (s.logAt time code i a b w).running = s.running := by simp [State.running]
@[simp] theorem State.logAt_active (s : State) (time code i a b : Nat) (w : Bytes) : (s.logAt time code i a b w).active = s.active := by simp [State.active]
@[simp] theorem State.logAt_live (s : State) (time code i a b : Nat) (w : Bytes) : (s.logAt time code i a b w).live = s.live := by simp [State.live]
@[simp] theorem State.logAt_paired (s : State) (time code i a b : Nat) (w : Bytes) : (s.logAt time code i a b w).paired = s.paired := by simp [State.paired]
@[simp] theorem State.logAt_stallRec (s : State) (time code i a b : Nat) (w : Bytes) (y : Fin 64) : (s.logAt time code i a b w).stallRec y = s.stallRec y := by simp [State.stallRec]
@[simp] theorem State.logAt_bayRec (s : State) (time code i a b : Nat) (w : Bytes) (y : Fin 12) : (s.logAt time code i a b w).bayRec y = s.bayRec y := by simp [State.bayRec]
@[simp] theorem State.logAt_nextBoundary (s : State) (time code i a b : Nat) (w : Bytes) (q : Nat) : (s.logAt time code i a b w).nextBoundary q = s.nextBoundary q := by simp [State.nextBoundary]
@[simp] theorem State.logAt_boundaryAt (s : State) (time code i a b : Nat) (w : Bytes) (q : Nat) : (s.logAt time code i a b w).boundaryAt q = s.boundaryAt q := by simp [State.boundaryAt]
@[simp] theorem State.logAt_slotOf (s : State) (time code i a b : Nat) (w : Bytes) (y : Fin 64) : (s.logAt time code i a b w).slotOf y = s.slotOf y := by simp [State.slotOf]

/-! ## State.log -/
@[simp] theorem State.log_pending (s : State) (code i a b : Nat) (w : Bytes) : (s.log code i a b w).pending = s.pending := by unfold State.log; simp
@[simp] theorem State.log_mt (s : State) (code i a b : Nat) (w : Bytes) : (s.log code i a b w).mt = s.mt := by unfold State.log; simp
@[simp] theorem State.log_draws (s : State) (code i a b : Nat) (w : Bytes) : (s.log code i a b w).draws = s.draws := by unfold State.log; simp
@[simp] theorem State.log_fuses (s : State) (code i a b : Nat) (w : Bytes) : (s.log code i a b w).fuses = s.fuses := by unfold State.log; simp
@[simp] theorem State.log_prof (s : State) (code i a b : Nat) (w : Bytes) : (s.log code i a b w).prof = s.prof := by unfold State.log; simp
@[simp] theorem State.log_lock (s : State) (code i a b : Nat) (w : Bytes) : (s.log code i a b w).lock = s.lock := by unfold State.log; simp
@[simp] theorem State.log_assume (s : State) (code i a b : Nat) (w : Bytes) : (s.log code i a b w).assume = s.assume := by unfold State.log; simp
@[simp] theorem State.log_clk (s : State) (code i a b : Nat) (w : Bytes) : (s.log code i a b w).clk = s.clk := by unfold State.log; simp
@[simp] theorem State.log_pwr (s : State) (code i a b : Nat) (w : Bytes) : (s.log code i a b w).pwr = s.pwr := by unfold State.log; simp
@[simp] theorem State.log_rtc (s : State) (code i a b : Nat) (w : Bytes) : (s.log code i a b w).rtc = s.rtc := by unfold State.log; simp
@[simp] theorem State.log_lat (s : State) (code i a b : Nat) (w : Bytes) : (s.log code i a b w).lat = s.lat := by unfold State.log; simp
@[simp] theorem State.log_stalls (s : State) (code i a b : Nat) (w : Bytes) : (s.log code i a b w).stalls = s.stalls := by unfold State.log; simp
@[simp] theorem State.log_bays (s : State) (code i a b : Nat) (w : Bytes) : (s.log code i a b w).bays = s.bays := by unfold State.log; simp
@[simp] theorem State.log_mkt (s : State) (code i a b : Nat) (w : Bytes) : (s.log code i a b w).mkt = s.mkt := by unfold State.log; simp
@[simp] theorem State.log_thm (s : State) (code i a b : Nat) (w : Bytes) : (s.log code i a b w).thm = s.thm := by unfold State.log; simp
@[simp] theorem State.log_aux (s : State) (code i a b : Nat) (w : Bytes) : (s.log code i a b w).aux = s.aux := by unfold State.log; simp
@[simp] theorem State.log_met (s : State) (code i a b : Nat) (w : Bytes) : (s.log code i a b w).met = s.met := by unfold State.log; simp
@[simp] theorem State.log_saf (s : State) (code i a b : Nat) (w : Bytes) : (s.log code i a b w).saf = s.saf := by unfold State.log; simp
@[simp] theorem State.log_pair (s : State) (code i a b : Nat) (w : Bytes) : (s.log code i a b w).pair = s.pair := by unfold State.log; simp
@[simp] theorem State.log_sbus (s : State) (code i a b : Nat) (w : Bytes) : (s.log code i a b w).sbus = s.sbus := by unfold State.log; simp
@[simp] theorem State.log_vault (s : State) (code i a b : Nat) (w : Bytes) : (s.log code i a b w).vault = s.vault := by unfold State.log; simp
@[simp] theorem State.log_upd (s : State) (code i a b : Nat) (w : Bytes) : (s.log code i a b w).upd = s.upd := by unfold State.log; simp
@[simp] theorem State.log_mram (s : State) (code i a b : Nat) (w : Bytes) : (s.log code i a b w).mram = s.mram := by unfold State.log; simp
@[simp] theorem State.log_host_answer (s : State) (code i a b : Nat) (w : Bytes) : (s.log code i a b w).host.answer = s.host.answer := by unfold State.log; simp
@[simp] theorem State.log_host_data (s : State) (code i a b : Nat) (w : Bytes) : (s.log code i a b w).host.data = s.host.data := by unfold State.log; simp
@[simp] theorem State.log_host_viol (s : State) (code i a b : Nat) (w : Bytes) : (s.log code i a b w).host.viol = s.host.viol := by unfold State.log; simp
@[simp] theorem State.log_host_violCnt (s : State) (code i a b : Nat) (w : Bytes) : (s.log code i a b w).host.violCnt = s.host.violCnt := by unfold State.log; simp
@[simp] theorem State.log_stl_coastN (s : State) (code i a b : Nat) (w : Bytes) : (s.log code i a b w).stl.coastN = s.stl.coastN := by unfold State.log; simp
@[simp] theorem State.log_stl_restartWin (s : State) (code i a b : Nat) (w : Bytes) : (s.log code i a b w).stl.restartWin = s.stl.restartWin := by unfold State.log; simp
@[simp] theorem State.log_stl_restartMax (s : State) (code i a b : Nat) (w : Bytes) : (s.log code i a b w).stl.restartMax = s.stl.restartMax := by unfold State.log; simp
@[simp] theorem State.log_stl_restMs (s : State) (code i a b : Nat) (w : Bytes) : (s.log code i a b w).stl.restMs = s.stl.restMs := by unfold State.log; simp
@[simp] theorem State.log_stl_shedRamp (s : State) (code i a b : Nat) (w : Bytes) : (s.log code i a b w).stl.shedRamp = s.stl.shedRamp := by unfold State.log; simp
@[simp] theorem State.log_stl_reference (s : State) (code i a b : Nat) (w : Bytes) : (s.log code i a b w).stl.reference = s.stl.reference := by unfold State.log; simp
@[simp] theorem State.log_pitchNs (s : State) (code i a b : Nat) (w : Bytes) : (s.log code i a b w).pitchNs = s.pitchNs := by simp [State.pitchNs]
@[simp] theorem State.log_cableM (s : State) (code i a b : Nat) (w : Bytes) : (s.log code i a b w).cableM = s.cableM := by simp [State.cableM]
@[simp] theorem State.log_running (s : State) (code i a b : Nat) (w : Bytes) : (s.log code i a b w).running = s.running := by simp [State.running]
@[simp] theorem State.log_active (s : State) (code i a b : Nat) (w : Bytes) : (s.log code i a b w).active = s.active := by simp [State.active]
@[simp] theorem State.log_live (s : State) (code i a b : Nat) (w : Bytes) : (s.log code i a b w).live = s.live := by simp [State.live]
@[simp] theorem State.log_paired (s : State) (code i a b : Nat) (w : Bytes) : (s.log code i a b w).paired = s.paired := by simp [State.paired]
@[simp] theorem State.log_stallRec (s : State) (code i a b : Nat) (w : Bytes) (y : Fin 64) : (s.log code i a b w).stallRec y = s.stallRec y := by simp [State.stallRec]
@[simp] theorem State.log_bayRec (s : State) (code i a b : Nat) (w : Bytes) (y : Fin 12) : (s.log code i a b w).bayRec y = s.bayRec y := by simp [State.bayRec]
@[simp] theorem State.log_nextBoundary (s : State) (code i a b : Nat) (w : Bytes) (q : Nat) : (s.log code i a b w).nextBoundary q = s.nextBoundary q := by simp [State.nextBoundary]
@[simp] theorem State.log_boundaryAt (s : State) (code i a b : Nat) (w : Bytes) (q : Nat) : (s.log code i a b w).boundaryAt q = s.boundaryAt q := by simp [State.boundaryAt]
@[simp] theorem State.log_slotOf (s : State) (code i a b : Nat) (w : Bytes) (y : Fin 64) : (s.log code i a b w).slotOf y = s.slotOf y := by simp [State.slotOf]

/-! ## State.violates -/
@[simp] theorem State.violates_pending (s : State) (m : Master) (w : Bool) (addr : Nat) (a : Answer) : (s.violates m w addr a).pending = s.pending := by unfold State.violates; dsimp only; split <;> simp
@[simp] theorem State.violates_mt (s : State) (m : Master) (w : Bool) (addr : Nat) (a : Answer) : (s.violates m w addr a).mt = s.mt := by unfold State.violates; dsimp only; split <;> simp
@[simp] theorem State.violates_draws (s : State) (m : Master) (w : Bool) (addr : Nat) (a : Answer) : (s.violates m w addr a).draws = s.draws := by unfold State.violates; dsimp only; split <;> simp
@[simp] theorem State.violates_fuses (s : State) (m : Master) (w : Bool) (addr : Nat) (a : Answer) : (s.violates m w addr a).fuses = s.fuses := by unfold State.violates; dsimp only; split <;> simp
@[simp] theorem State.violates_prof (s : State) (m : Master) (w : Bool) (addr : Nat) (a : Answer) : (s.violates m w addr a).prof = s.prof := by unfold State.violates; dsimp only; split <;> simp
@[simp] theorem State.violates_lock (s : State) (m : Master) (w : Bool) (addr : Nat) (a : Answer) : (s.violates m w addr a).lock = s.lock := by unfold State.violates; dsimp only; split <;> simp
@[simp] theorem State.violates_assume (s : State) (m : Master) (w : Bool) (addr : Nat) (a : Answer) : (s.violates m w addr a).assume = s.assume := by unfold State.violates; dsimp only; split <;> simp
@[simp] theorem State.violates_clk (s : State) (m : Master) (w : Bool) (addr : Nat) (a : Answer) : (s.violates m w addr a).clk = s.clk := by unfold State.violates; dsimp only; split <;> simp
@[simp] theorem State.violates_pwr (s : State) (m : Master) (w : Bool) (addr : Nat) (a : Answer) : (s.violates m w addr a).pwr = s.pwr := by unfold State.violates; dsimp only; split <;> simp
@[simp] theorem State.violates_rtc (s : State) (m : Master) (w : Bool) (addr : Nat) (a : Answer) : (s.violates m w addr a).rtc = s.rtc := by unfold State.violates; dsimp only; split <;> simp
@[simp] theorem State.violates_lat (s : State) (m : Master) (w : Bool) (addr : Nat) (a : Answer) : (s.violates m w addr a).lat = s.lat := by unfold State.violates; dsimp only; split <;> simp
@[simp] theorem State.violates_stalls (s : State) (m : Master) (w : Bool) (addr : Nat) (a : Answer) : (s.violates m w addr a).stalls = s.stalls := by unfold State.violates; dsimp only; split <;> simp
@[simp] theorem State.violates_bays (s : State) (m : Master) (w : Bool) (addr : Nat) (a : Answer) : (s.violates m w addr a).bays = s.bays := by unfold State.violates; dsimp only; split <;> simp
@[simp] theorem State.violates_mkt (s : State) (m : Master) (w : Bool) (addr : Nat) (a : Answer) : (s.violates m w addr a).mkt = s.mkt := by unfold State.violates; dsimp only; split <;> simp
@[simp] theorem State.violates_thm (s : State) (m : Master) (w : Bool) (addr : Nat) (a : Answer) : (s.violates m w addr a).thm = s.thm := by unfold State.violates; dsimp only; split <;> simp
@[simp] theorem State.violates_aux (s : State) (m : Master) (w : Bool) (addr : Nat) (a : Answer) : (s.violates m w addr a).aux = s.aux := by unfold State.violates; dsimp only; split <;> simp
@[simp] theorem State.violates_met (s : State) (m : Master) (w : Bool) (addr : Nat) (a : Answer) : (s.violates m w addr a).met = s.met := by unfold State.violates; dsimp only; split <;> simp
@[simp] theorem State.violates_saf (s : State) (m : Master) (w : Bool) (addr : Nat) (a : Answer) : (s.violates m w addr a).saf = s.saf := by unfold State.violates; dsimp only; split <;> simp
@[simp] theorem State.violates_pair (s : State) (m : Master) (w : Bool) (addr : Nat) (a : Answer) : (s.violates m w addr a).pair = s.pair := by unfold State.violates; dsimp only; split <;> simp
@[simp] theorem State.violates_sbus (s : State) (m : Master) (w : Bool) (addr : Nat) (a : Answer) : (s.violates m w addr a).sbus = s.sbus := by unfold State.violates; dsimp only; split <;> simp
@[simp] theorem State.violates_vault (s : State) (m : Master) (w : Bool) (addr : Nat) (a : Answer) : (s.violates m w addr a).vault = s.vault := by unfold State.violates; dsimp only; split <;> simp
@[simp] theorem State.violates_upd (s : State) (m : Master) (w : Bool) (addr : Nat) (a : Answer) : (s.violates m w addr a).upd = s.upd := by unfold State.violates; dsimp only; split <;> simp
@[simp] theorem State.violates_mram (s : State) (m : Master) (w : Bool) (addr : Nat) (a : Answer) : (s.violates m w addr a).mram = s.mram := by unfold State.violates; dsimp only; split <;> simp
@[simp] theorem State.violates_host_data (s : State) (m : Master) (w : Bool) (addr : Nat) (a : Answer) : (s.violates m w addr a).host.data = s.host.data := by unfold State.violates; dsimp only; split <;> simp
@[simp] theorem State.violates_stl_coastN (s : State) (m : Master) (w : Bool) (addr : Nat) (a : Answer) : (s.violates m w addr a).stl.coastN = s.stl.coastN := by unfold State.violates; dsimp only; split <;> simp
@[simp] theorem State.violates_stl_restartWin (s : State) (m : Master) (w : Bool) (addr : Nat) (a : Answer) : (s.violates m w addr a).stl.restartWin = s.stl.restartWin := by unfold State.violates; dsimp only; split <;> simp
@[simp] theorem State.violates_stl_restartMax (s : State) (m : Master) (w : Bool) (addr : Nat) (a : Answer) : (s.violates m w addr a).stl.restartMax = s.stl.restartMax := by unfold State.violates; dsimp only; split <;> simp
@[simp] theorem State.violates_stl_restMs (s : State) (m : Master) (w : Bool) (addr : Nat) (a : Answer) : (s.violates m w addr a).stl.restMs = s.stl.restMs := by unfold State.violates; dsimp only; split <;> simp
@[simp] theorem State.violates_stl_shedRamp (s : State) (m : Master) (w : Bool) (addr : Nat) (a : Answer) : (s.violates m w addr a).stl.shedRamp = s.stl.shedRamp := by unfold State.violates; dsimp only; split <;> simp
@[simp] theorem State.violates_stl_reference (s : State) (m : Master) (w : Bool) (addr : Nat) (a : Answer) : (s.violates m w addr a).stl.reference = s.stl.reference := by unfold State.violates; dsimp only; split <;> simp
@[simp] theorem State.violates_pitchNs (s : State) (m : Master) (w : Bool) (addr : Nat) (a : Answer) : (s.violates m w addr a).pitchNs = s.pitchNs := by simp [State.pitchNs]
@[simp] theorem State.violates_cableM (s : State) (m : Master) (w : Bool) (addr : Nat) (a : Answer) : (s.violates m w addr a).cableM = s.cableM := by simp [State.cableM]
@[simp] theorem State.violates_running (s : State) (m : Master) (w : Bool) (addr : Nat) (a : Answer) : (s.violates m w addr a).running = s.running := by simp [State.running]
@[simp] theorem State.violates_active (s : State) (m : Master) (w : Bool) (addr : Nat) (a : Answer) : (s.violates m w addr a).active = s.active := by simp [State.active]
@[simp] theorem State.violates_live (s : State) (m : Master) (w : Bool) (addr : Nat) (a : Answer) : (s.violates m w addr a).live = s.live := by simp [State.live]
@[simp] theorem State.violates_paired (s : State) (m : Master) (w : Bool) (addr : Nat) (a : Answer) : (s.violates m w addr a).paired = s.paired := by simp [State.paired]
@[simp] theorem State.violates_stallRec (s : State) (m : Master) (w : Bool) (addr : Nat) (a : Answer) (y : Fin 64) : (s.violates m w addr a).stallRec y = s.stallRec y := by simp [State.stallRec]
@[simp] theorem State.violates_bayRec (s : State) (m : Master) (w : Bool) (addr : Nat) (a : Answer) (y : Fin 12) : (s.violates m w addr a).bayRec y = s.bayRec y := by simp [State.bayRec]
@[simp] theorem State.violates_nextBoundary (s : State) (m : Master) (w : Bool) (addr : Nat) (a : Answer) (q : Nat) : (s.violates m w addr a).nextBoundary q = s.nextBoundary q := by simp [State.nextBoundary]
@[simp] theorem State.violates_boundaryAt (s : State) (m : Master) (w : Bool) (addr : Nat) (a : Answer) (q : Nat) : (s.violates m w addr a).boundaryAt q = s.boundaryAt q := by simp [State.boundaryAt]
@[simp] theorem State.violates_slotOf (s : State) (m : Master) (w : Bool) (addr : Nat) (a : Answer) (y : Fin 64) : (s.violates m w addr a).slotOf y = s.slotOf y := by simp [State.slotOf]

/-! ## State.answered -/
@[simp] theorem State.answered_pending (s : State) (m : Master) (w : Bool) (addr : Nat) (a : Answer) : (s.answered m w addr a).pending = s.pending := by unfold State.answered; dsimp only; split <;> simp
@[simp] theorem State.answered_mt (s : State) (m : Master) (w : Bool) (addr : Nat) (a : Answer) : (s.answered m w addr a).mt = s.mt := by unfold State.answered; dsimp only; split <;> simp
@[simp] theorem State.answered_draws (s : State) (m : Master) (w : Bool) (addr : Nat) (a : Answer) : (s.answered m w addr a).draws = s.draws := by unfold State.answered; dsimp only; split <;> simp
@[simp] theorem State.answered_fuses (s : State) (m : Master) (w : Bool) (addr : Nat) (a : Answer) : (s.answered m w addr a).fuses = s.fuses := by unfold State.answered; dsimp only; split <;> simp
@[simp] theorem State.answered_prof (s : State) (m : Master) (w : Bool) (addr : Nat) (a : Answer) : (s.answered m w addr a).prof = s.prof := by unfold State.answered; dsimp only; split <;> simp
@[simp] theorem State.answered_lock (s : State) (m : Master) (w : Bool) (addr : Nat) (a : Answer) : (s.answered m w addr a).lock = s.lock := by unfold State.answered; dsimp only; split <;> simp
@[simp] theorem State.answered_assume (s : State) (m : Master) (w : Bool) (addr : Nat) (a : Answer) : (s.answered m w addr a).assume = s.assume := by unfold State.answered; dsimp only; split <;> simp
@[simp] theorem State.answered_clk (s : State) (m : Master) (w : Bool) (addr : Nat) (a : Answer) : (s.answered m w addr a).clk = s.clk := by unfold State.answered; dsimp only; split <;> simp
@[simp] theorem State.answered_pwr (s : State) (m : Master) (w : Bool) (addr : Nat) (a : Answer) : (s.answered m w addr a).pwr = s.pwr := by unfold State.answered; dsimp only; split <;> simp
@[simp] theorem State.answered_rtc (s : State) (m : Master) (w : Bool) (addr : Nat) (a : Answer) : (s.answered m w addr a).rtc = s.rtc := by unfold State.answered; dsimp only; split <;> simp
@[simp] theorem State.answered_lat (s : State) (m : Master) (w : Bool) (addr : Nat) (a : Answer) : (s.answered m w addr a).lat = s.lat := by unfold State.answered; dsimp only; split <;> simp
@[simp] theorem State.answered_stalls (s : State) (m : Master) (w : Bool) (addr : Nat) (a : Answer) : (s.answered m w addr a).stalls = s.stalls := by unfold State.answered; dsimp only; split <;> simp
@[simp] theorem State.answered_bays (s : State) (m : Master) (w : Bool) (addr : Nat) (a : Answer) : (s.answered m w addr a).bays = s.bays := by unfold State.answered; dsimp only; split <;> simp
@[simp] theorem State.answered_mkt (s : State) (m : Master) (w : Bool) (addr : Nat) (a : Answer) : (s.answered m w addr a).mkt = s.mkt := by unfold State.answered; dsimp only; split <;> simp
@[simp] theorem State.answered_thm (s : State) (m : Master) (w : Bool) (addr : Nat) (a : Answer) : (s.answered m w addr a).thm = s.thm := by unfold State.answered; dsimp only; split <;> simp
@[simp] theorem State.answered_aux (s : State) (m : Master) (w : Bool) (addr : Nat) (a : Answer) : (s.answered m w addr a).aux = s.aux := by unfold State.answered; dsimp only; split <;> simp
@[simp] theorem State.answered_met (s : State) (m : Master) (w : Bool) (addr : Nat) (a : Answer) : (s.answered m w addr a).met = s.met := by unfold State.answered; dsimp only; split <;> simp
@[simp] theorem State.answered_saf (s : State) (m : Master) (w : Bool) (addr : Nat) (a : Answer) : (s.answered m w addr a).saf = s.saf := by unfold State.answered; dsimp only; split <;> simp
@[simp] theorem State.answered_pair (s : State) (m : Master) (w : Bool) (addr : Nat) (a : Answer) : (s.answered m w addr a).pair = s.pair := by unfold State.answered; dsimp only; split <;> simp
@[simp] theorem State.answered_sbus (s : State) (m : Master) (w : Bool) (addr : Nat) (a : Answer) : (s.answered m w addr a).sbus = s.sbus := by unfold State.answered; dsimp only; split <;> simp
@[simp] theorem State.answered_vault (s : State) (m : Master) (w : Bool) (addr : Nat) (a : Answer) : (s.answered m w addr a).vault = s.vault := by unfold State.answered; dsimp only; split <;> simp
@[simp] theorem State.answered_upd (s : State) (m : Master) (w : Bool) (addr : Nat) (a : Answer) : (s.answered m w addr a).upd = s.upd := by unfold State.answered; dsimp only; split <;> simp
@[simp] theorem State.answered_mram (s : State) (m : Master) (w : Bool) (addr : Nat) (a : Answer) : (s.answered m w addr a).mram = s.mram := by unfold State.answered; dsimp only; split <;> simp
@[simp] theorem State.answered_host_data (s : State) (m : Master) (w : Bool) (addr : Nat) (a : Answer) : (s.answered m w addr a).host.data = s.host.data := by unfold State.answered; dsimp only; split <;> simp
@[simp] theorem State.answered_stl_coastN (s : State) (m : Master) (w : Bool) (addr : Nat) (a : Answer) : (s.answered m w addr a).stl.coastN = s.stl.coastN := by unfold State.answered; dsimp only; split <;> simp
@[simp] theorem State.answered_stl_restartWin (s : State) (m : Master) (w : Bool) (addr : Nat) (a : Answer) : (s.answered m w addr a).stl.restartWin = s.stl.restartWin := by unfold State.answered; dsimp only; split <;> simp
@[simp] theorem State.answered_stl_restartMax (s : State) (m : Master) (w : Bool) (addr : Nat) (a : Answer) : (s.answered m w addr a).stl.restartMax = s.stl.restartMax := by unfold State.answered; dsimp only; split <;> simp
@[simp] theorem State.answered_stl_restMs (s : State) (m : Master) (w : Bool) (addr : Nat) (a : Answer) : (s.answered m w addr a).stl.restMs = s.stl.restMs := by unfold State.answered; dsimp only; split <;> simp
@[simp] theorem State.answered_stl_shedRamp (s : State) (m : Master) (w : Bool) (addr : Nat) (a : Answer) : (s.answered m w addr a).stl.shedRamp = s.stl.shedRamp := by unfold State.answered; dsimp only; split <;> simp
@[simp] theorem State.answered_stl_reference (s : State) (m : Master) (w : Bool) (addr : Nat) (a : Answer) : (s.answered m w addr a).stl.reference = s.stl.reference := by unfold State.answered; dsimp only; split <;> simp
@[simp] theorem State.answered_pitchNs (s : State) (m : Master) (w : Bool) (addr : Nat) (a : Answer) : (s.answered m w addr a).pitchNs = s.pitchNs := by simp [State.pitchNs]
@[simp] theorem State.answered_cableM (s : State) (m : Master) (w : Bool) (addr : Nat) (a : Answer) : (s.answered m w addr a).cableM = s.cableM := by simp [State.cableM]
@[simp] theorem State.answered_running (s : State) (m : Master) (w : Bool) (addr : Nat) (a : Answer) : (s.answered m w addr a).running = s.running := by simp [State.running]
@[simp] theorem State.answered_active (s : State) (m : Master) (w : Bool) (addr : Nat) (a : Answer) : (s.answered m w addr a).active = s.active := by simp [State.active]
@[simp] theorem State.answered_live (s : State) (m : Master) (w : Bool) (addr : Nat) (a : Answer) : (s.answered m w addr a).live = s.live := by simp [State.live]
@[simp] theorem State.answered_paired (s : State) (m : Master) (w : Bool) (addr : Nat) (a : Answer) : (s.answered m w addr a).paired = s.paired := by simp [State.paired]
@[simp] theorem State.answered_stallRec (s : State) (m : Master) (w : Bool) (addr : Nat) (a : Answer) (y : Fin 64) : (s.answered m w addr a).stallRec y = s.stallRec y := by simp [State.stallRec]
@[simp] theorem State.answered_bayRec (s : State) (m : Master) (w : Bool) (addr : Nat) (a : Answer) (y : Fin 12) : (s.answered m w addr a).bayRec y = s.bayRec y := by simp [State.bayRec]
@[simp] theorem State.answered_nextBoundary (s : State) (m : Master) (w : Bool) (addr : Nat) (a : Answer) (q : Nat) : (s.answered m w addr a).nextBoundary q = s.nextBoundary q := by simp [State.nextBoundary]
@[simp] theorem State.answered_boundaryAt (s : State) (m : Master) (w : Bool) (addr : Nat) (a : Answer) (q : Nat) : (s.answered m w addr a).boundaryAt q = s.boundaryAt q := by simp [State.boundaryAt]
@[simp] theorem State.answered_slotOf (s : State) (m : Master) (w : Bool) (addr : Nat) (a : Answer) (y : Fin 64) : (s.answered m w addr a).slotOf y = s.slotOf y := by simp [State.slotOf]

/-! ## State.refreshAssume -/
@[simp] theorem State.refreshAssume_pending (s : State) : (s.refreshAssume).pending = s.pending := by unfold State.refreshAssume; simp
@[simp] theorem State.refreshAssume_mt (s : State) : (s.refreshAssume).mt = s.mt := by unfold State.refreshAssume; simp
@[simp] theorem State.refreshAssume_draws (s : State) : (s.refreshAssume).draws = s.draws := by unfold State.refreshAssume; simp
@[simp] theorem State.refreshAssume_fuses (s : State) : (s.refreshAssume).fuses = s.fuses := by unfold State.refreshAssume; simp
@[simp] theorem State.refreshAssume_prof (s : State) : (s.refreshAssume).prof = s.prof := by unfold State.refreshAssume; simp
@[simp] theorem State.refreshAssume_lock (s : State) : (s.refreshAssume).lock = s.lock := by unfold State.refreshAssume; simp
@[simp] theorem State.refreshAssume_clk (s : State) : (s.refreshAssume).clk = s.clk := by unfold State.refreshAssume; simp
@[simp] theorem State.refreshAssume_pwr (s : State) : (s.refreshAssume).pwr = s.pwr := by unfold State.refreshAssume; simp
@[simp] theorem State.refreshAssume_rtc (s : State) : (s.refreshAssume).rtc = s.rtc := by unfold State.refreshAssume; simp
@[simp] theorem State.refreshAssume_lat (s : State) : (s.refreshAssume).lat = s.lat := by unfold State.refreshAssume; simp
@[simp] theorem State.refreshAssume_stl (s : State) : (s.refreshAssume).stl = s.stl := by unfold State.refreshAssume; simp
@[simp] theorem State.refreshAssume_stalls (s : State) : (s.refreshAssume).stalls = s.stalls := by unfold State.refreshAssume; simp
@[simp] theorem State.refreshAssume_bays (s : State) : (s.refreshAssume).bays = s.bays := by unfold State.refreshAssume; simp
@[simp] theorem State.refreshAssume_mkt (s : State) : (s.refreshAssume).mkt = s.mkt := by unfold State.refreshAssume; simp
@[simp] theorem State.refreshAssume_thm (s : State) : (s.refreshAssume).thm = s.thm := by unfold State.refreshAssume; simp
@[simp] theorem State.refreshAssume_aux (s : State) : (s.refreshAssume).aux = s.aux := by unfold State.refreshAssume; simp
@[simp] theorem State.refreshAssume_met (s : State) : (s.refreshAssume).met = s.met := by unfold State.refreshAssume; simp
@[simp] theorem State.refreshAssume_saf (s : State) : (s.refreshAssume).saf = s.saf := by unfold State.refreshAssume; simp
@[simp] theorem State.refreshAssume_pair (s : State) : (s.refreshAssume).pair = s.pair := by unfold State.refreshAssume; simp
@[simp] theorem State.refreshAssume_sbus (s : State) : (s.refreshAssume).sbus = s.sbus := by unfold State.refreshAssume; simp
@[simp] theorem State.refreshAssume_vault (s : State) : (s.refreshAssume).vault = s.vault := by unfold State.refreshAssume; simp
@[simp] theorem State.refreshAssume_upd (s : State) : (s.refreshAssume).upd = s.upd := by unfold State.refreshAssume; simp
@[simp] theorem State.refreshAssume_ldg (s : State) : (s.refreshAssume).ldg = s.ldg := by unfold State.refreshAssume; simp
@[simp] theorem State.refreshAssume_mram (s : State) : (s.refreshAssume).mram = s.mram := by unfold State.refreshAssume; simp
@[simp] theorem State.refreshAssume_host_answer (s : State) : (s.refreshAssume).host.answer = s.host.answer := by unfold State.refreshAssume; simp
@[simp] theorem State.refreshAssume_host_data (s : State) : (s.refreshAssume).host.data = s.host.data := by unfold State.refreshAssume; simp
@[simp] theorem State.refreshAssume_host_viol (s : State) : (s.refreshAssume).host.viol = s.host.viol := by unfold State.refreshAssume; simp
@[simp] theorem State.refreshAssume_host_violCnt (s : State) : (s.refreshAssume).host.violCnt = s.host.violCnt := by unfold State.refreshAssume; simp
@[simp] theorem State.refreshAssume_pitchNs (s : State) : (s.refreshAssume).pitchNs = s.pitchNs := by simp [State.pitchNs]
@[simp] theorem State.refreshAssume_cableM (s : State) : (s.refreshAssume).cableM = s.cableM := by simp [State.cableM]
@[simp] theorem State.refreshAssume_running (s : State) : (s.refreshAssume).running = s.running := by simp [State.running]
@[simp] theorem State.refreshAssume_active (s : State) : (s.refreshAssume).active = s.active := by simp [State.active]
@[simp] theorem State.refreshAssume_live (s : State) : (s.refreshAssume).live = s.live := by simp [State.live]
@[simp] theorem State.refreshAssume_paired (s : State) : (s.refreshAssume).paired = s.paired := by simp [State.paired]
@[simp] theorem State.refreshAssume_stallRec (s : State) (y : Fin 64) : (s.refreshAssume).stallRec y = s.stallRec y := by simp [State.stallRec]
@[simp] theorem State.refreshAssume_bayRec (s : State) (y : Fin 12) : (s.refreshAssume).bayRec y = s.bayRec y := by simp [State.bayRec]
@[simp] theorem State.refreshAssume_nextBoundary (s : State) (q : Nat) : (s.refreshAssume).nextBoundary q = s.nextBoundary q := by simp [State.nextBoundary]
@[simp] theorem State.refreshAssume_boundaryAt (s : State) (q : Nat) : (s.refreshAssume).boundaryAt q = s.boundaryAt q := by simp [State.boundaryAt]
@[simp] theorem State.refreshAssume_slotOf (s : State) (y : Fin 64) : (s.refreshAssume).slotOf y = s.slotOf y := by simp [State.slotOf]

/-! ## Fields of what is left of a block -/
@[simp] theorem HostBlock.rest_udpRequests (x : HostBlock) : x.rest.udpRequests = x.udpRequests := rfl
@[simp] theorem HostBlock.rest_udpForeign (x : HostBlock) : x.rest.udpForeign = x.udpForeign := rfl
@[simp] theorem HostBlock.rest_udpDuplicate (x : HostBlock) : x.rest.udpDuplicate = x.udpDuplicate := rfl
@[simp] theorem HostBlock.rest_spiRequests (x : HostBlock) : x.rest.spiRequests = x.spiRequests := rfl
@[simp] theorem HostBlock.rest_spiDropped (x : HostBlock) : x.rest.spiDropped = x.spiDropped := rfl
@[simp] theorem HostBlock.rest_spiBadCrc (x : HostBlock) : x.rest.spiBadCrc = x.spiBadCrc := rfl
@[simp] theorem HostBlock.rest_netIp (x : HostBlock) : x.rest.netIp = x.netIp := rfl
@[simp] theorem HostBlock.rest_netMask (x : HostBlock) : x.rest.netMask = x.netMask := rfl
@[simp] theorem HostBlock.rest_netGw (x : HostBlock) : x.rest.netGw = x.netGw := rfl
@[simp] theorem HostBlock.rest_allow (x : HostBlock) : x.rest.allow = x.allow := rfl
@[simp] theorem HostBlock.rest_stagedIp (x : HostBlock) : x.rest.stagedIp = x.stagedIp := rfl
@[simp] theorem HostBlock.rest_stagedMask (x : HostBlock) : x.rest.stagedMask = x.stagedMask := rfl
@[simp] theorem HostBlock.rest_stagedGw (x : HostBlock) : x.rest.stagedGw = x.stagedGw := rfl
@[simp] theorem HostBlock.rest_stagedAllow (x : HostBlock) : x.rest.stagedAllow = x.stagedAllow := rfl
@[simp] theorem HostBlock.rest_udpQueue (x : HostBlock) : x.rest.udpQueue = x.udpQueue := rfl
@[simp] theorem HostBlock.rest_spiQueue (x : HostBlock) : x.rest.spiQueue = x.spiQueue := rfl
@[simp] theorem HostBlock.rest_spiDrop (x : HostBlock) : x.rest.spiDrop = x.spiDrop := rfl
@[simp] theorem HostBlock.rest_spiReply (x : HostBlock) : x.rest.spiReply = x.spiReply := rfl
@[simp] theorem HostBlock.rest_spiErr (x : HostBlock) : x.rest.spiErr = x.spiErr := rfl
@[simp] theorem HostBlock.rest_spiOut (x : HostBlock) : x.rest.spiOut = x.spiOut := rfl
@[simp] theorem HostBlock.rest_kept (x : HostBlock) : x.rest.kept = x.kept := rfl
@[simp] theorem HostBlock.rest_latchUdp (x : HostBlock) : x.rest.latchUdp = x.latchUdp := rfl
@[simp] theorem HostBlock.rest_latchSpi (x : HostBlock) : x.rest.latchSpi = x.latchSpi := rfl
@[simp] theorem HostBlock.rest_latchDbg (x : HostBlock) : x.rest.latchDbg = x.latchDbg := rfl
@[simp] theorem HostBlock.rest_netOut (x : HostBlock) : x.rest.netOut = x.netOut := rfl
@[simp] theorem HostBlock.rest_transactions (x : HostBlock) : x.rest.transactions = x.transactions := rfl
@[simp] theorem HostBlock.rest_wordCount (x : HostBlock) : x.rest.wordCount = x.wordCount := rfl
@[simp] theorem StlCommon.rest_cap (x : StlCommon) : x.rest.cap = x.cap := rfl
@[simp] theorem StlCommon.rest_coastN (x : StlCommon) : x.rest.coastN = x.coastN := rfl
@[simp] theorem StlCommon.rest_freezeN (x : StlCommon) : x.rest.freezeN = x.freezeN := rfl
@[simp] theorem StlCommon.rest_vTh (x : StlCommon) : x.rest.vTh = x.vTh := rfl
@[simp] theorem StlCommon.rest_iTh (x : StlCommon) : x.rest.iTh = x.iTh := rfl
@[simp] theorem StlCommon.rest_shedRamp (x : StlCommon) : x.rest.shedRamp = x.shedRamp := rfl
@[simp] theorem StlCommon.rest_shedHold (x : StlCommon) : x.rest.shedHold = x.shedHold := rfl
@[simp] theorem StlCommon.rest_shedHi (x : StlCommon) : x.rest.shedHi = x.shedHi := rfl
@[simp] theorem StlCommon.rest_shedLo (x : StlCommon) : x.rest.shedLo = x.shedLo := rfl
@[simp] theorem StlCommon.rest_shedEn (x : StlCommon) : x.rest.shedEn = x.shedEn := rfl
@[simp] theorem StlCommon.rest_restartWin (x : StlCommon) : x.rest.restartWin = x.restartWin := rfl
@[simp] theorem StlCommon.rest_restartMax (x : StlCommon) : x.rest.restartMax = x.restartMax := rfl
@[simp] theorem StlCommon.rest_restMs (x : StlCommon) : x.rest.restMs = x.restMs := rfl
@[simp] theorem StlCommon.rest_coolS (x : StlCommon) : x.rest.coolS = x.coolS := rfl
@[simp] theorem StlCommon.rest_hyst (x : StlCommon) : x.rest.hyst = x.hyst := rfl
@[simp] theorem StlCommon.rest_trip (x : StlCommon) : x.rest.trip = x.trip := rfl
@[simp] theorem StlCommon.rest_lsSticky (x : StlCommon) : x.rest.lsSticky = x.lsSticky := rfl
@[simp] theorem StlCommon.rest_lsLatest (x : StlCommon) : x.rest.lsLatest = x.lsLatest := rfl
@[simp] theorem StlCommon.rest_reference (x : StlCommon) : x.rest.reference = x.reference := rfl
@[simp] theorem StlCommon.rest_refAt (x : StlCommon) : x.rest.refAt = x.refAt := rfl
@[simp] theorem StlCommon.rest_refStall (x : StlCommon) : x.rest.refStall = x.refStall := rfl
@[simp] theorem StlCommon.rest_bayStops (x : StlCommon) : x.rest.bayStops = x.bayStops := rfl
@[simp] theorem Pair.rest_mode (x : Pair) : x.rest.mode = x.mode := rfl
@[simp] theorem Pair.rest_hbCh (x : Pair) : x.rest.hbCh = x.hbCh := rfl
@[simp] theorem Pair.rest_hbId (x : Pair) : x.rest.hbId = x.hbId := rfl
@[simp] theorem Pair.rest_resyncS (x : Pair) : x.rest.resyncS = x.resyncS := rfl
@[simp] theorem Pair.rest_holdoffS (x : Pair) : x.rest.holdoffS = x.holdoffS := rfl
@[simp] theorem Pair.rest_roleAt (x : Pair) : x.rest.roleAt = x.roleAt := rfl
@[simp] theorem Pair.rest_holdoffDue (x : Pair) : x.rest.holdoffDue = x.holdoffDue := rfl
@[simp] theorem Pair.rest_side (x : Pair) : x.rest.side = x.side := rfl
@[simp] theorem Pair.rest_activeI (x : Pair) : x.rest.activeI = x.activeI := rfl
@[simp] theorem Pair.rest_releasedAt (x : Pair) : x.rest.releasedAt = x.releasedAt := rfl
@[simp] theorem Pair.rest_releasedDue (x : Pair) : x.rest.releasedDue = x.releasedDue := rfl
@[simp] theorem Pair.rest_epoch (x : Pair) : x.rest.epoch = x.epoch := rfl
@[simp] theorem Pair.rest_epochRaised (x : Pair) : x.rest.epochRaised = x.epochRaised := rfl
@[simp] theorem Pair.rest_unfitCode (x : Pair) : x.rest.unfitCode = x.unfitCode := rfl
@[simp] theorem Pair.rest_degraded (x : Pair) : x.rest.degraded = x.degraded := rfl
@[simp] theorem Pair.rest_own (x : Pair) : x.rest.own = x.own := rfl
@[simp] theorem Pair.rest_partner (x : Pair) : x.rest.partner = x.partner := rfl
@[simp] theorem Pair.rest_seljo (x : Pair) : x.rest.seljo = x.seljo := rfl
@[simp] theorem Pair.rest_faultStamps (x : Pair) : x.rest.faultStamps = x.faultStamps := rfl
@[simp] theorem Pair.rest_hold11 (x : Pair) : x.rest.hold11 = x.hold11 := rfl
@[simp] theorem Pair.rest_passDue (x : Pair) : x.rest.passDue = x.passDue := rfl
@[simp] theorem Pair.rest_disagree (x : Pair) : x.rest.disagree = x.disagree := rfl
@[simp] theorem Pair.rest_interlockBad (x : Pair) : x.rest.interlockBad = x.interlockBad := rfl
@[simp] theorem Pair.rest_takeovers (x : Pair) : x.rest.takeovers = x.takeovers := rfl
@[simp] theorem Pair.rest_handovers (x : Pair) : x.rest.handovers = x.handovers := rfl
@[simp] theorem Pair.rest_releases (x : Pair) : x.rest.releases = x.releases := rfl
@[simp] theorem Pair.rest_divergeCnt (x : Pair) : x.rest.divergeCnt = x.divergeCnt := rfl
@[simp] theorem Pair.rest_lastCause (x : Pair) : x.rest.lastCause = x.lastCause := rfl
@[simp] theorem Pair.rest_lastHo (x : Pair) : x.rest.lastHo = x.lastHo := rfl
@[simp] theorem Pair.rest_tko (x : Pair) : x.rest.tko = x.tko := rfl
@[simp] theorem Pair.rest_mac (x : Pair) : x.rest.mac = x.mac := rfl
@[simp] theorem Pair.rest_macHeard (x : Pair) : x.rest.macHeard = x.macHeard := rfl
@[simp] theorem Pair.rest_handoverPend (x : Pair) : x.rest.handoverPend = x.handoverPend := rfl
@[simp] theorem Pair.rest_segments (x : Pair) : x.rest.segments = x.segments := rfl
@[simp] theorem Pair.rest_roleChange (x : Pair) : x.rest.roleChange = x.roleChange := rfl
@[simp] theorem Pair.rest_listenFrom (x : Pair) : x.rest.listenFrom = x.listenFrom := rfl
@[simp] theorem Stall.rest_st (x : Stall) : x.rest.st = x.st := rfl
@[simp] theorem Stall.rest_cause (x : Stall) : x.rest.cause = x.cause := rfl
@[simp] theorem Stall.rest_bay (x : Stall) : x.rest.bay = x.bay := rfl
@[simp] theorem Stall.rest_bayAt (x : Stall) : x.rest.bayAt = x.bayAt := rfl
@[simp] theorem Stall.rest_bayOld (x : Stall) : x.rest.bayOld = x.bayOld := rfl
@[simp] theorem Stall.rest_stopReq (x : Stall) : x.rest.stopReq = x.stopReq := rfl
@[simp] theorem Stall.rest_coasting (x : Stall) : x.rest.coasting = x.coasting := rfl
@[simp] theorem Stall.rest_coastCnt (x : Stall) : x.rest.coastCnt = x.coastCnt := rfl
@[simp] theorem Stall.rest_runs (x : Stall) : x.rest.runs = x.runs := rfl
@[simp] theorem Stall.rest_cells (x : Stall) : x.rest.cells = x.cells := rfl
@[simp] theorem Stall.rest_stamps (x : Stall) : x.rest.stamps = x.stamps := rfl
@[simp] theorem Stall.rest_otLatch (x : Stall) : x.rest.otLatch = x.otLatch := rfl
@[simp] theorem Stall.rest_otSince (x : Stall) : x.rest.otSince = x.otSince := rfl
@[simp] theorem Stall.rest_coolDue (x : Stall) : x.rest.coolDue = x.coolDue := rfl
@[simp] theorem Stall.rest_otReadings (x : Stall) : x.rest.otReadings = x.otReadings := rfl
@[simp] theorem Stall.rest_scale (x : Stall) : x.rest.scale = x.scale := rfl
@[simp] theorem Stall.rest_restDue (x : Stall) : x.rest.restDue = x.restDue := rfl
@[simp] theorem Stall.rest_openDue (x : Stall) : x.rest.openDue = x.openDue := rfl
@[simp] theorem Stall.rest_gatedOut (x : Stall) : x.rest.gatedOut = x.gatedOut := rfl
@[simp] theorem Stall.rest_matrix (x : Stall) : x.rest.matrix = x.matrix := rfl
@[simp] theorem Stall.rest_sentOpen (x : Stall) : x.rest.sentOpen = x.sentOpen := rfl
@[simp] theorem Stall.rest_rearmPend (x : Stall) : x.rest.rearmPend = x.rearmPend := rfl
@[simp] theorem Stall.rest_rearmed (x : Stall) : x.rest.rearmed = x.rearmed := rfl
@[simp] theorem Stall.rest_rearmTicks (x : Stall) : x.rest.rearmTicks = x.rearmTicks := rfl
@[simp] theorem Stall.rest_checkOpen (x : Stall) : x.rest.checkOpen = x.checkOpen := rfl
@[simp] theorem Stall.rest_restartOpen (x : Stall) : x.rest.restartOpen = x.restartOpen := rfl
@[simp] theorem Stall.rest_liteCheck (x : Stall) : x.rest.liteCheck = x.liteCheck := rfl
@[simp] theorem Stall.rest_frame (x : Stall) : x.rest.frame = x.frame := rfl
@[simp] theorem Stall.rest_applied (x : Stall) : x.rest.applied = x.applied := rfl
@[simp] theorem Stall.rest_laneIn (x : Stall) : x.rest.laneIn = x.laneIn := rfl
@[simp] theorem Stall.rest_laneBay (x : Stall) : x.rest.laneBay = x.laneBay := rfl
@[simp] theorem Stall.rest_lastD (x : Stall) : x.rest.lastD = x.lastD := rfl
@[simp] theorem Stall.rest_loadSum (x : Stall) : x.rest.loadSum = x.loadSum := rfl
@[simp] theorem Stall.rest_loadMax (x : Stall) : x.rest.loadMax = x.loadMax := rfl
@[simp] theorem Stall.rest_reachFault (x : Stall) : x.rest.reachFault = x.reachFault := rfl
@[simp] theorem Stall.rest_cntCoastEnd (x : Stall) : x.rest.cntCoastEnd = x.cntCoastEnd := rfl
@[simp] theorem Stall.rest_cntFrozen (x : Stall) : x.rest.cntFrozen = x.cntFrozen := rfl
@[simp] theorem Stall.rest_cntLost (x : Stall) : x.rest.cntLost = x.cntLost := rfl
@[simp] theorem Stall.rest_stopsTotal (x : Stall) : x.rest.stopsTotal = x.stopsTotal := rfl
@[simp] theorem Stall.rest_stopsOc (x : Stall) : x.rest.stopsOc = x.stopsOc := rfl
@[simp] theorem Stall.rest_stopsOt (x : Stall) : x.rest.stopsOt = x.stopsOt := rfl
@[simp] theorem Bay.rest_pilot (x : Bay) : x.rest.pilot = x.pilot := rfl
@[simp] theorem Bay.rest_session (x : Bay) : x.rest.session = x.session := rfl
@[simp] theorem Bay.rest_resp (x : Bay) : x.rest.resp = x.resp := rfl
@[simp] theorem Bay.rest_heldResp (x : Bay) : x.rest.heldResp = x.heldResp := rfl
@[simp] theorem Bay.rest_mac (x : Bay) : x.rest.mac = x.mac := rfl
@[simp] theorem Bay.rest_sessions (x : Bay) : x.rest.sessions = x.sessions := rfl
@[simp] theorem Bay.rest_timeouts (x : Bay) : x.rest.timeouts = x.timeouts := rfl
@[simp] theorem Bay.rest_faults (x : Bay) : x.rest.faults = x.faults := rfl
@[simp] theorem Bay.rest_errMsg (x : Bay) : x.rest.errMsg = x.errMsg := rfl
@[simp] theorem Bay.rest_errTls (x : Bay) : x.rest.errTls = x.errTls := rfl
@[simp] theorem Bay.rest_errPhy (x : Bay) : x.rest.errPhy = x.errPhy := rfl
@[simp] theorem LedgerBlock.rest_clrUpto (x : LedgerBlock) : x.rest.clrUpto = x.clrUpto := rfl
@[simp] theorem LedgerBlock.rest_markA (x : LedgerBlock) : x.rest.markA = x.markA := rfl
@[simp] theorem LedgerBlock.rest_markB (x : LedgerBlock) : x.rest.markB = x.markB := rfl
@[simp] theorem LedgerBlock.rest_triggers (x : LedgerBlock) : x.rest.triggers = x.triggers := rfl
@[simp] theorem LedgerBlock.rest_sets (x : LedgerBlock) : x.rest.sets = x.sets := rfl

/-! ## What the updates write -/

@[simp] theorem vupd_self {α : Type} {n : Nat} (v : Vector α n) (i : Fin n) (f : α → α) : (vupd v i f)[i] = f v[i] := by simp [vupd]

@[simp] theorem State.arrive_mt (s : State) (t : Nat) : (s.arrive t).mt = max s.mt t := rfl

@[simp] theorem State.setStall_self (s : State) (n : Fin 64) (f : Stall → Stall) : (s.setStall n f).stalls[n] = f s.stalls[n] := vupd_self ..

@[simp] theorem State.setLink_self (s : State) (n : Fin 64) (f : Link → Link) :
    (s.setLink n f).stalls[n] = { s.stalls[n] with link := f s.stalls[n].link } := vupd_self ..

@[simp] theorem State.setBay_self (s : State) (b : Fin 12) (f : Bay → Bay) : (s.setBay b f).bays[b] = f s.bays[b] := vupd_self ..

theorem State.setStall_other (s : State) (n k : Fin 64) (f : Stall → Stall) (h : n ≠ k) : (s.setStall n f).stalls[k] = s.stalls[k] :=
  vupd_other _ _ _ _ h

theorem State.setBay_other (s : State) (b k : Fin 12) (f : Bay → Bay) (h : b ≠ k) : (s.setBay b f).bays[k] = s.bays[k] :=
  vupd_other _ _ _ _ h

@[simp] theorem State.bump_sum (s : State) (k : Fin 16) : (s.bump k).host.sum = vupd s.host.sum k (wrapInc 32) := rfl

@[simp] theorem State.violates_answer (s : State) (m : Master) (w : Bool) (addr : Nat) (a : Answer) : (s.violates m w addr a).host.answer = s.host.answer := by
  unfold State.violates; dsimp only; split <;> simp

@[simp] theorem State.answered_answer (s : State) (m : Master) (w : Bool) (addr : Nat) (a : Answer) : (s.answered m w addr a).host.answer = a := by
  unfold State.answered; dsimp only; split
  · simp
  · rfl

/-- An accepted access is answered OK and leaves everything else alone. -/
@[simp] theorem State.answered_ok (s : State) (m : Master) (w : Bool) (addr : Nat) :
    s.answered m w addr okAnswer = { s with host := { s.host with answer := okAnswer } } := rfl

/-- A command that nothing refuses takes effect and is answered OK. -/
theorem State.command_none (s : State) (m : Master) (addr : Nat) (f : State → State) :
    s.command m addr none f = { f s with host := { (f s).host with answer := okAnswer } } := rfl

/-- A refused command has no effect but its answer and what R404 records. -/
theorem State.command_some (s : State) (m : Master) (addr : Nat) (a : Answer) (f : State → State) :
    s.command m addr (some a) f = s.answered m true addr a := rfl

/-- A module that runs takes the effect at the time of the event. -/
theorem whenLive_live {s : State} (h : s.live = true) (t : Nat) (f : State → State) : whenLive t f s = f (s.arrive t) := by simp [whenLive, h]

/-- A module without power or held in reset sees only time pass. -/
theorem whenLive_dead {s : State} (h : s.live = false) (t : Nat) (f : State → State) : whenLive t f s = s.elapse t := by simp [whenLive, h]

/-- A scan of a module that runs takes the effect at the time of the event. -/
theorem whenScanning_live {s : State} (h : s.live = true) (t : Nat) (f : State → State) : whenScanning t f s = f (s.arrive t) := by
  simp [whenScanning, h]

/-- While market time counts, an event brings it up to its stamp. -/
theorem State.elapse_counted {s : State} (h : s.clk.mtSrc ≠ 3) (t : Nat) : s.elapse t = s.arrive t := if_neg h

/-- Without a counting source market time stands still. -/
theorem State.elapse_still {s : State} (h : s.clk.mtSrc = 3) (t : Nat) : s.elapse t = s := if_pos h

@[simp] theorem State.arrive_serves (s : State) (t : Nat) (m : Master) : (s.arrive t).serves m = s.serves m := rfl

/-- A master that the application map serves has access to it. -/
theorem foreign_none {s : State} {m : Master} (h : s.serves m = true) : foreign s m = none := by simp [foreign, h]

@[simp] theorem firstOf_none (b : Option Answer) : firstOf none b = b := rfl

end Sys2Proof.Machine
end

