-- ==== Sys2Proof/Laws/OpsLink.lean ====
section
/-! SUPPORT. What the shared operations answer: one lemma for each, cited instead of unfolding it. -/
namespace Sys2Proof.Machine

/-! ## Links -/

/-- Entry to FAULT, with or without a record. -/
@[simp] theorem State.linkFault_self (s : State) (n : Fin 64) (c : Nat) : (s.linkFault n c).stalls[n] =
    { s.stalls[n] with link := { s.stalls[n].link with st := .fault, entered := s.mt, faultCode := c, recorded := some c } } := by
  unfold State.linkFault
  dsimp only
  split <;> simp [-Fin.getElem_fin]

theorem expired_iff {t d : Nat} : expired t d = true ↔ d < t := by simp [expired]

theorem not_expired {t d : Nat} (h : t ≤ d) : expired t d = false := by simp [expired, h]

theorem is_expired {t d : Nat} (h : d < t) : expired t d = true := by simp [expired, h]

/-- What every step of a walk over indices keeps, the walk keeps. -/
theorem State.forAll_keeps {n : Nat} {f : Fin n → State → State} (P : State → Prop) (hf : ∀ i t, P t → P (f i t)) {s : State} (h : P s) :
    P (s.forAll n f) := by
  unfold State.forAll
  generalize fins n = l
  induction l generalizing s with
  | nil => exact h
  | cons i l ih => exact ih (hf i s h)

/-- A change of one stall that leaves its link alone leaves every link alone. -/
theorem State.setStall_link (s : State) (k n : Fin 64) (f : Stall → Stall) (hf : ∀ x, (f x).link = x.link) :
    (s.setStall k f).stalls[n].link = s.stalls[n].link := by
  by_cases e : k = n
  · subst e; simp [-Fin.getElem_fin, hf]
  · rw [State.setStall_other _ _ _ _ e]

@[simp] theorem State.takeReference_link (s : State) (k n : Fin 64) (b : Nat) : (s.takeReference k b).stalls[n].link = s.stalls[n].link :=
  State.takeReference_only (cs := allSave (.link n)) rfl (fun _ => rfl) (OnlyIn.refl _ s) (.link n) (by simp [allSave])

@[simp] theorem State.takeReference_mt (s : State) (k : Fin 64) (b : Nat) : (s.takeReference k b).mt = s.mt :=
  State.takeReference_only (cs := allSave .mt) rfl (fun _ => rfl) (OnlyIn.refl _ s) .mt rfl

/-- What MST leaves of a link: all but the copy of what was sent. -/
theorem State.sendMst_link (s : State) (n : Fin 64) :
    (s.sendMst n).stalls[n].link = { s.stalls[n].link with mst := (s.sendMst n).stalls[n].link.mst } := by
  unfold State.sendMst
  split <;> simp [-Fin.getElem_fin]

/-- The open timeout is no part of the link. -/
@[simp] theorem State.restartOpen_link (s : State) (n : Fin 64) : (s.restartOpen n).stalls[n].link = s.stalls[n].link := by
  unfold State.restartOpen
  dsimp only
  split
  · exact State.setStall_link _ _ _ _ (by intro _; rfl)
  · rfl

/-- Entry to RUN (R101). -/
theorem State.linkRun_link (s : State) (n : Fin 64) : ∃ x, (s.linkRun n).stalls[n].link =
    { s.stalls[n].link with st := .run, entered := s.mt, recorded := none, silent := 0, runFrom := s.nextBoundary s.mt,
                            out := .idl, lastSampleTime := none, mst := x } := by
  unfold State.linkRun
  dsimp only
  rw [State.bump_stalls, State.sendMst_link, State.takeReference_link, State.setLink_self]
  exact ⟨_, rfl⟩

/-- A configuration frame leaves (R101). -/
theorem State.sendConfig_link (s : State) (n : Fin 64) (delay : Nat) (valid : Bool) : (s.sendConfig n delay valid).stalls[n].link =
    let used := (s.stalls[n].link.tag :: s.stalls[n].link.oldTags).take 64
    let tag := freshTag used (Config.freeNat s.draws)
    { s.stalls[n].link with tag, oldTags := used, txTime := charSlot s.mt, confirming := valid,
                            out := .config (configFrame s n tag delay valid) } := by
  unfold State.sendConfig
  dsimp only
  rw [State.setLink_self]
  rfl

@[simp] theorem State.trySleep_sleepReq (s : State) (n : Fin 64) : (s.trySleep n).stalls[n].link.sleepReq = s.stalls[n].link.sleepReq := by
  unfold State.trySleep
  split <;> simp [-Fin.getElem_fin, State.linkSleep, noCoast]

@[simp] theorem State.arrive_capEnabled (s : State) (t : Nat) : (s.arrive t).capEnabled = s.capEnabled := rfl

@[simp] theorem State.freeMove_stalls (s : State) (k : Fin 8) (c : Bool) : (s.freeMove k c).stalls = s.stalls := by
  unfold State.freeMove
  cases c <;> rfl

@[simp] theorem State.endMoveOf_stalls (s : State) (n : Fin 64) : (s.endMoveOf n).stalls = s.stalls := by
  unfold State.endMoveOf
  split <;> simp

theorem finsBelow_get {n : Nat} (k : Nat) (hk : k ≤ n) (i : Nat) (h : i < (finsBelow n k hk).length) :
    ((finsBelow n k hk)[i]).val = i := by
  induction k with
  | zero => simp [finsBelow] at h
  | succ k ih =>
    simp only [finsBelow]
    rw [List.getElem_append]
    split
    · exact ih _ _
    · next hn =>
      have hl := finsBelow_length n k (Nat.le_of_succ_le hk)
      have h' := finsBelow_length n (k + 1) hk
      have : i = k := by omega
      simp [this]

theorem fins_get {n : Nat} (i : Nat) (h : i < (fins n).length) (h' : i < n) : (fins n)[i] = ⟨i, h'⟩ :=
  Fin.ext (finsBelow_get n (Nat.le_refl n) i h)

@[simp] theorem vgen_get {α : Type} {n : Nat} (f : Fin n → α) (i : Fin n) : (vgen f)[i] = f i := by
  have h : i.val < (fins n).length := by rw [fins, finsBelow_length]; exact i.isLt
  simp [vgen, fins_get i.val h i.isLt]

@[simp] theorem vmap_get {α β : Type} {n : Nat} (f : Fin n → α → β) (v : Vector α n) (i : Fin n) : (vmap f v)[i] = f i v[i] :=
  vgen_get ..

/-- The cells of a stall after each was changed. -/
@[simp] theorem State.mapCells_self (s : State) (n : Fin 64) (f : Fin 8 → CellCtl → CellCtl) :
    (s.mapCells n f).stalls[n] = { s.stalls[n] with cells := vmap f s.stalls[n].cells } := by
  unfold State.mapCells
  exact State.setStall_self ..

/-- What STOPPING writes (R176). -/
@[simp] theorem State.countStop_self (s : State) (n : Fin 64) (c : Nat) : (s.countStop n c).stalls[n] =
    { s.stalls[n] with st := .stopping, cause := c, stopsTotal := satInc 16 s.stalls[n].stopsTotal,
                       stopsOt := if c = 7 then satInc 8 s.stalls[n].stopsOt else s.stalls[n].stopsOt } := by
  unfold State.countStop
  rw [State.bump_stalls, State.setStall_self]

/-- The fast path of a stall that feeds a bay or stops (R170). -/
theorem State.fastPath_self (s : State) (n : Fin 64) (c : Nat) (h : s.stalls[n].st = .assigned ∨ s.stalls[n].st = .stopping) :
    let u := (s.fastPath n c).stalls[n]
    u.st = .stopping ∧ u.cause = c ∧ u.gatedOut = true ∧ u.matrix = none ∧ u.cells = vmap (fun _ c => cellOff c) s.stalls[n].cells ∧
    u.cntCoastEnd = s.stalls[n].cntCoastEnd ∧ u.link = s.stalls[n].link := by
  unfold State.fastPath
  rcases h with h | h <;> simp [-Fin.getElem_fin, h]

@[simp] theorem State.capFreeze_frozen (s : State) (src n : Nat) : (s.capFreeze src n).stl.frozen = true := by
  unfold State.capFreeze
  split
  · assumption
  · rfl

/-- A command completes with the state its effect leaves. -/
theorem Completes.of {c : Instr} {s u : State} {P : State → Prop} (e : exec c s = .next u) (h : P u) : Completes c s P := ⟨u, e, h⟩

/-- The same for an event of a module that runs. -/
theorem Completes.running {c : Instr} {s u : State} {t : Nat} {f : State → State} {P : State → Prop} (h : s.live = true)
    (e : exec c s = .next (whenLive t f s)) (hu : f (s.arrive t) = u) (hp : P u) : Completes c s P :=
  ⟨_, e, by rw [whenLive_live h, hu]; exact hp⟩

/-- The same with the effect left to be shown. -/
theorem Completes.live {c : Instr} {s : State} {t : Nat} {f : State → State} {P : State → Prop} (h : s.live = true)
    (e : exec c s = .next (whenLive t f s)) (hp : P (f (s.arrive t))) : Completes c s P :=
  ⟨_, e, by rw [whenLive_live h]; exact hp⟩

/-- What an event of a module that runs answers. -/
theorem exec_live {c : Instr} {s : State} {t : Nat} {f : State → State} (h : s.live = true) (e : exec c s = .next (whenLive t f s)) :
    exec c s = .next (f (s.arrive t)) := by
  rw [e, whenLive_live h]

/-- Entry to LOCKED (R170). -/
@[simp] theorem State.lockStall_self (s : State) (n : Fin 64) (c : Nat) : (s.lockStall n c).stalls[n] =
    noCoast { s.stalls[n].place none s.mt with st := .locked, cause := c, matrix := none, gatedOut := true, openDue := none } := by
  unfold State.lockStall
  dsimp only
  rw [State.log_stalls, State.setStall_self]

/-- Entry to IDLE (R170). -/
@[simp] theorem State.becomeIdle_self (s : State) (n : Fin 64) : (s.becomeIdle n).stalls[n] =
    { s.stalls[n].place none s.mt with st := .idle, gatedOut := false, rearmTicks := 0 } := by
  unfold State.becomeIdle
  rw [State.bump_stalls, State.setStall_self]

@[simp] theorem State.setCell_self (s : State) (n : Fin 64) (c : Fin 8) (f : CellCtl → CellCtl) : (s.setCell n c f).stalls[n] =
    { s.stalls[n] with cells := vupd s.stalls[n].cells c f } := State.setStall_self ..

/-- Gating a stopping stall keeps its cells. -/
@[simp] theorem State.gateWhenOut_cells (s : State) (n : Fin 64) : (s.gateWhenOut n).stalls[n].cells = s.stalls[n].cells := by
  unfold State.gateWhenOut
  dsimp only
  split
  · simp [-Fin.getElem_fin]
  · rfl

@[simp] theorem State.setMove_stalls (s : State) (k : Fin 8) (f : MoveSlot → MoveSlot) : (s.setMove k f).stalls = s.stalls := rfl

/-- The end of a ramp moves the stall's move on, not its cells. -/
@[simp] theorem State.moveRampDone_cells (s : State) (n : Fin 64) : (s.moveRampDone n).stalls[n].cells = s.stalls[n].cells := by
  unfold State.moveRampDone
  split
  · rfl
  · dsimp only
    split
    · simp [-Fin.getElem_fin]
    · split <;> simp [-Fin.getElem_fin]

/-- What a usable sample leaves as the stall's latest uplink, and how it is judged (R85, R163). -/
theorem State.takeSample_kept (s : State) (n : Fin 64) (q : Nat) (f : Uplink) :
    ∃ v, (v = .good ∨ v = .frozen) ∧ (s.takeSample n q f).stalls[n].taken = (some f, q, v, q) := by
  have after : ∀ w : State, (((((((((((w.takeOc n f.ocMask).takeTrip n (f.stat.testBit 0)).takeTemp n f.tempIdx f.temp).liteUplinkCheck n
      f.matrixFb).stallFeedback n f.matrixFb).addLoad n f).askRearm n).checkEnvelope n q).cableHold n q f).trySleep n).stalls[n].taken) =
      w.stalls[n].taken := fun w => by
    refine State.trySleep_only (cs := allSave (.sample n)) rfl (by simp [allSave]) (by simp [allSave]) (State.cableHold_only (by simp [allSave])
      (State.checkEnvelope_only rfl rfl rfl (by simp [allSave]) rfl rfl rfl (State.askRearm_only (by simp [allSave]) (State.addLoad_only (by simp [allSave])
      (State.stallFeedback_only rfl rfl (by simp [allSave]) rfl rfl ?_))))) (.sample n) (by simp [allSave])
    exact State.liteUplinkCheck_only rfl rfl rfl (by simp [allSave]) rfl rfl rfl (State.takeTemp_only rfl (by simp [allSave])
      (State.takeTrip_only rfl rfl (by simp [allSave]) rfl rfl (State.takeOc_only rfl (by simp [allSave]) rfl (OnlyIn.refl _ w))))
  have before : ∀ w : State, ((w.epochConflict n q).stepRuns n f).stalls[n].taken = w.stalls[n].taken := fun w => by
    refine State.stepRuns_only (cs := allSave (.sample n)) rfl rfl (by simp [allSave]) rfl ?_ (.sample n) (by simp [allSave])
    exact State.epochConflict_only rfl (by simp [allSave]) rfl (OnlyIn.refl _ w)
  have coast : ∀ (w : State) c, (w.coastPitch n c).stalls[n].taken = w.stalls[n].taken := fun w c =>
    State.coastPitch_only (cs := allSave (.sample n)) rfl rfl (by simp [allSave]) rfl (OnlyIn.refl _ w) (.sample n) (by simp [allSave])
  have rec' : ∀ (w : State), (w.recover n).stalls[n].taken = w.stalls[n].taken := fun w =>
    State.recover_only (cs := allSave (.sample n)) rfl (by simp [allSave]) (OnlyIn.refl _ w) (.sample n) (by simp [allSave])
  have judge : ∀ w : State, w.stalls[n].taken = (some f, q, .good, q) → ∃ v, (v = .good ∨ v = .frozen) ∧
      (if anyFrozen w.stalls[n] then (w.setStall n fun x => { x with sample := .frozen }).coastPitch n 3 else w.recover n).stalls[n].taken =
        (some f, q, v, q) := fun w hw => by
    by_cases c : anyFrozen w.stalls[n] = true
    · rw [if_pos c]
      refine ⟨.frozen, .inr rfl, ?_⟩
      rw [coast, State.setStall_self]
      simp only [Stall.taken, Prod.mk.injEq] at hw ⊢
      exact ⟨hw.1, hw.2.1, trivial, hw.2.2.2⟩
    · rw [if_neg c]
      exact ⟨.good, .inl rfl, (rec' w).trans hw⟩
  unfold State.takeSample
  dsimp only
  rw [after]
  refine judge _ ?_
  rw [before, State.bumpIf_stalls, State.setStall_self]
  rfl

/-- A usable sample leaves the buffer of captured frames alone. -/
theorem State.takeSample_cap (s : State) (n : Fin 64) (q : Nat) (f : Uplink) : (s.takeSample n q f).stl.cap = s.stl.cap := by
  have o : OnlyIn (allSave .stl) s (s.takeSample n q f) :=
    State.takeSample_only rfl rfl rfl (fun _ => rfl) rfl (fun _ => rfl) (fun _ => rfl) rfl rfl rfl rfl (OnlyIn.refl _ s)
  have e := congrArg StlCommon.cap (o.keeps_stl rfl)
  rwa [StlCommon.rest_cap, StlCommon.rest_cap] at e
/-! ## Walks over all stalls or bays -/

/-- What every step of a walk over a list keeps, the walk keeps. -/
theorem foldl_keeps {α : Type} {f : State → α → State} (P : State → Prop) (hf : ∀ x t, P t → P (f t x)) (l : List α) {s : State} (h : P s) :
    P (l.foldl f s) := by
  induction l generalizing s with
  | nil => exact h
  | cons x l ih => exact ih (hf x s h)

theorem foldl_finsBelow_at {n : Nat} {f : Fin n → State → State} (i : Fin n) {Q R : State → Prop} (before : ∀ j t, j.val < i.val → Q t → Q (f j t))
    (here : ∀ t, Q t → R (f i t)) (after : ∀ j t, i.val < j.val → R t → R (f j t)) (k : Nat) (hk : k ≤ n) (s : State) (hs : Q s) :
    if i.val < k then R ((finsBelow n k hk).foldl (fun s j => f j s) s) else Q ((finsBelow n k hk).foldl (fun s j => f j s) s) := by
  induction k with
  | zero => simpa [finsBelow] using hs
  | succ k ih =>
    have ih := ih (Nat.le_of_succ_le hk)
    simp only [finsBelow, List.foldl_append, List.foldl_cons, List.foldl_nil]
    by_cases e : i.val = k
    · rw [if_neg (by omega)] at ih
      rw [if_pos (by omega)]
      have : (⟨k, hk⟩ : Fin n) = i := Fin.ext e.symm
      rw [this]
      exact here _ ih
    · by_cases l : i.val < k
      · rw [if_pos l] at ih
        rw [if_pos (by omega)]
        exact after ⟨k, hk⟩ _ l ih
      · rw [if_neg l] at ih
        rw [if_neg (by omega)]
        exact before ⟨k, hk⟩ _ (by show k < i.val; omega) ih

/-- A walk over all indices reaches index `i` once: what holds before it (`Q`), what its step makes of that (`R`), what the others keep. -/
theorem State.forAll_at {n : Nat} {f : Fin n → State → State} (i : Fin n) {Q R : State → Prop} (before : ∀ j t, j ≠ i → Q t → Q (f j t))
    (here : ∀ t, Q t → R (f i t)) (after : ∀ j t, j ≠ i → R t → R (f j t)) (s : State) (hs : Q s) : R (s.forAll n f) := by
  have h := foldl_finsBelow_at (f := f) i (Q := Q) (R := R) (fun j t l => before j t fun e => by subst e; omega) here
    (fun j t l => after j t fun e => by subst e; omega) n (Nat.le_refl n) s hs
  rwa [if_pos i.isLt] at h

end Sys2Proof.Machine
end

