-- ==== Sys2Proof/Laws/OpsPitch.lean ====
section
/-! SUPPORT. What the shared operations of ticks, pitches and the compute deadline answer: one lemma for each, cited instead of unfolding it. -/
namespace Sys2Proof.Machine

/-! ## Ticks and pitches -/

@[simp] theorem State.setSs_self (s : State) (b : Fin 12) (f : SafeStop → SafeStop) : (s.setSs b f).saf.stops[b] = f s.saf.stops[b] := vupd_here ..

theorem State.setSs_other (s : State) (b c : Fin 12) (f : SafeStop → SafeStop) (e : b ≠ c) : (s.setSs b f).saf.stops[c] = s.saf.stops[c] :=
  vupd_other _ _ _ _ e

/-- What a boundary leaves of the safe stops of the other bays. -/
theorem State.ssBoundary_other (s : State) (b c : Fin 12) (e : b ≠ c) : (s.ssBoundary b).saf.stops[c] = s.saf.stops[c] := by
  have k : ((s.setSs b fun x => { x with st := .opening }).bump 8).saf.stops[c] = s.saf.stops[c] := s.setSs_other b c _ e
  unfold State.ssBoundary
  dsimp only
  by_cases h : s.saf.stops[b].st = .gating ∧ s.saf.stops[b].gated = true
  · simp [-Fin.getElem_fin, h, State.setSs_other _ _ _ _ e]
  · simp [-Fin.getElem_fin, h]

/-- Results of two ticks for a bay, told apart by more than the release count R_b. -/
def BayClear.but (x : BayClear) : BayClear := { x with relCount := 0 }

/-- A move that starts changes of MKT only the slots and the release count of the bay it leaves. -/
theorem State.startMove_mkt (s : State) (d : MoveDecision) : ∃ bs m k, (s.startMove d).mkt = { s.mkt with bays := bs, moves := m, movesDone := k } ∧
    ∀ b : Fin 12, bs[b].but = s.mkt.bays[b].but := by
  have same : ∃ bs m k, s.mkt = { s.mkt with bays := bs, moves := m, movesDone := k } ∧ ∀ b : Fin 12, bs[b].but = s.mkt.bays[b].but :=
    ⟨_, _, _, rfl, fun _ => rfl⟩
  have done : ∀ (w : State) n, (∃ bs m k, w.mkt = { s.mkt with bays := bs, moves := m, movesDone := k } ∧ ∀ b : Fin 12, bs[b].but = s.mkt.bays[b].but) →
      ∃ bs m k, (w.moveRampDone n).mkt = { s.mkt with bays := bs, moves := m, movesDone := k } ∧ ∀ b : Fin 12, bs[b].but = s.mkt.bays[b].but := by
    rintro w n ⟨bs, m, k, e, h⟩
    unfold State.moveRampDone
    split
    · exact ⟨bs, m, k, e, h⟩
    · dsimp only
      split
      · exact ⟨bs, vupd m _ fun m => { m with phase := .opening, deadline := none }, k,
            by rw [State.setStall_mkt, State.setMove, e], h⟩
      · split
        · exact ⟨bs, vupd m ‹Fin 8› fun _ => {}, satInc 16 k, by rw [State.freeMove, State.bump_mkt]; simp [State.setMove, e], h⟩
        · exact ⟨bs, m, k, e, h⟩
  unfold State.startMove
  split
  · exact same
  · split
    · exact same
    · dsimp only
      have bays : ∃ bs m k, (match d.move.src.bind (fin? 12) with
          | some b => if d.move.dst.isNone then
              { ((s.setMove d.slot fun _ => { d.move with startedAt := s.mt }).bump 5) with mkt :=
                { ((s.setMove d.slot fun _ => { d.move with startedAt := s.mt }).bump 5).mkt with
                  bays := vupd ((s.setMove d.slot fun _ => { d.move with startedAt := s.mt }).bump 5).mkt.bays b fun x => { x with relCount := 0 } } }
            else (s.setMove d.slot fun _ => { d.move with startedAt := s.mt }).bump 5
          | none => (s.setMove d.slot fun _ => { d.move with startedAt := s.mt }).bump 5).mkt =
            { s.mkt with bays := bs, moves := m, movesDone := k } ∧ ∀ b : Fin 12, bs[b].but = s.mkt.bays[b].but := by
        split
        · next b _ =>
          split
          · refine ⟨_, _, _, rfl, fun c => ?_⟩
            by_cases e : b = c
            · subst e
              show (vupd s.mkt.bays b _)[b].but = _
              rw [vupd_here]; rfl
            · show (vupd s.mkt.bays b _)[c].but = _
              rw [vupd_other _ _ _ _ e]
          · exact ⟨_, _, _, rfl, fun _ => rfl⟩
        · exact ⟨_, _, _, rfl, fun _ => rfl⟩
      split
      · exact bays
      · exact done _ _ bays

/-- The same for every move of a tick. -/
theorem State.startMoves_mkt (ds : List MoveDecision) (s : State) :
    ∃ bs m k, (ds.foldl (fun s d => s.startMove d) s).mkt = { s.mkt with bays := bs, moves := m, movesDone := k } ∧
      ∀ b : Fin 12, bs[b].but = s.mkt.bays[b].but := by
  induction ds generalizing s with
  | nil => exact ⟨_, _, _, rfl, fun _ => rfl⟩
  | cons d ds ih =>
    obtain ⟨bs, m, k, h, hb⟩ := s.startMove_mkt d
    obtain ⟨bs', m', k', h', hb'⟩ := ih (s.startMove d)
    exact ⟨bs', m', k', by rw [List.foldl_cons, h', h], fun b => (hb' b).trans (by rw [h]; exact hb b)⟩

/-- The commit of a tick: everything of MKT but the slots and the release counts is as the results say (R178). -/
theorem State.commitTick_mkt (s : State) (r : TickResult) : ∃ bs m k, (s.commitTick r).mkt = { s.mkt with
    limits := r.limits, stale := r.stale, short := r.short, env := r.env, envRate := r.envRate, envX := r.envX, envXRate := r.envXRate,
    bays := bs, boundsAt := r.at_ + 250000, oldBounds := (vgen fun b => (s.mkt.bays[b].iLo, s.mkt.bays[b].iHi)),
    xfHot := r.xfHot.getD s.mkt.xfHot, result := none,
    shortEvt := if (s.mkt.short == 0 && r.short != 0) = true then satInc 8 s.mkt.shortEvt else s.mkt.shortEvt, moves := m, movesDone := k } ∧
    ∀ b : Fin 12, bs[b].but = r.bays[b].but := by
  unfold State.commitTick
  dsimp only
  rw [show ∀ w : State, (w.keepDigest r).mkt = w.mkt from fun w => State.keepDigest_only (cs := allSave .mkt) rfl (OnlyIn.refl _ w) .mkt rfl]
  obtain ⟨bs, m, k, e, h⟩ := State.startMoves_mkt r.moves _
  rw [e]
  refine ⟨bs, m, k, ?_, fun b => (h b).trans ?_⟩ <;> split <;> first | rw [State.log_mkt] | rw [State.bumpIf_mkt] | simp only [State.log_mkt, State.bumpIf_mkt]

/-- A clamp leaves the profile's pending change alone. -/
theorem State.clampTo_pend (s : State) (img : Image) : (s.clampTo img).prof.pend = s.prof.pend := by
  unfold State.clampTo
  dsimp only
  split
  · rfl
  · have e : ∀ (l : List (Nat × Nat)) (w : State), (l.foldl (fun s x => s.log 0x0003 0xFF x.1 x.2) w).prof = w.prof := fun l => by
      induction l with
      | nil => intro w; rfl
      | cons x l ih => intro w; rw [List.foldl_cons, ih, State.log_prof]
    rw [e]

/-! ## The compute deadline -/

/-- The tiles and the window of the lattice engine. -/
def Lattice.results (l : Lattice) : Bool × List Tile := (l.windowOpen, l.tiles)

theorem State.memEvent_results (s : State) (e : EccEvent) : (s.memEvent e).lat.results = s.lat.results := by
  unfold State.memEvent
  dsimp only
  repeat' split
  all_goals first | rfl | (rw [State.log_lat]; rfl)

theorem State.overrun_results (s : State) (t : TileRec) (c : Nat) : (s.overrun t c).lat.results = s.lat.results := by
  have stop : ∀ w : State, (w.overrunStop t).lat.results = w.lat.results := fun w => by
    unfold State.overrunStop
    dsimp only
    rw [State.logAt_lat]
    split <;> rfl
  have first : ∀ (w : State) k, (if k = 0 then w.logAt w.deadlineOf 0x0201 t.lane t.tileId c else w).lat.results = w.lat.results := fun w k => by
    split
    · rw [State.logAt_lat]
    · rfl
  have bad : ∀ (w : State) k, (if 2 ≤ k then { w with lat := { w.lat with badAt := some w.mt } } else w).lat.results = w.lat.results :=
    fun w k => by split <;> rfl
  unfold State.overrun
  dsimp only
  split
  · rw [stop, bad, first]
    split <;> rfl
  · rw [bad, first]
    split <;> rfl

theorem State.judgeTiles_results (s : State) (ts : List Tile) (runs : List LaneRun) (ecc : List EccEvent) (mc : List Nat) :
    (s.judgeTiles ts runs ecc mc).lat.results = s.lat.results := by
  have lane : ∀ (w : State) l r m x, (w.laneEnd l r m x).lat.results = w.lat.results := fun w l r m x => by
    unfold State.laneEnd
    dsimp only
    split <;> split <;> rfl
  have tile : ∀ (w : State) t, (w.committedTile t).lat.results = w.lat.results := fun w t => by
    unfold State.committedTile
    split
    · split <;> rfl
    · rfl
  unfold State.judgeTiles
  dsimp only
  refine foldl_keeps (fun u => u.lat.results = s.lat.results) (fun l u hu => ?_) _
    (foldl_keeps (fun u => u.lat.results = s.lat.results) (fun x u hu => ?_) _ rfl)
  · split
    · exact (lane ..).trans hu
    · exact hu
  · split
    · exact (tile ..).trans hu
    · exact (State.overrun_results ..).trans hu

/-- A word committed while the window is closed waits for the next one. -/
theorem State.commitWord_results (s : State) (t a b : Nat) (v : Int) (hw : s.lat.windowOpen = false) :
    (s.commitWord t a b v).lat.results = s.lat.results := by
  unfold State.commitWord
  dsimp only
  rw [if_neg (by simp [hw])]
  rfl

/-- With the window closed, a word more or none. -/
theorem State.commitWord_closed {s u : State} (t a b : Nat) (v : Int) (hw : s.lat.windowOpen = false) (hu : u.lat.results = s.lat.results) :
    (u.commitWord t a b v).lat.results = s.lat.results :=
  (State.commitWord_results _ _ _ _ _ ((congrArg Prod.fst hu).trans hw)).trans hu

theorem State.seqStall_results (s : State) (img : Image) (n : Fin 64) (hw : s.lat.windowOpen = false) :
    (s.seqStall img n).lat.results = s.lat.results := by
  unfold State.seqStall
  dsimp only
  have a : ∀ w : State, w.lat.results = s.lat.results → ∀ f : Fin 8 → State → State,
      (∀ i u, u.lat.results = s.lat.results → (f i u).lat.results = s.lat.results) → (w.forAll 8 f).lat.results = s.lat.results := fun w h f hf =>
    State.forAll_keeps (fun u => u.lat.results = s.lat.results) (fun i u hu => hf i u hu) h
  have k : (s.forAll 8 fun c u =>
      match tileOf img 1 0 (8 * n.val + c.val) with
      | some t => u.commitWord u.deadlineOf t.tileId 5 (u.nextCell s.stalls[n].cells[c]).w
      | none => u).lat.results = s.lat.results := a s rfl _ fun i u hu => by
    split
    · exact State.commitWord_closed _ _ _ _ hw hu
    · exact hu
  split
  · exact a _ k _ fun i u hu => State.commitWord_closed _ _ _ _ hw hu
  · exact k

theorem State.seqBay_results (s : State) (img : Image) (b : Fin 12) (hw : s.lat.windowOpen = false) :
    (s.seqBay img b).lat.results = s.lat.results := by
  unfold State.seqBay
  dsimp only
  split <;> split
  · exact State.commitWord_closed _ _ _ _ hw (State.commitWord_closed _ _ _ _ hw rfl)
  · exact State.commitWord_closed _ _ _ _ hw rfl
  · exact State.commitWord_closed _ _ _ _ hw rfl
  · rfl

theorem State.closePitch_results (s : State) (img : Image) (ts : List Tile) (mc : List Nat) (b : Nat)
    (hw : s.lat.windowOpen = false) : (s.closePitch img ts mc b).lat.results = s.lat.results := by
  have w1 : ∀ w : State, w.lat.windowOpen = false → (w.sequence img).lat.results = w.lat.results := fun w hw => by
    unfold State.sequence
    dsimp only
    refine State.forAll_keeps (fun u => u.lat.results = w.lat.results) (fun i u hu => ?_)
      (State.forAll_keeps (fun u => u.lat.results = w.lat.results) (fun i u hu => ?_) rfl)
    · split
      · exact (State.seqBay_results _ _ _ ((congrArg Prod.fst hu).trans hw)).trans hu
      · exact hu
    · split
      · exact (State.seqStall_results _ _ _ ((congrArg Prod.fst hu).trans hw)).trans hu
      · exact hu
  have w2 : ∀ w : State, (w.armTimeouts b).lat = w.lat := fun w =>
    State.armTimeouts_only (cs := allSave .lat) (by simp [allSave]) rfl (OnlyIn.refl _ w) .lat rfl
  have w3 : ∀ w : State, (w.forAll 64 fun n s => s.sendFrame ts mc b n).lat = w.lat := fun w =>
    State.forAll_keeps (fun u => u.lat = w.lat) (fun i u hu => Eq.trans
      (State.sendFrame_only (cs := allSave .lat) (by simp [allSave]) (OnlyIn.refl _ u) .lat rfl) hu) rfl
  have w4 : ∀ w : State, (w.forAll 12 fun b s => s.spread b).lat = w.lat := fun w =>
    State.forAll_keeps (fun u => u.lat = w.lat) (fun i u hu => Eq.trans
      (State.spread_only (cs := allSave .lat) (by simp [allSave]) (OnlyIn.refl _ u) .lat rfl) hu) rfl
  have w5 : ∀ (w : State) k, (w.takeLoadSteps k).lat = w.lat := fun w k =>
    State.takeLoadSteps_only (cs := allSave .lat) rfl rfl (by simp [allSave]) rfl (OnlyIn.refl _ w) .lat rfl
  have w6 : ∀ w : State, (w.keepPitchDigest b).lat = w.lat := fun w =>
    State.keepPitchDigest_only (cs := allSave .lat) rfl (OnlyIn.refl _ w) .lat rfl
  unfold State.closePitch
  dsimp only
  rw [w6, w1 _ (by rw [w5, w2, w3, w4]; exact hw), w5, w2, w3, w4]

theorem State.startCopy_results (s : State) : s.startCopy.lat.results = s.lat.results := by
  unfold State.startCopy
  split
  · dsimp only
    split
    · rw [State.bumpIf_lat]
      rfl
    · rfl
  · rfl

/-- What the deadline leaves in tile memory, and that the window is closed (R135). -/
theorem State.endPitch_results (s : State) (img : Image) (ecc : List EccEvent) (mc : List Nat) :
    (s.endPitch img ecc mc).lat.results = (false, mergeLanes s.lat.tiles ((List.range 8).map fun l => runLane s img ecc mc l)) := by
  have pre : ∀ (w : State) f g ts, w.lat.results = (false, mergeLanes s.lat.tiles ((List.range 8).map fun l => runLane s img ecc mc l)) →
      ((((ecc.foldl (fun s e => s.memEvent e) w).cleanReads ecc f).judgeTiles ts g ecc mc).lat.results) =
        (false, mergeLanes s.lat.tiles ((List.range 8).map fun l => runLane s img ecc mc l)) := fun w f g ts hw => by
    rw [State.judgeTiles_results]
    have cl : ∀ (w : State) e f, (w.cleanReads e f).lat.results = w.lat.results := fun w e f => rfl
    rw [cl]
    exact foldl_keeps (fun u => u.lat.results = (false, mergeLanes s.lat.tiles ((List.range 8).map fun l => runLane s img ecc mc l)))
      (fun e u hu => (State.memEvent_results ..).trans hu) _ hw
  unfold State.endPitch
  dsimp only
  rw [show ∀ w : State, w.sendCapture.lat = w.lat from fun w => State.sendCapture_only (cs := allSave .lat) rfl (OnlyIn.refl _ w) .lat rfl,
    State.startCopy_results, State.closePitch_results _ _ _ _ _ (congrArg Prod.fst (pre _ _ _ _ rfl))]
  exact pre _ _ _ _ rfl

/-- A module that drops its site closes its window; nothing else of the lattice changes. -/
theorem State.dropSite_lat (s : State) : s.dropSite.lat = { s.lat with windowOpen := false } := by
  have k1 : ∀ x : State, (x.forAll 64 fun n s => s.setStall n stallLost).lat = x.lat := fun x =>
    State.forAll_keeps (fun u => u.lat = x.lat) (fun i u hu => (State.setStall_lat u i stallLost).trans hu) rfl
  have k2 : ∀ x : State, (x.forAll 64 fun n s => s.linkOff n).lat = x.lat := fun x =>
    State.forAll_keeps (fun u => u.lat = x.lat) (fun i u hu => Eq.trans
      (State.linkOff_only (cs := allSave .lat) rfl rfl (OnlyIn.refl _ u) .lat rfl) hu) rfl
  have k3 : ∀ x : State, (x.forAll 12 fun b s => (if s.bays[b].session.st = .idle then s else s.enterIdle b).commandOutlet b false).lat = x.lat :=
    fun x => State.forAll_keeps (fun u => u.lat = x.lat) (fun i u hu => Eq.trans
      (State.commandOutlet_only (cs := allSave .lat) rfl rfl (OnlyIn.ite (OnlyIn.refl _ u) (State.enterIdle_only rfl rfl (OnlyIn.refl _ u)))
        .lat rfl) hu) rfl
  have k4 : ∀ (x : State) (c : Prop) [Decidable c], (if c then x.forAll 64 (fun n s => s.linkOff n) else x).lat = x.lat := fun x c _ => by
    split
    · exact k2 x
    · rfl
  unfold State.dropSite
  dsimp only
  rw [k3, k4, k1]

/-- A cancelled change leaves tile memory and the window alone. -/
theorem State.cancelPending_results (w : State) (k : Nat) : (w.cancelPending k).lat.results = w.lat.results := by
  have slot : ∀ (x : State) n st, (x.slotSt n st).lat = x.lat := fun x n st =>
    State.slotSt_only (cs := allSave .lat) rfl rfl (OnlyIn.refl _ x) .lat rfl
  have err : ∀ (x : State) c p v, (x.profErr c p v).lat = x.lat := fun x c p v =>
    State.profErr_only (cs := allSave .lat) rfl rfl (OnlyIn.refl _ x) .lat rfl
  unfold State.cancelPending
  split
  · rfl
  · split
    · rfl
    · dsimp only
      rw [slot, err]
      rfl

/-- A release leaves tile memory alone and ends the open window at most. -/
theorem State.releaseActive_results (s : State) (c : Nat) (hw : s.lat.windowOpen = false) : (s.releaseActive c).lat.results = s.lat.results := by
  have after : ∀ w : State, (w.afterRelease c).lat = w.lat := fun w =>
    State.afterRelease_only (cs := allSave .lat) rfl rfl rfl rfl rfl rfl (OnlyIn.refl _ w) .lat rfl
  have before : ((s.countRelease c).allOff).lat = s.lat :=
    State.allOff_only (cs := allSave .lat) rfl rfl (State.countRelease_only rfl (OnlyIn.refl _ s)) .lat rfl
  have role : ∀ (w : State) r k, (w.setRole r k).lat = w.lat := fun w r k =>
    State.setRole_only (cs := allSave .lat) rfl rfl rfl rfl rfl rfl (OnlyIn.refl _ w) .lat rfl
  unfold State.releaseActive
  split
  · dsimp only
    rw [after]
    generalize (s.countRelease c).allOff = x at before ⊢
    have e : (if x.paired && c != 0x0B then x.cancelPending 0x34 else x).lat.results = s.lat.results := by
      split
      · rw [State.cancelPending_results, before]
      · rw [before]
    generalize (if x.paired && c != 0x0B then x.cancelPending 0x34 else x) = y at e ⊢
    split
    · exact e
    · rw [State.dropSite_lat]
      simp only [Lattice.results, Prod.mk.injEq] at e ⊢
      exact ⟨hw.symm, e.2⟩
  · rw [role]; rfl
  · rfl

/-- After the deadline a module without an update to activate keeps the results of its pitch. -/
theorem State.afterDeadline_results (s : State) (c : Option Nat) (hw : s.lat.windowOpen = false) (hu : s.upd.large.st ≠ .activating) :
    (s.afterDeadline c).lat.results = s.lat.results := by
  have fit : ∀ x, (s.releaseIfFit x).lat.results = s.lat.results ∧ (s.releaseIfFit x).upd = s.upd := fun x => by
    refine ⟨?_, State.releaseIfFit_only (cs := allSave .upd) rfl rfl rfl rfl (by simp [allSave]) (by simp [allSave]) (by simp [allSave])
      (by simp [allSave]) (by simp [allSave]) rfl rfl rfl rfl rfl rfl (OnlyIn.refl _ s) .upd rfl⟩
    unfold State.releaseIfFit
    split
    · rfl
    · split
      · exact State.releaseActive_results s x hw
      · rw [State.bumpIf_lat]; rfl
  have e : ∀ w : State, w.lat.results = s.lat.results → w.upd = s.upd →
      (if w.pair.role ≠ .active then w.setPair fun p => { p with handoverPend := false }
       else if w.pair.handoverPend then ((w.setPair fun p => { p with handoverPend := false }).sendCtrl .released).releaseActive 0x0A
       else if w.upd.large.st = .activating ∧ w.stagedType = 1 then w.activationBoot else w).lat.results = s.lat.results := fun w h1 h2 => by
    split
    · exact h1
    · split
      · have k : ((w.setPair fun p => { p with handoverPend := false }).sendCtrl .released).lat = w.lat :=
          State.sendCtrl_only (cs := allSave .lat) rfl (OnlyIn.refl _ _) .lat rfl
        rw [State.releaseActive_results _ _ (by rw [k]; exact (congrArg Prod.fst h1).trans hw), k, h1]
      · rw [if_neg (by rw [h2]; simp [hu])]
        exact h1
  unfold State.afterDeadline
  cases c with
  | none => exact e s rfl rfl
  | some x => exact e _ (fit x).1 (fit x).2

end Sys2Proof.Machine
end

