-- ==== Sys2Proof/Laws/OpsProfile.lean ====
section
/-! SUPPORT. What the shared operations of profile slots and roles answer: one lemma for each, cited instead of unfolding it. -/
namespace Sys2Proof.Machine

/-! ## Profile slots -/

@[simp] theorem State.chargeSlots_prof (s : State) (n : Nat) : (s.chargeSlots n).prof = s.prof := by
  unfold State.chargeSlots
  split <;> rfl

@[simp] theorem State.setSlot_self (s : State) (p : Fin 4) (f : ProfSlot → ProfSlot) : (s.setSlot p f).prof.slots[p] = f s.prof.slots[p] := vupd_here ..

@[simp] theorem State.slotSt_self (s : State) (p : Fin 4) (st : SlotState) : (s.slotSt p st).prof.slots[p] = { s.prof.slots[p] with st } := vupd_here ..

theorem slotHeld_iff (x : ProfSlot) : slotHeld x = true ↔ x.st = .active ∨ x.st = .pending ∨ x.st = .checking := by simp [slotHeld, or_assoc]

/-- A word written to a slot makes it LOADING (R31). -/
@[simp] theorem State.storeSlot_self (s : State) (p : Fin 4) (off : Nat) (v : Word) : (s.storeSlot p off v).prof.slots[p] =
    { s.prof.slots[p] with mem := memWrites s.prof.slots[p].mem off (leBytes 4 v.toNat), st := .loading,
                           extent := if s.prof.slots[p].st = .loading then max s.prof.slots[p].extent (off + 4) else off + 4 } := by
  unfold State.storeSlot
  dsimp only
  rw [State.bumpIf_prof, State.setSlot_self, State.chargeSlots_prof]

/-- A check starts (R55). -/
theorem State.startCheck_prof (s : State) (m : Master) (p : Fin 4) (act : Option ChangeMode) :
    (s.startCheck m p act).prof.slots[p] = { s.prof.slots[p] with st := .checking, resume := s.prof.slots[p].st } ∧
    (s.startCheck m p act).prof.check =
      some { slot := p, activate := act, started := s.mt, master := m, unlocked := s.saf.unlock.st == .unlocked } ∧
    (s.startCheck m p act).prof.holdSessions = (act == some ChangeMode.stopped) := by
  unfold State.startCheck
  dsimp only
  rw [State.slotSt_self]
  refine ⟨?_, rfl, rfl⟩
  show { (s.setSlot p fun x => { x with resume := x.st }).prof.slots[p] with st := .checking } = _
  rw [State.setSlot_self]

/-- A command of SYS.PROF_CTRL that is not refused (R56). -/
theorem State.profAccess_runs (s : State) (m : Master) (c : ProfCmd) (p md : Fin 4) (mode : ChangeMode) (hm : s.serves m = true)
    (h : modeOf md = some mode) (hr : profRefusal s c p (some mode) = none) :
    s.profAccess m c p md =
      (({ s with prof := { s.prof with ctrlMode := md.val, ctrlSlot := p.val } }).profRun m c p mode).answered m true profCtrl okAnswer := by
  have hr' : profRefusal { s with prof := { s.prof with ctrlMode := md.val, ctrlSlot := p.val } } c p (some mode) = none := hr
  simp only [State.profAccess, foreign_none hm, State.profCommand, h, hr']

/-- A refused command of SYS.PROF_CTRL (R56). -/
theorem State.profAccess_refused (s : State) (m : Master) (c : ProfCmd) (p md : Fin 4) (mode : ChangeMode) (hm : s.serves m = true) (a : Answer)
    (code : Option Nat) (h : modeOf md = some mode) (hr : profRefusal s c p (some mode) = some (a, code)) :
    s.profAccess m c p md =
      ((match code with
        | some k => State.profErr { s with prof := { s.prof with ctrlMode := md.val, ctrlSlot := p.val } } k 0 0xFFFF
        | none => { s with prof := { s.prof with ctrlMode := md.val, ctrlSlot := p.val } })).answered m true profCtrl a := by
  have hr' : profRefusal { s with prof := { s.prof with ctrlMode := md.val, ctrlSlot := p.val } } c p (some mode) = some (a, code) := hr
  cases code <;> simp only [State.profAccess, foreign_none hm, State.profCommand, h, hr']

@[simp] theorem State.profErr_prof (s : State) (code sec rec_ : Nat) :
    (s.profErr code sec rec_).prof = { s.prof with errCode := code, errSection := sec, errRecord := rec_ } := by
  unfold State.profErr
  rw [State.bumpIf_prof]

@[simp] theorem State.profErr_lat (s : State) (code sec rec_ : Nat) : (s.profErr code sec rec_).lat = s.lat := by
  unfold State.profErr
  rw [State.bumpIf_lat]

@[simp] theorem State.slotSt_prof (s : State) (p : Fin 4) (st : SlotState) :
    (s.slotSt p st).prof = { s.prof with slots := vupd s.prof.slots p fun x => { x with st } } := rfl

@[simp] theorem State.slotSt_lat (s : State) (p : Fin 4) (st : SlotState) : (s.slotSt p st).lat = s.lat := rfl

/-- The end of a pending change by a code, but for a LIVE set whose copy has started (R55, R142). -/
theorem State.cancelPending_some (s : State) (q : PendingChange) (code : Nat) (h : s.prof.pend = some q) (hc : ¬(q.mode = .live ∧ s.lat.copying = true)) :
    (s.cancelPending code).prof.pend = none ∧ (s.cancelPending code).prof.errCode = code ∧ (s.cancelPending code).prof.slots[q.slot].st = .valid ∧
    (s.cancelPending code).lat.swapPend = 0 := by
  unfold State.cancelPending
  rw [h]
  dsimp only
  rw [if_neg hc]
  exact ⟨by rw [State.slotSt_prof, State.profErr_prof], by rw [State.slotSt_prof, State.profErr_prof], by rw [State.slotSt_self],
    by rw [State.slotSt_lat, State.profErr_lat]⟩

/-- A LIVE set whose copy has started goes on (R142). -/
theorem State.cancelPending_copying (s : State) (q : PendingChange) (code : Nat) (h : s.prof.pend = some q) (hm : q.mode = .live)
    (hc : s.lat.copying = true) : s.cancelPending code = s := by
  unfold State.cancelPending
  rw [h]
  dsimp only
  rw [if_pos ⟨hm, hc⟩]

/-- A slot becomes the active one (R55). -/
theorem State.takeSlot_prof (s : State) (p : Fin 4) (img : Image) (src : Nat) :
    let q := (s.takeSlot p img src).prof
    q.active = some p ∧ q.image = some img ∧ q.pend = none ∧ q.slots[p].st = .active ∧ q.switchCount = s.prof.switchCount := by
  have e : ∀ w : State, (State.forAll 4 (fun k s => if s.prof.slots[k].st = .active then s.setSlot k fun x => { x with st := .valid } else s) w).prof.switchCount =
      w.prof.switchCount := fun w => by
    refine State.forAll_keeps (fun u => u.prof.switchCount = w.prof.switchCount) (fun i u hu => ?_) rfl
    split <;> exact hu
  have d : ∀ w : State, (w.newMatrix img).prof = w.prof := fun w =>
    State.newMatrix_only (cs := allSave .prof) rfl rfl (OnlyIn.refl _ w) .prof rfl
  unfold State.takeSlot
  dsimp only
  refine ⟨rfl, rfl, rfl, by rw [State.slotSt_self], ?_⟩
  rw [← e s]
  generalize State.forAll 4 _ s = y
  exact congrArg (·.switchCount) (d y)

/-- A switch is counted and recorded (R55, R66). -/
theorem State.countSwitch_prof (s : State) (p : Fin 4) :
    (s.countSwitch p).prof = { s.prof with switchCount := wrapInc 16 s.prof.switchCount } := by
  unfold State.countSwitch
  dsimp only
  rw [State.log_prof]

@[simp] theorem State.countSwitch_lat (s : State) (p : Fin 4) : (s.countSwitch p).lat = s.lat :=
  State.countSwitch_only (cs := allSave .lat) rfl rfl rfl rfl (OnlyIn.refl _ s) .lat rfl

/-- A clamp changes of the profile block its flag at most. -/
theorem State.clampTo_prof (s : State) (img : Image) : ∃ c, (s.clampTo img).prof = { s.prof with clamped := c } := by
  unfold State.clampTo
  dsimp only
  split
  · exact ⟨_, rfl⟩
  · exact ⟨true, foldl_keeps (fun u => u.prof = { s.prof with clamped := true }) (fun x u hu => by rw [State.log_prof]; exact hu) _ rfl⟩

@[simp] theorem State.setSlot_errCode (s : State) (p : Fin 4) (f : ProfSlot → ProfSlot) : (s.setSlot p f).prof.errCode = s.prof.errCode := rfl

@[simp] theorem State.setSlot_check (s : State) (p : Fin 4) (f : ProfSlot → ProfSlot) : (s.setSlot p f).prof.check = s.prof.check := rfl

@[simp] theorem State.setSlot_pend (s : State) (p : Fin 4) (f : ProfSlot → ProfSlot) : (s.setSlot p f).prof.pend = s.prof.pend := rfl

@[simp] theorem State.safetyTaken_prof (s : State) (m : Master) (img : Image) : ((s.takeSafety img).storeSafety m img).prof = s.prof :=
  State.storeSafety_only (cs := allSave .prof) rfl rfl rfl rfl rfl (State.takeSafety_only rfl (OnlyIn.refl _ s)) .prof rfl

@[simp] theorem State.switchLinks_prof (s : State) : (s.forAll 64 fun n s => (s.setStall n (stallSwitched s.mt)).switchLink n).prof = s.prof := by
  refine State.forAll_keeps (fun u => u.prof = s.prof) ?_ rfl
  intro i u hu
  exact Eq.trans (State.switchLink_only (cs := allSave .prof) rfl rfl rfl (OnlyIn.refl _ _) .prof rfl) hu

@[simp] theorem State.switchLinks_lat (s : State) : (s.forAll 64 fun n s => (s.setStall n (stallSwitched s.mt)).switchLink n).lat = s.lat := by
  refine State.forAll_keeps (fun u => u.lat = s.lat) ?_ rfl
  intro i u hu
  exact Eq.trans (State.switchLink_only (cs := allSave .lat) rfl rfl rfl (OnlyIn.refl _ _) .lat rfl) hu

@[simp] theorem State.initialValues_prof (s : State) : s.initialValues.prof = s.prof :=
  State.initialValues_only (cs := allSave .prof) (fun _ => rfl) rfl rfl rfl (OnlyIn.refl _ s) .prof rfl

@[simp] theorem State.initialValues_lat (s : State) : s.initialValues.lat = s.lat :=
  State.initialValues_only (cs := allSave .lat) (fun _ => rfl) rfl rfl rfl (OnlyIn.refl _ s) .lat rfl

/-- An image starts to run (R61, R519). -/
theorem State.activateImage_prof (s : State) (p : Fin 4) (img : Image) (src : Nat) (m : Master) :
    let q := (s.activateImage p img src m).prof
    q.active = some p ∧ q.image = some img ∧ q.pend = none ∧ q.slots[p].st = .active ∧ q.switchCount = s.prof.switchCount ∧
    q.gridFrom = roundUpTo img.header.pitchNs s.mt := by
  obtain ⟨a, b, c, d, e⟩ := s.takeSlot_prof p img src
  have hmt : (s.takeSlot p img src).mt = s.mt := State.takeSlot_only (cs := allSave .mt) rfl rfl rfl (OnlyIn.refl _ s) .mt rfl
  have key : ∀ w : State, w.prof = { (s.takeSlot p img src).prof with gridFrom := roundUpTo img.header.pitchNs (s.takeSlot p img src).mt } →
      let q := (((w.takeSafety img).storeSafety m img).clampTo img).prof
      q.active = some p ∧ q.image = some img ∧ q.pend = none ∧ q.slots[p].st = .active ∧ q.switchCount = s.prof.switchCount ∧
      q.gridFrom = roundUpTo img.header.pitchNs s.mt := fun w hw => by
    obtain ⟨k, hk⟩ := ((w.takeSafety img).storeSafety m img).clampTo_prof img
    rw [hk, State.safetyTaken_prof, hw, hmt]
    generalize (s.takeSlot p img src).prof = y at a b c d e ⊢
    exact ⟨a, b, c, d, e, rfl⟩
  unfold State.activateImage
  dsimp only
  rw [State.bumpIf_prof]
  refine key _ ?_
  rw [State.switchLinks_prof]
  dsimp only
  rw [State.initialValues_prof]
  rfl

/-- The tiles of an image that starts to run. -/
theorem State.activateImage_tiles (s : State) (p : Fin 4) (img : Image) (src : Nat) (m : Master) : (s.activateImage p img src m).lat.tiles = loadTiles img := by
  have hs : ∀ w : State, ((w.takeSafety img).storeSafety m img |>.clampTo img).lat = w.lat := fun w =>
    State.clampTo_only (cs := allSave .lat) rfl rfl rfl rfl rfl (State.storeSafety_only rfl rfl rfl rfl rfl (State.takeSafety_only rfl (OnlyIn.refl _ w))) .lat rfl
  unfold State.activateImage
  dsimp only
  rw [State.bumpIf_lat]
  rw [hs, State.switchLinks_lat]
  dsimp only
  rw [State.initialValues_lat]
  rfl

/-- A handover switch (R355). -/
theorem State.switchHandover_prof (s : State) (p : PendingChange) :
    let q := (s.switchHandover p).prof
    q.active = some p.slot ∧ q.image = some p.image ∧ q.pend = none ∧ q.slots[p.slot].st = .active ∧ q.switchCount = wrapInc 16 s.prof.switchCount := by
  obtain ⟨a, b, c, d, e⟩ := s.takeSlot_prof p.slot p.image 3
  have hl : ∀ w : State, (w.forAll 64 fun n s => if (s.stallRec n).isNone then s.linkOff n else if s.stalls[n].link.st = .off then s.switchLink n else s).prof =
      w.prof := fun w => by
    refine State.forAll_keeps (fun u => u.prof = w.prof) ?_ rfl
    intro i u hu
    split
    · exact Eq.trans (State.linkOff_only (cs := allSave .prof) rfl rfl (OnlyIn.refl _ u) .prof rfl) hu
    · split
      · exact Eq.trans (State.switchLink_only (cs := allSave .prof) rfl rfl rfl (OnlyIn.refl _ u) .prof rfl) hu
      · exact hu
  have hc : ∀ (w : State) o, (w.startNewCables o).prof = w.prof := fun w o =>
    State.startNewCables_only (cs := allSave .prof) rfl (OnlyIn.refl _ w) .prof rfl
  unfold State.switchHandover
  dsimp only
  generalize s.takeSlot p.slot p.image 3 = y at a b c d e ⊢
  rw [State.countSwitch_prof, State.safetyTaken_prof, hl, hc]
  exact ⟨a, b, c, d, congrArg (wrapInc 16) e⟩

/-! ## Roles -/

@[simp] theorem State.setPair_pair (s : State) (f : Pair → Pair) : (s.setPair f).pair = f s.pair := rfl

@[simp] theorem State.setSeljo_activeO (s : State) (f : Seljo → Seljo) : (s.setSeljo f).pair.activeO = s.pair.activeO := rfl

@[simp] theorem State.setPartner_prof (s : State) (f : Partner → Partner) : (s.setPartner f).prof = s.prof := rfl

/-- A role change (R335). -/
theorem State.setRole_role (s : State) (role : Role) (cause : Nat) :
    (s.setRole role cause).pair.role = role ∧ (s.setRole role cause).pair.activeO = s.pair.activeO := by
  unfold State.setRole
  split
  · next h => exact ⟨h, rfl⟩
  · dsimp only
    rw [State.log_pair, State.bumpIf_pair]
    refine ⟨rfl, ?_⟩
    split
    · unfold State.busFollow
      split <;> rfl
    · rfl

/-- The role after a profile handover's release (R355). -/
theorem State.afterRelease_handover (w : State) : (w.afterRelease 0x0B).pair.role = .standby ∧ (w.afterRelease 0x0B).pair.activeO = false := by
  unfold State.afterRelease
  rw [if_neg (by decide), if_pos rfl]
  obtain ⟨a, b⟩ := State.setRole_role (((w.setPair fun p => { p with activeO := false }).setSeljo fun q => { q with lock := true, goodRun := 16 })) .standby 0x0B
  refine ⟨a, ?_⟩
  rw [b, State.setSeljo_activeO, State.setPair_pair]

/-- A profile handover's release leaves the module STANDBY, without ACTIVE_O (R355). -/
theorem State.releaseActive_handover (s : State) (h : s.pair.role = .active) :
    (s.releaseActive 0x0B).pair.role = .standby ∧ (s.releaseActive 0x0B).pair.activeO = false := by
  unfold State.releaseActive
  rw [h]
  dsimp only
  exact State.afterRelease_handover _

end Sys2Proof.Machine
end

