-- ==== Sys2Proof/Laws/OpsSession.lean ====
section
/-! SUPPORT. What the shared operations of sessions answer: one lemma for each, cited instead of unfolding it. -/
namespace Sys2Proof.Machine

/-! ## Sessions -/

@[simp] theorem State.setSess_self (s : State) (b : Fin 12) (f : Session → Session) :
    (s.setSess b f).bays[b] = { s.bays[b] with session := f s.bays[b].session } := vupd_here ..

theorem overdue_none {t : Nat} {d : Option Nat} (h : ∀ x, d = some x → t ≤ x) : overdue t d = false := by
  cases d with
  | none => rfl
  | some x => exact not_expired (h x rfl)

theorem overdue_some {t d : Nat} (h : d < t) : overdue t (some d) = true := is_expired h

/-- The contactor has its feedback, or time for it. -/
theorem State.contactorTimeout_none (s : State) (t : Nat) (b : Fin 12) (h : ∀ c, s.bays[b].outlet.commandAt = some c →
    t ≤ c + ms 100 ∨ s.bays[b].outlet.confirmed = true ∨ s.outletPending b (c + ms 100) = true) : s.contactorTimeout t b = s := by
  unfold State.contactorTimeout
  split
  · next c e =>
    rcases h c e with h | h | h
    · rw [not_expired h]; rfl
    · rw [h]; simp
    · rw [h]; simp
  · rfl

/-- No timer of the state has run out. -/
theorem State.stateTimeout_none (s : State) (t : Nat) (b : Fin 12) (h1 : ∀ d, s.bays[b].session.due = some d → t ≤ d)
    (h2 : ∀ d, s.bays[b].session.seqDue = some d → t ≤ d) (h3 : ∀ d, s.bays[b].session.loopDue = some d → t ≤ d) : s.stateTimeout t b = s := by
  unfold State.stateTimeout
  dsimp only
  rw [overdue_none h1, overdue_none h2, overdue_none h3]
  split <;> rfl

/-- No timer has run out: none acts (R13). -/
theorem State.sessTimeout_onTime (s : State) (t : Nat) (b : Fin 12) (h : s.onTime t b) : (s.arrive t).sessTimeout t b = s.arrive t := by
  obtain ⟨h0, h1, h2, h3⟩ := h
  unfold State.sessTimeout
  rw [(s.arrive t).contactorTimeout_none t b h0]
  exact (s.arrive t).stateTimeout_none t b h1 h2 h3

theorem whenActive_run {t : Nat} {b : Fin 12} {f : State → State} {s : State} (h : s.live = true) (ha : s.active = true) (hb : (s.bayRec b).isSome = true) :
    whenActive t b f s = f (s.arrive t) := by
  have e : ((s.arrive t).active && ((s.arrive t).bayRec b).isSome) = true := by
    rw [show (s.arrive t).active = s.active from rfl, ha, show (s.arrive t).bayRec b = s.bayRec b from rfl, hb]; rfl
  unfold whenActive
  rw [whenLive_live h, if_pos e]

/-- What a message changes before it acts: the count of messages in the session, and the timers that wait for it (R220, R229). -/
@[simp] theorem State.countIn_self (s : State) (b : Fin 12) : (s.countIn b).bays[b] =
    { s.bays[b] with session := { s.bays[b].session with tcpIn := wrapInc 32 s.bays[b].session.tcpIn, seqDue := none, loopDue := none } } :=
  State.setSess_self ..

/-- A well-formed message in a session that goes on (R213). -/
theorem vehicleMsg_run {t : Nat} {b : Fin 12} {n : RespName} {f : State → State} {s : State} (h : s.live = true) (ha : s.active = true)
    (hb : (s.bayRec b).isSome = true) (ht : s.onTime t b) (hd : s.bays[b].session.doomed = false) (htls : s.bays[b].session.tls = true)
    (hi : s.bays[b].session.st ≠ .idle) : vehicleMsg t b true n f s = f ((s.arrive t).countIn b) := by
  unfold vehicleMsg
  rw [whenActive_run h ha hb]
  dsimp only
  rw [s.sessTimeout_onTime t b ht]
  simp [-Fin.getElem_fin, hd, htls, hi]

/-- A message that does not decode (R221). -/
theorem vehicleMsg_bad {t : Nat} {b : Fin 12} {n : RespName} {f : State → State} {s : State} (h : s.live = true) (ha : s.active = true)
    (hb : (s.bayRec b).isSome = true) (ht : s.onTime t b) (hd : s.bays[b].session.doomed = false) (htls : s.bays[b].session.tls = true)
    (hi : s.bays[b].session.st ≠ .idle) : vehicleMsg t b false n f s = ((s.arrive t).countIn b).badMessage b n := by
  unfold vehicleMsg
  rw [whenActive_run h ha hb]
  dsimp only
  rw [s.sessTimeout_onTime t b ht]
  simp [-Fin.getElem_fin, hd, htls, hi]

/-- What the way of a response depends on: the pair block and the keys of the module. -/
def State.sealing (s : State) : Pair × Vault × Metrology := (s.pair, s.vault, s.met)

/-- The pair key depends on the keys of the module alone. -/
theorem State.pairKey_of {s w : State} (h : w.sealing = s.sealing) : w.pairKey = s.pairKey := by
  simp only [State.sealing, Prod.mk.injEq] at h
  simp only [State.pairKey, State.anyKey, State.anySlot, State.heldKeys, keyUsable, State.lcBit, State.keySlot, State.receiptKey, State.dwk, h.2.1, h.2.2]

/-- The key that seals SESSION depends on the same. -/
theorem State.sessionKey_of {s w : State} (h : w.sealing = s.sealing) : w.sessionKey = s.sessionKey := by
  unfold State.sessionKey
  rw [State.pairKey_of h, show w.pair = s.pair from congrArg Prod.fst h]

/-- A key that serves leaves the bays alone. -/
@[simp] theorem State.serveUse_bays (s : State) (m : Master) (use : Nat) : (s.serveUse m use).bays = s.bays := by
  unfold State.serveUse State.noteUse
  split
  · rw [State.violates_bays]
  · split <;> rfl

/-- SESSION leaves the bays alone. -/
@[simp] theorem State.tellSession_bays (s : State) (b : Fin 12) : (s.tellSession b).bays = s.bays := by
  have send : ∀ (w : State) ty fl tm p, (w.sendSeljo ty fl tm p).bays = w.bays := fun w ty fl tm p => by
    unfold State.sendSeljo
    dsimp only
    split <;> rfl
  have draw : ∀ (n : Nat) (w : State), (w.drawBytes n).2.bays = w.bays := fun n => by
    induction n with
    | zero => exact fun _ => rfl
    | succ n ih => exact fun w => ih w.drawByte.2
  unfold State.tellSession State.sendSession
  split
  · dsimp only
    rw [send, draw, State.serveUse_bays]
  · split
    · rw [State.serveUse_bays]
    · rfl

@[simp] theorem State.answerSession_self (s : State) (b : Fin 12) : (s.answerSession b).bays[b] =
    { s.bays[b] with session := { s.bays[b].session with
      seqDue := some (s.mt + secs 60), loopDue := if s.bays[b].session.st = .power then some (s.mt + secs s.bays[b].loopS) else none,
      tcpOut := wrapInc 32 s.bays[b].session.tcpOut } } := by
  unfold State.answerSession State.armSequence
  rw [State.setSess_self, State.setSess_self]

/-- A response that leaves. -/
theorem State.sendResp_self (s : State) (b : Fin 12) (r : Resp) : ∃ z w, (s.sendResp b r).bays[b] =
    { s.bays[b] with resp := some r, heldResp := none, session := { s.bays[b].session with seqDue := z, loopDue := w } } := by
  unfold State.sendResp State.armSequence
  rw [State.setBay_self, State.setSess_self]
  exact ⟨_, _, rfl⟩

/-- What a response changes of its bay: the response itself, two timers and the count of answers of the session (R223, R229, R343). -/
theorem State.respond_bay (s : State) (b : Fin 12) (r : Resp) : ∃ x y z w k, (s.respond b r).bays[b] =
    { s.bays[b] with resp := x, heldResp := y, session := { s.bays[b].session with seqDue := z, loopDue := w, tcpOut := k } } := by
  unfold State.respond
  dsimp only
  split
  · rw [State.setBay_self, State.tellSession_bays, State.answerSession_self]
    exact ⟨_, _, _, _, _, rfl⟩
  · obtain ⟨z, w, e⟩ := ((s.answerSession b).tellSession b).sendResp_self b r
    rw [e, State.tellSession_bays, State.answerSession_self]
    exact ⟨_, _, _, _, _, rfl⟩

/-- Where the response of a bay stands (R343). -/
theorem State.respond_response (s w : State) (b : Fin 12) (r : Resp) (h : w.sealing = s.sealing) :
    s.responseIn (w.respond b r) b = some r := by
  unfold State.responseIn State.respond
  rw [State.sessionKey_of h]
  dsimp only
  split
  · rw [State.setBay_self]
  · obtain ⟨_, _, e⟩ := ((w.answerSession b).tellSession b).sendResp_self b r
    rw [e]

/-- Entry to a session state (R220). -/
@[simp] theorem State.goSess_self (s : State) (b : Fin 12) (st : SessSt) : (s.goSess b st).bays[b] = { s.bays[b] with session :=
    { s.bays[b].session with st, entered := s.mt, due := (stateSecs s.bays[b] st).map fun n => s.mt + secs n, loopDue := none } } := by
  unfold State.goSess
  dsimp only
  rw [State.bump_bays, State.setSess_self]

@[simp] theorem State.goSess_pair (s : State) (b : Fin 12) (st : SessSt) : (s.goSess b st).pair = s.pair := rfl

@[simp] theorem State.goSess_sealing (s : State) (b : Fin 12) (st : SessSt) : (s.goSess b st).sealing = s.sealing := rfl

@[simp] theorem State.setSess_pair (s : State) (b : Fin 12) (f : Session → Session) : (s.setSess b f).pair = s.pair := rfl

@[simp] theorem State.setSess_sealing (s : State) (b : Fin 12) (f : Session → Session) : (s.setSess b f).sealing = s.sealing := rfl

@[simp] theorem State.setSess_mt (s : State) (b : Fin 12) (f : Session → Session) : (s.setSess b f).mt = s.mt := rfl

@[simp] theorem State.countIn_pair (s : State) (b : Fin 12) : (s.countIn b).pair = s.pair := rfl

@[simp] theorem State.countIn_sealing (s : State) (b : Fin 12) : (s.countIn b).sealing = s.sealing := rfl

@[simp] theorem State.countIn_mt (s : State) (b : Fin 12) : (s.countIn b).mt = s.mt := rfl

/-- The end code a session ends with: that of the safety demand that is ending it, or the one given (log 54). -/
def ownCode (q : Session) (code : Nat) : Nat := if q.doomed then 0x0D else code

/-- The end code a session keeps: its first one, once it has one of its own (R231). -/
def keptCode (q : Session) (code : Nat) : Nat := if ownCode q code ≠ 0 ∧ (q.endCode = 0 ∨ q.codeOld) then ownCode q code else q.endCode

theorem State.endWith_def (s : State) (b : Fin 12) (code : Nat) : s.endWith b code =
    if ownCode s.bays[b].session code ≠ 0 ∧ (s.bays[b].session.endCode = 0 ∨ s.bays[b].session.codeOld) then
      (s.setSess b fun q => { q with endCode := ownCode s.bays[b].session code, codeOld := false }).setBay b
        fun x => { x with timeouts := if timeoutEnd (ownCode s.bays[b].session code) then satInc 8 x.timeouts else x.timeouts }
    else s := rfl

theorem State.endWith_bay (s : State) (b : Fin 12) (code : Nat) : ∃ k o, (s.endWith b code).bays[b] =
    { s.bays[b] with session := { s.bays[b].session with endCode := keptCode s.bays[b].session code, codeOld := o }, timeouts := k } := by
  rw [State.endWith_def]
  unfold keptCode
  split
  · exact ⟨_, false, (State.setBay_self ..).trans (by rw [State.setSess_self])⟩
  · exact ⟨_, s.bays[b].session.codeOld, rfl⟩

@[simp] theorem State.endWith_pair (s : State) (b : Fin 12) (code : Nat) : (s.endWith b code).pair = s.pair := by
  rw [State.endWith_def]
  split <;> rfl

@[simp] theorem State.endWith_sealing (s : State) (b : Fin 12) (code : Nat) : (s.endWith b code).sealing = s.sealing := by
  rw [State.endWith_def]
  split <;> rfl

@[simp] theorem State.endWith_mt (s : State) (b : Fin 12) (code : Nat) : (s.endWith b code).mt = s.mt := by
  rw [State.endWith_def]
  split <;> rfl

/-- Entry to CLOSING (R220). -/
theorem State.enterClosing_bay (s : State) (b : Fin 12) (code : Nat) : ∃ k o, (s.enterClosing b code).bays[b] =
    { s.bays[b] with timeouts := k, session := { s.bays[b].session with
      st := .closing, entered := s.mt, due := some (s.mt + secs 5), loopDue := none, bid := followAsk s.bays[b].session.bid {}, ask := {},
      authPend := false, doomed := false, endCode := keptCode s.bays[b].session code, codeOld := o } } := by
  obtain ⟨k, o, h⟩ := s.endWith_bay b code
  refine ⟨k, o, ?_⟩
  rw [State.enterClosing, State.goSess_self, State.setSess_self, h, State.setSess_mt, State.endWith_mt]
  rfl

@[simp] theorem State.enterClosing_pair (s : State) (b : Fin 12) (code : Nat) : (s.enterClosing b code).pair = s.pair := by
  rw [State.enterClosing, State.goSess_pair, State.setSess_pair, State.endWith_pair]

@[simp] theorem State.enterClosing_sealing (s : State) (b : Fin 12) (code : Nat) : (s.enterClosing b code).sealing = s.sealing := by
  rw [State.enterClosing, State.goSess_sealing, State.setSess_sealing, State.endWith_sealing]

/-- A session of a bay that is not energised winds down to CLOSING (R221). -/
theorem State.wind_closing (s : State) (b : Fin 12) (code : Nat) (he : s.bays[b].energised = false)
    (h : s.bays[b].session.st ≠ .idle ∧ s.bays[b].session.st ≠ .closing) : s.wind b code = s.enterClosing b code := by
  unfold State.wind
  rw [he]
  split
  · next e => exact absurd e h.1
  · rw [if_neg (by decide), if_neg h.2]

/-- Free octets change only the count of free values. -/
theorem State.drawBytes_draws (s : State) (n : Nat) : (s.drawBytes n).2 = { s with draws := s.draws + n } := by
  induction n generalizing s with
  | zero => rfl
  | succ n ih =>
    show (s.drawByte.2.drawBytes n).2 = _
    rw [ih]
    show { s with draws := s.draws + 1 + n } = _
    rw [Nat.add_assoc, Nat.add_comm 1 n]

theorem State.drawBytes_arrive (s : State) (t n : Nat) : ((s.arrive t).drawBytes n).1 = (s.drawBytes n).1 := by
  have h : ∀ (n : Nat) (s u : State), u.draws = s.draws → (u.drawBytes n).1 = (s.drawBytes n).1 := fun n => by
    induction n with
    | zero => intro s u _; rfl
    | succ n ih =>
      intro s u e
      show u.drawByte.1 :: (u.drawByte.2.drawBytes n).1 = s.drawByte.1 :: (s.drawByte.2.drawBytes n).1
      rw [ih s.drawByte.2 u.drawByte.2 (by show u.draws + 1 = s.draws + 1; rw [e]), State.drawByte, State.drawByte, e]
  exact h n s _ rfl

/-- A word committed to a tile changes the lattice alone. -/
theorem State.commitWord_eq (s : State) (t a i : Nat) (v : Int) : ∃ l, s.commitWord t a i v = { s with lat := l } := by
  unfold State.commitWord
  dsimp only
  split <;> exact ⟨_, rfl⟩

/-- What the session writes of T: the field, and words of the lattice (R216). -/
theorem State.writeTarget_eq (s : State) (b : Fin 12) (v : Nat) :
    ∃ l, s.writeTarget b v = { s.setSess b (fun q => { q with target := v }) with lat := l } := by
  unfold State.writeTarget State.commitTarget
  split
  · exact State.commitWord_eq ..
  · exact ⟨_, rfl⟩

/-- The set target of a bay (R216). -/
@[simp] theorem State.writeTarget_self (s : State) (b : Fin 12) (v : Nat) : (s.writeTarget b v).bays[b] =
    { s.bays[b] with session := { s.bays[b].session with target := v } } := by
  obtain ⟨l, h⟩ := s.writeTarget_eq b v
  rw [h]
  exact State.setSess_self s b fun q => { q with target := v }

@[simp] theorem State.writeTarget_pair (s : State) (b : Fin 12) (v : Nat) : (s.writeTarget b v).pair = s.pair := by
  obtain ⟨l, h⟩ := s.writeTarget_eq b v
  rw [h]
  rfl

@[simp] theorem State.writeTarget_sealing (s : State) (b : Fin 12) (v : Nat) : (s.writeTarget b v).sealing = s.sealing := by
  obtain ⟨l, h⟩ := s.writeTarget_eq b v
  rw [h]
  rfl

@[simp] theorem State.writeTarget_mt (s : State) (b : Fin 12) (v : Nat) : (s.writeTarget b v).mt = s.mt := by
  obtain ⟨l, h⟩ := s.writeTarget_eq b v
  rw [h]
  rfl

/-- Entry to RAMP_DOWN (R220). -/
theorem State.enterRampDown_bay (s : State) (b : Fin 12) (code : Nat) : ∃ k o, (s.enterRampDown b code).bays[b] =
    { s.bays[b] with timeouts := k, session := { s.bays[b].session with
      st := .rampDown, entered := s.mt, due := some (s.mt + secs 2), loopDue := none, bid := followAsk s.bays[b].session.bid {}, ask := {},
      target := 0, endCode := keptCode s.bays[b].session code, codeOld := o } } := by
  obtain ⟨k, o, h⟩ := s.endWith_bay b code
  refine ⟨k, o, ?_⟩
  rw [State.enterRampDown, State.goSess_self, State.writeTarget_self, State.setSess_self, h, State.writeTarget_mt, State.setSess_mt, State.endWith_mt]
  rfl

@[simp] theorem State.enterRampDown_pair (s : State) (b : Fin 12) (code : Nat) : (s.enterRampDown b code).pair = s.pair := by
  rw [State.enterRampDown, State.goSess_pair, State.writeTarget_pair, State.setSess_pair, State.endWith_pair]

@[simp] theorem State.enterRampDown_sealing (s : State) (b : Fin 12) (code : Nat) : (s.enterRampDown b code).sealing = s.sealing := by
  rw [State.enterRampDown, State.goSess_sealing, State.writeTarget_sealing, State.setSess_sealing, State.endWith_sealing]

/-- The outlet of a bay after a command. -/
theorem State.commandOutlet_bay (s : State) (b : Fin 12) (c : Bool) : ∃ k, (s.commandOutlet b c).bays[b] =
    { s.bays[b] with outlet := { s.bays[b].outlet with close := c, commandAt := k } } := by
  unfold State.commandOutlet
  by_cases h : s.bays[b].outlet.close = c
  · subst h
    exact ⟨s.bays[b].outlet.commandAt, by rw [if_pos rfl]⟩
  · exact ⟨some s.mt, by rw [if_neg h, State.bump_bays, State.setBay_self]⟩

@[simp] theorem State.commandOutlet_pair (s : State) (b : Fin 12) (c : Bool) : (s.commandOutlet b c).pair = s.pair := by
  unfold State.commandOutlet
  split <;> rfl

theorem withBay_some {b : Fin 12} {f : BayRec → State → State} {s : State} {r : BayRec} (h : s.bayRec b = some r) : withBay b f s = f r s := by
  unfold withBay
  rw [h]

/-- What the insulation monitor of a bay shows depends on its choice, the safety block and the image alone. -/
theorem State.insulationBad_of (s w : State) (b : Fin 12) (h1 : w.bays[b].imdSi = s.bays[b].imdSi) (h2 : w.saf = s.saf) :
    w.insulationBad b = s.insulationBad b := by
  simp only [State.insulationBad, State.safRec, h1, h2]

/-- The present voltage of a bay depends on the stalls alone (R217). -/
theorem State.exactVolts_of (s w : State) (b : Fin 12) (h1 : w.stalls = s.stalls) : w.exactVolts b = s.exactVolts b := by
  simp only [State.exactVolts, senseStall, h1]

/-- A safe stop request leaves the sessions alone. -/
@[simp] theorem State.requestSafeStop_session (s : State) (a b : Fin 12) : (s.requestSafeStop a).bays[b].session = s.bays[b].session := by
  have e := State.requestSafeStop_only (cs := allSave (.bay b)) (a1 := a) rfl rfl rfl (fun _ => rfl) rfl rfl rfl (OnlyIn.refl _ s) (.bay b) (by simp [allSave])
  have e := congrArg Bay.session e
  rwa [Bay.rest_session, Bay.rest_session] at e

@[simp] theorem State.requestSafeStop_faults (s : State) (a b : Fin 12) : (s.requestSafeStop a).bays[b].faults = s.bays[b].faults := by
  have e := State.requestSafeStop_only (cs := allSave (.bay b)) (a1 := a) rfl rfl rfl (fun _ => rfl) rfl rfl rfl (OnlyIn.refl _ s) (.bay b) (by simp [allSave])
  have e := congrArg Bay.faults e
  rwa [Bay.rest_faults, Bay.rest_faults] at e

@[simp] theorem State.requestSafeStop_mt (s : State) (a : Fin 12) : (s.requestSafeStop a).mt = s.mt :=
  State.requestSafeStop_only (cs := allSave .mt) rfl rfl rfl (fun _ => rfl) rfl rfl rfl (OnlyIn.refl _ s) .mt rfl

/-- Entry to FAULT (R221, R231). -/
theorem State.enterFault_session (s : State) (b : Fin 12) (code : Nat) :
    let q := (s.enterFault b code).bays[b]
    q.session.st = .fault ∧ q.session.entered = s.mt ∧ q.session.endCode = keptCode s.bays[b].session code ∧ q.faults = satInc 8 s.bays[b].faults := by
  obtain ⟨k, o, h⟩ := s.endWith_bay b code
  have key : ∀ w : State, w = ((((s.endWith b code).setSess b fun q => { bidNone q with authPend := false, doomed := false }).setBay b
        fun x => { x with faults := satInc 8 x.faults }).goSess b .fault) →
      w.bays[b].session.st = .fault ∧ w.bays[b].session.entered = s.mt ∧ w.bays[b].session.endCode = keptCode s.bays[b].session code ∧
      w.bays[b].faults = satInc 8 s.bays[b].faults := fun w hw => by
    rw [hw, State.goSess_self, State.setBay_self, State.setSess_self, h]
    refine ⟨rfl, ?_, rfl, rfl⟩
    rw [State.setBay_mt, State.setSess_mt, State.endWith_mt]
  unfold State.enterFault
  dsimp only
  generalize hw : State.goSess _ b .fault = w
  obtain ⟨a, b', c, d⟩ := key w hw.symm
  split
  · rw [State.requestSafeStop_session, State.requestSafeStop_faults]; exact ⟨a, b', c, d⟩
  · exact ⟨a, b', c, d⟩

/-- Entry to ENDED (R218, R231). -/
theorem State.enterEnded_bay (s : State) (b : Fin 12) (code : Nat) :
    let q := (s.enterEnded b code).bays[b]
    q.session.st = .ended ∧ q.session.entered = s.mt ∧ q.session.endCode = keptCode s.bays[b].session code ∧ q.outlet.close = false ∧
    q.errTls = s.bays[b].errTls ∧ q.session.tls = false := by
  obtain ⟨k, o, h⟩ := s.endWith_bay b code
  have c : ∀ w : State, (w.commandOutlet b false).mt = w.mt := fun w => by
    unfold State.commandOutlet
    split
    · rfl
    · rw [State.bump_mt, State.setBay_mt]
  unfold State.enterEnded
  dsimp only
  generalize hw : (s.endWith b code).setSess b (fun q => { bidNone q with authPend := false, doomed := false, tls := false, secrets := [] }) = w
  have e : w.bays[b] = { s.bays[b] with timeouts := k, session :=
      { bidNone { s.bays[b].session with endCode := keptCode s.bays[b].session code, codeOld := o } with
        authPend := false, doomed := false, tls := false, secrets := [] } } := by rw [← hw, State.setSess_self, h]
  have m : w.mt = s.mt := by rw [← hw, State.setSess_mt, State.endWith_mt]
  obtain ⟨d, hd⟩ := w.commandOutlet_bay b false
  rw [State.log_bays, State.goSess_self, hd, c, m, e]
  exact ⟨rfl, rfl, rfl, rfl, rfl, rfl⟩

/-- A session of an energised bay winds down by RAMP_DOWN (R221). -/
theorem State.wind_ramp (s : State) (b : Fin 12) (code : Nat) (he : s.bays[b].energised = true)
    (h : s.bays[b].session.st ≠ .idle ∧ s.bays[b].session.st ≠ .rampDown) : s.wind b code = s.enterRampDown b code := by
  unfold State.wind
  rw [he]
  split
  · next e => exact absurd e h.1
  · rw [if_pos rfl, if_neg h.2]

/-- The two states hold the same bay. -/
theorem bay_same {x y : Bay} (h1 : y.outlet = x.outlet) (h2 : y.settings = x.settings) (h3 : y.rest = x.rest) : y = x := by
  cases x
  cases y
  simp only [Bay.settings, Bay.rest, Bay.mk.injEq] at h1 h2 h3 ⊢
  simp only [h1, h2, h3, and_self]

/-- The whole role block with the rest of PAIR is the pair block. -/
theorem pair_same {x y : Pair} (h1 : (y.role, y.activeO) = (x.role, x.activeO)) (h2 : y.rest = x.rest) : y = x := by
  cases x
  cases y
  simp only [Pair.rest, Pair.mk.injEq, Prod.mk.injEq] at h1 h2 ⊢
  simp only [h1, h2, and_self]

/-- The contacts of a bay after a sample (R208). -/
def State.pilotsSampled (s : State) (b : Fin 12) (p : PilotSample) : State :=
  (s.setBay b fun y => { y with pilot := pilotSample s.bays[b].ceDeb s.bays[b].pilot p }).bumpIf
    (s.bays[b].pilot.ce != (pilotSample s.bays[b].ceDeb s.bays[b].pilot p).ce || s.bays[b].pilot.id != (pilotSample s.bays[b].ceDeb s.bays[b].pilot p).id) 4

@[simp] theorem State.pilotsSampled_self (s : State) (b : Fin 12) (p : PilotSample) : (s.pilotsSampled b p).bays[b] =
    { s.bays[b] with pilot := pilotSample s.bays[b].ceDeb s.bays[b].pilot p } := by
  rw [State.pilotsSampled, State.bumpIf_bays, State.setBay_self]

/-- A sample away from a role change (R343). -/
theorem State.samplePilot_far (s : State) (t : Nat) (b : Fin 12) (p : PilotSample) (n : s.nearRoleChange t = false) :
    s.samplePilot t b p = if (s.active && (s.bayRec b).isSome) = true then ((s.pilotsSampled b p).sessTimeout t b).pilotTrigger b s.bays[b].pilot.ce
      else s.pilotsSampled b p := by
  have h : ((s.pilotsSampled b p).active && ((s.pilotsSampled b p).bayRec b).isSome) = (s.active && (s.bayRec b).isSome) := by
    rw [State.pilotsSampled, State.bumpIf_active, State.bumpIf_bayRec]; rfl
  unfold State.samplePilot
  simp only [n, Bool.false_eq_true, if_false]
  rw [← h]
  rfl

end Sys2Proof.Machine
end

