-- ==== Sys2Proof/Laws/OpsMetrology.lean ====
section
/-! SUPPORT. What the shared operations of auxiliary outputs and metrology answer: one lemma for each, cited instead of unfolding it. -/
namespace Sys2Proof.Machine

/-! ## Auxiliary outputs -/

@[simp] theorem State.setAux_self (s : State) (n : Fin 24) (f : AuxCh → AuxCh) : (s.setAux n f).aux.ch[n] = f s.aux.ch[n] := vupd_here ..

@[simp] theorem State.setAux_coolMs (s : State) (n : Fin 24) (f : AuxCh → AuxCh) : (s.setAux n f).aux.coolMs = s.aux.coolMs := rfl

@[simp] theorem State.setAux_retryMs (s : State) (n : Fin 24) (f : AuxCh → AuxCh) : (s.setAux n f).aux.retryMs = s.aux.retryMs := rfl

@[simp] theorem State.setAux_retryMax (s : State) (n : Fin 24) (f : AuxCh → AuxCh) : (s.setAux n f).aux.retryMax = s.aux.retryMax := rfl

@[simp] theorem State.setAux_tInrush (s : State) (n : Fin 24) (f : AuxCh → AuxCh) : (s.setAux n f).aux.tInrush = s.aux.tInrush := rfl

@[simp] theorem State.setAux_lastShed (s : State) (n : Fin 24) (f : AuxCh → AuxCh) : (s.setAux n f).aux.lastShed = s.aux.lastShed := rfl

theorem State.setAux_other (s : State) (n k : Fin 24) (f : AuxCh → AuxCh) (h : n ≠ k) : (s.setAux n f).aux.ch[k] = s.aux.ch[k] := vupd_other _ _ _ _ h

theorem State.driveAux_self (s : State) (t : Nat) (n : Fin 24) (h : s.auxDriven = true) : (s.driveAux t n).aux.ch[n] =
    if s.aux.ch[n].tripped then s.aux.ch[n] else applyDuty t (s.auxDuty n) s.aux.ch[n] := by
  unfold State.driveAux
  dsimp only
  rw [if_pos h, State.setAux_self]

/-- The outputs without their channels. -/
def Aux.params (a : Aux) : Aux := { a with ch := Vector.replicate 24 {} }

/-- The two states differ, as far as the outputs go, in one channel at most. -/
def AuxStep (n : Fin 24) (s u : State) : Prop := u.aux.params = s.aux.params ∧ ∀ k, n ≠ k → u.aux.ch[k] = s.aux.ch[k]

theorem AuxStep.refl (n : Fin 24) (s : State) : AuxStep n s s := ⟨rfl, fun _ _ => rfl⟩

theorem AuxStep.trans {n : Fin 24} {s u v : State} (h : AuxStep n s u) (g : AuxStep n u v) : AuxStep n s v :=
  ⟨g.1.trans h.1, fun k e => (g.2 k e).trans (h.2 k e)⟩

theorem AuxStep.setAux (s : State) (n : Fin 24) (f : AuxCh → AuxCh) : AuxStep n s (s.setAux n f) := ⟨rfl, fun _ e => State.setAux_other _ _ _ _ e⟩

theorem AuxStep.bump (n : Fin 24) (s : State) (k : Fin 16) : AuxStep n s (s.bump k) := ⟨rfl, fun _ _ => rfl⟩

theorem AuxStep.log (n : Fin 24) (s : State) (c i a b : Nat) (w : Bytes) : AuxStep n s (s.log c i a b w) :=
  ⟨by rw [State.log_aux], fun _ _ => by rw [State.log_aux]⟩

theorem AuxStep.logIf {n : Fin 24} {s w : State} {c i a b : Nat} (h : AuxStep n s w) : AuxStep n s (if w.live then w.log c i a b else w) := by
  split
  · exact h.trans (AuxStep.log ..)
  · exact h

theorem AuxStep.both {n : Fin 24} {s u v : State} {c : Prop} [Decidable c] (h : AuxStep n s u) (g : AuxStep n s v) : AuxStep n s (if c then u else v) := by
  split
  · exact h
  · exact g

theorem State.tripAux_step (s : State) (t : Nat) (n : Fin 24) (c : Nat) : AuxStep n s (s.tripAux t n c) := by
  unfold State.tripAux
  dsimp only
  by_cases h : (s.aux.ch[n].retrying && decide (s.aux.retryMax ≤ if s.aux.ch[n].retrying then min 7 (s.aux.ch[n].retries + 1) else s.aux.ch[n].retries)) = true
  · rw [if_pos h]
    exact AuxStep.logIf (AuxStep.setAux ..)
  · rw [if_neg h]
    exact (AuxStep.setAux ..).trans (AuxStep.bump ..)

/-- A channel's check changes only its own channel (R250). -/
theorem State.protectAux_step (s : State) (t : Nat) (n : Fin 24) (q : AuxSense) : AuxStep n s (s.protectAux t n q) := by
  unfold State.protectAux
  dsimp only
  generalize hw : s.setAux n _ = w
  have k0 : AuxStep n s w := by rw [← hw]; exact AuxStep.setAux ..
  have k : AuxStep n s (if q.swing = true then w.freewheelAux n else w) :=
    AuxStep.both (k0.trans ((AuxStep.setAux ..).trans (AuxStep.bump ..))) k0
  generalize (if q.swing = true then w.freewheelAux n else w) = v at k ⊢
  have one : ∀ (f : AuxCh → AuxCh) b, AuxStep n s ((v.setAux n f).bump b) := fun f b => k.trans ((AuxStep.setAux ..).trans (AuxStep.bump ..))
  exact AuxStep.both (AuxStep.both (one ..) k) (AuxStep.both (one ..) (AuxStep.both k (AuxStep.both (k.trans (State.tripAux_step ..))
    (AuxStep.both (k.trans (State.tripAux_step ..)) (AuxStep.both (one ..) (AuxStep.both (one ..) k))))))

/-- A trip (R251). -/
theorem State.tripAux_self (s : State) (t : Nat) (n : Fin 24) (c : Nat) (h : s.aux.ch[n].retrying = false) : (s.tripAux t n c).aux.ch[n] =
    { auxOff s.aux.ch[n] with fault := c, retrying := false, retryDue := some (t + ms (100 * s.aux.retryMs)) } := by
  unfold State.tripAux
  dsimp only
  rw [if_neg (by simp [-Fin.getElem_fin, h]), State.bump_aux, State.setAux_self]
  simp [-Fin.getElem_fin, h, auxOff]

/-- A trip that ends a retry, at the retry limit (R251). -/
theorem State.tripAux_locked (s : State) (t : Nat) (n : Fin 24) (c : Nat) (h : s.aux.ch[n].retrying = true)
    (hk : s.aux.retryMax ≤ min 7 (s.aux.ch[n].retries + 1)) : (s.tripAux t n c).aux.ch[n] =
    { auxOff s.aux.ch[n] with fault := 7, retries := min 7 (s.aux.ch[n].retries + 1), retrying := false, retryDue := none } := by
  have logIf : ∀ (w : State) c i a b, (if w.live then w.log c i a b else w).aux = w.aux := fun w c i a b => by
    split
    · rw [State.log_aux]
    · rfl
  unfold State.tripAux
  dsimp only
  rw [if_pos (by rw [h]; simp [-Fin.getElem_fin]; simpa using hk), logIf, State.setAux_self]
  simp [-Fin.getElem_fin, h, auxOff]

/-- The checks of a round: channel `n` as its own check leaves it (R250). -/
theorem auxProtectionCheck_self (s : State) (t : Nat) (n : Fin 24) (l : List AuxSense) (q : AuxSense) (h : l[n.val]? = some q)
    (h0 : s.aux.gone = false) :
    ∃ w : State, w.aux.params = s.aux.params ∧ w.aux.ch[n] = s.aux.ch[n] ∧ (doAuxProtectionCheck t l s).aux.ch[n] = (w.protectAux t n q).aux.ch[n] := by
  have other : ∀ (j : Fin 24) (u : State), j ≠ n → AuxStep j u (match l[j.val]? with | some q => u.protectAux t j q | none => u) := fun j u hj => by
    split
    · exact State.protectAux_step ..
    · exact AuxStep.refl ..
  unfold doAuxProtectionCheck
  dsimp only
  rw [if_neg (by rw [show (s.arrive t).aux.gone = s.aux.gone from rfl, h0]; exact Bool.false_ne_true)]
  refine State.forAll_at (f := fun n s => match l[n.val]? with | some q => s.protectAux t n q | none => s) n
    (Q := fun u => u.aux.params = s.aux.params ∧ u.aux.ch[n] = s.aux.ch[n])
    (R := fun u => ∃ w : State, w.aux.params = s.aux.params ∧ w.aux.ch[n] = s.aux.ch[n] ∧ u.aux.ch[n] = (w.protectAux t n q).aux.ch[n])
    (fun j u hj hu => ?_) (fun u hu => ?_) (fun j u hj hu => ?_) (s.arrive t) ⟨rfl, rfl⟩
  · obtain ⟨a, b⟩ := other j u hj
    exact ⟨a.trans hu.1, (b n hj).trans hu.2⟩
  · rw [h]
    exact ⟨u, hu.1, hu.2, rfl⟩
  · obtain ⟨w, a, b, c⟩ := hu
    exact ⟨w, a, b, ((other j u hj).2 n hj).trans c⟩

/-! ## Metrology -/

/-- A tally with its residue, counted in 1/28 800 000 of its unit. -/
def tallyUnits (x : Vector Nat 32 × Vector Nat 32) (i : Fin 32) : Nat := 28800000 * x.1[i] + x.2[i]

/-- `z` holds `e` units more than `x` in the tally, up to the wrap of its 64 bits. -/
def TallyGains (x z : Vector Nat 32 × Vector Nat 32) (i : Fin 32) (e : Nat) : Prop :=
  tallyUnits z i % (28800000 * 2 ^ 64) = (tallyUnits x i + e) % (28800000 * 2 ^ 64)

theorem TallyGains.refl (x : Vector Nat 32 × Vector Nat 32) (i : Fin 32) : TallyGains x x i 0 := rfl

theorem TallyGains.trans {x y z : Vector Nat 32 × Vector Nat 32} {i : Fin 32} {e f : Nat} (h : TallyGains x y i e) (g : TallyGains y z i f) :
    TallyGains x z i (e + f) := by
  unfold TallyGains at *
  rw [g, Nat.add_mod, h, ← Nat.add_mod, Nat.add_assoc]

theorem addTally_other (x : Vector Nat 32 × Vector Nat 32) (k e : Nat) (i : Fin 32) (h : k % 32 ≠ i.val) : TallyGains x (addTally x k e) i 0 := by
  have n : (finMod 32 k : Fin 32) ≠ i := fun q => h (by rw [← q]; rfl)
  unfold TallyGains tallyUnits addTally
  simp only [vupd_other _ _ _ _ n, Nat.add_zero]

theorem addTally_self (x : Vector Nat 32 × Vector Nat 32) (k e : Nat) (i : Fin 32) (h : k % 32 = i.val) : TallyGains x (addTally x k e) i e := by
  have n : (finMod 32 k : Fin 32) = i := Fin.ext h
  unfold TallyGains tallyUnits addTally
  simp only [n, vupd_here]
  generalize x.1[i] = a
  generalize x.2[i] = b
  have q : (b + e) / 28800000 * 28800000 + (b + e) % 28800000 = b + e := Nat.div_add_mod' _ _
  omega

/-- What a bay's sample adds to the tally `i`. -/
def bayGain (c : CalSet) (b : Nat) (i p : Int) (k : Fin 32) : Nat :=
  if i.natAbs < c.iNl.getD b 0 then 0 else if 0 ≤ p then (if k.val = 8 + 2 * b then p.natAbs else 0) else if k.val = 9 + 2 * b then p.natAbs else 0

theorem tallyBay_gains (c : CalSet) (b : Nat) (hb : b < 12) (i p : Int) (x : Vector Nat 32 × Vector Nat 32) (k : Fin 32) :
    TallyGains x (tallyBay c b i p x) k (bayGain c b i p k) := by
  unfold tallyBay bayGain
  split
  · exact .refl _ _
  · split
    · split
      · next h => exact addTally_self _ _ _ _ (by omega)
      · next h => exact addTally_other _ _ _ _ (by omega)
    · split
      · next h => exact addTally_self _ _ _ _ (by omega)
      · next h => exact addTally_other _ _ _ _ (by omega)

/-- What the samples of a list of bays add to a tally. -/
theorem tallyBays_gains (c : CalSet) (bi bp : Nat → Int) (l : List Nat) (hl : ∀ b ∈ l, b < 12) (x : Vector Nat 32 × Vector Nat 32) (k : Fin 32) :
    TallyGains x (l.foldl (fun a b => tallyBay c b (bi b) (bp b) a) x) k ((l.map fun b => bayGain c b (bi b) (bp b) k).sum) := by
  induction l generalizing x with
  | nil => exact .refl _ _
  | cons b l ih =>
    rw [List.map_cons, List.sum_cons]
    exact (tallyBay_gains c b (hl b (by simp)) _ _ _ _).trans (ih (fun b hb => hl b (by simp [hb])) _)

theorem sum_zero_of {l : List Nat} {f : Nat → Nat} (h : ∀ b ∈ l, f b = 0) : (l.map f).sum = 0 := by
  induction l with
  | nil => rfl
  | cons b l ih => rw [List.map_cons, List.sum_cons, h b (by simp), ih fun b hb => h b (by simp [hb])]

theorem sum_one_of {l : List Nat} {f : Nat → Nat} (b : Nat) (hn : l.Nodup) (hb : b ∈ l) (h : ∀ d ∈ l, d ≠ b → f d = 0) : (l.map f).sum = f b := by
  induction l with
  | nil => cases hb
  | cons a l ih =>
    rw [List.nodup_cons] at hn
    rw [List.map_cons, List.sum_cons]
    rcases List.mem_cons.1 hb with e | e
    · subst e
      rw [sum_zero_of fun d hd => h d (by simp [hd]) fun q => hn.1 (q ▸ hd)]
      rfl
    · rw [ih hn.2 e fun d hd => h d (by simp [hd]), h a (by simp) fun q => hn.1 (q ▸ e)]
      exact Nat.zero_add _

/-- What the AC values add to a tally (R281, R282). -/
def acGain (c : CalSet) (v : Int × Int × Nat) (k : Fin 32) : Nat :=
  if v.2.2 < c.sNl * 1000 then 0
  else (if k.val = (if 0 ≤ v.1 then 0 else 1) then v.1.natAbs else 0) + (if k.val = (if 0 ≤ v.1 then 6 else 7) then v.2.2 else 0) +
    if k.val = quadrant v.1 v.2.1 then v.2.1.natAbs else 0

theorem quadrant_lt (p q : Int) : quadrant p q < 8 := by
  unfold quadrant
  repeat' split
  all_goals omega

theorem acGain_high (c : CalSet) (v : Int × Int × Nat) (k : Fin 32) (h : 8 ≤ k.val) : acGain c v k = 0 := by
  unfold acGain
  rw [if_neg (show ¬ k.val = quadrant v.1 v.2.1 from fun e => by have := quadrant_lt v.1 v.2.1; omega)]
  repeat' split
  all_goals first | rfl | omega

theorem tallyAc_gains (c : CalSet) (v : Int × Int × Nat) (x : Vector Nat 32 × Vector Nat 32) (k : Fin 32) :
    TallyGains x (tallyAc c v x) k
      (acGain c v k) := by
  unfold acGain
  have one : ∀ (x : Vector Nat 32 × Vector Nat 32) (j e : Nat), j < 32 → TallyGains x (addTally x j e) k (if k.val = j then e else 0) := fun x j e hj => by
    split
    · next h => exact addTally_self _ _ _ _ (by omega)
    · next h => exact addTally_other _ _ _ _ (by omega)
  have q : quadrant v.1 v.2.1 < 32 := Nat.lt_trans (quadrant_lt _ _) (by omega)
  unfold tallyAc
  split
  · exact .refl _ _
  · dsimp only
    split
    · exact ((one _ _ _ (by omega)).trans (one _ _ _ (by omega))).trans (one _ _ _ q)
    · exact ((one _ _ _ (by omega)).trans (one _ _ _ (by omega))).trans (one _ _ _ q)

theorem bayGain_low (c : CalSet) (b : Nat) (i p : Int) (k : Fin 32) (h : k.val < 8) : bayGain c b i p k = 0 := by
  unfold bayGain
  repeat' split
  all_goals first | rfl | omega

theorem bayGain_apart (c : CalSet) (b d : Nat) (i p : Int) (k : Fin 32) (h : k.val = 8 + 2 * b ∨ k.val = 9 + 2 * b) (e : d ≠ b) : bayGain c d i p k = 0 := by
  unfold bayGain
  repeat' split
  all_goals first | rfl | omega

theorem nodup_fins12 : (fins 12).Nodup := by decide

/-- The numbers of the bays in use. -/
theorem metBays_nodup (s : State) : (s.metBays.map fun b => b.val).Nodup := by
  unfold State.metBays
  split
  · exact (List.Pairwise.map (R := (· ≠ ·)) _ (fun _ _ h => fun e => h (Fin.ext e)) (nodup_fins12.filter _))
  · exact List.nodup_nil

theorem metBays_mem (s : State) (c : CalSet) (h : s.met.set = some c) (b : Fin 12) : b.val ∈ (s.metBays.map fun b => b.val) ↔ metBay c b = true := by
  have all : ∀ b : Fin 12, b ∈ fins 12 := by decide
  unfold State.metBays
  rw [h]
  simp only [List.mem_map, List.mem_filter]
  constructor
  · rintro ⟨d, ⟨_, hd⟩, e⟩
    rwa [← Fin.ext e]
  · exact fun hb => ⟨b, ⟨all b, hb⟩, rfl⟩

theorem metBays_lt (s : State) : ∀ b ∈ (s.metBays.map fun b => b.val), b < 12 := by
  intro b hb
  obtain ⟨d, _, e⟩ := List.mem_map.1 hb
  exact e ▸ d.isLt

/-- What the samples of the bays in use add to a tally of one bay. -/
theorem metBays_gain (s : State) (c : CalSet) (h : s.met.set = some c) (bi bp : Nat → Int) (b : Fin 12) (k : Fin 32)
    (hk : k.val = 8 + 2 * b.val ∨ k.val = 9 + 2 * b.val) :
    ((s.metBays.map fun b => b.val).map fun b => bayGain c b (bi b) (bp b) k).sum = if metBay c b = true then bayGain c b (bi b) (bp b) k else 0 := by
  split
  · next hb =>
    exact sum_one_of (f := fun b => bayGain c b (bi b) (bp b) k) b.val (metBays_nodup s) ((metBays_mem s c h b).2 hb)
      fun d _ hd => bayGain_apart c b.val d _ _ k hk hd
  · next hb => exact sum_zero_of fun d hd => bayGain_apart c b.val d _ _ k hk fun e => hb ((metBays_mem s c h b).1 (e ▸ hd))

/-- The crossing of a boundary keeps what the receipts need, nothing else. -/
theorem State.crossBoundary_met (s : State) (c : CalSet) (l : Option Nat) (rep : Nat) (q : TallySnap) :
    ∃ x, s.crossBoundary c l rep q = { s with met := { s.met with boundary := x } } := by
  exact ⟨_, rfl⟩

/-- What a sample adds to a tally under the set in force (R280, R281, R282). -/
theorem State.computeSample_gains (w : State) (c : CalSet) (rep : Nat) (codes : List Int) (ovr : Nat → Bool) (h : w.met.tallying = true) (k : Fin 32) :
    TallyGains (w.met.tally, w.met.residue) ((w.computeSample c rep codes ovr).met.tally, (w.computeSample c rep codes ovr).met.residue) k
      (acGain c (acValues c fun k => calibrated c codes k) k +
        ((w.metBays.map fun b => b.val).map fun b => bayGain c b (calibrated c codes (9 + 2 * b))
          (bayPower (calibrated c codes (8 + 2 * b)) (calibrated c codes (9 + 2 * b))) k).sum) := by
  have at12 : ∀ (f : Nat → Int) (k : Nat), k < 12 → wd ((List.range 12).map f) k = f k := fun f k h => by
    simp [wd, List.getD_eq_getElem?_getD, h]
  unfold State.computeSample
  simp only [h, if_true]
  have fe : ∀ (l : List Nat) (hl : ∀ b ∈ l, b < 12) (z : Vector Nat 32 × Vector Nat 32),
      l.foldl (fun a b => tallyBay c b (wd ((List.range 12).map fun b => calibrated c codes (9 + 2 * b)) b)
        (wd ((List.range 12).map fun b => bayPower (calibrated c codes (8 + 2 * b)) (calibrated c codes (9 + 2 * b))) b) a) z =
      l.foldl (fun a b => tallyBay c b (calibrated c codes (9 + 2 * b)) (bayPower (calibrated c codes (8 + 2 * b)) (calibrated c codes (9 + 2 * b))) a) z := by
    intro l hl
    induction l with
    | nil => intro z; rfl
    | cons b l ih =>
      intro z
      rw [List.foldl_cons, List.foldl_cons, at12 _ b (hl b (by simp)), at12 _ b (hl b (by simp))]
      exact ih (fun b hb => hl b (by simp [hb])) _
  rw [fe _ (metBays_lt w)]
  exact (tallyAc_gains c _ _ k).trans (tallyBays_gains c (fun b => calibrated c codes (9 + 2 * b))
    (fun b => bayPower (calibrated c codes (8 + 2 * b)) (calibrated c codes (9 + 2 * b))) _ (metBays_lt w) _ k)

/-- A free rounding lies less than one unit away from the quotient. -/
theorem someRound_near (place : Nat) (num : Int) (den : Nat) (h : 0 < den) : ((den : Int) * someRound place num den - num).natAbs < den := by
  have e := Int.mul_ediv_add_emod num (den : Int)
  have p : 0 ≤ num % (den : Int) := Int.emod_nonneg _ (by omega)
  have q : num % (den : Int) < den := Int.emod_lt_of_pos _ (by omega)
  unfold someRound
  split
  · omega
  · split
    · rw [Int.mul_add, Int.mul_one]; omega
    · omega

theorem State.withholdReceipt_met (s : State) (i : Fin 13) : (s.withholdReceipt i).met = (s.setKind i fun k => { k with gap := true, withheld := true }).met := by
  unfold State.withholdReceipt
  rw [State.log_met]

/-- A receipt of a kind leaves the rest of the queue as it was. -/
theorem State.issueReceipt_queue (s : State) (i : Fin 13) (cause : Nat) (q : TallySnap) :
    (s.issueReceipt i cause q).met.queue = s.met.queue ∨ ∃ r, (s.issueReceipt i cause q).met.queue = s.met.queue ++ [r] := by
  unfold State.issueReceipt
  split
  · split
    · exact .inl (by rw [State.withholdReceipt_met]; rfl)
    · exact .inr ⟨_, rfl⟩
  · exact .inl rfl

theorem rcptBody_kind (s : State) (i : Fin 13) (cause : Nat) (q : TallySnap) (calId : Nat) (rest : Bytes) :
    (rcptBody s i cause q calId ++ rest)[6]? = some (if i.val = 0 then 0xFF else byte (i.val - 1)) ∧ (rcptBody s i cause q calId ++ rest)[7]? = some (byte cause) := by
  unfold rcptBody
  simp [leBytes]

/-- A receipt that is issued (R288, R289). -/
theorem State.issueReceipt_issued (s : State) (i : Fin 13) (cause : Nat) (q : TallySnap) (h1 : s.vault.debug = false) (h2 : s.met.key.isSome) (h3 : s.met.set.isSome)
    (h4 : s.met.queue.length < 256) : ∃ r, (s.issueReceipt i cause q).met.queue = s.met.queue ++ [r] ∧ r.seq = s.met.seq + 1 ∧
      r.bytes[6]? = some (if i.val = 0 then 0xFF else byte (i.val - 1)) ∧ r.bytes[7]? = some (byte cause) := by
  obtain ⟨k, hk⟩ := Option.isSome_iff_exists.1 h2
  obtain ⟨c, hc⟩ := Option.isSome_iff_exists.1 h3
  unfold State.issueReceipt
  rw [State.receiptKey, hk, hc]
  dsimp only [Option.map_some]
  rw [if_neg (by simp [h1, h4])]
  exact ⟨_, rfl, rfl, rcptBody_kind _ _ _ _ _ _⟩

/-- Receipts for a list of bays. -/
theorem foldl_queue {α : Type} {f : State → α → State} (hf : ∀ s x, ∃ l, (f s x).met.queue = s.met.queue ++ l) (l : List α) (s : State) :
    ∃ m, (l.foldl f s).met.queue = s.met.queue ++ m := by
  induction l generalizing s with
  | nil => exact ⟨[], (List.append_nil _).symm⟩
  | cons x l ih =>
    obtain ⟨a, ha⟩ := hf s x
    obtain ⟨b, hb⟩ := ih (f s x)
    exact ⟨a ++ b, by rw [List.foldl_cons, hb, ha, List.append_assoc]⟩

theorem State.issueReceipt_more (s : State) (i : Fin 13) (cause : Nat) (q : TallySnap) : ∃ l, (s.issueReceipt i cause q).met.queue = s.met.queue ++ l := by
  rcases s.issueReceipt_queue i cause q with h | ⟨r, h⟩
  · exact ⟨[], by rw [h, List.append_nil]⟩
  · exact ⟨[r], h⟩

/-- What a receipt leaves of the rest of the partition. -/
def Metrology.figures (m : Metrology) : Option CalSet × Option (CalSet × Nat) × List TallySnap × Vector Nat 32 × Vector Nat 32 × Vector Bool 12 :=
  (m.set, m.nextSet, m.boundary, m.tally, m.residue, m.live)

theorem State.issueReceipt_figures (s : State) (i : Fin 13) (cause : Nat) (q : TallySnap) : (s.issueReceipt i cause q).met.figures = s.met.figures := by
  unfold State.issueReceipt
  repeat' split
  · rw [State.withholdReceipt_met]; rfl
  all_goals rfl

/-- What the supply of LIVE leaves of the partition. -/
def Metrology.published' (m : Metrology) : Bool × Vector Nat 32 × Nat × Option MetCommit × Vector Nat 32 :=
  (m.valid, m.published, m.wrapEpoch, m.commit, m.tally)

theorem State.liveTick_published (s : State) (c : CalSet) (b : Fin 12) (n k : Nat) (q : TallySnap) : (s.liveTick c b n k q).met.published' = s.met.published' := by
  unfold State.liveTick
  dsimp only
  repeat' split
  all_goals rfl

theorem State.writeCheckpoint_published (s : State) : (s.writeCheckpoint).met.published' = s.met.published' := by
  unfold State.writeCheckpoint
  dsimp only
  split <;> rfl

@[simp] theorem Checkpoint.sealed_valid (c : Checkpoint) : c.sealed.valid = true := by
  simp [Checkpoint.valid, Checkpoint.sealed, Checkpoint.crcNow, Checkpoint.bytes]

/-- The AC values of a block leave the calibration statistics. -/
theorem State.acBlock_stats (s : State) (c : CalSet) (codes : List (List Int)) :
    ((s.acBlock c codes).met.block, (s.acBlock c codes).met.calMean) = (s.met.block, s.met.calMean) := by
  unfold State.acBlock State.flagsBlock State.setKind
  dsimp only
  have l : ∀ (w : State) (b : Bool), (w.logFlag b).met = w.met := by
    intro w b
    unfold State.logFlag
    split
    · exact State.log_met ..
    · rfl
  simp only [l]

/-- The final checkpoint is the newest, and holds the tallies (R293, R294). -/
theorem State.writeCheckpoint_newest (s : State) : s.writeCheckpoint.upd = s.upd ∧ s.writeCheckpoint.fuses = s.fuses ∧
    ∃ a b, s.writeCheckpoint.met = { s.met with ckptA := a, ckptB := b } ∧
      ∃ x, s.writeCheckpoint.met.newest = some x ∧ x.tally = s.met.tally ∧ x.residue = s.met.residue := by
  let x := Checkpoint.sealed { number := max s.met.ckptA.number s.met.ckptB.number + 1, tally := s.met.tally, residue := s.met.residue,
                               prevHash := s.met.prevHash, kinds := s.met.kinds }
  have hv : x.valid = true := Checkpoint.sealed_valid _
  have hn : x.number = max s.met.ckptA.number s.met.ckptB.number + 1 := rfl
  have m : ∀ (w : State) n, (w.chargeMet n).met = w.met ∧ (w.chargeMet n).upd = w.upd ∧ (w.chargeMet n).fuses = w.fuses := fun _ _ => ⟨rfl, rfl, rfl⟩
  unfold State.writeCheckpoint
  dsimp only
  by_cases c : (s.met.ckptB.valid && (!s.met.ckptA.valid || decide (s.met.ckptA.number < s.met.ckptB.number))) = true
  · rw [if_pos c]
    refine ⟨rfl, rfl, x, s.met.ckptB, rfl, x, ?_, rfl, rfl⟩
    unfold Metrology.newest
    refine if_pos ?_
    show (x.valid && (!s.met.ckptB.valid || decide (s.met.ckptB.number ≤ x.number))) = true
    rw [hv, hn]
    simp only [Bool.true_and, Bool.or_eq_true, decide_eq_true_eq]
    exact .inr (Nat.le_succ_of_le (Nat.le_max_right _ _))
  · rw [if_neg c]
    refine ⟨rfl, rfl, s.met.ckptA, x, rfl, x, ?_, rfl, rfl⟩
    unfold Metrology.newest
    show (if (s.met.ckptA.valid && (!x.valid || decide (x.number ≤ s.met.ckptA.number))) = true then some s.met.ckptA
      else if x.valid = true then some x else none) = some x
    rw [hv, hn, if_neg (by simp <;> omega), if_pos rfl]

/-- A restart of the partition from its newest checkpoint (R294). -/
theorem State.metRestart_met (s : State) (x : Checkpoint) (h : s.met.newest = some x) : ∃ m, s.metRestart.met = m ∧
    m.fwId = s.met.fwId ∧ m.bootCount = s.met.bootCount + 1 ∧ m.tally = x.tally ∧ m.residue = x.residue ∧ m.recent = [] ∧
    m.live = Vector.replicate 12 false ∧ ∀ i : Fin 13, m.kinds[i].restart = true := by
  have last : ∀ (w : State) (b : Bool) (k : Nat), (if b then w.log 0x0705 0xFF k 0 else w).met = w.met := fun w b k => by
    cases b
    · rfl
    · exact State.log_met ..
  unfold State.metRestart
  dsimp only
  rw [last, h]
  dsimp only
  refine ⟨_, rfl, ?_⟩
  split
  · refine ⟨rfl, rfl, rfl, rfl, rfl, rfl, fun i => ?_⟩
    exact congrArg RcptKind.restart (vmap_get _ _ i)
  · refine ⟨rfl, rfl, rfl, rfl, rfl, rfl, fun i => ?_⟩
    exact congrArg RcptKind.restart (vmap_get _ _ i)

end Sys2Proof.Machine
end

