-- ==== Sys2Proof/Laws/OpsSafety.lean ====
section
/-! SUPPORT. What the shared operations of the safety controller and the unlocks answer: one lemma for each, cited instead of unfolding it. -/
namespace Sys2Proof.Machine

/-! ## Safety -/

@[simp] theorem State.setSi_self (s : State) (k : Fin 16) (f : SiPair → SiPair) : (s.setSi k f).saf.si[k] = f s.saf.si[k] := vupd_here ..

theorem State.setSi_other (s : State) (k j : Fin 16) (f : SiPair → SiPair) (h : k ≠ j) : (s.setSi k f).saf.si[j] = s.saf.si[j] := vupd_other _ _ _ _ h

/-- Entry of a pair to a state (R302). -/
theorem State.goSi_self (s : State) (k : Fin 16) (st : SiSt) (f : SiPair → SiPair) :
    let old := s.saf.si[k].st
    let p := f s.saf.si[k]
    let fresh := st == .faultTest || st == .waitReset
    (s.goSi k st f).saf.si[k] =
      { p with st, demands := if (old == .idle || old == .waitReset) && (st == .partialDemand || st == .demand) then satInc 16 p.demands else p.demands,
               faults := if st == .faultDisc || st == .faultTest then satInc 8 p.faults else p.faults,
               a := if fresh then { p.a with passed := 0 } else p.a, b := if fresh then { p.b with passed := 0 } else p.b } := by
  unfold State.goSi
  dsimp only
  split
  · exact (congrArg (fun z : SafetyBlock => z.si[k]) (State.log_saf ..)).trans (vupd_here ..)
  · exact vupd_here ..

/-- What one pair's step leaves of the rest: the other pairs and everything that is not theirs. -/
def SiStep (k : Fin 16) (s u : State) : Prop := (∀ j, k ≠ j → u.saf.si[j] = s.saf.si[j]) ∧ { u.saf with si := s.saf.si } = s.saf ∧ u.mt = s.mt ∧ u.clk = s.clk ∧ u.rtc = s.rtc ∧ u.pwr = s.pwr

theorem SiStep.refl (k : Fin 16) (s : State) : SiStep k s s := ⟨fun _ _ => rfl, rfl, rfl, rfl, rfl, rfl⟩

theorem SiStep.trans {k : Fin 16} {s u v : State} (h : SiStep k s u) (g : SiStep k u v) : SiStep k s v := by
  obtain ⟨h1, h2, h3, h4, h5, h6⟩ := h
  obtain ⟨g1, g2, g3, g4, g5, g6⟩ := g
  refine ⟨fun j e => (g1 j e).trans (h1 j e), ?_, g3.trans h3, g4.trans h4, g5.trans h5, g6.trans h6⟩
  have a := congrArg (fun z : SafetyBlock => { z with si := s.saf.si }) g2
  exact a.trans h2

theorem SiStep.lastScan {k : Fin 16} {s u : State} (h : SiStep k s u) : u.saf.lastScan = s.saf.lastScan := by
  have e := congrArg SafetyBlock.lastScan h.2.1
  exact e

theorem SiStep.records {k : Fin 16} {s u : State} (h : SiStep k s u) : u.saf.records = s.saf.records := by
  have e := congrArg SafetyBlock.records h.2.1
  exact e

theorem SiStep.setSi (s : State) (k : Fin 16) (f : SiPair → SiPair) : SiStep k s (s.setSi k f) := ⟨fun _ e => State.setSi_other _ _ _ _ e, rfl, rfl, rfl, rfl, rfl⟩

theorem SiStep.log {k : Fin 16} {s u : State} (h : SiStep k s u) (c i a b : Nat) (w : Bytes) : SiStep k s (u.log c i a b w) := by
  refine h.trans ⟨fun j _ => ?_, ?_, ?_, ?_, ?_, ?_⟩ <;> simp

theorem SiStep.bump {k : Fin 16} {s u : State} (h : SiStep k s u) (i : Fin 16) : SiStep k s (u.bump i) := by
  refine h.trans ⟨fun j _ => ?_, ?_, ?_, ?_, ?_, ?_⟩ <;> simp

theorem SiStep.bumpIf {k : Fin 16} {s u : State} (h : SiStep k s u) (c : Bool) (i : Fin 16) : SiStep k s (u.bumpIf c i) := by
  cases c
  · exact h
  · exact h.bump i

theorem State.goSi_step (s : State) (k : Fin 16) (st : SiSt) (f : SiPair → SiPair) : SiStep k s (s.goSi k st f) := by
  unfold State.goSi
  dsimp only
  split
  · exact SiStep.log (SiStep.setSi ..) ..
  · exact SiStep.bump (SiStep.setSi ..) _

theorem State.stepSi_step (s : State) (k : Fin 16) (r : SafRec) (dA dB : Bool) (t : Nat) : SiStep k s (s.stepSi k r dA dB t) := by
  unfold State.stepSi State.proveSi State.releaseSi
  dsimp only
  repeat' split
  all_goals first | exact State.goSi_step .. | exact SiStep.refl ..

theorem State.applyChanges_step (s : State) (k : Fin 16) (r : SafRec) (old : SiPair) : SiStep k s (s.applyChanges k r old) := by
  unfold State.applyChanges
  dsimp only
  repeat' split
  all_goals first | exact State.stepSi_step .. | exact SiStep.trans (State.stepSi_step ..) (State.stepSi_step ..)

theorem State.testSi_step (s : State) (k : Fin 16) (r : SafRec) (f : Bool) : SiStep k s (s.testSi k r f) := by
  unfold State.testSi
  dsimp only
  repeat' split
  all_goals first | exact State.goSi_step .. | exact SiStep.refl .. | exact SiStep.log (State.goSi_step ..) ..

theorem State.feedbackSi_step (s : State) (k : Fin 16) : SiStep k s (s.feedbackSi k) := SiStep.bumpIf (SiStep.setSi ..) _ _

theorem State.testFeedback_step (s : State) (k : Fin 16) (f : Bool) : SiStep k s (s.testFeedback k f) := by
  unfold State.testFeedback
  dsimp only
  repeat' split
  all_goals first | exact State.goSi_step .. | exact SiStep.refl ..

theorem State.scanPair_step (s : State) (t : Nat) (k : Fin 16) (a b : Bool) : SiStep k s (s.scanPair t k a b) := by
  unfold State.scanPair
  dsimp only
  generalize hw : s.setSi k _ = w
  have h : SiStep k s w := by rw [← hw]; exact SiStep.setSi ..
  split
  · exact h
  · split
    · exact h.trans ((State.feedbackSi_step ..).trans (State.testFeedback_step ..))
    · exact h.trans ((State.applyChanges_step ..).trans (State.testSi_step ..))

/-! ### What leaves the SI pairs alone -/

/-- The SI pairs with the time of the latest scan. -/
def SafetyBlock.seen (z : SafetyBlock) : Vector SiPair 16 × Nat := (z.si, z.lastScan)

theorem State.soOff_si (s : State) (k : Fin 16) : (s.soOff k).saf.seen = s.saf.seen := by
  unfold State.soOff
  dsimp only
  rw [State.bumpIf_saf]; rfl

theorem State.soEnergise_si (s : State) (k : Fin 16) : (s.soEnergise k).saf.seen = s.saf.seen := by
  unfold State.soEnergise
  split <;> rfl

theorem State.outletOff_si (s : State) (b : Fin 12) : (s.outletOff b).saf.seen = s.saf.seen :=
  foldl_keeps (fun w : State => w.saf.seen = s.saf.seen) (fun x w h => (State.soOff_si w x.1).trans h) _ rfl

theorem State.soFault_si (s : State) (k : Fin 16) (c : Nat) : (s.soFault k c).saf.seen = s.saf.seen := by
  unfold State.soFault
  split
  · rfl
  · rw [State.log_saf]; exact State.soOff_si s k

theorem State.readBack_si (s : State) (k : Fin 16) (a b : Bool) : (s.readBack k a b).saf.seen = s.saf.seen := by
  unfold State.readBack
  dsimp only
  repeat' split
  all_goals first | rfl | exact State.soFault_si ..

theorem State.confirmSo_si (s : State) (t : Nat) (k : Fin 16) (r : SafRec) : (s.confirmSo t k r).saf.seen = s.saf.seen := by
  unfold State.confirmSo
  dsimp only
  repeat' split
  all_goals first | rfl | exact State.soFault_si ..

theorem State.driveSo_si (s : State) (k : Fin 16) (r : SafRec) : (s.driveSo k r).saf.seen = s.saf.seen := by
  unfold State.driveSo
  dsimp only
  repeat' split
  all_goals first | rfl | exact State.soEnergise_si .. | exact State.soOff_si ..

/-- A state that keeps SAF keeps its pairs. -/
theorem keeps_si {s u : State} (h : OnlyIn (allSave .saf) s u) : u.saf.seen = s.saf.seen := congrArg SafetyBlock.seen (h .saf rfl)

theorem State.ssDone_si (s : State) (b : Fin 12) : (s.ssDone b).saf.seen = s.saf.seen := by
  unfold State.ssDone
  rw [State.log_saf]; rfl

theorem State.capFreeze_si (s : State) (a b : Nat) : (s.capFreeze a b).saf.seen = s.saf.seen := by
  unfold State.capFreeze
  split <;> rfl

theorem State.ssTake_si (s : State) (b : Fin 12) (t : Nat) : (s.ssTake b t).saf.seen = s.saf.seen := by
  unfold State.ssTake
  dsimp only
  split
  · rfl
  · split
    · exact foldl_keeps (fun v : State => v.saf.seen = s.saf.seen) (fun n v hv =>
        (keeps_si (State.fastPath_only rfl (by simp [allSave]) rfl (OnlyIn.refl _ v))).trans hv) _ rfl
    · rfl

theorem State.ssLate_si (s : State) (b : Fin 12) : (s.ssLate b).saf.seen = s.saf.seen := by
  unfold State.ssLate
  split
  · exact (keeps_si (State.boundTiles_only rfl (OnlyIn.refl _ _))).trans (State.ssTake_si ..)
  · rfl

theorem State.requestSafeStop_si (s : State) (b : Fin 12) : (s.requestSafeStop b).saf.seen = s.saf.seen := by
  unfold State.requestSafeStop
  split
  · split
    · rw [State.ssLate_si, State.capFreeze_si]; rfl
    · rw [State.ssDone_si, State.outletOff_si]; rfl
  · rfl

theorem State.removeBay_si (s : State) (b : Fin 12) (c : Nat) : (s.removeBay b c).saf.seen = s.saf.seen := by
  unfold State.removeBay
  dsimp only
  split
  · rw [State.ssLate_si, State.capFreeze_si]; exact State.outletOff_si s b
  · split
    · rw [State.ssDone_si, State.outletOff_si]; rfl
    · rfl

theorem State.escalate_si (s : State) (b : Fin 12) : (s.escalate b).saf.seen = s.saf.seen := by
  unfold State.escalate
  dsimp only
  have h : ∀ w : State, (if w.sitePairs.isEmpty then w.forAll 64 fun n s => s.fastPath n 8 else w.sitePairs.foldl (fun s p => s.soOff p.1) w).saf.seen = w.saf.seen := fun w => by
    split
    · exact State.forAll_keeps (fun v => v.saf.seen = w.saf.seen) (fun n v hv => (keeps_si (State.fastPath_only rfl (by simp [allSave]) rfl (OnlyIn.refl _ v))).trans hv) rfl
    · exact foldl_keeps (fun v : State => v.saf.seen = w.saf.seen) (fun x v hv => (State.soOff_si v x.1).trans hv) _ rfl
  refine (h _).trans ?_
  rw [State.log_saf]; rfl

theorem State.withdrawOutlet_si (s : State) (b : Fin 12) : (s.withdrawOutlet b).saf.seen = s.saf.seen := by
  unfold State.withdrawOutlet
  exact (keeps_si (State.commandOutlet_only rfl rfl (OnlyIn.refl _ _))).trans (State.outletOff_si s b)

theorem State.stopScan_si (s : State) (b : Fin 12) : (s.stopScan b).saf.seen = s.saf.seen := by
  have e : ∀ (w : State) (b : Fin 12) (d : Nat), w.saf.seen = s.saf.seen → (if w.outletOpenNow b then (if d < w.openStamp b then (w.escalate b).ssDone b else w.ssDone b) else w).saf.seen = s.saf.seen :=
    fun w b d hw => by
      split
      · split
        · rw [State.ssDone_si, State.escalate_si, hw]
        · rw [State.ssDone_si, hw]
      · exact hw
  unfold State.stopScan
  dsimp only
  split
  · split
    · exact State.withdrawOutlet_si ..
    · rfl
  · split
    · split
      · rw [State.ssDone_si, State.withdrawOutlet_si]
      · exact State.withdrawOutlet_si ..
    · exact e _ _ _ (State.withdrawOutlet_si ..)
  · split
    · rw [State.ssDone_si]
    · rfl
  · split <;> rfl
  · rfl

theorem State.enterFault_si (s : State) (b : Fin 12) (c : Nat) : (s.enterFault b c).saf.seen = s.saf.seen := by
  unfold State.enterFault
  dsimp only
  have h : ∀ w : State, w.saf.seen = s.saf.seen → (if w.bays[b].energised then w.requestSafeStop b else w).saf.seen = s.saf.seen := fun w hw => by
    split
    · exact (State.requestSafeStop_si w b).trans hw
    · exact hw
  exact h _ (keeps_si (State.goSess_only rfl rfl (State.setBay_only (fun _ => ⟨.inr rfl, .inr rfl, .inl rfl⟩) (State.setSess_only rfl
    (State.endWith_only rfl (OnlyIn.refl _ s))))))

theorem State.contactorFail_si (s : State) (b : Fin 12) : (s.contactorFail b).saf.seen = s.saf.seen := by
  unfold State.contactorFail
  split
  · rfl
  · dsimp only
    split
    · rw [State.requestSafeStop_si]; rfl
    · rw [State.enterFault_si, State.requestSafeStop_si]; rfl

theorem State.checkInsulation_si (s : State) (b : Fin 12) : (s.checkInsulation b).saf.seen = s.saf.seen := by
  unfold State.checkInsulation
  split
  · exact State.enterFault_si ..
  · rfl

theorem State.contactorOpen_si (s : State) (b : Fin 12) : (s.contactorOpen b).saf.seen = s.saf.seen := by
  unfold State.contactorOpen
  split
  · exact State.enterFault_si ..
  · exact keeps_si (State.weldDone_only rfl rfl rfl rfl rfl rfl rfl rfl rfl (OnlyIn.refl _ s))

theorem State.outletScan_si (s : State) (b : Fin 12) : (s.outletScan b).saf.seen = s.saf.seen := by
  have h : ∀ w : State, ∀ c d : Bool, w.saf.seen = s.saf.seen → (if c then (w.contactorOpen b).leaveFault b else if d then w.tryCableTarget b else w).saf.seen = s.saf.seen := fun w c d hw => by
    cases c
    · cases d
      · exact hw
      · exact (keeps_si (State.tryCableTarget_only rfl rfl (OnlyIn.refl _ w))).trans hw
    · exact (keeps_si (State.leaveFault_only rfl rfl (OnlyIn.refl _ _))).trans ((State.contactorOpen_si w b).trans hw)
  have l : ∀ w : State, ∀ c : Bool, w.saf.seen = s.saf.seen → (if c then w.contactorFail b else w).saf.seen = s.saf.seen := fun w c hw => by
    cases c
    · exact hw
    · exact (State.contactorFail_si w b).trans hw
  unfold State.outletScan
  dsimp only
  refine h _ _ _ (l _ _ ?_)
  rw [State.bumpIf_saf]; rfl

theorem State.sessionFree_si (s : State) (b : Fin 12) : (s.sessionFree b).saf.seen = s.saf.seen := by
  unfold State.sessionFree
  split <;> rfl

theorem State.demandScan_si (s : State) (b : Fin 12) : (s.demandScan b).saf.seen = s.saf.seen := by
  unfold State.demandScan
  dsimp only
  have h : ∀ w : State, w.saf.seen = s.saf.seen → (w.sessionDemand b).saf.seen = s.saf.seen := fun w hw =>
    (keeps_si (State.sessionDemand_only rfl rfl (OnlyIn.refl _ w))).trans hw
  split
  · refine h _ ?_
    split
    · exact State.removeBay_si ..
    · exact State.requestSafeStop_si ..
  · exact State.sessionFree_si s b

theorem State.retake_si (s : State) : s.retake.saf.seen = s.saf.seen := by
  unfold State.retake
  split
  · unfold State.takeOver
    dsimp only
    refine (keeps_si (State.takeWords_only rfl (OnlyIn.refl _ _))).trans ?_
    refine State.forAll_keeps (fun v => v.saf.seen = s.saf.seen) (fun n v hv => ?_)
      (State.forAll_keeps (fun v => v.saf.seen = s.saf.seen) (fun b v hv => (State.ssTake_si v b _).trans hv) rfl)
    exact (keeps_si (State.takeLane_only (by simp [allSave]) (OnlyIn.refl _ v))).trans hv
  · rfl

/-- What follows from the pairs leaves them as they are. -/
theorem State.scanActs_si (s : State) (t : Nat) : (s.scanActs t).saf.seen = s.saf.seen := by
  unfold State.scanActs
  dsimp only
  rw [State.retake_si]
  refine State.forAll_keeps (fun v => v.saf.seen = s.saf.seen) (fun b v hv => (State.outletScan_si v b).trans hv) ?_
  refine foldl_keeps (fun v : State => v.saf.seen = s.saf.seen) (fun x v hv => (State.driveSo_si v x.1 x.2).trans hv) _ ?_
  refine State.forAll_keeps (fun v => v.saf.seen = s.saf.seen) (fun b v hv => ?_) ?_
  · split
    · exact (State.checkInsulation_si v b).trans hv
    · exact hv
  exact State.forAll_keeps (fun v => v.saf.seen = s.saf.seen) (fun b v hv => (State.stopScan_si _ b).trans ((State.demandScan_si v b).trans hv)) rfl

/-- The reading of the outputs leaves the pairs as they are. -/
theorem State.readSo_si (s : State) (t : Nat) (rd : ScanReadings) : (s.readSo t rd).saf.seen = s.saf.seen := by
  unfold State.readSo
  exact foldl_keeps (fun v : State => v.saf.seen = s.saf.seen) (fun x v hv => (State.confirmSo_si _ _ _ _).trans ((State.readBack_si v _ _ _).trans hv)) _ rfl

/-- A pair after a scan of all of them, begun from a state that shows the pair as it was (R297). -/
theorem State.scanPairs_pair (s : State) (t : Nat) (rd : ScanReadings) (k : Fin 16) (P : SiPair → Prop)
    (h : ∀ w : State, w.saf.si[k] = s.saf.si[k] → w.saf.records = s.saf.records → w.saf.tpLimited = s.saf.tpLimited → w.pwr = s.pwr →
      w.clk = s.clk → w.calSeconds = s.calSeconds →
      P (w.scanPair t k (rd.a.getD k.val false) (rd.b.getD k.val false)).saf.si[k]) :
    (s.scanPairs t rd).saf.lastScan = s.saf.lastScan ∧ P (s.scanPairs t rd).saf.si[k] := by
  have rest : ∀ (v : State) j, SiStep j v (v.scanPair t j (rd.a.getD j.val false) (rd.b.getD j.val false)) := fun v j => State.scanPair_step v t j _ _
  have cal : ∀ (v : State) j, (v.scanPair t j (rd.a.getD j.val false) (rd.b.getD j.val false)).calSeconds = v.calSeconds := fun v j => by
    unfold State.calSeconds State.calUnits
    rw [(rest v j).2.2.1, (rest v j).2.2.2.2.1]
  have note : ∀ v : State, (v.noteLimits t rd.limiting).saf.lastScan = v.saf.lastScan ∧ (v.noteLimits t rd.limiting).saf.si = v.saf.si :=
    fun _ => ⟨rfl, rfl⟩
  unfold State.scanPairs
  rw [(note _).1, (note _).2]
  refine State.forAll_at (Q := fun w => w.saf.lastScan = s.saf.lastScan ∧ w.saf.si[k] = s.saf.si[k] ∧ w.saf.records = s.saf.records ∧
      w.saf.tpLimited = s.saf.tpLimited ∧ w.pwr = s.pwr ∧ w.clk = s.clk ∧ w.calSeconds = s.calSeconds)
    (R := fun w => w.saf.lastScan = s.saf.lastScan ∧ P w.saf.si[k]) k ?_ ?_ ?_ _ ⟨rfl, rfl, rfl, rfl, rfl, rfl, rfl⟩
  · rintro j v hj ⟨a, b, c, d, p, q, r⟩
    have z := rest v j
    exact ⟨z.lastScan.trans a, (z.1 k hj).trans b, z.records.trans c, (congrArg SafetyBlock.tpLimited z.2.1).trans d, z.2.2.2.2.2.trans p,
      z.2.2.2.1.trans q, (cal v j).trans r⟩
  · rintro v ⟨a, b, c, d, p, q, r⟩
    exact ⟨(rest v k).lastScan.trans a, h v b c d p q r⟩
  · rintro j v hj ⟨a, b⟩
    have z := rest v j
    exact ⟨z.lastScan.trans a, by rw [z.1 k hj]; exact b⟩

/-- A scan leaves a pair as its own step leaves it, begun from a state that shows the pair as it was (R297). -/
theorem safetyScan_pair (s : State) (t : Nat) (rd : ScanReadings) (k : Fin 16) (h1 : s.scanAt t = true) (h2 : rd.agree = true) (P : SiPair → Prop)
    (h : ∀ w : State, w.saf.si[k] = s.saf.si[k] → w.saf.records = s.saf.records → w.saf.tpLimited = s.saf.tpLimited → w.pwr = s.pwr →
      w.clk = s.clk → w.calSeconds = (s.arrive t).calSeconds →
      P (w.scanPair t k (rd.a.getD k.val false) (rd.b.getD k.val false)).saf.si[k]) :
    (doSafetyScan t rd s).saf.lastScan = t ∧ P (doSafetyScan t rd s).saf.si[k] := by
  have e : doSafetyScan t rd s = if ((((s.arrive t).startScan t).scanPairs t rd).readSo t rd).live then
      ((((s.arrive t).startScan t).scanPairs t rd).readSo t rd).scanActs t else (((s.arrive t).startScan t).scanPairs t rd).readSo t rd := by
    unfold doSafetyScan
    dsimp only
    rw [show (s.arrive t).scanAt t = true from h1, h2]
    rw [if_neg (by decide), if_pos rfl]
  have q : (((s.arrive t).startScan t).scanPairs t rd).saf.lastScan = t ∧ P (((s.arrive t).startScan t).scanPairs t rd).saf.si[k] :=
    State.scanPairs_pair ((s.arrive t).startScan t) t rd k P fun v b c d p q r => h v b c d p q r
  rw [e]
  generalize ((s.arrive t).startScan t).scanPairs t rd = v at q ⊢
  have g : ∀ w : State, w.saf.seen = v.saf.seen → w.saf.lastScan = t ∧ P w.saf.si[k] := fun w z =>
    ⟨(show w.saf.lastScan = v.saf.lastScan from congrArg Prod.snd z).trans q.1,
      (show w.saf.si = v.saf.si from congrArg Prod.fst z) ▸ q.2⟩
  refine g _ ?_
  split
  · exact (State.scanActs_si _ t).trans (State.readSo_si v t rd)
  · exact State.readSo_si v t rd

/-! ## SO pairs and gated stalls -/

theorem soFault_self (s : State) (k : Fin 16) (c : Nat) (h : s.saf.so[k].st ≠ .fault) :
    let o := (s.soFault k c).saf.so[k]
    o.st = .fault ∧ o.cause = c ∧ o.count = satInc 16 s.saf.so[k].count ∧ o.hs = false ∧ o.ls = false := by
  unfold State.soFault
  dsimp only
  rw [if_neg h]
  have e : ∀ w : State, (w.log 0x0802 k.val c 0).saf.so[k] = w.saf.so[k] := fun w => congrArg (fun z : SafetyBlock => z.so[k]) (State.log_saf ..)
  have g : (s.soOff k).saf.so[k].count = s.saf.so[k].count ∧ (s.soOff k).saf.so[k].hs = false ∧ (s.soOff k).saf.so[k].ls = false := by
    unfold State.soOff
    dsimp only
    have b : ∀ (w : State) c, (w.bumpIf c 8).saf.so[k] = w.saf.so[k] := fun w c => congrArg (fun z : SafetyBlock => z.so[k]) (State.bumpIf_saf ..)
    simp only [b, State.setSo, vupd_here, and_self]
  simp only [e]
  have z : ∀ f, ((s.soOff k).setSo k f).saf.so[k] = f (s.soOff k).saf.so[k] := fun f => vupd_here ..
  simp only [z, g, and_self]

theorem soFault_other (s : State) (k j : Fin 16) (c : Nat) (h : k ≠ j) : (s.soFault k c).saf.so[j] = s.saf.so[j] := by
  have o : (s.soOff k).saf.so[j] = s.saf.so[j] := by
    unfold State.soOff
    dsimp only
    have b : ∀ (w : State) c, (w.bumpIf c 8).saf.so[j] = w.saf.so[j] := fun w c => congrArg (fun z : SafetyBlock => z.so[j]) (State.bumpIf_saf ..)
    rw [b]
    exact vupd_other _ _ _ _ h
  unfold State.soFault
  split
  · rfl
  · have e : ∀ w : State, (w.log 0x0802 k.val c 0).saf.so[j] = w.saf.so[j] := fun w => congrArg (fun z : SafetyBlock => z.so[j]) (State.log_saf ..)
    rw [e]
    exact (vupd_other _ _ _ _ h).trans o
theorem mem_finsBelow {n : Nat} (k : Nat) (hk : k ≤ n) (i : Fin n) (h : i.val < k) : i ∈ finsBelow n k hk := by
  induction k with
  | zero => omega
  | succ k ih =>
    simp only [finsBelow]
    rw [List.mem_append]
    by_cases e : i.val = k
    · right; simp [Fin.ext_iff, e]
    · left; exact ih (by omega) (by omega)

theorem mem_fins {n : Nat} (i : Fin n) : i ∈ fins n := mem_finsBelow n (Nat.le_refl n) i i.isLt

theorem soOff_so (s : State) (k : Fin 16) : (s.soOff k).saf.so[k].hs = false ∧ (s.soOff k).saf.so[k].ls = false := by
  unfold State.soOff
  dsimp only
  have b : ∀ (w : State) c, (w.bumpIf c 8).saf.so[k] = w.saf.so[k] := fun w c => congrArg (fun z : SafetyBlock => z.so[k]) (State.bumpIf_saf ..)
  simp only [b, State.setSo, vupd_here, and_self]

theorem soOff_away (s : State) (k j : Fin 16) (h : k ≠ j) : (s.soOff k).saf.so[j] = s.saf.so[j] := by
  unfold State.soOff
  dsimp only
  have b : ∀ (w : State) c, (w.bumpIf c 8).saf.so[j] = w.saf.so[j] := fun w c => congrArg (fun z : SafetyBlock => z.so[j]) (State.bumpIf_saf ..)
  rw [b]
  exact vupd_other _ _ _ _ h

theorem soOff_keepsOff (s : State) (k j : Fin 16) (h : s.saf.so[k].hs = false ∧ s.saf.so[k].ls = false) :
    (s.soOff j).saf.so[k].hs = false ∧ (s.soOff j).saf.so[k].ls = false := by
  by_cases e : j = k
  · rw [e]; exact soOff_so s k
  · rw [soOff_away s j k e]; exact h

theorem foldOff (l : List (Fin 16 × SafRec)) (s : State) (k : Fin 16) (x : SafRec) (h : (k, x) ∈ l) :
    let u := l.foldl (fun s p => s.soOff p.1) s
    u.saf.so[k].hs = false ∧ u.saf.so[k].ls = false := by
  obtain ⟨l1, l2, e⟩ := List.append_of_mem h
  dsimp only
  rw [e, List.foldl_append, List.foldl_cons]
  exact foldl_keeps (fun w : State => w.saf.so[k].hs = false ∧ w.saf.so[k].ls = false) (fun y w hw => soOff_keepsOff w k y.1 hw) l2 (soOff_so _ k)

/-- SAF, but for the SO pairs, is left alone when pairs de-energise. -/
theorem soOff_stops (s : State) (k : Fin 16) : (s.soOff k).saf.stops = s.saf.stops ∧ (s.soOff k).saf.escalated = s.saf.escalated := by
  unfold State.soOff
  dsimp only
  rw [State.bumpIf_saf]
  exact ⟨rfl, rfl⟩

theorem outletOff_stops (s : State) (b : Fin 12) : (s.outletOff b).saf.stops = s.saf.stops :=
  foldl_keeps (fun w : State => w.saf.stops = s.saf.stops) (fun x w h => (soOff_stops w x.1).1.trans h) _ rfl

/-- A stall that any fast path with the same cause leaves gated with its path open. -/
def GatedOff (c : Nat) (n : Fin 64) (u : State) : Prop :=
  u.stalls[n].st = .stopping ∧ u.stalls[n].cause = c ∧ u.stalls[n].matrix = none ∧ u.stalls[n].gatedOut = true

theorem stall_same {x y : Stall} (h1 : y.link = x.link) (h2 : y.taken = x.taken) (h3 : y.rest = x.rest) : y = x := by
  cases x; cases y
  simp only [Stall.taken, Stall.rest, Prod.mk.injEq] at h1 h2 h3
  simp_all

theorem fastPath_away (s : State) (n k : Fin 64) (c : Nat) (h : n ≠ k) : (s.fastPath n c).stalls[k] = s.stalls[k] := by
  have o : ∀ cs : Block → Bool, cs .sums = true → cs (.stall n) = true → cs .mkt = true → OnlyIn cs s (s.fastPath n c) := fun cs a b d =>
    State.fastPath_only a b d (OnlyIn.refl _ s)
  refine stall_same ?_ ?_ ?_
  · exact o (allSave (.link k)) rfl (by simp [allSave]) rfl (.link k) (by simp [allSave])
  · exact o (allSave (.sample k)) rfl (by simp [allSave]) rfl (.sample k) (by simp [allSave])
  · exact o (allSave (.stall k)) rfl (by simp [allSave, h]) rfl (.stall k) (by simp [allSave])

theorem fastPath_gates (s : State) (n k : Fin 64) (c : Nat) (h : s.stalls[n].st = .assigned ∨ GatedOff c n s) :
    (s.fastPath k c).stalls[n].st = .assigned ∧ k ≠ n ∨ GatedOff c n (s.fastPath k c) := by
  by_cases e : k = n
  · subst e
    have g := State.fastPath_self s k c (h.imp id fun q => q.1)
    exact .inr ⟨g.1, g.2.1, g.2.2.2.1, g.2.2.1⟩
  · unfold GatedOff
    rw [fastPath_away s k n c e]
    exact h.imp (fun q => ⟨q, e⟩) id

theorem foldGates (l : List (Fin 64)) (s : State) (n : Fin 64) (c : Nat) (hn : n ∈ l) (h : s.stalls[n].st = .assigned) :
    GatedOff c n (l.foldl (fun s k => s.fastPath k c) s) := by
  obtain ⟨l1, l2, e⟩ := List.append_of_mem hn
  rw [e, List.foldl_append, List.foldl_cons]
  have a := foldl_keeps (fun w : State => w.stalls[n].st = .assigned ∨ GatedOff c n w) (fun k w hw => (fastPath_gates w n k c hw).imp (·.1) id) l1 (s := s) (.inl h)
  have b := (fastPath_gates _ n n c a).resolve_left fun q => q.2 rfl
  exact foldl_keeps (fun w : State => GatedOff c n w) (fun k w hw => by
    rcases fastPath_gates w n k c (.inr hw) with q | q
    · by_cases e : k = n
      · exact absurd e q.2
      · have := q.1
        rw [fastPath_away w k n c e, hw.1] at this
        cases this
    · exact q) l2 b

theorem fastPath_saf (s : State) (n : Fin 64) (c : Nat) : (s.fastPath n c).saf = s.saf :=
  (State.fastPath_only (cs := allSave .saf) rfl (by simp [allSave]) rfl (OnlyIn.refl _ s)) .saf rfl

/-! ## Unlocks and commands -/

/-- What is drawn depends on the counter of draws alone. -/
theorem drawBytes_of {w s : State} (h : w.draws = s.draws) (n : Nat) : (w.drawBytes n).1 = (s.drawBytes n).1 := by
  induction n generalizing w s with
  | zero => rfl
  | succ n ih =>
    unfold State.drawBytes State.drawByte
    dsimp only
    rw [h]
    rw [ih (w := { w with draws := s.draws + 1 }) (s := { s with draws := s.draws + 1 }) rfl]

/-- A new nonce of the SYS unlock. -/
theorem State.newSysNonce_eq (w s : State) (h : w.draws = s.draws) : w.newSysNonce = { w with draws := s.draws + 16, lock := { w.lock with nonce := (s.drawBytes 16).1 } } := by
  unfold State.newSysNonce
  dsimp only
  rw [State.drawBytes_draws, drawBytes_of h, h]

/-- A new nonce of the safety unlock. -/
theorem State.newSafNonce_eq (w s : State) (h : w.draws = s.draws) : w.newSafNonce = { w with draws := s.draws + 16, saf := { w.saf with unlock := { w.saf.unlock with nonce := (s.drawBytes 16).1 } } } := by
  unfold State.newSafNonce
  dsimp only
  rw [State.drawBytes_draws, drawBytes_of h, h]

end Sys2Proof.Machine
end

