-- ==== Sys2Proof/Laws/OpsRole.lean ====
section
/-! SUPPORT. What the shared operations of the role answer: one lemma for each, cited instead of unfolding it. -/
namespace Sys2Proof.Machine

/-! ## The role -/

/-- What a change of role writes in PAIR (R335). -/
theorem State.setRole_pair (s : State) (role : Role) (cause : Nat) : (s.setRole role cause).pair =
    if s.pair.role = role then s.pair else
      { s.pair with role, roleAt := s.mt, holdoffDue := s.mt + secs s.pair.holdoffS, roleChange := s.mt,
                    unfitCode := if role = .unfit then cause else 0, seljo := { s.pair.seljo with slew := 0 } } := by
  have follow : ∀ w : State, w.busFollow.pair = w.pair ∧ w.busFollow.mt = w.mt := fun w => by
    unfold State.busFollow; split <;> exact ⟨rfl, rfl⟩
  unfold State.setRole
  split
  · rfl
  · dsimp only
    rw [State.log_pair, State.bumpIf_pair]
    unfold State.setPair
    dsimp only
    split
    · rw [(follow s).1, (follow s).2]
    · rfl

/-- What of PAIR a takeover settles (R335, R336). -/
def Pair.held (p : Pair) : Role × Bool × Bool × Nat × Nat × Nat := (p.role, p.activeO, p.activeI, p.epoch, p.takeovers, p.tko)

theorem State.setRole_held (s : State) (role : Role) (cause : Nat) :
    (s.setRole role cause).pair.held = (role, s.pair.activeO, s.pair.activeI, s.pair.epoch, s.pair.takeovers, s.pair.tko) := by
  rw [State.setRole_pair]
  split
  · next h => unfold Pair.held; rw [h]
  · rfl

theorem keeps_held {cs : Block → Bool} {s u : State} (o : OnlyIn cs s u) (h1 : cs .role = false) (h2 : cs .pair = false) : u.pair.held = s.pair.held := by
  rw [pair_same (o .role h1) (o .pair h2)]

/-- Every part but the role and PAIR. -/
def notPair : Block → Bool := fun x => decide (x ≠ .role) && decide (x ≠ .pair)

/-- The hold circuit is no part of what a takeover settles. -/
theorem State.holdAnew_held (s : State) : s.holdAnew.pair.held = s.pair.held := rfl

theorem State.armHold_held (s : State) (t : Nat) : (s.armHold t).pair.held = s.pair.held := by
  unfold State.armHold
  split <;> rfl

/-- Entry to ACTIVE (R335, R336). -/
theorem State.gainActive_held (s : State) (b : Bool) : (s.gainActive b).pair.held =
    (.active, true, s.pair.activeI, (max s.pair.epoch s.pair.partner.epoch + 1) % 65536, if b then satInc 8 s.pair.takeovers else s.pair.takeovers, s.mt) := by
  unfold State.gainActive
  dsimp only
  generalize e : State.setPair s.holdAnew _ = w
  refine (keeps_held (State.sendMstAll_only (cs := notPair) (fun _ => rfl) (OnlyIn.refl _ (w.setRole .active 0))) rfl rfl).trans ?_
  rw [State.setRole_held, ← e]
  rfl

/-- A change that ends leaves the role (R55). -/
theorem State.cancelPending_held (s : State) (c : Nat) : (s.cancelPending c).pair.held = s.pair.held := by
  unfold State.cancelPending
  split
  · rfl
  · split
    · rfl
    · dsimp only
      refine (keeps_held (State.slotSt_only (cs := notPair) rfl rfl (State.profErr_only rfl rfl (OnlyIn.refl _ _))) rfl rfl).trans rfl

/-- A handover that ends at a takeover leaves the role as it was gained. -/
theorem State.finishHandover_held (s : State) : s.finishHandover.pair.held = s.pair.held := by
  unfold State.finishHandover
  split
  · next p _ =>
    split
    · split
      · rfl
      · unfold State.takeHandover
        have o := keeps_held (State.switchHandover_only (a1 := p) (cs := notPair) rfl rfl rfl rfl rfl (fun _ => rfl) rfl rfl rfl rfl rfl (OnlyIn.refl _ (s.setSeljo fun q => { q with partnerReleasing := false }))) rfl rfl
        generalize State.switchHandover _ _ = w at o ⊢
        exact o
    · exact State.cancelPending_held s 0x34
  · rfl

/-- What a module does without a shadow leaves the role as it was gained (R350). -/
theorem State.liteTakeover_held (s : State) (b : Bool) : (s.liteTakeover b).pair.held = s.pair.held := by
  unfold State.liteTakeover
  refine (keeps_held (State.liteSteps_only (cs := notPair) rfl rfl rfl (fun _ => rfl) (fun _ => rfl) (fun _ => rfl) (fun _ => rfl) (fun _ => rfl)
    rfl rfl rfl rfl (OnlyIn.refl _ _)) rfl rfl).trans ?_
  split
  · exact State.cancelPending_held s 0x34
  · rfl

/-- ACTIVE gained (R335, R336, R342, R350). -/
theorem State.becomeActive_held (s : State) (b : Bool) : (s.becomeActive b).pair.held =
    (.active, true, s.pair.activeI, (max s.pair.epoch s.pair.partner.epoch + 1) % 65536, if b then satInc 8 s.pair.takeovers else s.pair.takeovers, s.mt) := by
  unfold State.becomeActive
  dsimp only
  split
  · exact (State.armHold_held ..).trans (State.gainActive_held s b)
  · split
    · exact ((State.finishHandover_held _).trans (State.armHold_held ..)).trans (State.gainActive_held s b)
    · exact ((State.liteTakeover_held _ b).trans (State.armHold_held ..)).trans (State.gainActive_held s b)

/-- Entry to SYNCING (R335). -/
theorem State.enterSyncing_role (s : State) (c : Nat) : let p := (s.enterSyncing c).pair
    p.role = .syncing ∧ p.activeO = false ∧ p.activeI = s.pair.activeI ∧ p.epoch = s.pair.epoch := by
  unfold State.enterSyncing
  have h := State.setRole_held ((s.setPair fun p => { p with activeO := false, degraded := false }).setSeljo restartSync) .syncing c
  generalize State.setRole _ _ _ = w at h ⊢
  simp only [Pair.held, Prod.mk.injEq] at h
  exact ⟨h.1, h.2.1, h.2.2.1, h.2.2.2.1⟩

/-- Entry to UNFIT with its code (R335). -/
theorem State.enterUnfit_role (s : State) (c : Nat) (h : s.pair.role ≠ .unfit) : let p := (s.enterUnfit c).pair
    p.role = .unfit ∧ p.activeO = false ∧ p.activeI = s.pair.activeI ∧ p.unfitCode = c := by
  unfold State.enterUnfit
  rw [State.setRole_pair]
  rw [if_neg (by exact h)]
  exact ⟨rfl, rfl, rfl, rfl⟩

/-- Two changes of one element. -/
theorem vupd_vupd {α : Type} {n : Nat} (v : Vector α n) (i : Fin n) (f g : α → α) : vupd (vupd v i f) i g = vupd v i fun x => g (f x) := by
  refine Vector.ext fun k hk => ?_
  have e := vupd_get (vupd v i f) i ⟨k, hk⟩ g
  have e1 := vupd_get v i ⟨k, hk⟩ f
  have e2 := vupd_get v i ⟨k, hk⟩ fun x => g (f x)
  simp only [Fin.getElem_fin] at e e1 e2
  rw [e, e1, e2]
  split <;> rfl

end Sys2Proof.Machine
end

