-- ==== Sys2Proof/Laws/OpsBus.lean ====
section
/-! SUPPORT. What the shared operations of the site bus answer: one lemma for each, cited instead of unfolding it. -/
namespace Sys2Proof.Machine

/-! ## The site bus -/

@[simp] theorem State.setCh_self (s : State) (n : Fin 2) (f : Channel → Channel) : (s.setCh n f).sbus.ch[n] = f s.sbus.ch[n] := vupd_here ..

@[simp] theorem State.clearBusLoad_sbus (s : State) : s.clearBusLoad.sbus = s.sbus := by
  unfold State.clearBusLoad; dsimp only; split <;> split <;> rfl

@[simp] theorem State.setBusLoad_sbus (s : State) : s.setBusLoad.sbus = s.sbus := by unfold State.setBusLoad; split <;> rfl

theorem State.setBusLoad_on (s : State) : s.setBusLoad.assume.busLoad = true := by
  unfold State.setBusLoad
  split
  · assumption
  · rfl

/-- New error counters of a channel (R378). -/
theorem State.setErr_sbus (s : State) (ch : Fin 2) (tec rec_ : Nat) : (s.setErr ch tec rec_).sbus =
    { s.sbus with ch := vupd s.sbus.ch ch fun c => { c with
      tec := min 255 tec, rec_ := min 255 rec_, err := errOf tec rec_, busOff := if errOf tec rec_ = 2 ∧ s.sbus.ch[ch].err ≠ 2 then satInc 8 c.busOff else c.busOff } } := by
  unfold State.setErr
  dsimp only
  split
  · rfl
  · rw [State.log_sbus]; rfl

/-- A mailbox reports a result (R375). -/
theorem State.boxResult_sbus (s : State) (k : Fin 8) (r : TxResult) : (s.boxResult k.val r).sbus =
    { s.sbus with boxes := vupd s.sbus.boxes k fun x => { x with result := r, cancelHeld := x.cancelHeld && txBusy r } } := by
  unfold State.boxResult
  rw [show fin? 8 k.val = some k by unfold fin?; simp]
  dsimp only
  rw [State.bump_sbus]
  rfl

/-- Entry to RUN changes the power state alone of PWR (R61). -/
theorem State.activateImage_pwr (s : State) (p : Fin 4) (img : Image) (src : Nat) (m : Master) : (s.activateImage p img src m).pwr = { s.pwr with st := .run } := by
  have k : ∀ {z q : State}, OnlyIn (allSave .pwr) z q → q.pwr = z.pwr := fun o => o.keeps_pwr rfl
  have h1 : (s.takeSlot p img src).pwr = s.pwr := k (State.takeSlot_only rfl rfl rfl (OnlyIn.refl _ _))
  have h2 : ∀ a : State, a.pwr = s.pwr → (State.pwr { a with prof := { a.prof with gridFrom := roundUpTo img.header.pitchNs a.mt } }) = s.pwr := fun _ h => h
  have h3 : ∀ b : State, b.pwr = s.pwr → ((b.loadLattice img).initialValues).pwr = s.pwr := fun b h =>
    (k (State.initialValues_only (fun _ => rfl) rfl rfl rfl (State.loadLattice_only rfl rfl (OnlyIn.refl _ b)))).trans h
  have h4 : ∀ c : State, c.pwr = s.pwr → State.pwr { c with mkt := { c.mkt with moves := Vector.replicate 8 {} } } = s.pwr := fun _ h => h
  have h5 : ∀ d : State, d.pwr = s.pwr → (d.forAll 64 fun n s => (s.setStall n (stallSwitched s.mt)).switchLink n).pwr = s.pwr := fun d h =>
    State.forAll_keeps (fun z => z.pwr = s.pwr) (fun _ z hz =>
      (k (State.switchLink_only rfl rfl rfl (State.setStall_only (fun _ => ⟨.inl rfl, .inl rfl, .inl rfl⟩) (OnlyIn.refl _ z)))).trans hz) h
  have h6 : ∀ e : State, e.pwr = s.pwr → (((e.takeSafety img).storeSafety m img).clampTo img).pwr = s.pwr := fun e h =>
    (k (State.clampTo_only rfl rfl rfl rfl rfl (State.storeSafety_only rfl rfl rfl rfl rfl (State.takeSafety_only rfl (OnlyIn.refl _ e))))).trans h
  have h7 : ∀ f : State, f.pwr = s.pwr → (State.bumpIf { f with pwr := { f.pwr with st := .run }, pair := { f.pair with holdPitch := none, holdTick := none } } (f.pwr.st != PowerSt.run) 1).pwr = { s.pwr with st := .run } := fun f h => by
    rw [State.bumpIf_pwr]
    exact congrArg (fun z : Pwr => { z with st := PowerSt.run }) h
  unfold State.activateImage
  exact h7 _ (h6 _ (h5 _ (h4 _ (h3 _ (h2 _ h1)))))

/-- The power state alone of PWR may have moved, from READY to RUN. -/
def Pwr.ran (p q : Pwr) : Prop := q = p ∨ q = { p with st := .run }

theorem State.bootCheck_pwr (s : State) (p : Fin 4) (src : Nat) : s.pwr.ran (s.bootCheck p src).pwr := by
  have k : ∀ {z q : State}, OnlyIn (allSave .pwr) z q → q.pwr = z.pwr := fun o => o.keeps_pwr rfl
  have g : ∀ v, (s.signatureServed p v).pwr = s.pwr := fun v => k (State.signatureServed_only rfl rfl rfl rfl rfl (OnlyIn.refl _ s))
  unfold State.bootCheck
  split
  · exact .inl rfl
  · dsimp only
    split
    · refine .inl ?_
      rw [State.bump_pwr]
      exact (k (State.checkFailed_only rfl rfl rfl rfl (OnlyIn.refl _ _))).trans (g _)
    · refine .inr ?_
      rw [State.activateImage_pwr]
      rw [k (State.checkPassed_only rfl rfl rfl rfl (OnlyIn.refl _ _)), g]

theorem State.startUp_pwr (s : State) (pins : Option BootPins) (st met : Bool) : s.pwr.ran (s.startUp pins st met).pwr := by
  have k : ∀ {z q : State}, OnlyIn (allSave .pwr) z q → q.pwr = z.pwr := fun o => o.keeps_pwr rfl
  unfold State.startUp
  dsimp only
  rw [k (State.startRole_only rfl rfl rfl rfl rfl rfl rfl (OnlyIn.refl _ _))]
  have a : ((s.resumeLockouts.ledgerAdopt.takePins pins).bootFirmware met).loadBoot.pwr = s.pwr :=
    (k (State.loadBoot_only rfl (OnlyIn.refl _ _))).trans <|
    (k (State.bootFirmware_only rfl rfl rfl rfl rfl rfl rfl (OnlyIn.refl _ _))).trans <|
    (k (State.takePins_only rfl rfl rfl rfl rfl rfl (OnlyIn.refl _ _))).trans <|
    (k (State.ledgerAdopt_only rfl rfl (OnlyIn.refl _ _))).trans (k (State.resumeLockouts_only rfl rfl rfl (OnlyIn.refl _ s)))
  generalize ((s.resumeLockouts.ledgerAdopt.takePins pins).bootFirmware met).loadBoot = q at a ⊢
  have b : (if met then q else q.metRestart).pwr = s.pwr := by
    split
    · exact a
    · exact (k (State.metRestart_only rfl rfl rfl rfl (OnlyIn.refl _ q))).trans a
  generalize (if met then q else q.metRestart) = y at b ⊢
  have e : (if st then (y.bootSafety st).adoptAux else y.bootSafety st).refreshAssume.pwr = s.pwr := by
    have g : (y.bootSafety st).pwr = s.pwr := (k (State.bootSafety_only rfl rfl rfl rfl rfl rfl (OnlyIn.refl _ y))).trans b
    refine (k (State.refreshAssume_only rfl rfl (OnlyIn.refl _ _))).trans ?_
    split
    · exact (k (State.adoptAux_only rfl rfl rfl (OnlyIn.refl _ _))).trans g
    · exact g
  generalize (if st then (y.bootSafety st).adoptAux else y.bootSafety st).refreshAssume = z at e ⊢
  rw [← e, k (State.setUpd_only rfl (OnlyIn.refl _ _))]
  split
  · rw [k (State.seedInputs_only rfl (OnlyIn.refl _ _))]
    exact State.bootCheck_pwr ..
  · exact .inl rfl

theorem State.startAgain_pwr (s : State) (c : Nat) (pins : Option BootPins) (st : Bool) : s.pwr.ran (s.startAgain c pins st).pwr := by
  have k : ∀ {z q : State}, OnlyIn (allSave .pwr) z q → q.pwr = z.pwr := fun o => o.keeps_pwr rfl
  unfold State.startAgain
  dsimp only
  rw [State.log_pwr, k (State.reconnect_only (by decide) (fun _ => rfl) (OnlyIn.refl _ _))]
  exact State.startUp_pwr ..

theorem State.startAgain_kept (k : Block) (h : k ∈ [Block.mt, .fuses, .clk, .rtc, .answer] ∨ ∃ b, k = .settings b) (s : State) (c : Nat) (pins : Option BootPins) (st : Bool) :
    sameBlock k s (s.startAgain c pins st) := by
  have o : OnlyIn (allSave k) s (s.startAgain c pins st) := by
    rcases h with h | ⟨b, h⟩
    · simp only [List.mem_cons, List.not_mem_nil, or_false] at h
      rcases h with h | h | h | h | h <;>
        (subst h; exact State.startAgain_only rfl rfl rfl rfl rfl rfl rfl rfl rfl rfl (fun _ => rfl) (fun _ => rfl) (fun _ => rfl) (fun _ => rfl) rfl rfl rfl rfl rfl rfl rfl rfl rfl rfl rfl rfl rfl (OnlyIn.refl _ _))
    · subst h
      exact State.startAgain_only rfl rfl rfl rfl rfl rfl rfl rfl rfl rfl (fun _ => rfl) (fun _ => rfl) (fun _ => rfl) (fun _ => rfl) rfl rfl rfl rfl rfl rfl rfl rfl rfl rfl rfl rfl rfl (OnlyIn.refl _ _)
  exact o k (allSave_self k)

theorem State.releaseActive_kept (k : Block) (h : k ∈ [Block.mt, .fuses, .clk, .pwr, .rtc, .mram, .vault, .upd, .answer] ∨ ∃ b, k = .settings b) (s : State) (c : Nat) :
    sameBlock k s (s.releaseActive c) := by
  have o : OnlyIn (allSave k) s (s.releaseActive c) := by
    rcases h with h | ⟨b, h⟩
    · simp only [List.mem_cons, List.not_mem_nil, or_false] at h
      rcases h with h | h | h | h | h | h | h | h | h <;>
        (subst h; exact State.releaseActive_only rfl rfl rfl rfl (fun _ => rfl) (fun _ => rfl) (fun _ => rfl) (fun _ => rfl) (fun _ => rfl) rfl rfl rfl rfl rfl rfl (OnlyIn.refl _ _))
    · subst h
      exact State.releaseActive_only rfl rfl rfl rfl (fun _ => rfl) (fun _ => rfl) (fun _ => rfl) (fun _ => rfl) (fun _ => rfl) rfl rfl rfl rfl rfl rfl (OnlyIn.refl _ _)
  exact o k (allSave_self k)

theorem State.setRole_lastCause (s : State) (r : Role) (c : Nat) : (s.setRole r c).pair.lastCause = s.pair.lastCause := by
  rw [State.setRole_pair]
  split <;> rfl

/-- Cancelling a change leaves the last cause (R55). -/
theorem State.cancelPending_cause (s : State) (c : Nat) : (s.cancelPending c).pair.lastCause = s.pair.lastCause := by
  unfold State.cancelPending
  split
  · rfl
  · split
    · rfl
    · dsimp only
      have o : ∀ w : State, OnlyIn notPair w ((w.profErr c 0 0xFFFF).slotSt ‹PendingChange›.slot .valid) := fun w =>
        State.slotSt_only rfl rfl (State.profErr_only rfl rfl (OnlyIn.refl _ w))
      rw [pair_same ((o _) .role rfl) ((o _) .pair rfl)]

/-- What a release leaves unless a shadow continues the site. -/
theorem State.dropSite_pair (q : State) : (if q.pair.mode = .full then q else q.dropSite).pair = q.pair := by
  split
  · rfl
  · have o : OnlyIn notPair q q.dropSite := State.dropSite_only rfl rfl (fun _ => rfl) (fun _ => rfl) (fun _ => rfl) (fun _ => rfl) (fun _ => rfl) rfl (OnlyIn.refl _ _)
    exact pair_same (o .role rfl) (o .pair rfl)

/-- The cause of a release of ACTIVE is noted (R345). -/
theorem State.releaseActive_cause (s : State) (c : Nat) (h : s.pair.role = .active) : (s.releaseActive c).pair.lastCause = c := by
  unfold State.releaseActive
  rw [h]
  dsimp only
  have h1 : ((s.countRelease c).allOff).pair.lastCause = c := by
    have o : OnlyIn notPair (s.countRelease c) (s.countRelease c).allOff := State.allOff_only rfl rfl (OnlyIn.refl _ _)
    exact (congrArg Pair.lastCause (pair_same (o .role rfl) (o .pair rfl))).trans rfl
  generalize (s.countRelease c).allOff = z at h1 ⊢
  have h2 : (if z.paired && c != 0x0B then z.cancelPending 0x34 else z).pair.lastCause = c := by
    split
    · exact (State.cancelPending_cause z 0x34).trans h1
    · exact h1
  generalize (if z.paired && c != 0x0B then z.cancelPending 0x34 else z) = x at h2 ⊢
  have h3 : (if x.pair.mode = .full then x else x.dropSite).pair.lastCause = c := by rw [State.dropSite_pair]; exact h2
  generalize (if x.pair.mode = .full then x else x.dropSite) = y at h3 ⊢
  unfold State.afterRelease
  split
  · dsimp only
    unfold State.setPair
    dsimp only
    rw [State.setRole_lastCause]
    exact h3
  · split
    · rw [State.setRole_lastCause]; exact h3
    · unfold State.enterSyncing
      rw [State.setRole_lastCause]; exact h3

/-- Drawing octets moves the counter of free values alone. -/
theorem drawBytes_same (n : Nat) : ∀ s : State, (s.drawBytes n).2 = { s with draws := (s.drawBytes n).2.draws } := by
  induction n with
  | zero => intro s; rfl
  | succ n ih =>
    intro s
    unfold State.drawBytes
    dsimp only
    rw [ih]
    rfl

theorem drawBytes_keeps (n : Nat) (z : State) : (z.drawBytes n).2.mt = z.mt ∧ (z.drawBytes n).2.clk = z.clk ∧ (z.drawBytes n).2.pwr = z.pwr ∧ (z.drawBytes n).2.rtc = z.rtc ∧
    (z.drawBytes n).2.vault = z.vault := by
  rw [drawBytes_same]
  exact ⟨rfl, rfl, rfl, rfl, rfl⟩

/-- What a break of the tamper mesh leaves of the vault (R440). -/
theorem State.zeroise_parts (z : State) : z.zeroise.rtc = z.rtc ∧ z.zeroise.vault = { z.vault with slots := Vector.replicate 64 none, salt := (z.drawBytes 32).1, zeroised := true } ∧
    z.zeroise.met.key = none := by
  have e := drawBytes_keeps 32 z
  unfold State.zeroise
  generalize z.drawBytes 32 = r at *
  exact ⟨e.2.2.2.1, by rw [← e.2.2.2.2]; rfl, rfl⟩
/-- What the refresh of SYS.ASSUME shows and keeps. -/
theorem refresh_flags (z : State) : z.refreshAssume.assume.clock = (!z.clk.refOk || !z.clk.x32Ok || z.clk.lock.toList.any fun b => !b) ∧
    z.refreshAssume.assume.supply = (z.pwr.supplyBad || z.pwr.vin24Low || z.pwr.pfw) ∧ z.refreshAssume.clk = z.clk ∧ z.refreshAssume.pwr = z.pwr ∧ z.refreshAssume.rtc = z.rtc ∧
    z.refreshAssume.met = z.met ∧ z.refreshAssume.pair = z.pair ∧ z.refreshAssume.saf = z.saf ∧ z.refreshAssume.bays = z.bays := by
  unfold State.refreshAssume
  dsimp only
  exact ⟨by rw [State.bumpIf_assume], by rw [State.bumpIf_assume], State.bumpIf_clk .., State.bumpIf_pwr .., State.bumpIf_rtc .., State.bumpIf_met .., State.bumpIf_pair .., State.bumpIf_saf .., State.bumpIf_bays ..⟩

theorem metStop_parts (z : State) : z.metStop.met.tallying = false ∧ z.metStop.pwr = z.pwr ∧ z.metStop.clk = z.clk ∧ z.metStop.mt = z.mt := by
  unfold State.metStop State.writeCheckpoint
  dsimp only
  split <;> exact ⟨rfl, rfl, rfl, rfl⟩

/-- What takes over a stop at a window changes no other bay's stop. -/
theorem ssTake_other (z : State) (i b : Fin 12) (t : Nat) (e : i ≠ b) : (z.ssTake i t).saf.stops[b] = z.saf.stops[b] := by
  unfold State.ssTake
  dsimp only
  split
  · exact State.setSs_other _ _ _ _ e
  · split
    · refine (State.setSs_other _ _ _ _ e).trans ?_
      refine foldl_keeps (fun w : State => w.saf.stops[b] = z.saf.stops[b]) (fun n w hw => ?_) _ rfl
      rw [fastPath_saf]; exact hw
    · rfl

theorem ssLate_other (z : State) (i b : Fin 12) (e : i ≠ b) : (z.ssLate i).saf.stops[b] = z.saf.stops[b] := by
  unfold State.ssLate
  split
  · exact ssTake_other z i b _ e
  · rfl

/-- A ramp that a window takes over stays a ramp of its trigger. -/
theorem ssLate_ramp (z : State) (b : Fin 12) (h : z.saf.stops[b].st = .ramp) :
    (z.ssLate b).saf.stops[b].st = .ramp ∧ (z.ssLate b).saf.stops[b].trigger = z.saf.stops[b].trigger := by
  have k : (z.ssTake b z.lat.openAt).saf.stops[b].st = .ramp ∧ (z.ssTake b z.lat.openAt).saf.stops[b].trigger = z.saf.stops[b].trigger := by
    unfold State.ssTake
    dsimp only
    split
    · rw [State.setSs_self]; exact ⟨h, rfl⟩
    · rw [if_neg (by rw [h]; simp)]; exact ⟨h, rfl⟩
  unfold State.ssLate
  split
  · exact k
  · exact ⟨h, rfl⟩

theorem requestSafeStop_other (z : State) (i b : Fin 12) (e : i ≠ b) : (z.requestSafeStop i).saf.stops[b] = z.saf.stops[b] := by
  have cf : ∀ (w : State) a c, (w.capFreeze a c).saf = w.saf := fun w a c => by unfold State.capFreeze; split <;> rfl
  unfold State.requestSafeStop
  split
  · split
    · refine (ssLate_other _ i b e).trans ?_
      refine (congrArg (fun q : SafetyBlock => q.stops[b]) ((cf _ _ _).trans (State.bump_saf ..))).trans ?_
      exact State.setSs_other _ _ _ _ e
    · unfold State.ssDone
      dsimp only
      refine (congrArg (fun q : SafetyBlock => q.stops[b]) (State.log_saf ..)).trans ?_
      refine (State.setSs_other _ _ _ _ e).trans ?_
      unfold State.outletOff
      refine foldl_keeps (fun w => w.saf.stops[b] = z.saf.stops[b]) (fun x w hw => ?_) _ (State.setSs_other _ _ _ _ e)
      unfold State.soOff
      dsimp only
      exact (congrArg (fun q : SafetyBlock => q.stops[b]) (State.bumpIf_saf ..)).trans hw
  · exact State.setSs_other _ _ _ _ e

def vinF (b : Fin 12) (s : State) : State := if s.bays[b].energised then s.requestSafeStop b else s

theorem vin24_walk (z : State) : let u := z.forAll 12 vinF
    u.pwr = z.pwr ∧ ∀ b : Fin 12, z.bays[b].energised = true → z.saf.stops[b].st = .none → u.saf.stops[b].st = .ramp ∧ u.saf.stops[b].trigger = 1 := by
  have k : ∀ c (q : State) (i : Fin 12), (c = .pwr ∨ ∃ b, c = .outlet b) → sameBlock c q (if q.bays[i].energised then q.requestSafeStop i else q) := fun c q i hc => by
    split
    · rcases hc with hc | ⟨b, hc⟩ <;> subst hc
      · exact (State.requestSafeStop_only (cs := allSave .pwr) rfl rfl rfl (fun _ => rfl) rfl rfl rfl (OnlyIn.refl _ q)) .pwr rfl
      · exact (State.requestSafeStop_only (cs := allSave (.outlet b)) rfl rfl rfl (fun _ => rfl) rfl rfl rfl (OnlyIn.refl _ q)) (.outlet b) (by simp [allSave])
    · exact OnlyIn.refl (fun _ => false) q c rfl
  refine ⟨State.forAll_keeps (fun q => q.pwr = z.pwr) (fun i q hq => (show _ = q.pwr from k .pwr q i (.inl rfl)).trans hq) rfl, fun b g1 g2 => ?_⟩
  refine State.forAll_at b (Q := fun q => q.saf.stops[b].st = .none ∧ q.bays[b].energised = true) (R := fun q => q.saf.stops[b].st = .ramp ∧ q.saf.stops[b].trigger = 1) (fun j q hj hq => ?_) (fun q hq => ?_) (fun j q hj hq => ?_) z ⟨g2, g1⟩
  · have k2 : (if q.bays[j].energised then q.requestSafeStop j else q).bays[b].outlet = q.bays[b].outlet := k (.outlet b) q j (.inr ⟨b, rfl⟩)
    refine ⟨?_, ?_⟩
    rotate_left
    · show (if q.bays[j].energised then q.requestSafeStop j else q).bays[b].energised = true
      have g := hq.2
      unfold Bay.energised at g
      unfold Bay.energised at k2 ⊢
      rw [k2]; exact g
    unfold vinF
    split
    · rw [requestSafeStop_other q j b hj]; exact hq.1
    · exact hq.1
  · unfold vinF
    rw [if_pos hq.2]
    unfold State.requestSafeStop
    rw [if_pos hq.1, if_pos hq.2]
    have cf : ∀ (w : State) a c, (w.capFreeze a c).saf = w.saf := fun w a c => by unfold State.capFreeze; split <;> rfl
    have g : ∀ w : State, w.saf.stops[b].st = .ramp ∧ w.saf.stops[b].trigger = 1 → (w.ssLate b).saf.stops[b].st = .ramp ∧ (w.ssLate b).saf.stops[b].trigger = 1 :=
      fun w h => ⟨(ssLate_ramp w b h.1).1, (ssLate_ramp w b h.1).2.trans h.2⟩
    refine g _ ?_
    rw [cf, State.bump_saf, State.setSs_self]
    exact ⟨rfl, rfl⟩
  · unfold vinF
    split
    · rw [requestSafeStop_other q j b hj]; exact hq
    · exact hq

theorem releaseIfFit_cause (z : State) (c : Nat) (h : z.pair.role = .active) : (z.releaseIfFit c).pair.lastCause = c := by
  unfold State.releaseIfFit
  rw [if_neg (fun q => q h)]
  split
  · exact State.releaseActive_cause z c h
  · rw [State.bumpIf_pair]; rfl

/-- JUNCTION_TEMP_CHECK of a module that runs. -/
def junctionBody (s : State) (t : Nat) (tenths : Int) : State :=
    let since := if tenths ≤ 1250 then none else match s.pwr.hotSince with | some q => some q | none => some t
    let hot := match since with | some q => decide (q + ms 10 ≤ t) | none => false
    let was := s.pwr.hot
    let s := (s.setPwr fun p => { p with temp := tenths, peak := max p.peak (peakCode tenths), hotSince := since, hot }).bumpIf (was != hot) 1
    let s := if hot && !was then s.releaseIfFit 9 else s
    if 1400 < tenths then s.ctrlFail else s

theorem ctrlFail_pwr (y : State) : y.ctrlFail.pwr = y.pwr :=
  (State.ctrlFail_only (cs := allSave .pwr) rfl rfl rfl rfl (fun _ => rfl) (fun _ => rfl) (fun _ => rfl) (fun _ => rfl) (fun _ => rfl) rfl rfl rfl rfl rfl rfl (OnlyIn.refl _ y)) .pwr rfl

theorem releaseIfFit_pwr (z : State) (c : Nat) : (z.releaseIfFit c).pwr = z.pwr :=
  (State.releaseIfFit_only (cs := allSave .pwr) rfl rfl rfl rfl (fun _ => rfl) (fun _ => rfl) (fun _ => rfl) (fun _ => rfl) (fun _ => rfl) rfl rfl rfl rfl rfl rfl (OnlyIn.refl _ z)) .pwr rfl

theorem allOff_fault (z : State) : z.allOff.saf.ctrlFault = z.saf.ctrlFault := by
  unfold State.allOff
  refine State.forAll_keeps (fun w => w.saf.ctrlFault = z.saf.ctrlFault) (fun i w hw => ?_) rfl
  unfold State.soOff
  dsimp only
  rw [State.bumpIf_saf]
  exact hw

theorem releaseActive_fault (z : State) (c : Nat) : (z.releaseActive c).saf.ctrlFault = z.saf.ctrlFault := by
  unfold State.releaseActive
  split
  · dsimp only
    have h1 : (z.countRelease c).allOff.saf.ctrlFault = z.saf.ctrlFault := (allOff_fault _).trans rfl
    generalize (z.countRelease c).allOff = y at h1 ⊢
    have h0 : (if y.paired && c != 0x0B then y.cancelPending 0x34 else y).saf = y.saf := by
      split
      · exact (State.cancelPending_only (cs := allSave .saf) rfl rfl rfl rfl (OnlyIn.refl _ y)) .saf rfl
      · rfl
    generalize (if y.paired && c != 0x0B then y.cancelPending 0x34 else y) = v at h0 ⊢
    have h2 : (if v.pair.mode = .full then v else v.dropSite).saf = v.saf := by
      split
      · rfl
      · exact (State.dropSite_only (cs := allSave .saf) rfl rfl (fun _ => rfl) (fun _ => rfl) (fun _ => rfl) (fun _ => rfl) (fun _ => rfl) rfl (OnlyIn.refl _ v)) .saf rfl
    generalize (if v.pair.mode = .full then v else v.dropSite) = x at h2 ⊢
    have h3 : (x.afterRelease c).saf = x.saf := (State.afterRelease_only (cs := allSave .saf) rfl rfl rfl rfl rfl rfl (OnlyIn.refl _ x)) .saf rfl
    rw [h3, h2, h0, h1]
  · exact congrArg SafetyBlock.ctrlFault ((State.setRole_only (cs := allSave .saf) rfl rfl rfl rfl rfl rfl (OnlyIn.refl _ _)) .saf rfl)
  · rfl

/-- A failed safety controller says so (R319). -/
theorem ctrlFail_sets (y : State) : y.ctrlFail.saf.ctrlFault = true := by
  unfold State.ctrlFail
  split
  · assumption
  · rw [releaseActive_fault]
    refine State.forAll_keeps (fun w => w.saf.ctrlFault = true) (fun i w hw => ?_) ?_
    · rw [fastPath_saf]; exact hw
    · rw [allOff_fault, State.log_saf]

theorem junction_facts (s : State) (t : Nat) (tenths : Int) : let u := junctionBody s t tenths
    u.pwr.temp = tenths ∧
      (tenths ≤ 1250 → u.pwr.hot = false ∧ u.pwr.hotSince = none) ∧
      (1250 < tenths → s.pwr.hotSince = none → u.pwr.hotSince = some t ∧ u.pwr.hot = false) ∧
      (∀ q, 1250 < tenths → s.pwr.hotSince = some q → u.pwr.hotSince = some q ∧ u.pwr.hot = decide (q + 10000000 ≤ t) ∧
        (q + 10000000 ≤ t → s.pwr.hot = false → tenths ≤ 1400 → s.pair.role = .active → u.pair.lastCause = 9)) ∧
      (1400 < tenths → u.saf.ctrlFault = true) := by
  intro u
  let since := if tenths ≤ 1250 then none else match s.pwr.hotSince with | some q => some q | none => some t
  let hot := match since with | some q => decide (q + ms 10 ≤ t) | none => false
  have hh : hot = (match since with | some q => decide (q + ms 10 ≤ t) | none => false) := rfl
  have hsn : since = if tenths ≤ 1250 then none else match s.pwr.hotSince with | some q => some q | none => some t := rfl
  have hs : ∃ z : State, z.pwr = { s.pwr with temp := tenths, peak := max s.pwr.peak (peakCode tenths), hotSince := since, hot } ∧ z.pair = s.pair ∧
      u = (let y := if hot && !s.pwr.hot then z.releaseIfFit 9 else z; if 1400 < tenths then y.ctrlFail else y) :=
    ⟨(s.setPwr fun p => { p with temp := tenths, peak := max p.peak (peakCode tenths), hotSince := since, hot }).bumpIf (s.pwr.hot != hot) 1, State.bumpIf_pwr .., State.bumpIf_pair .., rfl⟩
  obtain ⟨z, zp, zr, e⟩ := hs
  clear_value u
  clear_value hot
  clear_value since
  have hy : ∃ y : State, y.pwr = z.pwr ∧ (hot = true → s.pwr.hot = false → s.pair.role = .active → y.pair.lastCause = 9) ∧ u = if 1400 < tenths then y.ctrlFail else y := by
    refine ⟨_, ?_, fun g1 g2 g3 => ?_, e⟩
    · split
      · exact releaseIfFit_pwr z 9
      · rfl
    · rw [g1, g2]
      exact releaseIfFit_cause z 9 (by rw [zr]; exact g3)
  obtain ⟨y, yp, yr, e⟩ := hy
  have up : u.pwr = { s.pwr with temp := tenths, peak := max s.pwr.peak (peakCode tenths), hotSince := since, hot } := by
    rw [e]
    split
    · exact (ctrlFail_pwr y).trans (yp.trans zp)
    · exact yp.trans zp
  refine ⟨by rw [up], fun g1 => ?_, fun g1 g2 => ?_, fun q g1 g2 => ⟨?_, ?_, fun g3 g4 g5 g6 => ?_⟩, fun g1 => ?_⟩
  · rw [if_pos g1] at hsn
    rw [hsn] at hh
    rw [up]
    exact ⟨hh, hsn⟩
  · rw [if_neg (by omega), g2] at hsn
    rw [hsn] at hh
    rw [up]
    refine ⟨hsn, hh.trans ?_⟩
    show decide (t + ms 10 ≤ t) = false
    unfold ms
    rw [decide_eq_false]; omega
  · rw [if_neg (by omega), g2] at hsn
    rw [up]; exact hsn
  · rw [if_neg (by omega), g2] at hsn
    rw [hsn] at hh
    rw [up]; exact hh
  · rw [if_neg (by omega), g2] at hsn
    rw [hsn] at hh
    rw [e, if_neg (by omega)]
    exact yr (hh.trans (decide_eq_true g3)) g4 g6
  · rw [e, if_pos g1]
    exact ctrlFail_sets y

/-- The clocks of a module that leaves DORMANT, or its entry (R420, R430). -/
def State.wokenClk (s : State) (slept : Bool) : Clk :=
  if s.pwr.st = .dormant then
    if slept then { s.clk with mtSrc := 0, lock := Vector.replicate 6 true } else { s.clk with mtSrc := s.pwr.dormSrc, lock := s.pwr.dormLock }
  else s.clk

/-- Its power block. -/
def State.wokenPwr (s : State) (src : WakeSrc) (slept : Bool) : Pwr :=
  { s.pwr with st := .ready, entering := false, released := none, wakeSrc := wakeBit src + 1,
               dormNs := if s.pwr.st = .dormant ∧ slept = true then s.pwr.dormUpTo s.mt else s.pwr.dormNs }

/-- MODULE as it comes back from DORMANT or its entry (R430): its clocks, the end of the sleep, then the steps that follow. -/
theorem wakeUp_start (s : State) (src : WakeSrc) (slept : Bool) : ∃ z : State, z.clk = s.wokenClk slept ∧ z.pwr = s.wokenPwr src slept ∧
    ∀ slot, s.wakeUp src slot slept = State.refreshAssume (let y := (((z.wakeMeter slept).busWakes (busCodeOf src)).wakeAux).wakeSlot slot
      if y.pair.role = .active then y else y.startRole) := by
  refine ⟨_, ?_, ?_, fun slot => rfl⟩
  · unfold State.wokenClk State.leaveDormant
    rw [State.bump_clk]
    split
    · cases slept <;> rfl
    · rfl
  · unfold State.wokenPwr State.leaveDormant
    rw [State.bump_pwr]
    by_cases d : s.pwr.st = .dormant
    · rw [if_pos d]
      cases slept <;> simp [d] <;> rfl
    · rw [if_neg d]
      simp [d, State.setPwr]

theorem wakeUp_clk (s : State) (src : WakeSrc) (slot : Option (Fin 4)) (slept : Bool) : (s.wakeUp src slot slept).clk = s.wokenClk slept := by
  have k : ∀ {z q : State}, OnlyIn (allSave .clk) z q → q.clk = z.clk := fun o => o.keeps_clk rfl
  obtain ⟨z, hc, -, e⟩ := wakeUp_start s src slept
  rw [e, (refresh_flags _).2.2.1, ← hc]
  have h5 : ∀ w : State, (w.wakeSlot slot).clk = w.clk := fun w =>
    k (State.wakeSlot_only rfl rfl rfl rfl rfl rfl rfl rfl (fun _ => rfl) (fun _ => rfl) (fun _ => rfl) (fun _ => rfl) rfl rfl rfl rfl rfl rfl rfl rfl rfl (OnlyIn.refl _ w))
  have h4 : ∀ b, (((z.wakeMeter b).busWakes (busCodeOf src)).wakeAux).clk = z.clk := fun b =>
    k (State.wakeAux_only rfl (State.busWakes_only rfl rfl (State.wakeMeter_only rfl rfl rfl rfl (OnlyIn.refl _ z))))
  dsimp only
  split
  · rw [h5, h4]
  · rw [k (State.startRole_only rfl rfl rfl rfl rfl rfl rfl (OnlyIn.refl _ _)), h5, h4]

theorem wakeUp_pwr (s : State) (src : WakeSrc) (slot : Option (Fin 4)) (slept : Bool) :
    (s.wokenPwr src slept).ran (s.wakeUp src slot slept).pwr := by
  have k : ∀ {z q : State}, OnlyIn (allSave .pwr) z q → q.pwr = z.pwr := fun o => o.keeps_pwr rfl
  obtain ⟨z, -, hp, e⟩ := wakeUp_start s src slept
  rw [e, (refresh_flags _).2.2.2.1, ← hp]
  have h4 : ∀ b, (((z.wakeMeter b).busWakes (busCodeOf src)).wakeAux).pwr = z.pwr := fun b =>
    k (State.wakeAux_only rfl (State.busWakes_only rfl rfl (State.wakeMeter_only rfl rfl rfl rfl (OnlyIn.refl _ z))))
  have h5 : ∀ w : State, w.pwr = z.pwr → z.pwr.ran (w.wakeSlot slot).pwr := fun w hw => by
    rw [← hw]
    unfold State.wakeSlot
    split
    · next p =>
      have e : ({ w with prof := { w.prof with active := none, image := none } }.slotSt p .valid).pwr = w.pwr := k (State.slotSt_only rfl rfl (OnlyIn.setProf rfl (OnlyIn.refl _ w)))
      exact (fun y hy => (hy ▸ State.bootCheck_pwr y p _ : w.pwr.ran (y.bootCheck p w.prof.source).pwr) : ∀ y : State, y.pwr = w.pwr → w.pwr.ran (y.bootCheck p w.prof.source).pwr) _ e
    · exact .inl rfl
  dsimp only
  split
  · exact h5 _ (h4 _)
  · rw [k (State.startRole_only rfl rfl rfl rfl rfl rfl rfl (OnlyIn.refl _ _))]
    exact h5 _ (h4 _)

end Sys2Proof.Machine
end

