-- ==== Sys2Proof/WellFormed.lean ====
section
/-! DEFINITION. Which commands are well formed: every operand lies in the range its rule gives it. A command that is not well
formed cannot reach the module; the meanings do not rely on it. -/
namespace Sys2Proof

/-- A number below a bound. -/
def below (b n : Nat) : Bool := decide (n < b)

/-- A market time: 64 bits (R10). -/
def isTime (t : Nat) : Bool := below (2 ^ 64) t

/-- An address, a register value or an IPv4 address: 32 bits (R6, R407). -/
def isWord (n : Nat) : Bool := below (2 ^ 32) n

/-- A signed 16-bit number (R433). -/
def isShort (z : Int) : Bool := decide (-32768 ≤ z ∧ z ≤ 32767)

/-- A list with one entry for each of `n` inputs. -/
def ofLength {α : Type} (n : Nat) (xs : List α) : Bool := xs.length == n

/-- Sixteen levels on each channel and sixteen switches of each kind (R296, R307). -/
def isScan (rd : ScanReadings) : Bool :=
  ofLength 16 rd.a && ofLength 16 rd.b && ofLength 16 rd.hsConducts && ofLength 16 rd.lsConducts && ofLength 4 rd.limiting

/-- 36 temperature inputs (R236). -/
def isTick (rd : TickReadings) : Bool := ofLength 36 rd.ts

/-- 32 metrology channels (R259). -/
def isMetSample (x : MetSample) : Bool :=
  ofLength 32 x.codes && ofLength 32 x.stuck && (x.codes.all fun v => decide (-(2 ^ 23) ≤ v ∧ v < 2 ^ 23)) &&
  (x.streams.isEmpty || ofLength 32 x.streams) && x.streams.all fun v => decide (v.length ≤ 12288)

/-- A memory event names a lane, a tile and an offset of a lane's tile memory (R145), or the market supervisor as lane 8 (R345). -/
def isEcc (e : EccEvent) : Bool := below 9 e.lane && below 1024 e.tile && below 262144 e.offset

/-- The head and payload of a Seljo message: LEN is 16 bits (R339). -/
def isSeljo (h : SeljoHead) : Bool := below 256 h.flags && isWord h.seq && isTime h.time && below 65536 h.payload.length && isWord h.crc

/-- A PITCH message (R339): 64 bits of USABLE, a word of DIGEST, 24 bytes for each stall. -/
def isPitchMsg (m : PitchMsg) : Bool := below (2 ^ 64) m.usable && isWord m.digest && m.inputs.all fun b => b.length == 24

/-- Bytes a DLC stands for (ISO 11898-1). -/
def dlcBytes (fd : Bool) (dlc : Nat) : Nat :=
  if dlc ≤ 8 then dlc else if !fd then 8 else [12, 16, 20, 24, 32, 48, 64].getD (dlc - 9) 64

/-- A CAN frame: identifier of its format, DLC, and as many data bytes as the DLC says (R376). -/
def isCanFrame (f : CanFrame) : Bool :=
  below (if f.ext then 2 ^ 29 else 2 ^ 11) f.id && below 16 f.dlc && (if f.remote then f.data.isEmpty else ofLength (dlcBytes f.fd f.dlc) f.data)

/-- A datagram: address and ports (R396). -/
def isDatagram (d : Datagram) : Bool := isWord d.srcIp && below 65536 d.srcPort && below 65536 d.dstPort

/-- PROF1, PROF0 and SIDE (R58). -/
def isPins (p : BootPins) : Bool := below 4 p.prof && below 2 p.side

/-- An Announce message (R424). -/
def isAnnounce (a : Announce) : Bool :=
  below (2 ^ 80) a.source && below 256 a.domain && below (2 ^ 64) a.grandmaster && below 256 a.priority1 && below 256 a.clockClass && below 256 a.accuracy &&
  below 65536 a.variance && below 256 a.priority2 && below 65536 a.steps && isShort a.utcOffset

/-- The head of a PTP message (R424). -/
def isPtpHead (h : PtpHead) : Bool := below 256 h.domain && below (2 ^ 80) h.source && below 65536 h.seq

/-- A Delay_Resp (R425). -/
def isPtpResp (r : PtpResp) : Bool := isPtpHead r.head && below (2 ^ 80) r.requesting && isTime r.sent

/-- A snapshot holds terms and bids of twelve bays (R339). -/
def isSnap (x : TickSnap) : Bool := ofLength 12 x.terms && ofLength 12 x.bids

/-- A STATE message: stalls by number, eight move slots, twelve safe stops, 24 AUX duties (R339). -/
def isStateMsg (x : StateMsg) : Bool :=
  (x.stalls.all fun y => below 64 y.stall) && ofLength 8 x.slots && ofLength 12 x.safeStops && ofLength 24 x.auxDuty

/-- Is the command well formed? -/
def Instr.wf (i : Instr) : Bool :=
  match i with
  | .tickStart t rd => isTime t && isTick rd
  | .clearingCommit t => isTime t
  | .pitchBoundary t => isTime t
  | .computeWindowOpen t => isTime t
  | .computeDeadline t ecc miscounted => isTime t && ecc.all isEcc && miscounted.all (below 8)
  | .profileWindowWrite t _ addr _ => isTime t && isWord addr
  | .check t _ _ _ => isTime t
  | .activate t _ _ _ => isTime t
  | .erase t _ _ _ => isTime t
  | .cancel t _ _ _ => isTime t
  | .checkComplete t => isTime t
  | .checkTimeout t => isTime t
  | .pendingTimeout t => isTime t
  | .profileSwitch t => isTime t
  | .uplinkPitchFrame t _ suf _ _ => isTime t && isTime suf
  | .trainingReply t _ suf _ _ => isTime t && isTime suf
  | .captureFrame t _ scf _ _ => isTime t && isTime scf
  | .sampleLost t _ => isTime t
  | .coastExhausted t _ => isTime t
  | .linkAligned t _ => isTime t
  | .alignTimeout t _ => isTime t
  | .trainTimeout t _ => isTime t
  | .linkDownCode t _ => isTime t
  | .linkDownSilent t _ => isTime t
  | .linkFaultRetry t _ => isTime t
  | .retrain t _ _ => isTime t
  | .sleepReq t _ _ _ => isTime t
  | .capEn t _ _ _ => isTime t
  | .capTrig t _ => isTime t
  | .capArm t _ => isTime t
  | .stlClrCnt t _ _ => isTime t
  | .clrFb t _ _ => isTime t
  | .stallRelease t _ _ => isTime t
  | .cellRampEnd t _ _ => isTime t
  | .shedDecision t _ => isTime t
  | .rearmLimit t _ => isTime t
  | .stopOpenTimeout t _ => isTime t
  | .restElapsed t _ => isTime t
  | .moveCloseTimeout t _ => isTime t
  | .moveOpenTimeout t _ => isTime t
  | .policyWrite t _ addr _ => isTime t && isWord addr
  | .policyCommit t _ => isTime t
  | .policyDiscard t _ => isTime t
  | .mktClrCnt t _ => isTime t
  | .ceIdSample t samples => isTime t && ofLength 12 samples
  | .sdpRequest t _ => isTime t
  | .sessionSetupReq t _ _ => isTime t
  | .authorizationReq t _ _ _ => isTime t
  | .parameterReq t _ _ _ => isTime t
  | .dcCableCheckReq t _ _ => isTime t
  | .dcPreChargeReq t _ _ _ => isTime t
  | .powerDeliveryReq t _ _ _ => isTime t
  | .chargeLoopReq t _ _ _ => isTime t
  | .weldingDetectionReq t _ _ => isTime t
  | .sessionStopReq t _ _ => isTime t
  | .tlsFailure t _ _ => isTime t
  | .ccHoldElapsed t _ => isTime t
  | .contactorTimeout t _ => isTime t
  | .noSdp t _ => isTime t
  | .setupTimeout t _ => isTime t
  | .authTimeout t _ => isTime t
  | .ccTimeout t _ => isTime t
  | .preTimeout t _ => isTime t
  | .loopTimeout t _ => isTime t
  | .seqTimeout t _ => isTime t
  | .rampTimeout t _ => isTime t
  | .closingTimeout t _ => isTime t
  | .faultHoldTimeout t _ => isTime t
  | .bayStop t _ _ => isTime t
  | .authOk t _ _ => isTime t
  | .authDeny t _ _ => isTime t
  | .bayClrCnt t _ _ => isTime t
  | .flowPulse t _ => isTime t
  | .valveCloseDelay t _ => isTime t
  | .valvePullInEnd t _ => isTime t
  | .auxProtectionCheck t sense => isTime t && ofLength 24 sense
  | .auxRetry t _ => isTime t
  | .auxCoolElapsed t _ => isTime t
  | .auxRetryCountReset t _ => isTime t
  | .auxTotalShed t => isTime t
  | .auxHoldExpiry t => isTime t
  | .vin24Return t cv => isTime t && below 65536 cv
  | .auxClear t _ _ demand => isTime t && below 1024 demand
  | .thmClrCnt t _ => isTime t
  | .metrologySample t rep sample => isTime t && isTime rep && isMetSample sample
  | .calBlock t => isTime t
  | .metrologyCommit t => isTime t
  | .bayDead t _ => isTime t
  | .receiptIssue t => isTime t
  | .receiptDrain t => isTime t
  | .calSetEffect t => isTime t
  | .rcptAck t _ _ => isTime t
  | .tallyLowRead t _ _ => isTime t
  | .tallyHighRead t _ _ => isTime t
  | .metrologyFwActivation t => isTime t
  | .safetyScan t rd => isTime t && isScan rd
  | .discrepancyTimeout t _ => isTime t
  | .testPulse t _ => isTime t
  | .switchTest t _ _ _ => isTime t
  | .soCurrentFault t _ current lasted => isTime t && below 65536 current && isTime lasted
  | .feedbackMismatch t _ => isTime t
  | .ssRampEnd t _ => isTime t
  | .ssRampTimeout t _ => isTime t
  | .envelopeSkipLimit t _ => isTime t
  | .escalation t _ => isTime t
  | .siReset t _ sel => isTime t && below 32 sel
  | .soClear t _ sel => isTime t && below 32 sel
  | .safUnlock t _ => isTime t
  | .safSeal t _ => isTime t
  | .pwSet t _ => isTime t
  | .safClrCnt t _ => isTime t
  | .safUnlockExpiry t => isTime t
  | .safLockoutEnd t => isTime t
  | .initWaitEnd t => isTime t
  | .activeIAssert t => isTime t
  | .claimConfirm t => isTime t
  | .claimConflictTimeout t => isTime t
  | .takeover t => isTime t
  | .syncTimeout t => isTime t
  | .resyncElapsed t => isTime t
  | .seljoTime t head t1 t2 t3 t4 => isTime t && isSeljo head && isTime t1 && isTime t2 && isTime t3 && isTime t4
  | .seljoPitch t head msg => isTime t && isSeljo head && isPitchMsg msg
  | .seljoTick t head snap digest => isTime t && isSeljo head && isSnap snap && isWord digest
  | .seljoSession t head _ _ => isTime t && isSeljo head
  | .seljoSessionAck t _ => isTime t
  | .seljoState t head msg => isTime t && isSeljo head && isStateMsg msg
  | .seljoCapture t head tiles => isTime t && isSeljo head && tiles.all fun x => below 1024 x.tile
  | .seljoHealth t head bits => isTime t && isSeljo head && below 65536 bits
  | .seljoCtrl t head _ => isTime t && isSeljo head
  | .seljoLinkUp t => isTime t
  | .seljoLinkDown t => isTime t
  | .shadowWindowOpen t => isTime t
  | .heartbeatSend t => isTime t
  | .heartbeatFrame t _ => isTime t
  | .partnerAbsent t => isTime t
  | .policySegmentSend t => isTime t
  | .policySegmentFrame t _ => isTime t
  | .updateHeartbeatSend t => isTime t
  | .updateHeartbeatFrame t _ => isTime t
  | .healthCheck t => isTime t
  | .handover t _ => isTime t
  | .clearUnfit t _ => isTime t
  | .pairClrCnt t _ => isTime t
  | .profileHandoverRelease t => isTime t
  | .referenceSend t _ => isTime t
  | .referenceReceived t _ _ => isTime t
  | .referenceMissing t _ => isTime t
  | .canFrameReceived t _ frame => isTime t && isCanFrame frame
  | .slotMiss t _ => isTime t
  | .arbitratingWindow t _ _ => isTime t
  | .canTxComplete t _ => isTime t
  | .canTxError t _ _ => isTime t
  | .busOffRecovery t _ => isTime t
  | .tatCommitPoint t _ _ => isTime t
  | .mailboxSend t _ _ _ => isTime t
  | .mailboxCancel t _ _ => isTime t
  | .tatArm t _ _ _ => isTime t
  | .tatLoad t _ _ _ => isTime t
  | .tatCancel t _ _ => isTime t
  | .fifoPop t _ _ => isTime t
  | .busSleep t _ => isTime t
  | .busWakeWrite t _ => isTime t
  | .busWake t _ => isTime t
  | .sbusClrCnt t _ => isTime t
  | .udpDatagram t d => isTime t && isDatagram d
  | .arpRequest t targetIp senderIp senderMac => isTime t && isWord targetIp && isWord senderIp && below (2 ^ 48) senderMac
  | .icmpEcho t srcIp data => isTime t && isWord srcIp && below 65536 data.length
  | .spiStatus t => isTime t
  | .spiRequest t _ => isTime t
  | .spiFetch t => isTime t
  | .read t _ tag addr count => isTime t && below 65536 tag && isWord addr && below 65536 count
  | .write t _ tag addr words => isTime t && below 65536 tag && isWord addr && below 65536 words.length
  | .readList t _ tag addrs => isTime t && below 65536 tag && (below 65536 addrs.length && addrs.all isWord)
  | .echo t _ tag data => isTime t && below 65536 tag && below 65536 data.length
  | .registerWrite t _ addr _ => isTime t && isWord addr
  | .violRelease t _ => isTime t
  | .firstOvrRelease t _ => isTime t
  | .latClrCnt t _ => isTime t
  | .hostClrCnt t _ => isTime t
  | .sysUnlock t _ => isTime t
  | .sysSeal t _ => isTime t
  | .sysUnlockExpiry t => isTime t
  | .sysLockoutEnd t => isTime t
  | .hostRateInterval t => isTime t
  | .referenceLoss t => isTime t
  | .referenceRestored t _ => isTime t
  | .x32Loss t => isTime t
  | .mtSave t => isTime t
  | .coldStart t rawNow pins _ => isTime t && below (2 ^ 48) rawNow && isPins pins
  | .brownOut t => isTime t
  | .rstN t pulse _ => isTime t && isPins pulse.pins
  | .internalReset t cause _ => isTime t && below 16 cause
  | .resetKey t _ key _ => isTime t && below 65536 key
  | .watchdog t _ => isTime t
  | .lockstepDisagree t _ => isTime t
  | .dormant t _ => isTime t
  | .dormantCommit t => isTime t
  | .dormantWake t _ => isTime t
  | .powerFailWarning t cv => isTime t && below 65536 cv
  | .powerFailClear t cv => isTime t && below 65536 cv
  | .supplyOutOfRange t cv => isTime t && below 65536 cv
  | .vin24Low t cv => isTime t && below 65536 cv
  | .vbatLow t mv => isTime t && below 65536 mv
  | .junctionTempCheck t tenths => isTime t && isShort tenths
  | .tamper t => isTime t
  | .rtcApply t _ _ frac => isTime t && below 32768 frac
  | .ptpSync t head origin _ => isTime t && isPtpHead head && isTime origin
  | .ptpFollowUp t head origin => isTime t && isPtpHead head && isTime origin
  | .ptpDelayResp t resp received => isTime t && isPtpResp resp && isTime received
  | .ptpAnnounce t a => isTime t && isAnnounce a
  | .ptpSyncTimeout t => isTime t
  | .leapSecond t => isTime t
  | .marketTimeRead t _ _ => isTime t
  | .calendarRead t _ => isTime t
  | .rawRead t _ _ => isTime t
  | .clkClrCnt t _ => isTime t
  | .pwrClrCnt t _ => isTime t
  | .generate t _ => isTime t
  | .load t _ => isTime t
  | .unload t _ slot => isTime t && below 64 slot
  | .store t _ => isTime t
  | .delete t _ => isTime t
  | .attest t _ => isTime t
  | .remask t => isTime t
  | .lcAdvance t _ value => isTime t && isWord value
  | .chunkCommit t _ => isTime t
  | .abort t _ => isTime t
  | .apply t _ => isTime t
  | .raise t _ => isTime t
  | .actModeWrite t _ mode => isTime t && isWord mode
  | .activationLead t => isTime t
  | .scheduledActivation t => isTime t
  | .activationSkip t => isTime t
  | .handoverActivation t => isTime t
  | .handoverActivationTimeout t => isTime t
  | .trialEnd t => isTime t
  | .floorRaise t => isTime t
  | .ledgerRecordWrite t _ => isTime t
  | .snapshotRead t => isTime t
  | .mark t _ => isTime t
  | .clrSys t _ => isTime t
  | .clrSaf t _ => isTime t
  | .canRxError t _ => isTime t
  | .x32Restored t => isTime t
  | .pllLockLoss t _ => isTime t
  | .pllRelock t _ => isTime t
  | .keyOpComplete t => isTime t
  | .supportedAppProtocolReq t _ _ => isTime t
  | .tlsHandshake t _ => isTime t
  | .bayPhyLink t _ report => isTime t && below 256 report.discarded
  | .proofDue t _ => isTime t
  | .dormantOutputRelease t => isTime t
  | .vbatDomainLoss t => isTime t

end Sys2Proof
end

