-- ==== Sys2Proof/Tests/Slice0.lean ====
section
/-! SUPPORT. Tests: the checks of WellFormed refuse an ill-formed command each, worked examples of the manual, one step of some
commands, and states and operands that meet the hypotheses of the statements. -/
namespace Sys2Proof.Tests
open Sys2Proof Sys2Proof.Machine

-- One theorem after another: many that wait for the kernel at once take a thread each.
set_option Elab.async false

/-! ## Well-formedness: each check refuses an ill-formed command -/

theorem test_wf_time : Instr.wf (.linkAligned (2 ^ 64) 0) = false ∧ Instr.wf (.linkAligned (2 ^ 64 - 1) 0) = true := by decide
theorem test_wf_word : Instr.wf (.profileWindowWrite 0 .udp (2 ^ 32) 0) = false ∧ Instr.wf (.profileWindowWrite 0 .udp 0x01000000 0) = true := by decide
theorem test_wf_below : Instr.wf (.computeDeadline 0 [] [8]) = false ∧ Instr.wf (.computeDeadline 0 [] [7]) = true := by decide
theorem test_wf_ecc : isEcc ⟨9, 0, 0, false⟩ = false ∧ isEcc ⟨8, 0, 0, true⟩ = true := by decide
theorem test_wf_short : isShort 32768 = false ∧ isShort (-32768) = true ∧ isShort (-32769) = false := by decide
theorem test_wf_length : ofLength 12 [0] = false ∧ ofLength 1 [0] = true := by decide
theorem test_wf_pins : isPins { prof := 4, side := 0, dbgEn := false } = false ∧ isPins { prof := 3, side := 1, dbgEn := false } = true := by decide
theorem test_wf_announce : isAnnounce ⟨1, 256, 1, 128, 6, 0x21, 0, 128, 1, 1000, 37, true, false, false⟩ = false ∧ isAnnounce ⟨1, 255, 1, 128, 6, 0x21, 0, 128, 1, 1000, 37, true, false, false⟩ = true := by decide
theorem test_wf_scan : isScan ⟨[true], [], [], [], [], true⟩ = false ∧ isScan ⟨List.replicate 16 true, List.replicate 16 true, List.replicate 16 false, List.replicate 16 false, List.replicate 4 false, true⟩ = true := by decide
theorem test_wf_tick : isTick ⟨[250], 2400⟩ = false ∧ isTick ⟨List.replicate 36 250, 2400⟩ = true := by decide
theorem test_wf_metsample : isMetSample ⟨List.replicate 31 0, List.replicate 32 false, []⟩ = false ∧ isMetSample ⟨List.replicate 32 (2 ^ 23), List.replicate 32 false, []⟩ = false ∧ isMetSample ⟨List.replicate 32 0, List.replicate 32 false, []⟩ = true := by decide
theorem test_wf_seljo : isSeljo ⟨256, 0, 0, [], 0⟩ = false ∧ isSeljo ⟨255, 0, 0, [], 0⟩ = true := by decide
theorem test_wf_pitchmsg : isPitchMsg ⟨0, 0, [[]]⟩ = false ∧ isPitchMsg ⟨2 ^ 64 - 1, 0, [List.replicate 24 0]⟩ = true := by decide
theorem test_wf_canframe : isCanFrame ⟨false, 0x800, false, false, false, false, 0, []⟩ = false ∧ isCanFrame ⟨false, 0x7FF, false, false, false, false, 1, [7]⟩ = true ∧ isCanFrame ⟨false, 0, false, false, false, false, 1, []⟩ = false := by decide
theorem test_wf_datagram : isDatagram ⟨2 ^ 32, 0, 0, false, false, true, []⟩ = false ∧ isDatagram ⟨0, 65535, 65535, false, false, true, []⟩ = true := by decide
theorem test_wf_snap : isSnap ⟨0, 0, 0, none, [], []⟩ = false ∧ isSnap ⟨0, 0, 0, none, List.replicate 12 0, List.replicate 12 {}⟩ = true := by decide
theorem test_wf_state : isStateMsg ⟨[], 0, [], [], [], []⟩ = false ∧ isStateMsg ⟨[], 0, [], List.replicate 8 {}, List.replicate 12 {}, List.replicate 24 0⟩ = true := by decide

/-! ## States to start from -/

/-- A header with a pitch of 10 µs. -/
def hdr : ImgHeader :=
  { imageLen := 0, uid := [], pitchNs := 10000, carrierHz := 50000, update := 1, minStep := 0, cableM := 0, bayMask := 1, stallMask := 1, siteMaxKw := 1000,
    siteMinKw := 0, rateMax := 100, jerkMax := 100, sbusCycleNs := 1000000, sbusCycles := 1 }

/-- A bay record. -/
def bay0 : BayRec :=
  { bayId := 0, flags := 0, pMaxKw := 1000, pFloorKw := 0, vMin := 200, vMax := 1250, iMax := 3000, classDef := 0, weightDef := 1, stallsMax := 8, flowIn := 0xFF,
    tsA := 0, tsB := 1, tsC := 2, res20 := 1, cC := 1, cW := 1, g0 := 1, g1 := 1, gWA := 1, tLim := 90, flowMin := 1, derSpan := 10 }

/-- An image of one stall and one bay. -/
def img : Image :=
  { header := hdr, cells := [⟨0, 1, 1, 200, 0⟩, ⟨1, 1, 2, 200, 0⟩], stalls := [⟨0, 3, 160, 1000, 200, 1, 10, 10, 10⟩], bays := [bay0], tiles := [], lanes := [], bus := [],
    safety := [⟨1, 0, 0, 0, 0, 1⟩, ⟨2, 0, 0, 0, 0, 1⟩], meter := [], safetyBytes := [], meterBytes := [] }

/-- A running module. -/
def run : State := { State.reset with prof := { State.reset.prof with image := some img, active := some 0 }, pwr := { State.reset.pwr with st := .run } }

/-- A running module that holds ACTIVE in single mode. -/
def act : State := { run with pair := { run.pair with role := .active, activeO := true } }

/-- A stall changed. -/
def stall (s : State) (f : Stall → Stall) : State := s.setStall 0 f

/-- A link changed. -/
def link (f : Link → Link) : State := stall State.reset fun x => { x with link := f x.link }

/-- Bay 0 with a session. -/
def sess (f : Session → Session) : State := act.setBay 0 fun x => { x with session := f { x.session with tls := true } }

/-! ## States and operands that meet the hypotheses of the statements, clause by clause, at boundary values -/

theorem witness_LinkSteps_training :
    State.reset.mayTrain = true ∧ (let u : State := { State.reset with pair := { State.reset.pair with mode := .full, role := .standby } }
      u.live = true ∧ u.mayTrain = false ∧ u.pair.mode = .full ∧ u.active = false ∧ u.pair.seljo.lock = false) ∧
    (let u : State := { State.reset with pair := { State.reset.pair with mode := .full, seljo := { State.reset.pair.seljo with lock := true } } }
     u.mayTrain = true ∧ u.pair.mode = .full ∧ u.active = false) := by decide +kernel

theorem witness_LinkSteps :
    (∀ st : LinkState, let s := link fun l => { l with st := st, silent := 64 }; s.live = true ∧ s.stalls[(0 : Fin 64)].link.st = st ∧ 64 ≤ s.stalls[(0 : Fin 64)].link.silent ∧
      ms 1 ≤ s.stalls[(0 : Fin 64)].link.entered + ms 1 ∧ s.stalls[(0 : Fin 64)].link.entered + ms 2 < ms 2 + 1 ∧ s.stalls[(0 : Fin 64)].link.entered + ms 100 ≤ ms 100) := by
  intro st; cases st <;> decide +kernel

/-- The 28 bytes of a training reply of a dual stall with cells 0 and 1 fitted, TAG 7, before its CRC. -/
def reply (fitted : BitVec 8) : Bytes := [0x51, 1, fitted, 1, 7, 0, 0, 0, 100, 0, 0xFF, 0, 0xFF, 0, 10, 0] ++ List.replicate 12 0

/-- The frame with its CRC. -/
def framed (b : Bytes) : Bytes := b ++ leBytes 4 (crc32c b)

theorem witness_TrainingReplies :
    let s := link fun l => { l with st := .train, tag := 7, estimates := [0, 0, 0] }
    frameOk 0x51 32 true (framed (reply 3)) = true ∧ frameOk 0x51 32 false (framed (reply 3)) = false ∧ s.live = true ∧ s.stalls[(0 : Fin 64)].link.st = .train ∧ s.mayTrain = true ∧
    ({ s with pair := { s.pair with mode := .full } } : State).mayTrain = false ∧
    (trainReplyOf (framed (reply 3))).tag = s.stalls[(0 : Fin 64)].link.tag ∧ replyRefusal s 0 (trainReplyOf (framed (reply 3))) = none ∧
    replyRefusal (stall run id) 0 (trainReplyOf (framed (reply 1))) = some 5 ∧
    ms 2 ≤ s.stalls[(0 : Fin 64)].link.entered + ms 2 ∧ s.stalls[(0 : Fin 64)].link.confirming = false ∧ 3 ≤ s.stalls[(0 : Fin 64)].link.estimates.length ∧
    (link fun l => { l with st := .train, tag := 7, confirming := true }).stalls[(0 : Fin 64)].link.confirming = true ∧
    (link fun l => { l with st := .train, tag := 7 }).stalls[(0 : Fin 64)].link.estimates.length < 3 ∧
    estimateRefusal 0 [0, 0, 0, 0] = none ∧ estimateRefusal 0 [0, 0, 0, 1] = some 3 ∧ estimateRefusal 10 [0, 0, 0, 17] = some 4 := by decide +kernel

theorem witness_StallCommands :
    State.reset.serves .udp = true ∧ State.reset.live = true ∧ (link fun l => { l with st := .fault }).stalls[(0 : Fin 64)].link.st = .fault ∧ State.reset.stalls[(0 : Fin 64)].link.st ≠ .fault ∧
    (link fun l => { l with st := .sleep }).stalls[(0 : Fin 64)].link.st = .sleep ∧
    (let s := stall State.reset fun x => { x with link := { x.link with st := .run }, up := some { stat := 0, ocMask := 0, tempIdx := 0, matrixFb := 0xF, sampleTime := 0, temp := 0, iCell := [], vOut := 0, vDc := 0 } }
     s.stalls[(0 : Fin 64)].link.st = .run ∧ s.stalls[(0 : Fin 64)].bay = none ∧ s.slotOf 0 = none ∧ s.stalls[(0 : Fin 64)].up.map (·.matrixFb) = some 0xF) ∧
    State.reset.capEnabled < 32 ∧
    (let s := { State.reset with stalls := vmap (fun i (x : Stall) => { x with link := { x.link with capEn := decide (1 ≤ i.val ∧ i.val ≤ 32) } }) State.reset.stalls }
     32 ≤ s.capEnabled ∧ s.stalls[(0 : Fin 64)].link.capEn = false) ∧
    (stall State.reset fun x => { x with st := .locked }).stalls[(0 : Fin 64)].st = .locked ∧ State.reset.stalls[(0 : Fin 64)].st ≠ .locked := by decide +kernel

/-- A capture frame before its CRC. -/
def capture : Bytes := 0x31 :: List.replicate 71 0

theorem witness_CaptureBuffer :
    State.reset.live = true ∧ State.reset.serves .udp = true ∧ State.reset.stl.frozen = false ∧ ({ State.reset with stl := { State.reset.stl with frozen := true } } : State).stl.frozen = true ∧ frameOk 0x31 76 false (framed capture) = false ∧
    frameOk 0x31 76 true (framed capture) = true ∧ (link fun l => { l with st := .run, capEn := true }).stalls[(0 : Fin 64)].link.st = .run ∧
    (link fun l => { l with st := .run, capEn := true }).stalls[(0 : Fin 64)].link.capEn = true ∧ (link fun l => { l with st := .run, capEn := true }).stl.frozen = false := by decide +kernel

theorem witness_Coasting :
    (let s := stall act fun x => { x with link := { x.link with st := .run } }
     s.live = true ∧ s.running = true ∧ s.boundaryAt 20523 = 20000 ∧ s.arrivalLimit 20000 < 20523 ∧ s.pair.mode = .single ∧ s.shadowing = false ∧ classified s 0 20000 = true ∧
     judged s.stalls[(0 : Fin 64)] 20000 = false ∧ ownHeld s.stalls[(0 : Fin 64)] 20000 = false ∧ s.stalls[(0 : Fin 64)].coasting = false ∧ s.stalls[(0 : Fin 64)].stopReq = none) ∧
    (∀ g e : Bool, let s := stall act fun x => { x with coasting := true, coastCnt := 17, st := if g then .stopping else .assigned, gatedOut := g, cause := 5, coastEnd := e }
     s.stalls[(0 : Fin 64)].coasting = true ∧ s.stl.coastN < s.stalls[(0 : Fin 64)].coastCnt ∧ s.stalls[(0 : Fin 64)].gatedOut = g ∧ s.stalls[(0 : Fin 64)].coastEnd = e ∧ s.stalls[(0 : Fin 64)].cause ≠ 2 ∧
     (s.stalls[(0 : Fin 64)].st = .assigned ∨ s.stalls[(0 : Fin 64)].st = .stopping)) ∧ act.stalls[(0 : Fin 64)].coasting = false := by decide +kernel

/-- Stall 0 serves bay 0 with two active cells. -/
def serving : State := stall act fun x => { x with st := .assigned, bay := some 0, cells := vmap (fun i (c : CellCtl) => if i.val < 2 then { c with st := .active } else c) x.cells }

theorem witness_StallTimers :
    (let s := stall State.reset fun x => { x with cells := vupd x.cells 0 fun c => { c with st := .shedding, ramp := some { w0 := 0, len := 8, j := 8, fromOff := false, rising := false } } }
     cellDone s.stalls[(0 : Fin 64)].cells[(0 : Fin 8)] = true) ∧
    (let s := { serving with mkt := { serving.mkt with lightTicks := vupd serving.mkt.lightTicks 0 fun _ => 20 } }
     s.live = true ∧ s.stl.shedEn.testBit 0 = true ∧ s.stl.shedHold ≤ s.mkt.lightTicks[(0 : Fin 12)] ∧ s.bayCellsMoving 0 = false ∧ (pickShed (shedCandidates s 0)).isSome = true) ∧
    (let s := stall State.reset fun x => { x with rearmTicks := 100 }
     s.stalls[(0 : Fin 64)].st = .idle ∧ s.stalls[(0 : Fin 64)].link.tripped = true ∧ 100 ≤ s.stalls[(0 : Fin 64)].rearmTicks ∧ s.stalls[(0 : Fin 64)].stopReq = none) ∧
    (let s := stall State.reset fun x => { x with st := .stopping, openDue := some 5 }
     s.stalls[(0 : Fin 64)].openDue = some 5 ∧ s.stalls[(0 : Fin 64)].st = .stopping ∧ 5 < 6) ∧
    (let x : Stall := { st := .stopped, link := { st := .run, tripped := false }, restDue := ms 1000 }
     mayRestart (ms 1000) x = true ∧ (liveStamps State.reset x).length < State.reset.stl.restartMax) ∧
    (let x : Stall := { st := .stopped, link := { st := .run, tripped := false }, stamps := [0, 0, 0] }
     mayRestart (ms 1000) x = true ∧ State.reset.stl.restartMax ≤ (liveStamps State.reset x).length) ∧
    (State.reset.serves .spi = true ∧ 0x08142711 / 256 % 256 ≥ 2 * (0x08142711 % 256) ∧ 0x08142714 / 256 % 256 < 2 * (0x08142714 % 256)) := by decide +kernel

theorem witness_MoveTimeouts :
    let s (p : MovePhase) := { act with mkt := { act.mkt with moves := vupd act.mkt.moves 0 fun m => { m with phase := p, stall := 0, dst := some 0, deadline := some 5 } } }
    (s .closing).live = true ∧ (s .closing).mkt.moves[(0 : Fin 8)].stall = (0 : Fin 64).val ∧ (s .closing).mkt.moves[(0 : Fin 8)].deadline = some 5 ∧ 5 < 6 ∧
    (s .closing).mkt.moves[(0 : Fin 8)].phase = .closing ∧ (s .closing).mkt.moves[(0 : Fin 8)].dst = some 0 ∧ (s .opening).mkt.moves[(0 : Fin 8)].phase = .opening := by decide +kernel

/-- An uplink pitch frame of the boundary 20 000. -/
def uplink (time : Nat) : Bytes := framed ([0x21, 0, 0, 0xF0] ++ leBytes 3 time ++ List.replicate 21 0)

theorem witness_UplinkFrames :
    let s := stall act fun x => { x with link := { x.link with st := .run } }
    frameOk 0x21 32 true (uplink 20000) = true ∧ frameOk 0x21 32 false (uplink 20000) = false ∧ s.live = true ∧ s.running = true ∧ s.pair.mode = .single ∧
    s.stalls[(0 : Fin 64)].link.st = .run ∧ s.stalls[(0 : Fin 64)].link.runFrom ≤ 20000 ∧ s.boundaryAt 20522 = 20000 ∧ (uplinkOf (uplink 20000)).sampleTime = 20000 % 2 ^ 24 ∧
    s.arrivalLimit 20000 < 20523 ∧ 20522 ≤ s.arrivalLimit 20000 ∧ (uplinkOf (uplink 10000)).sampleTime = (20000 - s.pitchNs) % 2 ^ 24 ∧ s.pitchNs ≤ 20000 ∧
    (uplinkOf (uplink 1)).sampleTime ≠ 20000 % 2 ^ 24 ∧ (uplinkOf (uplink 1)).sampleTime ≠ (20000 - s.pitchNs) % 2 ^ 24 ∧ s.shadowing = false ∧ s.shadowOwed 20000 = false ∧
    judged s.stalls[(0 : Fin 64)] 20000 = false ∧ s.stl.frozen = false := by decide +kernel

theorem witness_MarketPolicy :
    act.active = true ∧ run.active = false ∧ act.live = true ∧ act.pwr.pfw = false ∧ ({ act with pwr := { act.pwr with pfw := true } } : State).pwr.pfw = true ∧
    (polSet act.mkt.shadow 0x1C 0x00010001).map (fun p => polOk act.prof.image p 0x1C) = some true ∧
    (polSet act.mkt.shadow 0x1C 0).map (fun p => polOk act.prof.image p 0x1C) = some false ∧ act.serves .udp = true ∧ 124 ≤ act.mram.policy ∧
    (let s (n : Nat) : State := { act with mram := { act.mram with policy := 123, spare := n } }
     (s 4096).mram.policy < 124 ∧ 124 ≤ (s 4096).spareFor 3 ∧ (s 0).mram.policy < 124 ∧ (s 0).spareFor 3 < 124) := by decide +kernel

theorem witness_PitchSteps :
    act.live = true ∧ act.running = true ∧ 20000 % act.pitchNs = 0 ∧ act.prof.gridFrom ≤ 20000 ∧ 20001 % act.pitchNs ≠ 0 ∧ (act.stallRec 0).isSome = true ∧
    20570 = 20000 + act.openNs ∧ act.active = true ∧ act.lat.windowOpen = false ∧
    (let s := { act with lat := { act.lat with windowOpen := true, pitch := 20000 } }
     s.prof.image = some img ∧ s.lat.windowOpen = true ∧ s.lat.shadow = false ∧ s.lat.pitch + s.closeNs ≤ 29450 ∧ 29449 < s.lat.pitch + s.closeNs ∧ s.upd.large.st ≠ .activating ∧ s.refreshMissed 29450 = false) ∧
    act.refreshMissed 20570 = false ∧
    (let s := { act with pair := { act.pair with mode := .full, holdPitch := some 19450 } }
     s.live = true ∧ s.refreshMissed 19451 = true ∧ s.refreshMissed 19450 = false ∧ s.pair.mode ≠ .single) := by decide +kernel

theorem witness_MarketTick :
    State.reset.live = true ∧ 1000000 % 1000000 = 0 ∧ 999999 % 1000000 ≠ 0 ∧
    (let r : TickResult := ⟨0, {}, false, 0, 0, 0, 0, 0, Vector.replicate 12 {}, [], none⟩
     ({ State.reset with mkt := { State.reset.mkt with result := some r } } : State).mkt.result = some r ∧ r.at_ + 250000 ≤ 250000 ∧ 249999 < r.at_ + 250000) ∧
    (let p : PendingChange := { slot := 1, mode := .live, since := 0, image := img, master := .udp }
     ({ State.reset with prof := { State.reset.prof with pend := some p } } : State).prof.pend = some p ∧ p.mode = .live ∧ p.tickDone = none ∧ p.since < 1000000) ∧ State.reset.refreshMissed 1000000 = false := by decide +kernel

/-- Slot 0 in a state. -/
def slot (x : SlotState) (f : Profile → Profile) : State := { run with prof := f { run.prof with slots := vupd run.prof.slots 0 fun p => { p with st := x } } }

/-- A pending change. -/
def pend (m : ChangeMode) (tick loaded : Option Nat) : PendingChange := { slot := 0, mode := m, since := 0, image := img, master := .udp, tickDone := tick, loaded := loaded }

theorem witness_ProfileCommands :
    act.serves .udp = true ∧ (slot .loading id).live = true ∧ 0xFFFFC % 4 = 0 ∧ 0xFFFFC < 0x100000 ∧ (slot .loading id).slotRoom 4 = true ∧
    (∀ x : SlotState, (slot x id).prof.slots[(0 : Fin 4)].st = x) ∧ (slot .valid id).prof.check = none ∧ (slot .valid id).prof.pend = none ∧ (slot .valid id).pwr.pfw = false ∧
    (slot .pending fun p => { p with pend := some (pend .stopped none none) }).prof.pend.isSome = true ∧ (slot .valid id).energisedMask = 0 ∧ (slot .valid id).moveInFlight = false ∧
    (∀ g : Bool, let u := { (slot .pending fun p => { p with pend := some (pend .live (some 0) none) }) with lat := { State.reset.lat with copying := g } }
     u.prof.pend = some (pend .live (some 0) none) ∧ (pend .live (some 0) none).mode = .live ∧ u.lat.copying = g) ∧
    (slot .valid id).logFull = false ∧ (State.reset.setBay 0 fun b => { b with outlet := { b.outlet with close := true, confirmedClosed := true } }).energisedMask ≠ 0 ∧ State.reset.running = false := by
  refine ⟨by decide +kernel, by decide +kernel, by decide +kernel, by decide +kernel, by decide +kernel, fun x => by cases x <;> decide +kernel, ?_⟩
  decide +kernel

theorem witness_ProfileEnds :
    (let c : CheckRun := { slot := 0, activate := none, started := 0, master := .udp, unlocked := true }
     let s := slot .checking fun p => { p with check := some c }
     s.live = true ∧ s.prof.check = some c ∧ ms 60 ≤ c.started + ms 60 ∧ c.started + ms 60 < ms 60 + 1 ∧
     (match checkSlot (s.arrive 0) c.unlocked c.slot with | .error e => e.code | .ok _ => 0) ≠ 0) ∧
    (∀ m ∈ [ChangeMode.stopped, .live, .handover], (slot .pending fun p => { p with pend := some (pend m (some 1000000) (some 0)) }).prof.pend = some (pend m (some 1000000) (some 0))) ∧
    (let s := slot .pending fun p => { p with pend := some (pend .live (some 20000) none) }
     s.windowStart 20570 = true ∧ s.windowStart 20571 = false ∧ 20000 ≤ 20570 ∧ 19999 < 20000 ∧ 20570 ≤ (pend .live (some 20000) none).since + ms 100 ∧ s.lat.copying = false ∧
     ({ s with lat := { s.lat with copying := true } } : State).lat.copying = true) ∧
    (pend .stopped none none).since + ms 100 < ms 100 + 1 ∧ (pend .stopped none none).mode ≠ .live ∧ 1000000 % 1000000 = 0 ∧ (pend .stopped none none).since < 1000000 ∧
    1000000 ≤ (pend .stopped none none).since + ms 100 ∧ 0 + 1000000 ≤ 1000000 ∧
    ({ act with pair := { act.pair with mode := .full } } : State).active = true ∧ act.lat.windowOpen = false := by decide +kernel

theorem witness_SessionSetup :
    let s := sess fun q => { q with st := .setup, protocol := true, sessionSetup := true }
    s.live = true ∧ s.active = true ∧ (s.bayRec 0).isSome = true ∧ s.bays[(0 : Fin 12)].session.doomed = false ∧ s.bays[(0 : Fin 12)].session.due = none ∧ s.bays[(0 : Fin 12)].session.seqDue = none ∧
    s.bays[(0 : Fin 12)].session.loopDue = none ∧ s.bays[(0 : Fin 12)].session.st = .setup ∧ s.bays[(0 : Fin 12)].session.tls = true ∧ s.bays[(0 : Fin 12)].session.sessionSetup = true ∧
    s.bays[(0 : Fin 12)].energised = false ∧ (sess fun q => { q with st := .connected }).bays[(0 : Fin 12)].session.st = .connected ∧
    (sess fun q => { q with st := .setup }).bays[(0 : Fin 12)].session.protocol = false ∧ (sess fun q => { q with st := .setup, protocol := true }).bays[(0 : Fin 12)].session.sessionSetup = false ∧
    (∀ a : Bool, (s.setBay 0 fun x => { x with eimEn := true, eimAuto := a }).bays[(0 : Fin 12)].eimAuto = a ∧ (s.setBay 0 fun x => { x with eimEn := true, eimAuto := a }).bays[(0 : Fin 12)].eimEn = true) := by decide +kernel

theorem witness_SessionSetup_tls :
    let k : Key := { id := 0x100, type := 3, usage := 2 ^ 8, masters := 2 ^ 12 - 1, world := 0, lc := 3, boot := false, material := [], used := 0 }
    let s := act.setBay 0 fun x => { x with session := { x.session with st := .setup } }
    (∀ key : Bool, let u : State := if key then { s with vault := { s.vault with slots := vupd s.vault.slots 16 fun _ => some k } } else s
      u.live = true ∧ u.active = true ∧ (u.bayRec 0).isSome = true ∧ u.bays[(0 : Fin 12)].session.st = .setup ∧ u.bays[(0 : Fin 12)].session.tls = false ∧ u.bays[(0 : Fin 12)].energised = false ∧
      ((u.arrive 0).anyKey .marketSup 8 ≠ none ↔ key = true)) ∧
    (⟨0, true, true, false, true, false, false⟩ : TlsHello).bay = 0 := by
  refine ⟨fun key => by cases key <;> decide +kernel, rfl⟩

theorem witness_onTime (f : Session → Session) (h : ∀ q : Session, (f q).due = none ∧ (f q).seqDue = none ∧ (f q).loopDue = none) : (sess f).onTime 0 0 := by
  have e : (sess f).bays[(0 : Fin 12)].session = f { act.bays[(0 : Fin 12)].session with tls := true } := rfl
  unfold State.onTime
  rw [e, (h _).1, (h _).2.1, (h _).2.2]
  exact ⟨fun _ z => (nomatch (show (none : Option Nat) = some _ from z)), fun _ z => (nomatch z), fun _ z => (nomatch z), fun _ z => (nomatch z)⟩

theorem witness_SessionMessages :
    let s (st : SessSt) := sess fun q => { q with st := st, stages := { q.stages with discovered := true, scheduled := true }, holdDue := some 0, checkOk := true, checkAnswered := true }
    (∀ st ∈ [SessSt.parameters, .cableCheck, .precharge, .power, .rampDown, .weldCheck],
      (s st).live = true ∧ (s st).active = true ∧ (s st).bayRec 0 = some bay0 ∧ (s st).bays[(0 : Fin 12)].session.st = st ∧ (s st).bays[(0 : Fin 12)].session.tls = true ∧
      (s st).bays[(0 : Fin 12)].session.doomed = false ∧ (s st).bays[(0 : Fin 12)].session.stages.discovered = true ∧ (s st).bays[(0 : Fin 12)].session.stages.scheduled = true ∧
      (s st).bays[(0 : Fin 12)].session.holdDue = some 0 ∧ (s st).bays[(0 : Fin 12)].session.checkOk = true ∧ (s st).bays[(0 : Fin 12)].session.checkAnswered = true ∧
      (s st).bays[(0 : Fin 12)].session.tlsFailed = false) ∧
    (let u := { (s .cableCheck).setBay 0 (fun x => { x with imdSi := 0 }) with saf := { act.saf with records := [⟨1, 0, 0, 0, 4, 1⟩] } }
     u.insulationBad 0 = false ∧ u.bays[(0 : Fin 12)].session.st = .cableCheck) ∧ (0 : Int) ≤ (⟨0, 0⟩ : Dec).value ∧
    (∀ c : Bool, ((s .weldCheck).setBay 0 fun x => { x with outlet := { x.outlet with confirmedOpen := c } }).bays[(0 : Fin 12)].outlet.confirmedOpen = c) := by decide +kernel

theorem witness_SessionTimeouts :
    let s (st : SessSt) := sess fun q => { q with st := st, due := some 4, loopDue := some 4, seqDue := some 4 }
    (∀ st ∈ [SessSt.connected, .setup, .authorising, .cableCheck, .precharge, .rampDown, .closing, .fault, .power, .parameters, .weldCheck],
      (s st).live = true ∧ (s st).active = true ∧ ((s st).bayRec 0).isSome = true ∧ (s st).bays[(0 : Fin 12)].session.doomed = false ∧ 4 < 5 ∧ (s st).bays[(0 : Fin 12)].session.st = st ∧
      (s st).bays[(0 : Fin 12)].session.due = some 4 ∧ (s st).bays[(0 : Fin 12)].session.loopDue = some 4 ∧ (s st).bays[(0 : Fin 12)].session.seqDue = some 4 ∧
      (s st).bays[(0 : Fin 12)].energised = false) ∧
    (let u := (s .power).setBay 0 fun x => { x with outlet := { x.outlet with commandAt := some 4, close := true, confirmedClosed := false } }
     u.bays[(0 : Fin 12)].outlet.commandAt = some 4 ∧ 4 + ms 100 < ms 100 + 5 ∧ u.bays[(0 : Fin 12)].outlet.confirmed = false ∧ u.outletPending 0 (4 + ms 100) = false ∧ u.bays[(0 : Fin 12)].session.st ≠ .idle ∧ u.bays[(0 : Fin 12)].session.st ≠ .fault) ∧
    (let u := (sess fun q => { q with st := .power }).setBay 0 fun x => { x with outlet := { x.outlet with close := true, confirmedClosed := true } }
     u.bays[(0 : Fin 12)].energised = true ∧ u.bays[(0 : Fin 12)].session.tls = true) ∧
    (sess fun q => { q with st := .closing, stopAsked := true }).bays[(0 : Fin 12)].session.stopAsked = true ∧ (sess fun q => { q with st := .setup, tls := false }).bays[(0 : Fin 12)].session.tls = false := by decide +kernel

theorem witness_BayCommands :
    let s (st : SessSt) := sess fun q => { q with st := st, authPend := true }
    (s .power).live = true ∧ (s .power).active = true ∧ run.active = false ∧ act.serves .udp = true ∧ act.nearRoleChange 1000000000 = false ∧
    (∀ st ∈ [SessSt.idle, .power, .parameters, .authorising], (s st).bays[(0 : Fin 12)].session.st = st ∧ (s st).bays[(0 : Fin 12)].session.authPend = true ∧ (s st).bays[(0 : Fin 12)].session.doomed = false ∧
      (s st).bays[(0 : Fin 12)].energised = false) ∧
    (∃ p : PilotSample, let u := act.setBay 0 fun x => { x with ceDeb := 1, pilot := { x.pilot with ce := .connected, id := .valid } }
      (pilotSample u.bays[(0 : Fin 12)].ceDeb u.bays[(0 : Fin 12)].pilot p).ce = .connected ∧ (pilotSample u.bays[(0 : Fin 12)].ceDeb u.bays[(0 : Fin 12)].pilot p).id = .valid ∧
      u.bays[(0 : Fin 12)].session.st = .idle ∧ u.sessionsOpen 0 = true ∧ (u.bayRec 0).isSome = true) := by
  refine ⟨by decide +kernel, by decide +kernel, rfl, rfl, by decide +kernel, by decide +kernel, ⟨.connected, 0, .valid⟩, ?_⟩
  decide +kernel

theorem witness_CoolingAndAuxTimers :
    let s (f : AuxCh → AuxCh) : State := { State.reset with aux := { State.reset.aux with ch := vupd State.reset.aux.ch 0 f } }
    (s fun x => { x with coolDue := some 5 }).aux.ch[(0 : Fin 24)].coolDue = some 5 ∧ 5 ≤ 5 ∧ (s fun x => { x with coolDue := some 5 }).aux.ch[(0 : Fin 24)].therm = false ∧
    auxHeld (s fun x => { x with coolDue := some 5 }).aux.ch[(0 : Fin 24)] = false ∧ (s fun x => { x with coolDue := some 5, therm := true }).aux.ch[(0 : Fin 24)].therm = true ∧
    (s fun x => { x with onSince := some 0 }).aux.ch[(0 : Fin 24)].onSince = some 0 ∧ 0 + secs 10 ≤ secs 10 ∧ secs 10 - 1 < 0 + secs 10 ∧
    State.reset.aux.failed = false ∧ State.reset.aux.gone = false ∧ State.reset.serves .udp = true ∧ State.reset.saf.selfTest = true ∧
    ({ State.reset with saf := { State.reset.saf with selfTest := false } } : State).saf.selfTest = false ∧
    (let u : State := { State.reset with aux := { State.reset.aux with holdDue := holdEnd 1 0 } }
     u.aux.holdDue = some (secs 1) ∧ secs 1 < secs 1 + 1 ∧ u.aux.failed = false ∧ u.aux.ch[(0 : Fin 24)].tripped = false) ∧
    ({ State.reset with aux := { State.reset.aux with holdDue := holdEnd 0 0 } } : State).aux.holdDue = none ∧ State.reset.live = true ∧
    ({ State.reset with thm := { State.reset.thm with cables := vupd State.reset.thm.cables 0 fun c => { c with valve := true, valveDue := some 5 } } } : State).thm.cables[(0 : Fin 12)].valveDue = some 5 ∧
    (let u := { s (fun x => { x with pullInDue := some 5, mode := 4, pwmF := 1, src := 0 }) with thm := { State.reset.thm with cables := vupd State.reset.thm.cables 0 fun c => { c with valve := true } } }
     u.aux.ch[(0 : Fin 24)].pullInDue = some 5 ∧ u.aux.ch[(0 : Fin 24)].tripped = false ∧ u.aux.ch[(0 : Fin 24)].mode = 4 ∧ u.valveOpen u.aux.ch[(0 : Fin 24)].src = true ∧ u.aux.ch[(0 : Fin 24)].pwmF ≠ 0 ∧ u.paired = false ∧ u.auxDriven = true) ∧
    (s fun x => { x with retryDue := some 5 }).aux.ch[(0 : Fin 24)].retryDue = some 5 ∧ State.reset.pwr.pfw = false ∧ auxHeld (s fun x => { x with fault := 5, tripped := true }).aux.ch[(0 : Fin 24)] = true ∧ 1000 ≤ 1000 ∧ 1000 < 1001 := by decide +kernel

/-- Channel 0 of the auxiliary outputs changed. -/
def aux0 (f : AuxCh → AuxCh) : State := { act with aux := { act.aux with ch := vupd act.aux.ch 0 f } }

theorem witness_AuxProtection :
    act.aux.gone = false ∧ (∀ b : Bool, (aux0 fun x => { x with therm := b }).aux.gone = false) ∧
    ([⟨0, true, 135, false⟩, ⟨0, true, 150, false⟩] : List AuxSense)[(0 : Fin 24).val]? = some ⟨0, true, 135, false⟩ ∧ (135 : Int) ≤ 135 ∧ (150 : Int) ≤ 150 ∧ (149 : Int) < 150 ∧
    (∀ b : Bool, (aux0 fun x => { x with therm := b }).aux.ch[(0 : Fin 24)].therm = b) ∧
    (let s (r : Bool) := aux0 fun x => { x with duty := 1, limitDue := some 9, retrying := r, retries := 2 }
     (s true).aux.ch[(0 : Fin 24)].limitDue = some 9 ∧ 0 < (s true).aux.ch[(0 : Fin 24)].duty ∧ 9 < 10 ∧ (s true).aux.ch[(0 : Fin 24)].retrying = true ∧
     (s false).aux.ch[(0 : Fin 24)].retrying = false ∧ (s true).aux.retryMax ≤ min 7 ((s true).aux.ch[(0 : Fin 24)].retries + 1) ∧ (s false).aux.ch[(0 : Fin 24)].overSince = none) ∧
    (let s := { aux0 (fun x => { x with duty := 1, current := 30001 }) with aux := { (aux0 fun x => { x with duty := 1, current := 30001 }).aux with overSince := some 0 } }
     s.aux.overSince = some 0 ∧ 0 + ms 100 < ms 100 + 1 ∧ s.aux.lastShed = none ∧ 30000 < s.auxTotal ∧ s.shedAux = some 0 ∧ s.aux.ch[(0 : Fin 24)].retrying = false) ∧
    (aux0 fun x => { x with current := 30000 }).auxTotal ≤ 30000 := by decide +kernel

/-- A calibration set without channels. -/
def cal0 : CalSet :=
  { wiring := 0, fNom := 50, calId := 1, uNom := 400, sNl := 1, intervalS := 900, vLive := 60, neutralPct := 10, iNl := List.replicate 12 1, offsets := List.replicate 32 0, gains := List.replicate 32 1,
    delays := [], map := [], mapBytes := [] }

/-- The partition changed. -/
def met (f : Metrology → Metrology) : State := { act with met := f { act.met with set := some cal0 } }

/-- Tallies of 0 at time 0. -/
def snap0 : TallySnap := ⟨0, Vector.replicate 32 0, Vector.replicate 32 0, Vector.replicate 13 0⟩

theorem witness_SampleTallied :
    let x : MetSample := ⟨List.replicate 32 (-(2 ^ 23)), List.replicate 32 false, []⟩
    let s (k : Nat) := met fun m => { m with lastRep := some 0, rawRep := some 0, raw := List.replicate k x }
    (s 4).metRuns = true ∧ 125000 % 125000 = 0 ∧ 125000 + 500000 ≤ 625000 ∧ 825000 ≤ 125000 + 700000 ∧ (∀ k ∈ (filterSample x).codes, -(2 ^ 23) ≤ k ∧ k < 2 ^ 23) ∧ (s 4).met.rawRep = some 0 ∧ 0 < 125000 ∧
    (s 4).met.set = some cal0 ∧ (s 4).met.tallying = true ∧ (s 4).met.nextSet = none ∧ (s 4).met.resumeAt = none ∧ (rawWith (s 3).met 125000 (filterSample x)).length < 5 ∧
    5 ≤ (rawWith (s 4).met 125000 (filterSample x)).length ∧ delaysMet cal0 (rawWith (s 4).met 125000 (filterSample x)) = true ∧
    (rawWith (s 4).met 250000 (filterSample x)).length < 5 := by decide +kernel

theorem witness_MetrologyEvents :
    (met id).metRuns = true ∧ (met fun m => { m with blockAt := 5 }).blockEnd ≤ (met fun m => { m with blockAt := 5 }).met.blockAt ∧ act.vault.debug = false ∧
    (met fun m => { m with key := some [] }).met.key.isSome = true ∧ (met id).met.queue.length < 256 ∧ (met id).met.set = some cal0 ∧ (met id).met.recent = [] ∧
    (let x : Computed := ⟨8000000, 0, 0, 0, [], [], [], [], snap0⟩
     let T := (9500000 / 1000000 + 1) * 1000000
     ((met fun m => { m with recent := [x] }).met.recent.filter fun m => decide (T < m.rep + ms 2 ∧ m.rep + ms 1 ≤ T)) = [] ∧
     ((met fun m => { m with recent := [{ x with rep := 8500000 }] }).met.recent.filter fun m => decide (T < m.rep + ms 2 ∧ m.rep + ms 1 ≤ T)) ≠ []) ∧
    (met fun m => { m with live := vupd m.live 0 fun _ => true }).met.live[(0 : Fin 12)] = true ∧ (met fun m => { m with deadSnap := vupd m.deadSnap 0 fun _ => some snap0 }).met.deadSnap[(0 : Fin 12)] = some snap0 ∧
    (met fun m => { m with boundary := [snap0] }).met.boundary = snap0 :: [] ∧ snap0.at_ ≤ 0 ∧ (met id).met.boundary = [] ∧
    (met fun m => { m with nextSet := some (cal0, 5), lastRep := some 5 }).met.nextSet = some (cal0, 5) ∧ 5 < 6 ∧ (met fun m => { m with nextSet := some (cal0, 5), lastRep := some 5 }).met.lastRep = some 5 ∧
    (∀ z ∈ (met id).met.boundary, snap0.at_ < z.at_) ∧ (∀ b : Fin 12, (met id).met.deadSnap[b] = none) ∧
    (let u := met fun m => { m with boundary := [snap0, { snap0 with at_ := 9 }], deadSnap := vupd m.deadSnap 0 fun _ => some { snap0 with at_ := 8 } }
     u.met.boundary = snap0 :: [{ snap0 with at_ := 9 }] ∧ snap0.at_ ≤ 8 ∧ (∀ z ∈ (met fun m => { m with boundary := [{ snap0 with at_ := 9 }] }).met.boundary, 8 < z.at_)) := by decide +kernel

/-- A list of one entry many times over keeps its length where the entry passes the filter. -/
theorem length_filter_replicate {α : Type} (n : Nat) (x : α) (p : α → Bool) (h : p x = true) : ((List.replicate n x).filter p).reverse.length = n := by
  simp [h]

theorem witness_MetrologyEvents_block :
    let s := met fun m => { m with lastRep := some 200000000, block := List.replicate 1600 (200000000, [], []) }
    s.met.blockAt < s.blockEnd ∧ (s.blockOf s.blockEnd).length = 1600 := by
  intro s
  have e : s.blockEnd = 200000000 := by decide
  refine ⟨by rw [e]; decide, ?_⟩
  rw [e]
  exact length_filter_replicate 1600 _ _ (by decide)

theorem witness_ReceiptsAndTallies :
    act.live = true ∧ act.serves .spi = true ∧ (met fun m => { m with queue := [⟨1, []⟩] }).met.queue = ⟨1, []⟩ :: [] ∧ (met id).met.store.length < 15123 ∧ 208 ≤ act.mram.metro + act.mram.spare ∧
    (let s : State := { act with mram := { act.mram with metro := 207, spare := 0 } }
     s.mram.metro + s.mram.spare < 208) ∧
    15123 ≤ (met fun m => { m with store := List.replicate 15123 ⟨1, []⟩ }).met.store.length ∧ (0 : Word).toNat ≤ (met id).met.head ∧ (met id).met.head < (1 : Word).toNat ∧
    (portLatch act .udp).isSome = true ∧ (portLatch act .udp).bind (·.tally) = none ∧
    (portLatch { act with host := { act.host with latchUdp := { act.host.latchUdp with tally := some (31, 5) } } } .udp).bind (·.tally) = some ((31 : Fin 32).val, 5) := by
  refine ⟨rfl, rfl, rfl, by decide +kernel, by decide +kernel, by decide +kernel, ?_, by decide +kernel⟩
  show 15123 ≤ (List.replicate 15123 (Receipt.mk 1 [])).length
  exact Nat.le_of_eq List.length_replicate.symm

/-- The two areas of an update changed. -/
def upd (f : Update → Update) : State := { act with upd := f act.upd }

theorem witness_MetrologyFirmware :
    let s := upd fun u => { u with large := { u.large with st := .activating, total := 1, chunks := [(0, [0, 0, 0, 0, 0, 0, 2, 0])] } }
    s.live = true ∧ s.stagedType = 2 ∧ s.upd.large.st = .activating ∧ headerError (s.arrive 0).writeCheckpoint false (areaBytes s.upd.large) = 1 := by decide +kernel

/-- SI pair 0 of TYPE 0 with its channels at their levels, both filtered. -/
def si (st : SiSt) (a b : Bool) : State :=
  { act with saf := { act.saf with records := [⟨1, 0, 0, 0, 4, 1⟩, ⟨2, 0, 32, 0, 0, 1⟩, ⟨3, 0, 0, 0, 10, 0⟩, ⟨1, 1, 2, 0, 4, 1⟩], si := vupd act.saf.si 0 fun p => { p with st := st, a := { p.a with level := a, cand := a }, b := { p.b with level := b, cand := b }, deadline := 50000 } } }

/-- The two channels of a pair after the samples of a scan. -/
def sampled (s : State) (t : Nat) (k : Fin 16) (r : SafRec) (a b : Bool) : SiChan × SiChan :=
  (if s.maskedAt (sourceOf r false) t then s.saf.si[k].a else sampleChan (siFilter (some r)) t a s.saf.si[k].a,
   if s.maskedAt (sourceOf r true) t then s.saf.si[k].b else sampleChan (siFilter (some r)) t b s.saf.si[k].b)

theorem witness_SafetyScanPair :
    let r : SafRec := ⟨1, 0, 0, 0, 4, 1⟩
    (∀ st ∈ [SiSt.idle, .waitReset, .partialDemand, .demand, .returning, .faultDisc, .faultBoth, .faultTest], ∀ a b a' b' : Bool,
      let s := si st a b
      let q := sampled s 50000 0 r a' b'
      s.scanAt 50000 = true ∧ s.safRec 1 0 = some r ∧ s.saf.si[(0 : Fin 16)].st = st ∧ demandA s.saf.si[(0 : Fin 16)].a.level = !a ∧ demandB r s.saf.si[(0 : Fin 16)].b.level = !b ∧
      demandA q.1.level = !a' ∧ demandB r q.2.level = !b' ∧ (a ≠ a' → q.1.stamp = 50000) ∧ (b ≠ b' → q.2.stamp = 50000) ∧ q.1.stamp ≤ s.saf.si[(0 : Fin 16)].deadline ∧
      q.2.stamp ≤ s.saf.si[(0 : Fin 16)].deadline ∧ s.saf.si[(0 : Fin 16)].deadline < 100000 ∧ s.scanAt 100000 = true ∧
      (a ≠ a' → (sampled s 100000 0 r a' b').1.stamp = 100000) ∧ (b ≠ b' → (sampled s 100000 0 r a' b').2.stamp = 100000)) ∧
    siType r ≠ 2 ∧ siManual r = false ∧ siManual ⟨1, 0, 4, 0, 4, 1⟩ = true ∧ siDisc r = 0 ∧ sourceOf r false = none ∧ sourceOf r true = none ∧
    (si .idle true true).lastInPulse none 50000 = false ∧ (si .idle true true).maskedAt none 50000 = false := by decide +kernel

/-- The pair with both channels fed by pulsing sources, its A channel armed and its pulses passed. -/
def pulsed (st : SiSt) (passed : Nat) (limited : Bool) : State :=
  let s := si st true true
  { s with saf := { s.saf with
      records := [⟨1, 0, 0, 0, 0, 1⟩, ⟨3, 0, 0, 1000, 20, 0⟩, ⟨3, 1, 0, 1000, 20, 0⟩], tpLimited := vupd s.saf.tpLimited 0 fun _ => limited,
      si := vupd s.saf.si 0 fun p => { p with a := { p.a with armed := true, passed }, b := { p.b with armed := true, passed } } } }

theorem witness_SafetyScanPair_pulses :
    let r : SafRec := ⟨1, 0, 0, 0, 0, 1⟩
    let s := pulsed .faultTest 1 false
    s.scanAt 950000 = true ∧ s.safRec 1 0 = some r ∧ sourceOf r false = some 0 ∧ sourceOf r true = some 1 ∧ s.lastInPulse (some 0) 950000 = true ∧ s.lastInPulse (some 1) 950000 = false ∧
    s.lastInPulse (some 1) 10950000 = true ∧ s.maskedAt (some 0) 950000 = true ∧ s.maskedAt (some 0) 1150000 = false ∧ s.saf.si[(0 : Fin 16)].a.armed = true ∧
    (sampled s 950000 0 r true true).1 = s.saf.si[(0 : Fin 16)].a ∧ s.saf.si[(0 : Fin 16)].a.passed + 1 = 2 ∧ (pulsed .faultTest 2 false).saf.si[(0 : Fin 16)].b.passed = 2 ∧
    (pulsed .waitReset 1 false).saf.si[(0 : Fin 16)].a.passed = 1 ∧ (pulsed .faultTest 0 true).saf.tpLimited[(0 : Fin 4)] = true ∧ s.saf.tpLimited[(0 : Fin 4)] = false ∧
    demandA s.saf.si[(0 : Fin 16)].a.level = false ∧ demandB r s.saf.si[(0 : Fin 16)].b.level = false := by decide +kernel

theorem witness_SafetyScanPair_forms :
    (∀ a b : Bool,
      let r : SafRec := ⟨1, 1, 2, 0, 4, 1⟩
      let q := sampled (si .idle true true) 50000 1 r a b
      (si .idle true true).safRec 1 1 = some r ∧ siType r = 2 ∧ q.1.level = a ∧ q.2.level = b ∧ (si .idle true true).saf.si[(1 : Fin 16)].st ≠ .faultTest) ∧
    (let c : SiChan := { cand := true, count := 2, first := 7 }
     siFilter (some ⟨1, 0, 32, 0, 4, 1⟩) = 3 ∧ (sampleChan 3 50000 true c).level = true ∧ (sampleChan 3 50000 true c).stamp = 7 ∧ (sampleChan 3 50000 false c).level = false) := by decide +kernel

theorem witness_SafetyEvents :
    (let s := si .partialDemand false true
     s.live = true ∧ s.safRec 1 0 = some ⟨1, 0, 0, 0, 4, 1⟩ ∧ s.saf.si[(0 : Fin 16)].st = .partialDemand ∧ s.saf.si[(0 : Fin 16)].deadline < 50001 ∧ 50000 ≤ s.saf.si[(0 : Fin 16)].deadline ∧
     pairPending s.saf.si[(0 : Fin 16)] 50000 = false ∧ s.pulseRec 0 = some ⟨3, 0, 0, 0, 10, 0⟩ ∧ pulseStarts 0 ⟨3, 0, 0, 0, 10, 0⟩ 10000000 = true ∧ s.safRec 2 0 = some ⟨2, 0, 32, 0, 0, 1⟩ ∧
     (⟨2, 0, 32, 0, 0, 1⟩ : SafRec).flags.testBit 5 = true ∧ s.saf.so[(0 : Fin 16)].st ≠ .fault) ∧
    (let s := { si .idle true true with rtc := { act.rtc with valid := true, base := 40000000 * 65536 * 65536 } }
     s.rtc.valid = true ∧ s.saf.si[(0 : Fin 16)].proof + 31536000 < (s.arrive 0).calSeconds) ∧
    (let s := (si .idle true true).setSo 0 fun o => { o with st := .on, hs := true, ls := true }
     s.saf.so[(0 : Fin 16)].hs = true ∧ s.saf.so[(0 : Fin 16)].ls = true ∧ s.saf.so[(0 : Fin 16)].st ≠ .fault) ∧
    (let r : SafRec := ⟨2, 0, 32, 0, 10, 1⟩
     let o (q : Option Nat) : SoPair := { act.saf.so[(0 : Fin 16)] with testAt := q }
     testDue r (o none) 5 false = true ∧ testDue r (o (some 5)) 5000005 true = true ∧ testDue r (o (some 5)) 5000004 true = false ∧ (o (some 5)).testAt = some 5 ∧ r.paramB ≠ 0) ∧
    4000 < 4001 ∧ 2000 < 2001 ∧ 4000 ≤ 4000 ∧ ms 10 < ms 10 + 1 ∧ 19 < 20 ∧ ms 100 ≤ ms 100 ∧ 20 ≤ 20 ∧ 2000 ≤ 2000 ∧
    (let s := { si .idle true true with saf := { (si .idle true true).saf with records := [⟨1, 1, 2, 0, 4, 1⟩, ⟨2, 0, 1, 0, 0, 1⟩], si := vupd (si .idle true true).saf.si 1 fun p => { p with apart := some 0 } } }
     s.safRec 1 1 = some ⟨1, 1, 2, 0, 4, 1⟩ ∧ siType ⟨1, 1, 2, 0, 4, 1⟩ = 2 ∧ s.saf.si[(1 : Fin 16)].apart = some 0 ∧ 0 + siDisc ⟨1, 1, 2, 0, 4, 1⟩ < 1 ∧ pairPending s.saf.si[(1 : Fin 16)] 0 = false ∧
     s.saf.si[(1 : Fin 16)].mismatch = false ∧ (0, (⟨2, 0, 1, 0, 0, 1⟩ : SafRec)) ∈ s.soPairs ∧ fbOf ⟨2, 0, 1, 0, 0, 1⟩ = some 1) := by decide +kernel

theorem witness_SafeStopProgress :
    let s (st : SsSt) (j skips : Nat) := { act with saf := { act.saf with stops := vupd act.saf.stops 0 fun q => { q with st := st, taken := true, n := 4, j := j, skips := skips, deadline := some 5 } } }
    (s .ramp 4 17).live = true ∧ (s .ramp 4 17).saf.stops[(0 : Fin 12)].st = .ramp ∧ (s .ramp 4 17).saf.stops[(0 : Fin 12)].taken = true ∧
    (s .ramp 4 17).saf.stops[(0 : Fin 12)].n ≤ (s .ramp 4 17).saf.stops[(0 : Fin 12)].j ∧ (s .ramp 3 16).saf.stops[(0 : Fin 12)].j < (s .ramp 3 16).saf.stops[(0 : Fin 12)].n ∧
    (s .ramp 4 17).saf.stops[(0 : Fin 12)].deadline = some 5 ∧ 5 < 6 ∧ 5 ≤ 5 ∧ 17 ≤ (s .ramp 4 17).saf.stops[(0 : Fin 12)].skips ∧ (s .ramp 4 16).saf.stops[(0 : Fin 12)].skips < 17 ∧
    (s .opening 0 0).saf.stops[(0 : Fin 12)].st = .opening ∧ (s .opening 0 0).saf.stops[(0 : Fin 12)].deadline = some 5 ∧ (s .opening 0 0).outletFb 0 = [] ∧ (s .opening 0 0).sitePairs = [] := by decide +kernel

/-- A module with a configuration-unlock key for the UDP port. -/
def keyed : State := { act with vault := { act.vault with slots := vupd act.vault.slots 16 fun _ => some ⟨0x100, 1, 2 ^ 6, 1, 0, 7, true, [], 0⟩ } }

/-- A module whose configuration-unlock key serves another master alone. -/
def barred : State := { act with vault := { act.vault with slots := vupd act.vault.slots 16 fun _ => some ⟨0x100, 1, 2 ^ 6, 2, 0, 7, true, [], 0⟩ } }

theorem witness_SysUnlock :
    keyed.live = true ∧ keyed.serves .udp = true ∧ keyed.useRefused .udp 6 = false ∧ act.useRefused .udp 6 = false ∧ barred.useRefused .udp 6 = true ∧ barred.live = true ∧ barred.lock.remaining 0 = 0 ∧
    ({ act.lock with lockout := true, remNs := 1 } : Unlock).lockout = true ∧ (keyed.cfgKey .udp).isSome = true ∧ keyed.lock.remaining 0 = 0 ∧ act.cfgKey .udp = none ∧
    ({ act.lock with lockout := true, remNs := 1 } : Unlock).remaining 0 = 1 ∧ ({ act.lock with lockout := true, remNs := 1 } : Unlock).remaining 1 = 0 ∧
    ({ act with lock := { act.lock with st := .unlocked, deadline := 5 } } : State).lock.st = .unlocked ∧ satInc 8 3 < 5 ∧ 5 ≤ satInc 8 4 := by decide +kernel

theorem witness_SysUnlock_right (k : Key) :
    let s := { keyed with lock := { keyed.lock with resp := sysResponse keyed .udp k } }
    s.lock.resp = sysResponse s .udp k := by
  intro s
  unfold sysResponse
  rfl

theorem witness_SafetyUnlock :
    let s (f : SafetyBlock → SafetyBlock) : State := { act with saf := f { act.saf with noPw := false } }
    (s id).saf.noPw = false ∧ (s fun x => { x with noPw := true }).saf.noPw = true ∧ (s id).saf.unlock.remaining 0 = 0 ∧
    (s fun x => { x with unlock := { x.unlock with lockout := true, remNs := 1 } }).saf.unlock.remaining 0 = 1 ∧
    (s fun x => { x with unlock := { x.unlock with lockout := true, remNs := 1 } }).saf.unlock.remaining 1 = 0 ∧
    (let u := s fun x => { x with unlock := { x.unlock with st := .unlocked, deadline := 5 }, staged := some ⟨100, 5⟩ }
     u.saf.unlock.st = .unlocked ∧ u.saf.staged = some ⟨100, 5⟩ ∧ u.changing = false ∧ u.logFull = false ∧ u.pwr.pfw = false ∧ u.saf.unlock.deadline < 6 ∧ 5 ≤ u.saf.unlock.deadline) ∧
    (slot .pending fun p => { p with pend := some (pend .stopped none none) }).changing = true ∧ (s id).saf.unlock.st ≠ .unlocked := by decide +kernel

/-- A module of a pair in a role. -/
def role (m : PairMode) (r : Role) (f : Pair → Pair) : State := { act with pair := f { act.pair with mode := m, role := r, activeO := r == .active || r == .claiming } }

theorem witness_RoleSteps :
    (∀ r : Role, (role .full r id).live = true ∧ (role .full r id).pair.role = r ∧ (role .full r id).pair.mode ≠ .single ∧ (role .single r id).pair.mode = .single ∧ (role .full r id).pair.activeI = false ∧
      (role .full r fun p => { p with side := 1, activeI := true }).pair.side = 1 ∧ (role .full r fun p => { p with side := 1, activeI := true }).pair.activeI = true ∧
      (role .full r fun p => { p with side := 0 }).pair.side = 0 ∧ (role .full r id).saf.ctrlFault = false ∧ (role .full r fun p => { p with side := 0, activeI := true }).pair.activeI = true ∧ (role .full r id).pair.roleAt + 2000 ≤ 2000 ∧ 10000 ≤ (role .full r id).pair.roleAt + 10000 ∧ (role .full r id).pair.roleAt + 10000 < 10001 ∧
      max (role .full r id).pair.releasedAt (role .full r id).pair.roleAt + ms 20 ≤ ms 20 ∧ ms 200 - 1 < max (role .full r id).pair.releasedAt (role .full r id).pair.roleAt + ms 200) := by
  intro r; cases r <;> decide +kernel

theorem witness_PairChecks :
    (role .lite .standby id).fit = false ∧ (role .full .syncing id).pair.roleAt + secs 10 < secs 10 + 1 ∧ (role .full .unfit fun p => { p with passDue := some 0 }).pair.passDue = some 0 ∧
    (role .full .unfit id).pair.hold11 = false ∧ (role .full .unfit fun p => { p with hold11 := true }).pair.hold11 = true ∧ (role .single .unfit fun p => { p with unfitCode := 6 }).pair.unfitCode = 6 ∧
    (role .single .unfit id).pair.activeI = false ∧ (role .single .unfit id).pair.releasedDue ≤ 0 ∧ 4 < (role .single .unfit fun p => { p with releasedDue := 5 }).pair.releasedDue ∧
    (let u := role .full .active fun p => { p with partner := { p.partner with role := some .standby, fit := true, heardAt := some 0 }, holdoffDue := 0 }
     u.partnerFit = true ∧ u.pair.holdoffDue ≤ u.mt ∧ u.mt < (role .full .active fun p => { p with holdoffDue := 1 }).pair.holdoffDue) ∧ (role .lite .active id).energisedMask = 0 ∧
    (role .full .active fun p => { p with partner := { p.partner with heardAt := some 0, absent := false } }).pair.partner.heardAt = some 0 ∧
    (role .full .active fun p => { p with partner := { p.partner with heardAt := some 0, absent := false } }).pair.partner.absent = false ∧ 0 + ms 50 < ms 50 + 1 ∧ act.serves .udp = true := by decide +kernel

/-- A 64-byte frame of a kind with a first field. -/
def hb (kind st : BitVec 8) : Bytes := [kind, st] ++ List.replicate 62 0

theorem witness_PairChecks_fit :
    (∀ r ∈ [Role.standby, .syncing, .unfit], ((role .single r id).arrive 0).fit = true ∧ ((role .lite r id).arrive 0).fit = false ∧ (role .single r id).live = true) ∧
    ((role .single .syncing id).arrive 0).synced = true ∧ ((role .lite .syncing id).arrive 0).synced = false ∧ (role .single .unfit id).saf.ctrlFault = false ∧
    (role .full .syncing id).pair.partner.heardAt = none ∧ (role .full .syncing fun p => { p with listenFrom := 7 }).pair.listenFrom = 7 ∧
    ((role .full .active id).arrive 0).partnerFit = false ∧ ((role .full .syncing id).arrive 0).failing ≠ [] ∧ ((role .single .syncing id).arrive 0).failing = [] := by decide +kernel

theorem witness_PairFrames :
    (hb 1 0).length = 64 ∧ u8 (hb 1 0) 0 = 1 ∧ u8 (hb 2 2) 0 = 2 ∧ u8 (hb 2 2) 1 < 3 ∧ u8 (hb 3 0) 0 = 3 ∧ (role .full .active id).live = true ∧ (role .full .active id).pair.mode ≠ .single ∧
    (role .full .active id).active = true ∧ (role .full .standby id).active = false ∧ (role .full .active fun p => { p with side := 1 }).pair.side = 1 ∧ (role .full .active fun p => { p with side := 1 }).pair.role = .active ∧
    (partnerHeard (role .full .active id).pair.partner 0 (hb 1 2)).role = some .active ∧ (partnerHeard (role .full .active id).pair.partner 0 (hb 1 0)).role ≠ some .active := by decide +kernel

theorem witness_CounterClears : act.live = true ∧ act.serves .udp = true ∧ act.serves .spi = true := by decide +kernel

theorem witness_SafetyPairResets :
    let u (a b : Bool) : State := { si .waitReset a b with saf := { (si .waitReset a b).saf with records := [⟨1, 0, 4, 0, 4, 1⟩] } }
    (∀ a b : Bool, (u a b).live = true ∧ (u a b).safRec 1 0 = some ⟨1, 0, 4, 0, 4, 1⟩ ∧ (u a b).saf.si[(0 : Fin 16)].st = .waitReset ∧ inDemand ⟨1, 0, 4, 0, 4, 1⟩ (u a b).saf.si[(0 : Fin 16)] = !(a && b)) ∧
    siType ⟨1, 0, 4, 0, 4, 1⟩ ≠ 2 ∧ siManual ⟨1, 0, 4, 0, 4, 1⟩ = true ∧ 15 < 16 ∧ (si .idle true true).saf.si[(0 : Fin 16)].st ≠ .waitReset ∧
    (let s := (si .idle true true).setSo 0 fun o => { o with st := .fault, cause := 1 }
     s.safRec 2 0 = some ⟨2, 0, 32, 0, 0, 1⟩ ∧ s.saf.so[(0 : Fin 16)].st = .fault) ∧
    (si .idle true true).saf.so[(0 : Fin 16)].st ≠ .fault := by decide +kernel

/-- The head of an empty Seljo message of a TYPE at a time. -/
def head (k t : Nat) : SeljoHead := ⟨0, 0, t, [], crc32c (seljoBody k 0 0 t [])⟩

/-- The Seljo link of a full pair in a role. -/
def seljo (r : Role) (f : Seljo → Seljo) : State := role .full r fun p => { p with seljo := f p.seljo }

theorem witness_SeljoLink :
    (∀ r : Role, ∀ up : Bool, (seljo r fun q => { q with up := up }).live = true ∧ (seljo r fun q => { q with up := up }).pair.mode = .full ∧ (seljo r fun q => { q with up := up }).pair.role = r ∧
      (seljo r fun q => { q with up := up }).pair.seljo.up = up) ∧
    (∀ k ∈ [1, 2, 4, 6, 7, 8], seljoOk k (head 0 0) = false ∧ seljoOk k (head k 0) = true) ∧ ([] : List Nat).length < 3 ∧
    3 ≤ ((seljo .active fun q => { q with crcStamps := [1, 2, 3] }).pair.seljo.crcStamps.filter fun x => decide (max 0 5 < x + 1000000)).length ∧ (((12 : Nat) : Int) - (0 : Nat)) - (((8 : Nat) : Int) - (0 : Nat)) = 2 * 2 ∧
    (((0 : Nat) : Int) - (2000000002 : Nat)) - (((0 : Nat) : Int) - (0 : Nat)) = 2 * (-1000000001) ∧ (-1000000001 : Int) < -1000000000 ∧ (-1000000000 : Int) ≤ 2 ∧
    (∀ x : SlotState, (let s := { seljo .standby id with prof := { act.prof with slots := vupd act.prof.slots 1 fun p => { p with st := x } } }
      s.mayFollowProfile 1 (slotUid s.prof.slots[(1 : Fin 4)]) = (x != .empty && x != .active) ∧ (seljo .standby id).active = false)) ∧
    (let s := { seljo .active id with prof := { act.prof with pend := some { slot := 1, mode := .handover, image := img, since := 0, master := .udp } } }
     s.active = true ∧ ∃ x, s.prof.pend = some x ∧ x.mode = .handover ∧ x.slot = 1 ∧ x.image.header.uid = [] ∧ x.loaded = none) ∧
    (let s := (seljo .active id).setBay 0 fun x => { x with heldResp := some { name := .sdp, code := .finished } }
     s.bays[(0 : Fin 12)].heldResp = some { name := .sdp, code := .finished } ∧ s.active = true) ∧ act.bays[(0 : Fin 12)].heldResp = none := by
  refine ⟨fun r => by cases r <;> decide +kernel, by decide +kernel, by decide, by decide +kernel, by decide, by decide, by decide, by decide,
    fun x => by cases x <;> decide +kernel, ⟨by decide +kernel, _, rfl, rfl, rfl, rfl, rfl⟩, by decide +kernel, by decide +kernel⟩

theorem witness_Shadowing :
    let snap : Option Nat := none
    (∀ r : Role, (seljo r id).live = true ∧ (seljo r id).pair.mode = .full ∧ (seljo r id).pair.role = r ∧ (seljo r id).prof.image = some img) ∧ seljoOk 2 (head 2 0) = true ∧ seljoOk 3 (head 3 1000000) = true ∧
    seljoOk 5 (head 5 0) = true ∧ seljoOk 6 (head 6 0) = true ∧
    (seljo .standby id).shadows = true ∧ (∀ x, (seljo .standby id).pair.seljo.pitchDigest ≠ some ((head 2 0).time, x)) ∧
    (seljo .standby fun q => { q with pitchDigest := some (0, 7) }).pair.seljo.pitchDigest = some ((head 2 0).time, 7) ∧ (7 : Nat) ≠ (⟨0, 8, []⟩ : PitchMsg).digest ∧
    (seljo .standby fun q => { q with pitchDigest := some (0, 8) }).pair.seljo.pitchDigest = some ((head 2 0).time, (⟨0, 8, []⟩ : PitchMsg).digest) ∧
    (seljo .standby fun q => { q with tickDigest := some (0, 7) }).pair.seljo.tickDigest = some (0, 7) ∧ 0 + 1000000 = (head 3 1000000).time ∧
    (seljo .standby id).clearingImage.isSome = true ∧ (seljo .active id).pair.seljo.tickDigest = none ∧ snap = none ∧
    (seljo .standby fun q => { q with agreedPitch := 10000, agreedTick := 1000000 }).pair.seljo.agreedPitch = (head 2 20000).time - act.pitchNs ∧ (2000000 : Nat) - 1000000 = 1000000 ∧
    (seljo .standby id).pair.seljo.agreedTick ≠ 1000000 ∧
    (let s := seljo .syncing fun q => { q with lock := true, stateTaken := true, replay := [(0, [])] }
     s.pair.seljo.lock = true ∧ s.pair.seljo.stateTaken = true ∧ s.pair.seljo.captured = false ∧ ∀ x ∈ s.pair.seljo.replay, x.1 ≤ (head 6 0).time) := by
  refine ⟨fun r => by cases r <;> decide +kernel, by decide +kernel, by decide +kernel, ?_⟩
  refine ⟨by decide +kernel, by decide +kernel, by decide +kernel, fun x h => (nomatch h), ?_⟩
  decide +kernel

theorem witness_ShadowWindow :
    let s := seljo .standby id
    s.live = true ∧ s.prof.image = some img ∧ s.shadows = true ∧ s.openNs + 900 ≤ s.openNs + 900 ∧ s.isBoundary (s.openNs + 900 + 10000 - (s.openNs + 900)) = true ∧
    s.lat.windowOpen = false ∧ s.lat.pitch ≠ 10000 ∧ s.openNs + 899 < s.openNs + 900 ∧ s.isBoundary 1 = false ∧ s.pair.seljo.pitch = none ∧ (s.stallRec 0).isSome = true ∧
    (s.setStall 0 fun x => { x with link := { x.link with own := some (10000, uplink 10000) } }).stalls[(0 : Fin 64)].link.own = some (10000, uplink 10000) ∧ uplink 10000 ≠ [] := by decide +kernel

theorem witness_ShadowWindow_items :
    let items := pitchItems 3 ⟨1, 0, [List.replicate 24 7, []]⟩
    (seljo .standby fun q => { q with pitch := some (10000, items) }).pair.seljo.pitch = some (10000, items) ∧ (items.map fun x => x.1) = [0, 1] ∧ [0, 1].Nodup ∧
    ((0 : Fin 64).val, true, List.replicate 24 (7 : Byte)) ∈ items ∧ ((1 : Fin 64).val, false, ([] : Bytes)) ∈ items := by decide +kernel

/-- An image with a reference, an arbitrating, an exclusive and a silent window on channel 0. -/
def busImg : Image :=
  { img with bus := [⟨0, 2, 0, 1, 0x80, 0, 100000⟩, ⟨0, 1, 0, 1, 0, 100000, 400000⟩, ⟨0, 0, 0, 1, 0x11, 600000, 200000⟩, ⟨0, 3, 0, 1, 0, 800000, 100000⟩] }

/-- A module that runs that image, with a channel and a bus changed. -/
def bus (f : Channel → Channel) (g : SiteBus → SiteBus) : State :=
  { act with prof := { act.prof with image := some busImg }, sbus := g { act.sbus with ch := vupd act.sbus.ch 0 f } }

theorem witness_BusReferences :
    let s := bus id id
    s.live = true ∧ s.referenceStart 0 3000000 = some (⟨0, 2, 0, 1, 0x80, 0, 100000⟩, 3000000) ∧ s.busMaster = true ∧ s.chInUse 0 = true ∧ s.sbus.bus = .awake ∧
    s.sbus.ch[(0 : Fin 2)].err ≠ 2 ∧ s.sbus.ch[(0 : Fin 2)].wire = .none ∧ s.mayLead 0 3000000 3000000 = true ∧ run.busMaster = false ∧ (bus id fun b => { b with bus := .asleep }).sbus.bus = .asleep ∧
    (bus (fun c => { c with err := 2 }) id).sbus.ch[(0 : Fin 2)].err = 2 ∧ s.running = true ∧ s.sbus.ch[(0 : Fin 2)].lead = false ∧
    (List.replicate 12 (0 : Byte)).length = 12 ∧ u8 (List.replicate 12 0) 0 < s.busCycle.2 ∧ s.referenceFor 0 3000000 0 = some ⟨0, 2, 0, 1, 0x80, 0, 100000⟩ ∧
    (u8 (List.replicate 12 0) 1).testBit 2 = false ∧ (u8 ([0, 4] ++ List.replicate 10 0) 1).testBit 2 = true ∧ ([0, 4] ++ List.replicate 10 (0 : Byte)).length = 12 ∧
    s.busCycle.2 ≤ u8 (List.replicate 12 1) 0 ∧ ([] : Bytes).length ≠ 12 ∧ s.sbus.ch[(0 : Fin 2)].missRun < 2 ∧
    (bus (fun c => { c with missRun := 2, sync := true }) id).sbus.ch[(0 : Fin 2)].missRun = 2 ∧ (bus (fun c => { c with missRun := 2, sync := true }) id).sbus.ch[(0 : Fin 2)].sync = true ∧
    (bus (fun c => { c with lead := true }) id).sbus.ch[(0 : Fin 2)].lead = true ∧
    (bus id fun b => { b with bus := .announcing }).sbus.bus = .announcing ∧ s.sbus.ch[(0 : Fin 2)].announce = 0 ∧
    s.sbus.ch[(0 : Fin 2)].referenceFits ⟨0, 2, 0, 1, 0x80, 0, 100000⟩ = false ∧ s.sbus.ch[(0 : Fin 2)].sync = false ∧
    (let u := bus (fun c => { c with nomRate := 3, dataRate := 5 }) id
     u.referenceStart 0 3000000 = some (⟨0, 2, 0, 1, 0x80, 0, 100000⟩, 3000000) ∧ u.sbus.ch[(0 : Fin 2)].referenceFits ⟨0, 2, 0, 1, 0x80, 0, 100000⟩ = true ∧ u.mayLead 0 3000000 3000000 = true ∧
     u.busMaster = true ∧ u.chInUse 0 = true ∧ u.sbus.bus = .awake ∧ u.sbus.ch[(0 : Fin 2)].err ≠ 2 ∧ u.sbus.ch[(0 : Fin 2)].wire = .none) := by decide +kernel

theorem witness_BusSleepWake :
    (∀ x : Bool, (bus id fun b => { b with bus := .announcing, sleep := x }).sbus.sleep = x) ∧
    (bus id id).live = true ∧ act.serves .udp = true ∧ (bus id id).busMaster = true ∧ (∃ ch, (bus id id).chInUse ch = true) ∧ run.busMaster = false ∧
    (∀ x ∈ [BusSt.awake, .announcing, .asleep], (bus id fun b => { b with bus := x }).sbus.bus = x) ∧
    (let b := (bus id fun b => { b with bus := .asleep, wakeMode := 7, wakeFilt := 2, wakeErr := 32 }).sbus
     b.bus = .asleep ∧ wakeMet b (.wakeI 2000) = true ∧ wakeMet b (.wakeI 1999) = false ∧ wakeMet b (.dominant0 2000) = true ∧ wakeMet b (.dominant1 1999) = false ∧ wakeMet b .errors = true ∧
     wakeMet { b with wakeErr := 31 } .errors = false ∧ wakeMet b (.frame ⟨false, 0, false, false, false, false, 0, []⟩) = true ∧
     wakeMet b (.frame ⟨false, 0, true, false, false, false, 0, []⟩) = false) := by decide +kernel

/-- A queued frame of a mailbox. -/
def frame (box attempts : Nat) : TxFrame := { kind := 3, box := box, ext := false, id := 5, fd := false, brs := false, dlc := 0, data := [], attempts := attempts }

theorem witness_BusSending :
    let w (on : OnWire) := bus (fun c => { c with sync := true, lead := true, occStart := 100000, occEnd := 500000, queue := [frame 0 0], wire := on }) id
    (w .none).live = true ∧ (w .none).arbOccurrence 0 100000 = some (100000, 400000) ∧ (w .none).sbus.ch[(0 : Fin 2)].occStart = 100000 ∧ (w .none).sbus.ch[(0 : Fin 2)].occEnd = 100000 + 400000 ∧
    (w .none).sbus.ch[(0 : Fin 2)].queue = frame 0 0 :: [] ∧ (w .none).mayStart 0 = true ∧
    mayAttempt (w .none).sbus.ch[(0 : Fin 2)] (frame 0 0) 100000 = true ∧ mayAttempt (w .none).sbus.ch[(0 : Fin 2)] (frame 0 0) 500000 = false ∧
    (w .queued).sbus.ch[(0 : Fin 2)].wire = .queued ∧ (w .queued).sbus.ch[(0 : Fin 2)].queue = frame 0 0 :: [] ∧ (frame 0 0).kind = 3 ∧ (frame 0 0).box = 0 ∧
    (w .none).quiet 0 = false ∧ (frame 0 1).attempts = 1 ∧ 0 < (frame 0 1).attempts ∧ ({ (w .none) with sbus := { (w .none).sbus with bus := .announcing } } : State).quiet 0 = true ∧
    (frame 0 0).attempts = 0 ∧ (w .none).sbus.ch[(0 : Fin 2)].brsOf true = decide ((w .none).sbus.ch[(0 : Fin 2)].dataRate ≠ 0) ∧
    (0x40000000 : Word).toNat.testBit 30 = true ∧ (0 : Word).toNat.testBit 30 = false ∧ max (w .none).mt 0 ≤ (frame 0 0).commitAt ∧ (frame 0 0).commitAt < max (w .none).mt 1 ∧ (w .none).sbus.boxes[(0 : Fin 8)].channel = 0 ∧
    (w .none).sbus.boxes[(0 : Fin 8)].cancelHeld = false ∧ (bus id fun b => { b with boxes := vupd b.boxes 0 fun y => { y with cancelHeld := true } }).sbus.boxes[(0 : Fin 8)].cancelHeld = true ∧ (bus id id).arbOccurrence 0 100000 = some (100000, 400000) ∧ (bus id id).sbus.ch[(0 : Fin 2)].occStart ≠ 100000 ∧
    (bus (fun c => { c with headWait := 4, queue := [frame 0 0] }) id).sbus.ch[(0 : Fin 2)].headWait = 4 ∧
    (∀ x ∈ [TxResult.empty, .pending, .sending], (bus id fun b => { b with boxes := vupd b.boxes 0 fun y => { y with result := x } }).sbus.boxes[(0 : Fin 8)].result = x) ∧
    txBusy .empty = false ∧ sendRefusal (bus id id) 0 (0 : Word).toNat = none ∧
    sendRefusal (bus id fun b => { b with boxes := vupd b.boxes 0 fun y => { y with result := .pending } }) 0 (0 : Word).toNat = some ⟨.busy, .state⟩ := by decide +kernel

/-- Buffer 0 on the exclusive window. -/
def tat (f : TatBuf → TatBuf) : State := bus (fun c => { c with sync := true, lead := true }) fun b => { b with tats := vupd b.tats 0 fun x => f { x with id := 0x11, en := true, window := 2, time := 601000, next := some 601000 } }

theorem witness_TransmitAtTime :
    (tat id).live = true ∧ (tat id).serves .udp = true ∧ (0x40000000 : Word).toNat.testBit 30 = true ∧ (0 : Word).toNat.testBit 30 = false ∧ (0 : Word).toNat.testBit 31 = false ∧
    (0x80000000 : Word).toNat.testBit 31 = true ∧ (0x80000000 : Word).toNat.testBit 30 = false ∧ armRefusal ((tat id).arrive 0) 0 (0x80000000 : Word).toNat = none ∧
    ((tat id).arrive 0).tatNext (tat id).sbus.tats[(0 : Fin 4)] = some 601000 ∧ ((tat id).arrive 0).tatNext { (tat id).sbus.tats[(0 : Fin 4)] with next := none } = none ∧
    tatObstacle ((tat id).arrive 0) (tat id).sbus.tats[(0 : Fin 4)] 0 601000 true = none ∧ tatObstacle ((tat id).arrive 0) (tat id).sbus.tats[(0 : Fin 4)] 0 601000 false = some .missedBusy ∧
    (tat id).sbus.tats[(0 : Fin 4)].result ≠ .sending ∧ (tat id).sbus.tats[(0 : Fin 4)].next = some 601000 ∧ (tat id).bufWindow (tat id).sbus.tats[(0 : Fin 4)] = some (0, ⟨0, 0, 0, 1, 0x11, 600000, 200000⟩) ∧
    601000 ≤ 601000 + (tat id).sbus.ch[(0 : Fin 2)].bitNs ∧ 0 + (tat id).sbus.ch[(0 : Fin 2)].bitNs < 601000 ∧
    (tat id).tatNext (tat id).sbus.tats[(0 : Fin 4)] = some 601000 ∧ 601000 = (601000 - (tat id).sbus.ch[(0 : Fin 2)].bitNs) + (tat id).sbus.ch[(0 : Fin 2)].bitNs ∧
    tatObstacle (tat id) (tat id).sbus.tats[(0 : Fin 4)] 0 601000 true = none ∧ tatObstacle (tat id) (tat id).sbus.tats[(0 : Fin 4)] 0 601000 false = some .missedBusy ∧
    tatObstacle (tat id) (tat id).sbus.tats[(0 : Fin 4)] 0 799999 true = some .missedBusy ∧ max (tat id).mt 0 ≤ (tat id).sbus.tats[(0 : Fin 4)].commitAt ∧
    (tat id).sbus.tats[(0 : Fin 4)].commitAt < max (tat id).mt 1 ∧ (tat fun x => { x with next := none }).tatNext (tat fun x => { x with next := none }).sbus.tats[(0 : Fin 4)] = none ∧
    (tat fun x => { x with periodic := true }).sbus.tats[(0 : Fin 4)].periodic = true ∧ armRefusal ((tat id).arrive 0) 0 (0 : Word).toNat = none ∧
    (∀ x ∈ [TxResult.empty, .pending, .sending], (tat fun y => { y with result := x }).sbus.tats[(0 : Fin 4)].result = x) ∧
    armRefusal ((tat fun y => { y with result := .pending }).arrive 0) 0 (0 : Word).toNat = some ⟨.busy, .state⟩ ∧
    (let bit := (tat id).sbus.ch[finMod 2 (tat id).sbus.tats[(0 : Fin 4)].channel].bitNs
     max (tat id).mt 0 + bit ≤ 601000 ∧ 601000 < max (tat id).mt 601000 + bit) ∧
    (tat fun x => { x with next := none }).sbus.tats[(0 : Fin 4)].next = none := by decide +kernel

/-- A data frame with an identifier. -/
def can (id : Nat) (remote : Bool) : CanFrame := ⟨false, id, false, false, false, remote, 0, []⟩

theorem witness_BusReception :
    let s (n : Nat) := bus (fun c => { c with filters := vupd c.filters 0 fun x => { x with en := true, filt := 0x11, mask := 0x1FFFFFFF }, fifo := List.replicate n ⟨can 5 false, 0, 0, 0⟩ }) id
    (s 0).live = true ∧ (s 0).chInUse 0 = true ∧ (s 0).sbus.ch[(0 : Fin 2)].err ≠ 2 ∧ (s 0).sbus.ch[(0 : Fin 2)].rec_ ≤ 127 ∧
    (s 0).windowAt 0 600000 = some (2, ⟨0, 0, 0, 1, 0x11, 600000, 200000⟩, 600000) ∧ (s 0).windowAt 0 899999 = some (3, ⟨0, 3, 0, 1, 0, 800000, 100000⟩, 800000) ∧
    (∀ r : Bool, (can 0x11 r).remote = r) ∧ 0x11 % 2 ^ 29 = (can 0x11 false).id ∧ (0x11 : Nat).testBit 31 = (can 0x11 false).ext ∧ 0x11 % 2 ^ 29 ≠ (can 5 false).id ∧
    (∃ i : Fin 8, filterHit (s 0).sbus.ch[(0 : Fin 2)].filters[i] (can 0x11 false) = true) ∧ (¬∃ i : Fin 8, filterHit (s 0).sbus.ch[(0 : Fin 2)].filters[i] (can 5 false) = true) ∧
    (s 63).sbus.ch[(0 : Fin 2)].fifo.length < 64 ∧ 64 ≤ (s 64).sbus.ch[(0 : Fin 2)].fifo.length ∧ (s 0).chInUse 1 = false ∧
    (∀ e : Bool, (bus id fun b => { b with slots := vupd b.slots 0 fun x => { x with en := e, window := 2 } }).sbus.slots[(0 : Fin 32)] = { en := e, window := 2 }) ∧
    (s 0).slotWindow { en := true, window := 2 } = some ⟨0, 0, 0, 1, 0x11, 600000, 200000⟩ ∧ ({ en := true, window := 2 } : RxSlot).entry = none ∧
    (s 0).running = true ∧ (bus (fun c => { c with err := 2 }) id).sbus.ch[(0 : Fin 2)].err = 2 := by decide +kernel

/-- A request frame: head bytes 1 to 11 after VER, payload and CRC. -/
def req (op tag : BitVec 8) (count : BitVec 8) (body : Bytes) : Bytes :=
  let f : Bytes := [1, op, tag, 0, 0, 0, 0, 0, count, 0, 0, 0] ++ body
  f ++ leBytes 4 (crc32c f)

/-- A datagram to the Tally port. -/
def gram (ip : Nat) (p : Bytes) : Datagram := ⟨ip, 7, 50721, false, false, true, p⟩

/-- The host block changed. -/
def host (f : HostBlock → HostBlock) : State := { act with host := f act.host }

/-- A queued request of operation `op`. -/
def queued (op count : Nat) (p : Bytes) : Request := ⟨⟨false, 1, 7⟩, op, 5, 0, count, p, 9, 0⟩

theorem witness_HostPorts :
    act.live = true ∧ acceptable { gram 1 [] with dstPort := 1 } = false ∧ acceptable (gram 1 []) = true ∧
    allowed (host fun h => { h with allow := vupd h.allow 0 fun _ => 2 }) 1 = false ∧ allowed act 1 = true ∧ requestCrcOk [1, 2, 3, 4] = false ∧ requestCrcOk (req 4 5 0 []) = true ∧
    (let k : Kept := ⟨⟨false, 1, 7⟩, 5, u32 (req 4 5 0 []) 12, [], 0⟩
     keptFor ((host fun h => { h with kept := [k] }).arrive 0) ⟨false, 1, 7⟩ 5 (u32 (req 4 5 0 []) ((req 4 5 0 []).length - 4)) = some k) ∧
    keptFor (act.arrive 0) ⟨false, 1, 7⟩ (u16 (req 4 5 0 []) 2) (u32 (req 4 5 0 []) ((req 4 5 0 []).length - 4)) = none ∧
    parseRequest ⟨false, 1, 7⟩ (req 9 5 0 []) = none ∧ (parseRequest ⟨false, 1, 7⟩ (req 4 5 0 [])).isSome = true ∧
    (host fun h => { h with udpQueue := List.replicate 15 (queued 4 0 []) }).host.udpQueue.length < 16 ∧ 16 ≤ (host fun h => { h with udpQueue := List.replicate 16 (queued 4 0 []) }).host.udpQueue.length ∧
    (host fun h => { h with spiQueue := some (queued 4 0 []) }).host.spiQueue.isSome = true ∧ act.host.spiQueue = none ∧ keptFor (act.arrive 0) spiOrigin 5 0 = none ∧
    (parseRequest spiOrigin (req 4 5 0 [])).isSome = true ∧ (host fun h => { h with spiReply := some [] }).host.spiReply = some [] := by decide +kernel

theorem witness_Transactions :
    let s := host fun h => { h with udpQueue := [queued 1 1 []] }
    let k : Kept := ⟨⟨false, 1, 7⟩, 5, 9, [], 0⟩
    act.live = true ∧ 4 % 4 = 0 ∧ 1 ≤ 256 ∧ 5 % 4 ≠ 0 ∧ 256 < 257 ∧ Master.marketSup ≠ .udp ∧ Master.marketSup ≠ .spi ∧ ([] : List Word).length < 256 ∧
    ((act.arrive 0).writeWord .marketSup 0xFFFFFFF0 0).2.status ≠ .ok ∧ ((act.arrive 0).writeWord .marketSup 0x00D0000C 0).2 = okAnswer ∧ resetWord 0x00D0000C 0 okAnswer = false ∧
    (List.replicate 1024 (0 : Byte)).length ≤ 1024 ∧ 1024 < (List.replicate 1025 (0 : Byte)).length ∧
    s.host.udpQueue = queued 1 1 [] :: [] ∧ (queued 1 1 []).op = 1 ∧ (queued 1 1 []).tag = 5 ∧ (queued 1 1 []).addr = 0 ∧ (queued 1 1 []).payload = [] ∧ (queued 1 1 []).origin.spi = false ∧
    keptFor (s.arrive 0) (queued 1 1 []).origin 5 (queued 1 1 []).crc = none ∧ keptFor ((host fun h => { h with kept := [k] }).arrive 0) (queued 1 1 []).origin 5 9 = some k ∧
    (queued 4 1 [7]).op = 4 ∧ (queued 4 1 [7]).count = ([7] : Bytes).length ∧ (queued 4 1 [7]).payload = [7] ∧
    inTurn s.host (queued 1 1 []) = true ∧ inTurn { s.host with spiQueue := some (queued 1 1 []) } (queued 1 1 []) = false ∧ s.host.udpQueue.length = 1 ∧ 1000000000 % 1000000000 = 0 ∧ 1 % 1000000000 ≠ 0 := by decide +kernel

/-- A module unlocked for the UDP port. -/
def open_ : State := { act with lock := { act.lock with st := .unlocked, owner := .udp, deadline := 5 } }

theorem witness_Transactions_access :
    Master.safetyCtl ≠ .udp ∧ act.serves .safetyCtl = false ∧ (mapPeek (act.arrive 0) .safetyCtl 0x80).isSome = true ∧ privateAddr 0x80 = false ∧ act.serves .marketSup = true ∧
    worldOf .marketSup ≠ .metrology ∧ worldOf .metroCore = .metrology ∧ 1 % 4 ≠ 0 ∧ 0x02400000 % 4 = 0 ∧ (∀ x ∈ [0x40, 0x60, 0x00010004, 0x00010100, 0x00100000, 0x00A00060], x % 4 = 0) ∧
    (let n := (0x00017FFF : Word).toNat
     1 ≤ n / 65536 ∧ n / 65536 ≤ 0x7FFF ∧ 1 ≤ n % 65536 ∧ n % 65536 ≤ 0x7FFF) ∧ ¬1 ≤ (0x00010000 : Word).toNat % 65536 ∧
    act.pwr.pfw = false ∧ act.policyFull 4 = false ∧ ({ act with mram := { act.mram with policy := 0, spare := 0 } } : State).policyFull 4 = true ∧
    open_.lock.st = .unlocked ∧ open_.lock.owner = .udp ∧ open_.lock.owner ≠ .spi ∧ act.lock.st = .locked ∧ ({ act with lock := { act.lock with st := .sealed } } : State).lock.st = .sealed ∧
    (3 : Word).toNat.testBit 0 = true ∧ (3 : Word).toNat.testBit 1 = true ∧ (1 : Word).toNat % 4 = 1 ∧
    roundUpTo 1000000000 act.mt ≤ act.host.rateEnd ∧ act.host.rateEnd < roundUpTo 1000000000 1 ∧ act.mt ≤ 1000000000 ∧ act.host.rateEnd < 1000000000 ∧
    (host fun h => { h with rateEnd := 1000000000 }).host.rateEnd = 1000000000 := by decide +kernel

theorem witness_Resets :
    act.live = true ∧ 3 ≤ 3 ∧ 8 ≤ 8 ∧ 10000 ≤ 10000 ∧ 999 < 1000 ∧ resetKeyRefusal (open_.arrive 0) .udp 0xB007 = none ∧ act.serves .udp = true ∧ sysGuard (open_.arrive 0) .udp = none ∧ 0 ≠ 0xB007 ∧
    act.clk.refOk = true ∧ act.pair.role = .active ∧
    (let s := { act with clk := { act.clk with refOk := false }, pwr := { act.pwr with inReset := true, st := .ready } }
     s.pwr.inReset = true ∧ s.pwr.st = .ready ∧ s.pwr.st ≠ .vbatOnly ∧ s.clk.refOk = false) ∧ act.pwr.st ≠ .vbatOnly ∧
    (({ act with pwr := { act.pwr with st := .vbatOnly } } : State).pwr.st = .vbatOnly) ∧
    (let f := role .full .active id
     f.paired = true ∧ f.pair.hold11 = false ∧ f.pair.role = .active) ∧
    (let f := role .full .standby fun p => { p with hold11 := true }
     f.paired = true ∧ f.pair.hold11 = true) := by decide +kernel

/-- A module on VBAT alone. -/
def onVbat (lost : Bool) (c : List MtCopy) : State := { act with pwr := { act.pwr with st := .vbatOnly }, clk := { act.clk with copies := c, vbatLost := lost } }

theorem witness_PowerLossAndTamper :
    act.pwr.st ≠ .vbatOnly ∧ (onVbat false []).pwr.st = .vbatOnly ∧ (onVbat false []).pwr.inReset = false ∧ (onVbat false []).clk.copies = [] ∧
    (∀ x : Bool, ({ onVbat false [] with clk := { act.clk with vbatOff := x } } : State).clk.vbatOff = x) ∧ act.clk.vbatOff = false ∧
    (∀ l : Bool, (onVbat l [⟨9, 9, 0⟩, { m := 1, raw := 2 }]).clk.copies.find? MtCopy.valid = some { m := 1, raw := 2 } ∧ (onVbat l [{ m := 1, raw := 2 }]).clk.vbatLost = l) ∧
    act.live = true ∧ act.clk.vbatLost = false ∧ saveDue act.clk 0 = true ∧ saveDue { act.clk with copies := [{ m := 1, raw := 2 }] } 1 = false := by decide +kernel

theorem witness_ClockAndSupplyEvents :
    let p (f : Pwr → Pwr) : State := { act with pwr := f act.pwr }
    act.live = true ∧ act.clk.x32Ok = true ∧ act.clk.vbatOff = false ∧ ({ act with clk := { act.clk with x32Ok := false } } : State).clk.x32Ok = false ∧
    ({ act with clk := { act.clk with vbatOff := true } } : State).clk.vbatOff = true ∧ 0 < 1799 ∧ 1060 < 1080 ∧ act.clk.lock[pllBit .l] = true ∧
    ({ act with clk := { act.clk with lock := vupd act.clk.lock 0 fun _ => false } } : State).clk.lock[pllBit .l] = false ∧ 1029 < 1030 ∧ act.pwr.pfw = false ∧ 1030 ≤ 1030 ∧ 1060 < 1061 ∧
    (p fun w => { w with pfw := true }).pwr.pfw = true ∧ 1060 ≤ 1060 ∧ 1079 < 1080 ∧ 1320 < 1321 ∧ act.pair.role = .active ∧ 1799 < 1800 ∧ act.pwr.vin24Low = false ∧ 1800 ≤ 1800 ∧
    (p fun w => { w with vin24Low := true }).pwr.vin24Low = true ∧
    (let u := act.setBay 0 fun b => { b with outlet := { b.outlet with close := true, confirmedClosed := true } }
     u.bays[(0 : Fin 12)].energised = true ∧ u.saf.stops[(0 : Fin 12)].st = .none) ∧
    (1250 : Int) ≤ 1250 ∧ (1250 : Int) < 1251 ∧ (1400 : Int) < 1401 ∧ act.pwr.hotSince = none ∧ (p fun w => { w with hotSince := some 0 }).pwr.hotSince = some 0 ∧ act.pwr.hot = false := by decide +kernel

/-- A module on its way into DORMANT. -/
def entering (r : Option Nat) (en : Nat) : State := { act with pwr := { act.pwr with entering := true, released := r, wakeEn := en }, sbus := { act.sbus with bus := .asleep } }

/-- A module in DORMANT, with its safety configuration and the pilot of bay 0. -/
def asleep (en : Nat) : State :=
  { (si .demand false false).setBay 0 (fun x => { x with pilot := { x.pilot with ce := .connected } }) with pwr := { act.pwr with st := .dormant, dormantAt := 5, wakeEn := en } }

theorem witness_DormantSteps :
    let e := entering
    act.live = true ∧ act.serves .udp = true ∧ act.pwr.entering = false ∧ dormantCode (act.arrive 0) = 0 ∧ dormantCode (({ act with pwr := { act.pwr with wakeEn := 0 } } : State).arrive 0) ≠ 0 ∧
    run.busMaster = false ∧ (e none 2).pwr.entering = true ∧ (e none 2).pwr.released = none ∧ (e none 2).sbus.bus = .asleep ∧ max (e none 2).sbus.busSince (e none 2).pwr.enteredAt + 1000000 ≤ 1000000 ∧
    (e none 2).pwr.enteredAt + 1001000000 ≤ 1001000000 ∧ 1000999999 < (e none 2).pwr.enteredAt + 1001000000 ∧ (e none 2).pair.role = .active ∧
    ({ e none 2 with pair := { act.pair with role := .claiming } } : State).pair.role = .claiming ∧ (e (some 0) 2).pwr.released = some 0 ∧ (e (some 0) 2).live = true ∧ 0 + 1000000 ≤ 1000000 ∧ 999999 < 0 + 1000000 ∧
    ((e (some 0) 2).arrive 1000000).wakePresent = none ∧ (({ e (some 0) 1 with rtc := { act.rtc with base := 65536, alarm := 1 } } : State).arrive 1000000).wakePresent = some .rtc ∧
    ((e none 16).elapse 0).mayWake .spi = true ∧ ((e none 2).elapse 0).mayWake .si = false ∧ (e none 2).pwr.wakeEn.testBit (wakeBit .si) = false := by decide +kernel

theorem witness_DormantSteps_wake :
    (asleep 31).pwr.st = .dormant ∧ (asleep 31).pwr.inReset = false ∧ (asleep 31).pwr.dormantAt < 6 ∧ 5 ≤ (asleep 31).pwr.dormantAt ∧ ((asleep 31).elapse 6).mayWake .si = true ∧
    ((asleep 31).elapse 6).mayWake .ce = true ∧ ((asleep 31).elapse 6).mayWake .rtc = false ∧ ((asleep 31).elapse 6).mayWake .spi = true ∧ (asleep 31).pwr.wakeEn.testBit (wakeBit .rtc) = true ∧
    (asleep 31).pwr.wakeEn.testBit (wakeBit .si) = true ∧ (asleep 31).pwr.wakeEn.testBit (wakeBit .ce) = true ∧ (asleep 31).pwr.wakeEn.testBit (wakeBit .spi) = true := by decide +kernel

/-- An Announce message of a sender. -/
def ann (source : Nat) : Announce := ⟨source, 0, 1, 128, 6, 0x21, 0, 128, 1, 1000, 37, true, false, false⟩

theorem witness_CalendarAndTimeReads :
    let r (f : Rtc → Rtc) : State := { open_ with rtc := f open_.rtc }
    act.live = true ∧ act.serves .udp = true ∧ sysGuard (open_.arrive 0) .udp = none ∧ open_.rtc.ptpLock = false ∧ (r fun x => { x with ptpLock := true }).rtc.ptpLock = true ∧
    open_.rtc.ptpEn = true ∧ (r fun x => { x with ptpEn := false }).rtc.ptpEn = false ∧
    (let s := r fun x => { x with master := some 9, syncSeq := 3, lastSync := some 0 }
     ptpFrom s.rtc ⟨0, 9, 3⟩ = true ∧ ptpFrom s.rtc ⟨0, 8, 3⟩ = false ∧ s.rtc.syncSeq = 3 ∧ s.rtc.lastSync.isSome = true ∧ s.rtc.syncOrigin = none ∧ s.rtc.syncSeq ≠ 4) ∧
    (∀ k : Bool, let s := r fun x => { x with master := some 9, syncOrigin := some 1, reqOpen := true, reqSeq := 4, utcKnown := k }
     s.rtc.syncOrigin = some 1 ∧ s.rtc.utcKnown = k ∧ ptpAnswers s.rtc ⟨⟨0, 8, 4⟩, 0, 5⟩ = false) ∧
    (let s := r fun x => { x with masters := [⟨ann 9, 0, some 0⟩] }
     (ann 9).domain = s.rtc.domain ∧ 1 ≠ s.rtc.domain ∧ bestMaster 0 0 (hearMaster s.rtc.masters (ann 9) 0) = some ⟨ann 9, 0, some 0⟩ ∧ bestMaster 0 0 (hearMaster open_.rtc.masters (ann 9) 0) = none) ∧
    (let s := r fun x => { x with lastSync := some 0, ptpLock := true }
     s.rtc.lastSync = some 0 ∧ s.rtc.ptpLock = true ∧ 0 + 10000000000 < 10000000001) ∧ open_.rtc.lastSync = none ∧ 10000000000 ≤ 0 + 10000000000 ∧
    (let s := r fun x => { x with leapPend := true, base := 86398 * 32768 }
     s.rtc.leapPend = true ∧ (s.arrive 0).calSeconds % 86400 = (if s.rtc.leapAdd then 86399 else 86398)) ∧ open_.rtc.leapPend = false ∧ (open_.arrive 0).calSeconds % 86400 ≠ 86398 ∧
    (portLatch open_ .udp).isSome = true ∧ (portLatch open_ .udp).bind (·.mtHigh) = none ∧
    (portLatch (host fun h => { h with latchUdp := { h.latchUdp with mtHigh := some 5, rawHigh := some 6 } }) .udp).bind (·.mtHigh) = some 5 ∧
    (portLatch (host fun h => { h with latchUdp := { h.latchUdp with mtHigh := some 5, rawHigh := some 6 } }) .udp).bind (·.rawHigh) = some 6 := by decide +kernel

theorem witness_CalendarAndTimeReads_answer :
    ptpAnswers { open_.rtc with master := some 9, reqOpen := true, reqSeq := 4 } ⟨⟨0, 9, 4⟩, Config.ptpPort, 5⟩ = true := by
  have h : ptpFrom { open_.rtc with master := some 9, reqOpen := true, reqSeq := 4 } ⟨0, 9, 4⟩ = true := by decide +kernel
  simp [ptpAnswers, h]

/-- The vault with an operation. -/
def keyOp (o : KeyOp) : State := { act with vault := { act.vault with op := some o } }

theorem witness_KeyOperations :
    let o (op type id : Nat) : KeyOp := ⟨op, 20, id, type, false, 1, 0, 1, 0, []⟩
    (keyOp (o 3 0 0)).vault.remaskPend = false ∧ ({ keyOp (o 3 0 0) with vault := { (keyOp (o 3 0 0)).vault with remaskPend := true } } : State).vault.remaskPend = true ∧ (keyed.keySlot 16).isSome = true ∧ keyed.vault.op = none ∧
    act.live = true ∧ act.serves .udp = true ∧ act.vault.op = none ∧ 16 ≤ 16 ∧ 63 ≤ 63 ∧ 15 < 16 ∧ 63 < 64 ∧ (keyOp (o 1 0 0)).vault.op.isSome = true ∧
    (∀ n : Fin 7, (keyOp (o n.val 1 0x100)).vault.op = some (o n.val 1 0x100) ∧ (o n.val 1 0x100).op = n.val) ∧ keyIdOk (o 1 1 0xFF).id = false ∧ keyIdOk (o 1 1 0x100).id = true ∧
    keyLen (o 1 1 0x100).type ≠ 0 ∧ (o 1 1 0x100).world ≠ 3 ∧ usageValid (o 1 1 0x100).type (o 1 1 0x100).usage = true ∧ act.vault.store.length < 4096 ∧
    (match unwrapBlob ((keyOp (o 2 1 0x100)).arrive 0) [] with | .error _ => true | .ok _ => false) = true ∧ (o 3 1 0x100).slot = ((20 : Fin 64)).val ∧
    (act.vault.store.any fun b => b.id == 0x100) = false ∧ (({ act with vault := { act.vault with store := [⟨0x100, false, []⟩] } } : State).vault.store.any fun b => b.id == 0x100) = true ∧
    sysGuard (open_.arrive 0) .udp = none ∧ 5 % 4 = 1 ∧ act.vault.remaskAt + 250000000 ≤ 250000000 ∧ 249999999 < act.vault.remaskAt + 250000000 ∧ act.vault.lc = .provision ∧ lcCondition act = false ∧ act.pwr.pfw = false ∧ 2 % 4 ≠ 1 ∧
    lcCondition { act with vault := { act.vault with store := [⟨0x100, true, List.replicate 8 0 ++ leBytes 4 (2 ^ 0 + 2 ^ 6)⟩] } } = true := by decide +kernel

theorem witness_UpdateDelivery :
    let b := memRange act.upd.chunkWin 0 4096
    act.live = true ∧ act.serves .udp = true ∧ (upd id).chunkRoom = true ∧ 4096 ≤ ({ act with mram := { act.mram with staging := 0 } } : State).spareFor 4 ∧
    ({ act with mram := { act.mram with staging := 0, spare := 0 } } : State).chunkRoom = false ∧
    (upd fun u => { u with chunkCrc := crc32c b + 1 }).upd.chunkCrc ≠ crc32c b ∧
    chunkError (upd fun u => { u with chunkCrc := crc32c b }) false 0 (crc32c b) b ≠ 0 ∧ chunkError (upd fun u => { u with chunkCrc := crc32c b }) false 1 (crc32c b) b = 0 := by
  intro b
  refine ⟨rfl, rfl, by decide +kernel, by decide +kernel, by decide +kernel, Nat.succ_ne_self _, ?_, ?_⟩
  · unfold chunkError
    rw [if_neg (by simp), if_neg (by decide +kernel), if_neg (by simp), if_pos (by decide +kernel)]
    decide +kernel
  · unfold chunkError
    rw [if_neg (by simp), if_neg (by decide +kernel), if_pos (by decide)]

theorem witness_UpdateDelivery_arming :
    (∀ x ∈ [AreaSt.empty, .staged, .armed], (upd fun u => { u with small := { u.small with st := x }, large := { u.large with st := x } }).upd.small.st = x) ∧ act.pwr.pfw = false ∧
    sysGuard (open_.arrive 0) .udp = none ∧ 4 % 4 = 0 ∧ (upd fun u => { u with large := { u.large with st := .staged } }).stagedReady = true ∧ act.stagedReady = false ∧
    5 % 4 = 1 ∧ 6 % 4 = 2 ∧ 7 % 4 = 3 ∧ act.rtc.valid = false ∧ act.pair.mode = .single ∧ (role .full .active id).pair.mode ≠ .single ∧ act.stagedType ≠ 2 ∧ (upd fun u => { u with trial := some 0 }).upd.trial = some 0 ∧
    0 + 10000000000 ≤ 10000000000 ∧ 9999999999 < 0 + 10000000000 ∧
    (let s := upd fun u => { u with mode := 1, schedS := 600, large := { u.large with st := .armed } }
     s.upd.mode = 1 ∧ s.upd.large.st = .armed ∧ s.upd.schedS ≤ (s.arrive 0).calSeconds + s.upd.leadS) ∧
    (let s := upd fun u => { u with schedS := 601 }
     (s.arrive 0).calSeconds + s.upd.leadS < s.upd.schedS) := by decide +kernel

theorem witness_Activations :
    let s (mode sched : Nat) := upd fun u => { u with mode := mode, schedS := sched, large := { u.large with st := .armed } }
    (s 1 0).live = true ∧ (s 1 0).upd.mode = 1 ∧ (s 1 0).upd.large.st = .armed ∧ (s 1 0).upd.schedS ≤ ((s 1 0).arrive 0).calSeconds ∧ 0 % 1000000 = 0 ∧ ((s 1 0).arrive 0).busyCode = 0 ∧
    ((s 1 5).arrive 0).calSeconds < (s 1 5).upd.schedS ∧ ((s 1 5).arrive 0).active = true ∧ 1 % 1000000 ≠ 0 ∧ (run.arrive 0).active = false ∧
    (let u := { s 1 0 with rtc := { act.rtc with base := 1801 * 32768 } }
     (u.upd.schedS + u.upd.waitS) * 32768 < (u.arrive 0).calUnits) ∧ ((s 1 0).arrive 0).calUnits ≤ ((s 1 0).upd.schedS + (s 1 0).upd.waitS) * 32768 ∧
    (s 2 0).upd.mode = 2 ∧ ((s 2 0).arrive 0).handoverReady = false ∧
    (({ s 2 0 with pair := { act.pair with partner := { act.pair.partner with role := some .standby, fit := true, heardAt := some 0, runUid := (s 2 0).upd.large.uid } } } : State).arrive 0).handoverReady = true ∧
    (s 2 0).upd.waitDue < 1 ∧ 0 ≤ (s 2 0).upd.waitDue ∧ act.upd.large.st ≠ .armed ∧
    (s 1 0).stagedType ≠ 1 ∧ (upd fun u => { u with large := { u.large with chunks := [(0, [0, 0, 0, 0, 0, 0, 1])] } }).stagedType = 1 := by decide +kernel

/-- A record on its way. -/
def ldgRec (snap : Option (Fin 4)) : LdgRec := ⟨0x0B02, 0, 0, 0, 0, [], snap, none⟩

/-- Partition 0 of the ledger changed. -/
def part (f : Partition → Partition) : State := { act with ldg := { act.ldg with parts := vupd act.ldg.parts 0 f } }

theorem witness_LedgerCommands :
    (part fun p => { p with queue := [ldgRec none] }).live = true ∧ (part fun p => { p with queue := [ldgRec none] }).ldg.parts[(0 : Fin 3)].queue = ldgRec none :: [] ∧
    snapDue (ldgRec none) = false ∧ snapDue (ldgRec (some 0)) = true ∧ recLen (ldgRec none) ≤ act.ledgerShare 0 ∧
    (let u (n : Nat) : State := { act with mram := { act.mram with ledgerSys := 0, spare := n } }
     ¬(recLen (ldgRec none) ≤ (u 0).ledgerShare 0 ∨ recLen (ldgRec none) ≤ (u 0).spareFor (ledgerPlace 0)) ∧ recLen (ldgRec none) ≤ (u 4096).spareFor (ledgerPlace 0)) ∧
    (∀ f : Bool, (part fun p => { p with full := f }).ldg.parts[(0 : Fin 3)].full = f) ∧ act.ldg.parts[(0 : Fin 3)].fill + recLen (ldgRec none) ≤ partSize 0 - 32 ∧
    partSize 0 - 32 < (part fun p => { p with fill := partSize 0 - 32 }).ldg.parts[(0 : Fin 3)].fill + recLen (ldgRec none) ∧ act.ldg.parts[(0 : Fin 3)].queue = [] ∧
    idleAfter (act.arrive 0) 0 ≠ none ∧ idleAfter (act.arrive (act.openNs + 1)) (act.openNs + 1) = none ∧ State.reset.running = false ∧ act.serves .udp = true ∧ act.lock.st ≠ .unlocked ∧
    open_.lock.st = .unlocked ∧ open_.lock.owner = .udp ∧ open_.ldg.parts[(0 : Fin 3)].seq = open_.ldg.clrUpto ∧ ({ open_ with ldg := { open_.ldg with clrUpto := 1 } } : State).ldg.parts[(0 : Fin 3)].seq ≠ 1 ∧
    open_.pwr.pfw = false ∧ act.saf.unlock.st ≠ .unlocked ∧ act.ldg.parts[(1 : Fin 3)].seq = act.ldg.clrUpto ∧
    ({ act with saf := { act.saf with unlock := { act.saf.unlock with st := .unlocked } } } : State).saf.unlock.st = .unlocked ∧ act.ldg.parts[(0 : Fin 3)].queue.length < 64 := by decide +kernel

/-! ## Where a statement rests on what the opaque cryptography answers

The forms whose hypotheses need a signature, a decryption or an unwrapping that holds: met where the opaque function answers so. -/

/-- The sections SCHEDULE, METERING and SIGNATURE of an image without stalls, bays and tiles, signed with key 0x100. -/
def secLanes : Bytes := (List.range 8).flatMap fun i => [byte i, 0, 0, 0] ++ List.replicate 256 0xFF
def secMeters : Bytes := (List.range 32).flatMap fun i => [byte i, byte (meterPin i).1, byte (meterPin i).2] ++ List.replicate 13 0
def secSig : Bytes := [2, 0, 0, 0] ++ leBytes 4 0x100 ++ List.replicate 120 0

/-- An entry of the section table. -/
def secRow (type size off : Nat) (b : Bytes) : Bytes := [byte type, 1] ++ leBytes 2 size ++ leBytes 4 off ++ leBytes 4 b.length ++ leBytes 4 (crc32 b)

/-- The header of that image before its CRC. -/
def imgHead : Bytes :=
  leBytes 4 0x59414C5A ++ [1, 0, 0, 0] ++ leBytes 4 3104 ++ [9, 0, 0x64, 0x4D] ++ List.replicate 16 1 ++ leBytes 4 10000 ++ leBytes 4 100000 ++ [1, 0, 5, 0] ++
  List.replicate 20 0 ++ leBytes 4 1 ++ leBytes 4 1 ++ leBytes 4 1000000 ++ [1, 0, 0, 0] ++ List.replicate 44 0

/-- The image. -/
def imgBytes : Bytes :=
  imgHead ++ leBytes 4 (crc32 imgHead) ++
  (secRow 1 8 0x180 [] ++ secRow 2 16 0x180 [] ++ secRow 3 32 0x180 [] ++ secRow 4 0 0x180 [] ++ secRow 5 260 0x180 secLanes ++ secRow 6 16 0x9A0 [] ++ secRow 7 16 0x9A0 [] ++
   secRow 8 16 0x9A0 secMeters ++ secRow 15 128 0xBA0 secSig) ++ List.replicate 112 0 ++ secLanes ++ secMeters ++ secSig

/-- A state with that image in slot 0 and the layout-signing key in the vault. -/
def signed : State :=
  { slot .checking (fun p => { p with slots := vupd p.slots 0 fun x => { x with mem := memOf 0 imgBytes, extent := 3104 } }) with
    vault := { act.vault with slots := vupd act.vault.slots 16 fun _ => some ⟨0x100, 6, 2 ^ 0, 4, 0, 7, true, [], 0⟩ } }

theorem witness_ProfileEnds_signature
    (h : ∀ key, Config.verifyP384 key (imgBytes.take (secEntry imgBytes 8).offset) (slice (secBytes imgBytes 8) 8 48) (slice (secBytes imgBytes 8) 56 48) = true) :
    checkSignature signed imgBytes = .ok () := by
  unfold checkSignature
  have e : ((signed.useKey (u32 (secBytes imgBytes 8) 4) .marketSup 0).1).isSome = true := by decide +kernel
  obtain ⟨k, hk⟩ := Option.isSome_iff_exists.1 e
  have f : (u8 (secBytes imgBytes 8) 0 ≠ 2 ∨ (!zeros (secBytes imgBytes 8) 1 3) = true ∨ (!zeros (secBytes imgBytes 8) 104 24) = true) = False := by
    simp only [eq_iff_iff, iff_false]; decide +kernel
  simp only [hk, h]
  show failIf (decide _) _ _ _ = _
  rw [decide_eq_false]
  · rfl
  · intro z
    rcases z with z | z | z | z
    · exact f ▸ .inl z
    · exact f ▸ .inr (.inl z)
    · exact f ▸ .inr (.inr z)
    · exact absurd z (by decide)


theorem crc32_lt (b : Bytes) : crc32 b < 2 ^ 32 := BitVec.isLt _

theorem le_leBytes (c : Nat) (h : c < 2 ^ 32) : leNat (leBytes 4 c) = c := by
  simp [leBytes, leNat, byte]; omega

theorem secEntry_lanes : (secEntry imgBytes 4).crc = crc32 secLanes := by
  rw [← le_leBytes _ (crc32_lt secLanes)]
  generalize h : crc32 secLanes = c
  unfold imgBytes secRow
  rw [h]
  rfl

theorem memOf_low : ∀ (b : Bytes) (x : Nat), ∀ c ∈ memOf x b, x ≤ c.1
  | [], _, _, h => absurd h (List.not_mem_nil)
  | v :: bs, x, c, h => by
    unfold memOf at h
    split at h
    · exact Nat.le_of_succ_le (memOf_low bs (x + 1) c h)
    · rcases List.mem_cons.1 h with rfl | h
      · exact Nat.le_refl _
      · exact Nat.le_of_succ_le (memOf_low bs (x + 1) c h)

theorem memRange_nil (x n : Nat) : memRange [] x n = List.replicate n 0 := by cases n <;> rfl

theorem memRange_memOf : ∀ (b : Bytes) (x : Nat), memRange (memOf x b) x b.length = b
  | [], _ => rfl
  | v :: bs, x => by
    have ih := memRange_memOf bs (x + 1)
    have lo := memOf_low bs (x + 1)
    unfold memOf
    split
    · rename_i hv
      revert ih lo
      cases memOf (x + 1) bs with
      | nil => intro ih _; rw [memRange_nil] at ih ⊢; rw [List.length_cons, List.replicate_succ, ih, hv]
      | cons c r =>
        intro ih lo
        have hc : x + 1 ≤ c.1 := lo c List.mem_cons_self
        rw [List.length_cons, memRange, List.dropWhile_cons_of_neg (by simp; omega)]
        simp only [if_neg (show ¬ c.1 = x by omega)]
        rw [ih, hv]
    · rw [List.length_cons, memRange, List.dropWhile_cons_of_neg (by simp)]
      simp only [if_true, ih]

/-- Whether a check passes. -/
def passes (c : Chk) : Bool := match c with | .ok _ => true | .error _ => false

theorem passes_ok {c : Chk} (h : passes c = true) : c = .ok () := by
  cases c with
  | ok u => rfl
  | error e => simp [passes] at h

theorem checkAll_ok {α : Type} (f : Nat → α → Chk) : ∀ (l : List α) (k : Nat), (∀ i (h : i < l.length), f (k + i) l[i] = .ok ()) → checkAll f k l = .ok ()
  | [], _, _ => rfl
  | x :: l, k, h => by
    have a := h 0 (Nat.zero_lt_succ _)
    rw [Nat.add_zero, List.getElem_cons_zero] at a
    rw [checkAll, a]
    exact checkAll_ok f l (k + 1) fun i hi => by
      have b := h (i + 1) (Nat.succ_lt_succ hi)
      rwa [List.getElem_cons_succ, Nat.add_comm i 1, ← Nat.add_assoc] at b

theorem imgBytes_crc (i : Nat) (h : i < 9) : secCrc imgBytes i = (secEntry imgBytes i).crc := by
  have l : secBytes imgBytes 4 = secLanes := by decide +kernel
  have o : ∀ j ∈ [0, 1, 2, 3, 5, 6, 7, 8], secCrc imgBytes j = (secEntry imgBytes j).crc := by decide +kernel
  by_cases q : i = 4
  · rw [q, secEntry_lanes, ← l]
    simp only [secCrc, if_neg (show ¬ (4 : Nat) = 8 by decide)]
  · exact o i (by simp only [List.mem_cons, List.not_mem_nil]; omega)

theorem imgBytes_crcs : checkCrcs imgBytes = .ok () :=
  checkAll_ok _ secTypes 0 fun i h => by
    have e := imgBytes_crc (0 + i) (by rw [Nat.zero_add]; exact h)
    simp only [e, ne_eq, not_true_eq_false, decide_false, failIf, Bool.false_eq_true, if_false]

theorem signed_image : slotImage signed.prof.slots[(0 : Fin 4)] = imgBytes := by
  have m : signed.prof.slots[(0 : Fin 4)].mem = memOf 0 imgBytes := rfl
  have n : max 0x180 (min (leNat (memRange (memOf 0 imgBytes) 8 4)) 1048576) = imgBytes.length := by decide +kernel
  rw [slotImage, m, n, memRange_memOf]

theorem then_ok (a b : Chk) (ha : a = .ok ()) (hb : b = .ok ()) : (a.then fun _ => b) = .ok () := by rw [ha, hb]; rfl

theorem signed_checks (h : checkSignature signed imgBytes = .ok ()) : checkImage signed true signed.prof.slots[(0 : Fin 4)].extent imgBytes = .ok () := by
  unfold checkImage
  refine then_ok _ _ (passes_ok (by decide +kernel)) (then_ok _ _ (passes_ok (by decide +kernel)) (then_ok _ _ imgBytes_crcs (then_ok _ _ h (passes_ok ?_))))
  decide +kernel

theorem checkSlot_ok (s : State) (u : Bool) (p : Fin 4) (b : Bytes) (e : slotImage s.prof.slots[p] = b) (c : checkImage s u s.prof.slots[p].extent b = .ok ()) :
    checkSlot s u p = .ok (parseImage b) := by
  subst e
  simp only [checkSlot, c]

theorem witness_ProfileEnds_valid
    (h : ∀ key, Config.verifyP384 key (imgBytes.take (secEntry imgBytes 8).offset) (slice (secBytes imgBytes 8) 8 48) (slice (secBytes imgBytes 8) 56 48) = true) :
    checkSlot signed true 0 = .ok (parseImage imgBytes) := checkSlot_ok _ _ _ _ signed_image (signed_checks (witness_ProfileEnds_signature h))

/-- A container of a TYPE with an empty payload, signed by key `signer` and encrypted or not. -/
def cont (type flags signer : Nat) : Bytes :=
  let h : Bytes := leBytes 4 0x48524A5A ++ [1, 0, byte type, byte flags] ++ List.replicate 4 0 ++ [1, 0, 0, 0] ++ List.replicate 16 9 ++ List.replicate 10 0 ++ [0x64, 0x4D] ++ List.replicate 8 0 ++
    [5, 0, 0, 0] ++ List.replicate 28 0 ++ sha384 [] ++ List.replicate 56 0
  h ++ leBytes 4 (crc32 h) ++ [2, 0, 0, 0] ++ leBytes 4 signer ++ List.replicate 120 0

/-- A module in DEPLOYED that holds a key for resetting the password, with a container staged in both areas. -/
def deployed (c : Bytes) : State :=
  { upd (fun u => { u with small := { u.small with st := .staged, total := 1, chunks := [(0, c)] }, large := { u.large with st := .activating, total := 1, chunks := [(0, c)] } }) with
    vault := { act.vault with lc := .deployed, slots := vupd act.vault.slots 16 fun _ => some ⟨0x100, 6, 2 ^ 5, 4, 0, 7, true, [], 0⟩ } }

theorem signCheck_ok (s : State) (c : Bytes) (a : ¬(contType c = 4 ∧ s.vault.lc = .provision ∧ s.vault.zeroised = false ∧ u8 (contSig c) 0 = 0))
    (b : ¬(u8 (contSig c) 0 ≠ 2 ∨ (!zeros (contSig c) 1 3) = true ∨ (!zeros (contSig c) 104 24) = true))
    (f : ((s.findKey (u32 (contSig c) 4)).1.any fun k => signerAllowed (s.findKey (u32 (contSig c) 4)).2 (contType c) k) = true)
    (h : ∀ key, Config.verifyP384 key (c.take (192 + contLen c)) (slice (contSig c) 8 48) (slice (contSig c) 56 48) = true) :
    ∃ k, signCheck s c = (0, some k, (s.findKey (u32 (contSig c) 4)).2) := by
  unfold signCheck
  rw [if_neg a, if_neg b]
  cases k : (s.findKey (u32 (contSig c) 4)).1 with
  | none => rw [k] at f; simp at f
  | some k' =>
    rw [k, Option.any_some] at f
    refine ⟨k', ?_⟩
    simp only [k, h, Bool.not_true, Bool.false_eq_true, if_false]
    rw [if_pos f]

theorem verify_ok (s : State) (small : Bool) (c plain : Bytes) (k : Option Key) (e x : State) (g : headerError s small c = 0) (h : signCheck s c = (0, k, e)) (p : contPlain e c = (some plain, x))
    (d : sha384 plain = slice c 84 48) : verify s small c = ⟨0, plain, k, x⟩ := by
  unfold verify
  rw [if_neg (fun q => q g), h]
  simp only [p, ne_eq, not_true_eq_false, if_false, d]

theorem contPlain_clear (s : State) (c : Bytes) (a : encRule s (contType c) = some false) (b : contFlag c 0 = false) : contPlain s c = (some (slice c 192 (contLen c)), s) := by
  simp only [contPlain, a, b, bne_self_eq_false, Bool.false_eq_true, if_false, Bool.not_false, if_true]

theorem contPlain_sealed (s : State) (c plain : Bytes) (k : Key) (x : State) (a : encRule s (contType c) = some true) (b : contFlag c 0 = true) (t : contType c ≠ 4)
    (q : decKey s c = (some k, x)) (g : Config.gcmOpen k.material (slice c 56 12) (c.take 56) (slice c 192 (contLen c)) (slice c 68 16) = some plain) : contPlain s c = (some plain, x) := by
  simp only [contPlain, a, b, q, g, t, bne_self_eq_false, Bool.false_eq_true, if_false, Bool.not_true, Option.bind_some]

/-- What the opaque signature check answers about a container. -/
def Verifies (c : Bytes) : Prop := ∀ key, Config.verifyP384 key (c.take (192 + contLen c)) (slice (contSig c) 8 48) (slice (contSig c) 56 48) = true

/-- A small container that is not encrypted verifies. -/
theorem verify_clear (s : State) (c : Bytes) (g : headerError s true c = 0) (a : ¬(contType c = 4 ∧ s.vault.lc = .provision ∧ s.vault.zeroised = false ∧ u8 (contSig c) 0 = 0))
    (b : ¬(u8 (contSig c) 0 ≠ 2 ∨ (!zeros (contSig c) 1 3) = true ∨ (!zeros (contSig c) 104 24) = true))
    (f : ((s.findKey (u32 (contSig c) 4)).1.any fun k => signerAllowed (s.findKey (u32 (contSig c) 4)).2 (contType c) k) = true) (h : Verifies c)
    (r : encRule (s.findKey (u32 (contSig c) 4)).2 (contType c) = some false) (q : contFlag c 0 = false) (d : sha384 (slice c 192 (contLen c)) = slice c 84 48) :
    (verify s true c).code = 0 ∧ (verify s true c).state.vault.lc = (s.findKey (u32 (contSig c) 4)).2.vault.lc := by
  obtain ⟨k, e⟩ := signCheck_ok s c a b f h
  rw [verify_ok s true c _ (some k) _ _ g e (contPlain_clear _ c r q) d]
  exact ⟨rfl, rfl⟩

theorem witness_UpdateDelivery_returned (h : Verifies (cont 6 0 3)) :
    let c := cont 6 0 3
    let s := (deployed c).arrive 0
    s.upd.small.st = .staged ∧ areaBytes s.upd.small = c ∧ contType c = 6 ∧ (verify s true c).code = 0 ∧ (verify s true c).state.vault.lc = .deployed := by
  intro c s
  have v := verify_clear s c (by decide +kernel) (by decide +kernel) (by decide +kernel) (by decide +kernel) h (by decide +kernel) (by decide +kernel) (by decide +kernel)
  exact ⟨by decide +kernel, by decide +kernel, by decide +kernel, v.1, v.2.trans (by decide +kernel)⟩

theorem witness_UpdateDelivery_password (h : Verifies (cont 5 0 0x100)) :
    let c := cont 5 0 0x100
    let s := (deployed c).arrive 0
    areaBytes s.upd.small = c ∧ contType c = 5 ∧ (verify s true c).code = 0 := by
  intro c s
  have v := verify_clear s c (by decide +kernel) (by decide +kernel) (by decide +kernel) (by decide +kernel) h (by decide +kernel) (by decide +kernel) (by decide +kernel)
  exact ⟨by decide +kernel, by decide +kernel, v.1⟩

theorem decKey_ok (s : State) (c : Bytes) (i : u32 c 52 = 5) (f : ((s.findKey 5).1.any fun k => keyUsable (s.findKey 5).2 k .marketSup 2) = true) :
    ∃ k, decKey s c = (some k, (s.findKey 5).2) := by
  unfold decKey
  rw [i]
  cases k : (s.findKey 5).1 with
  | none => rw [k] at f; simp at f
  | some k' =>
    rw [k, Option.any_some] at f
    refine ⟨k', ?_⟩
    simp only [k]
    rw [if_neg (fun q => q.2 rfl), if_pos (.inl f)]

theorem witness_MetrologyFirmware_verified (x : Bool) (h : Verifies (cont 2 1 7))
    (g : ∀ key, Config.gcmOpen key (slice (cont 2 1 7) 56 12) ((cont 2 1 7).take 56) (slice (cont 2 1 7) 192 (contLen (cont 2 1 7))) (slice (cont 2 1 7) 68 16) = some []) :
    let c := cont 2 1 7
    let s := { deployed c with fuses := { act.fuses with mb := x }, met := { act.met with sealSt := if x then .sealed else .blank } }
    s.live = true ∧ s.stagedType = 2 ∧ s.upd.large.st = .activating ∧ areaBytes s.upd.large = c ∧ (verify (s.arrive 0).writeCheckpoint false c).code = 0 ∧
    (s.fuses.mb && s.met.sealSt == .sealed && !contFlag c 2) = x := by
  intro c s
  cases x
  all_goals
    obtain ⟨k, e⟩ := signCheck_ok (s.arrive 0).writeCheckpoint c (by decide +kernel) (by decide +kernel) (by decide +kernel) h
    obtain ⟨d, q⟩ := decKey_ok ((s.arrive 0).writeCheckpoint.findKey (u32 (contSig c) 4)).2 c (by decide +kernel) (by decide +kernel)
    have p := contPlain_sealed _ c [] d _ (by decide +kernel) (by decide +kernel) (by decide +kernel) q (g _)
    have v := verify_ok (s.arrive 0).writeCheckpoint false c [] (some k) _ _ (by decide +kernel) e p (by decide +kernel)
    exact ⟨by decide +kernel, by decide +kernel, rfl, by decide +kernel, by rw [v], by decide +kernel⟩

/-- A module with DEVICE_ID 7. -/
def seven : State := { act with fuses := { act.fuses with deviceId := 7 } }

/-- A blob of a 32-byte key 0x100 of TYPE 1 of that module. -/
def blob : Bytes := leBytes 4 0x4C424B5A ++ [1, 1, 0, 0] ++ leBytes 4 (2 ^ 2) ++ [4, 0, 7, 0] ++ leBytes 4 0x100 ++ leBytes 8 7 ++ List.replicate 228 0

theorem unwrapBlob_ok (s : State) (b plain : Bytes) (e : blobError s b = none)
    (h : Config.gcmOpen s.dwk (slice b 0x1C 12) (blobAad b) (slice b 0x28 112) (slice b 0x98 16) = some plain) : unwrapBlob s b = .ok (blobKey s b plain) := by
  simp only [unwrapBlob, e, h]

theorem witness_KeyOperations_unwrap (plain : Bytes) (h : Config.gcmOpen (seven.arrive 0).dwk (slice blob 0x1C 12) (blobAad blob) (slice blob 0x28 112) (slice blob 0x98 16) = some plain) :
    ∃ k, unwrapBlob (seven.arrive 0) blob = .ok k ∧ keyIdOk k.id = true ∧ ((seven.arrive 0).placeKey k).isSome = true := by
  refine ⟨blobKey (seven.arrive 0) blob plain, unwrapBlob_ok _ _ _ (by decide +kernel) h, (by decide +kernel : keyIdOk (u32 blob 0x10) = true), ?_⟩
  · have f : ((fins 64).find? fun i => decide (16 ≤ i.val) && ((seven.arrive 0).vault.slots[i].map fun x => x.id) == some (u32 blob 0x10)) = none := by decide +kernel
    have l : (seven.arrive 0).freeSlot = some 16 := by decide +kernel
    unfold State.placeKey
    rw [show (blobKey (seven.arrive 0) blob plain).id = u32 blob 0x10 from rfl, f]
    simp only [State.loadKey, l]
    rfl

/-- A module whose loadable slots all hold keys that stay. -/
def fullVault : State :=
  { seven with vault := { seven.vault with slots := Vector.replicate 64 (some ⟨0x200, 1, 2 ^ 2, 4, 0, 7, true, [], 0⟩) } }

theorem witness_KeyOperations_noSlot (plain : Bytes) (h : Config.gcmOpen (fullVault.arrive 0).dwk (slice blob 0x1C 12) (blobAad blob) (slice blob 0x28 112) (slice blob 0x98 16) = some plain) :
    ∃ k, unwrapBlob (fullVault.arrive 0) blob = .ok k ∧ keyIdOk k.id = true ∧ (fullVault.arrive 0).placeKey k = none := by
  refine ⟨blobKey (fullVault.arrive 0) blob plain, unwrapBlob_ok _ _ _ (by decide +kernel) h, (by decide +kernel : keyIdOk (u32 blob 0x10) = true), ?_⟩
  · have f : ((fins 64).find? fun i => decide (16 ≤ i.val) && ((fullVault.arrive 0).vault.slots[i].map fun x => x.id) == some (u32 blob 0x10)) = none := by decide +kernel
    have l : (fullVault.arrive 0).freeSlot = none := by decide +kernel
    unfold State.placeKey
    rw [show (blobKey (fullVault.arrive 0) blob plain).id = u32 blob 0x10 from rfl, f]
    simp only [State.loadKey, l]
    rfl

/-! ## Statements about every step -/

theorem witness_EmptyQueueIdles : State.reset.pending = [] := rfl

theorem witness_CommandsStayInReach : ∃ u, exec (.clkClrCnt 0 .udp) act = .next u := ⟨_, rfl⟩

theorem witness_OutputFollowsRole : act.outputFollowsRole ∧ (role .full .claiming id).outputFollowsRole ∧ step act = .next act := by
  refine ⟨?_, ?_, rfl⟩ <;> (unfold State.outputFollowsRole; decide +kernel)

theorem witness_MemoriesStayCanonical : act.memsWf = true ∧ ∃ u, step { act with pending := [.mark 5 .udp] } = .next u := ⟨by decide +kernel, _, rfl⟩

theorem witness_MemoryLaws : Memory.wf [(3, 1), (4, 255)] = true ∧ Memory.wf [(3, 0)] = false ∧ Memory.wf [(4, 1), (3, 1)] = false := by decide +kernel

/-! ## Worked examples and one step -/

/-- The table after R122. -/
theorem test_extraction : ((preQ 0).mac 0x4000 3 0).q0 = ⟨2, 0⟩ ∧ ((preQ 0).mac 0x4000 5 0).q0 = ⟨2, 0⟩ ∧ ((preQ 0).mac 0x7000 0x3000 2).q0 = ⟨32767, 1⟩ := by decide

/-- The example after R414. -/
theorem test_resume : resumeTime ⟨41736520118004256, 1368342528, 0⟩ 1486342531 = 41740121193314558 := by decide

/-- The matrix of the example of chapter 12: 500 kbit/s with 2 Mbit/s data. -/
theorem test_frame_times (c : Channel) (h : (c.nomRate, c.dataRate) = (2, 2)) :
    c.frameNs false true true 8 = 127000 ∧ c.frameNs false true true 12 = 147000 ∧ c.frameNs false true true 32 = 247000 ∧ c.frameNs false true true 64 = 407000 := by
  unfold Channel.frameNs
  rw [(Prod.mk.inj h).1, (Prod.mk.inj h).2]
  decide

/-- The check values of R36 and R75. -/
theorem test_crc : crc32 [0x31, 0x32, 0x33, 0x34, 0x35, 0x36, 0x37, 0x38, 0x39] = 0xCBF43926 ∧ crc32c [0x31, 0x32, 0x33, 0x34, 0x35, 0x36, 0x37, 0x38, 0x39] = 0xE3069283 := by decide +kernel

/-- The poll of the example of chapter 13. -/
theorem test_poll : (parseRequest spiOrigin [1, 1, 0x2A, 7, 0, 0, 0xA0, 0, 0x10, 0, 0, 0, 0, 0, 0, 0]).map (fun q => (q.op, q.tag, q.addr, q.count)) = some (1, 0x072A, 0x00A00000, 16) := by decide

/-- A command waiting is taken and run; the queue's rest stays. -/
theorem test_step : (match step { act with pending := [.clkClrCnt 5 .udp, .remask 6] } with | .next u => decide (u.mt = 5 ∧ u.pending = [.remask 6] ∧ u.clk.refLoss = 0) | _ => false) = true := by decide +kernel

end Sys2Proof.Tests
end

section
/-! PROOFS. The timed steps of cells and stalls (R158, R159, R170, R172, R174), and the write of SHED_HI that R161 refuses. -/
namespace Sys2Proof.Machine

/-! ## A stall and its cells after a timed step -/

/-- A link that goes to SLEEP leaves the state and the assignment of its stall alone. -/
theorem State.trySleep_st_bay (s : State) (n : Fin 64) :
    (s.trySleep n).stalls[n].st = s.stalls[n].st ∧ (s.trySleep n).stalls[n].bay = s.stalls[n].bay := by
  unfold State.trySleep
  split
  · simp [-Fin.getElem_fin, State.linkSleep, noCoast]
  · exact ⟨rfl, rfl⟩

theorem State.requestStop_first {s : State} {n : Fin 64} (h : s.stalls[n].stopReq = none) (c : Nat) :
    (s.requestStop n c).stalls[n] = { s.stalls[n] with stopReq := some c } := by
  unfold State.requestStop
  rw [State.setStall_self, h]

theorem cellRampEnd_ends {s : State} {t : Nat} {n : Fin 64} {c : Fin 8} (hl : s.live = true) (hd : cellDone s.stalls[n].cells[c] = true) :
    Completes (.cellRampEnd t n c) s fun u => u.stalls[n].cells[c] = cellEnd s.stalls[n].cells[c] := by
  refine Completes.live hl rfl ?_
  rw [State.arrive_stalls, if_pos hd, State.moveRampDone_cells, State.gateWhenOut_cells, State.bump_stalls, State.setCell_self, vupd_self,
    State.arrive_stalls]

theorem shedDecision_sheds {s : State} {t : Nat} {b : Fin 12} {r : CellRec} {k : Fin 64} {c : Fin 8} (hl : s.live = true)
    (he : s.stl.shedEn.testBit b.val = true) (hh : s.stl.shedHold ≤ s.mkt.lightTicks[b]) (hm : s.bayCellsMoving b = false)
    (hp : pickShed (shedCandidates s b) = some (r, k, c)) :
    Completes (.shedDecision t b) s fun u =>
      u.stalls[k].cells[c] = cellFall .shedding (8 * s.stl.shedRamp) s.stalls[k].cells[c] ∧ u.mkt.lightTicks[b] = 0 := by
  refine Completes.live hl rfl ?_
  have hm' : (s.arrive t).bayCellsMoving b = false := hm
  have hp' : pickShed (shedCandidates (s.arrive t) b) = some (r, k, c) := hp
  simp [-Fin.getElem_fin, he, hh, hm', hp', State.shedLen]

theorem rearmLimit_asks_stop {s : State} {t : Nat} {n : Fin 64} (hl : s.live = true) (hi : s.stalls[n].st = .idle)
    (ht : s.stalls[n].link.tripped = true) (hr : 100 ≤ s.stalls[n].rearmTicks) (hq : s.stalls[n].stopReq = none) :
    Completes (.rearmLimit t n) s fun u => u.stalls[n] = { s.stalls[n] with stopReq := some 5 } := by
  refine Completes.live hl rfl ?_
  rw [State.arrive_stalls, if_pos (by simp [-Fin.getElem_fin, hi, ht, hr])]
  exact State.requestStop_first (s := s.arrive t) hq 5

theorem stopOpenTimeout_locks {s : State} {t d : Nat} {n : Fin 64} (hl : s.live = true) (ho : s.stalls[n].openDue = some d)
    (hs : s.stalls[n].st = .stopping) (hd : d < t) :
    Completes (.stopOpenTimeout t n) s fun u =>
      u.stalls[n].st = .locked ∧ u.stalls[n].cause = 9 ∧ u.stalls[n].bay = none ∧ u.stalls[n].matrix = none ∧ u.stalls[n].gatedOut = true := by
  refine Completes.live hl rfl ?_
  simp [-Fin.getElem_fin, ho, hs, is_expired hd, noCoast, Stall.place]

/-- Below the restart limit a sound stall goes back to IDLE. -/
theorem restElapsed_idles {s : State} {t : Nat} {n : Fin 64} (hl : s.live = true) (hs : s.stalls[n].st = .stopped)
    (hm : mayRestart t s.stalls[n] = true) (hc : (liveStamps (s.arrive t) s.stalls[n]).length < s.stl.restartMax) :
    Completes (.restElapsed t n) s fun u => u.stalls[n].st = .idle ∧ u.stalls[n].bay = none := by
  refine Completes.live hl rfl ?_
  simp [-Fin.getElem_fin, hs, hm, Nat.not_le.mpr hc, State.trySleep_st_bay, Stall.place]

/-- At the restart limit it is LOCKED and keeps its cause (R174). -/
theorem restElapsed_locks {s : State} {t : Nat} {n : Fin 64} (hl : s.live = true) (hs : s.stalls[n].st = .stopped)
    (hm : mayRestart t s.stalls[n] = true) (hc : s.stl.restartMax ≤ (liveStamps (s.arrive t) s.stalls[n]).length) :
    Completes (.restElapsed t n) s fun u => u.stalls[n].st = .locked ∧ u.stalls[n].cause = s.stalls[n].cause := by
  refine Completes.live hl rfl ?_
  simp [-Fin.getElem_fin, hs, hm, hc, noCoast]

/-! ## The write of the shed thresholds -/

/-- A refusal that is no violation leaves nothing but itself (R404). -/
theorem State.answered_harmless (s : State) (m : Master) (w : Bool) (addr : Nat) {a : Answer} (h : isViolation a = false) :
    s.answered m w addr a = { s with host := { s.host with answer := a } } := by simp [State.answered, h]

/-- The write of a mapped word of the application map that is not read only, by a master the map serves. -/
theorem State.writeWord_mapped {s : State} {m : Master} {a v : Nat} (hm : (mapPeek s m a).isSome = true) (hs : s.serves m = true)
    (hp : privateAddr a = false) (hr : readOnlyWindow a = false) : s.writeWord m a v = s.writeMapped m a v := by
  obtain ⟨w, hw⟩ := Option.isSome_iff_exists.mp hm
  simp [State.writeWord, hp, hw, foreign_none hs, hr]

/-- A register effect that its own check refuses changes nothing. -/
theorem State.applyEffect_refused (s : State) (a v : Nat) (r : Answer) (f : State → State) : s.applyEffect a v (some r, f) = (s, r) := rfl

/-- A word out of its register's range is refused with detail RANGE. -/
theorem inRange_false (f : State → State) : inRange false f = (some (deny .range), f) := rfl

/-- STL.SHED with SHED_HI in bits 15 to 8 below 2 × SHED_LO in bits 7 to 0 (R161, R176). -/
theorem State.writeMapped_shed_refused (s : State) (m : Master) {v : Nat} (h : v / 256 % 256 < 2 * (v % 256)) :
    s.writeMapped m 0x00240108 v = (s, deny .range) := by
  have hi : bits v 8 8 = v / 256 % 256 := by simp [bits, Nat.shiftRight_eq_div_pow]
  have lo : bits v 0 8 = v % 256 := by simp [bits]
  have bad : ¬(1 ≤ bits v 24 8 ∧ 1 ≤ bits v 16 8 ∧ bits v 8 8 ≤ 100 ∧ 2 * bits v 0 8 ≤ bits v 8 8 ∧ 1 ≤ bits v 0 8 ∧ bits v 0 8 ≤ 50) := by
    rw [hi, lo]; omega
  simp [State.writeMapped, lowEffect, stlCommonWrite, bad, inRange_false, State.applyEffect_refused]

theorem registerWrite_shed_refused {s : State} {t : Nat} {m : Master} {v : Word} (hl : s.live = true) (hs : s.serves m = true)
    (h : v.toNat / 256 % 256 < 2 * (v.toNat % 256)) :
    exec (.registerWrite t m 0x00240108 v) s = .next { s.arrive t with host := { s.host with answer := deny .range } } := by
  have hw : (s.arrive t).writeWord m 0x00240108 v.toNat = (s.arrive t, deny .range) := by
    have mapped : (mapPeek (s.arrive t) m 0x00240108).isSome = true := by simp [mapPeek, lowPeek, stlCommonRead]
    rw [State.writeWord_mapped mapped hs rfl rfl, State.writeMapped_shed_refused _ _ h]
  rw [exec_live hl rfl, hw, State.answered_harmless _ _ _ _ rfl, State.arrive_host]

/-- Settles O14: each timed step by what it writes in its stall, the write of SHED_HI by the range of STL.SHED. -/
theorem stallTimers : Obligations.StallTimers := by
  unfold Obligations.StallTimers
  intro s t n hl
  exact ⟨fun _ hd => cellRampEnd_ends hl hd, fun _ _ _ _ he hh hm hp => shedDecision_sheds hl he hh hm hp, rearmLimit_asks_stop hl,
    fun _ => stopOpenTimeout_locks hl, restElapsed_idles hl, restElapsed_locks hl, fun _ _ => registerWrite_shed_refused hl⟩

end Sys2Proof.Machine
end

section
/-! PROOFS. The receipt store and the tallies as a master sees them (R206, R285, R286, R291, R292, R295). -/
namespace Sys2Proof.Machine

/-! ## The receipt store (R206, R291, R292) -/

theorem State.metRoom_iff {s : State} {n : Nat} : s.metRoom n = true ↔ n ≤ s.mram.metro + s.mram.spare := by simp [State.metRoom]

/-- Where the store and the tick's MRAM have room, the oldest queued receipt becomes the head of the store, and SUM7 counts it. -/
theorem receiptDrain_stores {s : State} {t : Nat} {r : Receipt} {rest : List Receipt} (hl : s.live = true) (hq : s.met.queue = r :: rest)
    (hs : s.met.store.length < 15123) (hm : receiptLen ≤ s.mram.metro + s.mram.spare) :
    Completes (.receiptDrain t) s fun u => u.met = { s.met with queue := rest, store := s.met.store ++ [r], head := r.seq } ∧
      u.host.sum[(7 : Fin 16)] = (s.host.sum[(7 : Fin 16)] + 1) % 2 ^ 32 := by
  have room : (s.arrive t).metRoom receiptLen = true := State.metRoom_iff.mpr hm
  refine Completes.running hl rfl (u := (((s.arrive t).chargeMet receiptLen).storeReceipt r rest).bump 7) ?_ ⟨rfl, ?_⟩
  · simp [hq, hs, room]
  · rw [State.bump_sum, vupd_self]; rfl

/-- Without room in either, the receipt waits in the queue. -/
theorem receiptDrain_waits {s : State} {t : Nat} {r : Receipt} {rest : List Receipt} (hl : s.live = true) (hq : s.met.queue = r :: rest)
    (h : 15123 ≤ s.met.store.length ∨ s.mram.metro + s.mram.spare < receiptLen) : exec (.receiptDrain t) s = .next (s.arrive t) := by
  have full : ¬(s.met.store.length < 15123 ∧ (s.arrive t).metRoom receiptLen = true) := by
    rw [State.metRoom_iff, State.arrive_mram]; omega
  rw [exec_live hl rfl]
  simp [hq, full]

/-! ## The release of receipts (R291) -/

/-- A register effect whose check passes. -/
theorem inRange_true (f : State → State) : inRange true f = (none, f) := rfl

theorem rcptAck_releases {s : State} {t : Nat} {m : Master} {seq : Word} (hl : s.live = true) (hs : s.serves m = true)
    (h : seq.toNat ≤ s.met.head) :
    Completes (.rcptAck t m seq) s fun u =>
      u.met = { s.met with store := s.met.store.filter fun r => decide (seq.toNat < r.seq) } ∧ u.host.answer = okAnswer := by
  refine Completes.live hl rfl ?_
  rw [foreign_none (s := s.arrive t) hs, firstOf_none, ackEffect, State.arrive_met, decide_eq_true h, inRange_true, State.command_none]
  exact ⟨rfl, rfl⟩

/-- A SEQ that no stored receipt has reached is out of range. -/
theorem rcptAck_refused {s : State} {t : Nat} {m : Master} {seq : Word} (hl : s.live = true) (hs : s.serves m = true)
    (h : s.met.head < seq.toNat) :
    Completes (.rcptAck t m seq) s fun u => u.met = s.met ∧ u.host.answer = deny .range := by
  refine Completes.live hl rfl ?_
  rw [foreign_none (s := s.arrive t) hs, firstOf_none, ackEffect, State.arrive_met, decide_eq_false (Nat.not_le.mpr h), inRange_false,
    State.command_some, State.answered_met, State.answered_answer]
  exact ⟨rfl, rfl⟩

/-! ## The reads of a tally (R285, R286) -/

@[simp] theorem State.arrive_shownTally (s : State) (t : Nat) (k : Fin 32) : (s.arrive t).shownTally k = s.shownTally k := rfl

@[simp] theorem portLatch_arrive (s : State) (t : Nat) (m : Master) : portLatch (s.arrive t) m = portLatch s m := by cases m <;> rfl

@[simp] theorem State.giveData_data (s : State) (m : Master) (addr : Nat) (a : Answer) (ws : List Nat) :
    (s.giveData m addr a ws).host.data = ws.map word := State.answered_host_data ..

@[simp] theorem State.giveData_answer (s : State) (m : Master) (addr : Nat) (a : Answer) (ws : List Nat) :
    (s.giveData m addr a ws).host.answer = a := State.answered_answer ..

/-- The low word is given, and the high word of the same published value is latched for the master's port alone. -/
theorem tallyLowRead_latches {s : State} {t : Nat} {m : Master} {k : Fin 32} (hl : s.live = true) (hs : s.serves m = true) :
    Completes (.tallyLowRead t m k) s fun u =>
      u.host.data = [word (s.shownTally k % 2 ^ 32)] ∧ u.host.answer = okAnswer ∧
      (m = .udp → u.host.latchUdp.tally = some (k.val, s.shownTally k / 2 ^ 32) ∧ u.host.latchSpi = s.host.latchSpi) ∧
      (m = .spi → u.host.latchSpi.tally = some (k.val, s.shownTally k / 2 ^ 32) ∧ u.host.latchUdp = s.host.latchUdp) := by
  refine Completes.live hl rfl ?_
  simp only [foreign_none (s := s.arrive t) hs]
  refine ⟨State.giveData_data .., State.giveData_answer .., ?_, ?_⟩
  · rintro rfl
    exact ⟨rfl, rfl⟩
  · rintro rfl
    exact ⟨rfl, rfl⟩

/-- A latch tagged with the tally gives its word. -/
theorem State.readTallyHigh_latched {s : State} {m : Master} {k : Fin 32} {l : PortLatch} {z : Nat} (hp : portLatch s m = some l)
    (hz : l.tally = some (k.val, z)) : s.readTallyHigh m k = (z, okAnswer) := by
  simp [State.readTallyHigh, hp, hz]

/-- A latch that is empty or tagged with another tally leaves the present high word, STALE. -/
theorem State.readTallyHigh_stale {s : State} {m : Master} {k : Fin 32} {l : PortLatch} (hp : portLatch s m = some l)
    (hz : ∀ z, l.tally ≠ some (k.val, z)) : s.readTallyHigh m k = (s.shownTally k / 2 ^ 32, ⟨.stale, .none⟩) := by
  unfold State.readTallyHigh
  rw [hp, Option.bind_some]
  cases hl : l.tally with
  | none => rfl
  | some x =>
    obtain ⟨j, v⟩ := x
    have other : j ≠ k.val := fun e => hz v (by rw [hl, e])
    exact if_neg other

/-- The high word is given with the answer that `readTallyHigh` finds for it. -/
theorem tallyHighRead_gives {s : State} {t : Nat} {m : Master} {k : Fin 32} {z : Nat} {a : Answer} (hl : s.live = true) (hs : s.serves m = true)
    (h : s.readTallyHigh m k = (z, a)) : Completes (.tallyHighRead t m k) s fun u => u.host.data = [word z] ∧ u.host.answer = a := by
  have found : (s.arrive t).readTallyHigh m k = (z, a) := by
    rw [← h]; simp only [State.readTallyHigh, portLatch_arrive, State.arrive_shownTally]
  refine Completes.live hl rfl ?_
  simp only [foreign_none (s := s.arrive t) hs, found]
  exact ⟨State.giveData_data .., State.giveData_answer ..⟩

/-- Settles O30: the drain by the room of store and MRAM, the release by MET.RCPT_HEAD, the high word of a tally by the latch of the port. -/
theorem receiptsAndTallies : Obligations.ReceiptsAndTallies := by
  unfold Obligations.ReceiptsAndTallies
  intro s t hl
  refine ⟨fun _ _ hq => ⟨receiptDrain_stores hl hq, receiptDrain_waits hl hq⟩, fun m hs => ⟨fun _ => ⟨?_, ?_⟩, fun k => ⟨?_, fun l hp => ⟨?_, ?_⟩⟩⟩⟩
  · exact rcptAck_releases hl hs
  · exact rcptAck_refused hl hs
  · exact tallyLowRead_latches hl hs
  · exact fun _ hz => tallyHighRead_gives hl hs (State.readTallyHigh_latched hp hz)
  · exact fun hz => tallyHighRead_gives hl hs (State.readTallyHigh_stale hp hz)

end Sys2Proof.Machine
end

section
/-! PROOFS. The step and the reach of every command (R13, the index of commands in chapter 95), and the sparse memories. -/
namespace Sys2Proof.Machine

/-! ## The step -/

/-- Settles O1: the step reads the front of the queue and nothing else of the state. -/
theorem stepRunsFront : Obligations.StepRunsFront := by
  unfold Obligations.StepRunsFront
  intro c rest s
  rfl

/-- Settles O2. -/
theorem emptyQueueIdles : Obligations.EmptyQueueIdles := by
  unfold Obligations.EmptyQueueIdles
  intro s h
  rw [step, h]

/-- Settles O3, by evaluation of the state after power-on. -/
theorem resetValues : Obligations.ResetValues := by
  unfold Obligations.ResetValues
  decide +kernel

/-- Settles O4: INIT with ACTIVE_O released, and memories that list nothing. -/
theorem invariantsAtReset : Obligations.InvariantsAtReset := by
  unfold Obligations.InvariantsAtReset
  exact ⟨iff_of_false Bool.false_ne_true (by decide), reset_memsWf⟩

/-! ## The reach of every command -/

/-- Every command answers a next state, which differs from the present one in the command's reach only: the frame lemmas of the
meanings, one for each command. -/
theorem exec_reaches (c : Instr) (s : State) : ∃ u, exec c s = .next u ∧ OnlyIn (reach c) s u := by
  cases c with
  | tickStart => exact ⟨_, rfl, doTickStart_only rfl rfl rfl rfl rfl rfl rfl rfl rfl (fun _ => rfl) (fun _ => rfl) (fun _ => rfl) (fun _ => rfl)
      (fun _ => rfl) rfl rfl rfl rfl rfl rfl rfl rfl rfl rfl rfl (OnlyIn.refl _ s)⟩
  | clearingCommit => exact ⟨_, rfl, doClearingCommit_only rfl rfl rfl rfl rfl (fun _ => rfl) (fun _ => rfl) (fun _ => rfl) (fun _ => rfl) (fun _ =>
      rfl) rfl rfl rfl rfl rfl rfl (OnlyIn.refl _ s)⟩
  | pitchBoundary => exact ⟨_, rfl, doPitchBoundary_only rfl rfl rfl (fun _ => rfl) rfl (OnlyIn.refl _ s)⟩
  | computeWindowOpen => exact ⟨_, rfl, doComputeWindowOpen_only rfl rfl rfl rfl rfl (fun _ => rfl) (fun _ => rfl) (fun _ => rfl) (fun _ => rfl)
      (fun _ => rfl) rfl rfl rfl rfl rfl rfl (OnlyIn.refl _ s)⟩
  | computeDeadline => exact ⟨_, rfl, doComputeDeadline_only rfl rfl rfl rfl rfl rfl rfl rfl rfl rfl rfl rfl rfl rfl rfl (fun _ => rfl) (fun _ =>
      rfl) (fun _ => rfl) (fun _ => rfl) (fun _ => rfl) (fun _ => rfl) rfl rfl rfl rfl rfl rfl rfl rfl rfl rfl rfl rfl rfl (OnlyIn.refl _ s)⟩
  | profileWindowWrite => exact ⟨_, rfl, doProfileWindowWrite_only rfl rfl rfl rfl rfl rfl rfl rfl (OnlyIn.refl _ s)⟩
  | check => exact ⟨_, rfl, doCheck_only rfl rfl rfl rfl rfl rfl rfl rfl rfl (OnlyIn.refl _ s)⟩
  | activate => exact ⟨_, rfl, doActivate_only rfl rfl rfl rfl rfl rfl rfl rfl rfl (OnlyIn.refl _ s)⟩
  | erase => exact ⟨_, rfl, doErase_only rfl rfl rfl rfl rfl rfl rfl rfl rfl (OnlyIn.refl _ s)⟩
  | cancel => exact ⟨_, rfl, doCancel_only rfl rfl rfl rfl rfl rfl rfl rfl rfl (OnlyIn.refl _ s)⟩
  | checkComplete => exact ⟨_, rfl, doCheckComplete_only rfl rfl rfl rfl rfl rfl rfl rfl rfl (OnlyIn.refl _ s)⟩
  | checkTimeout => exact ⟨_, rfl, doCheckTimeout_only rfl rfl rfl rfl rfl (OnlyIn.refl _ s)⟩
  | pendingTimeout => exact ⟨_, rfl, doPendingTimeout_only rfl rfl rfl rfl rfl (OnlyIn.refl _ s)⟩
  | profileSwitch => exact ⟨_, rfl, doProfileSwitch_only rfl rfl rfl rfl rfl rfl rfl rfl (fun _ => rfl) (fun _ => rfl) (fun _ => rfl) (fun _ => rfl)
      rfl rfl rfl rfl rfl rfl rfl rfl (OnlyIn.refl _ s)⟩
  | uplinkPitchFrame => exact ⟨_, rfl, doUplinkPitchFrame_only rfl rfl rfl rfl rfl (fun _ => rfl) (by simp [reach, within]) (fun _ => rfl) (fun _ =>
      rfl) rfl rfl rfl rfl (OnlyIn.refl _ s)⟩
  | trainingReply => exact ⟨_, rfl, doTrainingReply_only rfl rfl rfl rfl rfl (by simp [reach, within]) (fun _ => rfl) rfl (OnlyIn.refl _ s)⟩
  | captureFrame => exact ⟨_, rfl, doCaptureFrame_only rfl rfl (by simp [reach, within]) (OnlyIn.refl _ s)⟩
  | sampleLost => exact ⟨_, rfl, doSampleLost_only rfl rfl rfl (by simp [reach, within]) (by simp [reach, within]) (by simp [reach, within]) rfl
      (OnlyIn.refl _ s)⟩
  | coastExhausted => exact ⟨_, rfl, doCoastExhausted_only rfl rfl rfl (by simp [reach, within]) rfl rfl (OnlyIn.refl _ s)⟩
  | linkAligned => exact ⟨_, rfl, doLinkAligned_only rfl rfl rfl (by simp [reach, within]) (OnlyIn.refl _ s)⟩
  | alignTimeout => exact ⟨_, rfl, doAlignTimeout_only rfl rfl rfl (by simp [reach, within]) rfl (OnlyIn.refl _ s)⟩
  | trainTimeout => exact ⟨_, rfl, doTrainTimeout_only rfl rfl rfl (by simp [reach, within]) rfl (OnlyIn.refl _ s)⟩
  | linkDownCode => exact ⟨_, rfl, doLinkDownCode_only rfl rfl (by simp [reach, within]) (by simp [reach, within]) (OnlyIn.refl _ s)⟩
  | linkDownSilent => exact ⟨_, rfl, doLinkDownSilent_only rfl rfl (by simp [reach, within]) (by simp [reach, within]) (OnlyIn.refl _ s)⟩
  | linkFaultRetry => exact ⟨_, rfl, doLinkFaultRetry_only rfl rfl (by simp [reach, within]) (OnlyIn.refl _ s)⟩
  | retrain => exact ⟨_, rfl, doRetrain_only rfl rfl rfl rfl rfl (by simp [reach, within]) rfl (OnlyIn.refl _ s)⟩
  | sleepReq => exact ⟨_, rfl, doSleepReq_only rfl rfl rfl rfl rfl (by simp [reach, within]) (by simp [reach, within]) rfl (OnlyIn.refl _ s)⟩
  | capEn => exact ⟨_, rfl, doCapEn_only rfl rfl rfl rfl rfl (by simp [reach, within]) rfl (OnlyIn.refl _ s)⟩
  | capTrig => exact ⟨_, rfl, doCapTrig_only rfl rfl rfl rfl rfl rfl (OnlyIn.refl _ s)⟩
  | capArm => exact ⟨_, rfl, doCapArm_only rfl rfl rfl rfl rfl rfl (OnlyIn.refl _ s)⟩
  | stlClrCnt => exact ⟨_, rfl, doStlClrCnt_only rfl rfl rfl rfl rfl (by simp [reach, within]) rfl (OnlyIn.refl _ s)⟩
  | clrFb => exact ⟨_, rfl, doClrFb_only rfl rfl rfl rfl rfl (by simp [reach, within]) rfl (OnlyIn.refl _ s)⟩
  | stallRelease => exact ⟨_, rfl, doStallRelease_only rfl rfl rfl rfl rfl (by simp [reach, within]) rfl (OnlyIn.refl _ s)⟩
  | cellRampEnd => exact ⟨_, rfl, doCellRampEnd_only rfl rfl (by simp [reach, within]) rfl (OnlyIn.refl _ s)⟩
  | shedDecision => exact ⟨_, rfl, doShedDecision_only rfl rfl (fun _ => rfl) rfl (OnlyIn.refl _ s)⟩
  | rearmLimit => exact ⟨_, rfl, doRearmLimit_only rfl (by simp [reach, within]) (OnlyIn.refl _ s)⟩
  | stopOpenTimeout => exact ⟨_, rfl, doStopOpenTimeout_only rfl rfl rfl (by simp [reach, within]) rfl (OnlyIn.refl _ s)⟩
  | restElapsed => exact ⟨_, rfl, doRestElapsed_only rfl rfl rfl (by simp [reach, within]) (by simp [reach, within]) rfl (OnlyIn.refl _ s)⟩
  | moveCloseTimeout => exact ⟨_, rfl, doMoveCloseTimeout_only rfl rfl rfl (fun _ => rfl) rfl rfl (OnlyIn.refl _ s)⟩
  | moveOpenTimeout => exact ⟨_, rfl, doMoveOpenTimeout_only rfl rfl rfl (fun _ => rfl) rfl rfl (OnlyIn.refl _ s)⟩
  | policyWrite => exact ⟨_, rfl, doPolicyWrite_only rfl rfl rfl rfl rfl rfl rfl (OnlyIn.refl _ s)⟩
  | policyCommit => exact ⟨_, rfl, doPolicyCommit_only rfl rfl rfl rfl rfl rfl rfl rfl (OnlyIn.refl _ s)⟩
  | policyDiscard => exact ⟨_, rfl, doPolicyDiscard_only rfl rfl rfl rfl rfl rfl rfl (OnlyIn.refl _ s)⟩
  | mktClrCnt => exact ⟨_, rfl, doMktClrCnt_only rfl rfl rfl rfl rfl rfl rfl (OnlyIn.refl _ s)⟩
  | ceIdSample => exact ⟨_, rfl, doCeIdSample_only rfl rfl rfl rfl (fun _ => rfl) (fun _ => rfl) (fun _ => rfl) rfl rfl rfl (OnlyIn.refl _ s)⟩
  | sdpRequest => exact ⟨_, rfl, doSdpRequest_only rfl rfl rfl rfl rfl rfl (fun _ => rfl) (by simp [reach, within]) (by simp [reach, within]) rfl
      rfl rfl rfl rfl (OnlyIn.refl _ s)⟩
  | sessionSetupReq => exact ⟨_, rfl, doSessionSetupReq_only rfl rfl rfl rfl rfl rfl (fun _ => rfl) (by simp [reach, within]) (by simp [reach,
      within]) rfl rfl rfl rfl rfl (OnlyIn.refl _ s)⟩
  | authorizationReq => exact ⟨_, rfl, doAuthorizationReq_only rfl rfl rfl rfl rfl rfl (fun _ => rfl) (by simp [reach, within]) (by simp [reach,
      within]) rfl rfl rfl rfl rfl (OnlyIn.refl _ s)⟩
  | parameterReq => exact ⟨_, rfl, doParameterReq_only rfl rfl rfl rfl rfl rfl (fun _ => rfl) (by simp [reach, within]) (by simp [reach, within])
      rfl rfl rfl rfl rfl (OnlyIn.refl _ s)⟩
  | dcCableCheckReq => exact ⟨_, rfl, doDcCableCheckReq_only rfl rfl rfl rfl rfl rfl (fun _ => rfl) (by simp [reach, within]) (by simp [reach,
      within]) rfl rfl rfl rfl rfl (OnlyIn.refl _ s)⟩
  | dcPreChargeReq => exact ⟨_, rfl, doDcPreChargeReq_only rfl rfl rfl rfl rfl rfl (fun _ => rfl) (by simp [reach, within]) (by simp [reach,
      within]) rfl rfl rfl rfl rfl (OnlyIn.refl _ s)⟩
  | powerDeliveryReq => exact ⟨_, rfl, doPowerDeliveryReq_only rfl rfl rfl rfl rfl rfl (fun _ => rfl) (by simp [reach, within]) (by simp [reach,
      within]) rfl rfl rfl rfl rfl (OnlyIn.refl _ s)⟩
  | chargeLoopReq => exact ⟨_, rfl, doChargeLoopReq_only rfl rfl rfl rfl rfl rfl (fun _ => rfl) (by simp [reach, within]) (by simp [reach, within])
      rfl rfl rfl rfl rfl (OnlyIn.refl _ s)⟩
  | weldingDetectionReq => exact ⟨_, rfl, doWeldingDetectionReq_only rfl rfl rfl rfl rfl rfl (fun _ => rfl) (by simp [reach, within]) (by simp
      [reach, within]) rfl rfl rfl rfl rfl (OnlyIn.refl _ s)⟩
  | sessionStopReq => exact ⟨_, rfl, doSessionStopReq_only rfl rfl rfl rfl rfl rfl (fun _ => rfl) (by simp [reach, within]) (by simp [reach,
      within]) rfl rfl rfl rfl rfl (OnlyIn.refl _ s)⟩
  | tlsFailure => exact ⟨_, rfl, doTlsFailure_only rfl rfl rfl rfl (fun _ => rfl) (by simp [reach, within]) (by simp [reach, within]) rfl rfl rfl
      (OnlyIn.refl _ s)⟩
  | ccHoldElapsed => exact ⟨_, rfl, doCcHoldElapsed_only rfl (by simp [reach, within]) (OnlyIn.refl _ s)⟩
  | contactorTimeout => exact ⟨_, rfl, doContactorTimeout_only rfl rfl rfl rfl (fun _ => rfl) (by simp [reach, within]) (by simp [reach, within])
      rfl rfl rfl (OnlyIn.refl _ s)⟩
  | noSdp => exact ⟨_, rfl, doNoSdp_only rfl rfl rfl rfl (fun _ => rfl) (by simp [reach, within]) (by simp [reach, within]) rfl rfl rfl (OnlyIn.refl
      _ s)⟩
  | setupTimeout => exact ⟨_, rfl, doSetupTimeout_only rfl rfl rfl rfl (fun _ => rfl) (by simp [reach, within]) (by simp [reach, within]) rfl rfl
      rfl (OnlyIn.refl _ s)⟩
  | authTimeout => exact ⟨_, rfl, doAuthTimeout_only rfl rfl rfl rfl (fun _ => rfl) (by simp [reach, within]) (by simp [reach, within]) rfl rfl rfl
      (OnlyIn.refl _ s)⟩
  | ccTimeout => exact ⟨_, rfl, doCcTimeout_only rfl rfl rfl rfl (fun _ => rfl) (by simp [reach, within]) (by simp [reach, within]) rfl rfl rfl
      (OnlyIn.refl _ s)⟩
  | preTimeout => exact ⟨_, rfl, doPreTimeout_only rfl rfl rfl rfl (fun _ => rfl) (by simp [reach, within]) (by simp [reach, within]) rfl rfl rfl
      (OnlyIn.refl _ s)⟩
  | loopTimeout => exact ⟨_, rfl, doLoopTimeout_only rfl rfl rfl rfl (fun _ => rfl) (by simp [reach, within]) (by simp [reach, within]) rfl rfl rfl
      (OnlyIn.refl _ s)⟩
  | seqTimeout => exact ⟨_, rfl, doSeqTimeout_only rfl rfl rfl rfl (fun _ => rfl) (by simp [reach, within]) (by simp [reach, within]) rfl rfl rfl
      (OnlyIn.refl _ s)⟩
  | rampTimeout => exact ⟨_, rfl, doRampTimeout_only rfl rfl rfl rfl (fun _ => rfl) (by simp [reach, within]) (by simp [reach, within]) rfl rfl rfl
      (OnlyIn.refl _ s)⟩
  | closingTimeout => exact ⟨_, rfl, doClosingTimeout_only rfl rfl rfl rfl (fun _ => rfl) (by simp [reach, within]) (by simp [reach, within]) rfl
      rfl rfl (OnlyIn.refl _ s)⟩
  | faultHoldTimeout => exact ⟨_, rfl, doFaultHoldTimeout_only rfl rfl rfl rfl (fun _ => rfl) (by simp [reach, within]) (by simp [reach, within])
      rfl rfl rfl (OnlyIn.refl _ s)⟩
  | bayStop => exact ⟨_, rfl, doBayStop_only rfl rfl rfl rfl rfl rfl (fun _ => rfl) (by simp [reach, within]) (by simp [reach, within]) rfl rfl rfl
      (OnlyIn.refl _ s)⟩
  | authOk => exact ⟨_, rfl, doAuthOk_only rfl rfl rfl rfl rfl rfl (fun _ => rfl) (by simp [reach, within]) (by simp [reach, within]) rfl rfl rfl
      (OnlyIn.refl _ s)⟩
  | authDeny => exact ⟨_, rfl, doAuthDeny_only rfl rfl rfl rfl rfl rfl (fun _ => rfl) (by simp [reach, within]) (by simp [reach, within]) rfl rfl
      rfl (OnlyIn.refl _ s)⟩
  | bayClrCnt => exact ⟨_, rfl, doBayClrCnt_only rfl rfl rfl rfl rfl rfl (fun _ => rfl) (by simp [reach, within]) (by simp [reach, within]) rfl rfl
      rfl (OnlyIn.refl _ s)⟩
  | flowPulse => exact ⟨_, rfl, doFlowPulse_only rfl rfl (OnlyIn.refl _ s)⟩
  | valveCloseDelay => exact ⟨_, rfl, doValveCloseDelay_only rfl rfl rfl (OnlyIn.refl _ s)⟩
  | valvePullInEnd => exact ⟨_, rfl, doValvePullInEnd_only rfl rfl (OnlyIn.refl _ s)⟩
  | auxProtectionCheck => exact ⟨_, rfl, doAuxProtectionCheck_only rfl rfl rfl rfl rfl (OnlyIn.refl _ s)⟩
  | auxRetry => exact ⟨_, rfl, doAuxRetry_only rfl rfl rfl (OnlyIn.refl _ s)⟩
  | auxCoolElapsed => exact ⟨_, rfl, doAuxCoolElapsed_only rfl rfl (OnlyIn.refl _ s)⟩
  | auxRetryCountReset => exact ⟨_, rfl, doAuxRetryCountReset_only rfl rfl (OnlyIn.refl _ s)⟩
  | auxTotalShed => exact ⟨_, rfl, doAuxTotalShed_only rfl rfl rfl rfl rfl (OnlyIn.refl _ s)⟩
  | auxHoldExpiry => exact ⟨_, rfl, doAuxHoldExpiry_only rfl rfl (OnlyIn.refl _ s)⟩
  | vin24Return => exact ⟨_, rfl, doVin24Return_only rfl rfl rfl rfl rfl (OnlyIn.refl _ s)⟩
  | auxClear => exact ⟨_, rfl, doAuxClear_only rfl rfl rfl rfl rfl rfl rfl (OnlyIn.refl _ s)⟩
  | thmClrCnt => exact ⟨_, rfl, doThmClrCnt_only rfl rfl rfl rfl rfl rfl rfl (OnlyIn.refl _ s)⟩
  | metrologySample => exact ⟨_, rfl, doMetrologySample_only rfl rfl rfl rfl rfl (OnlyIn.refl _ s)⟩
  | calBlock => exact ⟨_, rfl, doCalBlock_only rfl rfl rfl rfl rfl (OnlyIn.refl _ s)⟩
  | metrologyCommit => exact ⟨_, rfl, doMetrologyCommit_only rfl rfl rfl rfl (OnlyIn.refl _ s)⟩
  | bayDead => exact ⟨_, rfl, doBayDead_only rfl rfl rfl rfl rfl (OnlyIn.refl _ s)⟩
  | receiptIssue => exact ⟨_, rfl, doReceiptIssue_only rfl rfl rfl rfl rfl (OnlyIn.refl _ s)⟩
  | receiptDrain => exact ⟨_, rfl, doReceiptDrain_only rfl rfl rfl rfl (OnlyIn.refl _ s)⟩
  | calSetEffect => exact ⟨_, rfl, doCalSetEffect_only rfl rfl rfl rfl rfl (OnlyIn.refl _ s)⟩
  | rcptAck => exact ⟨_, rfl, doRcptAck_only rfl rfl rfl rfl rfl rfl rfl (OnlyIn.refl _ s)⟩
  | tallyLowRead => exact ⟨_, rfl, doTallyLowRead_only rfl rfl rfl rfl rfl rfl rfl (OnlyIn.refl _ s)⟩
  | tallyHighRead => exact ⟨_, rfl, doTallyHighRead_only rfl rfl rfl rfl rfl rfl (OnlyIn.refl _ s)⟩
  | metrologyFwActivation => exact ⟨_, rfl, doMetrologyFwActivation_only rfl rfl rfl rfl rfl rfl rfl rfl rfl (OnlyIn.refl _ s)⟩
  | safetyScan => exact ⟨_, rfl, doSafetyScan_only rfl rfl rfl rfl rfl rfl rfl (fun _ => rfl) (fun _ => rfl) (fun _ => rfl) (fun _ => rfl) (fun _ =>
      rfl) rfl rfl rfl rfl rfl rfl rfl (OnlyIn.refl _ s)⟩
  | discrepancyTimeout => exact ⟨_, rfl, doDiscrepancyTimeout_only rfl rfl rfl rfl rfl (OnlyIn.refl _ s)⟩
  | testPulse => exact ⟨_, rfl, doTestPulse_only rfl rfl (OnlyIn.refl _ s)⟩
  | switchTest => exact ⟨_, rfl, doSwitchTest_only rfl rfl rfl rfl rfl (OnlyIn.refl _ s)⟩
  | soCurrentFault => exact ⟨_, rfl, doSoCurrentFault_only rfl rfl rfl rfl rfl (OnlyIn.refl _ s)⟩
  | feedbackMismatch => exact ⟨_, rfl, doFeedbackMismatch_only rfl rfl rfl rfl rfl (OnlyIn.refl _ s)⟩
  | ssRampEnd => exact ⟨_, rfl, doSsRampEnd_only rfl rfl (fun _ => rfl) rfl rfl (OnlyIn.refl _ s)⟩
  | ssRampTimeout => exact ⟨_, rfl, doSsRampTimeout_only rfl rfl rfl (fun _ => rfl) rfl rfl (OnlyIn.refl _ s)⟩
  | envelopeSkipLimit => exact ⟨_, rfl, doEnvelopeSkipLimit_only rfl rfl rfl rfl (fun _ => rfl) rfl rfl rfl (OnlyIn.refl _ s)⟩
  | escalation => exact ⟨_, rfl, doEscalation_only rfl rfl rfl (fun _ => rfl) rfl rfl rfl (OnlyIn.refl _ s)⟩
  | siReset => exact ⟨_, rfl, doSiReset_only rfl rfl rfl rfl rfl rfl rfl (OnlyIn.refl _ s)⟩
  | soClear => exact ⟨_, rfl, doSoClear_only rfl rfl rfl rfl rfl rfl rfl (OnlyIn.refl _ s)⟩
  | safUnlock => exact ⟨_, rfl, doSafUnlock_only rfl rfl rfl rfl rfl rfl rfl rfl (OnlyIn.refl _ s)⟩
  | safSeal => exact ⟨_, rfl, doSafSeal_only rfl rfl rfl rfl rfl rfl rfl rfl (OnlyIn.refl _ s)⟩
  | pwSet => exact ⟨_, rfl, doPwSet_only rfl rfl rfl rfl rfl rfl rfl rfl (OnlyIn.refl _ s)⟩
  | safClrCnt => exact ⟨_, rfl, doSafClrCnt_only rfl rfl rfl rfl rfl rfl rfl (OnlyIn.refl _ s)⟩
  | safUnlockExpiry => exact ⟨_, rfl, doSafUnlockExpiry_only rfl rfl rfl (OnlyIn.refl _ s)⟩
  | safLockoutEnd => exact ⟨_, rfl, doSafLockoutEnd_only rfl rfl rfl (OnlyIn.refl _ s)⟩
  | initWaitEnd => exact ⟨_, rfl, doInitWaitEnd_only rfl rfl rfl rfl rfl rfl rfl rfl (OnlyIn.refl _ s)⟩
  | activeIAssert => exact ⟨_, rfl, doActiveIAssert_only rfl rfl rfl rfl rfl rfl rfl rfl rfl (OnlyIn.refl _ s)⟩
  | claimConfirm => exact ⟨_, rfl, doClaimConfirm_only rfl rfl rfl rfl rfl rfl (fun _ => rfl) (fun _ => rfl) (fun _ => rfl) (fun _ => rfl) (fun _ =>
      rfl) rfl rfl rfl rfl rfl rfl rfl rfl (OnlyIn.refl _ s)⟩
  | claimConflictTimeout => exact ⟨_, rfl, doClaimConflictTimeout_only rfl rfl rfl rfl rfl rfl rfl rfl (OnlyIn.refl _ s)⟩
  | takeover => exact ⟨_, rfl, doTakeover_only rfl rfl rfl rfl rfl rfl (fun _ => rfl) (fun _ => rfl) (fun _ => rfl) (fun _ => rfl) (fun _ => rfl)
      rfl rfl rfl rfl rfl rfl rfl rfl (OnlyIn.refl _ s)⟩
  | syncTimeout => exact ⟨_, rfl, doSyncTimeout_only rfl rfl rfl rfl rfl rfl rfl (OnlyIn.refl _ s)⟩
  | resyncElapsed => exact ⟨_, rfl, doResyncElapsed_only rfl rfl rfl rfl rfl rfl rfl rfl (OnlyIn.refl _ s)⟩
  | seljoTime => exact ⟨_, rfl, doSeljoTime_only rfl rfl rfl rfl rfl rfl (fun _ => rfl) (fun _ => rfl) rfl rfl rfl rfl (OnlyIn.refl _ s)⟩
  | seljoPitch => exact ⟨_, rfl, doSeljoPitch_only rfl rfl rfl (fun _ => rfl) rfl rfl rfl rfl (OnlyIn.refl _ s)⟩
  | seljoTick => exact ⟨_, rfl, doSeljoTick_only rfl rfl rfl (fun _ => rfl) rfl rfl rfl rfl rfl (OnlyIn.refl _ s)⟩
  | seljoSession => exact ⟨_, rfl, doSeljoSession_only rfl rfl rfl rfl rfl (by simp [reach, within]) (fun _ => rfl) rfl rfl rfl rfl rfl (OnlyIn.refl
      _ s)⟩
  | seljoSessionAck => exact ⟨_, rfl, doSeljoSessionAck_only rfl (by simp [reach, within]) (OnlyIn.refl _ s)⟩
  | seljoState => exact ⟨_, rfl, doSeljoState_only rfl rfl rfl (fun _ => rfl) (fun _ => rfl) rfl rfl rfl rfl rfl rfl (OnlyIn.refl _ s)⟩
  | seljoCapture => exact ⟨_, rfl, doSeljoCapture_only rfl rfl rfl rfl rfl (fun _ => rfl) (fun _ => rfl) (fun _ => rfl) (fun _ => rfl) rfl rfl rfl
      rfl rfl rfl (OnlyIn.refl _ s)⟩
  | seljoHealth => exact ⟨_, rfl, doSeljoHealth_only rfl rfl rfl (fun _ => rfl) rfl rfl rfl rfl (OnlyIn.refl _ s)⟩
  | seljoCtrl => exact ⟨_, rfl, doSeljoCtrl_only rfl rfl rfl rfl (fun _ => rfl) rfl rfl rfl rfl (OnlyIn.refl _ s)⟩
  | seljoLinkUp => exact ⟨_, rfl, doSeljoLinkUp_only rfl rfl rfl rfl rfl rfl rfl (OnlyIn.refl _ s)⟩
  | seljoLinkDown => exact ⟨_, rfl, doSeljoLinkDown_only rfl rfl rfl (fun _ => rfl) rfl rfl rfl rfl (OnlyIn.refl _ s)⟩
  | shadowWindowOpen => exact ⟨_, rfl, doShadowWindowOpen_only rfl rfl rfl rfl (fun _ => rfl) (fun _ => rfl) (fun _ => rfl) (fun _ => rfl) rfl rfl
      rfl rfl (OnlyIn.refl _ s)⟩
  | heartbeatSend => exact ⟨_, rfl, doHeartbeatSend_only rfl rfl (OnlyIn.refl _ s)⟩
  | heartbeatFrame => exact ⟨_, rfl, doHeartbeatFrame_only rfl rfl rfl rfl rfl rfl (fun _ => rfl) (fun _ => rfl) (fun _ => rfl) (fun _ => rfl) (fun
      _ => rfl) rfl rfl rfl rfl rfl rfl (OnlyIn.refl _ s)⟩
  | partnerAbsent => exact ⟨_, rfl, doPartnerAbsent_only rfl rfl rfl (OnlyIn.refl _ s)⟩
  | policySegmentSend => exact ⟨_, rfl, doPolicySegmentSend_only rfl rfl (OnlyIn.refl _ s)⟩
  | policySegmentFrame => exact ⟨_, rfl, doPolicySegmentFrame_only rfl rfl rfl (OnlyIn.refl _ s)⟩
  | updateHeartbeatSend => exact ⟨_, rfl, doUpdateHeartbeatSend_only rfl rfl (OnlyIn.refl _ s)⟩
  | updateHeartbeatFrame => exact ⟨_, rfl, doUpdateHeartbeatFrame_only rfl rfl (OnlyIn.refl _ s)⟩
  | healthCheck => exact ⟨_, rfl, doHealthCheck_only rfl rfl rfl rfl rfl (fun _ => rfl) (fun _ => rfl) (fun _ => rfl) (fun _ => rfl) (fun _ => rfl)
      rfl rfl rfl rfl rfl rfl (OnlyIn.refl _ s)⟩
  | handover => exact ⟨_, rfl, doHandover_only rfl rfl rfl rfl rfl rfl rfl (OnlyIn.refl _ s)⟩
  | clearUnfit => exact ⟨_, rfl, doClearUnfit_only rfl rfl rfl rfl rfl rfl rfl (OnlyIn.refl _ s)⟩
  | pairClrCnt => exact ⟨_, rfl, doPairClrCnt_only rfl rfl rfl rfl rfl rfl rfl (OnlyIn.refl _ s)⟩
  | profileHandoverRelease => exact ⟨_, rfl, doProfileHandoverRelease_only rfl rfl rfl rfl rfl rfl (fun _ => rfl) (fun _ => rfl) (fun _ => rfl) (fun
      _ => rfl) (fun _ => rfl) rfl rfl rfl rfl rfl rfl rfl rfl (OnlyIn.refl _ s)⟩
  | referenceSend => exact ⟨_, rfl, doReferenceSend_only rfl rfl rfl rfl (OnlyIn.refl _ s)⟩
  | referenceReceived => exact ⟨_, rfl, doReferenceReceived_only rfl rfl rfl rfl (OnlyIn.refl _ s)⟩
  | referenceMissing => exact ⟨_, rfl, doReferenceMissing_only rfl rfl rfl rfl rfl rfl (OnlyIn.refl _ s)⟩
  | canFrameReceived => exact ⟨_, rfl, doCanFrameReceived_only rfl rfl rfl rfl rfl rfl rfl (OnlyIn.refl _ s)⟩
  | slotMiss => exact ⟨_, rfl, doSlotMiss_only rfl rfl (OnlyIn.refl _ s)⟩
  | arbitratingWindow => exact ⟨_, rfl, doArbitratingWindow_only rfl rfl rfl rfl (OnlyIn.refl _ s)⟩
  | canTxComplete => exact ⟨_, rfl, doCanTxComplete_only rfl rfl rfl rfl rfl rfl (OnlyIn.refl _ s)⟩
  | canTxError => exact ⟨_, rfl, doCanTxError_only rfl rfl rfl rfl rfl rfl (OnlyIn.refl _ s)⟩
  | busOffRecovery => exact ⟨_, rfl, doBusOffRecovery_only rfl rfl rfl rfl rfl (OnlyIn.refl _ s)⟩
  | tatCommitPoint => exact ⟨_, rfl, doTatCommitPoint_only rfl rfl rfl (OnlyIn.refl _ s)⟩
  | mailboxSend => exact ⟨_, rfl, doMailboxSend_only rfl rfl rfl rfl rfl rfl rfl rfl (OnlyIn.refl _ s)⟩
  | mailboxCancel => exact ⟨_, rfl, doMailboxCancel_only rfl rfl rfl rfl rfl rfl rfl rfl (OnlyIn.refl _ s)⟩
  | tatArm => exact ⟨_, rfl, doTatArm_only rfl rfl rfl rfl rfl rfl rfl (OnlyIn.refl _ s)⟩
  | tatLoad => exact ⟨_, rfl, doTatLoad_only rfl rfl rfl rfl rfl rfl rfl (OnlyIn.refl _ s)⟩
  | tatCancel => exact ⟨_, rfl, doTatCancel_only rfl rfl rfl rfl rfl rfl rfl (OnlyIn.refl _ s)⟩
  | fifoPop => exact ⟨_, rfl, doFifoPop_only rfl rfl rfl rfl rfl rfl rfl (OnlyIn.refl _ s)⟩
  | busSleep => exact ⟨_, rfl, doBusSleep_only rfl rfl rfl rfl rfl rfl rfl (OnlyIn.refl _ s)⟩
  | busWakeWrite => exact ⟨_, rfl, doBusWakeWrite_only rfl rfl rfl rfl rfl rfl rfl (OnlyIn.refl _ s)⟩
  | busWake => exact ⟨_, rfl, doBusWake_only rfl rfl rfl rfl rfl rfl rfl rfl rfl rfl rfl rfl rfl (fun _ => rfl) (fun _ => rfl) (fun _ => rfl) (fun _
      => rfl) rfl rfl rfl rfl rfl rfl rfl rfl rfl rfl rfl rfl (OnlyIn.refl _ s)⟩
  | sbusClrCnt => exact ⟨_, rfl, doSbusClrCnt_only rfl rfl rfl rfl rfl rfl rfl (OnlyIn.refl _ s)⟩
  | udpDatagram => exact ⟨_, rfl, doUdpDatagram_only rfl rfl rfl rfl rfl rfl (OnlyIn.refl _ s)⟩
  | arpRequest => exact ⟨_, rfl, doArpRequest_only rfl rfl (OnlyIn.refl _ s)⟩
  | icmpEcho => exact ⟨_, rfl, doIcmpEcho_only rfl rfl (OnlyIn.refl _ s)⟩
  | spiStatus => exact ⟨_, rfl, doSpiStatus_only rfl rfl (OnlyIn.refl _ s)⟩
  | spiRequest => exact ⟨_, rfl, doSpiRequest_only rfl rfl rfl rfl rfl rfl (OnlyIn.refl _ s)⟩
  | spiFetch => exact ⟨_, rfl, doSpiFetch_only rfl rfl (OnlyIn.refl _ s)⟩
  | read => exact ⟨_, rfl, doRead_only rfl rfl rfl rfl rfl rfl rfl rfl (OnlyIn.refl _ s)⟩
  | write => exact ⟨_, rfl, doWrite_only rfl rfl rfl rfl rfl rfl rfl rfl rfl rfl rfl rfl rfl rfl rfl (fun _ => rfl) (fun _ => rfl) (fun _ => rfl)
      (fun _ => rfl) (fun _ => rfl) (fun _ => rfl) rfl rfl rfl rfl rfl rfl rfl rfl rfl rfl rfl rfl rfl (OnlyIn.refl _ s)⟩
  | readList => exact ⟨_, rfl, doReadList_only rfl rfl rfl rfl rfl rfl rfl rfl (OnlyIn.refl _ s)⟩
  | echo => exact ⟨_, rfl, doEcho_only rfl rfl rfl rfl rfl rfl (OnlyIn.refl _ s)⟩
  | registerWrite => exact ⟨_, rfl, doRegisterWrite_only rfl rfl rfl rfl rfl rfl rfl rfl rfl rfl rfl rfl rfl rfl rfl (fun _ => rfl) (fun _ => rfl)
      (fun _ => rfl) (fun _ => rfl) (fun _ => rfl) (fun _ => rfl) rfl rfl rfl rfl rfl rfl rfl rfl rfl rfl rfl rfl rfl (OnlyIn.refl _ s)⟩
  | violRelease => exact ⟨_, rfl, doViolRelease_only rfl rfl rfl rfl rfl rfl (OnlyIn.refl _ s)⟩
  | firstOvrRelease => exact ⟨_, rfl, doFirstOvrRelease_only rfl rfl rfl rfl rfl rfl rfl (OnlyIn.refl _ s)⟩
  | latClrCnt => exact ⟨_, rfl, doLatClrCnt_only rfl rfl rfl rfl rfl rfl rfl (OnlyIn.refl _ s)⟩
  | hostClrCnt => exact ⟨_, rfl, doHostClrCnt_only rfl rfl rfl rfl rfl rfl rfl (OnlyIn.refl _ s)⟩
  | sysUnlock => exact ⟨_, rfl, doSysUnlock_only rfl rfl rfl rfl rfl rfl rfl rfl rfl (OnlyIn.refl _ s)⟩
  | sysSeal => exact ⟨_, rfl, doSysSeal_only rfl rfl rfl rfl rfl rfl rfl rfl (OnlyIn.refl _ s)⟩
  | sysUnlockExpiry => exact ⟨_, rfl, doSysUnlockExpiry_only rfl rfl rfl rfl (OnlyIn.refl _ s)⟩
  | sysLockoutEnd => exact ⟨_, rfl, doSysLockoutEnd_only rfl rfl rfl (OnlyIn.refl _ s)⟩
  | hostRateInterval => exact ⟨_, rfl, doHostRateInterval_only rfl rfl rfl rfl (OnlyIn.refl _ s)⟩
  | referenceLoss => exact ⟨_, rfl, doReferenceLoss_only rfl rfl rfl rfl rfl rfl rfl rfl rfl rfl rfl rfl rfl rfl (fun _ => rfl) (fun _ => rfl) (fun
      _ => rfl) (fun _ => rfl) (fun _ => rfl) (fun _ => rfl) rfl rfl rfl rfl rfl rfl rfl rfl rfl rfl rfl rfl (OnlyIn.refl _ s)⟩
  | referenceRestored => exact ⟨_, rfl, doReferenceRestored_only rfl rfl rfl rfl rfl rfl rfl rfl rfl rfl rfl rfl (fun _ => rfl) (fun _ => rfl) (fun
      _ => rfl) (fun _ => rfl) rfl rfl rfl rfl rfl rfl rfl rfl rfl rfl rfl rfl rfl (OnlyIn.refl _ s)⟩
  | x32Loss => exact ⟨_, rfl, doX32Loss_only rfl rfl rfl rfl rfl (OnlyIn.refl _ s)⟩
  | mtSave => exact ⟨_, rfl, doMtSave_only rfl rfl (OnlyIn.refl _ s)⟩
  | coldStart => exact ⟨_, rfl, doColdStart_only rfl rfl rfl rfl rfl rfl rfl rfl rfl rfl rfl rfl rfl (fun _ => rfl) (fun _ => rfl) (fun _ => rfl)
      (fun _ => rfl) rfl rfl rfl rfl rfl rfl rfl rfl rfl rfl rfl rfl rfl (OnlyIn.refl _ s)⟩
  | brownOut => exact ⟨_, rfl, doBrownOut_only rfl rfl rfl rfl rfl rfl rfl rfl rfl rfl rfl rfl rfl rfl (fun _ => rfl) (fun _ => rfl) (fun _ => rfl)
      (fun _ => rfl) (fun _ => rfl) (fun _ => rfl) rfl rfl rfl rfl rfl rfl rfl rfl rfl rfl rfl rfl (OnlyIn.refl _ s)⟩
  | rstN => exact ⟨_, rfl, doRstN_only rfl rfl rfl rfl rfl rfl rfl rfl rfl rfl rfl rfl rfl rfl rfl (fun _ => rfl) (fun _ => rfl) (fun _ => rfl) (fun
      _ => rfl) (fun _ => rfl) (fun _ => rfl) rfl rfl rfl rfl rfl rfl rfl rfl rfl rfl rfl rfl rfl (OnlyIn.refl _ s)⟩
  | internalReset => exact ⟨_, rfl, doInternalReset_only rfl rfl rfl rfl rfl rfl rfl rfl rfl rfl rfl rfl rfl rfl rfl (fun _ => rfl) (fun _ => rfl)
      (fun _ => rfl) (fun _ => rfl) (fun _ => rfl) (fun _ => rfl) rfl rfl rfl rfl rfl rfl rfl rfl rfl rfl rfl rfl rfl (OnlyIn.refl _ s)⟩
  | resetKey => exact ⟨_, rfl, doResetKey_only rfl rfl rfl rfl rfl rfl rfl rfl rfl rfl rfl rfl rfl rfl rfl (fun _ => rfl) (fun _ => rfl) (fun _ =>
      rfl) (fun _ => rfl) (fun _ => rfl) (fun _ => rfl) rfl rfl rfl rfl rfl rfl rfl rfl rfl rfl rfl rfl rfl (OnlyIn.refl _ s)⟩
  | watchdog => exact ⟨_, rfl, doWatchdog_only rfl rfl rfl rfl rfl rfl rfl rfl rfl rfl rfl rfl rfl rfl rfl (fun _ => rfl) (fun _ => rfl) (fun _ =>
      rfl) (fun _ => rfl) (fun _ => rfl) (fun _ => rfl) rfl rfl rfl rfl rfl rfl rfl rfl rfl rfl rfl rfl rfl (OnlyIn.refl _ s)⟩
  | lockstepDisagree => exact ⟨_, rfl, doLockstepDisagree_only rfl rfl rfl rfl rfl rfl rfl rfl rfl rfl rfl rfl rfl rfl rfl (fun _ => rfl) (fun _ =>
      rfl) (fun _ => rfl) (fun _ => rfl) (fun _ => rfl) (fun _ => rfl) rfl rfl rfl rfl rfl rfl rfl rfl rfl rfl rfl rfl rfl (OnlyIn.refl _ s)⟩
  | dormant => exact ⟨_, rfl, doDormant_only rfl rfl rfl rfl rfl rfl rfl rfl (OnlyIn.refl _ s)⟩
  | dormantCommit => exact ⟨_, rfl, doDormantCommit_only rfl rfl rfl rfl rfl rfl rfl rfl rfl rfl rfl rfl rfl (fun _ => rfl) (fun _ => rfl) (fun _ =>
      rfl) (fun _ => rfl) rfl rfl rfl rfl rfl rfl rfl rfl rfl rfl rfl rfl (OnlyIn.refl _ s)⟩
  | dormantWake => exact ⟨_, rfl, doDormantWake_only rfl rfl rfl rfl rfl rfl rfl rfl rfl rfl rfl rfl rfl (fun _ => rfl) (fun _ => rfl) (fun _ =>
      rfl) (fun _ => rfl) rfl rfl rfl rfl rfl rfl rfl rfl rfl rfl rfl rfl (OnlyIn.refl _ s)⟩
  | powerFailWarning => exact ⟨_, rfl, doPowerFailWarning_only rfl rfl rfl rfl rfl rfl rfl rfl rfl (OnlyIn.refl _ s)⟩
  | powerFailClear => exact ⟨_, rfl, doPowerFailClear_only rfl rfl rfl rfl rfl (OnlyIn.refl _ s)⟩
  | supplyOutOfRange => exact ⟨_, rfl, doSupplyOutOfRange_only rfl rfl rfl rfl rfl rfl rfl (fun _ => rfl) (fun _ => rfl) (fun _ => rfl) (fun _ =>
      rfl) (fun _ => rfl) rfl rfl rfl rfl rfl rfl (OnlyIn.refl _ s)⟩
  | vin24Low => exact ⟨_, rfl, doVin24Low_only rfl rfl rfl rfl rfl rfl (fun _ => rfl) rfl rfl rfl rfl (OnlyIn.refl _ s)⟩
  | vbatLow => exact ⟨_, rfl, doVbatLow_only rfl rfl rfl rfl rfl rfl (OnlyIn.refl _ s)⟩
  | junctionTempCheck => exact ⟨_, rfl, doJunctionTempCheck_only rfl rfl rfl rfl rfl rfl (fun _ => rfl) (fun _ => rfl) (fun _ => rfl) (fun _ => rfl)
      (fun _ => rfl) rfl rfl rfl rfl rfl rfl (OnlyIn.refl _ s)⟩
  | tamper => exact ⟨_, rfl, doTamper_only rfl rfl rfl rfl rfl rfl (OnlyIn.refl _ s)⟩
  | rtcApply => exact ⟨_, rfl, doRtcApply_only rfl rfl rfl rfl rfl rfl rfl (OnlyIn.refl _ s)⟩
  | ptpSync => exact ⟨_, rfl, doPtpSync_only rfl rfl rfl (OnlyIn.refl _ s)⟩
  | ptpFollowUp => exact ⟨_, rfl, doPtpFollowUp_only rfl rfl rfl (OnlyIn.refl _ s)⟩
  | ptpDelayResp => exact ⟨_, rfl, doPtpDelayResp_only rfl rfl rfl rfl rfl rfl (OnlyIn.refl _ s)⟩
  | ptpAnnounce => exact ⟨_, rfl, doPtpAnnounce_only rfl rfl rfl (OnlyIn.refl _ s)⟩
  | ptpSyncTimeout => exact ⟨_, rfl, doPtpSyncTimeout_only rfl rfl rfl (OnlyIn.refl _ s)⟩
  | leapSecond => exact ⟨_, rfl, doLeapSecond_only rfl rfl rfl (OnlyIn.refl _ s)⟩
  | marketTimeRead => exact ⟨_, rfl, doMarketTimeRead_only rfl rfl rfl rfl rfl rfl rfl (OnlyIn.refl _ s)⟩
  | calendarRead => exact ⟨_, rfl, doCalendarRead_only rfl rfl rfl rfl rfl rfl rfl (OnlyIn.refl _ s)⟩
  | rawRead => exact ⟨_, rfl, doRawRead_only rfl rfl rfl rfl rfl rfl rfl (OnlyIn.refl _ s)⟩
  | clkClrCnt => exact ⟨_, rfl, doClkClrCnt_only rfl rfl rfl rfl rfl rfl rfl (OnlyIn.refl _ s)⟩
  | pwrClrCnt => exact ⟨_, rfl, doPwrClrCnt_only rfl rfl rfl rfl rfl rfl rfl (OnlyIn.refl _ s)⟩
  | generate => exact ⟨_, rfl, doGenerate_only rfl rfl rfl rfl rfl rfl rfl (OnlyIn.refl _ s)⟩
  | load => exact ⟨_, rfl, doLoad_only rfl rfl rfl rfl rfl rfl rfl (OnlyIn.refl _ s)⟩
  | unload => exact ⟨_, rfl, doUnload_only rfl rfl rfl rfl rfl rfl rfl (OnlyIn.refl _ s)⟩
  | store => exact ⟨_, rfl, doStore_only rfl rfl rfl rfl rfl rfl rfl (OnlyIn.refl _ s)⟩
  | delete => exact ⟨_, rfl, doDelete_only rfl rfl rfl rfl rfl rfl rfl (OnlyIn.refl _ s)⟩
  | attest => exact ⟨_, rfl, doAttest_only rfl rfl rfl rfl rfl rfl rfl (OnlyIn.refl _ s)⟩
  | remask => exact ⟨_, rfl, doRemask_only rfl rfl rfl (OnlyIn.refl _ s)⟩
  | lcAdvance => exact ⟨_, rfl, doLcAdvance_only rfl rfl rfl rfl rfl rfl rfl (OnlyIn.refl _ s)⟩
  | chunkCommit => exact ⟨_, rfl, doChunkCommit_only rfl rfl rfl rfl rfl rfl rfl rfl (OnlyIn.refl _ s)⟩
  | abort => exact ⟨_, rfl, doAbort_only rfl rfl rfl rfl rfl rfl rfl (OnlyIn.refl _ s)⟩
  | apply => exact ⟨_, rfl, doApply_only rfl rfl rfl rfl rfl rfl rfl rfl rfl rfl rfl (OnlyIn.refl _ s)⟩
  | raise => exact ⟨_, rfl, doRaise_only rfl rfl rfl rfl rfl rfl rfl (OnlyIn.refl _ s)⟩
  | actModeWrite => exact ⟨_, rfl, doActModeWrite_only rfl rfl rfl rfl rfl rfl rfl (OnlyIn.refl _ s)⟩
  | activationLead => exact ⟨_, rfl, doActivationLead_only rfl rfl (OnlyIn.refl _ s)⟩
  | scheduledActivation => exact ⟨_, rfl, doScheduledActivation_only rfl rfl rfl rfl rfl rfl rfl rfl rfl rfl rfl rfl rfl rfl rfl (fun _ => rfl) (fun
      _ => rfl) (fun _ => rfl) (fun _ => rfl) (fun _ => rfl) (fun _ => rfl) rfl rfl rfl rfl rfl rfl rfl rfl rfl rfl rfl rfl rfl (OnlyIn.refl _ s)⟩
  | activationSkip => exact ⟨_, rfl, doActivationSkip_only rfl rfl rfl rfl rfl (OnlyIn.refl _ s)⟩
  | handoverActivation => exact ⟨_, rfl, doHandoverActivation_only rfl rfl rfl rfl rfl rfl rfl rfl rfl rfl rfl rfl rfl rfl rfl (fun _ => rfl) (fun _
      => rfl) (fun _ => rfl) (fun _ => rfl) (fun _ => rfl) (fun _ => rfl) rfl rfl rfl rfl rfl rfl rfl rfl rfl rfl rfl rfl rfl (OnlyIn.refl _ s)⟩
  | handoverActivationTimeout => exact ⟨_, rfl, doHandoverActivationTimeout_only rfl rfl rfl (OnlyIn.refl _ s)⟩
  | trialEnd => exact ⟨_, rfl, doTrialEnd_only rfl rfl (OnlyIn.refl _ s)⟩
  | floorRaise => exact ⟨_, rfl, doFloorRaise_only rfl rfl (OnlyIn.refl _ s)⟩
  | ledgerRecordWrite => exact ⟨_, rfl, doLedgerRecordWrite_only rfl rfl rfl rfl rfl (OnlyIn.refl _ s)⟩
  | snapshotRead => exact ⟨_, rfl, doSnapshotRead_only rfl rfl (OnlyIn.refl _ s)⟩
  | mark => exact ⟨_, rfl, doMark_only rfl rfl rfl rfl rfl rfl (OnlyIn.refl _ s)⟩
  | clrSys => exact ⟨_, rfl, doClrSys_only rfl rfl rfl rfl rfl rfl rfl (OnlyIn.refl _ s)⟩
  | clrSaf => exact ⟨_, rfl, doClrSaf_only rfl rfl rfl rfl rfl rfl rfl (OnlyIn.refl _ s)⟩
  | canRxError => exact ⟨_, rfl, doCanRxError_only rfl rfl rfl rfl rfl (OnlyIn.refl _ s)⟩
  | x32Restored => exact ⟨_, rfl, doX32Restored_only rfl rfl rfl rfl (OnlyIn.refl _ s)⟩
  | pllLockLoss => exact ⟨_, rfl, doPllLockLoss_only rfl rfl rfl rfl (OnlyIn.refl _ s)⟩
  | pllRelock => exact ⟨_, rfl, doPllRelock_only rfl rfl rfl rfl (OnlyIn.refl _ s)⟩
  | keyOpComplete => exact ⟨_, rfl, doKeyOpComplete_only rfl rfl rfl rfl rfl (OnlyIn.refl _ s)⟩
  | supportedAppProtocolReq => exact ⟨_, rfl, doSupportedAppProtocolReq_only rfl rfl rfl rfl rfl rfl (fun _ => rfl) (by simp [reach, within]) (by
      simp [reach, within]) rfl rfl rfl rfl rfl (OnlyIn.refl _ s)⟩
  | tlsHandshake => exact ⟨_, rfl, doTlsHandshake_only rfl rfl rfl rfl rfl rfl (fun _ => rfl) (by simp [reach, within]) (by simp [reach, within])
      rfl rfl rfl rfl rfl (OnlyIn.refl _ s)⟩
  | bayPhyLink => exact ⟨_, rfl, doBayPhyLink_only rfl rfl (by simp [reach, within]) (OnlyIn.refl _ s)⟩
  | proofDue => exact ⟨_, rfl, doProofDue_only rfl rfl rfl (OnlyIn.refl _ s)⟩
  | dormantOutputRelease => exact ⟨_, rfl, doDormantOutputRelease_only rfl rfl rfl rfl rfl rfl rfl (fun _ => rfl) (fun _ => rfl) (fun _ => rfl) (fun
      _ => rfl) (fun _ => rfl) rfl rfl rfl rfl rfl rfl rfl rfl rfl (OnlyIn.refl _ s)⟩
  | vbatDomainLoss => exact ⟨_, rfl, doVbatDomainLoss_only rfl rfl rfl rfl rfl (OnlyIn.refl _ s)⟩

/-- The queue of waiting commands and the fuses lie in no reach. -/
theorem reach_spares (c : Instr) : reach c .queue = false ∧ reach c .fuses = false := by
  cases c <;> exact ⟨rfl, rfl⟩

/-- Settles O5: a command answers one state only, and the frame lemma of its meaning speaks of that state. -/
theorem commandsStayInReach : Obligations.CommandsStayInReach := by
  unfold Obligations.CommandsStayInReach
  intro c s u h
  obtain ⟨v, hv, frame⟩ := exec_reaches c s
  obtain rfl : v = u := by rw [hv] at h; exact Host.Outcome.next.inj h
  obtain ⟨queue, fuses⟩ := reach_spares c
  exact ⟨frame, frame.keeps_queue queue, frame.keeps_fuses fuses⟩

/-! ## Sparse memories -/

theorem memRead_memWrite_of_wf {m : Mem} (w : Memory.wf m = true) (x : Nat) (v : Byte) (y : Nat) :
    memRead (memWrite m x v) y = if y = x then v else memRead m y := memRead_memWrite (a := 0) x v y w

/-- What a byte reads after a string was stored from `x` up: the string's byte there, or the byte before. -/
theorem memRead_memWrites {m : Mem} (w : Memory.wf m = true) (x : Nat) (b : Bytes) (y : Nat) :
    memRead (memWrites m x b) y = if y < x then memRead m y else b.getD (y - x) (memRead m y) := by
  induction b generalizing m x with
  | nil => simp [memWrites]
  | cons v b ih =>
    rw [memWrites, ih (memWrite_wf x v w), memRead_memWrite_of_wf w]
    rcases Nat.lt_trichotomy y x with h | rfl | h
    · rw [if_pos (by omega), if_pos h, if_neg (by omega)]
    · simp
    · rw [if_neg (by omega), if_neg (by omega), if_neg (by omega), show y - x = y - (x + 1) + 1 by omega, List.getD_cons_succ]

/-- What a byte of a string laid out at `x` reads. -/
theorem memRead_memOf (x : Nat) (b : Bytes) (y : Nat) : memRead (memOf x b) y = if y < x then 0 else b.getD (y - x) 0 := by
  induction b generalizing x with
  | nil => simp [memOf, memRead]
  | cons v b ih =>
    have tail : memRead (memOf x (v :: b)) y = if y = x then v else memRead (memOf (x + 1) b) y := by
      have low : ∀ z, z ≤ x → memRead (memOf (x + 1) b) z = 0 := fun z hz => memRead_below (memOf_wfFrom (x + 1) (x + 1) b (Nat.le_refl _)) (by omega)
      rw [show memOf x (v :: b) = if v = 0 then memOf (x + 1) b else (x, v) :: memOf (x + 1) b from rfl]
      split
      · next e =>
        split
        · next h => rw [low y (by omega), e]
        · rfl
      · rw [memRead_cons]
        rcases Nat.lt_trichotomy y x with h | h | h
        · rw [if_neg (by omega), if_pos h, if_neg (by omega), low y (by omega)]
        · rw [if_pos h.symm, if_pos h]
        · rw [if_neg (by omega), if_neg (by omega), if_neg (by omega)]
    rw [tail, ih]
    rcases Nat.lt_trichotomy y x with h | rfl | h
    · rw [if_neg (by omega), if_pos (by omega), if_pos h]
    · simp
    · rw [if_neg (by omega), if_neg (by omega), if_neg (by omega), show y - x = y - (x + 1) + 1 by omega, List.getD_cons_succ]

/-- Cells below `x` do not matter to a read at `x` or above. -/
theorem memRead_dropWhile (m : Mem) {x y : Nat} (h : x ≤ y) : memRead (m.dropWhile fun c => decide (c.1 < x)) y = memRead m y := by
  induction m with
  | nil => rfl
  | cons p m ih =>
    obtain ⟨a, v⟩ := p
    by_cases l : a < x
    · rw [List.dropWhile_cons_of_pos (by simpa using l), ih, memRead_cons, if_neg (by omega), if_neg (by omega)]
    · rw [List.dropWhile_cons_of_neg (by simpa using l)]

/-- The `n` bytes from an address up are the bytes read there. -/
theorem memRange_eq (m : Mem) (x n : Nat) : memRange m x n = (List.range n).map fun i => memRead m (x + i) := by
  induction n generalizing m x with
  | zero => rfl
  | succ n ih =>
    have step (w : Mem) : ((List.range n).map fun i => memRead w (x + 1 + i)) = ((List.range n).map Nat.succ).map fun i => memRead w (x + i) := by
      rw [List.map_map]
      exact List.map_congr_left fun i _ => congrArg (memRead w) (by omega)
    have same : ∀ i, memRead (m.dropWhile fun c => decide (c.1 < x)) (x + i) = memRead m (x + i) := fun i => memRead_dropWhile m (by omega)
    have head := List.head?_dropWhile_not (fun c : Nat × Byte => decide (c.1 < x)) m
    unfold memRange
    generalize m.dropWhile (fun c => decide (c.1 < x)) = w at same head
    rw [List.map_congr_left fun i _ => (same i).symm, List.range_succ_eq_map]
    match w with
    | [] => simp [memRead, Function.comp_def, List.replicate_succ, List.map_const']
    | (a, b) :: rest =>
      have above : x ≤ a := by simpa using head
      dsimp only
      split
      · next e =>
        subst e
        rw [ih, List.map_cons, step]
        rw [Nat.add_zero, memRead_cons, if_pos rfl]
        refine congrArg (b :: ·) (List.map_congr_left fun i hi => ?_)
        obtain ⟨j, _, rfl⟩ := List.mem_map.1 hi
        rw [memRead_cons, if_neg (by omega), if_neg (by omega)]
      · rw [ih, List.map_cons, step, Nat.add_zero, memRead_cons, if_neg (by omega), if_pos (by omega)]

theorem memRange_get (m : Mem) (x : Nat) {n i : Nat} (h : i < n) : (memRange m x n)[i]? = some (memRead m (x + i)) := by
  rw [memRange_eq, List.getElem?_map, List.getElem?_range h, Option.map_some]

/-- A stored string reads back whole. -/
theorem memRange_memWrites {m : Mem} (w : Memory.wf m = true) (x : Nat) (b : Bytes) : memRange (memWrites m x b) x b.length = b := by
  refine List.ext_getElem (by simp [memRange_eq]) fun i h1 h2 => ?_
  simp only [memRange_eq, List.getElem_map, List.getElem_range, memRead_memWrites w]
  rw [if_neg (by omega), Nat.add_sub_cancel_left, List.getD_eq_getElem?_getD, List.getElem?_eq_getElem h2, Option.getD_some]

/-- Two memories in canonical form that read alike are equal. -/
theorem mem_ext {w m : Mem} {a : Nat} (hw : memWfFrom a w = true) (hm : memWfFrom a m = true) (h : ∀ y, memRead w y = memRead m y) : w = m := by
  induction w generalizing a m with
  | nil =>
    match m with
    | [] => rfl
    | (y, v) :: m =>
      obtain ⟨_, nz, _⟩ := memWfFrom_cons.1 hm
      exact absurd (by simpa [memRead_cons, memRead] using (h y).symm) nz
  | cons p w ih =>
    obtain ⟨x, b⟩ := p
    obtain ⟨hx, bnz, hw'⟩ := memWfFrom_cons.1 hw
    match m with
    | [] => exact absurd (by simpa [memRead_cons, memRead] using h x) bnz
    | (y, v) :: m =>
      obtain ⟨hy, vnz, hm'⟩ := memWfFrom_cons.1 hm
      rcases Nat.lt_trichotomy x y with l | rfl | l
      · exact absurd (by simpa [memRead_cons, l, Nat.ne_of_gt l] using h x) bnz
      · have heads : b = v := by simpa [memRead_cons] using h x
        have tails : w = m := ih hw' hm' fun z => by
          rcases Nat.lt_or_ge x z with g | g
          · simpa [memRead_cons, Nat.ne_of_lt g, Nat.not_lt.2 (Nat.le_of_lt g)] using h z
          · rw [memRead_below hw' (by omega), memRead_below hm' (by omega)]
        rw [heads, tails]
      · exact absurd (by simpa [memRead_cons, l, Nat.ne_of_gt l] using (h y).symm) vnz

/-- A string laid out is that string stored in an empty memory. -/
theorem memOf_eq_memWrites (x : Nat) (b : Bytes) : memOf x b = memWrites [] x b :=
  mem_ext (a := 0) (memOf_wf x b) (memWrites_wf x b rfl) fun y => by rw [memRead_memOf, memRead_memWrites rfl]; rfl

/-- Settles O8: each law of the sparse memories from what a byte reads after a store. -/
theorem memoryLaws : Obligations.MemoryLaws := by
  unfold Obligations.MemoryLaws
  intro m x w
  refine ⟨memRead_memWrite_of_wf w x, fun b => ⟨memWrites_wf x b w, memRange_memWrites w x b, fun y hy => ?_⟩,
    fun n => ⟨by simp [memRange_eq], fun i => memRange_get m x⟩, fun b => ⟨memOf_wf x b, memOf_eq_memWrites x b⟩,
    fun z hz h => mem_ext (a := 0) hz w h⟩
  rw [memRead_memWrites w]
  split
  · rfl
  · rw [List.getD_eq_getElem?_getD, List.getElem?_eq_none (by omega), Option.getD_none]
end Sys2Proof.Machine
end

section
/-! PROOFS. ACTIVE_O and the role (R332, R335): what each operation that changes the role leaves of ACTIVE_O. -/
namespace Sys2Proof.Machine

/-! ## The relation between ACTIVE_O and the role -/

/-- Is ACTIVE_O asserted in the role (R332, R335)? -/
def roleAsserts (r : Role) : Bool := r == .claiming || r == .active

theorem State.outputFollowsRole_iff (s : State) : s.outputFollowsRole ↔ s.pair.activeO = roleAsserts s.pair.role := by
  unfold State.outputFollowsRole
  generalize s.pair.activeO = o
  generalize s.pair.role = r
  cases o <;> cases r <;> decide

/-- What leaves the role and ACTIVE_O alone keeps their relation. -/
theorem output_of {s u : State} (o : OnlyIn (allSave .role) s u) (h : s.outputFollowsRole) : u.outputFollowsRole := by
  have e := o.keeps_role rfl
  rw [Prod.mk.injEq] at e
  rw [State.outputFollowsRole, e.1, e.2]
  exact h

/-- A role entered with ACTIVE_O as the role has it. -/
theorem State.setRole_output {s : State} {r : Role} (c : Nat) (h : s.pair.activeO = roleAsserts r) : (s.setRole r c).outputFollowsRole := by
  obtain ⟨role, out⟩ := s.setRole_role r c
  rw [State.outputFollowsRole_iff, role, out, h]

/-- Change of PAIR that leaves the role and ACTIVE_O alone. -/
theorem State.setPair_output {s : State} {f : Pair → Pair} (hf : ((f s.pair).role, (f s.pair).activeO) = (s.pair.role, s.pair.activeO))
    (h : s.outputFollowsRole) : (s.setPair f).outputFollowsRole :=
  output_of (State.setPair_only ⟨.inr hf, .inl rfl⟩ (OnlyIn.refl _ s)) h

theorem ite_output {s u : State} {c : Prop} [Decidable c] (hs : c → s.outputFollowsRole) (hu : ¬c → u.outputFollowsRole) :
    (if c then s else u).outputFollowsRole := by
  split
  · exact hs ‹_›
  · exact hu ‹_›

theorem whenLive_output {s : State} {t : Nat} {f : State → State} (hf : ∀ w : State, w.outputFollowsRole → (f w).outputFollowsRole)
    (h : s.outputFollowsRole) : (whenLive t f s).outputFollowsRole :=
  ite_output (fun _ => hf _ h) fun _ => output_of (State.elapse_only rfl (OnlyIn.refl _ _)) h

theorem State.command_output {s : State} {m : Master} {a : Nat} {r : Option Answer} {f : State → State}
    (hf : ∀ w : State, w.outputFollowsRole → (f w).outputFollowsRole) (h : s.outputFollowsRole) : (s.command m a r f).outputFollowsRole := by
  unfold State.command
  split
  · exact output_of (State.answered_only rfl rfl rfl rfl rfl (OnlyIn.refl _ _)) h
  · exact output_of (State.answered_only rfl rfl rfl rfl rfl (OnlyIn.refl _ _)) (hf s h)

/-! ## Role changes (R335, R336, R345) -/

theorem State.enterSyncing_output (s : State) (c : Nat) : (s.enterSyncing c).outputFollowsRole := State.setRole_output c rfl

theorem State.enterUnfit_output (s : State) (c : Nat) : (s.enterUnfit c).outputFollowsRole := State.setRole_output c rfl

theorem State.enterClaiming_output {s : State} (h : s.outputFollowsRole) : s.enterClaiming.outputFollowsRole :=
  ite_output (fun _ => h) fun _ => State.setRole_output 0 rfl

theorem State.afterRelease_output (s : State) (c : Nat) : (s.afterRelease c).outputFollowsRole := by
  unfold State.afterRelease
  exact ite_output (fun _ => State.setPair_output rfl (State.setRole_output c rfl))
    fun _ => ite_output (fun _ => State.setRole_output c rfl) fun _ => State.enterSyncing_output _ c

theorem State.releaseActive_output {s : State} (c : Nat) (h : s.outputFollowsRole) : (s.releaseActive c).outputFollowsRole := by
  unfold State.releaseActive
  split
  · exact State.afterRelease_output _ c
  · exact State.setRole_output 0 rfl
  · exact h

theorem State.judgeHold_output {s : State} (t : Nat) (h : s.outputFollowsRole) : (s.judgeHold t).outputFollowsRole :=
  ite_output (fun _ => State.releaseActive_output 1 h) fun _ => h

theorem State.releaseIfFit_output {s : State} (c : Nat) (h : s.outputFollowsRole) : (s.releaseIfFit c).outputFollowsRole :=
  ite_output (fun _ => h) fun _ => ite_output (fun _ => State.releaseActive_output c h) fun _ =>
    output_of (State.bumpIf_only rfl (OnlyIn.refl _ _)) (State.setPair_output rfl h)

theorem State.becomeActive_output (s : State) (b : Bool) : (s.becomeActive b).outputFollowsRole := by
  have held := s.becomeActive_held b
  rw [Pair.held, Prod.mk.injEq, Prod.mk.injEq] at held
  rw [State.outputFollowsRole_iff, held.1, held.2.1]
  rfl

/-- The role starts with ACTIVE_O released, and UNFIT that is kept has it released too (R335, R337, R482). -/
theorem State.startRole_output (s : State) : s.startRole.outputFollowsRole := by
  have init : ∀ w : State, w.pair.activeO = false → (w.setRole .init 0).outputFollowsRole := fun w hw => State.setRole_output 0 hw
  unfold State.startRole
  dsimp only
  split
  · next kept =>
    rw [State.outputFollowsRole_iff]
    simp only [Bool.and_eq_true, beq_iff_eq, State.setPair_pair] at kept ⊢
    rw [kept.1.2]
    rfl
  · refine ite_output (fun _ => init _ rfl) fun _ => ?_
    split
    · exact ite_output (fun _ => State.enterUnfit_output _ 6) fun _ => State.enterClaiming_output (init _ rfl)
    · exact ite_output (fun _ => State.enterSyncing_output _ 0) fun _ => init _ rfl

theorem State.ctrlFail_output {s : State} (h : s.outputFollowsRole) : s.ctrlFail.outputFollowsRole := by
  unfold State.ctrlFail
  refine ite_output (fun _ => h) fun _ => State.releaseActive_output 3 (output_of ?_ h)
  exact State.forAll_only (fun n _ k => State.fastPath_only rfl rfl rfl k)
    (State.allOff_only rfl rfl (State.log_only rfl rfl rfl (OnlyIn.setSaf rfl (OnlyIn.refl _ s))))

/-! ## Resets and starts (R429, R431) -/

theorem State.startUp_output (s : State) (pins : Option BootPins) (st met : Bool) : (s.startUp pins st met).outputFollowsRole :=
  State.startRole_output _

theorem State.startAgain_output (s : State) (c : Nat) (pins : Option BootPins) (st : Bool) : (s.startAgain c pins st).outputFollowsRole :=
  output_of (State.log_only rfl rfl rfl (State.reconnect_only rfl (fun _ => rfl) (OnlyIn.refl _ _))) (s.startUp_output pins st (meters c))

/-- A reset leaves the role INIT, or UNFIT where a fault's release is kept, with ACTIVE_O released (R337, R431). -/
theorem State.resetAsserted_output (s : State) (c r : Nat) : (s.resetAsserted c r).outputFollowsRole := by
  have blank : ∀ w : State, (w.rebooted (meters c)).outputFollowsRole := fun w => (State.outputFollowsRole_iff _).2 rfl
  unfold State.resetAsserted
  refine output_of (State.countReset_only rfl (OnlyIn.refl _ _)) ?_
  generalize hw : ((s.releaseActive r).rebooted (meters c)).keepRecords _ = w
  have h : w.outputFollowsRole ∧ w.pair.activeO = false := by
    subst hw
    exact ⟨output_of (State.keepRecords_only rfl rfl (OnlyIn.refl _ _)) (blank _), rfl⟩
  exact ite_output (fun _ => (State.outputFollowsRole_iff _).2 h.2) fun _ => h.1

theorem State.resetNow_output (s : State) (c r : Nat) (pins : Option BootPins) (st : Bool) : (s.resetNow c r pins st).outputFollowsRole :=
  State.startAgain_output _ c pins st

theorem State.startActivation_output {s : State} (h : s.outputFollowsRole) : s.startActivation.outputFollowsRole := by
  have armed := output_of (u := s.updChange fun s => s.setUpd fun u => { u with large := { u.large with st := .activating } })
    (State.updChange_only rfl (fun _ k => (State.setUpd_only rfl (k))) (OnlyIn.refl _ s)) h
  exact ite_output (fun _ => ite_output (fun _ => armed) fun _ => State.resetNow_output _ _ _ _ _) fun _ => armed

/-! ## What the checks of a pair and of the Seljo link make of the role -/

theorem State.judgeRole_output {s : State} (h : s.outputFollowsRole) : s.judgeRole.outputFollowsRole := by
  unfold State.judgeRole
  split
  · exact ite_output (fun _ => output_of (State.bumpIf_only rfl (OnlyIn.refl _ _)) (State.setPair_output rfl h)) fun _ => State.enterUnfit_output _ _
  · next syncing =>
    refine ite_output (fun _ => State.setRole_output 0 ?_) fun _ => h
    rw [State.outputFollowsRole_iff, syncing] at h
    exact h
  · exact State.setPair_output rfl h
  · exact h

theorem State.yieldSide_output {s : State} (h : s.outputFollowsRole) : s.yieldSide.outputFollowsRole :=
  ite_output (fun _ => State.enterUnfit_output _ 6) fun _ => h

/-- A shadow that disagrees is SYNCING again: it had ACTIVE_O released (R343). -/
theorem State.diverge_output {s : State} (h : s.outputFollowsRole) (sh : s.shadows = true) : s.diverge.outputFollowsRole := by
  refine State.setRole_output 0 (?_ : s.pair.activeO = false)
  rw [State.outputFollowsRole_iff] at h
  simp only [State.shadows, Bool.and_eq_true, Bool.or_eq_true, beq_iff_eq] at sh
  rcases sh.2 with e | e
  · rw [h, e]; rfl
  · rw [h, e.1]; rfl

theorem State.judgePitch_output {s : State} (b d : Nat) (h : s.outputFollowsRole) : (s.judgePitch b d).outputFollowsRole := by
  unfold State.judgePitch
  split
  · split
    · exact h
    · next c =>
      have sh : s.shadows = true := by simpa using (not_or.1 c).2
      exact ite_output (fun _ => output_of (State.setSeljo_only rfl (OnlyIn.refl _ _)) h) fun _ => State.diverge_output h sh
  · exact h

theorem State.follow_output {s : State} (o : Int) (d : Nat) (h : s.outputFollowsRole) : (s.follow o d).outputFollowsRole := by
  refine ite_output (fun _ => State.enterUnfit_output _ 3) fun _ => output_of ?_ h
  have locked : ∀ c k f, OnlyIn (allSave .role) s
      (((if s.pair.seljo.stepPend && decide (0 < o) then s.stepTime o.toNat else s).setSeljo f).bumpIf c k) := fun c k f =>
    (State.bumpIf_only rfl (State.setSeljo_only rfl (OnlyIn.ite (State.stepTime_only rfl rfl rfl (OnlyIn.refl _ _)) (OnlyIn.refl _ s))))
  exact OnlyIn.ite (OnlyIn.ite (State.lockedSlew_only rfl rfl (locked _ _ _)) (State.trainLocked_only rfl rfl (fun _ => rfl) (locked _ _ _))) (locked
      _ _ _)

theorem State.seljoDown_output {s : State} (h : s.outputFollowsRole) : s.seljoDown.outputFollowsRole := by
  have down : ((s.setSeljo fun q => { q with up := false, crcStamps := [] }).bump 9 |>.forAll 12 fun b s => s.sendHeld b).outputFollowsRole :=
    output_of (State.forAll_only (fun b _ k => (State.sendHeld_only rfl (k))) (State.bump_only rfl (State.setSeljo_only rfl (OnlyIn.refl _ _)))) h
  exact ite_output (fun _ => h) fun _ => ite_output (fun _ => State.judgeRole_output down) fun _ => down

theorem State.seljoBad_output {s : State} (h : s.outputFollowsRole) : s.seljoBad.outputFollowsRole := by
  have counted := fun g => output_of (State.setSeljo_only rfl (OnlyIn.refl _ s)) (u := s.setSeljo g) h
  exact ite_output (fun _ => State.seljoDown_output (counted _)) fun _ => counted _

theorem seljoMsg_output {s : State} {t : Nat} {ty : Fin 9} {head : SeljoHead} {f : State → State}
    (hf : ∀ w : State, w.outputFollowsRole → (f w).outputFollowsRole) (h : s.outputFollowsRole) : (seljoMsg t ty head f s).outputFollowsRole :=
  whenLive_output (fun _ hw => ite_output (fun _ => hw) fun _ => ite_output (fun _ => State.seljoBad_output hw) fun _ =>
    hf _ (output_of (State.setSeljo_only rfl (OnlyIn.refl _ _)) hw)) h

theorem State.afterDeadline_output {s : State} (c : Option Nat) (h : s.outputFollowsRole) : (s.afterDeadline c).outputFollowsRole := by
  have rest : ∀ w : State, w.outputFollowsRole →
      (if w.pair.role ≠ .active then w.setPair fun p => { p with handoverPend := false }
       else if w.pair.handoverPend then ((w.setPair fun p => { p with handoverPend := false }).sendCtrl .released).releaseActive 0x0A
       else if w.upd.large.st = .activating ∧ w.stagedType = 1 then w.activationBoot else w).outputFollowsRole := fun w hw =>
    ite_output (fun _ => State.setPair_output rfl hw) fun _ =>
      ite_output (fun _ => State.releaseActive_output _ (output_of (State.sendCtrl_only rfl (OnlyIn.refl _ _)) (State.setPair_output rfl hw))) fun _
          =>
        ite_output (fun _ => State.resetNow_output _ _ _ _ _) fun _ => hw
  unfold State.afterDeadline
  cases c with
  | none => exact rest s h
  | some c => exact rest _ (State.releaseIfFit_output c h)

end Sys2Proof.Machine
end
section
/-! PROOFS. ACTIVE_O follows the role over every command (R332, R335): the commands that reach the role, one lemma each. -/
namespace Sys2Proof.Machine

/-! ## Commands of the role -/

theorem doActiveIAssert_output {s : State} (t : Nat) (h : s.outputFollowsRole) : (doActiveIAssert t s).outputFollowsRole := by
  refine whenLive_output (fun w hw => ?_) h
  have seen : ∀ (r : Pair → Nat) c, ((w.setPair fun p => { p with activeI := true, roleChange := r p }).bumpIf c 9).outputFollowsRole := fun r c =>
    output_of (State.bumpIf_only rfl (OnlyIn.refl _ _)) (State.setPair_output rfl hw)
  dsimp only
  split
  · exact ite_output (fun _ => State.enterUnfit_output _ 6) fun _ => State.enterSyncing_output _ 0
  · exact ite_output (fun _ => State.enterSyncing_output _ 0) fun _ => seen _ _
  · exact ite_output (fun _ => seen _ _) fun _ =>
      output_of (State.allOff_only rfl rfl (State.bumpIf_only rfl (State.holdAnew_only rfl (State.busFollow_only rfl (OnlyIn.refl _ _))))) (seen _ _)
  · exact seen _ _

theorem doClaimConfirm_output {s : State} (t : Nat) (h : s.outputFollowsRole) : (doClaimConfirm t s).outputFollowsRole :=
  whenLive_output (fun w hw => ite_output (fun _ => ite_output (fun _ => State.becomeActive_output _ false) fun _ =>
    ite_output (fun _ => hw) fun _ => State.becomeActive_output _ false) fun _ => hw) h

theorem doClaimConflictTimeout_output {s : State} (t : Nat) (h : s.outputFollowsRole) : (doClaimConflictTimeout t s).outputFollowsRole :=
  whenLive_output (fun w hw => ite_output (fun _ => w.startRole_output) fun _ => hw) h

theorem doInitWaitEnd_output {s : State} (t : Nat) (h : s.outputFollowsRole) : (doInitWaitEnd t s).outputFollowsRole :=
  whenLive_output (fun w hw => ite_output (fun _ => ite_output (fun _ => w.startRole_output) fun _ =>
    ite_output (fun _ => State.enterClaiming_output hw) fun _ => hw) fun _ => hw) h

theorem doTakeover_output {s : State} (t : Nat) (h : s.outputFollowsRole) : (doTakeover t s).outputFollowsRole :=
  whenLive_output (fun w hw => ite_output (fun _ => State.becomeActive_output _ true) fun _ => output_of (State.readReleased_only rfl rfl
      (OnlyIn.refl _ _)) hw) h

theorem doResyncElapsed_output {s : State} (t : Nat) (h : s.outputFollowsRole) : (doResyncElapsed t s).outputFollowsRole :=
  whenLive_output (fun w hw => ite_output (fun _ => ite_output (fun _ => State.startRole_output _) fun _ => State.enterSyncing_output w 0) fun _ =>
      hw) h

theorem doSyncTimeout_output {s : State} (t : Nat) (h : s.outputFollowsRole) : (doSyncTimeout t s).outputFollowsRole :=
  whenLive_output (fun w hw => ite_output (fun _ => State.enterUnfit_output w _) fun _ => hw) h

theorem doHealthCheck_output {s : State} (t : Nat) (h : s.outputFollowsRole) : (doHealthCheck t s).outputFollowsRole := by
  refine whenLive_output (fun w hw => State.judgeRole_output (output_of ?_ (w.judgeHold_output t hw))) h
  exact (State.askCapture_only rfl (State.sendHealth_only rfl (State.bumpIf_only rfl (State.setPair_only ⟨.inr rfl, .inl rfl⟩ (State.armHold_only rfl
      (OnlyIn.refl _ _))))))

theorem doHeartbeatFrame_output {s : State} (t : Nat) (b : Bytes) (h : s.outputFollowsRole) : (doHeartbeatFrame t b s).outputFollowsRole :=
  whenLive_output (fun w hw => ite_output (fun _ => State.yieldSide_output (output_of
    (State.checkInterlock_only rfl rfl rfl rfl rfl (State.bumpIf_only rfl (State.setPartner_only rfl (OnlyIn.refl _ _)))) hw)) fun _ => hw) h

theorem doProfileHandoverRelease_output {s : State} (t : Nat) (h : s.outputFollowsRole) : (doProfileHandoverRelease t s).outputFollowsRole := by
  refine whenLive_output (fun w hw => ?_) h
  split
  · split
    · exact ite_output (fun _ => output_of (State.cancelPending_only rfl rfl rfl rfl (OnlyIn.refl _ _)) hw) fun _ =>
        ite_output (fun _ => output_of (State.takeHandover_only rfl rfl rfl rfl rfl (fun _ => rfl) rfl rfl rfl rfl rfl rfl (OnlyIn.refl _ _))
            (State.releaseActive_output 0x0B (output_of (State.sendCtrl_only rfl (OnlyIn.refl _ _)) hw))) fun _ => hw
    · exact hw
  · exact hw

/-! ## Faults, resets and power -/

theorem doSafetyScan_output {s : State} (t : Nat) (rd : ScanReadings) (h : s.outputFollowsRole) : (doSafetyScan t rd s).outputFollowsRole := by
  have started : ((s.arrive t).startScan t).outputFollowsRole := output_of (State.startScan_only rfl (State.arrive_only rfl (OnlyIn.refl _ _))) h
  have scanned : ((if rd.agree then (s.arrive t).startScan t else ((s.arrive t).startScan t).ctrlFail).scanPairs t rd |>.readSo t
      rd).outputFollowsRole :=
    output_of (State.readSo_only rfl rfl rfl rfl (State.scanPairs_only rfl rfl rfl rfl (OnlyIn.refl _ _))) (ite_output (fun _ => started) fun _ =>
        State.ctrlFail_output started)
  exact ite_output (fun _ => output_of (State.arrive_only rfl (OnlyIn.refl _ _)) h) fun _ => ite_output (fun _ => output_of (State.scanActs_only rfl
      rfl rfl rfl rfl (fun _ => rfl) (fun _ => rfl) (fun _ => rfl) rfl rfl rfl rfl rfl (OnlyIn.refl _ _)) scanned) fun _ => scanned

theorem doBrownOut_output {s : State} (t : Nat) (h : s.outputFollowsRole) : (doBrownOut t s).outputFollowsRole :=
  ite_output (fun _ => output_of (State.elapse_only rfl (OnlyIn.refl _ _)) h) fun _ => State.resetAsserted_output (s.elapse t).noteRaw.noteCal 2 5

theorem doColdStart_output {s : State} (t raw : Nat) (pins : BootPins) (st : Bool) (h : s.outputFollowsRole) :
    (doColdStart t raw pins st s).outputFollowsRole :=
  ite_output (fun _ => State.startUp_output _ _ st false) fun _ => output_of (State.elapse_only rfl (OnlyIn.refl _ _)) h

theorem doInternalReset_output {s : State} (t c : Nat) (st : Bool) (h : s.outputFollowsRole) : (doInternalReset t c st s).outputFollowsRole :=
  whenLive_output (fun w hw => ite_output (fun _ => w.resetNow_output c _ none st) fun _ => hw) h

theorem doWatchdog_output {s : State} (t : Nat) (st : Bool) (h : s.outputFollowsRole) : (doWatchdog t st s).outputFollowsRole :=
  whenLive_output (fun w _ => w.resetNow_output 5 5 none st) h

theorem doLockstepDisagree_output {s : State} (t : Nat) (st : Bool) (h : s.outputFollowsRole) : (doLockstepDisagree t st s).outputFollowsRole :=
  whenLive_output (fun w _ => w.resetNow_output 4 2 none st) h

theorem doResetKey_output {s : State} (t : Nat) (m : Master) (k : Nat) (st : Bool) (h : s.outputFollowsRole) :
    (doResetKey t m k st s).outputFollowsRole :=
  whenLive_output (fun _ hw => State.command_output (fun v _ => v.resetNow_output 6 5 none st) hw) h

theorem doReferenceLoss_output {s : State} (t : Nat) (h : s.outputFollowsRole) : (doReferenceLoss t s).outputFollowsRole := by
  refine ite_output (fun _ => output_of (State.elapse_only rfl (OnlyIn.refl _ _)) h) fun _ => output_of (State.refreshAssume_only rfl rfl
      (State.bump_only rfl (State.gapAll_only rfl (OnlyIn.refl _ _)))) ?_
  exact (s.elapse t).resetAsserted_output 3 4

theorem doReferenceRestored_output {s : State} (t : Nat) (st : Bool) (h : s.outputFollowsRole) : (doReferenceRestored t st s).outputFollowsRole :=
  ite_output (fun _ => State.startAgain_output _ _ none st) fun _ => output_of (State.elapse_only rfl (OnlyIn.refl _ _)) h

theorem doRstN_output {s : State} (t : Nat) (p : ResetPulse) (st : Bool) (h : s.outputFollowsRole) : (doRstN t p st s).outputFollowsRole :=
  ite_output (fun _ => output_of (State.rstTakes_only rfl (State.elapse_only rfl (OnlyIn.refl _ _))) h) fun _ =>
    ite_output (fun _ => State.resetNow_output _ 1 5 _ st) fun _ =>
      output_of (OnlyIn.setPwr rfl (State.takePins_only rfl rfl rfl rfl rfl rfl (OnlyIn.refl _ _))) (State.resetAsserted_output ((s.elapse
          t).rstTakes p.lowNs).2 1 5)

theorem doJunctionTempCheck_output {s : State} (t : Nat) (x : Int) (h : s.outputFollowsRole) : (doJunctionTempCheck t x s).outputFollowsRole := by
  refine whenLive_output (fun w hw => ?_) h
  have measured : ∀ f c, ((w.setPwr f).bumpIf c 1).outputFollowsRole := fun f c => output_of (State.bumpIf_only rfl (State.setPwr_only rfl
      (OnlyIn.refl _ _))) hw
  have judged : ∀ f c (b : Bool), (if b then ((w.setPwr f).bumpIf c 1).releaseIfFit 9 else (w.setPwr f).bumpIf c 1).outputFollowsRole :=
    fun f c b => ite_output (fun _ => State.releaseIfFit_output 9 (measured f c)) fun _ => measured f c
  exact ite_output (fun _ => State.ctrlFail_output (judged _ _ _)) fun _ => judged _ _ _

theorem doSupplyOutOfRange_output {s : State} (t cv : Nat) (h : s.outputFollowsRole) : (doSupplyOutOfRange t cv s).outputFollowsRole := by
  refine whenLive_output (fun w hw => ?_) h
  have measured : ∀ f, (w.setPwr f).refreshAssume.outputFollowsRole := fun f => output_of (State.refreshAssume_only rfl rfl (State.setPwr_only rfl
      (OnlyIn.refl _ _))) hw
  exact ite_output (fun _ => State.releaseIfFit_output 9 (measured _)) fun _ => measured _

theorem State.dormantRelease_output {s : State} (h : s.outputFollowsRole) : s.dormantRelease.outputFollowsRole := by
  unfold State.dormantRelease
  dsimp only
  refine output_of (State.setPwr_only rfl (State.saveTime_only rfl (State.metStop_only rfl rfl (OnlyIn.refl _ _)))) (State.releaseActive_output 0x0C
      (output_of ?_ h))
  exact (State.allOff_only rfl rfl (State.auxFailAll_only rfl (State.forAll_only (fun n _ k => (State.linkOff_only rfl rfl (k))) (OnlyIn.refl _ s))))

theorem doDormantOutputRelease_output {s : State} (t : Nat) (h : s.outputFollowsRole) : (doDormantOutputRelease t s).outputFollowsRole :=
  whenLive_output (fun _ hw => ite_output (fun _ => State.dormantRelease_output hw) fun _ => hw) h

theorem State.wakeUp_output {s : State} (src : WakeSrc) (slot : Option (Fin 4)) (sl : Bool) (h : s.outputFollowsRole) :
    (s.wakeUp src slot sl).outputFollowsRole := by
  have left : (if s.pwr.st = .dormant then s.leaveDormant sl else s).outputFollowsRole :=
    ite_output (fun _ => output_of (State.leaveDormant_only rfl rfl rfl rfl rfl rfl rfl rfl rfl (OnlyIn.refl _ _)) h) fun _ => h
  have woken : ∀ f k, (((((if s.pwr.st = .dormant then s.leaveDormant sl else s).setPwr f).bump 1).wakeMeter sl).busWakes k).wakeAux.wakeSlot slot
      |>.outputFollowsRole := fun f k =>
    output_of (State.wakeSlot_only rfl rfl rfl rfl rfl rfl rfl rfl (fun _ => rfl) (fun _ => rfl) (fun _ => rfl) (fun _ => rfl) rfl rfl rfl rfl rfl
        rfl rfl rfl rfl (State.wakeAux_only rfl (State.busWakes_only rfl rfl (State.wakeMeter_only rfl rfl rfl rfl (State.bump_only rfl
        (State.setPwr_only rfl (OnlyIn.refl _ _))))))) left
  exact output_of (State.refreshAssume_only rfl rfl (OnlyIn.refl _ _)) (ite_output (fun _ => woken _ _) fun _ => State.startRole_output _)

theorem doDormantWake_output {s : State} (t : Nat) (src : WakeSrc) (h : s.outputFollowsRole) : (doDormantWake t src s).outputFollowsRole := by
  have e : (s.elapse t).outputFollowsRole := output_of (State.elapse_only rfl (OnlyIn.refl _ _)) h
  exact ite_output (fun _ => e) fun _ => ite_output (fun _ => State.wakeUp_output src _ _ e) fun _ =>
    ite_output (fun _ => State.wakeUp_output src _ _ e) fun _ => e

theorem doBusWake_output {s : State} (t : Nat) (b : BusWake) (h : s.outputFollowsRole) : (doBusWake t b s).outputFollowsRole := by
  have e : (s.elapse t).outputFollowsRole := output_of (State.elapse_only rfl (OnlyIn.refl _ _)) h
  exact ite_output (fun _ => e) fun _ => ite_output (fun _ => doDormantWake_output t (.sbus b) e) fun _ =>
    ite_output (fun _ => output_of (State.busWakes_only rfl rfl (OnlyIn.refl _ _)) e) fun _ => e

theorem doDormantCommit_output {s : State} (t : Nat) (h : s.outputFollowsRole) : (doDormantCommit t s).outputFollowsRole := by
  refine whenLive_output (fun w hw => ?_) h
  dsimp only
  split
  · exact hw
  · refine ite_output (fun _ => hw) fun _ => ?_
    split
    · exact State.wakeUp_output _ _ _ hw
    · exact output_of (State.refreshAssume_only rfl rfl (OnlyIn.setMet rfl (State.setRtc_only rfl (State.noteCal_only rfl (State.holdLockouts_only
        rfl rfl rfl (State.bump_only rfl (State.setClk_only rfl (State.setPwr_only rfl (OnlyIn.refl _ _))))))))) hw

/-! ## Activations of firmware -/

theorem doScheduledActivation_output {s : State} (t : Nat) (h : s.outputFollowsRole) : (doScheduledActivation t s).outputFollowsRole :=
  whenLive_output (fun _ hw => ite_output (fun _ => State.startActivation_output hw) fun _ => output_of (State.skipLate_only rfl rfl rfl rfl
      (OnlyIn.refl _ _)) hw) h

theorem doHandoverActivation_output {s : State} (t : Nat) (h : s.outputFollowsRole) : (doHandoverActivation t s).outputFollowsRole :=
  whenLive_output (fun _ hw => ite_output (fun _ => State.startActivation_output (output_of (State.handoverLate_only rfl rfl (OnlyIn.refl _ _)) hw))
      fun _ =>
    output_of (State.handoverLate_only rfl rfl (OnlyIn.refl _ _)) hw) h

/-! ## Ticks and pitches -/

theorem doTickStart_output {s : State} (t : Nat) (rd : TickReadings) (h : s.outputFollowsRole) : (doTickStart t rd s).outputFollowsRole := by
  refine whenLive_output (fun w hw => ite_output (fun _ => output_of ?_ (w.judgeHold_output t hw)) fun _ => hw) h
  exact (State.clearBusLoad_only rfl rfl (State.judgeBusLoad_only rfl rfl (State.auxTick_only rfl rfl rfl (State.coolTick_only rfl rfl rfl rfl
      (State.tickRampDown_only rfl rfl rfl rfl (fun _ => rfl) (fun _ => rfl) rfl rfl rfl (State.tickShedding_only rfl (fun _ => rfl) rfl
      (State.tickRearm_only (fun _ => rfl) (State.tickStops_only rfl rfl rfl rfl (fun _ => rfl) rfl rfl rfl (State.tickClear_only rfl rfl rfl rfl rfl
      rfl rfl rfl (State.tickBids_only rfl (fun _ => rfl) (State.tickClamp_only rfl rfl rfl rfl rfl (State.tickLive_only rfl (State.tickTakeOver_only
      rfl rfl rfl rfl rfl (State.armHold_only rfl (OnlyIn.refl _ _)))))))))))))))

theorem doClearingCommit_output {s : State} (t : Nat) (h : s.outputFollowsRole) : (doClearingCommit t s).outputFollowsRole := by
  refine whenLive_output (fun w hw => ?_) h
  have held := w.judgeHold_output t hw
  dsimp only
  split
  · refine ite_output (fun _ => output_of ?_ held) fun _ => held
    exact (State.retake_only rfl rfl (fun _ => rfl) rfl rfl (State.forAll_only (fun b _ k => OnlyIn.ite (State.tryCableTarget_only rfl rfl (k)) k)
        (State.commitTick_only rfl rfl (fun _ => rfl) rfl rfl rfl (State.sessTimeouts_only rfl rfl rfl (fun _ => rfl) (fun _ => rfl) (fun _ => rfl)
        rfl rfl rfl (OnlyIn.ite (State.refreshTick_only rfl (OnlyIn.refl _ _)) (OnlyIn.refl _ _))))))
  · exact held

theorem doComputeWindowOpen_output {s : State} (t : Nat) (h : s.outputFollowsRole) : (doComputeWindowOpen t s).outputFollowsRole := by
  refine whenLive_output (fun w hw => ite_output (fun _ => output_of ?_ (w.judgeHold_output t hw)) fun _ => w.judgeHold_output t hw) h
  exact (State.sendPitch_only rfl (State.openWindow_only rfl rfl (fun _ => rfl) (fun _ => rfl) rfl rfl (State.armHold_only rfl (OnlyIn.ite
      (State.forAll_only (fun n _ k => (State.takeOwn_only rfl rfl rfl (fun _ => rfl) rfl (fun _ => rfl) (fun _ => rfl) rfl rfl rfl rfl (k)))
      (OnlyIn.refl _ _)) (OnlyIn.refl _ _)))))

theorem doComputeDeadline_output {s : State} (t : Nat) (ecc : List EccEvent) (mc : List Nat) (h : s.outputFollowsRole) :
    (doComputeDeadline t ecc mc s).outputFollowsRole := by
  refine whenLive_output (fun w hw => ?_) h
  have held := w.judgeHold_output t hw
  dsimp only
  split
  · next img _ =>
    have ended : ∀ (c : Bool) b, (if c then ((w.judgeHold t).endPitch img ecc mc).refreshPitch b else (w.judgeHold t).endPitch img ecc
        mc).outputFollowsRole :=
      fun c b => output_of (OnlyIn.ite (State.refreshPitch_only rfl (State.endPitch_only rfl rfl rfl rfl (fun _ => rfl) rfl rfl rfl (OnlyIn.refl _
          _))) (State.endPitch_only rfl rfl rfl rfl (fun _ => rfl) rfl rfl rfl (OnlyIn.refl _ _))) held
    exact ite_output (fun _ => ite_output (fun _ => ite_output (fun _ => output_of (State.finishHandover_only rfl rfl rfl rfl rfl (fun _ => rfl) rfl
        rfl rfl rfl rfl rfl (OnlyIn.refl _ _)) (ended _ _)) fun _ => ended _ _) fun _ =>
      ite_output (fun _ => State.afterDeadline_output _ (ended _ _)) fun _ => ended _ _) fun _ => held
  · exact held

/-! ## The Seljo link -/

theorem doSeljoLinkDown_output {s : State} (t : Nat) (h : s.outputFollowsRole) : (doSeljoLinkDown t s).outputFollowsRole :=
  whenLive_output (fun _ hw => State.seljoDown_output hw) h

theorem doSeljoLinkUp_output {s : State} (t : Nat) (h : s.outputFollowsRole) : (doSeljoLinkUp t s).outputFollowsRole := by
  refine whenLive_output (fun w hw => ite_output (fun _ => hw) fun _ => ?_) h
  dsimp only
  have up : ((w.setSeljo fun q => { q with up := true }).bump 9).outputFollowsRole := output_of (State.bump_only rfl (State.setSeljo_only rfl
      (OnlyIn.refl _ _))) hw
  split
  · exact State.enterSyncing_output _ 0
  · exact output_of (State.setSeljo_only rfl (OnlyIn.refl _ _)) up
  · exact up

theorem doSeljoTime_output {s : State} (t : Nat) (hd : SeljoHead) (t1 t2 t3 t4 : Nat) (h : s.outputFollowsRole) :
    (doSeljoTime t hd t1 t2 t3 t4 s).outputFollowsRole := by
  refine seljoMsg_output (fun w hw => ?_) h
  have known := output_of (u := w.setSeljo fun q => { q with offset := clampInt (-32768) 32767 (seljoOffset t1 t2 t3 t4) }) (State.setSeljo_only rfl
      (OnlyIn.refl _ _)) hw
  exact ite_output (fun _ => State.follow_output _ _ known) fun _ => known

theorem doSeljoHealth_output {s : State} (t : Nat) (hd : SeljoHead) (b : Nat) (h : s.outputFollowsRole) :
    (doSeljoHealth t hd b s).outputFollowsRole :=
  seljoMsg_output (fun _ hw => output_of (State.bumpIf_only rfl (State.setPartner_only rfl (OnlyIn.refl _ _))) hw) h

theorem doSeljoCtrl_output {s : State} (t : Nat) (hd : SeljoHead) (c : CtrlStep) (h : s.outputFollowsRole) :
    (doSeljoCtrl t hd c s).outputFollowsRole := by
  refine seljoMsg_output (fun w hw => ?_) h
  split
  · exact output_of (State.setSeljo_only rfl (OnlyIn.refl _ _)) hw
  · exact hw
  · exact ite_output (fun _ => output_of (State.partnerHolds_only rfl rfl (OnlyIn.refl _ _)) hw) fun _ => ite_output (fun _ => output_of
      (State.startCheck_only rfl rfl (OnlyIn.refl _ _)) hw) fun _ => hw

theorem doSeljoPitch_output {s : State} (t : Nat) (hd : SeljoHead) (msg : PitchMsg) (h : s.outputFollowsRole) :
    (doSeljoPitch t hd msg s).outputFollowsRole := by
  refine seljoMsg_output (fun w hw => ?_) h
  dsimp only
  split
  · refine ite_output (fun _ => hw) fun _ => ?_
    have taken := fun x => output_of (u := (w.judgePitch hd.time msg.digest).setSeljo fun q => { q with pitch := x }) (State.setSeljo_only rfl
        (OnlyIn.refl _ _))
      (State.judgePitch_output _ _ hw)
    exact ite_output (fun _ => taken _) fun _ => output_of (State.setSeljo_only rfl (OnlyIn.refl _ _)) (taken _)
  · exact hw

theorem doSeljoTick_output {s : State} (t : Nat) (hd : SeljoHead) (snap : TickSnap) (d : Nat) (h : s.outputFollowsRole) :
    (doSeljoTick t hd snap d s).outputFollowsRole := by
  refine seljoMsg_output (fun w hw => ?_) h
  refine (fun judged => ite_output (fun _ => output_of (State.clearOn_only rfl (State.setSeljo_only rfl (OnlyIn.refl _ _))) judged) fun _ => judged)
      ?_
  split
  · split
    · exact hw
    · next c => exact ite_output (fun _ => output_of (State.setSeljo_only rfl (OnlyIn.refl _ _)) hw) fun _ => State.diverge_output hw (by simpa using
        (not_or.1 c).2)
  · exact hw

theorem doSeljoSession_output {s : State} (t : Nat) (hd : SeljoHead) (b : Fin 12) (q : Session) (h : s.outputFollowsRole) :
    (doSeljoSession t hd b q s).outputFollowsRole :=
  seljoMsg_output (fun _ hw => ite_output (fun _ => hw) fun _ => ite_output (fun _ => output_of (State.serveUse_only rfl rfl rfl rfl rfl (OnlyIn.refl
      _ _)) hw) fun _ =>
    output_of (State.setSeljo_only rfl (State.takeSession_only rfl rfl rfl rfl (State.serveUse_only rfl rfl rfl rfl rfl (OnlyIn.refl _ _)))) hw) h

theorem doSeljoState_output {s : State} (t : Nat) (hd : SeljoHead) (msg : StateMsg) (h : s.outputFollowsRole) :
    (doSeljoState t hd msg s).outputFollowsRole :=
  seljoMsg_output (fun _ hw => ite_output (fun _ => hw) fun _ => output_of (State.askCapture_only rfl (State.setSeljo_only rfl (State.takeState_only
      (fun _ => rfl) rfl rfl rfl (OnlyIn.refl _ _)))) hw) h

theorem doSeljoCapture_output {s : State} (t : Nat) (hd : SeljoHead) (tiles : List TileWords) (h : s.outputFollowsRole) :
    (doSeljoCapture t hd tiles s).outputFollowsRole := by
  refine seljoMsg_output (fun w hw => ite_output (fun _ => output_of (State.setSeljo_only rfl (OnlyIn.refl _ _)) hw) fun _ => ?_) h
  dsimp only
  split
  · refine ite_output (fun _ => output_of ?_ hw) fun _ => hw
    exact (State.setSeljo_only rfl (OnlyIn.foldl (fun _ p k => (State.replayPitch_only rfl rfl rfl rfl (fun _ => rfl) (fun _ => rfl) (fun _ => rfl)
        (fun _ => rfl) rfl rfl rfl rfl (k))) (OnlyIn.setLat rfl (OnlyIn.refl _ w))))
  · exact hw

/-! ## Writes of registers: the reset key is the one that reaches the role -/

theorem State.pwrCtrlWrite_output {s : State} (m : Master) (v : Nat) (h : s.outputFollowsRole) : (s.pwrCtrlWrite m v).1.outputFollowsRole := by
  unfold State.pwrCtrlWrite
  dsimp only
  split
  · split
    · exact h
    · exact State.resetNow_output _ _ _ _ _
  · refine output_of ?_ h
    have word : OnlyIn (allSave .role) s
        (if v.testBit 1 && s.pwr.pfw then (s, ⟨.busy, .mram⟩) else if v.testBit 0 then s.dormantWrite else (s, okAnswer)).1 :=
      OnlyIn.iteFst (OnlyIn.refl _ s) (OnlyIn.iteFst (State.dormantWrite_only rfl rfl rfl (OnlyIn.refl _ _)) (OnlyIn.refl _ s))
    revert word
    generalize (if v.testBit 1 && s.pwr.pfw then (s, (⟨.busy, .mram⟩ : Answer)) else if v.testBit 0 then s.dormantWrite else (s, okAnswer)) = r
    exact fun word => OnlyIn.iteFst (OnlyIn.pairFst (State.setPwr_only rfl (word))) word

theorem State.writeMapped_output {s : State} (m : Master) (a v : Nat) (h : s.outputFollowsRole) : (s.writeMapped m a v).1.outputFollowsRole := by
  unfold State.writeMapped
  split
  · exact output_of (State.profCtrlWrite_only rfl rfl rfl rfl (OnlyIn.refl _ _)) h
  · exact output_of (State.lockCtrlWrite_only rfl rfl rfl rfl rfl (OnlyIn.refl _ _)) h
  · exact State.pwrCtrlWrite_output m v h
  · exact output_of (State.safCtrlWrite_only rfl rfl rfl rfl rfl rfl (OnlyIn.refl _ _)) h
  · exact output_of (State.lcWrite_only rfl rfl rfl rfl (OnlyIn.refl _ _)) h
  · exact output_of (State.updCtrlWrite_only rfl rfl rfl rfl rfl rfl rfl rfl rfl rfl (OnlyIn.refl _ _)) h
  · exact output_of (State.actWrite_only rfl rfl (OnlyIn.refl _ _)) h
  · split
    · next e =>
      exact output_of (State.applyEffect_only rfl (EffsIn.ite (lowEffect_eff rfl rfl rfl rfl rfl rfl rfl rfl rfl rfl (fun _ => rfl) (fun _ => rfl)
          (fun _ => rfl) (fun _ => rfl) (fun _ => rfl) rfl rfl rfl rfl) (highEffect_eff rfl rfl rfl rfl rfl rfl rfl rfl rfl rfl rfl rfl rfl rfl rfl
          rfl rfl) _ e) (OnlyIn.refl _ s)) h
    · exact h

theorem State.writeWord_output {s : State} (m : Master) (a v : Nat) (h : s.outputFollowsRole) : (s.writeWord m a v).1.outputFollowsRole := by
  unfold State.writeWord
  split
  · exact output_of (OnlyIn.iteFst (OnlyIn.refl _ s) (OnlyIn.iteFst (State.storeCore_only rfl (OnlyIn.refl _ _)) (OnlyIn.refl _ s))) h
  · split
    · exact h
    · split
      · exact h
      · split
        · exact h
        · exact State.writeMapped_output m a v h

theorem writeWords_output {s : State} (m : Master) (a i : Nat) (ws : List Nat) (h : s.outputFollowsRole) : (writeWords m s a i
    ws).state.outputFollowsRole := by
  induction ws generalizing s a i with
  | nil => exact h
  | cons v vs ih =>
    have written : ((s.writeWord m a v).1.answered m true a (s.writeWord m a v).2).outputFollowsRole :=
      output_of (State.answered_only rfl rfl rfl rfl rfl (OnlyIn.refl _ _)) (State.writeWord_output m a v h)
    unfold writeWords
    dsimp only
    split
    · exact written
    · split
      · exact written
      · exact ih _ _ written

theorem doRegisterWrite_output {s : State} (t : Nat) (m : Master) (a : Nat) (v : Word) (h : s.outputFollowsRole) :
    (doRegisterWrite t m a v s).outputFollowsRole :=
  whenLive_output (fun _ hw => output_of (State.answered_only rfl rfl rfl rfl rfl (OnlyIn.refl _ _)) (State.writeWord_output m a v.toNat hw)) h

theorem State.transaction_output {s : State} (m : Master) (op : TallyOp) (tag a n : Nat) (p : Bytes) (ok : Bool) {f : Option Request → State → State}
    (hf : ∀ q (w : State), w.outputFollowsRole → (f q w).outputFollowsRole) (h : s.outputFollowsRole) :
    (s.transaction m op tag a n p ok f).outputFollowsRole := by
  unfold State.transaction
  split
  · refine ite_output (fun _ => h) fun _ => ?_
    have popped : (s.popRequest m).outputFollowsRole := output_of (State.popRequest_only rfl (OnlyIn.refl _ _)) h
    dsimp only
    split
    · exact output_of (State.sendKept_only rfl rfl rfl rfl (OnlyIn.refl _ _)) popped
    · exact hf _ _ popped
  · have counted : ∀ k, (if m = .udp ∨ m = .spi then s.countHost k else s).outputFollowsRole := fun k =>
      output_of (OnlyIn.ite (State.countHost_only rfl rfl rfl (OnlyIn.refl _ _)) (OnlyIn.refl _ s)) h
    exact ite_output (fun _ => hf _ _ (counted _)) fun _ => counted _

theorem doWrite_output {s : State} (t : Nat) (m : Master) (tag a : Nat) (ws : List Word) (h : s.outputFollowsRole) :
    (doWrite t m tag a ws s).outputFollowsRole := by
  refine whenLive_output (fun w hw => State.transaction_output m .write tag a _ _ _ (fun q v hv => ?_) hw) h
  have written := writeWords_output m a 0 (ws.map (·.toNat)) hv
  exact ite_output (fun _ => written) fun _ => output_of (State.finish_only rfl rfl rfl rfl (OnlyIn.refl _ _)) written

/-! ## Every step -/

/-- A command whose reach leaves the role out keeps the relation by its frame. -/
theorem exec_output_of_frame {c : Instr} {s : State} (hr : reach c .role = false) (h : s.outputFollowsRole) :
    ∃ u, exec c s = .next u ∧ u.outputFollowsRole := by
  obtain ⟨u, hu, frame⟩ := exec_reaches c s
  refine ⟨u, hu, ?_⟩
  have e := frame.keeps_role hr
  rw [Prod.mk.injEq] at e
  rw [State.outputFollowsRole, e.1, e.2]
  exact h

theorem exec_output (c : Instr) {s : State} (h : s.outputFollowsRole) : ∃ u, exec c s = .next u ∧ u.outputFollowsRole := by
  cases c with
  | activeIAssert => exact ⟨_, rfl, doActiveIAssert_output _ h⟩
  | claimConfirm => exact ⟨_, rfl, doClaimConfirm_output _ h⟩
  | claimConflictTimeout => exact ⟨_, rfl, doClaimConflictTimeout_output _ h⟩
  | initWaitEnd => exact ⟨_, rfl, doInitWaitEnd_output _ h⟩
  | takeover => exact ⟨_, rfl, doTakeover_output _ h⟩
  | resyncElapsed => exact ⟨_, rfl, doResyncElapsed_output _ h⟩
  | syncTimeout => exact ⟨_, rfl, doSyncTimeout_output _ h⟩
  | healthCheck => exact ⟨_, rfl, doHealthCheck_output _ h⟩
  | heartbeatFrame => exact ⟨_, rfl, doHeartbeatFrame_output _ _ h⟩
  | profileHandoverRelease => exact ⟨_, rfl, doProfileHandoverRelease_output _ h⟩
  | safetyScan => exact ⟨_, rfl, doSafetyScan_output _ _ h⟩
  | brownOut => exact ⟨_, rfl, doBrownOut_output _ h⟩
  | coldStart => exact ⟨_, rfl, doColdStart_output _ _ _ _ h⟩
  | internalReset => exact ⟨_, rfl, doInternalReset_output _ _ _ h⟩
  | watchdog => exact ⟨_, rfl, doWatchdog_output _ _ h⟩
  | lockstepDisagree => exact ⟨_, rfl, doLockstepDisagree_output _ _ h⟩
  | resetKey => exact ⟨_, rfl, doResetKey_output _ _ _ _ h⟩
  | referenceLoss => exact ⟨_, rfl, doReferenceLoss_output _ h⟩
  | referenceRestored => exact ⟨_, rfl, doReferenceRestored_output _ _ h⟩
  | rstN => exact ⟨_, rfl, doRstN_output _ _ _ h⟩
  | junctionTempCheck => exact ⟨_, rfl, doJunctionTempCheck_output _ _ h⟩
  | supplyOutOfRange => exact ⟨_, rfl, doSupplyOutOfRange_output _ _ h⟩
  | dormantOutputRelease => exact ⟨_, rfl, doDormantOutputRelease_output _ h⟩
  | dormantWake => exact ⟨_, rfl, doDormantWake_output _ _ h⟩
  | busWake => exact ⟨_, rfl, doBusWake_output _ _ h⟩
  | dormantCommit => exact ⟨_, rfl, doDormantCommit_output _ h⟩
  | scheduledActivation => exact ⟨_, rfl, doScheduledActivation_output _ h⟩
  | handoverActivation => exact ⟨_, rfl, doHandoverActivation_output _ h⟩
  | tickStart => exact ⟨_, rfl, doTickStart_output _ _ h⟩
  | clearingCommit => exact ⟨_, rfl, doClearingCommit_output _ h⟩
  | computeWindowOpen => exact ⟨_, rfl, doComputeWindowOpen_output _ h⟩
  | computeDeadline => exact ⟨_, rfl, doComputeDeadline_output _ _ _ h⟩
  | seljoLinkDown => exact ⟨_, rfl, doSeljoLinkDown_output _ h⟩
  | seljoLinkUp => exact ⟨_, rfl, doSeljoLinkUp_output _ h⟩
  | seljoTime => exact ⟨_, rfl, doSeljoTime_output _ _ _ _ _ _ h⟩
  | seljoHealth => exact ⟨_, rfl, doSeljoHealth_output _ _ _ h⟩
  | seljoCtrl => exact ⟨_, rfl, doSeljoCtrl_output _ _ _ h⟩
  | seljoPitch => exact ⟨_, rfl, doSeljoPitch_output _ _ _ h⟩
  | seljoTick => exact ⟨_, rfl, doSeljoTick_output _ _ _ _ h⟩
  | seljoSession => exact ⟨_, rfl, doSeljoSession_output _ _ _ _ h⟩
  | seljoState => exact ⟨_, rfl, doSeljoState_output _ _ _ h⟩
  | seljoCapture => exact ⟨_, rfl, doSeljoCapture_output _ _ _ h⟩
  | registerWrite => exact ⟨_, rfl, doRegisterWrite_output _ _ _ _ h⟩
  | write => exact ⟨_, rfl, doWrite_output _ _ _ _ _ h⟩
  | _ => exact exec_output_of_frame rfl h

/-- Settles O6: the commands that reach the role one by one, every other command by its frame. -/
theorem outputFollowsRole : Obligations.OutputFollowsRole := by
  unfold Obligations.OutputFollowsRole
  intro s u h hu
  rcases hq : s.pending with _ | ⟨c, rest⟩
  · rw [emptyQueueIdles s hq] at hu
    exact Host.Outcome.next.inj hu ▸ h
  · obtain ⟨v, hv, out⟩ := exec_output c (s := { s with pending := rest }) h
    have e : exec c { s with pending := rest } = .next u := by rw [← hu, step, hq]
    rw [hv] at e
    exact Host.Outcome.next.inj e ▸ out

end Sys2Proof.Machine
end

section
/-! PROOFS. What ends ALIGN, TRAIN, RUN and FAULT of a stall link (R99, R103, R340). -/
namespace Sys2Proof.Machine

@[simp] theorem State.arrive_mayTrain (s : State) (t : Nat) : (s.arrive t).mayTrain = s.mayTrain := rfl

theorem State.mayTrain_iff (s : State) : s.mayTrain = true ↔ s.pair.mode ≠ .full ∨ s.active = true ∨ s.pair.seljo.lock = true := by
  simp [State.mayTrain, or_assoc]

/-- Entry to TRAIN in a module that may train: the exchange begins with no estimate (R99, R101). -/
theorem State.linkTrain_link {s : State} (n : Fin 64) (h : s.mayTrain = true) :
    let l := (s.linkTrain n).stalls[n].link
    l.st = .train ∧ l.entered = s.mt ∧ l.estimates = [] := by
  simp [-Fin.getElem_fin, State.linkTrain, h, State.sendConfig_link]

/-- Entry to ALIGN after a fault (R99). -/
@[simp] theorem State.linkAlign_self (s : State) (n : Fin 64) : (s.linkAlign n).stalls[n] =
    { s.stalls[n] with link := { s.stalls[n].link with st := .align, entered := s.mt, out := .idl } } := by
  unfold State.linkAlign
  rw [State.bump_stalls, State.setLink_self]

/-- Entry to ALIGN by a link that fell in RUN (R99, R103). -/
theorem State.linkDown_link (s : State) (n : Fin 64) (c : Nat) : (s.linkDown n c).stalls[n].link =
    { s.stalls[n].link with st := .align, entered := s.mt, out := .idl, faultCode := c, evtDown := satInc 8 s.stalls[n].link.evtDown } := by
  unfold State.linkDown
  rw [State.bump_stalls, State.setStall_self, State.setLink_self]
  rfl

theorem linkAligned_trains {s : State} {t : Nat} {n : Fin 64} (hl : s.live = true) (ha : s.stalls[n].link.st = .align)
    (ht : t ≤ s.stalls[n].link.entered + ms 1) (hm : s.mayTrain = true) :
    Completes (.linkAligned t n) s fun u =>
      u.stalls[n].link.st = .train ∧ u.stalls[n].link.entered = max s.mt t ∧ u.stalls[n].link.estimates = [] := by
  refine Completes.live hl rfl ?_
  rw [if_pos (by simp [-Fin.getElem_fin, ha, not_expired ht, hm])]
  exact State.linkTrain_link n hm

theorem linkAligned_waits {s : State} {t : Nat} {n : Fin 64} (hl : s.live = true) (hm : s.mayTrain = false) :
    exec (.linkAligned t n) s = .next (s.arrive t) := by
  rw [exec_live hl rfl, if_neg (by simp [hm])]

theorem alignTimeout_faults {s : State} {t : Nat} {n : Fin 64} (hl : s.live = true) (ha : s.stalls[n].link.st = .align)
    (ht : s.stalls[n].link.entered + ms 1 < t) :
    Completes (.alignTimeout t n) s fun u =>
      u.stalls[n].link.st = .fault ∧ u.stalls[n].link.faultCode = 1 ∧ u.stalls[n].link.entered = max s.mt t := by
  refine Completes.live hl rfl ?_
  rw [if_pos (by simp [-Fin.getElem_fin, ha, is_expired ht]), State.linkFault_self]
  exact ⟨rfl, rfl, rfl⟩

theorem trainTimeout_faults {s : State} {t : Nat} {n : Fin 64} (hl : s.live = true) (ha : s.stalls[n].link.st = .train)
    (ht : s.stalls[n].link.entered + ms 2 < t) :
    Completes (.trainTimeout t n) s fun u =>
      u.stalls[n].link.st = .fault ∧ u.stalls[n].link.faultCode = 2 ∧ u.stalls[n].link.entered = max s.mt t := by
  refine Completes.live hl rfl ?_
  rw [if_pos (by simp [-Fin.getElem_fin, ha, is_expired ht]), State.linkFault_self]
  exact ⟨rfl, rfl, rfl⟩

theorem linkDownCode_aligns {s : State} {t : Nat} {n : Fin 64} (hl : s.live = true) (hr : s.stalls[n].link.st = .run) :
    Completes (.linkDownCode t n) s fun u => u.stalls[n].link.st = .align ∧ u.stalls[n].link.faultCode = 8 ∧
      u.stalls[n].link.evtDown = satInc 8 s.stalls[n].link.evtDown := by
  refine Completes.live hl rfl ?_
  rw [if_pos (by simp [-Fin.getElem_fin, hr]), State.linkDown_link]
  exact ⟨rfl, rfl, rfl⟩

theorem linkDownSilent_aligns {s : State} {t : Nat} {n : Fin 64} (hl : s.live = true) (hr : s.stalls[n].link.st = .run)
    (hs : 64 ≤ s.stalls[n].link.silent) :
    Completes (.linkDownSilent t n) s fun u => u.stalls[n].link.st = .align ∧ u.stalls[n].link.faultCode = 9 ∧
      u.stalls[n].link.evtDown = satInc 8 s.stalls[n].link.evtDown := by
  refine Completes.live hl rfl ?_
  rw [if_pos (by simp [-Fin.getElem_fin, hr, hs]), State.linkDown_link]
  exact ⟨rfl, rfl, rfl⟩

theorem linkFaultRetry_aligns {s : State} {t : Nat} {n : Fin 64} (hl : s.live = true) (hf : s.stalls[n].link.st = .fault)
    (ht : s.stalls[n].link.entered + ms 100 ≤ t) :
    Completes (.linkFaultRetry t n) s fun u => u.stalls[n].link.st = .align ∧ u.stalls[n].link.entered = max s.mt t := by
  refine Completes.live hl rfl ?_
  rw [if_pos (by simp [-Fin.getElem_fin, hf, ht]), State.linkAlign_self]
  exact ⟨rfl, rfl⟩

/-- Settles O9: each row of R99 by the link state it enters. -/
theorem linkSteps : Obligations.LinkSteps := by
  unfold Obligations.LinkSteps
  intro s t n hl
  exact ⟨linkAligned_trains hl, s.mayTrain_iff, linkAligned_waits hl, alignTimeout_faults hl, trainTimeout_faults hl, linkDownCode_aligns hl,
    linkDownSilent_aligns hl, linkFaultRetry_aligns hl⟩

end Sys2Proof.Machine
end
section
/-! PROOFS. What a training reply does (R74, R101 to R103, R340). -/
namespace Sys2Proof.Machine

@[simp] theorem State.setLink_replyRefusal (s : State) (k n : Fin 64) (f : Link → Link) (r : TrainReply) :
    replyRefusal (s.setLink k f) n r = replyRefusal s n r := rfl

/-! ## The reply of a link in TRAIN -/

theorem State.takeReply_refused {s : State} {n : Fin 64} {suf c : Nat} {r : TrainReply} (h : replyRefusal s n r = some c) :
    (s.takeReply n suf r).stalls[n].link.st = .fault ∧ (s.takeReply n suf r).stalls[n].link.faultCode = c := by
  simp [-Fin.getElem_fin, State.takeReply, h]

/-- The confirming reply ends the training (R101). -/
theorem State.takeReply_confirms {s : State} {n : Fin 64} {suf : Nat} {r : TrainReply} (h : replyRefusal s n r = none)
    (hc : s.stalls[n].link.confirming = true) :
    let l := (s.takeReply n suf r).stalls[n].link
    l.st = .run ∧ l.runFrom = s.nextBoundary s.mt ∧ l.iFs = r.iFs := by
  have run : ∀ w : State, ((w.linkRun n).restartOpen n).stalls[n].link.st = .run ∧
      ((w.linkRun n).restartOpen n).stalls[n].link.runFrom = w.nextBoundary w.mt ∧
      ((w.linkRun n).restartOpen n).stalls[n].link.iFs = w.stalls[n].link.iFs := fun w => by
    obtain ⟨_, e⟩ := w.linkRun_link n
    rw [State.restartOpen_link, e]
    exact ⟨rfl, rfl, rfl⟩
  have after := run (s.setLink n fun l =>
    { l with turnNs := r.turnNs, hwVer := r.hwVer, cellFitted := r.fitted, tLoad := r.tLoad, portNo := bits r.ports 1 1,
             dual := r.ports.testBit 0, iFs := r.iFs, vFs := r.vFs, maker := r.maker })
  rw [State.setLink_nextBoundary, State.setLink_self, State.setLink_mt] at after
  simpa only [State.takeReply, State.setLink_replyRefusal, h, hc, if_true] using after

/-- The estimates of a link with that of the present reply (R101). -/
def estimatesWith (l : Link) (suf : Nat) (r : TrainReply) : List Int := l.estimates ++ [-((-((suf : Int) - l.txTime - r.turnNs)) / 2)]

/-- One of the first three estimates continues the exchange (R101). -/
theorem State.takeReply_continues {s : State} {n : Fin 64} {suf : Nat} {r : TrainReply} (h : replyRefusal s n r = none)
    (hc : s.stalls[n].link.confirming = false) (he : s.stalls[n].link.estimates.length < 3) :
    let l := (s.takeReply n suf r).stalls[n].link
    l.st = s.stalls[n].link.st ∧ l.estimates = estimatesWith s.stalls[n].link suf r ∧ l.confirming = false := by
  simp [-Fin.getElem_fin, State.takeReply, h, hc, (by omega : s.stalls[n].link.estimates.length + 1 < 4), State.sendConfig_link, estimatesWith]

/-- The fourth estimate, refused by its spread or its length (R102). -/
theorem State.takeReply_judged {s : State} {n : Fin 64} {suf c : Nat} {r : TrainReply} (h : replyRefusal s n r = none)
    (hc : s.stalls[n].link.confirming = false) (he : 3 ≤ s.stalls[n].link.estimates.length)
    (hj : estimateRefusal s.cableM (estimatesWith s.stalls[n].link suf r) = some c) :
    (s.takeReply n suf r).stalls[n].link.st = .fault ∧ (s.takeReply n suf r).stalls[n].link.faultCode = c := by
  unfold estimatesWith at hj
  obtain ⟨d, hd⟩ : ∃ d, -((-((suf : Int) - s.stalls[n].link.txTime - r.turnNs)) / 2) = d := ⟨_, rfl⟩
  rw [hd] at hj
  unfold State.takeReply
  dsimp only
  rw [hd]
  simp [-Fin.getElem_fin, h, hc, (eq_false (by omega) : (s.stalls[n].link.estimates.length + 1 < 4) = False), hj]

/-- The fourth estimate that stands gives the delay that is confirmed (R102). -/
theorem State.takeReply_sets_delay {s : State} {n : Fin 64} {suf : Nat} {r : TrainReply} (h : replyRefusal s n r = none)
    (hc : s.stalls[n].link.confirming = false) (he : 3 ≤ s.stalls[n].link.estimates.length)
    (hj : estimateRefusal s.cableM (estimatesWith s.stalls[n].link suf r) = none) :
    let l := (s.takeReply n suf r).stalls[n].link
    l.st = s.stalls[n].link.st ∧ l.confirming = true ∧ l.delayNs = (maxInt (estimatesWith s.stalls[n].link suf r)).toNat % 65536 := by
  unfold estimatesWith at hj ⊢
  obtain ⟨d, hd⟩ : ∃ d, -((-((suf : Int) - s.stalls[n].link.txTime - r.turnNs)) / 2) = d := ⟨_, rfl⟩
  rw [hd] at hj ⊢
  unfold State.takeReply
  dsimp only
  rw [hd]
  simp [-Fin.getElem_fin, h, hc, (eq_false (by omega) : (s.stalls[n].link.estimates.length + 1 < 4) = False), hj,
      State.sendConfig_link]

/-! ## The frame that brings it -/

theorem trainingReply_bad {s : State} {t : Nat} {n : Fin 64} {suf : Nat} {clean : Bool} {b : Bytes} (hl : s.live = true)
    (hf : frameOk 0x51 32 clean b = false) :
    Completes (.trainingReply t n suf clean b) s fun u =>
      u.stalls[n].link = { s.stalls[n].link with errCrc := satInc 16 s.stalls[n].link.errCrc } := by
  refine Completes.live hl rfl ?_
  simp only [hf, Bool.not_false, if_true, State.setLink_self]
  rfl

theorem trainingReply_unheard {s : State} {t : Nat} {n : Fin 64} {suf : Nat} {clean : Bool} {b : Bytes} (hl : s.live = true)
    (hf : frameOk 0x51 32 clean b = true) (hm : s.mayTrain = false) :
    Completes (.trainingReply t n suf clean b) s fun u => u.stalls[n].link = s.stalls[n].link := by
  refine Completes.live hl rfl ?_
  simp [hf, hm]

/-- A reply that answers the link's own configuration frame in time is taken (R101). -/
theorem trainingReply_taken {s : State} {t : Nat} {n : Fin 64} {suf : Nat} {clean : Bool} {b : Bytes} {P : State → Prop} (hl : s.live = true)
    (hf : frameOk 0x51 32 clean b = true) (hs : s.stalls[n].link.st = .train) (hg : (trainReplyOf b).tag = s.stalls[n].link.tag)
    (ht : t ≤ s.stalls[n].link.entered + ms 2) (hm : s.mayTrain = true) (hp : P ((s.arrive t).takeReply n suf (trainReplyOf b))) :
    Completes (.trainingReply t n suf clean b) s P := by
  refine Completes.live hl rfl ?_
  simpa [-Fin.getElem_fin, hf, hs, hg, not_expired ht, hm] using hp

/-- Settles O10: the frame's checks, then the four ends of a reply that is taken. -/
theorem trainingReplies : Obligations.TrainingReplies := by
  unfold Obligations.TrainingReplies
  intro s t n suf clean b hl
  refine ⟨trainingReply_bad hl, trainingReply_unheard hl, fun hf hs hg ht hm => ?_⟩
  have taken := fun P => trainingReply_taken (suf := suf) (P := P) hl hf hs hg ht hm
  refine ⟨fun c hr => taken _ (State.takeReply_refused hr), fun hr hc => taken _ (State.takeReply_confirms hr hc), fun hr hc he => taken _ ?_,
    fun hr hc he => ⟨fun c hj => taken _ (State.takeReply_judged hr hc he hj), fun hj => taken _ ?_⟩⟩
  · obtain ⟨st, es, cf⟩ := State.takeReply_continues (s := s.arrive t) (suf := suf) hr hc he
    exact ⟨st.trans hs, es, cf⟩
  · obtain ⟨st, cf, d⟩ := State.takeReply_sets_delay (s := s.arrive t) (suf := suf) hr hc he hj
    exact ⟨st.trans hs, cf, d⟩

end Sys2Proof.Machine
end
section
/-! PROOFS. How a command of a master and a register effect answer (R404): the lemmas that the statements about commands share. -/
namespace Sys2Proof.Machine

/-- A command of a master the map serves, which nothing else refuses. -/
theorem Completes.served {c : Instr} {s : State} {t a : Nat} {m : Master} {f : State → State} {P : State → Prop} (hl : s.live = true)
    (hs : s.serves m = true) (e : exec c s = .next (whenLive t (fun s => s.command m a (foreign s m) f) s))
    (hp : ∀ u, f (s.arrive t) = u → P { u with host := { u.host with answer := okAnswer } }) : Completes c s P := by
  refine Completes.live hl e ?_
  rw [foreign_none (s := s.arrive t) hs, State.command_none]
  exact hp _ rfl

/-- A command of a master the map serves, with a refusal of its own that does not apply. -/
theorem Completes.accepted {c : Instr} {s : State} {t a : Nat} {m : Master} {r : State → Option Answer} {f : State → State} {P : State → Prop}
    (hl : s.live = true) (hs : s.serves m = true) (e : exec c s = .next (whenLive t (fun s => s.command m a (firstOf (foreign s m) (r s)) f) s))
    (hr : r (s.arrive t) = none) (hp : ∀ u, f (s.arrive t) = u → P { u with host := { u.host with answer := okAnswer } }) : Completes c s P := by
  refine Completes.live hl e ?_
  rw [foreign_none (s := s.arrive t) hs, firstOf_none, hr, State.command_none]
  exact hp _ rfl

/-- The same where its own refusal applies. -/
theorem Completes.refused {c : Instr} {s : State} {t a : Nat} {m : Master} {r : State → Option Answer} {x : Answer} {f : State → State}
    {P : State → Prop} (hl : s.live = true) (hs : s.serves m = true)
    (e : exec c s = .next (whenLive t (fun s => s.command m a (firstOf (foreign s m) (r s)) f) s))
    (hr : r (s.arrive t) = some x) (hp : P ((s.arrive t).answered m true a x)) : Completes c s P := by
  refine Completes.live hl e ?_
  rw [foreign_none (s := s.arrive t) hs, firstOf_none, hr, State.command_some]
  exact hp

theorem refuseIf_true {c : Bool} (h : c = true) (a : Answer) : refuseIf c a = some a := if_pos h

theorem refuseIf_false {c : Bool} (h : c = false) (a : Answer) : refuseIf c a = none := if_neg (by simp [h])

end Sys2Proof.Machine
end

section
/-! PROOFS. The commands of STL.CTRL and STL.FB_CTRL of a stall (R99, R108, R111, R170, R176). -/
namespace Sys2Proof.Machine

/-- The write of SLEEP_REQ holds whatever the link makes of it (R100). -/
theorem State.writeSleep_req (s : State) (n : Fin 64) (on : Bool) : (s.writeSleep n on).stalls[n].link.sleepReq = on := by
  have sleeps : ∀ w : State, (w.linkSleep n).stalls[n].link.sleepReq = w.stalls[n].link.sleepReq := fun w => by
    simp [-Fin.getElem_fin, State.linkSleep, noCoast]
  unfold State.writeSleep State.trySleep
  dsimp only
  split
  · split
    · rw [sleeps, State.setLink_self]
    · rw [State.setLink_self]
  · split
    · rw [State.linkAlign_self, State.setLink_self]
    · rw [State.setLink_self]

section
variable {s : State} {t : Nat} {m : Master} {n : Fin 64} (hl : s.live = true) (hs : s.serves m = true)
include hl hs

theorem retrain_aligns (hf : s.stalls[n].link.st = .fault) :
    Completes (.retrain t m n) s fun u => u.stalls[n].link.st = .align ∧ u.stalls[n].link.entered = max s.mt t ∧ u.host.answer = okAnswer := by
  refine Completes.served hl hs rfl fun u e => ?_
  subst e
  simp [-Fin.getElem_fin, State.retrain, hf]

theorem retrain_ignored (hf : s.stalls[n].link.st ≠ .fault) :
    Completes (.retrain t m n) s fun u => u.stalls[n].link = s.stalls[n].link ∧ u.host.answer = okAnswer := by
  refine Completes.served hl hs rfl fun u e => ?_
  subst e
  simp [-Fin.getElem_fin, State.retrain, hf]

theorem sleepReq_written (on : Bool) :
    Completes (.sleepReq t m n on) s fun u => u.stalls[n].link.sleepReq = on ∧ u.host.answer = okAnswer :=
  Completes.served hl hs rfl fun u e => ⟨by subst e; exact State.writeSleep_req _ n on, rfl⟩

theorem sleepReq_wakes (hw : s.stalls[n].link.st = .sleep) : Completes (.sleepReq t m n false) s fun u => u.stalls[n].link.st = .align := by
  refine Completes.served hl hs rfl fun u e => ?_
  subst e
  simp [-Fin.getElem_fin, State.writeSleep, hw]

/-- A stall in RUN that is free, with its matrix open, goes to SLEEP at once (R99). -/
theorem sleepReq_sleeps (hr : s.stalls[n].link.st = .run) (hb : s.stalls[n].bay = none) (hm : s.slotOf n = none)
    (hp : ∀ p, s.stalls[n].up = some p → p.matrixFb = 0xF) (hu : s.stalls[n].up.isSome = true) :
    Completes (.sleepReq t m n true) s fun u => u.stalls[n].link.st = .sleep := by
  obtain ⟨p, ep⟩ := Option.isSome_iff_exists.mp hu
  refine Completes.served hl hs rfl fun u e => ?_
  subst e
  simp [-Fin.getElem_fin, State.writeSleep, State.trySleep, sleepsNow, hr, hb, hm, ep, hp p ep, State.linkSleep, noCoast]

theorem capEn_written (on : Bool) (h : on = true → s.stalls[n].link.capEn = false → s.capEnabled < 32) :
    Completes (.capEn t m n on) s fun u => u.stalls[n].link = { s.stalls[n].link with capEn := on } ∧ u.host.answer = okAnswer := by
  have room : (on && !s.stalls[n].link.capEn && decide (32 ≤ s.capEnabled)) = false := by
    cases on <;> cases hc : s.stalls[n].link.capEn <;> simp_all
  refine Completes.accepted hl hs rfl (refuseIf_false room _) fun u e => ?_
  subst e
  simp [-Fin.getElem_fin, State.writeCapEn]

/-- A 33rd stall is refused with detail STATE (R108). -/
theorem capEn_refused (hc : s.stalls[n].link.capEn = false) (h : 32 ≤ s.capEnabled) :
    Completes (.capEn t m n true) s fun u => u.stalls[n].link = s.stalls[n].link ∧ u.host.answer = ⟨.denied, .state⟩ := by
  have full : (true && !s.stalls[n].link.capEn && decide (32 ≤ s.capEnabled)) = true := by simp [-Fin.getElem_fin, hc, h]
  refine Completes.refused hl hs rfl (refuseIf_true full _) ?_
  simp [-Fin.getElem_fin, deny]

theorem stlClrCnt_clears :
    Completes (.stlClrCnt t m n) s fun u =>
      u.stalls[n].link = { s.stalls[n].link with errCrc := 0, errLate := 0, errTime := 0, evtHold := 0, evtTrip := 0, evtDown := 0 } ∧
      u.host.answer = okAnswer := by
  refine Completes.served hl hs rfl fun u e => ?_
  subst e
  simp [-Fin.getElem_fin, State.stlClear]

theorem clrFb_clears :
    Completes (.clrFb t m n) s fun u =>
      u.stalls[n] = { s.stalls[n] with cntCoastEnd := 0, cntFrozen := 0, cntLost := 0, stopsTotal := 0, stopsOc := 0, stopsOt := 0 } ∧
      u.host.answer = okAnswer := by
  refine Completes.served hl hs rfl fun u e => ?_
  subst e
  simp [-Fin.getElem_fin, State.clearFb]

theorem stallRelease_releases (hk : s.stalls[n].st = .locked) :
    Completes (.stallRelease t m n) s fun u => u.stalls[n].st = .stopped ∧ u.stalls[n].stamps = [] ∧ u.host.answer = okAnswer := by
  refine Completes.served hl hs rfl fun u e => ?_
  subst e
  simp [-Fin.getElem_fin, State.releaseStall, hk]

theorem stallRelease_ignored (hk : s.stalls[n].st ≠ .locked) :
    Completes (.stallRelease t m n) s fun u => u.stalls[n] = s.stalls[n] ∧ u.host.answer = okAnswer := by
  refine Completes.served hl hs rfl fun u e => ?_
  subst e
  simp [-Fin.getElem_fin, State.releaseStall, hk]

end

/-- Settles O11: each command by what its effect writes in the stall. -/
theorem stallCommands : Obligations.StallCommands := by
  unfold Obligations.StallCommands
  intro s t m n hl hs
  exact ⟨retrain_aligns hl hs, retrain_ignored hl hs, sleepReq_written hl hs, sleepReq_wakes hl hs, sleepReq_sleeps hl hs, capEn_written hl hs,
    capEn_refused hl hs, stlClrCnt_clears hl hs, clrFb_clears hl hs, stallRelease_releases hl hs, stallRelease_ignored hl hs⟩

end Sys2Proof.Machine
end
section
/-! PROOFS. The capture buffer (R74, R105, R109). -/
namespace Sys2Proof.Machine

/-- The buffer freezes with its source, and keeps its records (R109). -/
theorem State.capFreeze_stl {s : State} (h : s.stl.frozen = false) (src n : Nat) :
    (s.capFreeze src n).stl = { s.stl with frozen := true, armed := false, trigSrc := src, trigStall := n } := by
  simp [State.capFreeze, h]

theorem State.capFreeze_again {s : State} (h : s.stl.frozen = true) (src n : Nat) : s.capFreeze src n = s := if_pos h

theorem State.capArm_stl (s : State) : s.capArm.stl = { s.stl with frozen := false, armed := true } := by
  unfold State.capArm
  rw [State.bumpIf_stl]

/-- A frame is stored, and those 2 ms older leave the buffer (R109). -/
theorem State.capStore_cap {s : State} (h : s.stl.frozen = false) (r : CapRec) :
    (s.capStore r).stl.cap = (s.stl.cap.filter fun x => decide (r.at_ ≤ x.at_ + 2000000)) ++ [r] := by
  simp [State.capStore, h]

theorem State.capStore_frozen {s : State} (h : s.stl.frozen = true) (r : CapRec) : s.capStore r = s := if_pos h

section
variable {s : State} {t : Nat} (hl : s.live = true)
include hl

theorem capTrig_freezes {m : Master} (hs : s.serves m = true) (hf : s.stl.frozen = false) :
    Completes (.capTrig t m) s fun u => u.stl.frozen = true ∧ u.stl.armed = false ∧ u.stl.trigSrc = 1 ∧ u.stl.trigStall = 0xFF ∧
      u.stl.cap = s.stl.cap ∧ u.host.answer = okAnswer := by
  refine Completes.served hl hs rfl fun u e => ?_
  subst e
  rw [State.capFreeze_stl (s := s.arrive t) hf]
  exact ⟨rfl, rfl, rfl, rfl, rfl, rfl⟩

theorem capTrig_ignored {m : Master} (hs : s.serves m = true) (hf : s.stl.frozen = true) :
    Completes (.capTrig t m) s fun u => u.stl = s.stl ∧ u.host.answer = okAnswer :=
  Completes.served hl hs rfl fun u e => ⟨by subst e; rw [State.capFreeze_again (s := s.arrive t) hf, State.arrive_stl], rfl⟩

theorem capArm_arms {m : Master} (hs : s.serves m = true) :
    Completes (.capArm t m) s fun u => u.stl = { s.stl with frozen := false, armed := true } ∧ u.host.answer = okAnswer :=
  Completes.served hl hs rfl fun u e => ⟨by subst e; rw [State.capArm_stl, State.arrive_stl], rfl⟩

theorem captureFrame_bad {n : Fin 64} {scf : Nat} {clean : Bool} {b : Bytes} (hb : frameOk 0x31 76 clean b = false) :
    Completes (.captureFrame t n scf clean b) s fun u => u.stl = s.stl ∧ u.stalls[n].link.errCrc = satInc 16 s.stalls[n].link.errCrc := by
  refine Completes.live hl rfl ?_
  simp [-Fin.getElem_fin, hb]

theorem captureFrame_stored {n : Fin 64} {scf : Nat} {clean : Bool} {b : Bytes} (hb : frameOk 0x31 76 clean b = true)
    (hr : s.stalls[n].link.st = .run) (hc : s.stalls[n].link.capEn = true) (hf : s.stl.frozen = false) :
    Completes (.captureFrame t n scf clean b) s fun u =>
      u.stl.cap = (s.stl.cap.filter fun x => decide (scf ≤ x.at_ + 2000000)) ++ [⟨scf, n.val, 0x31, b.take 72⟩] := by
  refine Completes.live hl rfl ?_
  simp only [hb, State.arrive_stalls, hr, hc]
  exact State.capStore_cap (s := s.arrive t) hf _

theorem captureFrame_frozen {n : Fin 64} {scf : Nat} {clean : Bool} {b : Bytes} (hb : frameOk 0x31 76 clean b = true)
    (hf : s.stl.frozen = true) : Completes (.captureFrame t n scf clean b) s fun u => u.stl = s.stl := by
  refine Completes.live hl rfl ?_
  simp only [hb, Bool.not_true, Bool.false_eq_true, if_false]
  split
  · rw [State.capStore_frozen (s := s.arrive t) hf, State.arrive_stl]
  · rfl

end

/-- Settles O12: the buffer's freeze, its arming and its stores, each by the lemma about it. -/
theorem captureBuffer : Obligations.CaptureBuffer := by
  unfold Obligations.CaptureBuffer
  intro s t hl
  exact ⟨fun _ => capTrig_freezes hl, fun _ => capTrig_ignored hl, fun _ => capArm_arms hl, fun _ _ _ _ => captureFrame_bad hl,
    fun _ _ _ _ => captureFrame_stored hl, fun _ _ _ _ => captureFrame_frozen hl⟩

end Sys2Proof.Machine
end
section
/-! PROOFS. A lost sample and the end of a coast (R163, R165, R168, R169). -/
namespace Sys2Proof.Machine

/-- A coasted pitch counts, and the first one asks the stall to stop with its cause (R165, R168). -/
theorem State.coastPitch_self (s : State) (n : Fin 64) (c : Nat) :
    let x := s.stalls[n]
    (s.coastPitch n c).stalls[n] =
      if x.coasting = true then { x with coastCnt := satInc 8 x.coastCnt }
      else { x with coasting := true, coastCnt := 1, coastEnd := false, stopReq := some (x.stopReq.getD c) } := by
  have first : ∀ x : Option Nat, (match x with | some c => some c | none => some c) = some (x.getD c) := fun x => by cases x <;> rfl
  unfold State.coastPitch State.requestStop
  dsimp only
  split
  · simp [-Fin.getElem_fin]
  · simp only [State.capFreeze_stalls, State.bump_stalls, State.setStall_self]
    cases s.stalls[n].stopReq <;> rfl

/-- The lost sample of a boundary, judged as such, is a coasted pitch. -/
theorem State.loseSample_self (s : State) (n : Fin 64) (b : Nat) :
    let x := s.stalls[n]
    let u := (s.loseSample n b).stalls[n]
    u.sample = .lost ∧ u.sampleAt = b ∧ u.cntLost = satInc 16 x.cntLost ∧ u.link.silent = x.link.silent + 1 ∧ u.coasting = true ∧
    u.coastCnt = (if x.coasting = true then satInc 8 x.coastCnt else 1) ∧ (x.coasting = false → x.stopReq = none → u.stopReq = some 2) := by
  unfold State.loseSample
  dsimp only
  rw [State.coastPitch_self, State.setStall_self]
  cases hc : s.stalls[n].coasting with
  | true =>
    simp only [if_true]
    exact ⟨trivial, trivial, trivial, trivial, trivial, trivial, fun e => absurd e (by decide)⟩
  | false => exact ⟨rfl, rfl, rfl, rfl, rfl, rfl, fun _ e => by simp [-Fin.getElem_fin, e]⟩

theorem sampleLost_coasts {s : State} {t : Nat} {n : Fin 64} (hl : s.live = true) (hr : s.running = true)
    (ht : s.arrivalLimit (s.boundaryAt t) < t) (hm : s.pair.mode = .single ∨ s.active = true) (hsh : s.shadowing = false)
    (hc : classified s n (s.boundaryAt t) = true) (hj : judged s.stalls[n] (s.boundaryAt t) = false)
    (ho : ownHeld s.stalls[n] (s.boundaryAt t) = false) :
    exec (.sampleLost t n) s = .next ((s.arrive t).loseSample n (s.boundaryAt t)) := by
  have sees : (s.arrive t).arrivalLimit (s.boundaryAt t) = s.arrivalLimit (s.boundaryAt t) := rfl
  have shadow : (s.arrive t).shadowing = s.shadowing := rfl
  have classes : classified (s.arrive t) n (s.boundaryAt t) = classified s n (s.boundaryAt t) := rfl
  have own : (s.pair.mode == .lite && !s.active) = false := by rcases hm with h | h <;> simp [h]
  rw [exec_live hl rfl]
  simp [-Fin.getElem_fin, hr, sees, is_expired ht, shadow, hsh, own, classes, hc, hj, ho]

/-! ## The end of a coast by the fast path (R168, R169) -/

theorem State.fastPath_coastEnd (s : State) (n : Fin 64) (c : Nat) : (s.fastPath n c).stalls[n].coastEnd = s.stalls[n].coastEnd := by
  unfold State.fastPath
  dsimp only
  split
  · simp [-Fin.getElem_fin]
  · split <;> simp [-Fin.getElem_fin]

theorem coastExhausted_ends {s : State} {t : Nat} {n : Fin 64} (hl : s.live = true) (hc : s.stalls[n].coasting = true)
    (hn : s.stl.coastN < s.stalls[n].coastCnt) (he : s.stalls[n].coastEnd = false)
    (hst : s.stalls[n].st = .assigned ∨ s.stalls[n].st = .stopping) :
    Completes (.coastExhausted t n) s fun u =>
      u.stalls[n].st = .stopping ∧ u.stalls[n].gatedOut = true ∧ u.stalls[n].matrix = none ∧ u.stalls[n].coastEnd = true ∧
      u.stalls[n].cause = (if s.stalls[n].gatedOut = true ∧ s.stalls[n].cause ≠ 2 ∧ s.stalls[n].cause ≠ 3 then s.stalls[n].cause else 4) ∧
      (∀ c : Fin 8, u.stalls[n].cells[c].st = .off ∧ u.stalls[n].cells[c].w = 0) ∧
      u.stalls[n].cntCoastEnd = satInc 8 s.stalls[n].cntCoastEnd ∧ u.stl.frozen = true := by
  refine Completes.live hl rfl ?_
  rw [if_pos (by simpa [-Fin.getElem_fin, hc, hn, he] using hst)]
  dsimp only
  rw [State.capFreeze_stalls, State.log_stalls]
  have marked : ∀ w : State, ((w.replaceCause n 4).stalls[n].st = w.stalls[n].st ∧ (w.replaceCause n 4).stalls[n].coastEnd = w.stalls[n].coastEnd ∧
      (w.replaceCause n 4).stalls[n].cntCoastEnd = w.stalls[n].cntCoastEnd) := fun w => by simp [-Fin.getElem_fin, State.replaceCause]
  generalize hw : (s.arrive t).setStall n _ = w
  obtain ⟨mst, mend, mcnt⟩ := marked w
  have self : w.stalls[n] = { s.stalls[n] with coastEnd := true, cntCoastEnd := satInc 8 s.stalls[n].cntCoastEnd } := by
    rw [← hw, State.setStall_self, State.arrive_stalls]
  obtain ⟨st, cause, out, matrix, cells, cnt, _⟩ :=
    State.fastPath_self (w.replaceCause n 4) n (exhaustedCause (s.arrive t).stalls[n]) (by rw [mst, self]; exact hst)
  refine ⟨st, out, matrix, ?_, cause.trans rfl, fun c => ?_, ?_, State.capFreeze_frozen ..⟩
  · rw [State.fastPath_coastEnd, mend, self]
  · rw [cells, vmap_get]
    exact ⟨rfl, rfl⟩
  · rw [cnt, mcnt, self]

theorem coastExhausted_ignored {s : State} {t : Nat} {n : Fin 64} (hl : s.live = true)
    (h : s.stalls[n].coasting = false ∨ s.stalls[n].coastEnd = true) :
    Completes (.coastExhausted t n) s fun u => u.stalls = s.stalls := by
  refine Completes.live hl rfl ?_
  rw [if_neg (by rcases h with h | h <;> simp [-Fin.getElem_fin, h])]
  exact State.arrive_stalls s t

/-- Settles O13. -/
theorem coasting : Obligations.Coasting := by
  unfold Obligations.Coasting
  intro s t n hl
  exact ⟨fun hr ht hm hsh hc hj ho => ⟨_, sampleLost_coasts hl hr ht hm hsh hc hj ho, State.loseSample_self ..⟩, coastExhausted_ends hl,
      coastExhausted_ignored hl⟩

end Sys2Proof.Machine
end
section
/-! PROOFS. Moves whose contacts are not confirmed in time (R201, R204). -/
namespace Sys2Proof.Machine

theorem fin?_val {n : Nat} (i : Fin n) : fin? n i.val = some i := by simp [fin?]

theorem moveCloseTimeout_releases {s : State} {t : Nat} {k : Fin 8} {n : Fin 64} {d b : Nat} (hl : s.live = true)
    (hn : s.mkt.moves[k].stall = n.val) (hd : s.mkt.moves[k].deadline = some d) (ht : d < t) (hp : s.mkt.moves[k].phase = .closing)
    (hb : s.mkt.moves[k].dst = some b) :
    Completes (.moveCloseTimeout t k) s fun u =>
      u.mkt.moves[k] = { s.mkt.moves[k] with phase := .opening, src := none, dst := none, serves := b, deadline := none, failed := true } ∧
      u.stalls[n] = { s.stalls[n] with matrix := none, reachFault := setBit s.stalls[n].reachFault b } ∧
      u.mkt.closeFail = satInc 8 s.mkt.closeFail := by
  refine Completes.live hl rfl ?_
  simp [-Fin.getElem_fin, hd, hp, is_expired ht, State.failClose, hn, fin?_val, hb, State.setMove]

theorem moveOpenTimeout_locks {s : State} {t : Nat} {k : Fin 8} {n : Fin 64} {d : Nat} (hl : s.live = true)
    (hn : s.mkt.moves[k].stall = n.val) (hd : s.mkt.moves[k].deadline = some d) (ht : d < t) (hp : s.mkt.moves[k].phase = .opening) :
    Completes (.moveOpenTimeout t k) s fun u => u.mkt.moves[k].phase = .free ∧ u.stalls[n].st = .locked ∧ u.stalls[n].cause = 9 := by
  refine Completes.live hl rfl ?_
  simp [-Fin.getElem_fin, hd, hp, is_expired ht, State.freeMove, hn, fin?_val, State.setMove, State.lockStall, noCoast]

/-- Settles O15. -/
theorem moveTimeouts : Obligations.MoveTimeouts := by
  unfold Obligations.MoveTimeouts
  intro s t k n d hl
  exact fun hn hd ht => ⟨fun _ hp hb => moveCloseTimeout_releases hl hn hd ht hp hb, moveOpenTimeout_locks hl hn hd ht⟩

end Sys2Proof.Machine
end

section
/-! PROOFS. Which uplink pitch frames are usable, and what a usable one leaves (R74, R85, R109). -/
namespace Sys2Proof.Machine

/-- The frame of a link in RUN is judged by its SAMPLE_TIME and its arrival (R85). -/
theorem State.judgeUplink_run {s : State} {t : Nat} {n : Fin 64} {suf : Nat} {b : Bytes} (hm : s.pair.mode = .single ∨ s.active = true)
    (hr : s.stalls[n].link.st = .run) (hf : s.stalls[n].link.runFrom ≤ s.boundaryAt t) :
    s.judgeUplink t n suf b =
      let q := s.boundaryAt t
      if (uplinkOf b).sampleTime = q % 2 ^ 24 then
        if expired t (s.arrivalLimit q) then s.setLink n fun l => { l with errLate := satInc 8 l.errLate } else s.usableUplink n suf q b
      else if s.pitchNs ≤ q ∧ (uplinkOf b).sampleTime = (q - s.pitchNs) % 2 ^ 24 then s.setLink n fun l => { l with errLate := satInc 8 l.errLate }
      else if expired t (s.arrivalLimit q) then s
      else s.setLink n fun l => { l with errTime := satInc 8 l.errTime } := by
  have own : (s.pair.mode == .lite && !s.active) = false := by rcases hm with h | h <;> simp [h]
  have runs : (s.stalls[n].link.st != .run || decide (s.boundaryAt t < s.stalls[n].link.runFrom)) = false := by
    simp [-Fin.getElem_fin, hr, hf]
  unfold State.judgeUplink
  simp only [own, runs, Bool.false_eq_true, if_false]

/-- A usable frame is captured and acts on the stall (R85, R109). -/
theorem State.usableUplink_taken {s : State} {n : Fin 64} {suf q : Nat} {b : Bytes} (hsh : s.shadowing = false) (ho : s.shadowOwed q = false)
    (hj : judged s.stalls[n] q = false) :
    let u := s.usableUplink n suf q b
    u.stalls[n].up = some (uplinkOf b) ∧ u.stalls[n].upAt = q ∧ u.stalls[n].sampleAt = q ∧
    (u.stalls[n].sample = .good ∨ u.stalls[n].sample = .frozen) ∧
    (s.stl.frozen = false → u.stl.cap = (s.stl.cap.filter fun r => decide (suf ≤ r.at_ + 2000000)) ++ [⟨suf, n.val, 0x21, b.take 28⟩]) := by
  simp only [State.usableUplink, hsh, ho, hj, Bool.or_self, Bool.false_eq_true, if_false]
  obtain ⟨v, hv, taken⟩ := State.takeSample_kept (s.capStore ⟨suf, n.val, 0x21, b.take 28⟩) n q (uplinkOf b)
  simp only [Stall.taken, Prod.mk.injEq] at taken
  obtain ⟨up, at_, sample, sat⟩ := taken
  refine ⟨up, at_, sat, by rw [sample]; exact hv, fun hf => ?_⟩
  rw [State.takeSample_cap, State.capStore_cap hf]

section
variable {s : State} {t : Nat} {n : Fin 64} {suf : Nat} {clean : Bool} {b : Bytes} (hl : s.live = true)
include hl

theorem uplinkPitchFrame_bad (hb : frameOk 0x21 32 clean b = false) :
    Completes (.uplinkPitchFrame t n suf clean b) s fun u =>
      u.stalls[n] = { s.stalls[n] with link := { s.stalls[n].link with errCrc := satInc 16 s.stalls[n].link.errCrc } } := by
  refine Completes.live hl rfl ?_
  simp [-Fin.getElem_fin, hb]

variable (hb : frameOk 0x21 32 clean b = true) (hrun : s.running = true)
include hb hrun

/-- What a frame that passed R74 does by its judgement. -/
theorem uplinkPitchFrame_judged {P : State → Prop} (hp : ∀ u, (s.arrive t).judgeUplink t n suf b = u → P u) :
    Completes (.uplinkPitchFrame t n suf clean b) s P := by
  refine Completes.live hl rfl ?_
  simp only [hb, State.arrive_running, hrun, Bool.not_true, Bool.false_eq_true, if_false, if_true]
  exact hp _ rfl

variable (hm : s.pair.mode = .single ∨ s.active = true) (hr : s.stalls[n].link.st = .run) (hf : s.stalls[n].link.runFrom ≤ s.boundaryAt t)
include hm hr hf

theorem uplinkPitchFrame_late (hq : (uplinkOf b).sampleTime = s.boundaryAt t % 2 ^ 24) (ht : s.arrivalLimit (s.boundaryAt t) < t) :
    Completes (.uplinkPitchFrame t n suf clean b) s fun u =>
      u.stalls[n] = { s.stalls[n] with link := { s.stalls[n].link with errLate := satInc 8 s.stalls[n].link.errLate } } := by
  refine uplinkPitchFrame_judged hl hb hrun fun u e => ?_
  have late : expired t ((s.arrive t).arrivalLimit (s.boundaryAt t)) = true := is_expired ht
  rw [State.judgeUplink_run (s := s.arrive t) hm hr hf] at e
  subst e
  simp [-Fin.getElem_fin, hq, late]

/-- The SAMPLE_TIME of the previous boundary counts as LATE. -/
theorem uplinkPitchFrame_previous (hq : (uplinkOf b).sampleTime ≠ s.boundaryAt t % 2 ^ 24) (hp : s.pitchNs ≤ s.boundaryAt t)
    (hs : (uplinkOf b).sampleTime = (s.boundaryAt t - s.pitchNs) % 2 ^ 24) :
    Completes (.uplinkPitchFrame t n suf clean b) s fun u =>
      u.stalls[n] = { s.stalls[n] with link := { s.stalls[n].link with errLate := satInc 8 s.stalls[n].link.errLate } } := by
  refine uplinkPitchFrame_judged hl hb hrun fun u e => ?_
  rw [State.judgeUplink_run (s := s.arrive t) hm hr hf] at e
  dsimp only at e
  rw [State.arrive_boundaryAt, if_neg hq, State.arrive_pitchNs, if_pos ⟨hp, hs⟩] at e
  rw [← e, State.setLink_self, State.arrive_stalls]

/-- Any other SAMPLE_TIME counts as TIME while the pitch takes frames. -/
theorem uplinkPitchFrame_otherTime (hq : (uplinkOf b).sampleTime ≠ s.boundaryAt t % 2 ^ 24)
    (hp : ¬(s.pitchNs ≤ s.boundaryAt t ∧ (uplinkOf b).sampleTime = (s.boundaryAt t - s.pitchNs) % 2 ^ 24))
    (ht : t ≤ s.arrivalLimit (s.boundaryAt t)) :
    Completes (.uplinkPitchFrame t n suf clean b) s fun u =>
      u.stalls[n] = { s.stalls[n] with link := { s.stalls[n].link with errTime := satInc 8 s.stalls[n].link.errTime } } := by
  refine uplinkPitchFrame_judged hl hb hrun fun u e => ?_
  have inTime : ¬expired t ((s.arrive t).arrivalLimit (s.boundaryAt t)) = true := by
    rw [expired_iff]; exact Nat.not_lt.mpr ht
  rw [State.judgeUplink_run (s := s.arrive t) hm hr hf] at e
  dsimp only at e
  rw [State.arrive_boundaryAt, if_neg hq, State.arrive_pitchNs, if_neg hp, if_neg inTime] at e
  rw [← e, State.setLink_self, State.arrive_stalls]

theorem uplinkPitchFrame_usable (hq : (uplinkOf b).sampleTime = s.boundaryAt t % 2 ^ 24) (ht : t ≤ s.arrivalLimit (s.boundaryAt t))
    (hsh : s.shadowing = false) (ho : s.shadowOwed (s.boundaryAt t) = false) (hj : judged s.stalls[n] (s.boundaryAt t) = false) :
    Completes (.uplinkPitchFrame t n suf clean b) s fun u =>
      u.stalls[n].up = some (uplinkOf b) ∧ u.stalls[n].upAt = s.boundaryAt t ∧ u.stalls[n].sampleAt = s.boundaryAt t ∧
      (u.stalls[n].sample = .good ∨ u.stalls[n].sample = .frozen) ∧
      (s.stl.frozen = false → u.stl.cap = (s.stl.cap.filter fun r => decide (suf ≤ r.at_ + 2000000)) ++ [⟨suf, n.val, 0x21, b.take 28⟩]) := by
  refine uplinkPitchFrame_judged hl hb hrun fun u e => ?_
  have inTime : ¬expired t ((s.arrive t).arrivalLimit (s.boundaryAt t)) = true := by
    rw [expired_iff]; exact Nat.not_lt.mpr ht
  rw [State.judgeUplink_run (s := s.arrive t) hm hr hf] at e
  dsimp only at e
  rw [State.arrive_boundaryAt, if_pos hq, if_neg inTime] at e
  subst e
  exact State.usableUplink_taken (s := s.arrive t) hsh ho hj

end

/-- Settles O16: R74 first, then the judgement of SAMPLE_TIME and of the arrival. -/
theorem uplinkFrames : Obligations.UplinkFrames := by
  unfold Obligations.UplinkFrames
  intro s t n suf clean b hl
  exact ⟨uplinkPitchFrame_bad hl, fun hb hrun hm hr hf => ⟨uplinkPitchFrame_late hl hb hrun hm hr hf, uplinkPitchFrame_previous hl hb hrun hm hr hf,
    uplinkPitchFrame_otherTime hl hb hrun hm hr hf, uplinkPitchFrame_usable hl hb hrun hm hr hf⟩⟩

end Sys2Proof.Machine
end
section
/-! PROOFS. The policy of the market: its words, COMMIT, DISCARD and CLR_CNT (R205, R207, R351). -/
namespace Sys2Proof.Machine

theorem State.setShadow_mkt (s : State) (p : Policy) : (s.setShadow p).mkt = { s.mkt with shadow := p } := by
  unfold State.setShadow
  rw [State.bumpIf_mkt]

theorem State.storePolicy_mkt (s : State) (p : Policy) :
    (s.storePolicy p).mkt = { s.mkt with committed := p, commitAt := some s.mt, commitDue := none } := by
  unfold State.storePolicy
  rw [State.bumpIf_mkt]
  rfl

section
variable {s : State} {t : Nat} {m : Master} (hl : s.live = true) (hs : s.serves m = true)
include hl hs

section
variable {off : Nat} {v : Word} {p : Policy} (hp : polSet s.mkt.shadow off v.toNat = some p)
include hp

/-- A policy word that its offset holds is a register effect of R205. -/
theorem policyWrite_effect {P : State → Prop}
    (h : P ((s.arrive t).command m (0x00400000 + off) (firstOf (roleGuard s) (refuseIf (!polOk s.prof.image p off) (deny .range)))
      fun u => u.setShadow p)) : Completes (.policyWrite t m (0x00400000 + off) v) s P := by
  have effect : policyEffect (s.arrive t) off v.toNat =
      some (firstOf (roleGuard s) (refuseIf (!polOk s.prof.image p off) (deny .range)), fun u => u.setShadow p) := by
    rw [policyEffect, State.arrive_mkt, hp]; rfl
  refine Completes.live hl rfl ?_
  simp only [if_pos (Nat.le_add_right 0x00400000 off), Nat.add_sub_cancel_left, effect, foreign_none (s := s.arrive t) hs, firstOf_none]
  exact h

theorem policyWrite_shadows (ha : s.active = true) (ho : polOk s.prof.image p off = true) :
    Completes (.policyWrite t m (0x00400000 + off) v) s fun u => u.mkt = { s.mkt with shadow := p } ∧ u.host.answer = okAnswer := by
  refine policyWrite_effect hl hs hp ?_
  rw [roleGuard, ha, ho, Bool.not_true, refuseIf_false rfl, refuseIf_false rfl, firstOf_none, State.command_none]
  exact ⟨State.setShadow_mkt .., rfl⟩

theorem policyWrite_range (ha : s.active = true) (ho : polOk s.prof.image p off = false) :
    Completes (.policyWrite t m (0x00400000 + off) v) s fun u => u.mkt = s.mkt ∧ u.host.answer = ⟨.denied, .range⟩ := by
  refine policyWrite_effect hl hs hp ?_
  rw [roleGuard, ha, ho, Bool.not_true, Bool.not_false, refuseIf_false rfl, refuseIf_true rfl, firstOf_none, State.command_some]
  exact ⟨by rw [State.answered_mkt, State.arrive_mkt], by rw [State.answered_answer, deny]⟩

theorem policyWrite_role (ha : s.active = false) :
    Completes (.policyWrite t m (0x00400000 + off) v) s fun u => u.mkt = s.mkt ∧ u.host.answer = ⟨.denied, .role⟩ := by
  refine policyWrite_effect hl hs hp ?_
  rw [roleGuard, ha, Bool.not_false, refuseIf_true rfl]
  exact ⟨by rw [firstOf, State.command_some, State.answered_mkt, State.arrive_mkt],
    by rw [firstOf, State.command_some, State.answered_answer, deny]⟩

end

theorem policyCommit_stores (hf : s.pwr.pfw = false) (hr : 124 ≤ s.mram.policy ∨ 124 ≤ s.spareFor 3) :
    Completes (.policyCommit t m) s fun u =>
      u.mkt = { s.mkt with committed := s.mkt.shadow, commitAt := some (max s.mt t), commitDue := none } ∧ u.host.answer = okAnswer := by
  have room : (s.arrive t).policyFull policyBytes = false := by
    rw [State.policyFull, decide_eq_false_iff_not]
    exact fun h => hr.elim (fun hr => Nat.not_lt.mpr hr h.1) fun hr => Nat.not_lt.mpr hr h.2
  refine Completes.accepted hl hs rfl (refuseIf_false hf _) fun u e => ⟨?_, rfl⟩
  subst e
  simp only [State.policyCommit, room, Bool.false_eq_true, if_false]
  exact State.storePolicy_mkt ..

theorem policyCommit_waits (hf : s.pwr.pfw = false) (hp : s.mram.policy < 124) (hr : s.spareFor 3 < 124) :
    Completes (.policyCommit t m) s fun u => u.mkt = { s.mkt with commitDue := some s.mkt.shadow } ∧ u.host.answer = okAnswer := by
  have full : (s.arrive t).policyFull policyBytes = true := decide_eq_true ⟨hp, hr⟩
  refine Completes.accepted hl hs rfl (refuseIf_false hf _) fun u e => ⟨?_, rfl⟩
  subst e
  simp only [State.policyCommit, full, if_true]
  rfl

theorem policyCommit_powerFail (hf : s.pwr.pfw = true) :
    Completes (.policyCommit t m) s fun u => u.mkt = s.mkt ∧ u.host.answer = ⟨.busy, .mram⟩ := by
  refine Completes.refused hl hs rfl (refuseIf_true hf _) ?_
  exact ⟨by rw [State.answered_mkt, State.arrive_mkt], State.answered_answer ..⟩

theorem policyDiscard_restores :
    Completes (.policyDiscard t m) s fun u => u.mkt = { s.mkt with shadow := s.mkt.committed } ∧ u.host.answer = okAnswer :=
  Completes.served hl hs rfl fun u e => ⟨by subst e; exact State.setShadow_mkt .., rfl⟩

theorem mktClrCnt_clears :
    Completes (.mktClrCnt t m) s fun u =>
      u.mkt = { s.mkt with movesDone := 0, closeFail := 0, shortEvt := 0 } ∧ u.host.answer = okAnswer :=
  Completes.served hl hs rfl fun u e => ⟨by subst e; rfl, rfl⟩

end

/-- Settles O17: the refusals of a policy word in their order, COMMIT by the room of the MRAM. -/
theorem marketPolicy : Obligations.MarketPolicy := by
  unfold Obligations.MarketPolicy
  intro s t m hl hs
  exact ⟨fun _ _ _ hp => ⟨policyWrite_shadows hl hs hp, policyWrite_range hl hs hp, policyWrite_role hl hs hp⟩, policyCommit_stores hl hs,
    policyCommit_waits hl hs, policyCommit_powerFail hl hs, policyDiscard_restores hl hs, mktClrCnt_clears hl hs⟩

end Sys2Proof.Machine
end
section
/-! PROOFS. What a tick start takes over and what its commit takes (R22, R177, R178). -/
namespace Sys2Proof.Machine

/-! ## The parts of a tick start -/

/-- The take-over of a tick, as far as the clearing of an active module (R177). -/
def State.tickOpened (s : State) (t : Nat) : State :=
  ((((((s.judgeHold t).armHold t).tickTakeOver).tickLive t).tickClamp).tickBids).tickClear t

/-- What follows the shedding of a tick. -/
def State.tickEnded (s : State) (t : Nat) (rd : TickReadings) : State :=
  (((s.tickRampDown.coolTick t rd).auxTick t rd.v24).judgeBusLoad).clearBusLoad

theorem tickStart_runs {s : State} {t : Nat} {rd : TickReadings} (hl : s.live = true) (ht : t % 1000000 = 0) :
    exec (.tickStart t rd) s = .next (((((s.arrive t).tickOpened t).tickStops).tickRearm.tickShedding).tickEnded t rd) := by
  rw [exec_live hl rfl, if_pos ht]
  rfl

/-- The parts that the end of a tick start may change. -/
def tickEndReach : Block → Bool
  | .draws | .sums | .viol | .capture | .outlet _ | .bay _ | .pair | .vault | .queues | .thm | .aux | .saf | .assume => true
  | _ => false

theorem State.tickEnded_only (s : State) (t : Nat) (rd : TickReadings) : OnlyIn tickEndReach s (s.tickEnded t rd) :=
  (State.clearBusLoad_only rfl rfl (State.judgeBusLoad_only rfl rfl (State.auxTick_only rfl rfl rfl (State.coolTick_only rfl rfl rfl rfl
      (State.tickRampDown_only rfl rfl rfl rfl (fun _ => rfl) (fun _ => rfl) rfl rfl rfl (OnlyIn.refl _ _))))))

/-- The parts that the stops and the sheddings of a tick may change. -/
def tickStopReach : Block → Bool
  | .sums | .lat | .capture | .stl | .stall _ | .mkt | .saf | .queues => true
  | _ => false

theorem State.tickStopped_only (s : State) : OnlyIn tickStopReach s s.tickStops.tickRearm.tickShedding :=
  (State.tickShedding_only rfl (fun _ => rfl) rfl (State.tickRearm_only (fun _ => rfl) (State.tickStops_only rfl rfl rfl rfl (fun _ => rfl) rfl rfl
      rfl (OnlyIn.refl _ _))))

/-! ## What they leave -/

theorem State.tickTakeOver_met (s : State) : s.tickTakeOver.met = { s.met with taken := s.met.commit } := by
  unfold State.tickTakeOver
  exact (State.takePolicy_only rfl (cs := allSave .met) (State.takeTerms_only rfl (State.mramTick_only rfl rfl rfl (OnlyIn.refl _ _)))) .met rfl

theorem State.tickOpened_met (s : State) (t : Nat) : (s.tickOpened t).met = { s.met with taken := s.met.commit } := by
  have before : ((s.judgeHold t).armHold t).met = s.met := (State.armHold_only rfl (cs := allSave .met) (State.judgeHold_only rfl rfl rfl rfl (fun _
      => rfl) (fun _ => rfl) (fun _ => rfl) (fun _ => rfl) (fun _ => rfl) rfl rfl rfl rfl rfl rfl (OnlyIn.refl _ _))) .met rfl
  have after : ∀ w : State, ((((w.tickLive t).tickClamp).tickBids).tickClear t).met = w.met := fun w =>
    (State.tickClear_only rfl rfl rfl rfl rfl rfl rfl rfl (cs := allSave .met) (State.tickBids_only rfl (fun _ => rfl) (State.tickClamp_only rfl rfl
        rfl rfl rfl (State.tickLive_only rfl (OnlyIn.refl _ _))))) .met rfl
  rw [State.tickOpened, after, State.tickTakeOver_met, before]

/-- A pending LIVE change requested before the tick notes it (R22). -/
theorem State.tickOpened_pend {s : State} {t : Nat} {p : PendingChange} (hp : s.prof.pend = some p) (hm : p.mode = .live) (hd : p.tickDone = none)
    (hs : p.since < t) (hr : s.refreshMissed t = false) : (s.tickOpened t).prof.pend = some { p with tickDone := some t } := by
  have before : ((s.judgeHold t).armHold t).tickTakeOver.prof = s.prof := by
    rw [State.judgeHold, hr, if_neg (by decide)]
    exact (State.tickTakeOver_only rfl rfl rfl rfl rfl (cs := allSave .prof) (State.armHold_only rfl (OnlyIn.refl _ _))) .prof rfl
  have clamp : ∀ w : State, w.tickClamp.prof.pend = w.prof.pend := fun w => by
    unfold State.tickClamp
    split
    · exact State.clampTo_pend ..
    · rfl
  have after : ∀ w : State, ((w.tickBids).tickClear t).prof = w.prof := fun w =>
    (State.tickClear_only rfl rfl rfl rfl rfl rfl rfl rfl (cs := allSave .prof) (State.tickBids_only rfl (fun _ => rfl) (OnlyIn.refl _ _))) .prof rfl
  rw [State.tickOpened, after, clamp, State.tickLive, before, hp]
  simp [hm, hd, hs]

theorem State.tickStops_bayStops (s : State) : s.tickStops.stl.bayStops = 0 := by
  have each : ∀ w : State, w.stl.bayStops = 0 → ∀ u : State, OnlyIn (allSave .stl) w u → u.stl.bayStops = 0 := fun w hw u o => by
    have e := congrArg StlCommon.bayStops (o.keeps_stl rfl)
    rwa [StlCommon.rest_bayStops, StlCommon.rest_bayStops, hw] at e
  unfold State.tickStops
  refine State.forAll_keeps (fun u => u.stl.bayStops = 0) (fun b u hu => ?_)
    (State.forAll_keeps (fun u => u.stl.bayStops = 0) (fun n u hu => each u hu _ (State.takeStop_only rfl rfl rfl (OnlyIn.refl _ _))) rfl)
  split
  · exact each u hu _ (State.requestSafeStop_only rfl rfl rfl (fun _ => rfl) rfl rfl rfl (OnlyIn.refl _ _))
  · exact hu

theorem State.tickShedding_steps (s : State) : s.tickShedding.mkt.stepSeen = 0 := by
  unfold State.tickShedding
  exact State.forAll_keeps (fun u => u.mkt.stepSeen = 0) (fun n u hu => by rw [State.setStall_mkt]; exact hu) rfl

theorem State.tickShedding_loads (s : State) (n : Fin 64) : s.tickShedding.stalls[n].loadSum = 0 ∧ s.tickShedding.stalls[n].loadMax = 0 := by
  unfold State.tickShedding
  refine State.forAll_at n (Q := fun _ => True) (R := fun u => u.stalls[n].loadSum = 0 ∧ u.stalls[n].loadMax = 0) (fun _ _ _ _ => trivial)
    (fun u _ => ?_) (fun j u hj hu => ?_) _ trivial
  · rw [State.setStall_self]
    exact ⟨rfl, rfl⟩
  · rw [State.setStall_other _ _ _ _ hj]
    exact hu

/-- A tick start of a module that runs (R177). -/
theorem tickStart_takes {s : State} {t : Nat} {rd : TickReadings} (hl : s.live = true) (ht : t % 1000000 = 0) :
    Completes (.tickStart t rd) s fun u =>
      u.met = { s.met with taken := s.met.commit } ∧ u.mkt.stepSeen = 0 ∧ u.stl.bayStops = 0 ∧
      (∀ n : Fin 64, u.stalls[n].loadSum = 0 ∧ u.stalls[n].loadMax = 0) ∧
      (∀ p, s.prof.pend = some p → p.mode = .live → p.tickDone = none → p.since < t → s.refreshMissed t = false →
        u.prof.pend = some { p with tickDone := some t }) := by
  refine Completes.of (tickStart_runs hl ht) ?_
  generalize hw : (s.arrive t).tickOpened t = w
  have ended := State.tickEnded_only w.tickStops.tickRearm.tickShedding t rd
  have stopped := w.tickStopped_only
  refine ⟨?_, ?_, ?_, fun n => ?_, fun p hp hm hd hs hr => ?_⟩
  · rw [ended.keeps_met rfl, stopped.keeps_met rfl, ← hw, State.tickOpened_met, State.arrive_met]
  · rw [ended.keeps_mkt rfl, State.tickShedding_steps]
  · have shed : OnlyIn (allSave .stl) w.tickStops w.tickStops.tickRearm.tickShedding := (State.tickShedding_only rfl (fun _ => rfl) rfl
      (State.tickRearm_only (fun _ => rfl) (OnlyIn.refl _ _)))
    have e := congrArg StlCommon.bayStops ((ended.keeps_stl rfl).trans (shed.keeps_stl rfl))
    rwa [StlCommon.rest_bayStops, StlCommon.rest_bayStops, State.tickStops_bayStops] at e
  · have e := ended.keeps_stall (n := n) rfl
    have sum := congrArg Stall.loadSum e
    have max := congrArg Stall.loadMax e
    obtain ⟨s0, m0⟩ := State.tickShedding_loads w.tickStops.tickRearm n
    rw [Stall.rest_loadSum, Stall.rest_loadSum] at sum
    rw [Stall.rest_loadMax, Stall.rest_loadMax] at max
    exact ⟨sum.trans s0, max.trans m0⟩
  · rw [ended.keeps_prof rfl, stopped.keeps_prof rfl, ← hw]
    exact State.tickOpened_pend (s := s.arrive t) hp hm hd hs hr

/-! ## The commit -/

/-- What the commit of a tick takes of its results. -/
def Market.cleared (m : Market) : Option TickResult × Limits × Bool × Nat × Vector BayClear 12 × Nat × Int × Nat × Int :=
  (m.result, m.limits, m.stale, m.short, m.bays, m.env, m.envRate, m.envX, m.envXRate)

theorem State.fastPath_cleared (s : State) (n : Fin 64) (c : Nat) : (s.fastPath n c).mkt.cleared = s.mkt.cleared := by
  have ends : (s.endMoveOf n).mkt.cleared = s.mkt.cleared := by
    unfold State.endMoveOf
    split
    · rw [State.freeMove, if_neg (by decide), State.bump_mkt]; rfl
    · rfl
  unfold State.fastPath
  dsimp only
  split
  · rw [State.countStop, State.bump_mkt, State.setStall_mkt, State.setStall_mkt, State.mapCells, State.setStall_mkt, ends]
  · split <;> rfl

theorem State.ssTake_cleared (s : State) (b : Fin 12) (t : Nat) : (s.ssTake b t).mkt.cleared = s.mkt.cleared := by
  unfold State.ssTake
  dsimp only
  split
  · rfl
  · split
    · exact foldl_keeps (fun u => u.mkt.cleared = s.mkt.cleared) (fun n u hu => (u.fastPath_cleared n 8).trans hu) _ rfl
    · rfl

/-- The take-over of a commit by the window that is open leaves what the commit set. -/
theorem State.retake_cleared (s : State) : s.retake.mkt.cleared = s.mkt.cleared := by
  have lanes : ∀ (w : State) t q, ((w.forAll 64 fun n s => s.takeLane t q n).takeWords t).mkt = w.mkt := fun w t q =>
    (State.takeWords_only rfl (cs := allSave .mkt) (State.forAll_only (fun n _ k => (State.takeLane_only rfl (k))) (OnlyIn.refl _ w))) .mkt rfl
  unfold State.retake
  split
  · rw [State.takeOver, lanes]
    exact State.forAll_keeps (fun u => u.mkt.cleared = s.mkt.cleared) (fun b u hu => (u.ssTake_cleared b _).trans hu) rfl
  · rfl

/-- Results that differ in the release count alone are equal once it is taken over. -/
theorem BayClear.but_restored {x y : BayClear} (h : x.but = y.but) : { x with relCount := y.relCount } = y := by
  cases x
  cases y
  simp_all [BayClear.but]

/-- What a commit, with the cable targets and the take-over that follow it, leaves of its results. -/
theorem State.commitTick_cleared (w : State) (r : TickResult) :
    let u := ((w.commitTick r).forAll 12 fun b s => if s.active then s.tryCableTarget b else s).retake
    u.mkt.result = none ∧ u.mkt.limits = r.limits ∧ u.mkt.stale = r.stale ∧ u.mkt.short = r.short ∧
    (∀ b : Fin 12, { u.mkt.bays[b] with relCount := r.bays[b].relCount } = r.bays[b]) ∧
    u.mkt.env = r.env ∧ u.mkt.envRate = r.envRate ∧ u.mkt.envX = r.envX ∧ u.mkt.envXRate = r.envXRate := by
  obtain ⟨bs, m, k, mkt, same⟩ := w.commitTick_mkt r
  have target : ((w.commitTick r).forAll 12 fun b s => if s.active then s.tryCableTarget b else s).mkt = (w.commitTick r).mkt :=
    State.forAll_keeps (fun u => u.mkt = (w.commitTick r).mkt) (fun b u hu => by
      split
      · exact Eq.trans ((State.tryCableTarget_only rfl rfl (cs := allSave .mkt) (OnlyIn.refl _ u)) .mkt rfl) hu
      · exact hu) rfl
  have kept := State.retake_cleared ((w.commitTick r).forAll 12 fun b s => if s.active then s.tryCableTarget b else s)
  simp only [Market.cleared, target, mkt, Prod.mk.injEq] at kept
  obtain ⟨result, limits, stale, short, bays, env, rate, x, xRate⟩ := kept
  refine ⟨result, limits, stale, short, fun b => ?_, env, rate, x, xRate⟩
  rw [bays]
  exact BayClear.but_restored (same b)

theorem clearingCommit_commits {s : State} {t : Nat} {r : TickResult} (hl : s.live = true) (hr : s.mkt.result = some r)
    (ht : r.at_ + 250000 ≤ t) (hm : s.refreshMissed t = false) :
    Completes (.clearingCommit t) s fun u =>
      u.mkt.result = none ∧ u.mkt.limits = r.limits ∧ u.mkt.stale = r.stale ∧ u.mkt.short = r.short ∧
      (∀ b : Fin 12, { u.mkt.bays[b] with relCount := r.bays[b].relCount } = r.bays[b]) ∧
      u.mkt.env = r.env ∧ u.mkt.envRate = r.envRate ∧ u.mkt.envX = r.envX ∧ u.mkt.envXRate = r.envXRate := by
  have held : (s.arrive t).judgeHold t = s.arrive t := if_neg (by rw [show (s.arrive t).refreshMissed t = s.refreshMissed t from rfl, hm]; decide)
  refine Completes.live hl rfl ?_
  simp only [held, State.arrive_mkt, hr, ht, if_true]
  exact State.commitTick_cleared _ r

theorem clearingCommit_early {s : State} {t : Nat} {r : TickResult} (hl : s.live = true) (hr : s.mkt.result = some r)
    (ht : t < r.at_ + 250000) (hm : s.refreshMissed t = false) : Completes (.clearingCommit t) s fun u => u = s.arrive t := by
  have held : (s.arrive t).judgeHold t = s.arrive t := if_neg (by rw [show (s.arrive t).refreshMissed t = s.refreshMissed t from rfl, hm]; decide)
  refine Completes.live hl rfl ?_
  simp only [held, State.arrive_mkt, hr, Nat.not_le.mpr ht, if_false]

/-- Settles O18. -/
theorem marketTick : Obligations.MarketTick := by
  unfold Obligations.MarketTick
  intro s t hl
  exact ⟨fun rd => tickStart_takes hl, fun rd ht => Completes.live hl rfl (if_neg ht), fun r => clearingCommit_commits hl, fun r =>
      clearingCommit_early hl⟩

end Sys2Proof.Machine
end
section
/-! PROOFS. The steps of a pitch: its boundary, the opening of its window, its deadline (R22, R132, R135, R333, R345, R519). -/
namespace Sys2Proof.Machine

/-! ## The release of ACTIVE by a fault (R333, R337) -/

theorem State.afterRelease_fault (w : State) {c : Nat} (h : faultCause c = true) :
    (w.afterRelease c).pair.role = .unfit ∧ (w.afterRelease c).pair.activeO = false := by
  unfold State.afterRelease
  rw [if_pos h]
  exact State.setRole_role ..

theorem State.releaseActive_faultRole {s : State} {c : Nat} (ha : s.pair.role = .active) (h : faultCause c = true) :
    (s.releaseActive c).pair.role = .unfit ∧ (s.releaseActive c).pair.activeO = false := by
  unfold State.releaseActive
  rw [ha]
  exact State.afterRelease_fault _ h

theorem State.role_of_active {s : State} (h : s.active = true) : s.pair.role = .active := by
  simp only [State.active, Bool.and_eq_true, beq_iff_eq] at h
  exact h.1.1

theorem State.judgeHold_kept {s : State} {t : Nat} (h : s.refreshMissed t = false) : s.judgeHold t = s := if_neg (by simp [h])

theorem State.judgeHold_missed {s : State} {t : Nat} (h : s.refreshMissed t = true) : s.judgeHold t = s.releaseActive 1 := if_pos h

@[simp] theorem State.arrive_refreshMissed (s : State) (t u : Nat) : (s.arrive t).refreshMissed u = s.refreshMissed u := rfl

/-! ## The mode of the pair -/

theorem State.setRole_mode (s : State) (r : Role) (c : Nat) : (s.setRole r c).pair.mode = s.pair.mode := by
  rw [State.setRole_pair]
  split <;> rfl

theorem State.cancelPending_mode (s : State) (c : Nat) : (s.cancelPending c).pair.mode = s.pair.mode := by
  have ends : ∀ (w : State) (k : Fin 4), ((w.profErr c 0 0xFFFF).slotSt k .valid).pair.mode = w.pair.mode := fun w k => by
    have o : OnlyIn notPair w ((w.profErr c 0 0xFFFF).slotSt k .valid) := (State.slotSt_only rfl rfl (State.profErr_only rfl rfl (OnlyIn.refl _ _)))
    rw [pair_same (o .role rfl) (o .pair rfl)]
  unfold State.cancelPending
  split
  · rfl
  · split
    · rfl
    · exact ends ..

theorem State.afterRelease_mode (s : State) (c : Nat) : (s.afterRelease c).pair.mode = s.pair.mode := by
  unfold State.afterRelease
  split
  · exact State.setRole_mode ..
  · split <;> exact State.setRole_mode ..

theorem State.releaseActive_mode (s : State) (c : Nat) : (s.releaseActive c).pair.mode = s.pair.mode := by
  have off : ∀ w : State, w.allOff.pair.mode = w.pair.mode := fun w => by
    have o : OnlyIn notPair w w.allOff := (State.allOff_only rfl rfl (OnlyIn.refl _ _))
    rw [pair_same (o .role rfl) (o .pair rfl)]
  unfold State.releaseActive
  split
  · dsimp only
    rw [State.afterRelease_mode, State.dropSite_pair]
    split
    · rw [State.cancelPending_mode, off]; rfl
    · rw [off]; rfl
  · rw [State.setRole_mode]; rfl
  · rfl

/-! ## The boundary (R519) -/

theorem State.isBoundary_iff (s : State) (t : Nat) : s.isBoundary t = true ↔ s.running = true ∧ t % s.pitchNs = 0 ∧ s.prof.gridFrom ≤ t := by
  simp [State.isBoundary, and_assoc]

/-- The stalls' part of a boundary. -/
def State.stallsPass (s : State) (t : Nat) : State :=
  ({ s with lat := { s.lat with stepped := t } } : State).forAll 64 fun n s => if (s.stallRec n).isSome then s.setStall n (stallBoundary t) else s

theorem pitchBoundary_runs {s : State} {t : Nat} (hl : s.live = true) (hb : s.isBoundary t = true) :
    exec (.pitchBoundary t) s = .next (((s.arrive t).stallsPass t).forAll 12 fun b s => s.ssBoundary b) := by
  rw [exec_live hl rfl, if_pos (show (s.arrive t).isBoundary t = true from hb)]
  rfl

theorem State.stallsPass_stall (s : State) (t : Nat) (n : Fin 64) :
    (s.stallsPass t).stalls[n] = if (s.stallRec n).isSome then stallBoundary t s.stalls[n] else s.stalls[n] := by
  unfold State.stallsPass
  refine (State.forAll_at n (Q := fun u => u.stalls[n] = s.stalls[n] ∧ u.stallRec n = s.stallRec n)
    (R := fun u => u.stalls[n] = if (s.stallRec n).isSome then stallBoundary t s.stalls[n] else s.stalls[n]) (fun j u hj hu => ?_) (fun u hu => ?_)
    (fun j u hj hu => ?_) _ ⟨rfl, rfl⟩)
  · split
    · rwa [State.setStall_other _ _ _ _ hj, State.setStall_stallRec]
    · exact hu
  · rw [hu.2]
    split
    · rw [State.setStall_self, hu.1]
    · exact hu.1
  · split
    · rwa [State.setStall_other _ _ _ _ hj]
    · exact hu

/-- A safe stop whose bay is gated opens its outlet at the boundary (R312). -/
theorem State.ssBoundary_self {s : State} {b : Fin 12} (hg : s.saf.stops[b].st = .gating) (hd : s.saf.stops[b].gated = true) :
    (s.ssBoundary b).saf.stops[b].st = .opening := by
  simp [-Fin.getElem_fin, State.ssBoundary, hg, hd]

theorem pitchBoundary_passes {s : State} {t : Nat} (hl : s.live = true) (hr : s.running = true) (hp : t % s.pitchNs = 0)
    (hg : s.prof.gridFrom ≤ t) :
    Completes (.pitchBoundary t) s fun u =>
      (∀ (n : Fin 64) (f : Downlink), (s.stallRec n).isSome = true → s.stalls[n].frame = some f → f.boundary = t → u.stalls[n].applied = some f) ∧
      (∀ (n : Fin 64) (f : Downlink), s.stalls[n].frame = some f → f.boundary ≠ t → u.stalls[n].applied = s.stalls[n].applied) ∧
      (∀ b : Fin 12, s.saf.stops[b].st = .gating → s.saf.stops[b].gated = true → u.saf.stops[b].st = .opening) := by
  refine Completes.of (pitchBoundary_runs hl ((State.isBoundary_iff s t).2 ⟨hr, hp, hg⟩)) ?_
  have rest : ∀ n : Fin 64, (((s.arrive t).stallsPass t).forAll 12 fun b s => s.ssBoundary b).stalls[n].applied =
      ((s.arrive t).stallsPass t).stalls[n].applied := fun n => by
    have o : OnlyIn (allSave (.stall n)) ((s.arrive t).stallsPass t) (((s.arrive t).stallsPass t).forAll 12 fun b s => s.ssBoundary b) :=
      State.forAll_only (fun b u k => (State.ssBoundary_only rfl rfl (k))) (OnlyIn.refl _ _)
    have e := congrArg Stall.applied (o.keeps_stall (n := n) (by simp [allSave]))
    rwa [Stall.rest_applied, Stall.rest_applied] at e
  refine ⟨fun n f hn hf hb => ?_, fun n f hf hb => ?_, fun b hs hd => ?_⟩
  · rw [rest, State.stallsPass_stall, State.arrive_stallRec, if_pos hn]
    simp [-Fin.getElem_fin, stallBoundary, hf, hb]
  · rw [rest, State.stallsPass_stall]
    split
    · simp [-Fin.getElem_fin, stallBoundary, hf, hb]
    · rfl
  · have stops : ((s.arrive t).stallsPass t).saf = s.saf :=
      State.forAll_keeps (fun u => u.saf = s.saf) (fun n u hu => by
        split
        · rw [State.setStall_saf]; exact hu
        · exact hu) rfl
    refine State.forAll_at b (Q := fun u => u.saf.stops[b] = s.saf.stops[b]) (R := fun u => u.saf.stops[b].st = .opening)
      (fun j u hj hu => ?_) (fun u hu => ?_) (fun j u hj hu => ?_) _ (by rw [stops])
    · exact (State.ssBoundary_other _ _ _ hj).trans hu
    · exact State.ssBoundary_self (by rw [hu]; exact hs) (by rw [hu]; exact hd)
    · rw [State.ssBoundary_other _ _ _ hj]; exact hu

theorem pitchBoundary_between {s : State} {t : Nat} (hl : s.live = true) (hp : t % s.pitchNs ≠ 0) :
    Completes (.pitchBoundary t) s fun u => u = s.arrive t := by
  refine Completes.live hl rfl (if_neg ?_)
  rw [State.isBoundary_iff]
  exact fun h => hp h.2.1

/-! ## The window opens (R22) -/

/-- What the opening of a window leaves in the lattice engine. -/
theorem State.openWindow_lat (s : State) (t b : Nat) (shadow : Bool) :
    let l := (s.openWindow t b shadow).lat
    l.windowOpen = true ∧ l.pitch = b ∧ l.shadow = shadow ∧ l.openAt = t ∧ ∀ w ∈ l.sup, t < w.at_ := by
  have mst : ∀ w : State, (if shadow then w else w.sendMstAll).lat = w.lat := fun w => by
    split
    · rfl
    · exact (State.sendMstAll_only (fun _ => rfl) (cs := allSave .lat) (OnlyIn.refl _ w)) .lat rfl
  have take : ∀ w : State, ((w.forAll 12 fun b s => s.ssTake b t).forAll 64 fun n s => s.takeLane t b n).lat = w.lat := fun w =>
    State.forAll_only (cs := allSave .lat) (fun n _ k => (State.takeLane_only rfl (k))) (State.forAll_only (fun n _ k => (State.ssTake_only rfl (fun
        _ => rfl) rfl rfl (k))) (OnlyIn.refl _ w))
      .lat rfl
  have words : ∀ w : State, (w.takeWords t).lat.windowOpen = w.lat.windowOpen ∧ (w.takeWords t).lat.pitch = w.lat.pitch ∧
      (w.takeWords t).lat.shadow = w.lat.shadow ∧ (w.takeWords t).lat.openAt = w.lat.openAt ∧ ∀ x ∈ (w.takeWords t).lat.sup, t < x.at_ := fun w =>
    ⟨rfl, rfl, rfl, rfl, fun x hx => of_decide_eq_true (List.mem_filter.mp hx).2⟩
  unfold State.openWindow
  dsimp only
  rw [mst, State.takeOver]
  obtain ⟨o, p, sh, a, w⟩ := words _
  rw [take] at o p sh a
  exact ⟨o, p, sh, a, w⟩

theorem computeWindowOpen_opens {s : State} {t b : Nat} (hl : s.live = true) (ht : t = b + s.openNs) (hr : s.running = true)
    (hp : b % s.pitchNs = 0) (hg : s.prof.gridFrom ≤ b) (ha : s.active = true ∨ s.pair.mode = .single)
    (ho : s.lat.windowOpen = true → s.lat.pitch ≠ b) (hm : s.refreshMissed t = false) :
    Completes (.computeWindowOpen t) s fun u =>
      u.lat.windowOpen = true ∧ u.lat.pitch = b ∧ u.lat.shadow = false ∧ u.lat.openAt = t ∧ ∀ w ∈ u.lat.sup, t < w.at_ := by
  have pitch : ∀ (w : State), (w.sendPitch b).lat = w.lat := fun w => (State.sendPitch_only rfl (cs := allSave .lat) (OnlyIn.refl _ w)) .lat rfl
  have grid : (s.arrive t).isBoundary b = true := (State.isBoundary_iff s b).2 ⟨hr, hp, hg⟩
  have may : (s.active || s.pair.mode == .single) = true := by rcases ha with h | h <;> simp [h]
  have fresh : (s.lat.windowOpen && s.lat.pitch == b) = false := by
    cases hw : s.lat.windowOpen <;> simp [ho, hw]
  have opens : (s.arrive t).openNs = s.openNs := rfl
  have back : t - s.openNs = b := by rw [ht, Nat.add_sub_cancel]
  have after : s.openNs ≤ t := by rw [ht]; exact Nat.le_add_left ..
  refine Completes.live hl rfl ?_
  rw [State.judgeHold_kept (s := s.arrive t) hm]
  simp only [opens, back, grid, State.arrive_active, State.arrive_pair, State.arrive_lat, may, fresh, decide_eq_true after, Bool.and_self,
      Bool.not_false,
    if_true]
  rw [pitch]
  exact State.openWindow_lat ..

/-- A missed refresh of the hold circuit releases ACTIVE before the window would open (R333). -/
theorem computeWindowOpen_missed {s : State} {t : Nat} (hl : s.live = true) (hm : s.refreshMissed t = true) (hp : s.pair.mode ≠ .single) :
    Completes (.computeWindowOpen t) s fun u => u.pair.role = .unfit ∧ u.pair.activeO = false ∧ u.pair.lastCause = 1 := by
  have role : (s.arrive t).pair.role = .active := by
    simp only [State.refreshMissed, Bool.and_eq_true] at hm
    exact State.role_of_active hm.1
  obtain ⟨unfit, out⟩ := State.releaseActive_faultRole (c := 1) role rfl
  have cause := State.releaseActive_cause (s.arrive t) 1 role
  have mode : ((s.arrive t).releaseActive 1).pair.mode ≠ .single := by
    rw [State.releaseActive_mode]; exact hp
  refine Completes.live hl rfl ?_
  rw [State.judgeHold_missed (s := s.arrive t) hm]
  have inactive : ((s.arrive t).releaseActive 1).active = false := by simp [State.active, unfit]
  rw [if_neg (by simp [inactive, mode])]
  exact ⟨unfit, out, cause⟩

/-! ## The deadline (R132, R135) -/

/-- What the end of a pitch, with the refresh and the release that may follow it, leaves of the tiles. -/
theorem State.endPitch_after {s : State} {img : Image} {ecc : List EccEvent} {miscounted : List Nat} (b : Nat) (c : Option Nat)
    (hu : s.upd.large.st ≠ .activating) :
    let w := s.endPitch img ecc miscounted
    let x := if w.active then w.refreshPitch b else w
    (if x.active then x.afterDeadline c else x).lat.results =
      (false, mergeLanes s.lat.tiles ((List.range 8).map fun l => runLane s img ecc miscounted l)) := by
  have ended := s.endPitch_results img ecc miscounted
  have upd : (s.endPitch img ecc miscounted).upd = s.upd := (State.endPitch_only rfl rfl rfl rfl (fun _ => rfl) rfl rfl rfl (cs := allSave .upd)
      (OnlyIn.refl _ s)) .upd rfl
  dsimp only
  generalize s.endPitch img ecc miscounted = w at ended upd ⊢
  have kept : (if w.active then w.refreshPitch b else w).lat = w.lat ∧ (if w.active then w.refreshPitch b else w).upd = w.upd := by
    split <;> exact ⟨rfl, rfl⟩
  generalize (if w.active then w.refreshPitch b else w) = x at kept ⊢
  have closed : x.lat.windowOpen = false := by rw [kept.1]; exact congrArg Prod.fst ended
  split
  · rw [State.afterDeadline_results _ _ closed (by rw [kept.2, upd]; exact hu), kept.1, ended]
  · rw [kept.1, ended]

theorem computeDeadline_ends {s : State} {t : Nat} {img : Image} {ecc : List EccEvent} {miscounted : List Nat} (hl : s.live = true)
    (hi : s.prof.image = some img) (hw : s.lat.windowOpen = true) (hs : s.lat.shadow = false) (ht : s.lat.pitch + s.closeNs ≤ t)
    (hu : s.upd.large.st ≠ .activating) (hm : s.refreshMissed t = false) :
    Completes (.computeDeadline t ecc miscounted) s fun u =>
      u.lat.windowOpen = false ∧ u.lat.tiles = mergeLanes s.lat.tiles ((List.range 8).map fun l => runLane (s.arrive t) img ecc miscounted l) := by
  have due : (s.arrive t).deadlineOf ≤ t := by
    unfold State.deadlineOf
    rw [State.arrive_lat, hs]
    exact ht
  refine Completes.live hl rfl ?_
  rw [State.judgeHold_kept (s := s.arrive t) hm]
  simp only [State.arrive_prof, hi, State.arrive_lat, hw, decide_eq_true due, hs, Bool.not_false, Bool.and_true, Bool.and_self, if_true,
    Bool.false_eq_true, if_false]
  exact Prod.mk.inj (State.endPitch_after (s := s.arrive t) s.lat.pitch _ hu)

theorem computeDeadline_early {s : State} {t : Nat} {ecc : List EccEvent} {miscounted : List Nat} (hl : s.live = true)
    (hs : s.lat.shadow = false) (ht : t < s.lat.pitch + s.closeNs) (hm : s.refreshMissed t = false) :
    Completes (.computeDeadline t ecc miscounted) s fun u => u = s.arrive t := by
  have early : ¬(s.arrive t).deadlineOf ≤ t := by
    unfold State.deadlineOf
    rw [State.arrive_lat, hs]
    exact Nat.not_le.mpr ht
  refine Completes.live hl rfl ?_
  rw [State.judgeHold_kept (s := s.arrive t) hm]
  dsimp only
  split
  · rw [decide_eq_false early, Bool.and_false, if_neg (by decide)]
  · rfl

/-- Settles O19. -/
theorem pitchSteps : Obligations.PitchSteps := by
  unfold Obligations.PitchSteps
  intro s t hl
  exact ⟨pitchBoundary_passes hl, pitchBoundary_between hl, fun b => computeWindowOpen_opens hl, computeWindowOpen_missed hl,
    fun img ecc mc => computeDeadline_ends hl, fun ecc mc _ => computeDeadline_early hl⟩

end Sys2Proof.Machine
end

section
/-! PROOFS. The profile windows and the commands of SYS.PROF_CTRL (R31, R55, R56, R142). -/
namespace Sys2Proof.Machine

/-! ## The profile windows (R31) -/

theorem slotAddr_window (p : Fin 4) {off : Nat} (h : off < 0x100000) : slotAddr (0x01000000 + p.val * 0x100000 + off) = some (p, off) := by
  have slot : (0x01000000 + p.val * 0x100000 + off - 0x01000000) / 0x100000 = p.val := by omega
  have within_ : (0x01000000 + p.val * 0x100000 + off - 0x01000000) % 0x100000 = off := by omega
  rw [slotAddr, if_pos (by omega), slot, within_, fin?_val]
  rfl

section
variable {s : State} {t : Nat} {m : Master} {p : Fin 4} (hl : s.live = true) (hs : s.serves m = true)
include hl hs

section
variable {off : Nat} {v : Word} (ha : off % 4 = 0) (ho : off < 0x100000)
include ha ho

theorem profileWindowWrite_command {P : State → Prop}
    (h : P ((s.arrive t).command m (0x01000000 + p.val * 0x100000 + off) (profWindowEffect (s.arrive t) p off v).1 fun u => u.storeSlot p off v)) :
    Completes (.profileWindowWrite t m (0x01000000 + p.val * 0x100000 + off) v) s P := by
  refine Completes.live hl rfl ?_
  simp only [slotAddr_window p ho, ha, ne_eq, not_true_eq_false, if_false, foreign_none (s := s.arrive t) hs, firstOf_none]
  exact h

theorem profileWindowWrite_stores (hx : slotHeld s.prof.slots[p] = false) (hr : s.slotRoom 4 = true) :
    Completes (.profileWindowWrite t m (0x01000000 + p.val * 0x100000 + off) v) s fun u =>
      u.prof.slots[p].st = .loading ∧ u.prof.slots[p].mem = memWrites s.prof.slots[p].mem off (leBytes 4 v.toNat) ∧ u.host.answer = okAnswer := by
  have room : (!(s.arrive t).slotRoom 4) = false := by rw [show (s.arrive t).slotRoom 4 = s.slotRoom 4 from rfl, hr]; rfl
  refine profileWindowWrite_command hl hs ha ho ?_
  simp only [profWindowEffect, State.arrive_prof, refuseIf_false hx, refuseIf_false room, firstOf_none, State.command_none, State.storeSlot_self]
  exact ⟨trivial, trivial, trivial⟩

theorem profileWindowWrite_locked (hx : slotHeld s.prof.slots[p] = true) :
    Completes (.profileWindowWrite t m (0x01000000 + p.val * 0x100000 + off) v) s fun u =>
      u.prof = s.prof ∧ u.host.answer = ⟨.locked, .none⟩ := by
  refine profileWindowWrite_command hl hs ha ho ?_
  simp only [profWindowEffect, State.arrive_prof, refuseIf_true hx, firstOf, State.command_some]
  exact ⟨by rw [State.answered_prof, State.arrive_prof], State.answered_answer ..⟩

end

/-! ## The commands (R55, R56) -/

/-- A command of SYS.PROF_CTRL that nothing refuses takes effect after MODE and SLOT are set. -/
theorem profCommand_runs {c : Instr} {k : ProfCmd} {md : Fin 4} {mode : ChangeMode} {P : State → Prop}
    (e : exec c s = .next (whenLive t (fun s => s.profAccess m k p md) s)) (hm : modeOf md = some mode)
    (hr : profRefusal (s.arrive t) k p (some mode) = none)
    (h : ∀ w : State, w = { s.arrive t with prof := { s.prof with ctrlMode := md.val, ctrlSlot := p.val } } →
      P { w.profRun m k p mode with host := { (w.profRun m k p mode).host with answer := okAnswer } }) : Completes c s P := by
  refine Completes.live hl e ?_
  rw [State.profAccess_runs (s.arrive t) m k p md mode hs hm hr, State.answered_ok]
  exact h _ rfl

/-- A refused one leaves its code in PROF_ERR, where it has one. -/
theorem profCommand_refused {c : Instr} {k : ProfCmd} {md : Fin 4} {mode : ChangeMode} {a : Answer} {code : Option Nat}
    (e : exec c s = .next (whenLive t (fun s => s.profAccess m k p md) s)) (hm : modeOf md = some mode)
    (hr : profRefusal (s.arrive t) k p (some mode) = some (a, code)) :
    Completes c s fun u => u.prof.slots = s.prof.slots ∧ u.prof.errCode = code.getD s.prof.errCode ∧ u.host.answer = a := by
  refine Completes.live hl e ?_
  rw [State.profAccess_refused (s.arrive t) m k p md mode hs a code hm hr, State.answered_prof, State.answered_answer]
  cases code with
  | none => exact ⟨rfl, rfl, rfl⟩
  | some k =>
    dsimp only
    rw [State.profErr_prof]
    exact ⟨rfl, rfl, rfl⟩

section
variable {md : Fin 4} {mode : ChangeMode} (hm : modeOf md = some mode)
include hm

theorem check_starts (he : s.prof.slots[p].st ≠ .empty) (ha : s.prof.slots[p].st ≠ .active) (hc : s.prof.check = none)
    (hp : s.prof.pend = none) :
    Completes (.check t m p md) s fun u =>
      u.prof.slots[p].st = .checking ∧ u.prof.check.map (·.slot) = some p ∧ u.host.answer = okAnswer := by
  refine profCommand_runs hl hs rfl hm (by simp [-Fin.getElem_fin, profRefusal, he, ha, hc, hp]) fun w _ => ?_
  obtain ⟨slot, check, _⟩ := w.startCheck_prof m p none
  exact ⟨by show (w.startCheck m p none).prof.slots[p].st = _; rw [slot], by show (w.startCheck m p none).prof.check.map _ = _; rw [check]; rfl, rfl⟩

theorem check_empty (he : s.prof.slots[p].st = .empty) :
    Completes (.check t m p md) s fun u => u.prof.slots = s.prof.slots ∧ u.prof.errCode = 0x30 ∧ u.host.answer = ⟨.denied, .state⟩ :=
  profCommand_refused hl hs rfl hm (code := some 0x30) (by simp [-Fin.getElem_fin, profRefusal, he, deny])

theorem erase_erases (hx : slotHeld s.prof.slots[p] = false) (hf : s.pwr.pfw = false) :
    Completes (.erase t m p md) s fun u => u.prof.slots[p].st = .empty ∧ u.prof.slots[p].mem = [] ∧ u.host.answer = okAnswer := by
  refine profCommand_runs hl hs rfl hm (by simp [-Fin.getElem_fin, profRefusal, hx, hf]) fun w _ => ?_
  have slot : (w.profRun m .erase p mode).prof.slots[p] = { w.prof.slots[p] with mem := [], extent := 0, st := .empty } := by
    show ((w.setSlot p _).slotSt p .empty).prof.slots[p] = _
    rw [State.slotSt_self, State.setSlot_self]
  exact ⟨by rw [slot], by rw [slot], rfl⟩

theorem erase_locked (hx : slotHeld s.prof.slots[p] = true) :
    Completes (.erase t m p md) s fun u => u.prof.slots = s.prof.slots ∧ u.host.answer = ⟨.locked, .none⟩ := by
  obtain ⟨u, e, slots, _, answer⟩ := profCommand_refused (t := t) (c := .erase t m p md) (a := ⟨.locked, .none⟩) (code := none) hl hs rfl hm
    (by simp [-Fin.getElem_fin, profRefusal, hx])
  exact ⟨u, e, slots, answer⟩

/-- CANCEL runs whatever the slot: it ends the pending change but for a LIVE set whose copy has started (R55, R142). -/
theorem cancel_runs {P : State → Prop}
    (h : ∀ w : State, w = { s.arrive t with prof := { s.prof with ctrlMode := md.val, ctrlSlot := p.val } } →
      P { w.cancelPending 0x34 with host := { (w.cancelPending 0x34).host with answer := okAnswer } }) : Completes (.cancel t m p md) s P :=
  profCommand_runs hl hs rfl hm (by simp [profRefusal]) h

theorem cancel_ends {q : PendingChange} (hq : s.prof.pend = some q) (hc : q.mode ≠ .live ∨ s.lat.copying = false) :
    Completes (.cancel t m p md) s fun u =>
      u.prof.pend = none ∧ u.prof.errCode = 0x34 ∧ u.prof.slots[q.slot].st = .valid ∧ u.lat.swapPend = 0 ∧ u.host.answer = okAnswer := by
  refine cancel_runs hl hs hm fun w e => ?_
  subst e
  obtain ⟨pend, err, slot, swap⟩ := State.cancelPending_some { s.arrive t with prof := { s.prof with ctrlMode := md.val, ctrlSlot := p.val } } q 0x34
      hq
    (fun h => hc.elim (fun k => k h.1) fun k => absurd (k.symm.trans h.2) (by decide))
  exact ⟨pend, err, slot, swap, rfl⟩

theorem cancel_copying {q : PendingChange} (hq : s.prof.pend = some q) (hv : q.mode = .live) (hc : s.lat.copying = true) :
    Completes (.cancel t m p md) s fun u =>
      u.prof.pend = some q ∧ u.prof.slots = s.prof.slots ∧ u.lat = s.lat ∧ u.host.answer = okAnswer := by
  refine cancel_runs hl hs hm fun w e => ?_
  subst e
  rw [State.cancelPending_copying { s.arrive t with prof := { s.prof with ctrlMode := md.val, ctrlSlot := p.val } } q 0x34 hq hv hc]
  exact ⟨hq, rfl, rfl, rfl⟩

theorem cancel_nothing (hq : s.prof.pend = none) :
    Completes (.cancel t m p md) s fun u => u.prof.slots = s.prof.slots ∧ u.host.answer = okAnswer := by
  refine cancel_runs hl hs hm fun w e => ?_
  subst e
  simp [State.cancelPending, hq]

end

section
variable (he : s.prof.slots[p].st ≠ .empty) (ha : s.prof.slots[p].st ≠ .active) (hc : s.prof.check = none) (hp : s.prof.pend = none)
include he ha hc hp

theorem activate_stopped_starts (hb : s.energisedMask = 0) (hv : s.moveInFlight = false) (hf : s.logFull = false) :
    Completes (.activate t m p 0) s fun u =>
      u.prof.slots[p].st = .checking ∧ u.prof.check.bind (·.activate) = some .stopped ∧ u.prof.holdSessions = true ∧ u.host.answer = okAnswer := by
  have calm : (s.arrive t).energisedMask = s.energisedMask ∧ (s.arrive t).moveInFlight = s.moveInFlight ∧ (s.arrive t).logFull = s.logFull :=
    ⟨rfl, rfl, rfl⟩
  refine profCommand_runs hl hs rfl (mode := .stopped) rfl (by simp [-Fin.getElem_fin, profRefusal, he, ha, hc, hp, calm, hb, hv, hf]) fun w _ => ?_
  obtain ⟨slot, check, hold⟩ := w.startCheck_prof m p (some .stopped)
  have run : w.profRun m .activate p .stopped = w.startCheck m p (some .stopped) := rfl
  rw [run]
  exact ⟨by dsimp only; rw [slot], by dsimp only; rw [check]; rfl, hold, rfl⟩

/-- Code 0x31: a bay is energised or a move is in flight. -/
theorem activate_stopped_refused (hb : s.energisedMask ≠ 0 ∨ s.moveInFlight = true) :
    Completes (.activate t m p 0) s fun u => u.prof.slots = s.prof.slots ∧ u.prof.errCode = 0x31 ∧ u.host.answer = ⟨.denied, .state⟩ := by
  have busy : (s.arrive t).energisedMask ≠ 0 ∨ (s.arrive t).moveInFlight = true := hb
  exact profCommand_refused hl hs rfl (mode := .stopped) rfl (code := some 0x31)
    (by simp [-Fin.getElem_fin, profRefusal, he, ha, hc, hp, busy, deny])

/-- Code 0x32: nothing runs that a LIVE change could follow. -/
theorem activate_live_refused (hr : s.running = false) :
    Completes (.activate t m p 1) s fun u => u.prof.slots = s.prof.slots ∧ u.prof.errCode = 0x32 ∧ u.host.answer = ⟨.denied, .state⟩ :=
  profCommand_refused hl hs rfl (mode := .live) rfl (code := some 0x32) (by simp [-Fin.getElem_fin, profRefusal, he, ha, hc, hp, hr, deny])

end

end

/-- The modes that R55 has. -/
theorem modeOf_known {md : Fin 4} (h : md.val < 3) : ∃ mode, modeOf md = some mode := by
  match md, h with
  | 0, _ => exact ⟨.stopped, rfl⟩
  | 1, _ => exact ⟨.live, rfl⟩
  | 2, _ => exact ⟨.handover, rfl⟩

/-- Settles O20. -/
theorem profileCommands : Obligations.ProfileCommands := by
  unfold Obligations.ProfileCommands
  intro s t m p hl hs
  have free : ∀ {x : ProfSlot}, ¬(x.st = .active ∨ x.st = .pending ∨ x.st = .checking) → slotHeld x = false := fun {x} h =>
    Bool.eq_false_iff.2 fun e => h ((slotHeld_iff x).1 e)
  refine ⟨fun off v ha ho => ⟨fun hx => profileWindowWrite_stores hl hs ha ho (free hx),
    fun hx => profileWindowWrite_locked hl hs ha ho ((slotHeld_iff _).2 hx)⟩, fun md hmd => ?_, activate_stopped_starts hl hs,
    activate_stopped_refused hl hs, activate_live_refused hl hs⟩
  obtain ⟨mode, hm⟩ := modeOf_known hmd
  exact ⟨check_starts hl hs hm, check_empty hl hs hm, fun hx => erase_erases hl hs hm (free hx),
    fun hx => erase_locked hl hs hm ((slotHeld_iff _).2 hx), fun q hq => ⟨cancel_ends hl hs hm hq, cancel_copying hl hs hm hq⟩,
    cancel_nothing hl hs hm⟩

end Sys2Proof.Machine
end
section
/-! PROOFS. How a check and a pending change end, and what a switch leaves (R50, R55, R61, R66, R142, R145, R355). -/
namespace Sys2Proof.Machine

/-! ## The end of a check -/

theorem State.checkFailed_prof (s : State) (c : CheckRun) (e : ImgErr) :
    let q := (s.checkFailed c e).prof
    q.slots[c.slot].st = .invalid ∧ q.slots[c.slot].lastCode = e.code ∧ q.errCode = e.code ∧ q.check = none := by
  unfold State.checkFailed
  dsimp only
  rw [State.log_prof, State.setSlot_self, State.setSlot_errCode, State.setSlot_check, State.profErr_prof]
  exact ⟨rfl, rfl, rfl, rfl⟩

theorem State.checkPassed_prof (s : State) (c : CheckRun) :
    let q := (s.checkPassed c).prof
    q.slots[c.slot].st = .valid ∧ q.slots[c.slot].lastCode = 0 ∧ q.check = none := by
  unfold State.checkPassed
  dsimp only
  rw [State.log_prof, State.setSlot_self, State.setSlot_check]
  exact ⟨rfl, rfl, rfl⟩

/-- The check of an ACTIVATE in STOPPED mode ends well: the change is pending from now on (R55). -/
theorem State.becomePending_stopped (s : State) (c : CheckRun) (img : Image) :
    let q := (s.becomePending c .stopped img).prof
    q.slots[c.slot].st = .pending ∧ q.check = none ∧
    ∃ p, q.pend = some p ∧ p.slot = c.slot ∧ p.mode = .stopped ∧ p.image = img ∧ p.since = s.mt := by
  unfold State.becomePending
  dsimp only
  rw [if_neg (fun h => nomatch h.1), State.log_prof, State.slotSt_self]
  exact ⟨rfl, rfl, _, rfl, rfl, rfl, rfl, rfl⟩

@[simp] theorem State.signatureServed_mt (s : State) (p : Fin 4) (v : Except ImgErr Image) : (s.signatureServed p v).mt = s.mt :=
  (State.signatureServed_only rfl rfl rfl rfl rfl (cs := allSave .mt) (OnlyIn.refl _ s)) .mt rfl

/-- The LIVE switch (R66). -/
theorem State.switchLive_parts (s : State) (p : PendingChange) :
    let u := s.switchLive p
    u.prof.active = some p.slot ∧ u.prof.image = some p.image ∧ u.prof.pend = none ∧ u.prof.slots[p.slot].st = .active ∧
    u.prof.switchCount = wrapInc 16 s.prof.switchCount ∧ u.lat.tiles = liveTiles p.image s.lat.tiles ∧
    u.lat.swapCount = satInc 16 s.lat.swapCount := by
  obtain ⟨active, image, pend, slot, count⟩ := s.takeSlot_prof p.slot p.image 2
  have lat : (s.takeSlot p.slot p.image 2).lat = s.lat := (State.takeSlot_only rfl rfl rfl (cs := allSave .lat) (OnlyIn.refl _ s)) .lat rfl
  unfold State.switchLive
  generalize s.takeSlot p.slot p.image 2 = y at active image pend slot count lat ⊢
  dsimp only
  rw [State.countSwitch_prof, State.countSwitch_lat]
  exact ⟨active, image, pend, slot, congrArg (wrapInc 16) count, by rw [lat], by rw [lat]⟩

/-- A release for a profile handover leaves the profiles alone (R355). -/
theorem State.releaseActive_handover_prof (s : State) : (s.releaseActive 0x0B).prof = s.prof := by
  have drop : ∀ w : State, (if w.pair.mode = .full then w else w.dropSite).prof = w.prof := fun w => by
    split
    · rfl
    · exact (State.dropSite_only rfl rfl (fun _ => rfl) (fun _ => rfl) (fun _ => rfl) (fun _ => rfl) (fun _ => rfl) rfl (cs := allSave .prof)
        (OnlyIn.refl _ w)) .prof rfl
  have after : ∀ w : State, (w.afterRelease 0x0B).prof = w.prof := fun w => (State.afterRelease_only rfl rfl rfl rfl rfl rfl (cs := allSave .prof)
      (OnlyIn.refl _ w)) .prof rfl
  have off : ((s.countRelease 0x0B).allOff).prof = s.prof := (State.allOff_only rfl rfl (cs := allSave .prof) (State.countRelease_only rfl
      (OnlyIn.refl _ _))) .prof rfl
  unfold State.releaseActive
  split
  · dsimp only
    rw [after, drop, if_neg (by simp), off]
  · exact (State.setRole_only rfl rfl rfl rfl rfl rfl (cs := allSave .prof) (OnlyIn.refl _ _)) .prof rfl
  · rfl

section
variable {s : State} {t : Nat} (hl : s.live = true)
include hl

section
variable {c : CheckRun} (hc : s.prof.check = some c)
include hc

/-- A check that ends in time is judged. -/
theorem checkComplete_judges (ht : t ≤ c.started + ms 60) : exec (.checkComplete t) s = .next ((s.arrive t).endCheck c) := by
  rw [exec_live hl rfl]
  simp only [State.arrive_prof, hc, not_expired ht, Bool.false_eq_true, if_false]

theorem checkComplete_fails (ht : t ≤ c.started + ms 60) {e : ImgErr} (hv : checkSlot (s.arrive t) c.unlocked c.slot = .error e) :
    Completes (.checkComplete t) s fun u =>
      u.prof.slots[c.slot].st = .invalid ∧ u.prof.slots[c.slot].lastCode = e.code ∧ u.prof.errCode = e.code ∧ u.prof.check = none := by
  refine Completes.of (checkComplete_judges hl hc ht) ?_
  simp only [State.endCheck, hv]
  exact State.checkFailed_prof ..

theorem checkComplete_passes (ht : t ≤ c.started + ms 60) {img : Image} (hv : checkSlot (s.arrive t) c.unlocked c.slot = .ok img)
    (ha : c.activate = none) :
    Completes (.checkComplete t) s fun u => u.prof.slots[c.slot].st = .valid ∧ u.prof.slots[c.slot].lastCode = 0 ∧ u.prof.check = none := by
  refine Completes.of (checkComplete_judges hl hc ht) ?_
  simp only [State.endCheck, hv, ha]
  exact State.checkPassed_prof ..

theorem checkComplete_pends (ht : t ≤ c.started + ms 60) {img : Image} (hv : checkSlot (s.arrive t) c.unlocked c.slot = .ok img)
    (ha : c.activate = some .stopped) :
    Completes (.checkComplete t) s fun u => u.prof.slots[c.slot].st = .pending ∧ u.prof.check = none ∧
      ∃ p, u.prof.pend = some p ∧ p.slot = c.slot ∧ p.mode = .stopped ∧ p.image = img ∧ p.since = max s.mt t := by
  refine Completes.of (checkComplete_judges hl hc ht) ?_
  have pends := State.becomePending_stopped ((s.arrive t).signatureServed c.slot (checkSlot (s.arrive t) c.unlocked c.slot)) c img
  rw [State.signatureServed_mt, State.arrive_mt, hv] at pends
  simp only [State.endCheck, hv, ha]
  exact pends

theorem checkTimeout_fails (ht : c.started + ms 60 < t) :
    Completes (.checkTimeout t) s fun u => u.prof.slots[c.slot].st = .invalid ∧ u.prof.errCode = 0x2F ∧ u.prof.check = none := by
  obtain ⟨st, _, err, chk⟩ := (s.arrive t).checkFailed_prof c ⟨0x2F, 0, 0xFFFF⟩
  refine Completes.live hl rfl ?_
  simp only [State.arrive_prof, hc, is_expired ht, if_true]
  exact ⟨st, err, chk⟩

end

/-! ## The end of a pending change -/

section
variable {p : PendingChange} (hp : s.prof.pend = some p)
include hp

omit hl in
/-- What the end of a change after 100 ms leaves, unless the copy of a LIVE set has started. -/
theorem State.cancelPending_late (hc : p.mode ≠ .live ∨ s.lat.copying = false) :
    ((s.arrive t).cancelPending 0x33).prof.slots[p.slot].st = .valid ∧ ((s.arrive t).cancelPending 0x33).prof.errCode = 0x33 ∧
    ((s.arrive t).cancelPending 0x33).prof.pend = none := by
  obtain ⟨pend, err, slot, _⟩ := State.cancelPending_some (s.arrive t) p 0x33 hp
    (fun h => hc.elim (fun k => k h.1) fun k => absurd (k.symm.trans h.2) (by decide))
  exact ⟨slot, err, pend⟩

theorem pendingTimeout_cancels (ht : p.since + ms 100 < t) (hc : p.mode ≠ .live ∨ s.lat.copying = false) :
    Completes (.pendingTimeout t) s fun u => u.prof.slots[p.slot].st = .valid ∧ u.prof.errCode = 0x33 ∧ u.prof.pend = none := by
  refine Completes.live hl rfl ?_
  simp only [State.arrive_prof, hp, is_expired ht, if_true]
  exact State.cancelPending_late hp hc

theorem profileSwitch_late (ht : p.since + ms 100 < t) (hc : p.mode ≠ .live ∨ s.lat.copying = false) :
    Completes (.profileSwitch t) s fun u => u.prof.slots[p.slot].st = .valid ∧ u.prof.errCode = 0x33 ∧ u.prof.pend = none := by
  have ended : (!(p.mode == .live && s.lat.copying)) = true := by rcases hc with h | h <;> simp [h]
  refine Completes.live hl rfl ?_
  simp only [State.arrive_prof, State.arrive_lat, hp, is_expired ht, ended, Bool.and_self, if_true]
  exact State.cancelPending_late hp hc

/-! ## The switches -/

theorem profileSwitch_stopped (hm : p.mode = .stopped) (h1 : t % 1000000 = 0) (h2 : p.since < t) (ht : t ≤ p.since + ms 100) :
    Completes (.profileSwitch t) s fun u =>
      u.prof.active = some p.slot ∧ u.prof.image = some p.image ∧ u.prof.pend = none ∧ u.prof.slots[p.slot].st = .active ∧
      u.prof.gridFrom = roundUpTo p.image.header.pitchNs (max s.mt t) ∧ u.prof.switchCount = wrapInc 16 s.prof.switchCount ∧
      u.lat.tiles = loadTiles p.image := by
  obtain ⟨active, image, pend, slot, count, grid⟩ := (s.arrive t).activateImage_prof p.slot p.image 2 p.master
  have tiles := (s.arrive t).activateImage_tiles p.slot p.image 2 p.master
  refine Completes.running hl rfl (u := (s.arrive t).switchStopped p) ?_ ?_
  · simp only [State.arrive_prof, hp, not_expired ht, hm, h1, h2, Bool.false_and, Bool.false_eq_true, if_false, and_self, if_true]
  · rw [State.switchStopped, State.countSwitch_prof, State.countSwitch_lat]
    exact ⟨active, image, pend, slot, grid, congrArg (wrapInc 16) count, tiles⟩

/-- A LIVE change in its 100 ms, or one whose copy has started, goes on. -/
theorem profileSwitch_live {q : Nat} (hm : p.mode = .live) (hq : p.tickDone = some q) (ht : t ≤ p.since + ms 100 ∨ s.lat.copying = true) :
    exec (.profileSwitch t) s = .next (if q ≤ t ∧ s.windowStart t then (s.arrive t).switchLive p else s.arrive t) := by
  have goes : (expired t (p.since + ms 100) && !(ChangeMode.live == .live && s.lat.copying)) = false := by
    rcases ht with h | h
    · rw [not_expired h, Bool.false_and]
    · simp [h]
  rw [exec_live hl rfl]
  simp only [State.arrive_prof, State.arrive_lat, hp, hm, goes, Bool.false_eq_true, if_false, hq]
  rfl

theorem profileSwitch_lives {q : Nat} (hm : p.mode = .live) (hq : p.tickDone = some q) (h1 : q ≤ t) (h2 : s.windowStart t = true)
    (ht : t ≤ p.since + ms 100 ∨ s.lat.copying = true) :
    Completes (.profileSwitch t) s fun u =>
      u.prof.active = some p.slot ∧ u.prof.image = some p.image ∧ u.prof.pend = none ∧ u.prof.slots[p.slot].st = .active ∧
      u.prof.switchCount = wrapInc 16 s.prof.switchCount ∧ u.lat.tiles = liveTiles p.image s.lat.tiles ∧
      u.lat.swapCount = satInc 16 s.lat.swapCount := by
  refine Completes.of (profileSwitch_live hl hp hm hq ht) ?_
  rw [if_pos ⟨h1, h2⟩]
  exact (s.arrive t).switchLive_parts p

theorem profileSwitch_waits {q : Nat} (hm : p.mode = .live) (hq : p.tickDone = some q) (hw : t < q ∨ s.windowStart t = false)
    (ht : t ≤ p.since + ms 100 ∨ s.lat.copying = true) : exec (.profileSwitch t) s = .next (s.arrive t) := by
  rw [profileSwitch_live hl hp hm hq ht, if_neg]
  rintro ⟨h1, h2⟩
  rcases hw with h | h
  · exact absurd h1 (Nat.not_le.mpr h)
  · rw [h] at h2
    exact absurd h2 (by decide)

theorem profileHandoverRelease_releases {q : Nat} (hm : p.mode = .handover) (hq : p.loaded = some q) (h1 : q + 1000000 ≤ t)
    (hf : s.pair.mode = .full) (ha : s.active = true) (hw : s.lat.windowOpen = false) (ht : t ≤ p.since + ms 100) :
    Completes (.profileHandoverRelease t) s fun u =>
      u.prof.active = some p.slot ∧ u.prof.image = some p.image ∧ u.prof.pend = none ∧ u.prof.slots[p.slot].st = .active ∧
      u.prof.switchCount = wrapInc 16 s.prof.switchCount ∧ u.pair.role = .standby ∧ u.pair.activeO = false := by
  have sent : ((s.arrive t).sendCtrl .releasing).pair.role = .active ∧ ((s.arrive t).sendCtrl .releasing).prof = s.prof :=
    have o : OnlyIn (allSave .role) (s.arrive t) ((s.arrive t).sendCtrl .releasing) := (State.sendCtrl_only rfl (OnlyIn.refl _ _))
    ⟨(Prod.mk.inj (o.keeps_role rfl)).1.trans (State.role_of_active (s := s.arrive t) ha),
      (State.sendCtrl_only rfl (cs := allSave .prof) (OnlyIn.refl _ (s.arrive t))) .prof rfl⟩
  refine Completes.running hl rfl (u := (((s.arrive t).sendCtrl .releasing).releaseActive 0x0B).takeHandover p) ?_ ?_
  · simp only [State.arrive_prof, hp, hq, hm, not_expired ht, State.arrive_pair, hf, State.arrive_active, ha, State.arrive_lat, hw, decide_eq_true h1,
      beq_self_eq_true, Bool.and_false, Bool.false_eq_true, if_false, Bool.not_false, Bool.and_self, if_true]
  · have prof := State.releaseActive_handover_prof ((s.arrive t).sendCtrl .releasing)
    obtain ⟨role, out⟩ := State.releaseActive_handover _ sent.1
    rw [sent.2] at prof
    generalize ((s.arrive t).sendCtrl .releasing).releaseActive 0x0B = w at prof role out ⊢
    obtain ⟨active, image, pend, slot, count⟩ := (w.setSeljo fun q => { q with partnerReleasing := false }).switchHandover_prof p
    have held : OnlyIn (allSave .role) w (w.takeHandover p) := (State.takeHandover_only rfl rfl rfl rfl rfl (fun _ => rfl) rfl rfl rfl rfl rfl rfl
        (OnlyIn.refl _ _))
    have e := held.keeps_role rfl
    rw [Prod.mk.injEq] at e
    unfold State.takeHandover at e ⊢
    rw [State.setPartner_prof]
    exact ⟨active, image, pend, slot, count.trans (congrArg (fun x => wrapInc 16 x.switchCount) prof), e.1.trans role, e.2.trans out⟩

end

end

/-- Settles O21. -/
theorem profileEnds : Obligations.ProfileEnds := by
  unfold Obligations.ProfileEnds
  intro s t hl
  exact ⟨fun c hc ht => ⟨fun e => checkComplete_fails hl hc ht, fun img => checkComplete_passes hl hc ht, fun img => checkComplete_pends hl hc ht⟩,
    fun c => checkTimeout_fails hl, fun p => pendingTimeout_cancels hl, fun p => profileSwitch_late hl, fun p => profileSwitch_stopped hl,
    fun p q hp => profileSwitch_lives hl hp, fun p q hp => profileSwitch_waits hl hp,
    fun p q hp => profileHandoverRelease_releases hl hp⟩

end Sys2Proof.Machine
end

section
/-! PROOFS. A vehicle message, its response and the end codes of a session: what the statements about sessions share (R213, R217, R220 to R223,
R229, R231, R343). -/
namespace Sys2Proof.Machine

/-- The bay after a response, and where the response then stands (R223, R343). -/
theorem State.respond_parts {s w : State} (h : w.sealing = s.sealing) (b : Fin 12) (r : Resp) : ∃ x y z v k,
    (w.respond b r).bays[b] =
      { w.bays[b] with resp := x, heldResp := y, session := { w.bays[b].session with seqDue := z, loopDue := v, tcpOut := k } } ∧
    s.responseIn (w.respond b r) b = some r := by
  obtain ⟨x, y, z, v, k, e⟩ := w.respond_bay b r
  exact ⟨x, y, z, v, k, e, State.respond_response s w b r h⟩

/-- What a completed response leaves: what the state before it had of bay and session, and the response. -/
theorem Completes.responds {c : Instr} {s w : State} {b : Fin 12} {r : Resp} {P : State → Prop} (e : exec c s = .next (w.respond b r))
    (hk : w.sealing = s.sealing)
    (hp : ∀ u x y z v k, u.bays[b] =
      { w.bays[b] with resp := x, heldResp := y, session := { w.bays[b].session with seqDue := z, loopDue := v, tcpOut := k } } →
      s.responseIn u b = some r → P u) : Completes c s P := by
  obtain ⟨x, y, z, v, k, he, ha⟩ := State.respond_parts hk b r
  exact Completes.of e (hp _ x y z v k he ha)

/-- The end code that is not held back by a safety demand (R231). -/
theorem keptCode_own {q : Session} {c : Nat} (hd : q.doomed = false) (hc : c ≠ 0) :
    keptCode q c = if q.endCode = 0 ∨ q.codeOld = true then c else q.endCode := by
  simp [keptCode, ownCode, hd, hc]

/-- A session that ends without a code of its own keeps what it has. -/
theorem keptCode_none {q : Session} (hd : q.doomed = false) : keptCode q 0 = q.endCode := by simp [keptCode, ownCode, hd]

section
variable {s : State} {t : Nat} {b : Fin 12}

/-- The session after one more message has come in. -/
theorem State.arrive_countIn_bay : ((s.arrive t).countIn b).bays[b] =
    { s.bays[b] with session := { s.bays[b].session with tcpIn := wrapInc 32 s.bays[b].session.tcpIn, seqDue := none, loopDue := none } } := by
  rw [State.countIn_self, State.arrive_bays]

@[simp] theorem State.arrive_sealing : (s.arrive t).sealing = s.sealing := rfl

@[simp] theorem State.bump_sealing (k : Fin 16) : (s.bump k).sealing = s.sealing := rfl

@[simp] theorem State.setBay_sealing (f : Bay → Bay) : (s.setBay b f).sealing = s.sealing := rfl

@[simp] theorem State.commandOutlet_sealing (c : Bool) : (s.commandOutlet b c).sealing = s.sealing := by
  unfold State.commandOutlet
  split <;> rfl

@[simp] theorem State.log_sealing (code i a k : Nat) (w : Bytes) : (s.log code i a k w).sealing = s.sealing := by
  rw [State.sealing, State.log_pair, State.log_vault, State.log_met, State.sealing]

@[simp] theorem State.drawBytes_sealing (n : Nat) : (s.drawBytes n).2.sealing = s.sealing := by
  rw [State.drawBytes_draws]; rfl

@[simp] theorem State.drawBytes_bays (n : Nat) : (s.drawBytes n).2.bays = s.bays := by rw [State.drawBytes_draws]

variable (hl : s.live = true) (ha : s.active = true) (hb : (s.bayRec b).isSome = true) (ht : s.onTime t b)
  (hd : s.bays[b].session.doomed = false)
include hl ha hb

/-- An event of a bay of the image in the module that holds ACTIVE. -/
theorem whenActive_runs {c : Instr} {f : State → State} (e : exec c s = .next (whenActive t b f s)) : exec c s = .next (f (s.arrive t)) := by
  rw [e, whenActive_run hl ha hb]

include ht
include hd

theorem message_runs (htls : s.bays[b].session.tls = true) (hi : s.bays[b].session.st ≠ .idle) {c : Instr} {n : RespName} {f : State → State}
    (e : exec c s = .next (vehicleMsg t b true n f s)) : exec c s = .next (f ((s.arrive t).countIn b)) := by
  rw [e, vehicleMsg_run hl ha hb ht hd htls hi]

end

end Sys2Proof.Machine
end
section
/-! PROOFS. How a session begins and how it is authorised (R213, R218, R219, R220, R221, R223). -/
namespace Sys2Proof.Machine

/-! ## The TLS connection (R213, R221) -/

theorem State.anyKey_helloOk {s : State} {h : TlsHello} : s.helloOk h = true ↔
    h.tls13 = true ∧ h.aes256Gcm = true ∧ (h.secp384r1 = true ∨ h.secp256r1 = true) ∧ s.anyKey .marketSup 8 ≠ none := by
  simp [State.helloOk, helloFits, Option.isSome_iff_ne_none, and_assoc]

/-- A failed handshake of a bay that is not energised ends the session (R221). -/
theorem State.tlsRefused_ends {s : State} {b : Fin 12} (hs : s.bays[b].session.st = .setup) (hd : s.bays[b].session.doomed = false)
    (he : s.bays[b].energised = false) :
    let u := (s.tlsRefused b).bays[b]
    u.session.st = .ended ∧ u.session.tls = false ∧ u.errTls = satInc 8 s.bays[b].errTls ∧ u.session.entered = s.mt ∧
    u.session.endCode = if s.bays[b].session.endCode = 0 ∨ s.bays[b].session.codeOld = true then 0x14 else s.bays[b].session.endCode := by
  unfold State.tlsRefused State.tlsEnds
  dsimp only
  generalize hw : (s.setBay b fun x => { x with errTls := satInc 8 x.errTls }).setSess b _ = w
  have bay : w.bays[b] = { s.bays[b] with errTls := satInc 8 s.bays[b].errTls, session :=
      { s.bays[b].session with tls := false, secrets := [], tlsFailed := true } } := by
    rw [← hw, State.setSess_self, State.setBay_self]
  have now : w.mt = s.mt := by rw [← hw]; rfl
  obtain ⟨st, entered, code, _, errs, tls⟩ := w.enterEnded_bay b 0x14
  rw [bay, keptCode_own (by exact hd) (by decide)] at code
  rw [bay] at errs
  have off : w.bays[b].energised = false := by rw [bay]; exact he
  have setup : w.bays[b].session.st = .setup := by rw [bay]; exact hs
  simp only [setup, off]
  exact ⟨st, tls, errs, entered.trans now, code⟩

section
variable {s : State} {t : Nat} {b : Fin 12} (hl : s.live = true) (ha : s.active = true) (hb : (s.bayRec b).isSome = true) (ht : s.onTime t b)
  (hd : s.bays[b].session.doomed = false)
include hl ha hb ht

theorem sdpRequest_setup (hc : s.bays[b].session.st = .connected) :
    Completes (.sdpRequest t b) s fun u =>
      u.bays[b].session.st = .setup ∧ u.bays[b].session.entered = max s.mt t ∧ u.bays[b].sessions = satInc 16 s.bays[b].sessions ∧
      s.responseIn u b = some { name := .sdp, code := .finished, tls := true } := by
  have run : exec (.sdpRequest t b) s = .next (((s.arrive t).enterSetup b).respond b sdpResp) := by
    rw [whenActive_runs hl ha hb rfl]
    simp only [s.sessTimeout_onTime t b ht, State.arrive_bays, hc]
  refine Completes.responds run (by simp [State.enterSetup]) fun u _ _ _ _ _ e r => ?_
  rw [e, r]
  simp [-Fin.getElem_fin, State.enterSetup, sdpResp]

theorem tlsHandshake_connects {h : TlsHello} (hh : h.bay = b) (hs : s.bays[b].session.st = .setup) (hn : s.bays[b].session.tls = false)
    (ho : (s.arrive t).helloOk h = true) :
    Completes (.tlsHandshake t h) s fun u =>
      u.bays[b].session = { s.bays[b].session with tls := true, secrets := (s.drawBytes 96).1, tcpIn := 0, tcpOut := 0 } := by
  have kept : ((s.arrive t).serveUse .marketSup 8).draws = s.draws := (State.serveUse_only rfl rfl rfl rfl rfl (cs := allSave .draws) (OnlyIn.refl _
      (s.arrive t))) .draws rfl
  have drawn : ∀ n, (((s.arrive t).serveUse .marketSup 8).drawBytes n).1 = (s.drawBytes n).1 := fun n => drawBytes_of kept n
  subst hh
  refine Completes.of (whenActive_runs hl ha hb rfl) ?_
  simp [-Fin.getElem_fin, s.sessTimeout_onTime t h.bay ht, hs, hn, ho, drawn]

include hd

theorem tlsHandshake_refused {h : TlsHello} (hh : h.bay = b) (hs : s.bays[b].session.st = .setup) (hn : s.bays[b].session.tls = false)
    (ho : (s.arrive t).helloOk h = false) (he : s.bays[b].energised = false) :
    Completes (.tlsHandshake t h) s fun u =>
      u.bays[b].session.st = .ended ∧ u.bays[b].session.tls = false ∧ u.bays[b].errTls = satInc 8 s.bays[b].errTls ∧
      u.bays[b].session.endCode =
        if s.bays[b].session.endCode = 0 ∨ s.bays[b].session.codeOld = true then 0x14 else s.bays[b].session.endCode := by
  subst hh
  have bays : (if helloFits h then (s.arrive t).serveUse .marketSup 8 else s.arrive t).bays = s.bays := by
    split
    · rw [State.serveUse_bays, State.arrive_bays]
    · exact State.arrive_bays s t
  refine Completes.of (whenActive_runs hl ha hb rfl) ?_
  simp only [s.sessTimeout_onTime t h.bay ht, State.arrive_bays, hs, hn, ho, Bool.not_false, and_self, if_true, Bool.false_eq_true, if_false]
  obtain ⟨st, tls, errs, _, code⟩ := State.tlsRefused_ends (s := if helloFits h then (s.arrive t).serveUse .marketSup 8 else s.arrive t) (b := h.bay)
    (by rw [bays]; exact hs) (by rw [bays]; exact hd) (by rw [bays]; exact he)
  rw [bays] at errs code
  exact ⟨st, tls, errs, code⟩

/-! ## The messages of SETUP (R218, R219) -/

section
variable (hs : s.bays[b].session.st = .setup) (htls : s.bays[b].session.tls = true)
include hs htls

/-- A message of SETUP acts on the session with the message counted. -/
theorem setupMessage_runs {c : Instr} {n : RespName} {f : State → State} (e : exec c s = .next (vehicleMsg t b true n f s)) :
    exec c s = .next (f ((s.arrive t).countIn b)) := message_runs hl ha hb ht hd htls (by rw [hs]; decide) e

theorem supportedAppProtocolReq_takes (hp : s.bays[b].session.protocol = false) :
    Completes (.supportedAppProtocolReq t b true) s fun u =>
      u.bays[b].session.protocol = true ∧ s.responseIn u b = some { name := .supportedAppProtocol, code := .finished } := by
  have run : exec (.supportedAppProtocolReq t b true) s =
      .next ((((s.arrive t).countIn b).setSess b fun q => { q with protocol := true }).respond b { name := .supportedAppProtocol, code := .finished
          }) := by
    rw [setupMessage_runs hl ha hb ht hd hs htls rfl]
    simp [-Fin.getElem_fin, hs, hp]
  refine Completes.responds run (by simp) fun u _ _ _ _ _ e r => ?_
  rw [e, r]
  simp [-Fin.getElem_fin]

theorem sessionSetupReq_takes (hp : s.bays[b].session.protocol = true) (hn : s.bays[b].session.sessionSetup = false) :
    Completes (.sessionSetupReq t b true) s fun u =>
      u.bays[b].session.sessionSetup = true ∧ u.bays[b].session.id = (s.drawBytes 16).1 ∧
      s.responseIn u b = some { name := .sessionSetup, code := .finished } := by
  have drawn : ∀ n, (((s.arrive t).countIn b).drawBytes n).1 = (s.drawBytes n).1 := fun n =>
    drawBytes_of (w := (s.arrive t).countIn b) (s := s) rfl n
  have run : exec (.sessionSetupReq t b true) s =
      .next ((((((s.arrive t).countIn b).drawBytes 16).2.setSess b fun q => { q with sessionSetup := true, id := (s.drawBytes 16).1 }).log 0x0401
          b.val 0 0
        (s.drawBytes 16).1).respond b { name := .sessionSetup, code := .finished }) := by
    rw [setupMessage_runs hl ha hb ht hd hs htls rfl]
    simp [-Fin.getElem_fin, hs, hp, hn, drawn]
  refine Completes.responds run (by simp) fun u _ _ _ _ _ e r => ?_
  rw [e, r]
  simp [-Fin.getElem_fin]

/-- An AuthorizationReq for external payment where it is enabled (R219). -/
theorem authorizationReq_eim (hn : s.bays[b].session.sessionSetup = true) (he : s.bays[b].eimEn = true) :
    exec (.authorizationReq t b true .eim) s =
      .next (let w := (((s.arrive t).countIn b).setSess b fun q => { q with auth := 1 }).goSess b .authorising
        if s.bays[b].eimAuto then w.grantNow b else w.pendAuth b) := by
  rw [setupMessage_runs hl ha hb ht hd hs htls rfl]
  simp [-Fin.getElem_fin, hs, hn, he, State.authorise]

theorem authorizationReq_grants (hn : s.bays[b].session.sessionSetup = true) (he : s.bays[b].eimEn = true) (hu : s.bays[b].eimAuto = true) :
    Completes (.authorizationReq t b true .eim) s fun u =>
      u.bays[b].session.st = .parameters ∧ u.bays[b].session.auth = 1 ∧
      s.responseIn u b = some { name := .authorization, code := .finished } := by
  have run := authorizationReq_eim hl ha hb ht hd hs htls hn he
  simp only [hu, if_true, State.grantNow] at run
  refine Completes.responds run (by simp [State.grantAuth]) fun u _ _ _ _ _ e r => ?_
  rw [e, r]
  simp [-Fin.getElem_fin, State.grantAuth]

theorem authorizationReq_pends (hn : s.bays[b].session.sessionSetup = true) (he : s.bays[b].eimEn = true) (hu : s.bays[b].eimAuto = false) :
    Completes (.authorizationReq t b true .eim) s fun u =>
      u.bays[b].session.st = .authorising ∧ u.bays[b].session.authPend = true ∧
      u.bays[b].session.due = some (max s.mt t + secs s.bays[b].authS) ∧
      s.responseIn u b = some { name := .authorization, code := .ongoing } := by
  have run := authorizationReq_eim hl ha hb ht hd hs htls hn he
  simp only [hu, Bool.false_eq_true, if_false, State.pendAuth] at run
  refine Completes.responds run (by simp) fun u _ _ _ _ _ e r => ?_
  rw [e, r]
  simp [-Fin.getElem_fin, stateSecs]

/-- A message that does not decode winds a bay that is not energised down to CLOSING (R221). -/
theorem sessionSetupReq_bad (he : s.bays[b].energised = false) :
    Completes (.sessionSetupReq t b false) s fun u =>
      u.bays[b].session.st = .closing ∧ u.bays[b].errMsg = satInc 16 s.bays[b].errMsg ∧
      s.responseIn u b = some { name := .sessionSetup, code := .failed } := by
  generalize hw : ((s.arrive t).countIn b).setBay b (fun x => { x with errMsg := satInc 16 x.errMsg }) = w
  have bay : w.bays[b] = { s.bays[b] with errMsg := satInc 16 s.bays[b].errMsg, session :=
      { s.bays[b].session with tcpIn := wrapInc 32 s.bays[b].session.tcpIn, seqDue := none, loopDue := none } } := by
    rw [← hw, State.setBay_self, State.arrive_countIn_bay]
  have run : exec (.sessionSetupReq t b false) s = .next ((w.enterClosing b 0x12).respond b { name := .sessionSetup, code := .failed }) := by
    rw [show exec (.sessionSetupReq t b false) s = .next (vehicleMsg t b false .sessionSetup _ s) from rfl,
      vehicleMsg_bad hl ha hb ht hd htls (by rw [hs]; decide), State.badMessage]
    simp only [hw]
    rw [State.wind_closing w b 0x12 (by rw [bay]; exact he) (by rw [bay]; simp [-Fin.getElem_fin, hs])]
  refine Completes.responds run (by rw [State.enterClosing_sealing, ← hw]; simp) fun u _ _ _ _ _ e r => ?_
  obtain ⟨_, _, closing⟩ := w.enterClosing_bay b 0x12
  rw [e, r, closing, bay]
  exact ⟨rfl, rfl, rfl⟩

end

end

/-- Settles O22. -/
theorem sessionSetup : Obligations.SessionSetup := by
  unfold Obligations.SessionSetup
  intro s t b hl ha hb ht hd
  refine ⟨sdpRequest_setup hl ha hb ht, fun h hh hs hn => ⟨fun hr => ?_, fun hr he => ?_⟩, fun hs htls => ?_, fun hs htls => ?_⟩
  · exact tlsHandshake_connects hl ha hb ht hh hs hn (State.anyKey_helloOk.2 hr)
  · exact tlsHandshake_refused hl ha hb ht hd hh hs hn (Bool.eq_false_iff.2 fun e => hr (State.anyKey_helloOk.1 e)) he
  · exact ⟨supportedAppProtocolReq_takes hl ha hb ht hd hs htls, sessionSetupReq_takes hl ha hb ht hd hs htls,
      authorizationReq_grants hl ha hb ht hd hs htls, authorizationReq_pends hl ha hb ht hd hs htls⟩
  · exact sessionSetupReq_bad hl ha hb ht hd hs htls

end Sys2Proof.Machine
end

section
/-! PROOFS. The messages of a session from PARAMETERS to CLOSING (R214 to R217, R220, R226 to R228, R231). -/
namespace Sys2Proof.Machine

/-! ## The offers of schedules (R214) -/

/-- At most 3 schedules of at most 24 entries, each entry at most the bay's cap. -/
theorem State.scheduleOffers_bounds (s : State) (b : Fin 12) (cap : Nat) :
    (s.scheduleOffers b cap).length ≤ 3 ∧ ∀ x ∈ s.scheduleOffers b cap, x.length ≤ 24 ∧ ∀ w ∈ x, w ≤ cap := by
  unfold State.scheduleOffers
  dsimp only
  refine ⟨by rw [List.length_map]; exact List.length_take_le .., fun x hx => ?_⟩
  obtain ⟨o, _, rfl⟩ := List.mem_map.mp hx
  refine ⟨by rw [List.length_map]; exact List.length_take_le .., fun w hw => ?_⟩
  obtain ⟨v, _, rfl⟩ := List.mem_map.mp hw
  exact Nat.min_le_left ..

/-! ## Bid and target (R216, R228) -/

theorem State.powerBid_self (s : State) (b : Fin 12) (r : BayRec) : ∃ k v, (s.powerBid b r).bays[b] =
    { s.bays[b] with session := { askFor k s.bays[b].session with target := v } } := by
  unfold State.powerBid
  dsimp only
  rw [State.writeTarget_self, State.setSess_self]
  exact ⟨_, _, rfl⟩

@[simp] theorem State.powerBid_sealing (s : State) (b : Fin 12) (r : BayRec) : (s.powerBid b r).sealing = s.sealing := by
  unfold State.powerBid
  rw [State.writeTarget_sealing, State.setSess_sealing]

theorem State.powerBid_mkt (s : State) (b : Fin 12) (r : BayRec) : (s.powerBid b r).mkt = s.mkt :=
  (State.powerBid_only rfl rfl (OnlyIn.refl (allSave .mkt) s)) .mkt rfl

theorem State.powerBid_met (s : State) (b : Fin 12) (r : BayRec) : (s.powerBid b r).met = s.met :=
  (State.powerBid_only rfl rfl (OnlyIn.refl (allSave .met) s)) .met rfl

theorem State.powerBid_stalls (s : State) (b : Fin 12) (r : BayRec) : (s.powerBid b r).stalls = s.stalls := by
  unfold State.powerBid
  dsimp only
  obtain ⟨l, e⟩ := State.writeTarget_eq (s.setSess b (askFor (askOf r s.bays[b].session))) b _
  rw [e]
  rfl

section
variable {s : State} {t : Nat} {b : Fin 12} {r : BayRec} (hl : s.live = true) (ha : s.active = true) (hr : s.bayRec b = some r)
include hl ha hr

theorem ccHoldElapsed_passes {h : Nat} (hs : s.bays[b].session.st = .cableCheck) (hh : s.bays[b].session.holdDue = some h) (ht : h ≤ t)
    (hi : s.insulationBad b = false) :
    Completes (.ccHoldElapsed t b) s fun u => u.bays[b] = { s.bays[b] with session := { s.bays[b].session with checkOk := true } } := by
  have sound : (s.arrive t).insulationBad b = false := hi
  refine Completes.of (whenActive_runs hl ha (by rw [hr]; rfl) rfl) ?_
  simp [-Fin.getElem_fin, hs, hh, ht, sound]

variable (ht : s.onTime t b) (hd : s.bays[b].session.doomed = false) (htls : s.bays[b].session.tls = true)
include ht hd htls

/-- A message acts on the session with the message counted. -/
theorem bayMessage_runs (hi : s.bays[b].session.st ≠ .idle) {c : Instr} {n : RespName} {f : State → State}
    (e : exec c s = .next (vehicleMsg t b true n f s)) : exec c s = .next (f ((s.arrive t).countIn b)) :=
  message_runs hl ha (by rw [hr]; rfl) ht hd htls hi e

/-! ## PARAMETERS (R214, R215) -/

section
variable (hs : s.bays[b].session.st = .parameters)
include hs

theorem parameterReq_takes (req : ParamReq) : exec (.parameterReq t b true req) s = .next (((s.arrive t).countIn b).takeParam b r req) := by
  have here : ((s.arrive t).countIn b).bayRec b = some r := hr
  rw [bayMessage_runs hl ha hr ht hd htls (by rw [hs]; decide) rfl]
  simp only [State.arrive_countIn_bay, hs, if_true, withBay_some here]

theorem serviceDiscovery_answers :
    Completes (.parameterReq t b true .serviceDiscovery) s fun u =>
      u.bays[b].session.stages = { s.bays[b].session.stages with discovered := true } ∧
      s.responseIn u b = some { name := .parameters, code := .finished, services := offeredServices r } := by
  refine Completes.responds (parameterReq_takes hl ha hr ht hd htls hs _) (by simp) fun u _ _ _ _ _ e a => ?_
  rw [e, a]
  simp [-Fin.getElem_fin]

theorem serviceSelection_dc {mode : CtlMode} (hv : s.bays[b].session.stages.discovered = true) (hm : mode ≠ .none) :
    Completes (.parameterReq t b true (.serviceSelection .dc mode)) s fun u =>
      u.bays[b].session.mode = mode ∧ u.bays[b].session.bpt = false ∧ u.bays[b].session.st = .parameters ∧
      s.responseIn u b = some { name := .parameters, code := .finished } := by
  have offered : (offeredServices r).contains .dc = true := by unfold offeredServices; split <;> rfl
  have run := parameterReq_takes hl ha hr ht hd htls hs (.serviceSelection .dc mode)
  simp only [State.takeParam, State.arrive_countIn_bay, hv, Bool.not_true, Bool.false_eq_true, if_false, offered, hm, or_self] at run
  refine Completes.responds run (by simp) fun u _ _ _ _ _ e a => ?_
  rw [e, a]
  simp [-Fin.getElem_fin, hs]

theorem serviceSelection_other {mode : CtlMode} (hv : s.bays[b].session.stages.discovered = true) :
    Completes (.parameterReq t b true (.serviceSelection .other mode)) s fun u =>
      u.bays[b].session.st = .closing ∧
      u.bays[b].session.endCode = (if s.bays[b].session.endCode = 0 ∨ s.bays[b].session.codeOld = true then 0x06 else s.bays[b].session.endCode) ∧
      s.responseIn u b = some { name := .parameters, code := .unsupported } := by
  have offered : (offeredServices r).contains .other = false := by unfold offeredServices; split <;> rfl
  have run := parameterReq_takes hl ha hr ht hd htls hs (.serviceSelection .other mode)
  simp only [State.takeParam, State.arrive_countIn_bay, hv, Bool.not_true, Bool.false_eq_true, if_false, offered, Bool.not_false, true_or, if_true]
      at run
  refine Completes.responds run (by simp) fun u _ _ _ _ _ e a => ?_
  obtain ⟨_, _, closing⟩ := ((s.arrive t).countIn b).enterClosing_bay b 0x06
  rw [e, a, closing, State.arrive_countIn_bay, keptCode_own (by exact hd) (by decide)]
  exact ⟨rfl, rfl, rfl⟩

theorem scheduleExchange_offers (hp : s.bays[b].session.stages.parameters = true) :
    Completes (.parameterReq t b true (.scheduleExchange none)) s fun u =>
      ∃ o : List (List Nat), o.length ≤ 3 ∧ (∀ x ∈ o, x.length ≤ 24 ∧ ∀ w ∈ x, w ≤ s.offerCap b r s.bays[b].session.ev) ∧
        u.bays[b].session.offers = o ∧ u.bays[b].session.stages = { s.bays[b].session.stages with scheduled := true } ∧
        s.responseIn u b = some { name := .parameters, code := .finished, offers := o } := by
  have cap : ((s.arrive t).countIn b).offerCap b r s.bays[b].session.ev = s.offerCap b r s.bays[b].session.ev := rfl
  have run := parameterReq_takes hl ha hr ht hd htls hs (.scheduleExchange none)
  simp only [State.takeParam, State.arrive_countIn_bay, hp, Bool.not_true, Bool.false_eq_true, if_false, cap] at run
  obtain ⟨three, bounds⟩ := State.scheduleOffers_bounds ((s.arrive t).countIn b) b (s.offerCap b r s.bays[b].session.ev)
  refine Completes.responds run (by simp) fun u _ _ _ _ _ e a => ⟨_, three, bounds, ?_, ?_, a⟩ <;>
    simp [-Fin.getElem_fin, e]

theorem scheduleExchange_chooses {i j w : Nat} (hp : s.bays[b].session.stages.scheduled = true)
    (hw : (s.bays[b].session.offers.getD i [])[j]? = some w) :
    Completes (.parameterReq t b true (.scheduleExchange (some (i, j)))) s fun u =>
      u.bays[b].session.schedule = some w ∧ s.responseIn u b = some { name := .parameters, code := .finished } := by
  have run := parameterReq_takes hl ha hr ht hd htls hs (.scheduleExchange (some (i, j)))
  simp only [State.takeParam, State.arrive_countIn_bay, hp, Bool.not_true, Bool.false_eq_true, if_false, hw] at run
  refine Completes.responds run (by simp) fun u _ _ _ _ _ e a => ?_
  rw [e, a]
  simp [-Fin.getElem_fin]

/-- CABLE_CHECK is entered with the contactor closing (R227). -/
theorem dcCableCheckReq_enters (hp : s.bays[b].session.stages.scheduled = true) (hi : s.insulationBad b = false) :
    Completes (.dcCableCheckReq t b true) s fun u =>
      u.bays[b].session.st = .cableCheck ∧ u.bays[b].session.vcc = min s.bays[b].session.ev.vMax r.vMax ∧ u.bays[b].outlet.close = true ∧
      s.responseIn u b = some { name := .cableCheck, code := .ongoing } := by
  generalize hw : (((s.arrive t).countIn b).setSess b fun q =>
    { askFor (checkBid (min s.bays[b].session.ev.vMax r.vMax)) q with
      vcc := min s.bays[b].session.ev.vMax r.vMax, tWritten := false, holdDue := none, checkOk := false, checkAnswered := false }).goSess b
          .cableCheck = w
  have sound : w.insulationBad b = false := by
    rw [← hi]
    refine State.insulationBad_of s w b ?_ ?_ <;> subst hw
    · simp [-Fin.getElem_fin]
    · rfl
  have run : exec (.dcCableCheckReq t b true) s = .next ((w.commandOutlet b true).respond b { name := .cableCheck, code := .ongoing }) := by
    have here : ((s.arrive t).countIn b).bayRec b = some r := hr
    rw [bayMessage_runs hl ha hr ht hd htls (by rw [hs]; decide) rfl]
    simp only [State.arrive_countIn_bay, hs, hp, if_true, withBay_some here, State.enterCableCheck]
    rw [hw]
    simp only [sound, Bool.false_eq_true, if_false]
  refine Completes.responds run (by rw [State.commandOutlet_sealing, ← hw]; simp) fun u _ _ _ _ _ e a => ?_
  obtain ⟨_, closes⟩ := w.commandOutlet_bay b true
  rw [e, a, closes, ← hw]
  simp [-Fin.getElem_fin]

end

/-! ## CABLE_CHECK and PRECHARGE (R227, R228) -/

section
variable (hs : s.bays[b].session.st = .cableCheck)
include hs

theorem dcCableCheckReq_passed (hk : s.bays[b].session.checkOk = true) :
    Completes (.dcCableCheckReq t b true) s fun u =>
      u.bays[b].session.checkAnswered = true ∧ u.bays[b].session.st = .cableCheck ∧
      s.responseIn u b = some { name := .cableCheck, code := .finished, isolationValid := true } := by
  have run : exec (.dcCableCheckReq t b true) s = .next ((((s.arrive t).countIn b).setSess b fun q => { q with checkAnswered := true }).respond b
      { name := .cableCheck, code := .finished, isolationValid := true }) := by
    rw [bayMessage_runs hl ha hr ht hd htls (by rw [hs]; decide) rfl]
    simp only [State.arrive_countIn_bay, hs, hk, if_true]
  refine Completes.responds run (by simp) fun u _ _ _ _ _ e a => ?_
  rw [e, a]
  simp [-Fin.getElem_fin, hs]

theorem dcPreChargeReq_enters {d : Dec} (hk : s.bays[b].session.checkAnswered = true) (hv : 0 ≤ d.value) :
    Completes (.dcPreChargeReq t b true d) s fun u =>
      u.bays[b].session.st = .precharge ∧ u.bays[b].session.bid = followAsk s.bays[b].session.bid (checkBid (decAbs d)) ∧
      u.bays[b].session.target = min (clampNat r.vMin r.vMax (decAbs d)) s.bays[b].session.ev.vMax ∧
      s.responseIn u b = some { name := .preCharge, code := .finished, presentV := s.exactVolts b } := by
  have pos : decPos d = some (decAbs d) := if_neg (Int.not_lt.mpr hv)
  generalize hw : (((s.arrive t).countIn b).goSess b .precharge).setSess b
    (fun q => { askFor (checkBid (decAbs d)) q with ev := { q.ev with tV := decAbs d } }) = w
  have run : exec (.dcPreChargeReq t b true d) s = .next ((w.writeTarget b (limitT r w.bays[b].session.ev (decAbs d))).respond b
      { name := .preCharge, code := .finished, presentV := s.exactVolts b }) := by
    have here : ((s.arrive t).countIn b).bayRec b = some r := hr
    have volts : w.exactVolts b = s.exactVolts b := State.exactVolts_of s w b (by rw [← hw]; rfl)
    rw [bayMessage_runs hl ha hr ht hd htls (by rw [hs]; decide) rfl]
    simp only [State.arrive_countIn_bay, pos, hs, hk, if_true, withBay_some here, State.precharge, hw, volts]
  have bay : w.bays[b].session.st = .precharge ∧ w.bays[b].session.bid = followAsk s.bays[b].session.bid (checkBid (decAbs d)) ∧
      w.bays[b].session.ev.vMax = s.bays[b].session.ev.vMax := by
    rw [← hw, State.setSess_self, State.goSess_self, State.arrive_countIn_bay]
    exact ⟨rfl, rfl, rfl⟩
  refine Completes.responds run (by rw [State.writeTarget_sealing, ← hw]; simp) fun u _ _ _ _ _ e a => ?_
  rw [e, a, State.writeTarget_self, ← bay.2.2]
  exact ⟨bay.1, bay.2.1, rfl, rfl⟩

end

/-! ## POWER (R216, R217, R220) -/

theorem powerDeliveryReq_starts (hs : s.bays[b].session.st = .precharge) :
    Completes (.powerDeliveryReq t b true true) s fun u =>
      u.bays[b].session.st = .power ∧ u.bays[b].session.entered = max s.mt t ∧
      s.responseIn u b = some { name := .powerDelivery, code := .finished } := by
  have here : ((s.arrive t).countIn b).bayRec b = some r := hr
  have run : exec (.powerDeliveryReq t b true true) s = .next (((((s.arrive t).countIn b).goSess b .power).powerBid b r).respond b
      { name := .powerDelivery, code := .finished }) := by
    rw [bayMessage_runs hl ha hr ht hd htls (by rw [hs]; decide) rfl]
    simp only [State.arrive_countIn_bay, hs, withBay_some here]
  refine Completes.responds run (by simp) fun u _ _ _ _ _ e a => ?_
  obtain ⟨_, _, bid⟩ := (((s.arrive t).countIn b).goSess b .power).powerBid_self b r
  rw [e, a, bid, State.goSess_self]
  exact ⟨rfl, rfl, rfl⟩

section
variable (hs : s.bays[b].session.st = .power)
include hs

theorem powerDeliveryReq_stops :
    Completes (.powerDeliveryReq t b true false) s fun u =>
      u.bays[b].session.st = .rampDown ∧
      u.bays[b].session.endCode = (if s.bays[b].session.endCode = 0 ∨ s.bays[b].session.codeOld = true then 0x10 else s.bays[b].session.endCode) ∧
      u.bays[b].session.bid = followAsk s.bays[b].session.bid {} ∧ u.bays[b].session.target = 0 ∧
      s.responseIn u b = some { name := .powerDelivery, code := .finished } := by
  have run : exec (.powerDeliveryReq t b true false) s = .next ((((s.arrive t).countIn b).enterRampDown b 0x10).respond b
      { name := .powerDelivery, code := .finished }) := by
    rw [bayMessage_runs hl ha hr ht hd htls (by rw [hs]; decide) rfl]
    simp only [State.arrive_countIn_bay, hs]
  refine Completes.responds run (by simp) fun u _ _ _ _ _ e a => ?_
  obtain ⟨_, _, ramp⟩ := ((s.arrive t).countIn b).enterRampDown_bay b 0x10
  rw [e, a, ramp, State.arrive_countIn_bay, keptCode_own (by exact hd) (by decide)]
  exact ⟨rfl, rfl, rfl, rfl, rfl⟩

theorem chargeLoopReq_answers {req : EvReq} {v : EvLimits} (hv : evLimits req = some v) :
    Completes (.chargeLoopReq t b true req) s fun u =>
      u.bays[b].session.ev = v ∧ u.bays[b].session.st = .power ∧
      ∃ p, s.responseIn u b = some p ∧ p.name = .chargeLoop ∧ p.code = .finished ∧ p.presentV = s.exactVolts b ∧
        p.maxP = s.mkt.bays[b].grant ∧ ∀ m, s.met.taken = some m → p.presentI = wd m.bayI b.val := by
  generalize hw : (((s.arrive t).countIn b).setSess b fun q => { q with ev := v }).powerBid b r = w
  have mkt : w.mkt = s.mkt := by rw [← hw, State.powerBid_mkt]; rfl
  have met : w.met = s.met := by rw [← hw, State.powerBid_met]; rfl
  have volts : w.exactVolts b = s.exactVolts b := State.exactVolts_of s w b (by rw [← hw, State.powerBid_stalls]; rfl)
  have run : exec (.chargeLoopReq t b true req) s = .next (w.respond b (w.loopResp b)) := by
    have here : ((s.arrive t).countIn b).bayRec b = some r := hr
    rw [bayMessage_runs hl ha hr ht hd htls (by rw [hs]; decide) rfl]
    simp only [State.arrive_countIn_bay, hs, ne_eq, not_true_eq_false, if_false, hv, withBay_some here, hw]
  refine Completes.responds run (by rw [← hw, State.powerBid_sealing]; rfl) fun u _ _ _ _ _ e a => ?_
  obtain ⟨_, _, bid⟩ := (((s.arrive t).countIn b).setSess b fun q => { q with ev := v }).powerBid_self b r
  rw [hw, State.setSess_self, State.arrive_countIn_bay] at bid
  rw [e, bid]
  exact ⟨rfl, hs, _, a, rfl, rfl, volts, by rw [State.loopResp, mkt], fun m hm => by simp only [State.loopResp, met, hm]⟩

end

/-! ## The end of a session (R220) -/

theorem weldingDetectionReq_answers (hs : s.bays[b].session.st = .rampDown ∨ s.bays[b].session.st = .weldCheck) :
    Completes (.weldingDetectionReq t b true) s fun u =>
      u.bays[b].session.st = s.bays[b].session.st ∧
      s.responseIn u b = some { name := .weldingDetection, code := .finished, presentV := s.exactVolts b } := by
  have volts : ((s.arrive t).countIn b).exactVolts b = s.exactVolts b := State.exactVolts_of s _ b rfl
  have run : exec (.weldingDetectionReq t b true) s = .next (((s.arrive t).countIn b).respond b
      { name := .weldingDetection, code := .finished, presentV := s.exactVolts b }) := by
    rw [bayMessage_runs hl ha hr ht hd htls (by rcases hs with h | h <;> rw [h] <;> decide) rfl]
    rcases hs with h | h <;> simp only [State.arrive_countIn_bay, h, volts]
  refine Completes.responds run (by simp) fun u _ _ _ _ _ e a => ?_
  rw [e, a, State.arrive_countIn_bay]
  exact ⟨rfl, rfl⟩

section
variable (hs : s.bays[b].session.st = .weldCheck)
include hs

theorem sessionStopReq_closes (ho : s.bays[b].outlet.confirmedOpen = true) (hf : s.bays[b].session.tlsFailed = false) :
    Completes (.sessionStopReq t b true) s fun u =>
      u.bays[b].session.st = .closing ∧ u.bays[b].session.due = some (max s.mt t + secs 5) ∧
      s.responseIn u b = some { name := .sessionStop, code := .finished } := by
  have run : exec (.sessionStopReq t b true) s = .next (((((s.arrive t).countIn b).setSess b fun q => { q with stopAsked := true }).enterClosing b
      0).respond b
      { name := .sessionStop, code := .finished }) := by
    rw [bayMessage_runs hl ha hr ht hd htls (by rw [hs]; decide) rfl]
    simp [-Fin.getElem_fin, hs, ho, hf, State.weldDone]
  refine Completes.responds run (by simp) fun u _ _ _ _ _ e a => ?_
  obtain ⟨_, _, closing⟩ := (((s.arrive t).countIn b).setSess b fun q => { q with stopAsked := true }).enterClosing_bay b 0
  rw [e, a, closing]
  exact ⟨rfl, rfl, rfl⟩

/-- The stop waits for the contactor (R220). -/
theorem sessionStopReq_waits (ho : s.bays[b].outlet.confirmedOpen = false) :
    Completes (.sessionStopReq t b true) s fun u => u.bays[b].session = { s.bays[b].session with
      stopAsked := true, tcpIn := wrapInc 32 s.bays[b].session.tcpIn, seqDue := none, loopDue := none } := by
  refine Completes.of (bayMessage_runs hl ha hr ht hd htls (by rw [hs]; decide) rfl) ?_
  simp [-Fin.getElem_fin, hs, ho]

end

end

/-- Settles O23. -/
theorem sessionMessages : Obligations.SessionMessages := by
  unfold Obligations.SessionMessages
  intro s t b r hl ha hr ht hd htls
  refine ⟨fun hs => ⟨serviceDiscovery_answers hl ha hr ht hd htls hs, fun mode => serviceSelection_dc hl ha hr ht hd htls hs,
    fun mode => serviceSelection_other hl ha hr ht hd htls hs, scheduleExchange_offers hl ha hr ht hd htls hs,
    fun i j w => scheduleExchange_chooses hl ha hr ht hd htls hs, dcCableCheckReq_enters hl ha hr ht hd htls hs⟩,
    fun hs => ⟨fun h hh hle => ccHoldElapsed_passes hl ha hr hs hh hle, dcCableCheckReq_passed hl ha hr ht hd htls hs,
      fun d => dcPreChargeReq_enters hl ha hr ht hd htls hs⟩,
    powerDeliveryReq_starts hl ha hr ht hd htls,
    fun hs => ⟨powerDeliveryReq_stops hl ha hr ht hd htls hs, fun req v => chargeLoopReq_answers hl ha hr ht hd htls hs⟩,
    weldingDetectionReq_answers hl ha hr ht hd htls, sessionStopReq_closes hl ha hr ht hd htls, sessionStopReq_waits hl ha hr ht hd htls⟩

end Sys2Proof.Machine
end
section
/-! PROOFS. Where the timers of a session take it, and what its contactor, its connection and the host do to it (R220, R221, R223, R224). -/
namespace Sys2Proof.Machine

/-- The session of the bay is in a state that it entered with an end code (R231). -/
def State.sessionIn (u : State) (b : Fin 12) (st : SessSt) (now code : Nat) : Prop :=
  u.bays[b].session.st = st ∧ u.bays[b].session.entered = now ∧ u.bays[b].session.endCode = code

/-! ## The states that a timeout leads to -/

section
variable (w : State) (b : Fin 12) (c : Nat)

theorem State.enterEnded_in : (w.enterEnded b c).sessionIn b .ended w.mt (keptCode w.bays[b].session c) := by
  obtain ⟨st, entered, code, _⟩ := w.enterEnded_bay b c
  exact ⟨st, entered, code⟩

theorem State.enterClosing_in : (w.enterClosing b c).sessionIn b .closing w.mt (keptCode w.bays[b].session c) := by
  obtain ⟨_, _, e⟩ := w.enterClosing_bay b c
  unfold State.sessionIn
  rw [e]
  exact ⟨rfl, rfl, rfl⟩

theorem State.enterRampDown_in :
    (w.enterRampDown b c).sessionIn b .rampDown w.mt (keptCode w.bays[b].session c) ∧ (w.enterRampDown b c).bays[b].session.target = 0 := by
  obtain ⟨_, _, e⟩ := w.enterRampDown_bay b c
  unfold State.sessionIn
  rw [e]
  exact ⟨⟨rfl, rfl, rfl⟩, rfl⟩

theorem State.enterFault_in :
    (w.enterFault b c).sessionIn b .fault w.mt (keptCode w.bays[b].session c) ∧ (w.enterFault b c).bays[b].faults = satInc 8 w.bays[b].faults := by
  obtain ⟨st, entered, code, faults⟩ := w.enterFault_session b c
  exact ⟨⟨st, entered, code⟩, faults⟩

end

section
variable {s : State} {t : Nat} {b : Fin 12} (hl : s.live = true) (ha : s.active = true) (hb : (s.bayRec b).isSome = true)
include hl ha hb

/-- A timer command in a state it belongs to. -/
theorem sessTimer_runs {c : Instr} {sts : List SessSt} (e : exec c s = .next (sessTimer t b sts s)) (h : sts.contains s.bays[b].session.st = true) :
    exec c s = .next ((s.arrive t).stateTimeout t b) := by
  rw [whenActive_runs hl ha hb e]
  simp only [State.arrive_bays, h, if_true]

/-- The code that a session which no demand is ending takes at an end (R231). -/
def codeTaken (q : Session) (c : Nat) : Nat := if q.endCode = 0 ∨ q.codeOld = true then c else q.endCode

variable (hd : s.bays[b].session.doomed = false)
include hd

section
variable {d : Nat} (ht : d < t)
include ht

section
variable (hq : s.bays[b].session.due = some d)
include hq

theorem noSdp_ends (hs : s.bays[b].session.st = .connected) :
    Completes (.noSdp t b) s fun u => u.sessionIn b .ended (max s.mt t) (codeTaken s.bays[b].session 1) ∧ u.bays[b].outlet.close = false := by
  refine Completes.of (sessTimer_runs hl ha hb rfl (by rw [hs]; rfl)) ?_
  have ends := (s.arrive t).enterEnded_in b 1
  obtain ⟨_, _, _, open_, _⟩ := (s.arrive t).enterEnded_bay b 1
  rw [State.arrive_bays, keptCode_own hd (by decide)] at ends
  simp only [State.stateTimeout, State.arrive_bays, hs, hq, overdue_some ht, if_true]
  exact ⟨ends, open_⟩

theorem setupTimeout_ends (hs : s.bays[b].session.st = .setup) :
    Completes (.setupTimeout t b) s fun u => u.sessionIn b .ended (max s.mt t) (codeTaken s.bays[b].session 2) := by
  refine Completes.of (sessTimer_runs hl ha hb rfl (by rw [hs]; rfl)) ?_
  have ends := (s.arrive t).enterEnded_in b 2
  rw [State.arrive_bays, keptCode_own hd (by decide)] at ends
  simp only [State.stateTimeout, State.arrive_bays, hs, hq, overdue_some ht, if_true]
  exact ends

theorem authTimeout_closes (hs : s.bays[b].session.st = .authorising) :
    Completes (.authTimeout t b) s fun u => u.sessionIn b .closing (max s.mt t) (codeTaken s.bays[b].session 5) := by
  refine Completes.of (sessTimer_runs hl ha hb rfl (by rw [hs]; rfl)) ?_
  have ends := (s.arrive t).enterClosing_in b 5
  rw [State.arrive_bays, keptCode_own hd (by decide)] at ends
  simp only [State.stateTimeout, State.arrive_bays, hs, hq, overdue_some ht, if_true]
  exact ends

theorem ccTimeout_ramps (hs : s.bays[b].session.st = .cableCheck) :
    Completes (.ccTimeout t b) s fun u =>
      u.sessionIn b .rampDown (max s.mt t) (codeTaken s.bays[b].session 7) ∧ u.bays[b].session.target = 0 := by
  refine Completes.of (sessTimer_runs hl ha hb rfl (by rw [hs]; rfl)) ?_
  have ends := (s.arrive t).enterRampDown_in b 7
  rw [State.arrive_bays, keptCode_own hd (by decide)] at ends
  simp only [State.stateTimeout, State.arrive_bays, hs, hq, overdue_some ht, if_true]
  exact ends

theorem preTimeout_ramps (hs : s.bays[b].session.st = .precharge) :
    Completes (.preTimeout t b) s fun u => u.sessionIn b .rampDown (max s.mt t) (codeTaken s.bays[b].session 9) := by
  refine Completes.of (sessTimer_runs hl ha hb rfl (by rw [hs]; rfl)) ?_
  have ends := (s.arrive t).enterRampDown_in b 9
  rw [State.arrive_bays, keptCode_own hd (by decide)] at ends
  simp only [State.stateTimeout, State.arrive_bays, hs, hq, overdue_some ht, if_true]
  exact ends.1

theorem rampTimeout_faults (hs : s.bays[b].session.st = .rampDown) :
    Completes (.rampTimeout t b) s fun u =>
      u.sessionIn b .fault (max s.mt t) (codeTaken s.bays[b].session 0x13) ∧ u.bays[b].faults = satInc 8 s.bays[b].faults := by
  refine Completes.of (sessTimer_runs hl ha hb rfl (by rw [hs]; rfl)) ?_
  have ends := (s.arrive t).enterFault_in b 0x13
  rw [State.arrive_bays, keptCode_own hd (by decide)] at ends
  simp only [State.stateTimeout, State.arrive_bays, hs, hq, overdue_some ht, if_true, State.sessionIn, State.requestSafeStop_session,
    State.requestSafeStop_faults]
  exact ends

theorem closingTimeout_ends (hs : s.bays[b].session.st = .closing) :
    Completes (.closingTimeout t b) s fun u => u.bays[b].session.st = .ended ∧ u.bays[b].session.endCode = s.bays[b].session.endCode := by
  refine Completes.of (sessTimer_runs hl ha hb rfl (by rw [hs]; rfl)) ?_
  have ends := (s.arrive t).enterEnded_in b 0
  rw [State.arrive_bays, keptCode_none hd] at ends
  simp only [State.stateTimeout, State.arrive_bays, hs, hq, overdue_some ht, if_true]
  exact ⟨ends.1, ends.2.2⟩

theorem faultHoldTimeout_ends (hs : s.bays[b].session.st = .fault) :
    Completes (.faultHoldTimeout t b) s fun u => u.bays[b].session.st = .ended ∧ u.bays[b].session.endCode = s.bays[b].session.endCode := by
  refine Completes.of (sessTimer_runs hl ha hb rfl (by rw [hs]; rfl)) ?_
  have ends := (s.arrive t).enterEnded_in b 0
  rw [State.arrive_bays, keptCode_none hd] at ends
  simp only [State.stateTimeout, State.arrive_bays, hs, hq, overdue_some ht, if_true]
  exact ⟨ends.1, ends.2.2⟩

end

theorem loopTimeout_ramps (hq : s.bays[b].session.loopDue = some d) (hs : s.bays[b].session.st = .power) :
    Completes (.loopTimeout t b) s fun u => u.sessionIn b .rampDown (max s.mt t) (codeTaken s.bays[b].session 0x0A) := by
  refine Completes.of (sessTimer_runs hl ha hb rfl (by rw [hs]; rfl)) ?_
  have ends := (s.arrive t).enterRampDown_in b 0x0A
  rw [State.arrive_bays, keptCode_own hd (by decide)] at ends
  simp only [State.stateTimeout, State.arrive_bays, hs, hq, overdue_some ht, if_true]
  exact ends.1

/-- The sequence timeout of a bay that is not energised, or whose contactor is being opened (R220). -/
theorem seqTimeout_closes (hq : s.bays[b].session.seqDue = some d)
    (hs : s.bays[b].session.st = .parameters ∧ s.bays[b].energised = false ∨ s.bays[b].session.st = .weldCheck) :
    Completes (.seqTimeout t b) s fun u => u.sessionIn b .closing (max s.mt t) (codeTaken s.bays[b].session 3) := by
  refine Completes.of (sessTimer_runs hl ha hb rfl (by rcases hs with h | h <;> simp [-Fin.getElem_fin, h])) ?_
  have ends := (s.arrive t).enterClosing_in b 3
  rw [State.arrive_bays, keptCode_own hd (by decide)] at ends
  rcases hs with ⟨h, off⟩ | h
  · simp only [State.stateTimeout, State.arrive_bays, h, hq, overdue_some ht, off, if_true, Bool.false_eq_true, if_false]
    exact ends
  · simp only [State.stateTimeout, State.arrive_bays, h, hq, overdue_some ht, if_true]
    exact ends

end

/-! ## The contactor and the connection (R221) -/

theorem contactorTimeout_faults {d : Nat} (hc : s.bays[b].outlet.commandAt = some d) (ht : d + ms 100 < t)
    (hn : s.bays[b].outlet.confirmed = false) (hp : s.outletPending b (d + ms 100) = false) (hi : s.bays[b].session.st ≠ .idle)
    (hf : s.bays[b].session.st ≠ .fault) :
    Completes (.contactorTimeout t b) s fun u => u.sessionIn b .fault (max s.mt t) (codeTaken s.bays[b].session 0x0E) := by
  have waits : (s.arrive t).outletPending b (d + ms 100) = false := hp
  refine Completes.of (whenActive_runs hl ha hb rfl) ?_
  simp only [State.contactorTimeout, State.arrive_bays, hc, is_expired ht, hn, waits, Bool.not_false, Bool.and_self, if_true, State.contactorFail, hi,
    if_false]
  generalize hw : ((s.arrive t).setBay b fun x => { x with outlet := { x.outlet with commandAt := none } }).requestSafeStop b = w
  have sess : w.bays[b].session = s.bays[b].session := by rw [← hw, State.requestSafeStop_session, State.setBay_self, State.arrive_bays]
  have now : w.mt = max s.mt t := by rw [← hw, State.requestSafeStop_mt, State.setBay_mt, State.arrive_mt]
  have ends := w.enterFault_in b 0x0E
  rw [sess, keptCode_own hd (by decide), now] at ends
  rw [if_neg (by rw [sess]; exact hf)]
  exact ends.1

section
variable (ht : s.onTime t b)
include ht

theorem tlsFailure_handshake (hs : s.bays[b].session.st = .setup) (hn : s.bays[b].session.tls = false) (he : s.bays[b].energised = false) :
    Completes (.tlsFailure t b .handshake) s fun u =>
      u.sessionIn b .ended (max s.mt t) (codeTaken s.bays[b].session 0x14) ∧ u.bays[b].errTls = satInc 8 s.bays[b].errTls := by
  refine Completes.of (whenActive_runs hl ha hb rfl) ?_
  simp only [s.sessTimeout_onTime t b ht, State.arrive_bays, hs, hn, Bool.not_false, and_self, if_true]
  obtain ⟨st, _, errs, entered, code⟩ := State.tlsRefused_ends (s := s.arrive t) hs hd he
  exact ⟨⟨st, entered, code⟩, errs⟩

omit hd in
/-- The session after its connection has ended. -/
theorem tlsFailure_broken_runs (hn : s.bays[b].session.tls = true) : exec (.tlsFailure t b .broken) s = .next ((s.arrive t).tlsEnds b) := by
  rw [whenActive_runs hl ha hb rfl]
  simp only [s.sessTimeout_onTime t b ht, State.arrive_bays, hn, if_true]

theorem tlsFailure_ramps (hs : s.bays[b].session.st = .power) (hn : s.bays[b].session.tls = true) (he : s.bays[b].energised = true) :
    Completes (.tlsFailure t b .broken) s fun u => u.sessionIn b .rampDown (max s.mt t) (codeTaken s.bays[b].session 0x14) := by
  refine Completes.of (tlsFailure_broken_runs hl ha hb ht hn) ?_
  unfold State.tlsEnds
  dsimp only
  generalize hw : (s.arrive t).setSess b (fun q => { q with tls := false, secrets := [], tlsFailed := true }) = w
  have bay : w.bays[b] = { s.bays[b] with session := { s.bays[b].session with tls := false, secrets := [], tlsFailed := true } } := by
    rw [← hw, State.setSess_self, State.arrive_bays]
  have now : w.mt = max s.mt t := by rw [← hw]; rfl
  have power : w.bays[b].session.st = .power := by rw [bay]; exact hs
  have on : w.bays[b].energised = true := by rw [bay]; exact he
  have ends := (w.enterRampDown_in b 0x14).1
  rw [bay, keptCode_own (by exact hd) (by decide), now] at ends
  simp only [power, on, if_true]
  exact ends

theorem tlsFailure_ends (hs : s.bays[b].session.st = .closing) (hn : s.bays[b].session.tls = true) (hk : s.bays[b].session.stopAsked = true) :
    Completes (.tlsFailure t b .broken) s fun u =>
      u.bays[b].session.st = .ended ∧ u.bays[b].session.endCode = s.bays[b].session.endCode := by
  refine Completes.of (tlsFailure_broken_runs hl ha hb ht hn) ?_
  unfold State.tlsEnds
  dsimp only
  generalize hw : (s.arrive t).setSess b (fun q => { q with tls := false, secrets := [], tlsFailed := true }) = w
  have bay : w.bays[b] = { s.bays[b] with session := { s.bays[b].session with tls := false, secrets := [], tlsFailed := true } } := by
    rw [← hw, State.setSess_self, State.arrive_bays]
  have closing : w.bays[b].session.st = .closing := by rw [bay]; exact hs
  have asked : w.bays[b].session.stopAsked = true := by rw [bay]; exact hk
  obtain ⟨st, _, code⟩ := w.enterEnded_in b 0
  rw [bay, keptCode_none (by exact hd)] at code
  simp only [closing, asked, and_self, if_true]
  exact ⟨st, code⟩

end

end

/-- Settles O24. -/
theorem sessionTimeouts : Obligations.SessionTimeouts := by
  unfold Obligations.SessionTimeouts
  intro s t b d hl ha hb hd ht
  refine ⟨fun hq => ⟨noSdp_ends hl ha hb hd ht hq, setupTimeout_ends hl ha hb hd ht hq, authTimeout_closes hl ha hb hd ht hq,
    ccTimeout_ramps hl ha hb hd ht hq, preTimeout_ramps hl ha hb hd ht hq, rampTimeout_faults hl ha hb hd ht hq, closingTimeout_ends hl ha hb hd ht
        hq,
    faultHoldTimeout_ends hl ha hb hd ht hq⟩, loopTimeout_ramps hl ha hb hd ht,
    fun hq => ⟨fun hs he => seqTimeout_closes hl ha hb hd ht hq (.inl ⟨hs, he⟩), fun hs => seqTimeout_closes hl ha hb hd ht hq (.inr hs)⟩,
    fun hc => contactorTimeout_faults hl ha hb hd hc,
    fun hon => ⟨tlsFailure_handshake hl ha hb hd hon, tlsFailure_ramps hl ha hb hd hon, tlsFailure_ends hl ha hb hd hon⟩⟩

end Sys2Proof.Machine
end
section
/-! PROOFS. A session that a scheduled activation holds (R454) before the sample of its bay arrives (R208, R220): BAY commands, refuted. -/
namespace Sys2Proof.Machine

/-- An image of one bay. -/
def imageOfBay0 : Image :=
  { header :=
      { imageLen := 0, uid := [], pitchNs := 10000, carrierHz := 50000, update := 1, minStep := 0
        cableM := 0, bayMask := 1, stallMask := 0, siteMaxKw := 1000, siteMinKw := 0
        rateMax := 100, jerkMax := 100, sbusCycleNs := 1000000, sbusCycles := 1 }
    cells := [], stalls := []
    bays :=
      [{ bayId := 0, flags := 0, pMaxKw := 1000, pFloorKw := 0, vMin := 200, vMax := 1250
         iMax := 3000, classDef := 0, weightDef := 1, stallsMax := 8, flowIn := 0xFF
         tsA := 0, tsB := 1, tsC := 2, res20 := 1, cC := 1, cW := 1, g0 := 1, g1 := 1
         gWA := 1, tLim := 90, flowMin := 1, derSpan := 10 }]
    tiles := [], lanes := [], bus := [], safety := [], meter := []
    safetyBytes := [], meterBytes := [] }

/-- A module that holds ACTIVE, with bay 0 idle and its contacts connected and valid; an activation is armed for calendar second 601 with a lead
of 600 s, at calendar second 0: its hold of new sessions begins 1 s later (R454). -/
def heldInASecond : State :=
  let bay (x : Bay) : Bay := { x with pilot := { x.pilot with ce := .connected, id := .valid } }
  { State.reset with
    prof := { State.reset.prof with image := some imageOfBay0, active := some 0 }
    pwr := { State.reset.pwr with st := .run }
    pair := { State.reset.pair with role := .active, activeO := true }
    upd := { State.reset.upd with mode := 1, schedS := 601, leadS := 600, large := { State.reset.upd.large with st := .armed } }
    bays := vupd State.reset.bays 0 bay }

/-- The sample of its bay 1 s later. -/
def heldSample : PilotSample := ⟨.connected, 0, .valid⟩

/-- New sessions are open in the state, and held by the time the sample arrives. -/
theorem heldInASecond_holds :
    heldInASecond.sessionsOpen 0 = true ∧ (heldInASecond.arrive 1000000000).sessionsOpen 0 = false := by
  constructor <;> decide +kernel

/-- So the sample begins no session. -/
theorem heldSample_idle : (doCeIdSample 1000000000 [heldSample] heldInASecond).bays[(0 : Fin 12)].session.st = .idle := by decide +kernel

/-- Refutes O25: the statement asks whether sessions are open in the state before the command, but the calendar goes on to the command's stamp, and
where the lead of a scheduled activation (R454) begins in between, the sample of a connected vehicle leaves the session IDLE. -/
theorem not_bayCommands : ¬ Obligations.BayCommands := by
  unfold Obligations.BayCommands
  intro h
  obtain ⟨_, sampled, _⟩ := h heldInASecond 1000000000 .udp 0 (by decide +kernel)
  obtain ⟨_, starts⟩ := sampled [heldSample] heldSample rfl (by decide +kernel)
  obtain ⟨u, e, st, _⟩ := starts (by decide +kernel) (by decide +kernel) (by decide +kernel) (by decide +kernel) (by decide +kernel)
      heldInASecond_holds.1
  have after : u = doCeIdSample 1000000000 [heldSample] heldInASecond := (Host.Outcome.next.inj e).symm
  rw [after, heldSample_idle] at st
  exact absurd st (by decide)

end Sys2Proof.Machine
end

section
/-! PROOFS. The pulses, delays and counters of cooling and of the auxiliary outputs (R237, R243, R246, R251, R254, R255, R258). -/
namespace Sys2Proof.Machine

theorem heldOver_zero {t d : Nat} (h : d < t) : heldOver t 0 (some d) = true := is_expired h

section
variable {s : State} {t : Nat} {n : Fin 24} {d : Nat}

theorem auxCoolElapsed_resumes (hd : s.aux.ch[n].coolDue = some d) (ht : d ≤ t) (hT : s.aux.ch[n].therm = false)
    (hh : auxHeld s.aux.ch[n] = false) :
    Completes (.auxCoolElapsed t n) s fun u => u.mt = max s.mt t ∧
      u.aux.ch[n] = { s.aux.ch[n] with coolDue := none, retryDue := some (t + s.aux.ch[n].retryLeft), retryLeft := 0 } := by
  refine Completes.of rfl ?_
  simp [-Fin.getElem_fin, doAuxCoolElapsed, hd, ht, hT, hh, State.setAux]

theorem auxCoolElapsed_waits (hd : s.aux.ch[n].coolDue = some d) (hT : s.aux.ch[n].therm = true) :
    Completes (.auxCoolElapsed t n) s fun u => u.aux = s.aux := by
  refine Completes.of rfl ?_
  simp [-Fin.getElem_fin, doAuxCoolElapsed, hd, hT]

theorem auxRetryCountReset_clears (hd : s.aux.ch[n].onSince = some d) (ht : d + secs 10 ≤ t) :
    Completes (.auxRetryCountReset t n) s fun u => u.aux.ch[n] = { s.aux.ch[n] with retries := 0, retrying := false } := by
  refine Completes.of rfl ?_
  simp [-Fin.getElem_fin, doAuxRetryCountReset, hd, ht]

theorem auxRetryCountReset_waits (hd : s.aux.ch[n].onSince = some d) (ht : t < d + secs 10) :
    Completes (.auxRetryCountReset t n) s fun u => u.aux = s.aux := by
  refine Completes.of rfl ?_
  simp [-Fin.getElem_fin, doAuxRetryCountReset, hd, Nat.not_le.mpr ht]

/-- The FAIL state of a channel that no trip holds off (R255). -/
theorem auxFail_duty {x : AuxCh} (h : x.tripped = false) :
    (auxFail t x).duty = if x.fail = 0 then 0 else if x.fail = 1 then 1000 else x.duty := by
  unfold auxFail
  rw [if_neg (by simp [h])]
  split
  case h_1 h0 => rw [if_pos h0]; rfl
  case h_2 h1 => rw [if_neg (by omega), if_pos h1]; rfl
  case h_3 h0 h1 => rw [if_neg h0, if_neg h1]

theorem auxHoldExpiry_fails (hf : s.aux.failed = false) (hg : s.aux.gone = false) (hd : ∃ d, s.aux.holdDue = some d ∧ d < t)
    (hT : s.aux.ch[n].tripped = false) :
    Completes (.auxHoldExpiry t) s fun u => u.aux.failed = true ∧
      u.aux.ch[n].duty = (if s.aux.ch[n].fail = 0 then 0 else if s.aux.ch[n].fail = 1 then 1000 else s.aux.ch[n].duty) := by
  obtain ⟨d, e, h⟩ := hd
  refine Completes.of rfl ?_
  simp [-Fin.getElem_fin, doAuxHoldExpiry, hf, e, heldOver_zero h, State.auxFailAll, hg, auxFail_duty hT]

theorem auxHoldExpiry_waits (h : ∀ d, s.aux.holdDue = some d → t ≤ d) : Completes (.auxHoldExpiry t) s fun u => u.aux = s.aux := by
  have waits : heldOver t 0 s.aux.holdDue = false := by
    cases e : s.aux.holdDue with
    | none => rfl
    | some d => exact not_expired (h d e)
  refine Completes.of rfl ?_
  simp [doAuxHoldExpiry, waits]

theorem vin24Return_aux (cv : Nat) (s : State) : (doVin24Return t cv s).aux = ((s.arrive t).auxRestart cv).aux := by
  unfold doVin24Return
  dsimp only
  split
  · exact Eq.trans ((State.refreshAssume_only rfl rfl (cs := allSave .aux) (OnlyIn.refl _ _)) .aux rfl) (State.bumpIf_aux ..)
  · rfl

theorem vin24Return_restarts (cv : Nat) : Completes (.vin24Return t cv) s fun u =>
    u.aux.ch[n].duty = 0 ∧ u.aux.ch[n].tripped = false ∧ u.aux.ch[n].retries = 0 ∧ u.aux.v24 = cv := by
  refine Completes.of rfl ?_
  rw [vin24Return_aux]
  simp [-Fin.getElem_fin, State.auxRestart, auxFresh, auxOff]

end

section
variable {s : State} {t : Nat} (hl : s.live = true)
include hl

theorem flowPulse_stamps (i : Fin 12) : Completes (.flowPulse t i) s fun u =>
    u.thm = { s.thm with edges := vupd s.thm.edges i fun es => t :: es.filter fun e => decide (t < e + 250000000) } :=
  Completes.live hl rfl rfl

theorem valveCloseDelay_closes {b : Fin 12} {d : Nat} (hd : s.thm.cables[b].valveDue = some d) (ht : d ≤ t) :
    Completes (.valveCloseDelay t b) s fun u => u.thm.cables[b] = { s.thm.cables[b] with valve := false, valveDue := none } := by
  refine Completes.live hl rfl ?_
  simp [-Fin.getElem_fin, hd, ht, State.setCable]

theorem valvePullInEnd_drives {n : Fin 24} {d : Nat} (hd : s.aux.ch[n].pullInDue = some d) (ht : d ≤ t) (hT : s.aux.ch[n].tripped = false)
    (hm : s.aux.ch[n].mode = 4) (hv : s.valveOpen s.aux.ch[n].src = true) (hp : s.paired = false) (hD : s.auxDriven = true) :
    Completes (.valvePullInEnd t n) s fun u => u.aux.ch[n].pullInDue = none ∧
      u.aux.ch[n].duty = dutyOf s.aux.ch[n].pwmF s.aux.ch[n].vNom s.aux.v24 (10000 * s.aux.ch[n].level) := by
  refine Completes.live hl rfl ?_
  simp only [State.arrive_aux, hd, ht, ↓reduceIte]
  generalize hw : (s.arrive t).setAux n _ = w
  have own : w.aux.ch[n] = { s.aux.ch[n] with pullInDue := none } := by rw [← hw]; exact State.setAux_self ..
  have driven : w.auxDriven = true := by rw [← hw]; exact hD
  have alone : w.paired = false := by rw [← hw]; exact hp
  have opened : w.valveOpen s.aux.ch[n].src = true := by rw [← hw]; exact hv
  have supply : w.aux.v24 = s.aux.v24 := by rw [← hw]; rfl
  have duty : w.auxDuty n = dutyOf s.aux.ch[n].pwmF s.aux.ch[n].vNom s.aux.v24 (10000 * s.aux.ch[n].level) := by
    simp [-Fin.getElem_fin, State.auxDuty, State.auxDemand, own, alone, opened, hm, supply]
  rw [State.driveAux_self _ _ _ driven, own, if_neg (by simp [-Fin.getElem_fin, hT]), duty]
  exact ⟨rfl, rfl⟩

theorem auxRetry_retries {n : Fin 24} {d : Nat} (hd : s.aux.ch[n].retryDue = some d) (ht : d ≤ t) (hT : s.aux.ch[n].therm = false)
    (hs : s.saf.selfTest = true) : Completes (.auxRetry t n) s fun u =>
      u.aux.ch[n].tripped = false ∧ u.aux.ch[n].retrying = true ∧ u.aux.ch[n].retryDue = none ∧ u.aux.ch[n].fault = 0 ∧
      u.aux.ch[n].retries = s.aux.ch[n].retries := by
  refine Completes.live hl rfl ?_
  simp only [State.arrive_aux, State.arrive_saf, hd, ht, hT, hs, decide_true, Bool.not_false, Bool.and_self, ↓reduceIte, State.bump_aux]
  generalize hw : (s.arrive t).setAux n _ = w
  have own : w.aux.ch[n] = { s.aux.ch[n] with tripped := false, retrying := true, retryDue := none, fault := 0 } := by
    rw [← hw]; exact State.setAux_self ..
  by_cases driven : w.auxDriven = true
  · rw [State.driveAux_self _ _ _ driven, own, if_neg (by simp)]
    exact ⟨rfl, rfl, rfl, rfl, rfl⟩
  · unfold State.driveAux
    rw [if_neg driven, own]
    exact ⟨rfl, rfl, rfl, rfl, rfl⟩

theorem auxRetry_waits {n : Fin 24} {d : Nat} (hd : s.aux.ch[n].retryDue = some d) (h : s.aux.ch[n].therm = true ∨ s.saf.selfTest = false) :
    Completes (.auxRetry t n) s fun u => u.aux = s.aux := by
  refine Completes.live hl rfl ?_
  rcases h with h | h <;> simp [-Fin.getElem_fin, hd, h]

section
variable {m : Master} (hs : s.serves m = true)
include hs

theorem thmClrCnt_clears : Completes (.thmClrCnt t m) s fun u =>
    u.thm = { s.thm with latches := 0, noFlows := 0, tsFaults := 0 } ∧ u.host.answer = okAnswer :=
  Completes.served hl hs rfl fun u e => by subst e; exact ⟨rfl, rfl⟩

theorem auxClear_accepted {n : Fin 24} {v : Nat} (hv : v ≤ 1000) (hp : s.pwr.pfw = false) : Completes (.auxClear t m n v) s fun u =>
    u.aux.ch[n] = (((s.arrive t).setAux n fun x => { x with demand := v }).clearAux n).aux.ch[n] ∧ u.host.answer = okAnswer := by
  refine Completes.accepted hl hs (r := fun s => firstOf (refuseIf (decide (1000 < v)) (deny .range)) (pfwRefusal s)) rfl ?_ fun u e => ?_
  · rw [refuseIf_false (by simpa using hv), firstOf_none]
    simp [pfwRefusal, hp, refuseIf]
  · subst e
    exact ⟨rfl, rfl⟩

theorem auxClear_releases {n : Fin 24} {v : Nat} (hv : v ≤ 1000) (hp : s.pwr.pfw = false) (hh : auxHeld s.aux.ch[n] = true) :
    Completes (.auxClear t m n v) s fun u =>
      let waits := s.aux.ch[n].therm || s.aux.ch[n].coolDue.isSome
      u.aux.ch[n] = { s.aux.ch[n] with demand := v, retries := 0, retrying := false, fault := if waits then 4 else 0, tripped := waits } ∧
      u.host.answer = okAnswer := by
  obtain ⟨u, e, h, a⟩ := auxClear_accepted hl hs (n := n) hv hp (t := t)
  refine ⟨u, e, ?_, a⟩
  have held : auxHeld { s.aux.ch[n] with demand := v } = true := hh
  rw [h]
  simp [-Fin.getElem_fin, State.clearAux, held]

theorem auxClear_demands {n : Fin 24} {v : Nat} (hv : v ≤ 1000) (hp : s.pwr.pfw = false) (hh : auxHeld s.aux.ch[n] = false) :
    Completes (.auxClear t m n v) s fun u =>
      u.aux.ch[n] = { s.aux.ch[n] with demand := v, retries := 0 } ∧ u.host.answer = okAnswer := by
  obtain ⟨u, e, h, a⟩ := auxClear_accepted hl hs (n := n) hv hp (t := t)
  refine ⟨u, e, ?_, a⟩
  have held : auxHeld { s.aux.ch[n] with demand := v } = false := hh
  rw [h]
  simp [-Fin.getElem_fin, State.clearAux, held]

theorem auxClear_refused {n : Fin 24} {v : Nat} (hv : 1000 < v) : Completes (.auxClear t m n v) s fun u =>
    u.aux = s.aux ∧ u.host.answer = ⟨.denied, .range⟩ := by
  refine Completes.refused hl hs (r := fun s => firstOf (refuseIf (decide (1000 < v)) (deny .range)) (pfwRefusal s)) (x := deny .range) rfl ?_ ?_
  · rw [refuseIf_true (by simpa using hv)]
    rfl
  · exact ⟨by rw [State.answered_aux]; rfl, by rw [State.answered_answer]; rfl⟩

end
end

/-- Settles O26. -/
theorem coolingAndAuxTimers : Obligations.CoolingAndAuxTimers := by
  unfold Obligations.CoolingAndAuxTimers
  intro s t
  refine ⟨fun n d => ⟨auxCoolElapsed_resumes, auxCoolElapsed_waits, auxRetryCountReset_clears, auxRetryCountReset_waits⟩,
    fun n => auxHoldExpiry_fails, auxHoldExpiry_waits, fun cv n => vin24Return_restarts cv, fun hl =>
    ⟨flowPulse_stamps hl, fun b d => valveCloseDelay_closes hl,
      fun n d => ⟨fun hd ht hT hm hv _ => valvePullInEnd_drives hl hd ht hT hm hv, auxRetry_retries hl, auxRetry_waits hl⟩,
      fun m hs => ⟨thmClrCnt_clears hl hs, fun n v => ⟨auxClear_releases hl hs, auxClear_demands hl hs, auxClear_refused hl hs⟩⟩⟩⟩

end Sys2Proof.Machine
end
section
/-! PROOFS. How a channel of the auxiliary outputs protects itself, and which one is shed (R249 to R252). -/
namespace Sys2Proof.Machine

/-- What a check first takes over of its channel: the current and since when a condition holds. -/
def senseTaken (t inrush : Nat) (q : AuxSense) (x : AuxCh) : AuxCh :=
  let on := decide (0 < x.duty)
  { x with current := q.current, limitDue := dueWhen (on && q.limiting) inrush x.limitDue,
           overSince := sinceWhen (on && decide (2750 < q.current)) t x.overSince, lightSince := sinceWhen (on && decide (q.current < 20)) t
               x.lightSince }

/-- What the outputs without their channels still tell. -/
theorem Aux.params_eq {a b : Aux} (h : a.params = b.params) :
    a.coolMs = b.coolMs ∧ a.retryMs = b.retryMs ∧ a.retryMax = b.retryMax ∧ a.lastShed = b.lastShed := by
  have field : ∀ {α : Type} (f : Aux → α), f a.params = f b.params := fun f => congrArg f h
  exact ⟨field Aux.coolMs, field Aux.retryMs, field Aux.retryMax, field Aux.lastShed⟩

section
variable {w : State} {t : Nat} {n : Fin 24} {q : AuxSense}

/-- The thermal latch clears at 135 °C, whatever the switch-off shows (R251). -/
theorem State.protectAux_cools (hT : w.aux.ch[n].therm = true) (hj : q.junction ≤ 135) :
    (w.protectAux t n q).aux.ch[n].therm = false ∧ (w.protectAux t n q).aux.ch[n].coolDue = some (t + ms (100 * w.aux.coolMs)) ∧
      (w.protectAux t n q).aux.ch[n].retries = w.aux.ch[n].retries := by
  cases hs : q.swing <;>
    simp [-Fin.getElem_fin, State.protectAux, hs, hT, hj, State.coolAux, State.freewheelAux, auxOff]

/-- Where a switch-off shows no freewheel path, the channel is in FREEWHEEL before the rest of its check (R249). -/
theorem State.protectAux_heats (hT : w.aux.ch[n].therm = false) (hj : 150 ≤ q.junction) :
    let y := (w.protectAux t n q).aux.ch[n]
    y.therm = true ∧ y.tripped = true ∧ y.duty = 0 ∧
      y.fault = (if q.swing then 5 else if auxHeld w.aux.ch[n] then w.aux.ch[n].fault else 4) ∧
      y.retries = w.aux.ch[n].retries ∧ y.retryDue = none := by
  cases hs : q.swing <;>
    simp [-Fin.getElem_fin, State.protectAux, hs, hT, hj, State.thermAux, State.freewheelAux, auxOff, auxHeld]

theorem State.protectAux_freewheels (hT : w.aux.ch[n].therm = false) (hj : q.junction < 150) (hs : q.swing = true) :
    let y := (w.protectAux t n q).aux.ch[n]
    y.fault = 5 ∧ y.tripped = true ∧ y.duty = 0 ∧ y.retryDue = none := by
  simp [-Fin.getElem_fin, State.protectAux, hs, hT, Int.not_le.mpr hj, State.freewheelAux, auxOff]

section
variable {d : Nat} (hT : w.aux.ch[n].therm = false) (hj : q.junction < 150) (hs : q.swing = false) (hd : 0 < w.aux.ch[n].duty)
  (hq : q.limiting = true) (hD : w.aux.ch[n].limitDue = some d)
include hT hj hs hd hq hD

/-- A channel in limitation past its end trips with code 1 (R250). -/
theorem State.protectAux_trips (ht : d < t) : ∃ v : State, AuxStep n w v ∧
    v.aux.ch[n] = senseTaken t (t + ms w.aux.tInrush) q w.aux.ch[n] ∧ w.protectAux t n q = v.tripAux t n 1 := by
  refine ⟨w.setAux n (senseTaken t (t + ms w.aux.tInrush) q), AuxStep.setAux .., State.setAux_self .., ?_⟩
  unfold State.protectAux
  dsimp only
  generalize hv : w.setAux n _ = v
  have own : v.aux.ch[n] = senseTaken t (t + ms w.aux.tInrush) q w.aux.ch[n] := by rw [← hv]; exact State.setAux_self ..
  have due : v.aux.ch[n].limitDue = some d := by simp [-Fin.getElem_fin, own, senseTaken, dueWhen, hd, hq, hD]
  have cool : v.aux.ch[n].therm = false := by rw [own]; exact hT
  have same : w.setAux n (senseTaken t (t + ms w.aux.tInrush) q) = v := by
    rw [← hv]
    simp only [State.setAux, vupd, senseTaken]
  simp [-Fin.getElem_fin, hs, cool, Int.not_le.mpr hj, due, heldOver_zero ht, same]

theorem State.protectAux_retries (ht : d < t) (hr : w.aux.ch[n].retrying = false) :
    let y := (w.protectAux t n q).aux.ch[n]
    y.fault = 1 ∧ y.tripped = true ∧ y.duty = 0 ∧ y.retryDue = some (t + ms (100 * w.aux.retryMs)) ∧ y.retries = w.aux.ch[n].retries := by
  obtain ⟨v, step, own, e⟩ := State.protectAux_trips hT hj hs hd hq hD ht
  obtain ⟨_, hms, _, _⟩ := Aux.params_eq step.1
  simp only [e]
  rw [State.tripAux_self v t n 1 (by rw [own]; exact hr), hms, own]
  exact ⟨rfl, rfl, rfl, rfl, rfl⟩

theorem State.protectAux_locks (ht : d < t) (hr : w.aux.ch[n].retrying = true) (hk : w.aux.retryMax ≤ min 7 (w.aux.ch[n].retries + 1)) :
    let y := (w.protectAux t n q).aux.ch[n]
    y.fault = 7 ∧ y.tripped = true ∧ y.duty = 0 ∧ y.retryDue = none ∧ y.retries = min 7 (w.aux.ch[n].retries + 1) := by
  obtain ⟨v, step, own, e⟩ := State.protectAux_trips hT hj hs hd hq hD ht
  obtain ⟨_, _, hmax, _⟩ := Aux.params_eq step.1
  simp only [e]
  rw [State.tripAux_locked v t n 1 (by rw [own]; exact hr) (by rw [hmax, own]; exact hk), own]
  exact ⟨rfl, rfl, rfl, rfl, rfl⟩

/-- At its end itself the limitation has not yet tripped the channel (R12). -/
theorem State.protectAux_limits (ht : t = d) (ho : w.aux.ch[n].overSince = none) :
    (w.protectAux t n q).aux.ch[n].duty = w.aux.ch[n].duty ∧ (w.protectAux t n q).aux.ch[n].tripped = w.aux.ch[n].tripped := by
  unfold State.protectAux
  dsimp only
  generalize hv : w.setAux n _ = v
  have own : v.aux.ch[n] = senseTaken t (t + ms w.aux.tInrush) q w.aux.ch[n] := by rw [← hv]; exact State.setAux_self ..
  have due : heldOver t 0 v.aux.ch[n].limitDue = false := by
    rw [own, ht]
    simp [-Fin.getElem_fin, senseTaken, dueWhen, hd, hq, hD, heldOver, expired]
  have over' : heldOver t (secs 1) v.aux.ch[n].overSince = false := by
    rw [own]
    by_cases h : q.current > 2750 <;> simp [-Fin.getElem_fin, senseTaken, sinceWhen, ho, h, hd, heldOver, expired]
  have cool : v.aux.ch[n].therm = false := by rw [own]; exact hT
  have kept : v.aux.ch[n].duty = w.aux.ch[n].duty ∧ v.aux.ch[n].tripped = w.aux.ch[n].tripped := by rw [own]; exact ⟨rfl, rfl⟩
  simp only [hs, cool, Int.not_le.mpr hj, due, over', Bool.false_eq_true, ↓reduceIte]
  split
  · simpa [-Fin.getElem_fin] using kept
  · split
    · simpa [-Fin.getElem_fin] using kept
    · exact kept

end
end

/-- The check of a channel's readings, from a state that differs from `s` in other channels only (R250). -/
theorem auxProtectionCheck_checks {s : State} {t : Nat} {n : Fin 24} {l : List AuxSense} {q : AuxSense} {P : AuxCh → Prop}
    (h : l[n.val]? = some q) (hg : s.aux.gone = false)
    (hp : ∀ w : State, w.aux.params = s.aux.params → w.aux.ch[n] = s.aux.ch[n] → P (w.protectAux t n q).aux.ch[n]) :
    Completes (.auxProtectionCheck t l) s fun u => P u.aux.ch[n] := by
  obtain ⟨w, params, own, e⟩ := auxProtectionCheck_self s t n l q h hg
  exact Completes.of rfl (by rw [e]; exact hp w params own)

section
variable {s : State} {t : Nat} {n : Fin 24}

/-- The trip of a shed channel, which counts no longer in the sum (R252). -/
theorem State.tripAux_sheds {v : State} (hr : v.aux.ch[n].retrying = false) (hL : v.aux.lastShed = some t) :
    let u := (v.tripAux t n 3).setAux n fun x => { x with current := 0 }
    u.aux.lastShed = some t ∧ u.aux.ch[n].fault = 3 ∧ u.aux.ch[n].duty = 0 ∧ u.aux.ch[n].tripped = true := by
  obtain ⟨_, _, _, kept⟩ := Aux.params_eq (State.tripAux_step v t n 3).1
  dsimp only
  rw [State.setAux_lastShed, State.setAux_self, State.tripAux_self v t n 3 hr]
  exact ⟨kept.trans hL, rfl, rfl, rfl⟩

theorem auxTotalShed_sheds {d : Nat} (ho : s.aux.overSince = some d) (ht : d + ms 100 < t) (hL : s.aux.lastShed = none) (hT : 30000 < s.auxTotal)
    (hn : s.shedAux = some n) (hr : s.aux.ch[n].retrying = false) : Completes (.auxTotalShed t) s fun u =>
      u.aux.lastShed = some t ∧ u.aux.ch[n].fault = 3 ∧ u.aux.ch[n].duty = 0 ∧ u.aux.ch[n].tripped = true := by
  have total : (s.arrive t).auxTotal = s.auxTotal := rfl
  have shed : (s.arrive t).shedAux = s.shedAux := rfl
  refine Completes.of (u := doAuxTotalShed t s) rfl ?_
  unfold doAuxTotalShed
  simp only [State.arrive_aux, ho, heldOver, is_expired ht, hL, total, hT, shed, hn, decide_true, Bool.and_self, ↓reduceIte]
  exact State.tripAux_sheds hr rfl

theorem auxTotalShed_waits (hT : s.auxTotal ≤ 30000) : Completes (.auxTotalShed t) s fun u => u.aux = s.aux := by
  have total : (s.arrive t).auxTotal = s.auxTotal := rfl
  refine Completes.of (u := doAuxTotalShed t s) rfl ?_
  unfold doAuxTotalShed
  dsimp only
  rw [if_neg (by simp [total, Nat.not_lt.mpr hT])]
  rfl

end

/-- Settles O27. -/
theorem auxProtection : Obligations.AuxProtection := by
  unfold Obligations.AuxProtection
  intro s t n hg
  refine ⟨fun l q hq => ?_, fun d ho ht hL hT hn hr => auxTotalShed_sheds ho ht hL hT hn hr, auxTotalShed_waits⟩
  intro checks
  have check : ∀ P, (∀ w : State, w.aux.params = s.aux.params → w.aux.ch[n] = s.aux.ch[n] → P (w.protectAux t n q).aux.ch[n]) → checks P :=
    fun P hp => auxProtectionCheck_checks hq hg hp
  clear_value checks
  refine ⟨fun hT hj => ?_, fun hT hj => ?_,
    fun hT hj hs => ?_, fun d hT hj hs hd hl hD => ⟨fun ht hr => ?_,
    fun ht hr hk => ?_, fun ht ho => ?_⟩⟩
  · refine check _ fun w params own => ?_
    obtain ⟨cool, _, _, _⟩ := Aux.params_eq params
    rw [← own, ← cool]
    exact State.protectAux_cools (by rw [own]; exact hT) hj
  · refine check _ fun w params own => ?_
    rw [← own]
    exact State.protectAux_heats (by rw [own]; exact hT) hj
  · exact check _ fun w params own => State.protectAux_freewheels (by rw [own]; exact hT) hj hs
  · refine check _ fun w params own => ?_
    obtain ⟨_, wait, _, _⟩ := Aux.params_eq params
    rw [← own] at hT hd hD hr ⊢
    rw [← wait]
    exact State.protectAux_retries hT hj hs hd hl hD ht hr
  · refine check _ fun w params own => ?_
    obtain ⟨_, _, most, _⟩ := Aux.params_eq params
    rw [← own] at hT hd hD hr hk ⊢
    rw [← most] at hk
    exact State.protectAux_locks hT hj hs hd hl hD ht hr hk
  · refine check _ fun w params own => ?_
    rw [← own] at hT hd hD ho ⊢
    exact State.protectAux_limits hT hj hs hd hl hD ht ho

end Sys2Proof.Machine
end
section
/-! PROOFS. What a metrology sample adds to every tally (R271, R280, R281, R282). -/
namespace Sys2Proof.Machine

theorem all_codeOk {l : List Int} (h : ∀ k ∈ l, -(2 ^ 23) ≤ k ∧ k < 2 ^ 23) : l.all codeOk = true :=
  List.all_eq_true.2 fun k hk => decide_eq_true (h k hk)

/-- A computed sample changes the tallies by `computeSample` alone (R267, R271). -/
theorem State.metSample_computed (w : State) (c : CalSet) (rep : Nat) (hs : w.met.set = some c) (hn : w.met.nextSet = none)
    (hq : w.met.resumeAt = none) : ∃ (v : State) (ovr : Nat → Bool) (b : List TallySnap), v.met.set = some c ∧
      v.met.tallying = w.met.tallying ∧ v.met.tally = w.met.tally ∧ v.met.residue = w.met.residue ∧ v.met.lastRep = some rep ∧
      (w.metSample rep).met = { (v.computeSample c rep (delayedCodes c w.met.raw) ovr).met with boundary := b } := by
  unfold State.metSample
  simp only [hn, hq, hs]
  refine ⟨_, overranged c w.met.raw, _, ?_, ?_, ?_, ?_, ?_, rfl⟩
  all_goals rfl

section
variable {s : State} {t rep : Nat} {x : MetSample} {c : CalSet} (hm : s.metRuns = true) (hr : rep % 125000 = 0) (h1 : rep + 500000 ≤ t)
  (h2 : t ≤ rep + 700000) (hx : ∀ k ∈ (filterSample x).codes, -(2 ^ 23) ≤ k ∧ k < 2 ^ 23) (hl : ∀ l, s.met.rawRep = some l → l < rep)
include hm hr h1 h2 hx hl

/-- A sample that meets R271 takes the codes, and is computed once their history is long enough. -/
theorem metrologySample_taken : doMetrologySample t rep x s =
    if ((s.arrive t).takeRaw rep (filterSample x)).sampleReady then ((s.arrive t).takeRaw rep (filterSample x)).metSample rep
    else (s.arrive t).takeRaw rep (filterSample x) := by
  have rises : (match s.met.rawRep with | some l => decide (l < rep) | none => true) = true := by
    cases e : s.met.rawRep with
    | none => rfl
    | some l => exact decide_eq_true (hl l e)
  have runs : (s.arrive t).metRuns = true := hm
  unfold doMetrologySample
  dsimp only
  rw [if_pos]
  simp only [runs, hr, h1, h2, all_codeOk hx, State.arrive_met, and_self, decide_true, beq_self_eq_true, Bool.true_and]
  exact rises

theorem metrologySample_waits (hs : s.met.set = some c)
    (h : (rawWith s.met rep (filterSample x)).length < 5 ∨ delaysMet c (rawWith s.met rep (filterSample x)) = false) :
    Completes (.metrologySample t rep x) s fun u => u.met = { s.met with raw := rawWith s.met rep (filterSample x), rawRep := some rep } := by
  refine Completes.of (u := doMetrologySample t rep x s) rfl ?_
  rw [metrologySample_taken hm hr h1 h2 hx hl, if_neg]
  · rfl
  · unfold State.sampleReady
    rw [show ((s.arrive t).takeRaw rep (filterSample x)).met.set = some c from hs,
      show ((s.arrive t).takeRaw rep (filterSample x)).met.raw = rawWith s.met rep (filterSample x) from rfl]
    rcases h with h | h
    · simp [Nat.not_le.2 h]
    · simp [h]

/-- A sample with a history that is long enough is computed under the set in force. -/
theorem metrologySample_computed (hs : s.met.set = some c) (ht : s.met.tallying = true) (hn : s.met.nextSet = none) (hq : s.met.resumeAt = none)
    (h5 : 5 ≤ (rawWith s.met rep (filterSample x)).length) (hd : delaysMet c (rawWith s.met rep (filterSample x)) = true) :
    ∃ (w : State) (ovr : Nat → Bool) (b : List TallySnap), w.met.set = some c ∧ w.met.tallying = true ∧ w.met.tally = s.met.tally ∧
      w.met.residue = s.met.residue ∧ w.met.lastRep = some rep ∧
      (doMetrologySample t rep x s).met =
        { (w.computeSample c rep (delayedCodes c (rawWith s.met rep (filterSample x))) ovr).met with boundary := b } := by
  rw [metrologySample_taken hm hr h1 h2 hx hl]
  generalize hw : (s.arrive t).takeRaw rep (filterSample x) = w
  have met : w.met = { s.met with raw := rawWith s.met rep (filterSample x), rawRep := some rep } := by rw [← hw]; rfl
  have ready : w.sampleReady = true := by
    unfold State.sampleReady
    simp [met, hs, h5, hd]
  rw [if_pos ready]
  obtain ⟨v, ovr, b, k1, k2, k3, k4, k5, e⟩ := w.metSample_computed c rep (by rw [met]; exact hs) (by rw [met]; exact hn) (by rw [met]; exact hq)
  rw [met] at k2 k3 k4 e
  exact ⟨v, ovr, b, k1, k2.trans ht, k3, k4, k5, e⟩

end

section
variable {w : State} {c : CalSet} {rep : Nat} {codes : List Int} {ovr : Nat → Bool} (hs : w.met.set = some c) (ht : w.met.tallying = true)
include hs ht

omit hs in
/-- Of the AC tallies a sample raises those of R281 only. -/
theorem State.computeSample_gainsAc (i : Fin 32) (hi : i.val < 8) :
    TallyGains (w.met.tally, w.met.residue) ((w.computeSample c rep codes ovr).met.tally, (w.computeSample c rep codes ovr).met.residue) i
      (acGain c (acValues c fun k => calibrated c codes k) i) := by
  have g := w.computeSample_gains c rep codes ovr ht i
  rwa [sum_zero_of fun b _ => bayGain_low c b _ _ i hi, Nat.add_zero] at g

/-- Of the tallies of a bay a sample raises those of a bay in use only (R280, R282). -/
theorem State.computeSample_gainsBay (b : Fin 12) (i : Fin 32) (hi : i.val = 8 + 2 * b.val ∨ i.val = 9 + 2 * b.val) :
    TallyGains (w.met.tally, w.met.residue) ((w.computeSample c rep codes ovr).met.tally, (w.computeSample c rep codes ovr).met.residue) i
      (if metBay c b = true then bayGain c b (calibrated c codes (9 + 2 * b))
        (bayPower (calibrated c codes (8 + 2 * b)) (calibrated c codes (9 + 2 * b))) i else 0) := by
  have g := w.computeSample_gains c rep codes ovr ht i
  rwa [acGain_high c _ i (by omega), Nat.zero_add,
    metBays_gain w c hs (fun b => calibrated c codes (9 + 2 * b)) (fun b => bayPower (calibrated c codes (8 + 2 * b)) (calibrated c codes (9 + 2 *
        b))) b i hi] at g

end

/-- What the sign of p puts into the AC tallies (R280, R281). -/
theorem acGain_signs (c : CalSet) (v : Int × Int × Nat) (h : c.sNl * 1000 ≤ v.2.2) (i : Fin 32) : acGain c v i =
    (if i.val = (if 0 ≤ v.1 then 0 else 1) then v.1.natAbs else 0) + (if i.val = (if 0 ≤ v.1 then 6 else 7) then v.2.2 else 0) +
      if i.val = quadrant v.1 v.2.1 then v.2.1.natAbs else 0 := by
  unfold acGain
  rw [if_neg (Nat.not_lt.mpr h)]

/-- Every tally of `T` holds what `G` says more than in `S`. -/
def gainsAt (S T : Vector Nat 32 × Vector Nat 32) (k e : Nat) : Prop := ∀ i : Fin 32, i.val = k → TallyGains S T i e

/-- The AC tallies after a sample, by the signs of p and q (R280, R281, R282). -/
theorem gains_ac {S T : Vector Nat 32 × Vector Nat 32} {c : CalSet} {v : Int × Int × Nat}
    (g : ∀ i : Fin 32, i.val < 8 → TallyGains S T i (acGain c v i)) :
    (v.2.2 < c.sNl * 1000 → ∀ k, k < 8 → gainsAt S T k 0) ∧
    (c.sNl * 1000 ≤ v.2.2 →
      (0 ≤ v.1 → gainsAt S T 0 v.1.natAbs ∧ gainsAt S T 1 0 ∧ gainsAt S T 6 v.2.2 ∧ gainsAt S T 7 0 ∧
        (0 ≤ v.2.1 → gainsAt S T 2 v.2.1.natAbs ∧ gainsAt S T 3 0 ∧ gainsAt S T 4 0 ∧ gainsAt S T 5 0) ∧
        (v.2.1 < 0 → gainsAt S T 5 v.2.1.natAbs ∧ gainsAt S T 2 0 ∧ gainsAt S T 3 0 ∧ gainsAt S T 4 0)) ∧
      (v.1 < 0 → gainsAt S T 1 v.1.natAbs ∧ gainsAt S T 0 0 ∧ gainsAt S T 7 v.2.2 ∧ gainsAt S T 6 0 ∧
        (0 ≤ v.2.1 → gainsAt S T 3 v.2.1.natAbs ∧ gainsAt S T 2 0 ∧ gainsAt S T 4 0 ∧ gainsAt S T 5 0) ∧
        (v.2.1 < 0 → gainsAt S T 4 v.2.1.natAbs ∧ gainsAt S T 2 0 ∧ gainsAt S T 3 0 ∧ gainsAt S T 5 0))) := by
  have below : v.2.2 < c.sNl * 1000 → ∀ k, k < 8 → gainsAt S T k 0 := fun h k hk i hi => by
    have e := g i (by omega)
    rwa [show acGain c v i = 0 from if_pos h] at e
  refine ⟨below, fun h => ?_⟩
  have at_ : ∀ (k e : Nat), k < 8 → ((if k = (if 0 ≤ v.1 then 0 else 1) then v.1.natAbs else 0) +
      (if k = (if 0 ≤ v.1 then 6 else 7) then v.2.2 else 0) + (if k = quadrant v.1 v.2.1 then v.2.1.natAbs else 0) = e) → gainsAt S T k e :=
    fun k e hk he i hi => by
      have x := g i (by omega)
      rwa [acGain_signs c v h, hi, he] at x
  constructor
  · intro hp
    have quad : quadrant v.1 v.2.1 = if 0 ≤ v.2.1 then 2 else 5 := if_pos hp
    rw [quad] at at_
    simp only [if_pos hp] at at_
    refine ⟨?_, ?_, ?_, ?_, fun hq => ⟨?_, ?_, ?_, ?_⟩, fun hq => ⟨?_, ?_, ?_, ?_⟩⟩
    all_goals exact at_ _ _ (by omega) (by by_cases h : 0 ≤ v.2.1 <;> simp [h] <;> omega)
  · intro hp
    have quad : quadrant v.1 v.2.1 = if 0 ≤ v.2.1 then 3 else 4 := if_neg (Int.not_le.mpr hp)
    rw [quad] at at_
    simp only [if_neg (Int.not_le.mpr hp)] at at_
    refine ⟨?_, ?_, ?_, ?_, fun hq => ⟨?_, ?_, ?_, ?_⟩, fun hq => ⟨?_, ?_, ?_, ?_⟩⟩
    all_goals exact at_ _ _ (by omega) (by by_cases h : 0 ≤ v.2.1 <;> simp [h] <;> omega)

/-- The two tallies of a bay after a sample, by the sign of its power (R280, R282). -/
theorem gains_bay {S T : Vector Nat 32 × Vector Nat 32} {c : CalSet} {b : Fin 12} {bi p : Int}
    (g : ∀ i : Fin 32, i.val = 8 + 2 * b.val ∨ i.val = 9 + 2 * b.val → TallyGains S T i (if metBay c b = true then bayGain c b bi p i else 0)) :
    (metBay c b = false ∨ bi.natAbs < c.iNl.getD b 0 → gainsAt S T (8 + 2 * b) 0 ∧ gainsAt S T (9 + 2 * b) 0) ∧
    (metBay c b = true → c.iNl.getD b 0 ≤ bi.natAbs →
      (0 ≤ p → gainsAt S T (8 + 2 * b) p.natAbs ∧ gainsAt S T (9 + 2 * b) 0) ∧
      (p < 0 → gainsAt S T (8 + 2 * b) 0 ∧ gainsAt S T (9 + 2 * b) p.natAbs)) := by
  have at_ : ∀ (k e : Nat), k = 8 + 2 * b.val ∨ k = 9 + 2 * b.val →
      (∀ i : Fin 32, i.val = k → (if metBay c b = true then bayGain c b bi p i else 0) = e) → gainsAt S T k e :=
    fun k e hk he i hi => by
      have x := g i (by omega)
      rwa [he i hi] at x
  refine ⟨fun h => ?_, fun hb hi => ⟨fun hp => ?_, fun hp => ?_⟩⟩
  · have none_ : ∀ i, (if metBay c b = true then bayGain c b bi p i else 0) = 0 := fun i => by
      rcases h with h | h
      · rw [if_neg (by simp [h])]
      · rw [show bayGain c b bi p i = 0 from if_pos h, ite_self]
    exact ⟨at_ _ _ (.inl rfl) fun i _ => none_ i, at_ _ _ (.inr rfl) fun i _ => none_ i⟩
  · constructor
    · exact at_ _ _ (.inl rfl) fun i e => by rw [if_pos hb, bayGain, if_neg (Nat.not_lt.mpr hi), if_pos hp, if_pos e]
    · exact at_ _ _ (.inr rfl) fun i e => by rw [if_pos hb, bayGain, if_neg (Nat.not_lt.mpr hi), if_pos hp, if_neg (by omega)]
  · constructor
    · exact at_ _ _ (.inl rfl) fun i e => by
        rw [if_pos hb, bayGain, if_neg (Nat.not_lt.mpr hi), if_neg (Int.not_le.mpr hp), if_neg (by omega)]
    · exact at_ _ _ (.inr rfl) fun i e => by
        rw [if_pos hb, bayGain, if_neg (Nat.not_lt.mpr hi), if_neg (Int.not_le.mpr hp), if_pos e]

/-- Settles O28: every tally gains what the AC values and its bay add (`computeSample_gains`). -/
theorem sampleTallied : Obligations.SampleTallied := by
  unfold Obligations.SampleTallied
  intro s t rep x c hm hr h1 h2 hx hl hs ht hn hq
  refine ⟨metrologySample_waits hm hr h1 h2 hx hl hs, fun h5 hd => ?_⟩
  obtain ⟨w, ovr, b, hwc, hwt, hwT, hwR, hwL, e⟩ := metrologySample_computed hm hr h1 h2 hx hl hs ht hn hq h5 hd
  refine Completes.of (u := doMetrologySample t rep x s) rfl ?_
  rw [e]
  have ac := fun i => State.computeSample_gainsAc (c := c) (rep := rep) (codes := delayedCodes c (rawWith s.met rep (filterSample x))) (ovr := ovr)
      hwt i
  have bays := fun b i => State.computeSample_gainsBay (rep := rep) (codes := delayedCodes c (rawWith s.met rep (filterSample x))) (ovr := ovr) hwc
      hwt b i
  rw [hwT, hwR] at ac bays
  obtain ⟨below, above⟩ := gains_ac ac
  exact ⟨hwL, below, above, fun b => gains_bay (bays b)⟩

end Sys2Proof.Machine
end

section
/-! PROOFS. Blocks, commits, receipts and calibration of the metrology partition (R267, R274, R279, R284, R287 to R289). -/
namespace Sys2Proof.Machine

/-- What each step of a fold leaves, the fold leaves. -/
theorem foldl_same {α β : Type} {f : State → α → State} (P : State → β) (hf : ∀ u x, P (f u x) = P u) (l : List α) (s : State) :
    P (l.foldl f s) = P s :=
  foldl_keeps (fun u => P u = P s) (fun x u hu => (hf u x).trans hu) l rfl

/-! ## The calibration block -/

/-- The AC values of a block leave the time of the block. -/
theorem State.acBlock_at (s : State) (c : CalSet) (codes : List (List Int)) : (s.acBlock c codes).met.blockAt = s.met.blockAt := by
  have l : ∀ (w : State) (b : Bool), (w.logFlag b).met = w.met := by
    intro w b
    unfold State.logFlag
    split
    · exact State.log_met ..
    · rfl
  unfold State.acBlock State.flagsBlock State.setKind
  simp only [l]

/-- The mean of a channel's codes over a block of `n` samples (R274). -/
theorem State.calStats_mean (s : State) (xs : List (Nat × List Int × List Int)) (late : List (List Int)) (h : 0 < xs.length) (k : Nat) (hk : k < 32) :
    ((xs.length : Int) * wd (s.calStats (plainCodes xs) late).met.calMean k - sumInt (xs.map fun x => wd x.2.1 k)).natAbs < xs.length := by
  have mean : wd (s.calStats (plainCodes xs) late).met.calMean k = someRound 34 (sumInt (xs.map fun x => wd x.2.1 k)) xs.length := by
    simp [State.calStats, plainCodes, wd, List.getD_eq_getElem?_getD, hk, Function.comp_def]
  rw [mean]
  exact someRound_near _ _ _ h

section
variable {s : State} {t : Nat} (hm : s.metRuns = true)
include hm

theorem calBlock_ends (hb : s.met.blockAt < s.blockEnd) (hx : (s.blockOf s.blockEnd).length = 1600) :
    Completes (.calBlock t) s fun u =>
      u.met.block = s.met.block.filter (fun x => decide (s.blockEnd < x.1)) ∧ u.met.blockAt = s.blockEnd ∧
      ∀ k, k < 32 → (1600 * wd u.met.calMean k - sumInt ((s.blockOf s.blockEnd).map fun x => wd x.2.1 k)).natAbs < 1600 := by
  have runs : ((s.arrive t).metRuns && decide ((s.arrive t).met.blockAt < (s.arrive t).blockEnd) &&
      ((s.arrive t).blockOf (s.arrive t).blockEnd).length == 1600) = true := by
    show (s.metRuns && decide (s.met.blockAt < s.blockEnd) && (s.blockOf s.blockEnd).length == 1600) = true
    simp [hm, hb, hx]
  refine Completes.of (u := doCalBlock t s) rfl ?_
  unfold doCalBlock
  dsimp only
  rw [if_pos runs]
  show _ ∧ _
  rw [show (s.arrive t).blockEnd = s.blockEnd from rfl, show (s.arrive t).blockOf s.blockEnd = s.blockOf s.blockEnd from rfl]
  generalize hw : (if (s.arrive t).met.blockAt + ms 200 = s.blockEnd then s.arrive t else (s.arrive t).breakRuns) = w
  have block : w.met.block = s.met.block := by
    rw [← hw]
    split <;> rfl
  generalize hxs : s.blockOf s.blockEnd = xs at hx ⊢
  have mean := fun k hk => State.calStats_mean (w.endBlock s.blockEnd) xs (lateCodes xs) (by omega) k hk
  rw [hx] at mean
  have kept : ((w.endBlock s.blockEnd).calStats (plainCodes xs) (lateCodes xs)).met.block = s.met.block.filter (fun x => decide (s.blockEnd < x.1))
      := by
    rw [← block]
    rfl
  have at_ : ((w.endBlock s.blockEnd).calStats (plainCodes xs) (lateCodes xs)).met.blockAt = s.blockEnd := rfl
  generalize (w.endBlock s.blockEnd).calStats (plainCodes xs) (lateCodes xs) = v at mean kept at_ ⊢
  split
  · next c _ =>
    obtain ⟨eb, em⟩ := Prod.mk.inj (State.acBlock_stats v c (lateCodes xs))
    rw [eb, em, State.acBlock_at]
    exact ⟨kept, at_, mean⟩
  · exact ⟨kept, at_, mean⟩

omit hm in
theorem calBlock_waits (h : s.blockEnd ≤ s.met.blockAt ∨ (s.blockOf s.blockEnd).length ≠ 1600) :
    Completes (.calBlock t) s fun u => u.met = s.met := by
  refine Completes.of (u := doCalBlock t s) rfl ?_
  unfold doCalBlock
  dsimp only
  rw [if_neg]
  · rfl
  · show ¬ (s.metRuns && decide (s.met.blockAt < s.blockEnd) && (s.blockOf s.blockEnd).length == 1600) = true
    rcases h with h | h
    · simp [Nat.not_lt.2 h]
    · simp [h]

end

/-! ## The commit -/

/-- The samples of the commit for the tick start that comes next after `t` (R284). -/
def State.commitWindow (s : State) (t : Nat) : List Computed :=
  s.met.recent.filter fun m => decide ((t / 1000000 + 1) * 1000000 < m.rep + ms 2 ∧ m.rep + ms 1 ≤ (t / 1000000 + 1) * 1000000)

/-- A mean of a commit lies less than one unit away. -/
theorem meanOf_near (place : Nat) (xs : List Int) (h : xs ≠ []) :
    (1000 * (xs.length : Int) * meanOf place xs 1000 - sumInt xs).natAbs < 1000 * xs.length := by
  have near := someRound_near place (sumInt xs) (xs.length * 1000) (by have := List.length_pos_iff.2 h; omega)
  rw [meanOf, if_neg (by simpa using h)]
  rw [Nat.mul_comm 1000, Int.mul_comm 1000]
  simpa using near

theorem liveTicks_published (c : CalSet) (n : Nat) (sum : Fin 12 → Nat) (q : TallySnap) (l : List (Fin 12)) (s : State) :
    (l.foldl (fun s b => s.liveTick c b n (sum b) q) s).met.published' = s.met.published' :=
  foldl_same (fun u : State => u.met.published') (fun u b => State.liveTick_published u c b n (sum b) q) l s

section
variable {s : State} {t : Nat} {c : CalSet} (hm : s.metRuns = true) (hs : s.met.set = some c)
include hm hs

theorem metrologyCommit_runs : doMetrologyCommit t s = (s.arrive t).metCommit t ((t / 1000000 + 1) * 1000000) c := by
  have runs : (s.arrive t).metRuns = true := hm
  simp [doMetrologyCommit, hs, runs]

theorem metrologyCommit_empty (h : s.commitWindow t = []) : Completes (.metrologyCommit t) s fun u =>
    u.met.valid = false ∧ u.met.commit = s.met.commit ∧ u.met.published = s.met.published := by
  refine Completes.of (u := doMetrologyCommit t s) rfl ?_
  rw [metrologyCommit_runs hm hs]
  unfold State.metCommit
  rw [show (s.arrive t).met.recent.filter _ = s.commitWindow t from rfl, h]
  simp

theorem metrologyCommit_commits {x : Computed} {rest : List Computed} (h : s.commitWindow t = x :: rest) : Completes (.metrologyCommit t) s fun u =>
    u.met.valid = true ∧ u.met.published = x.snap.tally ∧
    u.met.wrapEpoch = (s.met.wrapEpoch + sumNat ((fins 32).map fun k => x.snap.tally[k] / 2 ^ 32 - s.met.published[k] / 2 ^ 32)) % 2 ^ 32 ∧
    ∃ m, u.met.commit = some m ∧ m.stamp = t ∧
      (1000 * ((s.commitWindow t).length : Int) * m.pImp - sumInt ((s.commitWindow t).map fun y => y.p)).natAbs < 1000 * (s.commitWindow t).length ∧
      (1000 * ((s.commitWindow t).length : Int) * m.qImp - sumInt ((s.commitWindow t).map fun y => y.q)).natAbs < 1000 * (s.commitWindow t).length :=
          by
  refine Completes.of (u := doMetrologyCommit t s) rfl ?_
  rw [metrologyCommit_runs hm hs]
  have some_ : s.commitWindow t ≠ [] := by rw [h]; exact List.cons_ne_nil _ _
  have pNear := meanOf_near 36 ((s.commitWindow t).map fun y => y.p) (by simpa using some_)
  have qNear := meanOf_near 37 ((s.commitWindow t).map fun y => y.q) (by simpa using some_)
  rw [List.length_map] at pNear qNear
  unfold State.metCommit
  rw [show (s.arrive t).met.recent.filter _ = s.commitWindow t from rfl]
  generalize s.commitWindow t = cs at *
  subst h
  dsimp only
  generalize hv : State.bumpIf _ _ _ = v
  have own : v.met.published' = (true, s.met.published, s.met.wrapEpoch, some (commitOf t s.metBays (x :: rest)), s.met.tally) := by
    rw [← hv, State.bumpIf_met]
    rfl
  generalize hz : List.foldl _ v _ = z
  have live : z.met.published' = v.met.published' := by
    rw [← hz]
    exact liveTicks_published ..
  have last := State.writeCheckpoint_published (z.publish x.snap.tally)
  rw [own] at live
  simp only [Metrology.published', Prod.mk.injEq] at live last
  obtain ⟨lv, lp, lw, lc, _⟩ := live
  obtain ⟨wv, wp, ww, wc, _⟩ := last
  rw [wv, wp, ww, wc]
  refine ⟨lv, rfl, ?_, _, lc, rfl, pNear, qNear⟩
  simp only [State.publish, lw, lp, carries]

end

/-! ## Receipts -/

/-- What the receipts of a boundary and of a dead bay leave of the partition. -/
def Metrology.tallied (m : Metrology) : Option CalSet × Option (CalSet × Nat) × Vector Nat 32 × Vector Nat 32 :=
  (m.set, m.nextSet, m.tally, m.residue)

theorem State.issueReceipt_tallied (s : State) (i : Fin 13) (cause : Nat) (q : TallySnap) : (s.issueReceipt i cause q).met.tallied = s.met.tallied :=
    by
  have h := s.issueReceipt_figures i cause q
  simp only [Metrology.figures, Prod.mk.injEq] at h
  obtain ⟨h1, h2, _, h3, h4, _⟩ := h
  simp only [Metrology.tallied, h1, h2, h3, h4]

theorem State.issueReceipt_boundary (s : State) (i : Fin 13) (cause : Nat) (q : TallySnap) : (s.issueReceipt i cause q).met.boundary = s.met.boundary
    := by
  have h := s.issueReceipt_figures i cause q
  simp only [Metrology.figures, Prod.mk.injEq] at h
  exact h.2.2.1

theorem State.issueReceipt_live (s : State) (i : Fin 13) (cause : Nat) (q : TallySnap) : (s.issueReceipt i cause q).met.live = s.met.live := by
  have h := s.issueReceipt_figures i cause q
  simp only [Metrology.figures, Prod.mk.injEq] at h
  exact h.2.2.2.2.2

theorem State.closeDead_tallied (s : State) (b : Fin 12) (q : TallySnap) : (s.closeDead b q).met.tallied = s.met.tallied :=
  State.issueReceipt_tallied ..

theorem State.closeDead_boundary (s : State) (b : Fin 12) (q : TallySnap) : (s.closeDead b q).met.boundary = s.met.boundary :=
  State.issueReceipt_boundary ..

theorem State.closeDead_live (s : State) (b : Fin 12) (q : TallySnap) : (s.closeDead b q).met.live[b] = false := by
  show (State.issueReceipt _ _ _ _).met.live[b] = false
  rw [State.issueReceipt_live]
  exact vupd_here ..

theorem State.closeDead_more (s : State) (b : Fin 12) (q : TallySnap) : ∃ l, (s.closeDead b q).met.queue = s.met.queue ++ l :=
  State.issueReceipt_more ..

theorem State.closeDeadAt_more (s : State) (t : Nat) (b : Fin 12) : ∃ l, (s.closeDeadAt t b).met.queue = s.met.queue ++ l := by
  unfold State.closeDeadAt
  split
  · split
    · exact State.closeDead_more ..
    · exact ⟨[], (List.append_nil _).symm⟩
  · exact ⟨[], (List.append_nil _).symm⟩

section
variable {α : Type} {P : State → α} (hc : ∀ (s : State) b q, P (s.closeDead b q) = P s)
include hc

theorem State.closeDeadBefore_keeps (s : State) (t : Nat) : P (s.closeDeadBefore t) = P s := by
  refine foldl_same P (fun u b => ?_) s.metBays s
  split
  · split
    · exact hc ..
    · rfl
  · rfl

theorem State.closeDeadAt_keeps (s : State) (t : Nat) (b : Fin 12) : P (s.closeDeadAt t b) = P s := by
  unfold State.closeDeadAt
  split
  · split
    · exact hc ..
    · rfl
  · rfl

variable (hi : ∀ (s : State) i c q, P (s.issueReceipt i c q) = P s)
include hi

theorem State.boundaryReceipts_keeps (s : State) (q : TallySnap) :
    P (s.boundaryReceipts q) = P { s with met := { s.met with boundary := s.met.boundary.drop 1 } } := by
  unfold State.boundaryReceipts
  dsimp only
  refine (foldl_same P (fun u b => ?_) _ _).trans ((hi ..).trans (State.closeDeadBefore_keeps hc ..))
  split
  · exact hi ..
  · rfl

theorem State.closeSet_keeps (s : State) (q : TallySnap) : P (s.closeSet q) = P s := by
  unfold State.closeSet
  refine (foldl_same P (fun u b => ?_) _ _).trans ((hi ..).trans (State.closeDeadBefore_keeps hc ..))
  exact (State.closeDeadAt_keeps hc ..).trans (hi ..)

end

theorem State.passedReceipts_tallied (s : State) (t : Nat) : (s.passedReceipts t).met.tallied = s.met.tallied :=
  foldl_same (fun u : State => u.met.tallied)
    (fun u q => State.boundaryReceipts_keeps (P := fun u => u.met.tallied) State.closeDead_tallied State.issueReceipt_tallied u q) _ s

/-- Where no boundary has passed, no receipt is due for one. -/
theorem State.passedReceipts_none {s : State} {t : Nat} (h : ∀ z ∈ s.met.boundary, t < z.at_) : s.passedReceipts t = s := by
  unfold State.passedReceipts
  rw [List.filter_eq_nil_iff.2 fun z hz => by simpa using h z hz]
  rfl

theorem foldl_of_fixed {α β : Type} {f : α → β → α} {a : α} (h : ∀ b, f a b = a) (l : List β) : l.foldl f a = a := by
  induction l with
  | nil => rfl
  | cons b l ih => rw [List.foldl_cons, h, ih]

/-- Where no bay was dead before a time, none is closed for it. -/
theorem State.closeDeadBefore_none {s : State} {t : Nat} (h : ∀ (b : Fin 12) z, s.met.deadSnap[b] = some z → t ≤ z.at_) : s.closeDeadBefore t = s :=
    by
  refine foldl_of_fixed (fun b => ?_) _
  split
  · next q e => exact if_neg (Nat.not_lt.mpr (h b q e))
  · rfl

/-- What a receipt of a kind is issued under (R288, R292, R439). -/
def State.issues (s : State) : Prop := s.vault.debug = false ∧ s.met.key.isSome ∧ s.met.queue.length < 256

/-- The AC receipt comes first; those of the bays follow (R288). -/
theorem State.acReceipt_first {s u : State} {cause : Nat} {q : TallySnap} (h : s.issues) (hs : s.met.set.isSome)
    (hu : ∃ l, u.met.queue = (s.issueReceipt 0 cause q).met.queue ++ l) : ∃ r l, u.met.queue = s.met.queue ++ r :: l ∧
      r.seq = s.met.seq + 1 ∧ r.bytes[6]? = some 0xFF ∧ r.bytes[7]? = some (byte cause) := by
  obtain ⟨debug, key, room⟩ := h
  obtain ⟨r, hq, hseq, h6, h7⟩ := s.issueReceipt_issued 0 cause q debug key hs room
  obtain ⟨l, hl⟩ := hu
  exact ⟨r, l, by rw [hl, hq, List.append_assoc]; rfl, hseq, h6, h7⟩

/-- An accepted set takes effect with the tallies as they stand (R267). -/
theorem State.calEffect_takes {s : State} {c : CalSet} {q : Nat} (hn : s.met.nextSet = some (c, q)) :
    s.calEffect.met.set = some c ∧ s.calEffect.met.nextSet = none ∧ s.calEffect.met.tally = s.met.tally ∧
    s.calEffect.met.residue = s.met.residue := by
  unfold State.calEffect
  simp only [hn]
  have parts : ∀ v : State, v.met.tallied = s.met.tallied → v.met.tally = s.met.tally ∧ v.met.residue = s.met.residue := fun v h => by
    simp only [Metrology.tallied, Prod.mk.injEq] at h
    exact h.2.2
  have closed : ∀ (v : State) r, v.met.tallied = s.met.tallied → (v.closeSet (v.tallyNow r)).met.tallied = s.met.tallied := fun v r h =>
    (State.closeSet_keeps (P := fun u => u.met.tallied) State.closeDead_tallied State.issueReceipt_tallied ..).trans h
  refine ⟨trivial, trivial, ?_⟩
  cases s.met.lastRep with
  | none =>
    dsimp only
    split
    · exact parts _ (closed _ _ rfl)
    · exact ⟨rfl, rfl⟩
  | some r =>
    dsimp only
    split
    · exact parts _ (closed _ _ (State.passedReceipts_tallied ..))
    · exact parts _ (State.passedReceipts_tallied ..)

/-- The receipts under the old set close with cause 4, where none of a boundary or of a dead bay comes before them (R267, R288). -/
theorem State.calEffect_receipt {s : State} {c : CalSet} {q x : Nat} (hn : s.met.nextSet = some (c, q)) (hx : s.met.lastRep = some x)
    (hi : s.issues) (hs : s.met.set.isSome) (hz : ∀ z ∈ s.met.boundary, x < z.at_)
    (hd : ∀ (b : Fin 12) z, s.met.deadSnap[b] = some z → x ≤ z.at_) : ∃ r l, s.calEffect.met.queue = s.met.queue ++ r :: l ∧
      r.seq = s.met.seq + 1 ∧ r.bytes[6]? = some 0xFF ∧ r.bytes[7]? = some 4 := by
  obtain ⟨old, ho⟩ := Option.isSome_iff_exists.1 hs
  unfold State.calEffect
  simp only [hn, hx, State.passedReceipts_none hz, ho]
  refine State.acReceipt_first (q := s.tallyNow x) (cause := 4) hi hs ?_
  show ∃ l, (s.closeSet (s.tallyNow x)).met.queue = _
  unfold State.closeSet
  rw [State.closeDeadBefore_none (t := (s.tallyNow x).at_) hd]
  refine foldl_queue (fun u b => ?_) _ _
  obtain ⟨k, hk⟩ := u.issueReceipt_more (bayKind b) 4 (s.tallyNow x)
  obtain ⟨l, hl⟩ := (u.issueReceipt (bayKind b) 4 (s.tallyNow x)).closeDeadAt_more (s.tallyNow x).at_ b
  exact ⟨k ++ l, by rw [hl, hk, List.append_assoc]⟩

section
variable {s : State} {t : Nat} (hm : s.metRuns = true)
include hm

theorem bayDead_dies {b : Fin 12} {q : TallySnap} (hq : s.met.deadSnap[b] = some q) (hl : s.met.live[b] = true) :
    Completes (.bayDead t b) s fun u => u.met.live[b] = false ∧
      (s.issues → s.met.set.isSome → (∀ z ∈ s.met.boundary, q.at_ < z.at_) →
        ∃ r, u.met.queue = s.met.queue ++ [r] ∧ r.seq = s.met.seq + 1 ∧ r.bytes[6]? = some (byte b.val) ∧ r.bytes[7]? = some 2) := by
  have runs : (s.arrive t).metRuns = true := hm
  refine Completes.of (u := doBayDead t b s) rfl ?_
  unfold doBayDead
  simp only [State.arrive_met, hq, runs, hl, Bool.and_self, ↓reduceIte]
  refine ⟨?_, fun ⟨debug, key, room⟩ hs hb => ?_⟩
  · split
    · exact State.closeDead_live ..
    · next h => exact Bool.eq_false_iff.2 h
  · rw [State.passedReceipts_none (s := s.arrive t) hb, State.arrive_met, if_pos hl]
    obtain ⟨r, e, hseq, h6, h7⟩ := State.issueReceipt_issued
      { s.arrive t with met := { s.met with live := vupd s.met.live b fun _ => false, deadSnap := vupd s.met.deadSnap b fun _ => none } }
      (bayKind b) 2 q debug key hs room
    have kind : (bayKind b).val = b.val + 1 := by
      show (b.val + 1) % 13 = b.val + 1
      omega
    rw [kind, if_neg (by omega), Nat.add_sub_cancel] at h6
    exact ⟨r, e, hseq, h6, h7⟩

theorem receiptIssue_issues {q : TallySnap} {rest : List TallySnap} (hb : s.met.boundary = q :: rest) (ht : q.at_ ≤ t) :
    Completes (.receiptIssue t) s fun u => u.met.boundary = rest ∧
      (s.issues → s.met.set.isSome → (∀ (b : Fin 12) z, s.met.deadSnap[b] = some z → q.at_ ≤ z.at_) →
        ∃ r l, u.met.queue = s.met.queue ++ r :: l ∧ r.seq = s.met.seq + 1 ∧ r.bytes[6]? = some 0xFF ∧ r.bytes[7]? = some 1) := by
  have runs : (s.arrive t).metRuns = true := hm
  refine Completes.of (u := doReceiptIssue t s) rfl ?_
  unfold doReceiptIssue
  simp only [State.arrive_met, hb, runs, ht, decide_true, Bool.and_self, ↓reduceIte]
  refine ⟨?_, fun hi hs hd => ?_⟩
  · rw [State.boundaryReceipts_keeps (P := fun u => u.met.boundary) State.closeDead_boundary State.issueReceipt_boundary]
    simp [hb]
  · unfold State.boundaryReceipts
    dsimp only
    have alive := State.closeDeadBefore_none (s := { s.arrive t with met := { s.met with boundary := (q :: rest).drop 1 } }) hd
    dsimp only [State.arrive_met] at alive ⊢
    rw [hb, alive]
    refine State.acReceipt_first (s := { s.arrive t with met := { s.met with boundary := (q :: rest).drop 1 } }) hi hs
      (foldl_queue (fun u b => ?_) _ _)
    split
    · exact State.issueReceipt_more ..
    · exact ⟨[], (List.append_nil _).symm⟩

theorem calSetEffect_takes {c : CalSet} {q : Nat} (hn : s.met.nextSet = some (c, q)) (ht : q < t) (hL : ∀ l, s.met.lastRep = some l → q ≤ l) :
    Completes (.calSetEffect t) s fun u =>
      u.met.set = some c ∧ u.met.nextSet = none ∧ u.met.tally = s.met.tally ∧ u.met.residue = s.met.residue ∧
      (s.issues → s.met.set.isSome → s.met.lastRep.isSome →
        (∀ x, s.met.lastRep = some x → (∀ z ∈ s.met.boundary, x < z.at_) ∧ ∀ (b : Fin 12) z, s.met.deadSnap[b] = some z → x ≤ z.at_) →
        ∃ r l, u.met.queue = s.met.queue ++ r :: l ∧ r.seq = s.met.seq + 1 ∧ r.bytes[6]? = some 0xFF ∧ r.bytes[7]? = some 4) := by
  have runs : (s.arrive t).metRuns = true := hm
  have effect : doCalSetEffect t s = (s.arrive t).calEffect := by
    unfold doCalSetEffect
    cases e : s.met.lastRep with
    | none => simp [hn, runs, ht, e]
    | some l => simp [hn, runs, ht, e, hL l e]
  refine Completes.of (u := doCalSetEffect t s) rfl ?_
  rw [effect]
  obtain ⟨e1, e2, e3, e4⟩ := State.calEffect_takes (s := s.arrive t) hn
  refine ⟨e1, e2, e3, e4, fun hi hs hL' hb => ?_⟩
  obtain ⟨x, hx⟩ := Option.isSome_iff_exists.1 hL'
  obtain ⟨hz, hd⟩ := hb x hx
  exact State.calEffect_receipt (s := s.arrive t) hn hx hi hs hz hd

end

/-- Settles O29. -/
theorem metrologyEvents : Obligations.MetrologyEvents := by
  unfold Obligations.MetrologyEvents
  intro s t hm
  exact ⟨calBlock_ends hm, calBlock_waits, fun c hs => ⟨metrologyCommit_empty hm hs, fun x rest => metrologyCommit_commits hm hs⟩,
    fun b q => bayDead_dies hm, fun q rest => receiptIssue_issues hm, fun c q => calSetEffect_takes hm⟩

end Sys2Proof.Machine
end
section
/-! PROOFS. What the partition does with a staged metrology firmware (R293, R294, R458). -/
namespace Sys2Proof.Machine

theorem verify_state (s : State) (small : Bool) (c : Bytes) :
    (verify s small c).state.met = s.met ∧ (verify s small c).state.upd = s.upd ∧ (verify s small c).state.fuses = s.fuses :=
  ⟨(verify_only rfl rfl rfl rfl rfl (cs := allSave .met) (OnlyIn.refl _ _)) .met rfl, (verify_only rfl rfl rfl rfl rfl (cs := allSave .upd)
      (OnlyIn.refl _ _)) .upd rfl,
    (verify_only rfl rfl rfl rfl rfl (cs := allSave .fuses) (OnlyIn.refl _ _)) .fuses rfl⟩

/-- A container with code 0 holds the payload its DIGEST is of (R450). -/
theorem verify_digest {s : State} {small : Bool} {c : Bytes} {v : Verified} (e : verify s small c = v) (h : v.code = 0) :
    sha384 v.plain = slice c 84 48 := by
  unfold verify at e
  dsimp only at e
  split at e
  · next bad => exact absurd (by rw [← e] at h; exact h) bad
  · split at e
    · next bad => exact absurd (by rw [← e] at h; exact h) bad
    · split at e
      · exact absurd h (by rw [← e]; exact Nat.succ_ne_zero _)
      · split at e
        · exact absurd h (by rw [← e]; exact Nat.succ_ne_zero _)
        · next same =>
          rw [← e]
          exact Decidable.not_not.mp same

/-- DIGEST then holds over what the slot holds of it. -/
theorem fwOf_digestOk {c plain : Bytes} (h : sha384 plain = slice c 84 48) : (fwOf c plain).digestOk = true := by
  have own : slice (c.take 192) 84 48 = slice c 84 48 := by
    simp [slice, List.drop_take, List.take_take]
  simp [FwImage.digestOk, fwOf, h, own]

/-- The end of an activation is the update block's alone (R453, R466). -/
theorem State.activationEnds_met (s : State) (i v e l : Nat) : (s.activationEnds i v e l).met = s.met := by
  simp [State.activationEnds, State.updChange, State.setUpd]

theorem State.activationEnds_upd (s : State) (i v e l : Nat) : (s.activationEnds i v e l).upd =
    { s.upd with err := e, last := l, mode := 0, hold := false,
                 large := if l = 1 ∧ e = 0 then {} else { s.upd.large with st := if s.upd.large.total = 0 then s.upd.large.st else .staged } } := by
  simp [State.activationEnds, State.updChange, State.setUpd]

/-- The image written into the idle slot is the one of the slot that runs next (R458). -/
theorem State.metOther_image (s : State) (x : FwImage) : (s.writeMet x).metOther.metImage = x := by
  cases h : s.upd.metOnB <;> simp [State.metImage, State.metOther, State.writeMet, State.setUpd, h]

theorem State.metOther_onB (s : State) (x : FwImage) : (s.writeMet x).metOther.upd.metOnB = !s.upd.metOnB := by
  cases h : s.upd.metOnB <;> simp [State.metOther, State.writeMet, State.setUpd, h]

theorem State.metRestart_upd (s : State) : s.metRestart.upd = s.upd :=
  (State.metRestart_only rfl rfl rfl rfl (cs := allSave .upd) (OnlyIn.refl _ _)) .upd rfl

/-- The restart on a new firmware, from the checkpoint just written (R294, R458). -/
theorem State.gapRestart_met {s : State} {x : Checkpoint} (h : s.met.newest = some x) :
    s.runsMet.metRestart.gapAll.met.fwId = s.metImage.fwId ∧ s.runsMet.metRestart.gapAll.met.bootCount = s.met.bootCount + 1 ∧
    s.runsMet.metRestart.gapAll.met.tally = x.tally ∧ s.runsMet.metRestart.gapAll.met.residue = x.residue ∧
    s.runsMet.metRestart.gapAll.met.recent = [] ∧ s.runsMet.metRestart.gapAll.met.live = Vector.replicate 12 false ∧
    ∀ i : Fin 13, s.runsMet.metRestart.gapAll.met.kinds[i].gap = true ∧ s.runsMet.metRestart.gapAll.met.kinds[i].restart = true := by
  obtain ⟨m, em, fw, boot, tally, residue, recent, live, kinds⟩ := s.runsMet.metRestart_met x h
  have all : ∀ w : State, w.met = m → w.gapAll.met = { m with kinds := vmap (fun _ k => { k with gap := true }) m.kinds } := fun w e => by
    rw [← e]
    rfl
  rw [all _ em]
  refine ⟨fw, boot, tally, residue, recent, live, fun i => ?_⟩
  dsimp only
  rw [vmap_get]
  exact ⟨rfl, kinds i⟩

section
variable {s : State} {t : Nat} (hl : s.live = true) (hT : s.stagedType = 2) (hA : s.upd.large.st = .activating)
include hl hT hA

/-- The activation at work is the installation (R458). -/
theorem metrologyFwActivation_installs : exec (.metrologyFwActivation t) s = .next (s.arrive t).installMet := by
  have due : ((s.arrive t).stagedType == 2 && ((s.arrive t).upd.large.st == .activating || (s.arrive t).schedDue t)) = true := by
    rw [show (s.arrive t).stagedType = 2 from hT, show (s.arrive t).upd.large.st = .activating from hA]
    rfl
  rw [exec_live hl rfl, if_pos due]

/-- A refused firmware changes neither the image nor the partition that runs it. -/
theorem metrologyFwActivation_refused {v : Verified} (hv : verify (s.arrive t).writeCheckpoint false (areaBytes s.upd.large) = v) {k : Nat}
    (hk : k ≠ 0) (h : (if v.code ≠ 0 then v.code
      else if s.fuses.mb && s.met.sealSt == .sealed && !contFlag (areaBytes s.upd.large) 2 then 0x0E else 0) = k) :
    Completes (.metrologyFwActivation t) s fun u =>
      u.met.fwId = s.met.fwId ∧ u.met.bootCount = s.met.bootCount ∧ u.upd.err = k ∧ u.upd.last = s.upd.last ∧ u.upd.metOnB = s.upd.metOnB := by
  refine Completes.of (metrologyFwActivation_installs hl hT hA) ?_
  obtain ⟨upd, fuses, a, b, met, _⟩ := (s.arrive t).writeCheckpoint_newest
  obtain ⟨vm, vu, _⟩ := verify_state (s.arrive t).writeCheckpoint false (areaBytes s.upd.large)
  have area : areaBytes (s.arrive t).writeCheckpoint.upd.large = areaBytes s.upd.large := by rw [upd]; rfl
  have sealSt : (s.arrive t).writeCheckpoint.met.sealSt = s.met.sealSt := by rw [met]; rfl
  unfold State.installMet
  dsimp only
  rw [area, fuses, sealSt, hv, State.arrive_fuses, h, if_pos hk, State.activationEnds_met, State.activationEnds_upd]
  rw [hv] at vm vu
  rw [vm, vu, upd, met]
  exact ⟨rfl, rfl, rfl, rfl, rfl⟩

/-- An accepted firmware runs from the idle slot, on the tallies of the checkpoint written before it. -/
theorem metrologyFwActivation_accepted {v : Verified} (hv : verify (s.arrive t).writeCheckpoint false (areaBytes s.upd.large) = v)
    (h0 : v.code = 0) (h : (s.fuses.mb && s.met.sealSt == .sealed && !contFlag (areaBytes s.upd.large) 2) = false) :
    Completes (.metrologyFwActivation t) s fun u =>
      u.met.fwId = (sha256 v.plain).take 8 ∧ u.met.bootCount = s.met.bootCount + 1 ∧ u.upd.err = 0 ∧ u.upd.last = 1 ∧
      u.upd.metOnB = (!s.upd.metOnB) ∧ u.metImage.image = v.plain ∧ u.metImage.version = contVersion (areaBytes s.upd.large) ∧
      u.met.tally = s.met.tally ∧ u.met.residue = s.met.residue ∧ u.met.recent = [] ∧ u.met.live = Vector.replicate 12 false ∧
      ∀ i : Fin 13, u.met.kinds[i].gap = true ∧ u.met.kinds[i].restart = true := by
  refine Completes.of (metrologyFwActivation_installs hl hT hA) ?_
  obtain ⟨upd, fuses, a, b, met, x, newest, tally, residue⟩ := (s.arrive t).writeCheckpoint_newest
  obtain ⟨vm, vu, _⟩ := verify_state (s.arrive t).writeCheckpoint false (areaBytes s.upd.large)
  have area : areaBytes (s.arrive t).writeCheckpoint.upd.large = areaBytes s.upd.large := by rw [upd]; rfl
  have sealSt : (s.arrive t).writeCheckpoint.met.sealSt = s.met.sealSt := by rw [met]; rfl
  have digest := fwOf_digestOk (verify_digest hv h0)
  unfold State.installMet
  dsimp only
  rw [area, fuses, sealSt, hv, State.arrive_fuses, h]
  rw [hv] at vm vu
  generalize hc : areaBytes s.upd.large = c at digest ⊢
  simp only [h0, ne_eq, not_true_eq_false, Bool.false_eq_true, ↓reduceIte, digest]
  generalize hw : v.state = w at vm vu ⊢
  have met' : (w.writeMet (fwOf c v.plain)).metOther.met = (s.arrive t).writeCheckpoint.met := vm
  obtain ⟨fw, boot, t1, t2, recent, live, kinds⟩ := State.gapRestart_met (s := (w.writeMet (fwOf c v.plain)).metOther) (x := x) (by rw [met']; exact
      newest)
  have onB : (w.writeMet (fwOf c v.plain)).metOther.upd.metOnB = !s.upd.metOnB := by rw [State.metOther_onB, vu, upd]; rfl
  have image := State.metOther_image w (fwOf c v.plain)
  have restarted : (w.writeMet (fwOf c v.plain)).metOther.runsMet.metRestart.gapAll.upd = (w.writeMet (fwOf c v.plain)).metOther.upd :=
    State.metRestart_upd _
  generalize (w.writeMet (fwOf c v.plain)).metOther = z at *
  generalize z.runsMet.metRestart.gapAll = q at *
  have ends := State.activationEnds_met q 1 (fwOf c v.plain).version 0 1
  have endsUpd := State.activationEnds_upd q 1 (fwOf c v.plain).version 0 1
  generalize q.activationEnds 1 (fwOf c v.plain).version 0 1 = u at *
  have runs : u.metImage = fwOf c v.plain := by
    rw [← image]
    simp only [State.metImage, endsUpd, restarted]
  simp only [runs, ends, endsUpd, restarted, fw, boot, image, met', met, t1, t2, tally, residue, onB, recent, live, kinds]
  simp [fwOf]

end

/-- Settles O31. -/
theorem metrologyFirmware : Obligations.MetrologyFirmware := by
  unfold Obligations.MetrologyFirmware
  intro s t hl hT hA
  refine ⟨fun h => metrologyFwActivation_refused hl hT hA rfl h (if_pos h), fun h0 hb => ?_,
    fun h0 hb => metrologyFwActivation_accepted hl hT hA rfl h0 hb⟩
  obtain ⟨u, e, fw, boot, err, _, onB⟩ :=
    metrologyFwActivation_refused (k := 0x0E) hl hT hA rfl (by decide) (by rw [if_neg (by simpa using h0), if_pos hb])
  exact ⟨u, e, fw, boot, err, onB⟩

end Sys2Proof.Machine
end
section
/-! PROOFS. How a scan moves an SI pair (R297 to R306): the steps of a pair as functions of the pair alone, each tied to the operation of the
state that takes it, then the table of R302 read off them. -/
namespace Sys2Proof.Machine

/-! ## A pair by itself -/

/-- A pair that enters `st`, having been in `old` (R302). -/
def goPair (st old : SiSt) (p : SiPair) : SiPair :=
  let fresh := st == .faultTest || st == .waitReset
  { p with st, demands := if (old == .idle || old == .waitReset) && (st == .partialDemand || st == .demand) then satInc 16 p.demands else p.demands,
           faults := if st == .faultDisc || st == .faultTest then satInc 8 p.faults else p.faults,
           a := if fresh then { p.a with passed := 0 } else p.a, b := if fresh then { p.b with passed := 0 } else p.b }

/-- Where a pair goes that has returned: by RESET of its record (R298). -/
def releaseSt (r : SafRec) : SiSt := if siManual r then .waitReset else .idle

/-- The step of R302 of a pair, at calendar second `now`. -/
def stepPair (r : SafRec) (now : Nat) (dA dB : Bool) (t : Nat) (p : SiPair) : SiPair :=
  let due := t + siDisc r
  match p.st with
  | .idle | .waitReset =>
    if dA && dB then goPair .demand p.st p
    else if dA || dB then goPair .partialDemand p.st { p with deadline := due, firstA := dA }
    else p
  | .partialDemand =>
    if dA && dB then goPair (if t ≤ p.deadline then .demand else .faultDisc) p.st p
    else if dA || dB then p
    else if t ≤ p.deadline then goPair (releaseSt r) p.st { p with blips := satInc 8 p.blips }
    else goPair .faultDisc p.st p
  | .demand =>
    if dA && dB then p
    else if dA || dB then goPair .returning p.st { p with deadline := due, firstA := dB }
    else goPair (releaseSt r) p.st { p with proof := now, proofDue := false }
  | .returning =>
    if dA != dB then p
    else if p.deadline < t then goPair .faultDisc p.st p
    else if dA then goPair .demand p.st p
    else goPair (releaseSt r) p.st { p with proof := now, proofDue := false }
  | .faultDisc => if dA && dB then goPair .faultBoth p.st p else p
  | .faultBoth =>
    if dA || dB then p
    else
      let apart := if p.a.stamp ≤ p.b.stamp then p.b.stamp - p.a.stamp else p.a.stamp - p.b.stamp
      if apart ≤ siDisc r then goPair (releaseSt r) p.st p else goPair .faultDisc p.st p
  | .faultTest => p

/-- The changes of a pair's channels at one scan (R302). -/
def changesPair (r : SafRec) (now : Nat) (old p : SiPair) : SiPair :=
  let a0 := demandA old.a.level
  let b0 := demandB r old.b.level
  let a1 := demandA p.a.level
  let b1 := demandB r p.b.level
  if a0 = a1 ∧ b0 = b1 then stepPair r now a1 b1 (max p.a.stamp p.b.stamp) p
  else if a0 = a1 then stepPair r now a1 b1 p.b.stamp p
  else if b0 = b1 then stepPair r now a1 b1 p.a.stamp p
  else if p.a.stamp = p.b.stamp ∧ a1 = b1 then stepPair r now a1 b1 p.a.stamp p
  else if p.a.stamp < p.b.stamp ∨ (p.a.stamp = p.b.stamp ∧ a1) then stepPair r now a1 b1 p.b.stamp (stepPair r now a1 b0 p.a.stamp p)
  else stepPair r now a1 b1 p.a.stamp (stepPair r now a0 b1 p.b.stamp p)

/-- The results of test pulses on a pair (R300, R302, R305). -/
def testPair (r : SafRec) (failed : Bool) (p : SiPair) : SiPair :=
  if failed then (if p.st = .faultTest then p else goPair .faultTest p.st p)
  else if inDemand r p then p
  else if p.st == .faultTest && decide (2 ≤ p.a.passed ∧ 2 ≤ p.b.passed) then goPair .waitReset p.st p
  else if p.st == .waitReset && !siManual r && decide (1 ≤ p.a.passed ∧ 1 ≤ p.b.passed) then goPair .idle p.st p
  else p

/-- The report of a feedback pair after a scan (R306). -/
def feedbackPair (p : SiPair) : SiPair :=
  let apart := if p.a.level = p.b.level then none else match p.apart with | some q => some q | none => some (max p.a.stamp p.b.stamp)
  { p with apart, mismatch := p.mismatch && apart.isSome, report := if fbOpen p then 8 else if fbClosed p then 9 else p.report }

/-- Test results of a feedback pair (R300). -/
def testFeedbackPair (failed : Bool) (p : SiPair) : SiPair :=
  if failed then (if p.st = .faultTest then p else goPair .faultTest p.st p)
  else if p.st == .faultTest && decide (2 ≤ p.a.passed ∧ 2 ≤ p.b.passed) then goPair .idle p.st p
  else p

/-- A pair whose channels a scan leaves as `a` and `b`, each with whether its test failed. -/
def scannedPair (r : SafRec) (now : Nat) (p : SiPair) (a b : SiChan × Bool) : SiPair :=
  if siType r = 2 then testFeedbackPair (a.2 || b.2) (feedbackPair { p with a := a.1, b := b.1 })
  else testPair r (a.2 || b.2) (changesPair r now p { p with a := a.1, b := b.1 })

/-- Has the source of a channel limited its current (R504)? -/
def State.sourceWeak (s : State) (r : SafRec) (chanB : Bool) : Bool := ((sourceOf r chanB).bind (fin? 4)).any fun q => s.saf.tpLimited[q]

/-- A channel after its sample at a scan, unless a pulse of its source masks it (R297, R299). -/
def State.sampled (s : State) (t : Nat) (r : SafRec) (chanB v : Bool) (c : SiChan) : SiChan :=
  if s.maskedAt (sourceOf r chanB) t then c else sampleChan (siFilter (some r)) t v c

/-- A channel after a scan, with the result of a pulse that ends there (R300). -/
def State.tested (s : State) (t : Nat) (r : SafRec) (chanB v : Bool) (c : SiChan) : SiChan × Bool :=
  if s.lastInPulse (sourceOf r chanB) t then testChan (s.sourceWeak r chanB) v (s.sampled t r chanB v c) else (s.sampled t r chanB v c, false)

/-! ## The operations of the state take them -/

theorem State.goSi_pair (s : State) (k : Fin 16) (st : SiSt) (f : SiPair → SiPair) :
    (s.goSi k st f).saf.si[k] = goPair st s.saf.si[k].st (f s.saf.si[k]) := State.goSi_self ..

theorem State.stepSi_pair (s : State) (k : Fin 16) (r : SafRec) (dA dB : Bool) (t : Nat) :
    (s.stepSi k r dA dB t).saf.si[k] = stepPair r (s.calSeconds % 2 ^ 32) dA dB t s.saf.si[k] := by
  unfold State.stepSi stepPair State.proveSi State.releaseSi releaseSt
  dsimp only
  cases h : s.saf.si[k].st
  all_goals
    simp only [State.calSeconds]
    repeat' split
  all_goals simp only [State.goSi_pair, h, id_eq]

theorem State.applyChanges_pair (s : State) (k : Fin 16) (r : SafRec) (old : SiPair) :
    (s.applyChanges k r old).saf.si[k] = changesPair r (s.calSeconds % 2 ^ 32) old s.saf.si[k] := by
  have cal : ∀ dA dB t, (s.stepSi k r dA dB t).calSeconds = s.calSeconds := fun dA dB t => by
    obtain ⟨_, _, mt, _, rtc, _⟩ := s.stepSi_step k r dA dB t
    unfold State.calSeconds State.calUnits
    rw [mt, rtc]
  unfold State.applyChanges changesPair
  dsimp only
  repeat' split
  all_goals simp only [State.stepSi_pair, cal]

theorem State.testSi_pair (s : State) (k : Fin 16) (r : SafRec) (failed : Bool) :
    (s.testSi k r failed).saf.si[k] = testPair r failed s.saf.si[k] := by
  have logged : ∀ (w : State) c i a b, (w.log c i a b).saf.si[k] = w.saf.si[k] := fun w c i a b =>
    congrArg (fun z : SafetyBlock => z.si[k]) (State.log_saf ..)
  unfold State.testSi testPair
  dsimp only
  repeat' split
  all_goals simp only [logged, State.goSi_pair, id_eq]

theorem State.feedbackSi_pair (s : State) (k : Fin 16) : (s.feedbackSi k).saf.si[k] = feedbackPair s.saf.si[k] := by
  unfold State.feedbackSi
  dsimp only
  have bumped : ∀ (w : State) c i, (w.bumpIf c i).saf.si[k] = w.saf.si[k] := fun w c i =>
    congrArg (fun z : SafetyBlock => z.si[k]) (State.bumpIf_saf ..)
  rw [bumped, State.setSi_self]
  rfl

theorem State.testFeedback_pair (s : State) (k : Fin 16) (failed : Bool) :
    (s.testFeedback k failed).saf.si[k] = testFeedbackPair failed s.saf.si[k] := by
  unfold State.testFeedback testFeedbackPair
  dsimp only
  repeat' split
  all_goals simp only [State.goSi_pair, id_eq]

theorem State.scanPair_pair (w : State) (t : Nat) (k : Fin 16) (a b : Bool) {r : SafRec} (hr : w.safRec 1 k.val = some r) :
    (w.scanPair t k a b).saf.si[k] = scannedPair r (w.calSeconds % 2 ^ 32) w.saf.si[k] (w.tested t r false a w.saf.si[k].a)
      (w.tested t r true b w.saf.si[k].b) := by
  have parts : ∀ ca cb, w.tested t r false a w.saf.si[k].a = ca → w.tested t r true b w.saf.si[k].b = cb → w.scanPair t k a b =
      if siType r = 2 then ((w.setSi k fun p => { p with a := ca.1, b := cb.1 }).feedbackSi k).testFeedback k (ca.2 || cb.2)
      else ((w.setSi k fun p => { p with a := ca.1, b := cb.1 }).applyChanges k r w.saf.si[k]).testSi k r (ca.2 || cb.2) := fun ca cb ha hb => by
    rw [← ha, ← hb]
    unfold State.scanPair
    simp only [hr, Option.bind_some]
    rfl
  rw [parts _ _ rfl rfl]
  generalize w.tested t r false a w.saf.si[k].a = ca
  generalize w.tested t r true b w.saf.si[k].b = cb
  generalize hv : (w.setSi k fun p => { p with a := ca.1, b := cb.1 }) = v
  have own : v.saf.si[k] = { w.saf.si[k] with a := ca.1, b := cb.1 } := by
    rw [← hv]
    exact State.setSi_self ..
  have cal : v.calSeconds = w.calSeconds := by
    rw [← hv]
    rfl
  unfold scannedPair
  split
  · rw [State.testFeedback_pair, State.feedbackSi_pair, own]
  · rw [State.testSi_pair, State.applyChanges_pair, own, cal]

/-- A channel's scan rests on the records, the limits and the power alone. -/
theorem State.tested_same {s w : State} (hr : w.saf.records = s.saf.records) (hl : w.saf.tpLimited = s.saf.tpLimited) (hp : w.pwr = s.pwr)
    (t : Nat) (r : SafRec) (chanB v : Bool) (c : SiChan) : w.tested t r chanB v c = s.tested t r chanB v c := by
  have pulse : ∀ q, w.pulsing q = s.pulsing q := fun q => by
    unfold State.pulsing State.live State.pulseRec State.safRec
    rw [hr, hp]
  have masked : ∀ q, w.maskedAt q t = s.maskedAt q t := fun q => by
    unfold State.maskedAt
    simp only [pulse]
  have last : ∀ q, w.lastInPulse q t = s.lastInPulse q t := fun q => by
    unfold State.lastInPulse
    simp only [pulse]
  unfold State.tested State.sampled State.sourceWeak
  rw [masked, last, hl]

/-- What a scan makes of a pair with a record. -/
theorem safetyScan_scanned {s : State} {t : Nat} {rd : ScanReadings} {k : Fin 16} {r : SafRec} (h1 : s.scanAt t = true) (h2 : rd.agree = true)
    (hr : s.safRec 1 k.val = some r) {P : SiPair → Prop}
    (hp : P (scannedPair r ((s.arrive t).calSeconds % 2 ^ 32) s.saf.si[k] (s.tested t r false (rd.a.getD k.val false) s.saf.si[k].a)
      (s.tested t r true (rd.b.getD k.val false) s.saf.si[k].b))) :
    Completes (.safetyScan t rd) s fun u => u.saf.lastScan = t ∧ P u.saf.si[k] := by
  refine Completes.of (u := doSafetyScan t rd s) rfl (safetyScan_pair s t rd k h1 h2 P fun w own records limits pwr _ cal => ?_)
  have hr' : w.safRec 1 k.val = some r := by
    rw [← hr]
    unfold State.safRec
    rw [records]
  rw [State.scanPair_pair w t k _ _ hr', own, cal, State.tested_same records limits pwr, State.tested_same records limits pwr]
  exact hp

/-! ## A channel at a scan -/

section
variable (s : State) (t : Nat) (r : SafRec) (chanB v : Bool) (c : SiChan)

theorem sampleChan_kept (n t : Nat) (v : Bool) (c : SiChan) : (sampleChan n t v c).armed = c.armed ∧ (sampleChan n t v c).passed = c.passed := by
  unfold sampleChan
  dsimp only
  constructor <;> (repeat' split) <;> rfl

theorem State.sampled_kept : (s.sampled t r chanB v c).armed = c.armed ∧ (s.sampled t r chanB v c).passed = c.passed := by
  unfold State.sampled
  split
  · exact ⟨rfl, rfl⟩
  · exact sampleChan_kept ..

theorem State.tested_fails : (s.tested t r chanB v c).2 =
    (s.lastInPulse (sourceOf r chanB) t && (s.sourceWeak r chanB || c.armed && v)) := by
  unfold State.tested testChan
  rw [(s.sampled_kept t r chanB v c).1]
  cases s.lastInPulse (sourceOf r chanB) t <;> cases s.sourceWeak r chanB <;> cases c.armed <;> rfl

/-- The test changes neither the level nor its stamp. -/
theorem State.tested_level : (s.tested t r chanB v c).1.level = (s.sampled t r chanB v c).level ∧
    (s.tested t r chanB v c).1.stamp = (s.sampled t r chanB v c).stamp := by
  unfold State.tested testChan
  constructor <;> (repeat' split) <;> rfl

/-- A passed test counts (R300). -/
theorem State.tested_passed (h : (s.tested t r chanB v c).2 = false) : (s.tested t r chanB v c).1.passed =
    if s.lastInPulse (sourceOf r chanB) t && c.armed then c.passed + 1 else c.passed := by
  rw [State.tested_fails] at h
  have kept := (s.sampled_kept t r chanB v c)
  unfold State.tested testChan
  rw [kept.1, kept.2]
  cases he : s.lastInPulse (sourceOf r chanB) t <;> cases hw : s.sourceWeak r chanB <;> cases ha : c.armed <;> simp_all

theorem State.tested_none (h : s.lastInPulse (sourceOf r chanB) t = false) : s.tested t r chanB v c = (s.sampled t r chanB v c, false) := by
  unfold State.tested
  rw [h]
  rfl

end

/-! ## The table of R302 -/

section
variable {r : SafRec} {now : Nat} {p : SiPair}

theorem scannedPair_fails {ca cb : SiChan × Bool} (h : (ca.2 || cb.2) = true) : (scannedPair r now p ca cb).st = .faultTest := by
  have fails : ∀ q : SiPair, (if q.st = .faultTest then q else goPair .faultTest q.st q).st = .faultTest := fun q => by
    split
    · assumption
    · rfl
  unfold scannedPair
  rw [h]
  split
  · exact fails _
  · exact fails _

/-- A feedback pair without a test result: its report and since when its channels disagree (R306). -/
theorem scannedPair_feedback {x y : SiChan} (hT : siType r = 2) :
    let q := scannedPair r now p (x, false) (y, false)
    q.a = x ∧ q.b = y ∧ q.demands = p.demands ∧ (p.st ≠ .faultTest → q.st = p.st) ∧
    (x.level = true → y.level = true → q.report = 8 ∧ q.mismatch = false) ∧
    (x.level = false → y.level = false → q.report = 9 ∧ q.mismatch = false) ∧
    (x.level ≠ y.level → q.report = p.report ∧ q.mismatch = p.mismatch ∧ q.apart = some (p.apart.getD (max x.stamp y.stamp))) := by
  have tested : ∀ z : SiPair, (testFeedbackPair false z).a = z.a ∧ (testFeedbackPair false z).b = z.b ∧
      (testFeedbackPair false z).demands = z.demands ∧ (z.st ≠ .faultTest → (testFeedbackPair false z).st = z.st) ∧
      (testFeedbackPair false z).report = z.report ∧ (testFeedbackPair false z).mismatch = z.mismatch ∧
      (testFeedbackPair false z).apart = z.apart := fun z => by
    unfold testFeedbackPair
    rw [if_neg Bool.false_ne_true]
    split
    · next h =>
      simp only [Bool.and_eq_true, beq_iff_eq] at h
      simp [goPair, h.1]
    · exact ⟨rfl, rfl, rfl, fun _ => rfl, rfl, rfl, rfl⟩
  unfold scannedPair
  rw [if_pos hT]
  obtain ⟨ha, hb, hd, hst, hr, hm, hp⟩ := tested (feedbackPair { p with a := x, b := y })
  simp only [Bool.or_false, ha, hb, hd, hr, hm, hp]
  refine ⟨rfl, rfl, rfl, hst, fun hx hy => ?_, fun hx hy => ?_, fun hne => ?_⟩
  · simp [feedbackPair, fbOpen, hx, hy]
  · simp [feedbackPair, fbOpen, fbClosed, hx, hy]
  · cases hx : x.level <;> cases hy : y.level <;> simp [hx, hy] at hne <;> cases p.apart <;> simp [feedbackPair, fbOpen, fbClosed, hx, hy]

/-! A pair of TYPE 0 or 1 at a scan that fails no test. -/

section
variable {ca cb : SiChan × Bool} (hT : siType r ≠ 2) (hf : (ca.2 || cb.2) = false)
include hT hf

theorem scannedPair_passes : scannedPair r now p ca cb = testPair r false (changesPair r now p { p with a := ca.1, b := cb.1 }) := by
  unfold scannedPair
  rw [if_neg hT, hf]

/-- In FAULT_TEST the levels move nothing (R302). -/
theorem scannedPair_faultTest (hp : p.st = .faultTest) :
    scannedPair r now p ca cb = testPair r false { p with a := ca.1, b := cb.1 } := by
  have stays : ∀ dA dB t (q : SiPair), q.st = .faultTest → stepPair r now dA dB t q = q := fun dA dB t q h => by
    unfold stepPair
    simp only [h]
  rw [scannedPair_passes hT hf]
  congr 1
  unfold changesPair
  dsimp only
  have stepped := fun dA dB t => stays dA dB t { p with a := ca.1, b := cb.1 } hp
  simp only [stepped, ite_self]

theorem scannedPair_tested (hp : p.st = .faultTest) (ha : demandA ca.1.level = false) (hb : demandB r cb.1.level = false)
    (h1 : 2 ≤ ca.1.passed) (h2 : 2 ≤ cb.1.passed) :
    (scannedPair r now p ca cb).st = .waitReset ∧ (scannedPair r now p ca cb).a.passed = 0 ∧ (scannedPair r now p ca cb).b.passed = 0 := by
  rw [scannedPair_faultTest hT hf hp]
  simp [testPair, inDemand, ha, hb, hp, h1, h2, goPair]

theorem scannedPair_untested (hp : p.st = .faultTest) (h : ca.1.passed < 2 ∨ demandA ca.1.level = true ∨ demandB r cb.1.level = true) :
    (scannedPair r now p ca cb).st = .faultTest := by
  rw [scannedPair_faultTest hT hf hp]
  rcases h with h | h | h
  · simp [testPair, Nat.not_le.mpr h, hp]
  · simp [testPair, inDemand, h, hp]
  · simp [testPair, inDemand, h, hp]

variable (wa : demandA p.a.level = false) (wb : demandB r p.b.level = false) (ia : demandA ca.1.level = false) (ib : demandB r cb.1.level = false)
include wa wb ia ib

/-- A pair at rest without a demand has only the results of its tests. -/
theorem scannedPair_rests (hp : p.st = .idle ∨ p.st = .waitReset) :
    scannedPair r now p ca cb = testPair r false { p with a := ca.1, b := cb.1 } := by
  rw [scannedPair_passes hT hf]
  congr 1
  rcases hp with hp | hp <;> simp [changesPair, wa, wb, ia, ib, stepPair, hp]

theorem scannedPair_resets (hp : p.st = .waitReset) (hm : siManual r = false) (h1 : 1 ≤ ca.1.passed) (h2 : 1 ≤ cb.1.passed) :
    (scannedPair r now p ca cb).st = .idle := by
  rw [scannedPair_rests hT hf wa wb ia ib (.inr hp)]
  simp [testPair, inDemand, ia, ib, hp, hm, h1, h2, goPair]

theorem scannedPair_waits (hp : p.st = .waitReset) (hm : siManual r = true) : (scannedPair r now p ca cb).st = .waitReset := by
  rw [scannedPair_rests hT hf wa wb ia ib (.inr hp)]
  simp [testPair, inDemand, ia, ib, hp, hm]

end

/-! The changes of the levels at a scan that ends no pulse. -/

section
variable {x y : SiChan} (hT : siType r ≠ 2)
include hT

/-- A pair that a step brings to a state with a demand stays as the step leaves it. -/
theorem scannedPair_demands {q : SiPair} (h : changesPair r now p { p with a := x, b := y } = q)
    (hd : demandA q.a.level = true ∨ demandB r q.b.level = true) : scannedPair r now p (x, false) (y, false) = q := by
  rw [scannedPair_passes hT rfl, h]
  rcases hd with hd | hd <;> simp [testPair, inDemand, hd]

/-- A pair that a step releases stays released: in IDLE, or in WAIT_RESET until the manual reset. -/
theorem scannedPair_released {q : SiPair} (h : changesPair r now p { p with a := x, b := y } = q) (hq : q.st = releaseSt r) :
    scannedPair r now p (x, false) (y, false) = q := by
  rw [scannedPair_passes hT rfl, h]
  cases hm : siManual r <;> simp [testPair, hq, releaseSt, hm]

section
variable (hp : p.st = .idle ∨ p.st = .waitReset) (wa : demandA p.a.level = false) (wb : demandB r p.b.level = false)
include hp wa wb

theorem scannedPair_demand (ia : demandA x.level = true) (ib : demandB r y.level = true) (h1 : x.stamp ≤ y.stamp + siDisc r)
    (h2 : y.stamp ≤ x.stamp + siDisc r) : (scannedPair r now p (x, false) (y, false)).st = .demand ∧
      (scannedPair r now p (x, false) (y, false)).demands = satInc 16 p.demands := by
  have step : ∃ q, changesPair r now p { p with a := x, b := y } = q ∧ q.a = x ∧ q.st = .demand ∧ q.demands = satInc 16 p.demands := by
    refine ⟨_, rfl, ?_⟩
    unfold changesPair
    simp only [wa, wb, ia, ib]
    rcases Nat.lt_trichotomy x.stamp y.stamp with h | h | h
    · rcases hp with hp | hp <;> simp [stepPair, hp, goPair, h, h2, Nat.ne_of_lt]
    · rcases hp with hp | hp <;> simp [stepPair, hp, goPair, h]
    · rcases hp with hp | hp <;> simp [stepPair, hp, goPair, h1, Nat.ne_of_gt h, Nat.not_lt.mpr (Nat.le_of_lt h)]
  obtain ⟨q, e, ha, hst, hd⟩ := step
  rw [scannedPair_demands hT e (.inl (by rw [ha]; exact ia))]
  exact ⟨hst, hd⟩

theorem scannedPair_partialA (ia : demandA x.level = true) (ib : demandB r y.level = false) :
    (scannedPair r now p (x, false) (y, false)).st = .partialDemand ∧ (scannedPair r now p (x, false) (y, false)).deadline = x.stamp + siDisc r ∧
    (scannedPair r now p (x, false) (y, false)).demands = satInc 16 p.demands := by
  have step : changesPair r now p { p with a := x, b := y } =
      goPair .partialDemand p.st { p with a := x, b := y, deadline := x.stamp + siDisc r, firstA := true } := by
    rcases hp with hp | hp <;> simp [changesPair, wa, wb, ia, ib, stepPair, hp]
  rw [scannedPair_demands hT step (.inl ia)]
  rcases hp with hp | hp <;> simp [goPair, hp]

theorem scannedPair_partialB (ia : demandA x.level = false) (ib : demandB r y.level = true) :
    (scannedPair r now p (x, false) (y, false)).st = .partialDemand ∧ (scannedPair r now p (x, false) (y, false)).deadline = y.stamp + siDisc r ∧
    (scannedPair r now p (x, false) (y, false)).demands = satInc 16 p.demands := by
  have step : changesPair r now p { p with a := x, b := y } =
      goPair .partialDemand p.st { p with a := x, b := y, deadline := y.stamp + siDisc r, firstA := false } := by
    rcases hp with hp | hp <;> simp [changesPair, wa, wb, ia, ib, stepPair, hp]
  rw [scannedPair_demands hT step (.inr ib)]
  rcases hp with hp | hp <;> simp [goPair, hp]

end

theorem scannedPair_idle (hp : p.st = .idle) (wa : demandA p.a.level = false) (wb : demandB r p.b.level = false) (ia : demandA x.level = false)
    (ib : demandB r y.level = false) : (scannedPair r now p (x, false) (y, false)).st = .idle ∧
      (scannedPair r now p (x, false) (y, false)).demands = p.demands := by
  rw [scannedPair_rests hT rfl wa wb ia ib (.inl hp)]
  simp [testPair, hp]

/-- The other channel joins the demand, at `d`. -/
theorem scannedPair_joins {d : Nat} (w : ((demandA p.a.level = true ∧ demandB r p.b.level = false) ∧ d = y.stamp) ∨
    ((demandA p.a.level = false ∧ demandB r p.b.level = true) ∧ d = x.stamp)) (ia : demandA x.level = true) (ib : demandB r y.level = true) :
    scannedPair r now p (x, false) (y, false) = testPair r false (stepPair r now true true d { p with a := x, b := y }) := by
  rw [scannedPair_passes hT rfl]
  congr 1
  rcases w with ⟨⟨wa, wb⟩, rfl⟩ | ⟨⟨wa, wb⟩, rfl⟩ <;> simp [changesPair, wa, wb, ia, ib]

section
variable {d : Nat} (w : ((demandA p.a.level = true ∧ demandB r p.b.level = false) ∧ d = y.stamp) ∨
  ((demandA p.a.level = false ∧ demandB r p.b.level = true) ∧ d = x.stamp)) (ia : demandA x.level = true) (ib : demandB r y.level = true)
include w ia ib

theorem scannedPair_inTime (hp : p.st = .partialDemand ∨ p.st = .returning) (hd : d ≤ p.deadline) :
    (scannedPair r now p (x, false) (y, false)).st = .demand := by
  rw [scannedPair_joins hT w ia ib]
  rcases hp with hp | hp <;> simp [stepPair, hp, hd, Nat.not_lt.mpr hd, testPair, inDemand, goPair, ia]

theorem scannedPair_late (hp : p.st = .partialDemand) (hd : p.deadline < d) :
    (scannedPair r now p (x, false) (y, false)).st = .faultDisc ∧ (scannedPair r now p (x, false) (y, false)).faults = satInc 8 p.faults := by
  rw [scannedPair_joins hT w ia ib]
  simp [stepPair, hp, Nat.not_le.mpr hd, testPair, inDemand, goPair, ia]

theorem scannedPair_faultBoth (hp : p.st = .faultDisc) : (scannedPair r now p (x, false) (y, false)).st = .faultBoth := by
  rw [scannedPair_joins hT w ia ib]
  simp [stepPair, hp, testPair, inDemand, goPair, ia]

end

omit hT in
/-- The channel in demand returns, at `d`. -/
theorem changesPair_returns {d : Nat} (w : ((demandA p.a.level = true ∧ demandB r p.b.level = false) ∧ d = x.stamp) ∨
    ((demandA p.a.level = false ∧ demandB r p.b.level = true) ∧ d = y.stamp)) (ia : demandA x.level = false) (ib : demandB r y.level = false) :
    changesPair r now p { p with a := x, b := y } = stepPair r now false false d { p with a := x, b := y } := by
  rcases w with ⟨⟨wa, wb⟩, rfl⟩ | ⟨⟨wa, wb⟩, rfl⟩ <;> simp [changesPair, wa, wb, ia, ib]

section
variable {d : Nat} (w : ((demandA p.a.level = true ∧ demandB r p.b.level = false) ∧ d = x.stamp) ∨
  ((demandA p.a.level = false ∧ demandB r p.b.level = true) ∧ d = y.stamp)) (ia : demandA x.level = false) (ib : demandB r y.level = false)
  (hd : d ≤ p.deadline)
include w ia ib hd

theorem scannedPair_blip (hp : p.st = .partialDemand) : (scannedPair r now p (x, false) (y, false)).st = releaseSt r ∧
    (scannedPair r now p (x, false) (y, false)).blips = satInc 8 p.blips := by
  have step : changesPair r now p { p with a := x, b := y } =
      goPair (releaseSt r) p.st { p with a := x, b := y, blips := satInc 8 p.blips } :=
    (changesPair_returns w ia ib).trans (by simp [stepPair, hp, hd])
  rw [scannedPair_released hT step rfl]
  exact ⟨rfl, rfl⟩

theorem scannedPair_proves (hp : p.st = .returning) : (scannedPair r now p (x, false) (y, false)).st = releaseSt r ∧
    (scannedPair r now p (x, false) (y, false)).proof = now := by
  have step : changesPair r now p { p with a := x, b := y } =
      goPair (releaseSt r) p.st { p with a := x, b := y, proof := now, proofDue := false } :=
    (changesPair_returns w ia ib).trans (by simp [stepPair, hp, Nat.not_lt.mpr hd])
  rw [scannedPair_released hT step rfl]
  exact ⟨rfl, rfl⟩

end

section
variable (wa : demandA p.a.level = true) (wb : demandB r p.b.level = true)
include wa wb

theorem scannedPair_returningB (hp : p.st = .demand) (ia : demandA x.level = true) (ib : demandB r y.level = false) :
    (scannedPair r now p (x, false) (y, false)).st = .returning ∧ (scannedPair r now p (x, false) (y, false)).deadline = y.stamp + siDisc r := by
  have step : changesPair r now p { p with a := x, b := y } =
      goPair .returning p.st { p with a := x, b := y, deadline := y.stamp + siDisc r, firstA := false } := by
    simp [changesPair, wa, wb, ia, ib, stepPair, hp]
  rw [scannedPair_demands hT step (.inl ia)]
  exact ⟨rfl, rfl⟩

theorem scannedPair_returningA (hp : p.st = .demand) (ia : demandA x.level = false) (ib : demandB r y.level = true) :
    (scannedPair r now p (x, false) (y, false)).st = .returning ∧ (scannedPair r now p (x, false) (y, false)).deadline = x.stamp + siDisc r := by
  have step : changesPair r now p { p with a := x, b := y } =
      goPair .returning p.st { p with a := x, b := y, deadline := x.stamp + siDisc r, firstA := true } := by
    simp [changesPair, wa, wb, ia, ib, stepPair, hp]
  rw [scannedPair_demands hT step (.inr ib)]
  exact ⟨rfl, rfl⟩

theorem scannedPair_returned (hp : p.st = .demand) (ia : demandA x.level = false) (ib : demandB r y.level = false) (he : x.stamp = y.stamp) :
    (scannedPair r now p (x, false) (y, false)).st = releaseSt r ∧ (scannedPair r now p (x, false) (y, false)).proof = now ∧
    (scannedPair r now p (x, false) (y, false)).blips = p.blips := by
  have step : changesPair r now p { p with a := x, b := y } =
      goPair (releaseSt r) p.st { p with a := x, b := y, proof := now, proofDue := false } := by
    simp [changesPair, wa, wb, ia, ib, stepPair, hp, he]
  rw [scannedPair_released hT step rfl]
  exact ⟨rfl, rfl, rfl⟩

/-- Both channels of a pair in FAULT_BOTH have returned within the discrepancy time (R302). -/
theorem scannedPair_recovers (hp : p.st = .faultBoth) (ia : demandA x.level = false) (ib : demandB r y.level = false)
    (h1 : x.stamp ≤ y.stamp + siDisc r) (h2 : y.stamp ≤ x.stamp + siDisc r) :
    (scannedPair r now p (x, false) (y, false)).st = releaseSt r := by
  have near : (if x.stamp ≤ y.stamp then y.stamp - x.stamp else x.stamp - y.stamp) ≤ siDisc r := by split <;> omega
  have back : ∀ t, stepPair r now false false t { p with a := x, b := y } = goPair (releaseSt r) p.st { p with a := x, b := y } := fun t => by
    simp only [stepPair, hp, Bool.or_self, Bool.false_eq_true, ↓reduceIte]
    exact if_pos near
  have stays : ∀ dA dB t, (dA || dB) = true → stepPair r now dA dB t { p with a := x, b := y } = { p with a := x, b := y } := fun dA dB t h => by
    simp only [stepPair, hp, h, ↓reduceIte]
  have step : changesPair r now p { p with a := x, b := y } = goPair (releaseSt r) p.st { p with a := x, b := y } := by
    simp [changesPair, wa, wb, ia, ib, back, stays]
  rw [scannedPair_released hT step rfl]
  rfl

end
end
end

/-- Settles O32: the table of R302 read off `scannedPair`, to which a scan brings the pair. -/
theorem safetyScanPair : Obligations.SafetyScanPair := by
  unfold Obligations.SafetyScanPair
  intro s t rd k r h1 h2 hr p a b x y endsA endsB weak fails passed was is release scan
  have take : ∀ P : SiPair → Prop, P (scannedPair r ((s.arrive t).calSeconds % 2 ^ 32) p (s.tested t r false a p.a) (s.tested t r true b p.b)) →
      scan P := fun P hp => safetyScan_scanned h1 h2 hr hp
  clear_value scan
  have failsA := s.tested_fails t r false a p.a
  have failsB := s.tested_fails t r true b p.b
  have levelA := s.tested_level t r false a p.a
  have levelB := s.tested_level t r true b p.b
  have passedA := s.tested_passed t r false a p.a
  have passedB := s.tested_passed t r true b p.b
  have quietA := s.tested_none t r false a p.a
  have quietB := s.tested_none t r true b p.b
  have failing : ((s.tested t r false a p.a).2 || (s.tested t r true b p.b).2) = fails := by rw [failsA, failsB]; rfl
  have isA : demandA (s.tested t r false a p.a).1.level = demandA x.level := congrArg demandA levelA.1
  have isB : demandB r (s.tested t r true b p.b).1.level = demandB r y.level := congrArg (demandB r) levelB.1
  refine ⟨fun hf => take _ (scannedPair_fails (failing.trans hf)), fun hT hA hB => ?_, fun hT hf => ?_, fun hT hA hB => ?_⟩
  · refine take _ ?_
    rw [quietA hA, quietB hB]
    exact scannedPair_feedback hT
  · have none_ := failing.trans hf
    obtain ⟨noA, noB⟩ := Bool.or_eq_false_iff.1 none_
    refine ⟨fun hp i ha hb => ?_, fun hp h => ?_, fun hp hm w i ha hb => ?_, fun hp hm w i => ?_⟩
    · exact take _ (scannedPair_tested hT none_ hp (isA.trans i.1) (isB.trans i.2) (Nat.le_trans ha (Nat.le_of_eq (passedA noA).symm))
        (Nat.le_trans hb (Nat.le_of_eq (passedB noB).symm)))
    · refine take _ (scannedPair_untested hT none_ hp ?_)
      rcases h with h | ⟨h, _⟩ | ⟨_, h⟩ | ⟨h, _⟩
      · exact .inl (Nat.lt_of_le_of_lt (Nat.le_of_eq (passedA noA)) h)
      · exact .inr (.inl (isA.trans h))
      · exact .inr (.inr (isB.trans h))
      · exact .inr (.inl (isA.trans h))
    · exact take _ (scannedPair_resets hT none_ w.1 w.2 (isA.trans i.1) (isB.trans i.2) hp hm (Nat.le_trans ha (Nat.le_of_eq (passedA noA).symm))
        (Nat.le_trans hb (Nat.le_of_eq (passedB noB).symm)))
    · exact take _ (scannedPair_waits hT none_ w.1 w.2 (isA.trans i.1) (isB.trans i.2) hp hm)
  · rw [quietA hA, quietB hB] at take
    refine ⟨fun hp w => ⟨fun i h1 h2 => ?_, fun i => ?_, fun i => ?_⟩, fun hp w i => ?_, fun d w i => ⟨fun hp hd => ?_, fun hp hd => ?_, fun hp hd =>
        ?_,
      fun hp => ?_⟩, fun d w i hd => ⟨fun hp => ?_, fun hp => ?_⟩, fun w => ⟨fun hp i => ?_, fun hp i => ?_, fun hp i he => ?_, fun hp i h1 h2 => ?_⟩⟩
    · exact take _ (scannedPair_demand hT hp w.1 w.2 i.1 i.2 h1 h2)
    · exact take _ (scannedPair_partialA hT hp w.1 w.2 i.1 i.2)
    · exact take _ (scannedPair_partialB hT hp w.1 w.2 i.1 i.2)
    · exact take _ (scannedPair_idle hT hp w.1 w.2 i.1 i.2)
    · exact take _ (scannedPair_inTime hT w i.1 i.2 (.inl hp) hd)
    · exact take _ (scannedPair_late hT w i.1 i.2 hp hd)
    · exact take _ (scannedPair_inTime hT w i.1 i.2 (.inr hp) hd)
    · exact take _ (scannedPair_faultBoth hT w i.1 i.2 hp)
    · exact take _ (scannedPair_blip hT w i.1 i.2 hd hp)
    · exact take _ (scannedPair_proves hT w i.1 i.2 hd hp)
    · exact take _ (scannedPair_returningB hT w.1 w.2 hp i.1 i.2)
    · exact take _ (scannedPair_returningA hT w.1 w.2 hp i.1 i.2)
    · exact take _ (scannedPair_returned hT w.1 w.2 hp i.1 i.2 he)
    · exact take _ (scannedPair_recovers hT w.1 w.2 hp i.1 i.2 h1 h2)

end Sys2Proof.Machine
end

section
/-! PROOFS. What the safety controller finds between two scans (R299, R302, R303, R306, R309, R310, R327). -/
namespace Sys2Proof.Machine

/-- A command that acts whenever the pairs are scanned, in a module that runs. -/
theorem Completes.scanning {c : Instr} {s : State} {t : Nat} {f : State → State} {P : State → Prop} (hl : s.live = true)
    (e : exec c s = .next (whenScanning t f s)) (hp : P (f (s.arrive t))) : Completes c s P :=
  ⟨_, e, by rw [whenScanning_live hl]; exact hp⟩

/-! ## SI pairs -/

theorem SiStep.pulses {k : Fin 16} {s u : State} (h : SiStep k s u) : u.saf.pulseAt = s.saf.pulseAt := by
  have e := congrArg SafetyBlock.pulseAt h.2.1
  exact e

section
variable {s : State} {t : Nat} {k : Fin 16} {r : SafRec} (hl : s.live = true) (hr : s.safRec 1 k.val = some r)
include hl hr

section
variable (hT : siType r ≠ 2)
include hT

theorem discrepancyTimeout_faults (hst : s.saf.si[k].st = .partialDemand ∨ s.saf.si[k].st = .returning) (hd : s.saf.si[k].deadline < t)
    (hp : pairPending s.saf.si[k] s.saf.si[k].deadline = false) : Completes (.discrepancyTimeout t k) s fun u =>
      u.saf.si[k].st = .faultDisc ∧ u.saf.si[k].faults = satInc 8 s.saf.si[k].faults := by
  have hr' : (s.arrive t).safRec 1 k.val = some r := hr
  refine Completes.scanning hl rfl ?_
  rcases hst with hst | hst <;> simp [-Fin.getElem_fin, hr', hT, hst, is_expired hd, hp, State.goSi_pair, goPair]

omit hT in
theorem discrepancyTimeout_waits (hd : t ≤ s.saf.si[k].deadline) : Completes (.discrepancyTimeout t k) s fun u => u.saf = s.saf := by
  have hr' : (s.arrive t).safRec 1 k.val = some r := hr
  refine Completes.scanning hl rfl ?_
  simp [-Fin.getElem_fin, hr', not_expired hd]

theorem proofDue_due (hv : s.rtc.valid = true) (hp : s.saf.si[k].proof + 31536000 < (s.arrive t).calSeconds) :
    Completes (.proofDue t k) s fun u => u.saf.si[k].proofDue = true := by
  have hr' : (s.arrive t).safRec 1 k.val = some r := hr
  have old : (s.arrive t).proofOld k = true := by simp [-Fin.getElem_fin, State.proofOld, hv, hp]
  refine Completes.live hl rfl ?_
  cases h : s.saf.si[k].proofDue <;> simp [-Fin.getElem_fin, hr', hT, old, h]

end

/-- What a pulse of a source does to the pair `j` (R299, R300). -/
def armPair (src : Nat) (j : Fin 16) (s : State) : State :=
  match s.safRec 1 j.val with
  | some x =>
    let s := if sourceOf x false = some src then s.setSi j fun p => { p with a := armChan (siType x != 2 && demandA p.a.level) p.a } else s
    if sourceOf x true = some src then s.setSi j fun p => { p with b := armChan (siType x != 2 && demandB x p.b.level) p.b } else s
  | none => s

omit hl hr in
theorem armPair_step (src : Nat) (j : Fin 16) (s : State) : SiStep j s (armPair src j s) := by
  unfold armPair
  dsimp only
  split
  · split
    · split
      · exact (SiStep.setSi ..).trans (SiStep.setSi ..)
      · exact SiStep.setSi ..
    · split
      · exact SiStep.setSi ..
      · exact SiStep.refl ..
  · exact SiStep.refl ..

omit hl in
theorem armPair_arms {src : Nat} : (sourceOf r false = some src → (armPair src k s).saf.si[k].a.armed = s.saf.si[k].a.cand) ∧
    (sourceOf r true = some src → (armPair src k s).saf.si[k].b.armed = s.saf.si[k].b.cand) := by
  constructor
  · intro h
    by_cases h' : sourceOf r true = some src <;> simp [-Fin.getElem_fin, armPair, hr, h, h', armChan]
  · intro h
    by_cases h' : sourceOf r false = some src <;> simp [-Fin.getElem_fin, armPair, hr, h, h', armChan]

theorem testPulse_arms {src : Fin 4} {q : SafRec} (hq : s.pulseRec src.val = some q) (ht : pulseStarts src.val q t = true) :
    Completes (.testPulse t src) s fun u => u.saf.pulseAt[src] = some t ∧
      (sourceOf r false = some src.val → u.saf.si[k].a.armed = s.saf.si[k].a.cand) ∧
      (sourceOf r true = some src.val → u.saf.si[k].b.armed = s.saf.si[k].b.cand) := by
  have hq' : (s.arrive t).pulseRec src.val = some q := hq
  have pulsed : (exec (.testPulse t src) s) = .next
      (({ s.arrive t with saf := { s.saf with pulseAt := vupd s.saf.pulseAt src fun _ => some t } } : State).forAll 16 (armPair src.val)) := by
    rw [exec_live hl rfl]
    simp only [hq', ht, ↓reduceIte]
    rfl
  refine Completes.of pulsed ?_
  refine State.forAll_at (f := armPair src.val) k
    (Q := fun u => u.saf.records = s.saf.records ∧ u.saf.pulseAt[src] = some t ∧ u.saf.si[k] = s.saf.si[k])
    (R := fun u => u.saf.pulseAt[src] = some t ∧ (sourceOf r false = some src.val → u.saf.si[k].a.armed = s.saf.si[k].a.cand) ∧
      (sourceOf r true = some src.val → u.saf.si[k].b.armed = s.saf.si[k].b.cand))
    (fun j u hj hu => ?_) (fun u hu => ?_) (fun j u hj hu => ?_) _ ⟨rfl, vupd_here .., rfl⟩
  all_goals have step := fun j => armPair_step src.val j u
  all_goals have pulse : ∀ j, (armPair src.val j u).saf.pulseAt = u.saf.pulseAt := fun j => (step j).pulses
  · obtain ⟨records, at_, own⟩ := hu
    exact ⟨(step j).records.trans records, by rw [pulse]; exact at_, ((step j).1 k hj).trans own⟩
  · obtain ⟨records, at_, own⟩ := hu
    have hru : u.safRec 1 k.val = some r := by
      rw [← hr]
      unfold State.safRec
      rw [records]
    rw [pulse, ← own]
    exact ⟨at_, armPair_arms hru⟩
  · rw [pulse, (step j).1 k hj]
    exact hu

end

/-! ## SO pairs -/

/-- What FAULT leaves of a pair that was `o` (R310). -/
def soFaulted (o : SoPair) (c : Nat) (u : State) (k : Fin 16) : Prop :=
  u.saf.so[k].st = .fault ∧ u.saf.so[k].cause = c ∧ u.saf.so[k].count = satInc 16 o.count ∧ u.saf.so[k].hs = false ∧ u.saf.so[k].ls = false

theorem State.setSo_self (s : State) (k : Fin 16) (f : SoPair → SoPair) : (s.setSo k f).saf.so[k] = f s.saf.so[k] := vupd_here ..

theorem soFaulted_of {s : State} {k : Fin 16} {o : SoPair} {c : Nat} (hf : s.saf.so[k].st ≠ .fault) (ho : s.saf.so[k].count = o.count) :
    soFaulted o c (s.soFault k c) k := by
  obtain ⟨h1, h2, h3, h4, h5⟩ := soFault_self s k c hf
  exact ⟨h1, h2, h3.trans (by rw [ho]), h4, h5⟩

section
variable {s : State} {t : Nat} {k : Fin 16} {r : SafRec} (hl : s.live = true) (hr : s.safRec 2 k.val = some r) (hf : s.saf.so[k].st ≠ .fault)

section
variable (h5 : r.flags.testBit 5 = true) (hh : s.saf.so[k].hs = true) (hL : s.saf.so[k].ls = true)
include hl hr h5 hh hL

theorem switchTest_waits {low : Bool} (hd : testDue r s.saf.so[k] t low = false) (c : Bool) :
    Completes (.switchTest t k low c) s fun u => u.saf = s.saf := by
  have hr' : (s.arrive t).safRec 2 k.val = some r := hr
  refine Completes.live hl rfl ?_
  simp [-Fin.getElem_fin, hr', h5, soOn, hh, hL, hd]

theorem switchTest_passes {low : Bool} (hd : testDue r s.saf.so[k] t low = true) : Completes (.switchTest t k low false) s fun u =>
    u.saf.so[k].st = s.saf.so[k].st ∧ u.saf.so[k].hs = true ∧ u.saf.so[k].ls = true ∧ u.saf.so[k].testing = some (low, t + 300000) := by
  have hr' : (s.arrive t).safRec 2 k.val = some r := hr
  refine Completes.live hl rfl ?_
  simp [-Fin.getElem_fin, hr', h5, soOn, hh, hL, hd, State.setSo_self]

include hf in
theorem switchTest_fails {low : Bool} (hd : testDue r s.saf.so[k] t low = true) : Completes (.switchTest t k low true) s fun u =>
    soFaulted s.saf.so[k] (if low then 2 else 1) u k := by
  have hr' : (s.arrive t).safRec 2 k.val = some r := hr
  refine Completes.live hl rfl ?_
  simp only [hr', State.arrive_saf, h5, soOn, hh, hL, hd, Bool.and_self, ↓reduceIte]
  exact soFaulted_of (by rw [State.setSo_self]; exact hf) (by rw [State.setSo_self]; rfl)

end

theorem testDue_first {o : SoPair} (h : o.testAt = none) : testDue r o t false = true ∧ testDue r o t true = false := by
  simp [testDue, h]

theorem testDue_iff {o : SoPair} {q : Nat} (h : o.testAt = some q) :
    (testDue r o t false = true ↔ q ≤ t ∧ (t - q) % (r.paramB * 1000000) = 0) ∧
    (testDue r o t true = true ↔ q ≤ t ∧ (t - q) % (r.paramB * 1000000) = r.paramB * 500000) := by
  simp [testDue, h]

section
variable {mA d : Nat}
include hl hr

theorem soCurrentFault_taken (h1 : 20 ≤ mA) (h2 : mA ≤ 2000) : Completes (.soCurrentFault t k mA d) s fun u =>
    u.saf.so[k] = { s.saf.so[k] with current := mA } := by
  have hr' : (s.arrive t).safRec 2 k.val = some r := hr
  refine Completes.live hl rfl ?_
  simp [-Fin.getElem_fin, hr', State.setSo_self, show ¬ 4000 < mA by omega, show ¬ 2000 < mA by omega, show ¬ mA < 20 by omega]

include hf

/-- The causes of a current that is read, in their order. -/
theorem soCurrentFault_faults {c : Nat} (h : 4000 < mA ∧ c = 4 ∨ (2000 < mA ∧ mA ≤ 4000 ∧ ms 10 < d) ∧ c = 3 ∨
    (mA < 20 ∧ ms 100 ≤ d ∧ s.saf.so[k].hs = true ∧ s.saf.so[k].ls = true) ∧ c = 5) :
    Completes (.soCurrentFault t k mA d) s fun u => soFaulted s.saf.so[k] c u k := by
  have hr' : (s.arrive t).safRec 2 k.val = some r := hr
  have faults : ∀ c, soFaulted s.saf.so[k] c (((s.arrive t).setSo k fun p => { p with current := mA }).soFault k c) k := fun c =>
    soFaulted_of (by rw [State.setSo_self]; exact hf) (by rw [State.setSo_self]; rfl)
  refine Completes.live hl rfl ?_
  simp only [hr', Option.isNone_some, Bool.false_eq_true, ↓reduceIte]
  rcases h with ⟨h, rfl⟩ | ⟨⟨h1, h2, h3⟩, rfl⟩ | ⟨⟨h1, h2, h3, h4⟩, rfl⟩
  · rw [if_pos h]
    exact faults 4
  · rw [if_neg (by omega), if_pos ⟨h1, h3⟩]
    exact faults 3
  · rw [if_neg (by omega), if_neg (by omega), if_pos ⟨h1, h2, by rw [State.setSo_self]; simp [soOn, -Fin.getElem_fin, h3, h4]⟩]
    exact faults 5

end
end

/-! ## Feedback pairs -/

/-- Every pair that a feedback pair stands for enters FAULT, each once (R310). -/
theorem faultPairs_faults {f k : Fin 16} {x : SafRec} {o : SoPair} (hx : fbOf x = some f) (l : List (Fin 16 × SafRec)) (hm : (k, x) ∈ l) (w : State)
    (hf : w.saf.so[k].st ≠ .fault) (ho : w.saf.so[k].count = o.count) :
    soFaulted o 6 (l.foldl (fun s x => if fbOf x.2 = some f then s.soFault x.1 6 else s) w) k := by
  have again : ∀ (y : Fin 16 × SafRec) (u : State), soFaulted o 6 u k → soFaulted o 6 (if fbOf y.2 = some f then u.soFault y.1 6 else u) k :=
    fun y u hu => by
      split
      · by_cases e : y.1 = k
        · have same : u.soFault y.1 6 = u := by
            unfold State.soFault
            rw [if_pos (by rw [e]; exact hu.1)]
          rwa [same]
        · unfold soFaulted
          rw [soFault_other u y.1 k 6 e]
          exact hu
      · exact hu
  induction l generalizing w with
  | nil => cases hm
  | cons y l ih =>
    rw [List.foldl_cons]
    by_cases e : y.1 = k ∧ fbOf y.2 = some f
    · rw [if_pos e.2, e.1]
      exact foldl_keeps (fun u => soFaulted o 6 u k) again l (soFaulted_of hf ho)
    · have rest : (k, x) ∈ l := by
        rcases List.mem_cons.1 hm with h | h
        · exact absurd ⟨by rw [← h], by rw [← h]; exact hx⟩ e
        · exact h
      have kept : (if fbOf y.2 = some f then w.soFault y.1 6 else w).saf.so[k] = w.saf.so[k] := by
        split
        · next hy => exact soFault_other w y.1 k 6 fun h => e ⟨h, hy⟩
        · rfl
      exact ih rest _ (by rw [kept]; exact hf) (by rw [kept]; exact ho)

theorem feedbackMismatch_faults {s : State} {t : Nat} {f k : Fin 16} {r x : SafRec} {q : Nat} (hl : s.live = true) (hr : s.safRec 1 f.val = some r)
    (hT : siType r = 2) (ha : s.saf.si[f].apart = some q) (hq : q + siDisc r < t) (hp : pairPending s.saf.si[f] (q + siDisc r) = false)
    (hm : s.saf.si[f].mismatch = false) (hk : (k, x) ∈ s.soPairs) (hx : fbOf x = some f) (hf : s.saf.so[k].st ≠ .fault) :
    Completes (.feedbackMismatch t f) s fun u => u.saf.si[f].mismatch = true ∧ soFaulted s.saf.so[k] 6 u k := by
  have hr' : (s.arrive t).safRec 1 f.val = some r := hr
  refine Completes.scanning hl rfl ?_
  simp only [hr', State.arrive_saf, ha, hT, beq_self_eq_true, is_expired hq, hp, hm, Bool.not_false, Bool.and_self, ↓reduceIte]
  generalize hw : State.bump _ 8 = w
  have si : w.saf.si[f].mismatch = true := by
    rw [← hw]
    simp [-Fin.getElem_fin]
  have so : w.saf.so = s.saf.so := by rw [← hw]; rfl
  have pairs : w.soPairs = s.soPairs := by rw [← hw]; rfl
  constructor
  · have seen : ∀ l : List (Fin 16 × SafRec), (l.foldl (fun s x => if fbOf x.2 = some f then s.soFault x.1 6 else s) w).saf.seen = w.saf.seen :=
      fun l => foldl_same (fun u => u.saf.seen) (fun u y => by
        split
        · exact State.soFault_si ..
        · rfl) l w
    have shown : ∀ v : State, v.saf.seen = w.saf.seen → v.saf.si[f].mismatch = true := fun v h => by
      have e : v.saf.si = w.saf.si := congrArg Prod.fst h
      rw [e]
      exact si
    exact shown _ (seen _)
  · rw [pairs]
    exact faultPairs_faults hx _ hk w (by simp only [so]; exact hf) (by simp only [so])

/-- Settles O33. -/
theorem safetyEvents : Obligations.SafetyEvents := by
  unfold Obligations.SafetyEvents
  intro s t k hl
  refine ⟨fun r hr hT => ⟨fun hst => ⟨discrepancyTimeout_faults hl hr hT hst, discrepancyTimeout_waits hl hr⟩, proofDue_due hl hr hT,
      fun src q => testPulse_arms hl hr⟩,
    fun r hr hf => ⟨fun h5 hh hL low => ⟨fun hd => ⟨switchTest_fails hl hr hf h5 hh hL hd, switchTest_passes hl hr h5 hh hL hd⟩,
        switchTest_waits hl hr h5 hh hL⟩, fun _ => testDue_first, fun q => testDue_iff,
      fun mA d h => soCurrentFault_faults hl hr hf (.inl ⟨h, rfl⟩),
      fun mA d h1 h2 h3 => soCurrentFault_faults hl hr hf (.inr (.inl ⟨⟨h1, h2, h3⟩, rfl⟩)),
      fun mA d h1 h2 h3 h4 => soCurrentFault_faults hl hr hf (.inr (.inr ⟨⟨h1, h2, h3, h4⟩, rfl⟩)),
      fun mA d => soCurrentFault_taken hl hr⟩,
    fun f r x q hr hT ha hq hp hm hk hx hf => feedbackMismatch_faults hl hr hT ha hq hp hm hk hx hf⟩

end Sys2Proof.Machine
end
section
/-! PROOFS. How the safe stop of a bay goes on by itself (R308, R312 to R315, R317). -/
namespace Sys2Proof.Machine

/-- The gating of a bay's stalls, and that its safe stop has gated them (R315). -/
theorem State.gateBay_gates (s : State) (b : Fin 12) : (s.gateBay b).saf.stops[b] = { s.saf.stops[b] with gated := true } ∧
    ∀ n, s.stalls[n].bay = some b → s.stalls[n].st = .assigned → GatedOff 8 n (s.gateBay b) := by
  have saf : ((s.stopStalls b).foldl (fun s n => s.fastPath n 8) s).saf = s.saf := foldl_same (fun u => u.saf) (fun u n => fastPath_saf u n 8) _ s
  constructor
  · unfold State.gateBay
    rw [State.setSs_self, saf]
  · intro n hb hn
    have mem : n ∈ s.stopStalls b := List.mem_filter.2 ⟨mem_fins n, by simp [-Fin.getElem_fin, hb]⟩
    exact foldGates (s.stopStalls b) s n 8 mem hn

theorem State.boundTiles_saf (s : State) (b : Fin 12) (t : Nat) : (s.boundTiles b t).saf = s.saf := rfl

/-- A stop that gates is taken over at once where the window now open opened no earlier than it began (R23). -/
theorem State.ssLate_gates {s : State} {b : Fin 12} (hst : s.saf.stops[b].st = .gating) (hg : s.saf.stops[b].gated = false)
    (ha : s.saf.stops[b].at_ = s.mt) : (s.ssLate b).saf.stops[b] =
      { s.saf.stops[b] with gated := s.lat.windowOpen && decide (s.mt ≤ s.lat.openAt) } := by
  have taken : s.mt ≤ s.lat.openAt → s.ssTake b s.lat.openAt = s.gateBay b := fun h => by
    simp [-Fin.getElem_fin, State.ssTake, hst, hg, ha, h]
  by_cases h : s.lat.windowOpen ∧ s.mt ≤ s.lat.openAt
  · have stops : (s.ssLate b).saf.stops = (s.gateBay b).saf.stops := by
      unfold State.ssLate
      rw [if_pos h, State.boundTiles_saf, taken h.2]
    simp only [stops]
    rw [(s.gateBay_gates b).1, h.1, decide_eq_true h.2]
    rfl
  · have same : s.ssLate b = s := if_neg h
    have none_ : (s.lat.windowOpen && decide (s.mt ≤ s.lat.openAt)) = false := by simpa using h
    rw [same, none_, ← hg]

/-- The gating of a stop touches no SO pair. -/
theorem State.ssLate_so (s : State) (b : Fin 12) : (s.ssLate b).saf.so = s.saf.so := by
  have gated : ∀ w : State, (w.gateBay b).saf.so = w.saf.so := fun w =>
    foldl_same (fun u => u.saf.so) (fun u n => congrArg SafetyBlock.so (fastPath_saf u n 8)) (w.stopStalls b) w
  have taken : ∀ t, (s.ssTake b t).saf.so = s.saf.so := fun t => by
    unfold State.ssTake
    dsimp only
    split
    · rfl
    · split
      · exact gated s
      · rfl
  unfold State.ssLate
  split
  · rw [State.boundTiles_saf]
    exact taken _
  · rfl

/-- The removal of a bay in RAMP gates it, with its outlet pairs off at once (R313). -/
theorem State.removeBay_ramp {s : State} {b : Fin 12} {g : Nat} (hst : s.saf.stops[b].st = .ramp) :
    (s.removeBay b g).saf.stops[b].st = .gating ∧ (s.removeBay b g).saf.stops[b].trigger = g ∧
    ∀ k x, (k, x) ∈ s.outletPairs b → (s.removeBay b g).saf.so[k].hs = false ∧ (s.removeBay b g).saf.so[k].ls = false := by
  unfold State.removeBay
  dsimp only
  rw [if_pos (.inl hst)]
  generalize hw : State.capFreeze _ 4 0xFF = w
  have stop : w.saf.stops[b].st = .gating ∧ w.saf.stops[b].gated = false ∧ w.saf.stops[b].trigger = g := by
    rw [← hw, State.capFreeze_saf]
    exact (by simp [-Fin.getElem_fin])
  have at_ : w.saf.stops[b].at_ = w.mt := by
    have frozen : ∀ (v : State) c n, (v.capFreeze c n).mt = v.mt := fun v c n => by
      unfold State.capFreeze
      split <;> rfl
    rw [← hw, State.capFreeze_saf, frozen]
    simp [-Fin.getElem_fin, State.setSs]
  have so : w.saf.so = (s.outletOff b).saf.so := by
    rw [← hw, State.capFreeze_saf]
    rfl
  obtain ⟨gating, gated, trigger⟩ := stop
  rw [State.ssLate_gates gating gated at_, State.ssLate_so, so]
  exact ⟨gating, trigger, fun k x h => foldOff (s.outletPairs b) s k x h⟩

section
variable {s : State} {t : Nat} {b : Fin 12} (hl : s.live = true)
include hl

section
variable (hst : s.saf.stops[b].st = .ramp)
include hst

theorem ssRampEnd_gates (ht : s.saf.stops[b].taken = true) (hn : s.saf.stops[b].n ≤ s.saf.stops[b].j) : Completes (.ssRampEnd t b) s fun u =>
    u.saf.stops[b].st = .gating ∧ u.saf.stops[b].gated = true ∧
    ∀ n, s.stalls[n].bay = some b → s.stalls[n].st = .assigned → GatedOff 8 n u := by
  refine Completes.live hl rfl ?_
  simp only [State.arrive_saf, hst, ht, hn, beq_self_eq_true, decide_true, Bool.and_self, ↓reduceIte]
  obtain ⟨stop, stalls⟩ := ((s.arrive t).ssGate b).gateBay_gates b
  rw [stop]
  exact ⟨by simp [-Fin.getElem_fin, State.ssGate], rfl, fun n => stalls n⟩

omit hst in
theorem ssRampEnd_waits (hn : s.saf.stops[b].j < s.saf.stops[b].n) : Completes (.ssRampEnd t b) s fun u => u.saf = s.saf ∧ u.stalls = s.stalls := by
  refine Completes.live hl rfl ?_
  simp [-Fin.getElem_fin, Nat.not_le.mpr hn]

theorem ssRampTimeout_gates {d : Nat} (hd : s.saf.stops[b].deadline = some d) (ht : d < t) : Completes (.ssRampTimeout t b) s fun u =>
    u.saf.stops[b].st = .gating ∧ u.saf.stops[b].gated = (s.lat.windowOpen && decide (max s.mt t ≤ s.lat.openAt)) := by
  refine Completes.live hl rfl ?_
  simp only [State.arrive_saf, hst, hd, is_expired ht, beq_self_eq_true, Bool.and_self, ↓reduceIte]
  rw [State.ssLate_gates (by simp [-Fin.getElem_fin, State.ssGate]) (by simp [-Fin.getElem_fin, State.ssGate])
    (by simp [-Fin.getElem_fin, State.ssGate, State.setSs])]
  exact ⟨by simp [-Fin.getElem_fin, State.ssGate], rfl⟩

omit hst in
theorem ssRampTimeout_waits {d : Nat} (hd : s.saf.stops[b].deadline = some d) (ht : t ≤ d) : Completes (.ssRampTimeout t b) s fun u => u.saf = s.saf
    := by
  refine Completes.live hl rfl ?_
  simp [-Fin.getElem_fin, hd, not_expired ht]

theorem envelopeSkipLimit_removes (hs : 17 ≤ s.saf.stops[b].skips) : Completes (.envelopeSkipLimit t b) s fun u =>
    u.saf.stops[b].st = .gating ∧ u.saf.stops[b].trigger = 3 ∧ ∀ k x, (k, x) ∈ s.outletPairs b → u.saf.so[k].hs = false ∧ u.saf.so[k].ls = false := by
  refine Completes.live hl rfl ?_
  simp only [State.arrive_saf, hst, hs, beq_self_eq_true, decide_true, Bool.and_self, ↓reduceIte]
  exact State.removeBay_ramp (s := s.arrive t) hst

omit hst in
theorem envelopeSkipLimit_waits (hs : s.saf.stops[b].skips < 17) : Completes (.envelopeSkipLimit t b) s fun u => u.saf = s.saf := by
  refine Completes.live hl rfl ?_
  simp [-Fin.getElem_fin, Nat.not_le.mpr hs]

end

end

/-- Site pairs off stay off as further ones de-energise, and no stop changes. -/
theorem sitePairs_off (l : List (Fin 16 × SafRec)) (w : State) : (l.foldl (fun s p => s.soOff p.1) w).saf.stops = w.saf.stops ∧
    (l.foldl (fun s p => s.soOff p.1) w).saf.escalated = w.saf.escalated :=
  foldl_keeps (fun u : State => u.saf.stops = w.saf.stops ∧ u.saf.escalated = w.saf.escalated)
    (fun y u hu => ⟨(soOff_stops u y.1).1.trans hu.1, (soOff_stops u y.1).2.trans hu.2⟩) l ⟨rfl, rfl⟩

/-- The escalation takes the site breaker, or where there is none gates every stall (R317). -/
theorem State.escalate_all (s : State) (b : Fin 12) : (s.escalate b).saf.stops[b].st = .escalated ∧ (s.escalate b).saf.escalated = true ∧
    (∀ k x, (k, x) ∈ s.sitePairs → (s.escalate b).saf.so[k].hs = false ∧ (s.escalate b).saf.so[k].ls = false) ∧
    (s.sitePairs = [] → ∀ n, s.stalls[n].st = .assigned → GatedOff 8 n (s.escalate b)) := by
  unfold State.escalate
  dsimp only
  generalize hw : State.log _ 0x0804 b.val 0 0 = w
  have saf : w.saf = { s.saf with stops := vupd s.saf.stops b fun x => { x with st := .escalated, deadline := none }, escalated := true } := by
    rw [← hw, State.log_saf]
    rfl
  have stalls : w.stalls = s.stalls := by
    rw [← hw, State.log_stalls]
    rfl
  have pairs : w.sitePairs = s.sitePairs := by
    unfold State.sitePairs State.soPairs State.safRec
    rw [saf]
  have stop : w.saf.stops[b].st = .escalated := by
    rw [saf]
    exact congrArg SafeStop.st (vupd_here ..)
  have esc : w.saf.escalated = true := by rw [saf]
  rw [pairs]
  cases h : s.sitePairs with
  | nil =>
    have all : (w.forAll 64 fun n s => s.fastPath n 8).saf = w.saf :=
      State.forAll_keeps (fun u => u.saf = w.saf) (fun n u hu => (fastPath_saf u n 8).trans hu) rfl
    rw [if_pos (by rfl)]
    rw [all]
    refine ⟨stop, esc, fun k x hk => absurd hk List.not_mem_nil, fun _ n hn => ?_⟩
    exact foldGates (fins 64) w n 8 (mem_fins n) (by rw [stalls]; exact hn)
  | cons y l =>
    rw [if_neg (by simp)]
    obtain ⟨stops, escalated⟩ := sitePairs_off (y :: l) w
    rw [stops, escalated]
    exact ⟨stop, esc, fun k x hk => foldOff (y :: l) w k x hk, fun e => absurd e (List.cons_ne_nil _ _)⟩

section
variable {s : State} {t : Nat} {b : Fin 12} {d : Nat} (hl : s.live = true) (hd : s.saf.stops[b].deadline = some d)
include hl hd

theorem escalation_escalates (hst : s.saf.stops[b].st = .opening) (ht : d < t) (hp : ∀ k ∈ s.outletFb b, pairPending s.saf.si[k] d = false) :
    Completes (.escalation t b) s fun u => u.saf.stops[b].st = .escalated ∧ u.saf.escalated = true ∧
      (∀ k x, (k, x) ∈ s.sitePairs → u.saf.so[k].hs = false ∧ u.saf.so[k].ls = false) ∧
      (s.sitePairs = [] → ∀ n, s.stalls[n].st = .assigned → GatedOff 8 n u) := by
  have none_ : ((s.arrive t).outletFb b).any (fun k => pairPending s.saf.si[k] d) = false := List.any_eq_false.2 fun k hk => by simp
      [-Fin.getElem_fin, hp k hk]
  refine Completes.live hl rfl ?_
  simp only [State.arrive_saf, hd, hst, is_expired ht, none_, beq_self_eq_true, Bool.not_false, Bool.and_self, ↓reduceIte]
  exact (s.arrive t).escalate_all b

theorem escalation_waits (ht : t ≤ d) : Completes (.escalation t b) s fun u => u.saf = s.saf := by
  refine Completes.live hl rfl ?_
  simp [-Fin.getElem_fin, hd, not_expired ht]

end

/-- Settles O34. -/
theorem safeStopProgress : Obligations.SafeStopProgress := by
  unfold Obligations.SafeStopProgress
  intro s t b hl
  exact ⟨fun hst => ⟨ssRampEnd_gates hl hst, fun _ => ssRampEnd_waits hl, fun d => ssRampTimeout_gates hl hst, fun d => ssRampTimeout_waits hl,
    envelopeSkipLimit_removes hl hst, envelopeSkipLimit_waits hl⟩,
    fun hst d hd => ⟨escalation_escalates hl hd hst, escalation_waits hl hd⟩⟩

end Sys2Proof.Machine
end
section
/-! PROOFS. The SYS unlock (R405, R406). -/
namespace Sys2Proof.Machine

/-! ## An unlock by itself -/

theorem Unlock.locked_none {u : Unlock} {t : Nat} (h : u.remaining t = 0) : u.locked t = none := refuseIf_false (by simp [h]) _

theorem Unlock.locked_some {u : Unlock} {t : Nat} (h : 0 < u.remaining t) : u.locked t = some (deny .state) := refuseIf_true (by simp [h]) _

/-- What a failed response leaves: one more failure, and from the fifth on a lockout (R323, R406). -/
theorem Unlock.fail_parts (u : Unlock) (t : Nat) : (u.fail t).st = u.st ∧ (u.fail t).fails = satInc 8 u.fails ∧
    ((u.fail t).lockout = true ↔ 5 ≤ satInc 8 u.fails) ∧
    (5 ≤ satInc 8 u.fails → (u.fail t).remaining t = if u.lastNs = 0 then secs 900 else min (secs 86400) (2 * u.lastNs)) := by
  unfold Unlock.fail
  dsimp only
  split
  · next h => exact ⟨rfl, rfl, by simp [h], fun _ => by simp [Unlock.remaining]⟩
  · next h => exact ⟨rfl, rfl, by simp [h], fun h' => absurd h' h⟩

/-! ## SYS.LOCK_CTRL -/

/-- A use of a key is noted in its slot alone. -/
theorem State.noteUse_keeps (s : State) (m : Master) (use : Nat) : (s.noteUse m use).mt = s.mt ∧ (s.noteUse m use).draws = s.draws ∧
    (s.noteUse m use).lock = s.lock := by
  unfold State.noteUse
  split <;> exact ⟨rfl, rfl, rfl⟩

/-- What the end of the unlock leaves (R405, R406). -/
theorem State.sysLockAgain_ends (s : State) : s.sysLockAgain.lock = { s.lock with st := .sealed } ∧
    s.sysLockAgain.host.netIp = s.host.stagedIp.getD s.host.netIp ∧ s.sysLockAgain.host.stagedIp = none := by
  have both : ∀ {α : Type} (x : Option α) (y : α), taken x y = x.getD y := fun x y => by cases x <;> rfl
  exact ⟨rfl, both .., rfl⟩

section
variable {s : State} {t : Nat} {m : Master} (hl : s.live = true)
include hl

section
variable (hs : s.serves m = true)
include hs

/-- The write of UNLOCK is answered as it is checked (R405). -/
theorem sysUnlock_answers {r : State × Answer} (hr : (s.arrive t).sysUnlock m = r) : exec (.sysUnlock t m) s = .next (r.1.answered m true lockCtrl
    r.2) := by
  rw [exec_live hl rfl, foreign_none (s := s.arrive t) hs]
  simp only [hr]

/-- With a new nonce after it, whatever it is answered. -/
theorem sysUnlock_locked (h : 0 < s.lock.remaining (max s.mt t)) : Completes (.sysUnlock t m) s fun u =>
    u.lock = { s.lock with nonce := (s.drawBytes 16).1 } ∧ u.host.answer = deny .state := by
  have locked : (s.arrive t).sysUnlock m = ((s.arrive t).newSysNonce, deny .state) := by
    unfold State.sysUnlock
    rw [show (s.arrive t).lock.locked (s.arrive t).mt = some (deny .state) from Unlock.locked_some h]
  refine Completes.of (sysUnlock_answers hl hs locked) ?_
  rw [State.answered_lock, State.answered_answer, State.newSysNonce_eq (s.arrive t) s rfl]
  exact ⟨rfl, rfl⟩

section
variable (h : s.lock.remaining (max s.mt t) = 0)
include h

theorem sysUnlock_refused (hu : s.useRefused m 6 = true) : Completes (.sysUnlock t m) s fun u =>
    u.lock = { s.lock with nonce := (s.drawBytes 16).1 } ∧ u.host.answer = deny .access := by
  have refused : (s.arrive t).sysUnlock m = ((s.arrive t).newSysNonce, deny .access) := by
    unfold State.sysUnlock
    rw [show (s.arrive t).lock.locked (s.arrive t).mt = none from Unlock.locked_none h]
    exact if_pos hu
  refine Completes.of (sysUnlock_answers hl hs refused) ?_
  rw [State.answered_lock, State.answered_answer, State.newSysNonce_eq (s.arrive t) s rfl]
  exact ⟨rfl, rfl⟩

omit hl hs in
/-- The UNLOCK that is checked. -/
theorem sysUnlock_tries (hu : s.useRefused m 6 = false) : (s.arrive t).sysUnlock m =
    (((s.arrive t).sysTry m).1.newSysNonce, ((s.arrive t).sysTry m).2) := by
  unfold State.sysUnlock
  rw [show (s.arrive t).lock.locked (s.arrive t).mt = none from Unlock.locked_none h]
  exact if_neg (by rw [show (s.arrive t).useRefused m 6 = s.useRefused m 6 from rfl, hu]; decide)

theorem sysUnlock_passes {k : Key} (hk : s.cfgKey m = some k) (hr : s.lock.resp = sysResponse s m k) : Completes (.sysUnlock t m) s fun u =>
    u.lock.st = .unlocked ∧ u.lock.owner = m ∧ u.lock.deadline = max s.mt t + secs 1800 ∧ u.lock.fails = 0 ∧ u.lock.lockout = false ∧
    u.lock.nonce = (s.drawBytes 16).1 ∧ u.host.answer = okAnswer := by
  have usable : s.useRefused m 6 = false := by
    have held : (s.anySlot m 6).isNone = false := by
      simp only [State.cfgKey, State.anyKey, Option.map_eq_some_iff] at hk
      obtain ⟨h, e, _⟩ := hk
      rw [e]
      rfl
    rw [State.useRefused, held]
    rfl
  have ok : sysResponseOk (s.arrive t) m = true := by
    unfold sysResponseOk
    rw [show (s.arrive t).cfgKey m = some k from hk]
    exact beq_iff_eq.2 hr
  refine Completes.of (sysUnlock_answers hl hs (sysUnlock_tries h usable)) ?_
  unfold State.sysTry
  simp only [ok, ↓reduceIte]
  obtain ⟨mt, draws, lock⟩ := (s.arrive t).noteUse_keeps m 6
  generalize (s.arrive t).noteUse m 6 = w at mt draws lock ⊢
  have nonce := State.newSysNonce_eq ((w.setLock fun u => u.pass w.mt m).bumpIf (w.lock.st != .unlocked || w.lock.owner != m || w.lock.fails != 0) 0)
      s
    ((State.bumpIf_draws ..).trans draws)
  rw [State.answered_lock, State.answered_answer, nonce, State.bumpIf_lock]
  exact ⟨rfl, rfl, congrArg (· + secs 1800) mt, rfl, rfl, rfl, rfl⟩

theorem sysUnlock_fails (hk : ∀ k, s.cfgKey m = some k → s.lock.resp ≠ sysResponse s m k) (hu : s.useRefused m 6 = false) :
    Completes (.sysUnlock t m) s fun u =>
      u.lock.st = s.lock.st ∧ u.lock.fails = satInc 8 s.lock.fails ∧ u.lock.nonce = (s.drawBytes 16).1 ∧ u.host.answer = ⟨.denied, .none⟩ ∧
      (satInc 8 s.lock.fails < 5 → u.lock.lockout = false) ∧
      (5 ≤ satInc 8 s.lock.fails → u.lock.remaining (max s.mt t) = if s.lock.lastNs = 0 then secs 900 else min (secs 86400) (2 * s.lock.lastNs)) := by
  have wrong : sysResponseOk (s.arrive t) m = false := by
    unfold sysResponseOk
    cases e : (s.arrive t).cfgKey m with
    | none => rfl
    | some k => exact beq_eq_false_iff_ne.2 (hk k e)
  refine Completes.of (sysUnlock_answers hl hs (sysUnlock_tries h hu)) ?_
  unfold State.sysTry
  simp only [wrong, Bool.false_eq_true, ↓reduceIte]
  obtain ⟨mt, draws, lock⟩ := (s.arrive t).noteUse_keeps m 6
  generalize (s.arrive t).noteUse m 6 = w at mt draws lock ⊢
  have nonce := State.newSysNonce_eq ((w.setLock fun u => u.fail w.mt).bump 0) s draws
  rw [State.answered_lock, State.answered_answer, nonce, State.bump_lock]
  simp only [State.setLock, lock, mt]
  obtain ⟨st, fails, lockout, remaining⟩ := s.lock.fail_parts (max s.mt t)
  exact ⟨st, fails, trivial, rfl, fun h' => Bool.eq_false_iff.2 fun e => absurd (lockout.1 e) (Nat.not_le.mpr h'), remaining⟩

end
end

section
variable (hu : s.lock.st = .unlocked)
include hu

theorem sysSeal_ends (hs : s.serves m = true) : Completes (.sysSeal t m) s fun u =>
    (u.lock = { s.lock with st := .sealed } ∧ u.host.netIp = s.host.stagedIp.getD s.host.netIp ∧ u.host.stagedIp = none) ∧
    u.host.answer = okAnswer :=
  Completes.served hl hs rfl fun u e => by
    have sealed_ : (s.arrive t).sysSeal = (s.arrive t).sysLockAgain := if_pos hu
    rw [← e, sealed_]
    exact ⟨(s.arrive t).sysLockAgain_ends, rfl⟩

theorem sysUnlockExpiry_ends (ht : s.lock.deadline < t) : Completes (.sysUnlockExpiry t) s fun u =>
    u.lock = { s.lock with st := .sealed } ∧ u.host.netIp = s.host.stagedIp.getD s.host.netIp ∧ u.host.stagedIp = none := by
  refine Completes.live hl rfl ?_
  rw [if_pos (by simp [hu, is_expired ht])]
  exact (s.arrive t).sysLockAgain_ends

omit hu in
theorem sysUnlockExpiry_waits (ht : t ≤ s.lock.deadline) : Completes (.sysUnlockExpiry t) s fun u => u.lock = s.lock := by
  refine Completes.live hl rfl ?_
  rw [if_neg (by simp [not_expired ht])]
  rfl

end

section
variable (hL : s.lock.lockout = true)
include hL

theorem sysLockoutEnd_ends (h : s.lock.remaining t = 0) : Completes (.sysLockoutEnd t) s fun u =>
    u.lock = { s.lock with lockout := false, remNs := 0 } := by
  refine Completes.live hl rfl ?_
  rw [if_pos (by simp [hL, h])]
  rfl

omit hL in
theorem sysLockoutEnd_waits (h : 0 < s.lock.remaining t) : Completes (.sysLockoutEnd t) s fun u => u.lock = s.lock := by
  refine Completes.live hl rfl ?_
  rw [if_neg (by simp [Nat.ne_of_gt h])]
  rfl

end
end

/-- Settles O35. -/
theorem sysUnlock : Obligations.SysUnlock := by
  unfold Obligations.SysUnlock
  intro s t m hl hs
  exact ⟨fun k hk hr h => sysUnlock_passes hl hs h hk hr, fun hu h => sysUnlock_refused hl hs h hu, fun hk hu h => sysUnlock_fails hl hs h hk hu,
    sysUnlock_locked hl hs, fun hu => ⟨sysSeal_ends hl hu hs, sysUnlockExpiry_ends hl hu, sysUnlockExpiry_waits hl⟩,
    fun hL => ⟨sysLockoutEnd_ends hl hL, sysLockoutEnd_waits hl⟩⟩

end Sys2Proof.Machine
end
section
/-! PROOFS. The unlock of the safety configuration, its seal and its password (R322 to R325). -/
namespace Sys2Proof.Machine

/-- A record of the change log counts, and touches nothing else of SAF (R325). -/
theorem State.changeLog_saf (s : State) (m : Master) (e : Nat) (old : Bytes) : (s.changeLog m e old).saf =
    { s.saf with chgCount := satInc 32 s.saf.chgCount } := by
  unfold State.changeLog
  dsimp only
  rw [State.log_saf]

theorem State.changeLog_same (s : State) (m : Master) (e : Nat) (old : Bytes) : (s.changeLog m e old).draws = s.draws := by
  unfold State.changeLog
  dsimp only
  rw [State.log_draws]

theorem State.chargePolicy_saf (s : State) (n : Nat) : (s.chargePolicy n).saf = s.saf := rfl

/-- A change of the configuration needs room for its record and no power failure (R206, R325). -/
theorem logRoom_none {s : State} (hf : s.logFull = false) (hp : s.pwr.pfw = false) :
    firstOf (refuseIf s.logFull (deny .state)) (pfwRefusal s) = none := by
  rw [refuseIf_false hf, firstOf_none]
  exact refuseIf_false hp _

section
variable {s : State} {t : Nat} {m : Master} (hl : s.live = true)
include hl

section
variable (hs : s.serves m = true)
include hs

/-- The write of UNLOCK is answered as it is checked (R322). -/
theorem safUnlock_answers {r : State × Answer} (hr : (s.arrive t).safUnlock m = r) : exec (.safUnlock t m) s = .next (r.1.answered m true safCtrl
    r.2) := by
  rw [exec_live hl rfl, foreign_none (s := s.arrive t) hs]
  simp only [hr]

theorem safUnlock_locked (h : 0 < s.saf.unlock.remaining (max s.mt t)) : Completes (.safUnlock t m) s fun u =>
    u.saf = { s.saf with unlock := { s.saf.unlock with nonce := (s.drawBytes 16).1 } } ∧ u.host.answer = deny .state := by
  have locked : (s.arrive t).safUnlock m = ((s.arrive t).newSafNonce, deny .state) := by
    unfold State.safUnlock
    rw [show (s.arrive t).saf.unlock.locked (s.arrive t).mt = some (deny .state) from Unlock.locked_some h]
  refine Completes.of (safUnlock_answers hl hs locked) ?_
  rw [State.answered_saf, State.answered_answer, State.newSafNonce_eq (s.arrive t) s rfl]
  exact ⟨rfl, rfl⟩

section
variable (h : s.saf.unlock.remaining (max s.mt t) = 0)
include h

omit hs hl in
theorem safUnlock_tries : (s.arrive t).safUnlock m = (((s.arrive t).safTry m).1.newSafNonce, ((s.arrive t).safTry m).2) := by
  unfold State.safUnlock
  rw [show (s.arrive t).saf.unlock.locked (s.arrive t).mt = none from Unlock.locked_none h]

theorem safUnlock_passes (hp : s.saf.noPw = false)
    (hr : s.saf.unlock.resp = (hmac256 s.saf.pwKey (s.saf.unlock.nonce ++ deviceIdBytes s)).take 16) : Completes (.safUnlock t m) s fun u =>
      u.saf.unlock.st = .unlocked ∧ u.saf.unlock.owner = m ∧ u.saf.unlock.deadline = max s.mt t + secs 1800 ∧ u.saf.unlock.fails = 0 ∧
      u.saf.unlock.nonce = (s.drawBytes 16).1 ∧ u.saf.staged = some (s.saf.staged.getD { ssRamp := s.saf.ssRamp, tolPct := s.saf.tolPct }) ∧
      u.host.answer = okAnswer := by
  have ok : safResponseOk (s.arrive t) = true := by
    unfold safResponseOk
    rw [show (s.arrive t).saf.noPw = false from hp]
    exact beq_iff_eq.2 hr
  refine Completes.of (safUnlock_answers hl hs (safUnlock_tries h)) ?_
  unfold State.safTry
  simp only [ok, ↓reduceIte]
  generalize hw : State.bumpIf _ _ 8 = w
  have saf : w.saf =
      { s.saf with
        unlock := s.saf.unlock.pass (max s.mt t) m
        staged := some (s.saf.staged.getD { ssRamp := s.saf.ssRamp, tolPct := s.saf.tolPct }) } := by
    rw [← hw, State.bumpIf_saf]
    rfl
  have draws : w.draws = s.draws := by
    rw [← hw, State.bumpIf_draws]
    rfl
  rw [State.answered_saf, State.answered_answer, State.newSafNonce_eq w s draws]
  simp only [saf]
  exact ⟨rfl, rfl, rfl, rfl, trivial, trivial, trivial⟩

theorem safUnlock_fails (hr : s.saf.noPw = true ∨ s.saf.unlock.resp ≠ (hmac256 s.saf.pwKey (s.saf.unlock.nonce ++ deviceIdBytes s)).take 16) :
    Completes (.safUnlock t m) s fun u =>
      u.saf.unlock.st = s.saf.unlock.st ∧ u.saf.unlock.fails = satInc 8 s.saf.unlock.fails ∧ u.saf.unlock.nonce = (s.drawBytes 16).1 ∧
      u.host.answer = ⟨.denied, .none⟩ ∧
      u.saf.chgCount = (if satInc 8 s.saf.unlock.fails < 5 then satInc 32 s.saf.chgCount else satInc 32 (satInc 32 s.saf.chgCount)) ∧
      (5 ≤ satInc 8 s.saf.unlock.fails → u.saf.unlock.remaining (max s.mt t) =
        if s.saf.unlock.lastNs = 0 then secs 900 else min (secs 86400) (2 * s.saf.unlock.lastNs)) := by
  have wrong : safResponseOk (s.arrive t) = false := by
    unfold safResponseOk
    rcases hr with hr | hr
    · rw [show (s.arrive t).saf.noPw = true from hr]
      rfl
    · exact Bool.and_eq_false_iff.2 (.inr (beq_eq_false_iff_ne.2 hr))
  obtain ⟨st, fails, lockout, remaining⟩ := s.saf.unlock.fail_parts (max s.mt t)
  refine Completes.of (safUnlock_answers hl hs (safUnlock_tries h)) ?_
  unfold State.safTry
  simp only [wrong, Bool.false_eq_true, ↓reduceIte]
  generalize hw : State.changeLog _ m 4 _ = w
  have saf : w.saf = { s.saf with unlock := s.saf.unlock.fail (max s.mt t), chgCount := satInc 32 s.saf.chgCount } := by
    rw [← hw, State.changeLog_saf]
    rfl
  have draws : w.draws = s.draws := by
    rw [← hw, State.changeLog_same]
    rfl
  by_cases late : 5 ≤ satInc 8 s.saf.unlock.fails
  · rw [if_pos (by rw [saf]; exact lockout.2 late), State.answered_saf, State.answered_answer,
      State.newSafNonce_eq _ s ((State.changeLog_same ..).trans draws)]
    simp only [State.changeLog_saf, saf, if_neg (Nat.not_lt.mpr late)]
    exact ⟨st, fails, trivial, rfl, trivial, remaining⟩
  · rw [if_neg (by rw [saf]; exact fun e => late (lockout.1 e)), State.answered_saf, State.answered_answer, State.newSafNonce_eq w s draws]
    simp only [saf, if_pos (Nat.not_le.mp late)]
    exact ⟨st, fails, trivial, rfl, trivial, remaining⟩

end

section
variable (hu : s.saf.unlock.st = .unlocked)
include hu

theorem safSeal_seals {x : SafStage} (hx : s.saf.staged = some x) (hc : s.changing = false) (hf : s.logFull = false) (hp : s.pwr.pfw = false) :
    Completes (.safSeal t m) s fun u =>
      u.saf.ssRamp = x.ssRamp ∧ u.saf.tolPct = x.tolPct ∧ u.saf.staged = none ∧ u.saf.unlock = { s.saf.unlock with st := .sealed } ∧
      u.saf.chgCount = satInc 32 s.saf.chgCount ∧ u.host.answer = okAnswer := by
  have free : safSealRefusal (s.arrive t) = none := by
    unfold safSealRefusal
    rw [if_neg (by simp [hu]), if_neg (by rw [show (s.arrive t).changing = s.changing from rfl, hc]; decide)]
    exact logRoom_none (s := s.arrive t) hf hp
  refine Completes.accepted hl hs rfl free fun u e => ?_
  subst e
  unfold State.safSeal
  dsimp only
  rw [State.changeLog_saf]
  simp only [State.arrive_saf, hx]
  exact ⟨rfl, rfl, rfl, rfl, rfl, trivial⟩

theorem safSeal_busy (hc : s.changing = true) : Completes (.safSeal t m) s fun u => u.saf = s.saf ∧ u.host.answer = ⟨.busy, .state⟩ := by
  have busy : safSealRefusal (s.arrive t) = some ⟨.busy, .state⟩ := by
    unfold safSealRefusal
    rw [if_neg (by simp [hu]), if_pos (show (s.arrive t).changing = true from hc)]
  refine Completes.refused hl hs rfl busy ?_
  rw [State.answered_saf, State.answered_answer]
  exact ⟨rfl, rfl⟩

omit hs

theorem safUnlockExpiry_ends (ht : s.saf.unlock.deadline < t) : Completes (.safUnlockExpiry t) s fun u =>
    u.saf = { s.saf with unlock := { s.saf.unlock with st := .sealed }, staged := none } := by
  refine Completes.live hl rfl ?_
  rw [if_pos (by simp [hu, is_expired ht])]
  rfl

omit hu in
theorem safUnlockExpiry_waits (ht : t ≤ s.saf.unlock.deadline) : Completes (.safUnlockExpiry t) s fun u => u.saf = s.saf := by
  refine Completes.live hl rfl ?_
  rw [if_neg (by simp [not_expired ht])]
  rfl

end

omit hs in
theorem safLockoutEnd_ends (hL : s.saf.unlock.lockout = true) (h : s.saf.unlock.remaining t = 0) : Completes (.safLockoutEnd t) s fun u =>
    u.saf = { s.saf with unlock := { s.saf.unlock with lockout := false, remNs := 0 } } := by
  refine Completes.live hl rfl ?_
  rw [if_pos (by simp [hL, h])]
  rfl

theorem pwSet_sets (hu : s.saf.noPw = true ∨ s.saf.unlock.st = .unlocked) (hf : s.logFull = false) (hp : s.pwr.pfw = false) :
    Completes (.pwSet t m) s fun u =>
      u.saf.pwKey = s.saf.pwk ∧ u.saf.noPw = false ∧ u.saf.chgCount = satInc 32 s.saf.chgCount ∧ u.host.answer = okAnswer := by
  have free : pwSetRefusal (s.arrive t) = none := by
    unfold pwSetRefusal
    rw [if_neg (by rcases hu with hu | hu <;> simp [hu])]
    exact logRoom_none (s := s.arrive t) hf hp
  refine Completes.accepted hl hs rfl free fun u e => ?_
  subst e
  unfold State.pwSet
  rw [State.changeLog_saf]
  exact ⟨rfl, rfl, rfl, rfl⟩

theorem pwSet_locked (hp : s.saf.noPw = false) (hu : s.saf.unlock.st ≠ .unlocked) : Completes (.pwSet t m) s fun u =>
    u.saf = s.saf ∧ u.host.answer = ⟨.locked, .none⟩ := by
  have locked : pwSetRefusal (s.arrive t) = some ⟨.locked, .none⟩ := by
    unfold pwSetRefusal
    rw [if_pos (by simp [hp, hu])]
  refine Completes.refused hl hs rfl locked ?_
  rw [State.answered_saf, State.answered_answer]
  exact ⟨rfl, rfl⟩

end
end

/-- Settles O36. -/
theorem safetyUnlock : Obligations.SafetyUnlock := by
  unfold Obligations.SafetyUnlock
  intro s t m hl hs
  exact ⟨fun hp hr h => safUnlock_passes hl hs h hp hr, fun hr h => safUnlock_fails hl hs h hr, safUnlock_locked hl hs,
    fun hu => ⟨fun x => safSeal_seals hl hs hu, safSeal_busy hl hs hu, safUnlockExpiry_ends hl hu, safUnlockExpiry_waits hl⟩,
    safLockoutEnd_ends hl, pwSet_sets hl hs, pwSet_locked hl hs⟩

end Sys2Proof.Machine
end

section
/-! PROOFS. The steps of the role up to ACTIVE, and the takeover (R319, R335, R336, R342, R482). -/
namespace Sys2Proof.Machine

/-- What ACTIVE gained leaves of PAIR (R335, R336). -/
theorem State.becomeActive_holds (s : State) (b : Bool) : (s.becomeActive b).pair.role = .active ∧ (s.becomeActive b).pair.activeO = true ∧
    (s.becomeActive b).pair.activeI = s.pair.activeI ∧ (s.becomeActive b).pair.epoch = (max s.pair.epoch s.pair.partner.epoch + 1) % 65536 ∧
    (s.becomeActive b).pair.takeovers = (if b then satInc 8 s.pair.takeovers else s.pair.takeovers) ∧ (s.becomeActive b).pair.tko = s.mt := by
  have h := s.becomeActive_held b
  simp only [Pair.held, Prod.mk.injEq] at h
  exact h

section
variable {s : State} {t : Nat} (hl : s.live = true)
include hl

/-! ## INIT -/

section
variable (hr : s.pair.role = .init) (hm : s.pair.mode ≠ .single)
include hr hm

theorem initWaitEnd_claims (hi : s.pair.activeI = false) (hc : s.saf.ctrlFault = false)
    (ht : max s.pair.releasedAt s.pair.roleAt + initWait s.pair.side ≤ t) : Completes (.initWaitEnd t) s fun u =>
      u.pair.role = .claiming ∧ u.pair.activeO = true ∧ u.pair.roleAt = max s.mt t := by
  refine Completes.live hl rfl ?_
  simp only [State.arrive_pair, hr, hm, hi, ht, decide_true, Bool.not_false, Bool.and_self, ↓reduceIte]
  unfold State.enterClaiming
  have pair : ∀ f, ((s.arrive t).setPair f).pair = f s.pair := fun _ => rfl
  rw [if_neg (by rw [State.arrive_saf, hc]; decide), State.setRole_pair, if_neg (by rw [pair, hr]; decide)]
  exact ⟨rfl, rfl, rfl⟩

theorem initWaitEnd_waits (ht : t < max s.pair.releasedAt s.pair.roleAt + initWait s.pair.side) :
    Completes (.initWaitEnd t) s fun u => u.pair = s.pair := by
  refine Completes.live hl rfl ?_
  simp [hr, hm, Nat.not_le.mpr ht]

end

/-! ## The other module's ACTIVE -/

/-- What a module notes of the assertion before its role acts on it. -/
def State.notedActive (s : State) (t : Nat) : State :=
  (s.setPair fun p => { p with activeI := true, roleChange := if p.activeI then p.roleChange else t }).bumpIf (!s.pair.activeI) 9

omit hl in
theorem State.notedActive_pair (s : State) (t : Nat) : (s.notedActive t).pair =
    { s.pair with activeI := true, roleChange := if s.pair.activeI = true then s.pair.roleChange else t } := by
  unfold State.notedActive
  rw [State.bumpIf_pair]
  rfl

theorem activeIAssert_yields (hm : s.pair.mode ≠ .single) (hr : s.pair.role = .init ∨ (s.pair.role = .claiming ∧ s.pair.side = 1)) :
    Completes (.activeIAssert t) s fun u => u.pair.role = .syncing ∧ u.pair.activeO = false ∧ u.pair.activeI = true := by
  have syncs : exec (.activeIAssert t) s = .next (((s.arrive t).notedActive t).enterSyncing 0) := by
    rw [exec_live hl rfl]
    rcases hr with hr | ⟨hr, hs⟩
    · simp [State.notedActive, State.setPair, hr, hm]
    · simp [State.notedActive, State.setPair, hr, hs]
  refine Completes.of syncs ?_
  obtain ⟨role, out, in_, _⟩ := ((s.arrive t).notedActive t).enterSyncing_role 0
  exact ⟨role, out, in_.trans (by rw [State.notedActive_pair])⟩

theorem activeIAssert_noted (hr : s.pair.role = .claiming ∧ s.pair.side = 0 ∨ s.pair.role = .syncing ∨ s.pair.role = .standby ∨ s.pair.role = .unfit)
    :
    Completes (.activeIAssert t) s fun u =>
      u.pair = { s.pair with activeI := true, roleChange := if s.pair.activeI = true then s.pair.roleChange else t } ∧ u.saf = s.saf := by
  have notes : exec (.activeIAssert t) s = .next ((s.arrive t).notedActive t) := by
    rw [exec_live hl rfl]
    rcases hr with ⟨hr, hs⟩ | hr | hr | hr
    · simp [State.notedActive, State.setPair, hr, hs]
    all_goals simp [State.notedActive, State.setPair, hr]
  refine Completes.of notes ⟨State.notedActive_pair .., ?_⟩
  unfold State.notedActive
  rw [State.bumpIf_saf]
  rfl

theorem activeIAssert_interlocks (hm : s.pair.mode = .single) (hr : s.pair.role = .init) : Completes (.activeIAssert t) s fun u =>
    u.pair.role = .unfit ∧ u.pair.unfitCode = 6 ∧ u.pair.activeO = false ∧ u.assume.interlock = true := by
  have enters : exec (.activeIAssert t) s = .next ((((s.arrive t).notedActive t).assumeInterlock true).enterUnfit 6) := by
    rw [exec_live hl rfl]
    simp [State.notedActive, State.setPair, hr, hm]
  refine Completes.of enters ?_
  generalize hw : ((s.arrive t).notedActive t).assumeInterlock true = w
  have role : w.pair.role ≠ .unfit := by
    rw [← hw]
    have pair : ∀ v : State, (v.assumeInterlock true).pair = v.pair := fun v => by
      simp [State.assumeInterlock]
    rw [pair, State.notedActive_pair]
    show s.pair.role ≠ .unfit
    rw [hr]
    decide
  have locked : w.assume.interlock = true := by
    rw [← hw]
    simp [State.assumeInterlock]
  obtain ⟨h1, h2, _, h3⟩ := w.enterUnfit_role 6 role
  have kept : (w.enterUnfit 6).assume = w.assume := (State.enterUnfit_only rfl rfl rfl rfl rfl rfl (cs := allSave .assume) (OnlyIn.refl _ _)) .assume
      rfl
  exact ⟨h1, h3, h2, by rw [kept]; exact locked⟩

/-! ## CLAIMING -/

section
variable (hr : s.pair.role = .claiming)
include hr

omit hl hr in
/-- A read of the released signal leaves the epochs. -/
theorem State.readReleased_pair (s : State) (t : Nat) : (s.readReleased t).pair.activeI = false ∧ (s.readReleased t).pair.role = s.pair.role ∧
    (s.readReleased t).pair.activeO = s.pair.activeO ∧ (s.readReleased t).pair.epoch = s.pair.epoch ∧
    (s.readReleased t).pair.partner = s.pair.partner ∧ (s.readReleased t).pair.takeovers = s.pair.takeovers ∧ (s.readReleased t).mt = s.mt := by
  unfold State.readReleased
  split
  · dsimp only
    rw [State.bumpIf_pair, State.bump_pair, State.bumpIf_mt]
    exact ⟨rfl, rfl, rfl, rfl, rfl, rfl, rfl⟩
  · next h => exact ⟨Bool.eq_false_iff.2 h, rfl, rfl, rfl, rfl, rfl, rfl⟩

theorem claimConfirm_gains (ht : s.pair.roleAt + 2000 ≤ t) (h : s.pair.activeI = false ∨ (s.pair.side = 0 ∧ t ≤ s.pair.roleAt + 10000)) :
    Completes (.claimConfirm t) s fun u =>
      (u.pair.role = .active ∧ u.pair.activeO = true ∧ u.pair.epoch = (max s.pair.epoch s.pair.partner.epoch + 1) % 65536) ∧
      u.pair.activeI = false ∧ u.pair.tko = max s.mt t := by
  by_cases hi : s.pair.activeI = true
  · obtain ⟨hs, hd⟩ : s.pair.side = 0 ∧ t ≤ s.pair.roleAt + 10000 := h.resolve_left (by simp [hi])
    have gains : exec (.claimConfirm t) s = .next (((s.arrive t).readReleased t).becomeActive false) := by
      rw [exec_live hl rfl]
      simp [hr, ht, hi, hs, hd]
    refine Completes.of gains ?_
    obtain ⟨e1, _, _, e4, e5, _, e7⟩ := (s.arrive t).readReleased_pair t
    obtain ⟨role, out, in_, epoch, _, tko⟩ := ((s.arrive t).readReleased t).becomeActive_holds false
    exact ⟨⟨role, out, by rw [epoch, e4, e5]; rfl⟩, in_.trans e1, tko.trans e7⟩
  · have gains : exec (.claimConfirm t) s = .next ((s.arrive t).becomeActive false) := by
      rw [exec_live hl rfl]
      simp [hr, ht, hi]
    refine Completes.of gains ?_
    obtain ⟨role, out, in_, epoch, _, tko⟩ := (s.arrive t).becomeActive_holds false
    exact ⟨⟨role, out, epoch⟩, in_.trans (Bool.eq_false_iff.2 hi), tko⟩

theorem claimConfirm_waits (hi : s.pair.activeI = true) (h : s.pair.side ≠ 0 ∨ s.pair.roleAt + 10000 < t) :
    Completes (.claimConfirm t) s fun u => u.pair = s.pair := by
  refine Completes.live hl rfl ?_
  rcases h with h | h
  · simp [hr, hi, h]
  · simp [hr, hi, Nat.not_le.mpr h]

omit hr in
theorem claimConflictTimeout_waits (ht : t ≤ s.pair.roleAt + 10000) : Completes (.claimConflictTimeout t) s fun u => u.pair = s.pair := by
  refine Completes.live hl rfl ?_
  simp [not_expired ht]

theorem claimConflictTimeout_yields (hm : s.pair.mode ≠ .single) (hi : s.pair.activeI = true) (hs : s.pair.side = 0) (hc : s.saf.ctrlFault = false)
    (ht : s.pair.roleAt + 10000 < t) : Completes (.claimConflictTimeout t) s fun u => u.pair.role = .syncing ∧ u.pair.activeO = false := by
  refine Completes.live hl rfl ?_
  simp only [State.arrive_pair, hr, hi, hs, is_expired ht, beq_self_eq_true, Bool.and_self, ↓reduceIte]
  unfold State.startRole
  dsimp only
  generalize hv : State.setPair _ _ = v
  have parts : v.pair.role = .claiming ∧ v.pair.activeI = true ∧ v.pair.mode = s.pair.mode ∧ v.saf = s.saf := by
    rw [← hv]
    exact ⟨hr, hi, rfl, rfl⟩
  obtain ⟨role, in_, mode, saf⟩ := parts
  rw [if_neg (by simp [role])]
  have held := v.setRole_held .init 0
  have mode' := (v.setRole_mode .init 0).trans mode
  have saf' : (v.setRole .init 0).saf = v.saf := (State.setRole_only rfl rfl rfl rfl rfl rfl (cs := allSave .saf) (OnlyIn.refl _ _)) .saf rfl
  generalize v.setRole .init 0 = w at held mode' saf' ⊢
  simp only [Pair.held, Prod.mk.injEq] at held
  obtain ⟨_, _, in', _⟩ := held
  rw [if_neg (by rw [saf', saf, hc]; decide)]
  rw [in', in_]
  obtain ⟨syncing, released, _, _⟩ := w.enterSyncing_role 0
  split
  · next h => exact absurd (mode'.symm.trans h) hm
  · exact ⟨syncing, released⟩

end

/-! ## The takeover -/

theorem takeover_gains (hr : s.pair.role = .standby) : Completes (.takeover t) s fun u =>
    (u.pair.role = .active ∧ u.pair.activeO = true ∧ u.pair.epoch = (max s.pair.epoch s.pair.partner.epoch + 1) % 65536) ∧
    u.pair.activeI = false ∧ u.pair.tko = max s.mt t ∧ u.pair.takeovers = satInc 8 s.pair.takeovers := by
  refine Completes.live hl rfl ?_
  obtain ⟨e1, e2, _, e4, e5, e6, e7⟩ := (s.arrive t).readReleased_pair t
  rw [if_pos (e2.trans hr)]
  obtain ⟨role, out, in_, epoch, takeovers, tko⟩ := ((s.arrive t).readReleased t).becomeActive_holds true
  exact ⟨⟨role, out, by rw [epoch, e4, e5]; rfl⟩, in_.trans e1, tko.trans e7, by rw [takeovers, e6]; rfl⟩

theorem takeover_reads (hr : s.pair.role ≠ .standby) : Completes (.takeover t) s fun u =>
    u.pair.role = s.pair.role ∧ u.pair.activeO = s.pair.activeO ∧ u.pair.activeI = false := by
  refine Completes.live hl rfl ?_
  obtain ⟨e1, e2, e3, _⟩ := (s.arrive t).readReleased_pair t
  rw [if_neg (by rw [e2]; exact hr)]
  exact ⟨e2, e3, e1⟩

end

/-- Settles O37. -/
theorem roleSteps : Obligations.RoleSteps := by
  unfold Obligations.RoleSteps
  intro s t hl
  exact ⟨fun hr hm hi hc => ⟨initWaitEnd_claims hl hr hm hi hc, initWaitEnd_waits hl hr hm⟩, activeIAssert_yields hl, activeIAssert_noted hl,
    activeIAssert_interlocks hl, fun hr ht => ⟨claimConfirm_gains hl hr ht, claimConfirm_waits hl hr⟩,
    fun hr hm hi hs hc => ⟨claimConflictTimeout_yields hl hr hm hi hs hc, claimConflictTimeout_waits hl⟩, takeover_gains hl, takeover_reads hl⟩

end Sys2Proof.Machine
end
section
/-! PROOFS. The checks of a module of a pair, what its role makes of them, and the commands of PAIR.CTRL (R335, R337, R349, R350, R352, R356). -/
namespace Sys2Proof.Machine

/-! ## What the checks rest on -/

/-- The state without what a health check itself writes: the sums, OWN, DEGRADED and the messages sent. -/
def State.unsent (s : State) : State :=
  { s with
    host := { s.host with sum := Vector.replicate 16 0 }
    pair := { s.pair with own := 0, degraded := false,
                          seljo := { s.pair.seljo with sent := Vector.replicate 9 0, out := Vector.replicate 9 [], captureAsked := false } } }

theorem State.unsent_bumpIf (s : State) (c : Bool) (k : Fin 16) : (s.bumpIf c k).unsent = s.unsent := by
  cases c <;> rfl

theorem State.unsent_sendSeljo (s : State) (k : Fin 9) (f t : Nat) (p : Bytes) : (s.sendSeljo k f t p).unsent = s.unsent := by
  unfold State.sendSeljo
  dsimp only
  split <;> rfl

theorem State.unsent_askCapture (s : State) : s.askCapture.unsent = s.unsent := by
  unfold State.askCapture
  dsimp only
  split
  · rw [State.unsent_sendSeljo]
    rfl
  · rfl

theorem State.sendSeljo_own (s : State) (k : Fin 9) (f t : Nat) (p : Bytes) : (s.sendSeljo k f t p).pair.own = s.pair.own := by
  unfold State.sendSeljo
  dsimp only
  split <;> rfl

theorem State.askCapture_own (s : State) : s.askCapture.pair.own = s.pair.own := by
  unfold State.askCapture
  dsimp only
  split
  · rw [State.sendSeljo_own]
    rfl
  · rfl

section
variable {w s : State} (h : w.unsent = s.unsent)
include h

theorem State.failing_same : w.failing = s.failing := (congrArg State.failing h : w.unsent.failing = s.unsent.failing)

theorem State.fit_same : w.fit = s.fit := congrArg List.isEmpty (State.failing_same h)

theorem State.judgedLite_same : w.judgedLite = s.judgedLite := (congrArg State.judgedLite h : w.unsent.judgedLite = s.unsent.judgedLite)

theorem State.synced_same : w.synced = s.synced := (congrArg State.synced h : w.unsent.synced = s.unsent.synced)

theorem State.unsent_pair : w.pair.role = s.pair.role ∧ w.pair.activeO = s.pair.activeO ∧ w.pair.passDue = s.pair.passDue ∧
    w.pair.resyncS = s.pair.resyncS ∧ w.mt = s.mt := by
  have field : ∀ {α : Type} (f : State → α), f w.unsent = f s.unsent := fun f => congrArg f h
  exact ⟨field fun x => x.pair.role, field fun x => x.pair.activeO, field fun x => x.pair.passDue, field fun x => x.pair.resyncS, field fun x => x.mt⟩

end

/-- What a check has found before the role judges it. -/
def State.checked (s : State) : State :=
  (((s.setPair fun p => { p with own := s.ownBits }).bumpIf (s.pair.own != s.ownBits) 9).sendHealth).askCapture

theorem State.checked_unsent (s : State) : s.checked.unsent = s.unsent := by
  unfold State.checked State.sendHealth
  rw [State.unsent_askCapture, State.unsent_sendSeljo, State.unsent_sendSeljo, State.unsent_bumpIf]
  rfl

theorem State.checked_own (s : State) : s.checked.pair.own = s.ownBits := by
  unfold State.checked State.sendHealth
  rw [State.askCapture_own, State.sendSeljo_own, State.sendSeljo_own, State.bumpIf_pair]
  rfl

theorem State.setRole_own (s : State) (r : Role) (c : Nat) : (s.setRole r c).pair.own = s.pair.own := by
  rw [State.setRole_pair]
  split <;> rfl

theorem State.setRole_passDue (s : State) (r : Role) (c : Nat) : (s.setRole r c).pair.passDue = s.pair.passDue := by
  rw [State.setRole_pair]
  split <;> rfl

theorem State.enterUnfit_own (s : State) (c : Nat) : (s.enterUnfit c).pair.own = s.pair.own ∧ (s.enterUnfit c).pair.passDue = none := by
  unfold State.enterUnfit
  exact ⟨State.setRole_own .., State.setRole_passDue ..⟩

section
variable {s : State} {t : Nat} (hl : s.live = true)
include hl

/-! ## The health check (R352) -/

theorem healthCheck_judges (ha : s.active = false) : exec (.healthCheck t) s = .next (s.arrive t).checked.judgeRole := by
  have active : (s.arrive t).active = false := ha
  have held : (s.arrive t).judgeHold t = s.arrive t := by
    simp [State.judgeHold, State.refreshMissed, active]
  have armed : (s.arrive t).armHold t = s.arrive t := by
    simp [State.armHold, active]
  rw [exec_live hl rfl, held, armed]
  rfl

omit hl in
theorem State.active_of_role {s : State} (h : s.pair.role ≠ .active) : s.active = false := by
  simp [State.active, h]

omit hl in
/-- A STANDBY module judges itself by the column it notes in DEGRADED. -/
theorem State.judgeRole_standby (w : State) (hr : w.pair.role = .standby) : ∃ v : State, v.unsent = w.unsent ∧ v.pair.own = w.pair.own ∧
    v.pair.degraded = w.judgedLite ∧ w.judgeRole = if v.fit then v else v.enterUnfit (lowestCode v.failing) := by
  refine ⟨(w.setPair fun p => { p with degraded := w.judgedLite }).bumpIf (w.pair.degraded != w.judgedLite) 9, ?_, ?_, ?_, ?_⟩
  · exact (State.unsent_bumpIf ..).trans rfl
  · rw [State.bumpIf_pair]
    rfl
  · rw [State.bumpIf_pair]
    rfl
  · simp only [State.judgeRole, hr]

omit hl in
theorem State.judgeRole_syncing {w : State} (hr : w.pair.role = .syncing) : w.judgeRole.pair.own = w.pair.own ∧ w.judgeRole.pair.activeO =
    w.pair.activeO ∧
    w.judgeRole.pair.role = (if w.synced && w.fit then .standby else .syncing) := by
  simp only [State.judgeRole, hr]
  split
  · obtain ⟨standby, out⟩ := (w.setPair fun p => { p with degraded := w.judgedLite }).setRole_role .standby 0
    exact ⟨State.setRole_own .., out, standby⟩
  · exact ⟨rfl, rfl, hr⟩

theorem healthCheck_fit (hr : s.pair.role = .standby) (hf : (s.arrive t).fit = true) : Completes (.healthCheck t) s fun u =>
    u.pair.role = .standby ∧ u.pair.own = (s.arrive t).ownBits ∧ u.pair.degraded = (s.arrive t).judgedLite := by
  refine Completes.of (healthCheck_judges hl (State.active_of_role (by rw [hr]; decide))) ?_
  have same := (s.arrive t).checked_unsent
  obtain ⟨v, vsame, own, degraded, e⟩ := State.judgeRole_standby (s.arrive t).checked ((State.unsent_pair same).1.trans hr)
  have fit : v.fit = true := (State.fit_same (vsame.trans same)).trans hf
  rw [e, if_pos fit]
  exact ⟨(State.unsent_pair (vsame.trans same)).1.trans hr, own.trans (State.checked_own _), degraded.trans (State.judgedLite_same same)⟩

theorem healthCheck_unfit (hr : s.pair.role = .standby) (hf : (s.arrive t).fit = false) : Completes (.healthCheck t) s fun u =>
    u.pair.role = .unfit ∧ u.pair.own = (s.arrive t).ownBits ∧ u.pair.unfitCode = lowestCode (s.arrive t).failing ∧
    u.pair.activeO = false ∧ u.pair.passDue = none := by
  refine Completes.of (healthCheck_judges hl (State.active_of_role (by rw [hr]; decide))) ?_
  have same := (s.arrive t).checked_unsent
  obtain ⟨v, vsame, own, _, e⟩ := State.judgeRole_standby (s.arrive t).checked ((State.unsent_pair same).1.trans hr)
  have fit : v.fit = false := (State.fit_same (vsame.trans same)).trans hf
  have role : v.pair.role = .standby := (State.unsent_pair (vsame.trans same)).1.trans hr
  rw [e, if_neg (by rw [fit]; decide), State.failing_same (vsame.trans same)]
  obtain ⟨unfit, out, _, code⟩ := v.enterUnfit_role (lowestCode (s.arrive t).failing) (by rw [role]; decide)
  obtain ⟨own', due⟩ := v.enterUnfit_own (lowestCode (s.arrive t).failing)
  exact ⟨unfit, own'.trans (own.trans (State.checked_own _)), code, out, due⟩

theorem healthCheck_syncing (hr : s.pair.role = .syncing) : Completes (.healthCheck t) s fun u =>
    u.pair.own = (s.arrive t).ownBits ∧ u.pair.activeO = s.pair.activeO ∧
    u.pair.role = (if (s.arrive t).synced && (s.arrive t).fit then .standby else .syncing) := by
  refine Completes.of (healthCheck_judges hl (State.active_of_role (by rw [hr]; decide))) ?_
  have same := (s.arrive t).checked_unsent
  obtain ⟨role, out, _⟩ := State.unsent_pair same
  rw [← State.checked_own, ← State.synced_same same, ← State.fit_same same]
  replace role := role.trans hr
  rw [State.arrive_pair] at out
  rw [← out]
  generalize (s.arrive t).checked = w at role ⊢
  exact State.judgeRole_syncing role

theorem healthCheck_passes (hr : s.pair.role = .unfit) : Completes (.healthCheck t) s fun u =>
    u.pair.role = .unfit ∧ u.pair.own = (s.arrive t).ownBits ∧
    u.pair.passDue = (if (s.arrive t).fit then some (s.pair.passDue.getD ((s.arrive t).mt + secs s.pair.resyncS)) else none) := by
  refine Completes.of (healthCheck_judges hl (State.active_of_role (by rw [hr]; decide))) ?_
  have same := (s.arrive t).checked_unsent
  obtain ⟨role, _, due, resync, mt⟩ := State.unsent_pair same
  replace role := role.trans hr
  rw [State.arrive_pair] at due resync
  rw [← State.checked_own, ← State.fit_same same, ← due, ← resync, ← mt]
  generalize (s.arrive t).checked = w at role ⊢
  simp only [State.judgeRole, role]
  exact ⟨role, rfl, rfl⟩

/-! ## What ends SYNCING and UNFIT (R335, R337, R482) -/

theorem syncTimeout_unfit (hr : s.pair.role = .syncing) (ht : s.pair.roleAt + secs 10 < t) : Completes (.syncTimeout t) s fun u =>
    u.pair.role = .unfit ∧ u.pair.activeO = false ∧
    u.pair.unfitCode = (if (s.arrive t).failing = [] then syncCode (s.arrive t) else lowestCode (s.arrive t).failing) := by
  refine Completes.live hl rfl ?_
  simp only [State.arrive_pair, hr, is_expired ht, beq_self_eq_true, Bool.and_self, ↓reduceIte, List.isEmpty_iff]
  obtain ⟨unfit, out, _, code⟩ := (s.arrive t).enterUnfit_role
    (if (s.arrive t).failing = [] then syncCode (s.arrive t) else lowestCode (s.arrive t).failing) (by rw [State.arrive_pair, hr]; decide)
  exact ⟨unfit, out, code⟩

theorem syncTimeout_waits (ht : t ≤ s.pair.roleAt + secs 10) : Completes (.syncTimeout t) s fun u => u.pair = s.pair := by
  refine Completes.live hl rfl ?_
  simp [not_expired ht]

theorem resyncElapsed_waits (h : resyncDue s t = false) : Completes (.resyncElapsed t) s fun u => u.pair = s.pair := by
  refine Completes.live hl rfl ?_
  rw [show resyncDue (s.arrive t) t = false from h, Bool.and_false]
  rfl

theorem resyncElapsed_syncs (hr : s.pair.role = .unfit) (hm : s.pair.mode ≠ .single) (h : resyncDue s t = true) :
    Completes (.resyncElapsed t) s fun u => u.pair.role = .syncing ∧ u.pair.activeO = false := by
  refine Completes.live hl rfl ?_
  rw [show resyncDue (s.arrive t) t = true from h, if_pos (by rw [State.arrive_pair, hr]; rfl), if_neg (fun x => hm x.1)]
  obtain ⟨syncing, out, _, _⟩ := (s.arrive t).enterSyncing_role 0
  exact ⟨syncing, out⟩

omit hl in
/-- In single mode the role starts with the claim (R482). -/
theorem State.startRole_claims {w : State} (hm : w.pair.mode = .single) (hi : w.pair.activeI = false) (hc : w.saf.ctrlFault = false) :
    w.startRole.pair.role = .claiming ∧ w.startRole.pair.activeO = true := by
  unfold State.startRole
  dsimp only
  generalize hv : State.setPair _ _ = v
  have parts : v.pair.activeI = false ∧ v.pair.mode = .single ∧ v.saf = w.saf := by
    rw [← hv]
    exact ⟨hi, hm, rfl⟩
  obtain ⟨in_, mode, saf⟩ := parts
  rw [if_neg (by simp [State.paired, mode])]
  have held := v.setRole_held .init 0
  have mode' := (v.setRole_mode .init 0).trans mode
  have saf' : (v.setRole .init 0).saf = v.saf := (State.setRole_only rfl rfl rfl rfl rfl rfl (cs := allSave .saf) (OnlyIn.refl _ _)) .saf rfl
  generalize v.setRole .init 0 = x at held mode' saf' ⊢
  simp only [Pair.held, Prod.mk.injEq] at held
  obtain ⟨_, _, in', _⟩ := held
  have fault : x.saf.ctrlFault = false := by
    rw [saf', saf, hc]
  have claims : x.enterClaiming = (x.setPair fun p => { p with activeO := true }).setRole .claiming 0 := by
    simp [State.enterClaiming, fault]
  rw [if_neg (by rw [fault]; decide)]
  simp only [mode', in', in_, claims, Bool.false_eq_true, ↓reduceIte]
  exact State.setRole_role ..

theorem resyncElapsed_claims (hr : s.pair.role = .unfit) (hm : s.pair.mode = .single) (h6 : s.pair.unfitCode = 6) (hi : s.pair.activeI = false)
    (hc : s.saf.ctrlFault = false) (h : resyncDue s t = true) : Completes (.resyncElapsed t) s fun u => u.pair.role = .claiming ∧ u.pair.activeO =
        true := by
  refine Completes.live hl rfl ?_
  rw [show resyncDue (s.arrive t) t = true from h, if_pos (by rw [State.arrive_pair, hr]; rfl), if_pos ⟨hm, h6⟩]
  generalize hw : State.assumeInterlock _ _ = w
  have parts : w.pair = s.pair ∧ w.saf = s.saf := by
    rw [← hw]
    simp [State.assumeInterlock]
  obtain ⟨pair, saf⟩ := parts
  exact State.startRole_claims (by rw [pair, hm]) (by rw [pair, hi]) (by rw [saf, hc])

/-! ## The partner that is not heard (R349) -/

theorem partnerAbsent_notes (hm : s.pair.mode ≠ .single) (ha : s.pair.partner.absent = false)
    (ht : s.pair.partner.heardAt.getD s.pair.listenFrom + ms 50 < t) :
    Completes (.partnerAbsent t) s fun u => u.pair = { s.pair with partner := { s.pair.partner with absent := true } } := by
  refine Completes.live hl rfl ?_
  simp [State.paired, hm, ha, is_expired ht, State.setPartner, State.setPair]

theorem partnerAbsent_waits (ht : t ≤ s.pair.partner.heardAt.getD s.pair.listenFrom + ms 50) : Completes (.partnerAbsent t) s fun u => u.pair =
    s.pair := by
  refine Completes.live hl rfl ?_
  simp [not_expired ht]

/-! ## The commands of PAIR.CTRL (R337, R350, R356) -/

section
variable {m : Master} (hs : s.serves m = true)
include hs

theorem handover_accepted (hr : handoverRefusal (s.arrive t) = none) : Completes (.handover t m) s fun u =>
    u.pair = { s.pair with handoverPend := true } ∧ u.host.answer = okAnswer := by
  refine Completes.accepted hl hs (r := fun s => handoverRefusal s) rfl hr fun u e => ?_
  subst e
  simp [State.planHandover, State.setPair]

theorem handover_refused {a : Answer} (hr : handoverRefusal (s.arrive t) = some a) : Completes (.handover t m) s fun u =>
    u.pair = s.pair ∧ u.host.answer = a := by
  refine Completes.refused hl hs (r := fun s => handoverRefusal s) rfl hr ?_
  simp

theorem clearUnfit_clears : Completes (.clearUnfit t m) s fun u =>
    u.pair = { s.pair with hold11 := false, unfitCode := if s.pair.unfitCode = 11 then 10 else s.pair.unfitCode } ∧ u.host.answer = okAnswer := by
  refine Completes.served hl hs rfl fun u e => ?_
  subst e
  simp [State.clearHold, State.setPair]
  rfl

theorem pairClrCnt_clears : Completes (.pairClrCnt t m) s fun u =>
    u.pair = { s.pair with takeovers := 0, handovers := 0, releases := 0, divergeCnt := 0 } ∧ u.host.answer = okAnswer := by
  refine Completes.served hl hs rfl fun u e => ?_
  subst e
  simp [State.pairClear, State.setPair]

end
end

/-- May a planned handover take place, but for the holdoff (R350)? -/
theorem handoverRefusal_possible {s : State} (hr : s.pair.role = .active)
    (h : (s.pair.mode = .full ∧ s.partnerFit = true) ∨ (s.pair.mode = .lite ∧ s.energisedMask = 0)) :
    handoverRefusal s = refuseIf s.holdoff ⟨.busy, .state⟩ := by
  rcases h with ⟨hm, h⟩ | ⟨hm, h⟩ <;> simp [handoverRefusal, hr, hm, h]

theorem handoverRefusal_impossible {s : State}
    (h : s.pair.role ≠ .active ∨ s.pair.mode = .single ∨ (s.pair.mode = .full ∧ s.partnerFit = false) ∨ (s.pair.mode = .lite ∧ s.energisedMask ≠ 0)) :
    handoverRefusal s = some (deny .state) := by
  rcases h with hr | hm | ⟨hm, h⟩ | ⟨hm, h⟩
  · simp [handoverRefusal, hr]
  · simp [handoverRefusal, hm]
  · simp [handoverRefusal, hm, h]
  · simp [handoverRefusal, hm, h]

/-- When UNFIT may end with a partner (R335, R337). -/
theorem resyncDue_paired {s : State} (hm : s.pair.mode ≠ .single) (t : Nat) :
    resyncDue s t = (!s.pair.hold11 && (match s.pair.passDue with | some q => decide (q ≤ t) | none => false)) := by
  unfold resyncDue
  exact if_neg (by simp [hm])

/-- When UNFIT may end in single mode with code 6 (R482). -/
theorem resyncDue_single {s : State} (hm : s.pair.mode = .single) (h6 : s.pair.unfitCode = 6) (hi : s.pair.activeI = false) (t : Nat) :
    resyncDue s t = decide (s.pair.releasedDue ≤ t) := by
  simp [resyncDue, hm, h6, hi]

/-- Settles O38. -/
theorem pairChecks : Obligations.PairChecks := by
  unfold Obligations.PairChecks
  intro s t m hl p a
  refine ⟨healthCheck_fit hl, healthCheck_unfit hl, healthCheck_syncing hl, healthCheck_passes hl,
    fun hr => ⟨syncTimeout_unfit hl hr, syncTimeout_waits hl⟩, fun hr hm => ⟨fun hh q hq => ⟨fun ht => ?_, fun ht => ?_⟩, fun h => ?_⟩,
    fun hr hm h6 hi hc => ⟨fun ht => ?_, fun ht => ?_⟩, fun q hq hm ha => ?_, fun hs => ⟨fun hr h => ⟨fun ht => ?_, fun ht => ?_⟩, fun h => ?_,
      clearUnfit_clears hl hs, pairClrCnt_clears hl hs⟩⟩
  · exact resyncElapsed_syncs hl hr hm (by simp [resyncDue_paired hm, show s.pair.hold11 = false from hh, show s.pair.passDue = some q from hq, ht])
  · exact resyncElapsed_waits hl (by simp [resyncDue_paired hm, show s.pair.passDue = some q from hq, ht])
  · refine resyncElapsed_waits hl ?_
    rw [resyncDue_paired hm]
    rcases h with h | h
    · rw [show s.pair.hold11 = true from h]
      rfl
    · rw [show s.pair.passDue = none from h, Bool.and_false]
  · exact resyncElapsed_claims hl hr hm h6 hi hc (by rw [resyncDue_single hm h6 hi]; exact decide_eq_true ht)
  · exact resyncElapsed_waits hl (by rw [resyncDue_single hm h6 hi]; exact decide_eq_false (Nat.not_le.2 ht))
  · subst hq
    exact ⟨partnerAbsent_notes hl hm ha, partnerAbsent_waits hl⟩
  · refine handover_accepted hl hs ?_
    rw [handoverRefusal_possible (s := s.arrive t) hr h]
    exact if_neg (by rw [State.holdoff, decide_eq_true_iff]; exact Nat.not_lt.2 ht)
  · refine handover_refused hl hs ?_
    rw [handoverRefusal_possible (s := s.arrive t) hr h]
    exact if_pos (decide_eq_true ht)
  · exact handover_refused hl hs (handoverRefusal_impossible (s := s.arrive t) h)

end Sys2Proof.Machine
end
section
/-! PROOFS. Heartbeats, policy segments and update heartbeats (R211, R334, R349, R455). -/
namespace Sys2Proof.Machine

/-! ## Frames that join the queue of the heartbeat channel -/

/-- The frame of the module's own that carries `data`. -/
def State.ownFrame (s : State) (kind : Nat) (data : Bytes) : TxFrame :=
  { kind, box := 0, ext := false, id := s.pair.hbId + s.pair.side, fd := true, brs := s.sbus.ch[finMod 2 s.pair.hbCh].brsOf true, dlc := 15, data }

/-- The site bus once `fs` have joined the queue of the heartbeat channel. -/
def State.queued (s : State) (fs : List TxFrame) : SiteBus :=
  { s.sbus with ch := vupd s.sbus.ch (finMod 2 s.pair.hbCh) fun x => { x with queue := x.queue ++ fs } }

theorem State.queueOwn_sbus (s : State) (kind : Nat) (data : Bytes) : (s.queueOwn kind data).sbus = s.queued [s.ownFrame kind data] := rfl

theorem State.queueOwn_pair (s : State) (kind : Nat) (data : Bytes) : (s.queueOwn kind data).pair = s.pair := rfl

theorem State.queueOwn_ownFrame (s : State) (k1 k2 : Nat) (d1 d2 : Bytes) : (s.queueOwn k1 d1).ownFrame k2 d2 = s.ownFrame k2 d2 := by
  have rate : ∀ (v : Vector Channel 2) (c : Fin 2) (f : Channel → Channel), (∀ x, (f x).dataRate = x.dataRate) →
      (vupd v c f)[c].dataRate = v[c].dataRate := fun v c f hf => by
    rw [vupd_get, if_pos rfl, hf]
  have e : ((s.queueOwn k1 d1).sbus.ch[finMod 2 s.pair.hbCh]).dataRate = (s.sbus.ch[finMod 2 s.pair.hbCh]).dataRate := rate _ _ _ fun _ => rfl
  exact congrArg (fun r => ({ kind := k2, box := 0, ext := false, id := s.pair.hbId + s.pair.side, fd := true, brs := true && r != 0, dlc := 15,
                              data := d2 } : TxFrame)) e

theorem State.queueOwn_queued (s : State) (kind : Nat) (data : Bytes) (fs : List TxFrame) :
    (s.queueOwn kind data).queued fs = s.queued (s.ownFrame kind data :: fs) := by
  unfold State.queued
  rw [State.queueOwn_sbus, State.queueOwn_pair]
  unfold State.queued
  simp only [vupd_vupd, List.append_assoc, List.singleton_append]

/-! ## Frames sent -/

section
variable {s : State} {t : Nat} {bytes : Bytes} (hl : s.live = true) (hm : s.pair.mode ≠ .single)
include hl

section
include hm

theorem heartbeatSend_queues : Completes (.heartbeatSend t) s fun u => u.sbus = s.queued [s.ownFrame 0 (heartbeatBytes (s.arrive t))] := by
  refine Completes.live hl rfl ?_
  rw [if_pos (by rw [State.arrive_paired]; exact bne_iff_ne.2 hm)]
  exact State.queueOwn_sbus ..

theorem updateHeartbeatSend_queues : Completes (.updateHeartbeatSend t) s fun u => u.sbus = s.queued [s.ownFrame 2 (updateHeartbeatBytes (s.arrive
    t))] := by
  refine Completes.live hl rfl ?_
  rw [if_pos (by rw [State.arrive_paired]; exact bne_iff_ne.2 hm)]
  exact State.queueOwn_sbus ..

theorem policySegmentSend_queues (ha : s.active = true) : Completes (.policySegmentSend t) s fun u => u.sbus =
    s.queued [s.ownFrame 1 (policySegment (s.arrive t) 0), s.ownFrame 1 (policySegment (s.arrive t) 1), s.ownFrame 1 (policySegment (s.arrive t) 2)]
        := by
  refine Completes.live hl rfl ?_
  rw [if_pos (by rw [State.arrive_paired, show (s.arrive t).active = true from ha, Bool.and_true]; exact bne_iff_ne.2 hm)]
  rw [State.queueOwn_sbus, State.queueOwn_queued, State.queueOwn_queued, State.queueOwn_ownFrame, State.queueOwn_ownFrame, State.queueOwn_ownFrame]
  rfl

end

theorem policySegmentSend_none (ha : s.active = false) : Completes (.policySegmentSend t) s fun u => u.sbus = s.sbus := by
  refine Completes.live hl rfl ?_
  rw [if_neg (by rw [show (s.arrive t).active = false from ha, Bool.and_false]; decide)]
  rfl

/-! ## The interlock (R334) -/

/-- Reports of ACTIVE_I in a row that disagree with ACTIVE_O. -/
def State.disagreed (s : State) : Nat := if s.pair.partner.activeI = s.pair.activeO then 0 else s.pair.disagree + 1

omit hl in
theorem State.checkInterlock_pair (s : State) :
    s.checkInterlock.pair = { s.pair with disagree := s.disagreed, interlockBad := decide (3 ≤ s.disagreed) } := by
  unfold State.checkInterlock State.assumeInterlock
  rw [State.bumpIf_pair]
  dsimp only
  have count : (if s.pair.partner.activeI != s.pair.activeO then s.pair.disagree + 1 else 0) = s.disagreed := by
    unfold State.disagreed
    by_cases h : s.pair.partner.activeI = s.pair.activeO <;> simp [h]
  rw [count]
  split
  · exact State.log_pair ..
  · rfl

omit hl in
theorem State.checkInterlock_assume (s : State) : s.checkInterlock.assume.interlock = decide (3 ≤ s.disagreed) := by
  have kept : ∀ (x : State) (on : Bool), (x.assumeInterlock on).assume.interlock = on := fun x on => by
    unfold State.assumeInterlock
    rw [State.bumpIf_assume]
  have noted := s.checkInterlock_pair
  unfold State.checkInterlock at noted ⊢
  have pair : ∀ (x : State) (on : Bool), (x.assumeInterlock on).pair = x.pair := fun x on => by
    unfold State.assumeInterlock
    rw [State.bumpIf_pair]
  dsimp only at noted ⊢
  rw [pair] at noted
  rw [kept, noted]

omit hl in
/-- Three reports in a row that disagree: the third is this one. -/
theorem State.disagreed_three (s : State) : decide (3 ≤ s.disagreed) =
    decide (s.pair.partner.activeI ≠ s.pair.activeO ∧ 3 ≤ s.pair.disagree + (if s.pair.partner.activeI = s.pair.activeO then 0 else 1)) := by
  unfold State.disagreed
  split
  · next h => simp [h]
  · next h => simp [h]

/-! ## A heartbeat received -/

/-- What a heartbeat notes of the partner before the interlock is checked. -/
def State.hearing (s : State) (bytes : Bytes) : State :=
  let w := s.setPartner fun p => partnerHeard p s.mt bytes
  w.bumpIf (s.pair.partner.role != w.pair.partner.role || s.pair.partner.fit != w.pair.partner.fit || s.pair.partner.absent ||
    s.pair.partner.health != w.pair.partner.health) 9

omit hl in
theorem State.hearing_pair (s : State) (bytes : Bytes) : (s.hearing bytes).pair = { s.pair with partner := partnerHeard s.pair.partner s.mt bytes }
    := by
  unfold State.hearing
  dsimp only
  rw [State.bumpIf_pair]
  rfl

section
variable (hb : bytes.length = 64)
include hm hb

theorem heartbeatFrame_next (hk : u8 bytes 0 = 1) :
    exec (.heartbeatFrame t bytes) s = .next (((s.arrive t).hearing bytes).checkInterlock.yieldSide) := by
  rw [exec_live hl rfl]
  rw [if_pos (by rw [State.arrive_paired, hb, hk, show s.paired = true from bne_iff_ne.2 hm]; rfl)]
  rfl

theorem heartbeatFrame_hears (hk : u8 bytes 0 = 1) (h : s.pair.role ≠ .active ∨ (partnerHeard s.pair.partner (s.arrive t).mt bytes).role ≠ some
    .active ∨ s.pair.side ≠ 1) :
    Completes (.heartbeatFrame t bytes) s fun u =>
      u.pair.partner = partnerHeard s.pair.partner (s.arrive t).mt bytes ∧ u.pair.role = s.pair.role ∧ u.pair.activeO = s.pair.activeO ∧
      u.pair.disagree = (if (partnerHeard s.pair.partner (s.arrive t).mt bytes).activeI = s.pair.activeO then 0 else s.pair.disagree + 1) ∧
      u.pair.interlockBad = decide ((partnerHeard s.pair.partner (s.arrive t).mt bytes).activeI ≠ s.pair.activeO ∧
        3 ≤ s.pair.disagree + (if (partnerHeard s.pair.partner (s.arrive t).mt bytes).activeI = s.pair.activeO then 0 else 1)) ∧
      u.assume.interlock = decide ((partnerHeard s.pair.partner (s.arrive t).mt bytes).activeI ≠ s.pair.activeO ∧
        3 ≤ s.pair.disagree + (if (partnerHeard s.pair.partner (s.arrive t).mt bytes).activeI = s.pair.activeO then 0 else 1)) := by
  refine Completes.of (heartbeatFrame_next hl hm hb hk) ?_
  have pair := (s.arrive t).hearing_pair bytes
  rw [State.arrive_pair] at pair
  generalize (s.arrive t).hearing bytes = w at pair ⊢
  generalize partnerHeard s.pair.partner (s.arrive t).mt bytes = heard at pair h ⊢
  have three := w.disagreed_three
  have count : w.disagreed = if heard.activeI = s.pair.activeO then 0 else s.pair.disagree + 1 := by
    simp [State.disagreed, pair]
  have checked := w.checkInterlock_pair
  have assume' := w.checkInterlock_assume
  generalize w.checkInterlock = v at checked assume' ⊢
  rw [three, pair] at checked assume'
  have stays : v.yieldSide = v := by
    unfold State.yieldSide
    rw [if_neg]
    rw [checked]
    rcases h with h | h | h <;> simp [h]
  rw [stays, checked]
  exact ⟨rfl, rfl, rfl, count, rfl, assume'⟩

end

omit hl hm in
/-- A change that ends leaves the partner's picture (R55). -/
theorem State.cancelPending_partner (s : State) (c : Nat) : (s.cancelPending c).pair.partner = s.pair.partner := by
  unfold State.cancelPending
  split
  · rfl
  · split
    · rfl
    · dsimp only
      generalize hw : State.mk .. = w
      have o : OnlyIn notPair w ((w.profErr c 0 0xFFFF).slotSt ‹PendingChange›.slot .valid) :=
        State.slotSt_only rfl rfl (State.profErr_only rfl rfl (OnlyIn.refl _ w))
      rw [pair_same (o .role rfl) (o .pair rfl), ← hw]

omit hl hm in
theorem State.enterUnfit_partner (s : State) (c : Nat) : (s.enterUnfit c).pair.partner = s.pair.partner := by
  unfold State.enterUnfit
  rw [State.setRole_pair]
  split <;> rfl

section
variable (hb : bytes.length = 64)
include hm hb

theorem heartbeatFrame_yields (hk : u8 bytes 0 = 1) (hr : s.pair.role = .active)
    (hp : (partnerHeard s.pair.partner (s.arrive t).mt bytes).role = some .active) (hs : s.pair.side = 1) : Completes (.heartbeatFrame t bytes) s fun
        u =>
      u.pair.partner = partnerHeard s.pair.partner (s.arrive t).mt bytes ∧ u.pair.role = .unfit ∧ u.pair.unfitCode = 6 ∧ u.pair.activeO = false := by
  refine Completes.of (heartbeatFrame_next hl hm hb hk) ?_
  have pair := (s.arrive t).hearing_pair bytes
  rw [State.arrive_pair] at pair
  generalize (s.arrive t).hearing bytes = w at pair ⊢
  generalize partnerHeard s.pair.partner (s.arrive t).mt bytes = heard at pair hp ⊢
  have checked := w.checkInterlock_pair
  rw [pair] at checked
  generalize w.checkInterlock = v at checked ⊢
  unfold State.yieldSide
  rw [if_pos (by rw [checked]; simp [hr, hp, hs])]
  dsimp only
  have only : OnlyIn notPair v v.allOff := State.allOff_only rfl rfl (OnlyIn.refl _ v)
  have off : v.allOff.pair = v.pair := pair_same (only .role rfl) (only .pair rfl)
  have partner := v.allOff.cancelPending_partner 0x34
  have held := v.allOff.cancelPending_held 0x34
  rw [off, checked] at partner held
  generalize v.allOff.cancelPending 0x34 = x at partner held ⊢
  have drop := State.dropSite_pair x
  generalize (if x.pair.mode = .full then x else x.dropSite) = y at drop ⊢
  have role : y.pair.role = .active := by
    rw [drop]
    simp only [Pair.held, Prod.mk.injEq] at held
    exact held.1.trans hr
  obtain ⟨unfit, out, _, code⟩ := y.enterUnfit_role 6 (by rw [role]; decide)
  exact ⟨by rw [State.enterUnfit_partner, drop]; exact partner, unfit, code, out⟩

/-! ## Policy segments and update heartbeats received -/

theorem policySegmentFrame_keeps (hk : u8 bytes 0 = 2) (hi : u8 bytes 1 < 3) (ha : s.active = false) : Completes (.policySegmentFrame t bytes) s fun
    u =>
    u.pair.segments = tableSet (if u8 bytes 1 = 0 then [] else s.pair.segments) (u8 bytes 1) (slice bytes 4 60) := by
  refine Completes.live hl rfl ?_
  rw [if_pos (by rw [State.arrive_paired, hb, hk, show (s.arrive t).active = false from ha, show s.paired = true from bne_iff_ne.2 hm]; simpa using
      hi)]
  dsimp only
  generalize hw : State.setPair _ _ = w
  have only : OnlyIn notPair w w.takeSegments := State.takeSegments_only rfl (OnlyIn.refl _ w)
  have kept : w.takeSegments.pair = w.pair := pair_same (only .role rfl) (only .pair rfl)
  rw [kept, ← hw]
  rfl

omit hm hb in
theorem policySegmentFrame_ignored (ha : s.active = true) : Completes (.policySegmentFrame t bytes) s fun u => u.pair = s.pair ∧ u.mkt = s.mkt := by
  refine Completes.live hl rfl ?_
  rw [if_neg (by rw [show (s.arrive t).active = true from ha]; simp)]
  exact ⟨rfl, rfl⟩

theorem updateHeartbeatFrame_notes (hk : u8 bytes 0 = 3) : Completes (.updateHeartbeatFrame t bytes) s fun u =>
    u.pair.partner.runUid = slice bytes 4 16 ∧ u.pair.partner.stagedUid = slice bytes 20 16 ∧ u.pair.partner.actMode = u8 bytes 1 ∧
    (s.pair.side = 1 → u.pair.mac = beNat (slice bytes 36 6) ∧ u.pair.macHeard = true) ∧ (s.pair.side ≠ 1 → u.pair.mac = s.pair.mac) := by
  refine Completes.live hl rfl ?_
  rw [if_pos (by rw [State.arrive_paired, hb, hk, show s.paired = true from bne_iff_ne.2 hm]; rfl)]
  dsimp only
  split
  · next h => exact ⟨rfl, rfl, rfl, fun _ => ⟨rfl, rfl⟩, fun n => absurd h n⟩
  · next h => exact ⟨rfl, rfl, rfl, fun y => absurd y h, fun _ => rfl⟩

end
end

/-- Settles O39. -/
theorem pairFrames : Obligations.PairFrames := by
  unfold Obligations.PairFrames
  intro s t bytes hl hm hb
  exact ⟨heartbeatSend_queues hl hm, policySegmentSend_queues hl hm, policySegmentSend_none hl, updateHeartbeatSend_queues hl hm,
    heartbeatFrame_hears hl hm hb, heartbeatFrame_yields hl hm hb, policySegmentFrame_keeps hl hm hb, fun _ => policySegmentFrame_ignored hl,
    updateHeartbeatFrame_notes hl hm hb⟩

end Sys2Proof.Machine
end
section
/-! PROOFS. The commands that clear counters and release a first record (R137, R145, R329, R383, R407, R433). -/
namespace Sys2Proof.Machine

/-- What a command of a master the map serves leaves, where nothing refuses it. -/
theorem served_next {c : Instr} {s : State} {t a : Nat} {m : Master} {f : State → State} (hl : s.live = true) (hs : s.serves m = true)
    (e : exec c s = .next (whenLive t (fun s => s.command m a (foreign s m) f) s)) :
    exec c s = .next { f (s.arrive t) with host := { (f (s.arrive t)).host with answer := okAnswer } } := by
  rw [exec_live hl e, foreign_none (s := s.arrive t) hs, State.command_none]

section
variable {s : State} {t : Nat} {m : Master} (hl : s.live = true) (hs : s.serves m = true)
include hl hs

theorem pwrClrCnt_next (hp : s.pwr.pfw = false) : exec (.pwrClrCnt t m) s =
    .next { s.arrive t with host := { s.host with answer := okAnswer }, pwr := { s.pwr with rstCount := 0 } } := by
  rw [exec_live hl rfl, foreign_none (s := s.arrive t) hs, firstOf_none]
  unfold pfwRefusal
  rw [refuseIf_false (by exact hp), State.command_none]
  rfl

theorem firstOvrRelease_releases : Completes (.firstOvrRelease t m) s fun u =>
    u.lat = { s.lat with firstOvr := { s.lat.firstOvr with valid := false } } ∧ u.host.answer = okAnswer := by
  refine Completes.served hl hs rfl fun u e => ?_
  subst e
  unfold State.firstOvrRelease
  simp

end

/-- Settles O40. -/
theorem counterClears : Obligations.CounterClears := by
  unfold Obligations.CounterClears
  intro s t m hl hs
  exact ⟨(served_next hl hs (f := State.safClear) rfl).trans rfl, (served_next hl hs (f := State.latClear) rfl).trans rfl,
    (served_next hl hs (f := State.hostClear) rfl).trans rfl, (served_next hl hs (f := State.violRelease) rfl).trans rfl,
    (served_next hl hs (f := fun s => s.setClk fun c => { c with refLoss := 0, unlock := 0, x32Loss := 0 }) rfl).trans rfl, pwrClrCnt_next hl hs,
    (served_next hl hs (f := State.sbusClear) rfl).trans rfl, firstOvrRelease_releases hl hs⟩

end Sys2Proof.Machine
end
section
/-! PROOFS. The reset of an SI pair and the clear of an SO pair (R305, R310). -/
namespace Sys2Proof.Machine

/-! ## What the two commands do to the safety function -/

/-- The pair a command selects. -/
def State.selected (s : State) (sel : Nat) : State := { s with saf := { s.saf with sel } }

theorem State.siReset_eq (s : State) (k : Fin 16) : s.siReset k.val =
    match (s.selected k.val).safRec 1 k.val with
    | some r =>
      if siType r != 2 && siManual r && (s.selected k.val).saf.si[k].st == .waitReset && !inDemand r (s.selected k.val).saf.si[k]
      then (s.selected k.val).goSi k .idle id else s.selected k.val
    | none => s.selected k.val := by
  unfold State.siReset
  dsimp only
  rw [fin?_val]
  unfold State.selected
  cases State.safRec _ _ _ <;> rfl

theorem State.soClear_eq (s : State) (k : Fin 16) : s.soClear k.val =
    match (s.selected k.val).safRec 2 k.val with
    | some r =>
      if (s.selected k.val).saf.so[k].st == .fault && (s.selected k.val).causeGone k r
      then ((s.selected k.val).setSo k fun p => { p with st := .off, cause := 0, needTest := true }).bump 8 else s.selected k.val
    | none => s.selected k.val := by
  unfold State.soClear
  dsimp only
  rw [fin?_val]
  unfold State.selected
  cases State.safRec _ _ _ <;> rfl

theorem State.siReset_resets {s : State} {k : Fin 16} {r : SafRec} (hr : s.safRec 1 k.val = some r) (h2 : siType r ≠ 2) (hm : siManual r = true)
    (hw : s.saf.si[k].st = .waitReset) (hd : inDemand r s.saf.si[k] = false) : s.siReset k.val = (s.selected k.val).goSi k .idle id := by
  have rec' : (s.selected k.val).safRec 1 k.val = some r := hr
  have wait : (s.selected k.val).saf.si[k].st = .waitReset := hw
  have quiet : inDemand r (s.selected k.val).saf.si[k] = false := hd
  rw [State.siReset_eq, rec']
  exact if_pos (by rw [wait, quiet, hm]; simp [h2])

theorem State.siReset_selects {s : State} {k : Fin 16}
    (h : ∀ r, s.safRec 1 k.val = some r → s.saf.si[k].st ≠ .waitReset ∨ inDemand r s.saf.si[k] = true) : s.siReset k.val = s.selected k.val := by
  rw [State.siReset_eq]
  cases hr : (s.selected k.val).safRec 1 k.val with
  | none => rfl
  | some r =>
    refine if_neg ?_
    rcases h r hr with h | h
    · rw [show ((s.selected k.val).saf.si[k].st == .waitReset) = false from beq_false_of_ne h]
      simp
    · rw [show inDemand r (s.selected k.val).saf.si[k] = true from h]
      simp

theorem State.soClear_clears {s : State} {k : Fin 16} {r : SafRec} (hr : s.safRec 2 k.val = some r) (hf : s.saf.so[k].st = .fault)
    (hc : s.causeGone k r = true) : s.soClear k.val = ((s.selected k.val).setSo k fun p => { p with st := .off, cause := 0, needTest := true }).bump
        8 := by
  have rec' : (s.selected k.val).safRec 2 k.val = some r := hr
  have fault : (s.selected k.val).saf.so[k].st = .fault := hf
  have gone : (s.selected k.val).causeGone k r = true := hc
  rw [State.soClear_eq, rec']
  exact if_pos (by rw [fault, gone]; rfl)

theorem State.soClear_selects {s : State} {k : Fin 16} (h : ∀ r, s.safRec 2 k.val = some r → s.saf.so[k].st ≠ .fault ∨ s.causeGone k r = false) :
    s.soClear k.val = s.selected k.val := by
  rw [State.soClear_eq]
  cases hr : (s.selected k.val).safRec 2 k.val with
  | none => rfl
  | some r =>
    refine if_neg ?_
    rcases h r hr with h | h
    · rw [show ((s.selected k.val).saf.so[k].st == .fault) = false from beq_false_of_ne h]
      simp
    · rw [show (s.selected k.val).causeGone k r = false from h]
      simp

section
variable {s : State} {t : Nat} {m : Master} (hl : s.live = true) (hs : s.serves m = true)
include hl hs

section
variable {k : Fin 16}

/-! ## SI_RESET (R305) -/

theorem siReset_idle {r : SafRec} (hr : s.safRec 1 k.val = some r) (h2 : siType r ≠ 2) (hm : siManual r = true) (hw : s.saf.si[k].st = .waitReset)
    (hd : inDemand r s.saf.si[k] = false) : Completes (.siReset t m k.val) s fun u =>
      u.saf.si[k] = { s.saf.si[k] with st := .idle } ∧ (∀ j, j ≠ k → u.saf.si[j] = s.saf.si[j]) ∧ u.saf.sel = k.val ∧ u.host.answer = okAnswer := by
  refine Completes.accepted hl hs (r := fun _ => selBad k.val) rfl (refuseIf_false (decide_eq_false (Nat.not_lt.2 (Nat.le_of_lt_succ k.isLt))) _) fun
      u e => ?_
  subst e
  rw [State.siReset_resets (s := s.arrive t) hr h2 hm hw hd]
  have pair := ((s.arrive t).selected k.val).goSi_pair k .idle id
  obtain ⟨others, rest, _⟩ := ((s.arrive t).selected k.val).goSi_step k .idle id
  have sel := congrArg SafetyBlock.sel rest
  refine ⟨?_, fun j hj => others j hj.symm, sel, rfl⟩
  rw [show ((s.arrive t).selected k.val).saf.si[k] = s.saf.si[k] from rfl, hw] at pair
  exact pair

theorem siReset_selects (h : ∀ r, s.safRec 1 k.val = some r → s.saf.si[k].st ≠ .waitReset ∨ inDemand r s.saf.si[k] = true) :
    Completes (.siReset t m k.val) s fun u => u.saf = { s.saf with sel := k.val } ∧ u.host.answer = okAnswer := by
  refine Completes.accepted hl hs (r := fun _ => selBad k.val) rfl (refuseIf_false (decide_eq_false (Nat.not_lt.2 (Nat.le_of_lt_succ k.isLt))) _) fun
      u e => ?_
  subst e
  rw [State.siReset_selects (s := s.arrive t) h]
  exact ⟨rfl, rfl⟩

/-! ## SO_CLEAR (R310) -/

theorem soClear_off {r : SafRec} (hr : s.safRec 2 k.val = some r) (hf : s.saf.so[k].st = .fault) (hc : (s.arrive t).causeGone k r = true) :
    Completes (.soClear t m k.val) s fun u =>
      u.saf.so[k] = { s.saf.so[k] with st := .off, cause := 0, needTest := true } ∧ (∀ j, j ≠ k → u.saf.so[j] = s.saf.so[j]) ∧ u.host.answer =
          okAnswer := by
  refine Completes.accepted hl hs (r := fun _ => selBad k.val) rfl (refuseIf_false (decide_eq_false (Nat.not_lt.2 (Nat.le_of_lt_succ k.isLt))) _) fun
      u e => ?_
  subst e
  rw [State.soClear_clears (s := s.arrive t) hr hf hc]
  refine ⟨?_, fun j hj => ?_, rfl⟩
  · exact (vupd_get s.saf.so k k _).trans (if_pos rfl)
  · exact (vupd_get s.saf.so k j _).trans (if_neg hj.symm)

theorem soClear_selects (h : ∀ r, s.safRec 2 k.val = some r → s.saf.so[k].st ≠ .fault ∨ (s.arrive t).causeGone k r = false) :
    Completes (.soClear t m k.val) s fun u => u.saf = { s.saf with sel := k.val } ∧ u.host.answer = okAnswer := by
  refine Completes.accepted hl hs (r := fun _ => selBad k.val) rfl (refuseIf_false (decide_eq_false (Nat.not_lt.2 (Nat.le_of_lt_succ k.isLt))) _) fun
      u e => ?_
  subst e
  rw [State.soClear_selects (s := s.arrive t) h]
  exact ⟨rfl, rfl⟩

end

/-! ## A selection outside the pairs -/

theorem siReset_range {sel : Nat} (h : 15 < sel) : Completes (.siReset t m sel) s fun u => u.saf = s.saf ∧ u.host.answer = deny .range := by
  refine Completes.refused hl hs (r := fun _ => selBad sel) rfl (refuseIf_true (decide_eq_true h) _) ?_
  simp

theorem soClear_range {sel : Nat} (h : 15 < sel) : Completes (.soClear t m sel) s fun u => u.saf = s.saf ∧ u.host.answer = deny .range := by
  refine Completes.refused hl hs (r := fun _ => selBad sel) rfl (refuseIf_true (decide_eq_true h) _) ?_
  simp

end

/-- Settles O41. -/
theorem safetyPairResets : Obligations.SafetyPairResets := by
  unfold Obligations.SafetyPairResets
  intro s t m k hl hs
  have same : ∀ {kind : Nat} {r r' : SafRec}, s.safRec kind k.val = some r → s.safRec kind k.val = some r' → r = r' :=
    fun h h' => Option.some.inj (h.symm.trans h')
  exact ⟨fun r hr h2 hm hw => ⟨siReset_idle hl hs hr h2 hm hw, fun hd => siReset_selects hl hs fun r' hr' => .inr (same hr hr' ▸ hd)⟩,
    fun hw => siReset_selects hl hs fun _ _ => .inl hw,
    fun r hr hf => ⟨soClear_off hl hs hr hf, fun hc => soClear_selects hl hs fun r' hr' => .inr (same hr hr' ▸ hc)⟩,
    fun hf => soClear_selects hl hs fun _ _ => .inl hf, fun sel h => ⟨siReset_range hl hs h, soClear_range hl hs h⟩⟩

end Sys2Proof.Machine
end

section
/-! PROOFS. The Seljo link, its time and its small messages (R338, R339, R340, R343, R350, R352, R353, R355). -/
namespace Sys2Proof.Machine

/-! ## Messages with and without their CRC (R338, R339) -/

/-- The SEQ of a message is noted. -/
def State.notedSeq (s : State) (k : Fin 9) (head : SeljoHead) : State := s.setSeljo fun q => { q with got := vupd q.got k fun _ => head.seq }

section
variable {s : State} {t : Nat} (hl : s.live = true)
include hl

section
variable (hm : s.pair.mode = .full) {k : Fin 9} {c : Instr} {head : SeljoHead} {f : State → State}
include hm

theorem seljoMsg_next (e : exec c s = .next (seljoMsg t k head f s)) (ok : seljoOk k.val head = true) :
    exec c s = .next (f ((s.arrive t).notedSeq k head)) := by
  unfold seljoMsg at e
  rw [exec_live hl e]
  simp only [State.arrive_pair, hm, ok, bne_self_eq_false, Bool.not_true, Bool.false_eq_true, ↓reduceIte]
  rfl

theorem seljoMsg_bad (e : exec c s = .next (seljoMsg t k head f s)) (ok : seljoOk k.val head = false) : exec c s = .next (s.arrive t).seljoBad := by
  unfold seljoMsg at e
  rw [exec_live hl e]
  simp only [State.arrive_pair, hm, ok, bne_self_eq_false, Bool.not_false, Bool.false_eq_true, ↓reduceIte]

end
end

/-! ## The link goes down (R338, R353) -/

/-- A response that waits leaves from its bay alone. -/
theorem State.sendHeld_other (s : State) {b k : Fin 12} (h : k ≠ b) : (s.sendHeld b).bays[k] = s.bays[k] := by
  have o : OnlyIn (fun x => decide (x = .bay b)) s (s.sendHeld b) := State.sendHeld_only (decide_eq_true rfl) (OnlyIn.refl _ s)
  exact bay_same (o (.outlet k) rfl) (o (.settings k) rfl) (o (.bay k) (decide_eq_false fun e => h (by injection e)))

/-- What the link leaves once it is down, before the role judges it. -/
def State.linkLost (s : State) : State :=
  ((s.setSeljo fun q => { q with up := false, crcStamps := [] }).bump 9).forAll 12 fun b s => s.sendHeld b

theorem State.linkLost_keeps (s : State) : s.linkLost.pair = { s.pair with seljo := { s.pair.seljo with up := false, crcStamps := [] } } ∧
    s.linkLost.mkt = s.mkt ∧ s.linkLost.lat = s.lat := by
  have only : ∀ (v w : State) (b : Fin 12), OnlyIn (fun x => decide (x ∉ [Block.role, .pair, .mkt, .lat])) v w →
      OnlyIn (fun x => decide (x ∉ [Block.role, .pair, .mkt, .lat])) v (w.sendHeld b) := fun v w b h => State.sendHeld_only rfl h
  unfold State.linkLost
  generalize hw : (s.setSeljo fun q => { q with up := false, crcStamps := [] }).bump 9 = w
  have o := State.forAll_keeps (n := 12) (f := fun b s => s.sendHeld b) (OnlyIn (fun x => decide (x ∉ [Block.role, .pair, .mkt, .lat])) w)
    (fun b v h => only w v b h) (OnlyIn.refl _ w)
  rw [pair_same (o .role rfl) (o .pair rfl), show _ = w.mkt from o .mkt rfl, show _ = w.lat from o .lat rfl, ← hw]
  exact ⟨rfl, rfl, rfl⟩

theorem State.seljoDown_up {s : State} (hu : s.pair.seljo.up = true) :
    s.seljoDown = if s.linkLost.pair.role = .standby then s.linkLost.judgeRole else s.linkLost := by
  unfold State.seljoDown State.linkLost
  simp only [hu, Bool.not_true, Bool.false_eq_true, ↓reduceIte]

theorem State.seljoDown_standby {s : State} (hu : s.pair.seljo.up = true) (hr : s.pair.role = .standby) : s.seljoDown = s.linkLost.judgeRole := by
  rw [State.seljoDown_up hu, if_pos (by rw [s.linkLost_keeps.1]; exact hr)]

theorem State.seljoDown_other {s : State} (hu : s.pair.seljo.up = true) (hr : s.pair.role ≠ .standby) : s.seljoDown = s.linkLost := by
  rw [State.seljoDown_up hu, if_neg (by rw [s.linkLost_keeps.1]; exact hr)]

theorem State.seljoDown_down {s : State} (hu : s.pair.seljo.up = false) : s.seljoDown = s := by
  unfold State.seljoDown
  rw [hu]
  rfl

theorem State.setRole_seljo (s : State) (r : Role) (c : Nat) : ∃ x, (s.setRole r c).pair.seljo = { s.pair.seljo with slew := x } := by
  rw [State.setRole_pair]
  split
  · exact ⟨s.pair.seljo.slew, rfl⟩
  · exact ⟨0, rfl⟩

theorem State.enterUnfit_seljo (s : State) (c : Nat) : ∃ x, (s.enterUnfit c).pair.seljo = { s.pair.seljo with slew := x } :=
  State.setRole_seljo ..

/-- A standby whose link is down judges itself by the lite-pair column: it stays, DEGRADED, or it is UNFIT (R353). -/
theorem State.judgeRole_lost {w : State} (hm : w.pair.mode = .full) (hu : w.pair.seljo.up = false) (hr : w.pair.role = .standby) :
    (w.judgeRole.pair.role = .standby ∧ w.judgeRole.pair.degraded = true ∨ w.judgeRole.pair.role = .unfit) ∧
    w.judgeRole.pair.seljo.up = false ∧ w.judgeRole.pair.seljo.err = w.pair.seljo.err := by
  have lite : w.judgedLite = true := by
    simp [State.judgedLite, hm, hu, hr]
  simp only [State.judgeRole, hr, lite]
  generalize hv : State.bumpIf _ _ _ = v
  have pair : v.pair = { w.pair with degraded := true } := by
    rw [← hv, State.bumpIf_pair]
    rfl
  split
  · rw [pair]
    exact ⟨.inl ⟨hr, rfl⟩, hu, rfl⟩
  · obtain ⟨x, e⟩ := v.enterUnfit_seljo (lowestCode v.failing)
    rw [e, pair]
    exact ⟨.inr (v.enterUnfit_role _ (by rw [pair]; simp [hr])).1, hu, rfl⟩

theorem State.judgeRole_market (w : State) : w.judgeRole.mkt = w.mkt ∧ w.judgeRole.lat = w.lat :=
  ⟨(State.judgeRole_only rfl rfl rfl rfl rfl rfl (cs := allSave .mkt) (OnlyIn.refl _ _)) .mkt rfl, (State.judgeRole_only rfl rfl rfl rfl rfl rfl (cs
      := allSave .lat) (OnlyIn.refl _ _)) .lat rfl⟩

/-- However the link goes down, the market and the lattice stay, and so does the count of errors (R338). -/
theorem State.seljoDown_keeps {s : State} (hm : s.pair.mode = .full) : s.seljoDown.pair.seljo.up = false ∧ s.seljoDown.pair.seljo.err =
    s.pair.seljo.err ∧
    s.seljoDown.mkt = s.mkt ∧ s.seljoDown.lat = s.lat := by
  obtain ⟨pair, mkt, lat⟩ := s.linkLost_keeps
  cases hu : s.pair.seljo.up with
  | false =>
    rw [State.seljoDown_down hu]
    exact ⟨hu, rfl, rfl, rfl⟩
  | true =>
    by_cases hr : s.pair.role = .standby
    · rw [State.seljoDown_standby hu hr]
      obtain ⟨mkt', lat'⟩ := s.linkLost.judgeRole_market
      obtain ⟨_, up, err⟩ := State.judgeRole_lost (w := s.linkLost) (by rw [pair]; exact hm) (by rw [pair]) (by rw [pair]; exact hr)
      exact ⟨up, by rw [err, pair], mkt'.trans mkt, lat'.trans lat⟩
    · rw [State.seljoDown_other hu hr, pair]
      exact ⟨rfl, rfl, mkt, lat⟩

/-! ## A message with a wrong CRC (R338) -/

/-- The stamps of the wrong CRCs of the last 1 ms before one more at `now`. -/
def recentStamps (q : Seljo) (now : Nat) : List Nat := q.crcStamps.filter fun x => decide (now < x + 1000000)

theorem State.seljoBad_counts {s : State} (h : (recentStamps s.pair.seljo s.mt).length < 3) :
    s.seljoBad = s.setSeljo fun q => { q with err := satInc 8 q.err, crcStamps := s.mt :: recentStamps q s.mt } := by
  unfold State.seljoBad
  refine if_neg (Nat.not_le.2 ?_)
  exact Nat.succ_lt_succ h

theorem State.seljoBad_downs {s : State} (h : 3 ≤ (recentStamps s.pair.seljo s.mt).length) :
    s.seljoBad = (s.setSeljo fun q => { q with err := satInc 8 q.err, crcStamps := s.mt :: recentStamps q s.mt }).seljoDown := by
  unfold State.seljoBad
  refine if_pos ?_
  exact Nat.succ_le_succ h

section
variable {s : State} {t : Nat} (hl : s.live = true) (hm : s.pair.mode = .full)
include hl hm

theorem seljoMsg_dropped {k : Fin 9} {c : Instr} {head : SeljoHead} {f : State → State} (e : exec c s = .next (seljoMsg t k head f s))
    (bad : seljoOk k.val head = false) :
    ((recentStamps s.pair.seljo (max s.mt t)).length < 3 → Completes c s fun u =>
      u.pair = { s.pair with seljo := { s.pair.seljo with err := satInc 8 s.pair.seljo.err, crcStamps := max s.mt t :: recentStamps s.pair.seljo (max
          s.mt t) } } ∧
      u.mkt = s.mkt ∧ u.lat = s.lat) ∧
    (3 ≤ (recentStamps s.pair.seljo (max s.mt t)).length → Completes c s fun u =>
      u.pair.seljo.up = false ∧ u.pair.seljo.err = satInc 8 s.pair.seljo.err ∧ u.mkt = s.mkt ∧ u.lat = s.lat) := by
  refine ⟨fun h => Completes.of (seljoMsg_bad hl hm e bad) ?_, fun h => Completes.of (seljoMsg_bad hl hm e bad) ?_⟩
  · rw [State.seljoBad_counts (s := s.arrive t) h]
    exact ⟨rfl, rfl, rfl⟩
  · rw [State.seljoBad_downs (s := s.arrive t) h]
    exact State.seljoDown_keeps (s := (s.arrive t).setSeljo _) hm

end

/-! ## TIME (R340) -/

/-- An exchange whose doubled offset is even needs no rounding. -/
theorem seljoOffset_even {t1 t2 t3 t4 : Nat} {o : Int} (h : ((t2 : Int) - t1) - ((t4 : Int) - t3) = 2 * o) : seljoOffset t1 t2 t3 t4 = o := by
  unfold seljoOffset someRound
  rw [h, if_pos (by omega)]
  omega

/-- The module that follows goes to the offset. -/
def State.followed (s : State) (o : Int) (d : Nat) : State :=
  (if s.pair.seljo.stepPend && decide (0 < o) then s.stepTime o.toNat else s).setSeljo fun q =>
    lockStep { q with stepPend := false, slew := if o < 0 ∧ !q.lock then -1000 else 0 } d

theorem State.followed_pair (s : State) (o : Int) (d : Nat) : (s.followed o d).pair =
    { s.pair with seljo := lockStep { s.pair.seljo with stepPend := false, slew := if o < 0 ∧ !s.pair.seljo.lock then -1000 else 0 } d } := by
  unfold State.followed
  split <;> rfl

theorem State.followed_mt (s : State) (o : Int) (d : Nat) : (s.followed o d).mt =
    s.mt + (if s.pair.seljo.stepPend = true ∧ 0 < o then o.toNat else 0) := by
  unfold State.followed
  simp only [Bool.and_eq_true, decide_eq_true_eq]
  split <;> rfl

/-- What the lock, once held, does to PAIR: the slew alone. -/
theorem State.lockHeld_keeps (w : State) (was : Bool) :
    ∃ x, (if w.pair.seljo.lock then (if was then w.lockedSlew else w.trainLocked) else w).pair =
        { w.pair with seljo := { w.pair.seljo with slew := x } } ∧
      (if w.pair.seljo.lock then (if was then w.lockedSlew else w.trainLocked) else w).mt = w.mt := by
  split
  · split
    · exact ⟨_, rfl, rfl⟩
    · have o : OnlyIn (fun x => decide (x ∉ [Block.role, .pair, .mt])) w w.trainLocked :=
        State.trainLocked_only rfl rfl (fun _ => rfl) (OnlyIn.refl _ w)
      exact ⟨w.pair.seljo.slew, pair_same (o .role rfl) (o .pair rfl), o .mt rfl⟩
  · exact ⟨w.pair.seljo.slew, rfl, rfl⟩

theorem State.follow_keeps (s : State) {o : Int} (d : Nat) (h : -1000000000 ≤ o) : ∃ x,
    (s.follow o d).pair = { s.pair with seljo := { lockStep { s.pair.seljo with stepPend := false } d with slew := x } } ∧
    (s.follow o d).mt = s.mt + (if s.pair.seljo.stepPend = true ∧ 0 < o then o.toNat else 0) := by
  have steps : ∀ q : Seljo, ∀ y x : Int, { lockStep { q with stepPend := false, slew := y } d with slew := x } =
      { lockStep { q with stepPend := false } d with slew := x } := fun q y x => by
    unfold lockStep
    dsimp only
    split <;> split <;> rfl
  have unfolded : s.follow o d = (let w := (s.followed o d).bumpIf ((s.followed o d).pair.seljo.lock != s.pair.seljo.lock) 9
      if w.pair.seljo.lock then (if s.pair.seljo.lock then w.lockedSlew else w.trainLocked) else w) := by
    unfold State.follow
    rw [if_neg (Int.not_lt.2 h)]
    rfl
  rw [unfolded]
  dsimp only
  obtain ⟨x, pair, mt⟩ := ((s.followed o d).bumpIf ((s.followed o d).pair.seljo.lock != s.pair.seljo.lock) 9).lockHeld_keeps s.pair.seljo.lock
  refine ⟨x, ?_, ?_⟩
  · rw [pair, State.bumpIf_pair, State.followed_pair]
    dsimp only
    rw [steps]
  · rw [mt, State.bumpIf_mt, State.followed_mt]

/-- What an exchange makes of the lock (R340). -/
theorem lockStep_parts (q : Seljo) (o : Int) : let v := lockStep q (2 * o).natAbs
    v.goodRun = (if o.natAbs ≤ 4 then min 16 (q.goodRun + 1) else 0) ∧ (8 < o.natAbs → v.lock = false) ∧
    (o.natAbs ≤ 4 → q.goodRun = 15 → v.lock = true) ∧ (o.natAbs ≤ 8 → q.lock = true → v.lock = true) ∧
    v.offset = q.offset ∧ v.stepPend = q.stepPend := by
  have run : (if (2 * o).natAbs ≤ 8 then min 16 (q.goodRun + 1) else 0) = if o.natAbs ≤ 4 then min 16 (q.goodRun + 1) else 0 := by
    by_cases h : o.natAbs ≤ 4
    · rw [if_pos h, if_pos (by omega)]
    · rw [if_neg h, if_neg (by omega)]
  unfold lockStep
  dsimp only
  rw [run]
  split
  · exact ⟨rfl, fun _ => rfl, fun h => absurd h (by omega), fun h => absurd h (by omega), rfl, rfl⟩
  · refine ⟨rfl, fun h => absurd h (by omega), fun h g => ?_, fun _ g => by simp [g], rfl, rfl⟩
    simp [h, g]

section
variable {s : State} {t : Nat} (hl : s.live = true) (hm : s.pair.mode = .full) {head : SeljoHead}
include hl hm

section
variable (ok : seljoOk 1 head = true) {t1 t2 t3 t4 : Nat} {o : Int} (ho : ((t2 : Int) - t1) - ((t4 : Int) - t3) = 2 * o)
include ok ho

theorem seljoTime_next : exec (.seljoTime t head t1 t2 t3 t4) s = .next (
    let w := ((s.arrive t).notedSeq 1 head).setSeljo fun q => { q with offset := clampInt (-32768) 32767 o }
    if s.follows then w.follow o (2 * o).natAbs else w) := by
  rw [seljoMsg_next hl hm (k := 1) rfl ok, seljoOffset_even ho, ho]
  rfl

theorem seljoTime_noted (hf : s.follows = false) : Completes (.seljoTime t head t1 t2 t3 t4) s fun u =>
    u.pair = { s.pair with seljo := { s.pair.seljo with got := vupd s.pair.seljo.got 1 fun _ => head.seq, offset := clampInt (-32768) 32767 o } } ∧
    u.mt = max s.mt t := by
  refine Completes.of (seljoTime_next hl hm ok ho) ?_
  dsimp only
  rw [hf]
  exact ⟨rfl, rfl⟩

theorem seljoTime_ahead (hf : s.follows = true) (hr : s.pair.role ≠ .unfit) (h : o < -1000000000) : Completes (.seljoTime t head t1 t2 t3 t4) s fun u
    =>
    u.pair.role = .unfit ∧ u.pair.unfitCode = 3 ∧ u.pair.seljo.lock = false := by
  refine Completes.of (seljoTime_next hl hm ok ho) ?_
  dsimp only
  rw [hf, if_pos rfl]
  unfold State.follow
  rw [if_pos h]
  generalize hw : State.setSeljo _ (fun q : Seljo => { q with lock := false, goodRun := 0 }) = w
  have parts : w.pair.role = s.pair.role ∧ w.pair.seljo.lock = false := by
    rw [← hw]
    exact ⟨rfl, rfl⟩
  obtain ⟨role, lock⟩ := parts
  obtain ⟨unfit, _, _, code⟩ := w.enterUnfit_role 3 (by rw [role]; exact hr)
  obtain ⟨x, e⟩ := w.enterUnfit_seljo 3
  exact ⟨unfit, code, by rw [e]; exact lock⟩

theorem seljoTime_follows (hf : s.follows = true) (h : -1000000000 ≤ o) : Completes (.seljoTime t head t1 t2 t3 t4) s fun u =>
    u.pair.role = s.pair.role ∧ u.pair.seljo.offset = clampInt (-32768) 32767 o ∧ u.pair.seljo.stepPend = false ∧
    u.mt = max s.mt t + (if s.pair.seljo.stepPend = true ∧ 0 < o then o.toNat else 0) ∧
    u.pair.seljo.goodRun = (if o.natAbs ≤ 4 then min 16 (s.pair.seljo.goodRun + 1) else 0) ∧
    (8 < o.natAbs → u.pair.seljo.lock = false) ∧ (o.natAbs ≤ 4 → s.pair.seljo.goodRun = 15 → u.pair.seljo.lock = true) ∧
    (o.natAbs ≤ 8 → s.pair.seljo.lock = true → u.pair.seljo.lock = true) := by
  refine Completes.of (seljoTime_next hl hm ok ho) ?_
  dsimp only
  rw [hf, if_pos rfl]
  obtain ⟨x, pair, mt⟩ := State.follow_keeps (((s.arrive t).notedSeq 1 head).setSeljo fun q => { q with offset := clampInt (-32768) 32767 o }) (2 *
      o).natAbs h
  rw [pair, mt]
  obtain ⟨run, far, gained, kept, offset, step⟩ := lockStep_parts { s.pair.seljo with
    got := vupd s.pair.seljo.got 1 fun _ => head.seq, offset := clampInt (-32768) 32767 o, stepPend := false } o
  exact ⟨rfl, offset, step, rfl, run, far, gained, kept⟩

end

/-! ## SESSION (R229, R343) -/

section
variable (ok : seljoOk 4 head = true) {b : Fin 12} {x : Session}
include ok

omit hl hm ok in
theorem State.takeSession_bay (w : State) (tm : Nat) : (w.takeSession tm b x).bays[b].session = x ∧
    (w.takeSession tm b x).bays[b].pilot.plca = (x.st != .idle) ∧
    (w.takeSession tm b x).bays[b].outlet.close = (sessCloses x.st && (w.saf.stops[b].st == .none || w.saf.stops[b].st == .ramp)) := by
  unfold State.takeSession
  dsimp only
  generalize hv : State.bumpIf _ _ _ = v
  have bay : v.bays[b].session = x ∧ v.bays[b].pilot.plca = (x.st != .idle) := by
    rw [← hv, State.bumpIf_bays, State.setBay_self]
    exact ⟨rfl, rfl⟩
  have kept : (v.commitTarget tm b x.target).bays = v.bays := by
    unfold State.commitTarget
    split
    · next y _ =>
      obtain ⟨l, e⟩ := v.commitWord_eq tm y.tileId 4 (min 32767 (16 * x.target) : Nat)
      rw [e]
    · rfl
  obtain ⟨k, e⟩ := (v.commitTarget tm b x.target).commandOutlet_bay b (sessCloses x.st && (w.saf.stops[b].st == .none || w.saf.stops[b].st == .ramp))
  rw [e, kept]
  exact ⟨bay.1, bay.2, rfl⟩

theorem seljoSession_next (hr : s.pair.role ≠ .active) (hk : s.pairKey.isSome = true) : exec (.seljoSession t head b x) s = .next (
    ((((s.arrive t).notedSeq 4 head).serveUse .marketSup 9).takeSession head.time b x).setSeljo fun q =>
      { q with ack := if head.flags.testBit 0 then some (4, head.seq) else q.ack }) := by
  have key : ((s.arrive t).notedSeq 4 head).pairKey = s.pairKey := rfl
  rw [seljoMsg_next hl hm (k := 4) rfl ok, if_neg (by exact hr), key, if_neg (by simp [Option.isNone_iff_eq_none, Option.isSome_iff_ne_none.1 hk])]

theorem seljoSession_opens (hr : s.pair.role ≠ .active) (hk : s.pairKey.isSome = true) : Completes (.seljoSession t head b x) s fun u =>
    u.bays[b].session = x ∧ u.bays[b].pilot.plca = (x.st != .idle) ∧
    u.bays[b].outlet.close = (sessCloses x.st && (s.saf.stops[b].st == .none || s.saf.stops[b].st == .ramp)) ∧
    u.pair.seljo.ack = (if head.flags.testBit 0 then some (4, head.seq) else s.pair.seljo.ack) ∧ ∀ k, k ≠ b → u.bays[k] = s.bays[k] := by
  refine Completes.of (seljoSession_next hl hm ok hr hk) ?_
  generalize hv : ((s.arrive t).notedSeq 4 head).serveUse .marketSup 9 = v
  have o : OnlyIn (fun y => decide (y ∈ [Block.sums, .viol, .capture, .vault, .queues])) ((s.arrive t).notedSeq 4 head) v := by
    rw [← hv]
    exact State.serveUse_only rfl rfl rfl rfl rfl (OnlyIn.refl _ _)
  have bays : v.bays = s.bays := by
    rw [← hv, State.serveUse_bays]
    rfl
  have saf : v.saf = s.saf := o .saf rfl
  have pair : v.pair = ((s.arrive t).notedSeq 4 head).pair := pair_same (o .role rfl) (o .pair rfl)
  obtain ⟨session, plca, close⟩ := v.takeSession_bay (b := b) (x := x) head.time
  rw [saf] at close
  have only : OnlyIn (fun y => decide (y ∈ [Block.sums, .lat, .outlet b, .bay b])) v (v.takeSession head.time b x) :=
    State.takeSession_only rfl rfl (by simp) (by simp) (OnlyIn.refl _ v)
  have pair' : (v.takeSession head.time b x).pair = v.pair := pair_same (only .role rfl) (only .pair rfl)
  refine ⟨session, plca, close, ?_, fun k hk => ?_⟩
  · show (if head.flags.testBit 0 then some (4, head.seq) else (v.takeSession head.time b x).pair.seljo.ack) = _
    rw [pair', pair]
    rfl
  · have other : (v.takeSession head.time b x).bays[k] = v.bays[k] := bay_same (only (.outlet k) (by simp [hk])) (only (.settings k) rfl) (only (.bay
      k) (by simp [hk]))
    refine other.trans ?_
    simp only [bays]

theorem seljoSession_closed (h : s.pair.role = .active ∨ s.pairKey = none) : Completes (.seljoSession t head b x) s fun u => u.bays = s.bays := by
  refine Completes.of (seljoMsg_next hl hm (k := 4) rfl ok) ?_
  have key : ((s.arrive t).notedSeq 4 head).pairKey = s.pairKey := rfl
  by_cases hr : s.pair.role = .active
  · rw [if_pos (by exact hr)]
    rfl
  · rw [if_neg (by exact hr), key, h.resolve_left hr, Option.isNone_none, if_pos rfl, State.serveUse_bays]
    rfl

end

/-! ## HEALTH and CTRL (R350, R352, R355) -/

theorem seljoHealth_notes (ok : seljoOk 7 head = true) (bits : Nat) : Completes (.seljoHealth t head bits) s fun u => u.pair =
    { s.pair with partner := { s.pair.partner with health := bits % 2048 },
                  seljo := { s.pair.seljo with got := vupd s.pair.seljo.got 7 fun _ => head.seq } } := by
  refine Completes.of (seljoMsg_next hl hm (k := 7) rfl ok) ?_
  rw [State.bumpIf_pair]
  rfl

section
variable (ok : seljoOk 8 head = true)
include ok

theorem seljoCtrl_releasing : Completes (.seljoCtrl t head .releasing) s fun u => u.pair =
    { s.pair with seljo := { s.pair.seljo with got := vupd s.pair.seljo.got 8 fun _ => head.seq, partnerReleasing := true } } ∧ u.prof = s.prof :=
  Completes.of (seljoMsg_next hl hm (k := 8) rfl ok) ⟨rfl, rfl⟩

theorem seljoCtrl_released : Completes (.seljoCtrl t head .released) s fun u => u.pair =
    { s.pair with seljo := { s.pair.seljo with got := vupd s.pair.seljo.got 8 fun _ => head.seq } } ∧ u.prof = s.prof :=
  Completes.of (seljoMsg_next hl hm (k := 8) rfl ok) ⟨rfl, rfl⟩

theorem seljoCtrl_loaded (slot : Fin 4) (uid : Bytes) (ha : s.active = true) : Completes (.seljoCtrl t head (.profile slot uid)) s fun u =>
    u.pair = { s.pair with seljo := { s.pair.seljo with got := vupd s.pair.seljo.got 8 fun _ => head.seq, partnerLoaded := some (slot.val, uid) } } ∧
    ∀ x, s.prof.pend = some x → x.mode = .handover → x.slot = slot → x.image.header.uid = uid → x.loaded = none →
      u.prof.pend = some { x with loaded := some (max s.mt t) } := by
  refine Completes.of (seljoMsg_next hl hm (k := 8) rfl ok) ?_
  have active : ((s.arrive t).notedSeq 8 head).active = true := ha
  have pend' : ((s.arrive t).notedSeq 8 head).prof.pend = s.prof.pend := rfl
  dsimp only
  rw [active, if_pos rfl]
  unfold State.partnerHolds
  dsimp only
  generalize hw : State.setSeljo _ (fun q : Seljo => { q with partnerLoaded := some (slot.val, uid) }) = w
  have parts : w.pair = { s.pair with seljo := { s.pair.seljo with got := vupd s.pair.seljo.got 8 fun _ => head.seq, partnerLoaded := some (slot.val,
      uid) } } ∧
      w.prof = s.prof ∧ w.mt = max s.mt t := by
    rw [← hw]
    exact ⟨rfl, rfl, rfl⟩
  obtain ⟨pair, prof, mt⟩ := parts
  rw [← mt, ← prof]
  cases hp : w.prof.pend with
  | none => exact ⟨pair, fun x hx => nomatch hx⟩
  | some y =>
    refine ⟨?_, fun x hx hmode hslot huid hload => ?_⟩
    · dsimp only
      split <;> exact pair
    · obtain rfl := Option.some.inj hx
      dsimp only
      rw [if_pos ⟨hmode, hslot, huid, by rw [hload]; rfl⟩]

theorem seljoCtrl_checks (slot : Fin 4) (uid : Bytes) (ha : s.active = false) (hf : s.mayFollowProfile slot uid = true) :
    Completes (.seljoCtrl t head (.profile slot uid)) s fun u =>
      u.prof.slots[slot].st = .checking ∧ u.prof.check.map (·.slot) = some slot ∧ u.prof.check.bind (·.activate) = some .handover := by
  refine Completes.of (seljoMsg_next hl hm (k := 8) rfl ok) ?_
  have active : ((s.arrive t).notedSeq 8 head).active = false := ha
  have follow : ((s.arrive t).notedSeq 8 head).mayFollowProfile slot uid = true := hf
  dsimp only
  rw [active, if_neg (by decide), follow, if_pos rfl]
  obtain ⟨st, check, _⟩ := ((s.arrive t).notedSeq 8 head).startCheck_prof .marketSup slot (some .handover)
  rw [st, check]
  exact ⟨rfl, rfl, rfl⟩

theorem seljoCtrl_ignored (slot : Fin 4) (uid : Bytes) (ha : s.active = false) (hf : s.mayFollowProfile slot uid = false) :
    Completes (.seljoCtrl t head (.profile slot uid)) s fun u => u.prof = s.prof := by
  refine Completes.of (seljoMsg_next hl hm (k := 8) rfl ok) ?_
  have active : ((s.arrive t).notedSeq 8 head).active = false := ha
  have follow : ((s.arrive t).notedSeq 8 head).mayFollowProfile slot uid = false := hf
  dsimp only
  rw [active, if_neg (by decide), follow, if_neg (by decide)]
  rfl

end

/-! ## The response that waits for its acknowledgement (R343) -/

omit hl hm in
theorem State.sendHeld_bay {w : State} {b : Fin 12} {r : Resp} (hh : w.bays[b].heldResp = some r) (ha : w.active = true) :
    (w.sendHeld b).bays[b].resp = some r ∧ (w.sendHeld b).bays[b].heldResp = none := by
  have sends : w.sendHeld b = w.sendResp b r := by
    simp only [State.sendHeld, hh, ha, ↓reduceIte]
  obtain ⟨z, y, e⟩ := w.sendResp_self b r
  rw [sends, e]
  exact ⟨rfl, rfl⟩

omit hm in
theorem seljoSessionAck_sends {b : Fin 12} {r : Resp} (hh : s.bays[b].heldResp = some r) (ha : s.active = true) :
    Completes (.seljoSessionAck t b) s fun u => u.bays[b].resp = some r ∧ u.bays[b].heldResp = none :=
  Completes.live hl rfl (State.sendHeld_bay (w := s.arrive t) hh ha)

omit hm in
theorem seljoSessionAck_none {b : Fin 12} (hh : s.bays[b].heldResp = none) : Completes (.seljoSessionAck t b) s fun u => u.bays = s.bays := by
  refine Completes.live hl rfl ?_
  unfold State.sendHeld
  rw [show (s.arrive t).bays[b].heldResp = none from hh]
  rfl

/-! ## The link comes up and goes down (R338, R353) -/

section
variable (hu : s.pair.seljo.up = false)
include hu

theorem seljoLinkUp_standby (hr : s.pair.role = .standby) : Completes (.seljoLinkUp t) s fun u =>
    u.pair.seljo.up = true ∧ u.pair.role = .syncing ∧ u.pair.seljo.lock = false ∧ u.pair.seljo.captured = false := by
  refine Completes.live hl rfl ?_
  have role : (((s.arrive t).setSeljo fun q => { q with up := true }).bump 9).pair.role = .standby := hr
  simp only [State.arrive_pair, hm, hu, bne_self_eq_false, Bool.or_self, Bool.false_eq_true, ↓reduceIte, role]
  generalize hw : State.bump _ _ = w
  have up : w.pair.seljo.up = true := by
    rw [← hw]
    rfl
  have syncing := (w.enterSyncing_role 0).1
  unfold State.enterSyncing at syncing ⊢
  obtain ⟨x, e⟩ := ((w.setPair fun p => { p with activeO := false, degraded := false }).setSeljo restartSync).setRole_seljo .syncing 0
  rw [e]
  exact ⟨up, syncing, rfl, rfl⟩

theorem seljoLinkUp_syncing (hr : s.pair.role = .syncing) : Completes (.seljoLinkUp t) s fun u =>
    u.pair.seljo.up = true ∧ u.pair.role = .syncing ∧ u.pair.seljo.lock = false ∧ u.pair.seljo.captured = false := by
  refine Completes.live hl rfl ?_
  have role : (((s.arrive t).setSeljo fun q => { q with up := true }).bump 9).pair.role = .syncing := hr
  simp only [State.arrive_pair, hm, hu, bne_self_eq_false, Bool.or_self, Bool.false_eq_true, ↓reduceIte, role]
  exact ⟨rfl, hr, rfl, rfl⟩

theorem seljoLinkUp_other (h1 : s.pair.role ≠ .standby) (h2 : s.pair.role ≠ .syncing) : Completes (.seljoLinkUp t) s fun u =>
    u.pair = { s.pair with seljo := { s.pair.seljo with up := true } } := by
  refine Completes.live hl rfl ?_
  rw [if_neg (by rw [State.arrive_pair, hm, hu]; decide)]
  dsimp only
  split
  · next h => exact absurd h h1
  · next h => exact absurd h h2
  · rfl

omit hm in
theorem seljoLinkDown_down : Completes (.seljoLinkDown t) s fun u => u.pair = s.pair ∧ u.bays = s.bays := by
  refine Completes.live hl rfl ?_
  rw [State.seljoDown_down (s := s.arrive t) hu]
  exact ⟨rfl, rfl⟩

end

section
variable (hu : s.pair.seljo.up = true)
include hu

omit hm in
theorem seljoLinkUp_up : Completes (.seljoLinkUp t) s fun u => u.pair = s.pair := by
  refine Completes.live hl rfl ?_
  simp [hu]

omit hl hm hu in
/-- Every response that waits leaves while the module holds ACTIVE. -/
theorem State.linkLost_bay {w : State} (ha : w.active = true) {b : Fin 12} {r : Resp} (hh : w.bays[b].heldResp = some r) :
    w.linkLost.bays[b].resp = some r ∧ w.linkLost.bays[b].heldResp = none := by
  have pair : ∀ (v : State) (k : Fin 12), (v.sendHeld k).pair = v.pair := fun v k => by
    have o : OnlyIn notPair v (v.sendHeld k) := State.sendHeld_only rfl (OnlyIn.refl _ v)
    exact pair_same (o .role rfl) (o .pair rfl)
  have active : ∀ (v : State) (k : Fin 12), (v.sendHeld k).active = v.active := fun v k => by
    unfold State.active
    rw [pair]
  unfold State.linkLost
  refine State.forAll_at b (Q := fun v => v.active = true ∧ v.bays[b].heldResp = some r)
    (R := fun v => v.bays[b].resp = some r ∧ v.bays[b].heldResp = none) (fun k v hk h => ?_) (fun v h => ?_) (fun k v hk h => ?_) _ ⟨ha, hh⟩
  · rw [active, State.sendHeld_other v hk.symm]
    exact h
  · exact State.sendHeld_bay h.2 h.1
  · rw [State.sendHeld_other v hk.symm]
    exact h

omit hm in
theorem seljoLinkDown_other {b : Fin 12} (hr : s.pair.role ≠ .standby) : Completes (.seljoLinkDown t) s fun u =>
    u.pair = { s.pair with seljo := { s.pair.seljo with up := false, crcStamps := [] } } ∧
    (s.active = true → ∀ r, s.bays[b].heldResp = some r → u.bays[b].resp = some r ∧ u.bays[b].heldResp = none) := by
  refine Completes.live hl rfl ?_
  rw [State.seljoDown_other (s := s.arrive t) hu hr]
  exact ⟨(s.arrive t).linkLost_keeps.1, fun ha r hh => State.linkLost_bay (w := s.arrive t) ha hh⟩

theorem seljoLinkDown_standby (hr : s.pair.role = .standby) : Completes (.seljoLinkDown t) s fun u =>
    u.pair.seljo.up = false ∧ (u.pair.role = .standby ∧ u.pair.degraded = true ∨ u.pair.role = .unfit) := by
  refine Completes.live hl rfl ?_
  rw [State.seljoDown_standby (s := s.arrive t) hu hr]
  have pair := (s.arrive t).linkLost_keeps.1
  obtain ⟨role, up, _⟩ := State.judgeRole_lost (w := (s.arrive t).linkLost) (by rw [pair]; exact hm) (by rw [pair]) (by rw [pair]; exact hr)
  exact ⟨up, role⟩

end
end

/-- Settles O42. -/
theorem seljoLink : Obligations.SeljoLink := by
  unfold Obligations.SeljoLink
  intro s t head pm b hl hm
  refine ⟨fun k c hc bad => ?_, fun ok t1 t2 t3 t4 o ho => ⟨seljoTime_noted hl hm ok ho, seljoTime_ahead hl hm ok ho, seljoTime_follows hl hm ok ho⟩,
    fun ok x => ⟨seljoSession_opens hl hm ok, seljoSession_closed hl hm ok⟩, fun ok bits => seljoHealth_notes hl hm ok bits,
    fun ok => ⟨seljoCtrl_releasing hl hm ok, seljoCtrl_released hl hm ok,
      fun slot uid => ⟨seljoCtrl_loaded hl hm ok slot uid, seljoCtrl_checks hl hm ok slot uid, seljoCtrl_ignored hl hm ok slot uid⟩⟩,
    fun r hh ha => seljoSessionAck_sends hl hh ha, seljoSessionAck_none hl,
    fun hu => ⟨seljoLinkUp_standby hl hm hu, seljoLinkUp_syncing hl hm hu, seljoLinkUp_other hl hm hu, seljoLinkDown_down hl hu⟩,
    fun hu => ⟨seljoLinkUp_up hl hu, seljoLinkDown_other hl hu, seljoLinkDown_standby hl hm hu⟩⟩
  simp only [List.mem_cons, List.not_mem_nil, or_false, Prod.mk.injEq] at hc
  obtain ⟨rfl, rfl⟩ | ⟨rfl, rfl⟩ | ⟨rfl, rfl⟩ | ⟨rfl, rfl⟩ | ⟨rfl, rfl⟩ | ⟨rfl, rfl⟩ := hc
  · exact seljoMsg_dropped hl hm (k := 1) rfl bad
  · exact seljoMsg_dropped hl hm (k := 2) rfl bad
  · exact seljoMsg_dropped hl hm (k := 4) rfl bad
  · exact seljoMsg_dropped hl hm (k := 6) rfl bad
  · exact seljoMsg_dropped hl hm (k := 7) rfl bad
  · exact seljoMsg_dropped hl hm (k := 8) rfl bad

end Sys2Proof.Machine
end

section
/-! PROOFS. What a module without ACTIVE does with its partner's inputs (R339, R341, R344, R347). -/
namespace Sys2Proof.Machine

/-! ## Divergence and agreement (R344, R347) -/

/-- Synchronisation back at its step 4 after a disagreement. -/
def Diverged (s u : State) : Prop :=
  u.pair.role = .syncing ∧ u.pair.divergeCnt = satInc 8 s.pair.divergeCnt ∧ u.pair.seljo.captured = false ∧ u.pair.seljo.agreePitch = 0 ∧
  u.pair.seljo.agreeTick = 0

theorem State.diverge_diverged (s : State) : Diverged s s.diverge ∧ s.diverge.pair.seljo.replay = [] ∧ s.diverge.pair.seljo.pitch =
    s.pair.seljo.pitch := by
  unfold State.diverge
  dsimp only
  generalize hw : State.setSeljo _ _ = w
  have parts : w.pair.divergeCnt = satInc 8 s.pair.divergeCnt ∧ w.pair.seljo.captured = false ∧ w.pair.seljo.agreePitch = 0 ∧
      w.pair.seljo.agreeTick = 0 ∧ w.pair.seljo.replay = [] ∧ w.pair.seljo.pitch = s.pair.seljo.pitch := by
    rw [← hw]
    exact ⟨rfl, rfl, rfl, rfl, rfl, rfl⟩
  obtain ⟨count, captured, agreeP, agreeT, replay, pitch⟩ := parts
  unfold Diverged
  rw [State.setRole_pair]
  split
  · next h => exact ⟨⟨h, count, captured, agreeP, agreeT⟩, replay, pitch⟩
  · exact ⟨⟨rfl, count, captured, agreeP, agreeT⟩, replay, pitch⟩

/-- A module that synchronises without its state does not shadow. -/
theorem State.shadows_uncaptured {s : State} (hr : s.pair.role = .syncing) (hc : s.pair.seljo.captured = false) : s.shadows = false := by
  simp [State.shadows, hr, hc]

/-- A module that shadows is a standby or on its way to it. -/
theorem State.shadows_role {s : State} (h : s.shadows = true) : s.pair.role = .standby ∨ s.pair.role = .syncing := by
  simp only [State.shadows, Bool.and_eq_true, Bool.or_eq_true, beq_iff_eq] at h
  exact h.2.imp id fun h => h.1

theorem State.judgePitch_none {s : State} {b d : Nat} (h : ∀ x, s.pair.seljo.pitchDigest ≠ some (b, x)) : s.judgePitch b d = s := by
  unfold State.judgePitch
  split
  · next c x e => exact if_pos (.inl fun y => h x (by rw [e, y]))
  · rfl

theorem State.judgePitch_agrees {s : State} {b d : Nat} (hs : s.shadows = true) (h : s.pair.seljo.pitchDigest = some (b, d)) : s.judgePitch b d =
    s.setSeljo fun q => { q with agreePitch := inSequence q.agreedPitch (b - s.pitchNs) q.agreePitch, agreedPitch := b } := by
  simp [State.judgePitch, h, hs]

theorem State.judgePitch_diverges {s : State} {b d x : Nat} (hs : s.shadows = true) (h : s.pair.seljo.pitchDigest = some (b, x)) (hd : x ≠ d) :
    s.judgePitch b d = s.diverge := by
  simp only [State.judgePitch, h, hs, ne_eq, not_true_eq_false, Bool.not_true, Bool.false_eq_true, or_self, ↓reduceIte]
  exact if_neg hd

section
variable {s : State} {t : Nat} (hl : s.live = true) (hm : s.pair.mode = .full) {head : SeljoHead}
include hl hm

/-! ## PITCH (R341, R347) -/

section
variable {img : Image} (hi : s.prof.image = some img) (ok : seljoOk 2 head = true) (msg : PitchMsg)
include ok

omit hl hm ok in
/-- The inputs of a pitch wait for the shadow window; before CAPTURE they are kept for the replay. -/
def State.keepInputs (s : State) (item : Nat × List (Nat × Bool × Bytes)) : State :=
  let s := s.setSeljo fun q => { q with pitch := some item }
  if s.shadows then s else s.setSeljo fun q => { q with replay := q.replay ++ [item] }

include hi in
theorem seljoPitch_next (hr : s.pair.role = .standby ∨ s.pair.role = .syncing) : exec (.seljoPitch t head msg) s = .next
    ((((s.arrive t).notedSeq 2 head).judgePitch head.time msg.digest).keepInputs (head.time, pitchItems img.header.stallMask msg)) := by
  have image : ((s.arrive t).notedSeq 2 head).prof.image = some img := hi
  have role : ¬ (((s.arrive t).notedSeq 2 head).pair.role != .standby && ((s.arrive t).notedSeq 2 head).pair.role != .syncing) = true := by
    show ¬ (s.pair.role != .standby && s.pair.role != .syncing) = true
    rcases hr with hr | hr <;> rw [hr] <;> decide
  rw [seljoMsg_next hl hm (k := 2) rfl ok]
  simp only [image]
  rw [if_neg role]
  rfl

include hi in
theorem seljoPitch_keeps (hr : s.pair.role = .standby ∨ s.pair.role = .syncing) (hd : ∀ x, s.pair.seljo.pitchDigest ≠ some (head.time, x)) :
    Completes (.seljoPitch t head msg) s fun u => u.pair = { s.pair with seljo := { s.pair.seljo with
      got := vupd s.pair.seljo.got 2 fun _ => head.seq, pitch := some (head.time, pitchItems img.header.stallMask msg),
      replay := if s.shadows then s.pair.seljo.replay else s.pair.seljo.replay ++ [(head.time, pitchItems img.header.stallMask msg)] } } := by
  refine Completes.of (seljoPitch_next hl hm hi ok msg hr) ?_
  rw [State.judgePitch_none (s := (s.arrive t).notedSeq 2 head) hd]
  unfold State.keepInputs
  dsimp only
  rw [show ∀ f : Seljo → Seljo, (∀ q, (f q).captured = q.captured) → (((s.arrive t).notedSeq 2 head).setSeljo f).shadows = s.shadows from fun f hf =>
      by
    show (s.pair.mode == .full && (s.pair.role == .standby || (s.pair.role == .syncing && (f _).captured))) = _
    rw [hf]
    rfl]
  · split <;> rfl
  · exact fun _ => rfl

omit hl hm ok in
theorem State.keepInputs_shadowing {w : State} (h : w.shadows = true) (item : Nat × List (Nat × Bool × Bytes)) :
    w.keepInputs item = w.setSeljo fun q => { q with pitch := some item } := by
  unfold State.keepInputs
  exact if_pos h

include hi in
theorem seljoPitch_agrees (hs : s.shadows = true) (hd : s.pair.seljo.pitchDigest = some (head.time, msg.digest)) :
    Completes (.seljoPitch t head msg) s fun u => u.pair = { s.pair with seljo := { s.pair.seljo with
      got := vupd s.pair.seljo.got 2 fun _ => head.seq, pitch := some (head.time, pitchItems img.header.stallMask msg), agreedPitch := head.time,
      agreePitch := if s.pair.seljo.agreedPitch = head.time - s.pitchNs then s.pair.seljo.agreePitch + 1 else 1 } } := by
  refine Completes.of (seljoPitch_next hl hm hi ok msg (State.shadows_role hs)) ?_
  rw [State.judgePitch_agrees (s := (s.arrive t).notedSeq 2 head) hs hd]
  rw [State.keepInputs_shadowing (by exact hs)]
  rfl

include hi in
theorem seljoPitch_diverges {x : Nat} (hs : s.shadows = true) (hd : s.pair.seljo.pitchDigest = some (head.time, x)) (hx : x ≠ msg.digest) :
    Completes (.seljoPitch t head msg) s fun u => Diverged s u ∧ u.pair.seljo.pitch = some (head.time, pitchItems img.header.stallMask msg) ∧
      u.pair.seljo.replay = [(head.time, pitchItems img.header.stallMask msg)] := by
  refine Completes.of (seljoPitch_next hl hm hi ok msg (State.shadows_role hs)) ?_
  rw [State.judgePitch_diverges (s := (s.arrive t).notedSeq 2 head) hs hd hx]
  obtain ⟨⟨role, count, captured, agreeP, agreeT⟩, replay, _⟩ := ((s.arrive t).notedSeq 2 head).diverge_diverged
  generalize ((s.arrive t).notedSeq 2 head).diverge = w at role count captured agreeP agreeT replay ⊢
  unfold State.keepInputs
  dsimp only
  rw [if_neg (by rw [State.shadows_uncaptured]; · decide
                 · exact role
                 · exact captured)]
  refine ⟨⟨role, count, captured, agreeP, agreeT⟩, rfl, ?_⟩
  show w.pair.seljo.replay ++ _ = _
  rw [replay]
  rfl

theorem seljoPitch_ignored (h1 : s.pair.role ≠ .standby) (h2 : s.pair.role ≠ .syncing) : Completes (.seljoPitch t head msg) s fun u =>
    u.pair = { s.pair with seljo := { s.pair.seljo with got := vupd s.pair.seljo.got 2 fun _ => head.seq } } := by
  refine Completes.of (seljoMsg_next hl hm (k := 2) rfl ok) ?_
  split
  · rw [if_pos]
    · rfl
    · show (s.pair.role != .standby && s.pair.role != .syncing) = true
      simp [h1, h2]
  · rfl

end

/-! ## TICK (R341, R344) -/

section
variable (ok : seljoOk 3 head = true) (snap : TickSnap) (digest : Nat)
include ok

omit hl hm ok in
theorem State.clearOn_pair (w : State) (tm : Nat) (q : TickSnap) : (w.clearOn tm q).pair = w.pair := by
  have o : OnlyIn notPair w (w.clearOn tm q) := State.clearOn_only rfl (OnlyIn.refl _ w)
  exact pair_same (o .role rfl) (o .pair rfl)

omit hl hm ok in
theorem State.clearOn_result (w : State) (tm : Nat) (q : TickSnap) (h : w.clearingImage.isSome = true) : (w.clearOn tm q).mkt.result.isSome = true :=
    by
  have same : ∀ v : State, v.prof = w.prof → v.clearingImage = w.clearingImage := fun v e => by
    unfold State.clearingImage
    rw [e]
  unfold State.clearOn
  dsimp only
  split
  · next none' =>
    rw [same _ (by split <;> split <;> rfl)] at none'
    rw [none'] at h
    exact nomatch h
  · rfl

/-- The results of the tick before judged: `w` is left. -/
theorem seljoTick_judged {b x : Nat} (hs : s.shadows = true) (hd : s.pair.seljo.tickDigest = some (b, x)) (hb : b + 1000000 = head.time) :
    ∃ w : State, (exec (.seljoTick t head snap digest) s = .next (
        if w.pair.role == .standby || (w.pair.role == .syncing && w.pair.seljo.stateTaken) then
          (w.setSeljo fun q => { q with snap := some snap }).clearOn head.time snap
        else w)) ∧
      (x = digest → w = ((s.arrive t).notedSeq 3 head).setSeljo fun q =>
        { q with agreeTick := inSequence q.agreedTick (b - 1000000) q.agreeTick, agreedTick := b }) ∧
      (x ≠ digest → w = ((s.arrive t).notedSeq 3 head).diverge) := by
  have digest' : ((s.arrive t).notedSeq 3 head).pair.seljo.tickDigest = some (b, x) := hd
  have shadows : ((s.arrive t).notedSeq 3 head).shadows = true := hs
  refine ⟨if x = digest then ((s.arrive t).notedSeq 3 head).setSeljo fun q =>
    { q with agreeTick := inSequence q.agreedTick (b - 1000000) q.agreeTick, agreedTick := b } else ((s.arrive t).notedSeq 3 head).diverge,
    ?_, fun h => if_pos h, fun h => if_neg h⟩
  rw [seljoMsg_next hl hm (k := 3) rfl ok]
  simp only [digest', shadows, hb, ne_eq, not_true_eq_false, Bool.not_true, Bool.false_eq_true, or_self, ↓reduceIte]

theorem seljoTick_agrees {b x : Nat} (hs : s.shadows = true) (hd : s.pair.seljo.tickDigest = some (b, x)) (hb : b + 1000000 = head.time)
    (hx : x = digest) (hr : s.pair.role = .standby) : Completes (.seljoTick t head snap digest) s fun u =>
      u.pair.seljo.agreeTick = (if s.pair.seljo.agreedTick = b - 1000000 then s.pair.seljo.agreeTick + 1 else 1) ∧ u.pair.seljo.agreedTick = b ∧
      u.pair.seljo.snap = some snap ∧ u.pair.role = s.pair.role ∧ (s.clearingImage.isSome = true → u.mkt.result.isSome = true) := by
  obtain ⟨w, next, agrees, _⟩ := seljoTick_judged (t := t) hl hm ok snap digest hs hd hb
  refine Completes.of next ?_
  have e := agrees hx
  have role : w.pair.role = .standby := by rw [e]; exact hr
  rw [if_pos (by rw [role]; rfl), State.clearOn_pair]
  refine ⟨?_, ?_, rfl, ?_, fun h => State.clearOn_result _ _ _ ?_⟩
  · rw [e]; rfl
  · rw [e]; rfl
  · rw [hr]; exact role
  · rw [e]; exact h

theorem seljoTick_diverges {b x : Nat} (hs : s.shadows = true) (hd : s.pair.seljo.tickDigest = some (b, x)) (hb : b + 1000000 = head.time)
    (hx : x ≠ digest) : Completes (.seljoTick t head snap digest) s (Diverged s) := by
  obtain ⟨w, next, _, diverges⟩ := seljoTick_judged (t := t) hl hm ok snap digest hs hd hb
  refine Completes.of next ?_
  have div : Diverged s w := by
    rw [diverges hx]
    exact ((s.arrive t).notedSeq 3 head).diverge_diverged.1
  unfold Diverged at div ⊢
  split
  · rw [State.clearOn_pair]
    exact div
  · exact div

theorem seljoTick_ignored (h1 : s.pair.role ≠ .standby) (h2 : s.pair.role ≠ .syncing) (hd : s.pair.seljo.tickDigest = none) :
    Completes (.seljoTick t head snap digest) s fun u =>
      u.pair = { s.pair with seljo := { s.pair.seljo with got := vupd s.pair.seljo.got 3 fun _ => head.seq } } ∧ u.mkt = s.mkt := by
  refine Completes.of (seljoMsg_next hl hm (k := 3) rfl ok) ?_
  have digest' : ((s.arrive t).notedSeq 3 head).pair.seljo.tickDigest = none := hd
  simp only [digest']
  rw [if_neg]
  · exact ⟨rfl, rfl⟩
  · show ¬ (s.pair.role == .standby || (s.pair.role == .syncing && s.pair.seljo.stateTaken)) = true
    simp [h1, h2]

end

/-! ## STATE (R347) -/

section
variable (ok : seljoOk 5 head = true) (msg : StateMsg)
include ok

omit hl hm ok in
/-- The stalls, the policy and the move slots of a STATE message. -/
def State.takeItems (w : State) (msg : StateMsg) : State :=
  (msg.stalls.foldl (fun s i => match fin? 64 i.stall with | some n => s.setStall n (stateStall i) | none => s) (w.adoptPolicy msg.policy
      msg.theta)).takeSlots
    msg.slots

omit hl hm ok in
theorem State.takeItems_pair (w : State) : (w.takeItems msg).pair = w.pair := by
  have o : OnlyIn notPair w (w.takeItems msg) := by
    refine State.takeSlots_only (fun _ => rfl) rfl (OnlyIn.foldl (fun i x h => ?_) (State.adoptPolicy_only rfl (OnlyIn.refl _ w)))
    split
    · exact State.setStall_only (fun _ => ⟨.inl rfl, .inl rfl, .inl rfl⟩) h
    · exact h
  exact pair_same (o .role rfl) (o .pair rfl)

omit hl hm ok in
theorem State.takeItems_moves (w : State) (k : Fin 8) : (w.takeItems msg).mkt.moves[k] = msg.slots.getD k.val {} := by
  unfold State.takeItems
  generalize List.foldl _ _ _ = v
  have slots : (v.takeSlots msg.slots).mkt.moves = vgen fun k => msg.slots.getD k.val {} := by
    unfold State.takeSlots
    dsimp only
    generalize hx : ({ v with mkt := _ } : State) = x
    refine State.forAll_keeps (fun x => x.mkt.moves = vgen fun k => msg.slots.getD k.val {}) (fun k x h => ?_) (by rw [← hx])
    split
    · split
      · exact h
      · split <;> exact h
    · exact h
  generalize (v.takeSlots msg.slots) = x at slots ⊢
  simp only [slots]
  exact vgen_get (n := 8) (fun k => msg.slots.getD k.val {}) k

omit hl hm ok in
theorem State.takeState_eq (w : State) : w.takeState msg =
    ({ w.takeItems msg with
       saf := { (w.takeItems msg).saf with stops := vgen fun b => msg.safeStops.getD b.val {} } }).setPartner fun p =>
      { p with auxDuty := (List.range 24).map fun n => msg.auxDuty.getD n 0 } := by
  unfold State.takeState State.takeItems
  dsimp only <;> (generalize State.takeSlots _ _ = x; rfl)

omit hl hm ok in
theorem State.askCapture_seljo (w : State) : ∃ x y, w.askCapture.pair = { w.pair with seljo := { w.pair.seljo with
    captureAsked := w.pair.seljo.captureAsked || (w.pair.mode == .full && w.pair.role == .syncing && w.pair.seljo.lock && w.pair.seljo.stateTaken &&
      !w.pair.seljo.captured), sent := x, out := y } } ∧ w.askCapture.saf = w.saf ∧ w.askCapture.mkt = w.mkt := by
  have sends : ∀ (v : State) (k : Fin 9) (f tm : Nat) (p : Bytes), ∃ x y, (v.sendSeljo k f tm p).pair =
      { v.pair with seljo := { v.pair.seljo with sent := x, out := y } } ∧ (v.sendSeljo k f tm p).saf = v.saf ∧ (v.sendSeljo k f tm p).mkt = v.mkt :=
    fun v k f tm p => by
      unfold State.sendSeljo
      dsimp only
      split
      · exact ⟨_, _, rfl, rfl, rfl⟩
      · exact ⟨v.pair.seljo.sent, v.pair.seljo.out, rfl, rfl, rfl⟩
  unfold State.askCapture
  dsimp only
  split
  · next h =>
    obtain ⟨x, y, pair, saf, mkt⟩ := sends (w.setSeljo fun q => { q with captureAsked := true }) 6 0 (w.setSeljo fun q =>
        { q with captureAsked := true }).mt []
    refine ⟨x, y, pair.trans ?_, saf, mkt⟩
    have asked : (w.pair.seljo.captureAsked || (w.pair.mode == .full && w.pair.role == .syncing && w.pair.seljo.lock && w.pair.seljo.stateTaken &&
        !w.pair.seljo.captured)) = true := by
      simp only [Bool.and_eq_true] at h
      obtain ⟨h, _⟩ := h
      simp [h]
    rw [asked]
    rfl
  · next h =>
    have same : (w.pair.seljo.captureAsked || (w.pair.mode == .full && w.pair.role == .syncing && w.pair.seljo.lock && w.pair.seljo.stateTaken &&
        !w.pair.seljo.captured)) = w.pair.seljo.captureAsked := by
      cases hc : w.pair.seljo.captureAsked with
      | true => rfl
      | false => simpa [hc] using h
    refine ⟨w.pair.seljo.sent, w.pair.seljo.out, ?_, rfl, rfl⟩
    rw [same]

theorem seljoState_takes (hr : s.pair.role = .standby ∨ s.pair.role = .syncing) : Completes (.seljoState t head msg) s fun u =>
    u.pair.seljo.stateTaken = (s.pair.seljo.stateTaken || s.pair.role == .syncing) ∧
    u.pair.partner.auxDuty = (List.range 24).map (fun n => msg.auxDuty.getD n 0) ∧
    u.pair.seljo.captureAsked = (s.pair.seljo.captureAsked || (s.pair.role == .syncing && s.pair.seljo.lock && !s.pair.seljo.captured)) ∧
    (∀ b : Fin 12, u.saf.stops[b] = msg.safeStops.getD b.val {}) ∧ (∀ k : Fin 8, u.mkt.moves[k] = msg.slots.getD k.val {}) := by
  have taken : exec (.seljoState t head msg) s = .next ((((s.arrive t).notedSeq 5 head).takeState msg).setSeljo fun q =>
      { q with stateTaken := q.stateTaken || s.pair.role == .syncing }).askCapture := by
    rw [seljoMsg_next hl hm (k := 5) rfl ok, if_neg]
    · rfl
    · show ¬ (s.pair.role != .standby && s.pair.role != .syncing) = true
      rcases hr with hr | hr <;> rw [hr] <;> decide
  refine Completes.of taken ?_
  have moves := State.takeItems_moves msg ((s.arrive t).notedSeq 5 head)
  have pair := State.takeItems_pair msg ((s.arrive t).notedSeq 5 head)
  have eq := State.takeState_eq msg ((s.arrive t).notedSeq 5 head)
  generalize ((s.arrive t).notedSeq 5 head).takeItems msg = w at moves pair eq
  rw [eq]
  generalize hv : State.setSeljo _ (fun q : Seljo => { q with stateTaken := q.stateTaken || s.pair.role == .syncing }) = v
  have vpair : v.pair = { s.pair with
      partner := { s.pair.partner with auxDuty := (List.range 24).map fun n => msg.auxDuty.getD n 0 }
      seljo := { s.pair.seljo with got := vupd s.pair.seljo.got 5 fun _ => head.seq, stateTaken := s.pair.seljo.stateTaken || s.pair.role == .syncing
          } } := by
    rw [← hv]
    unfold State.setSeljo State.setPartner State.setPair
    dsimp only
    rw [pair]
    rfl
  have vparts : (∀ b : Fin 12, v.saf.stops[b] = msg.safeStops.getD b.val {}) ∧ v.mkt = w.mkt := by
    rw [← hv]
    exact ⟨fun b => vgen_get (n := 12) (fun b => msg.safeStops.getD b.val {}) b, rfl⟩
  obtain ⟨stops, mkt⟩ := vparts
  obtain ⟨x, y, asked, saf', mkt'⟩ := v.askCapture_seljo
  rw [asked, saf', mkt', mkt, vpair]
  refine ⟨rfl, rfl, ?_, stops, moves⟩
  show (_ || (s.pair.mode == .full && s.pair.role == .syncing && s.pair.seljo.lock && (s.pair.seljo.stateTaken || s.pair.role == .syncing) && _)) = _
  rw [hm]
  rcases hr with hr | hr
  · rw [hr, show (Role.standby == Role.syncing) = false from rfl]
    simp
  · rw [hr]
    simp

theorem seljoState_ignored (h1 : s.pair.role ≠ .standby) (h2 : s.pair.role ≠ .syncing) : Completes (.seljoState t head msg) s fun u =>
    u.pair = { s.pair with seljo := { s.pair.seljo with got := vupd s.pair.seljo.got 5 fun _ => head.seq } } ∧ u.saf = s.saf ∧ u.mkt = s.mkt ∧
    u.stalls = s.stalls := by
  refine Completes.of (seljoMsg_next hl hm (k := 5) rfl ok) ?_
  rw [if_pos]
  · exact ⟨rfl, rfl, rfl, rfl⟩
  · show (s.pair.role != .standby && s.pair.role != .syncing) = true
    simp [h1, h2]

end

/-! ## CAPTURE (R347) -/

section
variable (ok : seljoOk 6 head = true) (tiles : List TileWords)
include ok

theorem seljoCapture_active (hr : s.pair.role = .active) : Completes (.seljoCapture t head tiles) s fun u =>
    u.pair = { s.pair with seljo := { s.pair.seljo with got := vupd s.pair.seljo.got 6 fun _ => head.seq, capturePend := true } } ∧ u.lat = s.lat :=
        by
  refine Completes.of (seljoMsg_next hl hm (k := 6) rfl ok) ?_
  rw [if_pos (by exact hr)]
  exact ⟨rfl, rfl⟩

theorem seljoCapture_loads {img : Image} (hi : s.prof.image = some img) (hr : s.pair.role = .syncing) (h1 : s.pair.seljo.lock = true)
    (h2 : s.pair.seljo.stateTaken = true) (h3 : s.pair.seljo.captured = false) (h4 : ∀ x ∈ s.pair.seljo.replay, x.1 ≤ head.time) :
    Completes (.seljoCapture t head tiles) s fun u =>
      u.pair.seljo = { s.pair.seljo with got := vupd s.pair.seljo.got 6 fun _ => head.seq, captured := true, agreePitch := 0, agreeTick := 0, replay
          := [] } ∧
      u.lat = { s.lat with tiles := captureTiles tiles s.lat.tiles, pitch := head.time } := by
  have image : ((s.arrive t).notedSeq 6 head).prof.image = some img := hi
  have none' : s.pair.seljo.replay.filter (fun p => decide (head.time < p.1)) = [] :=
    List.filter_eq_nil_iff.2 fun x hx => by simpa using h4 x hx
  have kept : ((s.arrive t).notedSeq 6 head).pair.seljo.replay.filter (fun p => decide (head.time < p.1)) = [] := none'
  refine Completes.of (seljoMsg_next hl hm (k := 6) rfl ok) ?_
  rw [if_neg (by rw [show ((s.arrive t).notedSeq 6 head).pair.role = s.pair.role from rfl, hr]; decide)]
  simp only [image, kept, List.foldl_nil]
  rw [if_pos]
  · exact ⟨rfl, rfl⟩
  · show (s.pair.role == .syncing && s.pair.seljo.lock && s.pair.seljo.stateTaken && !s.pair.seljo.captured) = true
    rw [hr, h1, h2, h3]
    rfl

theorem seljoCapture_ignored (hr : s.pair.role ≠ .active)
    (h : s.pair.role ≠ .syncing ∨ s.pair.seljo.lock = false ∨ s.pair.seljo.stateTaken = false ∨ s.pair.seljo.captured = true) :
    Completes (.seljoCapture t head tiles) s fun u =>
      u.pair = { s.pair with seljo := { s.pair.seljo with got := vupd s.pair.seljo.got 6 fun _ => head.seq } } ∧ u.lat = s.lat := by
  refine Completes.of (seljoMsg_next hl hm (k := 6) rfl ok) ?_
  rw [if_neg (by exact hr)]
  split
  · dsimp only
    rw [if_neg]
    · exact ⟨rfl, rfl⟩
    · show ¬ (s.pair.role == .syncing && s.pair.seljo.lock && s.pair.seljo.stateTaken && !s.pair.seljo.captured) = true
      rcases h with h | h | h | h <;> simp [h]
  · exact ⟨rfl, rfl⟩

end
end

/-- Settles O43. -/
theorem shadowing : Obligations.Shadowing := by
  unfold Obligations.Shadowing
  intro s t head img hl hm hi
  exact ⟨fun ok msg => ⟨seljoPitch_keeps hl hm hi ok msg, seljoPitch_agrees hl hm hi ok msg, fun x => seljoPitch_diverges hl hm hi ok msg,
      seljoPitch_ignored hl hm ok msg⟩,
    fun ok snap digest => ⟨fun hs b x hd hb => ⟨seljoTick_agrees hl hm ok snap digest hs hd hb, seljoTick_diverges hl hm ok snap digest hs hd hb⟩,
      seljoTick_ignored hl hm ok snap digest⟩,
    fun ok msg => ⟨seljoState_takes hl hm ok msg, seljoState_ignored hl hm ok msg⟩,
    fun ok tiles => ⟨seljoCapture_active hl hm ok tiles, seljoCapture_loads hl hm ok tiles hi, seljoCapture_ignored hl hm ok tiles⟩⟩

end Sys2Proof.Machine
end
section
/-! PROOFS. The shadow window and the inputs it takes (R341, R342). -/
namespace Sys2Proof.Machine

/-! ## The input of one stall -/

theorem State.shadowInput_usable (s : State) (n : Fin 64) (b : Nat) (f : Uplink) :
    ∃ v, (s.shadowInput n b (some f)).stalls[n].taken = (some f, b, v, b) := by
  obtain ⟨v, _, e⟩ := s.takeSample_kept n b f
  refine ⟨v, ?_⟩
  have kept : ∀ (w : State) (old : Link), (w.setStall n (keepPort old)).stalls[n].taken = w.stalls[n].taken := fun w old => by
    rw [State.setStall_self]
    rfl
  exact (kept ..).trans e

theorem State.shadowInput_lost (s : State) (n : Fin 64) (b : Nat) :
    (s.shadowInput n b none).stalls[n].up = s.stalls[n].up ∧ (s.shadowInput n b none).stalls[n].upAt = s.stalls[n].upAt := by
  have coast : ∀ w : State, (w.coastPitch n 2).stalls[n].taken = w.stalls[n].taken := fun w =>
    State.coastPitch_only (cs := allSave (.sample n)) rfl rfl (by simp [allSave]) rfl (OnlyIn.refl _ w) (.sample n) (by simp [allSave])
  unfold State.shadowInput
  dsimp only
  split
  · rw [State.setStall_self]
    unfold State.loseSample
    dsimp only
    generalize hw : State.setStall _ _ _ = w
    have up : w.stalls[n].up = s.stalls[n].up ∧ w.stalls[n].upAt = s.stalls[n].upAt := by
      rw [← hw, State.setStall_self]
      exact ⟨rfl, rfl⟩
    have taken := coast w
    simp only [Stall.taken, Prod.mk.injEq] at taken
    exact ⟨taken.1.trans up.1, taken.2.1.trans up.2⟩
  · exact ⟨rfl, rfl⟩

/-- The input of one stall is no sample of another. -/
theorem State.shadowInput_sample (s : State) {j n : Fin 64} (h : j ≠ n) (b : Nat) (u : Option Uplink) :
    (s.shadowInput j b u).stalls[n].taken = s.stalls[n].taken :=
  State.shadowInput_only (cs := allSave (.sample n)) rfl rfl rfl (fun _ => rfl) (by simp [allSave, h]) (fun _ => rfl) (fun _ => rfl) rfl rfl rfl rfl
    (OnlyIn.refl _ s) (.sample n) (by simp [allSave])

/-! ## The inputs of PITCH -/

/-- The step of `shadowFrom`. -/
def State.shadowItem (s : State) (b : Nat) (x : Nat × Bool × Bytes) : State :=
  match fin? 64 x.1 with
  | some n => s.shadowInput n b (if x.2.1 then some (pitchUplink b x.2.2) else none)
  | none => s

theorem State.shadowFrom_eq (s : State) (b : Nat) (items : List (Nat × Bool × Bytes)) : s.shadowFrom b items = items.foldl (fun s x => s.shadowItem b
    x) s := rfl

theorem State.shadowItem_self (s : State) (b : Nat) (n : Fin 64) (usable : Bool) (bytes : Bytes) :
    s.shadowItem b (n.val, usable, bytes) = s.shadowInput n b (if usable then some (pitchUplink b bytes) else none) := by
  unfold State.shadowItem
  rw [fin?_val]

theorem State.shadowItem_other (s : State) (b : Nat) {x : Nat × Bool × Bytes} {n : Fin 64} (h : x.1 ≠ n.val) :
    (s.shadowItem b x).stalls[n].taken = s.stalls[n].taken := by
  unfold State.shadowItem
  cases hf : fin? 64 x.1 with
  | none => rfl
  | some j =>
    refine State.shadowInput_sample s (fun e => h ?_) b _
    subst e
    unfold fin? at hf
    split at hf
    · exact congrArg Fin.val (Option.some.inj hf)
    · exact nomatch hf

theorem State.shadowItems_other (b : Nat) {n : Fin 64} (items : List (Nat × Bool × Bytes)) (h : ∀ x ∈ items, x.1 ≠ n.val) (s : State) :
    (items.foldl (fun s x => s.shadowItem b x) s).stalls[n].taken = s.stalls[n].taken := by
  induction items generalizing s with
  | nil => rfl
  | cons x xs ih => exact (ih (fun y hy => h y (List.mem_cons_of_mem _ hy)) _).trans (s.shadowItem_other b (h x List.mem_cons_self))

/-- What the one item of a stall makes of its sample. -/
theorem State.shadowFrom_item {s : State} {b : Nat} {items : List (Nat × Bool × Bytes)} (nodup : (items.map fun x => x.1).Nodup) {n : Fin 64}
    {usable : Bool}
    {bytes : Bytes} (h : (n.val, usable, bytes) ∈ items) : ∃ w : State, w.stalls[n].taken = s.stalls[n].taken ∧ (s.shadowFrom b
        items).stalls[n].taken =
      (w.shadowInput n b (if usable then some (pitchUplink b bytes) else none)).stalls[n].taken := by
  obtain ⟨l, r, rfl⟩ := List.append_of_mem h
  rw [List.map_append, List.map_cons, List.nodup_append, List.nodup_cons] at nodup
  obtain ⟨_, ⟨right, _⟩, left⟩ := nodup
  have before : ∀ x ∈ l, x.1 ≠ n.val := fun x hx => left x.1 (List.mem_map_of_mem hx) n.val List.mem_cons_self
  have after : ∀ x ∈ r, x.1 ≠ n.val := fun x hx e => right (e ▸ List.mem_map_of_mem (f := fun x => x.1) hx)
  refine ⟨l.foldl (fun s x => s.shadowItem b x) s, State.shadowItems_other b l before s, ?_⟩
  rw [State.shadowFrom_eq, List.foldl_append, List.foldl_cons, State.shadowItems_other b r after, State.shadowItem_self]

/-! ## The inputs of the module's own ports -/

/-- Every part but the link of stall `n`, PAIR and the profile. -/
def beside (n : Fin 64) : Block → Bool := fun x => decide (x ≠ .link n ∧ x ≠ .pair ∧ x ≠ .prof)

/-- In full pair no epochs conflict (R124 is of the lite pair). -/
theorem State.epochConflict_full {s : State} (h : s.pair.mode = .full) (n : Fin 64) (b : Nat) : s.epochConflict n b = s := by
  simp [State.epochConflict, h]

theorem State.takeSample_beside {s : State} (hm : s.pair.mode = .full) {j n : Fin 64} (h : j ≠ n) (b : Nat) (u : Uplink) :
    OnlyIn (beside n) s (s.takeSample j b u) := by
  have mode : ∀ (f : Stall → Stall) (c : Bool), ((s.setStall j f).bumpIf c 3).pair.mode = .full := fun f c => by
    rw [State.bumpIf_pair]
    exact hm
  unfold State.takeSample
  dsimp only
  rw [State.epochConflict_full (mode _ _)]
  have link : beside n (.link j) = true := by simp [beside, h]
  have coasts : ∀ w : State, OnlyIn (beside n) s w → OnlyIn (beside n) s
      (if anyFrozen w.stalls[j] then (w.setStall j fun x => { x with sample := .frozen }).coastPitch j 3 else w.recover j) := fun w k =>
    OnlyIn.ite (State.coastPitch_only rfl rfl rfl rfl (State.setStall_only (fun _ => ⟨.inr (by rfl), .inl rfl, .inr (by rfl)⟩) k))
        (State.recover_only rfl rfl k)
  refine State.trySleep_only rfl link rfl (State.cableHold_only (fun _ => rfl) (State.checkEnvelope_only rfl rfl rfl (fun _ => rfl) rfl rfl rfl ?_))
  refine State.askRearm_only rfl (State.addLoad_only rfl (State.stallFeedback_only rfl rfl (fun _ => rfl) rfl rfl ?_))
  refine State.liteUplinkCheck_only rfl rfl rfl (fun _ => rfl) rfl rfl rfl (State.takeTemp_only rfl rfl (State.takeTrip_only rfl rfl rfl rfl rfl ?_))
  refine State.takeOc_only rfl rfl rfl (coasts _ (State.stepRuns_only rfl rfl rfl rfl (State.bumpIf_only rfl ?_)))
  exact State.setStall_only (fun _ => ⟨.inl link, .inl rfl, .inr (by rfl)⟩) (OnlyIn.refl _ s)

theorem State.shadowInput_beside {s : State} (hm : s.pair.mode = .full) {j n : Fin 64} (h : j ≠ n) (b : Nat) (u : Option Uplink) :
    OnlyIn (beside n) s (s.shadowInput j b u) := by
  have link : beside n (.link j) = true := by simp [beside, h]
  have keeps : ∀ (w : State) (old : Link), OnlyIn (beside n) s w → OnlyIn (beside n) s (w.setStall j (keepPort old)) := fun w old k =>
    State.setStall_only (fun _ => ⟨.inl link, .inr (by rfl), .inr (by rfl)⟩) k
  unfold State.shadowInput
  dsimp only
  cases u with
  | some f => exact keeps _ _ (State.takeSample_beside hm h b f)
  | none => exact OnlyIn.ite (keeps _ _ (State.loseSample_only rfl rfl link rfl rfl rfl (OnlyIn.refl _ s))) (OnlyIn.refl _ s)

/-- The step of `shadowOwn`. -/
def State.ownInput (s : State) (b : Nat) (n : Fin 64) : State :=
  if (s.stallRec n).isNone then s
  else
    match s.stalls[n].link.own with
    | some (q, bytes) => s.shadowInput n b (if q = b ∧ !bytes.isEmpty then some (uplinkOf bytes) else none)
    | none => s.shadowInput n b none

theorem State.shadowOwn_eq (s : State) (b : Nat) : s.shadowOwn b = s.forAll 64 fun n s => s.ownInput b n := by
  unfold State.shadowOwn State.ownInput
  rfl

theorem State.ownInput_is (s : State) (b : Nat) (n : Fin 64) : s.ownInput b n = s ∨ ∃ u, s.ownInput b n = s.shadowInput n b u := by
  unfold State.ownInput
  split
  · exact .inl rfl
  · split <;> exact .inr ⟨_, rfl⟩

theorem State.shadowOwn_takes {s : State} {b : Nat} (hm : s.pair.mode = .full) {n : Fin 64} {bytes : Bytes} (hr : (s.stallRec n).isSome = true)
    (ho : s.stalls[n].link.own = some (b, bytes)) (hb : bytes ≠ []) : ∃ v, (s.shadowOwn b).stalls[n].taken = (some (uplinkOf bytes), b, v, b) := by
  rw [State.shadowOwn_eq]
  refine State.forAll_at n (Q := fun w => w.pair.rest = s.pair.rest ∧ w.prof = s.prof ∧ w.stalls[n].link = s.stalls[n].link)
    (R := fun w => ∃ v, w.stalls[n].taken = (some (uplinkOf bytes), b, v, b)) (fun j w hj hq => ?_) (fun w hq => ?_) (fun j w hj hq => ?_) s ⟨rfl,
        rfl, rfl⟩
  · obtain ⟨pair, prof, link⟩ := hq
    have mode : w.pair.mode = .full := by
      have e := congrArg (fun p : Pair => p.mode) pair
      exact Eq.trans e hm
    rcases w.ownInput_is b j with e | ⟨u, e⟩ <;> rw [e]
    · exact ⟨pair, prof, link⟩
    · have o := State.shadowInput_beside mode hj b u
      exact ⟨Eq.trans (o .pair (by simp [beside])) pair, Eq.trans (o .prof (by simp [beside])) prof, Eq.trans (o (.link n) (by simp [beside])) link⟩
  · obtain ⟨_, prof, link⟩ := hq
    have rec' : (w.stallRec n).isNone = false := by
      unfold State.stallRec at hr ⊢
      rw [prof, ← Option.not_isSome, hr]
      rfl
    have takes : w.ownInput b n = w.shadowInput n b (some (uplinkOf bytes)) := by
      unfold State.ownInput
      rw [rec', if_neg (by decide), link, ho]
      dsimp only
      rw [if_pos ⟨rfl, by simp [hb]⟩]
    rw [takes]
    exact w.shadowInput_usable n b (uplinkOf bytes)
  · rcases w.ownInput_is b j with e | ⟨u, e⟩ <;> rw [e]
    · exact hq
    · rw [State.shadowInput_sample w hj]
      exact hq

/-! ## The window -/

theorem State.shadowInputs_pitch {s : State} {b : Nat} {items : List (Nat × Bool × Bytes)} (h : s.pair.seljo.pitch = some (b, items)) :
    s.shadowInputs b = s.shadowFrom b items := by
  unfold State.shadowInputs
  rw [h]
  exact if_pos rfl

theorem State.shadowInputs_own {s : State} {b : Nat} (h : ∀ items, s.pair.seljo.pitch ≠ some (b, items)) : s.shadowInputs b = s.shadowOwn b := by
  unfold State.shadowInputs
  split
  · next c items e => exact if_neg fun y => h items (by rw [e, y])
  · rfl

/-- The opening of a window takes no sample. -/
theorem State.openWindow_taken (s : State) (t b : Nat) (shadow : Bool) (n : Fin 64) : (s.openWindow t b shadow).stalls[n].taken = s.stalls[n].taken :=
  State.openWindow_only (cs := allSave (.sample n)) rfl rfl (fun _ => rfl) (fun _ => rfl) rfl rfl (OnlyIn.refl _ s) (.sample n) (by simp [allSave])

/-- A stall's sample of a boundary, by its parts. -/
theorem taken_parts {x : Stall} {f : Uplink} {b : Nat} {v : SampleSt} (h : x.taken = (some f, b, v, b)) : x.up = some f ∧ x.upAt = b ∧ x.sampleAt = b
    := by
  simp only [Stall.taken, Prod.mk.injEq] at h
  exact ⟨h.1, h.2.1, h.2.2.2⟩

section
variable {s : State} {t : Nat} (hl : s.live = true)
include hl

section
variable (hs : s.shadows = true) (ht : s.openNs + 900 ≤ t) (hb : s.isBoundary (t - (s.openNs + 900)) = true) (hw : s.lat.windowOpen = false)
include hs ht hb hw

theorem shadowWindowOpen_next : exec (.shadowWindowOpen t) s = .next
    (((s.arrive t).shadowInputs (t - (s.openNs + 900))).openWindow t (t - (s.openNs + 900)) true) := by
  rw [exec_live hl rfl]
  refine congrArg Host.Outcome.next (if_pos ?_)
  rw [show (s.arrive t).openNs = s.openNs from rfl, show (s.arrive t).isBoundary (t - (s.openNs + 900)) = true from hb,
    show (s.arrive t).shadows = true from hs, show (s.arrive t).lat.windowOpen = false from hw, decide_eq_true ht]
  rfl

end

theorem shadowWindowOpen_waits (h : t < s.openNs + 900 ∨ s.isBoundary (t - (s.openNs + 900)) = false) : Completes (.shadowWindowOpen t) s fun u =>
    u.lat = s.lat := by
  refine Completes.live hl rfl ?_
  rw [if_neg]
  · rfl
  · rw [show (s.arrive t).openNs = s.openNs from rfl]
    rcases h with h | h
    · rw [decide_eq_false (Nat.not_le.2 h)]
      simp
    · rw [show (s.arrive t).isBoundary (t - (s.openNs + 900)) = false from h]
      simp

end

/-- Settles O44. -/
theorem shadowWindow : Obligations.ShadowWindow := by
  unfold Obligations.ShadowWindow
  intro s t img hl _ hs b
  have mode : s.pair.mode = .full := by
    simp only [State.shadows, Bool.and_eq_true, beq_iff_eq] at hs
    exact hs.1
  refine ⟨fun ht hb hw _ => Completes.of (shadowWindowOpen_next hl hs ht hb hw) ?_, shadowWindowOpen_waits hl⟩
  have lat := ((s.arrive t).shadowInputs b).openWindow_lat t b true
  generalize hu : ((s.arrive t).shadowInputs b).openWindow t b true = u at lat ⊢
  obtain ⟨open', pitch, shadow, _⟩ := lat
  refine ⟨open', shadow, pitch, fun items hp nodup n usable bytes hi => ?_, fun hp n bytes hr ho hne => ?_⟩
  all_goals
    have taken := ((s.arrive t).shadowInputs b).openWindow_taken t b true n
    rw [hu] at taken
  · rw [State.shadowInputs_pitch (s := s.arrive t) hp] at taken
    obtain ⟨w, before, e⟩ := State.shadowFrom_item (s := s.arrive t) (b := b) nodup hi
    have before' : w.stalls[n].taken = s.stalls[n].taken := before
    replace taken := taken.trans e
    obtain ⟨up', upAt', _⟩ : _ ∧ _ ∧ _ := by
      simpa only [Stall.taken, Prod.mk.injEq] using before'
    refine ⟨fun hx => ?_, fun hx => ?_⟩ <;> subst hx
    · obtain ⟨v, e⟩ := w.shadowInput_usable n b (pitchUplink b bytes)
      exact taken_parts (taken.trans e)
    · obtain ⟨up, upAt⟩ := w.shadowInput_lost n b
      simp only [Stall.taken, Prod.mk.injEq] at taken
      exact ⟨taken.1.trans (up.trans up'), taken.2.1.trans (upAt.trans upAt')⟩
  · rw [State.shadowInputs_own (s := s.arrive t) hp] at taken
    obtain ⟨v, e⟩ := State.shadowOwn_takes (s := s.arrive t) (b := b) mode hr ho hne
    exact taken_parts (taken.trans e)

end Sys2Proof.Machine
end

section
/-! PROOFS. References of the site bus sent, received and missed (R365, R366, R367, R368, R379). -/
namespace Sys2Proof.Machine

/-! ## Channels and the state of the bus -/

theorem State.setCh_other (s : State) (n k : Fin 2) (f : Channel → Channel) (h : n ≠ k) : (s.setCh n f).sbus.ch[k] = s.sbus.ch[k] :=
  vupd_other s.sbus.ch n k f h

theorem State.gainSync_sbus (s : State) (ch : Fin 2) : (s.gainSync ch).sbus =
    { s.sbus with ch := vupd s.sbus.ch ch fun c => { c with sync := true, missRun := 0 } } := by
  unfold State.gainSync
  rw [State.clearBusLoad_sbus, State.bumpIf_sbus]
  rfl

theorem State.busState_sbus (s : State) (b : BusSt) : (s.busState b).sbus =
    { s.sbus with bus := b, busSince := if s.sbus.bus = b then s.sbus.busSince else s.mt } := by
  unfold State.busState
  rw [State.bumpIf_sbus]
  rfl

theorem State.gainSync_self (s : State) (ch : Fin 2) : (s.gainSync ch).sbus.ch[ch] = { s.sbus.ch[ch] with sync := true, missRun := 0 } :=
  (congrArg (fun b : SiteBus => b.ch[ch]) (s.gainSync_sbus ch)).trans (vupd_here ..)

theorem State.gainSync_other (s : State) {ch k : Fin 2} (h : ch ≠ k) : (s.gainSync ch).sbus.ch[k] = s.sbus.ch[k] :=
  (congrArg (fun b : SiteBus => b.ch[k]) (s.gainSync_sbus ch)).trans (vupd_other _ _ _ _ h)

/-- Whether a channel is in use is the profile's (R517). -/
theorem State.chInUse_of {s u : State} (h : u.prof = s.prof) (ch : Fin 2) : u.chInUse ch = s.chInUse ch := by
  unfold State.chInUse State.busWindows State.running
  rw [h]

/-- While a channel in use has references left to announce, the bus does not sleep (R379). -/
theorem State.sleepWhenAnnounced_waits {s : State} {ch : Fin 2} (hu : s.chInUse ch = true) (ha : s.sbus.ch[ch].announce ≠ 0) : s.sleepWhenAnnounced =
    s := by
  unfold State.sleepWhenAnnounced
  refine if_neg fun h => ?_
  simp only [Bool.and_eq_true, List.all_eq_true] at h
  have one := h.2 ch (mem_fins ch)
  rw [hu] at one
  simp only [Bool.not_true, Bool.false_or, Bool.and_eq_true, beq_iff_eq] at one
  exact ha one.1

/-! ## References sent (R365, R366, R368) -/

section
variable {s : State} {t : Nat} {ch : Fin 2} (hl : s.live = true)
include hl

theorem referenceSend_sends {w : BusWin} {start : Nat} (hw : s.referenceStart ch t = some (w, start)) (h1 : s.busMaster = true) (h2 : s.chInUse ch =
    true)
    (h3 : s.sbus.bus = .awake) (h4 : s.sbus.ch[ch].err ≠ 2) (h5 : s.sbus.ch[ch].wire = .none) (h6 : s.mayLead ch t start = true)
    (h7 : s.sbus.ch[ch].referenceFits w = true) : Completes (.referenceSend t ch) s fun u =>
      let c := s.sbus.ch[ch]
      let disc := c.disc || (!c.lead && s.pair.mode == .lite)
      let pay := referencePayload (t / s.busCycle.1 % s.busCycle.2) (s.pair.side + 2 * b2n disc) (t / s.busCycle.1 / s.busCycle.2) (if disc then 0
          else c.prevSof)
      u.sbus.ch[ch] = { c with lead := true, disc := false, prevSof := t, sync := true, missRun := 0, wire := .reference,
                               refOut := some ⟨w.canId.testBit 31, w.canId % 2 ^ 29, true, c.dataRate != 0, c.err == 1, false, 9, pay⟩ } ∧
      ∀ k, k ≠ ch → u.sbus.ch[k] = s.sbus.ch[k] := by
  refine Completes.live hl rfl ?_
  have start' : (s.arrive t).referenceStart ch t = some (w, start) := hw
  have ready : ((s.arrive t).busMaster && (s.arrive t).chInUse ch && !(s.arrive t).quiet ch && (s.arrive t).sbus.ch[ch].err != 2 &&
      (s.arrive t).sbus.ch[ch].wire == .none && (s.arrive t).mayLead ch t start && (s.arrive t).sbus.ch[ch].referenceFits w) = true := by
    show (s.busMaster && s.chInUse ch && !s.quiet ch && s.sbus.ch[ch].err != 2 && s.sbus.ch[ch].wire == .none && s.mayLead ch t start &&
      s.sbus.ch[ch].referenceFits w) = true
    rw [h1, h2, h5, h6, h7]
    simp [-Fin.getElem_fin, State.quiet, h3, h4]
  have quiet : ((s.arrive t).sbus.bus == .announcing) = false := by
    rw [State.arrive_sbus, h3]
    rfl
  simp only [start', ready, quiet, Bool.false_and, ↓reduceIte, Bool.false_eq_true]
  refine ⟨?_, fun k hk => (State.gainSync_other _ hk.symm).trans (State.setCh_other _ _ _ _ hk.symm)⟩
  rw [State.gainSync_self, State.setCh_self]
  rfl

theorem referenceSend_none (h : ∀ w start, s.referenceStart ch t = some (w, start) → s.busMaster = false ∨ s.quiet ch = true ∨ s.sbus.ch[ch].err = 2 ∨
    s.sbus.ch[ch].referenceFits w = false) : Completes (.referenceSend t ch) s fun u => u.sbus = s.sbus := by
  refine Completes.live hl rfl ?_
  dsimp only
  split
  · next w start hw =>
    rw [if_neg]
    · rfl
    · show ¬ (s.busMaster && s.chInUse ch && !s.quiet ch && s.sbus.ch[ch].err != 2 && s.sbus.ch[ch].wire == .none && s.mayLead ch t start &&
        s.sbus.ch[ch].referenceFits w) = true
      rcases h w start hw with h | h | h | h <;> simp [-Fin.getElem_fin, h]
  · rfl

/-! ## References received (R367, R379) -/

section
variable (hr : s.running = true) (hu : s.chInUse ch = true) (hf : s.sbus.ch[ch].lead = false)
include hr hu hf

/-- The follower's grid after a reference. -/
def Channel.followed (c : Channel) (t cycle : Nat) (w : BusWin) : Channel :=
  { c with gridStart := t - w.startNs, cycle, prevSof := t, disc := false, sync := true, missRun := 0 }

omit hl hr hu hf in
/-- The grid taken from a reference. -/
def State.gridFrom (s : State) (t cycle : Nat) (ch : Fin 2) (w : BusWin) : State :=
  (s.setCh ch fun c => { c with gridStart := t - w.startNs, cycle, prevSof := t, disc := false }).gainSync ch

omit hl hr hu hf in
theorem State.gridFrom_self (s : State) (t cycle : Nat) (ch : Fin 2) (w : BusWin) :
    (s.gridFrom t cycle ch w).sbus.ch[ch] = s.sbus.ch[ch].followed t cycle w := by
  unfold State.gridFrom
  rw [State.gainSync_self, State.setCh_self]
  rfl

omit hl hr hu hf in
theorem State.gridFrom_bus (s : State) (t cycle : Nat) (ch : Fin 2) (w : BusWin) : (s.gridFrom t cycle ch w).sbus.bus = s.sbus.bus := by
  unfold State.gridFrom
  rw [State.gainSync_sbus]
  rfl

omit hl hr hu hf in
theorem State.gridFrom_chInUse (s : State) (t cycle : Nat) (ch : Fin 2) (w : BusWin) : (s.gridFrom t cycle ch w).chInUse ch = s.chInUse ch := by
  have o : OnlyIn (fun x => decide (x ∈ [Block.sums, .assume, .sbus])) s (s.gridFrom t cycle ch w) :=
    State.gainSync_only rfl rfl rfl (State.setCh_only rfl (OnlyIn.refl _ s))
  exact State.chInUse_of (o .prof rfl) ch

omit hl hr hu hf in
/-- What the first reference with SLEEP_ANN leaves (R379). -/
def State.announcedOnce (s : State) (ch : Fin 2) : State :=
  ((s.setBus fun b => { b with ch := vmap (fun _ c => { c with announce := 4 }) b.ch }).busState .announcing).setCh ch fun c =>
    { c with announce := c.announce - 1 }

omit hl hr hu hf in
theorem State.announcedOnce_parts (s : State) (ch : Fin 2) :
    (s.announcedOnce ch).sbus.ch[ch] = { s.sbus.ch[ch] with announce := 3 } ∧ (s.announcedOnce ch).sbus.bus = .announcing := by
  unfold State.announcedOnce
  have e := State.busState_sbus (s.setBus fun b => { b with ch := vmap (fun _ c => { c with announce := 4 }) b.ch }) .announcing
  have four := (congrArg (fun b : SiteBus => b.ch[ch]) e).trans (vmap_get ..)
  refine ⟨?_, ?_⟩
  · rw [State.setCh_self]
    refine Eq.trans (b := { ({ s.sbus.ch[ch] with announce := 4 } : Channel) with announce := 4 - 1 }) ?_ rfl
    rw [four]
  · exact congrArg (fun b : SiteBus => b.bus) e

omit hl hr hu hf in
theorem State.hearAnnounce_first {s : State} {ch : Fin 2} (hb : s.sbus.bus = .awake) (hu : s.chInUse ch = true) :
    s.hearAnnounce ch true = s.announcedOnce ch := by
  have o : OnlyIn (fun x => decide (x ∈ [Block.sums, .sbus])) s (s.announcedOnce ch) :=
    State.setCh_only rfl (State.busState_only rfl rfl (State.setBus_only rfl (OnlyIn.refl _ s)))
  have waits := State.sleepWhenAnnounced_waits (s := s.announcedOnce ch) (ch := ch) ((State.chInUse_of (o .prof rfl) ch).trans hu)
    (by rw [(s.announcedOnce_parts ch).1]; exact Nat.succ_ne_zero 2)
  unfold State.hearAnnounce
  rw [hb]
  exact waits

theorem referenceReceived_next {payload : Bytes} {w : BusWin} (hp : payload.length = 12) (hc : u8 payload 0 < s.busCycle.2)
    (hw : s.referenceFor ch t (u8 payload 0) = some w) : exec (.referenceReceived t ch payload) s =
      .next (((s.arrive t).gridFrom t (u8 payload 0) ch w).hearAnnounce ch ((u8 payload 1).testBit 2)) := by
  have grid : (s.arrive t).referenceFor ch t (u8 payload 0) = some w := hw
  have ready : ((s.arrive t).running && (s.arrive t).chInUse ch && !(s.arrive t).sbus.ch[ch].lead && payload.length == 12 &&
      decide (u8 payload 0 < (s.arrive t).busCycle.2)) = true := by
    show (s.running && s.chInUse ch && !s.sbus.ch[ch].lead && payload.length == 12 && decide (u8 payload 0 < s.busCycle.2)) = true
    rw [hr, hu, hf, hp, decide_eq_true hc]
    rfl
  rw [exec_live hl rfl]
  simp only [ready, grid, ↓reduceIte]
  rfl

theorem referenceReceived_taken {payload : Bytes} {w : BusWin} (hp : payload.length = 12) (hc : u8 payload 0 < s.busCycle.2)
    (hw : s.referenceFor ch t (u8 payload 0) = some w) (hb : s.sbus.bus = .awake) (ha : (u8 payload 1).testBit 2 = false) :
    Completes (.referenceReceived t ch payload) s fun u => u.sbus.ch[ch] = s.sbus.ch[ch].followed t (u8 payload 0) w ∧ u.sbus.bus = .awake := by
  refine Completes.of (referenceReceived_next hl hr hu hf hp hc hw) ?_
  have self := (s.arrive t).gridFrom_self t (u8 payload 0) ch w
  have bus := ((s.arrive t).gridFrom_bus t (u8 payload 0) ch w).trans hb
  generalize (s.arrive t).gridFrom t (u8 payload 0) ch w = v at self bus ⊢
  have same : v.hearAnnounce ch false = v := by
    simp [State.hearAnnounce, bus]
  rw [ha, same]
  exact ⟨self, bus⟩

theorem referenceReceived_announces {payload : Bytes} {w : BusWin} (hp : payload.length = 12) (hc : u8 payload 0 < s.busCycle.2)
    (hw : s.referenceFor ch t (u8 payload 0) = some w) (hb : s.sbus.bus = .awake) (ha : (u8 payload 1).testBit 2 = true) :
    Completes (.referenceReceived t ch payload) s fun u => u.sbus.ch[ch].sync = true ∧ u.sbus.ch[ch].announce = 3 ∧ u.sbus.bus = .announcing := by
  refine Completes.of (referenceReceived_next hl hr hu hf hp hc hw) ?_
  have self := (s.arrive t).gridFrom_self t (u8 payload 0) ch w
  have bus := ((s.arrive t).gridFrom_bus t (u8 payload 0) ch w).trans hb
  have used := ((s.arrive t).gridFrom_chInUse t (u8 payload 0) ch w).trans hu
  generalize (s.arrive t).gridFrom t (u8 payload 0) ch w = v at self bus used ⊢
  obtain ⟨ch', bus'⟩ := v.announcedOnce_parts ch
  rw [ha, State.hearAnnounce_first bus used, ch', self]
  exact ⟨rfl, rfl, bus'⟩

omit hr hu hf in
theorem referenceReceived_none {payload : Bytes} (h : payload.length ≠ 12 ∨ s.busCycle.2 ≤ u8 payload 0) :
    Completes (.referenceReceived t ch payload) s fun u => u.sbus = s.sbus := by
  refine Completes.live hl rfl ?_
  dsimp only
  rw [if_neg]
  · rfl
  · show ¬ (s.running && s.chInUse ch && !s.sbus.ch[ch].lead && payload.length == 12 && decide (u8 payload 0 < s.busCycle.2)) = true
    rcases h with h | h
    · simp [-Fin.getElem_fin, h]
    · simp [-Fin.getElem_fin, Nat.not_lt.2 h]

/-! ## References missing (R367) -/

theorem referenceMissing_next : exec (.referenceMissing t ch) s = .next (
    let v := (s.arrive t).setCh ch fun c => { c with missRun := min 3 (c.missRun + 1), refMiss := satInc 8 c.refMiss }
    if decide (3 ≤ v.sbus.ch[ch].missRun) && v.sbus.ch[ch].sync then
      let v := v.setCh ch fun c => { c with sync := false }
      (v.log 0x0A02 ch.val v.sbus.ch[ch].refMiss 0).setBusLoad
    else v) := by
  have ready : ((s.arrive t).running && (s.arrive t).chInUse ch && !(s.arrive t).sbus.ch[ch].lead) = true := by
    show (s.running && s.chInUse ch && !s.sbus.ch[ch].lead) = true
    rw [hr, hu, hf]
    rfl
  rw [exec_live hl rfl]
  simp only [ready, ↓reduceIte]

theorem referenceMissing_counts (h : s.sbus.ch[ch].missRun < 2 ∨ s.sbus.ch[ch].sync = false) : Completes (.referenceMissing t ch) s fun u =>
    u.sbus.ch[ch] = { s.sbus.ch[ch] with missRun := min 3 (s.sbus.ch[ch].missRun + 1), refMiss := satInc 8 s.sbus.ch[ch].refMiss } := by
  refine Completes.of (referenceMissing_next hl hr hu hf) ?_
  dsimp only
  rw [if_neg]
  · exact State.setCh_self ..
  · rw [State.setCh_self]
    show ¬ (decide (3 ≤ min 3 (s.sbus.ch[ch].missRun + 1)) && s.sbus.ch[ch].sync) = true
    rcases h with h | h
    · rw [decide_eq_false (by omega)]
      simp
    · rw [h]
      simp

theorem referenceMissing_loses (h : 2 ≤ s.sbus.ch[ch].missRun) (hs : s.sbus.ch[ch].sync = true) : Completes (.referenceMissing t ch) s fun u =>
    u.sbus.ch[ch] = { s.sbus.ch[ch] with missRun := 3, refMiss := satInc 8 s.sbus.ch[ch].refMiss, sync := false } ∧ u.assume.busLoad = true := by
  refine Completes.of (referenceMissing_next hl hr hu hf) ?_
  have full : min 3 (s.sbus.ch[ch].missRun + 1) = 3 := by omega
  dsimp only
  rw [if_pos]
  · refine ⟨?_, State.setBusLoad_on _⟩
    rw [State.setBusLoad_sbus, State.log_sbus, State.setCh_self, State.setCh_self]
    show ({ s.sbus.ch[ch] with missRun := min 3 (s.sbus.ch[ch].missRun + 1), refMiss := _, sync := false } : Channel) = _
    rw [full]
    rfl
  · rw [State.setCh_self]
    show (decide (3 ≤ min 3 (s.sbus.ch[ch].missRun + 1)) && s.sbus.ch[ch].sync) = true
    rw [full, hs]
    rfl

end

theorem referenceMissing_leads (h : s.sbus.ch[ch].lead = true) : Completes (.referenceMissing t ch) s fun u => u.sbus = s.sbus := by
  refine Completes.live hl rfl ?_
  dsimp only
  rw [if_neg]
  · rfl
  · show ¬ (s.running && s.chInUse ch && !s.sbus.ch[ch].lead) = true
    rw [h]
    simp

end

/-- Settles O45. -/
theorem busReferences : Obligations.BusReferences := by
  unfold Obligations.BusReferences
  intro s t ch hl
  exact ⟨fun w start hw => referenceSend_sends hl hw, fun w start hw hn => referenceSend_none hl fun w' start' hw' => .inr (.inr (.inr (by
      obtain ⟨rfl, rfl⟩ := Prod.mk.inj (Option.some.inj (hw.symm.trans hw'))
      exact hn))),
    fun hb ha => referenceSend_none hl fun _ _ _ => .inr (.inl (by simp [-Fin.getElem_fin, State.quiet, hb, ha])),
    fun h => referenceSend_none hl fun _ _ _ => by
      rcases h with h | h | h
      · exact .inl h
      · exact .inr (.inl (by simp [State.quiet, h]))
      · exact .inr (.inr (.inl h)),
    fun hr hu hf => ⟨fun payload w hp hc hw hb => ⟨referenceReceived_taken hl hr hu hf hp hc hw hb, referenceReceived_announces hl hr hu hf hp hc hw
        hb⟩,
      fun payload => referenceReceived_none hl, referenceMissing_counts hl hr hu hf, referenceMissing_loses hl hr hu hf⟩,
    referenceMissing_leads hl⟩

end Sys2Proof.Machine
end
section
/-! PROOFS. Sleep and wake of the site bus (R380, R381). -/
namespace Sys2Proof.Machine

/-- A live module whose market time does not count (SRC = 3), its bus asleep: no run leads there, but the statement takes every live state. -/
def sleepsUntimed : State :=
  { State.reset with
    clk := { State.reset.clk with mtSrc := 3 }
    sbus := { State.reset.sbus with bus := .asleep } }

/-- A level of WAKE_I of 5 µs wakes its bus. -/
theorem sleepsUntimed_wakes : sleepsUntimed.live = true ∧ sleepsUntimed.serves .udp = true ∧ wakeMet sleepsUntimed.sbus (.wakeI 5000) = true ∧
    sleepsUntimed.sbus.bus = .asleep := by decide +kernel

/-- The wake is stamped with the market time that stands still. -/
theorem sleepsUntimed_woke : (doBusWake 1 (.wakeI 5000) sleepsUntimed).sbus.wokeAt = some 0 := by decide +kernel

/-- Refutes O46: the statement stamps a wake with the later of the state's market time and the event's, but a wake passes on the model's lapse of time
(`State.elapse`), which leaves market time where SRC = 3 says it does not count. -/
theorem not_busSleepWake : ¬ Obligations.BusSleepWake := by
  unfold Obligations.BusSleepWake
  intro h
  obtain ⟨live, serves, met, asleep⟩ := sleepsUntimed_wakes
  obtain ⟨_, _, _, _, _, _, _, _, wakes⟩ := h sleepsUntimed 1 .udp live serves
  obtain ⟨u, e, _, _, _, woke, _⟩ := (wakes (.wakeI 5000)).1 met asleep
  have after : u = doBusWake 1 (.wakeI 5000) sleepsUntimed := (Host.Outcome.next.inj e).symm
  rw [after, sleepsUntimed_woke] at woke
  exact absurd woke (by decide +kernel)

end Sys2Proof.Machine
end

section
/-! PROOFS. Command bits of a word, and the words of the site bus (R383, R518). -/
namespace Sys2Proof.Machine

/-- Setting a clear bit carries nothing into the bits above. -/
theorem testBit_add_two_pow {n i j : Nat} (h : n.testBit i = false) (l : i < j) : (n + 2 ^ i).testBit j = n.testBit j := by
  have clear : n / 2 ^ i % 2 = 0 := by
    rw [Nat.testBit_eq_decide_div_mod_eq, decide_eq_false_iff_not] at h
    omega
  have low : n % 2 ^ (i + 1) = n % 2 ^ i := by
    rw [Nat.mod_pow_succ, clear, Nat.mul_zero, Nat.add_zero]
  have small : n % 2 ^ i < 2 ^ i := Nat.mod_lt _ (Nat.two_pow_pos i)
  have double : 2 ^ (i + 1) = 2 ^ i + 2 ^ i := by
    rw [Nat.pow_succ]
    omega
  have split := Nat.div_add_mod n (2 ^ (i + 1))
  rw [low] at split
  calc (n + 2 ^ i).testBit j = (2 ^ (i + 1) * (n / 2 ^ (i + 1)) + (n % 2 ^ i + 2 ^ i)).testBit j := by rw [← Nat.add_assoc, split]
    _ = (2 ^ (i + 1) * (n / 2 ^ (i + 1)) + n % 2 ^ i).testBit j := by
      rw [Nat.testBit_two_pow_mul_add _ (by omega), Nat.testBit_two_pow_mul_add _ (by omega), if_neg (by omega), if_neg (by omega)]
    _ = n.testBit j := by rw [split]

theorem testBit_setBit (n i j : Nat) : (setBit n i).testBit j = (n.testBit j || decide (i = j)) := by
  unfold setBit
  rcases Nat.lt_trichotomy i j with l | rfl | l
  · cases h : n.testBit i with
    | true => simp [Nat.ne_of_lt l]
    | false => simp [testBit_add_two_pow h l, Nat.ne_of_lt l]
  · cases h : n.testBit i with
    | true => simp [h]
    | false => simp [Nat.add_comm n, Nat.testBit_two_pow_add_eq, h]
  · cases h : n.testBit i with
    | true => simp [Nat.ne_of_gt l]
    | false => simp [Nat.add_comm n, Nat.testBit_two_pow_add_gt l, Nat.ne_of_gt l]

theorem bits_setBit {n i lo len : Nat} (h : lo + len ≤ i) : bits (setBit n i) lo len = bits n lo len := by
  unfold bits
  refine Nat.eq_of_testBit_eq fun j => ?_
  rw [Nat.testBit_mod_two_pow, Nat.testBit_mod_two_pow, Nat.testBit_shiftRight, Nat.testBit_shiftRight, testBit_setBit]
  by_cases l : j < len
  · simp [l, show i ≠ lo + j by omega]
  · simp [l]

theorem popCount_zero {n : Nat} : ∀ w, (∀ k, k < w → n.testBit k = false) → popCount w n = 0
  | 0, _ => rfl
  | w + 1, h => by
    unfold popCount
    rw [popCount_zero w fun k hk => h k (Nat.lt_succ_of_lt hk), h w (Nat.lt_succ_self w)]
    rfl

/-- Two command bits, the upper bits of the word. -/
theorem severalBits_upper (v : Nat) : severalBits v 0xC0000000 = (v.testBit 30 && v.testBit 31) := by
  have below : popCount 30 (v &&& 0xC0000000) = 0 := popCount_zero 30 fun k hk => by
    have mask : ∀ k, k < 30 → Nat.testBit 0xC0000000 k = false := by decide
    rw [Nat.testBit_and, mask k hk, Bool.and_false]
  have both : popCount 32 (v &&& 0xC0000000) = b2n (v.testBit 30) + b2n (v.testBit 31) := by
    rw [popCount, popCount, below, Nat.testBit_and, Nat.testBit_and, show Nat.testBit 0xC0000000 30 = true by decide,
      show Nat.testBit 0xC0000000 31 = true by decide, Bool.and_true, Bool.and_true, Nat.zero_add]
  unfold severalBits
  rw [both]
  cases v.testBit 30 <;> cases v.testBit 31 <;> rfl

theorem severalBits_middle (v : Nat) : severalBits v 0x60000000 = (v.testBit 29 && v.testBit 30) := by
  have below : popCount 29 (v &&& 0x60000000) = 0 := popCount_zero 29 fun k hk => by
    have mask : ∀ k, k < 29 → Nat.testBit 0x60000000 k = false := by decide
    rw [Nat.testBit_and, mask k hk, Bool.and_false]
  have both : popCount 32 (v &&& 0x60000000) = b2n (v.testBit 29) + b2n (v.testBit 30) := by
    rw [popCount, popCount, popCount, below, Nat.testBit_and, Nat.testBit_and, Nat.testBit_and, show Nat.testBit 0x60000000 29 = true by decide,
      show Nat.testBit 0x60000000 30 = true by decide, show Nat.testBit 0x60000000 31 = false by decide, Bool.and_true, Bool.and_true, Bool.and_false,
      Nat.zero_add]
    rfl
  unfold severalBits
  rw [both]
  cases v.testBit 29 <;> cases v.testBit 30 <;> rfl

end Sys2Proof.Machine
end
section
/-! PROOFS. The transmit queue of a channel and its mailboxes (R362, R369, R370, R374, R375, R378, R486). -/
namespace Sys2Proof.Machine

/-! ## The condition BUS_LOAD, and the parts of the bus -/

theorem State.setBusLoad_eq (s : State) : ∃ a h, s.setBusLoad = { s with assume := a, host := h } := by
  unfold State.setBusLoad
  split
  · exact ⟨s.assume, s.host, rfl⟩
  · exact ⟨_, _, rfl⟩

theorem State.judgeBusLoad_eq (s : State) : ∃ a h, s.judgeBusLoad = { s with assume := a, host := h } := by
  unfold State.judgeBusLoad
  split
  · exact s.setBusLoad_eq
  · exact ⟨s.assume, s.host, rfl⟩

theorem State.judgeBusLoad_late {s : State} {ch : Fin 2} (h : s.headLate ch = true) : s.judgeBusLoad.assume.busLoad = true := by
  unfold State.judgeBusLoad
  rw [if_pos]
  · exact State.setBusLoad_on s
  · rcases ch with ⟨_ | _ | n, hn⟩
    · exact Bool.or_eq_true_iff.2 (.inl h)
    · exact Bool.or_eq_true_iff.2 (.inr h)
    · omega

theorem State.judgeBusLoad_keeps {s : State} (h : s.assume.busLoad = true) : s.judgeBusLoad.assume.busLoad = true := by
  unfold State.judgeBusLoad
  split
  · exact State.setBusLoad_on s
  · exact h

@[simp] theorem State.judgeBusLoad_sbus (s : State) : s.judgeBusLoad.sbus = s.sbus := by
  obtain ⟨a, h, e⟩ := s.judgeBusLoad_eq
  rw [e]

theorem State.setBox_self (s : State) (k : Fin 8) (f : Mailbox → Mailbox) : (s.setBox k f).sbus.boxes[k] = f s.sbus.boxes[k] := vupd_here ..

/-! ## Arbitrating occurrences (R369, R370) -/

theorem State.enterOccurrence_same {s : State} {ch : Fin 2} {start len : Nat} (h1 : s.sbus.ch[ch].occStart = start) (h2 : s.sbus.ch[ch].occEnd =
    start + len) :
    s.enterOccurrence ch start len = s := by
  unfold State.enterOccurrence
  exact if_pos ⟨h1, h2⟩

/-- A channel at the begin of another occurrence. -/
def Channel.entered (c : Channel) (start len : Nat) : Channel :=
  { c with charged := 0, occStart := start, occEnd := start + len, headWait := if c.queue = [] then 0 else min 5 (c.headWait + 1) }

theorem State.enterOccurrence_other {s : State} {ch : Fin 2} {start len : Nat} (h : s.sbus.ch[ch].occStart ≠ start) :
    s.enterOccurrence ch start len = (s.setCh ch fun c => c.entered start len).judgeBusLoad := by
  unfold State.enterOccurrence
  refine (if_neg fun x => h x.1).trans ?_
  unfold Channel.entered
  simp only [List.isEmpty_iff]

theorem State.enterOccurrence_keeps {s : State} (ch : Fin 2) (start len : Nat) (h : s.assume.busLoad = true) :
    (s.enterOccurrence ch start len).assume.busLoad = true := by
  unfold State.enterOccurrence
  dsimp only
  split
  · exact h
  · exact State.judgeBusLoad_keeps h

/-- The head frame once its attempt has started. -/
def Channel.attempted (c : Channel) (now : Nat) (f : TxFrame) (rest : List TxFrame) : Channel :=
  { c with
    queue := { f with brs := c.brsOf f.brs, attempts := f.attempts + 1, commitAt := now, retxAt := c.retx } :: rest
    charged := c.charged + txNs c f
    wire := .queued
    retx := if 0 < f.attempts then satInc 8 c.retx else c.retx }

theorem State.startAttempt_ch (s : State) (ch : Fin 2) (f : TxFrame) (rest : List TxFrame) :
    (s.startAttempt ch f rest).sbus.ch[ch] = s.sbus.ch[ch].attempted s.mt f rest := by
  have base : ∀ w : State, w = (s.setCh ch fun c => c.attempted s.mt f rest) → w.sbus.ch[ch] = s.sbus.ch[ch].attempted s.mt f rest := fun w e => by
    rw [e]
    exact State.setCh_self ..
  have begun : (s.startAttempt ch f rest).sbus.ch = (s.setCh ch fun c => c.attempted s.mt f rest).sbus.ch := by
    unfold State.startAttempt Channel.attempted
    simp only [decide_eq_true_eq]
    split
    · split
      · rw [State.bump_sbus]
        rfl
      · rfl
    · rfl
  exact (congrArg (fun v : Vector Channel 2 => v[ch]) begun).trans (base _ rfl)

theorem State.startAttempt_box (s : State) (ch : Fin 2) {f : TxFrame} (rest : List TxFrame) {k : Fin 8} (h3 : f.kind = 3) (hk : f.box = k.val) :
    (s.startAttempt ch f rest).sbus.boxes[k] = { s.sbus.boxes[k] with result := .sending, attempts := satInc 16 s.sbus.boxes[k].attempts } := by
  have begun : (s.startAttempt ch f rest).sbus.boxes = vupd s.sbus.boxes k fun x => { x with result := .sending, attempts := satInc 16 x.attempts }
      := by
    unfold State.startAttempt
    dsimp only
    rw [if_pos h3, hk, fin?_val]
    dsimp only
    rw [State.bump_sbus]
    rfl
  exact (congrArg (fun v : Vector Mailbox 8 => v[k]) begun).trans (vupd_here ..)

section
variable {s : State} {t : Nat} {ch : Fin 2} (hl : s.live = true)
include hl

/-- What a frame of the queue may do at a commit point, in the occurrence `w` has entered. -/
def State.arbitrate (w : State) (ch : Fin 2) (sof : Nat) (idle : Bool) : State :=
  if idle && w.mayStart ch then
    match w.sbus.ch[ch].queue with
    | f :: rest => if mayAttempt w.sbus.ch[ch] f sof && (decide (0 < f.attempts) || !w.quiet ch) then w.startAttempt ch f rest else w
    | [] => w
  else w

theorem arbitratingWindow_next {start len : Nat} (ho : s.arbOccurrence ch (t + s.sbus.ch[ch].bitNs) = some (start, len)) (idle : Bool) :
    exec (.arbitratingWindow t ch idle) s = .next
      (((s.arrive t).judgeBusLoad.enterOccurrence ch start len).arbitrate ch (t + s.sbus.ch[ch].bitNs) idle) := by
  rw [exec_live hl rfl]
  obtain ⟨a, h, e⟩ := (s.arrive t).judgeBusLoad_eq
  rw [e]
  have occ : ({ s.arrive t with assume := a, host := h } : State).arbOccurrence ch (t + s.sbus.ch[ch].bitNs) = some (start, len) := ho
  have bit : ({ s.arrive t with assume := a, host := h } : State).sbus.ch[ch].bitNs = s.sbus.ch[ch].bitNs := rfl
  simp only [bit, occ]
  rfl

section
variable {start len : Nat} (ho : s.arbOccurrence ch (t + s.sbus.ch[ch].bitNs) = some (start, len))
include ho

section
variable (h1 : s.sbus.ch[ch].occStart = start) (h2 : s.sbus.ch[ch].occEnd = start + len)
include h1 h2

theorem arbitratingWindow_within (idle : Bool) : exec (.arbitratingWindow t ch idle) s = .next
    ((s.arrive t).judgeBusLoad.arbitrate ch (t + s.sbus.ch[ch].bitNs) idle) := by
  rw [arbitratingWindow_next hl ho idle]
  obtain ⟨a, h, e⟩ := (s.arrive t).judgeBusLoad_eq
  rw [e, State.enterOccurrence_same (by exact h1) (by exact h2)]

section
variable {f : TxFrame} {r : List TxFrame} (hq : s.sbus.ch[ch].queue = f :: r) (hm : s.mayStart ch = true)
include hq hm

theorem arbitratingWindow_attempts (ha : mayAttempt s.sbus.ch[ch] f (t + s.sbus.ch[ch].bitNs) = true) (hr : 0 < f.attempts ∨ s.quiet ch = false)
    {k : Fin 8} :
    Completes (.arbitratingWindow t ch true) s fun u => u.sbus.ch[ch] = s.sbus.ch[ch].attempted (max s.mt t) f r ∧
      (f.kind = 3 → f.box = k.val → u.sbus.boxes[k].result = .sending ∧ u.sbus.boxes[k].attempts = satInc 16 s.sbus.boxes[k].attempts) := by
  refine Completes.of (arbitratingWindow_within hl ho h1 h2 true) ?_
  obtain ⟨a, h, e⟩ := (s.arrive t).judgeBusLoad_eq
  have starts : (s.arrive t).judgeBusLoad.arbitrate ch (t + s.sbus.ch[ch].bitNs) true = ({ s.arrive t with assume := a, host := h } :
      State).startAttempt ch f r := by
    rw [e]
    generalize hw : ({ s.arrive t with assume := a, host := h } : State) = w
    have parts : w.sbus = s.sbus ∧ w.mayStart ch = true ∧ w.quiet ch = s.quiet ch := by
      rw [← hw]
      exact ⟨rfl, hm, rfl⟩
    obtain ⟨sbus, may, quiet⟩ := parts
    unfold State.arbitrate
    have c : w.sbus.ch[ch] = s.sbus.ch[ch] := congrArg (fun b : SiteBus => b.ch[ch]) sbus
    have turn : (decide (0 < f.attempts) || !s.quiet ch) = true := by
      rcases hr with hr | hr
      · rw [decide_eq_true hr]
        rfl
      · rw [hr]
        simp
    simp only [may, c, hq, quiet, ha, turn, Bool.and_self, ↓reduceIte]
  rw [starts]
  refine ⟨State.startAttempt_ch _ ch f r, fun h3 hk => ?_⟩
  have box := State.startAttempt_box ({ s.arrive t with assume := a, host := h } : State) ch r h3 hk
  exact ⟨congrArg Mailbox.result box, congrArg Mailbox.attempts box⟩

theorem arbitratingWindow_waits (h : mayAttempt s.sbus.ch[ch] f (t + s.sbus.ch[ch].bitNs) = false ∨ (f.attempts = 0 ∧ s.quiet ch = true)) :
    Completes (.arbitratingWindow t ch true) s fun u => u.sbus = s.sbus := by
  refine Completes.of (arbitratingWindow_within hl ho h1 h2 true) ?_
  obtain ⟨a, h', e⟩ := (s.arrive t).judgeBusLoad_eq
  rw [e]
  generalize hw : ({ s.arrive t with assume := a, host := h' } : State) = w
  have parts : w.sbus = s.sbus ∧ w.mayStart ch = true ∧ w.quiet ch = s.quiet ch := by
    rw [← hw]
    exact ⟨rfl, hm, rfl⟩
  obtain ⟨sbus, may, quiet⟩ := parts
  have c : w.sbus.ch[ch] = s.sbus.ch[ch] := congrArg (fun b : SiteBus => b.ch[ch]) sbus
  have stays : (mayAttempt s.sbus.ch[ch] f (t + s.sbus.ch[ch].bitNs) && (decide (0 < f.attempts) || !s.quiet ch)) = false := by
    rcases h with h | ⟨h, hq⟩
    · rw [h]
      rfl
    · rw [h, hq]
      simp
  unfold State.arbitrate
  simp only [may, c, hq, quiet, stays, Bool.and_self, ↓reduceIte, Bool.false_eq_true]
  exact sbus

end

theorem arbitratingWindow_busy : Completes (.arbitratingWindow t ch false) s fun u => u.sbus = s.sbus :=
  Completes.of (arbitratingWindow_within hl ho h1 h2 false) (State.judgeBusLoad_sbus _)

end

theorem arbitratingWindow_enters (h : s.sbus.ch[ch].occStart ≠ start) : Completes (.arbitratingWindow t ch false) s fun u =>
    u.sbus.ch[ch] = s.sbus.ch[ch].entered start len ∧
    (s.sbus.ch[ch].queue ≠ [] → 4 ≤ s.sbus.ch[ch].headWait → u.assume.busLoad = true) := by
  refine Completes.of (arbitratingWindow_next hl ho false) ?_
  obtain ⟨a, h', e⟩ := (s.arrive t).judgeBusLoad_eq
  have entered : ((s.arrive t).judgeBusLoad.enterOccurrence ch start len).arbitrate ch (t + s.sbus.ch[ch].bitNs) false =
      (({ s.arrive t with assume := a, host := h' } : State).setCh ch fun c => c.entered start len).judgeBusLoad := by
    rw [e, State.enterOccurrence_other (by exact h)]
    rfl
  rw [entered]
  generalize hv : State.setCh _ ch (fun c => c.entered start len) = v
  have self : v.sbus.ch[ch] = s.sbus.ch[ch].entered start len := by
    rw [← hv]
    exact State.setCh_self ..
  refine ⟨(congrArg (fun b : SiteBus => b.ch[ch]) v.judgeBusLoad_sbus).trans self, fun hq hw => State.judgeBusLoad_late (ch := ch) ?_⟩
  have five : v.sbus.ch[ch].headWait = 5 := by
    rw [self]
    show (if s.sbus.ch[ch].queue = [] then 0 else min 5 (s.sbus.ch[ch].headWait + 1)) = 5
    rw [if_neg hq]
    omega
  unfold State.headLate
  exact decide_eq_true (.inl (Nat.le_of_eq five.symm))

end

theorem arbitratingWindow_late (h4 : s.sbus.ch[ch].headWait = 4) (he : s.sbus.ch[ch].occEnd ≤ max s.mt t) :
    Completes (.arbitratingWindow t ch false) s fun u => u.assume.busLoad = true := by
  have late : (s.arrive t).judgeBusLoad.assume.busLoad = true := State.judgeBusLoad_late (ch := ch) (decide_eq_true (.inr ⟨h4, he⟩))
  refine Completes.live hl rfl ?_
  dsimp only
  split
  · exact late
  · exact State.enterOccurrence_keeps _ _ _ late

/-! ## The end of an attempt (R370, R374, R375, R378) -/

omit hl in
/-- A channel with the wire free and its transmit errors counted. -/
def Channel.counted (c : Channel) (tec rec_ : Nat) : Channel :=
  { c with wire := .none, tec := min 255 tec, rec_ := min 255 rec_, err := errOf tec rec_,
           busOff := if errOf tec rec_ = 2 ∧ c.err ≠ 2 then satInc 8 c.busOff else c.busOff }

omit hl in
theorem State.freed_self (w : State) (ch : Fin 2) (tec rec_ : Nat) :
    ((w.setCh ch fun c => { c with wire := .none }).setErr ch tec rec_).sbus.ch[ch] = w.sbus.ch[ch].counted tec rec_ := by
  refine (congrArg (fun b : SiteBus => b.ch[ch]) (State.setErr_sbus _ ch tec rec_)).trans ?_
  refine (vupd_here ..).trans ?_
  rw [State.setCh_self]
  rfl

omit hl in
theorem State.freed_boxes (w : State) (ch : Fin 2) (tec rec_ : Nat) :
    ((w.setCh ch fun c => { c with wire := .none }).setErr ch tec rec_).sbus.boxes = w.sbus.boxes :=
  (congrArg (fun b : SiteBus => b.boxes) (State.setErr_sbus _ ch tec rec_)).trans rfl

omit hl in
theorem State.popQueue_self (w : State) (ch : Fin 2) : (w.popQueue ch).sbus.ch[ch] =
    { w.sbus.ch[ch] with queue := w.sbus.ch[ch].queue.drop 1, headWait := 0 } :=
  (congrArg (fun b : SiteBus => b.ch[ch]) (State.clearBusLoad_sbus _)).trans (vupd_here ..)

omit hl in
theorem State.popQueue_boxes (w : State) (ch : Fin 2) : (w.popQueue ch).sbus.boxes = w.sbus.boxes :=
  (congrArg (fun b : SiteBus => b.boxes) (State.clearBusLoad_sbus _)).trans rfl

omit hl in
/-- A result of a mailbox is no matter of the channels. -/
theorem State.boxResult_ch (w : State) (i : Nat) (x : TxResult) : (w.boxResult i x).sbus.ch = w.sbus.ch := by
  unfold State.boxResult
  split
  · rw [State.bump_sbus]
    rfl
  · rfl

omit hl in
theorem State.boxResult_self (w : State) (k : Fin 8) (x : TxResult) :
    (w.boxResult k.val x).sbus.boxes[k] = { w.sbus.boxes[k] with result := x, cancelHeld := w.sbus.boxes[k].cancelHeld && txBusy x } :=
  (congrArg (fun b : SiteBus => b.boxes[k]) (w.boxResult_sbus k x)).trans (vupd_here ..)

section
variable {f : TxFrame} {r : List TxFrame} (hq : s.sbus.ch[ch].queue = f :: r) (hw : s.sbus.ch[ch].wire = .queued)
include hq hw

theorem canTxComplete_next : exec (.canTxComplete t ch) s = .next (
    let done := ((s.arrive t).setCh ch fun c => { c with wire := .none }).setErr ch (s.sbus.ch[ch].tec - 1) s.sbus.ch[ch].rec_
    if f.kind = 3 then
      (match fin? 8 f.box with | some b => (done.popQueue ch).boxResult f.box (lateResult s.sbus.boxes[b].cancelHeld) | none => done.popQueue ch)
    else done.popQueue ch) := by
  have wire : (s.arrive t).sbus.ch[ch].wire = .queued := hw
  have queue : (s.arrive t).sbus.ch[ch].queue = f :: r := hq
  have boxes : ∀ b : Fin 8, (((((s.arrive t).setCh ch fun c => { c with wire := .none }).setErr ch (s.sbus.ch[ch].tec - 1)
      s.sbus.ch[ch].rec_).popQueue ch).sbus.boxes[b]).cancelHeld = s.sbus.boxes[b].cancelHeld := fun b => by
    have e := (State.popQueue_boxes _ ch).trans ((s.arrive t).freed_boxes ch (s.sbus.ch[ch].tec - 1) s.sbus.ch[ch].rec_)
    exact congrArg (fun v : Vector Mailbox 8 => v[b].cancelHeld) e
  rw [exec_live hl rfl]
  simp only [wire, queue]
  refine congrArg Host.Outcome.next ?_
  split
  · cases fin? 8 f.box with
    | none => rfl
    | some b => exact congrArg (fun h => State.boxResult _ f.box (lateResult h)) (boxes b)
  · rfl

theorem canTxComplete_sent {k : Fin 8} : Completes (.canTxComplete t ch) s fun u =>
    u.sbus.ch[ch].queue = r ∧ u.sbus.ch[ch].wire = .none ∧ u.sbus.ch[ch].headWait = 0 ∧ u.sbus.ch[ch].tec = min 255 (s.sbus.ch[ch].tec - 1) ∧
    (f.kind = 3 → f.box = k.val → u.sbus.boxes[k].result = if s.sbus.boxes[k].cancelHeld then .sentCancelLate else .sent) := by
  refine Completes.of (canTxComplete_next hl hq hw) ?_
  dsimp only
  generalize hd : ((s.arrive t).setCh ch fun c => { c with wire := .none }).setErr ch (s.sbus.ch[ch].tec - 1) s.sbus.ch[ch].rec_ = done
  have self : done.sbus.ch[ch] = s.sbus.ch[ch].counted (s.sbus.ch[ch].tec - 1) s.sbus.ch[ch].rec_ := by
    rw [← hd]
    exact State.freed_self ..
  have popped : (done.popQueue ch).sbus.ch[ch] = { s.sbus.ch[ch].counted (s.sbus.ch[ch].tec - 1) s.sbus.ch[ch].rec_ with queue := r, headWait := 0 }
      := by
    have queue : (s.sbus.ch[ch].counted (s.sbus.ch[ch].tec - 1) s.sbus.ch[ch].rec_).queue = f :: r := hq
    rw [State.popQueue_self, self, queue]
    rfl
  have channel : ∀ u : State, u.sbus.ch = (done.popQueue ch).sbus.ch → u.sbus.ch[ch].queue = r ∧ u.sbus.ch[ch].wire = .none ∧ u.sbus.ch[ch].headWait
      = 0 ∧
      u.sbus.ch[ch].tec = min 255 (s.sbus.ch[ch].tec - 1) := fun u e => by
    have same := (congrArg (fun v : Vector Channel 2 => v[ch]) e).trans popped
    exact ⟨congrArg Channel.queue same, congrArg Channel.wire same, congrArg Channel.headWait same, congrArg Channel.tec same⟩
  by_cases h3 : f.kind = 3
  · rw [if_pos h3]
    cases hb : fin? 8 f.box with
    | none =>
      obtain ⟨h1, h2, h4, h5⟩ := channel (done.popQueue ch) rfl
      refine ⟨h1, h2, h4, h5, fun _ hk => ?_⟩
      rw [hk, fin?_val] at hb
      exact nomatch hb
    | some b =>
      obtain ⟨h1, h2, h4, h5⟩ := channel _ (State.boxResult_ch (done.popQueue ch) f.box (lateResult s.sbus.boxes[b].cancelHeld))
      refine ⟨h1, h2, h4, h5, fun _ hk => ?_⟩
      rw [hk, fin?_val] at hb
      obtain rfl := Option.some.inj hb
      have box := State.boxResult_self (done.popQueue ch) k (lateResult s.sbus.boxes[k].cancelHeld)
      dsimp only
      rw [hk]
      exact congrArg Mailbox.result box
  · rw [if_neg h3]
    obtain ⟨h1, h2, h4, h5⟩ := channel (done.popQueue ch) rfl
    exact ⟨h1, h2, h4, h5, fun h => absurd h h3⟩

/-- The channel after a failed attempt. -/
def State.attemptFailed (s : State) (ch : Fin 2) (how : TxErr) (f : TxFrame) : State :=
  let c := s.sbus.ch[ch]
  (((s.setCh ch fun c => { c with wire := .none }).setErr ch (c.tec + txCount c.err how) c.rec_).setCh ch fun x =>
    { x with charged := x.charged - if beforeArbitration how then txNs c f else 0 })

theorem canTxError_next {how : TxErr} (hh : how ≠ .flag) : exec (.canTxError t ch how) s = .next (((s.arrive t).attemptFailed ch how f).headFailed
    ch) := by
  have wire : (s.arrive t).sbus.ch[ch].wire = .queued := hw
  have queue : (s.arrive t).sbus.ch[ch].queue = f :: r := hq
  rw [exec_live hl rfl]
  simp only [wire, queue, hh, ↓reduceIte]
  rfl

omit hl hw in
theorem State.attemptFailed_self (how : TxErr) : (s.attemptFailed ch how f).sbus.ch[ch] =
    { s.sbus.ch[ch].counted (s.sbus.ch[ch].tec + txCount s.sbus.ch[ch].err how) s.sbus.ch[ch].rec_ with
      queue := f :: r, charged := s.sbus.ch[ch].charged - if beforeArbitration how then txNs s.sbus.ch[ch] f else 0 } := by
  unfold State.attemptFailed
  dsimp only
  rw [State.setCh_self, State.freed_self, ← hq]
  rfl

omit hl hw hq in
theorem State.attemptFailed_boxes (w : State) (how : TxErr) : (w.attemptFailed ch how f).sbus.boxes = w.sbus.boxes := by
  unfold State.attemptFailed
  exact w.freed_boxes ch _ _

omit hl hq hw in
/-- What becomes of a failed head frame: it stays, or a held CANCEL takes effect. -/
theorem State.headFailed_cases {w : State} {c : Channel} (hc : w.sbus.ch[ch] = c) (hq : c.queue = f :: r) :
    (w.headFailed ch).sbus.ch[ch].wire = c.wire ∧ (w.headFailed ch).sbus.ch[ch].tec = c.tec ∧ (w.headFailed ch).sbus.ch[ch].charged = c.charged ∧
    ∀ k : Fin 8, f.kind = 3 → f.box = k.val →
      (w.sbus.boxes[k].cancelHeld = false → (w.headFailed ch).sbus.ch[ch].queue = f :: r ∧ (w.headFailed ch).sbus.boxes[k].result = .pending) ∧
      (w.sbus.boxes[k].cancelHeld = true → (w.headFailed ch).sbus.ch[ch].queue = r ∧ (w.headFailed ch).sbus.boxes[k].result = .cancelled) := by
  have queue : w.sbus.ch[ch].queue = f :: r := by
    rw [hc, hq]
  have eq : w.headFailed ch = if f.kind = 3 then
      (match fin? 8 f.box with
       | some b => if w.sbus.boxes[b].cancelHeld then (w.popQueue ch).boxResult f.box .cancelled else w.boxResult f.box .pending
       | none => w)
      else w := by
    unfold State.headFailed
    rw [queue] <;> rfl
  have stays : ∀ u : State, u.sbus.ch = w.sbus.ch → u.sbus.ch[ch] = c := fun u e => (congrArg (fun v : Vector Channel 2 => v[ch]) e).trans hc
  have pops : ∀ u : State, u.sbus.ch = (w.popQueue ch).sbus.ch → u.sbus.ch[ch] = { c with queue := r, headWait := 0 } := fun u e => by
    refine (congrArg (fun v : Vector Channel 2 => v[ch]) e).trans ((w.popQueue_self ch).trans ?_)
    rw [hc, hq]
    rfl
  by_cases h3 : f.kind = 3
  · rw [eq, if_pos h3]
    cases hb : fin? 8 f.box with
    | none =>
      simp only [hc]
      refine ⟨trivial, trivial, trivial, fun k _ hk => ?_⟩
      rw [hk, fin?_val] at hb
      exact nomatch hb
    | some b =>
      dsimp only
      by_cases held : w.sbus.boxes[b].cancelHeld = true
      · rw [if_pos held]
        have popped := pops _ (State.boxResult_ch (w.popQueue ch) f.box .cancelled)
        simp only [popped]
        refine ⟨trivial, trivial, trivial, fun k _ hk => ?_⟩
        rw [hk, fin?_val] at hb
        obtain rfl := Option.some.inj hb
        refine ⟨fun h => absurd held (by rw [h]; decide), fun _ => ⟨trivial, ?_⟩⟩
        rw [hk]
        exact congrArg Mailbox.result (State.boxResult_self (w.popQueue ch) k .cancelled)
      · rw [if_neg held]
        have kept := stays _ (State.boxResult_ch w f.box .pending)
        simp only [kept]
        refine ⟨trivial, trivial, trivial, fun k _ hk => ?_⟩
        rw [hk, fin?_val] at hb
        obtain rfl := Option.some.inj hb
        refine ⟨fun _ => ⟨hq, ?_⟩, fun h => absurd h held⟩
        rw [hk]
        exact congrArg Mailbox.result (State.boxResult_self w k .pending)
  · rw [eq, if_neg h3]
    simp only [hc]
    exact ⟨trivial, trivial, trivial, fun k h => absurd h h3⟩

theorem canTxError_fails {how : TxErr} (hh : how ≠ .flag) {k : Fin 8} : Completes (.canTxError t ch how) s fun u =>
    u.sbus.ch[ch].wire = .none ∧ u.sbus.ch[ch].tec = min 255 (s.sbus.ch[ch].tec + txCount s.sbus.ch[ch].err how) ∧
    u.sbus.ch[ch].charged = s.sbus.ch[ch].charged - (if beforeArbitration how then txNs s.sbus.ch[ch] f else 0) ∧
    (f.kind = 3 → f.box = k.val →
      (s.sbus.boxes[k].cancelHeld = false → u.sbus.ch[ch].queue = f :: r ∧ u.sbus.boxes[k].result = .pending) ∧
      (s.sbus.boxes[k].cancelHeld = true → u.sbus.ch[ch].queue = r ∧ u.sbus.boxes[k].result = .cancelled)) := by
  refine Completes.of (canTxError_next hl hq hw hh) ?_
  have self := State.attemptFailed_self (s := s.arrive t) (r := r) hq how
  have boxes := (s.arrive t).attemptFailed_boxes (ch := ch) (f := f) how
  have held : ((s.arrive t).attemptFailed ch how f).sbus.boxes[k].cancelHeld = s.sbus.boxes[k].cancelHeld :=
    congrArg (fun v : Vector Mailbox 8 => v[k].cancelHeld) boxes
  generalize (s.arrive t).attemptFailed ch how f = w at self held ⊢
  obtain ⟨wire, tec, charged, box⟩ := State.headFailed_cases (r := r) self rfl
  refine ⟨wire, tec, charged, fun h3 hk => ?_⟩
  rw [← held]
  exact box k h3 hk

end

theorem canTxComplete_none (h : s.sbus.ch[ch].wire = .none) : Completes (.canTxComplete t ch) s fun u => u.sbus = s.sbus := by
  have wire : (s.arrive t).sbus.ch[ch].wire = .none := h
  refine Completes.live hl rfl ?_
  simp only [wire]
  rfl

theorem canTxError_none (h : s.sbus.ch[ch].wire = .none) {how : TxErr} (hh : how ≠ .flag) : Completes (.canTxError t ch how) s fun u => u.sbus =
    s.sbus := by
  have wire : (s.arrive t).sbus.ch[ch].wire = .none := h
  refine Completes.live hl rfl ?_
  simp only [wire, hh, ↓reduceIte]
  rfl

end

/-! ## SEND and CANCEL of a mailbox (R369, R374, R383) -/

/-- The frame a CTRL word with SEND queues. -/
def State.boxFrame (s : State) (k : Fin 8) (v : Nat) : TxFrame :=
  { kind := 3, box := k.val, ext := s.sbus.boxes[k].ext, id := s.sbus.boxes[k].id, fd := v.testBit 19,
    brs := s.sbus.ch[finMod 2 (bits v 20 1)].brsOf (v.testBit 18), dlc := bits v 0 4,
    data := memRange s.sbus.boxes[k].data 0 (dlcLen (v.testBit 19) (bits v 0 4)) }

theorem sendRefusal_setBit (s : State) (k : Fin 8) (v : Nat) : sendRefusal s k (setBit v 31) = sendRefusal s k v := by
  unfold sendRefusal
  simp only [testBit_setBit, bits_setBit (n := v) (i := 31) (lo := 20) (len := 1) (by decide), bits_setBit (n := v) (i := 31) (lo := 0) (len := 4)
      (by decide),
    show (31 = 19) = False by simp, show (31 = 18) = False by simp, decide_false, Bool.or_false]

theorem State.sendBox_setBit (s : State) (k : Fin 8) (v : Nat) : s.sendBox k (setBit v 31) = s.sendBox k v := by
  unfold State.sendBox
  simp only [testBit_setBit, bits_setBit (n := v) (i := 31) (lo := 20) (len := 1) (by decide), bits_setBit (n := v) (i := 31) (lo := 0) (len := 4)
      (by decide),
    show (31 = 19) = False by simp, show (31 = 18) = False by simp, decide_false, Bool.or_false]

/-- A CTRL word with SEND, and what CANCEL in the same word does to it (R518). -/
theorem boxCtrl_send (s : State) (k : Fin 8) (v : Nat) : boxCtrl s k (setBit v 31) =
    if v.testBit 30 then (some (deny .range), id) else (sendRefusal s k v, fun s => s.sendBox k v) := by
  unfold boxCtrl
  have b30 : (setBit v 31).testBit 30 = v.testBit 30 := by
    rw [testBit_setBit]
    simp
  have b31 : (setBit v 31).testBit 31 = true := by
    rw [testBit_setBit]
    simp
  rw [severalBits_upper, b30, b31, sendRefusal_setBit, Bool.and_true, if_pos rfl]
  simp only [State.sendBox_setBit]

theorem State.sendBox_parts (s : State) (k : Fin 8) (v : Nat) :
    (s.sendBox k v).sbus.ch = vupd s.sbus.ch (finMod 2 (bits v 20 1)) (fun y => { y with queue := y.queue ++ [s.boxFrame k v] }) ∧
    (s.sendBox k v).sbus.boxes[k].result = .pending ∧ (s.sendBox k v).sbus.boxes[k].data = s.sbus.boxes[k].data := by
  have boxes : (s.sendBox k v).sbus.boxes[k] = { s.sbus.boxes[k] with
      channel := (finMod 2 (bits v 20 1)).val, fd := v.testBit 19, brs := s.sbus.ch[finMod 2 (bits v 20 1)].brsOf (v.testBit 18), dlc := bits v 0 4,
      result := .pending, attempts := 0, cancelHeld := false } := State.setBox_self ..
  exact ⟨rfl, congrArg Mailbox.result boxes, (congrArg Mailbox.data boxes).trans rfl⟩

/-- Is the frame one of mailbox `k`? -/
def ofBox (k : Fin 8) (f : TxFrame) : Bool := f.kind == 3 && f.box == k.val

/-- A mailbox withdrawn from the queue. -/
def State.withdraw (s : State) (k : Fin 8) (ch : Fin 2) (atHead : Bool) : State :=
  ((s.setCh ch fun c => { c with queue := c.queue.filter fun f => !ofBox k f, headWait := if atHead then 0 else c.headWait }).boxResult k.val
      .cancelled).clearBusLoad

theorem State.withdraw_ch (s : State) (k : Fin 8) (ch : Fin 2) (h : Bool) : (s.withdraw k ch h).sbus.ch[ch] =
    { s.sbus.ch[ch] with queue := s.sbus.ch[ch].queue.filter fun f => !ofBox k f, headWait := if h then 0 else s.sbus.ch[ch].headWait } := by
  have e : (s.withdraw k ch h).sbus.ch = (s.setCh ch fun c => { c with
      queue := c.queue.filter fun f => !ofBox k f, headWait := if h then 0 else c.headWait }).sbus.ch :=
    (congrArg (fun b : SiteBus => b.ch) (State.clearBusLoad_sbus _)).trans (State.boxResult_ch ..)
  exact (congrArg (fun v : Vector Channel 2 => v[ch]) e).trans (State.setCh_self ..)

theorem State.withdraw_box (s : State) (k : Fin 8) (ch : Fin 2) (h : Bool) :
    (s.withdraw k ch h).sbus.boxes[k] = { s.sbus.boxes[k] with result := .cancelled, cancelHeld := s.sbus.boxes[k].cancelHeld && txBusy .cancelled }
        :=
  (congrArg (fun b : SiteBus => b.boxes[k]) (State.clearBusLoad_sbus _)).trans (State.boxResult_self ..)

theorem State.cancelBox_eq {s : State} {k : Fin 8} {ch : Fin 2} (hc : finMod 2 s.sbus.boxes[k].channel = ch) : s.cancelBox k =
    match s.sbus.boxes[k].result, s.sbus.ch[ch].queue.head?.filter (ofBox k) with
    | .pending, h => s.withdraw k ch h.isSome
    | .sending, some f =>
      if s.mt ≤ f.commitAt then
        ((s.setCh ch fun c => c.unstart f).setBox k fun x => { x with attempts := min 65535 (f.attempts - 1) }).withdraw k ch true
      else s.setBox k fun x => { x with cancelHeld := true }
    | .sending, none => s.setBox k fun x => { x with cancelHeld := true }
    | _, _ => s := by
  subst hc
  unfold State.cancelBox
  dsimp only
  rw [show (fun f : TxFrame => f.kind == 3 && f.box == k.val) = ofBox k from rfl]
  cases s.sbus.boxes[k].result <;> cases s.sbus.ch[finMod 2 s.sbus.boxes[k].channel].queue.head?.filter (ofBox k) <;> rfl

section
variable {s : State} {t : Nat} {m : Master} (hl : s.live = true) (hs : s.serves m = true) {k : Fin 8}
include hl hs

theorem mailboxSend_next (w : Word) : exec (.mailboxSend t m k w) s = .next ((s.arrive t).command m (sbusAddr (0x1004 + 0x80 * k.val))
    (if w.toNat.testBit 30 then some (deny .range) else sendRefusal s k w.toNat)
    (if w.toNat.testBit 30 then id else fun s => s.sendBox k w.toNat)) := by
  rw [exec_live hl rfl]
  dsimp only
  rw [boxCtrl_send, foreign_none (s := s.arrive t) hs, firstOf_none]
  cases w.toNat.testBit 30 <;> rfl

theorem mailboxSend_range {w : Word} (h : w.toNat.testBit 30 = true) : Completes (.mailboxSend t m k w) s fun u =>
    u.sbus = s.sbus ∧ u.host.answer = deny .range := by
  refine Completes.of (mailboxSend_next hl hs w) ?_
  rw [if_pos h, if_pos h, State.command_some]
  simp

theorem mailboxSend_refused {w : Word} {a : Answer} (h : w.toNat.testBit 30 = false) (hr : sendRefusal s k w.toNat = some a) :
    Completes (.mailboxSend t m k w) s fun u => u.sbus = s.sbus ∧ u.host.answer = a := by
  refine Completes.of (mailboxSend_next hl hs w) ?_
  rw [if_neg (by rw [h]; decide), if_neg (by rw [h]; decide), hr, State.command_some]
  simp

theorem mailboxSend_queues {w : Word} (h : w.toNat.testBit 30 = false) (hr : sendRefusal s k w.toNat = none) :
    Completes (.mailboxSend t m k w) s fun u =>
      u.sbus.ch = vupd s.sbus.ch (finMod 2 (bits w.toNat 20 1)) (fun y => { y with queue := y.queue ++ [s.boxFrame k w.toNat] }) ∧
      u.sbus.boxes[k].result = .pending ∧ u.sbus.boxes[k].data = s.sbus.boxes[k].data ∧ u.host.answer = okAnswer := by
  refine Completes.of (mailboxSend_next hl hs w) ?_
  rw [if_neg (by rw [h]; decide), if_neg (by rw [h]; decide), hr, State.command_none]
  obtain ⟨ch, result, data⟩ := (s.arrive t).sendBox_parts k w.toNat
  exact ⟨ch, result, data, rfl⟩

/-- A CANCEL of a mailbox acts on the state at its stamp. -/
theorem mailboxCancel_next {P : State → Prop} (h : P
    { (s.arrive t).cancelBox k with host := { ((s.arrive t).cancelBox k).host with answer := okAnswer } }) :
    Completes (.mailboxCancel t m k) s P := by
  refine Completes.served hl hs rfl fun u e => ?_
  subst e
  exact h

theorem mailboxCancel_idle (h : txBusy s.sbus.boxes[k].result = false) : Completes (.mailboxCancel t m k) s fun u => u.sbus = s.sbus ∧ u.host.answer
    = okAnswer := by
  refine mailboxCancel_next hl hs ?_
  have same : (s.arrive t).cancelBox k = s.arrive t := by
    rw [State.cancelBox_eq rfl]
    have h' : txBusy (s.arrive t).sbus.boxes[k].result = false := h
    generalize (s.arrive t).sbus.boxes[k].result = r at h'
    cases r <;> first | rfl | exact absurd h' (by decide)
  rw [same]
  exact ⟨rfl, rfl⟩

section
variable {ch : Fin 2} (hc : s.sbus.boxes[k].channel = ch.val)
include hc

omit hl hs in
theorem finMod_channel : finMod 2 s.sbus.boxes[k].channel = ch := by
  refine Fin.ext ?_
  show s.sbus.boxes[k].channel % 2 = ch.val
  rw [hc]
  exact Nat.mod_eq_of_lt ch.isLt

theorem mailboxCancel_pending (hp : s.sbus.boxes[k].result = .pending) : Completes (.mailboxCancel t m k) s fun u =>
    u.sbus.ch[ch].queue = s.sbus.ch[ch].queue.filter (fun f => !(f.kind == 3 && f.box == k.val)) ∧ u.sbus.boxes[k].result = .cancelled := by
  refine mailboxCancel_next hl hs ?_
  have e : (s.arrive t).cancelBox k = (s.arrive t).withdraw k ch ((s.arrive t).sbus.ch[ch].queue.head?.filter (ofBox k)).isSome := by
    rw [State.cancelBox_eq (finMod_channel (s := s.arrive t) hc), show (s.arrive t).sbus.boxes[k].result = .pending from hp]
  rw [e]
  exact ⟨congrArg Channel.queue (State.withdraw_ch (s.arrive t) k ch _), congrArg Mailbox.result (State.withdraw_box (s.arrive t) k ch _)⟩

section
variable (hr : s.sbus.boxes[k].result = .sending) {f : TxFrame} {r : List TxFrame} (hq : s.sbus.ch[ch].queue = f :: r) (h3 : f.kind = 3) (hk : f.box
    = k.val)
include hr hq h3 hk

omit hl hs in
theorem cancelBox_sending (t : Nat) : (s.arrive t).cancelBox k =
    if (s.arrive t).mt ≤ f.commitAt then
      (((s.arrive t).setCh ch fun c => c.unstart f).setBox k fun x => { x with attempts := min 65535 (f.attempts - 1) }).withdraw k ch true
    else (s.arrive t).setBox k fun x => { x with cancelHeld := true } := by
  have head : (s.arrive t).sbus.ch[ch].queue.head?.filter (ofBox k) = some f := by
    rw [State.arrive_sbus, hq]
    simp [ofBox, h3, hk]
  rw [State.cancelBox_eq (finMod_channel (s := s.arrive t) hc), show (s.arrive t).sbus.boxes[k].result = .sending from hr, head]

theorem mailboxCancel_inTime (ht : max s.mt t ≤ f.commitAt) : Completes (.mailboxCancel t m k) s fun u =>
    u.sbus.ch[ch].wire = .none ∧ u.sbus.ch[ch].queue = r.filter (fun f => !(f.kind == 3 && f.box == k.val)) ∧
    u.sbus.ch[ch].charged = s.sbus.ch[ch].charged - txNs s.sbus.ch[ch] f ∧
    u.sbus.boxes[k].result = .cancelled ∧ u.sbus.boxes[k].attempts = min 65535 (f.attempts - 1) := by
  refine mailboxCancel_next hl hs ?_
  rw [cancelBox_sending hc hr hq h3 hk t, if_pos (by exact ht)]
  have channel := State.withdraw_ch (((s.arrive t).setCh ch fun c => c.unstart f).setBox k fun x =>
      { x with attempts := min 65535 (f.attempts - 1) }) k ch true
  have box := State.withdraw_box (((s.arrive t).setCh ch fun c => c.unstart f).setBox k fun x => { x with attempts := min 65535 (f.attempts - 1) }) k
      ch true
  have self : (((s.arrive t).setCh ch fun c => c.unstart f).setBox k fun x => { x with attempts := min 65535 (f.attempts - 1) }).sbus.ch[ch] =
      s.sbus.ch[ch].unstart f := State.setCh_self (s.arrive t) ch _
  have attempts : (((s.arrive t).setCh ch fun c => c.unstart f).setBox k fun x => { x with attempts := min 65535 (f.attempts - 1) }).sbus.boxes[k] =
      { s.sbus.boxes[k] with attempts := min 65535 (f.attempts - 1) } := State.setBox_self ((s.arrive t).setCh ch fun c => c.unstart f) k _
  rw [self] at channel
  rw [attempts] at box
  refine ⟨congrArg Channel.wire channel, (congrArg Channel.queue channel).trans ?_, congrArg Channel.charged channel, congrArg Mailbox.result box,
    congrArg Mailbox.attempts box⟩
  show s.sbus.ch[ch].queue.filter (fun f => !ofBox k f) = _
  rw [hq, List.filter_cons_of_neg (by simp [ofBox, h3, hk])]
  rfl

theorem mailboxCancel_late (ht : f.commitAt < max s.mt t) : Completes (.mailboxCancel t m k) s fun u =>
    u.sbus = { s.sbus with boxes := vupd s.sbus.boxes k fun y => { y with cancelHeld := true } } := by
  refine mailboxCancel_next hl hs ?_
  rw [cancelBox_sending hc hr hq h3 hk t, if_neg (by exact Nat.not_le.2 ht)]
  rfl

end
end
end

/-- Settles O47. -/
theorem busSending : Obligations.BusSending := by
  unfold Obligations.BusSending
  intro s t m ch k hl hs b c x now sof
  refine ⟨fun start len ho => ⟨fun h1 h2 => ⟨fun f r hq hm => ⟨fun ha hr => ?_, arbitratingWindow_waits hl ho h1 h2 hq hm⟩, arbitratingWindow_busy hl
      ho h1 h2⟩,
      arbitratingWindow_enters hl ho⟩, arbitratingWindow_late hl, fun f r hq hw => ⟨canTxComplete_sent hl hq hw, ?_, ?_, ?_⟩,
    fun hw => ⟨canTxComplete_none hl hw, fun how hh => canTxError_none hl hw hh⟩, fun w => ⟨mailboxSend_range hl hs, mailboxSend_queues hl hs,
      fun a => mailboxSend_refused hl hs⟩,
    fun hr hc f r hq h3 hk => ⟨mailboxCancel_inTime hl hs hc hr hq h3 hk, mailboxCancel_late hl hs hc hr hq h3 hk⟩,
    fun hp hc => mailboxCancel_pending hl hs hc hp, mailboxCancel_idle hl hs⟩
  · exact arbitratingWindow_attempts hl ho h1 h2 hq hm ha hr
  · obtain ⟨u, e, wire, tec, charged, box⟩ := canTxError_fails (t := t) (how := .lost) (k := k) hl hq hw (by decide)
    exact ⟨u, e, wire, tec, charged, fun h3 hk hc => (box h3 hk).1 hc⟩
  · obtain ⟨u, e, wire, tec, _⟩ := canTxError_fails (t := t) (how := .noAck) (k := k) hl hq hw (by decide)
    exact ⟨u, e, wire, tec⟩
  · obtain ⟨u, e, wire, tec, charged, box⟩ := canTxError_fails (t := t) (how := .error) (k := k) hl hq hw (by decide)
    exact ⟨u, e, wire, tec, charged, fun h3 hk hc => (box h3 hk).2 hc⟩

end Sys2Proof.Machine
end

section
/-! PROOFS. The transmit-at-time buffers (R362, R372, R373, R374, R375). -/
namespace Sys2Proof.Machine

/-! ## A buffer -/

theorem State.setTat_self (s : State) (k : Fin 4) (f : TatBuf → TatBuf) : (s.setTat k f).sbus.tats[k] = f s.sbus.tats[k] := vupd_here ..

theorem State.tatResult_self (s : State) (k : Fin 4) (r : TxResult) (sof : Nat) (stop : Bool) : (s.tatResult k r sof stop).sbus.tats[k] =
    { s.sbus.tats[k] with result := r, next := if stop || !s.sbus.tats[k].periodic then none else some (s.occurrenceEnd s.sbus.tats[k] sof),
                          cancelHeld := false } :=
  (congrArg (fun b : SiteBus => b.tats[k]) (State.bump_sbus ..)).trans (vupd_here ..)

theorem State.tatResult_ch (s : State) (k : Fin 4) (r : TxResult) (sof : Nat) (stop : Bool) : (s.tatResult k r sof stop).sbus.ch = s.sbus.ch :=
  (congrArg (fun b : SiteBus => b.ch) (State.bump_sbus ..)).trans rfl

/-! ## The commit point (R373) -/

/-- A LOAD that waits takes effect. -/
def State.loaded (s : State) (k : Fin 4) : State :=
  if s.sbus.tats[k].loadPend then s.setTat k fun x => { x with data := x.shadow, loadPend := false } else s

/-- A buffer whose waiting LOAD has taken effect. -/
def TatBuf.loaded (x : TatBuf) : TatBuf := { x with data := if x.loadPend then x.shadow else x.data, loadPend := false }

theorem State.loaded_self (s : State) (k : Fin 4) : (s.loaded k).sbus.tats[k] = s.sbus.tats[k].loaded := by
  unfold State.loaded TatBuf.loaded
  cases h : s.sbus.tats[k].loadPend with
  | true =>
    rw [if_pos rfl, State.setTat_self]
    rfl
  | false =>
    rw [if_neg (by decide)]
    conv => rhs; rw [if_neg (by decide), ← h]

/-- It is no matter of anything else. -/
theorem State.loaded_eq (s : State) (k : Fin 4) : ∃ v, s.loaded k = { s with sbus := { s.sbus with tats := v } } := by
  unfold State.loaded
  split
  · exact ⟨_, rfl⟩
  · exact ⟨s.sbus.tats, rfl⟩

section
variable {s : State} {t : Nat} {k : Fin 4} (hl : s.live = true)
include hl

section
variable {sof : Nat} {ch : Fin 2} {w : BusWin} (hn : (s.arrive t).tatNext s.sbus.tats[k] = some sof) (hw : s.bufWindow s.sbus.tats[k] = some (ch, w))
include hn hw

theorem tatCommitPoint_next (idle : Bool) : exec (.tatCommitPoint t k idle) s = .next (
    if sof = t + s.sbus.ch[ch].bitNs ∧ s.sbus.tats[k].result ≠ .sending then
      match tatObstacle (s.arrive t) s.sbus.tats[k] ch sof idle with
      | some r => ((s.arrive t).loaded k).tatResult k (if s.sbus.tats[k].cancelHeld then .cancelled else r) sof s.sbus.tats[k].cancelHeld
      | none =>
        ((((s.arrive t).loaded k).setTat k fun x => { x with
          brs := s.sbus.ch[ch].brsOf s.sbus.tats[k].brs, result := .sending, attempts := 1, commitAt := max s.mt t, next := some sof }).setCh ch
          fun c => { c with wire := .tat k }).bump 10
    else s.arrive t) := by
  have next' : (s.arrive t).tatNext (s.arrive t).sbus.tats[k] = some sof := hn
  have window : (s.arrive t).bufWindow (s.arrive t).sbus.tats[k] = some (ch, w) := hw
  have obstacle : tatObstacle ((s.arrive t).loaded k) s.sbus.tats[k] ch sof idle = tatObstacle (s.arrive t) s.sbus.tats[k] ch sof idle := by
    obtain ⟨v, e⟩ := (s.arrive t).loaded_eq k
    rw [e]
    rfl
  have rest : ((s.arrive t).loaded k).sbus.ch = s.sbus.ch ∧ ((s.arrive t).loaded k).mt = max s.mt t := by
    obtain ⟨v, e⟩ := (s.arrive t).loaded_eq k
    rw [e]
    exact ⟨rfl, rfl⟩
  obtain ⟨channels, mt⟩ := rest
  have rate : (((s.arrive t).loaded k).sbus.ch[ch]).brsOf s.sbus.tats[k].brs = s.sbus.ch[ch].brsOf s.sbus.tats[k].brs :=
    congrArg (fun v : Vector Channel 2 => v[ch].brsOf s.sbus.tats[k].brs) channels
  rw [show exec (.tatCommitPoint t k idle) s = .next (doTatCommitPoint t k idle s) from rfl]
  refine congrArg Host.Outcome.next ?_
  unfold doTatCommitPoint
  rw [whenScanning_live hl]
  simp only [next', window]
  rw [← obstacle, ← rate, ← mt]
  rfl

theorem tatCommitPoint_sends (hr : s.sbus.tats[k].result ≠ .sending) (hs : sof = t + s.sbus.ch[ch].bitNs) {idle : Bool}
    (ho : tatObstacle (s.arrive t) s.sbus.tats[k] ch sof idle = none) : Completes (.tatCommitPoint t k idle) s fun u =>
      u.sbus.tats[k].result = .sending ∧ u.sbus.tats[k].attempts = 1 ∧ u.sbus.tats[k].commitAt = max s.mt t ∧ u.sbus.ch[ch].wire = .tat k ∧
      u.sbus.tats[k].data = (if s.sbus.tats[k].loadPend then s.sbus.tats[k].shadow else s.sbus.tats[k].data) ∧ u.sbus.tats[k].loadPend = false := by
  refine Completes.of (tatCommitPoint_next hl hn hw idle) ?_
  rw [if_pos ⟨hs, hr⟩, ho]
  dsimp only
  have self : ∀ f : TatBuf → TatBuf, ((((s.arrive t).loaded k).setTat k f).setCh ch fun c => { c with wire := .tat k }).sbus.tats[k] =
      f s.sbus.tats[k].loaded := fun f => (State.setTat_self ((s.arrive t).loaded k) k f).trans (congrArg f ((s.arrive t).loaded_self k))
  have tat := self fun x => { x with
    brs := s.sbus.ch[ch].brsOf s.sbus.tats[k].brs, result := .sending, attempts := 1, commitAt := max s.mt t, next := some sof }
  have wire := State.setCh_self (((s.arrive t).loaded k).setTat k fun x => { x with
    brs := s.sbus.ch[ch].brsOf s.sbus.tats[k].brs, result := .sending, attempts := 1, commitAt := max s.mt t, next := some sof }) ch fun c => { c
        with wire := .tat k }
  exact ⟨congrArg TatBuf.result tat, congrArg TatBuf.attempts tat, congrArg TatBuf.commitAt tat, congrArg Channel.wire wire, congrArg TatBuf.data tat,
    congrArg TatBuf.loadPend tat⟩

theorem tatCommitPoint_reports (hr : s.sbus.tats[k].result ≠ .sending) (hs : sof = t + s.sbus.ch[ch].bitNs) {idle : Bool} {r : TxResult}
    (ho : tatObstacle (s.arrive t) s.sbus.tats[k] ch sof idle = some r) : Completes (.tatCommitPoint t k idle) s fun u =>
      u.sbus.tats[k].result = (if s.sbus.tats[k].cancelHeld then .cancelled else r) ∧ u.sbus.ch = s.sbus.ch ∧
      u.sbus.tats[k].data = (if s.sbus.tats[k].loadPend then s.sbus.tats[k].shadow else s.sbus.tats[k].data) ∧
      u.sbus.tats[k].next = (if s.sbus.tats[k].periodic = false ∨ s.sbus.tats[k].cancelHeld = true then none
        else some ((s.arrive t).occurrenceEnd s.sbus.tats[k] sof)) := by
  refine Completes.of (tatCommitPoint_next hl hn hw idle) ?_
  rw [if_pos ⟨hs, hr⟩, ho]
  dsimp only
  have tat := State.tatResult_self ((s.arrive t).loaded k) k (if s.sbus.tats[k].cancelHeld then .cancelled else r) sof s.sbus.tats[k].cancelHeld
  rw [State.loaded_self] at tat
  obtain ⟨v, e⟩ := (s.arrive t).loaded_eq k
  refine ⟨congrArg TatBuf.result tat, ?_, congrArg TatBuf.data tat, (congrArg TatBuf.next tat).trans ?_⟩
  · rw [State.tatResult_ch, e]
    rfl
  · have ends : ((s.arrive t).loaded k).occurrenceEnd (s.arrive t).sbus.tats[k].loaded sof = (s.arrive t).occurrenceEnd s.sbus.tats[k] sof := by
      rw [e]
      rfl
    show (if s.sbus.tats[k].cancelHeld || !s.sbus.tats[k].periodic then none else some (((s.arrive t).loaded k).occurrenceEnd _ sof)) = _
    rw [ends]
    refine ite_congr (propext ?_) (fun _ => rfl) fun _ => rfl
    cases s.sbus.tats[k].cancelHeld <;> cases s.sbus.tats[k].periodic <;> simp

theorem tatCommitPoint_early (hs : sof ≠ t + s.sbus.ch[ch].bitNs) (idle : Bool) : Completes (.tatCommitPoint t k idle) s fun u => u.sbus = s.sbus :=
    by
  refine Completes.of (tatCommitPoint_next hl hn hw idle) ?_
  rw [if_neg fun h => hs h.1]
  rfl

end
end

/-! ## ARM, LOAD and CANCEL (R372, R374, R375) -/

theorem armRefusal_setBit {i : Nat} (hi : 19 < i) (s : State) (k : Fin 4) (v : Nat) : armRefusal s k (setBit v i) = armRefusal s k v := by
  unfold armRefusal
  simp only [testBit_setBit, bits_setBit (n := v) (i := i) (lo := 0) (len := 4) (by omega), show (i = 19) = False by simp; omega,
    show (i = 18) = False by simp; omega, decide_false, Bool.or_false]

theorem State.armTat_setBit {i : Nat} (hi : 19 < i) (s : State) (k : Fin 4) (v : Nat) : s.armTat k (setBit v i) = s.armTat k v := by
  unfold State.armTat
  simp only [testBit_setBit, bits_setBit (n := v) (i := i) (lo := 0) (len := 4) (by omega), show (i = 19) = False by simp; omega,
    show (i = 18) = False by simp; omega, decide_false, Bool.or_false]

/-- A CTRL word with ARM, and what CANCEL in the same word does to it (R518). -/
theorem tatCtrl_arm (s : State) (k : Fin 4) (v : Nat) : tatCtrl s k (setBit v 31) =
    if v.testBit 30 then (some (deny .range), id)
    else (armRefusal s k v, fun s => (if v.testBit 29 then s.loadTat k else s).armTat k v) := by
  have bit : ∀ j, j ≠ 31 → (setBit v 31).testBit j = v.testBit j := fun j h => by
    rw [testBit_setBit]
    simp [h.symm]
  have b31 : (setBit v 31).testBit 31 = true := by
    rw [testBit_setBit]
    simp
  unfold tatCtrl
  rw [severalBits_upper, severalBits_middle, bit 30 (by decide), bit 29 (by decide), b31, armRefusal_setBit (by decide), Bool.and_true, if_pos rfl]
  simp only [State.armTat_setBit (by decide : 19 < 31)]
  cases v.testBit 30 <;> cases v.testBit 29 <;> rfl

/-- A CTRL word with LOAD, and what CANCEL or ARM in the same word does to it (R518). -/
theorem tatCtrl_load (s : State) (k : Fin 4) (v : Nat) : tatCtrl s k (setBit v 29) =
    if v.testBit 30 then (some (deny .range), id)
    else if v.testBit 31 then (armRefusal s k v, fun s => (s.loadTat k).armTat k v)
    else (none, fun s => s.loadTat k) := by
  have bit : ∀ j, j ≠ 29 → (setBit v 29).testBit j = v.testBit j := fun j h => by
    rw [testBit_setBit]
    simp [h.symm]
  have b29 : (setBit v 29).testBit 29 = true := by
    rw [testBit_setBit]
    simp
  unfold tatCtrl
  rw [severalBits_upper, severalBits_middle, bit 30 (by decide), bit 31 (by decide), b29, armRefusal_setBit (by decide), if_pos rfl]
  simp only [State.armTat_setBit (by decide : 19 < 29)]
  cases v.testBit 30 <;> cases v.testBit 31 <;> rfl

/-- What ARM leaves of the buffer. -/
theorem State.armTat_self (s : State) (k : Fin 4) (v : Nat) : (s.armTat k v).sbus.tats[k] = { s.sbus.tats[k] with
    fd := v.testBit 19
    brs := match s.bufWindow s.sbus.tats[k] with | some (ch, _) => s.sbus.ch[ch].brsOf (v.testBit 18) | none => v.testBit 18
    dlc := bits v 0 4
    result := .pending
    attempts := 0
    cancelHeld := false
    next := some (if s.sbus.tats[k].periodic
      then s.mt + (match s.bufWindow s.sbus.tats[k] with | some (ch, _) => s.sbus.ch[ch].bitNs | none => 0) else s.sbus.tats[k].time) } := by
  unfold State.armTat
  exact (congrArg (fun b : SiteBus => b.tats[k]) (State.bump_sbus ..)).trans (State.setTat_self ..)

theorem State.loadTat_self (s : State) (k : Fin 4) : (s.loadTat k).sbus.tats[k] = { s.sbus.tats[k] with loadPend := true } := State.setTat_self ..

/-- A LOAD is no matter of the window. -/
theorem State.loadTat_window (s : State) (k : Fin 4) : (s.loadTat k).bufWindow (s.loadTat k).sbus.tats[k] = s.bufWindow s.sbus.tats[k] := by
  rw [State.loadTat_self]
  rfl

section
variable {s : State} {t : Nat} {m : Master} (hl : s.live = true) (hs : s.serves m = true) {k : Fin 4}
include hl hs

theorem tatArm_next (w : Word) : exec (.tatArm t m k w) s = .next ((s.arrive t).command m (sbusAddr (0x2010 + 0x80 * k.val))
    (tatCtrl (s.arrive t) k (setBit w.toNat 31)).1 (tatCtrl (s.arrive t) k (setBit w.toNat 31)).2) := by
  rw [show exec (.tatArm t m k w) s = .next (tatCommand t m k w 31 s) from rfl]
  unfold tatCommand
  rw [whenLive_live hl, foreign_none (s := s.arrive t) hs]
  rfl

theorem tatLoad_next (w : Word) : exec (.tatLoad t m k w) s = .next ((s.arrive t).command m (sbusAddr (0x2010 + 0x80 * k.val))
    (tatCtrl (s.arrive t) k (setBit w.toNat 29)).1 (tatCtrl (s.arrive t) k (setBit w.toNat 29)).2) := by
  rw [show exec (.tatLoad t m k w) s = .next (tatCommand t m k w 29 s) from rfl]
  unfold tatCommand
  rw [whenLive_live hl, foreign_none (s := s.arrive t) hs]
  rfl

section
variable {w : Word}

theorem tatCtrl_range (h : w.toNat.testBit 30 = true) : (Completes (.tatArm t m k w) s fun u => u.sbus = s.sbus ∧ u.host.answer = deny .range) ∧
    Completes (.tatLoad t m k w) s fun u => u.sbus = s.sbus ∧ u.host.answer = deny .range := by
  refine ⟨Completes.of (tatArm_next hl hs w) ?_, Completes.of (tatLoad_next hl hs w) ?_⟩
  · rw [tatCtrl_arm, if_pos h, State.command_some]
    simp
  · rw [tatCtrl_load, if_pos h, State.command_some]
    simp

section
variable (h30 : w.toNat.testBit 30 = false)
include h30

theorem tatArm_refused {r : Answer} (hr : armRefusal (s.arrive t) k w.toNat = some r) :
    Completes (.tatArm t m k w) s fun u => u.sbus = s.sbus ∧ u.host.answer = r := by
  refine Completes.of (tatArm_next hl hs w) ?_
  rw [tatCtrl_arm, if_neg (by rw [h30]; decide), hr, State.command_some]
  simp

theorem tatArm_arms (hr : armRefusal (s.arrive t) k w.toNat = none) : Completes (.tatArm t m k w) s fun u =>
    let x := s.sbus.tats[k]
    let y := u.sbus.tats[k]
    y.result = .pending ∧ y.attempts = 0 ∧ y.fd = w.toNat.testBit 19 ∧
    (∀ ch w', s.bufWindow x = some (ch, w') → y.brs = s.sbus.ch[ch].brsOf (w.toNat.testBit 18)) ∧
    y.dlc = bits w.toNat 0 4 ∧ (x.periodic = false → y.next = some x.time) ∧
    (x.periodic = true → ∀ ch w', s.bufWindow x = some (ch, w') → y.next = some (max s.mt t + s.sbus.ch[ch].bitNs)) ∧
    y.loadPend = (x.loadPend || w.toNat.testBit 29) ∧ u.host.answer = okAnswer := by
  refine Completes.of (tatArm_next hl hs w) ?_
  rw [tatCtrl_arm, if_neg (by rw [h30]; decide), hr, State.command_none]
  dsimp only
  generalize hv : (if w.toNat.testBit 29 then (s.arrive t).loadTat k else s.arrive t) = v
  have parts : v.sbus.tats[k] = { s.sbus.tats[k] with loadPend := s.sbus.tats[k].loadPend || w.toNat.testBit 29 } ∧
      v.bufWindow v.sbus.tats[k] = s.bufWindow s.sbus.tats[k] ∧ v.sbus.ch = s.sbus.ch ∧ v.mt = max s.mt t := by
    rw [← hv]
    cases w.toNat.testBit 29 with
    | true =>
      rw [if_pos rfl, Bool.or_true]
      exact ⟨State.loadTat_self .., State.loadTat_window .., rfl, rfl⟩
    | false =>
      rw [if_neg (by decide), Bool.or_false]
      exact ⟨rfl, rfl, rfl, rfl⟩
  obtain ⟨tat, window, channels, mt⟩ := parts
  have rate : ∀ ch : Fin 2, v.sbus.ch[ch] = s.sbus.ch[ch] := fun ch => congrArg (fun v : Vector Channel 2 => v[ch]) channels
  have armed := v.armTat_self k w.toNat
  rw [window, tat] at armed
  refine ⟨congrArg TatBuf.result armed, congrArg TatBuf.attempts armed, congrArg TatBuf.fd armed, fun ch w' hw => (congrArg TatBuf.brs armed).trans
      ?_,
    congrArg TatBuf.dlc armed, fun hp => (congrArg TatBuf.next armed).trans ?_, fun hp ch w' hw => (congrArg TatBuf.next armed).trans ?_,
    congrArg TatBuf.loadPend armed, rfl⟩
  · simp only [hw, rate]
  · simp only [hp, Bool.false_eq_true, ↓reduceIte]
  · simp only [hp, hw, rate, mt, ↓reduceIte]

theorem tatLoad_loads (h31 : w.toNat.testBit 31 = false) : Completes (.tatLoad t m k w) s fun u =>
    u.sbus = { s.sbus with tats := vupd s.sbus.tats k fun y => { y with loadPend := true } } ∧ u.host.answer = okAnswer := by
  refine Completes.of (tatLoad_next hl hs w) ?_
  rw [tatCtrl_load, if_neg (by rw [h30]; decide), if_neg (by rw [h31]; decide), State.command_none]
  exact ⟨rfl, rfl⟩

theorem tatLoad_arms (h31 : w.toNat.testBit 31 = true) (hr : armRefusal (s.arrive t) k w.toNat = none) : Completes (.tatLoad t m k w) s fun u =>
    u.sbus.tats[k].result = .pending ∧ u.sbus.tats[k].loadPend = true ∧ u.host.answer = okAnswer := by
  refine Completes.of (tatLoad_next hl hs w) ?_
  rw [tatCtrl_load, if_neg (by rw [h30]; decide), if_pos h31, hr, State.command_none]
  have armed := ((s.arrive t).loadTat k).armTat_self k w.toNat
  have load := congrArg TatBuf.loadPend ((s.arrive t).loadTat_self k)
  exact ⟨congrArg TatBuf.result armed, (congrArg TatBuf.loadPend armed).trans load, rfl⟩

end
end

/-- A CANCEL of a buffer acts on the state at its stamp. -/
theorem tatCancel_next {P : State → Prop} (h : P
    { (s.arrive t).cancelTat k with host := { ((s.arrive t).cancelTat k).host with answer := okAnswer } }) :
    Completes (.tatCancel t m k) s P := by
  refine Completes.served hl hs rfl fun u e => ?_
  subst e
  exact h

section
variable (hr : s.sbus.tats[k].result = .sending)
include hr

theorem tatCancel_inTime (ht : max s.mt t ≤ s.sbus.tats[k].commitAt) : Completes (.tatCancel t m k) s fun u =>
    u.sbus.tats[k].result = .cancelled ∧ u.sbus.tats[k].attempts = 0 ∧ u.sbus.tats[k].next = none ∧ u.sbus.ch[finMod 2 s.sbus.tats[k].channel].wire =
        .none := by
  refine tatCancel_next hl hs ?_
  unfold State.cancelTat
  dsimp only
  rw [if_pos (by exact hr), if_pos (by exact ht)]
  have tat := State.tatResult_self (((s.arrive t).setCh (finMod 2 s.sbus.tats[k].channel) fun c => { c with wire := .none }).setTat k
    fun x => { x with attempts := 0 }) k .cancelled 0 true
  have before := State.setTat_self ((s.arrive t).setCh (finMod 2 s.sbus.tats[k].channel) fun c => { c with wire := .none }) k fun x =>
      { x with attempts := 0 }
  have channels := State.tatResult_ch (((s.arrive t).setCh (finMod 2 s.sbus.tats[k].channel) fun c => { c with wire := .none }).setTat k
    fun x => { x with attempts := 0 }) k .cancelled 0 true
  have wire := State.setCh_self (s.arrive t) (finMod 2 s.sbus.tats[k].channel) fun c => { c with wire := .none }
  exact ⟨congrArg TatBuf.result tat, (congrArg TatBuf.attempts tat).trans (congrArg TatBuf.attempts before), congrArg TatBuf.next tat,
    (congrArg (fun v : Vector Channel 2 => v[finMod 2 s.sbus.tats[k].channel].wire) channels).trans (congrArg Channel.wire wire)⟩

theorem tatCancel_late (ht : s.sbus.tats[k].commitAt < max s.mt t) : Completes (.tatCancel t m k) s fun u =>
    u.sbus = { s.sbus with tats := vupd s.sbus.tats k fun y => { y with cancelHeld := true } } := by
  refine tatCancel_next hl hs ?_
  unfold State.cancelTat
  dsimp only
  rw [if_pos (by exact hr), if_neg (by exact Nat.not_le.2 ht)]
  rfl

end

section
variable (hr : s.sbus.tats[k].result ≠ .sending)
include hr

omit hl hs hr in
/-- Ended before an attempt. -/
theorem State.tatResult_cancelled (w : State) : (w.tatResult k .cancelled 0 true).sbus.tats[k].result = .cancelled ∧
    (w.tatResult k .cancelled 0 true).sbus.tats[k].next = none := by
  have tat := State.tatResult_self w k .cancelled 0 true
  exact ⟨congrArg TatBuf.result tat, congrArg TatBuf.next tat⟩

omit hl hs in
theorem cancelTat_waiting (t : Nat) : (s.arrive t).cancelTat k =
    match (s.arrive t).tatNext s.sbus.tats[k] with
    | some sof => if max s.mt t + (s.sbus.ch[finMod 2 s.sbus.tats[k].channel]).bitNs ≤ sof then (s.arrive t).tatResult k .cancelled 0 true
      else (s.arrive t).setTat k fun x => { x with cancelHeld := true }
    | none => if s.sbus.tats[k].result = .pending then (s.arrive t).tatResult k .cancelled 0 true else s.arrive t := by
  unfold State.cancelTat
  dsimp only
  rw [if_neg (by exact hr)]
  rfl

theorem tatCancel_due {sof : Nat} (hn : (s.arrive t).tatNext s.sbus.tats[k] = some sof) :
    (max s.mt t + (s.sbus.ch[finMod 2 s.sbus.tats[k].channel]).bitNs ≤ sof → Completes (.tatCancel t m k) s fun u =>
      u.sbus.tats[k].result = .cancelled ∧ u.sbus.tats[k].next = none) ∧
    (sof < max s.mt t + (s.sbus.ch[finMod 2 s.sbus.tats[k].channel]).bitNs → Completes (.tatCancel t m k) s fun u =>
      u.sbus = { s.sbus with tats := vupd s.sbus.tats k fun y => { y with cancelHeld := true } }) := by
  refine ⟨fun h => tatCancel_next hl hs ?_, fun h => tatCancel_next hl hs ?_⟩
  · rw [cancelTat_waiting hr t, hn]
    dsimp only
    rw [if_pos h]
    exact State.tatResult_cancelled (s.arrive t)
  · rw [cancelTat_waiting hr t, hn]
    dsimp only
    rw [if_neg (Nat.not_le.2 h)]
    rfl

theorem tatCancel_stopped (hn : (s.arrive t).tatNext s.sbus.tats[k] = none) :
    (s.sbus.tats[k].result = .pending → Completes (.tatCancel t m k) s fun u => u.sbus.tats[k].result = .cancelled ∧ u.sbus.tats[k].next = none) ∧
    (s.sbus.tats[k].result ≠ .pending → Completes (.tatCancel t m k) s fun u => u.sbus = s.sbus ∧ u.host.answer = okAnswer) := by
  refine ⟨fun h => tatCancel_next hl hs ?_, fun h => tatCancel_next hl hs ?_⟩
  · rw [cancelTat_waiting hr t, hn]
    dsimp only
    rw [if_pos h]
    exact State.tatResult_cancelled (s.arrive t)
  · rw [cancelTat_waiting hr t, hn]
    dsimp only
    rw [if_neg h]
    exact ⟨rfl, rfl⟩

end
end

/-- Settles O48. -/
theorem transmitAtTime : Obligations.TransmitAtTime := by
  unfold Obligations.TransmitAtTime
  intro s t m k hl hs
  exact ⟨fun sof ch w hn hw hr => ⟨fun hs idle => ⟨tatCommitPoint_sends hl hn hw hr hs, fun r => tatCommitPoint_reports hl hn hw hr hs⟩,
      fun hs idle => tatCommitPoint_early hl hn hw hs idle⟩,
    fun w => ⟨tatCtrl_range hl hs, tatArm_arms hl hs, fun r h30 hr => tatArm_refused hl hs h30 hr, tatLoad_loads hl hs, tatLoad_arms hl hs⟩,
    fun hr => ⟨tatCancel_inTime hl hs hr, tatCancel_late hl hs hr⟩, fun hr sof hn => tatCancel_due hl hs hr hn, fun hr hn => tatCancel_stopped hl hs
        hr hn⟩

end Sys2Proof.Machine
end

section
/-! PROOFS. Frames received, misses, the receive FIFOs and the error states (R357, R376, R377, R378, R382, R383). -/
namespace Sys2Proof.Machine

/-! ## Error counters (R378) -/

/-- A channel with its error counters changed. -/
def Channel.erred (c : Channel) (tec rec_ : Nat) : Channel :=
  { c with tec := min 255 tec, rec_ := min 255 rec_, err := errOf tec rec_, busOff := if errOf tec rec_ = 2 ∧ c.err ≠ 2 then satInc 8 c.busOff else
      c.busOff }

theorem State.setErr_self (s : State) (ch : Fin 2) (tec rec_ : Nat) : (s.setErr ch tec rec_).sbus.ch[ch] = s.sbus.ch[ch].erred tec rec_ :=
  (congrArg (fun b : SiteBus => b.ch[ch]) (s.setErr_sbus ch tec rec_)).trans (vupd_here ..)

theorem State.setErr_rest (s : State) (ch : Fin 2) (tec rec_ : Nat) :
    (s.setErr ch tec rec_).sbus = { s.sbus with ch := (s.setErr ch tec rec_).sbus.ch } := by
  rw [s.setErr_sbus ch tec rec_]

/-- The wake decoder's count after an erroneous frame. -/
def wokenUp (b : SiteBus) (ch : Fin 2) (how : RxErr) : Nat :=
  if b.wakeCh = ch.val ∧ b.wakeMode.testBit 2 = true ∧ how = .detected false then b.wakeErr + 1 else b.wakeErr

section
variable {s : State} {t : Nat} {ch : Fin 2} (hl : s.live = true)
include hl

theorem busOffRecovery_recovers (h : s.sbus.ch[ch].err = 2) : Completes (.busOffRecovery t ch) s fun u =>
    u.sbus.ch[ch] = { s.sbus.ch[ch] with tec := 0, rec_ := 0, err := 0 } := by
  refine Completes.live hl rfl ?_
  rw [if_pos (by exact h), State.setErr_self]
  rfl

theorem busOffRecovery_none (h : s.sbus.ch[ch].err ≠ 2) : Completes (.busOffRecovery t ch) s fun u => u.sbus = s.sbus := by
  refine Completes.live hl rfl ?_
  rw [if_neg (by exact h)]
  rfl

section
variable (he : s.sbus.ch[ch].err ≠ 2) (hu : s.chInUse ch = true)
include he hu

theorem canTxError_counts : Completes (.canTxError t ch .flag) s fun u =>
    u.sbus.ch[ch].tec = min 255 (s.sbus.ch[ch].tec + 8) ∧ u.sbus.ch[ch].err = errOf (s.sbus.ch[ch].tec + 8) s.sbus.ch[ch].rec_ := by
  refine Completes.live hl rfl ?_
  have self := State.setErr_self (s.arrive t) ch (s.sbus.ch[ch].tec + 8) s.sbus.ch[ch].rec_
  have counts : ¬ ((s.arrive t).sbus.ch[ch].err = 2 ∨ (!(s.arrive t).chInUse ch) = true) := by
    show ¬ (s.sbus.ch[ch].err = 2 ∨ (!s.chInUse ch) = true)
    rw [hu]
    simpa [-Fin.getElem_fin] using he
  dsimp only
  rw [if_pos rfl, if_neg counts]
  exact ⟨congrArg Channel.tec self, congrArg Channel.err self⟩

theorem canRxError_counts (how : RxErr) : Completes (.canRxError t ⟨ch, how⟩) s fun u =>
    u.sbus.ch[ch].rec_ = min 255 (s.sbus.ch[ch].rec_ + if how = .flag then 8 else 1) ∧
    u.sbus.ch[ch].err = errOf s.sbus.ch[ch].tec (s.sbus.ch[ch].rec_ + if how = .flag then 8 else 1) ∧
    u.sbus.wakeErr = if s.sbus.wakeCh = ch.val ∧ s.sbus.wakeMode.testBit 2 = true ∧ how = .detected false then s.sbus.wakeErr + 1 else s.sbus.wakeErr
        := by
  refine Completes.scanning hl rfl ?_
  have count : rxCount how = if how = .flag then 8 else 1 := by
    cases how <;> rfl
  have counts : ¬ ((s.arrive t).sbus.ch[ch].err = 2 ∨ (!(s.arrive t).chInUse ch) = true) := by
    show ¬ (s.sbus.ch[ch].err = 2 ∨ (!s.chInUse ch) = true)
    rw [hu]
    simpa [-Fin.getElem_fin] using he
  have bad : ((s.arrive t).wakeBad ch how).sbus = { s.sbus with wakeErr := wokenUp s.sbus ch how } := by
    unfold State.wakeBad wokenUp
    rw [State.arrive_sbus]
    split <;> rfl
  dsimp only
  rw [show (s.arrive t).live = true from hl, if_neg (by decide), if_neg counts, ← count]
  generalize (s.arrive t).wakeBad ch how = w at bad ⊢
  have self := w.setErr_self ch (s.arrive t).sbus.ch[ch].tec ((s.arrive t).sbus.ch[ch].rec_ + rxCount how)
  have rest := w.setErr_rest ch (s.arrive t).sbus.ch[ch].tec ((s.arrive t).sbus.ch[ch].rec_ + rxCount how)
  refine ⟨congrArg Channel.rec_ self, congrArg Channel.err self, ?_⟩
  rw [rest, bad]
  rfl

end

/-! ## Misses and POP (R377, R383) -/

theorem slotMiss_counts {k : Fin 32} {w : BusWin} (he : s.sbus.slots[k].en = true) (hw : s.slotWindow s.sbus.slots[k] = some w)
    (h : ∀ e, s.sbus.slots[k].entry = some e → e.stamp + w.lengthNs < t) : Completes (.slotMiss t k) s fun u =>
      u.sbus = { s.sbus with slots := vupd s.sbus.slots k fun y => { y with miss := satInc 6 y.miss } } := by
  have window : (s.arrive t).slotWindow (s.arrive t).sbus.slots[k] = some w := hw
  have unseen : (match s.sbus.slots[k].entry with | some e => decide (t ≤ e.stamp + w.lengthNs) | none => false) = false := by
    cases hx : s.sbus.slots[k].entry with
    | none => rfl
    | some e => exact decide_eq_false (Nat.not_le.2 (h e hx))
  refine Completes.live hl rfl ?_
  simp only [window]
  refine (congrArg State.sbus (if_pos ?_)).trans ?_
  · show (s.sbus.slots[k].en && !(match s.sbus.slots[k].entry with | some e => decide (t ≤ e.stamp + w.lengthNs) | none => false)) = true
    rw [he, unseen]
    rfl
  · rfl

theorem slotMiss_none {k : Fin 32} (h : s.sbus.slots[k].en = false ∨ s.slotWindow s.sbus.slots[k] = none) :
    Completes (.slotMiss t k) s fun u => u.sbus = s.sbus := by
  refine Completes.live hl rfl ?_
  dsimp only
  split
  · next w hw =>
    have off : s.sbus.slots[k].en = false := h.resolve_right fun x => nomatch x.symm.trans hw
    rw [if_neg]
    · rfl
    · rw [show (s.arrive t).sbus.slots[k].en = false from off]
      simp
  · rfl

theorem fifoPop_pops {m : Master} (hs : s.serves m = true) : Completes (.fifoPop t m ch) s fun u =>
    u.sbus = { s.sbus with ch := vupd s.sbus.ch ch fun y => { y with fifo := y.fifo.drop 1 } } ∧ u.host.answer = okAnswer := by
  refine Completes.served hl hs rfl fun u e => ?_
  subst e
  exact ⟨rfl, rfl⟩

/-! ## Frames received (R376, R377, R382) -/

/-- The wake decoder's count after a valid frame. -/
def wokenDown (b : SiteBus) (ch : Fin 2) (f : CanFrame) : Nat :=
  if b.wakeCh = ch.val ∧ f.fd = false ∧ f.remote = false then b.wakeErr - 1 else b.wakeErr

omit hl in
theorem State.wakeGood_eq (w : State) (ch : Fin 2) (f : CanFrame) : w.wakeGood ch f =
    { w with sbus := { w.sbus with wakeErr := wokenDown w.sbus ch f } } := by
  unfold State.wakeGood wokenDown
  have bits : (w.sbus.wakeCh = ch.val ∧ (!f.fd) = true ∧ (!f.remote) = true) = (w.sbus.wakeCh = ch.val ∧ f.fd = false ∧ f.remote = false) := by
    rw [Bool.not_eq_true', Bool.not_eq_true']
  simp only [bits]
  split <;> rfl

theorem canFrameReceived_deaf (f : CanFrame) (h : s.chInUse ch = false ∨ s.sbus.ch[ch].err = 2) : Completes (.canFrameReceived t ch f) s fun u =>
    u.sbus = { s.sbus with wakeErr := wokenDown s.sbus ch f } := by
  refine Completes.scanning hl rfl ?_
  rw [State.wakeGood_eq]
  refine (congrArg State.sbus (if_pos ?_)).trans rfl
  show (!s.live || !s.chInUse ch || s.sbus.ch[ch].err == 2) = true
  rcases h with h | h
  · rw [h]
    simp
  · rw [h]
    simp

/-! ## A frame in a window -/

section
omit hl

theorem State.goodReceive_err {w : State} {ch : Fin 2} (h : w.sbus.ch[ch].rec_ ≤ 127) :
    w.goodReceive ch = w.setErr ch w.sbus.ch[ch].tec (w.sbus.ch[ch].rec_ - 1) := by
  unfold State.goodReceive
  exact if_neg (Nat.not_lt.2 h)

/-- Does a filter of the channel take the frame? -/
def Channel.takes (c : Channel) (f : CanFrame) : Bool := c.filters.toList.any fun x => filterHit x f

theorem Channel.takes_iff (c : Channel) (f : CanFrame) : c.takes f = true ↔ ∃ i : Fin 8, filterHit c.filters[i] f = true := by
  unfold Channel.takes
  rw [List.any_eq_true]
  refine ⟨fun ⟨x, hx, h⟩ => ?_, fun ⟨i, h⟩ => ⟨c.filters[i], ?_, h⟩⟩
  · obtain ⟨i, hi, e⟩ := Vector.mem_iff_getElem.1 (Vector.mem_toList_iff.1 hx)
    exact ⟨⟨i, hi⟩, by rw [← e] at h; exact h⟩
  · exact Vector.mem_toList_iff.2 (Vector.getElem_mem _)

/-- A channel's FIFO after a frame it may take. -/
def Channel.stored (c : Channel) (e : RxEntry) : Channel :=
  if c.takes e.frame then if 64 ≤ c.fifo.length then { c with rxDrop := satInc 16 c.rxDrop } else { c with fifo := c.fifo ++ [e] } else c

theorem State.storeFifo_self (w : State) (ch : Fin 2) (e : RxEntry) : (w.storeFifo ch e).sbus.ch[ch] = w.sbus.ch[ch].stored e := by
  unfold State.storeFifo Channel.stored
  dsimp only
  cases h : w.sbus.ch[ch].takes e.frame with
  | false =>
    rw [if_pos (by rw [show (w.sbus.ch[ch].filters.toList.any fun f => filterHit f e.frame) = false from h]; rfl), if_neg (by decide)]
  | true =>
    rw [if_neg (by rw [show (w.sbus.ch[ch].filters.toList.any fun f => filterHit f e.frame) = true from h]; decide), if_pos rfl]
    by_cases full : 64 ≤ w.sbus.ch[ch].fifo.length
    · rw [if_pos full, if_pos full]
      exact State.setCh_self ..
    · rw [if_neg full, if_neg full]
      exact (congrArg (fun b : SiteBus => b.ch[ch]) (State.bump_sbus ..)).trans (State.setCh_self ..)

theorem State.storeFifo_slots (w : State) (ch : Fin 2) (e : RxEntry) : (w.storeFifo ch e).sbus.slots = w.sbus.slots := by
  unfold State.storeFifo
  dsimp only
  split
  · rfl
  · split
    · rfl
    · exact (congrArg (fun b : SiteBus => b.slots) (State.bump_sbus ..)).trans rfl

theorem State.wrongWindow_self (w : State) (ch : Fin 2) : (w.wrongWindow ch).sbus.ch[ch] =
    { w.sbus.ch[ch] with wrongWin := satInc 16 w.sbus.ch[ch].wrongWin } ∧
    (w.wrongWindow ch).sbus.slots = w.sbus.slots ∧ (w.wrongWindow ch).assume.busLoad = true := by
  unfold State.wrongWindow
  dsimp only
  refine ⟨?_, ?_, State.setBusLoad_on _⟩
  · exact (congrArg (fun b : SiteBus => b.ch[ch]) (State.setBusLoad_sbus _)).trans (State.setCh_self w ch _)
  · exact (congrArg (fun b : SiteBus => b.slots) (State.setBusLoad_sbus _)).trans rfl

/-- A receive slot of an exclusive window. -/
def RxSlot.takes (x : RxSlot) (ch : Fin 2) (idx : Nat) : Bool := x.en && x.channel == ch.val && x.window == idx

/-- The step of `storeSlots`. -/
def State.storeRx (w : State) (ch : Fin 2) (idx : Nat) (e : RxEntry) (k : Fin 32) : State :=
  if w.sbus.slots[k].takes ch idx then (w.setRx k fun x => { x with entry := some e, miss := 0 }).bump 10 else w

theorem State.storeSlots_eq (w : State) (ch : Fin 2) (idx : Nat) (e : RxEntry) : w.storeSlots ch idx e = w.forAll 32 fun k w => w.storeRx ch idx e k
    := rfl

theorem State.storeRx_ch (w : State) (ch : Fin 2) (idx : Nat) (e : RxEntry) (k : Fin 32) : (w.storeRx ch idx e k).sbus.ch = w.sbus.ch := by
  unfold State.storeRx
  split
  · exact (congrArg (fun b : SiteBus => b.ch) (State.bump_sbus ..)).trans rfl
  · rfl

theorem State.storeRx_self (w : State) (ch : Fin 2) (idx : Nat) (e : RxEntry) (k : Fin 32) : (w.storeRx ch idx e k).sbus.slots[k] =
    if w.sbus.slots[k].takes ch idx then { w.sbus.slots[k] with entry := some e, miss := 0 } else w.sbus.slots[k] := by
  unfold State.storeRx
  cases w.sbus.slots[k].takes ch idx with
  | true =>
    rw [if_pos rfl, if_pos rfl]
    exact (congrArg (fun b : SiteBus => b.slots[k]) (State.bump_sbus ..)).trans (vupd_here ..)
  | false => rfl

theorem State.storeRx_other (w : State) (ch : Fin 2) (idx : Nat) (e : RxEntry) {j k : Fin 32} (h : j ≠ k) :
    (w.storeRx ch idx e j).sbus.slots[k] = w.sbus.slots[k] := by
  unfold State.storeRx
  split
  · exact (congrArg (fun b : SiteBus => b.slots[k]) (State.bump_sbus ..)).trans (vupd_other _ _ _ _ h)
  · rfl

theorem State.storeSlots_ch (w : State) (ch : Fin 2) (idx : Nat) (e : RxEntry) : (w.storeSlots ch idx e).sbus.ch = w.sbus.ch := by
  rw [State.storeSlots_eq]
  exact State.forAll_keeps (fun v => v.sbus.ch = w.sbus.ch) (fun k v h => (State.storeRx_ch ..).trans h) rfl

theorem State.storeSlots_self (w : State) (ch : Fin 2) (idx : Nat) (e : RxEntry) (k : Fin 32) : (w.storeSlots ch idx e).sbus.slots[k] =
    if w.sbus.slots[k].takes ch idx then { w.sbus.slots[k] with entry := some e, miss := 0 } else w.sbus.slots[k] := by
  rw [State.storeSlots_eq]
  generalize hx : (if w.sbus.slots[k].takes ch idx then { w.sbus.slots[k] with entry := some e, miss := 0 } else w.sbus.slots[k] : RxSlot) = x
  refine State.forAll_at (f := fun j v => v.storeRx ch idx e j) k (Q := fun v => v.sbus.slots[k] = w.sbus.slots[k]) (R := fun v => v.sbus.slots[k] =
      x)
    (fun j v hj h => ?_) (fun v h => ?_) (fun j v hj h => ?_) w rfl
  · exact (State.storeRx_other v ch idx e hj).trans h
  · rw [State.storeRx_self, h, hx]
  · exact (State.storeRx_other v ch idx e hj).trans h

end

/-! ## What a frame heard leaves -/

section
omit hl

theorem State.windowAt_same {v s : State} {ch : Fin 2} (t : Nat) (hp : v.prof = s.prof)
    (hc : (v.sbus.ch[ch].lead, v.sbus.ch[ch].gridStart, v.sbus.ch[ch].cycle) = (s.sbus.ch[ch].lead, s.sbus.ch[ch].gridStart, s.sbus.ch[ch].cycle)) :
    v.windowAt ch t = s.windowAt ch t := by
  obtain ⟨hl, hg⟩ := Prod.mk.inj hc
  obtain ⟨hs, hn⟩ := Prod.mk.inj hg
  unfold State.windowAt State.cycleAt State.busCycle State.busWindows
  rw [hp]
  dsimp only
  rw [hl, hs, hn]

/-- Is the frame the one its exclusive window is for? -/
def BusWin.own (w : BusWin) (f : CanFrame) : Bool := w.canId % 2 ^ 29 == f.id && w.canId.testBit 31 == f.ext

theorem BusWin.own_iff {w : BusWin} {f : CanFrame} : w.own f = true ↔ w.canId % 2 ^ 29 = f.id ∧ w.canId.testBit 31 = f.ext := by
  unfold BusWin.own
  rw [Bool.and_eq_true, beq_iff_eq, beq_iff_eq]

/-- Where a frame heard in a window goes. -/
def State.heardIn (v : State) (ch : Fin 2) (f : CanFrame) (idx : Nat) (w : BusWin) (t : Nat) : State :=
  let e : RxEntry := { frame := f, winKind := w.kind, winIndex := idx, stamp := t }
  let v := v.storeFifo ch e
  if w.kind = 0 then (if w.own f then v.storeSlots ch idx e else v.wrongWindow ch) else if w.kind = 3 then v.wrongWindow ch else v

variable {v : State} {f : CanFrame} {idx : Nat} {w : BusWin}

theorem State.heardIn_fifo : (v.heardIn ch f idx w t).sbus.ch[ch].fifo = (v.sbus.ch[ch].stored ⟨f, w.kind, idx, t⟩).fifo ∧
    (v.heardIn ch f idx w t).sbus.ch[ch].rxDrop = (v.sbus.ch[ch].stored ⟨f, w.kind, idx, t⟩).rxDrop ∧
    (v.heardIn ch f idx w t).sbus.ch[ch].rec_ = (v.sbus.ch[ch].stored ⟨f, w.kind, idx, t⟩).rec_ ∧
    (v.heardIn ch f idx w t).sbus.ch[ch].err = (v.sbus.ch[ch].stored ⟨f, w.kind, idx, t⟩).err := by
  have self := v.storeFifo_self ch ⟨f, w.kind, idx, t⟩
  have wrong := ((v.storeFifo ch ⟨f, w.kind, idx, t⟩).wrongWindow_self ch).1
  have slots := (v.storeFifo ch ⟨f, w.kind, idx, t⟩).storeSlots_ch ch idx ⟨f, w.kind, idx, t⟩
  rw [self] at wrong
  have slot : ((v.storeFifo ch ⟨f, w.kind, idx, t⟩).storeSlots ch idx ⟨f, w.kind, idx, t⟩).sbus.ch[ch] = _ :=
    (congrArg (fun x : Vector Channel 2 => x[ch]) slots).trans self
  unfold State.heardIn
  dsimp only
  split
  · split
    · rw [slot]
      exact ⟨rfl, rfl, rfl, rfl⟩
    · rw [wrong]
      exact ⟨rfl, rfl, rfl, rfl⟩
  · split
    · rw [wrong]
      exact ⟨rfl, rfl, rfl, rfl⟩
    · rw [self]
      exact ⟨rfl, rfl, rfl, rfl⟩

theorem Channel.stored_wrongWin (c : Channel) (e : RxEntry) : (c.stored e).wrongWin = c.wrongWin := by
  unfold Channel.stored
  split
  · split <;> rfl
  · rfl

theorem State.heardIn_own (h : w.kind = 0) (ho : w.own f = true) (k : Fin 32) :
    (v.heardIn ch f idx w t).sbus.ch[ch].wrongWin = v.sbus.ch[ch].wrongWin ∧ (v.heardIn ch f idx w t).sbus.slots[k] =
      if v.sbus.slots[k].takes ch idx then { v.sbus.slots[k] with entry := some ⟨f, w.kind, idx, t⟩, miss := 0 } else v.sbus.slots[k] := by
  unfold State.heardIn
  dsimp only
  rw [if_pos h, if_pos ho]
  refine ⟨?_, ?_⟩
  · rw [State.storeSlots_ch, State.storeFifo_self, Channel.stored_wrongWin]
  · rw [State.storeSlots_self, State.storeFifo_slots]

theorem State.heardIn_wrong (h : (w.kind = 0 ∧ w.own f = false) ∨ w.kind = 3) :
    (v.heardIn ch f idx w t).sbus.ch[ch].wrongWin = satInc 16 v.sbus.ch[ch].wrongWin ∧ (v.heardIn ch f idx w t).assume.busLoad = true ∧
      (v.heardIn ch f idx w t).sbus.slots = v.sbus.slots := by
  have wrong : v.heardIn ch f idx w t = (v.storeFifo ch ⟨f, w.kind, idx, t⟩).wrongWindow ch := by
    unfold State.heardIn
    rcases h with ⟨h, ho⟩ | h
    · dsimp only
      rw [if_pos h, ho]
      rfl
    · dsimp only
      rw [if_neg (by rw [h]; decide), if_pos h]
  obtain ⟨self, slots, load⟩ := (v.storeFifo ch ⟨f, w.kind, idx, t⟩).wrongWindow_self ch
  rw [wrong]
  refine ⟨?_, load, slots.trans (v.storeFifo_slots ..)⟩
  rw [self, State.storeFifo_self, Channel.stored_wrongWin]

end

section
variable {f : CanFrame} {idx : Nat} {w : BusWin} {start : Nat} (hu : s.chInUse ch = true) (he : s.sbus.ch[ch].err ≠ 2) (hr : s.sbus.ch[ch].rec_ ≤ 127)
  (hw : s.windowAt ch t = some (idx, w, start))
include hu he hr hw

theorem canFrameReceived_next : ∃ v : State, v.sbus.ch[ch] = s.sbus.ch[ch].erred s.sbus.ch[ch].tec (s.sbus.ch[ch].rec_ - 1) ∧ v.sbus.slots =
    s.sbus.slots ∧
    exec (.canFrameReceived t ch f) s = .next (if f.remote then v else v.heardIn ch f idx w t) := by
  generalize hv : ({ s.arrive t with sbus := { s.sbus with wakeErr := wokenDown s.sbus ch f } } : State) = v
  have parts : v.live = true ∧ v.chInUse ch = true ∧ v.sbus.ch = s.sbus.ch ∧ v.prof = s.prof ∧ v.sbus.slots = s.sbus.slots := by
    rw [← hv]
    exact ⟨hl, hu, rfl, rfl, rfl⟩
  obtain ⟨live, use, channels, prof, slots⟩ := parts
  have c : v.sbus.ch[ch] = s.sbus.ch[ch] := congrArg (fun x : Vector Channel 2 => x[ch]) channels
  have heard : (!v.live || !v.chInUse ch || v.sbus.ch[ch].err == 2) = false := by
    rw [live, use, c]
    simp [-Fin.getElem_fin, he]
  have self := v.setErr_self ch s.sbus.ch[ch].tec (s.sbus.ch[ch].rec_ - 1)
  rw [c] at self
  refine ⟨v.setErr ch s.sbus.ch[ch].tec (s.sbus.ch[ch].rec_ - 1), self, ?_, ?_⟩
  · rw [State.setErr_rest, slots]
  · have kept : (v.setErr ch s.sbus.ch[ch].tec (s.sbus.ch[ch].rec_ - 1)).prof = v.prof := (State.setErr_only rfl rfl rfl rfl (cs := allSave .prof)
      (OnlyIn.refl _ _)) .prof rfl
    have window : (v.setErr ch s.sbus.ch[ch].tec (s.sbus.ch[ch].rec_ - 1)).windowAt ch t = some (idx, w, start) :=
      (State.windowAt_same t (Eq.trans kept prof) (by rw [self]; rfl)).trans hw
    have good : v.goodReceive ch = v.setErr ch s.sbus.ch[ch].tec (s.sbus.ch[ch].rec_ - 1) := by
      rw [State.goodReceive_err (by rw [c]; exact hr), c]
    rw [show exec (.canFrameReceived t ch f) s = .next (doCanFrameReceived t ch f s) from rfl]
    refine congrArg Host.Outcome.next ?_
    unfold doCanFrameReceived
    rw [whenScanning_live hl]
    dsimp only
    rw [State.wakeGood_eq, State.arrive_sbus, hv, heard, if_neg (by decide), good]
    split
    · rfl
    · rw [window]
      rfl

theorem canFrameReceived_heard (k : Fin 32) : Completes (.canFrameReceived t ch f) s fun u =>
    let c := s.sbus.ch[ch]
    let x := s.sbus.slots[k]
    let e : RxEntry := { frame := f, winKind := w.kind, winIndex := idx, stamp := t }
    u.sbus.ch[ch].rec_ = c.rec_ - 1 ∧ u.sbus.ch[ch].err = errOf c.tec (c.rec_ - 1) ∧
    (f.remote = true ∨ c.takes f = false → u.sbus.ch[ch].fifo = c.fifo) ∧
    (f.remote = false → c.takes f = true → c.fifo.length < 64 → u.sbus.ch[ch].fifo = c.fifo ++ [e]) ∧
    (f.remote = false → c.takes f = true → 64 ≤ c.fifo.length → u.sbus.ch[ch].fifo = c.fifo ∧ u.sbus.ch[ch].rxDrop = satInc 16 c.rxDrop) ∧
    (f.remote = false → w.kind = 0 → w.own f = true → u.sbus.ch[ch].wrongWin = c.wrongWin ∧
      u.sbus.slots[k] = if x.takes ch idx then { x with entry := some e, miss := 0 } else x) ∧
    (f.remote = false → (w.kind = 0 ∧ w.own f = false) ∨ w.kind = 3 →
      u.sbus.ch[ch].wrongWin = satInc 16 c.wrongWin ∧ u.assume.busLoad = true ∧ u.sbus.slots = s.sbus.slots) := by
  obtain ⟨v, self, slots, next⟩ := canFrameReceived_next hl hu he hr hw (f := f)
  refine Completes.of next ?_
  generalize s.sbus.ch[ch] = c at self hr ⊢
  have below : min 255 (c.rec_ - 1) = c.rec_ - 1 := by omega
  cases remote : f.remote with
  | true =>
    simp only [↓reduceIte, reduceCtorEq, false_implies, and_true, true_or, true_implies]
    rw [self]
    exact ⟨below, rfl, rfl⟩
  | false =>
    obtain ⟨fifo, drop, rec_, err⟩ := State.heardIn_fifo (v := v) (ch := ch) (f := f) (idx := idx) (w := w) (t := t)
    have own := State.heardIn_own (v := v) (ch := ch) (f := f) (idx := idx) (w := w) (t := t)
    have wrong := State.heardIn_wrong (v := v) (ch := ch) (f := f) (idx := idx) (w := w) (t := t)
    rw [if_neg (by decide)]
    rw [self] at fifo drop rec_ err own wrong
    have takes : (c.erred c.tec (c.rec_ - 1)).takes f = c.takes f := rfl
    have queue : (c.erred c.tec (c.rec_ - 1)).fifo = c.fifo := rfl
    unfold Channel.stored at fifo drop rec_ err
    simp only [takes, queue] at fifo drop rec_ err
    refine ⟨?_, ?_, ?_, ?_, ?_, fun _ kind o => ?_, fun _ h => ?_⟩
    · rw [rec_]
      split
      · split <;> exact below
      · exact below
    · rw [err]
      split
      · split <;> rfl
      · rfl
    · rintro (h | h)
      · nomatch h
      · rw [fifo, h]
        rfl
    · intro _ hit more
      rw [fifo, if_pos hit, if_neg (Nat.not_le.2 more)]
    · intro _ hit full
      rw [fifo, drop, if_pos hit, if_pos full]
      exact ⟨rfl, rfl⟩
    · rw [← slots]
      exact own kind o k
    · rw [← slots]
      exact wrong h

end
end

/-- Settles O49. -/
theorem busReception : Obligations.BusReception := by
  unfold Obligations.BusReception
  intro s t m ch k hl hs
  refine ⟨fun f idx w start hu he hr hw => ?_, fun f h => canFrameReceived_deaf hl f h, fun w he hw h => slotMiss_counts hl he hw h, fun h =>
      slotMiss_none hl h,
    fifoPop_pops hl hs, fun h => busOffRecovery_recovers hl h, fun h => busOffRecovery_none hl h, fun how he hu => canRxError_counts hl he hu how,
    fun he hu => canTxError_counts hl he hu⟩
  obtain ⟨u, next, h⟩ := canFrameReceived_heard hl hu he hr hw k (f := f)
  refine ⟨u, next, ?_⟩
  obtain ⟨rec_, err, not, fifo, full, own, wrong⟩ := h
  refine ⟨rec_, err, fun h => not (h.imp_right fun n => ?_), fun r h => fifo r ((Channel.takes_iff _ _).2 h), fun r h => full r ((Channel.takes_iff _
      _).2 h),
    fun r kind o => ⟨(own r kind (BusWin.own_iff.2 o)).1, fun en c i => ?_, fun h => ?_⟩,
    fun r h => wrong r (h.imp_left fun ⟨kind, n⟩ => ⟨kind, Bool.eq_false_iff.2 fun o => n (BusWin.own_iff.1 o)⟩)⟩
  · exact Bool.eq_false_iff.2 fun x => n ((Channel.takes_iff _ _).1 x)
  · rw [(own r kind (BusWin.own_iff.2 o)).2, if_pos]
    unfold RxSlot.takes
    simp [-Fin.getElem_fin, en, c, i]
  · rw [(own r kind (BusWin.own_iff.2 o)).2, if_neg]
    unfold RxSlot.takes
    rcases h with en | c | i
    · simp [-Fin.getElem_fin, en]
    · simp [-Fin.getElem_fin, c]
    · simp [-Fin.getElem_fin, i]

end Sys2Proof.Machine
end

section
/-! PROOFS. Frames that reach the UDP port or the SPI port (R391, R396 to R401). -/
namespace Sys2Proof.Machine

/-! ## The count of arrivals (R485) -/

theorem State.bumpIf_host (s : State) (c : Bool) (k : Fin 16) : (s.bumpIf c k).host = { s.host with sum := (s.bumpIf c k).host.sum } := by
  unfold State.bumpIf
  split <;> rfl

/-- Does an interval with the counts of the host block exceed the limits of R401? -/
def HostBlock.over (h : HostBlock) : Bool := decide (4000 < h.transactions ∨ 250000 < h.wordCount)

theorem State.judgeRate_eq (s : State) : ∃ (b : Assume) (c : Bool), b.hostRate = decide (4000 < s.host.transactions ∨ 250000 < s.host.wordCount) ∧
    s.judgeRate = ({ s with assume := b } : State).bumpIf c 0 := by
  unfold State.judgeRate
  exact ⟨_, _, rfl, rfl⟩

theorem State.judgeRate_parts (s : State) : s.judgeRate.host = { s.host with sum := s.judgeRate.host.sum } ∧ s.judgeRate.assume.hostRate =
    s.host.over ∧
    s.judgeRate.mt = s.mt := by
  obtain ⟨b, c, h, e⟩ := s.judgeRate_eq
  rw [e]
  exact ⟨State.bumpIf_host .., (congrArg Assume.hostRate (State.bumpIf_assume ..)).trans h, State.bumpIf_mt ..⟩

theorem State.rateMove_same {s : State} (h : s.rateSpan ≤ s.host.rateEnd) : s.rateMove = s := by
  unfold State.rateMove
  exact if_pos h

/-- The interval at `rateEnd` lies further back than the one right before the present one. -/
def State.rateGone (s : State) : Bool := decide (s.host.rateEnd + 1000000000 < s.rateSpan)

/-- The state with a new interval begun. -/
def State.rateBegun (s : State) (e : Nat) : State := s.setHost fun h => { h with transactions := 0, wordCount := 0, rateEnd := e, rateShown := false }

theorem State.rateMove_begun {s : State} (h : s.host.rateEnd < s.rateSpan) : ∃ (a : Assume) (c : Bool),
    a.hostRate = (s.judgeRate.assume.hostRate && !decide (s.host.rateEnd + 1000000000 < s.rateSpan)) ∧
    s.rateMove = (({ s.judgeRate with assume := a } : State).bumpIf c 0).rateBegun s.rateSpan := by
  unfold State.rateMove State.rateBegun
  rw [if_neg (Nat.not_le.2 h)]
  exact ⟨_, _, rfl, rfl⟩

/-- A host block with a new interval begun. -/
def HostBlock.begun (h : HostBlock) (n : Nat) (sum : Vector Nat 16) : HostBlock :=
  { h with sum, transactions := 0, wordCount := 0, rateEnd := n, rateShown := false }

theorem HostBlock.begun_same {h g : HostBlock} {x : Vector Nat 16} (e : h = { g with sum := x }) (n : Nat) (sum : Vector Nat 16) : h.begun n sum =
    g.begun n sum := by
  rw [e]
  rfl

theorem State.rateBegun_parts (q : State) (a : Assume) (c : Bool) (n : Nat) :
    let u := (({ q with assume := a } : State).bumpIf c 0).rateBegun n
    u.host = q.host.begun n u.host.sum ∧ u.assume = a ∧ u.mt = q.mt := by
  cases c <;> exact ⟨rfl, rfl, rfl⟩

theorem State.rateMove_next {s : State} (h : s.host.rateEnd < s.rateSpan) :
    s.rateMove.host = s.host.begun s.rateSpan s.rateMove.host.sum ∧ s.rateMove.assume.hostRate = (s.host.over && !s.rateGone) ∧ s.rateMove.mt = s.mt
        := by
  obtain ⟨a, c, ha, e⟩ := State.rateMove_begun h
  obtain ⟨before, rate, time⟩ := s.judgeRate_parts
  obtain ⟨host, assume, same⟩ := State.rateBegun_parts s.judgeRate a c s.rateSpan
  rw [← e] at host assume same
  exact ⟨host.trans (HostBlock.begun_same before ..), (congrArg Assume.hostRate assume).trans (ha.trans (congrArg (· && !s.rateGone) rate)),
      same.trans time⟩

/-- What the count of arrivals may change of the host block. -/
def HostBlock.uncounted (h : HostBlock) : HostBlock := h.begun 0 (Vector.replicate 16 0)

theorem State.judgeRate_uncounted (s : State) : s.judgeRate.host.uncounted = s.host.uncounted := HostBlock.begun_same s.judgeRate_parts.1 ..

theorem HostBlock.begun_uncounted (h : HostBlock) (n : Nat) (sum : Vector Nat 16) : (h.begun n sum).uncounted = h.uncounted := rfl

theorem State.rateMove_uncounted (s : State) : s.rateMove.host.uncounted = s.host.uncounted ∧ s.rateMove.mt = s.mt := by
  rcases Nat.lt_or_ge s.host.rateEnd s.rateSpan with h | h
  · obtain ⟨host, _, time⟩ := State.rateMove_next h
    exact ⟨(congrArg HostBlock.uncounted host).trans (HostBlock.begun_uncounted ..), time⟩
  · rw [State.rateMove_same h]
    exact ⟨rfl, rfl⟩

/-- The state with an arrival counted in the present interval. -/
def State.counted (s : State) (n : Nat) : State := s.setHost fun h => { h with transactions := h.transactions + 1, wordCount := h.wordCount + n }

theorem State.counted_uncounted (s : State) (n : Nat) : (s.counted n).host.uncounted = s.host.uncounted ∧ (s.counted n).mt = s.mt := ⟨rfl, rfl⟩

theorem State.countHost_eq (s : State) (n : Nat) :
    s.countHost n = if (s.rateMove.counted n).host.rateShown then (s.rateMove.counted n).judgeRate else s.rateMove.counted n := rfl

theorem State.countHost_uncounted (s : State) (n : Nat) : (s.countHost n).host.uncounted = s.host.uncounted ∧ (s.countHost n).mt = s.mt := by
  obtain ⟨host, time⟩ := s.rateMove_uncounted
  obtain ⟨counted, same⟩ := s.rateMove.counted_uncounted n
  rw [State.countHost_eq]
  split
  · exact ⟨(State.judgeRate_uncounted _).trans (counted.trans host), (State.judgeRate_parts _).2.2.trans (same.trans time)⟩
  · exact ⟨counted.trans host, same.trans time⟩

theorem State.countArrival_uncounted (s : State) (f : Bytes) : (s.countArrival f).host.uncounted = s.host.uncounted ∧ (s.countArrival f).mt = s.mt :=
  State.countHost_uncounted ..

section
variable {s w : State} (hw : w.host.uncounted = s.host.uncounted)
include hw

theorem HostBlock.uncounted_netIp : w.host.netIp = s.host.netIp := show w.host.uncounted.netIp = s.host.uncounted.netIp from by rw [hw]
theorem HostBlock.uncounted_netOut : w.host.netOut = s.host.netOut := show w.host.uncounted.netOut = s.host.uncounted.netOut from by rw [hw]
theorem HostBlock.uncounted_udpQueue : w.host.udpQueue = s.host.udpQueue := show w.host.uncounted.udpQueue = s.host.uncounted.udpQueue from by rw [hw]
theorem HostBlock.uncounted_kept : w.host.kept = s.host.kept := show w.host.uncounted.kept = s.host.uncounted.kept from by rw [hw]
theorem HostBlock.uncounted_udpDuplicate : w.host.udpDuplicate = s.host.udpDuplicate := show w.host.uncounted.udpDuplicate =
    s.host.uncounted.udpDuplicate from by rw [hw]
theorem HostBlock.uncounted_spiQueue : w.host.spiQueue = s.host.spiQueue := show w.host.uncounted.spiQueue = s.host.uncounted.spiQueue from by rw [hw]
theorem HostBlock.uncounted_spiOut : w.host.spiOut = s.host.spiOut := show w.host.uncounted.spiOut = s.host.uncounted.spiOut from by rw [hw]

theorem tallyOut_uncounted (o : Origin) (f : Bytes) : tallyOut w.host o f = tallyOut s.host o f := by
  unfold tallyOut
  rw [HostBlock.uncounted_netIp hw]

theorem keptFor_uncounted (ht : w.mt = s.mt) (o : Origin) (tag crc : Nat) : keptFor w o tag crc = keptFor s o tag crc := by
  unfold keptFor
  rw [HostBlock.uncounted_kept hw, ht]

end

/-! ## A request at its port (R391, R398) -/

/-- What a port does with a request counted at its arrival. -/
def State.judgeRequest (s : State) (o : Origin) (f : Bytes) : State :=
  if !requestCrcOk f then
    (s.setHost fun h => if o.spi then { h with spiBadCrc := satInc 8 h.spiBadCrc } else h).sendReply o ⟨.badCrc, .none⟩ (badCrcReply f s.mt)
  else
    match keptFor s o (u16 f 2) (u32 f (f.length - 4)) with
    | some k => s.sendKept o k
    | none =>
      match parseRequest o f with
      | none =>
        let r := refusalReply f ⟨.badLen, .format⟩ s.mt
        (s.sendReply o ⟨.badLen, .format⟩ r).keepReply o (u16 f 2) (u32 f (f.length - 4)) r
      | some q => if portRoom s o then s.pushRequest q else s.sendReply o ⟨.busy, .rate⟩ (refusalReply f ⟨.busy, .rate⟩ s.mt)

theorem State.takeRequest_eq (s : State) (o : Origin) (f : Bytes) : s.takeRequest o f = (s.countArrival f).judgeRequest o f := by
  unfold State.takeRequest State.judgeRequest
  obtain ⟨w, hw⟩ : ∃ w, s.countArrival f = w := ⟨_, rfl⟩
  rw [hw] <;> rfl

section
variable {s w : State} {o : Origin} {f : Bytes} (hw : w.host.uncounted = s.host.uncounted) (ht : w.mt = s.mt)

theorem State.judgeRequest_badCrc (h : requestCrcOk f = false) (ho : o.spi = false) : w.judgeRequest o f = w.sendReply o ⟨.badCrc, .none⟩
    (badCrcReply f w.mt) := by
  unfold State.judgeRequest
  rw [if_pos (by rw [h]; rfl), ho]
  rfl

include hw ht

theorem State.judgeRequest_kept {k : Kept} (hc : requestCrcOk f = true) (h : keptFor s o (u16 f 2) (u32 f (f.length - 4)) = some k) :
    w.judgeRequest o f = w.sendKept o k := by
  unfold State.judgeRequest
  rw [if_neg (by rw [hc]; decide), keptFor_uncounted hw ht, h]

theorem State.judgeRequest_malformed (hc : requestCrcOk f = true) (h : keptFor s o (u16 f 2) (u32 f (f.length - 4)) = none) (hq : parseRequest o f =
    none) :
    w.judgeRequest o f = (w.sendReply o ⟨.badLen, .format⟩ (refusalReply f ⟨.badLen, .format⟩ w.mt)).keepReply o (u16 f 2) (u32 f (f.length - 4))
      (refusalReply f ⟨.badLen, .format⟩ w.mt) := by
  unfold State.judgeRequest
  rw [if_neg (by rw [hc]; decide), keptFor_uncounted hw ht, h, hq]

theorem State.judgeRequest_formed {q : Request} (hc : requestCrcOk f = true) (h : keptFor s o (u16 f 2) (u32 f (f.length - 4)) = none)
    (hq : parseRequest o f = some q) : w.judgeRequest o f =
      if portRoom w o then w.pushRequest q else w.sendReply o ⟨.busy, .rate⟩ (refusalReply f ⟨.busy, .rate⟩ w.mt) := by
  unfold State.judgeRequest
  rw [if_neg (by rw [hc]; decide), keptFor_uncounted hw ht, h, hq]

end

section
variable {o : Origin} {f : Bytes}

theorem parseRequest_origin {q : Request} (h : parseRequest o f = some q) : q.origin = o := by
  unfold parseRequest at h
  cases hn : payloadLen (u8 f 1) (u16 f 8) with
  | none =>
    simp only [hn, reduceCtorEq] at h
  | some n =>
    simp only [hn, Option.ite_none_right_eq_some, Option.some.injEq] at h
    rw [← h.2]

end

section
variable {s : State} {t : Nat} (hl : s.live = true)
include hl

/-! ## UDP (R396, R397, R398, R400) -/

theorem udpDatagram_next {d : Datagram} (ha : acceptable d = true) (hs : allowed s d.srcIp = true) :
    exec (.udpDatagram t d) s = .next ((s.arrive t).takeRequest ⟨false, d.srcIp, d.srcPort⟩ d.payload) := by
  rw [show exec (.udpDatagram t d) s = .next (doUdpDatagram t d s) from rfl]
  unfold doUdpDatagram
  rw [whenLive_live hl, if_neg (by rw [ha]; decide), if_neg (by rw [show allowed (s.arrive t) d.srcIp = true from hs]; decide)]

theorem udpDatagram_ignored {d : Datagram} (h : acceptable d = false) : Completes (.udpDatagram t d) s fun u => u.host = s.host := by
  refine Completes.live hl rfl ?_
  rw [if_pos (by rw [h]; rfl)]
  rfl

theorem udpDatagram_foreign {d : Datagram} (ha : acceptable d = true) (h : allowed s d.srcIp = false) : Completes (.udpDatagram t d) s fun u =>
    u.host = { s.host with udpForeign := satInc 8 s.host.udpForeign } := by
  refine Completes.live hl rfl ?_
  rw [if_neg (by rw [ha]; decide), if_pos (by rw [show allowed (s.arrive t) d.srcIp = false from h]; rfl)]
  rfl

section
variable {d : Datagram} (ha : acceptable d = true) (hs : allowed s d.srcIp = true)
include ha hs

/-- The request of a datagram, judged in a state that differs in the counts of arrivals only. -/
theorem udpDatagram_counted : ∃ w : State, w.host.uncounted = (s.arrive t).host.uncounted ∧ w.mt = (s.arrive t).mt ∧
    exec (.udpDatagram t d) s = .next (w.judgeRequest ⟨false, d.srcIp, d.srcPort⟩ d.payload) := by
  obtain ⟨same, time⟩ := (s.arrive t).countArrival_uncounted d.payload
  refine ⟨(s.arrive t).countArrival d.payload, same, time, ?_⟩
  rw [udpDatagram_next hl ha hs, State.takeRequest_eq]

theorem udpDatagram_badCrc (h : requestCrcOk d.payload = false) : Completes (.udpDatagram t d) s fun u =>
    u.host.netOut = tallyOut s.host ⟨false, d.srcIp, d.srcPort⟩ (badCrcReply d.payload (s.arrive t).mt) ∧ u.host.udpQueue = s.host.udpQueue ∧
    u.host.kept = s.host.kept := by
  obtain ⟨w, same, time, next⟩ := udpDatagram_counted hl ha hs (t := t)
  refine Completes.of next ?_
  rw [State.judgeRequest_badCrc h rfl, time]
  have queue : w.host.udpQueue = s.host.udpQueue := HostBlock.uncounted_udpQueue same
  have kept : w.host.kept = s.host.kept := HostBlock.uncounted_kept same
  exact ⟨tallyOut_uncounted same .., queue, kept⟩

variable (hc : requestCrcOk d.payload = true)
include hc

theorem udpDatagram_kept {k : Kept} (h : keptFor (s.arrive t) ⟨false, d.srcIp, d.srcPort⟩ (u16 d.payload 2) (u32 d.payload (d.payload.length - 4)) =
    some k) :
    Completes (.udpDatagram t d) s fun u => u.host.netOut = tallyOut s.host ⟨false, d.srcIp, d.srcPort⟩ k.reply ∧ u.host.udpQueue = s.host.udpQueue ∧
      u.host.udpDuplicate = satInc 8 s.host.udpDuplicate := by
  obtain ⟨w, same, time, next⟩ := udpDatagram_counted hl ha hs (t := t)
  refine Completes.of next ?_
  rw [State.judgeRequest_kept same time hc h]
  have queue : w.host.udpQueue = s.host.udpQueue := HostBlock.uncounted_udpQueue same
  have duplicate : w.host.udpDuplicate = s.host.udpDuplicate := HostBlock.uncounted_udpDuplicate same
  exact ⟨tallyOut_uncounted same .., queue, congrArg (satInc 8) duplicate⟩

variable (h : keptFor (s.arrive t) ⟨false, d.srcIp, d.srcPort⟩ (u16 d.payload 2) (u32 d.payload (d.payload.length - 4)) = none)
include h

theorem udpDatagram_malformed (hq : parseRequest ⟨false, d.srcIp, d.srcPort⟩ d.payload = none) : Completes (.udpDatagram t d) s fun u =>
    u.host.netOut = tallyOut s.host ⟨false, d.srcIp, d.srcPort⟩ (refusalReply d.payload ⟨.badLen, .format⟩ (s.arrive t).mt) ∧
    u.host.udpQueue = s.host.udpQueue := by
  obtain ⟨w, same, time, next⟩ := udpDatagram_counted hl ha hs (t := t)
  refine Completes.of next ?_
  rw [State.judgeRequest_malformed same time hc h hq, time]
  have queue : w.host.udpQueue = s.host.udpQueue := HostBlock.uncounted_udpQueue same
  exact ⟨tallyOut_uncounted same .., queue⟩

variable {q : Request} (hq : parseRequest ⟨false, d.srcIp, d.srcPort⟩ d.payload = some q)
include hq

theorem udpDatagram_queued (hr : s.host.udpQueue.length < 16) : Completes (.udpDatagram t d) s fun u =>
    u.host.netOut = s.host.netOut ∧ u.host.udpQueue = s.host.udpQueue ++ [{ q with at_ := (s.arrive t).mt }] := by
  obtain ⟨w, same, time, next⟩ := udpDatagram_counted hl ha hs (t := t)
  refine Completes.of next ?_
  have queue : w.host.udpQueue = s.host.udpQueue := HostBlock.uncounted_udpQueue same
  have out : w.host.netOut = s.host.netOut := HostBlock.uncounted_netOut same
  have room : portRoom w ⟨false, d.srcIp, d.srcPort⟩ = true := by
    unfold portRoom
    rw [queue]
    exact decide_eq_true hr
  rw [State.judgeRequest_formed same time hc h hq, if_pos room]
  unfold State.pushRequest
  dsimp only
  rw [parseRequest_origin hq, time]
  exact ⟨out, congrArg (· ++ _) queue⟩

theorem udpDatagram_full (hr : 16 ≤ s.host.udpQueue.length) : Completes (.udpDatagram t d) s fun u =>
    u.host.netOut = tallyOut s.host ⟨false, d.srcIp, d.srcPort⟩ (refusalReply d.payload ⟨.busy, .rate⟩ (s.arrive t).mt) ∧
    u.host.udpQueue = s.host.udpQueue ∧ u.host.kept = s.host.kept := by
  obtain ⟨w, same, time, next⟩ := udpDatagram_counted hl ha hs (t := t)
  refine Completes.of next ?_
  have queue : w.host.udpQueue = s.host.udpQueue := HostBlock.uncounted_udpQueue same
  have full : portRoom w ⟨false, d.srcIp, d.srcPort⟩ = false := by
    unfold portRoom
    rw [queue]
    exact decide_eq_false (Nat.not_lt.2 hr)
  rw [State.judgeRequest_formed same time hc h hq, full, time, if_neg (by decide)]
  have kept : w.host.kept = s.host.kept := HostBlock.uncounted_kept same
  exact ⟨tallyOut_uncounted same .., queue, kept⟩

end

/-! ## ARP, ICMP and SPI (R391, R393, R396, R399) -/

theorem arpRequest_next (target ip mac : Nat) : exec (.arpRequest t target ip mac) s =
    .next (if target = s.host.netIp then { s.arrive t with host := { s.host with netOut := .arp s.host.netIp Config.portMac ip mac } } else s.arrive
        t) := by
  rw [show exec (.arpRequest t target ip mac) s = .next (doArpRequest t target ip mac s) from rfl]
  unfold doArpRequest
  rw [whenLive_live hl]
  rfl

theorem icmpEcho_next (ip : Nat) (data : Bytes) : exec (.icmpEcho t ip data) s = .next
    { s.arrive t with host := { s.host with netOut := .icmp ip data } } := by
  rw [show exec (.icmpEcho t ip data) s = .next (doIcmpEcho t ip data s) from rfl]
  unfold doIcmpEcho
  rw [whenLive_live hl]
  rfl

theorem spiStatus_next : exec (.spiStatus t) s = .next { s.arrive t with host := { s.host with spiOut := [spiStatus s.host] } } := by
  rw [show exec (.spiStatus t) s = .next (doSpiStatus t s) from rfl]
  unfold doSpiStatus
  rw [whenLive_live hl]
  rfl

theorem spiRequest_dropped (bytes : Bytes) (h : s.host.spiQueue.isSome = true) : Completes (.spiRequest t bytes) s fun u =>
    u.host = { s.host with spiOut := [spiStatus s.host], spiDrop := true, spiDropped := satInc 8 s.host.spiDropped } := by
  refine Completes.live hl rfl ?_
  rw [if_pos (by exact h)]
  rfl

theorem spiRequest_queued {bytes : Bytes} {q : Request} (hn : s.host.spiQueue = none) (hc : requestCrcOk bytes = true)
    (hk : keptFor (s.arrive t) spiOrigin (u16 bytes 2) (u32 bytes (bytes.length - 4)) = none) (hq : parseRequest spiOrigin bytes = some q) :
    Completes (.spiRequest t bytes) s fun u => u.host.spiQueue = some { q with at_ := (s.arrive t).mt } ∧ u.host.spiReply = none ∧
      u.host.spiOut = [spiStatus s.host] := by
  obtain ⟨w, same, time, next⟩ : ∃ w : State, w.host.uncounted = (s.arrive t).spiShift.host.uncounted ∧ w.mt = (s.arrive t).spiShift.mt ∧
      exec (.spiRequest t bytes) s = .next (w.judgeRequest spiOrigin bytes) := by
    obtain ⟨same, time⟩ := (s.arrive t).spiShift.countArrival_uncounted bytes
    refine ⟨(s.arrive t).spiShift.countArrival bytes, same, time, ?_⟩
    rw [show exec (.spiRequest t bytes) s = .next (doSpiRequest t bytes s) from rfl]
    unfold doSpiRequest
    rw [whenLive_live hl]
    dsimp only
    rw [if_neg (by rw [show (s.arrive t).spiShift.host.spiQueue = none from hn]; decide), State.takeRequest_eq]
  refine Completes.of next ?_
  have queue : w.host.spiQueue = none := (HostBlock.uncounted_spiQueue same).trans hn
  have out : w.host.spiOut = [spiStatus s.host] := HostBlock.uncounted_spiOut same
  have room : portRoom w spiOrigin = true := by
    unfold portRoom
    rw [queue]
    rfl
  rw [State.judgeRequest_formed same time hc (by exact hk) hq, if_pos room]
  unfold State.pushRequest
  dsimp only
  rw [parseRequest_origin hq, time]
  exact ⟨rfl, rfl, out⟩

theorem spiFetch_shifts {f : Bytes} (h : s.host.spiReply = some f) : Completes (.spiFetch t) s fun u =>
    u.host = { s.host with spiOut := [spiStatus s.host] ++ leBytes 2 f.length ++ f, spiDrop := false } := by
  refine Completes.live hl rfl ?_
  have reply : (s.arrive t).spiShift.host.spiReply = some f := h
  simp only [reply]
  rfl

end

/-- Settles O50. -/
theorem hostPorts : Obligations.HostPorts := by
  unfold Obligations.HostPorts
  intro s t hl
  refine ⟨fun d h => udpDatagram_ignored hl h, fun d ha h => udpDatagram_foreign hl ha h, fun d ha hs => ⟨fun h => udpDatagram_badCrc hl ha hs h, fun
      hc =>
    ⟨fun k h => udpDatagram_kept hl ha hs hc h, fun h => ⟨fun hq => udpDatagram_malformed hl ha hs hc h hq, fun q hq =>
      ⟨fun hr => udpDatagram_queued hl ha hs hc h hq hr, fun hr => udpDatagram_full hl ha hs hc h hq hr⟩⟩⟩⟩,
    fun target ip mac => arpRequest_next hl target ip mac, fun ip data => icmpEcho_next hl ip data, spiStatus_next hl, fun bytes h =>
        spiRequest_dropped hl bytes h,
    fun bytes q hn hc hk hq => spiRequest_queued hl hn hc hk hq, fun f h => spiFetch_shifts hl h⟩

end Sys2Proof.Machine
end

section
/-! PROOFS. Transactions, and what a word written or read does by the access type of its register (R7, R385, R386, R391 to R394, R398, R404, R485). -/
namespace Sys2Proof.Machine

/-! ## Violations (R404) -/

/-- The record a violation leaves where none is held. -/
def State.violRecord (s : State) (m : Master) (write : Bool) (addr : Nat) (x : Answer) : Viol :=
  { valid := true, master := masterCode m, world := worldCode (addrWorld addr), write := write, status := statusCode x.status,
    detail := detailCode x.detail, addr := addr, time := s.mt }

/-- The violation is answered, counted, and recorded where no record is held. -/
def State.Held (s : State) (m : Master) (write : Bool) (addr : Nat) (x : Answer) (u : State) : Prop :=
  u.host.answer = x ∧ u.host.violCnt = satInc 32 s.host.violCnt ∧ u.host.viol = if s.host.viol.valid then s.host.viol else s.violRecord m write addr x

theorem State.violates_held (s : State) (m : Master) (write : Bool) (addr : Nat) (x : Answer) : (s.violates m write addr x).host.violCnt = satInc 32
    s.host.violCnt ∧
    (s.violates m write addr x).host.viol = if s.host.viol.valid then s.host.viol else s.violRecord m write addr x := by
  unfold State.violates
  dsimp only
  split
  · exact ⟨rfl, rfl⟩
  · have logged : ∀ (u : State) c i a b, (u.log c i a b).host.viol = u.host.viol ∧ (u.log c i a b).host.violCnt = u.host.violCnt := fun u c i a b =>
      Prod.mk.inj ((State.log_only rfl rfl rfl (cs := allSave .viol) (OnlyIn.refl _ _)) .viol rfl)
    exact ⟨(logged ..).2, (logged ..).1⟩

theorem State.answered_held {s : State} {m : Master} {write : Bool} {addr : Nat} {x : Answer} (h : isViolation x = true) :
    s.Held m write addr x (s.answered m write addr x) := by
  refine ⟨State.answered_answer .., ?_⟩
  unfold State.answered
  dsimp only
  rw [if_pos h]
  exact State.violates_held ..

/-! ## The word of a master (R385, R386) -/

section
variable {s : State} {m : Master} {a v : Nat}

theorem mapPeek_unaligned (h : a % 4 ≠ 0) : mapPeek s m a = none := by
  unfold mapPeek
  exact if_pos h

theorem mapPeek_window (h : a % 4 = 0) (hl : 0x01000000 ≤ a) : mapPeek s m a = windowRead s a := by
  unfold mapPeek
  rw [if_neg fun n => n h, if_neg (by omega), if_neg (by omega)]

theorem windowRead_beyond (h : 0x02400000 ≤ a) : windowRead s a = none := by
  unfold windowRead
  rw [if_neg (by omega), if_neg (by omega), if_neg (by omega), if_neg (by omega), if_neg (by omega)]

theorem windowRead_ledger (h : 0x01400000 ≤ a) (hb : a < 0x02400000) : (windowRead s a).isSome = true := by
  unfold windowRead
  rw [if_neg (by omega)]
  split
  · rfl
  · split
    · rfl
    · split
      · rfl
      · rfl

theorem mapPeek_beyond (h : a % 4 ≠ 0 ∨ 0x02400000 ≤ a) : mapPeek s m a = none := by
  by_cases aligned : a % 4 = 0
  · have far := h.resolve_left fun n => n aligned
    rw [mapPeek_window aligned (by omega), windowRead_beyond far]
  · exact mapPeek_unaligned aligned

theorem privateAddr_false (h : a < 0x04000000 ∨ 0x06000000 ≤ a) : privateAddr a = false := decide_eq_false (by omega)

theorem privateAddr_true (h : 0x04000000 ≤ a) (hb : a < 0x06000000) : privateAddr a = true := decide_eq_true ⟨h, hb⟩

theorem foreign_some (h : s.serves m = false) : foreign s m = some (deny .access) := by
  unfold foreign
  rw [h]
  rfl

theorem State.writeWord_unmapped (h : a % 4 ≠ 0 ∨ (0x02400000 ≤ a ∧ a < 0x04000000) ∨ 0x06000000 ≤ a) :
    s.writeWord m a v = (s, ⟨.unmapped, .none⟩) := by
  unfold State.writeWord
  by_cases inside : privateAddr a = true
  · have := of_decide_eq_true inside
    rw [if_pos inside, if_pos (by omega)]
  · rw [if_neg inside, mapPeek_beyond (by omega)]

theorem addrWorld_metrology (h : 0x04000000 ≤ a) (hb : a < 0x05000000) : addrWorld a = .metrology := if_pos ⟨h, hb⟩

theorem addrWorld_secure (h : 0x05000000 ≤ a) (hb : a < 0x06000000) : addrWorld a = .secure := by
  unfold addrWorld
  rw [if_neg (by omega), if_pos ⟨h, hb⟩]

theorem State.writeWord_private (hp : privateAddr a = true) (ha : a % 4 = 0) (h : worldOf m ≠ addrWorld a) : s.writeWord m a v = (s, deny .access) :=
    by
  unfold State.writeWord
  rw [if_pos hp, if_neg fun n => n ha, if_neg h]

theorem State.writeWord_core (hp : privateAddr a = true) (ha : a % 4 = 0) (h : worldOf m = addrWorld a) :
    s.writeWord m a v = (s.storeCore (a - 0x04000000) v, okAnswer) := by
  unfold State.writeWord
  rw [if_pos hp, if_neg fun n => n ha, if_pos h]

theorem State.writeWord_foreign (hm : (mapPeek s m a).isSome = true) (hp : privateAddr a = false) (h : s.serves m = false) :
    s.writeWord m a v = (s, deny .access) := by
  obtain ⟨w, hw⟩ := Option.isSome_iff_exists.1 hm
  unfold State.writeWord
  rw [if_neg (by rw [hp]; decide)]
  simp only [hw, foreign_some h]

theorem State.writeWord_readOnly (ha : a % 4 = 0) (h : 0x01400000 ≤ a) (hb : a < 0x02400000) : s.writeWord m a v = (s, deny .access) := by
  obtain ⟨w, hw⟩ := Option.isSome_iff_exists.1 (windowRead_ledger (s := s) h hb)
  unfold State.writeWord
  rw [if_neg (by rw [privateAddr_false (by omega)]; decide), mapPeek_window ha (by omega)]
  simp only [hw]
  cases hs : s.serves m with
  | false => simp only [foreign_some hs]
  | true =>
    simp only [foreign_none hs]
    exact if_pos (decide_eq_true (Or.inr ⟨h, hb⟩))

theorem worldOf_ne_secure : worldOf m ≠ .secure := by
  cases m <;> decide

end

section
variable {s : State} {t : Nat} {m : Master} {addr : Nat} (hl : s.live = true)
include hl

theorem registerWrite_next (v : Word) : exec (.registerWrite t m addr v) s =
    .next ((((s.arrive t).writeWord m addr v.toNat).1).answered m true addr ((s.arrive t).writeWord m addr v.toNat).2) := by
  rw [show exec (.registerWrite t m addr v) s = .next (doRegisterWrite t m addr v s) from rfl]
  unfold doRegisterWrite
  rw [whenLive_live hl]

theorem registerWrite_held {v : Word} {x : Answer} (h : (s.arrive t).writeWord m addr v.toNat = (s.arrive t, x)) (hx : isViolation x = true) :
    Completes (.registerWrite t m addr v) s ((s.arrive t).Held m true addr x) := by
  refine Completes.of (registerWrite_next hl v) ?_
  rw [h]
  exact State.answered_held hx

theorem registerWrite_refused {v : Word} {x : Answer} (h : (s.arrive t).writeWord m addr v.toNat = (s.arrive t, x)) (hx : isViolation x = false) :
    exec (.registerWrite t m addr v) s = .next { s.arrive t with host := { s.host with answer := x } } := by
  rw [registerWrite_next hl v, h, State.answered_harmless _ _ _ _ hx]
  rfl

theorem registerWrite_ok {v : Word} {u : State} (h : (s.arrive t).writeWord m addr v.toNat = (u, okAnswer)) :
    exec (.registerWrite t m addr v) s = .next { u with host := { u.host with answer := okAnswer } } := by
  rw [registerWrite_next hl v, h, State.answered_ok]

theorem registerWrite_accepted {v : Word} {w : State} (h : (s.arrive t).writeWord m addr v.toNat = (w, okAnswer)) : Completes (.registerWrite t m
    addr v) s fun u =>
    u.host.answer = okAnswer ∧ u.assume = w.assume := Completes.of (registerWrite_ok hl h) ⟨rfl, rfl⟩

end

/-! ## Registers written (R7, R206) -/

section
variable {s : State} {a v : Nat} {e : RegEffect}

theorem State.applyEffect_free (h : e.1 = none) (hn : needsMram s a v = false) : s.applyEffect a v e = (e.2 s, okAnswer) := by
  unfold State.applyEffect firstOf mramRefusal refuseIf State.when
  simp only [h, hn, Bool.false_and, Bool.false_eq_true, ↓reduceIte]

theorem State.applyEffect_charged (h : e.1 = none) (hn : needsMram s a v = true) (hw : s.pwr.pfw = false) (hr : s.policyFull 4 = false) :
    s.applyEffect a v e = (e.2 (s.chargePolicy 4), okAnswer) := by
  unfold State.applyEffect firstOf mramRefusal refuseIf State.when
  simp only [h, hn, hw, hr, Bool.or_self, Bool.and_false, Bool.false_eq_true, ↓reduceIte]

theorem State.applyEffect_full (h : e.1 = none) (hn : needsMram s a v = true) (hr : ¬(s.pwr.pfw = false ∧ s.policyFull 4 = false)) :
    s.applyEffect a v e = (s, ⟨.busy, .mram⟩) := by
  have full : (s.pwr.pfw || s.policyFull 4) = true := by
    rw [Bool.or_eq_true]
    by_cases w : s.pwr.pfw = true
    · exact Or.inl w
    · refine Or.inr ?_
      cases r : s.policyFull 4 with
      | true => rfl
      | false => exact absurd ⟨Bool.eq_false_iff.2 w, r⟩ hr
  unfold State.applyEffect firstOf mramRefusal refuseIf
  simp only [h, hn, full, Bool.true_and, ↓reduceIte]

end

theorem severalBits_low (v : Nat) : severalBits v 3 = decide (v % 4 = 3) := by
  unfold severalBits
  rw [show v &&& 3 = v % 4 from Nat.and_two_pow_sub_one_eq_mod v 2]
  have cases : v % 4 = 0 ∨ v % 4 = 1 ∨ v % 4 = 2 ∨ v % 4 = 3 := by omega
  rcases cases with h | h | h | h <;> rw [h] <;> decide

theorem mod_four_of_bits {v : Nat} (h0 : v.testBit 0 = true) (h1 : v.testBit 1 = true) : v % 4 = 3 := by
  rw [Nat.testBit_eq_decide_div_mod_eq, decide_eq_true_eq] at h0 h1
  omega

theorem testBit_of_mod_four {v : Nat} (h : v % 4 = 1) : v.testBit 0 = true := by
  rw [Nat.testBit_eq_decide_div_mod_eq, decide_eq_true_eq]
  omega

section
variable {s : State} {t : Nat} {m : Master} {v : Word} (hl : s.live = true) (hs : s.serves m = true)
include hl hs

theorem registerWrite_readOnly {addr : Nat} (hm : (mapPeek (s.arrive t) m addr).isSome = true) (hp : privateAddr addr = false) (hr : readOnlyWindow
    addr = false)
    (hw : (s.arrive t).writeMapped m addr v.toNat = (s.arrive t).applyEffect addr v.toNat roWord) (hn : needsMram (s.arrive t) addr v.toNat = false) :
    exec (.registerWrite t m addr v) s = .next { s.arrive t with host := { s.host with answer := okAnswer } } := by
  refine registerWrite_refused hl ?_ rfl
  rw [State.writeWord_mapped hm hs hp hr, hw, State.applyEffect_free rfl hn]
  rfl

/-! ### The thresholds of the fault recorder (R176) -/

/-- The effect of a word of STL.OC_TH. -/
def thresholdEffect (v : Nat) : RegEffect :=
  inRange (decide (1 ≤ bits v 16 16 ∧ bits v 16 16 ≤ 0x7FFF ∧ 1 ≤ bits v 0 16 ∧ bits v 0 16 ≤ 0x7FFF)) fun s =>
    s.setStl fun x => { x with vTh := bits v 16 16, iTh := bits v 0 16 }

omit hl hs in
theorem thresholds (v : Word) : bits v.toNat 16 16 = v.toNat / 65536 ∧ bits v.toNat 0 16 = v.toNat % 65536 := by
  have below := v.isLt
  unfold bits
  rw [Nat.shiftRight_eq_div_pow, Nat.shiftRight_eq_div_pow]
  omega

omit hl in
theorem State.writeWord_threshold : (s.arrive t).writeWord m 0x00240104 v.toNat = (s.arrive t).applyEffect 0x00240104 v.toNat (thresholdEffect
    v.toNat) :=
  State.writeWord_mapped rfl hs rfl rfl

theorem registerWrite_threshold {vTh iTh : Nat} (hv : v.toNat / 65536 = vTh) (hi : v.toNat % 65536 = iTh) (h : 1 ≤ vTh ∧ vTh ≤ 0x7FFF ∧ 1 ≤ iTh ∧ iTh
    ≤ 0x7FFF)
    (hw : s.pwr.pfw = false) (hr : s.policyFull 4 = false) : Completes (.registerWrite t m 0x00240104 v) s fun u =>
      u.stl = { s.stl with vTh := vTh, iTh := iTh } ∧ u.host = { s.host with answer := okAnswer } ∧ u.stalls = s.stalls := by
  obtain ⟨high, low⟩ := thresholds v
  have free : (thresholdEffect v.toNat).1 = none := by
    unfold thresholdEffect inRange refuseIf
    rw [high, low, hv, hi]
    simp [h]
  refine Completes.of (registerWrite_ok hl ((State.writeWord_threshold hs).trans (State.applyEffect_charged free rfl hw hr))) ?_
  unfold thresholdEffect inRange
  rw [high, low, hv, hi]
  exact ⟨rfl, rfl, rfl⟩

theorem registerWrite_threshold_full (h : 1 ≤ v.toNat / 65536 ∧ v.toNat / 65536 ≤ 0x7FFF ∧ 1 ≤ v.toNat % 65536 ∧ v.toNat % 65536 ≤ 0x7FFF)
    (hr : ¬(s.pwr.pfw = false ∧ s.policyFull 4 = false)) :
    exec (.registerWrite t m 0x00240104 v) s = .next { s.arrive t with host := { s.host with answer := ⟨.busy, .mram⟩ } } := by
  obtain ⟨high, low⟩ := thresholds v
  refine registerWrite_refused hl ?_ rfl
  refine (State.writeWord_threshold hs).trans (State.applyEffect_full ?_ rfl hr)
  unfold thresholdEffect inRange refuseIf
  rw [high, low]
  simp [h]

theorem registerWrite_threshold_range (h : ¬(1 ≤ v.toNat / 65536 ∧ v.toNat / 65536 ≤ 0x7FFF ∧ 1 ≤ v.toNat % 65536 ∧ v.toNat % 65536 ≤ 0x7FFF)) :
    exec (.registerWrite t m 0x00240104 v) s = .next { s.arrive t with host := { s.host with answer := deny .range } } := by
  obtain ⟨high, low⟩ := thresholds v
  refine registerWrite_refused hl ?_ rfl
  refine (State.writeWord_threshold hs).trans ?_
  unfold thresholdEffect inRange refuseIf
  rw [high, low, decide_eq_false h]
  exact State.applyEffect_refused ..

omit hl hs in
theorem sysGuard_sealed (h : s.lock.st = .sealed) : sysGuard s m = some ⟨.sealed, .none⟩ := by
  unfold sysGuard
  simp only [h]

omit hl hs in
theorem sysGuard_locked (h : s.lock.st = .locked ∨ (s.lock.st = .unlocked ∧ s.lock.owner ≠ m)) : sysGuard s m = some ⟨.locked, .none⟩ := by
  unfold sysGuard
  rcases h with h | ⟨h, ho⟩
  · simp only [h]
  · simp only [h, ho, ↓reduceIte]

/-! ### SYS.ASSUME, HOST.NET_IP and the control registers (R406, R487, R518) -/

/-- The effect of a word of SYS.ASSUME. -/
def State.clearAssume (s : State) (v : Nat) : State :=
  ({ s with assume := assumeCleared s.assume v }).bumpIf (assumeWord (assumeCleared s.assume v) != assumeWord s.assume) 0

omit hl hs in
theorem State.clearAssume_assume (s : State) (v : Nat) : (s.clearAssume v).assume = assumeCleared s.assume v := State.bumpIf_assume ..

omit hl hs in
theorem sysWrite_assume (s : State) (m : Master) (v : Nat) : sysWrite s m 0x80 v = some (none, fun s => s.clearAssume v) := by
  simp only [sysWrite, State.clearAssume]

omit hl hs in
theorem State.writeMapped_assume (s : State) (m : Master) (v : Nat) : s.writeMapped m 0x80 v = s.applyEffect 0x80 v (none, fun s => s.clearAssume v)
    := by
  unfold State.writeMapped
  show (match sysWrite s m 0x80 v with | some e => s.applyEffect 0x80 v e | none => (s, ⟨.unmapped, .none⟩)) = _
  rw [sysWrite_assume]

theorem registerWrite_assume : Completes (.registerWrite t m 0x80 v) s fun u => u.host.answer = okAnswer ∧ u.assume = assumeCleared s.assume v.toNat
    := by
  have mapped : (s.arrive t).writeWord m 0x80 v.toNat = (s.arrive t).writeMapped m 0x80 v.toNat := State.writeWord_mapped rfl hs rfl rfl
  have written := (mapped.trans (State.writeMapped_assume ..)).trans (State.applyEffect_free rfl rfl)
  obtain ⟨u, next, answer, assume⟩ := registerWrite_accepted hl written
  exact ⟨u, next, answer, assume.trans (State.clearAssume_assume ..)⟩

omit hl in
theorem State.writeWord_netIp : (s.arrive t).writeWord m 0x00A00080 v.toNat = (s.arrive t).applyEffect 0x00A00080 v.toNat
    (sysGuard (s.arrive t) m, fun s => s.setHost fun h => { h with stagedIp := some v.toNat }) := State.writeWord_mapped rfl hs rfl rfl

theorem registerWrite_netIp (hu : s.lock.st = .unlocked) (ho : s.lock.owner = m) (hw : s.pwr.pfw = false) (hr : s.policyFull 4 = false) :
    Completes (.registerWrite t m 0x00A00080 v) s fun u => u.host = { s.host with stagedIp := some v.toNat, answer := okAnswer } := by
  have guard : sysGuard (s.arrive t) m = none := by
    unfold sysGuard
    rw [State.arrive_lock]
    simp only [hu, ho, ↓reduceIte]
  exact Completes.of (registerWrite_ok hl ((State.writeWord_netIp hs).trans (State.applyEffect_charged guard rfl hw hr))) rfl

theorem registerWrite_netIp_held {x : Answer} (h : sysGuard s m = some x) (hx : isViolation x = true) : Completes (.registerWrite t m 0x00A00080 v) s
    fun u =>
    (s.arrive t).Held m true 0x00A00080 x u ∧ u.host.stagedIp = s.host.stagedIp := by
  have guard : sysGuard (s.arrive t) m = some x := h
  have word : (s.arrive t).writeWord m 0x00A00080 v.toNat = (s.arrive t, x) := by
    rw [State.writeWord_netIp hs, guard]
    exact State.applyEffect_refused ..
  refine Completes.of (registerWrite_next hl v) ?_
  rw [word]
  have rest : ((s.arrive t).answered m true 0x00A00080 x).host.rest = s.host.rest := (State.answered_only rfl rfl rfl rfl rfl (cs := allSave .host)
      (OnlyIn.refl _ _)) .host rfl
  have staged : ((s.arrive t).answered m true 0x00A00080 x).host.rest.stagedIp = s.host.rest.stagedIp := by rw [rest]
  exact ⟨State.answered_held hx, staged⟩

theorem registerWrite_lockCtrl_several (h : v.toNat % 4 = 3) :
    exec (.registerWrite t m 0x40 v) s = .next { s.arrive t with host := { s.host with answer := deny .range } } := by
  refine registerWrite_refused hl ?_ rfl
  rw [State.writeWord_mapped (s := s.arrive t) rfl hs rfl rfl]
  show (s.arrive t).lockCtrlWrite m v.toNat = _
  unfold State.lockCtrlWrite
  rw [if_pos]
  rw [severalBits_low, decide_eq_true h]

omit hl in
theorem State.writeWord_capCtrl : (s.arrive t).writeWord m 0x00240000 v.toNat = (s.arrive t).applyEffect 0x00240000 v.toNat (capCtrl v.toNat) :=
  State.writeWord_mapped rfl hs rfl rfl

theorem registerWrite_capCtrl_several (h : v.toNat % 4 = 3) :
    exec (.registerWrite t m 0x00240000 v) s = .next { s.arrive t with host := { s.host with answer := deny .range } } := by
  refine registerWrite_refused hl ?_ rfl
  refine (State.writeWord_capCtrl hs).trans ?_
  unfold capCtrl refuseIf
  rw [severalBits_low, decide_eq_true h]
  exact State.applyEffect_refused ..

theorem registerWrite_capArm (h : v.toNat % 4 = 1) : Completes (.registerWrite t m 0x00240000 v) s fun u =>
    u.stl.armed = true ∧ u.stl.frozen = false ∧ u.host.answer = okAnswer := by
  have written : (s.arrive t).writeWord m 0x00240000 v.toNat = ((s.arrive t).capArm, okAnswer) := by
    rw [State.writeWord_capCtrl hs, State.applyEffect_free]
    · refine congrArg (·, okAnswer) ?_
      exact if_pos (testBit_of_mod_four h)
    · unfold capCtrl refuseIf
      rw [severalBits_low, h]
      rfl
    · rfl
  have armed : (s.arrive t).capArm.stl = { s.stl with frozen := false, armed := true } := State.bumpIf_stl ..
  exact Completes.of (registerWrite_ok hl written) ⟨congrArg StlCommon.armed armed, congrArg StlCommon.frozen armed, rfl⟩

end

/-! ## Words read (R385, R394) -/

theorem State.readWord_mapped {s : State} {m : Master} {a v : Nat} (hm : mapPeek s m a = some v) (hs : s.serves m = true) (hp : privateAddr a =
    false) :
    s.readWord m a = s.readMapped m a v := by
  unfold State.readWord
  rw [if_neg (by rw [hp]; decide)]
  simp only [hm, foreign_none hs]

theorem State.readWord_unmapped {s : State} {m : Master} {a : Nat} (hm : mapPeek s m a = none) (hp : privateAddr a = false) :
    s.readWord m a = ((0, ⟨.unmapped, .none⟩), s) := by
  unfold State.readWord
  rw [if_neg (by rw [hp]; decide)]
  simp only [hm]

theorem State.readWord_foreign {s : State} {m : Master} {a : Nat} (hm : (mapPeek s m a).isSome = true) (hp : privateAddr a = false) (h : s.serves m =
    false) :
    s.readWord m a = ((0, deny .access), s) := by
  obtain ⟨w, hw⟩ := Option.isSome_iff_exists.1 hm
  unfold State.readWord
  rw [if_neg (by rw [hp]; decide)]
  simp only [hw, foreign_some h]

/-- The answer of a run whose first bad word is given. -/
def runAnswer : Option (Nat × Answer) → Answer
  | some b => b.2
  | none => okAnswer

theorem firstBad_status (xs : List (Nat × Answer)) (i : Nat) : (runAnswer (firstBad i xs)).status = .ok ↔ ∀ x ∈ xs, x.2.status = .ok := by
  induction xs generalizing i with
  | nil => simp [firstBad, runAnswer, okAnswer]
  | cons x xs ih =>
    unfold firstBad
    by_cases h : x.2.status = .ok
    · rw [if_pos h, ih]
      simp [h]
    · rw [if_neg h]
      simp [runAnswer, h]

theorem firstBad_none {xs : List (Nat × Answer)} (h : ∀ x ∈ xs, x.2.status = .ok) (i : Nat) : firstBad i xs = none := by
  induction xs generalizing i with
  | nil => rfl
  | cons x xs ih =>
    unfold firstBad
    rw [if_pos (h x List.mem_cons_self)]
    exact ih (fun y hy => h y (List.mem_cons_of_mem _ hy)) _

theorem firstBad_one (x : Nat × Answer) : (runAnswer (firstBad 0 [x])).status = x.2.status ∧ (x.2.status ≠ .ok → firstBad 0 [x] = some (0, x.2)) := by
  unfold firstBad
  by_cases h : x.2.status = .ok
  · rw [if_pos h, h]
    exact ⟨rfl, fun n => absurd rfl n⟩
  · rw [if_neg h]
    exact ⟨rfl, fun _ => rfl⟩

theorem State.readWords_one (s : State) (m : Master) (a : Nat) :
    s.readWords m [a] = ([(s.readWord m a).1], (s.readWord m a).2.answered m false a (s.readWord m a).1.2) := rfl

theorem State.finish_none (s : State) (started : Nat) (bad : Option (Nat × Answer)) (done : Nat) (data : List Nat) (payload : Bytes) :
    s.finish none started bad done data payload = s.setHost fun h => { h with answer := runAnswer bad, data := data.map word } := by
  cases bad <;> rfl

theorem State.transaction_inner {s : State} {m : Master} (hu : m ≠ .udp) (hp : m ≠ .spi) (op : TallyOp) (tag addr count : Nat) (payload : Bytes) (ok
    : Bool)
    (run : Option Request → State → State) : s.transaction m op tag addr count payload ok run =
      if ok && (payloadLen (opCode op) count).isSome then run none s else s.setHost fun h => { h with answer := ⟨.badLen, .format⟩ } := by
  have head : queuedRequest s m (opCode op) tag addr count payload = none := by
    cases m with
    | udp => exact absurd rfl hu
    | spi => exact absurd rfl hp
    | _ => rfl
  unfold State.transaction
  simp only [head, hu, hp, or_self, ↓reduceIte]

theorem payloadLen_read {op n : Nat} (h : 1 ≤ n ∧ n ≤ 256) (ho : op = 1 ∨ op = 2) : (payloadLen op n).isSome = true := by
  unfold payloadLen
  rcases ho with rfl | rfl <;> simp only [h, and_self, ↓reduceIte, Option.isSome_some]

section
variable {s : State} {t : Nat} {m : Master} {tag addr : Nat} (hl : s.live = true) (hu : m ≠ .udp) (hp : m ≠ .spi)
include hl hu hp

theorem readList_one {x : Nat} (h : x % 4 = 0) : exec (.readList t m tag [x]) s = .next ((s.arrive t).runRead m [x] none) := by
  rw [show exec (.readList t m tag [x]) s = .next (doReadList t m tag [x] s) from rfl]
  unfold doReadList
  rw [whenLive_live hl, State.transaction_inner hu hp, if_pos]
  simp [h]
  rfl

omit hl hu hp in
theorem State.runRead_one (x : Nat) : (s.arrive t).runRead m [x] none =
    ((((s.arrive t).readWord m x).2).answered m false x ((s.arrive t).readWord m x).1.2).setHost fun h =>
      { h with answer := runAnswer (firstBad 0 [((s.arrive t).readWord m x).1]), data := [word ((s.arrive t).readWord m x).1.1] } := by
  unfold State.runRead
  dsimp only
  rw [State.finish_none, State.readWords_one]
  rfl

theorem readList_answers {x : Nat} (h : x % 4 = 0) : Completes (.readList t m tag [x]) s fun u =>
    u.host.data = [word ((s.arrive t).readWord m x).1.1] ∧ u.host.answer.status = ((s.arrive t).readWord m x).1.2.status := by
  refine Completes.of (readList_one hl hu hp h) ?_
  rw [State.runRead_one]
  exact ⟨rfl, (firstBad_one _).1⟩

theorem readList_held {x : Answer} (ha : addr % 4 = 0) (h : (s.arrive t).readWord m addr = ((0, x), s.arrive t)) (hx : isViolation x = true) :
    Completes (.readList t m tag [addr]) s fun u => u.host.data = [0] ∧ (s.arrive t).Held m false addr x u := by
  refine Completes.of (readList_one hl hu hp ha) ?_
  have bad : x.status ≠ .ok := fun e => by
    unfold isViolation at hx
    rw [e] at hx
    nomatch hx
  rw [State.runRead_one, h, (firstBad_one (0, x)).2 bad]
  obtain ⟨_, count, record⟩ := State.answered_held (s := s.arrive t) (m := m) (write := false) (addr := addr) hx
  exact ⟨rfl, rfl, count, record⟩

theorem readList_zero (ha : addr % 4 = 0) (h : (s.arrive t).readWord m addr = ((0, okAnswer), s.arrive t)) :
    exec (.readList t m tag [addr]) s = .next { s.arrive t with host := { s.host with answer := okAnswer, data := [0] } } := by
  rw [readList_one hl hu hp ha, State.runRead_one, h]
  rfl

theorem read_answers {count : Nat} (ha : addr % 4 = 0) (h1 : 1 ≤ count) (h2 : count ≤ 256) : Completes (.read t m tag addr count) s fun u =>
    u.host.data = ((s.arrive t).readWords m (readAddrs addr count)).1.map (fun x => word x.1) ∧
    (u.host.answer.status = .ok ↔ ∀ x ∈ ((s.arrive t).readWords m (readAddrs addr count)).1, x.2.status = .ok) := by
  have next : exec (.read t m tag addr count) s = .next ((s.arrive t).runRead m (readAddrs addr count) none) := by
    rw [show exec (.read t m tag addr count) s = .next (doRead t m tag addr count s) from rfl]
    unfold doRead
    rw [whenLive_live hl, State.transaction_inner hu hp, if_pos]
    rw [decide_eq_true ha, payloadLen_read ⟨h1, h2⟩ (op := opCode .read) (Or.inl rfl)]
    rfl
  refine Completes.of next ?_
  unfold State.runRead
  dsimp only
  rw [State.finish_none]
  exact ⟨List.map_map, firstBad_status _ 0⟩

theorem read_malformed {count : Nat} (h : addr % 4 ≠ 0 ∨ count = 0 ∨ 256 < count) : Completes (.read t m tag addr count) s fun u =>
    u.host = { s.host with answer := ⟨.badLen, .format⟩ } := by
  refine Completes.live hl rfl ?_
  rw [State.transaction_inner hu hp, if_neg]
  · rfl
  · rcases h with h | h
    · rw [decide_eq_false h, Bool.false_and]
      exact Bool.false_ne_true
    · have bad : payloadLen (opCode .read) count = none := if_neg (by omega)
      rw [bad]
      simp

theorem write_next {v : Word} {vs : List Word} (ha : addr % 4 = 0) (hn : vs.length < 256) :
    exec (.write t m tag addr (v :: vs)) s = .next ((s.arrive t).runWrite m addr ((v :: vs).map (·.toNat)) none) := by
  rw [show exec (.write t m tag addr (v :: vs)) s = .next (doWrite t m tag addr (v :: vs) s) from rfl]
  unfold doWrite
  rw [whenLive_live hl]
  dsimp only
  rw [State.transaction_inner hu hp, if_pos]
  rw [decide_eq_true ha, payloadLen_read (op := opCode .write) _ (Or.inr rfl)]
  · rfl
  · simp only [List.map_cons, List.length_cons, List.length_map]
    omega

theorem write_refused {v : Word} {vs : List Word} (ha : addr % 4 = 0) (hn : vs.length < 256) (h : ((s.arrive t).writeWord m addr v.toNat).2.status ≠
    .ok) :
    exec (.write t m tag addr (v :: vs)) s = .next ((((s.arrive t).writeWord m addr v.toNat).1.answered m true addr ((s.arrive t).writeWord m addr
        v.toNat).2).setHost
      fun h => { h with answer := ((s.arrive t).writeWord m addr v.toNat).2, data := [] }) := by
  rw [write_next hl hu hp ha hn]
  refine congrArg Host.Outcome.next ?_
  unfold State.runWrite
  rw [List.map_cons]
  unfold writeWords
  dsimp only
  rw [if_pos h]
  dsimp only
  rw [if_neg (by decide), State.finish_none]
  rfl

theorem write_ok {v : Word} (ha : addr % 4 = 0) (h : ((s.arrive t).writeWord m addr v.toNat).2 = okAnswer)
    (hr : resetWord addr v.toNat ((s.arrive t).writeWord m addr v.toNat).2 = false) :
    exec (.write t m tag addr [v]) s = .next ((((s.arrive t).writeWord m addr v.toNat).1.answered m true addr ((s.arrive t).writeWord m addr
        v.toNat).2).setHost
      fun h => { h with answer := okAnswer, data := [] }) := by
  rw [write_next hl hu hp ha (by decide)]
  refine congrArg Host.Outcome.next ?_
  unfold State.runWrite
  rw [List.map_cons]
  unfold writeWords
  dsimp only
  have good : ¬((s.arrive t).writeWord m addr v.toNat).2.status ≠ .ok := fun n => n (congrArg Answer.status h)
  rw [if_neg good, hr, if_neg Bool.false_ne_true, List.map_nil]
  unfold writeWords
  dsimp only
  rw [if_neg Bool.false_ne_true, State.finish_none]
  rfl

theorem echo_answers {data : Bytes} (h : data.length ≤ 1024) :
    exec (.echo t m tag data) s = .next { s.arrive t with host := { s.host with answer := okAnswer, data := [] } } := by
  rw [show exec (.echo t m tag data) s = .next (doEcho t m tag data s) from rfl]
  unfold doEcho
  have fits : payloadLen (opCode .echo) data.length = some data.length := if_pos h
  rw [whenLive_live hl, State.transaction_inner hu hp, fits, if_pos (by rfl), State.finish_none]
  rfl

theorem echo_malformed {data : Bytes} (h : 1024 < data.length) :
    exec (.echo t m tag data) s = .next { s.arrive t with host := { s.host with answer := ⟨.badLen, .format⟩ } } := by
  rw [show exec (.echo t m tag data) s = .next (doEcho t m tag data s) from rfl]
  unfold doEcho
  have long : payloadLen (opCode .echo) data.length = none := if_neg (by omega)
  rw [whenLive_live hl, State.transaction_inner hu hp, long, if_neg (by simp)]
  rfl

end

/-! ## Requests of the UDP port (R393, R394, R398) -/

section
variable {s : State} {t : Nat} {r : Request} {rest : List Request}

/-- The state with the head of the UDP queue taken. -/
def State.popped (s : State) (rest : List Request) : State := { s with host := { s.host with udpQueue := rest } }

theorem State.transaction_queued (hq : s.host.udpQueue = r :: rest) (op : TallyOp) (ho : r.op = opCode op) (ok : Bool) (run : Option Request → State
    → State) :
    s.transaction .udp op r.tag r.addr r.count r.payload ok run =
      if !inTurn s.host r then s else match keptFor (s.popped rest) r.origin r.tag r.crc with
        | some k => (s.popped rest).sendKept r.origin k
        | none => run (some r) (s.popped rest) := by
  have head : queuedRequest s .udp (opCode op) r.tag r.addr r.count r.payload = some r := by
    unfold queuedRequest
    simp only [hq, List.head?_cons, Option.bind_some, ho, and_self, ↓reduceIte]
  have pop : s.popRequest .udp = s.popped rest := by
    show ({ s with host := { s.host with udpQueue := s.host.udpQueue.drop 1 } } : State) = s.popped rest
    rw [hq]
    rfl
  unfold State.transaction
  simp only [head, pop] <;> rfl

theorem State.popped_kept (s : State) (rest : List Request) (o : Origin) (tag crc : Nat) : keptFor (s.popped rest) o tag crc = keptFor s o tag crc :=
    rfl

theorem State.finish_some (w : State) (r : Request) (started : Nat) (bad : Option (Nat × Answer)) (done : Nat) (data : List Nat) (payload : Bytes) :
    w.finish (some r) started bad done data payload =
      (w.setHost fun h => { h with answer := runAnswer bad, data := data.map word }).finishRequest r started bad done payload := by
  cases bad <;> rfl

/-- A request that is executed with its reply: the queue, and the reply where the request came over UDP. -/
theorem State.finishRequest_udp (w : State) (r : Request) (ho : r.origin.spi = false) (started : Nat) (bad : Option (Nat × Answer)) (done : Nat)
    (payload : Bytes) :
    ∃ ans idx, (w.finishRequest r started bad done payload).host.netOut = tallyOut w.host r.origin (replyFrame (r.op + 128) r.tag ans idx done
        started payload) ∧
      (bad = none → ans = okAnswer ∧ idx = 0xFFFF) ∧ (w.finishRequest r started bad done payload).host.udpRequests = satInc 16 w.host.udpRequests :=
          by
  unfold State.finishRequest State.sendReply State.keepReply State.setHost
  simp only [ho, Bool.false_eq_true, ↓reduceIte]
  cases bad with
  | none => exact ⟨okAnswer, 0xFFFF, rfl, fun _ => ⟨rfl, rfl⟩, trivial⟩
  | some b => exact ⟨b.2, b.1, rfl, fun h => (nomatch h), trivial⟩

theorem State.finishRequest_queue (w : State) (r : Request) (started : Nat) (bad : Option (Nat × Answer)) (done : Nat) (payload : Bytes) :
    (w.finishRequest r started bad done payload).host.udpQueue = w.host.udpQueue := by
  unfold State.finishRequest State.sendReply State.keepReply State.setHost
  cases r.origin.spi <;> rfl

/-! ### What reading words leaves of the host block -/

/-- The queue of the UDP port and the address its replies are sent from. -/
def HostBlock.port (h : HostBlock) : List Request × Nat := (h.udpQueue, h.netIp)

theorem State.setLatch_port (w : State) (m : Master) (f : PortLatch → PortLatch) : (w.setLatch m f).host.port = w.host.port := by
  cases m <;> rfl

theorem State.answered_port (w : State) (m : Master) (write : Bool) (a : Nat) (x : Answer) : (w.answered m write a x).host.port = w.host.port := by
  have rest : (w.answered m write a x).host.rest = w.host.rest := (State.answered_only rfl rfl rfl rfl rfl (cs := allSave .host) (OnlyIn.refl _ _))
      .host rfl
  show (w.answered m write a x).host.rest.port = w.host.rest.port
  rw [rest]

theorem State.readMapped_port (w : State) (m : Master) (a v : Nat) : (w.readMapped m a v).2.host.port = w.host.port := by
  unfold State.readMapped
  split
  · exact State.setLatch_port ..
  · unfold State.readTime
    rw [if_pos rfl]
    split <;> rfl
  · exact State.setLatch_port ..
  · exact State.setLatch_port ..
  · unfold State.readRaw
    rw [if_pos rfl]
    split <;> rfl
  · split
    · dsimp only
      split
      · exact State.setLatch_port ..
      · rfl
    · split
      · rfl
      · split
        · rfl
        · split <;> rfl

theorem State.readWord_port (w : State) (m : Master) (a : Nat) : (w.readWord m a).2.host.port = w.host.port := by
  unfold State.readWord
  split
  · rfl
  · split
    · rfl
    · split
      · rfl
      · exact State.readMapped_port ..

theorem State.readWords_port (as : List Nat) (w : State) (m : Master) : (w.readWords m as).2.host.port = w.host.port := by
  induction as generalizing w with
  | nil => rfl
  | cons a as ih => exact (ih _).trans ((State.answered_port ..).trans (State.readWord_port ..))

theorem tallyOut_netIp {h g : HostBlock} (e : h.netIp = g.netIp) (o : Origin) (f : Bytes) : tallyOut h o f = tallyOut g o f := by
  unfold tallyOut
  rw [e]

section
variable (hl : s.live = true) (hq : s.host.udpQueue = r :: rest) (ht : inTurn s.host r = true)
include hl hq

theorem read_queued (ho : r.op = 1) (hp : r.payload = []) : exec (.read t .udp r.tag r.addr r.count) s = .next
    (if !inTurn s.host r then s.arrive t else match keptFor (s.arrive t) r.origin r.tag r.crc with
      | some k => ((s.arrive t).popped rest).sendKept r.origin k
      | none => ((s.arrive t).popped rest).runRead .udp (readAddrs r.addr r.count) (some r)) := by
  rw [show exec (.read t .udp r.tag r.addr r.count) s = .next (doRead t .udp r.tag r.addr r.count s) from rfl]
  unfold doRead
  rw [whenLive_live hl, ← hp, State.transaction_queued (s := s.arrive t) hq .read ho, State.popped_kept]
  rfl

include ht

theorem read_executed (ho : r.op = 1) (hp : r.payload = []) (hk : keptFor (s.arrive t) r.origin r.tag r.crc = none) :
    Completes (.read t .udp r.tag r.addr r.count) s fun u =>
      let w := (((s.arrive t).popped rest).readWords .udp (readAddrs r.addr r.count)).1
      u.host.udpQueue = rest ∧ (r.origin.spi = false → ∃ ans idx, u.host.netOut = tallyOut s.host r.origin
        (replyFrame 0x81 r.tag ans idx r.count (s.arrive t).mt ((w.map (·.1)).flatMap (leBytes 4))) ∧
        ((∀ x ∈ w, x.2.status = .ok) → ans = okAnswer ∧ idx = 0xFFFF)) := by
  refine Completes.of (read_queued hl hq ho hp) ?_
  simp only [ht, Bool.not_true, Bool.false_eq_true, ↓reduceIte, hk]
  have port : (((s.arrive t).popped rest).readWords .udp (readAddrs r.addr r.count)).2.host.port = (rest, s.host.netIp) := State.readWords_port ..
  have len : (readAddrs r.addr r.count).length = r.count := by
    unfold readAddrs
    rw [List.length_map, List.length_range]
  unfold State.runRead
  dsimp only
  rw [len]
  obtain ⟨w, hw⟩ : ∃ w, ((s.arrive t).popped rest).readWords .udp (readAddrs r.addr r.count) = w := ⟨_, rfl⟩
  rw [hw] at port ⊢
  rw [State.finish_some]
  have queue : w.2.host.udpQueue = rest := congrArg Prod.fst port
  refine ⟨(State.finishRequest_queue ..).trans queue, fun hu => ?_⟩
  obtain ⟨ans, idx, out, good, _⟩ := State.finishRequest_udp (w.2.setHost fun h =>
      { h with answer := runAnswer (firstBad 0 w.1), data := (w.1.map (·.1)).map word }) r hu
    (s.arrive t).mt (firstBad 0 w.1) r.count ((w.1.map (·.1)).flatMap (leBytes 4))
  refine ⟨ans, idx, ?_, fun h => good (firstBad_none h 0)⟩
  rw [ho] at out
  have ip : w.2.host.netIp = s.host.netIp := congrArg Prod.snd port
  exact out.trans (tallyOut_netIp ip ..)

theorem read_again {k : Kept} (ho : r.op = 1) (hp : r.payload = []) (hk : keptFor (s.arrive t) r.origin r.tag r.crc = some k) (hu : r.origin.spi =
    false) :
    Completes (.read t .udp r.tag r.addr r.count) s fun u =>
      u.host = { s.host with udpQueue := rest, netOut := tallyOut s.host r.origin k.reply, udpDuplicate := satInc 8 s.host.udpDuplicate } := by
  refine Completes.of (read_queued hl hq ho hp) ?_
  simp only [ht, Bool.not_true, Bool.false_eq_true, ↓reduceIte, hk]
  unfold State.sendKept State.sendReply
  simp only [hu, Bool.false_eq_true, ↓reduceIte]
  rfl

theorem echo_executed (ho : r.op = 4) (ha : r.addr = 0) (hc : r.count = r.payload.length) (hu : r.origin.spi = false)
    (hk : keptFor (s.arrive t) r.origin r.tag r.crc = none) : Completes (.echo t .udp r.tag r.payload) s fun u =>
      u.host.udpQueue = rest ∧ u.host.netOut = tallyOut s.host r.origin (replyFrame 0x84 r.tag okAnswer 0xFFFF 0 (s.arrive t).mt r.payload) ∧
      u.host.udpRequests = satInc 16 s.host.udpRequests := by
  have next : exec (.echo t .udp r.tag r.payload) s = .next (((s.arrive t).popped rest).finish (some r) (s.arrive t).mt none 0 [] r.payload) := by
    rw [show exec (.echo t .udp r.tag r.payload) s = .next (doEcho t .udp r.tag r.payload s) from rfl]
    unfold doEcho
    have queued := State.transaction_queued (s := s.arrive t) hq .echo ho true fun q s => s.finish q s.mt none 0 [] r.payload
    rw [ha, hc] at queued
    rw [whenLive_live hl, queued, State.popped_kept, hk, if_neg (by rw [show inTurn (s.arrive t).host r = true from ht]; decide)]
    rfl
  refine Completes.of next ?_
  rw [State.finish_some]
  obtain ⟨ans, idx, out, good, count⟩ := State.finishRequest_udp (((s.arrive t).popped rest).setHost fun h =>
      { h with answer := runAnswer none, data := [] }) r hu
    (s.arrive t).mt none 0 r.payload
  obtain ⟨rfl, rfl⟩ := good rfl
  rw [ho] at out
  exact ⟨State.finishRequest_queue .., out, count⟩

end

theorem read_waits (hl : s.live = true) (hq : s.host.udpQueue = r :: rest) (ht : inTurn s.host r = false) (ho : r.op = 1) (hp : r.payload = []) :
    exec (.read t .udp r.tag r.addr r.count) s = .next (s.arrive t) := by
  rw [read_queued hl hq ho hp, ht]
  rfl

theorem inTurn_udp {h : HostBlock} {r q : Request} (ho : r.origin.spi = false) (hq : h.spiQueue = some q) : inTurn h r = true ↔ r.at_ < q.at_ := by
  unfold inTurn
  rw [ho, if_neg Bool.false_ne_true]
  simp only [hq, decide_eq_true_eq]

end

/-! ## Rates (R401, R485) -/

section
variable {s : State} {t : Nat} (hl : s.live = true)
include hl

omit hl in
theorem State.judgeRequest_counts (w : State) (o : Origin) (f : Bytes) : (w.judgeRequest o f).host.transactions = w.host.transactions ∧
    (w.judgeRequest o f).host.rateEnd = w.host.rateEnd ∧ (w.judgeRequest o f).assume = w.assume := by
  unfold State.judgeRequest State.sendReply State.setHost
  split
  · cases o.spi <;> exact ⟨rfl, rfl, rfl⟩
  · split
    · unfold State.sendKept State.sendReply State.setHost
      cases o.spi <;> exact ⟨rfl, rfl, rfl⟩
    · split
      · cases o.spi <;> exact ⟨rfl, rfl, rfl⟩
      · split
        · unfold State.pushRequest State.setHost
          dsimp only
          split <;> exact ⟨rfl, rfl, rfl⟩
        · cases o.spi <;> exact ⟨rfl, rfl, rfl⟩

omit hl in
theorem State.judgeRate_counts (w : State) : w.judgeRate.host.transactions = w.host.transactions ∧ w.judgeRate.host.rateEnd = w.host.rateEnd := by
  obtain ⟨host, _, _⟩ := w.judgeRate_parts
  obtain ⟨j, hj⟩ : ∃ j, w.judgeRate = j := ⟨_, rfl⟩
  rw [hj] at host ⊢
  rw [host]
  exact ⟨rfl, rfl⟩

omit hl in
theorem State.counted_counts (w : State) (n : Nat) : (w.counted n).host.transactions = w.host.transactions + 1 ∧
    (w.counted n).host.rateEnd = w.host.rateEnd := ⟨rfl, rfl⟩

omit hl in
theorem State.countHost_same {w : State} (n : Nat) (h : w.rateSpan ≤ w.host.rateEnd) :
    w.countHost n = if (w.counted n).host.rateShown then (w.counted n).judgeRate else w.counted n := by
  have e := w.countHost_eq n
  rw [State.rateMove_same h] at e
  exact e

omit hl in
theorem State.countHost_present {w : State} (n : Nat) (h : w.rateSpan ≤ w.host.rateEnd) :
    (w.countHost n).host.transactions = w.host.transactions + 1 ∧ (w.countHost n).host.rateEnd = w.host.rateEnd := by
  rw [State.countHost_same n h]
  split
  · rw [(State.judgeRate_counts _).1, (State.judgeRate_counts _).2]
    exact State.counted_counts ..
  · exact State.counted_counts ..

omit hl in
theorem State.counted_begun {v : State} {h : HostBlock} {n : Nat} {x : Vector Nat 16} (e : v.host = h.begun n x) (k : Nat) :
    (v.counted k).host.transactions = 1 ∧ (v.counted k).host.rateEnd = n ∧ (v.counted k).host.rateShown = false ∧ (v.counted k).assume = v.assume :=
        by
  unfold State.counted State.setHost
  dsimp only
  rw [e]
  exact ⟨rfl, rfl, rfl, rfl⟩

omit hl in
theorem State.countHost_next {w : State} (n : Nat) (h : w.host.rateEnd < w.rateSpan) :
    (w.countHost n).host.transactions = 1 ∧ (w.countHost n).host.rateEnd = w.rateSpan ∧ (w.countHost n).assume.hostRate = (w.host.over &&
        !w.rateGone) := by
  obtain ⟨host, rate, _⟩ := State.rateMove_next h
  obtain ⟨transactions, ends, shown, assume⟩ := State.counted_begun host n
  rw [State.countHost_eq, shown, if_neg Bool.false_ne_true]
  exact ⟨transactions, ends, (congrArg Assume.hostRate assume).trans rate⟩

theorem udpDatagram_rate {d : Datagram} (ha : acceptable d = true) (hs : allowed s d.srcIp = true) :
    ((s.arrive t).rateSpan ≤ s.host.rateEnd → Completes (.udpDatagram t d) s fun u =>
      u.host.transactions = s.host.transactions + 1 ∧ u.host.rateEnd = s.host.rateEnd) ∧
    (s.host.rateEnd < (s.arrive t).rateSpan → Completes (.udpDatagram t d) s fun u =>
      u.host.transactions = 1 ∧ u.host.rateEnd = (s.arrive t).rateSpan ∧ u.assume.hostRate = ((s.arrive t).host.over && !(s.arrive t).rateGone)) := by
  have next := udpDatagram_next hl ha hs (t := t)
  rw [State.takeRequest_eq] at next
  obtain ⟨transactions, ends, assume⟩ := State.judgeRequest_counts ((s.arrive t).countArrival d.payload) ⟨false, d.srcIp, d.srcPort⟩ d.payload
  refine ⟨fun h => Completes.of next ?_, fun h => Completes.of next ?_⟩
  · rw [transactions, ends]
    exact State.countHost_present (w := s.arrive t) _ h
  · rw [transactions, ends, assume]
    exact State.countHost_next (w := s.arrive t) _ h

omit hl in
theorem over_within (w : State) : (w.host.over && !w.rateGone) =
    decide (w.rateSpan ≤ w.host.rateEnd + 1000000000 ∧ (4000 < w.host.transactions ∨ 250000 < w.host.wordCount)) := by
  unfold HostBlock.over State.rateGone
  rw [Bool.and_comm, ← decide_not, Bool.decide_and]
  simp only [Nat.not_lt]

omit hl in
theorem roundUpTo_multiple {n : Nat} (h : n % 1000000000 = 0) : roundUpTo 1000000000 n = n := by
  unfold roundUpTo ceilDiv
  omega

theorem hostRateInterval_next : exec (.hostRateInterval t) s = .next (if t % 1000000000 ≠ 0 then s.arrive t else
    if (s.arrive t).rateMove.host.rateEnd = (s.arrive t).mt then (s.arrive t).rateMove.judgeRate.setHost fun h => { h with rateShown := true }
    else (s.arrive t).rateMove) := by
  rw [show exec (.hostRateInterval t) s = .next (doHostRateInterval t s) from rfl]
  unfold doHostRateInterval
  rw [whenLive_live hl]

theorem hostRateInterval_none (h : t % 1000000000 ≠ 0) : exec (.hostRateInterval t) s = .next (s.arrive t) := by
  rw [hostRateInterval_next hl, if_pos h]

section
variable (ht : t % 1000000000 = 0) (hm : s.mt ≤ t)
include ht hm

theorem hostRateInterval_ends (h : s.host.rateEnd = t) : Completes (.hostRateInterval t) s fun u =>
    u.assume.hostRate = decide (4000 < s.host.transactions ∨ 250000 < s.host.wordCount) ∧ u.host =
        { s.host with rateShown := true, sum := u.host.sum } := by
  have now : (s.arrive t).mt = t := Nat.max_eq_right hm
  have same : (s.arrive t).rateMove = s.arrive t := State.rateMove_same (by
    unfold State.rateSpan
    rw [now, roundUpTo_multiple ht]
    exact Nat.le_of_eq h.symm)
  refine Completes.of (hostRateInterval_next hl) ?_
  rw [if_neg fun n => n ht, same, if_pos (show (s.arrive t).host.rateEnd = (s.arrive t).mt from h.trans now.symm)]
  obtain ⟨host, rate, _⟩ := (s.arrive t).judgeRate_parts
  obtain ⟨w, hw⟩ : ∃ w, (s.arrive t).judgeRate = w := ⟨_, rfl⟩
  rw [hw] at host rate ⊢
  refine ⟨rate, ?_⟩
  show ({ w.host with rateShown := true } : HostBlock) = { s.host with rateShown := true, sum := w.host.sum }
  rw [host]
  rfl

theorem hostRateInterval_begins (h : s.host.rateEnd < t) : Completes (.hostRateInterval t) s fun u =>
    u.assume.hostRate = false ∧ u.host.transactions = 0 ∧ u.host.wordCount = 0 ∧ u.host.rateEnd = t := by
  have now : (s.arrive t).mt = t := Nat.max_eq_right hm
  have span : (s.arrive t).rateSpan = t := by
    unfold State.rateSpan
    rw [now, roundUpTo_multiple ht]
  obtain ⟨moved, _, _⟩ := State.rateMove_next (s := s.arrive t) (by rw [span]; exact h)
  rw [span] at moved
  obtain ⟨w, hw⟩ : ∃ w, (s.arrive t).rateMove = w := ⟨_, rfl⟩
  rw [hw] at moved
  obtain ⟨transactions, words, ends⟩ : w.host.transactions = 0 ∧ w.host.wordCount = 0 ∧ w.host.rateEnd = t := by
    rw [moved]
    exact ⟨rfl, rfl, rfl⟩
  refine Completes.of (hostRateInterval_next hl) ?_
  rw [if_neg fun n => n ht, hw, if_pos (ends.trans now.symm)]
  obtain ⟨host, rate, _⟩ := w.judgeRate_parts
  obtain ⟨x, hx⟩ : ∃ x, w.judgeRate = x := ⟨_, rfl⟩
  rw [hx] at host rate ⊢
  refine ⟨rate.trans ?_, ?_⟩
  · unfold HostBlock.over
    rw [transactions, words]
    rfl
  · show x.host.transactions = 0 ∧ x.host.wordCount = 0 ∧ x.host.rateEnd = t
    rw [host]
    exact ⟨transactions, words, ends⟩

end

end

/-- Settles O51. -/
theorem transactions : Obligations.Transactions := by
  unfold Obligations.Transactions
  intro s t m tag addr hl
  refine ⟨fun v => ⟨fun h => ?_, fun ha h hb => ?_, fun ha h hb hw => ?_, fun ha h hb hw => ?_, fun hm hp hs => ?_, fun ha h hb => ?_⟩, fun hu hp ha
      => ⟨fun h hb => ?_,
    fun hm hv hs => ?_, fun hs h => ?_⟩, fun hs v => ⟨fun h => ?_, fun h => ?_, fun h => ?_, fun h => ?_, fun h h0 h1 => ?_, fun h h4 => ?_⟩,
    fun hu hp => ⟨fun count ha h1 h2 => ?_, fun count h => ?_, fun v vs ha hn => ⟨fun h => ?_, fun h hr hv => ?_⟩, fun x hx => ?_, fun data h => ?_,
        fun data h => ?_⟩,
    fun r rest hq ho htag ha hp ht => ⟨fun hk => ?_, fun k hk hu => ?_⟩, fun r rest data hq ho htag ha hc hp hu ht hk => ?_, fun r rest hq ho htag ha
        hp ht => ?_,
    fun r q rest hq ho hs => ?_, fun v => ?_, fun d ha hs => ?_, fun ht hm => ⟨fun h => ?_, fun h => ?_⟩, fun h => ?_⟩
  · exact registerWrite_held hl (State.writeWord_unmapped h) rfl
  · exact registerWrite_held hl (State.writeWord_private (privateAddr_true (by omega) hb) ha fun e => worldOf_ne_secure (e.trans (addrWorld_secure h
      hb))) rfl
  · exact registerWrite_held hl (State.writeWord_private (privateAddr_true h (by omega)) ha fun e => hw (e.trans (addrWorld_metrology h hb))) rfl
  · exact registerWrite_ok hl (State.writeWord_core (privateAddr_true h (by omega)) ha (hw.trans (addrWorld_metrology h hb).symm))
  · exact registerWrite_held hl (State.writeWord_foreign hm hp hs) rfl
  · exact registerWrite_held hl (State.writeWord_readOnly ha h hb) rfl
  · exact readList_held hl hu hp ha (State.readWord_unmapped (mapPeek_beyond (Or.inr h)) (privateAddr_false (Or.inl hb))) rfl
  · exact readList_held hl hu hp ha (State.readWord_foreign hm hv hs) rfl
  · refine readList_zero hl hu hp ha ?_
    simp only [List.mem_cons, List.not_mem_nil, or_false] at h
    rcases h with rfl | rfl | rfl | rfl | rfl | rfl <;> exact State.readWord_mapped rfl hs rfl
  · simp only [List.mem_cons, List.not_mem_nil, or_false] at h
    rcases h with rfl | rfl | rfl | rfl | rfl | rfl | rfl | rfl <;> exact registerWrite_readOnly hl hs rfl rfl rfl rfl rfl
  · subst h
    exact ⟨fun good room => registerWrite_threshold hl hs rfl rfl good room.1 room.2, registerWrite_threshold_full hl hs,
        registerWrite_threshold_range hl hs⟩
  · subst h
    obtain ⟨u, next, answer, assume⟩ := registerWrite_assume hl hs (t := t) (v := v)
    refine ⟨u, next, answer, ?_⟩
    rw [assume]
    exact ⟨rfl, rfl, rfl, rfl, rfl, rfl, rfl, rfl⟩
  · subst h
    refine ⟨fun hu ho room => registerWrite_netIp hl hs hu ho room.1 room.2, fun h => ?_, fun h => ?_⟩
    · exact registerWrite_netIp_held hl hs (sysGuard_sealed h) rfl
    · exact registerWrite_netIp_held hl hs (sysGuard_locked h) rfl
  · simp only [List.mem_cons, List.not_mem_nil, or_false] at h
    rcases h with rfl | rfl
    · exact registerWrite_lockCtrl_several hl hs (mod_four_of_bits h0 h1)
    · exact registerWrite_capCtrl_several hl hs (mod_four_of_bits h0 h1)
  · subst h
    exact registerWrite_capArm hl hs h4
  · exact read_answers hl hu hp ha h1 h2
  · exact read_malformed hl hu hp h
  · exact write_refused hl hu hp ha hn h
  · exact write_ok hl hu hp ha h hr
  · exact readList_answers hl hu hp hx
  · exact echo_answers hl hu hp h
  · exact echo_malformed hl hu hp h
  · subst htag ha
    exact read_executed hl hq ht ho hp hk
  · subst htag ha
    exact read_again hl hq ht ho hp hk hu
  · subst htag hp
    exact echo_executed hl hq ht ho ha hc hu hk
  · subst htag ha
    exact read_waits hl hq ht ho hp
  · exact inTurn_udp ho hs
  · exact Completes.of (registerWrite_next hl v) rfl
  · obtain ⟨present, next⟩ := udpDatagram_rate hl ha hs (t := t)
    rw [over_within] at next
    exact ⟨present, next⟩
  · exact hostRateInterval_ends hl ht hm h
  · exact hostRateInterval_begins hl ht hm h
  · exact hostRateInterval_none hl h

end Sys2Proof.Machine
end

section
/-! PROOFS. Clocks and PLLs lost and found again, the supplies and the junction temperature (R408, R411, R412, R421, R494, R512). -/
namespace Sys2Proof.Machine

/-! ## Outputs that stay off while safe stops begin -/

/-- The outputs of an SO pair are off. -/
def SafetyBlock.offAt (f : SafetyBlock) (k : Fin 16) : Prop := f.so[k].hs = false ∧ f.so[k].ls = false

theorem SafetyBlock.offAt_same {f g : SafetyBlock} {k : Fin 16} (e : g.so = f.so) (h : f.offAt k) : g.offAt k := by
  unfold SafetyBlock.offAt
  rw [e]
  exact h

theorem capFreeze_so (w : State) (a c : Nat) : (w.capFreeze a c).saf.so = w.saf.so := by
  unfold State.capFreeze
  split <;> rfl

theorem ssTake_so (w : State) (b : Fin 12) (t : Nat) : (w.ssTake b t).saf.so = w.saf.so := by
  unfold State.ssTake
  dsimp only
  split
  · rfl
  · split
    · exact foldl_keeps (fun v : State => v.saf.so = w.saf.so) (fun n v hv => (congrArg SafetyBlock.so (fastPath_saf ..)).trans hv) _ rfl
    · rfl

theorem ssLate_so (w : State) (b : Fin 12) : (w.ssLate b).saf.so = w.saf.so := by
  unfold State.ssLate
  split
  · exact ssTake_so ..
  · rfl

theorem ssDone_so (w : State) (b : Fin 12) : (w.ssDone b).saf.so = w.saf.so := by
  unfold State.ssDone
  exact (congrArg SafetyBlock.so (State.log_saf ..)).trans rfl

theorem outletOff_keepsOff (s : State) (b : Fin 12) (k : Fin 16) (h : s.saf.offAt k) : (s.outletOff b).saf.offAt k := by
  unfold State.outletOff
  refine foldl_keeps (fun w : State => w.saf.offAt k) (fun x w hw => ?_) _ h
  exact soOff_keepsOff w k x.1 hw

theorem requestSafeStop_keepsOff (s : State) (b : Fin 12) (k : Fin 16) (h : s.saf.offAt k) : (s.requestSafeStop b).saf.offAt k := by
  unfold State.requestSafeStop
  split
  · split
    · exact SafetyBlock.offAt_same ((ssLate_so ..).trans ((capFreeze_so ..).trans (congrArg SafetyBlock.so (State.bump_saf ..)))) h
    · refine SafetyBlock.offAt_same (ssDone_so ..) (outletOff_keepsOff _ b k ?_)
      exact h
  · exact h

theorem vin24_keepsOff (z : State) (k : Fin 16) (h : z.saf.offAt k) : (z.forAll 12 vinF).saf.offAt k := by
  refine State.forAll_keeps (fun w => w.saf.offAt k) (fun b w hw => ?_) h
  unfold vinF
  split
  · exact requestSafeStop_keepsOff w b k hw
  · exact hw

theorem requestSafeStop_aux (w : State) (b : Fin 12) : (w.requestSafeStop b).aux = w.aux := (State.requestSafeStop_only rfl rfl rfl (fun _ => rfl)
    rfl rfl rfl (cs := allSave .aux) (OnlyIn.refl _ _)) .aux rfl

theorem vin24_aux (z : State) : (z.forAll 12 vinF).aux = z.aux := by
  refine State.forAll_keeps (fun w => w.aux = z.aux) (fun b w hw => ?_) rfl
  unfold vinF
  split
  · exact (requestSafeStop_aux w b).trans hw
  · exact hw

theorem allOff_off (z : State) (k : Fin 16) : z.allOff.saf.offAt k := by
  unfold State.allOff
  refine State.forAll_at (f := fun k s => s.soOff k) k (Q := fun _ => True) (R := fun w => w.saf.offAt k) (fun _ _ _ _ => trivial) (fun w _ => ?_)
      (fun j w _ hw => ?_)
    z trivial
  · exact soOff_so w k
  · exact soOff_keepsOff w k j hw

theorem allOff_stops (z : State) : z.allOff.saf.stops = z.saf.stops := by
  unfold State.allOff
  refine State.forAll_keeps (f := fun k s => s.soOff k) (fun w => w.saf.stops = z.saf.stops) (fun j w hw => ?_) rfl
  exact (soOff_stops w j).1.trans hw

theorem allOff_bays (z : State) : z.allOff.bays = z.bays := by
  unfold State.allOff
  refine State.forAll_keeps (f := fun k s => s.soOff k) (fun w => w.bays = z.bays) (fun j w hw => ?_) rfl
  unfold State.soOff
  exact (State.bumpIf_bays ..).trans hw

theorem measureV24_zero (z : State) : z.measureV24 0 = (z.auxRestart 0).allOff := by
  unfold State.measureV24
  exact if_pos rfl

theorem measureV24_aux (z : State) : (z.measureV24 0).aux.gone = true ∧ (z.measureV24 0).aux.v24 = 0 ∧ ∀ n : Fin 24, (z.measureV24 0).aux.ch[n].duty
    = 0 := by
  have aux : (z.auxRestart 0).allOff.aux = (z.auxRestart 0).aux := (State.allOff_only rfl rfl (cs := allSave .aux) (OnlyIn.refl _ _)) .aux rfl
  rw [measureV24_zero, aux]
  exact ⟨rfl, rfl, fun n => congrArg AuxCh.duty (vmap_get ..)⟩

theorem measureV24_off (z : State) (k : Fin 16) : (z.measureV24 0).saf.offAt k := by
  rw [measureV24_zero]
  exact allOff_off _ k

theorem measureV24_kept (z : State) : (z.measureV24 0).pwr = z.pwr ∧ (z.measureV24 0).bays = z.bays ∧ (z.measureV24 0).saf.stops = z.saf.stops := by
  have pwr : (z.auxRestart 0).allOff.pwr = (z.auxRestart 0).pwr := (State.allOff_only rfl rfl (cs := allSave .pwr) (OnlyIn.refl _ _)) .pwr rfl
  rw [measureV24_zero]
  exact ⟨pwr, allOff_bays _, allOff_stops _⟩

/-! ## Clocks (R408, R411, R412) -/

section
variable {s : State} {t : Nat} (hl : s.live = true)
include hl

omit hl in
theorem State.elapse_clk (s : State) (t : Nat) : (s.elapse t).clk = s.clk ∧ (s.elapse t).rtc = s.rtc ∧ (s.elapse t).pwr = s.pwr := by
  unfold State.elapse
  split <;> exact ⟨rfl, rfl, rfl⟩

theorem State.live_powered : s.pwr.st ≠ .vbatOnly := by
  intro e
  unfold State.live at hl
  rw [e] at hl
  nomatch hl

omit hl in
theorem mem_vupd {n : Nat} {α : Type} (v : Vector α n) (i : Fin n) (x : α) : x ∈ (vupd v i fun _ => x).toList := by
  have here : (vupd v i fun _ => x)[i] = x := vupd_here ..
  have h : (vupd v i fun _ => x)[i] ∈ vupd v i fun _ => x := Vector.getElem_mem _
  rw [here] at h
  exact Vector.mem_toList_iff.2 h

theorem x32Loss_lost (hx : s.clk.x32Ok = true) (hv : s.clk.vbatOff = false) : Completes (.x32Loss t) s fun u =>
    u.clk = { s.clk with x32Ok := false, x32Loss := satInc 8 s.clk.x32Loss, raw := (s.elapse t).rawNow, rawFrom := (s.elapse t).mt,
                         mtSrc := if s.clk.mtSrc = 2 then 3 else s.clk.mtSrc, mtGap := s.clk.mtGap || s.clk.mtSrc == 2 } ∧
    u.assume.clock = true ∧ u.rtc = s.rtc := by
  refine Completes.of (show exec (.x32Loss t) s = .next (doX32Loss t s) from rfl) ?_
  obtain ⟨clk, rtc, pwr⟩ := s.elapse_clk t
  unfold doX32Loss
  generalize s.elapse t = e at clk rtc pwr ⊢
  dsimp only
  rw [if_neg (by rw [clk, hx, hv]; decide), if_neg (by rw [pwr]; exact State.live_powered hl)]
  obtain ⟨clock, -, kept, -, cal, -⟩ := refresh_flags ((e.noteRaw.setClk fun c => { c.x32Lost with x32Loss := satInc 8 c.x32Loss }).bump 1)
  rw [clock, kept, cal, State.bump_clk, State.bump_rtc]
  refine ⟨?_, ?_, rtc⟩
  · unfold State.noteRaw State.setClk Clk.x32Lost
    dsimp only
    rw [clk]
    simp only [beq_iff_eq]
  · exact (Bool.or_assoc ..).trans (Bool.or_eq_true_iff.2 (Or.inr rfl))

theorem x32Restored_back (hx : s.clk.x32Ok = false) (hv : s.clk.vbatOff = false) : Completes (.x32Restored t) s fun u =>
    u.clk = { s.clk with x32Ok := true, rawFrom := (s.elapse t).mt, mtSrc := if s.clk.mtSrc = 3 then 2 else s.clk.mtSrc } := by
  refine Completes.of (show exec (.x32Restored t) s = .next (doX32Restored t s) from rfl) ?_
  obtain ⟨clk, -, pwr⟩ := s.elapse_clk t
  unfold doX32Restored
  generalize s.elapse t = e at clk pwr ⊢
  dsimp only
  rw [if_neg (by rw [clk, hx, hv]; decide), if_neg (by rw [pwr]; exact State.live_powered hl)]
  obtain ⟨-, -, kept, -⟩ := refresh_flags ((e.setClk fun c => c.x32Back e.mt).bump 1)
  rw [kept, State.bump_clk]
  show e.clk.x32Back e.mt = _
  rw [clk]
  rfl

omit hl in
theorem x32Loss_none (h : s.clk.x32Ok = false ∨ s.clk.vbatOff = true) : exec (.x32Loss t) s = .next (s.elapse t) := by
  rw [show exec (.x32Loss t) s = .next (doX32Loss t s) from rfl]
  unfold doX32Loss
  dsimp only
  rw [if_pos]
  rw [(s.elapse_clk t).1]
  rcases h with h | h <;> simp [h]

omit hl in
theorem x32Restored_none (h : s.clk.x32Ok = true ∨ s.clk.vbatOff = true) : exec (.x32Restored t) s = .next (s.elapse t) := by
  rw [show exec (.x32Restored t) s = .next (doX32Restored t s) from rfl]
  unfold doX32Restored
  dsimp only
  rw [if_pos]
  rw [(s.elapse_clk t).1]
  rcases h with h | h <;> simp [h]

theorem pllLockLoss_loses {p : Pll} (h : s.clk.lock[pllBit p] = true) : Completes (.pllLockLoss t p) s fun u =>
    u.clk = { s.clk with lock := vupd s.clk.lock (pllBit p) fun _ => false, unlock := satInc 8 s.clk.unlock, mtSrc := if p = .l then 1 else
        s.clk.mtSrc } ∧
    u.assume.clock = true := by
  refine Completes.live hl rfl ?_
  rw [if_pos (by exact h)]
  obtain ⟨clock, -, kept, -⟩ := refresh_flags (((s.arrive t).setClk fun c =>
    { c with lock := vupd c.lock (pllBit p) fun _ => false, unlock := satInc 8 c.unlock, mtSrc := if p = .l then 1 else c.mtSrc }).bump 1)
  rw [clock, kept, State.bump_clk]
  refine ⟨rfl, Bool.or_eq_true_iff.2 (Or.inr (List.any_eq_true.2 ⟨false, ?_, rfl⟩))⟩
  exact mem_vupd ..

theorem pllRelock_locks {p : Pll} (h : s.clk.lock[pllBit p] = false) : Completes (.pllRelock t p) s fun u =>
    u.clk = { s.clk with lock := vupd s.clk.lock (pllBit p) fun _ => true, mtSrc := if p = .l then 0 else s.clk.mtSrc } := by
  refine Completes.live hl rfl ?_
  rw [if_neg (by rw [State.arrive_clk, h]; decide)]
  exact (refresh_flags _).2.2.1.trans (State.bump_clk ..)

theorem pllRelock_none {p : Pll} (h : s.clk.lock[pllBit p] = true) : exec (.pllRelock t p) s = .next (s.arrive t) := by
  rw [show exec (.pllRelock t p) s = .next (doPllRelock t p s) from rfl]
  unfold doPllRelock
  rw [whenLive_live hl, if_pos (by exact h)]

theorem pllLockLoss_none {p : Pll} (h : s.clk.lock[pllBit p] = false) : exec (.pllLockLoss t p) s = .next (s.arrive t) := by
  rw [show exec (.pllLockLoss t p) s = .next (doPllLockLoss t p s) from rfl]
  unfold doPllLockLoss
  rw [whenLive_live hl, if_neg (by rw [State.arrive_clk, h]; decide)]

/-! ## Supplies (R421, R494) -/

theorem powerFailWarning_warns {cv : Nat} (hc : cv < 1030) (hp : s.pwr.pfw = false) : Completes (.powerFailWarning t cv) s fun u =>
    u.pwr = { s.pwr with pfw := true, vin12 := cv } ∧ u.met.tallying = false ∧
    u.clk.copies = { m := (s.arrive t).mt, raw := (s.arrive t).rawNow } :: s.clk.copies.take 1 ∧ u.assume.supply = true := by
  refine Completes.live hl rfl ?_
  rw [if_pos ⟨hc, by rw [State.arrive_pwr, hp]; rfl⟩]
  obtain ⟨z, hz, pwr, clk, mt⟩ : ∃ z, ((s.arrive t).setPwr fun p => { p with pfw := true, vin12 := cv }).bump 1 = z ∧
      z.pwr = { s.pwr with pfw := true, vin12 := cv } ∧ z.clk = s.clk ∧ z.mt = (s.arrive t).mt := ⟨_, rfl, rfl, rfl, rfl⟩
  rw [hz]
  obtain ⟨tallying, stopPwr, stopClk, stopMt⟩ := metStop_parts z
  obtain ⟨-, supply, keptClk, keptPwr, -, keptMet, -⟩ := refresh_flags z.metStop.saveTime.drainLedger
  obtain ⟨drained, met, clks⟩ : z.metStop.saveTime.drainLedger.pwr = z.metStop.pwr ∧ z.metStop.saveTime.drainLedger.met = z.metStop.met ∧
      z.metStop.saveTime.drainLedger.clk = z.metStop.saveTime.clk :=
    ⟨(State.drainLedger_only rfl rfl rfl (cs := allSave .pwr) (OnlyIn.refl _ _)) .pwr rfl, (State.drainLedger_only rfl rfl rfl (cs := allSave .met)
        (OnlyIn.refl _ _)) .met rfl,
      (State.drainLedger_only rfl rfl rfl (cs := allSave .clk) (OnlyIn.refl _ _)) .clk rfl⟩
  rw [keptPwr, keptMet, keptClk, supply, drained, met, clks, stopPwr, pwr, tallying]
  refine ⟨rfl, rfl, ?_, Bool.or_true _⟩
  unfold State.saveTime State.rawNow
  dsimp only
  rw [stopClk, stopMt, clk, mt]
  rfl

theorem powerFailWarning_none {cv : Nat} (h : 1030 ≤ cv ∨ s.pwr.pfw = true) : exec (.powerFailWarning t cv) s = .next (s.arrive t) := by
  rw [show exec (.powerFailWarning t cv) s = .next (doPowerFailWarning t cv s) from rfl]
  unfold doPowerFailWarning
  rw [whenLive_live hl, if_neg]
  rw [State.arrive_pwr]
  rintro ⟨c, p⟩
  rcases h with h | h
  · omega
  · rw [h] at p
    nomatch p

theorem powerFailClear_clears {cv : Nat} (hc : 1060 < cv) (hp : s.pwr.pfw = true) : Completes (.powerFailClear t cv) s fun u =>
    u.pwr = { s.pwr with pfw := false, vin12 := cv, supplyBad := decide (cv < 1080 ∨ 1320 < cv) } ∧
    u.met = { s.met with resumeAt := some (((s.arrive t).mt / 1000000 + 1) * 1000000), kinds := vmap (fun _ k => { k with gap := true }) s.met.kinds
        } := by
  refine Completes.live hl rfl ?_
  rw [if_pos ⟨hc, by exact hp⟩]
  obtain ⟨z, hz, pwr, met, mt⟩ : ∃ z, ((s.arrive t).setPwr fun p => { p with pfw := false, vin12 := cv, supplyBad := vin12Bad cv }).bump 1 = z ∧
      z.pwr = { s.pwr with pfw := false, vin12 := cv, supplyBad := decide (cv < 1080 ∨ 1320 < cv) } ∧ z.met = s.met ∧ z.mt = (s.arrive t).mt :=
    ⟨_, rfl, rfl, rfl, rfl⟩
  rw [hz]
  obtain ⟨-, -, -, keptPwr, -, keptMet, -⟩ := refresh_flags z.metResume
  rw [keptPwr, keptMet]
  refine ⟨pwr, ?_⟩
  unfold State.metResume State.gapAll
  dsimp only
  rw [met, mt]

theorem powerFailClear_none {cv : Nat} (h : cv ≤ 1060 ∨ s.pwr.pfw = false) : exec (.powerFailClear t cv) s = .next (s.arrive t) := by
  rw [show exec (.powerFailClear t cv) s = .next (doPowerFailClear t cv s) from rfl]
  unfold doPowerFailClear
  rw [whenLive_live hl, if_neg]
  rw [State.arrive_pwr]
  rintro ⟨c, p⟩
  rcases h with h | h
  · omega
  · rw [h] at p
    nomatch p

theorem supplyOutOfRange_measured (cv : Nat) : Completes (.supplyOutOfRange t cv) s fun u =>
    u.pwr = { s.pwr with vin12 := cv, supplyBad := decide (cv < 1080 ∨ 1320 < cv) } ∧
    (cv < 1080 ∨ 1320 < cv → s.pair.role = .active → u.pair.lastCause = 9) ∧ (1080 ≤ cv → cv ≤ 1320 → u.pair = s.pair) := by
  refine Completes.live hl rfl ?_
  dsimp only
  obtain ⟨-, -, -, pwr, -, -, pair, -⟩ := refresh_flags ((s.arrive t).setPwr fun p => { p with vin12 := cv, supplyBad := vin12Bad cv })
  generalize ((s.arrive t).setPwr fun p => { p with vin12 := cv, supplyBad := vin12Bad cv }).refreshAssume = z at pwr pair
  by_cases bad : cv < 1080 ∨ 1320 < cv
  · rw [if_pos (show vin12Bad cv = true from decide_eq_true bad)]
    refine ⟨(releaseIfFit_pwr z 9).trans pwr, fun _ ha => releaseIfFit_cause z 9 (by rw [pair]; exact ha), fun h1 h2 => ?_⟩
    omega
  · rw [if_neg (by unfold vin12Bad; rw [decide_eq_false bad]; decide)]
    exact ⟨pwr, fun h => absurd h bad, fun _ _ => pair⟩

/-- What a module does as VIN24 falls below its limit, once the value is measured. -/
def State.vin24Falls (s : State) : State := (((s.setPwr fun p => { p with vin24Low := true }).bump 1).refreshAssume).forAll 12 vinF

omit hl in
theorem State.vin24Falls_parts (z : State) : z.vin24Falls.pwr = { z.pwr with vin24Low := true } ∧ z.vin24Falls.aux = z.aux ∧
    (∀ k, z.saf.offAt k → z.vin24Falls.saf.offAt k) ∧
    ∀ b : Fin 12, z.bays[b].energised = true → z.saf.stops[b].st = .none → z.vin24Falls.saf.stops[b].st = .ramp ∧ z.vin24Falls.saf.stops[b].trigger =
        1 := by
  obtain ⟨-, -, -, keptPwr, -, -, -, saf, bays⟩ := refresh_flags ((z.setPwr fun p => { p with vin24Low := true }).bump 1)
  have aux : (((z.setPwr fun p => { p with vin24Low := true }).bump 1).refreshAssume).aux = z.aux :=
    Eq.trans ((State.refreshAssume_only rfl rfl (cs := allSave .aux) (OnlyIn.refl _ _)) .aux rfl) rfl
  unfold State.vin24Falls
  obtain ⟨y, hy⟩ : ∃ y, ((z.setPwr fun p => { p with vin24Low := true }).bump 1).refreshAssume = y := ⟨_, rfl⟩
  rw [hy] at keptPwr saf bays aux ⊢
  obtain ⟨pwr, stops⟩ := vin24_walk y
  refine ⟨pwr.trans keptPwr, (vin24_aux y).trans aux, fun k h => vin24_keepsOff y k ?_, fun b e n => stops b ?_ ?_⟩
  · rw [saf]
    exact h
  · rw [bays]
    exact e
  · rw [saf]
    exact n

theorem vin24Low_next (cv : Nat) : exec (.vin24Low t cv) s = .next (let q := if cv = 0 then (s.arrive t).measureV24 0 else s.arrive t
    if cv < 1800 ∧ !q.pwr.vin24Low then q.vin24Falls else q) := by
  rw [show exec (.vin24Low t cv) s = .next (doVin24Low t cv s) from rfl]
  unfold doVin24Low
  rw [whenLive_live hl]
  rfl

theorem vin24Low_falls {cv : Nat} (hc : cv < 1800) (hp : s.pwr.vin24Low = false) : Completes (.vin24Low t cv) s fun u => u.pwr =
    { s.pwr with vin24Low := true } ∧
    ∀ b : Fin 12, s.bays[b].energised = true → s.saf.stops[b].st = .none → u.saf.stops[b].st = .ramp ∧ u.saf.stops[b].trigger = 1 := by
  refine Completes.of (vin24Low_next hl cv) ?_
  have kept : (if cv = 0 then (s.arrive t).measureV24 0 else s.arrive t).pwr = s.pwr ∧ (if cv = 0 then (s.arrive t).measureV24 0 else s.arrive
      t).bays = s.bays ∧
      (if cv = 0 then (s.arrive t).measureV24 0 else s.arrive t).saf.stops = s.saf.stops := by
    split
    · exact measureV24_kept _
    · exact ⟨rfl, rfl, rfl⟩
  dsimp only
  generalize (if cv = 0 then (s.arrive t).measureV24 0 else s.arrive t) = q at kept ⊢
  obtain ⟨pwr, bays, stops⟩ := kept
  rw [if_pos ⟨hc, by rw [pwr, hp]; rfl⟩]
  obtain ⟨low, -, -, begun⟩ := q.vin24Falls_parts
  rw [pwr] at low
  rw [bays, stops] at begun
  exact ⟨low, begun⟩

theorem vin24Low_none {cv : Nat} (h : 1800 ≤ cv ∨ (0 < cv ∧ s.pwr.vin24Low = true)) : exec (.vin24Low t cv) s = .next (s.arrive t) := by
  have present : cv ≠ 0 := by
    rcases h with h | ⟨h, _⟩ <;> omega
  rw [vin24Low_next hl cv]
  dsimp only
  rw [if_neg present, if_neg]
  rw [State.arrive_pwr]
  rintro ⟨c, p⟩
  rcases h with h | ⟨_, h⟩
  · omega
  · rw [h] at p
    nomatch p

theorem vin24Low_gone : Completes (.vin24Low t 0) s fun u =>
    u.aux.gone = true ∧ u.aux.v24 = 0 ∧ (∀ n : Fin 24, u.aux.ch[n].duty = 0) ∧ ∀ k : Fin 16, u.saf.so[k].hs = false ∧ u.saf.so[k].ls = false := by
  refine Completes.of (vin24Low_next hl 0) ?_
  dsimp only
  rw [if_pos rfl]
  obtain ⟨q, hq, off, gone, v24, duty⟩ : ∃ q, (s.arrive t).measureV24 0 = q ∧ (∀ k, q.saf.offAt k) ∧ q.aux.gone = true ∧ q.aux.v24 = 0 ∧
      ∀ n : Fin 24, q.aux.ch[n].duty = 0 :=
    ⟨(s.arrive t).measureV24 0, rfl, measureV24_off _, measureV24_aux _⟩
  rw [hq]
  by_cases low : 0 < 1800 ∧ (!q.pwr.vin24Low) = true
  · obtain ⟨-, same, still, -⟩ := q.vin24Falls_parts
    rw [if_pos low, same]
    exact ⟨gone, v24, duty, fun k => still k (off k)⟩
  · rw [if_neg low]
    exact ⟨gone, v24, duty, off⟩

theorem vbatLow_measured (cv : Nat) : Completes (.vbatLow t cv) s fun u => u.pwr = { s.pwr with vbat := cv, vbatLow := decide (cv < 2200) } := by
  refine Completes.of (show exec (.vbatLow t cv) s = .next (doVbatLow t cv s) from rfl) ?_
  unfold doVbatLow
  rw [if_neg (State.live_powered hl), whenLive_live hl]
  dsimp only
  split
  · exact (State.log_pwr ..).trans (State.bumpIf_pwr ..)
  · exact State.bumpIf_pwr ..

theorem junctionTempCheck_next (tenths : Int) : exec (.junctionTempCheck t tenths) s = .next (junctionBody (s.arrive t) t tenths) := by
  rw [show exec (.junctionTempCheck t tenths) s = .next (doJunctionTempCheck t tenths s) from rfl]
  unfold doJunctionTempCheck
  rw [whenLive_live hl]
  rfl

end

/-- Settles O54. -/
theorem clockAndSupplyEvents : Obligations.ClockAndSupplyEvents := by
  unfold Obligations.ClockAndSupplyEvents
  intro s t cv p tenths hl
  refine ⟨fun hx hv => x32Loss_lost hl hx hv, fun h => x32Loss_none h, fun hx hv => x32Restored_back hl hx hv, fun h => x32Restored_none h,
    fun h => ⟨pllLockLoss_loses hl h, pllRelock_none hl h⟩, fun h => ⟨pllRelock_locks hl h, pllLockLoss_none hl h⟩, fun hc hp =>
        powerFailWarning_warns hl hc hp,
    fun h => powerFailWarning_none hl h, fun hc hp => powerFailClear_clears hl hc hp, fun h => powerFailClear_none hl h, supplyOutOfRange_measured hl
        cv,
    fun hc hp => vin24Low_falls hl hc hp, fun h => vin24Low_none hl h, fun h => ?_, vbatLow_measured hl cv, ?_⟩
  · subst h
    exact vin24Low_gone hl
  · refine Completes.of (junctionTempCheck_next hl tenths) ?_
    exact junction_facts (s.arrive t) t tenths

end Sys2Proof.Machine
end

section
/-! PROOFS. The entry to DORMANT, its commit point and the wake (R417, R418, R420, R430). -/
namespace Sys2Proof.Machine

/-! ## The entry (R417, R418) -/

section
variable {s : State} {t : Nat} {m : Master}

/-- Entering DORMANT, before the site bus goes to sleep. -/
def State.enteringDormant (s : State) : State :=
  (s.setPwr fun p => { p with entering := true, enteredAt := s.mt, released := none, dormErr := 0 }).bump 1

theorem State.enteringDormant_parts (s : State) : s.enteringDormant.pwr =
    { s.pwr with entering := true, enteredAt := s.mt, released := none, dormErr := 0 } ∧
    s.enteringDormant.busMaster = s.busMaster ∧ s.enteringDormant.sbus = s.sbus := ⟨rfl, rfl, rfl⟩

/-- The way the bus goes to sleep. -/
def State.sleepBus (s : State) : State :=
  if s.sbus.bus == .asleep then s
  else if !s.busMaster then s.busState .asleep
  else if s.sbus.bus == .announcing then s.setBus fun b => { b with sleep := true }
  else (s.setBus fun b => { b with sleep := true }).startSleep

theorem State.enterDormant_eq (s : State) : s.enterDormant = s.enteringDormant.sleepBus := rfl

theorem State.sleepBus_pwr (z : State) : z.sleepBus.pwr = z.pwr := by
  unfold State.sleepBus
  split
  · rfl
  · split
    · exact (State.busState_only rfl rfl (cs := allSave .pwr) (OnlyIn.refl _ _)) .pwr rfl
    · split
      · rfl
      · have o : (z.setBus fun b => { b with sleep := true }).startSleep.pwr = (z.setBus fun b => { b with sleep := true }).pwr :=
          (State.startSleep_only rfl rfl (cs := allSave .pwr) (OnlyIn.refl _ _)) .pwr rfl
        exact o

theorem State.sleepBus_asleep {z : State} (h : z.busMaster = false) : z.sleepBus.sbus.bus = .asleep := by
  unfold State.sleepBus
  split
  · next e => exact eq_of_beq e
  · rw [h, if_pos (by decide)]
    unfold State.busState
    exact congrArg SiteBus.bus ((State.bumpIf_sbus ..).trans rfl)

section
variable (hl : s.live = true) (hs : s.serves m = true)
include hl hs

theorem dormant_next : exec (.dormant t m) s = .next ((s.arrive t).dormantWrite.1.answered m true 0x00010100 (s.arrive t).dormantWrite.2) := by
  rw [show exec (.dormant t m) s = .next (doDormant t m s) from rfl]
  unfold doDormant
  rw [whenLive_live hl]
  simp only [foreign_none (s := s.arrive t) hs]

theorem dormant_again (he : s.pwr.entering = true) : exec (.dormant t m) s = .next { s.arrive t with host := { s.host with answer := okAnswer } } :=
    by
  have write : (s.arrive t).dormantWrite = (s.arrive t, okAnswer) := if_pos he
  rw [dormant_next hl hs, write]
  rfl

theorem dormant_enters (he : s.pwr.entering = false) (hc : dormantCode (s.arrive t) = 0) : Completes (.dormant t m) s fun u =>
    u.pwr = { s.pwr with entering := true, enteredAt := (s.arrive t).mt, released := none, dormErr := 0 } ∧ u.host.answer = okAnswer ∧
    (s.busMaster = false → u.sbus.bus = .asleep) := by
  have write : (s.arrive t).dormantWrite = ((s.arrive t).enterDormant, okAnswer) := by
    unfold State.dormantWrite
    rw [if_neg (by rw [State.arrive_pwr, he]; decide), if_pos hc]
  obtain ⟨pwr, master, -⟩ := (s.arrive t).enteringDormant_parts
  refine Completes.of (dormant_next hl hs) ?_
  rw [write, State.enterDormant_eq, State.answered_ok]
  generalize (s.arrive t).enteringDormant = z at pwr master ⊢
  exact ⟨(State.sleepBus_pwr z).trans pwr, rfl, fun h => State.sleepBus_asleep (master.trans h)⟩

theorem dormant_refused (he : s.pwr.entering = false) (hc : dormantCode (s.arrive t) ≠ 0) : Completes (.dormant t m) s fun u =>
    u.pwr = { s.pwr with dormErr := dormantCode (s.arrive t) } ∧ u.host.answer = deny .state ∧ u.sbus = s.sbus := by
  have write : (s.arrive t).dormantWrite = (((s.arrive t).setPwr fun p => { p with dormErr := dormantCode (s.arrive t) }).bumpIf
      ((s.arrive t).pwr.dormErr != dormantCode (s.arrive t)) 1, deny .state) := by
    unfold State.dormantWrite
    rw [if_neg (by rw [State.arrive_pwr, he]; decide), if_neg hc]
  refine Completes.of (dormant_next hl hs) ?_
  rw [write, State.answered_harmless _ _ _ _ rfl]
  exact ⟨(State.bumpIf_pwr ..).trans rfl, rfl, State.bumpIf_sbus ..⟩

end

/-! ## The release of the outputs (step 3 of R418) -/

theorem State.setRole_saf (z : State) (r : Role) (c : Nat) : (z.setRole r c).saf = z.saf := (State.setRole_only rfl rfl rfl rfl rfl rfl (cs :=
    allSave .saf) (OnlyIn.refl _ _)) .saf rfl

theorem releaseActive_keepsOff {z : State} {k : Fin 16} (c : Nat) (h : z.saf.offAt k) : (z.releaseActive c).saf.offAt k := by
  unfold State.releaseActive
  split
  · dsimp only
    have cancelled : ∀ y : State, (if y.paired && c != 0x0B then y.cancelPending 0x34 else y).saf = y.saf := fun y => by
      split
      · exact (State.cancelPending_only rfl rfl rfl rfl (cs := allSave .saf) (OnlyIn.refl _ _)) .saf rfl
      · rfl
    have dropped : ∀ y : State, (if y.pair.mode = .full then y else y.dropSite).saf = y.saf := fun y => by
      split
      · rfl
      · exact (State.dropSite_only rfl rfl (fun _ => rfl) (fun _ => rfl) (fun _ => rfl) (fun _ => rfl) (fun _ => rfl) rfl (cs := allSave .saf)
          (OnlyIn.refl _ _)) .saf rfl
    have after : ∀ y : State, (y.afterRelease c).saf = y.saf := fun y => (State.afterRelease_only rfl rfl rfl rfl rfl rfl (cs := allSave .saf)
        (OnlyIn.refl _ _)) .saf rfl
    refine SafetyBlock.offAt_same (congrArg SafetyBlock.so ((after _).trans ((dropped _).trans (cancelled _)))) (allOff_off _ k)
  · exact SafetyBlock.offAt_same (congrArg SafetyBlock.so (State.setRole_saf ..)) h
  · exact h

theorem releaseActive_syncs {z : State} (h : z.pair.role = .active) : (z.releaseActive 0x0C).pair.role = .syncing ∧ (z.releaseActive
    0x0C).pair.activeO = false := by
  unfold State.releaseActive
  rw [h]
  dsimp only
  have after : ∀ y : State, (y.afterRelease 0x0C).pair.role = .syncing ∧ (y.afterRelease 0x0C).pair.activeO = false := fun y => by
    unfold State.afterRelease
    rw [if_neg (by decide), if_neg (by decide)]
    obtain ⟨role, output, -⟩ := y.enterSyncing_role 0x0C
    exact ⟨role, output⟩
  exact after _

theorem releaseActive_claiming {z : State} (h : z.pair.role = .claiming) : (z.releaseActive 0x0C).pair.lastCause = 0x0C ∧
    (z.releaseActive 0x0C).pair.role = .init ∧ (z.releaseActive 0x0C).pair.activeO = false := by
  unfold State.releaseActive
  rw [h]
  dsimp only
  rw [State.setRole_lastCause]
  obtain ⟨role, output⟩ := State.setRole_role (z.setPair fun p =>
      { p with activeO := false, lastCause := if 0x0C = 0x0C then 0x0C else p.lastCause }) .init 0
  exact ⟨rfl, role, output⟩

/-- The outputs the entry switches off before it releases ACTIVE. -/
def State.outputsOff (s : State) : State :=
  let s := s.forAll 64 fun n s => s.linkOff n
  (s.auxFailAll s.mt).allOff

theorem State.dormantRelease_eq (s : State) : s.dormantRelease =
    (((s.outputsOff).releaseActive 0x0C).metStop.saveTime).setPwr fun p =>
        { p with released := some (((s.outputsOff).releaseActive 0x0C).metStop.saveTime).mt } := rfl

theorem State.allFailedOff_parts (z : State) (t : Nat) : (z.auxFailAll t).allOff.pwr = z.pwr ∧ (z.auxFailAll t).allOff.clk = z.clk ∧
    (z.auxFailAll t).allOff.mt = z.mt ∧ (z.auxFailAll t).allOff.pair = z.pair := by
  have o : OnlyIn (fun x => decide (x ∉ [Block.pwr, .clk, .mt, .role, .pair])) z (z.auxFailAll t).allOff := (State.allOff_only rfl rfl
      (State.auxFailAll_only rfl (OnlyIn.refl _ z)))
  exact ⟨o .pwr rfl, o .clk rfl, o .mt rfl, pair_same (o .role rfl) (o .pair rfl)⟩

theorem State.outputsOff_parts (s : State) : s.outputsOff.pwr = s.pwr ∧ s.outputsOff.clk = s.clk ∧ s.outputsOff.mt = s.mt ∧ s.outputsOff.pair =
    s.pair := by
  have links : OnlyIn (fun x => decide (x ∉ [Block.pwr, .clk, .mt, .role, .pair])) s (s.forAll 64 fun n s => s.linkOff n) :=
    State.forAll_keeps (OnlyIn _ s) (fun n z h => State.linkOff_only (by decide) (by simp) h) (OnlyIn.refl _ s)
  unfold State.outputsOff
  obtain ⟨z, hz⟩ : ∃ z, (s.forAll 64 fun n s => s.linkOff n) = z := ⟨_, rfl⟩
  rw [hz] at links ⊢
  obtain ⟨pwr, clk, mt, pair⟩ := z.allFailedOff_parts z.mt
  exact ⟨pwr.trans (links .pwr rfl), clk.trans (links .clk rfl), mt.trans (links .mt rfl), pair.trans (pair_same (links .role rfl) (links .pair rfl))⟩

/-- The end of the grace period of the entry, in one sum. -/
theorem releaseDue (q : Nat) : q + secs 1 + ms 1 = q + 1001000000 := by
  have h1 : secs 1 = 1000000000 := rfl
  have h2 : ms 1 = 1000000 := rfl
  omega

theorem dormantOutputRelease_releases (hl : s.live = true) (he : s.pwr.entering = true) (hr : s.pwr.released = none)
    (hw : (s.sbus.bus = .asleep ∧ max s.sbus.busSince s.pwr.enteredAt + 1000000 ≤ t) ∨ s.pwr.enteredAt + 1001000000 ≤ t) :
    Completes (.dormantOutputRelease t) s fun u =>
      u.pwr = { s.pwr with released := some (s.arrive t).mt } ∧ (∀ k : Fin 16, u.saf.so[k].hs = false ∧ u.saf.so[k].ls = false) ∧ u.met.tallying =
          false ∧
      (s.pair.role = .active → u.pair.lastCause = 0x0C ∧ u.pair.role = .syncing ∧ u.pair.activeO = false) ∧
      (s.pair.role = .claiming → u.pair.lastCause = 0x0C ∧ u.pair.role = .init ∧ u.pair.activeO = false) ∧
      u.clk.copies = { m := (s.arrive t).mt, raw := (s.arrive t).rawNow } :: s.clk.copies.take 1 := by
  refine Completes.live hl rfl ?_
  rw [if_pos]
  · rw [State.dormantRelease_eq]
    obtain ⟨pwr, clk, mt, pair⟩ := (s.arrive t).outputsOff_parts
    have off : ∀ k, (s.arrive t).outputsOff.saf.offAt k := fun k => allOff_off _ k
    generalize (s.arrive t).outputsOff = y at pwr clk mt pair off ⊢
    have released : ∀ k, (y.releaseActive 0x0C).saf.offAt k := fun k => releaseActive_keepsOff 0x0C (off k)
    obtain ⟨rpwr, rclk, rmt⟩ : (y.releaseActive 0x0C).pwr = y.pwr ∧ (y.releaseActive 0x0C).clk = y.clk ∧ (y.releaseActive 0x0C).mt = y.mt :=
      ⟨State.releaseActive_kept .pwr (.inl (by decide)) y 0x0C, State.releaseActive_kept .clk (.inl (by decide)) y 0x0C,
        State.releaseActive_kept .mt (.inl (by decide)) y 0x0C⟩
    have active : s.pair.role = .active → (y.releaseActive 0x0C).pair.lastCause = 0x0C ∧ (y.releaseActive 0x0C).pair.role = .syncing ∧
        (y.releaseActive 0x0C).pair.activeO = false := fun h =>
      have h : y.pair.role = .active := by rw [pair]; exact h
      ⟨State.releaseActive_cause y 0x0C h, releaseActive_syncs h⟩
    have claiming : s.pair.role = .claiming → (y.releaseActive 0x0C).pair.lastCause = 0x0C ∧ (y.releaseActive 0x0C).pair.role = .init ∧
        (y.releaseActive 0x0C).pair.activeO = false := fun h => releaseActive_claiming (by rw [pair]; exact h)
    generalize y.releaseActive 0x0C = z at released rpwr rclk rmt active claiming ⊢
    obtain ⟨tallying, spwr, sclk, smt⟩ := metStop_parts z
    have o : OnlyIn (fun x => decide (x ∉ [Block.saf, .role, .pair])) z z.metStop := (State.metStop_only rfl rfl (OnlyIn.refl _ _))
    have saf : z.metStop.saf = z.saf := o .saf rfl
    have same : z.metStop.pair = z.pair := pair_same (o .role rfl) (o .pair rfl)
    generalize z.metStop = x at tallying spwr sclk smt saf same ⊢
    unfold State.saveTime State.setPwr State.rawNow
    dsimp only
    rw [same, saf, spwr, sclk, smt, rpwr, rclk, rmt, pwr, clk, mt]
    exact ⟨rfl, released, tallying, active, claiming, rfl⟩
  · show (s.pwr.entering && s.pwr.released.isNone && ((s.sbus.bus == .asleep && decide (max s.sbus.busSince s.pwr.enteredAt + ms 1 ≤ t)) ||
      decide (s.pwr.enteredAt + secs 1 + ms 1 ≤ t))) = true
    rw [he, hr]
    rcases hw with ⟨hb, hw⟩ | hw
    · rw [hb, decide_eq_true (show max s.sbus.busSince s.pwr.enteredAt + ms 1 ≤ t from hw)]
      rfl
    · rw [decide_eq_true (show s.pwr.enteredAt + secs 1 + ms 1 ≤ t by rw [releaseDue]; exact hw)]
      simp

theorem dormantOutputRelease_none (hl : s.live = true) (h : s.pwr.entering = false ∨ s.pwr.released.isSome = true ∨
      ((s.sbus.bus ≠ .asleep ∨ t < max s.sbus.busSince s.pwr.enteredAt + 1000000) ∧ t < s.pwr.enteredAt + 1001000000)) :
    exec (.dormantOutputRelease t) s = .next (s.arrive t) := by
  rw [show exec (.dormantOutputRelease t) s = .next (doDormantOutputRelease t s) from rfl]
  unfold doDormantOutputRelease
  rw [whenLive_live hl, if_neg]
  show ¬(s.pwr.entering && s.pwr.released.isNone && ((s.sbus.bus == .asleep && decide (max s.sbus.busSince s.pwr.enteredAt + ms 1 ≤ t)) ||
      decide (s.pwr.enteredAt + secs 1 + ms 1 ≤ t))) = true
  rcases h with h | h | ⟨h, late⟩
  · rw [h]
    simp
  · rw [Option.isNone_eq_false_iff.2 h]
    simp
  · rw [decide_eq_false (show ¬ s.pwr.enteredAt + secs 1 + ms 1 ≤ t by rw [releaseDue]; exact Nat.not_le.2 late)]
    rcases h with h | h
    · rw [beq_eq_false_iff_ne.2 h]
      simp
    · rw [decide_eq_false (show ¬ max s.sbus.busSince s.pwr.enteredAt + ms 1 ≤ t from Nat.not_le.2 h)]
      simp

/-! ## The wake (R430) -/

omit s t m in
/-- MODULE is awake again: live, no longer entering, its cause told. -/
def State.awakeBy (src : WakeSrc) (u : State) : Prop := u.live = true ∧ u.pwr.entering = false ∧ u.pwr.wakeSrc = wakeBit src + 1

theorem ran_awake {p q : Pwr} (h : p.ran q) (hs : p.st = .ready) : (q.st = .ready ∨ q.st = .run) ∧ q.inReset = p.inReset ∧ q.entering = p.entering ∧
    q.wakeSrc = p.wakeSrc ∧ q.dormNs = p.dormNs := by
  rcases h with rfl | rfl
  · exact ⟨.inl hs, rfl, rfl, rfl, rfl⟩
  · exact ⟨.inr rfl, rfl, rfl, rfl, rfl⟩

theorem wakeUp_awake (z : State) (src : WakeSrc) (slot : Option (Fin 4)) (slept : Bool) (h : z.pwr.inReset = false) :
    (z.wakeUp src slot slept).awakeBy src ∧ (z.wakeUp src slot slept).pwr.dormNs = if z.pwr.st = .dormant ∧ slept = true then z.pwr.dormUpTo z.mt
        else z.pwr.dormNs := by
  obtain ⟨st, reset, entering, wake, slept⟩ := ran_awake (wakeUp_pwr z src slot slept) rfl
  refine ⟨⟨?_, entering, wake⟩, slept⟩
  unfold State.live
  rw [reset, show (z.wokenPwr src _).inReset = false from h]
  rcases st with st | st <;> rw [st] <;> rfl

theorem wakeUp_clocks {z : State} (src : WakeSrc) (slot : Option (Fin 4)) (slept : Bool) (h : z.pwr.st ≠ .dormant) : (z.wakeUp src slot slept).clk =
    z.clk := by
  rw [wakeUp_clk]
  exact if_neg h

theorem live_notReset (hl : s.live = true) : s.pwr.inReset = false ∧ s.pwr.st ≠ .dormant := by
  unfold State.live at hl
  obtain ⟨st, reset⟩ := Bool.and_eq_true_iff.1 hl
  refine ⟨by simpa using reset, fun e => ?_⟩
  rw [e] at st
  nomatch st

section
variable {src : WakeSrc}

theorem dormantWake_next : exec (.dormantWake t src) s = .next (doDormantWake t src s) := rfl

theorem dormantWake_none (h : (s.elapse t).mayWake src = false) : exec (.dormantWake t src) s = .next (s.elapse t) := by
  rw [dormantWake_next]
  unfold doDormantWake
  dsimp only
  rw [h]
  rfl

theorem dormantWake_running (hl : s.live = true) (he : s.pwr.entering = false) : exec (.dormantWake t src) s = .next (s.elapse t) := by
  obtain ⟨-, -, pwr⟩ := s.elapse_clk t
  rw [dormantWake_next]
  unfold doDormantWake
  dsimp only
  rw [if_neg (c := (s.elapse t).pwr.st = .dormant) (by rw [pwr]; exact (live_notReset hl).2),
    if_neg (c := _ ∧ _) (fun ⟨_, e⟩ => by rw [pwr, he] at e; nomatch e)]
  split <;> rfl

theorem dormantWake_entering (hl : s.live = true) (hw : (s.elapse t).mayWake src = true) (he : s.pwr.entering = true) :
    Completes (.dormantWake t src) s fun u => u.awakeBy src ∧ u.clk.mtSrc = s.clk.mtSrc ∧ u.clk.lock = s.clk.lock := by
  obtain ⟨clk, -, pwr⟩ := s.elapse_clk t
  obtain ⟨reset, st⟩ := live_notReset hl
  have live : (s.elapse t).live = true := by unfold State.live at hl ⊢; rw [pwr]; exact hl
  refine Completes.of (u := (s.elapse t).wakeUp src (s.elapse t).prof.active false) ?_ ?_
  · rw [dormantWake_next]
    unfold doDormantWake
    dsimp only
    rw [hw, if_neg (by decide), if_neg (by rw [pwr]; exact st), if_pos ⟨live, by rw [pwr]; exact he⟩]
  · rw [wakeUp_clocks _ _ _ (by rw [pwr]; exact st), clk]
    exact ⟨(wakeUp_awake _ _ _ _ (by rw [pwr]; exact reset)).1, rfl, rfl⟩

theorem dormantWake_dormant (hst : s.pwr.st = .dormant) (hr : s.pwr.inReset = false) (hw : (s.elapse t).mayWake src = true) :
    Completes (.dormantWake t src) s fun u => u.awakeBy src ∧
      (s.pwr.dormantAt < t → u.clk.mtSrc = 0 ∧ (∀ k : Fin 6, u.clk.lock[k] = true) ∧ u.pwr.dormNs = s.pwr.dormNs + ((s.elapse t).mt -
          s.pwr.dormantAt)) ∧
      (t ≤ s.pwr.dormantAt → u.clk.mtSrc = s.pwr.dormSrc ∧ u.clk.lock = s.pwr.dormLock ∧ u.pwr.dormNs = s.pwr.dormNs) := by
  obtain ⟨-, -, pwr⟩ := s.elapse_clk t
  refine Completes.of (u := (s.elapse t).wakeUp src (s.elapse t).pwr.dormSlot (decide ((s.elapse t).pwr.dormantAt < t))) ?_ ?_
  · rw [dormantWake_next]
    unfold doDormantWake
    dsimp only
    rw [hw, if_neg (by decide), if_pos (by rw [pwr]; exact hst)]
  · obtain ⟨awake, ns⟩ := wakeUp_awake (s.elapse t) src (s.elapse t).pwr.dormSlot (decide ((s.elapse t).pwr.dormantAt < t)) (by rw [pwr]; exact hr)
    rw [wakeUp_clk, State.wokenClk, if_pos (by rw [pwr]; exact hst), ns]
    rw [pwr] at awake ⊢
    refine ⟨awake, fun h => ?_, fun h => ?_⟩
    · rw [decide_eq_true h, if_pos rfl, if_pos ⟨hst, rfl⟩, Pwr.dormUpTo, if_pos hst]
      exact ⟨rfl, fun k => by simp, rfl⟩
    · rw [decide_eq_false (Nat.not_lt.2 h), if_neg (by decide), if_neg (fun e => nomatch e.2)]
      exact ⟨rfl, rfl, rfl⟩

/-! ## What wakes (R430) -/

theorem mayWake_disabled (h : s.pwr.wakeEn.testBit (wakeBit src) = false) : (s.elapse t).mayWake src = false := by
  unfold State.mayWake
  rw [(s.elapse_clk t).2.2, h]
  rfl

end

theorem State.elapse_inputs (s : State) (t : Nat) : (s.elapse t).saf = s.saf ∧ (s.elapse t).bays = s.bays ∧ (s.elapse t).bayRec = s.bayRec := by
  unfold State.elapse
  split <;> exact ⟨rfl, rfl, rfl⟩

theorem siAwake_iff (z : State) : z.siAwake = true ↔ ∃ x ∈ z.saf.records, x.kind = 1 ∧ siType x ≠ 2 ∧ ∃ k : Fin 16, x.index = k.val ∧ asserts
    z.saf.si[k] = true := by
  unfold State.siAwake
  rw [List.any_eq_true]
  refine exists_congr fun x => and_congr_right fun _ => ?_
  rw [Bool.and_eq_true, Bool.and_eq_true, beq_iff_eq, bne_iff_ne, and_assoc]
  refine and_congr_right fun _ => and_congr_right fun _ => ?_
  by_cases h : x.index < 16
  · rw [show fin? 16 x.index = some ⟨x.index, h⟩ from dif_pos h]
    refine ⟨fun e => ⟨⟨x.index, h⟩, rfl, e⟩, fun ⟨k, e, hk⟩ => ?_⟩
    rw [show (⟨x.index, h⟩ : Fin 16) = k from Fin.ext e]
    exact hk
  · rw [show fin? 16 x.index = none from dif_neg h]
    exact iff_of_false (fun e => nomatch e) (fun ⟨k, e, _⟩ => h (e ▸ k.isLt))

theorem ceAwake_iff (z : State) : z.ceAwake = true ↔ ∃ b : Fin 12, (z.bayRec b).isSome = true ∧ z.bays[b].pilot.ce ≠ .none := by
  unfold State.ceAwake
  rw [List.any_eq_true]
  refine exists_congr fun b => ?_
  rw [Bool.and_eq_true, bne_iff_ne]
  exact and_iff_right (mem_fins b)

theorem mayWake_enabled {src : WakeSrc} (h : s.pwr.wakeEn.testBit (wakeBit src) = true) :
    (src = .rtc → ((s.elapse t).mayWake src = true ↔ s.rtc.alarm ≠ 0 ∧ s.rtc.alarm ≤ (s.elapse t).calSeconds)) ∧
    (src = .si → ((s.elapse t).mayWake src = true ↔ ∃ x ∈ s.saf.records, x.kind = 1 ∧ siType x ≠ 2 ∧ ∃ k : Fin 16, x.index = k.val ∧ asserts
        s.saf.si[k] = true)) ∧
    (src = .ce → ((s.elapse t).mayWake src = true ↔ ∃ b : Fin 12, (s.bayRec b).isSome = true ∧ s.bays[b].pilot.ce ≠ .none)) ∧
    (src = .spi → (s.elapse t).mayWake src = true) := by
  obtain ⟨-, rtc, pwr⟩ := s.elapse_clk t
  obtain ⟨saf, bays, recs⟩ := s.elapse_inputs t
  unfold State.mayWake
  rw [pwr, h, Bool.true_and]
  refine ⟨fun e => ?_, fun e => ?_, fun e => ?_, fun e => ?_⟩ <;> subst e
  · unfold State.alarmAwake
    rw [decide_eq_true_iff, rtc]
  · rw [← saf]
    exact siAwake_iff _
  · rw [← bays, ← recs]
    exact ceAwake_iff _
  · rfl

/-! ## The commit point (R418, R420) -/

/-- The state that goes dark. -/
def State.dormantFrom (s : State) : State :=
  s.setPwr fun p =>
    { p with st := .dormant, entering := false, released := none, dormantAt := s.mt, dormSlot := s.prof.active, dormLock := s.clk.lock, dormSrc :=
        s.clk.mtSrc }

/-- MODULE in DORMANT, its time in the VBAT domain. -/
def State.asleep (s : State) : State :=
  let s := (s.setClk Clk.darkened).bump 1
  let s := s.holdLockouts.noteCal.setRtc fun r => { r with heldPpm := r.ppm, ppm := 0 }
  { s with met := { s.met with running := false } }.refreshAssume

theorem State.asleep_parts (z : State) : z.asleep.pwr = z.pwr ∧ z.asleep.clk = z.clk.darkened ∧ z.asleep.met.running = false := by
  unfold State.asleep
  rw [State.refreshAssume_pwr, State.refreshAssume_clk, State.refreshAssume_met]
  have o : OnlyIn (fun x => decide (x ∉ [Block.pwr, .clk])) ((z.setClk Clk.darkened).bump 1)
      (((z.setClk Clk.darkened).bump 1).holdLockouts.noteCal.setRtc fun r => { r with heldPpm := r.ppm, ppm := 0 }) :=
    (State.setRtc_only rfl (State.noteCal_only rfl (State.holdLockouts_only rfl rfl rfl (OnlyIn.refl _ _))))
  refine ⟨(o .pwr rfl).trans (State.bump_pwr (z.setClk Clk.darkened) 1), (o .clk rfl).trans (State.bump_clk (z.setClk Clk.darkened) 1), rfl⟩

theorem dormantCommit_next (hl : s.live = true) {q : Nat} (hr : s.pwr.released = some q) : exec (.dormantCommit t) s = .next
    (if !s.pwr.entering || decide (t < q + ms 1) then s.arrive t
    else match (s.arrive t).wakePresent with
      | some src => (s.arrive t).wakeUp src s.prof.active false
      | none => (s.arrive t).dormantFrom.asleep) := by
  rw [show exec (.dormantCommit t) s = .next (doDormantCommit t s) from rfl]
  unfold doDormantCommit
  rw [whenLive_live hl]
  simp only [State.arrive_pwr, hr]
  rfl

theorem dormantCommit_unreleased (hl : s.live = true) (hr : s.pwr.released = none) : exec (.dormantCommit t) s = .next (s.arrive t) := by
  rw [show exec (.dormantCommit t) s = .next (doDormantCommit t s) from rfl]
  unfold doDormantCommit
  rw [whenLive_live hl]
  simp only [State.arrive_pwr, hr]

theorem dormantCommit_early (hl : s.live = true) {q : Nat} (hr : s.pwr.released = some q) (h : t < q + 1000000) : exec (.dormantCommit t) s = .next
    (s.arrive t) := by
  rw [dormantCommit_next hl hr, if_pos (by rw [decide_eq_true (show t < q + ms 1 from h), Bool.or_true])]

section
variable {q : Nat} (hl : s.live = true) (he : s.pwr.entering = true) (hr : s.pwr.released = some q) (h : q + 1000000 ≤ t)
include hl he hr h

theorem dormantCommit_wakes {src : WakeSrc} (hw : (s.arrive t).wakePresent = some src) :
    Completes (.dormantCommit t) s fun u => u.awakeBy src ∧ u.clk.mtSrc = s.clk.mtSrc ∧ u.clk.lock = s.clk.lock := by
  obtain ⟨reset, st⟩ := live_notReset hl
  refine Completes.of (u := (s.arrive t).wakeUp src s.prof.active false) ?_ ?_
  · rw [dormantCommit_next hl hr, he, decide_eq_false (show ¬ t < q + ms 1 from Nat.not_lt.2 h), if_neg (by decide), hw]
  · rw [wakeUp_clocks _ _ _ (show (s.arrive t).pwr.st ≠ _ from st)]
    exact ⟨(wakeUp_awake _ _ _ _ (show (s.arrive t).pwr.inReset = false from reset)).1, rfl, rfl⟩

theorem dormantCommit_sleeps (hw : (s.arrive t).wakePresent = none) : Completes (.dormantCommit t) s fun u =>
    u.live = false ∧ u.met.running = false ∧ u.clk.mtSrc = (if s.clk.x32Ok then 2 else 3) ∧ (∀ k : Fin 6, u.clk.lock[k] = false) ∧
    u.pwr = { s.pwr with st := .dormant, entering := false, released := none, dormantAt := (s.arrive t).mt,
                             dormSlot := s.prof.active, dormLock := s.clk.lock, dormSrc := s.clk.mtSrc } := by
  refine Completes.of (u := (s.arrive t).dormantFrom.asleep) ?_ ?_
  · rw [dormantCommit_next hl hr, he, decide_eq_false (show ¬ t < q + ms 1 from Nat.not_lt.2 h), if_neg (by decide), hw]
  · obtain ⟨pwr, clk, met⟩ := (s.arrive t).dormantFrom.asleep_parts
    unfold State.live
    rw [pwr, clk]
    exact ⟨rfl, met, rfl, fun k => by simp [State.dormantFrom, Clk.darkened], rfl⟩

end

end

/-- Settles O55. -/
theorem dormantSteps : Obligations.DormantSteps := by
  intro s t m src
  refine ⟨fun hl => ⟨fun hs => ⟨dormant_again hl hs, dormant_enters hl hs, dormant_refused hl hs⟩, dormantOutputRelease_releases hl,
      dormantOutputRelease_none hl,
      fun q he hr => ⟨fun h hw => dormantCommit_sleeps hl he hr h hw, fun src h hw => dormantCommit_wakes hl he hr h hw, dormantCommit_early hl hr⟩,
      dormantCommit_unreleased hl, dormantWake_entering hl, dormantWake_running hl⟩,
    dormantWake_dormant, dormantWake_none, mayWake_disabled, mayWake_enabled⟩

end Sys2Proof.Machine
end

section
/-! PROOFS. The calendar set by the host and by IEEE 1588, the leap second and the reads that latch (R423 to R427, R433). -/
namespace Sys2Proof.Machine

/-! ## The calendar set by the host (R423) -/

theorem State.stepCalendar_parts (z : State) (units : Nat) : (z.stepCalendar units).rtc =
    { z.rtc with base := units, baseFrac := 0, baseAt := z.mt, leap := none } ∧
    (z.stepCalendar units).clk = z.clk ∧ (z.stepCalendar units).mt = z.mt := by
  unfold State.stepCalendar
  exact ⟨State.log_rtc .., State.log_clk .., State.log_mt ..⟩

section
variable {s : State} {t : Nat} {m : Master}

section
variable {seconds : Word} {frac : Nat} (hl : s.live = true) (hs : s.serves m = true) (hg : sysGuard (s.arrive t) m = none)
include hl hs hg

theorem rtcApply_sets (hp : s.rtc.ptpLock = false) : Completes (.rtcApply t m seconds frac) s fun u =>
    u.rtc = { s.rtc with base := seconds.toNat * 32768 + frac % 32768, baseFrac := 0, baseAt := (s.arrive t).mt, leap := none, valid := true, src :=
        1,
                         setS := seconds.toNat, setF := frac % 32768 } ∧
    u.clk = s.clk ∧ u.mt = (s.arrive t).mt ∧ u.host.answer = okAnswer := by
  have free : applyCalRefusal (s.arrive t) m = none := by
    unfold applyCalRefusal
    rw [hg, firstOf_none]
    exact refuseIf_false hp _
  refine Completes.accepted hl hs (r := fun s => applyCalRefusal s m) rfl free fun u e => ?_
  subst e
  unfold State.applyCalendar State.setRtc
  dsimp only
  obtain ⟨rtc, clk, mt⟩ := (s.arrive t).stepCalendar_parts (seconds.toNat * 32768 + frac % 32768)
  rw [rtc]
  exact ⟨rfl, clk, mt, rfl⟩

theorem rtcApply_locked (hp : s.rtc.ptpLock = true) :
    exec (.rtcApply t m seconds frac) s = .next { s.arrive t with host := { s.host with answer := deny .state } } := by
  have held : applyCalRefusal (s.arrive t) m = some (deny .state) := by
    unfold applyCalRefusal
    rw [hg, firstOf_none]
    exact refuseIf_true hp _
  rw [exec_live hl rfl, foreign_none (s := s.arrive t) hs, firstOf_none, held, State.command_some]
  rfl

end

/-! ## Sync and Follow_Up (R425) -/

theorem ptpFrom_iff (r : Rtc) (h : PtpHead) : ptpFrom r h = true ↔ r.ptpEn = true ∧ h.domain = r.domain ∧ r.master = some h.source := by
  unfold ptpFrom
  rw [Bool.and_eq_true, Bool.and_eq_true, beq_iff_eq, beq_iff_eq, and_assoc]

theorem ptpAnswers_iff (r : Rtc) (p : PtpResp) : ptpAnswers r p = true ↔ ptpFrom r p.head = true ∧ r.reqOpen = true ∧ p.head.seq = r.reqSeq ∧
    p.requesting = Config.ptpPort := by
  unfold ptpAnswers
  rw [Bool.and_eq_true, Bool.and_eq_true, Bool.and_eq_true, beq_iff_eq, beq_iff_eq, and_assoc, and_assoc]

section
variable (hl : s.live = true) {h : PtpHead} {origin : Nat}
include hl

theorem ptpSync_next (two : Bool) (hf : ptpFrom s.rtc h = true) : exec (.ptpSync t h origin two) s = .next
    (let z := (s.arrive t).setRtc fun r =>
       { r with lastSync := some t, syncSeq := h.seq, syncRx := t, syncOrigin := if two then none else some origin, reqOpen := false }
     if two then z else z.delayReq) := by
  rw [exec_live hl rfl, if_pos (by exact hf)]

theorem ptpSync_ignored (two : Bool) (hf : ptpFrom s.rtc h = false) : exec (.ptpSync t h origin two) s = .next (s.arrive t) := by
  rw [exec_live hl rfl, if_neg (by rw [State.arrive_rtc, hf]; decide)]

theorem ptpFollowUp_asks (hf : ptpFrom s.rtc h = true) (hq : s.rtc.syncSeq = h.seq) (hy : s.rtc.lastSync.isSome = true) (ho : s.rtc.syncOrigin =
    none) :
    exec (.ptpFollowUp t h origin) s = .next { s.arrive t with
      rtc := { s.rtc with syncOrigin := some origin, reqSeq := (s.rtc.reqSeq + 1) % 65536, reqOpen := true },
      host := { s.host with netOut := .delayReq s.rtc.domain ((s.rtc.reqSeq + 1) % 65536) } } := by
  rw [exec_live hl rfl, if_pos (by simp only [State.arrive_rtc, hf, hq, hy, ho, beq_self_eq_true, Option.isNone_none, Bool.and_self])]
  rfl

theorem ptpFollowUp_ignored (hn : ptpFrom s.rtc h = false ∨ s.rtc.syncSeq ≠ h.seq ∨ s.rtc.lastSync = none ∨ s.rtc.syncOrigin.isSome = true) :
    exec (.ptpFollowUp t h origin) s = .next (s.arrive t) := by
  rw [exec_live hl rfl, if_neg]
  rw [State.arrive_rtc]
  rcases hn with e | e | e | e
  · simp [e]
  · simp [beq_eq_false_iff_ne.2 e]
  · simp [e]
  · simp [Option.isNone_eq_false_iff.2 e]

/-! ## The exchange (R425) -/

theorem ptpDelayResp_ignored {p : PtpResp} {received : Nat} (hn : s.rtc.syncOrigin = none ∨ ptpAnswers s.rtc p = false) :
    exec (.ptpDelayResp t p received) s = .next (s.arrive t) := by
  rw [exec_live hl rfl]
  rcases hn with e | e
  · simp only [State.arrive_rtc, e]
  · simp only [State.arrive_rtc, e, Bool.not_false, if_true]
    split <;> rfl

theorem ptpDelayResp_next {p : PtpResp} {received t1 : Nat} (ho : s.rtc.syncOrigin = some t1) (ha : ptpAnswers s.rtc p = true) :
    exec (.ptpDelayResp t p received) s = .next (let z := (s.arrive t).setRtc fun r => { r with reqOpen := false }
      if s.rtc.utcKnown then z.ptpExchange (ptpOffset s.rtc t1 s.rtc.syncRx p.sent received)
      else (z.setRtc fun r => { r with utcUnknown := true, syncOrigin := none }).bumpIf (!s.rtc.utcUnknown) 1) := by
  rw [exec_live hl rfl]
  simp only [State.arrive_rtc, ho, ha, Bool.not_true, if_false, Bool.false_eq_true]
  rfl

end

/-- What a step and a slew of the calendar by IEEE 1588 keep of RTC, and the steps and the rate they leave. -/
structure Adjusted (r v : Rtc) (o : Int) : Prop where
  steps : v.steps = if 128000000 < o.natAbs then satInc 16 r.steps else r.steps
  rate : o.natAbs ≤ 128000000 → v.ppm.natAbs ≤ 500 ∧ (0 < o → v.ppm ≤ 0) ∧ (o < 0 → 0 ≤ v.ppm)
  run : v.lockRun = r.lockRun
  lock : v.ptpLock = r.ptpLock
  request : v.reqOpen = r.reqOpen

theorem State.ptpStep_adjusts (z : State) {o : Int} (h : 128000000 < o.natAbs) : Adjusted z.rtc (z.ptpStep o).rtc o ∧ (z.ptpStep o).mt = z.mt ∧
    (z.ptpStep o).clk = z.clk := by
  unfold State.ptpStep State.setRtc
  dsimp only
  obtain ⟨rtc, clk, mt⟩ := z.stepCalendar_parts (((z.calUnits : Int) - someRound 46 (o * 32768) 1000000000).toNat)
  rw [rtc]
  exact ⟨⟨(if_pos h).symm, fun e => absurd h (Nat.not_lt.2 e), rfl, rfl, rfl⟩, mt, clk⟩

/-- The rate of a slew: at most 500 ppm, against the offset. -/
theorem slewRate (o : Int) {k : Nat} (h : k < 501) :
    (if o = 0 then (0 : Int) else if 0 < o then -k else k).natAbs ≤ 500 ∧ (0 < o → (if o = 0 then (0 : Int) else if 0 < o then -k else k) ≤ 0) ∧
    (o < 0 → 0 ≤ if o = 0 then (0 : Int) else if 0 < o then -k else k) := by
  split
  · omega
  · split <;> omega

theorem State.ptpSlew_adjusts (z : State) {o : Int} (h : o.natAbs ≤ 128000000) : Adjusted z.rtc (z.ptpSlew o).rtc o ∧ (z.ptpSlew o).mt = z.mt ∧
    (z.ptpSlew o).clk = z.clk := by
  unfold State.ptpSlew State.setRtc
  dsimp only
  refine ⟨⟨(if_neg (Nat.not_lt.2 h)).symm, fun _ => ?_, rfl, rfl, rfl⟩, rfl, rfl⟩
  have small : z.drawNat.1 % 501 < 501 := Nat.mod_lt _ (by decide)
  obtain ⟨k, hk⟩ : ∃ k, z.drawNat.1 % 501 = k := ⟨_, rfl⟩
  rw [hk] at small ⊢
  exact slewRate o small

theorem State.ptpExchange_parts (z : State) (o : Int) :
    let u := z.ptpExchange o
    u.mt = z.mt ∧ u.clk = z.clk ∧ u.rtc.valid = true ∧ u.rtc.src = 2 ∧ u.rtc.reqOpen = z.rtc.reqOpen ∧
    u.rtc.steps = (if 128000000 < o.natAbs then satInc 16 z.rtc.steps else z.rtc.steps) ∧
    (o.natAbs ≤ 128000000 → u.rtc.ppm.natAbs ≤ 500 ∧ (0 < o → u.rtc.ppm ≤ 0) ∧ (o < 0 → 0 ≤ u.rtc.ppm)) ∧
    u.rtc.lockRun = (if o.natAbs ≤ 1000 then min 16 (z.rtc.lockRun + 1) else 0) ∧
    (10000 < o.natAbs → u.rtc.ptpLock = false) ∧ (o.natAbs ≤ 10000 → u.rtc.ptpLock = (z.rtc.ptpLock || u.rtc.lockRun == 16)) := by
  dsimp only
  unfold State.ptpExchange
  dsimp only
  have moved : Adjusted z.rtc (if 128000000 < o.natAbs then z.ptpStep o else z.ptpSlew o).rtc o ∧
      (if 128000000 < o.natAbs then z.ptpStep o else z.ptpSlew o).mt = z.mt ∧ (if 128000000 < o.natAbs then z.ptpStep o else z.ptpSlew o).clk = z.clk
          := by
    split
    · next h => exact z.ptpStep_adjusts h
    · next h => exact z.ptpSlew_adjusts (Nat.not_lt.1 h)
  obtain ⟨y, hy⟩ : ∃ y, (if 128000000 < o.natAbs then z.ptpStep o else z.ptpSlew o) = y := ⟨_, rfl⟩
  rw [hy] at moved ⊢
  obtain ⟨⟨steps, rate, run, lock, request⟩, mt, clk⟩ := moved
  rw [State.bumpIf_rtc, State.bumpIf_mt, State.bumpIf_clk]
  unfold State.setRtc ptpRun
  dsimp only
  rw [run, lock]
  exact ⟨mt, clk, rfl, rfl, request, steps, rate, rfl, fun h => if_pos h, fun h => if_neg (Nat.not_lt.2 h)⟩

theorem ptpDelayResp_unknown (hl : s.live = true) {p : PtpResp} {received t1 : Nat} (ho : s.rtc.syncOrigin = some t1) (ha : ptpAnswers s.rtc p = true)
    (hu : s.rtc.utcKnown = false) : Completes (.ptpDelayResp t p received) s fun u => u.rtc =
        { s.rtc with reqOpen := false, utcUnknown := true, syncOrigin := none } := by
  refine Completes.of (ptpDelayResp_next hl ho ha) ?_
  dsimp only
  rw [if_neg (by rw [hu]; decide), State.bumpIf_rtc]
  rfl

theorem ptpDelayResp_measures (hl : s.live = true) {p : PtpResp} {received t1 : Nat} (ho : s.rtc.syncOrigin = some t1) (ha : ptpAnswers s.rtc p =
    true)
    (hu : s.rtc.utcKnown = true) : Completes (.ptpDelayResp t p received) s fun u =>
      let o := ptpOffset s.rtc t1 s.rtc.syncRx p.sent received
      u.mt = (s.arrive t).mt ∧ u.clk = s.clk ∧ u.rtc.valid = true ∧ u.rtc.src = 2 ∧ u.rtc.reqOpen = false ∧
      u.rtc.steps = (if 128000000 < o.natAbs then satInc 16 s.rtc.steps else s.rtc.steps) ∧
      (o.natAbs ≤ 128000000 → u.rtc.ppm.natAbs ≤ 500 ∧ (0 < o → u.rtc.ppm ≤ 0) ∧ (o < 0 → 0 ≤ u.rtc.ppm)) ∧
      u.rtc.lockRun = (if o.natAbs ≤ 1000 then min 16 (s.rtc.lockRun + 1) else 0) ∧
      (10000 < o.natAbs → u.rtc.ptpLock = false) ∧ (o.natAbs ≤ 10000 → u.rtc.ptpLock = (s.rtc.ptpLock || u.rtc.lockRun == 16)) := by
  refine Completes.of (ptpDelayResp_next hl ho ha) ?_
  dsimp only
  rw [hu, if_pos rfl]
  exact State.ptpExchange_parts ((s.arrive t).setRtc fun r => { r with reqOpen := false }) _

/-! ## The masters heard (R424) -/

theorem rankLess_trans : ∀ {a b c : List Nat}, rankLess a b = true → rankLess b c = true → rankLess a c = true
  | [], _, _, h, _ => nomatch h
  | _ :: _, [], _, h, _ => nomatch h
  | _ :: _, _ :: _, [], _, h => nomatch h
  | a :: as, b :: bs, c :: cs, h1, h2 => by
    unfold rankLess at h1 h2 ⊢
    split at h1 <;> split at h2
    · rw [if_pos (by omega)]
      exact rankLess_trans h1 h2
    · have := of_decide_eq_true h2
      rw [if_neg (by omega), decide_eq_true (by omega)]
    · have := of_decide_eq_true h1
      rw [if_neg (by omega), decide_eq_true (by omega)]
    · have := of_decide_eq_true h1
      have := of_decide_eq_true h2
      rw [if_neg (by omega), decide_eq_true (by omega)]

theorem rankLess_irrefl : ∀ a : List Nat, rankLess a a = false
  | [] => rfl
  | a :: as => by
    unfold rankLess
    rw [if_pos rfl]
    exact rankLess_irrefl as

/-- A third rank of the same length lies after the lower or before the higher of two. -/
theorem rankLess_between : ∀ {a b c : List Nat}, a.length = b.length → rankLess a c = true → rankLess a b = true ∨ rankLess b c = true
  | [], _, _, _, h => nomatch h
  | _ :: _, _, [], _, h => nomatch h
  | a :: as, b :: bs, c :: cs, hl, h => by
    unfold rankLess at h ⊢
    by_cases ab : a = b
    · rw [if_pos ab]
      split at h
      · rw [if_pos (by omega)]
        exact rankLess_between (Nat.succ.inj hl) h
      · have := of_decide_eq_true h
        exact .inr (by rw [if_neg (by omega), decide_eq_true (by omega)])
    · have le : a ≤ c := by
        split at h
        · omega
        · exact Nat.le_of_lt (of_decide_eq_true h)
      rw [if_neg ab]
      by_cases lt : a < b
      · exact .inl (decide_eq_true lt)
      · exact .inr (by rw [if_neg (by omega), decide_eq_true (by omega)])

/-- The better of the master kept and one more. -/
def betterMaster (best : Option PtpMaster) (x : PtpMaster) : Option PtpMaster :=
  match best with | some b => if rankLess (annRank x.ann) (annRank b.ann) then some x else best | none => some x

theorem betterMaster_keeps {b y : PtpMaster} (h : rankLess (annRank y.ann) (annRank b.ann) = false) : betterMaster (some b) y = some b := by
  unfold betterMaster
  dsimp only
  rw [h] <;> rfl

theorem betterMaster_takes {b y : PtpMaster} (h : rankLess (annRank y.ann) (annRank b.ann) = true) : betterMaster (some b) y = some y := if_pos h

/-- The master kept ranks before none of its predecessors' betters: it is one of those looked at, and none of them ranks before it. -/
theorem betterMaster_some : ∀ (l : List PtpMaster) (b : PtpMaster) {x : PtpMaster}, l.foldl betterMaster (some b) = some x →
    (x = b ∨ x ∈ l) ∧ rankLess (annRank b.ann) (annRank x.ann) = false ∧ ∀ y ∈ l, rankLess (annRank y.ann) (annRank x.ann) = false
  | [], b, x, h => by
    rw [Option.some.inj h]
    exact ⟨.inl rfl, rankLess_irrefl _, fun y hy => nomatch hy⟩
  | y :: ys, b, x, h => by
    rw [List.foldl_cons] at h
    by_cases lt : rankLess (annRank y.ann) (annRank b.ann) = true
    · rw [betterMaster_takes lt] at h
      obtain ⟨mem, first, rest⟩ := betterMaster_some ys y h
      refine ⟨.inr (mem.elim (fun e => e ▸ List.mem_cons_self) (List.mem_cons_of_mem _)), ?_, List.forall_mem_cons.2 ⟨first, rest⟩⟩
      exact Bool.eq_false_iff.2 fun before => Bool.eq_false_iff.1 first (rankLess_trans lt before)
    · have ge := Bool.eq_false_iff.2 lt
      rw [betterMaster_keeps ge] at h
      obtain ⟨mem, first, rest⟩ := betterMaster_some ys b h
      refine ⟨mem.imp id (List.mem_cons_of_mem _), first, List.forall_mem_cons.2 ⟨Bool.eq_false_iff.2 fun before => ?_, rest⟩⟩
      exact (rankLess_between (a := annRank y.ann) (b := annRank b.ann) rfl before).elim lt (Bool.eq_false_iff.1 first)

theorem betterMaster_none {l : List PtpMaster} {x : PtpMaster} (h : l.foldl betterMaster none = some x) :
    x ∈ l ∧ ∀ y ∈ l, rankLess (annRank y.ann) (annRank x.ann) = false := by
  cases l with
  | nil => nomatch h
  | cons y ys =>
    obtain ⟨mem, first, rest⟩ := betterMaster_some ys y h
    exact ⟨mem.elim (fun e => e ▸ List.mem_cons_self) (List.mem_cons_of_mem _), List.forall_mem_cons.2 ⟨first, rest⟩⟩

theorem bestMaster_eq (domain t : Nat) (l : List PtpMaster) :
    bestMaster domain t l = (l.filter fun x => x.ann.domain == domain && x.qualified t).foldl betterMaster none := rfl

theorem bestMaster_least {domain t : Nat} {l : List PtpMaster} {x : PtpMaster} (h : bestMaster domain t l = some x) :
    x ∈ l ∧ x.qualified t = true ∧ ∀ y ∈ l, y.ann.domain = domain → y.qualified t = true → rankLess (annRank y.ann) (annRank x.ann) = false := by
  rw [bestMaster_eq] at h
  obtain ⟨mem, least⟩ := betterMaster_none h
  obtain ⟨mem, hx⟩ := List.mem_filter.1 mem
  refine ⟨mem, (Bool.and_eq_true_iff.1 hx).2, fun y hy hd hq => least y (List.mem_filter.2 ⟨hy, ?_⟩)⟩
  rw [hd, hq, beq_self_eq_true]
  rfl

section
variable (hl : s.live = true) {n : Announce}
include hl

theorem ptpAnnounce_ignored (h : s.rtc.ptpEn = false ∨ n.domain ≠ s.rtc.domain) : exec (.ptpAnnounce t n) s = .next (s.arrive t) := by
  rw [exec_live hl rfl, if_neg]
  rw [State.arrive_rtc]
  rcases h with e | e
  · simp [e]
  · simp [e]

theorem ptpAnnounce_next (he : s.rtc.ptpEn = true) (hd : n.domain = s.rtc.domain) : exec (.ptpAnnounce t n) s = .next
    (let z := (s.arrive t).setRtc fun r => { r with masters := hearMaster r.masters n (s.arrive t).mt }
     match bestMaster s.rtc.domain (s.arrive t).mt (hearMaster s.rtc.masters n (s.arrive t).mt) with
     | some x => z.takeMaster x.ann
     | none => z.setRtc fun r => { r with master := none }) := by
  rw [exec_live hl rfl, if_pos (by rw [State.arrive_rtc, he, hd, beq_self_eq_true]; rfl)]
  rfl

theorem ptpAnnounce_none (he : s.rtc.ptpEn = true) (hd : n.domain = s.rtc.domain)
    (hb : bestMaster s.rtc.domain (s.arrive t).mt (hearMaster s.rtc.masters n (s.arrive t).mt) = none) : exec (.ptpAnnounce t n) s =
      .next { s.arrive t with rtc := { s.rtc with masters := hearMaster s.rtc.masters n (s.arrive t).mt, master := none } } := by
  rw [ptpAnnounce_next hl he hd]
  simp only [hb]
  rfl

omit hl in
theorem State.takeMaster_rtc (z : State) (a : Announce) : (z.takeMaster a).rtc.masters = z.rtc.masters ∧ (z.takeMaster a).rtc.master = some a.source ∧
    (z.takeMaster a).rtc.ptpGm = a.grandmaster % 2 ^ 64 ∧ (z.takeMaster a).rtc.leapPend = (a.leap61 || a.leap59) ∧
    (z.takeMaster a).rtc.utcOfs = (if a.utcValid then a.utcOffset else z.rtc.utcOfs) ∧ (z.takeMaster a).rtc.utcKnown = (a.utcValid || z.rtc.utcKnown)
        ∧
    (z.takeMaster a).rtc.base = z.rtc.base := by
  unfold State.takeMaster
  dsimp only
  rw [State.bumpIf_rtc]
  cases a.utcValid <;> exact ⟨rfl, rfl, rfl, rfl, rfl, rfl, rfl⟩

theorem ptpAnnounce_selects (he : s.rtc.ptpEn = true) (hd : n.domain = s.rtc.domain) {x : PtpMaster}
    (hb : bestMaster s.rtc.domain (s.arrive t).mt (hearMaster s.rtc.masters n (s.arrive t).mt) = some x) : Completes (.ptpAnnounce t n) s fun u =>
      u.rtc.masters = hearMaster s.rtc.masters n (s.arrive t).mt ∧ u.rtc.master = some x.ann.source ∧ u.rtc.ptpGm = x.ann.grandmaster % 2 ^ 64 ∧
      u.rtc.leapPend = (x.ann.leap61 || x.ann.leap59) ∧ u.rtc.utcOfs = (if x.ann.utcValid then x.ann.utcOffset else s.rtc.utcOfs) ∧
      u.rtc.utcKnown = (x.ann.utcValid || s.rtc.utcKnown) ∧ u.rtc.base = s.rtc.base := by
  refine Completes.of (ptpAnnounce_next hl he hd) ?_
  simp only [hb]
  exact State.takeMaster_rtc ((s.arrive t).setRtc fun r => { r with masters := hearMaster r.masters n (s.arrive t).mt }) x.ann

/-! ## The timeout of the Sync messages and the leap second (R425, R426) -/

theorem ptpSyncTimeout_unlocks {q : Nat} (hq : s.rtc.lastSync = some q) (hp : s.rtc.ptpLock = true) (ht : q + 10000000000 < t) :
    Completes (.ptpSyncTimeout t) s fun u => u.rtc = { s.rtc with ptpLock := false, lockRun := 0 } := by
  refine Completes.of (u := ((s.arrive t).setRtc fun r => { r with ptpLock := false, lockRun := 0 }).bump 1) ?_ ((State.bump_rtc ..).trans rfl)
  rw [exec_live hl rfl]
  simp only [State.arrive_rtc, hq, hp, is_expired (show q + secs 10 < t from ht), Bool.and_self, if_true]

theorem ptpSyncTimeout_none (h : s.rtc.lastSync = none ∨ s.rtc.ptpLock = false ∨ (∀ q, s.rtc.lastSync = some q → t ≤ q + 10000000000)) :
    exec (.ptpSyncTimeout t) s = .next (s.arrive t) := by
  rw [exec_live hl rfl]
  simp only [State.arrive_rtc]
  cases e : s.rtc.lastSync with
  | none => rfl
  | some q =>
    refine congrArg _ (if_neg ?_)
    rcases h with h | h | h
    · rw [e] at h
      nomatch h
    · rw [h, Bool.false_and]
      decide
    · rw [not_expired (show t ≤ q + secs 10 from h q e), Bool.and_false]
      decide

theorem leapSecond_begins (hp : s.rtc.leapPend = true) (hd : (s.arrive t).calSeconds % 86400 = (if s.rtc.leapAdd then 86399 else 86398)) :
    Completes (.leapSecond t) s fun u => u.rtc.leap = some ((s.arrive t).mt, s.rtc.leapAdd) ∧ u.rtc.leapPend = false := by
  refine Completes.live hl rfl ?_
  rw [if_pos (by rw [State.arrive_rtc, hp, hd, beq_self_eq_true]; rfl), State.bump_rtc]
  exact ⟨rfl, rfl⟩

theorem leapSecond_none (h : s.rtc.leapPend = false ∨ (s.arrive t).calSeconds % 86400 ≠ (if s.rtc.leapAdd then 86399 else 86398)) :
    exec (.leapSecond t) s = .next (s.arrive t) := by
  rw [exec_live hl rfl, if_neg]
  rw [State.arrive_rtc]
  rcases h with h | h
  · rw [h]
    simp
  · rw [beq_eq_false_iff_ne.2 h, Bool.and_false]
    decide

end

/-! ## The reads that latch (R423, R427, R433) -/

theorem portLatch_setLatch (z : State) (m : Master) (f : PortLatch → PortLatch) : portLatch (z.setLatch m f) m = (portLatch z m).map f := by
  cases m <;> rfl

theorem State.giveData_latch (z : State) (m : Master) (addr : Nat) (ws : List Nat) (k : Master) : portLatch (z.giveData m addr okAnswer ws) k =
    portLatch z k := by
  rw [State.giveData, State.answered_ok]
  cases k <;> rfl

section
variable (hl : s.live = true) (hs : s.serves m = true)
include hl hs

theorem marketTimeRead_next (high : Bool) : exec (.marketTimeRead t m high) s = .next (let r := (s.arrive t).readTime m high
    r.2.2.giveData m (if high then 0x0001000C else 0x00010008) r.2.1 [r.1]) := by
  rw [exec_live hl rfl]
  simp only [foreign_none (s := s.arrive t) hs]

theorem marketTimeRead_low : Completes (.marketTimeRead t m false) s fun u => u.host.data = [word ((s.arrive t).mt % 2 ^ 32)] ∧ u.host.answer =
    okAnswer ∧
    ((portLatch s m).isSome = true → (portLatch u m).bind (·.mtHigh) = some ((s.arrive t).mt / 2 ^ 32 % 2 ^ 32)) := by
  refine Completes.of (marketTimeRead_next hl hs false) ⟨State.giveData_data .., State.giveData_answer .., fun h => ?_⟩
  obtain ⟨l, hp⟩ := Option.isSome_iff_exists.1 h
  have read : (s.arrive t).readTime m false = ((s.arrive t).mt % 2 ^ 32, okAnswer, (s.arrive t).setLatch m fun l =>
      { l with mtHigh := some ((s.arrive t).mt / 2 ^ 32 % 2 ^ 32) }) := rfl
  rw [read]
  dsimp only
  rw [State.giveData_latch, portLatch_setLatch, portLatch_arrive, hp]
  rfl

theorem marketTimeRead_latched {v : Nat} (h : (portLatch s m).bind (·.mtHigh) = some v) :
    Completes (.marketTimeRead t m true) s fun u => u.host.data = [word v] ∧ u.host.answer = okAnswer := by
  have read : (s.arrive t).readTime m true = (v, okAnswer, s.arrive t) := by
    unfold State.readTime
    rw [if_pos rfl, portLatch_arrive, h]
  refine Completes.of (marketTimeRead_next hl hs true) ?_
  rw [read]
  exact ⟨State.giveData_data .., State.giveData_answer ..⟩

theorem marketTimeRead_stale (h : (portLatch s m).bind (·.mtHigh) = none) : Completes (.marketTimeRead t m true) s fun u =>
    u.host.data = [word ((s.arrive t).mt / 2 ^ 32 % 2 ^ 32)] ∧ u.host.answer = ⟨.stale, .none⟩ := by
  have read : (s.arrive t).readTime m true = ((s.arrive t).mt / 2 ^ 32 % 2 ^ 32, ⟨.stale, .none⟩, s.arrive t) := by
    unfold State.readTime
    rw [if_pos rfl, portLatch_arrive, h]
  refine Completes.of (marketTimeRead_next hl hs true) ?_
  rw [read]
  exact ⟨State.giveData_data .., State.giveData_answer ..⟩

theorem calendarRead_gives : Completes (.calendarRead t m) s fun u => u.host.data = [word ((s.arrive t).calSeconds % 2 ^ 32)] ∧ u.host.answer =
    okAnswer ∧
    ∀ l, portLatch u m = some l → l.calFrac = (s.arrive t).calUnits % 32768 ∧ l.calTime = (s.arrive t).mt := by
  refine Completes.live hl rfl ?_
  simp only [foreign_none (s := s.arrive t) hs]
  refine ⟨State.giveData_data .., State.giveData_answer .., fun l h => ?_⟩
  unfold State.readCalendar at h
  rw [State.giveData_latch, portLatch_setLatch] at h
  obtain ⟨old, -, e⟩ := Option.map_eq_some_iff.1 h
  rw [← e]
  exact ⟨rfl, rfl⟩

theorem rawRead_next (high : Bool) : exec (.rawRead t m high) s = .next (let r := (s.arrive t).readRaw m high
    r.2.giveData m (if high then 0x00010238 else 0x00010234) okAnswer [r.1]) := by
  rw [exec_live hl rfl]
  simp only [foreign_none (s := s.arrive t) hs]

theorem rawRead_low : Completes (.rawRead t m false) s fun u => u.host.data = [word ((s.arrive t).rawNow % 2 ^ 32)] ∧ u.host.answer = okAnswer ∧
    ((portLatch s m).isSome = true → (portLatch u m).bind (·.rawHigh) = some ((s.arrive t).rawNow / 2 ^ 32)) := by
  refine Completes.of (rawRead_next hl hs false) ⟨State.giveData_data .., State.giveData_answer .., fun h => ?_⟩
  obtain ⟨l, hp⟩ := Option.isSome_iff_exists.1 h
  have read : (s.arrive t).readRaw m false = ((s.arrive t).rawNow % 2 ^ 32, (s.arrive t).setLatch m fun l =>
      { l with rawHigh := some ((s.arrive t).rawNow / 2 ^ 32) }) := rfl
  rw [read]
  dsimp only
  rw [State.giveData_latch, portLatch_setLatch, portLatch_arrive, hp]
  rfl

theorem rawRead_latched {v : Nat} (h : (portLatch s m).bind (·.rawHigh) = some v) :
    Completes (.rawRead t m true) s fun u => u.host.data = [word v] ∧ u.host.answer = okAnswer := by
  have read : (s.arrive t).readRaw m true = (v, s.arrive t) := by
    unfold State.readRaw
    rw [if_pos rfl, portLatch_arrive, h]
  refine Completes.of (rawRead_next hl hs true) ?_
  rw [read]
  exact ⟨State.giveData_data .., State.giveData_answer ..⟩

end

end

/-- Settles O56. -/
theorem calendarAndTimeReads : Obligations.CalendarAndTimeReads := by
  intro s t m hl
  exact ⟨fun seconds frac hs hg => ⟨rtcApply_sets hl hs hg, rtcApply_locked hl hs hg⟩,
    fun h origin => ⟨ptpFrom_iff _ h,
      fun hf => ⟨ptpSync_next hl true hf, ptpSync_next hl false hf, ptpFollowUp_asks hl hf⟩,
      fun hf two => ptpSync_ignored hl two hf, ptpFollowUp_ignored hl⟩,
    fun p received => ⟨ptpAnswers_iff _ p, ptpDelayResp_ignored hl,
      fun t1 ho ha => ⟨ptpDelayResp_unknown hl ho ha, ptpDelayResp_measures hl ho ha⟩⟩,
    fun n => ⟨ptpAnnounce_ignored hl, ptpAnnounce_none hl, fun x hb => ⟨bestMaster_least hb, fun he hd => ptpAnnounce_selects hl he hd hb⟩⟩,
    fun q => ptpSyncTimeout_unlocks hl, ptpSyncTimeout_none hl, leapSecond_begins hl, leapSecond_none hl,
    fun hs => ⟨marketTimeRead_low hl hs, fun v => marketTimeRead_latched hl hs, marketTimeRead_stale hl hs, calendarRead_gives hl hs,
      rawRead_low hl hs, fun v => rawRead_latched hl hs⟩⟩

end Sys2Proof.Machine
end

section
/-! PROOFS. The operations of the key vault, the re-masking of its slots and the life cycle (R435, R438, R442, R443, R478). -/
namespace Sys2Proof.Machine

/-! ## Masks (R435) -/

/-- The same mask taken twice leaves the material. -/
theorem maskWith_twice (m : Nat → Byte) (k : Bytes) : maskWith m (maskWith m k) = k := by
  refine List.ext_getElem (by simp [maskWith]) fun i h _ => ?_
  simp [maskWith, BitVec.xor_assoc]

theorem masked_twice (i round : Nat) (k : Bytes) : masked i round (masked i round k) = k := maskWith_twice ..

theorem Key.masked_twice (k : Key) (i round : Nat) : (k.masked i round).masked i round = k := by
  unfold Key.masked
  dsimp only
  rw [Machine.masked_twice]

/-! ## The slots -/

theorem State.keySlot_loadable (z : State) {i : Fin 64} (h : 16 ≤ i.val) : z.keySlot i = z.vault.slots[i].map fun x => x.masked i.val z.vault.rounds
    := by
  unfold State.keySlot
  split
  case h_9 => exact if_neg (by omega)
  all_goals omega

/-- The key of a slot depends on the slot, the round, the salt and the receipt key alone. -/
theorem State.keySlot_same {z w : State} {i : Fin 64} (slot : w.vault.slots[i] = z.vault.slots[i]) (round : w.vault.rounds = z.vault.rounds)
    (salt : w.vault.salt = z.vault.salt) (key : w.met.key = z.met.key) : w.keySlot i = z.keySlot i := by
  unfold State.keySlot State.receiptKey State.dwk
  rw [slot, round, salt, key]

/-! ## A round (R435) -/

/-- The material under the mask of the next round, taken from the present one. -/
theorem masked_next (i r : Nat) (k : Bytes) : masked i (r + 1) (masked i (r + 1) (masked i r k)) = masked i r k := masked_twice ..

theorem State.remaskRound_parts (z : State) : z.remaskRound.vault.rounds = z.vault.rounds + 1 ∧ z.remaskRound.vault.maskCnt = wrapInc 32
    z.vault.maskCnt ∧
    z.remaskRound.vault.remaskPend = false ∧ z.remaskRound.vault.remaskAt = z.vault.remaskAt ∧ z.remaskRound.vault.op = z.vault.op ∧
    z.remaskRound.vault.err = z.vault.err := ⟨rfl, rfl, rfl, rfl, rfl, rfl⟩

theorem State.remaskRound_slot (z : State) (i : Fin 64) :
    z.remaskRound.vault.slots[i] = z.vault.slots[i].map fun k => (k.masked i.val z.vault.rounds).masked i.val (z.vault.rounds + 1) := vmap_get ..

theorem State.remaskRound_receiptKey (z : State) : z.remaskRound.receiptKey = z.receiptKey := by
  unfold State.receiptKey State.remaskRound
  dsimp only
  rw [Option.map_map]
  exact congrArg (fun f => z.met.key.map f) (funext fun k => masked_next 6 z.vault.rounds k)

/-- A round leaves every key of the vault in clear. -/
theorem State.remaskRound_keySlot (z : State) (i : Fin 64) : z.remaskRound.keySlot i = z.keySlot i := by
  by_cases h : 16 ≤ i.val
  · rw [State.keySlot_loadable _ h, State.keySlot_loadable _ h, State.remaskRound_slot, Option.map_map]
    exact congrArg (fun f => z.vault.slots[i].map f) (funext fun k => Key.masked_twice _ i.val (z.vault.rounds + 1))
  · unfold State.keySlot
    rw [State.remaskRound_receiptKey]
    split
    case h_9 => rw [if_pos (by omega), if_pos (by omega)]
    all_goals rfl

/-- A slot holds its key under the mask of the new round. -/
theorem State.remaskRound_masks (z : State) {i : Fin 64} {k : Key} (h : 16 ≤ i.val) (hk : z.keySlot i = some k) :
    z.remaskRound.vault.slots[i] = some (k.masked i.val (z.vault.rounds + 1)) := by
  rw [State.keySlot_loadable _ h] at hk
  obtain ⟨x, hx, e⟩ := Option.map_eq_some_iff.1 hk
  rw [State.remaskRound_slot, hx, ← e]
  rfl

/-! ## The operations begin (R442, R478) -/

section
variable {s : State} {t : Nat} {m : Master} (hl : s.live = true) (hs : s.serves m = true)
include hl hs

theorem keyOp_starts {c : Instr} {op slot : Nat} (e : exec c s = .next (whenLive t (fun s => s.keyCommand m op slot) s)) (ho : s.vault.op = none)
    (hr : op = 3 → 16 ≤ slot ∧ slot ≤ 63) : Completes c s fun u =>
      u.vault = { s.vault with op := some ((s.arrive t).keyOperands op slot), ctrlSlot := slot } ∧ u.host.answer = okAnswer := by
  have free : keyRefusal (s.arrive t) op slot = none := by
    unfold keyRefusal
    rw [State.arrive_vault, ho, refuseIf_false (by rfl), firstOf_none]
    refine refuseIf_false ?_ _
    by_cases h : op = 3
    · rw [decide_eq_true (hr h)]
      simp
    · simp [h]
  refine Completes.of (exec_live hl e) ?_
  rw [State.keyCommand, foreign_none (s := s.arrive t) hs, firstOf_none, free, State.command_none]
  exact ⟨rfl, rfl⟩

theorem keyOp_busy {c : Instr} {op slot : Nat} (e : exec c s = .next (whenLive t (fun s => s.keyCommand m op slot) s)) (ho : s.vault.op.isSome =
    true) :
    exec c s = .next { s.arrive t with host := { s.host with answer := ⟨.busy, .none⟩ } } := by
  have held : keyRefusal (s.arrive t) op slot = some ⟨.busy, .none⟩ := by
    unfold keyRefusal
    rw [State.arrive_vault, refuseIf_true ho] <;> rfl
  rw [exec_live hl e, State.keyCommand, foreign_none (s := s.arrive t) hs, firstOf_none, held, State.command_some]
  rfl

theorem unload_range {slot : Nat} (ho : s.vault.op = none) (h : slot < 16 ∨ 63 < slot) :
    exec (.unload t m slot) s = .next { s.arrive t with host := { s.host with answer := deny .range } } := by
  have held : keyRefusal (s.arrive t) 3 slot = some (deny .range) := by
    unfold keyRefusal
    rw [State.arrive_vault, ho, refuseIf_false (by rfl), firstOf_none]
    exact refuseIf_true (by rw [decide_eq_false (by omega)]; rfl) _
  rw [exec_live hl rfl, State.keyCommand, foreign_none (s := s.arrive t) hs, firstOf_none, held, State.command_some]
  rfl

end

/-! ## The operations end (R442, R443, R478) -/

section
variable {s : State} {t : Nat} (hl : s.live = true)
include hl

theorem keyOpComplete_none (ho : s.vault.op = none) : exec (.keyOpComplete t) s = .next (s.arrive t) := by
  rw [exec_live hl rfl]
  simp only [State.arrive_vault, ho]

theorem keyOpComplete_next {o : KeyOp} (ho : s.vault.op = some o) : exec (.keyOpComplete t) s = .next ((s.arrive t).keyOpEnd o) := by
  rw [exec_live hl rfl]
  simp only [State.arrive_vault, ho]

end

theorem State.keyDone_vault {z : State} (h : z.vault.remaskPend = false) (err : Nat) : (z.keyDone err).vault =
    { z.vault with op := none, err := err } ∧
    (z.keyDone err).met = z.met := by
  unfold State.keyDone
  dsimp only
  rw [if_neg (by rw [State.bump_vault]; exact ne_true_of_eq_false h), State.bump_vault, State.bump_met]
  exact ⟨rfl, rfl⟩

theorem State.keyDone_pending {z : State} (h : z.vault.remaskPend = true) (err : Nat) : z.keyDone err = ((z.setVault fun v =>
    { v with op := none, err }).bump 12).remaskRound := by
  unfold State.keyDone
  exact if_pos (by rw [State.bump_vault]; exact h)

theorem State.drawBytes_vault (n : Nat) (z : State) : (z.drawBytes n).2.vault = z.vault ∧ (z.drawBytes n).2.met = z.met := by
  rw [State.drawBytes_draws]
  exact ⟨rfl, rfl⟩

theorem State.storeBlob_stores {z : State} (b : Blob) (h : z.vault.store.length < 4096) : ∃ w, z.storeBlob b = .ok w ∧
    w.vault.store = storeSet z.vault.store b ∧ w.vault.remaskPend = z.vault.remaskPend := by
  refine ⟨_, if_neg ?_, rfl, rfl⟩
  rw [decide_eq_false (Nat.not_le.2 h), Bool.and_false]
  decide

section
variable {z : State} {o : KeyOp}

theorem keyOpEnd_generate (h : o.op = 1) : z.keyOpEnd o = z.opGenerate o := by simp only [State.keyOpEnd, h]

theorem keyOpEnd_load (h : o.op = 2) : z.keyOpEnd o = z.opLoad o := by simp only [State.keyOpEnd, h]

theorem keyOpEnd_store (h : o.op = 4) : z.keyOpEnd o = z.opStore o := by simp only [State.keyOpEnd, h]

theorem keyOpEnd_delete (h : o.op = 5) : z.keyOpEnd o = z.opDelete o := by simp only [State.keyOpEnd, h]

theorem keyOpEnd_attest (h : o.op = 6) : z.keyOpEnd o = z.opAttest o := by simp only [State.keyOpEnd, h]

end

/-! ## Slots that keys take and leave (R442) -/

theorem State.putKey_keySlot (z : State) {i : Fin 64} (h : 16 ≤ i.val) (k : Key) : (z.putKey i k).keySlot i = some k := by
  rw [State.keySlot_loadable _ h, show (z.putKey i k).vault.slots[i] = some (k.masked i.val z.vault.rounds) from vupd_here ..]
  exact congrArg some (Key.masked_twice ..)

/-- A search that keeps its best or takes the next ends with its first best or with one it saw. -/
theorem foldl_choice {α : Type} {f : Option α → α → Option α} (hf : ∀ b x, f b x = b ∨ f b x = some x) : ∀ (l : List α) (b : Option α),
    l.foldl f b = b ∨ ∃ x ∈ l, l.foldl f b = some x
  | [], b => .inl rfl
  | x :: xs, b => by
    rw [List.foldl_cons]
    rcases foldl_choice hf xs (f b x) with e | ⟨y, hy, e⟩
    · rw [e]
      exact (hf b x).imp id fun h => ⟨x, List.mem_cons_self, h⟩
    · exact .inr ⟨y, List.mem_cons_of_mem _ hy, e⟩

/-- The choice of the least recently used slot: the best so far, or the next. -/
def State.lessUsed (z : State) (best : Option (Fin 64)) (i : Fin 64) : Option (Fin 64) :=
  match z.vault.slots[i] with
  | some k => if k.boot then best else
      match best with
      | none => some i
      | some j => match z.vault.slots[j] with
        | some kj => if k.used < kj.used then some i else best
        | none => best
  | none => best

theorem State.lessUsed_choice (z : State) (best : Option (Fin 64)) (i : Fin 64) : z.lessUsed best i = best ∨ z.lessUsed best i = some i := by
  unfold State.lessUsed
  split
  · split
    · exact .inl rfl
    · split
      · exact .inr rfl
      · split
        · split
          · exact .inr rfl
          · exact .inl rfl
        · exact .inl rfl
  · exact .inl rfl

theorem State.freeSlot_loadable {z : State} {i : Fin 64} (h : z.freeSlot = some i) : 16 ≤ i.val := by
  have loadable : ∀ {j : Fin 64}, j ∈ (fins 64).filter (fun i => decide (16 ≤ i.val)) → 16 ≤ j.val := fun hj => of_decide_eq_true (List.mem_filter.1
      hj).2
  unfold State.freeSlot at h
  dsimp only at h
  split at h
  · next j hj => exact Option.some.inj h ▸ loadable (List.mem_of_find?_eq_some hj)
  · have h : ((fins 64).filter fun i => decide (16 ≤ i.val)).foldl z.lessUsed none = some i := h
    rcases foldl_choice z.lessUsed_choice ((fins 64).filter fun i => decide (16 ≤ i.val)) none with e | ⟨x, hx, e⟩
    · exact nomatch e.symm.trans h
    · exact Option.some.inj (e.symm.trans h) ▸ loadable hx

theorem State.placeKey_puts {z w : State} {k : Key} (h : z.placeKey k = some w) : ∃ i : Fin 64, 16 ≤ i.val ∧ w = z.putKey i k := by
  unfold State.placeKey at h
  split at h
  · next i hi =>
    have loadable := List.find?_some hi
    exact ⟨i, of_decide_eq_true (Bool.and_eq_true_iff.1 loadable).1, (Option.some.inj h).symm⟩
  · obtain ⟨i, hi, e⟩ := Option.map_eq_some_iff.1 h
    exact ⟨i, State.freeSlot_loadable hi, e.symm⟩

/-- A slot emptied. -/
def State.emptied (z : State) (i : Fin 64) : State := z.setVault fun v => { v with slots := vupd v.slots i fun _ => none }

theorem keyOpEnd_unload (z : State) {o : KeyOp} {i : Fin 64} (h3 : o.op = 3) (hi : o.slot = i.val) : z.keyOpEnd o = (z.emptied i).keyDone 0 := by
  unfold State.keyOpEnd State.opUnload
  simp only [h3, hi, fin?_val]
  rfl

theorem State.unloadId_gone (z : State) (id : Nat) {i : Fin 64} (h : 16 ≤ i.val) : ((z.unloadId id).vault.slots[i].map fun k => k.id) ≠ some id := by
  rw [show (z.unloadId id).vault.slots[i] = if 16 ≤ i.val ∧ (z.vault.slots[i].map fun k => k.id) = some id then none else z.vault.slots[i] from
      vmap_get ..]
  split
  · exact fun e => nomatch e
  · next other => exact fun e => other ⟨h, e⟩

section
variable {s : State} {t : Nat} {o : KeyOp} (hl : s.live = true) (ho : s.vault.op = some o) (hp : s.vault.remaskPend = false)
include hl ho hp

/-- An operation that ends with an error code changes nothing else of the vault. -/
theorem keyOpComplete_fails {err : Nat} (h : (s.arrive t).keyOpEnd o = (s.arrive t).keyDone err) :
    Completes (.keyOpComplete t) s fun u => u.vault = { s.vault with op := none, err := err } := by
  refine Completes.of (keyOpComplete_next hl ho) ?_
  rw [h]
  exact (State.keyDone_vault (z := s.arrive t) hp err).1

theorem keyOpComplete_generateRefused (h1 : o.op = 1) (h : keyLen o.type = 0 ∨ o.world = 3 ∨ usageValid o.type o.usage = false ∨ keyIdOk o.id =
    false) :
    Completes (.keyOpComplete t) s fun u => u.vault = { s.vault with op := none, err := 4 } := by
  refine keyOpComplete_fails hl ho hp ?_
  rw [keyOpEnd_generate h1]
  exact if_pos (by simpa using h)

theorem keyOpComplete_generates (h1 : o.op = 1) (len : keyLen o.type ≠ 0) (world : o.world ≠ 3) (usage : usageValid o.type o.usage = true)
    (id : keyIdOk o.id = true) (room : s.vault.store.length < 4096) : Completes (.keyOpComplete t) s fun u => (u.vault.op = none ∧ u.vault.err = 0) ∧
      ∃ bytes, u.vault.blobWin = memOf 0 bytes ∧ u.vault.store = storeSet s.vault.store (blobOf bytes) := by
  refine Completes.of (keyOpComplete_next hl ho) ?_
  rw [keyOpEnd_generate h1]
  unfold State.opGenerate
  rw [if_neg (by simp [len, world, usage, id])]
  dsimp only
  obtain ⟨z, hz⟩ : ∃ z, (s.arrive t).drawBytes (keyLen o.type) = z := ⟨_, rfl⟩
  have drawn := ((s.arrive t).drawBytes_vault (keyLen o.type)).1
  rw [hz] at drawn ⊢
  unfold State.wrapStore
  dsimp only
  obtain ⟨y, hy⟩ : ∃ y, z.2.drawBytes 12 = y := ⟨_, rfl⟩
  have nonce := (z.2.drawBytes_vault 12).1
  rw [hy] at nonce ⊢
  have vault : y.2.vault = s.vault := nonce.trans drawn
  obtain ⟨w, stored, store, pend⟩ := State.storeBlob_stores (blobOf (wrapBlob y.2
    { id := o.id, type := o.type, usage := o.usage, masters := o.masters, world := o.world, lc := o.lc, boot := o.boot, material := z.1, used :=
        (s.arrive t).mt } y.1))
    (by rw [vault]; exact room : y.2.vault.store.length < 4096)
  rw [stored]
  dsimp only [Except.map]
  rw [(State.keyDone_vault (by exact pend.trans (vault ▸ hp)) 0).1]
  exact ⟨⟨rfl, rfl⟩, _, rfl, store.trans (by rw [vault])⟩

theorem keyOpComplete_loadRefused (h2 : o.op = 2) {e : Nat} (he : unwrapBlob (s.arrive t) o.blob = .error e) :
    Completes (.keyOpComplete t) s fun u => u.vault = { s.vault with op := none, err := e } := by
  refine keyOpComplete_fails hl ho hp ?_
  rw [keyOpEnd_load h2]
  unfold State.opLoad
  simp only [he]

theorem keyOpComplete_loadFull (h2 : o.op = 2) {k : Key} (hk : unwrapBlob (s.arrive t) o.blob = .ok k) (id : keyIdOk k.id = true)
    (full : (s.arrive t).placeKey k = none) : Completes (.keyOpComplete t) s fun u => u.vault = { s.vault with op := none, err := 1 } := by
  refine keyOpComplete_fails hl ho hp ?_
  rw [keyOpEnd_load h2]
  unfold State.opLoad
  simp only [hk, id, full, Bool.not_true, if_false, Bool.false_eq_true]

theorem keyOpComplete_loads (h2 : o.op = 2) {k : Key} (hk : unwrapBlob (s.arrive t) o.blob = .ok k) (id : keyIdOk k.id = true)
    (place : ((s.arrive t).placeKey k).isSome = true) : Completes (.keyOpComplete t) s fun u => (u.vault.op = none ∧ u.vault.err = 0) ∧
      u.vault.store = s.vault.store ∧ ∃ i : Fin 64, 16 ≤ i.val ∧ u.keySlot i = some k := by
  obtain ⟨w, hw⟩ := Option.isSome_iff_exists.1 place
  obtain ⟨i, loadable, put⟩ := State.placeKey_puts hw
  have ends : (s.arrive t).keyOpEnd o = w.keyDone 0 := by
    rw [keyOpEnd_load h2]
    unfold State.opLoad
    simp only [hk, id, hw, Bool.not_true, if_false, Bool.false_eq_true]
  refine Completes.of (keyOpComplete_next hl ho) ?_
  rw [ends, put]
  obtain ⟨vault, met⟩ := State.keyDone_vault (z := (s.arrive t).putKey i k) hp 0
  refine ⟨⟨by rw [vault], by rw [vault]⟩, by rw [vault]; rfl, i, loadable, ?_⟩
  rw [State.keySlot_same (z := (s.arrive t).putKey i k) (by rw [vault]) (by rw [vault]) (by rw [vault]) (by rw [met]), State.putKey_keySlot _
      loadable]

theorem keyOpComplete_unloads (i : Fin 64) (h3 : o.op = 3) (hi : o.slot = i.val) :
    Completes (.keyOpComplete t) s fun u => u.vault = { s.vault with op := none, err := 0, slots := vupd s.vault.slots i fun _ => none } := by
  refine Completes.of (keyOpComplete_next hl ho) ?_
  rw [keyOpEnd_unload _ h3 hi, (State.keyDone_vault (z := (s.arrive t).emptied i) hp 0).1]
  rfl

theorem keyOpComplete_storeRefused (h4 : o.op = 4) {e : Nat} (he : unwrapBlob (s.arrive t) o.blob = .error e) :
    Completes (.keyOpComplete t) s fun u => u.vault = { s.vault with op := none, err := e } := by
  refine keyOpComplete_fails hl ho hp ?_
  rw [keyOpEnd_store h4]
  unfold State.opStore
  simp only [he]

theorem keyOpComplete_stores (h4 : o.op = 4) {k : Key} (hk : unwrapBlob (s.arrive t) o.blob = .ok k) (id : keyIdOk k.id = true)
    (room : s.vault.store.length < 4096) : Completes (.keyOpComplete t) s fun u => (u.vault.op = none ∧ u.vault.err = 0) ∧
      u.vault.store = storeSet s.vault.store (blobOf o.blob) := by
  obtain ⟨w, stored, store, pend⟩ := State.storeBlob_stores (z := s.arrive t) (blobOf o.blob) room
  have ends : (s.arrive t).keyOpEnd o = w.keyDone 0 := by
    rw [keyOpEnd_store h4]
    unfold State.opStore
    simp only [hk, id, stored, Bool.not_true, if_false, Bool.false_eq_true]
  refine Completes.of (keyOpComplete_next hl ho) ?_
  rw [ends, (State.keyDone_vault (pend.trans hp) 0).1]
  exact ⟨⟨rfl, rfl⟩, store⟩

theorem keyOpComplete_deletes (h5 : o.op = 5) (h : (s.vault.store.any fun b => b.id == o.id) = true) :
    Completes (.keyOpComplete t) s fun u => (u.vault.op = none ∧ u.vault.err = 0) ∧ u.vault.store = s.vault.store.filter (fun b => b.id != o.id) ∧
      ∀ i : Fin 64, 16 ≤ i.val → (u.vault.slots[i].map fun k => k.id) ≠ some o.id := by
  have ends : (s.arrive t).keyOpEnd o = (((s.arrive t).unloadId o.id).setVault fun v =>
      { v with store := v.store.filter fun b => b.id != o.id }).keyDone 0 := by
    rw [keyOpEnd_delete h5]
    exact if_pos h
  refine Completes.of (keyOpComplete_next hl ho) ?_
  rw [ends, (State.keyDone_vault (by exact hp) 0).1]
  exact ⟨⟨rfl, rfl⟩, rfl, fun i hi => State.unloadId_gone (s.arrive t) o.id hi⟩

theorem keyOpComplete_deleteRefused (h5 : o.op = 5) (h : (s.vault.store.any fun b => b.id == o.id) = false) :
    Completes (.keyOpComplete t) s fun u => u.vault = { s.vault with op := none, err := 6 } := by
  refine keyOpComplete_fails hl ho hp ?_
  rw [keyOpEnd_delete h5]
  exact if_neg (ne_true_of_eq_false h)

theorem keyOpComplete_attests (h6 : o.op = 6) : Completes (.keyOpComplete t) s fun u =>
    let st := Config.attestStatement ((s.arrive t).attestItems (slice o.blob 0 16))
    u.vault = { s.vault with op := none, err := 0, attestWin := memOf 0 ((Config.attestLayout st (Config.signP384 (Config.fixedKey 0) st)
        Config.slot0Certificate).take 4096) } := by
  refine Completes.of (keyOpComplete_next hl ho) ?_
  rw [keyOpEnd_attest h6]
  unfold State.opAttest
  dsimp only
  rw [(State.keyDone_vault (by exact hp) 0).1]
  rfl

end

/-! ## A round that waited for an operation (R435) -/

theorem keyOpComplete_remasks {s : State} {t : Nat} {o : KeyOp} (hl : s.live = true) (ho : s.vault.op = some o) (hp : s.vault.remaskPend = true)
    (i : Fin 64) (h3 : o.op = 3) (hi : o.slot = i.val) : Completes (.keyOpComplete t) s fun u => (u.vault.op = none ∧ u.vault.err = 0) ∧
      u.vault.rounds = s.vault.rounds + 1 ∧ u.vault.maskCnt = wrapInc 32 s.vault.maskCnt ∧ u.vault.remaskPend = false ∧ u.vault.slots[i] = none ∧
      ∀ j : Fin 64, j ≠ i → u.keySlot j = s.keySlot j := by
  refine Completes.of (keyOpComplete_next hl ho) ?_
  rw [keyOpEnd_unload _ h3 hi, State.keyDone_pending (z := (s.arrive t).emptied i) hp]
  refine ⟨⟨rfl, rfl⟩, rfl, rfl, rfl, ?_, fun j hj => ?_⟩
  · rw [State.remaskRound_slot, show (((((s.arrive t).emptied i).setVault fun v => { v with op := none, err := 0 }).bump 12).vault.slots[i]) = none
      from vupd_here ..]
    rfl
  · rw [State.remaskRound_keySlot]
    exact State.keySlot_same (vupd_other _ i j _ (Ne.symm hj)) rfl rfl rfl

section
variable {s : State} {t : Nat} (hl : s.live = true)
include hl

theorem remask_waits (h : s.vault.remaskAt + 250000000 ≤ (s.arrive t).mt) (ho : s.vault.op.isSome = true) :
    exec (.remask t) s = .next { s.arrive t with vault := { s.vault with remaskAt := (s.arrive t).mt, remaskPend := true } } := by
  rw [exec_live hl rfl, if_pos (show (s.arrive t).vault.remaskAt + ms 250 ≤ (s.arrive t).mt from h)]
  exact congrArg Host.Outcome.next (if_pos ho)

theorem remask_round (h : s.vault.remaskAt + 250000000 ≤ (s.arrive t).mt) (ho : s.vault.op = none) : Completes (.remask t) s fun u =>
    u.vault.rounds = s.vault.rounds + 1 ∧ u.vault.maskCnt = wrapInc 32 s.vault.maskCnt ∧ u.vault.remaskAt = (s.arrive t).mt ∧
    (∀ j : Fin 64, u.keySlot j = s.keySlot j) ∧
    ∀ (j : Fin 64) k, 16 ≤ j.val → s.keySlot j = some k → u.vault.slots[j] = some (k.masked j.val (s.vault.rounds + 1)) := by
  refine Completes.of (u := ((s.arrive t).setVault fun v => { v with remaskAt := (s.arrive t).mt }).remaskRound) ?_ ?_
  · rw [exec_live hl rfl, if_pos (show (s.arrive t).vault.remaskAt + ms 250 ≤ (s.arrive t).mt from h)]
    exact congrArg Host.Outcome.next (if_neg (show ¬ s.vault.op.isSome = true by rw [ho]; decide))
  · have same : ∀ j, ((s.arrive t).setVault fun v => { v with remaskAt := (s.arrive t).mt }).keySlot j = s.keySlot j := fun j => State.keySlot_same
      rfl rfl rfl rfl
    refine ⟨rfl, rfl, rfl, fun j => (State.remaskRound_keySlot _ j).trans (same j), fun j k hj hk => ?_⟩
    exact State.remaskRound_masks _ hj ((same j).trans hk)

theorem remask_none (h : (s.arrive t).mt < s.vault.remaskAt + 250000000) : exec (.remask t) s = .next (s.arrive t) := by
  rw [exec_live hl rfl, if_neg (show ¬ (s.arrive t).vault.remaskAt + ms 250 ≤ (s.arrive t).mt from Nat.not_le.2 h)]

end

/-! ## The life cycle (R438) -/

section
variable {s : State} {t : Nat} {m : Master} {value : Nat} (hl : s.live = true) (hs : s.serves m = true) (hg : sysGuard (s.arrive t) m = none)
include hl hs

theorem lcAdvance_next : exec (.lcAdvance t m value) s = .next (((s.arrive t).lcWrite m (bits value 0 2)).1.answered m true 0x00B00014
    ((s.arrive t).lcWrite m (bits value 0 2)).2) := by
  rw [exec_live hl rfl]
  simp only [foreign_none (s := s.arrive t) hs]

omit hl hs in
theorem bits_lc : bits value 0 2 = value % 4 := rfl

include hg

theorem lcAdvance_deploys (hv : value % 4 = 1) (hp : s.vault.lc = .provision) (hc : lcCondition s = true) (hw : s.pwr.pfw = false) :
    Completes (.lcAdvance t m value) s fun u => u.vault = { s.vault with lc := .deployed } ∧ u.host.answer = okAnswer := by
  have free : lcRefusal (s.arrive t) m (bits value 0 2) = none := by
    unfold lcRefusal pfwRefusal
    rw [hg, firstOf_none, bits_lc, hv, refuseIf_false (by decide), firstOf_none,
      refuseIf_false (by rw [State.arrive_vault, hp, show lcCondition (s.arrive t) = true from hc]; decide), firstOf_none, refuseIf_false (by exact
          hw)]
  have write : (s.arrive t).lcWrite m (bits value 0 2) = ((s.arrive t).lcGo .deployed, okAnswer) := by
    unfold State.lcWrite
    rw [free]
  refine Completes.of (lcAdvance_next hl hs) ?_
  rw [write, State.answered_ok]
  exact ⟨State.log_vault .., rfl⟩

theorem lcAdvance_range (hv : value % 4 ≠ 1) : exec (.lcAdvance t m value) s = .next
    { s.arrive t with host := { s.host with answer := deny .range } } := by
  have held : lcRefusal (s.arrive t) m (bits value 0 2) = some (deny .range) := by
    unfold lcRefusal
    rw [hg, firstOf_none, bits_lc, refuseIf_true (decide_eq_true hv)] <;> rfl
  have write : (s.arrive t).lcWrite m (bits value 0 2) = (s.arrive t, deny .range) := by
    unfold State.lcWrite
    rw [held] <;> rfl
  rw [lcAdvance_next hl hs, write]
  rfl

theorem lcAdvance_state (hv : value % 4 = 1) (h : s.vault.lc ≠ .provision ∨ lcCondition s = false) :
    Completes (.lcAdvance t m value) s fun u => u.vault = { s.vault with err := 7 } ∧ u.host.answer = deny .state := by
  have stays : ((s.arrive t).vault.lc != .provision || !lcCondition (s.arrive t)) = true := by
    rcases h with h | h
    · rw [State.arrive_vault, bne_iff_ne.2 h, Bool.true_or]
    · rw [show lcCondition (s.arrive t) = false from h, Bool.not_false, Bool.or_true]
  have held : lcRefusal (s.arrive t) m (bits value 0 2) = some (deny .state) := by
    unfold lcRefusal
    rw [hg, firstOf_none, bits_lc, hv, refuseIf_false (by decide), firstOf_none, refuseIf_true stays] <;> rfl
  have write : (s.arrive t).lcWrite m (bits value 0 2) = ((s.arrive t).keyError 7, deny .state) := by
    unfold State.lcWrite
    rw [held] <;> rfl
  refine Completes.of (lcAdvance_next hl hs) ?_
  rw [write, State.answered_harmless _ _ _ _ rfl]
  exact ⟨(State.bumpIf_vault ..).trans rfl, rfl⟩

end

/-- Settles O57. -/
theorem keyOperations : Obligations.KeyOperations := by
  intro s t m hl hs
  refine ⟨fun ho => ⟨keyOp_starts hl hs rfl ho (nomatch ·), keyOp_starts hl hs rfl ho (nomatch ·), keyOp_starts hl hs rfl ho (nomatch ·),
      keyOp_starts hl hs rfl ho (nomatch ·), keyOp_starts hl hs rfl ho (nomatch ·), fun slot low high => keyOp_starts hl hs rfl ho fun _ => ⟨low,
          high⟩,
      fun slot h => unload_range hl hs ho h, keyOpComplete_none hl ho⟩,
    fun ho c hc => ?_,
    fun o ho hp => ⟨keyOpComplete_generateRefused hl ho hp, keyOpComplete_generates hl ho hp,
      fun h2 => ⟨fun e => keyOpComplete_loadRefused hl ho hp h2, fun k hk id => ⟨keyOpComplete_loadFull hl ho hp h2 hk id, keyOpComplete_loads hl ho
          hp h2 hk id⟩⟩,
      keyOpComplete_unloads hl ho hp,
      fun h4 => ⟨fun e => keyOpComplete_storeRefused hl ho hp h4, fun k => keyOpComplete_stores hl ho hp h4⟩,
      fun h5 => ⟨keyOpComplete_deletes hl ho hp h5, keyOpComplete_deleteRefused hl ho hp h5⟩, keyOpComplete_attests hl ho hp⟩,
    fun o i ho hp => keyOpComplete_remasks hl ho hp i, fun h => ⟨remask_waits hl h, remask_round hl h⟩, remask_none hl,
    fun value hg => ⟨lcAdvance_deploys hl hs hg, lcAdvance_range hl hs hg, lcAdvance_state hl hs hg⟩⟩
  rcases hc with rfl | rfl | rfl | rfl | rfl <;> exact keyOp_busy hl hs rfl ho

end Sys2Proof.Machine
end

section
/-! PROOFS. Chunks of a container, the small container applied, floors and trials, and an activation armed (R447 to R455). -/
namespace Sys2Proof.Machine

/-- A counted change of UPD.STAT is the change and a count. -/
theorem State.updChange_counts (z : State) (f : State → State) : ∃ c, z.updChange f = (f z).bumpIf c 13 := ⟨_, rfl⟩

/-- The state it leaves, which nothing needs to look into again. -/
theorem State.updChange_leaves (z : State) (f : State → State) : ∃ q, z.updChange f = q ∧ q.upd = (f z).upd ∧ q.mram = (f z).mram ∧ q.saf = (f z).saf
    ∧
    q.vault = (f z).vault ∧ q.pwr = (f z).pwr := by
  obtain ⟨c, e⟩ := z.updChange_counts f
  exact ⟨_, e, State.bumpIf_upd .., State.bumpIf_mram .., State.bumpIf_saf .., State.bumpIf_vault .., State.bumpIf_pwr ..⟩

section
variable {s : State} {t : Nat} {m : Master}

/-! ## Chunks (R447, R448) -/

theorem chunkRoom_iff (z : State) : z.chunkRoom = true ↔ z.pwr.pfw = false ∧ (4096 ≤ z.mram.staging ∨ 4096 ≤ z.spareFor 4) := by
  unfold State.chunkRoom
  rw [Bool.and_eq_true, Bool.not_eq_true', decide_eq_true_iff]

/-- The error of the commit that UPD.CHUNK and the chunk window ask for. -/
def State.commitError (z : State) : Nat := chunkError z (z.upd.chunkArea == 1) z.upd.chunkIndex z.upd.chunkCrc (memRange z.upd.chunkWin 0 4096)

/-- A chunk without an error is charged and stored. -/
def State.takeChunk (small : Bool) (index : Nat) (b : Bytes) (z : State) : State :=
  (z.chargeChunk.setArea small (areaStore (z.area small) index b)).setUpd fun u => { u with err := beyondError (z.area small) u.chunkIndex b }

theorem chunkCommit_held {z : State} (h : z.chunkRoom = false) : z.chunkCommit = (z, ⟨.busy, .mram⟩) := by
  unfold State.chunkCommit
  dsimp only
  rw [h]
  rfl

theorem chunkCommit_error {z : State} (room : z.chunkRoom = true) (h : z.commitError ≠ 0) : z.chunkCommit =
    (z.updChange fun s => s.setUpd fun u => { u with err := z.commitError }, if z.commitError = 5 then deny .state else okAnswer) := by
  unfold State.chunkCommit
  dsimp only
  rw [room, if_neg (by decide)]
  exact if_pos h

theorem chunkCommit_stores {z : State} (room : z.chunkRoom = true) (h : z.commitError = 0) : z.chunkCommit =
    (z.updChange (State.takeChunk (z.upd.chunkArea == 1) z.upd.chunkIndex (memRange z.upd.chunkWin 0 4096)), okAnswer) := by
  unfold State.chunkCommit
  dsimp only
  rw [room, if_neg (by decide)]
  exact if_neg (not_not_intro h)

theorem chargeChunk_upd (z : State) : z.chargeChunk.upd = z.upd := by
  unfold State.chargeChunk
  split <;> rfl

theorem takeChunk_upd (z : State) (small : Bool) (index : Nat) (b : Bytes) :
    (State.takeChunk small index b z).upd.err = beyondError (z.area small) z.upd.chunkIndex b ∧
    (small = true → (State.takeChunk small index b z).upd.small = areaStore z.upd.small index b ∧ (State.takeChunk small index b z).upd.large =
        z.upd.large) ∧
    (small = false → (State.takeChunk small index b z).upd.large = areaStore z.upd.large index b ∧ (State.takeChunk small index b z).upd.small =
        z.upd.small) := by
  have upd := chargeChunk_upd z
  have same := congrArg Update.small upd
  have large := congrArg Update.large upd
  have err := congrArg (fun u => beyondError (z.area small) u.chunkIndex b) upd
  unfold State.takeChunk
  cases small
  · exact ⟨err, (nomatch ·), fun _ => ⟨rfl, same⟩⟩
  · exact ⟨err, fun _ => ⟨rfl, large⟩, (nomatch ·)⟩

section
variable (hl : s.live = true) (hs : s.serves m = true)
include hl hs

theorem chunkCommit_next : exec (.chunkCommit t m) s = .next ((s.arrive t).chunkCommit.1.answered m true updCtrl (s.arrive t).chunkCommit.2) := by
  rw [exec_live hl rfl]
  simp only [foreign_none (s := s.arrive t) hs]

theorem chunkCommit_noRoom (h : s.chunkRoom = false) : exec (.chunkCommit t m) s = .next
    { s.arrive t with host := { s.host with answer := ⟨.busy, .mram⟩ } } := by
  rw [chunkCommit_next hl hs, chunkCommit_held (z := s.arrive t) h]
  rfl

theorem chunkCommit_fails (room : s.chunkRoom = true) (h : s.commitError ≠ 0) : Completes (.chunkCommit t m) s fun u =>
    u.upd = { s.upd with err := s.commitError } ∧ u.mram = s.mram ∧ u.host.answer = if s.commitError = 5 then deny .state else okAnswer := by
  have harmless : isViolation (if s.commitError = 5 then deny .state else okAnswer) = false := by split <;> rfl
  obtain ⟨q, e, upd, mram, -⟩ := (s.arrive t).updChange_leaves fun z => z.setUpd fun u => { u with err := s.commitError }
  refine Completes.of (chunkCommit_next hl hs) ?_
  rw [chunkCommit_error (z := s.arrive t) room h]
  dsimp only
  rw [show (s.arrive t).commitError = s.commitError from rfl, e, State.answered_harmless _ _ _ _ harmless]
  exact ⟨upd, mram, rfl⟩

theorem chunkCommit_damaged (room : s.chunkRoom = true) (h : s.upd.chunkCrc ≠ crc32c (memRange s.upd.chunkWin 0 4096)) :
    Completes (.chunkCommit t m) s fun u => u.upd = { s.upd with err := 6 } ∧ u.host.answer = okAnswer := by
  have code : s.commitError = 6 := if_pos h
  obtain ⟨u, next, upd, -, answer⟩ := chunkCommit_fails (t := t) hl hs room (by rw [code]; decide)
  rw [code] at upd answer
  exact ⟨u, next, upd, answer⟩

theorem chunkCommit_refused (room : s.chunkRoom = true) (h : s.commitError ≠ 0) : Completes (.chunkCommit t m) s fun u =>
    u.upd = { s.upd with err := s.commitError } ∧ u.mram = s.mram ∧ (u.host.answer = okAnswer ∨ u.host.answer = deny .state) := by
  obtain ⟨u, next, upd, mram, answer⟩ := chunkCommit_fails (t := t) hl hs room h
  refine ⟨u, next, upd, mram, ?_⟩
  rw [answer]
  split
  · exact .inr rfl
  · exact .inl rfl

theorem chunkCommit_accepted (room : s.chunkRoom = true) (h : s.commitError = 0) : Completes (.chunkCommit t m) s fun u => u.host.answer = okAnswer ∧
    u.upd.err = beyondError (s.area (s.upd.chunkArea == 1)) s.upd.chunkIndex (memRange s.upd.chunkWin 0 4096) ∧
    ((s.upd.chunkArea == 1) = true → u.upd.small = areaStore s.upd.small s.upd.chunkIndex (memRange s.upd.chunkWin 0 4096) ∧ u.upd.large =
        s.upd.large) ∧
    ((s.upd.chunkArea == 1) = false → u.upd.large = areaStore s.upd.large s.upd.chunkIndex (memRange s.upd.chunkWin 0 4096) ∧ u.upd.small =
        s.upd.small) := by
  obtain ⟨q, e, upd, -⟩ := (s.arrive t).updChange_leaves (State.takeChunk (s.upd.chunkArea == 1) s.upd.chunkIndex (memRange s.upd.chunkWin 0 4096))
  refine Completes.of (chunkCommit_next hl hs) ?_
  rw [chunkCommit_stores (z := s.arrive t) room h, State.arrive_upd, e, State.answered_ok]
  dsimp only
  rw [upd]
  exact ⟨rfl, takeChunk_upd ..⟩

omit hl hs in
theorem abortArea_upd (z : State) : z.abortArea.upd =
    if z.upd.chunkArea = 1 then { z.upd with small := {} } else { z.upd with large := {}, mode := 0, hold := false } := by
  unfold State.abortArea
  obtain ⟨q, e, upd, -⟩ := z.updChange_leaves fun s => if s.upd.chunkArea = 1 then s.setArea true {} else (s.setArea false {}).setUpd fun u =>
      { u with mode := 0, hold := false }
  rw [e, upd, apply_ite State.upd]
  rfl

theorem abort_empties : Completes (.abort t m) s fun u =>
    u.upd = (if s.upd.chunkArea = 1 then { s.upd with small := {} } else { s.upd with large := {}, mode := 0, hold := false }) ∧ u.host.answer =
        okAnswer :=
  Completes.served hl hs rfl fun _ e => ⟨(congrArg State.upd e).symm.trans (abortArea_upd (s.arrive t)), rfl⟩

/-! ## APPLY (R451) -/

theorem apply_refused (h : s.upd.small.st ≠ .staged) : exec (.apply t m) s = .next { s.arrive t with host := { s.host with answer := deny .state } }
    := by
  have held : applyRefusal (s.arrive t) = some (deny .state) := by
    unfold applyRefusal
    rw [refuseIf_true (by rw [State.arrive_upd]; exact bne_iff_ne.2 h)] <;> rfl
  rw [exec_live hl rfl, foreign_none (s := s.arrive t) hs, firstOf_none, held, State.command_some]
  rfl

end

/-- The code and the state of a small container's effect. -/
def State.smallEffect (z : State) : Nat × State :=
  let c := areaBytes z.upd.small
  let v := verify z true c
  if v.code ≠ 0 then (v.code, v.state.calUnverified c) else v.state.applySmall (contType c) v.signer v.plain

/-- The state an applied container leaves, before UPD.STAT is compared. -/
def State.applied (z : State) : State := (z.smallEffect.2.setArea true {}).setUpd fun u => { u with err := z.smallEffect.1 }

theorem applyContainer_eq (z : State) : z.applyContainer = z.updChange State.applied := rfl

theorem applied_parts (z : State) {r : Nat × State} (h : z.smallEffect = r) : z.applied.upd = { r.2.upd with small := {}, err := r.1 } ∧
    z.applied.saf = r.2.saf ∧ z.applied.vault = r.2.vault := by
  unfold State.applied
  rw [h]
  exact ⟨rfl, rfl, rfl⟩

theorem applyContainer_parts (z : State) {r : Nat × State} (h : z.smallEffect = r) {u : State} (hu : z.applyContainer = u) :
    u.upd = { r.2.upd with small := {}, err := r.1 } ∧ u.saf = r.2.saf ∧ u.vault = r.2.vault := by
  obtain ⟨q, e, upd, -, saf, vault, -⟩ := z.updChange_leaves State.applied
  rw [applyContainer_eq, e] at hu
  rw [← hu, upd, saf, vault]
  exact applied_parts z h

section
variable (hl : s.live = true) (hs : s.serves m = true) (staged : s.upd.small.st = .staged) (hp : s.pwr.pfw = false)
include hl hs staged hp

theorem apply_applies {r : Nat × State} (h : (s.arrive t).smallEffect = r) : Completes (.apply t m) s fun u =>
    u.host.answer = okAnswer ∧ u.upd = { r.2.upd with small := {}, err := r.1 } ∧ u.saf = r.2.saf ∧ u.vault = r.2.vault := by
  have free : applyRefusal (s.arrive t) = none := by
    unfold applyRefusal pfwRefusal
    rw [refuseIf_false (by rw [State.arrive_upd, staged]; rfl), firstOf_none, refuseIf_false (by exact hp)]
  refine Completes.accepted hl hs (r := fun s => applyRefusal s) rfl free fun u e => ?_
  obtain ⟨upd, saf, vault⟩ := applyContainer_parts _ h e
  exact ⟨rfl, upd, saf, vault⟩

theorem apply_empties : Completes (.apply t m) s fun u => u.upd.small = {} ∧ u.host.answer = okAnswer ∧
    ((verify (s.arrive t) true (areaBytes s.upd.small)).code ≠ 0 → u.upd.err = (verify (s.arrive t) true (areaBytes s.upd.small)).code) := by
  obtain ⟨u, next, answer, upd, -⟩ := apply_applies (t := t) hl hs staged hp rfl
  refine ⟨u, next, congrArg Update.small upd, answer, fun h => (congrArg Update.err upd).trans ?_⟩
  have effect : (s.arrive t).smallEffect = _ := if_pos h
  exact congrArg Prod.fst effect

section
variable (hv : (verify (s.arrive t) true (areaBytes s.upd.small)).code = 0)
include hv

omit hl hs staged hp in
theorem smallEffect_applied {v : Verified} (h : verify (s.arrive t) true (areaBytes s.upd.small) = v) :
    (s.arrive t).smallEffect = v.state.applySmall (contType (areaBytes s.upd.small)) v.signer v.plain := by
  rw [← h]
  exact if_neg (not_not_intro hv)

theorem apply_erasesPassword (h5 : contType (areaBytes s.upd.small) = 5) : Completes (.apply t m) s fun u => u.saf.noPw = true ∧ u.upd.err = 0 := by
  obtain ⟨v, e⟩ : ∃ v, verify (s.arrive t) true (areaBytes s.upd.small) = v := ⟨_, rfl⟩
  have effect := smallEffect_applied hv e
  rw [h5] at effect
  obtain ⟨u, next, -, upd, saf, -⟩ := apply_applies (t := t) hl hs staged hp effect
  exact ⟨u, next, (congrArg SafetyBlock.noPw saf).trans (congrArg SafetyBlock.noPw (State.bumpIf_saf ..)), congrArg Update.err upd⟩

theorem apply_returns (h6 : contType (areaBytes s.upd.small) = 6) (hd : (verify (s.arrive t) true (areaBytes s.upd.small)).state.vault.lc =
    .deployed) :
    Completes (.apply t m) s fun u => u.vault.lc = .returned ∧ u.upd.err = 0 := by
  obtain ⟨v, e⟩ : ∃ v, verify (s.arrive t) true (areaBytes s.upd.small) = v := ⟨_, rfl⟩
  have effect := smallEffect_applied hv e
  rw [e] at hd
  rw [h6, show v.state.applySmall 6 v.signer v.plain = (0, v.state.lcGo .returned) from if_pos hd] at effect
  obtain ⟨u, next, -, upd, -, vault⟩ := apply_applies (t := t) hl hs staged hp effect
  exact ⟨u, next, (congrArg Vault.lc vault).trans (congrArg Vault.lc (State.log_vault ..)), congrArg Update.err upd⟩

end

end

/-! ## Floors and trials (R452, R453) -/

theorem raise_raises (hl : s.live = true) (hs : s.serves m = true) (hg : sysGuard (s.arrive t) m = none) (hp : s.pwr.pfw = false) :
    Completes (.raise t m) s fun u =>
      u.upd = { s.upd with floorApp := max s.upd.floorApp s.runImage.version, floorMet := max s.upd.floorMet s.metImage.version } ∧ u.host.answer =
          okAnswer := by
  have free : firstOf (sysGuard (s.arrive t) m) (pfwRefusal (s.arrive t)) = none := by
    rw [hg, firstOf_none]
    exact refuseIf_false hp _
  refine Completes.accepted hl hs (r := fun s => firstOf (sysGuard s m) (pfwRefusal s)) rfl free fun u e => ?_
  subst e
  exact ⟨rfl, rfl⟩

theorem floorDue_iff (z : State) (left since : Nat) (trial : Option Nat) : floorDue z left since trial = true ↔ trial = none ∧ left ≤ z.mt - since :=
    by
  unfold floorDue
  rw [Bool.and_eq_true, Option.isNone_iff_eq_none, decide_eq_true_iff]

theorem raisedApp_upd (z : State) (c : Bool) : (if c then z.raiseApp else z).upd =
    { z.upd with floorApp := if c then max z.upd.floorApp z.runImage.version else z.upd.floorApp } := by
  cases c <;> rfl

theorem raisedMet_upd (z : State) (c : Bool) : (if c then z.raiseMet else z).upd =
    { z.upd with floorMet := if c then max z.upd.floorMet z.metImage.version else z.upd.floorMet } := by
  cases c <;> rfl

theorem floorRaise_raises (hl : s.live = true) : Completes (.floorRaise t) s fun u =>
    u.upd.floorApp = (if s.upd.trial = none ∧ s.upd.runLeft ≤ (s.arrive t).mt - s.upd.runFrom then max s.upd.floorApp s.runImage.version else
        s.upd.floorApp) ∧
    u.upd.floorMet = (if s.upd.metTrial = none ∧ s.upd.metLeft ≤ (s.arrive t).mt - s.upd.metFrom then max s.upd.floorMet s.metImage.version else
        s.upd.floorMet) := by
  refine Completes.live hl rfl ?_
  dsimp only
  obtain ⟨c, hc⟩ : ∃ c, floorDue (s.arrive t) (s.arrive t).upd.runLeft (s.arrive t).upd.runFrom (s.arrive t).upd.trial = c := ⟨_, rfl⟩
  have app := floorDue_iff (s.arrive t) (s.arrive t).upd.runLeft (s.arrive t).upd.runFrom (s.arrive t).upd.trial
  rw [hc] at app ⊢
  have upd := raisedApp_upd (s.arrive t) c
  have mt : (if c then (s.arrive t).raiseApp else s.arrive t).mt = (s.arrive t).mt := by cases c <;> rfl
  obtain ⟨z, hz⟩ : ∃ z, (if c then (s.arrive t).raiseApp else s.arrive t) = z := ⟨_, rfl⟩
  rw [hz] at upd mt ⊢
  rw [raisedMet_upd, State.metImage, upd]
  refine ⟨ite_congr (propext app) (fun _ => rfl) fun _ => rfl, ite_congr (propext ?_) (fun _ => rfl) fun _ => rfl⟩
  rw [floorDue_iff, mt]
  rfl

theorem trialEnd_ends (hl : s.live = true) {r : Nat} (hr : s.upd.trial = some r) : Completes (.trialEnd t) s fun u =>
    (r + 10000000000 ≤ t → u.upd.trial = none) ∧ (t < r + 10000000000 → u.upd.trial = some r) := by
  have ended : trialOver t s.upd.trial = if r + secs 10 ≤ t then none else some r := by rw [hr]; rfl
  refine Completes.live hl rfl ⟨fun h => ?_, fun h => ?_⟩
  · exact ended.trans (if_pos h)
  · exact ended.trans (if_neg (Nat.not_le.2 h))

/-! ## Arming (R454, R455) -/

theorem activationLead_holds (hl : s.live = true) (hm : s.upd.mode = 1) (ha : s.upd.large.st = .armed) :
    (s.upd.schedS ≤ (s.arrive t).calSeconds + s.upd.leadS → exec (.activationLead t) s = .next
        { s.arrive t with upd := { s.upd with hold := true } }) ∧
    ((s.arrive t).calSeconds + s.upd.leadS < s.upd.schedS → exec (.activationLead t) s = .next (s.arrive t)) := by
  have lead : (s.arrive t).leadHolds = decide (s.upd.schedS ≤ (s.arrive t).calSeconds + s.upd.leadS) := by
    unfold State.leadHolds
    rw [State.arrive_upd, hm, ha]
    rfl
  rw [exec_live hl rfl, lead]
  refine ⟨fun h => ?_, fun h => ?_⟩
  · rw [if_pos (decide_eq_true h)]
    rfl
  · rw [if_neg (by simpa using h)]

section
variable {mode : Nat} (hl : s.live = true) (hs : s.serves m = true) (hg : sysGuard (s.arrive t) m = none) (hp : s.pwr.pfw = false)
include hl hs

omit hl hs in
theorem bits_mode : bits mode 0 2 = mode % 4 := rfl

theorem actModeWrite_next : exec (.actModeWrite t m mode) s = .next (((s.arrive t).actWrite m (mode % 4)).1.answered m true 0x00C00004 ((s.arrive
    t).actWrite m (mode % 4)).2) := by
  rw [exec_live hl rfl]
  simp only [foreign_none (s := s.arrive t) hs, bits_mode]

theorem actModeWrite_denied {a : Answer} (ha : isViolation a = false) (held : actRefusal (s.arrive t) m (mode % 4) = some (a, 0)) :
    exec (.actModeWrite t m mode) s = .next { s.arrive t with host := { s.host with answer := a } } := by
  have write : (s.arrive t).actWrite m (mode % 4) = (s.arrive t, a) := by
    unfold State.actWrite
    rw [held] <;> rfl
  rw [actModeWrite_next hl hs, write, State.answered_harmless _ _ _ _ ha]
  rfl

omit hl hs in
theorem State.setAct_leaves (z : State) (mode : Nat) : ∃ q, z.setAct mode = q ∧ q.upd =
    { z.upd with mode := mode, hold := false, waitDue := z.mt + secs z.upd.waitS,
                 large := { z.upd.large with st := if mode ≠ 0 then .armed else if z.upd.large.st = .armed ∨ z.upd.large.st = .activating then
                     .staged else z.upd.large.st } } := by
  unfold State.setAct
  obtain ⟨q, e, upd, -⟩ := z.updChange_leaves fun s => s.setUpd fun u =>
    { u with mode, hold := false, waitDue := s.mt + secs u.waitS,
             large := { u.large with st := if mode ≠ 0 then .armed else if u.large.st = .armed ∨ u.large.st = .activating then .staged else
                 u.large.st } }
  exact ⟨q, e, upd⟩

theorem actModeWrite_sets (free : actRefusal (s.arrive t) m (mode % 4) = none) : Completes (.actModeWrite t m mode) s fun u =>
    u.upd = { s.upd with mode := mode % 4, hold := false, waitDue := (s.arrive t).mt + secs s.upd.waitS,
                         large := { s.upd.large with st := if mode % 4 ≠ 0 then .armed else if s.upd.large.st = .armed ∨ s.upd.large.st = .activating
                             then .staged else s.upd.large.st } } := by
  have write : (s.arrive t).actWrite m (mode % 4) = ((s.arrive t).setAct (mode % 4), okAnswer) := by
    unfold State.actWrite
    rw [free]
  refine Completes.of (actModeWrite_next hl hs) ?_
  obtain ⟨q, e, upd⟩ := State.setAct_leaves (s.arrive t) (mode % 4)
  rw [write, State.answered_ok, e]
  exact upd

include hg hp

omit hl hs in
/-- The refusals of a write of UPD.ACT.MODE with its guard open, by the value written. -/
theorem actRefusal_eq : actRefusal (s.arrive t) m mode = if mode = 3 then some (deny .range, 0) else if mode = 0 then none else if !s.stagedReady
    then some (deny .state, 0)
    else if mode = 1 then (if s.rtc.valid then none else some (deny .state, 0)) else if s.pair.mode = .single ∨ s.stagedType = 2 then some (deny
        .state, 0x0E) else none := by
  unfold actRefusal
  rw [hg]
  dsimp only
  rw [if_neg (c := (s.arrive t).pwr.pfw = true) (ne_true_of_eq_false hp)]
  rfl

theorem actModeWrite_disarms (h : mode % 4 = 0) : Completes (.actModeWrite t m mode) s fun u =>
    u.upd.mode = 0 ∧ (s.upd.large.st = .armed → u.upd.large.st = .staged) ∧ (s.upd.large.st = .staged → u.upd.large.st = .staged) := by
  obtain ⟨u, next, upd⟩ := actModeWrite_sets (mode := mode) hl hs (by rw [actRefusal_eq hg hp, h]; rfl)
  refine ⟨u, next, ?_⟩
  rw [h] at upd
  dsimp only
  rw [upd]
  refine ⟨rfl, fun armed => if_pos (.inl armed), fun staged => ?_⟩
  dsimp only
  rw [staged]
  rfl

theorem actModeWrite_range (h : mode % 4 = 3) : exec (.actModeWrite t m mode) s = .next
    { s.arrive t with host := { s.host with answer := deny .range } } :=
  actModeWrite_denied hl hs rfl (by rw [actRefusal_eq hg hp, h]; rfl)

theorem actModeWrite_unstaged (h : mode % 4 = 1 ∨ mode % 4 = 2) (hn : s.upd.large.st ≠ .staged) :
    exec (.actModeWrite t m mode) s = .next { s.arrive t with host := { s.host with answer := deny .state } } := by
  have ready : s.stagedReady = false := beq_eq_false_iff_ne.2 hn
  refine actModeWrite_denied hl hs rfl ?_
  rw [actRefusal_eq hg hp, ready]
  rcases h with h | h <;> rw [h] <;> rfl

section
variable (staged : s.upd.large.st = .staged)
include staged

omit hl hs hg hp in
theorem stagedReady_staged : s.stagedReady = true := by
  unfold State.stagedReady
  rw [staged]
  rfl

omit hg hp staged in
theorem actModeWrite_arms (h : mode % 4 ≠ 0) (free : actRefusal (s.arrive t) m (mode % 4) = none) : Completes (.actModeWrite t m mode) s fun u =>
    u.upd.mode = mode % 4 ∧ u.upd.large.st = .armed ∧ u.upd.waitDue = (s.arrive t).mt + s.upd.waitS * 1000000000 := by
  obtain ⟨u, next, upd⟩ := actModeWrite_sets (mode := mode) hl hs free
  refine ⟨u, next, ?_⟩
  dsimp only
  rw [upd]
  exact ⟨rfl, if_pos h, rfl⟩

theorem actModeWrite_schedules (h : mode % 4 = 1) (hv : s.rtc.valid = true) : Completes (.actModeWrite t m mode) s fun u =>
    u.upd.mode = 1 ∧ u.upd.large.st = .armed ∧ u.upd.waitDue = (s.arrive t).mt + s.upd.waitS * 1000000000 := by
  have free : actRefusal (s.arrive t) m (mode % 4) = none := by
    rw [actRefusal_eq hg hp, h, stagedReady_staged staged, hv]
    rfl
  have armed := actModeWrite_arms hl hs (by rw [h]; decide) free
  rwa [h] at armed

theorem actModeWrite_noCalendar (h : mode % 4 = 1) (hv : s.rtc.valid = false) :
    exec (.actModeWrite t m mode) s = .next { s.arrive t with host := { s.host with answer := deny .state } } :=
  actModeWrite_denied hl hs rfl (by rw [actRefusal_eq hg hp, h, stagedReady_staged staged, hv]; rfl)

theorem actModeWrite_handover (h : mode % 4 = 2) (hm : s.pair.mode ≠ .single) (ht : s.stagedType ≠ 2) : Completes (.actModeWrite t m mode) s fun u =>
    u.upd.mode = 2 ∧ u.upd.large.st = .armed ∧ u.upd.waitDue = (s.arrive t).mt + s.upd.waitS * 1000000000 := by
  have free : actRefusal (s.arrive t) m (mode % 4) = none := by
    rw [actRefusal_eq hg hp, h, stagedReady_staged staged]
    exact if_neg (not_or.2 ⟨hm, ht⟩)
  have armed := actModeWrite_arms hl hs (by rw [h]; decide) free
  rwa [h] at armed

theorem actModeWrite_noPair (h : mode % 4 = 2) (hn : s.pair.mode = .single ∨ s.stagedType = 2) : Completes (.actModeWrite t m mode) s fun u =>
    u.upd = { s.upd with err := 0x0E } ∧ u.host.answer = deny .state := by
  have held : actRefusal (s.arrive t) m (mode % 4) = some (deny .state, 0x0E) := by
    rw [actRefusal_eq hg hp, h, stagedReady_staged staged]
    exact if_pos hn
  have write : (s.arrive t).actWrite m (mode % 4) = ((s.arrive t).updChange fun s => s.setUpd fun u => { u with err := 0x0E }, deny .state) := by
    unfold State.actWrite
    rw [held]
    dsimp only
    rw [if_neg (by decide)]
  refine Completes.of (actModeWrite_next hl hs) ?_
  obtain ⟨q, e, upd, -⟩ := (s.arrive t).updChange_leaves fun s => s.setUpd fun u => { u with err := 0x0E }
  rw [write, e, State.answered_harmless _ _ _ _ rfl]
  exact ⟨upd, rfl⟩

end

end

end

/-- Settles O58. -/
theorem updateDelivery : Obligations.UpdateDelivery := by
  intro s t m hl hs
  exact ⟨chunkRoom_iff s, chunkCommit_noRoom hl hs,
    fun room => ⟨chunkCommit_damaged hl hs room, chunkCommit_refused hl hs room, chunkCommit_accepted hl hs room⟩,
    abort_empties hl hs, apply_refused hl hs,
    fun staged hp => ⟨apply_empties hl hs staged hp, apply_erasesPassword hl hs staged hp, apply_returns hl hs staged hp⟩,
    fun hg hp => ⟨raise_raises hl hs hg hp, fun mode => actModeWrite_disarms hl hs hg hp,
      fun mode staged => ⟨actModeWrite_schedules hl hs hg hp staged, actModeWrite_noCalendar hl hs hg hp staged, actModeWrite_handover hl hs hg hp
          staged,
        actModeWrite_noPair hl hs hg hp staged⟩,
      fun mode => actModeWrite_range hl hs hg hp, fun mode => actModeWrite_unstaged hl hs hg hp⟩,
    floorRaise_raises hl, fun r => trialEnd_ends hl, activationLead_holds hl⟩

end Sys2Proof.Machine
end

section
/-! PROOFS. The staged image is activated at its time, by the handover of a pair, or not at all (R453 to R456). -/
namespace Sys2Proof.Machine

/-! ## The boot an activation begins (R429, R432) -/

theorem Pwr.rebooted_ready (p : Pwr) (t : Nat) : (p.rebooted t).st = .ready ∧ (p.rebooted t).inReset = false ∧ (p.rebooted t).rstCount = p.rstCount :=
  ⟨rfl, rfl, rfl⟩

/-- What the assertion of a reset leaves of time and supply. -/
theorem State.resetAsserted_parts (z : State) (c r : Nat) : (z.resetAsserted c r).mt = z.mt ∧
    (z.resetAsserted c r).pwr = { z.pwr.rebooted z.mt with rstCount := satInc 16 z.pwr.rstCount, rstCause := c } := by
  have mt : (z.releaseActive r).mt = z.mt := State.releaseActive_kept .mt (.inl (by decide)) z r
  have pwr : (z.releaseActive r).pwr = z.pwr := State.releaseActive_kept .pwr (.inl (by decide)) z r
  have kept : ∀ (y : State) (b : Bool), (y.keepUnfit b).mt = y.mt ∧ (y.keepUnfit b).pwr = y.pwr := fun y b => by
    unfold State.keepUnfit
    split <;> exact ⟨rfl, rfl⟩
  unfold State.resetAsserted
  obtain ⟨q, hq⟩ : ∃ q, z.releaseActive r = q := ⟨_, rfl⟩
  rw [hq] at mt pwr ⊢
  dsimp only
  unfold State.countReset
  dsimp only
  rw [(kept _ _).1, (kept _ _).2]
  unfold State.keepRecords State.setPart State.rebooted
  dsimp only
  rw [mt, pwr]
  exact ⟨rfl, rfl⟩

theorem State.startAgain_live {z : State} (hr : z.pwr.st = .ready) (hi : z.pwr.inReset = false) (c : Nat) (pins : Option BootPins) (st : Bool) :
    (z.startAgain c pins st).live = true ∧ (z.startAgain c pins st).pwr.rstCause = z.pwr.rstCause ∧ (z.startAgain c pins st).pwr.rstCount =
        z.pwr.rstCount := by
  have ran := State.startAgain_pwr z c pins st
  unfold State.live
  rcases ran with e | e <;> rw [e]
  · rw [hr, hi]
    exact ⟨rfl, rfl, rfl⟩
  · dsimp only
    rw [hi]
    exact ⟨rfl, rfl, rfl⟩

/-- A reset counts its cause, keeps market time and leaves a live module. -/
theorem State.resetNow_parts (z : State) (c r : Nat) (pins : Option BootPins) (st : Bool) : (z.resetNow c r pins st).mt = z.mt ∧ (z.resetNow c r pins
    st).live = true ∧
    (z.resetNow c r pins st).pwr.rstCause = c ∧ (z.resetNow c r pins st).pwr.rstCount = satInc 16 z.pwr.rstCount := by
  obtain ⟨mt, pwr⟩ := z.resetAsserted_parts c r
  unfold State.resetNow
  obtain ⟨q, hq⟩ : ∃ q, z.resetAsserted c r = q := ⟨_, rfl⟩
  rw [hq] at mt pwr ⊢
  obtain ⟨live, cause, count⟩ := State.startAgain_live (z := q) (by rw [pwr]; rfl) (by rw [pwr]; rfl) c pins st
  have kept : (q.startAgain c pins st).mt = q.mt := State.startAgain_kept .mt (.inl (by decide)) q c pins st
  exact ⟨kept.trans mt, live, cause.trans (by rw [pwr]), count.trans (by rw [pwr])⟩

section
variable {s : State} {t : Nat}

/-- An activation has begun (R453, R456): the boot, or ACTIVATING until the next compute deadline. -/
def State.begun (s : State) (t : Nat) (u : State) : Prop :=
  (s.stagedType = 1 → ((s.arrive t).active && (s.arrive t).running) = false → u.mt = (s.arrive t).mt ∧ u.live = true ∧ u.pwr.rstCause = 6 ∧
      u.pwr.rstCount = satInc 16 s.pwr.rstCount) ∧
  (s.stagedType ≠ 1 ∨ ((s.arrive t).active && (s.arrive t).running) = true →
    u.upd = { s.upd with large := { s.upd.large with st := .activating } } ∧ u.pwr = s.pwr ∧ u.pair = s.pair)

/-- ACTIVATING. -/
theorem State.activating_leaves (z : State) : ∃ q, (z.updChange fun s => s.setUpd fun u => { u with large := { u.large with st := .activating } }) =
    q ∧
    q.upd = { z.upd with large := { z.upd.large with st := .activating } } ∧ q.pwr = z.pwr ∧ q.pair = z.pair ∧ q.mt = z.mt ∧ q.prof = z.prof := by
  obtain ⟨c, e⟩ := z.updChange_counts fun s => s.setUpd fun u => { u with large := { u.large with st := .activating } }
  exact ⟨_, e, State.bumpIf_upd .., State.bumpIf_pwr .., State.bumpIf_pair .., State.bumpIf_mt .., State.bumpIf_prof ..⟩

theorem startActivation_begins : s.begun t (s.arrive t).startActivation := by
  obtain ⟨q, e, upd, pwr, pair, mt, prof⟩ := (s.arrive t).activating_leaves
  have staged : q.stagedType = s.stagedType := by
    unfold State.stagedType
    rw [upd]
    rfl
  have shown : (q.active && q.running) = ((s.arrive t).active && (s.arrive t).running) := by
    unfold State.active State.running
    rw [pair, prof]
  unfold State.startActivation
  rw [e]
  dsimp only
  rw [staged, shown]
  refine ⟨fun h1 idle => ?_, fun h => ?_⟩
  · rw [if_pos h1, if_neg (ne_true_of_eq_false idle)]
    obtain ⟨bmt, live, cause, count⟩ := State.resetNow_parts q 6 0x0D none q.saf.selfTest
    exact ⟨bmt.trans mt, live, cause, count.trans (by rw [pwr]; rfl)⟩
  · have stays : (if s.stagedType = 1 then if ((s.arrive t).active && (s.arrive t).running) = true then q else q.activationBoot else q) = q := by
      rcases h with h | h
      · exact if_neg h
      · rw [h, if_pos rfl, ite_self]
    rw [stays]
    exact ⟨upd, pwr, pair⟩

/-! ## The schedule (R454) -/

section
variable (hl : s.live = true)
include hl

theorem scheduledActivation_next : exec (.scheduledActivation t) s = .next (if (s.arrive t).schedDue t then (s.arrive t).startActivation else
    (s.arrive t).skipLate) := by
  rw [exec_live hl rfl]

theorem activationSkip_next : exec (.activationSkip t) s = .next (s.arrive t).skipLate := exec_live hl rfl

omit hl in
theorem schedLate_armed {z : State} (hm : z.upd.mode = 1) (ha : z.upd.large.st = .armed) :
    z.schedLate = decide ((z.upd.schedS + z.upd.waitS) * 32768 < z.calUnits) := by
  unfold State.schedLate
  rw [hm, ha]
  rfl

omit hl in
theorem skipLate_none {z : State} (h : z.schedLate = false) : z.skipLate = z := by
  unfold State.skipLate
  exact if_neg (ne_true_of_eq_false h)

omit hl in
/-- The end of an activation, before UPD.STAT is compared. -/
def State.activationOver (err last : Nat) (z : State) : State := z.setUpd fun u =>
  { u with err, last, mode := 0, hold := false, large := if last = 1 ∧ err = 0 then {} else { u.large with st := if u.large.total = 0 then u.large.st
      else .staged } }

omit hl in
theorem activationEnds_logs (z : State) (index version err last : Nat) :
    ∃ a b c i w, z.activationEnds index version err last = (z.updChange (State.activationOver err last)).log a i b c w := ⟨_, _, _, _, _, rfl⟩

omit hl in
/-- What the end of an activation leaves of UPD (R453). -/
theorem activationEnds_upd (z : State) (index version err last : Nat) : (z.activationEnds index version err last).upd =
      { z.upd with err, last, mode := 0, hold := false,
                   large := if last = 1 ∧ err = 0 then {} else { z.upd.large with st := if z.upd.large.total = 0 then z.upd.large.st else .staged }
                       } ∧
    (z.activationEnds index version err last).pwr = z.pwr := by
  obtain ⟨a, b, c, i, w, logs⟩ := activationEnds_logs z index version err last
  obtain ⟨q, e, upd, -, -, -, pwr⟩ := z.updChange_leaves (State.activationOver err last)
  rw [logs, e, State.log_upd, State.log_pwr, upd, pwr]
  exact ⟨rfl, rfl⟩

omit hl in
/-- An activation skipped (R454). -/
theorem activationEnds_skips (z : State) (index version : Nat) : let u := z.activationEnds index version 0x0C 2
    u.upd.err = 0x0C ∧ u.upd.mode = 0 ∧ u.upd.hold = false ∧ u.pwr = z.pwr ∧ (z.upd.large.total ≠ 0 → u.upd.large =
        { z.upd.large with st := .staged }) := by
  dsimp only
  obtain ⟨upd, pwr⟩ := activationEnds_upd z index version 0x0C 2
  rw [upd]
  refine ⟨rfl, rfl, rfl, pwr, fun h => ?_⟩
  rw [if_neg (by decide), if_neg h]

section
variable (hm : s.upd.mode = 1) (ha : s.upd.large.st = .armed)
include hm ha

theorem activation_skips {c : Instr} (hc : c = .scheduledActivation t ∨ c = .activationSkip t) (late : (s.upd.schedS + s.upd.waitS) * 32768 <
    (s.arrive t).calUnits) :
    Completes c s fun u => u.upd.err = 0x0C ∧ u.upd.mode = 0 ∧ u.upd.hold = false ∧ u.pwr = s.pwr ∧ (s.upd.large.total ≠ 0 → u.upd.large =
        { s.upd.large with st := .staged }) := by
  have isLate : (s.arrive t).schedLate = true := (schedLate_armed (z := s.arrive t) hm ha).trans (decide_eq_true late)
  have skipped : (s.arrive t).skipLate = (s.arrive t).activationEnds (if s.stagedType = 2 then 1 else 0) (contVersion (areaBytes s.upd.large)) 0x0C 2
      := if_pos isLate
  have next : exec c s = .next (s.arrive t).skipLate := by
    rcases hc with rfl | rfl
    · rw [scheduledActivation_next hl, State.schedDue, isLate]
      simp
    · exact activationSkip_next hl
  rw [skipped] at next
  exact Completes.of next (activationEnds_skips (s.arrive t) ..)

section
variable (early : (s.arrive t).calUnits ≤ (s.upd.schedS + s.upd.waitS) * 32768)
include early

omit hl in
theorem notLate : (s.arrive t).schedLate = false := (schedLate_armed (z := s.arrive t) hm ha).trans (decide_eq_false (Nat.not_lt.2 early))

theorem activationSkip_none : exec (.activationSkip t) s = .next (s.arrive t) := by
  rw [activationSkip_next hl, skipLate_none (notLate hm ha early)]

omit hl in
theorem schedDue_iff : (s.arrive t).schedDue t = true ↔ s.upd.schedS ≤ (s.arrive t).calSeconds ∧ ((s.arrive t).active = false ∨ (t % 1000000 = 0 ∧
    (s.arrive t).busyCode = 0)) := by
  unfold State.schedDue
  rw [notLate hm ha early, State.arrive_upd, hm, ha]
  simp

theorem scheduledActivation_begins (due : s.upd.schedS ≤ (s.arrive t).calSeconds) (free : (s.arrive t).active = false ∨ (t % 1000000 = 0 ∧ (s.arrive
    t).busyCode = 0)) :
    Completes (.scheduledActivation t) s (s.begun t) := by
  refine Completes.of (scheduledActivation_next hl) ?_
  rw [if_pos ((schedDue_iff hm ha early).2 ⟨due, free⟩)]
  exact startActivation_begins

theorem scheduledActivation_waits
    (h : (s.arrive t).calSeconds < s.upd.schedS ∨ ((s.arrive t).active = true ∧ (t % 1000000 ≠ 0 ∨ (s.arrive t).busyCode ≠ 0))) :
    exec (.scheduledActivation t) s = .next (s.arrive t) := by
  rw [scheduledActivation_next hl, if_neg, skipLate_none (notLate hm ha early)]
  rw [schedDue_iff hm ha early]
  rintro ⟨due, free⟩
  rcases h with h | ⟨active, h⟩
  · omega
  · rcases free with idle | ⟨tick, none⟩
    · rw [active] at idle
      nomatch idle
    · exact h.elim (· tick) (· none)

end

end

/-! ## The handover (R455) -/

theorem handoverActivation_next : exec (.handoverActivation t) s = .next (let z := (s.arrive t).handoverLate t
    if z.upd.mode == 2 && z.upd.large.st == .armed && z.handoverReady then z.startActivation else z) := by
  rw [exec_live hl rfl]

theorem handoverActivationTimeout_next : exec (.handoverActivationTimeout t) s = .next ((s.arrive t).handoverLate t) := exec_live hl rfl

omit hl in
theorem handoverReady_iff (z : State) : z.handoverReady = true ↔ z.active = false ∨
    (z.partnerFit = true ∧ z.pair.partner.runUid = z.upd.large.uid ∧ (z.pair.mode = .lite ∨ z.stagedCompat = false → z.busyCode = 0 ∨ z.busyCode =
        3)) := by
  unfold State.handoverReady
  rw [Bool.or_eq_true, Bool.and_eq_true, Bool.and_eq_true, Bool.or_eq_true, Bool.not_eq_true', beq_iff_eq, and_assoc, Bool.not_eq_true',
      Bool.or_eq_false_iff,
    beq_eq_false_iff_ne, decide_eq_true_iff, Bool.not_eq_false']
  refine or_congr_right (and_congr_right fun _ => and_congr_right fun _ => ?_)
  cases z.stagedCompat <;> by_cases h : z.pair.mode = .lite <;> simp [h]

section
variable (hm : s.upd.mode = 2) (ha : s.upd.large.st = .armed)
include hm ha

omit hl hm ha in
theorem handoverLate_waits (ht : t ≤ s.upd.waitDue) : (s.arrive t).handoverLate t = s.arrive t := by
  unfold State.handoverLate
  rw [State.arrive_upd, not_expired ht, Bool.and_false]
  exact if_neg (by decide)

theorem handoverActivation_begins (ht : t ≤ s.upd.waitDue) (ready : (s.arrive t).handoverReady = true) : Completes (.handoverActivation t) s (s.begun
    t) := by
  refine Completes.of (handoverActivation_next hl) ?_
  rw [handoverLate_waits ht]
  dsimp only
  rw [if_pos (by rw [State.arrive_upd, hm, ha, ready]; rfl)]
  exact startActivation_begins

omit hm ha in
theorem handoverActivation_waits (ht : t ≤ s.upd.waitDue) (ready : (s.arrive t).handoverReady = false) : exec (.handoverActivation t) s = .next
    (s.arrive t) := by
  rw [handoverActivation_next hl, handoverLate_waits ht]
  dsimp only
  rw [ready, Bool.and_false]
  rfl

omit hm ha in
theorem handoverActivationTimeout_waits (ht : t ≤ s.upd.waitDue) : exec (.handoverActivationTimeout t) s = .next (s.arrive t) := by
  rw [handoverActivationTimeout_next hl, handoverLate_waits ht]

theorem handover_disarms {c : Instr} (hc : c = .handoverActivation t ∨ c = .handoverActivationTimeout t) (ht : s.upd.waitDue < t) : Completes c s fun
    u =>
    u.upd = { s.upd with err := 0x0F, mode := 0, hold := false, large := { s.upd.large with st := .staged } } ∧ u.pwr = s.pwr := by
  have late : (s.arrive t).handoverLate t =
      (s.arrive t).updChange fun s => s.setUpd fun u => { u with err := 0x0F, mode := 0, hold := false, large := { u.large with st := .staged } } :=
          by
    unfold State.handoverLate
    rw [State.arrive_upd, hm, ha, is_expired ht]
    exact if_pos rfl
  obtain ⟨q, e, upd, -, -, -, pwr⟩ := (s.arrive t).updChange_leaves fun s => s.setUpd fun u =>
    { u with err := 0x0F, mode := 0, hold := false, large := { u.large with st := .staged } }
  rw [e] at late
  have next : exec c s = .next q := by
    rcases hc with rfl | rfl
    · rw [handoverActivation_next hl, late]
      dsimp only
      rw [upd]
      rfl
    · rw [handoverActivationTimeout_next hl, late]
  exact Completes.of next ⟨upd, pwr⟩

end

/-- Nothing is activated that is not armed. -/
theorem activation_unarmed (hn : s.upd.large.st ≠ .armed) {c : Instr}
    (hc : c = .scheduledActivation t ∨ c = .activationSkip t ∨ c = .handoverActivation t ∨ c = .handoverActivationTimeout t) : exec c s = .next
        (s.arrive t) := by
  have armed : ((s.arrive t).upd.large.st == .armed) = false := beq_eq_false_iff_ne.2 hn
  have late : (s.arrive t).schedLate = false := by
    unfold State.schedLate
    rw [armed, Bool.and_false, Bool.false_and]
  have due : (s.arrive t).schedDue t = false := by
    unfold State.schedDue
    rw [armed, Bool.and_false, Bool.false_and, Bool.false_and, Bool.false_and]
  have handover : (s.arrive t).handoverLate t = s.arrive t := by
    unfold State.handoverLate
    rw [armed, Bool.and_false, Bool.false_and]
    exact if_neg (by decide)
  rcases hc with rfl | rfl | rfl | rfl
  · rw [scheduledActivation_next hl, due, skipLate_none late]
    rfl
  · rw [activationSkip_next hl, skipLate_none late]
  · rw [handoverActivation_next hl, handover]
    dsimp only
    rw [armed, Bool.and_false, Bool.false_and]
    rfl
  · rw [handoverActivationTimeout_next hl, handover]

end

end

/-- Settles O59. -/
theorem activations : Obligations.Activations := by
  intro s t hl
  exact ⟨fun hm ha => ⟨fun c hc => activation_skips hl hm ha hc, fun early => ⟨activationSkip_none hl hm ha early, scheduledActivation_begins hl hm
      ha early,
      scheduledActivation_waits hl hm ha early⟩⟩,
    fun hm ha => ⟨handoverActivation_begins hl hm ha, handoverActivation_waits hl, fun c hc => handover_disarms hl hm ha hc,
      handoverActivationTimeout_waits hl⟩,
    fun hn c hc => activation_unarmed hl hn hc, handoverReady_iff (s.arrive t)⟩

end Sys2Proof.Machine
end

section
/-! PROOFS. Records written and refused, snapshots, marks and clears of the ledger (R463 to R474). -/
namespace Sys2Proof.Machine

/-! ## Records that wait (R463, R471) -/

/-- What a record that joins the queue of partition 0 leaves of the ledger. -/
structure State.Queues (s u : State) : Prop where
  others : ∀ q : Fin 3, q ≠ 0 → u.ldg.parts[q] = s.ldg.parts[q]
  fill : u.ldg.parts[(0 : Fin 3)].fill = s.ldg.parts[(0 : Fin 3)].fill
  gen : u.ldg.parts[(0 : Fin 3)].gen = s.ldg.parts[(0 : Fin 3)].gen
  mem : u.ldg.parts[(0 : Fin 3)].mem = s.ldg.parts[(0 : Fin 3)].mem
  queue : ∃ l, u.ldg.parts[(0 : Fin 3)].queue = s.ldg.parts[(0 : Fin 3)].queue ++ l

theorem State.Queues.of_ldg {s u : State} (h : u.ldg = s.ldg) : s.Queues u := by
  refine ⟨fun q _ => ?_, ?_, ?_, ?_, [], ?_⟩ <;> rw [h]
  rw [List.append_nil]

theorem State.Queues.trans {s u w : State} (h : s.Queues u) (k : u.Queues w) : s.Queues w := by
  obtain ⟨l, hl⟩ := h.queue
  obtain ⟨r, hr⟩ := k.queue
  exact ⟨fun q hq => (k.others q hq).trans (h.others q hq), k.fill.trans h.fill, k.gen.trans h.gen, k.mem.trans h.mem, l ++ r, by rw [hr, hl,
      List.append_assoc]⟩

section
variable (z : State) (r : LdgRec)

theorem State.enqueue_part : (z.enqueue 0 r).ldg.parts[(0 : Fin 3)] = if queueRoom z 0 then
    { z.ldg.parts[(0 : Fin 3)] with queue := z.ldg.parts[(0 : Fin 3)].queue ++ [r] }
    else { z.ldg.parts[(0 : Fin 3)] with qDrop := satInc 16 z.ldg.parts[(0 : Fin 3)].qDrop, dropped := true } := by
  unfold State.enqueue
  dsimp only
  rw [vupd_here]
  cases queueRoom z 0 <;> rfl

theorem State.enqueue_queues : z.Queues (z.enqueue 0 r) := by
  have part := z.enqueue_part r
  refine ⟨fun q hq => vupd_other _ _ _ _ (Ne.symm hq), ?_, ?_, ?_, ?_⟩ <;> rw [part]
  · split <;> rfl
  · split <;> rfl
  · split <;> rfl
  · split
    · exact ⟨[r], rfl⟩
    · exact ⟨[], (List.append_nil _).symm⟩

theorem State.enqueue_joins (h : queueRoom z 0 = true) : (z.enqueue 0 r).ldg.parts[(0 : Fin 3)].queue = z.ldg.parts[(0 : Fin 3)].queue ++ [r] := by
  rw [z.enqueue_part r, if_pos h]

theorem State.queueRec_queues (code time i a b : Nat) (w : Bytes) : z.Queues (z.queueRec 0 code time i a b w) := by
  refine State.Queues.trans (z.enqueue_queues
      { code, time, index := i, a := a % 2 ^ 32, b := b % 2 ^ 32, follow := w, snapSet := snapFor z 0 code, snap := none }) ?_
  exact .of_ldg rfl

theorem State.capFreeze_queues (src stall : Nat) : z.Queues (z.capFreeze src stall) := by
  unfold State.capFreeze
  split
  · exact .of_ldg rfl
  · refine State.Queues.trans ?_ (State.queueRec_queues ..)
    exact .of_ldg rfl

end

/-- A record of the SYS partition with its stamp (R466). -/
def State.record (z : State) (code i a b : Nat) (w : Bytes) : LdgRec :=
  { code, time := z.mt, index := i, a := a % 2 ^ 32, b := b % 2 ^ 32, follow := w, snapSet := snapFor z 0 code, snap := none }

theorem State.log_joins (z : State) {code : Nat} (h : partOfCode code = 0) (i a b : Nat) (w : Bytes) :
    ∃ y : State, y.ldg = (z.enqueue 0 (z.record code i a b w)).ldg ∧ y.Queues (z.log code i a b w) := by
  unfold State.log State.logAt
  rw [h]
  refine ⟨z.queueRec 0 code z.mt i a b w, rfl, ?_⟩
  dsimp only
  split
  · exact State.capFreeze_queues ..
  · exact .of_ldg rfl

theorem State.log_queues (z : State) {code : Nat} (h : partOfCode code = 0) (i a b : Nat) (w : Bytes) : z.Queues (z.log code i a b w) := by
  obtain ⟨y, joined, rest⟩ := z.log_joins h i a b w
  exact ((z.enqueue_queues _).trans (.of_ldg joined)).trans rest

theorem State.log_first (z : State) {code : Nat} (h : partOfCode code = 0) (i a b : Nat) (w : Bytes) (room : z.ldg.parts[(0 : Fin 3)].queue.length <
    64) :
    ∃ rest, (z.log code i a b w).ldg.parts[(0 : Fin 3)].queue = z.ldg.parts[(0 : Fin 3)].queue ++ z.record code i a b w :: rest := by
  obtain ⟨y, joined, rest⟩ := z.log_joins h i a b w
  obtain ⟨l, hl⟩ := rest.queue
  refine ⟨l, ?_⟩
  rw [hl, joined, State.enqueue_joins _ _ (show queueRoom z 0 = true from decide_eq_true room), List.append_assoc]
  rfl

/-- The answer to an access queues at most the record of a violation. -/
theorem State.answered_queues (z : State) (m : Master) (w : Bool) (addr : Nat) (a : Answer) : z.Queues (z.answered m w addr a) := by
  unfold State.answered
  dsimp only
  split
  · unfold State.violates
    dsimp only
    split
    · exact .of_ldg rfl
    · refine State.Queues.trans ?_ (State.log_queues _ (code := 0x0B01) (by decide) ..)
      exact .of_ldg rfl
  · exact .of_ldg rfl

/-! ## Records written and refused (R463, R464, R470) -/

theorem State.setPart_here (z : State) (p : Fin 3) (f : Partition → Partition) : (z.setPart p f).ldg.parts[p] = f z.ldg.parts[p] := vupd_here ..

theorem State.setPart_other (z : State) {p q : Fin 3} (f : Partition → Partition) (h : q ≠ p) : (z.setPart p f).ldg.parts[q] = z.ldg.parts[q] :=
  vupd_other _ _ _ _ (Ne.symm h)

/-- The charge of a record leaves the ledger, the time and SUM14. -/
theorem State.chargeLedger_keeps (z : State) (p : Fin 3) (n : Nat) : (z.chargeLedger p n).ldg = z.ldg ∧ (z.chargeLedger p n).mt = z.mt ∧
    (z.chargeLedger p n).host = z.host := by
  unfold State.chargeLedger
  split <;> exact ⟨rfl, rfl, rfl⟩

section
variable (P : Partition) (mt size : Nat) (r : LdgRec)

theorem Partition.take_gen : (P.take mt size r).gen = P.gen := by
  unfold Partition.take
  split
  · rfl
  · split <;> rfl

variable {P}

theorem Partition.take_full (h : P.full = true) : P.take mt size r = { P with fullDrop := satInc 16 P.fullDrop, dropped := true } := if_pos h

theorem Partition.take_fits (h : P.full = false) (fits : P.fill + recLen r ≤ size - 32) :
    P.take mt size r = { P.put P.fill r P.dropped with fill := P.fill + recLen r } := by
  unfold Partition.take
  rw [if_neg (ne_true_of_eq_false h), if_pos fits]

theorem Partition.take_fills (h : P.full = false) (full : size - 32 < P.fill + recLen r) : P.take mt size r =
    { P.put (size - 32) (fullRec mt P r.code) P.dropped with full := true, fill := size, fullDrop := satInc 16 P.fullDrop, dropped := true } := by
  unfold Partition.take
  rw [if_neg (ne_true_of_eq_false h), if_neg (Nat.not_le.2 full)]

theorem Partition.take_seq (h : P.full = false) : (P.take mt size r).seq = (P.seq + 1) % 2 ^ 32 := by
  by_cases fits : P.fill + recLen r ≤ size - 32
  · rw [Partition.take_fits mt size r h fits]
    rfl
  · rw [Partition.take_fills mt size r h (Nat.not_le.1 fits)]
    rfl

end

/-- What the write of the oldest record leaves. -/
theorem State.writeHead_leaves (z : State) (p : Fin 3) {r : LdgRec} {rest : List LdgRec} (h : z.ldg.parts[p].queue = r :: rest) :
    (z.writeHead p).ldg.parts[p] = { z.ldg.parts[p].take z.mt (partSize p) r with queue := rest } ∧
    (∀ q : Fin 3, q ≠ p → (z.writeHead p).ldg.parts[q] = z.ldg.parts[q]) ∧
    (z.ldg.parts[p].full = true → (z.writeHead p).host.sum = z.host.sum) ∧
    (z.ldg.parts[p].full = false → (z.writeHead p).host.sum[14] =
      if (z.ldg.parts[p].take z.mt (partSize p) r).full then wrapInc 32 (wrapInc 32 z.host.sum[14]) else wrapInc 32 z.host.sum[14]) := by
  have written : z.writeHead p = let y := (z.setPart p fun P => { P.take z.mt (partSize p) r with queue := rest }).bumpIf (!z.ldg.parts[p].full) 14
      y.bumpIf (!z.ldg.parts[p].full && y.ldg.parts[p].full) 14 := by
    unfold State.writeHead
    simp only [h]
  have here := z.setPart_here p fun P => { P.take z.mt (partSize p) r with queue := rest }
  rw [written]
  dsimp only
  rw [State.bumpIf_ldg, State.bumpIf_ldg, here]
  refine ⟨rfl, fun q hq => z.setPart_other _ hq, fun full => ?_, fun full => ?_⟩
  · rw [full]
    rfl
  · rw [full]
    cases (z.ldg.parts[p].take z.mt (partSize p) r).full
    · exact vupd_here z.host.sum 14 (wrapInc 32)
    · exact (vupd_here (vupd z.host.sum 14 (wrapInc 32)) 14 (wrapInc 32)).trans (congrArg (wrapInc 32) (vupd_here ..))

section
variable {s : State} {t : Nat} (hl : s.live = true)
include hl

theorem ledgerRecordWrite_idle {p : Fin 3} (h : s.ldg.parts[p].queue = []) : exec (.ledgerRecordWrite t p) s = .next (s.arrive t) := by
  rw [exec_live hl rfl]
  simp only [State.arrive_ldg, h]

section
variable {p : Fin 3} {r : LdgRec} {rest : List LdgRec} (h : s.ldg.parts[p].queue = r :: rest)
include h

theorem ledgerRecordWrite_next : exec (.ledgerRecordWrite t p) s = .next
    (if snapDue r || decide (s.ledgerShare p < recLen r ∧ s.spareFor (ledgerPlace p) < recLen r) then s.arrive t
    else ((s.arrive t).chargeLedger p (recLen r)).writeHead p) := by
  rw [exec_live hl rfl]
  simp only [State.arrive_ldg, h]
  rfl

theorem ledgerRecordWrite_waits (hw : snapDue r = true ∨ ¬(recLen r ≤ s.ledgerShare p ∨ recLen r ≤ s.spareFor (ledgerPlace p))) :
    exec (.ledgerRecordWrite t p) s = .next (s.arrive t) := by
  rw [ledgerRecordWrite_next hl h, if_pos]
  rcases hw with hw | hw
  · rw [hw, Bool.true_or]
  · have none : s.ledgerShare p < recLen r ∧ s.spareFor (ledgerPlace p) < recLen r := by omega
    rw [decide_eq_true none, Bool.or_true]

theorem ledgerRecordWrite_writes (hd : snapDue r = false) (room : recLen r ≤ s.ledgerShare p ∨ recLen r ≤ s.spareFor (ledgerPlace p)) :
    Completes (.ledgerRecordWrite t p) s fun u =>
      u.ldg.parts[p] = { s.ldg.parts[p].take (s.arrive t).mt (partSize p) r with queue := rest } ∧ (∀ q : Fin 3, q ≠ p → u.ldg.parts[q] =
          s.ldg.parts[q]) ∧
      (s.ldg.parts[p].full = true → u.host.sum = s.host.sum) ∧
      (s.ldg.parts[p].full = false → u.host.sum[14] =
        if (s.ldg.parts[p].take (s.arrive t).mt (partSize p) r).full then wrapInc 32 (wrapInc 32 s.host.sum[14]) else wrapInc 32 s.host.sum[14]) := by
  refine Completes.of (ledgerRecordWrite_next hl h) ?_
  have some : ¬(s.ledgerShare p < recLen r ∧ s.spareFor (ledgerPlace p) < recLen r) := by omega
  rw [hd, decide_eq_false some, if_neg (by decide)]
  obtain ⟨ldg, mt, host⟩ := (s.arrive t).chargeLedger_keeps p (recLen r)
  have left := ((s.arrive t).chargeLedger p (recLen r)).writeHead_leaves p (by rw [ldg]; exact h)
  rw [ldg, mt, host] at left
  exact left

theorem ledgerRecordWrite_settles (hd : snapDue r = false) (room : recLen r ≤ s.ledgerShare p ∨ recLen r ≤ s.spareFor (ledgerPlace p)) :
    Completes (.ledgerRecordWrite t p) s fun u =>
      let P := s.ldg.parts[p]
      let size := partSize p
      let Q := u.ldg.parts[p]
      Q.queue = rest ∧ Q.gen = P.gen ∧ (∀ q : Fin 3, q ≠ p → u.ldg.parts[q] = s.ldg.parts[q]) ∧
      (P.full = true → Q.fullDrop = satInc 16 P.fullDrop ∧ Q.fill = P.fill ∧ Q.seq = P.seq ∧ Q.mem = P.mem ∧ Q.full = true ∧ u.host.sum = s.host.sum)
          ∧
      (P.full = false → u.host.sum[14] = (if Q.full then wrapInc 32 (wrapInc 32 s.host.sum[14]) else wrapInc 32 s.host.sum[14]) ∧ Q.seq = (P.seq + 1)
          % 2 ^ 32) ∧
      (P.full = false → P.fill + recLen r ≤ size - 32 → Q.fill = P.fill + recLen r ∧ Q.mem = memWrites P.mem P.fill (recBytes r (P.seq + 1) P.gen
          P.dropped) ∧
        Q.full = false ∧ Q.fullDrop = P.fullDrop ∧ Q.dropped = false) ∧
      (P.full = false → size - 32 < P.fill + recLen r → Q.fill = size ∧
        Q.mem = memWrites P.mem (size - 32) (recBytes (fullRec (s.arrive t).mt P r.code) (P.seq + 1) P.gen P.dropped) ∧
        Q.full = true ∧ Q.fullDrop = satInc 16 P.fullDrop ∧ Q.dropped = true) := by
  obtain ⟨u, next, part, others, same, counts⟩ := ledgerRecordWrite_writes (t := t) hl h hd room
  refine ⟨u, next, ?_⟩
  dsimp only
  rw [part]
  dsimp only
  refine ⟨rfl, Partition.take_gen .., others, fun full => ?_, fun open' => ⟨counts open', Partition.take_seq _ _ _ open'⟩, fun open' fits => ?_, fun
      open' fills => ?_⟩
  · rw [Partition.take_full _ _ _ full]
    exact ⟨rfl, rfl, rfl, rfl, full, same full⟩
  · rw [Partition.take_fits _ _ _ open' fits]
    dsimp only [Partition.put]
    exact ⟨rfl, rfl, open', rfl, rfl⟩
  · rw [Partition.take_fills _ _ _ open' fills]
    dsimp only [Partition.put]
    exact ⟨rfl, rfl, rfl, rfl, rfl⟩

end

/-! ## Snapshots (R468) -/

theorem snapshotRead_busy (h : idleAfter (s.arrive t) t = none) : exec (.snapshotRead t) s = .next (s.arrive t) := by
  rw [exec_live hl rfl]
  simp only [h]

theorem snapshotRead_captures {d : Nat} (h : idleAfter (s.arrive t) t = some d) : exec (.snapshotRead t) s =
    .next { s.arrive t with ldg := { s.ldg with parts := vmap (fun _ P => { P with queue := P.queue.map (captured (s.arrive t) d) }) s.ldg.parts } }
        := by
  rw [exec_live hl rfl]
  simp only [h]
  rfl

omit hl in
theorem idleAfter_stopped (h : s.running = false) : idleAfter (s.arrive t) t = if t % 1000000 = 0 then some t else none := by
  unfold idleAfter
  dsimp only
  rw [show (s.arrive t).running = false from h]
  rfl

end

/-! ## Marks and clears (R473, R474) -/

section
variable {s : State} {t : Nat} {m : Master} (hl : s.live = true) (hs : s.serves m = true)
include hl hs

theorem mark_queues : Completes (.mark t m) s fun u => u.host.answer = okAnswer ∧ u.ldg.parts[(0 : Fin 3)].fill = s.ldg.parts[(0 : Fin 3)].fill ∧
    u.ldg.parts[(0 : Fin 3)].mem = s.ldg.parts[(0 : Fin 3)].mem ∧ u.ldg.parts[(1 : Fin 3)] = s.ldg.parts[(1 : Fin 3)] ∧
    (s.ldg.parts[(0 : Fin 3)].queue.length < 64 → ∃ rest, u.ldg.parts[(0 : Fin 3)].queue = s.ldg.parts[(0 : Fin 3)].queue ++
      { code := 0x0B02, time := (s.arrive t).mt, index := masterCode m, a := s.ldg.markA % 2 ^ 32, b := s.ldg.markB % 2 ^ 32, follow := [],
        snapSet := snapFor (s.arrive t) 0 0x0B02, snap := none } :: rest) := by
  refine Completes.served hl hs rfl fun u e => ?_
  have part : partOfCode 0x0B02 = 0 := by decide
  have queues := (s.arrive t).log_queues part (masterCode m) s.ldg.markA s.ldg.markB []
  have first := (s.arrive t).log_first part (masterCode m) s.ldg.markA s.ldg.markB []
  have marked : u = (s.arrive t).log 0x0B02 (masterCode m) s.ldg.markA s.ldg.markB [] := e.symm
  rw [← marked] at queues first
  exact ⟨rfl, queues.fill, queues.mem, queues.others 1 (by decide), first⟩

theorem clear_next {c : Instr} {p : Fin 3}
    (e : exec c s = .next (whenLive t (fun s => s.command m (ldgAddr 0) (firstOf (foreign s m) (clearRefusal s m p)) fun s => s.clearPart m p) s)) :
    exec c s = .next ((s.arrive t).command m (ldgAddr 0) (clearRefusal (s.arrive t) m p) fun s => s.clearPart m p) := by
  rw [exec_live hl e, foreign_none (s := s.arrive t) hs, firstOf_none]

/-- A clear without its unlock queues the violation alone. -/
theorem clear_locked {c : Instr} {p : Fin 3}
    (e : exec c s = .next (whenLive t (fun s => s.command m (ldgAddr 0) (firstOf (foreign s m) (clearRefusal s m p)) fun s => s.clearPart m p) s))
    (hk : clearLock (s.arrive t) m p = some ⟨.locked, .none⟩) : ∃ u, exec c s = .next u ∧ u.host.answer = ⟨.locked, .none⟩ ∧ s.Queues u := by
  have held : clearRefusal (s.arrive t) m p = some ⟨.locked, .none⟩ := by
    unfold clearRefusal
    rw [hk] <;> rfl
  rw [clear_next hl hs e, held, State.command_some]
  refine ⟨_, rfl, State.answered_answer .., State.Queues.trans ?_ (State.answered_queues ..)⟩
  exact .of_ldg rfl

theorem clear_unread {c : Instr} {p : Fin 3}
    (e : exec c s = .next (whenLive t (fun s => s.command m (ldgAddr 0) (firstOf (foreign s m) (clearRefusal s m p)) fun s => s.clearPart m p) s))
    (hk : clearLock (s.arrive t) m p = none) (hn : s.ldg.parts[p].seq ≠ s.ldg.clrUpto) : exec c s = .next
        { s.arrive t with host := { s.host with answer := deny .state } } := by
  have held : clearRefusal (s.arrive t) m p = some (deny .state) := by
    unfold clearRefusal
    rw [hk, firstOf_none, refuseIf_true (show ((s.arrive t).ldg.parts[p].seq != (s.arrive t).ldg.clrUpto) = true from bne_iff_ne.2 hn)] <;> rfl
  rw [clear_next hl hs e, held, State.command_some]
  rfl

theorem clear_effect {c : Instr} {p : Fin 3}
    (e : exec c s = .next (whenLive t (fun s => s.command m (ldgAddr 0) (firstOf (foreign s m) (clearRefusal s m p)) fun s => s.clearPart m p) s))
    (hk : clearLock (s.arrive t) m p = none) (hn : s.ldg.parts[p].seq = s.ldg.clrUpto) (hp : s.pwr.pfw = false) :
    ∃ u, exec c s = .next u ∧ u.host.answer = okAnswer ∧ u.ldg = ((s.arrive t).clearPart m p).ldg := by
  have free : clearRefusal (s.arrive t) m p = none := by
    unfold clearRefusal pfwRefusal
    rw [hk, firstOf_none, refuseIf_false (show ((s.arrive t).ldg.parts[p].seq != (s.arrive t).ldg.clrUpto) = false from bne_eq_false_iff_eq.2 hn),
        firstOf_none, refuseIf_false (by exact hp)]
  rw [clear_next hl hs e, free, State.command_none]
  exact ⟨_, rfl, rfl, rfl⟩

omit hl hs in
theorem clearLock_closed {p : Fin 3} (h : (if p = 0 then s.lock.st == .unlocked && s.lock.owner == m else s.saf.unlock.st == .unlocked) = false) :
    clearLock (s.arrive t) m p = some ⟨.locked, .none⟩ := refuseIf_true (congrArg (!·) h) _

omit hl hs in
theorem clearLock_open {p : Fin 3} (h : (if p = 0 then s.lock.st == .unlocked && s.lock.owner == m else s.saf.unlock.st == .unlocked) = true) :
    clearLock (s.arrive t) m p = none := refuseIf_false (congrArg (!·) h) _

end

/-- The partition a clear leaves, its first record written. -/
def Partition.cleared (P : Partition) (r : LdgRec) : Partition :=
  { ({ P with gen := (P.gen + 1) % 65536, fill := 0, full := false, qDrop := 0, fullDrop := 0 } : Partition).put 0 r (P.dropped || P.qDrop != 0 ||
      P.fullDrop != 0) with fill := 32 }

/-- The ledger after a clear, before its record. -/
def State.partCleared (z : State) (m : Master) (p : Fin 3) : State :=
  ((z.setPart p fun P => P.cleared (clearRec z m p)).bump 14).bumpIf z.ldg.parts[p].full 14

theorem State.clearPart_eq (z : State) (m : Master) (p : Fin 3) : z.clearPart m p =
    if p = 1 then (z.partCleared m p).log 0x0E03 (masterCode m) (clearRec z m p).a (clearRec z m p).b else z.partCleared m p := rfl

theorem State.partCleared_parts (z : State) (m : Master) (p : Fin 3) : (z.partCleared m p).ldg.parts[p] = z.ldg.parts[p].cleared (clearRec z m p) ∧
    ∀ q : Fin 3, q ≠ p → (z.partCleared m p).ldg.parts[q] = z.ldg.parts[q] := by
  unfold State.partCleared
  rw [State.bumpIf_ldg, State.bump_ldg]
  exact ⟨z.setPart_here .., fun q hq => z.setPart_other _ hq⟩

theorem Partition.cleared_fields (P : Partition) (r : LdgRec) : (P.cleared r).gen = (P.gen + 1) % 65536 ∧ (P.cleared r).fill = 32 ∧ (P.cleared
    r).full = false ∧
    (P.cleared r).qDrop = 0 ∧ (P.cleared r).fullDrop = 0 ∧ (P.cleared r).seq = (P.seq + 1) % 2 ^ 32 ∧
    (P.cleared r).mem = memWrites P.mem 0 (recBytes r (P.seq + 1) ((P.gen + 1) % 65536) (P.dropped || P.qDrop != 0 || P.fullDrop != 0)) := by
  dsimp only [Partition.cleared, Partition.put]
  exact ⟨rfl, rfl, rfl, rfl, rfl, rfl, rfl⟩

section
variable {s : State} {t : Nat} {m : Master} (hl : s.live = true) (hs : s.serves m = true)
include hl hs

theorem clrSys_locked : Completes (.clrSys t m) s fun u => (s.lock.st ≠ .unlocked ∨ s.lock.owner ≠ m) → u.host.answer = ⟨.locked, .none⟩ ∧
    u.ldg.parts[(0 : Fin 3)].fill = s.ldg.parts[(0 : Fin 3)].fill ∧ u.ldg.parts[(0 : Fin 3)].gen = s.ldg.parts[(0 : Fin 3)].gen ∧
    u.ldg.parts[(0 : Fin 3)].mem = s.ldg.parts[(0 : Fin 3)].mem := by
  by_cases h : s.lock.st ≠ .unlocked ∨ s.lock.owner ≠ m
  · have closed : (s.lock.st == .unlocked && s.lock.owner == m) = false := by
      rcases h with h | h
      · rw [beq_eq_false_iff_ne.2 h, Bool.false_and]
      · rw [beq_eq_false_iff_ne.2 h, Bool.and_false]
    obtain ⟨u, next, answer, queues⟩ := clear_locked (c := .clrSys t m) (p := 0) hl hs rfl (clearLock_closed (t := t) (m := m) (p := 0) closed)
    exact ⟨u, next, fun _ => ⟨answer, queues.fill, queues.gen, queues.mem⟩⟩
  · exact Completes.live hl rfl fun e => absurd e h

theorem clrSaf_locked : Completes (.clrSaf t m) s fun u => s.saf.unlock.st ≠ .unlocked → u.host.answer = ⟨.locked, .none⟩ ∧
    u.ldg.parts[(1 : Fin 3)] = s.ldg.parts[(1 : Fin 3)] := by
  by_cases h : s.saf.unlock.st = .unlocked
  · exact Completes.live hl rfl fun e => absurd h e
  · obtain ⟨u, next, answer, queues⟩ := clear_locked (c := .clrSaf t m) (p := 1) hl hs rfl (clearLock_closed (t := t) (m := m) (p := 1)
      (beq_eq_false_iff_ne.2 h))
    exact ⟨u, next, fun _ => ⟨answer, queues.others 1 (by decide)⟩⟩

section
variable (hu : s.lock.st = .unlocked) (ho : s.lock.owner = m)
include hu ho

omit hl hs in
theorem clearLock_sys : clearLock (s.arrive t) m 0 = none :=
  clearLock_open (p := 0) (show (s.lock.st == .unlocked && s.lock.owner == m) = true by rw [hu, ho]; simp)

theorem clrSys_clears (hn : s.ldg.parts[(0 : Fin 3)].seq = s.ldg.clrUpto) (hp : s.pwr.pfw = false) : Completes (.clrSys t m) s fun u =>
    u.host.answer = okAnswer ∧ u.ldg.parts[(0 : Fin 3)] = s.ldg.parts[(0 : Fin 3)].cleared (clearRec (s.arrive t) m 0) ∧
    u.ldg.parts[(1 : Fin 3)] = s.ldg.parts[(1 : Fin 3)] := by
  obtain ⟨u, next, answer, ldg⟩ := clear_effect (c := .clrSys t m) (p := 0) hl hs rfl (clearLock_sys (t := t) hu ho) hn hp
  obtain ⟨here, others⟩ := (s.arrive t).partCleared_parts m 0
  rw [State.clearPart_eq, if_neg (by decide)] at ldg
  refine ⟨u, next, answer, ?_⟩
  rw [ldg]
  exact ⟨here, others 1 (by decide)⟩

end

theorem clrSaf_clears (hu : s.saf.unlock.st = .unlocked) (hn : s.ldg.parts[(1 : Fin 3)].seq = s.ldg.clrUpto) (hp : s.pwr.pfw = false) :
    Completes (.clrSaf t m) s fun u => u.host.answer = okAnswer ∧ u.ldg.parts[(1 : Fin 3)] = s.ldg.parts[(1 : Fin 3)].cleared (clearRec (s.arrive t)
        m 1) ∧
    u.ldg.parts[(0 : Fin 3)].mem = s.ldg.parts[(0 : Fin 3)].mem ∧
    (s.ldg.parts[(0 : Fin 3)].queue.length < 64 → ∃ rest r, u.ldg.parts[(0 : Fin 3)].queue = s.ldg.parts[(0 : Fin 3)].queue ++ r :: rest ∧
      r.code = 0x0E03 ∧ r.index = masterCode m) := by
  obtain ⟨u, next, answer, ldg⟩ := clear_effect (c := .clrSaf t m) (p := 1) hl hs rfl (clearLock_open (t := t) (m := m) (p := 1) (show
      (s.saf.unlock.st == .unlocked) = true by rw [hu]; rfl)) hn hp
  obtain ⟨here, others⟩ := (s.arrive t).partCleared_parts m 1
  have part : partOfCode 0x0E03 = 0 := by decide
  rw [State.clearPart_eq, if_pos rfl] at ldg
  generalize (s.arrive t).partCleared m 1 = z at here others ldg
  have queues := z.log_queues part (masterCode m) (clearRec (s.arrive t) m 1).a (clearRec (s.arrive t) m 1).b []
  have first := z.log_first part (masterCode m) (clearRec (s.arrive t) m 1).a (clearRec (s.arrive t) m 1).b []
  have sys : z.ldg.parts[(0 : Fin 3)] = s.ldg.parts[(0 : Fin 3)] := others 0 (by decide)
  refine ⟨u, next, answer, ?_⟩
  rw [ldg]
  refine ⟨(queues.others 1 (by decide)).trans here, queues.mem.trans (by rw [sys]), fun room => ?_⟩
  obtain ⟨rest, joined⟩ := first (by rw [sys]; exact room)
  exact ⟨rest, _, joined.trans (by rw [sys]), rfl, rfl⟩

end

/-- Settles O60. -/
theorem ledgerCommands : Obligations.LedgerCommands := by
  intro s t m hl
  refine ⟨fun p r rest h => ⟨ledgerRecordWrite_waits hl h, ledgerRecordWrite_settles hl h⟩, fun p => ledgerRecordWrite_idle hl, snapshotRead_busy hl,
    fun d => snapshotRead_captures hl, idleAfter_stopped, fun hs => ⟨mark_queues hl hs, clrSys_locked hl hs, fun hu ho => ⟨?_, fun hn hp => ?_⟩,
        clrSaf_locked hl hs,
      fun hu => ⟨?_, fun hn hp => ?_⟩⟩⟩
  · exact clear_unread (p := 0) hl hs rfl (clearLock_sys hu ho)
  · obtain ⟨u, next, answer, here, other⟩ := clrSys_clears (t := t) hl hs hu ho hn hp
    refine ⟨u, next, answer, ?_, other⟩
    rw [here]
    exact Partition.cleared_fields ..
  · exact clear_unread (p := 1) hl hs rfl (clearLock_open (p := 1) (show (s.saf.unlock.st == .unlocked) = true by rw [hu]; rfl))
  · obtain ⟨u, next, answer, here, mem, queue⟩ := clrSaf_clears (t := t) hl hs hu hn hp
    refine ⟨u, next, answer, ?_, mem, queue⟩
    rw [here]
    exact Partition.cleared_fields ..

end Sys2Proof.Machine
end

section
/-! PROOFS. The canonical form of the sparse memories, block by block, and what keeps it. -/
namespace Sys2Proof.Machine

/-! ## The blocks that hold memories -/

/-- The memory of every profile slot is in canonical form. -/
def Profile.MemsWf (p : Profile) : Prop := ∀ i : Fin 4, Memory.wf p.slots[i].mem = true

/-- The memory of the metrology partition is in canonical form. -/
def Metrology.MemsWf (m : Metrology) : Prop := Memory.wf m.core = true

/-- The two windows of KEY are in canonical form. -/
def Vault.MemsWf (v : Vault) : Prop := Memory.wf v.blobWin = true ∧ Memory.wf v.attestWin = true

/-- The chunk window of UPD is in canonical form. -/
def Update.MemsWf (u : Update) : Prop := Memory.wf u.chunkWin = true

/-- A transmit-at-time buffer holds its data and the data to be loaded in canonical form. -/
def TatBuf.MemsWf (x : TatBuf) : Prop := Memory.wf x.shadow = true ∧ Memory.wf x.data = true

/-- The data of every mailbox and of every transmit-at-time buffer is in canonical form. -/
def SiteBus.MemsWf (b : SiteBus) : Prop := (∀ i : Fin 8, Memory.wf b.boxes[i].data = true) ∧ ∀ i : Fin 4, b.tats[i].MemsWf

/-- The memory of every ledger partition is in canonical form. -/
def LedgerBlock.MemsWf (l : LedgerBlock) : Prop := ∀ i : Fin 3, Memory.wf l.parts[i].mem = true

/-- Every sparse memory of the state is in canonical form, block by block: `State.memsWf` as a proposition (State.memsWf_iff). -/
structure State.MemsWf (s : State) : Prop where
  prof : s.prof.MemsWf
  met : s.met.MemsWf
  vault : s.vault.MemsWf
  upd : s.upd.MemsWf
  sbus : s.sbus.MemsWf
  ldg : s.ldg.MemsWf

theorem vector_all_iff {α : Type} {n : Nat} (v : Vector α n) (p : α → Bool) : v.toList.all p = true ↔ ∀ i : Fin n, p v[i] = true := by
  rw [List.all_eq_true]
  constructor
  · exact fun h i => h _ (Vector.mem_toList_iff.2 (Vector.getElem_mem i.isLt))
  · intro h x hx
    obtain ⟨i, hi, rfl⟩ := Vector.mem_iff_getElem.1 (Vector.mem_toList_iff.1 hx)
    exact h ⟨i, hi⟩

theorem State.memsWf_iff (s : State) : s.memsWf = true ↔ s.MemsWf := by
  simp only [State.memsWf, Bool.and_eq_true, vector_all_iff]
  constructor
  · rintro ⟨⟨⟨⟨⟨⟨⟨prof, ldg⟩, met⟩, blob⟩, attest⟩, upd⟩, boxes⟩, tats⟩
    exact ⟨prof, met, ⟨blob, attest⟩, upd, ⟨boxes, tats⟩, ldg⟩
  · rintro ⟨prof, met, ⟨blob, attest⟩, upd, ⟨boxes, tats⟩, ldg⟩
    exact ⟨⟨⟨⟨⟨⟨⟨prof, ldg⟩, met⟩, blob⟩, attest⟩, upd⟩, boxes⟩, tats⟩

/-! ## One block replaced -/

section
variable {t : State}

theorem State.MemsWf.putProf {x : Profile} (h : t.MemsWf) (k : t.prof.MemsWf → x.MemsWf) : { t with prof := x }.MemsWf :=
  { h with prof := k h.prof }

theorem State.MemsWf.putMet {x : Metrology} (h : t.MemsWf) (k : t.met.MemsWf → x.MemsWf) : { t with met := x }.MemsWf :=
  { h with met := k h.met }

theorem State.MemsWf.putVault {x : Vault} (h : t.MemsWf) (k : t.vault.MemsWf → x.MemsWf) : { t with vault := x }.MemsWf :=
  { h with vault := k h.vault }

theorem State.MemsWf.putUpd {x : Update} (h : t.MemsWf) (k : t.upd.MemsWf → x.MemsWf) : { t with upd := x }.MemsWf :=
  { h with upd := k h.upd }

theorem State.MemsWf.putSbus {x : SiteBus} (h : t.MemsWf) (k : t.sbus.MemsWf → x.MemsWf) : { t with sbus := x }.MemsWf :=
  { h with sbus := k h.sbus }

theorem State.MemsWf.putLdg {x : LedgerBlock} (h : t.MemsWf) (k : t.ldg.MemsWf → x.MemsWf) : { t with ldg := x }.MemsWf :=
  { h with ldg := k h.ldg }

/-- A state that takes its six blocks with memories from `t`, each by a function that keeps the form. -/
theorem State.MemsWf.move {u : State} (h : t.MemsWf) (prof : t.prof.MemsWf → u.prof.MemsWf) (met : t.met.MemsWf → u.met.MemsWf)
    (vault : t.vault.MemsWf → u.vault.MemsWf) (upd : t.upd.MemsWf → u.upd.MemsWf) (sbus : t.sbus.MemsWf → u.sbus.MemsWf)
    (ldg : t.ldg.MemsWf → u.ldg.MemsWf) : u.MemsWf :=
  ⟨prof h.prof, met h.met, vault h.vault, upd h.upd, sbus h.sbus, ldg h.ldg⟩

end

/-! ## What leaves the blocks with memories as they are -/

/-- The six blocks that hold memories. -/
def State.memBlocks (s : State) : Profile × Metrology × Vault × Update × SiteBus × LedgerBlock := (s.prof, s.met, s.vault, s.upd, s.sbus, s.ldg)

/-- A state with the six blocks of `t`. -/
theorem State.MemsWf.keep {t u : State} (h : t.MemsWf) (e : u.memBlocks = t.memBlocks := by rfl) : u.MemsWf := by
  simp only [State.memBlocks, Prod.mk.injEq] at e
  obtain ⟨prof, met, vault, upd, sbus, ldg⟩ := e
  exact h.move (fun w => prof ▸ w) (fun w => met ▸ w) (fun w => vault ▸ w) (fun w => upd ▸ w) (fun w => sbus ▸ w) fun w => ldg ▸ w

theorem LedgerBlock.MemsWf.of_rest {l m : LedgerBlock} (e : m.rest = l.rest) (h : l.MemsWf) : m.MemsWf := by
  intro i
  have parts := congrArg (fun x : LedgerBlock => x.parts[i].mem) e
  simp only [LedgerBlock.rest, vmap_get] at parts
  rw [parts]
  exact h i

/-- The frame names a block with a memory. -/
def touchesMems (cs : Block → Bool) : Bool := cs .prof || cs .met || cs .vault || cs .upd || cs .sbus || cs .ldg

/-- What changes no block with a memory keeps the form. -/
theorem State.MemsWf.framed {cs : Block → Bool} {t u : State} (h : t.MemsWf) (o : OnlyIn cs t u) (hc : touchesMems cs = false) : u.MemsWf := by
  simp only [touchesMems, Bool.or_eq_false_iff] at hc
  obtain ⟨⟨⟨⟨⟨prof, met⟩, vault⟩, upd⟩, sbus⟩, ldg⟩ := hc
  refine h.move (fun w => ?_) (fun w => ?_) (fun w => ?_) (fun w => ?_) (fun w => ?_) fun w => w.of_rest (o.keeps_ldg ldg)
  · rwa [o.keeps_prof prof]
  · rwa [o.keeps_met met]
  · rwa [o.keeps_vault vault]
  · rwa [o.keeps_upd upd]
  · rwa [o.keeps_sbus sbus]

/-- The parts of the state without a memory. -/
def memFree : Block → Bool
  | .prof | .met | .vault | .upd | .sbus | .ldg => false
  | _ => true

/-- The frames of the architect (Laws/Frame) say of many functions that they stay in the parts without a memory. -/
theorem State.MemsWf.only {t u : State} (h : t.MemsWf) (o : OnlyIn memFree t u) : u.MemsWf := h.framed o rfl

/-! ## Choices, folds and pairs -/

section
variable {α β : Type} {c : Prop} {inst : Decidable c}

theorem State.MemsWf.ite {t u : State} (ht : t.MemsWf) (hu : u.MemsWf) : (if c then t else u).MemsWf := by split <;> assumption

theorem State.MemsWf.iteFst {p q : State × α} (ht : p.1.MemsWf) (hu : q.1.MemsWf) : (if c then p else q).1.MemsWf := by split <;> assumption

theorem State.MemsWf.iteSnd {p q : α × State} (ht : p.2.MemsWf) (hu : q.2.MemsWf) : (if c then p else q).2.MemsWf := by split <;> assumption

theorem State.MemsWf.iteSS {p q : α × β × State} (ht : p.2.2.MemsWf) (hu : q.2.2.MemsWf) : (if c then p else q).2.2.MemsWf := by
  split <;> assumption

theorem State.MemsWf.foldl {f : State → α → State} {t : State} {l : List α} (hf : ∀ t i, t.MemsWf → (f t i).MemsWf) (h : t.MemsWf) :
    (l.foldl f t).MemsWf := by
  induction l generalizing t with
  | nil => exact h
  | cons i l ih => exact ih (hf t i h)

theorem State.MemsWf.foldlFst {f : State × β → α → State × β} {q : State × β} {l : List α} (hf : ∀ q i, q.1.MemsWf → (f q i).1.MemsWf)
    (h : q.1.MemsWf) : (l.foldl f q).1.MemsWf := by
  induction l generalizing q with
  | nil => exact h
  | cons i l ih => exact ih (hf q i h)

theorem State.MemsWf.foldlSnd {f : β × State → α → β × State} {q : β × State} {l : List α} (hf : ∀ q i, q.2.MemsWf → (f q i).2.MemsWf)
    (h : q.2.MemsWf) : (l.foldl f q).2.MemsWf := by
  induction l generalizing q with
  | nil => exact h
  | cons i l ih => exact ih (hf q i h)

end

/-- The effect of a register word keeps the form. -/
def EffMems (e : RegEffect) : Prop := ∀ t : State, t.MemsWf → (e.2 t).MemsWf

/-- Where the word has an effect, it keeps the form. -/
def EffsMems (o : Option RegEffect) : Prop := ∀ e, o = some e → EffMems e

theorem EffMems.mk {a : Option Answer} {f : State → State} (hf : ∀ t, t.MemsWf → (f t).MemsWf) : EffMems (a, f) := hf

theorem EffMems.of {e : RegEffect} (he : EffIn memFree e) : EffMems e := fun t h => h.only (he t t (OnlyIn.refl _ t))

theorem EffMems.inRange {ok : Bool} {f : State → State} (hf : ∀ t, t.MemsWf → (f t).MemsWf) : EffMems (inRange ok f) := hf

section
variable {α : Type} {c : Prop} {inst : Decidable c}

theorem EffMems.ite {e f : RegEffect} (he : EffMems e) (hf : EffMems f) : EffMems (if c then e else f) := by split <;> assumption

theorem EffsMems.ite {e f : Option RegEffect} (he : EffsMems e) (hf : EffsMems f) : EffsMems (if c then e else f) := by split <;> assumption

theorem EffsMems.of {o : Option RegEffect} (ho : EffsIn memFree o) : EffsMems o := fun e h => .of (ho e h)

theorem EffsMems.some {e : RegEffect} (he : EffMems e) : EffsMems (some e) := fun _ h => Option.some.inj h ▸ he

theorem EffsMems.none : EffsMems Option.none := fun _ h => nomatch h

theorem EffsMems.map {o : Option α} {f : α → RegEffect} (hf : ∀ x, EffMems (f x)) : EffsMems (o.map f) := by
  cases o with
  | none => exact .none
  | some x => exact .some (hf x)

theorem EffsMems.bind {o : Option α} {f : α → Option RegEffect} (hf : ∀ x, EffsMems (f x)) : EffsMems (o.bind f) := by
  cases o with
  | none => exact .none
  | some x => exact hf x

end

/-! ## Vectors of memories -/

/-- An entry of a vector replaced: what holds of every entry still does, when the replacement keeps it. -/
theorem vupd_forall {α : Type} {n : Nat} {P : α → Prop} {v : Vector α n} (i : Fin n) {f : α → α} (k : ∀ x, P x → P (f x))
    (h : ∀ j : Fin n, P v[j]) (j : Fin n) : P (vupd v i f)[j] := by
  by_cases e : i = j
  · rw [← e, vupd_here]; exact k _ (h i)
  · rw [vupd_other v i j f e]; exact h j

theorem vmap_forall {α β : Type} {n : Nat} {P : β → Prop} {v : Vector α n} {f : Fin n → α → β} (k : ∀ i, P (f i v[i])) (j : Fin n) :
    P (vmap f v)[j] := by
  rw [vmap_get]
  exact k j

/-! ## What is written to a ledger partition -/

theorem Partition.put_memWf {P : Partition} (w : Memory.wf P.mem = true) (off : Nat) (r : LdgRec) (dropped : Bool) :
    Memory.wf (P.put off r dropped).mem = true := by
  simp only [Partition.put]
  exact memWrites_wf _ _ w

theorem Partition.take_memWf {P : Partition} (w : Memory.wf P.mem = true) (mt size : Nat) (r : LdgRec) : Memory.wf (P.take mt size r).mem = true := by
  unfold Partition.take
  split
  · exact w
  · have put := Partition.put_memWf w
    split
    · simp only [put]
    · simp only [put]

theorem Partition.adopt_memWf {P : Partition} (w : Memory.wf P.mem = true) (size n : Nat) : Memory.wf (P.adopt size n).mem = true := by
  induction n generalizing P with
  | zero => exact w
  | succ n ih =>
    unfold Partition.adopt
    split
    · exact ih w
    · exact w

/-! ## The setters of the blocks -/

section
variable {t : State}

theorem State.MemsWf.setSlot {i f} (h : t.MemsWf) (k : ∀ x : ProfSlot, Memory.wf x.mem = true → Memory.wf (f x).mem = true) : (t.setSlot i f).MemsWf
    :=
  h.putProf (vupd_forall (P := fun x : ProfSlot => Memory.wf x.mem = true) i k)

theorem State.MemsWf.setVault {f} (h : t.MemsWf) (k : ∀ x : Vault, x.MemsWf → (f x).MemsWf) : (t.setVault f).MemsWf := h.putVault (k _)

theorem State.MemsWf.setUpd {f} (h : t.MemsWf) (k : ∀ x : Update, x.MemsWf → (f x).MemsWf) : (t.setUpd f).MemsWf := h.putUpd (k _)

theorem State.MemsWf.setBus {f} (h : t.MemsWf) (k : ∀ x : SiteBus, x.MemsWf → (f x).MemsWf) : (t.setBus f).MemsWf := h.putSbus (k _)

theorem State.MemsWf.setBox {i f} (h : t.MemsWf) (k : ∀ x : Mailbox, Memory.wf x.data = true → Memory.wf (f x).data = true) : (t.setBox i f).MemsWf :=
  h.setBus fun _ w => ⟨vupd_forall (P := fun x : Mailbox => Memory.wf x.data = true) i k w.1, w.2⟩

theorem State.MemsWf.setTat {i f} (h : t.MemsWf) (k : ∀ x : TatBuf, x.MemsWf → (f x).MemsWf) : (t.setTat i f).MemsWf :=
  h.setBus fun _ w => ⟨w.1, vupd_forall i k w.2⟩

theorem State.MemsWf.setLdg {f} (h : t.MemsWf) (k : ∀ x : LedgerBlock, x.MemsWf → (f x).MemsWf) : (t.setLdg f).MemsWf := h.putLdg (k _)

theorem State.MemsWf.setPart {i f} (h : t.MemsWf) (k : ∀ x : Partition, Memory.wf x.mem = true → Memory.wf (f x).mem = true) : (t.setPart i f).MemsWf
    :=
  h.setLdg fun _ w => vupd_forall (P := fun x : Partition => Memory.wf x.mem = true) i k w

theorem State.MemsWf.forAll {n : Nat} {f : Fin n → State → State} (hf : ∀ i t, t.MemsWf → (f i t).MemsWf) (h : t.MemsWf) : (State.forAll n f
    t).MemsWf :=
  .foldl (fun t i => hf i t) h

end

end Sys2Proof.Machine
end

section
/-! PROOFS. Every operation of links, the lattice, stalls and safe stops keeps the sparse memories in canonical form: one lemma for each function of the
model, along its branches; a function that touches no block with a memory by its frame (Laws/Frame). -/
namespace Sys2Proof.Machine

theorem State.MemsWf.setStall {t : State} {n f} (h : t.MemsWf) : (t.setStall n f).MemsWf :=
  h.only (State.setStall_only (fun _ => ⟨.inl rfl, .inl rfl, .inl rfl⟩) (OnlyIn.refl _ _))

theorem State.MemsWf.setBay {t : State} {n f} (h : t.MemsWf) : (t.setBay n f).MemsWf :=
  h.only (State.setBay_only (fun _ => ⟨.inl rfl, .inl rfl, .inl rfl⟩) (OnlyIn.refl _ _))

theorem State.MemsWf.when {t : State} {c} {f : State → State} (hf : ∀ t, t.MemsWf → (f t).MemsWf) (h : t.MemsWf) : (t.when c f).MemsWf := by
  unfold State.when
  exact .ite (hf t h) h

theorem State.MemsWf.bump {t : State} {a1} (h : t.MemsWf) : (State.bump t a1).MemsWf := h.only (State.bump_only rfl (OnlyIn.refl _ _))

theorem State.MemsWf.log {t : State} {a1 a2 a3 a4 a5} (h : t.MemsWf) : (State.log t a1 a2 a3 a4 a5).MemsWf :=
  h.only (State.log_only rfl rfl rfl (OnlyIn.refl _ _))

theorem State.MemsWf.violates {t : State} {a1 a2 a3 a4} (h : t.MemsWf) : (State.violates t a1 a2 a3 a4).MemsWf :=
  h.only (State.violates_only rfl rfl rfl rfl (OnlyIn.refl _ _))

theorem State.MemsWf.answered {t : State} {a1 a2 a3 a4} (h : t.MemsWf) : (State.answered t a1 a2 a3 a4).MemsWf :=
  h.only (State.answered_only rfl rfl rfl rfl rfl (OnlyIn.refl _ _))

theorem State.MemsWf.arrive {t : State} {a1} (h : t.MemsWf) : (State.arrive t a1).MemsWf := h.only (State.arrive_only rfl (OnlyIn.refl _ _))

theorem State.MemsWf.bumpIf {t : State} {a1 a2} (h : t.MemsWf) : (State.bumpIf t a1 a2).MemsWf := h.only (State.bumpIf_only rfl (OnlyIn.refl _ _))

theorem State.MemsWf.command {t : State} {a1} {a2} {a3} {a4 : State → State} (hf : ∀ w, w.MemsWf → (a4 w).MemsWf) (h : t.MemsWf) : (State.command t
    a1 a2 a3 a4).MemsWf := by
  unfold State.command
  split
  · exact h.answered
  · exact .answered (hf _ h)

theorem State.MemsWf.drawBytes {t : State} {n} (h : t.MemsWf) : (t.drawBytes n).2.MemsWf := h.only (State.drawBytes_only rfl (OnlyIn.refl _ _))

theorem State.MemsWf.drawNat {t : State} (h : t.MemsWf) : (State.drawNat t).2.MemsWf := h.only (State.drawNat_only rfl (OnlyIn.refl _ _))

theorem State.MemsWf.elapse {t : State} {a1} (h : t.MemsWf) : (State.elapse t a1).MemsWf := h.only (State.elapse_only rfl (OnlyIn.refl _ _))

theorem State.MemsWf.refreshAssume {t : State} (h : t.MemsWf) : (State.refreshAssume t).MemsWf :=
  h.only (State.refreshAssume_only rfl rfl (OnlyIn.refl _ _))

theorem State.MemsWf.whenLive {t : State} {a0} {a1 : State → State} (hf : ∀ w, w.MemsWf → (a1 w).MemsWf) (h : t.MemsWf) : (whenLive a0 a1 t).MemsWf
    := by
  unfold Machine.whenLive
  exact .ite (hf _ h.arrive) h.elapse

theorem State.MemsWf.whenScanning {t : State} {a0} {a1 : State → State} (hf : ∀ w, w.MemsWf → (a1 w).MemsWf) (h : t.MemsWf) : (whenScanning a0 a1
    t).MemsWf := by
  unfold Machine.whenScanning
  exact .ite (hf _ h.arrive) h.elapse

theorem State.MemsWf.keyError {t : State} {a1} (h : t.MemsWf) : (State.keyError t a1).MemsWf := by
  unfold State.keyError
  exact .bumpIf (h.putVault fun w => w)

theorem State.MemsWf.putKey {t : State} {a1 a2} (h : t.MemsWf) : (State.putKey t a1 a2).MemsWf := by
  unfold State.putKey
  exact h.putVault fun w => w

theorem State.MemsWf.loadKey {t u : State} {k} (h : t.MemsWf) (e : t.loadKey k = some u) : u.MemsWf := by
  obtain ⟨i, _, rfl⟩ := Option.map_eq_some_iff.1 e
  exact h.putKey

theorem State.MemsWf.findKey {t : State} {a1} (h : t.MemsWf) : (State.findKey t a1).2.MemsWf := by
  unfold State.findKey
  split
  · exact h.putVault fun w => w
  · split
    · exact h.keyError
    · split
      · exact h.keyError
      · split
        · next e0 =>
            exact .bump (h.loadKey e0)
        · exact h.keyError

theorem State.MemsWf.keyRefused {t : State} {a1 a2} (h : t.MemsWf) : (State.keyRefused t a1 a2).MemsWf :=
  h.only (State.keyRefused_only rfl rfl rfl rfl (OnlyIn.refl _ _))

theorem State.MemsWf.noteUse {t : State} {a1 a2} (h : t.MemsWf) : (State.noteUse t a1 a2).MemsWf := by
  unfold State.noteUse
  split
  · exact h.putVault fun w => w
  · exact h

theorem State.MemsWf.remaskRound {t : State} (h : t.MemsWf) : (State.remaskRound t).MemsWf := by
  unfold State.remaskRound
  extract_lets +onlyGivenNames -merge -underBinder x0
  exact h.move id id id id id id

theorem State.MemsWf.serveUse {t : State} {a1 a2} (h : t.MemsWf) : (State.serveUse t a1 a2).MemsWf := by
  unfold State.serveUse
  refine .ite ?_ h.noteUse
  extract_lets +onlyGivenNames -merge -underBinder x0
  exact h.violates

theorem State.MemsWf.useKey {t : State} {a1 a2 a3} (h : t.MemsWf) : (State.useKey t a1 a2 a3).2.MemsWf := by
  unfold State.useKey
  extract_lets +onlyGivenNames -merge -underBinder x0
  have hx0 : x0.2.MemsWf := h.findKey
  split
  · exact .iteSnd hx0 hx0.keyRefused
  · exact hx0

theorem State.MemsWf.signatureServed {t : State} {a1 a2} (h : t.MemsWf) : (State.signatureServed t a1 a2).MemsWf := by
  unfold State.signatureServed
  extract_lets +onlyGivenNames -merge -underBinder x0
  exact .ite h.useKey h

theorem State.MemsWf.sendSeljo {t : State} {a1 a2 a3 a4} (h : t.MemsWf) : (State.sendSeljo t a1 a2 a3 a4).MemsWf :=
  h.only (State.sendSeljo_only rfl (OnlyIn.refl _ _))

theorem State.MemsWf.linkOff {t : State} {a1} (h : t.MemsWf) : (State.linkOff t a1).MemsWf := h.only (State.linkOff_only rfl rfl (OnlyIn.refl _ _))

theorem State.MemsWf.sendMstAll {t : State} (h : t.MemsWf) : (State.sendMstAll t).MemsWf :=
  h.only (State.sendMstAll_only (fun _ => rfl) (OnlyIn.refl _ _))

theorem State.MemsWf.fastPath {t : State} {a1 a2} (h : t.MemsWf) : (State.fastPath t a1 a2).MemsWf :=
  h.only (State.fastPath_only rfl rfl rfl (OnlyIn.refl _ _))

theorem State.MemsWf.allOff {t : State} (h : t.MemsWf) : (State.allOff t).MemsWf := h.only (State.allOff_only rfl rfl (OnlyIn.refl _ _))

end Sys2Proof.Machine
end

section
/-! PROOFS. Every operation of clearing, the policy, profiles, uplinks and pitches keeps the sparse memories in canonical form: one lemma for each function of the
model, along its branches; a function that touches no block with a memory by its frame (Laws/Frame). -/
namespace Sys2Proof.Machine

theorem State.MemsWf.clearingView {t : State} (h : t.MemsWf) : (State.clearingView t).MemsWf := by
  unfold State.clearingView
  exact h.putProf fun w => w

theorem State.MemsWf.clearOn {t : State} {a1 a2} (h : t.MemsWf) : (State.clearOn t a1 a2).MemsWf := h.only (State.clearOn_only rfl (OnlyIn.refl _ _))

theorem State.MemsWf.commitTick {t : State} {a1} (h : t.MemsWf) : (State.commitTick t a1).MemsWf :=
  h.only (State.commitTick_only rfl rfl (fun _ => rfl) rfl rfl rfl (OnlyIn.refl _ _))

theorem State.MemsWf.chargePolicy {t : State} {a1} (h : t.MemsWf) : (State.chargePolicy t a1).MemsWf :=
  h.only (State.chargePolicy_only rfl (OnlyIn.refl _ _))

theorem State.MemsWf.clampTo {t : State} {a1} (h : t.MemsWf) : (State.clampTo t a1).MemsWf := by
  unfold State.clampTo
  extract_lets +onlyGivenNames -merge -underBinder x0 x1 x2
  have hx2 : x2.MemsWf := h.keep
  exact .ite hx2 (.foldl (fun _ _ k3 => k3.log) (hx2.putProf fun w => w))

theorem State.MemsWf.mramTick {t : State} (h : t.MemsWf) : (State.mramTick t).MemsWf := h.only (State.mramTick_only rfl rfl rfl (OnlyIn.refl _ _))

theorem State.MemsWf.takePolicy {t : State} (h : t.MemsWf) : (State.takePolicy t).MemsWf := h.only (State.takePolicy_only rfl (OnlyIn.refl _ _))

theorem EffMems.roWord  : EffMems (roWord) := .of (roWord_eff)

theorem EffsMems.mktWrite {a0 a1 a2} : EffsMems (mktWrite a0 a1 a2) := .of (mktWrite_eff rfl (fun _ => rfl) rfl rfl)

theorem State.MemsWf.newMatrix {t : State} {a1} (h : t.MemsWf) : (State.newMatrix t a1).MemsWf := by
  unfold State.newMatrix
  extract_lets +onlyGivenNames -merge -underBinder x0 x1
  have hx1 : x1.MemsWf := h.bumpIf
  extract_lets +onlyGivenNames -merge -underBinder x2 x3
  have hx3 : x3.MemsWf := hx1.putSbus fun w => w
  extract_lets +onlyGivenNames -merge -underBinder x4
  exact .ite hx3 (hx3.putSbus fun w => w)

theorem State.MemsWf.slotSt {t : State} {a1 a2} (h : t.MemsWf) : (State.slotSt t a1 a2).MemsWf := by
  unfold State.slotSt
  exact .bump (h.setSlot fun _ w => w)

theorem State.MemsWf.takeSlot {t : State} {a1 a2 a3} (h : t.MemsWf) : (State.takeSlot t a1 a2 a3).MemsWf := by
  unfold State.takeSlot
  extract_lets +onlyGivenNames -merge -underBinder x0
  have hx0 : x0.MemsWf := h.forAll fun _ _ k1 => .ite (k1.setSlot fun _ w => w) k1
  clear_value x0
  extract_lets +onlyGivenNames -merge -underBinder x2
  have hx2 : x2.MemsWf := hx0.newMatrix
  clear_value x2
  extract_lets +onlyGivenNames -merge -underBinder x3 x4
  have hx4 : x4.MemsWf := hx2.putProf fun w => w
  clear_value x3 x4
  exact .slotSt (hx4.setSlot fun _ w => w)

theorem State.MemsWf.startCable {t : State} {a1} (h : t.MemsWf) : (State.startCable t a1).MemsWf :=
  h.only (State.startCable_only rfl (OnlyIn.refl _ _))

theorem State.MemsWf.initialValues {t : State} (h : t.MemsWf) : (State.initialValues t).MemsWf := by
  unfold State.initialValues
  extract_lets +onlyGivenNames -merge -underBinder x0
  have hx0 : x0.MemsWf := h.forAll fun _ _ k1 => k1.startCable.setBay
  exact hx0.move id id id id id id

theorem State.MemsWf.loadLattice {t : State} {a1} (h : t.MemsWf) : (State.loadLattice t a1).MemsWf :=
  h.only (State.loadLattice_only rfl rfl (OnlyIn.refl _ _))

theorem State.MemsWf.switchLink {t : State} {a1} (h : t.MemsWf) : (State.switchLink t a1).MemsWf :=
  h.only (State.switchLink_only rfl rfl rfl (OnlyIn.refl _ _))

theorem State.MemsWf.storeSafety {t : State} {a1 a2} (h : t.MemsWf) : (State.storeSafety t a1 a2).MemsWf :=
  h.only (State.storeSafety_only rfl rfl rfl rfl rfl (OnlyIn.refl _ _))

theorem State.MemsWf.takeSafety {t : State} {a1} (h : t.MemsWf) : (State.takeSafety t a1).MemsWf :=
  h.only (State.takeSafety_only rfl (OnlyIn.refl _ _))

theorem State.MemsWf.activateImage {t : State} {a1 a2 a3 a4} (h : t.MemsWf) : (State.activateImage t a1 a2 a3 a4).MemsWf := by
  unfold State.activateImage
  extract_lets +onlyGivenNames -merge -underBinder x0
  have hx0 : x0.MemsWf := h.takeSlot
  clear_value x0
  extract_lets +onlyGivenNames -merge -underBinder x1 x2
  have hx2 : x2.MemsWf := hx0.putProf fun w => w
  clear_value x1 x2
  extract_lets +onlyGivenNames -merge -underBinder x3
  have hx3 : x3.MemsWf := hx2.loadLattice.initialValues
  clear_value x3
  extract_lets +onlyGivenNames -merge -underBinder x4 x5
  have hx5 : x5.MemsWf := hx3.keep
  clear_value x4 x5
  extract_lets +onlyGivenNames -merge -underBinder x6
  have hx6 : x6.MemsWf := hx5.forAll fun _ _ k7 => k7.setStall.switchLink
  clear_value x6
  extract_lets +onlyGivenNames -merge -underBinder x8
  have hx8 : x8.MemsWf := hx6.takeSafety.storeSafety.clampTo
  clear_value x8
  exact .bumpIf (hx8.move id id id id id id)

theorem State.MemsWf.sendCtrl {t : State} {a1} (h : t.MemsWf) : (State.sendCtrl t a1).MemsWf := h.only (State.sendCtrl_only rfl (OnlyIn.refl _ _))

theorem State.MemsWf.becomePending {t : State} {a1 a2 a3} (h : t.MemsWf) : (State.becomePending t a1 a2 a3).MemsWf := by
  unfold State.becomePending
  extract_lets +onlyGivenNames -merge -underBinder x0 x1
  have hx1 : x1.MemsWf := .ite h.sendCtrl h
  extract_lets +onlyGivenNames -merge -underBinder x2 x3 x4
  have hx4 : x4.MemsWf := hx1.move id id id id id id
  exact .log (.slotSt (hx4.setSlot fun _ w => w))

theorem State.MemsWf.profErr {t : State} {a1 a2 a3} (h : t.MemsWf) : (State.profErr t a1 a2 a3).MemsWf := by
  unfold State.profErr
  exact .bumpIf (h.putProf fun w => w)

theorem State.MemsWf.cancelPending {t : State} {a1} (h : t.MemsWf) : (State.cancelPending t a1).MemsWf := by
  unfold State.cancelPending
  split
  · exact h
  · refine .ite h ?_
    extract_lets +onlyGivenNames -merge -underBinder x0 x1 x2 x3 x4
    have hx4 : x4.MemsWf := h.move id id id id id id
    exact hx4.profErr.slotSt

theorem State.MemsWf.checkPassed {t : State} {a1} (h : t.MemsWf) : (State.checkPassed t a1).MemsWf := by
  unfold State.checkPassed
  extract_lets +onlyGivenNames -merge -underBinder x0 x1
  have hx1 : x1.MemsWf := h.putProf fun w => w
  exact .log (hx1.setSlot fun _ w => w)

theorem State.MemsWf.changeRefused {t : State} {a1 a2} (h : t.MemsWf) : (State.changeRefused t a1 a2).MemsWf := by
  unfold State.changeRefused
  exact .profErr (.checkPassed (h.putProf fun w => w))

theorem State.MemsWf.chargeSlots {t : State} {a1} (h : t.MemsWf) : (State.chargeSlots t a1).MemsWf :=
  h.only (State.chargeSlots_only rfl (OnlyIn.refl _ _))

theorem State.MemsWf.checkFailed {t : State} {a1 a2} (h : t.MemsWf) : (State.checkFailed t a1 a2).MemsWf := by
  unfold State.checkFailed
  extract_lets +onlyGivenNames -merge -underBinder x0 x1
  have hx1 : x1.MemsWf := h.putProf fun w => w
  extract_lets +onlyGivenNames -merge -underBinder x2
  have hx2 : x2.MemsWf := hx1.profErr.setSlot fun _ w => w
  exact hx2.log

theorem State.MemsWf.countSwitch {t : State} {a1} (h : t.MemsWf) : (State.countSwitch t a1).MemsWf := by
  unfold State.countSwitch
  extract_lets +onlyGivenNames -merge -underBinder x0 x1
  have hx1 : x1.MemsWf := h.putProf fun w => w
  exact hx1.log

theorem State.MemsWf.endCheck {t : State} {a1} (h : t.MemsWf) : (State.endCheck t a1).MemsWf := by
  unfold State.endCheck
  extract_lets +onlyGivenNames -merge -underBinder x0
  clear_value x0
  extract_lets +onlyGivenNames -merge -underBinder x1
  have hx1 : x1.MemsWf := h.signatureServed
  clear_value x1
  split
  · exact hx1.checkFailed
  · split
    · exact hx1.checkPassed
    · exact hx1.becomePending
    · exact .ite hx1.becomePending hx1.changeRefused
    · split
      · exact .ite hx1.becomePending hx1.changeRefused
      · exact hx1.changeRefused

theorem State.MemsWf.startCheck {t : State} {a1 a2 a3} (h : t.MemsWf) : (State.startCheck t a1 a2 a3).MemsWf := by
  unfold State.startCheck
  extract_lets +onlyGivenNames -merge -underBinder x0 x1
  have hx1 : x1.MemsWf := h.setSlot fun _ w => w
  extract_lets +onlyGivenNames -merge -underBinder x2 x3
  have hx3 : x3.MemsWf := hx1.putProf fun w => w
  exact hx3.slotSt

theorem State.MemsWf.profRun {t : State} {a1 a2 a3 a4} (h : t.MemsWf) : (State.profRun t a1 a2 a3 a4).MemsWf := by
  unfold State.profRun
  split
  · exact h.startCheck
  · exact .ite h.startCheck.sendCtrl h.startCheck
  · exact .slotSt (h.setSlot fun _ _ => rfl)
  · exact h.cancelPending

theorem State.MemsWf.profCommand {t : State} {a1 a2 a3 a4} (h : t.MemsWf) : (State.profCommand t a1 a2 a3 a4).1.MemsWf := by
  unfold State.profCommand
  split
  · exact h
  · extract_lets +onlyGivenNames -merge -underBinder x0 x1
    have hx1 : x1.MemsWf := h.putProf fun w => w
    split
    · exact hx1.profErr
    · exact hx1
    · exact hx1.profRun

theorem State.MemsWf.profAccess {t : State} {a1 a2 a3 a4} (h : t.MemsWf) : (State.profAccess t a1 a2 a3 a4).MemsWf := by
  unfold State.profAccess
  split
  · exact h.answered
  · extract_lets +onlyGivenNames -merge -underBinder x0
    have hx0 : x0.1.MemsWf := h.profCommand
    exact hx0.answered

theorem State.MemsWf.profCtrlWrite {t : State} {a1 a2} (h : t.MemsWf) : (State.profCtrlWrite t a1 a2).1.MemsWf := by
  unfold State.profCtrlWrite
  extract_lets +onlyGivenNames -merge -underBinder x0 x1
  refine .iteFst h ?_
  split
  · exact h.profCommand
  · exact .iteFst h (h.putProf fun w => w)

theorem State.MemsWf.startNewCables {t : State} {a1} (h : t.MemsWf) : (State.startNewCables t a1).MemsWf :=
  h.only (State.startNewCables_only rfl (OnlyIn.refl _ _))

theorem State.MemsWf.storeSlot {t : State} {a1 a2 a3} (h : t.MemsWf) : (State.storeSlot t a1 a2 a3).MemsWf := by
  unfold State.storeSlot
  extract_lets +onlyGivenNames -merge -underBinder x0 x1 x2
  have hx2 : x2.MemsWf := h.chargeSlots.setSlot fun _ w => memWrites_wf _ _ w
  exact hx2.bumpIf

theorem State.MemsWf.switchHandover {t : State} {a1} (h : t.MemsWf) : (State.switchHandover t a1).MemsWf := by
  unfold State.switchHandover
  extract_lets +onlyGivenNames -merge -underBinder x0
  clear_value x0
  extract_lets +onlyGivenNames -merge -underBinder x1
  have hx1 : x1.MemsWf := h.takeSlot
  clear_value x1
  extract_lets +onlyGivenNames -merge -underBinder x2 x3
  have hx3 : x3.MemsWf := hx1.keep
  clear_value x2 x3
  extract_lets +onlyGivenNames -merge -underBinder x4
  have hx4 : x4.MemsWf := hx3.startNewCables
  clear_value x4
  extract_lets +onlyGivenNames -merge -underBinder x5
  have hx5 : x5.MemsWf := hx4.forAll fun _ _ k6 => .ite k6.linkOff (.ite k6.switchLink k6)
  clear_value x5
  exact hx5.takeSafety.storeSafety.countSwitch

theorem State.MemsWf.switchLive {t : State} {a1} (h : t.MemsWf) : (State.switchLive t a1).MemsWf := by
  unfold State.switchLive
  extract_lets +onlyGivenNames -merge -underBinder x0
  have hx0 : x0.MemsWf := h.takeSlot
  clear_value x0
  extract_lets +onlyGivenNames -merge -underBinder x1 x2
  have hx2 : x2.MemsWf := hx0.keep
  clear_value x1 x2
  exact hx2.countSwitch

theorem State.MemsWf.switchStopped {t : State} {a1} (h : t.MemsWf) : (State.switchStopped t a1).MemsWf := by
  unfold State.switchStopped
  exact h.activateImage.countSwitch

theorem State.MemsWf.doActivate {t : State} {a0 a1 a2 a3} (h : t.MemsWf) : (doActivate a0 a1 a2 a3 t).MemsWf := by
  unfold Machine.doActivate
  exact h.whenLive fun _ k0 => k0.profAccess

theorem State.MemsWf.doCancel {t : State} {a0 a1 a2 a3} (h : t.MemsWf) : (doCancel a0 a1 a2 a3 t).MemsWf := by
  unfold Machine.doCancel
  exact h.whenLive fun _ k0 => k0.profAccess

theorem State.MemsWf.doCheck {t : State} {a0 a1 a2 a3} (h : t.MemsWf) : (doCheck a0 a1 a2 a3 t).MemsWf := by
  unfold Machine.doCheck
  exact h.whenLive fun _ k0 => k0.profAccess

theorem State.MemsWf.doCheckComplete {t : State} {a0} (h : t.MemsWf) : (doCheckComplete a0 t).MemsWf := by
  unfold Machine.doCheckComplete
  refine h.whenLive fun _ k0 => ?_
  split
  · exact .ite k0 k0.endCheck
  · exact k0

theorem State.MemsWf.doCheckTimeout {t : State} {a0} (h : t.MemsWf) : (doCheckTimeout a0 t).MemsWf := by
  unfold Machine.doCheckTimeout
  refine h.whenLive fun _ k0 => ?_
  split
  · exact .ite k0.checkFailed k0
  · exact k0

theorem State.MemsWf.doErase {t : State} {a0 a1 a2 a3} (h : t.MemsWf) : (doErase a0 a1 a2 a3 t).MemsWf := by
  unfold Machine.doErase
  exact h.whenLive fun _ k0 => k0.profAccess

theorem State.MemsWf.doPendingTimeout {t : State} {a0} (h : t.MemsWf) : (doPendingTimeout a0 t).MemsWf := by
  unfold Machine.doPendingTimeout
  refine h.whenLive fun _ k0 => ?_
  split
  · exact .ite k0.cancelPending k0
  · exact k0

theorem State.MemsWf.doProfileSwitch {t : State} {a0} (h : t.MemsWf) : (doProfileSwitch a0 t).MemsWf := by
  unfold Machine.doProfileSwitch
  refine h.whenLive fun _ k0 => ?_
  split
  · refine .ite k0.cancelPending ?_
    split
    · exact .ite k0.switchStopped k0
    · split
      · exact .ite k0.switchLive k0
      · exact k0
    · exact k0
  · exact k0

theorem EffMems.profWindowEffect {a0 a1 a2 a3} : EffMems (profWindowEffect a0 a1 a2 a3) := by
  unfold Machine.profWindowEffect
  exact .mk fun _ k0 => k0.storeSlot

theorem State.MemsWf.doProfileWindowWrite {t : State} {a0 a1 a2 a3} (h : t.MemsWf) : (doProfileWindowWrite a0 a1 a2 a3 t).MemsWf := by
  unfold Machine.doProfileWindowWrite
  refine h.whenLive fun _ k0 => ?_
  split
  · exact .ite k0.answered (k0.command (fun _ k1 => (EffMems.profWindowEffect _ k1)))
  · exact k0.answered

theorem State.MemsWf.takeOwn {t : State} {a1 a2} (h : t.MemsWf) : (State.takeOwn t a1 a2).MemsWf :=
  h.only (State.takeOwn_only rfl rfl rfl (fun _ => rfl) rfl (fun _ => rfl) (fun _ => rfl) rfl rfl rfl rfl (OnlyIn.refl _ _))

theorem State.MemsWf.endPitch {t : State} {a1 a2 a3} (h : t.MemsWf) : (State.endPitch t a1 a2 a3).MemsWf :=
  h.only (State.endPitch_only rfl rfl rfl rfl (fun _ => rfl) rfl rfl rfl (OnlyIn.refl _ _))

theorem State.MemsWf.openWindow {t : State} {a1 a2 a3} (h : t.MemsWf) : (State.openWindow t a1 a2 a3).MemsWf :=
  h.only (State.openWindow_only rfl rfl (fun _ => rfl) (fun _ => rfl) rfl rfl (OnlyIn.refl _ _))

theorem State.MemsWf.retake {t : State} (h : t.MemsWf) : (State.retake t).MemsWf :=
  h.only (State.retake_only rfl rfl (fun _ => rfl) rfl rfl (OnlyIn.refl _ _))

theorem State.MemsWf.sendPitch {t : State} {a1} (h : t.MemsWf) : (State.sendPitch t a1).MemsWf := h.only (State.sendPitch_only rfl (OnlyIn.refl _ _))

end Sys2Proof.Machine
end

section
/-! PROOFS. Every operation of sessions, cooling, auxiliaries and metrology keeps the sparse memories in canonical form: one lemma for each function of the
model, along its branches; a function that touches no block with a memory by its frame (Laws/Frame). -/
namespace Sys2Proof.Machine

theorem State.MemsWf.setSess {t : State} {a1 a2} (h : t.MemsWf) : (State.setSess t a1 a2).MemsWf := h.only (State.setSess_only rfl (OnlyIn.refl _ _))

theorem State.MemsWf.answerSession {t : State} {a1} (h : t.MemsWf) : (State.answerSession t a1).MemsWf :=
  h.only (State.answerSession_only rfl (OnlyIn.refl _ _))

theorem State.MemsWf.goSess {t : State} {a1 a2} (h : t.MemsWf) : (State.goSess t a1 a2).MemsWf := h.only (State.goSess_only rfl rfl (OnlyIn.refl _ _))

theorem State.MemsWf.enterClosing {t : State} {a1 a2} (h : t.MemsWf) : (State.enterClosing t a1 a2).MemsWf :=
  h.only (State.enterClosing_only rfl rfl (OnlyIn.refl _ _))

theorem State.MemsWf.refuseAuth {t : State} {a1} (h : t.MemsWf) : (State.refuseAuth t a1).MemsWf :=
  h.only (State.refuseAuth_only rfl rfl (OnlyIn.refl _ _))

theorem State.MemsWf.grantAuth {t : State} {a1} (h : t.MemsWf) : (State.grantAuth t a1).MemsWf :=
  h.only (State.grantAuth_only rfl rfl (OnlyIn.refl _ _))

theorem State.MemsWf.sendSession {t : State} {a1 a2} (h : t.MemsWf) : (State.sendSession t a1 a2).MemsWf := by
  unfold State.sendSession
  extract_lets +onlyGivenNames -merge -underBinder x0
  have hx0 : x0.2.MemsWf := h.serveUse.drawBytes
  extract_lets +onlyGivenNames -merge -underBinder x1
  exact hx0.sendSeljo

theorem State.MemsWf.tellSession {t : State} {a1} (h : t.MemsWf) : (State.tellSession t a1).MemsWf := by
  unfold State.tellSession
  split
  · exact h.sendSession
  · exact .ite h.serveUse h

theorem State.MemsWf.sendResp {t : State} {a1 a2} (h : t.MemsWf) : (State.sendResp t a1 a2).MemsWf :=
  h.only (State.sendResp_only rfl (OnlyIn.refl _ _))

theorem State.MemsWf.respond {t : State} {a1 a2} (h : t.MemsWf) : (State.respond t a1 a2).MemsWf := by
  unfold State.respond
  extract_lets +onlyGivenNames -merge -underBinder x0
  have hx0 : x0.MemsWf := h.answerSession.tellSession
  exact .ite hx0.setBay hx0.sendResp

theorem State.MemsWf.grantNow {t : State} {a1} (h : t.MemsWf) : (State.grantNow t a1).MemsWf := by
  unfold State.grantNow
  exact h.grantAuth.setSess.respond

theorem State.MemsWf.pendAuth {t : State} {a1} (h : t.MemsWf) : (State.pendAuth t a1).MemsWf := by
  unfold State.pendAuth
  exact h.setSess.bump.respond

theorem State.MemsWf.verifyChain {t : State} {a1 a2} (h : t.MemsWf) : (State.verifyChain t a1 a2).2.MemsWf := by
  unfold State.verifyChain
  extract_lets +onlyGivenNames -merge -underBinder x0
  have hx0 : x0.2.MemsWf := h.useKey
  split
  · exact hx0
  · exact hx0

theorem State.MemsWf.authorise {t : State} {a1 a2} (h : t.MemsWf) : (State.authorise t a1 a2).MemsWf := by
  unfold State.authorise
  extract_lets +onlyGivenNames -merge -underBinder x0
  split
  · refine .ite h.respond ?_
    extract_lets +onlyGivenNames -merge -underBinder x1
    have hx1 : x1.MemsWf := h.setSess.goSess
    exact .ite hx1.grantNow hx1.pendAuth
  · refine .ite h.respond ?_
    extract_lets +onlyGivenNames -merge -underBinder x2
    have hx2 : x2.MemsWf := h.setSess.goSess
    extract_lets +onlyGivenNames -merge -underBinder x3
    have hx3 : x3.2.MemsWf := hx2.verifyChain
    exact .ite hx3.refuseAuth.respond (.ite hx3.pendAuth hx3.grantNow)

theorem State.MemsWf.writeTarget {t : State} {a1 a2} (h : t.MemsWf) : (State.writeTarget t a1 a2).MemsWf :=
  h.only (State.writeTarget_only rfl rfl (OnlyIn.refl _ _))

theorem State.MemsWf.enterRampDown {t : State} {a1 a2} (h : t.MemsWf) : (State.enterRampDown t a1 a2).MemsWf :=
  h.only (State.enterRampDown_only rfl rfl rfl (OnlyIn.refl _ _))

theorem State.MemsWf.wind {t : State} {a1 a2} (h : t.MemsWf) : (State.wind t a1 a2).MemsWf := h.only (State.wind_only rfl rfl rfl (OnlyIn.refl _ _))

theorem State.MemsWf.badMessage {t : State} {a1 a2} (h : t.MemsWf) : (State.badMessage t a1 a2).MemsWf := by
  unfold State.badMessage
  extract_lets +onlyGivenNames -merge -underBinder x0
  have hx0 : x0.MemsWf := h.setBay
  exact hx0.wind.respond

theorem State.MemsWf.enterFault {t : State} {a1 a2} (h : t.MemsWf) : (State.enterFault t a1 a2).MemsWf :=
  h.only (State.enterFault_only rfl rfl rfl (fun _ => rfl) rfl rfl rfl rfl (OnlyIn.refl _ _))

theorem State.MemsWf.checkInsulation {t : State} {a1} (h : t.MemsWf) : (State.checkInsulation t a1).MemsWf :=
  h.only (State.checkInsulation_only rfl rfl rfl (fun _ => rfl) rfl rfl rfl rfl (OnlyIn.refl _ _))

theorem State.MemsWf.commandOutlet {t : State} {a1 a2} (h : t.MemsWf) : (State.commandOutlet t a1 a2).MemsWf :=
  h.only (State.commandOutlet_only rfl rfl (OnlyIn.refl _ _))

theorem State.MemsWf.contactorFail {t : State} {a1} (h : t.MemsWf) : (State.contactorFail t a1).MemsWf :=
  h.only (State.contactorFail_only rfl rfl rfl (fun _ => rfl) rfl rfl rfl rfl rfl (OnlyIn.refl _ _))

theorem State.MemsWf.enterEnded {t : State} {a1 a2} (h : t.MemsWf) : (State.enterEnded t a1 a2).MemsWf :=
  h.only (State.enterEnded_only rfl rfl rfl rfl rfl (OnlyIn.refl _ _))

theorem State.MemsWf.weldDone {t : State} {a1} (h : t.MemsWf) : (State.weldDone t a1).MemsWf := by
  unfold State.weldDone
  extract_lets +onlyGivenNames -merge -underBinder x0
  exact .ite (.ite h.enterEnded (.ite h.enterClosing.respond h)) h

theorem State.MemsWf.contactorOpen {t : State} {a1} (h : t.MemsWf) : (State.contactorOpen t a1).MemsWf := by
  unfold State.contactorOpen
  exact .ite h.enterFault h.weldDone

theorem State.MemsWf.countIn {t : State} {a1} (h : t.MemsWf) : (State.countIn t a1).MemsWf := h.only (State.countIn_only rfl (OnlyIn.refl _ _))

theorem State.MemsWf.doomedMsg {t : State} {a1 a2 a3} (h : t.MemsWf) : (State.doomedMsg t a1 a2 a3).MemsWf := by
  unfold State.doomedMsg
  exact .ite h.badMessage h.tellSession

theorem State.MemsWf.enterCableCheck {t : State} {a1 a2} (h : t.MemsWf) : (State.enterCableCheck t a1 a2).MemsWf := by
  unfold State.enterCableCheck
  extract_lets +onlyGivenNames -merge -underBinder x0 x1
  have hx1 : x1.MemsWf := h.setSess.goSess
  exact .ite hx1.enterFault.respond hx1.commandOutlet.respond

theorem State.MemsWf.enterSetup {t : State} {a1} (h : t.MemsWf) : (State.enterSetup t a1).MemsWf :=
  h.only (State.enterSetup_only rfl rfl (OnlyIn.refl _ _))

theorem State.MemsWf.enterWeld {t : State} {a1} (h : t.MemsWf) : (State.enterWeld t a1).MemsWf :=
  h.only (State.enterWeld_only rfl rfl rfl (OnlyIn.refl _ _))

theorem State.MemsWf.leaveFault {t : State} {a1} (h : t.MemsWf) : (State.leaveFault t a1).MemsWf :=
  h.only (State.leaveFault_only rfl rfl (OnlyIn.refl _ _))

theorem State.MemsWf.powerBid {t : State} {a1 a2} (h : t.MemsWf) : (State.powerBid t a1 a2).MemsWf :=
  h.only (State.powerBid_only rfl rfl (OnlyIn.refl _ _))

theorem State.MemsWf.precharge {t : State} {a1 a2 a3} (h : t.MemsWf) : (State.precharge t a1 a2 a3).MemsWf := by
  unfold State.precharge
  extract_lets +onlyGivenNames -merge -underBinder x0
  have hx0 : x0.MemsWf := h.setSess
  exact hx0.writeTarget.respond

theorem State.MemsWf.rampedDown {t : State} {a1} (h : t.MemsWf) : (State.rampedDown t a1).MemsWf := by
  unfold State.rampedDown
  extract_lets +onlyGivenNames -merge -underBinder x0
  split
  · exact .ite h.enterWeld.weldDone h
  · exact h

theorem State.MemsWf.sessTimeout {t : State} {a1 a2} (h : t.MemsWf) : (State.sessTimeout t a1 a2).MemsWf :=
  h.only (State.sessTimeout_only rfl rfl rfl (fun _ => rfl) rfl rfl rfl rfl rfl (OnlyIn.refl _ _))

theorem State.MemsWf.takeParam {t : State} {a1 a2 a3} (h : t.MemsWf) : (State.takeParam t a1 a2 a3).MemsWf := by
  unfold State.takeParam
  extract_lets +onlyGivenNames -merge -underBinder x0 x1
  have hx1 : ∀ w, w.MemsWf → (x1 w).MemsWf := fun _ k2 => k2.respond
  split
  · exact h.setSess.respond
  · exact .ite h.badMessage (.ite h.enterClosing.respond (hx1 _ h.setSess.bump))
  · refine .ite h.badMessage ?_
    split
    · exact h.badMessage
    · exact .ite h.enterClosing.respond (hx1 _ h.setSess)
  · refine .ite h.badMessage ?_
    extract_lets +onlyGivenNames -merge -underBinder x3
    exact h.setSess.respond
  · refine .ite h.badMessage ?_
    split
    · exact hx1 _ h.setSess
    · exact h.respond

theorem State.MemsWf.tlsRefused {t : State} {a1} (h : t.MemsWf) : (State.tlsRefused t a1).MemsWf :=
  h.only (State.tlsRefused_only rfl rfl rfl rfl rfl rfl (OnlyIn.refl _ _))

theorem State.MemsWf.tryCableTarget {t : State} {a1} (h : t.MemsWf) : (State.tryCableTarget t a1).MemsWf :=
  h.only (State.tryCableTarget_only rfl rfl (OnlyIn.refl _ _))

theorem EffsMems.bayWrite {a0 a1 a2 a3} : EffsMems (bayWrite a0 a1 a2 a3) := .of (bayWrite_eff rfl rfl rfl (fun _ => rfl) rfl rfl rfl rfl rfl rfl)

theorem State.MemsWf.whenActive {t : State} {a0} {a1} {a2 : State → State} (hf : ∀ w, w.MemsWf → (a2 w).MemsWf) (h : t.MemsWf) : (whenActive a0 a1 a2
    t).MemsWf := by
  unfold Machine.whenActive
  exact h.whenLive fun _ k0 => .ite (hf _ k0) k0

theorem State.MemsWf.vehicleMsg {t : State} {a0} {a1} {a2} {a3} {a4 : State → State} (hf : ∀ w, w.MemsWf → (a4 w).MemsWf) (h : t.MemsWf) :
    (vehicleMsg a0 a1 a2 a3 a4 t).MemsWf := by
  unfold Machine.vehicleMsg
  refine h.whenActive fun _ k0 => ?_
  extract_lets +onlyGivenNames -merge -underBinder x1
  have hx1 : x1.MemsWf := k0.sessTimeout
  extract_lets +onlyGivenNames -merge -underBinder x2
  refine .ite hx1 ?_
  extract_lets +onlyGivenNames -merge -underBinder x3
  have hx3 : x3.MemsWf := hx1.countIn
  exact .ite hx3.doomedMsg (.ite (hf _ hx3) hx3.badMessage)

theorem State.MemsWf.doAuthorizationReq {t : State} {a0 a1 a2 a3} (h : t.MemsWf) : (doAuthorizationReq a0 a1 a2 a3 t).MemsWf := by
  unfold Machine.doAuthorizationReq
  refine h.vehicleMsg fun _ k0 => ?_
  extract_lets +onlyGivenNames -merge -underBinder x1
  split
  · exact .ite k0.authorise k0.badMessage
  · exact k0.respond
  · exact .ite k0.setSess.respond k0.badMessage
  · exact .ite k0.respond k0.badMessage
  · exact k0.badMessage

theorem State.MemsWf.withBay {t : State} {a0} {a1 : BayRec → State → State} (hf : ∀ i0 w, w.MemsWf → (a1 i0 w).MemsWf) (h : t.MemsWf) : (withBay a0
    a1 t).MemsWf := by
  unfold Machine.withBay
  split
  · exact hf _ _ h
  · exact h

theorem State.MemsWf.doChargeLoopReq {t : State} {a0 a1 a2 a3} (h : t.MemsWf) : (doChargeLoopReq a0 a1 a2 a3 t).MemsWf := by
  unfold Machine.doChargeLoopReq
  refine h.vehicleMsg fun _ k0 => ?_
  refine .ite k0.badMessage ?_
  split
  · exact k0.badMessage
  · refine k0.withBay fun _ _ k1 => ?_
    extract_lets +onlyGivenNames -merge -underBinder x2
    have hx2 : x2.MemsWf := k1.setSess.powerBid
    exact hx2.respond

theorem State.MemsWf.doDcCableCheckReq {t : State} {a0 a1 a2} (h : t.MemsWf) : (doDcCableCheckReq a0 a1 a2 t).MemsWf := by
  unfold Machine.doDcCableCheckReq
  refine h.vehicleMsg fun _ k0 => ?_
  extract_lets +onlyGivenNames -merge -underBinder x1
  split
  · exact .ite (k0.withBay (fun _ _ k2 => k2.enterCableCheck)) k0.badMessage
  · exact .ite k0.setSess.respond k0.respond
  · exact k0.badMessage

theorem State.MemsWf.doDcPreChargeReq {t : State} {a0 a1 a2 a3} (h : t.MemsWf) : (doDcPreChargeReq a0 a1 a2 a3 t).MemsWf := by
  unfold Machine.doDcPreChargeReq
  refine h.vehicleMsg fun _ k0 => ?_
  extract_lets +onlyGivenNames -merge -underBinder x1
  split
  · exact k0.badMessage
  · split
    · exact .ite (k0.withBay (fun _ _ k2 => k2.goSess.precharge)) k0.badMessage
    · exact k0.withBay fun _ _ k3 => k3.precharge
    · exact k0.badMessage

theorem State.MemsWf.doParameterReq {t : State} {a0 a1 a2 a3} (h : t.MemsWf) : (doParameterReq a0 a1 a2 a3 t).MemsWf := by
  unfold Machine.doParameterReq
  exact h.vehicleMsg fun _ k0 => .ite (k0.withBay (fun _ _ k1 => k1.takeParam)) k0.badMessage

theorem State.MemsWf.doPowerDeliveryReq {t : State} {a0 a1 a2 a3} (h : t.MemsWf) : (doPowerDeliveryReq a0 a1 a2 a3 t).MemsWf := by
  unfold Machine.doPowerDeliveryReq
  refine h.vehicleMsg fun _ k0 => ?_
  split
  · exact k0.withBay fun _ _ k1 => k1.goSess.powerBid.respond
  · exact k0.enterRampDown.respond
  · exact k0.badMessage

theorem State.MemsWf.doSdpRequest {t : State} {a0 a1} (h : t.MemsWf) : (doSdpRequest a0 a1 t).MemsWf := by
  unfold Machine.doSdpRequest
  refine h.whenActive fun _ k0 => ?_
  extract_lets +onlyGivenNames -merge -underBinder x1
  have hx1 : x1.MemsWf := k0.sessTimeout
  extract_lets +onlyGivenNames -merge -underBinder x2
  split
  · exact hx1.enterSetup.respond
  · exact hx1.respond
  · exact .ite hx1.enterSetup.respond hx1
  · exact hx1

theorem State.MemsWf.doSessionSetupReq {t : State} {a0 a1 a2} (h : t.MemsWf) : (doSessionSetupReq a0 a1 a2 t).MemsWf := by
  unfold Machine.doSessionSetupReq
  refine h.vehicleMsg fun _ k0 => ?_
  extract_lets +onlyGivenNames -merge -underBinder x1
  refine .ite ?_ k0.badMessage
  extract_lets +onlyGivenNames -merge -underBinder x2
  have hx2 : x2.2.MemsWf := k0.drawBytes
  extract_lets +onlyGivenNames -merge -underBinder x3
  have hx3 : x3.MemsWf := hx2.setSess
  exact hx3.log.respond

theorem State.MemsWf.doSessionStopReq {t : State} {a0 a1 a2} (h : t.MemsWf) : (doSessionStopReq a0 a1 a2 t).MemsWf := by
  unfold Machine.doSessionStopReq
  refine h.vehicleMsg fun _ k0 => ?_
  split
  · extract_lets +onlyGivenNames -merge -underBinder x1
    have hx1 : x1.MemsWf := k0.setSess
    exact .ite hx1.weldDone hx1.tellSession
  · extract_lets +onlyGivenNames -merge -underBinder x2
    have hx2 : x2.MemsWf := k0.setSess
    exact .ite hx2.weldDone hx2.tellSession
  · exact k0.setSess.respond
  · exact k0.badMessage

theorem State.MemsWf.doSupportedAppProtocolReq {t : State} {a0 a1 a2} (h : t.MemsWf) : (doSupportedAppProtocolReq a0 a1 a2 t).MemsWf := by
  unfold Machine.doSupportedAppProtocolReq
  refine h.vehicleMsg fun _ k0 => ?_
  extract_lets +onlyGivenNames -merge -underBinder x1
  exact .ite k0.setSess.respond k0.badMessage

theorem State.MemsWf.doTlsHandshake {t : State} {a0 a1 a2} (h : t.MemsWf) : (doTlsHandshake a0 a1 a2 t).MemsWf := by
  unfold Machine.doTlsHandshake
  refine h.whenActive fun _ k0 => ?_
  extract_lets +onlyGivenNames -merge -underBinder x1
  have hx1 : x1.MemsWf := k0.sessTimeout
  refine .ite ?_ hx1
  refine .ite ?_ (.tlsRefused (.ite hx1.serveUse hx1))
  extract_lets +onlyGivenNames -merge -underBinder x2
  have hx2 : x2.2.MemsWf := hx1.serveUse.drawBytes
  exact hx2.setSess.tellSession

theorem State.MemsWf.doWeldingDetectionReq {t : State} {a0 a1 a2} (h : t.MemsWf) : (doWeldingDetectionReq a0 a1 a2 t).MemsWf := by
  unfold Machine.doWeldingDetectionReq
  refine h.vehicleMsg fun _ k0 => ?_
  split
  · exact k0.respond
  · exact k0.respond
  · exact k0.badMessage

theorem State.MemsWf.coolTick {t : State} {a1 a2} (h : t.MemsWf) : (State.coolTick t a1 a2).MemsWf :=
  h.only (State.coolTick_only rfl rfl rfl rfl (OnlyIn.refl _ _))

theorem State.MemsWf.takeTerms {t : State} (h : t.MemsWf) : (State.takeTerms t).MemsWf := h.only (State.takeTerms_only rfl (OnlyIn.refl _ _))

theorem EffsMems.thmWrite {a0 a1 a2} : EffsMems (thmWrite a0 a1 a2) := .of (thmWrite_eff rfl)

theorem State.MemsWf.adoptAux {t : State} (h : t.MemsWf) : (State.adoptAux t).MemsWf := h.only (State.adoptAux_only rfl rfl rfl (OnlyIn.refl _ _))

theorem State.MemsWf.auxFailAll {t : State} {a1} (h : t.MemsWf) : (State.auxFailAll t a1).MemsWf :=
  h.only (State.auxFailAll_only rfl (OnlyIn.refl _ _))

theorem State.MemsWf.auxTick {t : State} {a1 a2} (h : t.MemsWf) : (State.auxTick t a1 a2).MemsWf :=
  h.only (State.auxTick_only rfl rfl rfl (OnlyIn.refl _ _))

theorem EffsMems.auxWrite {a0 a1 a2} : EffsMems (auxWrite a0 a1 a2) := .of (auxWrite_eff rfl rfl)

theorem State.MemsWf.logFlag {t : State} {a1} (h : t.MemsWf) : (State.logFlag t a1).MemsWf :=
  h.only (State.logFlag_only rfl rfl rfl (OnlyIn.refl _ _))

theorem State.MemsWf.setKind {t : State} {a1 a2} (h : t.MemsWf) : (State.setKind t a1 a2).MemsWf := by
  unfold State.setKind
  exact h.putMet fun w => w

theorem State.MemsWf.flagsBlock {t : State} {a1 a2 a3} (h : t.MemsWf) : (State.flagsBlock t a1 a2 a3).MemsWf := by
  unfold State.flagsBlock
  extract_lets +onlyGivenNames -merge -underBinder x0 x1 x2 x3 x4 x5 x6 x7 x8 x9 x10 x11 x12
  have hx12 : x12.MemsWf := h.putMet fun w => w
  extract_lets +onlyGivenNames -merge -underBinder x13
  have hx13 : x13.MemsWf := hx12.logFlag
  extract_lets +onlyGivenNames -merge -underBinder x14 x15
  have hx15 : x15.MemsWf := hx13.putMet fun w => w
  extract_lets +onlyGivenNames -merge -underBinder x16
  have hx16 : x16.MemsWf := hx15.logFlag
  extract_lets +onlyGivenNames -merge -underBinder x17 x18
  have hx18 : x18.MemsWf := hx16.putMet fun w => w
  extract_lets +onlyGivenNames -merge -underBinder x19
  have hx19 : x19.MemsWf := hx18.logFlag
  extract_lets +onlyGivenNames -merge -underBinder x20
  exact hx19.setKind

theorem State.MemsWf.acBlock {t : State} {a1 a2} (h : t.MemsWf) : (State.acBlock t a1 a2).MemsWf := by
  unfold State.acBlock
  extract_lets +onlyGivenNames -merge -underBinder x0 x1 x2 x3 x4 x5 x6 x7 x8
  have hx8 : x8.MemsWf := h.putMet fun w => w
  exact hx8.flagsBlock

theorem State.MemsWf.withholdReceipt {t : State} {a1} (h : t.MemsWf) : (State.withholdReceipt t a1).MemsWf := by
  unfold State.withholdReceipt
  exact h.setKind.log

theorem State.MemsWf.issueReceipt {t : State} {a1 a2 a3} (h : t.MemsWf) : (State.issueReceipt t a1 a2 a3).MemsWf := by
  unfold State.issueReceipt
  split
  · refine .ite h.withholdReceipt ?_
    extract_lets +onlyGivenNames -merge -underBinder x0 x1 x2 x3 x4
    have hx4 : x4.MemsWf := h.putMet fun w => w
    exact hx4.setKind
  · exact h

theorem State.MemsWf.closeDead {t : State} {a1 a2} (h : t.MemsWf) : (State.closeDead t a1 a2).MemsWf := by
  unfold State.closeDead
  extract_lets +onlyGivenNames -merge -underBinder x0 x1
  have hx1 : x1.MemsWf := h.putMet fun w => w
  exact hx1.issueReceipt.bump

theorem State.MemsWf.closeDeadBefore {t : State} {a1} (h : t.MemsWf) : (State.closeDeadBefore t a1).MemsWf := by
  unfold State.closeDeadBefore
  refine .foldl (fun _ _ k0 => ?_) h
  split
  · exact .ite k0.closeDead k0
  · exact k0

theorem State.MemsWf.boundaryReceipts {t : State} {a1} (h : t.MemsWf) : (State.boundaryReceipts t a1).MemsWf := by
  unfold State.boundaryReceipts
  extract_lets +onlyGivenNames -merge -underBinder x0 x1
  have hx1 : x1.MemsWf := .closeDeadBefore (h.putMet fun w => w)
  extract_lets +onlyGivenNames -merge -underBinder x2
  have hx2 : x2.MemsWf := hx1.issueReceipt
  refine .foldl (fun _ _ k3 => ?_) hx2
  split
  · exact k3.issueReceipt
  · exact k3

theorem State.MemsWf.breakRuns {t : State} (h : t.MemsWf) : (State.breakRuns t).MemsWf := by
  unfold State.breakRuns
  exact h.putMet fun w => w

theorem State.MemsWf.passedReceipts {t : State} {a1} (h : t.MemsWf) : (State.passedReceipts t a1).MemsWf := by
  unfold State.passedReceipts
  exact .foldl (fun _ _ k0 => k0.boundaryReceipts) h

theorem State.MemsWf.closeDeadAt {t : State} {a1 a2} (h : t.MemsWf) : (State.closeDeadAt t a1 a2).MemsWf := by
  unfold State.closeDeadAt
  split
  · exact .ite h.closeDead h
  · exact h

theorem State.MemsWf.closeSet {t : State} {a1} (h : t.MemsWf) : (State.closeSet t a1).MemsWf := by
  unfold State.closeSet
  exact .foldl (fun _ _ k0 => k0.issueReceipt.closeDeadAt) h.closeDeadBefore.issueReceipt

theorem State.MemsWf.calEffect {t : State} (h : t.MemsWf) : (State.calEffect t).MemsWf := by
  unfold State.calEffect
  split
  · exact h
  · extract_lets +onlyGivenNames -merge -underBinder x0
    have hx0 : x0.MemsWf := by
      unfold x0
      split
      · exact h.passedReceipts
      · exact h
    extract_lets +onlyGivenNames -merge -underBinder x1
    have hx1 : x1.MemsWf := by
      unfold x1
      split
      · exact hx0.closeSet
      · exact hx0
    exact hx1.putMet fun w => w

theorem State.MemsWf.calStats {t : State} {a1 a2} (h : t.MemsWf) : (State.calStats t a1 a2).MemsWf := by
  unfold State.calStats
  extract_lets +onlyGivenNames -merge -underBinder x0 x1
  exact h.putMet fun w => w

theorem State.MemsWf.chargeMet {t : State} {a1} (h : t.MemsWf) : (State.chargeMet t a1).MemsWf := h.only (State.chargeMet_only rfl (OnlyIn.refl _ _))

theorem State.MemsWf.computeSample {t : State} {a1 a2 a3 a4} (h : t.MemsWf) : (State.computeSample t a1 a2 a3 a4).MemsWf := by
  unfold State.computeSample
  extract_lets +onlyGivenNames -merge -underBinder x0 x1 x2 x3 x4 x5 x6 x7 x8 x9
  exact h.putMet fun w => w

theorem State.MemsWf.crossBoundary {t : State} {a1 a2 a3 a4} (h : t.MemsWf) : (State.crossBoundary t a1 a2 a3 a4).MemsWf := by
  unfold State.crossBoundary
  extract_lets +onlyGivenNames -merge -underBinder x0 x1 x2
  exact h.putMet fun w => w

theorem State.MemsWf.endBlock {t : State} {a1} (h : t.MemsWf) : (State.endBlock t a1).MemsWf := by
  unfold State.endBlock
  exact h.putMet fun w => w

theorem State.MemsWf.gapAll {t : State} (h : t.MemsWf) : (State.gapAll t).MemsWf := by
  unfold State.gapAll
  exact h.putMet fun w => w

theorem State.MemsWf.liveTick {t : State} {a1 a2 a3 a4 a5} (h : t.MemsWf) : (State.liveTick t a1 a2 a3 a4 a5).MemsWf := by
  unfold State.liveTick
  refine .ite ?_ (.ite (.bump (h.putMet fun w => w)) h)
  extract_lets +onlyGivenNames -merge -underBinder x0 x1 x2
  have hx2 : x2.MemsWf := h.putMet fun w => w
  exact .ite (hx2.putMet fun w => w) (.ite (hx2.putMet fun w => w) hx2)

theorem State.MemsWf.writeCheckpoint {t : State} (h : t.MemsWf) : (State.writeCheckpoint t).MemsWf := by
  unfold State.writeCheckpoint
  extract_lets +onlyGivenNames -merge -underBinder x0 x1 x2 x3
  have hx3 : x3.MemsWf := h.chargeMet
  exact .ite (hx3.putMet fun w => w) (hx3.putMet fun w => w)

theorem State.MemsWf.publish {t : State} {a1} (h : t.MemsWf) : (State.publish t a1).MemsWf := by
  unfold State.publish
  extract_lets +onlyGivenNames -merge -underBinder x0 x1
  exact h.putMet fun w => w

theorem State.MemsWf.metCommit {t : State} {a1 a2 a3} (h : t.MemsWf) : (State.metCommit t a1 a2 a3).MemsWf := by
  unfold State.metCommit
  extract_lets +onlyGivenNames -merge -underBinder x0
  clear_value x0
  split
  · exact .bumpIf (h.putMet fun w => w)
  · extract_lets +onlyGivenNames -merge -underBinder x1
    clear_value x1
    extract_lets +onlyGivenNames -merge -underBinder x2 x3 x4
    clear_value x2 x3 x4
    extract_lets +onlyGivenNames -merge -underBinder x5 x6
    have hx6 : x6.MemsWf := .bumpIf (h.putMet fun w => w)
    clear_value x5 x6
    extract_lets +onlyGivenNames -merge -underBinder x7 x8
    clear_value x7 x8
    extract_lets +onlyGivenNames -merge -underBinder x9
    have hx9 : x9.MemsWf := .foldl (fun _ _ k10 => k10.liveTick) hx6
    clear_value x9
    exact hx9.publish.writeCheckpoint

theorem State.MemsWf.metRestart {t : State} (h : t.MemsWf) : (State.metRestart t).MemsWf := by
  unfold State.metRestart
  extract_lets +onlyGivenNames -merge -underBinder x0 x1 x2 x3 x4 x5 x6 x7 x8
  have hx8 : x8.MemsWf := h.putMet fun w => w
  extract_lets +onlyGivenNames -merge -underBinder x9
  have hx9 : x9.MemsWf := by
    unfold x9
    split
    · exact hx8.putMet fun w => w
    · exact hx8
  exact .ite hx9.log hx9

theorem State.MemsWf.metResume {t : State} (h : t.MemsWf) : (State.metResume t).MemsWf := by
  unfold State.metResume
  exact .gapAll (h.putMet fun w => w)

theorem State.MemsWf.metSample {t : State} {a1} (h : t.MemsWf) : (State.metSample t a1).MemsWf := by
  unfold State.metSample
  extract_lets +onlyGivenNames -merge -underBinder x0
  have hx0 : x0.MemsWf := by
    unfold x0
    split
    · exact .ite h.calEffect h
    · exact h
  extract_lets +onlyGivenNames -merge -underBinder x1
  have hx1 : x1.MemsWf := by
    unfold x1
    split
    · exact .ite (hx0.putMet fun w => w) hx0
    · exact hx0
  extract_lets +onlyGivenNames -merge -underBinder x2 x3 x4 x5 x6 x7 x8
  have hx8 : x8.MemsWf := hx1.putMet fun w => w
  split
  · exact hx8.computeSample.crossBoundary
  · exact hx8

theorem State.MemsWf.metStop {t : State} (h : t.MemsWf) : (State.metStop t).MemsWf := by
  unfold State.metStop
  exact .writeCheckpoint (h.putMet fun w => w)

theorem State.MemsWf.newReceiptKey {t : State} (h : t.MemsWf) : (State.newReceiptKey t).MemsWf := by
  unfold State.newReceiptKey
  extract_lets +onlyGivenNames -merge -underBinder x0
  have hx0 : x0.2.MemsWf := h.drawBytes
  exact hx0.putMet fun w => w

theorem State.MemsWf.storeReceipt {t : State} {a1 a2} (h : t.MemsWf) : (State.storeReceipt t a1 a2).MemsWf := by
  unfold State.storeReceipt
  exact h.putMet fun w => w

theorem State.MemsWf.takeCalSet {t : State} {a1 a2} (h : t.MemsWf) : (State.takeCalSet t a1 a2).MemsWf := by
  unfold State.takeCalSet
  extract_lets +onlyGivenNames -merge -underBinder x0 x1 x2
  have hx2 : x2.MemsWf := h.putMet fun w => w
  refine .ite hx2.log ?_
  extract_lets +onlyGivenNames -merge -underBinder x3 x4
  have hx4 : x4.MemsWf := .ite hx2.newReceiptKey hx2
  extract_lets +onlyGivenNames -merge -underBinder x5 x6
  have hx6 : x6.MemsWf := hx4.putMet fun w => w
  extract_lets +onlyGivenNames -merge -underBinder x7 x8 x9
  have hx9 : x9.MemsWf := hx6.putMet fun w => w
  exact hx9.log

theorem State.MemsWf.takeRaw {t : State} {a1 a2} (h : t.MemsWf) : (State.takeRaw t a1 a2).MemsWf := by
  unfold State.takeRaw
  exact h.putMet fun w => w

theorem EffMems.ackEffect {a0 a1} : EffMems (ackEffect a0 a1) := by
  unfold Machine.ackEffect
  exact .inRange fun _ k0 => k0.putMet fun w => w

theorem State.MemsWf.doBayDead {t : State} {a0 a1} (h : t.MemsWf) : (doBayDead a0 a1 t).MemsWf := by
  unfold Machine.doBayDead
  extract_lets +onlyGivenNames -merge -underBinder x0
  have hx0 : x0.MemsWf := h.arrive
  split
  · refine .ite ?_ hx0
    extract_lets +onlyGivenNames -merge -underBinder x1
    have hx1 : x1.MemsWf := hx0.passedReceipts
    exact .ite hx1.closeDead hx1
  · exact hx0

theorem State.MemsWf.doCalBlock {t : State} {a0} (h : t.MemsWf) : (doCalBlock a0 t).MemsWf := by
  unfold Machine.doCalBlock
  extract_lets +onlyGivenNames -merge -underBinder x0
  have hx0 : x0.MemsWf := h.arrive
  extract_lets +onlyGivenNames -merge -underBinder x1 x2
  refine .ite ?_ hx0
  extract_lets +onlyGivenNames -merge -underBinder x3
  have hx3 : x3.MemsWf := .ite hx0 hx0.breakRuns
  extract_lets +onlyGivenNames -merge -underBinder x4
  have hx4 : x4.MemsWf := hx3.endBlock.calStats
  split
  · exact hx4.acBlock
  · exact hx4

theorem State.MemsWf.doCalSetEffect {t : State} {a0} (h : t.MemsWf) : (doCalSetEffect a0 t).MemsWf := by
  unfold Machine.doCalSetEffect
  extract_lets +onlyGivenNames -merge -underBinder x0
  have hx0 : x0.MemsWf := h.arrive
  split
  · exact .ite hx0.calEffect hx0
  · exact hx0

theorem State.MemsWf.doMetrologyCommit {t : State} {a0} (h : t.MemsWf) : (doMetrologyCommit a0 t).MemsWf := by
  unfold Machine.doMetrologyCommit
  extract_lets +onlyGivenNames -merge -underBinder x0
  have hx0 : x0.MemsWf := h.arrive
  split
  · exact .ite hx0.metCommit hx0
  · exact hx0

theorem State.MemsWf.doMetrologySample {t : State} {a0 a1 a2} (h : t.MemsWf) : (doMetrologySample a0 a1 a2 t).MemsWf := by
  unfold Machine.doMetrologySample
  extract_lets +onlyGivenNames -merge -underBinder x0
  have hx0 : x0.MemsWf := h.arrive
  refine .ite ?_ hx0
  extract_lets +onlyGivenNames -merge -underBinder x1
  have hx1 : x1.MemsWf := hx0.takeRaw
  exact .ite hx1.metSample hx1

theorem State.MemsWf.doRcptAck {t : State} {a0 a1 a2} (h : t.MemsWf) : (doRcptAck a0 a1 a2 t).MemsWf := by
  unfold Machine.doRcptAck
  exact h.whenLive fun _ k0 => k0.command (fun _ k1 => (EffMems.ackEffect _ k1))

theorem State.MemsWf.doReceiptDrain {t : State} {a0} (h : t.MemsWf) : (doReceiptDrain a0 t).MemsWf := by
  unfold Machine.doReceiptDrain
  refine h.whenLive fun _ k0 => ?_
  split
  · exact .ite k0.chargeMet.storeReceipt.bump k0
  · exact k0

theorem State.MemsWf.doReceiptIssue {t : State} {a0} (h : t.MemsWf) : (doReceiptIssue a0 t).MemsWf := by
  unfold Machine.doReceiptIssue
  extract_lets +onlyGivenNames -merge -underBinder x0
  have hx0 : x0.MemsWf := h.arrive
  split
  · exact .ite hx0.boundaryReceipts hx0
  · exact hx0

theorem EffsMems.metWrite {a0 a1 a2} : EffsMems (metWrite a0 a1 a2) := by
  unfold Machine.metWrite
  exact .ite (.some EffMems.ackEffect) (.ite (.some (.mk fun _ k0 => k0.putMet fun w => w)) (.ite (.some (.mk fun _ k2 => k2.putMet fun w => w))
      (.ite (.some EffMems.roWord) (.map fun _ => EffMems.roWord))))

end Sys2Proof.Machine
end

section
/-! PROOFS. Every operation of roles, the safety controller, the site bus and the ledger keeps the sparse memories in canonical form: one lemma for each function of the
model, along its branches; a function that touches no block with a memory by its frame (Laws/Frame). -/
namespace Sys2Proof.Machine

theorem State.MemsWf.setPair {t : State} {f} (h : t.MemsWf) : (t.setPair f).MemsWf :=
  h.only (State.setPair_only ⟨.inl rfl, .inl rfl⟩ (OnlyIn.refl _ _))

theorem State.MemsWf.busFollow {t : State} (h : t.MemsWf) : (State.busFollow t).MemsWf := by
  unfold State.busFollow
  split
  · extract_lets +onlyGivenNames -merge -underBinder x0
    extract_lets +onlyGivenNames -merge -underBinder x1
    exact h.putSbus fun w => w
  · exact h

theorem State.MemsWf.setRole {t : State} {a1 a2} (h : t.MemsWf) : (State.setRole t a1 a2).MemsWf := by
  unfold State.setRole
  refine .ite h ?_
  extract_lets +onlyGivenNames -merge -underBinder x0 x1
  have hx1 : x1.MemsWf := .ite h.busFollow h
  extract_lets +onlyGivenNames -merge -underBinder x2
  have hx2 : x2.MemsWf := hx1.setPair
  exact hx2.bumpIf.log

theorem State.MemsWf.setSeljo {t : State} {a1} (h : t.MemsWf) : (State.setSeljo t a1).MemsWf := h.only (State.setSeljo_only rfl (OnlyIn.refl _ _))

theorem State.MemsWf.enterSyncing {t : State} {a1} (h : t.MemsWf) : (State.enterSyncing t a1).MemsWf := by
  unfold State.enterSyncing
  exact h.setPair.setSeljo.setRole

theorem State.MemsWf.afterRelease {t : State} {a1} (h : t.MemsWf) : (State.afterRelease t a1).MemsWf := by
  unfold State.afterRelease
  refine .ite ?_ (.ite h.setPair.setSeljo.setRole h.enterSyncing)
  extract_lets +onlyGivenNames -merge -underBinder x0
  have hx0 : x0.MemsWf := h.setPair
  extract_lets +onlyGivenNames -merge -underBinder x1
  exact hx0.setPair.setRole.setPair

theorem State.MemsWf.armHold {t : State} {a1} (h : t.MemsWf) : (State.armHold t a1).MemsWf := h.only (State.armHold_only rfl (OnlyIn.refl _ _))

theorem State.MemsWf.assumeInterlock {t : State} {a1} (h : t.MemsWf) : (State.assumeInterlock t a1).MemsWf :=
  h.only (State.assumeInterlock_only rfl rfl (OnlyIn.refl _ _))

theorem State.MemsWf.holdAnew {t : State} (h : t.MemsWf) : (State.holdAnew t).MemsWf := h.only (State.holdAnew_only rfl (OnlyIn.refl _ _))

theorem State.MemsWf.gainActive {t : State} {a1} (h : t.MemsWf) : (State.gainActive t a1).MemsWf := by
  unfold State.gainActive
  extract_lets +onlyGivenNames -merge -underBinder x0
  have hx0 : x0.MemsWf := h.holdAnew.setPair
  extract_lets +onlyGivenNames -merge -underBinder x1
  have hx1 : x1.MemsWf := hx0.setRole
  exact hx1.sendMstAll

theorem State.MemsWf.setPartner {t : State} {a1} (h : t.MemsWf) : (State.setPartner t a1).MemsWf :=
  h.only (State.setPartner_only rfl (OnlyIn.refl _ _))

theorem State.MemsWf.takeHandover {t : State} {a1} (h : t.MemsWf) : (State.takeHandover t a1).MemsWf := by
  unfold State.takeHandover
  exact h.setSeljo.switchHandover.setPartner

theorem State.MemsWf.finishHandover {t : State} (h : t.MemsWf) : (State.finishHandover t).MemsWf := by
  unfold State.finishHandover
  split
  · exact .ite (.ite h h.takeHandover) h.cancelPending
  · exact h

theorem State.MemsWf.liteSteps {t : State} {a1} (h : t.MemsWf) : (State.liteSteps t a1).MemsWf :=
  h.only (State.liteSteps_only rfl rfl rfl (fun _ => rfl) (fun _ => rfl) (fun _ => rfl) (fun _ => rfl) (fun _ => rfl) rfl rfl rfl rfl (OnlyIn.refl _
      _))

theorem State.MemsWf.liteTakeover {t : State} {a1} (h : t.MemsWf) : (State.liteTakeover t a1).MemsWf := by
  unfold State.liteTakeover
  exact .liteSteps (.ite h.cancelPending h)

theorem State.MemsWf.becomeActive {t : State} {a1} (h : t.MemsWf) : (State.becomeActive t a1).MemsWf := by
  unfold State.becomeActive
  extract_lets +onlyGivenNames -merge -underBinder x0 x1
  have hx1 : x1.MemsWf := h.gainActive.armHold
  exact .ite hx1 (.ite hx1.finishHandover hx1.liteTakeover)

theorem State.MemsWf.countRelease {t : State} {a1} (h : t.MemsWf) : (State.countRelease t a1).MemsWf :=
  h.only (State.countRelease_only rfl (OnlyIn.refl _ _))

theorem State.MemsWf.dropSite {t : State} (h : t.MemsWf) : (State.dropSite t).MemsWf :=
  h.only (State.dropSite_only rfl rfl (fun _ => rfl) (fun _ => rfl) (fun _ => rfl) (fun _ => rfl) (fun _ => rfl) rfl (OnlyIn.refl _ _))

theorem State.MemsWf.enterClaiming {t : State} (h : t.MemsWf) : (State.enterClaiming t).MemsWf := by
  unfold State.enterClaiming
  exact .ite h h.setPair.setRole

theorem State.MemsWf.enterUnfit {t : State} {a1} (h : t.MemsWf) : (State.enterUnfit t a1).MemsWf := by
  unfold State.enterUnfit
  exact h.setPair.setRole

theorem State.MemsWf.releaseActive {t : State} {a1} (h : t.MemsWf) : (State.releaseActive t a1).MemsWf := by
  unfold State.releaseActive
  split
  · extract_lets +onlyGivenNames -merge -underBinder x0
    have hx0 : x0.MemsWf := h.countRelease.allOff
    extract_lets +onlyGivenNames -merge -underBinder x1
    have hx1 : x1.MemsWf := .ite hx0.cancelPending hx0
    extract_lets +onlyGivenNames -merge -underBinder x2
    have hx2 : x2.MemsWf := .ite hx1 hx1.dropSite
    exact hx2.afterRelease
  · exact h.setPair.setRole
  · exact h

theorem State.MemsWf.judgeHold {t : State} {a1} (h : t.MemsWf) : (State.judgeHold t a1).MemsWf := by
  unfold State.judgeHold
  exact .ite h.releaseActive h

theorem State.MemsWf.readReleased {t : State} {a1} (h : t.MemsWf) : (State.readReleased t a1).MemsWf :=
  h.only (State.readReleased_only rfl rfl (OnlyIn.refl _ _))

theorem State.MemsWf.refreshPitch {t : State} {a1} (h : t.MemsWf) : (State.refreshPitch t a1).MemsWf :=
  h.only (State.refreshPitch_only rfl (OnlyIn.refl _ _))

theorem State.MemsWf.refreshTick {t : State} {a1} (h : t.MemsWf) : (State.refreshTick t a1).MemsWf :=
  h.only (State.refreshTick_only rfl (OnlyIn.refl _ _))

theorem State.MemsWf.releaseIfFit {t : State} {a1} (h : t.MemsWf) : (State.releaseIfFit t a1).MemsWf := by
  unfold State.releaseIfFit
  exact .ite h (.ite h.releaseActive h.setPair.bumpIf)

theorem State.MemsWf.startRole {t : State} (h : t.MemsWf) : (State.startRole t).MemsWf := by
  unfold State.startRole
  extract_lets +onlyGivenNames -merge -underBinder x0
  have hx0 : x0.MemsWf := h.setPair
  refine .ite hx0 ?_
  extract_lets +onlyGivenNames -merge -underBinder x1
  have hx1 : x1.MemsWf := hx0.setRole
  refine .ite hx1 ?_
  split
  · exact .ite hx1.assumeInterlock.enterUnfit hx1.enterClaiming
  · exact .ite hx1.enterSyncing hx1

theorem State.MemsWf.doActiveIAssert {t : State} {a0} (h : t.MemsWf) : (doActiveIAssert a0 t).MemsWf := by
  unfold Machine.doActiveIAssert
  refine h.whenLive fun _ k0 => ?_
  extract_lets +onlyGivenNames -merge -underBinder x1 x2
  have hx2 : x2.MemsWf := k0.setPair.bumpIf
  split
  · exact .ite hx2.assumeInterlock.enterUnfit hx2.enterSyncing
  · exact .ite hx2.enterSyncing hx2
  · exact .ite hx2 hx2.busFollow.holdAnew.bumpIf.allOff
  · exact hx2

theorem State.MemsWf.doClaimConfirm {t : State} {a0} (h : t.MemsWf) : (doClaimConfirm a0 t).MemsWf := by
  unfold Machine.doClaimConfirm
  exact h.whenLive fun _ k0 => .ite (.ite k0.readReleased.becomeActive (.ite k0 k0.becomeActive)) k0

theorem State.MemsWf.doClaimConflictTimeout {t : State} {a0} (h : t.MemsWf) : (doClaimConflictTimeout a0 t).MemsWf := by
  unfold Machine.doClaimConflictTimeout
  exact h.whenLive fun _ k0 => .ite k0.startRole k0

theorem State.MemsWf.doInitWaitEnd {t : State} {a0} (h : t.MemsWf) : (doInitWaitEnd a0 t).MemsWf := by
  unfold Machine.doInitWaitEnd
  exact h.whenLive fun _ k0 => .ite (.ite k0.startRole (.ite k0.enterClaiming k0)) k0

theorem State.MemsWf.doTakeover {t : State} {a0} (h : t.MemsWf) : (doTakeover a0 t).MemsWf := by
  unfold Machine.doTakeover
  refine h.whenLive fun _ k0 => ?_
  extract_lets +onlyGivenNames -merge -underBinder x1
  have hx1 : x1.MemsWf := k0.readReleased
  exact .ite hx1.becomeActive hx1

theorem State.MemsWf.ctrlFail {t : State} (h : t.MemsWf) : (State.ctrlFail t).MemsWf := by
  unfold State.ctrlFail
  refine .ite h ?_
  extract_lets +onlyGivenNames -merge -underBinder x0 x1
  have hx1 : x1.MemsWf := h.keep
  extract_lets +onlyGivenNames -merge -underBinder x2
  have hx2 : x2.MemsWf := hx1.log.allOff
  exact .releaseActive (hx2.forAll (fun _ _ k3 => k3.fastPath))

theorem State.MemsWf.demandScan {t : State} {a1} (h : t.MemsWf) : (State.demandScan t a1).MemsWf :=
  h.only (State.demandScan_only rfl rfl rfl (fun _ => rfl) rfl rfl rfl rfl (OnlyIn.refl _ _))

theorem State.MemsWf.driveSo {t : State} {a1 a2} (h : t.MemsWf) : (State.driveSo t a1 a2).MemsWf :=
  h.only (State.driveSo_only rfl rfl (OnlyIn.refl _ _))

theorem State.MemsWf.outletScan {t : State} {a1} (h : t.MemsWf) : (State.outletScan t a1).MemsWf := by
  unfold State.outletScan
  extract_lets +onlyGivenNames -merge -underBinder x0 x1 x2 x3
  have hx3 : x3.MemsWf := h.setBay
  extract_lets +onlyGivenNames -merge -underBinder x4
  have hx4 : x4.MemsWf := hx3.bumpIf
  extract_lets +onlyGivenNames -merge -underBinder x5 x6
  have hx6 : x6.MemsWf := .ite hx4.contactorFail hx4
  exact .ite hx6.contactorOpen.leaveFault (.ite hx6.tryCableTarget hx6)

theorem State.MemsWf.readSo {t : State} {a1 a2} (h : t.MemsWf) : (State.readSo t a1 a2).MemsWf :=
  h.only (State.readSo_only rfl rfl rfl rfl (OnlyIn.refl _ _))

theorem State.MemsWf.safCtrlWrite {t : State} {a1 a2} (h : t.MemsWf) : (State.safCtrlWrite t a1 a2).1.MemsWf :=
  h.only (State.safCtrlWrite_only rfl rfl rfl rfl rfl rfl (OnlyIn.refl _ _))

theorem State.MemsWf.stopScan {t : State} {a1} (h : t.MemsWf) : (State.stopScan t a1).MemsWf :=
  h.only (State.stopScan_only rfl rfl (fun _ => rfl) rfl rfl rfl rfl (OnlyIn.refl _ _))

theorem State.MemsWf.scanActs {t : State} {a1} (h : t.MemsWf) : (State.scanActs t a1).MemsWf := by
  unfold State.scanActs
  extract_lets +onlyGivenNames -merge -underBinder x0
  have hx0 : x0.MemsWf := h.forAll fun _ _ k1 => k1.demandScan.stopScan
  extract_lets +onlyGivenNames -merge -underBinder x2
  have hx2 : x2.MemsWf := hx0.forAll fun _ _ k3 => .ite k3.checkInsulation k3
  extract_lets +onlyGivenNames -merge -underBinder x4
  have hx4 : x4.MemsWf := .foldl (fun _ _ k5 => k5.driveSo) hx2
  exact .retake (hx4.forAll (fun _ _ k6 => k6.outletScan))

theorem State.MemsWf.scanPairs {t : State} {a1 a2} (h : t.MemsWf) : (State.scanPairs t a1 a2).MemsWf :=
  h.only (State.scanPairs_only rfl rfl rfl rfl (OnlyIn.refl _ _))

theorem State.MemsWf.startScan {t : State} {a1} (h : t.MemsWf) : (State.startScan t a1).MemsWf := h.only (State.startScan_only rfl (OnlyIn.refl _ _))

theorem State.MemsWf.doSafetyScan {t : State} {a0 a1} (h : t.MemsWf) : (doSafetyScan a0 a1 t).MemsWf := by
  unfold Machine.doSafetyScan
  extract_lets +onlyGivenNames -merge -underBinder x0
  have hx0 : x0.MemsWf := h.arrive
  refine .ite hx0 ?_
  extract_lets +onlyGivenNames -merge -underBinder x1
  have hx1 : x1.MemsWf := hx0.startScan
  extract_lets +onlyGivenNames -merge -underBinder x2
  have hx2 : x2.MemsWf := .readSo (.scanPairs (.ite hx1 hx1.ctrlFail))
  exact .ite hx2.scanActs hx2

theorem EffsMems.safWrite {a0 a1 a2} : EffsMems (safWrite a0 a1 a2) := .of (safWrite_eff rfl rfl)

theorem State.MemsWf.armTat {t : State} {a1 a2} (h : t.MemsWf) : (State.armTat t a1 a2).MemsWf := by
  unfold State.armTat
  extract_lets +onlyGivenNames -merge -underBinder x0 x1 x2 x3
  exact .bump (h.setTat fun _ w => w)

theorem State.MemsWf.boxResult {t : State} {a1 a2} (h : t.MemsWf) : (State.boxResult t a1 a2).MemsWf := by
  unfold State.boxResult
  split
  · exact .bump (h.setBox fun _ w => w)
  · exact h

theorem State.MemsWf.busState {t : State} {a1} (h : t.MemsWf) : (State.busState t a1).MemsWf := by
  unfold State.busState
  exact .bumpIf (h.setBus fun _ w => w)

theorem State.MemsWf.busWakes {t : State} {a1} (h : t.MemsWf) : (State.busWakes t a1).MemsWf := by
  unfold State.busWakes
  split
  · exact h.setBus fun _ w => w
  · exact .busState (h.setBus fun _ w => w)
  · exact .busState (h.setBus fun _ w => w)

theorem State.MemsWf.setCh {t : State} {a1 a2} (h : t.MemsWf) : (State.setCh t a1 a2).MemsWf := by
  unfold State.setCh
  exact h.setBus fun _ w => w

theorem State.MemsWf.clearBusLoad {t : State} (h : t.MemsWf) : (State.clearBusLoad t).MemsWf :=
  h.only (State.clearBusLoad_only rfl rfl (OnlyIn.refl _ _))

theorem State.MemsWf.cancelBox {t : State} {a1} (h : t.MemsWf) : (State.cancelBox t a1).MemsWf := by
  unfold State.cancelBox
  extract_lets +onlyGivenNames -merge -underBinder x0 x1 x2 x3 x4
  have hx4 : ∀ w, w.MemsWf → (x4 w).MemsWf := by
    unfold x4
    intro _ k5
    extract_lets +onlyGivenNames -merge -underBinder x6
    have hx6 : x6.MemsWf := k5.setCh
    exact hx6.boxResult.clearBusLoad
  split
  · exact hx4 _ h
  · exact .ite (hx4 _ (h.setCh.setBox fun _ w => w)) (h.setBox fun _ w => w)
  · exact h.setBox fun _ w => w
  · exact h

theorem State.MemsWf.tatResult {t : State} {a1 a2 a3 a4} (h : t.MemsWf) : (State.tatResult t a1 a2 a3 a4).MemsWf := by
  unfold State.tatResult
  extract_lets +onlyGivenNames -merge -underBinder x0
  exact .bump (h.setTat fun _ w => w)

theorem State.MemsWf.cancelTat {t : State} {a1} (h : t.MemsWf) : (State.cancelTat t a1).MemsWf := by
  unfold State.cancelTat
  extract_lets +onlyGivenNames -merge -underBinder x0 x1
  refine .ite (.ite (.tatResult (h.setCh.setTat fun _ w => w)) (h.setTat fun _ w => w)) ?_
  split
  · exact .ite h.tatResult (h.setTat fun _ w => w)
  · exact .ite h.tatResult h

theorem State.MemsWf.setBusLoad {t : State} (h : t.MemsWf) : (State.setBusLoad t).MemsWf := h.only (State.setBusLoad_only rfl rfl (OnlyIn.refl _ _))

theorem State.MemsWf.judgeBusLoad {t : State} (h : t.MemsWf) : (State.judgeBusLoad t).MemsWf :=
  h.only (State.judgeBusLoad_only rfl rfl (OnlyIn.refl _ _))

theorem State.MemsWf.enterOccurrence {t : State} {a1 a2 a3} (h : t.MemsWf) : (State.enterOccurrence t a1 a2 a3).MemsWf := by
  unfold State.enterOccurrence
  extract_lets +onlyGivenNames -merge -underBinder x0
  exact .ite h h.setCh.judgeBusLoad

theorem State.MemsWf.gainSync {t : State} {a1} (h : t.MemsWf) : (State.gainSync t a1).MemsWf := by
  unfold State.gainSync
  exact h.setCh.bumpIf.clearBusLoad

theorem State.MemsWf.setErr {t : State} {a1 a2 a3} (h : t.MemsWf) : (State.setErr t a1 a2 a3).MemsWf := by
  unfold State.setErr
  extract_lets +onlyGivenNames -merge -underBinder x0 x1 x2
  have hx2 : x2.MemsWf := h.setCh
  exact .ite hx2 hx2.log

theorem State.MemsWf.goodReceive {t : State} {a1} (h : t.MemsWf) : (State.goodReceive t a1).MemsWf := by
  unfold State.goodReceive
  extract_lets +onlyGivenNames -merge -underBinder x0
  refine .ite ?_ h.setErr
  extract_lets +onlyGivenNames -merge -underBinder x1
  have hx1 : x1.2.MemsWf := h.drawNat
  exact hx1.setErr

theorem State.MemsWf.popQueue {t : State} {a1} (h : t.MemsWf) : (State.popQueue t a1).MemsWf := by
  unfold State.popQueue
  exact h.setCh.clearBusLoad

theorem State.MemsWf.headFailed {t : State} {a1} (h : t.MemsWf) : (State.headFailed t a1).MemsWf := by
  unfold State.headFailed
  split
  · refine .ite ?_ h
    split
    · exact .ite h.popQueue.boxResult h.boxResult
    · exact h
  · exact h

theorem State.MemsWf.sleepWhenAnnounced {t : State} (h : t.MemsWf) : (State.sleepWhenAnnounced t).MemsWf := by
  unfold State.sleepWhenAnnounced
  exact .ite h.busState h

theorem State.MemsWf.hearAnnounce {t : State} {a1 a2} (h : t.MemsWf) : (State.hearAnnounce t a1 a2).MemsWf := by
  unfold State.hearAnnounce
  refine .ite h ?_
  refine .ite ?_ (.ite (.busState (h.setBus fun _ w => w)) h)
  extract_lets +onlyGivenNames -merge -underBinder x0
  have hx0 : x0.MemsWf := .ite (.busState (h.setBus fun _ w => w)) h
  exact hx0.setCh.sleepWhenAnnounced

theorem State.MemsWf.loadTat {t : State} {a1} (h : t.MemsWf) : (State.loadTat t a1).MemsWf := by
  unfold State.loadTat
  exact h.setTat fun _ w => w

theorem State.MemsWf.popFifo {t : State} {a1} (h : t.MemsWf) : (State.popFifo t a1).MemsWf := by
  unfold State.popFifo
  exact h.setCh

theorem State.MemsWf.queueFrame {t : State} {a1 a2} (h : t.MemsWf) : (State.queueFrame t a1 a2).MemsWf := by
  unfold State.queueFrame
  exact h.setCh

theorem State.MemsWf.sbusClear {t : State} (h : t.MemsWf) : (State.sbusClear t).MemsWf := by
  unfold State.sbusClear
  exact h.setBus fun _ w => w

theorem State.MemsWf.sendBox {t : State} {k v} (h : t.MemsWf) : (t.sendBox k v).MemsWf := by
  exact .bump (.queueFrame (h.setBox fun _ w => w))

theorem State.MemsWf.setRx {t : State} {a1 a2} (h : t.MemsWf) : (State.setRx t a1 a2).MemsWf := by
  unfold State.setRx
  exact h.setBus fun _ w => w

theorem State.MemsWf.startAttempt {t : State} {a1 a2 a3} (h : t.MemsWf) : (State.startAttempt t a1 a2 a3).MemsWf := by
  unfold State.startAttempt
  extract_lets +onlyGivenNames -merge -underBinder x0 x1
  have hx1 : x1.MemsWf := h.setCh
  refine .ite ?_ hx1
  split
  · exact .bump (hx1.setBox fun _ w => w)
  · exact hx1

theorem State.MemsWf.startSleep {t : State} (h : t.MemsWf) : (State.startSleep t).MemsWf := by
  unfold State.startSleep
  extract_lets +onlyGivenNames -merge -underBinder x0
  have hx0 : x0.MemsWf := h.setBus fun _ w => w
  exact hx0.busState.sleepWhenAnnounced

theorem State.MemsWf.storeFifo {t : State} {a1 a2} (h : t.MemsWf) : (State.storeFifo t a1 a2).MemsWf := by
  unfold State.storeFifo
  extract_lets +onlyGivenNames -merge -underBinder x0
  exact .ite h (.ite h.setCh h.setCh.bump)

theorem State.MemsWf.storeSlots {t : State} {a1 a2 a3} (h : t.MemsWf) : (State.storeSlots t a1 a2 a3).MemsWf := by
  unfold State.storeSlots
  refine h.forAll fun _ _ k0 => ?_
  extract_lets +onlyGivenNames -merge -underBinder x1
  exact .ite k0.setRx.bump k0

theorem State.MemsWf.wakeBad {t : State} {a1 a2} (h : t.MemsWf) : (State.wakeBad t a1 a2).MemsWf := by
  unfold State.wakeBad
  exact .ite (h.setBus fun _ w => w) h

theorem State.MemsWf.wakeGood {t : State} {a1 a2} (h : t.MemsWf) : (State.wakeGood t a1 a2).MemsWf := by
  unfold State.wakeGood
  exact .ite (h.setBus fun _ w => w) h

theorem State.MemsWf.wakeWrite {t : State} (h : t.MemsWf) : (State.wakeWrite t).MemsWf := by
  unfold State.wakeWrite
  exact .ite h.busWakes h

theorem State.MemsWf.wrongWindow {t : State} {a1} (h : t.MemsWf) : (State.wrongWindow t a1).MemsWf := by
  unfold State.wrongWindow
  extract_lets +onlyGivenNames -merge -underBinder x0
  have hx0 : x0.MemsWf := h.setCh
  exact hx0.keep.setBusLoad

theorem EffMems.boxCtrl {a0 a1 a2} : EffMems (boxCtrl a0 a1 a2) := by
  unfold Machine.boxCtrl
  exact .ite (.mk fun _ k0 => k0) (.ite (.mk fun _ k2 => k2.sendBox) (.ite (.mk fun _ k4 => k4.cancelBox) EffMems.roWord))

theorem EffsMems.boxWrite {a0 a1 a2 a3} : EffsMems (boxWrite a0 a1 a2 a3) := by
  unfold Machine.boxWrite
  split
  · exact .some (.mk fun _ k0 => k0.setBox fun _ w => w)
  · exact .some EffMems.boxCtrl
  · exact .some EffMems.roWord
  · exact .ite (.some (.mk fun _ k2 => k2.setBox fun _ w => memWrites_wf _ _ w)) .none

theorem EffMems.btrWrite {a0 a1 a2 a3} : EffMems (btrWrite a0 a1 a2 a3) := by
  unfold Machine.btrWrite
  exact .mk fun _ k0 => k0.setCh

theorem State.MemsWf.doArbitratingWindow {t : State} {a0 a1 a2} (h : t.MemsWf) : (doArbitratingWindow a0 a1 a2 t).MemsWf := by
  unfold Machine.doArbitratingWindow
  refine h.whenLive fun _ k0 => ?_
  extract_lets +onlyGivenNames -merge -underBinder x1
  have hx1 : x1.MemsWf := k0.judgeBusLoad
  extract_lets +onlyGivenNames -merge -underBinder x2
  split
  · exact hx1
  · extract_lets +onlyGivenNames -merge -underBinder x3
    have hx3 : x3.MemsWf := hx1.enterOccurrence
    extract_lets +onlyGivenNames -merge -underBinder x4
    refine .ite ?_ hx3
    split
    · exact .ite hx3.startAttempt hx3
    · exact hx3

theorem State.MemsWf.doBusOffRecovery {t : State} {a0 a1} (h : t.MemsWf) : (doBusOffRecovery a0 a1 t).MemsWf := by
  unfold Machine.doBusOffRecovery
  exact h.whenLive fun _ k0 => .ite k0.setErr k0

theorem EffMems.sleepEffect {a0} : EffMems (sleepEffect a0) := by
  unfold Machine.sleepEffect
  exact .mk fun _ k0 => .ite (.startSleep (k0.setBus fun _ w => w)) (k0.setBus fun _ w => w)

theorem State.MemsWf.doBusSleep {t : State} {a0 a1} (h : t.MemsWf) : (doBusSleep a0 a1 t).MemsWf := by
  unfold Machine.doBusSleep
  exact h.whenLive fun _ k0 => k0.command (fun _ k1 => (EffMems.sleepEffect _ k1))

theorem State.MemsWf.doBusWakeWrite {t : State} {a0 a1} (h : t.MemsWf) : (doBusWakeWrite a0 a1 t).MemsWf := by
  unfold Machine.doBusWakeWrite
  exact h.whenLive fun _ k0 => k0.command (fun _ k1 => k1.wakeWrite)

theorem State.MemsWf.doCanFrameReceived {t : State} {a0 a1 a2} (h : t.MemsWf) : (doCanFrameReceived a0 a1 a2 t).MemsWf := by
  unfold Machine.doCanFrameReceived
  refine h.whenScanning fun _ k0 => ?_
  extract_lets +onlyGivenNames -merge -underBinder x1
  have hx1 : x1.MemsWf := k0.wakeGood
  refine .ite hx1 ?_
  extract_lets +onlyGivenNames -merge -underBinder x2
  have hx2 : x2.MemsWf := hx1.goodReceive
  refine .ite hx2 ?_
  split
  · extract_lets +onlyGivenNames -merge -underBinder x3
    extract_lets +onlyGivenNames -merge -underBinder x4 x5
    have hx5 : x5.MemsWf := hx2.storeFifo
    exact .ite (.ite hx5.storeSlots hx5.wrongWindow) (.ite hx5.wrongWindow hx5)
  · extract_lets +onlyGivenNames -merge -underBinder x6
    have hx6 : x6.2.MemsWf := hx2.drawNat
    extract_lets +onlyGivenNames -merge -underBinder x7 x8
    have hx8 : x8.MemsWf := hx6.storeFifo
    exact .ite hx8.wrongWindow hx8

theorem State.MemsWf.doCanRxError {t : State} {a0 a1 a2} (h : t.MemsWf) : (doCanRxError a0 a1 a2 t).MemsWf := by
  unfold Machine.doCanRxError
  refine h.whenScanning fun _ k0 => ?_
  extract_lets +onlyGivenNames -merge -underBinder x1 x2
  have hx2 : x2.MemsWf := k0.wakeBad
  exact .ite hx2 (.ite hx2 hx2.setErr)

theorem State.MemsWf.doCanTxComplete {t : State} {a0 a1} (h : t.MemsWf) : (doCanTxComplete a0 a1 t).MemsWf := by
  unfold Machine.doCanTxComplete
  refine h.whenLive fun _ k0 => ?_
  extract_lets +onlyGivenNames -merge -underBinder x1 x2
  have hx2 : x2.MemsWf := k0.setCh.setErr
  split
  · exact k0
  · exact hx2.sleepWhenAnnounced
  · exact hx2.tatResult
  · split
    · extract_lets +onlyGivenNames -merge -underBinder x3
      have hx3 : x3.MemsWf := hx2.popQueue
      refine .ite ?_ hx3
      split
      · exact hx3.boxResult
      · exact hx3
    · exact hx2

theorem State.MemsWf.doCanTxError {t : State} {a0 a1 a2} (h : t.MemsWf) : (doCanTxError a0 a1 a2 t).MemsWf := by
  unfold Machine.doCanTxError
  refine h.whenLive fun _ k0 => ?_
  extract_lets +onlyGivenNames -merge -underBinder x1
  refine .ite (.ite k0 k0.setErr) ?_
  extract_lets +onlyGivenNames -merge -underBinder x2
  have hx2 : x2.MemsWf := k0.setCh
  extract_lets +onlyGivenNames -merge -underBinder x3
  have hx3 : x3.MemsWf := hx2.setErr
  split
  · exact k0
  · exact hx3.sleepWhenAnnounced
  · extract_lets +onlyGivenNames -merge -underBinder x4
    exact hx3.setCh.tatResult
  · extract_lets +onlyGivenNames -merge -underBinder x5
    exact hx3.setCh.headFailed

theorem State.MemsWf.doFifoPop {t : State} {a0 a1 a2} (h : t.MemsWf) : (doFifoPop a0 a1 a2 t).MemsWf := by
  unfold Machine.doFifoPop
  exact h.whenLive fun _ k0 => k0.command (fun _ k1 => k1.popFifo)

theorem State.MemsWf.doMailboxCancel {t : State} {a0 a1 a2} (h : t.MemsWf) : (doMailboxCancel a0 a1 a2 t).MemsWf := by
  unfold Machine.doMailboxCancel
  exact h.whenLive fun _ k0 => k0.command (fun _ k1 => k1.cancelBox)

theorem State.MemsWf.doMailboxSend {t : State} {a0 a1 a2 a3} (h : t.MemsWf) : (doMailboxSend a0 a1 a2 a3 t).MemsWf := by
  unfold Machine.doMailboxSend
  refine h.whenLive fun _ k0 => ?_
  extract_lets +onlyGivenNames -merge -underBinder x1
  have hx1 : EffMems x1 := EffMems.boxCtrl
  exact k0.command fun _ k2 => hx1 _ k2

theorem State.MemsWf.doReferenceMissing {t : State} {a0 a1} (h : t.MemsWf) : (doReferenceMissing a0 a1 t).MemsWf := by
  unfold Machine.doReferenceMissing
  refine h.whenLive fun _ k0 => ?_
  refine .ite ?_ k0
  extract_lets +onlyGivenNames -merge -underBinder x1
  have hx1 : x1.MemsWf := k0.setCh
  refine .ite ?_ hx1
  extract_lets +onlyGivenNames -merge -underBinder x2
  have hx2 : x2.MemsWf := hx1.setCh
  exact hx2.log.setBusLoad

theorem State.MemsWf.doReferenceReceived {t : State} {a0 a1 a2} (h : t.MemsWf) : (doReferenceReceived a0 a1 a2 t).MemsWf := by
  unfold Machine.doReferenceReceived
  refine h.whenLive fun _ k0 => ?_
  extract_lets +onlyGivenNames -merge -underBinder x1
  refine .ite ?_ k0
  split
  · extract_lets +onlyGivenNames -merge -underBinder x2
    have hx2 : x2.MemsWf := k0.setCh
    exact hx2.gainSync.hearAnnounce
  · exact k0

theorem State.MemsWf.doReferenceSend {t : State} {a0 a1} (h : t.MemsWf) : (doReferenceSend a0 a1 t).MemsWf := by
  unfold Machine.doReferenceSend
  refine h.whenLive fun _ k0 => ?_
  extract_lets +onlyGivenNames -merge -underBinder x1
  split
  · refine .ite ?_ k0
    extract_lets +onlyGivenNames -merge -underBinder x2 x3 x4 x5 x6 x7
    have hx7 : x7.MemsWf := k0.setCh
    exact hx7.gainSync
  · exact k0

theorem State.MemsWf.doSbusClrCnt {t : State} {a0 a1} (h : t.MemsWf) : (doSbusClrCnt a0 a1 t).MemsWf := by
  unfold Machine.doSbusClrCnt
  exact h.whenLive fun _ k0 => k0.command (fun _ k1 => k1.sbusClear)

theorem State.MemsWf.doSlotMiss {t : State} {a0 a1} (h : t.MemsWf) : (doSlotMiss a0 a1 t).MemsWf := by
  unfold Machine.doSlotMiss
  refine h.whenLive fun _ k0 => ?_
  extract_lets +onlyGivenNames -merge -underBinder x1
  split
  · extract_lets +onlyGivenNames -merge -underBinder x2
    exact .ite k0.setRx k0
  · exact k0

theorem EffMems.tatCtrl {a0 a1 a2} : EffMems (tatCtrl a0 a1 a2) := by
  unfold Machine.tatCtrl
  exact .ite (.mk fun _ k0 => k0) (.ite (.mk fun _ k2 => .armTat (.ite k2.loadTat k2)) (.ite (.mk fun _ k4 => k4.cancelTat) (.ite (.mk fun _ k6 =>
      k6.loadTat) EffMems.roWord)))

theorem State.MemsWf.tatCommand {t : State} {a0 a1 a2 a3 a4} (h : t.MemsWf) : (tatCommand a0 a1 a2 a3 a4 t).MemsWf := by
  unfold Machine.tatCommand
  refine h.whenLive fun _ k0 => ?_
  extract_lets +onlyGivenNames -merge -underBinder x1
  have hx1 : EffMems x1 := EffMems.tatCtrl
  exact k0.command fun _ k2 => hx1 _ k2

theorem State.MemsWf.doTatArm {t : State} {a0 a1 a2 a3} (h : t.MemsWf) : (doTatArm a0 a1 a2 a3 t).MemsWf := by
  unfold Machine.doTatArm
  exact h.tatCommand

theorem State.MemsWf.doTatCancel {t : State} {a0 a1 a2} (h : t.MemsWf) : (doTatCancel a0 a1 a2 t).MemsWf := by
  unfold Machine.doTatCancel
  exact h.whenLive fun _ k0 => k0.command (fun _ k1 => k1.cancelTat)

theorem State.MemsWf.doTatCommitPoint {t : State} {a0 a1 a2} (h : t.MemsWf) : (doTatCommitPoint a0 a1 a2 t).MemsWf := by
  unfold Machine.doTatCommitPoint
  refine h.whenScanning fun _ k0 => ?_
  extract_lets +onlyGivenNames -merge -underBinder x1
  split
  · refine .ite ?_ k0
    extract_lets +onlyGivenNames -merge -underBinder x2
    have hx2 : x2.MemsWf := .ite (k0.setTat fun _ w => ⟨w.1, w.1⟩) k0
    split
    · exact hx2.tatResult
    · extract_lets +onlyGivenNames -merge -underBinder x3
      exact .bump (.setCh (hx2.setTat fun _ w => w))
  · exact k0

theorem State.MemsWf.doTatLoad {t : State} {a0 a1 a2 a3} (h : t.MemsWf) : (doTatLoad a0 a1 a2 a3 t).MemsWf := by
  unfold Machine.doTatLoad
  exact h.tatCommand

theorem EffMems.rxfWrite {a0 a1 a2 a3} : EffMems (rxfWrite a0 a1 a2 a3) := by
  unfold Machine.rxfWrite
  exact .mk fun _ k0 => k0.setCh

theorem EffMems.sbusCfg {a0 a1} : EffMems (sbusCfg a0 a1) := by
  unfold Machine.sbusCfg
  extract_lets +onlyGivenNames -merge -underBinder x0
  exact .mk fun _ k1 => k1.setBus fun _ w => w

theorem EffMems.sbusCtrl {a0 a1} : EffMems (sbusCtrl a0 a1) := by
  unfold Machine.sbusCtrl
  refine .ite (.mk fun _ k0 => k0) ?_
  extract_lets +onlyGivenNames -merge -underBinder x2
  have hx2 : EffMems x2 := .ite EffMems.sleepEffect (.mk fun _ k3 => k3.wakeWrite)
  refine .mk fun _ k5 => ?_
  extract_lets +onlyGivenNames -merge -underBinder x7
  have hx7 : x7.MemsWf := hx2 _ k5
  extract_lets +onlyGivenNames -merge -underBinder x8
  have hx8 : x8.MemsWf := .ite hx7.popFifo (.ite hx7.popFifo hx7)
  exact .ite hx8.sbusClear hx8

theorem EffsMems.sbusLowWrite {a0 a1 a2 a3} : EffsMems (sbusLowWrite a0 a1 a2 a3) := by
  unfold Machine.sbusLowWrite
  split
  · exact .some EffMems.sbusCtrl
  · exact .some EffMems.sbusCfg
  · exact .some EffMems.btrWrite
  · exact .some EffMems.btrWrite
  · exact .some (.mk fun _ k0 => k0.setBus fun _ w => w)
  · exact .some (.mk fun _ k2 => k2.setBus fun _ w => w)
  · exact .some (.mk fun _ k4 => k4.setBus fun _ w => w)
  · exact .some (.mk fun _ k6 => k6.setBus fun _ w => w)
  · exact .map fun _ => EffMems.roWord

theorem EffsMems.tatWrite {t : State} {m k i v} (h : t.MemsWf) : EffsMems (tatWrite t m k i v) := by
  have buf : t.sbus.tats[k].MemsWf := h.sbus.2 k
  unfold Machine.tatWrite
  dsimp only
  split
  · exact .some (.mk fun _ k => k.setTat fun _ _ => buf)
  · exact .some (.mk fun _ k => k.setTat fun _ _ => buf)
  · exact .some (.mk fun _ k => k.setTat fun _ w => ⟨w.1, w.2⟩)
  · exact .some (.mk fun _ k => k.setTat fun _ w => ⟨w.1, w.2⟩)
  · exact .some EffMems.tatCtrl
  · exact .some EffMems.roWord
  · exact .ite (.some (.mk fun _ k => k.setTat fun _ w => ⟨memWrites_wf _ _ w.1, w.2⟩)) .none

theorem EffMems.slotCfg {a0 a1} : EffMems (slotCfg a0 a1) := by
  unfold Machine.slotCfg
  exact .mk fun _ k0 => k0.setRx

theorem EffsMems.sbusWrite {t : State} {a1 a2 a3} (h : t.MemsWf) : EffsMems (sbusWrite t a1 a2 a3) := by
  unfold Machine.sbusWrite
  exact .ite .none (.ite EffsMems.sbusLowWrite (.ite (.map fun _ => EffMems.rxfWrite) (.ite (.map fun _ => EffMems.roWord) (.ite (.bind fun _ =>
      EffsMems.boxWrite) (.ite (.bind fun _ => EffsMems.tatWrite h) (.bind fun _ => .ite (.some EffMems.slotCfg) (.map fun _ => EffMems.roWord)))))))

theorem State.MemsWf.chargeLedger {t : State} {a1 a2} (h : t.MemsWf) : (State.chargeLedger t a1 a2).MemsWf :=
  h.only (State.chargeLedger_only rfl (OnlyIn.refl _ _))

theorem State.MemsWf.clearPart {t : State} {a1 a2} (h : t.MemsWf) : (State.clearPart t a1 a2).MemsWf := by
  unfold State.clearPart
  extract_lets +onlyGivenNames -merge -underBinder x0 x1
  have hx1 : x1.MemsWf := h.setPart fun P w => by
    simpa only [Partition.put] using memWrites_wf _ _ w
  extract_lets +onlyGivenNames -merge -underBinder x2
  have hx2 : x2.MemsWf := hx1.bump.bumpIf
  exact .ite hx2.log hx2

theorem State.MemsWf.writeHead {t : State} {a1} (h : t.MemsWf) : (State.writeHead t a1).MemsWf := by
  unfold State.writeHead
  extract_lets +onlyGivenNames -merge -underBinder x0
  split
  · exact h
  · extract_lets +onlyGivenNames -merge -underBinder x1
    have hx1 : x1.MemsWf := .bumpIf (h.setPart fun _ w => Partition.take_memWf w _ _ _)
    exact hx1.bumpIf

theorem State.MemsWf.drainLedger {t : State} (h : t.MemsWf) : (State.drainLedger t).MemsWf := by
  unfold State.drainLedger
  exact h.forAll fun _ _ k0 => .foldl (fun _ _ k1 => k1.writeHead) k0

theorem State.MemsWf.ledgerAdopt {t : State} (h : t.MemsWf) : (State.ledgerAdopt t).MemsWf := by
  unfold State.ledgerAdopt
  exact h.forAll fun _ _ k0 => k0.setPart fun _ w => Partition.adopt_memWf w _ _

theorem State.MemsWf.ledgerMark {t : State} {a1} (h : t.MemsWf) : (State.ledgerMark t a1).MemsWf :=
  h.only (State.ledgerMark_only rfl rfl rfl (OnlyIn.refl _ _))

theorem State.MemsWf.doClrSaf {t : State} {a0 a1} (h : t.MemsWf) : (doClrSaf a0 a1 t).MemsWf := by
  unfold Machine.doClrSaf
  exact h.whenLive fun _ k0 => k0.command (fun _ k1 => k1.clearPart)

theorem State.MemsWf.doClrSys {t : State} {a0 a1} (h : t.MemsWf) : (doClrSys a0 a1 t).MemsWf := by
  unfold Machine.doClrSys
  exact h.whenLive fun _ k0 => k0.command (fun _ k1 => k1.clearPart)

theorem State.MemsWf.doLedgerRecordWrite {t : State} {a0 a1} (h : t.MemsWf) : (doLedgerRecordWrite a0 a1 t).MemsWf := by
  unfold Machine.doLedgerRecordWrite
  refine h.whenLive fun _ k0 => ?_
  split
  · exact k0
  · exact .ite k0 k0.chargeLedger.writeHead

theorem EffMems.ldgCfg {a0 a1 a2} : EffMems (ldgCfg a0 a1 a2) := by
  unfold Machine.ldgCfg
  extract_lets +onlyGivenNames -merge -underBinder x0 x1 x2 x3 x4 x5
  exact .mk fun _ k6 => .setPart (k6.setPart fun _ w => w) fun _ w => w

theorem EffMems.ldgCtrl {a0 a1 a2} : EffMems (ldgCtrl a0 a1 a2) := by
  unfold Machine.ldgCtrl
  exact .ite (.mk fun _ k0 => k0) (.ite (.mk fun _ k2 => k2.clearPart) (.ite (.mk fun _ k4 => k4.clearPart) (.ite (.mk fun _ k6 => k6.ledgerMark)
      EffMems.roWord)))

theorem EffsMems.ldgWrite {a0 a1 a2 a3 a4} : EffsMems (ldgWrite a0 a1 a2 a3 a4) := by
  unfold Machine.ldgWrite
  refine .ite .none ?_
  split
  · exact .some EffMems.ldgCtrl
  · exact .some EffMems.ldgCfg
  · exact .some (.mk fun _ k0 => k0.setLdg fun _ w => w)
  · exact .some (.mk fun _ k2 => k2.setLdg fun _ w => w)
  · exact .some (.mk fun _ k4 => k4.setLdg fun _ w => w)
  · exact .ite (.map fun _ => EffMems.roWord) (.ite (.map fun _ => .mk fun _ k6 => k6.setLdg fun _ w => w) (.ite (.map fun _ => .inRange fun _ k8 =>
      k8.setLdg fun _ w => w) (.bind fun _ => .map fun _ => .inRange fun _ k10 => k10.setLdg fun _ w => w)))

end Sys2Proof.Machine
end

section
/-! PROOFS. Every operation of keys, update delivery, restarts and clocks keeps the sparse memories in canonical form: one lemma for each function of the
model, along its branches; a function that touches no block with a memory by its frame (Laws/Frame). -/
namespace Sys2Proof.Machine

theorem State.MemsWf.setHost {t : State} {f} (h : t.MemsWf) : (t.setHost f).MemsWf :=
  h.only (State.setHost_only ⟨.inl rfl, .inl rfl, .inl rfl, .inl rfl⟩ (OnlyIn.refl _ _))

theorem State.MemsWf.keyStart {t : State} {a1 a2} (h : t.MemsWf) : (State.keyStart t a1 a2).MemsWf := by
  unfold State.keyStart
  exact .bump (h.setVault fun _ w => w)

theorem State.MemsWf.keyCommand {t : State} {a1 a2 a3} (h : t.MemsWf) : (State.keyCommand t a1 a2 a3).MemsWf := by
  unfold State.keyCommand
  exact h.command fun _ k0 => k0.keyStart

theorem State.MemsWf.keyDone {t : State} {a1} (h : t.MemsWf) : (State.keyDone t a1).MemsWf := by
  unfold State.keyDone
  extract_lets +onlyGivenNames -merge -underBinder x0
  have hx0 : x0.MemsWf := .bump (h.setVault fun _ w => w)
  exact .ite hx0.remaskRound hx0

theorem State.MemsWf.unloadId {t : State} {a1} (h : t.MemsWf) : (State.unloadId t a1).MemsWf := by
  unfold State.unloadId
  exact h.setVault fun _ w => w

theorem State.MemsWf.storeBlob {t u : State} {b} (h : t.MemsWf) (e : t.storeBlob b = .ok u) : u.MemsWf := by
  unfold State.storeBlob at e
  split at e
  · cases e
  · cases e
    exact h.unloadId.setVault fun _ w => w

theorem State.MemsWf.wrapStore {t : State} {k q} (h : t.MemsWf) (e : t.wrapStore k = .ok q) : q.2.MemsWf := by
  unfold State.wrapStore at e
  dsimp only at e
  generalize hr : (t.drawBytes 12).2.storeBlob (blobOf (wrapBlob (t.drawBytes 12).2 k (t.drawBytes 12).1)) = r at e
  cases r with
  | error x => cases e
  | ok u =>
    cases e
    exact h.drawBytes.storeBlob hr

theorem State.MemsWf.opGenerate {t : State} {a1} (h : t.MemsWf) : (State.opGenerate t a1).MemsWf := by
  unfold State.opGenerate
  refine .ite h.keyDone ?_
  extract_lets +onlyGivenNames -merge -underBinder x0
  have hx0 : x0.2.MemsWf := h.drawBytes
  extract_lets +onlyGivenNames -merge -underBinder x1
  split
  · next e2 =>
      exact .keyDone (.setVault (hx0.wrapStore e2) fun _ w => ⟨memOf_wf _ _, w.2⟩)
  · exact h.keyDone

theorem State.MemsWf.placeKey {t u : State} {k} (h : t.MemsWf) (e : t.placeKey k = some u) : u.MemsWf := by
  unfold State.placeKey at e
  split at e
  · cases e
    exact h.putKey
  · exact h.loadKey e

theorem State.MemsWf.opLoad {t : State} {a1} (h : t.MemsWf) : (State.opLoad t a1).MemsWf := by
  unfold State.opLoad
  split
  · exact h.keyDone
  · refine .ite h.keyDone ?_
    split
    · next e0 =>
        exact .keyDone (h.placeKey e0)
    · exact h.keyDone

theorem State.MemsWf.opUnload {t : State} {a1} (h : t.MemsWf) : (State.opUnload t a1).MemsWf := by
  unfold State.opUnload
  split
  · exact .keyDone (h.setVault fun _ w => w)
  · exact h.keyDone

theorem State.MemsWf.opStore {t : State} {a1} (h : t.MemsWf) : (State.opStore t a1).MemsWf := by
  unfold State.opStore
  split
  · exact h.keyDone
  · refine .ite h.keyDone ?_
    split
    · next e0 =>
        exact .keyDone (h.storeBlob e0)
    · exact h.keyDone

theorem State.MemsWf.opDelete {t : State} {a1} (h : t.MemsWf) : (State.opDelete t a1).MemsWf := by
  unfold State.opDelete
  exact .ite (.keyDone (h.unloadId.setVault fun _ w => w)) h.keyDone

theorem State.MemsWf.opAttest {t : State} {a1} (h : t.MemsWf) : (State.opAttest t a1).MemsWf := by
  unfold State.opAttest
  extract_lets +onlyGivenNames -merge -underBinder x0 x1
  exact .keyDone (h.setVault fun _ w => ⟨w.1, memOf_wf _ _⟩)

theorem State.MemsWf.keyOpEnd {t : State} {a1} (h : t.MemsWf) : (State.keyOpEnd t a1).MemsWf := by
  unfold State.keyOpEnd
  split
  · exact h.opGenerate
  · exact h.opLoad
  · exact h.opUnload
  · exact h.opStore
  · exact h.opDelete
  · exact h.opAttest
  · exact h.keyDone

theorem State.MemsWf.lcGo {t : State} {a1} (h : t.MemsWf) : (State.lcGo t a1).MemsWf := by
  unfold State.lcGo
  exact .log (h.setVault fun _ w => w)

theorem State.MemsWf.lcWrite {t : State} {a1 a2} (h : t.MemsWf) : (State.lcWrite t a1 a2).1.MemsWf := by
  unfold State.lcWrite
  split
  · exact h.lcGo
  · exact .ite h.keyError h

theorem State.MemsWf.loadBoot {t : State} (h : t.MemsWf) : (State.loadBoot t).MemsWf := by
  unfold State.loadBoot
  refine .foldl (fun _ _ k0 => ?_) h
  split
  · split
    · next e1 =>
        exact k0.placeKey e1
    · exact k0
  · exact k0

theorem State.MemsWf.zeroise {t : State} (h : t.MemsWf) : (State.zeroise t).MemsWf := by
  unfold State.zeroise
  extract_lets +onlyGivenNames -merge -underBinder x0
  have hx0 : x0.2.MemsWf := h.drawBytes
  extract_lets +onlyGivenNames -merge -underBinder x1
  have hx1 : x1.MemsWf := hx0.setVault fun _ w => w
  exact .bump (hx1.putMet fun w => w)

theorem State.MemsWf.doAttest {t : State} {a0 a1} (h : t.MemsWf) : (doAttest a0 a1 t).MemsWf := by
  unfold Machine.doAttest
  exact h.whenLive fun _ k0 => k0.keyCommand

theorem State.MemsWf.doDelete {t : State} {a0 a1} (h : t.MemsWf) : (doDelete a0 a1 t).MemsWf := by
  unfold Machine.doDelete
  exact h.whenLive fun _ k0 => k0.keyCommand

theorem State.MemsWf.doGenerate {t : State} {a0 a1} (h : t.MemsWf) : (doGenerate a0 a1 t).MemsWf := by
  unfold Machine.doGenerate
  exact h.whenLive fun _ k0 => k0.keyCommand

theorem State.MemsWf.doKeyOpComplete {t : State} {a0} (h : t.MemsWf) : (doKeyOpComplete a0 t).MemsWf := by
  unfold Machine.doKeyOpComplete
  refine h.whenLive fun _ k0 => ?_
  split
  · exact k0.keyOpEnd
  · exact k0

theorem State.MemsWf.doLcAdvance {t : State} {a0 a1 a2} (h : t.MemsWf) : (doLcAdvance a0 a1 a2 t).MemsWf := by
  unfold Machine.doLcAdvance
  refine h.whenLive fun _ k0 => ?_
  split
  · exact k0.answered
  · extract_lets +onlyGivenNames -merge -underBinder x1
    have hx1 : x1.1.MemsWf := k0.lcWrite
    exact hx1.answered

theorem State.MemsWf.doLoad {t : State} {a0 a1} (h : t.MemsWf) : (doLoad a0 a1 t).MemsWf := by
  unfold Machine.doLoad
  exact h.whenLive fun _ k0 => k0.keyCommand

theorem State.MemsWf.doRemask {t : State} {a0} (h : t.MemsWf) : (doRemask a0 t).MemsWf := by
  unfold Machine.doRemask
  refine h.whenLive fun _ k0 => ?_
  refine .ite ?_ k0
  extract_lets +onlyGivenNames -merge -underBinder x1
  have hx1 : x1.MemsWf := k0.setVault fun _ w => w
  exact .ite (hx1.setVault fun _ w => w) hx1.remaskRound

theorem State.MemsWf.doStore {t : State} {a0 a1} (h : t.MemsWf) : (doStore a0 a1 t).MemsWf := by
  unfold Machine.doStore
  exact h.whenLive fun _ k0 => k0.keyCommand

theorem State.MemsWf.doUnload {t : State} {a0 a1 a2} (h : t.MemsWf) : (doUnload a0 a1 a2 t).MemsWf := by
  unfold Machine.doUnload
  exact h.whenLive fun _ k0 => k0.keyCommand

theorem EffsMems.keyWindowWrite {a0 a1} : EffsMems (keyWindowWrite a0 a1) := by
  unfold Machine.keyWindowWrite
  exact .ite .none (.ite (.some (.mk fun _ k0 => k0.setVault fun _ w => ⟨memWrites_wf _ _ w.1, w.2⟩)) (.ite (.some EffMems.roWord) .none))

theorem EffsMems.keyWrite {a0 a1 a2} : EffsMems (keyWrite a0 a1 a2) := by
  unfold Machine.keyWrite
  split
  · extract_lets +onlyGivenNames -merge -underBinder x0
    extract_lets +onlyGivenNames -merge -underBinder x1
    exact .ite (.some (.mk fun _ k2 => k2)) (.ite (.some (.mk fun _ k4 => k4.setVault fun _ w => w)) (.some (.mk fun _ k6 => k6.keyStart)))
  · exact .some (.mk fun _ k8 => k8.setVault fun _ w => w)
  · exact .some (.mk fun _ k10 => k10.setVault fun _ w => w)
  · exact .some (.mk fun _ k12 => k12.setVault fun _ w => w)
  · exact .map fun _ => EffMems.roWord

theorem State.MemsWf.updChange {t : State} {a1 : State → State} (hf : ∀ w, w.MemsWf → (a1 w).MemsWf) (h : t.MemsWf) : (State.updChange t a1).MemsWf
    := by
  unfold State.updChange
  extract_lets +onlyGivenNames -merge -underBinder x0
  have hx0 : x0.MemsWf := hf _ h
  exact hx0.bumpIf

theorem State.MemsWf.setArea {t : State} {a1 a2} (h : t.MemsWf) : (State.setArea t a1 a2).MemsWf := by
  unfold State.setArea
  exact h.setUpd fun _ w => by split <;> exact w

theorem State.MemsWf.abortArea {t : State} (h : t.MemsWf) : (State.abortArea t).MemsWf := by
  unfold State.abortArea
  exact h.updChange fun _ k0 => .ite k0.setArea (k0.setArea.setUpd fun _ w => w)

theorem State.MemsWf.setAct {t : State} {a1} (h : t.MemsWf) : (State.setAct t a1).MemsWf := by
  unfold State.setAct
  exact h.updChange fun _ k0 => k0.setUpd fun _ w => w

theorem State.MemsWf.actWrite {t : State} {a1 a2} (h : t.MemsWf) : (State.actWrite t a1 a2).1.MemsWf := by
  unfold State.actWrite
  split
  · exact .ite h (h.updChange (fun _ k0 => (k0.setUpd fun _ w => w)))
  · exact h.setAct

theorem State.MemsWf.activationEnds {t : State} {a1 a2 a3 a4} (h : t.MemsWf) : (State.activationEnds t a1 a2 a3 a4).MemsWf := by
  unfold State.activationEnds
  extract_lets +onlyGivenNames -merge -underBinder x0
  have hx0 : x0.MemsWf := h.updChange fun _ k1 => k1.setUpd fun _ w => w
  exact hx0.log

theorem State.MemsWf.calRefused {t : State} {a1 a2} (h : t.MemsWf) : (State.calRefused t a1 a2).MemsWf :=
  h.only (State.calRefused_only rfl rfl rfl rfl (OnlyIn.refl _ _))

theorem State.MemsWf.applyCal {t : State} {a1 a2} (h : t.MemsWf) : (State.applyCal t a1 a2).2.MemsWf := by
  unfold State.applyCal
  extract_lets +onlyGivenNames -merge -underBinder x0
  have hx0 : x0.MemsWf := h.calRefused.takeCalSet
  exact hx0

theorem State.MemsWf.signerRefused {t : State} {a1 a2} (h : t.MemsWf) : (State.signerRefused t a1 a2).MemsWf :=
  h.only (State.signerRefused_only rfl rfl rfl rfl (OnlyIn.refl _ _))

theorem State.MemsWf.signCheck {t : State} {a1} (h : t.MemsWf) : (signCheck t a1).2.2.MemsWf := by
  unfold Machine.signCheck
  extract_lets +onlyGivenNames -merge -underBinder x0
  refine .iteSS h ?_
  refine .iteSS h ?_
  extract_lets +onlyGivenNames -merge -underBinder x1
  have hx1 : x1.2.MemsWf := h.findKey
  split
  · exact hx1
  · exact .iteSS hx1 (.iteSS hx1 hx1.signerRefused)

theorem State.MemsWf.decKey {t : State} {a1} (h : t.MemsWf) : (decKey t a1).2.MemsWf := by
  unfold Machine.decKey
  extract_lets +onlyGivenNames -merge -underBinder x0 x1
  have hx1 : x1.2.MemsWf := h.findKey
  split
  · exact .iteSnd hx1 (.iteSnd hx1 hx1.keyRefused)
  · exact hx1

theorem State.MemsWf.contPlain {t : State} {a1} (h : t.MemsWf) : (contPlain t a1).2.MemsWf := by
  unfold Machine.contPlain
  extract_lets +onlyGivenNames -merge -underBinder x0 x1 x2
  refine .iteSnd h ?_
  refine .iteSnd h ?_
  refine .iteSnd h ?_
  extract_lets +onlyGivenNames -merge -underBinder x3
  have hx3 : x3.2.MemsWf := h.decKey
  exact hx3

theorem State.MemsWf.verify {t : State} {a1 a2} (h : t.MemsWf) : (verify t a1 a2).state.MemsWf := by
  unfold Machine.verify
  split
  · exact h
  · extract_lets +onlyGivenNames -merge -underBinder x0
    have hx0 : x0.2.2.MemsWf := h.signCheck
    split
    · exact hx0
    · extract_lets +onlyGivenNames -merge -underBinder x1
      have hx1 : x1.2.MemsWf := hx0.contPlain
      split
      · exact hx1
      · split
        · exact hx1
        · exact hx1

theorem State.MemsWf.calUnverified {t : State} {a1} (h : t.MemsWf) : (State.calUnverified t a1).MemsWf := by
  unfold State.calUnverified
  exact .ite h.takeCalSet h

theorem State.MemsWf.importRecord {t u : State} {b} (h : t.MemsWf) (e : t.importRecord b = .ok u) : u.MemsWf := by
  unfold State.importRecord at e
  split at e
  · cases e
  · split at e
    · cases e
    · generalize hr : t.wrapStore (blobKey t b (slice b 0x28 112)) = r at e
      cases r with
      | error x => cases e
      | ok q =>
        cases e
        exact h.wrapStore hr

theorem State.MemsWf.importFold (l : List Bytes) (r : Except Nat State) (h : ∀ t, r = .ok t → t.MemsWf) (u : State)
    (e : l.foldl (fun (q : Except Nat State) b => q.bind fun s => s.importRecord b) r = .ok u) : u.MemsWf := by
  induction l generalizing r with
  | nil => exact h u e
  | cons b l ih =>
    refine ih (r.bind fun s => s.importRecord b) (fun t ht => ?_) e
    cases r with
    | error x => cases ht
    | ok v => exact (h v rfl).importRecord ht

theorem State.MemsWf.importKeys {t : State} {a1} (h : t.MemsWf) : (t.importKeys a1).MemsWf := by
  unfold State.importKeys
  dsimp only
  split
  · next e => exact (State.MemsWf.importFold _ _ (fun u hu => by cases hu; exact h) _ e).bumpIf
  · exact h.keyError

theorem State.MemsWf.applySmall {t : State} {a1 a2 a3} (h : t.MemsWf) : (State.applySmall t a1 a2 a3).2.MemsWf := by
  unfold State.applySmall
  split
  · exact h.applyCal
  · exact .iteSnd h.importKeys h
  · exact h.keep.bumpIf
  · exact .iteSnd h.lcGo h
  · exact h

theorem State.MemsWf.applyContainer {t : State} (h : t.MemsWf) : (State.applyContainer t).MemsWf := by
  unfold State.applyContainer
  refine h.updChange fun _ k0 => ?_
  extract_lets +onlyGivenNames -merge -underBinder x1 x2
  have hx2 : x2.state.MemsWf := k0.verify
  extract_lets +onlyGivenNames -merge -underBinder x3
  have hx3 : x3.2.MemsWf := .iteSnd hx2.calUnverified hx2.applySmall
  exact hx3.setArea.setUpd fun _ w => w

theorem State.MemsWf.bootOther {t : State} (h : t.MemsWf) : (State.bootOther t).MemsWf := by
  unfold State.bootOther
  exact h.setUpd fun _ w => w

theorem State.MemsWf.chargeChunk {t : State} (h : t.MemsWf) : (State.chargeChunk t).MemsWf := h.only (State.chargeChunk_only rfl (OnlyIn.refl _ _))

theorem State.MemsWf.chunkCommit {t : State} (h : t.MemsWf) : (State.chunkCommit t).1.MemsWf := by
  have refused : ∀ e, (t.updChange fun s => s.setUpd fun u => { u with err := e }).MemsWf := fun e => h.updChange fun _ k => k.setUpd fun _ w => w
  unfold State.chunkCommit
  extract_lets +onlyGivenNames -merge -underBinder x0 x1 x2 x3
  split
  · exact h
  · split
    · exact refused x3
    · dsimp only
      refine h.updChange fun _ k => ?_
      exact k.chargeChunk.setArea.setUpd fun _ w => w

theorem State.MemsWf.holdAgain {t : State} (h : t.MemsWf) : (State.holdAgain t).MemsWf := by
  unfold State.holdAgain
  exact h.setUpd fun _ w => w

theorem State.MemsWf.writeSlot {t : State} {a1} (h : t.MemsWf) : (State.writeSlot t a1).MemsWf := by
  unfold State.writeSlot
  exact h.setUpd fun _ w => by split <;> exact w

theorem State.MemsWf.installApp {t : State} (h : t.MemsWf) : (State.installApp t).MemsWf := by
  unfold State.installApp
  extract_lets +onlyGivenNames -merge -underBinder x0 x1
  have hx1 : x1.state.MemsWf := h.verify
  refine .ite hx1.activationEnds ?_
  extract_lets +onlyGivenNames -merge -underBinder x2 x3
  have hx3 : x3.MemsWf := hx1.writeSlot
  exact .ite hx3.bootOther.activationEnds hx3.activationEnds

theorem State.MemsWf.writeMet {t : State} {a1} (h : t.MemsWf) : (State.writeMet t a1).MemsWf := by
  unfold State.writeMet
  exact h.setUpd fun _ w => by split <;> exact w

theorem State.MemsWf.runsMet {t : State} (h : t.MemsWf) : (State.runsMet t).MemsWf := by
  unfold State.runsMet
  exact h.putMet fun w => w

theorem State.MemsWf.metOther {t : State} (h : t.MemsWf) : (State.metOther t).MemsWf := by
  unfold State.metOther
  exact h.setUpd fun _ w => w

theorem State.MemsWf.installMet {t : State} (h : t.MemsWf) : (State.installMet t).MemsWf := by
  unfold State.installMet
  extract_lets +onlyGivenNames -merge -underBinder x0
  have hx0 : x0.MemsWf := h.writeCheckpoint
  extract_lets +onlyGivenNames -merge -underBinder x1 x2
  have hx2 : x2.state.MemsWf := hx0.verify
  extract_lets +onlyGivenNames -merge -underBinder x3
  refine .ite hx2.activationEnds ?_
  extract_lets +onlyGivenNames -merge -underBinder x4 x5
  have hx5 : x5.MemsWf := hx2.writeMet
  exact .ite hx5.metOther.runsMet.metRestart.gapAll.activationEnds hx5.activationEnds

theorem State.MemsWf.raiseApp {t : State} (h : t.MemsWf) : (State.raiseApp t).MemsWf := by
  unfold State.raiseApp
  exact h.setUpd fun _ w => w

theorem State.MemsWf.raiseMet {t : State} (h : t.MemsWf) : (State.raiseMet t).MemsWf := by
  unfold State.raiseMet
  exact h.setUpd fun _ w => w

theorem State.MemsWf.revertApp {t : State} (h : t.MemsWf) : (State.revertApp t).MemsWf := by
  unfold State.revertApp
  split
  · exact h
  · extract_lets +onlyGivenNames -merge -underBinder x0
    extract_lets +onlyGivenNames -merge -underBinder x1
    have hx1 : x1.MemsWf := h.updChange fun _ k2 => k2.setUpd fun _ w => w
    exact hx1.log

theorem State.MemsWf.revertMet {t : State} (h : t.MemsWf) : (State.revertMet t).MemsWf := by
  unfold State.revertMet
  split
  · exact h
  · extract_lets +onlyGivenNames -merge -underBinder x0
    extract_lets +onlyGivenNames -merge -underBinder x1
    have hx1 : x1.MemsWf := h.updChange fun _ k2 => k2.setUpd fun _ w => w
    exact hx1.runsMet.log

theorem State.MemsWf.updCtrlWrite {t : State} {a1 a2} (h : t.MemsWf) : (State.updCtrlWrite t a1 a2).1.MemsWf := by
  unfold State.updCtrlWrite
  refine .iteFst h ?_
  refine .iteFst h.chunkCommit ?_
  refine .iteFst h.abortArea ?_
  refine .iteFst ?_ ?_
  · split
    · exact h
    · exact h.applyContainer
  · refine .iteFst ?_ h
    split
    · exact h
    · exact h.raiseApp.raiseMet

theorem EffsMems.chunkWindowWrite {a0 a1} : EffsMems (chunkWindowWrite a0 a1) := by
  unfold Machine.chunkWindowWrite
  exact .ite (.some (.mk fun _ k0 => k0.setUpd fun _ w => memWrites_wf _ _ w)) .none

theorem State.MemsWf.doAbort {t : State} {a0 a1} (h : t.MemsWf) : (doAbort a0 a1 t).MemsWf := by
  unfold Machine.doAbort
  exact h.whenLive fun _ k0 => k0.command (fun _ k1 => k1.abortArea)

theorem State.MemsWf.doActModeWrite {t : State} {a0 a1 a2} (h : t.MemsWf) : (doActModeWrite a0 a1 a2 t).MemsWf := by
  unfold Machine.doActModeWrite
  refine h.whenLive fun _ k0 => ?_
  split
  · exact k0.answered
  · extract_lets +onlyGivenNames -merge -underBinder x1
    have hx1 : x1.1.MemsWf := k0.actWrite
    exact hx1.answered

theorem State.MemsWf.doActivationLead {t : State} {a0} (h : t.MemsWf) : (doActivationLead a0 t).MemsWf := by
  unfold Machine.doActivationLead
  exact h.whenLive fun _ k0 => .ite (k0.setUpd fun _ w => w) k0

theorem State.MemsWf.doApply {t : State} {a0 a1} (h : t.MemsWf) : (doApply a0 a1 t).MemsWf := by
  unfold Machine.doApply
  exact h.whenLive fun _ k0 => k0.command (fun _ k1 => k1.applyContainer)

theorem State.MemsWf.doChunkCommit {t : State} {a0 a1} (h : t.MemsWf) : (doChunkCommit a0 a1 t).MemsWf := by
  unfold Machine.doChunkCommit
  refine h.whenLive fun _ k0 => ?_
  split
  · exact k0.answered
  · extract_lets +onlyGivenNames -merge -underBinder x1
    have hx1 : x1.1.MemsWf := k0.chunkCommit
    exact hx1.answered

theorem State.MemsWf.doFloorRaise {t : State} {a0} (h : t.MemsWf) : (doFloorRaise a0 t).MemsWf := by
  unfold Machine.doFloorRaise
  refine h.whenLive fun _ k0 => ?_
  extract_lets +onlyGivenNames -merge -underBinder x1
  have hx1 : x1.MemsWf := .ite k0.raiseApp k0
  exact .ite hx1.raiseMet hx1

theorem State.MemsWf.doRaise {t : State} {a0 a1} (h : t.MemsWf) : (doRaise a0 a1 t).MemsWf := by
  unfold Machine.doRaise
  exact h.whenLive fun _ k0 => k0.command (fun _ k1 => k1.raiseApp.raiseMet)

theorem State.MemsWf.doTrialEnd {t : State} {a0} (h : t.MemsWf) : (doTrialEnd a0 t).MemsWf := by
  unfold Machine.doTrialEnd
  exact h.whenLive fun _ k0 => k0.setUpd fun _ w => w

theorem EffsMems.updWrite {a0 a1 a2 a3} : EffsMems (updWrite a0 a1 a2 a3) := by
  unfold Machine.updWrite
  split
  · exact .some (.mk fun _ k0 => k0.setUpd fun _ w => w)
  · exact .some (.mk fun _ k2 => k2.setUpd fun _ w => w)
  · exact .some (.mk fun _ k4 => .holdAgain (k4.setUpd fun _ w => w))
  · exact .some (.mk fun _ k6 => .holdAgain (k6.setUpd fun _ w => w))
  · exact .some (.inRange fun _ k8 => k8.setUpd fun _ w => w)
  · exact .map fun _ => EffMems.roWord

theorem State.MemsWf.reconnect {t : State} (h : t.MemsWf) : (State.reconnect t).1.MemsWf :=
  h.only (State.reconnect_only rfl (fun _ => rfl) (OnlyIn.refl _ _))

theorem State.MemsWf.bootFirmware {t : State} {a1} (h : t.MemsWf) : (State.bootFirmware t a1).MemsWf := by
  unfold State.bootFirmware
  extract_lets +onlyGivenNames -merge -underBinder x0
  have hx0 : x0.MemsWf := h.revertApp
  extract_lets +onlyGivenNames -merge -underBinder x1
  have hx1 : x1.MemsWf := .ite hx0 hx0.revertMet
  exact .ite hx1.installApp hx1

theorem State.MemsWf.takePins {t : State} {a1} (h : t.MemsWf) : (State.takePins t a1).MemsWf := by
  unfold State.takePins
  split
  · exact h
  · extract_lets +onlyGivenNames -merge -underBinder x0 x1 x2 x3
    have hx3 : x3.MemsWf := h.move id id id id id id
    exact .ite hx3.bump.log hx3

theorem State.MemsWf.resumeLockouts {t : State} (h : t.MemsWf) : (State.resumeLockouts t).MemsWf := by
  unfold State.resumeLockouts
  exact h.move id id id id id id

theorem State.MemsWf.newSysNonce {t : State} (h : t.MemsWf) : (State.newSysNonce t).MemsWf :=
  h.only (State.newSysNonce_only rfl rfl (OnlyIn.refl _ _))

theorem State.MemsWf.bootSafety {t : State} {a1} (h : t.MemsWf) : (State.bootSafety t a1).MemsWf :=
  h.only (State.bootSafety_only rfl rfl rfl rfl rfl rfl (OnlyIn.refl _ _))

theorem State.MemsWf.seedInputs {t : State} (h : t.MemsWf) : (State.seedInputs t).MemsWf := h.only (State.seedInputs_only rfl (OnlyIn.refl _ _))

theorem State.MemsWf.bootCheck {t : State} {a1 a2} (h : t.MemsWf) : (State.bootCheck t a1 a2).MemsWf := by
  unfold State.bootCheck
  refine .ite h ?_
  extract_lets +onlyGivenNames -merge -underBinder x0 x1
  clear_value x0 x1
  extract_lets +onlyGivenNames -merge -underBinder x2
  have hx2 : x2.MemsWf := h.signatureServed
  clear_value x2
  split
  · exact hx2.checkFailed.bump
  · exact hx2.checkPassed.activateImage

theorem State.MemsWf.startUp {t : State} {a1 a2 a3} (h : t.MemsWf) : (State.startUp t a1 a2 a3).MemsWf := by
  unfold State.startUp
  extract_lets +onlyGivenNames -merge -underBinder x0
  have hx0 : x0.MemsWf := h.resumeLockouts.ledgerAdopt.takePins.bootFirmware
  extract_lets +onlyGivenNames -merge -underBinder x1
  have hx1 : x1.MemsWf := hx0.loadBoot
  extract_lets +onlyGivenNames -merge -underBinder x2
  have hx2 : x2.MemsWf := .ite hx1 hx1.metRestart
  extract_lets +onlyGivenNames -merge -underBinder x3
  have hx3 : x3.MemsWf := .refreshAssume (.ite hx2.bootSafety.adoptAux hx2.bootSafety)
  extract_lets +onlyGivenNames -merge -underBinder x4
  have hx4 : x4.MemsWf := .ite hx3.bootCheck.seedInputs hx3
  extract_lets +onlyGivenNames -merge -underBinder x5
  have hx5 : x5.MemsWf := hx4.setUpd fun _ w => w
  exact hx5.startRole

theorem State.MemsWf.startAgain {t : State} {a1 a2 a3} (h : t.MemsWf) : (State.startAgain t a1 a2 a3).MemsWf := by
  unfold State.startAgain
  extract_lets +onlyGivenNames -merge -underBinder x0
  have hx0 : x0.1.MemsWf := h.startUp.reconnect
  exact hx0.log

theorem State.MemsWf.countReset {t : State} {a1} (h : t.MemsWf) : (State.countReset t a1).MemsWf :=
  h.only (State.countReset_only rfl (OnlyIn.refl _ _))

theorem State.MemsWf.keepUnfit {t : State} {a1} (h : t.MemsWf) : (State.keepUnfit t a1).MemsWf :=
  h.only (State.keepUnfit_only rfl rfl (OnlyIn.refl _ _))

theorem State.MemsWf.keepRecords {t : State} {a1} (h : t.MemsWf) : (State.keepRecords t a1).MemsWf := by
  unfold State.keepRecords
  exact h.setPart fun _ w => w

theorem State.MemsWf.rebooted {t : State} {a1} (h : t.MemsWf) : (State.rebooted t a1).MemsWf := by
  refine h.move (fun w => ?_) (fun w => w) (fun _ => ⟨rfl, rfl⟩) (fun _ => rfl) (fun _ => ?_) fun w => ?_
  · exact vmap_forall (P := fun x : ProfSlot => Memory.wf x.mem = true) w
  · exact ⟨vmap_forall (P := fun x : Mailbox => Memory.wf x.data = true) fun _ => rfl, vmap_forall fun _ => ⟨rfl, rfl⟩⟩
  · refine vmap_forall (P := fun x : Partition => Memory.wf x.mem = true) fun i => ?_
    unfold Partition.rebooted
    split
    · exact w i
    · exact w i

theorem State.MemsWf.resetAsserted {t : State} {a1 a2} (h : t.MemsWf) : (State.resetAsserted t a1 a2).MemsWf := by
  unfold State.resetAsserted
  extract_lets +onlyGivenNames -merge -underBinder x0 x1
  have hx1 : x1.MemsWf := h.releaseActive
  extract_lets +onlyGivenNames -merge -underBinder x2
  exact hx1.rebooted.keepRecords.keepUnfit.countReset

theorem State.MemsWf.resetNow {t : State} {a1 a2 a3 a4} (h : t.MemsWf) : (State.resetNow t a1 a2 a3 a4).MemsWf := by
  unfold State.resetNow
  exact h.resetAsserted.startAgain

theorem State.MemsWf.activationBoot {t : State} (h : t.MemsWf) : (State.activationBoot t).MemsWf := by
  unfold State.activationBoot
  exact h.resetNow

theorem State.MemsWf.handoverLate {t : State} {a1} (h : t.MemsWf) : (State.handoverLate t a1).MemsWf := by
  unfold State.handoverLate
  exact .ite (h.updChange (fun _ k0 => (k0.setUpd fun _ w => w))) h

theorem State.MemsWf.holdLockouts {t : State} (h : t.MemsWf) : (State.holdLockouts t).MemsWf := by
  unfold State.holdLockouts
  extract_lets +onlyGivenNames -merge -underBinder x0
  exact h.move id id id id id id

theorem State.MemsWf.noteCal {t : State} (h : t.MemsWf) : (State.noteCal t).MemsWf := h.only (State.noteCal_only rfl (OnlyIn.refl _ _))

theorem State.MemsWf.noteRaw {t : State} (h : t.MemsWf) : (State.noteRaw t).MemsWf := h.only (State.noteRaw_only rfl (OnlyIn.refl _ _))

theorem State.MemsWf.resumeClocks {t : State} {a1} (h : t.MemsWf) : (State.resumeClocks t a1).MemsWf :=
  h.only (State.resumeClocks_only rfl rfl rfl rfl rfl rfl (OnlyIn.refl _ _))

theorem State.MemsWf.rstTakes {t : State} {a1} (h : t.MemsWf) : (State.rstTakes t a1).2.MemsWf := h.only (State.rstTakes_only rfl (OnlyIn.refl _ _))

theorem State.MemsWf.saveTime {t : State} (h : t.MemsWf) : (State.saveTime t).MemsWf := h.only (State.saveTime_only rfl (OnlyIn.refl _ _))

theorem State.MemsWf.skipLate {t : State} (h : t.MemsWf) : (State.skipLate t).MemsWf := by
  unfold State.skipLate
  exact .ite h.activationEnds h

theorem State.MemsWf.startActivation {t : State} (h : t.MemsWf) : (State.startActivation t).MemsWf := by
  unfold State.startActivation
  extract_lets +onlyGivenNames -merge -underBinder x0
  have hx0 : x0.MemsWf := h.updChange fun _ k1 => k1.setUpd fun _ w => w
  exact .ite (.ite hx0 hx0.activationBoot) hx0

theorem State.MemsWf.doActivationSkip {t : State} {a0} (h : t.MemsWf) : (doActivationSkip a0 t).MemsWf := by
  unfold Machine.doActivationSkip
  exact h.whenLive fun _ k0 => k0.skipLate

theorem State.MemsWf.doBrownOut {t : State} {a0} (h : t.MemsWf) : (doBrownOut a0 t).MemsWf := by
  unfold Machine.doBrownOut
  extract_lets +onlyGivenNames -merge -underBinder x0
  have hx0 : x0.MemsWf := h.elapse
  refine .ite hx0 ?_
  extract_lets +onlyGivenNames -merge -underBinder x1
  have hx1 : x1.MemsWf := hx0.noteRaw.noteCal.resetAsserted
  exact hx1.move id id id id id id

theorem State.MemsWf.doColdStart {t : State} {a0 a1 a2 a3} (h : t.MemsWf) : (doColdStart a0 a1 a2 a3 t).MemsWf := by
  unfold Machine.doColdStart
  extract_lets +onlyGivenNames -merge -underBinder x0
  have hx0 : x0.MemsWf := h.elapse
  refine .ite ?_ hx0
  extract_lets +onlyGivenNames -merge -underBinder x1
  have hx1 : x1.MemsWf := hx0.resumeClocks
  exact hx1.keep.startUp

theorem State.MemsWf.doHandoverActivation {t : State} {a0} (h : t.MemsWf) : (doHandoverActivation a0 t).MemsWf := by
  unfold Machine.doHandoverActivation
  refine h.whenLive fun _ k0 => ?_
  extract_lets +onlyGivenNames -merge -underBinder x1
  have hx1 : x1.MemsWf := k0.handoverLate
  exact .ite hx1.startActivation hx1

theorem State.MemsWf.doHandoverActivationTimeout {t : State} {a0} (h : t.MemsWf) : (doHandoverActivationTimeout a0 t).MemsWf := by
  unfold Machine.doHandoverActivationTimeout
  exact h.whenLive fun _ k0 => k0.handoverLate

theorem State.MemsWf.doInternalReset {t : State} {a0 a1 a2} (h : t.MemsWf) : (doInternalReset a0 a1 a2 t).MemsWf := by
  unfold Machine.doInternalReset
  exact h.whenLive fun _ k0 => .ite k0.resetNow k0

theorem State.MemsWf.doLockstepDisagree {t : State} {a0 a1} (h : t.MemsWf) : (doLockstepDisagree a0 a1 t).MemsWf := by
  unfold Machine.doLockstepDisagree
  exact h.whenLive fun _ k0 => k0.resetNow

theorem State.MemsWf.doMetrologyFwActivation {t : State} {a0} (h : t.MemsWf) : (doMetrologyFwActivation a0 t).MemsWf := by
  unfold Machine.doMetrologyFwActivation
  exact h.whenLive fun _ k0 => .ite k0.installMet k0.skipLate

theorem State.MemsWf.doReferenceLoss {t : State} {a0} (h : t.MemsWf) : (doReferenceLoss a0 t).MemsWf := by
  unfold Machine.doReferenceLoss
  extract_lets +onlyGivenNames -merge -underBinder x0
  have hx0 : x0.MemsWf := h.elapse
  refine .ite hx0 ?_
  extract_lets +onlyGivenNames -merge -underBinder x1
  have hx1 : x1.MemsWf := hx0.resetAsserted
  extract_lets +onlyGivenNames -merge -underBinder x2 x3
  exact .refreshAssume (.bump (.gapAll (hx1.move id id id id id id)))

theorem State.MemsWf.doReferenceRestored {t : State} {a0 a1} (h : t.MemsWf) : (doReferenceRestored a0 a1 t).MemsWf := by
  unfold Machine.doReferenceRestored
  extract_lets +onlyGivenNames -merge -underBinder x0
  have hx0 : x0.MemsWf := h.elapse
  refine .ite ?_ hx0
  extract_lets +onlyGivenNames -merge -underBinder x1 x2 x3
  have hx3 : x3.MemsWf := hx0.move id id id id id id
  exact hx3.bump.startAgain

theorem State.MemsWf.doResetKey {t : State} {a0 a1 a2 a3} (h : t.MemsWf) : (doResetKey a0 a1 a2 a3 t).MemsWf := by
  unfold Machine.doResetKey
  exact h.whenLive fun _ k0 => k0.command (fun _ k1 => k1.resetNow)

theorem State.MemsWf.doRstN {t : State} {a0 a1 a2} (h : t.MemsWf) : (doRstN a0 a1 a2 t).MemsWf := by
  unfold Machine.doRstN
  extract_lets +onlyGivenNames -merge -underBinder x0
  have hx0 : x0.2.MemsWf := h.elapse.rstTakes
  extract_lets +onlyGivenNames -merge -underBinder x1
  have hx1 : x1.MemsWf := hx0
  refine .ite hx1 ?_
  refine .ite hx1.resetNow ?_
  extract_lets +onlyGivenNames -merge -underBinder x2
  have hx2 : x2.MemsWf := hx1.resetAsserted.takePins
  exact hx2.keep

theorem State.MemsWf.doScheduledActivation {t : State} {a0} (h : t.MemsWf) : (doScheduledActivation a0 t).MemsWf := by
  unfold Machine.doScheduledActivation
  exact h.whenLive fun _ k0 => .ite k0.startActivation k0.skipLate

theorem State.MemsWf.doVbatDomainLoss {t : State} {a0} (h : t.MemsWf) : (doVbatDomainLoss a0 t).MemsWf := by
  unfold Machine.doVbatDomainLoss
  extract_lets +onlyGivenNames -merge -underBinder x0
  have hx0 : x0.MemsWf := h.elapse
  refine .ite ?_ hx0
  extract_lets +onlyGivenNames -merge -underBinder x1
  have hx1 : x1.2.MemsWf := hx0.drawBytes
  extract_lets +onlyGivenNames -merge -underBinder x2
  have hx2 : x2.MemsWf := hx1
  exact hx2.move id id id id id id

theorem State.MemsWf.doWatchdog {t : State} {a0 a1} (h : t.MemsWf) : (doWatchdog a0 a1 t).MemsWf := by
  unfold Machine.doWatchdog
  exact h.whenLive fun _ k0 => k0.resetNow

theorem State.MemsWf.setRtc {t : State} {a1} (h : t.MemsWf) : (State.setRtc t a1).MemsWf := h.only (State.setRtc_only rfl (OnlyIn.refl _ _))

theorem State.MemsWf.setPwr {t : State} {a1} (h : t.MemsWf) : (State.setPwr t a1).MemsWf := h.only (State.setPwr_only rfl (OnlyIn.refl _ _))

theorem State.MemsWf.dormantRelease {t : State} (h : t.MemsWf) : (State.dormantRelease t).MemsWf := by
  unfold State.dormantRelease
  extract_lets +onlyGivenNames -merge -underBinder x0
  have hx0 : x0.MemsWf := h.forAll fun _ _ k1 => k1.linkOff
  extract_lets +onlyGivenNames -merge -underBinder x2
  have hx2 : x2.MemsWf := hx0.auxFailAll.allOff
  extract_lets +onlyGivenNames -merge -underBinder x3
  have hx3 : x3.MemsWf := hx2.releaseActive.metStop.saveTime
  exact hx3.setPwr

theorem State.MemsWf.enterDormant {t : State} (h : t.MemsWf) : (State.enterDormant t).MemsWf := by
  unfold State.enterDormant
  extract_lets +onlyGivenNames -merge -underBinder x0
  have hx0 : x0.MemsWf := h.setPwr.bump
  exact .ite hx0 (.ite hx0.busState (.ite (hx0.setBus fun _ w => w) (.startSleep (hx0.setBus fun _ w => w))))

theorem State.MemsWf.dormantWrite {t : State} (h : t.MemsWf) : (State.dormantWrite t).1.MemsWf := by
  unfold State.dormantWrite
  exact .iteFst h (.iteFst h.enterDormant h.setPwr.bumpIf)

theorem State.MemsWf.setClk {t : State} {a1} (h : t.MemsWf) : (State.setClk t a1).MemsWf := h.only (State.setClk_only rfl (OnlyIn.refl _ _))

theorem State.MemsWf.leaveDormant {t : State} {a1} (h : t.MemsWf) : (State.leaveDormant t a1).MemsWf := by
  unfold State.leaveDormant
  extract_lets +onlyGivenNames -merge -underBinder x0
  have hx0 : x0.MemsWf := h.setClk
  extract_lets +onlyGivenNames -merge -underBinder x1
  have hx1 : x1.MemsWf := hx0.setPwr
  extract_lets +onlyGivenNames -merge -underBinder x2
  have hx2 : x2.MemsWf := hx1.resumeLockouts.noteCal.setRtc
  extract_lets +onlyGivenNames -merge -underBinder x3 x4
  have hx4 : x4.MemsWf := hx2.putMet fun w => w
  exact .ite hx4.keep hx4

theorem State.MemsWf.pwrCtrlWrite {t : State} {a1 a2} (h : t.MemsWf) : (State.pwrCtrlWrite t a1 a2).1.MemsWf := by
  unfold State.pwrCtrlWrite
  extract_lets +onlyGivenNames -merge -underBinder x0
  refine .iteFst ?_ ?_
  · split
    · exact h
    · exact h.resetNow
  · extract_lets +onlyGivenNames -merge -underBinder x1
    have hx1 : x1.1.MemsWf := .iteFst h (.iteFst h.dormantWrite h)
    split
    · dsimp only
      exact hx1.setPwr
    · exact hx1

theorem State.MemsWf.wakeAux {t : State} (h : t.MemsWf) : (State.wakeAux t).MemsWf := h.only (State.wakeAux_only rfl (OnlyIn.refl _ _))

theorem State.MemsWf.wakeMeter {t : State} {a1} (h : t.MemsWf) : (State.wakeMeter t a1).MemsWf := by
  unfold State.wakeMeter
  exact .ite h.metRestart (.ite h h.metResume)

theorem State.MemsWf.wakeSlot {t : State} {a1} (h : t.MemsWf) : (State.wakeSlot t a1).MemsWf := by
  unfold State.wakeSlot
  split
  · exact .bootCheck (.slotSt (h.putProf fun w => w))
  · exact h

theorem State.MemsWf.wakeUp {t : State} {a1 a2 a3} (h : t.MemsWf) : (State.wakeUp t a1 a2 a3).MemsWf := by
  unfold State.wakeUp
  extract_lets +onlyGivenNames -merge -underBinder x0
  have hx0 : x0.MemsWf := .ite h.leaveDormant h
  extract_lets +onlyGivenNames -merge -underBinder x1
  have hx1 : x1.MemsWf := hx0.setPwr.bump
  extract_lets +onlyGivenNames -merge -underBinder x2
  have hx2 : x2.MemsWf := hx1.wakeMeter.busWakes.wakeAux.wakeSlot
  extract_lets +onlyGivenNames -merge -underBinder x3
  have hx3 : x3.MemsWf := .ite hx2 hx2.startRole
  exact hx3.refreshAssume

theorem EffsMems.clkWrite {a0 a1 a2 a3} : EffsMems (clkWrite a0 a1 a2 a3) := .of (clkWrite_eff rfl rfl rfl rfl rfl rfl)

theorem State.MemsWf.doDormantWake {t : State} {a0 a1} (h : t.MemsWf) : (doDormantWake a0 a1 t).MemsWf := by
  unfold Machine.doDormantWake
  extract_lets +onlyGivenNames -merge -underBinder x0
  have hx0 : x0.MemsWf := h.elapse
  exact .ite hx0 (.ite hx0.wakeUp (.ite hx0.wakeUp hx0))

theorem State.MemsWf.doBusWake {t : State} {a0 a1} (h : t.MemsWf) : (doBusWake a0 a1 t).MemsWf := by
  unfold Machine.doBusWake
  extract_lets +onlyGivenNames -merge -underBinder x0
  have hx0 : x0.MemsWf := h.elapse
  exact .ite hx0 (.ite hx0.doDormantWake (.ite hx0.busWakes hx0))

theorem State.MemsWf.doDormant {t : State} {a0 a1} (h : t.MemsWf) : (doDormant a0 a1 t).MemsWf := by
  unfold Machine.doDormant
  refine h.whenLive fun _ k0 => ?_
  split
  · exact k0.answered
  · extract_lets +onlyGivenNames -merge -underBinder x1
    have hx1 : x1.1.MemsWf := k0.dormantWrite
    exact hx1.answered

theorem State.MemsWf.doDormantCommit {t : State} {a0} (h : t.MemsWf) : (doDormantCommit a0 t).MemsWf := by
  unfold Machine.doDormantCommit
  refine h.whenLive fun _ k0 => ?_
  split
  · exact k0
  · refine .ite k0 ?_
    split
    · exact k0.wakeUp
    · extract_lets +onlyGivenNames -merge -underBinder x1
      have hx1 : x1.MemsWf := k0.setPwr
      extract_lets +onlyGivenNames -merge -underBinder x2
      have hx2 : x2.MemsWf := hx1.setClk.bump
      extract_lets +onlyGivenNames -merge -underBinder x3
      have hx3 : x3.MemsWf := hx2.holdLockouts.noteCal.setRtc
      exact .refreshAssume (hx3.putMet fun w => w)

theorem State.MemsWf.doDormantOutputRelease {t : State} {a0} (h : t.MemsWf) : (doDormantOutputRelease a0 t).MemsWf := by
  unfold Machine.doDormantOutputRelease
  exact h.whenLive fun _ k0 => .ite k0.dormantRelease k0

theorem State.MemsWf.doJunctionTempCheck {t : State} {a0 a1} (h : t.MemsWf) : (doJunctionTempCheck a0 a1 t).MemsWf := by
  unfold Machine.doJunctionTempCheck
  refine h.whenLive fun _ k0 => ?_
  extract_lets +onlyGivenNames -merge -underBinder x1 x2 x3 x4
  have hx4 : x4.MemsWf := k0.setPwr.bumpIf
  extract_lets +onlyGivenNames -merge -underBinder x5
  have hx5 : x5.MemsWf := .ite hx4.releaseIfFit hx4
  exact .ite hx5.ctrlFail hx5

theorem State.MemsWf.doPowerFailClear {t : State} {a0 a1} (h : t.MemsWf) : (doPowerFailClear a0 a1 t).MemsWf := by
  unfold Machine.doPowerFailClear
  refine h.whenLive fun _ k0 => ?_
  refine .ite ?_ k0
  extract_lets +onlyGivenNames -merge -underBinder x1
  have hx1 : x1.MemsWf := k0.setPwr.bump
  exact hx1.metResume.refreshAssume

theorem State.MemsWf.doPowerFailWarning {t : State} {a0 a1} (h : t.MemsWf) : (doPowerFailWarning a0 a1 t).MemsWf := by
  unfold Machine.doPowerFailWarning
  refine h.whenLive fun _ k0 => ?_
  refine .ite ?_ k0
  extract_lets +onlyGivenNames -merge -underBinder x1
  have hx1 : x1.MemsWf := k0.setPwr.bump
  exact hx1.metStop.saveTime.drainLedger.refreshAssume

theorem State.MemsWf.doSupplyOutOfRange {t : State} {a0 a1} (h : t.MemsWf) : (doSupplyOutOfRange a0 a1 t).MemsWf := by
  unfold Machine.doSupplyOutOfRange
  refine h.whenLive fun _ k0 => ?_
  extract_lets +onlyGivenNames -merge -underBinder x1
  have hx1 : x1.MemsWf := k0.setPwr.refreshAssume
  exact .ite hx1.releaseIfFit hx1

theorem State.MemsWf.doTamper {t : State} {a0} (h : t.MemsWf) : (doTamper a0 t).MemsWf := by
  unfold Machine.doTamper
  extract_lets +onlyGivenNames -merge -underBinder x0
  have hx0 : x0.MemsWf := h.elapse
  refine .ite hx0 ?_
  extract_lets +onlyGivenNames -merge -underBinder x1 x2
  have hx2 : x2.MemsWf := hx0.setRtc.bumpIf
  exact hx2.zeroise

end Sys2Proof.Machine
end

section
/-! PROOFS. Every operation of the partner, the tick and the host ports keeps the sparse memories in canonical form: one lemma for each function of the
model, along its branches; a function that touches no block with a memory by its frame (Laws/Frame). -/
namespace Sys2Proof.Machine

theorem State.MemsWf.askCapture {t : State} (h : t.MemsWf) : (State.askCapture t).MemsWf := h.only (State.askCapture_only rfl (OnlyIn.refl _ _))

theorem State.MemsWf.checkInterlock {t : State} (h : t.MemsWf) : (State.checkInterlock t).MemsWf :=
  h.only (State.checkInterlock_only rfl rfl rfl rfl rfl (OnlyIn.refl _ _))

theorem State.MemsWf.judgeRole {t : State} (h : t.MemsWf) : (State.judgeRole t).MemsWf := by
  unfold State.judgeRole
  split
  · extract_lets +onlyGivenNames -merge -underBinder x0
    have hx0 : x0.MemsWf := h.setPair.bumpIf
    exact .ite hx0 hx0.enterUnfit
  · exact .ite h.setPair.setRole h
  · exact h.setPair
  · exact h

theorem State.MemsWf.queueOwn {t : State} {a1 a2} (h : t.MemsWf) : (State.queueOwn t a1 a2).MemsWf := by
  unfold State.queueOwn
  exact h.queueFrame

theorem State.MemsWf.sendHealth {t : State} (h : t.MemsWf) : (State.sendHealth t).MemsWf := h.only (State.sendHealth_only rfl (OnlyIn.refl _ _))

theorem State.MemsWf.yieldSide {t : State} (h : t.MemsWf) : (State.yieldSide t).MemsWf := by
  unfold State.yieldSide
  refine .ite ?_ h
  extract_lets +onlyGivenNames -merge -underBinder x0
  have hx0 : x0.MemsWf := h.allOff.cancelPending
  exact .enterUnfit (.ite hx0 hx0.dropSite)

theorem State.MemsWf.doHealthCheck {t : State} {a0} (h : t.MemsWf) : (doHealthCheck a0 t).MemsWf := by
  unfold Machine.doHealthCheck
  refine h.whenLive fun _ k0 => ?_
  extract_lets +onlyGivenNames -merge -underBinder x1
  have hx1 : x1.MemsWf := k0.judgeHold.armHold
  extract_lets +onlyGivenNames -merge -underBinder x2 x3
  have hx3 : x3.MemsWf := hx1.setPair.bumpIf
  exact hx3.sendHealth.askCapture.judgeRole

theorem State.MemsWf.doHeartbeatFrame {t : State} {a0 a1} (h : t.MemsWf) : (doHeartbeatFrame a0 a1 t).MemsWf := by
  unfold Machine.doHeartbeatFrame
  refine h.whenLive fun _ k0 => ?_
  refine .ite ?_ k0
  extract_lets +onlyGivenNames -merge -underBinder x1 x2
  have hx2 : x2.MemsWf := k0.setPartner
  extract_lets +onlyGivenNames -merge -underBinder x3 x4
  have hx4 : x4.MemsWf := hx2.bumpIf
  exact hx4.checkInterlock.yieldSide

theorem State.MemsWf.doHeartbeatSend {t : State} {a0} (h : t.MemsWf) : (doHeartbeatSend a0 t).MemsWf := by
  unfold Machine.doHeartbeatSend
  exact h.whenLive fun _ k0 => .ite k0.queueOwn k0

theorem State.MemsWf.doPolicySegmentSend {t : State} {a0} (h : t.MemsWf) : (doPolicySegmentSend a0 t).MemsWf := by
  unfold Machine.doPolicySegmentSend
  exact h.whenLive fun _ k0 => .ite k0.queueOwn.queueOwn.queueOwn k0

theorem State.MemsWf.doResyncElapsed {t : State} {a0} (h : t.MemsWf) : (doResyncElapsed a0 t).MemsWf := by
  unfold Machine.doResyncElapsed
  exact h.whenLive fun _ k0 => .ite (.ite k0.assumeInterlock.startRole k0.enterSyncing) k0

theorem State.MemsWf.doSyncTimeout {t : State} {a0} (h : t.MemsWf) : (doSyncTimeout a0 t).MemsWf := by
  unfold Machine.doSyncTimeout
  exact h.whenLive fun _ k0 => .ite k0.enterUnfit k0

theorem State.MemsWf.doUpdateHeartbeatSend {t : State} {a0} (h : t.MemsWf) : (doUpdateHeartbeatSend a0 t).MemsWf := by
  unfold Machine.doUpdateHeartbeatSend
  exact h.whenLive fun _ k0 => .ite k0.queueOwn k0

theorem EffsMems.pairWrite {a0 a1 a2 a3} : EffsMems (pairWrite a0 a1 a2 a3) := .of (pairWrite_eff rfl rfl)

theorem State.MemsWf.afterDeadline {t : State} {a1} (h : t.MemsWf) : (State.afterDeadline t a1).MemsWf := by
  unfold State.afterDeadline
  extract_lets +onlyGivenNames -merge -underBinder x0
  have hx0 : x0.MemsWf := by
    unfold x0
    split
    · exact h.releaseIfFit
    · exact h
  exact .ite hx0.setPair (.ite hx0.setPair.sendCtrl.releaseActive (.ite hx0.activationBoot hx0))

theorem State.MemsWf.diverge {t : State} (h : t.MemsWf) : (State.diverge t).MemsWf := by
  unfold State.diverge
  extract_lets +onlyGivenNames -merge -underBinder x0 x1
  have hx1 : x1.MemsWf := h.setPair
  extract_lets +onlyGivenNames -merge -underBinder x2
  have hx2 : x2.MemsWf := hx1.setSeljo
  exact hx2.setRole

theorem State.MemsWf.stepTime {t : State} {a1} (h : t.MemsWf) : (State.stepTime t a1).MemsWf :=
  h.only (State.stepTime_only rfl rfl rfl (OnlyIn.refl _ _))

theorem State.MemsWf.lockedSlew {t : State} (h : t.MemsWf) : (State.lockedSlew t).MemsWf := h.only (State.lockedSlew_only rfl rfl (OnlyIn.refl _ _))

theorem State.MemsWf.trainLocked {t : State} (h : t.MemsWf) : (State.trainLocked t).MemsWf :=
  h.only (State.trainLocked_only rfl rfl (fun _ => rfl) (OnlyIn.refl _ _))

theorem State.MemsWf.follow {t : State} {a1 a2} (h : t.MemsWf) : (State.follow t a1 a2).MemsWf := by
  unfold State.follow
  refine .ite h.setSeljo.enterUnfit ?_
  extract_lets +onlyGivenNames -merge -underBinder x0 x1
  have hx1 : x1.MemsWf := .ite h.stepTime h
  extract_lets +onlyGivenNames -merge -underBinder x2
  have hx2 : x2.MemsWf := hx1.setSeljo
  extract_lets +onlyGivenNames -merge -underBinder x3
  have hx3 : x3.MemsWf := hx2.bumpIf
  exact .ite (.ite hx3.lockedSlew hx3.trainLocked) hx3

theorem State.MemsWf.judgePitch {t : State} {a1 a2} (h : t.MemsWf) : (State.judgePitch t a1 a2).MemsWf := by
  unfold State.judgePitch
  split
  · exact .ite h (.ite h.setSeljo h.diverge)
  · exact h

theorem State.MemsWf.partnerHolds {t : State} {a1 a2} (h : t.MemsWf) : (State.partnerHolds t a1 a2).MemsWf := by
  unfold State.partnerHolds
  extract_lets +onlyGivenNames -merge -underBinder x0
  have hx0 : x0.MemsWf := h.setSeljo
  split
  · exact .ite (hx0.putProf fun w => w) hx0
  · exact hx0

theorem State.MemsWf.replayPitch {t : State} {a1 a2} (h : t.MemsWf) : (State.replayPitch t a1 a2).MemsWf :=
  h.only (State.replayPitch_only rfl rfl rfl rfl (fun _ => rfl) (fun _ => rfl) (fun _ => rfl) (fun _ => rfl) rfl rfl rfl rfl (OnlyIn.refl _ _))

theorem State.MemsWf.sendHeld {t : State} {a1} (h : t.MemsWf) : (State.sendHeld t a1).MemsWf := h.only (State.sendHeld_only rfl (OnlyIn.refl _ _))

theorem State.MemsWf.seljoDown {t : State} (h : t.MemsWf) : (State.seljoDown t).MemsWf := by
  unfold State.seljoDown
  refine .ite h ?_
  extract_lets +onlyGivenNames -merge -underBinder x0
  have hx0 : x0.MemsWf := h.setSeljo.bump
  extract_lets +onlyGivenNames -merge -underBinder x1
  have hx1 : x1.MemsWf := hx0.forAll fun _ _ k2 => k2.sendHeld
  exact .ite hx1.judgeRole hx1

theorem State.MemsWf.seljoBad {t : State} (h : t.MemsWf) : (State.seljoBad t).MemsWf := by
  unfold State.seljoBad
  extract_lets +onlyGivenNames -merge -underBinder x0
  have hx0 : x0.MemsWf := h.setSeljo
  exact .ite hx0.seljoDown hx0

theorem State.MemsWf.takeSession {t : State} {a1 a2 a3} (h : t.MemsWf) : (State.takeSession t a1 a2 a3).MemsWf :=
  h.only (State.takeSession_only rfl rfl rfl rfl (OnlyIn.refl _ _))

theorem State.MemsWf.takeState {t : State} {a1} (h : t.MemsWf) : (State.takeState t a1).MemsWf :=
  h.only (State.takeState_only (fun _ => rfl) rfl rfl rfl (OnlyIn.refl _ _))

theorem State.MemsWf.doComputeDeadline {t : State} {a0 a1 a2} (h : t.MemsWf) : (doComputeDeadline a0 a1 a2 t).MemsWf := by
  unfold Machine.doComputeDeadline
  refine h.whenLive fun _ k0 => ?_
  extract_lets +onlyGivenNames -merge -underBinder x1
  have hx1 : x1.MemsWf := k0.judgeHold
  split
  · refine .ite ?_ hx1
    extract_lets +onlyGivenNames -merge -underBinder x2 x3 x4 x5
    have hx5 : x5.MemsWf := hx1.endPitch
    extract_lets +onlyGivenNames -merge -underBinder x6
    have hx6 : x6.MemsWf := .ite hx5.refreshPitch hx5
    exact .ite (.ite hx6.finishHandover hx6) (.ite hx6.afterDeadline hx6)
  · exact hx1

theorem State.MemsWf.doComputeWindowOpen {t : State} {a0} (h : t.MemsWf) : (doComputeWindowOpen a0 t).MemsWf := by
  unfold Machine.doComputeWindowOpen
  refine h.whenLive fun _ k0 => ?_
  extract_lets +onlyGivenNames -merge -underBinder x1
  have hx1 : x1.MemsWf := k0.judgeHold
  extract_lets +onlyGivenNames -merge -underBinder x2
  refine .ite ?_ hx1
  extract_lets +onlyGivenNames -merge -underBinder x3
  have hx3 : x3.MemsWf := .ite (hx1.forAll (fun _ _ k4 => k4.takeOwn)) hx1
  exact hx3.armHold.openWindow.sendPitch

theorem State.MemsWf.doProfileHandoverRelease {t : State} {a0} (h : t.MemsWf) : (doProfileHandoverRelease a0 t).MemsWf := by
  unfold Machine.doProfileHandoverRelease
  refine h.whenLive fun _ k0 => ?_
  split
  · split
    · exact .ite k0.cancelPending (.ite k0.sendCtrl.releaseActive.takeHandover k0)
    · exact k0
  · exact k0

theorem State.MemsWf.seljoMsg {t : State} {a0} {a1} {a2} {a3 : State → State} (hf : ∀ w, w.MemsWf → (a3 w).MemsWf) (h : t.MemsWf) : (seljoMsg a0 a1
    a2 a3 t).MemsWf := by
  unfold Machine.seljoMsg
  exact h.whenLive fun _ k0 => .ite k0 (.ite k0.seljoBad (hf _ k0.setSeljo))

theorem State.MemsWf.doSeljoCapture {t : State} {a0 a1 a2} (h : t.MemsWf) : (doSeljoCapture a0 a1 a2 t).MemsWf := by
  unfold Machine.doSeljoCapture
  refine h.seljoMsg fun _ k0 => ?_
  refine .ite k0.setSeljo ?_
  split
  · extract_lets +onlyGivenNames -merge -underBinder x1
    refine .ite ?_ k0
    extract_lets +onlyGivenNames -merge -underBinder x2 x3 x4
    have hx4 : x4.MemsWf := k0.keep
    extract_lets +onlyGivenNames -merge -underBinder x5
    have hx5 : x5.MemsWf := .foldl (fun _ _ k6 => k6.replayPitch) hx4
    exact hx5.setSeljo
  · exact k0

theorem State.MemsWf.doSeljoCtrl {t : State} {a0 a1 a2} (h : t.MemsWf) : (doSeljoCtrl a0 a1 a2 t).MemsWf := by
  unfold Machine.doSeljoCtrl
  refine h.seljoMsg fun _ k0 => ?_
  split
  · exact k0.setSeljo
  · exact k0
  · exact .ite k0.partnerHolds (.ite k0.startCheck k0)

theorem State.MemsWf.doSeljoHealth {t : State} {a0 a1 a2} (h : t.MemsWf) : (doSeljoHealth a0 a1 a2 t).MemsWf := by
  unfold Machine.doSeljoHealth
  exact h.seljoMsg fun _ k0 => k0.setPartner.bumpIf

theorem State.MemsWf.doSeljoLinkDown {t : State} {a0} (h : t.MemsWf) : (doSeljoLinkDown a0 t).MemsWf := by
  unfold Machine.doSeljoLinkDown
  exact h.whenLive fun _ k0 => k0.seljoDown

theorem State.MemsWf.doSeljoLinkUp {t : State} {a0} (h : t.MemsWf) : (doSeljoLinkUp a0 t).MemsWf := by
  unfold Machine.doSeljoLinkUp
  refine h.whenLive fun _ k0 => ?_
  refine .ite k0 ?_
  extract_lets +onlyGivenNames -merge -underBinder x1
  have hx1 : x1.MemsWf := k0.setSeljo.bump
  split
  · exact hx1.enterSyncing
  · exact hx1.setSeljo
  · exact hx1

theorem State.MemsWf.doSeljoPitch {t : State} {a0 a1 a2} (h : t.MemsWf) : (doSeljoPitch a0 a1 a2 t).MemsWf := by
  unfold Machine.doSeljoPitch
  refine h.seljoMsg fun _ k0 => ?_
  split
  · refine .ite k0 ?_
    extract_lets +onlyGivenNames -merge -underBinder x1 x2
    have hx2 : x2.MemsWf := k0.judgePitch
    extract_lets +onlyGivenNames -merge -underBinder x3
    have hx3 : x3.MemsWf := hx2.setSeljo
    exact .ite hx3 hx3.setSeljo
  · exact k0

theorem State.MemsWf.doSeljoSession {t : State} {a0 a1 a2 a3} (h : t.MemsWf) : (doSeljoSession a0 a1 a2 a3 t).MemsWf := by
  unfold Machine.doSeljoSession
  exact h.seljoMsg fun _ k0 => .ite k0 (.ite k0.serveUse k0.serveUse.takeSession.setSeljo)

theorem State.MemsWf.doSeljoState {t : State} {a0 a1 a2} (h : t.MemsWf) : (doSeljoState a0 a1 a2 t).MemsWf := by
  unfold Machine.doSeljoState
  exact h.seljoMsg fun _ k0 => .ite k0 k0.takeState.setSeljo.askCapture

theorem State.MemsWf.doSeljoTick {t : State} {a0 a1 a2 a3} (h : t.MemsWf) : (doSeljoTick a0 a1 a2 a3 t).MemsWf := by
  unfold Machine.doSeljoTick
  refine h.seljoMsg fun _ k0 => ?_
  extract_lets +onlyGivenNames -merge -underBinder x1
  have hx1 : x1.MemsWf := by
    unfold x1
    split
    · exact .ite k0 (.ite k0.setSeljo k0.diverge)
    · exact k0
  exact .ite hx1.setSeljo.clearOn hx1

theorem State.MemsWf.doSeljoTime {t : State} {a0 a1 a2 a3 a4 a5} (h : t.MemsWf) : (doSeljoTime a0 a1 a2 a3 a4 a5 t).MemsWf := by
  unfold Machine.doSeljoTime
  refine h.seljoMsg fun _ k0 => ?_
  extract_lets +onlyGivenNames -merge -underBinder x1 x2
  have hx2 : x2.MemsWf := k0.setSeljo
  exact .ite hx2.follow hx2

theorem State.MemsWf.sendState {t : State} {a1} (h : t.MemsWf) : (State.sendState t a1).MemsWf := by
  unfold State.sendState
  extract_lets +onlyGivenNames -merge -underBinder x0 x1 x2
  have hx2 : x2.MemsWf := .ite h.sendSeljo h
  refine .ite ?_ hx2
  refine hx2.forAll fun _ _ k3 => ?_
  split
  · exact .ite k3 k3.sendSession
  · exact k3

theorem State.MemsWf.sendTick {t : State} {a1 a2} (h : t.MemsWf) : (State.sendTick t a1 a2).MemsWf :=
  h.only (State.sendTick_only rfl (OnlyIn.refl _ _))

theorem State.MemsWf.sessTimeouts {t : State} {a1} (h : t.MemsWf) : (State.sessTimeouts t a1).MemsWf :=
  h.only (State.sessTimeouts_only rfl rfl rfl (fun _ => rfl) (fun _ => rfl) (fun _ => rfl) rfl rfl rfl (OnlyIn.refl _ _))

theorem State.MemsWf.tickBids {t : State} (h : t.MemsWf) : (State.tickBids t).MemsWf :=
  h.only (State.tickBids_only rfl (fun _ => rfl) (OnlyIn.refl _ _))

theorem State.MemsWf.tickClamp {t : State} (h : t.MemsWf) : (State.tickClamp t).MemsWf := by
  unfold State.tickClamp
  split
  · exact h.clampTo
  · exact h

theorem State.MemsWf.tickClear {t : State} {a1} (h : t.MemsWf) : (State.tickClear t a1).MemsWf := by
  unfold State.tickClear
  refine .ite h ?_
  extract_lets +onlyGivenNames -merge -underBinder x0
  exact h.sendTick.sendState.clearOn

theorem State.MemsWf.tickLive {t : State} {a1} (h : t.MemsWf) : (State.tickLive t a1).MemsWf := by
  unfold State.tickLive
  split
  · exact .ite (h.putProf fun w => w) h
  · exact h

theorem State.MemsWf.tickRampDown {t : State} (h : t.MemsWf) : (State.tickRampDown t).MemsWf := by
  unfold State.tickRampDown
  exact h.forAll fun _ _ k0 => .ite k0.rampedDown k0

theorem State.MemsWf.tickRearm {t : State} (h : t.MemsWf) : (State.tickRearm t).MemsWf :=
  h.only (State.tickRearm_only (fun _ => rfl) (OnlyIn.refl _ _))

theorem State.MemsWf.tickShedding {t : State} (h : t.MemsWf) : (State.tickShedding t).MemsWf :=
  h.only (State.tickShedding_only rfl (fun _ => rfl) rfl (OnlyIn.refl _ _))

theorem State.MemsWf.tickStops {t : State} (h : t.MemsWf) : (State.tickStops t).MemsWf :=
  h.only (State.tickStops_only rfl rfl rfl rfl (fun _ => rfl) rfl rfl rfl (OnlyIn.refl _ _))

theorem State.MemsWf.tickTakeOver {t : State} (h : t.MemsWf) : (State.tickTakeOver t).MemsWf := by
  unfold State.tickTakeOver
  exact .takePolicy (.takeTerms (.mramTick (h.putMet fun w => w)))

theorem State.MemsWf.doClearingCommit {t : State} {a0} (h : t.MemsWf) : (doClearingCommit a0 t).MemsWf := by
  unfold Machine.doClearingCommit
  refine h.whenLive fun _ k0 => ?_
  extract_lets +onlyGivenNames -merge -underBinder x1
  have hx1 : x1.MemsWf := k0.judgeHold
  split
  · refine .ite ?_ hx1
    extract_lets +onlyGivenNames -merge -underBinder x2
    have hx2 : x2.MemsWf := .ite hx1.refreshTick hx1
    exact .retake (hx2.sessTimeouts.commitTick.forAll (fun _ _ k3 => (.ite k3.tryCableTarget k3)))
  · exact hx1

theorem State.MemsWf.doTickStart {t : State} {a0 a1} (h : t.MemsWf) : (doTickStart a0 a1 t).MemsWf := by
  unfold Machine.doTickStart
  refine h.whenLive fun _ k0 => ?_
  refine .ite ?_ k0
  extract_lets +onlyGivenNames -merge -underBinder x1
  have hx1 : x1.MemsWf := k0.judgeHold.armHold
  extract_lets +onlyGivenNames -merge -underBinder x2
  have hx2 : x2.MemsWf := hx1.tickTakeOver.tickLive.tickClamp.tickBids.tickClear
  extract_lets +onlyGivenNames -merge -underBinder x3
  have hx3 : x3.MemsWf := hx2.tickStops.tickRearm.tickShedding.tickRampDown
  exact hx3.coolTick.auxTick.judgeBusLoad.clearBusLoad

theorem State.MemsWf.setLock {t : State} {a1} (h : t.MemsWf) : (State.setLock t a1).MemsWf := h.only (State.setLock_only rfl (OnlyIn.refl _ _))

theorem State.MemsWf.sysTry {t : State} {a1} (h : t.MemsWf) : (State.sysTry t a1).1.MemsWf := by
  unfold State.sysTry
  extract_lets +onlyGivenNames -merge -underBinder x0 x1
  have hx1 : x1.MemsWf := h.noteUse
  exact .iteFst hx1.setLock.bumpIf hx1.setLock.bump

theorem State.MemsWf.sysUnlock {t : State} {a1} (h : t.MemsWf) : (State.sysUnlock t a1).1.MemsWf := by
  unfold State.sysUnlock
  split
  · exact h.newSysNonce
  · refine .iteFst h.newSysNonce ?_
    extract_lets +onlyGivenNames -merge -underBinder x0
    have hx0 : x0.1.MemsWf := h.sysTry
    exact hx0.newSysNonce

theorem State.MemsWf.sysSeal {t : State} (h : t.MemsWf) : (State.sysSeal t).MemsWf := h.only (State.sysSeal_only rfl rfl rfl (OnlyIn.refl _ _))

theorem State.MemsWf.lockCtrlWrite {t : State} {a1 a2} (h : t.MemsWf) : (State.lockCtrlWrite t a1 a2).1.MemsWf := by
  unfold State.lockCtrlWrite
  exact .iteFst h (.iteFst h.sysUnlock (.iteFst h.sysSeal h))

theorem State.MemsWf.doSysUnlock {t : State} {a0 a1} (h : t.MemsWf) : (doSysUnlock a0 a1 t).MemsWf := by
  unfold Machine.doSysUnlock
  refine h.whenLive fun _ k0 => ?_
  split
  · exact k0.answered
  · extract_lets +onlyGivenNames -merge -underBinder x1
    have hx1 : x1.1.MemsWf := k0.sysUnlock
    exact hx1.answered

theorem EffsMems.sysWrite {a0 a1 a2 a3} : EffsMems (sysWrite a0 a1 a2 a3) := by
  unfold Machine.sysWrite
  split
  · exact .some (.mk fun _ k0 => .ite (.bumpIf (k0.putProf fun w => w)) k0)
  · exact .some (.mk fun _ k2 => k2.putProf fun w => w)
  · exact .some (.mk fun _ k4 => k4.keep.bumpIf)
  · exact .ite (.some (.mk fun _ k6 => k6.setLock)) (.map fun _ => EffMems.roWord)

theorem State.MemsWf.applyEffect {t : State} {a1 a2 a3} (hf : EffMems a3) (h : t.MemsWf) : (State.applyEffect t a1 a2 a3).1.MemsWf := by
  unfold State.applyEffect
  split
  · exact h
  · exact hf _ (h.when (fun _ k0 => k0.chargePolicy))

theorem State.MemsWf.storeCore {t : State} {a1 a2} (h : t.MemsWf) : (State.storeCore t a1 a2).MemsWf := by
  unfold State.storeCore
  exact h.putMet fun w => memWrites_wf _ _ w

theorem EffsMems.latWrite {a0 a1 a2} : EffsMems (latWrite a0 a1 a2) := .of (latWrite_eff rfl rfl)

theorem EffsMems.stlWrite {a0 a1 a2 a3} : EffsMems (stlWrite a0 a1 a2 a3) := .of (stlWrite_eff rfl rfl rfl)

theorem EffsMems.stlCommonWrite {a0 a1 a2} : EffsMems (stlCommonWrite a0 a1 a2) := .of (stlCommonWrite_eff rfl rfl rfl rfl)

theorem EffsMems.lowEffect {a0 a1 a2 a3} : EffsMems (lowEffect a0 a1 a2 a3) := by
  unfold Machine.lowEffect
  exact .ite EffsMems.sysWrite (.ite EffsMems.clkWrite (.ite EffsMems.latWrite (.ite EffsMems.stlWrite (.ite EffsMems.stlCommonWrite (.ite
      EffsMems.bayWrite EffsMems.mktWrite)))))

theorem EffsMems.hostWrite {a0 a1 a2 a3} : EffsMems (hostWrite a0 a1 a2 a3) := .of (hostWrite_eff rfl rfl)

theorem EffsMems.highEffect {t : State} {a1 a2 a3} (h : t.MemsWf) : EffsMems (highEffect t a1 a2 a3) := by
  unfold Machine.highEffect
  exact .ite EffsMems.thmWrite (.ite EffsMems.auxWrite (.ite EffsMems.metWrite (.ite EffsMems.safWrite (.ite EffsMems.pairWrite (.ite
      (EffsMems.sbusWrite h) (.ite EffsMems.hostWrite (.ite EffsMems.keyWrite (.ite EffsMems.keyWindowWrite (.ite EffsMems.updWrite (.ite
      EffsMems.chunkWindowWrite (.ite EffsMems.ldgWrite (.map fun _ => EffMems.profWindowEffect))))))))))))

theorem State.MemsWf.writeMapped {t : State} {a1 a2 a3} (h : t.MemsWf) : (State.writeMapped t a1 a2 a3).1.MemsWf := by
  unfold State.writeMapped
  split
  · exact h.profCtrlWrite
  · exact h.lockCtrlWrite
  · exact h.pwrCtrlWrite
  · exact h.safCtrlWrite
  · exact h.lcWrite
  · exact h.updCtrlWrite
  · exact h.actWrite
  · split
    · next e0 =>
        exact h.applyEffect ((EffsMems.ite EffsMems.lowEffect (EffsMems.highEffect h)) _ e0)
    · next e1 =>
        exact h

theorem State.MemsWf.writeWord {t : State} {a1 a2 a3} (h : t.MemsWf) : (State.writeWord t a1 a2 a3).1.MemsWf := by
  unfold State.writeWord
  refine .iteFst (.iteFst h (.iteFst h.storeCore h)) ?_
  split
  · exact h
  · split
    · exact h
    · exact .iteFst h h.writeMapped

theorem State.MemsWf.doRegisterWrite {t : State} {a0 a1 a2 a3} (h : t.MemsWf) : (doRegisterWrite a0 a1 a2 a3 t).MemsWf := by
  unfold Machine.doRegisterWrite
  refine h.whenLive fun _ k0 => ?_
  extract_lets +onlyGivenNames -merge -underBinder x1
  have hx1 : x1.1.MemsWf := k0.writeWord
  exact hx1.answered

theorem State.MemsWf.countHost {t : State} {a1} (h : t.MemsWf) : (State.countHost t a1).MemsWf :=
  h.only (State.countHost_only rfl rfl rfl (OnlyIn.refl _ _))

theorem State.MemsWf.finish {t : State} {a1 a2 a3 a4 a5 a6} (h : t.MemsWf) : (State.finish t a1 a2 a3 a4 a5 a6).MemsWf :=
  h.only (State.finish_only rfl rfl rfl rfl (OnlyIn.refl _ _))

theorem State.MemsWf.popRequest {t : State} {a1} (h : t.MemsWf) : (State.popRequest t a1).MemsWf :=
  h.only (State.popRequest_only rfl (OnlyIn.refl _ _))

theorem State.MemsWf.writeWords {t : State} {m a i ws} (h : t.MemsWf) : (writeWords m t a i ws).state.MemsWf := by
  induction ws generalizing t a i with
  | nil => exact h
  | cons v vs ih =>
    have written : ((t.writeWord m a v).1.answered m true a (t.writeWord m a v).2).MemsWf := h.writeWord.answered
    unfold Machine.writeWords
    dsimp only
    split
    · exact written
    · split
      · exact written
      · exact ih written

theorem State.MemsWf.runWrite {t : State} {a1 a2 a3 a4} (h : t.MemsWf) : (State.runWrite t a1 a2 a3 a4).MemsWf := by
  unfold State.runWrite
  extract_lets +onlyGivenNames -merge -underBinder x0
  have hx0 : x0.state.MemsWf := h.writeWords
  exact .ite hx0 hx0.finish

theorem State.MemsWf.sendKept {t : State} {a1 a2} (h : t.MemsWf) : (State.sendKept t a1 a2).MemsWf :=
  h.only (State.sendKept_only rfl rfl rfl rfl (OnlyIn.refl _ _))

theorem State.MemsWf.transaction {t : State} {a1} {a2} {a3} {a4} {a5} {a6} {a7} {a8 : Option Request → State → State} (hf : ∀ i0 w, w.MemsWf → (a8 i0
    w).MemsWf) (h : t.MemsWf) : (State.transaction t a1 a2 a3 a4 a5 a6 a7 a8).MemsWf := by
  unfold State.transaction
  split
  · refine .ite h ?_
    extract_lets +onlyGivenNames -merge -underBinder x0
    have hx0 : x0.MemsWf := h.popRequest
    split
    · exact hx0.sendKept
    · exact hf _ _ hx0
  · extract_lets +onlyGivenNames -merge -underBinder x1
    have hx1 : x1.MemsWf := .ite h.countHost h
    exact .ite (hf _ _ hx1) hx1.setHost

theorem State.MemsWf.doWrite {t : State} {a0 a1 a2 a3 a4} (h : t.MemsWf) : (doWrite a0 a1 a2 a3 a4 t).MemsWf := by
  unfold Machine.doWrite
  refine h.whenLive fun _ k0 => ?_
  extract_lets +onlyGivenNames -merge -underBinder x1
  exact k0.transaction fun _ _ k2 => k2.runWrite

end Sys2Proof.Machine
end

section
/-! PROOFS. Every step keeps every sparse memory in canonical form. -/
namespace Sys2Proof.Machine

/-- A command whose reach leaves the blocks with memories out keeps them by its frame. -/
theorem exec_mems_of_frame {c : Instr} {s : State} (hr : touchesMems (reach c) = false) (h : s.MemsWf) : ∃ u, exec c s = .next u ∧ u.MemsWf := by
  obtain ⟨u, hu, frame⟩ := exec_reaches c s
  exact ⟨u, hu, h.framed frame hr⟩

theorem exec_mems (c : Instr) {s : State} (h : s.MemsWf) : ∃ u, exec c s = .next u ∧ u.MemsWf := by
  cases c with
  | tickStart => exact ⟨_, rfl, h.doTickStart⟩
  | clearingCommit => exact ⟨_, rfl, h.doClearingCommit⟩
  | computeWindowOpen => exact ⟨_, rfl, h.doComputeWindowOpen⟩
  | computeDeadline => exact ⟨_, rfl, h.doComputeDeadline⟩
  | profileWindowWrite => exact ⟨_, rfl, h.doProfileWindowWrite⟩
  | check => exact ⟨_, rfl, h.doCheck⟩
  | activate => exact ⟨_, rfl, h.doActivate⟩
  | erase => exact ⟨_, rfl, h.doErase⟩
  | cancel => exact ⟨_, rfl, h.doCancel⟩
  | checkComplete => exact ⟨_, rfl, h.doCheckComplete⟩
  | checkTimeout => exact ⟨_, rfl, h.doCheckTimeout⟩
  | pendingTimeout => exact ⟨_, rfl, h.doPendingTimeout⟩
  | profileSwitch => exact ⟨_, rfl, h.doProfileSwitch⟩
  | sdpRequest => exact ⟨_, rfl, h.doSdpRequest⟩
  | sessionSetupReq => exact ⟨_, rfl, h.doSessionSetupReq⟩
  | authorizationReq => exact ⟨_, rfl, h.doAuthorizationReq⟩
  | parameterReq => exact ⟨_, rfl, h.doParameterReq⟩
  | dcCableCheckReq => exact ⟨_, rfl, h.doDcCableCheckReq⟩
  | dcPreChargeReq => exact ⟨_, rfl, h.doDcPreChargeReq⟩
  | powerDeliveryReq => exact ⟨_, rfl, h.doPowerDeliveryReq⟩
  | chargeLoopReq => exact ⟨_, rfl, h.doChargeLoopReq⟩
  | weldingDetectionReq => exact ⟨_, rfl, h.doWeldingDetectionReq⟩
  | sessionStopReq => exact ⟨_, rfl, h.doSessionStopReq⟩
  | metrologySample => exact ⟨_, rfl, h.doMetrologySample⟩
  | calBlock => exact ⟨_, rfl, h.doCalBlock⟩
  | metrologyCommit => exact ⟨_, rfl, h.doMetrologyCommit⟩
  | bayDead => exact ⟨_, rfl, h.doBayDead⟩
  | receiptIssue => exact ⟨_, rfl, h.doReceiptIssue⟩
  | receiptDrain => exact ⟨_, rfl, h.doReceiptDrain⟩
  | calSetEffect => exact ⟨_, rfl, h.doCalSetEffect⟩
  | rcptAck => exact ⟨_, rfl, h.doRcptAck⟩
  | metrologyFwActivation => exact ⟨_, rfl, h.doMetrologyFwActivation⟩
  | safetyScan => exact ⟨_, rfl, h.doSafetyScan⟩
  | initWaitEnd => exact ⟨_, rfl, h.doInitWaitEnd⟩
  | activeIAssert => exact ⟨_, rfl, h.doActiveIAssert⟩
  | claimConfirm => exact ⟨_, rfl, h.doClaimConfirm⟩
  | claimConflictTimeout => exact ⟨_, rfl, h.doClaimConflictTimeout⟩
  | takeover => exact ⟨_, rfl, h.doTakeover⟩
  | syncTimeout => exact ⟨_, rfl, h.doSyncTimeout⟩
  | resyncElapsed => exact ⟨_, rfl, h.doResyncElapsed⟩
  | seljoTime => exact ⟨_, rfl, h.doSeljoTime⟩
  | seljoPitch => exact ⟨_, rfl, h.doSeljoPitch⟩
  | seljoTick => exact ⟨_, rfl, h.doSeljoTick⟩
  | seljoSession => exact ⟨_, rfl, h.doSeljoSession⟩
  | seljoState => exact ⟨_, rfl, h.doSeljoState⟩
  | seljoCapture => exact ⟨_, rfl, h.doSeljoCapture⟩
  | seljoHealth => exact ⟨_, rfl, h.doSeljoHealth⟩
  | seljoCtrl => exact ⟨_, rfl, h.doSeljoCtrl⟩
  | seljoLinkUp => exact ⟨_, rfl, h.doSeljoLinkUp⟩
  | seljoLinkDown => exact ⟨_, rfl, h.doSeljoLinkDown⟩
  | heartbeatSend => exact ⟨_, rfl, h.doHeartbeatSend⟩
  | heartbeatFrame => exact ⟨_, rfl, h.doHeartbeatFrame⟩
  | policySegmentSend => exact ⟨_, rfl, h.doPolicySegmentSend⟩
  | updateHeartbeatSend => exact ⟨_, rfl, h.doUpdateHeartbeatSend⟩
  | healthCheck => exact ⟨_, rfl, h.doHealthCheck⟩
  | profileHandoverRelease => exact ⟨_, rfl, h.doProfileHandoverRelease⟩
  | referenceSend => exact ⟨_, rfl, h.doReferenceSend⟩
  | referenceReceived => exact ⟨_, rfl, h.doReferenceReceived⟩
  | referenceMissing => exact ⟨_, rfl, h.doReferenceMissing⟩
  | canFrameReceived => exact ⟨_, rfl, h.doCanFrameReceived⟩
  | slotMiss => exact ⟨_, rfl, h.doSlotMiss⟩
  | arbitratingWindow => exact ⟨_, rfl, h.doArbitratingWindow⟩
  | canTxComplete => exact ⟨_, rfl, h.doCanTxComplete⟩
  | canTxError => exact ⟨_, rfl, h.doCanTxError⟩
  | busOffRecovery => exact ⟨_, rfl, h.doBusOffRecovery⟩
  | tatCommitPoint => exact ⟨_, rfl, h.doTatCommitPoint⟩
  | mailboxSend => exact ⟨_, rfl, h.doMailboxSend⟩
  | mailboxCancel => exact ⟨_, rfl, h.doMailboxCancel⟩
  | tatArm => exact ⟨_, rfl, h.doTatArm⟩
  | tatLoad => exact ⟨_, rfl, h.doTatLoad⟩
  | tatCancel => exact ⟨_, rfl, h.doTatCancel⟩
  | fifoPop => exact ⟨_, rfl, h.doFifoPop⟩
  | busSleep => exact ⟨_, rfl, h.doBusSleep⟩
  | busWakeWrite => exact ⟨_, rfl, h.doBusWakeWrite⟩
  | busWake => exact ⟨_, rfl, h.doBusWake⟩
  | sbusClrCnt => exact ⟨_, rfl, h.doSbusClrCnt⟩
  | write => exact ⟨_, rfl, h.doWrite⟩
  | registerWrite => exact ⟨_, rfl, h.doRegisterWrite⟩
  | sysUnlock => exact ⟨_, rfl, h.doSysUnlock⟩
  | referenceLoss => exact ⟨_, rfl, h.doReferenceLoss⟩
  | referenceRestored => exact ⟨_, rfl, h.doReferenceRestored⟩
  | coldStart => exact ⟨_, rfl, h.doColdStart⟩
  | brownOut => exact ⟨_, rfl, h.doBrownOut⟩
  | rstN => exact ⟨_, rfl, h.doRstN⟩
  | internalReset => exact ⟨_, rfl, h.doInternalReset⟩
  | resetKey => exact ⟨_, rfl, h.doResetKey⟩
  | watchdog => exact ⟨_, rfl, h.doWatchdog⟩
  | lockstepDisagree => exact ⟨_, rfl, h.doLockstepDisagree⟩
  | dormant => exact ⟨_, rfl, h.doDormant⟩
  | dormantCommit => exact ⟨_, rfl, h.doDormantCommit⟩
  | dormantWake => exact ⟨_, rfl, h.doDormantWake⟩
  | powerFailWarning => exact ⟨_, rfl, h.doPowerFailWarning⟩
  | powerFailClear => exact ⟨_, rfl, h.doPowerFailClear⟩
  | supplyOutOfRange => exact ⟨_, rfl, h.doSupplyOutOfRange⟩
  | junctionTempCheck => exact ⟨_, rfl, h.doJunctionTempCheck⟩
  | tamper => exact ⟨_, rfl, h.doTamper⟩
  | generate => exact ⟨_, rfl, h.doGenerate⟩
  | load => exact ⟨_, rfl, h.doLoad⟩
  | unload => exact ⟨_, rfl, h.doUnload⟩
  | store => exact ⟨_, rfl, h.doStore⟩
  | delete => exact ⟨_, rfl, h.doDelete⟩
  | attest => exact ⟨_, rfl, h.doAttest⟩
  | remask => exact ⟨_, rfl, h.doRemask⟩
  | lcAdvance => exact ⟨_, rfl, h.doLcAdvance⟩
  | chunkCommit => exact ⟨_, rfl, h.doChunkCommit⟩
  | abort => exact ⟨_, rfl, h.doAbort⟩
  | apply => exact ⟨_, rfl, h.doApply⟩
  | raise => exact ⟨_, rfl, h.doRaise⟩
  | actModeWrite => exact ⟨_, rfl, h.doActModeWrite⟩
  | activationLead => exact ⟨_, rfl, h.doActivationLead⟩
  | scheduledActivation => exact ⟨_, rfl, h.doScheduledActivation⟩
  | activationSkip => exact ⟨_, rfl, h.doActivationSkip⟩
  | handoverActivation => exact ⟨_, rfl, h.doHandoverActivation⟩
  | handoverActivationTimeout => exact ⟨_, rfl, h.doHandoverActivationTimeout⟩
  | trialEnd => exact ⟨_, rfl, h.doTrialEnd⟩
  | floorRaise => exact ⟨_, rfl, h.doFloorRaise⟩
  | ledgerRecordWrite => exact ⟨_, rfl, h.doLedgerRecordWrite⟩
  | clrSys => exact ⟨_, rfl, h.doClrSys⟩
  | clrSaf => exact ⟨_, rfl, h.doClrSaf⟩
  | canRxError => exact ⟨_, rfl, h.doCanRxError⟩
  | keyOpComplete => exact ⟨_, rfl, h.doKeyOpComplete⟩
  | supportedAppProtocolReq => exact ⟨_, rfl, h.doSupportedAppProtocolReq⟩
  | tlsHandshake => exact ⟨_, rfl, h.doTlsHandshake⟩
  | dormantOutputRelease => exact ⟨_, rfl, h.doDormantOutputRelease⟩
  | vbatDomainLoss => exact ⟨_, rfl, h.doVbatDomainLoss⟩
  | _ => exact exec_mems_of_frame rfl h

/-- Settles O7: the commands that reach a block with memories one by one, every other command by its frame. -/
theorem memoriesStayCanonical : Obligations.MemoriesStayCanonical := by
  unfold Obligations.MemoriesStayCanonical
  intro s u h hu
  rcases hq : s.pending with _ | ⟨c, rest⟩
  · rw [emptyQueueIdles s hq] at hu
    exact Host.Outcome.next.inj hu ▸ h
  · have wf : State.MemsWf { s with pending := rest } := ((State.memsWf_iff s).1 h).keep
    obtain ⟨v, hv, mems⟩ := exec_mems c wf
    have e : exec c { s with pending := rest } = .next u := by rw [← hu, step, hq]
    rw [hv] at e
    exact Host.Outcome.next.inj e ▸ (State.memsWf_iff v).2 mems

end Sys2Proof.Machine
end
